-- ==== Sys2Proof/Word.lean ====
section
/-!
DEFINITION. Words, bytes and the bit-field shape that every register map of the spec uses (R1, R2).
-/

namespace Sys2Proof

/-- A byte. -/
abbrev Byte := BitVec 8

/-- A 32-bit word: a register (R473) or a general register of a core. -/
abbrev Word := BitVec 32

/-- A field of a 32-bit register: its least significant bit and its width (R1). -/
structure Fld where
  lo : Nat
  w  : Nat
deriving DecidableEq, Repr

end Sys2Proof
end

