-- ==== Sys2Proof/Types.lean ====
section
/-!
DEFINITION. The operand types of the commands: who sends, which pad, which core, and the contents of
the packets, frames and replies that reach the device from outside.
-/

namespace Sys2Proof

/-- A core that runs instructions of group IB: an expansion core, a control core, or the Sagger's
lockstep triple (R26, R403). -/
inductive Core where
  | xc (n : Fin 144)
  | cc (k : Fin 4)
  | sg
deriving DecidableEq, Repr

/-- A core that runs the system instructions of group IS: a control core or the Sagger (R26). -/
inductive IsCore where
  | cc (k : Fin 4)
  | sg
deriving DecidableEq, Repr

/-- A master checked by PROT, with the index in PERM that R465 gives it. -/
inductive Master where
  | si
  | cc (k : Fin 4) (user : Bool)
  | host
  | dma (n : Fin 32)
  | xc
  | st
  | en (e : Fin 2)
deriving DecidableEq, Repr

/-- A pad of the firing sequencer that is compared with its intended level (R166). -/
inductive FsPad where
  | fire (k : Fin 16)
  | cam (c : Fin 12)
deriving DecidableEq, Repr

/-- A gating input (R168). -/
inductive GateInput where
  | gate (n : Fin 16)
  | safeReq
deriving DecidableEq, Repr

/-- A switch input of a motion axis (R356). -/
inductive AxSwitch where
  | neg
  | pos
  | home
deriving DecidableEq, Repr

/-- A base address register of the host interface (R317). -/
inductive Bar where
  | bar0
  | bar2
  | bar4
deriving DecidableEq, Repr

/-- How a read of host memory by a channel fails (R322, R323). -/
inductive HostErr where
  | timeout
  | unsupported
  | abort
  | poisoned
deriving DecidableEq, Repr

/-- The SOP block of a packet received from a hub (R185): packet type, LEN and bytes 4 to 7; and whether
LEN data blocks follow it with no control block among them. -/
structure HubSop where
  typ   : BitVec 8
  len   : BitVec 16
  pad   : BitVec 32
  whole : Bool
deriving DecidableEq, Repr

/-- A block received from a hub outside a packet (R185): a READY block or another control block, with its
bytes 1 to 7, or a data block. -/
inductive HubBlock where
  | ready (bytes : BitVec 56)
  | control (typ : BitVec 8) (bytes : BitVec 56)
  | data
deriving DecidableEq, Repr

/-- A packet received from a hub that is no STATUS: its SOP block, for a HEARTBEAT the fields of R197, and
whether its CRC trailer is right. -/
structure HubHeartbeat where
  sop     : HubSop
  crcOk   : Bool
  ack     : BitVec 64
  nseq    : BitVec 16
  nack    : Bool
  syncErr : Bool
  miss    : Bool
  mslot   : BitVec 4
  mln     : BitVec 64
deriving DecidableEq, Repr

/-- A STATUS received from a hub: its SOP block, its 40 body bytes (R198) and whether its CRC trailer is
right. -/
structure HubStatus where
  sop   : HubSop
  crcOk : Bool
  body  : List Byte
deriving DecidableEq, Repr

/-- A CoaXPress stream packet: whether it belongs to the port's image stream, whether its CRC is
right, the samples of the line being received that it carries, and those of the lines after it, whose
markers it holds too (R208, R210). -/
structure StreamPacket where
  image   : Bool
  crcOk   : Bool
  samples : List (BitVec 16)
  later   : List (List (BitVec 16))
deriving DecidableEq, Repr

/-- How a camera answers a mailbox transaction (R222, R223): a wait acknowledgement, its final
acknowledgement with the bytes read, its error code, or an acknowledgement whose CRC failed twice in a
row. -/
inductive MbxReply where
  | wait
  | ok (data : List Byte)
  | error (code : BitVec 8)
  | badCrc
deriving DecidableEq, Repr

/-- An Ethernet frame as it reaches a port: its bytes without the FCS, whether the FCS is right, and
the phase of its reference point in units of 625 ps (R396, R398). -/
structure RxFrame where
  bytes : List Byte
  fcsOk : Bool
  phase : BitVec 4
deriving DecidableEq, Repr

/-- The fields of SRR beside rd: the system register, and ra, which names nothing (R47). -/
structure SrField where
  ra : BitVec 5
  sr : BitVec 8
deriving DecidableEq, Repr

/-- A lane, and the RATE block that its hub sends (bytes 1 to 7); none: the device's own countdown (R188). -/
structure LaneRate where
  lane : Fin 32
  hub  : Option (BitVec 56)
deriving DecidableEq, Repr

/-- A lane, and the block that it receives from its hub outside a packet. -/
structure LaneBlock where
  lane  : Fin 32
  block : HubBlock
deriving DecidableEq, Repr

/-- A DMA channel, and how its read of host memory fails. -/
structure HostFail where
  chan : Fin 32
  err  : HostErr
deriving DecidableEq, Repr

/-- A line of an encoder, 0 A, 1 B, 2 Z, whose pads have come to disagree for 16 ticks, or agree again
(R364). -/
structure WireEdge where
  line : Fin 3
  bad  : Bool
deriving DecidableEq, Repr

/-- The errors in a DRAM line as its burst is read (R307): none, or the pins of the 40-bit subchannel on
which a bit is wrong. -/
inductive ReadCheck where
  | clean
  | errors (pins : List (Fin 40))
deriving DecidableEq, Repr

/-- What a request says of its row (R299). -/
inductive PageHint where
  | none
  | keep
  | close
deriving DecidableEq, Repr

/-- The port of a request, its source in the port, and its page hint (R18, R299). -/
structure DramSource where
  port : Fin 8
  src  : Fin 32
  hint : PageHint
deriving DecidableEq, Repr

/-- A request at a DRAM port (R297, R298): a read of a number of bytes with the errors in its first line,
or a write of bytes. -/
inductive DramOp where
  | read (len : Nat) (check : ReadCheck)
  | write (data : List Byte)
deriving DecidableEq, Repr

end Sys2Proof
end

