-- ==== Sys2Proof/Syntax.lean ====
section
/-!
DEFINITION. The commands of the device: one constructor per row of the opcode table, with the row's
operands. A command is a register access, an instruction that a core executes, a pin, packet or bus
event, or the end of an operation that the device runs on its own; each is whole and indivisible.
-/

namespace Sys2Proof

/-- The commands of the device, one per row of the opcode table. -/
inductive Instr where
  /-- REGISTER_WRITE: A write to a register that has no row of its own sets its fields according to
      their access types. (R3) -/
  | registerWrite (m : Master) (off : BitVec 26) (v : BitVec 32)
  /-- EVT_ROUTE_WRITE: A write to an event routing entry takes effect in the next cycle for
      control-core inputs and for host messages. (R24) -/
  | evtRouteWrite (m : Master) (n : Fin 864) (v : BitVec 32)
  /-- VECTOR_HOLDOFF_EXPIRY: The 1 µs interval after a message on a vector ends, and the requests
      gathered during it produce one message. (R22) -/
  | vectorHoldoffExpiry (vec : Fin 256)
  /-- VECTOR_UNMASK: A masked MSI-X vector whose Pending Bit is set is unmasked and sends its message.
      (R22) -/
  | vectorUnmask (vec : Fin 256)
  /-- ADD: Adds two registers. (R29) -/
  | add (c : Core) (rd ra rb : BitVec 5)
  /-- SUB: Subtracts two registers. (R29) -/
  | sub (c : Core) (rd ra rb : BitVec 5)
  /-- AND: Bitwise AND of two registers. (R29) -/
  | and (c : Core) (rd ra rb : BitVec 5)
  /-- OR: Bitwise OR of two registers. (R29) -/
  | or (c : Core) (rd ra rb : BitVec 5)
  /-- XOR: Bitwise XOR of two registers. (R29) -/
  | xor (c : Core) (rd ra rb : BitVec 5)
  /-- ANDN: AND of one register with the complement of another. (R29) -/
  | andn (c : Core) (rd ra rb : BitVec 5)
  /-- SLL: Logical left shift by a register amount. (R29) -/
  | sll (c : Core) (rd ra rb : BitVec 5)
  /-- SRL: Logical right shift by a register amount. (R29) -/
  | srl (c : Core) (rd ra rb : BitVec 5)
  /-- SRA: Arithmetic right shift by a register amount. (R29) -/
  | sra (c : Core) (rd ra rb : BitVec 5)
  /-- ROR: Rotates a register right by a register amount. (R29) -/
  | ror (c : Core) (rd ra rb : BitVec 5)
  /-- SLT: Sets 1 if one register is less than another, signed. (R29) -/
  | slt (c : Core) (rd ra rb : BitVec 5)
  /-- SLTU: Sets 1 if one register is less than another, unsigned. (R29) -/
  | sltu (c : Core) (rd ra rb : BitVec 5)
  /-- MIN: Signed minimum of two registers. (R29) -/
  | min (c : Core) (rd ra rb : BitVec 5)
  /-- MAX: Signed maximum of two registers. (R29) -/
  | max (c : Core) (rd ra rb : BitVec 5)
  /-- MINU: Unsigned minimum of two registers. (R29) -/
  | minu (c : Core) (rd ra rb : BitVec 5)
  /-- MAXU: Unsigned maximum of two registers. (R29) -/
  | maxu (c : Core) (rd ra rb : BitVec 5)
  /-- CLZ: Counts the leading zeros of a register. (R29) -/
  | clz (c : Core) (rd ra : BitVec 5)
  /-- CTZ: Counts the trailing zeros of a register. (R29) -/
  | ctz (c : Core) (rd ra : BitVec 5)
  /-- POPC: Counts the ones in a register. (R29) -/
  | popc (c : Core) (rd ra : BitVec 5)
  /-- MUL: Low 32 bits of a product. (R29) -/
  | mul (c : Core) (rd ra rb : BitVec 5)
  /-- MULH: High 32 bits of a signed product. (R29) -/
  | mulh (c : Core) (rd ra rb : BitVec 5)
  /-- MULHU: High 32 bits of an unsigned product. (R29) -/
  | mulhu (c : Core) (rd ra rb : BitVec 5)
  /-- DIV: Signed quotient, with fixed results for a zero divisor and for overflow. (R30) -/
  | div (c : Core) (rd ra rb : BitVec 5)
  /-- DIVU: Unsigned quotient, with a fixed result for a zero divisor. (R30) -/
  | divu (c : Core) (rd ra rb : BitVec 5)
  /-- REM: Signed remainder, with fixed results for a zero divisor and for overflow. (R30) -/
  | rem (c : Core) (rd ra rb : BitVec 5)
  /-- REMU: Unsigned remainder, with a fixed result for a zero divisor. (R30) -/
  | remu (c : Core) (rd ra rb : BitVec 5)
  /-- ADDI: Adds a sign-extended immediate. (R31) -/
  | addi (c : Core) (rd ra : BitVec 5) (imm : BitVec 16)
  /-- ANDI: ANDs with a zero-extended immediate. (R31) -/
  | andi (c : Core) (rd ra : BitVec 5) (imm : BitVec 16)
  /-- ORI: ORs with a zero-extended immediate. (R31) -/
  | ori (c : Core) (rd ra : BitVec 5) (imm : BitVec 16)
  /-- XORI: XORs with a zero-extended immediate. (R31) -/
  | xori (c : Core) (rd ra : BitVec 5) (imm : BitVec 16)
  /-- SLTI: Signed compare with an immediate. (R31) -/
  | slti (c : Core) (rd ra : BitVec 5) (imm : BitVec 16)
  /-- SLTIU: Unsigned compare with a sign-extended immediate. (R31) -/
  | sltiu (c : Core) (rd ra : BitVec 5) (imm : BitVec 16)
  /-- SLLI: Logical left shift by an immediate. (R31) -/
  | slli (c : Core) (rd ra : BitVec 5) (sh : BitVec 5)
  /-- SRLI: Logical right shift by an immediate. (R31) -/
  | srli (c : Core) (rd ra : BitVec 5) (sh : BitVec 5)
  /-- SRAI: Arithmetic right shift by an immediate. (R31) -/
  | srai (c : Core) (rd ra : BitVec 5) (sh : BitVec 5)
  /-- LUI: Loads an immediate into the upper half of a register. (R31) -/
  | lui (c : Core) (rd : BitVec 5) (imm : BitVec 16)
  /-- JALR: Jumps to a register plus offset and links. (R33) -/
  | jalr (c : Core) (rd ra : BitVec 5) (imm : BitVec 16)
  /-- LB: Loads a sign-extended byte. (R32) -/
  | lb (c : Core) (rd ra : BitVec 5) (imm : BitVec 16)
  /-- LBU: Loads a zero-extended byte. (R32) -/
  | lbu (c : Core) (rd ra : BitVec 5) (imm : BitVec 16)
  /-- LH: Loads a sign-extended half-word. (R32) -/
  | lh (c : Core) (rd ra : BitVec 5) (imm : BitVec 16)
  /-- LHU: Loads a zero-extended half-word. (R32) -/
  | lhu (c : Core) (rd ra : BitVec 5) (imm : BitVec 16)
  /-- LW: Loads a word. (R32) -/
  | lw (c : Core) (rd ra : BitVec 5) (imm : BitVec 16)
  /-- SB: Stores a byte. (R32) -/
  | sb (c : Core) (rs ra : BitVec 5) (imm : BitVec 16)
  /-- SH: Stores a half-word. (R32) -/
  | sh (c : Core) (rs ra : BitVec 5) (imm : BitVec 16)
  /-- SW: Stores a word. (R32) -/
  | sw (c : Core) (rs ra : BitVec 5) (imm : BitVec 16)
  /-- BEQ: Branches if two registers are equal. (R33) -/
  | beq (c : Core) (ra rb : BitVec 5) (off : BitVec 16)
  /-- BNE: Branches if two registers differ. (R33) -/
  | bne (c : Core) (ra rb : BitVec 5) (off : BitVec 16)
  /-- BLT: Branches on signed less-than. (R33) -/
  | blt (c : Core) (ra rb : BitVec 5) (off : BitVec 16)
  /-- BGE: Branches on signed greater-or-equal. (R33) -/
  | bge (c : Core) (ra rb : BitVec 5) (off : BitVec 16)
  /-- BLTU: Branches on unsigned less-than. (R33) -/
  | bltu (c : Core) (ra rb : BitVec 5) (off : BitVec 16)
  /-- BGEU: Branches on unsigned greater-or-equal. (R33) -/
  | bgeu (c : Core) (ra rb : BitVec 5) (off : BitVec 16)
  /-- J: Jumps by a PC-relative offset. (R33) -/
  | j (c : Core) (off : BitVec 26)
  /-- JAL: Jumps by a PC-relative offset and links in g31. (R33) -/
  | jal (c : Core) (off : BitVec 26)
  /-- LIW: Loads a 32-bit immediate from the second word. (R34) -/
  | liw (c : Core) (rd : BitVec 5) (imm : BitVec 32)
  /-- ADDIW: Adds a 32-bit immediate. (R34) -/
  | addiw (c : Core) (rd ra : BitVec 5) (imm : BitVec 32)
  /-- ANDIW: ANDs with a 32-bit immediate. (R34) -/
  | andiw (c : Core) (rd ra : BitVec 5) (imm : BitVec 32)
  /-- ORIW: ORs with a 32-bit immediate. (R34) -/
  | oriw (c : Core) (rd ra : BitVec 5) (imm : BitVec 32)
  /-- XORIW: XORs with a 32-bit immediate. (R34) -/
  | xoriw (c : Core) (rd ra : BitVec 5) (imm : BitVec 32)
  /-- JW: Makes an absolute jump to a 32-bit immediate, linking if rd is nonzero. (R34) -/
  | jw (c : Core) (rd : BitVec 5) (imm : BitVec 32)
  /-- UDF: The permanently illegal opcode 0x00. (R28) -/
  | udf (c : Core) (low : BitVec 26)
  /-- ILLEGAL_INSTRUCTION: An illegal word stops an expansion core's tile as a failed render, or raises
      exception 0 on other cores. (R39) -/
  | illegalInstruction (c : Core) (word : BitVec 32)
  /-- SRR: Reads a system register. (R47) -/
  | srr (c : IsCore) (rd : BitVec 5) (f : SrField)
  /-- SRW: Writes a system register, including the address windows. (R47) -/
  | srw (c : IsCore) (ra : BitVec 5) (sr : BitVec 8)
  /-- SRSET: Atomically sets bits of a system register and returns its old value. (R47) -/
  | srset (c : IsCore) (rd ra : BitVec 5) (sr : BitVec 8)
  /-- SRCLR: Atomically clears bits of a system register and returns its old value. (R47) -/
  | srclr (c : IsCore) (rd ra : BitVec 5) (sr : BitVec 8)
  /-- ECALL: Raises exception 8 or 9. (R49) -/
  | ecall (c : IsCore)
  /-- ERET: Returns from a trap, restoring PC, IE and privilege. (R49) -/
  | eret (c : IsCore)
  /-- WFI: Waits until an enabled input is pending. (R49) -/
  | wfi (c : IsCore)
  /-- WFI_CONTINUE: A core in WFI continues once an input is both pending and enabled. (R49) -/
  | wfiContinue (c : IsCore)
  /-- FENCE: Completes once all earlier accesses and write-backs have been performed. (R50) -/
  | fence (c : IsCore)
  /-- DCWB: Writes back a dirty data-cache line. (R49) -/
  | dcwb (c : IsCore) (ra : BitVec 5)
  /-- DCINV: Removes a line from every data cache without writing it back. (R49) -/
  | dcinv (c : IsCore) (ra : BitVec 5)
  /-- DCFLUSH: Writes back a line, then removes it from every data cache. (R49) -/
  | dcflush (c : IsCore) (ra : BitVec 5)
  /-- ICINV: Removes a line from this core's instruction cache. (R49) -/
  | icinv (c : IsCore) (ra : BitVec 5)
  /-- INTERRUPT: Between instructions, a core with IE set takes the highest-priority input that is
      pending and enabled. (R54) -/
  | interrupt (c : IsCore)
  /-- SEM_READ: A read of SEM[n] acquires the semaphore if it is free and reports its owner. (R56) -/
  | semRead (m : Master) (n : Fin 64)
  /-- SEM_REL: Its holder frees a semaphore; a write by a non-holder is logged. (R57) -/
  | semRel (m : Master) (v : BitVec 32)
  /-- SEM_FORCE: Frees a semaphore unconditionally and logs its former holder. (R57) -/
  | semForce (m : Master) (v : BitVec 32)
  /-- CLR: Sets every dot of the current buffer to a value. (R67) -/
  | clr (x : Fin 144) (a : BitVec 5)
  /-- SETL: Sets the paint level L. (R67) -/
  | setl (x : Fin 144) (a : BitVec 5)
  /-- TEND: Ends the tile, computes its CRC and hands the buffer, CRC and status to the band assembler.
      (R70) -/
  | tend (x : Fin 144)
  /-- SLD: Loads a span register from local memory. (R68) -/
  | sld (x : Fin 144) (sp : BitVec 2) (b : BitVec 5)
  /-- SST: Stores a span register to local memory. (R68) -/
  | sst (x : Fin 144) (sp : BitVec 2) (b : BitVec 5)
  /-- SSET: Sets one word of a span register. (R68) -/
  | sset (x : Fin 144) (sp : BitVec 2) (b : BitVec 5) (w : BitVec 2)
  /-- SGET: Reads one word of a span register. (R68) -/
  | sget (x : Fin 144) (a : BitVec 5) (sp : BitVec 2) (w : BitVec 2)
  /-- REP: Repeats the following body a counted number of times with no loop overhead. (R69) -/
  | rep (x : Fin 144) (a : BitVec 5) (lenM1 : BitVec 4)
  /-- SPAN: Covers full-height rows between XL and XR. (R72) -/
  | span (x : Fin 144) (sp : BitVec 2) (b : BitVec 5) (m : BitVec 3)
  /-- TRAP_SHAPE: The IX instruction TRAP draws a trapezoid with exact area coverage. (R73) -/
  | trapShape (x : Fin 144) (sp : BitVec 2) (b c : BitVec 5) (m : BitVec 3)
  /-- CELL: Draws up to 32 cells from a mask and advances Y. (R74) -/
  | cell (x : Fin 144) (sp : BitVec 2) (b : BitVec 5) (m : BitVec 3)
  /-- BLIT: Places a source bitmap in one of eight orientations. (R76) -/
  | blit (x : Fin 144) (o : BitVec 3) (a b c : BitVec 5) (m : BitVec 3)
  /-- UNPK: Decodes an ACR stream into a rectangle of the tile. (R79) -/
  | unpk (x : Fin 144) (a b c : BitVec 5) (m : BitVec 3)
  /-- GLYPH: Draws a font glyph within its cell and advances the pen. (R78) -/
  | glyph (x : Fin 144) (o : BitVec 3) (a b c : BitVec 5) (m : BitVec 3)
  /-- VFLD: Draws a latched-ready variable field window, or sets VMISS. (R86) -/
  | vfld (x : Fin 144) (a : BitVec 5) (f : BitVec 2) (m : BitVec 3)
  /-- VLD: Loads a vector register from local memory. (R81) -/
  | vld (x : Fin 144) (v : BitVec 3) (b : BitVec 5)
  /-- VST: Stores a vector register to local memory. (R81) -/
  | vst (x : Fin 144) (v : BitVec 3) (b : BitVec 5)
  /-- VLDT: Loads a 32-dot tile segment into a vector register. (R81) -/
  | vldt (x : Fin 144) (v : BitVec 3) (b : BitVec 5)
  /-- VSTT: Blends a vector register into a tile segment. (R81) -/
  | vstt (x : Fin 144) (v : BitVec 3) (b : BitVec 5) (m : BitVec 3)
  /-- VSPL: Splats a byte into every lane. (R81) -/
  | vspl (x : Fin 144) (v : BitVec 3) (b : BitVec 5)
  /-- VADDS: Saturating lane add. (R81) -/
  | vadds (x : Fin 144) (va vb vc : BitVec 3)
  /-- VSUBS: Saturating lane subtract. (R81) -/
  | vsubs (x : Fin 144) (va vb vc : BitVec 3)
  /-- VMIN: Lane minimum. (R81) -/
  | vmin (x : Fin 144) (va vb vc : BitVec 3)
  /-- VMAX: Lane maximum. (R81) -/
  | vmax (x : Fin 144) (va vb vc : BitVec 3)
  /-- VMULS: Scaled lane multiply. (R81) -/
  | vmuls (x : Fin 144) (va vb vc : BitVec 3)
  /-- VOVER: Lane OVER blend. (R81) -/
  | vover (x : Fin 144) (va vb vc : BitVec 3)
  /-- VEXT: Extracts one lane into a general register. (R81) -/
  | vext (x : Fin 144) (a : BitVec 5) (v : BitVec 3) (c : BitVec 5)
  /-- VSUM: Sums the 32 lanes into a general register. (R81) -/
  | vsum (x : Fin 144) (a : BitVec 5) (v : BitVec 3)
  /-- METERING_STOP: The cycle count reaches the declared cost before TEND, and the buffer is committed
      with OVERRUN set. (R71) -/
  | meteringStop (x : Fin 144)
  /-- TILE_START: Once the fetch data has arrived, a core begins a tile 64 cycles after its previous
      hand-over, with the start values of R59. (R102) -/
  | tileStart (x : Fin 144)
  /-- BUFFER_READ_AND_CLEAR: The band assembler reads and clears a handed-over tile buffer. (R58) -/
  | bufferReadAndClear (x : Fin 144)
  /-- ADMIT: The ADMIT command moves a job slot into CHECKING. (R117) -/
  | admitJob (j : Fin 2)
  /-- ADMISSION_COMPLETE: The Setter finishes its checks and reports ADMIT or REJECT with rate, margin,
      binding inequality and window. (R107) -/
  | admissionComplete (j : Fin 2)
  /-- SLOT_START: START runs or arms the slot at GO_LN, or is refused with TOO_SOON, SEAM or SEAM_LOAD.
      (R118) -/
  | slotStart (j : Fin 2)
  /-- RELEASE: RELEASE ends or drops a job slot according to its state. (R119) -/
  | release (j : Fin 2)
  /-- LINE_EVENT: The line clock emits the line event for LN H + 1, or marks it squeezed or skipped.
      (R150) -/
  | lineEvent
  /-- PREFETCH: The cluster prefetcher copies a tile's fetch list and field windows into a core's fetch
      area. (R95) -/
  | prefetch (x : Fin 144)
  /-- VOTE: The band assembler compares a tile's renders, accepts one, starts a third render, or
      declares the tile unresolved. (R110) -/
  | vote (p : Fin 8) (band : BitVec 64) (col : Fin 256)
  /-- RELEASED_AS_ZERO_DOSE: A tile not accepted by line event R + 64 in a line-paced job is written as
      zero with a ZERO slot mark. (R112) -/
  | releasedAsZeroDose (p : Fin 8) (band : BitVec 64) (col : Fin 256)
  /-- RATE_CHANGE: After Ncap changes, the admitted rate and minimum line period are updated at the
      next band boundary. (R120) -/
  | rateChange
  /-- PACKET_SET: The dose stage computes and packs each enabled slot's dose packet for one line event.
      (R144) -/
  | packetSet
  /-- COMMIT: A write of DS_EPOCH_CMD.COMMIT starts a commit of the shadow tables at target LN T.
      (R145) -/
  | commit
  /-- RECEIVER_INDEX_BUILT: The map check and receiver index are complete, and the commit is accepted
      or refused. (R145) -/
  | receiverIndexBuilt
  /-- HOLD: A write of DS_CTRL.HOLD freezes or resumes slewing; HOLDING sets at the next line event.
      (R147) -/
  | hold (on : Bool)
  /-- LC_SET: A write to LC_SET_HI while SRC is OFF sets P and H, or is ignored otherwise. (R150) -/
  | lcSet (m : Master) (hi : BitVec 32)
  /-- ACCEPTED_COUNT: An encoder input accepts a level change as a count, updating position, direction
      and speed. (R362) -/
  | acceptedCount (q : Fin 10) (lineB : Bool)
  /-- STROBE_END: A FIRE strobe or skip mark ends after its width. (R158) -/
  | strobeEnd (k : Fin 16)
  /-- PAD_CUT: FIRE[k] high for SWMAX ticks is forced low and held, raising dangerous fault 0x3241.
      (R164) -/
  | padCut (k : Fin 16)
  /-- FS_CUTCLR: A Sagger write releases the pad cut of FIRE[k]. (R164) -/
  | fsCutclr (m : Master) (v : BitVec 32)
  /-- PAD_LEVEL_MISMATCH: A FIRE or CAMTRIG pad that differs from its intended level in two compared
      ticks raises fault 0x3244. (R166) -/
  | padLevelMismatch (pad : FsPad)
  /-- CAL_FAIL: A delay line cannot be calibrated, so its taps are forced to 0. (R163) -/
  | calFail (pad : FsPad)
  /-- GATE_QUALIFIED: A GATE or SAFE_REQ_N input qualifies a new level, which affects gating and the
      Sagger's inhibit. (R168) -/
  | gateQualified (input : GateInput) (level : Bool)
  /-- HEAD_ALERT: HEAD_ALERT_N qualified low puts its hub into the limit state. (R170) -/
  | headAlert (k : Fin 16) (level : Bool)
  /-- HEAD_RESUME: After 1,024 clear line events a hub leaves the limit state and strobes resume.
      (R171) -/
  | headResume (k : Fin 16)
  /-- PROD_TRIGGER: A qualified PROD edge numbers a product and queues it, or is refused. (R173) -/
  | prodTrigger (lane : Fin 8) (pos : BitVec 96)
  /-- PQ_POP: Removes the oldest product-queue entry. (R176) -/
  | pqPop (v : BitVec 32)
  /-- CAMTRIG_END: A camera trigger pulse ends after WIDTH ticks. (R177) -/
  | camtrigEnd (c : Fin 12)
  /-- FEED_HOLD: A feed-paced plane-band not ready at R + 64 holds the line clock and ramp-stops the
      feed axis. (R179) -/
  | feedHold
  /-- FEED_STOPPED: The stopped feed axis moves back to E − RUNUP. (R179) -/
  | feedStopped
  /-- FEED_READY: The Setter reports the plane-band ready, and the axis accelerates forward. (R179) -/
  | feedReady
  /-- LANE_ENABLE: Writing DL_LANE_CFG.EN starts or stops a lane's bring-up. (R188) -/
  | laneEnable (n : Fin 32) (v : BitVec 32)
  /-- PHASE_COMPLETE: A bring-up phase ends its condition and the lane enters the next phase, or
      becomes READY. (R188) -/
  | phaseComplete (n : Fin 32)
  /-- PHASE_TIMEOUT: A phase exceeds its maximum, and the attempt restarts or the lane enters FAILED.
      (R188) -/
  | phaseTimeout (n : Fin 32)
  /-- BLOCK_LOCK: Block lock is declared after 128 consecutive valid headers. (R186) -/
  | blockLock (n : Fin 32)
  /-- LOSS_OF_LOCK: 24 invalid headers in 128 blocks lose the lane's lock. (R186) -/
  | lossOfLock (n : Fin 32)
  /-- LOS: Receive amplitude stays below threshold for 0.8 µs. (R187) -/
  | los (n : Fin 32)
  /-- CDR_LOSS: Clock-data recovery reports loss of lock for 0.8 µs. (R187) -/
  | cdrLoss (n : Fin 32)
  /-- CAP: A hub's CAP block is received, validated and held. (R190) -/
  | cap (n : Fin 32) (index : BitVec 8) (value : BitVec 48)
  /-- RATE: The countdown of RATE blocks reaches zero, and the transmitter retunes. (R188) -/
  | rate (r : LaneRate)
  /-- READY: The hub's READY is received in phase 6, and the device sends a SYNC. (R188) -/
  | ready (b : LaneBlock)
  /-- DOSE: A DOSE packet for one slot line is sent on its lane and kept for replay. (R191) -/
  | dose (n : Fin 32)
  /-- CFGW: A DL_CFGW SEND writes one address-value pair to a hub in CTRL CFGW. (R195) -/
  | cfgw (k : Fin 16) (v : BitVec 32)
  /-- LANES: A CTRL LANES packet sets a hub's lane assignment from a band boundary. (R195) -/
  | lanes (k : Fin 16)
  /-- HEARTBEAT: A hub HEARTBEAT is received with its ACK, NACK, SYNC_ERR and MISS. (R197) -/
  | heartbeat (n : Fin 32) (hb : HubHeartbeat)
  /-- DEVICE_HEARTBEAT: HB_INT expires, and the device sends a HEARTBEAT on a READY lane. (R197) -/
  | deviceHeartbeat (n : Fin 32)
  /-- STATUS: A hub STATUS is received, carrying slot temperatures. (R198) -/
  | status (n : Fin 32) (st : HubStatus)
  /-- OVERDUE: A packet unacknowledged 4 × PER after being sent fails the lane. (R200) -/
  | overdue (n : Fin 32)
  /-- RESTART_BRINGUP: A failed lane restarts bring-up 10 ms after its failure. (R204) -/
  | restartBringup (n : Fin 32)
  /-- HUB_OFFLINE: A hub silent for 4 × HB_INT goes offline. (R205) -/
  | hubOffline (k : Fin 16)
  /-- STATUS_LATE: No STATUS for 256 line events raises STATUS_LATE. (R206) -/
  | statusLate (k : Fin 16)
  /-- STREAM_PACKET: A CoaXPress stream packet is received, or discarded on a CRC failure. (R210) -/
  | streamPacket (n : Fin 12) (pkt : StreamPacket)
  /-- LINK_DOWN: A camera link loses lock, and the port enters DOWN. (R209) -/
  | linkDown (link : Fin 24)
  /-- CAMERA_EVENT: A camera event packet is acknowledged, discarded and counted. (R208) -/
  | cameraEvent (n : Fin 12)
  /-- IMAGE_HEADER: A frame's image header begins a frame, or drops it on a format mismatch. (R214) -/
  | imageHeader (n : Fin 12) (fmt : BitVec 3)
  /-- LINE_RECEIVED: A received camera line is matched to a pending trigger entry, or dropped. (R212)
      -/
  | lineReceived (n : Fin 12) (streamEnd : Bool)
  /-- ENTRY_AGED: A pending entry reaching LATMAX + 1 becomes unverified. (R213) -/
  | entryAged (n : Fin 12)
  /-- STRIPE_GRANT: A free pipe grants a ready stripe and processes its 16 lines through the stages.
      (R218) -/
  | stripeGrant (p : Fin 4)
  /-- STRIPE_DONE: A pipe completes a stripe, freeing its buffer slots. (R218) -/
  | stripeDone (p : Fin 4)
  /-- CHECK: CXR_CHECK.GO starts the camera configuration check. (R220) -/
  | check
  /-- CHECK_DONE: The check completes, setting CHECKED and CXR_LOAD or reporting a failing condition.
      (R221) -/
  | checkDone
  /-- CAM_CFG_WRITE: A CAM_CFG write clears CHECKED or sets EN, and an EN write is refused unless the
      port is checked. (R221) -/
  | camCfgWrite (n : Fin 12) (v : BitVec 32)
  /-- MBX_GO: Starts one camera control transaction. (R222) -/
  | mbxGo (n : Fin 12) (v : BitVec 32)
  /-- MBX_DONE: A mailbox transaction completes with its RESULT. (R223) -/
  | mbxDone (n : Fin 12) (r : MbxReply)
  /-- MBX_TIMEOUT: No final acknowledgement arrives within TIMEOUT, and RESULT is 2. (R223) -/
  | mbxTimeout (n : Fin 12)
  /-- PREVIEW_ROW: A preview row is accepted by DRAM, and PV_WPTR and PV_SEQ advance. (R244) -/
  | previewRow (n : Fin 12)
  /-- ROI_DONE: An ROI frame header is written and accepted, and ROI_STAT updates. (R246) -/
  | roiDone (n : Fin 12) (r : Fin 8)
  /-- CAL_GO: Starts calibration accumulation on a pipe. (R248) -/
  | calGo (p : Fin 4) (v : BitVec 32)
  /-- CAL_DONE: The accumulated line count is reached, and BUSY clears. (R248) -/
  | calDone (p : Fin 4)
  /-- PIPE_FAIL: A pipe is declared failed and serves no stripe. (R249) -/
  | pipeFail (p : Fin 4)
  /-- BQ_WRITE: The BQ writer writes a plane-band's expected rows once all its tiles are accepted or
      released, then its tags. (R253) -/
  | bqWrite (p : Fin 8) (band : BitVec 64)
  /-- LINE_RECORD_ARRIVAL: The verification engine accepts a line record into the camera's alignment
      ring. (R260) -/
  | lineRecordArrival
  /-- STITCHED_ROW: Once every camera has delivered its line, the row is compared, classified and
      segmented. (R260) -/
  | stitchedRow
  /-- REGISTRATION_STEP: Every STEPL rows the applied offsets move by 1 toward the measured ones.
      (R264) -/
  | registrationStep
  /-- HEALTH_INTERVAL_END: The health banks swap at the end of each interval. (R280) -/
  | healthIntervalEnd
  /-- RECORD_WRITE: A defect record is written to the ring, waits in the queue, or is lost. (R277) -/
  | recordWrite
  /-- VE_ENABLE: A write of EN = 1 runs the verification checks and starts verification, or refuses it.
      (R281) -/
  | veEnable (v : BitVec 32)
  /-- VE_DISABLE: A write of EN = 0 stops the engine at the next row boundary. (R282) -/
  | veDisable (v : BitVec 32)
  /-- ENABLE: A write of MC_CFG.ENABLE maps DRAM, or is refused on an illegal population. (R289) -/
  | mcEnable (v : BitVec 32)
  /-- INIT: Power-up and mode-register initialisation of a channel's ranks. (R290) -/
  | init (ch : Fin 8) (v : BitVec 32)
  /-- CA: Gather sweeping the CA and CS delays. (R292) -/
  | ca (ch : Fin 8) (v : BitVec 32)
  /-- WLEV: Write-levelling gather. (R292) -/
  | wlev (ch : Fin 8) (v : BitVec 32)
  /-- RDQS: Read DQS gate gather. (R292) -/
  | rdqs (ch : Fin 8) (v : BitVec 32)
  /-- RDEYE: Read DQ eye gather. (R292) -/
  | rdeye (ch : Fin 8) (v : BitVec 32)
  /-- WREYE: Write DQ eye gather, saving and restoring its lines. (R292) -/
  | wreye (ch : Fin 8) (v : BitVec 32)
  /-- OSC: Reads the DQS interval oscillators. (R292) -/
  | osc (ch : Fin 8) (v : BitVec 32)
  /-- TRN_DONE: A gather ends, writing its result buffer header last. (R293) -/
  | trnDone (ch : Fin 8) (samples : List (BitVec 128))
  /-- DELAY_ENTRY_WRITE: A delay entry write takes effect at the rank's next refresh. (R295) -/
  | delayEntryWrite (ch : Fin 8) (point rank : BitVec 2) (e : Fin 116) (v : BitVec 32)
  /-- FREQ_CHANGE: MC_FREQ_CMD.GO moves every channel to a frequency point, or is refused. (R291) -/
  | freqChange (v : BitVec 32)
  /-- FREQ_DONE: The frequency change completes, and requests resume. (R291) -/
  | freqDone
  /-- DRAM_REQUEST: A request arrives at a channel and is scheduled and served. (R297) -/
  | dramRequest (x : DramSource) (addr : BitVec 48) (op : DramOp)
  /-- PANIC: A real-time port's urgency crosses PANIC_ON or PANIC_OFF. (R301) -/
  | panic (port : Fin 8) (level : BitVec 8)
  /-- REFRESH: A rank's refresh interval expires and an all-bank refresh is issued. (R300) -/
  | refresh (ch : Fin 8) (r : Fin 4)
  /-- ZQ_CALIBRATION: ZQ calibration repeats every 128 ms. (R290) -/
  | zqCalibration (ch : Fin 8) (r : Fin 4)
  /-- TEMPERATURE_POLL: DIMM temperature sensors are polled every 16 ms. (R300) -/
  | temperaturePoll (ch : Fin 8) (dimm : Fin 2) (celsius : Int)
  /-- SELF_REFRESH_ENTRY: An idle rank begins self-refresh entry. (R304) -/
  | selfRefreshEntry (ch : Fin 8) (r : Fin 4)
  /-- SELF_REFRESH_EXIT: A waiting request meets residency, then SRX and tXS_DLL, and is served. (R305)
      -/
  | selfRefreshExit (ch : Fin 8) (r : Fin 4)
  /-- SCRUB: The patrol reads and corrects every line once per period. (R308) -/
  | scrub (addr : BitVec 48) (result : ReadCheck)
  /-- CA_PARITY_ERROR: An RCD parity error replays the last 16 commands. (R311) -/
  | caParityError (ch : Fin 8) (dimm : Fin 2) (failedReplays : Fin 4)
  /-- MIGRATION_START: MC_MIG_CMD start copies a rank to the spare. (R312) -/
  | migrationStart (ch : Fin 8) (v : BitVec 32)
  /-- MIGRATION_ABORT: MC_MIG_CMD abort discards the target. (R314) -/
  | migrationAbort (ch : Fin 8) (v : BitVec 32)
  /-- MIG_DONE: The copy ends, and the logical rank moves to the former spare. (R314) -/
  | migDone (ch : Fin 8)
  /-- SIDEBAND: MC_SB GO starts a sideband transaction. (R284) -/
  | sideband (ch : Fin 8) (v : BitVec 32)
  /-- SIDEBAND_DONE: A sideband transaction completes. (R284) -/
  | sidebandDone (ch : Fin 8) (ack : Bool) (data : BitVec 8)
  /-- HOST_WRITE: A posted host write through a BAR is checked by PROT and performed in arrival order.
      (R321) -/
  | hostWrite (bar : Bar) (x : BitVec 36) (data : List Byte) (poisoned : Bool)
  /-- HOST_READ: A host read completes after all earlier posted writes are performed. (R321) -/
  | hostRead (bar : Bar) (x : BitVec 36) (len : Nat)
  /-- FUNCTION_LEVEL_RESET: Resets configuration space, MSI-X, the BAR4 base and host DMA descriptors.
      (R324) -/
  | functionLevelReset
  /-- PCIE_LINK_DOWN: Loss of the established link acts as a host-interface reset. (R324) -/
  | pcieLinkDown
  /-- PERST_N: PERST_N resets the host interface, and its release starts link training. (R469) -/
  | perstN (level : Bool)
  /-- DOORBELL: A write to HI_DB[n] stores its value and sets the event bit. (R325) -/
  | doorbell (n : Fin 16) (v : BitVec 32)
  /-- HI_SWEVT: Sets HI_EVT bits 16 to 23. (R325) -/
  | hiSwevt (v : BitVec 32)
  /-- CHANNEL_START: START fetches the descriptor at CH_HEAD. (R333) -/
  | channelStart (n : Fin 32)
  /-- CHANNEL_ABORT: ABORT stops a channel at the next transfer boundary. (R336) -/
  | channelAbort (n : Fin 32)
  /-- CHAIN_POKE: Sets the channel's POKED latch. (R334) -/
  | chainPoke (n : Fin 32) (v : BitVec 32)
  /-- FETCH: A descriptor fetch completes, and the move begins or FORMAT ends it. (R333) -/
  | fetch (n : Fin 32)
  /-- COMPLETE: The last data write leaves the engine, and STATUS is written or the readback starts.
      (R335) -/
  | complete (n : Fin 32)
  /-- ARRIVED: The RBK readback returns, and STATUS is written with ARRIVED set. (R335) -/
  | arrived (n : Fin 32)
  /-- ENDCHK: The read of NEXT and V returns, and the chain follows, rereads or idles. (R334) -/
  | endchk (n : Fin 32)
  /-- COMPLETION_TIMEOUT: A DMA host read times out or errs, and the descriptor ends with HOST. (R323)
      -/
  | completionTimeout (f : HostFail)
  /-- CV_DATA8: Feeds one byte to a check-value unit. (R338) -/
  | cvData8 (u : Fin 8) (v : BitVec 32)
  /-- CV_DATA16: Feeds two bytes to a check-value unit. (R338) -/
  | cvData16 (u : Fin 8) (v : BitVec 32)
  /-- CV_DATA32: Feeds four bytes to a check-value unit. (R338) -/
  | cvData32 (u : Fin 8) (v : BitVec 32)
  /-- CV_START: Begins a frame with the seed of its mode. (R339) -/
  | cvStart (u : Fin 8) (v : BitVec 32)
  /-- CV_END: Closes a frame, forms the result and optionally compares it. (R340) -/
  | cvEnd (u : Fin 8) (v : BitVec 32)
  /-- CV_VALUE_WRITE: Restores the running value as part of a saved context. (R341) -/
  | cvValueWrite (u : Fin 8) (v : BitVec 32)
  /-- MOVE: Runs a compact trapezoid to the target position. (R352) -/
  | move (a : Fin 8) (v : BitVec 32)
  /-- VELOCITY: Ramps to a target velocity and holds it. (R352) -/
  | velocity (a : Fin 8) (v : BitVec 32)
  /-- SEGMENTS: Runs the cubic segment table from FIRSTSEG. (R353) -/
  | segments (a : Fin 8) (v : BitVec 32)
  /-- RAMP_STOP: Decelerates under set 2 to a stop. (R354) -/
  | rampStop (a : Fin 8) (v : BitVec 32)
  /-- HARD_STOP: Sets the velocity to zero in the next tick. (R354) -/
  | hardStop (a : Fin 8) (v : BitVec 32)
  /-- HOME: Starts the homing sequence. (R359) -/
  | home (a : Fin 8) (v : BitVec 32)
  /-- MOVE_END: A move, segments, stop or homing run ends with V = 0, and DONE is set. (R354) -/
  | moveEnd (a : Fin 8)
  /-- SEGMENT_END: A segment reaches its end state and the next runs, or END stops the axis. (R353) -/
  | segmentEnd (a : Fin 8)
  /-- AX_POS_WRITE: In IDLE, sets the commanded position. (R354) -/
  | axPosWrite (a : Fin 8) (v : BitVec 32)
  /-- CURRENT_FRAME: Every SPPER ticks a 40-bit coil set-point frame is sent. (R346) -/
  | currentFrame (a : Fin 8)
  /-- STANDSTILL: After HOLDDLY without steps, the axis applies STILLMODE. (R355) -/
  | standstill (a : Fin 8)
  /-- AXIS_PAD_MISMATCH: An axis output pad mismatched in two ticks raises fault 0x34C6. (R347) -/
  | axisPadMismatch (a : Fin 8) (pad : Fin 3)
  /-- TRIP: A qualified limit edge sets TRIP and takes the hard- or ramp-stop action. (R357) -/
  | trip (a : Fin 8) (sw : AxSwitch)
  /-- TRIP_CLEAR: Writing 1 to a trip bit clears it if the input is inactive. (R358) -/
  | tripClear (a : Fin 8) (v : BitVec 32)
  /-- HOME_LATCH: The first trip or index during SEARCH latches the position and ramp-stops. (R359) -/
  | homeLatch (a : Fin 8)
  /-- HOME_DONE: The return move arrives, and the position is set to 0 with HOMED. (R359) -/
  | homeDone (a : Fin 8)
  /-- QE_ENABLE: Writing QE_CFG.EN starts or stops an encoder input. (R362) -/
  | qeEnable (q : Fin 10) (v : BitVec 32)
  /-- ILLEGAL: A simultaneous change of A and B is rejected and logged. (R363) -/
  | illegal (q : Fin 10)
  /-- WIRE: Pads disagreeing for 16 ticks set WIRE and log a fault. (R364) -/
  | wire (q : Fin 10) (w : WireEdge)
  /-- INDEX: A qualified Z edge latches the count and checks or captures the index. (R366) -/
  | index (q : Fin 10)
  /-- STILL: No edge for STILLT zeroes the speed and sets STILL. (R367) -/
  | still (q : Fin 10)
  /-- QE_COUNT_WRITE: A write to QE_COUNT is clamped into the soft limits. (R365) -/
  | qeCountWrite (q : Fin 10) (v : BitVec 32)
  /-- ENGINE_ENABLE: LE_CTRL.EN starts the frames or stops every loop. (R371) -/
  | engineEnable (v : BitVec 32)
  /-- LOOP_ENABLE: Enabling a loop is accepted if the frame budget allows, or refused. (R370) -/
  | loopEnable (l : Fin 32) (v : BitVec 32)
  /-- LOOP_FRAME: At each frame start, the due loops are sampled, evaluated and presented. (R369) -/
  | loopFrame
  /-- ARM: Arms every enabled trace channel. (R380) -/
  | arm (v : BitVec 32)
  /-- FORCE: Triggers the trace at once. (R381) -/
  | force (v : BitVec 32)
  /-- TRACE_DONE: Every enabled channel has taken POST samples after the trigger. (R381) -/
  | traceDone
  /-- TB_INC_NS_WRITE: Loads INC from INC_NS and INC_FRAC. (R386) -/
  | tbIncNsWrite (v : BitVec 32)
  /-- TB_SET: A write to TB_SET_SHI sets the time. (R387) -/
  | tbSet (v : BitVec 32)
  /-- TB_ADJ: A write to TB_ADJ_HI adds a signed offset. (R387) -/
  | tbAdj (v : BitVec 32)
  /-- NOW_READ: A read of TB_NOW_FRAC or TB_FLAT_LO latches the time set. (R385) -/
  | nowRead (m : Master) (flat : Bool)
  /-- XS_STAT_READ: A read of TB_XS_STAT latches the cross-stamp set. (R392) -/
  | xsStatRead (m : Master)
  /-- POS_READ: A read of LC_POS_F latches LC_POS_LO and LC_POS_HI. (R149) -/
  | posRead (m : Master)
  /-- HWM_READ: A read of LC_HWM_LO latches LC_HWM_HI. (R150) -/
  | hwmRead (m : Master)
  /-- Q_READ: A read of LP_Q_F latches Q_LO and Q_HI. (R377) -/
  | qRead (m : Master) (l : Fin 32)
  /-- STATE_WORD_WRITE: A write of a section state's high word stores both words. (R375) -/
  | stateWordWrite (sec : Fin 256) (s2 : Bool) (hi : BitVec 32)
  /-- CROSS_STAMP: Every 131,072 ticks, or on command, a cross-stamp is taken. (R392) -/
  | crossStamp
  /-- TB_XS_CMD: Commands a cross-stamp. (R392) -/
  | tbXsCmd (v : BitVec 32)
  /-- COMPARE: A compare unit succeeds, raises CMPm and clears its enable. (R389) -/
  | compare (m : Fin 4)
  /-- PULSE_START: A time pulse output becomes active at its target. (R390) -/
  | pulseStart (n : Fin 16)
  /-- PULSE_END: A time pulse ends at target + WIDTH. (R390) -/
  | pulseEnd (n : Fin 16)
  /-- RX_FRAME: An Ethernet frame is received into the ring, or discarded, and a PTP event frame sets
      RXTS. (R398) -/
  | rxFrame (e : Fin 2) (f : RxFrame)
  /-- TAIL_WRITE: Advancing an Ethernet ring's TAIL hands descriptors to the port. (R395) -/
  | tailWrite (e : Fin 2) (tx : Bool) (v : BitVec 32)
  /-- TX_FRAME: A transmit frame is sent, with a one-step Sync time inserted and TXTS raised if
      requested. (R397) -/
  | txFrame (e : Fin 2) (phase : BitVec 4)
  /-- LINK: An Ethernet port's link changes. (R394) -/
  | link (e : Fin 2) (up : Bool)
  /-- SI_WDG: A watchdog write within its window. (R407) -/
  | siWdg (v : BitVec 32)
  /-- WATCHDOG_TRIP: The window watchdog trips and forces the enables inactive until power-on reset.
      (R407) -/
  | watchdogTrip
  /-- SI_ENB: An alternating write keeps FIRE_EN_B_N low, or a wrong one is a lapse. (R409) -/
  | siEnb (v : BitVec 32)
  /-- LAPSE: 20 µs without an SI_ENB write drives FIRE_EN_B_N high and latches it. (R409) -/
  | lapse
  /-- ENABLE_READBACK_MISMATCH: An enable pad that differs from its intended level in two ticks logs
      fault 0x3085. (R409) -/
  | enableReadbackMismatch (enB : Bool)
  /-- DANGER_LINE: A dangerous fault on a block's danger line puts the Sagger in the safe state. (R410)
      -/
  | dangerLine (blk : Fin 27)
  /-- SAFE_REL: A write of the key accepts or refuses release of the safe state. (R411) -/
  | safeRel (v : BitVec 32)
  /-- REARM: After REARM ms the enables and permits are reasserted. (R411) -/
  | rearm
  /-- START_ARM: After REARM ms quiet following boot, the Sagger raises the enables and permits by
      itself. (R493) -/
  | startArm
  /-- PAIR_DISCREPANCY: Pair inputs differing for DT ms log fault 0x3086 and enter the safe state.
      (R413) -/
  | pairDiscrepancy (j : Fin 8)
  /-- CORE_OUT: A Sagger core's disagreement marks it out and starts resynchronisation. (R405) -/
  | coreOut (k : Fin 3)
  /-- RESYNC: The image copy completes, and the out core is reloaded and rejoins lockstep. (R405) -/
  | resync
  /-- TWO_OF_TWO: A disagreement of the two remaining cores enters the safe state. (R406) -/
  | twoOfTwo
  /-- JOB_WINDOW: The Sagger receives and acknowledges a job window from the admission unit. (R415) -/
  | jobWindow (j : Fin 2)
  /-- PROT_CRC_CHECK: Every 50 µs the PROT setup CRC is checked. (R416) -/
  | protCrcCheck
  /-- FAULT: The collector takes a fault from a block's queue. (R417) -/
  | faultTake
  /-- FAULT_RECORD: A fault record is written to the ring when it has room. (R419) -/
  | faultRecord
  /-- SI_HB: A control core's heartbeat write. (R423) -/
  | siHb (k : Fin 4) (v : BitVec 32)
  /-- HB_MISS: No valid heartbeat for 2 ms clears SI_HBEN and raises HB_MISS. (R423) -/
  | hbMiss (k : Fin 4)
  /-- LATENT_TEST: Every 60 minutes the latent-fault tests run. (R424) -/
  | latentTest (failRow : Fin 7)
  /-- TEST: The ST_CMD TEST command tests a unit now. (R432) -/
  | stTest (u : BitVec 9)
  /-- RETIRE: The ST_CMD RETIRE command takes a unit out of service without a test. (R432) -/
  | stRetire (u : BitVec 9)
  /-- RETURN: The ST_CMD RETURN command tests a retired unit and returns it. (R432) -/
  | stReturn (u : BitVec 9)
  /-- SWITCH: The ST_CMD SWITCH command makes a clock source the running one. (R444) -/
  | stSwitch (u : BitVec 9)
  /-- UPDATE: The ST_CMD UPDATE command installs a control-core or Sagger image. (R446) -/
  | stUpdate (u : BitVec 9)
  /-- AUTOMATIC_TEST: ST_PER expires, and the next eligible unit of a class is taken for test. (R430)
      -/
  | automaticTest (cls : Fin 11)
  /-- TEST_COMPLETE: A test ends: the unit passes, repeats, or is retired. (R431) -/
  | testComplete (u : BitVec 9) (pass : Bool)
  /-- PWRGOOD_RISE: PWRGOOD rising ends power-on reset and starts clock qualification and boot. (R451)
      -/
  | pwrgoodRise
  /-- PWRGOOD_FALL: PWRGOOD falling puts the device in reset and the pads in reset states. (R451) -/
  | pwrgoodFall
  /-- SUPPLY: A rail out of range for 16 ticks logs fault 0x3045. (R452) -/
  | supply (rail : Fin 4)
  /-- CRYSTAL_QUALIFIED: A crystal oscillates for 1 ms above threshold and is selected at power-up.
      (R453) -/
  | crystalQualified (x : Fin 2)
  /-- CRYSTAL_RETRY: With no crystal qualified, the device retries every 10 ms. (R453) -/
  | crystalRetry
  /-- CRYSTAL_LOST: The selected crystal misses 8 edges, and the other is selected. (R455) -/
  | crystalLost
  /-- PLL_LOSS: The running PLL loses lock, and the other takes over. (R455) -/
  | pllLoss (pll : Fin 2)
  /-- REQ_AWAKE: Requests a fast domain awake. (R457) -/
  | reqAwake (m : Master) (d : Fin 3)
  /-- REQ_STANDBY: Requests STANDBY, or powers an OFF domain up into STANDBY. (R456) -/
  | reqStandby (m : Master) (d : Fin 3)
  /-- REQ_OFF: Requests a fast domain OFF, or is refused while it has users. (R458) -/
  | reqOff (m : Master) (d : Fin 3)
  /-- WAKE_SOURCE: An enabled wake source sets REQ to AWAKE. (R457) -/
  | wakeSource (d : Fin 3) (src : Fin 4)
  /-- AWAKE: The domain reports AWAKE. (R457) -/
  | awake (d : Fin 3)
  /-- ENTRY_COMPLETE: Entry into STANDBY or OFF completes. (R458) -/
  | entryComplete (d : Fin 3)
  /-- WAKE_LATE: A domain misses its wake bound and logs fault 0x2046. (R457) -/
  | wakeLate (d : Fin 3)
  /-- CK_SYSRST: A Sagger write of the key performs a power-on reset. (R460) -/
  | ckSysrst (m : Master) (v : BitVec 32)
  /-- BOOT: ROM reads and verifies the flash image. (R463) -/
  | boot
  /-- RECOVERY: With both images invalid, ROM enters recovery. (R464) -/
  | recovery
  /-- PROT_LOCK: ROM writes the setup and locks PROT, then starts the Sagger and CC0. (R467) -/
  | protLock
  /-- VERIFY: The BOOT_VCMD VERIFY command verifies an image. (R470) -/
  | verify
  /-- HOLD_IMAGE: The BOOT_VCMD HOLD command verifies and holds a control-core image. (R470) -/
  | holdImage
  /-- PROGRAM: In recovery, the BOOT_VCMD PROGRAM command writes the primary image and resets. (R464)
      -/
  | program
  /-- VERIFY_DONE: A BOOT_VCMD operation completes with its RESULT. (R470) -/
  | verifyDone
  /-- SVN_ADV: Burns fuses to raise the SVN count. (R471) -/
  | svnAdv (m : Master) (v : BitVec 32)
  /-- PCIE_LINK_UP: PCI Express link training completes, the link comes up, LINK_UP is raised and HI
      stops answering with Configuration Request Retry Status. (R469) -/
  | pcieLinkUp (speed width : BitVec 4)
  /-- FIRE_RISING_EDGE: At t + 400 ns + SKEW after an emitted line event, FIRE[k] rises at its pad only
      if the pad cut is released and the hub permit is still set; otherwise the hub counts as having
      received nothing and is held. (R158) -/
  | fireRisingEdge (k : Fin 16)
  /-- QUALIFIED_RELEASE: A limit or home switch input is qualified inactive, starting its release time,
      ending the CLEAR step of homing and permitting a trip bit to be cleared. (R356) -/
  | qualifiedRelease (a : Fin 8) (sw : AxSwitch)
  /-- SUPPLY_RESTORED: A monitored rail returns within its operating range, its CK_SUP bit clears, and
      after 1 ms fault 0x3045 counts as cleared. (R452) -/
  | supplyRestored (rail : Fin 4)
  /-- DANGEROUS_FAULT_CLEARS: The clearing condition of a dangerous fault comes to hold by itself, such
      as a pad agreeing with its intent for 16 ticks, WIREA to WIREZ reading 0 for 16 ticks, or a pair
      qualified equal for DT ms. (R494) -/
  | dangerousFaultClears (code : BitVec 16) (inst : BitVec 8)
  /-- PLL_RELOCK: An AO PLL that lost lock regains lock to the selected crystal, its lock bit in CK_CLK
      sets, and it becomes a standby source again. (R454) -/
  | pllRelock (pll : Fin 2)
  /-- CXP_LINK_LOCK: A CoaXPress link acquires lock at the camera's rate, setting its LOCK and RATE
      bits in CAM_STAT. (R208) -/
  | cxpLinkLock (link : Fin 24) (rate : BitVec 3)
deriving DecidableEq, Repr

end Sys2Proof
end

