-- ==== Sys2Proof/Config.lean ====
section
/-!
DEFINITION. What one device, its board or its surroundings fix and the spec does not: free values.
Each is opaque: nothing in Lean evaluates it, so every statement holds whatever it is. The functions
that take a draw number are applied to the counter `freeIx` of the state, which each draw advances.
-/

namespace Sys2Proof

/-- A free byte: the value at a position of one draw (unpredictable results, R6). -/
opaque Config.freeByte : Nat → Nat → Byte

/-- A free number of one draw: a time, a choice or a position that the spec leaves open. -/
opaque Config.freeNat : Nat → Nat

/-- A free bit at a position of one draw. -/
opaque Config.freeBit : Nat → Nat → Bool

/-- Whether an instruction that the metering unit stops has written a dot (R71): of the tile's start values
and the count, of the core's data memory, and of the dot, so that two cores that R41 compares agree. -/
opaque Config.meterDot : List Nat → List Byte → Nat → Bool

/-- The dose width code, taken modulo 5, of packets formed before any job has run. -/
opaque Config.idleDose : Nat

/-- The level of the 64 interrupt inputs of the Sagger in each tick; the spec names no source for any
of them. -/
opaque Config.sgInputs : Nat → BitVec 64

/-- Whether a sample of a WREYE gather on a channel is under way in a tick (R292). -/
opaque Config.sampling : Nat → Nat → Bool

/-- The SHA-384 of the public key that each fuse key slot holds (R463). -/
opaque Config.keySlot : Nat → List Byte

/-- Whether each fuse key slot is revoked (R463). -/
opaque Config.keyRevoked : Nat → Bool

/-- The contents of the flash when the device is first powered, from offset 0 (false) and from half its density
(true), as far as they can be read (R461, R462). -/
opaque Config.flash : Bool → List Byte

/-- The SFDP table of the board's flash (R461). -/
opaque Config.sfdp : List Byte

end Sys2Proof
end

