-- ==== Sys2Proof/Machine/RegMap.lean ====
section
/-!
DEFINITION. The register map (R3, R473 to R478): every register of BAR0 with its place, the access of its
bits and its reset value, as the field tables of the chapters and the lists of the register summary
give them; and a name for every register and every field narrower than a register.
A register is named by its BAR0 offset, block ID × 0x10_0000 + offset in the block (R8).
-/

namespace Sys2Proof.Machine

/-- One register, or one indexed family of registers: BAR0 offset of the first, stride and count per
index, the bits of each access type (R3), the reset value. A bit in none of the masks and not read-only
is reserved (R5). -/
structure RegDef where
  name  : String
  base  : Nat
  dims  : List (Nat × Nat)
  rw    : BitVec 32
  rwl   : BitVec 32
  w1c   : BitVec 32
  ro    : BitVec 32
  reset : BitVec 32
deriving DecidableEq, Repr

/-- The index of `d` in a family of the given strides and counts: true when `d` is the offset of one. -/
def dimsCover : List (Nat × Nat) → Nat → Bool
  | [], d => d == 0
  | (stride, count) :: rest, d =>
    dimsCover rest (d % stride) && d / stride < count

/-! ### Registers of TOP -/

def TOP_ID : Nat := 0x0
def TOP_ID_PART : Fld := ⟨16, 16⟩
def TOP_ID_MAJOR : Fld := ⟨12, 4⟩
def TOP_ID_MINOR : Fld := ⟨8, 4⟩
def TOP_VENDOR : Nat := 0x4
def TOP_VENDOR_DEVICE : Fld := ⟨16, 16⟩
def TOP_VENDOR_VID : Fld := ⟨0, 16⟩
def TOP_SERIAL_LO : Nat := 0x8
def TOP_SERIAL_HI : Nat := 0xC
def TOP_STAT : Nat := 0x10
def TOP_STAT_AWAKE : Fld := ⟨8, 3⟩
def TOP_STAT_MCEN : Fld := ⟨4, 1⟩
def TOP_STAT_LOCKED : Fld := ⟨3, 1⟩
def TOP_STAT_RECOVERY : Fld := ⟨2, 1⟩
def TOP_STAT_INHIBIT : Fld := ⟨1, 1⟩
def TOP_STAT_SAFE : Fld := ⟨0, 1⟩
def SEM (n : Nat) : Nat := 0x400 + 0x4 * n
def SEM_GOT : Fld := ⟨31, 1⟩
def SEM_OWNER : Fld := ⟨0, 4⟩
def SEM_REL : Nat := 0x500
def SEM_REL_SEM : Fld := ⟨0, 6⟩
def SEM_FORCE : Nat := 0x504
def SEM_FORCE_SEM : Fld := ⟨0, 6⟩
def SEM_HELD0 : Nat := 0x508
def SEM_HELD1 : Nat := 0x50C
def EVT_PEND_BLK : Nat := 0x800
def EVT_PEND_BLK_BLK : Fld := ⟨0, 27⟩
def EVT_ROUTE (n : Nat) : Nat := 0x1000 + 0x4 * n
def EVT_ROUTE_HOST_EN : Fld := ⟨31, 1⟩
def EVT_ROUTE_HOST_VEC : Fld := ⟨16, 8⟩
def EVT_ROUTE_CC_MASK : Fld := ⟨8, 4⟩
def EVT_ROUTE_CC_IRQ : Fld := ⟨0, 6⟩

/-! ### Registers of CK -/

def CK_CLK : Nat := 0x100000
def CK_CLK_PB_LOCK : Fld := ⟨5, 1⟩
def CK_CLK_PA_LOCK : Fld := ⟨4, 1⟩
def CK_CLK_PSEL : Fld := ⟨3, 1⟩
def CK_CLK_XB_OK : Fld := ⟨2, 1⟩
def CK_CLK_XA_OK : Fld := ⟨1, 1⟩
def CK_CLK_XSEL : Fld := ⟨0, 1⟩
def CK_SUP : Nat := 0x100004
def CK_SUP_OUT : Fld := ⟨0, 4⟩
def CK_EVT : Nat := 0x100020
def CK_EVT_SUPPLY : Fld := ⟨6, 1⟩
def CK_EVT_SLEEP_REFUSED : Fld := ⟨5, 1⟩
def CK_EVT_PLL_SWITCH : Fld := ⟨4, 1⟩
def CK_EVT_XTAL_SWITCH : Fld := ⟨3, 1⟩
def CK_EVT_AWAKE : Fld := ⟨0, 3⟩
def CK_EVT_EN : Nat := 0x100024
def CK_DOM (n : Nat) : Nat := 0x100100 + 0x4 * n
def CK_DOM_WAKESRC : Fld := ⟨16, 4⟩
def CK_DOM_STATE : Fld := ⟨8, 2⟩
def CK_DOM_REQ : Fld := ⟨0, 2⟩
def CK_SYSRST : Nat := 0x100200

/-! ### Registers of SI -/

def SI_STAT : Nat := 0x200000
def SI_STAT_ENB_PAD : Fld := ⟨9, 1⟩
def SI_STAT_ENA_PAD : Fld := ⟨8, 1⟩
def SI_STAT_OUT : Fld := ⟨5, 3⟩
def SI_STAT_RESYNC : Fld := ⟨4, 1⟩
def SI_STAT_TWO : Fld := ⟨3, 1⟩
def SI_STAT_REARM : Fld := ⟨2, 1⟩
def SI_STAT_INHIBIT : Fld := ⟨1, 1⟩
def SI_STAT_SAFE : Fld := ⟨0, 1⟩
def SI_EVT : Nat := 0x200020
def SI_EVT_REC_LOSS : Fld := ⟨6, 1⟩
def SI_EVT_HB_MISS : Fld := ⟨5, 1⟩
def SI_EVT_RESYNC : Fld := ⟨4, 1⟩
def SI_EVT_INHIBIT : Fld := ⟨3, 1⟩
def SI_EVT_SAFE_EXIT : Fld := ⟨2, 1⟩
def SI_EVT_SAFE_ENTER : Fld := ⟨1, 1⟩
def SI_EVT_FAULT : Fld := ⟨0, 1⟩
def SI_EVT_EN : Nat := 0x200024
def SI_CNT (n : Nat) : Nat := 0x200040 + 0x4 * n
def SI_FR_BASE_LO : Nat := 0x200080
def SI_FR_BASE_LO_ADDR : Fld := ⟨5, 27⟩
def SI_FR_BASE_HI : Nat := 0x200084
def SI_FR_BASE_HI_ADDR : Fld := ⟨0, 16⟩
def SI_FR_SIZE : Nat := 0x200088
def SI_FR_SIZE_VALUE : Fld := ⟨5, 27⟩
def SI_FR_WPTR : Nat := 0x20008C
def SI_FR_WPTR_VALUE : Fld := ⟨5, 27⟩
def SI_FR_RPTR : Nat := 0x200090
def SI_FR_RPTR_VALUE : Fld := ⟨5, 27⟩
def SI_SAFE_REL : Nat := 0x200100
def SI_CAUSE : Nat := 0x200104
def SI_CAUSE_INST : Fld := ⟨16, 8⟩
def SI_CAUSE_CODE : Fld := ⟨0, 16⟩
def SI_CFG : Nat := 0x200108
def SI_CFG_DT : Fld := ⟨16, 8⟩
def SI_CFG_REARM : Fld := ⟨0, 8⟩
def SI_PAIR : Nat := 0x20010C
def SI_PAIR_PAIR : Fld := ⟨0, 8⟩
def SI_AXACT : Nat := 0x200110
def SI_AXACT_ACT0 : Fld := ⟨0, 2⟩
def SI_AXACT_ACT1 : Fld := ⟨2, 2⟩
def SI_AXACT_ACT2 : Fld := ⟨4, 2⟩
def SI_AXACT_ACT3 : Fld := ⟨6, 2⟩
def SI_AXACT_ACT4 : Fld := ⟨8, 2⟩
def SI_AXACT_ACT5 : Fld := ⟨10, 2⟩
def SI_AXACT_ACT6 : Fld := ⟨12, 2⟩
def SI_AXACT_ACT7 : Fld := ⟨14, 2⟩
def SI_HUBPERM : Nat := 0x200114
def SI_HUBPERM_PERM : Fld := ⟨0, 16⟩
def SI_ENB : Nat := 0x200118
def SI_WDG : Nat := 0x20011C
def SI_HBEN : Nat := 0x200200
def SI_HBEN_EN : Fld := ⟨0, 4⟩
def SI_HB (n : Nat) : Nat := 0x200210 + 0x4 * n
def SI_HB_NSEQ : Fld := ⟨16, 16⟩
def SI_HB_SEQ : Fld := ⟨0, 16⟩
def SI_LATENT : Nat := 0x200300
def SI_LATENT_ROW : Fld := ⟨4, 4⟩
def SI_LATENT_PASS : Fld := ⟨0, 1⟩

/-! ### Registers of PROT -/

def PROT_LOCK : Nat := 0x300000
def PROT_LOCK_LOCK : Fld := ⟨0, 1⟩
def PROT_FIRE : Nat := 0x300010
def PROT_CRC : Nat := 0x300014
def PROT_REGION0 (n : Nat) : Nat := 0x301000 + 0x10 * n
def PROT_REGION0_BASE_LO : Fld := ⟨6, 26⟩
def PROT_REGION1 (n : Nat) : Nat := 0x301004 + 0x10 * n
def PROT_REGION1_PERM : Fld := ⟨16, 16⟩
def PROT_REGION1_BASE_HI : Fld := ⟨0, 16⟩
def PROT_REGION2 (n : Nat) : Nat := 0x301008 + 0x10 * n
def PROT_REGION2_LIMIT_LO : Fld := ⟨6, 26⟩
def PROT_REGION3 (n : Nat) : Nat := 0x30100C + 0x10 * n
def PROT_REGION3_EN : Fld := ⟨31, 1⟩
def PROT_REGION3_LIMIT_HI : Fld := ⟨0, 16⟩

/-! ### Registers of ADM -/

def JOB_BASE_LO (n : Nat) : Nat := 0x400000 + 0x40 * n
def JOB_BASE_LO_ADDR : Fld := ⟨6, 26⟩
def JOB_BASE_HI (n : Nat) : Nat := 0x400004 + 0x40 * n
def JOB_BASE_HI_ADDR : Fld := ⟨0, 16⟩
def SLOT_CMD (n : Nat) : Nat := 0x400008 + 0x40 * n
def SLOT_CMD_CMD : Fld := ⟨0, 2⟩
def ADM_SLOT_STAT (n : Nat) : Nat := 0x40000C + 0x40 * n
def ADM_SLOT_STAT_BIND : Fld := ⟨16, 2⟩
def ADM_SLOT_STAT_REASON : Fld := ⟨8, 8⟩
def ADM_SLOT_STAT_VERDICT : Fld := ⟨3, 1⟩
def ADM_SLOT_STAT_STATE : Fld := ⟨0, 3⟩
def ADM_RATE (n : Nat) : Nat := 0x400010 + 0x40 * n
def ADM_MARGIN (n : Nat) : Nat := 0x400014 + 0x40 * n
def ADM_MARGIN_MARGIN : Fld := ⟨0, 16⟩
def ADM_WORST (n : Nat) : Nat := 0x400018 + 0x40 * n
def GO_LN_LO : Nat := 0x400100
def GO_LN_HI : Nat := 0x400104
def ADM_CAP : Nat := 0x400110
def ADM_CAP_NCAP : Fld := ⟨0, 8⟩
def ADM_EVT : Nat := 0x400120
def ADM_EVT_RATE_UP : Fld := ⟨7, 1⟩
def ADM_EVT_RATE_DOWN : Fld := ⟨6, 1⟩
def ADM_EVT_BUDGET : Fld := ⟨5, 1⟩
def ADM_EVT_UNRESOLVED : Fld := ⟨4, 1⟩
def ADM_EVT_OVERRUN : Fld := ⟨3, 1⟩
def ADM_EVT_SEAM : Fld := ⟨2, 1⟩
def ADM_EVT_DONE_B : Fld := ⟨1, 1⟩
def ADM_EVT_DONE_A : Fld := ⟨0, 1⟩
def ADM_EVT_EN : Nat := 0x400124
def ADM_CNT (n : Nat) : Nat := 0x400140 + 0x4 * n
def VS_OLDEST : Nat := 0x400900

/-! ### Registers of DS -/

def DS_CTRL : Nat := 0x700000
def DS_CTRL_SLEWLOG : Fld := ⟨8, 5⟩
def DS_CTRL_HOLDING : Fld := ⟨1, 1⟩
def DS_CTRL_HOLD : Fld := ⟨0, 1⟩
def DS_SLEW : Nat := 0x700004
def DS_SLEW_OSTEP : Fld := ⟨16, 16⟩
def DS_SLEW_GSTEP : Fld := ⟨0, 16⟩
def DS_EPOCH_CMD : Nat := 0x700010
def DS_EPOCH_CMD_COMMIT : Fld := ⟨0, 1⟩
def DS_EPOCH_LN_LO : Nat := 0x700014
def DS_EPOCH_LN_HI : Nat := 0x700018
def DS_EPOCH_STAT : Nat := 0x70001C
def DS_EPOCH_STAT_RESULT : Fld := ⟨2, 2⟩
def DS_EPOCH_STAT_BUSY : Fld := ⟨1, 1⟩
def DS_EPOCH_STAT_ACTIVE : Fld := ⟨0, 1⟩
def DS_EVT : Nat := 0x700020
def DS_EVT_HOLDING : Fld := ⟨5, 1⟩
def DS_EVT_DERATE_OFF : Fld := ⟨4, 1⟩
def DS_EVT_DERATE_ON : Fld := ⟨3, 1⟩
def DS_EVT_COMP_DROP : Fld := ⟨2, 1⟩
def DS_EVT_EPOCH_REFUSED : Fld := ⟨1, 1⟩
def DS_EVT_EPOCH_DONE : Fld := ⟨0, 1⟩
def DS_EVT_EN : Nat := 0x700024
def DS_CNT (n : Nat) : Nat := 0x700040 + 0x4 * n
def PLANE_MSEL (n : Nat) : Nat := 0x700100 + 0x4 * n
def PLANE_MSEL_ACTIVE : Fld := ⟨4, 3⟩
def PLANE_MSEL_NEXT : Fld := ⟨0, 3⟩
def SLOT_CFG (n : Nat) : Nat := 0x701000 + 0x10 * n
def SLOT_CFG_DRX : Fld := ⟨16, 8⟩
def SLOT_CFG_SFRAC : Fld := ⟨8, 8⟩
def SLOT_CFG_PLANE : Fld := ⟨1, 3⟩
def SLOT_CFG_EN : Fld := ⟨0, 1⟩
def SLOT_OFS (n : Nat) : Nat := 0x701004 + 0x10 * n
def SLOT_OFS_OFS : Fld := ⟨0, 24⟩
def DS_SLOT_STAT (n : Nat) : Nat := 0x701008 + 0x10 * n
def DS_SLOT_STAT_COPY : Fld := ⟨25, 1⟩
def DS_SLOT_STAT_DERATE : Fld := ⟨24, 1⟩
def DS_SLOT_STAT_DELAY : Fld := ⟨0, 24⟩

/-! ### Registers of LC -/

def LC_CTRL : Nat := 0x800000
def LC_CTRL_LOOP : Fld := ⟨19, 5⟩
def LC_CTRL_PLACE : Fld := ⟨18, 1⟩
def LC_CTRL_UNIT : Fld := ⟨8, 4⟩
def LC_CTRL_SRC : Fld := ⟨0, 3⟩
def LC_RATIO_F : Nat := 0x800004
def LC_RATIO_I : Nat := 0x800008
def LC_RATIO_I_INT : Fld := ⟨0, 8⟩
def LC_POS_F : Nat := 0x800010
def LC_POS_LO : Nat := 0x800014
def LC_POS_HI : Nat := 0x800018
def LC_HWM_LO : Nat := 0x800020
def LC_HWM_HI : Nat := 0x800024
def LC_SET_LO : Nat := 0x800028
def LC_SET_HI : Nat := 0x80002C
def LC_TMIN : Nat := 0x800030
def LC_TMIN_TMIN : Fld := ⟨0, 24⟩
def LC_TADM : Nat := 0x800034
def LC_TADM_TADM : Fld := ⟨0, 24⟩
def LC_PER : Nat := 0x800038
def LC_PER_PER : Fld := ⟨0, 24⟩
def LC_RUNUP : Nat := 0x800040
def LC_RUNUP_RUNUP : Fld := ⟨0, 24⟩
def LC_STAT : Nat := 0x800048
def LC_STAT_FEED : Fld := ⟨5, 2⟩
def LC_STAT_HOLD : Fld := ⟨4, 1⟩
def LC_STAT_OVERSPEED_WARN : Fld := ⟨3, 1⟩
def LC_STAT_REVERSED : Fld := ⟨2, 1⟩
def LC_STAT_VALID : Fld := ⟨1, 1⟩
def LC_STAT_STILL : Fld := ⟨0, 1⟩
def LC_EVT : Nat := 0x800050
def LC_EVT_CT_DROP : Fld := ⟨9, 1⟩
def LC_EVT_PROD_REFUSED : Fld := ⟨8, 1⟩
def LC_EVT_PROD_NEW : Fld := ⟨7, 1⟩
def LC_EVT_FEED_RESUME : Fld := ⟨6, 1⟩
def LC_EVT_FEED_HOLD : Fld := ⟨5, 1⟩
def LC_EVT_STILL : Fld := ⟨4, 1⟩
def LC_EVT_REVERSE : Fld := ⟨3, 1⟩
def LC_EVT_ABANDON : Fld := ⟨2, 1⟩
def LC_EVT_SKIP : Fld := ⟨1, 1⟩
def LC_EVT_OVERSPEED_WARN : Fld := ⟨0, 1⟩
def LC_EVT_EN : Nat := 0x800054
def LC_CNT (n : Nat) : Nat := 0x800060 + 0x4 * n
def PROD_CFG (n : Nat) : Nat := 0x800100 + 0x4 * n
def PROD_CFG_SPER : Fld := ⟨16, 8⟩
def PROD_CFG_NSAMP : Fld := ⟨4, 4⟩
def PROD_CFG_POL : Fld := ⟨1, 1⟩
def PROD_CFG_EN : Fld := ⟨0, 1⟩
def PREP_LEN : Nat := 0x800140
def PREP_LEN_LINES : Fld := ⟨0, 24⟩
def PREP_AHEAD : Nat := 0x800144
def PREP_AHEAD_LINES : Fld := ⟨0, 24⟩
def PREP_ORG_LO : Nat := 0x800148
def PREP_ORG_HI : Nat := 0x80014C
def PQ_STAT : Nat := 0x800180
def PQ_STAT_LANE : Fld := ⟨9, 3⟩
def PQ_STAT_COUNT : Fld := ⟨0, 9⟩
def PQ_NUM : Nat := 0x800184
def PQ_ORG_LO : Nat := 0x800188
def PQ_ORG_HI : Nat := 0x80018C
def PQ_POP : Nat := 0x800190
def PQ_POP_POP : Fld := ⟨0, 1⟩
def CT_CFG (n : Nat) : Nat := 0x800200 + 0x8 * n
def CT_CFG_WIDTH : Fld := ⟨24, 8⟩
def CT_CFG_PHASE : Fld := ⟨16, 8⟩
def CT_CFG_DIVM1 : Fld := ⟨8, 8⟩
def CT_CFG_EN : Fld := ⟨0, 1⟩
def CT_TIM (n : Nat) : Nat := 0x800204 + 0x8 * n
def CT_TIM_MINP : Fld := ⟨16, 16⟩
def CT_TIM_CDLY : Fld := ⟨0, 16⟩

/-! ### Registers of FS -/

def FS_CTRL : Nat := 0x900000
def FS_CTRL_STRB_W : Fld := ⟨0, 9⟩
def FS_EVT : Nat := 0x900020
def FS_EVT_CAL_FAIL : Fld := ⟨6, 1⟩
def FS_EVT_CUT : Fld := ⟨5, 1⟩
def FS_EVT_HEAD_WARN : Fld := ⟨4, 1⟩
def FS_EVT_HEAD_RESUME : Fld := ⟨3, 1⟩
def FS_EVT_HEAD_LIMIT : Fld := ⟨2, 1⟩
def FS_EVT_INHIBIT_CLEAR : Fld := ⟨1, 1⟩
def FS_EVT_GATE_INHIBIT : Fld := ⟨0, 1⟩
def FS_EVT_EN : Nat := 0x900024
def FS_CAL : Nat := 0x900030
def FS_CAL_CT_FAIL : Fld := ⟨16, 12⟩
def FS_CAL_FIRE_FAIL : Fld := ⟨0, 16⟩
def FS_HUB (n : Nat) : Nat := 0x900040 + 0x4 * n
def FS_HUB_SKEW : Fld := ⟨8, 8⟩
def FS_HUB_EN : Fld := ⟨0, 1⟩
def FS_HSTAT (n : Nat) : Nat := 0x900080 + 0x4 * n
def FS_HSTAT_BELOW : Fld := ⟨16, 11⟩
def FS_HSTAT_HELD : Fld := ⟨4, 1⟩
def FS_HSTAT_GAP : Fld := ⟨3, 1⟩
def FS_HSTAT_CUT : Fld := ⟨2, 1⟩
def FS_HSTAT_ALERT : Fld := ⟨1, 1⟩
def FS_HSTAT_LIMIT : Fld := ⟨0, 1⟩
def FS_SWMAX : Nat := 0x9000C0
def FS_SWMAX_SWMAX : Fld := ⟨0, 9⟩
def FS_CUTCLR : Nat := 0x9000C4
def FS_CUTCLR_CLR : Fld := ⟨0, 16⟩
def GATE_CFG (n : Nat) : Nat := 0x900100 + 0x4 * n
def GATE_CFG_HUBMASK : Fld := ⟨16, 16⟩
def GATE_CFG_POL : Fld := ⟨2, 1⟩
def GATE_CFG_FUNC : Fld := ⟨0, 2⟩
def GATE_STAT : Nat := 0x900140
def GATE_STAT_SAFE_REQ : Fld := ⟨16, 1⟩
def GATE_STAT_ACTIVE : Fld := ⟨0, 16⟩
def HT_THR (n : Nat) : Nat := 0x900200 + 0x8 * n
def HT_THR_LIMIT : Fld := ⟨16, 16⟩
def HT_THR_WARN : Fld := ⟨0, 16⟩
def HT_HYS (n : Nat) : Nat := 0x900204 + 0x8 * n
def HT_HYS_HYS : Fld := ⟨0, 16⟩
def HT_STAT (n : Nat) : Nat := 0x900400 + 0x4 * n
def HT_STAT_OVER : Fld := ⟨17, 1⟩
def HT_STAT_WARM : Fld := ⟨16, 1⟩
def HT_STAT_TEMP : Fld := ⟨0, 16⟩

/-! ### Registers of DL -/

def DL_CTRL : Nat := 0xA00000
def DL_CTRL_HBINT : Fld := ⟨0, 8⟩
def DL_EVT : Nat := 0xA00020
def DL_EVT_STATUS_LATE : Fld := ⟨5, 1⟩
def DL_EVT_HUB_ONLINE : Fld := ⟨4, 1⟩
def DL_EVT_HUB_OFFLINE : Fld := ⟨3, 1⟩
def DL_EVT_REJOIN : Fld := ⟨2, 1⟩
def DL_EVT_FAILOVER : Fld := ⟨1, 1⟩
def DL_EVT_BRINGUP_FAIL : Fld := ⟨0, 1⟩
def DL_EVT_EN : Nat := 0xA00024
def DL_CNT (n : Nat) : Nat := 0xA00040 + 0x4 * n
def DL_LANE_CFG (n : Nat) : Nat := 0xA00100 + 0x4 * n
def DL_LANE_CFG_MAXRATE : Fld := ⟨1, 2⟩
def DL_LANE_CFG_EN : Fld := ⟨0, 1⟩
def DL_LANE_STAT (n : Nat) : Nat := 0xA00180 + 0x4 * n
def DL_LANE_STAT_TRIES : Fld := ⟨8, 2⟩
def DL_LANE_STAT_RATE : Fld := ⟨6, 2⟩
def DL_LANE_STAT_CDRL : Fld := ⟨5, 1⟩
def DL_LANE_STAT_LOS : Fld := ⟨4, 1⟩
def DL_LANE_STAT_LOCK : Fld := ⟨3, 1⟩
def DL_LANE_STAT_STATE : Fld := ⟨0, 3⟩
def DL_HUB_STAT (n : Nat) : Nat := 0xA00200 + 0x4 * n
def DL_HUB_STAT_MODE : Fld := ⟨1, 2⟩
def DL_HUB_STAT_ONLINE : Fld := ⟨0, 1⟩
def DL_HUB_CAP0 (n : Nat) : Nat := 0xA00240 + 0x8 * n
def DL_HUB_CAP1 (n : Nat) : Nat := 0xA00244 + 0x8 * n
def DL_HUB_CAP1_PBD : Fld := ⟨25, 1⟩
def DL_HUB_CAP1_DWS : Fld := ⟨20, 5⟩
def DL_HUB_CAP1_RATES : Fld := ⟨16, 4⟩
def DL_HUB_CAP1_DEPTH : Fld := ⟨0, 16⟩
def DL_HUB_STATUS (n k : Nat) : Nat := 0xA01000 + 0x40 * n + 0x4 * k
def DL_CFGW (n : Nat) : Nat := 0xA00300 + 0x10 * n
def DL_CFGW_SEND : Fld := ⟨0, 1⟩
def DL_CFGW_ADDR (n : Nat) : Nat := 0xA00304 + 0x10 * n
def DL_CFGW_DATA (n : Nat) : Nat := 0xA00308 + 0x10 * n
def DL_CFGW_STAT (n : Nat) : Nat := 0xA0030C + 0x10 * n
def DL_CFGW_STAT_LOST : Fld := ⟨1, 1⟩
def DL_CFGW_STAT_BUSY : Fld := ⟨0, 1⟩

/-! ### Registers of CXR -/

def CXR_CHECK : Nat := 0xB00000
def CXR_CHECK_GO : Fld := ⟨0, 1⟩
def CXR_RESULT : Nat := 0xB00004
def CXR_RESULT_ACCEPT : Fld := ⟨16, 1⟩
def CXR_RESULT_PIPE : Fld := ⟨12, 2⟩
def CXR_RESULT_PORT : Fld := ⟨8, 4⟩
def CXR_RESULT_REASON : Fld := ⟨0, 4⟩
def CXR_LOAD (n : Nat) : Nat := 0xB00010 + 0x4 * n
def CXR_LOAD_LOAD : Fld := ⟨0, 16⟩
def CXR_EVT : Nat := 0xB00020
def CXR_EVT_MBX_DONE : Fld := ⟨4, 1⟩
def CXR_EVT_OVERFLOW : Fld := ⟨3, 1⟩
def CXR_EVT_UNVERIFIED : Fld := ⟨2, 1⟩
def CXR_EVT_LINK_DOWN : Fld := ⟨1, 1⟩
def CXR_EVT_CHECK_DONE : Fld := ⟨0, 1⟩
def CXR_EVT_EN : Nat := 0xB00024
def CAM_CFG (n : Nat) : Nat := 0xB01000 + 0x40 * n
def CAM_CFG_CHECKED : Fld := ⟨11, 1⟩
def CAM_CFG_FMT : Fld := ⟨8, 3⟩
def CAM_CFG_LINKS : Fld := ⟨6, 1⟩
def CAM_CFG_JOIN : Fld := ⟨5, 1⟩
def CAM_CFG_PIPE : Fld := ⟨2, 2⟩
def CAM_CFG_EN : Fld := ⟨1, 1⟩
def CAM_CFG_USE : Fld := ⟨0, 1⟩
def CAM_GEOM (n : Nat) : Nat := 0xB01004 + 0x40 * n
def CAM_GEOM_FH_M1 : Fld := ⟨16, 16⟩
def CAM_GEOM_W_M1 : Fld := ⟨0, 14⟩
def CAM_LAT (n : Nat) : Nat := 0xB01008 + 0x40 * n
def CAM_LAT_LATMAX : Fld := ⟨16, 16⟩
def CAM_LAT_LATMIN : Fld := ⟨0, 16⟩
def CAM_STAT (n : Nat) : Nat := 0xB0100C + 0x40 * n
def CAM_STAT_LINES : Fld := ⟨16, 16⟩
def CAM_STAT_LOCK1 : Fld := ⟨12, 1⟩
def CAM_STAT_LOCK0 : Fld := ⟨11, 1⟩
def CAM_STAT_RATE1 : Fld := ⟨8, 3⟩
def CAM_STAT_RATE0 : Fld := ⟨4, 3⟩
def CAM_STAT_STATE : Fld := ⟨0, 3⟩
def CAM_CNT (n k : Nat) : Nat := 0xB01010 + 0x40 * n + 0x4 * k
def MBX_CMD (n : Nat) : Nat := 0xB10000 + 0x200 * n
def MBX_CMD_TIMEOUT : Fld := ⟨24, 8⟩
def MBX_CMD_LEN : Fld := ⟨8, 9⟩
def MBX_CMD_WR : Fld := ⟨1, 1⟩
def MBX_CMD_GO : Fld := ⟨0, 1⟩
def MBX_ADDR (n : Nat) : Nat := 0xB10004 + 0x200 * n
def MBX_STAT (n : Nat) : Nat := 0xB10008 + 0x200 * n
def MBX_STAT_ACKCODE : Fld := ⟨8, 8⟩
def MBX_STAT_RESULT : Fld := ⟨2, 3⟩
def MBX_STAT_BUSY : Fld := ⟨0, 1⟩
def MBX_DATA (n k : Nat) : Nat := 0xB10100 + 0x200 * n + 0x4 * k

/-! ### Registers of IP -/

def IP_EVT : Nat := 0xC00020
def IP_EVT_PIPE_FAIL : Fld := ⟨4, 1⟩
def IP_EVT_PV_DROP : Fld := ⟨3, 1⟩
def IP_EVT_ROI_DROP : Fld := ⟨2, 1⟩
def IP_EVT_ROI_DONE : Fld := ⟨1, 1⟩
def IP_EVT_CAL_DONE : Fld := ⟨0, 1⟩
def IP_EVT_EN : Nat := 0xC00024
def IP_CNT (n : Nat) : Nat := 0xC00040 + 0x4 * n
def IP_PIPE (n : Nat) : Nat := 0xC00080 + 0x4 * n
def IP_PIPE_CAM : Fld := ⟨12, 4⟩
def IP_PIPE_BUSY : Fld := ⟨9, 1⟩
def IP_PIPE_FAILED : Fld := ⟨8, 1⟩
def IP_PIPE_SPARE : Fld := ⟨0, 1⟩
def CAL_CTRL (n : Nat) : Nat := 0xC000C0 + 0x8 * n
def CAL_CTRL_NLOG : Fld := ⟨12, 4⟩
def CAL_CTRL_PORT : Fld := ⟨8, 4⟩
def CAL_CTRL_CH : Fld := ⟨4, 2⟩
def CAL_CTRL_GO : Fld := ⟨0, 1⟩
def CAL_STAT (n : Nat) : Nat := 0xC000C4 + 0x8 * n
def CAL_STAT_COUNT : Fld := ⟨16, 13⟩
def CAL_STAT_BUSY : Fld := ⟨0, 1⟩
def IPC_CFG (n : Nat) : Nat := 0xC01000 + 0x40 * n
def IPC_CFG_TSET : Fld := ⟨8, 2⟩
def IPC_CFG_PVK : Fld := ⟨4, 3⟩
def IPC_CFG_PVEN : Fld := ⟨1, 1⟩
def IPC_CFG_VSEN : Fld := ⟨0, 1⟩
def PV_CROP (n : Nat) : Nat := 0xC01004 + 0x40 * n
def PV_CROP_PW_M1 : Fld := ⟨16, 13⟩
def PV_CROP_PX0 : Fld := ⟨0, 14⟩
def PV_BASE_LO (n : Nat) : Nat := 0xC01008 + 0x40 * n
def PV_BASE_LO_ADDR : Fld := ⟨6, 26⟩
def PV_BASE_HI (n : Nat) : Nat := 0xC0100C + 0x40 * n
def PV_BASE_HI_ADDR : Fld := ⟨0, 16⟩
def PV_SIZE (n : Nat) : Nat := 0xC01010 + 0x40 * n
def PV_SIZE_SIZE : Fld := ⟨6, 26⟩
def PV_WPTR (n : Nat) : Nat := 0xC01014 + 0x40 * n
def PV_SEQ (n : Nat) : Nat := 0xC01018 + 0x40 * n
def ROI_CTRL (n k : Nat) : Nat := 0xC04000 + 0x400 * n + 0x40 * k
def ROI_CTRL_EN : Fld := ⟨31, 1⟩
def ROI_CTRL_PER : Fld := ⟨30, 1⟩
def ROI_CTRL_TAP : Fld := ⟨28, 2⟩
def ROI_CTRL_WR_M1 : Fld := ⟨14, 14⟩
def ROI_CTRL_X0 : Fld := ⟨0, 14⟩
def ROI_START_LO (n k : Nat) : Nat := 0xC04004 + 0x400 * n + 0x40 * k
def ROI_START_HI (n k : Nat) : Nat := 0xC04008 + 0x400 * n + 0x40 * k
def ROI_LINES (n k : Nat) : Nat := 0xC0400C + 0x400 * n + 0x40 * k
def ROI_LINES_N_M1 : Fld := ⟨0, 16⟩
def ROI_PERIOD (n k : Nat) : Nat := 0xC04010 + 0x400 * n + 0x40 * k
def ROI_BASE_LO (n k : Nat) : Nat := 0xC04014 + 0x400 * n + 0x40 * k
def ROI_BASE_LO_ADDR : Fld := ⟨6, 26⟩
def ROI_BASE_HI (n k : Nat) : Nat := 0xC04018 + 0x400 * n + 0x40 * k
def ROI_BASE_HI_ADDR : Fld := ⟨0, 16⟩
def ROI_RING (n k : Nat) : Nat := 0xC0401C + 0x400 * n + 0x40 * k
def ROI_RING_NFRAME_M1 : Fld := ⟨16, 8⟩
def ROI_RING_FSTRIDE : Fld := ⟨0, 16⟩
def ROI_STAT (n k : Nat) : Nat := 0xC04020 + 0x400 * n + 0x40 * k
def ROI_STAT_SEQ : Fld := ⟨16, 16⟩
def ROI_STAT_ACTIVE : Fld := ⟨8, 1⟩
def ROI_STAT_LAST : Fld := ⟨0, 8⟩

/-! ### Registers of VE -/

def VE_CTRL : Nat := 0xD00000
def VE_CTRL_STEPL : Fld := ⟨24, 8⟩
def VE_CTRL_HLOG : Fld := ⟨20, 4⟩
def VE_CTRL_CONF : Fld := ⟨16, 4⟩
def VE_CTRL_DECLOG : Fld := ⟨8, 3⟩
def VE_CTRL_TRACK : Fld := ⟨1, 1⟩
def VE_CTRL_EN : Fld := ⟨0, 1⟩
def VE_STAT : Nat := 0xD00004
def VE_STAT_REASON : Fld := ⟨4, 4⟩
def VE_STAT_ACTIVE : Fld := ⟨0, 1⟩
def VE_EVT : Nat := 0xD00020
def VE_EVT_CHECK_FAIL : Fld := ⟨6, 1⟩
def VE_EVT_STALE : Fld := ⟨5, 1⟩
def VE_EVT_ALIGN : Fld := ⟨4, 1⟩
def VE_EVT_TRACK_LOST : Fld := ⟨3, 1⟩
def VE_EVT_HEALTH_READY : Fld := ⟨2, 1⟩
def VE_EVT_REC_LOSS : Fld := ⟨1, 1⟩
def VE_EVT_REC_AVAIL : Fld := ⟨0, 1⟩
def VE_EVT_EN : Nat := 0xD00024
def VE_CNT (n : Nat) : Nat := 0xD00040 + 0x4 * n
def VE_BQ_BASE_LO : Nat := 0xD00080
def VE_BQ_BASE_LO_ADDR : Fld := ⟨6, 26⟩
def VE_BQ_BASE_HI : Nat := 0xD00084
def VE_BQ_BASE_HI_ADDR : Fld := ⟨0, 16⟩
def VE_ABUF_BASE_LO : Nat := 0xD00090
def VE_ABUF_BASE_LO_ADDR : Fld := ⟨6, 26⟩
def VE_ABUF_BASE_HI : Nat := 0xD00094
def VE_ABUF_BASE_HI_ADDR : Fld := ⟨0, 16⟩
def VE_REC_BASE_LO : Nat := 0xD000A0
def VE_REC_BASE_LO_ADDR : Fld := ⟨6, 26⟩
def VE_REC_BASE_HI : Nat := 0xD000A4
def VE_REC_BASE_HI_ADDR : Fld := ⟨0, 16⟩
def VE_BQ_DEPTH : Nat := 0xD00088
def VE_BQ_DEPTH_DEPTH : Fld := ⟨0, 20⟩
def VE_REC_SIZE : Nat := 0xD000A8
def VE_REC_SIZE_VALUE : Fld := ⟨6, 26⟩
def VE_REC_WPTR : Nat := 0xD000AC
def VE_REC_WPTR_VALUE : Fld := ⟨6, 26⟩
def VE_REC_RPTR : Nat := 0xD000B0
def VE_REC_RPTR_VALUE : Fld := ⟨6, 26⟩
def VE_GEOM : Nat := 0xD00100
def VE_GEOM_DPP : Fld := ⟨0, 16⟩
def VE_WOFS : Nat := 0xD00104
def VE_WOFS_WOFS : Fld := ⟨0, 18⟩
def VE_MODEL : Nat := 0xD00108
def VE_MODEL_KY : Fld := ⟨8, 8⟩
def VE_MODEL_KX : Fld := ⟨0, 8⟩
def VE_DBASE (n : Nat) : Nat := 0xD00110 + 0x4 * n
def VE_DBASE_DBASE : Fld := ⟨0, 16⟩
def VE_THR (n : Nat) : Nat := 0xD00120 + 0x4 * n
def VE_THR_TM : Fld := ⟨16, 16⟩
def VE_THR_TX : Fld := ⟨0, 16⟩
def VE_SEG : Nat := 0xD00130
def VE_SEG_AMIN : Fld := ⟨0, 16⟩
def VE_HCFG : Nat := 0xD00134
def VE_HCFG_HCH : Fld := ⟨16, 16⟩
def VE_HCFG_HCOTHER : Fld := ⟨8, 8⟩
def VE_HCFG_HCMIN : Fld := ⟨0, 8⟩
def VE_HSTAT : Nat := 0xD00138
def VE_HSTAT_HSEQ : Fld := ⟨1, 31⟩
def VE_HSTAT_BANK : Fld := ⟨0, 1⟩
def VE_CAM_CFG (n : Nat) : Nat := 0xD01000 + 0x40 * n
def VE_CAM_CFG_EN : Fld := ⟨31, 1⟩
def VE_CAM_CFG_WBASE : Fld := ⟨0, 18⟩
def VE_CAM_USE (n : Nat) : Nat := 0xD01004 + 0x40 * n
def VE_CAM_USE_USE_HI : Fld := ⟨16, 14⟩
def VE_CAM_USE_USE_LO : Fld := ⟨0, 14⟩
def VE_CAM_COFS (n : Nat) : Nat := 0xD01008 + 0x40 * n
def VE_CAM_TPX (n k : Nat) : Nat := 0xD01010 + 0x40 * n + 0x4 * k
def VE_CAM_TPX_EN : Fld := ⟨31, 1⟩
def VE_CAM_TPX_TPX : Fld := ⟨0, 18⟩
def VE_CAM_DX (n : Nat) : Nat := 0xD01020 + 0x40 * n
def VE_CAM_DX_DXM : Fld := ⟨16, 16⟩
def VE_CAM_DX_DXA : Fld := ⟨0, 16⟩
def VE_CAM_DY (n : Nat) : Nat := 0xD01024 + 0x40 * n
def VE_CAM_DY_DYM : Fld := ⟨16, 16⟩
def VE_CAM_DY_DYA : Fld := ⟨0, 16⟩
def VE_CAM_TSTAT (n : Nat) : Nat := 0xD01028 + 0x40 * n
def VE_CAM_TSTAT_LIMIT : Fld := ⟨17, 1⟩
def VE_CAM_TSTAT_VALID : Fld := ⟨16, 1⟩
def VE_CAM_TSTAT_COUNT : Fld := ⟨0, 16⟩
def VE_SPAN (n : Nat) : Nat := 0xD02000 + 0x4 * n
def VE_SPAN_DHI : Fld := ⟨16, 16⟩
def VE_SPAN_DLO : Fld := ⟨0, 16⟩
def VE_MASK0 (n : Nat) : Nat := 0xD03000 + 0x10 * n
def VE_MASK0_X1 : Fld := ⟨16, 16⟩
def VE_MASK0_X0 : Fld := ⟨0, 16⟩
def VE_MASK1 (n : Nat) : Nat := 0xD03004 + 0x10 * n
def VE_MASK2 (n : Nat) : Nat := 0xD03008 + 0x10 * n
def VE_MASK3 (n : Nat) : Nat := 0xD0300C + 0x10 * n
def VE_MASK3_EN : Fld := ⟨7, 1⟩
def VE_MASK3_SHIFT : Fld := ⟨0, 3⟩

/-! ### Registers of MC -/

def MC_CFG : Nat := 0xF00000
def MC_CFG_MIRROR : Fld := ⟨20, 4⟩
def MC_CFG_SPARE : Fld := ⟨19, 1⟩
def MC_CFG_AUTOMIG : Fld := ⟨18, 1⟩
def MC_CFG_NRK_M1 : Fld := ⟨16, 2⟩
def MC_CFG_DEV : Fld := ⟨14, 2⟩
def MC_CFG_DENS : Fld := ⟨12, 2⟩
def MC_CFG_NCHLOG : Fld := ⟨10, 2⟩
def MC_CFG_ENABLE : Fld := ⟨0, 1⟩
def MC_EVT : Nat := 0xF00020
def MC_EVT_TEMP : Fld := ⟨6, 1⟩
def MC_EVT_LASTING : Fld := ⟨5, 1⟩
def MC_EVT_UE : Fld := ⟨4, 1⟩
def MC_EVT_MIG_DONE : Fld := ⟨3, 1⟩
def MC_EVT_MIG_START : Fld := ⟨2, 1⟩
def MC_EVT_FREQ_DONE : Fld := ⟨1, 1⟩
def MC_EVT_TRN_DONE : Fld := ⟨0, 1⟩
def MC_EVT_EN : Nat := 0xF00024
def MC_CNT (n : Nat) : Nat := 0xF00040 + 0x4 * n
def MC_SCHED0 : Nat := 0xF00080
def MC_SCHED0_PIDLE : Fld := ⟨16, 16⟩
def MC_SCHED0_AGECAP : Fld := ⟨0, 16⟩
def MC_SCHED1 : Nat := 0xF00084
def MC_SCHED1_WLO : Fld := ⟨8, 8⟩
def MC_SCHED1_WHI : Fld := ⟨0, 8⟩
def MC_PORT_CFG0 : Nat := 0xF00100
def MC_PORT_CFG0_RKMASK : Fld := ⟨28, 4⟩
def MC_PORT_CFG0_PANIC_OFF : Fld := ⟨16, 8⟩
def MC_PORT_CFG0_PANIC_ON : Fld := ⟨8, 8⟩
def MC_PORT_CFG0_PANIC : Fld := ⟨0, 1⟩
def MC_PORT_CFG1 (n : Nat) : Nat := 0xF00104 + 0x4 * n
def MC_PORT_CFG1_RKMASK : Fld := ⟨28, 4⟩
def MC_PORT_CFG1_PANIC_OFF : Fld := ⟨16, 8⟩
def MC_PORT_CFG1_PANIC_ON : Fld := ⟨8, 8⟩
def MC_PORT_CFG1_PANIC : Fld := ⟨0, 1⟩
def MC_PORT_CFG4 (n : Nat) : Nat := 0xF00110 + 0x4 * n
def MC_PORT_CFG4_RKMASK : Fld := ⟨28, 4⟩
def MC_PORT_CFG4_PANIC_OFF : Fld := ⟨16, 8⟩
def MC_PORT_CFG4_PANIC_ON : Fld := ⟨8, 8⟩
def MC_PORT_CFG4_PANIC : Fld := ⟨0, 1⟩
def MC_FREQ_PT (n : Nat) : Nat := 0xF00200 + 0x4 * n
def MC_FREQ_PT_GRADE : Fld := ⟨0, 2⟩
def MC_FREQ_CMD : Nat := 0xF00210
def MC_FREQ_CMD_BUSY : Fld := ⟨8, 1⟩
def MC_FREQ_CMD_RESULT : Fld := ⟨6, 2⟩
def MC_FREQ_CMD_CUR : Fld := ⟨4, 2⟩
def MC_FREQ_CMD_GO : Fld := ⟨3, 1⟩
def MC_FREQ_CMD_POINT : Fld := ⟨0, 2⟩
def MC_SR_CFG : Nat := 0xF00300
def MC_SR_CFG_SCRUB : Fld := ⟨24, 8⟩
def MC_SR_CFG_IDLE : Fld := ⟨8, 16⟩
def MC_SR_CFG_ALL : Fld := ⟨1, 1⟩
def MC_SR_CFG_EN : Fld := ⟨0, 1⟩
def MC_RK_STAT (n k : Nat) : Nat := 0xF01000 + 0x100 * n + 0x4 * k
def MC_RK_STAT_CE : Fld := ⟨16, 16⟩
def MC_RK_STAT_ROLE : Fld := ⟨10, 2⟩
def MC_RK_STAT_LRANK : Fld := ⟨8, 2⟩
def MC_RK_STAT_SR : Fld := ⟨4, 3⟩
def MC_RK_STAT_MIG : Fld := ⟨3, 1⟩
def MC_RK_STAT_LASTING : Fld := ⟨2, 1⟩
def MC_TRN_CMD (n : Nat) : Nat := 0xF01020 + 0x100 * n
def MC_TRN_CMD_COUNT_M1 : Fld := ⟨26, 6⟩
def MC_TRN_CMD_STEP : Fld := ⟨20, 6⟩
def MC_TRN_CMD_START : Fld := ⟨11, 9⟩
def MC_TRN_CMD_OP : Fld := ⟨8, 3⟩
def MC_TRN_CMD_RANK : Fld := ⟨4, 2⟩
def MC_TRN_CMD_GO : Fld := ⟨0, 1⟩
def MC_TRN_STAT (n : Nat) : Nat := 0xF01024 + 0x100 * n
def MC_TRN_STAT_SEQ : Fld := ⟨16, 16⟩
def MC_TRN_STAT_DONE : Fld := ⟨8, 8⟩
def MC_TRN_STAT_RESULT : Fld := ⟨2, 2⟩
def MC_TRN_STAT_BUSY : Fld := ⟨0, 1⟩
def MC_MIG_CMD (n : Nat) : Nat := 0xF01028 + 0x100 * n
def MC_MIG_CMD_LRANK : Fld := ⟨4, 2⟩
def MC_MIG_CMD_CMD : Fld := ⟨0, 2⟩
def MC_MIG_STAT (n : Nat) : Nat := 0xF0102C + 0x100 * n
def MC_MIG_STAT_PCT : Fld := ⟨8, 8⟩
def MC_MIG_STAT_STATE : Fld := ⟨0, 2⟩
def MC_SB (n : Nat) : Nat := 0xF01030 + 0x100 * n
def MC_SB_DATA : Fld := ⟨24, 8⟩
def MC_SB_ADDR : Fld := ⟨14, 10⟩
def MC_SB_SLOT : Fld := ⟨8, 1⟩
def MC_SB_TGT : Fld := ⟨6, 2⟩
def MC_SB_WR : Fld := ⟨5, 1⟩
def MC_SB_MODE : Fld := ⟨4, 1⟩
def MC_SB_ERR : Fld := ⟨2, 1⟩
def MC_SB_BUSY : Fld := ⟨1, 1⟩
def MC_SB_GO : Fld := ⟨0, 1⟩
def MC_DELAY (n k r e : Nat) : Nat := 0xF80000 + 0x10000 * n + 0x4000 * k + 0x1000 * r + 0x4 * e
def MC_DELAY_WDLY : Fld := ⟨16, 9⟩
def MC_DELAY_RDLY : Fld := ⟨0, 9⟩

/-! ### Registers of HI -/

def HI_LINK_STAT : Nat := 0x1000000
def HI_LINK_STAT_UP : Fld := ⟨8, 1⟩
def HI_LINK_STAT_WIDTH : Fld := ⟨4, 4⟩
def HI_LINK_STAT_SPEED : Fld := ⟨0, 4⟩
def HI_EVT : Nat := 0x1000020
def HI_EVT_FLR : Fld := ⟨26, 1⟩
def HI_EVT_LINK_UP : Fld := ⟨25, 1⟩
def HI_EVT_LINK_DOWN : Fld := ⟨24, 1⟩
def HI_EVT_SW : Fld := ⟨16, 8⟩
def HI_EVT_DB : Fld := ⟨0, 16⟩
def HI_EVT_EN : Nat := 0x1000024
def HI_CNT (n : Nat) : Nat := 0x1000040 + 0x4 * n
def HI_BAR4_BASE : Nat := 0x1000100
def HI_BAR4_BASE_BASE : Fld := ⟨0, 12⟩
def HI_DB (n : Nat) : Nat := 0x1000200 + 0x4 * n
def HI_SWEVT : Nat := 0x1000280
def HI_SWEVT_SET : Fld := ⟨0, 8⟩
def MSIX_ADDR_LO (n : Nat) : Nat := 0x1080000 + 0x10 * n
def MSIX_ADDR_LO_ADDR : Fld := ⟨2, 30⟩
def MSIX_ADDR_HI (n : Nat) : Nat := 0x1080004 + 0x10 * n
def MSIX_DATA (n : Nat) : Nat := 0x1080008 + 0x10 * n
def MSIX_CTRL (n : Nat) : Nat := 0x108000C + 0x10 * n
def MSIX_CTRL_MASK : Fld := ⟨0, 1⟩
def MSIX_PBA (n : Nat) : Nat := 0x1090000 + 0x4 * n

/-! ### Registers of DMA -/

def DMA_EVT : Nat := 0x1100020
def DMA_EVT_EN : Nat := 0x1100024
def CH_HEAD_LO (n : Nat) : Nat := 0x1101000 + 0x40 * n
def CH_HEAD_LO_ADDR : Fld := ⟨6, 26⟩
def CH_HEAD_HI (n : Nat) : Nat := 0x1101004 + 0x40 * n
def CH_HEAD_HI_ADDR : Fld := ⟨0, 16⟩
def CH_CTRL (n : Nat) : Nat := 0x1101008 + 0x40 * n
def CH_CTRL_ABORT : Fld := ⟨1, 1⟩
def CH_CTRL_START : Fld := ⟨0, 1⟩
def CHAIN_POKE (n : Nat) : Nat := 0x110100C + 0x40 * n
def CH_STAT (n : Nat) : Nat := 0x1101010 + 0x40 * n
def CH_STAT_DONECNT : Fld := ⟨16, 16⟩
def CH_STAT_RESULT : Fld := ⟨4, 3⟩
def CH_STAT_POKED : Fld := ⟨3, 1⟩
def CH_STAT_STATE : Fld := ⟨0, 3⟩
def CH_TAIL_LO (n : Nat) : Nat := 0x1101014 + 0x40 * n
def CH_TAIL_HI (n : Nat) : Nat := 0x1101018 + 0x40 * n
def CH_TAIL_HI_ADDR : Fld := ⟨0, 16⟩

/-! ### Registers of CV -/

def CV_EVT : Nat := 0x1200020
def CV_EVT_OVERLEN : Fld := ⟨8, 8⟩
def CV_EVT_MISMATCH : Fld := ⟨0, 8⟩
def CV_EVT_EN : Nat := 0x1200024
def CV_CFG (n : Nat) : Nat := 0x1201000 + 0x100 * n
def CV_CFG_CMP : Fld := ⟨4, 1⟩
def CV_CFG_MODE : Fld := ⟨2, 2⟩
def CV_CFG_POLY : Fld := ⟨0, 2⟩
def CV_FRAME (n : Nat) : Nat := 0x1201004 + 0x100 * n
def CV_FRAME_ADDR : Fld := ⟨16, 16⟩
def CV_FRAME_SEQ : Fld := ⟨0, 16⟩
def CV_START (n : Nat) : Nat := 0x1201008 + 0x100 * n
def CV_END (n : Nat) : Nat := 0x120100C + 0x100 * n
def CV_DATA8 (n : Nat) : Nat := 0x1201010 + 0x100 * n
def CV_DATA16 (n : Nat) : Nat := 0x1201014 + 0x100 * n
def CV_DATA32 (n : Nat) : Nat := 0x1201018 + 0x100 * n
def CV_VALUE (n : Nat) : Nat := 0x120101C + 0x100 * n
def CV_RESULT (n : Nat) : Nat := 0x1201020 + 0x100 * n
def CV_EXPECT (n : Nat) : Nat := 0x1201024 + 0x100 * n
def CV_STAT (n : Nat) : Nat := 0x1201028 + 0x100 * n
def CV_STAT_DMAOWN : Fld := ⟨27, 1⟩
def CV_STAT_OVERLEN : Fld := ⟨26, 1⟩
def CV_STAT_MISMATCH : Fld := ⟨25, 1⟩
def CV_STAT_MATCH : Fld := ⟨24, 1⟩
def CV_STAT_COUNT : Fld := ⟨0, 24⟩

/-! ### Registers of MX -/

def MX_EVT : Nat := 0x1300020
def MX_EVT_ATTN : Fld := ⟨0, 8⟩
def MX_EVT_EN : Nat := 0x1300024
def AX_CFG (n : Nat) : Nat := 0x1301000 + 0x100 * n
def AX_CFG_HOLDDLY : Fld := ⟨24, 8⟩
def AX_CFG_STEPMIN : Fld := ⟨16, 8⟩
def AX_CFG_SPPER : Fld := ⟨8, 8⟩
def AX_CFG_STILLMODE : Fld := ⟨4, 2⟩
def AX_CFG_DIRPOL : Fld := ⟨3, 1⟩
def AX_CFG_MODE : Fld := ⟨1, 1⟩
def AX_CFG_EN : Fld := ⟨0, 1⟩
def AX_CUR (n : Nat) : Nat := 0x1301004 + 0x100 * n
def AX_CUR_IHOLD : Fld := ⟨16, 16⟩
def AX_CUR_IRUN : Fld := ⟨0, 16⟩
def AX_CMD (n : Nat) : Nat := 0x1301008 + 0x100 * n
def AX_CMD_FIRSTSEG : Fld := ⟨8, 6⟩
def AX_CMD_SET : Fld := ⟨6, 2⟩
def AX_CMD_CMD : Fld := ⟨0, 4⟩
def AX_TARGET (n : Nat) : Nat := 0x130100C + 0x100 * n
def AX_POS (n : Nat) : Nat := 0x1301010 + 0x100 * n
def AX_VEL (n : Nat) : Nat := 0x1301014 + 0x100 * n
def AX_HOFS (n : Nat) : Nat := 0x1301028 + 0x100 * n
def AX_HLATCH (n : Nat) : Nat := 0x130102C + 0x100 * n
def AX_HMAX (n : Nat) : Nat := 0x1301030 + 0x100 * n
def AX_STAT (n : Nat) : Nat := 0x1301018 + 0x100 * n
def AX_STAT_HOMED : Fld := ⟨16, 1⟩
def AX_STAT_SEG : Fld := ⟨10, 6⟩
def AX_STAT_HSTEP : Fld := ⟨8, 2⟩
def AX_STAT_HOMEIN : Fld := ⟨7, 1⟩
def AX_STAT_LIMP : Fld := ⟨6, 1⟩
def AX_STAT_LIMN : Fld := ⟨5, 1⟩
def AX_STAT_LAG : Fld := ⟨4, 1⟩
def AX_STAT_STILL : Fld := ⟨3, 1⟩
def AX_STAT_STATE : Fld := ⟨0, 3⟩
def AX_FLAG (n : Nat) : Nat := 0x130101C + 0x100 * n
def AX_FLAG_CHATTER : Fld := ⟨7, 1⟩
def AX_FLAG_SEGSTOP : Fld := ⟨6, 1⟩
def AX_FLAG_REFUSED : Fld := ⟨5, 1⟩
def AX_FLAG_HOME_FAIL : Fld := ⟨4, 1⟩
def AX_FLAG_HOME_DONE : Fld := ⟨3, 1⟩
def AX_FLAG_TRIP_P : Fld := ⟨2, 1⟩
def AX_FLAG_TRIP_N : Fld := ⟨1, 1⟩
def AX_FLAG_DONE : Fld := ⟨0, 1⟩
def AX_LIM (n : Nat) : Nat := 0x1301020 + 0x100 * n
def AX_LIM_SPER : Fld := ⟨24, 8⟩
def AX_LIM_NSAMP : Fld := ⟨20, 4⟩
def AX_LIM_REL : Fld := ⟨8, 12⟩
def AX_LIM_ACTP : Fld := ⟨3, 1⟩
def AX_LIM_ACTN : Fld := ⟨2, 1⟩
def AX_LIM_POL : Fld := ⟨1, 1⟩
def AX_LIM_EN : Fld := ⟨0, 1⟩
def AX_HOME (n : Nat) : Nat := 0x1301024 + 0x100 * n
def AX_HOME_HQE : Fld := ⟨28, 4⟩
def AX_HOME_HREF : Fld := ⟨24, 2⟩
def AX_HOME_HSET : Fld := ⟨22, 2⟩
def AX_HOME_HDIR : Fld := ⟨21, 1⟩
def AX_HOME_HPOL : Fld := ⟨1, 1⟩
def AX_SET (n k j : Nat) : Nat := 0x1301040 + 0x100 * n + 0x20 * k + 0x4 * j

/-! ### Registers of QE -/

def QE_EVT : Nat := 0x1400020
def QE_EVT_ATTN : Fld := ⟨0, 10⟩
def QE_EVT_EN : Nat := 0x1400024
def QE_CFG (n : Nat) : Nat := 0x1401000 + 0x40 * n
def QE_CFG_FN_M1 : Fld := ⟨6, 2⟩
def QE_CFG_SAFETY : Fld := ⟨5, 1⟩
def QE_CFG_ZPOL : Fld := ⟨4, 1⟩
def QE_CFG_ZEN : Fld := ⟨3, 1⟩
def QE_CFG_INV : Fld := ⟨2, 1⟩
def QE_CFG_SWAP : Fld := ⟨1, 1⟩
def QE_CFG_EN : Fld := ⟨0, 1⟩
def QE_COUNT (n : Nat) : Nat := 0x1401004 + 0x40 * n
def QE_SOFT_LO (n : Nat) : Nat := 0x1401008 + 0x40 * n
def QE_SOFT_HI (n : Nat) : Nat := 0x140100C + 0x40 * n
def QE_CPR (n : Nat) : Nat := 0x1401010 + 0x40 * n
def QE_IDXREF (n : Nat) : Nat := 0x1401018 + 0x40 * n
def QE_IDXLAT (n : Nat) : Nat := 0x140101C + 0x40 * n
def QE_IDXDEV (n : Nat) : Nat := 0x1401020 + 0x40 * n
def QE_SPEED (n : Nat) : Nat := 0x1401024 + 0x40 * n
def QE_IDXCFG (n : Nat) : Nat := 0x1401014 + 0x40 * n
def QE_IDXCFG_REFV : Fld := ⟨18, 1⟩
def QE_IDXCFG_CAPT : Fld := ⟨17, 1⟩
def QE_IDXCFG_REREF : Fld := ⟨16, 1⟩
def QE_IDXCFG_W : Fld := ⟨0, 16⟩
def QE_SPCFG (n : Nat) : Nat := 0x1401028 + 0x40 * n
def QE_SPCFG_STILLT : Fld := ⟨16, 16⟩
def QE_SPCFG_SPW : Fld := ⟨0, 16⟩
def QE_STAT (n : Nat) : Nat := 0x140102C + 0x40 * n
def QE_STAT_WIREZ : Fld := ⟨7, 1⟩
def QE_STAT_WIREB : Fld := ⟨6, 1⟩
def QE_STAT_WIREA : Fld := ⟨5, 1⟩
def QE_STAT_SATHI : Fld := ⟨4, 1⟩
def QE_STAT_SATLO : Fld := ⟨3, 1⟩
def QE_STAT_VALID : Fld := ⟨2, 1⟩
def QE_STAT_STILL : Fld := ⟨1, 1⟩
def QE_STAT_DIR : Fld := ⟨0, 1⟩
def QE_FLAG (n : Nat) : Nat := 0x1401030 + 0x40 * n
def QE_FLAG_IDX_LASTING : Fld := ⟨7, 1⟩
def QE_FLAG_ILL_LASTING : Fld := ⟨6, 1⟩
def QE_FLAG_REVERSE : Fld := ⟨5, 1⟩
def QE_FLAG_STILL_ON : Fld := ⟨4, 1⟩
def QE_FLAG_SAT : Fld := ⟨3, 1⟩
def QE_FLAG_IDXMM : Fld := ⟨2, 1⟩
def QE_FLAG_WIRE : Fld := ⟨1, 1⟩
def QE_FLAG_ILLEGAL : Fld := ⟨0, 1⟩

/-! ### Registers of LE -/

def LE_CTRL : Nat := 0x1500000
def LE_CTRL_FRAME : Fld := ⟨16, 13⟩
def LE_CTRL_EN : Fld := ⟨0, 1⟩
def LE_FRAME : Nat := 0x1500004
def LE_EVT : Nat := 0x1500020
def LE_EVT_TRACE_DONE : Fld := ⟨4, 1⟩
def LE_EVT_TRIGGERED : Fld := ⟨3, 1⟩
def LE_EVT_LASTING : Fld := ⟨2, 1⟩
def LE_EVT_PLAUS : Fld := ⟨1, 1⟩
def LE_EVT_REFUSED : Fld := ⟨0, 1⟩
def LE_EVT_EN : Nat := 0x1500024
def LE_CNT (n : Nat) : Nat := 0x1500040 + 0x4 * n
def LP_CFG (n : Nat) : Nat := 0x1501000 + 0x40 * n
def LP_CFG_EN : Fld := ⟨31, 1⟩
def LP_CFG_SAFETY : Fld := ⟨30, 1⟩
def LP_CFG_PRELOAD : Fld := ⟨29, 1⟩
def LP_CFG_QFOLLOW : Fld := ⟨28, 1⟩
def LP_CFG_DIV_M1 : Fld := ⟨20, 8⟩
def LP_CFG_PHASE : Fld := ⟨12, 8⟩
def LP_CFG_NSEC_M1 : Fld := ⟨8, 4⟩
def LP_CFG_FIRST : Fld := ⟨0, 8⟩
def LP_SRC (n : Nat) : Nat := 0x1501004 + 0x40 * n
def LP_SRC_KB : Fld := ⟨24, 8⟩
def LP_SRC_IB : Fld := ⟨16, 8⟩
def LP_SRC_KA : Fld := ⟨8, 8⟩
def LP_SRC_IA : Fld := ⟨0, 8⟩
def LP_CONST (n : Nat) : Nat := 0x1501008 + 0x40 * n
def LP_OMIN (n : Nat) : Nat := 0x150100C + 0x40 * n
def LP_OMAX (n : Nat) : Nat := 0x1501010 + 0x40 * n
def LP_OUT (n : Nat) : Nat := 0x1501014 + 0x40 * n
def LP_U (n : Nat) : Nat := 0x1501018 + 0x40 * n
def LP_RMAX (n : Nat) : Nat := 0x150101C + 0x40 * n
def LP_Q_F (n : Nat) : Nat := 0x1501028 + 0x40 * n
def LP_Q_LO (n : Nat) : Nat := 0x150102C + 0x40 * n
def LP_Q_HI (n : Nat) : Nat := 0x1501030 + 0x40 * n
def LP_CHK (n : Nat) : Nat := 0x1501020 + 0x40 * n
def LP_CHK_NBAD : Fld := ⟨24, 8⟩
def LP_CHK_PCNT : Fld := ⟨16, 8⟩
def LP_CHK_PWIN : Fld := ⟨8, 8⟩
def LP_CHK_MSEL : Fld := ⟨7, 1⟩
def LP_CHK_MLOOP : Fld := ⟨0, 5⟩
def LP_FLAG (n : Nat) : Nat := 0x1501024 + 0x40 * n
def LP_FLAG_REFUSED : Fld := ⟨4, 1⟩
def LP_FLAG_LASTING : Fld := ⟨3, 1⟩
def LP_FLAG_PLAUS : Fld := ⟨2, 1⟩
def LP_FLAG_CLAMP : Fld := ⟨1, 1⟩
def LP_FLAG_SAT : Fld := ⟨0, 1⟩
def TR_CFG (n : Nat) : Nat := 0x1502000 + 0x10 * n
def TR_CFG_EN : Fld := ⟨31, 1⟩
def TR_CFG_LOOP : Fld := ⟨24, 5⟩
def TR_CFG_SIG : Fld := ⟨20, 3⟩
def TR_CFG_SEC : Fld := ⟨16, 4⟩
def TR_CFG_TDIV_M1 : Fld := ⟨8, 8⟩
def TR_STAT (n : Nat) : Nat := 0x1502004 + 0x10 * n
def TR_STAT_DONE : Fld := ⟨31, 1⟩
def TR_STAT_WRAP : Fld := ⟨30, 1⟩
def TR_STAT_TIDX : Fld := ⟨16, 14⟩
def TR_STAT_WPTR : Fld := ⟨0, 14⟩
def LE_TRIG : Nat := 0x1502100
def LE_TRIG_ARM : Fld := ⟨31, 1⟩
def LE_TRIG_FORCE : Fld := ⟨30, 1⟩
def LE_TRIG_COND : Fld := ⟨28, 2⟩
def LE_TRIG_CH : Fld := ⟨24, 4⟩
def LE_TRIG_POST : Fld := ⟨0, 14⟩
def LE_TRIG_LVL : Nat := 0x1502104

/-! ### Registers of TB -/

def TB_INC_FRAC : Nat := 0x1600000
def TB_INC_NS : Nat := 0x1600004
def TB_INC_NS_NS : Fld := ⟨0, 8⟩
def TB_NOW_FRAC : Nat := 0x1600008
def TB_NOW_NS : Nat := 0x160000C
def TB_NOW_SLO : Nat := 0x1600010
def TB_NOW_SHI : Nat := 0x1600014
def TB_NOW_SHI_VALUE : Fld := ⟨0, 16⟩
def TB_FLAT_LO : Nat := 0x1600018
def TB_FLAT_HI : Nat := 0x160001C
def TB_EVT : Nat := 0x1600020
def TB_EVT_MISSED : Fld := ⟨6, 1⟩
def TB_EVT_CMP : Fld := ⟨2, 4⟩
def TB_EVT_XS : Fld := ⟨1, 1⟩
def TB_EVT_STEP : Fld := ⟨0, 1⟩
def TB_EVT_EN : Nat := 0x1600024
def TB_SET_NS : Nat := 0x1600030
def TB_SET_SLO : Nat := 0x1600034
def TB_SET_SHI : Nat := 0x1600038
def TB_SET_SHI_VALUE : Fld := ⟨0, 16⟩
def TB_ADJ_LO : Nat := 0x1600040
def TB_ADJ_HI : Nat := 0x1600044
def TB_XS_CMD : Nat := 0x1600050
def TB_XS_CMD_GO : Fld := ⟨0, 1⟩
def TB_XS_STAT : Nat := 0x1600054
def TB_XS_STAT_SEQ : Fld := ⟨2, 30⟩
def TB_XS_STAT_CAUSE : Fld := ⟨0, 2⟩
def TB_XS_FRAC : Nat := 0x1600058
def TB_XS_FLAT_LO : Nat := 0x160005C
def TB_XS_FLAT_HI : Nat := 0x1600060
def TB_XS_CYC (n : Nat) : Nat := 0x1600070 + 0x4 * n
def TB_CMP_LO (n : Nat) : Nat := 0x1600100 + 0x10 * n
def TB_CMP_HI (n : Nat) : Nat := 0x1600104 + 0x10 * n
def TB_CMP_CTL (n : Nat) : Nat := 0x1600108 + 0x10 * n
def TB_CMP_CTL_EN : Fld := ⟨0, 1⟩
def TP_CFG (n : Nat) : Nat := 0x1601000 + 0x20 * n
def TP_CFG_EN : Fld := ⟨31, 1⟩
def TP_CFG_MODE : Fld := ⟨30, 1⟩
def TP_CFG_POL : Fld := ⟨29, 1⟩
def TP_CFG_MISSED : Fld := ⟨1, 1⟩
def TP_CFG_ACTIVE : Fld := ⟨0, 1⟩
def TP_START_LO (n : Nat) : Nat := 0x1601004 + 0x20 * n
def TP_START_HI (n : Nat) : Nat := 0x1601008 + 0x20 * n
def TP_PER_NS (n : Nat) : Nat := 0x160100C + 0x20 * n
def TP_PER_FRAC (n : Nat) : Nat := 0x1601010 + 0x20 * n
def TP_WIDTH (n : Nat) : Nat := 0x1601014 + 0x20 * n

/-! ### Registers of EN -/

def EN_EVT : Nat := 0x1700020
def EN_EVT_RX0 : Fld := ⟨0, 1⟩
def EN_EVT_TX0 : Fld := ⟨1, 1⟩
def EN_EVT_RXTS0 : Fld := ⟨2, 1⟩
def EN_EVT_TXTS0 : Fld := ⟨3, 1⟩
def EN_EVT_LINK0 : Fld := ⟨4, 1⟩
def EN_EVT_RX1 : Fld := ⟨8, 1⟩
def EN_EVT_TX1 : Fld := ⟨9, 1⟩
def EN_EVT_RXTS1 : Fld := ⟨10, 1⟩
def EN_EVT_TXTS1 : Fld := ⟨11, 1⟩
def EN_EVT_LINK1 : Fld := ⟨12, 1⟩
def EN_EVT_EN : Nat := 0x1700024
def EN_CFG (n : Nat) : Nat := 0x1701000 + 0x100 * n
def EN_CFG_MAXLEN : Fld := ⟨16, 16⟩
def EN_CFG_ANEG : Fld := ⟨3, 1⟩
def EN_CFG_MODE : Fld := ⟨1, 2⟩
def EN_CFG_EN : Fld := ⟨0, 1⟩
def EN_MAC_LO (n : Nat) : Nat := 0x1701004 + 0x100 * n
def EN_MAC_HI (n : Nat) : Nat := 0x1701008 + 0x100 * n
def EN_MAC_HI_VALUE : Fld := ⟨0, 16⟩
def EN_TXADJ (n : Nat) : Nat := 0x170100C + 0x100 * n
def EN_RX_BASE (n : Nat) : Nat := 0x1701010 + 0x100 * n
def EN_RX_BASE_VALUE : Fld := ⟨4, 28⟩
def EN_RX_CNT (n : Nat) : Nat := 0x1701014 + 0x100 * n
def EN_RX_HEAD (n : Nat) : Nat := 0x1701018 + 0x100 * n
def EN_RX_TAIL (n : Nat) : Nat := 0x170101C + 0x100 * n
def EN_TX_BASE (n : Nat) : Nat := 0x1701020 + 0x100 * n
def EN_TX_BASE_VALUE : Fld := ⟨4, 28⟩
def EN_TX_CNT (n : Nat) : Nat := 0x1701024 + 0x100 * n
def EN_TX_HEAD (n : Nat) : Nat := 0x1701028 + 0x100 * n
def EN_TX_TAIL (n : Nat) : Nat := 0x170102C + 0x100 * n
def EN_STAT (n : Nat) : Nat := 0x1701030 + 0x100 * n
def EN_STAT_LINK : Fld := ⟨0, 1⟩
def EN_TSI (n : Nat) : Nat := 0x1701034 + 0x100 * n
def EN_TSI_TXPH : Fld := ⟨28, 4⟩
def EN_TSI_TXIDX : Fld := ⟨16, 12⟩
def EN_TSI_RXPH : Fld := ⟨12, 4⟩
def EN_TSI_RXIDX : Fld := ⟨0, 12⟩
def EN_CNT (n k : Nat) : Nat := 0x1701040 + 0x100 * n + 0x4 * k

/-! ### Registers of ST -/

def ST_CTRL : Nat := 0x1800000
def ST_CTRL_AUTO_HI : Fld := ⟨5, 5⟩
def ST_CTRL_AUTO_LO : Fld := ⟨0, 4⟩
def ST_CMD : Nat := 0x1800004
def ST_CMD_U : Fld := ⟨16, 9⟩
def ST_CMD_OP : Fld := ⟨0, 3⟩
def ST_ARG_LO : Nat := 0x1800008
def ST_ARG_LO_ADDR : Fld := ⟨6, 26⟩
def ST_ARG_HI : Nat := 0x180000C
def ST_ARG_HI_ADDR : Fld := ⟨0, 16⟩
def ST_STAT : Nat := 0x1800010
def ST_STAT_BUSY : Fld := ⟨31, 1⟩
def ST_STAT_RESULT : Fld := ⟨24, 3⟩
def ST_STAT_U : Fld := ⟨0, 9⟩
def ST_EVT : Nat := 0x1800020
def ST_EVT_ABANDON : Fld := ⟨4, 1⟩
def ST_EVT_CMD_DONE : Fld := ⟨3, 1⟩
def ST_EVT_RETURNED : Fld := ⟨2, 1⟩
def ST_EVT_RETIRED : Fld := ⟨1, 1⟩
def ST_EVT_TEST_FAIL : Fld := ⟨0, 1⟩
def ST_EVT_EN : Nat := 0x1800024
def ST_CNT (n : Nat) : Nat := 0x1800040 + 0x4 * n
def ST_PER (n : Nat) : Nat := 0x1800100 + 0x4 * n
def ST_USTAT (n : Nat) : Nat := 0x1801000 + 0x4 * n
def ST_USTAT_COUNT : Fld := ⟨16, 16⟩
def ST_USTAT_LAST : Fld := ⟨4, 2⟩
def ST_USTAT_FAILS : Fld := ⟨2, 2⟩
def ST_USTAT_STATE : Fld := ⟨0, 2⟩

/-! ### Registers of BOOT -/

def BOOT_STAT : Nat := 0x1A00000
def BOOT_STAT_SVNF : Fld := ⟨24, 8⟩
def BOOT_STAT_REASON : Fld := ⟨16, 4⟩
def BOOT_STAT_SLOT : Fld := ⟨12, 2⟩
def BOOT_STAT_KEY : Fld := ⟨8, 1⟩
def BOOT_STAT_PHASE : Fld := ⟨0, 4⟩
def BOOT_VCMD : Nat := 0x1A00010
def BOOT_VCMD_OP : Fld := ⟨1, 2⟩
def BOOT_VCMD_GO : Fld := ⟨0, 1⟩
def BOOT_VADDR_LO : Nat := 0x1A00014
def BOOT_VADDR_LO_ADDR : Fld := ⟨6, 26⟩
def BOOT_VADDR_HI : Nat := 0x1A00018
def BOOT_VADDR_HI_ADDR : Fld := ⟨0, 16⟩
def BOOT_VSTAT : Nat := 0x1A0001C
def BOOT_VSTAT_REASON : Fld := ⟨8, 4⟩
def BOOT_VSTAT_RESULT : Fld := ⟨1, 3⟩
def BOOT_VSTAT_BUSY : Fld := ⟨0, 1⟩
def BOOT_CCIMG_LO : Nat := 0x1A00020
def BOOT_CCIMG_HI : Nat := 0x1A00024
def BOOT_CCIMG_HI_ADDR : Fld := ⟨0, 16⟩
def BOOT_SVN_ADV : Nat := 0x1A00030
def BOOT_SVN_ADV_ADV : Fld := ⟨0, 1⟩

/-! ### The map, block by block -/

/-- The registers of block TOP. -/
def topRegs : List RegDef :=
  [ ⟨"TOP_ID", 0x0, [], 0x0, 0x0, 0x0, 0xFFFFFF00, 0xB262B000⟩,
    ⟨"TOP_VENDOR", 0x4, [], 0x0, 0x0, 0x0, 0xFFFFFFFF, 0xB2621F3A⟩,
    ⟨"TOP_SERIAL_LO", 0x8, [], 0x0, 0x0, 0x0, 0xFFFFFFFF, 0x0⟩,
    ⟨"TOP_SERIAL_HI", 0xC, [], 0x0, 0x0, 0x0, 0xFFFFFFFF, 0x0⟩,
    ⟨"TOP_STAT", 0x10, [], 0x0, 0x0, 0x0, 0x71F, 0x0⟩,
    ⟨"SEM", 0x400, [(0x4, 64)], 0x0, 0x0, 0x0, 0x8000000F, 0xF⟩,
    ⟨"SEM_REL", 0x500, [], 0x0, 0x0, 0x0, 0x0, 0x0⟩,
    ⟨"SEM_FORCE", 0x504, [], 0x0, 0x0, 0x0, 0x0, 0x0⟩,
    ⟨"SEM_HELD0", 0x508, [], 0x0, 0x0, 0x0, 0xFFFFFFFF, 0x0⟩,
    ⟨"SEM_HELD1", 0x50C, [], 0x0, 0x0, 0x0, 0xFFFFFFFF, 0x0⟩,
    ⟨"EVT_PEND_BLK", 0x800, [], 0x0, 0x0, 0x0, 0x7FFFFFF, 0x0⟩,
    ⟨"EVT_ROUTE", 0x1000, [(0x4, 864)], 0x80FF0F3F, 0x0, 0x0, 0x0, 0x0⟩ ]

/-- The registers of block CK. -/
def ckRegs : List RegDef :=
  [ ⟨"CK_CLK", 0x100000, [], 0x0, 0x0, 0x0, 0x3F, 0x30⟩,
    ⟨"CK_SUP", 0x100004, [], 0x0, 0x0, 0x0, 0xF, 0x0⟩,
    ⟨"CK_EVT", 0x100020, [], 0x0, 0x0, 0x7F, 0x0, 0x0⟩,
    ⟨"CK_EVT_EN", 0x100024, [], 0x7F, 0x0, 0x0, 0x0, 0x0⟩,
    ⟨"CK_DOM", 0x100100, [(0x4, 3)], 0xF0003, 0x0, 0x0, 0x300, 0x0⟩,
    ⟨"CK_SYSRST", 0x100200, [], 0x0, 0x0, 0x0, 0x0, 0x0⟩ ]

/-- The registers of block SI. -/
def siRegs : List RegDef :=
  [ ⟨"SI_STAT", 0x200000, [], 0x0, 0x0, 0x0, 0x3FF, 0x200⟩,
    ⟨"SI_EVT", 0x200020, [], 0x0, 0x0, 0x7F, 0x0, 0x0⟩,
    ⟨"SI_EVT_EN", 0x200024, [], 0x7F, 0x0, 0x0, 0x0, 0x0⟩,
    ⟨"SI_CNT", 0x200040, [(0x4, 4)], 0xFFFFFFFF, 0x0, 0x0, 0x0, 0x0⟩,
    ⟨"SI_FR_BASE_LO", 0x200080, [], 0xFFFFFFE0, 0x0, 0x0, 0x0, 0x0⟩,
    ⟨"SI_FR_BASE_HI", 0x200084, [], 0xFFFF, 0x0, 0x0, 0x0, 0x0⟩,
    ⟨"SI_FR_SIZE", 0x200088, [], 0xFFFFFFE0, 0x0, 0x0, 0x0, 0x0⟩,
    ⟨"SI_FR_WPTR", 0x20008C, [], 0x0, 0x0, 0x0, 0xFFFFFFE0, 0x0⟩,
    ⟨"SI_FR_RPTR", 0x200090, [], 0xFFFFFFE0, 0x0, 0x0, 0x0, 0x0⟩,
    ⟨"SI_SAFE_REL", 0x200100, [], 0x0, 0x0, 0x0, 0x0, 0x0⟩,
    ⟨"SI_CAUSE", 0x200104, [], 0x0, 0x0, 0x0, 0xFFFFFF, 0x0⟩,
    ⟨"SI_CFG", 0x200108, [], 0x0, 0xFF00FF, 0x0, 0x0, 0x64000A⟩,
    ⟨"SI_PAIR", 0x20010C, [], 0x0, 0xFF, 0x0, 0x0, 0x0⟩,
    ⟨"SI_AXACT", 0x200110, [], 0x0, 0xFFFF, 0x0, 0x0, 0x5555⟩,
    ⟨"SI_HUBPERM", 0x200114, [], 0x0, 0x0, 0x0, 0xFFFF, 0x0⟩,
    ⟨"SI_ENB", 0x200118, [], 0x0, 0x0, 0x0, 0x0, 0x0⟩,
    ⟨"SI_WDG", 0x20011C, [], 0x0, 0x0, 0x0, 0x0, 0x0⟩,
    ⟨"SI_HBEN", 0x200200, [], 0xF, 0x0, 0x0, 0x0, 0x0⟩,
    ⟨"SI_HB", 0x200210, [(0x4, 4)], 0xFFFFFFFF, 0x0, 0x0, 0x0, 0x0⟩,
    ⟨"SI_LATENT", 0x200300, [], 0x0, 0x0, 0x0, 0xF1, 0x0⟩ ]

/-- The registers of block PROT. -/
def protRegs : List RegDef :=
  [ ⟨"PROT_LOCK", 0x300000, [], 0x0, 0x1, 0x0, 0x0, 0x0⟩,
    ⟨"PROT_FIRE", 0x300010, [], 0x0, 0xFFFFFFFF, 0x0, 0x0, 0x0⟩,
    ⟨"PROT_CRC", 0x300014, [], 0x0, 0x0, 0x0, 0xFFFFFFFF, 0x0⟩,
    ⟨"PROT_REGION0", 0x301000, [(0x10, 32)], 0x0, 0xFFFFFFC0, 0x0, 0x0, 0x0⟩,
    ⟨"PROT_REGION1", 0x301004, [(0x10, 32)], 0x0, 0xFFFFFFFF, 0x0, 0x0, 0x0⟩,
    ⟨"PROT_REGION2", 0x301008, [(0x10, 32)], 0x0, 0xFFFFFFC0, 0x0, 0x0, 0x0⟩,
    ⟨"PROT_REGION3", 0x30100C, [(0x10, 32)], 0x0, 0x8000FFFF, 0x0, 0x0, 0x0⟩ ]

/-- The registers of block ADM. -/
def admRegs : List RegDef :=
  [ ⟨"JOB_BASE_LO", 0x400000, [(0x40, 2)], 0xFFFFFFC0, 0x0, 0x0, 0x0, 0x0⟩,
    ⟨"JOB_BASE_HI", 0x400004, [(0x40, 2)], 0xFFFF, 0x0, 0x0, 0x0, 0x0⟩,
    ⟨"SLOT_CMD", 0x400008, [(0x40, 2)], 0x0, 0x0, 0x0, 0x0, 0x0⟩,
    ⟨"ADM_SLOT_STAT", 0x40000C, [(0x40, 2)], 0x0, 0x0, 0x0, 0x3FF0F, 0x30000⟩,
    ⟨"ADM_RATE", 0x400010, [(0x40, 2)], 0x0, 0x0, 0x0, 0xFFFFFFFF, 0x0⟩,
    ⟨"ADM_MARGIN", 0x400014, [(0x40, 2)], 0x0, 0x0, 0x0, 0xFFFF, 0x0⟩,
    ⟨"ADM_WORST", 0x400018, [(0x40, 2)], 0x0, 0x0, 0x0, 0xFFFFFFFF, 0x0⟩,
    ⟨"GO_LN_LO", 0x400100, [], 0xFFFFFFFF, 0x0, 0x0, 0x0, 0x0⟩,
    ⟨"GO_LN_HI", 0x400104, [], 0xFFFFFFFF, 0x0, 0x0, 0x0, 0x0⟩,
    ⟨"ADM_CAP", 0x400110, [], 0x0, 0x0, 0x0, 0xFF, 0x0⟩,
    ⟨"ADM_EVT", 0x400120, [], 0x0, 0x0, 0xFF, 0x0, 0x0⟩,
    ⟨"ADM_EVT_EN", 0x400124, [], 0xFF, 0x0, 0x0, 0x0, 0x0⟩,
    ⟨"ADM_CNT", 0x400140, [(0x4, 4)], 0xFFFFFFFF, 0x0, 0x0, 0x0, 0x0⟩,
    ⟨"VS_OLDEST", 0x400900, [], 0x0, 0x0, 0x0, 0xFFFFFFFF, 0x0⟩ ]

/-- The registers of block DS. -/
def dsRegs : List RegDef :=
  [ ⟨"DS_CTRL", 0x700000, [], 0x1F01, 0x0, 0x0, 0x2, 0x600⟩,
    ⟨"DS_SLEW", 0x700004, [], 0xFFFFFFFF, 0x0, 0x0, 0x0, 0x100010⟩,
    ⟨"DS_EPOCH_CMD", 0x700010, [], 0x0, 0x0, 0x0, 0x0, 0x0⟩,
    ⟨"DS_EPOCH_LN_LO", 0x700014, [], 0xFFFFFFFF, 0x0, 0x0, 0x0, 0x0⟩,
    ⟨"DS_EPOCH_LN_HI", 0x700018, [], 0xFFFFFFFF, 0x0, 0x0, 0x0, 0x0⟩,
    ⟨"DS_EPOCH_STAT", 0x70001C, [], 0x0, 0x0, 0x0, 0xF, 0x0⟩,
    ⟨"DS_EVT", 0x700020, [], 0x0, 0x0, 0x3F, 0x0, 0x0⟩,
    ⟨"DS_EVT_EN", 0x700024, [], 0x3F, 0x0, 0x0, 0x0, 0x0⟩,
    ⟨"DS_CNT", 0x700040, [(0x4, 4)], 0xFFFFFFFF, 0x0, 0x0, 0x0, 0x0⟩,
    ⟨"PLANE_MSEL", 0x700100, [(0x4, 8)], 0x7, 0x0, 0x0, 0x70, 0x0⟩,
    ⟨"SLOT_CFG", 0x701000, [(0x10, 64)], 0xFFFF0F, 0x0, 0x0, 0x0, 0x0⟩,
    ⟨"SLOT_OFS", 0x701004, [(0x10, 64)], 0xFFFFFF, 0x0, 0x0, 0x0, 0x0⟩,
    ⟨"DS_SLOT_STAT", 0x701008, [(0x10, 64)], 0x0, 0x0, 0x0, 0x3FFFFFF, 0x0⟩ ]

/-- The registers of block LC. -/
def lcRegs : List RegDef :=
  [ ⟨"LC_CTRL", 0x800000, [], 0xFC0F07, 0x0, 0x0, 0x0, 0x0⟩,
    ⟨"LC_RATIO_F", 0x800004, [], 0xFFFFFFFF, 0x0, 0x0, 0x0, 0x0⟩,
    ⟨"LC_RATIO_I", 0x800008, [], 0xFF, 0x0, 0x0, 0x0, 0x0⟩,
    ⟨"LC_POS_F", 0x800010, [], 0x0, 0x0, 0x0, 0xFFFFFFFF, 0x0⟩,
    ⟨"LC_POS_LO", 0x800014, [], 0x0, 0x0, 0x0, 0xFFFFFFFF, 0x0⟩,
    ⟨"LC_POS_HI", 0x800018, [], 0x0, 0x0, 0x0, 0xFFFFFFFF, 0x0⟩,
    ⟨"LC_HWM_LO", 0x800020, [], 0x0, 0x0, 0x0, 0xFFFFFFFF, 0xFFFFFFFF⟩,
    ⟨"LC_HWM_HI", 0x800024, [], 0x0, 0x0, 0x0, 0xFFFFFFFF, 0xFFFFFFFF⟩,
    ⟨"LC_SET_LO", 0x800028, [], 0xFFFFFFFF, 0x0, 0x0, 0x0, 0x0⟩,
    ⟨"LC_SET_HI", 0x80002C, [], 0xFFFFFFFF, 0x0, 0x0, 0x0, 0x0⟩,
    ⟨"LC_TMIN", 0x800030, [], 0xFFFFFF, 0x0, 0x0, 0x0, 0x0⟩,
    ⟨"LC_TADM", 0x800034, [], 0x0, 0x0, 0x0, 0xFFFFFF, 0x0⟩,
    ⟨"LC_PER", 0x800038, [], 0x0, 0x0, 0x0, 0xFFFFFF, 0xFFFFFF⟩,
    ⟨"LC_RUNUP", 0x800040, [], 0xFFFFFF, 0x0, 0x0, 0x0, 0x0⟩,
    ⟨"LC_STAT", 0x800048, [], 0x0, 0x0, 0x0, 0x7F, 0x0⟩,
    ⟨"LC_EVT", 0x800050, [], 0x0, 0x0, 0x3FF, 0x0, 0x0⟩,
    ⟨"LC_EVT_EN", 0x800054, [], 0x3FF, 0x0, 0x0, 0x0, 0x0⟩,
    ⟨"LC_CNT", 0x800060, [(0x4, 6)], 0xFFFFFFFF, 0x0, 0x0, 0x0, 0x0⟩,
    ⟨"PROD_CFG", 0x800100, [(0x4, 8)], 0xFF00F3, 0x0, 0x0, 0x0, 0x10030⟩,
    ⟨"PREP_LEN", 0x800140, [], 0xFFFFFF, 0x0, 0x0, 0x0, 0x0⟩ ] ++
  [ ⟨"PREP_AHEAD", 0x800144, [], 0xFFFFFF, 0x0, 0x0, 0x0, 0x0⟩,
    ⟨"PREP_ORG_LO", 0x800148, [], 0xFFFFFFFF, 0x0, 0x0, 0x0, 0x0⟩,
    ⟨"PREP_ORG_HI", 0x80014C, [], 0xFFFFFFFF, 0x0, 0x0, 0x0, 0x0⟩,
    ⟨"PQ_STAT", 0x800180, [], 0x0, 0x0, 0x0, 0xFFF, 0x0⟩,
    ⟨"PQ_NUM", 0x800184, [], 0x0, 0x0, 0x0, 0xFFFFFFFF, 0x0⟩,
    ⟨"PQ_ORG_LO", 0x800188, [], 0x0, 0x0, 0x0, 0xFFFFFFFF, 0x0⟩,
    ⟨"PQ_ORG_HI", 0x80018C, [], 0x0, 0x0, 0x0, 0xFFFFFFFF, 0x0⟩,
    ⟨"PQ_POP", 0x800190, [], 0x0, 0x0, 0x0, 0x0, 0x0⟩,
    ⟨"CT_CFG", 0x800200, [(0x8, 12)], 0xFFFFFF01, 0x0, 0x0, 0x0, 0x64000000⟩,
    ⟨"CT_TIM", 0x800204, [(0x8, 12)], 0xFFFFFFFF, 0x0, 0x0, 0x0, 0x3E80000⟩ ]

/-- The registers of block FS. -/
def fsRegs : List RegDef :=
  [ ⟨"FS_CTRL", 0x900000, [], 0x1FF, 0x0, 0x0, 0x0, 0x96⟩,
    ⟨"FS_EVT", 0x900020, [], 0x0, 0x0, 0x7F, 0x0, 0x0⟩,
    ⟨"FS_EVT_EN", 0x900024, [], 0x7F, 0x0, 0x0, 0x0, 0x0⟩,
    ⟨"FS_CAL", 0x900030, [], 0x0, 0x0, 0x0, 0xFFFFFFF, 0x0⟩,
    ⟨"FS_HUB", 0x900040, [(0x4, 16)], 0xFF01, 0x0, 0x0, 0x0, 0x0⟩,
    ⟨"FS_HSTAT", 0x900080, [(0x4, 16)], 0x0, 0x0, 0x0, 0x7FF001F, 0x0⟩,
    ⟨"FS_SWMAX", 0x9000C0, [], 0x0, 0x1FF, 0x0, 0x0, 0xFA⟩,
    ⟨"FS_CUTCLR", 0x9000C4, [], 0x0, 0x0, 0x0, 0x0, 0x0⟩,
    ⟨"GATE_CFG", 0x900100, [(0x4, 16)], 0x0, 0xFFFF0007, 0x0, 0x0, 0x0⟩,
    ⟨"GATE_STAT", 0x900140, [], 0x0, 0x0, 0x0, 0x1FFFF, 0x0⟩,
    ⟨"HT_THR", 0x900200, [(0x8, 64)], 0xFFFFFFFF, 0x0, 0x0, 0x0, 0x7FFF7FFF⟩,
    ⟨"HT_HYS", 0x900204, [(0x8, 64)], 0xFFFF, 0x0, 0x0, 0x0, 0x50⟩,
    ⟨"HT_STAT", 0x900400, [(0x4, 64)], 0x0, 0x0, 0x0, 0x3FFFF, 0x8000⟩ ]

/-- The registers of block DL. -/
def dlRegs : List RegDef :=
  [ ⟨"DL_CTRL", 0xA00000, [], 0xFF, 0x0, 0x0, 0x0, 0x64⟩,
    ⟨"DL_EVT", 0xA00020, [], 0x0, 0x0, 0x3F, 0x0, 0x0⟩,
    ⟨"DL_EVT_EN", 0xA00024, [], 0x3F, 0x0, 0x0, 0x0, 0x0⟩,
    ⟨"DL_CNT", 0xA00040, [(0x4, 4)], 0xFFFFFFFF, 0x0, 0x0, 0x0, 0x0⟩,
    ⟨"DL_LANE_CFG", 0xA00100, [(0x4, 32)], 0x7, 0x0, 0x0, 0x0, 0x6⟩,
    ⟨"DL_LANE_STAT", 0xA00180, [(0x4, 32)], 0x0, 0x0, 0x0, 0x3FF, 0x0⟩,
    ⟨"DL_HUB_STAT", 0xA00200, [(0x4, 16)], 0x0, 0x0, 0x0, 0x7, 0x6⟩,
    ⟨"DL_HUB_CAP0", 0xA00240, [(0x8, 16)], 0x0, 0x0, 0x0, 0xFFFFFFFF, 0x0⟩,
    ⟨"DL_HUB_CAP1", 0xA00244, [(0x8, 16)], 0x0, 0x0, 0x0, 0x3FFFFFF, 0x0⟩,
    ⟨"DL_HUB_STATUS", 0xA01000, [(0x40, 16), (0x4, 10)], 0x0, 0x0, 0x0, 0xFFFFFFFF, 0x0⟩,
    ⟨"DL_CFGW", 0xA00300, [(0x10, 16)], 0x0, 0x0, 0x0, 0x0, 0x0⟩,
    ⟨"DL_CFGW_ADDR", 0xA00304, [(0x10, 16)], 0xFFFFFFFF, 0x0, 0x0, 0x0, 0x0⟩,
    ⟨"DL_CFGW_DATA", 0xA00308, [(0x10, 16)], 0xFFFFFFFF, 0x0, 0x0, 0x0, 0x0⟩,
    ⟨"DL_CFGW_STAT", 0xA0030C, [(0x10, 16)], 0x0, 0x0, 0x0, 0x3, 0x0⟩ ]

/-- The registers of block CXR. -/
def cxrRegs : List RegDef :=
  [ ⟨"CXR_CHECK", 0xB00000, [], 0x0, 0x0, 0x0, 0x0, 0x0⟩,
    ⟨"CXR_RESULT", 0xB00004, [], 0x0, 0x0, 0x0, 0x13F0F, 0x0⟩,
    ⟨"CXR_LOAD", 0xB00010, [(0x4, 4)], 0x0, 0x0, 0x0, 0xFFFF, 0x0⟩,
    ⟨"CXR_EVT", 0xB00020, [], 0x0, 0x0, 0x1F, 0x0, 0x0⟩,
    ⟨"CXR_EVT_EN", 0xB00024, [], 0x1F, 0x0, 0x0, 0x0, 0x0⟩,
    ⟨"CAM_CFG", 0xB01000, [(0x40, 12)], 0x76F, 0x0, 0x0, 0x800, 0x0⟩,
    ⟨"CAM_GEOM", 0xB01004, [(0x40, 12)], 0xFFFF3FFF, 0x0, 0x0, 0x0, 0x0⟩,
    ⟨"CAM_LAT", 0xB01008, [(0x40, 12)], 0xFFFFFFFF, 0x0, 0x0, 0x0, 0x0⟩,
    ⟨"CAM_STAT", 0xB0100C, [(0x40, 12)], 0x0, 0x0, 0x0, 0xFFFF1F77, 0x0⟩,
    ⟨"CAM_CNT", 0xB01010, [(0x40, 12), (0x4, 8)], 0xFFFFFFFF, 0x0, 0x0, 0x0, 0x0⟩,
    ⟨"MBX_CMD", 0xB10000, [(0x200, 12)], 0xFF01FF02, 0x0, 0x0, 0x0, 0xC8000400⟩,
    ⟨"MBX_ADDR", 0xB10004, [(0x200, 12)], 0xFFFFFFFF, 0x0, 0x0, 0x0, 0x0⟩,
    ⟨"MBX_STAT", 0xB10008, [(0x200, 12)], 0x0, 0x0, 0x0, 0xFF1D, 0x0⟩,
    ⟨"MBX_DATA", 0xB10100, [(0x200, 12), (0x4, 64)], 0xFFFFFFFF, 0x0, 0x0, 0x0, 0x0⟩ ]

/-- The registers of block IP. -/
def ipRegs : List RegDef :=
  [ ⟨"IP_EVT", 0xC00020, [], 0x0, 0x0, 0x1F, 0x0, 0x0⟩,
    ⟨"IP_EVT_EN", 0xC00024, [], 0x1F, 0x0, 0x0, 0x0, 0x0⟩,
    ⟨"IP_CNT", 0xC00040, [(0x4, 4)], 0xFFFFFFFF, 0x0, 0x0, 0x0, 0x0⟩,
    ⟨"IP_PIPE", 0xC00080, [], 0x1, 0x0, 0x0, 0xF300, 0x0⟩,
    ⟨"IP_PIPE", 0xC00084, [], 0x1, 0x0, 0x0, 0xF300, 0x0⟩,
    ⟨"IP_PIPE", 0xC00088, [], 0x1, 0x0, 0x0, 0xF300, 0x0⟩,
    ⟨"IP_PIPE", 0xC0008C, [], 0x1, 0x0, 0x0, 0xF300, 0x1⟩,
    ⟨"CAL_CTRL", 0xC000C0, [(0x8, 4)], 0xFF30, 0x0, 0x0, 0x0, 0x0⟩,
    ⟨"CAL_STAT", 0xC000C4, [(0x8, 4)], 0x0, 0x0, 0x0, 0x1FFF0001, 0x0⟩,
    ⟨"IPC_CFG", 0xC01000, [(0x40, 12)], 0x373, 0x0, 0x0, 0x0, 0x10⟩,
    ⟨"PV_CROP", 0xC01004, [(0x40, 12)], 0x1FFF3FFF, 0x0, 0x0, 0x0, 0x0⟩,
    ⟨"PV_BASE_LO", 0xC01008, [(0x40, 12)], 0xFFFFFFC0, 0x0, 0x0, 0x0, 0x0⟩,
    ⟨"PV_BASE_HI", 0xC0100C, [(0x40, 12)], 0xFFFF, 0x0, 0x0, 0x0, 0x0⟩,
    ⟨"PV_SIZE", 0xC01010, [(0x40, 12)], 0xFFFFFFC0, 0x0, 0x0, 0x0, 0x0⟩,
    ⟨"PV_WPTR", 0xC01014, [(0x40, 12)], 0x0, 0x0, 0x0, 0xFFFFFFFF, 0x0⟩,
    ⟨"PV_SEQ", 0xC01018, [(0x40, 12)], 0x0, 0x0, 0x0, 0xFFFFFFFF, 0x0⟩,
    ⟨"ROI_CTRL", 0xC04000, [(0x400, 12), (0x40, 8)], 0xFFFFFFFF, 0x0, 0x0, 0x0, 0x0⟩,
    ⟨"ROI_START_LO", 0xC04004, [(0x400, 12), (0x40, 8)], 0xFFFFFFFF, 0x0, 0x0, 0x0, 0x0⟩,
    ⟨"ROI_START_HI", 0xC04008, [(0x400, 12), (0x40, 8)], 0xFFFFFFFF, 0x0, 0x0, 0x0, 0x0⟩,
    ⟨"ROI_LINES", 0xC0400C, [(0x400, 12), (0x40, 8)], 0xFFFF, 0x0, 0x0, 0x0, 0x0⟩ ] ++
  [ ⟨"ROI_PERIOD", 0xC04010, [(0x400, 12), (0x40, 8)], 0xFFFFFFFF, 0x0, 0x0, 0x0, 0x0⟩,
    ⟨"ROI_BASE_LO", 0xC04014, [(0x400, 12), (0x40, 8)], 0xFFFFFFC0, 0x0, 0x0, 0x0, 0x0⟩,
    ⟨"ROI_BASE_HI", 0xC04018, [(0x400, 12), (0x40, 8)], 0xFFFF, 0x0, 0x0, 0x0, 0x0⟩,
    ⟨"ROI_RING", 0xC0401C, [(0x400, 12), (0x40, 8)], 0xFFFFFF, 0x0, 0x0, 0x0, 0x0⟩,
    ⟨"ROI_STAT", 0xC04020, [(0x400, 12), (0x40, 8)], 0x0, 0x0, 0x0, 0xFFFF01FF, 0x0⟩ ]

/-- The registers of block VE. -/
def veRegs : List RegDef :=
  [ ⟨"VE_CTRL", 0xD00000, [], 0xFFFF0703, 0x0, 0x0, 0x0, 0x40C30102⟩,
    ⟨"VE_STAT", 0xD00004, [], 0x0, 0x0, 0x0, 0xF1, 0x0⟩,
    ⟨"VE_EVT", 0xD00020, [], 0x0, 0x0, 0x7F, 0x0, 0x0⟩,
    ⟨"VE_EVT_EN", 0xD00024, [], 0x7F, 0x0, 0x0, 0x0, 0x0⟩,
    ⟨"VE_CNT", 0xD00040, [(0x4, 8)], 0xFFFFFFFF, 0x0, 0x0, 0x0, 0x0⟩,
    ⟨"VE_BQ_BASE_LO", 0xD00080, [], 0xFFFFFFC0, 0x0, 0x0, 0x0, 0x0⟩,
    ⟨"VE_BQ_BASE_HI", 0xD00084, [], 0xFFFF, 0x0, 0x0, 0x0, 0x0⟩,
    ⟨"VE_ABUF_BASE_LO", 0xD00090, [], 0xFFFFFFC0, 0x0, 0x0, 0x0, 0x0⟩,
    ⟨"VE_ABUF_BASE_HI", 0xD00094, [], 0xFFFF, 0x0, 0x0, 0x0, 0x0⟩,
    ⟨"VE_REC_BASE_LO", 0xD000A0, [], 0xFFFFFFC0, 0x0, 0x0, 0x0, 0x0⟩,
    ⟨"VE_REC_BASE_HI", 0xD000A4, [], 0xFFFF, 0x0, 0x0, 0x0, 0x0⟩,
    ⟨"VE_BQ_DEPTH", 0xD00088, [], 0xFFFFF, 0x0, 0x0, 0x0, 0x0⟩,
    ⟨"VE_REC_SIZE", 0xD000A8, [], 0xFFFFFFC0, 0x0, 0x0, 0x0, 0x0⟩,
    ⟨"VE_REC_WPTR", 0xD000AC, [], 0x0, 0x0, 0x0, 0xFFFFFFC0, 0x0⟩,
    ⟨"VE_REC_RPTR", 0xD000B0, [], 0xFFFFFFC0, 0x0, 0x0, 0x0, 0x0⟩,
    ⟨"VE_GEOM", 0xD00100, [], 0xFFFF, 0x0, 0x0, 0x0, 0x8000⟩,
    ⟨"VE_WOFS", 0xD00104, [], 0x3FFFF, 0x0, 0x0, 0x0, 0x0⟩,
    ⟨"VE_MODEL", 0xD00108, [], 0xFFFF, 0x0, 0x0, 0x0, 0x4040⟩,
    ⟨"VE_DBASE", 0xD00110, [(0x4, 3)], 0xFFFF, 0x0, 0x0, 0x0, 0x0⟩,
    ⟨"VE_THR", 0xD00120, [(0x4, 3)], 0xFFFFFFFF, 0x0, 0x0, 0x0, 0xCCD0CCD⟩ ] ++
  [ ⟨"VE_SEG", 0xD00130, [], 0xFFFF, 0x0, 0x0, 0x0, 0x1⟩,
    ⟨"VE_HCFG", 0xD00134, [], 0xFFFFFFFF, 0x0, 0x0, 0x0, 0x10C0⟩,
    ⟨"VE_HSTAT", 0xD00138, [], 0x0, 0x0, 0x0, 0xFFFFFFFF, 0x0⟩,
    ⟨"VE_CAM_CFG", 0xD01000, [(0x40, 12)], 0x8003FFFF, 0x0, 0x0, 0x0, 0x0⟩,
    ⟨"VE_CAM_USE", 0xD01004, [(0x40, 12)], 0x3FFF3FFF, 0x0, 0x0, 0x0, 0x0⟩,
    ⟨"VE_CAM_COFS", 0xD01008, [(0x40, 12)], 0xFFFFFFFF, 0x0, 0x0, 0x0, 0x0⟩,
    ⟨"VE_CAM_TPX", 0xD01010, [(0x40, 12), (0x4, 4)], 0x8003FFFF, 0x0, 0x0, 0x0, 0x0⟩,
    ⟨"VE_CAM_DX", 0xD01020, [(0x40, 12)], 0xFFFF, 0x0, 0x0, 0xFFFF0000, 0x0⟩,
    ⟨"VE_CAM_DY", 0xD01024, [(0x40, 12)], 0xFFFF, 0x0, 0x0, 0xFFFF0000, 0x0⟩,
    ⟨"VE_CAM_TSTAT", 0xD01028, [(0x40, 12)], 0x0, 0x0, 0x0, 0x3FFFF, 0x0⟩,
    ⟨"VE_SPAN", 0xD02000, [(0x4, 64)], 0xFFFFFFFF, 0x0, 0x0, 0x0, 0x0⟩,
    ⟨"VE_MASK0", 0xD03000, [(0x10, 16)], 0xFFFFFFFF, 0x0, 0x0, 0x0, 0x0⟩,
    ⟨"VE_MASK1", 0xD03004, [(0x10, 16)], 0xFFFFFFFF, 0x0, 0x0, 0x0, 0x0⟩,
    ⟨"VE_MASK2", 0xD03008, [(0x10, 16)], 0xFFFFFFFF, 0x0, 0x0, 0x0, 0x0⟩,
    ⟨"VE_MASK3", 0xD0300C, [(0x10, 16)], 0x87, 0x0, 0x0, 0x0, 0x0⟩ ]

/-- The registers of block MC. -/
def mcRegs : List RegDef :=
  [ ⟨"MC_CFG", 0xF00000, [], 0xFFFC01, 0x0, 0x0, 0x0, 0x40000⟩,
    ⟨"MC_EVT", 0xF00020, [], 0x0, 0x0, 0x7F, 0x0, 0x0⟩,
    ⟨"MC_EVT_EN", 0xF00024, [], 0x7F, 0x0, 0x0, 0x0, 0x0⟩,
    ⟨"MC_CNT", 0xF00040, [(0x4, 6)], 0xFFFFFFFF, 0x0, 0x0, 0x0, 0x0⟩,
    ⟨"MC_SCHED0", 0xF00080, [], 0xFFFFFFFF, 0x0, 0x0, 0x0, 0xC807D0⟩,
    ⟨"MC_SCHED1", 0xF00084, [], 0xFFFF, 0x0, 0x0, 0x0, 0x2060⟩,
    ⟨"MC_PORT_CFG0", 0xF00100, [], 0xF0FFFF00, 0x0, 0x0, 0x1, 0xF0001000⟩,
    ⟨"MC_PORT_CFG1", 0xF00104, [(0x4, 3)], 0xF0FFFF00, 0x0, 0x0, 0x1, 0xF080C000⟩,
    ⟨"MC_PORT_CFG4", 0xF00110, [(0x4, 4)], 0xF0FF0000, 0x0, 0x0, 0xFF01, 0xF0800000⟩,
    ⟨"MC_FREQ_PT", 0xF00200, [(0x4, 4)], 0x3, 0x0, 0x0, 0x0, 0x0⟩,
    ⟨"MC_FREQ_CMD", 0xF00210, [], 0x3, 0x0, 0x0, 0x1F0, 0x0⟩,
    ⟨"MC_SR_CFG", 0xF00300, [], 0xFFFFFF03, 0x0, 0x0, 0x0, 0x18006400⟩,
    ⟨"MC_RK_STAT", 0xF01000, [(0x100, 8), (0x4, 4)], 0x0, 0x0, 0x0, 0xFFFF0F7C, 0xC00⟩,
    ⟨"MC_TRN_CMD", 0xF01020, [(0x100, 8)], 0xFFFFFF30, 0x0, 0x0, 0x0, 0x0⟩,
    ⟨"MC_TRN_STAT", 0xF01024, [(0x100, 8)], 0x0, 0x0, 0x0, 0xFFFFFF0D, 0x0⟩,
    ⟨"MC_MIG_CMD", 0xF01028, [(0x100, 8)], 0x0, 0x0, 0x0, 0x0, 0x0⟩,
    ⟨"MC_MIG_STAT", 0xF0102C, [(0x100, 8)], 0x0, 0x0, 0x0, 0xFF03, 0x0⟩,
    ⟨"MC_SB", 0xF01030, [(0x100, 8)], 0xFFFFC1F0, 0x0, 0x0, 0x6, 0x0⟩,
    ⟨"MC_DELAY", 0xF80000, [(0x10000, 8), (0x4000, 4), (0x1000, 4), (0x4, 116)], 0x1FF01FF, 0x0, 0x0, 0x0, 0x0⟩ ]

/-- The registers of block HI. -/
def hiRegs : List RegDef :=
  [ ⟨"HI_LINK_STAT", 0x1000000, [], 0x0, 0x0, 0x0, 0x1FF, 0x0⟩,
    ⟨"HI_EVT", 0x1000020, [], 0x0, 0x0, 0x7FFFFFF, 0x0, 0x0⟩,
    ⟨"HI_EVT_EN", 0x1000024, [], 0x7FFFFFF, 0x0, 0x0, 0x0, 0x0⟩,
    ⟨"HI_CNT", 0x1000040, [(0x4, 4)], 0xFFFFFFFF, 0x0, 0x0, 0x0, 0x0⟩,
    ⟨"HI_BAR4_BASE", 0x1000100, [], 0xFFF, 0x0, 0x0, 0x0, 0x0⟩,
    ⟨"HI_DB", 0x1000200, [(0x4, 16)], 0xFFFFFFFF, 0x0, 0x0, 0x0, 0x0⟩,
    ⟨"HI_SWEVT", 0x1000280, [], 0x0, 0x0, 0x0, 0x0, 0x0⟩,
    ⟨"MSIX_ADDR_LO", 0x1080000, [(0x10, 256)], 0xFFFFFFFC, 0x0, 0x0, 0x0, 0x0⟩,
    ⟨"MSIX_ADDR_HI", 0x1080004, [(0x10, 256)], 0xFFFFFFFF, 0x0, 0x0, 0x0, 0x0⟩,
    ⟨"MSIX_DATA", 0x1080008, [(0x10, 256)], 0xFFFFFFFF, 0x0, 0x0, 0x0, 0x0⟩,
    ⟨"MSIX_CTRL", 0x108000C, [(0x10, 256)], 0x1, 0x0, 0x0, 0x0, 0x1⟩,
    ⟨"MSIX_PBA", 0x1090000, [(0x4, 8)], 0x0, 0x0, 0x0, 0xFFFFFFFF, 0x0⟩ ]

/-- The registers of block DMA. -/
def dmaRegs : List RegDef :=
  [ ⟨"DMA_EVT", 0x1100020, [], 0x0, 0x0, 0xFFFFFFFF, 0x0, 0x0⟩,
    ⟨"DMA_EVT_EN", 0x1100024, [], 0xFFFFFFFF, 0x0, 0x0, 0x0, 0x0⟩,
    ⟨"CH_HEAD_LO", 0x1101000, [(0x40, 32)], 0xFFFFFFC0, 0x0, 0x0, 0x0, 0x0⟩,
    ⟨"CH_HEAD_HI", 0x1101004, [(0x40, 32)], 0xFFFF, 0x0, 0x0, 0x0, 0x0⟩,
    ⟨"CH_CTRL", 0x1101008, [(0x40, 32)], 0x0, 0x0, 0x0, 0x0, 0x0⟩,
    ⟨"CHAIN_POKE", 0x110100C, [(0x40, 32)], 0x0, 0x0, 0x0, 0x0, 0x0⟩,
    ⟨"CH_STAT", 0x1101010, [(0x40, 32)], 0x0, 0x0, 0x0, 0xFFFF007F, 0x0⟩,
    ⟨"CH_TAIL_LO", 0x1101014, [(0x40, 32)], 0x0, 0x0, 0x0, 0xFFFFFFFF, 0x0⟩,
    ⟨"CH_TAIL_HI", 0x1101018, [(0x40, 32)], 0x0, 0x0, 0x0, 0xFFFF, 0x0⟩ ]

/-- The registers of block CV. -/
def cvRegs : List RegDef :=
  [ ⟨"CV_EVT", 0x1200020, [], 0x0, 0x0, 0xFFFF, 0x0, 0x0⟩,
    ⟨"CV_EVT_EN", 0x1200024, [], 0xFFFF, 0x0, 0x0, 0x0, 0x0⟩,
    ⟨"CV_CFG", 0x1201000, [(0x100, 8)], 0x1F, 0x0, 0x0, 0x0, 0x0⟩,
    ⟨"CV_FRAME", 0x1201004, [(0x100, 8)], 0xFFFFFFFF, 0x0, 0x0, 0x0, 0x0⟩,
    ⟨"CV_START", 0x1201008, [(0x100, 8)], 0x0, 0x0, 0x0, 0x0, 0x0⟩,
    ⟨"CV_END", 0x120100C, [(0x100, 8)], 0x0, 0x0, 0x0, 0x0, 0x0⟩,
    ⟨"CV_DATA8", 0x1201010, [(0x100, 8)], 0x0, 0x0, 0x0, 0x0, 0x0⟩,
    ⟨"CV_DATA16", 0x1201014, [(0x100, 8)], 0x0, 0x0, 0x0, 0x0, 0x0⟩,
    ⟨"CV_DATA32", 0x1201018, [(0x100, 8)], 0x0, 0x0, 0x0, 0x0, 0x0⟩,
    ⟨"CV_VALUE", 0x120101C, [(0x100, 8)], 0xFFFFFFFF, 0x0, 0x0, 0x0, 0x0⟩,
    ⟨"CV_RESULT", 0x1201020, [(0x100, 8)], 0x0, 0x0, 0x0, 0xFFFFFFFF, 0x0⟩,
    ⟨"CV_EXPECT", 0x1201024, [(0x100, 8)], 0xFFFFFFFF, 0x0, 0x0, 0x0, 0x0⟩,
    ⟨"CV_STAT", 0x1201028, [(0x100, 8)], 0xFFFFFF, 0x0, 0x0, 0xF000000, 0x0⟩ ]

/-- The registers of block MX. -/
def mxRegs : List RegDef :=
  [ ⟨"MX_EVT", 0x1300020, [], 0x0, 0x0, 0xFF, 0x0, 0x0⟩,
    ⟨"MX_EVT_EN", 0x1300024, [], 0xFF, 0x0, 0x0, 0x0, 0x0⟩,
    ⟨"AX_CFG", 0x1301000, [(0x100, 8)], 0xFFFFFF3B, 0x0, 0x0, 0x0, 0xA0A6400⟩,
    ⟨"AX_CUR", 0x1301004, [(0x100, 8)], 0xFFFFFFFF, 0x0, 0x0, 0x0, 0x0⟩,
    ⟨"AX_CMD", 0x1301008, [(0x100, 8)], 0x0, 0x0, 0x0, 0x0, 0x0⟩,
    ⟨"AX_TARGET", 0x130100C, [(0x100, 8)], 0xFFFFFFFF, 0x0, 0x0, 0x0, 0x0⟩,
    ⟨"AX_POS", 0x1301010, [(0x100, 8)], 0xFFFFFFFF, 0x0, 0x0, 0x0, 0x0⟩,
    ⟨"AX_VEL", 0x1301014, [(0x100, 8)], 0x0, 0x0, 0x0, 0xFFFFFFFF, 0x0⟩,
    ⟨"AX_HOFS", 0x1301028, [(0x100, 8)], 0xFFFFFFFF, 0x0, 0x0, 0x0, 0x0⟩,
    ⟨"AX_HLATCH", 0x130102C, [(0x100, 8)], 0x0, 0x0, 0x0, 0xFFFFFFFF, 0x0⟩,
    ⟨"AX_HMAX", 0x1301030, [(0x100, 8)], 0xFFFFFFFF, 0x0, 0x0, 0x0, 0x0⟩,
    ⟨"AX_STAT", 0x1301018, [(0x100, 8)], 0x0, 0x0, 0x0, 0x1FFFF, 0x8⟩,
    ⟨"AX_FLAG", 0x130101C, [(0x100, 8)], 0x0, 0x0, 0xFF, 0x0, 0x0⟩,
    ⟨"AX_LIM", 0x1301020, [(0x100, 8)], 0x0, 0xFFFFFF0F, 0x0, 0x0, 0x1306400⟩,
    ⟨"AX_HOME", 0x1301024, [(0x100, 8)], 0xF3E00002, 0x0, 0x0, 0x0, 0xC00000⟩,
    ⟨"AX_SET", 0x1301040, [(0x100, 8), (0x20, 4), (0x4, 8)], 0xFFFFFFFF, 0x0, 0x0, 0x0, 0x0⟩ ]

/-- The registers of block QE. -/
def qeRegs : List RegDef :=
  [ ⟨"QE_EVT", 0x1400020, [], 0x0, 0x0, 0x3FF, 0x0, 0x0⟩,
    ⟨"QE_EVT_EN", 0x1400024, [], 0x3FF, 0x0, 0x0, 0x0, 0x0⟩,
    ⟨"QE_CFG", 0x1401000, [(0x40, 10)], 0xDF, 0x20, 0x0, 0x0, 0x40⟩,
    ⟨"QE_COUNT", 0x1401004, [(0x40, 10)], 0xFFFFFFFF, 0x0, 0x0, 0x0, 0x0⟩,
    ⟨"QE_SOFT_LO", 0x1401008, [(0x40, 10)], 0xFFFFFFFF, 0x0, 0x0, 0x0, 0x80000000⟩,
    ⟨"QE_SOFT_HI", 0x140100C, [(0x40, 10)], 0xFFFFFFFF, 0x0, 0x0, 0x0, 0x7FFFFFFF⟩,
    ⟨"QE_CPR", 0x1401010, [(0x40, 10)], 0xFFFFFFFF, 0x0, 0x0, 0x0, 0x0⟩,
    ⟨"QE_IDXREF", 0x1401018, [(0x40, 10)], 0xFFFFFFFF, 0x0, 0x0, 0x0, 0x0⟩,
    ⟨"QE_IDXLAT", 0x140101C, [(0x40, 10)], 0x0, 0x0, 0x0, 0xFFFFFFFF, 0x0⟩,
    ⟨"QE_IDXDEV", 0x1401020, [(0x40, 10)], 0x0, 0x0, 0x0, 0xFFFFFFFF, 0x0⟩,
    ⟨"QE_SPEED", 0x1401024, [(0x40, 10)], 0x0, 0x0, 0x0, 0xFFFFFFFF, 0x0⟩,
    ⟨"QE_IDXCFG", 0x1401014, [(0x40, 10)], 0x7FFFF, 0x0, 0x0, 0x0, 0x0⟩,
    ⟨"QE_SPCFG", 0x1401028, [(0x40, 10)], 0xFFFFFFFF, 0x0, 0x0, 0x0, 0x3E803E8⟩,
    ⟨"QE_STAT", 0x140102C, [(0x40, 10)], 0x0, 0x0, 0x0, 0xFF, 0x2⟩,
    ⟨"QE_FLAG", 0x1401030, [(0x40, 10)], 0x0, 0x0, 0xFF, 0x0, 0x0⟩ ]

/-- The registers of block LE. -/
def leRegs : List RegDef :=
  [ ⟨"LE_CTRL", 0x1500000, [], 0x1FFF0001, 0x0, 0x0, 0x0, 0x640000⟩,
    ⟨"LE_FRAME", 0x1500004, [], 0x0, 0x0, 0x0, 0xFFFFFFFF, 0x0⟩,
    ⟨"LE_EVT", 0x1500020, [], 0x0, 0x0, 0x1F, 0x0, 0x0⟩,
    ⟨"LE_EVT_EN", 0x1500024, [], 0x1F, 0x0, 0x0, 0x0, 0x0⟩,
    ⟨"LE_CNT", 0x1500040, [(0x4, 2)], 0xFFFFFFFF, 0x0, 0x0, 0x0, 0x0⟩,
    ⟨"LP_CFG", 0x1501000, [(0x40, 32)], 0xBFFFFFFF, 0x40000000, 0x0, 0x0, 0x0⟩,
    ⟨"LP_SRC", 0x1501004, [(0x40, 32)], 0xFFFFFFFF, 0x0, 0x0, 0x0, 0x0⟩,
    ⟨"LP_CONST", 0x1501008, [(0x40, 32)], 0xFFFFFFFF, 0x0, 0x0, 0x0, 0x0⟩,
    ⟨"LP_OMIN", 0x150100C, [(0x40, 32)], 0xFFFFFFFF, 0x0, 0x0, 0x0, 0x80000000⟩,
    ⟨"LP_OMAX", 0x1501010, [(0x40, 32)], 0xFFFFFFFF, 0x0, 0x0, 0x0, 0x7FFFFFFF⟩,
    ⟨"LP_OUT", 0x1501014, [(0x40, 32)], 0x0, 0x0, 0x0, 0xFFFFFFFF, 0x0⟩,
    ⟨"LP_U", 0x1501018, [(0x40, 32)], 0x0, 0x0, 0x0, 0xFFFFFFFF, 0x0⟩,
    ⟨"LP_RMAX", 0x150101C, [(0x40, 32)], 0xFFFFFFFF, 0x0, 0x0, 0x0, 0xFFFFFFFF⟩,
    ⟨"LP_Q_F", 0x1501028, [(0x40, 32)], 0x0, 0x0, 0x0, 0xFFFFFFFF, 0x0⟩,
    ⟨"LP_Q_LO", 0x150102C, [(0x40, 32)], 0x0, 0x0, 0x0, 0xFFFFFFFF, 0x0⟩,
    ⟨"LP_Q_HI", 0x1501030, [(0x40, 32)], 0x0, 0x0, 0x0, 0xFFFFFFFF, 0x0⟩,
    ⟨"LP_CHK", 0x1501020, [(0x40, 32)], 0xFFFFFF9F, 0x0, 0x0, 0x0, 0x1036400⟩,
    ⟨"LP_FLAG", 0x1501024, [(0x40, 32)], 0x0, 0x0, 0x1F, 0x0, 0x0⟩,
    ⟨"TR_CFG", 0x1502000, [(0x10, 16)], 0x9F7FFF00, 0x0, 0x0, 0x0, 0x0⟩,
    ⟨"TR_STAT", 0x1502004, [(0x10, 16)], 0x0, 0x0, 0x0, 0xFFFF3FFF, 0x0⟩ ] ++
  [ ⟨"LE_TRIG", 0x1502100, [], 0xBF003FFF, 0x0, 0x0, 0x0, 0x2000⟩,
    ⟨"LE_TRIG_LVL", 0x1502104, [], 0xFFFFFFFF, 0x0, 0x0, 0x0, 0x0⟩ ]

/-- The registers of block TB. -/
def tbRegs : List RegDef :=
  [ ⟨"TB_INC_FRAC", 0x1600000, [], 0xFFFFFFFF, 0x0, 0x0, 0x0, 0x0⟩,
    ⟨"TB_INC_NS", 0x1600004, [], 0xFF, 0x0, 0x0, 0x0, 0xA⟩,
    ⟨"TB_NOW_FRAC", 0x1600008, [], 0x0, 0x0, 0x0, 0xFFFFFFFF, 0x0⟩,
    ⟨"TB_NOW_NS", 0x160000C, [], 0x0, 0x0, 0x0, 0xFFFFFFFF, 0x0⟩,
    ⟨"TB_NOW_SLO", 0x1600010, [], 0x0, 0x0, 0x0, 0xFFFFFFFF, 0x0⟩,
    ⟨"TB_NOW_SHI", 0x1600014, [], 0x0, 0x0, 0x0, 0xFFFF, 0x0⟩,
    ⟨"TB_FLAT_LO", 0x1600018, [], 0x0, 0x0, 0x0, 0xFFFFFFFF, 0x0⟩,
    ⟨"TB_FLAT_HI", 0x160001C, [], 0x0, 0x0, 0x0, 0xFFFFFFFF, 0x0⟩,
    ⟨"TB_EVT", 0x1600020, [], 0x0, 0x0, 0x7F, 0x0, 0x0⟩,
    ⟨"TB_EVT_EN", 0x1600024, [], 0x7F, 0x0, 0x0, 0x0, 0x0⟩,
    ⟨"TB_SET_NS", 0x1600030, [], 0xFFFFFFFF, 0x0, 0x0, 0x0, 0x0⟩,
    ⟨"TB_SET_SLO", 0x1600034, [], 0xFFFFFFFF, 0x0, 0x0, 0x0, 0x0⟩,
    ⟨"TB_SET_SHI", 0x1600038, [], 0xFFFF, 0x0, 0x0, 0x0, 0x0⟩,
    ⟨"TB_ADJ_LO", 0x1600040, [], 0xFFFFFFFF, 0x0, 0x0, 0x0, 0x0⟩,
    ⟨"TB_ADJ_HI", 0x1600044, [], 0xFFFFFFFF, 0x0, 0x0, 0x0, 0x0⟩,
    ⟨"TB_XS_CMD", 0x1600050, [], 0x0, 0x0, 0x0, 0x0, 0x0⟩,
    ⟨"TB_XS_STAT", 0x1600054, [], 0x0, 0x0, 0x0, 0xFFFFFFFF, 0x0⟩,
    ⟨"TB_XS_FRAC", 0x1600058, [], 0x0, 0x0, 0x0, 0xFFFFFFFF, 0x0⟩,
    ⟨"TB_XS_FLAT_LO", 0x160005C, [], 0x0, 0x0, 0x0, 0xFFFFFFFF, 0x0⟩,
    ⟨"TB_XS_FLAT_HI", 0x1600060, [], 0x0, 0x0, 0x0, 0xFFFFFFFF, 0x0⟩ ] ++
  [ ⟨"TB_XS_CYC", 0x1600070, [(0x4, 4)], 0x0, 0x0, 0x0, 0xFFFFFFFF, 0x0⟩,
    ⟨"TB_CMP_LO", 0x1600100, [(0x10, 4)], 0xFFFFFFFF, 0x0, 0x0, 0x0, 0x0⟩,
    ⟨"TB_CMP_HI", 0x1600104, [(0x10, 4)], 0xFFFFFFFF, 0x0, 0x0, 0x0, 0x0⟩,
    ⟨"TB_CMP_CTL", 0x1600108, [(0x10, 4)], 0x1, 0x0, 0x0, 0x0, 0x0⟩,
    ⟨"TP_CFG", 0x1601000, [(0x20, 16)], 0xE0000000, 0x0, 0x2, 0x1, 0x0⟩,
    ⟨"TP_START_LO", 0x1601004, [(0x20, 16)], 0xFFFFFFFF, 0x0, 0x0, 0x0, 0x0⟩,
    ⟨"TP_START_HI", 0x1601008, [(0x20, 16)], 0xFFFFFFFF, 0x0, 0x0, 0x0, 0x0⟩,
    ⟨"TP_PER_NS", 0x160100C, [(0x20, 16)], 0xFFFFFFFF, 0x0, 0x0, 0x0, 0x0⟩,
    ⟨"TP_PER_FRAC", 0x1601010, [(0x20, 16)], 0xFFFFFFFF, 0x0, 0x0, 0x0, 0x0⟩,
    ⟨"TP_WIDTH", 0x1601014, [(0x20, 16)], 0xFFFFFFFF, 0x0, 0x0, 0x0, 0x3E8⟩ ]

/-- The registers of block EN. -/
def enRegs : List RegDef :=
  [ ⟨"EN_EVT", 0x1700020, [], 0x0, 0x0, 0x1F1F, 0x0, 0x0⟩,
    ⟨"EN_EVT_EN", 0x1700024, [], 0x1F1F, 0x0, 0x0, 0x0, 0x0⟩,
    ⟨"EN_CFG", 0x1701000, [(0x100, 2)], 0xFFFF000F, 0x0, 0x0, 0x0, 0x5F20008⟩,
    ⟨"EN_MAC_LO", 0x1701004, [(0x100, 2)], 0xFFFFFFFF, 0x0, 0x0, 0x0, 0x0⟩,
    ⟨"EN_MAC_HI", 0x1701008, [(0x100, 2)], 0xFFFF, 0x0, 0x0, 0x0, 0x0⟩,
    ⟨"EN_TXADJ", 0x170100C, [(0x100, 2)], 0xFFFFFFFF, 0x0, 0x0, 0x0, 0x0⟩,
    ⟨"EN_RX_BASE", 0x1701010, [(0x100, 2)], 0xFFFFFFF0, 0x0, 0x0, 0x0, 0x0⟩,
    ⟨"EN_RX_CNT", 0x1701014, [(0x100, 2)], 0xFFFFFFFF, 0x0, 0x0, 0x0, 0x0⟩,
    ⟨"EN_RX_HEAD", 0x1701018, [(0x100, 2)], 0x0, 0x0, 0x0, 0xFFFFFFFF, 0x0⟩,
    ⟨"EN_RX_TAIL", 0x170101C, [(0x100, 2)], 0xFFFFFFFF, 0x0, 0x0, 0x0, 0x0⟩,
    ⟨"EN_TX_BASE", 0x1701020, [(0x100, 2)], 0xFFFFFFF0, 0x0, 0x0, 0x0, 0x0⟩,
    ⟨"EN_TX_CNT", 0x1701024, [(0x100, 2)], 0xFFFFFFFF, 0x0, 0x0, 0x0, 0x0⟩,
    ⟨"EN_TX_HEAD", 0x1701028, [(0x100, 2)], 0x0, 0x0, 0x0, 0xFFFFFFFF, 0x0⟩,
    ⟨"EN_TX_TAIL", 0x170102C, [(0x100, 2)], 0xFFFFFFFF, 0x0, 0x0, 0x0, 0x0⟩,
    ⟨"EN_STAT", 0x1701030, [(0x100, 2)], 0x0, 0x0, 0x0, 0x1, 0x0⟩,
    ⟨"EN_TSI", 0x1701034, [(0x100, 2)], 0x0, 0x0, 0x0, 0xFFFFFFFF, 0x0⟩,
    ⟨"EN_CNT", 0x1701040, [(0x100, 2), (0x4, 4)], 0xFFFFFFFF, 0x0, 0x0, 0x0, 0x0⟩ ]

/-- The registers of block ST. -/
def stRegs : List RegDef :=
  [ ⟨"ST_CTRL", 0x1800000, [], 0x3EF, 0x0, 0x0, 0x0, 0x3EF⟩,
    ⟨"ST_CMD", 0x1800004, [], 0x0, 0x0, 0x0, 0x0, 0x0⟩,
    ⟨"ST_ARG_LO", 0x1800008, [], 0xFFFFFFC0, 0x0, 0x0, 0x0, 0x0⟩,
    ⟨"ST_ARG_HI", 0x180000C, [], 0xFFFF, 0x0, 0x0, 0x0, 0x0⟩,
    ⟨"ST_STAT", 0x1800010, [], 0x0, 0x0, 0x0, 0x870001FF, 0x0⟩,
    ⟨"ST_EVT", 0x1800020, [], 0x0, 0x0, 0x1F, 0x0, 0x0⟩,
    ⟨"ST_EVT_EN", 0x1800024, [], 0x1F, 0x0, 0x0, 0x0, 0x0⟩,
    ⟨"ST_CNT", 0x1800040, [(0x4, 4)], 0xFFFFFFFF, 0x0, 0x0, 0x0, 0x0⟩,
    ⟨"ST_PER", 0x1800100, [], 0xFFFFFFFF, 0x0, 0x0, 0x0, 0x64⟩,
    ⟨"ST_PER", 0x1800104, [], 0xFFFFFFFF, 0x0, 0x0, 0x0, 0x258⟩,
    ⟨"ST_PER", 0x1800108, [], 0xFFFFFFFF, 0x0, 0x0, 0x0, 0x6978⟩,
    ⟨"ST_PER", 0x180010C, [], 0xFFFFFFFF, 0x0, 0x0, 0x0, 0xD2F00⟩,
    ⟨"ST_PER", 0x1800110, [], 0xFFFFFFFF, 0x0, 0x0, 0x0, 0x0⟩,
    ⟨"ST_PER", 0x1800114, [], 0xFFFFFFFF, 0x0, 0x0, 0x0, 0xA⟩,
    ⟨"ST_PER", 0x1800118, [], 0xFFFFFFFF, 0x0, 0x0, 0x0, 0xA⟩,
    ⟨"ST_PER", 0x180011C, [], 0xFFFFFFFF, 0x0, 0x0, 0x0, 0x0⟩,
    ⟨"ST_PER", 0x1800120, [], 0xFFFFFFFF, 0x0, 0x0, 0x0, 0x280⟩,
    ⟨"ST_PER", 0x1800124, [], 0xFFFFFFFF, 0x0, 0x0, 0x0, 0xA⟩,
    ⟨"ST_USTAT", 0x1801000, [(0x4, 147)], 0x0, 0x0, 0x0, 0xFFFF003F, 0x0⟩,
    ⟨"ST_USTAT", 0x180124C, [(0x4, 1)], 0x0, 0x0, 0x0, 0xFFFF003F, 0x3⟩ ] ++
  [ ⟨"ST_USTAT", 0x1801250, [(0x4, 32)], 0x0, 0x0, 0x0, 0xFFFF003F, 0x0⟩,
    ⟨"ST_USTAT", 0x18012D0, [(0x4, 32)], 0x0, 0x0, 0x0, 0xFFFF003F, 0x2⟩,
    ⟨"ST_USTAT", 0x1801350, [(0x4, 1)], 0x0, 0x0, 0x0, 0xFFFF003F, 0x0⟩,
    ⟨"ST_USTAT", 0x1801354, [(0x4, 3)], 0x0, 0x0, 0x0, 0xFFFF003F, 0x2⟩,
    ⟨"ST_USTAT", 0x1801360, [(0x4, 43)], 0x0, 0x0, 0x0, 0xFFFF003F, 0x0⟩,
    ⟨"ST_USTAT", 0x180140C, [(0x4, 1)], 0x0, 0x0, 0x0, 0xFFFF003F, 0x0⟩,
    ⟨"ST_USTAT", 0x1801410, [(0x4, 1)], 0x0, 0x0, 0x0, 0xFFFF003F, 0x3⟩,
    ⟨"ST_USTAT", 0x1801414, [(0x4, 1)], 0x0, 0x0, 0x0, 0xFFFF003F, 0x0⟩,
    ⟨"ST_USTAT", 0x1801418, [(0x4, 1)], 0x0, 0x0, 0x0, 0xFFFF003F, 0x3⟩ ]

/-- The registers of block BOOT. -/
def bootRegs : List RegDef :=
  [ ⟨"BOOT_STAT", 0x1A00000, [], 0x0, 0x0, 0x0, 0xFF0F310F, 0x0⟩,
    ⟨"BOOT_VCMD", 0x1A00010, [], 0x0, 0x0, 0x0, 0x0, 0x0⟩,
    ⟨"BOOT_VADDR_LO", 0x1A00014, [], 0xFFFFFFC0, 0x0, 0x0, 0x0, 0x0⟩,
    ⟨"BOOT_VADDR_HI", 0x1A00018, [], 0xFFFF, 0x0, 0x0, 0x0, 0x0⟩,
    ⟨"BOOT_VSTAT", 0x1A0001C, [], 0x0, 0x0, 0x0, 0xF0F, 0x0⟩,
    ⟨"BOOT_CCIMG_LO", 0x1A00020, [], 0x0, 0x0, 0x0, 0xFFFFFFFF, 0x0⟩,
    ⟨"BOOT_CCIMG_HI", 0x1A00024, [], 0x0, 0x0, 0x0, 0xFFFF, 0x0⟩,
    ⟨"BOOT_SVN_ADV", 0x1A00030, [], 0x0, 0x0, 0x0, 0x0, 0x0⟩ ]

/-- The registers of the block with the given ID (R8); XC, BA, BQ and CC hold none (R476). -/
def blockRegs : Nat → List RegDef
  | 0x0 => topRegs
  | 0x1 => ckRegs
  | 0x2 => siRegs
  | 0x3 => protRegs
  | 0x4 => admRegs
  | 0x7 => dsRegs
  | 0x8 => lcRegs
  | 0x9 => fsRegs
  | 0xA => dlRegs
  | 0xB => cxrRegs
  | 0xC => ipRegs
  | 0xD => veRegs
  | 0xF => mcRegs
  | 0x10 => hiRegs
  | 0x11 => dmaRegs
  | 0x12 => cvRegs
  | 0x13 => mxRegs
  | 0x14 => qeRegs
  | 0x15 => leRegs
  | 0x16 => tbRegs
  | 0x17 => enRegs
  | 0x18 => stRegs
  | 0x1A => bootRegs
  | _ => []

/-- The register at a BAR0 offset, if one lies there. -/
def regDef? (off : Nat) : Option RegDef :=
  (blockRegs (off / 0x100000)).find? fun d => d.base ≤ off && dimsCover d.dims (off - d.base)

/-- The reset value of the register at a BAR0 offset, zero where no register lies (R5, R474). -/
def regReset (off : Nat) : BitVec 32 :=
  match regDef? off with
  | some d => d.reset
  | none => 0

/-! ### Block IDs (R8) -/

def BLK_TOP : Nat := 0x0
def BLK_CK : Nat := 0x1
def BLK_SI : Nat := 0x2
def BLK_PROT : Nat := 0x3
def BLK_ADM : Nat := 0x4
def BLK_XC : Nat := 0x5
def BLK_BA : Nat := 0x6
def BLK_DS : Nat := 0x7
def BLK_LC : Nat := 0x8
def BLK_FS : Nat := 0x9
def BLK_DL : Nat := 0xA
def BLK_CXR : Nat := 0xB
def BLK_IP : Nat := 0xC
def BLK_VE : Nat := 0xD
def BLK_BQ : Nat := 0xE
def BLK_MC : Nat := 0xF
def BLK_HI : Nat := 0x10
def BLK_DMA : Nat := 0x11
def BLK_CV : Nat := 0x12
def BLK_MX : Nat := 0x13
def BLK_QE : Nat := 0x14
def BLK_LE : Nat := 0x15
def BLK_TB : Nat := 0x16
def BLK_EN : Nat := 0x17
def BLK_ST : Nat := 0x18
def BLK_CC : Nat := 0x19
def BLK_BOOT : Nat := 0x1A

end Sys2Proof.Machine
end

