-- ==== Sys2Proof/Machine/Table.lean ====
section
/-!
DEFINITION. Sparse tables in one canonical form: keys strictly rising, no entry equal to what an
unlisted key reads as, so that equal contents are equal data. Registers, memory and every indexed piece
of internal state are held this way.
-/

namespace Sys2Proof.Machine

/-- A sparse table: the entries that differ from the value of an unlisted key. -/
abbrev Tbl (α : Type) := List (Nat × α)

/-- The value at a key; `d` is what an unlisted key reads as. -/
def Tbl.get {α : Type} (t : Tbl α) (d : α) (k : Nat) : α :=
  match t with
  | [] => d
  | (k', v) :: rest => if k' = k then v else Tbl.get rest d k

/-- The table with one entry written. -/
def Tbl.set {α : Type} [DecidableEq α] (t : Tbl α) (d : α) (k : Nat) (v : α) : Tbl α :=
  t.filter (·.1 < k) ++ (if v = d then [] else [(k, v)]) ++ t.filter (k < ·.1)

/-- The table with one entry changed by a function. -/
def Tbl.upd {α : Type} [DecidableEq α] (t : Tbl α) (d : α) (k : Nat) (f : α → α) : Tbl α :=
  t.set d k (f (t.get d k))

/-- The canonical form: keys strictly rising, no entry equal to what its key reads as unlisted. -/
def Tbl.wf {α : Type} [DecidableEq α] (d : Nat → α) : Tbl α → Bool
  | [] => true
  | (k, v) :: rest => decide (v ≠ d k) && rest.all (fun e => k < e.1) && Tbl.wf d rest

end Sys2Proof.Machine
end

