-- ==== Sys2Proof/Machine/Bits.lean ====
section
/-!
DEFINITION. Bit fields of a register, byte order (R2), sign and range conversions, saturating counts and
the rotating grant of R16: the plain arithmetic that the chapters share.
-/

namespace Sys2Proof.Machine

/-- The mask of a field. -/
def fldMask (f : Fld) : BitVec 32 := BitVec.ofNat 32 ((2 ^ f.w - 1) * 2 ^ f.lo)

/-- The value of a field in a register. -/
def fldGet (f : Fld) (v : BitVec 32) : Nat := v.toNat / 2 ^ f.lo % 2 ^ f.w

/-- A register with one field replaced by the low bits of a number. -/
def fldPut (f : Fld) (x : Nat) (v : BitVec 32) : BitVec 32 :=
  (v &&& ~~~(fldMask f)) ||| BitVec.ofNat 32 (x % 2 ^ f.w * 2 ^ f.lo)

/-- One bit as a number. -/
def b2n (b : Bool) : Nat := if b then 1 else 0

/-- The bytes of a number, least significant first (R2). -/
def leBytes : Nat → Nat → List Byte
  | 0, _ => []
  | n + 1, x => BitVec.ofNat 8 x :: leBytes n (x / 256)

/-- The number that bytes hold, least significant first (R2). -/
def leNat : List Byte → Nat
  | [] => 0
  | b :: rest => b.toNat + 256 * leNat rest

/-- The bytes of a number, most significant first (the exceptions to R2). -/
def beBytes (n x : Nat) : List Byte := (leBytes n x).reverse

/-- The number that bytes hold, most significant first. -/
def beNat (bs : List Byte) : Nat := leNat bs.reverse

/-- A number of `w` bits read as two's complement. -/
def sext (w x : Nat) : Int :=
  if x % 2 ^ w < 2 ^ (w - 1) then (x % 2 ^ w : Nat) else (x % 2 ^ w : Nat) - (2 ^ w : Nat)

/-- An integer as a number of `w` bits in two's complement. -/
def twos (w : Nat) (x : Int) : Nat := (x % (2 ^ w : Nat)).toNat

/-- An integer clamped into a range. -/
def clampI (lo hi x : Int) : Int := if x < lo then lo else if hi < x then hi else x

/-- A number clamped into a range. -/
def clampN (lo hi x : Nat) : Nat := if x < lo then lo else if hi < x then hi else x

/-- sat8 of the notation chapter: clamped to 0 to 255. -/
def sat8 (x : Int) : Nat := (clampI 0 255 x).toNat

/-- sat16 of the notation chapter: clamped to 0 to 65,535. -/
def sat16 (x : Int) : Nat := (clampI 0 65535 x).toNat

/-- The quotient rounded up. -/
def ceilDiv (a b : Nat) : Nat := (a + b - 1) / b

/-- One more, saturating at 0xFFFF_FFFF. -/
def satInc (v : BitVec 32) : BitVec 32 := if v = 0xFFFFFFFF then v else v + 1

/-- `n` more, saturating at 0xFFFF_FFFF. -/
def satAdd (n : Nat) (v : BitVec 32) : BitVec 32 := BitVec.ofNat 32 (min 0xFFFFFFFF (v.toNat + n))

/-- R16: the first requesting index in the order P, P + 1, …, N − 1, 0, …, P − 1. -/
def rrGrant (n p : Nat) (req : Nat → Bool) : Option Nat :=
  ((List.range n).map fun i => (p + i) % n).find? req

/-- R16: the pointer after a grant. -/
def rrNext (n winner : Nat) : Nat := (winner + 1) % n

/-- The list with the element at one index changed; unchanged beyond its end. -/
def modifyAt {α : Type} (f : α → α) : Nat → List α → List α
  | _, [] => []
  | 0, x :: xs => f x :: xs
  | n + 1, x :: xs => x :: modifyAt f n xs

end Sys2Proof.Machine
end

