-- ==== Sys2Proof/Machine/Parts/Top.lean ====
section
/-!
DEFINITION. Internal state of TOP, of the control and Sagger cores, and of the clock, boot and memory
side that no register shows.
-/

namespace Sys2Proof.Machine

/-- The event router and the shared resources of TOP. MSI-X (R22): per vector, the tick of the last
message while its 1 µs interval has not been closed, a request gathered in it, and the messages sent
since reset. -/
structure TopSt where
  holdoff   : Tbl (Option Nat)
  requested : Tbl Bool
  sent      : Tbl Nat
  /-- W1C bits that hardware set in the cycle under way, by register; and those of them that were pending
  events already (R4, R22). -/
  fresh     : Tbl Word
  again     : Tbl Word
  /-- The pointers of R16, one per shared resource; 0 after reset. -/
  rrPtr     : Tbl Nat
  /-- The word that the last read command of a register returned. -/
  answer    : Word
deriving DecidableEq, Repr

/-- A transaction of the host (R317 to R322): a read of a BAR, or a posted write, poisoned or not; with
HI_BAR4_BASE as it was when HI received it (R320). -/
inductive HostAcc where
  | read (bar : Bar) (base x : Nat) (len : Nat)
  | write (bar : Bar) (base x : Nat) (data : List Byte) (poisoned : Bool)
deriving DecidableEq, Repr

/-- An error that the function reports through AER (R316, R322). No command brings the last four: a requester sees
an Unsupported Request or a Completer Abort of its completer, and TLPs reach the device well formed. -/
inductive AerErr where
  | poisonedTlp
  | completionTimeout
  | unsupportedRequest
  | completerAbort
  | malformedTlp
  | receiverError
deriving DecidableEq, Repr

/-- What the spec gives of configuration space (R316): the identity, the Interrupt Pin register, the power
state (0 D0, 3 D3hot), the Max Payload Size and Max Read Request Size in bytes, the bounds of the completion
timeout in µs, the state of ASPM L1, and the errors shown in AER. Its Vendor ID is TOP_VENDOR's (R477). No command
writes it. -/
structure PciCfg where
  device : BitVec 16
  rev    : BitVec 8
  cls    : BitVec 24
  intPin : BitVec 8
  dState : BitVec 2
  mps    : Nat
  mrrs   : Nat
  timeLo : Nat
  timeHi : Nat
  aspmL1 : Bool
  aer    : List AerErr
deriving DecidableEq, Repr

/-- The completion that the host interface returned for the last host read: its data, and the EP bit
(R319, R322); the transactions that wait, the oldest first (R321); and configuration space. -/
structure HiSt where
  data  : List Byte
  ep    : Bool
  queue : List HostAcc
  cfg   : PciCfg
deriving DecidableEq, Repr

/-- A control core, or the Sagger's lockstep triple (R26, R27, R47 to R55). -/
structure IsSt where
  g         : Tbl Word
  pc        : Word
  /-- The system registers that differ from their reset values; sr0 to sr47 by number. -/
  sr        : Tbl Word
  cycle     : BitVec 64
  instret   : BitVec 64
  /-- CYCLE_HI and INSTRET_HI as latched. -/
  cycleHi   : Word
  instretHi : Word
  /-- In WFI, waiting. -/
  wfi       : Bool
  /-- Out of reset and issuing instructions. -/
  running   : Bool
  /-- The inputs that were asserted when a system register was last written (R55). -/
  prior     : BitVec 64
  /-- Line addresses held by the instruction cache. -/
  icache    : List Nat
deriving DecidableEq, Repr

/-- A line of the control cores' coherent data caches (R44, R45): its address and bytes, whether it is dirty,
and the cores whose caches hold it, the one that last wrote it first. -/
structure CacheLine where
  addr  : Nat
  bytes : List Byte
  dirty : Bool
  cores : List Nat
deriving DecidableEq, Repr

/-- An entry into STANDBY or OFF under way, or a power-up into STANDBY (R456, R458). -/
structure DomEntry where
  /-- The state entered: 0 OFF, 1 STANDBY. -/
  target  : Nat
  /-- The clocks are stopped since the entry began: it comes from OFF or STANDBY. -/
  stopped : Bool
  /-- The first tick of the entry. -/
  since   : Nat
  /-- A wake request came in the second phase. -/
  wake    : Bool
  /-- The state that the domain comes from. -/
  before  : Nat
deriving DecidableEq, Repr

/-- A wake under way (R457): whether it comes from OFF, the tick from which its bound counts, and
whether it was found late. -/
structure WakeSt where
  fromOff : Bool
  since   : Nat
  late    : Bool
deriving DecidableEq, Repr

/-- Clock and power state behind the registers (R450 to R459). -/
structure CkSt where
  pwrgood    : Bool
  /-- PWRGOOD rose and no crystal is selected yet: the tick at which the attempt began. -/
  qualifying : Option Nat
  /-- Entry or wake under way, per fast domain. -/
  entry      : Tbl (Option DomEntry)
  waking     : Tbl (Option WakeSt)
  /-- The tick in which a source last woke a domain (R458). -/
  woke       : Tbl (Option Nat)
  /-- Both crystals are lost. -/
  bothXtal   : Bool
  /-- The tick at which a monitored rail last returned into its range. -/
  supAt      : Nat
  /-- The tick in which a crystal's loss was handled before a PLL's of the same tick (R455). -/
  early      : Option Nat
  /-- Per domain, the tick of a write of REQ below AWAKE, and CK_DOM before it (R458). -/
  lowered    : Tbl (Option (Nat × Word))
deriving DecidableEq, Repr

/-- A BOOT_VCMD operation under way (R470). -/
structure VerifyOp where
  op   : Nat
  addr : Nat
deriving DecidableEq, Repr

/-- The ways in which BOOT reads the flash (R461): 1-1-1, 1-1-4 and 1-4-4. -/
inductive FlashRead where
  | serial
  | quadOutput
  | quadIo
deriving DecidableEq, Repr

/-- What BOOT takes from the SFDP table (R461): addresses of 4 bytes, the quad-enable method, the read mode and
its clock in MHz. -/
structure FlashMode where
  addr4 : Bool
  quad  : Nat
  read  : FlashRead
  mhz   : Nat
deriving DecidableEq, Repr

/-- The boot controller: the flash from offset 0 and from half its density as far as it can be read, the fuse
SVN count, the image that booted, and the host interface's PERST_N (R461 to R471). -/
structure BootSt where
  flashP   : List Byte
  flashS   : List Byte
  /-- How the flash is read, once BOOT has read its SFDP table. -/
  mode     : Option FlashMode
  /-- The pad FLASH_CS_N (R460): high in reset, and low only within a command that reads or writes the flash. -/
  csN      : Bool
  fuseSvn  : Nat
  /-- The valid boot image, from BOOT until the setup is locked. -/
  image    : Option (List Byte)
  /-- SVN of the image that booted. -/
  imageSvn : Nat
  verify   : Option VerifyOp
  /-- PERST_N is high. -/
  perst    : Bool
deriving DecidableEq, Repr

/-- Where an address lies (R12, R13). -/
inductive AddrKind where
  | dram
  | sram
  | regs
  | host
  | unmapped
deriving DecidableEq, Repr

end Sys2Proof.Machine
end

