-- ==== Sys2Proof/Machine/Parts/Drive.lean ====
section
/-!
DEFINITION. Internal state of the motion axes, the encoder inputs and the loop engine.
-/

namespace Sys2Proof.Machine

/-- A segment under way (R353): its entry, the four words in use, ticks run, and the state it began
from (p0 in units of 2^-32 microstep, v0 in units of R348). -/
structure SegRun where
  entry : Nat
  words : List Nat
  t     : Nat
  p0    : Int
  v0    : Int
deriving DecidableEq, Repr

/-- What the step generator of an axis runs. `arrived`: its run has ended with V = 0. -/
inductive AxRun where
  | idle
  /-- R352 toward a position; braking has begun. -/
  | move (set : Nat) (target : BitVec 32) (braking : Bool)
  /-- R352 toward a velocity. -/
  | velocity (set : Nat) (target : Int)
  | segments (g : SegRun)
  /-- The ramp stop of R354. -/
  | stop
  | arrived
deriving DecidableEq, Repr

/-- A motion axis behind its registers (R344 to R360). -/
structure AxSt where
  /-- p: signed 32-bit microsteps with a 32-bit fraction. -/
  p         : BitVec 64
  /-- V in units of 2^-48 microstep per tick (R351). -/
  v         : Int
  run       : AxRun
  /-- The last step: its tick. -/
  lastStep  : Option Nat
  /-- The last step was positive. -/
  stepUp    : Bool
  /-- DIR shows positive motion, and the tick of its last change (R345). -/
  dirPos    : Bool
  dirAt     : Option Nat
  /-- The last coil frame and its first tick (R346). -/
  frame     : BitVec 40
  frameAt   : Option Nat
  /-- Tick of the last qualified inactive edge per switch: 0 negative, 1 positive, 2 home (R356). -/
  relAt     : Tbl (Option Nat)
  /-- floor(p) as SEARCH last saw it, and the microsteps that SEARCH has travelled (R360). -/
  searchAt  : BitVec 32
  travel    : Int
  /-- The safe state has put the coils in mode OFF (R410). -/
  off       : Bool
deriving DecidableEq, Repr

/-- An encoder input behind its registers (R362 to R367). -/
structure QeSt where
  /-- Accepted levels are held (R362), and those of A and B. -/
  held    : Bool
  a       : Bool
  b       : Bool
  /-- Ticks of the edges of the run, newest first, as far as a speed window reaches. -/
  edges   : List Nat
  /-- At least one edge was accepted since reset or since EN was last written 1. -/
  seen    : Bool
  /-- The direction of the last edge since reset or since EN was last written from 0 to 1. -/
  last    : Option Bool
  /-- The last tick with an accepted count, and the sum of its counts (R365). -/
  counted : Option (Nat × Int)
  /-- Tick at which a wire bit last came to read 0 (R494). -/
  wireAt  : Nat
  /-- Speed at the last edge: counts and ticks; none where it gives no speed. -/
  speed   : Option (Nat × Nat)
  /-- Accepted counts since reset, signed. -/
  total   : Int
deriving DecidableEq, Repr

/-- A loop of the loop engine behind its registers (R369 to R379). -/
structure LoopSt where
  /-- Q. -/
  q        : BitVec 96
  /-- It runs: accepted by EN, and not yet stopped at a frame boundary. -/
  active   : Bool
  /-- Accepted counts of the ten encoder inputs at the previous sample tick. -/
  prev     : List Int
  /-- Results not yet presented: the frame they are presented in, and the value. -/
  results  : List (Nat × BitVec 32)
  /-- Consecutive implausible evaluations. -/
  bad      : Nat
  /-- VALID has been 0 since the last evaluation with VALID = 1: the next such evaluation preloads. -/
  preload  : Bool
  /-- LP_CFG as it is in force: its fields other than EN are taken at the enable and at each sample tick. -/
  cfg      : BitVec 32
deriving DecidableEq, Repr

/-- A trace channel behind its registers (R380, R381). -/
structure TraceSt where
  /-- Evaluations since the last sample. -/
  count : Nat
  /-- Samples still to take after the trigger; none before it. -/
  left  : Option Nat
  prev  : Option Int
deriving DecidableEq, Repr

/-- The loop engine. -/
structure LeSt where
  loops   : Tbl LoopSt
  traces  : Tbl TraceSt
  /-- The engine's frames run, and the tick at which the next one begins. -/
  running : Bool
  nextAt  : Nat
  /-- Frames begun since EN was set, not reduced. -/
  frame   : Nat
  /-- The trace has triggered since it was armed. -/
  fired   : Bool
  /-- Low words written to section states and held, at 2 × section + state (R375). -/
  held    : Tbl (Option Word)
  /-- High words latched by a read of the low word. -/
  latched : Tbl (Option Word)
deriving DecidableEq, Repr

end Sys2Proof.Machine
end

