-- ==== Sys2Proof/Machine/Parts/Io.lean ====
section
/-!
DEFINITION. Internal state of the DMA engine and of the in-service test controller.
-/

namespace Sys2Proof.Machine

/-- The fields of a DMA descriptor that the engine acts on (R330). -/
structure DmaDesc where
  src     : Nat
  dst     : Nat
  slen    : Nat
  sstride : Int
  scnt    : Nat
  dlen    : Nat
  dstride : Int
  dcnt    : Nat
  irq     : Bool
  rbk     : Bool
  ns      : Bool
  hint    : Nat
  fill    : Bool
  cven    : Bool
  cvu     : Nat
deriving DecidableEq, Repr

/-- A DMA channel behind its registers (R333 to R336): the descriptor in progress and the fields that it was
fetched with, whether the channel has fetched one since reset, bytes moved, the RESULT that the descriptor is
heading for, and whether it owns its check-value unit (R332). -/
structure DmaCh where
  desc    : Option DmaDesc
  raw     : Option DmaDesc
  owns    : Bool
  fetched : Bool
  moved   : Nat
  result  : Nat
  /-- START was written during a test of the channel (R441). -/
  late    : Bool
  /-- Writes that have left the engine and not yet arrived, the oldest first: address and bytes (R335, R343). -/
  flight  : List (Nat × List Byte)
deriving DecidableEq, Repr

/-- A check-value unit behind its registers (R338): the bytes in its FIFO and the tick of the last
write to it. -/
structure CvSt where
  fifo    : List Byte
  wroteAt : Nat
deriving DecidableEq, Repr

/-- A unit in test (R431 to R433): the state it came from, whether this is the repeat after a failure,
and the command it serves (0 none, 1 TEST, 3 RETURN). -/
structure TestRun where
  prev   : Nat
  second : Bool
  cmd    : Nat
deriving DecidableEq, Repr

/-- The in-service test controller behind its registers. -/
structure StSt where
  /-- Tests running, by unit number. -/
  tests   : Tbl (Option TestRun)
  /-- Next unit to try, per class; for class 0 per cluster at key 16 + cluster, for class 3 per channel
  at key 64 + channel (R430). -/
  next    : Tbl Nat
  /-- Tick at which the last automatic test of a class, or of its cluster or channel, began (R430). -/
  started : Tbl (Option Nat)
  /-- The accepted command that waits for an automatic test to end: its operation and unit (R432). -/
  waiting : Option (Nat × Nat)
deriving DecidableEq, Repr

/-- A row left open in a bank (R299): its number, the tick of its last access, and whether it stays open
until a conflict. -/
structure OpenRow where
  row  : Nat
  last : Nat
  keep : Bool
deriving DecidableEq, Repr

/-- A physical rank behind its registers: the ticks of its last request, refresh and ZQ calibration,
and of its corrected errors (R290, R300, R304, R308); whether INIT has completed (R290); the ticks of its
last SRE, and from which an exit is complete (R305); and its open rows, by subchannel, bank group and bank
as 32 × sub + 4 × bg + bank. -/
structure RankSt where
  asked  : Nat
  refAt  : Nat
  zqAt   : Nat
  ces    : List Nat
  init   : Bool
  sreAt  : Nat
  exitAt : Nat
  rows   : Tbl (Option OpenRow)
deriving DecidableEq, Repr

/-- A training operation in progress (R292 to R294). -/
structure GatherSt where
  op    : Nat
  rank  : Nat
  point : Nat
  start : Nat
  step  : Nat
  count : Nat
  /-- A frequency change executed during it. -/
  stale : Bool
deriving DecidableEq, Repr

/-- A migration in progress: source and target rank, and the bytes copied (R313). -/
structure MigSt where
  src    : Nat
  dst    : Nat
  copied : Nat
deriving DecidableEq, Repr

/-- A command given to a DIMM (R311): its rank, and the line of a request that it carried. -/
structure DramCmd where
  rank : Nat
  line : Option Nat
deriving DecidableEq, Repr

/-- A write in a channel's write buffer (R298): its line, its port and the source in it, its page hint, and
the tick of its arrival. -/
structure WbEntry where
  line  : Nat
  port  : Nat
  src   : Nat
  hint  : PageHint
  since : Nat
deriving DecidableEq, Repr

/-- A DRAM channel behind its registers: its training operation, its migration, the DIMM temperatures
last read, the last 16 commands to each DIMM and the ticks of its parity errors (R311), its write buffer and
whether a batch drains (R298), and whether its sideband transaction is a read. -/
structure ChanSt where
  gather : Option GatherSt
  mig    : Option MigSt
  temps  : Tbl Int
  cmds   : Tbl (List DramCmd)
  parity : List Nat
  wbuf   : List WbEntry
  drain  : Bool
  sbRead : Bool
deriving DecidableEq, Repr

/-- What waits at a channel: a request with its data, or an access of a number of bytes that its requester
performs once it is granted. -/
inductive WaitOp where
  | ask (op : DramOp)
  | hold (len : Nat) (write : Bool)
deriving DecidableEq, Repr

/-- A request that waits: its port and its requester there, whose number modulo the sources of the port is its
index in R18; its channel (of a pair's, the one that a read goes to, R310), its page hint, and the tick of its
arrival there; none while the channel is full (R284). -/
structure DramWait where
  port  : Nat
  src   : Nat
  chan  : Nat
  addr  : Nat
  hint  : PageHint
  op    : WaitOp
  since : Option Nat
deriving DecidableEq, Repr

/-- The DRAM controller behind its registers. -/
structure McSt where
  /-- By 4 × channel + physical rank. -/
  ranks   : Tbl RankSt
  chans   : Tbl ChanSt
  /-- Requests waiting, in arrival order. -/
  waiting : List DramWait
  /-- Accesses that the scheduler has come to and their requesters have not yet performed. -/
  granted : List DramWait
  /-- The delay entries in effect, by the offset of their registers (R295). -/
  delays  : Tbl Word
  /-- The frequency point being moved to (R291). -/
  freqTo  : Nat
  /-- The data that the last read returned, and whether it was poisoned. -/
  answer  : List Byte
  bad     : Bool
  /-- The patrol (R308): the next line of the pass, and the tick at which the pass began. -/
  scrubAt : Nat
  scrubT0 : Nat
deriving DecidableEq, Repr

end Sys2Proof.Machine
end

