-- ==== Sys2Proof/Machine/Parts/Pacing.lean ====
section
/-!
DEFINITION. Internal state of the line clock, the firing sequencer, the dose stage and the dose link.
-/

namespace Sys2Proof.Machine

/-- An entry of the product queue, and an accepted product (R172 to R176). -/
structure Product where
  num    : Word
  lane   : Nat
  origin : Nat
  /-- It comes from a trigger; else it is a repeat of continuous layout. -/
  trig   : Bool
  /-- The tick of its acceptance. -/
  at_    : Nat
deriving DecidableEq, Repr

/-- The line clock behind its registers (R149 to R179). LNs are numbers below 2^64, positions numbers
of 2^-32 line modulo 2^96, and instants numbers of 625 ps. -/
structure LcSt where
  /-- SRC, UNIT and RATIO as they act in this tick (R149). -/
  src       : Nat
  unit      : Nat
  ratio     : Nat
  /-- P. -/
  pos       : BitVec 96
  /-- The largest P of R151. -/
  maxPos    : BitVec 96
  /-- H. -/
  hwm       : BitVec 64
  /-- The due instant of line event H + 1, once P or a prediction gives one (R152). -/
  due       : Option Nat
  /-- The instant of the last emitted line event; none since reset. -/
  lastEmit  : Option Nat
  /-- The next emitted line event reports the saturated period (R159). -/
  perFresh  : Bool
  /-- TADM as it applies from the next line event (R153). -/
  tadmNext  : Nat
  /-- Consecutive emitted periods of at least TWARN with no skip (R157). -/
  calm      : Nat
  /-- A run of skipped LNs is open: its first LN (R155). -/
  skipRun   : Option Nat
  /-- Fire lines whose packet set was abandoned (R156). -/
  abandoned : List Nat
  /-- The number that the next accepted product takes (R172). -/
  prodNext  : Word
  /-- The product queue, oldest first, at most 256 entries (R176). -/
  prodQueue : List Product
  /-- Accepted products, newest first: the owners of lines that g5 describes (R59). -/
  products  : List Product
  /-- The next repeat k of continuous layout to be numbered (R175). -/
  prepNext  : Option Nat
  /-- Lines E at which the clock is to hold, since a plane-band read at E was not ready at R + 64 (R114). -/
  holds     : List Nat
  /-- The line E at which a feed hold stands (R179). -/
  holdAt    : Option Nat
  /-- The forward motions that brought P to a line at or above H + 1, newest first: the tick, and P before and
  after it (R152). -/
  crossed   : List (Nat × BitVec 96 × BitVec 96)
  /-- The last motion of P: its tick, and whether it was forward (R150, R152). -/
  moved     : Option (Nat × Bool)
  /-- A stop of firmware or a trip has ended the feed sequence (R361). -/
  feedOff   : Bool
  /-- The plane-band at E is ready and the axis accelerates toward it (R179). -/
  resuming  : Bool
  /-- The instant of the last trigger per camera, the pulses not yet begun, and the beginning of the pulse
  that a CAMTRIG output carries (R177, R178). -/
  camLast   : Tbl (Option Nat)
  camSched  : Tbl (List Nat)
  camHigh   : Tbl (Option Nat)
deriving DecidableEq, Repr

/-- A pulse of a FIRE output (R158, R160): its line event, strobe or mark, its first instant and its
width in ticks. -/
structure Pulse where
  line  : Nat
  mark  : Bool
  start : Nat
  width : Nat
deriving DecidableEq, Repr

/-- The firing sequencer behind its registers (R158 to R171). -/
structure FsSt where
  /-- Pulses not yet begun, per hub, and the pulse in progress. -/
  sched    : Tbl (List Pulse)
  high     : Tbl (Option Pulse)
  /-- The instant at which the last pulse given to the hub ends. -/
  lastEnd  : Tbl (Option Nat)
  /-- The line event at which the hold of R161 is released. -/
  release  : Tbl (Option Nat)
  /-- Gating inputs that have qualified once since reset, and their qualified levels; 16 is
  SAFE_REQ_N (R168). -/
  gateSeen : Tbl Bool
  gateHigh : Tbl Bool
deriving DecidableEq, Repr

/-- One donation of a receiver index (R133): donor, receiver, weight. -/
structure Donation where
  donor : Nat
  recv  : Nat
  k     : Nat
deriving DecidableEq, Repr

/-- The receiver index of a table copy and the records that it treats as SPARE (R129, R133). -/
structure RecvIndex where
  donations : List Donation
  spares    : List Nat
deriving DecidableEq, Repr

/-- One slot of a packet set, as latched at its line event (R144): the line read, the derating state,
the table copy and the matrix. -/
structure SetSlot where
  slot   : Nat
  line   : Int
  derate : Bool
  copy   : Nat
  msel   : Nat
deriving DecidableEq, Repr

/-- A packet set: the line event it belongs to, PER at it, and its slots (R144). -/
structure PacketSet where
  line    : Nat
  per     : Nat
  lead    : Nat
  dwc     : Nat
  slots   : List SetSlot
deriving DecidableEq, Repr

/-- An epoch switch under way (R146): T, the NEXT values taken at acceptance, and the slots enabled
since. -/
structure EpochSwitch where
  target : Nat
  msel   : List Nat
  late   : List Nat
deriving DecidableEq, Repr

/-- A head slot as the dose stage reads it (R124, R130, R145). -/
structure SlotSt where
  /-- The slot is enabled: it reads lines. -/
  reading : Bool
  /-- Its first line since it was enabled is still to be computed. -/
  first   : Bool
  /-- The last line whose read period has begun. -/
  last    : Option Int
deriving DecidableEq, Repr

/-- The dose stage behind its registers and tables. -/
structure DsSt where
  slots    : Tbl SlotSt
  /-- GT and OT as latched, at keys 2 × beam and 2 × beam + 1. -/
  latched  : Tbl (BitVec 16)
  /-- Packet sets: the one in progress and the one that waits (R156). -/
  sets     : List PacketSet
  /-- A commit being built, with its T (R145), and the switch under way. -/
  building : Option Nat
  switch   : Option EpochSwitch
  /-- Receiver indices of table copies 0 and 1. -/
  index0   : RecvIndex
  index1   : RecvIndex
deriving DecidableEq, Repr

/-- A DOSE packet formed for one slot line (R191). -/
structure DosePkt where
  fln     : Nat
  slot    : Nat
  delay   : Nat
  dwc     : Nat
  epoch   : Bool
  derate  : Bool
  payload : List Byte
deriving DecidableEq, Repr

/-- What a lane has sent and its hub has not acknowledged: SEQ, the FLN that an ACK must reach, and what
it was (R197, R199). -/
inductive SentKind where
  /-- A DOSE packet: slot, DELAY, DWC, EPOCH and DRT; its payload is in the replay region. -/
  | dose (slot delay dwc : Nat) (epoch derate : Bool)
  | cfgw
  | frac (slot : Nat) (epoch : Bool)
  | lanes
deriving DecidableEq, Repr

structure Sent where
  seq  : Nat
  fln  : Nat
  /-- The instant from which it is overdue (R200). -/
  due  : Nat
  kind : SentKind
deriving DecidableEq, Repr

/-- The values of a hub's CAP 0 to 3 (R189). -/
structure CapVal where
  rates : Nat
  dws   : Nat
  pbd   : Bool
  maxlr : Nat
  depth : Nat
  hubid : Nat
deriving DecidableEq, Repr

/-- A lane of the dose link behind its registers (R181 to R206). -/
structure LaneSt where
  /-- Phase 6 of bring-up, which STATE shows as 5. -/
  align    : Bool
  /-- Tick at which STATE or the phase last changed. -/
  since    : Nat
  /-- Payloads of the control blocks that the lane transmits in its phase, in order, over again (R188). -/
  ctl      : List Nat
  /-- Rate codes left out of phase 4 after a failed phase 5. -/
  excluded : List Nat
  /-- Per CAP index: the last value received and how often in a row. -/
  caps     : Tbl (Nat × Nat)
  /-- The hub's values as of the lane's last completed phase 3. -/
  held     : Option CapVal
  /-- The rate being stepped to. -/
  target   : Nat
  /-- SEQ of the next packet. -/
  seq      : Nat
  /-- DOSE packets waiting to be sent. -/
  queue    : List DosePkt
  window   : List Sent
  /-- Highest FLN sent, and the last ACK accepted. -/
  topFln   : Option Nat
  lastAck  : Option Nat
  /-- It failed and restarts by itself after 10 ms (R204). -/
  restart  : Bool
  /-- This bring-up follows a failure; and the tick at which such a lane became READY. -/
  rejoin   : Bool
  joined   : Option Nat
  /-- Tick of the last lane CRC error (R430). -/
  lastCrc  : Option Nat
  /-- HEARTBEATs received in this line period (R206). -/
  beats    : Nat
  /-- A SYNC_ERR awaits its SYNC at the next line event. -/
  syncErr  : Bool
  /-- The last packet sent: its type, and its body with the trailer. -/
  txType   : Nat
  tx       : List Byte
deriving DecidableEq, Repr

/-- A hub behind its registers. -/
structure HubSt where
  /-- CTRL LANES to be sent: its argument. -/
  toSend    : Option Nat
  /-- The assignment that applies from an LN on (R195). -/
  assign    : Option (Nat × Nat)
  hubid     : Nat
  /-- Line events since the last STATUS, and the 64-line interval of the last one used (R198). -/
  statusAge : Nat
  statusIvl : Option Nat
  /-- The lane on which the CFGW in progress was sent. -/
  cfgwLane  : Nat
  /-- Tick of the last intact packet from the hub, or of its coming online (R205). -/
  heard     : Nat
deriving DecidableEq, Repr

/-- The dose link. -/
structure DlSt where
  lanes : Tbl LaneSt
  hubs  : Tbl HubSt
deriving DecidableEq, Repr

end Sys2Proof.Machine
end

