-- ==== Sys2Proof/Machine/Parts/Raster.lean ====
section
/-!
DEFINITION. Internal state of the expansion cores, the admission unit and the band assembler.
-/

namespace Sys2Proof.Machine

/-- REP under way (R69): addresses of the first word of the body and of the word after it, and the
iterations left, the one running included. -/
structure RepSt where
  first : Word
  after : Word
  left  : Nat
deriving DecidableEq, Repr

/-- Which tile: plane, first LN of the band, tile column. -/
structure TileKey where
  plane : Nat
  band  : Nat
  col   : Nat
deriving DecidableEq, Repr

/-- A tile buffer handed over at TEND, at the metering stop or at the illegal-instruction stop (R58,
R70): the buffer, the tile, its CRC and its status. -/
structure Handed where
  buf     : Bool
  tile    : TileKey
  crc     : Word
  illegal : Bool
  overrun : Bool
  vmiss   : Byte
deriving DecidableEq, Repr

/-- An expansion core (R36, R40, R58, R59). Its data memory and tile buffers are in device memory. -/
structure XcSt where
  g       : Tbl Word
  pc      : Word
  /-- Lane i of v[n] at key 32 × n + i. -/
  v       : Tbl Byte
  /-- Word i of s[n] at key 4 × n + i. -/
  sp      : Tbl Word
  level   : Byte
  vmiss   : Byte
  /-- The current tile buffer: false at 0x3_8000, true at 0x3_C000. -/
  buf     : Bool
  /-- The tile in progress. -/
  tile    : Option TileKey
  /-- g1, g2, g3 and g5 as they were at tile start. -/
  start1  : Word
  start2  : Word
  start3  : Word
  start5  : Word
  /-- Windows of the tile are filled, and the readiness latched for them (R85, R86). -/
  windows : Bool
  ready   : Byte
  /-- Cycles metered, and the declared cost (R71). -/
  cycles  : Nat
  cost    : Nat
  rep     : Option RepSt
  /-- The fetch area of the next tile: false A, true B (R95). -/
  area    : Bool
  handed  : Option Handed
deriving DecidableEq, Repr

/-- How far one render of a tile has come. -/
inductive RenderPhase where
  | queued
  | fetched (area : Bool)
  | running
  | handed
  | delivered
deriving DecidableEq, Repr

/-- One render of a tile on one core (R102, R110). -/
structure Render where
  core    : Nat
  phase   : RenderPhase
  crc     : Word
  illegal : Bool
  overrun : Bool
  vmiss   : Byte
  bytes   : Tbl Byte
deriving DecidableEq, Repr

/-- What has become of a tile: still open, accepted, or released as zero dose (R110, R112). -/
inductive TileFate where
  | waiting
  | accepted
  | zero
deriving DecidableEq, Repr

/-- A product that a tile refers to: its number and its origin LN. -/
structure ProdRef where
  num    : Word
  origin : Nat
deriving DecidableEq, Repr

/-- A tile from its dispatch until its plane-band leaves the coverage store (R93, R101, R103). -/
structure TileSt where
  key      : TileKey
  job      : Nat
  blank    : Bool
  cost     : Nat
  entry    : Nat
  fl       : Nat
  dofs     : Nat
  fw       : Bool
  g5       : Word
  p0       : Option ProdRef
  p1       : Option ProdRef
  /-- Readiness latched for window w = 4 × q + f. -/
  ready    : Byte
  /-- The fetch data carried an uncorrectable error (R110). -/
  fetchBad : Bool
  renders  : List Render
  fate     : TileFate
  vmiss    : Byte
  /-- The tile slot of the coverage store that the tile occupies, from its render start on (R103). -/
  slot     : Option Nat
  /-- The draw of the field bits that no bitmap in the store gives: one for all renders (R90). -/
  bits     : Nat
deriving DecidableEq, Repr

/-- The readiness latch of a product's four fields (R84). -/
structure FieldLatch where
  prod  : ProdRef
  /-- The product is of a triggered job, and the lane that it is in. -/
  trig  : Bool
  lane  : Nat
  ready : BitVec 4
deriving DecidableEq, Repr

/-- A product lane of a triggered job (R91). -/
structure LaneDef where
  x0    : Nat
  x1    : Nat
  sdist : Nat
  tpl   : Nat
  /-- LEN of the template (R97); 0 until it is read. -/
  len   : Nat
deriving DecidableEq, Repr

/-- The fields of a job header (R91). -/
structure JobHdr where
  feed     : Bool
  trig     : Bool
  dwc      : Nat
  npl      : Nat
  lead     : Nat
  fdecl    : Nat
  blay     : Nat
  ncyc     : Nat
  origin   : Nat
  endLn    : Nat
  bdt      : Nat
  vfw      : Nat
  widths   : List Nat
  lanes    : List LaneDef
deriving DecidableEq, Repr

/-- What the Setter keeps of a checked job (R106, R114, R120). -/
structure JobSt where
  hdr     : JobHdr
  /-- Declared sums of each window of the cycle: Σ (COST + 64) and fetch bytes. -/
  sums    : List (Nat × Nat)
  dMax    : Nat
  fMax    : Nat
  cMax    : Nat
  /-- The lowest of f_d, f_t, f_dw, f_link and f_hub. -/
  fOther  : Nat
  /-- OMIN and OMAX of the job's planes as the slots stood at its admission (R99, R122). -/
  omins   : List Nat
  omaxs   : List Nat
  /-- GO_LN of an accepted START. -/
  goLn    : Nat
  /-- First LN that the job does not render: END, a RELEASE or a seam. -/
  stopLn  : Nat
deriving DecidableEq, Repr

/-- The admission unit and the band assembler. -/
structure AdmSt where
  jobs     : Tbl (Option JobSt)
  tiles    : List TileSt
  /-- Σ (COST + 64) and fetch bytes dispatched, at key 2 × window + slot (R114). -/
  spent    : Tbl (Nat × Nat)
  /-- Core-cycles of third renders started, per window (R111). -/
  third    : Tbl Nat
  latches  : List FieldLatch
  /-- The number of the next product to be latched (VS_OLDEST). -/
  vsNext   : Word
  /-- Jobs that have ended, newest first, as far back as a line of theirs can still be matched. -/
  past     : List JobSt
  /-- Ncap has changed since the last band boundary (R120). -/
  ratePend : Bool
deriving DecidableEq, Repr

end Sys2Proof.Machine
end

