-- ==== Sys2Proof/Machine/Parts/Safety.lean ====
section
/-!
DEFINITION. Internal state of the safety island and of fault collection.
-/

namespace Sys2Proof.Machine

/-- A fault as a block raises it (R417, R418). -/
structure FaultIn where
  code : BitVec 16
  inst : BitVec 8
  info : BitVec 48
  /-- This event made its source lasting (R420). -/
  lasting : Bool
  /-- This fault causes the safe state (R418). -/
  safe : Bool
deriving DecidableEq, Repr

/-- A fault record (R418); its CRC is formed when it is written. -/
structure FaultRec where
  code    : BitVec 16
  inst    : BitVec 8
  lasting : Bool
  safe    : Bool
  loss    : Bool
  seq     : BitVec 32
  time    : BitVec 64
  ln      : BitVec 64
  info    : BitVec 48
deriving DecidableEq, Repr

/-- A REARM delay under way, and what ends it (R411, R412, R493). -/
inductive Rearm where
  | none
  | release
  | inhibit
deriving DecidableEq, Repr

/-- A job window held by the Sagger (R415): job slot, first LN and first LN after it. -/
structure JobWin where
  slot : Nat
  lo   : Nat
  hi   : Nat
deriving DecidableEq, Repr

/-- The safety island (R403 to R424, R493, R494). -/
structure SiSt where
  /-- The fault queue of each block, at most eight entries. -/
  queues    : Tbl (List FaultIn)
  /-- Faults of the block were lost: its next record carries LOSS. -/
  blkLoss   : Tbl Bool
  seq       : BitVec 32
  /-- The internal queue, at most 512 records. -/
  intq      : List FaultRec
  intLoss   : Bool
  /-- Danger lines asserted and not yet acted on. -/
  danger    : List FaultIn
  /-- Dangerous faults received since the safe state was entered that have not cleared (R411). -/
  open_     : List FaultIn
  /-- A dangerous fault has become lasting since power-on reset. -/
  lasting   : Bool
  /-- Times of counted events, per source, at key 256 × code + instance (R420). -/
  windows   : Tbl (List Nat)
  /-- Sources, by the same keys, that have become lasting and have not returned to service (R420). -/
  lastingSrc : List Nat
  /-- The Sagger program runs (R468). -/
  running   : Bool
  /-- The enables have been raised after start-up (R493). -/
  armed     : Bool
  /-- The voted enable calls for FIRE_EN_A high and FIRE_EN_B_N low. -/
  enable    : Bool
  /-- The dynamic enable is latched high (R409), and the last valid SI_ENB value. -/
  enbLatch  : Bool
  enbLast   : Option Bool
  /-- Tick of the last valid SI_ENB write, or of the raising of the enables. -/
  enbTime   : Nat
  /-- Level of SAFE_STATE_N. -/
  safeN     : Bool
  /-- Last SI_WDG value: none yet, false 0x00A5, true 0x005A; its time; the trip (R407). -/
  wdgLast   : Option Bool
  wdgTime   : Nat
  wdgTrip   : Bool
  rearm     : Rearm
  /-- Tick at which the REARM delay of a release began, and the last tick in which an INHIBIT input was
  active or a dangerous fault was received (R411, R412, R493). -/
  rearmAt   : Nat
  since     : Nat
  /-- The core being resynchronised, and cores left out for good (R405, R406). -/
  resync    : Option Nat
  left      : List Nat
  /-- Tick of the disagreement that the resynchronisation follows. -/
  resyncAt  : Nat
  /-- Cores into which the latent test of the voter is still to inject a disagreement (R424 row 4). -/
  inject    : List Nat
  /-- Tick at which the latent test of the enables ends its drive (R424 row 1). -/
  blank     : Option Nat
  /-- Two cores of a pair have disagreed, and every output of the pair is held inactive (R406). -/
  pairHeld  : Bool
  /-- Tick since which the qualified inputs of a pair have differed, or have agreed (R413, R494). -/
  pairAt    : Tbl Nat
  /-- Tick of the last fault that the collector took (R417). -/
  takenAt   : Option Nat
  /-- Windows sent and not yet acknowledged, and windows in use (R415). -/
  winSent   : Tbl (Option JobWin)
  winHeld   : Tbl (Option JobWin)
  /-- Last valid heartbeat SEQ per control core; none: any SEQ may follow (R423). -/
  hbSeq     : Tbl (Option (BitVec 16))
  /-- Tick of the last valid heartbeat of a core, or of the setting of its bit. -/
  hbAt      : Tbl Nat
deriving DecidableEq, Repr

end Sys2Proof.Machine
end

