-- ==== Sys2Proof/Machine/Parts/Time.lean ====
section
/-!
DEFINITION. Internal state of the timebase and of the Ethernet ports.
-/

namespace Sys2Proof.Machine

/-- A time pulse output behind its registers (R390): the number k of its next target, and the flat time
at which the pulse in progress ends. -/
structure TpSt where
  next  : Nat
  endAt : Nat
deriving DecidableEq, Repr

/-- The timebase (R383 to R392). -/
structure TbSt where
  /-- S, NS and FR. -/
  sec  : Nat
  ns   : Nat
  fr   : Nat
  /-- INC in units of 2^-32 ns. -/
  inc  : Nat
  /-- Steps to be performed in the next tick: S and NS of a set, the sum of the adjustments. -/
  set  : Option (Nat × Nat)
  adj  : Option Int
  /-- The last cross-stamp: fraction, flat view and the cycle counts. -/
  xsFr   : Nat
  xsFlat : Nat
  xsCyc  : List Nat
  /-- The tick of the next periodic cross-stamp. -/
  xsNext : Nat
  /-- Compare units enabled in the tick under way: they compare from the next (R389). -/
  cmpNew : List Nat
  tp   : Tbl TpSt
deriving DecidableEq, Repr

/-- What the two Ethernet ports last sent, each frame with its FCS. -/
structure EnSt where
  sent : Tbl (List Byte)
deriving DecidableEq, Repr

end Sys2Proof.Machine
end

