-- ==== Sys2Proof/Machine/Parts/Vision.lean ====
section
/-!
DEFINITION. Internal state of the camera receiver, the image pipes and the verification engine.
-/

namespace Sys2Proof.Machine

/-- What has become of an entry of a trigger queue (R211 to R213). -/
inductive EntryState where
  | pending
  /-- A complete line is in this buffer slot; its first padded pixel. -/
  | received (slot pad : Nat)
  /-- Unverified: REASON of R240. -/
  | unverified (reason : Nat)
deriving DecidableEq, Repr

/-- An entry of a port's trigger queue: the trigger's LN and tick. -/
structure CamEntry where
  ln    : Nat
  tick  : Nat
  state : EntryState
deriving DecidableEq, Repr

/-- The frame that a port is receiving. -/
inductive FrameSt where
  /-- Between frames. -/
  | none
  /-- Lines so far, and whether one of them has been matched. -/
  | lines (n : Nat) (synced : Bool)
  /-- The rest of the frame is dropped. -/
  | dropped
deriving DecidableEq, Repr

/-- A mailbox transaction under way (R222): address, length, write, the bytes that a write sends, and the
tick of the last send or wait acknowledgement. -/
structure MbxSt where
  addr  : Nat
  len   : Nat
  write : Bool
  data  : List Byte
  since : Nat
deriving DecidableEq, Repr

/-- A camera port behind its registers (R208 to R217). -/
structure PortSt where
  queue   : List CamEntry
  frame   : FrameSt
  /-- Samples received of the line under way; none: no slot taken. -/
  samples : List (BitVec 16)
  /-- A packet of the line under way was discarded (R210). -/
  spoiled : Bool
  /-- Samples already received of the lines after it, and whether a packet of theirs was discarded. -/
  ahead   : List (List (BitVec 16) × Bool)
  /-- The line under way found no free slot (R214). -/
  noSlot  : Bool
  /-- Entries of the stripe being served. -/
  served  : Nat
  mbx     : Option MbxSt
  /-- Camera event packets acknowledged and discarded (R208). -/
  events  : Nat
deriving DecidableEq, Repr

/-- The camera receiver. -/
structure CxrSt where
  ports    : Tbl PortSt
  checking : Bool
deriving DecidableEq, Repr

/-- An ROI that captures a frame (R245, R246). -/
structure RoiSt where
  active   : Bool
  lines    : Nat
  firstLn  : Nat
  lastLn   : Nat
  unv      : Bool
  index    : Nat
  /-- Frames begun. -/
  seq      : Nat
  /-- Headers of frames that have ended, waiting to be accepted by DRAM: address, bytes, SEQ, index. -/
  headers  : List (Nat × List Byte × Nat × Nat)
  /-- The oldest header has been written, and its write waits for DRAM. -/
  sent     : Bool
deriving DecidableEq, Repr

/-- The preview carry of a table set (R239): lines accumulated in the row, its sums, its first LN, whether
it is unverified, and PVK and the crop as the row uses them. -/
structure PvCarry where
  lines : Nat
  sums  : Tbl Nat
  ln    : Nat
  unv   : Bool
  key   : Nat × Nat
deriving DecidableEq, Repr

/-- A pipe's context for a camera (R239). -/
structure PipeCtx where
  /-- FMT and W as of the last switch to the camera; W is 0 before the first one since EN was set. -/
  fmt     : Nat
  w       : Nat
  /-- The table set, 4 × pipe + TSET, whose carry the preview uses; none: the next line begins a row. -/
  pvAt    : Option Nat
  /-- Preview rows that wait to be accepted by DRAM. -/
  pvRows  : List (List Byte)
  /-- The oldest row has been written, at this address and offset of the ring, and its writes wait for DRAM. -/
  pvSent  : Option (Nat × Nat)
  rois    : Tbl RoiSt
  /-- Line sequence number of the verification stream. -/
  seq     : Nat
deriving DecidableEq, Repr

/-- The stripe that a pipe serves (R218, R237): its camera and table set, the set-parameter halfwords read
at its start, the tick of its grant, the cycles of its context switch and of each line, the lines processed so
far, and whether its port has stopped since. -/
structure PipeWork where
  cam    : Nat
  tset   : Nat
  params : List Nat
  since  : Nat
  switch : Nat
  lineCost : Nat
  line   : Nat
  left   : Bool
deriving DecidableEq, Repr

/-- The image pipes. -/
structure IpSt where
  work    : Tbl (Option PipeWork)
  /-- Preview carries, by 4 × pipe + table set. -/
  carry   : Tbl PvCarry
  ctx     : Tbl PipeCtx
  /-- The camera of the pipe's previous stripe. -/
  prev    : Tbl (Option Nat)
deriving DecidableEq, Repr

/-- A line record of the verification stream (R240). -/
structure LineRec where
  ln      : Nat
  cam     : Nat
  unv     : Bool
  rgb     : Bool
  reason  : Nat
  pad     : Nat
  w       : Nat
  uvr     : List (Nat × Nat)
  seq     : Nat
  samples : List Nat
deriving DecidableEq, Repr

/-- A line accepted into a camera's alignment ring; its samples are in DRAM (R260). -/
structure RingLine where
  row    : Int
  ln     : Nat
  unv    : Bool
  reason : Nat
  pad    : Nat
  w      : Nat
  ch     : Nat
  uvr    : List (Nat × Nat)
deriving DecidableEq, Repr

/-- A defect record as emitted (R271); SEQ, LOSS and CRC are formed when it is written. -/
structure Defect where
  kind    : Nat
  /-- Bits 4 to 11 of bytes 0 and 1. -/
  flags   : Nat
  src     : Nat
  cls     : Nat
  ln0     : Int
  ln1     : Int
  x0      : Nat
  x1      : Nat
  product : Nat
  time    : Nat
  ext     : Nat
  area    : Nat
  peak    : Nat
  mean    : Nat
  cdot    : Nat
  cline   : Nat
deriving DecidableEq, Repr

/-- An open component or unverified region (R269, R270, R274). -/
structure Region where
  /-- DEFECT: 1 EXTRA, 2 MISSING; UNVERIFIED: the cause. -/
  cls    : Nat
  cam    : Nat
  /-- Runs in the last row, by web pixels, which DXA may place below 0 (R258). -/
  runs   : List (Int × Int)
  k0     : Int
  k1     : Int
  rows   : Nat
  lo     : Int
  hi     : Int
  area   : Nat
  peak   : Nat
  sumDev : Nat
  sumW   : Int
  sumK   : Int
  margin : Bool
  masked : Bool
  contd  : Bool
  time   : Nat
deriving DecidableEq, Repr

/-- An open gap of a hub (R275): first fire line withheld, cause, time. -/
structure GapSt where
  line : Nat
  cls  : Nat
  time : Nat
  /-- The slots for which the OPEN record was emitted. -/
  slots : List Nat
deriving DecidableEq, Repr

/-- The verification engine and the BQ writer (R251 to R282). -/
structure VeSt where
  /-- Plane-bands (plane, first line) whose rows are written and not all accepted: their tags wait (R253). -/
  bqSent   : List (Nat × Nat)
  /-- Line records handed over and not yet accepted. -/
  inbox    : List LineRec
  ring     : Tbl (List RingLine)
  /-- The next stitched row. -/
  nextRow  : Option Int
  /-- Rows processed since the last registration step and in this health interval. -/
  rowsStep   : Nat
  rowsHealth : Nat
  comps    : List Region
  regions  : List Region
  sat      : Option Region
  /-- Tracker sums: camera × 4 + patch → SAD of each candidate, and pixels taken (R262). -/
  sad      : Tbl (List Nat)
  taken    : Tbl Nat
  /-- Per slot: the highest fire line whose bit has been read (R255). -/
  read     : Tbl (Option Int)
  /-- A row with a matching tag has been read since EN was set (R254). -/
  matched  : Bool
  /-- Records emitted and not yet written or queued, and the queue of 1,024 (R277). -/
  emitted  : List Defect
  waiting  : List Defect
  recSeq   : Nat
  loss     : Bool
  /-- Stamps of the last 16,384 line events, newest first (R393). -/
  stamps   : List (Nat × Nat)
  gaps     : Tbl (Option GapSt)
  /-- An open run of skipped or abandoned lines: first, last, class, time (R155, R156). -/
  skip     : Option (Nat × Nat × Nat × Nat)
  /-- Products and fields for which a VARMISS record was emitted (R275). -/
  missed   : List (Nat × Nat)
deriving DecidableEq, Repr

end Sys2Proof.Machine
end

