-- ==== Sys2Proof/Machine/State.lean ====
section
/-!
DEFINITION. The state of the device, its reset, and why a command can stop.
-/

namespace Sys2Proof.Machine

/-- Why the machine stops. No command of this device does: every error that the spec describes has an
effect that the spec states (a fault record, an ignored access, an exception of a core), which is a
next state. -/
inductive Fault where
deriving DecidableEq, Repr

/-- Why a command has no meaning here. -/
inductive Refusal where
  /-- Raised by the dispatch for a command whose meaning is not written yet, with its mnemonic. Safe. -/
  | notModelled (mnemonic : String)
deriving DecidableEq, Repr

/-- The state of the device. Everything a register shows lives in `regs`; everything a memory holds in
`mem`; the other fields are what the spec gives the blocks beside them. -/
structure State where
  /-- Commands waiting, first in, first out. -/
  pending : List Instr
  /-- AO ticks passed since power-on. -/
  now     : Nat
  /-- The next draw of a free value. -/
  freeIx  : Nat
  /-- BAR0 registers that differ from their reset values, by offset. -/
  regs    : Tbl Word
  /-- DRAM, on-chip SRAM and host memory by device physical address: the bytes that are not zero. -/
  mem     : List Host.Cell
  /-- Poisoned 64-byte lines, by address / 64 (R309). -/
  poison  : Tbl Bool
  /-- The control cores' data caches, which are coherent with one another (R45). -/
  dcache  : List CacheLine
  top     : TopSt
  hi      : HiSt
  cc      : Tbl IsSt
  sg      : IsSt
  xc      : Tbl XcSt
  adm     : AdmSt
  si      : SiSt
  ck      : CkSt
  boot    : BootSt
  dma     : Tbl DmaCh
  st      : StSt
  lc      : LcSt
  fs      : FsSt
  ds      : DsSt
  dl      : DlSt
  cxr     : CxrSt
  ip      : IpSt
  ve      : VeSt
  tb      : TbSt
  en      : EnSt
  mx      : Tbl AxSt
  qe      : Tbl QeSt
  le      : LeSt
  mc      : McSt
  cv      : Tbl CvSt
deriving DecidableEq, Repr

/-- A core in reset (R27, R47). -/
def IsSt.reset : IsSt :=
  { g := [], pc := 0, sr := [], cycle := 0, instret := 0, cycleHi := 0, instretHi := 0,
    wfi := false, running := false, prior := 0, icache := [] }

/-- An expansion core that has run no tile. -/
def XcSt.reset : XcSt :=
  { g := [], pc := 0, v := [], sp := [], level := 255, vmiss := 0, buf := false, tile := none,
    start1 := 0, start2 := 0, start3 := 0, start5 := 0, windows := false, ready := 0, cycles := 0,
    cost := 0, rep := none, area := false, handed := none }

def AdmSt.reset : AdmSt :=
  { jobs := [], tiles := [], spent := [], third := [], latches := [], vsNext := 0, past := [],
    ratePend := false }

def SiSt.reset : SiSt :=
  { queues := [], blkLoss := [], seq := 0, intq := [], intLoss := false, danger := [], open_ := [],
    lasting := false, windows := [], lastingSrc := [], running := false, armed := false, enable := false,
    enbLatch := false, enbLast := none, enbTime := 0, safeN := false, wdgLast := none, wdgTime := 0,
    wdgTrip := false, rearm := .none, rearmAt := 0, since := 0, resync := none, left := [],
    resyncAt := 0, inject := [], blank := none, pairHeld := false, pairAt := [], takenAt := none, winSent := [], winHeld := [],
    hbSeq := [], hbAt := [] }

def DmaCh.reset : DmaCh :=
  { desc := none, raw := none, owns := false, fetched := false, moved := 0, result := 0, late := false, flight := [] }

/-- Configuration space out of reset (R316). -/
def PciCfg.reset : PciCfg :=
  { device := 0xB262, rev := 0xB0, cls := 0x118000, intPin := 0, dState := 0, mps := 128, mrrs := 512, timeLo := 50,
    timeHi := 50000, aspmL1 := false, aer := [] }

def CvSt.reset : CvSt := { fifo := [], wroteAt := 0 }

def LcSt.reset : LcSt :=
  { src := 0, unit := 0, ratio := 0, pos := 0, maxPos := 0, hwm := 0xFFFFFFFFFFFFFFFF, due := none, lastEmit := none, perFresh := true,
    tadmNext := 0, calm := 0, skipRun := none, abandoned := [], prodNext := 0, prodQueue := [],
    products := [], prepNext := none, holds := [], holdAt := none, crossed := [], moved := none,
    feedOff := false, resuming := false, camLast := [], camSched := [], camHigh := [] }

def FsSt.reset : FsSt :=
  { sched := [], high := [], lastEnd := [], release := [], gateSeen := [], gateHigh := [] }

def RecvIndex.empty : RecvIndex := { donations := [], spares := [] }

def SlotSt.reset : SlotSt := { reading := false, first := false, last := none }

def DsSt.reset : DsSt :=
  { slots := [], latched := [], sets := [], building := none, switch := none,
    index0 := RecvIndex.empty, index1 := RecvIndex.empty }

def LaneSt.reset : LaneSt :=
  { align := false, since := 0, ctl := [], excluded := [], caps := [], held := none, target := 0, seq := 0, queue := [],
    window := [], topFln := none, lastAck := none, restart := false, rejoin := false, joined := none, lastCrc := none,
    beats := 0, syncErr := false, txType := 0, tx := [] }

def HubSt.reset : HubSt :=
  { toSend := none, assign := none, hubid := 0, statusAge := 0, statusIvl := none, cfgwLane := 0, heard := 0 }

def PortSt.reset : PortSt :=
  { queue := [], frame := .none, samples := [], spoiled := false, ahead := [], noSlot := false, served := 0,
    mbx := none, events := 0 }

def RoiSt.reset : RoiSt :=
  { active := false, lines := 0, firstLn := 0, lastLn := 0, unv := false, index := 0, seq := 0,
    headers := [], sent := false }

def PipeCtx.reset : PipeCtx :=
  { fmt := 0, w := 0, pvAt := none, pvRows := [], pvSent := none, rois := [], seq := 0 }

def PvCarry.empty : PvCarry := { lines := 0, sums := [], ln := 0, unv := false, key := (0, 0) }

def VeSt.reset : VeSt :=
  { bqSent := [], inbox := [], ring := [], nextRow := none, rowsStep := 0, rowsHealth := 0,
    comps := [], regions := [], sat := none, sad := [], taken := [], read := [], matched := false,
    emitted := [],
    waiting := [], recSeq := 0, loss := false, stamps := [], gaps := [], skip := none, missed := [] }

/-- R383: time zero, INC 10 ns. -/
def TbSt.reset : TbSt :=
  { sec := 0, ns := 0, fr := 0, inc := 10 * 2 ^ 32, set := none, adj := none, xsFr := 0, xsFlat := 0,
    xsCyc := [], xsNext := 131072, cmpNew := [], tp := [] }

def TpSt.reset : TpSt := { next := 0, endAt := 0 }

def AxSt.reset : AxSt :=
  { p := 0, v := 0, run := .idle, lastStep := none, stepUp := false, dirPos := false, dirAt := none, frame := 0,
    frameAt := none, relAt := [], searchAt := 0, travel := 0, off := false }

def QeSt.reset : QeSt :=
  { held := false, a := false, b := false, edges := [], seen := false, last := none, counted := none, wireAt := 0,
    speed := none, total := 0 }

def LoopSt.reset : LoopSt :=
  { q := 0, active := false, prev := [], results := [], bad := 0, preload := false, cfg := 0 }

def TraceSt.reset : TraceSt := { count := 0, left := none, prev := none }

def LeSt.reset : LeSt :=
  { loops := [], traces := [], running := false, nextAt := 0, frame := 0, fired := false, held := [],
    latched := [] }

def RankSt.reset : RankSt :=
  { asked := 0, refAt := 0, zqAt := 0, ces := [], init := false, sreAt := 0, exitAt := 0, rows := [] }

def ChanSt.reset : ChanSt :=
  { gather := none, mig := none, temps := [], cmds := [], parity := [], wbuf := [], drain := false, sbRead := false }

/-- The device in power-on reset, PWRGOOD low: every register at the value R474 lists for it, every
memory cleared, no command waiting. -/
def State.reset : State :=
  { pending := [], now := 0, freeIx := 0, regs := [], mem := [], poison := [], dcache := [],
    top := { holdoff := [], requested := [], sent := [], fresh := [], again := [], rrPtr := [], answer := 0 },
    hi := { data := [], ep := false, queue := [], cfg := PciCfg.reset },
    cc := [], sg := IsSt.reset, xc := [], adm := AdmSt.reset, si := SiSt.reset,
    ck := { pwrgood := false, qualifying := none, entry := [], waking := [], woke := [], bothXtal := false, supAt := 0,
            early := none, lowered := [] },
    boot := { flashP := Config.flash false, flashS := Config.flash true, mode := none, csN := true, fuseSvn := 0, image := none,
              imageSvn := 0, verify := none, perst := false },
    dma := [], st := { tests := [], next := [], started := [], waiting := none },
    lc := LcSt.reset, fs := FsSt.reset, ds := DsSt.reset, dl := { lanes := [], hubs := [] },
    cxr := { ports := [], checking := false }, ip := { work := [], carry := [], ctx := [], prev := [] }, ve := VeSt.reset,
    tb := TbSt.reset, en := { sent := [] }, mx := [], qe := [], le := LeSt.reset,
    mc := { ranks := [], chans := [], waiting := [], granted := [], delays := [], freqTo := 0, answer := [], bad := false,
            scrubAt := 0, scrubT0 := 0 },
    cv := [] }

/-- What a command answers. -/
abbrev Out := Host.Outcome State Fault Refusal

end Sys2Proof.Machine
end

