-- ==== Sys2Proof/Machine/Ops.lean ====
section
/-!
DEFINITION. The named operations over registers, memory, free values, faults and events that every
block shares.
-/

namespace Sys2Proof.Machine

/-! ### Registers -/

/-- The contents of a register. -/
def State.reg (s : State) (off : Nat) : Word := s.regs.get (regReset off) off

/-- A register replaced. -/
def State.setReg (s : State) (off : Nat) (v : Word) : State :=
  { s with regs := s.regs.set (regReset off) off v }

/-- The value of a field. -/
def State.fld (s : State) (off : Nat) (f : Fld) : Nat := fldGet f (s.reg off)

/-- A one-bit field as a Bool. -/
def State.bit (s : State) (off : Nat) (f : Fld) : Bool := s.fld off f != 0

/-- A field replaced. -/
def State.setFld (s : State) (off : Nat) (f : Fld) (x : Nat) : State :=
  s.setReg off (fldPut f x (s.reg off))

/-- Bit `i` of a register. -/
def State.rbit (s : State) (off i : Nat) : Bool := (s.reg off).getLsbD i

/-- Bit `i` of a register replaced. -/
def State.setBit (s : State) (off i : Nat) (b : Bool) : State := s.setFld off ⟨i, 1⟩ (b2n b)

/-- A counter register, one more, saturating. -/
def State.count (s : State) (off : Nat) : State := s.setReg off (satInc (s.reg off))

/-- The number held in a LO and a HI register. -/
def State.reg64 (s : State) (lo hi : Nat) : Nat := (s.reg lo).toNat + (s.reg hi).toNat * 2 ^ 32

/-- A number put into a LO and a HI register. -/
def State.setReg64 (s : State) (lo hi x : Nat) : State :=
  (s.setReg lo (BitVec.ofNat 32 x)).setReg hi (BitVec.ofNat 32 (x / 2 ^ 32))

/-! ### One part of the state replaced -/

def State.onTop (s : State) (f : TopSt → TopSt) : State := { s with top := f s.top }
def State.onSi (s : State) (f : SiSt → SiSt) : State := { s with si := f s.si }
def State.onAdm (s : State) (f : AdmSt → AdmSt) : State := { s with adm := f s.adm }
def State.onCk (s : State) (f : CkSt → CkSt) : State := { s with ck := f s.ck }
def State.onBoot (s : State) (f : BootSt → BootSt) : State := { s with boot := f s.boot }
def State.onSt (s : State) (f : StSt → StSt) : State := { s with st := f s.st }
def State.onLc (s : State) (f : LcSt → LcSt) : State := { s with lc := f s.lc }
def State.onFs (s : State) (f : FsSt → FsSt) : State := { s with fs := f s.fs }
def State.onDs (s : State) (f : DsSt → DsSt) : State := { s with ds := f s.ds }
def State.onTb (s : State) (f : TbSt → TbSt) : State := { s with tb := f s.tb }
def State.onVe (s : State) (f : VeSt → VeSt) : State := { s with ve := f s.ve }
def State.onIp (s : State) (f : IpSt → IpSt) : State := { s with ip := f s.ip }
def State.xcAt (s : State) (x : Nat) : XcSt := s.xc.get XcSt.reset x
def State.onXc (s : State) (x : Nat) (f : XcSt → XcSt) : State :=
  { s with xc := s.xc.upd XcSt.reset x f }
def State.laneAt (s : State) (n : Nat) : LaneSt := s.dl.lanes.get LaneSt.reset n
def State.onLane (s : State) (n : Nat) (f : LaneSt → LaneSt) : State :=
  { s with dl := { s.dl with lanes := s.dl.lanes.upd LaneSt.reset n f } }
def State.hubAt (s : State) (k : Nat) : HubSt := s.dl.hubs.get HubSt.reset k
def State.onHub (s : State) (k : Nat) (f : HubSt → HubSt) : State :=
  { s with dl := { s.dl with hubs := s.dl.hubs.upd HubSt.reset k f } }
def State.portAt (s : State) (n : Nat) : PortSt := s.cxr.ports.get PortSt.reset n
def State.onPort (s : State) (n : Nat) (f : PortSt → PortSt) : State :=
  { s with cxr := { s.cxr with ports := s.cxr.ports.upd PortSt.reset n f } }
def State.ctxAt (s : State) (n : Nat) : PipeCtx := s.ip.ctx.get PipeCtx.reset n
def State.onCtx (s : State) (n : Nat) (f : PipeCtx → PipeCtx) : State :=
  { s with ip := { s.ip with ctx := s.ip.ctx.upd PipeCtx.reset n f } }
def State.dmaAt (s : State) (n : Nat) : DmaCh := s.dma.get DmaCh.reset n
def State.onDma (s : State) (n : Nat) (f : DmaCh → DmaCh) : State :=
  { s with dma := s.dma.upd DmaCh.reset n f }
def State.ccAt (s : State) (k : Nat) : IsSt := s.cc.get IsSt.reset k
def State.onCc (s : State) (k : Nat) (f : IsSt → IsSt) : State :=
  { s with cc := s.cc.upd IsSt.reset k f }

def State.axAt (s : State) (a : Nat) : AxSt := s.mx.get AxSt.reset a
def State.onAx (s : State) (a : Nat) (f : AxSt → AxSt) : State :=
  { s with mx := s.mx.upd AxSt.reset a f }
def State.qeAt (s : State) (q : Nat) : QeSt := s.qe.get QeSt.reset q
def State.onQe (s : State) (q : Nat) (f : QeSt → QeSt) : State :=
  { s with qe := s.qe.upd QeSt.reset q f }
def State.onLe (s : State) (f : LeSt → LeSt) : State := { s with le := f s.le }
def State.loopAt (s : State) (l : Nat) : LoopSt := s.le.loops.get LoopSt.reset l
def State.onLoop (s : State) (l : Nat) (f : LoopSt → LoopSt) : State :=
  { s with le := { s.le with loops := s.le.loops.upd LoopSt.reset l f } }

def State.cvAt (s : State) (u : Nat) : CvSt := s.cv.get CvSt.reset u
def State.onCv (s : State) (u : Nat) (f : CvSt → CvSt) : State :=
  { s with cv := s.cv.upd CvSt.reset u f }
def State.onMc (s : State) (f : McSt → McSt) : State := { s with mc := f s.mc }
def State.rankAt (s : State) (k : Nat) : RankSt := s.mc.ranks.get RankSt.reset k
def State.onRank (s : State) (k : Nat) (f : RankSt → RankSt) : State :=
  { s with mc := { s.mc with ranks := s.mc.ranks.upd RankSt.reset k f } }
def State.chanAt (s : State) (c : Nat) : ChanSt := s.mc.chans.get ChanSt.reset c
def State.onChan (s : State) (c : Nat) (f : ChanSt → ChanSt) : State :=
  { s with mc := { s.mc with chans := s.mc.chans.upd ChanSt.reset c f } }

/-- A fold over the numbers below a bound: hardware that acts on each of its instances in index
order. -/
def State.each (s : State) (n : Nat) (f : Nat → State → State) : State :=
  (List.range n).foldl (fun s i => f i s) s

/-! ### Free values -/

/-- The next draw: its number, and the state after it. -/
def State.draw (s : State) : Nat × State := (s.freeIx, { s with freeIx := s.freeIx + 1 })

/-! ### Rotating grants (R16): the keys of their pointers -/

def rrCore : Nat := 1
def rrFault : Nat := 2
def rrSem : Nat := 3
def rrBus : Nat := 4
def rrDma : Nat := 5
def rrDram (c : Nat) : Nat := 10 + c
def rrPort (p : Nat) : Nat := 20 + p
def rrStripe (p : Nat) : Nat := 100 + p

/-- A grant of a shared resource of `n` requesters: the pointer advances past the winner (R16). -/
def State.grant (s : State) (key n winner : Nat) : State :=
  s.onTop fun t => { t with rrPtr := t.rrPtr.set 0 key (rrNext n winner) }

/-- The requester index of a master at the register bus (R18). -/
def busIx : Master → Option Nat
  | .si => some 0
  | .cc k _ => some (1 + k.val)
  | .host => some 5
  | .dma _ => some 6
  | .st => some 7
  | .xc => none
  | .en _ => none

/-- One access of a master is granted the register bus; the queue of commands holds the accesses in the
order of their grants (R16, R18, R19). -/
def State.busGrant (s : State) (m : Master) : State :=
  match busIx m with
  | some i => s.grant rrBus 8 i
  | none => s

/-! ### Memory -/

/-- The byte at an address; a byte that nothing has written reads zero. -/
def memByte (m : List Host.Cell) (a : Nat) : Byte := Tbl.get m 0 a

/-- `n` bytes from an address. -/
def memRead (m : List Host.Cell) (a : Nat) : Nat → List Byte
  | 0 => []
  | n + 1 => memByte m a :: memRead m (a + 1) n

/-- The listed cells of bytes placed from an address: zero bytes are not listed. -/
def memCells (a : Nat) : List Byte → List Host.Cell
  | [] => []
  | b :: rest => if b = 0 then memCells (a + 1) rest else (a, b) :: memCells (a + 1) rest

/-- Bytes stored from an address. -/
def memStore (m : List Host.Cell) (a : Nat) (bs : List Byte) : List Host.Cell :=
  m.filter (fun c => c.1 < a) ++ memCells a bs ++ m.filter (fun c => a + bs.length ≤ c.1)

/-- `n` bytes cleared from an address. -/
def memClear (m : List Host.Cell) (a n : Nat) : List Host.Cell :=
  m.filter fun c => decide (c.1 < a) || decide (a + n ≤ c.1)

/-- `n` bytes copied from one address to another. -/
def memCopy (m : List Host.Cell) (src dst n : Nat) : List Host.Cell :=
  m.filter (fun c => c.1 < dst) ++
    (m.filter fun c => decide (src ≤ c.1) && decide (c.1 < src + n)).map
      (fun c => (dst + (c.1 - src), c.2)) ++
    m.filter (fun c => dst + n ≤ c.1)

/-- The canonical form of memory: addresses strictly rising, no zero byte listed. -/
def memWf (m : List Host.Cell) : Bool := Tbl.wf (fun _ => (0 : Byte)) m

def State.loadBytes (s : State) (a n : Nat) : List Byte := memRead s.mem a n

/-- A line is poisoned, by its address / 64 (R309). -/
def State.linePoisoned (s : State) (line : Nat) : Bool := s.poison.get false line

def State.setPoison (s : State) (line : Nat) : State := { s with poison := s.poison.set false line true }

/-- The poisoned lines that `n` bytes from an address touch. -/
def State.poisonIn (s : State) (a n : Nat) : List Nat :=
  (s.poison.filter fun e => e.2 && decide (a < 64 * e.1 + 64) && decide (64 * e.1 < a + n)).map (·.1)

/-- Bytes stored; a write that replaces a whole 64-byte line clears its poison (R309). -/
def State.storeBytes (s : State) (a : Nat) (bs : List Byte) : State :=
  { s with
    mem := memStore s.mem a bs,
    poison := s.poison.filter fun e => !(decide (a ≤ 64 * e.1) && decide (64 * e.1 + 64 ≤ a + bs.length)) }

/-- `n` bytes cleared: whole lines are written, and their poison goes. -/
def State.clearBytes (s : State) (a n : Nat) : State :=
  { s with
    mem := memClear s.mem a n,
    poison := s.poison.filter fun e => !(decide (a ≤ 64 * e.1) && decide (64 * e.1 + 64 ≤ a + n)) }

/-- A little-endian number of `n` bytes in memory (R2). -/
def State.loadNat (s : State) (a n : Nat) : Nat := leNat (s.loadBytes a n)

def State.storeNat (s : State) (a n x : Nat) : State := s.storeBytes a (leBytes n x)

/-- `n` free bytes stored from an address: what an unpredictable write leaves (R6). -/
def State.storeFree (s : State) (a n : Nat) : State :=
  let (d, s) := s.draw
  s.storeBytes a ((List.range n).map fun i => Config.freeByte d i)

/-! ### Events (R20 to R24) -/

/-- The block reports events: it has an event status register. -/
def hasEvents (blk : Nat) : Bool :=
  !([BLK_TOP, BLK_PROT, BLK_XC, BLK_BA, BLK_BQ, BLK_CC, BLK_BOOT].contains blk) && decide (blk < 27)

/-- The event status register of a block. -/
def evtReg (blk : Nat) : Nat :=
  blk * 0x100000 + (if blk = BLK_LC then 0x50 else if blk = BLK_ADM then 0x120 else 0x20)

/-- The enable register beside it. -/
def evtEnReg (blk : Nat) : Nat := evtReg blk + 4

/-- R20: the event is pending. -/
def State.evtPending (s : State) (blk n : Nat) : Bool :=
  hasEvents blk && s.rbit (evtReg blk) n && s.rbit (evtEnReg blk) n

/-- Hardware sets a W1C bit: a write of 1 in the same cycle does not clear it (R4). -/
def State.hwSet (s : State) (off i : Nat) : State :=
  (s.setBit off i true).onTop fun t => { t with
    fresh := t.fresh.upd 0 off (· ||| BitVec.ofNat 32 (2 ^ i)) }

/-- The MSI-X vector is masked, and its Pending Bit. -/
def State.vecMasked (s : State) (v : Nat) : Bool := s.bit (MSIX_CTRL v) MSIX_CTRL_MASK

def State.setPba (s : State) (v : Nat) (b : Bool) : State := s.setBit (MSIX_PBA (v / 32)) (v % 32) b

def State.pba (s : State) (v : Nat) : Bool := s.rbit (MSIX_PBA (v / 32)) (v % 32)

/-- The vector is within 1 µs of its last message (R22). -/
def State.inHoldoff (s : State) (v : Nat) : Bool :=
  match s.top.holdoff.get none v with
  | some t => decide (s.now < t + 100)
  | none => false

/-- A message leaves on a vector for all requests so far, and the 1 µs interval begins (R22). -/
def State.msixSend (s : State) (v : Nat) : State :=
  { s with top := { s.top with
      sent := s.top.sent.upd 0 v (· + 1),
      holdoff := s.top.holdoff.set none v (some s.now),
      requested := s.top.requested.set false v false } }

/-- The router requests a message on a vector (R22): a masked vector sets its Pending Bit, and a
request in the 1 µs interval waits for its end. -/
def State.msixRequest (s : State) (v : Nat) : State :=
  if s.vecMasked v then s.setPba v true
  else if s.inHoldoff v then
    { s with top := { s.top with requested := s.top.requested.set false v true } }
  else s.msixSend v

/-- An event becomes pending: the request of its host route (R21, R22). -/
def State.routeHost (s : State) (blk n : Nat) : State :=
  let r := EVT_ROUTE (blk * 32 + n)
  if s.bit r EVT_ROUTE_HOST_EN then s.msixRequest (s.fld r EVT_ROUTE_HOST_VEC) else s

/-- Hardware sets an event's status bit (R20, R22). -/
def State.setEvt (s : State) (blk n : Nat) : State :=
  let s' := s.hwSet (evtReg blk) n
  if s.evtPending blk n then
    s'.onTop fun t => { t with again := t.again.upd 0 (evtReg blk) (· ||| BitVec.ofNat 32 (2 ^ n)) }
  else if s'.evtPending blk n then s'.routeHost blk n else s'

/-- The requests of the events of a block that are pending in `s` and were not before; the last step
of a write that enables events. -/
def State.routeNew (s : State) (old : State) (blk : Nat) : State :=
  (List.range 32).foldl
    (fun s n => if s.evtPending blk n && !old.evtPending blk n then s.routeHost blk n else s) s

/-- R20: a block has a pending event routed to the host or to a control core. -/
def State.blkPending (s : State) (blk : Nat) : Bool :=
  (List.range 32).any fun n =>
    s.evtPending blk n &&
      (s.bit (EVT_ROUTE (blk * 32 + n)) EVT_ROUTE_HOST_EN ||
        s.fld (EVT_ROUTE (blk * 32 + n)) EVT_ROUTE_CC_MASK != 0)

/-- R23: interrupt input `i` of control core `k` is asserted. -/
def State.ccInput (s : State) (k i : Nat) : Bool :=
  (List.range 27).any fun blk => (List.range 32).any fun n =>
    s.evtPending blk n &&
      (s.fld (EVT_ROUTE (blk * 32 + n)) EVT_ROUTE_CC_MASK).testBit k &&
      s.fld (EVT_ROUTE (blk * 32 + n)) EVT_ROUTE_CC_IRQ == i

/-! ### Faults (R417 to R421) -/

/-- The fault class and the block ID of a code (R418). -/
def codeClass (code : BitVec 16) : Nat := code.toNat / 4096
def codeBlk (code : BitVec 16) : Nat := code.toNat / 64 % 64

/-- The fault passes to its block's queue of eight; a full queue loses it (R417). -/
def State.queueFault (s : State) (f : FaultIn) : State :=
  let b := codeBlk f.code
  let q := s.si.queues.get [] b
  if q.length < 8 then
    { s with si := { s.si with queues := s.si.queues.set [] b (q ++ [f]) } }
  else
    (({ s with si := { s.si with blkLoss := s.si.blkLoss.set false b true,
                                 seq := s.si.seq + 1 } }).count (SI_CNT 1)).setEvt BLK_SI 6

/-- A block raises a fault: it is queued, and a dangerous one asserts the block's danger line. -/
def State.raiseWith (s : State) (code : BitVec 16) (inst info : Nat) (lasting : Bool) : State :=
  let dangerous := codeClass code == 3
  let f : FaultIn :=
    { code := code, inst := BitVec.ofNat 8 inst, info := BitVec.ofNat 48 info, lasting := lasting,
      safe := dangerous && !s.bit SI_STAT SI_STAT_SAFE && s.si.danger.isEmpty }
  let s := s.queueFault f
  if dangerous then { s with si := { s.si with danger := s.si.danger ++ [f] } } else s

/-- The key under which a source's events are counted (R420). -/
def winKey (code : BitVec 16) (inst : Nat) : Nat := code.toNat * 256 + inst % 256

/-- R420: one more event of a source; true when it makes the source lasting, as the `n`-th within the
window of a source that is not lasting yet. -/
def State.countEvent (s : State) (key n window : Nat) : Bool × State :=
  let ts := (s.si.windows.get [] key ++ [s.now])
  let ts := ts.drop (ts.length - n)
  let made := ts.length == n && decide (s.now - ts.headD 0 < window) && !s.si.lastingSrc.contains key
  (made,
    { s with si := { s.si with
        windows := s.si.windows.set [] key ts,
        lastingSrc := if made then key :: s.si.lastingSrc else s.si.lastingSrc } })

/-- A source's count restarts as its unit returns to service (R420). -/
def State.clearEvents (s : State) (key : Nat) : State :=
  { s with si := { s.si with
      windows := s.si.windows.set [] key [], lastingSrc := s.si.lastingSrc.filter (· != key) } }

/-- Ticks of 10 ns in an hour, a second and a millisecond. -/
def ticksHour : Nat := 360000000000
def ticksSec : Nat := 100000000
def ticksMs : Nat := 100000

/-- A block raises a fault (R420): a transient one is counted against its code and instance, 16 in 1 h
unless its chapter gives another count. -/
def State.fault (s : State) (code : BitVec 16) (inst : Nat := 0xFF) (info : Nat := 0) : State :=
  if codeClass code = 1 then
    let (l, s) := s.countEvent (winKey code inst) 16 ticksHour
    s.raiseWith code inst info l
  else s.raiseWith code inst info false

/-- A transient fault with a count of its own: true when its source has become lasting. -/
def State.faultCounted (s : State) (code : BitVec 16) (inst info n window : Nat) : Bool × State :=
  let (l, s) := s.countEvent (winKey code inst) n window
  (l, s.raiseWith code inst info l)

/-- A common cause of a block (R421): class, block and cause as one code. -/
def commonCode (cls blk cause : Nat) : BitVec 16 := BitVec.ofNat 16 (cls * 4096 + blk * 64 + cause)

/-- The device address of a register. -/
def regAddr (off : Nat) : Nat := 0x180000000000 + off

/-- R421 cause 0x38: a register write or command ignored. -/
def State.ignored (s : State) (off : Nat) : State :=
  s.fault (commonCode 0 (off / 0x100000) 0x38) 0xFF (regAddr off)

/-! ### The address map (R12 to R15, R286, R287) -/

/-- The rank size for a device width and density. -/
def rankSize (dev dens : Nat) : Nat := 2 ^ (34 + dens) * (if dev = 0 then 2 else 1)

/-- Populated channels, and active ranks per channel. -/
def State.nch (s : State) : Nat := 2 ^ s.fld MC_CFG MC_CFG_NCHLOG
def State.activeRanks (s : State) : Nat :=
  s.fld MC_CFG MC_CFG_NRK_M1 + 1 - s.fld MC_CFG MC_CFG_SPARE

/-- CAPCH of R287. -/
def State.capCh (s : State) : Nat :=
  s.activeRanks * rankSize (s.fld MC_CFG MC_CFG_DEV) (s.fld MC_CFG MC_CFG_DENS)

/-- The mirrored pairs among the populated channels, and the unmirrored channels. -/
def State.mirPairs (s : State) : List Nat :=
  (List.range 4).filter fun j => (s.fld MC_CFG MC_CFG_MIRROR).testBit j && 2 * j + 1 < s.nch

def State.plainChs (s : State) : List Nat :=
  (List.range s.nch).filter fun c => !(s.mirPairs.contains (c / 2))

/-- MS of R287, and the installed capacity; nothing is installed while ENABLE is 0 (R289). -/
def State.mirSize (s : State) : Nat := s.mirPairs.length * s.capCh
def State.dramCap (s : State) : Nat :=
  if s.bit MC_CFG MC_CFG_ENABLE then (s.mirPairs.length + s.plainChs.length) * s.capCh else 0

/-- The decode of a device physical address. -/
def State.region (s : State) (a : Nat) : AddrKind :=
  let a := a % 2 ^ 48
  if a < 0x040000000000 then (if a < s.dramCap then .dram else .unmapped)
  else if 0x100000000000 ≤ a ∧ a < 0x10000A800000 then .sram
  else if 0x180000000000 ≤ a ∧ a < 0x180004000000 then .regs
  else if 0x800000000000 ≤ a then .host
  else .unmapped

/-! ### Bases of the on-chip memory (R14, R478) -/

def SRAM_BASE : Nat := 0x100000000000
/-- A tile slot of the coverage store (R103). -/
def COV_SLOT (n : Nat) : Nat := SRAM_BASE + n * 0x4000
def XC_MEM (n : Nat) : Nat := 0x100004000000 + n * 0x40000
def CAM_BUF (n : Nat) : Nat := 0x100006400000 + n * 0x200000
def CC_SRAM (n : Nat) : Nat := 0x100007C00000 + n * 0x100000
def CC_SHARED : Nat := 0x100008000000
def VAR_STORE : Nat := 0x100008600000
def DS_TABLES : Nat := 0x100008800000
def VE_MEM : Nat := 0x100009000000
def PIPE_MEM : Nat := 0x100009800000
def STAGING : Nat := 0x100009C00000
def DL_REPLAY : Nat := 0x10000A000000
def TRN_BUF (ch : Nat) : Nat := 0x10000A400000 + 0x2000 * ch
def SEG_TABLE (a : Nat) : Nat := 0x10000A410000 + 0x800 * a
def SINE_TABLE (a : Nat) : Nat := 0x10000A410400 + 0x800 * a
def LOOP_SECTION (n : Nat) : Nat := 0x10000A420000 + 64 * n
def ST_SCRATCH : Nat := 0x10000A430000
def SG_MEM : Nat := 0x10000A600000
def LE_TRACE : Nat := 0x10000A700000

/-! ### Poisoned data (R309, R421) -/

/-- The block that owns a line of on-chip SRAM, by the regions of R14 (DEDUCED, log 62). -/
def sramOwner (a : Nat) : Nat :=
  if a < XC_MEM 0 then BLK_BA
  else if a < CAM_BUF 0 then BLK_XC
  else if a < CC_SRAM 0 then BLK_CXR
  else if a < DS_TABLES then BLK_CC
  else if a < VE_MEM then BLK_DS
  else if a < PIPE_MEM then BLK_VE
  else if a < STAGING then BLK_IP
  else if a < DL_REPLAY then BLK_HI
  else if a < TRN_BUF 0 then BLK_DL
  else if a < SEG_TABLE 0 then BLK_MC
  else if a < LOOP_SECTION 0 then BLK_MX
  else if a < ST_SCRATCH then BLK_LE
  else if a < SG_MEM then BLK_ST
  else if a < LE_TRACE then BLK_SI
  else BLK_LE

/-- The 1 MiB bank of an address of on-chip SRAM (R420). -/
def sramBank (a : Nat) : Nat := (a - SRAM_BASE) / 2 ^ 20

/-- An uncorrectable word of on-chip SRAM (R421). -/
def State.sramFault (s : State) (a : Nat) : State := s.fault (commonCode 2 (sramOwner a) 0x3C) (sramBank a) a

/-- Poisoned data is reported as it is read: of DRAM by the controller (R309), of on-chip SRAM under its
owner's ID (R421). -/
def State.poisonReport (s : State) (line : Nat) : State :=
  if s.region (64 * line) = .sram then s.sramFault (64 * line)
  else ((s.count (MC_CNT 1)).setEvt BLK_MC 4).fault 0x23C4 0xFF (64 * line)

/-- `n` bytes from an address, cut at 64-byte lines; the fuel bounds the pieces. -/
def piecesFuel : Nat → Nat → Nat → List (Nat × Nat)
  | 0, _, _ => []
  | _, _, 0 => []
  | fuel + 1, a, n + 1 =>
    let k := min (n + 1) (64 - a % 64)
    (a, k) :: piecesFuel fuel (a + k) (n + 1 - k)

def pieces (a n : Nat) : List (Nat × Nat) := piecesFuel (n / 64 + 2) a n

/-- The poisoned lines of a range are reported as they are read. -/
def State.reportLines (s : State) (a n : Nat) : State :=
  (pieces a n).foldl (fun (s : State) p =>
    if s.linePoisoned (p.1 / 64) then s.poisonReport (p.1 / 64) else s) s

/-! ### Masters and the protection unit (R465) -/

/-- The index of a master in PERM. -/
def permIx : Master → Nat
  | .si => 0
  | .cc _ false => 1
  | .cc _ true => 2
  | .host => 3
  | .dma _ => 4
  | .xc => 5
  | .st => 6
  | .en _ => 7

/-- The block ID of a master (R421, cause 0x3A). -/
def masterBlk : Master → Nat
  | .si => BLK_SI
  | .cc _ _ => BLK_CC
  | .host => BLK_HI
  | .dma _ => BLK_DMA
  | .xc => BLK_XC
  | .st => BLK_ST
  | .en _ => BLK_EN

/-- The range of an enabled PROT region contains an address. -/
def State.protHit (s : State) (a i : Nat) : Bool :=
  let base := (s.reg (PROT_REGION0 i)).toNat + s.fld (PROT_REGION1 i) PROT_REGION1_BASE_HI * 2 ^ 32
  let limit := (s.reg (PROT_REGION2 i)).toNat + s.fld (PROT_REGION3 i) PROT_REGION3_LIMIT_HI * 2 ^ 32
  s.bit (PROT_REGION3 i) PROT_REGION3_EN && decide (base ≤ a) && decide (a ≤ limit + 63)

/-- The registers that only SI may write, as fixed rules of R465. -/
def siOnlyReg (off : Nat) : Bool :=
  off == FS_CUTCLR || off == SI_ENB || off == SI_WDG || off == SI_HUBPERM || off == CK_SYSRST ||
    off / 0x100000 == BLK_PROT

/-- An address in the Sagger region. -/
def inSagger (a : Nat) : Bool := decide (SG_MEM ≤ a) && decide (a < SG_MEM + 0x100000)

/-- An address in ST scratch. -/
def inScratch (a : Nat) : Bool := decide (ST_SCRATCH ≤ a) && decide (a < ST_SCRATCH + 0x2000)

/-- R465: PROT permits the access. The fixed rules come first, among them R431 for ST scratch; then the
first enabled region that contains the address decides, and an address in none is denied. -/
def State.permits (s : State) (m : Master) (a : Nat) (write : Bool) : Bool :=
  if m = .host && inSagger a then false
  else if inScratch a then true
  else if write && decide (s.region a = .regs) && siOnlyReg (a - 0x180000000000) then decide (m = .si)
  else
    match (List.range 32).find? (s.protHit a) with
    | some i => (s.fld (PROT_REGION1 i) PROT_REGION1_PERM).testBit (2 * permIx m + b2n write)
    | none => false

/-- The fault of a denied access (R319, R336, R422). -/
def State.denied (s : State) (m : Master) (a : Nat) : State :=
  match m with
  | .host => (s.fault 0x1402 0xFF a).count (HI_CNT 0)
  | .dma n => s.fault 0x1443 n.val a
  | m => s.fault 0x10C1 (permIx m) a

/-- The fault of an access to an unmapped address (R13, R421). -/
def State.unmapped (s : State) (m : Master) (a : Nat) : State :=
  s.fault (commonCode 1 (masterBlk m) 0x3A) 0xFF a

/-! ### Memory as the masters see it -/

/-- Bytes of the on-chip memory that read as zero and ignore writes (R125, R227, R229, R257, R374, and ST
scratch by R431). -/
def hiddenByte (a : Nat) : Bool :=
  if inScratch a then true
  else if LOOP_SECTION 0 ≤ a ∧ a < LOOP_SECTION 256 then
    decide (40 ≤ a % 64) || (decide (20 ≤ a % 64) && decide (a % 64 < 24))
  else if DS_TABLES ≤ a ∧ a < DS_TABLES + 0x800000 then decide (DS_TABLES + 0x700000 ≤ a)
  else if VE_MEM ≤ a ∧ a < VE_MEM + 0x800000 then
    decide (VE_MEM + 0x103000 ≤ a) && decide (a < VE_MEM + 0x200000)
  else if PIPE_MEM ≤ a ∧ a < PIPE_MEM + 0x380000 then
    let o := (a - PIPE_MEM) % 0x38000
    decide (0x36028 ≤ o) || o == 0x36012 || o == 0x36013 || o == 0x36022 || o == 0x36023 ||
      (decide (0x36025 ≤ o) && decide (o < 0x36028))
  else if PIPE_MEM + 0x380000 ≤ a ∧ a < PIPE_MEM + 0x400000 then
    decide (0x10000 ≤ (a - PIPE_MEM - 0x380000) % 0x20000)
  else false

/-- The bits of the fields in a byte of a variable-store directory entry (R83). -/
def varBits (o : Nat) : Byte := if o = 6 then 0 else if o = 7 then 0x80 else if o = 13 then 0x1F else if o = 15 then 0x07 else 0xFF

/-- Those of a map record (R127), and of a compensation entry (R132). -/
def mapBits (o : Nat) : Byte := if o = 2 then 0x37 else if o = 5 then 0x0F else 0xFF

def compBits (o : Nat) : Byte := if o % 4 = 3 then 0x07 else 0xFF

/-- Those of a table set of an image pipe: pixel entries (R228), and MATEN alone in its byte (R229). -/
def setBits (o : Nat) : Byte :=
  if o < 0x30000 then (if o % 4 = 1 then 0x8F else 0xFF) else if o = 0x36024 then 1 else 0xFF

/-- Those of an axis's segment entries (R353). -/
def segBits (o : Nat) : Byte :=
  if o < 0x400 ∧ 12 ≤ o % 16 then (if o % 16 = 12 then 1 else 0) else 0xFF

/-- The bits of a byte of the on-chip memory that are no reserved field (R5). -/
def fieldBits (a : Nat) : Byte :=
  if hiddenByte a then 0
  else if PIPE_MEM ≤ a ∧ a < PIPE_MEM + 0x380000 then setBits ((a - PIPE_MEM) % 0x38000)
  else if VAR_STORE ≤ a ∧ a < VAR_STORE + 0x10000 then varBits (a % 16)
  else if DS_TABLES ≤ a ∧ a < DS_TABLES + 0x400000 then mapBits (a % 8)
  else if DS_TABLES + 0x600000 ≤ a ∧ a < DS_TABLES + 0x640000 then compBits (a % 8)
  else if SEG_TABLE 0 ≤ a ∧ a < LOOP_SECTION 0 then segBits ((a - SEG_TABLE 0) % 0x800)
  else 0xFF

/-- Bytes of the on-chip memory that no master may write (R227, R257), nor any block but the Sagger's voter
(R404). -/
def readOnlyByte (a : Nat) : Bool :=
  hiddenByte a ||
    (decide (SG_MEM + 0xF0000 ≤ a) && decide (a < SG_MEM + 0x100000)) ||
    (decide (PIPE_MEM + 0x380000 ≤ a) && decide (a < PIPE_MEM + 0x400000)) ||
    (decide (VE_MEM ≤ a) && decide (a < VE_MEM + 0x100000)) ||
    (decide (VE_MEM + 0x200000 ≤ a) && decide (a < VE_MEM + 0x800000))

/-- What a master reads of `n` bytes of memory. -/
def State.viewBytes (s : State) (a n : Nat) : List Byte :=
  (s.loadBytes a n).zipIdx.map fun (b, i) => b &&& fieldBits (a + i)

/-- Bytes that a master writes to memory: read-only bytes keep theirs. -/
def State.putBytes (s : State) (a : Nat) (bs : List Byte) : State :=
  s.storeBytes a (bs.zipIdx.map fun (b, i) =>
    if readOnlyByte (a + i) then memByte s.mem (a + i) else b &&& fieldBits (a + i))

/-- The first address of an access that lies in no memory. -/
def State.firstUnmapped (s : State) (a n : Nat) : Option Nat :=
  ((pieces a n).find? fun p => decide (s.region p.1 = .unmapped)).map (·.1)

/-- The log of an access that lands, in part or whole, on an unmapped address (R13). -/
def State.logUnmapped (s : State) (m : Master) (a n : Nat) : State :=
  match s.firstUnmapped a n with
  | some b => s.unmapped m b
  | none => s

/-- PROT permits an access on every line that it touches (R465). -/
def State.permitsAll (s : State) (m : Master) (a n : Nat) (write : Bool) : Bool :=
  (pieces a n).all fun p => s.permits m p.1 write

/-- What lies in a range of memory: unmapped addresses read as zero (R13). -/
def State.viewMapped (s : State) (a n : Nat) : List Byte :=
  (pieces a n).flatMap fun p =>
    if s.region p.1 = .unmapped then List.replicate p.2 0 else s.viewBytes p.1 p.2

/-- A read of memory by a checked master that reaches no register: PROT first, then R13; poisoned lines are
reported (R309, R421). -/
def State.memLoad (s : State) (m : Master) (a n : Nat) : List Byte × State :=
  if s.permitsAll m a n false then (s.viewMapped a n, (s.reportLines a n).logUnmapped m a n)
  else (List.replicate n 0, s.denied m a)

/-- A write of memory by a checked master that reaches no register. -/
def State.memSave (s : State) (m : Master) (a : Nat) (bs : List Byte) : State :=
  if s.permitsAll m a bs.length true then
    ((pieces a bs.length).foldl (fun (s : State) p =>
      if s.region p.1 = .unmapped then s else s.putBytes p.1 ((bs.drop (p.1 - a)).take p.2)) s).logUnmapped m a
        bs.length
  else s.denied m a

/-! ### Fast domains (R9, R456) -/

/-- The fast domain of a block: 0 FX, 1 FD, 2 FI. -/
def fastDomain (blk : Nat) : Option Nat :=
  if blk = BLK_ADM ∨ blk = BLK_XC then some 0
  else if blk = BLK_BA ∨ blk = BLK_DS ∨ blk = BLK_DL ∨ blk = BLK_BQ then some 1
  else if blk = BLK_CXR ∨ blk = BLK_IP ∨ blk = BLK_VE then some 2
  else none

/-- The block's registers can be reached: its domain, if it is a fast one, is AWAKE. -/
def State.awake (s : State) (blk : Nat) : Bool :=
  match fastDomain blk with
  | some d => s.fld (CK_DOM d) CK_DOM_STATE == 2
  | none => true

/-- The block's clocks run (R456, R458): its domain is AWAKE, or enters another state and is in the first phase of
that entry, in which its outstanding accesses end. -/
def State.clocked (s : State) (blk : Nat) : Bool :=
  match fastDomain blk with
  | some d => s.awake blk || (s.fld (CK_DOM d) CK_DOM_STATE == 3 &&
      match s.ck.entry.get none d with
      | some e => !e.stopped
      | none => false)
  | none => true

/-- What a block does by itself, while its clocks run. -/
def State.whenClocked (s : State) (blk : Nat) (f : State → State) : State := if s.clocked blk then f s else s

/-- R421 cause 0x39: the access of R9. -/
def State.asleep (s : State) (off : Nat) : State :=
  s.fault (commonCode 0 (off / 0x100000) 0x39) 0xFF (regAddr off)

/-- A register write as its block takes it: refused while the block's fast domain is not awake (R9). -/
def State.whenAwake (s : State) (off : Nat) (f : State → State) : State :=
  if s.awake (off / 0x100000) then f s else s.asleep off

/-- An access of a master to a register, which PROT must permit (R465). -/
def State.regGuard (s : State) (m : Master) (off : Nat) (write : Bool) (f : State → State) : State :=
  if s.permits m (regAddr off) write then f (s.busGrant m) else s.denied m (regAddr off)

/-! ### Units (R428, R429) -/

/-- The state of a unit: 0 in service, 1 in test, 2 retired, 3 standby. -/
def State.unit (s : State) (u : Nat) : Nat := s.fld (ST_USTAT u) ST_USTAT_STATE

def State.setUnit (s : State) (u v : Nat) : State := s.setFld (ST_USTAT u) ST_USTAT_STATE v

/-! ### Time (R384) -/

/-- The flat view of the timebase, in ns. -/
def State.flat (s : State) : Nat := (s.tb.sec * 1000000000 + s.tb.ns) % 2 ^ 64

/-! ### Access by register type (R3) -/

/-- A write by the access types of the register's fields: RW bits take the value, RWL bits take it
until the PROT lock, W1C bits clear where it has a 1, but for those that hardware set in this cycle
(R4); all others keep theirs. After the lock, a value that would change an RWL field logs 0x00C2. -/
def State.typedWrite (s : State) (off : Nat) (v : Word) : State :=
  match regDef? off with
  | none => s
  | some d =>
    let old := s.reg off
    let locked := s.bit PROT_LOCK PROT_LOCK_LOCK
    let rw := if locked then d.rw else d.rw ||| d.rwl
    let new := ((old &&& ~~~rw) ||| (v &&& rw)) &&& ~~~(v &&& d.w1c &&& ~~~(s.top.fresh.get 0 off))
    let s := s.setReg off new
    if locked && decide (old &&& d.rwl ≠ v &&& d.rwl) then s.fault 0x00C2 0xFF (regAddr off) else s

/-- A write of a block's event status register: a pending event that hardware set again in this cycle and
that the write would clear requests a message (R4, R22). -/
def State.evtWrite (s : State) (blk : Nat) (v : Word) : State :=
  let hit := v &&& s.top.again.get 0 (evtReg blk)
  let s := (s.typedWrite (evtReg blk) v).onTop fun t => { t with
    again := t.again.upd 0 (evtReg blk) (· &&& ~~~v) }
  (List.range 32).foldl (fun s n => if hit.getLsbD n then s.routeHost blk n else s) s

end Sys2Proof.Machine
end

