-- ==== Sys2Proof/Machine/DramMap.lean ====
section
/-!
DEFINITION. DRAM as every access meets it (R286 to R288, R297 to R299, R305, R310, R313): where a line lies,
what a burst does to its bank, the write buffers, and why an access must wait.
-/

namespace Sys2Proof.Machine

/-! ### Ranks -/

/-- The index of a physical rank among all, and its unit number (R428). -/
def rankIx (c r : Nat) : Nat := 4 * c + r
def rankUnit (c r : Nat) : Nat := 180 + rankIx c r

/-- ROLE and SR of MC_RK_STAT. -/
def roleActive : Nat := 0
def roleSpare : Nat := 1
def roleRetired : Nat := 2
def roleAbsent : Nat := 3
def srAwake : Nat := 0
def srDrain : Nat := 1
def srIssue : Nat := 2
def srInSr : Nat := 3
def srExit : Nat := 4

def State.role (s : State) (c r : Nat) : Nat := s.fld (MC_RK_STAT c r) MC_RK_STAT_ROLE
def State.srOf (s : State) (c r : Nat) : Nat := s.fld (MC_RK_STAT c r) MC_RK_STAT_SR
def State.setSr (s : State) (c r v : Nat) : State := s.setFld (MC_RK_STAT c r) MC_RK_STAT_SR v
def State.rankLasting (s : State) (c r : Nat) : Bool := s.bit (MC_RK_STAT c r) MC_RK_STAT_LASTING

/-- The physical rank that holds a logical rank. -/
def State.physRank (s : State) (c l : Nat) : Option Nat :=
  (List.range 4).find? fun r =>
    s.role c r == roleActive && s.fld (MC_RK_STAT c r) MC_RK_STAT_LRANK == l

/-- A free spare of a channel. -/
def State.freeSpare (s : State) (c : Nat) : Option Nat :=
  (List.range 4).find? fun r => s.role c r == roleSpare && !s.bit (MC_RK_STAT c r) MC_RK_STAT_MIG

/-- A change of frequency point is in progress (R291). -/
def State.freqBusy (s : State) : Bool := s.bit MC_FREQ_CMD MC_FREQ_CMD_BUSY

/-! ### The address map (R286 to R288) -/

/-- k of R288, and the row bits of R286. -/
def State.colShift (s : State) : Nat := if s.fld MC_CFG MC_CFG_DEV = 1 then 4 else 5
def State.rowBits (s : State) : Nat := 16 + s.fld MC_CFG MC_CFG_DENS

/-- Where a line lies: its channels (two of a mirrored pair), its logical rank, subchannel, bank group,
bank, row and first column, and its offset within the rank. -/
structure DramPlace where
  chans : List Nat
  rank  : Nat
  sub   : Nat
  bg    : Nat
  bank  : Nat
  row   : Nat
  col   : Nat
  off   : Nat
deriving DecidableEq, Repr

/-- XOR of the low `c` bits at 8 and at 20, the member that R288 selects. -/
def memberOf (b c : Nat) : Nat := (b / 2 ^ 8 ^^^ b / 2 ^ 20) % 2 ^ c

/-- The decode of R288 of an address below the installed capacity. -/
def State.dramPlace (s : State) (a : Nat) : DramPlace :=
  let low := decide (a < s.mirSize)
  let n := if low then s.mirPairs.length else s.plainChs.length
  let b := if low then a else a - s.mirSize
  let c := Nat.log2 n
  let j := memberOf b c
  let a' := b / 2 ^ (8 + c) * 256 + b % 256
  let k := s.colShift
  let size := rankSize (s.fld MC_CFG MC_CFG_DEV) (s.fld MC_CFG MC_CFG_DENS)
  let row := a' / 2 ^ (14 + k) % 2 ^ s.rowBits
  let p := s.mirPairs.getD j 0
  { chans := if low then [2 * p, 2 * p + 1] else [s.plainChs.getD j 0],
    rank := a' / size,
    sub := a' / 2 ^ 6 % 2,
    bg := a' / 2 ^ 9 % 8 ^^^ row % 8,
    bank := a' / 2 ^ 12 % 4,
    row := row,
    col := 16 * (4 * (a' / 2 ^ 14 % 2 ^ k) + a' / 2 ^ 7 % 4),
    off := a' % size }

/-- The bank of a place among the 64 of its rank's two subchannels. -/
def DramPlace.bankIx (p : DramPlace) : Nat := 32 * p.sub + 4 * p.bg + p.bank

/-- The lines that `n` bytes from an address touch. -/
def linesOf (a n : Nat) : List Nat := (List.range (blocksIn a n)).map fun i => a / 64 + i
where blocksIn (a n : Nat) : Nat := if n = 0 then 0 else (a + n - 1) / 64 - a / 64 + 1

def opLen : DramOp → Nat
  | .read n _ => n
  | .write d => d.length

def opWrites : DramOp → Bool
  | .read _ _ => false
  | .write _ => true

/-- The bytes of what waits, and whether it is a write. -/
def waitLen : WaitOp → Nat
  | .ask op => opLen op
  | .hold n _ => n

def waitWrites : WaitOp → Bool
  | .ask op => opWrites op
  | .hold _ w => w

/-! ### The ranks that an access reaches (R310, R313) -/

/-- The physical rank that a read of a place goes to on a channel: of a rank that migrates, the target for
a line already copied. -/
def State.readPhys (s : State) (c : Nat) (p : DramPlace) : Option Nat :=
  (s.physRank c p.rank).map fun r =>
    match (s.chanAt c).mig with
    | some m => if m.src = r ∧ p.off / 64 * 64 + 64 ≤ m.copied then m.dst else r
    | none => r

/-- The physical ranks that a write to a place goes to on a channel: both of a migration. -/
def State.writePhys (s : State) (c : Nat) (p : DramPlace) : List Nat :=
  match s.physRank c p.rank with
  | none => []
  | some r =>
    match (s.chanAt c).mig with
    | some m => if m.src = r then [r, m.dst] else [r]
    | none => [r]

/-- A channel has an active rank whose fault is lasting, and no spare is left for it: none is free, and none
is taking that rank's place (R310). -/
def State.wornOut (s : State) (c : Nat) : Bool :=
  (s.freeSpare c).isNone && (List.range 4).any fun r =>
    s.role c r == roleActive && s.rankLasting c r &&
      !(match (s.chanAt c).mig with
        | some m => m.src == r
        | none => false)

/-- The channels whose queues a request is in: the one that it reads, or every one that it writes. -/
def State.waitChans (s : State) (w : DramWait) : List Nat :=
  if waitWrites w.op then (s.dramPlace w.addr).chans else [w.chan]

/-- Requests in a channel's queue (R284), and its length with the buffered writes (R310). -/
def State.chanLoad (s : State) (c : Nat) : Nat :=
  (s.mc.waiting.filter fun w => w.since.isSome && (s.waitChans w).contains c).length

def State.queueLen (s : State) (c : Nat) : Nat := s.chanLoad c + (s.chanAt c).wbuf.length

/-- The channel that a read of a place goes to (R310): of a pair the one with the shorter queue, the
lower-numbered of equals, and the partner alone of one that is worn out. -/
def State.readChan (s : State) (p : DramPlace) : Nat :=
  let cs := p.chans.filter fun c => !s.wornOut c
  let cs := if cs.isEmpty then p.chans else cs
  match cs with
  | [] => 0
  | c :: rest => rest.foldl (fun x y => if s.queueLen y < s.queueLen x then y else x) c

/-- The channel that stands for a request: the one that a read goes to, or the first that a write does. -/
def State.homeChan (s : State) (a : Nat) (write : Bool) : Nat :=
  let p := s.dramPlace (a / 64 * 64)
  if write then p.chans.headD 0 else s.readChan p

/-- The ranks that an access to a line reaches; `chan` is the channel of a read. -/
def State.lineRanks (s : State) (chan line : Nat) (write : Bool) : List (Nat × Nat) :=
  let p := s.dramPlace (64 * line)
  let cs := if write then p.chans else if p.chans.contains chan then [chan] else p.chans.take 1
  cs.flatMap fun c => (if write then s.writePhys c p else (s.readPhys c p).toList).map fun r => (c, r)

/-- The ranks that a request addresses: of every line that it touches. -/
def State.askedRanks (s : State) (chan a n : Nat) (write : Bool) : List (Nat × Nat) :=
  ((linesOf a n).map fun l => s.lineRanks chan l write).flatten.eraseDups

/-! ### Panic (R301, R302) -/

/-- The configuration register of a port. -/
def portCfg (p : Nat) : Nat := MC_PORT_CFG0 + 4 * p

def State.inPanic (s : State) (p : Nat) : Bool := s.bit (portCfg p) MC_PORT_CFG0_PANIC

/-- Some port is in panic: port 7's traffic is not issued (R297). -/
def State.anyPanic (s : State) : Bool := (List.range 4).any s.inPanic

/-- A port in panic holds a logical rank awake. -/
def State.heldAwake (s : State) (l : Nat) : Bool :=
  (List.range 4).any fun p => s.inPanic p && (s.fld (portCfg p) MC_PORT_CFG0_RKMASK).testBit l

/-- A port in panic keeps gathers and self-refresh from a physical rank. -/
def State.panicHolds (s : State) (c r : Nat) : Bool :=
  s.role c r == roleActive && s.heldAwake (s.fld (MC_RK_STAT c r) MC_RK_STAT_LRANK)

/-! ### Why an access waits (R284, R291, R292, R298, R305, R313) -/

/-- A sample of an in-service gather of a rank is under way (R292, R296). DESIGN CHOICE: which ticks its
samples take is free, but for every hundredth tick, so that none lasts longer than 1 µs. -/
def State.sampleOn (s : State) (c r : Nat) : Bool :=
  match (s.chanAt c).gather with
  | some g =>
    decide (4 ≤ g.op) && !g.stale && decide (g.rank = r) && s.srOf c r == srAwake && !s.panicHolds c r &&
      decide (s.now % 100 ≠ 0) && Config.sampling s.now c
  | none => false

/-- A sample of a WREYE gather holds a line of a physical rank: bank group 0, bank 0, row 0, columns 0 to
1,023. -/
def State.sampleHolds (s : State) (c r : Nat) (p : DramPlace) : Bool :=
  (match (s.chanAt c).gather with
    | some g => decide (g.op = 5)
    | none => false) &&
    p.bg == 0 && p.bank == 0 && p.row == 0 && decide (p.col < 1024) && s.sampleOn c r

/-- A migration is copying the line of a place on a channel's rank (R313). -/
def State.copyHolds (s : State) (c r : Nat) (p : DramPlace) : Bool :=
  match (s.chanAt c).mig with
  | some m => (m.src == r || m.dst == r) && decide (m.copied % 64 ≠ 0) && p.off / 64 == m.copied / 64
  | none => false

/-- An access to a line meets a rank that is not awake, or a sample or a copy that holds the line. -/
def State.lineHeld (s : State) (chan line : Nat) (write : Bool) : Bool :=
  let p := s.dramPlace (64 * line)
  (s.lineRanks chan line write).any fun (c, r) =>
    s.srOf c r != srAwake || s.sampleHolds c r p || s.copyHolds c r p

/-- Entries of a channel's write buffer, and accesses granted that will enter it. -/
def State.wbufLoad (s : State) (c : Nat) : Nat :=
  (s.chanAt c).wbuf.length +
    (s.mc.granted.filter fun w => waitWrites w.op && (s.waitChans w).contains c).length

/-- The write buffers of a line's channels take `n` more entries. -/
def State.wbufRoom (s : State) (line : Nat) (n : Nat) : Bool :=
  (s.dramPlace (64 * line)).chans.all fun c => decide (s.wbufLoad c + n ≤ 128)

/-- A queue that an access is to enter holds 512 requests (R284). -/
def State.queueFull (s : State) (chan a : Nat) (write : Bool) : Bool :=
  (if write then (s.dramPlace a).chans else [chan]).any fun c => decide (512 ≤ s.chanLoad c)

/-- An access must wait; one that stands in its queue does not wait for room there. -/
def State.notYet (s : State) (chan a n : Nat) (write : Bool) : Bool :=
  s.freqBusy || (linesOf a n).any (fun l => s.lineHeld chan l write) ||
    (write && !s.wbufRoom (a / 64) (linesOf a n).length)

def State.mustWait (s : State) (chan a n : Nat) (write : Bool) : Bool :=
  s.notYet chan a n write || s.queueFull chan a write

/-- A rank begins its exit (R305): the minimum residency of 250 ns from SRE, SRX of 15 ns and tXS_DLL of
640 ns (R306) pass before it is awake. -/
def State.srLeaves (s : State) (c r : Nat) : State :=
  (s.setSr c r srExit).onRank (rankIx c r) fun x => { x with exitAt := max s.now (x.sreAt + 25) + 66 }

/-- A request meets a rank on its way into or in self-refresh (R305): one in DRAIN stays active, any
other exits. -/
def State.disturb (s : State) (c r : Nat) : State :=
  let s := s.onRank (rankIx c r) fun x => { x with asked := s.now }
  if s.srOf c r = srDrain then (s.setSr c r srAwake).count (MC_CNT 4)
  else if s.srOf c r = srIssue ∨ s.srOf c r = srInSr then s.srLeaves c r
  else s

/-- An access arrives at the ranks that it addresses; one in a change of frequency point only waits. -/
def State.dramWake (s : State) (chan a n : Nat) (write : Bool) : State :=
  if s.freqBusy then s
  else (s.askedRanks chan a n write).foldl (fun s (c, r) => s.disturb c r) s

/-! ### Bursts (R299, R311) -/

/-- A command is given to a rank: the last 16 of its DIMM are held for a replay. -/
def State.dimmCommand (s : State) (c r : Nat) (line : Option Nat) : State :=
  let keep16 (xs : List DramCmd) : List DramCmd :=
    (xs ++ [(⟨r, line⟩ : DramCmd)]).drop (xs.length + 1 - 16)
  s.onChan c fun x => { x with cmds := x.cmds.upd [] (r / 2) keep16 }

/-- The row open in a bank (R299): one left by NONE closes once PIDLE has passed with no access. -/
def State.openRow (s : State) (c r bank : Nat) : Option Nat :=
  match (s.rankAt (rankIx c r)).rows.get none bank with
  | some o => if o.keep ∨ 10 * (s.now - o.last) ≤ s.fld MC_SCHED0 MC_SCHED0_PIDLE then some o.row else none
  | none => none

/-- Every row of a rank is closed. -/
def State.closeRows (s : State) (c r : Nat) : State :=
  s.onRank (rankIx c r) fun x => { x with rows := [] }

/-- A burst of one line on a rank: a conflict is precharged and the row activated first, and the hint says
what becomes of the row after it. -/
def State.burst (s : State) (c r : Nat) (line : Nat) (hint : PageHint) : State :=
  let p := s.dramPlace (64 * line)
  let cur := s.openRow c r p.bankIx
  let before : List (Option Nat) :=
    if cur = some p.row then [] else if cur.isSome then [none, none] else [none]
  let s := (before ++ [some line]).foldl (fun (s : State) l => s.dimmCommand c r l) s
  s.onRank (rankIx c r) fun x => { x with
    asked := s.now,
    rows := x.rows.set none p.bankIx
      (if hint = PageHint.close then none else some { row := p.row, last := s.now, keep := decide (hint = PageHint.keep) }) }

/-! ### Scheduling (R16 to R18, R297) -/

/-- The sources that a port merges (R18, R247). -/
def portWays (p : Nat) : Nat := [18, 1, 1, 4, 4, 32, 1, 1].getD p 1

/-- The grants of a channel's port arbiter and of a source within the port (R16, R18). -/
def State.portGrant (s : State) (c port src : Nat) : State :=
  (s.grant (rrDram c) 8 port).grant (rrPort (8 * c + port)) (portWays port) (src % portWays port)

/-- A request that may be issued, by its place in its list. -/
structure Candidate where
  /-- It stands in the write buffer; else among the requests that wait. -/
  late  : Bool
  ix    : Nat
  port  : Nat
  src   : Nat
  since : Nat
  hit   : Bool
deriving DecidableEq, Repr

/-- Older than AGECAP; an AGECAP of 0 acts as 1. -/
def State.aged (s : State) (since : Nat) : Bool :=
  decide (max 1 (s.fld MC_SCHED0 MC_SCHED0_AGECAP) < 10 * (s.now - since))

/-- The place of a request in the order of R297: panic, age, row hit, other. -/
def State.urgency (s : State) (x : Candidate) : Nat :=
  if s.inPanic x.port then 0 else if s.aged x.since then 1 else if x.hit then 2 else 3

/-- `x` comes strictly before `y` in the order of R297. -/
def State.issuesBefore (s : State) (x y : Candidate) : Bool :=
  decide (s.urgency x < s.urgency y) || (s.urgency x == s.urgency y && decide (x.since < y.since))

/-- The next request of a channel, and the grants that chose it among equals: of its port, then of its
source in the port. DESIGN CHOICE: MC_CNT[5] counts every request that its age alone promotes. -/
def State.schedule (s : State) (c : Nat) (xs : List Candidate) : Option Candidate × State :=
  let best := xs.filter fun x => !xs.any fun y => s.issuesBefore y x
  match rrGrant 8 (s.top.rrPtr.get 0 (rrDram c)) fun p => best.any fun x => x.port == p with
  | none => (none, s)
  | some p =>
    let n := portWays p
    match rrGrant n (s.top.rrPtr.get 0 (rrPort (8 * c + p)))
        fun q => best.any fun x => x.port == p && x.src % n == q with
    | none => (none, s)
    | some q =>
      match best.find? fun x => x.port == p && x.src % n == q with
      | none => (none, s)
      | some x =>
        let s := s.portGrant c p q
        (some x, if s.urgency x = 1 then s.count (MC_CNT 5) else s)

/-! ### Write buffers (R298) -/

/-- A buffered write can be issued: its ranks are awake, and port 7's waits for the end of panic. -/
def State.canDrain (s : State) (c : Nat) (e : WbEntry) : Bool :=
  let p := s.dramPlace (64 * e.line)
  !s.freqBusy && !(e.port == 7 && s.anyPanic) &&
    (s.writePhys c p).all fun r => s.srOf c r == srAwake && !s.sampleHolds c r p

/-- A batch is under way: from WHI entries until WLO are left; WHI above 128 acts as 128. -/
def State.batchOn (s : State) (c : Nat) : Bool :=
  let n := (s.chanAt c).wbuf.length
  decide (s.fld MC_SCHED1 MC_SCHED1_WLO < n) &&
    ((s.chanAt c).drain || decide (min 128 (s.fld MC_SCHED1 MC_SCHED1_WHI) ≤ n))

/-- The buffered writes that are to be issued, as the scheduler sees them: all of them in a batch, else those
older than AGECAP. -/
def State.drainable (s : State) (c : Nat) : List Candidate :=
  (s.chanAt c).wbuf.zipIdx.filterMap fun (e, i) =>
    if s.canDrain c e && (s.batchOn c || s.aged e.since) then
      let p := s.dramPlace (64 * e.line)
      some { late := true, ix := i, port := e.port, src := e.src, since := e.since,
             hit := match s.physRank c p.rank with
               | some r => s.openRow c r p.bankIx == some p.row
               | none => false }
    else none

/-- A buffered write is issued to the ranks that it goes to. -/
def State.drainOne (s : State) (c i : Nat) : State :=
  match (s.chanAt c).wbuf[i]? with
  | none => s
  | some e =>
    let on := s.batchOn c
    let s := s.onChan c fun y => { y with wbuf := y.wbuf.eraseIdx i, drain := on }
    (s.writePhys c (s.dramPlace (64 * e.line))).foldl (fun s r => s.burst c r e.line e.hint) s

/-- A write of lines is accepted (R298): it enters the buffer of each of its channels. -/
def State.acceptWrite (s : State) (port src : Nat) (hint : PageHint) (a n : Nat) : State :=
  (linesOf a n).foldl (fun s l =>
    (s.dramPlace (64 * l)).chans.foldl (fun s c =>
      s.onChan c fun x => { x with wbuf := x.wbuf ++
        [{ line := l, port := port, src := src, hint := hint, since := s.now }] }) s) s

/-- A line stands in the write buffer that a read of it would meet. -/
def State.buffered (s : State) (chan line : Nat) : Bool :=
  (s.lineRanks chan line false).any fun (c, _) => (s.chanAt c).wbuf.any fun e => e.line == line

/-- A read of lines is issued; one of a buffered line is served from the buffer. -/
def State.issueRead (s : State) (chan : Nat) (hint : PageHint) (a n : Nat) : State :=
  (linesOf a n).foldl (fun s l =>
    (s.lineRanks chan l false).foldl (fun s (c, r) =>
      if (s.chanAt c).wbuf.any fun e => e.line == l then
        s.onRank (rankIx c r) fun x => { x with asked := s.now }
      else s.burst c r l hint) s) s

/-! ### Accesses of the device's own masters -/

/-- The port of a master and its requester there (R18): modulo the sources of the port, the number is its
index. DESIGN CHOICE: the masters that R18 does not list, SI, ST and EN, come through port 4 as CC0 does. -/
def masterPort : Master → Nat × Nat
  | .cc k _ => (4, k.val)
  | .dma n => (5, n.val)
  | .host => (6, 0)
  | .xc => (0, 0)
  | .si => (4, 4)
  | .st => (4, 16)
  | .en e => (4, 20 + 4 * e.val)

/-- The requester of a master's writes: a DMA channel's stand beside its reads. -/
def writePort (m : Master) : Nat × Nat :=
  match m with
  | .dma n => (5, 32 + n.val)
  | m => masterPort m

/-- The port of a block's own traffic. DESIGN CHOICE: ADM reads the job tables as the XC prefetchers do,
and SI writes its records as CC0 does. -/
def blkPort (blk : Nat) : Nat :=
  if blk = BLK_BQ then 1 else if blk = BLK_VE then 2 else if blk = BLK_IP then 3
  else if blk = BLK_XC ∨ blk = BLK_ADM then 0 else 4

def blkHint (blk : Nat) : PageHint := if blkPort blk = 4 then .none else .keep

/-- An earlier request of the port to one of the lines waits (R298). -/
def samePortLine (earlier : List DramWait) (port a n : Nat) : Bool :=
  earlier.any fun w => w.port == port && (linesOf w.addr (waitLen w.op)).any fun l => (linesOf a n).contains l

/-- A request waits at its channel, or at its requester while the channel holds 512 (R284). -/
def State.dramQueue (s : State) (port src a : Nat) (hint : PageHint) (op : WaitOp) : State :=
  let chan := s.homeChan a (waitWrites op)
  let w : DramWait :=
    { port := port, src := src, chan := chan, addr := a, hint := hint, op := op,
      since := if s.queueFull chan a (waitWrites op) then none else some s.now }
  s.onMc fun m => { m with waiting := m.waiting ++ [w] }

/-- Requests that found their channel full enter it as room comes, in their order. -/
def State.dramEnter (s : State) : State :=
  s.mc.waiting.zipIdx.foldl (fun s (w, i) =>
    if w.since.isSome ∨ s.queueFull w.chan w.addr (waitWrites w.op) then s
    else s.onMc fun m => { m with
      waiting := modifyAt (fun w => { w with since := some s.now }) i m.waiting }) s

/-- The access of a requester among those given. -/
def thisAccess (port src a n : Nat) (write : Bool) (w : DramWait) : Bool :=
  w.port == port && w.src == src && w.addr == a && w.op == WaitOp.hold n write

/-- The access is granted. -/
def State.isGranted (s : State) (port src a n : Nat) (write : Bool) : Bool :=
  s.mc.granted.any (thisAccess port src a n write)

/-- A control core or a DMA channel has one access under way on each side: a new one replaces an older one
that it no longer makes. -/
def State.onlyThis (s : State) (port src : Nat) : State :=
  if port = 4 ∨ port = 5 then
    let old := fun (w : DramWait) => w.port == port && w.src == src &&
      match w.op with
      | .hold _ _ => true
      | .ask _ => false
    s.onMc fun m => { m with waiting := m.waiting.filter (!old ·), granted := m.granted.filter (!old ·) }
  else s

/-- An access of a port within installed DRAM that must wait: it has reached the ranks, and stands in the
queue of its channel until the scheduler grants it (R297); its requester then performs it. -/
def State.dramStall (s : State) (port src a n : Nat) (write : Bool) (hint : PageHint := .none) : Option State :=
  if s.region a = .dram then
    let a := a % 2 ^ 48
    let c := s.homeChan a write
    if s.isGranted port src a n write then none
    else if s.mc.waiting.any (thisAccess port src a n write) then some s
    else if s.mustWait c a n write || samePortLine s.mc.waiting port a n then
      some (((s.dramWake c a n write).onlyThis port src).dramQueue port src a hint (.hold n write))
    else none
  else none

/-- An access within DRAM that need not wait is issued; other memory knows no ports. What the scheduler has
granted has been issued already. -/
def State.dramUse (s : State) (port : Nat × Nat) (hint : PageHint) (a n : Nat) (write : Bool) : State :=
  if s.region a = .dram then
    let a := a % 2 ^ 48
    let c := s.homeChan a write
    if s.isGranted port.1 port.2 a n write then
      let s := s.onMc fun m => { m with granted := m.granted.filter (!thisAccess port.1 port.2 a n write ·) }
      if write then (s.dramWake c a n true).acceptWrite port.1 port.2 hint a n else s
    else
      let s := s.portGrant c port.1 port.2
      if write then s.acceptWrite port.1 port.2 hint a n else s.issueRead c hint a n
  else s

/-- Accesses of several ranges by a port: none of them is made while one must wait, and those that must wait
stand in their queues. -/
def State.dramStalls (s : State) (port : Nat × Nat) (write : Bool) (hint : PageHint) (xs : List (Nat × Nat)) :
    Option State :=
  (xs.flatMap fun x => pieces x.1 x.2).foldl (fun (o : Option State) p =>
    match (o.getD s).dramStall port.1 port.2 p.1 p.2 write hint with
    | some t => some t
    | none => o) none

def State.dramReads (s : State) (port : Nat × Nat) (hint : PageHint) (xs : List (Nat × Nat)) : State :=
  (xs.flatMap fun x => pieces x.1 x.2).foldl (fun s p => s.dramUse port hint p.1 p.2 false) s

/-- Reads that a block makes ahead of its need: a rank that is not awake begins to wake. DESIGN CHOICE: the
data is there when the block needs it. -/
def State.dramTouch (s : State) (port : Nat × Nat) (hint : PageHint) (a n : Nat) : State :=
  (pieces a n).foldl (fun s p =>
    if s.region p.1 = .dram then
      let b := p.1 % 2 ^ 48
      let c := s.homeChan b false
      if s.notYet c b p.2 false then s.dramWake c b p.2 false
      else (s.portGrant c port.1 port.2).issueRead c hint b p.2
    else s) s

/-- Bytes written to DRAM by a port: into the write buffer, or to wait. -/
def State.dramPut (s : State) (port src a : Nat) (hint : PageHint) (bs : List Byte) : State :=
  let c := s.homeChan a true
  if s.mustWait c a bs.length true || samePortLine s.mc.waiting port a bs.length ||
      (port == 7 && s.anyPanic) then
    (s.dramWake c a bs.length true).dramQueue port src a hint (.ask (.write bs))
  else ((s.portGrant c port src).acceptWrite port src hint a bs.length).storeBytes a bs

/-- A line that the controller has corrected is written back through port 7 (R308, R309). -/
def State.writeBack (s : State) (line : Nat) : State :=
  let a := 64 * line
  let c := s.homeChan a true
  if s.mustWait c a 64 true || s.anyPanic then
    if s.mc.waiting.any (thisAccess 7 0 a 64 true) then s
    else (s.dramWake c a 64 true).dramQueue 7 0 a .close (.hold 64 true)
  else (s.portGrant c 7 0).acceptWrite 7 0 .close a 64

/-- An access of a block by itself that lands, in part or whole, on an unmapped address logs one cause 0x3A of
the block (R13, R421). -/
def State.blockUnmapped (s : State) (blk a n : Nat) : State :=
  match s.firstUnmapped a n with
  | some b => s.fault (commonCode 1 blk 0x3A) 0xFF b
  | none => s

/-- A write of a block by itself, of any length: bytes at unmapped addresses, or above the installed DRAM,
are dropped, and the access logs one cause 0x3A of the block (R13, R421); `src` is the source in the block's
port. DESIGN CHOICE: bytes at register addresses are dropped too; the spec has no block write there. -/
def State.blockSave (s : State) (blk a : Nat) (bs : List Byte) (src : Nat := 0) : State :=
  let s' := (pieces a bs.length).foldl (fun (s : State) p =>
    let bytes := (bs.drop (p.1 - a)).take p.2
    match s.region p.1 with
    | .unmapped => s
    | .regs => s
    | .dram => s.dramPut (blkPort blk) src (p.1 % 2 ^ 48) (blkHint blk) bytes
    | _ => s.putBytes p.1 bytes) s
  s'.blockUnmapped blk a bs.length

/-- A write of a block to a range of DRAM still waits to be accepted (R298). -/
def State.putWaits (s : State) (port a n : Nat) : Bool :=
  s.mc.waiting.any fun w => w.port == port && waitWrites w.op && decide (a < w.addr + waitLen w.op) &&
    decide (w.addr < a + n)

end Sys2Proof.Machine
end

