-- ==== Sys2Proof/Machine/Layout.lean ====
section
/-!
DEFINITION. What the blocks of the print path share about the jobs: which job runs, its planes, slot
offsets and products.
-/

namespace Sys2Proof.Machine

/-- H as an integer: −1 before line event 0. -/
def State.lastLn (s : State) : Int :=
  if s.lc.hwm = 0xFFFFFFFFFFFFFFFF then -1 else (s.lc.hwm.toNat : Int)

/-! ### Job slots (R117) -/

/-- The state code of a job slot. -/
def State.slotState (s : State) (j : Nat) : Nat := s.fld (ADM_SLOT_STAT j) ADM_SLOT_STAT_STATE

def State.setSlotState (s : State) (j v : Nat) : State :=
  s.setFld (ADM_SLOT_STAT j) ADM_SLOT_STAT_STATE v

def State.jobAt (s : State) (j : Nat) : Option JobSt := s.adm.jobs.get none j

def State.setJob (s : State) (j : Nat) (o : Option JobSt) : State :=
  s.onAdm fun a => { a with jobs := a.jobs.set none j o }

/-- The slots in a state, in order. -/
def State.slotsIn (s : State) (v : Nat) : List Nat := [0, 1].filter fun j => s.slotState j == v

/-- The job that runs: RUNNING, else DRAINING, else ARMED. -/
def State.runJob (s : State) : Option JobSt :=
  (s.slotsIn 5 ++ s.slotsIn 6 ++ s.slotsIn 4).findSome? s.jobAt

/-- OMIN and OMAX of a plane of a job, on the offsets of its admission (R122). -/
def JobSt.omin (j : JobSt) (p : Nat) : Nat := j.omins.getD p 0
def JobSt.omax (j : JobSt) (p : Nat) : Nat := j.omaxs.getD p 0

/-- The job owns a layout line: from GO_LN to its end. -/
def JobSt.ownsLine (j : JobSt) (line : Int) : Bool := decide ((j.goLn : Int) ≤ line) && decide (line < j.stopLn)

/-- The first band that a job renders: from GO_LN on, and in continuous layout from ORIGIN on (R92). -/
def JobSt.rendersFrom (j : JobSt) : Int := if j.hdr.trig then j.goLn else max j.goLn j.hdr.origin

/-- The job that owns a layout line (R119): an armed one from its GO_LN on, else the one that runs, drains
or has ended. -/
def State.lineJob (s : State) (line : Int) : Option JobSt :=
  let armed := (s.slotsIn 4).filterMap s.jobAt
  let olds := (s.slotsIn 5 ++ s.slotsIn 6).filterMap s.jobAt
  if armed.any fun j => decide ((j.goLn : Int) ≤ line) then armed.find? (·.ownsLine line)
  else (olds ++ s.adm.past).find? (·.ownsLine line)

/-- A slot is ARMED, RUNNING or DRAINING. -/
def State.anyArmed (s : State) : Bool := [0, 1].any fun j => decide (4 ≤ s.slotState j)

/-- The width of a plane of a job; a plane the job lacks has none. -/
def JobHdr.width (h : JobHdr) (p : Nat) : Nat := if p < h.npl then h.widths.getD p 0 else 0

/-- Dose width of a dose width code (R91). -/
def doseWidth (dwc : Nat) : Nat := [1, 2, 4, 6, 8].getD dwc 8

/-- The tiles of a plane. -/
def tilesOf (width : Nat) : Nat := ceilDiv width 256

/-! ### Head slots (R99, R123) -/

def State.slotEn (s : State) (n : Nat) : Bool := s.bit (SLOT_CFG n) SLOT_CFG_EN
def State.slotPlane (s : State) (n : Nat) : Nat := s.fld (SLOT_CFG n) SLOT_CFG_PLANE
def State.slotOfs (s : State) (n : Nat) : Nat := s.fld (SLOT_OFS n) SLOT_OFS_OFS

/-- The line offsets of the enabled slots of a plane. -/
def State.offsets (s : State) (p : Nat) : List Nat :=
  ((List.range 64).filter fun n => s.slotEn n && s.slotPlane n == p).map s.slotOfs

def minOf (xs : List Nat) : Nat := (xs.min?).getD 0
def maxOf (xs : List Nat) : Nat := (xs.max?).getD 0

/-- OMIN and OMAX of a plane. -/
def State.omin (s : State) (p : Nat) : Nat := minOf (s.offsets p)
def State.omax (s : State) (p : Nat) : Nat := maxOf (s.offsets p)

/-- Least OMIN and greatest OMAX over the planes of a job. -/
def State.ominMin (s : State) (npl : Nat) : Nat := minOf ((List.range npl).map s.omin)
def State.omaxMax (s : State) (npl : Nat) : Nat := maxOf ((List.range npl).map s.omax)

/-! ### Products (R59, R172 to R175) -/

/-- The product lane whose across range contains a plane dot: lane 0 in continuous layout. -/
def JobHdr.laneOf (h : JobHdr) (dot : Nat) : Option Nat :=
  if h.trig then h.lanes.findIdx? fun l => decide (l.x0 ≤ dot ∧ dot < l.x1) else some 0

/-- Products of a lane own lines up to their length; in continuous layout up to the next repeat. -/
def JobHdr.prodLen (h : JobHdr) (lane : Nat) : Option Nat :=
  if h.trig then (h.lanes[lane]?).map (·.len) else none

/-- The product that owns a layout line in the lane containing a dot. -/
def State.owner (s : State) (h : JobHdr) (line : Int) (dot : Nat) : Option Product :=
  match h.laneOf dot with
  | none => none
  | some lane =>
    match s.lc.products.find? fun p =>
        p.trig == h.trig && p.lane == lane && decide ((p.origin : Int) ≤ line) with
    | none => none
    | some p =>
      match h.prodLen lane with
      | none => some p
      | some len => if line < p.origin + len then some p else none

/-- The first triggered product of a lane that starts after a line and before another. -/
def State.nextProduct (s : State) (lane : Nat) (line stop : Nat) : Option Product :=
  s.lc.products.reverse.find? fun p =>
    p.trig && p.lane == lane && decide (line < p.origin) && decide (p.origin < stop)

/-- A dot of a tile in its slot of the coverage store (R103); 0 while it has no slot. -/
def State.tileByte (s : State) (t : TileSt) (line dot : Nat) : Nat :=
  match t.slot with
  | some n => (memByte s.mem (COV_SLOT n + 256 * (line % 64) + dot % 256)).toNat
  | none => 0

end Sys2Proof.Machine
end

