-- ==== Sys2Proof/Machine/Units.lean ====
section
/-!
DEFINITION. The units of the in-service test (R428, R429): their classes, how one leaves and enters
service, the cluster capacity that follows, and the abandoning of a test (R433).
-/

namespace Sys2Proof.Machine

/-- The class of a unit number (R428); 10 for the Sagger cores. -/
def unitClass (u : Nat) : Nat :=
  if u < 144 then 0 else if u < 148 then 1 else if u < 180 then 2 else if u < 212 then 3
  else if u < 216 then 4 else if u < 224 then 5 else if u < 256 then 6 else if u < 259 then 10 else 9

/-- Units of a class, in increasing order. -/
def unitsOf (cls : Nat) : List Nat := (List.range 263).filter fun u => unitClass u == cls

/-- The end of an ST command (R432). -/
def State.stDone (s : State) (result : Nat) : State :=
  ((s.setFld ST_STAT ST_STAT_BUSY 0).setFld ST_STAT ST_STAT_RESULT result).setEvt BLK_ST 3

/-- INFO of an ST fault: the unit, and the test step, which the spec numbers nowhere. -/
def State.stFault (s : State) (code : BitVec 16) (u : Nat) : State :=
  let (d, s) := s.draw
  s.fault code (unitClass u) (u + Config.freeNat d % 256 * 65536)

/-- Ncap (R109): per cluster at most seven of its cores in service. -/
def State.ncap (s : State) : Nat :=
  (List.range 18).foldl (fun acc c =>
    acc + min 7 (((List.range 8).filter fun i => s.unit (8 * c + i) == 0).length)) 0

/-- Ncap changes with the units in service, and a rate change is due (R109, R120). -/
def State.capChanged (s : State) : State :=
  if s.fld ADM_CAP ADM_CAP_NCAP = s.ncap then s
  else (s.setFld ADM_CAP ADM_CAP_NCAP s.ncap).onAdm fun a => { a with ratePend := true }

/-- The capacity follows a change of unit `u`. -/
def State.followCap (s : State) (u : Nat) : State :=
  if u < 144 && s.awake BLK_ADM then s.capChanged else s

/-- The state of a pipe out of test follows FAILED and SPARE (R429). -/
def State.pipeUnit (s : State) (p : Nat) : Nat :=
  if s.bit (IP_PIPE p) IP_PIPE_FAILED then 2 else if s.bit (IP_PIPE p) IP_PIPE_SPARE then 3 else 0

/-- A core in test has ended its last tile, and its test has begun (R434). -/
def State.coreTestRuns (s : State) (u : Nat) : Bool :=
  (s.xcAt u).tile.isNone && (s.xcAt u).handed.isNone &&
    !s.adm.tiles.any fun t => decide (t.fate = .waiting) &&
      t.renders.any fun r => r.core == u && decide (r.phase ≠ .delivered)

/-- What a test leaves: a pipe's table sets and line store at zero (R436), a core's memories cleared
(R435). -/
def State.testLeaves (s : State) (u : Nat) : State :=
  if u < 144 then s.clearBytes (XC_MEM u) 0x40000
  else if u < 148 then
    let p := u - 144
    let s := s.each 4 fun t s => s.onIp fun i => { i with carry := i.carry.set PvCarry.empty (4 * p + t) PvCarry.empty }
    (s.clearBytes (PIPE_MEM + 0xE0000 * p) 0xE0000).clearBytes (PIPE_MEM + 0x380000 + 0x20000 * p) 0x20000
  else s

/-- A test is abandoned (R433): no result, and the unit returns to its previous state; the memories of a core
are cleared where its test had begun (R435). -/
def State.abandonTest (s : State) (u : Nat) : State :=
  match s.st.tests.get none u with
  | none => s
  | some t =>
    let s := s.onSt fun x => { x with tests := x.tests.set none u none }
    let s := if u < 144 && s.coreTestRuns u then s.testLeaves u else s
    let back := if unitClass u = 1 then s.pipeUnit (u - 144) else t.prev
    let s := (s.setUnit u back).setFld (ST_USTAT u) ST_USTAT_LAST 3
    let s := ((s.setEvt BLK_ST 4).count (ST_CNT 2)).stFault 0x0602 u
    if t.cmd = 0 then s else s.stDone 4

/-- A unit enters a state (R428), and Ncap follows. A core that leaves service ends the test of another
core of its cluster, which returns in the same cycle (R435). -/
def State.moveUnit (s : State) (u v : Nat) : State :=
  let s := s.setUnit u v
  let s :=
    if u < 144 && v != 0 then
      s.each 8 fun i s => if 8 * (u / 8) + i = u then s else s.abandonTest (8 * (u / 8) + i)
    else s
  s.followCap u

end Sys2Proof.Machine
end

