-- ==== Sys2Proof/Machine/Admission.lean ====
section
/-!
DEFINITION. What the Setter reads and computes at admission (R91 to R108, R115, R116): the job header, the
tables behind it, the demand of every window, the rates and the verdict.
-/

namespace Sys2Proof.Machine

/-! ### The job header (R91) -/

/-- A 32-bit word of the header. -/
def State.hdrWord (s : State) (base off : Nat) : Nat := s.loadNat (base + off) 4

/-- A product lane; its LEN is read from its template. -/
def State.readLane (s : State) (base l : Nat) : LaneDef :=
  let w := s.hdrWord base (0x60 + 16 * l)
  let x1 := w / 65536
  let tpl := s.loadNat (base + 0x68 + 16 * l) 6
  { x0 := w % 65536, x1 := if x1 = 65535 then 65536 else x1,
    sdist := s.hdrWord base (0x64 + 16 * l), tpl := tpl, len := s.loadNat tpl 4 }

def State.readHdr (s : State) (base : Nat) : JobHdr :=
  let w := s.hdrWord base 0
  let trig := w.testBit 1
  let lead := w / 2 ^ 16 % 256
  let blay := s.hdrWord base 8
  { feed := w.testBit 0, trig := trig, dwc := w / 4 % 8, npl := w / 256 % 16,
    lead := if lead = 0 then 16 else lead, fdecl := s.hdrWord base 4,
    blay := if blay = 0 then 96000 else blay, ncyc := s.hdrWord base 0xC % 2 ^ 24,
    origin := s.loadNat (base + 0x10) 8, endLn := s.loadNat (base + 0x18) 8,
    bdt := s.loadNat (base + 0x20) 6, vfw := s.hdrWord base 0x28,
    widths := (List.range 8).map fun p => s.hdrWord base (0x40 + 4 * p) % 65536 + 1,
    lanes := if trig then (List.range (w / 2 ^ 12 % 16)).map (s.readLane base) else [] }

/-- No end of the job's window. -/
def noEnd : Nat := 0xFFFFFFFFFFFFFFFF

/-- HEADER: a field is in its range, and every must-be-zero field of R91 is zero. -/
def State.hdrOk (s : State) (base : Nat) : Bool :=
  let w := s.hdrWord base 0
  let h := s.readHdr base
  let lead := w / 2 ^ 16 % 256
  let nlane := w / 2 ^ 12 % 16
  let zero := fun (off n : Nat) => s.loadNat (base + off) n == 0
  h.dwc ≤ 4 && w / 32 % 8 == 0 && 1 ≤ h.npl && h.npl ≤ 8 &&
    (!h.trig || (1 ≤ nlane && nlane ≤ 8)) &&
    (lead == 0 || (8 ≤ lead && lead ≤ 64)) && w / 2 ^ 24 == 0 &&
    1 ≤ h.fdecl && h.fdecl ≤ (if 3 ≤ h.dwc then 160000 else 200000) &&
    h.blay ≤ 160000 && zero 0xF 1 && (h.trig || 1 ≤ h.ncyc) &&
    (h.trig || h.origin % 64 == 0) && (h.endLn % 64 == 0 || h.endLn == noEnd) &&
    (h.trig || h.bdt % 8 == 0) && zero 0x26 2 && zero 0x2C 0x14 &&
    (List.range h.npl).all (fun p => zero (0x42 + 4 * p) 2) &&
    h.lanes.all (fun l => l.x0 % 256 == 0 && l.x1 % 256 == 0 && l.tpl % 16 == 0) &&
    (List.range h.lanes.length).all (fun l => zero (0x6E + 16 * l) 2) &&
    zero 0xE0 0x20

/-! ### Tile entries and fetch lists (R93, R94, R96) -/

/-- A tile entry as a number of 128 bits. -/
def State.tileEnt (s : State) (addr : Nat) : Nat := s.loadNat addr 16

def entCost (e : Nat) : Nat := e % 2 ^ 24
def entBlank (e : Nat) : Bool := e.testBit 24
def entEntry (e : Nat) : Nat := e / 2 ^ 32 % 2 ^ 17
def entFl (e : Nat) : Nat := e / 2 ^ 64 % 2 ^ 48
def entDofs (e : Nat) : Nat := e / 2 ^ 112

/-- NENT of a fetch list. -/
def State.listLen (s : State) (fl : Nat) : Nat := s.loadNat fl 2

/-- An entry of a fetch list as a number of 128 bits. -/
def State.listEnt (s : State) (fl i : Nat) : Nat := s.loadNat (fl + 16 * (i + 1)) 16

def lstSrc (e : Nat) : Nat := e % 2 ^ 48
def lstLen (e : Nat) : Nat := e / 2 ^ 64 % 2 ^ 17
def lstDst (e : Nat) : Nat := e / 2 ^ 96 % 2 ^ 17

/-- Bytes of a fetch area (R95). -/
def areaSize : Nat := 106496

/-- 64-byte blocks that a range touches. -/
def blocksOf (src len : Nat) : Nat := if len = 0 then 0 else (src + len - 1) / 64 - src / 64 + 1

/-- What a tile or a set of tiles asks of a window: Σ (COST + 64), fetch bytes, the largest COST. -/
structure Demand where
  work  : Nat
  bytes : Nat
  cost  : Nat
deriving DecidableEq, Repr

def Demand.zero : Demand := { work := 0, bytes := 0, cost := 0 }

def Demand.add (a b : Demand) : Demand :=
  { work := a.work + b.work, bytes := a.bytes + b.bytes, cost := max a.cost b.cost }

/-- Fetch bytes of a tile that is not BLANK (R96). -/
def State.fetchBytes (s : State) (fl : Nat) : Nat :=
  let n := s.listLen fl
  16 + 16 * (n + 1) + 64 * ((List.range n).foldl
    (fun acc i => acc + blocksOf (lstSrc (s.listEnt fl i)) (lstLen (s.listEnt fl i))) 0)

def State.tileDemand (s : State) (e : Nat) : Demand :=
  if entBlank e then { work := 0, bytes := 16, cost := 0 }
  else { work := entCost e + 64, bytes := s.fetchBytes (entFl e), cost := entCost e }

/-- The demand of `n` tile entries at an address, with their band descriptor. -/
def State.tableDemand (s : State) (addr n : Nat) : Demand :=
  (List.range n).foldl (fun d i => d.add (s.tileDemand (s.tileEnt (addr + 16 * i))))
    { work := 0, bytes := 8, cost := 0 }

/-! ### Structure checks (R92 to R94, R97) -/

/-- A structure lies outside installed DRAM; a field is out of range. -/
structure Bad where
  address : Bool
  fetch   : Bool
deriving DecidableEq, Repr

def Bad.none : Bad := { address := false, fetch := false }
def Bad.or (a b : Bad) : Bad := { address := a.address || b.address, fetch := a.fetch || b.fetch }

def State.inDram (s : State) (a n : Nat) : Bool := decide (a + n ≤ s.dramCap)

/-- One fetch-list entry. -/
def State.checkList (s : State) (e : Nat) : Bad :=
  let len := lstLen e
  { address := !s.inDram (lstSrc e) len,
    fetch := !(e / 2 ^ 48 % 2 ^ 16 == 0 && e / 2 ^ 81 % 2 ^ 15 == 0 && e / 2 ^ 113 == 0 &&
      1 ≤ len && len ≤ areaSize && lstDst e + len ≤ areaSize) }

/-- One tile entry and its fetch list. -/
def State.checkTile (s : State) (e : Nat) : Bad :=
  if entBlank e then Bad.none
  else
    let fl := entFl e
    let own := e / 2 ^ 25 % 2 ^ 7 == 0 && entEntry e % 4 == 0 && entEntry e < 0x1A000 &&
      e / 2 ^ 49 % 2 ^ 15 == 0 && fl % 64 == 0 && entDofs e < 0x1A00
    let n := s.listLen fl
    if !s.inDram fl 16 then { address := true, fetch := !own }
    else if n = 0 ∨ 4096 < n then { address := false, fetch := true }
    else if !s.inDram fl (16 * (n + 1)) then { address := true, fetch := !own }
    else
      (List.range n).foldl (fun b i => b.or (s.checkList (s.listEnt fl i)))
        { address := false, fetch := !(own && s.loadNat (fl + 2) 14 == 0) }

/-- A band descriptor and its tile table of `n` entries. -/
def State.checkDesc (s : State) (addr n : Nat) : Bad :=
  let d := s.loadNat addr 8
  let t := d % 2 ^ 48
  let own : Bad := { address := !s.inDram t (16 * n), fetch := d / 2 ^ 49 != 0 }
  if own.address then own
  else (List.range n).foldl (fun b i => b.or (s.checkTile (s.tileEnt (t + 16 * i)))) own

/-- Tile columns of a lane in a plane of a width: the first and how many. -/
def LaneDef.columns (l : LaneDef) (width : Nat) : Nat × Nat :=
  (l.x0 / 256, min (l.x1 / 256) (tilesOf width) - l.x0 / 256)

/-- Address of a band descriptor: of a cycle band, or of a group of a template. -/
def JobHdr.descAddr (h : JobHdr) (c p : Nat) : Nat := h.bdt + 8 * (c * h.npl + p)
def JobHdr.groupAddr (h : JobHdr) (l : LaneDef) (k p : Nat) : Nat := l.tpl + 16 + 8 * (k * h.npl + p)

/-- LEN of a template is in its range. -/
def LaneDef.lenOk (l : LaneDef) : Bool := 64 ≤ l.len && l.len ≤ 16777215

def LaneDef.groups (l : LaneDef) : Nat := ceilDiv l.len 64 + 1

/-- Every table of the job. -/
def State.checkTables (s : State) (h : JobHdr) : Bad :=
  if h.trig then
    h.lanes.foldl (fun b l =>
      if !s.inDram l.tpl 16 then b.or { address := true, fetch := false }
      else
        let b := b.or { address := false, fetch := s.loadNat (l.tpl + 4) 12 != 0 }
        if !l.lenOk then b
        else if !s.inDram l.tpl (16 + 8 * h.npl * l.groups) then b.or { address := true, fetch := false }
        else (List.range l.groups).foldl (fun b k => (List.range h.npl).foldl (fun b p =>
          b.or (s.checkDesc (h.groupAddr l k p) (l.columns (h.width p)).2)) b) b) Bad.none
  else if !s.inDram h.bdt (8 * h.npl * h.ncyc) then { address := true, fetch := false }
  else (List.range h.ncyc).foldl (fun b c => (List.range h.npl).foldl (fun b p =>
    b.or (s.checkDesc (h.descAddr c p) (tilesOf (h.width p)))) b) Bad.none

/-! ### Windows (R99 to R104) -/

/-- The band of a plane of an OMIN whose read line E lies in [R + 64, R + 127]: the one due in the window
at R. -/
def bandDue (lead omin : Nat) (r : Int) : Int := -(-(r + 64 + lead + 1 - omin) / 64) * 64

/-- Cycle band of a band (R92). -/
def JobHdr.cycleBand (h : JobHdr) (b : Int) : Nat := ((b - h.origin) / 64 % (h.ncyc : Int)).toNat

/-- The demand of a plane-band. In triggered layout it is that of the group with the highest declared
sum, for each lane: DEDUCED, the highest of each sum by itself. A tile outside every lane has no entry and
counts no fetch bytes (DESIGN CHOICE). -/
def State.bandDemand (s : State) (h : JobHdr) (p : Nat) (b : Int) : Demand :=
  if h.trig then
    h.lanes.foldl (fun d l =>
      let all := (List.range l.groups).map fun k =>
        s.tableDemand (s.loadNat (h.groupAddr l k p) 6) (l.columns (h.width p)).2
      d.add { work := maxOf (all.map (·.work)), bytes := maxOf (all.map (·.bytes)),
              cost := maxOf (all.map (·.cost)) }) Demand.zero
  else s.tableDemand (s.loadNat (h.descAddr (h.cycleBand b) p) 6) (tilesOf (h.width p))

/-- The demand of the window that starts at R. -/
def State.windowDemand (s : State) (h : JobHdr) (r : Int) : Demand :=
  (List.range h.npl).foldl (fun d p => d.add (s.bandDemand h p (bandDue h.lead (s.omin p) r))) Demand.zero

/-- The demands of the windows of the cycle, from the one that starts at ORIGIN. -/
def State.windows (s : State) (h : JobHdr) : List Demand :=
  if h.trig then [s.windowDemand h 0]
  else (List.range h.ncyc).map fun i => s.windowDemand h ((h.origin + 64 * i : Nat) : Int)

/-- S(p) × tiles, summed (R103). -/
def State.storeNeed (s : State) (h : JobHdr) : Nat :=
  (List.range h.npl).foldl (fun acc p =>
    let phi := (((s.omin p : Int) - h.lead - 1) % 64).toNat
    acc + ceilDiv (s.omax p - s.omin p + phi + 128) 64 * tilesOf (h.width p)) 0

/-! ### Rates (R106, R183, R190) -/

/-- Hubs with an enabled slot, with how many. -/
def State.busyHubs (s : State) : List (Nat × Nat) :=
  ((List.range 16).map fun k => (k, ((List.range 4).filter fun i => s.slotEn (4 * k + i)).length)).filter
    fun e => e.2 != 0

/-- Blocks per second of a lane rate (R181). -/
def blockRate (code : Nat) : Nat := [47348485, 156250000, 195312500, 390625000].getD code 0

/-- f_link of R183. -/
def State.fLink (s : State) (dwc : Nat) : Nat :=
  minOf (s.busyHubs.map fun (k, n) =>
    let up := [2 * k, 2 * k + 1].filter fun l => s.fld (DL_LANE_STAT l) DL_LANE_STAT_STATE == 6
    if up.isEmpty then 0
    else 95 * minOf (up.map fun l => blockRate (s.fld (DL_LANE_STAT l) DL_LANE_STAT_RATE)) /
      (100 * (n * (64 * doseWidth dwc + 4))))

/-- f_hub of R190. -/
def State.fHub (s : State) : Nat := minOf (s.busyHubs.map fun e => (s.reg (DL_HUB_CAP0 e.1)).toNat)

/-- LIMIT for any job (R190): LEAD against DEPTH, the dose width against DWS. -/
def State.hubsTake (s : State) (h : JobHdr) : Bool :=
  s.busyHubs.all fun e =>
    decide (h.lead + 2 ≤ s.fld (DL_HUB_CAP1 e.1) DL_HUB_CAP1_DEPTH) &&
      (s.fld (DL_HUB_CAP1 e.1) DL_HUB_CAP1_DWS).testBit h.dwc

/-- f_c for a largest left side of the compute inequality; no demand sets no bound. -/
def computeRate (n dMax : Nat) : Nat := if dMax = 0 then 200000 else n * 2000000000 * 64 * 9 / (10 * dMax)

/-- The compute and DRAM ratios of a demand at a rate: numerator and denominator. -/
def computeRatio (n f work : Nat) : Nat × Nat := (2 * work * f * 10, n * 2000000000 * 64 * 9)
def dramRatio (blay f bytes : Nat) : Nat × Nat := (bytes * f, blay * 1000000 * 64)

/-- A ratio is at most one. -/
def ratioOk (r : Nat × Nat) : Bool := decide (r.1 ≤ r.2)

/-- The tile condition of R104. -/
def tileOk (f cost : Nat) : Bool := decide ((cost + 64) * f ≤ 6400000000)

/-- The margin 1 − ratio in units of 2^-15, rounded down and saturated; free where the ratio has no
value. -/
def marginOf (d : Nat) (r : Nat × Nat) : Int :=
  if r.2 = 0 then (if r.1 = 0 then sext 16 (Config.freeNat d) else -32768)
  else clampI (-32768) 32767 (32768 * ((r.2 : Int) - r.1) / r.2)

/-! ### The verdict (R107, R108) -/

/-- The answer of an admission. -/
structure Verdict where
  reason : Nat
  rate   : Nat
  margin : Int
  bind   : Nat
  worst  : Nat
  job    : Option JobSt
deriving DecidableEq, Repr

/-- A rejection of a job whose structure gives no demand: no inequality binds, and the rate, the margin
and the window are free. -/
def Verdict.reject (d reason : Nat) : Verdict :=
  let x := Config.freeNat d
  { reason := reason, rate := x % 2 ^ 32, margin := sext 16 (x / 2 ^ 32), bind := 3,
    worst := x / 2 ^ 48 % 2 ^ 32, job := none }

/-- Two lanes' across ranges overlap. -/
def lanesOverlap (ls : List LaneDef) : Bool :=
  (List.range ls.length).any fun i => (List.range i).any fun j =>
    match ls[i]?, ls[j]? with
    | some a, some b => decide (a.x0 < b.x1 ∧ b.x0 < a.x1)
    | _, _ => false

/-- The in-flight check of R116. -/
def State.inFlight (s : State) (h : JobHdr) : Nat :=
  h.lanes.foldl (fun acc l =>
    acc + ceilDiv (s.omaxMax h.npl - s.ominMin h.npl + l.len + 320 + h.lead) l.len + 1) 0

/-- The first failing reason that concerns the job's structure; 0 when none fails. SLOTS judges enabled
slots only (DEDUCED). -/
def State.structureReason (s : State) (h : JobHdr) : Nat :=
  let bad := s.checkTables h
  let on := (List.range 64).filter s.slotEn
  if bad.address then 2
  else if bad.fetch then 3
  else if (List.range h.npl).any (fun p => (s.offsets p).isEmpty) ||
      on.any (fun n => decide (h.npl ≤ s.slotPlane n)) then 4
  else if 4096 < s.storeNeed h then 5
  else if h.trig && (lanesOverlap h.lanes || h.lanes.any (fun l => !l.lenOk) ||
      decide (1024 < s.inFlight h)) then 6
  else if h.trig && h.lanes.any (fun l =>
      decide (l.sdist + s.ominMin h.npl < 320 + h.lead + h.vfw)) then 7
  else 0

/-- The index and value of the first largest element. -/
def firstMax (xs : List Nat) : Nat × Nat :=
  xs.zipIdx.foldl (fun (i, m) (x, k) => if m < x then (k, x) else (i, m)) (0, xs.headD 0)

/-- A job rejected for a reason of its structure still has the demand that R107 reports: its tables are
sound, every plane has a slot and every LEN is in its range. -/
def State.measured (s : State) (h : JobHdr) (r : Nat) : Bool :=
  decide (4 ≤ r) && (List.range h.npl).all (fun p => !(s.offsets p).isEmpty) && h.lanes.all (·.lenOk)

/-- The answer for a job whose demand is known (BIND is tile only with reason TILE: DESIGN CHOICE); `r` is the reason its structure gives, 0 when it passes. -/
def State.judge (s : State) (d : Nat) (h : JobHdr) (r : Nat) : Verdict :=
  let n := min 126 s.ncap
  let ws := s.windows h
  let cw := firstMax (ws.map (·.work))
  let dw := firstMax (ws.map (·.bytes))
  let cMax := maxOf (ws.map (·.cost))
  let rc := computeRatio n h.fdecl cw.2
  let rd := dramRatio h.blay h.fdecl dw.2
  let dram := decide (rc.1 * rd.2 < rd.1 * rc.2)
  let fc := computeRate n (2 * cw.2)
  let fd := if dw.2 = 0 then 200000 else h.blay * 64000000 / dw.2
  let ft := 6400000000 / (cMax + 64)
  let fdw := if 3 ≤ h.dwc then 160000 else 200000
  let fo := min fd (min ft (min fdw (min (s.fLink h.dwc) s.fHub)))
  let reason :=
    if r ≠ 0 then r
    else if !h.feed && decide (fc < h.fdecl) then 8
    else if !h.feed && decide (fd < h.fdecl) then 9
    else if !h.feed && decide (ft < h.fdecl) then 10
    else if !s.hubsTake h || (!h.feed && decide (min fdw (min (s.fLink h.dwc) s.fHub) < h.fdecl)) then 11
    else 0
  { reason := reason, rate := min fc fo, margin := marginOf d (if dram then rd else rc),
    bind := if reason = 10 then 2 else b2n dram,
    worst := if h.trig then 0 else if dram then dw.1 else cw.1,
    job := if reason = 0 then
        some { hdr := h, sums := ws.map fun x => (x.work, x.bytes), dMax := 2 * cw.2, fMax := dw.2,
               cMax := cMax, fOther := fo, omins := (List.range h.npl).map s.omin,
               omaxs := (List.range h.npl).map s.omax, goLn := 0, stopLn := h.endLn }
      else none }

/-- Admission of the job whose header lies at an address (R107). -/
def State.verdict (s : State) (d base : Nat) : Verdict :=
  if !s.inDram base 256 then Verdict.reject d 2
  else if !s.hdrOk base then Verdict.reject d 1
  else
    let h := s.readHdr base
    let r := s.structureReason h
    if r = 0 || s.measured h r then s.judge d h r else Verdict.reject d r

/-- JOB_BASE of a slot. -/
def State.jobBase (s : State) (j : Nat) : Nat := s.reg64 (JOB_BASE_LO j) (JOB_BASE_HI j)

/-- ADMIT (R117): the slot enters CHECKING. -/
def State.admitCmd (s : State) (j : Nat) : State :=
  if s.slotState j = 0 ∨ s.slotState j = 2 ∨ s.slotState j = 3 then
    (s.setSlotState j 1).setFld (ADM_SLOT_STAT j) ADM_SLOT_STAT_VERDICT 0
  else s.ignored (SLOT_CMD j)

def execAdmitJob (j : Fin 2) (s : State) : Out :=
  .next (s.whenAwake (SLOT_CMD j) fun s => s.admitCmd j)

/-- ADMISSION_COMPLETE (R107): one whose job header must wait for DRAM is not complete yet. -/
def execAdmissionComplete (j : Fin 2) (s : State) : Out :=
  .next <|
    if s.slotState j ≠ 1 then s
    else
      match s.dramStalls (0, 0) false .keep [(s.jobBase j, 256)] with
      | some s => s
      | none =>
      let (d, s) := (s.dramReads (0, 0) .keep [(s.jobBase j, 256)]).draw
      let v := s.verdict d (s.jobBase j)
      let ok := v.reason == 0
      let s := (s.setJob j v.job).setSlotState j (if ok then 2 else 3)
      let s := ((s.setFld (ADM_SLOT_STAT j) ADM_SLOT_STAT_VERDICT (b2n ok)).setFld (ADM_SLOT_STAT j)
        ADM_SLOT_STAT_REASON v.reason).setFld (ADM_SLOT_STAT j) ADM_SLOT_STAT_BIND v.bind
      let s := (s.setReg (ADM_RATE j) (BitVec.ofNat 32 v.rate)).setReg (ADM_MARGIN j)
        (BitVec.ofNat 32 (twos 16 v.margin))
      (s.setReg (ADM_WORST j) (BitVec.ofNat 32 v.worst)).setEvt BLK_ADM j

end Sys2Proof.Machine
end

