-- ==== Sys2Proof/Machine/Crc.lean ====
section
/-!
DEFINITION. Cyclic redundancy checks over bytes: the reflected CRC-32C of R70, which most records and
packets of the device carry, and the bit-serial step that the check-value units share.
-/

namespace Sys2Proof.Machine

/-- One bit of a reflected CRC of 32 bits. -/
def crcBit (poly c : Word) : Word := if c.getLsbD 0 then (c >>> 1) ^^^ poly else c >>> 1

/-- One byte of a reflected CRC of 32 bits. -/
def crcByte (poly c : Word) (b : Byte) : Word :=
  (List.range 8).foldl (fun c _ => crcBit poly c) (c ^^^ b.setWidth 32)

/-- The CRC-32C polynomial, reflected. -/
def polyC : Word := 0x82F63B78

/-- CRC-32C before its final XOR, from an initial value. -/
def crc32cFrom (init : Word) (bs : List Byte) : Word := bs.foldl (crcByte polyC) init

/-- CRC-32C with the parameters of R70. -/
def crc32c (bs : List Byte) : Word := ~~~(crc32cFrom 0xFFFFFFFF bs)

/-- CRC-16 with polynomial 0x1021, most significant bit first, one byte. -/
def crc16Byte (c : BitVec 16) (b : Byte) : BitVec 16 :=
  (List.range 8).foldl (fun c _ => if c.getLsbD 15 then (c <<< 1) ^^^ 0x1021 else c <<< 1)
    (c ^^^ (b.setWidth 16 <<< 8))

end Sys2Proof.Machine
end

