-- ==== Sys2Proof/Machine/Wake.lean ====
section
/-!
DEFINITION. The wake of a fast domain, by a request or by a source (R457, R458).
-/

namespace Sys2Proof.Machine

def State.domState (s : State) (d : Nat) : Nat := s.fld (CK_DOM d) CK_DOM_STATE
def State.setDomState (s : State) (d v : Nat) : State := s.setFld (CK_DOM d) CK_DOM_STATE v

/-- A wake begins. -/
def State.wakeBegin (s : State) (d : Nat) (fromOff : Bool) : State :=
  (s.onCk fun c => { c with
    waking := c.waking.set none d (some { fromOff := fromOff, since := s.now, late := false })
    }).setDomState d 3

/-- The entry is in its second phase: its clocks are stopped, and stay so. The first phase ends within 8 µs, when,
the spec leaves open (R458). -/
def State.entryStopped (s : State) (e : DomEntry) : DomEntry × State :=
  if e.stopped || decide (e.since + 800 ≤ s.now) then ({ e with stopped := true }, s)
  else let (k, s) := s.draw; ({ e with stopped := Config.freeBit k 0 }, s)

/-- A wake request (R457, R458). -/
def State.wakeDom (s : State) (d : Nat) : State :=
  match s.ck.entry.get none d with
  | some e =>
    let (e, s) := s.entryStopped e
    if e.stopped then
      s.onCk fun c => { c with entry := c.entry.set none d (some { e with wake := true }) }
    else (s.onCk fun c => { c with entry := c.entry.set none d none }).setDomState d 2
  | none =>
    if s.domState d ≤ 1 then s.wakeBegin d (s.domState d == 0) else s

/-- A write of REQ below AWAKE in the cycle of a wake source is ignored and logged (R458). -/
def State.requestLoses (s : State) (d : Nat) : State := s.fault 0x0041 d

/-- A write of REQ below AWAKE in the cycle of a wake source has not taken place: WAKESRC and REQ are as before it,
and an entry that it began ends (R458). -/
def State.undoLowered (s : State) (d : Nat) : State :=
  match s.ck.lowered.get none d with
  | some (t, old) =>
    if t = s.now then
      let keep := s.domState d
      let s := (s.setReg (CK_DOM d) old).onCk fun c => { c with lowered := c.lowered.set none d none }
      let s := match s.ck.entry.get none d with
        | some e =>
          if e.since = s.now ∧ e.wake = false then
            (s.onCk fun c => { c with entry := c.entry.set none d none }).setDomState d e.before
          else s.setDomState d keep
        | none => s.setDomState d keep
      s.requestLoses d
    else s
  | none => s

/-- A source wakes a domain: REQ becomes AWAKE. -/
def State.sourceWakes (s : State) (d : Nat) : State :=
  let s := s.undoLowered d
  ((s.setFld (CK_DOM d) CK_DOM_REQ 2).onCk fun c => { c with woke := c.woke.set none d (some s.now) }).wakeDom d

/-- A source of WAKESRC occurs: 0 a PROD edge, 1 a doorbell, 2 H advances, 3 a compare succeeds. Every domain that
has it enabled wakes. -/
def State.wakeSource (s : State) (src : Nat) : State :=
  s.each 3 fun d s => if (s.fld (CK_DOM d) CK_DOM_WAKESRC).testBit src then s.sourceWakes d else s

end Sys2Proof.Machine
end

