-- ==== Sys2Proof/Machine/Timebase.lean ====
section
/-!
DEFINITION. The timebase (R383 to R392): its advance, steps, cross-stamps, compares and time pulses.
-/

namespace Sys2Proof.Machine

/-- R388: a compare of two flat views. -/
def cmpSucceeds (v g : Nat) : Bool := decide ((v + 2 ^ 64 - g % 2 ^ 64) % 2 ^ 64 < 2 ^ 63)

/-- Time from a number of units of 2^-32 ns. -/
def TbSt.put (t : TbSt) (x : Nat) : TbSt :=
  { t with fr := x % 2 ^ 32, ns := x / 2 ^ 32 % 1000000000,
           sec := x / 2 ^ 32 / 1000000000 % 2 ^ 48 }

/-- The time as a number of units of 2^-32 ns. -/
def TbSt.units (t : TbSt) : Nat := (t.sec * 1000000000 + t.ns) * 2 ^ 32 + t.fr

/-- R392: a cross-stamp with its cause. -/
def State.stampCross (s : State) (cause : Nat) : State :=
  let s := s.onTb fun t => { t with xsFr := t.fr, xsFlat := s.flat,
                                    xsCyc := (List.range 4).map fun k => (s.ccAt k).cycle.toNat % 2 ^ 32 }
  let s := s.setFld TB_XS_STAT TB_XS_STAT_SEQ (s.fld TB_XS_STAT TB_XS_STAT_SEQ + 1)
  (s.setFld TB_XS_STAT TB_XS_STAT_CAUSE cause).setEvt BLK_TB 1

/-! ### Time pulses (R390, R391) -/

/-- PER of an output, in units of 2^-32 ns. -/
def State.tpPer (s : State) (n : Nat) : Nat :=
  max (20 * 2 ^ 32) ((s.reg (TP_PER_NS n)).toNat * 2 ^ 32 + (s.reg (TP_PER_FRAC n)).toNat)

/-- WIDTH of an output, from 10 ns to PER - 10 ns, in units of 2^-32 ns. -/
def State.tpWidth (s : State) (n : Nat) : Nat :=
  clampN (10 * 2 ^ 32) (s.tpPer n - 10 * 2 ^ 32) ((s.reg (TP_WIDTH n)).toNat * 2 ^ 32)

def State.tpAt (s : State) (n : Nat) : TpSt := s.tb.tp.get TpSt.reset n

def State.setTp (s : State) (n : Nat) (t : TpSt) : State :=
  s.onTb fun b => { b with tp := b.tp.set TpSt.reset n t }

/-- The flat view of the output's next target. -/
def State.tpTarget (s : State) (n : Nat) : Nat :=
  (s.reg64 (TP_START_LO n) (TP_START_HI n) + (s.tpAt n).next * s.tpPer n / 2 ^ 32) % 2 ^ 64

/-- The flat view of the end of the pulse of the output's next target. -/
def State.tpEnd (s : State) (n : Nat) : Nat :=
  (s.reg64 (TP_START_LO n) (TP_START_HI n) + ((s.tpAt n).next * s.tpPer n + s.tpWidth n) / 2 ^ 32) % 2 ^ 64

/-- R391: the least k whose target lies after the flat time. -/
def State.tpNextAfter (s : State) (n v : Nat) : Nat :=
  let start := s.reg64 (TP_START_LO n) (TP_START_HI n)
  if cmpSucceeds v start then
    ceilDiv (((v + 2 ^ 64 - start) % 2 ^ 64 + 1) * 2 ^ 32) (s.tpPer n)
  else 0

/-- An output becomes active, and its pulse ends at a flat time. -/
def State.tpBegin (s : State) (n endAt : Nat) : State :=
  let k := if s.bit (TP_CFG n) TP_CFG_MODE then (s.tpAt n).next + 1 else (s.tpAt n).next
  (s.setTp n { next := k, endAt := endAt % 2 ^ 64 }).setFld (TP_CFG n) TP_CFG_ACTIVE 1

/-- An output becomes inactive; a one-shot clears EN. -/
def State.tpFinish (s : State) (n : Nat) : State :=
  let s := s.setFld (TP_CFG n) TP_CFG_ACTIVE 0
  if s.bit (TP_CFG n) TP_CFG_MODE then s else s.setFld (TP_CFG n) TP_CFG_EN 0

/-- An output is armed afresh: its next target is g_0. -/
def State.tpArm (s : State) (n : Nat) : State := s.setTp n { s.tpAt n with next := 0 }

/-- R391: an output after a step of the time from flat `v0` to `v`. A forward step passes a target that the time
before it had not reached; its pulse lasts WIDTH from the step (DEDUCED, log 57). A target reached in the same
tick without the step starts its pulse as ever; after a backward step a periodic output emits nothing. -/
def State.tpStep (v0 v : Nat) (n : Nat) (s : State) : State :=
  if s.bit (TP_CFG n) TP_CFG_ACTIVE then
    let s := if cmpSucceeds v (s.tpAt n).endAt then s.tpFinish n else s
    if s.bit (TP_CFG n) TP_CFG_MODE then s.setTp n { s.tpAt n with next := s.tpNextAfter n v } else s
  else if s.bit (TP_CFG n) TP_CFG_EN then
    let reached := cmpSucceeds v (s.tpTarget n)
    let passed := reached && !cmpSucceeds v0 (s.tpTarget n)
    let s :=
      if passed then
        (((s.tpBegin n (v + s.tpWidth n / 2 ^ 32)).hwSet (TP_CFG n) TP_CFG_MISSED.lo).setEvt BLK_TB 6).fault
          0x0581 n
      else if reached && cmpSucceeds v v0 then s.tpBegin n (s.tpEnd n)
      else s
    if s.bit (TP_CFG n) TP_CFG_MODE then s.setTp n { s.tpAt n with next := s.tpNextAfter n v } else s
  else s

/-! ### The tick -/

/-- R383, R387: the timebase advances by INC, and a step written in the tick before is performed. -/
def State.tbAdvance (s : State) : State :=
  let s := s.onTb fun t => { t.put (t.units + t.inc) with cmpNew := [] }
  let v0 := s.flat
  let stepped : Option TbSt :=
    match s.tb.set, s.tb.adj with
    | some (sec, ns), _ => some { s.tb with sec := sec, ns := ns, fr := 0 }
    | none, some d =>
      some (s.tb.put (((s.tb.units : Int) + d * 2 ^ 32) % (2 ^ 80 * 1000000000)).toNat)
    | none, none => none
  match stepped with
  | none => s
  | some t =>
    let s := s.onTb fun _ => { t with set := none, adj := none }
    let s := (s.setEvt BLK_TB 0).stampCross 3
    s.each 16 (State.tpStep v0 s.flat)

/-- R389: an enabled unit compares; at success it raises its event, clears its enable bit, and
is a wake source (R457). -/
def State.compareAt (s : State) (m : Nat) : State :=
  if s.bit (TB_CMP_CTL m) TB_CMP_CTL_EN && !s.tb.cmpNew.contains m &&
      cmpSucceeds s.flat (s.reg64 (TB_CMP_LO m) (TB_CMP_HI m)) then
    ((s.setFld (TB_CMP_CTL m) TB_CMP_CTL_EN 0).setEvt BLK_TB (2 + m)).wakeSource 3
  else s

/-- R390: an armed output whose next target is reached becomes active. -/
def State.pulseStart (s : State) (n : Nat) : State :=
  if s.bit (TP_CFG n) TP_CFG_EN && !s.bit (TP_CFG n) TP_CFG_ACTIVE && cmpSucceeds s.flat (s.tpTarget n) then
    s.tpBegin n (s.tpEnd n)
  else s

/-- R390: an active output whose pulse is over becomes inactive, with EN set or not (DEDUCED, log 57). -/
def State.pulseEnd (s : State) (n : Nat) : State :=
  if s.bit (TP_CFG n) TP_CFG_ACTIVE && cmpSucceeds s.flat (s.tpAt n).endAt then s.tpFinish n else s

/-- R392: the cross-stamp of every 131,072 ticks. -/
def State.crossDue (s : State) : State :=
  if s.tb.xsNext ≤ s.now then
    (s.onTb fun t => { t with xsNext := s.now + 131072 }).stampCross 0
  else s

/-- The value of a new tick, and what is judged on it. -/
def State.tbTick (s : State) : State :=
  let s := (s.tbAdvance.crossDue).each 4 fun m s => s.compareAt m
  s.each 16 fun n s => (s.pulseEnd n).pulseStart n

/-! ### The commands -/

/-- A write of TB_INC_NS, which loads the increment (R386, R392). -/
def State.tbIncWrite (s : State) (v : Word) : State :=
  let s := s.typedWrite TB_INC_NS v
  let s := s.onTb fun t => { t with
    inc := s.fld TB_INC_NS TB_INC_NS_NS * 2 ^ 32 + (s.reg TB_INC_FRAC).toNat }
  s.stampCross 2

/-- TB_INC_NS_WRITE (R386, R392). -/
def execTbIncNsWrite (v : BitVec 32) (s : State) : Out := .next (s.tbIncWrite v)

/-- A write of TB_SET_SHI; the step is performed in the next tick (R387). -/
def State.tbSetWrite (s : State) (v : Word) : State :=
  let s := s.typedWrite TB_SET_SHI v
  let sec := (s.reg TB_SET_SLO).toNat + s.fld TB_SET_SHI TB_SET_SHI_VALUE * 2 ^ 32
  s.onTb fun t => { t with set := some (sec, min 999999999 (s.reg TB_SET_NS).toNat) }

/-- TB_SET (R387). -/
def execTbSet (v : BitVec 32) (s : State) : Out := .next (s.tbSetWrite v)

/-- A write of TB_ADJ_HI; adjustments of one tick add up (R387). -/
def State.tbAdjWrite (s : State) (v : Word) : State :=
  let s := s.typedWrite TB_ADJ_HI v
  let d := sext 64 (s.reg64 TB_ADJ_LO TB_ADJ_HI)
  s.onTb fun t => { t with adj := some (t.adj.getD 0 + d) }

/-- TB_ADJ (R387). -/
def execTbAdj (v : BitVec 32) (s : State) : Out := .next (s.tbAdjWrite v)

/-- NOW_READ (R385): a read of TB_NOW_FRAC or TB_FLAT_LO latches the time set. -/
def State.latchNow (s : State) (flat : Bool) : State :=
  let w := BitVec.ofNat 32
  let s := if flat then s.setReg TB_FLAT_LO (w s.flat) else s.setReg TB_NOW_FRAC (w s.tb.fr)
  let s := (s.setReg TB_NOW_NS (w s.tb.ns)).setReg TB_NOW_SLO (w s.tb.sec)
  (s.setReg TB_NOW_SHI (w (s.tb.sec / 2 ^ 32))).setReg TB_FLAT_HI (w (s.flat / 2 ^ 32))

/-- A read of TB_XS_STAT (R392) latches the rest of the cross-stamp set. -/
def State.latchXs (s : State) : State :=
  let w := BitVec.ofNat 32
  let s := (s.setReg TB_XS_FRAC (w s.tb.xsFr)).setReg TB_XS_FLAT_LO (w s.tb.xsFlat)
  let s := s.setReg TB_XS_FLAT_HI (w (s.tb.xsFlat / 2 ^ 32))
  s.each 4 fun k s => s.setReg (TB_XS_CYC k) (w (s.tb.xsCyc.getD k 0))

/-- A write of TB_XS_CMD: GO takes a cross-stamp (R392). -/
def State.tbXsWrite (s : State) (v : Word) : State := if v.getLsbD 0 then s.stampCross 1 else s

/-- TB_XS_CMD (R392). -/
def execTbXsCmd (v : BitVec 32) (s : State) : Out := .next (s.tbXsWrite v)

/-- A write of TB_CMP_CTL: a unit enabled now compares from the next tick (R389). -/
def State.cmpCtlWrite (s : State) (m : Nat) (v : Word) : State :=
  let was := s.bit (TB_CMP_CTL m) TB_CMP_CTL_EN
  let s := s.typedWrite (TB_CMP_CTL m) v
  if !was && s.bit (TB_CMP_CTL m) TB_CMP_CTL_EN then s.onTb fun t => { t with cmpNew := m :: t.cmpNew } else s

/-- CROSS_STAMP (R392): the periodic one. -/
def execCrossStamp (s : State) : Out := .next s.crossDue

/-- COMPARE (R389): an enabled unit whose compare succeeds. -/
def execCompare (m : Fin 4) (s : State) : Out := .next (s.compareAt m)

/-- PULSE_START (R390): an armed output reaches its next target. -/
def execPulseStart (n : Fin 16) (s : State) : Out := .next (s.pulseStart n)

/-- PULSE_END (R390): an active output reaches its target + WIDTH. -/
def execPulseEnd (n : Fin 16) (s : State) : Out := .next (s.pulseEnd n)

end Sys2Proof.Machine
end

