-- ==== Sys2Proof/Machine/Ethernet.lean ====
section
/-!
DEFINITION. The Ethernet ports (R394 to R398): rings, the receive filter, one-step transmit times and
the time-stamp events.
-/

namespace Sys2Proof.Machine

/-- Event numbers of a port (EN_EVT). -/
def enEvt (e k : Nat) : Nat := 8 * e + k

/-- The device address of a descriptor of a ring. -/
def State.enDesc (s : State) (base ix : Nat) : Nat := SRAM_BASE + (s.reg base).toNat + 16 * ix

/-- The largest frame of a port, with FCS. -/
def State.enMaxLen (s : State) (e : Nat) : Nat := min 9216 (s.fld (EN_CFG e) EN_CFG_MAXLEN)

/-- The next index of a ring. -/
def ringNext (cnt ix : Nat) : Nat := if ix + 1 < cnt then ix + 1 else 0

/-! ### Frames -/

/-- A 16-bit number of a frame, most significant byte first. -/
def frame16 (bs : List Byte) (o : Nat) : Nat := (bs.getD o 0).toNat * 256 + (bs.getD (o + 1) 0).toNat

/-- The offset of the EtherType, behind one VLAN tag if there is one (R394). -/
def etherTypeAt (bs : List Byte) : Nat := if frame16 bs 12 = 0x8100 then 16 else 12

/-- R394: unicast to the port's address, all broadcast and all multicast. -/
def State.enAccepts (s : State) (e : Nat) (bs : List Byte) : Bool :=
  (bs.getD 0 0).getLsbD 0 ||
    decide (bs.take 6 = leBytes 6 (s.reg64 (EN_MAC_LO e) (EN_MAC_HI e)))

/-- R398: a PTP event message, over Layer 2 or over UDP/IPv4 to port 319. The places of protocol, header
length and destination port are those of IPv4. -/
def ptpEvent (bs : List Byte) : Bool :=
  let t := etherTypeAt bs
  let ip := t + 2
  let udp := ip + 4 * ((bs.getD ip 0).toNat % 16)
  (frame16 bs t == 0x88F7 && decide ((bs.getD ip 0).toNat % 16 ≤ 3)) ||
    (frame16 bs t == 0x0800 && bs.getD (ip + 9) 0 == 17 && frame16 bs (udp + 2) == 319)

/-- Bytes of a list replaced from an offset. -/
def patch (bs : List Byte) (o : Nat) (new : List Byte) : List Byte :=
  bs.take o ++ new ++ bs.drop (o + new.length)

/-- The one's-complement sum of the 16-bit words of a list of even length. -/
def onesSum (bs : List Byte) : Nat :=
  let x := (List.range (bs.length / 2)).foldl (fun a i => a + frame16 bs (2 * i)) 0
  let x := x % 65536 + x / 65536
  x % 65536 + x / 65536

/-- R397: the UDP checksum brought up to date for changed bytes, by one's-complement arithmetic. Of its two
zeros the one that is not the word for "no checksum" is sent (PRESUMED, log 56). -/
def updateChecksum (old : Nat) (before after : List Byte) : Nat :=
  let x := (65535 - old) + (65535 - onesSum before) + onesSum after
  let x := x % 65536 + x / 65536
  let r := 65535 - (x % 65536 + x / 65536)
  if r = 0 then 65535 else r

/-! ### Receive -/

/-- R396: a frame discarded, counted and logged. -/
def State.enDiscard (s : State) (e : Nat) : State := (s.count (EN_CNT e 0)).fault 0x05C1 e

/-- A frame received into the ring (R395, R398). -/
def State.enReceive (s : State) (e : Fin 2) (f : RxFrame) : State :=
  let ix := (s.reg (EN_RX_HEAD e)).toNat
  let d := s.enDesc (EN_RX_BASE e) ix
  let (db, s) := s.memLoad (.en e) d 16
  let buf := SRAM_BASE + leNat (db.take 4)
  let size := leNat ((db.drop 4).take 2)
  let s := s.memSave (.en e) buf (f.bytes.take size)
  let ptp := ptpEvent f.bytes
  let stamp := ptp && !s.rbit EN_EVT (enEvt e 2)
  let missed := ptp && !stamp
  let flags := (db.getD 8 0).toNat % 4 + 4 * b2n stamp + 8 * b2n missed +
    32 * b2n (size < f.bytes.length)
  let s := s.memSave (.en e) d
    (patch (patch db 4 (leBytes 2 f.bytes.length)) 8 [BitVec.ofNat 8 flags])
  let s := s.setReg (EN_RX_HEAD e) (BitVec.ofNat 32 (ringNext (s.reg (EN_RX_CNT e)).toNat ix))
  let s :=
    if stamp then
      ((s.setFld (EN_TSI e) EN_TSI_RXIDX ix).setFld (EN_TSI e) EN_TSI_RXPH f.phase.toNat).setEvt BLK_EN
        (enEvt e 2)
    else if missed then s.count (EN_CNT e 1) else s
  s.setEvt BLK_EN (enEvt e 0)

/-- RX_FRAME (R394 to R396, R398): a frame reaches a port that runs. -/
def execRxFrame (e : Fin 2) (f : RxFrame) (s : State) : Out :=
  .next <|
    if !s.bit (EN_CFG e) EN_CFG_EN then s
    else if !f.fcsOk || decide (f.bytes.length + 4 < 64) || decide (s.enMaxLen e < f.bytes.length + 4) then
      s.enDiscard e
    else if frame16 f.bytes (etherTypeAt f.bytes) = 0x8808 then s.count (EN_CNT e 3)
    else if !s.enAccepts e f.bytes then s
    else if s.reg (EN_RX_HEAD e) = s.reg (EN_RX_TAIL e) then s.enDiscard e
    else s.enReceive e f

/-- TAIL_WRITE (R395): descriptors are handed to the port. -/
def execTailWrite (e : Fin 2) (tx : Bool) (v : BitVec 32) (s : State) : Out :=
  .next (s.typedWrite (if tx then EN_TX_TAIL e else EN_RX_TAIL e) v)

/-! ### Transmit -/

/-- TXLAT_typ of the port's mode, in ns (R399). -/
def State.enTxLat (s : State) (e : Nat) : Nat :=
  match s.fld (EN_CFG e) EN_CFG_MODE with
  | 1 => 104
  | 2 => 182
  | _ => 248

/-- The departure time D, in units of 2^-32 ns (R397). -/
def State.enDeparture (s : State) (e : Nat) : Nat :=
  ((s.tb.units + s.enTxLat e * s.tb.inc / 10 : Nat) +
    sext 32 (s.reg (EN_TXADJ e)).toNat * 2 ^ 24).toNat

/-- R397: the frame with D inserted at its PTP header. -/
def insertSync (bs : List Byte) (o : Nat) (ipv4 : Bool) (d : Nat) : List Byte :=
  let ns := d / 2 ^ 32
  let corr := (beNat ((bs.drop (o + 8)).take 8) + d % 2 ^ 32 / 2 ^ 16) % 2 ^ 64
  let out := patch bs (o + 8) (beBytes 8 corr)
  let out := patch out (o + 34) (beBytes 6 (ns / 1000000000) ++ beBytes 4 (ns % 1000000000))
  let old := frame16 bs (o - 2)
  if ipv4 && old != 0 then
    let pick := fun (x : List Byte) => ((x.drop (o + 8)).take 8) ++ ((x.drop (o + 34)).take 10)
    patch out (o - 2) (beBytes 2 (updateChecksum old (pick bs) (pick out)))
  else out

/-- The frame check sequence of IEEE 802.3, generated over the frame as it leaves (R394, R397): CRC-32, reflected,
its low byte first. -/
def fcs (bs : List Byte) : List Byte := leBytes 4 (~~~(bs.foldl (crcByte 0xEDB88320) 0xFFFFFFFF)).toNat

/-- TX_FRAME (R395, R397, R398): the frame of the descriptor at HEAD leaves; its transmit reference point
has the phase given. -/
def execTxFrame (e : Fin 2) (phase : BitVec 4) (s : State) : Out :=
  .next <|
    if !s.bit (EN_CFG e) EN_CFG_EN || s.reg (EN_TX_HEAD e) == s.reg (EN_TX_TAIL e) then s
    else
      let ix := (s.reg (EN_TX_HEAD e)).toNat
      let d := s.enDesc (EN_TX_BASE e) ix
      let (db, s) := s.memLoad (.en e) d 16
      let (bs, s) := s.memLoad (.en e) (SRAM_BASE + leNat (db.take 4)) (leNat ((db.drop 4).take 2))
      let o := leNat ((db.drop 6).take 2)
      let flags := db.getD 8 0
      let sync := (bs.getD o 0).toNat % 16 == 0 && !(bs.getD (o + 6) 0).getLsbD 1
      let noins := flags.getLsbD 0 && !sync
      let out := if flags.getLsbD 0 && sync then
        insertSync bs o (flags.getLsbD 1) (s.enDeparture e) else bs
      let stamp := flags.getLsbD 2 && !s.rbit EN_EVT (enEvt e 3)
      let nots := flags.getLsbD 2 && !stamp
      let s := { s with en := { s.en with sent := s.en.sent.set [] e (out ++ fcs out) } }
      let s := s.memSave (.en e) d
        (patch db 8 [BitVec.ofNat 8 (flags.toNat % 8 + 8 * b2n nots + 16 * b2n noins)])
      let s := s.setReg (EN_TX_HEAD e) (BitVec.ofNat 32 (ringNext (s.reg (EN_TX_CNT e)).toNat ix))
      let s :=
        if stamp then
          ((s.setFld (EN_TSI e) EN_TSI_TXIDX ix).setFld (EN_TSI e) EN_TSI_TXPH phase.toNat).setEvt BLK_EN
            (enEvt e 3)
        else if nots then s.count (EN_CNT e 1) else s
      let s := if noins then s.count (EN_CNT e 2) else s
      s.setEvt BLK_EN (enEvt e 1)

/-- LINK (R394, fault 0x25C2): a port's link changes. -/
def execLink (e : Fin 2) (up : Bool) (s : State) : Out :=
  .next <|
    let was := s.bit (EN_STAT e) EN_STAT_LINK
    if was == up then s
    else
      let s := (s.setFld (EN_STAT e) EN_STAT_LINK (b2n up)).setEvt BLK_EN (enEvt e 4)
      if was then s.fault 0x25C2 e else s

end Sys2Proof.Machine
end

