-- ==== Sys2Proof/Machine/Hostif.lean ====
section
/-!
DEFINITION. The doorbells of the host interface (R325).
-/

namespace Sys2Proof.Machine

/-- A write of a doorbell (R325), a wake source (R457). -/
def State.doorbellWrite (s : State) (n : Nat) (v : Word) : State := 
  ((s.setReg (HI_DB n) v).setEvt BLK_HI n).wakeSource 1

/-- DOORBELL (R325). -/
def execDoorbell (n : Fin 16) (v : BitVec 32) (s : State) : Out := .next (s.doorbellWrite n v)

/-- A write of HI_SWEVT: each 1 bit sets an event (R325). -/
def State.swevtWrite (s : State) (v : Word) : State :=
  s.each 8 fun i s => if v.getLsbD i then s.setEvt BLK_HI (16 + i) else s

/-- HI_SWEVT (R325). -/
def execHiSwevt (v : BitVec 32) (s : State) : Out := .next (s.swevtWrite v)

end Sys2Proof.Machine
end

