-- ==== Sys2Proof/Machine/Camera.lean ====
section
/-!
DEFINITION. The camera receiver (R208 to R223): trigger queues, matching of lines, frames of the wrong
size, input buffers, the configuration check and the mailboxes.
-/

namespace Sys2Proof.Machine

/-! ### Geometry (R216) -/

def State.camFmt (s : State) (n : Nat) : Nat := s.fld (CAM_CFG n) CAM_CFG_FMT
def State.camW (s : State) (n : Nat) : Nat := s.fld (CAM_GEOM n) CAM_GEOM_W_M1 + 1
def State.camFh (s : State) (n : Nat) : Nat := s.fld (CAM_GEOM n) CAM_GEOM_FH_M1 + 1

/-- Channels and bits per sample of a format; and the bits that a buffer spends on a sample. -/
def fmtCh (f : Nat) : Nat := if 4 ≤ f then 3 else 1
def fmtBits (f : Nat) : Nat := [8, 10, 12].getD (f % 4) 12
def fmtStored (f : Nat) : Nat := if f % 4 = 0 then 8 else 12

/-- LB and B of R216. -/
def State.camLb (s : State) (n : Nat) : Nat :=
  64 * ceilDiv (s.camW n * fmtCh (s.camFmt n) * fmtStored (s.camFmt n)) 512

def State.camLines (s : State) (n : Nat) : Nat :=
  (if s.bit (CAM_CFG n) CAM_CFG_JOIN && n % 2 == 0 then 0x400000 else 0x200000) / s.camLb n

/-- CAM_STAT.LINES follows the configuration. -/
def State.showLines (s : State) (n : Nat) : State :=
  s.setFld (CAM_STAT n) CAM_STAT_LINES (s.camLines n)

def State.camState (s : State) (n : Nat) : Nat := s.fld (CAM_STAT n) CAM_STAT_STATE

/-! ### Samples in a buffer slot -/

/-- Bytes of a number's lowest bits, packed least significant first. -/
def packSamples (bits : Nat) (xs : List Nat) (bytes : Nat) : List Byte :=
  leBytes bytes (xs.foldr (fun x acc => x % 2 ^ bits + 2 ^ bits * acc) 0)

/-- The samples of a received line in its slot, by format and width. -/
def State.camSamples (s : State) (n slot fmt w : Nat) : List Nat :=
  let b := fmtStored fmt
  let lb := 64 * ceilDiv (w * fmtCh fmt * b) 512
  let x := leNat (s.loadBytes (CAM_BUF n + slot * lb) lb)
  (List.range (w * fmtCh fmt)).map fun i => x / 2 ^ (b * i) % 2 ^ b

/-- The lowest slot that no entry holds. -/
def State.freeSlot (s : State) (n : Nat) : Option Nat :=
  let used := (s.portAt n).queue.filterMap fun e =>
    match e.state with | .received slot _ => some slot | _ => none
  (List.range (s.camLines n)).find? fun k => !used.contains k

/-! ### Entries (R211 to R213) -/

/-- An entry becomes unverified, is counted and raises the event. -/
def State.unverify (s : State) (n : Nat) (test : CamEntry → Bool) (reason : Nat) : State :=
  let hit := fun (e : CamEntry) => decide (e.state = .pending) && test e
  let k := ((s.portAt n).queue.filter hit).length
  let s := s.onPort n fun p => { p with
    queue := p.queue.map fun e => if hit e then { e with state := .unverified reason } else e }
  if k = 0 then s
  else (s.setReg (CAM_CNT n 6) (satAdd k (s.reg (CAM_CNT n 6)))).setEvt BLK_CXR 2

/-- Pending entries whose age has reached LATMAX + 1 (R213). -/
def State.ageEntries (s : State) (n : Nat) : State :=
  s.unverify n (fun e => decide (s.fld (CAM_LAT n) CAM_LAT_LATMAX + 1 ≤ s.now - e.tick)) 2

/-- A trigger of the line clock enters the port's queue, a missing one already unverified (R178). DESIGN
CHOICE: a queue that holds its 256 entries takes no more; R211 rules this out for a checked configuration
alone. -/
def State.camTrigger (s : State) (n ln tick : Nat) (missing : Bool) : State :=
  if !s.bit (CAM_CFG n) CAM_CFG_EN || decide (256 ≤ (s.portAt n).queue.length) then s
  else
    let st := if missing then EntryState.unverified 1 else .pending
    let s := s.onPort n fun p => { p with queue := p.queue ++ [{ ln := ln, tick := tick, state := st }] }
    if missing then (s.count (CAM_CNT n 6)).setEvt BLK_CXR 2 else s

/-- ENTRY_AGED (R213). -/
def execEntryAged (n : Fin 12) (s : State) : Out := .next (s.ageEntries n)

/-! ### Packets and frames (R210, R214) -/

/-- The port receives: it waits for a header or runs. -/
def State.camReceives (s : State) (n : Nat) : Bool := s.camState n == 1 || s.camState n == 2

/-- The lines after the one under way get the samples of a packet, or lose them with it. -/
def addAhead : List (List (BitVec 16)) → Bool → List (List (BitVec 16) × Bool) →
    List (List (BitVec 16) × Bool)
  | [], _, old => old
  | xs :: rest, ok, old =>
    let (ys, bad) := old.headD ([], false)
    (if ok then (ys ++ xs, bad) else (ys, bad || !xs.isEmpty)) :: addAhead rest ok old.tail

/-- STREAM_PACKET (R208, R210): samples of the line under way and of lines after it, or a packet
discarded, which loses every line that it has samples of. -/
def execStreamPacket (n : Fin 12) (pkt : StreamPacket) (s : State) : Out :=
  .next <|
    if !s.camReceives n then s
    else if !pkt.crcOk then
      let s := (s.onPort n fun p => { p with
        spoiled := p.spoiled || !pkt.samples.isEmpty, ahead := addAhead pkt.later false p.ahead
        }).count (CAM_CNT n 5)
      let (l, s) := s.faultCounted 0x12C3 n 0 8 ticksSec
      if l then s.fault 0x22C5 n else s
    else if !pkt.image then s.count (CAM_CNT n 5)
    else
      s.onPort n fun p => { p with
        noSlot := p.noSlot || (p.samples.isEmpty && (s.freeSlot n).isNone && !pkt.samples.isEmpty),
        samples := p.samples ++ pkt.samples, ahead := addAhead pkt.later true p.ahead }

/-- CAMERA_EVENT (R208): acknowledged, discarded and counted. -/
def execCameraEvent (n : Fin 12) (s : State) : Out :=
  .next (s.onPort n fun p => { p with events := p.events + 1 })

/-- A frame that ended after fewer than FH lines is closed short (R214). -/
def State.closeShort (s : State) (n : Nat) : State :=
  match (s.portAt n).frame with
  | .lines k _ => if k < s.camFh n then (s.count (CAM_CNT n 2)).fault 0x02C2 n else s
  | _ => s

/-- IMAGE_HEADER (R214): a frame begins, or is dropped for its pixel format. -/
def execImageHeader (n : Fin 12) (fmt : BitVec 3) (s : State) : Out :=
  .next <|
    if !s.camReceives n then s
    else
      let s := (s.closeShort n).setFld (CAM_STAT n) CAM_STAT_STATE 2
      let clear := fun (f : FrameSt) (s : State) => s.onPort n fun p =>
        { p with frame := f, samples := [], spoiled := false, noSlot := false, ahead := [] }
      if fmt.toNat = s.camFmt n then clear (.lines 0 false) s
      else ((clear .dropped s).count (CAM_CNT n 2)).fault 0x02C2 n

/-- The line under way leaves and the next one begins; its frame goes on as given. -/
def State.lineDone (s : State) (n : Nat) (f : FrameSt) : State :=
  let (xs, bad) := (s.portAt n).ahead.headD ([], false)
  let full := !xs.isEmpty && (s.freeSlot n).isNone
  s.onPort n fun p => { p with
    frame := f, samples := xs, spoiled := bad, noSlot := full, ahead := p.ahead.tail }

/-- A line stored for an entry: padded or truncated to W (R214, R216). -/
def State.storeLine (s : State) (n : Nat) (e : CamEntry) (slot : Nat) : State :=
  let c := fmtCh (s.camFmt n)
  let w := s.camW n
  let xs := (s.portAt n).samples.map BitVec.toNat
  let px := xs.length / c
  let pad := min px w
  let line := (xs.take (w * c)) ++ List.replicate (w * c - xs.length) 0
  let line := line.zipIdx.map fun (x, i) => if i < pad * c then x else 0
  let s := s.storeBytes (CAM_BUF n + slot * s.camLb n)
    (packSamples (fmtStored (s.camFmt n)) line (s.camLb n))
  let s := s.onPort n fun p => { p with
    queue := p.queue.map fun x => if x = e then { x with state := .received slot pad } else x }
  if px < w then (s.count (CAM_CNT n 0)).fault 0x02C1 n
  else if w * c < xs.length then (s.count (CAM_CNT n 1)).fault 0x02C1 n
  else s

/-- R212, R214: the line under way is received; entries too old for it are unverified first (R213). -/
def State.receiveLine (s : State) (n : Nat) : State :=
  let s := s.ageEntries n
  let p := s.portAt n
  match p.frame with
  | .none => s.lineDone n .none
  | .dropped => s.lineDone n .dropped
  | .lines k synced =>
    let inWin := fun (e : CamEntry) =>
      decide (s.fld (CAM_LAT n) CAM_LAT_LATMIN ≤ s.now - e.tick) &&
        decide (s.now - e.tick ≤ s.fld (CAM_LAT n) CAM_LAT_LATMAX)
    let pend := p.queue.filter fun e => decide (e.state = .pending)
    if s.camFh n ≤ k then ((s.lineDone n .dropped).count (CAM_CNT n 3)).fault 0x02C2 n
    else if p.spoiled then s.lineDone n (.lines (k + 1) synced)
    else if p.noSlot then
      (((s.lineDone n .dropped).count (CAM_CNT n 4)).setEvt BLK_CXR 3).fault 0x22C4 n
    else
      let found := if synced then pend.head?.filter inWin else pend.find? inWin
      match found, s.freeSlot n with
      | some e, some slot =>
        let s := s.unverify n (fun x => decide (x.tick < e.tick)) 2
        (s.storeLine n e slot).lineDone n (.lines (k + 1) true)
      | none, _ =>
        let s := s.count (CAM_CNT n 7)
        if synced then (s.lineDone n .dropped).fault 0x12C6 n else s.lineDone n (.lines (k + 1) false)
      | some _, none =>
        (((s.lineDone n .dropped).count (CAM_CNT n 4)).setEvt BLK_CXR 3).fault 0x22C4 n

/-- LINE_RECEIVED (R212, R214): a line marker, or the stream end that closes the frame. -/
def execLineReceived (n : Fin 12) (streamEnd : Bool) (s : State) : Out :=
  .next <|
    if !s.camReceives n then s
    else
      let p := s.portAt n
      let s := if p.samples.isEmpty && !p.spoiled then s else s.receiveLine n
      if streamEnd then (s.closeShort n).lineDone n .none else s

/-- CXP_LINK_LOCK (R208): a link acquires lock at the camera's rate. -/
def execCxpLinkLock (link : Fin 24) (rate : BitVec 3) (s : State) : Out :=
  .next <| s.whenClocked BLK_CXR fun s =>
    let n := link.val / 2
    if link.val % 2 = 0 then
      (s.setFld (CAM_STAT n) CAM_STAT_LOCK0 1).setFld (CAM_STAT n) CAM_STAT_RATE0 rate.toNat
    else (s.setFld (CAM_STAT n) CAM_STAT_LOCK1 1).setFld (CAM_STAT n) CAM_STAT_RATE1 rate.toNat

/-- LINK_DOWN (R209): a link loses lock; a port that receives on it enters DOWN. -/
def execLinkDown (link : Fin 24) (s : State) : Out :=
  .next <| s.whenClocked BLK_CXR fun s =>
    let n := link.val / 2
    let uses := link.val % 2 == 0 || s.bit (CAM_CFG n) CAM_CFG_LINKS
    let s := if link.val % 2 = 0 then
        (s.setFld (CAM_STAT n) CAM_STAT_LOCK0 0).setFld (CAM_STAT n) CAM_STAT_RATE0 0
      else (s.setFld (CAM_STAT n) CAM_STAT_LOCK1 0).setFld (CAM_STAT n) CAM_STAT_RATE1 0
    if uses && s.camReceives n then
      (((s.setFld (CAM_STAT n) CAM_STAT_STATE 3).lineDone n .none).setEvt BLK_CXR 1).fault 0x22C5 n
    else s

/-! ### The configuration check (R220, R221) -/

/-- The rate in bit/s of a RATE code: CXP-12 is 12.5 Gb/s; the others are those of CoaXPress 2.0. -/
def cxpRate (code : Nat) : Nat :=
  [0, 1250000000, 2500000000, 3125000000, 5000000000, 6250000000, 10000000000, 12500000000].getD code 0

/-- A port as the check sees it: f_c, samples per line, and its stripe cost with the switch. -/
def State.camRate (s : State) (n : Nat) : Rat :=
  100000000 / ((s.fld (CT_TIM n) CT_TIM_MINP : Nat) : Rat)

def State.camS (s : State) (n : Nat) : Nat := s.camW n * fmtCh (s.camFmt n)

def State.stripeCost (s : State) (n : Nat) : Nat := 16 * ceilDiv (s.camS n) 8 + 64

def State.camPipe (s : State) (n : Nat) : Nat := s.fld (CAM_CFG n) CAM_CFG_PIPE

def State.usedPorts (s : State) : List Nat :=
  (List.range 12).filter fun n => s.bit (CAM_CFG n) CAM_CFG_USE

def State.pipePorts (s : State) (p : Nat) : List Nat := s.usedPorts.filter fun n => s.camPipe n == p

def sumRat (xs : List Rat) : Rat := xs.foldl (· + ·) 0

/-- The left side of LOAD for a pipe. -/
def State.pipeLoad (s : State) (p : Nat) : Rat :=
  sumRat ((s.pipePorts p).map fun n => s.camRate n * (s.stripeCost n : Nat) / 16)

/-- The conditions of R220 in table order; each names the port or the pipe that fails it. -/
def State.camChecks (s : State) : List (Nat × List (Nat × Nat)) :=
  let us := s.usedPorts
  let bad := fun (f : Nat → Bool) => (us.filter fun n => !f n).map fun n => (n, s.camPipe n)
  let pipes := fun (f : Nat → Bool) =>
    ((List.range 4).filter fun p => !(s.pipePorts p).isEmpty && !f p).map fun p => (0, p)
  let links := fun n => s.fld (CAM_CFG n) CAM_CFG_LINKS + 1
  let low := fun n =>
    let r0 := cxpRate (s.fld (CAM_STAT n) CAM_STAT_RATE0)
    if links n = 1 then r0 else min r0 (cxpRate (s.fld (CAM_STAT n) CAM_STAT_RATE1))
  let tp := fun p => ((s.pipePorts p).map s.stripeCost).sum
  [ (1, bad fun n => s.camFmt n != 3 && s.camFmt n != 7 &&
      (!s.bit (CAM_CFG n) CAM_CFG_JOIN || (n % 2 == 0 && !s.bit (CAM_CFG (n + 1)) CAM_CFG_USE))),
    (2, bad fun n => s.fld (CT_TIM n) CT_TIM_MINP != 0 && decide (s.camRate n ≤ 100000)),
    (3, bad fun n => decide (s.camRate n * (s.camS n : Nat) * (fmtBits (s.camFmt n) : Nat) ≤
      (72 / 100 : Rat) * (links n : Nat) * (low n : Nat))),
    (4, bad fun n => decide (s.camRate n * (s.camS n : Nat) ≤ 2000000000)),
    (5, if sumRat (us.map fun n => s.camRate n * (s.camS n : Nat)) ≤ 20000000000 then [] else [(0, 0)]),
    (6, bad fun n => !s.bit (IP_PIPE (s.camPipe n)) IP_PIPE_SPARE &&
      !s.bit (IP_PIPE (s.camPipe n)) IP_PIPE_FAILED),
    (7, pipes fun p => decide (s.pipeLoad p ≤ 950000000)),
    (8, bad fun n => decide (s.camRate n * (tp (s.camPipe n) : Nat) ≤ 16000000000)),
    (9, bad fun n => decide (32 ≤ s.camLines n)),
    (10, bad fun n => decide (s.fld (CAM_LAT n) CAM_LAT_LATMAX <
        s.fld (CT_TIM n) CT_TIM_MINP + s.fld (CAM_LAT n) CAM_LAT_LATMIN) &&
      decide (1 ≤ s.fld (CAM_LAT n) CAM_LAT_LATMIN)) ]

/-- CHECK (R220): GO starts the check, unless one runs. -/
def execCheck (s : State) : Out :=
  .next (s.whenAwake CXR_CHECK fun s => { s with cxr := { s.cxr with checking := true } })

/-- CHECK_DONE (R220, R221): the check completes with its result. -/
def execCheckDone (s : State) : Out :=
  .next <| s.whenClocked BLK_CXR fun s =>
    if !s.cxr.checking then s
    else
      let s := { s with cxr := { s.cxr with checking := false } }
      let s := match s.camChecks.find? fun c => !c.2.isEmpty with
        | some (code, (n, p) :: _) =>
          (((s.setFld CXR_RESULT CXR_RESULT_ACCEPT 0).setFld CXR_RESULT CXR_RESULT_REASON code).setFld
            CXR_RESULT CXR_RESULT_PORT n).setFld CXR_RESULT CXR_RESULT_PIPE p
        | _ =>
          let s := (s.setReg CXR_RESULT 0).setFld CXR_RESULT CXR_RESULT_ACCEPT 1
          let s := s.usedPorts.foldl (fun (s : State) n => s.setFld (CAM_CFG n) CAM_CFG_CHECKED 1) s
          s.each 4 fun p s => s.setFld (CXR_LOAD p) CXR_LOAD_LOAD
            (min 0xFFFF (s.pipeLoad p / 1000000000 * 65536 + 1 / 2).floor.toNat)
      s.setEvt BLK_CXR 0

/-- R221: a write to CAM_GEOM or CAM_LAT clears CHECKED. -/
def State.camTouched (s : State) (n : Nat) : State :=
  (s.setFld (CAM_CFG n) CAM_CFG_CHECKED 0).showLines n

/-! ### The mailboxes (R222, R223) -/

/-- LEN of a mailbox command: values other than multiples of 4 from 4 to 256 act as 4. -/
def mbxLen (len : Nat) : Nat := if len % 4 = 0 ∧ 4 ≤ len ∧ len ≤ 256 then len else 4

/-- A transaction ends with a RESULT. -/
def State.mbxEnd (s : State) (n result : Nat) : State :=
  (((s.onPort n fun p => { p with mbx := none }).setFld (MBX_STAT n) MBX_STAT_BUSY 0).setFld (MBX_STAT n)
    MBX_STAT_RESULT result).setEvt BLK_CXR 4

/-- The write of MBX_CMD that the next command makes. -/
def State.mbxCmdWrite (s : State) (n : Fin 12) (v : BitVec 32) : State :=
  if !v.getLsbD 0 then s.typedWrite (MBX_CMD n) v
  else if s.bit (MBX_STAT n) MBX_STAT_BUSY then s.fault 0x02C7 n (regAddr (MBX_CMD n))
  else
    let s := s.typedWrite (MBX_CMD n) v
    if !s.bit (CAM_STAT n) CAM_STAT_LOCK0 then s.mbxEnd n 4
    else
      let len := mbxLen (s.fld (MBX_CMD n) MBX_CMD_LEN)
      (s.onPort n fun p => { p with mbx := some {
        addr := (s.reg (MBX_ADDR n)).toNat, len := len, write := s.bit (MBX_CMD n) MBX_CMD_WR,
        data := if s.bit (MBX_CMD n) MBX_CMD_WR then
            (List.range (len / 4)).flatMap fun k => leBytes 4 (s.reg (MBX_DATA n k)).toNat
          else [],
        since := s.now } }).setFld (MBX_STAT n) MBX_STAT_BUSY 1

/-- MBX_GO (R222): a write of MBX_CMD; with GO it starts a transaction. -/
def execMbxGo (n : Fin 12) (v : BitVec 32) (s : State) : Out :=
  .next (s.whenAwake (MBX_CMD n) fun s => s.mbxCmdWrite n v)

/-- MBX_DONE (R222, R223): the final acknowledgement; the bytes read are placed in MBX_DATA. A wait
acknowledgement restarts the timeout. -/
def execMbxDone (n : Fin 12) (r : MbxReply) (s : State) : Out :=
  .next <| s.whenClocked BLK_CXR fun s =>
    match (s.portAt n).mbx, r with
    | none, _ => s
    | some _, .wait => s.onPort n fun p => { p with mbx := p.mbx.map fun m => { m with since := s.now } }
    | some m, .ok data =>
      let s := if m.write then s else s.each (m.len / 4) fun k s =>
        s.setReg (MBX_DATA n k) (BitVec.ofNat 32 (leNat ((data.drop (4 * k)).take 4)))
      s.mbxEnd n 0
    | some _, .error code => (s.setFld (MBX_STAT n) MBX_STAT_ACKCODE code.toNat).mbxEnd n 1
    | some _, .badCrc => s.mbxEnd n 3

/-- MBX_TIMEOUT (R223): no final acknowledgement arrived within TIMEOUT ms, where 0 acts as 1. -/
def execMbxTimeout (n : Fin 12) (s : State) : Out :=
  .next <| s.whenClocked BLK_CXR fun s =>
    match (s.portAt n).mbx with
    | none => s
    | some m =>
      if m.since + max 1 (s.fld (MBX_CMD n) MBX_CMD_TIMEOUT) * ticksMs ≤ s.now then s.mbxEnd n 2 else s

end Sys2Proof.Machine
end

