-- ==== Sys2Proof/Machine/DoseTables.lean ====
section
/-!
DEFINITION. The tables of the dose stage (R125 to R135): map records, trim records, compensation
entries, curves and matrices, as they lie in the table region.
-/

namespace Sys2Proof.Machine

/-- The map record of a beam in a table copy (R127), as a number. -/
def State.mapRec (s : State) (copy b : Nat) : Nat := s.loadNat (DS_TABLES + 0x200000 * copy + 8 * b) 8

def mapDot (m : Nat) : Nat := m % 65536
def mapPlane (m : Nat) : Nat := m / 2 ^ 16 % 8
/-- 0 GOOD, 1 WEAK, 2 OUT, 3 SPARE. -/
def mapBeam (m : Nat) : Nat := m / 2 ^ 20 % 4
def mapW (m : Nat) : Nat := m / 2 ^ 24 % 256
def mapNpos (m : Nat) : Nat := m / 2 ^ 32 % 4096
def mapCsel (m : Nat) : Nat := m / 2 ^ 48 % 256
def mapFrac (m : Nat) : Nat := m / 2 ^ 56 % 256
def mapClink (m : Nat) : Nat := m / 2 ^ 48 % 65536

/-- The FRAC table of a slot in a copy (R143, R195): FRAC of nozzle position j at byte j, 0 for an OUT
beam and for a position that no beam claims. DESIGN CHOICE: of two beams with one NPOS the lower counts. -/
def State.fracTable (s : State) (copy slot : Nat) : List Byte :=
  let recs := (List.range 4096).map fun i => s.mapRec copy (4096 * slot + i)
  (List.range 4096).map fun j =>
    match recs.find? fun m => mapNpos m == j with
    | some m => if mapBeam m = 2 then 0 else BitVec.ofNat 8 (mapFrac m)
    | none => 0

/-- The trim record of a beam: GT, OT, GA and OA. -/
def trimAddr (b : Nat) : Nat := DS_TABLES + 0x400000 + 8 * b

/-- A compensation entry of a copy (R132), as a number. -/
def State.compEntry (s : State) (copy e : Nat) : Nat :=
  s.loadNat (DS_TABLES + 0x600000 + 0x20000 * copy + 8 * e) 8

/-- An entry of a transfer curve (R135). -/
def State.curve (s : State) (copy m c : Nat) : Nat :=
  s.loadNat (DS_TABLES + 0x640000 + 0x20000 * copy + 512 * m + 2 * c) 2

/-- A threshold of a matrix (R140). -/
def State.threshold (s : State) (k line dot : Nat) : Nat :=
  (memByte s.mem (DS_TABLES + 0x680000 + 0x10000 * k + line % 256 * 256 + dot % 256)).toNat

/-- The active copy. -/
def State.dsActive (s : State) : Nat := s.fld DS_EPOCH_STAT DS_EPOCH_STAT_ACTIVE

end Sys2Proof.Machine
end

