-- ==== Sys2Proof/Machine/VerifyRecords.lean ====
section
/-!
DEFINITION. Defect records of the verification engine (R271 to R277), the records that other blocks
cause (R275), the fire map (R255) and the line event stamps (R393).
-/

namespace Sys2Proof.Machine

/-- Verification runs. -/
def State.veOn (s : State) : Bool := s.bit VE_CTRL VE_CTRL_EN

/-- DEC of R251. -/
def State.veDec (s : State) : Nat := 2 ^ min 6 (s.fld VE_CTRL VE_CTRL_DECLOG)

/-- A record without fields beyond its kind. -/
def Defect.blank (kind src cls : Nat) : Defect :=
  { kind := kind, flags := 0, src := src, cls := cls, ln0 := 0, ln1 := 0, x0 := 0, x1 := 0,
    product := 0xFFFFFFFF, time := 0, ext := 0, area := 0, peak := 0, mean := 0, cdot := 0, cline := 0 }

/-- A record is emitted (R275); none is while EN = 0 (R278). -/
def State.emit (s : State) (d : Defect) : State :=
  if s.veOn then s.onVe fun v => { v with emitted := v.emitted ++ [d] } else s

/-- PRODUCT of R273, by the job that owns the layout line (R119). -/
def State.productOf (s : State) (line : Int) (dot : Nat) : Nat :=
  match s.lineJob line with
  | none => 0xFFFFFFFF
  | some j => match s.owner j.hdr line dot with
    | some p => p.num.toNat
    | none => 0xFFFFFFFF

/-- Flags of bytes 0 and 1, as bits of the halfword. -/
def flagOpen : Nat := 0x10
def flagClose : Nat := 0x20
def flagCont : Nat := 0x40
def flagContd : Nat := 0x80
def flagSat : Nat := 0x100
def flagMargin : Nat := 0x200
def flagMasked : Nat := 0x400
def flagFire : Nat := 0x800
def flagLoss : Nat := 0x1000

/-- The 64 bytes of a record (R271). -/
def Defect.bytes (d : Defect) (loss : Bool) (seq : Nat) : List Byte :=
  let body :=
    leBytes 2 (d.kind + d.flags + (if loss then flagLoss else 0)) ++ leBytes 1 d.src ++
    leBytes 1 d.cls ++ leBytes 4 seq ++ leBytes 8 (twos 64 d.ln0) ++ leBytes 8 (twos 64 d.ln1) ++
    leBytes 2 d.x0 ++ leBytes 2 d.x1 ++ leBytes 4 d.product ++ leBytes 8 d.time ++
    leBytes 8 d.ext ++ leBytes 4 d.area ++ leBytes 2 d.peak ++ leBytes 2 d.mean ++
    leBytes 2 d.cdot ++ leBytes 2 d.cline
  body ++ leBytes 4 (crc32c body).toNat

/-! ### Stamps (R393) -/

/-- The stamp of a line event; all ones when it is no longer held. -/
def State.stampOf (s : State) (ln : Nat) : Nat :=
  match s.ve.stamps.find? fun e => e.1 == ln with
  | some e => e.2
  | none => 0xFFFFFFFFFFFFFFFF

/-- The flat view of the tick that holds an instant, at the timebase's present rate (R393). -/
def State.flatAt (s : State) (at_ : Nat) : Nat :=
  let total := 2 ^ 80 * 1000000000
  (s.tb.units + total - (s.now - at_ / 16) * s.tb.inc) % total / 2 ^ 32 % 2 ^ 64

/-- The stamp of a line event with its instant (R393). -/
def State.addStamp (s : State) (ln at_ : Nat) : State :=
  s.onVe fun v => { v with stamps := ((ln, s.flatAt at_) :: v.stamps).take 16384 }

/-! ### Gaps, misses and skips (R275) -/

/-- The enabled slots of a hub. -/
def State.hubSlots (s : State) (k : Nat) : List Nat :=
  ([0, 1, 2, 3].map (4 * k + ·)).filter s.slotEn

/-- A GAP record of a slot for fire lines. -/
def State.gapRec (s : State) (n cls f0 : Nat) (f1 : Option Nat) (flags time : Nat) : Defect :=
  let o : Int := s.slotOfs n
  let x0 := s.fld (VE_SPAN n) VE_SPAN_DLO
  { Defect.blank 3 n cls with
      flags := flags, ln0 := f0 - o,
      ln1 := match f1 with | some f => (f : Int) - o | none => 0xFFFFFFFFFFFFFFFF,
      x0 := x0, x1 := s.fld (VE_SPAN n) VE_SPAN_DHI, product := s.productOf (f0 - o) x0,
      time := time, ext := f0 }

/-- The OPEN records of a gap, for the enabled slots of its hub while verification runs (R275, R278). -/
def State.gapEmit (s : State) (k : Nat) (g : GapSt) : State :=
  let slots := if s.veOn then s.hubSlots k else []
  let s := slots.foldl (fun s n => s.emit (s.gapRec n g.cls g.line none flagOpen g.time)) s
  s.onVe fun v => { v with gaps := v.gaps.set none k (some { g with slots := slots }) }

/-- A hub's strobe is withheld at a line event: the gap opens, once; one that was open before verification
ran is reported at the first line event withheld after. TIME is the stamp of the first one (R273, R393). -/
def State.gapOpen (s : State) (k line cls : Nat) : State :=
  match s.ve.gaps.get none k with
  | some g => if g.slots.isEmpty then s.gapEmit k g else s
  | none => (s.gapEmit k ⟨line, cls, s.stampOf line, []⟩).setFld (FS_HSTAT k) FS_HSTAT_GAP 1

/-- The hub's next strobe closes the gap. -/
def State.gapClose (s : State) (k line : Nat) : State :=
  match s.ve.gaps.get none k with
  | none => s
  | some g =>
    let s := g.slots.foldl
      (fun s n => s.emit (s.gapRec n g.cls g.line (some (line - 1)) flagClose g.time)) s
    (s.onVe fun v => { v with gaps := v.gaps.set none k none }).setFld (FS_HSTAT k) FS_HSTAT_GAP 0

/-- A MISS for a slot and fire line gives one complete record. -/
def State.gapMiss (s : State) (n line : Nat) : State :=
  s.emit (s.gapRec n 6 line (some line) 0 (s.stampOf line))

/-- A run of skipped (class 1) or abandoned (class 2) lines ends. -/
def State.skipEnd (s : State) : State :=
  match s.ve.skip with
  | none => s
  | some (a, b, cls, time) =>
    let s := s.emit { Defect.blank 4 0xFF cls with
      flags := flagFire, ln0 := a, ln1 := b, x0 := 0, x1 := 65535,
      product := s.productOf a 0, time := time }
    s.onVe fun v => { v with skip := none }

/-- The reported class of a fire line: its run grows, or the open run ends. -/
def State.skipLine (s : State) (line : Nat) (cls : Option Nat) : State :=
  match cls, s.ve.skip with
  | none, _ => s.skipEnd
  | some c, some (a, _, c', t) =>
    if c = c' then s.onVe fun v => { v with skip := some (a, line, c, t) }
    else s.skipEnd.onVe fun v => { v with skip := some (line, line, c, s.stampOf line) }
  | some c, none => s.onVe fun v => { v with skip := some (line, line, c, s.stampOf line) }

/-! ### Missed fields and unresolved tiles -/

/-- The address of a directory entry of the variable store (R82). -/
def varEntry (prod f : Nat) : Nat := VAR_STORE + 16 * (prod % 1024 * 4 + f)

/-- VARMISS (R272): the first accepted tile of a product that names a missed field. -/
def State.varMiss (s : State) (p : ProdRef) (lane f : Nat) : State :=
  let key := (p.num.toNat, f)
  if !s.veOn || s.ve.missed.contains key then s
  else
    let s := s.onVe fun v => { v with missed := key :: v.missed }
    let e := varEntry p.num.toNat f
    let x := s.loadNat (e + 8) 2
    let y := s.loadNat (e + 10) 2
    let w := s.loadNat (e + 12) 2 % 8192
    let h := s.loadNat (e + 14) 2 % 2048
    let d := { Defect.blank 5 f lane with product := p.num.toNat, time := s.flat }
    s.emit <|
      if s.loadNat e 4 = p.num.toNat then
        { d with ln0 := p.origin + y, ln1 := (p.origin + y + h : Nat) - 1, x0 := x, x1 := x + w - 1 }
      else { d with ln0 := p.origin, ln1 := p.origin, x0 := 0, x1 := 65535 }

/-- UNRESOLVED (R112, R272): a tile released as zero dose. -/
def State.unresolved (s : State) (key : TileKey) (width : Nat) : State :=
  s.emit { Defect.blank 6 key.plane 0 with
    ln0 := key.band, ln1 := (key.band + 63 : Nat), x0 := 256 * key.col,
    x1 := min (256 * key.col + 255) (width - 1), product := s.productOf key.band (256 * key.col),
    time := s.flat }

/-! ### The fire map (R255) -/

def fireMapAddr (line : Nat) : Nat := VE_MEM + 8 * (line % 131072)

/-- A fire line begins with no bit set. -/
def State.fireLine (s : State) (line : Nat) : State := s.storeNat (fireMapAddr line) 8 0

/-- Bits of a hub's enabled slots at a fire line. -/
def State.fireHub (s : State) (line k : Nat) (on : Bool) : State :=
  let a := fireMapAddr line
  s.storeNat a 8 ((s.hubSlots k).foldl (fun x n => if x.testBit n = on then x else x ^^^ 2 ^ n)
    (s.loadNat a 8))

/-- A MISS clears the slot's bit, unless it has been read. -/
def State.fireMiss (s : State) (line n : Nat) : State :=
  let a := fireMapAddr line
  let x := s.loadNat a 8
  let late : Bool := match s.ve.read.get none n with | some r => decide ((line : Int) ≤ r) | none => false
  if x.testBit n && !late then s.storeNat a 8 (x ^^^ 2 ^ n) else s

def State.fired (s : State) (n : Nat) (line : Int) : Bool :=
  decide (0 ≤ line) && (s.loadNat (fireMapAddr line.toNat) 8).testBit n

/-! ### Writing records (R277) -/

/-- The count of VE_CNT that a kind increments. -/
def cntOfKind (kind : Nat) : Nat := if kind ≤ 4 then kind - 1 else 4

/-- The record ring is full. -/
def State.recFull (s : State) : Bool :=
  let size := (s.reg VE_REC_SIZE).toNat
  size == 0 || ((s.reg VE_REC_WPTR).toNat + 64) % size == (s.reg VE_REC_RPTR).toNat % size

/-- A record goes into the ring. -/
def State.putRecord (s : State) (d : Defect) : State :=
  let base := s.reg64 VE_REC_BASE_LO VE_REC_BASE_HI
  let w := (s.reg VE_REC_WPTR).toNat
  let s := s.blockSave BLK_VE (base + w) (d.bytes s.ve.loss s.ve.recSeq)
  let s := s.onVe fun v => { v with loss := false, recSeq := v.recSeq + 1 }
  let s := s.setReg VE_REC_WPTR (BitVec.ofNat 32 ((w + 64) % (s.reg VE_REC_SIZE).toNat))
  (s.count (VE_CNT (cntOfKind d.kind))).setEvt BLK_VE 0

/-- RECORD_WRITE (R277): the oldest waiting record goes into the ring when it has room; else an emitted
one is written, joins the queue of 1,024, or is lost. -/
def execRecordWrite (s : State) : Out :=
  .next <|
    match s.ve.waiting, s.ve.emitted with
    | d :: rest, e =>
      if s.recFull then
        match e with
        | [] => s
        | x :: more =>
          if (d :: rest).length < 1024 then
            s.onVe fun v => { v with waiting := v.waiting ++ [x], emitted := more }
          else
            ((((s.onVe fun v => { v with emitted := more, loss := true }).count (VE_CNT 6)).setEvt
              BLK_VE 1)).fault 0x2341
      else (s.onVe fun v => { v with waiting := rest }).putRecord d
    | [], x :: more =>
      let s := s.onVe fun v => { v with emitted := more }
      if s.recFull then s.onVe fun v => { v with waiting := [x] } else s.putRecord x
    | [], [] => s

end Sys2Proof.Machine
end

