-- ==== Sys2Proof/Machine/Heads.lean ====
section
/-!
DEFINITION. Head temperatures (R169 to R171): the readings of a STATUS block, the warm and limit states,
HEAD_ALERT_N and the return from the limit state.
-/

namespace Sys2Proof.Machine

/-- A hub enters the limit state (R170). -/
def State.enterLimit (s : State) (k : Nat) : State :=
  if s.bit (FS_HSTAT k) FS_HSTAT_LIMIT then s
  else (((s.setFld (FS_HSTAT k) FS_HSTAT_LIMIT 1).setFld (FS_HSTAT k) FS_HSTAT_BELOW 0).setEvt
    BLK_FS 2).fault 0x2243 k

/-- A reading of a slot (R169): on 0x8000 the slot is judged on its last reading, and one that has had none is
not judged (R171). -/
def State.slotTemp (s : State) (n reading : Nat) : State :=
  let temp := if reading = 0x8000 then s.fld (HT_STAT n) HT_STAT_TEMP else reading
  if temp = 0x8000 then s
  else
    let t := sext 16 temp
    let warn := sext 16 (s.fld (HT_THR n) HT_THR_WARN)
    let was := s.bit (HT_STAT n) HT_STAT_WARM
    let warm := decide (warn ≤ t) || (was && !decide (t < warn - s.fld (HT_HYS n) HT_HYS_HYS))
    let s := ((s.setFld (HT_STAT n) HT_STAT_TEMP temp).setFld (HT_STAT n) HT_STAT_WARM
      (b2n warm)).setFld (HT_STAT n) HT_STAT_OVER
        (b2n (decide (sext 16 (s.fld (HT_THR n) HT_THR_LIMIT) ≤ t)))
    if warm && !was then s.setEvt BLK_FS 4 else s

/-- The last reading of a slot is at or above a margin below its limit; false with no reading. -/
def State.slotAbove (s : State) (n : Nat) (margin : Int) : Bool :=
  let t := s.fld (HT_STAT n) HT_STAT_TEMP
  t != 0x8000 && decide (sext 16 (s.fld (HT_THR n) HT_THR_LIMIT) - margin ≤ sext 16 t)

/-- The temperatures of a hub's four slots, from the first intact STATUS of an interval (R198). -/
def State.hubTemps (s : State) (k : Nat) (temps : List Nat) : State :=
  let s := temps.zipIdx.foldl (fun s (t, i) => s.slotTemp (4 * k + i) t) s
  let slots := [0, 1, 2, 3].map (4 * k + ·)
  let s := if slots.any (s.slotAbove · 0) then s.enterLimit k else s
  if slots.any fun n => s.slotAbove n (s.fld (HT_HYS n) HT_HYS_HYS) then
    s.setFld (FS_HSTAT k) FS_HSTAT_BELOW 0
  else s

/-- The hub leaves the limit state (R171). -/
def State.leaveLimit (s : State) (k : Nat) : State :=
  ((s.setFld (FS_HSTAT k) FS_HSTAT_LIMIT 0).setFld (FS_HSTAT k) FS_HSTAT_BELOW 0).setEvt BLK_FS 3

/-- R171: the hub is in the limit state and 1,024 clear line events have passed. -/
def State.limitDone (s : State) (k : Nat) : Bool :=
  s.bit (FS_HSTAT k) FS_HSTAT_LIMIT && s.fld (FS_HSTAT k) FS_HSTAT_BELOW == 1024

/-- A line event for the limit state of a hub: it leaves the state or counts (R171). -/
def State.limitLine (s : State) (k : Nat) : State :=
  if s.limitDone k then s.leaveLimit k
  else if s.bit (FS_HSTAT k) FS_HSTAT_LIMIT && !s.bit (FS_HSTAT k) FS_HSTAT_ALERT then
    s.setFld (FS_HSTAT k) FS_HSTAT_BELOW (s.fld (FS_HSTAT k) FS_HSTAT_BELOW + 1)
  else s

/-- HEAD_ALERT (R170): a qualified level of HEAD_ALERT_N. -/
def execHeadAlert (k : Fin 16) (level : Bool) (s : State) : Out :=
  .next <|
    if level then s.setFld (FS_HSTAT k) FS_HSTAT_ALERT 0
    else ((s.setFld (FS_HSTAT k) FS_HSTAT_ALERT 1).enterLimit k).setFld (FS_HSTAT k) FS_HSTAT_BELOW 0

/-- HEAD_RESUME (R171): a hub whose count is complete leaves the limit state. -/
def execHeadResume (k : Fin 16) (s : State) : Out :=
  .next (if s.limitDone k then s.leaveLimit k else s)

end Sys2Proof.Machine
end

