-- ==== Sys2Proof/Machine/DoseLink.lean ====
section
/-!
DEFINITION. The dose link (R181 to R206): bring-up of its lanes, the packets that they send and receive,
replay, failover and the hubs' states.
-/

namespace Sys2Proof.Machine

/-! ### Lanes and hubs -/

def State.laneState (s : State) (n : Nat) : Nat := s.fld (DL_LANE_STAT n) DL_LANE_STAT_STATE
def State.laneReady (s : State) (n : Nat) : Bool := s.laneState n == 6
def State.laneLock (s : State) (n : Nat) : Bool := s.bit (DL_LANE_STAT n) DL_LANE_STAT_LOCK

/-- The other lane of a lane's pair. -/
def partner (n : Nat) : Nat := if n % 2 = 0 then n + 1 else n - 1

/-- The READY lanes of a hub, even lane first. -/
def State.readyLanes (s : State) (k : Nat) : List Nat := [2 * k, 2 * k + 1].filter s.laneReady

def State.hubOnline (s : State) (k : Nat) : Bool := s.bit (DL_HUB_STAT k) DL_HUB_STAT_ONLINE
def State.hubMode (s : State) (k : Nat) : Nat := s.fld (DL_HUB_STAT k) DL_HUB_STAT_MODE
def State.setMode (s : State) (k v : Nat) : State := s.setFld (DL_HUB_STAT k) DL_HUB_STAT_MODE v

/-- The mode in which one lane carries all of its hub's packets. -/
def soloMode (n : Nat) : Nat := 1 + n % 2

/-- The lane that carries a slot's packet for a fire line (R182, R195). -/
def State.laneFor (s : State) (slot fln : Nat) : Option Nat :=
  let k := slot / 4
  let mode := match (s.hubAt k).assign with
    | some (arg, ln) => if ln ≤ fln then arg else s.hubMode k
    | none => s.hubMode k
  if mode = 0 then some (2 * k + slot % 4 / 2)
  else if mode = 1 then some (2 * k) else if mode = 2 then some (2 * k + 1) else none

/-- A protocol violation of R206, with the lane and the row. -/
def State.dlViolation (s : State) (n row : Nat) : State := (s.count (DL_CNT 2)).fault 0x0285 n row

/-- LN of the line event `d` after the last one. -/
def State.lnAhead (s : State) (d : Nat) : Nat := (s.lc.hwm.toNat + d) % 2 ^ 64

/-! ### Sending -/

/-- A packet other than DOSE leaves on a lane: its body and CRC trailer. -/
def State.sendPlain (s : State) (n typ : Nat) (body : List Byte) : State :=
  s.onLane n fun l => { l with
    seq := (l.seq + 1) % 65536, txType := typ, tx := body ++ leBytes 8 (crc32c body).toNat }

/-- A SYNC leaves on a lane; a held hub is released at the line event named (R161, R193). -/
def State.sendSync (s : State) (n nln : Nat) : State :=
  let s := s.sendPlain n 2 (leBytes 8 nln)
  let k := n / 2
  if s.bit (FS_HSTAT k) FS_HSTAT_HELD then
    s.onFs fun f => { f with release := f.release.set none k (some nln) }
  else s

/-- A SYNC leaves on every READY lane of a hub. -/
def State.syncHub (s : State) (k nln : Nat) : State :=
  (s.readyLanes k).foldl (fun s n => s.sendSync n nln) s

/-- FS holds a hub: a SYNC naming H + 2 follows (R161, R193), and no SYNC sent before releases it. -/
def State.holdHub (s : State) (k : Nat) : State :=
  ((s.setFld (FS_HSTAT k) FS_HSTAT_HELD 1).onFs fun f => { f with release := f.release.set none k none }).syncHub k (s.lnAhead 2)

/-- The instant from which a packet sent now is overdue (R200). -/
def State.overdueAt (s : State) : Nat := 16 * s.now + 4 * s.fld LC_PER LC_PER_PER

/-- A CTRL packet leaves on a lane and waits for its acknowledgement (R195). DESIGN CHOICE (log 79): it has no
FLN, and any ACK at or above the highest FLN sent on the lane before it acknowledges it. -/
def State.sendCtrl (s : State) (n ctype arg count value : Nat) (data : List Byte) (kind : SentKind) :
    State :=
  let body := leBytes 1 ctype ++ leBytes 1 arg ++ leBytes 2 count ++ leBytes 4 value ++ data
  let body := body ++ List.replicate ((8 - body.length % 8) % 8) 0
  let due := s.overdueAt
  (s.onLane n fun l => { l with
    window := l.window ++ [{ seq := l.seq, fln := l.topFln.getD 0, due := due, kind := kind }] }
    ).sendPlain n 3 body

/-- The FRAC table of a slot leaves on a lane (R143, R195). -/
def State.sendFrac (s : State) (n copy slot : Nat) : State :=
  s.sendCtrl n 2 (slot + 128 * copy) 4096 0 (s.fracTable copy slot) (.frac slot (copy == 1))

/-- The slots of a hub whose packets it may get: EN = 1, or still reading lines (R124, R143). -/
def State.fracSlots (s : State) (k : Nat) : List Nat :=
  ([0, 1, 2, 3].map (4 * k + ·)).filter fun i => s.slotEn i || (s.ds.slots.get SlotSt.reset i).reading

/-- The FRAC tables of a copy for the slots of a hub that declares PBD (R143, R196). -/
def State.sendFracs (s : State) (n copy : Nat) : State :=
  if s.bit (DL_HUB_CAP1 (n / 2)) DL_HUB_CAP1_PBD then
    (s.fracSlots (n / 2)).foldl (fun s slot => s.sendFrac n copy slot) s
  else s

/-- The FRAC tables that a lane needs before its first DOSE packet: of the active copy, and during a
switch of the new one (R143). -/
def State.sendFracsNow (s : State) (n : Nat) : State :=
  let s := s.sendFracs n s.dsActive
  if s.ds.switch.isSome then s.sendFracs n (1 - s.dsActive) else s

/-- A slot begins to read lines: its FRAC tables of the copies in use go to every READY lane of its hub,
before its first DOSE packet (R143). -/
def State.sendSlotFracs (s : State) (slot : Nat) : State :=
  if s.bit (DL_HUB_CAP1 (slot / 4)) DL_HUB_CAP1_PBD then
    (s.readyLanes (slot / 4)).foldl (fun s n =>
      let s := s.sendFrac n s.dsActive slot
      if s.ds.switch.isSome then s.sendFrac n (1 - s.dsActive) slot else s) s
  else s

/-- A commit is accepted: the new copy's FRAC tables go to every READY lane (R143). -/
def State.sendFracsAll (s : State) (copy : Nat) : State :=
  s.each 32 fun n s => if s.laneReady n then s.sendFracs n copy else s

/-- The address of a payload in the replay region (R199). -/
def replayAddr (slot fln : Nat) : Nat :=
  DL_REPLAY + 0x40000 * (slot / 4) + 0x4000 * (fln % 16) + 0x1000 * (slot % 4)

/-- The packet of an entry is still in the copy: no later line has taken its place. -/
def keptBy (slot fln : Nat) (e : Sent) : Bool :=
  match e.kind with
  | .dose sl .. => !(sl == slot && e.fln % 16 == fln % 16)
  | _ => true

/-- The header of a DOSE packet (R191). -/
def doseHeader (p : DosePkt) (rpl : Bool) (seq : Nat) : List Byte :=
  leBytes 16 (p.fln % 2 ^ 64 + p.delay % 2 ^ 24 * 2 ^ 64 + p.slot % 64 * 2 ^ 88 + p.dwc % 8 * 2 ^ 96 +
    b2n p.epoch * 2 ^ 99 + b2n rpl * 2 ^ 100 + b2n p.derate * 2 ^ 101 + seq % 65536 * 2 ^ 112)

/-- The seed of a DOSE packet's CRC (R192). -/
def doseSeed (fln slot : Nat) : Word :=
  BitVec.ofNat 32 fln ^^^ (BitVec.ofNat 32 slot <<< 26) ^^^ 0xFFFFFFFF

/-- A DOSE packet leaves on a lane (R191, R192, R199). -/
def State.sendDose (s : State) (n : Nat) (p : DosePkt) (rpl : Bool) : State :=
  let s := s.storeBytes (replayAddr p.slot p.fln) p.payload
  let drop := fun (l : LaneSt) => { l with window := l.window.filter (keptBy p.slot p.fln) }
  let s := (s.onLane n drop).onLane (partner n) drop
  let due := s.overdueAt
  let s := s.onLane n fun l =>
    let body := doseHeader p rpl l.seq ++ p.payload
    { l with
      window := l.window ++ [{ seq := l.seq, fln := p.fln, due := due,
                               kind := .dose p.slot p.delay p.dwc p.epoch p.derate }],
      seq := (l.seq + 1) % 65536,
      topFln := some (max p.fln (l.topFln.getD 0)),
      txType := 1,
      tx := body ++ leBytes 8 (~~~(crc32cFrom (doseSeed p.fln p.slot) body)).toNat }
  if rpl then s.count (DL_CNT 1) else s

/-- The packet of a window entry, with its payload from the replay region. -/
def State.replayPkt (s : State) (e : Sent) : Option DosePkt :=
  match e.kind with
  | .dose slot delay dwc epoch derate =>
    some { fln := e.fln, slot := slot, delay := delay, dwc := dwc, epoch := epoch, derate := derate,
           payload := s.loadBytes (replayAddr slot e.fln) (512 * doseWidth dwc) }
  | _ => none

/-- Packets in the order of FLN, then slot (R202). -/
def insertPkt (p : DosePkt) : List DosePkt → List DosePkt
  | [] => [p]
  | q :: rest =>
    if p.fln < q.fln ∨ (p.fln = q.fln ∧ p.slot < q.slot) then p :: q :: rest
    else q :: insertPkt p rest

def sortPkts (ps : List DosePkt) : List DosePkt := ps.foldl (fun acc p => insertPkt p acc) []

/-- The dose stage hands over a packet (R182): it waits on the lane that carries its slot; a hub
without a lane loses it (R202). -/
def State.handOver (s : State) (p : DosePkt) : State :=
  match s.laneFor p.slot p.fln with
  | none => s
  | some n => if s.laneReady n then s.onLane n fun l => { l with queue := l.queue ++ [p] } else s

/-! ### The start of a bring-up (R188) -/

/-- The payload of a control block by its bytes, the block type first (R185). -/
def ctlBlock (bytes : List Nat) : Nat := bytes.foldr (fun b v => b % 256 + 256 * v) 0

/-- IDLE, and the READY of the device (R185). -/
def idleBlock : Nat := ctlBlock [0x2D]
def readyBlock : Nat := ctlBlock [0xD2, 0x01]

/-- The device's CAP 0: protocol version 1, every lane rate of R181, every dose width code, per-beam delay
(R189). DEDUCED: the device supports what R181 and the job header define. -/
def capBlock : Nat := ctlBlock [0x87, 0, 0x01, 0x0F, 0x1F, 0x01]

/-- The RATE block of a countdown. -/
def rateBlock (code count : Nat) : Nat := ctlBlock [0xB4, code, count]

/-- What phase 3 sends: CAP 0 in one of every 16 blocks, IDLE between (R188). -/
def capBlocks : List Nat := capBlock :: List.replicate 15 idleBlock

/-- What phase 4 sends: 256 RATE blocks counting down to 0 (R188). -/
def rateBlocks (code : Nat) : List Nat := (List.range 256).map fun i => rateBlock code (255 - i)

/-- A lane enters a state of DL_LANE_STAT now, and transmits these control blocks. -/
def State.lanePhase (s : State) (n st : Nat) (ctl : List Nat) : State :=
  (s.setFld (DL_LANE_STAT n) DL_LANE_STAT_STATE st).onLane n fun l => { l with since := s.now, ctl := ctl }

/-- An attempt begins at phase 1: IDLE at the bring-up rate. -/
def State.laneAttempt (s : State) (n : Nat) : State :=
  let s := ((s.lanePhase n 1 [idleBlock]).setFld (DL_LANE_STAT n)
    DL_LANE_STAT_RATE 0).setFld (DL_LANE_STAT n) DL_LANE_STAT_LOCK 0
  s.onLane n fun l => { l with align := false, caps := [], target := 0, txType := 0, tx := [] }

/-- A bring-up begins. -/
def State.laneBegin (s : State) (n : Nat) (rejoin : Bool) : State :=
  let s := s.setFld (DL_LANE_STAT n) DL_LANE_STAT_TRIES 0
  (s.onLane n fun l => { l with
    excluded := [], queue := [], window := [], topFln := none, lastAck := none, restart := false,
    rejoin := rejoin, joined := none, beats := 0, syncErr := false }).laneAttempt n

/-! ### Failure (R202, R204) -/

/-- A READY lane fails; a test of its partner is abandoned, and that lane, unless it is READY still, begins
bring-up (R437). -/
def State.laneFail (s : State) (n : Nat) : State :=
  let k := n / 2
  let m := partner n
  let l := s.laneAt n
  let soon := match l.joined with | some t => decide (s.now - t < ticksSec) | none => false
  let pkts := sortPkts (l.window.filterMap s.replayPkt)
  let s := s.lanePhase n 7 []
  let s := s.onLane n fun l => { l with queue := [], window := [], restart := !soon, syncErr := false }
  let s :=
    if s.bit (DL_CFGW_STAT k) DL_CFGW_STAT_BUSY && (s.hubAt k).cfgwLane == n then
      (s.setFld (DL_CFGW_STAT k) DL_CFGW_STAT_BUSY 0).setFld (DL_CFGW_STAT k) DL_CFGW_STAT_LOST 1
    else s
  let s :=
    if s.laneReady m then
      let s := (s.setMode k (soloMode m)).onHub k fun h =>
        { h with toSend := some (soloMode m), assign := none }
      let s := pkts.foldl (fun s p => s.sendDose m p true) s
      s.onLane m fun l' => { l' with queue := sortPkts (l'.queue ++ l.queue) }
    else (s.setMode k 3).onHub k fun h => { h with toSend := none, assign := none }
  let s := ((s.setEvt BLK_DL 1).fault 0x2283 n).abandonTest (148 + n)
  if s.unit (148 + m) = 1 then
    let s := s.abandonTest (148 + m)
    if s.laneReady m then s else s.laneBegin m false
  else s

/-- A lane CRC error (R200, R202, R206): the eighth within 1 s fails a READY lane. -/
def State.laneCrc (s : State) (n : Nat) : State :=
  let s := s.onLane n fun l => { l with lastCrc := some s.now }
  let (l, s) := (s.count (DL_CNT 0)).faultCounted 0x1281 n 0 8 ticksSec
  if l && s.laneReady n then s.laneFail n else s

/-! ### Hubs coming online (R205) -/

/-- A hub is heard of on a READY lane; one that was offline comes online: every READY lane gets the FRAC
tables and a SYNC naming H + 2. -/
def State.goOnline (s : State) (k : Nat) : State :=
  let s := s.onHub k fun h => { h with heard := s.now }
  if s.hubOnline k then s
  else
    let s := (s.setFld (DL_HUB_STAT k) DL_HUB_STAT_ONLINE 1).setEvt BLK_DL 4
    let s := (s.readyLanes k).foldl (fun s n => s.sendFracsNow n) s
    s.syncHub k (s.lnAhead 2)

/-! ### Bring-up (R188) -/

/-- The value fields of a CAP block by index, and the bits that R189 leaves unused. -/
def capUnused (index : Nat) : Nat :=
  if index = 0 then 0xFFFFFEE0F000 else if index = 1 then 0xFFFF00000000
  else if index = 2 then 0xFFFFFFFF0000 else 0

/-- R190: the value is valid for its index. -/
def capValid (index v : Nat) : Bool :=
  if index = 0 then v % 256 == 1 && (v / 256).testBit 0
  else if index = 1 then decide (1 ≤ v % 2 ^ 32) && decide (v % 2 ^ 32 ≤ 200000)
  else if index = 2 then decide (8 ≤ v % 65536)
  else true

/-- The hub's values from its four CAP blocks. -/
def capOf (c : Nat → Nat) : CapVal :=
  { rates := c 0 / 2 ^ 8 % 16, dws := c 0 / 2 ^ 16 % 32, pbd := (c 0).testBit 24,
    maxlr := c 1 % 2 ^ 32, depth := c 2 % 65536, hubid := c 3 }

/-- R190: the values common to both lanes. -/
def capCommon (a b : CapVal) : CapVal :=
  { rates := a.rates &&& b.rates, dws := a.dws &&& b.dws, pbd := a.pbd && b.pbd,
    maxlr := min a.maxlr b.maxlr, depth := min a.depth b.depth, hubid := a.hubid }

/-- The hub's held values (R190). -/
def State.holdCaps (s : State) (k : Nat) (c : CapVal) : State :=
  let s := s.setReg (DL_HUB_CAP0 k) (BitVec.ofNat 32 c.maxlr)
  let s := ((((s.setFld (DL_HUB_CAP1 k) DL_HUB_CAP1_PBD (b2n c.pbd)).setFld (DL_HUB_CAP1 k)
    DL_HUB_CAP1_DWS c.dws).setFld (DL_HUB_CAP1 k) DL_HUB_CAP1_RATES c.rates).setFld (DL_HUB_CAP1 k)
      DL_HUB_CAP1_DEPTH c.depth)
  s.onHub k fun h => { h with hubid := c.hubid }

/-- Every CAP of the hub has been received twice, identically. -/
def LaneSt.capsDone (l : LaneSt) : Bool := (List.range 4).all fun i => decide (2 ≤ (l.caps.get (0, 0) i).2)

/-- The rate that phase 4 names. -/
def State.stepRate (s : State) (n rates : Nat) : Nat :=
  maxOf ((List.range 4).filter fun c =>
    rates.testBit c && decide (c ≤ s.fld (DL_LANE_CFG n) DL_LANE_CFG_MAXRATE) &&
      !(s.laneAt n).excluded.contains c)

/-- Phase 3 completes. -/
def State.capsComplete (s : State) (n : Nat) : State :=
  let l := s.laneAt n
  let c := capOf fun i => (l.caps.get (0, 0) i).1
  let s := s.onLane n fun l => { l with held := some c }
  let s := match (s.laneAt (partner n)).held with
    | some d => if c = d then s.holdCaps (n / 2) c
                else (s.dlViolation n 12).holdCaps (n / 2) (capCommon c d)
    | none => s.holdCaps (n / 2) c
  let r := s.stepRate n c.rates
  if r = 0 then
    (s.lanePhase n 5 [readyBlock]).onLane n fun l => { l with align := true }
  else
    (s.lanePhase n 4 (rateBlocks r)).onLane n fun l => { l with target := r }

/-- A lane becomes READY (R188, R204, R205); the count of its CRC errors restarts (R420). -/
def State.laneUp (s : State) (n : Nat) : State :=
  let k := n / 2
  let s := (s.lanePhase n 6 [idleBlock]).clearEvents (winKey 0x1281 n)
  let s := s.onLane n fun l => { l with
    align := false, rejoin := false, joined := if l.rejoin then some s.now else none }
  let s := if s.laneReady (partner n) then s.onHub k fun h => { h with toSend := some 0 }
           else s.setMode k (soloMode n)
  if s.hubOnline k then s.sendFracsNow n else s.goOnline k

/-- The write of DL_LANE_CFG (R188, R202, R204); a lane in test or retired does not start (R429). -/
def State.laneCfgWrite (s : State) (n : Nat) (v : Word) : State :=
  let was := s.bit (DL_LANE_CFG n) DL_LANE_CFG_EN
  let s := s.typedWrite (DL_LANE_CFG n) v
  match was, s.bit (DL_LANE_CFG n) DL_LANE_CFG_EN with
  | false, true => if s.unit (148 + n) = 0 then s.laneBegin n false else s
  | true, false =>
    let s := if s.laneReady n then s.laneFail n else s
    (s.lanePhase n 0 []).onLane n fun l => { l with restart := false, align := false }
  | _, _ => s

/-- LANE_ENABLE (R188). -/
def execLaneEnable (n : Fin 32) (v : BitVec 32) (s : State) : Out :=
  .next (s.whenAwake (DL_LANE_CFG n) fun s => s.laneCfgWrite n v)

/-- PHASE_COMPLETE (R188): the phase under way ends if its condition holds. -/
def execPhaseComplete (n : Fin 32) (s : State) : Out :=
  let stat := DL_LANE_STAT n
  let clear := fun (s : State) => (s.setFld stat DL_LANE_STAT_LOS 0).setFld stat DL_LANE_STAT_CDRL 0
  let l := s.laneAt n
  .next <|
    match s.laneState n with
    | 1 => (clear s).lanePhase n 2 [idleBlock]
    | 2 => if s.laneLock n then s.lanePhase n 3 capBlocks else s
    | 3 => if l.capsDone then s.capsComplete n else s
    | 4 => if s.fld stat DL_LANE_STAT_RATE = l.target then s.lanePhase n 5 [idleBlock] else s
    | 5 =>
      if l.align then (if l.txType = 2 then s.laneUp n else s)
      else if s.laneLock n then ((clear s).lanePhase n 5 [readyBlock]).onLane n fun l =>
        { l with align := true, txType := 0 }
      else s
    | _ => s

/-- The maximum of the phase under way, in ticks (R188). -/
def phaseMax (st : Nat) (align : Bool) : Nat :=
  ticksMs * (match st with | 1 => 5 | 2 => 2 | 3 => 5 | 4 => 25 | _ => if align then 5 else 8)

/-- PHASE_TIMEOUT (R188): a phase that exceeds its maximum ends the attempt; after three the lane enters
FAILED. DESIGN CHOICE (log 79): it stays there until EN is written 0 and then 1. -/
def execPhaseTimeout (n : Fin 32) (s : State) : Out :=
  let stat := DL_LANE_STAT n
  let st := s.laneState n
  let l := s.laneAt n
  let tries := s.fld stat DL_LANE_STAT_TRIES + 1
  .next <|
    if st = 0 ∨ 6 ≤ st ∨ s.now < l.since + phaseMax st l.align then s
    else
      let s := s.setFld stat DL_LANE_STAT_TRIES tries
      let s := if st = 5 ∧ l.align = false then
        s.onLane n fun l => { l with excluded := l.target :: l.excluded } else s
      if tries < 3 then s.laneAttempt n
      else ((s.lanePhase n 7 []).setEvt BLK_DL 0).fault 0x2287 n

/-- BLOCK_LOCK (R186): a hunting receiver locks; lock regained within bring-up is logged. -/
def execBlockLock (n : Fin 32) (s : State) : Out :=
  let st := s.laneState n
  .next <|
    if s.laneLock n ∨ st = 0 then s
    else
      let s' := s.setFld (DL_LANE_STAT n) DL_LANE_STAT_LOCK 1
      if st = 3 ∨ st = 4 ∨ (st = 5 ∧ (s.laneAt n).align) then s'.fault 0x1282 n else s'

/-- LOSS_OF_LOCK (R186, R187): a locked lane hunts again, and a READY one fails. -/
def execLossOfLock (n : Fin 32) (s : State) : Out :=
  .next <|
    if !s.laneLock n then s
    else
      let s := s.setFld (DL_LANE_STAT n) DL_LANE_STAT_LOCK 0
      if s.laneReady n then s.laneFail n else s

/-- LOS (R187). -/
def execLos (n : Fin 32) (s : State) : Out :=
  let s := s.setFld (DL_LANE_STAT n) DL_LANE_STAT_LOS 1
  .next (if s.laneReady n then s.laneFail n else s)

/-- CDR_LOSS (R187). -/
def execCdrLoss (n : Fin 32) (s : State) : Out :=
  let s := s.setFld (DL_LANE_STAT n) DL_LANE_STAT_CDRL 1
  .next (if s.laneReady n then s.laneFail n else s)

/-- CAP (R188 to R190): a CAP block of the hub, whose values phase 3 takes; its unused bytes are checked at any
time (R206 row 5). -/
def execCap (n : Fin 32) (index : BitVec 8) (value : BitVec 48) (s : State) : Out :=
  let i := index.toNat
  let v := value.toNat
  .next <|
    if s.laneLock n = false then s
    else if 3 < i then s.dlViolation n 5
    else
      let used := v ^^^ (v &&& capUnused i)
      let s := if used = v then s else s.dlViolation n 5
      if s.laneState n ≠ 3 then s
      else if capValid i used then
        s.onLane n fun l => { l with caps := l.caps.upd (0, 0) i fun (w, k) =>
          if w = used ∧ k ≠ 0 then (w, k + 1) else (used, 1) }
      else s.dlViolation n 11

/-- Unused bytes of a control block that are not zero are a violation, and ignored (R185, R206 row 5). -/
def State.padCheck (s : State) (n pad : Nat) : State := if pad = 0 then s else s.dlViolation n 5

/-- RATE (R188): the countdown of phase 4 reaches zero and the transmitter retunes; a RATE block of the hub
that names another rate than the device's step is a violation (R206 row 13). -/
def execRate (r : LaneRate) (s : State) : Out :=
  let n := r.lane
  .next <|
    match r.hub with
    | none =>
      if s.laneState n = 4 then
        ((s.setFld (DL_LANE_STAT n) DL_LANE_STAT_RATE (s.laneAt n).target).setFld (DL_LANE_STAT n)
          DL_LANE_STAT_LOCK 0).onLane n fun l => { l with ctl := [idleBlock] }
      else s
    | some b =>
      if !s.laneLock n then s
      else
        let s := s.padCheck n (b.toNat / 2 ^ 16)
        if b.toNat % 256 = (s.laneAt n).target then s else s.dlViolation n 13

/-- READY (R185, R188): in phase 6 the device answers the hub's READY with one SYNC; one before the CAP
blocks are complete, an unknown control block and a data block outside a packet are violations (R206 rows
14, 5 and 4). DESIGN CHOICE: a READY whose byte 1 is not the hub's 0x02 counts as an unknown block. -/
def execReady (b : LaneBlock) (s : State) : Out :=
  let n := b.lane
  let st := s.laneState n
  let l := s.laneAt n
  .next <|
    if !s.laneLock n then s
    else match b.block with
      | .ready v =>
        if v.toNat % 256 ≠ 2 then s.dlViolation n 5
        else
          let s := s.padCheck n (v.toNat / 2 ^ 8)
          if st = 5 ∧ l.align ∧ l.txType ≠ 2 then
            (s.onLane n fun l => { l with ctl := [idleBlock] }).sendSync n (s.lnAhead 2)
          else if 1 ≤ st ∧ st ≤ 3 then s.dlViolation n 14
          else s
      | .control typ v =>
        if typ = 0x2D then s.padCheck n v.toNat
        else if [0x4B, 0x87, 0xB4, 0xD2].contains typ.toNat then s
        else s.dlViolation n 5
      | .data => s.dlViolation n 4

/-! ### Packets to the hub -/

/-- DOSE (R191): the next packet that waits on a READY lane leaves. -/
def execDose (n : Fin 32) (s : State) : Out :=
  .next <|
    match (s.laneAt n).queue with
    | p :: rest =>
      if s.laneReady n then (s.onLane n fun l => { l with queue := rest }).sendDose n p false else s
    | [] => s

/-- The write of DL_CFGW (R195). -/
def State.cfgwWrite (s : State) (k : Nat) (v : Word) : State :=
  if v.getLsbD 0 && !s.bit (DL_CFGW_STAT k) DL_CFGW_STAT_BUSY then
    match s.readyLanes k with
    | n :: _ =>
      let s := s.sendCtrl n 1 0 1 0
        (leBytes 4 (s.reg (DL_CFGW_ADDR k)).toNat ++ leBytes 4 (s.reg (DL_CFGW_DATA k)).toNat) .cfgw
      let s := s.onHub k fun h => { h with cfgwLane := n }
      (s.setFld (DL_CFGW_STAT k) DL_CFGW_STAT_BUSY 1).setFld (DL_CFGW_STAT k) DL_CFGW_STAT_LOST 0
    | [] => s
  else s

/-- CFGW (R195). -/
def execCfgw (k : Fin 16) (v : BitVec 32) (s : State) : Out :=
  .next (s.whenAwake (DL_CFGW k) fun s => s.cfgwWrite k v)

/-- LEAD of the running job; free when none runs (8 to 64, R91). -/
def State.leadNow (s : State) : Nat × State :=
  match s.runJob with
  | some j => (j.hdr.lead, s)
  | none => let (d, s) := s.draw; (8 + Config.freeNat d % 57, s)

/-- LANES (R195, R202, R204): the assignment that waits is sent on the hub's READY lanes for the first
band boundary at least LEAD + 16 lines ahead. -/
def execLanes (k : Fin 16) (s : State) : Out :=
  .next <|
    match (s.hubAt k).toSend with
    | none => s
    | some arg =>
      let (lead, s) := s.leadNow
      let ln := 64 * ceilDiv (s.lc.hwm.toNat + lead + 16) 64 % 2 ^ 64
      let s := (s.readyLanes k).foldl (fun s n => s.sendCtrl n 3 arg 0 ln [] .lanes) s
      s.onHub k fun h => { h with toSend := none, assign := some (arg, ln) }

/-- DEVICE_HEARTBEAT (R197): H on a READY lane. -/
def execDeviceHeartbeat (n : Fin 32) (s : State) : Out :=
  .next <|
    if s.laneReady n then
      s.sendPlain n 4 (leBytes 8 s.lc.hwm.toNat ++ List.replicate 16 0)
    else s

/-! ### Packets from the hub -/

/-- R437 steps 2 and 3: a lane taken for test is disabled, without failover, once no packet for it waits or can
still be formed (R156) and every packet that it sent is acknowledged. -/
def State.laneTestDrain (s : State) (n : Nat) : State :=
  let k := n / 2
  let solo := soloMode (partner n)
  let l := s.laneAt n
  let past : Bool := match (s.hubAt k).assign with
    | some (arg, ln) =>
      arg == solo && (s.ds.sets.all fun p => decide (ln ≤ p.line + p.lead + 1)) && (match s.runJob with
        | some j => decide ((ln : Int) ≤ s.lastLn + j.hdr.lead + 2)
        | none => true)
    | none => s.hubMode k == solo
  if s.unit (148 + n) = 1 && s.laneReady n && (s.hubAt k).toSend.isNone && past && l.queue.isEmpty &&
      l.window.isEmpty then
    let s := (s.lanePhase n 0 []).setMode k solo
    s.onHub k fun h => { h with assign := none }
  else s

/-- The ACK of a HEARTBEAT (R197, R206 row 6). -/
def State.hubAck (s : State) (n ack : Nat) : State :=
  let l := s.laneAt n
  let low := match l.lastAck with | some a => decide (ack < a) | none => false
  let high := match l.topFln with | some t => decide (t < ack) | none => false
  if low || high then s.dlViolation n 6
  else
    let left := l.window.filter fun e => decide (ack < e.fln)
    let s := s.onLane n fun l => { l with lastAck := some ack, window := left }
    let k := n / 2
    if s.bit (DL_CFGW_STAT k) DL_CFGW_STAT_BUSY && (s.hubAt k).cfgwLane == n &&
        !left.any (fun e => decide (e.kind = .cfgw)) then
      s.setFld (DL_CFGW_STAT k) DL_CFGW_STAT_BUSY 0
    else s

/-- The NACK of a HEARTBEAT (R200). -/
def State.hubNack (s : State) (n nseq : Nat) : State :=
  let hit := (s.laneAt n).window.find? fun e => e.seq == nseq && (s.replayPkt e).isSome
  match hit with
  | none => (s.dlViolation n 7).laneCrc n
  | some e =>
    let s := s.laneCrc n
    if !s.laneReady n then s
    else match s.replayPkt e with
      | some p => s.sendDose n p true
      | none => s

/-- The MISS of a HEARTBEAT (R201, R206 row 8). -/
def State.hubMiss (s : State) (n : Nat) (mslot : BitVec 4) (mln : Nat) : State :=
  if s.lnAhead 1 ≤ mln then s.dlViolation n 8
  else
    (List.range 4).foldl (fun s i =>
      let slot := 4 * (n / 2) + i
      if mslot.getLsbD i && s.slotEn slot then (s.gapMiss slot mln).fireMiss mln slot else s)
      (s.count (DL_CNT 3))

/-- The device accepts a packet of a hub on a READY lane by its SOP block: nonzero unused bytes, a LEN
outside its bounds, a type that hubs do not send, a LEN that is not the type's, and a packet broken by a
control block are violations (R206 rows 5, 3, 2, 3 and 4). DESIGN CHOICE: in that order. -/
def State.sopCheck (s : State) (n : Nat) (p : HubSop) : Bool × State :=
  let s := s.padCheck n p.pad.toNat
  if p.len = 0 ∨ 1024 < p.len.toNat then (false, s.dlViolation n 3)
  else if p.typ ≠ 4 ∧ p.typ ≠ 5 then (false, s.dlViolation n 2)
  else if p.len.toNat ≠ p.typ.toNat % 2 * 2 + 4 then (false, s.dlViolation n 3)
  else if !p.whole then (false, s.dlViolation n 4)
  else (true, s)

/-- HEARTBEAT (R197, R200, R201, R206). -/
def execHeartbeat (n : Fin 32) (hb : HubHeartbeat) (s : State) : Out :=
  let (ok, s') := s.sopCheck n hb.sop
  .next <|
    if !s.laneReady n then s
    else if !ok then s'
    else if !hb.crcOk then s'.laneCrc n
    else
      let s := s'
      let s := s.goOnline (n.val / 2)
      if 8 ≤ (s.laneAt n).beats then s.dlViolation n 16
      else
        let s := s.onLane n fun l => { l with beats := l.beats + 1 }
        let s := (s.hubAck n hb.ack.toNat).laneTestDrain n
        let s := if hb.syncErr then
          (s.dlViolation n 15).onLane n fun l => { l with syncErr := true } else s
        let s := if hb.miss then s.hubMiss n hb.mslot hb.mln.toNat else s
        if hb.nack then s.hubNack n hb.nseq.toNat else s

/-- STATUS (R198): its body is kept; the first one of a 64-line interval gives the temperatures. -/
def execStatus (n : Fin 32) (st : HubStatus) (s : State) : Out :=
  let k := n.val / 2
  let (ok, s') := s.sopCheck n st.sop
  .next <|
    if !s.laneReady n then s
    else if !ok then s'
    else if !st.crcOk then s'.laneCrc n
    else
      let s := s'.goOnline k
      let s := s.each 10 fun i s =>
        s.setReg (DL_HUB_STATUS k i) (BitVec.ofNat 32 (leNat ((st.body.drop (4 * i)).take 4)))
      let ivl := leNat (st.body.take 8) / 64
      let again := (s.hubAt k).statusIvl == some ivl
      let s := s.onHub k fun h => { h with statusAge := 0, statusIvl := some ivl }
      if again then s
      else s.hubTemps k ((List.range 4).map fun i => leNat ((st.body.drop (8 + 2 * i)).take 2))

/-- OVERDUE (R200): a packet unacknowledged past its deadline fails its lane. -/
def execOverdue (n : Fin 32) (s : State) : Out :=
  .next <|
    if s.laneReady n && (s.laneAt n).window.any (fun e => decide (e.due ≤ 16 * s.now)) then s.laneFail n
    else s

/-- RESTART_BRINGUP (R204): 10 ms after its failure. -/
def execRestartBringup (n : Fin 32) (s : State) : Out :=
  let l := s.laneAt n
  .next <|
    if s.laneState n = 7 ∧ l.restart ∧ l.since + 10 * ticksMs ≤ s.now then s.laneBegin n true else s

/-- HB_INT in ticks: at least 10 µs (R205, DL_CTRL). -/
def State.hbInt (s : State) : Nat := 100 * max 10 (s.fld DL_CTRL DL_CTRL_HBINT)

/-- HUB_OFFLINE (R205): a hub has been silent for 4 × HB_INT. -/
def execHubOffline (k : Fin 16) (s : State) : Out :=
  .next <| s.whenClocked BLK_DL fun s =>
    if s.hubOnline k && decide ((s.hubAt k).heard + 4 * s.hbInt ≤ s.now) then
      ((s.setFld (DL_HUB_STAT k) DL_HUB_STAT_ONLINE 0).setEvt BLK_DL 3).fault 0x2284 k
    else s

/-- STATUS_LATE (R206 row 9): no STATUS for 256 line events. -/
def execStatusLate (k : Fin 16) (s : State) : Out :=
  .next <| s.whenClocked BLK_DL fun s =>
    if 256 ≤ (s.hubAt k).statusAge then
      (((s.onHub k fun h => { h with statusAge := 0 }).count (DL_CNT 2)).setEvt BLK_DL 5).fault 0x2286 k
    else s

/-! ### At a line event -/

/-- A line event on the dose link: assignments take effect, heartbeats are counted afresh, SYNCs leave
(R193, R195, R206). -/
def State.dlLine (s : State) (ln : Nat) : State :=
  let s := s.each 16 fun k s =>
    let s := match (s.hubAt k).assign with
      | some (arg, l) =>
        if l ≤ ln then
          let s := (s.setMode k arg).onHub k fun h => { h with assign := none }
          if arg = 0 then s.setEvt BLK_DL 2 else s
        else s
      | none => s
    let s := s.onHub k fun h => { h with statusAge := h.statusAge + 1 }
    if ln % 256 = 0 then s.syncHub k (ln + 1) else s
  s.each 32 fun n s =>
    let l := s.laneAt n
    let s := if l.beats = 0 ∧ l.syncErr = false then s
             else s.onLane n fun l => { l with beats := 0, syncErr := false }
    let s := if l.syncErr && s.laneReady n then s.sendSync n (s.lnAhead 2) else s
    s.laneTestDrain n

end Sys2Proof.Machine
end

