-- ==== Sys2Proof/Machine/Dose.lean ====
section
/-!
DEFINITION. The dose stage (R123 to R148): the reads of its slots, the computation of a dose, packet
sets, slewing and table epochs.
-/

namespace Sys2Proof.Machine

/-! ### The coverage store (R101, R112) -/

/-- The tile that holds a coverage line and dot of a plane. -/
def State.tileAt (s : State) (plane line dot : Nat) : Option TileSt :=
  s.adm.tiles.find? fun t =>
    t.key.plane == plane && t.key.band == line / 64 * 64 && t.key.col == dot / 256

/-- The coverage at a dot, and whether it lies in a ZERO tile. A tile not accepted when it is read is
delivered as one. -/
def State.coverage (s : State) (plane : Nat) (line : Int) (dot : Nat) : Nat × Bool :=
  match line with
  | .negSucc _ => (0, false)
  | .ofNat y =>
    match s.tileAt plane y dot with
    | none => (0, false)
    | some t =>
      if t.fate = .accepted then (s.tileByte t y dot, false)
      else (0, true)

/-! ### One dose (R128 to R140) -/

def State.slotAtOf (s : State) (n : Nat) : SlotSt := s.ds.slots.get SlotSt.reset n
def State.onSlot (s : State) (n : Nat) (f : SlotSt → SlotSt) : State :=
  s.onDs fun d => { d with slots := d.slots.upd SlotSt.reset n f }

/-- The receiver index of a copy. -/
def State.recvIndex (s : State) (copy : Nat) : RecvIndex := if copy = 0 then s.ds.index0 else s.ds.index1

/-- The state of a beam: SPARE where the index treats its record so. -/
def State.beamState (s : State) (copy b : Nat) : Nat :=
  if (s.recvIndex copy).spares.contains b then 3 else mapBeam (s.mapRec copy b)

/-- c_w of a beam at a line (R131). -/
def State.weighted (s : State) (copy b : Nat) (line : Int) : Nat :=
  let m := s.mapRec copy b
  ((s.coverage (s.slotPlane (b / 4096)) line (mapDot m)).1 * mapW m + 127) / 255

/-- c of a beam at a line (R134). -/
def State.compensated (s : State) (copy b : Nat) (line : Int) : Nat :=
  min 255 (((s.recvIndex copy).donations.filter fun d => d.recv == b).foldl
    (fun c d => c + (s.weighted copy d.donor line * d.k + 128) / 256) (s.weighted copy b line))

/-- c' from a curve value, GA and OA (R137). -/
def shaped (curve ga : Nat) (oa : Int) : Nat := sat16 ((curve * ga / 2 ^ 14 : Nat) + oa)

/-- A dose from c', the threshold and the dose width (R140). -/
def screened (c t dw : Nat) : Nat :=
  let lmax := 2 ^ dw - 1
  if c = 65535 then lmax else min lmax ((c * lmax + (t * 256 + 128)) / 65536)

/-- The dose of a beam at its slot's line (R123). -/
def State.dose (s : State) (x : SetSlot) (dw b width : Nat) : Nat :=
  let m := s.mapRec x.copy b
  let st := s.beamState x.copy b
  let dot := mapDot m
  if 2 ≤ st ∨ width ≤ dot ∨ (s.coverage (s.slotPlane x.slot) x.line dot).2 then 0
  else
    let sel := if x.derate then (mapCsel m + s.fld (SLOT_CFG x.slot) SLOT_CFG_DRX) % 256 else mapCsel m
    let curve := s.curve x.copy sel (s.compensated x.copy b x.line)
    let trim := s.loadNat (trimAddr b) 8
    let c := shaped curve (trim / 2 ^ 32 % 65536) (sext 16 (trim / 2 ^ 48))
    screened c (s.threshold x.msel (x.line % 256).toNat dot) dw

/-! ### Slewing (R130, R138) -/

/-- A step of an applied value toward its target, at most `step`. -/
def slewed (applied target : Int) (step : Nat) : Int :=
  applied + clampI (-(step : Int)) step (target - applied)

def State.slewLines (s : State) : Nat := 2 ^ min 16 (s.fld DS_CTRL DS_CTRL_SLEWLOG)

/-- The target latch and the slew of a beam at a line. -/
def State.slewBeam (s : State) (b : Nat) (line : Int) (first : Bool) : State :=
  let trim := s.loadNat (trimAddr b) 8
  let s := if line % 64 = 0 ∨ first then
      s.onDs fun d => { d with
        latched := (d.latched.set 0 (2 * b) (BitVec.ofNat 16 trim)).set 0 (2 * b + 1)
          (BitVec.ofNat 16 (trim / 2 ^ 16)) }
    else s
  if line % s.slewLines = 0 ∧ s.bit DS_CTRL DS_CTRL_HOLD = false then
    let gt := (s.ds.latched.get 0 (2 * b)).toNat
    let ot := (s.ds.latched.get 0 (2 * b + 1)).toInt
    let ga := slewed (trim / 2 ^ 32 % 65536 : Nat) gt (s.fld DS_SLEW DS_SLEW_GSTEP)
    let oa := slewed (sext 16 (trim / 2 ^ 48)) ot (s.fld DS_SLEW DS_SLEW_OSTEP)
    s.storeBytes (trimAddr b + 4) (leBytes 2 (twos 16 ga) ++ leBytes 2 (twos 16 oa))
  else s

/-! ### A slot line (R141, R142) -/

/-- The value at a payload position: the dose of the beam that claims it; either of several (R148). -/
def pickDose (d j : Nat) : List Nat → Nat
  | [] => 0
  | [x] => x
  | xs => xs.getD ((Config.freeByte d j).toNat % xs.length) 0

/-- Doses packed at DW bits per position. -/
def packDoses (dw : Nat) (doses : List Nat) : List Byte :=
  leBytes (512 * dw) (doses.foldr (fun x acc => x % 2 ^ dw + 2 ^ dw * acc) 0)

/-- The fire delay of a slot (R142). -/
def fireDelay (sfrac per : Nat) : Nat := (sfrac * per + 128) / 256

/-- A slot's packet for its line is computed and handed to the dose link. -/
def State.slotPacket (s : State) (p : PacketSet) (x : SetSlot) : State :=
  let n := x.slot
  let dw := doseWidth p.dwc
  let first := (s.slotAtOf n).first
  let beams := (List.range 4096).map (4096 * n + ·)
  let s := beams.foldl (fun s b => s.slewBeam b x.line first) s
  let s := s.onSlot n fun t => { t with first := false }
  let width := match s.runJob with | some j => j.hdr.width (s.slotPlane n) | none => 0
  let doses := beams.map fun b => (mapNpos (s.mapRec x.copy b), s.dose x dw b width)
  let zero := beams.any fun b =>
    (s.coverage (s.slotPlane n) x.line (mapDot (s.mapRec x.copy b))).2
  let s := if zero then s.count (DS_CNT 2) else s
  let (d, s) := s.draw
  let payload := packDoses dw ((List.range 4096).map fun j =>
    pickDose d j ((doses.filter fun e => e.1 == j).map (·.2)))
  let delay := fireDelay (s.fld (SLOT_CFG n) SLOT_CFG_SFRAC) p.per
  let s := s.setFld (DS_SLOT_STAT n) DS_SLOT_STAT_DELAY delay
  s.handOver { fln := p.line + p.lead + 1, slot := n, delay := delay, dwc := p.dwc,
               epoch := x.copy == 1, derate := x.derate, payload := payload }

/-- PACKET_SET (R144): the set in progress is computed and packed, slot by slot. -/
def execPacketSet (s : State) : Out :=
  .next <| s.whenClocked BLK_DS fun s =>
    match s.ds.sets with
    | [] => s
    | p :: rest => (p.slots.foldl (fun s x => s.slotPacket p x) s).onDs fun d => { d with sets := rest }

/-! ### Epochs (R145, R146) -/

/-- Slots that read lines. -/
def State.readingSlots (s : State) : List Nat := (List.range 64).filter fun n => (s.slotAtOf n).reading

/-- The highest line that a reading slot has read. -/
def State.highestRead (s : State) : Option Int :=
  (s.readingSlots.filterMap fun n => (s.slotAtOf n).last).max?

/-- Records that the new copy's check treats as SPARE (R129). -/
def State.mapSpares (s : State) (copy : Nat) : List Nat :=
  ((List.range 64).filter s.slotEn).flatMap fun n =>
    ((List.range 4096).map (4096 * n + ·)).filter fun b =>
      mapPlane (s.mapRec copy b) != s.slotPlane n

/-- The donations that a donor's record names, before any is dropped: receiver and weight. -/
def State.namedDonations (s : State) (copy b : Nat) : List (Nat × Nat) :=
  let e := s.compEntry copy (mapClink (s.mapRec copy b) % 16384)
  [(e % 2 ^ 18, min 256 (e / 2 ^ 18 % 512)), (e / 2 ^ 32 % 2 ^ 18, min 256 (e / 2 ^ 50 % 512))].filter
    fun d => d.2 != 0

/-- The receiver index of a copy, and the donor of each donation dropped (R133). -/
def State.buildIndex (s : State) (copy : Nat) : RecvIndex × List Nat :=
  let spares := s.mapSpares copy
  let state := fun b => if spares.contains b then 3 else mapBeam (s.mapRec copy b)
  let donors := ((List.range 64).filter s.slotEn).flatMap fun n =>
    ((List.range 4096).map (4096 * n + ·)).filter fun b => state b == 2
  let add := fun (acc : List Donation × List Nat) (b : Nat) =>
    let link := mapClink (s.mapRec copy b)
    if link = 0 then acc
    else if 16384 ≤ link then (acc.1, acc.2 ++ [b])
    else (s.namedDonations copy b).foldl (fun acc d =>
      let ok := decide (state d.1 ≤ 1) && s.slotEn (d.1 / 4096) &&
        s.slotPlane (d.1 / 4096) == s.slotPlane (b / 4096) &&
        decide ((acc.1.filter fun x => x.recv == d.1).length < 2)
      if ok then (acc.1 ++ [{ donor := b, recv := d.1, k := d.2 }], acc.2)
      else (acc.1, acc.2 ++ [b])) acc
  let r := donors.foldl add ([], [])
  ({ donations := r.1, spares := spares }, r.2)

/-- A switch completes (R146). -/
def State.switchDone (s : State) (w : EpochSwitch) : State :=
  let s := s.setFld DS_EPOCH_STAT DS_EPOCH_STAT_ACTIVE (1 - s.dsActive)
  let s := s.each 8 fun p s => s.setFld (PLANE_MSEL p) PLANE_MSEL_ACTIVE (w.msel.getD p 0)
  let s := (s.setFld DS_EPOCH_STAT DS_EPOCH_STAT_BUSY 0).setFld DS_EPOCH_STAT DS_EPOCH_STAT_RESULT 1
  ((s.onDs fun d => { d with switch := none }).count (DS_CNT 3)).setEvt BLK_DS 0

/-- A switch completes when the enabled slot of largest offset has read T, or none is enabled. -/
def State.switchCheck (s : State) : State :=
  match s.ds.switch with
  | none => s
  | some w =>
    let slots := s.readingSlots
    let far := maxOf (slots.map s.slotOfs)
    let read := slots.any fun n =>
      s.slotOfs n == far && (match (s.slotAtOf n).last with
        | some y => decide ((w.target : Int) ≤ y) | none => false)
    if slots.isEmpty || read then s.switchDone w else s

/-- The commit ends refused (R145). -/
def State.commitRefused (s : State) (result : Nat) : State :=
  ((((s.onDs fun d => { d with building := none }).setFld DS_EPOCH_STAT DS_EPOCH_STAT_BUSY 0).setFld
    DS_EPOCH_STAT DS_EPOCH_STAT_RESULT result).setEvt BLK_DS 1)

/-- The commit is accepted with its T. -/
def State.commitAccepted (s : State) (t : Nat) : State :=
  let copy := 1 - s.dsActive
  let (ix, drops) := s.buildIndex copy
  let msel := (List.range 8).map fun p => s.fld (PLANE_MSEL p) PLANE_MSEL_NEXT
  let s := s.onDs fun d => { d with
    building := none, switch := some { target := t, msel := msel, late := [] },
    index0 := if copy = 0 then ix else d.index0, index1 := if copy = 1 then ix else d.index1 }
  let s := drops.foldl (fun s b => (s.count (DS_CNT 0)).fault 0x01C2 0xFF b) s
  let s := ix.spares.foldl (fun s b => (s.count (DS_CNT 1)).fault 0x01C1 0xFF b) s
  let s := if drops.isEmpty then s else s.setEvt BLK_DS 2
  (s.sendFracsAll copy).switchCheck

/-- COMMIT (R145): a write of 1 to DS_EPOCH_CMD.COMMIT. -/
def State.commitWrite (s : State) : State :=
  if s.bit DS_EPOCH_STAT DS_EPOCH_STAT_BUSY then s.ignored DS_EPOCH_CMD
  else (s.onDs fun d => { d with building := some (s.reg64 DS_EPOCH_LN_LO DS_EPOCH_LN_HI) }).setFld
    DS_EPOCH_STAT DS_EPOCH_STAT_BUSY 1

def execCommit (s : State) : Out := .next (s.whenAwake DS_EPOCH_CMD fun s => s.commitWrite)

/-- RECEIVER_INDEX_BUILT (R145): the commit is accepted or refused. -/
def execReceiverIndexBuilt (s : State) : Out :=
  .next <| s.whenClocked BLK_DS fun s =>
    match s.ds.building with
    | none => s
    | some t =>
      let high := s.highestRead
      if t % 64 ≠ 0 then s.commitRefused 3
      else if t = 0 then
        match high with
        | none => s.commitAccepted 0
        | some y =>
          let t' := if y < 0 then 0 else 64 * (y.toNat / 64 + 1)
          (s.setReg64 DS_EPOCH_LN_LO DS_EPOCH_LN_HI t').commitAccepted t'
      else match high with
        | some y => if (t : Int) ≤ y then s.commitRefused 2 else s.commitAccepted t
        | none => s.commitAccepted t

/-! ### Hold (R147) -/

/-- A new value of DS_CTRL.HOLD. -/
def State.holdSet (s : State) (on : Bool) : State :=
  let s := s.setFld DS_CTRL DS_CTRL_HOLD (b2n on)
  if on then s else s.setFld DS_CTRL DS_CTRL_HOLDING 0

/-- HOLD (R147). -/
def execHold (on : Bool) (s : State) : Out := .next (s.whenAwake DS_CTRL fun s => s.holdSet on)

/-! ### At a line event -/

/-- The copy and the matrix of a slot's line (R146). -/
def State.epochOf (s : State) (n : Nat) (line : Int) : Nat × Nat :=
  let p := s.slotPlane n
  let now := (s.dsActive, s.fld (PLANE_MSEL p) PLANE_MSEL_ACTIVE)
  match s.ds.switch with
  | none => now
  | some w => if (w.target : Int) ≤ line ∨ w.late.contains n then (1 - s.dsActive, w.msel.getD p 0) else now

/-- A slot begins its read of a line: enabling and derating change at multiples of 64 (R124, R136). -/
def State.slotReads (s : State) (n : Nat) (line : Int) : State :=
  let t := s.slotAtOf n
  let en := s.slotEn n
  let s :=
    if line % 64 = 0 ∧ en ≠ t.reading then
      let s := s.onSlot n fun _ => { reading := en, first := en, last := none }
      if en then
        (s.onDs fun d => { d with switch := d.switch.map fun w => { w with late := n :: w.late } }
          ).sendSlotFracs n
      else s
    else s
  if (s.slotAtOf n).reading then
    let s := s.onSlot n fun t => { t with last := some line }
    let warm := s.bit (HT_STAT n) HT_STAT_WARM
    let s := if line % 64 = 0 ∧ warm ≠ s.bit (DS_SLOT_STAT n) DS_SLOT_STAT_DERATE then
        (s.setFld (DS_SLOT_STAT n) DS_SLOT_STAT_DERATE (b2n warm)).setEvt BLK_DS (if warm then 3 else 4)
      else s
    s.setFld (DS_SLOT_STAT n) DS_SLOT_STAT_COPY (s.epochOf n line).1
  else s

/-- A set that waits is abandoned (R156). DESIGN CHOICE: its lines are not computed, so the target latch and
the slew of those lines (R130, R138) do not happen. -/
def State.abandon (s : State) (p : PacketSet) : State :=
  (((s.onLc fun l => { l with abandoned := (p.line + p.lead + 1) :: l.abandoned }).count
    (LC_CNT 2)).setEvt BLK_LC 2).fault 0x0202

/-- A packet set joins the sets; of two that wait the older is abandoned (R156). -/
def State.addSet (s : State) (p : PacketSet) : State :=
  match s.ds.sets with
  | a :: b :: _ => (s.abandon b).onDs fun d => { d with sets := [a, p] }
  | sets => s.onDs fun d => { d with sets := sets ++ [p] }

/-- LEAD and the dose width code at a line event: of the job that runs or drains, else of the last one that
did; before any job the default lead of R91 and a free width (DESIGN CHOICE). -/
def State.lineForm (s : State) : Nat × Nat :=
  match (((s.slotsIn 5 ++ s.slotsIn 6).filterMap s.jobAt) ++ s.adm.past).head? with
  | some j => (j.hdr.lead, j.hdr.dwc)
  | none => (16, Config.idleDose % 5)

/-- A line event X on the dose stage (R100, R144 to R147). -/
def State.dsLine (s : State) (x : Nat) : State :=
  let s := if s.bit DS_CTRL DS_CTRL_HOLD && !s.bit DS_CTRL DS_CTRL_HOLDING then
    (s.setFld DS_CTRL DS_CTRL_HOLDING 1).setEvt BLK_DS 5 else s
  let (lead, dwc) := s.lineForm
  let line := fun (s : State) n => ((x + lead + 1 : Nat) : Int) - (s.slotOfs n : Int)
  let s := s.each 64 fun n s => s.slotReads n (line s n)
  let slots := s.readingSlots.map fun n =>
    let y := line s n
    let e := s.epochOf n y
    ({ slot := n, line := y, derate := s.bit (DS_SLOT_STAT n) DS_SLOT_STAT_DERATE,
       copy := e.1, msel := e.2 } : SetSlot)
  let s :=
    if slots.isEmpty then s
    else s.addSet { line := x, per := s.fld LC_PER LC_PER_PER, lead := lead, dwc := dwc, slots := slots }
  s.switchCheck

end Sys2Proof.Machine
end

