-- ==== Sys2Proof/Machine/LineMotion.lean ====
section
/-!
DEFINITION. The line clock's position (R149 to R152): how its source moves P, REVERSED, and the due
instant of line event H + 1. Instants are numbers of 625 ps, 16 to a tick.
-/

namespace Sys2Proof.Machine

/-- The source in force: 1 ENC, 2 FEED, 3 TIMER; every other code of LC_CTRL.SRC acts as OFF. -/
def State.lcSrc (s : State) : Nat := if s.lc.src ≤ 3 then s.lc.src else 0

def State.lcUnit (s : State) : Nat := s.lc.unit

/-- RATIO in force, in units of 2^-32 line per source unit. -/
def State.ratio (s : State) : Nat := s.lc.ratio

/-- A tick begins: what was written to SRC, UNIT and RATIO acts from it on (R149). -/
def State.lcTake (s : State) : State :=
  s.onLc fun l => { l with
    src := s.fld LC_CTRL LC_CTRL_SRC, unit := s.fld LC_CTRL LC_CTRL_UNIT,
    ratio := (s.reg LC_RATIO_F).toNat + s.fld LC_RATIO_I LC_RATIO_I_INT * 2 ^ 32 }

/-- The source is encoder `q`. -/
def State.lcReads (s : State) (q : Nat) : Bool := s.lcSrc == 1 && s.lcUnit == q

/-- STILL and VALID as LC_STAT mirrors them (R151). -/
def State.lcStill (s : State) : Bool :=
  s.lcSrc == 1 && decide (s.lcUnit < 10) && s.bit (QE_STAT s.lcUnit) QE_STAT_STILL

def State.lcValid (s : State) : Bool :=
  s.lcSrc == 1 && decide (s.lcUnit < 10) && s.bit (QE_STAT s.lcUnit) QE_STAT_VALID

/-- N = H + 1 as a position. -/
def State.nextPos (s : State) : BitVec 96 := (s.lc.hwm + 1).setWidth 96 <<< 32

/-- N − P in units of 2^-32 line. -/
def State.toNext (s : State) : Int := (s.nextPos - s.lc.pos).toInt

/-- The speed V that places line events under R152; none where position alone places them. -/
def State.placeSpeed (s : State) : Option Nat :=
  let v := sext 32 (s.reg (LP_OUT (s.fld LC_CTRL LC_CTRL_LOOP))).toNat
  if s.lcValid && s.bit LC_CTRL LC_CTRL_PLACE && decide (0 < v) then some v.toNat else none

/-- The due instant after a motion at tick `t` (R152); `tap` is that of an arrival. An instant before the
motion stays. -/
def State.placeNext (s : State) (t tap : Nat) (forward : Bool) : State :=
  let kept := match s.lc.due with | some d => decide (d < 16 * t) | none => false
  if kept then s
  else
    let due :=
      if s.toNext ≤ 0 then (if forward then some (16 * t + tap) else none)
      else match s.placeSpeed with
        | some v => some (16 * t + ceilDiv (16 * s.toNext.toNat) v)
        | none => none
    s.onLc fun l => { l with due := due }

/-- R151: the largest P, and REVERSED. -/
def State.trackReverse (s : State) : State :=
  let below := (s.lc.maxPos - s.lc.pos).toInt
  if below ≤ 0 then (s.onLc fun l => { l with maxPos := l.pos }).setFld LC_STAT LC_STAT_REVERSED 0
  else if 2 ^ 30 < below ∧ ¬ s.bit LC_STAT LC_STAT_REVERSED then
    (s.setFld LC_STAT LC_STAT_REVERSED 1).setEvt BLK_LC 3
  else s

/-- The source moves by a signed number of units in this tick (R149): P moves by RATIO for each. -/
def State.lcMove (s : State) (units : Int) (tap : Nat) : State :=
  let by_ := units * (s.ratio : Int)
  if by_ = 0 then s
  else
    let forward := decide (0 < by_)
    let old := s.lc.pos
    let pos := old + BitVec.ofInt 96 by_
    let s := s.onLc fun l => { l with
      pos := pos, moved := some (s.now, forward),
      crossed := if forward ∧ old >>> 32 ≠ pos >>> 32 then (s.now, old, pos) :: l.crossed else l.crossed }
    s.trackReverse.placeNext s.now tap forward

/-- The tap of an arrival within a TIMER tick, from N − P at its start (R152). -/
def State.timerTap (s : State) (left : Int) : Nat :=
  if left ≤ 0 ∨ s.ratio = 0 then 0 else min 15 (16 * left.toNat / s.ratio)

/-- TIMER: one unit in every tick. -/
def State.lcTimerTick (s : State) : State :=
  if s.lcSrc = 3 then s.lcMove 1 (s.timerTap s.toNext) else s

/-- The instant at which P was brought to N, where a recorded motion has done so: the latest one (R152). -/
def State.reachedAt (s : State) : Option Nat :=
  (s.lc.crossed.find? fun (_, a, b) => decide (0 < (s.nextPos - a).toInt) && decide ((s.nextPos - b).toInt ≤ 0)).map
    fun (t, a, b) =>
      16 * t + (if s.lcSrc = 3 then min 15 (16 * (s.nextPos - a).toInt.toNat / (b - a).toInt.toNat) else 0)

/-- The due instant after H has moved on: that at which P has reached the new N, or else what the last motion
says of it. Under TIMER, P stood at P − RATIO as the tick of the last motion began. -/
def State.placeAgain (s : State) : State :=
  let s := s.onLc fun l => { l with
    due := none, crossed := l.crossed.filter fun (_, _, b) => decide ((s.nextPos - b).toInt ≤ 0) }
  match (if s.toNext ≤ 0 then s.reachedAt else none), s.lc.moved with
  | some d, _ => s.onLc fun l => { l with due := some d }
  | none, some (t, forward) =>
    s.placeNext t (if s.lcSrc = 3 then s.timerTap (s.toNext + (s.ratio : Int)) else 0) forward
  | none, none => s

/-- R150: a set of P by a write of LC_SET_HI while SRC is OFF. -/
def State.lcSetWrite (s : State) (hi : Word) : State :=
  if s.fld LC_CTRL LC_CTRL_SRC = 0 ∨ 3 < s.fld LC_CTRL LC_CTRL_SRC then
    let s := s.setReg LC_SET_HI hi
    let ln := BitVec.ofNat 64 (s.reg64 LC_SET_LO LC_SET_HI)
    let pos : BitVec 96 := ln.setWidth 96 <<< 32
    let s := s.onLc fun l => { l with pos := pos, maxPos := pos, hwm := ln - 1, due := none,
                                      crossed := [], moved := none }
    let s := s.setFld LC_STAT LC_STAT_REVERSED 0
    s.each 32 fun l s => s.onLoop l fun x => { x with q := pos }
  else s.ignored LC_SET_HI

end Sys2Proof.Machine
end

