-- ==== Sys2Proof/Machine/Motion.lean ====
section
/-!
DEFINITION. The motion axes (R344 to R361): profiles, ramps, segments, steps, coil frames, switches and
homing. Positions are numbers of 2^-32 microstep, velocities of 2^-48 microstep per tick.
-/

namespace Sys2Proof.Machine

/-! ### Profiles and ramps (R349, R351, R352) -/

/-- A profile set in units of 2^-48. -/
structure Prof where
  vstart : Nat
  v1     : Nat
  vmax   : Nat
  vstop  : Nat
  a1     : Nat
  a2     : Nat
  d2     : Nat
  d1     : Nat
deriving DecidableEq, Repr

/-- Profile set `k` of axis `a`: velocities limited to 0x7FFF_FFFF, accelerations at least 1. -/
def State.prof (s : State) (a k : Nat) : Prof :=
  let vel := fun j => min 0x7FFFFFFF (s.reg (AX_SET a k j)).toNat * 2 ^ 16
  let acc := fun j => max 1 (s.reg (AX_SET a k j)).toNat
  { vstart := vel 0, v1 := vel 1, vmax := vel 2, vstop := vel 3,
    a1 := acc 4, a2 := acc 5, d2 := acc 6, d1 := acc 7 }

/-- One tick of deceleration, D2 above V1 and D1 below, down to a floor. -/
def Prof.slow (f : Prof) (u floor : Nat) : Nat :=
  if u ≤ floor then u else max floor (u - if f.v1 < u then f.d2 else f.d1)

/-- One tick toward a speed from at or below it: the jump toward VSTART, A1 below V1, A2 above. With VSTART above
VMAX the jump is as written, and VMAX is held from then on (R368). -/
def Prof.gain (f : Prof) (u top jump : Nat) : Nat :=
  if u < jump ∧ u ≠ top then jump else min top (u + if u < f.v1 then f.a1 else f.a2)

/-- The speed after a tick toward `top`. -/
def Prof.seek (f : Prof) (u top jump : Nat) : Nat := if top < u then f.slow u top else f.gain u top jump

/-- The distance left (2^-48 microstep) is at most that needed to brake from `u` to V1 at D2 and from
there to VSTOP at D1, exactly. -/
def Prof.mustBrake (f : Prof) (u left : Nat) : Bool :=
  let hi := u * u - f.v1 * f.v1
  let lo := min u f.v1 * min u f.v1 - f.vstop * f.vstop
  decide (2 * f.d1 * f.d2 * left ≤ f.d1 * hi + f.d2 * lo)

/-- Through zero from the wrong side (R352). -/
def Prof.turn (f : Prof) (u : Nat) : Nat := f.slow u 0

/-- A tick of a move with the signed distance to its goal: the new velocity, and whether it brakes. -/
def Prof.moveTick (f : Prof) (v dist : Int) (braking : Bool) : Int × Bool :=
  let dir : Int := if 0 < dist then 1 else -1
  if dir * v < 0 then (-dir * (f.turn v.natAbs : Int), false)
  else
    let u := v.natAbs
    let b := decide (0 < u) && (braking || f.mustBrake u (dist.natAbs * 2 ^ 16))
    (dir * ((if b then f.slow u f.vstop else f.seek u f.vmax f.vstart : Nat) : Int), b)

/-- A tick of a ramp toward a signed velocity. -/
def Prof.velocityTick (f : Prof) (v target : Int) : Int :=
  let dir : Int := if 0 < target ∨ (target = 0 ∧ 0 < v) then 1 else -1
  if dir * v < 0 then -dir * (f.turn v.natAbs : Int)
  else dir * (f.seek v.natAbs (min target.natAbs f.vmax) (min target.natAbs f.vstart) : Int)

/-! ### Registers of an axis -/

def State.axState (s : State) (a : Nat) : Nat := s.fld (AX_STAT a) AX_STAT_STATE
def State.setAxState (s : State) (a v : Nat) : State := s.setFld (AX_STAT a) AX_STAT_STATE v

/-- A bit of AX_FLAG sets (and the axis's attention event). -/
def State.axFlag (s : State) (a : Nat) (f : Fld) : State := (s.hwSet (AX_FLAG a) f.lo).setEvt BLK_MX a

/-- The microstep position floor(p). -/
def AxSt.floor (x : AxSt) : BitVec 32 := BitVec.ofNat 32 (x.p.toNat / 2 ^ 32)

/-- A microstep position with fraction zero. -/
def posOf (m : BitVec 32) : BitVec 64 := BitVec.ofNat 64 (m.toNat * 2 ^ 32)

/-- The trip bit of a side. -/
def State.tripped (s : State) (a : Nat) (positive : Bool) : Bool :=
  s.bit (AX_FLAG a) (if positive then AX_FLAG_TRIP_P else AX_FLAG_TRIP_N)

/-- R361: the line clock issues the commands of this axis. -/
def State.lcFeeds (s : State) (a : Nat) : Bool := s.lcSrc == 2 && s.lcUnit == a && s.anyArmed

/-- V and its register. -/
def State.setVel (s : State) (a : Nat) (v : Int) : State :=
  (s.onAx a fun x => { x with v := v }).setReg (AX_VEL a) (BitVec.ofInt 32 (v.tdiv (2 ^ 16)))

def State.setRun (s : State) (a : Nat) (r : AxRun) : State := s.onAx a fun x => { x with run := r }

/-- A run has ended with V = 0. -/
def State.axArrive (s : State) (a : Nat) : State := (s.setVel a 0).setRun a .arrived

/-- LAG reads 1 while AX_POS and floor(p) differ (R348). -/
def State.showLag (s : State) (a : Nat) : State :=
  s.setFld (AX_STAT a) AX_STAT_LAG (b2n (decide ((s.axAt a).floor ≠ s.reg (AX_POS a))))

/-- Steps that are due are dropped: p is where AX_POS is. -/
def State.dropSteps (s : State) (a : Nat) : State :=
  let pos := s.reg (AX_POS a)
  (if (s.axAt a).floor = pos then s else s.onAx a fun x => { x with p := posOf pos }).showLag a

/-- R354: V := 0, and no further step. -/
def State.hardStopAt (s : State) (a : Nat) : State := (s.axArrive a).dropSteps a

/-! ### Segments (R353) -/

/-- The words of an entry of the segment table. -/
def State.segWords (s : State) (a i : Nat) : List Nat :=
  (List.range 4).map fun w => s.loadNat (SEG_TABLE a + 16 * i + 4 * w) 4

/-- A segment begins from a state. -/
def State.beginSeg (s : State) (a i : Nat) (p0 v0 : Int) : State :=
  (s.setRun a (.segments { entry := i, words := s.segWords a i, t := 0, p0 := p0, v0 := v0 })).setFld
    (AX_STAT a) AX_STAT_SEG i

def segT (w : List Nat) : Nat := max 1 (w.getD 0 0)
def segV1 (w : List Nat) : Int := clampI (-0x7FFFFFFF) 0x7FFFFFFF (sext 32 (w.getD 2 0))

/-- P1 as a continuation of p0: the nearest position with that microstep count. -/
def segGoal (w : List Nat) (p0 : Int) : Int :=
  p0 + (posOf (BitVec.ofNat 32 (w.getD 1 0)) - BitVec.ofInt 64 p0).toInt

/-- The cubic at tick t, in units of 2^-32 microstep, rounded down. -/
def segAt (w : List Nat) (p0 v0 : Int) (t : Nat) : Int :=
  let T : Int := segT w
  let d := segGoal w p0 - p0
  let v1 := segV1 w
  let t : Int := t
  ((p0 + v0 * t) * T ^ 3 + (3 * d - (2 * v0 + v1) * T) * t ^ 2 * T + ((v0 + v1) * T - 2 * d) * t ^ 3)
    / T ^ 3

/-- R368: an entry written while it is in use acts in that tick as it was or as it is. -/
def State.segInUse (s : State) (a : Nat) (g : SegRun) : List Nat × State :=
  let now := s.segWords a g.entry
  if now = g.words then (now, s)
  else
    let (d, s) := s.draw
    (if Config.freeBit d 0 then now else g.words, s)

/-! ### Steps (R345, R348, R358) -/

/-- A step is issued: AX_POS moves, full enable returns, and the line clock counts it (R149, R355). -/
def State.issueSteps (s : State) (a : Nat) (n : Int) : State :=
  let s := s.setReg (AX_POS a) (s.reg (AX_POS a) + BitVec.ofInt 32 n)
  let s := (s.onAx a fun x => { x with lastStep := some s.now, stepUp := decide (0 < n), off := false }).setFld (AX_STAT a) AX_STAT_STILL 0
  if s.lcSrc == 2 && s.lcUnit == a then s.lcMove n 0 else s

/-- STEPMIN as it acts. -/
def State.stepMin (s : State) (a : Nat) : Nat := max 4 (s.fld (AX_CFG a) AX_CFG_STEPMIN)

/-- R345: a step in a direction may rise in this tick: STEPMIN after the last one, and 5 ticks after DIR
last changed. -/
def State.stepAllowed (s : State) (a : Nat) : Bool :=
  let x := s.axAt a
  (match x.lastStep with | some t => decide (t + s.stepMin a ≤ s.now) | none => true) &&
  (match x.dirAt with | some t => decide (t + 5 ≤ s.now) | none => true)

/-- AX_POS follows floor(p) (R348): in CURRENT mode in every tick, but at no more than 0.5 microstep per tick in
one direction, which only a segment can demand (R349, R368). -/
def State.follow (s : State) (a : Nat) : State :=
  let x := s.axAt a
  let lag := (x.floor - s.reg (AX_POS a)).toInt
  let s :=
    if lag = 0 ∨ s.tripped a (decide (0 < lag)) then s
    else if s.bit (AX_CFG a) AX_CFG_MODE then
      if x.stepUp ≠ decide (0 < lag) || (match x.lastStep with | some t => decide (t + 2 ≤ s.now) | none => true) then
        s.issueSteps a (if 0 < lag then 1 else -1)
      else s
    else if x.dirPos ≠ decide (0 < lag) then
      s.onAx a fun x => { x with dirPos := decide (0 < lag), dirAt := some s.now }
    else if s.stepAllowed a then s.issueSteps a (if 0 < lag then 1 else -1)
    else s
  s.showLag a

/-- p advances, unless toward a tripped limit (R358). -/
def State.advance (s : State) (a : Nat) (d : Int) : State :=
  if d = 0 ∨ s.tripped a (decide (0 < d)) then s
  else s.onAx a fun x => { x with p := x.p + BitVec.ofInt 64 d }

/-- The distance of a move to where floor(p) reaches the target: from below its whole microstep, from
above the end of it. -/
def moveDistance (p : BitVec 64) (target : BitVec 32) : Int :=
  let d := (posOf target - p).toInt
  if 0 < d then d else if -(2 ^ 32 : Int) < d then 0 else d + (2 ^ 32 - 1)

/-! ### Homing (R359, R360) -/

/-- The reference of homing: 0 home input, 1 limit, 2 index. -/
def State.homeRef (s : State) (a : Nat) : Nat := s.fld (AX_HOME a) AX_HOME_HREF % 3

def State.homePositive (s : State) (a : Nat) : Bool := s.bit (AX_HOME a) AX_HOME_HDIR
def State.homeSet (s : State) (a : Nat) : Nat := s.fld (AX_HOME a) AX_HOME_HSET

def State.setHstep (s : State) (a v : Nat) : State := s.setFld (AX_STAT a) AX_STAT_HSTEP v
def State.homeAt (s : State) (a step : Nat) : Bool :=
  s.axState a == 5 && s.fld (AX_STAT a) AX_STAT_HSTEP == step

/-- The velocity of a homing step: VMAX of HSET toward a side, in units of R348. -/
def State.homeSpeed (s : State) (a : Nat) (positive : Bool) : AxRun :=
  let v : Int := ((s.prof a (s.homeSet a)).vmax : Int) / 2 ^ 16
  .velocity (s.homeSet a) (if positive then v else -v)

/-- SEARCH begins. -/
def State.homeSearch (s : State) (a : Nat) : State :=
  ((s.setHstep a 1).onAx a fun x => { x with searchAt := x.floor, travel := 0 }).setRun a
    (s.homeSpeed a (s.homePositive a))

/-- The reference is found in SEARCH: the position is latched and a ramp stop begins. -/
def State.homeLatch (s : State) (a : Nat) : State :=
  if s.homeAt a 1 then
    ((s.setReg (AX_HLATCH a) (s.reg (AX_POS a))).setHstep a 2).setRun a .stop
  else s

/-- Homing fails (R360): a ramp stop. -/
def State.homeFail (s : State) (a : Nat) : State :=
  if s.axState a = 5 then
    ((((s.setFld (AX_STAT a) AX_STAT_HOMED 0).axFlag a AX_FLAG_HOME_FAIL).fault 0x04C2 a).setAxState a
      4).setRun a .stop
  else s

/-- The switch that is the reference of homing; an index is none. -/
def State.homeSwitch (s : State) (a : Nat) : Option Nat :=
  match s.homeRef a with
  | 0 => some 2
  | 1 => some (b2n (s.homePositive a))
  | _ => none

/-- The reference input of homing is qualified active. -/
def State.homeActive (s : State) (a : Nat) : Bool :=
  match s.homeRef a with
  | 0 => s.bit (AX_STAT a) AX_STAT_HOMEIN
  | 1 => s.bit (AX_STAT a) (if s.homePositive a then AX_STAT_LIMP else AX_STAT_LIMN)
  | _ => false

/-- CLEAR has ended: the reference has been inactive for REL (R359). -/
def State.homeCleared (s : State) (a : Nat) : Bool :=
  !s.homeActive a &&
    match s.homeSwitch a with
    | some i => match (s.axAt a).relAt.get none i with
      | some t => decide (t + s.fld (AX_LIM a) AX_LIM_REL * 1000 ≤ s.now)
      | none => true
    | none => true

/-- What follows a tick in homing: the end of CLEAR, the search bound, and the return once the ramp stop has
ended. -/
def State.homeTick (s : State) (a : Nat) : State :=
  let x := s.axAt a
  if s.homeAt a 0 then (if s.homeCleared a then s.homeSearch a else s)
  else if s.homeAt a 1 then
    let travel := x.travel + (x.floor - x.searchAt).toInt
    let s := s.onAx a fun x => { x with searchAt := x.floor, travel := travel }
    let bound := (s.reg (AX_HMAX a)).toNat
    if bound ≠ 0 ∧ bound < travel.natAbs then s.homeFail a else s
  else if s.homeAt a 2 ∧ x.run = .arrived then
    (s.setHstep a 3).setRun a (.move 1 (s.reg (AX_HLATCH a) + s.reg (AX_HOFS a)) false)
  else s

/-! ### The tick -/

/-- One tick of what the step generator runs. -/
def State.runTick (s : State) (a : Nat) : State :=
  let x := s.axAt a
  match x.run with
  | .idle => s
  | .arrived => s
  | .move k target braking =>
    let d := moveDistance x.p target
    if d = 0 then (s.onAx a fun x => { x with p := posOf target }).axArrive a
    else
      let (v, b) := (s.prof a k).moveTick x.v d braking
      let dp := v.tdiv (2 ^ 16)
      let s := (s.setVel a v).setRun a (.move k target b)
      if 0 < d ∧ d ≤ dp ∨ d < 0 ∧ dp ≤ d then
        if s.tripped a (decide (0 < d)) then s
        else (s.onAx a fun x => { x with p := posOf target }).axArrive a
      else s.advance a dp
  | .velocity k target =>
    let v := (s.prof a k).velocityTick x.v (target * 2 ^ 16)
    (s.setVel a v).advance a (v.tdiv (2 ^ 16))
  | .stop =>
    let f := s.prof a 2
    let u := x.v.natAbs
    if u ≤ f.vstop then s.axArrive a
    else
      let v := (if 0 < x.v then (1 : Int) else -1) * (f.slow u f.vstop : Int)
      (s.setVel a v).advance a (v.tdiv (2 ^ 16))
  | .segments g =>
    if segT g.words ≤ g.t then s
    else
      let (w, s) := s.segInUse a g
      let t := g.t + 1
      let p := if t < segT w then segAt w g.p0 g.v0 t else segGoal w g.p0
      let d := (BitVec.ofInt 64 p - x.p).toInt
      let v := clampI (-0x7FFFFFFF) 0x7FFFFFFF (if t < segT w then d else segV1 w)
      let s := s.setRun a (.segments { g with words := s.segWords a g.entry, t := t })
      (s.setVel a (v * 2 ^ 16)).advance a d

/-- A stop written while the line clock runs the axis ends its sequence (R361). -/
def State.feedEnds (s : State) (a : Nat) : State :=
  if s.lcFeeds a then (s.onLc fun l => { l with feedOff := true }).setFld LC_STAT LC_STAT_FEED 0
  else s

/-- A tick of an axis. While EN is 0 the outputs are low, and a hard stop is in force. -/
def State.axTick (s : State) (a : Nat) : State :=
  let quiet := (s.axAt a).run = .idle ∧ (s.axAt a).floor = s.reg (AX_POS a)
  if quiet then s
  else if !s.bit (AX_CFG a) AX_CFG_EN then
    if (s.axAt a).run = .idle then s.dropSteps a else ((s.feedEnds a).homeFail a).hardStopAt a
  else ((s.runTick a).follow a).homeTick a

/-! ### Commands (R354) -/

/-- A command is refused or ignored. -/
def State.axIgnored (s : State) (a : Nat) : State := s.fault 0x04C7 a
def State.axRefused (s : State) (a : Nat) : State := (s.axFlag a AX_FLAG_REFUSED).axIgnored a

/-- A motion of this sign leads toward a tripped limit. -/
def State.towardTrip (s : State) (a : Nat) (d : Int) : Bool :=
  decide (d ≠ 0) && s.tripped a (decide (0 < d))

/-- HOME (R359): CLEAR first if the reference is active. -/
def State.homeStart (s : State) (a : Nat) : State :=
  let s := (s.setFld (AX_STAT a) AX_STAT_HOMED 0).setAxState a 5
  if s.homeActive a then (s.setHstep a 0).setRun a (s.homeSpeed a (!s.homePositive a))
  else s.homeSearch a

/-- A command of AX_CMD: its code, profile set and first segment. -/
def State.axCommand (s : State) (a cmd set first : Nat) : State :=
  let pos := (s.axAt a).floor
  let target := s.reg (AX_TARGET a)
  match cmd with
  | 4 => (((s.feedEnds a).homeFail a).setAxState a 4).setRun a .stop
  | 5 => (((s.feedEnds a).homeFail a).setAxState a 4).hardStopAt a
  | 1 =>
    if s.lcFeeds a then s.axIgnored a
    else if s.axState a = 5 ∨ s.towardTrip a (target - pos).toInt then s.axRefused a
    else (s.setAxState a 1).setRun a (.move set target false)
  | 2 =>
    if s.lcFeeds a then s.axIgnored a
    else if s.axState a = 5 ∨ s.towardTrip a target.toInt then s.axRefused a
    else (s.setAxState a 2).setRun a (.velocity set target.toInt)
  | 3 =>
    if s.lcFeeds a then s.axIgnored a
    else if s.axState a ≠ 0 ∨
        s.towardTrip a (segGoal (s.segWords a first) (s.axAt a).p.toInt - (s.axAt a).p.toInt) then
      s.axRefused a
    else (s.setAxState a 3).beginSeg a first (s.axAt a).p.toInt 0
  | 6 =>
    if s.lcFeeds a then s.axIgnored a
    else if s.axState a ≠ 0 ∨
        s.tripped a (if s.homeActive a then !s.homePositive a else s.homePositive a) then s.axRefused a
    else s.homeStart a
  | _ => s

/-- A write of AX_CMD. -/
def State.axCmdWrite (s : State) (a : Nat) (v : Word) : State :=
  s.axCommand a (fldGet AX_CMD_CMD v) (fldGet AX_CMD_SET v) (fldGet AX_CMD_FIRSTSEG v)

def execMove (a : Fin 8) (v : BitVec 32) (s : State) : Out :=
  .next (s.axCommand a 1 (fldGet AX_CMD_SET v) (fldGet AX_CMD_FIRSTSEG v))

def execVelocity (a : Fin 8) (v : BitVec 32) (s : State) : Out :=
  .next (s.axCommand a 2 (fldGet AX_CMD_SET v) (fldGet AX_CMD_FIRSTSEG v))

def execSegments (a : Fin 8) (v : BitVec 32) (s : State) : Out :=
  .next (s.axCommand a 3 (fldGet AX_CMD_SET v) (fldGet AX_CMD_FIRSTSEG v))

def execRampStop (a : Fin 8) (v : BitVec 32) (s : State) : Out :=
  .next (s.axCommand a 4 (fldGet AX_CMD_SET v) (fldGet AX_CMD_FIRSTSEG v))

def execHardStop (a : Fin 8) (v : BitVec 32) (s : State) : Out :=
  .next (s.axCommand a 5 (fldGet AX_CMD_SET v) (fldGet AX_CMD_FIRSTSEG v))

def execHome (a : Fin 8) (v : BitVec 32) (s : State) : Out :=
  .next (s.axCommand a 6 (fldGet AX_CMD_SET v) (fldGet AX_CMD_FIRSTSEG v))

/-! ### Ends of runs -/

/-- The run of an axis has ended, and the axis is IDLE. -/
def State.runEnds (s : State) (a : Nat) : State :=
  ((s.setAxState a 0).setRun a .idle).axFlag a AX_FLAG_DONE

/-- The return of homing has arrived (R359). -/
def State.homeReturned (s : State) (a : Nat) : State :=
  let s := ((s.onAx a fun x => { x with p := 0 }).setReg (AX_POS a) 0).showLag a
  ((s.setFld (AX_STAT a) AX_STAT_HOMED 1).axFlag a AX_FLAG_HOME_DONE).runEnds a

/-- A run other than homing has ended; the feed axis stands at E − RUNUP once its back-up has (R179). -/
def State.moveEnd (s : State) (a : Nat) : State :=
  if (s.axAt a).run = .arrived then
    if s.axState a = 5 then (if s.homeAt a 3 then s.homeReturned a else s)
    else
      let s := s.runEnds a
      if s.lcFeeds a && s.fld LC_STAT LC_STAT_FEED == 2 then s.setFld LC_STAT LC_STAT_FEED 3 else s
  else s

def execMoveEnd (a : Fin 8) (s : State) : Out := .next (s.moveEnd a)

/-- HOME_DONE (R359). -/
def execHomeDone (a : Fin 8) (s : State) : Out :=
  .next (if s.homeAt a 3 ∧ (s.axAt a).run = .arrived then s.homeReturned a else s)

/-- SEGMENT_END (R353): the next entry runs, or END stops the axis at P1. -/
def execSegmentEnd (a : Fin 8) (s : State) : Out :=
  .next <|
    match (s.axAt a).run with
    | .segments g =>
      if g.t < segT g.words then s
      else if (g.words.getD 3 0).testBit 0 then
        let s := if segV1 g.words ≠ 0 then s.axFlag a AX_FLAG_SEGSTOP else s
        s.axArrive a
      else s.beginSeg a ((g.entry + 1) % 64) (segGoal g.words g.p0) (segV1 g.words)
    | _ => s

/-- HOME_LATCH (R359). -/
def execHomeLatch (a : Fin 8) (s : State) : Out := .next (s.homeLatch a)

/-- AX_POS_WRITE (R354): in IDLE only. -/
def State.axPosWrite (s : State) (a : Nat) (v : Word) : State :=
  if s.axState a = 0 ∧ ¬ s.lcFeeds a then
    ((s.onAx a fun x => { x with p := posOf v }).setReg (AX_POS a) v).showLag a
  else s

def execAxPosWrite (a : Fin 8) (v : BitVec 32) (s : State) : Out := .next (s.axPosWrite a v)

/-- A write of AX_CFG: MODE, STEPMIN and SPPER only in IDLE; EN = 0 is a hard stop (R344), which fails homing
(R360) and ends the line clock's sequence (R361). -/
def State.axCfgWrite (s : State) (a : Nat) (v : Word) : State :=
  let old := s.reg (AX_CFG a)
  let locked := s.axState a ≠ 0 ∨ s.lcFeeds a
  let keep : Word := fldMask AX_CFG_MODE ||| fldMask AX_CFG_STEPMIN ||| fldMask AX_CFG_SPPER
  let s := s.typedWrite (AX_CFG a) (if locked then (v &&& ~~~keep) ||| (old &&& keep) else v)
  if s.bit (AX_CFG a) AX_CFG_EN then s
  else
    let s := if (old &&& fldMask AX_CFG_EN) = 0 then s else s.feedEnds a
    if (s.axAt a).run = .idle then s else (s.homeFail a).hardStopAt a

/-! ### Coil frames and standstill (R346, R350, R355) -/

/-- sinv of R350. -/
def State.sinv (s : State) (a phi : Nat) : Int :=
  let r := phi % 256
  let at_ := fun i => if i = 256 then (65535 : Int) else (s.loadNat (SINE_TABLE a + 2 * i) 2 : Int)
  match phi % 1024 / 256 with
  | 0 => at_ r
  | 1 => at_ (256 - r)
  | 2 => -(at_ r)
  | _ => -(at_ (256 - r))

/-- A coil set-point. -/
def coil (x : Int) (i : Nat) : Int := x.sign * ((x.natAbs * i / 131072 : Nat) : Int)

/-- The last step of the axis lies less than HOLDDLY back. -/
def State.stepRecent (s : State) (a : Nat) : Bool :=
  match (s.axAt a).lastStep with
  | some t => decide (s.now < t + s.fld (AX_CFG a) AX_CFG_HOLDDLY * 10000)
  | none => false

/-- The 40-bit frame that begins in this tick. -/
def State.coilFrame (s : State) (a : Nat) : BitVec 40 :=
  let still := s.bit (AX_STAT a) AX_STAT_STILL
  let mode := s.fld (AX_CFG a) AX_CFG_STILLMODE
  if (s.axAt a).off || (still && mode == 0) then 0
  else if still && mode == 1 then BitVec.ofNat 40 (2 * 2 ^ 32)
  else
    let moving := decide ((s.axAt a).v ≠ 0) || s.stepRecent a
    let i := s.fld (AX_CUR a) (if moving && !still then AX_CUR_IRUN else AX_CUR_IHOLD)
    let m := (s.reg (AX_POS a)).toNat
    let ca := coil (s.sinv a m) i
    let cb := coil (s.sinv a (m + 256)) i
    BitVec.ofNat 40 (2 ^ 32 + twos 16 ca * 2 ^ 16 + twos 16 cb)

/-- CURRENT_FRAME (R346): one frame every SPPER ticks. -/
def execCurrentFrame (a : Fin 8) (s : State) : Out :=
  .next <|
    let per := clampN 80 100 (s.fld (AX_CFG a) AX_CFG_SPPER)
    let due : Bool := match (s.axAt a).frameAt with
      | some t => decide (t + per ≤ s.now)
      | none => true
    if s.bit (AX_CFG a) AX_CFG_EN && s.bit (AX_CFG a) AX_CFG_MODE && due then
      s.onAx a fun x => { x with frame := s.coilFrame a, frameAt := some s.now }
    else s

/-- STANDSTILL (R355): no step for HOLDDLY applies STILLMODE. -/
def execStandstill (a : Fin 8) (s : State) : Out :=
  .next (if s.stepRecent a then s else s.setFld (AX_STAT a) AX_STAT_STILL 1)

/-- The level that the axis intends for an output in this tick (R344 to R346, R355). -/
def State.axPad (s : State) (a : Nat) (pad : Fin 3) : Bool :=
  let x := s.axAt a
  let still := x.off ||
    (s.bit (AX_STAT a) AX_STAT_STILL && decide (s.fld (AX_CFG a) AX_CFG_STILLMODE < 2))
  if !s.bit (AX_CFG a) AX_CFG_EN then false
  else if s.bit (AX_CFG a) AX_CFG_MODE then
    match x.frameAt with
    | none => false
    | some t =>
      let i := (s.now - t) / 2
      if 40 ≤ i then false
      else match pad.val with
        | 0 => (s.now - t) % 2 == 1
        | 1 => x.frame.getLsbD (39 - i)
        | _ => true
  else
    match pad.val with
    | 0 => match x.lastStep with
      | some t => decide (s.now < t + s.stepMin a / 2)
      | none => false
    | 1 => x.dirPos != s.bit (AX_CFG a) AX_CFG_DIRPOL
    | _ => !still

/-- AXIS_PAD_MISMATCH (R347). -/
def execAxisPadMismatch (a : Fin 8) (_pad : Fin 3) (s : State) : Out := .next (s.fault 0x34C6 a)

/-! ### Switches (R356 to R358) -/

def swIx : AxSwitch → Nat
  | .neg => 0
  | .pos => 1
  | .home => 2

def swBit : AxSwitch → Fld
  | .neg => AX_STAT_LIMN
  | .pos => AX_STAT_LIMP
  | .home => AX_STAT_HOMEIN

/-- A limit's own action (R357); in standstill, steps still due are dropped (DEDUCED: the axis has stopped). -/
def State.limitAction (s : State) (a : Nat) (positive : Bool) : State :=
  if s.bit (AX_LIM a) AX_LIM_EN then
    let s := ((s.axFlag a (if positive then AX_FLAG_TRIP_P else AX_FLAG_TRIP_N)).fault 0x04C1
      a).feedEnds a
    if s.axState a = 0 ∧ (s.axAt a).v = 0 then s.dropSteps a
    else
      let homing := s.axState a = 5
      let s := if homing then s else s.setAxState a 4
      if s.bit (AX_LIM a) (if positive then AX_LIM_ACTP else AX_LIM_ACTN) then s.setRun a .stop
      else s.hardStopAt a
  else s

/-- A trip in homing: the reference is found, or homing fails (R359, R360). A limit that is the reference
stops the RETURN if it trips again there: it has not arrived, and homing fails (DEDUCED). -/
def State.homeTrip (s : State) (a : Nat) (sw : AxSwitch) : State :=
  if s.axState a ≠ 5 then s
  else
    match sw with
    | .home => if s.homeRef a = 0 then s.homeLatch a else s
    | _ =>
      let here := decide (sw = .pos) == s.homePositive a
      if here && s.homeRef a == 1 && !s.homeAt a 3 then s.homeLatch a else s.homeFail a

/-- A return to active within the release time (R356). -/
def State.chatter (s : State) (a : Nat) (sw : AxSwitch) : State :=
  let (eighth, s) := s.countEvent (winKey 0x14C3 (3 * a + swIx sw)) 8 (100 * ticksMs)
  let s := s.raiseWith 0x14C3 a 0 eighth
  if eighth then (s.fault 0x24C4 a).axFlag a AX_FLAG_CHATTER else s

/-- TRIP (R356, R357): a qualified active edge of a switch. -/
def execTrip (a : Fin 8) (sw : AxSwitch) (s : State) : Out :=
  .next <|
    if s.bit (AX_STAT a) (swBit sw) then s
    else
      let early : Bool := match (s.axAt a).relAt.get none (swIx sw) with
        | some t => decide (s.now < t + s.fld (AX_LIM a) AX_LIM_REL * 1000)
        | none => false
      let s := s.setFld (AX_STAT a) (swBit sw) 1
      if early then s.chatter a sw
      else
        let s := s.homeTrip a sw
        match sw with
        | .neg => s.limitAction a false
        | .pos => s.limitAction a true
        | .home => s

/-- QUALIFIED_RELEASE (R356): a qualified inactive edge, from which the release time runs. -/
def execQualifiedRelease (a : Fin 8) (sw : AxSwitch) (s : State) : Out :=
  .next <|
    if !s.bit (AX_STAT a) (swBit sw) then s
    else
      let s := s.setFld (AX_STAT a) (swBit sw) 0
      s.onAx a fun x => { x with relAt := x.relAt.set none (swIx sw) (some s.now) }

/-- A write of AX_FLAG: a trip bit clears only while its input is inactive (R358). -/
def State.axFlagWrite (s : State) (a : Nat) (v : Word) : State :=
  let keep : Word :=
    (if s.bit (AX_STAT a) AX_STAT_LIMN then fldMask AX_FLAG_TRIP_N else 0) |||
    (if s.bit (AX_STAT a) AX_STAT_LIMP then fldMask AX_FLAG_TRIP_P else 0)
  s.typedWrite (AX_FLAG a) (v &&& ~~~keep)

def execTripClear (a : Fin 8) (v : BitVec 32) (s : State) : Out := .next (s.axFlagWrite a v)

end Sys2Proof.Machine
end

