-- ==== Sys2Proof/Machine/Encoder.lean ====
section
/-!
DEFINITION. The encoder inputs (R362 to R367): counts, direction, speed, standstill, soft limits, wire
and index checks.
-/

namespace Sys2Proof.Machine

def State.qeOn (s : State) (q : Nat) : Bool := s.bit (QE_CFG q) QE_CFG_EN

/-- A bit of QE_FLAG sets (and the input's attention event). -/
def State.qeFlag (s : State) (q : Nat) (f : Fld) : State := (s.hwSet (QE_FLAG q) f.lo).setEvt BLK_QE q

/-- The input is at standstill: speed 0, STILL, not VALID (R362, R367). -/
def State.qeStandstill (s : State) (q : Nat) : State :=
  let s := s.onQe q fun x => { x with edges := [], speed := none }
  ((s.setReg (QE_SPEED q) 0).setFld (QE_STAT q) QE_STAT_STILL 1).setFld (QE_STAT q) QE_STAT_VALID 0

/-- A write of QE_CFG (R362): from EN = 0 to 1 no levels are held, no edge has been accepted and DIR reads 0;
EN = 0 makes the input inert. -/
def State.qeCfgWrite (s : State) (q : Nat) (v : Word) : State :=
  let was := s.qeOn q
  let s := s.typedWrite (QE_CFG q) v
  if s.qeOn q then
    let s := s.onQe q fun x => { x with seen := false }
    if was then s
    else (s.onQe q fun x => { x with held := false, last := none, edges := [] }).setFld (QE_STAT q) QE_STAT_DIR 0
  else if was then s.qeStandstill q
  else s

def execQeEnable (q : Fin 10) (v : BitVec 32) (s : State) : Out := .next (s.qeCfgWrite q v)

/-! ### The counter (R365) -/

/-- QE_COUNT takes a value, clamped into the soft limits; SAT where a count is cut. With SOFT_LO above
SOFT_HI it holds either limit (R368). -/
def State.setCount (s : State) (q : Nat) (x : Int) (counted : Bool) : State :=
  let lo := (s.reg (QE_SOFT_LO q)).toInt
  let hi := (s.reg (QE_SOFT_HI q)).toInt
  let (y, s) :=
    if hi < lo then
      let (d, s) := s.draw
      (if Config.freeBit d 0 then lo else hi, s)
    else (clampI lo hi x, s)
  let s := s.setReg (QE_COUNT q) (BitVec.ofInt 32 y)
  let s := (s.setFld (QE_STAT q) QE_STAT_SATLO (b2n (decide (y = lo)))).setFld (QE_STAT q) QE_STAT_SATHI
    (b2n (decide (y = hi)))
  if counted && decide (y ≠ x) then (s.qeFlag q QE_FLAG_SAT).fault 0x0507 q else s

/-- A write of a soft limit: QE_COUNT stays within the limits. -/
def State.softWrite (s : State) (q off : Nat) (v : Word) : State :=
  let s := s.typedWrite off v
  s.setCount q (s.reg (QE_COUNT q)).toInt false

/-- A write of QE_COUNT: a count of the same tick is added after it. -/
def State.qeCountWrite (s : State) (q : Nat) (v : Word) : State :=
  let s := s.setCount q v.toInt false
  match (s.qeAt q).counted with
  | some (t, n) => if t = s.now then s.setCount q ((s.reg (QE_COUNT q)).toInt + n) true else s
  | none => s

def execQeCountWrite (q : Fin 10) (v : BitVec 32) (s : State) : Out := .next (s.qeCountWrite q v)

/-! ### Speed (R367) -/

def State.speedWindow (s : State) (q : Nat) : Nat := max 1 (s.fld (QE_SPCFG q) QE_SPCFG_SPW)

/-- The counts and ticks of an edge at tick `t` over the earlier edges of its run, newest first. -/
def edgeSpeed (t window : Nat) (edges : List Nat) : Option (Nat × Nat) :=
  match edges with
  | [] => none
  | newest :: _ =>
    let near := edges.takeWhile fun e => decide (t ≤ e + window)
    if near.isEmpty then some (1, t - newest)
    else some (near.length, t - near.getLastD newest)

/-- QE_SPEED from counts and ticks, rounded toward zero. -/
def speedWord (forward : Bool) (counts ticks : Nat) : Word :=
  let m : Int := if ticks = 0 then 0x7FFFFFFF else min 0x7FFFFFFF (counts * 2 ^ 32 / ticks)
  BitVec.ofInt 32 (if forward then m else -m)

/-- An accepted count is an edge with its tick and direction. -/
def State.edge (s : State) (q : Nat) (forward : Bool) : State :=
  let x := s.qeAt q
  let t := s.now
  let still := s.bit (QE_STAT q) QE_STAT_STILL
  let turned := x.last == some (!forward)
  let s := (s.onQe q fun x => { x with last := some forward }).setFld (QE_STAT q) QE_STAT_DIR (b2n forward)
  let s := s.setFld (QE_STAT q) QE_STAT_STILL 0
  let s := if turned then s.qeFlag q QE_FLAG_REVERSE else s
  if still ∨ turned ∨ x.edges = [] then
    let s := s.onQe q fun x => { x with edges := [t], seen := true, speed := none }
    (s.setReg (QE_SPEED q) 0).setFld (QE_STAT q) QE_STAT_VALID 0
  else
    let sp := edgeSpeed t (s.speedWindow q) x.edges
    let kept := (x.edges.takeWhile fun e => decide (t ≤ e + 65535))
    let kept := if kept.isEmpty then x.edges.take 1 else kept
    let s := s.onQe q fun x => { x with edges := t :: kept, seen := true, speed := sp }
    match sp with
    | some (n, d) =>
      (s.setReg (QE_SPEED q) (speedWord forward n d)).setFld (QE_STAT q) QE_STAT_VALID 1
    | none => s

/-- Between edges, the speed is at most 1 / T_s once T_s exceeds the last edge's interval. -/
def State.qeTick (s : State) (q : Nat) : State :=
  let x := s.qeAt q
  match x.speed, x.edges with
  | some (n, d), t1 :: t0 :: _ =>
    let ts := s.now - t1
    if t1 - t0 < ts then
      let forward := s.bit (QE_STAT q) QE_STAT_DIR
      if ts * n < d then s.setReg (QE_SPEED q) (speedWord forward n d)
      else s.setReg (QE_SPEED q) (speedWord forward 1 ts)
    else s
  | _, _ => s

/-- STILL (R367): no edge for STILLT × 10 µs; the line clock mirrors its source (R151). -/
def execStill (q : Fin 10) (s : State) : Out :=
  .next <|
    let limit := max 1 (s.fld (QE_SPCFG q) QE_SPCFG_STILLT) * 1000
    match (s.qeAt q).edges with
    | t :: _ =>
      if s.qeOn q && decide (t + limit ≤ s.now) then
        let s := (s.qeStandstill q).qeFlag q QE_FLAG_STILL_ON
        if s.lcReads q then s.setEvt BLK_LC 4 else s
      else s
    | [] => s

/-- R367: the input reports reverse direction. -/
def State.reportsReverse (s : State) (q : Nat) : Bool :=
  (s.qeAt q).seen && !s.bit (QE_STAT q) QE_STAT_DIR

/-! ### Counts (R362) -/

/-- A change of line A (false) or B (true) to its other level is forward when A leads B. -/
def stepForward (a b lineB : Bool) : Bool := if lineB then (!b) == a else (!a) != b

/-- The levels of A and B before an accepted change: the first FN equal samples have set them, which no command
shows, so they are free (R362, log entry 80). -/
def State.takeLevels (s : State) (q : Nat) : State :=
  if (s.qeAt q).held then s
  else
    let (d, s) := s.draw
    s.onQe q fun x => { x with held := true, a := Config.freeBit d 0, b := Config.freeBit d 1 }

/-- ACCEPTED_COUNT: one count, to the counter, the speed, the line clock and the loop engine. -/
def execAcceptedCount (q : Fin 10) (lineB : Bool) (s : State) : Out :=
  .next <|
    if !s.qeOn q then s
    else
      let s := s.takeLevels q
      let x := s.qeAt q
      let before : Int := match x.counted with
        | some (t, n) => if t = s.now then n else 0
        | none => 0
      let plain := stepForward x.a x.b lineB
      let forward := plain != (s.bit (QE_CFG q) QE_CFG_SWAP != s.bit (QE_CFG q) QE_CFG_INV)
      let d : Int := if forward then 1 else -1
      let s := s.onQe q fun x => { x with
        a := if lineB then x.a else !x.a, b := if lineB then !x.b else x.b, total := x.total + d,
        counted := some (s.now, before + d) }
      let s := (s.setCount q ((s.reg (QE_COUNT q)).toInt + d) true).edge q forward
      if s.lcReads q then s.lcMove d 0 else s

/-- ILLEGAL (R363): both lines change in one tick. -/
def execIllegal (q : Fin 10) (s : State) : Out :=
  .next <|
    if !s.qeOn q then s
    else
      let s := (s.takeLevels q).onQe q fun x => { x with a := !x.a, b := !x.b }
      let (fourth, s) := (s.qeFlag q QE_FLAG_ILLEGAL).faultCounted 0x1501 q 0 4 (100 * ticksMs)
      if fourth then (s.fault 0x2502 q).qeFlag q QE_FLAG_ILL_LASTING else s

/-- WIRE (R364): the pads of a line have come to disagree for 16 ticks, or agree again (DEDUCED: the bit of
the line reads 1 while they disagree, and one disagreement is one fault). -/
def execWire (q : Fin 10) (w : WireEdge) (s : State) : Out :=
  .next <|
    let f := match w.line.val with | 0 => QE_STAT_WIREA | 1 => QE_STAT_WIREB | _ => QE_STAT_WIREZ
    if !s.qeOn q ∨ s.bit (QE_STAT q) f = w.bad then s
    else if !w.bad then (s.setFld (QE_STAT q) f 0).onQe q fun x => { x with wireAt := s.now }
    else
      let s := (s.setFld (QE_STAT q) f 1).qeFlag q QE_FLAG_WIRE
      s.fault (if s.bit (QE_CFG q) QE_CFG_SAFETY then 0x3505 else 0x2506) q

/-! ### The index (R366) -/

/-- d of R366: the deviation taken into −floor(CPR / 2) to CPR − 1 − floor(CPR / 2). -/
def indexDev (lat ref : Int) (cpr : Nat) : Int :=
  let m := (lat - ref) % (cpr : Int)
  if m ≤ (cpr : Int) - 1 - (cpr / 2 : Nat) then m else m - cpr

/-- A mismatch; the third within 1 s is lasting. -/
def State.indexMismatch (s : State) (q : Nat) : State :=
  let (third, s) := (s.qeFlag q QE_FLAG_IDXMM).faultCounted 0x1503 q 0 3 ticksSec
  if third then (s.fault 0x2504 q).qeFlag q QE_FLAG_IDX_LASTING else s

/-- HOME's reference 2: the axes that search for this input's index latch (R359). -/
def State.indexHomes (s : State) (q : Nat) : State :=
  s.each 8 fun a s =>
    let named := let h := s.fld (AX_HOME a) AX_HOME_HQE; if 10 ≤ h then 0 else h
    if s.homeRef a = 2 ∧ named = q then s.homeLatch a else s

/-- INDEX: a qualified Z edge. -/
def execIndex (q : Fin 10) (s : State) : Out :=
  .next <|
    if !s.qeOn q || !s.bit (QE_CFG q) QE_CFG_ZEN then s
    else
      let lat := s.reg (QE_COUNT q)
      let cpr := (s.reg (QE_CPR q)).toNat
      let s := (s.setReg (QE_IDXLAT q) lat).indexHomes q
      if cpr = 0 then s
      else if s.bit (QE_IDXCFG q) QE_IDXCFG_REFV then
        let d := indexDev lat.toInt (s.reg (QE_IDXREF q)).toInt cpr
        let s := s.setReg (QE_IDXDEV q) (BitVec.ofInt 32 d)
        let s := if s.fld (QE_IDXCFG q) QE_IDXCFG_W < d.natAbs then s.indexMismatch q else s
        if s.bit (QE_IDXCFG q) QE_IDXCFG_REREF then s.setCount q (lat.toInt - d) true else s
      else if s.bit (QE_IDXCFG q) QE_IDXCFG_CAPT then
        (s.setReg (QE_IDXREF q) (BitVec.ofInt 32 (lat.toInt % (cpr : Int)))).setFld (QE_IDXCFG q)
          QE_IDXCFG_REFV 1
      else s

end Sys2Proof.Machine
end

