-- ==== Sys2Proof/Machine/Island.lean ====
section
/-!
DEFINITION. The safety island (R403 to R424, R493, R494): inhibit, permits and enables, the safe state,
the watchdog, redundancy, and the collection of faults.
-/

namespace Sys2Proof.Machine

/-! ### Inputs (R168, R412, R413) -/

def State.gateFunc (s : State) (n : Nat) : Nat := s.fld (GATE_CFG n) GATE_CFG_FUNC

/-- A GATE input is active: as qualified, and before that INHIBIT active and MEDIA inactive. -/
def State.gateActive (s : State) (n : Nat) : Bool :=
  if s.fs.gateSeen.get false n then s.rbit GATE_STAT n else s.gateFunc n == 1

/-- SAFE_REQ_N is low: as qualified, and low before that. -/
def State.safeReq (s : State) : Bool :=
  !s.fs.gateSeen.get false 16 || s.bit GATE_STAT GATE_STAT_SAFE_REQ

/-- An INHIBIT gate of FS is active. -/
def State.inhibitGate (s : State) : Bool :=
  (List.range 16).any fun n => s.gateFunc n == 1 && s.gateActive n

/-- An input of a pair is active whatever its function; before it has qualified it counts as INHIBIT. -/
def State.pairActive (s : State) (j : Nat) : Bool :=
  (SI_PAIR_PAIR |> s.fld SI_PAIR).testBit j &&
    [2 * j, 2 * j + 1].any fun n => if s.fs.gateSeen.get false n then s.rbit GATE_STAT n else true

/-- R412: an input calls for inhibit. -/
def State.inhibitNow (s : State) : Bool :=
  s.inhibitGate || s.safeReq || (List.range 8).any s.pairActive

/-- REARM and DT in ticks. -/
def State.rearmTicks (s : State) : Nat := max 1 (s.fld SI_CFG SI_CFG_REARM) * ticksMs

/-! ### Enables and permits (R408, R409, R415) -/

/-- A hub has a MEDIA gate in whose mask it stands and that is inactive. -/
def State.mediaMissing (s : State) (k : Nat) : Bool :=
  (List.range 16).any fun n =>
    s.gateFunc n == 2 && (s.fld (GATE_CFG n) GATE_CFG_HUBMASK).testBit k && !s.gateActive n

/-- The encoder that LC_CTRL.UNIT names has SAFETY = 1 and reports reverse direction. -/
def State.safetyReverse (s : State) : Bool :=
  decide (s.lcUnit < 10) && s.bit (QE_CFG s.lcUnit) QE_CFG_SAFETY &&
    s.reportsReverse s.lcUnit

/-- PROT permits a hub to fire for a job slot (R465). -/
def State.protFires (s : State) (k j : Nat) : Bool := s.rbit PROT_FIRE (2 * k + j)

/-- H lies in a window that the Sagger holds for a slot permitted for the hub. -/
def State.windowHolds (s : State) (k : Nat) : Bool :=
  [0, 1].any fun j => s.protFires k j &&
    match s.si.winHeld.get none j with
    | some w => decide ((w.lo : Int) ≤ s.lastLn) && decide (s.lastLn < w.hi)
    | none => false

/-- R415 lets the permit of a hub stand. -/
def State.permitOk (s : State) (k : Nat) : Bool :=
  !s.mediaMissing k && !s.safetyReverse && s.windowHolds k

/-- The qualified inputs of a pair differ: one is active by its POL and the other is not. -/
def State.pairDiffers (s : State) (j : Nat) : Bool :=
  s.fs.gateSeen.get false (2 * j) && s.fs.gateSeen.get false (2 * j + 1) &&
    s.rbit GATE_STAT (2 * j) != s.rbit GATE_STAT (2 * j + 1)

/-- The qualified inputs of a pair are at one level. -/
def State.pairAgrees (s : State) (j : Nat) : Bool :=
  s.fs.gateSeen.get false (2 * j) && s.fs.gateSeen.get false (2 * j + 1) &&
    s.rbit GATE_STAT (2 * j) == s.rbit GATE_STAT (2 * j + 1)

/-- DT in ticks. -/
def State.pairTicks (s : State) : Nat := max 1 (s.fld SI_CFG SI_CFG_DT) * ticksMs

/-- The enables: FIRE_EN_A follows the voted enable, and FIRE_EN_B_N goes high when it is withdrawn. -/
def State.setEnable (s : State) (on : Bool) : State :=
  let s := (s.onSi fun i => { i with enable := on }).setFld SI_STAT SI_STAT_ENA_PAD (b2n on)
  if on then s.onSi fun i => { i with enbLast := none, enbTime := s.now }
  else s.setFld SI_STAT SI_STAT_ENB_PAD 1

/-- The permits as R412 and R415 leave them. -/
def State.permitMask (s : State) : Nat :=
  if s.si.running && s.si.enable then
    (List.range 16).foldl (fun x k => x + b2n (s.permitOk k) * 2 ^ k) 0
  else 0

/-- The Sagger judges its inputs: inhibit begins or ends, and the permits follow (R412, R415). -/
def State.siReview (s : State) : State :=
  if !s.si.running then s.setFld SI_HUBPERM SI_HUBPERM_PERM 0
  else
    let inh := s.inhibitNow
    let was := s.bit SI_STAT SI_STAT_INHIBIT
    let s := if inh then s.onSi fun i => { i with since := s.now } else s
    let s := s.setFld SI_STAT SI_STAT_INHIBIT (b2n inh)
    let s :=
      if inh && !was then
        let s := if s.si.rearm = .inhibit then
            (s.onSi fun i => { i with rearm := .none }).setFld SI_STAT SI_STAT_REARM 0 else s
        (s.setEnable false).setEvt BLK_SI 3
      else if was && !inh && s.si.armed && !s.bit SI_STAT SI_STAT_SAFE && s.si.rearm == .none then
        (s.onSi fun i => { i with rearm := .inhibit }).setFld SI_STAT SI_STAT_REARM 1
      else s
    s.setFld SI_HUBPERM SI_HUBPERM_PERM s.permitMask

/-- The enables are raised by the Sagger program, where no inhibit holds them (R493). -/
def State.raiseEnables (s : State) : State :=
  (if !s.si.running || s.bit SI_STAT SI_STAT_INHIBIT then s else s.setEnable true).siReview

/-! ### The safe state (R410, R411, R494) -/

/-- The action of an axis in the safe state. -/
def State.safeAxis (a : Nat) (s : State) : State :=
  let act := (s.reg SI_AXACT).toNat / 4 ^ a % 4
  let still := (s.axAt a).run = .idle ∧ (s.axAt a).v = 0
  if act = 0 then s
  else
    let s := s.feedEnds a
    if act = 1 then
      (if still then s else (s.setAxState a 4).setRun a .stop)
    else
      (if still then s else (s.setAxState a 4).hardStopAt a).onAx a fun x => { x with off := true }

/-- A fault that is lasting until a power-on reset (R494). -/
def lastingCode (c : BitVec 16) : Bool :=
  c == 0x3083 || c == 0x3084 || c == 0x30C3 || c == 0x3544

/-- The Sagger receives a dangerous fault. Of those raised before the safe state, `cause` is the first: SI_CAUSE
shows it, and its record carries SAFE. -/
def State.enterSafe (cause : FaultIn) (s : State) (f : FaultIn) : State :=
  let s := s.onSi fun i => { i with
    open_ := i.open_ ++ [f], lasting := i.lasting || lastingCode f.code, since := s.now, rearm := .none }
  let s := s.setFld SI_STAT SI_STAT_REARM 0
  if s.bit SI_STAT SI_STAT_SAFE then s
  else
    let s := (s.setFld SI_STAT SI_STAT_SAFE 1).setEnable false
    let s := (s.setFld SI_CAUSE SI_CAUSE_CODE cause.code.toNat).setFld SI_CAUSE SI_CAUSE_INST
      cause.inst.toNat
    let s := (s.onSi fun i => { i with safeN := false, armed := false }).setFld SI_HUBPERM
      SI_HUBPERM_PERM 0
    (s.setEvt BLK_SI 1).each 8 State.safeAxis

/-- The danger line of a block: its dangerous faults are acted on (R417). -/
def State.dangerLine (s : State) (blk : Nat) : State :=
  let fs := s.si.danger.filter fun f => codeBlk f.code == blk
  let first := s.si.danger.find? (·.safe)
  let s := s.onSi fun i => { i with danger := i.danger.filter fun f => codeBlk f.code != blk }
  fs.foldl (fun s f => s.enterSafe (first.getD f) f) s

def execDangerLine (blk : Fin 27) (s : State) : Out := .next (s.dangerLine blk)

/-- The fault has been taken by the collector: none of its code and instance waits in its queue. -/
def State.logged (s : State) (f : FaultIn) : Bool :=
  !(s.si.queues.get [] (codeBlk f.code)).any fun g => g.code == f.code && g.inst == f.inst

/-- FIRE[k] is cut. -/
def State.fireCut (s : State) (k : Nat) : Bool := s.bit (FS_HSTAT k) FS_HSTAT_CUT

/-- The faults whose clearing is an event of its own (R494). -/
def eventCleared (c : BitVec 16) : Bool :=
  c == 0x3244 || c == 0x34C6 || c == 0x3085 || c == 0x3505 || c == 0x3086 || c == 0x3045 || c == 0x3044

/-- A dangerous fault has cleared, judged on a write of the key; `rerun` is what the latent test gives. -/
def State.faultCleared (s : State) (rerun : Bool) (f : FaultIn) : Bool :=
  if lastingCode f.code || eventCleared f.code then false
  else if f.code = 0x3241 then
    !s.fireCut f.inst.toNat && (s.fs.high.get none f.inst.toNat).isNone
  else if f.code = 0x3087 then rerun
  else s.logged f

/-- The cuts of outputs that FS no longer drives high are released (R494). -/
def State.releaseCuts (s : State) : State :=
  s.each 16 fun k s =>
    if s.fireCut k && (s.fs.high.get none k).isNone then s.setFld (FS_HSTAT k) FS_HSTAT_CUT 0 else s

/-- A write of SI_SAFE_REL (R411): the Sagger program acts on it, which does not run in recovery (R493). -/
def State.safeRelWrite (s : State) (v : Word) : State :=
  if v ≠ 0x5AFE ∨ s.si.running = false then s
  else if !s.bit SI_STAT SI_STAT_SAFE then s.fault 0x0088 0xFF 1
  else
    let s := s.releaseCuts
    let (d, s) := s.draw
    let s := s.onSi fun i => { i with
      open_ := i.open_.filter fun f => !s.faultCleared (Config.freeBit d 0) f }
    if s.si.open_.isEmpty && !s.si.lasting then
      let s := (s.onSi fun i => { i with rearm := .release, rearmAt := s.now }).setFld SI_STAT
        SI_STAT_SAFE 0
      ((s.setFld SI_STAT SI_STAT_REARM 1).setEvt BLK_SI 2).fault 0x0088 0xFF 0
    else s.fault 0x0088 0xFF 1

def execSafeRel (v : BitVec 32) (s : State) : Out := .next (s.safeRelWrite v)

/-- REARM: the delay of a release or of an inhibit has passed (R411, R412), and the Sagger program runs. -/
def execRearm (s : State) : Out :=
  .next <|
    if s.si.running = false then s else
    match s.si.rearm with
    | .none => s
    | .release =>
      if s.now < s.si.rearmAt + s.rearmTicks then s
      else
        let s := s.onSi fun i => { i with rearm := .none, armed := true, safeN := !i.wdgTrip,
                                          enbLatch := false }
        if !s.bit SI_STAT SI_STAT_INHIBIT && decide (s.now < s.si.since + s.rearmTicks) then
          s.onSi fun i => { i with rearm := .inhibit }
        else (s.setFld SI_STAT SI_STAT_REARM 0).raiseEnables
    | .inhibit =>
      if s.now < s.si.since + s.rearmTicks ∨ s.inhibitNow then s
      else ((s.onSi fun i => { i with rearm := .none }).setFld SI_STAT SI_STAT_REARM 0).raiseEnables

/-- START_ARM (R493): the first raising of the enables. -/
def execStartArm (s : State) : Out :=
  .next <|
    if s.si.running && !s.si.armed && !s.bit SI_STAT SI_STAT_SAFE && s.si.rearm == .none &&
        s.si.danger.isEmpty && !s.inhibitNow && decide (s.si.since + s.rearmTicks ≤ s.now) then
      (s.onSi fun i => { i with armed := true, safeN := true, enbLatch := false }).raiseEnables
    else s

/-- WIREA, WIREB and WIREZ of an input have read 0 for 16 ticks (R494). -/
def State.wiresAgree (s : State) (q : Nat) : Bool :=
  !s.bit (QE_STAT q) QE_STAT_WIREA && !s.bit (QE_STAT q) QE_STAT_WIREB && !s.bit (QE_STAT q) QE_STAT_WIREZ &&
    decide ((s.qeAt q).wireAt + 16 ≤ s.now)

/-- DANGEROUS_FAULT_CLEARS (R494): the clearing condition of a fault comes to hold by itself. -/
def execDangerousFaultClears (code : BitVec 16) (inst : BitVec 8) (s : State) : Out :=
  .next <|
    if !eventCleared code then s
    else
      let q := inst.toNat
      let holds :=
        if code = 0x3045 then s.reg CK_SUP == 0 && decide (s.ck.supAt + ticksMs ≤ s.now)
        else if code = 0x3044 then !s.ck.bothXtal
        else if code = 0x3505 then s.wiresAgree q
        else if code = 0x3086 then s.pairAgrees q && decide (s.si.pairAt.get 0 q + s.pairTicks ≤ s.now)
        else true
      if holds then
        s.onSi fun i => { i with open_ := i.open_.filter fun f => f.code != code || f.inst != inst }
      else s

/-! ### The dynamic enable, readback and the watchdog (R407, R409) -/

/-- A lapse: FIRE_EN_B_N is driven high and latched. -/
def State.lapse (s : State) (info : Nat) : State :=
  ((s.onSi fun i => { i with enbLatch := true }).setFld SI_STAT SI_STAT_ENB_PAD 1).fault 0x3089 0xFF info

/-- The voted enable calls for FIRE_EN_B_N to be low. -/
def State.enbCalled (s : State) : Bool := s.si.enable && !s.si.enbLatch && !s.si.wdgTrip

/-- A write of SI_ENB (R409). -/
def State.enbWrite (s : State) (v : Word) : State :=
  if !s.enbCalled then s
  else if s.si.enbTime + 2000 < s.now then s.lapse 0
  else if (v = 0x0C3C ∨ v = 0x3C0C) ∧ s.si.enbLast ≠ some (decide (v = 0x3C0C)) then
    (s.onSi fun i => { i with enbLast := some (decide (v = 0x3C0C)), enbTime := s.now }).setFld
      SI_STAT SI_STAT_ENB_PAD 0
  else s.lapse 1

/-- SI_ENB (R409). -/
def execSiEnb (v : BitVec 32) (s : State) : Out := .next (s.enbWrite v)

/-- LAPSE: no write of SI_ENB for 20 µs. -/
def execLapse (s : State) : Out :=
  .next (if s.enbCalled && decide (s.si.enbTime + 2000 ≤ s.now) then s.lapse 0 else s)

/-- ENABLE_READBACK_MISMATCH (R409). SI_STAT goes on to show the intended levels (DESIGN CHOICE, log 59). -/
def execEnableReadbackMismatch (enB : Bool) (s : State) : Out := .next (s.fault 0x3085 0xFF (b2n enB))

/-- The internal queue holds 512 records. -/
def State.keepRecord (s : State) (r : FaultRec) : State :=
  if s.si.intq.length < 512 then
    s.onSi fun i => { i with intq := i.intq ++ [r] }
  else ((s.onSi fun i => { i with intLoss := true }).count (SI_CNT 1)).setEvt BLK_SI 6

/-- Fault 0x3084 is placed in the internal queue (R407), and the danger line of SI is asserted. -/
def State.tripFault (s : State) : State :=
  let f : FaultIn :=
    { code := 0x3084, inst := 0xFF, info := 0, lasting := false,
      safe := !s.bit SI_STAT SI_STAT_SAFE && s.si.danger.isEmpty }
  let s := s.keepRecord
    { code := f.code, inst := f.inst, lasting := false, safe := f.safe, loss := false, seq := s.si.seq,
      time := BitVec.ofNat 64 s.flat, ln := s.lc.hwm, info := f.info }
  s.onSi fun i => { i with seq := i.seq + 1, danger := i.danger ++ [f] }

/-- The watchdog trips. -/
def State.wdgTrips (s : State) : State :=
  if s.si.wdgTrip then s
  else
    ((s.onSi fun i => { i with wdgTrip := true, safeN := false }).setFld SI_STAT SI_STAT_ENB_PAD
      1).tripFault

/-- A write of SI_WDG (R407): alternating values, 0.5 ms to 1.5 ms apart. -/
def State.wdgWrite (s : State) (v : Word) : State :=
  if !s.si.running || s.si.wdgTrip then s
  else
    let w := v.toNat % 65536
    let gap := s.now - s.si.wdgTime
    let inTime : Bool := match s.si.wdgLast with
      | some _ => decide (50000 ≤ gap) && decide (gap ≤ 150000)
      | none => decide (gap ≤ 150000)
    if (w = 0xA5 ∨ w = 0x5A) ∧ s.si.wdgLast ≠ some (decide (w = 0x5A)) ∧ inTime then
      s.onSi fun i => { i with wdgLast := some (decide (w = 0x5A)), wdgTime := s.now }
    else s.wdgTrips

/-- SI_WDG (R407). -/
def execSiWdg (v : BitVec 32) (s : State) : Out := .next (s.wdgWrite v)

/-- WATCHDOG_TRIP: no write for 1.5 ms. -/
def execWatchdogTrip (s : State) : Out :=
  .next (if s.si.running && decide (s.si.wdgTime + 150000 ≤ s.now) then s.wdgTrips else s)

/-! ### Redundancy (R405, R406) -/

/-- A Sagger core is out, and its resynchronisation starts; the third in 1 h leaves it out (R405, R406). -/
def State.coreOut (s : State) (i : Nat) : State :=
  let (third, s) := s.faultCounted 0x1081 i 0 3 ticksHour
  let s := (s.setBit SI_STAT (5 + i) true).setFld SI_STAT SI_STAT_TWO 1
  if third then
    ((s.onSi fun x => { x with left := i :: x.left, inject := [] }).setUnit (256 + i) 2).fault 0x2082 i
  else (s.onSi fun x => { x with resync := some i, resyncAt := s.now }).setFld SI_STAT SI_STAT_RESYNC 1

/-- The latent test of the voter injects its next disagreement, while no core is out (R424 row 4). -/
def State.injectNext (s : State) : State :=
  match s.si.inject with
  | [] => s
  | i :: rest =>
    if s.fld SI_STAT SI_STAT_OUT ≠ 0 then s else (s.onSi fun x => { x with inject := rest }).coreOut i

/-- CORE_OUT: a Sagger core differs from the other two. -/
def execCoreOut (i : Fin 3) (s : State) : Out :=
  .next (if s.fld SI_STAT SI_STAT_OUT ≠ 0 then s else s.coreOut i)

/-- A Sagger core joins the others again: its copy of the image is written from another core's. -/
def State.rejoinCore (s : State) (i : Nat) : State :=
  let copy := fun n => SG_MEM + 0x50000 * n
  let s := { s with mem := memCopy s.mem (copy (if i = 0 then 1 else 0)) (copy i) 0x50000 }
  let s := (s.setBit SI_STAT (5 + i) false).setFld SI_STAT SI_STAT_RESYNC 0
  let s := s.onSi fun x => { x with resync := none, left := x.left.filter (· != i) }
  (s.setFld SI_STAT SI_STAT_TWO (b2n (s.fld SI_STAT SI_STAT_OUT != 0))).count (SI_CNT 2)

/-- AO cycles of a resynchronisation: the image of 320 KiB at 8 bytes a cycle, and the stall of 64. -/
def resyncTicks : Nat := 0x50000 / 8 + 64

/-- The drive of row 1 of R424 has ended: FIRE_EN_A follows the voted enable again. -/
def State.blankEnds (s : State) : State :=
  match s.si.blank with
  | some t =>
    if t ≤ s.now then
      (s.onSi fun i => { i with blank := none }).setFld SI_STAT SI_STAT_ENA_PAD (b2n s.si.enable)
    else s
  | none => s

/-- RESYNC: the resynchronisation completes, when its copy can have ended and the remaining cores still agree. -/
def execResync (s : State) : Out :=
  .next <|
    match s.si.resync with
    | some i =>
      if s.si.pairHeld || decide (s.now < s.si.resyncAt + resyncTicks) then s
      else ((s.rejoinCore i).setEvt BLK_SI 4).injectNext
    | none => s

/-- TWO_OF_TWO: the two remaining cores disagree. Every output of the pair is inactive from then on: the
program asks nothing of the bus, and writes neither SI_WDG nor SI_ENB. -/
def execTwoOfTwo (s : State) : Out :=
  .next <|
    if s.bit SI_STAT SI_STAT_TWO then
      (({ s with sg := { s.sg with running := false } } : State).onSi fun i => { i with
        pairHeld := true, inject := [] }).fault 0x3083
    else s

/-! ### Pairs, windows, PROT and latent tests (R413, R415, R424) -/

/-- PAIR_DISCREPANCY: the qualified inputs of a pair have differed for longer than DT. -/
def execPairDiscrepancy (j : Fin 8) (s : State) : Out :=
  .next <|
    if (s.fld SI_PAIR SI_PAIR_PAIR).testBit j && s.pairDiffers j &&
        decide (s.si.pairAt.get 0 j + s.pairTicks < s.now) then s.fault 0x3086 j
    else s

/-- JOB_WINDOW: the Sagger acknowledges the window of a slot, and uses it from then on. -/
def execJobWindow (j : Fin 2) (s : State) : Out :=
  .next <|
    match s.si.winSent.get none j with
    | none => s
    | some w =>
      let w' := if w.lo < w.hi then some w else none
      (s.onSi fun i => { i with winHeld := i.winHeld.set none j w',
                                winSent := i.winSent.set none j none }).siReview

/-- The PROT setup as R465 lays it out. -/
def State.protSetup (s : State) : List Byte :=
  ((List.range 32).flatMap fun i =>
    [PROT_REGION0 i, PROT_REGION1 i, PROT_REGION2 i, PROT_REGION3 i].flatMap fun r =>
      leBytes 4 (s.reg r).toNat) ++ leBytes 4 (s.reg PROT_FIRE).toNat ++ List.replicate 12 0

/-- PROT_CRC_CHECK (R416, R467): the setup against its CRC. -/
def execProtCrcCheck (s : State) : Out :=
  .next <|
    if s.bit PROT_LOCK PROT_LOCK_LOCK && decide (crc32c s.protSetup ≠ s.reg PROT_CRC) then s.fault 0x30C3
    else s

/-- The line runs: a slot is RUNNING or DRAINING. -/
def State.lineRuns (s : State) : Bool := [0, 1].any fun j => decide (5 ≤ s.slotState j)

/-- Row 1 of R424: both enables are driven inactive for 1 µs. The Sagger makes no SI_ENB writes meanwhile, which is
no lapse (R409). -/
def State.testEnables (s : State) : State :=
  if !s.si.enable then s
  else
    let s := (s.setFld SI_STAT SI_STAT_ENA_PAD 0).setFld SI_STAT SI_STAT_ENB_PAD 1
    s.onSi fun i => { i with blank := some (s.now + 100), enbTime := s.now + 100 }

/-- LATENT_TEST (R424): a round while the line runs, with the row that fails; 0: all pass. Row 1 drives the
enables inactive, and row 4 injects a disagreement into each core in turn. -/
def execLatentTest (failRow : Fin 7) (s : State) : Out :=
  .next <|
    if !s.si.running || !s.lineRuns then s
    else
      let s := s.count (SI_CNT 3)
      let s :=
        if failRow.val = 0 then s.setFld SI_LATENT SI_LATENT_PASS 1
        else
          ((s.setFld SI_LATENT SI_LATENT_PASS 0).setFld SI_LATENT SI_LATENT_ROW failRow).fault 0x3087 0xFF
            failRow
      let s := s.testEnables
      if failRow.val = 4 then s else (s.onSi fun i => { i with inject := [0, 1, 2] }).injectNext

/-! ### Collection (R417 to R419) -/

/-- FAULT: the collector takes the oldest fault of the block whose turn it is, one in a tick, while the Sagger
program runs. -/
def execFaultTake (s : State) : Out :=
  .next <| if s.si.running = false ∨ s.si.takenAt = some s.now then s else
    let ptr := s.top.rrPtr.get 0 rrFault
    match rrGrant 27 ptr fun b => !(s.si.queues.get [] b).isEmpty with
    | none => s
    | some b =>
      match s.si.queues.get [] b with
      | [] => s
      | f :: rest =>
        let r : FaultRec :=
          { code := f.code, inst := f.inst, lasting := f.lasting, safe := f.safe,
            loss := s.si.blkLoss.get false b, seq := s.si.seq, time := BitVec.ofNat 64 s.flat,
            ln := s.lc.hwm, info := f.info }
        let s := s.grant rrFault 27 b
        let s := s.onSi fun i => { i with
          queues := i.queues.set [] b rest, blkLoss := i.blkLoss.set false b false, seq := i.seq + 1,
          takenAt := some s.now }
        s.keepRecord r

/-- The 32 bytes of a fault record (R418). -/
def FaultRec.bytes (r : FaultRec) (loss : Bool) : List Byte :=
  let body :=
    leBytes 2 r.code.toNat ++ leBytes 1 r.inst.toNat ++
    leBytes 1 (b2n r.lasting + 2 * b2n r.safe + 4 * b2n (r.loss || loss)) ++ leBytes 4 r.seq.toNat ++
    leBytes 8 r.time.toNat ++ leBytes 8 r.ln.toNat ++ leBytes 6 r.info.toNat
  body ++ leBytes 2 (body.foldl crc16Byte 0xFFFF).toNat

/-- FAULT_RECORD (R419): the oldest record is written to the ring while it has room. -/
def execFaultRecord (s : State) : Out :=
  .next <|
    let size := (s.reg SI_FR_SIZE).toNat
    let w := (s.reg SI_FR_WPTR).toNat
    match s.si.intq with
    | [] => s
    | r :: rest =>
      if size = 0 ∨ (w + 32) % size = (s.reg SI_FR_RPTR).toNat % size then s
      else
        let base := (s.reg SI_FR_BASE_LO).toNat + s.fld SI_FR_BASE_HI SI_FR_BASE_HI_ADDR * 2 ^ 32
        let s := s.blockSave BLK_SI (base + w) (r.bytes s.si.intLoss)
        let s := s.onSi fun i => { i with intq := rest, intLoss := false }
        ((s.setReg SI_FR_WPTR (BitVec.ofNat 32 ((w + 32) % size))).count (SI_CNT 0)).setEvt BLK_SI 0

/-! ### Heartbeats (R423) -/

/-- A heartbeat fails. -/
def State.hbFail (s : State) (k : Nat) : State :=
  let last := match s.si.hbSeq.get none k with | some x => x.toNat | none => 0
  let s := s.fault 0x2641 k last
  (s.setFld SI_HBEN SI_HBEN_EN (s.fld SI_HBEN SI_HBEN_EN &&& (15 - 2 ^ k))).setEvt BLK_SI 5

/-- A write of SI_HB. -/
def State.hbWrite (s : State) (k : Nat) (v : Word) : State :=
  let s := s.setReg (SI_HB k) v
  let seq := v.setWidth 16
  let ok := decide ((v >>> 16).setWidth 16 = ~~~seq) &&
    (match s.si.hbSeq.get none k with | some x => decide (seq = x + 1) | none => true)
  if !s.rbit SI_HBEN k then s
  else if ok then
    s.onSi fun i => { i with hbSeq := i.hbSeq.set none k (some seq), hbAt := i.hbAt.set 0 k s.now }
  else s.hbFail k

def execSiHb (k : Fin 4) (v : BitVec 32) (s : State) : Out := .next (s.hbWrite k v)

/-- HB_MISS: no valid write for 2 ms. -/
def execHbMiss (k : Fin 4) (s : State) : Out :=
  .next (if s.rbit SI_HBEN k && decide (s.si.hbAt.get 0 k + 2 * ticksMs ≤ s.now) then s.hbFail k else s)

/-- A write of SI_HBEN: a core whose bit is newly set may begin with any SEQ. -/
def State.hbenWrite (s : State) (v : Word) : State :=
  let old := s.reg SI_HBEN
  (s.typedWrite SI_HBEN v).each 4 fun k s =>
    if s.rbit SI_HBEN k && !old.getLsbD k then
      s.onSi fun i => { i with hbSeq := i.hbSeq.set none k none, hbAt := i.hbAt.set 0 k s.now }
    else s

/-! ### Gating inputs (R168) -/

/-- GATE_STAT shows a qualified input: active by its POL; SAFE_REQ_N is active low. -/
def State.gateShow (s : State) (ix : Nat) : State :=
  if s.fs.gateSeen.get false ix then
    s.setBit GATE_STAT ix
      (s.fs.gateHigh.get false ix == (decide (ix < 16) && s.bit (GATE_CFG ix) GATE_CFG_POL))
  else s

/-- A qualified input inhibits. -/
def State.gateInhibits (s : State) (ix : Nat) : Bool :=
  s.fs.gateSeen.get false ix &&
    (if ix < 16 then s.gateFunc ix == 1 && s.gateActive ix else s.safeReq)

/-- A pair whose inputs begin to differ or to agree. -/
def State.pairMark (old : State) (j : Nat) (s : State) : State :=
  if s.pairDiffers j != old.pairDiffers j || s.pairAgrees j != old.pairAgrees j then
    s.onSi fun i => { i with pairAt := i.pairAt.set 0 j s.now }
  else s

/-- The events of a change of the gating inputs from those of `old`, and the Sagger's review. -/
def State.gateEvents (s old : State) : State :=
  let s := s.each 8 (State.pairMark old)
  let s := if (List.range 17).any fun i => s.gateInhibits i && !old.gateInhibits i then s.setEvt BLK_FS 0
    else s
  let s := if (old.inhibitGate || old.safeReq) && !(s.inhibitGate || s.safeReq) then s.setEvt BLK_FS 1 else s
  s.siReview

/-- GATE_QUALIFIED: an input qualifies a level, for FS and for the Sagger. -/
def execGateQualified (input : GateInput) (level : Bool) (s : State) : Out :=
  .next <|
    let ix := match input with | .gate n => n.val | .safeReq => 16
    let t := s.onFs fun f => { f with
      gateSeen := f.gateSeen.set false ix true, gateHigh := f.gateHigh.set false ix level }
    (t.gateShow ix).gateEvents s

/-- A write of GATE_CFG: the qualified level is judged by the new POL and FUNC. -/
def State.gateCfgWrite (s : State) (n : Nat) (v : Word) : State :=
  ((s.typedWrite (GATE_CFG n) v).gateShow n).gateEvents s

end Sys2Proof.Machine
end

