-- ==== Sys2Proof/Machine/Firing.lean ====
section
/-!
DEFINITION. The firing sequencer (R158 to R168): what each hub receives at a line event, pulses, holds,
the pad cut and calibration.
-/

namespace Sys2Proof.Machine

/-- What a hub receives at a line event (R167): nothing, a mark or a strobe, and the class of the gap it
is reported as. -/
inductive HubVerdict where
  | nothing (gap : Option Nat)
  | mark (gap : Option Nat)
  | strobe
deriving DecidableEq, Repr

/-- An INHIBIT gate with the hub in its mask is active. -/
def State.hubInhibited (s : State) (k : Nat) : Bool :=
  (List.range 16).any fun n =>
    s.gateFunc n == 1 && (s.fld (GATE_CFG n) GATE_CFG_HUBMASK).testBit k && s.gateActive n

/-- The source encoder reports reverse direction (R167, R367). -/
def State.sourceReverse (s : State) : Bool :=
  s.lcSrc == 1 && decide (s.lcUnit < 10) && s.reportsReverse s.lcUnit

/-- LN lies in the window of a RUNNING or DRAINING slot that PROT permits for the hub. -/
def State.inWindow (s : State) (k ln : Nat) : Bool :=
  [0, 1].any fun j => (s.slotState j == 5 || s.slotState j == 6) && s.protFires k j &&
    match s.jobAt j with
    | some job => decide (job.goLn ≤ ln) && decide (ln < job.stopLn)
    | none => false

/-- R167: the first row that applies. `marked`: the line is skipped, or the set for it abandoned. -/
def State.judgeHub (s : State) (k ln : Nat) (marked : Bool) : HubVerdict :=
  if !s.bit (FS_HUB k) FS_HUB_EN then .nothing none
  else if !s.bit SI_STAT SI_STAT_ENA_PAD || s.bit SI_STAT SI_STAT_ENB_PAD then .nothing (some 1)
  else if s.safeReq || s.hubInhibited k then .nothing (some 1)
  else if s.mediaMissing k then .nothing (some 2)
  else if s.bit LC_STAT LC_STAT_REVERSED || s.sourceReverse then .nothing (some 2)
  else if !s.inWindow k ln then .nothing none
  else if s.fireCut k then .nothing (some 3)
  else if !s.rbit SI_HUBPERM k then .nothing (some 1)
  else if !s.hubOnline k then .nothing (some 4)
  else if s.bit (FS_HSTAT k) FS_HSTAT_LIMIT then .mark (some 5)
  else if marked then .mark none
  else .strobe

/-! ### Pulses (R158, R160, R163) -/

/-- The widths of a strobe and a mark in ticks. -/
def State.strobeWidth (s : State) : Nat := max 10 (s.fld FS_CTRL FS_CTRL_STRB_W)

/-- The instant of an edge of an output: one whose delay line has failed has tap 0 (R163). -/
def State.edgeAt (s : State) (pad t : Nat) : Nat := if s.rbit FS_CAL pad then t / 16 * 16 else t

/-- A pulse that would begin at an instant, moved to 4 ticks after the end of the last one, keeping its tap.
DESIGN CHOICE (log 79): where its tap is lower than that of the end, it begins at the first instant of its tap
that is at least 4 ticks after the end, five ticks on. -/
def spaced (start : Nat) (lastEnd : Option Nat) : Nat :=
  match lastEnd with
  | none => start
  | some e => if start < e + 64 then (e + 64 + 15 - start % 16) / 16 * 16 + start % 16 else start

/-- A pulse is scheduled for a line event at instant `t`. -/
def State.pulse (s : State) (k ln t : Nat) (mark : Bool) : State :=
  let start := t + 640 + s.fld (FS_HUB k) FS_HUB_SKEW
  let start := spaced start (s.fs.lastEnd.get none k)
  let width := if mark then 2 else s.strobeWidth
  let p : Pulse := { line := ln, mark := mark, start := start, width := width }
  s.onFs fun f => { f with
    sched := f.sched.upd [] k (· ++ [p]), lastEnd := f.lastEnd.set none k (some (start + 16 * width)) }

/-! ### A line event (R158, R161, R167) -/

/-- The hub is held at this line event. -/
def State.heldAt (s : State) (k ln : Nat) : Bool :=
  s.bit (FS_HSTAT k) FS_HSTAT_HELD &&
    match s.fs.release.get none k with
    | some r => decide (ln < r)
    | none => true

/-- A reported gap opens. -/
def State.gapOf (s : State) (k ln : Nat) (gap : Option Nat) : State :=
  match gap with
  | some c => s.gapOpen k ln c
  | none => s

/-- One hub at a line event at instant `t`; true when R167 withholds its pulse, and FS holds it for a SYNC
sent after this line event (R161). -/
def State.fireHubLine (s : State) (k ln t : Nat) (marked : Bool) : Bool × State :=
  let v := s.judgeHub k ln marked
  if s.heldAt k ln then
    match v with
    | .nothing gap => (true, s.gapOf k ln gap)
    | .mark gap => (false, s.gapOf k ln gap)
    | .strobe => (false, s)
  else
    let s := (s.setFld (FS_HSTAT k) FS_HSTAT_HELD 0).onFs fun f => { f with
      release := f.release.set none k none }
    match v with
    | .nothing gap => (true, s.gapOf k ln gap)
    | .mark gap => (false, (s.gapOf k ln gap).pulse k ln t true)
    | .strobe => (false, (s.pulse k ln t false).fireHub ln k true)

/-- Every hub at a line event, and the hubs that FS begins to hold. -/
def State.fireLineHubs (s : State) (ln t : Nat) (marked : Bool) : List Nat × State :=
  (List.range 16).foldl (fun (held, s) k =>
    let (h, s) := (s.limitLine k).fireHubLine k ln t marked
    (if h then held ++ [k] else held, s)) ([], s)

/-! ### The outputs (R158, R164, R408) -/

/-- FIRE_RISING_EDGE: the pulse next due on an output begins. The pad passes it only with the cut released
and the permit set; else the hub has received nothing. -/
def execFireRisingEdge (k : Fin 16) (s : State) : Out :=
  .next <|
    match s.fs.sched.get [] k, s.fs.high.get none k with
    | p :: rest, none =>
      if 16 * s.now + 15 < p.start then s
      else
        let s := s.onFs fun f => { f with sched := f.sched.set [] k rest }
        if s.fireCut k || !s.rbit SI_HUBPERM k then
          ((s.gapOpen k p.line (if s.fireCut k then 3 else 1)).fireHub p.line k false).holdHub k
        else
          let s := s.onFs fun f => { f with high := f.high.set none k (some { p with start := s.edgeAt k p.start }) }
          if p.mark then s else s.gapClose k p.line
    | _, _ => s

/-- STROBE_END: the pulse in progress ends after its width. -/
def execStrobeEnd (k : Fin 16) (s : State) : Out :=
  .next <|
    match s.fs.high.get none k with
    | some p =>
      if p.start / 16 + p.width ≤ s.now then s.onFs fun f => { f with high := f.high.set none k none }
      else s
    | none => s

/-- SWMAX as it acts (R164). -/
def State.swMax (s : State) : Nat := clampN 10 400 (s.fld FS_SWMAX FS_SWMAX_SWMAX)

/-- PAD_CUT: FIRE[k] has been high for SWMAX ticks. -/
def execPadCut (k : Fin 16) (s : State) : Out :=
  .next <|
    match s.fs.high.get none k with
    | some p =>
      if p.start / 16 + s.swMax ≤ s.now ∧ ¬ s.fireCut k then
        ((s.setFld (FS_HSTAT k) FS_HSTAT_CUT 1).setEvt BLK_FS 5).fault 0x3241 k
      else s
    | none => s

/-- FS_CUTCLR (R164). -/
def State.cutClear (s : State) (v : Word) : State :=
  s.each 16 fun k s => if v.getLsbD k then s.setFld (FS_HSTAT k) FS_HSTAT_CUT 0 else s

def execFsCutclr (m : Master) (v : BitVec 32) (s : State) : Out :=
  .next (s.regGuard m FS_CUTCLR true fun s => s.cutClear v)

/-- The instance of an output in fault records: FIRE[k] as k, CAMTRIG[c] as 16 + c. -/
def padInst : FsPad → Nat
  | .fire k => k.val
  | .cam c => 16 + c.val

/-- PAD_LEVEL_MISMATCH (R166). -/
def execPadLevelMismatch (pad : FsPad) (s : State) : Out := .next (s.fault 0x3244 (padInst pad))

/-- A delay line may be calibrated: its output is low, and no edge of it is scheduled within 2 ticks (R162). -/
def State.calMay (s : State) (i : Nat) : Bool :=
  if i < 16 then
    (s.fs.high.get none i).isNone && (s.fs.sched.get [] i).all fun p => decide (s.now + 2 < p.start / 16)
  else
    (s.lc.camHigh.get none (i - 16)).isNone &&
      (s.lc.camSched.get [] (i - 16)).all fun t => decide (s.now + 2 < t / 16)

/-- A failed delay line may be calibrated again, at a moment that is free: its output recovers (R163). -/
def State.calTick (s : State) : State :=
  if s.reg FS_CAL = 0 then s
  else
    let (d, s) := s.draw
    s.each 28 fun i s =>
      if s.rbit FS_CAL i && s.calMay i && Config.freeBit d i then s.setBit FS_CAL i false else s

/-- An output's delay line has failed: the end of the pulse that it carries falls on a tick boundary too. -/
def State.calFailed (s : State) (i : Nat) : State :=
  let s := s.setBit FS_CAL i true
  if i < 16 then
    s.onFs fun f => { f with high := f.high.upd none i fun o => o.map fun p => { p with start := p.start / 16 * 16 } }
  else s.onLc fun l => { l with camHigh := l.camHigh.upd none (i - 16) fun o => o.map fun t => t / 16 * 16 }

/-- CAL_FAIL (R163). -/
def execCalFail (pad : FsPad) (s : State) : Out :=
  .next (((s.calFailed (padInst pad)).setEvt BLK_FS 6).fault 0x2242 (padInst pad))

/-! ### Register writes -/

/-- A write of FS_CTRL: STRB_W at or above SWMAX is ignored (R165). -/
def State.fsCtrlWrite (s : State) (v : Word) : State :=
  if s.swMax ≤ fldGet FS_CTRL_STRB_W v then s.ignored FS_CTRL else s.typedWrite FS_CTRL v

/-- A write of FS_HUB: a hub newly enabled is held, and a SYNC is sent to it (R161, R193). -/
def State.fsHubWrite (s : State) (k : Nat) (v : Word) : State :=
  let was := s.bit (FS_HUB k) FS_HUB_EN
  let s := s.typedWrite (FS_HUB k) v
  if !was && s.bit (FS_HUB k) FS_HUB_EN then s.holdHub k else s

end Sys2Proof.Machine
end

