-- ==== Sys2Proof/Machine/Loop.lean ====
section
/-!
DEFINITION. The loop engine (R369 to R381): frames, sources, sections, presented outputs, tracking of the
line clock, plausibility and trace.
-/

namespace Sys2Proof.Machine

def sat32 (x : Int) : Int := clampI (-2 ^ 31) (2 ^ 31 - 1) x
def sat48 (x : Int) : Int := clampI (-2 ^ 47) (2 ^ 47 - 1) x

/-! ### Settings -/

/-- A frame in ticks (R371). -/
def State.leFrame (s : State) : Nat := clampN 40 4096 (s.fld LE_CTRL LE_CTRL_FRAME)

def lpDiv (cfg : Word) : Nat := fldGet LP_CFG_DIV_M1 cfg + 1
def lpPhase (cfg : Word) : Nat := fldGet LP_CFG_PHASE cfg % lpDiv cfg
def lpSecs (cfg : Word) : Nat := fldGet LP_CFG_NSEC_M1 cfg + 1
def lpOn (cfg : Word) : Bool := fldGet LP_CFG_EN cfg != 0

/-- The sections of a loop, first to last (R374). -/
def lpSections (cfg : Word) : List Nat :=
  (List.range (lpSecs cfg)).map fun i => (fldGet LP_CFG_FIRST cfg + i) % 256

/-- A loop is due in a frame (R369). -/
def lpDue (cfg : Word) (f : Nat) : Bool := f % lpDiv cfg == lpPhase cfg

def pow2 (n : Nat) : Bool := [1, 2, 4, 8, 16, 32, 64, 128, 256].contains n

/-- R370: the slots needed in a frame; a DIV that is no power of two counts in every frame. -/
def slotsNeeded (cfgs : List Word) (f : Nat) : Nat :=
  (cfgs.map fun c => if lpOn c && (!pow2 (lpDiv c) || lpDue c f) then lpSecs c + 1 else 0).sum

/-- R370: every frame's need fits. -/
def budgetFits (cfgs : List Word) (frame : Nat) : Bool :=
  (List.range 256).all fun f => decide (slotsNeeded cfgs f ≤ frame / 4)

/-- A bit of LP_FLAG sets. -/
def State.lpFlag (s : State) (l : Nat) (f : Fld) : State := s.hwSet (LP_FLAG l) f.lo

/-- The presented output of a loop (R376). -/
def State.loopOut (s : State) (l : Nat) : Int := (s.reg (LP_OUT l)).toInt

/-- LP_CFG as it is in force for a loop. -/
def State.lpCfg (s : State) (l : Nat) : Word := (s.loopAt l).cfg

/-- The results of a loop are dropped and its presented output is 0 (R371, R376). -/
def State.loopClear (s : State) (l : Nat) : State :=
  (s.onLoop l fun x => { x with results := [] }).setReg (LP_OUT l) 0

/-- A loop that EN = 0 has disabled stops (R376). -/
def State.loopStop (s : State) (l : Nat) : State :=
  (s.loopClear l).onLoop l fun x => { x with active := false }

/-- R371: LE_CTRL.EN = 0 stops every loop; one that LP_CFG still enables runs again when EN is set. -/
def State.engineStop (s : State) : State :=
  s.each 32 fun l s => if lpOn (s.reg (LP_CFG l)) then s.loopClear l else s.loopStop l

/-- The accepted counts of the encoder inputs. -/
def State.qeTotals (s : State) : List Int := (List.range 10).map fun q => (s.qeAt q).total

/-! ### Enabling (R370, R371) -/

/-- A write of LP_CFG. The budget is that of the written registers; a refused write of a loop that runs
already changes nothing, and of one that does not, stores its fields other than EN (DEDUCED, log 55). EN = 0 stops
a loop at once: its presented output is 0 (R376). -/
def State.lpCfgWrite (s : State) (l : Nat) (v : Word) : State :=
  let was := lpOn (s.reg (LP_CFG l))
  if lpOn v then
    let cfgs := (List.range 32).map fun j => if j = l then v else s.reg (LP_CFG j)
    if budgetFits cfgs s.leFrame then
      let s := s.typedWrite (LP_CFG l) v
      if was then s
      else s.onLoop l fun x => { x with active := true, q := s.lc.pos, prev := s.qeTotals, bad := 0,
                                        preload := true, cfg := s.reg (LP_CFG l) }
    else
      let s := if was then s else s.typedWrite (LP_CFG l) (fldPut LP_CFG_EN 0 v)
      ((s.lpFlag l LP_FLAG_REFUSED).setEvt BLK_LE 0).fault 0x0541 l
  else
    let s := s.typedWrite (LP_CFG l) v
    if was then s.loopStop l else s

def execLoopEnable (l : Fin 32) (v : BitVec 32) (s : State) : Out := .next (s.lpCfgWrite l v)

/-- A write of LE_CTRL: FRAME only while EN is 0; a write that leaves FRAME as it is does not count as one
(DEDUCED, log 55). EN = 1 begins the frames: one set before the boundary at which the frames of an earlier EN
would have stopped begins them anew, and the loops stop there (DEDUCED, log 55). -/
def State.leCtrlWrite (s : State) (v : Word) : State :=
  let on := s.bit LE_CTRL LE_CTRL_EN
  let old := s.fld LE_CTRL LE_CTRL_FRAME
  let s := if on ∧ fldGet LE_CTRL_FRAME v ≠ old then s.fault 0x0541 else s
  let s := s.typedWrite LE_CTRL (if on then fldPut LE_CTRL_FRAME old v else v)
  if !on && s.bit LE_CTRL LE_CTRL_EN then
    let s := if s.le.running then s.engineStop else s
    (s.onLe fun e => { e with running := true, nextAt := s.now, frame := 0 }).setReg LE_FRAME 0
  else s

def execEngineEnable (v : BitVec 32) (s : State) : Out := .next (s.leCtrlWrite v)

/-! ### Sections (R373 to R375) -/

/-- A section state of 48 bits: s1 (0) or s2 (1). -/
def State.secState (s : State) (n i : Nat) : Int := sext 48 (s.loadNat (LOOP_SECTION n + 24 + 8 * i) 6)

/-- A section state stored: bits [63:48] hold its sign. -/
def State.setSecState (s : State) (n i : Nat) (x : Int) : State :=
  s.storeNat (LOOP_SECTION n + 24 + 8 * i) 8 (twos 64 x)

def State.secCoef (s : State) (n i : Nat) : Int := sext 32 (s.loadNat (LOOP_SECTION n + 4 * i) 4)

/-- One section: its output, whether a clamp acted, and the state after it. -/
def State.section (s : State) (n : Nat) (x : Int) : Int × Bool × State :=
  let s1 := s.secState n 0
  let s2 := s.secState n 1
  let b0 := s.secCoef n 0
  let b1 := s.secCoef n 1
  let b2 := s.secCoef n 2
  let a1 := s.secCoef n 3
  let a2 := s.secCoef n 4
  let y0 := (b0 * x + s1 * 2 ^ 13 + 2 ^ 28) / 2 ^ 29
  let y := sat32 y0
  let t1 := (b1 * x - a1 * y + s2 * 2 ^ 13 + 2 ^ 12) / 2 ^ 13
  let t2 := (b2 * x - a2 * y + 2 ^ 12) / 2 ^ 13
  let clamped := decide (y ≠ y0) || decide (sat48 t1 ≠ t1) || decide (sat48 t2 ≠ t2)
  (y, clamped, (s.setSecState n 0 (sat48 t1)).setSecState n 1 (sat48 t2))

/-- The cascade: every section's y, first to last, and whether a clamp acted. -/
def State.cascade (s : State) (x : Int) : List Nat → List Int × Bool × State
  | [] => ([], false, s)
  | n :: rest =>
    let (y, c, s) := s.section n x
    let (ys, c', s) := s.cascade y rest
    (y :: ys, c || c', s)

/-- STATE_WORD_WRITE (R375): the high word is written, and both words are stored. -/
def State.stateHighWrite (s : State) (n i : Nat) (hi : Word) : State :=
  let low := (s.le.held.get none (2 * n + i)).getD
    (BitVec.ofNat 32 (s.loadNat (LOOP_SECTION n + 24 + 8 * i) 4))
  let s := s.setSecState n i (sext 48 (low.toNat + hi.toNat * 2 ^ 32))
  s.onLe fun e => { e with held := e.held.set none (2 * n + i) none }

def execStateWordWrite (sec : Fin 256) (s2 : Bool) (hi : BitVec 32) (s : State) : Out :=
  .next (s.stateHighWrite sec (b2n s2) hi)

/-! ### Sources (R372) -/

/-- A signal by kind and index; anything outside the table reads 0. -/
def State.signal (s : State) (l kind ix : Nat) : Int :=
  match kind with
  | 1 => (s.reg (LP_CONST l)).toInt
  | 2 => if ix < 10 then sat32 ((s.qeAt ix).total - (s.loopAt l).prev.getD ix 0) else 0
  | 3 => if ix < 10 then (s.reg (QE_SPEED ix)).toInt else 0
  | 4 => if ix < 8 then (s.reg (AX_POS ix)).toInt else 0
  | 5 => if ix < 32 then s.loopOut ix else 0
  | 6 => sat32 ((s.lc.pos - (s.loopAt l).q).toInt / 2 ^ 8)
  | _ => 0

/-! ### Trace (R380, R381) -/

def State.traceAt (s : State) (k : Nat) : TraceSt := s.le.traces.get TraceSt.reset k

def State.onTrace (s : State) (k : Nat) (f : TraceSt → TraceSt) : State :=
  s.onLe fun e => { e with traces := e.traces.upd TraceSt.reset k f }

def State.armed (s : State) : Bool := s.bit LE_TRIG LE_TRIG_ARM

def State.traceOn (s : State) (k : Nat) : Bool :=
  s.bit (TR_CFG k) TR_CFG_EN && s.armed && !s.bit (TR_STAT k) TR_STAT_DONE

/-- A channel stores a sample. -/
def State.traceStore (s : State) (k : Nat) (x : Int) : State :=
  let i := s.fld (TR_STAT k) TR_STAT_WPTR
  let s := s.storeNat (LE_TRACE + 0x10000 * k + 4 * i) 4 (twos 32 x)
  let s := s.setFld (TR_STAT k) TR_STAT_WPTR (i + 1)
  let s := if i = 16383 then s.setFld (TR_STAT k) TR_STAT_WRAP 1 else s
  let left := (s.traceAt k).left.map (· - 1)
  let s := s.onTrace k fun t => { t with left := left, prev := some x }
  if left = some 0 then s.setFld (TR_STAT k) TR_STAT_DONE 1 else s

/-- A sample meets the trigger's condition; the first sample of a channel has no previous one, and does not
meet conditions 0 and 1 (DESIGN CHOICE, log 55). -/
def State.traceHit (s : State) (x : Int) (prev : Option Int) : Bool :=
  let level := (s.reg LE_TRIG_LVL).toInt
  match s.fld LE_TRIG LE_TRIG_COND, prev with
  | 0, some p => decide (level < x) && decide (p ≤ level)
  | 1, some p => decide (x < level) && decide (level ≤ p)
  | 2, _ => decide (level < x.natAbs)
  | _, _ => false

/-- The trigger: each enabled channel records its last sample and takes POST more. -/
def State.trigger (s : State) : State :=
  let post := let p := s.fld LE_TRIG LE_TRIG_POST; if p = 0 then 16384 else p
  let s := (s.onLe fun e => { e with fired := true }).setEvt BLK_LE 3
  s.each 16 fun k s =>
    if s.traceOn k then
      let w := s.fld (TR_STAT k) TR_STAT_WPTR
      let (d, s) := s.draw
      let last := if w = 0 ∧ ¬ s.bit (TR_STAT k) TR_STAT_WRAP then Config.freeNat d else w + 16383
      (s.setFld (TR_STAT k) TR_STAT_TIDX last).onTrace k fun t => { t with left := some post }
    else s

/-- COND 3: a plausibility event of the loop of the trigger's channel, whatever its EN. -/
def State.plausHit (s : State) (l : Nat) (plaus : Bool) : Bool :=
  plaus && s.armed && s.fld LE_TRIG LE_TRIG_COND == 3 &&
    s.fld (TR_CFG (s.fld LE_TRIG LE_TRIG_CH)) TR_CFG_LOOP == l

/-- The trace channels of a loop at its evaluation, and whether the trigger hits. -/
def State.traceLoop (s : State) (l : Nat) (a b u result : Int) (ys : List Int) (plaus : Bool) :
    Bool × State :=
  (List.range 16).foldl (fun (hit, s) k =>
    if s.traceOn k && s.fld (TR_CFG k) TR_CFG_LOOP == l then
      let isCh := s.fld LE_TRIG LE_TRIG_CH == k
      let c := (s.traceAt k).count + 1
      if c < s.fld (TR_CFG k) TR_CFG_TDIV_M1 + 1 then (hit, s.onTrace k fun t => { t with count := c })
      else
        let x := match s.fld (TR_CFG k) TR_CFG_SIG with
          | 0 => a
          | 1 => b
          | 2 => u
          | 4 => ys.getD (min (s.fld (TR_CFG k) TR_CFG_SEC) (ys.length - 1)) 0
          | _ => result
        let h := isCh && s.traceHit x (s.traceAt k).prev
        (hit || h, (s.traceStore k x).onTrace k fun t => { t with count := 0 })
    else (hit, s)) (s.plausHit l plaus, s)

/-- A write of LE_TRIG: ARM = 1 starts every enabled channel and clears DONE and TRIGGERED, FORCE = 1 triggers at once. A FORCE while armed
keeps ARM whatever the write's bit says, and without ARM it does nothing (DESIGN CHOICE, log 55). -/
def State.leTrigWrite (s : State) (v : Word) : State :=
  let was := s.armed
  let force := v.getLsbD 30
  let s := s.typedWrite LE_TRIG (if force && was then v ||| 0x80000000 else v)
  let s :=
    if v.getLsbD 31 then
      let s := (s.onLe fun e => { e with fired := false, traces := [] }).setBit (evtReg BLK_LE) 3 false
      s.each 16 fun k s =>
        if s.bit (TR_CFG k) TR_CFG_EN then s.setReg (TR_STAT k) 0 else s.setFld (TR_STAT k) TR_STAT_DONE 0
    else s
  if force && s.armed && !s.le.fired then s.trigger else s

def execArm (v : BitVec 32) (s : State) : Out := .next (s.leTrigWrite (v ||| 0x80000000))
def execForce (v : BitVec 32) (s : State) : Out := .next (s.leTrigWrite (v ||| 0x40000000))

/-- TRACE_DONE: every enabled channel has stopped. -/
def execTraceDone (s : State) : Out :=
  .next <|
    let on := (List.range 16).filter fun k => s.bit (TR_CFG k) TR_CFG_EN
    if s.armed && !on.isEmpty && on.all fun k => s.bit (TR_STAT k) TR_STAT_DONE then
      (s.setFld LE_TRIG LE_TRIG_ARM 0).setEvt BLK_LE 4
    else s

/-- A write of TR_CFG: ignored while the trace is armed and the channel not DONE. -/
def State.trCfgWrite (s : State) (k : Nat) (v : Word) : State :=
  if s.armed && !s.bit (TR_STAT k) TR_STAT_DONE then s else s.typedWrite (TR_CFG k) v

/-! ### Evaluation -/

/-- R379: the plausibility check of an evaluation; true at a plausibility event. -/
def State.plausible (s : State) (l : Nat) (a u : Int) : Bool × State :=
  let chk := LP_CHK l
  let r := if s.bit chk LP_CHK_MSEL then sat32 (a - s.loopOut (s.fld chk LP_CHK_MLOOP)) else u
  if r.natAbs ≤ (s.reg (LP_RMAX l)).toNat then (false, s.onLoop l fun x => { x with bad := 0 })
  else if (s.loopAt l).bad + 1 < max 1 (s.fld chk LP_CHK_NBAD) then
    (false, s.onLoop l fun x => { x with bad := x.bad + 1 })
  else
    let s := s.onLoop l fun x => { x with bad := 0 }
    let s := ((s.lpFlag l LP_FLAG_PLAUS).setEvt BLK_LE 1).count (LE_CNT 1)
    let (lasting, s) := s.faultCounted 0x1542 l 0 (max 1 (s.fld chk LP_CHK_PCNT))
      (max 1 (s.fld chk LP_CHK_PWIN) * 10 * ticksMs)
    let s :=
      if lasting then
        ((s.lpFlag l LP_FLAG_LASTING).setEvt BLK_LE 2).fault
          (if fldGet LP_CFG_SAFETY (s.lpCfg l) = 1 then 0x3544 else 0x2543) l
      else s
    (true, s)

/-- R378: the first evaluation after VALID rises, with PRELOAD = 1, whatever QFOLLOW is. -/
def State.preload (s : State) (l : Nat) : State :=
  let cfg := s.lpCfg l
  if (s.loopAt l).preload && s.lcValid then
    let s := s.onLoop l fun x => { x with preload := false }
    if fldGet LP_CFG_PRELOAD cfg = 1 then
      let s := (lpSections cfg).foldl (fun s n => (s.setSecState n 0 0).setSecState n 1 0) s
      let speed : Int := if s.lcUnit < 10 then (s.reg (QE_SPEED s.lcUnit)).toInt else 0
      let v0 := sat32 (speed * s.ratio / 2 ^ 32)
      s.setSecState (fldGet LP_CFG_FIRST cfg) 0 (v0 * 2 ^ 16)
    else s
  else s

/-- R382: another enabled loop uses a section of this one. -/
def State.overlaps (s : State) (l : Nat) : Bool :=
  let mine := lpSections (s.lpCfg l)
  (List.range 32).any fun j => j != l && (s.loopAt j).active &&
    (lpSections (s.lpCfg j)).any mine.contains

/-- The last y of a cascade; sections shared with another loop give any value (R382). -/
def State.lastY (s : State) (l : Nat) (ys : List Int) : Int × State :=
  if s.overlaps l then
    let (d, s) := s.draw
    (sext 32 (Config.freeNat d), s)
  else (ys.getLastD 0, s)

/-- The result: y within LP_OMIN to LP_OMAX, and whether the clamp acted. With OMIN above OMAX, either. -/
def State.clampResult (s : State) (l : Nat) (y : Int) : Int × Bool × State :=
  let lo := (s.reg (LP_OMIN l)).toInt
  let hi := (s.reg (LP_OMAX l)).toInt
  if hi < lo then
    let (d, s) := s.draw
    (if Config.freeBit d 0 then lo else hi, true, s)
  else (clampI lo hi y, decide (clampI lo hi y ≠ y), s)

/-- The evaluation of a due loop in frame `f` (R372 to R379); true when the trace triggers. -/
def State.evaluate (s : State) (l f : Nat) : Bool × State :=
  let s := s.preload l
  let cfg := s.lpCfg l
  let src := s.reg (LP_SRC l)
  let a := s.signal l (fldGet LP_SRC_KA src) (fldGet LP_SRC_IA src)
  let b := s.signal l (fldGet LP_SRC_KB src) (fldGet LP_SRC_IB src)
  let u := sat32 (a - b)
  let s := s.setReg (LP_U l) (BitVec.ofInt 32 u)
  let (ys, clamped, s) := s.cascade u (lpSections cfg)
  let s :=
    if clamped then
      let s := s.count (LE_CNT 0)
      if s.bit (LP_FLAG l) LP_FLAG_SAT then s else (s.lpFlag l LP_FLAG_SAT).fault 0x0545 l
    else s
  let (y, s) := s.lastY l ys
  let (result, cut, s) := s.clampResult l y
  let s := if cut then s.lpFlag l LP_FLAG_CLAMP else s
  let s := s.onLoop l fun x => { x with results := x.results ++ [(f + lpDiv cfg, BitVec.ofInt 32 result)] }
  let (plaus, s) := s.plausible l a u
  let s := s.onLoop l fun x => { x with prev := s.qeTotals }
  s.traceLoop l a b u result ys plaus

/-- R378: the loop follows P and is not evaluated. -/
def State.loopFollows (s : State) (l : Nat) : Bool :=
  (s.loopAt l).active && (fldGet LP_CFG_QFOLLOW (s.lpCfg l) == 1) && !s.lcValid

/-- A loop that follows P. -/
def State.followP (s : State) (l : Nat) : State :=
  (s.loopClear l).onLoop l fun x => { x with q := s.lc.pos }

/-- The presentation of a loop's result at a frame boundary (R376). -/
def State.present (s : State) (l f : Nat) : State :=
  if !(s.loopAt l).active then s
  else if s.loopFollows l then s.followP l
  else
    let due := (s.loopAt l).results.filter fun r => decide (r.1 ≤ f)
    let s := s.onLoop l fun x => { x with results := x.results.filter fun r => decide (f < r.1) }
    match due.getLast? with
    | some r => s.setReg (LP_OUT l) r.2
    | none => s

/-- A due loop in frame `f`: its sample tick takes the written settings, and it is evaluated unless it follows
P; true when the trace triggers. -/
def State.sampleTick (s : State) (l f : Nat) : Bool × State :=
  let s := s.onLoop l fun x => { x with cfg := s.reg (LP_CFG l) }
  if s.loopFollows l then (false, (s.followP l).onLoop l fun x => { x with prev := s.qeTotals }) else s.evaluate l f

/-- The first of 256 sections, from `n` on in rotation, of which a test holds. -/
def nextSection (n : Nat) (f : Nat → Bool) : Option Nat := ((List.range 256).map fun i => (n + i) % 256).find? f

/-- The sections that frame `f` evaluates, and those of loops that are enabled. -/
def State.sectionRan (s : State) (f n : Nat) : Bool :=
  (List.range 32).any fun l =>
    (s.loopAt l).active && lpDue (s.lpCfg l) f && !s.loopFollows l && (lpSections (s.lpCfg l)).contains n
def State.sectionUsed (s : State) (n : Nat) : Bool :=
  (List.range 32).any fun l =>
    (s.loopAt l).active && (lpSections (s.lpCfg l) ++ lpSections (s.reg (LP_CFG l))).contains n

/-- Slots of frame `f` beyond the need of R370. -/
def State.spareSlots (s : State) (f : Nat) : Nat :=
  s.leFrame / 4 - slotsNeeded ((List.range 32).map fun l => s.reg (LP_CFG l)) f

/-- The keys of the rotations of R442: sections that run, and sections of no enabled loop. -/
def turnRan : Nat := 7
def turnFree : Nat := 700

/-- The spare slots of frame `f` (R442): the next section in rotation among those that it evaluates is evaluated
again, and a section of no enabled loop is tested with vectors and left zero. The same inputs give the same
outputs and states, so each passes; an error of the hardware is AUTOMATIC_TEST's. DESIGN CHOICE (log 62): the
section tested with vectors takes the second spare slot, or the first of a frame that evaluates nothing. -/
def State.spareTests (s : State) (f : Nat) : State :=
  if !s.rbit ST_CTRL 7 || s.spareSlots f == 0 then s
  else
    let pass := fun (s : State) (key n : Nat) =>
      (s.onSt fun x => { x with next := x.next.set 0 key ((n + 1) % 256) }).count (ST_CNT 0)
    let ran := nextSection (s.st.next.get 0 turnRan) (s.sectionRan f)
    let s := match ran with
      | some n => pass s turnRan n
      | none => s
    if ran.isSome && s.spareSlots f == 1 then s
    else
      match nextSection (s.st.next.get 0 turnFree) fun n => !s.sectionUsed n with
      | some n => pass (s.clearBytes (LOOP_SECTION n) 64) turnFree n
      | none => s

/-- A frame begins when its time has come (R369), in the tick's own work or by LOOP_FRAME. Every due loop is
evaluated from the coefficients and states that stand at its sample tick (log 55). -/
def State.leBoundary (s : State) : State :=
  if !s.le.running || decide (s.now < s.le.nextAt) then s
  else if !s.bit LE_CTRL LE_CTRL_EN then
    (s.onLe fun e => { e with running := false }).engineStop
  else
    let f := s.le.frame
    let s := s.setReg LE_FRAME (BitVec.ofNat 32 f)
    let s := s.onLe fun e => { e with frame := f + 1, nextAt := (if f = 0 then s.now else e.nextAt) + s.leFrame }
    let s := s.each 32 fun l s => s.present l f
    let (hit, s) := (List.range 32).foldl (fun (hit, s) l =>
      if (s.loopAt l).active && lpDue (s.lpCfg l) f then
        let (h, s) := s.sampleTick l f
        (hit || h, s)
      else (hit, s)) (false, s)
    (if hit && !s.le.fired then s.trigger else s).spareTests f

/-- LOOP_FRAME. -/
def execLoopFrame (s : State) : Out := .next s.leBoundary

/-- R377, R378: Q advances by the presented output in every tick, or follows P. -/
def State.loopTick (s : State) (l : Nat) : State :=
  let s :=
    if (s.loopAt l).active && !s.lcValid then s.onLoop l fun x => { x with preload := true } else s
  if s.loopFollows l then s.followP l
  else if s.loopOut l = 0 then s
  else s.onLoop l fun x => { x with q := x.q + BitVec.ofInt 96 (s.loopOut l) }

end Sys2Proof.Machine
end

