-- ==== Sys2Proof/Machine/Products.lean ====
section
/-!
DEFINITION. Products of the line clock (R172 to R176): their numbers, the queue, triggers and the repeats
of continuous layout.
-/

namespace Sys2Proof.Machine

/-- The queue registers show the oldest entry (R176). -/
def State.showQueue (s : State) : State :=
  let q := s.lc.prodQueue
  let s := s.setFld PQ_STAT PQ_STAT_COUNT q.length
  match q with
  | p :: _ =>
    ((s.setFld PQ_STAT PQ_STAT_LANE p.lane).setReg PQ_NUM p.num).setReg64 PQ_ORG_LO PQ_ORG_HI p.origin
  | [] => ((s.setFld PQ_STAT PQ_STAT_LANE 0).setReg PQ_NUM 0).setReg64 PQ_ORG_LO PQ_ORG_HI 0

/-- A product of this tick that follows one of a lane in the order of numbers (R172). -/
def Product.follows (p : Product) (now lane : Nat) : Bool := p.at_ == now && decide (lane < p.lane)

/-- A product is accepted: it takes the next number, before those of this tick with a higher lane, and
enters the queue (R172, R176). -/
def State.acceptProduct (s : State) (trig : Bool) (lane origin : Nat) : State :=
  let after := fun (p : Product) => p.follows s.now lane
  let moved := fun (p : Product) => if after p then { p with num := p.num + 1 } else p
  let k := (s.lc.products.filter after).length
  let p : Product :=
    { num := s.lc.prodNext - BitVec.ofNat 32 k, lane := lane, origin := origin, trig := trig, at_ := s.now }
  let full := decide (256 ≤ s.lc.prodQueue.length)
  let s := s.onLc fun l => { l with
    prodNext := l.prodNext + 1, products := p :: l.products.map moved,
    prodQueue := (l.prodQueue.filter (!after ·) ++ p :: (l.prodQueue.filter after).map moved).take 256 }
  let s := (s.setEvt BLK_LC 7).showQueue
  if full then s.count (LC_CNT 4) else s

/-- PQ_POP (R176). -/
def State.popProduct (s : State) (v : Word) : State :=
  if v.getLsbD 0 then (s.onLc fun l => { l with prodQueue := l.prodQueue.tail }).showQueue else s

def execPqPop (v : BitVec 32) (s : State) : Out := .next (s.popProduct v)

/-- The triggered job that a lane serves: running, else armed. -/
def State.laneJob (s : State) (lane : Nat) : Option (JobSt × LaneDef) :=
  (s.slotsIn 5 ++ s.slotsIn 4).findSome? fun j =>
    match s.jobAt j with
    | some job => if job.hdr.trig then (job.hdr.lanes[lane]?).map fun l => (job, l) else none
    | none => none

/-- A trigger is refused (R174). -/
def State.refuseProduct (s : State) (lane : Nat) : State :=
  ((s.count (LC_CNT 3)).setEvt BLK_LC 8).fault 0x0203 lane

/-- PROD_TRIGGER (R173, R174): a qualified edge with P at its first sample. -/
def execProdTrigger (lane : Fin 8) (pos : BitVec 96) (s : State) : Out :=
  .next <|
    if !s.bit (PROD_CFG lane) PROD_CFG_EN then s
    else
      let s := s.wakeSource 0
      match s.laneJob lane with
      | none => s.refuseProduct lane
      | some (job, l) =>
        let origin := ((pos.toNat + 2 ^ 31) / 2 ^ 32 + l.sdist) % 2 ^ 64
        let early : Bool := match s.lc.products.find? fun p => p.trig && p.lane == lane.val with
          | some p => decide (origin < p.origin + l.len)
          | none => false
        let late := decide (((origin + s.ominMin job.hdr.npl : Nat) : Int) < s.lastLn + 320 + (job.hdr.lead : Int))
        if early || late then
          s.refuseProduct lane
        else s.acceptProduct true lane origin

/-! ### Continuous layout (R175) -/

def State.prepLen (s : State) : Nat := s.fld PREP_LEN PREP_LEN_LINES
def State.prepOrg (s : State) : Nat := s.reg64 PREP_ORG_LO PREP_ORG_HI

/-- The repeat that owns a line: its index and its origin. -/
def State.repeatAt (s : State) (line : Int) : Int × Int :=
  if s.prepLen = 0 then (0, s.prepOrg)
  else
    let k := (line - s.prepOrg) / s.prepLen
    (k, s.prepOrg + k * s.prepLen)

/-- The number of repeat k, numbered already or to come. -/
def State.repeatNum (s : State) (k origin : Int) : Word :=
  match s.lc.products.find? fun p => !p.trig && decide ((p.origin : Int) = origin) with
  | some p => p.num
  | none => s.lc.prodNext + BitVec.ofInt 32 (k - (s.lc.prepNext.getD 0 : Nat))

/-- The repeats begin afresh with the one that owns a line. -/
def State.beginRepeats (s : State) (go : Nat) : State :=
  s.onLc fun l => { l with prepNext := some (s.repeatAt go).1.toNat }

/-- Repeats whose origin − PREP_AHEAD H has reached are numbered and queued, while a job of continuous
layout is armed, runs or drains. -/
def State.numberRepeats (s : State) : State :=
  let laid := match s.runJob with | some job => !job.hdr.trig | none => false
  match laid, s.lc.prepNext with
  | false, _ => s
  | true, none => s
  | true, some k =>
    let reach := s.lastLn + s.fld PREP_AHEAD PREP_AHEAD_LINES - s.prepOrg
    let due :=
      if s.prepLen = 0 then (if k = 0 ∧ 0 ≤ reach then 1 else 0)
      else (reach / s.prepLen + 1 - k).toNat
    let s := s.each due fun i s => s.acceptProduct false 0 (s.prepOrg + (k + i) * s.prepLen)
    s.onLc fun l => { l with prepNext := some (k + due) }

end Sys2Proof.Machine
end

