-- ==== Sys2Proof/Machine/Words.lean ====
section
/-!
DEFINITION. The instruction words of the cores (R25, R28 to R34, R47, R49, R64, R65, R81): which command a word
spells on a core, whether it is legal, how long it is, and which words may not stand in the body of a REP
(R69).
-/

namespace Sys2Proof.Machine

/-- Bits of a word. -/
def wbits (w hi lo : Nat) : Nat := w / 2 ^ lo % 2 ^ (hi + 1 - lo)

/-- A register field of a word, and its 16-bit immediate. -/
def wreg (w lo : Nat) : BitVec 5 := BitVec.ofNat 5 (w / 2 ^ lo)
def wimm (w : Nat) : BitVec 16 := BitVec.ofNat 16 w

/-- A command that a word spells where its must-be-zero fields are zero. -/
def spells (ok : Bool) (i : Instr) : Option Instr := if ok then some i else none

/-! ### Group IB -/

/-- The register ALU, major 0x01 (R29). -/
def decodeAlu (c : Core) (w : Nat) : Option Instr :=
  let rd := wreg w 21
  let ra := wreg w 16
  let rb := wreg w 11
  match wbits w 10 0 with
  | 0x000 => some (.add c rd ra rb)
  | 0x001 => some (.sub c rd ra rb)
  | 0x002 => some (.and c rd ra rb)
  | 0x003 => some (.or c rd ra rb)
  | 0x004 => some (.xor c rd ra rb)
  | 0x005 => some (.andn c rd ra rb)
  | 0x008 => some (.sll c rd ra rb)
  | 0x009 => some (.srl c rd ra rb)
  | 0x00A => some (.sra c rd ra rb)
  | 0x00B => some (.ror c rd ra rb)
  | 0x010 => some (.slt c rd ra rb)
  | 0x011 => some (.sltu c rd ra rb)
  | 0x012 => some (.min c rd ra rb)
  | 0x013 => some (.max c rd ra rb)
  | 0x014 => some (.minu c rd ra rb)
  | 0x015 => some (.maxu c rd ra rb)
  | 0x018 => spells (rb == 0) (.clz c rd ra)
  | 0x019 => spells (rb == 0) (.ctz c rd ra)
  | 0x01A => spells (rb == 0) (.popc c rd ra)
  | 0x020 => some (.mul c rd ra rb)
  | 0x021 => some (.mulh c rd ra rb)
  | 0x022 => some (.mulhu c rd ra rb)
  | 0x024 => some (.div c rd ra rb)
  | 0x025 => some (.divu c rd ra rb)
  | 0x026 => some (.rem c rd ra rb)
  | 0x027 => some (.remu c rd ra rb)
  | _ => none

/-- The two-word instructions, major 0x20 (R34). -/
def decodeTwo (c : Core) (w : Nat) (imm : BitVec 32) : Option Instr :=
  let rd := wreg w 21
  let ra := wreg w 16
  match wbits w 15 0 with
  | 0x0000 => spells (ra == 0) (.liw c rd imm)
  | 0x0001 => some (.addiw c rd ra imm)
  | 0x0002 => some (.andiw c rd ra imm)
  | 0x0003 => some (.oriw c rd ra imm)
  | 0x0004 => some (.xoriw c rd ra imm)
  | 0x0010 => spells (ra == 0) (.jw c rd imm)
  | _ => none

/-- A word of the base profile and, for two-word instructions, the word after it. -/
def decodeIb (c : Core) (w : Nat) (imm : BitVec 32) : Option Instr :=
  let rd := wreg w 21
  let ra := wreg w 16
  let i := wimm w
  let short := wbits w 15 5 == 0
  match wbits w 31 26 with
  | 0x01 => decodeAlu c w
  | 0x02 => some (.addi c rd ra i)
  | 0x03 => some (.andi c rd ra i)
  | 0x04 => some (.ori c rd ra i)
  | 0x05 => some (.xori c rd ra i)
  | 0x06 => some (.slti c rd ra i)
  | 0x07 => some (.sltiu c rd ra i)
  | 0x08 => spells short (.slli c rd ra (wreg w 0))
  | 0x09 => spells short (.srli c rd ra (wreg w 0))
  | 0x0A => spells short (.srai c rd ra (wreg w 0))
  | 0x0B => spells (ra == 0) (.lui c rd i)
  | 0x0C => some (.jalr c rd ra i)
  | 0x10 => some (.lb c rd ra i)
  | 0x11 => some (.lbu c rd ra i)
  | 0x12 => some (.lh c rd ra i)
  | 0x13 => some (.lhu c rd ra i)
  | 0x14 => some (.lw c rd ra i)
  | 0x15 => some (.sb c rd ra i)
  | 0x16 => some (.sh c rd ra i)
  | 0x17 => some (.sw c rd ra i)
  | 0x18 => some (.beq c rd ra i)
  | 0x19 => some (.bne c rd ra i)
  | 0x1A => some (.blt c rd ra i)
  | 0x1B => some (.bge c rd ra i)
  | 0x1C => some (.bltu c rd ra i)
  | 0x1D => some (.bgeu c rd ra i)
  | 0x1E => some (.j c (BitVec.ofNat 26 w))
  | 0x1F => some (.jal c (BitVec.ofNat 26 w))
  | 0x20 => decodeTwo c w imm
  | _ => none

/-! ### Group IX -/

/-- A span register and a vector register named in a field; the high bits of the field must be zero. -/
def wspan (w lo : Nat) : BitVec 2 := BitVec.ofNat 2 (w / 2 ^ lo)
def wvec (w lo : Nat) : BitVec 3 := BitVec.ofNat 3 (w / 2 ^ lo)

/-- Tile state and span registers, major 0x28 (R65). -/
def decodeTile (x : Fin 144) (w : Nat) : Option Instr :=
  let a := wbits w 25 21
  let b := wbits w 20 16
  let c := wbits w 15 11
  let m := wbits w 10 8
  match wbits w 7 0 with
  | 0x00 => spells (b == 0 && c == 0 && m == 0) (.clr x (wreg w 21))
  | 0x01 => spells (b == 0 && c == 0 && m == 0) (.setl x (wreg w 21))
  | 0x02 => spells (a == 0 && b == 0 && c == 0 && m == 0) (.tend x)
  | 0x10 => spells (decide (a < 4) && c == 0 && m == 0) (.sld x (wspan w 21) (wreg w 16))
  | 0x11 => spells (decide (a < 4) && c == 0 && m == 0) (.sst x (wspan w 21) (wreg w 16))
  | 0x12 => spells (decide (a < 4) && decide (c < 4) && m == 0)
      (.sset x (wspan w 21) (wreg w 16) (wspan w 11))
  | 0x13 => spells (decide (b < 4) && decide (c < 4) && m == 0)
      (.sget x (wreg w 21) (wspan w 16) (wspan w 11))
  | 0x20 => spells (decide (b < 16) && c == 0 && m == 0)
      (.rep x (wreg w 21) (BitVec.ofNat 4 b))
  | _ => none

/-- The vector group, major 0x2F (R81). -/
def decodeVec (x : Fin 144) (w : Nat) : Option Instr :=
  let a := wbits w 25 21
  let b := wbits w 20 16
  let c := wbits w 15 11
  let m := wbits w 10 8
  let one := decide (a < 8) && c == 0 && m == 0
  let three := decide (a < 8) && decide (b < 8) && decide (c < 8) && m == 0
  let va := wvec w 21
  let vb := wvec w 16
  let vc := wvec w 11
  let g := wreg w 16
  match wbits w 7 0 with
  | 0x00 => spells one (.vld x va g)
  | 0x01 => spells one (.vst x va g)
  | 0x02 => spells one (.vldt x va g)
  | 0x03 => spells (decide (a < 8) && c == 0 && decide (m < 5)) (.vstt x va g (wvec w 8))
  | 0x04 => spells one (.vspl x va g)
  | 0x08 => spells three (.vadds x va vb vc)
  | 0x09 => spells three (.vsubs x va vb vc)
  | 0x0A => spells three (.vmin x va vb vc)
  | 0x0B => spells three (.vmax x va vb vc)
  | 0x0C => spells three (.vmuls x va vb vc)
  | 0x0D => spells three (.vover x va vb vc)
  | 0x10 => spells (decide (b < 8) && m == 0) (.vext x (wreg w 21) vb (wreg w 11))
  | 0x11 => spells (decide (b < 8) && c == 0 && m == 0) (.vsum x (wreg w 21) vb)
  | _ => none

/-- A word of the raster profile (R64, R65). -/
def decodeIx (x : Fin 144) (w : Nat) : Option Instr :=
  let a := wbits w 25 21
  let b := wbits w 20 16
  let c := wbits w 15 11
  let f := wbits w 7 0
  let blend := decide (wbits w 10 8 < 5)
  let m := wvec w 8
  match wbits w 31 26 with
  | 0x28 => decodeTile x w
  | 0x29 =>
    if f = 0 then spells (decide (a < 4) && c == 0 && blend) (.span x (wspan w 21) (wreg w 16) m)
    else spells (f == 1 && decide (a < 4) && blend)
      (.trapShape x (wspan w 21) (wreg w 16) (wreg w 11) m)
  | 0x2A => spells (f == 0 && decide (a < 4) && c == 0 && blend) (.cell x (wspan w 21) (wreg w 16) m)
  | 0x2B => spells (decide (f < 8) && blend)
      (.blit x (wvec w 0) (wreg w 21) (wreg w 16) (wreg w 11) m)
  | 0x2C => spells (f == 0 && blend) (.unpk x (wreg w 21) (wreg w 16) (wreg w 11) m)
  | 0x2D => spells (decide (f < 8) && blend)
      (.glyph x (wvec w 0) (wreg w 21) (wreg w 16) (wreg w 11) m)
  | 0x2E => spells (f == 0 && decide (b < 4) && c == 0 && blend) (.vfld x (wreg w 21) (wspan w 16) m)
  | 0x2F => decodeVec x w
  | _ => none

/-! ### Group IS -/

/-- A word of the system profile (R47, R49). The ra field of SRR names nothing and may hold any value. -/
def decodeIs (k : IsCore) (w : Nat) : Option Instr :=
  let rd := wreg w 21
  let ra := wreg w 16
  let sr := BitVec.ofNat 8 w
  let high := wbits w 15 8 == 0
  let none_ := rd == 0 && ra == 0 && wreg w 11 == 0
  let one := rd == 0 && wreg w 11 == 0
  match wbits w 31 26 with
  | 0x30 => spells high (.srr k rd ⟨ra, sr⟩)
  | 0x31 => spells (high && rd == 0) (.srw k ra sr)
  | 0x32 => spells high (.srset k rd ra sr)
  | 0x33 => spells high (.srclr k rd ra sr)
  | 0x34 =>
    match wbits w 10 0 with
    | 0x000 => spells none_ (.ecall k)
    | 0x001 => spells none_ (.eret k)
    | 0x002 => spells none_ (.wfi k)
    | 0x010 => spells none_ (.fence k)
    | 0x020 => spells one (.dcwb k ra)
    | 0x021 => spells one (.dcinv k ra)
    | 0x022 => spells one (.dcflush k ra)
    | 0x023 => spells one (.icinv k ra)
    | _ => none
  | _ => none

/-! ### Words on a core -/

/-- The command that an instruction word spells on a core, with the word after it for two-word
instructions; none for an illegal word. -/
def decodeWord (c : Core) (w : Nat) (imm : BitVec 32) : Option Instr :=
  (decodeIb c w imm).orElse fun _ =>
    match c with
    | .xc x => decodeIx x w
    | .cc k => decodeIs (.cc k) w
    | .sg => decodeIs .sg w

/-- A word is legal on a core of the kind (R28). -/
def wordLegal (c : Core) (word : Word) : Bool := (decodeWord c word.toNat 0).isSome

/-- Words of an instruction. -/
def instrWords : Instr → Nat
  | .liw .. => 2
  | .addiw .. => 2
  | .andiw .. => 2
  | .oriw .. => 2
  | .xoriw .. => 2
  | .jw .. => 2
  | _ => 1

/-- Instructions that may not stand in the body of a REP: transfers of control, REP and TEND (R69). -/
def endsBody : Instr → Bool
  | .beq .. => true
  | .bne .. => true
  | .blt .. => true
  | .bge .. => true
  | .bltu .. => true
  | .bgeu .. => true
  | .j .. => true
  | .jal .. => true
  | .jalr .. => true
  | .jw .. => true
  | .rep .. => true
  | .tend .. => true
  | _ => false

end Sys2Proof.Machine
end

