-- ==== Sys2Proof/Machine/Xc.lean ====
section
/-!
DEFINITION. How an expansion core runs an instruction (R35 to R41, R58 to R71): registers, local memory,
the metered cost, blending into the tile buffer, and the ends of a tile.
-/

namespace Sys2Proof.Machine

/-! ### Registers and local memory -/

/-- Local offsets where data memory ends and the tile buffers begin (R36). -/
def localTop : Nat := 0x38000

def State.xg (s : State) (x : Nat) (r : Nat) : Word := (s.xcAt x).g.get 0 r

/-- A general register written; g0 stays zero (R27). -/
def State.setXg (s : State) (x : Nat) (r : Nat) (v : Word) : State :=
  if r = 0 then s else s.onXc x fun c => { c with g := c.g.set 0 r v }

/-- A word of a span register. -/
def State.xs (s : State) (x sp w : Nat) : Word := (s.xcAt x).sp.get 0 (4 * sp + w)
def State.setXs (s : State) (x sp w : Nat) (v : Word) : State :=
  s.onXc x fun c => { c with sp := c.sp.set 0 (4 * sp + w) v }

/-- The lanes of a vector register, lane 0 first. -/
def State.xv (s : State) (x v : Nat) : List Byte :=
  (List.range 32).map fun i => (s.xcAt x).v.get 0 (32 * v + i)
def State.setXv (s : State) (x v : Nat) (lanes : List Byte) : State :=
  s.onXc x fun c => { c with v := lanes.zipIdx.foldl (fun t (b, i) => t.set 0 (32 * v + i) b) c.v }

/-- A byte of local data memory; any value at or above 0x3_8000 (R90). -/
def State.localByte (s : State) (d x a : Nat) : Byte :=
  if a < localTop then memByte s.mem (XC_MEM x + a) else Config.freeByte d a

def State.localBytes (s : State) (d x a n : Nat) : List Byte :=
  (List.range n).map fun i => s.localByte d x (a + i)

/-- Bytes stored to local data memory; a store at or above 0x3_8000 alters any bytes of it (R90). -/
def State.localStore (s : State) (x a : Nat) (bs : List Byte) : State :=
  if a + bs.length ≤ localTop then s.storeBytes (XC_MEM x + a) bs
  else
    let (d, s) := s.draw
    s.storeBytes (XC_MEM x) ((s.loadBytes (XC_MEM x) localTop).zipIdx.map fun (b, i) =>
      if Config.freeBit d i then Config.freeByte d i else b)

/-- The current tile buffer. -/
def State.tileBuf (s : State) (x : Nat) : Nat :=
  XC_MEM x + localTop + (if (s.xcAt x).buf then 0x4000 else 0)

/-! ### Blending (R60, R61) -/

/-- d' of R61. -/
def blend (m s d : Nat) : Nat :=
  match m with
  | 0 => s
  | 1 => max s d
  | 2 => min s d
  | 3 => min 255 (s + d)
  | _ => s + (d * (255 - s) + 127) / 255

/-- A value scaled by the paint level (R60). -/
def scaled (a level : Nat) : Nat := (a * level + 127) / 255

/-- Source values blended into the dots of the current buffer for which `keep` holds. -/
def State.paint (s : State) (x m : Nat) (src : Nat → Nat → Option Nat) (keep : Nat → Bool) : State :=
  let base := s.tileBuf x
  s.storeBytes base ((s.loadBytes base 0x4000).zipIdx.map fun (b, i) =>
    match src (i % 256) (i / 256) with
    | some v => if keep i then BitVec.ofNat 8 (blend m v b.toNat) else b
    | none => b)

/-- Geometric coverage as source values (R60). -/
def State.areaSrc (s : State) (x : Nat) (a : Nat → Nat → Nat) : Nat → Nat → Option Nat :=
  let level := (s.xcAt x).level.toNat
  fun i j => if a i j = 0 then none else some (scaled (a i j) level)

/-! ### The ends of a tile (R39, R70, R71) -/

/-- The tile trailer (R70). -/
def XcSt.trailer (c : XcSt) : List Byte :=
  leBytes 4 c.start2.toNat ++ leBytes 2 c.start1.toNat ++ leBytes 1 c.start3.toNat ++ [c.vmiss]

/-- The tile CRC (R70). -/
def State.tileCrc (s : State) (x : Nat) : Word :=
  crc32c (s.loadBytes (s.tileBuf x) 0x4000 ++ (s.xcAt x).trailer)

/-- The current buffer is handed over, and the next tile uses the other (R58). -/
def State.handTile (s : State) (x : Nat) (illegal overrun : Bool) : State :=
  match (s.xcAt x).tile with
  | none => s
  | some key =>
    let crc := s.tileCrc x
    s.onXc x fun c => { c with
      handed := some { buf := c.buf, tile := key, crc := crc, illegal := illegal, overrun := overrun,
                       vmiss := c.vmiss },
      tile := none, rep := none, buf := !c.buf }

/-- An illegal instruction stops the tile as a failed render (R39). -/
def State.xcIllegal (s : State) (x : Nat) : State :=
  (s.handTile x true false).fault 0x1141 x (s.xcAt x).pc.toNat

/-! ### Running an instruction -/

/-- The core renders a tile and the metering unit has not stopped it. -/
def State.xcLive (s : State) (x : Nat) : Bool :=
  s.clocked BLK_XC && (s.xcAt x).tile.isSome && decide ((s.xcAt x).cycles < (s.xcAt x).cost)

/-- The PC after an instruction, and the iterations of REP (R69). -/
def XcSt.advance (c : XcSt) (target : Word) : XcSt :=
  match c.rep with
  | none => { c with pc := target }
  | some r =>
    if target.toNat < r.after.toNat then { c with pc := target }
    else if 1 < r.left then { c with pc := r.first, rep := some { r with left := r.left - 1 } }
    else { c with pc := target, rep := none }

/-- An instruction of `words` words and a cost (R35, R38, R71): its effect, then its cycles and the next
PC; only a part of its effect when the metering unit stops it. -/
def State.xcStep (s : State) (x words cost : Nat) (target : Option Word) (act part : State → State) :
    State :=
  let c := s.xcAt x
  if !s.xcLive x then s
  else if localTop < c.pc.toNat + 4 * words then s.xcIllegal x
  else if c.cost < c.cycles + cost then (part s).onXc x fun c => { c with cycles := c.cost }
  else (act s).onXc x fun c' =>
    { c' with cycles := c.cycles + cost }.advance (target.getD (c.pc + BitVec.ofNat 32 (4 * words)))

/-- The dots that an instruction has written when the metering unit stops it (R41, R71). -/
def State.meterKeep (s : State) (x : Nat) : Nat → Bool :=
  let c := s.xcAt x
  Config.meterDot
    [c.start1.toNat, c.start2.toNat, c.start3.toNat, c.start5.toNat, c.pc.toNat, c.cycles, c.cost]
    (s.loadBytes (XC_MEM x) localTop)

/-- A raster instruction without blending. -/
def State.xcDo (s : State) (x cost : Nat) (act : State → State) : State := s.xcStep x 1 cost none act id

/-- An instruction that blends source values into the tile and then acts; modes 5 to 7 are illegal
(R61). Stopped by the metering unit, it has written any subset of its dots. -/
def State.xcPaint (s : State) (x cost : Nat) (m : BitVec 3) (src : Nat → Nat → Option Nat)
    (after : State → State) : State :=
  if 5 ≤ m.toNat then (if s.xcLive x then s.xcIllegal x else s)
  else
    s.xcStep x 1 cost none (fun s => after (s.paint x m.toNat src fun _ => true))
      (fun s => s.paint x m.toNat src (s.meterKeep x))

/-! ### Tile state and control (R67 to R71) -/

/-- CLR (R67). -/
def execClr (x : Fin 144) (a : BitVec 5) (s : State) : Out :=
  let v := (s.xg x a.toNat).setWidth 8
  let fill := fun (keep : Nat → Bool) (s : State) =>
    let base := s.tileBuf x
    s.storeBytes base ((s.loadBytes base 0x4000).zipIdx.map fun (b, i) => if keep i then v else b)
  .next (s.xcStep x 1 130 none (fill fun _ => true)
    (fun s => fill (s.meterKeep x) s))

/-- SETL (R67). -/
def execSetl (x : Fin 144) (a : BitVec 5) (s : State) : Out :=
  .next (s.xcDo x 1 fun s => s.onXc x fun c => { c with level := (s.xg x a.toNat).setWidth 8 })

/-- TEND (R70): its 136 cycles must fit in the declared cost. -/
def execTend (x : Fin 144) (s : State) : Out :=
  .next <|
    let c := s.xcAt x
    if !s.xcLive x then s
    else if localTop < c.pc.toNat + 4 then s.xcIllegal x
    else if c.cost < c.cycles + 136 then s.onXc x fun c => { c with cycles := c.cost }
    else (s.onXc x fun c => { c with cycles := c.cycles + 136 }).handTile x false false

/-- METERING_STOP (R71): the count has reached the declared cost before TEND. -/
def execMeteringStop (x : Fin 144) (s : State) : Out :=
  .next <|
    let c := s.xcAt x
    if c.tile.isSome ∧ c.cost ≤ c.cycles then s.handTile x false true else s

/-- The local address of a span or vector access: low bits forced to zero. -/
def alignLocal (a : Word) (n : Nat) : Nat := a.toNat / n * n

/-- SLD (R68). -/
def execSld (x : Fin 144) (sp : BitVec 2) (b : BitVec 5) (s : State) : Out :=
  .next (s.xcDo x 2 fun s =>
    let (d, s) := s.draw
    let bs := s.localBytes d x (alignLocal (s.xg x b.toNat) 16) 16
    s.each 4 fun w s => s.setXs x sp.toNat w (BitVec.ofNat 32 (leNat ((bs.drop (4 * w)).take 4))))

/-- SST (R68). -/
def execSst (x : Fin 144) (sp : BitVec 2) (b : BitVec 5) (s : State) : Out :=
  .next (s.xcDo x 2 fun s =>
    s.localStore x (alignLocal (s.xg x b.toNat) 16)
      ((List.range 4).flatMap fun w => leBytes 4 (s.xs x sp.toNat w).toNat))

/-- SSET (R68). -/
def execSset (x : Fin 144) (sp : BitVec 2) (b : BitVec 5) (w : BitVec 2) (s : State) : Out :=
  .next (s.xcDo x 1 fun s => s.setXs x sp.toNat w.toNat (s.xg x b.toNat))

/-- SGET (R68). -/
def execSget (x : Fin 144) (a : BitVec 5) (sp : BitVec 2) (w : BitVec 2) (s : State) : Out :=
  .next (s.xcDo x 1 fun s => s.setXg x a.toNat (s.xs x sp.toNat w.toNat))

/-- The address after the body of a REP at an address, or none where the body makes it illegal (R69). -/
def State.bodyEnd (s : State) (x : Nat) : Nat → Nat → Option Nat
  | 0, a => some a
  | n + 1, a =>
    if localTop ≤ a then none
    else match decodeIb (.xc 0) (leNat (s.loadBytes (XC_MEM x + a) 4)) 0 <|>
        decodeIx 0 (leNat (s.loadBytes (XC_MEM x + a) 4)) with
      | some i =>
        if endsBody i ∨ localTop < a + 4 * instrWords i then none
        else s.bodyEnd x n (a + 4 * instrWords i)
      | none => none

/-- REP (R69). -/
def execRep (x : Fin 144) (a : BitVec 5) (lenM1 : BitVec 4) (s : State) : Out :=
  .next <|
    let first := (s.xcAt x).pc + 4
    let count := (s.xg x a.toNat).toNat
    match s.bodyEnd x (lenM1.toNat + 1) first.toNat with
    | none => if s.xcLive x then s.xcIllegal x else s
    | some e =>
      if count = 0 then s.xcStep x 1 2 (some (BitVec.ofNat 32 e)) id id
      else s.xcStep x 1 2 none (fun s => s.onXc x fun c =>
        { c with rep := some { first := first, after := BitVec.ofNat 32 e, left := count } }) id

end Sys2Proof.Machine
end

