-- ==== Sys2Proof/Machine/Tiles.lean ====
section
/-!
DEFINITION. A tile from its dispatch to the coverage store (R84, R85, R95, R102, R109 to R114): cores,
prefetch, start, hand-over, the vote and release as zero dose.
-/

namespace Sys2Proof.Machine

/-! ### Lines and windows (R101) -/

/-- E and R of a plane-band (R101). -/
def JobSt.readLine (j : JobSt) (p : Nat) (band : Int) : Int := band + j.omin p - j.hdr.lead - 1
def renderStart (e : Int) : Int := e / 64 * 64 - 64

/-- The line event R of a tile. -/
def State.tileR (s : State) (t : TileSt) : Int :=
  match s.jobAt t.job with
  | some j => renderStart (j.readLine t.key.plane t.key.band)
  | none => renderStart t.key.band

/-- The product lane of a tile, by its own job. -/
def State.tileLane (s : State) (t : TileSt) : Nat :=
  match s.jobAt t.job with | some j => (j.hdr.laneOf (256 * t.key.col)).getD 0 | none => 0

/-- The tile's job is feed-paced. -/
def State.tileFeed (s : State) (t : TileSt) : Bool :=
  match s.jobAt t.job with | some j => j.hdr.feed | none => false

def State.onTile (s : State) (key : TileKey) (f : TileSt → TileSt) : State :=
  s.onAdm fun a => { a with tiles := a.tiles.map fun t => if t.key = key then f t else t }

def State.findTile (s : State) (key : TileKey) : Option TileSt :=
  s.adm.tiles.find? fun t => decide (t.key = key)

/-- INFO of a tile's fault (R422). -/
def TileKey.info (k : TileKey) : Nat := k.band % 65536 + 256 * k.col * 65536 + k.plane * 2 ^ 32

/-! ### Cores (R102) -/

/-- The declared costs queued on a core: of the tiles to come and of what is left of the one running. -/
def State.coreQueue (s : State) (x : Nat) : Nat :=
  s.adm.tiles.foldl (fun acc t => t.renders.foldl (fun acc r =>
    if r.core ≠ x then acc
    else match r.phase with
      | .queued | .fetched _ => acc + t.cost + 64
      | .running => acc + (t.cost - (s.xcAt x).cycles)
      | _ => acc) acc) 0

/-- The core whose queue finishes earliest, outside some clusters; R16 decides among equals. -/
def State.nextCore (s : State) (clusters : List Nat) : Option Nat :=
  let ok := fun x => s.unit x == 0 && !clusters.contains (x / 8)
  let free := (List.range 144).filter ok
  let best := minOf (free.map s.coreQueue)
  rrGrant 144 (s.top.rrPtr.get 0 rrCore) (fun x => ok x && s.coreQueue x == best)

/-- A core is picked. -/
def State.pickCore (s : State) (clusters : List Nat) : Option Nat × State :=
  match s.nextCore clusters with
  | none => (none, s)
  | some x => (some x, s.grant rrCore 144 x)

def Render.queued (x : Nat) : Render :=
  { core := x, phase := .queued, crc := 0, illegal := false, overrun := false, vmiss := 0, bytes := [] }

/-- The pair of a tile: two cores in different clusters. DESIGN CHOICE (log 78): with cores in service in fewer than
two clusters, the tile has one render or none, and its vote leaves it unresolved. -/
def State.pickPair (s : State) : List Render × State :=
  match s.pickCore [] with
  | (none, s) => ([], s)
  | (some x, s) =>
    match s.pickCore [x / 8] with
    | (none, s) => ([Render.queued x], s)
    | (some y, s) => ([Render.queued x, Render.queued y], s)

/-! ### Zero dose (R112, R114) -/

/-- The 16 KiB of a tile's slot are cleared. -/
def State.clearSlot (s : State) (slot : Option Nat) : State :=
  match slot with
  | some n => s.clearBytes (COV_SLOT n) 0x4000
  | none => s

/-- A tile slot that no tile occupies. DESIGN CHOICE: the lowest one. -/
def State.freeTileSlot (s : State) : Option Nat :=
  (List.range 4096).find? fun n => !s.adm.tiles.any fun t => t.slot == some n

/-- The tiles whose render start has come take their slots (R103), in the order of dispatch; coverage that
no render gives is 0. -/
def State.takeSlots (s : State) : State :=
  s.adm.tiles.foldl (fun s t =>
    if t.slot.isSome ∨ s.lastLn < s.tileR t then s
    else match s.freeTileSlot with
      | none => s
      | some n =>
        let s := s.onTile t.key fun t => { t with slot := some n }
        if t.fate = .waiting then s else s.clearSlot (some n)) s

/-- A tile is released as zero dose: its late renders are discarded. -/
def State.releaseZero (s : State) (key : TileKey) : State :=
  match s.findTile key with
  | none => s
  | some t =>
    let width := match s.jobAt t.job with | some j => j.hdr.width key.plane | none => 65536
    let s := (s.clearSlot t.slot).onTile key fun t => { t with
      fate := .zero,
      renders := t.renders.filter fun r => decide (r.phase = .running) || decide (r.phase = .handed) }
    (((s.unresolved key width).count (ADM_CNT 1)).setEvt BLK_ADM 4).fault 0x1103 0xFF key.info

/-- RELEASED_AS_ZERO_DOSE (R112): a tile of a line-paced job not accepted by line event R + 64. -/
def execReleasedAsZeroDose (p : Fin 8) (band : BitVec 64) (col : Fin 256) (s : State) : Out :=
  let key : TileKey := { plane := p, band := band.toNat, col := col }
  .next <|
    match s.findTile key with
    | some t =>
      if t.fate = .waiting ∧ s.tileFeed t = false ∧ s.tileR t + 64 ≤ s.lastLn then s.releaseZero key
      else s
    | none => s

/-! ### Prefetch (R95) -/

/-- The first tile in the order of dispatch that waits on a core for a phase. -/
def State.nextOn (s : State) (x : Nat) (test : RenderPhase → Bool) : Option TileSt :=
  s.adm.tiles.find? fun t =>
    decide (t.fate = .waiting) && t.renders.any fun r => r.core == x && test r.phase

def RenderPhase.isFetched : RenderPhase → Bool
  | .fetched _ => true
  | _ => false

/-- The render of a tile on a core enters a phase. -/
def State.setPhase (s : State) (key : TileKey) (x : Nat) (ph : RenderPhase) : State :=
  s.onTile key fun t => { t with
    renders := t.renders.map fun r => if r.core = x then { r with phase := ph } else r }

/-- Local base of a fetch area. -/
def areaBase (b : Bool) : Nat := if b then areaSize else 0

/-- A range holds a poisoned line. -/
def State.poisoned (s : State) (a n : Nat) : Bool :=
  (List.range (blocksOf a n)).any fun i => s.poison.get false (a / 64 + i)

/-- The bytes that an entry of a fetch list copies, cut at the end of the area. -/
def fetchLen (e : Nat) : Nat := min (lstLen e) (areaSize - lstDst e)

/-- The source of a core's prefetches in port 0: the arbiter sees its cluster (R18). -/
def fetchSrc (x : Nat) : Nat := x / 8 + 18 * (x % 8)

/-- One entry of a fetch list copied: its last block closes its row (R299), and poisoned lines are reported
(R309). -/
def State.fetchEntry (s : State) (x : Nat) (area : Bool) (e : Nat) : Bool × State :=
  let a := lstSrc e
  let n := fetchLen e
  let m := (n - 1) / 64 * 64
  let s := (s.dramReads (0, fetchSrc x) .keep [(a, m)]).dramReads (0, fetchSrc x) .close [(a + m, n - m)]
  let bad := s.poisoned a n
  let (bs, s) := s.memLoad .xc a n
  (bad, s.storeBytes (XC_MEM x + areaBase area + lstDst e) bs)

/-- PREFETCH (R95): the fetch list of the core's next tile is copied into its next fetch area. Of two
entries whose destinations overlap either may be the later. A copy that must wait for DRAM has not begun. -/
def execPrefetch (x : Fin 144) (s : State) : Out :=
  .next <| s.whenClocked BLK_XC fun s =>
    match s.nextOn x (fun ph => decide (ph = .queued)) with
    | none => s
    | some t =>
      if (s.nextOn x RenderPhase.isFetched).isSome ∨ s.lastLn < s.tileR t - 64 then s
      else
        let es := (List.range (min 4096 (s.listLen t.fl))).map (s.listEnt t.fl)
        match s.dramStalls (0, fetchSrc x) false .keep ((t.fl, 16 * (es.length + 1)) :: es.map fun e => (lstSrc e, fetchLen e)) with
        | some s => s
        | none =>
        let area := (s.xcAt x).area
        let n := 16 * (es.length + 1)
        let (d, s) := (s.dramReads (0, fetchSrc x) .keep [(t.fl, n)]).draw
        let es := if Config.freeBit d 0 then es.reverse else es
        let es := if s.permitsAll .xc t.fl n false then es else []
        let bad := s.poisoned t.fl n
        let s := (s.memLoad .xc t.fl n).2
        let r := es.foldl (fun (acc : Bool × State) e =>
          let q := acc.2.fetchEntry x area e
          (acc.1 || q.1, q.2)) (bad, s)
        let s := r.2.onTile t.key fun t => { t with fetchBad := t.fetchBad || r.1 }
        s.setPhase t.key x (.fetched area)

/-! ### Field windows (R82, R85) -/

/-- The bit of a product's field at a tile dot. The bits of a field whose bitmap does not lie in the heap are
free, and the same in every render (R90): those of draw `d` at index `ix`.
DESIGN CHOICE (log 78): a WIDTH above 4,096 or a HEIGHT above 1,024 acts as the number that its bits give. -/
def State.fieldBit (s : State) (d ix : Nat) (p : ProdRef) (f : Nat) (dot : Nat) (line : Int) : Bool :=
  let e := varEntry p.num.toNat f
  let w := s.loadNat (e + 12) 2 % 8192
  let h := s.loadNat (e + 14) 2 % 2048
  let col := (dot : Int) - s.loadNat (e + 8) 2
  let row := line - ((p.origin : Int) + s.loadNat (e + 10) 2)
  if 0 ≤ col ∧ col < w ∧ 0 ≤ row ∧ row < h then
    let heap := 32 * s.loadNat (e + 4) 2
    if heap < 0x10000 ∨ 0x200000 < heap + h * (4 * ceilDiv w 32) then Config.freeBit d ix
    else
      (memByte s.mem (VAR_STORE + heap + row.toNat * (4 * ceilDiv w 32) + col.toNat / 8)).getLsbD
        (col.toNat % 8)
  else false

/-- Eight bits as a byte, bit 0 first. -/
def byteOf (f : Nat → Bool) : Byte :=
  BitVec.ofNat 8 ((List.range 8).foldl (fun acc i => acc + b2n (f i) * 2 ^ i) 0)

/-- Window w of a tile: 2 KiB. -/
def State.fieldWindow (s : State) (t : TileSt) (w : Nat) : List Byte :=
  let prod := if w < 4 then t.p0 else t.p1
  (List.range 2048).map fun i =>
    match prod with
    | some p =>
      if t.ready.getLsbD w then
        byteOf fun b => s.fieldBit t.bits (16384 * w + 8 * i + b) p (w % 4) (256 * t.key.col + i % 32 * 8 + b)
          ((t.key.band : Int) + i / 32)
      else 0
    | none => 0

/-- TILE_START (R59, R102): the next fetched tile of an idle core starts, from line event R on. -/
def execTileStart (x : Fin 144) (s : State) : Out :=
  .next <| s.whenClocked BLK_XC fun s =>
    match s.nextOn x RenderPhase.isFetched with
    | none => s
    | some t =>
      let c := s.xcAt x
      let area := t.renders.any fun r => r.core == x && decide (r.phase = .fetched true)
      if c.tile.isSome ∨ c.handed.isSome ∨ s.lastLn < s.tileR t then s
      else
        let base := areaBase area
        let g1 : Word := BitVec.ofNat 32 (256 * t.key.col)
        let g2 : Word := BitVec.ofNat 32 t.key.band
        let g3 : Word := BitVec.ofNat 32 t.key.plane
        let g4 : Word := BitVec.ofNat 32 (base + 16 * t.dofs)
        let s := if t.fw then
            s.storeBytes (XC_MEM x + 0x34000) ((List.range 8).flatMap fun w => s.fieldWindow t w)
          else s
        let s := s.onXc x fun c => { c with
          g := [], pc := BitVec.ofNat 32 (base + t.entry), v := [], sp := [], level := 255, vmiss := 0,
          tile := some t.key, start1 := g1, start2 := g2, start3 := g3, start5 := t.g5,
          windows := t.fw, ready := t.ready, cycles := 0, cost := t.cost, rep := none, area := !area }
        let s := (((s.setXg x 1 g1).setXg x 2 g2).setXg x 3 g3).setXg x 4 g4
        (s.setXg x 5 t.g5).setPhase t.key x .running

/-- BUFFER_READ_AND_CLEAR (R58): the buffer handed over goes to the band assembler and is cleared. -/
def execBufferReadAndClear (x : Fin 144) (s : State) : Out :=
  .next <|
    match (s.xcAt x).handed with
    | none => s
    | some h =>
      let base := XC_MEM x + localTop + (if h.buf then 0x4000 else 0)
      let bytes := s.loadBytes base 0x4000
      let s := s.onTile h.tile fun t => { t with
        renders := if t.fate = .waiting then
            t.renders.map fun r =>
              if r.core = x.val ∧ (r.phase = .running ∨ r.phase = .handed) then
                { r with phase := .delivered, crc := h.crc, illegal := h.illegal, overrun := h.overrun,
                         vmiss := h.vmiss,
                         bytes := bytes.zipIdx.filterMap fun (b, i) => if b = 0 then none else some (i, b) }
              else r
          else t.renders.filter fun r => r.core != x.val }
      (s.clearBytes base 0x4000).onXc x fun c => { c with handed := none }

/-! ### Latches of variable fields (R84, R89) -/

/-- A waiting tile refers to a product. -/
def State.refersTo (s : State) (num : Word) : Bool :=
  s.adm.tiles.any fun t => decide (t.fate = .waiting) &&
    ((t.p0.any fun p => p.num == num) || (t.p1.any fun p => p.num == num))

/-- VS_OLDEST: the oldest product whose latch is held, in signed 32-bit order, else the next one. -/
def AdmSt.oldest (a : AdmSt) : Word :=
  match a.latches with
  | [] => a.vsNext
  | l :: rest => rest.foldl (fun m x => if (x.prod.num - m).toInt < 0 then x.prod.num else m) l.prod.num

def State.showOldest (s : State) : State := s.setReg VS_OLDEST s.adm.oldest

/-- The first band of a plane that has not been dispatched when line event X has. -/
def JobSt.undispatched (j : JobSt) (p : Nat) (x : Int) : Int :=
  bandDue j.hdr.lead (j.omin p) (x / 64 * 64 + 192)

/-- The lines that a job gives a product of a latch: none for a lane it lacks; `none` without end. -/
def State.latchLen (s : State) (j : JobSt) (l : FieldLatch) : Option Nat :=
  if j.hdr.trig then some ((j.hdr.prodLen l.lane).getD 0)
  else if s.fld PREP_LEN PREP_LEN_LINES = 0 then none
  else some (s.fld PREP_LEN PREP_LEN_LINES)

/-- Every band that refers to the product of a latch has been dispatched, in each job that is armed, runs
or drains, or lies past the job. -/
def State.productPast (s : State) (l : FieldLatch) : Bool :=
  (s.slotsIn 4 ++ s.slotsIn 5 ++ s.slotsIn 6).all fun k =>
    match s.jobAt k with
    | none => true
    | some j => j.hdr.trig != l.trig || (List.range j.hdr.npl).all fun p =>
      let b := max (j.undispatched p s.lastLn) j.goLn
      decide ((j.stopLn : Int) ≤ b) ||
        match s.latchLen j l with
        | some len => decide (((l.prod.origin + len : Nat) : Int) ≤ b)
        | none => false

/-- Latches whose last tile has been accepted are released (R84, R89). DESIGN CHOICE: a tile released as
zero dose is never accepted, and counts as done. -/
def State.releaseLatches (s : State) : State :=
  (s.onAdm fun a => { a with
    latches := a.latches.filter fun l => s.refersTo l.prod.num || !s.productPast l }).showOldest

/-! ### The vote (R110 to R113) -/

/-- A core leaves service for good: what it had not delivered counts as failed renders (R110, R435). -/
def State.coreLeaves (s : State) (x : Nat) : State :=
  let s := (s.moveUnit x 2).onAdm fun a => { a with
    tiles := a.tiles.map fun t => { t with
      renders := t.renders.map fun r =>
        if r.core = x ∧ r.phase ≠ .delivered then { r with phase := .delivered, illegal := true }
        else r } }
  s.onXc x fun c => { XcSt.reset with buf := c.buf, area := c.area }

/-- A core is retired (R429): a test of it ends, and the retirement is reported. -/
def State.retireCore (s : State) (x : Nat) : State :=
  ((s.abandonTest x).coreLeaves x).setEvt BLK_ST 1

/-- One core's render mismatch; the third within 10 s retires it (R113). -/
def State.mismatch (s : State) (key : TileKey) (x : Nat) : State :=
  let (l, s) := s.faultCounted 0x1142 x key.info 3 (10 * ticksSec)
  if l then (s.retireCore x).fault 0x2143 x else s

/-- A render is valid (R110). -/
def TileSt.valid (t : TileSt) (r : Render) : Bool := !r.illegal && !t.fetchBad

/-- Two renders agree (R110). -/
def TileSt.agree (t : TileSt) (a b : Render) : Bool :=
  t.valid a && t.valid b && a.crc == b.crc && a.overrun == b.overrun && a.vmiss == b.vmiss

/-- The first render that agrees with a later one. -/
def TileSt.majority (t : TileSt) : List Render → Option Render
  | [] => none
  | r :: rest => if rest.any (t.agree r) then some r else t.majority rest

/-- The buffer of a render is written to the tile's slot (R103, R110). -/
def State.writeSlot (s : State) (slot : Option Nat) (bytes : Tbl Byte) : State :=
  match slot with
  | some n => s.storeBytes (COV_SLOT n) ((List.range 0x4000).map fun i => bytes.get 0 i)
  | none => s

/-- A tile is accepted with a render (R110, R113). -/
def State.acceptTile (s : State) (t : TileSt) (r : Render) : State :=
  let s := (s.writeSlot t.slot r.bytes).onTile t.key fun t => { t with
    fate := .accepted, vmiss := r.vmiss, renders := [] }
  let lane := s.tileLane t
  let s := (List.range 8).foldl (fun s w =>
    if r.vmiss.getLsbD w then
      match if w < 4 then t.p0 else t.p1 with
      | some p => s.varMiss p lane (w % 4)
      | none => s
    else s) s
  let s := t.renders.foldl (fun s q =>
    if decide (q.phase = .delivered) && q.crc != r.crc then s.mismatch t.key q.core else s) s
  let s := if r.overrun then
      ((s.count (ADM_CNT 2)).setEvt BLK_ADM 3).fault 0x0101 0xFF t.key.info
    else s
  s.releaseLatches

/-- A tile is unresolved: every core that took part counts a mismatch (R112, R113). -/
def State.unresolvedTile (s : State) (t : TileSt) : State :=
  let s := t.renders.foldl (fun s q => s.mismatch t.key q.core) s
  (s.releaseZero t.key).releaseLatches

/-- Core-cycles of the third-render reserve of a window (R111). -/
def State.thirdReserve (s : State) (j : JobSt) : Nat :=
  min 126 s.ncap * 2000000000 * 64 / (20 * j.hdr.fdecl)

/-- The least line period, in units of 625 ps (R153). -/
def State.tmin (s : State) : Nat := max (s.fld LC_TMIN LC_TMIN_TMIN) (s.fld LC_TADM LC_TADM_TADM)

/-- A render of a tile on a core can end before R + 64 at the cost it is charged (R111): after what is queued
on the core, at 2 GHz. DESIGN CHOICE: the lines left are counted at the least line period. -/
def State.canEnd (s : State) (t : TileSt) (x : Nat) : Bool :=
  let since := match s.lc.lastEmit with | some e => 16 * s.now - e | none => 0
  let left := (s.tileR t + 64 - s.lastLn).toNat * s.tmin - since
  decide (4 * (s.coreQueue x + t.cost + 64) ≤ 5 * left)

/-- A further render starts if it may (R111, R114): in a line-paced job within the reserve, which is one per
window for both slots, and where it can end in time; on a cluster that has not rendered the tile (DESIGN
CHOICE for the fourth and the fifth render, and for the reserve). -/
def State.furtherRender (s : State) (t : TileSt) : State :=
  let window := ((s.tileR t) / 64).toNat
  let feed := s.tileFeed t
  let used := t.renders.map fun r => r.core / 8
  let fits := match s.jobAt t.job, s.nextCore used with
    | some j, some x =>
      decide (s.adm.third.get 0 window + t.cost + 64 ≤ s.thirdReserve j) && s.canEnd t x
    | _, _ => false
  if !(feed || fits) then s.unresolvedTile t
  else
    match s.pickCore used with
    | (none, s) => s.unresolvedTile t
    | (some x, s) =>
      let s := if feed then s else s.onAdm fun a => { a with
        third := a.third.upd 0 window (· + t.cost + 64) }
      let s := s.onTile t.key fun t => { t with renders := t.renders ++ [Render.queued x] }
      s.count (ADM_CNT 0)

/-- A line-paced tile whose line event R + 64 has come (R112). -/
def State.tileLate (s : State) (t : TileSt) : Bool :=
  !s.tileFeed t && decide (s.tileR t + 64 ≤ s.lastLn)

/-- VOTE (R110): the renders of a tile are compared once all that were started are delivered; from line
event R + 64 on a line-paced tile is released as zero dose (R112). -/
def execVote (p : Fin 8) (band : BitVec 64) (col : Fin 256) (s : State) : Out :=
  let key : TileKey := { plane := p, band := band.toNat, col := col }
  .next <|
    match s.findTile key with
    | none => s
    | some t =>
      if t.fate ≠ .waiting ∨ t.renders.any (fun r => decide (r.phase ≠ .delivered)) then s
      else if s.tileLate t then s.releaseZero key
      else if t.fetchBad then s.unresolvedTile t
      else match t.majority t.renders with
        | some r => s.acceptTile t r
        | none =>
          if t.renders.length < 2 ∨ (if s.tileFeed t then 5 else 3) ≤ t.renders.length then
            s.unresolvedTile t
          else s.furtherRender t

end Sys2Proof.Machine
end

