-- ==== Sys2Proof/Machine/Setter.lean ====
section
/-!
DEFINITION. The Setter while jobs run (R84, R92, R98, R101, R114, R117 to R120): START, RELEASE, seams,
dispatch of plane-bands, and rate changes.
-/

namespace Sys2Proof.Machine

/-! ### The minimum line period (R119, R153) -/

/-- A slot's last plane-band is due at or before the last line event. -/
def State.lastDue (s : State) (job : JobSt) (stop : Nat) : Bool :=
  (List.range job.hdr.npl).all fun p =>
    decide (renderStart (job.readLine p ((stop : Int) - 64)) ≤ s.lastLn)

/-- The slot's last plane-band is due, and the other slot's job follows it at a seam. -/
def State.handedOn (s : State) (j : Nat) : Bool :=
  let other := s.slotState (1 - j)
  match s.jobAt j, s.jobAt (1 - j) with
  | some job, some next =>
    (s.slotState j == 6 && other == 5 || other == 4) && s.lastDue job (min job.stopLn next.goLn)
  | _, _ => false

/-- The admitted rates that bound the line period: of an armed job from its accepted START, of a running or
draining one until its last plane-band is due before a seam. -/
def State.ratesInForce (s : State) : List Nat :=
  [0, 1].filterMap fun j =>
    let rate := (s.reg (ADM_RATE j)).toNat
    match s.slotState j with
    | 4 => some rate
    | 5 => if s.handedOn j then none else some rate
    | 6 => if s.handedOn j then none else some rate
    | _ => none

/-- ceil(1.6e9 / rate) as LC_TADM holds it; a rate of 0 gives the longest period. -/
def tadmOf (rate : Nat) : Nat := if rate = 0 then 0xFFFFFF else min 0xFFFFFF (ceilDiv 1600000000 rate)

/-- TADM for the next line event. -/
def State.tadmUpdate (s : State) : State :=
  let t := if s.ratesInForce.isEmpty then 0 else tadmOf (minOf s.ratesInForce)
  s.onLc fun l => { l with tadmNext := t }

/-! ### Windows to the Sagger (R415) -/

/-- The admission unit sends a slot's window. -/
def State.sendWindow (s : State) (j lo hi : Nat) : State :=
  s.onSi fun i => { i with winSent := i.winSent.set none j (some { slot := j, lo := lo, hi := hi }) }

/-! ### START and RELEASE (R117 to R119) -/

/-- START is refused (R118). -/
def State.refuseStart (s : State) (j reason : Nat) : State :=
  (s.setFld (ADM_SLOT_STAT j) ADM_SLOT_STAT_REASON reason).setEvt BLK_ADM j

/-- The demand of a transition window, and whether bands of both jobs are due in it (R118): those that a job
renders. -/
def State.transition (s : State) (old new : JobSt) (go : Nat) (r : Int) : Demand × Bool :=
  let parts := (List.range new.hdr.npl).map fun p =>
    let b := bandDue new.hdr.lead (new.omin p) r
    if (go : Int) ≤ b then
      if b < new.hdr.endLn ∧ new.rendersFrom ≤ b then (s.bandDemand new.hdr p b, some true) else (Demand.zero, none)
    else if old.rendersFrom ≤ b ∧ b < old.stopLn then (s.bandDemand old.hdr p b, some false)
    else (Demand.zero, none)
  (parts.foldl (fun d x => d.add x.1) Demand.zero,
    parts.any (fun x => x.2 == some true) && parts.any (fun x => x.2 == some false))

/-- SEAM_LOAD: some transition window fails R104 at the lower of the two admitted rates. -/
def State.seamLoad (s : State) (old new : JobSt) (f go : Nat) : Bool :=
  let rs := (List.range new.hdr.npl).map fun p => renderStart (new.readLine p go)
  let lo := (rs.min?).getD 0
  let hi := (rs.max?).getD 0
  let n := min 126 s.ncap
  decide (4096 < s.storeNeed new.hdr) ||
  (List.range (((hi - lo) / 64).toNat + 1)).any fun (i : Nat) =>
    let (d, both) := s.transition old new go (lo + 64 * (i : Int))
    both && !(ratioOk (computeRatio n f d.work) &&
      ratioOk (dramRatio (min old.hdr.blay new.hdr.blay) f d.bytes) && tileOk f d.cost)

/-- Two jobs may join at a seam (R118). -/
def seamFits (a b : JobHdr) : Bool :=
  a.feed == b.feed && a.dwc == b.dwc && a.lead == b.lead && a.npl == b.npl &&
    a.widths.take a.npl == b.widths.take b.npl

/-- START of an admitted slot. DESIGN CHOICE (log 78): with PREP_LEN = 0 product 0 is numbered again at every
START that runs a slot while none runs. -/
def State.startSlot (s : State) (j : Nat) (job : JobSt) : State :=
  let go := s.reg64 GO_LN_LO GO_LN_HI
  let o := 1 - j
  let running := s.slotState o == 5 || s.slotState o == 6
  if go % 64 ≠ 0 ∨ (go : Int) < s.lastLn + 320 + job.hdr.lead then s.refuseStart j 14
  else
    let job' := { job with goLn := go, stopLn := job.hdr.endLn }
    match running, s.jobAt o with
    | true, some old =>
      let f := min (s.reg (ADM_RATE j)).toNat (s.reg (ADM_RATE o)).toNat
      if !seamFits old.hdr job.hdr then s.refuseStart j 12
      else if s.seamLoad old job' f go then s.refuseStart j 13
      else (((s.setJob j (some job')).setSlotState j 4).sendWindow j go job'.stopLn).tadmUpdate
    | _, _ =>
      let s := ((s.setJob j (some job')).setSlotState j 5).sendWindow j go job'.stopLn
      let s := if job.hdr.trig then s.onLc fun l => { l with prepNext := none }
               else (s.beginRepeats go).numberRepeats
      s.tadmUpdate

/-- START (R117): in ADMITTED only. -/
def State.startCmd (s : State) (j : Nat) : State :=
  if s.slotState j = 2 then
    match s.jobAt j with
    | some job => s.startSlot j job
    | none => s
  else s.ignored (SLOT_CMD j)

def execSlotStart (j : Fin 2) (s : State) : Out :=
  .next (s.whenAwake (SLOT_CMD j) fun s => s.startCmd j)

/-- A RUNNING slot drains from an LN on (R119). -/
def State.drain (s : State) (j stop : Nat) : State :=
  match s.jobAt j with
  | none => s.setSlotState j 6
  | some job =>
    (((s.setJob j (some { job with stopLn := stop })).setSlotState j 6).sendWindow j job.goLn
      stop).tadmUpdate

/-- The first band that no plane has dispatched. -/
def State.firstOpen (s : State) (job : JobSt) : Nat :=
  max job.goLn (maxOf ((List.range job.hdr.npl).map fun p =>
    (job.undispatched p s.lastLn).toNat))

/-- RELEASE (R117, R119). DESIGN CHOICE (log 78): VERDICT, REASON, BIND, ADM_RATE, ADM_MARGIN and ADM_WORST of
a slot that becomes IDLE keep their last values. -/
def State.releaseCmd (s : State) (j : Nat) : State :=
  match s.slotState j with
  | 2 => (s.setSlotState j 0).setJob j none
  | 3 => (s.setSlotState j 0).setJob j none
  | 4 => ((s.setSlotState j 2).sendWindow j 0 0).tadmUpdate
  | 5 => match s.jobAt j with
    | some job => s.drain j (min job.stopLn (s.firstOpen job))
    | none => s.setSlotState j 6
  | _ => s.ignored (SLOT_CMD j)

def execRelease (j : Fin 2) (s : State) : Out :=
  .next (s.whenAwake (SLOT_CMD j) fun s => s.releaseCmd j)

/-! ### Dispatch (R98, R101, R114) -/

/-- Which slot renders a band of a plane (R92, R119). -/
def State.bandSlot (s : State) (b : Int) : Option (Nat × JobSt) :=
  let of_ := fun (js : List Nat) => js.findSome? fun j =>
    match s.jobAt j with
    | some job => if job.ownsLine b then some (j, job) else none
    | none => none
  let armed := (s.slotsIn 4).any fun j =>
    match s.jobAt j with
    | some job => decide ((job.goLn : Int) ≤ b)
    | none => false
  match of_ (if armed then s.slotsIn 4 else s.slotsIn 5 ++ s.slotsIn 6) with
  | some (j, job) => if job.rendersFrom ≤ b then some (j, job) else none
  | none => none

/-- A seam takes effect, or a job reaches END, at the dispatch of a band. DESIGN CHOICE (log 78): at a seam from
a triggered to a continuous job the repeats begin at the seam's first band dispatched. -/
def State.slotsAtBand (s : State) (b : Int) : State :=
  let s := (s.slotsIn 4).foldl (fun s j =>
    match s.jobAt j with
    | none => s
    | some job =>
      if (job.goLn : Int) ≤ b then
        let s := if s.slotState (1 - j) = 5 then s.drain (1 - j) job.goLn else s
        let s := ((s.setSlotState j 5).setEvt BLK_ADM 2).sendWindow j job.goLn job.stopLn
        let s := if job.hdr.trig then s.onLc fun l => { l with prepNext := none }
                 else if s.lc.prepNext.isNone then s.beginRepeats job.goLn else s
        s.tadmUpdate
      else s) s
  (s.slotsIn 5).foldl (fun s j =>
    match s.jobAt j with
    | none => s
    | some job => if (job.stopLn : Int) ≤ b then s.drain j job.stopLn else s) s

/-- P0 and P1 of a tile (R59). DESIGN CHOICE (log 78): R175 gives repeats for k ≥ 0 alone; a band before
PREP_ORG lies in one with k < 0, which takes the numbers before the first, and an origin below 0 acts as 0. -/
def State.tileProducts (s : State) (h : JobHdr) (band col : Nat) : Option ProdRef × Option ProdRef :=
  if h.trig then
    let p0 := s.owner h band (256 * col)
    let p1 := match h.laneOf (256 * col) with
      | some lane => s.nextProduct lane band (band + 64)
      | none => none
    (p0.map fun p => ⟨p.num, p.origin⟩, p1.map fun p => ⟨p.num, p.origin⟩)
  else
    let (k, o) := s.repeatAt band
    let o1 := o + s.prepLen
    (some ⟨s.repeatNum k o, o.toNat⟩,
      if s.prepLen ≠ 0 ∧ o1 < band + 64 then some ⟨s.repeatNum (k + 1) o1, o1.toNat⟩ else none)

/-- g5 (R59). -/
def g5Of (band : Nat) (p0 p1 : Option ProdRef) : Word :=
  let poff := match p0 with | some p => min 0xFFFFFF (band - p.origin) | none => 0
  let next := match p1 with | some p => p.origin - band | none => 0
  BitVec.ofNat 32 (poff + next % 64 * 2 ^ 24 + b2n p0.isNone * 2 ^ 31)

/-- The address of a tile's band descriptor and its index in the table; none outside every lane. -/
def JobHdr.tilePlace (h : JobHdr) (p band col : Nat) (p0 : Option ProdRef) : Option (Nat × Nat) :=
  if h.trig then
    match h.laneOf (256 * col) with
    | none => none
    | some lane => (h.lanes[lane]?).map fun l =>
      let nk := l.groups - 1
      let k := match p0 with | some q => min nk ((band - q.origin) / 64) | none => nk
      (h.groupAddr l k p, col - l.x0 / 256)
  else some (h.descAddr (h.cycleBand band) p, col)

/-- R84: the readiness of a product's fields is latched once. -/
def State.latchFields (s : State) (p : ProdRef) (trig : Bool) (lane : Nat) : State :=
  if s.adm.latches.any fun l => l.prod.num == p.num then s
  else
    let shut := s.adm.latches.any fun l => l.prod.num.toNat % 1024 == p.num.toNat % 1024
    let ready : BitVec 4 := BitVec.ofNat 4 <| (List.range 4).foldl (fun acc f =>
      let e := varEntry p.num.toNat f
      let ok := !shut && (s.loadNat (e + 4) 4).testBit 31 && s.loadNat e 4 == p.num.toNat
      acc + b2n ok * 2 ^ f) 0
    (s.onAdm fun a => { a with
      latches := a.latches ++ [{ prod := p, trig := trig, lane := lane, ready := ready }],
      vsNext := if (p.num + 1 - a.vsNext).toInt < 0 then a.vsNext else p.num + 1 }).showOldest

def State.readyOf (s : State) (p : Option ProdRef) : Nat :=
  match p with
  | none => 0
  | some p => match s.adm.latches.find? fun l => l.prod.num == p.num with
    | some l => l.ready.toNat
    | none => 0

/-- The sums admitted for a window of a job (R114). -/
def JobSt.admitted (job : JobSt) (r : Int) : Nat × Nat :=
  let i := if job.hdr.trig then 0 else ((r - job.hdr.origin) / 64 % (job.hdr.ncyc : Int)).toNat
  job.sums.getD i (0, 0)

/-- Sums that the dispatch adds to a window. -/
def State.spend (s : State) (key work bytes : Nat) : State :=
  s.onAdm fun a => { a with spent := a.spent.upd (0, 0) key fun (w, b) => (w + work, b + bytes) }

/-- The Setter reads a part of a job's tables in memory (R13, R305, R309). -/
def State.tableRead (s : State) (a n : Nat) : State :=
  ((s.dramTouch (0, 0) .keep a n).reportLines a n).blockUnmapped BLK_ADM a n

/-- One tile of a plane-band is dispatched. -/
def State.dispatchTile (s : State) (j : Nat) (job : JobSt) (p band col : Nat) (r : Int) : State :=
  let h := job.hdr
  let key : TileKey := { plane := p, band := band, col := col }
  let (p0, p1) := s.tileProducts h band col
  let blank : TileSt :=
    { key := key, job := j, blank := true, cost := 0, entry := 0, fl := 0, dofs := 0, fw := false,
      g5 := g5Of band p0 p1, p0 := p0, p1 := p1, ready := 0, fetchBad := false, renders := [],
      fate := .accepted, vmiss := 0, slot := none, bits := 0 }
  let push := fun (t : TileSt) (s : State) => s.onAdm fun a => { a with tiles := a.tiles ++ [t] }
  match h.tilePlace p band col p0 with
  | none => push blank s
  | some (desc, i) =>
    let d := s.loadNat desc 8
    let e := s.tileEnt (d % 2 ^ 48 + 16 * i)
    let s := (s.tableRead desc 8).tableRead (d % 2 ^ 48 + 16 * i) 16
    let fw := d.testBit 48
    let lane := (h.laneOf (256 * col)).getD 0
    let s := if fw then
        let s := match p0 with | some q => s.latchFields q h.trig lane | none => s
        match p1 with | some q => s.latchFields q h.trig lane | none => s
      else s
    let win := 2 * (r / 64).toNat + j
    let need := s.tileDemand e
    let used := s.adm.spent.get (0, 0) win
    let cap := job.admitted r
    let beyond : Bool := decide (cap.1 < used.1 + need.work) || decide (cap.2 < used.2 + need.bytes)
    let t : TileSt :=
      if entBlank e then blank
      else { blank with
        blank := false, cost := entCost e, entry := entEntry e, fl := entFl e, dofs := entDofs e,
        fw := fw, ready := BitVec.ofNat 8 (s.readyOf p0 + 16 * s.readyOf p1), fate := .waiting }
    if beyond then
      let s := (push t s).releaseZero key
      ((s.count (ADM_CNT 3)).setEvt BLK_ADM 5).fault 0x0102 0xFF key.info
    else if entBlank e then push t (s.spend win need.work need.bytes)
    else
      let (rs, s) := (s.spend win need.work need.bytes).pickPair
      let (d, s) := if fw then s.draw else (0, s)
      push { t with renders := rs, bits := d } s

/-- The plane-band of a plane that is dispatched at line event X (R101). -/
def State.dispatchPlane (s : State) (lead omin p x : Nat) : State :=
  let r : Int := (x : Int) + 128
  let b := bandDue lead omin r
  let s := s.slotsAtBand b
  if b < 0 then s
  else match s.bandSlot b with
    | none => s
    | some (j, job) =>
      let descs := if job.hdr.trig then job.hdr.lanes.length else 1
      let s := s.spend (2 * (r / 64).toNat + j) 0 (8 * descs)
      s.each (tilesOf (job.hdr.width p)) fun col s => s.dispatchTile j job p b.toNat col r

/-! ### At a line event -/

/-- A slot is IDLE once its last plane-band has been read (R117). -/
def State.drained (s : State) (x j : Nat) : State :=
  match s.slotState j, s.jobAt j with
  | 6, some job =>
    let done := decide (job.stopLn ≤ job.goLn) || (List.range job.hdr.npl).all fun p =>
      decide (((job.stopLn : Int) - 64) + job.omax p + 62 - job.hdr.lead < x)
    if done then
      (((s.setSlotState j 0).setJob j none).onAdm fun a => { a with
        past := job :: a.past.filter fun q => decide ((x : Int) < q.stopLn + 262144) }).tadmUpdate
    else s
  | _, _ => s

/-- Tiles whose plane-band has been read leave the coverage store (R101). DESIGN CHOICE (log 78): the plane-band
leaves at the line event after its last read, also when a packet set of an earlier line still waits or is in
progress (R156); what that set has not read yet of it reads as coverage 0. -/
def State.leaveStore (s : State) (x : Nat) : State :=
  s.onAdm fun a => { a with
    tiles := a.tiles.filter fun t =>
      match s.jobAt t.job with
      | some j => decide ((x : Int) ≤ (t.key.band : Int) + j.omax t.key.plane + 62 - j.hdr.lead)
      | none => false,
    spent := a.spent.filter fun e => decide (x / 64 ≤ e.1 / 2 + 2),
    third := a.third.filter fun e => decide (x / 64 ≤ e.1 + 2) }

/-- A line event X on the Setter. DESIGN CHOICE (log 78): plane-bands that fall due at one line event are
dispatched by plane number. -/
def State.admLine (s : State) (x : Nat) : State :=
  let s := if x % 64 = 0 then
      match s.runJob with
      | some job => s.each job.hdr.npl fun p s => s.dispatchPlane job.hdr.lead (job.omin p) p x
      | none => s
    else s
  let s := (s.leaveStore x).takeSlots.each 2 fun j s => s.drained x j
  s.releaseLatches.tadmUpdate

/-! ### Rate changes (R120) -/

/-- One job's rate for the cores now counted. -/
def State.rerate (s : State) (j : Nat) : State :=
  match s.jobAt j with
  | none => s
  | some job =>
    let old := (s.reg (ADM_RATE j)).toNat
    let new := min (computeRate (min 126 s.ncap) job.dMax) job.fOther
    if new < old then
      ((s.setReg (ADM_RATE j) (BitVec.ofNat 32 new)).setEvt BLK_ADM 6).fault 0x2104 j new
    else if old < new then (s.setReg (ADM_RATE j) (BitVec.ofNat 32 new)).setEvt BLK_ADM 7
    else s

/-- RATE_CHANGE (R120): at a band boundary, or at once while no slot runs. -/
def execRateChange (s : State) : Out :=
  .next <|
    let moving := decide (s.slotState 0 = 5 ∨ s.slotState 0 = 6 ∨ s.slotState 1 = 5 ∨ s.slotState 1 = 6)
    if !s.adm.ratePend ∨ (moving ∧ s.lastLn % 64 ≠ 0) then s
    else
      ((s.onAdm fun a => { a with ratePend := false }).each 2 fun j s => s.rerate j).tadmUpdate

end Sys2Proof.Machine
end

