-- ==== Sys2Proof/Machine/LineClock.lean ====
section
/-!
DEFINITION. Line events (R150 to R161, R172, R175, R177 to R179): minimum period, squeeze and skip, what
every block does at a line event, camera triggers, and the feed-paced stop and resume.
-/

namespace Sys2Proof.Machine

/-! ### The feed-paced hold (R110, R179, R361) -/

/-- The lines E at which plane-bands of a feed-paced job that are not ready are read. -/
def State.feedWaits (s : State) : List Nat :=
  s.adm.tiles.filterMap fun t =>
    match s.jobAt t.job with
    | some job =>
      if job.hdr.feed && t.fate == .waiting then some (job.readLine t.key.plane t.key.band).toNat else none
    | none => none

/-- Line event X: bands whose R + 64 is X and that are not ready make the clock hold at E − 1, whether they
become ready before it or not (R114). -/
def State.feedLate (s : State) (x : Nat) : State :=
  let late := s.feedWaits.filter fun e => decide (x < e) && decide (renderStart e + 64 = x)
  s.onLc fun l => { l with holds := l.holds.filter (fun e => decide (x < e)) ++ late }

/-- The line E, at most N, at which the clock is to hold: by R114, or since R + 64 is E itself and the band is not
ready now. -/
def State.feedPending (s : State) (n : Nat) : Option Nat :=
  ((s.lc.holds ++ s.feedWaits).filter fun e => decide (e ≤ n)).min?

/-- A feed hold stands in the way of line event N. -/
def State.feedBlocks (s : State) (n : Nat) : Bool :=
  match s.lc.holdAt with
  | some e => decide (e ≤ n) && !s.lc.resuming
  | none => (s.feedPending n).isSome

/-- The feed axis, if the line clock's source is one. -/
def State.feedAxis (s : State) : Option Nat :=
  if s.lcSrc = 2 ∧ s.lcUnit < 8 ∧ ¬ s.lc.feedOff then some s.lcUnit else none

/-- FEED_HOLD: at line event E − 1 the line clock holds, and the axis begins a ramp stop. -/
def execFeedHold (s : State) : Out :=
  .next <|
    match s.lc.holdAt, s.feedPending (s.lc.hwm + 1).toNat with
    | none, some e =>
      let s := s.onLc fun l => { l with holdAt := some e, resuming := false }
      let s := ((s.setFld LC_STAT LC_STAT_FEED 1).setFld LC_STAT LC_STAT_HOLD 1).setEvt BLK_LC 5
      match s.feedAxis with
      | some a => (s.setAxState a 4).setRun a .stop
      | none => s
    | _, _ => s

/-- The microstep position of E − RUNUP. -/
def State.backUp (s : State) (a e : Nat) : BitVec 32 :=
  let goal : BitVec 96 := BitVec.ofNat 96 (e * 2 ^ 32) - BitVec.ofNat 96 (s.fld LC_RUNUP LC_RUNUP_RUNUP * 2 ^ 32)
  let back := (s.lc.pos - goal).toInt
  let steps := if s.ratio = 0 then 0 else -((-back) / (s.ratio : Int))
  s.reg (AX_POS a) - BitVec.ofInt 32 steps

/-- FEED_STOPPED: the stopped axis moves back to E − RUNUP. -/
def execFeedStopped (s : State) : Out :=
  .next <|
    match s.lc.holdAt, s.feedAxis with
    | some e, some a =>
      let run := (s.axAt a).run
      if s.fld LC_STAT LC_STAT_FEED = 1 ∧ (run = .arrived ∨ run = .idle) then
        let s := if run = .arrived then s.axFlag a AX_FLAG_DONE else s
        ((s.setFld LC_STAT LC_STAT_FEED 2).setAxState a 1).setRun a (.move 1 (s.backUp a e) false)
      else s
    | _, _ => s

/-- FEED_READY: the plane-band at E is ready, and the axis accelerates forward. -/
def execFeedReady (s : State) : Out :=
  .next <|
    match s.lc.holdAt with
    | some e =>
      if s.fld LC_STAT LC_STAT_FEED = 3 ∧ !s.feedWaits.any (fun e' => decide (e' ≤ e)) then
        s.onLc fun l => { l with resuming := true, due := none, crossed := [], moved := none }
      else s
    | none => s

/-- The hold ends at the emission of E. -/
def State.feedResume (s : State) (n : Nat) : State :=
  if s.lc.holdAt = some n then
    (((s.onLc fun l => { l with holdAt := none, resuming := false }).setFld LC_STAT LC_STAT_FEED 0).setFld
      LC_STAT LC_STAT_HOLD 0).setEvt BLK_LC 6
  else s

/-- VCAP of R361 for an admitted rate. -/
def vcap (rate ratio : Nat) : Nat :=
  if ratio = 0 then 0x7FFFFFFF else min 0x7FFFFFFF (rate * 2 ^ 64 / (100000000 * ratio))

/-- R361: while a feed-paced job runs, the line clock keeps its axis at VELOCITY under set 0; with no slot
left, its sequence is over. -/
def State.feedTick (s : State) : State :=
  if !s.anyArmed then
    if s.lc.feedOff || s.lc.holdAt.isSome || s.lc.resuming || !s.lc.holds.isEmpty then
      ((s.onLc fun l => { l with holds := [], holdAt := none, feedOff := false, resuming := false }).setFld LC_STAT
        LC_STAT_FEED 0).setFld LC_STAT LC_STAT_HOLD 0
    else s
  else
    match s.feedAxis, s.slotsIn 5 ++ s.slotsIn 6 with
    | some a, j :: _ =>
      let feed := match s.jobAt j with | some job => job.hdr.feed | none => false
      let step := s.fld LC_STAT LC_STAT_FEED
      if feed && (step == 0 || (step == 3 && s.lc.resuming)) then
        let v := min ((s.prof a 0).vmax / 2 ^ 16) (vcap (s.reg (ADM_RATE j)).toNat s.ratio)
        if (s.axAt a).run = .velocity 0 v then s
        else (s.setAxState a 2).setRun a (.velocity 0 v)
      else s
    | _, _ => s

/-! ### Period, squeeze and skip (R153 to R157, R159) -/

/-- How line event N is emitted: when, and whether squeezed or skipped. -/
inductive Emission where
  | onTime (t : Nat)
  | squeezed (t : Nat)
  | skipped (t : Nat)
deriving DecidableEq, Repr

def Emission.at_ : Emission → Nat
  | .onTime t => t
  | .squeezed t => t
  | .skipped t => t

/-- R154, with the due instant of N. -/
def State.emission (s : State) (due : Nat) : Emission :=
  match s.lc.lastEmit with
  | none => .onTime due
  | some tp =>
    if tp + s.tmin ≤ due then .onTime due
    else if -(2 ^ 29 : Int) ≤ s.toNext then .squeezed (tp + s.tmin)
    else .skipped (tp + s.tmin)

/-- R157: the warning after an emitted period, or a skip. -/
def State.overspeed (s : State) (period : Option Nat) : State :=
  let twarn := s.fld LC_TADM LC_TADM_TADM * 20 / 19
  let slow := match period with | some p => decide (twarn ≤ p) | none => false
  if slow then
    let s := s.onLc fun l => { l with calm := min 64 (l.calm + 1) }
    if 64 ≤ s.lc.calm then s.setFld LC_STAT LC_STAT_OVERSPEED_WARN 0 else s
  else
    let s := s.onLc fun l => { l with calm := 0 }
    if s.bit LC_STAT LC_STAT_OVERSPEED_WARN then s
    else (s.setFld LC_STAT LC_STAT_OVERSPEED_WARN 1).setEvt BLK_LC 0

/-- R159: the period of an emitted line event. -/
def State.emitPeriod (s : State) (t : Nat) : Nat :=
  match s.lc.lastEmit with
  | some tp => if s.lc.perFresh then 0xFFFFFF else min 0xFFFFFF (t - tp)
  | none => 0xFFFFFF

/-- The line clock's own registers at line event N. -/
def State.lcLine (s : State) (n : Nat) (e : Emission) : State :=
  let s := s.onLc fun l => { l with hwm := BitVec.ofNat 64 n }
  match e with
  | .skipped _ =>
    let s := (s.count (LC_CNT 1)).setEvt BLK_LC 1
    let s := if s.lc.skipRun.isNone then s.fault 0x0201 else s
    (s.onLc fun l => { l with skipRun := some (l.skipRun.getD n) }).overspeed none
  | e =>
    let s := match e with | .squeezed _ => s.count (LC_CNT 0) | _ => s
    let per := s.emitPeriod e.at_
    let s := (s.setFld LC_PER LC_PER_PER per).overspeed (some per)
    s.onLc fun l => { l with lastEmit := some e.at_, perFresh := false, skipRun := none }

/-! ### Camera triggers (R177, R178) -/

/-- Camera `c` at line event N at instant `t`. -/
def State.camLine (s : State) (c n t : Nat) : State :=
  let div := s.fld (CT_CFG c) CT_CFG_DIVM1 + 1
  if !s.bit (CT_CFG c) CT_CFG_EN ∨ ((n : Int) - s.fld (CT_CFG c) CT_CFG_PHASE) % (div : Int) ≠ 0 then s
  else
    let at_ := t + 640 + s.fld (CT_TIM c) CT_TIM_CDLY
    let soon : Bool := match s.lc.camLast.get none c with
      | some t0 => decide (at_ < t0 + 16 * s.fld (CT_TIM c) CT_TIM_MINP)
      | none => false
    if soon then ((s.count (LC_CNT 5)).setEvt BLK_LC 9).camTrigger c n (at_ / 16) true
    else
      (s.onLc fun l => { l with camLast := l.camLast.set none c (some at_),
                                camSched := l.camSched.upd [] c (· ++ [at_]) }).camTrigger c n (at_ / 16) false

/-- The pulses whose instant lies in this tick or before begin on a CAMTRIG output (R177), of a failed one at
tap 0 (R163). -/
def State.camBegins (s : State) (c : Nat) : State :=
  match s.lc.camSched.get [] c with
  | t :: rest =>
    if t ≤ 16 * s.now + 15 then
      s.onLc fun l => { l with camSched := l.camSched.set [] c rest, camHigh := l.camHigh.set none c (some (s.edgeAt (16 + c) t)) }
    else s
  | [] => s

/-- CAMTRIG_END: the pulse of a camera ends after WIDTH ticks. -/
def execCamtrigEnd (c : Fin 12) (s : State) : Out :=
  .next <|
    match s.lc.camHigh.get none c with
    | some t =>
      if t / 16 + max 1 (s.fld (CT_CFG c) CT_CFG_WIDTH) ≤ s.now then
        s.onLc fun l => { l with camHigh := l.camHigh.set none c none }
      else s
    | none => s

/-! ### The line event -/

/-- The set for fire line N was abandoned (R156). -/
def State.takeAbandoned (s : State) (n : Nat) : Bool × State :=
  (s.lc.abandoned.contains n,
    s.onLc fun l => { l with abandoned := l.abandoned.filter (· != n) })

/-- The firing sequencer, the dose link and verification at line event N. -/
def State.fireAt (s : State) (n : Nat) (e : Emission) : State :=
  let skip := match e with | .skipped _ => true | _ => false
  let (gone, s) := s.takeAbandoned n
  let s := s.skipLine n (if skip then some 1 else if gone then some 2 else none)
  let (held, s) := ((s.fireLine n).siReview).fireLineHubs n e.at_ (skip || gone)
  held.foldl State.holdHub (s.whenClocked BLK_DL fun s => s.dlLine n)

/-- Every block at line event N. -/
def State.lineAt (s : State) (n : Nat) (e : Emission) : State :=
  let s := (((s.lcLine n e).wakeSource 2).addStamp n e.at_).fireAt n e
  let s := s.each 12 fun c s => s.camLine c n e.at_
  let s := s.numberRepeats
  let s := if s.awake BLK_DS then s.dsLine n else s
  let s := if s.awake BLK_ADM then s.admLine n else s
  ((s.feedLate n).feedResume n).placeAgain

/-- LINE_EVENT (R150): line event N = H + 1, once its instant has come. -/
def execLineEvent (s : State) : Out :=
  .next <|
    let n := (s.lc.hwm + 1).toNat
    match s.lc.due with
    | none => s
    | some d =>
      let t := s.setFld LC_TADM LC_TADM_TADM s.lc.tadmNext
      let e := t.emission d
      if s.feedBlocks n ∨ 16 * s.now + 15 < e.at_ then s else t.lineAt n e

/-- LC_SET (R150). -/
def execLcSet (m : Master) (hi : BitVec 32) (s : State) : Out :=
  .next (s.regGuard m LC_SET_HI true fun s => s.lcSetWrite hi)

/-! ### Register writes -/

/-- A write of LC_CTRL: SRC and UNIT are held while a slot is ARMED, RUNNING or DRAINING; after a change
of SRC the next line event reports the saturated period (R149, R159). -/
def State.lcCtrlWrite (s : State) (v : Word) : State :=
  let old := s.reg LC_CTRL
  let keep : Word := fldMask LC_CTRL_SRC ||| fldMask LC_CTRL_UNIT
  let s := s.typedWrite LC_CTRL (if s.anyArmed then (v &&& ~~~keep) ||| (old &&& keep) else v)
  if fldGet LC_CTRL_SRC old ≠ s.fld LC_CTRL LC_CTRL_SRC then
    s.onLc fun l => { l with perFresh := true, due := none, crossed := [], moved := none }
  else s

end Sys2Proof.Machine
end

