-- ==== Sys2Proof/Machine/Router.lean ====
section
/-!
DEFINITION. TOP: the semaphores, the mirrors it shows, and the event router's routes and vectors (R18, R20
to R24, R56, R57).
-/

namespace Sys2Proof.Machine

/-! ### Semaphores (R18, R56, R57) -/

/-- The semaphore requester index of a master. -/
def semIx : Master → Option Nat
  | .cc k _ => some k.val
  | .host => some 4
  | .si => some 5
  | _ => none

/-- The holder of a semaphore; 15 while it is free. -/
def State.semOwner (s : State) (n : Nat) : Nat := s.fld (SEM n) SEM_OWNER

/-- The word that a read of SEM returns, and the state after it (R56). -/
def State.semReadBy (s : State) (m : Master) (n : Nat) : Word × State :=
  match semIx m with
  | none => (s.reg (SEM n), s)
  | some i =>
    let s := s.grant rrSem 6 i
    let s := if s.semOwner n = 15 then s.setFld (SEM n) SEM_OWNER i else s
    (fldPut SEM_GOT (b2n (s.semOwner n == i)) (s.reg (SEM n)), s)

/-- A write of SEM_REL (R57). The record of a master that is no requester carries an index that the spec
does not state. -/
def State.semRelWrite (s : State) (m : Master) (v : Word) : State :=
  let n := fldGet SEM_REL_SEM v
  match semIx m with
  | some i =>
    let s := s.grant rrSem 6 i
    if s.semOwner n = i then s.setFld (SEM n) SEM_OWNER 15 else s.fault 0x0001 0xFF (n + 256 * i)
  | none =>
    let (d, s) := s.draw
    s.fault 0x0001 0xFF (n + 256 * (Config.freeNat d % 256))

/-- A write of SEM_FORCE (R57). -/
def State.semForceWrite (s : State) (v : Word) : State :=
  let n := fldGet SEM_FORCE_SEM v
  (s.setFld (SEM n) SEM_OWNER 15).fault 0x0002 0xFF (n + 256 * s.semOwner n)

/-- SEM_HELD: which of 32 semaphores are held. -/
def State.semHeld (s : State) (k : Nat) : Word :=
  BitVec.ofNat 32 (((List.range 32).map fun i => b2n (s.semOwner (32 * k + i) != 15) * 2 ^ i).sum)

/-- The word that a read command returns. -/
def State.answerWith (s : State) (v : Word) : State := s.onTop fun t => { t with answer := v }

/-- A read command: a denied one returns zero. -/
def State.readBack (s : State) (m : Master) (off : Nat) (f : State → Word × State) : State :=
  (s.answerWith 0).regGuard m off false fun s =>
    let (v, s) := f s
    s.answerWith v

/-- SEM_READ (R56). -/
def execSemRead (m : Master) (n : Fin 64) (s : State) : Out :=
  .next (s.readBack m (SEM n) fun s => s.semReadBy m n)

/-- SEM_REL (R57). -/
def execSemRel (m : Master) (v : BitVec 32) (s : State) : Out :=
  .next (s.regGuard m SEM_REL true fun s => s.semRelWrite m v)

/-- SEM_FORCE (R57). -/
def execSemForce (m : Master) (v : BitVec 32) (s : State) : Out :=
  .next (s.regGuard m SEM_FORCE true fun s => s.semForceWrite v)

/-! ### Mirrors (R20, TOP_STAT) -/

/-- EVT_PEND_BLK. -/
def State.pendBlocks (s : State) : Word :=
  BitVec.ofNat 32 (((List.range 27).map fun b => b2n (s.blkPending b) * 2 ^ b).sum)

/-- TOP_STAT: each bit shows the state that it names. -/
def State.topStat (s : State) : Word :=
  let awake := ((List.range 3).map fun d => b2n (s.fld (CK_DOM d) CK_DOM_STATE == 2) * 2 ^ d).sum
  let v := fldPut TOP_STAT_AWAKE awake 0
  let v := fldPut TOP_STAT_MCEN (s.fld MC_CFG MC_CFG_ENABLE) v
  let v := fldPut TOP_STAT_LOCKED (s.fld PROT_LOCK PROT_LOCK_LOCK) v
  let v := fldPut TOP_STAT_RECOVERY (b2n (s.fld BOOT_STAT BOOT_STAT_SLOT == 2)) v
  let v := fldPut TOP_STAT_INHIBIT (s.fld SI_STAT SI_STAT_INHIBIT) v
  fldPut TOP_STAT_SAFE (s.fld SI_STAT SI_STAT_SAFE) v

/-! ### The event router (R21 to R24) -/

/-- EVT_ROUTE_WRITE (R24): an event already pending sends no message for its new route. -/
def execEvtRouteWrite (m : Master) (n : Fin 864) (v : BitVec 32) (s : State) : Out :=
  .next (s.regGuard m (EVT_ROUTE n) true fun s => s.typedWrite (EVT_ROUTE n) v)

/-- VECTOR_HOLDOFF_EXPIRY (R22): the 1 µs interval after a message ends; the requests of the interval
produce one message. -/
def execVectorHoldoffExpiry (vec : Fin 256) (s : State) : Out :=
  .next <|
    if (s.top.holdoff.get none vec).isNone || s.inHoldoff vec then s
    else
      let asked := s.top.requested.get false vec
      let s := s.onTop fun t => { t with
        holdoff := t.holdoff.set none vec none, requested := t.requested.set false vec false }
      if asked then s.msixRequest vec else s

/-- A write of a vector's control word: a pending message is sent on unmask (R22). -/
def State.vectorCtrlWrite (s : State) (vec : Nat) (v : Word) : State :=
  let was := s.vecMasked vec
  let s := s.typedWrite (MSIX_CTRL vec) v
  if was && !s.vecMasked vec && s.pba vec then (s.setPba vec false).msixRequest vec else s

/-- VECTOR_UNMASK (R22). -/
def execVectorUnmask (vec : Fin 256) (s : State) : Out := .next (s.vectorCtrlWrite vec 0)

end Sys2Proof.Machine
end

