-- ==== Sys2Proof/Machine/Clocks.lean ====
section
/-!
DEFINITION. Power, crystals and PLLs, the fast domains, and power-on reset (R450 to R460).
-/

namespace Sys2Proof.Machine

/-! ### Power-on reset (R451, R460) -/

/-- The whole device takes its reset state. Flash, fuses, host memory, and what the board drives stay;
boot repeats when power is good. -/
def State.powerReset (s : State) (good : Bool) : State :=
  { State.reset with
    pending := s.pending,
    now := s.now,
    freeIx := s.freeIx,
    mem := s.mem.filter fun c => decide (0x800000000000 ≤ c.1),
    ck := { State.reset.ck with
      pwrgood := good, qualifying := if good then some s.now else none },
    boot := { State.reset.boot with
      flashP := s.boot.flashP, flashS := s.boot.flashS, fuseSvn := s.boot.fuseSvn,
      perst := s.boot.perst } }

/-- The device is in reset (R451, R453): PWRGOOD is low, or no crystal is selected yet. -/
def State.inReset (s : State) : Bool := !s.ck.pwrgood || s.ck.qualifying.isSome

/-- The bits of CK_CLK that show the qualified crystals. -/
def xtalBits : Word := 0b110

/-- The device as its reset holds it: the qualification of the crystals goes on (R453). -/
def State.heldReset (s : State) : State :=
  let t := s.powerReset s.ck.pwrgood
  ({ t with ck := { t.ck with qualifying := s.ck.qualifying } } : State).setReg CK_CLK
    ((t.reg CK_CLK &&& ~~~xtalBits) ||| (s.reg CK_CLK &&& xtalBits))

/-- PWRGOOD_RISE (R451). -/
def execPwrgoodRise (s : State) : Out := .next (if s.ck.pwrgood then s else s.powerReset true)

/-- PWRGOOD_FALL (R451). -/
def execPwrgoodFall (s : State) : Out := .next (s.powerReset false)

/-- CK_SYSRST (R460): only the Sagger may write it, which PROT enforces. -/
def State.sysrstWrite (s : State) (v : Word) : State := if v = 0xC1A5 then s.powerReset true else s

def execCkSysrst (m : Master) (v : BitVec 32) (s : State) : Out :=
  .next (s.regGuard m CK_SYSRST true fun s => s.sysrstWrite v)

/-! ### Supply (R452) -/

/-- SUPPLY: a monitored rail has been out of range for 16 ticks. -/
def execSupply (rail : Fin 4) (s : State) : Out :=
  .next (((s.setBit CK_SUP rail true).setEvt BLK_CK 6).fault 0x3045 rail)

/-- SUPPLY_RESTORED: the rail is back within its range. -/
def execSupplyRestored (rail : Fin 4) (s : State) : Out :=
  .next <|
    if s.rbit CK_SUP rail then
      (s.setBit CK_SUP rail false).onCk fun c => { c with supAt := s.now }
    else s

/-! ### Crystals (R453, R455) -/

/-- The qualification bit of a crystal in CK_CLK, and the units of crystals and PLLs (R428). -/
def xtalBit (x : Nat) : Nat := 1 + x
def unitPll (p : Nat) : Nat := 259 + p
def unitXtal (x : Nat) : Nat := 261 + x

def State.xsel (s : State) : Nat := s.fld CK_CLK CK_CLK_XSEL
def State.xtalOk (s : State) (x : Nat) : Bool := s.rbit CK_CLK (xtalBit x)

/-- A unit that a clock source needs at once: a test of the pair is abandoned (R433, R444). -/
def State.freeSources (s : State) (u : Nat) : State := (s.abandonTest u).abandonTest (u + 1)

/-- The state of a source that is no longer the one in use: standby, or retired as it was (R429). -/
def State.sourceRests (s : State) (u : Nat) : State := if s.unit u = 2 then s else s.setUnit u 3

/-- A source may be switched to: it is not retired, nor in the test of its RETURN (R444). -/
def State.sourceReady (s : State) (u : Nat) : Bool :=
  s.unit u != 2 && !(s.unit u == 1 && match s.st.tests.get none u with
    | some t => t.prev == 2
    | none => false)

/-- A crystal becomes the selected one. -/
def State.selectXtal (s : State) (x : Nat) : State :=
  let s := s.freeSources (unitXtal 0)
  ((s.setFld CK_CLK CK_CLK_XSEL x).setUnit (unitXtal x) 0).sourceRests (unitXtal (1 - x))

/-- A crystal is selected at power-up: the device leaves its reset, the clocks start, and the boot controller its
ROM. A crystal that has not qualified by then is logged once the collector runs (R453). -/
def State.startClocks (s : State) (x : Nat) : State :=
  let s := (s.heldReset.selectXtal x).onCk fun c => { c with qualifying := none }
  let s := s.setFld BOOT_STAT BOOT_STAT_PHASE 1
  if s.xtalOk (1 - x) then s else s.fault 0x2042 (1 - x)

/-- Ticks of the waits of R453: 3 ms for XTAL_A, 10 ms for either. -/
def waitA : Nat := 3 * ticksMs
def waitAny : Nat := 10 * ticksMs

/-- Selection at power-up: XTAL_A when it qualifies within 3 ms, else from then on XTAL_B, else the
first that qualifies within 10 ms. -/
def State.tryClocks (s : State) : State :=
  match s.ck.qualifying with
  | none => s
  | some t =>
    let age := s.now - t
    if waitAny < age then s
    else if age ≤ waitA then (if s.xtalOk 0 then s.startClocks 0 else s)
    else if s.xtalOk 1 then s.startClocks 1
    else if s.xtalOk 0 then s.startClocks 0
    else s

/-- CRYSTAL_QUALIFIED (R453). After the loss of both, the crystal that returns is selected, unless it is retired
(R429). -/
def execCrystalQualified (x : Fin 2) (s : State) : Out :=
  .next <|
    if !s.ck.pwrgood then s
    else
      let s := s.setBit CK_CLK (xtalBit x) true
      if s.ck.bothXtal && s.sourceReady (unitXtal x) then
        let s' := (s.selectXtal x).onCk fun c => { c with bothXtal := false }
        if s.xsel = x then s' else s'.setEvt BLK_CK 3
      else s.tryClocks

/-- CRYSTAL_RETRY (R453). -/
def execCrystalRetry (s : State) : Out :=
  .next <|
    match s.ck.qualifying with
    | some t =>
      if waitAny ≤ s.now - t then (s.onCk fun c => { c with qualifying := some s.now }).tryClocks else s
    | none => s

/-- A loss during a SWITCH command: the command is abandoned, as R433 has it (R455). -/
def State.abandonSwitch (s : State) : State :=
  match s.st.waiting with
  | some (4, u) =>
    let s := s.onSt fun x => { x with waiting := none }
    (((s.setEvt BLK_ST 4).count (ST_CNT 2)).stFault 0x0602 u).stDone 4
  | _ => s

/-- The selected crystal stops (R455). A retired one is no source to switch to (R444). -/
def State.xtalLoss (s : State) : State :=
  let x := s.xsel
  if s.ck.qualifying.isSome || !s.xtalOk x then s
  else
    let s := (s.setBit CK_CLK (xtalBit x) false).abandonSwitch
    if s.xtalOk (1 - x) && s.sourceReady (unitXtal (1 - x)) then
      ((s.selectXtal (1 - x)).setEvt BLK_CK 3).fault 0x2042 x
    else (s.onCk fun c => { c with bothXtal := true }).fault 0x3044

/-- CRYSTAL_LOST (R455): the selected crystal stops; nothing more follows where that was handled before the loss
of a PLL of the same tick. -/
def execCrystalLost (s : State) : Out :=
  .next <|
    if s.ck.early = some s.now then s.onCk fun c => { c with early := none } else s.xtalLoss

/-! ### AO PLLs (R454, R455) -/

/-- The lock bit of a PLL in CK_CLK. -/
def lockBit (p : Nat) : Nat := 4 + p

def State.psel (s : State) : Nat := s.fld CK_CLK CK_CLK_PSEL
def State.pllLocked (s : State) (p : Nat) : Bool := s.rbit CK_CLK (lockBit p)

/-- A PLL becomes the running one. -/
def State.selectPll (s : State) (p : Nat) : State :=
  let s := s.freeSources (unitPll 0)
  ((s.setFld CK_CLK CK_CLK_PSEL p).setUnit (unitPll p) 0).sourceRests (unitPll (1 - p))

/-- The AO clock runs: the running PLL is locked. -/
def State.aoRuns (s : State) : Bool := s.pllLocked s.psel

/-- The loss of a crystal that waits in the queue, of the same tick, is handled before that of a PLL (R455). -/
def State.crystalFirst (s : State) : State :=
  if s.pending.contains .crystalLost && s.ck.early != some s.now then
    s.xtalLoss.onCk fun c => { c with early := some s.now }
  else s

/-- PLL_LOSS (R455). With both lost the AO clock stops, and the watchdog trips on its own oscillator. A retired
PLL is no source to switch to (R444). -/
def execPllLoss (pll : Fin 2) (s : State) : Out :=
  .next <|
    if !s.pllLocked pll then s
    else
      let s := s.crystalFirst.setBit CK_CLK (lockBit pll) false
      if s.psel ≠ pll then s
      else
      let s := s.abandonSwitch
      if s.pllLocked (1 - pll) && s.sourceReady (unitPll (1 - pll)) then ((s.selectPll (1 - pll)).setEvt BLK_CK 4).fault 0x2043 pll
      else s.wdgTrips

/-- PLL_RELOCK (R454). -/
def execPllRelock (pll : Fin 2) (s : State) : Out :=
  .next <|
    if s.pllLocked pll then s
    else
      let s := s.setBit CK_CLK (lockBit pll) true
      if s.psel = pll then s.setUnit (unitPll pll) 0
      else if s.unit (unitPll pll) = 0 then s.setUnit (unitPll pll) 3
      else s

/-! ### Fast domains (R456 to R459, R475) -/

/-- The registers of a block at their reset values. -/
def State.resetBlock (s : State) (blk : Nat) : State :=
  { s with regs := s.regs.filter fun e => decide (e.1 / 0x100000 ≠ blk) }

/-- A domain's blocks are reset and their memories zeroed (R126, R230, R457, R475). -/
def State.domReset (s : State) (d : Nat) : State :=
  if d = 0 then
    let s := { s with adm := AdmSt.reset, xc := [] }
    ((s.resetBlock BLK_ADM).resetBlock BLK_XC).clearBytes (XC_MEM 0) 0x2400000
  else if d = 1 then
    let s := { s with ds := DsSt.reset, dl := { lanes := [], hubs := [] } }
    let s := (((s.resetBlock BLK_BA).resetBlock BLK_DS).resetBlock BLK_DL).resetBlock BLK_BQ
    ((s.clearBytes SRAM_BASE 0x4000000).clearBytes DS_TABLES 0x800000).clearBytes DL_REPLAY 0x400000
  else
    let s := { s with cxr := { ports := [], checking := false }, ip := { work := [], carry := [], ctx := [], prev := [] },
                      ve := VeSt.reset }
    let s := ((s.resetBlock BLK_CXR).resetBlock BLK_IP).resetBlock BLK_VE
    let s := s.each 4 fun p s => if s.unit (144 + p) = 1 then s else s.setUnit (144 + p) (s.pipeUnit p)
    ((s.clearBytes (CAM_BUF 0) 0x1800000).clearBytes PIPE_MEM 0x400000).clearBytes VE_MEM 0x800000

/-- A domain has a user that keeps it awake (R459). -/
def State.domUsed (s : State) (d : Nat) : Bool :=
  let ve := s.bit VE_CTRL VE_CTRL_EN
  if d = 0 then
    s.anyArmed || s.slotState 0 == 1 || s.slotState 1 == 1 ||
      (List.range 144).any fun x => s.unit x == 1
  else if d = 1 then
    s.anyArmed || ve || (List.range 64).any s.slotEn ||
      (List.range 32).any fun n => s.bit (DL_LANE_CFG n) DL_LANE_CFG_EN
  else
    ve || (List.range 12).any (fun n => s.bit (CAM_CFG n) CAM_CFG_EN) ||
      (List.range 4).any fun p => s.bit (CAL_STAT p) CAL_STAT_BUSY

/-- An entry into a state begins. -/
def State.entryBegin (s : State) (d target : Nat) (stopped : Bool) : State :=
  (s.onCk fun c => { c with
    entry := c.entry.set none d
      (some { target := target, stopped := stopped, since := s.now, wake := false,
              before := s.domState d }) }).setDomState d 3

/-- The write of CK_DOM: WAKESRC, and the request; one below AWAKE loses to a wake source of its cycle (R458). -/
def State.ckDomWrite (s : State) (d : Nat) (v : Word) : State :=
  let r := fldGet CK_DOM_REQ v
  if r < 2 ∧ s.ck.woke.get none d = some s.now then s.requestLoses d else
  let old := s.fld (CK_DOM d) CK_DOM_REQ
  let st := s.domState d
  let s := if r < 2 ∧ ¬(st = 2 ∧ s.domUsed d = true) then s.onCk fun c => { c with lowered := c.lowered.set none d (some (s.now, s.reg (CK_DOM d))) }
    else s
  let s := s.typedWrite (CK_DOM d) (fldPut CK_DOM_REQ old v)
  let set := fun (s : State) => s.setFld (CK_DOM d) CK_DOM_REQ r
  if 2 ≤ r then (set s).wakeDom d
  else if st = 2 then
    if s.domUsed d then (s.setEvt BLK_CK 5).fault 0x0041 d else (set s).entryBegin d r false
  else if st = 0 ∧ r = 1 then ((set s).domReset d).entryBegin d 1 true
  else if st = 1 ∧ r = 0 then (set s).entryBegin d 0 true
  else set s

/-- A REQ command: the write of CK_DOM that changes REQ alone. -/
def State.domCommand (s : State) (m : Master) (d r : Nat) : State :=
  s.regGuard m (CK_DOM d) true fun s => s.ckDomWrite d (fldPut CK_DOM_REQ r (s.reg (CK_DOM d)))

/-- REQ_AWAKE (R457). -/
def execReqAwake (m : Master) (d : Fin 3) (s : State) : Out := .next (s.domCommand m d 2)

/-- REQ_STANDBY (R456, R458). -/
def execReqStandby (m : Master) (d : Fin 3) (s : State) : Out := .next (s.domCommand m d 1)

/-- REQ_OFF (R458, R459). -/
def execReqOff (m : Master) (d : Fin 3) (s : State) : Out := .next (s.domCommand m d 0)

/-- WAKE_SOURCE (R457): an enabled source sets REQ to AWAKE. -/
def execWakeSource (d : Fin 3) (src : Fin 4) (s : State) : Out :=
  .next <|
    if (s.fld (CK_DOM d) CK_DOM_WAKESRC).testBit src then s.sourceWakes d else s

/-- AWAKE (R457): the domain runs. From OFF, its blocks are reset and their memories zero. -/
def execAwake (d : Fin 3) (s : State) : Out :=
  .next <|
    match s.ck.waking.get none d with
    | none => s
    | some w =>
      let s := s.onCk fun c => { c with waking := c.waking.set none d none }
      let s := if w.fromOff then s.domReset d else s
      let s := s.setDomState d 2
      let s := if d.val = 0 then s.capChanged else s
      s.setEvt BLK_CK d

/-- ENTRY_COMPLETE (R458): a wake that was requested meanwhile begins. -/
def execEntryComplete (d : Fin 3) (s : State) : Out :=
  .next <|
    match s.ck.entry.get none d with
    | none => s
    | some e =>
      let s := (s.onCk fun c => { c with entry := c.entry.set none d none }).setDomState d e.target
      let s := if e.target = 0 then s.domReset d else s
      if e.wake then s.wakeBegin d (e.target == 0) else s

/-- WAKE_LATE (R457): 40 µs from STANDBY, 250 µs from OFF. -/
def execWakeLate (d : Fin 3) (s : State) : Out :=
  .next <|
    match s.ck.waking.get none d with
    | none => s
    | some w =>
      if w.late || decide (s.now ≤ w.since + (if w.fromOff then 25000 else 4000)) then s
      else
        (s.onCk fun c => { c with waking := c.waking.set none d (some { w with late := true }) }).fault
          0x2046 d

end Sys2Proof.Machine
end

