-- ==== Sys2Proof/Machine/Digest.lean ====
section
/-!
DEFINITION. The two functions by which images are verified (R463), as the standards that the spec names define
them: SHA-384 (FIPS 180-4) and the verification of an ECDSA signature over P-384 (FIPS 186). PRESUMED: the
constants and steps are the standards', which the spec cites and does not repeat (log entry 66).
-/

namespace Sys2Proof.Machine

/-! ### SHA-384 -/

abbrev Word64 := BitVec 64

/-- The eight working words of SHA-512's compression. -/
structure Sha8 where
  a : Word64
  b : Word64
  c : Word64
  d : Word64
  e : Word64
  f : Word64
  g : Word64
  h : Word64
deriving DecidableEq, Repr

/-- The initial hash value of SHA-384. -/
def sha384Init : Sha8 :=
  { a := 0xCBBB9D5DC1059ED8, b := 0x629A292A367CD507, c := 0x9159015A3070DD17, d := 0x152FECD8F70E5939,
    e := 0x67332667FFC00B31, f := 0x8EB44A8768581511, g := 0xDB0C2E0D64F98FA7, h := 0x47B5481DBEFA4FA4 }

/-- The round constants of SHA-512. -/
def sha512K : List Word64 :=
  [
    0x428A2F98D728AE22, 0x7137449123EF65CD, 0xB5C0FBCFEC4D3B2F,
    0xE9B5DBA58189DBBC, 0x3956C25BF348B538, 0x59F111F1B605D019,
    0x923F82A4AF194F9B, 0xAB1C5ED5DA6D8118, 0xD807AA98A3030242,
    0x12835B0145706FBE, 0x243185BE4EE4B28C, 0x550C7DC3D5FFB4E2,
    0x72BE5D74F27B896F, 0x80DEB1FE3B1696B1, 0x9BDC06A725C71235,
    0xC19BF174CF692694, 0xE49B69C19EF14AD2, 0xEFBE4786384F25E3,
    0x0FC19DC68B8CD5B5, 0x240CA1CC77AC9C65] ++
  [
    0x2DE92C6F592B0275, 0x4A7484AA6EA6E483, 0x5CB0A9DCBD41FBD4,
    0x76F988DA831153B5, 0x983E5152EE66DFAB, 0xA831C66D2DB43210,
    0xB00327C898FB213F, 0xBF597FC7BEEF0EE4, 0xC6E00BF33DA88FC2,
    0xD5A79147930AA725, 0x06CA6351E003826F, 0x142929670A0E6E70,
    0x27B70A8546D22FFC, 0x2E1B21385C26C926, 0x4D2C6DFC5AC42AED,
    0x53380D139D95B3DF, 0x650A73548BAF63DE, 0x766A0ABB3C77B2A8,
    0x81C2C92E47EDAEE6, 0x92722C851482353B] ++
  [
    0xA2BFE8A14CF10364, 0xA81A664BBC423001, 0xC24B8B70D0F89791,
    0xC76C51A30654BE30, 0xD192E819D6EF5218, 0xD69906245565A910,
    0xF40E35855771202A, 0x106AA07032BBD1B8, 0x19A4C116B8D2D0C8,
    0x1E376C085141AB53, 0x2748774CDF8EEB99, 0x34B0BCB5E19B48A8,
    0x391C0CB3C5C95A63, 0x4ED8AA4AE3418ACB, 0x5B9CCA4F7763E373,
    0x682E6FF3D6B2B8A3, 0x748F82EE5DEFB2FC, 0x78A5636F43172F60,
    0x84C87814A1F0AB72, 0x8CC702081A6439EC] ++
  [
    0x90BEFFFA23631E28, 0xA4506CEBDE82BDE9, 0xBEF9A3F7B2C67915,
    0xC67178F2E372532B, 0xCA273ECEEA26619C, 0xD186B8C721C0C207,
    0xEADA7DD6CDE0EB1E, 0xF57D4F7FEE6ED178, 0x06F067AA72176FBA,
    0x0A637DC5A2C898A6, 0x113F9804BEF90DAE, 0x1B710B35131C471B,
    0x28DB77F523047D84, 0x32CAAB7B40C72493, 0x3C9EBE0A15C9BEBC,
    0x431D67C49C100D4C, 0x4CC5D4BECB3E42B6, 0x597F299CFC657E2A,
    0x5FCB6FAB3AD6FAEC, 0x6C44198C4A475817]

def sha512S0 (x : Word64) : Word64 := x.rotateRight 28 ^^^ x.rotateRight 34 ^^^ x.rotateRight 39
def sha512S1 (x : Word64) : Word64 := x.rotateRight 14 ^^^ x.rotateRight 18 ^^^ x.rotateRight 41
def sha512s0 (x : Word64) : Word64 := x.rotateRight 1 ^^^ x.rotateRight 8 ^^^ (x >>> 7)
def sha512s1 (x : Word64) : Word64 := x.rotateRight 19 ^^^ x.rotateRight 61 ^^^ (x >>> 6)

/-- One round, on a constant and a word of the schedule. -/
def Sha8.round (v : Sha8) (k w : Word64) : Sha8 :=
  let t1 := v.h + sha512S1 v.e + ((v.e &&& v.f) ^^^ (~~~v.e &&& v.g)) + k + w
  let t2 := sha512S0 v.a + ((v.a &&& v.b) ^^^ (v.a &&& v.c) ^^^ (v.b &&& v.c))
  { a := t1 + t2, b := v.a, c := v.b, d := v.c, e := v.d + t1, f := v.e, g := v.f, h := v.g }

def Sha8.add (v u : Sha8) : Sha8 :=
  { a := v.a + u.a, b := v.b + u.b, c := v.c + u.c, d := v.d + u.d,
    e := v.e + u.e, f := v.f + u.f, g := v.g + u.g, h := v.h + u.h }

/-- The word that follows sixteen of the message schedule. -/
def sha512Next (w : List Word64) : Word64 :=
  sha512s1 (w.getD 14 0) + w.getD 9 0 + sha512s0 (w.getD 1 0) + w.getD 0 0

/-- The compression of one block of 128 bytes. -/
def Sha8.block (v : Sha8) (bs : List Byte) : Sha8 :=
  let w := (List.range 16).map fun i => BitVec.ofNat 64 (beNat ((bs.drop (8 * i)).take 8))
  let r := sha512K.foldl (fun (x : Sha8 × List Word64) k =>
    (x.1.round k (x.2.getD 0 0), x.2.drop 1 ++ [sha512Next x.2])) (v, w)
  v.add r.1

/-- A message with its padding: a 1 bit, zeros, and the length in bits. -/
def sha512Pad (bs : List Byte) : List Byte :=
  bs ++ [0x80] ++ List.replicate ((239 - bs.length % 128) % 128) 0 ++ beBytes 16 (8 * bs.length)

/-- SHA-384 of a string of bytes. -/
def sha384 (bs : List Byte) : List Byte :=
  let m := sha512Pad bs
  let r := (List.range (m.length / 128)).foldl (fun (x : Sha8 × List Byte) _ =>
    (x.1.block (x.2.take 128), x.2.drop 128)) (sha384Init, m)
  [r.1.a, r.1.b, r.1.c, r.1.d, r.1.e, r.1.f].flatMap fun w => beBytes 8 w.toNat

/-! ### ECDSA over P-384 -/

/-- The prime of the field, the order of the group, the coefficient b and the base point. -/
def p384P : Nat := 2 ^ 384 - 2 ^ 128 - 2 ^ 96 + 2 ^ 32 - 1
def p384N : Nat :=
  0xFFFFFFFFFFFFFFFFFFFFFFFFFFFFFFFFFFFFFFFFFFFFFFFFC7634D81F4372DDF581A0DB248B0A77AECEC196ACCC52973
def p384B : Nat :=
  0xB3312FA7E23EE7E4988E056BE3F82D19181D9C6EFE8141120314088F5013875AC656398D8A2ED19D2A85C8EDD3EC2AEF
def p384G : Nat × Nat :=
  (0xAA87CA22BE8B05378EB1C71EF320AD746E1D3B628BA79B9859F741E082542A385502F25DBF55296C3A545E3872760AB7,
   0x3617DE4A96262C6F5D9E98BF9292DC29F8F41DBD289A147CE9DA3113B5F0B8C00A60B1CE1D7E819D7A431D7C90EA0E5F)

/-- `b ^ e` modulo `m`, for an exponent of 384 bits. -/
def powMod (b e m : Nat) : Nat :=
  (List.range 384).foldl (fun acc i =>
    let sq := acc * acc % m
    if e.testBit (383 - i) then sq * b % m else sq) 1

/-- The inverse modulo a prime. -/
def invMod (a m : Nat) : Nat := powMod (a % m) (m - 2) m

/-- The sum of two points of the curve; `none` is the point at infinity. -/
def p384Add (u v : Option (Nat × Nat)) : Option (Nat × Nat) :=
  match u, v with
  | none, w => w
  | w, none => w
  | some (x1, y1), some (x2, y2) =>
    if x1 = x2 ∧ (y1 + y2) % p384P = 0 then none
    else
      let l := if x1 = x2 then (3 * x1 * x1 + (p384P - 3)) * invMod (2 * y1) p384P % p384P
        else (y2 + (p384P - y1)) * invMod (x2 + (p384P - x1)) p384P % p384P
      let x3 := (l * l + (p384P - x1) + (p384P - x2)) % p384P
      some (x3, (l * (x1 + (p384P - x3)) + (p384P - y1)) % p384P)

/-- A multiple of a point. -/
def p384Mul (k : Nat) (p : Nat × Nat) : Option (Nat × Nat) :=
  (List.range 384).foldl (fun acc i =>
    let d := p384Add acc acc
    if k.testBit (383 - i) then p384Add d (some p) else d) none

/-- A point lies on the curve. -/
def p384On (x y : Nat) : Bool :=
  decide (x < p384P) && decide (y < p384P) &&
    decide (y * y % p384P = (x * x * x + (p384P - 3) * x + p384B) % p384P)

/-- The signature (r, s) of a hash verifies under a public key (X, Y), all most significant byte first (R462). -/
def ecdsaP384 (key hash sig : List Byte) : Bool :=
  let qx := beNat (key.take 48)
  let qy := beNat (key.drop 48)
  let r := beNat (sig.take 48)
  let t := beNat (sig.drop 48)
  if r = 0 ∨ t = 0 ∨ p384N ≤ r ∨ p384N ≤ t ∨ p384On qx qy = false then false
  else
    let w := invMod t p384N
    match p384Add (p384Mul (beNat hash * w % p384N) p384G) (p384Mul (r * w % p384N) (qx, qy)) with
    | none => false
    | some (x, _) => decide (x % p384N = r)

end Sys2Proof.Machine
end

