-- ==== Sys2Proof/Machine/Boot.lean ====
section
/-!
DEFINITION. The boot controller: images and their verification, the choice of the flash image, recovery,
and the commands of BOOT_VCMD (R461 to R466, R470, R471).
-/

namespace Sys2Proof.Machine

/-! ### Images (R462) -/

/-- `n` bytes of an image, from an offset. -/
def imgBytes (img : List Byte) (off n : Nat) : List Byte := (img.drop off).take n

def imgNat (img : List Byte) (off n : Nat) : Nat := leNat (imgBytes img off n)

def imgKind (img : List Byte) : Nat := imgNat img 4 2
def imgSvn (img : List Byte) : Nat := imgNat img 6 2
def imgLen (img : List Byte) : Nat := imgNat img 8 4
def imgEntry (img : List Byte) : Nat := imgNat img 0xC 4

/-- A section of an image. -/
structure ImgSection where
  type  : Nat
  ofs   : Nat
  size  : Nat
  clean : Bool
deriving DecidableEq, Repr

def imgSection (img : List Byte) (i : Nat) : ImgSection :=
  let b := 0x10 + 16 * i
  { type := imgNat img b 1, ofs := imgNat img (b + 4) 4, size := imgNat img (b + 8) 4,
    clean := imgNat img (b + 1) 3 == 0 && imgNat img (b + 12) 4 == 0 }

/-- The sections in use. -/
def imgSections (img : List Byte) : List ImgSection :=
  ((List.range 8).map (imgSection img)).filter fun x => x.type != 0

/-- The first section of a type, and its bytes. -/
def imgPart (img : List Byte) (type : Nat) : List Byte :=
  match (imgSections img).find? fun x => x.type == type with
  | some x => imgBytes img x.ofs x.size
  | none => []

/-- The section types of a kind. -/
def kindTypes (kind : Nat) : List Nat := if kind = 1 then [1, 2, 3, 4] else if kind = 2 then [4] else [1]

/-- FORMAT: MAGIC, KIND, LEN and the sections. -/
def imgFormat (kinds : List Nat) (img : List Byte) : Bool :=
  let len := imgLen img
  let ss := imgSections img
  let types := kindTypes (imgKind img)
  imgBytes img 0 4 == [0x42, 0x58, 0x49, 0x4D] && kinds.contains (imgKind img) &&
    decide (0x100 + 96 ≤ len) && decide (len ≤ 0x4000000) && decide (imgSvn img ≤ 63) &&
    ss.all (fun x => x.clean && x.ofs % 64 == 0 && decide (0x100 ≤ x.ofs) &&
      decide (x.ofs + x.size ≤ len - 96)) &&
    decide (ss.length = types.length) && types.all (fun t => ss.any fun x => x.type == t) &&
    ss.all (fun x => (x.type != 1 || decide (x.size ≤ 0x50000)) && (x.type != 2 || x.size == 528) &&
      (x.type != 4 || imgKind img != 1 || decide (x.size ≤ 0x100000)))

/-- The fuse key slot that matches KEY and is not revoked. -/
def imgKeySlot (img : List Byte) : Option Nat :=
  [0, 1].find? fun i =>
    !Config.keyRevoked i && Config.keySlot i == sha384 (imgBytes img 0x90 96)

/-- SIG verifies over the image without it. -/
def imgSigned (img : List Byte) : Bool :=
  let len := imgLen img
  ecdsaP384 (imgBytes img 0x90 96) (sha384 (img.take (len - 96)))
    (imgBytes img (len - 96) 96)

/-- An entry of an RWL list names an RWL register (R466). -/
def isRwl (off : Nat) : Bool :=
  match regDef? off with
  | some d => d.rwl != 0
  | none => false

/-- The entries of an RWL list. -/
def rwlEntries (bs : List Byte) : List (Nat × Word) :=
  (List.range (bs.length / 8)).map fun i =>
    (leNat (imgBytes bs (8 * i) 4), BitVec.ofNat 32 (leNat (imgBytes bs (8 * i + 4) 4)))

/-- CONTENT: the PROT setup and the RWL list are as R465 and R466 lay them out. -/
def imgContent (img : List Byte) : Bool :=
  let rwl := imgPart img 3
  imgKind img != 1 ||
    (imgNat (imgPart img 2) 516 12 == 0 && rwl.length % 8 == 0 &&
      (rwlEntries rwl).all fun e => isRwl e.1)

/-- R463: REASON of an image, 0 when it is valid; `none` is an image that cannot be read. -/
def imgReason (kinds : List Nat) (fuseSvn : Nat) (img : Option (List Byte)) : Nat :=
  match img with
  | none => 6
  | some x =>
    if !imgFormat kinds x then 1
    else if (imgKeySlot x).isNone then 2
    else if !imgSigned x then 3
    else if imgSvn x < fuseSvn then 4
    else if !imgContent x then 5
    else 0

/-! ### The flash (R461) -/

/-- A 4-byte word of the SFDP basic parameter table, whose place the first parameter header gives. PRESUMED: the
layout is JESD216's (log entry 66). -/
def bfpt (i : Nat) : Nat := imgNat Config.sfdp (imgNat Config.sfdp 0xC 3 + 4 * i) 4

/-- The flash's density in bytes (R461): the second word gives it in bits, less one, or as a power of two. -/
def flashDensity : Nat :=
  if imgBytes Config.sfdp 0 4 ≠ [0x53, 0x46, 0x44, 0x50] then 0
  else min 0x10000000 (if (bfpt 1).testBit 31 then 2 ^ min 40 (bfpt 1 % 2 ^ 31) / 8 else (bfpt 1 + 1) / 8)

/-- What BOOT takes from the table (R461): 1-4-4 mode if supported, otherwise 1-1-4 mode, at 100 MHz, otherwise
1-1-1 mode at 25 MHz. -/
def flashMode : FlashMode :=
  let modes := bfpt 0 / 2 ^ 17 % 4
  let read := if (bfpt 0).testBit 21 then .quadIo else if (bfpt 0).testBit 22 then .quadOutput else .serial
  { addr4 := modes == 2 || (modes == 1 && decide (0x1000000 < flashDensity)),
    quad := bfpt 14 / 2 ^ 20 % 8,
    read := read,
    mhz := if read = .serial then 25 else 100 }

/-- The primary slot, and the secondary one from half the density. -/
def State.flashSlot (s : State) (second : Bool) : List Byte :=
  (if second then s.boot.flashS else s.boot.flashP).take (flashDensity / 2)

/-- A flash slot's image, as far as it can be read. -/
def flashImage (slot : List Byte) : Option (List Byte) :=
  if slot.length < 0x100 ∨ (slot.length < imgLen slot ∧ imgLen slot ≤ 0x4000000) then none
  else some (slot.take (max 0x100 (min (imgLen slot) 0x4000000)))

/-- A range of DRAM or on-chip SRAM that holds no poisoned line. -/
def State.readable (s : State) (a n : Nat) : Bool :=
  let ok := fun a => s.region a == .dram || s.region a == .sram
  ok a && ok (a + n - 1) && !s.poison.any fun e => decide (a < 64 * e.1 + 64) && decide (64 * e.1 < a + n)

/-- An image in memory. -/
def State.memImage (s : State) (a : Nat) : Option (List Byte) :=
  let len := max 0x100 (min (s.loadNat (a + 8) 4) 0x4000000)
  if s.readable a 0x100 && s.readable a len then some (s.loadBytes a len) else none

/-- What BOOT's read of an image in memory leaves: a rank in self-refresh wakes, a read that lands on an unmapped
address or on a line with an uncorrectable error is reported (R13, R305, R309, R421). -/
def State.imageRead (s : State) (a : Nat) : State :=
  let n := max 0x100 (min (s.loadNat (a + 8) 4) 0x4000000)
  ((s.dramTouch (4, 0) .none a n).reportLines a n).blockUnmapped BLK_BOOT a n

/-- REASON of an image in memory. -/
def State.memReason (s : State) (kinds : List Nat) (a : Nat) : Nat :=
  imgReason kinds s.boot.fuseSvn (s.memImage a)

/-- The effective address that reaches a physical address through the reset windows (R42). -/
def resetEa (a : Nat) : Option Nat :=
  if 0x100000000000 ≤ a ∧ a < 0x100010000000 then some (a - 0x100000000000)
  else if a < 0xE0000000 then some (0x20000000 + a)
  else none

/-! ### Boot (R463, R464) -/

def State.bootPhase (s : State) : Nat := s.fld BOOT_STAT BOOT_STAT_PHASE
def State.setBootPhase (s : State) (v : Nat) : State := s.setFld BOOT_STAT BOOT_STAT_PHASE v

/-- An image boots: the setup follows. -/
def State.bootWith (s : State) (slot : Nat) (img : List Byte) : State :=
  let s := s.onBoot fun b => { b with image := some img, imageSvn := imgSvn img }
  let s := (s.setFld BOOT_STAT BOOT_STAT_SLOT slot).setFld BOOT_STAT BOOT_STAT_KEY
    ((imgKeySlot img).getD 0)
  s.setBootPhase 5

/-- BOOT: the fuses are read, the flash's SFDP table gives its mode (R461), and the primary image, else the secondary one, is verified. -/
def execBoot (s : State) : Out :=
  .next <|
    if s.bootPhase ≠ 1 then s
    else
      let s := (s.clearBytes SG_MEM 0x100000).setFld BOOT_STAT BOOT_STAT_SVNF s.boot.fuseSvn
      let s := s.onBoot fun b => { b with mode := some flashMode }
      let p := flashImage (s.flashSlot false)
      let q := flashImage (s.flashSlot true)
      let rp := imgReason [1] s.boot.fuseSvn p
      let rq := imgReason [1] s.boot.fuseSvn q
      if rp = 0 then s.bootWith 0 (p.getD [])
      else if rq = 0 then
        ((s.setFld BOOT_STAT BOOT_STAT_REASON rp).bootWith 1 (q.getD [])).fault 0x2682
      else (s.setFld BOOT_STAT BOOT_STAT_REASON rq).setBootPhase 4

/-- The fixed setup of recovery: the host reads and writes the BOOT registers and the staging SRAM. -/
def State.recoverySetup (s : State) : State :=
  let rgn := fun (s : State) (i base limit : Nat) =>
    let s := s.setReg (PROT_REGION0 i) (BitVec.ofNat 32 base)
    let s := s.setReg (PROT_REGION1 i) (BitVec.ofNat 32 (0xC0 * 65536 + base / 2 ^ 32))
    let s := s.setReg (PROT_REGION2 i) (BitVec.ofNat 32 limit)
    s.setReg (PROT_REGION3 i) (BitVec.ofNat 32 (0x80000000 + limit / 2 ^ 32))
  rgn (rgn s 0 (regAddr (BLK_BOOT * 0x100000)) (regAddr (BLK_BOOT * 0x100000) + 0xFFFC0)) 1 STAGING
    (STAGING + 0x3FFFC0)

/-- The PROT lock (R467): PROT_CRC is taken over the setup. -/
def State.lockProt (s : State) : State :=
  (s.setReg PROT_CRC (crc32c s.protSetup)).setFld PROT_LOCK PROT_LOCK_LOCK 1

/-- RECOVERY (R464): both images are invalid. -/
def execRecovery (s : State) : Out :=
  .next <|
    if s.bootPhase = 4 ∧ s.boot.image = none then
      ((s.recoverySetup.lockProt.setFld BOOT_STAT BOOT_STAT_SLOT 2).setBootPhase 7).fault 0x2684
    else s

/-! ### BOOT_VCMD (R464, R470) -/

/-- The write of BOOT_VCMD. -/
def State.vcmdWrite (s : State) (v : Word) : State :=
  let op := fldGet BOOT_VCMD_OP v
  if fldGet BOOT_VCMD_GO v = 0 ∨ op = 0 then s
  else if s.bit BOOT_VSTAT BOOT_VSTAT_BUSY || (op == 3 && s.bootPhase != 7) then
    (s.setFld BOOT_VSTAT BOOT_VSTAT_RESULT 3).fault 0x0681
  else
    (s.onBoot fun b => { b with
      verify := some { op := op, addr := s.reg64 BOOT_VADDR_LO BOOT_VADDR_HI } }).setFld BOOT_VSTAT
        BOOT_VSTAT_BUSY 1

/-- The write with GO = 1 and an OP. -/
def State.vcmd (s : State) (op : Nat) : State := s.vcmdWrite (BitVec.ofNat 32 (1 + 2 * op))

/-- VERIFY (R470). -/
def execVerify (s : State) : Out := .next (s.vcmd 1)

/-- HOLD_IMAGE (R470). -/
def execHoldImage (s : State) : Out := .next (s.vcmd 2)

/-- PROGRAM (R464): refused outside recovery. -/
def execProgram (s : State) : Out := .next (s.vcmd 3)

/-- The image at an address becomes the held control-core image. -/
def State.holdImage (s : State) (a : Nat) : State := s.setReg64 BOOT_CCIMG_LO BOOT_CCIMG_HI a

/-- The kinds of image that an OP takes (R464, R470). -/
def verifyKinds (op : Nat) : List Nat := if op = 1 then [1, 2, 3] else if op = 2 then [2] else [1]

/-- REASON of an operation (R464, R470): a valid PROGRAM has written the primary slot, which is read back and
verified too. -/
def State.verifyReason (s : State) (x : VerifyOp) : Nat :=
  let r := s.memReason (verifyKinds x.op) x.addr
  if x.op = 3 ∧ r = 0 then
    imgReason [1] s.boot.fuseSvn (flashImage (((s.memImage x.addr).getD []).take (flashDensity / 2)))
  else r

/-- PROGRAM erases the primary slot and writes a valid image there (R464). -/
def State.programSlot (s : State) (x : VerifyOp) : State :=
  if x.op = 3 ∧ s.memReason [1] x.addr = 0 then
    s.onBoot fun b => { b with flashP := ((s.memImage x.addr).getD []).take (flashDensity / 2) }
  else s

/-- VERIFY_DONE (R464, R470): after a valid PROGRAM, a power-on reset follows. -/
def execVerifyDone (s : State) : Out :=
  .next <|
    match s.boot.verify with
    | none => s
    | some x =>
      let r := s.verifyReason x
      let s' := (((s.programSlot x).imageRead x.addr).onBoot fun b => { b with verify := none }).setFld
        BOOT_VSTAT BOOT_VSTAT_BUSY 0
      let s' := (s'.setFld BOOT_VSTAT BOOT_VSTAT_RESULT (if r = 0 then 1 else 2)).setFld BOOT_VSTAT
        BOOT_VSTAT_REASON r
      if r ≠ 0 then s'.fault 0x0681
      else if x.op = 2 then s'.holdImage x.addr
      else if x.op = 3 then s'.powerReset true
      else s'

/-- The write of BOOT_SVN_ADV by SI (R471). -/
def State.svnAdvWrite (s : State) (v : Word) : State :=
  if v.getLsbD 0 && decide (s.boot.fuseSvn < s.boot.imageSvn) then
    (s.onBoot fun b => { b with fuseSvn := b.imageSvn }).setFld BOOT_STAT BOOT_STAT_SVNF s.boot.imageSvn
  else s

/-- SVN_ADV (R471): a write by another master is ignored. -/
def execSvnAdv (m : Master) (v : BitVec 32) (s : State) : Out :=
  .next (s.regGuard m BOOT_SVN_ADV true fun s => if m = .si then s.svnAdvWrite v else s)

end Sys2Proof.Machine
end

