-- ==== Sys2Proof/Machine/Cache.lean ====
section
/-!
DEFINITION. The control cores' data caches (R44, R45, R49): one coherent set of lines. When a line is
evicted is not stated: each tick may evict any of them.
-/

namespace Sys2Proof.Machine

/-- R44: data accesses to the address are cached on a control core. -/
def State.cached (s : State) (a : Nat) : Bool :=
  s.region a == .dram || (decide (CC_SHARED ≤ a) && decide (a < CC_SHARED + 0x800000))

/-- The address of the line that contains an address. -/
def lineOf (a : Nat) : Nat := a / 64 * 64

/-- The line at an address, if a cache holds it. -/
def State.dcLine (s : State) (a : Nat) : Option CacheLine :=
  s.dcache.find? fun l => l.addr == lineOf a

/-- A dirty line reaches memory: DRAM through port 4, as source `k`. -/
def State.dcStore (s : State) (l : CacheLine) (k : Nat) : State :=
  if !l.dirty then s
  else if s.region l.addr = .dram then s.dramPut 4 k l.addr .none l.bytes
  else s.storeBytes l.addr l.bytes

/-- DCWB: the line is written back, and stays. -/
def State.dcWb (s : State) (k a : Nat) : State :=
  match s.dcLine a with
  | some l =>
    let s := s.dcStore l k
    { s with dcache := s.dcache.map fun x => if x.addr = l.addr then { x with dirty := false } else x }
  | none => s

/-- DCINV: the line is dropped. -/
def State.dcInv (s : State) (a : Nat) : State :=
  { s with dcache := s.dcache.filter fun x => x.addr != lineOf a }

/-- DCFLUSH. -/
def State.dcFlush (s : State) (k a : Nat) : State := (s.dcWb k a).dcInv a

/-- Core `k` holds a line too. -/
def joinCore (k : Nat) (cs : List Nat) : List Nat := if cs.contains k then cs else cs ++ [k]

/-- The line at an address is in the cache of core `k`: it is filled from memory if no cache held it. -/
def State.dcFill (s : State) (k a : Nat) : State :=
  match s.dcLine a with
  | some l =>
    { s with dcache := s.dcache.map fun x =>
        if x.addr = l.addr then { x with cores := joinCore k x.cores } else x }
  | none =>
    let s := s.dramUse (4, k) .none (lineOf a) 64 false
    { s with dcache := s.dcache ++
        [{ addr := lineOf a, bytes := s.loadBytes (lineOf a) 64, dirty := false, cores := [k] }] }

/-- `n` bytes of one line as a control core loads them. -/
def State.dcLoad (s : State) (k a n : Nat) : List Byte × State :=
  let s := s.dcFill k a
  match s.dcLine a with
  | some l => ((l.bytes.drop (a % 64)).take n, s)
  | none => (List.replicate n 0, s)

/-- Bytes of one line as a control core stores them: no other cache holds the line then (R45). -/
def State.dcSave (s : State) (k a : Nat) (bs : List Byte) : State :=
  let s := s.dcFill k a
  { s with dcache := s.dcache.map fun x =>
      if x.addr = lineOf a then
        { x with bytes := x.bytes.take (a % 64) ++ bs ++ x.bytes.drop (a % 64 + bs.length), dirty := true,
                 cores := [k] }
      else x }

/-- A line leaves the caches of the cores given: the one that wrote it last writes it back, and a line that no
cache holds is gone. -/
def State.dcDrop (s : State) (l : CacheLine) (gone : Nat → Bool) : Option CacheLine × State :=
  let owner := l.cores.headD 0
  let out := gone owner && l.dirty
  let s := if out then s.dcStore l owner else s
  let left := l.cores.filter (!gone ·)
  (if left.isEmpty then none else some { l with cores := left, dirty := l.dirty && !out }, s)

/-- Lines leave the caches, each of the cores given for it. -/
def State.dcDrops (s : State) (gone : Nat → Nat → Bool) : State :=
  let (ls, s) := s.dcache.zipIdx.foldl (fun (acc : List CacheLine × State) (l, i) =>
    let (o, s) := acc.2.dcDrop l (gone i)
    (acc.1 ++ o.toList, s)) ([], s)
  { s with dcache := ls }

/-- Every line may be evicted from any cache that holds it. -/
def State.dcEvict (s : State) : State :=
  if s.dcache.isEmpty then s
  else
    let (d, s) := s.draw
    s.dcDrops fun i k => Config.freeBit d (4 * i + k)

/-- Core `k` leaves service: its dirty lines are written back, and its data cache holds nothing (R439). -/
def State.dcLeave (s : State) (k : Nat) : State := s.dcDrops fun _ j => j == k

end Sys2Proof.Machine
end

