-- ==== Sys2Proof/Machine/Check.lean ====
section
/-!
DEFINITION. The check-value units (R337 to R342).
-/

namespace Sys2Proof.Machine

/-- A polynomial of R337. -/
structure CvPoly where
  width : Nat
  poly  : Nat
  refl  : Bool
  init  : Nat
  final : Nat
deriving DecidableEq, Repr

def cvPoly : Nat → CvPoly
  | 0 => { width := 32, poly := 0x1EDC6F41, refl := true, init := 0xFFFFFFFF, final := 0xFFFFFFFF }
  | 1 => { width := 32, poly := 0x04C11DB7, refl := true, init := 0xFFFFFFFF, final := 0xFFFFFFFF }
  | 2 => { width := 16, poly := 0x1021, refl := false, init := 0xFFFF, final := 0 }
  | _ => { width := 8, poly := 0x2F, refl := false, init := 0xFF, final := 0xFF }

/-- The low `w` bits of a number in the opposite order. -/
def reflectBits : Nat → Nat → Nat
  | 0, _ => 0
  | w + 1, x => x % 2 * 2 ^ w + reflectBits w (x / 2)

/-- One bit of the division, most significant first. -/
def CvPoly.bit (p : CvPoly) (v : Nat) : Nat :=
  let v2 := 2 * v % 2 ^ p.width
  if v.testBit (p.width - 1) then v2 ^^^ p.poly else v2

/-- One byte into the unreflected running value. -/
def CvPoly.byte (p : CvPoly) (v : Nat) (b : Byte) : Nat :=
  let x := if p.refl then reflectBits 8 b.toNat else b.toNat
  (List.range 8).foldl (fun v _ => p.bit v) (v ^^^ x * 2 ^ (p.width - 8))

def CvPoly.bytes (p : CvPoly) (v : Nat) (bs : List Byte) : Nat := bs.foldl p.byte v

/-- The result of a running value: reflection and the final XOR. -/
def CvPoly.result (p : CvPoly) (v : Nat) : Nat :=
  (if p.refl then reflectBits p.width v else v) ^^^ p.final

/-- FOLD of a short frame (R339). -/
def CvPoly.fold (p : CvPoly) (addr seq : Nat) : Nat :=
  let h := p.width / 2
  addr % 2 ^ h * 2 ^ h + seq % 2 ^ h

/-- The running value that a seed, given in the form of R339, starts from. -/
def CvPoly.seed (p : CvPoly) (x : Nat) : Nat := if p.refl then reflectBits p.width x else x

/-! ### A unit -/

def State.cvPolyOf (s : State) (u : Nat) : CvPoly := cvPoly (s.fld (CV_CFG u) CV_CFG_POLY)

/-- CV_VALUE; its bits above the polynomial's width read zero. -/
def State.cvValue (s : State) (u : Nat) : Nat := (s.reg (CV_VALUE u)).toNat % 2 ^ (s.cvPolyOf u).width

def State.setCvValue (s : State) (u x : Nat) : State :=
  s.setReg (CV_VALUE u) (BitVec.ofNat 32 (x % 2 ^ (s.cvPolyOf u).width))

/-- Bytes enter the running value and are counted. -/
def State.cvTake (s : State) (u : Nat) (bs : List Byte) : State :=
  let s := s.setCvValue u ((s.cvPolyOf u).bytes (s.cvValue u) bs)
  s.setFld (CV_STAT u) CV_STAT_COUNT (min 0xFFFFFF (s.fld (CV_STAT u) CV_STAT_COUNT + bs.length))

/-- The oldest `n` bytes of the FIFO are processed. -/
def State.cvProcess (s : State) (u n : Nat) : State :=
  let q := (s.cvAt u).fifo
  if q.isEmpty then s
  else (s.onCv u fun c => { c with fifo := q.drop n }).cvTake u (q.take n)

/-- Every byte fed so far is processed (R338). -/
def State.cvDrain (s : State) (u : Nat) : State := s.cvProcess u (s.cvAt u).fifo.length

/-- A tick of 10 ns: ten FC cycles, a byte in each. -/
def State.cvTick (s : State) (u : Nat) : State := s.cvProcess u 10

/-- Bytes are fed; a write that finds the FIFO of 16 bytes full is held until space frees. -/
def State.cvFeed (s : State) (u : Nat) (bs : List Byte) : State :=
  let s := s.onCv u fun c => { c with fifo := c.fifo ++ bs }
  s.cvProcess u ((s.cvAt u).fifo.length - 16)

/-- A write to a unit's context or inputs: it ends a test of the unit (R441), and is ignored while a
descriptor owns the unit (R342). -/
def State.cvOwned (s : State) (u : Nat) (f : State → State) : State :=
  let s := (s.abandonTest (216 + u)).onCv u fun c => { c with wroteAt := s.now }
  if s.bit (CV_STAT u) CV_STAT_DMAOWN then s.fault 0x0481 u else f s

/-- The write of CV_DATA8, CV_DATA16 or CV_DATA32. -/
def State.cvDataWrite (s : State) (u n : Nat) (v : Word) : State :=
  s.cvOwned u fun s => s.cvFeed u (leBytes n v.toNat)

/-- The write of CV_START (R339). -/
def State.cvStartWrite (s : State) (u : Nat) : State :=
  s.cvOwned u fun s =>
    let s := (s.cvDrain u).setFld (CV_STAT u) CV_STAT_COUNT 0
    let p := s.cvPolyOf u
    let mode := s.fld (CV_CFG u) CV_CFG_MODE
    let seq := s.fld (CV_FRAME u) CV_FRAME_SEQ
    if mode = 1 then
      s.setCvValue u (p.seed (p.init ^^^ p.fold (s.fld (CV_FRAME u) CV_FRAME_ADDR) seq))
    else if mode = 2 then s.setCvValue u (p.byte (p.seed p.init) (BitVec.ofNat 8 seq))
    else s.setCvValue u (p.seed p.init)

/-- The write of CV_END (R340). -/
def State.cvEndWrite (s : State) (u : Nat) : State :=
  s.cvOwned u fun s =>
    let s := s.cvDrain u
    let p := s.cvPolyOf u
    let mode := s.fld (CV_CFG u) CV_CFG_MODE
    let seq := s.fld (CV_FRAME u) CV_FRAME_SEQ
    let res := p.result (s.cvValue u)
    let long := mode == 1 && decide (4096 < s.fld (CV_STAT u) CV_STAT_COUNT)
    let cmp := s.bit (CV_CFG u) CV_CFG_CMP
    let same := decide ((s.reg (CV_EXPECT u)).toNat % 2 ^ p.width = res)
    let s := s.setReg (CV_RESULT u) (BitVec.ofNat 32 res)
    let s := s.setFld (CV_FRAME u) CV_FRAME_SEQ
      (if mode = 1 then seq + 1 else if mode = 2 then seq / 256 * 256 + (seq + 1) % 256 else seq)
    let s := ((s.setFld (CV_STAT u) CV_STAT_OVERLEN (b2n long)).setFld (CV_STAT u) CV_STAT_MATCH
      (b2n (cmp && same))).setFld (CV_STAT u) CV_STAT_MISMATCH (b2n (cmp && !same))
    let s := if long then s.setEvt BLK_CV (8 + u) else s
    if cmp && !same then (s.setEvt BLK_CV u).fault 0x0482 u else s

/-- The write of CV_VALUE (R341). -/
def State.cvValueSet (s : State) (u : Nat) (v : Word) : State :=
  s.cvOwned u fun s => (s.cvDrain u).setCvValue u v.toNat

/-- The write of CV_CFG or CV_FRAME (R342). -/
def State.cvCfgWrite (s : State) (u off : Nat) (v : Word) : State :=
  s.cvOwned u fun s => s.typedWrite off v

/-- CV_DATA8 (R338). -/
def execCvData8 (u : Fin 8) (v : BitVec 32) (s : State) : Out := .next (s.cvDataWrite u 1 v)

/-- CV_DATA16 (R338). -/
def execCvData16 (u : Fin 8) (v : BitVec 32) (s : State) : Out := .next (s.cvDataWrite u 2 v)

/-- CV_DATA32 (R338). -/
def execCvData32 (u : Fin 8) (v : BitVec 32) (s : State) : Out := .next (s.cvDataWrite u 4 v)

/-- CV_START (R339): any value acts. -/
def execCvStart (u : Fin 8) (_v : BitVec 32) (s : State) : Out := .next (s.cvStartWrite u)

/-- CV_END (R340): any value acts. -/
def execCvEnd (u : Fin 8) (_v : BitVec 32) (s : State) : Out := .next (s.cvEndWrite u)

/-- CV_VALUE_WRITE (R341). -/
def execCvValueWrite (u : Fin 8) (v : BitVec 32) (s : State) : Out := .next (s.cvValueSet u v)

end Sys2Proof.Machine
end

