-- ==== Sys2Proof/Machine/Dma.lean ====
section
/-!
DEFINITION. The control of the DMA channels (R330, R333 to R336): descriptors, start, poke, abort, and the
end of a descriptor.
-/

namespace Sys2Proof.Machine

/-- STATE of a channel (R333). -/
def chIdle : Nat := 0
def chFetch : Nat := 1
def chRun : Nat := 2
def chStatus : Nat := 3
def chEndchk : Nat := 4
def chError : Nat := 5

def State.chState (s : State) (n : Nat) : Nat := s.fld (CH_STAT n) CH_STAT_STATE
def State.setChState (s : State) (n v : Nat) : State := s.setFld (CH_STAT n) CH_STAT_STATE v
def State.chPoked (s : State) (n : Nat) : Bool := s.bit (CH_STAT n) CH_STAT_POKED
def State.setPoked (s : State) (n : Nat) (b : Bool) : State := s.setFld (CH_STAT n) CH_STAT_POKED (b2n b)

/-- T, the address of the last descriptor fetched. -/
def State.chTail (s : State) (n : Nat) : Nat := s.reg64 (CH_TAIL_LO n) (CH_TAIL_HI n)

/-! ### Descriptors (R330, R331) -/

/-- A descriptor's fields from its 64 bytes as a number. -/
def dmaFields (x : Nat) : DmaDesc :=
  let f := fun (off lo w : Nat) => x / 2 ^ (8 * off + lo) % 2 ^ w
  { src := f 0 0 48, dst := f 8 0 48, slen := f 0x10 0 24 + 1, sstride := sext 32 (f 0x14 0 32),
    scnt := f 0x18 0 24 + 1, dlen := f 0x1C 0 24 + 1, dstride := sext 32 (f 0x20 0 32),
    dcnt := f 0x24 0 24 + 1, irq := f 0x28 0 1 == 1, rbk := f 0x28 1 1 == 1, ns := f 0x28 2 1 == 1,
    hint := f 0x28 3 2, fill := f 0x28 5 1 == 1, cven := f 0x28 6 1 == 1, cvu := f 0x28 7 3 }

/-- None where a must-be-zero field is not zero or the totals differ. -/
def dmaParse (x : Nat) : Option DmaDesc :=
  let f := fun (off lo w : Nat) => x / 2 ^ (8 * off + lo) % 2 ^ w
  let d := dmaFields x
  let zero := f 6 0 16 == 0 && f 0xE 0 16 == 0 && f 0x13 0 8 == 0 && f 0x1B 0 8 == 0 &&
    f 0x1F 0 8 == 0 && f 0x27 0 8 == 0 && f 0x28 10 22 == 0 && f 0x2C 0 32 == 0 && f 0x30 1 5 == 0 &&
    f 0x36 0 16 == 0
  if zero && (d.fill || d.slen * d.scnt == d.dlen * d.dcnt) then some d else none

/-- Bytes that a descriptor moves. -/
def DmaDesc.total (d : DmaDesc) : Nat := d.dlen * d.dcnt

/-- The address of a byte of one side: line `i / len` starts at base + line × stride, modulo 2^48. -/
def dmaAddr (base : Nat) (stride : Int) (len i : Nat) : Nat :=
  (((base : Int) + (i / len : Nat) * stride + (i % len : Nat)) % (2 ^ 48 : Int)).toNat

def DmaDesc.srcAt (d : DmaDesc) (i : Nat) : Nat := dmaAddr d.src d.sstride d.slen i
def DmaDesc.dstAt (d : DmaDesc) (i : Nat) : Nat := dmaAddr d.dst d.dstride d.dlen i

/-- One side of a descriptor has a line that reaches host memory. -/
def linesHost (base : Nat) (stride : Int) (len cnt : Nat) : Bool :=
  (List.range cnt).any fun k =>
    decide (0x800000000000 ≤ dmaAddr base stride len (k * len)) ||
      decide (0x800000000000 ≤ dmaAddr base stride len (k * len + (len - 1)))

def DmaDesc.readsHost (d : DmaDesc) : Bool := !d.fill && linesHost d.src d.sstride d.slen d.scnt
def DmaDesc.writesHost (d : DmaDesc) : Bool := linesHost d.dst d.dstride d.dlen d.dcnt

/-! ### The end of a descriptor (R335, R336) -/

/-- STATUS and BYTES are written to the descriptor at T: RESULT as the write leaves it, DENIED where PROT
forbids it (R336). Registers hold no descriptor. -/
def State.dmaStatus (s : State) (n : Fin 32) (result : Nat) (arrived : Bool) : Nat × State :=
  let a := s.chTail n + 0x38
  let bs := leBytes 4 (1 + 2 * b2n arrived + 4 * result) ++ leBytes 4 (min 0xFFFFFFFF (s.dmaAt n).moved)
  if !s.permits (.dma n) a true then (if result = 0 then 2 else result, s.denied (.dma n) a)
  else
    (result, match s.region a with
      | .regs => s
      | .unmapped => s.unmapped (.dma n) a
      | .dram => s.dramPut 5 n.val (a % 2 ^ 48) .none bs
      | _ => s.putBytes a bs)

/-- A running descriptor other than channel n's owns a check-value unit. -/
def State.cvOwnedElse (s : State) (n u : Nat) : Bool :=
  (List.range 32).any fun k => k != n && (s.dmaAt k).owns &&
    match (s.dmaAt k).desc with
    | some d => d.cvu == u
    | none => false

/-- A descriptor's hold on its check-value unit ends (R332). -/
def State.cvRelease (s : State) (n : Nat) : State :=
  match (s.dmaAt n).desc with
  | some d =>
    if (s.dmaAt n).owns && !s.cvOwnedElse n d.cvu then s.setFld (CV_STAT d.cvu) CV_STAT_DMAOWN 0 else s
  | none => s

/-- A write of a channel arrives. -/
def State.dmaPlace (s : State) (n : Nat) (e : Nat × List Byte) : State :=
  if s.region e.1 = .dram then s.dramPut 5 n e.1 .none e.2 else s.putBytes e.1 e.2

/-- Of the writes of a channel under way, those that are picked arrive, and with each the earlier ones of its line:
a reader sees old or new data, line by line (R335, R343). -/
def State.dmaLand (s : State) (n : Nat) (pick : Nat → Nat → Bool) : State :=
  let es := (s.dmaAt n).flight.zipIdx
  let goes := fun (e : (Nat × List Byte) × Nat) =>
    es.any fun x => decide (e.2 ≤ x.2) && x.1.1 / 64 == e.1.1 / 64 && pick x.2 x.1.1
  if es.isEmpty then s
  else
    ((es.filter goes).foldl (fun (s : State) e => s.dmaPlace n e.1) s).onDma n fun c =>
      { c with flight := (es.filter fun e => !goes e).map (·.1) }

/-- The status write: the unit is released, the event raised, and the chain goes on or stops. Issuing
the end check's read clears POKED (R334). What the descriptor has written to host memory has arrived by then
(R329), and with ARRIVED all of it (R335). -/
def State.dmaFinish (s : State) (n : Fin 32) (result : Nat) (arrived reach : Bool) : State :=
  let irq := match (s.dmaAt n).desc with | some d => d.irq | none => false
  let s := s.dmaLand n fun _ a => arrived || decide (0x800000000000 ≤ a)
  let (result, s) := if reach then s.dmaStatus n result arrived else (result, s)
  let s := s.cvRelease n
  let s := (s.onDma n fun c => { c with desc := none, raw := none, owns := false, result := 0 }).setFld
    (CH_STAT n) CH_STAT_RESULT result
  let s := if result = 0 then
      ((s.setFld (CH_STAT n) CH_STAT_DONECNT (s.fld (CH_STAT n) CH_STAT_DONECNT + 1)).setChState n
        chEndchk).setPoked n false
    else s.setChState n chError
  if irq || result != 0 then s.setEvt BLK_DMA n else s

/-! ### Start, abort, poke (R333, R334, R336, R441) -/

/-- A start or a poke that has no effect. -/
def State.chRefused (s : State) (n : Nat) : State := s.fault 0x0441 n

/-- START: the descriptor at CH_HEAD becomes T and is fetched. A channel under test starts when the test
ends. -/
def State.chStart (s : State) (n : Nat) : State :=
  if (s.chState n ≠ chIdle ∧ s.chState n ≠ chError) ∨ s.unit (224 + n) = 2 then s.chRefused n
  else if s.unit (224 + n) = 1 then s.onDma n fun c => { c with late := true }
  else
    let s := (s.setReg (CH_TAIL_LO n) (s.reg (CH_HEAD_LO n))).setReg (CH_TAIL_HI n) (s.reg (CH_HEAD_HI n))
    (s.onDma n fun c => { c with late := false, moved := 0 }).setChState n chFetch

/-- ABORT: a channel that is busy stops at its next transfer boundary with RESULT = ABORTED. -/
def State.chAbort (s : State) (n : Nat) : State :=
  if s.chState n = chIdle ∨ s.chState n = chError then s
  else s.onDma n fun c => { c with result := 5 }

/-- A poke in IDLE starts the end check at once, whose read clears POKED. -/
def State.chIdlePoke (s : State) (n : Nat) : State :=
  if s.chState n = chIdle ∧ s.chPoked n ∧ s.unit (224 + n) ≠ 1 then
    (s.setPoked n false).setChState n chEndchk
  else s

/-- The write of CHAIN_POKE. -/
def State.chPoke (s : State) (n : Nat) : State :=
  if (s.dmaAt n).fetched then (s.setPoked n true).chIdlePoke n else s.chRefused n

/-- The write of CH_CTRL. -/
def State.chCtrlWrite (s : State) (n : Nat) (v : Word) : State :=
  let start := fldGet CH_CTRL_START v = 1
  let abort := fldGet CH_CTRL_ABORT v = 1
  let s' := if abort then s.chAbort n else s
  if start then s'.chStart n else s'

/-- The write of CH_HEAD: ignored unless the channel is IDLE or in ERROR. -/
def State.chHeadWrite (s : State) (n off : Nat) (v : Word) : State :=
  if s.chState n = chIdle ∨ s.chState n = chError then s.typedWrite off v else s

/-- A test of the channel ends: what was written during it takes effect (R441). -/
def State.chResume (s : State) (n : Nat) : State :=
  if (s.dmaAt n).late then s.chStart n else s.chIdlePoke n

/-- CHANNEL_START (R333). -/
def execChannelStart (n : Fin 32) (s : State) : Out := .next (s.chStart n)

/-- CHAIN_POKE (R334): any value acts. -/
def execChainPoke (n : Fin 32) (_v : BitVec 32) (s : State) : Out := .next (s.chPoke n)

end Sys2Proof.Machine
end

