-- ==== Sys2Proof/Machine/Dram.lean ====
section
/-!
DEFINITION. The DRAM controller (R284 to R315): population, training, frequency points, requests,
self-refresh, errors, and live migration.
-/

namespace Sys2Proof.Machine

/-! ### Ranks -/

/-- A rank takes a role, and its unit the state that goes with it (R429). -/
def State.setRole (s : State) (c r v : Nat) : State :=
  (s.setFld (MC_RK_STAT c r) MC_RK_STAT_ROLE v).setUnit (rankUnit c r)
    (if v = roleActive then 0 else if v = roleSpare then 3 else 2)

/-- A rank with a role. -/
def State.populated (s : State) (c r : Nat) : Bool := s.role c r != roleAbsent

/-- A rank that is there: with a role, or before ENABLE by MC_CFG. A change of frequency point moves it. -/
def State.installed (s : State) (c r : Nat) : Bool :=
  s.populated c r ||
    (!s.bit MC_CFG MC_CFG_ENABLE && decide (c < s.nch) && decide (r ≤ s.fld MC_CFG MC_CFG_NRK_M1))

/-- Every rank, in order. -/
def allRanks : List (Nat × Nat) := (List.range 32).map fun i => (i / 4, i % 4)

/-! ### Configuration (R285, R287, R289) -/

def isPow2or0 (n : Nat) : Bool := [0, 1, 2, 4, 8].contains n

/-- A configuration that the controller accepts. -/
def State.mcConfigOk (s : State) : Bool :=
  decide (s.fld MC_CFG MC_CFG_DEV ≤ 1) && decide (s.fld MC_CFG MC_CFG_DENS ≤ 2) &&
    (List.range 4).all (fun j =>
      !(s.fld MC_CFG MC_CFG_MIRROR).testBit j || decide (2 * j + 1 < s.nch)) &&
    isPow2or0 s.mirPairs.length && isPow2or0 s.plainChs.length

/-- The roles after ENABLE: active ranks in order, then the spare; DRAM is mapped. -/
def State.mcStart (s : State) : State :=
  let nrk := s.fld MC_CFG MC_CFG_NRK_M1 + 1
  let s := (s.setFld MC_CFG MC_CFG_ENABLE 1).onMc fun m => { m with scrubAt := 0, scrubT0 := s.now }
  s.each s.nch fun c s => s.each nrk fun r s =>
    if r < s.activeRanks then (s.setRole c r roleActive).setFld (MC_RK_STAT c r) MC_RK_STAT_LRANK r
    else s.setRole c r roleSpare

/-- The write of MC_CFG. -/
def State.mcCfgWrite (s : State) (v : Word) : State :=
  if s.bit MC_CFG MC_CFG_ENABLE then
    let old := s.reg MC_CFG
    let s := s.typedWrite MC_CFG (fldPut MC_CFG_AUTOMIG (fldGet MC_CFG_AUTOMIG v) old)
    if (old ^^^ v) &&& 0xFBFC01 = 0 then s else s.fault 0x03C8
  else
    let s := s.typedWrite MC_CFG (fldPut MC_CFG_ENABLE 0 v)
    if fldGet MC_CFG_ENABLE v = 0 then s
    else if s.mcConfigOk then s.mcStart
    else s.fault 0x03C8

/-- ENABLE (R285, R289). -/
def execMcEnable (v : BitVec 32) (s : State) : Out :=
  .next (s.mcCfgWrite (fldPut MC_CFG_ENABLE 1 v))

/-! ### Training (R290 to R296) -/

/-- The write of MC_TRN_CMD: GO starts an operation, or refuses one that is not permitted. -/
def State.trnCmdWrite (s : State) (c : Nat) (v : Word) : State :=
  let s := s.typedWrite (MC_TRN_CMD c) v
  let stat := MC_TRN_STAT c
  let op := fldGet MC_TRN_CMD_OP v
  if fldGet MC_TRN_CMD_GO v = 0 ∨ s.bit stat MC_TRN_STAT_BUSY then s
  else if op = 7 ∨ (op ≤ 3 ∧ s.bit MC_CFG MC_CFG_ENABLE) then s.setFld stat MC_TRN_STAT_RESULT 3
  else
    let s := (s.setFld stat MC_TRN_STAT_BUSY 1).setFld stat MC_TRN_STAT_DONE 0
    s.onChan c fun x => { x with gather := some {
        op := op, rank := fldGet MC_TRN_CMD_RANK v, point := s.fld MC_FREQ_CMD MC_FREQ_CMD_CUR,
        start := fldGet MC_TRN_CMD_START v, step := max 1 (fldGet MC_TRN_CMD_STEP v),
        count := fldGet MC_TRN_CMD_COUNT_M1 v + 1, stale := false } }

/-- The command of one training operation: the write with GO = 1 and its OP. -/
def State.trnCommand (s : State) (c op : Nat) (v : Word) : State :=
  s.trnCmdWrite c (fldPut MC_TRN_CMD_GO 1 (fldPut MC_TRN_CMD_OP op v))

/-- INIT (R290). -/
def execInit (ch : Fin 8) (v : BitVec 32) (s : State) : Out := .next (s.trnCommand ch 0 v)

/-- CA (R292). -/
def execCa (ch : Fin 8) (v : BitVec 32) (s : State) : Out := .next (s.trnCommand ch 1 v)

/-- WLEV (R292). -/
def execWlev (ch : Fin 8) (v : BitVec 32) (s : State) : Out := .next (s.trnCommand ch 2 v)

/-- RDQS (R292). -/
def execRdqs (ch : Fin 8) (v : BitVec 32) (s : State) : Out := .next (s.trnCommand ch 3 v)

/-- RDEYE (R292). -/
def execRdeye (ch : Fin 8) (v : BitVec 32) (s : State) : Out := .next (s.trnCommand ch 4 v)

/-- WREYE (R292): the lines that it writes are restored after each sample. -/
def execWreye (ch : Fin 8) (v : BitVec 32) (s : State) : Out := .next (s.trnCommand ch 5 v)

/-- OSC (R292). -/
def execOsc (ch : Fin 8) (v : BitVec 32) (s : State) : Out := .next (s.trnCommand ch 6 v)

/-- Lanes of an operation (R293). -/
def trnLanes (op : Nat) : Nat := if op = 1 then 16 else if op = 2 ∨ op = 3 then 20 else 80

/-- DQS entries in use: those from 90 on are not, with x8 devices. -/
def State.dqsUsed (s : State) : Nat := if s.fld MC_CFG MC_CFG_DEV = 1 then 10 else 20

/-- The bytes of one step of a gather. -/
def State.trnStep (s : State) (op : Nat) (x : BitVec 128) : List Byte :=
  leBytes 16 (x.toNat % 2 ^ (if op = 2 ∨ op = 3 then s.dqsUsed else trnLanes op))

/-- The counts of OSC. -/
def State.oscCounts (s : State) (xs : List (BitVec 128)) : List Byte :=
  ((List.range 20).map fun i =>
    leBytes 2 (if i < s.dqsUsed then (xs.getD i 0).toNat % 65536 else 0)).flatten

/-- An operation may end with its samples (R292, R296): a gather that is not STALE has taken every step,
and none of its samples is taken while a port in panic keeps it from the rank or the rank sleeps. -/
def State.gatherEnds (s : State) (c : Nat) (g : GatherSt) (n : Nat) : Bool :=
  g.stale || g.op == 0 ||
    ((g.op == 6 || decide (g.count ≤ n)) &&
      !(s.bit MC_CFG MC_CFG_ENABLE && (s.panicHolds c g.rank || s.srOf c g.rank != srAwake)))

/-- INIT has completed on a channel (R290): every rank of it is initialised, with ZQ calibrated. -/
def State.ranksInit (s : State) (c : Nat) : State :=
  s.each (s.fld MC_CFG MC_CFG_NRK_M1 + 1) fun r s =>
    s.onRank (rankIx c r) fun x => { x with init := true, zqAt := s.now, rows := [] }

/-- TRN_DONE (R290, R293, R294): the steps or counts, then the header, reach the result buffer. A
gather that a frequency change ended is STALE. -/
def execTrnDone (ch : Fin 8) (samples : List (BitVec 128)) (s : State) : Out :=
  let c := ch.val
  let stat := MC_TRN_STAT c
  .next <|
    match (s.chanAt c).gather with
    | none => s
    | some g =>
      if !s.gatherEnds c g samples.length then s else
      let s := s.onChan c fun x => { x with gather := none }
      let s := if g.op = 0 then s.ranksInit c else s
      let steps := samples.take g.count
      let seq := (s.fld stat MC_TRN_STAT_SEQ + 1) % 65536
      let buf := TRN_BUF c
      let s :=
        if g.op = 0 then s
        else
          let body := if g.op = 6 then s.oscCounts samples else (steps.map (s.trnStep g.op)).flatten
          let sweep := if g.op = 6 then List.replicate 4 0
            else leBytes 2 g.start ++ leBytes 1 g.step ++ leBytes 1 g.count
          let s := s.storeBytes (buf + 64) body
          s.storeBytes buf (leBytes 4 seq ++ leBytes 1 g.op ++ leBytes 1 g.rank ++ leBytes 1 g.point ++
            leBytes 1 (b2n g.stale) ++ sweep ++ List.replicate 52 0)
      let s := if g.op = 0 then s else
        (s.setFld stat MC_TRN_STAT_SEQ seq).setFld stat MC_TRN_STAT_DONE
          (if g.op = 6 then 0 else steps.length)
      let s := ((s.setFld stat MC_TRN_STAT_BUSY 0).setFld stat MC_TRN_STAT_RESULT
        (if g.stale then 2 else 1)).setEvt BLK_MC 0
      if g.stale then s.fault 0x03C8 else s

/-- The delay entries of a rank come into effect (R295). -/
def State.applyDelays (s : State) (c r : Nat) : State :=
  s.each 4 fun p s => s.each 116 fun e s =>
    let a := MC_DELAY c p r e
    s.onMc fun m => { m with delays := m.delays.set 0 a (s.reg a) }

/-- The write of a delay entry. -/
def State.delayWrite (s : State) (c p r e : Nat) (v : Word) : State :=
  let a := MC_DELAY c p r e
  let s := s.typedWrite a v
  if s.srOf c r = srInSr ∨ s.bit MC_CFG MC_CFG_ENABLE = false then
    s.onMc fun m => { m with delays := m.delays.set 0 a (s.reg a) }
  else s

/-- DELAY_ENTRY_WRITE (R295). -/
def execDelayEntryWrite (ch : Fin 8) (point rank : BitVec 2) (e : Fin 116) (v : BitVec 32) (s : State) :
    Out :=
  .next (s.delayWrite ch point.toNat rank.toNat e v)

/-! ### Refresh, calibration and temperature (R290, R300) -/

/-- The rank takes refresh commands: it is populated and awake. -/
def State.refreshes (s : State) (c r : Nat) : Bool :=
  s.populated c r && s.srOf c r == srAwake && !s.bit MC_FREQ_CMD MC_FREQ_CMD_BUSY

/-- REFRESH (R295, R300): an all-bank refresh closes the rank's rows. -/
def execRefresh (ch : Fin 8) (r : Fin 4) (s : State) : Out :=
  .next <|
    if s.refreshes ch r then
      ((s.onRank (rankIx ch r) fun x => { x with refAt := s.now, rows := [] }).dimmCommand ch r
        none).applyDelays ch r
    else s

/-- ZQ_CALIBRATION (R290). -/
def execZqCalibration (ch : Fin 8) (r : Fin 4) (s : State) : Out :=
  .next <|
    if s.refreshes ch r then
      (s.onRank (rankIx ch r) fun x => { x with zqAt := s.now }).dimmCommand ch r none
    else s

/-- TEMPERATURE_POLL (R300). -/
def execTemperaturePoll (ch : Fin 8) (dimm : Fin 2) (celsius : Int) (s : State) : Out :=
  let s := s.onChan ch fun x => { x with temps := x.temps.set 0 dimm celsius }
  .next (if 95 ≤ celsius then (s.setEvt BLK_MC 6).fault 0x23C7 ch else s)

/-! ### Panic (R301) -/

/-- An expansion core waits for fetch data: it is idle, none of its tiles is fetched, and the fetch time of
the next has come (R95). -/
def State.fetchWaits (s : State) (x : Nat) : Bool :=
  let c := s.xcAt x
  let on := fun (test : RenderPhase → Bool) => s.adm.tiles.find? fun t =>
    decide (t.fate = .waiting) && t.renders.any fun r => r.core == x && test r.phase
  c.tile.isNone && c.handed.isNone && (on fun | .fetched _ => true | _ => false).isNone &&
    (on fun | .queued => true | _ => false).any fun t => decide (s.tileR t - 64 ≤ s.lastLn)

/-- The urgency of port 0. -/
def State.fetchUrgency (s : State) : Nat :=
  min 255 (16 * ((List.range 144).filter s.fetchWaits).length)

/-- A port's urgency level enters or leaves panic. -/
def State.portLevel (s : State) (port level : Nat) : State :=
  let a := portCfg port
  let on := s.fld a MC_PORT_CFG0_PANIC_ON
  if 4 ≤ port ∨ on = 0 then s.setFld a MC_PORT_CFG0_PANIC 0
  else if s.bit a MC_PORT_CFG0_PANIC then
    (if level ≤ s.fld a MC_PORT_CFG0_PANIC_OFF then s.setFld a MC_PORT_CFG0_PANIC 0 else s)
  else if on ≤ level then s.setFld a MC_PORT_CFG0_PANIC 1
  else s

/-- The level that a port reports: port 0's follows the cores, ports 1 to 3 report the fill given. -/
def State.portUrgency (s : State) (port fill : Nat) : Nat := if port = 0 then s.fetchUrgency else fill

/-- PANIC (R301). -/
def execPanic (port : Fin 8) (level : BitVec 8) (s : State) : Out :=
  .next (s.portLevel port (s.portUrgency port level.toNat))

/-- The write of MC_PORT_CFG: a PANIC_ON of 0 disables panic. -/
def State.portCfgWrite (s : State) (p : Nat) (v : Word) : State :=
  let s := s.typedWrite (portCfg p) v
  if s.fld (portCfg p) MC_PORT_CFG0_PANIC_ON = 0 then s.setFld (portCfg p) MC_PORT_CFG0_PANIC 0 else s

/-! ### Migration (R312 to R314) -/

/-- A migration is refused. -/
def State.migRefuse (s : State) (c : Nat) : State :=
  let s := if (s.chanAt c).mig.isSome then s else s.setFld (MC_MIG_STAT c) MC_MIG_STAT_STATE 3
  s.fault 0x23C6 c

/-- A rank woken for a migration: one that has entered self-refresh exits. -/
def State.wakeRank (s : State) (c r : Nat) : State :=
  if s.srOf c r = srAwake ∨ s.freqBusy then s
  else if s.srOf c r = srDrain then s.setSr c r srAwake
  else if s.srOf c r = srExit then s
  else s.srLeaves c r

/-- A migration starts, or is refused. A spare under test ends its test (R438). -/
def State.migStart (s : State) (c src : Nat) : State :=
  match s.freeSpare c with
  | none => s.migRefuse c
  | some dst =>
    if (s.chanAt c).mig.isSome then s.migRefuse c
    else
      let s := s.abandonTest (rankUnit c dst)
      let s := s.onChan c fun x => { x with mig := some { src := src, dst := dst, copied := 0 } }
      let s := (s.setFld (MC_RK_STAT c src) MC_RK_STAT_MIG 1).setFld (MC_RK_STAT c dst)
        MC_RK_STAT_MIG 1
      let s := (s.wakeRank c src).wakeRank c dst
      ((s.setFld (MC_MIG_STAT c) MC_MIG_STAT_STATE 1).setFld (MC_MIG_STAT c) MC_MIG_STAT_PCT
        0).setEvt BLK_MC 2

/-- The ranks of a migration are released. -/
def State.migEnd (s : State) (c : Nat) (m : MigSt) (state : Nat) : State :=
  let s := s.onChan c fun x => { x with mig := none }
  let s := (s.setFld (MC_RK_STAT c m.src) MC_RK_STAT_MIG 0).setFld (MC_RK_STAT c m.dst)
    MC_RK_STAT_MIG 0
  (s.setFld (MC_MIG_STAT c) MC_MIG_STAT_STATE state).setEvt BLK_MC 3

/-- The write of MC_MIG_CMD. -/
def State.migCmdWrite (s : State) (c : Nat) (v : Word) : State :=
  let cmd := fldGet MC_MIG_CMD_CMD v
  if cmd = 1 then
    match s.physRank c (fldGet MC_MIG_CMD_LRANK v) with
    | some src => s.migStart c src
    | none => s.migRefuse c
  else if cmd = 2 then
    match (s.chanAt c).mig with
    | some m => s.migEnd c m 3
    | none => s
  else s

/-- MIGRATION_START (R312). -/
def execMigrationStart (ch : Fin 8) (v : BitVec 32) (s : State) : Out :=
  .next (s.migCmdWrite ch (fldPut MC_MIG_CMD_CMD 1 v))

/-- MIGRATION_ABORT (R314). -/
def execMigrationAbort (ch : Fin 8) (v : BitVec 32) (s : State) : Out :=
  .next (s.migCmdWrite ch (fldPut MC_MIG_CMD_CMD 2 v))

/-- The size of a rank. -/
def State.rankBytes (s : State) : Nat := rankSize (s.fld MC_CFG MC_CFG_DEV) (s.fld MC_CFG MC_CFG_DENS)

/-- Copy progress in percent (R313). -/
def State.migPct (s : State) (m : MigSt) : Nat := min 100 (100 * m.copied / s.rankBytes)

/-! ### Errors (R307 to R311) -/

/-- A rank's fault becomes lasting (R312). -/
def State.rankFails (s : State) (c r : Nat) : State :=
  if s.rankLasting c r then s
  else
    let s := ((s.setFld (MC_RK_STAT c r) MC_RK_STAT_LASTING 1).setEvt BLK_MC 5).fault 0x23C5 (rankIx c r)
    if s.bit MC_CFG MC_CFG_AUTOMIG && s.role c r == roleActive && (s.chanAt c).mig.isNone then
      s.migStart c r
    else s

/-- A corrected error on a rank (R308). -/
def State.correctedError (s : State) (c r : Nat) : State :=
  let s := (s.onRank (rankIx c r) fun x => { x with
    ces := (x.ces.filter fun t => decide (s.now - t < ticksHour)) ++ [s.now] }).count (MC_CNT 0)
  let (l, s) := s.faultCounted 0x13C1 (rankIx c r) 0 32 ticksHour
  if l then s.rankFails c r else s

/-- Corrected errors of a rank in the current 1 h window, as MC_RK_STAT.CE shows them. -/
def State.ceCount (s : State) (c r : Nat) : Nat :=
  min 65535 (((s.rankAt (rankIx c r)).ces.filter fun t => decide (s.now - t < ticksHour)).length)

/-- An uncorrectable error in a line of a rank (R309): of a mirrored pair the bad copy is rewritten. -/
def State.uncorrectable (s : State) (mirrored : Bool) (c r line : Nat) : State :=
  let s :=
    if mirrored then (((s.count (MC_CNT 2)).setEvt BLK_MC 4).fault 0x13C3 (rankIx c r)).writeBack line
    else (s.setPoison line).poisonReport line
  s.rankFails c r

/-! ### What the check data says (R307) -/

/-- The code's verdict on a burst: clean, corrected, detected, or beyond what it guarantees. -/
inductive EccClass where
  | clean
  | corrected
  | detected
  | beyond
deriving DecidableEq, Repr

/-- With x4 devices the code corrects one device and detects two; with x8 devices it corrects one pin and
detects one device. -/
def eccClass (x8 : Bool) (pins : List (Fin 40)) : EccClass :=
  let ps := (pins.map fun p => p.val).eraseDups
  let devs := (ps.map fun p => p / (if x8 then 8 else 4)).eraseDups.length
  if ps.isEmpty then .clean
  else if x8 then (if ps.length = 1 then .corrected else if devs = 1 then .detected else .beyond)
  else if devs = 1 then .corrected else if devs = 2 then .detected else .beyond

/-- What a burst with these errors is taken for; beyond its guarantee the code may take it for anything. -/
def State.eccVerdict (s : State) (check : ReadCheck) : EccClass × Bool × State :=
  match check with
  | .clean => (.clean, false, s)
  | .errors pins =>
    match eccClass (s.fld MC_CFG MC_CFG_DEV == 1) pins with
    | .beyond =>
      let (d, s) := s.draw
      ([EccClass.clean, .corrected, .detected].getD (Config.freeNat d % 3) .detected, true, s)
    | v => (v, false, s)

/-- A line is read on a rank (R308, R309): whether its data is poisoned, whether it is wrong without that
being known, and the reports. A corrected line is written back, its poison with it. -/
def State.checkLine (s : State) (check : ReadCheck) (chan line : Nat) : Bool × Bool × State :=
  let p := s.dramPlace (64 * line)
  match s.lineRanks chan line false with
  | [] => (s.linePoisoned line, false, s)
  | (c, r) :: _ =>
    let (v, wrong, s) := s.eccVerdict check
    match v with
    | .detected =>
      let m := p.chans.length == 2
      (!m, false, s.uncorrectable m c r line)
    | v =>
      let s := if v = .corrected then (s.correctedError c r).writeBack line else s
      if s.linePoisoned line then (true, false, s.poisonReport line) else (false, wrong, s)

/-! ### The copy of a migration (R313) -/

/-- The address at an offset of a channel's logical rank: R288 read backwards. -/
def State.rankAddr (s : State) (c l off : Nat) : Nat :=
  let low := s.mirPairs.contains (c / 2)
  let n := if low then s.mirPairs.length else s.plainChs.length
  let j := if low then s.mirPairs.findIdx (· == c / 2) else s.plainChs.findIdx (· == c)
  let a := l * s.rankBytes + off
  let hi := a / 256 * 2 ^ (8 + Nat.log2 n)
  (if low then 0 else s.mirSize) + hi + 256 * (j ^^^ hi / 2 ^ 20 % 2 ^ Nat.log2 n) + a % 256

/-- One line is copied, at an offset of the rank: read from the source and written to the target. DESIGN
CHOICE: whether the source's burst has an error, and whether it is corrected, is free. -/
def State.copyLine (s : State) (c : Nat) (m : MigSt) (off : Nat) : State :=
  let line := s.rankAddr c (s.fld (MC_RK_STAT c m.src) MC_RK_STAT_LRANK) off / 64
  let (d, s) := (((s.portGrant c 7 0).burst c m.src line .close).burst c m.dst line .close).draw
  match Config.freeNat d % 3 with
  | 0 => s
  | 1 => s.correctedError c m.src
  | _ => s.uncorrectable (s.mirPairs.contains (c / 2)) c m.src line

/-- The copies go on at 1 GB/s, which is 10 bytes per tick, while both ranks are awake; while a port is in
panic none begins another line (R297, R313). -/
def State.migTick (s : State) : State :=
  s.each 8 fun c s =>
    match (s.chanAt c).mig with
    | none => s
    | some m =>
      if (s.anyPanic ∧ m.copied % 64 = 0) ∨ s.freqBusy ∨ s.srOf c m.src ≠ srAwake ∨ s.srOf c m.dst ≠ srAwake then s
      else
        let n := min s.rankBytes (m.copied + 10)
        let t := s.onChan c fun x => { x with mig := some { m with copied := n } }
        if m.copied / 64 < n / 64 then t.copyLine c m (m.copied / 64 * 64) else t

end Sys2Proof.Machine
end

