-- ==== Sys2Proof/Machine/DramQueue.lean ====
section
/-!
DEFINITION. The requests of the DRAM controller (R297 to R299, R305 to R311), self-refresh (R304, R305), the
change of frequency point (R291), patrol, parity replay, the end of a migration, and sideband.
-/

namespace Sys2Proof.Machine

/-! ### Requests (R284, R297, R298, R305) -/

/-- The block that a port serves, for an unmapped access (R299, R421). -/
def portBlk (p : Nat) : Nat := [BLK_XC, BLK_BQ, BLK_VE, BLK_IP, BLK_CC, BLK_DMA, BLK_HI].getD p BLK_MC

/-- A request is served (R298, R309): a write enters the write buffers, and its data is what every later
read returns; a read's errors concern its first line, unless that is served from a write buffer. -/
def State.serve (s : State) (port src chan a : Nat) (hint : PageHint) (op : DramOp) : State :=
  match op with
  | .write d => (s.acceptWrite port src hint a d.length).storeBytes a d
  | .read n check =>
    let early := s.buffered chan (a / 64)
    let (bad, wrong, s) := (linesOf a n).zipIdx.foldl (fun (acc : Bool × Bool × State) (l, i) =>
      let (b, w, s) := acc.2.2.checkLine (if i = 0 ∧ early = false then check else .clean) chan l
      (acc.1 || b, acc.2.1 || w, s)) (false, false, s.issueRead chan hint a n)
    let (bs, s) := if wrong then
        let (d, s) := s.draw
        ((List.range n).map (Config.freeByte d), s)
      else (s.loadBytes a n, s)
    s.onMc fun m => { m with answer := bs, bad := bad }

/-- A request arrives (R13, R297, R305): it is served, or it waits. Port 7's waits while a port is in panic,
and none overtakes an earlier one of its port to the same line. -/
def State.dramAsk (s : State) (port src a : Nat) (hint : PageHint) (op : DramOp) : State :=
  let n := opLen op
  if n = 0 then s
  else if !decide (a + n ≤ s.dramCap) then
    let s := s.fault (commonCode 1 (portBlk port) 0x3A) 0xFF a
    match op with
    | .read n _ => s.onMc fun m => { m with answer := List.replicate n 0, bad := false }
    | .write _ => s
  else
    let write := opWrites op
    let c := s.homeChan a write
    if s.mustWait c a n write || samePortLine s.mc.waiting port a n || (port == 7 && s.anyPanic) then
      (s.dramWake c a n write).dramQueue port src a hint (.ask op)
    else (s.portGrant c port src).serve port src c a hint op

/-- DRAM_REQUEST (R284, R297 to R299, R305, R307 to R310). -/
def execDramRequest (x : DramSource) (addr : BitVec 48) (op : DramOp) (s : State) : Out :=
  .next (s.dramAsk x.port x.src addr.toNat x.hint op)

/-- The requests at a channel that may be issued, as the scheduler sees them. -/
def State.issuable (s : State) (c : Nat) : List Candidate :=
  s.mc.waiting.zipIdx.filterMap fun (w, i) =>
    let n := waitLen w.op
    match w.since with
    | none => none
    | some t =>
      if w.chan ≠ c ∨ s.notYet c w.addr n (waitWrites w.op) ∨
          samePortLine (s.mc.waiting.take i) w.port w.addr n ∨ (w.port = 7 ∧ s.anyPanic) then none
      else
        let p := s.dramPlace (w.addr / 64 * 64)
        some { late := false, ix := i, port := w.port, src := w.src, since := t,
               hit := match s.readPhys c p with
                 | some r => s.openRow c r p.bankIx == some p.row
                 | none => false }

/-- A waiting request is issued: one that carries its data is served, the controller's own line is accepted,
and a requester's access is granted, a read with its burst. -/
def State.issueOne (s : State) (i : Nat) : State :=
  match s.mc.waiting[i]? with
  | none => s
  | some w =>
    let s := s.onMc fun m => { m with waiting := m.waiting.eraseIdx i }
    (match w.op with
      | .ask op => s.serve w.port w.src w.chan w.addr w.hint op
      | .hold n true =>
        if w.port = 7 then s.acceptWrite 7 w.src w.hint w.addr n
        else s.onMc fun m => { m with granted := m.granted ++ [w] }
      | .hold n false =>
        (s.issueRead w.chan w.hint w.addr n).onMc fun m => { m with granted := m.granted ++ [w] }).dramEnter

/-- The next request of a channel is issued: one that waits, or a buffered write that is to be drained. -/
def State.serveNext (s : State) (c : Nat) : State :=
  match s.schedule c (s.issuable c ++ s.drainable c) with
  | (none, s) => s
  | (some x, s) => if x.late then s.drainOne c x.ix else s.issueOne x.ix

/-- What the channels have to issue. -/
def State.dramLoad (s : State) : Nat :=
  s.mc.waiting.length + ((List.range 8).map fun c => 2 * (s.chanAt c).wbuf.length).sum

/-- The requests that may be issued are, in the order of R297. -/
def State.serveWaiting (s : State) : State :=
  s.each s.dramLoad fun _ s => s.each 8 fun c s => s.serveNext c

/-! ### Self-refresh (R304, R305) -/

/-- No request for a rank waits or stands in its channel's write buffer. -/
def State.rankQuiet (s : State) (c r : Nat) : Bool :=
  !(s.mc.waiting.any fun w =>
      (s.askedRanks w.chan w.addr (waitLen w.op) (waitWrites w.op)).contains (c, r)) &&
    !(s.chanAt c).wbuf.any fun e => (s.writePhys c (s.dramPlace (64 * e.line))).contains r

/-- The conditions under which an idle rank begins entry. -/
def State.mayEnterSr (s : State) (c r : Nat) : Bool :=
  let x := s.rankAt (rankIx c r)
  let held : Bool := s.sampleOn c r || match (s.chanAt c).gather with
    | some g => g.rank == r && decide (g.op ≤ 3)
    | none => false
  s.bit MC_SR_CFG MC_SR_CFG_EN && s.populated c r && s.rankQuiet c r &&
    (s.bit MC_SR_CFG MC_SR_CFG_ALL || decide (10 * s.fld MC_SR_CFG MC_SR_CFG_IDLE ≤ s.now - x.asked)) &&
    !s.panicHolds c r &&
    !s.bit (MC_RK_STAT c r) MC_RK_STAT_MIG && !held &&
    !s.bit MC_FREQ_CMD MC_FREQ_CMD_BUSY

/-- SELF_REFRESH_ENTRY (R304): an idle rank begins entry, and its banks are precharged; each further command
completes a phase. A rank under test never enters (R438). -/
def execSelfRefreshEntry (ch : Fin 8) (r : Fin 4) (s : State) : Out :=
  let sr := s.srOf ch r
  .next <|
    if s.unit (rankUnit ch r) = 1 then s
    else if sr = srAwake then (if s.mayEnterSr ch r then (s.setSr ch r srDrain).closeRows ch r else s)
    else if sr = srDrain then
      (s.setSr ch r srIssue).onRank (rankIx ch r) fun x => { x with sreAt := s.now }
    else if sr = srIssue then (s.setSr ch r srInSr).applyDelays ch r
    else s

/-- SELF_REFRESH_EXIT (R305): the rank is active again, no earlier than its exit permits, and the requests
that waited are served. -/
def execSelfRefreshExit (ch : Fin 8) (r : Fin 4) (s : State) : Out :=
  .next <|
    if s.srOf ch r = srExit ∧ (s.rankAt (rankIx ch r)).exitAt ≤ s.now ∧ s.freqBusy = false then
      (s.setSr ch r srAwake).serveWaiting
    else s

/-! ### Frequency points (R291) -/

/-- The write of MC_FREQ_CMD. -/
def State.freqCmdWrite (s : State) (v : Word) : State :=
  let s := s.typedWrite MC_FREQ_CMD v
  if fldGet MC_FREQ_CMD_GO v = 0 ∨ s.bit MC_FREQ_CMD MC_FREQ_CMD_BUSY then s
  else if s.anyArmed || (List.range 8).any (fun c => (s.chanAt c).mig.isSome) then
    ((s.setFld MC_FREQ_CMD MC_FREQ_CMD_RESULT 2).setEvt BLK_MC 1).fault 0x03C8
  else
    let s := (s.setFld MC_FREQ_CMD MC_FREQ_CMD_BUSY 1).onMc fun m =>
      { m with freqTo := fldGet MC_FREQ_CMD_POINT v }
    let s := allRanks.foldl (fun s (c, r) =>
      if s.installed c r ∧ s.unit (rankUnit c r) ≠ 1 then
        (((s.setSr c r srInSr).onRank (rankIx c r) fun x => { x with sreAt := s.now }).closeRows c
          r).applyDelays c r
      else s) s
    s.each 8 fun c s =>
      match (s.chanAt c).gather with
      | some g => s.onChan c fun x => { x with gather := some { g with stale := true } }
      | none => s

/-- FREQ_CHANGE (R291, R294). -/
def execFreqChange (v : BitVec 32) (s : State) : Out :=
  .next (s.freqCmdWrite (fldPut MC_FREQ_CMD_GO 1 v))

/-- FREQ_DONE (R291): the ranks exit, and requests resume. -/
def execFreqDone (s : State) : Out :=
  .next <|
    if s.bit MC_FREQ_CMD MC_FREQ_CMD_BUSY then
      let s := allRanks.foldl (fun s (c, r) => if s.installed c r then s.setSr c r srAwake else s) s
      let s := s.setFld MC_FREQ_CMD MC_FREQ_CMD_CUR s.mc.freqTo
      (((s.setFld MC_FREQ_CMD MC_FREQ_CMD_BUSY 0).setFld MC_FREQ_CMD MC_FREQ_CMD_RESULT 1).setEvt
        BLK_MC 1).serveWaiting
    else s

/-! ### Patrol and parity (R308, R311) -/

/-- Ticks of a pass of the patrol. -/
def State.scrubPeriod (s : State) : Nat := s.fld MC_SR_CFG MC_SR_CFG_SCRUB * ticksHour

/-- The patrol goes on to the next line; after the last, the next pass begins a period after this one did.
DESIGN CHOICE: it takes the lines in ascending order. -/
def State.scrubNext (s : State) : State :=
  s.onMc fun m =>
    if m.scrubAt + 64 < s.dramCap then { m with scrubAt := m.scrubAt + 64 }
    else { m with scrubAt := 0, scrubT0 := m.scrubT0 + s.scrubPeriod }

/-- SCRUB (R308): the patrol reads its next line, which the address names, through port 7, which waits while a
port is in panic or the line's rank sleeps; the access wakes it. -/
def execScrub (addr : BitVec 48) (result : ReadCheck) (s : State) : Out :=
  let a := s.mc.scrubAt
  let c := s.homeChan a false
  .next <|
    if addr.toNat / 64 ≠ a / 64 ∨ s.fld MC_SR_CFG MC_SR_CFG_SCRUB = 0 ∨ s.dramCap ≤ a ∨ s.now < s.mc.scrubT0 ∨ s.anyPanic then s
    else if s.mustWait c a 64 false then s.dramWake c a 64 false
    else
      let early := s.buffered c (a / 64)
      (((s.portGrant c 7 0).issueRead c .close a 64).checkLine (if early then .clean else result) c
        (a / 64)).2.2.scrubNext

/-- A replay after a parity error of a channel (R311): whether eight errors stand within 1 s. -/
def State.parityReplay (s : State) (c : Nat) : Bool × State :=
  let ts := (((s.chanAt c).parity.filter fun t => decide (s.now - t < ticksSec)) ++ [s.now])
  let s := (s.onChan c fun x => { x with parity := ts }).count (MC_CNT 3)
  (decide (8 ≤ ts.length), (s.faultCounted 0x13C2 c 0 8 ticksSec).2)

/-- CA_PARITY_ERROR (R311): up to two replays of the last 16 commands; eight errors in 1 s make the ranks
that these addressed lasting. A third failure is an uncorrectable error on every request that they
carried. -/
def execCaParityError (ch : Fin 8) (dimm : Fin 2) (failedReplays : Fin 4) (s : State) : Out :=
  let c := ch.val
  let n := min 2 (failedReplays.val + 1)
  let cmds := (s.chanAt c).cmds.get [] dimm
  let (l, s) := (List.range n).foldl (fun (acc : Bool × State) _ =>
    let (l, s) := acc.2.parityReplay c
    (acc.1 || l, s)) (false, s)
  let s := if l then (cmds.map (·.rank)).eraseDups.foldl (fun s r => s.rankFails c r) s else s
  .next <|
    if failedReplays.val = 3 then
      (cmds.filterMap fun k => k.line.map fun l => (k.rank, l)).eraseDups.foldl (fun s (r, l) =>
        s.uncorrectable ((s.dramPlace (64 * l)).chans.length == 2) c r l) s
    else s

/-! ### The end of a migration (R313, R314) -/

/-- MIG_DONE (R314): the copy has ended, and no request to either rank is outstanding; the logical rank moves
to the former spare. -/
def execMigDone (ch : Fin 8) (s : State) : Out :=
  let c := ch.val
  .next <|
    match (s.chanAt c).mig with
    | none => s
    | some m =>
      if m.copied < s.rankBytes ∨ !s.rankQuiet c m.src ∨ !s.rankQuiet c m.dst then s
      else
        let l := s.fld (MC_RK_STAT c m.src) MC_RK_STAT_LRANK
        let s := (s.setRole c m.src roleRetired).setRole c m.dst roleActive
        let s := s.setFld (MC_RK_STAT c m.dst) MC_RK_STAT_LRANK l
        (s.setFld (MC_MIG_STAT c) MC_MIG_STAT_PCT 100).migEnd c m 2

/-! ### Time -/

/-- A tick of the controller: copies go on, and requests and buffered writes that need wait no longer are
issued. -/
def State.dramTick (s : State) : State :=
  let s := s.migTick
  if s.dramLoad = 0 then s else s.dramEnter.serveWaiting

/-! ### Sideband (R284) -/

/-- The write of MC_SB. -/
def State.sbWrite (s : State) (c : Nat) (v : Word) : State :=
  let s := s.typedWrite (MC_SB c) v
  if fldGet MC_SB_GO v = 0 ∨ s.bit (MC_SB c) MC_SB_BUSY then s
  else (s.setFld (MC_SB c) MC_SB_BUSY 1).onChan c fun x => { x with sbRead := fldGet MC_SB_WR v == 0 }

/-- SIDEBAND (R284). -/
def execSideband (ch : Fin 8) (v : BitVec 32) (s : State) : Out :=
  .next (s.sbWrite ch (fldPut MC_SB_GO 1 v))

/-- SIDEBAND_DONE (R284). -/
def execSidebandDone (ch : Fin 8) (ack : Bool) (data : BitVec 8) (s : State) : Out :=
  let a := MC_SB ch
  .next <|
    if s.bit a MC_SB_BUSY then
      let s := (s.setFld a MC_SB_BUSY 0).setFld a MC_SB_ERR (b2n (!ack))
      if ack && (s.chanAt ch).sbRead then s.setFld a MC_SB_DATA data.toNat else s
    else s

end Sys2Proof.Machine
end

