-- ==== Sys2Proof/Machine/Pipe.lean ====
section
/-!
DEFINITION. The image pipes (R217 to R249): stripes, the stages, the verification stream, previews, ROI
crops and calibration.
-/

namespace Sys2Proof.Machine

/-! ### Table memory (R227 to R229) -/

def pipeSet (p t : Nat) : Nat := PIPE_MEM + p * 0xE0000 + t * 0x38000
def calAcc (p : Nat) : Nat := PIPE_MEM + 0x380000 + p * 0x20000

/-- A halfword of the set parameters. -/
def State.pipeParam (s : State) (base o : Nat) : Nat := s.loadNat (base + 0x36000 + o) 2

/-- The offsets of WBT and WBA of a channel. -/
def wbtOfs (ch : Nat) : Nat := 0x14 + 2 * ch
def wbaOfs (ch : Nat) : Nat := 0x1C + 2 * ch

/-- R235: each applied gain moves toward its target at the start of a stripe. -/
def State.stepWba (s : State) (base : Nat) : State :=
  s.each 3 fun ch s =>
    let a : Int := s.pipeParam base (wbaOfs ch)
    let t : Int := s.pipeParam base (wbtOfs ch)
    let m : Int := s.pipeParam base 0x1A
    s.storeNat (base + 0x36000 + wbaOfs ch) 2 (a + max (-m) (min m (t - a))).toNat

/-! ### The stages (R225 to R236) -/

/-- An uncorrectable error in an entry or word of the table memory (R240, fault 0x1303). -/
def State.entryBad (s : State) (a : Nat) : Bool := s.poison.get false (a / 64)

def State.pixelBad (s : State) (base ch i : Nat) : Bool := s.entryBad (base + ch * 0x10000 + 4 * i)

/-- The address of a tone-curve entry. -/
def curveAddr (base ch v : Nat) : Nat := base + 0x30000 + ch * 0x2000 + 2 * v

/-- The 20 halfwords of the set parameters. -/
def State.setParams (s : State) (base : Nat) : List Nat :=
  (List.range 20).map fun k => s.pipeParam base (2 * k)

/-- A pixel entry: GAIN, DEF, BLK. -/
def State.pixGain (s : State) (base ch i : Nat) : Nat := s.loadNat (base + ch * 0x10000 + 4 * i + 2) 2
def State.pixDef (s : State) (base ch i : Nat) : Bool :=
  (s.loadNat (base + ch * 0x10000 + 4 * i) 2).testBit 15
def State.pixBlk (s : State) (base ch i : Nat) : Nat :=
  s.loadNat (base + ch * 0x10000 + 4 * i) 2 % 4096

/-- Stage 0: a stored sample as 12 bits (R226). -/
def normalise (fmt x : Nat) : Nat := x * 2 ^ (12 - fmtBits fmt)

/-- Stages 1 and 2 of one channel: corrected values, none where no neighbour is usable (R231, R232). -/
def State.stage2 (s : State) (base ch w pad : Nat) (xs : List Nat) : List (Option Nat) :=
  let y1 := xs.zipIdx.map fun (x, i) => x - s.pixBlk base ch i
  let usable := fun (i : Nat) =>
    decide (i < w) && decide (i < pad) && !s.pixDef base ch i && !s.pixelBad base ch i
  y1.zipIdx.map fun (y, i) =>
    if !s.pixDef base ch i then some y
    else
      let l := ([1, 2, 3, 4].filter fun d => decide (d ≤ i) && usable (i - d)).head?
      let r := ([1, 2, 3, 4].filter fun d => usable (i + d)).head?
      match l, r with
      | some a, some b => some ((y1.getD (i - a) 0 + y1.getD (i + b) 0 + 1) / 2)
      | some a, none => some (y1.getD (i - a) 0)
      | none, some b => some (y1.getD (i + b) 0)
      | none, none => none

/-- Stage 3 (R233). -/
def shade (y gain : Nat) : Nat := min 4095 ((y * gain + 8192) / 16384)

/-- Stage 4 (R234), on the set parameters of the stripe. -/
def colour (ps : List Nat) (y : List Nat) : List Nat :=
  if y.length = 3 ∧ (ps.getD 18 0).testBit 0 then
    (List.range 3).map fun i =>
      let m := fun j => sext 16 (ps.getD (3 * i + j) 0)
      (clampI 0 4095 ((m 0 * y.getD 0 0 + m 1 * y.getD 1 0 + m 2 * y.getD 2 0 + 4096) / 8192)).toNat
  else y

/-- A line after the stages, per pixel: RAW, LIN and DENS of each channel; whether the pixel is unverified
under R232; and whether an uncorrectable error hit a table entry that it uses. -/
structure PixelOut where
  raw  : List Nat
  lin  : List Nat
  dens : List Nat
  lone : Bool
  err  : Bool

/-- R240: the pixel is unverified. -/
def PixelOut.bad (p : PixelOut) : Bool := p.lone || p.err

/-- All stages of a received line, on the set parameters of the stripe. -/
def State.stages (s : State) (base : Nat) (ps : List Nat) (fmt w pad : Nat) (xs : List Nat) :
    List PixelOut :=
  let c := fmtCh fmt
  let chan := fun ch => (List.range w).map fun i => normalise fmt (xs.getD (i * c + ch) 0)
  let y2 := (List.range c).map fun ch => s.stage2 base ch w pad (chan ch)
  let broken := s.entryBad (base + 0x36000)
  (List.range w).map fun i =>
    let y := (List.range c).map fun ch => ((y2.getD ch []).getD i none)
    let y3 := y.zipIdx.map fun (v, ch) => shade (v.getD 0) (s.pixGain base ch i)
    let y5 := (colour ps y3).zipIdx.map fun (v, ch) =>
      min 4095 ((v * ps.getD (wbaOfs ch / 2) 0 + 8192) / 16384)
    { raw := (List.range c).map fun ch => normalise fmt (xs.getD (i * c + ch) 0),
      lin := y5,
      dens := y5.zipIdx.map fun (v, ch) => s.loadNat (curveAddr base ch v) 2,
      lone := y.any Option.isNone,
      err := broken || (List.range c).any (fun ch => s.pixelBad base ch i) ||
        y5.zipIdx.any fun (v, ch) => s.entryBad (curveAddr base ch v) }

/-- A line of a stripe, processed. -/
structure PipeLine where
  ln     : Nat
  unv    : Bool
  reason : Nat
  pad    : Nat
  /-- Width and channels, as the context holds them. -/
  w      : Nat
  c      : Nat
  px     : List PixelOut

/-- The pixel is unverified: padded, or under R240. -/
def PipeLine.pixBad (l : PipeLine) (i : Nat) : Bool :=
  l.unv || decide (l.pad ≤ i) || ((l.px[i]?).map (·.bad)).getD false

/-! ### The verification stream (R240, R242) -/

/-- Maximal runs of unverified pixels, as start and exclusive end. -/
def badRanges (px : List PixelOut) : List (Nat × Nat) :=
  (px.zipIdx.foldl (fun acc (p, i) =>
    if !p.bad then acc
    else match acc with
      | (a, b) :: rest => if b = i then (a, i + 1) :: rest else (i, i + 1) :: acc
      | [] => [(i, i + 1)]) []).reverse

/-- R240: at most three ranges; the third covers every further one. -/
def threeRanges (rs : List (Nat × Nat)) : List (Nat × Nat) :=
  match rs with
  | a :: b :: c :: more => [a, b, (c.1, ((c :: more).getLast?.map (·.2)).getD c.2)]
  | rs => rs

/-- A line record is handed to the verification engine. -/
def State.handLine (s : State) (n : Nat) (l : PipeLine) : State :=
  let c := l.c
  let w := l.w
  let off := !s.bit (IPC_CFG n) IPC_CFG_VSEN
  let unv := l.unv || off
  let rec_ : LineRec :=
    { ln := l.ln, cam := n, unv := unv, rgb := c == 3, reason := if off then 3 else l.reason,
      pad := l.pad, w := w, uvr := if unv then [] else threeRanges (badRanges l.px),
      seq := (s.ctxAt n).seq % 2 ^ 32,
      samples := if unv then List.replicate (w * c) 0 else l.px.flatMap (·.dens) }
  (s.onVe fun v => { v with inbox := v.inbox ++ [rec_] }).onCtx n fun x => { x with seq := x.seq + 1 }

/-! ### Preview (R243, R244) -/

/-- PVK as it acts. -/
def pvkOf (v : Nat) : Nat := if v = 0 then 1 else min 6 v

/-- A preview row that cannot enter the staging buffer, or the ring, is dropped (R247). -/
def State.pvDrop (s : State) (n : Nat) : State :=
  ((s.count (IP_CNT 0)).setEvt BLK_IP 3).fault 0x0301 n

/-- The bytes of a preview row; SEQ is set when it is written. -/
def previewRow (ln pw port c : Nat) (unv : Bool) (out : List Byte) : List Byte :=
  let head := leBytes 8 ln ++ leBytes 2 pw ++ leBytes 1 port ++
    leBytes 1 (b2n unv + 2 * b2n (c == 3)) ++ leBytes 4 0
  let body := head ++ out
  body ++ List.replicate (64 * ceilDiv body.length 64 - body.length) 0

/-- A line enters the preview, whose carry stands with the table set `key`; `room` says whether a row that
it completes enters the staging buffer. A preview that begins, or whose port has moved to another set, begins
a row (R243: its boxes span consecutive lines of the port; DEDUCED for the move). -/
def State.preview (s : State) (n key : Nat) (l : PipeLine) (room : Bool) : State :=
  if !s.bit (IPC_CFG n) IPC_CFG_PVEN then s
  else
    let c := l.c
    let x := s.ip.carry.get PvCarry.empty key
    let x := if x.lines = 0 ∨ (s.ctxAt n).pvAt ≠ some key then
        { PvCarry.empty with
          ln := l.ln, key := (pvkOf (s.fld (IPC_CFG n) IPC_CFG_PVK), (s.reg (PV_CROP n)).toNat) }
      else x
    let s := s.onCtx n fun y => { y with pvAt := some key }
    let put := fun (s : State) (x : PvCarry) => s.onIp fun i => { i with carry := i.carry.set PvCarry.empty key x }
    let k := 2 ^ x.key.1
    let crop := BitVec.ofNat 32 x.key.2
    let px0 := fldGet PV_CROP_PX0 crop / k * k
    let pw := fldGet PV_CROP_PW_M1 crop + 1
    let good := fun i => !l.pixBad i
    let sums := (List.range pw).foldl (fun t j => (List.range c).foldl (fun t ch =>
      let add := ((List.range k).map fun q =>
        let i := px0 + j * k + q
        if good i then ((l.px[i]?).map fun p => p.lin.getD ch 0).getD 0 else 0).sum
      Tbl.upd t 0 (j * c + ch) (· + add)) t) x.sums
    let unv := x.unv || l.unv ||
      (List.range (pw * k)).any fun q => decide (px0 + q < l.w) && l.pixBad (px0 + q)
    if x.lines + 1 < k then put s { x with sums := sums, unv := unv, lines := x.lines + 1 }
    else
      let out := (List.range (pw * c)).map fun i =>
        BitVec.ofNat 8 (sat8 (((Tbl.get sums 0 i + 8 * k * k) / (16 * k * k) : Nat) : Int))
      let row := previewRow x.ln pw n c unv out
      let s := put s PvCarry.empty
      if room then s.onCtx n fun x => { x with pvRows := x.pvRows ++ [row] } else s.pvDrop n

/-- The oldest row leaves the staging buffer, once DRAM has accepted every write of it (R244): `a` is where
it was written, at offset `o` of the ring. -/
def State.rowAccepted (s : State) (n a o len : Nat) : State :=
  if s.putWaits 3 a len then s.onCtx n fun x => { x with pvSent := some (a, o) }
  else
    let s := s.onCtx n fun x => { x with pvRows := x.pvRows.tail, pvSent := none }
    (s.setReg (PV_WPTR n) (BitVec.ofNat 32 (o + len))).setReg (PV_SEQ n) (s.reg (PV_SEQ n) + 1)

/-- PREVIEW_ROW (R244): the oldest row is written; when DRAM has accepted it, PV_WPTR and PV_SEQ advance. -/
def execPreviewRow (n : Fin 12) (s : State) : Out :=
  .next <| s.whenClocked BLK_IP fun s =>
    match (s.ctxAt n).pvRows, (s.ctxAt n).pvSent with
    | [], _ => s
    | row :: _, some (a, o) => s.rowAccepted n a o row.length
    | row :: rest, none =>
      let size := (s.reg (PV_SIZE n)).toNat
      if size < row.length then (s.onCtx n fun x => { x with pvRows := rest }).pvDrop n
      else
        let w := (s.reg (PV_WPTR n)).toNat
        let o := if size < w + row.length then 0 else w
        let a := s.reg64 (PV_BASE_LO n) (PV_BASE_HI n) + o
        (s.blockSave BLK_IP a (row.take 12 ++ leBytes 4 (s.reg (PV_SEQ n) + 1).toNat ++ row.drop 16)
          (s.camPipe n)).rowAccepted n a o row.length

/-! ### ROI crops (R245, R246) -/

def State.roiAt (s : State) (n r : Nat) : RoiSt := (s.ctxAt n).rois.get RoiSt.reset r

def State.onRoi (s : State) (n r : Nat) (f : RoiSt → RoiSt) : State :=
  s.onCtx n fun x => { x with rois := x.rois.upd RoiSt.reset r f }

/-- The address of the frame being captured. -/
def State.roiFrame (s : State) (n r : Nat) : Nat :=
  s.reg64 (ROI_BASE_LO n r) (ROI_BASE_HI n r) +
    (s.roiAt n r).index * max 1 (s.fld (ROI_RING n r) ROI_RING_FSTRIDE) * 0x10000

/-- An ROI captures one frame after another. -/
def State.roiPeriodic (s : State) (n r : Nat) : Bool :=
  s.bit (ROI_CTRL n r) ROI_CTRL_PER && s.reg (ROI_PERIOD n r) != 0

/-- START advances by PERIOD. -/
def State.roiAdvance (s : State) (n r : Nat) : State :=
  s.setReg64 (ROI_START_LO n r) (ROI_START_HI n r)
    (s.reg64 (ROI_START_LO n r) (ROI_START_HI n r) + (s.reg (ROI_PERIOD n r)).toNat)

/-- A frame ends, and its header waits to be written; a one-shot ROI disables itself. -/
def State.roiEnd (s : State) (n r : Nat) (incomplete drop : Bool) : State :=
  let x := s.roiAt n r
  let head :=
    leBytes 8 x.firstLn ++ leBytes 2 (s.fld (ROI_CTRL n r) ROI_CTRL_X0) ++
    leBytes 2 (s.fld (ROI_CTRL n r) ROI_CTRL_WR_M1 + 1) ++
    leBytes 2 (s.fld (ROI_LINES n r) ROI_LINES_N_M1) ++ leBytes 1 n ++ leBytes 1 r ++
    leBytes 1 (min 2 (s.fld (ROI_CTRL n r) ROI_CTRL_TAP)) ++
    leBytes 1 (b2n x.unv + 2 * b2n incomplete + 4 * b2n (fmtCh (s.ctxAt n).fmt == 3)) ++
    leBytes 2 0 ++ leBytes 4 x.seq ++ leBytes 8 x.lastLn ++ List.replicate 32 0
  let a := s.roiFrame n r
  let s := s.onRoi n r fun x => { x with
    active := false, headers := x.headers ++ [(a, head, x.seq, x.index)] }
  let s := s.setFld (ROI_STAT n r) ROI_STAT_ACTIVE 0
  let s := if s.roiPeriodic n r then s else s.setFld (ROI_CTRL n r) ROI_CTRL_EN 0
  if drop then ((s.count (IP_CNT 1)).setEvt BLK_IP 2).fault 0x0302 n else s

/-- ROI_DONE (R246): the oldest header is written; when DRAM has accepted it, ROI_STAT names its frame. -/
def execRoiDone (n : Fin 12) (r : Fin 8) (s : State) : Out :=
  .next <| s.whenClocked BLK_IP fun s =>
    match (s.roiAt n r).headers with
    | [] => s
    | (a, head, seq, ix) :: rest =>
      let s := if (s.roiAt n r).sent then s else s.blockSave BLK_IP a head (s.camPipe n)
      if s.putWaits 3 a head.length then s.onRoi n r fun x => { x with sent := true }
      else
        let s := s.onRoi n r fun x => { x with headers := rest, sent := false }
        let s := (s.setFld (ROI_STAT n r) ROI_STAT_SEQ seq).setFld (ROI_STAT n r) ROI_STAT_LAST ix
        s.setEvt BLK_IP 1

/-- The tap of a pixel. -/
def PixelOut.tap (p : PixelOut) (t : Nat) : List Nat :=
  if t = 0 then p.raw else if t = 1 then p.lin else p.dens

/-- A line row of a frame: tag, samples, padding to the stride. -/
def State.roiRow (s : State) (n r : Nat) (l : PipeLine) : List Byte :=
  let c := l.c
  let x0 := s.fld (ROI_CTRL n r) ROI_CTRL_X0
  let wr := s.fld (ROI_CTRL n r) ROI_CTRL_WR_M1 + 1
  let pad := if l.pad < l.w then min wr (l.pad - x0) else wr
  let tag := l.ln % 2 ^ 32 + 2 ^ 32 * b2n l.unv + 2 ^ 33 * (pad % 2 ^ 15)
  let body := leBytes 8 tag ++ (List.range wr).flatMap fun i =>
    let v := ((l.px[x0 + i]?).map (·.tap (s.fld (ROI_CTRL n r) ROI_CTRL_TAP))).getD
      (List.replicate c 0)
    v.flatMap (leBytes 2 ·)
  body ++ List.replicate (64 * ceilDiv body.length 64 - body.length) 0

/-- A line reaches an ROI by a pipe; `room` says whether it enters the staging buffer. -/
def State.roiLine (s : State) (p n : Nat) (l : PipeLine) (room : Nat → Bool) (r : Nat) : State :=
  if !s.bit (ROI_CTRL n r) ROI_CTRL_EN then s
  else
    let due := decide (s.reg64 (ROI_START_LO n r) (ROI_START_HI n r) ≤ l.ln)
    let was := (s.roiAt n r).active
    let s :=
      if was && due && s.roiPeriodic n r then
        (((s.roiAdvance n r).count (IP_CNT 2)).setEvt BLK_IP 2).fault 0x0302 n
      else if !was && due then
        let q := (s.roiAt n r).seq
        let s := s.onRoi n r fun x => { x with
          active := true, lines := 0, firstLn := l.ln, lastLn := l.ln, unv := false, seq := q + 1,
          index := q % (s.fld (ROI_RING n r) ROI_RING_NFRAME_M1 + 1) }
        let s := s.setFld (ROI_STAT n r) ROI_STAT_ACTIVE 1
        if s.roiPeriodic n r then s.roiAdvance n r else s
      else s
    if !(s.roiAt n r).active then s
    else
      let row := s.roiRow n r l
      let k := (s.roiAt n r).lines
      let limit := max 1 (s.fld (ROI_RING n r) ROI_RING_FSTRIDE) * 0x10000
      if !room r || decide (limit < 64 + (k + 1) * row.length) then s.roiEnd n r true true
      else
        let x0 := s.fld (ROI_CTRL n r) ROI_CTRL_X0
        let bad := l.unv || (List.range (s.fld (ROI_CTRL n r) ROI_CTRL_WR_M1 + 1)).any fun i =>
          decide (x0 + i < l.w) && l.pixBad (x0 + i)
        let s := s.blockSave BLK_IP (s.roiFrame n r + 64 + k * row.length) row p
        let s := s.onRoi n r fun x => { x with lines := k + 1, lastLn := l.ln, unv := x.unv || bad }
        if s.fld (ROI_LINES n r) ROI_LINES_N_M1 ≤ k then s.roiEnd n r false false else s

/-! ### Calibration (R248) -/

/-- The lines that an accumulation takes. -/
def State.calLines (s : State) (p : Nat) : Nat := 2 ^ min 12 (s.fld (CAL_CTRL p) CAL_CTRL_NLOG)

/-- A served line of the accumulated port adds its RAW values. -/
def State.calLine (s : State) (p n : Nat) (l : PipeLine) : State :=
  let k := s.fld (CAL_STAT p) CAL_STAT_COUNT
  if s.bit (CAL_STAT p) CAL_STAT_BUSY && s.fld (CAL_CTRL p) CAL_CTRL_PORT == n &&
      decide (k < s.calLines p) && !l.unv && decide (l.w ≤ l.pad) && !l.px.any (·.bad) then
    let ch := min 2 (s.fld (CAL_CTRL p) CAL_CTRL_CH)
    let s := l.px.zipIdx.foldl (fun (s : State) (x, i) =>
      s.storeNat (calAcc p + 4 * i) 4 (s.loadNat (calAcc p + 4 * i) 4 + x.raw.getD ch 0)) s
    s.setFld (CAL_STAT p) CAL_STAT_COUNT (k + 1)
  else s

/-- The write of CAL_CTRL that the next command makes. -/
def State.calCtrlWrite (s : State) (p : Fin 4) (v : BitVec 32) : State :=
  if v.getLsbD 0 && s.bit (CAL_STAT p) CAL_STAT_BUSY then s.fault 0x0305 p (regAddr (CAL_CTRL p))
  else
    let s := s.typedWrite (CAL_CTRL p) v
    if v.getLsbD 0 then
      ((s.clearBytes (calAcc p) 0x10000).setFld (CAL_STAT p) CAL_STAT_COUNT 0).setFld (CAL_STAT p)
        CAL_STAT_BUSY 1
    else s

/-- CAL_GO (R248): a write of CAL_CTRL; with GO it clears the accumulator and starts. -/
def execCalGo (p : Fin 4) (v : BitVec 32) (s : State) : Out :=
  .next (s.whenAwake (CAL_CTRL p) fun s => s.calCtrlWrite p v)

/-- CAL_DONE (R248): the count is reached. -/
def execCalDone (p : Fin 4) (s : State) : Out :=
  .next <| s.whenClocked BLK_IP fun s =>
    if s.bit (CAL_STAT p) CAL_STAT_BUSY && decide (s.calLines p ≤ s.fld (CAL_STAT p) CAL_STAT_COUNT) then
      (s.setFld (CAL_STAT p) CAL_STAT_BUSY 0).setEvt BLK_IP 0
    else s

/-! ### Stripes (R217, R218) -/

/-- A port has a ready stripe for a pipe. -/
def State.stripeReady (s : State) (p n : Nat) : Bool :=
  let q := (s.portAt n).queue.take 16
  s.bit (CAM_CFG n) CAM_CFG_EN && s.camPipe n == p && (s.portAt n).served == 0 && q.length == 16 &&
    q.all fun e => decide (e.state ≠ .pending)

/-- One entry of a stripe through the stages, in the format and width of the context. -/
def State.pipeLine (s : State) (p : Nat) (k : PipeWork) (e : CamEntry) : PipeLine :=
  let fmt := (s.ctxAt k.cam).fmt
  let w := (s.ctxAt k.cam).w
  let c := fmtCh fmt
  let zero : PixelOut :=
    { raw := List.replicate c 0, lin := List.replicate c 0, dens := List.replicate c 0, lone := false,
      err := false }
  match e.state with
  | .received slot pad =>
    { ln := e.ln, unv := false, reason := 0, pad := pad, w := w, c := c,
      px := s.stages (pipeSet p k.tset) k.params fmt w pad (s.camSamples k.cam slot fmt w) }
  | .unverified r => { ln := e.ln, unv := true, reason := r, pad := w, w := w, c := c, px := List.replicate w zero }
  | .pending => { ln := e.ln, unv := true, reason := 2, pad := w, w := w, c := c, px := List.replicate w zero }

/-- A processed line goes to the verification stream, the preview, the ROIs and the accumulator; pixels
without a usable neighbour are counted, and a table error is logged (R232, R240). -/
def State.lineOut (s : State) (p : Nat) (k : PipeWork) (l : PipeLine) : State :=
  let lone := (l.px.filter (·.lone)).length
  let s := s.setReg (IP_CNT 3) (satAdd lone (s.reg (IP_CNT 3)))
  let s := if l.px.any (·.err) then s.fault 0x1303 p (pipeSet p k.tset) else s
  let (d, s) := s.draw
  let s := (s.handLine k.cam l).preview k.cam (4 * p + k.tset) l (Config.freeBit d 0)
  let s := (List.range 8).foldl (fun s r =>
    s.roiLine p k.cam l (fun r => Config.freeBit d (1 + r)) r) s
  s.calLine p k.cam l

/-- FI cycles that a line of a camera takes, and those after its grant at which a stripe is done (R218). -/
def State.lineCost (s : State) (n : Nat) : Nat := ceilDiv ((s.ctxAt n).w * fmtCh (s.ctxAt n).fmt) 8
def PipeWork.cost (k : PipeWork) : Nat := k.switch + 16 * k.lineCost

/-- The lines of a stripe that have begun by now, ten FI cycles a tick. -/
def State.linesBegun (s : State) (k : PipeWork) : Nat :=
  let past := 10 * (s.now - k.since)
  (List.range 16).countP fun i => decide (k.switch + i * k.lineCost ≤ past)

/-- The lines of a stripe up to the `n`-th are processed, on the pixel and curve entries of that moment
(R237). -/
def State.pipeRunTo (s : State) (p : Nat) (k : PipeWork) (n : Nat) : State :=
  (((s.portAt k.cam).queue.take n).drop k.line).foldl (fun (s : State) e => s.lineOut p k (s.pipeLine p k e)) s

/-- A pipe processes each line of its stripe as it begins. -/
def State.pipeRun (s : State) (p : Nat) : State :=
  match s.ip.work.get none p with
  | none => s
  | some k =>
    let n := s.linesBegun k
    let s := s.pipeRunTo p k n
    if k.left ∨ n = k.line then s
    else s.onIp fun i => { i with work := i.work.set none p (some { k with line := n }) }

/-- A stripe of a camera begins: the context is switched when the previous stripe was of another camera
(R218, R239), the applied gains move and the set parameters are read (R234, R235). A port that has been
started again has its FMT and W taken too (DEDUCED). -/
def State.serveStripe (s : State) (p n : Nat) : State :=
  let tset := s.fld (IPC_CFG n) IPC_CFG_TSET
  let other := s.ip.prev.get none p ≠ some n
  let s := (s.setFld (IP_PIPE p) IP_PIPE_CAM n).setFld (IP_PIPE p) IP_PIPE_BUSY 1
  let s := if other ∨ (s.ctxAt n).w = 0 then
      s.onCtx n fun x => { x with fmt := s.camFmt n, w := s.camW n } else s
  let s := (s.onPort n fun x => { x with served := 16 }).stepWba (pipeSet p tset)
  let k : PipeWork :=
    { cam := n, tset := tset, params := s.setParams (pipeSet p tset), since := s.now,
      switch := if other then 64 else 0, lineCost := s.lineCost n, line := 0, left := false }
  (s.onIp fun i => { i with prev := i.prev.set none p (some n), work := i.work.set none p (some k) }
    ).pipeRun p

/-! ### A port's configuration (R209, R217, R221) -/

/-- A stripe is served whole (R218): one whose port stops is processed to its end. DESIGN CHOICE: its lines
that have not begun are processed as the port stops, and the pipe stays busy for the rest of its cost. -/
def State.finishWork (s : State) (n : Nat) : State :=
  s.each 4 fun p s => match s.ip.work.get none p with
    | some k =>
      if k.cam = n ∧ k.left = false then
        let s := s.pipeRunTo p k 16
        s.onIp fun i => { i with work := i.work.set none p (some { k with line := 16, left := true }) }
      else s
    | none => s

/-- The port stops: buffered lines and entries are discarded, but for those of the stripe that a pipe serves.
Its next stripe begins its preview and takes FMT and W afresh. -/
def State.camStop (s : State) (n : Nat) : State :=
  let s := (s.finishWork n).onCtx n fun x => { x with w := 0, pvAt := none }
  (s.onPort n fun p => { p with queue := [], frame := .none, samples := [], spoiled := false,
                                ahead := [], noSlot := false, served := 0 }).setFld (CAM_STAT n) CAM_STAT_STATE 0

/-- The write of CAM_CFG that the next command makes. A write is one to a field when it changes it: the
whole word is always written, and EN and PIPE alone do not clear CHECKED (R221; DEDUCED). -/
def State.camCfgWrite (s : State) (n : Fin 12) (v : BitVec 32) : State :=
  let old := s.reg (CAM_CFG n)
  let was := s.bit (CAM_CFG n) CAM_CFG_EN
  let en := v.getLsbD 1
  let s := (s.typedWrite (CAM_CFG n) v).setFld (CAM_CFG n) CAM_CFG_EN (b2n was)
  let moved := fun (f : Fld) => fldGet f old != s.fld (CAM_CFG n) f
  let s := if moved CAM_CFG_FMT || moved CAM_CFG_LINKS || moved CAM_CFG_JOIN || moved CAM_CFG_USE then
      s.camTouched n else s
  if !en then (if was then (s.camStop n).setFld (CAM_CFG n) CAM_CFG_EN 0 else s)
  else if !s.bit (CAM_CFG n) CAM_CFG_CHECKED then s.fault 0x02C7 n (regAddr (CAM_CFG n))
  else if was && s.camState n != 3 then s
  else ((s.camStop n).setFld (CAM_CFG n) CAM_CFG_EN 1).setFld (CAM_STAT n) CAM_STAT_STATE 1

/-- CAM_CFG_WRITE (R209, R221): the other fields first, then EN. -/
def execCamCfgWrite (n : Fin 12) (v : BitVec 32) (s : State) : Out :=
  .next (s.whenAwake (CAM_CFG n) fun s => s.camCfgWrite n v)

/-! ### Service of a stripe (R218) -/

/-- STRIPE_GRANT (R218): a free pipe takes the ready stripe that R16 gives it. -/
def execStripeGrant (p : Fin 4) (s : State) : Out :=
  .next <| s.whenClocked BLK_IP fun s =>
    if s.bit (IP_PIPE p) IP_PIPE_BUSY || s.bit (IP_PIPE p) IP_PIPE_FAILED || s.unit (144 + p) == 1 then s
    else match rrGrant 12 (s.top.rrPtr.get 0 (rrStripe p)) (s.stripeReady p) with
      | none => s
      | some n =>
        (s.grant (rrStripe p) 12 n).serveStripe p n

/-- STRIPE_DONE (R216, R218): the cost of the stripe has elapsed; it completes, freeing its slots. -/
def execStripeDone (p : Fin 4) (s : State) : Out :=
  .next <| s.whenClocked BLK_IP fun s =>
    match s.ip.work.get none p with
    | none => s
    | some k =>
      if 10 * (s.now - k.since) < k.cost then s
      else
        let s := (s.pipeRun p).onIp fun i => { i with work := i.work.set none p none }
        let s := s.setFld (IP_PIPE p) IP_PIPE_BUSY 0
        if k.left then s
        else s.onPort k.cam fun x => { x with queue := x.queue.drop x.served, served := 0 }

/-- A pipe is declared failed (R249). DESIGN CHOICE: it still finishes the stripe that it serves, since a
stripe is never interrupted (R218). -/
def State.failPipe (s : State) (p : Nat) : State :=
  (((s.setFld (IP_PIPE p) IP_PIPE_FAILED 1).setUnit (144 + p) 2).setEvt BLK_IP 4).fault 0x2304 p

/-- PIPE_FAIL (R249). -/
def execPipeFail (p : Fin 4) (s : State) : Out := .next (s.failPipe p)

end Sys2Proof.Machine
end

