-- ==== Sys2Proof/Machine/Service.lean ====
section
/-!
DEFINITION. In-service test and replacement (R428 to R448).
-/

namespace Sys2Proof.Machine

/-! ### Leaving and entering service -/

/-- Fewer than three control cores in service (R422, R439). -/
def State.fewCores (s : State) : State :=
  let on := (List.range 4).filter fun k => s.unit (212 + k) == 0
  if on.length < 3 then s.fault 0x2642 0xFF (on.foldl (fun m k => m + 2 ^ k) 0) else s

/-- A control core is stopped and held in reset (R439). -/
def State.coreStops (s : State) (k v : Nat) : State :=
  let s := ((s.dcLeave k).onCc k fun _ => IsSt.reset).setUnit (212 + k) v
  let s := s.onTb fun t => { t with xsCyc := modifyAt (fun _ => 0) k t.xsCyc }
  (s.setReg (TB_XS_CYC k) 0).fewCores

/-- A control core starts from reset at an address (R440, R468). -/
def State.coreStarts (s : State) (k ea : Nat) : State :=
  (s.onCc k fun _ => { IsSt.reset with running := true, pc := BitVec.ofNat 32 (ea / 4 * 4) }).setUnit
    (212 + k) 0

/-- ST_ARG. -/
def State.stArg (s : State) : Nat := s.reg64 ST_ARG_LO ST_ARG_HI

/-- The image that a RETURN of a control core uses, and the address at which it starts (R440, R470):
none unless it verifies and its entry can be reached. -/
def State.returnEntry (s : State) : Option Nat :=
  let a := if s.stArg = 0 then s.reg64 BOOT_CCIMG_LO BOOT_CCIMG_HI else s.stArg
  if a = 0 ∨ s.memReason [2] a ≠ 0 then none else resetEa (a + s.loadNat (a + 0xC) 4)

/-- The class has no other spare or standby: of its kind for clock sources (R444). -/
def State.noStandby (s : State) (u : Nat) : Bool :=
  let same := fun v =>
    if unitClass u = 9 then unitClass v == 9 && (v - 259) / 2 == (u - 259) / 2
    else unitClass v == unitClass u
  [1, 3, 9].contains (unitClass u) && !(List.range 263).any fun v => same v && s.unit v == 3

/-- A unit is retired. -/
def State.retireUnit (s : State) (u : Nat) : State :=
  let c := unitClass u
  let s :=
    if c = 0 then s.coreLeaves u
    else if c = 1 then s.failPipe (u - 144)
    else if c = 3 then s.setRole ((u - 180) / 4) ((u - 180) % 4) roleRetired
    else s.setUnit u 2
  let s := s.setEvt BLK_ST 1
  if s.noStandby u then s.stFault 0x2605 u else s

/-- The sources whose fault counts belong to a unit (R420). -/
def unitKeys (u : Nat) : List Nat :=
  if u < 144 then [winKey 0x1141 u, winKey 0x1142 u]
  else if u < 148 then [winKey 0x1303 (u - 144)]
  else if u < 180 then [winKey 0x1281 (u - 148), winKey 0x1282 (u - 148)]
  else if u < 212 then [winKey 0x13C1 (u - 180), winKey 0x13C3 (u - 180), winKey 0x13C2 ((u - 180) / 4)]
  else if 224 ≤ u ∧ u < 256 then [winKey 0x1443 (u - 224), winKey 0x1405 (u - 224)]
  else if 256 ≤ u ∧ u < 259 then [winKey 0x1081 (u - 256)]
  else []

/-- A lane begins bring-up after its test, if it is enabled; it rejoins after no failure (R204, R437). -/
def State.laneReturns (s : State) (n : Nat) : State :=
  if s.bit (DL_LANE_CFG n) DL_LANE_CFG_EN then s.laneBegin n false else s

/-- A returned unit enters service or standby (R432). -/
def State.unitReturns (s : State) (u : Nat) : State :=
  let c := unitClass u
  let s := (unitKeys u).foldl State.clearEvents s
  let s :=
    if c = 0 then s.moveUnit u 0
    else if c = 1 then
      ((s.setFld (IP_PIPE (u - 144)) IP_PIPE_FAILED 0).setFld (IP_PIPE (u - 144)) IP_PIPE_SPARE 1).setUnit
        u 3
    else if c = 2 then (s.setUnit u 0).laneReturns (u - 148)
    else if c = 3 then
      let ch := (u - 180) / 4
      let r := (u - 180) % 4
      (((s.setRole ch r roleSpare).setFld (MC_RK_STAT ch r) MC_RK_STAT_LASTING 0).onRank (u - 180) fun x =>
        { x with ces := [] }).onChan ch fun x => { x with parity := [] }
    else if c = 6 then (s.setUnit u 0).chResume (u - 224)
    else if c = 9 then s.setUnit u 3
    else if c = 10 then
      ((s.setUnit u 0).onSi fun x => { x with resync := some (u - 256), resyncAt := s.now }).setFld SI_STAT
        SI_STAT_RESYNC 1
    else s.setUnit u 0
  (s.setEvt BLK_ST 2).fault 0x0606 c u

/-! ### Conditions (R430, R438, R439, R441, R445) -/

/-- No lane CRC error in the last second. -/
def State.lineClean (s : State) (n : Nat) : Bool :=
  match (s.laneAt n).lastCrc with
  | some t => decide (ticksSec ≤ s.now - t)
  | none => true

/-- A pipe is free for its test: no port has PIPE = p, and it processes nothing. -/
def State.pipeFree (s : State) (p : Nat) : Bool :=
  !s.bit (IP_PIPE p) IP_PIPE_BUSY && (List.range 12).all fun n => s.fld (CAM_CFG n) CAM_CFG_PIPE != p

/-- A control core may be parked (R439). -/
def State.coreIdle (s : State) (k : Nat) : Bool :=
  !s.rbit SI_HBEN k && (List.range 864).all fun n => !(s.fld (EVT_ROUTE n) EVT_ROUTE_CC_MASK).testBit k

/-- R430: ST may take a unit for test. -/
def State.stMayTest (s : State) (u : Nat) : Bool :=
  let c := unitClass u
  if c = 0 then
    s.awake BLK_XC && (List.range 8).all fun i => s.unit (8 * (u / 8) + i) == 0
  else if c = 1 then
    let p := u - 144
    s.awake BLK_IP && (s.bit (IP_PIPE p) IP_PIPE_SPARE || s.bit (IP_PIPE p) IP_PIPE_FAILED) && s.pipeFree p
  else if c = 2 then
    let n := u - 148
    s.unit u == 0 && s.laneReady n && s.hubMode (n / 2) == 0 && s.laneReady (partner n) &&
      s.lineClean (partner n)
  else if c = 3 then
    let ch := (u - 180) / 4
    let role := s.role ch ((u - 180) % 4)
    (role == roleSpare || role == roleRetired) && (s.chanAt ch).mig.isNone
  else if c = 4 then
    s.coreIdle (u - 212) && (List.range 4).all fun k => s.unit (212 + k) == 0
  else if c = 5 then
    s.unit u == 0 && !s.bit (CV_STAT (u - 216)) CV_STAT_DMAOWN && (s.cvAt (u - 216)).fifo.isEmpty &&
      decide ((s.cvAt (u - 216)).wroteAt + 100 ≤ s.now)
  else if c = 6 then s.unit u == 0 && s.chState (u - 224) == chIdle
  else if c = 9 then
    s.unit u == 3 && (if u < 261 then s.pllLocked (u - 259) else s.xtalOk (u - 261))
  else false

/-- A retired unit can be tested for its return. -/
def State.stMayReturn (s : State) (u : Nat) : Bool :=
  let c := unitClass u
  if c = 10 then s.rbit SI_STAT (5 + (u - 256)) && !s.bit SI_STAT SI_STAT_RESYNC
  else
    s.unit u == 2 &&
      (if c = 0 then s.awake BLK_XC
       else if c = 1 then s.awake BLK_IP && s.pipeFree (u - 144)
       else if c = 2 then s.awake BLK_DL
       else if c = 3 then (s.chanAt ((u - 180) / 4)).mig.isNone && s.populated ((u - 180) / 4) ((u - 180) % 4)
       else if c = 6 then s.chState (u - 224) == chIdle
       else true)

/-- A unit can be taken out of service without a test. A rank in service leaves by migration, a running
clock source by SWITCH, a control core under R439; a Sagger core does not. -/
def State.stMayRetire (s : State) (u : Nat) : Bool :=
  let c := unitClass u
  if c = 3 then s.unit u != 0
  else if c = 4 then s.coreIdle (u - 212)
  else if c = 9 then s.unit u != 0
  else c != 10

/-! ### Tests (R431 to R438, R441) -/

/-- Units that exclude each other's tests: of a cluster, of a channel, else of a class. -/
def sameTestGroup (u v : Nat) : Bool :=
  unitClass u == unitClass v &&
    (if unitClass u = 0 then u / 8 == v / 8
     else if unitClass u = 3 then (u - 180) / 4 == (v - 180) / 4
     else true)

/-- A test of the unit's class, cluster or channel runs. -/
def State.testBusy (s : State) (u : Nat) : Bool := s.st.tests.any fun e => sameTestGroup u e.1

/-- A unit is taken for test; `cmd` is the operation of the command that it serves, 0 none. -/
def State.testBegin (s : State) (u cmd : Nat) : State :=
  let prev := s.unit u
  let s := s.onSt fun x => { x with
    tests := x.tests.set none u (some { prev := prev, second := false, cmd := cmd }) }
  let c := unitClass u
  if c = 4 ∧ cmd ≠ 3 then s.coreStops (u - 212) 1
  else
    let s := s.setUnit u 1
    let s := if c = 3 then s.wakeRank ((u - 180) / 4) ((u - 180) % 4) else s
    if c = 2 ∧ s.laneReady (u - 148) then
      s.onHub ((u - 148) / 2) fun h => { h with toSend := some (soloMode (partner (u - 148))) }
    else s

/-- The test itself has begun: a core has ended its last tile, a lane is disabled, a rank is awake. -/
def State.testRuns (s : State) (u : Nat) : Bool :=
  if u < 144 then s.coreTestRuns u
  else if unitClass u = 2 then !s.laneReady (u - 148)
  else if unitClass u = 3 then s.srOf ((u - 180) / 4) ((u - 180) % 4) == srAwake
  else true

/-- A unit goes back to the state that it had before its test. -/
def State.testRestores (s : State) (u prev : Nat) : State :=
  let c := unitClass u
  if c = 4 then
    match s.returnEntry with
    | some ea => s.coreStarts (u - 212) ea
    | none => s.setUnit u prev
  else
    let s := s.setUnit u (if c = 1 then s.pipeUnit (u - 144) else prev)
    if c = 2 then s.laneReturns (u - 148)
    else if c = 6 then s.chResume (u - 224)
    else s

/-- A test passes: the unit goes back, or is returned. -/
def State.testPasses (s : State) (u : Nat) (t : TestRun) : State :=
  let s := if t.second then s.stFault 0x1603 u else s
  if t.cmd = 3 then
    if unitClass u = 4 then
      match s.returnEntry with
      | some ea => ((s.unitReturns u).coreStarts (u - 212) ea).stDone 1
      | none => (s.setUnit u 2).stDone 2
    else (s.unitReturns u).stDone 1
  else
    let s := s.testRestores u t.prev
    if t.cmd = 0 then s else s.stDone 1

/-- The end of one run of a test (R431). -/
def State.testEnds (s : State) (u : Nat) (t : TestRun) (pass : Bool) : State :=
  let r := ST_USTAT u
  let s := (s.testLeaves u).setFld r ST_USTAT_COUNT (s.fld r ST_USTAT_COUNT + 1)
  let stop := fun (s : State) => s.onSt fun x => { x with tests := x.tests.set none u none }
  if pass then
    ((stop ((s.count (ST_CNT 0)).setFld r ST_USTAT_LAST 1)).setFld r ST_USTAT_FAILS 0).testPasses u t
  else
    let s := ((s.count (ST_CNT 1)).setEvt BLK_ST 0).setFld r ST_USTAT_LAST 2
    let s := s.setFld r ST_USTAT_FAILS (min 3 (s.fld r ST_USTAT_FAILS + 1))
    if t.second then
      let s := ((stop s).stFault 0x2604 u).retireUnit u
      if t.cmd = 0 then s else s.stDone 2
    else s.onSt fun x => { x with tests := x.tests.set none u (some { t with second := true }) }

/-! ### Commands (R432) -/

/-- A command is refused. -/
def State.stRefuse (s : State) (u : Nat) : State :=
  (s.setFld ST_STAT ST_STAT_RESULT 3).stFault 0x0601 u

/-- A unit leaves service at once (R432, R439). -/
def State.stTakeOut (s : State) (u : Nat) : State :=
  let s := s.abandonTest u
  let c := unitClass u
  if c = 4 then (s.coreStops (u - 212) 2).setEvt BLK_ST 1
  else if c = 2 then
    let n := u - 148
    let s := if s.laneReady n then s.laneFail n else s
    ((s.lanePhase n 0 []).onLane n fun l => { l with restart := false }
      ).retireUnit u
  else if c = 6 then (s.chAbort (u - 224)).retireUnit u
  else s.retireUnit u

/-- A clock source becomes the running one (R444). -/
def State.stSwitchTo (s : State) (u : Nat) : State :=
  if u < 261 then s.selectPll (u - 259) else s.selectXtal (u - 261)

/-- The source can run. -/
def State.stMaySwitch (s : State) (u : Nat) : Bool :=
  unitClass u == 9 && s.unit u != 2 &&
    (if u < 261 then s.pllLocked (u - 259) else s.xtalOk (u - 261))

/-- Where the Sagger program continues after it is started or changed: the spec names no entry, so any
word of the program. -/
def State.sagEntry (s : State) (size : Nat) : Word × State :=
  let (d, s) := s.draw
  (BitVec.ofNat 32 (0x0A600000 + 4 * (Config.freeNat d % max 1 (size / 4))), s)

/-- A Sagger program is put into the three copies of its image (R404, R447). -/
def State.loadSagger (s : State) (code : List Byte) : State :=
  ((s.storeBytes SG_MEM code).storeBytes (SG_MEM + 0x50000) code).storeBytes (SG_MEM + 0xA0000) code

/-- UPDATE (R446, R447). -/
def State.stUpdateTo (s : State) (u : Nat) : State :=
  let s := s.imageRead s.stArg
  if u = 256 then
    match s.memImage s.stArg with
    | some img =>
      if imgReason [3] s.boot.fuseSvn (some img) ≠ 0 then s.stDone 2
      else
        let code := imgPart img 1
        let (pc, s) := (s.loadSagger code).sagEntry code.length
        ({ s with sg := { s.sg with pc := pc } } : State).stDone 1
    | none => s.stDone 2
  else if s.memReason [2] s.stArg = 0 then (s.holdImage s.stArg).stDone 1
  else s.stDone 2

/-- A command runs; one whose unit is no longer fit is abandoned. -/
def State.stRun (s : State) (op u : Nat) : State :=
  match op with
  | 1 => if s.stMayTest u then s.testBegin u 1 else s.stDone 4
  | 2 => if s.stMayRetire u then (s.stTakeOut u).stDone 1 else s.stDone 4
  | 3 => if s.stMayReturn u then s.testBegin u 3 else s.stDone 4
  | 4 => if s.stMaySwitch u then (s.stSwitchTo u).stDone 1 else s.stDone 4
  | 5 => s.stUpdateTo u
  | _ => s

/-- The class of the unit allows the operation. -/
def State.stAccepts (s : State) (op u : Nat) : Bool :=
  match op with
  | 1 => s.stMayTest u || (s.testBusy u && unitClass u != 4 && unitClass u != 10)
  | 2 => s.stMayRetire u
  | 3 => s.stMayReturn u
  | 4 => s.stMaySwitch u
  | _ => unitClass u == 4 || u == 256

/-- A write of ST_CMD (R432). An accepted command waits for a test of its class or cluster to end. -/
def State.stCommand (s : State) (op u : Nat) : State :=
  if op = 0 ∨ 5 < op then s
  else if s.bit ST_STAT ST_STAT_BUSY || decide (262 < u) || !s.stAccepts op u then s.stRefuse u
  else
    let s := ((s.setFld ST_STAT ST_STAT_BUSY 1).setFld ST_STAT ST_STAT_U u).setFld ST_STAT ST_STAT_RESULT 0
    if s.testBusy u then s.onSt fun x => { x with waiting := some (op, u) }
    else s.stRun op u

def State.stCmdWrite (s : State) (v : Word) : State :=
  s.stCommand (fldGet ST_CMD_OP v) (fldGet ST_CMD_U v)

/-- The waiting command begins once no test of its class or cluster runs. -/
def State.stResume (s : State) : State :=
  match s.st.waiting with
  | some (op, u) =>
    if s.testBusy u then s else (s.onSt fun x => { x with waiting := none }).stRun op u
  | none => s

/-- TEST (R432). -/
def execStTest (u : BitVec 9) (s : State) : Out := .next (s.stCommand 1 u.toNat)

/-- RETIRE (R432). -/
def execStRetire (u : BitVec 9) (s : State) : Out := .next (s.stCommand 2 u.toNat)

/-- RETURN (R432). -/
def execStReturn (u : BitVec 9) (s : State) : Out := .next (s.stCommand 3 u.toNat)

/-- SWITCH (R444). -/
def execStSwitch (u : BitVec 9) (s : State) : Out := .next (s.stCommand 4 u.toNat)

/-- UPDATE (R446, R447). -/
def execStUpdate (u : BitVec 9) (s : State) : Out := .next (s.stCommand 5 u.toNat)

/-! ### Automatic tests (R430, R442, R443) -/

/-- The first unit of a list that may be tested is taken; those before it are skipped and counted. -/
def State.takeFirst (s : State) (key : Nat) : List Nat → State
  | [] => s
  | u :: rest =>
    if s.stMayTest u then
      (s.onSt fun x => { x with next := x.next.set 0 key (u + 1) }).testBegin u 0
    else (s.count (ST_CNT 3)).takeFirst key rest

/-- Units in increasing order from the next one to try, then from the first. -/
def rotated (us : List Nat) (next : Nat) : List Nat :=
  us.filter (fun u => decide (next ≤ u)) ++ us.filter fun u => decide (u < next)

/-- The members of a class whose turn it is: any cluster of class 0, any channel of class 3. -/
def State.testGroup (s : State) (cls : Nat) : Nat × List Nat × State :=
  if cls = 0 then
    let (d, s) := s.draw
    let c := Config.freeNat d % 18
    (16 + c, (List.range 8).map (fun i => 8 * c + i), s)
  else if cls = 3 then
    let (d, s) := s.draw
    let c := Config.freeNat d % 8
    (64 + c, (List.range 4).map (fun i => 180 + 4 * c + i), s)
  else (cls, unitsOf cls, s)

/-- The comparison of a frame's spare slot (R442), once per frame: the section that LOOP_FRAME has evaluated again, or
tested with vectors, may differ, which the state of the machine does not show; a section that fails is tested
again (R431). -/
def State.testSection (s : State) : State :=
  let f := s.le.frame - 1
  if !s.le.running || s.le.frame == 0 || s.spareSlots f == 0 || s.st.started.get none 7 == some s.le.nextAt then s
  else
    let s := s.onSt fun x => { x with started := x.started.set none 7 (some s.le.nextAt) }
    let key := if (List.range 256).any (s.sectionRan f) then turnRan else turnFree
    let n := (s.st.next.get 0 key + 255) % 256
    let (d, s) := s.draw
    if !Config.freeBit d 0 then s
    else
      let s := (s.count (ST_CNT 1)).setEvt BLK_ST 0
      if !Config.freeBit d 1 then (s.count (ST_CNT 0)).fault 0x1603 7 n
      else ((s.count (ST_CNT 1)).setEvt BLK_ST 0).fault 0x2604 7 n

/-- A corrected error of on-chip SRAM: 16 of a bank in 1 h, whichever blocks own its lines, make the bank
lasting (R420, R421). -/
def State.sramCorrected (s : State) (a : Nat) : State :=
  let b := sramBank a
  let (l, s) := s.countEvent (winKey (commonCode 1 BLK_ST 0x3B) b) 16 ticksHour
  let s := s.raiseWith (commonCode 1 (sramOwner a) 0x3B) b a l
  if l then s.fault (commonCode 2 (sramOwner a) 0x3D) b (SRAM_BASE + b * 2 ^ 20) else s

/-- The patrol of on-chip SRAM (R443): an uncorrectable word is logged and left poisoned. Whether the pass
meets a further error, which, and where, is free, since no command brings one (log 62). -/
def State.testSram (s : State) : State :=
  let s := s.poison.foldl (fun s e =>
    let a := 64 * e.1
    if s.region a = .sram then s.sramFault a else s) (s.count (ST_CNT 0))
  let (d, s) := s.draw
  let a := SRAM_BASE + 8 * (Config.freeNat (d + 1) % (168 * 2 ^ 17))
  let s := s.draw.2
  match Config.freeNat d % 3 with
  | 0 => s
  | 1 => s.sramCorrected a
  | _ => (s.setPoison (a / 64)).sramFault a

/-- ST_PER has passed since the last automatic test under a key began (R430). -/
def State.perPassed (s : State) (cls key : Nat) : Bool :=
  match s.st.started.get none key with
  | some t => decide (t + max 1 (s.reg (ST_PER cls)).toNat * 100 * ticksMs ≤ s.now)
  | none => true

/-- The start of an automatic test. -/
def State.perBegin (s : State) (key : Nat) : State :=
  s.onSt fun x => { x with started := x.started.set none key (some s.now) }

/-- AUTOMATIC_TEST (R430). -/
def execAutomaticTest (cls : Fin 11) (s : State) : Out :=
  .next <|
    if !(decide (cls.val < 10) && s.rbit ST_CTRL cls) then s
    else if cls.val = 7 then s.testSection
    else if cls.val = 8 then (if s.perPassed 8 8 then (s.perBegin 8).testSram else s)
    else
      let (key, us, s) := s.testGroup cls
      let held : Bool := match s.st.waiting with
        | some (_, u) => unitClass u == cls.val
        | none => false
      if held || us.any s.testBusy || !s.perPassed cls key then s
      else (s.perBegin key).takeFirst key (rotated us (s.st.next.get 0 key))

/-- TEST_COMPLETE (R431). -/
def execTestComplete (u : BitVec 9) (pass : Bool) (s : State) : Out :=
  .next <|
    match s.st.tests.get none u.toNat with
    | some t => if s.testRuns u.toNat then (s.testEnds u.toNat t pass).stResume else s
    | none => s

end Sys2Proof.Machine
end

