-- ==== Sys2Proof/Machine/Verify.lean ====
section
/-!
DEFINITION. The BQ writer and the verification engine (R251 to R282): the expected image, stitched rows,
the appearance model, classification, segmentation, registration and nozzle health.
-/

namespace Sys2Proof.Machine

/-! ### The expected image (R251 to R254) -/

/-- The coverage of a dot of a layout line in the coverage store; 0 where no accepted tile covers it. -/
def State.covAt (s : State) (p line dot : Nat) : Nat :=
  match s.adm.tiles.find? fun t =>
      t.key == ⟨p, 64 * (line / 64), dot / 256⟩ && decide (t.fate = .accepted) with
  | some t => s.tileByte t line dot
  | none => 0

/-- The widths of the planes of the running job, or, when none runs, drains or is armed, of the last one
(DEDUCED: its rows are compared after it has ended, and bands that no job renders still get their rows). -/
def State.widths (s : State) : List Nat :=
  match s.runJob.or s.adm.past.head? with
  | some j => (List.range j.hdr.npl).map j.hdr.width
  | none => []

def State.bqDepth (s : State) : Nat := s.fld VE_BQ_DEPTH VE_BQ_DEPTH_DEPTH

/-- RS of R252. -/
def bqStride (width : Nat) : Nat := 64 * ceilDiv width 64

/-- The address of row k of a plane, and of its tag (R252). -/
def State.bqRow (s : State) (p : Nat) (k : Nat) : Nat :=
  let d := s.bqDepth
  s.reg64 VE_BQ_BASE_LO VE_BQ_BASE_HI + d * ((s.widths.take p).map bqStride).sum +
    k % d * bqStride (s.widths.getD p 0)

def State.bqTag (s : State) (p : Nat) (k : Nat) : Nat :=
  let d := s.bqDepth
  s.reg64 VE_BQ_BASE_LO VE_BQ_BASE_HI + d * (s.widths.map bqStride).sum + 8 * (p * d + k % d)

/-- e(p, k, d) of R251. -/
def State.expectedByte (s : State) (p k d : Nat) : Nat :=
  let dec := s.veDec
  (((List.range dec).map fun j => s.covAt p (dec * k + j) d).sum + dec / 2) / dec

/-- Every tile of the plane-band is accepted or released, and in the store; or no job renders it (R253). -/
def State.bandResolved (s : State) (p band : Nat) : Bool :=
  match s.lineJob band with
  | some j => decide (band < j.rendersFrom) || (List.range (tilesOf (j.hdr.width p))).all fun col =>
      s.adm.tiles.any fun t => t.key == ⟨p, band, col⟩ && decide (t.fate ≠ .waiting)
  | none => true

/-- The rows of a plane-band have been written: its tags follow once DRAM has accepted them all (R253). -/
def State.bqTags (s : State) (p b : Nat) (rows : List Nat) : State :=
  let rest := s.ve.bqSent.filter (· != (p, b))
  if rows.any fun k => s.putWaits 1 (s.bqRow p k) (bqStride (s.widths.getD p 0)) then
    s.onVe fun v => { v with bqSent := rest ++ [(p, b)] }
  else
    rows.foldl (fun t k => t.blockSave BLK_BQ (s.bqTag p k) (leBytes 8 k)) (s.onVe fun v => { v with bqSent := rest })

/-- BQ_WRITE (R253): the expected rows of a plane-band, then its tags. -/
def execBqWrite (p : Fin 8) (band : BitVec 64) (s : State) : Out :=
  .next <|
    let b := band.toNat
    let dec := s.veDec
    if !s.veOn || !s.bandResolved p b || b % 64 != 0 || decide (s.widths.length ≤ p.val) then s
    else
      let w := s.widths.getD p 0
      let rows := (List.range (64 / dec)).map (b / dec + ·)
      let s := if s.ve.bqSent.contains (p.val, b) then s else rows.foldl (fun t k =>
        t.blockSave BLK_BQ (s.bqRow p k)
          ((List.range (bqStride w)).map fun d =>
            if d < w then BitVec.ofNat 8 (s.expectedByte p k d) else 0)) s
      s.bqTags p b rows

/-- The poisoned lines of a row of the store and of its tag (R309). -/
def State.rowPoison (s : State) (p k : Nat) : List Nat :=
  s.poisonIn (s.bqTag p k) 8 ++ s.poisonIn (s.bqRow p k) (bqStride (s.widths.getD p 0))

/-- A row of the store was not written in time, or never (R254), or is poisoned (R309). -/
def State.rowStale (s : State) (p : Nat) (k : Int) : Bool :=
  decide (k < 0) || s.loadNat (s.bqTag p k.toNat) 8 != k.toNat || !(s.rowPoison p k.toNat).isEmpty

/-! ### Cameras and web pixels (R258 to R261) -/

def State.veCams (s : State) : List Nat :=
  (List.range 12).filter fun c => s.bit (VE_CAM_CFG c) VE_CAM_CFG_EN

def State.camDxa (s : State) (c : Nat) : Int := sext 16 (s.fld (VE_CAM_DX c) VE_CAM_DX_DXA)
def State.camDya (s : State) (c : Nat) : Int := sext 16 (s.fld (VE_CAM_DY c) VE_CAM_DY_DYA)

/-- The camera pixel that camera c places at web pixel w. -/
def State.camPixel (s : State) (dxa : Int) (c : Nat) (w : Int) : Option Nat :=
  let i : Int := w - s.fld (VE_CAM_CFG c) VE_CAM_CFG_WBASE - dxa
  if s.fld (VE_CAM_USE c) VE_CAM_USE_USE_LO ≤ i ∧ i ≤ s.fld (VE_CAM_USE c) VE_CAM_USE_USE_HI then
    some i.toNat
  else none

/-- dot(w) of R259; none below WOFS. -/
def State.webDot (s : State) (w : Int) : Option Nat :=
  let o := s.fld VE_WOFS VE_WOFS_WOFS
  if w < o then none else some ((w - o).toNat * s.fld VE_GEOM VE_GEOM_DPP / 65536)

/-- The dot of a web pixel as records carry it, clamped to 0 and 65,535. -/
def State.recDot (s : State) (w : Int) : Nat := min 65535 ((s.webDot w).getD 0)

def State.inspected (s : State) (w : Int) : Bool :=
  match s.webDot w with
  | some d => decide (d < maxOf s.widths)
  | none => false

/-- The web pixels that any camera can place: DXA may place a pixel below 0 (R258, R264). -/
def webRange : List Int := (List.range (2 ^ 18 + 2 ^ 14 + 512)).map fun (i : Nat) => (i : Int) - 256

/-- The ring line of a camera for a stitched row. -/
def State.ringLine (s : State) (c : Nat) (row : Int) : Option RingLine :=
  (s.ve.ring.get [] c).find? fun l => decide (l.row = row)

/-- The address of a camera's stitched row in the alignment ring (R260). -/
def State.ringAddr (s : State) (c : Nat) (row : Int) : Nat :=
  let size := fun c => (s.fld (CAM_GEOM c) CAM_GEOM_W_M1 + 1) *
    (if 4 ≤ s.fld (CAM_CFG c) CAM_CFG_FMT then 3 else 1) * 2
  s.reg64 VE_ABUF_BASE_LO VE_ABUF_BASE_HI +
    64 * (((List.range c).filter fun q => s.veCams.contains q).map size).sum +
    (row % 64).toNat * size c

/-- The poisoned lines of a camera's stitched row (R309). -/
def State.ringPoison (s : State) (c : Nat) (l : RingLine) : List Nat :=
  s.poisonIn (s.ringAddr c l.row) (2 * l.w * l.ch)

/-- Rows of the store about a row are good: every one within `n` of it, of every plane. -/
def State.rowsGood (s : State) (k : Int) (n : Nat) : Bool :=
  (List.range s.widths.length).all fun p => (List.range (2 * n + 1)).all fun (j : Nat) => !s.rowStale p (k + (j : Int) - n)

/-- The measured density of a channel of a camera pixel. -/
def State.density (s : State) (c : Nat) (l : RingLine) (i ch : Nat) : Nat :=
  s.loadNat (s.ringAddr c l.row + 2 * (i * l.ch + ch)) 2

/-! ### Fired coverage and the appearance model (R256, R265) -/

/-- c(p, k, d) of R256. -/
def State.firedCov (s : State) (p : Nat) (k : Int) (d : Nat) : Nat :=
  let dec := s.veDec
  let set := (List.range 64).filter fun n =>
    s.slotEn n && s.slotPlane n == p && decide (s.fld (VE_SPAN n) VE_SPAN_DLO ≤ d) &&
      decide (d ≤ s.fld (VE_SPAN n) VE_SPAN_DHI)
  let f := (set.map fun n =>
    ((List.range dec).filter fun (j : Nat) => s.fired n (dec * k + (j : Nat) + s.slotOfs n)).length).sum
  if set.isEmpty then 0
  else (memByte s.mem (s.bqRow p k.toNat + d)).toNat * f / (set.length * dec)

/-- The fired coverage of a plane at a web pixel (R259). -/
def State.webCov (s : State) (p : Nat) (k w : Int) : Nat :=
  match s.webDot w with
  | some d => if d < s.widths.getD p 0 ∧ 0 ≤ k then s.firedCov p k d else 0
  | none => 0

def lutAddr (p ch c : Nat) : Nat := VE_MEM + 0x100000 + 512 * (3 * p + ch) + 2 * c

/-- u(k, w) of R265. -/
def State.modelU (s : State) (ch : Nat) (k w : Int) : Nat :=
  min 65535 (s.fld (VE_DBASE ch) VE_DBASE_DBASE +
    ((List.range s.widths.length).map fun p => s.loadNat (lutAddr p ch (s.webCov p k w)) 2).sum)

/-- a(k, w) of R265, for camera c with its applied offset. -/
def State.modelA (s : State) (c : Nat) (dxa : Int) (ch : Nat) (k w : Int) : Nat :=
  let kx := min 127 (s.fld VE_MODEL VE_MODEL_KX)
  let side := fun (v : Int) => if (s.camPixel dxa c v).isSome then v else w
  (kx * s.modelU ch k (side (w - 1)) + (256 - 2 * kx) * s.modelU ch k w +
    kx * s.modelU ch k (side (w + 1)) + 128) / 256

/-- The predicted density P of R265. -/
def State.predict (s : State) (c : Nat) (dxa : Int) (ch : Nat) (k w : Int) : Nat :=
  let ky := min 127 (s.fld VE_MODEL VE_MODEL_KY)
  (ky * s.modelA c dxa ch (k - 1) w + (256 - 2 * ky) * s.modelA c dxa ch k w +
    ky * s.modelA c dxa ch (k + 1) w + 128) / 256

/-! ### Classification (R267, R268) -/

/-- The largest SHIFT of the masks that apply at a web pixel and expected row, by the job that owns the
layout line (R119). -/
def State.maskShift (s : State) (k w : Int) : Nat :=
  match s.webDot w, s.lineJob (s.veDec * k) with
  | some d, some j =>
    if !s.inspected w then 0
    else match s.owner j.hdr (s.veDec * k) d with
      | none => 0
      | some p =>
        let y : Int := s.veDec * k - p.origin
        maxOf (((List.range 16).filter fun m =>
          s.bit (VE_MASK3 m) VE_MASK3_EN && decide (s.fld (VE_MASK0 m) VE_MASK0_X0 ≤ d) &&
            decide (d ≤ s.fld (VE_MASK0 m) VE_MASK0_X1) &&
            decide (((s.reg (VE_MASK1 m)).toNat : Int) ≤ y) &&
            decide (y ≤ (s.reg (VE_MASK2 m)).toNat)).map fun m => s.fld (VE_MASK3 m) VE_MASK3_SHIFT)
  | _, _ => 0

/-- A pixel after its comparison. -/
def shiftThr (t shift : Nat) : Nat := min 0xFFFF (t * 2 ^ shift)

/-- R267: class (0 clear, 1 EXTRA, 2 MISSING) and |D − P| on the deciding channel, from the measured and
predicted densities of the channels. -/
def State.classify (s : State) (shift : Nat) (dp : List (Nat × Nat × Nat)) : Nat × Nat :=
  let cand := dp.flatMap fun (ch, d, p) =>
    [((1 : Nat), (d : Int) - p - shiftThr (s.fld (VE_THR ch) VE_THR_TX) shift, (d - p) + (p - d)),
     (2, (p : Int) - d - shiftThr (s.fld (VE_THR ch) VE_THR_TM) shift, (d - p) + (p - d))]
  let best := cand.foldl (fun b c =>
    if b.2.1 < c.2.1 ∨ (b.2.1 = c.2.1 ∧ c.1 < b.1) then c else b) ((0 : Nat), (0 : Int), (0 : Nat))
  if 0 < best.2.1 then (best.1, best.2.2) else (0, 0)

/-- A web pixel of a stitched row: its camera (none: HOLE), expected row, cause if unverified, class,
deviation and whether a mask with SHIFT > 0 applies. -/
abbrev WebPix := Int × Option Nat × Int × Nat × Nat × Nat × Bool

/-- The pixel at web pixel w in a row; none where nothing is to be said of it. -/
def State.webPixel (s : State) (cams : List Nat) (row w : Int) : Option WebPix :=
  let placed := fun c => (s.ringLine c row).isSome && (s.camPixel (s.camDxa c) c w).isSome
  let used := fun c => (s.camPixel (s.camDxa c) c w).isSome
  match cams.find? placed with
  | some c =>
    let k := row + s.camDya c
    match s.ringLine c row, s.camPixel (s.camDxa c) c w with
    | some l, some i =>
      let stale := !s.rowsGood k 1 || !(s.ringPoison c l).isEmpty
      let cause :=
        if l.unv then l.reason
        else if l.pad ≤ i ∨ l.w ≤ i then 4
        else if l.uvr.any fun r => decide (r.1 ≤ i ∧ i < r.2) then 5
        else if stale then 6 else 0
      if cause ≠ 0 then some (w, some c, k, cause, 0, 0, false)
      else
        let shift := s.maskShift k w
        let (cls, dev) := s.classify shift ((List.range l.ch).map fun ch =>
          (ch, s.density c l i ch, s.predict c (s.camDxa c) ch k w))
        some (w, some c, k, 0, cls, dev, decide (0 < shift))
    | _, _ => none
  | none =>
    if !cams.any used && s.inspected w then some (w, none, row, 8, 0, 0, false) else none

/-- A camera missing from a row is unverified over its used range, whatever other camera places a pixel
there (R260). DEDUCED: its pixels are no HOLE besides. -/
def State.alignPixels (s : State) (row : Int) (c : Nat) : List WebPix :=
  webRange.filterMap fun w =>
    if (s.camPixel (s.camDxa c) c w).isSome then some (w, some c, row + s.camDya c, 7, 0, 0, false) else none

/-! ### Segmentation (R269, R270) -/

/-- Runs of neighbouring web pixels that satisfy a test, each with its pixels. -/
def pixRuns (test : WebPix → Bool) (px : List WebPix) : List (List WebPix) :=
  (px.filter test).foldr (fun p acc =>
    match acc with
    | (q :: r) :: rest => if p.1 + 1 = q.1 then (p :: q :: r) :: rest else [p] :: acc
    | _ => [p] :: acc) []

/-- A region of one run of pixels. -/
def State.regionOf (s : State) (cls : Nat) (px : List WebPix) (time : Nat) : Region :=
  let k := (px.head?.map fun p => p.2.2.1).getD 0
  let lo := (px.head?.map (·.1)).getD 0
  let hi := (px.getLast?.map (·.1)).getD 0
  { cls := cls, cam := ((px.head?.bind fun p => p.2.1)).getD 0xFF, runs := [(lo, hi)], k0 := k, k1 := k,
    rows := 1, lo := lo, hi := hi, area := px.length,
    peak := maxOf (px.map fun p => p.2.2.2.2.2.1), sumDev := (px.map fun p => p.2.2.2.2.2.1).sum,
    sumW := (px.map (·.1)).sum, sumK := (px.map fun p => p.2.2.1).sum,
    margin := px.any fun p => !s.inspected p.1, masked := px.any fun p => p.2.2.2.2.2.2,
    contd := false, time := time }

/-- Two regions that are one: the first line, source and time are those of the one that began first, or
of the left one; one that continues a region closed with CONT has no rows yet. -/
def Region.join (a b : Region) : Region :=
  let (x, y) := if a.rows < b.rows then (b, a) else (a, b)
  if y.rows = 0 then { x with runs := a.runs ++ b.runs, contd := a.contd || b.contd }
  else { x with
    runs := a.runs ++ b.runs, lo := min a.lo b.lo, hi := max a.hi b.hi, area := a.area + b.area,
    peak := max a.peak b.peak, sumDev := a.sumDev + b.sumDev, sumW := a.sumW + b.sumW,
    sumK := a.sumK + b.sumK, margin := a.margin || b.margin, masked := a.masked || b.masked,
    contd := x.contd || y.contd }

/-- An open region without rows: one that begins, or that continues one that closed with CONT. -/
def Region.fresh (runs : List (Int × Int)) (cls : Nat) (contd : Bool) : Region :=
  { cls := cls, cam := 0, runs := runs, k0 := 0, k1 := 0, rows := 0, lo := 0, hi := 0, area := 0, peak := 0,
    sumDev := 0, sumW := 0, sumK := 0, margin := false, masked := false, contd := contd, time := 0 }

/-- A row's part added to an open region. -/
def Region.extend (r part : Region) : Region :=
  if r.rows = 0 then { part with contd := r.contd }
  else { r.join part with runs := part.runs, k1 := part.k0, rows := r.rows + 1 }

/-- R269: a run touches a region of the row before. -/
def Region.touches (r : Region) (a b : Int) : Bool :=
  r.runs.any fun x => decide (a ≤ x.2 + 1) && decide (x.1 ≤ b + 1)

/-- The record of a closed region (R271, R272). -/
def State.regionRec (s : State) (kind : Nat) (r : Region) (flags : Nat) : Defect :=
  let dec := s.veDec
  { Defect.blank kind r.cam r.cls with
    flags := flags + (if r.contd then flagContd else 0) + (if r.margin then flagMargin else 0) +
      (if r.masked then flagMasked else 0),
    ln0 := dec * r.k0, ln1 := dec * r.k1 + dec - 1, x0 := s.recDot r.lo, x1 := s.recDot r.hi,
    product := s.productOf (dec * r.k0) (s.recDot r.lo), time := r.time,
    ext := twos 32 r.lo + twos 32 r.hi * 2 ^ 32, area := r.area, peak := r.peak,
    mean := if r.area = 0 then 0 else r.sumDev / r.area,
    cdot := if r.area = 0 then 0 else s.recDot (r.sumW / r.area),
    cline := if r.area = 0 then 0 else ((dec * (r.sumK - r.area * r.k0)) / r.area).toNat }

/-- A region closes: a component below AMIN gives no record, and one without rows none (R270); unlabelled
runs are no component. -/
def State.closeRegion (s : State) (kind : Nat) (r : Region) (flags : Nat) : State :=
  if r.rows = 0 then s
  else if kind = 1 ∧ flags.land flagSat = 0 ∧ r.area < s.fld VE_SEG VE_SEG_AMIN then s.count (VE_CNT 7)
  else s.emit (s.regionRec kind r flags)

/-- An open region with its part in the row being processed. -/
abbrev OpenRegion := Region × Option Region

/-- R269: one run enters the components; none when it would need a component beyond 8,192 (R270). -/
def addRun (comps : List OpenRegion) (new : Region) : Option (List OpenRegion) :=
  let hit := fun (x : OpenRegion) => decide (x.1.cls = new.cls) && x.1.touches new.lo new.hi
  match comps.filter hit with
  | [] =>
    if comps.length < 8192 then some (comps ++ [(Region.fresh [] new.cls false, some new)]) else none
  | x :: more =>
    let base := more.foldl (fun a y => a.join y.1) x.1
    let parts := (x :: more).filterMap (·.2)
    let part := match parts with
      | [] => new
      | q :: qs => (qs.foldl Region.join q).join new
    some (comps.filter (fun y => !hit y) ++ [(base, some part)])

/-- The row ends for a region: it closes without a part in the row; after 4,096 rows it closes with
CONT and goes on (R270, R274). -/
def State.settle (s : State) (kind : Nat) (x : OpenRegion) : List Region × State :=
  match x.2 with
  | none => ([], s.closeRegion kind x.1 0)
  | some part =>
    let r := x.1.extend part
    if r.rows = 4096 then
      ([{ Region.fresh r.runs r.cls true with cam := r.cam }], s.closeRegion kind r flagCont)
    else ([r], s)

/-- Every region at the end of a row. -/
def State.settleAll (s : State) (kind : Nat) (xs : List OpenRegion) : List Region × State :=
  xs.foldl (fun acc x => let (rs, s) := acc.2.settle kind x; (acc.1 ++ rs, s)) ([], s)

/-- The stamp of the line event that triggered a camera's line of a row (R273, R393); of a missing camera,
the LN that gives the row (R258, R281 DEC). No camera line holds a HOLE: its TIME is the value given. -/
def State.rowTime (s : State) (hole : Nat) (cam : Option Nat) (row : Int) : Nat :=
  match cam with
  | some c => match s.ringLine c row with
    | some l => s.stampOf l.ln
    | none => s.stampOf (s.veDec * row + (s.reg (VE_CAM_COFS c)).toNat).toNat
  | none => hole

/-- The components after a row (R269, R270). -/
def State.segment (s : State) (row : Int) (px : List WebPix) : State :=
  let runs := [1, 2].flatMap fun cls =>
    (pixRuns (fun p => p.2.2.2.1 == 0 && p.2.2.2.2.1 == cls) px).map fun r =>
      s.regionOf cls r (s.rowTime 0 (r.head?.bind (·.2.1)) row)
  let start : List OpenRegion × List Region := (s.ve.comps.map fun r => (r, none), [])
  let (comps, lost) := runs.foldl (fun acc r =>
    match addRun acc.1 r with
    | some c => (c, acc.2)
    | none => (acc.1, acc.2 ++ [r])) start
  let (open_, s) := s.settleAll 1 comps
  let s := s.onVe fun v => { v with comps := open_ }
  match s.ve.sat, lost with
  | none, [] => s
  | some r, [] => ((s.closeRegion 1 r flagSat).fault 0x0345).onVe fun v => { v with sat := none }
  | none, r :: rs => s.onVe fun v => { v with sat := some (rs.foldl Region.join r) }
  | some o, r :: rs => s.onVe fun v => { v with sat := some (o.extend (rs.foldl Region.join r)) }

/-- The unverified regions after a row (R274): one per camera and cause. The TIME of a HOLE is free: the
spec states none. -/
def State.regions (s : State) (row : Int) (px : List WebPix) : State :=
  let (d, s) := s.draw
  let hole := Config.freeNat d % 2 ^ 64
  let causes := [1, 2, 3, 4, 5, 6, 7]
  let keys : List (Option Nat × Nat) :=
    (s.veCams.flatMap fun c => causes.map fun q => (some c, q)) ++ [(none, 8)]
  let opened := keys.filterMap fun (cam, cause) =>
    let part := match px.filter fun p => decide (p.2.1 = cam) && p.2.2.2.1 == cause with
      | [] => none
      | ps => some (s.regionOf cause ps (s.rowTime hole cam row))
    let old := s.ve.regions.find? fun r => r.cls == cause && decide (r.cam = cam.getD 0xFF)
    match old, part with
    | none, none => none
    | some r, p => some (r, p)
    | none, some p => some (Region.fresh [] cause false, some p)
  let (rs, s) := s.settleAll 2 opened
  s.onVe fun v => { v with regions := rs }

/-! ### Health (R279, R280) and registration (R262 to R264) -/

def State.healthBank (s : State) (frozen : Bool) : Nat :=
  VE_MEM + 0x200000 + 0x300000 * (if (s.fld VE_HSTAT VE_HSTAT_BANK == 1) == frozen then 1 else 0)

/-- R279: a verified pixel of the inspection range updates the accumulating bank. -/
def State.health (s : State) (row : Int) (p : WebPix) : State :=
  match p.2.1, s.webDot p.1 with
  | some c, some d =>
    if p.2.2.2.1 ≠ 0 ∨ !s.inspected p.1 then s
    else match s.ringLine c row, s.camPixel (s.camDxa c) c p.1 with
      | some l, some i =>
        let k := p.2.2.1
        let npl := s.widths.length
        (List.range npl).foldl (fun s q =>
          let ok := decide (d < s.widths.getD q 0) &&
            decide (s.fld VE_HCFG VE_HCFG_HCMIN ≤ s.webCov q k p.1) &&
            (List.range npl).all fun o =>
              o == q || decide (s.webCov o k p.1 ≤ s.fld VE_HCFG VE_HCFG_HCOTHER)
          if !ok then s
          else
            let ch := min (l.ch - 1) (min 2 (s.fld VE_HCFG VE_HCFG_HCH / 4 ^ q % 4))
            let pr := s.predict c (s.camDxa c) ch k p.1
            let a := s.healthBank false + 12 * ((s.widths.take q).sum + d)
            let sum := clampI (-2147483648) 2147483647
              (sext 32 (s.loadNat a 4) + s.density c l i ch - pr)
            let s := s.storeNat a 4 (twos 32 sum)
            let s := s.storeNat (a + 4) 4 (min 0xFFFFFFFF (s.loadNat (a + 4) 4 + pr))
            s.storeNat (a + 8) 4 (min 0xFFFFFFFF (s.loadNat (a + 8) 4 + 1))) s
      | _, _ => s
  | _, _ => s

/-- HEALTH_INTERVAL_END (R280): the banks change places after 2^HLOG rows. -/
def execHealthIntervalEnd (s : State) : Out :=
  .next <|
    if !s.veOn || decide (s.ve.rowsHealth < 2 ^ max 8 (s.fld VE_CTRL VE_CTRL_HLOG)) then s
    else
      let s := s.setFld VE_HSTAT VE_HSTAT_BANK (1 - s.fld VE_HSTAT VE_HSTAT_BANK)
      let s := s.setFld VE_HSTAT VE_HSTAT_HSEQ (s.fld VE_HSTAT VE_HSTAT_HSEQ + 1)
      let s := s.clearBytes (s.healthBank false) 0x300000
      (s.onVe fun v => { v with rowsHealth := 0 }).setEvt BLK_VE 2

/-- The candidates of R262, dy by dy, dx by dx. -/
def candidates : List (Int × Int) :=
  (List.range 17).flatMap fun (y : Nat) => (List.range 33).map fun (x : Nat) => ((x : Int) - 16, (y : Int) - 8)

/-- R262: a pixel row of a patch adds to its sums; a pixel that a candidate would compare with a stale or
poisoned row is left out (R254, R309). -/
def State.track (s : State) (row : Int) (px : List WebPix) (c i : Nat) : State :=
  let x0 := s.fld (VE_CAM_TPX c i) VE_CAM_TPX_TPX
  let key := 4 * c + i
  (List.range 64).foldl (fun s j =>
    let w : Int := (x0 + j : Nat)
    let good := px.find? fun p => p.1 == w && decide (p.2.1 = some c) && p.2.2.2.1 == 0 && s.rowsGood p.2.2.1 9
    match good, s.ringLine c row, s.camPixel (s.camDxa c) c w with
    | some p, some l, some q =>
      let d := s.density c l q 0
      let sad := s.ve.sad.get [] key
      let add := candidates.zipIdx.map fun ((dx, dy), n) =>
        let m := s.predict c (s.camDxa c) 0 (p.2.2.1 + dy) (w + dx)
        sad.getD n 0 + ((d - m) + (m - d))
      s.onVe fun v => { v with sad := v.sad.set [] key add, taken := v.taken.upd 0 key (· + 1) }
    | _, _, _ => s) s

/-- R262, R263: the result of a patch, if it is valid: at most 1,024 of its 4,096 pixels are left out. -/
def patchResult (conf taken : Nat) (sad : List Nat) : Option (Int × Int) :=
  if taken + 1024 < 4096 then none
  else
    let all := (candidates.zip sad)
    let dist := fun (c : Int × Int) => c.1.natAbs + c.2.natAbs
    let better := fun (a b : (Int × Int) × Nat) =>
      decide (a.2 < b.2) || (a.2 == b.2 && (decide (dist a.1 < dist b.1) ||
        (dist a.1 == dist b.1 && (decide (a.1.2 < b.1.2) ||
          (decide (a.1.2 = b.1.2) && decide (a.1.1 < b.1.1))))))
    match all with
    | [] => none
    | a :: rest =>
      let best := rest.foldl (fun b x => if better x b then x else b) a
      if best.2 * 2 ^ conf * 561 ≤ sad.sum then some best.1 else none

/-- R263: a camera's measured offsets at the end of an interval's rows. -/
def State.measure (s : State) (c : Nat) : State :=
  let conf := min 7 (s.fld VE_CTRL VE_CTRL_CONF)
  let res := (List.range 4).filterMap fun i =>
    if s.bit (VE_CAM_TPX c i) VE_CAM_TPX_EN then
      patchResult conf (s.ve.taken.get 0 (4 * c + i)) (s.ve.sad.get [] (4 * c + i)) else none
  let n := res.length
  let s := (s.setFld (VE_CAM_TSTAT c) VE_CAM_TSTAT_COUNT (s.fld (VE_CAM_TSTAT c) VE_CAM_TSTAT_COUNT + 1)).setFld
    (VE_CAM_TSTAT c) VE_CAM_TSTAT_VALID (b2n (n != 0))
  if n = 0 then (s.setEvt BLK_VE 3).fault 0x0342 c
  else
    let mean := fun (x : Int) => (2 * x + n) / (2 * n)
    let dx := s.camDxa c + mean ((res.map (·.1)).sum)
    let dy := s.camDya c + mean ((res.map (·.2)).sum)
    let cx := clampI (-255) 255 dx
    let cy := clampI (-63) 63 dy
    let s := s.setFld (VE_CAM_TSTAT c) VE_CAM_TSTAT_LIMIT (b2n (cx != dx || cy != dy))
    (s.setFld (VE_CAM_DX c) VE_CAM_DX_DXM (twos 16 cx)).setFld (VE_CAM_DY c) VE_CAM_DY_DYM (twos 16 cy)

/-- One step of an offset toward another. -/
def stepToward (a m : Int) : Int := if a < m then a + 1 else if m < a then a - 1 else a

/-- REGISTRATION_STEP (R264): after STEPL rows the applied offsets move by 1. -/
def execRegistrationStep (s : State) : Out :=
  .next <|
    if decide (s.ve.rowsStep < max 1 (s.fld VE_CTRL VE_CTRL_STEPL)) then s
    else
      let s := s.onVe fun v => { v with rowsStep := 0 }
      s.each 12 fun c s =>
        let dx := stepToward (s.camDxa c) (sext 16 (s.fld (VE_CAM_DX c) VE_CAM_DX_DXM))
        let dy := stepToward (s.camDya c) (sext 16 (s.fld (VE_CAM_DY c) VE_CAM_DY_DYM))
        (s.setFld (VE_CAM_DX c) VE_CAM_DX_DXA (twos 16 (clampI (-255) 255 dx))).setFld (VE_CAM_DY c)
          VE_CAM_DY_DYA (twos 16 (clampI (-63) 63 dy))

/-! ### Stitched rows (R258 to R260) -/

/-- The stitched row of a line record (R258). -/
def State.recRow (s : State) (l : LineRec) : Int :=
  ((l.ln : Int) - (s.reg (VE_CAM_COFS l.cam)).toNat) / s.veDec

/-- The line that a record would overwrite in the ring has not been processed. -/
def State.ringHeld (s : State) (l : LineRec) : Bool :=
  s.veOn && (s.ve.ring.get [] l.cam).any fun r =>
    decide (r.row < s.recRow l) && decide (r.row % 64 = s.recRow l % 64)

/-- The oldest record of each camera that has been handed over, by its place. -/
def State.inboxHeads (s : State) : List (LineRec × Nat) :=
  s.ve.inbox.zipIdx.filter fun (l, i) => !(s.ve.inbox.take i).any fun e => e.cam == l.cam

/-- LINE_RECORD_ARRIVAL (R260, R278): the oldest line record handed over is placed in its camera's
alignment ring, or discarded and counted; a record that takes the place of another of its row counts the
other. One that would overwrite a line not yet processed waits until its row is, and the camera's later ones
behind it: it makes that row due. -/
def execLineRecordArrival (s : State) : Out :=
  .next <|
    match s.inboxHeads.find? fun x => !s.ringHeld x.1 with
    | none => s
    | some (l, i) =>
      let s := s.onVe fun v => { v with inbox := v.inbox.eraseIdx i }
      let row := s.recRow l
      let late := match s.ve.nextRow with | some n => decide (row < n) | none => false
      if !s.veOn || late || !s.veCams.contains l.cam then s.count (VE_CNT 6)
      else
        let s := if (s.ringLine l.cam row).isSome then s.count (VE_CNT 6) else s
        let s := s.blockSave BLK_VE (s.ringAddr l.cam row) (l.samples.flatMap fun x => leBytes 2 x)
        s.onVe fun v => { v with ring := v.ring.upd [] l.cam fun q =>
          (q.filter fun r => decide (r.row ≠ row)) ++
            [{ row := row, ln := l.ln, unv := l.unv, reason := l.reason, pad := l.pad, w := l.w,
               ch := if l.rgb then 3 else 1, uvr := l.uvr }] }

/-- The next stitched row, if it can be processed: every enabled camera has delivered its line, or one
has delivered a line for row + 64 or beyond and no line of the row is still to be accepted. -/
def State.rowReady (s : State) : Option Int :=
  let lines := s.veCams.flatMap fun c => (s.ve.ring.get [] c).map (·.row)
  let waits := (s.inboxHeads.filter fun x => s.veCams.contains x.1.cam && s.ringHeld x.1).map fun x => s.recRow x.1
  let first : Option Int := match s.ve.nextRow with
    | some n => some n
    | none => lines.min?
  match first with
  | none => none
  | some r =>
    if (s.veCams.all fun c => (s.ringLine c r).isSome) ||
        ((lines ++ waits).any (fun x => decide (r + 64 ≤ x)) &&
          !s.ve.inbox.any fun l => s.veCams.contains l.cam && decide (s.recRow l = r)) then
      some r else none

/-- R254: the rows read for this stitched row, once one with a matching tag has been seen. -/
def State.staleRows (s : State) (row : Int) : State :=
  let ks := (s.veCams.map fun c => row + s.camDya c).eraseDups
  (List.range s.widths.length).foldl (fun s p => ks.foldl (fun s k =>
    let s := if k < 0 then s else (s.rowPoison p k.toNat).foldl State.poisonReport s
    if s.rowStale p k then (if s.ve.matched then (s.fault 0x1344 p).setEvt BLK_VE 5 else s)
    else s.onVe fun v => { v with matched := true }) s) s

/-- The fire-map bits of the enabled slots up to an expected row have been read (R255, R256). -/
def State.noteRead (s : State) (k : Int) : State :=
  (List.range 64).foldl (fun s n =>
    if s.slotEn n then
      let f : Int := s.veDec * k + s.veDec - 1 + s.slotOfs n
      s.onVe fun v => { v with read := v.read.upd none n fun o => some (max f (o.getD f)) }
    else s) s

/-- A stitched row is compared, classified and segmented. -/
def State.processRow (s : State) (row : Int) : State :=
  let cams := s.veCams
  let missing := cams.filter fun c => (s.ringLine c row).isNone
  let s := missing.foldl (fun s c => (s.setEvt BLK_VE 4).fault 0x2343 c) s
  let s := s.staleRows row
  let s := cams.foldl (fun s c => match s.ringLine c row with
    | some l => (s.ringPoison c l).foldl State.poisonReport s
    | none => s) s
  let px := webRange.filterMap (s.webPixel cams row) ++ missing.flatMap (s.alignPixels row)
  let done := (px.filter fun p => p.2.2.2.1 == 0).length
  let s := s.setReg (VE_CNT 5) (satAdd done (s.reg (VE_CNT 5)))
  let s := (s.segment row px).regions row px
  let s := px.foldl (fun s p => s.health row p) s
  let s := if row % 1024 = 0 then s.onVe fun v => { v with sad := [], taken := [] } else s
  let tracking := s.bit VE_CTRL VE_CTRL_TRACK && decide (row % 1024 < 64)
  let s := if tracking then
      cams.foldl (fun s c => (List.range 4).foldl (fun s i =>
        if s.bit (VE_CAM_TPX c i) VE_CAM_TPX_EN then s.track row px c i else s) s) s
    else s
  let s := if tracking && decide (row % 1024 = 63) then cams.foldl State.measure s else s
  let s := cams.foldl (fun s c => s.noteRead (row + s.camDya c + (if tracking then 9 else 1))) s
  s.onVe fun v => { v with
    nextRow := some (row + 1), rowsStep := v.rowsStep + 1, rowsHealth := v.rowsHealth + 1,
    ring := cams.foldl (fun t c => t.upd [] c fun q => q.filter fun r => decide (row < r.row)) v.ring }

/-- What a stitched row reads in DRAM: the tags and rows of the expected image about its own for every camera,
and its lines in the alignment rings. -/
def State.rowReads (s : State) (row : Int) : List (Nat × Nat) :=
  let ks := ((s.veCams.flatMap fun c => [-1, 0, 1].map fun j => row + s.camDya c + j).eraseDups.filter
    fun k => decide (0 ≤ k)).map Int.toNat
  ((List.range s.widths.length).flatMap fun p => ks.flatMap fun k =>
    [(s.bqTag p k, 8), (s.bqRow p k, bqStride (s.widths.getD p 0))]) ++
  s.veCams.filterMap fun c => (s.ringLine c row).map fun l => (s.ringAddr c row, 2 * l.w * l.ch)

/-- STITCHED_ROW (R260): a row whose reads must wait for DRAM is not processed yet. -/
def execStitchedRow (s : State) : Out :=
  .next <|
    if !s.veOn then s
    else match s.rowReady with
      | some row =>
        match s.dramStalls (2, 0) false .keep (s.rowReads row) with
        | some s => s
        | none =>
          let s := (s.rowReads row).foldl (fun s x => s.blockUnmapped BLK_VE x.1 x.2)
            (s.dramReads (2, 0) .keep (s.rowReads row))
          s.processRow row
      | none => s

/-! ### Enabling (R281, R282) -/

/-- The first check of R281 that fails; 0 if all pass. -/
def State.veChecks (s : State) : Nat :=
  let cams := s.veCams
  let cofs := fun c => (s.reg (VE_CAM_COFS c)).toNat
  let cmax := maxOf (cams.map cofs)
  let dec := s.veDec
  match s.runJob with
  | none => 1
  | some j =>
    let omin := s.ominMin j.hdr.npl
    if (s.slotsIn 5 ++ s.slotsIn 4).isEmpty then 1
    else if !cams.all fun c => s.fld (CT_CFG c) CT_CFG_DIVM1 + 1 == dec &&
        decide (((s.fld (CT_CFG c) CT_CFG_PHASE : Int) - cofs c) % dec = 0) then 2
    else if s.bqDepth = 0 ∨
        s.bqDepth * dec + omin < cmax + 143 * dec + j.hdr.lead + 192 then 3
    else if 131008 + omin < cmax + 143 * dec then 4
    else if !cams.all fun c => decide (s.omaxMax j.hdr.npl + 64 ≤ cofs c) then 5
    else if !webRange.all fun w =>
        !s.inspected w || cams.any fun c => (s.camPixel 0 c w).isSome then 6
    else 0

/-- The fields of VE_CTRL that R282 protects, kept as they are. -/
def State.veCtrlWrite (s : State) (v : BitVec 32) : State :=
  let kept := fldPut VE_CTRL_HLOG (s.fld VE_CTRL VE_CTRL_HLOG)
    (fldPut VE_CTRL_DECLOG (s.fld VE_CTRL VE_CTRL_DECLOG) v)
  if s.veOn && decide (kept ≠ v) then (s.typedWrite VE_CTRL kept).fault 0x0346 0xFF (regAddr VE_CTRL)
  else s.typedWrite VE_CTRL v

/-- The write of VE_CTRL that the next command makes. -/
def State.veEnableWrite (s : State) (v : BitVec 32) : State :=
  if s.veOn then s.veCtrlWrite (fldPut VE_CTRL_EN 1 v)
  else
    let s := s.veCtrlWrite (fldPut VE_CTRL_EN 0 v)
    let r := s.veChecks
    if r ≠ 0 then (s.setFld VE_STAT VE_STAT_REASON r).setEvt BLK_VE 6
    else
      let s := (s.setFld VE_CTRL VE_CTRL_EN 1).setFld VE_STAT VE_STAT_ACTIVE 1
      s.onVe fun v => { v with bqSent := [], ring := [], nextRow := none, rowsStep := 0, rowsHealth := 0, comps := [],
                               regions := [], sat := none, sad := [], taken := [], read := [],
                               matched := false }

/-- VE_ENABLE (R281): a write of VE_CTRL with EN = 1. -/
def execVeEnable (v : BitVec 32) (s : State) : Out :=
  .next (s.whenAwake VE_CTRL fun s => s.veEnableWrite v)

/-- The write of VE_CTRL that the next command makes. -/
def State.veDisableWrite (s : State) (v : BitVec 32) : State :=
  if !s.veOn then s.veCtrlWrite (fldPut VE_CTRL_EN 0 v)
  else
    let s := s.ve.comps.foldl (fun s r => s.closeRegion 1 r flagCont) s
    let s := s.ve.regions.foldl (fun s r => s.closeRegion 2 r flagCont) s
    let s := match s.ve.sat with
      | some r => (s.closeRegion 1 r (flagSat + flagCont)).fault 0x0345
      | none => s
    let held := (s.ve.ring.map fun e => e.2.length).sum
    let s := s.setReg (VE_CNT 6) (satAdd held (s.reg (VE_CNT 6)))
    let s := s.onVe fun v => { v with ring := [], nextRow := none, comps := [], regions := [], sat := none }
    (s.veCtrlWrite (fldPut VE_CTRL_EN 0 v)).setFld VE_STAT VE_STAT_ACTIVE 0

/-- VE_DISABLE (R282): a write of VE_CTRL with EN = 0; open components and regions are emitted with
CONT, and lines accepted for rows not yet processed are counted (R278). -/
def execVeDisable (v : BitVec 32) (s : State) : Out :=
  .next (s.whenAwake VE_CTRL fun s => s.veDisableWrite v)

end Sys2Proof.Machine
end

