-- ==== Sys2Proof/Machine/RegWrite.lean ====
section
/-!
DEFINITION. What the write of a register does in its block (R3 to R5, R9 and the chapters' register tables).
A write is first taken by the access types of the fields; the functions below add each block's effects.
-/

namespace Sys2Proof.Machine

/-- The index of a register in its family, and the second index of a family with two. -/
def RegDef.ix (d : RegDef) (off : Nat) : Nat × Nat :=
  match d.dims with
  | [] => (0, 0)
  | [(a, _)] => ((off - d.base) / a, 0)
  | (a, _) :: (b, _) :: _ => ((off - d.base) / a, (off - d.base) % a / b)

def State.topWrite (s : State) (m : Master) (off : Nat) (v : Word) : State :=
  if off = SEM_REL then s.semRelWrite m v
  else if off = SEM_FORCE then s.semForceWrite v
  else s.typedWrite off v

def State.ckWrite (s : State) (d : RegDef) (off : Nat) (v : Word) : State :=
  if d.base = CK_DOM 0 then s.ckDomWrite (d.ix off).1 v
  else if off = CK_SYSRST then s.sysrstWrite v
  else s.typedWrite off v

def State.siWrite (s : State) (d : RegDef) (off : Nat) (v : Word) : State :=
  if off = SI_SAFE_REL then s.safeRelWrite v
  else if off = SI_ENB then s.enbWrite v
  else if off = SI_WDG then s.wdgWrite v
  else if off = SI_HBEN then s.hbenWrite v
  else if d.base = SI_HB 0 then s.hbWrite (d.ix off).1 v
  else s.typedWrite off v

/-- JOB_BASE holds while its slot is not IDLE, ADMITTED or REJECTED (the table of JOB_BASE). -/
def State.admWrite (s : State) (d : RegDef) (off : Nat) (v : Word) : State :=
  let j := (d.ix off).1
  if d.base = SLOT_CMD 0 then
    match fldGet SLOT_CMD_CMD v with
    | 1 => s.admitCmd j
    | 2 => s.startCmd j
    | 3 => s.releaseCmd j
    | _ => s
  else if d.base = JOB_BASE_LO 0 ∨ d.base = JOB_BASE_HI 0 then
    if [0, 2, 3].contains (s.slotState j) then s.typedWrite off v else s
  else s.typedWrite off v

def State.dsWrite (s : State) (off : Nat) (v : Word) : State :=
  if off = DS_CTRL then (s.typedWrite DS_CTRL v).holdSet (fldGet DS_CTRL_HOLD v == 1)
  else if off = DS_EPOCH_CMD then if fldGet DS_EPOCH_CMD_COMMIT v = 1 then s.commitWrite else s
  else s.typedWrite off v

def State.lcWrite (s : State) (off : Nat) (v : Word) : State :=
  if off = LC_CTRL then s.lcCtrlWrite v
  else if off = LC_SET_HI then s.lcSetWrite v
  else if off = PQ_POP then s.popProduct v
  else s.typedWrite off v

def State.fsWrite (s : State) (d : RegDef) (off : Nat) (v : Word) : State :=
  if off = FS_CTRL then s.fsCtrlWrite v
  else if d.base = FS_HUB 0 then s.fsHubWrite (d.ix off).1 v
  else if off = FS_CUTCLR then s.cutClear v
  else if d.base = GATE_CFG 0 then s.gateCfgWrite (d.ix off).1 v
  else s.typedWrite off v

def State.dlWrite (s : State) (d : RegDef) (off : Nat) (v : Word) : State :=
  if d.base = DL_LANE_CFG 0 then s.laneCfgWrite (d.ix off).1 v
  else if d.base = DL_CFGW 0 then s.cfgwWrite (d.ix off).1 v
  else s.typedWrite off v

/-- A write of CXR_CHECK: GO starts the check, unless one runs (R220). -/
def State.checkGo (s : State) : State := { s with cxr := { s.cxr with checking := true } }

def State.cxrWrite (s : State) (d : RegDef) (off : Nat) (v : Word) : State :=
  let n := Fin.ofNat 12 (d.ix off).1
  if off = CXR_CHECK then if fldGet CXR_CHECK_GO v = 1 then s.checkGo else s
  else if d.base = CAM_CFG 0 then s.camCfgWrite n v
  else if d.base = CAM_GEOM 0 ∨ d.base = CAM_LAT 0 then (s.typedWrite off v).camTouched n
  else if d.base = MBX_CMD 0 then s.mbxCmdWrite n v
  else s.typedWrite off v

/-- A write of ROI_CTRL: while EN is 1 its other fields hold, and EN = 0 ends a frame INCOMPLETE. -/
def State.roiCtrlWrite (s : State) (n r : Nat) (v : Word) : State :=
  let off := ROI_CTRL n r
  if s.bit off ROI_CTRL_EN then
    let old := s.reg off
    let s := if fldPut ROI_CTRL_EN 1 v = old then s else s.fault 0x0305 n (regAddr off)
    if fldGet ROI_CTRL_EN v = 1 then s
    else
      let s := if (s.roiAt n r).active then s.roiEnd n r true false else s
      s.setFld off ROI_CTRL_EN 0
  else s.typedWrite off v

def State.ipWrite (s : State) (d : RegDef) (off : Nat) (v : Word) : State :=
  let (n, r) := d.ix off
  if d.base = CAL_CTRL 0 then s.calCtrlWrite (Fin.ofNat 4 n) v
  else if d.base = IP_PIPE 0 then
    let s := s.typedWrite off v
    if s.unit (144 + n) = 1 then s else s.setUnit (144 + n) (s.pipeUnit n)
  else if d.base = IPC_CFG 0 then
    let was := s.bit off IPC_CFG_PVEN
    let s := s.typedWrite off v
    let s := if was then s else s.onCtx n fun x => { x with pvAt := none }
    if fldGet IPC_CFG_PVEN v = 1 then (s.setReg (PV_WPTR n) 0).setReg (PV_SEQ n) 0 else s
  else if d.base = ROI_CTRL 0 0 then s.roiCtrlWrite n r v
  else if ROI_CTRL 0 0 ≤ d.base ∧ d.base < ROI_STAT 0 0 then
    if s.bit (ROI_CTRL n r) ROI_CTRL_EN then s.fault 0x0305 n (regAddr off) else s.typedWrite off v
  else s.typedWrite off v

/-- The registers that hold while the verification engine runs (R282). -/
def veProtected (base : Nat) : Bool :=
  [VE_BQ_BASE_LO, VE_BQ_BASE_HI, VE_BQ_DEPTH, VE_ABUF_BASE_LO, VE_ABUF_BASE_HI, VE_REC_BASE_LO,
    VE_REC_BASE_HI, VE_REC_SIZE, VE_GEOM, VE_WOFS, VE_CAM_CFG 0, VE_CAM_USE 0, VE_CAM_COFS 0,
    VE_SPAN 0].contains base

/-- A write of VE_CAM_DX or VE_CAM_DY sets the applied and the measured offset (R264). -/
def State.offsetWrite (s : State) (off : Nat) (bound : Int) (v : Word) : State :=
  let x := twos 16 (clampI (-bound) bound (sext 16 v.toNat))
  s.setReg off (BitVec.ofNat 32 (x + x * 65536))

def State.veWrite (s : State) (d : RegDef) (off : Nat) (v : Word) : State :=
  if off = VE_CTRL then if fldGet VE_CTRL_EN v = 1 then s.veEnableWrite v else s.veDisableWrite v
  else if s.veOn && veProtected d.base then s.fault 0x0346 0xFF (regAddr off)
  else if d.base = VE_CAM_DX 0 then s.offsetWrite off 255 v
  else if d.base = VE_CAM_DY 0 then s.offsetWrite off 63 v
  else s.typedWrite off v

def State.mcWrite (s : State) (d : RegDef) (off : Nat) (v : Word) : State :=
  let c := (d.ix off).1
  if off = MC_CFG then s.mcCfgWrite v
  else if off = MC_FREQ_CMD then s.freqCmdWrite v
  else if MC_PORT_CFG0 ≤ off ∧ off < MC_PORT_CFG0 + 32 then s.portCfgWrite ((off - MC_PORT_CFG0) / 4) v
  else if d.base = MC_TRN_CMD 0 then s.trnCmdWrite c v
  else if d.base = MC_MIG_CMD 0 then s.migCmdWrite c v
  else if d.base = MC_SB 0 then s.sbWrite c v
  else if d.base = MC_DELAY 0 0 0 0 then
    let o := off - d.base
    s.delayWrite (o / 0x10000) (o / 0x4000 % 4) (o / 0x1000 % 4) (o % 0x1000 / 4) v
  else s.typedWrite off v

def State.hiWrite (s : State) (d : RegDef) (off : Nat) (v : Word) : State :=
  if d.base = HI_DB 0 then s.doorbellWrite (d.ix off).1 v
  else if off = HI_SWEVT then s.swevtWrite v
  else if d.base = MSIX_CTRL 0 then s.vectorCtrlWrite (d.ix off).1 v
  else s.typedWrite off v

def State.dmaWrite (s : State) (d : RegDef) (off : Nat) (v : Word) : State :=
  let n := (d.ix off).1
  if d.base = CH_HEAD_LO 0 ∨ d.base = CH_HEAD_HI 0 then s.chHeadWrite n off v
  else if d.base = CH_CTRL 0 then s.chCtrlWrite n v
  else if d.base = CHAIN_POKE 0 then s.chPoke n
  else s.typedWrite off v

/-- CV_EXPECT takes the bits that the unit's polynomial uses; CV_STAT's COUNT is part of the context. -/
def State.cvWrite (s : State) (d : RegDef) (off : Nat) (v : Word) : State :=
  let u := (d.ix off).1
  if d.base = CV_CFG 0 ∨ d.base = CV_FRAME 0 then s.cvCfgWrite u off v
  else if d.base = CV_START 0 then s.cvStartWrite u
  else if d.base = CV_END 0 then s.cvEndWrite u
  else if d.base = CV_DATA8 0 then s.cvDataWrite u 1 v
  else if d.base = CV_DATA16 0 then s.cvDataWrite u 2 v
  else if d.base = CV_DATA32 0 then s.cvDataWrite u 4 v
  else if d.base = CV_VALUE 0 then s.cvValueSet u v
  else if CV_CFG 0 ≤ d.base then
    let s := (s.abandonTest (216 + u)).onCv u fun c => { c with wroteAt := s.now }
    if d.base = CV_EXPECT 0 then
      s.setReg off (BitVec.ofNat 32 (v.toNat % 2 ^ (s.cvPolyOf u).width))
    else s.typedWrite off v
  else s.typedWrite off v

def State.mxWrite (s : State) (d : RegDef) (off : Nat) (v : Word) : State :=
  let a := (d.ix off).1
  if d.base = AX_CFG 0 then s.axCfgWrite a v
  else if d.base = AX_CMD 0 then s.axCmdWrite a v
  else if d.base = AX_POS 0 then s.axPosWrite a v
  else if d.base = AX_FLAG 0 then s.axFlagWrite a v
  else s.typedWrite off v

def State.qeWrite (s : State) (d : RegDef) (off : Nat) (v : Word) : State :=
  let q := (d.ix off).1
  if d.base = QE_CFG 0 then s.qeCfgWrite q v
  else if d.base = QE_COUNT 0 then s.qeCountWrite q v
  else if d.base = QE_SOFT_LO 0 ∨ d.base = QE_SOFT_HI 0 then s.softWrite q off v
  else s.typedWrite off v

def State.leWrite (s : State) (d : RegDef) (off : Nat) (v : Word) : State :=
  let l := (d.ix off).1
  if off = LE_CTRL then s.leCtrlWrite v
  else if d.base = LP_CFG 0 then s.lpCfgWrite l v
  else if off = LE_TRIG then s.leTrigWrite v
  else if d.base = TR_CFG 0 then s.trCfgWrite l v
  else s.typedWrite off v

/-- A write of TP_CFG: a rise of EN arms the output afresh (R390). -/
def State.tpCfgWrite (s : State) (n : Nat) (v : Word) : State :=
  let was := s.bit (TP_CFG n) TP_CFG_EN
  let s := s.typedWrite (TP_CFG n) v
  if !was && s.bit (TP_CFG n) TP_CFG_EN then s.tpArm n else s

def State.tbWrite (s : State) (d : RegDef) (off : Nat) (v : Word) : State :=
  if off = TB_INC_NS then s.tbIncWrite v
  else if off = TB_SET_SHI then s.tbSetWrite v
  else if off = TB_ADJ_HI then s.tbAdjWrite v
  else if off = TB_XS_CMD then s.tbXsWrite v
  else if d.base = TB_CMP_CTL 0 then s.cmpCtlWrite (d.ix off).1 v
  else if d.base = TP_CFG 0 then s.tpCfgWrite (d.ix off).1 v
  else s.typedWrite off v

/-- Fields of EN_CFG other than EN hold while EN is 1. -/
def State.enWrite (s : State) (d : RegDef) (off : Nat) (v : Word) : State :=
  if d.base = EN_CFG 0 ∧ s.bit off EN_CFG_EN then
    s.typedWrite off (fldPut EN_CFG_EN (fldGet EN_CFG_EN v) (s.reg off))
  else s.typedWrite off v

def State.bootWrite (s : State) (m : Master) (off : Nat) (v : Word) : State :=
  if off = BOOT_VCMD then s.vcmdWrite v
  else if off = BOOT_SVN_ADV then if m = .si then s.svnAdvWrite v else s
  else s.typedWrite off v

/-- The write of a register by the block that holds it. -/
def State.blockWrite (s : State) (m : Master) (d : RegDef) (off : Nat) (v : Word) : State :=
  let b := off / 0x100000
  if hasEvents b && off == evtEnReg b then (s.typedWrite off v).routeNew s b
  else if hasEvents b && off == evtReg b then s.evtWrite b v
  else if b = BLK_TOP then s.topWrite m off v
  else if b = BLK_CK then s.ckWrite d off v
  else if b = BLK_SI then s.siWrite d off v
  else if b = BLK_ADM then s.admWrite d off v
  else if b = BLK_DS then s.dsWrite off v
  else if b = BLK_LC then s.lcWrite off v
  else if b = BLK_FS then s.fsWrite d off v
  else if b = BLK_DL then s.dlWrite d off v
  else if b = BLK_CXR then s.cxrWrite d off v
  else if b = BLK_IP then s.ipWrite d off v
  else if b = BLK_VE then s.veWrite d off v
  else if b = BLK_MC then s.mcWrite d off v
  else if b = BLK_HI then s.hiWrite d off v
  else if b = BLK_DMA then s.dmaWrite d off v
  else if b = BLK_CV then s.cvWrite d off v
  else if b = BLK_MX then s.mxWrite d off v
  else if b = BLK_QE then s.qeWrite d off v
  else if b = BLK_LE then s.leWrite d off v
  else if b = BLK_TB then s.tbWrite d off v
  else if b = BLK_EN then s.enWrite d off v
  else if b = BLK_ST then if off = ST_CMD then s.stCmdWrite v else s.typedWrite off v
  else if b = BLK_BOOT then s.bootWrite m off v
  else s.typedWrite off v

/-- A permitted write of the word at a BAR0 offset: an offset without a register is ignored (R5), and so
is a register of a block whose fast domain sleeps, which is logged (R9). -/
def State.writeReg (s : State) (m : Master) (off : Nat) (v : Word) : State :=
  match regDef? off with
  | none => s
  | some d => s.whenAwake off fun s => s.blockWrite m d off v

/-- REGISTER_WRITE (R3 to R5, R465): off is taken to its word. -/
def execRegisterWrite (m : Master) (off : BitVec 26) (v : BitVec 32) (s : State) : Out :=
  let o := off.toNat / 4 * 4
  .next (s.regGuard m o true fun s => s.writeReg m o v)

end Sys2Proof.Machine
end

