-- ==== Sys2Proof/Machine/RegRead.lean ====
section
/-!
DEFINITION. What the read of a register returns and does: values that follow the state, and reads that latch
a set of registers (R3, R9, R150, R375, R385, R392).
-/

namespace Sys2Proof.Machine

/-- LC_POS_F: the fraction of P; the line part is latched beside it. -/
def State.readPos (s : State) : State :=
  let p := s.lc.pos.toNat
  (s.setReg LC_POS_F (BitVec.ofNat 32 p)).setReg64 LC_POS_LO LC_POS_HI (p / 2 ^ 32)

/-- LC_HWM_LO: H, whose high word is latched. -/
def State.readHwm (s : State) : State := s.setReg64 LC_HWM_LO LC_HWM_HI s.lc.hwm.toNat

/-- LP_Q_F: the fraction of Q(l); the line part is latched beside it. -/
def State.readQ (s : State) (l : Nat) : State :=
  let q := (s.loopAt l).q.toNat
  (s.setReg (LP_Q_F l) (BitVec.ofNat 32 q)).setReg64 (LP_Q_LO l) (LP_Q_HI l) (q / 2 ^ 32)

/-- The registers that a read brings up to date. -/
def State.refresh (s : State) (d : RegDef) (off : Nat) : State :=
  let (i, j) := d.ix off
  if off = TOP_STAT then s.setReg off s.topStat
  else if off = EVT_PEND_BLK then s.setReg off s.pendBlocks
  else if off = SEM_HELD0 then s.setReg off (s.semHeld 0)
  else if off = SEM_HELD1 then s.setReg off (s.semHeld 1)
  else if off = LC_POS_F then s.readPos
  else if off = LC_HWM_LO then s.readHwm
  else if off = LC_STAT then
    (s.setFld off LC_STAT_STILL (b2n s.lcStill)).setFld off LC_STAT_VALID (b2n s.lcValid)
  else if off = TB_NOW_FRAC then s.latchNow false
  else if off = TB_FLAT_LO then s.latchNow true
  else if off = TB_XS_STAT then s.latchXs
  else if d.base = LP_Q_F 0 then s.readQ i
  else if d.base = CV_VALUE 0 ∨ d.base = CV_RESULT 0 then s.cvDrain i
  else if d.base = MC_RK_STAT 0 0 then s.setFld off MC_RK_STAT_CE (s.ceCount i j)
  else if d.base = MC_MIG_STAT 0 then
    match (s.chanAt i).mig with
    | some g => s.setFld off MC_MIG_STAT_PCT (s.migPct g)
    | none => s
  else s

/-- The word that a register shows: an axis that the line clock feeds shows STATE 6 (R361), and the values of
a check-value unit show the bits of its polynomial. -/
def State.shown (s : State) (d : RegDef) (off : Nat) : Word :=
  let v := s.reg off
  let i := (d.ix off).1
  if d.base = AX_STAT 0 && s.lcFeeds i then fldPut AX_STAT_STATE 6 v
  else if d.base = CV_VALUE 0 ∨ d.base = CV_RESULT 0 ∨ d.base = CV_EXPECT 0 then
    BitVec.ofNat 32 (v.toNat % 2 ^ (s.cvPolyOf i).width)
  else v

/-- The word that a permitted read returns, and the state after it. -/
def State.readReg (s : State) (m : Master) (off : Nat) : Word × State :=
  match regDef? off with
  | none => (0, s)
  | some d =>
    if !s.awake (off / 0x100000) then (0, s.asleep off)
    else if d.base = SEM 0 then s.semReadBy m (d.ix off).1
    else
      let s := s.refresh d off
      (s.shown d off, s)

/-- A read command of a latching register. -/
def State.readBy (s : State) (m : Master) (off : Nat) : State :=
  s.readBack m off fun s => s.readReg m off

/-- NOW_READ (R385). -/
def execNowRead (m : Master) (flat : Bool) (s : State) : Out :=
  .next (s.readBy m (if flat then TB_FLAT_LO else TB_NOW_FRAC))

/-- XS_STAT_READ (R392). -/
def execXsStatRead (m : Master) (s : State) : Out := .next (s.readBy m TB_XS_STAT)

/-- POS_READ (LC_POS_F). -/
def execPosRead (m : Master) (s : State) : Out := .next (s.readBy m LC_POS_F)

/-- HWM_READ (LC_HWM_LO). -/
def execHwmRead (m : Master) (s : State) : Out := .next (s.readBy m LC_HWM_LO)

/-- Q_READ (LP_Q_F). -/
def execQRead (m : Master) (l : Fin 32) (s : State) : Out := .next (s.readBy m (LP_Q_F l))

end Sys2Proof.Machine
end

