-- ==== Sys2Proof/Machine/Bus.lean ====
section
/-!
DEFINITION. Memory as bus masters reach it: accesses of any length over device memory, the words of the loop
engine's states (R375), the Sagger's memory (R404), and registers as memory words.
-/

namespace Sys2Proof.Machine

/-! ### Words of an access -/

/-- The aligned words that `n` bytes from an address touch. -/
def wordsAt (a n : Nat) : List Nat :=
  if n = 0 then [] else (List.range ((a + n - 1) / 4 - a / 4 + 1)).map fun i => a / 4 * 4 + 4 * i

/-- The word at `w` with the bytes that an access places in it. -/
def mergeWord (cur : Word) (w a : Nat) (bs : List Byte) : Word :=
  BitVec.ofNat 32 (leNat ((leBytes 4 cur.toNat).zipIdx.map fun (b, i) =>
    if a ≤ w + i then bs.getD (w + i - a) b else b))

/-! ### States of loop sections (R375) -/

def inSections (a : Nat) : Bool := decide (LOOP_SECTION 0 ≤ a) && decide (a < LOOP_SECTION 256)

/-- The word at an address, as memory holds it. -/
def State.wordAt (s : State) (w : Nat) : Word := BitVec.ofNat 32 (leNat (s.viewBytes w 4))

/-- A word of a section read: the low word of a state latches the high word. -/
def State.sectionLoad (s : State) (w : Nat) : Word × State :=
  let o := w % 64
  let key := 2 * ((w - LOOP_SECTION 0) / 64) + (o - 24) / 8
  if o = 24 ∨ o = 32 then
    (s.wordAt w, s.onLe fun e => { e with latched := e.latched.set none key (some (s.wordAt (w + 4))) })
  else if o = 28 ∨ o = 36 then ((s.le.latched.get none key).getD (s.wordAt w), s)
  else (s.wordAt w, s)

/-- A word of a section written: the low word of a state is held, and both are stored with the high
word. -/
def State.sectionSave (s : State) (w a : Nat) (bs : List Byte) : State :=
  let o := w % 64
  let n := (w - LOOP_SECTION 0) / 64
  let i := (o - 24) / 8
  if o = 24 ∨ o = 32 then
    let cur := (s.le.held.get none (2 * n + i)).getD (s.wordAt w)
    s.onLe fun e => { e with held := e.held.set none (2 * n + i) (some (mergeWord cur w a bs)) }
  else if o = 28 ∨ o = 36 then s.stateHighWrite n i (mergeWord (s.wordAt w) w a bs)
  else s.putBytes w (leBytes 4 (mergeWord (s.wordAt w) w a bs).toNat)

/-! ### Device memory -/

/-- A read of device memory within a line. -/
def State.devLoad (s : State) (a n : Nat) : List Byte × State :=
  if inSections a then
    let (bs, s) := (wordsAt a n).foldl (fun (acc : List Byte × State) w =>
      let (v, s) := acc.2.sectionLoad w
      (acc.1 ++ leBytes 4 v.toNat, s)) ([], s)
    ((bs.drop (a % 4)).take n, s)
  else (s.viewBytes a n, s)

/-- A write of device memory within a line. The top of the Sagger's memory is written by its voter
alone (R404). -/
def State.devSave (s : State) (a : Nat) (bs : List Byte) : State :=
  if inSections a then (wordsAt a bs.length).foldl (fun (s : State) w => s.sectionSave w a bs) s
  else if SG_MEM + 0xF0000 ≤ a ∧ a < SG_MEM + 0x100000 then s
  else s.putBytes a bs

/-! ### Registers as words (R3, R5) -/

/-- A read of register space within a line: every word touched is read whole. -/
def State.regsLoad (s : State) (m : Master) (a n : Nat) : List Byte × State :=
  let (bs, s) := (wordsAt a n).foldl (fun (acc : List Byte × State) w =>
    let (v, s) := (acc.2.busGrant m).readReg m (w - 0x180000000000)
    (acc.1 ++ leBytes 4 v.toNat, s)) ([], s)
  ((bs.drop (a % 4)).take n, s)

/-- A write of register space within a line: a word that the access covers only in part is ignored. -/
def State.regsSave (s : State) (m : Master) (a : Nat) (bs : List Byte) : State :=
  (wordsAt a bs.length).foldl (fun (s : State) w =>
    if a ≤ w ∧ w + 4 ≤ a + bs.length then
      (s.busGrant m).writeReg m (w - 0x180000000000) (mergeWord 0 w a bs)
    else s) s

/-! ### Whole accesses -/

/-- One piece of a permitted read, within a line. -/
def State.pieceLoad (s : State) (m : Master) (a n : Nat) (hint : PageHint := .none) : List Byte × State :=
  match s.region a with
  | .unmapped => (List.replicate n 0, s)
  | .regs => s.regsLoad m a n
  | _ => (s.dramUse (masterPort m) hint a n false).devLoad a n

/-- One piece of a permitted write, within a line. -/
def State.pieceSave (s : State) (m : Master) (a : Nat) (bs : List Byte) (hint : PageHint := .none) : State :=
  match s.region a with
  | .unmapped => s
  | .regs => s.regsSave m a bs
  | _ => (s.dramUse (writePort m) hint a bs.length true).devSave a bs

/-- A permitted read of any length. -/
def State.busLoad (s : State) (m : Master) (a n : Nat) : List Byte × State :=
  let (bs, s') := (pieces a n).foldl (fun (acc : List Byte × State) p =>
    let (bs, s) := acc.2.pieceLoad m p.1 p.2
    (acc.1 ++ bs, s)) ([], s)
  (bs, s'.logUnmapped m a n)

/-- A permitted write of any length. -/
def State.busSave (s : State) (m : Master) (a : Nat) (bs : List Byte) : State :=
  let s' := (pieces a bs.length).foldl (fun (s : State) p =>
    s.pieceSave m p.1 ((bs.drop (p.1 - a)).take p.2)) s
  s'.logUnmapped m a bs.length

end Sys2Proof.Machine
end

