-- ==== Sys2Proof/Machine/Flags.lean ====
section
/-!
DEFINITION. Conditions and results of the base instructions (R29, R30, R33). The cores keep no flags:
a comparison writes 0 or 1, or decides a branch.
-/

namespace Sys2Proof.Machine

def boolWord (b : Bool) : Word := if b then 1 else 0

/-- Signed and unsigned comparison. -/
def lessS (a b : Word) : Bool := a.slt b
def lessU (a b : Word) : Bool := a.ult b

def minS (a b : Word) : Word := if lessS a b then a else b
def maxS (a b : Word) : Word := if lessS a b then b else a
def minU (a b : Word) : Word := if lessU a b then a else b
def maxU (a b : Word) : Word := if lessU a b then b else a

/-- Leading zeros of a word: the count over its bits from the top. -/
def leadZeros (a : Word) : Nat := ((List.range 32).takeWhile fun i => !a.getLsbD (31 - i)).length

/-- Trailing zeros of a word. -/
def trailZeros (a : Word) : Nat := ((List.range 32).takeWhile fun i => !a.getLsbD i).length

/-- Ones in a word. -/
def onesIn (a : Word) : Nat := ((List.range 32).filter a.getLsbD).length

/-- The high word of the signed and of the unsigned product. -/
def mulHighS (a b : Word) : Word := BitVec.ofInt 32 (a.toInt * b.toInt / 2 ^ 32)
def mulHighU (a b : Word) : Word := BitVec.ofNat 32 (a.toNat * b.toNat / 2 ^ 32)

/-- Division with the limits of R30; quotients are truncated toward zero. -/
def divS (a b : Word) : Word :=
  if b = 0 then 0xFFFFFFFF
  else if a = 0x80000000 ∧ b = 0xFFFFFFFF then 0x80000000
  else BitVec.ofInt 32 (a.toInt.tdiv b.toInt)
def divU (a b : Word) : Word := if b = 0 then 0xFFFFFFFF else BitVec.ofNat 32 (a.toNat / b.toNat)
def remS (a b : Word) : Word :=
  if b = 0 then a
  else if a = 0x80000000 ∧ b = 0xFFFFFFFF then 0
  else BitVec.ofInt 32 (a.toInt.tmod b.toInt)
def remU (a b : Word) : Word := if b = 0 then a else BitVec.ofNat 32 (a.toNat % b.toNat)

end Sys2Proof.Machine
end

