-- ==== Sys2Proof/Machine/Operands.lean ====
section
/-!
DEFINITION. Operand forms of the instruction formats (R31 to R34, R47, R49): immediates, offsets and the
words that an exception reports.
-/

namespace Sys2Proof.Machine

/-- sext(imm16) and zext(imm16). -/
def immS (imm : BitVec 16) : Word := imm.signExtend 32
def immZ (imm : BitVec 16) : Word := imm.setWidth 32

/-- Bytes that a branch offset of 16 or 26 bits stands for: sext(off) × 4. -/
def off16 (off : BitVec 16) : Word := off.signExtend 32 <<< 2
def off26 (off : BitVec 26) : Word := off.signExtend 32 <<< 2

/-- A loaded value of `n` bytes, sign-extended or zero-extended to a word. -/
def loadWord (n : Nat) (signed : Bool) (bs : List Byte) : Word :=
  let x := leNat (bs.take n)
  if signed then BitVec.ofInt 32 (sext (8 * n) x) else BitVec.ofNat 32 x

/-- The word of a system register access: majors 0x30 to 0x33. -/
def srWord (major : Nat) (rd ra : BitVec 5) (sr : BitVec 8) : Word :=
  BitVec.ofNat 32 (major * 2 ^ 26 + rd.toNat * 2 ^ 21 + ra.toNat * 2 ^ 16 + sr.toNat)

/-- The word of a SYS function, major 0x34. -/
def sysWord (ra : BitVec 5) (func : Nat) : Word :=
  BitVec.ofNat 32 (0x34 * 2 ^ 26 + ra.toNat * 2 ^ 16 + func)

end Sys2Proof.Machine
end

