-- ==== Sys2Proof/Machine/Cores.lean ====
section
/-!
DEFINITION. The control cores and the Sagger: registers and system registers (R47, R48), windows (R42),
traps (R52 to R55), and how an instruction runs on a core of any kind.
-/

namespace Sys2Proof.Machine

/-! ### Core state -/

def State.isAt (s : State) : IsCore → IsSt
  | .cc k => s.ccAt k
  | .sg => s.sg

def State.onIs (s : State) (c : IsCore) (f : IsSt → IsSt) : State :=
  match c with
  | .cc k => s.onCc k f
  | .sg => { s with sg := f s.sg }

/-- A core as a requester of port 4: its number modulo 4 is its index there (R18); the Sagger comes as SI
does. -/
def isIx : IsCore → Nat
  | .cc k => k
  | .sg => 4

/-- A core's fetches as a requester beside its data accesses. -/
def fetchIx (c : IsCore) : Nat := 8 + isIx c

/-! ### System registers (R48) -/

def srStatus : Nat := 1
def srEpc : Nat := 2
def srEcause : Nat := 3
def srEaddr : Nat := 4
def srVbase : Nat := 5
def srPtr : Nat := 14
def srLat3 : Nat := 15

/-- Reset value of a stored system register. -/
def srReset (c : IsCore) (n : Nat) : Word :=
  match c, n with
  | .cc k, 0 => BitVec.ofNat 32 (0x100 + k.val)
  | .sg, 0 => 0x200
  | _, 1 => 0x00000004
  | .cc k, 5 => BitVec.ofNat 32 (0x07C00000 + k.val * 0x100000)
  | .sg, 5 => 0x0A600000
  | _, 32 => 0x10000
  | _, 33 => 0x18000
  | _, n => if 34 ≤ n ∧ n ≤ 47 then BitVec.ofNat 32 (n - 34) else 0

/-- The bits of a system register that a write reaches. -/
def srMask (n : Nat) : Word :=
  if n = 1 then 0xB
  else if n = 5 then 0xFFFFFE00
  else if [2, 3, 4, 6, 7, 10, 11, 12, 13, 20, 21, 22, 23].contains n then 0xFFFFFFFF
  else if 32 ≤ n ∧ n ≤ 47 then 0xFFFFF
  else 0

/-- A stored system register. -/
def State.sr (s : State) (c : IsCore) (n : Nat) : Word := (s.isAt c).sr.get (srReset c n) n

def State.putSr (s : State) (c : IsCore) (n : Nat) (v : Word) : State :=
  s.onIs c fun x => { x with sr := x.sr.set (srReset c n) n v }

/-- A write by the masks of the register (R48). -/
def State.writeSr (s : State) (c : IsCore) (n : Nat) (v : Word) : State :=
  if srMask n = 0 then s else s.putSr c n ((s.sr c n &&& ~~~(srMask n)) ||| (v &&& srMask n))

/-- STATUS fields. -/
def State.coreIe (s : State) (c : IsCore) : Bool := (s.sr c srStatus).getLsbD 0
def State.corePriv (s : State) (c : IsCore) : Bool := (s.sr c srStatus).getLsbD 2

/-- The levels of a core's interrupt inputs (R23). -/
def State.irqLevel (s : State) (c : IsCore) (i : Nat) : Bool :=
  match c with
  | .cc k => s.ccInput k i
  | .sg => (Config.sgInputs s.now).getLsbD i

/-- An input is enabled in IRQ_EN. -/
def State.irqEnabled (s : State) (c : IsCore) (i : Nat) : Bool :=
  (s.sr c (6 + i / 32)).getLsbD (i % 32)

def State.irqReady (s : State) (c : IsCore) (i : Nat) : Bool := s.irqEnabled c i && s.irqLevel c i

/-- 32 inputs as IRQ_PEND shows them. -/
def State.irqWord (s : State) (c : IsCore) (from_ : Nat) : Word :=
  BitVec.ofNat 32 (((List.range 32).map fun i => b2n (s.irqLevel c (from_ + i)) * 2 ^ i).sum)

/-- What a read of a system register returns and latches (R48): a low count latches its high word. -/
def State.readSr (s : State) (c : IsCore) (n : Nat) : Word × State :=
  let x := s.isAt c
  match n with
  | 8 => (s.irqWord c 0, s)
  | 9 => (s.irqWord c 32, s)
  | 16 => (x.cycle.setWidth 32, s.onIs c fun y => { y with cycleHi := (x.cycle >>> 32).setWidth 32 })
  | 17 => (x.cycleHi, s)
  | 18 => (x.instret.setWidth 32, s.onIs c fun y => { y with instretHi := (x.instret >>> 32).setWidth 32 })
  | 19 => (x.instretHi, s)
  | n => (s.sr c n, s)

/-! ### Addresses (R42, R43) -/

/-- The master that a core's accesses come from: its privilege tells S and U mode apart. -/
def State.coreMaster (s : State) : IsCore → Master
  | .cc k => .cc k (!s.corePriv (.cc k))
  | .sg => .si

/-- The physical address of an effective address (R42). -/
def State.physical (s : State) (c : IsCore) (ea : Word) : Nat :=
  (s.sr c (32 + ea.toNat / 2 ^ 28)).toNat * 2 ^ 28 + ea.toNat % 2 ^ 28

/-! ### Traps (R52, R53) -/

/-- The entry into a trap: EPC, ECAUSE and EADDR are set, STATUS keeps the mode before it, and the core
continues in S mode at VBASE + 4 × ECAUSE. -/
def State.trap (s : State) (c : IsCore) (cause : Nat) (epc eaddr : Word) : State :=
  let st := s.sr c srStatus
  let v : Word := BitVec.ofNat 32 (2 * b2n (st.getLsbD 0) + 4 + 8 * b2n (st.getLsbD 2))
  let s := ((s.putSr c srEpc epc).putSr c srEcause (BitVec.ofNat 32 cause)).putSr c srEaddr eaddr
  let s := s.putSr c srStatus v
  s.onIs c fun x => { x with pc := s.sr c srVbase + BitVec.ofNat 32 (4 * cause) }

/-- An exception of the current instruction, which has no effect. -/
def State.except (s : State) (c : IsCore) (cause : Nat) (eaddr : Word) : State :=
  s.trap c cause (s.isAt c).pc eaddr

/-- The return from a trap (R49): PC := EPC, IE := PIE, PRIV := PPRIV. -/
def State.trapReturn (s : State) (c : IsCore) : State :=
  let st := s.sr c srStatus
  let v : Word := (st &&& 0xA) ||| BitVec.ofNat 32 (b2n (st.getLsbD 1) + 4 * b2n (st.getLsbD 3))
  let s := s.putSr c srStatus v
  s.onIs c fun x => { x with pc := s.sr c srEpc &&& 0xFFFFFFFC }

/-! ### Fetch (R43, R44, R53) -/

/-- The core's instruction cache holds the line of an address. -/
def State.inIcache (s : State) (c : IsCore) (a : Nat) : Bool :=
  decide (c ≠ .sg) && s.cached a && (s.isAt c).icache.contains (lineOf a)

/-- The fetch of one word: the exception that it meets, or none; a word of cached memory stays in the
core's instruction cache. An unmapped word reads zero (R13): as an instruction it is illegal, as the second
word of one (`ea` is not `pc`) it is imm32. DESIGN CHOICE: a fetch from registers takes cause 6 before PROT is
asked, and logs no denied access; a word that the instruction cache holds is not read from memory, and
raises no cause 10. A fetch that must wait for DRAM leaves the core at the instruction, as does a load or a
store. -/
def State.fetchWord (s : State) (c : IsCore) (pc ea : Word) : Option State × State :=
  let a := s.physical c ea
  let m := s.coreMaster c
  if s.region a = .regs then (some (s.except c 6 pc), s)
  else if !s.permits m a false then (some ((s.denied m a).except c 6 pc), s)
  else if s.region a = .unmapped then
    if ea = pc then (some ((s.unmapped m a).except c 0 0), s) else (none, s.unmapped m a)
  else if s.inIcache c a then (none, s)
  else
  match s.dramStall 4 (fetchIx c) a 4 false with
  | some t => (some t, s)
  | none =>
  let s := s.dramUse (4, fetchIx c) .none a 4 false
  if s.poisoned a 4 then (some ((s.reportLines a 4).except c 10 ea), s)
  else if c ≠ .sg ∧ s.cached a then
    (none, s.onIs c fun x => { x with icache := x.icache ++ [lineOf a] })
  else (none, s)

/-- The fetch of an instruction of one or two words. -/
def State.fetch (s : State) (c : IsCore) (words : Nat) : Option State × State :=
  let pc := (s.isAt c).pc
  match s.fetchWord c pc pc with
  | (some t, s) => (some t, s)
  | (none, s) => if words = 2 then s.fetchWord c pc (pc + 4) else (none, s)

/-! ### Running an instruction -/

/-- A core issues instructions: it is out of reset and not waiting. -/
def State.issues (s : State) (c : IsCore) : Bool := (s.isAt c).running && !(s.isAt c).wfi

/-- An instruction of a control core or the Sagger: its fetch, then what it does. -/
def State.isRun (s : State) (c : IsCore) (words : Nat) (act : State → State) : State :=
  if !s.issues c then s
  else
    match s.fetch c words with
    | (some t, _) => t
    | (none, s) => act s

/-- The instruction is complete, and the core continues at an address. -/
def State.retireTo (s : State) (c : IsCore) (pc : Word) : State :=
  s.onIs c fun x => { x with pc := pc, instret := x.instret + 1 }

/-- The instruction is complete, and the core continues after it. -/
def State.retire (s : State) (c : IsCore) (words : Nat) : State :=
  s.retireTo c ((s.isAt c).pc + BitVec.ofNat 32 (4 * words))

/-- A general register of a control core or the Sagger; g0 reads zero and discards writes (R26). -/
def State.isG (s : State) (c : IsCore) (r : Nat) : Word := (s.isAt c).g.get 0 r
def State.setIsG (s : State) (c : IsCore) (r : Nat) (v : Word) : State :=
  if r = 0 then s else s.onIs c fun x => { x with g := x.g.set 0 r v }

/-! ### Cores of any kind -/

/-- The core of the system profile that a core is, if it is one. -/
def Core.is? : Core → Option IsCore
  | .xc _ => none
  | .cc k => some (.cc k)
  | .sg => some .sg

/-- The program counter and a general register of a core. -/
def State.corePc (s : State) : Core → Word
  | .xc x => (s.xcAt x).pc
  | .cc k => (s.ccAt k).pc
  | .sg => s.sg.pc

def State.coreG (s : State) : Core → BitVec 5 → Word
  | .xc x, r => s.xg x r.toNat
  | .cc k, r => s.isG (.cc k) r.toNat
  | .sg, r => s.isG .sg r.toNat

def State.setCoreG (s : State) : Core → BitVec 5 → Word → State
  | .xc x, r, v => s.setXg x r.toNat v
  | .cc k, r, v => s.setIsG (.cc k) r.toNat v
  | .sg, r, v => s.setIsG .sg r.toNat v

/-- An instruction of the base profile that continues after itself: its words, its cost on an expansion
core (R35), and its effect. -/
def State.coreDo (s : State) (c : Core) (words cost : Nat) (act : State → State) : State :=
  match c with
  | .xc x => s.xcStep x words cost none act id
  | .cc k => s.isRun (.cc k) words fun s => (act s).retire (.cc k) words
  | .sg => s.isRun .sg words fun s => (act s).retire .sg words

/-- An instruction of the base profile that continues at an address. -/
def State.coreJump (s : State) (c : Core) (words cost : Nat) (target : Word) (act : State → State) :
    State :=
  match c with
  | .xc x => s.xcStep x words cost (some target) act id
  | .cc k => s.isRun (.cc k) words fun s => (act s).retireTo (.cc k) target
  | .sg => s.isRun .sg words fun s => (act s).retireTo .sg target

/-- imm32 of a two-word instruction at the program counter: zero where its second word is unmapped (R13,
R34). -/
def State.wideImm (s : State) (c : Core) (imm : BitVec 32) : Word :=
  match Core.is? c with
  | some k => if s.region (s.physical k ((s.isAt k).pc + 4)) = .unmapped then 0 else imm
  | none => imm

/-- A word that the core does not decode as an instruction (R28, R39, R53). -/
def State.coreIllegal (s : State) (c : Core) (word : Word) : State :=
  match c with
  | .xc x => if s.xcLive x then s.xcIllegal x else s
  | .cc k => s.isRun (.cc k) 1 fun s => s.except (.cc k) 0 word
  | .sg => s.isRun .sg 1 fun s => s.except .sg 0 word

end Sys2Proof.Machine
end

