-- ==== Sys2Proof/Machine/CoreMem.lean ====
section
/-!
DEFINITION. Loads and stores of the cores (R32, R36, R37, R42 to R46, R53, R404).
-/

namespace Sys2Proof.Machine

/-- The address that the Sagger reaches: the addresses of the first copy lead each core to its own copy;
the copies of the cores that are not out agree, and the lowest such core answers (R404). -/
def State.sagAddr (s : State) (a : Nat) : Nat :=
  if SG_MEM ≤ a ∧ a < SG_MEM + 0x50000 then
    a + 0x50000 * (((List.range 3).find? fun i => s.unit (256 + i) == 0).getD 0)
  else a

/-- A load of a control core or the Sagger: the exception that it raises, or its bytes. DESIGN CHOICE: a
misaligned access takes its exception before PROT is asked, and logs no denied access; so does a store. -/
def State.isLoad (s : State) (c : IsCore) (ea : Word) (n : Nat) : Option State × List Byte × State :=
  let a := s.physical c ea
  let m := s.coreMaster c
  if ea.toNat % n ≠ 0 then (some (s.except c 2 ea), [], s)
  else if !s.permits m a false then (some ((s.denied m a).except c 4 ea), [], s)
  else
    match s.region a with
    | .regs =>
      if c = .sg ∧ !s.corePriv c then (some (s.except c 4 ea), [], s)
      else
        let (bs, s) := s.regsLoad m a n
        (none, bs, s)
    | .unmapped => (none, List.replicate n 0, s.unmapped m a)
    | _ =>
      if c ≠ .sg ∧ s.cached a ∧ (s.dcLine a).isSome then
        let (bs, s) := s.dcLoad (isIx c) a n
        (none, bs, s)
      else
      -- A cached load fills its line.
      let fills := decide (c ≠ .sg) && s.cached a
      let b := if fills then lineOf a else a
      let k := if fills then 64 else n
      match s.dramStall 4 (isIx c) b k false with
      | some t => (some t, [], s)
      | none =>
      if s.poisoned a n then (some ((s.reportLines a n).except c 10 ea), [], s)
      else if c ≠ .sg ∧ s.cached a then
        let (bs, s) := s.dcLoad (isIx c) a n
        (none, bs, s)
      else
        let s := s.dramUse (4, isIx c) .none a n false
        let (bs, s) := s.devLoad (if c = .sg then s.sagAddr a else a) n
        (none, bs, s)

/-- A store of a control core or the Sagger: the exception that it raises, or its effect. A store that
finds its line poisoned is merged into memory (R309). -/
def State.isStore (s : State) (c : IsCore) (ea : Word) (bs : List Byte) : Option State × State :=
  let a := s.physical c ea
  let m := s.coreMaster c
  if ea.toNat % bs.length ≠ 0 then (some (s.except c 3 ea), s)
  else if !s.permits m a true then (some ((s.denied m a).except c 5 ea), s)
  else
    match s.region a with
    | .regs => (none, s.regsSave m a bs)
    | .unmapped => (none, s.unmapped m a)
    | _ =>
      if c ≠ .sg ∧ s.cached a then
        let m := (s.dcLine a).isNone
        match (if !m then none
          else if s.poisoned a bs.length then s.dramStall 4 (isIx c) a bs.length true
          else s.dramStall 4 (isIx c) (lineOf a) 64 false) with
        | some t => (some t, s)
        | none =>
          if m ∧ s.poisoned a bs.length then
            (none, (s.dramUse (4, isIx c) .none a bs.length true).devSave a bs)
          else (none, s.dcSave (isIx c) a bs)
      else if c = .sg ∧ SG_MEM ≤ a ∧ a < SG_MEM + 0x50000 then
        (none, ((s.devSave a bs).devSave (a + 0x50000) bs).devSave (a + 0xA0000) bs)
      else
        match s.dramStall 4 (isIx c) a bs.length true with
        | some t => (some t, s)
        | none => (none, (s.dramUse (4, isIx c) .none a bs.length true).devSave a bs)

/-- A load instruction: EA := g[ra] + sext(imm16). On an expansion core the address is rounded down to the
width (R37). -/
def State.coreLoad (s : State) (c : Core) (rd ra : BitVec 5) (imm : BitVec 16) (n : Nat) (signed : Bool) :
    State :=
  let is := fun (c : IsCore) => s.isRun c 1 fun s =>
    match s.isLoad c (s.isG c ra.toNat + immS imm) n with
    | (some t, _, _) => t
    | (none, bs, s) => (s.setIsG c rd.toNat (loadWord n signed bs)).retire c 1
  match c with
  | .xc x => s.xcStep x 1 1 none (fun s =>
      let (d, s) := s.draw
      s.setXg x rd.toNat (loadWord n signed
        (s.localBytes d x ((s.xg x ra.toNat + immS imm).toNat / n * n) n))) id
  | .cc k => is (.cc k)
  | .sg => is .sg

/-- A store instruction. -/
def State.coreStore (s : State) (c : Core) (rs ra : BitVec 5) (imm : BitVec 16) (n : Nat) : State :=
  let is := fun (c : IsCore) => s.isRun c 1 fun s =>
    match s.isStore c (s.isG c ra.toNat + immS imm) (leBytes n (s.isG c rs.toNat).toNat) with
    | (some t, _) => t
    | (none, s) => s.retire c 1
  match c with
  | .xc x => s.xcStep x 1 1 none (fun s =>
      s.localStore x ((s.xg x ra.toNat + immS imm).toNat / n * n) (leBytes n (s.xg x rs.toNat).toNat)) id
  | .cc k => is (.cc k)
  | .sg => is .sg

end Sys2Proof.Machine
end

