-- ==== Sys2Proof/Machine/Base.lean ====
section
/-!
DEFINITION. The base instructions, group IB (R29 to R34), on every core.
-/

namespace Sys2Proof.Machine

/-- A register ALU instruction with two sources (R29). -/
def State.alu2 (s : State) (c : Core) (rd ra rb : BitVec 5) (cost : Nat) (f : Word → Word → Word) : State :=
  s.coreDo c 1 cost fun s => s.setCoreG c rd (f (s.coreG c ra) (s.coreG c rb))

/-- An instruction with one register source, of one or two words (R29, R31, R34). -/
def State.alu1 (s : State) (c : Core) (rd ra : BitVec 5) (words cost : Nat) (f : Word → Word) : State :=
  s.coreDo c words cost fun s => s.setCoreG c rd (f (s.coreG c ra))

/-- A branch (R33): a taken one costs 2 on an expansion core. -/
def State.branch (s : State) (c : Core) (ra rb : BitVec 5) (off : BitVec 16) (test : Word → Word → Bool) :
    State :=
  if test (s.coreG c ra) (s.coreG c rb) then s.coreJump c 1 2 (s.corePc c + off16 off) id
  else s.coreDo c 1 1 id

/-! ### Register ALU, major 0x01 (R29, R30) -/

/-- ADD (R29). -/
def execAdd (c : Core) (rd ra rb : BitVec 5) (s : State) : Out :=
  .next (s.alu2 c rd ra rb 1 fun a b => a + b)

/-- SUB (R29). -/
def execSub (c : Core) (rd ra rb : BitVec 5) (s : State) : Out :=
  .next (s.alu2 c rd ra rb 1 fun a b => a - b)

/-- AND (R29). -/
def execAnd (c : Core) (rd ra rb : BitVec 5) (s : State) : Out :=
  .next (s.alu2 c rd ra rb 1 fun a b => a &&& b)

/-- OR (R29). -/
def execOr (c : Core) (rd ra rb : BitVec 5) (s : State) : Out :=
  .next (s.alu2 c rd ra rb 1 fun a b => a ||| b)

/-- XOR (R29). -/
def execXor (c : Core) (rd ra rb : BitVec 5) (s : State) : Out :=
  .next (s.alu2 c rd ra rb 1 fun a b => a ^^^ b)

/-- ANDN (R29). -/
def execAndn (c : Core) (rd ra rb : BitVec 5) (s : State) : Out :=
  .next (s.alu2 c rd ra rb 1 fun a b => a &&& ~~~b)

/-- SLL (R29). -/
def execSll (c : Core) (rd ra rb : BitVec 5) (s : State) : Out :=
  .next (s.alu2 c rd ra rb 1 fun a b => a <<< (b.toNat % 32))

/-- SRL (R29). -/
def execSrl (c : Core) (rd ra rb : BitVec 5) (s : State) : Out :=
  .next (s.alu2 c rd ra rb 1 fun a b => a >>> (b.toNat % 32))

/-- SRA (R29). -/
def execSra (c : Core) (rd ra rb : BitVec 5) (s : State) : Out :=
  .next (s.alu2 c rd ra rb 1 fun a b => a.sshiftRight (b.toNat % 32))

/-- ROR (R29). -/
def execRor (c : Core) (rd ra rb : BitVec 5) (s : State) : Out :=
  .next (s.alu2 c rd ra rb 1 fun a b => a.rotateRight (b.toNat % 32))

/-- SLT (R29). -/
def execSlt (c : Core) (rd ra rb : BitVec 5) (s : State) : Out :=
  .next (s.alu2 c rd ra rb 1 fun a b => boolWord (lessS a b))

/-- SLTU (R29). -/
def execSltu (c : Core) (rd ra rb : BitVec 5) (s : State) : Out :=
  .next (s.alu2 c rd ra rb 1 fun a b => boolWord (lessU a b))

/-- MIN (R29). -/
def execMin (c : Core) (rd ra rb : BitVec 5) (s : State) : Out :=
  .next (s.alu2 c rd ra rb 1 fun a b => minS a b)

/-- MAX (R29). -/
def execMax (c : Core) (rd ra rb : BitVec 5) (s : State) : Out :=
  .next (s.alu2 c rd ra rb 1 fun a b => maxS a b)

/-- MINU (R29). -/
def execMinu (c : Core) (rd ra rb : BitVec 5) (s : State) : Out :=
  .next (s.alu2 c rd ra rb 1 fun a b => minU a b)

/-- MAXU (R29). -/
def execMaxu (c : Core) (rd ra rb : BitVec 5) (s : State) : Out :=
  .next (s.alu2 c rd ra rb 1 fun a b => maxU a b)

/-- CLZ (R29). -/
def execClz (c : Core) (rd ra : BitVec 5) (s : State) : Out :=
  .next (s.alu1 c rd ra 1 1 fun a => BitVec.ofNat 32 (leadZeros a))

/-- CTZ (R29). -/
def execCtz (c : Core) (rd ra : BitVec 5) (s : State) : Out :=
  .next (s.alu1 c rd ra 1 1 fun a => BitVec.ofNat 32 (trailZeros a))

/-- POPC (R29). -/
def execPopc (c : Core) (rd ra : BitVec 5) (s : State) : Out :=
  .next (s.alu1 c rd ra 1 1 fun a => BitVec.ofNat 32 (onesIn a))

/-- MUL (R29, R30). -/
def execMul (c : Core) (rd ra rb : BitVec 5) (s : State) : Out :=
  .next (s.alu2 c rd ra rb 3 fun a b => a * b)

/-- MULH (R29, R30). -/
def execMulh (c : Core) (rd ra rb : BitVec 5) (s : State) : Out :=
  .next (s.alu2 c rd ra rb 3 fun a b => mulHighS a b)

/-- MULHU (R29, R30). -/
def execMulhu (c : Core) (rd ra rb : BitVec 5) (s : State) : Out :=
  .next (s.alu2 c rd ra rb 3 fun a b => mulHighU a b)

/-- DIV (R29, R30). -/
def execDiv (c : Core) (rd ra rb : BitVec 5) (s : State) : Out :=
  .next (s.alu2 c rd ra rb 34 fun a b => divS a b)

/-- DIVU (R29, R30). -/
def execDivu (c : Core) (rd ra rb : BitVec 5) (s : State) : Out :=
  .next (s.alu2 c rd ra rb 34 fun a b => divU a b)

/-- REM (R29, R30). -/
def execRem (c : Core) (rd ra rb : BitVec 5) (s : State) : Out :=
  .next (s.alu2 c rd ra rb 34 fun a b => remS a b)

/-- REMU (R29, R30). -/
def execRemu (c : Core) (rd ra rb : BitVec 5) (s : State) : Out :=
  .next (s.alu2 c rd ra rb 34 fun a b => remU a b)

/-! ### Immediate ALU, majors 0x02 to 0x0B (R31) -/

/-- ADDI (R31). -/
def execAddi (c : Core) (rd ra : BitVec 5) (imm : BitVec 16) (s : State) : Out :=
  .next (s.alu1 c rd ra 1 1 fun a => a + immS imm)

/-- ANDI (R31). -/
def execAndi (c : Core) (rd ra : BitVec 5) (imm : BitVec 16) (s : State) : Out :=
  .next (s.alu1 c rd ra 1 1 fun a => a &&& immZ imm)

/-- ORI (R31). -/
def execOri (c : Core) (rd ra : BitVec 5) (imm : BitVec 16) (s : State) : Out :=
  .next (s.alu1 c rd ra 1 1 fun a => a ||| immZ imm)

/-- XORI (R31). -/
def execXori (c : Core) (rd ra : BitVec 5) (imm : BitVec 16) (s : State) : Out :=
  .next (s.alu1 c rd ra 1 1 fun a => a ^^^ immZ imm)

/-- SLTI (R31). -/
def execSlti (c : Core) (rd ra : BitVec 5) (imm : BitVec 16) (s : State) : Out :=
  .next (s.alu1 c rd ra 1 1 fun a => boolWord (lessS a (immS imm)))

/-- SLTIU (R31). -/
def execSltiu (c : Core) (rd ra : BitVec 5) (imm : BitVec 16) (s : State) : Out :=
  .next (s.alu1 c rd ra 1 1 fun a => boolWord (lessU a (immS imm)))

/-- SLLI (R31). -/
def execSlli (c : Core) (rd ra : BitVec 5) (sh : BitVec 5) (s : State) : Out :=
  .next (s.alu1 c rd ra 1 1 fun a => a <<< sh.toNat)

/-- SRLI (R31). -/
def execSrli (c : Core) (rd ra : BitVec 5) (sh : BitVec 5) (s : State) : Out :=
  .next (s.alu1 c rd ra 1 1 fun a => a >>> sh.toNat)

/-- SRAI (R31). -/
def execSrai (c : Core) (rd ra : BitVec 5) (sh : BitVec 5) (s : State) : Out :=
  .next (s.alu1 c rd ra 1 1 fun a => a.sshiftRight sh.toNat)

/-- LUI (R31). -/
def execLui (c : Core) (rd : BitVec 5) (imm : BitVec 16) (s : State) : Out :=
  .next (s.alu1 c rd 0 1 1 fun _ => immZ imm <<< 16)

/-! ### Loads and stores, majors 0x10 to 0x17 (R32) -/

/-- LB (R32). -/
def execLb (c : Core) (rd ra : BitVec 5) (imm : BitVec 16) (s : State) : Out :=
  .next (s.coreLoad c rd ra imm 1 true)

/-- LBU (R32). -/
def execLbu (c : Core) (rd ra : BitVec 5) (imm : BitVec 16) (s : State) : Out :=
  .next (s.coreLoad c rd ra imm 1 false)

/-- LH (R32). -/
def execLh (c : Core) (rd ra : BitVec 5) (imm : BitVec 16) (s : State) : Out :=
  .next (s.coreLoad c rd ra imm 2 true)

/-- LHU (R32). -/
def execLhu (c : Core) (rd ra : BitVec 5) (imm : BitVec 16) (s : State) : Out :=
  .next (s.coreLoad c rd ra imm 2 false)

/-- LW (R32). -/
def execLw (c : Core) (rd ra : BitVec 5) (imm : BitVec 16) (s : State) : Out :=
  .next (s.coreLoad c rd ra imm 4 false)

/-- SB (R32). -/
def execSb (c : Core) (rs ra : BitVec 5) (imm : BitVec 16) (s : State) : Out :=
  .next (s.coreStore c rs ra imm 1)

/-- SH (R32). -/
def execSh (c : Core) (rs ra : BitVec 5) (imm : BitVec 16) (s : State) : Out :=
  .next (s.coreStore c rs ra imm 2)

/-- SW (R32). -/
def execSw (c : Core) (rs ra : BitVec 5) (imm : BitVec 16) (s : State) : Out :=
  .next (s.coreStore c rs ra imm 4)

/-! ### Branches and jumps (R33) -/

/-- BEQ (R33). -/
def execBeq (c : Core) (ra rb : BitVec 5) (off : BitVec 16) (s : State) : Out :=
  .next (s.branch c ra rb off fun a b => a == b)

/-- BNE (R33). -/
def execBne (c : Core) (ra rb : BitVec 5) (off : BitVec 16) (s : State) : Out :=
  .next (s.branch c ra rb off fun a b => a != b)

/-- BLT (R33). -/
def execBlt (c : Core) (ra rb : BitVec 5) (off : BitVec 16) (s : State) : Out :=
  .next (s.branch c ra rb off fun a b => lessS a b)

/-- BGE (R33). -/
def execBge (c : Core) (ra rb : BitVec 5) (off : BitVec 16) (s : State) : Out :=
  .next (s.branch c ra rb off fun a b => !lessS a b)

/-- BLTU (R33). -/
def execBltu (c : Core) (ra rb : BitVec 5) (off : BitVec 16) (s : State) : Out :=
  .next (s.branch c ra rb off fun a b => lessU a b)

/-- BGEU (R33). -/
def execBgeu (c : Core) (ra rb : BitVec 5) (off : BitVec 16) (s : State) : Out :=
  .next (s.branch c ra rb off fun a b => !lessU a b)

/-- J (R33). -/
def execJ (c : Core) (off : BitVec 26) (s : State) : Out :=
  .next (s.coreJump c 1 2 (s.corePc c + off26 off) id)

/-- JAL (R33): g31 is the link. -/
def execJal (c : Core) (off : BitVec 26) (s : State) : Out :=
  .next (s.coreJump c 1 2 (s.corePc c + off26 off) fun t => t.setCoreG c 31 (s.corePc c + 4))

/-- JALR (R33): the target is computed before g[rd] is written. -/
def execJalr (c : Core) (rd ra : BitVec 5) (imm : BitVec 16) (s : State) : Out :=
  .next (s.coreJump c 1 2 ((s.coreG c ra + immS imm) &&& 0xFFFFFFFC) fun t =>
    t.setCoreG c rd (s.corePc c + 4))

/-! ### Two-word instructions, major 0x20 (R34) -/

/-- LIW (R34). -/
def execLiw (c : Core) (rd : BitVec 5) (imm : BitVec 32) (s : State) : Out :=
  .next (s.alu1 c rd 0 2 2 fun _ => s.wideImm c imm)

/-- ADDIW (R34). -/
def execAddiw (c : Core) (rd ra : BitVec 5) (imm : BitVec 32) (s : State) : Out :=
  .next (s.alu1 c rd ra 2 2 fun a => a + s.wideImm c imm)

/-- ANDIW (R34). -/
def execAndiw (c : Core) (rd ra : BitVec 5) (imm : BitVec 32) (s : State) : Out :=
  .next (s.alu1 c rd ra 2 2 fun a => a &&& s.wideImm c imm)

/-- ORIW (R34). -/
def execOriw (c : Core) (rd ra : BitVec 5) (imm : BitVec 32) (s : State) : Out :=
  .next (s.alu1 c rd ra 2 2 fun a => a ||| s.wideImm c imm)

/-- XORIW (R34). -/
def execXoriw (c : Core) (rd ra : BitVec 5) (imm : BitVec 32) (s : State) : Out :=
  .next (s.alu1 c rd ra 2 2 fun a => a ^^^ s.wideImm c imm)

/-- JW (R34). -/
def execJw (c : Core) (rd : BitVec 5) (imm : BitVec 32) (s : State) : Out :=
  .next (s.coreJump c 2 3 (s.wideImm c imm &&& 0xFFFFFFFC) fun t => t.setCoreG c rd (s.corePc c + 8))

/-! ### Illegal words (R28, R39, R53) -/

/-- UDF: opcode 0x00 (R28). -/
def execUdf (c : Core) (low : BitVec 26) (s : State) : Out :=
  .next (s.coreIllegal c (low.setWidth 32))

/-- ILLEGAL_INSTRUCTION (R28, R39, R53): a word that the core does not decode. -/
def execIllegalInstruction (c : Core) (word : BitVec 32) (s : State) : Out :=
  .next (if wordLegal c word then s else s.coreIllegal c word)

end Sys2Proof.Machine
end

