-- ==== Sys2Proof/Machine/Bitmaps.lean ====
section
/-!
DEFINITION. Bitmaps of the expansion cores: BLIT and GLYPH in eight orientations, compact raster, and
variable fields (R75 to R86).
-/

namespace Sys2Proof.Machine

/-- A pixel as a source value (R60): an 8-bit one scaled, a 1-bit one only where it is set. -/
def pixelSrc (oneBit : Bool) (level v : Nat) : Option Nat :=
  if oneBit then (if v = 0 then none else some level) else some (scaled v level)

/-- A pixel of a source row in local memory: a byte, or a bit of one. DESIGN CHOICE (log 78): an address of a
bitmap, a font or a stream that passes 2^32 goes on at local address 0. -/
def State.pixel (s : State) (d x row i : Nat) (oneBit : Bool) : Nat :=
  if oneBit then b2n ((s.localByte d x ((row + i / 8) % 2 ^ 32)).getLsbD (i % 8))
  else (s.localByte d x ((row + i) % 2 ^ 32)).toNat

/-- The source pixel of a placed dot (R75). -/
def orient (o : BitVec 3) (w h u v : Nat) : Nat × Nat :=
  let (sx, sy) := if o.getLsbD 2 then (v, u) else (u, v)
  (if o.getLsbD 1 then w - 1 - sx else sx, if o.getLsbD 0 then h - 1 - sy else sy)

/-- BLIT (R76). -/
def execBlit (x : Fin 144) (o : BitVec 3) (a b c : BitVec 5) (m : BitVec 3) (s : State) : Out :=
  let base := (s.xg x a.toNat).toNat / 4 * 4
  let pos := (s.xg x b.toNat).toNat
  let shape := (s.xg x c.toNat).toNat
  let px := sext 16 pos
  let py := sext 16 (pos / 65536)
  let w := shape % 256 + 1
  let h := shape / 256 % 64 + 1
  let stride := shape / 65536 % 1024
  let oneBit := shape.testBit 26
  let t := o.getLsbD 2
  let w' := if t then h else w
  let h' := if t then w else h
  let d := s.freeIx
  let level := (s.xcAt x).level.toNat
  let src := fun (i j : Nat) =>
    let u := (i : Int) - px
    let v := (j : Int) - py
    if 0 ≤ u ∧ u < w' ∧ 0 ≤ v ∧ v < h' then
      let (sx, sy) := orient o w h u.toNat v.toNat
      pixelSrc oneBit level (s.pixel d x (base + 4 * stride * sy) sx oneBit)
    else none
  .next (s.xcPaint x (4 + h' * (1 + ceilDiv w' (if t then 8 else 32))) m src fun s => s.draw.2)

/-! ### Glyphs (R77, R78) -/

/-- The displacement of glyph pixel (i, j) from the pen: halves doubled, so that every term is whole. -/
def glyphDot (o : BitVec 3) (bx bt : Int) (i j : Nat) : Int × Int :=
  let p := 2 * (bx + i) + 1
  let q := 2 * (bt + j) + 1
  let a := if o.getLsbD 1 then -p else p
  let b := if o.getLsbD 0 then -q else q
  let (du, dv) := if o.getLsbD 2 then (b, a) else (a, b)
  (du / 2, dv / 2)

/-- GLYPH (R78). -/
def execGlyph (x : Fin 144) (o : BitVec 3) (a b c : BitVec 5) (m : BitVec 3) (s : State) : Out :=
  let pen := (s.xg x a.toNat).toNat
  let font := (s.xg x b.toNat).toNat / 4 * 4
  let gc := (s.xg x c.toNat).toNat
  let code := gc % 65536
  let cw := 8 * (gc / 65536 % 16 + 1)
  let ch := gc / 2 ^ 20 % 64 + 1
  let t := o.getLsbD 2
  let d := s.freeIx
  let word := fun (off : Nat) => leNat (s.localBytes d x ((font + off) % 2 ^ 32) 4)
  let first := word 4 % 65536
  let e := code - first
  let known := decide (first ≤ code) && decide (code < first + word 0 % 65536)
  let oneBit := (word 0).testBit 16
  let place := word (8 + 8 * e)
  let dims := word (12 + 8 * e)
  let w := dims % 256
  let h := dims / 256 % 256
  let bx := sext 8 (dims / 65536)
  let bt := -(sext 8 (dims / 2 ^ 24))
  let stride := 4 * ceilDiv (w * (if oneBit then 1 else 8)) 32
  let level := (s.xcAt x).level.toNat
  let px := sext 16 pen
  let py := sext 16 (pen / 65536)
  let dots := if known then
      (List.range (min h ch)).flatMap fun j => (List.range (min w cw)).map fun i =>
        let (du, dv) := glyphDot o bx bt i j
        ((px + du, py + dv), pixelSrc oneBit level
          (s.pixel d x (font + place % 2 ^ 20 + stride * j) i oneBit))
    else []
  let src := fun (i j : Nat) =>
    match dots.find? fun e => e.1 == ((i : Int), (j : Int)) with
    | some e => e.2
    | none => none
  let adv : Int := place / 2 ^ 20
  let adv := if o.getLsbD 1 then -adv else adv
  let (du, dv) := if t then (0, adv) else (adv, 0)
  let w' := if t then ch else cw
  let h' := if t then cw else ch
  .next (s.xcPaint x (6 + h' * (1 + ceilDiv w' (if t then 8 else 32))) m src fun s =>
    if known then
      s.draw.2.setXg x a.toNat (BitVec.ofNat 32 (twos 16 (py + dv) * 65536 + twos 16 (px + du)))
    else s.draw.2)

/-! ### Compact raster (R79, R80) -/

/-- The values decoded so far, newest first, and the address of the next byte. -/
structure Unpacked where
  vals : List Nat
  pos  : Nat
deriving DecidableEq, Repr

/-- The value a COPY produces next: that of the same column of the previous row. -/
def copyValue (w : Nat) (vals : List Nat) : Nat := vals.getD (w - 1) 0

/-- One token (R80); `read` gives a byte of the stream. -/
def unpackToken (read : Nat → Nat) (dict : Nat → List Nat) (w : Nat) (u : Unpacked) : Unpacked :=
  let head := read u.pos
  let n6 := head % 64
  let ext := n6 == 63
  let body := u.pos + (if ext then 2 else 1)
  let n := if ext then 64 + read (u.pos + 1) else n6 + 1
  match head / 64 with
  | 0 => { vals := List.replicate n (read body) ++ u.vals, pos := body + 1 }
  | 1 => { vals := ((List.range n).map fun i => read (body + i)).reverse ++ u.vals, pos := body + n }
  | 2 => { vals := (List.range n).foldl (fun vs _ => copyValue w vs :: vs) u.vals, pos := body }
  | _ =>
    let many := n6.testBit 5
    let k := if many then read (u.pos + 1) + 1 else 1
    { vals := (List.replicate k (dict (n6 % 32)).reverse).flatten ++ u.vals,
      pos := u.pos + (if many then 2 else 1) }

/-- Tokens until `total` values have been produced; each token produces one at least. -/
def unpackAll (read : Nat → Nat) (dict : Nat → List Nat) (w total : Nat) : Nat → Unpacked → Unpacked
  | 0, u => u
  | n + 1, u =>
    if total ≤ u.vals.length then u
    else unpackAll read dict w total n (unpackToken read dict w u)

/-- UNPK (R79). -/
def execUnpk (x : Fin 144) (a b c : BitVec 5) (m : BitVec 3) (s : State) : Out :=
  let start := (s.xg x b.toNat).toNat
  let g := (s.xg x c.toNat).toNat
  let x0 := g % 256
  let y0 := g / 256 % 64
  let w := g / 2 ^ 14 % 256 + 1
  let n := g / 2 ^ 22 % 64 + 1
  let d := s.freeIx
  let read := fun (p : Nat) => (s.localByte d x (p % 2 ^ 32)).toNat
  let dict := fun (k : Nat) => (((s.xv x (k / 4)).drop (8 * (k % 4))).take 8).map BitVec.toNat
  let r := unpackAll read dict w (n * w) (n * w) { vals := [], pos := start }
  let vals := r.vals.reverse
  let level := (s.xcAt x).level.toNat
  let src := fun (i j : Nat) =>
    if x0 ≤ i ∧ i < x0 + w ∧ y0 ≤ j ∧ j < y0 + n then
      some (scaled (vals.getD ((j - y0) * w + (i - x0)) 0) level)
    else none
  .next (s.xcPaint x (4 + n * (2 + ceilDiv w 4)) m src fun s =>
    s.draw.2.setXg x a.toNat (BitVec.ofNat 32 r.pos))

/-! ### Variable fields (R86) -/

/-- The window that a VFLD draws: which of P0 and P1 owns the anchor line; none when no product does. -/
def vfldWindow (g5 : Word) (anchor f : Nat) : Option Nat :=
  let next := g5.toNat / 2 ^ 24 % 64
  if next ≠ 0 ∧ next ≤ anchor then some (4 + f) else if g5.getLsbD 31 then none else some f

/-- VFLD (R86): the window is drawn, or the miss bit set in the cycle of issue. -/
def execVfld (x : Fin 144) (a : BitVec 5) (f : BitVec 2) (m : BitVec 3) (s : State) : Out :=
  let c := s.xcAt x
  let miss := fun (w : Nat) (s : State) =>
    s.onXc x fun c => { c with vmiss := c.vmiss ||| BitVec.ofNat 8 (2 ^ w) }
  .next <|
    match vfldWindow c.start5 ((s.xg x a.toNat).toNat % 64) f.toNat with
    | none => s.xcPaint x 582 m (fun _ _ => none) id
    | some w =>
      if c.windows && c.ready.getLsbD w then
        let level := c.level.toNat
        let src := fun (i j : Nat) =>
          if (memByte s.mem (XC_MEM x + 0x34000 + 2048 * w + 32 * j + i / 8)).getLsbD (i % 8) then
            some level else none
        s.xcPaint x 582 m src id
      else if 5 ≤ m.toNat then (if s.xcLive x then s.xcIllegal x else s)
      else s.xcStep x 1 582 none (miss w) (miss w)

end Sys2Proof.Machine
end

