-- ==== Sys2Proof/Machine/DmaMove.lean ====
section
/-!
DEFINITION. What the DMA channels move (R330 to R336, R343): descriptor fetches, data, readbacks and end
checks, each at the command that completes it.
-/

namespace Sys2Proof.Machine

/-! ### Accesses of a channel -/

/-- The outcome of an access that must wait for DRAM: the channel stays where it is. -/
def dmaWaits : Nat := 16

/-- The page hint of a descriptor (R299, R330): HINT = 3 acts as 0. -/
def DmaDesc.page (d : DmaDesc) : PageHint := if d.hint = 1 then .keep else if d.hint = 2 then .close else .none

/-- A read of a channel within a line: RESULT where it fails (2 denied, 3 poisoned), and its bytes. It follows the
channel's own writes of that line on their path (R298). -/
def State.dmaLoad (s : State) (n : Fin 32) (a len : Nat) (hint : PageHint := .none) :
    Nat × List Byte × State :=
  let m : Master := .dma n
  let s := s.dmaLand n fun _ b => decide (b / 64 = a / 64)
  if !s.permits m a false then (2, [], s.denied m a)
  else
  match s.dramStall 5 n.val a len false hint with
  | some t => (dmaWaits, [], t)
  | none =>
  if s.poisoned a len then (3, [], s.reportLines a len)
  else
    let (bs, s) := s.pieceLoad m a len hint
    (0, bs, if s.region a = .unmapped then s.unmapped m a else s)

/-- A write of a channel within a line: RESULT where it fails. When it arrives in memory, the spec leaves open
until ARRIVED (R335, R343). -/
def State.dmaSave (s : State) (n : Fin 32) (a : Nat) (bs : List Byte) (hint : PageHint := .none) :
    Nat × State :=
  let m : Master := .dma n
  if !s.permits m a true then (2, s.denied m a)
  else
  match s.dramStall 5 (32 + n.val) a bs.length true hint with
  | some t => (dmaWaits, t)
  | none =>
    match s.region a with
    | .unmapped => (0, s.unmapped m a)
    | .regs => (0, s.pieceSave m a bs hint)
    | _ =>
      let (d, s) := s.draw
      let s := s.dmaLand n fun _ b => decide (b / 64 = a / 64)
      (0, if inSections a || Config.freeBit d 0 then s.pieceSave m a bs hint
        else s.onDma n fun c => { c with flight := c.flight ++ [(a, bs)] })

/-! ### The move (R331, R332) -/

/-- The bytes of the pattern of a FILL descriptor at a place of the stream. -/
def DmaDesc.pattern (d : DmaDesc) (i len : Nat) : List Byte :=
  (List.range len).map fun j => BitVec.ofNat 8 (d.src / 256 ^ ((i + j) % 4))

/-- The next transfer: bytes contiguous on both sides within a line of 64. -/
def DmaDesc.chunk (d : DmaDesc) (i : Nat) : Nat :=
  let k := min (d.total - i) (min (d.dlen - i % d.dlen) (64 - d.dstAt i % 64))
  if d.fill then k else min k (min (d.slen - i % d.slen) (64 - d.srcAt i % 64))

/-- Lines of the two sides meet: their bytes may be read before or after they are written (R343). -/
def DmaDesc.overlaps (d : DmaDesc) : Bool :=
  !d.fill && (List.range d.scnt).any fun j => (List.range d.dcnt).any fun k =>
    let a := d.srcAt (j * d.slen)
    let b := d.dstAt (k * d.dlen)
    decide (a < b + d.dlen) && decide (b < a + d.slen)

/-- A channel takes its check-value unit with its first data byte (R332); a test of the unit ends. -/
def State.cvClaim (s : State) (n : Fin 32) (d : DmaDesc) : State :=
  if !d.cven || (s.dmaAt n).owns then s
  else
    ((s.onDma n fun c => { c with owns := true }).abandonTest (216 + d.cvu)).setFld (CV_STAT d.cvu)
      CV_STAT_DMAOWN 1

/-- What a transfer reads: bytes that the descriptor's own destination covers are those before or after it
wrote them, and host memory read with NS = 1 may be stale (R343). -/
def State.dmaSource (s : State) (d : DmaDesc) (old : List Host.Cell) (i : Nat) (bs : List Byte) :
    List Byte × State :=
  let a := d.srcAt i
  let (bs, s) :=
    if d.overlaps && s.region a != .regs then
      let (f, s) := s.draw
      (bs.zipIdx.map fun (b, j) => if Config.freeBit f j then b else memByte old (a + j), s)
    else (bs, s)
  if d.ns && !d.fill && s.region a == .host then
    let (f, s) := s.draw
    (if Config.freeBit f 64 then (List.range bs.length).map (Config.freeByte f) else bs, s)
  else (bs, s)

/-- One transfer at a place of the stream; `old` is memory before the descriptor ran. One that must wait for
DRAM on either side has done nothing. -/
def State.dmaChunk (s : State) (n : Fin 32) (d : DmaDesc) (old : List Host.Cell) (i len : Nat) :
    Nat × State :=
  match if s.permits (.dma n) (d.dstAt i) true then s.dramStall 5 (32 + n.val) (d.dstAt i) len true d.page else none with
  | some t => (dmaWaits, t)
  | none =>
    let (r, bs, s) := if d.fill then (0, d.pattern i len, s) else s.dmaLoad n (d.srcAt i) len d.page
    if r ≠ 0 then (r, s)
    else
      let (bs, s) := (s.cvClaim n d).dmaSource d old i bs
      let (r, s) := s.dmaSave n (d.dstAt i) bs d.page
      if r ≠ 0 then (r, s)
      else
        let s := if d.cven then s.cvFeed d.cvu bs else s
        (0, s.onDma n fun c => { c with moved := c.moved + len })

/-- Transfers until `limit` bytes are moved, or one fails or waits. -/
def State.dmaRun (s : State) (n : Fin 32) (d : DmaDesc) (old : List Host.Cell) (limit : Nat) :
    Nat → Nat × State
  | 0 => (0, s)
  | fuel + 1 =>
    let i := (s.dmaAt n).moved
    if limit ≤ i ∨ d.chunk i = 0 then (0, s)
    else
      match s.dmaChunk n d old i (d.chunk i) with
      | (0, s) => s.dmaRun n d old limit fuel
      | (r, s) => (r, s)

/-- The transfers of a descriptor up to a limit. -/
def State.dmaMove (s : State) (n : Fin 32) (d : DmaDesc) (limit : Nat) : Nat × State :=
  s.dmaRun n d s.mem (min limit d.total) (d.total + 1)

/-- Fields of a descriptor that was altered while it runs: the old or the new, field by field (R343). -/
def DmaDesc.mix (o x : DmaDesc) (new : Nat → Bool) : DmaDesc :=
  { src := if new 0 then x.src else o.src, dst := if new 1 then x.dst else o.dst,
    slen := if new 2 then x.slen else o.slen, sstride := if new 3 then x.sstride else o.sstride,
    scnt := if new 4 then x.scnt else o.scnt, dlen := if new 5 then x.dlen else o.dlen,
    dstride := if new 6 then x.dstride else o.dstride, dcnt := if new 7 then x.dcnt else o.dcnt,
    irq := if new 8 then x.irq else o.irq, rbk := if new 9 then x.rbk else o.rbk,
    ns := if new 10 then x.ns else o.ns, hint := if new 11 then x.hint else o.hint,
    fill := if new 12 then x.fill else o.fill, cven := if new 13 then x.cven else o.cven,
    cvu := if new 14 then x.cvu else o.cvu }

/-- The descriptor in progress, as an alteration of its bytes in memory leaves it. A unit that it owns stays
its unit. -/
def State.dmaDesc (s : State) (n : Fin 32) : Option DmaDesc × State :=
  let c := s.dmaAt n
  match c.desc, c.raw with
  | some d, some o =>
    let x := dmaFields (leNat (s.viewBytes (s.chTail n) 64))
    if x = o ∨ s.region (s.chTail n) = .regs then (some d, s)
    else
      let (f, s) := s.draw
      let m := d.mix x (Config.freeBit f)
      let m := if c.owns then { m with cven := d.cven, cvu := d.cvu } else m
      (some m, s.onDma n fun c => { c with desc := some m, raw := some x })
  | d, _ => (d, s)

/-! ### The steps of a channel -/

/-- The outcome of a read or a move of a channel that is not OK: it waits where it is, or its descriptor ends. -/
def State.dmaFails (s : State) (n : Fin 32) (r : Nat) : State :=
  if r = dmaWaits then s else s.dmaFinish n r false true

/-- A 64-byte transfer of a channel has ended, or none has begun: only a descriptor that feeds a check-value unit
byte by byte can lie within one (R332). -/
def State.dmaAtBoundary (s : State) (n : Nat) : Bool :=
  match (s.dmaAt n).desc with
  | some d =>
    let i := (s.dmaAt n).moved
    s.chState n != chRun || !d.cven || decide (d.total ≤ i) || i % d.dlen == 0 || d.dstAt i % 64 == 0 ||
      (!d.fill && (i % d.slen == 0 || d.srcAt i % 64 == 0))
  | none => true

/-- A channel to be stopped ends its descriptor with RESULT = ABORTED at the next transfer boundary (R336). -/
def State.dmaStops (s : State) (n : Fin 32) : State :=
  if (s.dmaAt n).result ≠ 5 ∨ s.chState n = chIdle ∨ s.chState n = chError ∨ s.dmaAtBoundary n = false then s
  else s.dmaFinish n 5 false true

/-- CHANNEL_ABORT (R336): the write of CH_CTRL.ABORT, and the stop that follows. -/
def execChannelAbort (n : Fin 32) (s : State) : Out := .next ((s.chAbort n).dmaStops n)

/-- A step of a channel in a state: one that is to be stopped stops instead. -/
def State.chStep (s : State) (n : Fin 32) (st : Nat) (act : State → State) : State :=
  if s.chState n ≠ st then s
  else if (s.dmaAt n).result = 5 then s.dmaStops n
  else act s

/-- FETCH (R331, R333): the descriptor is read, and its move begins. -/
def execFetch (n : Fin 32) (s : State) : Out :=
  .next <| s.chStep n chFetch fun s =>
    let (r, bs, s) := s.dmaLoad n (s.chTail n) 64
    if r = dmaWaits then s
    else
      let s := s.onDma n fun c => { c with fetched := true, moved := 0 }
      if r ≠ 0 then s.dmaFinish n r false true
      else
        match dmaParse (leNat bs) with
        | none => (s.fault 0x0442 n).dmaFinish n 1 false true
        | some d => (s.onDma n fun c => { c with desc := some d, raw := some d }).setChState n chRun

/-- COMPLETE (R331, R335): the rest of the descriptor's data is moved; STATUS is written, or the readback
starts. -/
def execComplete (n : Fin 32) (s : State) : Out :=
  .next <| s.chStep n chRun fun s =>
    match s.dmaDesc n with
    | (none, s) => s
    | (some d, s) =>
      let (r, s) := s.dmaMove n d d.total
      if r ≠ 0 then s.dmaFails n r
      else if d.rbk then s.setChState n chStatus
      else s.dmaFinish n 0 false true

/-- ARRIVED (R335): the last line written is read back, as any line is. -/
def execArrived (n : Fin 32) (s : State) : Out :=
  .next <| s.chStep n chStatus fun s =>
    match (s.dmaAt n).desc with
    | none => s
    | some d =>
      let (r, _, s) := s.dmaLoad n (d.dstAt (d.total - 1) / 64 * 64) 64 d.page
      if r ≠ 0 then s.dmaFails n r else s.dmaFinish n 0 true true

/-- ENDCHK (R333, R334): the 8 bytes at T + 0x30. -/
def execEndchk (n : Fin 32) (s : State) : Out :=
  .next <| s.chStep n chEndchk fun s =>
    let (r, bs, s) := s.dmaLoad n (s.chTail n + 0x30) 8
    let x := leNat bs
    if r ≠ 0 then s.dmaFails n r
    else if x % 2 = 1 then
      let next := x % 2 ^ 48 / 64 * 64
      let s := s.setReg64 (CH_TAIL_LO n) (CH_TAIL_HI n) next
      (s.onDma n fun c => { c with moved := 0 }).setChState n chFetch
    else if s.chPoked n then s.setPoked n false
    else s.setChState n chIdle

/-! ### Time (R331, R332) -/

/-- A channel has data to move, and is not to stop where it is. -/
def State.dmaBusy (s : State) (n : Nat) : Bool :=
  s.chState n == chRun && !((s.dmaAt n).result == 5 && s.dmaAtBoundary n) && match (s.dmaAt n).desc with
    | some d => decide ((s.dmaAt n).moved < d.total)
    | none => false

/-- One FC cycle: the channel that R16 picks may make a transfer, of one byte where it feeds a check-value
unit; whether it comes to it in this cycle is free, since the spec bounds the rate from above alone. -/
def State.dmaCycle (s : State) (old : List Host.Cell) : State :=
  match rrGrant 32 (s.top.rrPtr.get 0 rrDma) s.dmaBusy with
  | none => s
  | some k =>
    let n : Fin 32 := Fin.ofNat 32 k
    let (f, s) := (s.grant rrDma 32 k).draw
    if !Config.freeBit f 0 then s
    else
      match s.dmaDesc n with
      | (none, s) => s
      | (some d, s) =>
        let i := (s.dmaAt n).moved
        let len := if d.cven then min 1 (d.chunk i) else d.chunk i
        if len = 0 then s
        else
          match s.dmaChunk n d old i len with
          | (0, s) => s
          | (r, s) => s.dmaFails n r

/-- Writes under way may arrive. -/
def State.dmaArrive (s : State) : State :=
  if (List.range 32).all fun n => (s.dmaAt n).flight.isEmpty then s
  else
    let (d, s) := s.draw
    s.each 32 fun n s => s.dmaLand n fun i _ => Config.freeBit d (32 * i + n)

/-- Ten FC cycles of the engine. -/
def State.dmaTick (s : State) : State :=
  (if (List.range 32).any s.dmaBusy then (List.range 10).foldl (fun (t : State) _ => t.dmaCycle s.mem) s
  else s).dmaArrive

/-- A channel waits for a read of host memory (R323). -/
def State.readsHost (s : State) (n : Nat) : Bool :=
  let t := decide (0x800000000000 ≤ s.chTail n)
  let st := s.chState n
  if st = chFetch ∨ st = chEndchk then t
  else
    match (s.dmaAt n).desc with
    | some d =>
      (st == chRun && d.readsHost) ||
        (st == chStatus && decide (0x800000000000 ≤ d.dstAt (d.total - 1)))
    | none => false

end Sys2Proof.Machine
end

