-- ==== Sys2Proof/Machine/HostBus.lean ====
section
/-!
DEFINITION. The windows of the host interface (R15, R317 to R322).
-/

namespace Sys2Proof.Machine

/-- The device address that an offset in a BAR reaches (R15, R317), with a base of BAR4 in GiB. -/
def barReach (base : Nat) (bar : Bar) (x : Nat) : Nat :=
  match bar with
  | .bar0 => 0x180000000000 + x % 2 ^ 26
  | .bar2 => 0x100000000000 + x % 2 ^ 28
  | .bar4 => (base * 2 ^ 30 + x % 2 ^ 36) % 2 ^ 48

def State.bar4Base (s : State) : Nat := s.fld HI_BAR4_BASE HI_BAR4_BASE_BASE

def State.barAddr (s : State) (bar : Bar) (x : Nat) : Nat := barReach s.bar4Base bar x

/-- The base that a transaction uses: the one in force when it was received, or, if it has changed since,
either (R320, R343). -/
def State.baseOf (s : State) (bar : Bar) (base : Nat) : Nat × State :=
  if bar = .bar4 ∧ base ≠ s.bar4Base then
    let (d, s) := s.draw
    (if Config.freeBit d 0 then base else s.bar4Base, s)
  else (base, s)

/-- An error shown in AER. -/
def State.aer (s : State) (e : AerErr) : State :=
  { s with hi := { s.hi with cfg := { s.hi.cfg with aer := s.hi.cfg.aer.filter (· != e) ++ [e] } } }

/-- R318: a BAR0 access that is performed: 4 bytes aligned to 4, or 8 aligned to 8. -/
def bar0Kind (x n : Nat) : Bool := (n == 4 && x % 4 == 0) || (n == 8 && x % 8 == 0)

/-- A BAR0 access of another kind. -/
def State.bar0Odd (s : State) (x : Nat) : State := (s.fault 0x0401 0xFF (regAddr x)).count (HI_CNT 3)

/-- The words of a BAR0 access, the lower address first. -/
def bar0Words (x n : Nat) : List Nat := (List.range (n / 4)).map fun i => x + 4 * i

/-- A posted write of the host is performed; one of another kind to BAR0 is ignored and logged (R318). -/
def State.hostWrites (s : State) (bar : Bar) (a x : Nat) (data : List Byte) (poisoned : Bool) : State :=
  let n := data.length
  if poisoned then ((s.fault 0x1403 0xFF a).count (HI_CNT 1)).aer .poisonedTlp
  else if bar = .bar0 then
    let o := x % 2 ^ 26
    if bar0Kind o n then
      (bar0Words o n).foldl (fun (s : State) w =>
        s.regGuard .host w true fun s =>
          s.writeReg .host w (BitVec.ofNat 32 (leNat ((data.drop (w - o)).take 4)))) s
    else (if s.permits .host (regAddr o) true then s else s.denied .host (regAddr o)).bar0Odd o
  else if s.permitsAll .host a n true then s.busSave .host a data
  else s.denied .host a

/-- A word of BAR0 read by the host: a denied read returns zero. -/
def State.hostWord (s : State) (w : Nat) : List Byte × State :=
  if s.permits .host (regAddr w) false then
    let (v, s) := (s.busGrant .host).readReg .host w
    (leBytes 4 v.toNat, s)
  else (List.replicate 4 0, s.denied .host (regAddr w))

/-- The completion of a host read. -/
def State.complete (s : State) (data : List Byte) (ep : Bool) : State :=
  { s with hi := { s.hi with data := data, ep := ep } }

/-- A read of the host is performed: a read of another kind of BAR0 returns the aligned word that holds its
first byte; the data of a poisoned completion is not stated. -/
def State.hostReads (s : State) (bar : Bar) (a x len : Nat) : State :=
  if bar = .bar0 then
    let o := x % 2 ^ 26
    if bar0Kind o len then
      let (bs, s) := (bar0Words o len).foldl (fun (acc : List Byte × State) w =>
        let (bs, s) := acc.2.hostWord w
        (acc.1 ++ bs, s)) ([], s)
      s.complete bs false
    else
      let (bs, s) := s.hostWord (o / 4 * 4)
      (s.bar0Odd o).complete bs false
  else if !s.permitsAll .host a len false then (s.denied .host a).complete (List.replicate len 0) false
  else if s.poisoned a len then
    let (d, s) := s.reportLines a len |>.draw
    s.complete ((List.range len).map (Config.freeByte d)) true
  else
    let (bs, s) := s.busLoad .host a len
    s.complete bs false

/-- A transaction at an address that must wait for DRAM (R291, R292, R305): what it does to the ranks that it
meets. -/
def State.hostStall (s : State) (bar : Bar) (a n : Nat) (write : Bool) : Option State :=
  if bar = .bar0 ∨ !s.permitsAll .host a n write then none
  else s.dramStalls (6, 0) write .none [(a, n)]

/-- A transaction is performed, or waits. -/
def State.hostDo (s : State) (t : HostAcc) : Bool × State :=
  match t with
  | .read bar base x len =>
    let (b, s) := s.baseOf bar base
    let a := barReach b bar x
    match s.hostStall bar a len false with
    | some s => (false, s)
    | none => (true, s.hostReads bar a x len)
  | .write bar base x data poisoned =>
    let (b, s) := s.baseOf bar base
    let a := barReach b bar x
    match if poisoned then none else s.hostStall bar a data.length true with
    | some s => (false, s)
    | none => (true, s.hostWrites bar a x data poisoned)

/-- Transactions are performed in their order (R321), until one must wait: it and those behind it stay. -/
def State.hostRun (s : State) : List HostAcc → State
  | [] => { s with hi := { s.hi with queue := [] } }
  | t :: rest =>
    match s.hostDo t with
    | (false, s) => { s with hi := { s.hi with queue := t :: rest } }
    | (true, s) => s.hostRun rest

/-- HOST_WRITE (R318, R319, R321, R322). -/
def execHostWrite (bar : Bar) (x : BitVec 36) (data : List Byte) (poisoned : Bool) (s : State) : Out :=
  .next (s.hostRun (s.hi.queue ++ [.write bar s.bar4Base x.toNat data poisoned]))

/-- HOST_READ (R318, R319, R321, R322). -/
def execHostRead (bar : Bar) (x : BitVec 36) (len : Nat) (s : State) : Out :=
  .next (s.hostRun (s.hi.queue ++ [.read bar s.bar4Base x.toNat len]))

end Sys2Proof.Machine
end

