-- ==== Sys2Proof/Machine/HostReset.lean ====
section
/-!
DEFINITION. The link and the resets of the host interface (R316, R323, R324, R469).
-/

namespace Sys2Proof.Machine

/-- A descriptor that the host side ends: in FETCH or ENDCHK it lies in host memory, in RUN or STATUS it
lies there or its data does (R323, R324). -/
def State.usesHost (s : State) (n : Nat) : Bool :=
  let t := decide (0x800000000000 ≤ s.chTail n)
  let st := s.chState n
  if st = chIdle ∨ st = chError then false
  else
    t || match (s.dmaAt n).desc with
      | some d => d.readsHost || d.writesHost
      | none => false

/-- A descriptor ends with RESULT = HOST (R336). `up`: host memory can still be reached. -/
def State.hostEnds (s : State) (n : Fin 32) (up : Bool) : State :=
  let inHost := decide (0x800000000000 ≤ s.chTail n)
  (s.fault 0x1405 n).dmaFinish n 4 false (up || !inHost)

/-- A posted write, which a reset of the host interface still performs. -/
def HostAcc.posted : HostAcc → Bool
  | .read _ _ _ _ => false
  | .write _ _ _ _ _ => true

/-- R324: what every reset of the host interface does. DESIGN CHOICE: a read that waits is dropped, and a
posted write that waits is still performed. -/
def State.hostReset (s : State) : State :=
  let s := { s with regs := s.regs.filter fun e => !(decide (MSIX_ADDR_LO 0 ≤ e.1) && decide (e.1 < MSIX_ADDR_LO 256)) }
  let s := s.setReg HI_BAR4_BASE 0
  let s := { s with hi := { s.hi with queue := s.hi.queue.filter HostAcc.posted, cfg := PciCfg.reset } }
  (List.finRange 32).foldl (fun (s : State) (n : Fin 32) => if s.usesHost n then s.hostEnds n false else s) s

/-- FUNCTION_LEVEL_RESET (R324). -/
def execFunctionLevelReset (s : State) : Out := .next (s.hostReset.setEvt BLK_HI 26)

/-- An established link is lost (R324). -/
def State.linkLost (s : State) : State :=
  let s := ((s.setFld HI_LINK_STAT HI_LINK_STAT_UP 0).setFld HI_LINK_STAT HI_LINK_STAT_WIDTH 0).setFld
    HI_LINK_STAT HI_LINK_STAT_SPEED 0
  (s.hostReset.fault 0x2404).setEvt BLK_HI 24

def State.linkUp (s : State) : Bool := s.bit HI_LINK_STAT HI_LINK_STAT_UP

/-- PCIE_LINK_DOWN (R324). -/
def execPcieLinkDown (s : State) : Out := .next (if s.linkUp then s.linkLost else s)

/-- The PCIe lanes are in electrical idle: in power-on reset, and until link training starts at the later of the
PERST_N release and the PROT lock (R460, R469). -/
def State.pcieIdle (s : State) : Bool := !(s.boot.perst && s.bit PROT_LOCK PROT_LOCK_LOCK)

/-- PERST_N (R324, R469): its fall resets the host interface, and its release permits link training. -/
def execPerstN (level : Bool) (s : State) : Out :=
  .next <|
    let s' := s.onBoot fun b => { b with perst := level }
    if level || !s.boot.perst then s' else if s.linkUp then s'.linkLost else s'.hostReset

/-- PCIE_LINK_UP (R469): training ends, no earlier than PERST_N's release and the PROT lock. -/
def execPcieLinkUp (speed width : BitVec 4) (s : State) : Out :=
  .next <|
    if !s.pcieIdle && !s.linkUp &&
        [1, 2, 3, 4, 5].contains speed.toNat && [1, 2, 4, 8].contains width.toNat then
      let s := (s.setFld HI_LINK_STAT HI_LINK_STAT_SPEED speed.toNat).setFld HI_LINK_STAT
        HI_LINK_STAT_WIDTH width.toNat
      (s.setFld HI_LINK_STAT HI_LINK_STAT_UP 1).setEvt BLK_HI 25
    else s

/-- COMPLETION_TIMEOUT (R322, R323): a read of host memory by a channel ends in a timeout or an error, or its
completion arrives poisoned. A timeout is shown in AER; an error completion is reported there by its sender
(PRESUMED, as PCI Express has it). -/
def execCompletionTimeout (f : HostFail) (s : State) : Out :=
  let n := f.chan
  .next <|
    if !s.readsHost n then s
    else if f.err = .poisoned then
      (((s.fault 0x1403 0xFF (s.chTail n)).count (HI_CNT 1)).aer .poisonedTlp).dmaFinish n 3 false true
    else
      let s := if f.err = .timeout then s.aer .completionTimeout else s
      (s.count (HI_CNT 2)).hostEnds n true

end Sys2Proof.Machine
end

