-- ==== Sys2Proof/Machine/Setup.lean ====
section
/-!
DEFINITION. The setup that ROM writes, the PROT lock, and the release of the Sagger and CC0 (R465 to R468).
-/

namespace Sys2Proof.Machine

/-- A word of the PROT setup section. -/
def setupWord (sec : List Byte) (off : Nat) : Word := BitVec.ofNat 32 (imgNat sec off 4)

/-- ROM writes the PROT setup (R465). -/
def State.writeSetup (s : State) (sec : List Byte) : State :=
  let s := s.each 32 fun i s =>
    let s := s.typedWrite (PROT_REGION0 i) (setupWord sec (16 * i))
    let s := s.typedWrite (PROT_REGION1 i) (setupWord sec (16 * i + 4))
    let s := s.typedWrite (PROT_REGION2 i) (setupWord sec (16 * i + 8))
    s.typedWrite (PROT_REGION3 i) (setupWord sec (16 * i + 12))
  s.typedWrite PROT_FIRE (setupWord sec 512)

/-- ROM writes the RWL list in order (R466). -/
def State.writeList (s : State) (sec : List Byte) : State :=
  (rwlEntries sec).foldl (fun (s : State) e => s.writeReg .si (e.1 / 4 * 4) e.2) s

/-- The Sagger program is loaded and starts. -/
def State.startSagger (s : State) (code : List Byte) : State :=
  let (pc, s) := (s.loadSagger code).sagEntry code.length
  let s : State := { s with sg := { IsSt.reset with running := true, pc := pc } }
  s.onSi fun i => { i with running := true, since := s.now, wdgTime := s.now }

/-- The first section of a type in an image: its offset. -/
def imgPartOfs (img : List Byte) (type : Nat) : Nat :=
  match (imgSections img).find? fun x => x.type == type with
  | some x => x.ofs
  | none => 0

/-- CC0 is released at the code copied to its local SRAM (R468). -/
def State.releaseCc0 (s : State) (img : List Byte) : State :=
  (s.storeBytes (CC_SRAM 0) (imgPart img 4)).coreStarts 0
    (0x07C00000 + (imgEntry img - imgPartOfs img 4))

/-- PROT_LOCK (R465 to R468). -/
def execProtLock (s : State) : Out :=
  .next <|
    match s.boot.image with
    | none => s
    | some img =>
      if s.bootPhase ≠ 5 then s
      else
        let s := ((s.writeSetup (imgPart img 2)).writeList (imgPart img 3)).lockProt
        let s := (s.startSagger (imgPart img 1)).releaseCc0 img
        (s.onBoot fun b => { b with image := none }).setBootPhase 6

end Sys2Proof.Machine
end

