-- ==== Sys2Proof/Machine/Shapes.lean ====
section
/-!
DEFINITION. Geometry of the expansion cores (R62, R66, R72 to R74): exact area coverage of spans,
trapezoids and cells.
-/

namespace Sys2Proof.Machine

/-- The quotient rounded up, of integers; the divisor is positive. -/
def ceilI (a b : Int) : Int := -((-a) / b)

/-- rows and cols of R66, on bounds in units of 1/unit: integer rows or columns below `top`. -/
def spanCount (top unit : Int) (a b : Int) : Nat :=
  if a < b then (max 0 (min top (ceilI b unit) - max 0 (a / unit))).toNat else 0

/-- The length of [a, b) within [i, i + 1), in units of 1/unit. -/
def overlap (unit : Int) (a b i : Int) : Int :=
  max 0 (min b ((i + 1) * unit) - max a (i * unit))

/-- A signed word of a span register: s16.16. -/
def State.xsI (s : State) (x sp w : Nat) : Int := (s.xs x sp w).toInt

/-- Coverage from an area of num / den (R62). -/
def areaCov (num den : Int) : Nat := ((2 * 255 * num + den) / (2 * den)).toNat

/-- SPAN (R72). -/
def execSpan (x : Fin 144) (sp : BitVec 2) (b : BitVec 5) (m : BitVec 3) (s : State) : Out :=
  let xl := s.xsI x sp.toNat 0
  let xr := s.xsI x sp.toNat 1
  let g := (s.xg x b.toNat).toNat
  let y0 := sext 16 g
  let n := g / 65536
  let rows := spanCount 64 1 y0 (y0 + n)
  let cols := spanCount 256 65536 xl xr
  let cov := fun (i j : Nat) =>
    if y0 ≤ j ∧ (j : Int) < y0 + n then areaCov (overlap 65536 xl xr i) 65536 else 0
  .next (s.xcPaint x (4 + rows * (1 + ceilDiv cols 32)) m (s.areaSrc x cov) id)

/-! ### TRAP (R73) -/

/-- The integral from 0 to u of a value clamped to 0 to 1. -/
def clampArea (u : Rat) : Rat := if u ≤ 0 then 0 else if u ≤ 1 then u * u / 2 else u - 1 / 2

/-- The mean of a value clamped to 0 to 1 that goes linearly from u to v. -/
def clampMean (u v : Rat) : Rat :=
  if u = v then (if u ≤ 0 then 0 else if 1 ≤ u then 1 else u) else (clampArea v - clampArea u) / (v - u)

/-- The area of {yt ≤ y < yb, xl + dxl (y − yt) ≤ x < xr + dxr (y − yt)} within the unit square at
(i, j). -/
def trapArea (xl xr dxl dxr yt yb : Rat) (i j : Nat) : Rat :=
  let lo := max yt j
  let hi := min yb (j + 1)
  let l := fun (y : Rat) => xl + dxl * (y - yt)
  let r := fun (y : Rat) => xr + dxr * (y - yt)
  let w := fun y => r y - l y
  if hi ≤ lo then 0
  else if w lo < 0 ∧ w hi < 0 then 0
  else
    let cross := yt - (xr - xl) / (dxr - dxl)
    let lo' := if w lo < 0 then cross else lo
    let hi' := if w hi < 0 then cross else hi
    (hi' - lo') * (clampMean (r lo' - i) (r hi' - i) - clampMean (l lo' - i) (l hi' - i))

/-- TRAP (R73). -/
def execTrapShape (x : Fin 144) (sp : BitVec 2) (b c : BitVec 5) (m : BitVec 3) (s : State) : Out :=
  let xl := s.xsI x sp.toNat 0
  let xr := s.xsI x sp.toNat 1
  let dl := s.xsI x sp.toNat 2
  let dr := s.xsI x sp.toNat 3
  let yt := (s.xg x b.toNat).toInt
  let yb := (s.xg x c.toNat).toInt
  let at32 := fun (a d : Int) => a * 65536 + d * (yb - yt)
  let xmin := min (xl * 65536) (at32 xl dl)
  let xmax := max (xr * 65536) (at32 xr dr)
  let rows := spanCount 64 65536 yt yb
  let cols := spanCount 256 (2 ^ 32) xmin xmax
  let q := fun (a : Int) => (a : Rat) / 65536
  let cov := fun (i j : Nat) =>
    (255 * trapArea (q xl) (q xr) (q dl) (q dr) (q yt) (q yb) i j + 1 / 2).floor.toNat
  .next (s.xcPaint x (6 + rows * (2 + ceilDiv cols 32)) m (s.areaSrc x cov) id)

/-! ### CELL (R74) -/

/-- The length of the union of the cells of a mask within [i, i + 1), in units of 2^-16. -/
def cellLen (mask : Word) (x0 w i : Int) : Int :=
  (List.range 32).foldl (fun acc (j : Nat) =>
    if mask.getLsbD j then acc + overlap 65536 (x0 + (j : Int) * w) (x0 + ((j : Int) + 1) * w) i
    else acc) 0

/-- CELL (R74). -/
def execCell (x : Fin 144) (sp : BitVec 2) (b : BitVec 5) (m : BitVec 3) (s : State) : Out :=
  let x0 := s.xsI x sp.toNat 0
  let y0 := s.xsI x sp.toNat 1
  let w := s.xsI x sp.toNat 2
  let h := s.xsI x sp.toNat 3
  let mask := s.xg x b.toNat
  let rows := spanCount 64 65536 y0 (y0 + h)
  let cols := spanCount 256 65536 x0 (x0 + 32 * w)
  let cov := fun (i j : Nat) =>
    if w ≤ 0 ∨ h ≤ 0 then 0
    else areaCov (cellLen mask x0 w i * overlap 65536 y0 (y0 + h) j) (2 ^ 32)
  .next (s.xcPaint x (4 + rows * (2 + ceilDiv cols 32)) m (s.areaSrc x cov)
    fun s => s.setXs x sp.toNat 1 (s.xs x sp.toNat 1 + s.xs x sp.toNat 3))

end Sys2Proof.Machine
end

