-- ==== Sys2Proof/Machine/System.lean ====
section
/-!
DEFINITION. The system instructions, group IS (R47 to R51), and interrupts (R54, R55).
-/

namespace Sys2Proof.Machine

/-! ### System registers (R47, R48) -/

/-- U mode may read these system registers (R48). -/
def userSr (n : Nat) : Bool := n == 0 || (decide (16 ≤ n) && decide (n ≤ 19))

/-- The inputs asserted as a system register is written, from which R55 counts no latency. -/
def State.notePrior (s : State) (c : IsCore) : State :=
  let levels : BitVec 64 := BitVec.ofNat 64 (((List.range 64).map fun i => b2n (s.irqLevel c i) * 2 ^ i).sum)
  s.onIs c fun x => { x with prior := levels }

/-- An access to a system register: `write` is no read of the five that U mode may read. -/
def State.srAccess (s : State) (c : IsCore) (n : Nat) (word : Word) (write : Bool) (act : State → State) :
    State :=
  s.isRun c 1 fun s =>
    if !s.corePriv c && (write || !userSr n) then s.except c 1 word else
      (if write then (act s).notePrior c else act s).retire c 1

/-- SRR (R47): its ra field names nothing. -/
def execSrr (c : IsCore) (rd : BitVec 5) (f : SrField) (s : State) : Out :=
  .next (s.srAccess c f.sr.toNat (srWord 0x30 rd f.ra f.sr) false fun s =>
    let (v, s) := s.readSr c f.sr.toNat
    s.setIsG c rd.toNat v)

/-- SRW (R47). -/
def execSrw (c : IsCore) (ra : BitVec 5) (sr : BitVec 8) (s : State) : Out :=
  .next (s.srAccess c sr.toNat (srWord 0x31 0 ra sr) true fun s =>
    s.writeSr c sr.toNat (s.isG c ra.toNat))

/-- SRSET (R47): the old value is read, and the bits of g[ra] are set. -/
def execSrset (c : IsCore) (rd ra : BitVec 5) (sr : BitVec 8) (s : State) : Out :=
  .next (s.srAccess c sr.toNat (srWord 0x32 rd ra sr) true fun s =>
    let (old, s) := s.readSr c sr.toNat
    (s.writeSr c sr.toNat (old ||| s.isG c ra.toNat)).setIsG c rd.toNat old)

/-- SRCLR (R47). -/
def execSrclr (c : IsCore) (rd ra : BitVec 5) (sr : BitVec 8) (s : State) : Out :=
  .next (s.srAccess c sr.toNat (srWord 0x33 rd ra sr) true fun s =>
    let (old, s) := s.readSr c sr.toNat
    (s.writeSr c sr.toNat (old &&& ~~~(s.isG c ra.toNat))).setIsG c rd.toNat old)

/-! ### The SYS group (R49) -/

/-- A SYS function that only S mode may run. -/
def State.sysOnly (s : State) (c : IsCore) (word : Word) (act : State → State) : State :=
  s.isRun c 1 fun s => if s.corePriv c then act s else s.except c 1 word

/-- ECALL (R49): exception 8 from U mode, 9 from S mode. -/
def execEcall (c : IsCore) (s : State) : Out :=
  .next (s.isRun c 1 fun s => s.except c (if s.corePriv c then 9 else 8) 0)

/-- ERET (R49). -/
def execEret (c : IsCore) (s : State) : Out :=
  .next (s.sysOnly c (sysWord 0 0x001) fun s =>
    ((s.onIs c fun x => { x with instret := x.instret + 1 }).notePrior c).trapReturn c)

/-- An input is both pending and enabled (R49, R54). -/
def State.irqAny (s : State) (c : IsCore) : Bool := (List.range 64).any (s.irqReady c)

/-- WFI (R49): the core waits until an input is both pending and enabled. -/
def execWfi (c : IsCore) (s : State) : Out :=
  .next (s.sysOnly c (sysWord 0 0x002) fun s =>
    if s.irqAny c then s.retire c 1 else s.onIs c fun x => { x with wfi := true })

/-- The wait of WFI ends. -/
def State.wfiEnds (s : State) (c : IsCore) : State :=
  if (s.isAt c).running && (s.isAt c).wfi && s.irqAny c then
    (s.onIs c fun x => { x with wfi := false }).retire c 1
  else s

/-- WFI_CONTINUE (R49). -/
def execWfiContinue (c : IsCore) (s : State) : Out := .next (s.wfiEnds c)

/-- FENCE (R50): it completes once no write of the core waits for DRAM; every other access of this model is
performed before the next instruction. -/
def execFence (c : IsCore) (s : State) : Out :=
  .next <| s.isRun c 1 fun s =>
    if s.mc.waiting.any fun w => w.port == 4 && w.src == isIx c then s else s.retire c 1

/-! ### Cache maintenance (R49 to R51) -/

/-- A cache-maintenance instruction at physical(g[ra]): PROT checks the address as a load, and only a
control core's address in a cached region acts. -/
def State.cacheOp (s : State) (c : IsCore) (ra : BitVec 5) (act : State → Nat → State) : State :=
  let ea := s.isG c ra.toNat
  let a := s.physical c ea
  let m := s.coreMaster c
  if c = .sg then s.retire c 1
  else if !s.permits m a false then (s.denied m a).except c 4 ea
  else if s.cached a then (act s a).retire c 1
  else s.retire c 1

/-- DCWB (R49). -/
def execDcwb (c : IsCore) (ra : BitVec 5) (s : State) : Out :=
  .next (s.isRun c 1 fun s => s.cacheOp c ra fun s a => s.dcWb (isIx c) a)

/-- DCINV (R49). -/
def execDcinv (c : IsCore) (ra : BitVec 5) (s : State) : Out :=
  .next (s.sysOnly c (sysWord ra 0x021) fun s => s.cacheOp c ra State.dcInv)

/-- DCFLUSH (R49). -/
def execDcflush (c : IsCore) (ra : BitVec 5) (s : State) : Out :=
  .next (s.isRun c 1 fun s => s.cacheOp c ra fun s a => s.dcFlush (isIx c) a)

/-- ICINV (R49). -/
def execIcinv (c : IsCore) (ra : BitVec 5) (s : State) : Out :=
  .next (s.sysOnly c (sysWord ra 0x023) fun s => s.cacheOp c ra fun s a =>
    s.onIs c fun x => { x with icache := x.icache.filter fun l => l != lineOf a })

/-! ### Interrupts (R54, R55) -/

/-- Priority of an interrupt input. -/
def State.irqPrio (s : State) (c : IsCore) (i : Nat) : Nat :=
  (s.sr c (10 + i / 16)).toNat / 4 ^ (i % 16) % 4

/-- The input that is taken: the highest priority, and R16 among equals. -/
def State.irqPick (s : State) (c : IsCore) : Option Nat :=
  let top := ((List.range 64).filter (s.irqReady c)).foldl (fun t i => max t (s.irqPrio c i)) 0
  rrGrant 64 (s.sr c srPtr).toNat fun i => s.irqReady c i && s.irqPrio c i == top

/-- An effective address lies in the core's own local SRAM. -/
def State.inLocal (s : State) (c : IsCore) (ea : Word) : Bool :=
  match c with
  | .cc k => decide (CC_SRAM k ≤ s.physical c ea) && decide (s.physical c ea < CC_SRAM k + 0x100000)
  | .sg => false

/-- LAT3 of an entry at level 3 (R55): 0 out of WFI, or out of the core's own local SRAM, with the vector in
local SRAM; every access of this model has ended by then. In any other case, and where the input was
asserted before the core's system registers were last written, the count is free. -/
def State.noteLatency (s : State) (c : IsCore) (waited : Bool) (i : Nat) : State :=
  if s.irqPrio c i ≠ 3 then s
  else if (waited || s.inLocal c (s.isAt c).pc) && !(s.isAt c).prior.getLsbD i && s.inLocal c (s.sr c srVbase + BitVec.ofNat 32 (4 * (32 + i))) then s.putSr c srLat3 0
  else
    let (d, s) := s.draw
    s.putSr c srLat3 (BitVec.ofNat 32 (Config.freeNat d % 65536))

/-- INTERRUPT (R52, R54, R55): between instructions, with IE set; a core in WFI completes it first. EADDR
of an interrupt is not stated. -/
def execInterrupt (c : IsCore) (s : State) : Out :=
  .next <|
    let waited := (s.isAt c).wfi
    if !(s.isAt c).running || !s.coreIe c then s
    else
      match s.irqPick c with
      | none => s
      | some i =>
        let s := s.wfiEnds c
        let s := (s.putSr c srPtr (BitVec.ofNat 32 (rrNext 64 i))).noteLatency c waited i
        let (d, s) := s.draw
        s.trap c (32 + i) (s.isAt c).pc (BitVec.ofNat 32 (Config.freeNat d))

end Sys2Proof.Machine
end

