-- ==== Sys2Proof/Machine/Vectors.lean ====
section
/-!
DEFINITION. The vector group of the expansion cores (R81).
-/

namespace Sys2Proof.Machine

/-- The offset in the tile buffer of a tile position (R81). -/
def segment (g : Word) : Nat := g.toNat / 256 % 64 * 256 + g.toNat % 256 / 32 * 32

/-- VLD (R81). -/
def execVld (x : Fin 144) (v : BitVec 3) (b : BitVec 5) (s : State) : Out :=
  .next (s.xcDo x 1 fun s =>
    let (d, s) := s.draw
    s.setXv x v.toNat (s.localBytes d x (alignLocal (s.xg x b.toNat) 32) 32))

/-- VST (R81). -/
def execVst (x : Fin 144) (v : BitVec 3) (b : BitVec 5) (s : State) : Out :=
  .next (s.xcDo x 1 fun s => s.localStore x (alignLocal (s.xg x b.toNat) 32) (s.xv x v.toNat))

/-- VLDT (R81). -/
def execVldt (x : Fin 144) (v : BitVec 3) (b : BitVec 5) (s : State) : Out :=
  .next (s.xcDo x 1 fun s =>
    s.setXv x v.toNat (s.loadBytes (s.tileBuf x + segment (s.xg x b.toNat)) 32))

/-- VSTT (R81): every lane is blended, and L is not applied. -/
def execVstt (x : Fin 144) (v : BitVec 3) (b : BitVec 5) (m : BitVec 3) (s : State) : Out :=
  let at0 := segment (s.xg x b.toNat)
  let lanes := s.xv x v.toNat
  let src := fun (i j : Nat) =>
    let o := j * 256 + i
    if at0 ≤ o ∧ o < at0 + 32 then some (lanes.getD (o - at0) 0).toNat else none
  .next (s.xcPaint x 1 m src id)

/-- VSPL (R81). -/
def execVspl (x : Fin 144) (v : BitVec 3) (b : BitVec 5) (s : State) : Out :=
  .next (s.xcDo x 1 fun s =>
    s.setXv x v.toNat (List.replicate 32 ((s.xg x b.toNat).setWidth 8)))

/-- A lane operation of two vectors. -/
def State.lanesOp (s : State) (x va vb vc : Nat) (f : Nat → Nat → Nat) : State :=
  s.xcDo x 1 fun s =>
    s.setXv x va (List.zipWith (fun a b => BitVec.ofNat 8 (f a.toNat b.toNat)) (s.xv x vb) (s.xv x vc))

/-- VADDS (R81). -/
def execVadds (x : Fin 144) (va vb vc : BitVec 3) (s : State) : Out :=
  .next (s.lanesOp x va.toNat vb.toNat vc.toNat fun a b => min 255 (a + b))

/-- VSUBS (R81). -/
def execVsubs (x : Fin 144) (va vb vc : BitVec 3) (s : State) : Out :=
  .next (s.lanesOp x va.toNat vb.toNat vc.toNat fun a b => a - b)

/-- VMIN (R81). -/
def execVmin (x : Fin 144) (va vb vc : BitVec 3) (s : State) : Out :=
  .next (s.lanesOp x va.toNat vb.toNat vc.toNat min)

/-- VMAX (R81). -/
def execVmax (x : Fin 144) (va vb vc : BitVec 3) (s : State) : Out :=
  .next (s.lanesOp x va.toNat vb.toNat vc.toNat max)

/-- VMULS (R81). -/
def execVmuls (x : Fin 144) (va vb vc : BitVec 3) (s : State) : Out :=
  .next (s.lanesOp x va.toNat vb.toNat vc.toNat fun a b => (a * b + 127) / 255)

/-- VOVER (R81). -/
def execVover (x : Fin 144) (va vb vc : BitVec 3) (s : State) : Out :=
  .next (s.lanesOp x va.toNat vb.toNat vc.toNat fun a b => a + (b * (255 - a) + 127) / 255)

/-- VEXT (R81). -/
def execVext (x : Fin 144) (a : BitVec 5) (v : BitVec 3) (c : BitVec 5) (s : State) : Out :=
  .next (s.xcDo x 1 fun s =>
    s.setXg x a.toNat (((s.xv x v.toNat).getD ((s.xg x c.toNat).toNat % 32) 0).setWidth 32))

/-- VSUM (R81). -/
def execVsum (x : Fin 144) (a : BitVec 5) (v : BitVec 3) (s : State) : Out :=
  .next (s.xcDo x 2 fun s =>
    s.setXg x a.toNat (BitVec.ofNat 32 ((s.xv x v.toNat).foldl (fun n b => n + b.toNat) 0)))

end Sys2Proof.Machine
end

