-- ==== Sys2Proof/Machine/Dispatch.lean ====
section
/-!
DEFINITION. The dispatch: one arm per command, each one direct call of its meaning.
-/

namespace Sys2Proof.Machine

def exec (i : Instr) (s : State) : Host.Outcome State Fault Refusal :=
  match i with
  | .registerWrite m off v => Sys2Proof.Machine.execRegisterWrite m off v s
  | .evtRouteWrite m n v => Sys2Proof.Machine.execEvtRouteWrite m n v s
  | .vectorHoldoffExpiry vec => Sys2Proof.Machine.execVectorHoldoffExpiry vec s
  | .vectorUnmask vec => Sys2Proof.Machine.execVectorUnmask vec s
  | .add c rd ra rb => Sys2Proof.Machine.execAdd c rd ra rb s
  | .sub c rd ra rb => Sys2Proof.Machine.execSub c rd ra rb s
  | .and c rd ra rb => Sys2Proof.Machine.execAnd c rd ra rb s
  | .or c rd ra rb => Sys2Proof.Machine.execOr c rd ra rb s
  | .xor c rd ra rb => Sys2Proof.Machine.execXor c rd ra rb s
  | .andn c rd ra rb => Sys2Proof.Machine.execAndn c rd ra rb s
  | .sll c rd ra rb => Sys2Proof.Machine.execSll c rd ra rb s
  | .srl c rd ra rb => Sys2Proof.Machine.execSrl c rd ra rb s
  | .sra c rd ra rb => Sys2Proof.Machine.execSra c rd ra rb s
  | .ror c rd ra rb => Sys2Proof.Machine.execRor c rd ra rb s
  | .slt c rd ra rb => Sys2Proof.Machine.execSlt c rd ra rb s
  | .sltu c rd ra rb => Sys2Proof.Machine.execSltu c rd ra rb s
  | .min c rd ra rb => Sys2Proof.Machine.execMin c rd ra rb s
  | .max c rd ra rb => Sys2Proof.Machine.execMax c rd ra rb s
  | .minu c rd ra rb => Sys2Proof.Machine.execMinu c rd ra rb s
  | .maxu c rd ra rb => Sys2Proof.Machine.execMaxu c rd ra rb s
  | .clz c rd ra => Sys2Proof.Machine.execClz c rd ra s
  | .ctz c rd ra => Sys2Proof.Machine.execCtz c rd ra s
  | .popc c rd ra => Sys2Proof.Machine.execPopc c rd ra s
  | .mul c rd ra rb => Sys2Proof.Machine.execMul c rd ra rb s
  | .mulh c rd ra rb => Sys2Proof.Machine.execMulh c rd ra rb s
  | .mulhu c rd ra rb => Sys2Proof.Machine.execMulhu c rd ra rb s
  | .div c rd ra rb => Sys2Proof.Machine.execDiv c rd ra rb s
  | .divu c rd ra rb => Sys2Proof.Machine.execDivu c rd ra rb s
  | .rem c rd ra rb => Sys2Proof.Machine.execRem c rd ra rb s
  | .remu c rd ra rb => Sys2Proof.Machine.execRemu c rd ra rb s
  | .addi c rd ra imm => Sys2Proof.Machine.execAddi c rd ra imm s
  | .andi c rd ra imm => Sys2Proof.Machine.execAndi c rd ra imm s
  | .ori c rd ra imm => Sys2Proof.Machine.execOri c rd ra imm s
  | .xori c rd ra imm => Sys2Proof.Machine.execXori c rd ra imm s
  | .slti c rd ra imm => Sys2Proof.Machine.execSlti c rd ra imm s
  | .sltiu c rd ra imm => Sys2Proof.Machine.execSltiu c rd ra imm s
  | .slli c rd ra sh => Sys2Proof.Machine.execSlli c rd ra sh s
  | .srli c rd ra sh => Sys2Proof.Machine.execSrli c rd ra sh s
  | .srai c rd ra sh => Sys2Proof.Machine.execSrai c rd ra sh s
  | .lui c rd imm => Sys2Proof.Machine.execLui c rd imm s
  | .jalr c rd ra imm => Sys2Proof.Machine.execJalr c rd ra imm s
  | .lb c rd ra imm => Sys2Proof.Machine.execLb c rd ra imm s
  | .lbu c rd ra imm => Sys2Proof.Machine.execLbu c rd ra imm s
  | .lh c rd ra imm => Sys2Proof.Machine.execLh c rd ra imm s
  | .lhu c rd ra imm => Sys2Proof.Machine.execLhu c rd ra imm s
  | .lw c rd ra imm => Sys2Proof.Machine.execLw c rd ra imm s
  | .sb c rs ra imm => Sys2Proof.Machine.execSb c rs ra imm s
  | .sh c rs ra imm => Sys2Proof.Machine.execSh c rs ra imm s
  | .sw c rs ra imm => Sys2Proof.Machine.execSw c rs ra imm s
  | .beq c ra rb off => Sys2Proof.Machine.execBeq c ra rb off s
  | .bne c ra rb off => Sys2Proof.Machine.execBne c ra rb off s
  | .blt c ra rb off => Sys2Proof.Machine.execBlt c ra rb off s
  | .bge c ra rb off => Sys2Proof.Machine.execBge c ra rb off s
  | .bltu c ra rb off => Sys2Proof.Machine.execBltu c ra rb off s
  | .bgeu c ra rb off => Sys2Proof.Machine.execBgeu c ra rb off s
  | .j c off => Sys2Proof.Machine.execJ c off s
  | .jal c off => Sys2Proof.Machine.execJal c off s
  | .liw c rd imm => Sys2Proof.Machine.execLiw c rd imm s
  | .addiw c rd ra imm => Sys2Proof.Machine.execAddiw c rd ra imm s
  | .andiw c rd ra imm => Sys2Proof.Machine.execAndiw c rd ra imm s
  | .oriw c rd ra imm => Sys2Proof.Machine.execOriw c rd ra imm s
  | .xoriw c rd ra imm => Sys2Proof.Machine.execXoriw c rd ra imm s
  | .jw c rd imm => Sys2Proof.Machine.execJw c rd imm s
  | .udf c low => Sys2Proof.Machine.execUdf c low s
  | .illegalInstruction c word => Sys2Proof.Machine.execIllegalInstruction c word s
  | .srr c rd f => Sys2Proof.Machine.execSrr c rd f s
  | .srw c ra sr => Sys2Proof.Machine.execSrw c ra sr s
  | .srset c rd ra sr => Sys2Proof.Machine.execSrset c rd ra sr s
  | .srclr c rd ra sr => Sys2Proof.Machine.execSrclr c rd ra sr s
  | .ecall c => Sys2Proof.Machine.execEcall c s
  | .eret c => Sys2Proof.Machine.execEret c s
  | .wfi c => Sys2Proof.Machine.execWfi c s
  | .wfiContinue c => Sys2Proof.Machine.execWfiContinue c s
  | .fence c => Sys2Proof.Machine.execFence c s
  | .dcwb c ra => Sys2Proof.Machine.execDcwb c ra s
  | .dcinv c ra => Sys2Proof.Machine.execDcinv c ra s
  | .dcflush c ra => Sys2Proof.Machine.execDcflush c ra s
  | .icinv c ra => Sys2Proof.Machine.execIcinv c ra s
  | .interrupt c => Sys2Proof.Machine.execInterrupt c s
  | .semRead m n => Sys2Proof.Machine.execSemRead m n s
  | .semRel m v => Sys2Proof.Machine.execSemRel m v s
  | .semForce m v => Sys2Proof.Machine.execSemForce m v s
  | .clr x a => Sys2Proof.Machine.execClr x a s
  | .setl x a => Sys2Proof.Machine.execSetl x a s
  | .tend x => Sys2Proof.Machine.execTend x s
  | .sld x sp b => Sys2Proof.Machine.execSld x sp b s
  | .sst x sp b => Sys2Proof.Machine.execSst x sp b s
  | .sset x sp b w => Sys2Proof.Machine.execSset x sp b w s
  | .sget x a sp w => Sys2Proof.Machine.execSget x a sp w s
  | .rep x a lenM1 => Sys2Proof.Machine.execRep x a lenM1 s
  | .span x sp b m => Sys2Proof.Machine.execSpan x sp b m s
  | .trapShape x sp b c m => Sys2Proof.Machine.execTrapShape x sp b c m s
  | .cell x sp b m => Sys2Proof.Machine.execCell x sp b m s
  | .blit x o a b c m => Sys2Proof.Machine.execBlit x o a b c m s
  | .unpk x a b c m => Sys2Proof.Machine.execUnpk x a b c m s
  | .glyph x o a b c m => Sys2Proof.Machine.execGlyph x o a b c m s
  | .vfld x a f m => Sys2Proof.Machine.execVfld x a f m s
  | .vld x v b => Sys2Proof.Machine.execVld x v b s
  | .vst x v b => Sys2Proof.Machine.execVst x v b s
  | .vldt x v b => Sys2Proof.Machine.execVldt x v b s
  | .vstt x v b m => Sys2Proof.Machine.execVstt x v b m s
  | .vspl x v b => Sys2Proof.Machine.execVspl x v b s
  | .vadds x va vb vc => Sys2Proof.Machine.execVadds x va vb vc s
  | .vsubs x va vb vc => Sys2Proof.Machine.execVsubs x va vb vc s
  | .vmin x va vb vc => Sys2Proof.Machine.execVmin x va vb vc s
  | .vmax x va vb vc => Sys2Proof.Machine.execVmax x va vb vc s
  | .vmuls x va vb vc => Sys2Proof.Machine.execVmuls x va vb vc s
  | .vover x va vb vc => Sys2Proof.Machine.execVover x va vb vc s
  | .vext x a v c => Sys2Proof.Machine.execVext x a v c s
  | .vsum x a v => Sys2Proof.Machine.execVsum x a v s
  | .meteringStop x => Sys2Proof.Machine.execMeteringStop x s
  | .tileStart x => Sys2Proof.Machine.execTileStart x s
  | .bufferReadAndClear x => Sys2Proof.Machine.execBufferReadAndClear x s
  | .admitJob j => Sys2Proof.Machine.execAdmitJob j s
  | .admissionComplete j => Sys2Proof.Machine.execAdmissionComplete j s
  | .slotStart j => Sys2Proof.Machine.execSlotStart j s
  | .release j => Sys2Proof.Machine.execRelease j s
  | .lineEvent => Sys2Proof.Machine.execLineEvent s
  | .prefetch x => Sys2Proof.Machine.execPrefetch x s
  | .vote p band col => Sys2Proof.Machine.execVote p band col s
  | .releasedAsZeroDose p band col => Sys2Proof.Machine.execReleasedAsZeroDose p band col s
  | .rateChange => Sys2Proof.Machine.execRateChange s
  | .packetSet => Sys2Proof.Machine.execPacketSet s
  | .commit => Sys2Proof.Machine.execCommit s
  | .receiverIndexBuilt => Sys2Proof.Machine.execReceiverIndexBuilt s
  | .hold on => Sys2Proof.Machine.execHold on s
  | .lcSet m hi => Sys2Proof.Machine.execLcSet m hi s
  | .acceptedCount q lineB => Sys2Proof.Machine.execAcceptedCount q lineB s
  | .strobeEnd k => Sys2Proof.Machine.execStrobeEnd k s
  | .padCut k => Sys2Proof.Machine.execPadCut k s
  | .fsCutclr m v => Sys2Proof.Machine.execFsCutclr m v s
  | .padLevelMismatch pad => Sys2Proof.Machine.execPadLevelMismatch pad s
  | .calFail pad => Sys2Proof.Machine.execCalFail pad s
  | .gateQualified input level => Sys2Proof.Machine.execGateQualified input level s
  | .headAlert k level => Sys2Proof.Machine.execHeadAlert k level s
  | .headResume k => Sys2Proof.Machine.execHeadResume k s
  | .prodTrigger lane pos => Sys2Proof.Machine.execProdTrigger lane pos s
  | .pqPop v => Sys2Proof.Machine.execPqPop v s
  | .camtrigEnd c => Sys2Proof.Machine.execCamtrigEnd c s
  | .feedHold => Sys2Proof.Machine.execFeedHold s
  | .feedStopped => Sys2Proof.Machine.execFeedStopped s
  | .feedReady => Sys2Proof.Machine.execFeedReady s
  | .laneEnable n v => Sys2Proof.Machine.execLaneEnable n v s
  | .phaseComplete n => Sys2Proof.Machine.execPhaseComplete n s
  | .phaseTimeout n => Sys2Proof.Machine.execPhaseTimeout n s
  | .blockLock n => Sys2Proof.Machine.execBlockLock n s
  | .lossOfLock n => Sys2Proof.Machine.execLossOfLock n s
  | .los n => Sys2Proof.Machine.execLos n s
  | .cdrLoss n => Sys2Proof.Machine.execCdrLoss n s
  | .cap n index value => Sys2Proof.Machine.execCap n index value s
  | .rate r => Sys2Proof.Machine.execRate r s
  | .ready b => Sys2Proof.Machine.execReady b s
  | .dose n => Sys2Proof.Machine.execDose n s
  | .cfgw k v => Sys2Proof.Machine.execCfgw k v s
  | .lanes k => Sys2Proof.Machine.execLanes k s
  | .heartbeat n hb => Sys2Proof.Machine.execHeartbeat n hb s
  | .deviceHeartbeat n => Sys2Proof.Machine.execDeviceHeartbeat n s
  | .status n st => Sys2Proof.Machine.execStatus n st s
  | .overdue n => Sys2Proof.Machine.execOverdue n s
  | .restartBringup n => Sys2Proof.Machine.execRestartBringup n s
  | .hubOffline k => Sys2Proof.Machine.execHubOffline k s
  | .statusLate k => Sys2Proof.Machine.execStatusLate k s
  | .streamPacket n pkt => Sys2Proof.Machine.execStreamPacket n pkt s
  | .linkDown link => Sys2Proof.Machine.execLinkDown link s
  | .cameraEvent n => Sys2Proof.Machine.execCameraEvent n s
  | .imageHeader n fmt => Sys2Proof.Machine.execImageHeader n fmt s
  | .lineReceived n streamEnd => Sys2Proof.Machine.execLineReceived n streamEnd s
  | .entryAged n => Sys2Proof.Machine.execEntryAged n s
  | .stripeGrant p => Sys2Proof.Machine.execStripeGrant p s
  | .stripeDone p => Sys2Proof.Machine.execStripeDone p s
  | .check => Sys2Proof.Machine.execCheck s
  | .checkDone => Sys2Proof.Machine.execCheckDone s
  | .camCfgWrite n v => Sys2Proof.Machine.execCamCfgWrite n v s
  | .mbxGo n v => Sys2Proof.Machine.execMbxGo n v s
  | .mbxDone n r => Sys2Proof.Machine.execMbxDone n r s
  | .mbxTimeout n => Sys2Proof.Machine.execMbxTimeout n s
  | .previewRow n => Sys2Proof.Machine.execPreviewRow n s
  | .roiDone n r => Sys2Proof.Machine.execRoiDone n r s
  | .calGo p v => Sys2Proof.Machine.execCalGo p v s
  | .calDone p => Sys2Proof.Machine.execCalDone p s
  | .pipeFail p => Sys2Proof.Machine.execPipeFail p s
  | .bqWrite p band => Sys2Proof.Machine.execBqWrite p band s
  | .lineRecordArrival => Sys2Proof.Machine.execLineRecordArrival s
  | .stitchedRow => Sys2Proof.Machine.execStitchedRow s
  | .registrationStep => Sys2Proof.Machine.execRegistrationStep s
  | .healthIntervalEnd => Sys2Proof.Machine.execHealthIntervalEnd s
  | .recordWrite => Sys2Proof.Machine.execRecordWrite s
  | .veEnable v => Sys2Proof.Machine.execVeEnable v s
  | .veDisable v => Sys2Proof.Machine.execVeDisable v s
  | .mcEnable v => Sys2Proof.Machine.execMcEnable v s
  | .init ch v => Sys2Proof.Machine.execInit ch v s
  | .ca ch v => Sys2Proof.Machine.execCa ch v s
  | .wlev ch v => Sys2Proof.Machine.execWlev ch v s
  | .rdqs ch v => Sys2Proof.Machine.execRdqs ch v s
  | .rdeye ch v => Sys2Proof.Machine.execRdeye ch v s
  | .wreye ch v => Sys2Proof.Machine.execWreye ch v s
  | .osc ch v => Sys2Proof.Machine.execOsc ch v s
  | .trnDone ch samples => Sys2Proof.Machine.execTrnDone ch samples s
  | .delayEntryWrite ch point rank e v => Sys2Proof.Machine.execDelayEntryWrite ch point rank e v s
  | .freqChange v => Sys2Proof.Machine.execFreqChange v s
  | .freqDone => Sys2Proof.Machine.execFreqDone s
  | .dramRequest x addr op => Sys2Proof.Machine.execDramRequest x addr op s
  | .panic port level => Sys2Proof.Machine.execPanic port level s
  | .refresh ch r => Sys2Proof.Machine.execRefresh ch r s
  | .zqCalibration ch r => Sys2Proof.Machine.execZqCalibration ch r s
  | .temperaturePoll ch dimm celsius => Sys2Proof.Machine.execTemperaturePoll ch dimm celsius s
  | .selfRefreshEntry ch r => Sys2Proof.Machine.execSelfRefreshEntry ch r s
  | .selfRefreshExit ch r => Sys2Proof.Machine.execSelfRefreshExit ch r s
  | .scrub addr result => Sys2Proof.Machine.execScrub addr result s
  | .caParityError ch dimm failedReplays => Sys2Proof.Machine.execCaParityError ch dimm failedReplays s
  | .migrationStart ch v => Sys2Proof.Machine.execMigrationStart ch v s
  | .migrationAbort ch v => Sys2Proof.Machine.execMigrationAbort ch v s
  | .migDone ch => Sys2Proof.Machine.execMigDone ch s
  | .sideband ch v => Sys2Proof.Machine.execSideband ch v s
  | .sidebandDone ch ack data => Sys2Proof.Machine.execSidebandDone ch ack data s
  | .hostWrite bar x data poisoned => Sys2Proof.Machine.execHostWrite bar x data poisoned s
  | .hostRead bar x len => Sys2Proof.Machine.execHostRead bar x len s
  | .functionLevelReset => Sys2Proof.Machine.execFunctionLevelReset s
  | .pcieLinkDown => Sys2Proof.Machine.execPcieLinkDown s
  | .perstN level => Sys2Proof.Machine.execPerstN level s
  | .doorbell n v => Sys2Proof.Machine.execDoorbell n v s
  | .hiSwevt v => Sys2Proof.Machine.execHiSwevt v s
  | .channelStart n => Sys2Proof.Machine.execChannelStart n s
  | .channelAbort n => Sys2Proof.Machine.execChannelAbort n s
  | .chainPoke n v => Sys2Proof.Machine.execChainPoke n v s
  | .fetch n => Sys2Proof.Machine.execFetch n s
  | .complete n => Sys2Proof.Machine.execComplete n s
  | .arrived n => Sys2Proof.Machine.execArrived n s
  | .endchk n => Sys2Proof.Machine.execEndchk n s
  | .completionTimeout f => Sys2Proof.Machine.execCompletionTimeout f s
  | .cvData8 u v => Sys2Proof.Machine.execCvData8 u v s
  | .cvData16 u v => Sys2Proof.Machine.execCvData16 u v s
  | .cvData32 u v => Sys2Proof.Machine.execCvData32 u v s
  | .cvStart u v => Sys2Proof.Machine.execCvStart u v s
  | .cvEnd u v => Sys2Proof.Machine.execCvEnd u v s
  | .cvValueWrite u v => Sys2Proof.Machine.execCvValueWrite u v s
  | .move a v => Sys2Proof.Machine.execMove a v s
  | .velocity a v => Sys2Proof.Machine.execVelocity a v s
  | .segments a v => Sys2Proof.Machine.execSegments a v s
  | .rampStop a v => Sys2Proof.Machine.execRampStop a v s
  | .hardStop a v => Sys2Proof.Machine.execHardStop a v s
  | .home a v => Sys2Proof.Machine.execHome a v s
  | .moveEnd a => Sys2Proof.Machine.execMoveEnd a s
  | .segmentEnd a => Sys2Proof.Machine.execSegmentEnd a s
  | .axPosWrite a v => Sys2Proof.Machine.execAxPosWrite a v s
  | .currentFrame a => Sys2Proof.Machine.execCurrentFrame a s
  | .standstill a => Sys2Proof.Machine.execStandstill a s
  | .axisPadMismatch a pad => Sys2Proof.Machine.execAxisPadMismatch a pad s
  | .trip a sw => Sys2Proof.Machine.execTrip a sw s
  | .tripClear a v => Sys2Proof.Machine.execTripClear a v s
  | .homeLatch a => Sys2Proof.Machine.execHomeLatch a s
  | .homeDone a => Sys2Proof.Machine.execHomeDone a s
  | .qeEnable q v => Sys2Proof.Machine.execQeEnable q v s
  | .illegal q => Sys2Proof.Machine.execIllegal q s
  | .wire q w => Sys2Proof.Machine.execWire q w s
  | .index q => Sys2Proof.Machine.execIndex q s
  | .still q => Sys2Proof.Machine.execStill q s
  | .qeCountWrite q v => Sys2Proof.Machine.execQeCountWrite q v s
  | .engineEnable v => Sys2Proof.Machine.execEngineEnable v s
  | .loopEnable l v => Sys2Proof.Machine.execLoopEnable l v s
  | .loopFrame => Sys2Proof.Machine.execLoopFrame s
  | .arm v => Sys2Proof.Machine.execArm v s
  | .force v => Sys2Proof.Machine.execForce v s
  | .traceDone => Sys2Proof.Machine.execTraceDone s
  | .tbIncNsWrite v => Sys2Proof.Machine.execTbIncNsWrite v s
  | .tbSet v => Sys2Proof.Machine.execTbSet v s
  | .tbAdj v => Sys2Proof.Machine.execTbAdj v s
  | .nowRead m flat => Sys2Proof.Machine.execNowRead m flat s
  | .xsStatRead m => Sys2Proof.Machine.execXsStatRead m s
  | .posRead m => Sys2Proof.Machine.execPosRead m s
  | .hwmRead m => Sys2Proof.Machine.execHwmRead m s
  | .qRead m l => Sys2Proof.Machine.execQRead m l s
  | .stateWordWrite sec s2 hi => Sys2Proof.Machine.execStateWordWrite sec s2 hi s
  | .crossStamp => Sys2Proof.Machine.execCrossStamp s
  | .tbXsCmd v => Sys2Proof.Machine.execTbXsCmd v s
  | .compare m => Sys2Proof.Machine.execCompare m s
  | .pulseStart n => Sys2Proof.Machine.execPulseStart n s
  | .pulseEnd n => Sys2Proof.Machine.execPulseEnd n s
  | .rxFrame e f => Sys2Proof.Machine.execRxFrame e f s
  | .tailWrite e tx v => Sys2Proof.Machine.execTailWrite e tx v s
  | .txFrame e phase => Sys2Proof.Machine.execTxFrame e phase s
  | .link e up => Sys2Proof.Machine.execLink e up s
  | .siWdg v => Sys2Proof.Machine.execSiWdg v s
  | .watchdogTrip => Sys2Proof.Machine.execWatchdogTrip s
  | .siEnb v => Sys2Proof.Machine.execSiEnb v s
  | .lapse => Sys2Proof.Machine.execLapse s
  | .enableReadbackMismatch enB => Sys2Proof.Machine.execEnableReadbackMismatch enB s
  | .dangerLine blk => Sys2Proof.Machine.execDangerLine blk s
  | .safeRel v => Sys2Proof.Machine.execSafeRel v s
  | .rearm => Sys2Proof.Machine.execRearm s
  | .startArm => Sys2Proof.Machine.execStartArm s
  | .pairDiscrepancy j => Sys2Proof.Machine.execPairDiscrepancy j s
  | .coreOut k => Sys2Proof.Machine.execCoreOut k s
  | .resync => Sys2Proof.Machine.execResync s
  | .twoOfTwo => Sys2Proof.Machine.execTwoOfTwo s
  | .jobWindow j => Sys2Proof.Machine.execJobWindow j s
  | .protCrcCheck => Sys2Proof.Machine.execProtCrcCheck s
  | .faultTake => Sys2Proof.Machine.execFaultTake s
  | .faultRecord => Sys2Proof.Machine.execFaultRecord s
  | .siHb k v => Sys2Proof.Machine.execSiHb k v s
  | .hbMiss k => Sys2Proof.Machine.execHbMiss k s
  | .latentTest failRow => Sys2Proof.Machine.execLatentTest failRow s
  | .stTest u => Sys2Proof.Machine.execStTest u s
  | .stRetire u => Sys2Proof.Machine.execStRetire u s
  | .stReturn u => Sys2Proof.Machine.execStReturn u s
  | .stSwitch u => Sys2Proof.Machine.execStSwitch u s
  | .stUpdate u => Sys2Proof.Machine.execStUpdate u s
  | .automaticTest cls => Sys2Proof.Machine.execAutomaticTest cls s
  | .testComplete u pass => Sys2Proof.Machine.execTestComplete u pass s
  | .pwrgoodRise => Sys2Proof.Machine.execPwrgoodRise s
  | .pwrgoodFall => Sys2Proof.Machine.execPwrgoodFall s
  | .supply rail => Sys2Proof.Machine.execSupply rail s
  | .crystalQualified x => Sys2Proof.Machine.execCrystalQualified x s
  | .crystalRetry => Sys2Proof.Machine.execCrystalRetry s
  | .crystalLost => Sys2Proof.Machine.execCrystalLost s
  | .pllLoss pll => Sys2Proof.Machine.execPllLoss pll s
  | .reqAwake m d => Sys2Proof.Machine.execReqAwake m d s
  | .reqStandby m d => Sys2Proof.Machine.execReqStandby m d s
  | .reqOff m d => Sys2Proof.Machine.execReqOff m d s
  | .wakeSource d src => Sys2Proof.Machine.execWakeSource d src s
  | .awake d => Sys2Proof.Machine.execAwake d s
  | .entryComplete d => Sys2Proof.Machine.execEntryComplete d s
  | .wakeLate d => Sys2Proof.Machine.execWakeLate d s
  | .ckSysrst m v => Sys2Proof.Machine.execCkSysrst m v s
  | .boot => Sys2Proof.Machine.execBoot s
  | .recovery => Sys2Proof.Machine.execRecovery s
  | .protLock => Sys2Proof.Machine.execProtLock s
  | .verify => Sys2Proof.Machine.execVerify s
  | .holdImage => Sys2Proof.Machine.execHoldImage s
  | .program => Sys2Proof.Machine.execProgram s
  | .verifyDone => Sys2Proof.Machine.execVerifyDone s
  | .svnAdv m v => Sys2Proof.Machine.execSvnAdv m v s
  | .pcieLinkUp speed width => Sys2Proof.Machine.execPcieLinkUp speed width s
  | .fireRisingEdge k => Sys2Proof.Machine.execFireRisingEdge k s
  | .qualifiedRelease a sw => Sys2Proof.Machine.execQualifiedRelease a sw s
  | .supplyRestored rail => Sys2Proof.Machine.execSupplyRestored rail s
  | .dangerousFaultClears code inst => Sys2Proof.Machine.execDangerousFaultClears code inst s
  | .pllRelock pll => Sys2Proof.Machine.execPllRelock pll s
  | .cxpLinkLock link rate => Sys2Proof.Machine.execCxpLinkLock link rate s

end Sys2Proof.Machine
end

