-- ==== Sys2Proof/Machine/Tick.lean ====
section
/-!
DEFINITION. A tick of the AO clock with no command waiting: what the blocks do with time.
-/

namespace Sys2Proof.Machine

/-- R55: FC runs at ten times the AO clock, and the cores count its cycles; the Sagger counts AO cycles. -/
def State.coreCycles (s : State) : State :=
  let s := s.each 4 fun k s =>
    if (s.ccAt k).running then s.onCc k fun x => { x with cycle := x.cycle + 10 } else s
  if s.sg.running then { s with sg := { s.sg with cycle := s.sg.cycle + 1 } } else s

/-- Position and motion: the timer source, the axes, the feed, the encoders and the loops. -/
def State.motionTick (s : State) : State :=
  let s := ((s.lcTake.lcTimerTick).each 12 fun c s => s.camBegins c).calTick
  let s := s.each 8 fun a s => s.axTick a
  let s := s.feedTick
  let s := s.each 10 fun q s => s.qeTick q
  (s.each 32 fun l s => s.loopTick l).leBoundary

/-- Data side: check-value FIFOs, image pipes, stopped channels, caches, a waiting test command, DRAM and the
host's transactions that wait for it. -/
def State.dataTick (s : State) : State :=
  let s := (s.each 8 fun u s => s.cvTick u).each 4 fun p s => s.whenClocked BLK_IP fun s => s.pipeRun p
  let s := (List.finRange 32).foldl (fun (s : State) (n : Fin 32) => s.dmaStops n) s
  let s := s.dmaTick.dcEvict.stResume.dramTick
  if s.hi.queue.isEmpty then s else s.hostRun s.hi.queue

/-- The Sagger acts on the danger lines and judges its inputs (R412, R415, R417), and a drive of the latent test ends
(R424). -/
def State.safetyTick (s : State) : State :=
  (if s.si.danger.isEmpty then s else s.each 27 fun b s => s.dangerLine b).siReview.blankEnds

/-- One tick of 10 ns. A reset holds the device as it is (R451, R453); none passes while the AO clock stands still
(R455). -/
def State.tick (s : State) : State :=
  if s.inReset then ({ s.heldReset with now := s.now + 1 } : State).tryClocks
  else if !s.aoRuns then s
  else
    ({ s with now := s.now + 1, top := { s.top with fresh := [], again := [] } } : State).coreCycles.tbTick.motionTick.dataTick.safetyTick

end Sys2Proof.Machine
end

