-- ==== Sys2Proof/Safety.lean ====
section
/-!
DEFINITION. The terms in which claims are stated: a safe run, the invariant of the state, and what a command
leaves unchanged.
-/

namespace Sys2Proof.Machine

/-- A step that neither stops with a fault nor refuses. -/
def Proceeds (s : State) : Prop := ∃ t, step s = .next t

/-- The canonical form of registers and memory: equal contents are equal data. -/
def State.Inv (s : State) : Prop := Tbl.wf regReset s.regs = true ∧ memWf s.mem = true

/-- Every register outside a list is unchanged. -/
def RegsBut (s t : State) (l : List Nat) : Prop := ∀ off, off ∉ l → t.reg off = s.reg off

/-- Every byte of memory outside `n` bytes from an address is unchanged. -/
def MemBut (s t : State) (a n : Nat) : Prop :=
  ∀ x, x < a ∨ a + n ≤ x → memByte t.mem x = memByte s.mem x

/-- `t` is `s` but for registers, messages to the host, and faults on their way to the Sagger: memory,
the queue of commands and every block's own state are unchanged. -/
def Quiet (s t : State) : Prop :=
  t = { s with
    regs := t.regs,
    top := { s.top with holdoff := t.top.holdoff, requested := t.top.requested, sent := t.top.sent,
                        fresh := t.top.fresh, again := t.top.again },
    si := { s.si with queues := t.si.queues, blkLoss := t.si.blkLoss, seq := t.si.seq,
                      danger := t.si.danger, windows := t.si.windows, lastingSrc := t.si.lastingSrc } }

/-- The registers that the reports of events of some blocks, and of faults, may change: their event
status, SI_CNT 1, and the Pending Bits of the host's vectors. -/
def reportRegs (blks : List Nat) : List Nat :=
  blks.map evtReg ++ [evtReg BLK_SI, SI_CNT 1] ++ (List.range 8).map MSIX_PBA

/-- What a command leaves unchanged: all but the registers of a list and the reports of some blocks. -/
def Frame (s t : State) (regs blks : List Nat) : Prop := Quiet s t ∧ RegsBut s t (regs ++ reportRegs blks)

/-- A fault with this code, instance and detail is the last that its block has queued for the Sagger, or
the block's queue of eight was full and the loss is noted (R417, R418). -/
def Reported (s t : State) (code : BitVec 16) (inst : BitVec 8) (info : BitVec 48) : Prop :=
  let q := s.si.queues.get [] (codeBlk code)
  if q.length < 8 then
    ∃ f : FaultIn, f.code = code ∧ f.inst = inst ∧ f.info = info ∧
      t.si.queues.get [] (codeBlk code) = q ++ [f]
  else t.si.blkLoss.get false (codeBlk code) = true

/-- The status bit of an event is set (R20). -/
def EventSet (t : State) (blk n : Nat) : Prop := t.rbit (evtReg blk) n = true

/-- A message has left on a vector, and its interval of 1 µs begins (R22). -/
def MessageSent (s t : State) (v : Nat) : Prop :=
  t.top.sent.get 0 v = s.top.sent.get 0 v + 1 ∧ t.top.holdoff.get none v = some s.now ∧
    t.top.requested.get false v = false

/-- What a write by the access types leaves in a register (R3, R4, R465): RW bits take the value, RWL bits
do so before the PROT lock, W1C bits clear where the value has a 1 and hardware set none in this cycle, and
all other bits keep theirs. -/
def State.typedValue (s : State) (d : RegDef) (off : Nat) (v : Word) : Word :=
  let rw := if s.bit PROT_LOCK PROT_LOCK_LOCK then d.rw else d.rw ||| d.rwl
  ((s.reg off &&& ~~~rw) ||| (v &&& rw)) &&& ~~~(v &&& d.w1c &&& ~~~(s.top.fresh.get 0 off))

/-- A command of a master at a register that PROT denies: no register outside the reports changes (R465). -/
def Denied (s : State) (m : Master) (off : Nat) (write : Bool) (i : Instr) : Prop :=
  s.permits m (regAddr off) write = false →
    ∃ t, exec i s = .next t ∧ Frame s t (if m = .host then [HI_CNT 0] else []) []

/-- A command at a register of a fast domain that is not awake is ignored and logged (R9). -/
def Asleep (s : State) (off : Nat) (i : Instr) : Prop :=
  s.awake (off / 0x100000) = false →
    ∃ t, exec i s = .next t ∧ Frame s t [] [] ∧
      Reported s t (commonCode 0 (off / 0x100000) 0x39) 0xFF (BitVec.ofNat 48 (regAddr off))

/-- A command that the block of a register ignores and logs (R421 cause 0x38). -/
def Ignored (s : State) (off : Nat) (i : Instr) : Prop :=
  ∃ t, exec i s = .next t ∧ Frame s t [] [] ∧
    Reported s t (commonCode 0 (off / 0x100000) 0x38) 0xFF (BitVec.ofNat 48 (regAddr off))

/-- The state with a semaphore access of a master granted by the register bus and the semaphore unit. -/
def State.semGranted (s : State) (m : Master) : State :=
  match semIx m with
  | some i => (s.busGrant m).grant rrSem 6 i
  | none => s.busGrant m

/-! ### Cores -/

/-- A core can run an instruction of `words` words and a cost to its end: a control core or the Sagger
issues and its fetch raises no exception; an expansion core renders a tile outside a REP, the words lie
in its data memory, and its declared cost allows the cycles. -/
def Ready (s : State) (c : Core) (words cost : Nat) : Prop :=
  match c with
  | .xc x =>
    s.xcLive x = true ∧ (s.xcAt x).rep = none ∧ (s.xcAt x).pc.toNat + 4 * words ≤ localTop ∧
      (s.xcAt x).cycles + cost ≤ (s.xcAt x).cost
  | .cc k => s.issues (.cc k) = true ∧ (s.fetch (.cc k) words).1 = none
  | .sg => s.issues .sg = true ∧ (s.fetch .sg words).1 = none

/-- The state in which an instruction acts: its words are fetched. -/
def State.fetched (s : State) (c : Core) (words : Nat) : State :=
  match c with
  | .xc _ => s
  | .cc k => (s.fetch (.cc k) words).2
  | .sg => (s.fetch .sg words).2

/-- The registers that an access to DRAM may change: its counts, and the states of the ranks that it meets. -/
def dramRegs : List Nat :=
  [MC_CNT 4, MC_CNT 5] ++ (List.range 8).flatMap fun c => (List.range 4).map fun r => MC_RK_STAT c r

/-- The state with what reads of DRAM leave at its controller, and at the pointers of its ports, taken from
another. -/
def State.withDram (s t : State) : State :=
  { s with mc := t.mc, top := { s.top with rrPtr := t.top.rrPtr } }

/-- DRAM takes a write of up to `n` lines at once: no change of its frequency point, no sweep, no migration and
no request that waits or is granted, every rank awake, and room in every write buffer. -/
def State.dramOpen (s : State) (n : Nat) : Prop :=
  s.freqBusy = false ∧ s.mc.waiting = [] ∧ s.mc.granted = [] ∧ ∀ c : Fin 8, (s.chanAt c).gather = none ∧
    (s.chanAt c).mig = none ∧ (s.chanAt c).wbuf.length + n ≤ 128 ∧ ∀ r : Fin 4, s.srOf c r = srAwake

/-- What a command that writes memory leaves unchanged: all but memory, what a write does to DRAM's ranks,
channels and waiting requests and to the pointers of its ports, the registers of a list and the reports. -/
def MemFrame (s t : State) (regs blks : List Nat) : Prop :=
  Frame { s with mem := t.mem, poison := t.poison, mc := t.mc, top := { s.top with rrPtr := t.top.rrPtr } } t
    (regs ++ dramRegs) blks

/-- Every byte of a range is memory that a write may change whole. -/
def State.plainMem (s : State) (a n : Nat) : Prop :=
  ∀ j, j < n → s.region (a + j) ≠ .unmapped ∧ s.region (a + j) ≠ .regs ∧ readOnlyByte (a + j) = false ∧
    fieldBits (a + j) = 0xFF

/-- A block's own write of bytes: memory beside them is unchanged, and they stand in memory that DRAM
takes at once. -/
def BlockWrote (s t : State) (a : Nat) (bs : List Byte) : Prop :=
  MemBut s t a bs.length ∧
    (s.dramOpen (bs.length / 64 + 2) → s.plainMem a bs.length → t.loadBytes a bs.length = bs)

/-- No core but `c` has changed. -/
def OtherCores (s t : State) (c : Core) : Prop :=
  (∀ y : Fin 144, c ≠ .xc y → t.xcAt y = s.xcAt y) ∧ (∀ k : Fin 4, c ≠ .cc k → t.ccAt k = s.ccAt k) ∧
    (c ≠ .sg → t.sg = s.sg)

/-- What an instruction leaves of its own core: all but the general registers, the PC and the counts. -/
def OwnCore (s t : State) (c : Core) (pc : Word) (cost : Nat) : Prop :=
  match c with
  | .xc x => t.xcAt x =
      { s.xcAt x with g := (t.xcAt x).g, pc := pc, cycles := (s.xcAt x).cycles + cost }
  | .cc k => t.ccAt k =
      { s.ccAt k with g := (t.ccAt k).g, pc := pc, instret := (s.ccAt k).instret + 1 }
  | .sg => t.sg = { s.sg with g := t.sg.g, pc := pc, instret := s.sg.instret + 1 }

/-- From the state after its fetch, the instruction has run to its end and the core continues at `pc`; no
register of the device, no memory and no other core has changed. -/
def Ran (s t : State) (c : Core) (pc : Word) (cost : Nat) : Prop :=
  t = { s with xc := t.xc, cc := t.cc, sg := t.sg } ∧ OtherCores s t c ∧ OwnCore s t c pc cost

/-- `rd` holds a value, g0 excepted, and every other general register of the core is unchanged (R27). -/
def Wrote (s t : State) (c : Core) (rd : BitVec 5) (v : Word) : Prop :=
  ∀ r, t.coreG c r = if r = rd ∧ rd ≠ 0 then v else s.coreG c r

/-- The core of any kind that a core of the system profile is. -/
def coreOf : IsCore → Core
  | .cc k => .cc k
  | .sg => .sg

/-- A trap (R52): the registers that it saves into, the mode, and where the core continues. General
registers and the other system registers, but those of a list, are unchanged. -/
def Trapped (s t : State) (c : IsCore) (cause : Nat) (epc eaddr : Word) (also : List Nat := []) : Prop :=
  (t.isAt c).pc = s.sr c 5 + BitVec.ofNat 32 (4 * cause) ∧
  t.sr c 2 = epc ∧ t.sr c 3 = BitVec.ofNat 32 cause ∧ t.sr c 4 = eaddr ∧
  (t.sr c 1).getLsbD 0 = false ∧ (t.sr c 1).getLsbD 1 = (s.sr c 1).getLsbD 0 ∧
  (t.sr c 1).getLsbD 2 = true ∧ (t.sr c 1).getLsbD 3 = (s.sr c 1).getLsbD 2 ∧
  (∀ n, n ∉ [1, 2, 3, 4] ++ also → t.sr c n = s.sr c n) ∧ (∀ r, t.isG c r = s.isG c r) ∧
  (t.isAt c).running = (s.isAt c).running ∧ (t.isAt c).wfi = (s.isAt c).wfi ∧
  t.mem = s.mem ∧ t.dcache = s.dcache ∧ OtherCores s t (coreOf c)

end Sys2Proof.Machine
end

