-- ==== Sys2Proof/WellFormed.lean ====
section
/-!
DEFINITION. The commands that can reach the device: what the operand types leave open and the spec bounds.
-/

namespace Sys2Proof

/-- Blend modes of a raster instruction; 5 to 7 are illegal words (R61). -/
def blends (m : BitVec 3) : Bool := m.toNat < 5

/-- The size of a BAR (R317). -/
def barSize : Bar → Nat
  | .bar0 => 2 ^ 26
  | .bar2 => 2 ^ 28
  | .bar4 => 2 ^ 36

/-- A DRAM request stays within the 256-byte block of one channel (R288). -/
def inBlock (addr : BitVec 48) (len : Nat) : Bool := addr.toNat % 256 + len ≤ 256

/-- The hints that the requester of a port gives (R299). -/
def hintOf (port : Fin 8) (h : PageHint) : Bool :=
  match port.val with
  | 0 => h != .none
  | 1 | 2 | 3 => h == .keep
  | 4 | 6 => h == .none
  | 5 => true
  | _ => h == .close

/-- The sources that a port merges (R18): the clusters, the control cores, the DMA channels, or one. -/
def sourcesOf (port : Nat) : Nat := [18, 1, 1, 1, 4, 32, 1, 1].getD port 1

/-- A well-formed command: a register offset is a word's (R473), an illegal word is not legal (R28), a host
access fits its BAR and the transaction sizes (R316, R317), a STATUS has 40 bytes (R198), samples have 12
bits (R216), a mailbox carries 256 bytes (R222), a frame has its header (R396), temperatures lie in the range of
a DIMM sensor (R300; the range is PRESUMED), a link has a speed and a width of HI_LINK_STAT, and a unit has a number (R428). -/
def Instr.wf : Instr → Bool
  | .registerWrite _ off _ => off.toNat % 4 == 0
  | .evtRouteWrite _ _ _ => true
  | .vectorHoldoffExpiry _ => true
  | .vectorUnmask _ => true
  | .add _ _ _ _ => true
  | .sub _ _ _ _ => true
  | .and _ _ _ _ => true
  | .or _ _ _ _ => true
  | .xor _ _ _ _ => true
  | .andn _ _ _ _ => true
  | .sll _ _ _ _ => true
  | .srl _ _ _ _ => true
  | .sra _ _ _ _ => true
  | .ror _ _ _ _ => true
  | .slt _ _ _ _ => true
  | .sltu _ _ _ _ => true
  | .min _ _ _ _ => true
  | .max _ _ _ _ => true
  | .minu _ _ _ _ => true
  | .maxu _ _ _ _ => true
  | .clz _ _ _ => true
  | .ctz _ _ _ => true
  | .popc _ _ _ => true
  | .mul _ _ _ _ => true
  | .mulh _ _ _ _ => true
  | .mulhu _ _ _ _ => true
  | .div _ _ _ _ => true
  | .divu _ _ _ _ => true
  | .rem _ _ _ _ => true
  | .remu _ _ _ _ => true
  | .addi _ _ _ _ => true
  | .andi _ _ _ _ => true
  | .ori _ _ _ _ => true
  | .xori _ _ _ _ => true
  | .slti _ _ _ _ => true
  | .sltiu _ _ _ _ => true
  | .slli _ _ _ _ => true
  | .srli _ _ _ _ => true
  | .srai _ _ _ _ => true
  | .lui _ _ _ => true
  | .jalr _ _ _ _ => true
  | .lb _ _ _ _ => true
  | .lbu _ _ _ _ => true
  | .lh _ _ _ _ => true
  | .lhu _ _ _ _ => true
  | .lw _ _ _ _ => true
  | .sb _ _ _ _ => true
  | .sh _ _ _ _ => true
  | .sw _ _ _ _ => true
  | .beq _ _ _ _ => true
  | .bne _ _ _ _ => true
  | .blt _ _ _ _ => true
  | .bge _ _ _ _ => true
  | .bltu _ _ _ _ => true
  | .bgeu _ _ _ _ => true
  | .j _ _ => true
  | .jal _ _ => true
  | .liw _ _ _ => true
  | .addiw _ _ _ _ => true
  | .andiw _ _ _ _ => true
  | .oriw _ _ _ _ => true
  | .xoriw _ _ _ _ => true
  | .jw _ _ _ => true
  | .udf _ _ => true
  | .illegalInstruction c word => !Machine.wordLegal c word
  | .srr _ _ _ => true
  | .srw _ _ _ => true
  | .srset _ _ _ _ => true
  | .srclr _ _ _ _ => true
  | .ecall _ => true
  | .eret _ => true
  | .wfi _ => true
  | .wfiContinue _ => true
  | .fence _ => true
  | .dcwb _ _ => true
  | .dcinv _ _ => true
  | .dcflush _ _ => true
  | .icinv _ _ => true
  | .interrupt _ => true
  | .semRead _ _ => true
  | .semRel _ _ => true
  | .semForce _ _ => true
  | .clr _ _ => true
  | .setl _ _ => true
  | .tend _ => true
  | .sld _ _ _ => true
  | .sst _ _ _ => true
  | .sset _ _ _ _ => true
  | .sget _ _ _ _ => true
  | .rep _ _ _ => true
  | .span _ _ _ m => blends m
  | .trapShape _ _ _ _ m => blends m
  | .cell _ _ _ m => blends m
  | .blit _ _ _ _ _ m => blends m
  | .unpk _ _ _ _ m => blends m
  | .glyph _ _ _ _ _ m => blends m
  | .vfld _ _ _ m => blends m
  | .vld _ _ _ => true
  | .vst _ _ _ => true
  | .vldt _ _ _ => true
  | .vstt _ _ _ m => blends m
  | .vspl _ _ _ => true
  | .vadds _ _ _ _ => true
  | .vsubs _ _ _ _ => true
  | .vmin _ _ _ _ => true
  | .vmax _ _ _ _ => true
  | .vmuls _ _ _ _ => true
  | .vover _ _ _ _ => true
  | .vext _ _ _ _ => true
  | .vsum _ _ _ => true
  | .meteringStop _ => true
  | .tileStart _ => true
  | .bufferReadAndClear _ => true
  | .admitJob _ => true
  | .admissionComplete _ => true
  | .slotStart _ => true
  | .release _ => true
  | .lineEvent => true
  | .prefetch _ => true
  | .vote _ _ _ => true
  | .releasedAsZeroDose _ _ _ => true
  | .rateChange => true
  | .packetSet => true
  | .commit => true
  | .receiverIndexBuilt => true
  | .hold _ => true
  | .lcSet _ _ => true
  | .acceptedCount _ _ => true
  | .strobeEnd _ => true
  | .padCut _ => true
  | .fsCutclr _ _ => true
  | .padLevelMismatch _ => true
  | .calFail _ => true
  | .gateQualified _ _ => true
  | .headAlert _ _ => true
  | .headResume _ => true
  | .prodTrigger _ _ => true
  | .pqPop _ => true
  | .camtrigEnd _ => true
  | .feedHold => true
  | .feedStopped => true
  | .feedReady => true
  | .laneEnable _ _ => true
  | .phaseComplete _ => true
  | .phaseTimeout _ => true
  | .blockLock _ => true
  | .lossOfLock _ => true
  | .los _ => true
  | .cdrLoss _ => true
  | .cap _ _ _ => true
  | .rate _ => true
  | .ready _ => true
  | .dose _ => true
  | .cfgw _ _ => true
  | .lanes _ => true
  | .heartbeat _ hb => hb.sop.typ != 5
  | .deviceHeartbeat _ => true
  | .status _ st => st.body.length == 40
  | .overdue _ => true
  | .restartBringup _ => true
  | .hubOffline _ => true
  | .statusLate _ => true
  | .streamPacket _ pkt => (pkt.samples ++ pkt.later.flatten).all fun x => x.toNat < 4096
  | .linkDown _ => true
  | .cameraEvent _ => true
  | .imageHeader _ _ => true
  | .lineReceived _ _ => true
  | .entryAged _ => true
  | .stripeGrant _ => true
  | .stripeDone _ => true
  | .check => true
  | .checkDone => true
  | .camCfgWrite _ _ => true
  | .mbxGo _ _ => true
  | .mbxDone _ r => match r with | .ok data => data.length ≤ 256 | .wait => true | .error _ => true | .badCrc => true
  | .mbxTimeout _ => true
  | .previewRow _ => true
  | .roiDone _ _ => true
  | .calGo _ _ => true
  | .calDone _ => true
  | .pipeFail _ => true
  | .bqWrite _ _ => true
  | .lineRecordArrival => true
  | .stitchedRow => true
  | .registrationStep => true
  | .healthIntervalEnd => true
  | .recordWrite => true
  | .veEnable _ => true
  | .veDisable _ => true
  | .mcEnable _ => true
  | .init _ _ => true
  | .ca _ _ => true
  | .wlev _ _ => true
  | .rdqs _ _ => true
  | .rdeye _ _ => true
  | .wreye _ _ => true
  | .osc _ _ => true
  | .trnDone _ _ => true
  | .delayEntryWrite _ _ _ _ _ => true
  | .freqChange _ => true
  | .freqDone => true
  | .dramRequest x addr op => hintOf x.port x.hint && (x.src.val < sourcesOf x.port) && match op with | .read len _ => 1 ≤ len && inBlock addr len | .write data => 1 ≤ data.length && inBlock addr data.length
  | .panic _ _ => true
  | .refresh _ _ => true
  | .zqCalibration _ _ => true
  | .temperaturePoll _ _ celsius => -256 ≤ celsius && celsius ≤ 255
  | .selfRefreshEntry _ _ => true
  | .selfRefreshExit _ _ => true
  | .scrub _ _ => true
  | .caParityError _ _ _ => true
  | .migrationStart _ _ => true
  | .migrationAbort _ _ => true
  | .migDone _ => true
  | .sideband _ _ => true
  | .sidebandDone _ _ _ => true
  | .hostWrite bar x data _ => 1 ≤ data.length && data.length ≤ 512 && x.toNat + data.length ≤ barSize bar
  | .hostRead bar x len => 1 ≤ len && len ≤ 4096 && x.toNat + len ≤ barSize bar
  | .functionLevelReset => true
  | .pcieLinkDown => true
  | .perstN _ => true
  | .doorbell _ _ => true
  | .hiSwevt _ => true
  | .channelStart _ => true
  | .channelAbort _ => true
  | .chainPoke _ _ => true
  | .fetch _ => true
  | .complete _ => true
  | .arrived _ => true
  | .endchk _ => true
  | .completionTimeout _ => true
  | .cvData8 _ _ => true
  | .cvData16 _ _ => true
  | .cvData32 _ _ => true
  | .cvStart _ _ => true
  | .cvEnd _ _ => true
  | .cvValueWrite _ _ => true
  | .move _ _ => true
  | .velocity _ _ => true
  | .segments _ _ => true
  | .rampStop _ _ => true
  | .hardStop _ _ => true
  | .home _ _ => true
  | .moveEnd _ => true
  | .segmentEnd _ => true
  | .axPosWrite _ _ => true
  | .currentFrame _ => true
  | .standstill _ => true
  | .axisPadMismatch _ _ => true
  | .trip _ _ => true
  | .tripClear _ _ => true
  | .homeLatch _ => true
  | .homeDone _ => true
  | .qeEnable _ _ => true
  | .illegal _ => true
  | .wire _ _ => true
  | .index _ => true
  | .still _ => true
  | .qeCountWrite _ _ => true
  | .engineEnable _ => true
  | .loopEnable _ _ => true
  | .loopFrame => true
  | .arm _ => true
  | .force _ => true
  | .traceDone => true
  | .tbIncNsWrite _ => true
  | .tbSet _ => true
  | .tbAdj _ => true
  | .nowRead _ _ => true
  | .xsStatRead _ => true
  | .posRead _ => true
  | .hwmRead _ => true
  | .qRead _ _ => true
  | .stateWordWrite _ _ _ => true
  | .crossStamp => true
  | .tbXsCmd _ => true
  | .compare _ => true
  | .pulseStart _ => true
  | .pulseEnd _ => true
  | .rxFrame _ f => 14 ≤ f.bytes.length
  | .tailWrite _ _ _ => true
  | .txFrame _ _ => true
  | .link _ _ => true
  | .siWdg _ => true
  | .watchdogTrip => true
  | .siEnb _ => true
  | .lapse => true
  | .enableReadbackMismatch _ => true
  | .dangerLine _ => true
  | .safeRel _ => true
  | .rearm => true
  | .startArm => true
  | .pairDiscrepancy _ => true
  | .coreOut _ => true
  | .resync => true
  | .twoOfTwo => true
  | .jobWindow _ => true
  | .protCrcCheck => true
  | .faultTake => true
  | .faultRecord => true
  | .siHb _ _ => true
  | .hbMiss _ => true
  | .latentTest _ => true
  | .stTest u => u.toNat < 263
  | .stRetire u => u.toNat < 263
  | .stReturn u => u.toNat < 263
  | .stSwitch u => u.toNat < 263
  | .stUpdate u => u.toNat < 263
  | .automaticTest _ => true
  | .testComplete u _ => u.toNat < 263
  | .pwrgoodRise => true
  | .pwrgoodFall => true
  | .supply _ => true
  | .crystalQualified _ => true
  | .crystalRetry => true
  | .crystalLost => true
  | .pllLoss _ => true
  | .reqAwake _ _ => true
  | .reqStandby _ _ => true
  | .reqOff _ _ => true
  | .wakeSource _ _ => true
  | .awake _ => true
  | .entryComplete _ => true
  | .wakeLate _ => true
  | .ckSysrst _ _ => true
  | .boot => true
  | .recovery => true
  | .protLock => true
  | .verify => true
  | .holdImage => true
  | .program => true
  | .verifyDone => true
  | .svnAdv _ _ => true
  | .pcieLinkUp speed width => 1 ≤ speed.toNat && speed.toNat ≤ 5 && [1, 2, 4, 8].contains width.toNat
  | .fireRisingEdge _ => true
  | .qualifiedRelease _ _ => true
  | .supplyRestored _ => true
  | .dangerousFaultClears _ _ => true
  | .pllRelock _ => true
  | .cxpLinkLock _ _ => true

end Sys2Proof
end

