-- ==== Sys2Proof/Certificates/Slice0/Obligations.lean ====
section
/-!
DEFINITION. The statements about the device, family by family.
-/

open Sys2Proof Sys2Proof.Machine

/-! ### The queue of commands -/

/-- One step runs the command at the front of the queue on the state with the rest of the queue; with no
command waiting, a tick passes (log entry 1). -/
def Obligations.StepRunsTheFrontCommand : Prop :=
  (∀ (s : State) (c : Instr) (rest : List Instr),
    s.pending = c :: rest → step s = exec c { s with pending := rest }) ∧
  (∀ s : State, s.pending = [] → step s = .next s.tick)

/-- No command of the device and no tick stops it: every step answers a next state. -/
def Obligations.EveryStepProceeds : Prop := ∀ s : State, ∃ t, step s = .next t

/-! ### The invariant -/

/-- Every step keeps registers and memory in canonical form, from every state that has it. -/
def Obligations.StepKeepsTheCanonicalForm : Prop := ∀ s t : State, s.Inv → step s = .next t → t.Inv

/-- The reset state has the canonical form. -/
def Obligations.ResetIsCanonical : Prop := State.reset.Inv

/-- R474, R451: after power-on reset every register reads its reset value, memory reads zero, no command
waits, and no core runs. Zero for memory and for the registers that the spec leaves open is the model's
choice (log entries 4 and 5).
Choices of the model, not of the spec: memory reads zero after reset (log entry 4); registers whose reset
value the spec leaves open are zero (log entry 5). -/
def Obligations.ResetLeavesResetValues : Prop :=
  (∀ off, State.reset.reg off = regReset off) ∧ (∀ a, memByte State.reset.mem a = 0) ∧
  State.reset.pending = [] ∧ (∀ k : Fin 4, (State.reset.ccAt k).running = false) ∧
  State.reset.sg.running = false ∧ (∀ x : Fin 144, (State.reset.xcAt x).tile = none) ∧
  (∀ (c : IsCore) (r : Nat), State.reset.isG c r = 0)

/-! ### Registers -/

/-- The registers whose write does more than R3 says, beside what an event router's enable does: the chapters
of their blocks give their effects. -/
def ownEffect (base off : Nat) : Bool :=
  [SEM_REL, SEM_FORCE, CK_DOM 0, CK_SYSRST, SI_SAFE_REL, SI_ENB, SI_WDG, SI_HBEN, SI_HB 0, SLOT_CMD 0,
    JOB_BASE_LO 0, JOB_BASE_HI 0, DS_CTRL, DS_EPOCH_CMD, LC_CTRL, LC_SET_HI, PQ_POP, FS_CTRL, FS_HUB 0,
    FS_CUTCLR, GATE_CFG 0, DL_LANE_CFG 0, DL_CFGW 0, CXR_CHECK, CAM_CFG 0, CAM_GEOM 0, CAM_LAT 0, MBX_CMD 0,
    CAL_CTRL 0, IP_PIPE 0, IPC_CFG 0, VE_CTRL, VE_CAM_DX 0, VE_CAM_DY 0, MC_CFG, MC_FREQ_CMD, MC_TRN_CMD 0,
    MC_MIG_CMD 0, MC_SB 0, MC_DELAY 0 0 0 0, HI_DB 0, HI_SWEVT, MSIX_CTRL 0, CH_HEAD_LO 0, CH_HEAD_HI 0,
    CH_CTRL 0, CHAIN_POKE 0, AX_CFG 0, AX_CMD 0, AX_POS 0, AX_FLAG 0, QE_CFG 0, QE_COUNT 0, QE_SOFT_LO 0,
    QE_SOFT_HI 0, LE_CTRL, LP_CFG 0, LE_TRIG, TR_CFG 0, TB_INC_NS, TB_SET_SHI, TB_ADJ_HI, TB_XS_CMD,
    TB_CMP_CTL 0, TP_CFG 0, EN_CFG 0, ST_CMD, BOOT_VCMD, BOOT_SVN_ADV].contains base ||
  decide (ROI_CTRL 0 0 ≤ base ∧ base < ROI_STAT 0 0) || veProtected base ||
  decide (MC_PORT_CFG0 ≤ off ∧ off < MC_PORT_CFG0 + 32) ||
  decide (CV_CFG 0 ≤ base ∧ base / 0x100000 = BLK_CV)

/-- A permitted write of a register does what a command with a row of its own does from a state. -/
def writeDoes (s : State) (m : Master) (off : Nat) (v : Word) (i : Instr) (s' : State) : Prop :=
  s.permits m (regAddr off) true = true → exec (.registerWrite m (BitVec.ofNat 26 off) v) s = exec i s'

/-- The registers whose write is a row of its own: with the master that asks, and without it once the bus
has granted the access. -/
def writesAreRows (s : State) (m : Master) (v : Word) : Prop :=
  let row := fun off i => writeDoes s m off v i s
  let granted := fun off i => writeDoes s m off v i (s.busGrant m)
  (row SEM_REL (.semRel m v) ∧ row SEM_FORCE (.semForce m v) ∧ row CK_SYSRST (.ckSysrst m v) ∧
    row LC_SET_HI (.lcSet m v) ∧ row FS_CUTCLR (.fsCutclr m v) ∧ row BOOT_SVN_ADV (.svnAdv m v)) ∧
  (granted SI_SAFE_REL (.safeRel v) ∧ granted SI_ENB (.siEnb v) ∧ granted SI_WDG (.siWdg v) ∧
    granted PQ_POP (.pqPop v) ∧ granted HI_SWEVT (.hiSwevt v) ∧ granted LE_CTRL (.engineEnable v) ∧
    granted TB_INC_NS (.tbIncNsWrite v) ∧ granted TB_SET_SHI (.tbSet v) ∧ granted TB_ADJ_HI (.tbAdj v) ∧
    granted TB_XS_CMD (.tbXsCmd v)) ∧
  (∀ k : Fin 4, granted (SI_HB k) (.siHb k v) ∧ granted (CAL_CTRL k) (.calGo k v)) ∧
  (∀ u : Fin 8, granted (CV_DATA8 u) (.cvData8 u v) ∧ granted (CV_DATA16 u) (.cvData16 u v) ∧
    granted (CV_DATA32 u) (.cvData32 u v) ∧ granted (CV_START u) (.cvStart u v) ∧
    granted (CV_END u) (.cvEnd u v) ∧ granted (CV_VALUE u) (.cvValueWrite u v) ∧
    granted (AX_POS u) (.axPosWrite u v) ∧ granted (AX_FLAG u) (.tripClear u v)) ∧
  (∀ q : Fin 10, granted (QE_CFG q) (.qeEnable q v) ∧ granted (QE_COUNT q) (.qeCountWrite q v)) ∧
  (∀ n : Fin 12, granted (CAM_CFG n) (.camCfgWrite n v) ∧ granted (MBX_CMD n) (.mbxGo n v)) ∧
  (∀ n : Fin 16, granted (HI_DB n) (.doorbell n v) ∧ granted (DL_CFGW n) (.cfgw n v)) ∧
  (∀ n : Fin 32, granted (DL_LANE_CFG n) (.laneEnable n v) ∧ granted (CHAIN_POKE n) (.chainPoke n v) ∧
    granted (LP_CFG n) (.loopEnable n v))

/-- The registers whose write is a row of its own for some values of its fields. -/
def commandsAreRows (s : State) (m : Master) (v : Word) : Prop :=
  let row := fun off i => writeDoes s m off v i s
  let granted := fun off i => writeDoes s m off v i (s.busGrant m)
  (∀ d : Fin 3, (v = fldPut CK_DOM_REQ 2 (s.reg (CK_DOM d)) → row (CK_DOM d) (.reqAwake m d)) ∧
    (v = fldPut CK_DOM_REQ 1 (s.reg (CK_DOM d)) → row (CK_DOM d) (.reqStandby m d)) ∧
    (v = fldPut CK_DOM_REQ 0 (s.reg (CK_DOM d)) → row (CK_DOM d) (.reqOff m d))) ∧
  (∀ n : Fin 864, row (EVT_ROUTE n) (.evtRouteWrite m n v)) ∧
  (∀ n : Fin 256, v = 0 → granted (MSIX_CTRL n) (.vectorUnmask n)) ∧
  (∀ j : Fin 2, (fldGet SLOT_CMD_CMD v = 1 → granted (SLOT_CMD j) (.admitJob j)) ∧
    (fldGet SLOT_CMD_CMD v = 2 → granted (SLOT_CMD j) (.slotStart j)) ∧
    (fldGet SLOT_CMD_CMD v = 3 → granted (SLOT_CMD j) (.release j))) ∧
  (fldGet DS_EPOCH_CMD_COMMIT v = 1 → granted DS_EPOCH_CMD .commit) ∧
  (fldGet CXR_CHECK_GO v = 1 → granted CXR_CHECK .check) ∧
  (if fldGet VE_CTRL_EN v = 1 then granted VE_CTRL (.veEnable v) else granted VE_CTRL (.veDisable v)) ∧
  (fldGet MC_CFG_ENABLE v = 1 → granted MC_CFG (.mcEnable v)) ∧
  (fldGet MC_FREQ_CMD_GO v = 1 → granted MC_FREQ_CMD (.freqChange v)) ∧
  (∀ c : Fin 8, (fldGet MC_TRN_CMD_GO v = 1 →
      (fldGet MC_TRN_CMD_OP v = 0 → granted (MC_TRN_CMD c) (.init c v)) ∧
      (fldGet MC_TRN_CMD_OP v = 1 → granted (MC_TRN_CMD c) (.ca c v)) ∧
      (fldGet MC_TRN_CMD_OP v = 2 → granted (MC_TRN_CMD c) (.wlev c v)) ∧
      (fldGet MC_TRN_CMD_OP v = 3 → granted (MC_TRN_CMD c) (.rdqs c v)) ∧
      (fldGet MC_TRN_CMD_OP v = 4 → granted (MC_TRN_CMD c) (.rdeye c v)) ∧
      (fldGet MC_TRN_CMD_OP v = 5 → granted (MC_TRN_CMD c) (.wreye c v)) ∧
      (fldGet MC_TRN_CMD_OP v = 6 → granted (MC_TRN_CMD c) (.osc c v))) ∧
    (fldGet MC_MIG_CMD_CMD v = 1 → granted (MC_MIG_CMD c) (.migrationStart c v)) ∧
    (fldGet MC_MIG_CMD_CMD v = 2 → granted (MC_MIG_CMD c) (.migrationAbort c v)) ∧
    (fldGet MC_SB_GO v = 1 → granted (MC_SB c) (.sideband c v)) ∧
    ∀ (p r : BitVec 2) (e : Fin 116),
      granted (MC_DELAY c p.toNat r.toNat e) (.delayEntryWrite c p r e v)) ∧
  (∀ n : Fin 32, fldGet CH_CTRL_START v = 1 → fldGet CH_CTRL_ABORT v = 0 →
    granted (CH_CTRL n) (.channelStart n)) ∧
  (∀ a : Fin 8, (fldGet AX_CMD_CMD v = 1 → granted (AX_CMD a) (.move a v)) ∧
    (fldGet AX_CMD_CMD v = 2 → granted (AX_CMD a) (.velocity a v)) ∧
    (fldGet AX_CMD_CMD v = 3 → granted (AX_CMD a) (.segments a v)) ∧
    (fldGet AX_CMD_CMD v = 4 → granted (AX_CMD a) (.rampStop a v)) ∧
    (fldGet AX_CMD_CMD v = 5 → granted (AX_CMD a) (.hardStop a v)) ∧
    (fldGet AX_CMD_CMD v = 6 → granted (AX_CMD a) (.home a v))) ∧
  (v.getLsbD 31 = true → granted LE_TRIG (.arm v)) ∧ (v.getLsbD 30 = true → granted LE_TRIG (.force v)) ∧
  (∀ e : Fin 2, granted (EN_TX_TAIL e) (.tailWrite e true v) ∧ granted (EN_RX_TAIL e) (.tailWrite e false v)) ∧
  (let u := BitVec.ofNat 9 (fldGet ST_CMD_U v);
    (fldGet ST_CMD_OP v = 1 → granted ST_CMD (.stTest u)) ∧
    (fldGet ST_CMD_OP v = 2 → granted ST_CMD (.stRetire u)) ∧
    (fldGet ST_CMD_OP v = 3 → granted ST_CMD (.stReturn u)) ∧
    (fldGet ST_CMD_OP v = 4 → granted ST_CMD (.stSwitch u)) ∧
    (fldGet ST_CMD_OP v = 5 → granted ST_CMD (.stUpdate u))) ∧
  (fldGet BOOT_VCMD_GO v = 1 → (fldGet BOOT_VCMD_OP v = 1 → granted BOOT_VCMD .verify) ∧
    (fldGet BOOT_VCMD_OP v = 2 → granted BOOT_VCMD .holdImage) ∧
    (fldGet BOOT_VCMD_OP v = 3 → granted BOOT_VCMD .program))

/-- R3, R4, R5, R9, R465: a write of a register by a master. A denied one changes no register outside the
reports. A permitted one at an offset without a register changes nothing; one of a block whose fast domain
is not awake is ignored and logged. In a register without an effect of its own, RW bits take the value, RWL
bits do so before the PROT lock, W1C bits clear where the value has a 1 and hardware set none in the cycle,
and all other bits keep theirs; a value that would change an RWL bit after the lock is logged. The write of a
register that is a row of its own, for every value or for the values of a field that select the row, does as
that row (writesAreRows, commandsAreRows). -/
def registerFieldsFollowTheirTypes : Prop :=
  ∀ (s : State) (m : Master) (off : BitVec 26) (v : Word), off.toNat % 4 = 0 →
    let o := off.toNat
    let e := exec (.registerWrite m off v) s
    Denied s m o true (.registerWrite m off v) ∧
    (s.permits m (regAddr o) true = true →
      (regDef? o = none → e = .next (s.busGrant m)) ∧
      (∀ d, regDef? o = some d → s.awake (o / 0x100000) = false →
        ∃ t, e = .next t ∧ Frame (s.busGrant m) t [] [] ∧
          Reported s t (commonCode 0 (o / 0x100000) 0x39) 0xFF (BitVec.ofNat 48 (regAddr o))) ∧
      (∀ d, regDef? o = some d → s.awake (o / 0x100000) = true → ownEffect d.base o = false →
        ∃ t, e = .next t ∧ Frame (s.busGrant m) t [o] [] ∧ t.reg o = s.typedValue d o v ∧
          (s.bit PROT_LOCK PROT_LOCK_LOCK = true → s.reg o &&& d.rwl ≠ v &&& d.rwl →
            Reported s t 0x00C2 0xFF (BitVec.ofNat 48 (regAddr o))))) ∧
    writesAreRows s m v ∧ commandsAreRows s m v

/-- Registers that hold while their block uses them, though no access type says so (the tables of JOB_BASE,
ROI_CTRL and EN_CFG; R282): JOB_BASE while its slot is not IDLE, ADMITTED or REJECTED; a region of interest
while EN is 1, with fault 0x0305; the placement of the verification engine while it runs, with fault 0x0346;
and the fields of EN_CFG but EN while EN is 1. That these two faults carry the register's address as INFO is
the model's choice (log entry 80). -/
def registersHoldInUse : Prop :=
  ∀ (s : State) (m : Master) (off : BitVec 26) (v : Word) (d : RegDef),
    let o := off.toNat
    let e := exec (.registerWrite m off v) s
    o % 4 = 0 → s.permits m (regAddr o) true = true → regDef? o = some d → s.awake (o / 0x100000) = true →
    (∀ j : Fin 2, o = JOB_BASE_LO j ∨ o = JOB_BASE_HI j →
      if s.slotState j ∈ [0, 2, 3] then
        ∃ t, e = .next t ∧ Frame (s.busGrant m) t [o] [] ∧ t.reg o = s.typedValue d o v
      else e = .next (s.busGrant m)) ∧
    (∀ (n : Fin 12) (r : Fin 8), o ∈ [ROI_START_LO n r, ROI_START_HI n r, ROI_LINES n r,
        ROI_PERIOD n r, ROI_BASE_LO n r, ROI_BASE_HI n r, ROI_RING n r] →
      if s.bit (ROI_CTRL n r) ROI_CTRL_EN = true then
        ∃ t, e = .next t ∧ Frame (s.busGrant m) t [] [] ∧
          Reported s t 0x0305 (BitVec.ofNat 8 n) (BitVec.ofNat 48 (regAddr o))
      else ∃ t, e = .next t ∧ Frame (s.busGrant m) t [o] [] ∧ t.reg o = s.typedValue d o v) ∧
    (veProtected d.base = true →
      if s.bit VE_CTRL VE_CTRL_EN = true then
        ∃ t, e = .next t ∧ Frame (s.busGrant m) t [] [] ∧
          Reported s t 0x0346 0xFF (BitVec.ofNat 48 (regAddr o))
      else ∃ t, e = .next t ∧ Frame (s.busGrant m) t [o] [] ∧ t.reg o = s.typedValue d o v) ∧
    (∀ k : Fin 2, o = EN_CFG k →
      ∃ t, e = .next t ∧ Frame (s.busGrant m) t [o] [] ∧
        t.reg o = if s.bit o EN_CFG_EN = true then fldPut EN_CFG_EN (fldGet EN_CFG_EN v) (s.reg o)
          else s.typedValue d o v)

/-- R3 to R5, R9, R282, R465: the write of a register.
Choices of the model, not of the spec: faults 0x0305 and 0x0346 carry the register's address as INFO (log
entry 80). -/
def Obligations.RegisterWriteFollowsAccessTypes : Prop := registerFieldsFollowTheirTypes ∧ registersHoldInUse

/-- R24: a permitted write of a route sets it and sends no message for an event already pending. -/
def routeWriteSendsNoMessage : Prop :=
  ∀ (s : State) (m : Master) (n : Fin 864) (v : Word),
    Denied s m (EVT_ROUTE n) true (.evtRouteWrite m n v) ∧
    (s.permits m (regAddr (EVT_ROUTE n)) true = true →
      ∃ t, exec (.evtRouteWrite m n v) s = .next t ∧ t = { s.busGrant m with regs := t.regs } ∧
        RegsBut s t [EVT_ROUTE n] ∧ t.reg (EVT_ROUTE n) = v &&& 0x80FF0F3F)

/-- R22: once 1 µs has passed since a vector's message, the requests that arrived in that time send one
message and begin a new interval, or set the Pending Bit of a masked vector; with none, the interval only
ends. -/
def holdoffEndsInOneMessage : Prop :=
  ∀ (s : State) (v : Fin 256) (since : Nat), s.top.holdoff.get none v = some since →
    (since + 100 ≤ s.now →
      ∃ t, exec (.vectorHoldoffExpiry v) s = .next t ∧ t.top.requested.get false v = false ∧
        (if s.top.requested.get false v = true ∧ s.vecMasked v = false then
          MessageSent s t v ∧ t.regs = s.regs
        else t.top.sent = s.top.sent ∧ t.top.holdoff.get none v = none ∧
          (s.top.requested.get false v = true → t.pba v = true) ∧
          (s.top.requested.get false v = false → t.regs = s.regs)) ∧
        Frame s t [] []) ∧
    (s.now < since + 100 → exec (.vectorHoldoffExpiry v) s = .next s)

/-- R22: unmasking a vector sends the message that its Pending Bit holds, at once when no interval of 1 µs
runs, and at its end otherwise. -/
def unmaskSendsThePendingMessage : Prop :=
  ∀ (s : State) (v : Fin 256),
    ∃ t, exec (.vectorUnmask v) s = .next t ∧ t.vecMasked v = false ∧
      Frame s t [MSIX_CTRL v] [] ∧
      (s.vecMasked v = true → s.pba v = true →
        t.pba v = false ∧
        ((∃ since, s.top.holdoff.get none v = some since ∧ s.now < since + 100) →
          t.top.requested.get false v = true ∧ t.top.sent = s.top.sent) ∧
        ((∀ since, s.top.holdoff.get none v = some since → since + 100 ≤ s.now) → MessageSent s t v)) ∧
      (s.vecMasked v = false ∨ s.pba v = false → t.top = s.top)

/-- R22, R24: routes, the 1 µs interval of a vector, and masked vectors.
Where its event has not occurred, a command changes nothing: the model's choice (log entry 2). -/
def Obligations.VectorsSendTheirMessages : Prop :=
  routeWriteSendsNoMessage ∧ holdoffEndsInOneMessage ∧ unmaskSendsThePendingMessage

/-- R16, R56, R57: a read of a free semaphore by a requester acquires it; any other read changes no
semaphore; the read returns GOT and the owner after it. The holder frees it through SEM_REL, another's
write is ignored and logged, and SEM_FORCE frees it whoever holds it and logs the former holder: 0xF where the
semaphore was free, which is the model's choice (log entry 14). The unit's pointer moves past a requester that
it has granted.
Choices of the model, not of the spec: SEM_FORCE of a free semaphore reports 0xF as the former holder (log
entry 14). -/
def Obligations.SemaphoresAcquireAndFree : Prop :=
  (∀ (s : State) (m : Master) (n : Fin 64),
    s.permits m (regAddr (SEM n)) false = true →
      ∃ t, exec (.semRead m n) s = .next t ∧
        t.semOwner n = (match semIx m with
          | some i => if s.semOwner n = 15 then i else s.semOwner n
          | none => s.semOwner n) ∧
        fldGet SEM_OWNER t.top.answer = t.semOwner n ∧
        (∀ i, semIx m = some i → fldGet SEM_GOT t.top.answer = b2n (t.semOwner n == i)) ∧
        RegsBut s t [SEM n] ∧
        t = { s.semGranted m with
          regs := t.regs, top := { (s.semGranted m).top with answer := t.top.answer } }) ∧
  (∀ (s : State) (m : Master) (n : Fin 64), s.permits m (regAddr (SEM n)) false = false →
    ∃ t, exec (.semRead m n) s = .next t ∧ t.top.answer = 0 ∧
      Frame { s with top := { s.top with answer := 0 } } t (if m = .host then [HI_CNT 0] else []) []) ∧
  (∀ (s : State) (m : Master) (i : Nat), semIx m = some i →
    (s.semGranted m).top.rrPtr.get 0 rrSem = (i + 1) % 6) ∧
  ∀ (s : State) (m : Master) (v : Word),
    let n := v.toNat % 64
    Denied s m SEM_REL true (.semRel m v) ∧ Denied s m SEM_FORCE true (.semForce m v) ∧
    (s.permits m (regAddr SEM_REL) true = true →
      (semIx m = some (s.semOwner n) →
        ∃ t, exec (.semRel m v) s = .next t ∧ t.semOwner n = 15 ∧
          t = { s.semGranted m with regs := t.regs } ∧ RegsBut s t [SEM n]) ∧
      (semIx m ≠ some (s.semOwner n) →
        ∃ t, exec (.semRel m v) s = .next t ∧
          Frame { s.semGranted m with freeIx := t.freeIx } t [] [] ∧
          (∀ i, semIx m = some i →
            Reported s t 0x0001 0xFF (BitVec.ofNat 48 (n + 256 * i))))) ∧
    (s.permits m (regAddr SEM_FORCE) true = true →
      ∃ t, exec (.semForce m v) s = .next t ∧ t.semOwner n = 15 ∧
        Frame (s.busGrant m) t [SEM n] [] ∧
        Reported s t 0x0002 0xFF (BitVec.ofNat 48 (n + 256 * s.semOwner n)))

/-! ### Base instructions -/

/-- An instruction with two register sources writes `f` of them to rd and continues after itself, at its
cost on an expansion core. -/
def aluOf (i : Core → BitVec 5 → BitVec 5 → BitVec 5 → Instr) (cost : Nat)
    (f : Word → Word → Word) : Prop :=
  ∀ (s : State) (c : Core) (rd ra rb : BitVec 5), Ready s c 1 cost →
    ∃ t, exec (i c rd ra rb) s = .next t ∧ Ran (s.fetched c 1) t c (s.corePc c + 4) cost ∧
      Wrote s t c rd (f (s.coreG c ra) (s.coreG c rb))

/-- An instruction with one register source does so. -/
def unaryOf (i : Core → BitVec 5 → BitVec 5 → Instr) (f : Word → Word) : Prop :=
  ∀ (s : State) (c : Core) (rd ra : BitVec 5), Ready s c 1 1 →
    ∃ t, exec (i c rd ra) s = .next t ∧ Ran (s.fetched c 1) t c (s.corePc c + 4) 1 ∧
      Wrote s t c rd (f (s.coreG c ra))

/-- R29 without multiplication and division. -/
def registerAluWritesItsResult : Prop :=
  aluOf .add 1 (fun a b => a + b) ∧ aluOf .sub 1 (fun a b => a - b) ∧
  aluOf .and 1 (fun a b => a &&& b) ∧ aluOf .or 1 (fun a b => a ||| b) ∧
  aluOf .xor 1 (fun a b => a ^^^ b) ∧ aluOf .andn 1 (fun a b => a &&& ~~~b) ∧
  aluOf .sll 1 (fun a b => a <<< (b.toNat % 32)) ∧ aluOf .srl 1 (fun a b => a >>> (b.toNat % 32)) ∧
  aluOf .sra 1 (fun a b => BitVec.ofInt 32 (a.toInt / 2 ^ (b.toNat % 32))) ∧
  aluOf .ror 1 (fun a b => a.rotateRight (b.toNat % 32)) ∧
  aluOf .slt 1 (fun a b => if a.toInt < b.toInt then 1 else 0) ∧
  aluOf .sltu 1 (fun a b => if a.toNat < b.toNat then 1 else 0) ∧
  aluOf .min 1 (fun a b => BitVec.ofInt 32 (min a.toInt b.toInt)) ∧
  aluOf .max 1 (fun a b => BitVec.ofInt 32 (max a.toInt b.toInt)) ∧
  aluOf .minu 1 (fun a b => BitVec.ofNat 32 (min a.toNat b.toNat)) ∧
  aluOf .maxu 1 (fun a b => BitVec.ofNat 32 (max a.toNat b.toNat))

/-- R29: CLZ, CTZ and POPC write a count: n leading zeros when the n top bits are 0 and the next, if there
is one, is 1; trailing zeros likewise from bit 0; and the number of ones. -/
def bitCountsAreRight : Prop :=
  ∀ (s : State) (c : Core) (rd ra : BitVec 5), Ready s c 1 1 →
    (∃ t n, exec (.clz c rd ra) s = .next t ∧ Ran (s.fetched c 1) t c (s.corePc c + 4) 1 ∧ n ≤ 32 ∧
      Wrote s t c rd (BitVec.ofNat 32 n) ∧
      (∀ i, 32 - n ≤ i → i < 32 → (s.coreG c ra).getLsbD i = false) ∧
      (n < 32 → (s.coreG c ra).getLsbD (31 - n) = true)) ∧
    (∃ t n, exec (.ctz c rd ra) s = .next t ∧ Ran (s.fetched c 1) t c (s.corePc c + 4) 1 ∧ n ≤ 32 ∧
      Wrote s t c rd (BitVec.ofNat 32 n) ∧ (∀ i, i < n → (s.coreG c ra).getLsbD i = false) ∧
      (n < 32 → (s.coreG c ra).getLsbD n = true)) ∧
    (∃ t, exec (.popc c rd ra) s = .next t ∧ Ran (s.fetched c 1) t c (s.corePc c + 4) 1 ∧
      Wrote s t c rd (BitVec.ofNat 32 ((List.range 32).countP fun i => (s.coreG c ra).getLsbD i)))

/-- R29, R30: the products, and division with its limits: it raises no exception whatever the operands,
and its cost is the same for all of them. -/
def multiplyAndDivide : Prop :=
  aluOf .mul 3 (fun a b => BitVec.ofNat 32 (a.toNat * b.toNat)) ∧
  aluOf .mulh 3 (fun a b => BitVec.ofInt 32 (a.toInt * b.toInt / 2 ^ 32)) ∧
  aluOf .mulhu 3 (fun a b => BitVec.ofNat 32 (a.toNat * b.toNat / 2 ^ 32)) ∧
  aluOf .div 34 (fun a b =>
    if b = 0 then 0xFFFFFFFF else if a = 0x80000000 ∧ b = 0xFFFFFFFF then 0x80000000
    else BitVec.ofInt 32 (a.toInt.tdiv b.toInt)) ∧
  aluOf .divu 34 (fun a b => if b = 0 then 0xFFFFFFFF else BitVec.ofNat 32 (a.toNat / b.toNat)) ∧
  aluOf .rem 34 (fun a b =>
    if b = 0 then a else if a = 0x80000000 ∧ b = 0xFFFFFFFF then 0
    else BitVec.ofInt 32 (a.toInt.tmod b.toInt)) ∧
  aluOf .remu 34 (fun a b => if b = 0 then a else BitVec.ofNat 32 (a.toNat % b.toNat))

/-- R29: a one-source instruction with rb not zero is illegal (R28). -/
def fieldsOfRegisterInstructions : Prop :=
  ∀ (c : Core) (rd ra rb : BitVec 5) (f : Nat), f ∈ [0x018, 0x019, 0x01A] → rb ≠ 0 →
    wordLegal c (BitVec.ofNat 32
      (0x04000000 + rd.toNat * 2 ^ 21 + ra.toNat * 2 ^ 16 + rb.toNat * 2 ^ 11 + f)) = false

/-- R29, R30: the register ALU instructions, their results and costs, division at its limits, and the rule for
rb. -/
def Obligations.RegisterInstructionsWriteTheirResult : Prop :=
  registerAluWritesItsResult ∧ bitCountsAreRight ∧ multiplyAndDivide ∧ fieldsOfRegisterInstructions

/-- An instruction with a 16-bit immediate. -/
def immOf (i : Core → BitVec 5 → BitVec 5 → BitVec 16 → Instr) (f : Word → BitVec 16 → Word) : Prop :=
  ∀ (s : State) (c : Core) (rd ra : BitVec 5) (imm : BitVec 16), Ready s c 1 1 →
    ∃ t, exec (i c rd ra imm) s = .next t ∧ Ran (s.fetched c 1) t c (s.corePc c + 4) 1 ∧
      Wrote s t c rd (f (s.coreG c ra) imm)

/-- An instruction with a shift amount of 5 bits. -/
def shiftOf (i : Core → BitVec 5 → BitVec 5 → BitVec 5 → Instr) (f : Word → Nat → Word) : Prop :=
  ∀ (s : State) (c : Core) (rd ra sh : BitVec 5), Ready s c 1 1 →
    ∃ t, exec (i c rd ra sh) s = .next t ∧ Ran (s.fetched c 1) t c (s.corePc c + 4) 1 ∧
      Wrote s t c rd (f (s.coreG c ra) sh.toNat)

/-- R31: the immediate instructions. -/
def immediateAluWritesItsResult : Prop :=
  immOf .addi (fun a imm => a + imm.signExtend 32) ∧ immOf .andi (fun a imm => a &&& imm.setWidth 32) ∧
  immOf .ori (fun a imm => a ||| imm.setWidth 32) ∧ immOf .xori (fun a imm => a ^^^ imm.setWidth 32) ∧
  immOf .slti (fun a imm => if a.toInt < imm.toInt then 1 else 0) ∧
  immOf .sltiu (fun a imm => if a.toNat < (imm.signExtend 32).toNat then 1 else 0) ∧
  shiftOf .slli (fun a n => a <<< n) ∧ shiftOf .srli (fun a n => a >>> n) ∧
  shiftOf .srai (fun a n => BitVec.ofInt 32 (a.toInt / 2 ^ n)) ∧
  (∀ (s : State) (c : Core) (rd : BitVec 5) (imm : BitVec 16), Ready s c 1 1 →
    ∃ t, exec (.lui c rd imm) s = .next t ∧ Ran (s.fetched c 1) t c (s.corePc c + 4) 1 ∧
      Wrote s t c rd (BitVec.ofNat 32 (imm.toNat * 65536)))

/-- A branch: taken, it continues at its own address plus four times the offset, at a cost of 2. -/
def branchOf (i : Core → BitVec 5 → BitVec 5 → BitVec 16 → Instr) (test : Word → Word → Bool) : Prop :=
  ∀ (s : State) (c : Core) (ra rb : BitVec 5) (off : BitVec 16), Ready s c 1 2 →
    let taken := test (s.coreG c ra) (s.coreG c rb)
    ∃ t, exec (i c ra rb off) s = .next t ∧ (∀ r, t.coreG c r = s.coreG c r) ∧
      Ran (s.fetched c 1) t c (s.corePc c + (if taken then 4 * off.signExtend 32 else 4)) (if taken then 2 else 1)

/-- R33: branches and jumps; JAL and JALR link, and JALR computes its target before it writes rd. -/
def Obligations.BranchesAndJumps : Prop :=
  branchOf .beq (fun a b => decide (a = b)) ∧ branchOf .bne (fun a b => decide (a ≠ b)) ∧
  branchOf .blt (fun a b => decide (a.toInt < b.toInt)) ∧
  branchOf .bge (fun a b => decide (b.toInt ≤ a.toInt)) ∧
  branchOf .bltu (fun a b => decide (a.toNat < b.toNat)) ∧
  branchOf .bgeu (fun a b => decide (b.toNat ≤ a.toNat)) ∧
  (∀ (s : State) (c : Core) (off : BitVec 26), Ready s c 1 2 →
    (∃ t, exec (.j c off) s = .next t ∧ Ran (s.fetched c 1) t c (s.corePc c + 4 * off.signExtend 32) 2 ∧
      ∀ r, t.coreG c r = s.coreG c r) ∧
    (∃ t, exec (.jal c off) s = .next t ∧ Ran (s.fetched c 1) t c (s.corePc c + 4 * off.signExtend 32) 2 ∧
      Wrote s t c 31 (s.corePc c + 4))) ∧
  (∀ (s : State) (c : Core) (rd ra : BitVec 5) (imm : BitVec 16), Ready s c 1 2 →
    ∃ t, exec (.jalr c rd ra imm) s = .next t ∧
      Ran (s.fetched c 1) t c ((s.coreG c ra + imm.signExtend 32) &&& 0xFFFFFFFC) 2 ∧
      Wrote s t c rd (s.corePc c + 4))

/-- imm32 of a two-word instruction: zero where its second word lies at an unmapped address (R13). -/
def wide (s : State) (c : Core) (imm : BitVec 32) : Word :=
  match c with
  | .xc _ => imm
  | .cc k => if s.region (s.physical (.cc k) (s.corePc c + 4)) = .unmapped then 0 else imm
  | .sg => if s.region (s.physical .sg (s.corePc c + 4)) = .unmapped then 0 else imm

/-- An instruction of two words with a 32-bit immediate. -/
def wideOf (i : Core → BitVec 5 → BitVec 5 → BitVec 32 → Instr) (f : Word → Word → Word) : Prop :=
  ∀ (s : State) (c : Core) (rd ra : BitVec 5) (imm : BitVec 32), Ready s c 2 2 →
    ∃ t, exec (i c rd ra imm) s = .next t ∧ Ran (s.fetched c 2) t c (s.corePc c + 8) 2 ∧
      Wrote s t c rd (f (s.coreG c ra) (wide s c imm))

/-- R34: the two-word instructions continue after their second word; JW jumps and links. -/
def twoWordInstructions : Prop :=
  wideOf .addiw (fun a imm => a + imm) ∧ wideOf .andiw (fun a imm => a &&& imm) ∧
  wideOf .oriw (fun a imm => a ||| imm) ∧ wideOf .xoriw (fun a imm => a ^^^ imm) ∧
  (∀ (s : State) (c : Core) (rd : BitVec 5) (imm : BitVec 32), Ready s c 2 2 →
    ∃ t, exec (.liw c rd imm) s = .next t ∧ Ran (s.fetched c 2) t c (s.corePc c + 8) 2 ∧
      Wrote s t c rd (wide s c imm)) ∧
  (∀ (s : State) (c : Core) (rd : BitVec 5) (imm : BitVec 32), Ready s c 2 3 →
    ∃ t, exec (.jw c rd imm) s = .next t ∧ Ran (s.fetched c 2) t c (wide s c imm &&& 0xFFFFFFFC) 3 ∧
      Wrote s t c rd (s.corePc c + 8))

/-- R31, R34: the field rules: a shift amount above 31, ra not zero in LUI, LIW and JW, and an unassigned
func16 are illegal (R28). -/
def fieldsOfImmediateInstructions : Prop :=
  ∀ (c : Core) (rd ra : BitVec 5) (imm : BitVec 16),
    let word := fun major : Nat => BitVec.ofNat 32
      (major * 2 ^ 26 + rd.toNat * 2 ^ 21 + ra.toNat * 2 ^ 16 + imm.toNat)
    (∀ major, major ∈ [0x08, 0x09, 0x0A] → 32 ≤ imm.toNat → wordLegal c (word major) = false) ∧
    (ra ≠ 0 → wordLegal c (word 0x0B) = false) ∧
    (imm.toNat ∉ [0, 1, 2, 3, 4, 0x10] → wordLegal c (word 0x20) = false) ∧
    (ra ≠ 0 → imm.toNat ∈ [0, 0x10] → wordLegal c (word 0x20) = false)

/-- R31, R34: the instructions with an immediate, of one word and of two, their costs and field rules. -/
def Obligations.ImmediateInstructionsWriteTheirResult : Prop :=
  immediateAluWritesItsResult ∧ twoWordInstructions ∧ fieldsOfImmediateInstructions

/-- The bytes that a core reads at an address, as a word: sign-extended or zero-extended. -/
def extended (n : Nat) (signed : Bool) (bs : List Byte) : Word :=
  if signed ∧ 2 ^ (8 * n - 1) ≤ leNat bs then BitVec.ofInt 32 (leNat bs - 2 ^ (8 * n))
  else BitVec.ofNat 32 (leNat bs)

/-- A load of an expansion core from its data memory, its address rounded down to the width (R36, R37); a
load of a control core or the Sagger from uncached memory, on-chip or DRAM, that it may read and that it need
not wait for (R42, R44), the Sagger's own copies as its cores read them (R404), and from an unmapped address
zero (R13); misaligned, and denied by PROT, it traps with causes 2 and 4 (R43, R53). That a misaligned address
traps before PROT is asked is the model's choice (log entry 72). -/
def loadOf (i : Core → BitVec 5 → BitVec 5 → BitVec 16 → Instr) (n : Nat) (signed : Bool) : Prop :=
  (∀ (s : State) (x : Fin 144) (rd ra : BitVec 5) (imm : BitVec 16), Ready s (.xc x) 1 1 →
    let a := (s.coreG (.xc x) ra + imm.signExtend 32).toNat / n * n
    a + n ≤ localTop →
    ∃ t, exec (i (.xc x) rd ra imm) s = .next t ∧
      Ran { s with freeIx := t.freeIx } t (.xc x) (s.corePc (.xc x) + 4) 1 ∧
      Wrote s t (.xc x) rd (extended n signed (s.loadBytes (XC_MEM x + a) n))) ∧
  (∀ (s : State) (c : IsCore) (rd ra : BitVec 5) (imm : BitVec 16), Ready s (coreOf c) 1 1 →
    let ea := s.isG c ra.toNat + imm.signExtend 32
    let a := s.physical c ea
    let m := s.coreMaster c
    let s' := s.fetched (coreOf c) 1
    (ea.toNat % n = 0 → s.permits m a false = true → s.region a ≠ .regs → s.region a ≠ .unmapped →
      (c = .sg ∨ s.cached a = false) → s'.dramStall 4 (isIx c) a n false = none → s.poisoned a n = false →
      inSections (if c = .sg then s.sagAddr a else a) = false →
      ∃ t, exec (i (coreOf c) rd ra imm) s = .next t ∧
        Ran (s'.withDram t) t (coreOf c) ((s.isAt c).pc + 4) 1 ∧ (s.region a = .sram → t.mc = s'.mc) ∧
        Wrote s t (coreOf c) rd
          (extended n signed (s.viewBytes (if c = .sg then s.sagAddr a else a) n))) ∧
    (ea.toNat % n = 0 → s.permits m a false = true → s.region a = .unmapped →
      ∃ t, exec (i (coreOf c) rd ra imm) s = .next t ∧ (t.isAt c).pc = (s.isAt c).pc + 4 ∧
        Wrote s t (coreOf c) rd 0 ∧ Frame { s' with cc := t.cc, sg := t.sg } t [] [] ∧
        OtherCores s t (coreOf c) ∧
        Reported s t (commonCode 1 (masterBlk m) 0x3A) 0xFF (BitVec.ofNat 48 a)) ∧
    (ea.toNat % n ≠ 0 →
      ∃ t, exec (i (coreOf c) rd ra imm) s = .next t ∧ Trapped s t c 2 (s.isAt c).pc ea) ∧
    (ea.toNat % n = 0 → s.permits m a false = false →
      ∃ t, exec (i (coreOf c) rd ra imm) s = .next t ∧ Trapped s t c 4 (s.isAt c).pc ea))

/-- R32: the loads. The choices of the model that they rest on: a misaligned address traps before PROT is
asked (log entry 72).
Choices of the model, not of the spec: a misaligned address traps before PROT is asked (log entry 72). -/
def Obligations.LoadsReadMemory : Prop :=
  loadOf .lb 1 true ∧ loadOf .lbu 1 false ∧ loadOf .lh 2 true ∧ loadOf .lhu 2 false ∧ loadOf .lw 4 false

/-- A store of an expansion core into its data memory (R36, R37), and of a control core or the Sagger into
uncached on-chip memory below the Sagger's region, or into DRAM that it need not wait for (R42, R44, R298):
the bytes stored, and every other byte of memory unchanged; to an unmapped address, only the fault of R13.
Misaligned and denied stores trap with causes 3 and 5 and store nothing (R43, R52, R53). That a misaligned
address traps before PROT is asked, and that DRAM takes at once a store that need not wait, are the model's
choices (log entries 72 and 11). -/
def storeOf (i : Core → BitVec 5 → BitVec 5 → BitVec 16 → Instr) (n : Nat) : Prop :=
  (∀ (s : State) (x : Fin 144) (rs ra : BitVec 5) (imm : BitVec 16), Ready s (.xc x) 1 1 →
    let a := (s.coreG (.xc x) ra + imm.signExtend 32).toNat / n * n
    a + n ≤ localTop →
    ∃ t, exec (i (.xc x) rs ra imm) s = .next t ∧
      Ran { s with mem := t.mem, poison := t.poison } t (.xc x) (s.corePc (.xc x) + 4) 1 ∧
      (∀ r, t.coreG (.xc x) r = s.coreG (.xc x) r) ∧
      leNat (t.loadBytes (XC_MEM x + a) n) = (s.coreG (.xc x) rs).toNat % 256 ^ n ∧
      MemBut s t (XC_MEM x + a) n) ∧
  (∀ (s : State) (c : IsCore) (rs ra : BitVec 5) (imm : BitVec 16), Ready s (coreOf c) 1 1 →
    let ea := s.isG c ra.toNat + imm.signExtend 32
    let a := s.physical c ea
    let m := s.coreMaster c
    let s' := s.fetched (coreOf c) 1
    (ea.toNat % n = 0 → s.permits m a true = true → s.region a = .sram → s.cached a = false →
      inSections a = false → a + n ≤ SG_MEM → (∀ j, j < n → readOnlyByte (a + j) = false) →
      (∀ j, j < n → fieldBits (a + j) = 0xFF) →
      ∃ t, exec (i (coreOf c) rs ra imm) s = .next t ∧
        Ran { s' with mem := t.mem, poison := t.poison } t (coreOf c) ((s.isAt c).pc + 4) 1 ∧
        (∀ r, t.isG c r = s.isG c r) ∧
        leNat (t.loadBytes a n) = (s.isG c rs.toNat).toNat % 256 ^ n ∧ MemBut s t a n) ∧
    (c = .sg → ea.toNat % n = 0 → s.permits m a true = true → s.region a = .dram → a < 2 ^ 48 →
      s'.dramStall 4 (isIx c) a n true = none →
      ∃ t, exec (i (coreOf c) rs ra imm) s = .next t ∧
        Ran { s' with mem := t.mem, poison := t.poison, mc := t.mc, regs := t.regs,
                      top := { s'.top with rrPtr := t.top.rrPtr } } t (coreOf c) ((s.isAt c).pc + 4) 1 ∧
        RegsBut s t dramRegs ∧ (∀ r, t.isG c r = s.isG c r) ∧
        leNat (t.loadBytes a n) = (s.isG c rs.toNat).toNat % 256 ^ n ∧ MemBut s t a n) ∧
    (ea.toNat % n = 0 → s.permits m a true = true → s.region a = .unmapped →
      ∃ t, exec (i (coreOf c) rs ra imm) s = .next t ∧ (t.isAt c).pc = (s.isAt c).pc + 4 ∧
        (∀ r, t.isG c r = s.isG c r) ∧ Frame { s' with cc := t.cc, sg := t.sg } t [] [] ∧
        OtherCores s t (coreOf c) ∧
        Reported s t (commonCode 1 (masterBlk m) 0x3A) 0xFF (BitVec.ofNat 48 a)) ∧
    (ea.toNat % n ≠ 0 →
      ∃ t, exec (i (coreOf c) rs ra imm) s = .next t ∧ Trapped s t c 3 (s.isAt c).pc ea) ∧
    (ea.toNat % n = 0 → s.permits m a true = false →
      ∃ t, exec (i (coreOf c) rs ra imm) s = .next t ∧ Trapped s t c 5 (s.isAt c).pc ea))

/-- R32: the stores. The choices of the model that they rest on: a misaligned address traps before PROT is
asked (log entry 72), and DRAM takes at once a store that need not wait (log entry 11).
Choices of the model, not of the spec: a misaligned address traps before PROT is asked (log entry 72); DRAM
takes at once a store that need not wait (log entry 11). -/
def Obligations.StoresWriteTheirBytes : Prop := storeOf .sb 1 ∧ storeOf .sh 2 ∧ storeOf .sw 4

/-- R44, R45: a word that a control core stores into cached memory reaches its cache and not memory, a line
that is in no cache being filled first; a word that it then loads comes from the cache. A word loaded from a
register is what the register reads, and one stored to it is written; the Sagger may load registers in S
mode only (R53). A word that the Sagger stores into its own memory goes to each core's copy (R404). -/
def Obligations.CachedAndRegisterAccesses : Prop :=
  (∀ (s : State) (k : Fin 4) (rd rs ra : BitVec 5) (imm : BitVec 16), Ready s (.cc k) 1 1 →
    let ea := s.isG (.cc k) ra.toNat + imm.signExtend 32
    let a := s.physical (.cc k) ea
    let m := s.coreMaster (.cc k)
    let s' := s.fetched (.cc k) 1
    let line := match s.dcLine a with
      | some l => l.bytes
      | none => s.loadBytes (a / 64 * 64) 64
    ea.toNat % 4 = 0 → s.cached a = true → s.region a ≠ .unmapped → s.region a ≠ .regs →
    line.length = 64 →
    (s.dcLine a = none → s.poisoned a 4 = false) →
    (s.permits m a true = true → (s.dcLine a = none → s'.dramStall 4 k (a / 64 * 64) 64 false = none) →
      ∃ t l', exec (.sw (.cc k) rs ra imm) s = .next t ∧ t.mem = s.mem ∧ t.dcLine a = some l' ∧
        l'.dirty = true ∧ l'.bytes = line.take (a % 64) ++ leBytes 4 (s.isG (.cc k) rs.toNat).toNat ++
          line.drop (a % 64 + 4) ∧
        Ran { s'.withDram t with dcache := t.dcache } t (.cc k) ((s.ccAt k).pc + 4) 1 ∧
        ∀ r, t.isG (.cc k) r = s.isG (.cc k) r) ∧
    (s.permits m a false = true → (s.dcLine a = none → s'.dramStall 4 k (a / 64 * 64) 64 false = none) →
      ∃ t, exec (.lw (.cc k) rd ra imm) s = .next t ∧ t.mem = s.mem ∧
        (t.dcLine a).map (·.bytes) = some line ∧
        Ran { s'.withDram t with dcache := t.dcache } t (.cc k) ((s.ccAt k).pc + 4) 1 ∧
        Wrote s t (.cc k) rd (BitVec.ofNat 32 (leNat ((line.drop (a % 64)).take 4))))) ∧
  (∀ (s : State) (c : IsCore) (rd rs ra : BitVec 5) (imm : BitVec 16) (off : Nat), Ready s (coreOf c) 1 1 →
    let ea := s.isG c ra.toNat + imm.signExtend 32
    let m := s.coreMaster c
    let s' := (s.fetched (coreOf c) 1).busGrant m
    s.physical c ea = regAddr off → s.region (regAddr off) = .regs → off % 4 = 0 → ea.toNat % 4 = 0 →
    (s.permits m (regAddr off) false = true → (c = .sg → s.corePriv .sg = true) →
      ∃ t, exec (.lw (coreOf c) rd ra imm) s = .next t ∧ (t.isAt c).pc = (s.isAt c).pc + 4 ∧
        Wrote s t (coreOf c) rd (s'.readReg m off).1 ∧ t.regs = (s'.readReg m off).2.regs) ∧
    (s.permits m (regAddr off) true = true →
      ∃ t, exec (.sw (coreOf c) rs ra imm) s = .next t ∧
        t.regs = (s'.writeReg m off (s.isG c rs.toNat)).regs) ∧
    (s.permits m (regAddr off) false = true → c = .sg → s.corePriv .sg = false →
      ∃ t, exec (.lw (coreOf c) rd ra imm) s = .next t ∧ Trapped s t c 4 (s.isAt c).pc ea)) ∧
  (∀ (s : State) (rs ra : BitVec 5) (imm : BitVec 16), Ready s .sg 1 1 →
    let ea := s.isG .sg ra.toNat + imm.signExtend 32
    let a := s.physical .sg ea
    ea.toNat % 4 = 0 → s.permits .si a true = true → SG_MEM ≤ a → a + 4 ≤ SG_MEM + 0x50000 →
    ∃ t, exec (.sw .sg rs ra imm) s = .next t ∧ t.sg.pc = s.sg.pc + 4 ∧
      (∀ i, i < 3 → t.loadNat (a + 0x50000 * i) 4 = (s.isG .sg rs.toNat).toNat) ∧
      ∀ x, (∀ i, i < 3 → x < a + 0x50000 * i ∨ a + 0x50000 * i + 4 ≤ x) →
        memByte t.mem x = memByte s.mem x)

/-- R13, R43, R44, R53: the fetch of a control core or the Sagger. One from registers, and one that PROT
denies, trap with cause 6; one of poisoned memory traps with cause 10; one from unmapped memory reads the
illegal word 0. One that must wait for DRAM leaves the core at the instruction. A fetch that succeeds
changes nothing but lines of the core's instruction cache and what a read does to DRAM. Cause 6 from registers
before PROT is asked, the unmapped word as an illegal one, and the wait at the instruction are the model's
choices (log entries 72, 16 and 76). -/
def fetchesOrTraps : Prop :=
  ∀ (s : State) (c : IsCore) (rd ra rb : BitVec 5), s.issues c = true →
    let pc := (s.isAt c).pc
    let a := s.physical c pc
    let m := s.coreMaster c
    let run := exec (.add (coreOf c) rd ra rb) s
    ((s.region a = .regs ∨ s.permits m a false = false) →
      ∃ t, run = .next t ∧ Trapped s t c 6 pc pc) ∧
    (s.region a ≠ .regs → s.permits m a false = true →
      (s.region a = .unmapped →
        ∃ t, run = .next t ∧ Trapped s t c 0 pc 0 ∧
          Reported s t (commonCode 1 (masterBlk m) 0x3A) 0xFF (BitVec.ofNat 48 a)) ∧
      (s.region a ≠ .unmapped → s.inIcache c a = false →
        (∀ t, s.dramStall 4 (fetchIx c) a 4 false = some t → run = .next t) ∧
        (s.dramStall 4 (fetchIx c) a 4 false = none → s.poisoned a 4 = true →
          ∃ t, run = .next t ∧ Trapped s t c 10 pc pc))) ∧
    (Ready s (coreOf c) 1 0 →
      let t := s.fetched (coreOf c) 1
      t = { s.withDram t with cc := t.cc } ∧ OtherCores s t (coreOf c) ∧
        t.isAt c = { s.isAt c with icache := (t.isAt c).icache })

/-- R28, R39, R53: a word that the core does not decode. A control core or the Sagger takes exception 0 with
the word; an expansion core stops its tile as a failed render and reports 0x1141. The words of UDF,
the word 0 among them, are never decoded. -/
def illegalWordsTrapOrFail : Prop :=
  (∀ (s : State) (k : Fin 4) (word : Word), Ready s (.cc k) 1 1 → wordLegal (.cc k) word = false →
    ∃ t, exec (.illegalInstruction (.cc k) word) s = .next t ∧
      Trapped s t (.cc k) 0 (s.corePc (.cc k)) word) ∧
  (∀ (s : State) (word : Word), Ready s .sg 1 1 → wordLegal .sg word = false →
    ∃ t, exec (.illegalInstruction .sg word) s = .next t ∧ Trapped s t .sg 0 s.sg.pc word) ∧
  (∀ (s : State) (c : IsCore) (low : BitVec 26), Ready s (coreOf c) 1 1 →
    ∃ t, exec (.udf (coreOf c) low) s = .next t ∧
      Trapped s t c 0 (s.isAt c).pc (BitVec.ofNat 32 low.toNat)) ∧
  (∀ (s : State) (x : Fin 144) (word : Word) (low : BitVec 26) (key : TileKey),
    Ready s (.xc x) 1 1 → (s.xcAt x).tile = some key → wordLegal (.xc x) word = false →
    ∃ t, exec (.illegalInstruction (.xc x) word) s = .next t ∧ exec (.udf (.xc x) low) s = .next t ∧
      (t.xcAt x).tile = none ∧ (t.xcAt x).buf = !(s.xcAt x).buf ∧
      (∃ h, (t.xcAt x).handed = some h ∧ h.tile = key ∧ h.illegal = true ∧ h.overrun = false) ∧
      Reported s t 0x1141 (BitVec.ofNat 8 x) (BitVec.ofNat 48 (s.xcAt x).pc.toNat) ∧
      Frame { s with xc := t.xc } t [] [] ∧ OtherCores s t (.xc x)) ∧
  (∀ (c : Core) (low : BitVec 26), wordLegal c (BitVec.ofNat 32 low.toNat) = false)

/-- R13, R28, R39, R43, R44, R53: what a fetch meets, and words that a core does not decode.
Choices of the model, not of the spec: a fetch from registers takes cause 6 before PROT is asked (log entry
72); an unmapped word is fetched as the illegal word 0 (log entry 16); a fetch that must wait for DRAM
leaves the core at the instruction (log entry 76). -/
def Obligations.IllegalWordsTrapOrFailTheTile : Prop := fetchesOrTraps ∧ illegalWordsTrapOrFail

/-! ### System instructions -/

/-- From the state after its fetch, the instruction has run to its end on a core of the system profile: it
continues after itself, `f` is what a read has latched of a count, and nothing outside the core has
changed. -/
def sysRan (s t : State) (c : IsCore) (f : IsSt → IsSt := id) : Prop :=
  let s' := s.fetched (coreOf c) 1
  t.isAt c = { f (s'.isAt c) with g := (t.isAt c).g, sr := (t.isAt c).sr, prior := (t.isAt c).prior,
                                  pc := (s.isAt c).pc + 4, instret := (s.isAt c).instret + 1 } ∧
  t = { s' with cc := t.cc, sg := t.sg } ∧ OtherCores s' t (coreOf c)

/-- R48: what a system register holds after a write, by its access column and field maps. -/
def srAfter (n : Nat) (old v : Word) : Word :=
  if n = 1 then (old &&& ~~~0xB) ||| (v &&& 0xB)
  else if n = 5 then (old &&& 0x1FF) ||| (v &&& 0xFFFFFE00)
  else if n ∈ [2, 3, 4, 6, 7, 10, 11, 12, 13, 20, 21, 22, 23] then v
  else if 32 ≤ n ∧ n ≤ 47 then (old &&& 0xFFF00000) ||| (v &&& 0xFFFFF)
  else old

/-- R48: what a read of a system register returns: the levels of the inputs, the counts, the high words
that reads of the low words have latched, and the registers themselves. -/
def srReads (s : State) (c : IsCore) (n : Nat) (v : Word) : Prop :=
  if n = 8 ∨ n = 9 then ∀ i, i < 32 → v.getLsbD i = s.irqLevel c (32 * (n - 8) + i)
  else v = if n = 16 then (s.isAt c).cycle.setWidth 32 else if n = 17 then (s.isAt c).cycleHi
    else if n = 18 then (s.isAt c).instret.setWidth 32 else if n = 19 then (s.isAt c).instretHi
    else s.sr c n

/-- R48: what a read of a system register latches. -/
def srLatch (n : Nat) (x : IsSt) : IsSt :=
  if n = 16 then { x with cycleHi := (x.cycle >>> 32).setWidth 32 }
  else if n = 18 then { x with instretHi := (x.instret >>> 32).setWidth 32 } else x

/-- The word of an instruction of majors 0x30 to 0x33. -/
def srInstr (major : Nat) (rd ra : BitVec 5) (sr : BitVec 8) : Word :=
  BitVec.ofNat 32 (major * 2 ^ 26 + rd.toNat * 2 ^ 21 + ra.toNat * 2 ^ 16 + sr.toNat)

/-- R47, R48: SRR reads a system register, SRW writes it, SRSET and SRCLR set and clear bits of it and
return the old value; a read of a low count latches the high word. In U mode only sr0 and sr16 to sr19
may be read: any other access traps with cause 1 and the instruction word. -/
def Obligations.SystemRegisterAccess : Prop :=
  ∀ (s : State) (c : IsCore) (rd ra : BitVec 5) (sr : BitVec 8), Ready s (coreOf c) 1 1 →
    let n := sr.toNat
    let g := s.isG c ra.toNat
    (s.corePriv c = true ∨ n = 0 ∨ 16 ≤ n ∧ n ≤ 19 →
      ∃ t v, exec (.srr c rd ⟨ra, sr⟩) s = .next t ∧ srReads s c n v ∧ sysRan s t c (srLatch n) ∧
        Wrote s t (coreOf c) rd v ∧ ∀ k, t.sr c k = s.sr c k) ∧
    (s.corePriv c = true →
      (∃ t, exec (.srw c ra sr) s = .next t ∧ sysRan s t c ∧ (∀ r, t.isG c r = s.isG c r) ∧
        t.sr c n = srAfter n (s.sr c n) g ∧ ∀ k, k ≠ n → t.sr c k = s.sr c k) ∧
      (∃ t v, exec (.srset c rd ra sr) s = .next t ∧ srReads s c n v ∧ sysRan s t c (srLatch n) ∧
        Wrote s t (coreOf c) rd v ∧
        t.sr c n = srAfter n (s.sr c n) (v ||| g) ∧ ∀ k, k ≠ n → t.sr c k = s.sr c k) ∧
      (∃ t v, exec (.srclr c rd ra sr) s = .next t ∧ srReads s c n v ∧ sysRan s t c (srLatch n) ∧
        Wrote s t (coreOf c) rd v ∧
        t.sr c n = srAfter n (s.sr c n) (v &&& ~~~g) ∧ ∀ k, k ≠ n → t.sr c k = s.sr c k)) ∧
    (s.corePriv c = false →
      (n ≠ 0 → n < 16 ∨ 19 < n →
        ∃ t, exec (.srr c rd ⟨ra, sr⟩) s = .next t ∧
          Trapped s t c 1 (s.isAt c).pc (srInstr 0x30 rd ra sr)) ∧
      (∃ t, exec (.srw c ra sr) s = .next t ∧ Trapped s t c 1 (s.isAt c).pc (srInstr 0x31 0 ra sr)) ∧
      (∃ t, exec (.srset c rd ra sr) s = .next t ∧
        Trapped s t c 1 (s.isAt c).pc (srInstr 0x32 rd ra sr)) ∧
      (∃ t, exec (.srclr c rd ra sr) s = .next t ∧
        Trapped s t c 1 (s.isAt c).pc (srInstr 0x33 rd ra sr)))

/-- R49, R52, R53: ECALL traps with cause 8 from U mode and 9 from S mode. ERET continues at EPC with IE and
PRIV restored from PIE and PPRIV; in U mode it traps with cause 1. -/
def ecallAndEret : Prop :=
  ∀ (s : State) (c : IsCore), Ready s (coreOf c) 1 1 →
    (∃ t, exec (.ecall c) s = .next t ∧
      Trapped s t c (if s.corePriv c then 9 else 8) (s.isAt c).pc 0) ∧
    (s.corePriv c = true →
      ∃ t, exec (.eret c) s = .next t ∧ (t.isAt c).pc = s.sr c 2 &&& 0xFFFFFFFC ∧
        (t.sr c 1).getLsbD 0 = (s.sr c 1).getLsbD 1 ∧ (t.sr c 1).getLsbD 2 = (s.sr c 1).getLsbD 3 ∧
        (t.sr c 1).getLsbD 1 = (s.sr c 1).getLsbD 1 ∧ (t.sr c 1).getLsbD 3 = (s.sr c 1).getLsbD 3 ∧
        (∀ n, n ≠ 1 → t.sr c n = s.sr c n) ∧ (∀ r, t.isG c r = s.isG c r) ∧
        t.isAt c = { (s.fetched (coreOf c) 1).isAt c with
          sr := (t.isAt c).sr, pc := (t.isAt c).pc, prior := (t.isAt c).prior,
          instret := (s.isAt c).instret + 1 } ∧
        t = { s.fetched (coreOf c) 1 with cc := t.cc, sg := t.sg } ∧ OtherCores s t (coreOf c)) ∧
    (s.corePriv c = false →
      ∃ t, exec (.eret c) s = .next t ∧ Trapped s t c 1 (s.isAt c).pc 0xD0000001)

/-- R49, R50: WFI continues at once when an input is pending and enabled and waits otherwise; the wait ends
when one is. FENCE continues once no write of the core waits for DRAM, and until then the core stays at it.
In U mode WFI traps with cause 1. -/
def waitAndFence : Prop :=
  ∀ (s : State) (c : IsCore),
    (Ready s (coreOf c) 1 1 → s.corePriv c = true → (∃ i, i < 64 ∧ s.irqReady c i = true) →
      ∃ t, exec (.wfi c) s = .next t ∧ Ran (s.fetched (coreOf c) 1) t (coreOf c) ((s.isAt c).pc + 4) 1 ∧
        ∀ r, t.isG c r = s.isG c r) ∧
    (Ready s (coreOf c) 1 1 → s.corePriv c = true → (∀ i, i < 64 → s.irqReady c i = false) →
      ∃ t, exec (.wfi c) s = .next t ∧
        t.isAt c = { (s.fetched (coreOf c) 1).isAt c with wfi := true } ∧
        t = { s.fetched (coreOf c) 1 with cc := t.cc, sg := t.sg } ∧ OtherCores s t (coreOf c)) ∧
    (Ready s (coreOf c) 1 1 → s.corePriv c = false →
      ∃ t, exec (.wfi c) s = .next t ∧ Trapped s t c 1 (s.isAt c).pc 0xD0000002) ∧
    ((s.isAt c).running = true → (s.isAt c).wfi = true → (∃ i, i < 64 ∧ s.irqReady c i = true) →
      ∃ t, exec (.wfiContinue c) s = .next t ∧
        t.isAt c = { s.isAt c with wfi := false, pc := (s.isAt c).pc + 4,
                                   instret := (s.isAt c).instret + 1 } ∧
        t = { s with cc := t.cc, sg := t.sg } ∧ OtherCores s t (coreOf c)) ∧
    (Ready s (coreOf c) 1 1 → (∀ w ∈ s.mc.waiting, ¬(w.port = 4 ∧ w.src = isIx c)) →
      ∃ t, exec (.fence c) s = .next t ∧
        Ran (s.fetched (coreOf c) 1) t (coreOf c) ((s.isAt c).pc + 4) 1 ∧ ∀ r, t.isG c r = s.isG c r) ∧
    (Ready s (coreOf c) 1 1 → (∃ w ∈ s.mc.waiting, w.port = 4 ∧ w.src = isIx c) →
      exec (.fence c) s = .next (s.fetched (coreOf c) 1))

/-- The cache-maintenance instruction of a control core has continued after itself and changed no core,
memory or cache but what is named. A line that goes to DRAM passes through the write buffers (R298). -/
def cacheRan (s t : State) (k : Fin 4) : Prop :=
  let s' := s.fetched (.cc k) 1
  (t.ccAt k).pc = (s.ccAt k).pc + 4 ∧ (∀ r, t.isG (.cc k) r = s.isG (.cc k) r) ∧
  (∀ n, t.sr (.cc k) n = s.sr (.cc k) n) ∧ OtherCores s t (.cc k) ∧ RegsBut s t dramRegs ∧
  t = { s' with cc := t.cc, mem := t.mem, poison := t.poison, dcache := t.dcache, mc := t.mc,
                regs := t.regs, top := { s'.top with rrPtr := t.top.rrPtr } }

/-- A dirty line has reached memory, or waits at its DRAM channel. -/
def lineStored (s t : State) (k : Fin 4) (l : CacheLine) : Prop :=
  let s' := s.fetched (.cc k) 1
  if s.region l.addr = .dram ∧ (s'.mustWait (s'.homeChan l.addr true) l.addr 64 true = true ∨
      samePortLine s'.mc.waiting 4 l.addr 64 = true) then
    t.mem = s.mem ∧
      ∃ w ∈ t.mc.waiting, w.port = 4 ∧ w.src = k ∧ w.addr = l.addr ∧ w.op = .ask (.write l.bytes)
  else t.mem = memStore s.mem l.addr l.bytes

/-- R51: on the Sagger the cache-maintenance instructions only continue, where they are allowed. -/
def sagCacheOps (s : State) (ra : BitVec 5) : Prop :=
  let cont := fun t : State => Ran (s.fetched .sg 1) t .sg (s.sg.pc + 4) 1 ∧ ∀ r, t.isG .sg r = s.isG .sg r
  (∃ t, exec (.dcwb .sg ra) s = .next t ∧ cont t) ∧
  (∃ t, exec (.dcflush .sg ra) s = .next t ∧ cont t) ∧
  (s.corePriv .sg = true →
    (∃ t, exec (.dcinv .sg ra) s = .next t ∧ cont t) ∧
    (∃ t, exec (.icinv .sg ra) s = .next t ∧ cont t)) ∧
  (s.corePriv .sg = false →
    (∃ t, exec (.dcinv .sg ra) s = .next t ∧
      Trapped s t .sg 1 s.sg.pc (BitVec.ofNat 32 (0xD0000021 + ra.toNat * 2 ^ 16))) ∧
    (∃ t, exec (.icinv .sg ra) s = .next t ∧
      Trapped s t .sg 1 s.sg.pc (BitVec.ofNat 32 (0xD0000023 + ra.toNat * 2 ^ 16))))

/-- R49, R51: cache maintenance by a control core in a cached region that it may read. DCWB writes a dirty
line back and keeps it clean; DCINV drops the line and leaves memory; DCFLUSH writes it back and drops it;
ICINV drops it from the core's instruction cache. In an uncached region, and on the Sagger, they only
continue; DCINV and ICINV trap in U mode.
Choices of the model, not of the spec: PROT checks the address of a cache instruction as a load, with cause
4 (log entry 20); the Sagger's DCINV and ICINV stay privileged (log entry 20). -/
def Obligations.CacheMaintenance : Prop :=
  (∀ (s : State) (ra : BitVec 5), Ready s .sg 1 1 → sagCacheOps s ra) ∧
  ∀ (s : State) (k : Fin 4) (ra : BitVec 5), Ready s (.cc k) 1 1 →
    let ea := s.coreG (.cc k) ra
    let a := s.physical (.cc k) ea
    (s.permits (s.coreMaster (.cc k)) a false = true → s.cached a = true → a < 2 ^ 48 →
      (∀ l, s.dcLine a = some l → l.dirty = true → l.bytes.length = 64 →
        (∃ t, exec (.dcwb (.cc k) ra) s = .next t ∧ cacheRan s t k ∧ lineStored s t k l ∧
          t.dcLine a = some { l with dirty := false }) ∧
        (∃ t, exec (.dcflush (.cc k) ra) s = .next t ∧ cacheRan s t k ∧ lineStored s t k l ∧
          t.dcLine a = none)) ∧
      ((∀ l, s.dcLine a = some l → l.dirty = false) →
        (∃ t, exec (.dcwb (.cc k) ra) s = .next t ∧ cacheRan s t k ∧ t.mem = s.mem ∧
          t.dcLine a = s.dcLine a) ∧
        (∃ t, exec (.dcflush (.cc k) ra) s = .next t ∧ cacheRan s t k ∧ t.mem = s.mem ∧
          t.dcLine a = none))) ∧
    (s.permits (s.coreMaster (.cc k)) a false = true → s.cached a = true → s.corePriv (.cc k) = true →
      (∃ t, exec (.dcinv (.cc k) ra) s = .next t ∧ cacheRan s t k ∧ t.mem = s.mem ∧ t.dcLine a = none ∧
        ∀ l ∈ s.dcache, l.addr ≠ a / 64 * 64 → l ∈ t.dcache) ∧
      (∃ t, exec (.icinv (.cc k) ra) s = .next t ∧ cacheRan s t k ∧ t.mem = s.mem ∧
        t.dcache = s.dcache ∧ a / 64 * 64 ∉ (t.ccAt k).icache)) ∧
    (s.permits (s.coreMaster (.cc k)) a false = true → s.cached a = false →
      let cont := fun t : State => Ran (s.fetched (.cc k) 1) t (.cc k) ((s.ccAt k).pc + 4) 1 ∧
        ∀ r, t.isG (.cc k) r = s.isG (.cc k) r
      (∃ t, exec (.dcwb (.cc k) ra) s = .next t ∧ cont t) ∧
      (∃ t, exec (.dcflush (.cc k) ra) s = .next t ∧ cont t) ∧
      (s.corePriv (.cc k) = true →
        (∃ t, exec (.dcinv (.cc k) ra) s = .next t ∧ cont t) ∧
        (∃ t, exec (.icinv (.cc k) ra) s = .next t ∧ cont t))) ∧
    (s.permits (s.coreMaster (.cc k)) a false = false →
      (∃ t, exec (.dcwb (.cc k) ra) s = .next t ∧ Trapped s t (.cc k) 4 (s.ccAt k).pc ea) ∧
      (∃ t, exec (.dcflush (.cc k) ra) s = .next t ∧ Trapped s t (.cc k) 4 (s.ccAt k).pc ea)) ∧
    (s.corePriv (.cc k) = false →
      (∃ t, exec (.dcinv (.cc k) ra) s = .next t ∧
        Trapped s t (.cc k) 1 (s.ccAt k).pc (BitVec.ofNat 32 (0xD0000021 + ra.toNat * 2 ^ 16))) ∧
      (∃ t, exec (.icinv (.cc k) ra) s = .next t ∧
        Trapped s t (.cc k) 1 (s.ccAt k).pc (BitVec.ofNat 32 (0xD0000023 + ra.toNat * 2 ^ 16))))

/-- R52 to R55: between instructions, with IE set, a core takes a pending enabled input i of the highest
priority, the first of them from IRQ_PTR on; a core in WFI completes it first. IRQ_PTR moves past the input,
and the core traps with cause 32 + i at the next instruction not yet executed. LAT3 is 0 at level 3 out of
WFI or the core's local SRAM with the vector in local SRAM. EADDR is not stated (log entry 12). -/
def interruptsAreVectored : Prop :=
  ∀ (s : State) (c : IsCore), (s.isAt c).running = true → s.coreIe c = true →
    (∀ i, i < 64 → s.irqReady c i = true →
      (∀ j, j < 64 → s.irqReady c j = true → s.irqPrio c j ≤ s.irqPrio c i) →
      (∀ j, j < 64 → s.irqReady c j = true → s.irqPrio c j = s.irqPrio c i →
        (i + 64 - (s.sr c 14).toNat % 64) % 64 ≤ (j + 64 - (s.sr c 14).toNat % 64) % 64) →
      let s' := s.onIs c fun x =>
        if x.wfi then { x with wfi := false, pc := x.pc + 4, instret := x.instret + 1 } else x
      ∃ t e, exec (.interrupt c) s = .next t ∧ Trapped s' t c (32 + i) (s'.isAt c).pc e [14, 15] ∧
        t.sr c 14 = BitVec.ofNat 32 ((i + 1) % 64) ∧
        (s.irqPrio c i ≠ 3 → t.sr c 15 = s.sr c 15) ∧
        (s.irqPrio c i = 3 → ((s.isAt c).wfi = true ∨ s.inLocal c (s.isAt c).pc = true) →
          (s.isAt c).prior.getLsbD i = false →
          s.inLocal c (s.sr c 5 + BitVec.ofNat 32 (4 * (32 + i))) = true → t.sr c 15 = 0) ∧
        t = { s with cc := t.cc, sg := t.sg, freeIx := t.freeIx }) ∧
    ((∀ i, i < 64 → s.irqReady c i = false) → exec (.interrupt c) s = .next s)

/-- R49, R50, R52 to R55: system calls, returns, waits, fences and interrupts.
Choices of the model, not of the spec: WFI retires at its end, and an interrupt completes it (log entry 17);
ERET clears the low bits of EPC (log entry 18); EADDR of an interrupt is not stated (log entry 12).
Where its event has not occurred, a command changes nothing: the model's choice (log entry 2). -/
def Obligations.ExceptionsReturnsAndWaits : Prop := ecallAndEret ∧ waitAndFence ∧ interruptsAreVectored

/-! ### Raster instructions -/

/-- An expansion core has run a one-word instruction of a cost: it continues after it with core state `c`;
nothing but its own state, memory and the draws of free values has changed. -/
def xcRan (s t : State) (x : Fin 144) (cost : Nat) (c : XcSt) : Prop :=
  t.xcAt x = { c with pc := (s.xcAt x).pc + 4, cycles := (s.xcAt x).cycles + cost } ∧
  t = { s with xc := t.xc, mem := t.mem, poison := t.poison, freeIx := t.freeIx } ∧
  OtherCores s t (.xc x)

/-- R61: d′ for a blend mode. -/
def blended (m s d : Nat) : Nat :=
  if m = 0 then s else if m = 1 then max s d else if m = 2 then min s d
  else if m = 3 then min 255 (s + d) else s + (d * (255 - s) + 127) / 255

/-- R60, R61, R63: the source values of dots are blended into the current buffer; dots without one, and all
other memory, are unchanged. -/
def Painted (s t : State) (x : Fin 144) (m : BitVec 3) (src : Nat → Nat → Option Nat) : Prop :=
  (∀ i j, i < 256 → j < 64 →
    memByte t.mem (s.tileBuf x + 256 * j + i) =
      match src i j with
      | some v => BitVec.ofNat 8 (blended m.toNat v (memByte s.mem (s.tileBuf x + 256 * j + i)).toNat)
      | none => memByte s.mem (s.tileBuf x + 256 * j + i)) ∧
  MemBut s t (s.tileBuf x) 16384

/-- R60, R62: the source value of a dot of which the area `a` is covered. -/
def areaSource (level : Byte) (a : Rat) : Option Nat :=
  let c := (255 * a + 1 / 2).floor.toNat
  if c = 0 then none else some ((c * level.toNat + 127) / 255)

/-- A number of units of 2⁻¹⁶, as a rational. -/
def units (v : Word) : Rat := (v.toInt : Rat) / 65536

/-- The length of [a, b) within [i, i + 1). -/
def within (a b : Rat) (i : Nat) : Rat := max 0 (min b (i + 1) - max a i)

/-- R67, R68: CLR fills the tile, SETL sets L, and the span registers are loaded, stored, set and read. -/
def Obligations.TileStateInstructions : Prop :=
  ∀ (s : State) (x : Fin 144) (a b : BitVec 5) (sp w : BitVec 2),
    (Ready s (.xc x) 1 130 →
      ∃ t, exec (.clr x a) s = .next t ∧ xcRan s t x 130 (s.xcAt x) ∧
        (∀ k, k < 16384 → memByte t.mem (s.tileBuf x + k) = (s.xg x a.toNat).setWidth 8) ∧
        MemBut s t (s.tileBuf x) 16384) ∧
    (Ready s (.xc x) 1 1 →
      (∃ t, exec (.setl x a) s = .next t ∧ t.mem = s.mem ∧
        xcRan s t x 1 { s.xcAt x with level := (s.xg x a.toNat).setWidth 8 }) ∧
      (∃ t, exec (.sset x sp b w) s = .next t ∧ t.mem = s.mem ∧
        xcRan s t x 1 { s.xcAt x with sp := (t.xcAt x).sp } ∧
        (∀ p k, k < 4 → t.xs x p k =
          if p = sp.toNat ∧ k = w.toNat then s.xg x b.toNat else s.xs x p k)) ∧
      (∃ t, exec (.sget x a sp w) s = .next t ∧ t.mem = s.mem ∧
        xcRan s t x 1 { s.xcAt x with g := (t.xcAt x).g } ∧
        Wrote s t (.xc x) a (s.xs x sp.toNat w.toNat))) ∧
    (Ready s (.xc x) 1 2 →
      let at16 := (s.xg x b.toNat).toNat / 16 * 16
      at16 + 16 ≤ localTop →
      (∃ t, exec (.sld x sp b) s = .next t ∧ t.mem = s.mem ∧
        xcRan s t x 2 { s.xcAt x with sp := (t.xcAt x).sp } ∧
        (∀ p k, k < 4 → t.xs x p k =
          if p = sp.toNat then BitVec.ofNat 32 (s.loadNat (XC_MEM x + at16 + 4 * k) 4) else s.xs x p k)) ∧
      (∃ t, exec (.sst x sp b) s = .next t ∧ xcRan s t x 2 (s.xcAt x) ∧
        (∀ k, k < 4 → t.loadNat (XC_MEM x + at16 + 4 * k) 4 = (s.xs x sp.toNat k).toNat) ∧
        MemBut s t (XC_MEM x + at16) 16))

/-- R69: REP with a count of 0 continues after the body; otherwise the body runs and its end leads back to
its first instruction until the count is used up. ADDI stands for the last instruction of the body. -/
def repRepeatsItsBody : Prop :=
  ∀ (s : State) (x : Fin 144) (a : BitVec 5) (n : BitVec 4) (e : Nat),
    let first := (s.xcAt x).pc + 4
    (Ready s (.xc x) 1 2 → s.bodyEnd x (n.toNat + 1) first.toNat = some e →
      (s.xg x a.toNat = 0 →
        ∃ t, exec (.rep x a n) s = .next t ∧
          t.xcAt x = { s.xcAt x with pc := BitVec.ofNat 32 e, cycles := (s.xcAt x).cycles + 2 } ∧
          t = { s with xc := t.xc } ∧ OtherCores s t (.xc x)) ∧
      (s.xg x a.toNat ≠ 0 →
        ∃ t, exec (.rep x a n) s = .next t ∧ t.mem = s.mem ∧
          xcRan s t x 2 { s.xcAt x with
            rep := some { first := first, after := BitVec.ofNat 32 e, left := (s.xg x a.toNat).toNat } })) ∧
    (Ready s (.xc x) 1 2 → s.bodyEnd x (n.toNat + 1) first.toNat = none →
      ∃ t, exec (.rep x a n) s = .next t ∧ (t.xcAt x).tile = none ∧
        ∃ h, (t.xcAt x).handed = some h ∧ h.illegal = true) ∧
    (∀ (r : RepSt) (rd ra : BitVec 5) (imm : BitVec 16), (s.xcAt x).rep = some r →
      s.xcLive x = true → (s.xcAt x).pc.toNat + 4 ≤ localTop →
      (s.xcAt x).cycles + 1 ≤ (s.xcAt x).cost → (s.xcAt x).pc + 4 = r.after →
      ∃ t, exec (.addi (.xc x) rd ra imm) s = .next t ∧
        Wrote s t (.xc x) rd (s.xg x ra.toNat + imm.signExtend 32) ∧
        (if 1 < r.left then (t.xcAt x).pc = r.first ∧ (t.xcAt x).rep = some { r with left := r.left - 1 }
         else (t.xcAt x).pc = r.after ∧ (t.xcAt x).rep = none))

/-- R58, R70, R71: TEND that fits in the declared cost hands the buffer over with the CRC of its bytes and
trailer; a core whose count has reached the declared cost hands it over with OVERRUN. The next tile uses the
other buffer. -/
def tilesEndByHandOver : Prop :=
  ∀ (s : State) (x : Fin 144) (key : TileKey), (s.xcAt x).tile = some key →
    let c := s.xcAt x
    let crc := crc32c (s.loadBytes (s.tileBuf x) 16384 ++
      (leBytes 4 c.start2.toNat ++ leBytes 2 c.start1.toNat ++ leBytes 1 c.start3.toNat ++ [c.vmiss]))
    (s.xcLive x = true → c.pc.toNat + 4 ≤ localTop → c.cycles + 136 ≤ c.cost →
      ∃ t, exec (.tend x) s = .next t ∧
        t.xcAt x = { c with
          cycles := c.cycles + 136, tile := none, rep := none, buf := !c.buf,
          handed := some { buf := c.buf, tile := key, crc := crc, illegal := false, overrun := false,
                           vmiss := c.vmiss } } ∧
        t = { s with xc := t.xc } ∧ OtherCores s t (.xc x)) ∧
    (s.xcLive x = true → c.pc.toNat + 4 ≤ localTop → c.cost < c.cycles + 136 →
      ∃ t, exec (.tend x) s = .next t ∧ t.xcAt x = { c with cycles := c.cost }) ∧
    (c.cost ≤ c.cycles →
      ∃ t, exec (.meteringStop x) s = .next t ∧
        t.xcAt x = { c with
          tile := none, rep := none, buf := !c.buf,
          handed := some { buf := c.buf, tile := key, crc := crc, illegal := false, overrun := true,
                           vmiss := c.vmiss } } ∧
        t = { s with xc := t.xc } ∧ OtherCores s t (.xc x))

/-- R39, R61, R71: the blend modes 5 to 7 are illegal, and the tile fails. An instruction whose cost does not
fit in what is left of the declared cost stops at that count, having written nothing but a subset of its
dots. -/
def illegalModesAndTheMeterStop : Prop :=
  ∀ (s : State) (x : Fin 144) (key : TileKey), (s.xcAt x).tile = some key → s.xcLive x = true →
    (∀ (m o : BitVec 3) (sp f : BitVec 2) (a b c : BitVec 5), 5 ≤ m.toNat →
      ∀ i, i = .span x sp b m ∨ i = .trapShape x sp b c m ∨ i = .cell x sp b m ∨ i = .blit x o a b c m ∨
        i = .unpk x a b c m ∨ i = .glyph x o a b c m ∨ i = .vfld x a f m ∨ i = .vstt x o b m →
        ∃ t, exec i s = .next t ∧ (t.xcAt x).tile = none ∧ t.mem = s.mem ∧ OtherCores s t (.xc x) ∧
          ∃ h, (t.xcAt x).handed = some h ∧ h.tile = key ∧ h.illegal = true) ∧
    (∀ rd ra rb : BitVec 5, (s.xcAt x).pc.toNat + 4 ≤ localTop →
      ((s.xcAt x).cost < (s.xcAt x).cycles + 34 →
        ∃ t, exec (.div (.xc x) rd ra rb) s = .next t ∧ t = { s with xc := t.xc } ∧
          OtherCores s t (.xc x) ∧ t.xcAt x = { s.xcAt x with cycles := (s.xcAt x).cost }) ∧
      ((s.xcAt x).cost < (s.xcAt x).cycles + 130 →
        ∃ t, exec (.clr x ra) s = .next t ∧ t = { s with xc := t.xc, mem := t.mem, poison := t.poison } ∧
          OtherCores s t (.xc x) ∧ t.xcAt x = { s.xcAt x with cycles := (s.xcAt x).cost } ∧
          MemBut s t (s.tileBuf x) 16384 ∧
          ∀ k, k < 16384 → memByte t.mem (s.tileBuf x + k) = (s.xg x ra.toNat).setWidth 8 ∨
            memByte t.mem (s.tileBuf x + k) = memByte s.mem (s.tileBuf x + k)))

/-- R39, R58, R61, R69 to R71: REP, and how a tile ends. -/
def Obligations.RepAndTileEnds : Prop := repRepeatsItsBody ∧ tilesEndByHandOver ∧ illegalModesAndTheMeterStop

/-- R66: the rows or columns that a cost counts, of bounds as rationals. -/
def counted (top : Nat) (a b : Rat) : Nat :=
  if a < b then (max 0 (min (top : Int) b.ceil - max 0 a.floor)).toNat else 0

/-- R60 to R63, R66, R72 to R74: SPAN, TRAP and CELL blend the exact area of their shape into each dot, at
the cost of their formulas; CELL then adds H to Y. The area of a trapezoid is trapArea. -/
def areaShapesPaintTheirArea : Prop :=
  ∀ (s : State) (x : Fin 144) (sp : BitVec 2) (b c : BitVec 5) (m : BitVec 3), m.toNat < 5 →
    let w := fun k => units (s.xs x sp.toNat k)
    let level := (s.xcAt x).level
    (let y0 : Int := ((s.xg x b.toNat).setWidth 16).toInt
     let n : Nat := (s.xg x b.toNat).toNat / 65536
     let cost := 4 + counted 64 y0 (y0 + n) * (1 + ceilDiv (counted 256 (w 0) (w 1)) 32)
     Ready s (.xc x) 1 cost →
      ∃ t, exec (.span x sp b m) s = .next t ∧ xcRan s t x cost (s.xcAt x) ∧
        Painted s t x m fun i j =>
          if y0 ≤ j ∧ (j : Int) < y0 + n then areaSource level (within (w 0) (w 1) i) else none) ∧
    (let yt := units (s.xg x b.toNat)
     let yb := units (s.xg x c.toNat)
     let lo := min (w 0) (w 0 + w 2 * (yb - yt))
     let hi := max (w 1) (w 1 + w 3 * (yb - yt))
     let cost := 6 + counted 64 yt yb * (2 + ceilDiv (counted 256 lo hi) 32)
     Ready s (.xc x) 1 cost →
      ∃ t, exec (.trapShape x sp b c m) s = .next t ∧ xcRan s t x cost (s.xcAt x) ∧
        Painted s t x m fun i j =>
          areaSource level (trapArea (w 0) (w 1) (w 2) (w 3) yt yb i j)) ∧
    (let cost := 4 + counted 64 (w 1) (w 1 + w 3) * (2 + ceilDiv (counted 256 (w 0) (w 0 + 32 * w 2)) 32)
     Ready s (.xc x) 1 cost →
      ∃ t, exec (.cell x sp b m) s = .next t ∧
        xcRan s t x cost { s.xcAt x with sp := (t.xcAt x).sp } ∧
        t.xs x sp.toNat 1 = s.xs x sp.toNat 1 + s.xs x sp.toNat 3 ∧
        (∀ p k, k < 4 → ¬(p = sp.toNat ∧ k = 1) → t.xs x p k = s.xs x p k) ∧
        Painted s t x m fun i j =>
          if w 2 ≤ 0 ∨ w 3 ≤ 0 then none
          else areaSource level (within (w 1) (w 1 + w 3) j *
            ((List.range 32).map fun k =>
              if (s.xg x b.toNat).getLsbD k then within (w 0 + k * w 2) (w 0 + (k + 1) * w 2) i
              else 0).sum))

/-- R73: the areas of the trapezoid of the worked example, and of a trapezoid with upright edges. -/
def trapezoidAreasOfTheWorkedExample : Prop :=
  let a := trapArea 30 40 (1 / 2) (1 / 2) 0 8
  a 30 0 = 3 / 4 ∧ a 31 0 = 1 ∧ a 39 0 = 1 ∧ a 40 0 = 1 / 4 ∧ a 41 0 = 0 ∧
  a 33 7 = 1 / 4 ∧ a 34 7 = 1 ∧ a 43 7 = 3 / 4 ∧ a 44 7 = 0 ∧
  areaSource 255 (a 30 0) = some 191 ∧ areaSource 255 (a 40 0) = some 64 ∧
  areaSource 255 (a 44 7) = none ∧
  ∀ (xl xr yt yb : Rat) (i j : Nat), xl ≤ xr →
    trapArea xl xr 0 0 yt yb i j = within yt yb j * within xl xr i

/-- R60 to R63, R72 to R74: the area instructions, and what the area of a trapezoid is. -/
def Obligations.AreaInstructionsPaintExactArea : Prop :=
  areaShapesPaintTheirArea ∧ trapezoidAreasOfTheWorkedExample

/-- R75: the source pixel of the dot at (u, v) of a placed bitmap of W × H pixels. -/
def sourcePixel (o : BitVec 3) (w h u v : Nat) : Nat × Nat :=
  let sx := if o.getLsbD 2 then v else u
  let sy := if o.getLsbD 2 then u else v
  (if o.getLsbD 1 then w - 1 - sx else sx, if o.getLsbD 0 then h - 1 - sy else sy)

/-- R60: the source value of an 8-bit or a 1-bit pixel at a byte offset. -/
def pixelValue (level : Byte) (oneBit : Bool) (v : Byte) (i : Nat) : Option Nat :=
  if oneBit then (if v.getLsbD (i % 8) then some level.toNat else none)
  else some ((v.toNat * level.toNat + 127) / 255)

/-- R76: BLIT places a bitmap that lies in data memory, in one of eight orientations, at the cost of the
placed rectangle. -/
def blitPlacesABitmap : Prop :=
  ∀ (s : State) (x : Fin 144) (o : BitVec 3) (a b c : BitVec 5) (m : BitVec 3), m.toNat < 5 →
    let base := (s.xg x a.toNat).toNat / 4 * 4
    let px : Int := ((s.xg x b.toNat).setWidth 16).toInt
    let py : Int := ((s.xg x b.toNat) >>> 16 |>.setWidth 16).toInt
    let g := s.xg x c.toNat
    let w := g.toNat % 256 + 1
    let h := g.toNat / 256 % 64 + 1
    let stride := 4 * (g.toNat / 65536 % 1024)
    let w' := if o.getLsbD 2 then h else w
    let h' := if o.getLsbD 2 then w else h
    let cost := 4 + h' * (1 + ceilDiv w' (if o.getLsbD 2 then 8 else 32))
    base + stride * (h - 1) + w ≤ localTop → Ready s (.xc x) 1 cost →
    ∃ t, exec (.blit x o a b c m) s = .next t ∧ xcRan s t x cost (s.xcAt x) ∧
      Painted s t x m fun i j =>
        if px ≤ i ∧ (i : Int) < px + w' ∧ py ≤ j ∧ (j : Int) < py + h' then
          let p := sourcePixel o w h (i - px).toNat (j - py).toNat
          let off := if g.getLsbD 26 then p.1 / 8 else p.1
          pixelValue (s.xcAt x).level (g.getLsbD 26)
            (memByte s.mem (XC_MEM x + base + stride * p.2 + off)) p.1
        else none

/-- R77, R78: a code outside the font draws nothing and leaves the pen; a glyph of the font, its bitmap in data
memory, draws its pixels within the cell, oriented about the pen, and advances the pen along the direction
of the text. -/
def glyphDrawsItsPixels : Prop :=
  ∀ (s : State) (x : Fin 144) (o : BitVec 3) (a b c : BitVec 5) (m : BitVec 3), m.toNat < 5 →
    let font := (s.xg x b.toNat).toNat / 4 * 4
    let g := (s.xg x c.toNat).toNat
    let code := g % 65536
    let cw := 8 * (g / 65536 % 16 + 1)
    let ch := g / 2 ^ 20 % 64 + 1
    let w' := if o.getLsbD 2 then ch else cw
    let h' := if o.getLsbD 2 then cw else ch
    let cost := 6 + h' * (1 + ceilDiv w' (if o.getLsbD 2 then 8 else 32))
    let word := fun k => s.loadNat (XC_MEM x + font + k) 4
    let first := word 4 % 65536
    let e := code - first
    let pen := s.xg x a.toNat
    Ready s (.xc x) 1 cost → font + 16 + 8 * e ≤ localTop →
    (code < first ∨ first + word 0 % 65536 ≤ code →
      ∃ t, exec (.glyph x o a b c m) s = .next t ∧ xcRan s t x cost (s.xcAt x) ∧
        MemBut s t 0 0) ∧
    (first ≤ code → code < first + word 0 % 65536 →
      let adv : Int := word (8 + 8 * e) / 2 ^ 20
      let step : Int := if o.getLsbD 1 then -adv else adv
      let px : Int := (pen.setWidth 16).toInt
      let py : Int := ((pen >>> 16).setWidth 16).toInt
      let dims := word (12 + 8 * e)
      let cols := min (dims % 256) cw
      let rows := min (dims / 256 % 256) ch
      let left : Int := (BitVec.ofNat 8 (dims / 65536)).toInt
      let above : Int := (BitVec.ofNat 8 (dims / 2 ^ 24)).toInt
      let oneBit := (word 0).testBit 16
      let stride := 4 * ceilDiv (dims % 256 * (if oneBit then 1 else 8)) 32
      let bitmap := font + word (8 + 8 * e) % 2 ^ 20
      bitmap + stride * rows ≤ localTop →
      ∃ t, exec (.glyph x o a b c m) s = .next t ∧
        xcRan s t x cost { s.xcAt x with g := (t.xcAt x).g } ∧
        Wrote s t (.xc x) a
          (BitVec.ofInt 32 (((py + if o.getLsbD 2 then step else 0) % 65536) * 65536 +
            (px + if o.getLsbD 2 then 0 else step) % 65536)) ∧
        Painted s t x m fun i j =>
          let across := if o.getLsbD 2 then (j : Int) - py else (i : Int) - px
          let down := if o.getLsbD 2 then (i : Int) - px else (j : Int) - py
          let col := (if o.getLsbD 1 then -across - 1 else across) - left
          let row := (if o.getLsbD 0 then -down - 1 else down) + above
          if 0 ≤ col ∧ col < cols ∧ 0 ≤ row ∧ row < rows then
            pixelValue (s.xcAt x).level oneBit
              (memByte s.mem (XC_MEM x + bitmap + stride * row.toNat +
                (if oneBit then col.toNat / 8 else col.toNat))) col.toNat
          else none)

/-- R75 to R78: bitmaps and glyphs. -/
def Obligations.BitmapsAndGlyphsDraw : Prop := blitPlacesABitmap ∧ glyphDrawsItsPixels

/-- R79, R80: UNPK writes the values of its stream to the rectangle row by row and returns the address after
its last token; the tokens of the worked example decode to 8 zeros, the values 40, 128, 200 and 255, the
dictionary entry 3, and on a first row 4 zeros. -/
def unpackDecodesCompactRaster : Prop :=
  (∀ (s : State) (x : Fin 144) (a b c : BitVec 5) (m : BitVec 3), m.toNat < 5 →
    let g := (s.xg x c.toNat).toNat
    let w := g / 2 ^ 14 % 256 + 1
    let n := g / 2 ^ 22 % 64 + 1
    let cost := 4 + n * (2 + ceilDiv w 4)
    let read := fun p => (s.localByte s.freeIx x (p % 2 ^ 32)).toNat
    let dict := fun k => (((s.xv x (k / 4)).drop (8 * (k % 4))).take 8).map BitVec.toNat
    let r := unpackAll read dict w (n * w) (n * w) { vals := [], pos := (s.xg x b.toNat).toNat }
    Ready s (.xc x) 1 cost →
    ∃ t, exec (.unpk x a b c m) s = .next t ∧ xcRan s t x cost { s.xcAt x with g := (t.xcAt x).g } ∧
      Wrote s t (.xc x) a (BitVec.ofNat 32 r.pos) ∧ n * w ≤ r.vals.length ∧
      Painted s t x m fun i j =>
        if g % 256 ≤ i ∧ i < g % 256 + w ∧ g / 256 % 64 ≤ j ∧ j < g / 256 % 64 + n then
          some ((r.vals.reverse.getD ((j - g / 256 % 64) * w + (i - g % 256)) 0 *
            (s.xcAt x).level.toNat + 127) / 255)
        else none) ∧
  (∀ dict : Nat → List Nat, (dict 3).length = 8 →
    let bytes := [0x07, 0x00, 0x43, 0x28, 0x80, 0xC8, 0xFF, 0xC3, 0x83]
    unpackAll (fun p => bytes.getD p 0) dict 24 24 24 { vals := [], pos := 0 } =
      { vals := (List.replicate 8 0 ++ [40, 128, 200, 255] ++ dict 3 ++ List.replicate 4 0).reverse,
        pos := 9 })

/-- R86: VFLD draws the window of the product that owns the anchor line when its field is latched ready, or
sets the window's miss bit and writes nothing; it costs 582 cycles whichever it does. -/
def variableFieldDrawsOrMisses : Prop :=
  ∀ (s : State) (x : Fin 144) (a : BitVec 5) (f : BitVec 2) (m : BitVec 3), m.toNat < 5 →
    Ready s (.xc x) 1 582 →
    let g5 := (s.xcAt x).start5.toNat
    let line := (s.xg x a.toNat).toNat % 64
    let next := g5 / 2 ^ 24 % 64
    let w := if next ≠ 0 ∧ next ≤ line then 4 + f.toNat else f.toNat
    (¬(next ≠ 0 ∧ next ≤ line) → 2 ^ 31 ≤ g5 →
      ∃ t, exec (.vfld x a f m) s = .next t ∧ xcRan s t x 582 (s.xcAt x) ∧ MemBut s t 0 0) ∧
    ((next ≠ 0 ∧ next ≤ line) ∨ g5 < 2 ^ 31 →
      ((s.xcAt x).windows = true → (s.xcAt x).ready.getLsbD w = true →
        ∃ t, exec (.vfld x a f m) s = .next t ∧ xcRan s t x 582 (s.xcAt x) ∧
          Painted s t x m fun i j =>
            if (memByte s.mem (XC_MEM x + 0x34000 + 2048 * w + 32 * j + i / 8)).getLsbD (i % 8) then
              some (s.xcAt x).level.toNat else none) ∧
      ((s.xcAt x).windows = false ∨ (s.xcAt x).ready.getLsbD w = false →
        ∃ t, exec (.vfld x a f m) s = .next t ∧ t.mem = s.mem ∧
          xcRan s t x 582 { s.xcAt x with vmiss := (s.xcAt x).vmiss ||| BitVec.ofNat 8 (2 ^ w) }))

/-- R79, R80, R86: compact raster data and variable fields. -/
def Obligations.CompactRasterAndFieldsDraw : Prop := unpackDecodesCompactRaster ∧ variableFieldDrawsOrMisses

/-- A lane operation of two vectors. -/
def lanesOf (i : Fin 144 → BitVec 3 → BitVec 3 → BitVec 3 → Instr) (f : Nat → Nat → Nat) : Prop :=
  ∀ (s : State) (x : Fin 144) (va vb vc : BitVec 3), Ready s (.xc x) 1 1 →
    ∃ t, exec (i x va vb vc) s = .next t ∧ t.mem = s.mem ∧
      xcRan s t x 1 { s.xcAt x with v := (t.xcAt x).v } ∧
      (∀ k, k < 32 → (t.xv x va.toNat).getD k 0 =
        BitVec.ofNat 8 (f ((s.xv x vb.toNat).getD k 0).toNat ((s.xv x vc.toNat).getD k 0).toNat)) ∧
      (∀ r, r ≠ va.toNat → t.xv x r = s.xv x r)

/-- R81: the arithmetic of the vector group. -/
def vectorArithmetic : Prop :=
  lanesOf .vadds (fun a b => min 255 (a + b)) ∧ lanesOf .vsubs (fun a b => a - b) ∧
  lanesOf .vmin (fun a b => min a b) ∧ lanesOf .vmax (fun a b => max a b) ∧
  lanesOf .vmuls (fun a b => (a * b + 127) / 255) ∧
  lanesOf .vover (fun a b => a + (b * (255 - a) + 127) / 255) ∧
  (∀ (s : State) (x : Fin 144) (a c : BitVec 5) (v : BitVec 3),
    (Ready s (.xc x) 1 1 →
      ∃ t, exec (.vext x a v c) s = .next t ∧ t.mem = s.mem ∧
        xcRan s t x 1 { s.xcAt x with g := (t.xcAt x).g } ∧
        Wrote s t (.xc x) a
          (((s.xv x v.toNat).getD ((s.xg x c.toNat).toNat % 32) 0).setWidth 32)) ∧
    (Ready s (.xc x) 1 2 →
      ∃ t, exec (.vsum x a v) s = .next t ∧ t.mem = s.mem ∧
        xcRan s t x 2 { s.xcAt x with g := (t.xcAt x).g } ∧
        Wrote s t (.xc x) a (BitVec.ofNat 32 ((s.xv x v.toNat).map BitVec.toNat).sum)))

/-- R81: the moves of the vector group: between vectors and data memory, and between vectors and a segment
of the tile. -/
def vectorLoadsAndStores : Prop :=
  ∀ (s : State) (x : Fin 144) (v : BitVec 3) (b : BitVec 5) (m : BitVec 3), Ready s (.xc x) 1 1 →
    let g := (s.xg x b.toNat).toNat
    let seg := s.tileBuf x + g / 256 % 64 * 256 + g % 256 / 32 * 32
    let loaded := fun (t : State) (bs : List Byte) =>
      t.mem = s.mem ∧ xcRan s t x 1 { s.xcAt x with v := (t.xcAt x).v } ∧ t.xv x v.toNat = bs ∧
        (∀ r, r ≠ v.toNat → t.xv x r = s.xv x r)
    (g / 32 * 32 + 32 ≤ localTop →
      (∃ t, exec (.vld x v b) s = .next t ∧ loaded t (s.loadBytes (XC_MEM x + g / 32 * 32) 32)) ∧
      (∃ t, exec (.vst x v b) s = .next t ∧ xcRan s t x 1 (s.xcAt x) ∧
        t.loadBytes (XC_MEM x + g / 32 * 32) 32 = s.xv x v.toNat ∧
        MemBut s t (XC_MEM x + g / 32 * 32) 32)) ∧
    (∃ t, exec (.vldt x v b) s = .next t ∧ loaded t (s.loadBytes seg 32)) ∧
    (m.toNat < 5 →
      ∃ t, exec (.vstt x v b m) s = .next t ∧ xcRan s t x 1 (s.xcAt x) ∧
        (∀ k, k < 32 → memByte t.mem (seg + k) = BitVec.ofNat 8
          (blended m.toNat ((s.xv x v.toNat).getD k 0).toNat (memByte s.mem (seg + k)).toNat)) ∧
        MemBut s t seg 32) ∧
    (∃ t, exec (.vspl x v b) s = .next t ∧ loaded t (List.replicate 32 (BitVec.ofNat 8 g)))

/-- R81: the vector group. -/
def Obligations.VectorInstructions : Prop := vectorArithmetic ∧ vectorLoadsAndStores

/-! ### Admission and tiles -/

/-- A command of the admission unit in a state of its slot that the rule does not name is ignored and logged
(R117). -/
def slotIgnored (s : State) (j : Fin 2) (i : Instr) : Prop :=
  ∃ t, exec i s = .next t ∧ Frame s t [] [] ∧
    Reported s t (commonCode 0 BLK_ADM 0x38) 0xFF (BitVec.ofNat 48 (regAddr (SLOT_CMD j)))

/-- R9, R117: ADMIT of an idle, admitted or rejected slot moves it to CHECKING; in any other state the
command is ignored and logged. The end of the checks, once the job header is read, moves it to ADMITTED or
REJECTED with the verdict, and reports it. RELEASE of an admitted or rejected slot frees it, of an armed one
returns it to ADMITTED, of a running one lets it drain from its first band not dispatched. While the
admission unit's domain is not awake, the commands are ignored and logged. -/
def slotCommandsMoveTheirSlot : Prop :=
  ∀ (s : State) (j : Fin 2),
    (s.awake BLK_ADM = false → ∀ i, i = .admitJob j ∨ i = .release j ∨ i = .slotStart j →
      ∃ t, exec i s = .next t ∧ Frame s t [] [] ∧
        Reported s t (commonCode 0 BLK_ADM 0x39) 0xFF (BitVec.ofNat 48 (regAddr (SLOT_CMD j)))) ∧
    (s.awake BLK_ADM = true →
      (s.slotState j ∈ [0, 2, 3] →
        ∃ t, exec (.admitJob j) s = .next t ∧ t.slotState j = 1 ∧ t = { s with regs := t.regs } ∧
          RegsBut s t [ADM_SLOT_STAT j]) ∧
      (s.slotState j ∉ [0, 2, 3] → slotIgnored s j (.admitJob j)) ∧
      (s.slotState j = 2 ∨ s.slotState j = 3 →
        ∃ t, exec (.release j) s = .next t ∧ t.slotState j = 0 ∧ t.jobAt j = none ∧
          t = { s with regs := t.regs, adm := { s.adm with jobs := t.adm.jobs } } ∧
          RegsBut s t [ADM_SLOT_STAT j]) ∧
      (s.slotState j = 4 →
        ∃ t, exec (.release j) s = .next t ∧ t.slotState j = 2 ∧ t.mem = s.mem ∧
          RegsBut s t [ADM_SLOT_STAT j] ∧ t.adm = s.adm) ∧
      (s.slotState j = 5 →
        ∃ t, exec (.release j) s = .next t ∧ t.slotState j = 6 ∧ t.mem = s.mem ∧
          RegsBut s t [ADM_SLOT_STAT j] ∧
          ∀ job, s.jobAt j = some job →
            t.jobAt j = some { job with stopLn := min job.stopLn (s.firstOpen job) }) ∧
      (s.slotState j ∉ [2, 3, 4, 5] → slotIgnored s j (.release j))) ∧
    (s.slotState j = 1 → s.dramStalls (0, 0) false .keep [(s.jobBase j, 256)] = none →
      let s' := (s.dramReads (0, 0) .keep [(s.jobBase j, 256)]).draw.2
      let v := s'.verdict s.freeIx (s.jobBase j)
      ∃ t, exec (.admissionComplete j) s = .next t ∧
        (t.slotState j = (if v.reason = 0 then 2 else 3) ∧ t.jobAt j = v.job ∧
         t.fld (ADM_SLOT_STAT j) ADM_SLOT_STAT_VERDICT = (if v.reason = 0 then 1 else 0) ∧
         t.fld (ADM_SLOT_STAT j) ADM_SLOT_STAT_REASON = v.reason ∧
         t.fld (ADM_SLOT_STAT j) ADM_SLOT_STAT_BIND = v.bind ∧
         t.reg (ADM_RATE j) = BitVec.ofNat 32 v.rate ∧
         t.reg (ADM_MARGIN j) = BitVec.ofNat 32 (twos 16 v.margin) ∧
         t.reg (ADM_WORST j) = BitVec.ofNat 32 v.worst) ∧
        EventSet t BLK_ADM j ∧
        Frame { s' with adm := { s.adm with jobs := t.adm.jobs } } t
          [ADM_SLOT_STAT j, ADM_RATE j, ADM_MARGIN j, ADM_WORST j] [BLK_ADM]) ∧
    (s.slotState j ≠ 1 → exec (.admissionComplete j) s = .next s)

/-- START is refused for a reason: the slot stays as it is, and an event reports it (R118). -/
def startRefused (s : State) (j : Fin 2) (reason : Nat) : Prop :=
  ∃ t, exec (.slotStart j) s = .next t ∧ t.slotState j = s.slotState j ∧
    t.fld (ADM_SLOT_STAT j) ADM_SLOT_STAT_REASON = reason ∧ EventSet t BLK_ADM j ∧
    Frame s t [ADM_SLOT_STAT j] [BLK_ADM]

/-- R117, R118: START of an admitted slot whose GO_LN is no band boundary, or too near the last line event,
is refused with reason 14. With no job running, one that may go runs from GO_LN. With one running, it is
refused with reason 12 if the two may not join, with 13 if a transition window is too heavy, and else
arms. Its window goes to the Sagger. In any other state START is ignored and logged. -/
def startChecksItsLine : Prop :=
  (∀ (s : State) (j : Fin 2), s.awake BLK_ADM = true → s.slotState j ≠ 2 → slotIgnored s j (.slotStart j)) ∧
  ∀ (s : State) (j : Fin 2) (job : JobSt), s.awake BLK_ADM = true → s.jobAt j = some job →
    let go := s.reg64 GO_LN_LO GO_LN_HI
    let job' := { job with goLn := go, stopLn := job.hdr.endLn }
    let goes := fun (state : Nat) => ∃ t, exec (.slotStart j) s = .next t ∧ t.slotState j = state ∧
      t.mem = s.mem ∧ t.jobAt j = some job' ∧
      t.si.winSent.get none j = some { slot := j, lo := go, hi := job.hdr.endLn }
    (s.slotState j = 2 → go % 64 ≠ 0 ∨ (go : Int) < s.lastLn + 320 + job.hdr.lead → startRefused s j 14) ∧
    (s.slotState j = 2 → go % 64 = 0 → s.lastLn + 320 + job.hdr.lead ≤ (go : Int) →
      (s.slotState (1 - j.val) ∉ [5, 6] → goes 5) ∧
      (s.slotState (1 - j.val) ∈ [5, 6] → ∀ old, s.jobAt (1 - j.val) = some old →
        let f := min (s.reg (ADM_RATE j)).toNat (s.reg (ADM_RATE (1 - j.val))).toNat
        (seamFits old.hdr job.hdr = false → startRefused s j 12) ∧
        (seamFits old.hdr job.hdr = true →
          (s.seamLoad old job' f go = true → startRefused s j 13) ∧
          (s.seamLoad old job' f go = false → goes 4))))

/-- R120: once Ncap has changed, at a band boundary or while no slot runs, each slot's job gets the lower of
its rate for the cores now counted and its other rates; a lower rate is reported by an event and fault
0x2104 with the new rate, a higher one by an event. -/
def ratesFollowTheCores : Prop :=
  ∀ s : State, s.adm.ratePend = true →
    s.lastLn % 64 = 0 ∨ (s.slotState 0 ∉ [5, 6] ∧ s.slotState 1 ∉ [5, 6]) →
    let rated := fun (job : JobSt) => min (computeRate (min 126 s.ncap) job.dMax) job.fOther
    ∃ t, exec .rateChange s = .next t ∧ t.adm.ratePend = false ∧ t.mem = s.mem ∧
      (∀ j, j < 2 →
        match s.jobAt j with
        | some job =>
          let new := rated job
          t.reg (ADM_RATE j) = BitVec.ofNat 32 new ∧
            (new < (s.reg (ADM_RATE j)).toNat → EventSet t BLK_ADM 6 ∧
              ((∀ other, s.jobAt (1 - j) = some other → (s.reg (ADM_RATE (1 - j))).toNat ≤ rated other) →
                Reported s t 0x2104 (BitVec.ofNat 8 j) (BitVec.ofNat 48 new))) ∧
            ((s.reg (ADM_RATE j)).toNat < new → EventSet t BLK_ADM 7)
        | none => t.reg (ADM_RATE j) = s.reg (ADM_RATE j)) ∧
      RegsBut s t ([ADM_RATE 0, ADM_RATE 1] ++ reportRegs [BLK_ADM])

/-- R9, R117, R118, R120: the states of the slots, and the rates of their jobs.
Choices of the model, not of the spec: RELEASE of a running slot drains from its first band not dispatched,
and a rate changes at a band boundary (log entry 28).
Where its event has not occurred, a command changes nothing: the model's choice (log entry 2). -/
def Obligations.JobSlotsFollowTheirCommands : Prop :=
  slotCommandsMoveTheirSlot ∧ startChecksItsLine ∧ ratesFollowTheCores

/-- R40, R59, R85: from line event R on, the next fetched tile of an idle core starts with the values of the
table, at its program's entry; its field windows are placed, and other memory is unchanged. -/
def tileStartsWithItsValues : Prop :=
  ∀ (s : State) (x : Fin 144) (tile : TileSt), s.nextOn x RenderPhase.isFetched = some tile →
    s.clocked BLK_XC = true → (s.xcAt x).tile = none → (s.xcAt x).handed = none → s.tileR tile ≤ s.lastLn →
    let base := if tile.renders.any (fun r => r.core == x.val && decide (r.phase = .fetched true)) then
      106496 else 0
    ∃ t, exec (.tileStart x) s = .next t ∧ (t.xcAt x).tile = some tile.key ∧
      (t.xcAt x).pc = BitVec.ofNat 32 (base + tile.entry) ∧
      (∀ r, t.coreG (.xc x) r =
        if r = 1 then BitVec.ofNat 32 (256 * tile.key.col)
        else if r = 2 then BitVec.ofNat 32 tile.key.band
        else if r = 3 then BitVec.ofNat 32 tile.key.plane
        else if r = 4 then BitVec.ofNat 32 (base + 16 * tile.dofs)
        else if r = 5 then tile.g5 else 0) ∧
      (∀ v, t.xv x v = List.replicate 32 0) ∧ (∀ p k, t.xs x p k = 0) ∧
      (t.xcAt x).level = 255 ∧ (t.xcAt x).vmiss = 0 ∧ (t.xcAt x).cycles = 0 ∧ (t.xcAt x).rep = none ∧
      (t.xcAt x).cost = tile.cost ∧ (t.xcAt x).buf = (s.xcAt x).buf ∧
      (if tile.fw then
        (∀ w i, w < 8 → i < 2048 → memByte t.mem (XC_MEM x + 0x34000 + 2048 * w + i) =
          (s.fieldWindow tile w).getD i 0) ∧ MemBut s t (XC_MEM x + 0x34000) 0x4000
      else t.mem = s.mem) ∧
      t = { s with xc := t.xc, mem := t.mem, poison := t.poison,
                   adm := { s.adm with tiles := t.adm.tiles } } ∧
      OtherCores s t (.xc x)

/-- R58: the band assembler reads a handed buffer and clears it; every other byte of memory is unchanged,
and the render of a tile still waited for is delivered with its bytes, CRC and status. -/
def handedBuffersAreCleared : Prop :=
  ∀ (s : State) (x : Fin 144) (h : Handed), (s.xcAt x).handed = some h →
    let base := XC_MEM x + 0x38000 + (if h.buf then 0x4000 else 0)
    ∃ t, exec (.bufferReadAndClear x) s = .next t ∧ t.xcAt x = { s.xcAt x with handed := none } ∧
      (∀ i, i < 16384 → memByte t.mem (base + i) = 0) ∧ MemBut s t base 16384 ∧
      t = { s with xc := t.xc, mem := t.mem, poison := t.poison, adm := { s.adm with tiles := t.adm.tiles } } ∧
      OtherCores s t (.xc x) ∧
      ∀ tile, s.findTile h.tile = some tile → tile.fate = .waiting →
        ∀ r ∈ tile.renders, r.core = x.val → r.phase = .running →
          ∃ tile', t.findTile h.tile = some tile' ∧ ∃ r' ∈ tile'.renders, r'.core = x.val ∧
            r'.phase = .delivered ∧ r'.crc = h.crc ∧ r'.illegal = h.illegal ∧ r'.overrun = h.overrun ∧
            r'.vmiss = h.vmiss ∧ ∀ i, i < 16384 → r'.bytes.get 0 i = memByte s.mem (base + i)

/-- R95: the fetch list of a core's next tile is copied into its next fetch area, one tile ahead and no
earlier than 64 line events before the tile may start; no byte outside the core's data memory changes,
and the tile is ready to start. The bytes of a list's only entry, of a list and a source that PROT permits, are
its source's; unmapped ones read zero.
A copy that must wait for DRAM has not begun. -/
def prefetchFillsTheNextArea : Prop :=
  ∀ (s : State) (x : Fin 144) (tile : TileSt),
    s.nextOn x (fun ph => decide (ph = .queued)) = some tile → s.nextOn x RenderPhase.isFetched = none →
    s.clocked BLK_XC = true → s.tileR tile - 64 ≤ s.lastLn →
    let es := (List.range (min 4096 (s.listLen tile.fl))).map (s.listEnt tile.fl)
    let base := XC_MEM x + areaBase (s.xcAt x).area
    let stall := s.dramStalls (0, fetchSrc x) false .keep
      ((tile.fl, 16 * (es.length + 1)) :: es.map fun e => (lstSrc e, fetchLen e))
    (∀ t, stall = some t → exec (.prefetch x) s = .next t) ∧
    (stall = none →
      ∃ t, exec (.prefetch x) s = .next t ∧ t.xc = s.xc ∧ MemBut s t (XC_MEM x) 0x38000 ∧
        RegsBut s t ([MC_CNT 1] ++ reportRegs [BLK_MC]) ∧
        (∀ u ∈ t.adm.tiles, u.key = tile.key → ∀ r ∈ u.renders, r.core = x.val →
          r.phase = .fetched (s.xcAt x).area) ∧
        ∀ e, es = [e] → s.permitsAll .xc tile.fl 32 false = true →
          s.permitsAll .xc (lstSrc e) (fetchLen e) false = true →
          ∀ i, i < fetchLen e → memByte t.mem (base + lstDst e + i) =
            (s.viewMapped (lstSrc e) (fetchLen e)).getD i 0)

/-- R40, R58, R59, R85, R95, R101, R102: fetch areas, starts of tiles, and buffers.
Choices of the model, not of the spec: a copy that must wait for DRAM has not begun (log entry 76); the
windows are filled at TILE_START (log entry 25). -/
def Obligations.TilesStartAndAreCleared : Prop :=
  tileStartsWithItsValues ∧ handedBuffersAreCleared ∧ prefetchFillsTheNextArea

/-- A tile's coverage is stored in its slot, if it has one, and other memory but that of the cores, which a
test that ends may clear, is unchanged. -/
def slotHolds (s t : State) (tile tile' : TileSt) (bytes : Nat → Byte) : Prop :=
  tile'.slot = tile.slot ∧
  (∀ n, tile.slot = some n → ∀ i, i < 16384 → memByte t.mem (COV_SLOT n + i) = bytes i) ∧
  (∀ a, a < XC_MEM 0 ∨ XC_MEM 144 ≤ a →
    (∀ n, tile.slot = some n → a < COV_SLOT n ∨ COV_SLOT n + 16384 ≤ a) →
    memByte t.mem a = memByte s.mem a)

/-- R110: when every render that was started has been delivered and two valid ones agree, the tile is
accepted with their coverage, in a line-paced job before line event R + 64. R112: a tile of a line-paced
job not accepted by then is released as zero dose, counted and reported. -/
def Obligations.VoteOrZeroDose : Prop :=
  ∀ (s : State) (p : Fin 8) (band : BitVec 64) (col : Fin 256) (tile : TileSt),
    let key : TileKey := { plane := p, band := band.toNat, col := col }
    s.findTile key = some tile → (∀ n, tile.slot = some n → n < 4096) → tile.fate = .waiting →
    (tile.fetchBad = false → (∀ r ∈ tile.renders, r.phase = .delivered) →
      s.tileFeed tile = true ∨ s.lastLn < s.tileR tile + 64 →
      ∀ r, tile.majority tile.renders = some r →
      ∃ t tile', exec (.vote p band col) s = .next t ∧ t.findTile key = some tile' ∧
        tile'.fate = .accepted ∧ tile'.vmiss = r.vmiss ∧
        slotHolds s t tile tile' fun i => r.bytes.get 0 i) ∧
    (s.tileFeed tile = false → s.tileR tile + 64 ≤ s.lastLn →
      ∀ i, i = .releasedAsZeroDose p band col ∨
          ((∀ r ∈ tile.renders, r.phase = .delivered) ∧ i = .vote p band col) →
      ∃ t tile', exec i s = .next t ∧ t.findTile key = some tile' ∧
        tile'.fate = .zero ∧ slotHolds s t tile tile' (fun _ => 0) ∧ EventSet t BLK_ADM 4 ∧
        t.reg (ADM_CNT 1) = satInc (s.reg (ADM_CNT 1)) ∧
        Reported s t 0x1103 0xFF (BitVec.ofNat 48 key.info))

/-! ### Dose stage -/

/-- R142, R144: the set in progress is computed and leaves, and a slot's DELAY is its SFRAC of the period;
with none, nothing happens. -/
def packetSetsLeaveInOrder : Prop :=
  (∀ (s : State) (p : PacketSet) (rest : List PacketSet), s.clocked BLK_DS = true → s.ds.sets = p :: rest →
    ∃ t, exec .packetSet s = .next t ∧ t.ds.sets = rest ∧ t.lc = s.lc ∧ t.fs = s.fs ∧
      (∀ x, p.slots = [x] → x.slot < 64 → p.per < 2 ^ 24 →
        t.fld (DS_SLOT_STAT x.slot) DS_SLOT_STAT_DELAY =
          (s.fld (SLOT_CFG x.slot) SLOT_CFG_SFRAC * p.per + 128) / 256)) ∧
  (∀ s : State, s.ds.sets = [] → exec .packetSet s = .next s)

/-- R145: a COMMIT while BUSY is ignored and logged; else the receiver index is built for the T of
DS_EPOCH_LN and BUSY is set. A T that is no multiple of 64 is refused with RESULT 3, one at or below the
highest line read with RESULT 2, each with an event; then BUSY is clear and the active copy stays. An accepted
one waits for the slots that read; with none, it takes effect at once with RESULT 1, and the matrices with it. -/
def epochCommitsAreChecked : Prop :=
  ∀ s : State,
    Asleep s DS_EPOCH_CMD .commit ∧
    (s.awake BLK_DS = true →
      (s.bit DS_EPOCH_STAT DS_EPOCH_STAT_BUSY = true → Ignored s DS_EPOCH_CMD .commit) ∧
      (s.bit DS_EPOCH_STAT DS_EPOCH_STAT_BUSY = false →
        ∃ t, exec .commit s = .next t ∧ t.ds.building = some (s.reg64 DS_EPOCH_LN_LO DS_EPOCH_LN_HI) ∧
          t.bit DS_EPOCH_STAT DS_EPOCH_STAT_BUSY = true ∧
          t = { s with regs := t.regs, ds := { s.ds with building := t.ds.building } } ∧
          RegsBut s t [DS_EPOCH_STAT])) ∧
    (∀ target, s.clocked BLK_DS = true → s.ds.building = some target →
      let refused := fun (r : Nat) => ∃ t, exec .receiverIndexBuilt s = .next t ∧
        t.fld DS_EPOCH_STAT DS_EPOCH_STAT_RESULT = r ∧
        t.bit DS_EPOCH_STAT DS_EPOCH_STAT_BUSY = false ∧ t.dsActive = s.dsActive ∧
        EventSet t BLK_DS 1 ∧ Frame { s with ds := { s.ds with building := none } } t
          [DS_EPOCH_STAT] [BLK_DS]
      (target % 64 ≠ 0 → refused 3) ∧
      (∀ y, target % 64 = 0 → target ≠ 0 → s.highestRead = some y → (target : Int) ≤ y → refused 2) ∧
      let T := if target ≠ 0 then target else match s.highestRead with
        | some y => if y < 0 then 0 else 64 * (y.toNat / 64 + 1)
        | none => 0
      (target % 64 = 0 → (target = 0 ∨ ∀ y, s.highestRead = some y → y < (target : Int)) →
        ∃ t, exec .receiverIndexBuilt s = .next t ∧ t.ds.building = none ∧
          (target = 0 → s.highestRead ≠ none → t.reg64 DS_EPOCH_LN_LO DS_EPOCH_LN_HI = T % 2 ^ 64) ∧
          (s.readingSlots = [] →
            t.dsActive = 1 - s.dsActive ∧ t.bit DS_EPOCH_STAT DS_EPOCH_STAT_BUSY = false ∧
            t.fld DS_EPOCH_STAT DS_EPOCH_STAT_RESULT = 1 ∧ t.ds.switch = none ∧ EventSet t BLK_DS 0 ∧
            ∀ p : Fin 8, t.fld (PLANE_MSEL p) PLANE_MSEL_ACTIVE = s.fld (PLANE_MSEL p) PLANE_MSEL_NEXT) ∧
          (s.readingSlots ≠ [] →
            t.dsActive = s.dsActive ∧
            t.bit DS_EPOCH_STAT DS_EPOCH_STAT_BUSY = s.bit DS_EPOCH_STAT DS_EPOCH_STAT_BUSY ∧
            ∃ w, t.ds.switch = some w ∧ w.target = T))) ∧
    (s.ds.building = none → exec .receiverIndexBuilt s = .next s)

/-- R147: HOLD sets DS_CTRL.HOLD; HOLD off also ends HOLDING. -/
def holdSetsItsBit : Prop :=
  ∀ (s : State) (on : Bool), Asleep s DS_CTRL (.hold on) ∧
    (s.awake BLK_DS = true →
      ∃ t, exec (.hold on) s = .next t ∧ t.bit DS_CTRL DS_CTRL_HOLD = on ∧
        (on = false → t.bit DS_CTRL DS_CTRL_HOLDING = false) ∧
        (on = true → t.fld DS_CTRL DS_CTRL_HOLDING = s.fld DS_CTRL DS_CTRL_HOLDING) ∧
        t = { s with regs := t.regs } ∧ RegsBut s t [DS_CTRL])

/-- R9, R142, R144 to R147: the dose stage.
Choices of the model, not of the spec: T = 0 takes the first multiple of 64 above every line read, and a
refused commit counts only its refusal (log entry 30).
Where its event has not occurred, a command changes nothing: the model's choice (log entry 2). -/
def Obligations.DoseSetsAndEpochs : Prop := packetSetsLeaveInOrder ∧ epochCommitsAreChecked ∧ holdSetsItsBit

/-! ### Line clock -/

/-- R150, R154: line event N, once its instant has come and no feed hold stands in its way, raises H by one
and does not move P. On time or squeezed it is the last emitted and ends a run of skips; skipped it belongs
to one. Before its instant, under a hold, or with none due, nothing happens. -/
def lineEventRaisesH : Prop :=
  ∀ s : State,
    (s.lc.due = none → exec .lineEvent s = .next s) ∧
    (∀ d, s.lc.due = some d →
      let e := (s.setFld LC_TADM LC_TADM_TADM s.lc.tadmNext).emission d
      let n := (s.lc.hwm + 1).toNat
      (s.feedBlocks n = true ∨ 16 * s.now + 15 < e.at_ → exec .lineEvent s = .next s) ∧
      (s.feedBlocks n = false → e.at_ ≤ 16 * s.now + 15 →
        ∃ t, exec .lineEvent s = .next t ∧ t.lc.hwm = s.lc.hwm + 1 ∧ t.lc.pos = s.lc.pos ∧
          ((∀ at_, e ≠ .skipped at_) → t.lc.lastEmit = some e.at_ ∧ t.lc.skipRun = none) ∧
          ((∃ at_, e = .skipped at_) →
            t.lc.lastEmit = s.lc.lastEmit ∧ t.lc.skipRun = some (s.lc.skipRun.getD n))))

/-- R150: a set of P by LC_SET_HI while the source is OFF: P becomes the line, H the line before it, and the
tracked line of every loop follows; with a source it is ignored and logged. -/
def linePositionIsSetWhileOff : Prop :=
  ∀ (s : State) (m : Master) (hi : Word), Denied s m LC_SET_HI true (.lcSet m hi) ∧
    (s.permits m (regAddr LC_SET_HI) true = true →
    let src := s.fld LC_CTRL LC_CTRL_SRC
    (src = 0 ∨ 3 < src →
      let ln := (s.reg LC_SET_LO).toNat + hi.toNat * 2 ^ 32
      ∃ t, exec (.lcSet m hi) s = .next t ∧ t.lc.pos = BitVec.ofNat 96 (ln * 2 ^ 32) ∧
        t.lc.maxPos = t.lc.pos ∧ t.lc.hwm = BitVec.ofNat 64 ln - 1 ∧
        t.bit LC_STAT LC_STAT_REVERSED = false ∧ (∀ l : Fin 32, (t.loopAt l).q = t.lc.pos) ∧
        t = { s.busGrant m with regs := t.regs, lc := t.lc, le := t.le } ∧
        RegsBut s t [LC_SET_HI, LC_STAT]) ∧
    (src ≠ 0 → src ≤ 3 →
      ∃ t, exec (.lcSet m hi) s = .next t ∧ Frame (s.busGrant m) t [] [] ∧
        Reported s t (commonCode 0 BLK_LC 0x38) 0xFF (BitVec.ofNat 48 (regAddr LC_SET_HI))))

/-- R172 to R174, R176: a trigger takes the next product number at P plus the sensor distance and joins the
queue; of the products of one tick those of higher lanes follow it. One without a job, before the end of the
lane's product or too near to be printed is refused, counted and reported, as a product that finds the queue
full is counted. A pop removes the oldest product. -/
def productsAreNumberedAndQueued : Prop :=
  ∀ (s : State) (lane : Fin 8) (pos : BitVec 96),
    let s1 := s.wakeSource 0
    let refused := ∃ t, exec (.prodTrigger lane pos) s = .next t ∧ EventSet t BLK_LC 8 ∧
        t.reg (LC_CNT 3) = satInc (s.reg (LC_CNT 3)) ∧ Reported s1 t 0x0203 (BitVec.ofNat 8 lane) 0 ∧
        Frame s1 t [LC_CNT 3] [BLK_LC]
    (s.bit (PROD_CFG lane) PROD_CFG_EN = false → exec (.prodTrigger lane pos) s = .next s) ∧
    (s.bit (PROD_CFG lane) PROD_CFG_EN = true → s.laneJob lane = none → refused) ∧
    (∀ job l, s.bit (PROD_CFG lane) PROD_CFG_EN = true → s.laneJob lane = some (job, l) →
      let origin := ((pos.toNat + 2 ^ 31) / 2 ^ 32 + l.sdist) % 2 ^ 64
      let early := ∃ p, s.lc.products.find? (fun p => p.trig && p.lane == lane.val) = some p ∧
        origin < p.origin + l.len
      let late := ((origin + s.ominMin job.hdr.npl : Nat) : Int) < s.lastLn + 320 + (job.hdr.lead : Int)
      let after := fun (p : Product) => p.at_ = s.now ∧ lane < p.lane
      (early ∨ late → refused) ∧
      (¬ early → ¬ late →
        ∃ t p, exec (.prodTrigger lane pos) s = .next t ∧ t.lc.prodNext = s.lc.prodNext + 1 ∧
          t.lc.products.head? = some p ∧ p.lane = lane ∧ p.origin = origin ∧ p.trig = true ∧
          p.num = s.lc.prodNext - BitVec.ofNat 32 (s.lc.products.filter after).length ∧
          (s.lc.prodQueue.length < 256 → (∀ q ∈ s.lc.prodQueue, ¬ after q) →
            t.lc.prodQueue = s.lc.prodQueue ++ [p]) ∧
          (256 ≤ s.lc.prodQueue.length →
            t.reg (LC_CNT 4) = satInc (s.reg (LC_CNT 4)) ∧ t.lc.prodQueue.length = 256) ∧
          EventSet t BLK_LC 7 ∧ t.mem = s.mem)) ∧
    (∀ v : Word, v.getLsbD 0 = true →
      ∃ t, exec (.pqPop v) s = .next t ∧ t.lc.prodQueue = s.lc.prodQueue.tail ∧
        t = { s with regs := t.regs, lc := { s.lc with prodQueue := t.lc.prodQueue } } ∧
        RegsBut s t [PQ_STAT, PQ_NUM, PQ_ORG_LO, PQ_ORG_HI]) ∧
    (∀ v : Word, v.getLsbD 0 = false → exec (.pqPop v) s = .next s)

/-- R177: a camera's trigger output falls WIDTH ticks after it rose. -/
def cameraTriggerEnds : Prop :=
  ∀ (s : State) (c : Fin 12) (rise : Nat), s.lc.camHigh.get none c = some rise →
    (rise / 16 + max 1 (s.fld (CT_CFG c) CT_CFG_WIDTH) ≤ s.now →
      ∃ t, exec (.camtrigEnd c) s = .next t ∧ t.lc.camHigh.get none c = none ∧
        t = { s with lc := { s.lc with camHigh := t.lc.camHigh } }) ∧
    (s.now < rise / 16 + max 1 (s.fld (CT_CFG c) CT_CFG_WIDTH) → exec (.camtrigEnd c) s = .next s)

/-- R150, R154, R172 to R174, R176 to R178: the line clock and what it counts.
Choices of the model, not of the spec: LC_TADM takes its new value at each line event, and the products that
triggers of one tick give are numbered by lane (log entry 32).
Where its event has not occurred, a command changes nothing: the model's choice (log entry 2). -/
def Obligations.LineEventsAndProducts : Prop :=
  lineEventRaisesH ∧ linePositionIsSetWhileOff ∧ productsAreNumberedAndQueued ∧ cameraTriggerEnds

/-- R110, R114, R179, R361: at line event E − 1 a plane-band of a feed-paced job, read at E, that was not ready
at R + 64 holds the line clock and ramps the axis down; the stopped axis moves back; and once the band is ready the axis resumes.
Choices of the model, not of the spec: a hold resumes when no plane-band up to E waits (log entry 33).
Where its event has not occurred, a command changes nothing: the model's choice (log entry 2). -/
def Obligations.FeedHoldsStopsAndResumes : Prop :=
  ∀ (s : State) (e : Nat),
    (s.feedPending (s.lc.hwm + 1).toNat = none → exec .feedHold s = .next s) ∧
    (s.lc.holdAt = none → s.feedPending (s.lc.hwm + 1).toNat = some e →
      ∃ t, exec .feedHold s = .next t ∧ t.lc.holdAt = some e ∧ t.fld LC_STAT LC_STAT_FEED = 1 ∧
        t.bit LC_STAT LC_STAT_HOLD = true ∧ EventSet t BLK_LC 5 ∧
        (∀ a, s.feedAxis = some a → (t.axAt a).run = .stop ∧
          Frame { s with lc := t.lc, mx := t.mx } t [LC_STAT, AX_STAT a] [BLK_LC]) ∧
        (s.feedAxis = none → Frame { s with lc := t.lc } t [LC_STAT] [BLK_LC])) ∧
    (∀ a, s.feedAxis = some a → s.lc.holdAt = some e → s.fld LC_STAT LC_STAT_FEED = 1 →
      (s.axAt a).run = .arrived ∨ (s.axAt a).run = .idle →
      ∃ t, exec .feedStopped s = .next t ∧ t.fld LC_STAT LC_STAT_FEED = 2 ∧
        (t.axAt a).run = .move 1 (s.backUp a e) false ∧
        ((s.axAt a).run = .arrived → t.bit (AX_FLAG a) AX_FLAG_DONE = true) ∧
        Frame { s with mx := t.mx } t [LC_STAT, AX_STAT a, AX_FLAG a] [BLK_MX]) ∧
    (s.lc.holdAt = some e → s.fld LC_STAT LC_STAT_FEED = 3 → (∀ e' ∈ s.feedWaits, e < e') →
      ∃ t, exec .feedReady s = .next t ∧
        t = { s with lc := { s.lc with resuming := true, due := none, crossed := [], moved := none } }) ∧
    (s.lc.holdAt = some e → (∃ e' ∈ s.feedWaits, e' ≤ e) → exec .feedReady s = .next s)

/-! ### Firing -/

/-- R158, R163, R164, R408: a scheduled pulse begins at its instant, on an output whose calibration has failed at
the tick's beginning, only with the cut released and the permit set; otherwise its output stays low and its hub
is held. A pulse ends after its width. -/
def pulsesBeginAndEnd : Prop :=
  ∀ (s : State) (k : Fin 16) (p : Pulse) (rest : List Pulse),
    (s.fs.sched.get [] k = p :: rest → s.fs.high.get none k = none → p.start ≤ 16 * s.now + 15 →
      (s.fireCut k = false → s.rbit SI_HUBPERM k = true →
        ∃ t, exec (.fireRisingEdge k) s = .next t ∧
          t.fs.high.get none k =
            some (if s.rbit FS_CAL k = true then { p with start := p.start / 16 * 16 } else p) ∧
          t.fs.sched.get [] k = rest ∧ t.mem = s.mem ∧ RegsBut s t [FS_HSTAT k] ∧
          t.bit (FS_HSTAT k) FS_HSTAT_HELD = s.bit (FS_HSTAT k) FS_HSTAT_HELD) ∧
      (s.fireCut k = true ∨ s.rbit SI_HUBPERM k = false →
        ∃ t, exec (.fireRisingEdge k) s = .next t ∧ t.fs.high.get none k = none ∧
          t.fs.sched.get [] k = rest ∧ t.bit (FS_HSTAT k) FS_HSTAT_HELD = true)) ∧
    (s.fs.sched.get [] k = p :: rest → 16 * s.now + 15 < p.start → exec (.fireRisingEdge k) s = .next s) ∧
    (s.fs.high.get none k = some p → p.start / 16 + p.width ≤ s.now →
      ∃ t, exec (.strobeEnd k) s = .next t ∧ t.fs.high.get none k = none ∧
        t = { s with fs := { s.fs with high := t.fs.high } }) ∧
    (s.fs.high.get none k = some p → s.now < p.start / 16 + p.width → exec (.strobeEnd k) s = .next s)

/-- R164: an output high for SWMAX ticks is cut, with an event and a dangerous fault; FS_CUTCLR releases the
cuts whose bits it has. R163, R166: a failed calibration and a pad that differs from its intended level are
reported; the pulse that a failed output carries ends on a tick. -/
def padsAreCutAndReported : Prop :=
  ∀ (s : State) (k : Fin 16) (p : Pulse),
    (s.fs.high.get none k = some p → p.start / 16 + s.swMax ≤ s.now → s.fireCut k = false →
      ∃ t, exec (.padCut k) s = .next t ∧ t.bit (FS_HSTAT k) FS_HSTAT_CUT = true ∧
        EventSet t BLK_FS 5 ∧ Reported s t 0x3241 (BitVec.ofNat 8 k) 0 ∧
        Frame s t [FS_HSTAT k] [BLK_FS]) ∧
    (s.fs.high.get none k = some p → s.now < p.start / 16 + s.swMax → exec (.padCut k) s = .next s) ∧
    (∀ (m : Master) (v : Word), Denied s m FS_CUTCLR true (.fsCutclr m v) ∧
      (s.permits m (regAddr FS_CUTCLR) true = true →
        ∃ t, exec (.fsCutclr m v) s = .next t ∧ t = { s.busGrant m with regs := t.regs } ∧
          (∀ i : Fin 16, t.bit (FS_HSTAT i) FS_HSTAT_CUT =
            (s.bit (FS_HSTAT i) FS_HSTAT_CUT && !v.getLsbD i)) ∧
          RegsBut s t ((List.range 16).map FS_HSTAT))) ∧
    (∀ pad : FsPad,
      (∃ t, exec (.padLevelMismatch pad) s = .next t ∧ Frame s t [] [] ∧
        Reported s t 0x3244 (BitVec.ofNat 8 (padInst pad)) 0) ∧
      (∃ t, exec (.calFail pad) s = .next t ∧ t.rbit FS_CAL (padInst pad) = true ∧ EventSet t BLK_FS 6 ∧
        Frame { s with fs := { s.fs with high := t.fs.high }, lc := { s.lc with camHigh := t.lc.camHigh } } t
          [FS_CAL] [BLK_FS] ∧ Reported s t 0x2242 (BitVec.ofNat 8 (padInst pad)) 0 ∧
        (padInst pad < 16 → t.lc.camHigh = s.lc.camHigh ∧ ∀ i, t.fs.high.get none i =
          if i = padInst pad then (s.fs.high.get none i).map (fun p => { p with start := p.start / 16 * 16 })
          else s.fs.high.get none i) ∧
        (16 ≤ padInst pad → t.fs.high = s.fs.high ∧ ∀ i, t.lc.camHigh.get none i =
          if i = padInst pad - 16 then (s.lc.camHigh.get none i).map (fun r => r / 16 * 16)
          else s.lc.camHigh.get none i)))

/-- R168: a qualified level of a gating input shows in GATE_STAT as active by its polarity; SAFE_REQ_N is
active low. R170, R171: a low HEAD_ALERT_N puts its hub into the limit state, and after 1,024 clear line
events the hub leaves it. -/
def gatesAndHeadAlerts : Prop :=
  ∀ (s : State) (n k : Fin 16) (level : Bool),
    (∃ t, exec (.gateQualified (.gate n) level) s = .next t ∧
      t.rbit GATE_STAT n = (level == s.bit (GATE_CFG n) GATE_CFG_POL) ∧ t.mem = s.mem ∧
      (s.gateInhibits n = false → s.gateFunc n = 1 → level = s.bit (GATE_CFG n) GATE_CFG_POL →
        EventSet t BLK_FS 0) ∧
      t.fs.gateSeen.get false n = true ∧ t.fs.gateHigh.get false n = level) ∧
    (∃ t, exec (.gateQualified .safeReq level) s = .next t ∧ t.rbit GATE_STAT 16 = !level ∧
      t.mem = s.mem ∧ t.fs.gateHigh.get false 16 = level) ∧
    (∃ t, exec (.headAlert k true) s = .next t ∧ t.bit (FS_HSTAT k) FS_HSTAT_ALERT = false ∧
      t = { s with regs := t.regs } ∧ RegsBut s t [FS_HSTAT k]) ∧
    (∃ t, exec (.headAlert k false) s = .next t ∧ t.bit (FS_HSTAT k) FS_HSTAT_ALERT = true ∧
      t.bit (FS_HSTAT k) FS_HSTAT_LIMIT = true ∧ t.fld (FS_HSTAT k) FS_HSTAT_BELOW = 0 ∧
      Frame s t [FS_HSTAT k] [BLK_FS] ∧
      (s.bit (FS_HSTAT k) FS_HSTAT_LIMIT = false →
        EventSet t BLK_FS 2 ∧ Reported s t 0x2243 (BitVec.ofNat 8 k) 0)) ∧
    (s.bit (FS_HSTAT k) FS_HSTAT_LIMIT = true → s.fld (FS_HSTAT k) FS_HSTAT_BELOW = 1024 →
      ∃ t, exec (.headResume k) s = .next t ∧ t.bit (FS_HSTAT k) FS_HSTAT_LIMIT = false ∧
        t.fld (FS_HSTAT k) FS_HSTAT_BELOW = 0 ∧ EventSet t BLK_FS 3 ∧ Frame s t [FS_HSTAT k] [BLK_FS])

/-- R158, R163, R164, R166, R168, R170, R171, R408: the outputs and inputs of the firing block.
Choices of the model, not of the spec: a pad mismatch of CAMTRIG c carries the instance 16 + c (log entry
34).
Where its event has not occurred, a command changes nothing: the model's choice (log entry 2). -/
def Obligations.FiringOutputsFollowTheirRules : Prop :=
  pulsesBeginAndEnd ∧ padsAreCutAndReported ∧ gatesAndHeadAlerts

/-! ### Dose link -/

/-- The lane's own state machine and its register alone have changed. -/
def laneOnly (s t : State) (n : Fin 32) : Prop :=
  t = { s with regs := t.regs, dl := { s.dl with lanes := t.dl.lanes } } ∧ RegsBut s t [DL_LANE_STAT n] ∧
  (∀ m, m ≠ n.val → t.laneAt m = s.laneAt m)

/-- A protocol violation of R206 on a lane, and nothing else but what the reports change. -/
def violates (s t : State) (n : Fin 32) (row : Nat) : Prop :=
  t.reg (DL_CNT 2) = satInc (s.reg (DL_CNT 2)) ∧ Reported s t 0x0285 (BitVec.ofNat 8 n) (BitVec.ofNat 48 row) ∧
    Frame s t [DL_CNT 2] []

/-- R188: a write of DL_LANE_CFG. A lane that is enabled begins bring-up in phase 1, unless its unit is not in
service (R429); one that is disabled is off, and a READY one fails first; else the register alone changes. -/
def laneEnabled (s : State) (n : Fin 32) : Prop :=
  ∀ v : Word, Asleep s (DL_LANE_CFG n) (.laneEnable n v) ∧
    (s.awake BLK_DL = true →
      let was := s.bit (DL_LANE_CFG n) DL_LANE_CFG_EN
      (was = false → fldGet DL_LANE_CFG_EN v = 1 → s.unit (148 + n) = 0 →
        ∃ t, exec (.laneEnable n v) s = .next t ∧ t.laneState n = 1 ∧ t.laneLock n = false ∧
          t.fld (DL_LANE_STAT n) DL_LANE_STAT_TRIES = 0 ∧ (t.laneAt n).queue = [] ∧
          (t.laneAt n).window = [] ∧ RegsBut s t [DL_LANE_CFG n, DL_LANE_STAT n] ∧ t.mem = s.mem) ∧
      (was = true → fldGet DL_LANE_CFG_EN v = 0 →
        ∃ t, exec (.laneEnable n v) s = .next t ∧ t.laneState n = 0 ∧
          (s.laneReady n = true → EventSet t BLK_DL 1 ∧ (t.laneAt n).queue = [] ∧ (t.laneAt n).window = []) ∧
          (s.laneReady n = false → laneOnly { s with regs := t.regs } t n ∧
            RegsBut s t [DL_LANE_CFG n, DL_LANE_STAT n])) ∧
      (b2n was = fldGet DL_LANE_CFG_EN v ∨ (was = false ∧ s.unit (148 + n) ≠ 0) →
        ∃ t, exec (.laneEnable n v) s = .next t ∧ t = { s with regs := t.regs } ∧
          RegsBut s t [DL_LANE_CFG n]))

/-- R188, R190: phase 3 ends once every CAP of the hub has come twice alike: the lane steps to the highest
rate of both ends, or goes to its last phase where that is the bring-up rate; the hub's values are held, those
common to both lanes where its other lane has others, which is a violation. -/
def capsHeld (s : State) (n : Fin 32) : Prop :=
  let c := capOf fun i => ((s.laneAt n).caps.get (0, 0) i).1
  let both := match (s.laneAt (partner n)).held with
    | some d => capCommon c d
    | none => c
  let r := s.stepRate n c.rates
  s.laneState n = 3 → (∀ i : Fin 4, 2 ≤ ((s.laneAt n).caps.get (0, 0) i).2) →
    ∃ t, exec (.phaseComplete n) s = .next t ∧ t.laneState n = (if r = 0 then 5 else 4) ∧
      (r ≠ 0 → (t.laneAt n).target = r ∧ (t.laneAt n).ctl = rateBlocks r) ∧
      (r = 0 → (t.laneAt n).align = true ∧ (t.laneAt n).ctl = [readyBlock]) ∧
      ((s.laneAt (partner n)).held = none ∨ (s.laneAt (partner n)).held = some c →
        t.reg (DL_HUB_CAP0 (n.val / 2)) = BitVec.ofNat 32 c.maxlr) ∧
      (∀ d, (s.laneAt (partner n)).held = some d → c ≠ d →
        t.reg (DL_HUB_CAP0 (n.val / 2)) = BitVec.ofNat 32 both.maxlr ∧
        t.reg (DL_CNT 2) = satInc (s.reg (DL_CNT 2)) ∧ Reported s t 0x0285 (BitVec.ofNat 8 n) 12)

/-- R188, R189: each phase completes under its condition and leads to the next; a lane becomes READY once its
SYNC has been sent. -/
def phasesComplete (s : State) (n : Fin 32) : Prop :=
  let done := fun (t : State) (st : Nat) (ctl : List Nat) =>
    exec (.phaseComplete n) s = .next t ∧ t.laneState n = st ∧ laneOnly s t n ∧ (t.laneAt n).ctl = ctl ∧
      (t.laneAt n).since = s.now
  (s.laneState n = 1 → ∃ t, done t 2 [idleBlock]) ∧
  (s.laneState n = 2 → if s.laneLock n = true then ∃ t, done t 3 capBlocks
    else exec (.phaseComplete n) s = .next s) ∧
  (s.laneState n = 3 → (∃ i : Fin 4, ((s.laneAt n).caps.get (0, 0) i).2 < 2) →
    exec (.phaseComplete n) s = .next s) ∧
  capsHeld s n ∧
  (s.laneState n = 4 → if s.fld (DL_LANE_STAT n) DL_LANE_STAT_RATE = (s.laneAt n).target then
      ∃ t, done t 5 [idleBlock]
    else exec (.phaseComplete n) s = .next s) ∧
  (s.laneState n = 5 → (s.laneAt n).align = false → if s.laneLock n = true then
      ∃ t, done t 5 [readyBlock] ∧ (t.laneAt n).align = true
    else exec (.phaseComplete n) s = .next s) ∧
  (s.laneState n = 5 → (s.laneAt n).align = true → if (s.laneAt n).txType = 2 then
      ∃ t, exec (.phaseComplete n) s = .next t ∧ t.laneReady n = true ∧ t.hubOnline (n.val / 2) = true ∧
        (s.laneReady (partner n) = true → (t.hubAt (n.val / 2)).toSend = some 0) ∧
        (s.laneReady (partner n) = false → t.hubMode (n.val / 2) = soloMode n)
    else exec (.phaseComplete n) s = .next s)

/-- R186, R188, R189: block lock shows in the lane's status; a CAP block received again alike counts; at the
end of phase 4 the transmitter takes its new rate; READY in the last phase is answered by one SYNC; and
blocks that are not as they must be are violations (R206). -/
def laneBringUpPhases : Prop :=
  ∀ (s : State) (n : Fin 32),
    laneEnabled s n ∧ phasesComplete s n ∧
    (let st := s.laneState n
     let late := st = 3 ∨ st = 4 ∨ (st = 5 ∧ (s.laneAt n).align = true)
     s.laneLock n = false → st ≠ 0 →
      ∃ t, exec (.blockLock n) s = .next t ∧ t.laneLock n = true ∧ t.laneState n = st ∧
        Frame s t [DL_LANE_STAT n] [] ∧ (late → Reported s t 0x1282 (BitVec.ofNat 8 n) 0)) ∧
    (∀ (i : BitVec 8) (v : BitVec 48), s.laneState n = 3 → s.laneLock n = true → i.toNat ≤ 3 →
      v &&& BitVec.ofNat 48 (capUnused i.toNat) = 0 →
      let was := (s.laneAt n).caps.get (0, 0) i.toNat
      (capValid i.toNat v.toNat = true →
        ∃ t, exec (.cap n i v) s = .next t ∧ laneOnly s t n ∧ t.regs = s.regs ∧
          (t.laneAt n).caps.get (0, 0) i.toNat =
            (v.toNat, if was.1 = v.toNat ∧ was.2 ≠ 0 then was.2 + 1 else 1)) ∧
      (capValid i.toNat v.toNat = false → ∃ t, exec (.cap n i v) s = .next t ∧ violates s t n 11)) ∧
    (∀ (i : BitVec 8) (v : BitVec 48), s.laneLock n = true → s.laneState n ≠ 3 ∨ 3 < i.toNat →
      (i.toNat ≤ 3 → v &&& BitVec.ofNat 48 (capUnused i.toNat) = 0 → exec (.cap n i v) s = .next s) ∧
      (3 < i.toNat ∨ v &&& BitVec.ofNat 48 (capUnused i.toNat) ≠ 0 →
        ∃ t, exec (.cap n i v) s = .next t ∧ violates s t n 5)) ∧
    (s.laneState n = 4 →
      ∃ t, exec (.rate ⟨n, none⟩) s = .next t ∧
        t.fld (DL_LANE_STAT n) DL_LANE_STAT_RATE = (s.laneAt n).target % 2 ^ DL_LANE_STAT_RATE.w ∧
        t.laneLock n = false ∧ laneOnly s t n) ∧
    (∀ b : BitVec 56, s.laneLock n = true → b.toNat < 2 ^ 16 →
      (b.toNat % 256 = (s.laneAt n).target → exec (.rate ⟨n, (some b)⟩) s = .next s) ∧
      (b.toNat % 256 ≠ (s.laneAt n).target →
        ∃ t, exec (.rate ⟨n, (some b)⟩) s = .next t ∧ violates s t n 13)) ∧
    (s.laneState n = 5 → (s.laneAt n).align = true → (s.laneAt n).txType ≠ 2 → s.laneLock n = true →
      s.bit (FS_HSTAT (n.val / 2)) FS_HSTAT_HELD = false →
      ∃ t, exec (.ready ⟨n, (.ready 2)⟩) s = .next t ∧ laneOnly s t n ∧ t.regs = s.regs ∧
        (t.laneAt n).txType = 2 ∧ (t.laneAt n).seq = ((s.laneAt n).seq + 1) % 65536 ∧
        (let body := leBytes 8 ((s.lc.hwm.toNat + 2) % 2 ^ 64)
         (t.laneAt n).tx = body ++ leBytes 8 (crc32c body).toNat)) ∧
    (s.laneLock n = true →
      (1 ≤ s.laneState n → s.laneState n ≤ 3 →
        ∃ t, exec (.ready ⟨n, (.ready 2)⟩) s = .next t ∧ violates s t n 14) ∧
      (∃ t, exec (.ready ⟨n, .data⟩) s = .next t ∧ violates s t n 4)) ∧
    (s.laneLock n = false → ∀ b, exec (.ready ⟨n, b⟩) s = .next s)

/-- R188, R204: an attempt that times out is tried again; the third enters FAILED, with an event and a
degraded fault. A failed lane that may begin again does so in phase 1, 10 ms later. Before its time neither
happens. -/
def laneAttemptsAreCounted : Prop :=
  ∀ (s : State) (n : Fin 32),
    let l := s.laneAt n
    let st := s.laneState n
    let tries := s.fld (DL_LANE_STAT n) DL_LANE_STAT_TRIES
    (1 ≤ st → st ≤ 5 →
      (s.now < l.since + phaseMax st l.align → exec (.phaseTimeout n) s = .next s) ∧
      (l.since + phaseMax st l.align ≤ s.now →
        (tries + 1 < 3 →
          ∃ t, exec (.phaseTimeout n) s = .next t ∧ t.laneState n = 1 ∧
            t.fld (DL_LANE_STAT n) DL_LANE_STAT_TRIES = tries + 1 ∧ laneOnly s t n ∧
            (st = 5 → l.align = false → (t.laneAt n).excluded = l.target :: l.excluded)) ∧
        (tries = 2 →
          ∃ t, exec (.phaseTimeout n) s = .next t ∧ t.laneState n = 7 ∧ EventSet t BLK_DL 0 ∧
            Reported s t 0x2287 (BitVec.ofNat 8 n) 0 ∧
            Frame { s with dl := t.dl } t [DL_LANE_STAT n] [BLK_DL]))) ∧
    (st = 7 → l.restart = true →
      (l.since + 10 * ticksMs ≤ s.now →
        ∃ t, exec (.restartBringup n) s = .next t ∧ t.laneState n = 1 ∧ laneOnly s t n ∧
          (t.laneAt n).restart = false ∧ (t.laneAt n).rejoin = true) ∧
      (s.now < l.since + 10 * ticksMs → exec (.restartBringup n) s = .next s))

/-- R186, R187, R200, R202: a READY lane fails at loss of lock, LOS, CDR loss or an overdue packet: it drops its
packets, its hub has no lane or only the other one, and it is reported. A lane that is not READY only shows
the loss. -/
def readyLanesFail : Prop :=
  ∀ (s : State) (n : Fin 32),
    let failed := fun (t : State) =>
      t.laneState n = 7 ∧ (t.laneAt n).queue = [] ∧ (t.laneAt n).window = [] ∧
      (if s.laneReady (partner n) = true then
        t.hubMode (n.val / 2) = soloMode (partner n) ∧
          (t.hubAt (n.val / 2)).toSend = some (soloMode (partner n))
      else t.hubMode (n.val / 2) = 3 ∧ (t.hubAt (n.val / 2)).toSend = none) ∧
      EventSet t BLK_DL 1 ∧ Reported s t 0x2283 (BitVec.ofNat 8 n) 0
    let shown := fun (t : State) => t = { s with regs := t.regs } ∧ RegsBut s t [DL_LANE_STAT n]
    (s.laneReady n = true →
      (s.laneLock n = true → ∃ t, exec (.lossOfLock n) s = .next t ∧ failed t ∧ t.laneLock n = false) ∧
      (∃ t, exec (.los n) s = .next t ∧ failed t) ∧ (∃ t, exec (.cdrLoss n) s = .next t ∧ failed t) ∧
      ((∃ e ∈ (s.laneAt n).window, e.due ≤ 16 * s.now) →
        ∃ t, exec (.overdue n) s = .next t ∧ failed t)) ∧
    (s.laneReady n = false →
      (s.laneLock n = true → ∃ t, exec (.lossOfLock n) s = .next t ∧ shown t ∧ t.laneLock n = false) ∧
      (∃ t, exec (.los n) s = .next t ∧ shown t ∧ t.bit (DL_LANE_STAT n) DL_LANE_STAT_LOS = true) ∧
      (∃ t, exec (.cdrLoss n) s = .next t ∧ shown t ∧
        t.bit (DL_LANE_STAT n) DL_LANE_STAT_CDRL = true)) ∧
    ((∀ e ∈ (s.laneAt n).window, 16 * s.now < e.due) → exec (.overdue n) s = .next s)

/-- R185 to R190, R200, R202, R204, R206: the state of a lane.
Choices of the model, not of the spec: a lane FAILED after three attempts stays so until it is disabled (log
entry 79).
Where its event has not occurred, a command changes nothing: the model's choice (log entry 2). -/
def Obligations.LanesComeUpAndFail : Prop := laneBringUpPhases ∧ laneAttemptsAreCounted ∧ readyLanesFail

/-- R191, R195, R197: a READY lane sends the first packet of its queue; the device's HEARTBEAT carries H; a
configuration write goes to the hub's first READY lane and is BUSY until acknowledged; a pending lane
assignment is sent and takes effect at a band boundary at least LEAD + 16 lines ahead. -/
def packetsToTheHub : Prop :=
  ∀ (s : State) (n : Fin 32) (k : Fin 16),
    (∀ p rest, s.laneReady n = true → (s.laneAt n).queue = p :: rest →
      ∃ t, exec (.dose n) s = .next t ∧ (t.laneAt n).queue = rest ∧ (t.laneAt n).txType = 1 ∧
        (let body := doseHeader p false (s.laneAt n).seq ++ p.payload
         (t.laneAt n).tx = body ++ leBytes 8 (~~~(crc32cFrom (doseSeed p.fln p.slot) body)).toNat) ∧
        t.regs = s.regs ∧ t.lc = s.lc) ∧
    (s.laneReady n = true →
      ∃ t, exec (.deviceHeartbeat n) s = .next t ∧ laneOnly s t n ∧ t.regs = s.regs ∧
        (let body := leBytes 8 s.lc.hwm.toNat ++ List.replicate 16 0
         (t.laneAt n).txType = 4 ∧ (t.laneAt n).tx = body ++ leBytes 8 (crc32c body).toNat)) ∧
    (∀ v : Word, Asleep s (DL_CFGW k) (.cfgw k v) ∧
      (s.awake BLK_DL = true → v.getLsbD 0 = false ∨ s.bit (DL_CFGW_STAT k) DL_CFGW_STAT_BUSY = true →
        exec (.cfgw k v) s = .next s)) ∧
    (∀ (v : Word) (m : Nat) (ms : List Nat), s.awake BLK_DL = true → v.getLsbD 0 = true →
      s.bit (DL_CFGW_STAT k) DL_CFGW_STAT_BUSY = false → s.readyLanes k = m :: ms →
      ∃ t, exec (.cfgw k v) s = .next t ∧ t.bit (DL_CFGW_STAT k) DL_CFGW_STAT_BUSY = true ∧
        t.bit (DL_CFGW_STAT k) DL_CFGW_STAT_LOST = false ∧ (t.hubAt k).cfgwLane = m ∧
        (t.laneAt m).txType = 3 ∧ (t.laneAt m).window.length = (s.laneAt m).window.length + 1 ∧
        t = { s with regs := t.regs, dl := t.dl } ∧ RegsBut s t [DL_CFGW_STAT k]) ∧
    (∀ (arg : Nat) (job : JobSt), (s.hubAt k).toSend = some arg → s.runJob = some job →
      ∃ t ln, exec (.lanes k) s = .next t ∧ (t.hubAt k).toSend = none ∧
        (t.hubAt k).assign = some (arg, ln) ∧ ln % 64 = 0 ∧
        (s.lc.hwm.toNat + job.hdr.lead + 80 < 2 ^ 64 →
          s.lc.hwm.toNat + job.hdr.lead + 16 ≤ ln ∧ ln < s.lc.hwm.toNat + job.hdr.lead + 80) ∧
        t = { s with dl := t.dl }) ∧
    (∀ arg : Nat, (s.hubAt k).toSend = some arg → s.runJob = none →
      ∃ t ln, exec (.lanes k) s = .next t ∧ (t.hubAt k).toSend = none ∧
        (t.hubAt k).assign = some (arg, ln) ∧ ln % 64 = 0 ∧
        t = { s with dl := t.dl, freeIx := s.freeIx + 1 }) ∧
    ((s.hubAt k).toSend = none → exec (.lanes k) s = .next s)

/-- The SOP block of a packet is right for its type (R185). -/
def sopRight (p : HubSop) (typ len : Nat) : Prop :=
  p.typ = BitVec.ofNat 8 typ ∧ p.len = BitVec.ofNat 16 len ∧ p.pad = 0 ∧ p.whole = true

/-- R197, R198, R200, R205, R206: an intact HEARTBEAT of an online hub acknowledges the packets up to its
line; one with a wrong CRC is counted; one of an unknown type is a violation; an intact STATUS leaves its body in
the status registers. A hub
silent too long goes offline, and a late STATUS is counted, each with an event and a degraded fault. -/
def packetsFromTheHub : Prop :=
  ∀ (s : State) (n : Fin 32) (k : Fin 16),
    (∀ hb : HubHeartbeat, s.laneReady n = false → exec (.heartbeat n hb) s = .next s) ∧
    (∀ hb : HubHeartbeat, s.laneReady n = true → hb.sop.typ ≠ 4 → hb.sop.typ ≠ 5 → hb.sop.pad = 0 →
      1 ≤ hb.sop.len.toNat → hb.sop.len.toNat ≤ 1024 →
      ∃ t, exec (.heartbeat n hb) s = .next t ∧ violates s t n 2) ∧
    (∀ hb : HubHeartbeat, s.laneReady n = true → sopRight hb.sop 4 4 →
      (hb.crcOk = false → (s.countEvent (winKey 0x1281 n) 8 ticksSec).1 = false →
        ∃ t, exec (.heartbeat n hb) s = .next t ∧ t.reg (DL_CNT 0) = satInc (s.reg (DL_CNT 0)) ∧
          (t.laneAt n).lastCrc = some s.now ∧ Reported s t 0x1281 (BitVec.ofNat 8 n) 0 ∧
          Frame { s with dl := t.dl } t [DL_CNT 0] []) ∧
      (hb.crcOk = true → hb.syncErr = false → hb.miss = false → hb.nack = false →
        s.hubOnline (n.val / 2) = true → (s.laneAt n).beats < 8 →
        (∀ a, (s.laneAt n).lastAck = some a → a ≤ hb.ack.toNat) →
        (∀ f, (s.laneAt n).topFln = some f → hb.ack.toNat ≤ f) →
        ∃ t, exec (.heartbeat n hb) s = .next t ∧ (t.laneAt n).lastAck = some hb.ack.toNat ∧
          (t.laneAt n).beats = (s.laneAt n).beats + 1 ∧
          (∀ e ∈ (t.laneAt n).window, e ∈ (s.laneAt n).window ∧ hb.ack.toNat < e.fln) ∧
          t.mem = s.mem)) ∧
    (∀ st : HubStatus, s.laneReady n = true → sopRight st.sop 5 6 → st.crcOk = true → st.body.length = 40 →
      ∃ t, exec (.status n st) s = .next t ∧ t.hubOnline (n.val / 2) = true ∧
        (t.hubAt (n.val / 2)).statusAge = 0 ∧
        ∀ i : Fin 10, t.reg (DL_HUB_STATUS (n.val / 2) i) =
          BitVec.ofNat 32 (leNat ((st.body.drop (4 * i)).take 4))) ∧
    (s.hubOnline k = true → s.now < (s.hubAt k).heard + 4 * s.hbInt → exec (.hubOffline k) s = .next s) ∧
    (s.clocked BLK_DL = true → s.hubOnline k = true → (s.hubAt k).heard + 4 * s.hbInt ≤ s.now →
      ∃ t, exec (.hubOffline k) s = .next t ∧ t.hubOnline k = false ∧ EventSet t BLK_DL 3 ∧
        Reported s t 0x2284 (BitVec.ofNat 8 k) 0 ∧ Frame s t [DL_HUB_STAT k] [BLK_DL]) ∧
    (s.clocked BLK_DL = true → 256 ≤ (s.hubAt k).statusAge →
      ∃ t, exec (.statusLate k) s = .next t ∧ (t.hubAt k).statusAge = 0 ∧
        t.reg (DL_CNT 2) = satInc (s.reg (DL_CNT 2)) ∧ EventSet t BLK_DL 5 ∧
        Reported s t 0x2286 (BitVec.ofNat 8 k) 0)

/-- R185, R191, R195, R197, R198, R200, R205, R206: packets in both directions.
Choices of the model, not of the spec: the order in which the rows of R206 are checked, and STATUS_LATE
counts in DL_CNT 2 (log entry 35); an ACK at or above the highest FLN sent before it acknowledges a CTRL
packet (log entry 79).
Where its event has not occurred, a command changes nothing: the model's choice (log entry 2). -/
def Obligations.PacketsCrossTheLink : Prop := packetsToTheHub ∧ packetsFromTheHub

/-! ### Camera receiver -/

/-- Only one port's own state has changed, and registers of a list. -/
def portOnly (s t : State) (n : Nat) (regs : List Nat) : Prop :=
  t = { s with regs := t.regs, cxr := { s.cxr with ports := t.cxr.ports } } ∧ RegsBut s t regs ∧
  (∀ m, m ≠ n → t.portAt m = s.portAt m)

/-- R208, R210, R214: a port that receives gathers the samples of its image stream; a packet with a wrong CRC
spoils the lines that it has samples of and is counted; a packet of another stream is only counted; camera events are
acknowledged and counted; a header of the port's format begins a frame. A port that does not receive
ignores them. -/
def cameraPacketsAndHeaders : Prop :=
  ∀ (s : State) (n : Fin 12) (pkt : StreamPacket) (fmt : BitVec 3),
    (s.camReceives n = true →
      (pkt.crcOk = true → pkt.image = true →
        ∃ t, exec (.streamPacket n pkt) s = .next t ∧ portOnly s t n [] ∧
          (t.portAt n).samples = (s.portAt n).samples ++ pkt.samples ∧
          (t.portAt n).ahead = addAhead pkt.later true (s.portAt n).ahead ∧
          (t.portAt n).queue = (s.portAt n).queue ∧ (t.portAt n).spoiled = (s.portAt n).spoiled) ∧
      (pkt.crcOk = true → pkt.image = false →
        ∃ t, exec (.streamPacket n pkt) s = .next t ∧ t.reg (CAM_CNT n 5) = satInc (s.reg (CAM_CNT n 5)) ∧
          t = { s with regs := t.regs } ∧ RegsBut s t [CAM_CNT n 5]) ∧
      (pkt.crcOk = false →
        ∃ t, exec (.streamPacket n pkt) s = .next t ∧
          (t.portAt n).spoiled = ((s.portAt n).spoiled || !pkt.samples.isEmpty) ∧
          (t.portAt n).ahead = addAhead pkt.later false (s.portAt n).ahead ∧
          (t.portAt n).samples = (s.portAt n).samples ∧
          t.reg (CAM_CNT n 5) = satInc (s.reg (CAM_CNT n 5)) ∧
          Frame { s with cxr := t.cxr } t [CAM_CNT n 5] [] ∧
          ((s.countEvent (winKey 0x12C3 n) 8 ticksSec).1 = false →
            Reported s t 0x12C3 (BitVec.ofNat 8 n) 0)) ∧
      ((s.portAt n).frame = .none → fmt.toNat = s.camFmt n →
        ∃ t, exec (.imageHeader n fmt) s = .next t ∧ (t.portAt n).frame = .lines 0 false ∧
          (t.portAt n).samples = [] ∧ (t.portAt n).ahead = [] ∧ t.camState n = 2 ∧
          portOnly s t n [CAM_STAT n]) ∧
      ((s.portAt n).frame = .none → fmt.toNat ≠ s.camFmt n →
        ∃ t, exec (.imageHeader n fmt) s = .next t ∧ (t.portAt n).frame = .dropped ∧
          t.reg (CAM_CNT n 2) = satInc (s.reg (CAM_CNT n 2)) ∧
          Reported s t 0x02C2 (BitVec.ofNat 8 n) 0)) ∧
    (s.camReceives n = false →
      exec (.streamPacket n pkt) s = .next s ∧ exec (.imageHeader n fmt) s = .next s) ∧
    (∃ t, exec (.cameraEvent n) s = .next t ∧ portOnly s t n [] ∧
      (t.portAt n).events = (s.portAt n).events + 1)

/-- R212 to R214: a complete line of a synchronised frame is matched to the oldest pending entry when its age
lies in the window, and goes to the lowest free slot, and the samples received of the next line become
those of the line under way; with none in the window the frame's rest is dropped
and the loss reported; a line past the frame's height is counted and dropped. R213: pending entries older
than LATMAX become unverified. -/
def linesAreMatchedToTriggers : Prop :=
  ∀ (s : State) (n : Fin 12) (k : Nat), s.camReceives n = true → (s.portAt n).samples ≠ [] →
    (s.portAt n).spoiled = false →
    (∀ (e : CamEntry) (rest : List CamEntry) (slot : Nat), (s.portAt n).frame = .lines k true →
      k < s.camFh n → (s.portAt n).noSlot = false → (s.portAt n).queue = e :: rest → e.state = .pending →
      e ∉ rest → s.fld (CAM_LAT n) CAM_LAT_LATMIN ≤ s.now - e.tick →
      s.now - e.tick ≤ s.fld (CAM_LAT n) CAM_LAT_LATMAX → s.freeSlot n = some slot →
      (∀ x ∈ rest, e.tick ≤ x.tick) →
      (s.portAt n).samples.length = s.camW n * fmtCh (s.camFmt n) →
      ∃ t, exec (.lineReceived n false) s = .next t ∧ (t.portAt n).frame = .lines (k + 1) true ∧
        (t.portAt n).samples = ((s.portAt n).ahead.headD ([], false)).1 ∧
        (t.portAt n).queue = { e with state := .received slot (s.camW n) } :: rest ∧
        t.regs = s.regs ∧ MemBut s t (CAM_BUF n + slot * s.camLb n) (s.camLb n)) ∧
    ((s.portAt n).frame = .lines k true → k < s.camFh n → (s.portAt n).noSlot = false →
      (s.portAt n).queue = [] →
      ∃ t, exec (.lineReceived n false) s = .next t ∧ (t.portAt n).frame = .dropped ∧
        t.reg (CAM_CNT n 7) = satInc (s.reg (CAM_CNT n 7)) ∧ Reported s t 0x12C6 (BitVec.ofNat 8 n) 0 ∧
        t.mem = s.mem) ∧
    ((s.portAt n).frame = .lines k true → s.camFh n ≤ k →
      ∃ t, exec (.lineReceived n false) s = .next t ∧ (t.portAt n).frame = .dropped ∧
        t.reg (CAM_CNT n 3) = satInc (s.reg (CAM_CNT n 3)) ∧ Reported s t 0x02C2 (BitVec.ofNat 8 n) 0 ∧
        t.mem = s.mem) ∧
    (∃ t, exec (.lineReceived n true) s = .next t ∧ (t.portAt n).frame = .none) ∧
    (∃ t, exec (.entryAged n) s = .next t ∧ t.mem = s.mem ∧
      (∀ e ∈ (t.portAt n).queue, e.state = .pending → s.now - e.tick ≤ s.fld (CAM_LAT n) CAM_LAT_LATMAX) ∧
      (t.portAt n).queue.length = (s.portAt n).queue.length)

/-- R208, R210 to R214: what a camera port receives.
Where its event has not occurred, a command changes nothing: the model's choice (log entry 2). -/
def Obligations.CameraLinesAreReceived : Prop := cameraPacketsAndHeaders ∧ linesAreMatchedToTriggers

/-- R209, R219 to R221: a link's lock shows its rate; the loss of a link that its port uses, the second one
only of a port of two connections, stops the port with an event and a degraded fault. A check that finds no fault accepts the configuration of every port in
use; EN of a checked port starts it, and of an unchecked one is refused and logged: that this fault carries the
register's address is the model's choice (log entry 80). A stripe that a pipe serves of a port that stops goes on
to its end. -/
def linksAndConfigurationCheck : Prop :=
  ∀ (s : State) (n : Fin 12), s.clocked BLK_CXR = true →
    let unserved := ∀ p k, p < 4 → s.ip.work.get none p = some k → k.cam ≠ n.val ∨ k.left = true
    (∀ rate : BitVec 3,
      ∃ t, exec (.cxpLinkLock (Fin.ofNat 24 (2 * n.val)) rate) s = .next t ∧
        t.bit (CAM_STAT n) CAM_STAT_LOCK0 = true ∧ t.fld (CAM_STAT n) CAM_STAT_RATE0 = rate.toNat ∧
        t = { s with regs := t.regs } ∧ RegsBut s t [CAM_STAT n]) ∧
    (∀ rate : BitVec 3,
      ∃ t, exec (.cxpLinkLock (Fin.ofNat 24 (2 * n.val + 1)) rate) s = .next t ∧
        t.bit (CAM_STAT n) CAM_STAT_LOCK1 = true ∧ t.fld (CAM_STAT n) CAM_STAT_RATE1 = rate.toNat ∧
        t = { s with regs := t.regs } ∧ RegsBut s t [CAM_STAT n]) ∧
    (s.camReceives n = false →
      ∃ t, exec (.linkDown (Fin.ofNat 24 (2 * n.val))) s = .next t ∧
        t.bit (CAM_STAT n) CAM_STAT_LOCK0 = false ∧ t = { s with regs := t.regs } ∧ RegsBut s t [CAM_STAT n]) ∧
    (s.camReceives n = true →
      ∃ t, exec (.linkDown (Fin.ofNat 24 (2 * n.val))) s = .next t ∧ t.camState n = 3 ∧
        t.bit (CAM_STAT n) CAM_STAT_LOCK0 = false ∧ (t.portAt n).frame = .none ∧ EventSet t BLK_CXR 1 ∧
        Reported s t 0x22C5 (BitVec.ofNat 8 n) 0) ∧
    (s.camReceives n = false ∨ s.bit (CAM_CFG n) CAM_CFG_LINKS = false →
      ∃ t, exec (.linkDown (Fin.ofNat 24 (2 * n.val + 1))) s = .next t ∧
        t.bit (CAM_STAT n) CAM_STAT_LOCK1 = false ∧ t.camState n = s.camState n ∧
        t = { s with regs := t.regs } ∧ RegsBut s t [CAM_STAT n]) ∧
    (s.camReceives n = true → s.bit (CAM_CFG n) CAM_CFG_LINKS = true →
      ∃ t, exec (.linkDown (Fin.ofNat 24 (2 * n.val + 1))) s = .next t ∧ t.camState n = 3 ∧
        t.bit (CAM_STAT n) CAM_STAT_LOCK1 = false ∧ (t.portAt n).frame = .none ∧ EventSet t BLK_CXR 1 ∧
        Reported s t 0x22C5 (BitVec.ofNat 8 n) 0) ∧
    Asleep s CXR_CHECK .check ∧
    (s.awake BLK_CXR = true →
      ∃ t, exec .check s = .next t ∧ t = { s with cxr := { s.cxr with checking := true } }) ∧
    (s.cxr.checking = true → (∀ c ∈ s.camChecks, c.2 = []) →
      ∃ t, exec .checkDone s = .next t ∧ t.bit CXR_RESULT CXR_RESULT_ACCEPT = true ∧
        EventSet t BLK_CXR 0 ∧ t.cxr.checking = false ∧ t.mem = s.mem ∧
        (n.val ∈ s.usedPorts → t.bit (CAM_CFG n) CAM_CFG_CHECKED = true)) ∧
    (∀ code port pipe rest, s.cxr.checking = true →
      s.camChecks.find? (fun c => !c.2.isEmpty) = some (code, (port, pipe) :: rest) →
      ∃ t, exec .checkDone s = .next t ∧ t.bit CXR_RESULT CXR_RESULT_ACCEPT = false ∧
        t.fld CXR_RESULT CXR_RESULT_REASON = code % 2 ^ CXR_RESULT_REASON.w ∧
        t.fld CXR_RESULT CXR_RESULT_PORT = port % 2 ^ CXR_RESULT_PORT.w ∧
        t.fld CXR_RESULT CXR_RESULT_PIPE = pipe % 2 ^ CXR_RESULT_PIPE.w ∧
        EventSet t BLK_CXR 0 ∧ Frame { s with cxr := t.cxr } t [CXR_RESULT] [BLK_CXR]) ∧
    (s.cxr.checking = false → exec .checkDone s = .next s) ∧
    (∀ v : Word, Asleep s (CAM_CFG n) (.camCfgWrite n v)) ∧
    (∀ v : Word, s.awake BLK_CXR = true → s.bit (CAM_CFG n) CAM_CFG_EN = true → v.getLsbD 1 = false →
      ∃ t, exec (.camCfgWrite n v) s = .next t ∧ t.camState n = 0 ∧
        t.bit (CAM_CFG n) CAM_CFG_EN = false ∧ (t.portAt n).queue = [] ∧ (t.portAt n).frame = .none ∧
        (unserved → t.mem = s.mem) ∧
        ∀ p k, p < 4 → s.ip.work.get none p = some k → ∃ k', t.ip.work.get none p = some k' ∧
          k'.since = k.since ∧ k'.cost = k.cost ∧ (k.cam = n.val → k'.left = true)) ∧
    (s.awake BLK_CXR = true → s.bit (CAM_CFG n) CAM_CFG_EN = false →
      let v := s.reg (CAM_CFG n) ||| 2
      (s.bit (CAM_CFG n) CAM_CFG_CHECKED = true →
        ∃ t, exec (.camCfgWrite n v) s = .next t ∧ t.camState n = 1 ∧
          t.bit (CAM_CFG n) CAM_CFG_EN = true ∧ (t.portAt n).queue = [] ∧ (unserved → t.mem = s.mem)) ∧
      (s.bit (CAM_CFG n) CAM_CFG_CHECKED = false →
        ∃ t, exec (.camCfgWrite n v) s = .next t ∧ t.bit (CAM_CFG n) CAM_CFG_EN = false ∧
          Reported s t 0x02C7 (BitVec.ofNat 8 n) (BitVec.ofNat 48 (regAddr (CAM_CFG n)))))

/-- R222, R223: GO of an idle mailbox starts a transaction on a locked link, and ends with RESULT 4 at once
without one; while it is BUSY, GO is ignored and logged. Its end gives RESULT 0 with the words read, 1 with
the camera's code, 2 at the timeout or 3, and an event; a wait acknowledgement restarts its time. The INFO of the
ignored GO is the model's choice (log entry 80). -/
def mailboxTransactions : Prop :=
  ∀ (s : State) (n : Fin 12) (v : Word), s.clocked BLK_CXR = true →
    let ended := fun (t : State) (r : Nat) => (t.portAt n).mbx = none ∧
      t.bit (MBX_STAT n) MBX_STAT_BUSY = false ∧ t.fld (MBX_STAT n) MBX_STAT_RESULT = r ∧
      EventSet t BLK_CXR 4 ∧ t.mem = s.mem
    (s.awake BLK_CXR = true → v.getLsbD 0 = true →
      (s.bit (MBX_STAT n) MBX_STAT_BUSY = true →
        ∃ t, exec (.mbxGo n v) s = .next t ∧ Frame s t [] [] ∧
          Reported s t 0x02C7 (BitVec.ofNat 8 n) (BitVec.ofNat 48 (regAddr (MBX_CMD n)))) ∧
      (s.bit (MBX_STAT n) MBX_STAT_BUSY = false → s.bit (CAM_STAT n) CAM_STAT_LOCK0 = true →
        ∃ t, exec (.mbxGo n v) s = .next t ∧ t.bit (MBX_STAT n) MBX_STAT_BUSY = true ∧
          (∃ m, (t.portAt n).mbx = some m ∧ m.addr = (s.reg (MBX_ADDR n)).toNat ∧
            m.len = mbxLen (fldGet MBX_CMD_LEN v) ∧ m.write = (fldGet MBX_CMD_WR v == 1) ∧ m.since = s.now) ∧
          portOnly s t n [MBX_CMD n, MBX_STAT n]) ∧
      (s.bit (MBX_STAT n) MBX_STAT_BUSY = false → s.bit (CAM_STAT n) CAM_STAT_LOCK0 = false →
        ∃ t, exec (.mbxGo n v) s = .next t ∧ ended t 4)) ∧
    Asleep s (MBX_CMD n) (.mbxGo n v) ∧
    (s.awake BLK_CXR = true → v.getLsbD 0 = false →
      ∃ t, exec (.mbxGo n v) s = .next t ∧ t = { s with regs := t.regs } ∧ RegsBut s t [MBX_CMD n]) ∧
    ((s.portAt n).mbx = none →
      exec (.mbxTimeout n) s = .next s ∧ ∀ r, exec (.mbxDone n r) s = .next s) ∧
    (∀ m, (s.portAt n).mbx = some m →
      let late := m.since + max 1 (s.fld (MBX_CMD n) MBX_CMD_TIMEOUT) * ticksMs
      (late ≤ s.now → ∃ t, exec (.mbxTimeout n) s = .next t ∧ ended t 2) ∧
      (s.now < late → exec (.mbxTimeout n) s = .next s) ∧
      (∃ t, exec (.mbxDone n .wait) s = .next t ∧ (t.portAt n).mbx = some { m with since := s.now } ∧
        t.regs = s.regs ∧ portOnly s t n []) ∧
      (∃ t, exec (.mbxDone n .badCrc) s = .next t ∧ ended t 3) ∧
      (∀ code, ∃ t, exec (.mbxDone n (.error code)) s = .next t ∧ ended t 1 ∧
        t.fld (MBX_STAT n) MBX_STAT_ACKCODE = code.toNat) ∧
      (∀ data, ∃ t, exec (.mbxDone n (.ok data)) s = .next t ∧ ended t 0 ∧
        (m.write = false → m.len ≤ 256 → ∀ k, k < m.len / 4 → t.reg (MBX_DATA n k) =
          BitVec.ofNat 32 (leNat ((data.drop (4 * k)).take 4)))))

/-- R209, R219 to R223: links, configuration and mailboxes of cameras.
Choices of the model, not of the spec: fault 0x02C7 carries the register's address as INFO (log entry 80).
Where its event has not occurred, a command changes nothing: the model's choice (log entry 2). -/
def Obligations.CameraLinksAndMailboxes : Prop := linksAndConfigurationCheck ∧ mailboxTransactions

/-! ### Image pipes -/

/-- R16, R218: a free pipe takes the ready stripe of the camera next in turn and is busy with it; when its
cost has elapsed, the stripe's sixteen lines leave the port's queue, unless the port has stopped since. A pipe that
fails is out of service, with an event and a degraded fault, and takes none. -/
def pipesServeStripesInTurn : Prop :=
  ∀ (s : State) (p : Fin 4), s.clocked BLK_IP = true →
    (∀ n : Fin 12, s.bit (IP_PIPE p) IP_PIPE_BUSY = false → s.bit (IP_PIPE p) IP_PIPE_FAILED = false →
      s.unit (144 + p.val) ≠ 1 → s.top.rrPtr.get 0 (rrStripe p) = n.val → s.stripeReady p n = true →
      ∃ t, exec (.stripeGrant p) s = .next t ∧ t.bit (IP_PIPE p) IP_PIPE_BUSY = true ∧
        t.fld (IP_PIPE p) IP_PIPE_CAM = n.val ∧ t.top.rrPtr.get 0 (rrStripe p) = (n.val + 1) % 12 ∧
        (t.portAt n).served = 16 ∧ (t.portAt n).queue = (s.portAt n).queue ∧
        ∃ k, t.ip.work.get none p = some k ∧ k.cam = n.val ∧ k.since = s.now ∧
          k.switch = if s.ip.prev.get none p = some n.val then 0 else 64) ∧
    (s.bit (IP_PIPE p) IP_PIPE_BUSY = true ∨ s.bit (IP_PIPE p) IP_PIPE_FAILED = true ∨
        s.unit (144 + p.val) = 1 ∨ (∀ n, n < 12 → s.stripeReady p n = false) →
      exec (.stripeGrant p) s = .next s) ∧
    (∀ k, s.ip.work.get none p = some k →
      (k.cost ≤ 10 * (s.now - k.since) →
        ∃ t, exec (.stripeDone p) s = .next t ∧ t.bit (IP_PIPE p) IP_PIPE_BUSY = false ∧
          t.ip.work.get none p = none ∧
          (k.left = false →
            (t.portAt k.cam).queue = (s.portAt k.cam).queue.drop (s.portAt k.cam).served ∧
            (t.portAt k.cam).served = 0) ∧
          (k.left = true → t.portAt k.cam = s.portAt k.cam) ∧ ∀ m, m ≠ k.cam → t.portAt m = s.portAt m) ∧
      (10 * (s.now - k.since) < k.cost → exec (.stripeDone p) s = .next s)) ∧
    (s.ip.work.get none p = none → exec (.stripeDone p) s = .next s) ∧
    (∃ t, exec (.pipeFail p) s = .next t ∧ t.bit (IP_PIPE p) IP_PIPE_FAILED = true ∧
      t.unit (144 + p.val) = 2 ∧ EventSet t BLK_IP 4 ∧ Reported s t 0x2304 (BitVec.ofNat 8 p) 0 ∧
      Frame s t [IP_PIPE p, ST_USTAT (144 + p.val)] [BLK_IP])

/-- R243, R244, R246, R248: a preview row goes to its place in the ring and, once DRAM has accepted it, moves the
write pointer and the sequence number, and one that no ring can hold is dropped, counted and reported; an ROI
header that DRAM has accepted names its frame, with an event; GO clears the calibration accumulator and is refused while BUSY; the last
line ends it with an event. -/
def previewRoiAndCalibration : Prop :=
  ∀ (s : State) (n : Fin 12) (r : Fin 8) (p : Fin 4) (v : Word), s.clocked BLK_IP = true →
    let advanced := fun (t : State) (rest : List (List Byte)) (o : Nat) => (t.ctxAt n).pvRows = rest ∧
      (t.ctxAt n).pvSent = none ∧ t.reg (PV_WPTR n) = BitVec.ofNat 32 o ∧
      t.reg (PV_SEQ n) = s.reg (PV_SEQ n) + 1
    let stays := fun (t : State) (a o : Nat) => (t.ctxAt n).pvRows = (s.ctxAt n).pvRows ∧
      (t.ctxAt n).pvSent = some (a, o) ∧ t.reg (PV_WPTR n) = s.reg (PV_WPTR n) ∧
      t.reg (PV_SEQ n) = s.reg (PV_SEQ n)
    (∀ row rest a o, (s.ctxAt n).pvRows = row :: rest → (s.ctxAt n).pvSent = some (a, o) →
      ∃ t, exec (.previewRow n) s = .next t ∧ t = { s with regs := t.regs, ip := t.ip } ∧
        RegsBut s t [PV_WPTR n, PV_SEQ n] ∧
        if s.putWaits 3 a row.length = true then stays t a o else advanced t rest (o + row.length)) ∧
    (∀ row rest, (s.ctxAt n).pvRows = row :: rest → (s.ctxAt n).pvSent = none →
      ((s.reg (PV_SIZE n)).toNat < row.length →
        ∃ t, exec (.previewRow n) s = .next t ∧ (t.ctxAt n).pvRows = rest ∧
          t.reg (IP_CNT 0) = satInc (s.reg (IP_CNT 0)) ∧ EventSet t BLK_IP 3 ∧
          Reported s t 0x0301 (BitVec.ofNat 8 n) 0 ∧ t.mem = s.mem) ∧
      (row.length ≤ (s.reg (PV_SIZE n)).toNat → 16 ≤ row.length →
        let w := (s.reg (PV_WPTR n)).toNat
        let o := if w + row.length ≤ (s.reg (PV_SIZE n)).toNat then w else 0
        let a := s.reg64 (PV_BASE_LO n) (PV_BASE_HI n) + o
        a + row.length ≤ 2 ^ 48 →
        ∃ t, exec (.previewRow n) s = .next t ∧
          (if t.putWaits 3 a row.length = true then stays t a o else advanced t rest (o + row.length)) ∧
          (s.dramOpen (row.length / 64 + 2) → t.putWaits 3 a row.length = false) ∧
          BlockWrote s t a (row.take 12 ++ leBytes 4 (s.reg (PV_SEQ n) + 1).toNat ++ row.drop 16) ∧
          MemFrame { s with ip := t.ip } t [PV_WPTR n, PV_SEQ n] [])) ∧
    ((s.ctxAt n).pvRows = [] → exec (.previewRow n) s = .next s) ∧
    ((s.roiAt n r).headers = [] → exec (.roiDone n r) s = .next s) ∧
    (∀ a head seq ix rest, (s.roiAt n r).headers = (a, head, seq, ix) :: rest → a + head.length ≤ 2 ^ 48 →
      ∃ t, exec (.roiDone n r) s = .next t ∧ MemFrame { s with ip := t.ip } t [ROI_STAT n r] [BLK_IP] ∧
        ((s.roiAt n r).sent = true → t.mem = s.mem) ∧
        ((s.roiAt n r).sent = false → BlockWrote s t a head ∧
          (s.dramOpen (head.length / 64 + 2) → t.putWaits 3 a head.length = false)) ∧
        if t.putWaits 3 a head.length = true then
          (t.roiAt n r).headers = (s.roiAt n r).headers ∧ (t.roiAt n r).sent = true ∧
            t.reg (ROI_STAT n r) = s.reg (ROI_STAT n r)
        else (t.roiAt n r).headers = rest ∧ (t.roiAt n r).sent = false ∧ EventSet t BLK_IP 1 ∧
          t.fld (ROI_STAT n r) ROI_STAT_SEQ = seq % 2 ^ ROI_STAT_SEQ.w ∧
          t.fld (ROI_STAT n r) ROI_STAT_LAST = ix % 2 ^ ROI_STAT_LAST.w) ∧
    Asleep s (CAL_CTRL p) (.calGo p v) ∧
    (s.awake BLK_IP = true → v.getLsbD 0 = false →
      ∃ t, exec (.calGo p v) s = .next t ∧ t = { s with regs := t.regs } ∧ RegsBut s t [CAL_CTRL p]) ∧
    (s.awake BLK_IP = true → v.getLsbD 0 = true →
      (s.bit (CAL_STAT p) CAL_STAT_BUSY = true →
        ∃ t, exec (.calGo p v) s = .next t ∧ Frame s t [] [] ∧
          Reported s t 0x0305 (BitVec.ofNat 8 p) (BitVec.ofNat 48 (regAddr (CAL_CTRL p)))) ∧
      (s.bit (CAL_STAT p) CAL_STAT_BUSY = false →
        ∃ t, exec (.calGo p v) s = .next t ∧ t.bit (CAL_STAT p) CAL_STAT_BUSY = true ∧
          t.fld (CAL_STAT p) CAL_STAT_COUNT = 0 ∧ (∀ i, i < 0x10000 → memByte t.mem (calAcc p + i) = 0) ∧
          MemBut s t (calAcc p) 0x10000 ∧ RegsBut s t [CAL_CTRL p, CAL_STAT p])) ∧
    (s.bit (CAL_STAT p) CAL_STAT_BUSY = true → s.calLines p ≤ s.fld (CAL_STAT p) CAL_STAT_COUNT →
      ∃ t, exec (.calDone p) s = .next t ∧ t.bit (CAL_STAT p) CAL_STAT_BUSY = false ∧
        EventSet t BLK_IP 0 ∧ Frame s t [CAL_STAT p] [BLK_IP]) ∧
    (s.bit (CAL_STAT p) CAL_STAT_BUSY = false ∨ s.fld (CAL_STAT p) CAL_STAT_COUNT < s.calLines p →
      exec (.calDone p) s = .next s)

/-- R16, R218, R239, R243, R244, R246, R248, R249: the image pipes.
Choices of the model, not of the spec: a preview row is numbered PV_SEQ + 1, and a pipe that is BUSY refuses
GO with 0x0305 (log entry 39); STRIPE_DONE acts once the cost has elapsed, and a pipe that fails finishes
its stripe (log entry 40); the INFO of 0x0305 (log entry 80).
Where its event has not occurred, a command changes nothing: the model's choice (log entry 2). -/
def Obligations.ImagePipesWork : Prop := pipesServeStripesInTurn ∧ previewRoiAndCalibration

/-! ### Verification -/

/-- Only the verification engine, memory, registers of a list and the reports of VE have changed. -/
def veOnly (s t : State) (regs : List Nat) : Prop :=
  Frame { s with ve := t.ve, mem := t.mem, poison := t.poison } t regs [BLK_VE]

/-- R271, R277: the oldest waiting record, or an emitted one when none waits, goes into a ring with room: its
bytes stand at the write pointer, which moves on by 64, and its kind is counted. With the ring full it waits
in the queue of 1,024, and beyond them it is lost, counted, noted for the next record and reported. -/
def defectRecordsAreWritten : Prop :=
  ∀ (s : State) (d : Defect) (rest : List Defect),
    let a := s.reg64 VE_REC_BASE_LO VE_REC_BASE_HI + (s.reg VE_REC_WPTR).toNat
    (s.recFull = false → a + 64 ≤ 2 ^ 48 →
      ((s.ve.waiting = d :: rest) ∨ (s.ve.waiting = [] ∧ s.ve.emitted = d :: rest)) →
      ∃ t, exec .recordWrite s = .next t ∧ BlockWrote s t a (d.bytes s.ve.loss s.ve.recSeq) ∧
        MemFrame { s with ve := t.ve } t [VE_REC_WPTR, VE_CNT (cntOfKind d.kind)] [BLK_VE] ∧
        (t.reg VE_REC_WPTR).toNat = ((s.reg VE_REC_WPTR).toNat + 64) % (s.reg VE_REC_SIZE).toNat ∧
        t.reg (VE_CNT (cntOfKind d.kind)) = satInc (s.reg (VE_CNT (cntOfKind d.kind))) ∧
        EventSet t BLK_VE 0 ∧
        t.ve = { s.ve with
          waiting := if s.ve.waiting = [] then [] else rest,
          emitted := if s.ve.waiting = [] then rest else s.ve.emitted,
          recSeq := s.ve.recSeq + 1, loss := false }) ∧
    (s.recFull = true → s.ve.emitted = d :: rest →
      (s.ve.waiting.length < 1024 →
        exec .recordWrite s =
          .next { s with ve := { s.ve with waiting := s.ve.waiting ++ [d], emitted := rest } }) ∧
      (1024 ≤ s.ve.waiting.length →
        ∃ t, exec .recordWrite s = .next t ∧ t.ve = { s.ve with emitted := rest, loss := true } ∧
          t.reg (VE_CNT 6) = satInc (s.reg (VE_CNT 6)) ∧ EventSet t BLK_VE 1 ∧
          Reported s t 0x2341 0xFF 0 ∧ t.mem = s.mem ∧ veOnly s t [VE_CNT 6])) ∧
    (s.ve.emitted = [] → s.ve.waiting = [] ∨ s.recFull = true → exec .recordWrite s = .next s)

/-- R251 to R253: the expected rows of a resolved plane-band are written, and once DRAM has accepted them all
each row's tag; where memory takes them at once, a row has the mean coverage of its lines and its tag the row's
number. A band with a tile that is neither accepted nor released, or of a plane that the job lacks, writes
nothing. -/
def expectedRowsAreWritten : Prop :=
  ∀ (s : State) (p : Fin 8) (band : BitVec 64),
    let b := band.toNat
    let w := s.widths.getD p 0
    let total := s.bqDepth * ((s.widths.map bqStride).sum + 8 * s.widths.length)
    let base := s.reg64 VE_BQ_BASE_LO VE_BQ_BASE_HI
    let rows := (List.range (64 / s.veDec)).map (b / s.veDec + ·)
    let images := rows.map fun k => (s.bqRow p k, (List.range (64 * ((w + 63) / 64))).map fun d =>
      if d < w then BitVec.ofNat 8 (s.expectedByte p k d) else 0)
    let tags := rows.map fun k => (s.bqTag p k, leBytes 8 k)
    let put := fun (t : State) (xs : List (Nat × List Byte)) =>
      xs.foldl (fun t x => t.blockSave BLK_BQ x.1 x.2) t
    let waits := fun (t : State) => rows.any fun k => t.putWaits 1 (s.bqRow p k) (64 * ((w + 63) / 64))
    let due := s.veOn = true ∧ s.bandResolved p b = true ∧ b % 64 = 0 ∧ p.val < s.widths.length
    (due → (p.val, b) ∉ s.ve.bqSent →
      (waits (put s images) = false → exec (.bqWrite p band) s = .next (put (put s images) tags)) ∧
      (waits (put s images) = true → exec (.bqWrite p band) s =
        .next { put s images with ve := { s.ve with bqSent := s.ve.bqSent ++ [(p.val, b)] } }) ∧
      (64 / s.veDec ≤ s.bqDepth → base + total ≤ 2 ^ 48 →
        ∃ t, exec (.bqWrite p band) s = .next t ∧ MemFrame { s with ve := t.ve } t [] [] ∧
          MemBut s t base total ∧
          (s.plainMem base total → s.dramOpen (64 / s.veDec * (w / 64 + 4)) →
            ∀ i, i < 64 / s.veDec →
              (∀ d, d < w → (memByte t.mem (s.bqRow p (b / s.veDec + i) + d)).toNat =
                s.expectedByte p (b / s.veDec + i) d) ∧
              t.loadNat (s.bqTag p (b / s.veDec + i)) 8 = (b / s.veDec + i) % 2 ^ 64))) ∧
    (due → (p.val, b) ∈ s.ve.bqSent →
      let rest := s.ve.bqSent.filter (· ≠ (p.val, b))
      (waits s = true → exec (.bqWrite p band) s =
        .next { s with ve := { s.ve with bqSent := rest ++ [(p.val, b)] } }) ∧
      (waits s = false → exec (.bqWrite p band) s =
        .next (put { s with ve := { s.ve with bqSent := rest } } tags))) ∧
    (¬ due → exec (.bqWrite p band) s = .next s)

/-- R251 to R253, R271, R277: what the verification path writes to memory.
Choices of the model, not of the spec: SEQ of a record is taken when it is written (log entry 41).
Where its event has not occurred, a command changes nothing: the model's choice (log entry 2). -/
def Obligations.DefectRecordsAndExpectedRows : Prop := defectRecordsAreWritten ∧ expectedRowsAreWritten

/-- R260, R278: the oldest line record that need not wait is placed in its camera's alignment ring at the row of
its line, in place of one that it finds there, which is counted; one that comes late, or of a camera that is not
enabled, is discarded and counted; and one that would overwrite a line not yet processed waits, the camera's
later ones behind it. A stitched row is processed when
every enabled camera has delivered its line, and the next row follows; it waits while DRAM keeps its reads
waiting. -/
def lineRecordsBecomeStitchedRows : Prop :=
  (∀ s : State, (∀ x ∈ s.inboxHeads, s.ringHeld x.1 = true) → exec .lineRecordArrival s = .next s) ∧
  (∀ (s : State) (l : LineRec) (i : Nat), s.ve.inbox[i]? = some l →
    (∀ e ∈ s.ve.inbox.take i, e.cam ≠ l.cam) →
    (∀ x ∈ s.inboxHeads, x.2 < i → s.ringHeld x.1 = true) → s.ringHeld l = false →
    let row := ((l.ln : Int) - (s.reg (VE_CAM_COFS l.cam)).toNat) / s.veDec
    (s.veOn = true → l.cam ∈ s.veCams → (∀ n, s.ve.nextRow = some n → n ≤ row) →
      s.ringAddr l.cam row + 2 * l.samples.length ≤ 2 ^ 48 →
      ∃ t, exec .lineRecordArrival s = .next t ∧
        MemFrame { s with ve := t.ve } t [VE_CNT 6] [] ∧ t.ve.inbox = s.ve.inbox.eraseIdx i ∧
        t.reg (VE_CNT 6) =
          (if (s.ringLine l.cam row).isSome then satInc (s.reg (VE_CNT 6)) else s.reg (VE_CNT 6)) ∧
        (t.ringLine l.cam row).map (fun r => (r.ln, r.unv, r.uvr)) = some (l.ln, l.unv, l.uvr) ∧
        BlockWrote s t (s.ringAddr l.cam row) (l.samples.flatMap fun x => leBytes 2 x) ∧
        (∀ c r, (c, r) ≠ (l.cam, row) → t.ringLine c r = s.ringLine c r)) ∧
    (s.veOn = false ∨ l.cam ∉ s.veCams ∨ (∃ n, s.ve.nextRow = some n ∧ row < n) →
      ∃ t, exec .lineRecordArrival s = .next t ∧
        t = { s with regs := t.regs, ve := { s.ve with inbox := s.ve.inbox.eraseIdx i } } ∧ RegsBut s t [VE_CNT 6] ∧
        t.reg (VE_CNT 6) = satInc (s.reg (VE_CNT 6)))) ∧
  (∀ s : State,
    (∀ row t, s.veOn = true → s.rowReady = some row → s.dramStalls (2, 0) false .keep (s.rowReads row) = some t →
      exec .stitchedRow s = .next t ∧ t.ve = s.ve ∧ MemFrame s t [] []) ∧
    (∀ row, s.veOn = true → s.rowReady = some row → s.dramStalls (2, 0) false .keep (s.rowReads row) = none →
      ∃ t, exec .stitchedRow s = .next t ∧ t.ve.nextRow = some (row + 1) ∧
        t.ve.rowsStep = s.ve.rowsStep + 1 ∧ t.ve.rowsHealth = s.ve.rowsHealth + 1 ∧
        t.ve.inbox = s.ve.inbox ∧ t.adm = s.adm ∧ t.lc = s.lc ∧ t.ds = s.ds ∧ t.dl = s.dl ∧
        (∀ c ∈ s.veCams, ∀ l ∈ t.ve.ring.get [] c, row < l.row)) ∧
    (s.veOn = false ∨ s.rowReady = none → exec .stitchedRow s = .next s))

/-- R264: after STEPL rows every camera's applied offsets move by 1 toward the measured ones. R280: after
2^HLOG rows the health banks change places, the sequence number rises, and the bank that now accumulates
is cleared. -/
def registrationAndHealthIntervals : Prop :=
  ∀ s : State,
    (s.ve.rowsStep < max 1 (s.fld VE_CTRL VE_CTRL_STEPL) → exec .registrationStep s = .next s) ∧
    (max 1 (s.fld VE_CTRL VE_CTRL_STEPL) ≤ s.ve.rowsStep →
      ∃ t, exec .registrationStep s = .next t ∧
        t = { s with regs := t.regs, ve := { s.ve with rowsStep := 0 } } ∧
        RegsBut s t ((List.range 12).map VE_CAM_DX ++ (List.range 12).map VE_CAM_DY) ∧
        ∀ c, c < 12 →
          let dxm := sext 16 (s.fld (VE_CAM_DX c) VE_CAM_DX_DXM)
          let dym := sext 16 (s.fld (VE_CAM_DY c) VE_CAM_DY_DYM)
          (-255 ≤ dxm → dxm ≤ 255 → -255 ≤ s.camDxa c → s.camDxa c ≤ 255 →
            t.camDxa c = if s.camDxa c < dxm then s.camDxa c + 1
              else if dxm < s.camDxa c then s.camDxa c - 1 else s.camDxa c) ∧
          (-63 ≤ dym → dym ≤ 63 → -63 ≤ s.camDya c → s.camDya c ≤ 63 →
            t.camDya c = if s.camDya c < dym then s.camDya c + 1
              else if dym < s.camDya c then s.camDya c - 1 else s.camDya c) ∧
          t.fld (VE_CAM_DX c) VE_CAM_DX_DXM = s.fld (VE_CAM_DX c) VE_CAM_DX_DXM) ∧
    (s.veOn = true → 2 ^ max 8 (s.fld VE_CTRL VE_CTRL_HLOG) ≤ s.ve.rowsHealth →
      ∃ t, exec .healthIntervalEnd s = .next t ∧
        t.fld VE_HSTAT VE_HSTAT_BANK = 1 - s.fld VE_HSTAT VE_HSTAT_BANK ∧ t.ve.rowsHealth = 0 ∧
        t.fld VE_HSTAT VE_HSTAT_HSEQ = (s.fld VE_HSTAT VE_HSTAT_HSEQ + 1) % 2 ^ 31 ∧
        EventSet t BLK_VE 2 ∧ veOnly s t [VE_HSTAT] ∧
        (∀ j, j < 0x300000 → memByte t.mem (t.healthBank false + j) = 0) ∧
        (∀ j, j < 0x300000 → memByte t.mem (t.healthBank true + j) = memByte s.mem (s.healthBank false + j))) ∧
    (s.veOn = false ∨ s.ve.rowsHealth < 2 ^ max 8 (s.fld VE_CTRL VE_CTRL_HLOG) →
      exec .healthIntervalEnd s = .next s)

/-- R260, R264, R278, R280: rows and the intervals counted in them.
Choices of the model, not of the spec: a row that must wait for DRAM is not performed yet (log entry 76).
Where its event has not occurred, a command changes nothing: the model's choice (log entry 2). -/
def Obligations.RowsRegistrationAndHealth : Prop :=
  lineRecordsBecomeStitchedRows ∧ registrationAndHealthIntervals

/-- R281, R282: a write with EN = 1 starts the engine when every check passes, with nothing kept of rows
before; else EN stays 0 and the first check that fails is shown. A write with EN = 0 emits the open
components and regions with CONT, counts the lines that it has not processed, and stops it. While it runs,
a write with EN = 1 leaves the rows of its intervals and its decimation, and reports a change of them.
Choices of the model, not of the spec: the registers that VE_CTRL.EN protects, with 0x0346 (log entry 41);
lines that stand in the ring when EN is written 0 are counted in VE_CNT 6 (log entry 42); the INFO of 0x0346
(log entry 80). -/
def Obligations.VerificationStartsAndStops : Prop :=
  ∀ (s : State) (v : Word), Asleep s VE_CTRL (.veEnable v) ∧ Asleep s VE_CTRL (.veDisable v) ∧
    (s.awake BLK_VE = true →
    (s.veOn = false →
      ∃ t, exec (.veDisable v) s = .next t ∧ t.veOn = false ∧ t = { s with regs := t.regs } ∧
        RegsBut s t [VE_CTRL]) ∧
    (s.veOn = true →
      ∃ t, exec (.veEnable v) s = .next t ∧ t.veOn = true ∧ Frame s t [VE_CTRL] [] ∧
        t.fld VE_CTRL VE_CTRL_HLOG = s.fld VE_CTRL VE_CTRL_HLOG ∧
        t.fld VE_CTRL VE_CTRL_DECLOG = s.fld VE_CTRL VE_CTRL_DECLOG ∧
        (fldGet VE_CTRL_HLOG v ≠ s.fld VE_CTRL VE_CTRL_HLOG ∨
            fldGet VE_CTRL_DECLOG v ≠ s.fld VE_CTRL VE_CTRL_DECLOG →
          Reported s t 0x0346 0xFF (BitVec.ofNat 48 (regAddr VE_CTRL)))) ∧
    (s.veOn = false →
      let s' := s.typedWrite VE_CTRL (fldPut VE_CTRL_EN 0 v)
      (s'.veChecks = 0 →
        ∃ t, exec (.veEnable v) s = .next t ∧ t.veOn = true ∧ t.fld VE_STAT VE_STAT_ACTIVE = 1 ∧
          t.fld VE_CTRL VE_CTRL_DECLOG = fldGet VE_CTRL_DECLOG v ∧
          t.ve.comps = [] ∧ t.ve.regions = [] ∧ t.ve.nextRow = none ∧ t.ve.matched = false ∧
          t.ve.emitted = s.ve.emitted ∧ veOnly s t [VE_CTRL, VE_STAT] ∧ t.mem = s.mem) ∧
      (s'.veChecks ≠ 0 →
        ∃ t, exec (.veEnable v) s = .next t ∧ t.veOn = false ∧ EventSet t BLK_VE 6 ∧
          t.fld VE_STAT VE_STAT_REASON = s'.veChecks % 8 ∧ t.ve = s.ve ∧
          veOnly s t [VE_CTRL, VE_STAT] ∧ t.mem = s.mem)) ∧
    (s.veOn = true → s.ve.sat = none →
      ∃ t, exec (.veDisable v) s = .next t ∧ t.veOn = false ∧ t.fld VE_STAT VE_STAT_ACTIVE = 0 ∧
        t.ve.comps = [] ∧ t.ve.regions = [] ∧ t.mem = s.mem ∧
        veOnly s t [VE_CTRL, VE_STAT, VE_CNT 6, VE_CNT 7] ∧
        t.reg (VE_CNT 6) = satAdd (s.ve.ring.map fun e => e.2.length).sum (s.reg (VE_CNT 6)) ∧
        t.ve.emitted = s.ve.emitted ++
          (s.ve.comps.filter fun r =>
            r.rows ≠ 0 ∧ s.fld VE_SEG VE_SEG_AMIN ≤ r.area).map (fun r => s.regionRec 1 r flagCont) ++
          (s.ve.regions.filter fun r => r.rows ≠ 0).map fun r => s.regionRec 2 r flagCont))

/-! ### DRAM -/

/-- Only the DRAM controller's state and registers of a list, and reports, have changed. -/
def mcOnly (s t : State) (regs : List Nat) : Prop := Frame { s with mc := t.mc } t regs [BLK_MC]

/-- A training operation of R290 and R292: GO begins it when the channel is idle and, for the operations that
need it, DRAM is not enabled; a refused one only shows RESULT 3; the write of a busy channel's command
starts nothing. -/
def trainsBy (i : Fin 8 → BitVec 32 → Instr) (op : Nat) : Prop :=
  ∀ (s : State) (c : Fin 8) (v : Word),
    (s.bit (MC_TRN_STAT c) MC_TRN_STAT_BUSY = false → op ≤ 3 → s.bit MC_CFG MC_CFG_ENABLE = true →
      ∃ t, exec (i c v) s = .next t ∧ t.fld (MC_TRN_STAT c) MC_TRN_STAT_RESULT = 3 ∧ t.mc = s.mc ∧
        mcOnly s t [MC_TRN_CMD c, MC_TRN_STAT c]) ∧
    (s.bit (MC_TRN_STAT c) MC_TRN_STAT_BUSY = false → (3 < op ∨ s.bit MC_CFG MC_CFG_ENABLE = false) →
      ∃ t, exec (i c v) s = .next t ∧ t.bit (MC_TRN_STAT c) MC_TRN_STAT_BUSY = true ∧
        t.fld (MC_TRN_STAT c) MC_TRN_STAT_DONE = 0 ∧
        (∃ g, (t.chanAt c).gather = some g ∧ g.op = op ∧ g.rank = fldGet MC_TRN_CMD_RANK v ∧
          g.start = fldGet MC_TRN_CMD_START v ∧ g.count = fldGet MC_TRN_CMD_COUNT_M1 v + 1 ∧
          g.stale = false) ∧
        mcOnly s t [MC_TRN_CMD c, MC_TRN_STAT c]) ∧
    (s.bit (MC_TRN_STAT c) MC_TRN_STAT_BUSY = true →
      ∃ t, exec (i c v) s = .next t ∧ t.mc = s.mc ∧ mcOnly s t [MC_TRN_CMD c])

/-- R290 to R294: the training operations, and how a sweep ends: steps of 16 bytes after a header of 64 in the
channel's result buffer, the sequence number one higher, RESULT 1, and the event; R295: a delay entry
takes effect at once while its rank is in self-refresh, else when the rank refreshes.
Where its event has not occurred, a command changes nothing: the model's choice (log entry 2). -/
def Obligations.TrainingRunsAndGathers : Prop :=
  trainsBy .init 0 ∧ trainsBy .ca 1 ∧ trainsBy .wlev 2 ∧ trainsBy .rdqs 3 ∧ trainsBy .rdeye 4 ∧
  trainsBy .wreye 5 ∧ trainsBy .osc 6 ∧
  (∀ (s : State) (c : Fin 8) (g : GatherSt) (samples : List (BitVec 128)),
    (s.chanAt c).gather = some g → g.stale = false → 1 ≤ g.op → g.op ≤ 5 → samples.length = g.count →
    g.count ≤ 255 →
    (s.bit MC_CFG MC_CFG_ENABLE = true → s.panicHolds c g.rank = false ∧ s.srOf c g.rank = srAwake) →
    ∃ t, exec (.trnDone c samples) s = .next t ∧ (t.chanAt c).gather = none ∧
      t.bit (MC_TRN_STAT c) MC_TRN_STAT_BUSY = false ∧ t.fld (MC_TRN_STAT c) MC_TRN_STAT_RESULT = 1 ∧
      t.fld (MC_TRN_STAT c) MC_TRN_STAT_SEQ = (s.fld (MC_TRN_STAT c) MC_TRN_STAT_SEQ + 1) % 65536 ∧
      EventSet t BLK_MC 0 ∧
      t.loadNat (TRN_BUF c) 4 = (s.fld (MC_TRN_STAT c) MC_TRN_STAT_SEQ + 1) % 65536 ∧
      t.loadNat (TRN_BUF c + 4) 1 = g.op ∧
      (∀ i, i < samples.length →
        t.loadNat (TRN_BUF c + 64 + 16 * i) 16 =
          (samples.getD i 0).toNat % 2 ^ (if g.op = 2 ∨ g.op = 3 then s.dqsUsed else trnLanes g.op)) ∧
      MemBut s t (TRN_BUF c) (64 + 16 * samples.length) ∧
      Frame { s with mc := t.mc, mem := t.mem, poison := t.poison } t [MC_TRN_STAT c] [BLK_MC]) ∧
  (∀ (s : State) (c : Fin 8) (g : GatherSt) (samples : List (BitVec 128)),
    (s.chanAt c).gather = some g →
    (g.op = 0 → g.stale = false →
      ∃ t, exec (.trnDone c samples) s = .next t ∧ (t.chanAt c).gather = none ∧
        t.bit (MC_TRN_STAT c) MC_TRN_STAT_BUSY = false ∧ t.fld (MC_TRN_STAT c) MC_TRN_STAT_RESULT = 1 ∧
        (∀ r, r ≤ s.fld MC_CFG MC_CFG_NRK_M1 →
          (t.rankAt (rankIx c r)).init = true ∧ (t.rankAt (rankIx c r)).zqAt = s.now) ∧
        EventSet t BLK_MC 0 ∧ mcOnly s t [MC_TRN_STAT c]) ∧
    (g.stale = true →
      ∃ t, exec (.trnDone c samples) s = .next t ∧ (t.chanAt c).gather = none ∧
        t.bit (MC_TRN_STAT c) MC_TRN_STAT_BUSY = false ∧ t.fld (MC_TRN_STAT c) MC_TRN_STAT_RESULT = 2 ∧
        EventSet t BLK_MC 0 ∧ Reported s t 0x03C8 0xFF 0) ∧
    (g.op = 6 → g.stale = false →
      (s.bit MC_CFG MC_CFG_ENABLE = true → s.panicHolds c g.rank = false ∧ s.srOf c g.rank = srAwake) →
      ∃ t, exec (.trnDone c samples) s = .next t ∧ (t.chanAt c).gather = none ∧
        t.fld (MC_TRN_STAT c) MC_TRN_STAT_RESULT = 1 ∧ t.fld (MC_TRN_STAT c) MC_TRN_STAT_DONE = 0 ∧
        (∀ i, i < 20 → t.loadNat (TRN_BUF c + 64 + 2 * i) 2 =
          if i < s.dqsUsed then (samples.getD i 0).toNat % 65536 else 0) ∧
        MemBut s t (TRN_BUF c) 104) ∧
    (s.gatherEnds c g samples.length = false → exec (.trnDone c samples) s = .next s)) ∧
  (∀ (s : State) (c : Fin 8) (p r : BitVec 2) (e : Fin 116) (v : Word),
    ∃ t, exec (.delayEntryWrite c p r e v) s = .next t ∧
      mcOnly s t [MC_DELAY c p.toNat r.toNat e] ∧
      (if s.srOf c r.toNat = srInSr ∨ s.bit MC_CFG MC_CFG_ENABLE = false then
        t.mc.delays.get 0 (MC_DELAY c p.toNat r.toNat e) = t.reg (MC_DELAY c p.toNat r.toNat e)
      else t.mc = s.mc)) ∧
  (∀ (s : State) (c : Fin 8) (r : Fin 4),
    (s.refreshes c r = true →
      (∃ t, exec (.refresh c r) s = .next t ∧ t = { s with mc := t.mc } ∧
        (t.rankAt (rankIx c r)).refAt = s.now ∧ (t.rankAt (rankIx c r)).rows = [] ∧
        ∀ p e, p < 4 → e < 116 → t.mc.delays.get 0 (MC_DELAY c p r e) = s.reg (MC_DELAY c p r e)) ∧
      (∃ t, exec (.zqCalibration c r) s = .next t ∧ t = { s with mc := t.mc } ∧
        (t.rankAt (rankIx c r)).zqAt = s.now)) ∧
    (s.refreshes c r = false →
      exec (.refresh c r) s = .next s ∧ exec (.zqCalibration c r) s = .next s))

/-- R285, R287, R289: ENABLE of a legal population maps DRAM and gives each rank of each populated channel its
role, with the active ranks' logical numbers; an illegal one is refused and reported. R291: a change of
frequency point waits for no armed job and no migration, takes the populated ranks through self-refresh,
and ends with the new point; refused, RESULT is 2.
Choices of the model, not of the spec: the patrol's pass begins at ENABLE (log entry 77).
Where its event has not occurred, a command changes nothing: the model's choice (log entry 2). -/
def Obligations.PopulationAndFrequency : Prop :=
  (∀ (s : State) (v : Word), s.bit MC_CFG MC_CFG_ENABLE = false →
    let s' := s.typedWrite MC_CFG (fldPut MC_CFG_ENABLE 0 v)
    (s'.mcConfigOk = true →
      ∃ t, exec (.mcEnable v) s = .next t ∧ t.bit MC_CFG MC_CFG_ENABLE = true ∧
        t.mc = { s.mc with scrubAt := 0, scrubT0 := s.now } ∧
        (∀ c r, c < s'.nch → r < s'.fld MC_CFG MC_CFG_NRK_M1 + 1 →
          (if r < s'.activeRanks then t.role c r = roleActive ∧ t.fld (MC_RK_STAT c r) MC_RK_STAT_LRANK = r ∧
            t.unit (rankUnit c r) = 0
          else t.role c r = roleSpare ∧ t.unit (rankUnit c r) = 3)) ∧
        t.dramCap = (s'.mirPairs.length + s'.plainChs.length) * s'.capCh) ∧
    (s'.mcConfigOk = false →
      ∃ t, exec (.mcEnable v) s = .next t ∧ t.bit MC_CFG MC_CFG_ENABLE = false ∧ t.dramCap = 0 ∧
        Reported s t 0x03C8 0xFF 0 ∧ mcOnly s t [MC_CFG])) ∧
  (∀ (s : State) (v : Word), s.bit MC_CFG MC_CFG_ENABLE = true →
    ∃ t, exec (.mcEnable v) s = .next t ∧ t.mc = s.mc ∧ mcOnly s t [MC_CFG] ∧
      t.reg MC_CFG = fldPut MC_CFG_AUTOMIG (fldGet MC_CFG_AUTOMIG v) (s.reg MC_CFG)) ∧
  (∀ (s : State) (v : Word), s.bit MC_FREQ_CMD MC_FREQ_CMD_BUSY = true →
    ∃ t, exec (.freqChange v) s = .next t ∧ t.bit MC_FREQ_CMD MC_FREQ_CMD_BUSY = true ∧ t.mc = s.mc ∧
      mcOnly s t [MC_FREQ_CMD]) ∧
  (∀ (s : State) (v : Word), s.bit MC_FREQ_CMD MC_FREQ_CMD_BUSY = false →
    let busy := s.anyArmed || (List.range 8).any fun c => (s.chanAt c).mig.isSome
    (busy = false →
      ∃ t, exec (.freqChange v) s = .next t ∧ t.bit MC_FREQ_CMD MC_FREQ_CMD_BUSY = true ∧
        t.mc.freqTo = fldGet MC_FREQ_CMD_POINT v ∧
        (∀ c r, c < 8 → r < 4 → s.installed c r = true → s.unit (rankUnit c r) ≠ 1 → t.srOf c r = srInSr) ∧
        (∀ c g, c < 8 → (s.chanAt c).gather = some g →
          (t.chanAt c).gather = some { g with stale := true }) ∧
        mcOnly s t (MC_FREQ_CMD :: allRanks.map fun x => MC_RK_STAT x.1 x.2)) ∧
    (busy = true →
      ∃ t, exec (.freqChange v) s = .next t ∧ t.bit MC_FREQ_CMD MC_FREQ_CMD_BUSY = false ∧
        t.fld MC_FREQ_CMD MC_FREQ_CMD_RESULT = 2 ∧ EventSet t BLK_MC 1 ∧ Reported s t 0x03C8 0xFF 0 ∧
        t.mc = s.mc ∧ mcOnly s t [MC_FREQ_CMD])) ∧
  (∀ s : State,
    (s.bit MC_FREQ_CMD MC_FREQ_CMD_BUSY = true → s.mc.freqTo < 4 →
      ∃ t, exec .freqDone s = .next t ∧ t.fld MC_FREQ_CMD MC_FREQ_CMD_CUR = s.mc.freqTo ∧
        t.bit MC_FREQ_CMD MC_FREQ_CMD_BUSY = false ∧ t.fld MC_FREQ_CMD MC_FREQ_CMD_RESULT = 1 ∧
        EventSet t BLK_MC 1 ∧
        (s.dramLoad = 0 →
          (∀ c r, c < 8 → r < 4 → s.installed c r = true → t.srOf c r = srAwake) ∧
          mcOnly s t (MC_FREQ_CMD :: allRanks.map fun x => MC_RK_STAT x.1 x.2))) ∧
    (s.bit MC_FREQ_CMD MC_FREQ_CMD_BUSY = false → exec .freqDone s = .next s))

/-- R297 to R299, R305, R307, R309: a request below the installed capacity that need not wait is served as it
arrives (the model's choice, log entry 11): a write stores its bytes, and clean reads of unpoisoned lines
answer memory's. One beyond the capacity reads zeros or writes nothing, and is reported; one whose rank is in
self-refresh wakes it and waits, and one in a change of frequency point only waits. -/
def dramRequestsAreServed : Prop :=
  ∀ (s : State) (port : Fin 8) (src : Fin 32) (a : BitVec 48) (h : PageHint),
    let free := fun (n : Nat) (write : Bool) =>
      s.mustWait (s.homeChan a.toNat write) a.toNat n write = false ∧
        samePortLine s.mc.waiting port a.toNat n = false ∧ (port.val = 7 → s.anyPanic = false)
    (∀ d : List Byte, d ≠ [] → a.toNat + d.length ≤ s.dramCap → free d.length true →
      ∃ t, exec (.dramRequest ⟨port, src, h⟩ a (.write d)) s = .next t ∧ t.loadBytes a.toNat d.length = d ∧
        MemBut s t a.toNat d.length ∧ MemFrame s t [] []) ∧
    (∀ n, 0 < n → a.toNat + n ≤ s.dramCap → free n false →
      (∀ l ∈ linesOf a.toNat n, s.linePoisoned l = false) →
      ∃ t, exec (.dramRequest ⟨port, src, h⟩ a (.read n .clean)) s = .next t ∧
        t.mc.answer = s.loadBytes a.toNat n ∧ t.mc.bad = false ∧
        t = { s with mc := t.mc, top := { s.top with rrPtr := t.top.rrPtr } }) ∧
    (∀ n, 0 < n → s.dramCap < a.toNat + n →
      ∃ t, exec (.dramRequest ⟨port, src, h⟩ a (.read n .clean)) s = .next t ∧
        t.mc.answer = List.replicate n 0 ∧ t.mc.bad = false ∧
        Reported s t (commonCode 1 (portBlk port) 0x3A) 0xFF (BitVec.ofNat 48 a.toNat) ∧ mcOnly s t []) ∧
    (∀ d : List Byte, d ≠ [] → s.dramCap < a.toNat + d.length →
      ∃ t, exec (.dramRequest ⟨port, src, h⟩ a (.write d)) s = .next t ∧ Frame s t [] [] ∧
        Reported s t (commonCode 1 (portBlk port) 0x3A) 0xFF (BitVec.ofNat 48 a.toNat)) ∧
    (∀ (n c r : Nat), 0 < n → a.toNat + n ≤ s.dramCap → c < 8 → r < 4 →
      s.askedRanks (s.homeChan a.toNat false) a.toNat n false = [(c, r)] →
      s.srOf c r = srInSr → s.freqBusy = false →
      ∃ t since, exec (.dramRequest ⟨port, src, h⟩ a (.read n .clean)) s = .next t ∧ t.srOf c r = srExit ∧
        t.mc.waiting = s.mc.waiting ++
          [⟨port, src, s.homeChan a.toNat false, a.toNat, h, .ask (.read n .clean), since⟩] ∧
        (s.mc.waiting = [] → since = some s.now) ∧ mcOnly s t [MC_RK_STAT c r]) ∧
    (∀ op : DramOp, opLen op ≠ 0 → a.toNat + opLen op ≤ s.dramCap → s.freqBusy = true →
      ∃ t w, exec (.dramRequest ⟨port, src, h⟩ a op) s = .next t ∧ t.mc.waiting = s.mc.waiting ++ [w] ∧
        w.op = .ask op ∧ t = { s with mc := { s.mc with waiting := t.mc.waiting } })

/-- R307 to R309: the patrol reads its next line, unless it is off, its pass has not begun or a port is in
panic, and no other (the model's choice, log entry 77): a clean one is passed over, a corrected error is counted and
reported and its line written back, and an uncorrectable error of an unmirrored line poisons it. -/
def patrolReadsEveryLine : Prop :=
  ∀ (s : State) (a : BitVec 48),
    let A := s.mc.scrubAt
    let chan := s.homeChan A false
    let next := if A + 64 < s.dramCap then A + 64 else 0
    let on := a.toNat / 64 = A / 64 ∧ s.fld MC_SR_CFG MC_SR_CFG_SCRUB ≠ 0 ∧ A < s.dramCap ∧ s.mc.scrubT0 ≤ s.now ∧
      s.anyPanic = false
    (¬ on → ∀ x, exec (.scrub a x) s = .next s) ∧
    (on → s.mustWait chan A 64 false = true → ∀ x, exec (.scrub a x) s = .next (s.dramWake chan A 64 false)) ∧
    (on → s.mustWait chan A 64 false = false → s.linePoisoned (A / 64) = false →
      (∃ t, exec (.scrub a .clean) s = .next t ∧ t.mc.scrubAt = next ∧ t = s.withDram t) ∧
      (∀ (c r : Nat) (rest : List (Nat × Nat)) (pins : List (Fin 40)),
        s.lineRanks chan (A / 64) false = (c, r) :: rest → s.buffered chan (A / 64) = false →
        (eccClass (s.fld MC_CFG MC_CFG_DEV == 1) pins = .corrected →
          (s.countEvent (winKey 0x13C1 (rankIx c r)) 32 ticksHour).1 = false →
          ∃ t, exec (.scrub a (.errors pins)) s = .next t ∧ t.mc.scrubAt = next ∧
            t.reg (MC_CNT 0) = satInc (s.reg (MC_CNT 0)) ∧
            Reported s t 0x13C1 (BitVec.ofNat 8 (rankIx c r)) 0 ∧
            (s.mustWait (s.homeChan (64 * (A / 64)) true) (64 * (A / 64)) 64 true = false →
              ∀ k ∈ (s.dramPlace (64 * (A / 64))).chans, (t.chanAt k).wbuf.map (·.line) =
                (s.chanAt k).wbuf.map (·.line) ++ [A / 64]) ∧
            Frame (s.withDram t) t (MC_CNT 0 :: dramRegs) [BLK_MC]) ∧
        (eccClass (s.fld MC_CFG MC_CFG_DEV == 1) pins = .detected →
          (s.dramPlace (64 * (A / 64))).chans.length = 1 → s.rankLasting c r = true →
          ∃ t, exec (.scrub a (.errors pins)) s = .next t ∧ t.linePoisoned (A / 64) = true ∧
            t.mc.scrubAt = next ∧ t.reg (MC_CNT 1) = satInc (s.reg (MC_CNT 1)) ∧ EventSet t BLK_MC 4 ∧
            Reported s t 0x23C4 0xFF (BitVec.ofNat 48 (64 * (A / 64))) ∧
            Frame { s.withDram t with poison := t.poison } t [MC_CNT 1] [BLK_MC])))

/-- R297 to R299, R305, R307 to R309: requests to DRAM, served as they arrive where none must wait (the
model's choice, log entry 11), and the patrol.
Choices of the model, not of the spec: a request that nothing holds back is served in its own step (log
entry 11); the place of the patrol's pass (log entry 77).
Where its event has not occurred, a command changes nothing: the model's choice (log entry 2). -/
def Obligations.DramServesRequestsAndPatrols : Prop := dramRequestsAreServed ∧ patrolReadsEveryLine

/-- R304, R305: self-refresh: an idle rank passes DRAIN and ISSUE into self-refresh, where its pending delay
entries take effect, unless it is under test (R438); a rank that leaves it is active again. R301: a port's urgency turns panic on at
PANIC_ON and off at PANIC_OFF; port 0's is 16 times the cores that wait for fetch data, at most 255. R300: a
DIMM at 95 °C or more is reported. R284: a sideband access runs until its done, which shows the acknowledge and a
read's data. -/
def selfRefreshPanicAndSideband : Prop :=
  (∀ (s : State) (c : Fin 8) (r : Fin 4),
    (s.unit (rankUnit c r) = 1 → exec (.selfRefreshEntry c r) s = .next s) ∧
    (s.srOf c r = srAwake → s.unit (rankUnit c r) ≠ 1 → s.mayEnterSr c r = true →
      ∃ t, exec (.selfRefreshEntry c r) s = .next t ∧ t.srOf c r = srDrain ∧
        (t.rankAt (rankIx c r)).rows = [] ∧ t = { s with regs := t.regs, mc := t.mc } ∧
        RegsBut s t [MC_RK_STAT c r]) ∧
    (s.srOf c r = srAwake → s.mayEnterSr c r = false → exec (.selfRefreshEntry c r) s = .next s) ∧
    (s.srOf c r = srDrain → s.unit (rankUnit c r) ≠ 1 →
      ∃ t, exec (.selfRefreshEntry c r) s = .next t ∧ t.srOf c r = srIssue ∧
        (t.rankAt (rankIx c r)).sreAt = s.now ∧ t = { s with regs := t.regs, mc := t.mc } ∧
        RegsBut s t [MC_RK_STAT c r]) ∧
    (s.srOf c r = srIssue → s.unit (rankUnit c r) ≠ 1 →
      ∃ t, exec (.selfRefreshEntry c r) s = .next t ∧ t.srOf c r = srInSr ∧
        t = { s with regs := t.regs, mc := t.mc } ∧ RegsBut s t [MC_RK_STAT c r] ∧
        ∀ p e, p < 4 → e < 116 → t.mc.delays.get 0 (MC_DELAY c p r e) = s.reg (MC_DELAY c p r e)) ∧
    (s.srOf c r = srInSr ∨ s.srOf c r = srExit → exec (.selfRefreshEntry c r) s = .next s) ∧
    (s.srOf c r ≠ srExit ∨ s.now < (s.rankAt (rankIx c r)).exitAt ∨ s.freqBusy = true →
      exec (.selfRefreshExit c r) s = .next s) ∧
    (s.srOf c r = srExit → (s.rankAt (rankIx c r)).exitAt ≤ s.now →
      s.freqBusy = false → s.dramLoad = 0 →
      ∃ t, exec (.selfRefreshExit c r) s = .next t ∧ t.srOf c r = srAwake ∧
        t = { s with regs := t.regs } ∧ RegsBut s t [MC_RK_STAT c r])) ∧
  (∀ (s : State) (port : Fin 8) (level : BitVec 8),
    let a := MC_PORT_CFG0 + 4 * port.val
    let urgency := if port.val = 0 then min 255 (16 * ((List.range 144).filter s.fetchWaits).length)
      else level.toNat
    ∃ t, exec (.panic port level) s = .next t ∧ t = { s with regs := t.regs } ∧ RegsBut s t [a] ∧
      t.bit a MC_PORT_CFG0_PANIC =
        (decide (port.val < 4) && s.fld a MC_PORT_CFG0_PANIC_ON != 0 &&
          (if s.bit a MC_PORT_CFG0_PANIC then decide (s.fld a MC_PORT_CFG0_PANIC_OFF < urgency)
          else decide (s.fld a MC_PORT_CFG0_PANIC_ON ≤ urgency)))) ∧
  (∀ (s : State) (c : Fin 8) (d : Fin 2) (x : Int),
    ∃ t, exec (.temperaturePoll c d x) s = .next t ∧ (t.chanAt c).temps.get 0 d = x ∧
      (x < 95 → t = { s with mc := t.mc }) ∧
      (95 ≤ x → EventSet t BLK_MC 6 ∧ Reported s t 0x23C7 (BitVec.ofNat 8 c) 0 ∧ mcOnly s t [])) ∧
  (∀ (s : State) (c : Fin 8) (v : Word) (ack : Bool) (d : BitVec 8),
    (s.bit (MC_SB c) MC_SB_BUSY = false →
      ∃ t, exec (.sideband c v) s = .next t ∧ t.bit (MC_SB c) MC_SB_BUSY = true ∧
        (t.chanAt c).sbRead = (fldGet MC_SB_WR v == 0) ∧ mcOnly s t [MC_SB c]) ∧
    (s.bit (MC_SB c) MC_SB_BUSY = true →
      ∃ t, exec (.sideband c v) s = .next t ∧ t.mc = s.mc ∧ mcOnly s t [MC_SB c]) ∧
    (s.bit (MC_SB c) MC_SB_BUSY = false → exec (.sidebandDone c ack d) s = .next s) ∧
    (s.bit (MC_SB c) MC_SB_BUSY = true →
      ∃ t, exec (.sidebandDone c ack d) s = .next t ∧ t.bit (MC_SB c) MC_SB_BUSY = false ∧
        t.bit (MC_SB c) MC_SB_ERR = !ack ∧ t = { s with regs := t.regs } ∧ RegsBut s t [MC_SB c] ∧
        (ack = true → (s.chanAt c).sbRead = true → t.fld (MC_SB c) MC_SB_DATA = d.toNat)))

/-- R312 to R314: a migration starts from the rank that holds the logical rank to a free spare, and marks both;
without a spare or a rank, or with one under way, it is refused and reported. Done, the spare holds the
logical rank and the source is retired; it ends no earlier than its copy, and not before every request to the two
ranks is served; aborted, both keep their roles. A copied line of an unmirrored channel whose burst is
uncorrectable, which the model leaves free, is poisoned (log entry 46).
R311: a parity error whose replay
succeeds is counted; one whose third replay fails is an uncorrectable error on every request that the last
commands to the DIMM carried. -/
def migrationMovesALogicalRank : Prop :=
  ∀ (s : State) (c : Fin 8) (v : Word),
    let l := fldGet MC_MIG_CMD_LRANK v
    (∀ src dst, s.physRank c l = some src → s.freeSpare c = some dst → (s.chanAt c).mig = none →
      s.st.tests.get none (rankUnit c dst) = none →
      ∃ t, exec (.migrationStart c v) s = .next t ∧
        (t.chanAt c).mig = some { src := src, dst := dst, copied := 0 } ∧
        (s.srOf c src = srAwake → t.srOf c src = srAwake) ∧
        (s.freqBusy = false → s.srOf c dst = srInSr → t.srOf c dst = srExit) ∧
        t.bit (MC_RK_STAT c src) MC_RK_STAT_MIG = true ∧ t.bit (MC_RK_STAT c dst) MC_RK_STAT_MIG = true ∧
        t.fld (MC_MIG_STAT c) MC_MIG_STAT_STATE = 1 ∧ EventSet t BLK_MC 2 ∧
        mcOnly s t [MC_RK_STAT c src, MC_RK_STAT c dst, MC_MIG_STAT c]) ∧
    ((s.physRank c l = none ∨ s.freeSpare c = none) → (s.chanAt c).mig = none →
      ∃ t, exec (.migrationStart c v) s = .next t ∧ t.fld (MC_MIG_STAT c) MC_MIG_STAT_STATE = 3 ∧
        Reported s t 0x23C6 (BitVec.ofNat 8 c) 0 ∧ t.mc = s.mc ∧ mcOnly s t [MC_MIG_STAT c]) ∧
    ((s.chanAt c).mig.isSome = true →
      ∃ t, exec (.migrationStart c v) s = .next t ∧ Reported s t 0x23C6 (BitVec.ofNat 8 c) 0 ∧
        Frame s t [] []) ∧
    (∀ m, (s.chanAt c).mig = some m →
      m.copied < s.rankBytes ∨ s.rankQuiet c m.src = false ∨ s.rankQuiet c m.dst = false →
      exec (.migDone c) s = .next s) ∧
    ((s.chanAt c).mig = none →
      exec (.migDone c) s = .next s ∧ exec (.migrationAbort c v) s = .next s) ∧
    (∀ m, (s.chanAt c).mig = some m → m.src < 4 → m.dst < 4 → m.src ≠ m.dst →
      (s.rankBytes ≤ m.copied → s.rankQuiet c m.src = true → s.rankQuiet c m.dst = true →
        ∃ t, exec (.migDone c) s = .next t ∧ (t.chanAt c).mig = none ∧ t.role c m.src = roleRetired ∧
        t.role c m.dst = roleActive ∧
        t.fld (MC_RK_STAT c m.dst) MC_RK_STAT_LRANK = s.fld (MC_RK_STAT c m.src) MC_RK_STAT_LRANK ∧
        t.fld (MC_MIG_STAT c) MC_MIG_STAT_STATE = 2 ∧ t.fld (MC_MIG_STAT c) MC_MIG_STAT_PCT = 100 ∧
        t.unit (rankUnit c m.src) = 2 ∧ t.unit (rankUnit c m.dst) = 0 ∧ EventSet t BLK_MC 3 ∧
        mcOnly s t [MC_RK_STAT c m.src, MC_RK_STAT c m.dst, MC_MIG_STAT c, ST_USTAT (rankUnit c m.src),
          ST_USTAT (rankUnit c m.dst)]) ∧
      (∃ t, exec (.migrationAbort c v) s = .next t ∧ (t.chanAt c).mig = none ∧
        t.role c m.src = s.role c m.src ∧ t.role c m.dst = s.role c m.dst ∧
        t.fld (MC_MIG_STAT c) MC_MIG_STAT_STATE = 3 ∧ EventSet t BLK_MC 3 ∧
        mcOnly s t [MC_RK_STAT c m.src, MC_RK_STAT c m.dst, MC_MIG_STAT c])) ∧
    (∀ m off, s.mirPairs.contains (c.val / 2) = false →
      let line := s.rankAddr c (s.fld (MC_RK_STAT c m.src) MC_RK_STAT_LRANK) off / 64
      (s.copyLine c m off).linePoisoned line =
        (s.linePoisoned line || decide (2 ≤ Config.freeNat s.freeIx % 3))) ∧
    (∀ d : Fin 2, ((s.chanAt c).parity.filter fun t => decide (s.now - t < ticksSec)).length < 7 →
      (s.countEvent (winKey 0x13C2 c) 8 ticksSec).1 = false →
      ∃ t, exec (.caParityError c d 0) s = .next t ∧
        t.reg (MC_CNT 3) = satInc (s.reg (MC_CNT 3)) ∧ Reported s t 0x13C2 (BitVec.ofNat 8 c) 0 ∧
        mcOnly s t [MC_CNT 3]) ∧
    (∀ d : Fin 2, ∃ t, exec (.caParityError c d 3) s = .next t ∧
      ∀ k ∈ (s.chanAt c).cmds.get [] d, ∀ l, k.line = some l →
        (s.dramPlace (64 * l)).chans.length = 1 → t.linePoisoned l = true)

/-- R284, R300, R301, R304, R305, R311 to R314: ranks, ports and sideband.
Choices of the model, not of the spec: what a burst with errors is taken for, and which rank becomes lasting
(log entry 45); what refuses a migration or a frequency change, and the copies that meet a free error (log
entry 46).
Where its event has not occurred, a command changes nothing: the model's choice (log entry 2). -/
def Obligations.SelfRefreshAndMigration : Prop := selfRefreshPanicAndSideband ∧ migrationMovesALogicalRank

/-! ### Host interface -/

/-- Plain on-chip memory: every address is writable on-chip memory outside loop sections and the Sagger's
region. -/
def plainSram (s : State) (a n : Nat) : Prop :=
  ∀ j, j < n → s.region (a + j) = .sram ∧ inSections (a + j) = false ∧ inSagger (a + j) = false ∧
    readOnlyByte (a + j) = false ∧ fieldBits (a + j) = 0xFF

/-- Memory that the host reaches as bytes: no register, no loop section, no voted memory. -/
def hostBytes (s : State) (a n : Nat) : Prop :=
  s.plainMem a n ∧ ∀ j, j < n → inSections (a + j) = false ∧ inSagger (a + j) = false

/-- R317 to R322: a host write of memory stores its bytes, and a host read answers them, where PROT permits
every line. A denied access is reported, counted, writes nothing and reads zeros; a poisoned write is
discarded, reported, counted and shown in AER, and a read of poison has its EP bit set. A write of an aligned
word of BAR0 is the write of a register, and a read answers what the register reads; 8 bytes are two words,
the lower first; an access of another size or alignment is reported and counted, denied or not, and its read
answers the word of its first byte. A transaction that DRAM keeps waiting, and one behind it, stays in order. -/
def hostWindowsReachMemoryAndRegisters : Prop :=
  ∀ (s : State) (bar : Bar) (x : BitVec 36) (data : List Byte) (n : Nat), s.hi.queue = [] →
    let a := s.barAddr bar x.toNat
    let o := x.toNat % 2 ^ 26
    let word := (s.busGrant .host).readReg .host o
    (bar ≠ .bar0 → 0 < data.length → s.permitsAll .host a data.length true = true →
      (plainSram s a data.length →
        ∃ t, exec (.hostWrite bar x data false) s = .next t ∧ t.loadBytes a data.length = data ∧
          MemBut s t a data.length ∧ t = { s with mem := t.mem, poison := t.poison }) ∧
      (hostBytes s a data.length → s.hostStall bar a data.length true = none →
        ∃ t, exec (.hostWrite bar x data false) s = .next t ∧ t.loadBytes a data.length = data ∧
          MemBut s t a data.length ∧ MemFrame s t [] []) ∧
      (∀ u, s.hostStall bar a data.length true = some u →
        ∃ t, exec (.hostWrite bar x data false) s = .next t ∧
          t = { u with hi := { u.hi with queue := [.write bar s.bar4Base x.toNat data false] } } ∧
          MemFrame { s with hi := t.hi } t [] [] ∧ t.mem = s.mem)) ∧
    (bar ≠ .bar0 → 0 < n → s.permitsAll .host a n false = true →
      (plainSram s a n → s.poisoned a n = false →
        exec (.hostRead bar x n) s =
          .next { s with hi := { s.hi with data := s.loadBytes a n, ep := false } }) ∧
      (hostBytes s a n → s.hostStall bar a n false = none → s.poisoned a n = false →
        ∃ t, exec (.hostRead bar x n) s = .next t ∧ t.mem = s.mem ∧
          t.hi = { s.hi with data := s.loadBytes a n, ep := false } ∧
          MemFrame { s with hi := t.hi } t [] []) ∧
      (hostBytes s a n → s.hostStall bar a n false = none → s.poisoned a n = true →
        ∃ t, exec (.hostRead bar x n) s = .next t ∧ t.hi.ep = true ∧ t.hi.data.length = n ∧
          ((∃ l ∈ linesOf a n, s.linePoisoned l = true ∧ s.region (64 * l) = .dram) →
            EventSet t BLK_MC 4) ∧
          Frame { s with hi := t.hi, freeIx := s.freeIx + 1 } t [MC_CNT 1] [BLK_MC]) ∧
      (∀ u, s.hostStall bar a n false = some u →
        exec (.hostRead bar x n) s =
          .next { u with hi := { u.hi with queue := [.read bar s.bar4Base x.toNat n] } })) ∧
    (bar ≠ .bar0 → s.permitsAll .host a data.length true = false →
      ∃ t, exec (.hostWrite bar x data false) s = .next t ∧ Frame s t [HI_CNT 0] [] ∧
        t.reg (HI_CNT 0) = satInc (s.reg (HI_CNT 0)) ∧ Reported s t 0x1402 0xFF (BitVec.ofNat 48 a)) ∧
    (bar ≠ .bar0 → s.permitsAll .host a n false = false →
      ∃ t, exec (.hostRead bar x n) s = .next t ∧ t.hi.data = List.replicate n 0 ∧ t.hi.ep = false ∧
        Frame { s with hi := t.hi } t [HI_CNT 0] [] ∧ Reported s t 0x1402 0xFF (BitVec.ofNat 48 a)) ∧
    (∃ t, exec (.hostWrite bar x data true) s = .next t ∧ Frame { s with hi := t.hi } t [HI_CNT 1] [] ∧
      t.reg (HI_CNT 1) = satInc (s.reg (HI_CNT 1)) ∧ Reported s t 0x1403 0xFF (BitVec.ofNat 48 a) ∧
      AerErr.poisonedTlp ∈ t.hi.cfg.aer) ∧
    (x.toNat % 4 = 0 → data.length = 4 →
      ∀ t, exec (.registerWrite .host (BitVec.ofNat 26 o) (BitVec.ofNat 32 (leNat data))) s = .next t →
        exec (.hostWrite .bar0 x data false) s = .next { t with hi := { t.hi with queue := [] } }) ∧
    (x.toNat % 8 = 0 → data.length = 8 →
      ∀ u t, exec (.registerWrite .host (BitVec.ofNat 26 o) (BitVec.ofNat 32 (leNat (data.take 4)))) s =
          .next u →
        exec (.registerWrite .host (BitVec.ofNat 26 (o + 4)) (BitVec.ofNat 32 (leNat (data.drop 4)))) u =
          .next t →
        exec (.hostWrite .bar0 x data false) s = .next { t with hi := { t.hi with queue := [] } }) ∧
    (s.permits .host (regAddr o) false = true →
      (x.toNat % 4 = 0 →
        exec (.hostRead .bar0 x 4) s =
          .next { word.2 with hi := { word.2.hi with
            data := leBytes 4 word.1.toNat, ep := false, queue := [] } }) ∧
      (x.toNat % 8 = 0 → word.2.permits .host (regAddr (o + 4)) false = true →
        ∃ t, exec (.hostRead .bar0 x 8) s = .next t ∧
          t.hi.data = leBytes 4 word.1.toNat ++
            leBytes 4 ((word.2.busGrant .host).readReg .host (o + 4)).1.toNat)) ∧
    (s.permits .host (regAddr o) false = false → x.toNat % 4 = 0 →
      ∃ t, exec (.hostRead .bar0 x 4) s = .next t ∧ t.hi.data = [0, 0, 0, 0] ∧
        Frame { s with hi := t.hi } t [HI_CNT 0] [] ∧
        Reported s t 0x1402 0xFF (BitVec.ofNat 48 (regAddr o))) ∧
    (bar0Kind o data.length = false →
      ∃ t, exec (.hostWrite .bar0 x data false) s = .next t ∧
        (if s.permits .host (regAddr o) true then
          Frame s t [HI_CNT 3] [] ∧ t.reg (HI_CNT 3) = satInc (s.reg (HI_CNT 3)) ∧
            Reported s t 0x0401 0xFF (BitVec.ofNat 48 (regAddr o))
        else
          Frame s t [HI_CNT 0, HI_CNT 3] [] ∧ t.reg (HI_CNT 0) = satInc (s.reg (HI_CNT 0)) ∧
            t.reg (HI_CNT 3) = satInc (s.reg (HI_CNT 3)) ∧
            ∃ u, Reported s u 0x1402 0xFF (BitVec.ofNat 48 (regAddr o)) ∧
              Reported u t 0x0401 0xFF (BitVec.ofNat 48 (regAddr o)))) ∧
    (bar0Kind o n = false → s.permits .host (regAddr (o / 4 * 4)) false = true →
      let u := (s.busGrant .host).readReg .host (o / 4 * 4)
      ∃ t, exec (.hostRead .bar0 x n) s = .next t ∧ t.hi.data = leBytes 4 u.1.toNat ∧
        Frame { u.2 with hi := t.hi } t [HI_CNT 3] [] ∧
        t.reg (HI_CNT 3) = satInc (u.2.reg (HI_CNT 3)) ∧
        Reported u.2 t 0x0401 0xFF (BitVec.ofNat 48 (regAddr o)))

/-- R321: a transaction of the host behind one that must wait, waits behind it. -/
def hostTransactionsKeepTheirOrder : Prop :=
  ∀ (s u : State) (h : HostAcc) (rest : List HostAcc), s.hi.queue = h :: rest → s.hostDo h = (false, u) →
    (∀ bar x data p,
      exec (.hostWrite bar x data p) s = .next { u with hi := { u.hi with
        queue := h :: rest ++ [.write bar s.bar4Base x.toNat data p] } }) ∧
    (∀ bar x n,
      exec (.hostRead bar x n) s = .next { u with hi := { u.hi with
        queue := h :: rest ++ [.read bar s.bar4Base x.toNat n] } })

/-- R317 to R322: the accesses of the host.
Choices of the model, not of the spec: PROT judges an access line by line and one denied line denies it
whole, and an access logs one unmapped address (log entry 15); a host access that must wait for DRAM stays
in its queue (log entry 76). -/
def Obligations.HostWindowsReachTheDevice : Prop :=
  hostWindowsReachMemoryAndRegisters ∧ hostTransactionsKeepTheirOrder

/-- R325: a doorbell holds its value, raises its event and wakes the fast domains that have it as a source
(R457); each 1 of HI_SWEVT raises one. R324, R469: a function level reset and the loss of an established link
put the MSI-X table, the base of BAR4 and configuration space back to their reset values, end the descriptors
that need the host with RESULT 4, and raise their events; PERST_N's fall does so without a link too. The link
comes up after PERST_N and the PROT lock.
Choices of the model, not of the spec: which descriptors and transactions a link loss or a reset ends (log
entry 48).
Where its event has not occurred, a command changes nothing: the model's choice (log entry 2). -/
def Obligations.DoorbellsAndHostResets : Prop :=
  ∀ s : State,
    let was (t : State) : Prop :=
      (∀ v, v < 256 → t.reg (MSIX_CTRL v) = regReset (MSIX_CTRL v) ∧
        t.reg (MSIX_ADDR_LO v) = regReset (MSIX_ADDR_LO v)) ∧ t.reg HI_BAR4_BASE = 0 ∧
      t.hi.cfg = PciCfg.reset ∧
      (∀ n, n < 32 →
        if s.usesHost n then t.chState n = chError ∧ t.fld (CH_STAT n) CH_STAT_RESULT = 4
        else t.chState n = s.chState n)
    let lost (t : State) : Prop :=
      was t ∧ t.linkUp = false ∧ EventSet t BLK_HI 24 ∧
        ((∀ n, n < 32 → s.usesHost n = false) → Reported s t 0x2404 0xFF 0)
    (∀ (n : Fin 16) (v : Word),
      ∃ t, exec (.doorbell n v) s = .next t ∧ t.reg (HI_DB n) = v ∧ EventSet t BLK_HI n ∧
        Frame { s with ck := t.ck, freeIx := t.freeIx } t ([HI_DB n] ++ (List.range 3).map CK_DOM)
          [BLK_HI] ∧
        ∀ d, d < 3 → if (s.fld (CK_DOM d) CK_DOM_WAKESRC).testBit 1 then t.fld (CK_DOM d) CK_DOM_REQ = 2
          else t.reg (CK_DOM d) = s.reg (CK_DOM d)) ∧
    (∀ v : Word,
      ∃ t, exec (.hiSwevt v) s = .next t ∧ Frame s t [] [BLK_HI] ∧
        ∀ i, i < 32 → t.rbit (evtReg BLK_HI) i =
          (s.rbit (evtReg BLK_HI) i || (decide (16 ≤ i ∧ i < 24) && v.getLsbD (i - 16)))) ∧
    (∃ t, exec .functionLevelReset s = .next t ∧ was t ∧ EventSet t BLK_HI 26) ∧
    (s.linkUp = true → ∃ t, exec .pcieLinkDown s = .next t ∧ lost t) ∧
    (s.linkUp = false → exec .pcieLinkDown s = .next s) ∧
    (s.boot.perst = true →
      ∃ t, exec (.perstN false) s = .next t ∧ t.boot.perst = false ∧ was t ∧ (s.linkUp = true → lost t)) ∧
    (s.boot.perst = false → exec (.perstN false) s = .next s) ∧
    exec (.perstN true) s = .next { s with boot := { s.boot with perst := true } } ∧
    (∀ speed width : BitVec 4,
      let trains := s.boot.perst = true ∧ s.bit PROT_LOCK PROT_LOCK_LOCK = true ∧ s.linkUp = false ∧
        1 ≤ speed.toNat ∧ speed.toNat ≤ 5 ∧ width.toNat ∈ [1, 2, 4, 8]
      (trains →
        ∃ t, exec (.pcieLinkUp speed width) s = .next t ∧ t.linkUp = true ∧
          t.fld HI_LINK_STAT HI_LINK_STAT_SPEED = speed.toNat ∧
          t.fld HI_LINK_STAT HI_LINK_STAT_WIDTH = width.toNat ∧ EventSet t BLK_HI 25 ∧
          Frame s t [HI_LINK_STAT] [BLK_HI]) ∧
      (¬ trains → exec (.pcieLinkUp speed width) s = .next s))

/-! ### DMA -/

/-- Only a channel's own state and registers of a list, and the reports of DMA, have changed. -/
def dmaOnly (s t : State) (n : Fin 32) (regs : List Nat) : Prop :=
  Frame { s with dma := t.dma } t regs [BLK_DMA] ∧ ∀ m, m ≠ n.val → t.dmaAt m = s.dmaAt m

/-- R333, R334: START of a channel in IDLE or ERROR takes the head as T and fetches it; one that is busy or
retired refuses it, and one in test starts later. A poke sets POKED, and starts the end check of an idle
channel; without a descriptor fetched since reset it is refused. -/
def channelsStartAndArePoked : Prop :=
  ∀ (s : State) (n : Fin 32) (v : Word),
    ((s.chState n = chIdle ∨ s.chState n = chError) → s.unit (224 + n) ≠ 2 →
      (s.unit (224 + n) ≠ 1 →
        ∃ t, exec (.channelStart n) s = .next t ∧ t.chState n = chFetch ∧
          t.chTail n = s.reg64 (CH_HEAD_LO n) (CH_HEAD_HI n) ∧
          t.dmaAt n = { s.dmaAt n with late := false, moved := 0 } ∧
          t = { s with regs := t.regs, dma := t.dma } ∧
          dmaOnly s t n [CH_TAIL_LO n, CH_TAIL_HI n, CH_STAT n]) ∧
      (s.unit (224 + n) = 1 →
        ∃ t, exec (.channelStart n) s = .next t ∧ t.dmaAt n = { s.dmaAt n with late := true } ∧
          t = { s with dma := t.dma } ∧ dmaOnly s t n [])) ∧
    ((s.chState n ≠ chIdle ∧ s.chState n ≠ chError) ∨ s.unit (224 + n) = 2 →
      ∃ t, exec (.channelStart n) s = .next t ∧ Frame s t [] [] ∧ Reported s t 0x0441 (BitVec.ofNat 8 n) 0) ∧
    ((s.dmaAt n).fetched = true →
      (s.chState n = chIdle → s.unit (224 + n) ≠ 1 →
        ∃ t, exec (.chainPoke n v) s = .next t ∧ t.chState n = chEndchk ∧ t.chPoked n = false ∧
          t = { s with regs := t.regs } ∧ RegsBut s t [CH_STAT n]) ∧
      (s.chState n ≠ chIdle ∨ s.unit (224 + n) = 1 →
        ∃ t, exec (.chainPoke n v) s = .next t ∧ t.chState n = s.chState n ∧ t.chPoked n = true ∧
          t = { s with regs := t.regs } ∧ RegsBut s t [CH_STAT n])) ∧
    ((s.dmaAt n).fetched = false →
      ∃ t, exec (.chainPoke n v) s = .next t ∧ Frame s t [] [] ∧ Reported s t 0x0441 (BitVec.ofNat 8 n) 0)

/-- R330 to R336: a descriptor from its fetch to its end. Fetched, its move begins, or a wrong one ends with
RESULT 1. A move within one line stores the source's bytes, or the pattern of a FILL, at the destination;
then STATUS with DONE and the bytes moved stand behind the descriptor, and the end check follows; the bytes may still be
on their way (R343). With RBK the readback comes first, STATUS carries ARRIVED, and nothing is on its way any
more. A status write that PROT denies is reported, with
RESULT 2. A read of the host that times out or fails ends the descriptor with RESULT 4, a poisoned one with 3,
and an abort with 5, at the next transfer boundary. A fetch that DRAM keeps waiting changes nothing of the channel. -/
def descriptorsRunToTheirEnd : Prop :=
  ∀ (s : State) (n : Fin 32), (s.dmaAt n).result ≠ 5 →
    let T := s.chTail n
    let ends (t : State) (status moved : Nat) : Prop :=
      t.loadNat (T + 0x38) 4 = status ∧ t.loadNat (T + 0x3C) 4 = moved
    let statusPlace : Prop := s.permits (.dma n) (T + 0x38) true = true ∧ plainSram s (T + 0x38) 8
    let last (d : DmaDesc) : Nat := d.dstAt (d.total - 1) / 64 * 64
    let landed := (s.dmaAt n).flight = []
    (s.chState n = chFetch → T % 64 = 0 → s.permits (.dma n) T false = true →
      (landed → plainSram s T 64 → s.poisoned T 64 = false →
        (∀ d, dmaParse (leNat (s.loadBytes T 64)) = some d →
          ∃ t, exec (.fetch n) s = .next t ∧ t.chState n = chRun ∧
            t.dmaAt n = { s.dmaAt n with desc := some d, raw := some d, fetched := true, moved := 0 } ∧
            t = { s with regs := t.regs, dma := t.dma } ∧ dmaOnly s t n [CH_STAT n]) ∧
        (dmaParse (leNat (s.loadBytes T 64)) = none → (s.dmaAt n).desc = none → statusPlace →
          ∃ t, exec (.fetch n) s = .next t ∧ t.chState n = chError ∧
            t.fld (CH_STAT n) CH_STAT_RESULT = 1 ∧ Reported s t 0x0442 (BitVec.ofNat 8 n) 0 ∧
            EventSet t BLK_DMA n ∧ ends t 5 0 ∧ MemBut s t (T + 0x38) 8)) ∧
      (∀ u, (s.dmaLand n fun _ b => decide (b / 64 = T / 64)).dramStall 5 n T 64 false = some u →
        exec (.fetch n) s = .next u)) ∧
    (∀ d, landed → s.chState n = chRun → (s.dmaAt n).desc = some d → (s.dmaAt n).raw = some d →
      dmaFields (leNat (s.viewBytes T 64)) = d → (s.dmaAt n).moved = 0 → (s.dmaAt n).owns = false →
      d.cven = false → d.overlaps = false → 0 < d.total → d.chunk 0 = d.total → statusPlace →
      s.permits (.dma n) (d.dstAt 0) true = true → plainSram s (d.dstAt 0) d.total →
      (d.fill = false → s.permits (.dma n) (d.srcAt 0) false = true ∧ plainSram s (d.srcAt 0) d.total ∧
        s.poisoned (d.srcAt 0) d.total = false) →
      (d.dstAt 0 + d.total ≤ T + 0x38 ∨ T + 0x40 ≤ d.dstAt 0) →
      ∃ t, exec (.complete n) s = .next t ∧
        (t.dmaLand n fun _ _ => true).loadBytes (d.dstAt 0) d.total =
          (if d.fill then d.pattern 0 d.total else s.loadBytes (d.srcAt 0) d.total) ∧
        (∀ x, (x < d.dstAt 0 ∨ d.dstAt 0 + d.total ≤ x) → (x < T + 0x38 ∨ T + 0x40 ≤ x) →
          memByte t.mem x = memByte s.mem x) ∧
        dmaOnly { s with mem := t.mem, poison := t.poison, freeIx := t.freeIx } t n [CH_STAT n] ∧
        (if d.rbk then t.chState n = chStatus
        else t.chState n = chEndchk ∧ t.chPoked n = false ∧ t.fld (CH_STAT n) CH_STAT_RESULT = 0 ∧
          ends t 1 d.total ∧ (d.irq = true → EventSet t BLK_DMA n))) ∧
    (∀ d, s.chState n = chStatus → (s.dmaAt n).desc = some d → (s.dmaAt n).owns = false →
      (s.dmaAt n).moved < 2 ^ 32 → s.permits (.dma n) (last d) false = true → plainSram s (last d) 64 →
      s.poisoned (last d) 64 = false →
      (statusPlace →
        ∃ t, exec (.arrived n) s = .next t ∧ t.chState n = chEndchk ∧ ends t 3 (s.dmaAt n).moved ∧
          (t.dmaAt n).flight = [] ∧
          (landed → MemBut s t (T + 0x38) 8 ∧
            dmaOnly { s with mem := t.mem, poison := t.poison } t n [CH_STAT n]) ∧
          (∀ a bs, (s.dmaAt n).flight = [(a, bs)] → plainSram s a bs.length →
            a + bs.length ≤ T + 0x38 ∨ T + 0x40 ≤ a → t.loadBytes a bs.length = bs)) ∧
      (s.permits (.dma n) (T + 0x38) true = false →
        ∃ t, exec (.arrived n) s = .next t ∧ t.chState n = chError ∧
          t.fld (CH_STAT n) CH_STAT_RESULT = 2 ∧ EventSet t BLK_DMA n ∧ (landed → dmaOnly s t n [CH_STAT n]) ∧
          Reported s t 0x1443 (BitVec.ofNat 8 n) (BitVec.ofNat 48 (T + 0x38)))) ∧
    (∀ err, s.readsHost n = true →
      ∃ t, exec (.completionTimeout ⟨n, err⟩) s = .next t ∧ t.chState n = chError ∧ EventSet t BLK_DMA n ∧
        (if err = .poisoned then
          t.fld (CH_STAT n) CH_STAT_RESULT = 3 ∧ t.reg (HI_CNT 1) = satInc (s.reg (HI_CNT 1)) ∧
            Reported s t 0x1403 0xFF (BitVec.ofNat 48 T) ∧ AerErr.poisonedTlp ∈ t.hi.cfg.aer
        else
          t.fld (CH_STAT n) CH_STAT_RESULT = 4 ∧ t.reg (HI_CNT 2) = satInc (s.reg (HI_CNT 2)) ∧
            Reported s t 0x1405 (BitVec.ofNat 8 n) 0 ∧
            (err = .timeout → AerErr.completionTimeout ∈ t.hi.cfg.aer))) ∧
    (∀ err, s.readsHost n = false → exec (.completionTimeout ⟨n, err⟩) s = .next s) ∧
    (s.chState n ≠ chIdle → s.chState n ≠ chError → s.dmaAtBoundary n = false →
      ∃ t, exec (.channelAbort n) s = .next t ∧ t = { s with dma := t.dma } ∧
        t.dmaAt n = { s.dmaAt n with result := 5 }) ∧
    (s.chState n ≠ chIdle → s.chState n ≠ chError → s.dmaAtBoundary n = true → statusPlace →
      ∃ t, exec (.channelAbort n) s = .next t ∧ t.chState n = chError ∧
        t.fld (CH_STAT n) CH_STAT_RESULT = 5 ∧ EventSet t BLK_DMA n ∧
        ends t 21 (min 0xFFFFFFFF (s.dmaAt n).moved) ∧ (landed → MemBut s t (T + 0x38) 8)) ∧
    (s.chState n = chIdle ∨ s.chState n = chError → exec (.channelAbort n) s = .next s) ∧
    (s.chState n ≠ chFetch → exec (.fetch n) s = .next s) ∧
    (s.chState n ≠ chRun → exec (.complete n) s = .next s) ∧
    (s.chState n ≠ chStatus → exec (.arrived n) s = .next s)

/-- R336: a channel that is to be stopped ends its descriptor with RESULT 5 at its next boundary, whatever it
does, and not before. -/
def stoppedDescriptorsAreAborted : Prop :=
  ∀ (s : State) (n : Fin 32) (i : Instr), (s.dmaAt n).result = 5 →
    (s.chState n = chRun → s.dmaAtBoundary n = false → exec (.complete n) s = .next s) ∧
    (s.dmaAtBoundary n = true → (i = .fetch n ∧ s.chState n = chFetch) ∨ (i = .complete n ∧ s.chState n = chRun) ∨
      (i = .arrived n ∧ s.chState n = chStatus) ∨ (i = .endchk n ∧ s.chState n = chEndchk) →
    s.permits (.dma n) (s.chTail n + 0x38) true = true → plainSram s (s.chTail n + 0x38) 8 →
    ∃ t, exec i s = .next t ∧ t.chState n = chError ∧ t.fld (CH_STAT n) CH_STAT_RESULT = 5 ∧
      EventSet t BLK_DMA n ∧ (t.dmaAt n).result = 0 ∧ t.loadNat (s.chTail n + 0x38) 4 = 21 ∧
      ((s.dmaAt n).flight = [] → MemBut s t (s.chTail n + 0x38) 8))

/-- R333, R334: the end check reads the link at T + 0x30: a valid one is fetched next, else a poke since the last
read makes the channel read again, and otherwise it is idle. -/
def endChecksChainOrIdle : Prop :=
  ∀ (s : State) (n : Fin 32),
    (s.chState n ≠ chEndchk → exec (.endchk n) s = .next s) ∧
    (s.chState n = chEndchk → (s.dmaAt n).result ≠ 5 → s.chTail n % 64 = 0 → (s.dmaAt n).flight = [] →
      s.permits (.dma n) (s.chTail n + 0x30) false = true → plainSram s (s.chTail n + 0x30) 8 →
      s.poisoned (s.chTail n + 0x30) 8 = false →
      let link := s.loadNat (s.chTail n + 0x30) 8
      ∃ t, exec (.endchk n) s = .next t ∧ t = { s with regs := t.regs, dma := t.dma } ∧
        dmaOnly s t n [CH_STAT n, CH_TAIL_LO n, CH_TAIL_HI n] ∧
        (if link % 2 = 1 then t.chState n = chFetch ∧ t.chTail n = link % 2 ^ 48 / 64 * 64
        else if s.chPoked n then t.chState n = chEndchk ∧ t.chPoked n = false ∧ t.chTail n = s.chTail n
        else t.chState n = chIdle ∧ t.chTail n = s.chTail n))

/-- R330 to R336: a channel from its start to its end.
Choices of the model, not of the spec: amounts moved in a tick are free, and the rest moves at COMPLETE (log
entry 50); START of a retired channel is refused (log entry 50); fault 0x0441 carries zero as INFO (log
entry 80).
Where its event has not occurred, a command changes nothing: the model's choice (log entry 2). -/
def Obligations.DmaChannelsWork : Prop :=
  channelsStartAndArePoked ∧ descriptorsRunToTheirEnd ∧ stoppedDescriptorsAreAborted ∧ endChecksChainOrIdle

/-! ### Check values -/

/-- A write to a unit that no descriptor owns and no test holds has an effect; one that a descriptor owns is
ignored and reported (R342). -/
def cvOwnedRule (i : Fin 8 → BitVec 32 → Instr) : Prop :=
  ∀ (s : State) (u : Fin 8) (v : Word), s.st.tests.get none (216 + u.val) = none →
    s.bit (CV_STAT u) CV_STAT_DMAOWN = true →
    ∃ t, exec (i u v) s = .next t ∧ Frame { s with cv := t.cv } t [] [] ∧
      (t.cvAt u).fifo = (s.cvAt u).fifo ∧ Reported s t 0x0481 (BitVec.ofNat 8 u) 0

/-- Bytes are fed into a unit: those beyond the sixteen that wait enter the running value (R338). -/
def cvFeedRule (i : Fin 8 → BitVec 32 → Instr) (k : Nat) : Prop :=
  ∀ (s : State) (u : Fin 8) (v : Word), s.st.tests.get none (216 + u.val) = none →
    s.bit (CV_STAT u) CV_STAT_DMAOWN = false →
    let q := (s.cvAt u).fifo ++ leBytes k v.toNat
    ∃ t, exec (i u v) s = .next t ∧ t = { s with regs := t.regs, cv := t.cv } ∧
      RegsBut s t [CV_VALUE u, CV_STAT u] ∧ (t.cvAt u).fifo = q.drop (q.length - 16) ∧
      t.cvValue u = (s.cvPolyOf u).bytes (s.cvValue u) (q.take (q.length - 16)) ∧
      ∀ w, w ≠ u.val → t.cvAt w = s.cvAt w

/-- R337 to R342: bytes fed enter the running value in order; START loads the seed of its mode and clears the
count; END forms the result over every byte fed, compares it, and counts the frame; a value written replaces
the running one.
Choices of the model, not of the spec: the flags of END take new values at each END, and a write to a full
FIFO lets its oldest byte be processed (log entry 51). -/
def Obligations.CheckValuesAreFormed : Prop :=
  cvFeedRule .cvData8 1 ∧ cvFeedRule .cvData16 2 ∧ cvFeedRule .cvData32 4 ∧
  cvOwnedRule .cvData8 ∧ cvOwnedRule .cvData16 ∧ cvOwnedRule .cvData32 ∧ cvOwnedRule .cvStart ∧
  cvOwnedRule .cvEnd ∧ cvOwnedRule .cvValueWrite ∧
  (∀ (s : State) (u : Fin 8) (v : Word), s.st.tests.get none (216 + u.val) = none →
    s.bit (CV_STAT u) CV_STAT_DMAOWN = false →
    let p := s.cvPolyOf u
    let mode := s.fld (CV_CFG u) CV_CFG_MODE
    let addr := s.fld (CV_FRAME u) CV_FRAME_ADDR
    let seq := s.fld (CV_FRAME u) CV_FRAME_SEQ
    (∃ t, exec (.cvStart u v) s = .next t ∧ t.fld (CV_STAT u) CV_STAT_COUNT = 0 ∧ (t.cvAt u).fifo = [] ∧
      t = { s with regs := t.regs, cv := t.cv } ∧ RegsBut s t [CV_VALUE u, CV_STAT u] ∧
      (mode = 0 → t.cvValue u = p.seed p.init) ∧
      (mode = 1 → t.cvValue u = p.seed (p.init ^^^ p.fold addr seq)) ∧
      (mode = 2 → t.cvValue u = p.byte (p.seed p.init) (BitVec.ofNat 8 seq))) ∧
    (let res := p.result (p.bytes (s.cvValue u) (s.cvAt u).fifo)
     let same := decide ((s.reg (CV_EXPECT u)).toNat % 2 ^ p.width = res)
     let cmp := s.bit (CV_CFG u) CV_CFG_CMP
     ∃ t, exec (.cvEnd u v) s = .next t ∧ (t.reg (CV_RESULT u)).toNat = res ∧ (t.cvAt u).fifo = [] ∧
      t.bit (CV_STAT u) CV_STAT_MATCH = (cmp && same) ∧
      t.bit (CV_STAT u) CV_STAT_MISMATCH = (cmp && !same) ∧
      ((cmp && !same) = true → EventSet t BLK_CV u ∧ Reported s t 0x0482 (BitVec.ofNat 8 u) 0) ∧
      (mode = 1 → t.fld (CV_FRAME u) CV_FRAME_SEQ = (seq + 1) % 65536) ∧
      (mode = 2 → t.fld (CV_FRAME u) CV_FRAME_SEQ = seq / 256 * 256 + (seq + 1) % 256) ∧
      (mode = 0 → t.fld (CV_FRAME u) CV_FRAME_SEQ = seq) ∧
      t.cvValue u = p.bytes (s.cvValue u) (s.cvAt u).fifo ∧
      Frame { s with cv := t.cv } t [CV_VALUE u, CV_STAT u, CV_RESULT u, CV_FRAME u] [BLK_CV]) ∧
    (∃ t, exec (.cvValueWrite u v) s = .next t ∧ t.cvValue u = v.toNat % 2 ^ p.width ∧
      (t.cvAt u).fifo = [] ∧ t = { s with regs := t.regs, cv := t.cv } ∧
      RegsBut s t [CV_VALUE u, CV_STAT u]))

/-! ### Motion -/

/-- Only one axis's own state, registers of a list, and the reports of MX have changed. -/
def axOnly (s t : State) (a : Fin 8) (regs : List Nat) : Prop :=
  Frame { s with mx := t.mx } t regs [BLK_MX] ∧ ∀ b, b ≠ a.val → t.axAt b = s.axAt b

/-- A command of AX_CMD that begins a run: refused, with its flag, where a rule forbids it, and ignored while the
line clock runs the axis; else the axis takes the state and the run. -/
def axisStarts (i : Fin 8 → BitVec 32 → Instr) (state : Nat) (forbidden : State → Fin 8 → Word → Prop)
    (run : State → Fin 8 → Word → AxRun) : Prop :=
  ∀ (s : State) (a : Fin 8) (v : Word),
    (s.lcFeeds a = false → ¬ forbidden s a v →
      ∃ t, exec (i a v) s = .next t ∧ t.axState a = state ∧ (t.axAt a).run = run s a v ∧
        (t.axAt a).p = (s.axAt a).p ∧ (t.axAt a).v = (s.axAt a).v ∧
        t = { s with regs := t.regs, mx := t.mx } ∧ axOnly s t a [AX_STAT a]) ∧
    (s.lcFeeds a = false → forbidden s a v →
      ∃ t, exec (i a v) s = .next t ∧ t.bit (AX_FLAG a) AX_FLAG_REFUSED = true ∧ EventSet t BLK_MX a ∧
        Reported s t 0x04C7 (BitVec.ofNat 8 a) 0 ∧ t.mx = s.mx ∧ axOnly s t a [AX_FLAG a]) ∧
    (s.lcFeeds a = true →
      ∃ t, exec (i a v) s = .next t ∧ Frame s t [] [] ∧ Reported s t 0x04C7 (BitVec.ofNat 8 a) 0)

/-- R352 to R354, R358, R359, R361: MOVE and VELOCITY start outside homing, SEGMENTS and HOME in IDLE, and none
toward a tripped limit; RAMP STOP and HARD STOP are always taken, fail a homing and end a feed; a hard stop
leaves V = 0 and p at AX_POS; AX_POS is written in IDLE only.
Choices of the model, not of the spec: commands in states for which the rule names no outcome (log entry
53); fault 0x04C7 carries zero as INFO (log entry 80). -/
def Obligations.AxisCommandsStartOrAreRefused : Prop :=
  axisStarts .move 1
    (fun s a _ => s.axState a = 5 ∨
      s.towardTrip a (s.reg (AX_TARGET a) - (s.axAt a).floor).toInt = true)
    (fun s a v => .move (fldGet AX_CMD_SET v) (s.reg (AX_TARGET a)) false) ∧
  axisStarts .velocity 2
    (fun s a _ => s.axState a = 5 ∨ s.towardTrip a (s.reg (AX_TARGET a)).toInt = true)
    (fun s a v => .velocity (fldGet AX_CMD_SET v) (s.reg (AX_TARGET a)).toInt) ∧
  axisStarts .segments 3
    (fun s a v => s.axState a ≠ 0 ∨
      s.towardTrip a (segGoal (s.segWords a (fldGet AX_CMD_FIRSTSEG v)) (s.axAt a).p.toInt -
        (s.axAt a).p.toInt) = true)
    (fun s a v => .segments { entry := fldGet AX_CMD_FIRSTSEG v,
                              words := s.segWords a (fldGet AX_CMD_FIRSTSEG v), t := 0,
                              p0 := (s.axAt a).p.toInt, v0 := 0 }) ∧
  (∀ (s : State) (a : Fin 8) (v : Word), s.lcFeeds a = false → s.axState a ≠ 5 →
    (∃ t, exec (.rampStop a v) s = .next t ∧ t.axState a = 4 ∧ (t.axAt a).run = .stop ∧
      (t.axAt a).v = (s.axAt a).v ∧ t = { s with regs := t.regs, mx := t.mx } ∧ axOnly s t a [AX_STAT a]) ∧
    (∃ t, exec (.hardStop a v) s = .next t ∧ t.axState a = 4 ∧ (t.axAt a).run = .arrived ∧
      (t.axAt a).v = 0 ∧ t.reg (AX_VEL a) = 0 ∧ (t.axAt a).floor = s.reg (AX_POS a) ∧
      t.bit (AX_STAT a) AX_STAT_LAG = false ∧
      t = { s with regs := t.regs, mx := t.mx } ∧ axOnly s t a [AX_STAT a, AX_VEL a])) ∧
  (∀ (s : State) (a : Fin 8) (v : Word) (hard : Bool),
    let i : Instr := if hard then .hardStop a v else .rampStop a v
    let stops (t : State) : Prop := t.axState a = 4 ∧
      (t.axAt a).run = (if hard then .arrived else .stop) ∧ (hard = true → (t.axAt a).v = 0)
    (s.axState a = 5 → s.lcFeeds a = false →
      ∃ t, exec i s = .next t ∧ stops t ∧ t.bit (AX_STAT a) AX_STAT_HOMED = false ∧
        t.bit (AX_FLAG a) AX_FLAG_HOME_FAIL = true ∧ EventSet t BLK_MX a ∧
        Reported s t 0x04C2 (BitVec.ofNat 8 a) 0 ∧ axOnly s t a [AX_STAT a, AX_FLAG a, AX_VEL a]) ∧
    (s.axState a ≠ 5 → s.lcFeeds a = true →
      ∃ t, exec i s = .next t ∧ stops t ∧ t.fld LC_STAT LC_STAT_FEED = 0 ∧ t.lc.feedOff = true ∧
        axOnly { s with lc := t.lc } t a [AX_STAT a, AX_VEL a, LC_STAT])) ∧
  (∀ (s : State) (a : Fin 8) (v : Word), s.lcFeeds a = false →
    let side := if s.homeActive a then !s.homePositive a else s.homePositive a
    (s.axState a = 0 → s.tripped a side = false →
      ∃ t, exec (.home a v) s = .next t ∧ t.axState a = 5 ∧ t.bit (AX_STAT a) AX_STAT_HOMED = false ∧
        t.fld (AX_STAT a) AX_STAT_HSTEP = (if s.homeActive a then 0 else 1) ∧
        (t.axAt a).run = s.homeSpeed a side ∧
        t = { s with regs := t.regs, mx := t.mx } ∧ axOnly s t a [AX_STAT a]) ∧
    (s.axState a ≠ 0 ∨ s.tripped a side = true →
      ∃ t, exec (.home a v) s = .next t ∧ t.bit (AX_FLAG a) AX_FLAG_REFUSED = true ∧ EventSet t BLK_MX a ∧
        Reported s t 0x04C7 (BitVec.ofNat 8 a) 0 ∧ t.mx = s.mx ∧ axOnly s t a [AX_FLAG a])) ∧
  (∀ (s : State) (a : Fin 8) (v : Word),
    (s.axState a = 0 → s.lcFeeds a = false →
      ∃ t, exec (.axPosWrite a v) s = .next t ∧ t.reg (AX_POS a) = v ∧ (t.axAt a).floor = v ∧
        (t.axAt a).v = (s.axAt a).v ∧ t.bit (AX_STAT a) AX_STAT_LAG = false ∧
        t = { s with regs := t.regs, mx := t.mx } ∧ axOnly s t a [AX_POS a, AX_STAT a]) ∧
    (s.axState a ≠ 0 ∨ s.lcFeeds a = true → exec (.axPosWrite a v) s = .next s))

/-- R353, R354, R359: an arrived run makes the axis IDLE and sets DONE; a segment's end goes on with the next
entry, or at END stands at P1; in homing the reference latches AX_POS and a ramp stop follows, and the return
ends with AX_POS = 0 and HOMED. -/
def runsAndHomingEnd : Prop :=
  ∀ (s : State) (a : Fin 8),
    ((s.axAt a).run = .arrived → s.axState a ≠ 5 → s.lcFeeds a = false →
      ∃ t, exec (.moveEnd a) s = .next t ∧ t.axState a = 0 ∧ (t.axAt a).run = .idle ∧
        (t.axAt a).p = (s.axAt a).p ∧ t.bit (AX_FLAG a) AX_FLAG_DONE = true ∧ EventSet t BLK_MX a ∧
        axOnly s t a [AX_STAT a, AX_FLAG a]) ∧
    ((s.axAt a).run ≠ .arrived →
      exec (.moveEnd a) s = .next s ∧ exec (.homeDone a) s = .next s) ∧
    (∀ g, (s.axAt a).run = .segments g → g.t < segT g.words → exec (.segmentEnd a) s = .next s) ∧
    ((∀ g, (s.axAt a).run ≠ .segments g) → exec (.segmentEnd a) s = .next s) ∧
    (∀ g, (s.axAt a).run = .segments g → segT g.words ≤ g.t →
      ((g.words.getD 3 0).testBit 0 = true → segV1 g.words = 0 →
        ∃ t, exec (.segmentEnd a) s = .next t ∧ (t.axAt a).run = .arrived ∧ (t.axAt a).v = 0 ∧
          t = { s with regs := t.regs, mx := t.mx } ∧ axOnly s t a [AX_VEL a]) ∧
      ((g.words.getD 3 0).testBit 0 = true → segV1 g.words ≠ 0 →
        ∃ t, exec (.segmentEnd a) s = .next t ∧ (t.axAt a).run = .arrived ∧ (t.axAt a).v = 0 ∧
          t.bit (AX_FLAG a) AX_FLAG_SEGSTOP = true ∧ EventSet t BLK_MX a ∧
          axOnly s t a [AX_VEL a, AX_FLAG a]) ∧
      ((g.words.getD 3 0).testBit 0 = false →
        ∃ t, exec (.segmentEnd a) s = .next t ∧
          (t.axAt a).run = .segments { entry := (g.entry + 1) % 64,
                                       words := s.segWords a ((g.entry + 1) % 64), t := 0,
                                       p0 := segGoal g.words g.p0, v0 := segV1 g.words } ∧
          t.fld (AX_STAT a) AX_STAT_SEG = (g.entry + 1) % 64 ∧
          t = { s with regs := t.regs, mx := t.mx } ∧ axOnly s t a [AX_STAT a])) ∧
    (s.homeAt a 1 = true →
      ∃ t, exec (.homeLatch a) s = .next t ∧ t.reg (AX_HLATCH a) = s.reg (AX_POS a) ∧
        t.homeAt a 2 = true ∧ (t.axAt a).run = .stop ∧ t = { s with regs := t.regs, mx := t.mx } ∧
        axOnly s t a [AX_HLATCH a, AX_STAT a]) ∧
    (s.homeAt a 1 = false → exec (.homeLatch a) s = .next s) ∧
    (s.homeAt a 3 = true → (s.axAt a).run = .arrived →
      ∃ t, exec (.homeDone a) s = .next t ∧ exec (.moveEnd a) s = .next t ∧ t.reg (AX_POS a) = 0 ∧
        (t.axAt a).p = 0 ∧ t.axState a = 0 ∧ t.bit (AX_STAT a) AX_STAT_LAG = false ∧
        t.bit (AX_STAT a) AX_STAT_HOMED = true ∧ t.bit (AX_FLAG a) AX_FLAG_HOME_DONE = true ∧
        EventSet t BLK_MX a ∧ axOnly s t a [AX_POS a, AX_STAT a, AX_FLAG a])

/-- R346, R347, R355 to R358: an active edge of an enabled limit sets its trip bit, is reported, and stops a moving
axis by the limit's action; one that is not enabled only shows its level, and one within the release time is
chatter. A release shows the level, a trip bit clears only while its input is inactive. A coil frame
begins once a period, HOLDDLY without a step is standstill, and a pad that disagrees is a dangerous fault. -/
def switchesFramesAndStandstill : Prop :=
  (∀ (s : State) (a : Fin 8) (positive : Bool),
    let sw : AxSwitch := if positive then .pos else .neg
    let trip := if positive then AX_FLAG_TRIP_P else AX_FLAG_TRIP_N
    s.bit (AX_STAT a) (swBit sw) = false → (s.axAt a).relAt.get none (swIx sw) = none → s.axState a ≠ 5 →
    s.lcFeeds a = false →
    (s.bit (AX_LIM a) AX_LIM_EN = true →
      ∃ t, exec (.trip a sw) s = .next t ∧ t.bit (AX_STAT a) (swBit sw) = true ∧
        t.bit (AX_FLAG a) trip = true ∧ EventSet t BLK_MX a ∧ Reported s t 0x04C1 (BitVec.ofNat 8 a) 0 ∧
        axOnly s t a [AX_STAT a, AX_FLAG a, AX_VEL a] ∧
        (if s.axState a = 0 ∧ (s.axAt a).v = 0 then
          t.axState a = 0 ∧ (t.axAt a).run = (s.axAt a).run ∧ (t.axAt a).floor = s.reg (AX_POS a)
        else t.axState a = 4 ∧
          (if s.bit (AX_LIM a) (if positive then AX_LIM_ACTP else AX_LIM_ACTN) then (t.axAt a).run = .stop
          else (t.axAt a).run = .arrived ∧ (t.axAt a).v = 0))) ∧
    (s.bit (AX_LIM a) AX_LIM_EN = false →
      ∃ t, exec (.trip a sw) s = .next t ∧ t.bit (AX_STAT a) (swBit sw) = true ∧
        t = { s with regs := t.regs } ∧ RegsBut s t [AX_STAT a])) ∧
  (∀ (s : State) (a : Fin 8) (sw : AxSwitch),
    (s.bit (AX_STAT a) (swBit sw) = true → exec (.trip a sw) s = .next s) ∧
    (s.bit (AX_STAT a) (swBit sw) = false → exec (.qualifiedRelease a sw) s = .next s) ∧
    (∀ u, s.bit (AX_STAT a) (swBit sw) = false → (s.axAt a).relAt.get none (swIx sw) = some u →
      s.now < u + s.fld (AX_LIM a) AX_LIM_REL * 1000 →
      let eighth := (s.countEvent (winKey 0x14C3 (3 * a + swIx sw)) 8 (100 * ticksMs)).1
      ∃ t, exec (.trip a sw) s = .next t ∧ t.bit (AX_STAT a) (swBit sw) = true ∧ t.mx = s.mx ∧
        axOnly s t a [AX_STAT a, AX_FLAG a] ∧
        (eighth = false → Reported s t 0x14C3 (BitVec.ofNat 8 a) 0) ∧
        (eighth = true → t.bit (AX_FLAG a) AX_FLAG_CHATTER = true))) ∧
  (∀ (s : State) (a : Fin 8) (sw : AxSwitch), s.bit (AX_STAT a) (swBit sw) = true →
    ∃ t, exec (.qualifiedRelease a sw) s = .next t ∧ t.bit (AX_STAT a) (swBit sw) = false ∧
      (t.axAt a).relAt.get none (swIx sw) = some s.now ∧ t = { s with regs := t.regs, mx := t.mx } ∧
      axOnly s t a [AX_STAT a]) ∧
  (∀ (s : State) (a : Fin 8) (v : Word),
    let fresh := s.top.fresh.get 0 (AX_FLAG a)
    ∃ t, exec (.tripClear a v) s = .next t ∧ t = { s with regs := t.regs } ∧ RegsBut s t [AX_FLAG a] ∧
      t.bit (AX_FLAG a) AX_FLAG_TRIP_P = (s.bit (AX_FLAG a) AX_FLAG_TRIP_P &&
        (fldGet AX_FLAG_TRIP_P v == 0 || s.bit (AX_STAT a) AX_STAT_LIMP ||
          fldGet AX_FLAG_TRIP_P fresh == 1)) ∧
      t.bit (AX_FLAG a) AX_FLAG_TRIP_N = (s.bit (AX_FLAG a) AX_FLAG_TRIP_N &&
        (fldGet AX_FLAG_TRIP_N v == 0 || s.bit (AX_STAT a) AX_STAT_LIMN ||
          fldGet AX_FLAG_TRIP_N fresh == 1))) ∧
  (∀ (s : State) (a : Fin 8),
    let per := clampN 80 100 (s.fld (AX_CFG a) AX_CFG_SPPER)
    (s.bit (AX_CFG a) AX_CFG_EN = true → s.bit (AX_CFG a) AX_CFG_MODE = true →
      (∀ u, (s.axAt a).frameAt = some u → s.now < u + per → exec (.currentFrame a) s = .next s)) ∧
    (s.bit (AX_CFG a) AX_CFG_EN = true → s.bit (AX_CFG a) AX_CFG_MODE = true →
      (∀ u, (s.axAt a).frameAt = some u → u + per ≤ s.now) →
      ∃ t, exec (.currentFrame a) s = .next t ∧ (t.axAt a).frame = s.coilFrame a ∧
        (t.axAt a).frameAt = some s.now ∧ t = { s with mx := t.mx } ∧
        ∀ b, b ≠ a.val → t.axAt b = s.axAt b) ∧
    (s.bit (AX_CFG a) AX_CFG_EN = false ∨ s.bit (AX_CFG a) AX_CFG_MODE = false →
      exec (.currentFrame a) s = .next s) ∧
    (s.stepRecent a = false →
      ∃ t, exec (.standstill a) s = .next t ∧ t.bit (AX_STAT a) AX_STAT_STILL = true ∧
        t = { s with regs := t.regs } ∧ RegsBut s t [AX_STAT a]) ∧
    (s.stepRecent a = true → exec (.standstill a) s = .next s) ∧
    (∀ pad : Fin 3,
      ∃ t, exec (.axisPadMismatch a pad) s = .next t ∧ Frame s t [] [] ∧
        Reported s t 0x34C6 (BitVec.ofNat 8 a) 0 ∧ t.si.danger ≠ []))

/-- R346, R347, R353 to R359: how an axis ends its runs and what its inputs do.
Where its event has not occurred, a command changes nothing: the model's choice (log entry 2). -/
def Obligations.AxisRunsAndSwitches : Prop := runsAndHomingEnd ∧ switchesFramesAndStandstill

/-! ### Encoders -/

/-- Only one encoder input's own state, registers of a list, and the reports of QE have changed. -/
def qeOnly (s t : State) (q : Fin 10) (regs : List Nat) : Prop :=
  Frame { s with qe := t.qe } t regs [BLK_QE] ∧ ∀ p, p ≠ q.val → t.qeAt p = s.qeAt p

/-- The levels of A and B that an input holds before an accepted change: free, before the first after EN was set. -/
def qeLevels (s : State) (q : Fin 10) : Bool × Bool :=
  if (s.qeAt q).held then ((s.qeAt q).a, (s.qeAt q).b) else (Config.freeBit s.freeIx 0, Config.freeBit s.freeIx 1)

/-- R362, R365: a change of A counts forward where A equals B before it, a change of B where they differ, and SWAP
and INV each reverse it; the count moves by one and stays within the soft limits, and where the input drives the
line clock, that moves with it. An input that is not enabled counts nothing. R362: from EN = 0 to 1 no levels are
held; R367: 0 gives standstill. R365: a count of the tick of a write is added after it. -/
def encodersCount : Prop :=
  (∀ (s : State) (q : Fin 10) (lineB : Bool), s.qeOn q = true →
    let x := s.qeAt q
    let a := (qeLevels s q).1
    let b := (qeLevels s q).2
    let plain := if lineB then a != b else a == b
    let forward := plain != (s.bit (QE_CFG q) QE_CFG_SWAP != s.bit (QE_CFG q) QE_CFG_INV)
    let d : Int := if forward then 1 else -1
    let lo := (s.reg (QE_SOFT_LO q)).toInt
    let hi := (s.reg (QE_SOFT_HI q)).toInt
    let c := (s.reg (QE_COUNT q)).toInt
    lo ≤ c → c ≤ hi →
    ∃ t u, exec (.acceptedCount q lineB) s = .next u ∧ u = (if s.lcReads q then t.lcMove d 0 else t) ∧
      u.reg (QE_COUNT q) = t.reg (QE_COUNT q) ∧ u.qe = t.qe ∧
      qeOnly { s with freeIx := if x.held then s.freeIx else s.freeIx + 1 } t q
        [QE_COUNT q, QE_STAT q, QE_SPEED q, QE_FLAG q] ∧
      (t.qeAt q).a = (a != !lineB) ∧ (t.qeAt q).b = (b != lineB) ∧ (t.qeAt q).total = x.total + d ∧
      t.bit (QE_STAT q) QE_STAT_DIR = forward ∧ t.bit (QE_STAT q) QE_STAT_STILL = false ∧
      (lo ≤ c + d → c + d ≤ hi → (t.reg (QE_COUNT q)).toInt = c + d) ∧
      (c + d < lo ∨ hi < c + d →
        (t.reg (QE_COUNT q)).toInt = c ∧ t.bit (QE_FLAG q) QE_FLAG_SAT = true ∧
          Reported s t 0x0507 (BitVec.ofNat 8 q) 0)) ∧
  (∀ (s : State) (q : Fin 10) (lineB : Bool),
    let lo := s.reg (QE_SOFT_LO q)
    let hi := s.reg (QE_SOFT_HI q)
    (s.qeOn q = false → exec (.acceptedCount q lineB) s = .next s) ∧
    (s.qeOn q = true → s.lcReads q = false → hi.toInt < lo.toInt →
      ∃ t, exec (.acceptedCount q lineB) s = .next t ∧ (t.reg (QE_COUNT q) = lo ∨ t.reg (QE_COUNT q) = hi) ∧
        qeOnly { s with freeIx := t.freeIx } t q [QE_COUNT q, QE_STAT q, QE_SPEED q, QE_FLAG q])) ∧
  (∀ (s : State) (q : Fin 10) (v : Word),
    (s.qeOn q = true → fldGet QE_CFG_EN v = 1 →
      ∃ t, exec (.qeEnable q v) s = .next t ∧ t.qeOn q = true ∧
        t.qeAt q = { s.qeAt q with seen := false } ∧ qeOnly s t q [QE_CFG q]) ∧
    (s.qeOn q = false → fldGet QE_CFG_EN v = 0 →
      ∃ t, exec (.qeEnable q v) s = .next t ∧ t.qeOn q = false ∧ t.qe = s.qe ∧ qeOnly s t q [QE_CFG q]) ∧
    (s.qeOn q = false → fldGet QE_CFG_EN v = 1 →
      ∃ t, exec (.qeEnable q v) s = .next t ∧ t.qeOn q = true ∧
        t.qeAt q = { s.qeAt q with seen := false, held := false, last := none, edges := [] } ∧
        t.bit (QE_STAT q) QE_STAT_DIR = false ∧ qeOnly s t q [QE_CFG q, QE_STAT q]) ∧
    (s.qeOn q = true → fldGet QE_CFG_EN v = 0 →
      ∃ t, exec (.qeEnable q v) s = .next t ∧ t.qeOn q = false ∧ t.reg (QE_SPEED q) = 0 ∧
        t.bit (QE_STAT q) QE_STAT_STILL = true ∧ t.bit (QE_STAT q) QE_STAT_VALID = false ∧
        qeOnly s t q [QE_CFG q, QE_SPEED q, QE_STAT q]) ∧
    (let cut := clampI (s.reg (QE_SOFT_LO q)).toInt (s.reg (QE_SOFT_HI q)).toInt
     (s.reg (QE_SOFT_LO q)).toInt ≤ (s.reg (QE_SOFT_HI q)).toInt →
      ∃ t, exec (.qeCountWrite q v) s = .next t ∧ t.qe = s.qe ∧
        qeOnly s t q [QE_COUNT q, QE_STAT q, QE_FLAG q] ∧
        ((∀ n, (s.qeAt q).counted ≠ some (s.now, n)) → (t.reg (QE_COUNT q)).toInt = cut v.toInt ∧
          t = { s with regs := t.regs } ∧ RegsBut s t [QE_COUNT q, QE_STAT q]) ∧
        (∀ n, (s.qeAt q).counted = some (s.now, n) →
          (t.reg (QE_COUNT q)).toInt = cut (cut v.toInt + n))))

/-- R363, R364, R366, R367: a tick in which both lines change counts nothing, and is flagged and reported; a wire
fault is dangerous on a safety input and degraded else; an index edge latches the count and its deviation from
the reference, or without one captures it; no edge for STILLT is standstill. An input that is not enabled does
nothing. -/
def encoderChecks : Prop :=
  (∀ (s : State) (q : Fin 10) (line : Fin 3) (bad : Bool), s.qeOn q = false →
    exec (.illegal q) s = .next s ∧ exec (.wire q ⟨line, bad⟩) s = .next s ∧ exec (.index q) s = .next s ∧
      exec (.still q) s = .next s) ∧
  ∀ (s : State) (q : Fin 10), s.qeOn q = true →
    ((s.countEvent (winKey 0x1501 q) 4 (100 * ticksMs)).1 = true →
      ∃ t, exec (.illegal q) s = .next t ∧ t.bit (QE_FLAG q) QE_FLAG_ILL_LASTING = true ∧
        ((s.si.queues.get [] BLK_QE).length < 7 →
          ∃ f ∈ t.si.queues.get [] BLK_QE, f.code = 0x2502 ∧ f.inst = BitVec.ofNat 8 q) ∧
        qeOnly { s with freeIx := t.freeIx } t q [QE_FLAG q]) ∧
    ((s.countEvent (winKey 0x1501 q) 4 (100 * ticksMs)).1 = false →
      ∃ t, exec (.illegal q) s = .next t ∧ t.bit (QE_FLAG q) QE_FLAG_ILLEGAL = true ∧ EventSet t BLK_QE q ∧
        Reported s t 0x1501 (BitVec.ofNat 8 q) 0 ∧ (t.qeAt q).a = !(qeLevels s q).1 ∧
        (t.qeAt q).b = !(qeLevels s q).2 ∧ (t.qeAt q).total = (s.qeAt q).total ∧
        qeOnly { s with freeIx := t.freeIx } t q [QE_FLAG q]) ∧
    (∀ (line : Fin 3) (bad : Bool),
      let f := match line.val with | 0 => QE_STAT_WIREA | 1 => QE_STAT_WIREB | _ => QE_STAT_WIREZ
      (s.bit (QE_STAT q) f = bad → exec (.wire q ⟨line, bad⟩) s = .next s) ∧
      (s.bit (QE_STAT q) f = true → bad = false →
        ∃ t, exec (.wire q ⟨line, bad⟩) s = .next t ∧ t.bit (QE_STAT q) f = false ∧
          t.qeAt q = { s.qeAt q with wireAt := s.now } ∧ t = { s with regs := t.regs, qe := t.qe } ∧
          qeOnly s t q [QE_STAT q]) ∧
      (s.bit (QE_STAT q) f = false → bad = true →
      ∃ t, exec (.wire q ⟨line, bad⟩) s = .next t ∧ t.bit (QE_FLAG q) QE_FLAG_WIRE = true ∧
        Reported s t (if s.bit (QE_CFG q) QE_CFG_SAFETY then 0x3505 else 0x2506) (BitVec.ofNat 8 q) 0 ∧
        t.bit (QE_STAT q) f = true ∧ t.qe = s.qe ∧ qeOnly s t q [QE_STAT q, QE_FLAG q])) ∧
    (s.bit (QE_CFG q) QE_CFG_ZEN = false → exec (.index q) s = .next s) ∧
    (s.bit (QE_CFG q) QE_CFG_ZEN = true → (∀ a, a < 8 → s.homeAt a 1 = false) →
      (s.reg (QE_CPR q)).toNat ≠ 0 → s.bit (QE_IDXCFG q) QE_IDXCFG_REFV = false →
      s.bit (QE_IDXCFG q) QE_IDXCFG_CAPT = true →
      ∃ t, exec (.index q) s = .next t ∧ t.reg (QE_IDXLAT q) = s.reg (QE_COUNT q) ∧
        t.bit (QE_IDXCFG q) QE_IDXCFG_REFV = true ∧
        t.reg (QE_IDXREF q) =
          BitVec.ofInt 32 ((s.reg (QE_COUNT q)).toInt % ((s.reg (QE_CPR q)).toNat : Int)) ∧
        t = { s with regs := t.regs } ∧ RegsBut s t [QE_IDXLAT q, QE_IDXREF q, QE_IDXCFG q]) ∧
    (let lat := (s.reg (QE_COUNT q)).toInt
     let cpr := (s.reg (QE_CPR q)).toNat
     s.bit (QE_CFG q) QE_CFG_ZEN = true → (∀ a, a < 8 → s.homeAt a 1 = false) → cpr ≠ 0 →
     s.bit (QE_IDXCFG q) QE_IDXCFG_REFV = true → s.bit (QE_IDXCFG q) QE_IDXCFG_REREF = false →
     ∃ t d, exec (.index q) s = .next t ∧ t.reg (QE_IDXLAT q) = s.reg (QE_COUNT q) ∧
      t.reg (QE_IDXDEV q) = BitVec.ofInt 32 d ∧ (d - (lat - (s.reg (QE_IDXREF q)).toInt)) % cpr = 0 ∧
      -((cpr / 2 : Nat) : Int) ≤ d ∧ d ≤ (cpr : Int) - 1 - ((cpr / 2 : Nat) : Int) ∧
      (s.fld (QE_IDXCFG q) QE_IDXCFG_W < d.natAbs → t.bit (QE_FLAG q) QE_FLAG_IDXMM = true) ∧
      (d.natAbs ≤ s.fld (QE_IDXCFG q) QE_IDXCFG_W → t.reg (QE_FLAG q) = s.reg (QE_FLAG q)) ∧
      t.reg (QE_COUNT q) = s.reg (QE_COUNT q) ∧ t.qe = s.qe ∧
      qeOnly s t q [QE_IDXLAT q, QE_IDXDEV q, QE_FLAG q]) ∧
    (∀ e rest, (s.qeAt q).edges = e :: rest → s.lcReads q = false →
      (e + max 1 (s.fld (QE_SPCFG q) QE_SPCFG_STILLT) * 1000 ≤ s.now →
        ∃ t, exec (.still q) s = .next t ∧ t.reg (QE_SPEED q) = 0 ∧
          t.bit (QE_STAT q) QE_STAT_STILL = true ∧ t.bit (QE_STAT q) QE_STAT_VALID = false ∧
          t.bit (QE_FLAG q) QE_FLAG_STILL_ON = true ∧ EventSet t BLK_QE q ∧
          qeOnly s t q [QE_SPEED q, QE_STAT q, QE_FLAG q]) ∧
      (s.now < e + max 1 (s.fld (QE_SPCFG q) QE_SPCFG_STILLT) * 1000 → exec (.still q) s = .next s))

/-- R362 to R367: the encoder inputs.
Choices of the model, not of the spec: the levels of A and B at an encoder's first accepted change are free
(log entry 80).
Where its event has not occurred, a command changes nothing: the model's choice (log entry 2). -/
def Obligations.EncodersCountAndAreChecked : Prop := encodersCount ∧ encoderChecks

/-! ### The loop engine -/

/-- Only the loop engine's state, registers of a list and the reports of LE have changed. -/
def leOnly (s t : State) (regs : List Nat) : Prop := Frame { s with le := t.le } t regs [BLK_LE]

/-- R369 to R371, R376: a loop whose needs fit every frame's slots starts with Q at P; one that does not fit is
refused; EN = 0 stops a loop, whose output is then 0. LE_CTRL.EN begins frames; a frame that begins shows its number
and presents the results that are due; the frames stop at the boundary after EN = 0. -/
def loopsAreAdmittedAndFramed : Prop :=
  (∀ (s : State) (l : Fin 32) (v : Word), lpOn v = true →
    let cfgs := (List.range 32).map fun j => if j = l.val then v else s.reg (LP_CFG j)
    (budgetFits cfgs s.leFrame = true → lpOn (s.reg (LP_CFG l)) = false →
      ∃ t, exec (.loopEnable l v) s = .next t ∧ lpOn (t.reg (LP_CFG l)) = true ∧
        (t.loopAt l).active = true ∧ (t.loopAt l).q = s.lc.pos ∧ (t.loopAt l).prev = s.qeTotals ∧
        (t.loopAt l).cfg = t.reg (LP_CFG l) ∧
        leOnly s t [LP_CFG l] ∧ ∀ k, k ≠ l.val → t.loopAt k = s.loopAt k) ∧
    (budgetFits cfgs s.leFrame = true → lpOn (s.reg (LP_CFG l)) = true →
      ∃ t, exec (.loopEnable l v) s = .next t ∧ lpOn (t.reg (LP_CFG l)) = true ∧ t.le = s.le ∧
        leOnly s t [LP_CFG l]) ∧
    (budgetFits cfgs s.leFrame = false →
      ∃ t, exec (.loopEnable l v) s = .next t ∧
        lpOn (t.reg (LP_CFG l)) = lpOn (s.reg (LP_CFG l)) ∧ t.bit (LP_FLAG l) LP_FLAG_REFUSED = true ∧
        EventSet t BLK_LE 0 ∧ Reported s t 0x0541 (BitVec.ofNat 8 l) 0 ∧ t.le = s.le ∧
        leOnly s t [LP_CFG l, LP_FLAG l])) ∧
  (∀ (s : State) (l : Fin 32) (v : Word), lpOn v = false →
    ∃ t, exec (.loopEnable l v) s = .next t ∧ lpOn (t.reg (LP_CFG l)) = false ∧
      (lpOn (s.reg (LP_CFG l)) = false → t.le = s.le ∧ leOnly s t [LP_CFG l]) ∧
      (lpOn (s.reg (LP_CFG l)) = true → t.reg (LP_OUT l) = 0 ∧ (t.loopAt l).active = false ∧
        (t.loopAt l).results = [] ∧ leOnly s t [LP_CFG l, LP_OUT l] ∧
        ∀ k, k ≠ l.val → t.loopAt k = s.loopAt k)) ∧
  (∀ (s : State) (v : Word),
    (s.bit LE_CTRL LE_CTRL_EN = false → fldGet LE_CTRL_EN v = 1 →
      (s.le.running = false →
        ∃ t, exec (.engineEnable v) s = .next t ∧ t.bit LE_CTRL LE_CTRL_EN = true ∧
          t.le = { s.le with running := true, nextAt := s.now, frame := 0 } ∧ t.reg LE_FRAME = 0 ∧
          leOnly s t [LE_CTRL, LE_FRAME]) ∧
      (s.le.running = true →
        ∃ t, exec (.engineEnable v) s = .next t ∧ t.bit LE_CTRL LE_CTRL_EN = true ∧ t.le.running = true ∧
          t.le.nextAt = s.now ∧ t.le.frame = 0 ∧ t.reg LE_FRAME = 0 ∧
          (∀ l, l < 32 → t.reg (LP_OUT l) = 0 ∧ (t.loopAt l).results = []) ∧
          leOnly s t ([LE_CTRL, LE_FRAME] ++ (List.range 32).map LP_OUT))) ∧
    (s.bit LE_CTRL LE_CTRL_EN = true → fldGet LE_CTRL_FRAME v ≠ s.fld LE_CTRL LE_CTRL_FRAME →
      ∃ t, exec (.engineEnable v) s = .next t ∧
        t.fld LE_CTRL LE_CTRL_FRAME = s.fld LE_CTRL LE_CTRL_FRAME ∧ Reported s t 0x0541 0xFF 0 ∧
        t.le = s.le ∧ leOnly s t [LE_CTRL])) ∧
  (∀ s : State,
    (s.le.running = false ∨ s.now < s.le.nextAt → exec .loopFrame s = .next s) ∧
    (s.le.running = true → s.le.nextAt ≤ s.now →
      (s.bit LE_CTRL LE_CTRL_EN = false →
        ∃ t, exec .loopFrame s = .next t ∧ t.le.running = false ∧
          (∀ l, l < 32 → t.reg (LP_OUT l) = 0 ∧ (t.loopAt l).results = [] ∧
            (t.loopAt l).active = ((s.loopAt l).active && lpOn (s.reg (LP_CFG l)))) ∧
          t = { s with regs := t.regs, le := t.le } ∧ RegsBut s t ((List.range 32).map LP_OUT)) ∧
      (s.bit LE_CTRL LE_CTRL_EN = true →
        ∃ t, exec .loopFrame s = .next t ∧ t.le.frame = s.le.frame + 1 ∧
          t.le.nextAt = (if s.le.frame = 0 then s.now else s.le.nextAt) + s.leFrame ∧ t.reg LE_FRAME = BitVec.ofNat 32 s.le.frame ∧
          t.mx = s.mx ∧ t.qe = s.qe ∧ t.lc = s.lc ∧
          (∀ l r, l < 32 → (s.loopAt l).active = true → s.loopFollows l = false →
            s.lcValid = true ∨ fldGet LP_CFG_QFOLLOW (s.reg (LP_CFG l)) = 0 → (s.loopAt l).results = [r] → r.1 ≤ s.le.frame →
            t.reg (LP_OUT l) = r.2)))) ∧
  (∀ (s : State) (m : Master) (l : Fin 32),
    (s.permits m (regAddr (LP_Q_F l)) false = true →
      ∃ t, exec (.qRead m l) s = .next t ∧ t.top.answer = BitVec.ofNat 32 (s.loopAt l).q.toNat ∧
        t.reg (LP_Q_LO l) = BitVec.ofNat 32 ((s.loopAt l).q.toNat / 2 ^ 32) ∧
        t.reg (LP_Q_HI l) = BitVec.ofNat 32 ((s.loopAt l).q.toNat / 2 ^ 64) ∧
        t = { s with regs := t.regs, top := { (s.busGrant m).top with answer := t.top.answer } } ∧
        RegsBut s t [LP_Q_F l, LP_Q_LO l, LP_Q_HI l]) ∧
    (s.permits m (regAddr (LP_Q_F l)) false = false →
      ∃ t, exec (.qRead m l) s = .next t ∧ t.top.answer = 0 ∧
        Frame { s with top := { s.top with answer := 0 } } t (if m = .host then [HI_CNT 0] else []) []))

/-- R375: a section state is stored when its high word is written, with the low word that was held. R380, R381:
ARM starts the enabled trace channels afresh, and clears DONE and TRIGGERED; FORCE triggers, and the trace is done when every enabled
channel has stopped. -/
def sectionStatesAndTrace : Prop :=
  (∀ (s : State) (n : Fin 256) (s2 : Bool) (hi : Word),
    let low := (s.le.held.get none (2 * n + b2n s2)).getD
      (BitVec.ofNat 32 (s.loadNat (LOOP_SECTION n + 24 + 8 * b2n s2) 4))
    ∃ t, exec (.stateWordWrite n s2 hi) s = .next t ∧
      t.secState n (b2n s2) = sext 48 ((low.toNat + hi.toNat * 2 ^ 32) % 2 ^ 48) ∧
      t.le.held.get none (2 * n + b2n s2) = none ∧
      MemBut s t (LOOP_SECTION n + 24 + 8 * b2n s2) 8 ∧
      t = { s with mem := t.mem, poison := t.poison, le := t.le }) ∧
  (∀ (s : State) (v : Word),
    (v.getLsbD 30 = false →
      ∃ t, exec (.arm v) s = .next t ∧ t.armed = true ∧ t.le.fired = false ∧
        (∀ k, k < 16 → s.bit (TR_CFG k) TR_CFG_EN = true → t.reg (TR_STAT k) = 0) ∧
        (∀ k, k < 16 → t.bit (TR_STAT k) TR_STAT_DONE = false) ∧ t.rbit (evtReg BLK_LE) 3 = false ∧
        t = { s with regs := t.regs, le := t.le } ∧
        RegsBut s t ([LE_TRIG, evtReg BLK_LE] ++ (List.range 16).map TR_STAT)) ∧
    (v.getLsbD 31 = false → s.armed = true → s.le.fired = false →
      ∃ t, exec (.force v) s = .next t ∧ t.armed = true ∧ t.le.fired = true ∧ EventSet t BLK_LE 3 ∧
        leOnly { s with freeIx := t.freeIx } t (LE_TRIG :: (List.range 16).map TR_STAT))) ∧
  (∀ s : State,
    let on := (List.range 16).filter fun k => s.bit (TR_CFG k) TR_CFG_EN
    (s.armed = true → on ≠ [] → (∀ k ∈ on, s.bit (TR_STAT k) TR_STAT_DONE = true) →
      ∃ t, exec .traceDone s = .next t ∧ t.armed = false ∧ EventSet t BLK_LE 4 ∧ t.le = s.le ∧
        leOnly s t [LE_TRIG]) ∧
    (s.armed = false → exec .traceDone s = .next s))

/-- R369 to R371, R375, R376, R380, R381: the loop engine.
Choices of the model, not of the spec: starts, stops and fields in force of loops and frames (log entry 55);
fault 0x0541 carries zero as INFO (log entry 80).
Where its event has not occurred, a command changes nothing: the model's choice (log entry 2). -/
def Obligations.LoopEngineRunsItsFrames : Prop := loopsAreAdmittedAndFramed ∧ sectionStatesAndTrace

/-! ### Timebase -/

/-- Only the timebase's own state, registers of a list, and the reports of TB have changed. -/
def tbOnly (s t : State) (regs : List Nat) : Prop := Frame { s with tb := t.tb } t regs [BLK_TB]

/-- R392: a cross-stamp holds the fraction, the flat time and the control cores' cycle counts of one instant,
its sequence number and its cause. -/
def crossStamped (s t : State) (cause : Nat) : Prop :=
  t.tb.xsFr = t.tb.fr ∧ t.tb.xsFlat = s.flat ∧
  (∀ k, k < 4 → t.tb.xsCyc.getD k 0 = (s.ccAt k).cycle.toNat % 2 ^ 32) ∧
  t.fld TB_XS_STAT TB_XS_STAT_CAUSE = cause ∧
  t.fld TB_XS_STAT TB_XS_STAT_SEQ =
    (s.fld TB_XS_STAT TB_XS_STAT_SEQ + 1) % 2 ^ TB_XS_STAT_SEQ.w ∧ EventSet t BLK_TB 1

/-- R383, R386, R387, R392: a write of the increment's integer part loads both parts and takes a cross-stamp;
TB_SET and TB_ADJ order a step for the next tick, adjustments adding up; a command takes a cross-stamp and so
does its period. In a tick the time advances by the increment. -/
def timeIsSetAdjustedAndStamped : Prop :=
  (∀ (s : State) (v : Word),
    (∃ t, exec (.tbIncNsWrite v) s = .next t ∧ crossStamped s t 2 ∧
      t.tb.inc = fldGet TB_INC_NS_NS v * 2 ^ 32 + (s.reg TB_INC_FRAC).toNat ∧
      tbOnly s t [TB_INC_NS, TB_XS_STAT]) ∧
    (∃ t, exec (.tbSet v) s = .next t ∧ t.tb = { s.tb with
        set := some ((s.reg TB_SET_SLO).toNat + fldGet TB_SET_SHI_VALUE v * 2 ^ 32,
          min 999999999 (s.reg TB_SET_NS).toNat) } ∧ tbOnly s t [TB_SET_SHI]) ∧
    (∃ t d, exec (.tbAdj v) s = .next t ∧
      d % 2 ^ 64 = (((s.reg TB_ADJ_LO).toNat + v.toNat * 2 ^ 32 : Nat) : Int) % 2 ^ 64 ∧ -2 ^ 63 ≤ d ∧
      d < 2 ^ 63 ∧ t.tb = { s.tb with adj := some (s.tb.adj.getD 0 + d) } ∧ tbOnly s t [TB_ADJ_HI]) ∧
    (v.getLsbD 0 = true →
      ∃ t, exec (.tbXsCmd v) s = .next t ∧ crossStamped s t 1 ∧ tbOnly s t [TB_XS_STAT]) ∧
    (v.getLsbD 0 = false → exec (.tbXsCmd v) s = .next s) ∧
    (s.tb.xsNext ≤ s.now →
      ∃ t, exec .crossStamp s = .next t ∧ crossStamped s t 0 ∧ t.tb.xsNext = s.now + 131072 ∧
        tbOnly s t [TB_XS_STAT]) ∧
    (s.now < s.tb.xsNext → exec .crossStamp s = .next s)) ∧
  (∀ s : State, s.tb.set = none → s.tb.adj = none → s.tb.ns < 1000000000 → s.tb.fr < 2 ^ 32 →
    s.tbAdvance.tb.units = (s.tb.units + s.tb.inc) % (2 ^ 48 * 1000000000 * 2 ^ 32) ∧
    s.tbAdvance.tb.ns < 1000000000 ∧ s.tbAdvance.regs = s.regs)

/-- A read command of a latching register that PROT permits answers a value, and changes registers of a list
only; one that PROT denies answers zero and is reported. -/
def latches (i : Master → Instr) (off : Nat) (value : State → Nat) (regs : List Nat)
    (rest : State → State → Prop) : Prop :=
  ∀ (s : State) (m : Master),
    (s.permits m (regAddr off) false = true →
      ∃ t, exec (i m) s = .next t ∧ t.top.answer = BitVec.ofNat 32 (value s) ∧ rest s t ∧
        t = { s with regs := t.regs, top := { (s.busGrant m).top with answer := t.top.answer } } ∧
        RegsBut s t regs) ∧
    (s.permits m (regAddr off) false = false →
      ∃ t, exec (i m) s = .next t ∧ t.top.answer = 0 ∧
        Frame { s with top := { s.top with answer := 0 } } t (if m = .host then [HI_CNT 0] else []) [])

/-- R150, R385, R392: the reads of time, of a cross-stamp, of the position and of the high-water mark latch the
rest of their sets. -/
def readsLatchTheirSets : Prop :=
  let now := [TB_NOW_NS, TB_NOW_SLO, TB_NOW_SHI, TB_FLAT_HI]
  let set (s t : State) : Prop :=
    t.reg TB_NOW_NS = BitVec.ofNat 32 s.tb.ns ∧ t.reg TB_NOW_SLO = BitVec.ofNat 32 s.tb.sec ∧
    t.reg TB_NOW_SHI = BitVec.ofNat 32 (s.tb.sec / 2 ^ 32) ∧
    t.reg TB_FLAT_HI = BitVec.ofNat 32 (s.flat / 2 ^ 32)
  latches (fun m => .nowRead m false) TB_NOW_FRAC (fun s => s.tb.fr) (TB_NOW_FRAC :: now) set ∧
  latches (fun m => .nowRead m true) TB_FLAT_LO (fun s => s.flat) (TB_FLAT_LO :: now) set ∧
  latches .xsStatRead TB_XS_STAT (fun s => (s.reg TB_XS_STAT).toNat)
    ([TB_XS_FRAC, TB_XS_FLAT_LO, TB_XS_FLAT_HI] ++ (List.range 4).map TB_XS_CYC)
    (fun s t => t.reg TB_XS_FRAC = BitVec.ofNat 32 s.tb.xsFr ∧
      t.reg TB_XS_FLAT_LO = BitVec.ofNat 32 s.tb.xsFlat ∧
      t.reg TB_XS_FLAT_HI = BitVec.ofNat 32 (s.tb.xsFlat / 2 ^ 32) ∧
      ∀ k, k < 4 → t.reg (TB_XS_CYC k) = BitVec.ofNat 32 (s.tb.xsCyc.getD k 0)) ∧
  latches .posRead LC_POS_F (fun s => s.lc.pos.toNat) [LC_POS_F, LC_POS_LO, LC_POS_HI]
    (fun s t => t.reg64 LC_POS_LO LC_POS_HI = s.lc.pos.toNat / 2 ^ 32) ∧
  latches .hwmRead LC_HWM_LO (fun s => s.lc.hwm.toNat) [LC_HWM_LO, LC_HWM_HI]
    (fun s t => t.reg64 LC_HWM_LO LC_HWM_HI = s.lc.hwm.toNat)

/-- R388 to R390: an enabled compare whose value is not after the flat time fires once, from the tick after its
enabling, and wakes the fast domains that have it as a source (R457); an armed output that
reaches its target becomes active, and inactive at target and width, a one-shot then disarmed. -/
def comparesAndPulses : Prop :=
  (∀ (s : State) (m : Fin 4),
    let hit := s.bit (TB_CMP_CTL m) TB_CMP_CTL_EN && !s.tb.cmpNew.contains m.val &&
      decide ((s.flat + 2 ^ 64 - s.reg64 (TB_CMP_LO m) (TB_CMP_HI m) % 2 ^ 64) % 2 ^ 64 < 2 ^ 63)
    (hit = true →
      ∃ t, exec (.compare m) s = .next t ∧ t.bit (TB_CMP_CTL m) TB_CMP_CTL_EN = false ∧
        EventSet t BLK_TB (2 + m) ∧
        Frame { s with ck := t.ck, freeIx := t.freeIx } t ([TB_CMP_CTL m] ++ (List.range 3).map CK_DOM)
          [BLK_TB] ∧
        ∀ d, d < 3 → if (s.fld (CK_DOM d) CK_DOM_WAKESRC).testBit 3 then t.fld (CK_DOM d) CK_DOM_REQ = 2
          else t.reg (CK_DOM d) = s.reg (CK_DOM d)) ∧
    (hit = false → exec (.compare m) s = .next s)) ∧
  (∀ (s : State) (n : Fin 16),
    (s.bit (TP_CFG n) TP_CFG_EN = true → s.bit (TP_CFG n) TP_CFG_ACTIVE = false →
      cmpSucceeds s.flat (s.tpTarget n) = true →
      ∃ t, exec (.pulseStart n) s = .next t ∧ t.bit (TP_CFG n) TP_CFG_ACTIVE = true ∧
        (t.tpAt n).endAt = (s.reg64 (TP_START_LO n) (TP_START_HI n) +
          ((s.tpAt n).next * s.tpPer n + s.tpWidth n) / 2 ^ 32) % 2 ^ 64 ∧
        (t.tpAt n).next = (s.tpAt n).next + b2n (s.bit (TP_CFG n) TP_CFG_MODE) ∧
        t = { s with regs := t.regs, tb := t.tb } ∧ RegsBut s t [TP_CFG n]) ∧
    (s.bit (TP_CFG n) TP_CFG_EN = false ∨ s.bit (TP_CFG n) TP_CFG_ACTIVE = true ∨
        cmpSucceeds s.flat (s.tpTarget n) = false → exec (.pulseStart n) s = .next s) ∧
    (s.bit (TP_CFG n) TP_CFG_ACTIVE = true → cmpSucceeds s.flat (s.tpAt n).endAt = true →
      ∃ t, exec (.pulseEnd n) s = .next t ∧ t.bit (TP_CFG n) TP_CFG_ACTIVE = false ∧
        t.bit (TP_CFG n) TP_CFG_EN = (s.bit (TP_CFG n) TP_CFG_EN && s.bit (TP_CFG n) TP_CFG_MODE) ∧
        t = { s with regs := t.regs } ∧ RegsBut s t [TP_CFG n]) ∧
    (s.bit (TP_CFG n) TP_CFG_ACTIVE = false ∨ cmpSucceeds s.flat (s.tpAt n).endAt = false →
      exec (.pulseEnd n) s = .next s))

/-- R150, R383, R385 to R390, R392, R457: the timebase, and the registers whose reads latch their sets.
Where its event has not occurred, a command changes nothing: the model's choice (log entry 2). -/
def Obligations.TimeIsKeptAndRead : Prop :=
  timeIsSetAdjustedAndStamped ∧ readsLatchTheirSets ∧ comparesAndPulses

/-! ### Ethernet -/

/-- R394 to R398: a frame with a wrong FCS or length, or with no descriptor, is counted, reported and discarded;
one that the filter accepts goes to the descriptor at HEAD, which moves on, with the time stamp of a PTP event;
TAIL is written; a frame of the transmit ring leaves with its FCS, and with the departure time inserted in a Sync
message where its descriptor asks for it; and a link that is lost is reported.
Choices of the model, not of the spec: header positions of PTP, IPv4 and UDP, and the length of a truncated
frame (log entry 56).
Where its event has not occurred, a command changes nothing: the model's choice (log entry 2). -/
def Obligations.FramesPassTheRings : Prop :=
  ∀ (s : State) (e : Fin 2),
    (∀ f : RxFrame, s.bit (EN_CFG e) EN_CFG_EN = true →
      (f.fcsOk = false ∨ f.bytes.length + 4 < 64 ∨ s.enMaxLen e < f.bytes.length + 4 ∨
        (64 ≤ f.bytes.length + 4 ∧ f.bytes.length + 4 ≤ s.enMaxLen e ∧
          frame16 f.bytes (etherTypeAt f.bytes) ≠ 0x8808 ∧ s.enAccepts e f.bytes = true ∧
          s.reg (EN_RX_HEAD e) = s.reg (EN_RX_TAIL e)) →
        ∃ t, exec (.rxFrame e f) s = .next t ∧ t.reg (EN_CNT e 0) = satInc (s.reg (EN_CNT e 0)) ∧
          Reported s t 0x05C1 (BitVec.ofNat 8 e) 0 ∧ Frame s t [EN_CNT e 0] []) ∧
      (f.fcsOk = true → 64 ≤ f.bytes.length + 4 → f.bytes.length + 4 ≤ s.enMaxLen e →
        (frame16 f.bytes (etherTypeAt f.bytes) = 0x8808 →
          ∃ t, exec (.rxFrame e f) s = .next t ∧ t = { s with regs := t.regs } ∧
            RegsBut s t [EN_CNT e 3] ∧ t.reg (EN_CNT e 3) = satInc (s.reg (EN_CNT e 3))) ∧
        (frame16 f.bytes (etherTypeAt f.bytes) ≠ 0x8808 → s.enAccepts e f.bytes = false →
          exec (.rxFrame e f) s = .next s)) ∧
      (f.fcsOk = true → 64 ≤ f.bytes.length + 4 → f.bytes.length + 4 ≤ s.enMaxLen e →
        frame16 f.bytes (etherTypeAt f.bytes) ≠ 0x8808 → s.enAccepts e f.bytes = true →
        s.reg (EN_RX_HEAD e) ≠ s.reg (EN_RX_TAIL e) →
        let d := s.enDesc (EN_RX_BASE e) (s.reg (EN_RX_HEAD e)).toNat
        let buf := SRAM_BASE + s.loadNat d 4
        let n := min (s.loadNat (d + 4) 2) f.bytes.length
        (∀ w, s.permitsAll (.en e) d 16 w = true) → s.permitsAll (.en e) buf n true = true → 0 < n →
        plainSram s d 16 → plainSram s buf n → (buf + n ≤ d ∨ d + 16 ≤ buf) →
        ∃ t, exec (.rxFrame e f) s = .next t ∧ t.loadBytes buf n = f.bytes.take n ∧
          t.loadNat (d + 4) 2 = f.bytes.length ∧
          t.reg (EN_RX_HEAD e) = BitVec.ofNat 32
            (ringNext (s.reg (EN_RX_CNT e)).toNat (s.reg (EN_RX_HEAD e)).toNat) ∧
          EventSet t BLK_EN (8 * e) ∧
          (∀ x, (x < buf ∨ buf + n ≤ x) → (x < d ∨ d + 16 ≤ x) → memByte t.mem x = memByte s.mem x) ∧
          Frame { s with mem := t.mem, poison := t.poison } t [EN_RX_HEAD e, EN_TSI e, EN_CNT e 1]
            [BLK_EN] ∧
          (ptpEvent f.bytes = false → t.reg (EN_TSI e) = s.reg (EN_TSI e) ∧
            t.reg (EN_CNT e 1) = s.reg (EN_CNT e 1)) ∧
          (ptpEvent f.bytes = true → s.rbit EN_EVT (8 * e + 2) = false → EventSet t BLK_EN (8 * e + 2) ∧
            t.fld (EN_TSI e) EN_TSI_RXIDX = (s.reg (EN_RX_HEAD e)).toNat % 2 ^ EN_TSI_RXIDX.w ∧
            t.fld (EN_TSI e) EN_TSI_RXPH = f.phase.toNat) ∧
          (ptpEvent f.bytes = true → s.rbit EN_EVT (8 * e + 2) = true →
            t.reg (EN_CNT e 1) = satInc (s.reg (EN_CNT e 1))))) ∧
    (∀ f : RxFrame, s.bit (EN_CFG e) EN_CFG_EN = false → exec (.rxFrame e f) s = .next s) ∧
    (∀ (tx : Bool) (v : Word),
      ∃ t, exec (.tailWrite e tx v) s = .next t ∧
        t.reg (if tx then EN_TX_TAIL e else EN_RX_TAIL e) = v ∧
        t = { s with regs := t.regs } ∧ RegsBut s t [if tx then EN_TX_TAIL e else EN_RX_TAIL e]) ∧
    (∀ phase : BitVec 4,
      s.bit (EN_CFG e) EN_CFG_EN = false ∨ s.reg (EN_TX_HEAD e) = s.reg (EN_TX_TAIL e) →
      exec (.txFrame e phase) s = .next s) ∧
    (∀ phase : BitVec 4, s.bit (EN_CFG e) EN_CFG_EN = true → s.reg (EN_TX_HEAD e) ≠ s.reg (EN_TX_TAIL e) →
      let d := s.enDesc (EN_TX_BASE e) (s.reg (EN_TX_HEAD e)).toNat
      let buf := SRAM_BASE + s.loadNat d 4
      let n := s.loadNat (d + 4) 2
      (∀ w, s.permitsAll (.en e) d 16 w = true) → s.permitsAll (.en e) buf n false = true → 0 < n →
      plainSram s d 16 → plainSram s buf n →
      let flags := memByte s.mem (d + 8)
      let bs := s.loadBytes buf n
      let o := s.loadNat (d + 6) 2
      let sync := (bs.getD o 0).toNat % 16 == 0 && !(bs.getD (o + 6) 0).getLsbD 1
      let out := if flags.getLsbD 0 && sync then insertSync bs o (flags.getLsbD 1) (s.enDeparture e) else bs
      ∃ t, exec (.txFrame e phase) s = .next t ∧ t.en.sent.get [] e = out ++ fcs out ∧
        (flags.getLsbD 2 = true → s.rbit EN_EVT (8 * e + 3) = false → EventSet t BLK_EN (8 * e + 3) ∧
          t.fld (EN_TSI e) EN_TSI_TXIDX = (s.reg (EN_TX_HEAD e)).toNat % 2 ^ EN_TSI_TXIDX.w ∧
          t.fld (EN_TSI e) EN_TSI_TXPH = phase.toNat) ∧
        (flags.getLsbD 2 = false → t.reg (EN_TSI e) = s.reg (EN_TSI e)) ∧
        t.reg (EN_CNT e 2) = (if flags.getLsbD 0 && !sync then satInc (s.reg (EN_CNT e 2))
          else s.reg (EN_CNT e 2)) ∧
        t.reg (EN_TX_HEAD e) = BitVec.ofNat 32
          (ringNext (s.reg (EN_TX_CNT e)).toNat (s.reg (EN_TX_HEAD e)).toNat) ∧
        EventSet t BLK_EN (8 * e + 1) ∧ MemBut s t d 16 ∧
        Frame { s with mem := t.mem, poison := t.poison, en := t.en } t
          [EN_TX_HEAD e, EN_TSI e, EN_CNT e 1, EN_CNT e 2] [BLK_EN]) ∧
    (∀ up : Bool,
      (s.bit (EN_STAT e) EN_STAT_LINK = up → exec (.link e up) s = .next s) ∧
      (s.bit (EN_STAT e) EN_STAT_LINK ≠ up →
        ∃ t, exec (.link e up) s = .next t ∧ t.bit (EN_STAT e) EN_STAT_LINK = up ∧
          EventSet t BLK_EN (8 * e + 4) ∧ Frame s t [EN_STAT e] [BLK_EN] ∧
          (up = false → Reported s t 0x25C2 (BitVec.ofNat 8 e) 0)))

/-! ### The safety island -/

/-- Only the Sagger's and the island's own state, registers of a list, and the reports of SI have changed. -/
def siOnly (s t : State) (regs : List Nat) : Prop :=
  t = { s with regs := t.regs, si := t.si,
               top := { s.top with holdoff := t.top.holdoff, requested := t.top.requested,
                                   sent := t.top.sent, fresh := t.top.fresh, again := t.top.again } } ∧
  RegsBut s t (regs ++ reportRegs [BLK_SI])

/-- R407, R409: the watchdog takes its two values in turn, 0.5 ms to 1.5 ms apart; any other write, or none for
1.5 ms, trips it. SI_ENB is taken in turn within 20 µs and holds FIRE_EN_B_N low; a wrong value, or none,
is a lapse that latches it high. Each trip, lapse and readback mismatch is a dangerous fault, that of the watchdog
placed in the internal queue.
Choices of the model, not of the spec: the watchdog's first value may be either, and its times are taken in
AO ticks (log entry 59).
Where its event has not occurred, a command changes nothing: the model's choice (log entry 2). -/
def Obligations.WatchdogAndDynamicEnable : Prop :=
  ∀ (s : State) (v : Word),
    (s.si.running = true → s.si.wdgTrip = false →
      let w := v.toNat % 65536
      let good := (w = 0xA5 ∨ w = 0x5A) ∧ s.si.wdgLast ≠ some (decide (w = 0x5A)) ∧
        s.now - s.si.wdgTime ≤ 150000 ∧ (s.si.wdgLast ≠ none → 50000 ≤ s.now - s.si.wdgTime)
      let tripped (t : State) : Prop := t.si.wdgTrip = true ∧ t.si.safeN = false ∧ t.si.danger ≠ [] ∧
        t.bit SI_STAT SI_STAT_ENB_PAD = true ∧ siOnly s t [SI_STAT] ∧
        (s.si.intq.length < 512 → ∃ r : FaultRec, t.si.intq = s.si.intq ++ [r] ∧ r.code = 0x3084 ∧
          r.seq = s.si.seq ∧ r.time = BitVec.ofNat 64 s.flat) ∧
        (512 ≤ s.si.intq.length → t.si.intLoss = true ∧ t.reg (SI_CNT 1) = satInc (s.reg (SI_CNT 1)))
      (good → exec (.siWdg v) s =
        .next { s with si := { s.si with wdgLast := some (decide (w = 0x5A)), wdgTime := s.now } }) ∧
      (¬ good → ∃ t, exec (.siWdg v) s = .next t ∧ tripped t) ∧
      (s.si.wdgTime + 150000 ≤ s.now → ∃ t, exec .watchdogTrip s = .next t ∧ tripped t)) ∧
    (s.si.running = false ∨ s.si.wdgTrip = true →
      exec (.siWdg v) s = .next s ∧ exec .watchdogTrip s = .next s) ∧
    (s.now < s.si.wdgTime + 150000 → exec .watchdogTrip s = .next s) ∧
    (s.enbCalled = true → s.now ≤ s.si.enbTime + 2000 →
      let good := (v = 0x0C3C ∨ v = 0x3C0C) ∧ s.si.enbLast ≠ some (decide (v = 0x3C0C))
      (good →
        ∃ t, exec (.siEnb v) s = .next t ∧ t.bit SI_STAT SI_STAT_ENB_PAD = false ∧
          t.si = { s.si with enbLast := some (decide (v = 0x3C0C)), enbTime := s.now } ∧
          t = { s with regs := t.regs, si := t.si } ∧ RegsBut s t [SI_STAT]) ∧
      (¬ good →
        ∃ t, exec (.siEnb v) s = .next t ∧ t.si.enbLatch = true ∧ t.bit SI_STAT SI_STAT_ENB_PAD = true ∧
          Reported s t 0x3089 0xFF 1 ∧ siOnly s t [SI_STAT])) ∧
    (s.enbCalled = true → s.si.enbTime + 2000 < s.now →
      ∃ t, exec (.siEnb v) s = .next t ∧ t.si.enbLatch = true ∧ t.bit SI_STAT SI_STAT_ENB_PAD = true ∧
        Reported s t 0x3089 0xFF 0 ∧ siOnly s t [SI_STAT]) ∧
    (s.now < s.si.enbTime + 2000 → exec .lapse s = .next s) ∧
    (s.enbCalled = true → s.si.enbTime + 2000 ≤ s.now →
      ∃ t, exec .lapse s = .next t ∧ t.si.enbLatch = true ∧ t.bit SI_STAT SI_STAT_ENB_PAD = true ∧
        Reported s t 0x3089 0xFF 0 ∧ siOnly s t [SI_STAT]) ∧
    (s.enbCalled = false → exec (.siEnb v) s = .next s ∧ exec .lapse s = .next s) ∧
    (∀ b : Bool,
      ∃ t, exec (.enableReadbackMismatch b) s = .next t ∧ Frame s t [] [] ∧
        Reported s t 0x3085 0xFF (BitVec.ofNat 48 (b2n b)) ∧ t.si.danger ≠ [])

/-- R410, R411, R417, R493, R494: the danger line of the first dangerous fault puts the device into the safe
state: both enables withdrawn, no permit, SAFE_STATE_N low, the cause held, and each running axis ramped
down where a ramp stop is its action. A release with the right key and every fault cleared leaves it, and the
enables rise only after REARM; a fault that has not cleared, or a key written outside the safe state, leaves it
as it is. While the Sagger program does not run, no release is taken and no enable rises.
Choices of the model, not of the spec: which faults clear, the order of the danger lines, and a REARM that
an inhibit delays (log entry 59).
Where its event has not occurred, a command changes nothing: the model's choice (log entry 2). -/
def Obligations.TheSafeStateIsEnteredAndLeft : Prop :=
  (∀ (s : State) (blk : Fin 27) (f : FaultIn), s.si.danger = [f] → codeBlk f.code = blk.val →
    s.bit SI_STAT SI_STAT_SAFE = false →
    ∃ t, exec (.dangerLine blk) s = .next t ∧ t.bit SI_STAT SI_STAT_SAFE = true ∧ t.si.danger = [] ∧
      t.si.enable = false ∧ t.si.safeN = false ∧ t.si.armed = false ∧ t.si.open_ = s.si.open_ ++ [f] ∧
      t.bit SI_STAT SI_STAT_ENA_PAD = false ∧ t.bit SI_STAT SI_STAT_ENB_PAD = true ∧
      t.fld SI_HUBPERM SI_HUBPERM_PERM = 0 ∧ t.fld SI_CAUSE SI_CAUSE_CODE = f.code.toNat ∧
      t.fld SI_CAUSE SI_CAUSE_INST = f.inst.toNat ∧ EventSet t BLK_SI 1 ∧ t.mem = s.mem ∧
      ∀ a, a < 8 → s.reg SI_AXACT = 0x5555 → (s.axAt a).run ≠ .idle → (t.axAt a).run = .stop) ∧
  (∀ (s : State) (blk : Fin 27) (f : FaultIn), s.si.danger = [f] → codeBlk f.code = blk.val →
    s.bit SI_STAT SI_STAT_SAFE = true →
    ∃ t, exec (.dangerLine blk) s = .next t ∧ t.bit SI_STAT SI_STAT_SAFE = true ∧ t.si.danger = [] ∧
      t.si.open_ = s.si.open_ ++ [f] ∧ t.si.since = s.now ∧ siOnly s t [SI_STAT]) ∧
  (∀ (s : State) (blk : Fin 27), (∀ f ∈ s.si.danger, codeBlk f.code ≠ blk.val) →
    exec (.dangerLine blk) s = .next s) ∧
  (∀ (s : State) (v : Word),
    (v ≠ 0x5AFE ∨ s.si.running = false → exec (.safeRel v) s = .next s) ∧
    (s.si.running = true → s.bit SI_STAT SI_STAT_SAFE = false →
      ∃ t, exec (.safeRel 0x5AFE) s = .next t ∧ Frame s t [] [] ∧ Reported s t 0x0088 0xFF 1) ∧
    (s.si.running = true → s.bit SI_STAT SI_STAT_SAFE = true →
      (s.si.lasting = true ∨
        ∃ f ∈ s.si.open_, lastingCode f.code = true ∨ eventCleared f.code = true) →
      ∃ t, exec (.safeRel 0x5AFE) s = .next t ∧ t.bit SI_STAT SI_STAT_SAFE = true ∧
        t.si.enable = s.si.enable ∧ Reported s t 0x0088 0xFF 1) ∧
    (s.si.running = true → s.bit SI_STAT SI_STAT_SAFE = true → s.si.lasting = false → s.si.open_ = [] →
      ∃ t, exec (.safeRel 0x5AFE) s = .next t ∧ t.bit SI_STAT SI_STAT_SAFE = false ∧
        t.bit SI_STAT SI_STAT_REARM = true ∧ t.si.rearm = .release ∧ t.si.rearmAt = s.now ∧
        t.si.enable = s.si.enable ∧ EventSet t BLK_SI 2 ∧ Reported s t 0x0088 0xFF 0)) ∧
  (∀ s : State,
    (s.si.rearm = .none ∨ s.si.running = false → exec .rearm s = .next s) ∧
    (s.si.rearm = .release → s.now < s.si.rearmAt + s.rearmTicks → exec .rearm s = .next s) ∧
    (s.si.rearm = .inhibit → s.now < s.si.since + s.rearmTicks ∨ s.inhibitNow = true →
      exec .rearm s = .next s) ∧
    (s.si.rearm = .release → s.si.rearmAt + s.rearmTicks ≤ s.now → s.now < s.si.since + s.rearmTicks →
      s.si.running = true → s.bit SI_STAT SI_STAT_INHIBIT = false →
      exec .rearm s = .next { s with si := { s.si with
        rearm := .inhibit, armed := true, safeN := !s.si.wdgTrip, enbLatch := false } }) ∧
    (s.si.rearm = .inhibit → s.si.since + s.rearmTicks ≤ s.now → s.bit SI_STAT SI_STAT_INHIBIT = false →
      s.si.running = true → s.inhibitNow = false →
      ∃ t, exec .rearm s = .next t ∧ t.si.rearm = .none ∧ t.si.armed = s.si.armed ∧ t.si.enable = true ∧
        t.bit SI_STAT SI_STAT_ENA_PAD = true ∧ t.bit SI_STAT SI_STAT_REARM = false ∧
        siOnly s t [SI_STAT, SI_HUBPERM]) ∧
    (s.si.rearm = .release → s.si.rearmAt + s.rearmTicks ≤ s.now →
      s.si.since + s.rearmTicks ≤ s.now → s.bit SI_STAT SI_STAT_INHIBIT = false →
      s.si.running = true → s.inhibitNow = false →
      ∃ t, exec .rearm s = .next t ∧ t.si.rearm = .none ∧ t.si.armed = true ∧ t.si.enable = true ∧
        t.bit SI_STAT SI_STAT_ENA_PAD = true ∧ t.bit SI_STAT SI_STAT_REARM = false ∧
        siOnly s t [SI_STAT, SI_HUBPERM]) ∧
    (s.si.running = true → s.si.armed = false → s.bit SI_STAT SI_STAT_SAFE = false → s.si.rearm = .none →
      s.si.danger = [] → s.inhibitNow = false → s.bit SI_STAT SI_STAT_INHIBIT = false →
      s.si.since + s.rearmTicks ≤ s.now →
      ∃ t, exec .startArm s = .next t ∧ t.si.armed = true ∧ t.si.safeN = true ∧ t.si.enable = true ∧
        t.bit SI_STAT SI_STAT_ENA_PAD = true ∧ siOnly s t [SI_STAT, SI_HUBPERM]) ∧
    (s.si.armed = true → exec .startArm s = .next s)) ∧
  (∀ (s : State) (c : BitVec 16) (i : BitVec 8),
    let gone : State := { s with si := { s.si with
      open_ := s.si.open_.filter fun f => f.code != c || f.inst != i } }
    (c = 0x3244 ∨ c = 0x34C6 ∨ c = 0x3085 → exec (.dangerousFaultClears c i) s = .next gone) ∧
    (c = 0x3044 → exec (.dangerousFaultClears c i) s = .next (if s.ck.bothXtal then s else gone)) ∧
    (c = 0x3045 → exec (.dangerousFaultClears c i) s =
      .next (if s.reg CK_SUP = 0 ∧ s.ck.supAt + ticksMs ≤ s.now then gone else s)) ∧
    (c = 0x3086 → exec (.dangerousFaultClears c i) s =
      .next (if s.pairAgrees i.toNat = true ∧ s.si.pairAt.get 0 i.toNat + s.pairTicks ≤ s.now then gone
        else s)) ∧
    (c = 0x3505 → i.toNat < 10 →
      exec (.dangerousFaultClears c i) s = .next
        (if s.bit (QE_STAT i.toNat) QE_STAT_WIREA = false ∧ s.bit (QE_STAT i.toNat) QE_STAT_WIREB = false ∧
            s.bit (QE_STAT i.toNat) QE_STAT_WIREZ = false ∧ (s.qeAt i.toNat).wireAt + 16 ≤ s.now then gone
        else s)) ∧
    (eventCleared c = false → exec (.dangerousFaultClears c i) s = .next s))

/-- R405, R406, R413, R415, R416, R424: a core that differs for the first or second time in an hour is out and
resynchronised, for the third retired; two that disagree stop, and that, a pair that differs for DT, and a PROT
setup that does not match its CRC are dangerous; a job window is used from its acknowledgement; a latent test,
while the line runs, is counted and shows its result, drives the enables inactive for a while, and puts each core
out in turn. -/
def redundancyAndLatentChecks : Prop :=
  (∀ (s : State) (i : Fin 3), s.fld SI_STAT SI_STAT_OUT = 0 →
    (s.countEvent (winKey 0x1081 i) 3 ticksHour).1 = false →
    ∃ t, exec (.coreOut i) s = .next t ∧ t.rbit SI_STAT (5 + i) = true ∧
      t.bit SI_STAT SI_STAT_TWO = true ∧ t.bit SI_STAT SI_STAT_RESYNC = true ∧ t.si.resync = some i.val ∧
      t.si.resyncAt = s.now ∧ Reported s t 0x1081 (BitVec.ofNat 8 i) 0 ∧ siOnly s t [SI_STAT]) ∧
  (∀ (s : State) (i : Fin 3),
    (s.fld SI_STAT SI_STAT_OUT = 0 → (s.countEvent (winKey 0x1081 i) 3 ticksHour).1 = true →
      ∃ t, exec (.coreOut i) s = .next t ∧ t.rbit SI_STAT (5 + i) = true ∧
        t.bit SI_STAT SI_STAT_TWO = true ∧ i.val ∈ t.si.left ∧ t.unit (256 + i) = 2 ∧
        t.si.resync = s.si.resync ∧ siOnly s t [SI_STAT, ST_USTAT (256 + i)]) ∧
    (s.fld SI_STAT SI_STAT_OUT ≠ 0 → exec (.coreOut i) s = .next s)) ∧
  (∀ s : State,
    s.si.resync = none ∨ s.si.pairHeld = true ∨ s.now < s.si.resyncAt + resyncTicks →
    exec .resync s = .next s) ∧
  (∀ (s : State) (i : Nat), s.si.resync = some i → i < 3 → s.si.pairHeld = false →
    s.si.resyncAt + resyncTicks ≤ s.now →
    ∃ t, exec .resync s = .next t ∧
      (s.si.inject = [] → t.rbit SI_STAT (5 + i) = false ∧ t.bit SI_STAT SI_STAT_RESYNC = false ∧
        t.si.resync = none) ∧
      (∀ k rest, s.si.inject = k :: rest → k < 3 → s.fld SI_STAT SI_STAT_OUT = 2 ^ i →
        (s.countEvent (winKey 0x1081 k) 3 ticksHour).1 = false →
        t.rbit SI_STAT (5 + k) = true ∧ t.si.resync = some k ∧ t.si.inject = rest) ∧ EventSet t BLK_SI 4 ∧
      t.reg (SI_CNT 2) = satInc (s.reg (SI_CNT 2)) ∧
      (∀ j, j < 0x50000 → memByte t.mem (SG_MEM + 0x50000 * i + j) =
        memByte s.mem (SG_MEM + 0x50000 * (if i = 0 then 1 else 0) + j)) ∧
      MemBut s t (SG_MEM + 0x50000 * i) 0x50000) ∧
  (∀ s : State,
    (s.bit SI_STAT SI_STAT_TWO = true →
      ∃ t, exec .twoOfTwo s = .next t ∧
        Frame { s with sg := { s.sg with running := false }, si := { s.si with pairHeld := true, inject := [] } } t
          [] [] ∧
        Reported s t 0x3083 0xFF 0) ∧
    (s.bit SI_STAT SI_STAT_TWO = false → exec .twoOfTwo s = .next s) ∧
    (s.bit PROT_LOCK PROT_LOCK_LOCK = false → exec .protCrcCheck s = .next s) ∧
    (s.bit PROT_LOCK PROT_LOCK_LOCK = true →
      (crc32c s.protSetup = s.reg PROT_CRC → exec .protCrcCheck s = .next s) ∧
      (crc32c s.protSetup ≠ s.reg PROT_CRC →
        ∃ t, exec .protCrcCheck s = .next t ∧ Frame s t [] [] ∧ Reported s t 0x30C3 0xFF 0))) ∧
  (∀ (s : State) (j : Fin 8), (s.fld SI_PAIR SI_PAIR_PAIR).testBit j = true →
    s.fs.gateSeen.get false (2 * j) = true → s.fs.gateSeen.get false (2 * j + 1) = true →
    (s.rbit GATE_STAT (2 * j) ≠ s.rbit GATE_STAT (2 * j + 1) →
      (s.si.pairAt.get 0 j + s.pairTicks < s.now →
        ∃ t, exec (.pairDiscrepancy j) s = .next t ∧ Frame s t [] [] ∧
          Reported s t 0x3086 (BitVec.ofNat 8 j) 0) ∧
      (s.now ≤ s.si.pairAt.get 0 j + s.pairTicks → exec (.pairDiscrepancy j) s = .next s)) ∧
    (s.rbit GATE_STAT (2 * j) = s.rbit GATE_STAT (2 * j + 1) →
      exec (.pairDiscrepancy j) s = .next s)) ∧
  (∀ (s : State) (j : Fin 8), (s.fld SI_PAIR SI_PAIR_PAIR).testBit j = false →
    exec (.pairDiscrepancy j) s = .next s) ∧
  (∀ (s : State) (j : Fin 2), s.si.winSent.get none j = none → exec (.jobWindow j) s = .next s) ∧
  (∀ (s : State) (j : Fin 2) (w : JobWin), s.si.winSent.get none j = some w →
    ∃ t, exec (.jobWindow j) s = .next t ∧
      t.si.winHeld.get none j = (if w.lo < w.hi then some w else none) ∧
      t.si.winSent.get none j = none ∧ siOnly s t [SI_STAT, SI_HUBPERM]) ∧
  (∀ (s : State) (row : Fin 7),
    (s.si.running = false ∨ s.lineRuns = false → exec (.latentTest row) s = .next s) ∧
    (s.si.running = true → s.lineRuns = true →
      ∃ t, exec (.latentTest row) s = .next t ∧ t.reg (SI_CNT 3) = satInc (s.reg (SI_CNT 3)) ∧
        t.bit SI_LATENT SI_LATENT_PASS = decide (row.val = 0) ∧
        (row.val ≠ 0 → t.fld SI_LATENT SI_LATENT_ROW = row ∧ t.si.danger ≠ [] ∧
          ((s.si.queues.get [] BLK_SI).length < 7 →
            ∃ f ∈ t.si.queues.get [] BLK_SI, f.code = 0x3087 ∧ f.info = BitVec.ofNat 48 row)) ∧
        (s.si.enable = true → t.bit SI_STAT SI_STAT_ENA_PAD = false ∧
          t.bit SI_STAT SI_STAT_ENB_PAD = true ∧ t.si.blank = some (s.now + 100)) ∧
        (row.val ≠ 4 → s.fld SI_STAT SI_STAT_OUT = 0 →
          (s.countEvent (winKey 0x1081 0) 3 ticksHour).1 = false →
          t.rbit SI_STAT 5 = true ∧ t.si.resync = some 0 ∧ t.si.inject = [1, 2]) ∧
        siOnly s t [SI_CNT 3, SI_LATENT, SI_STAT, ST_USTAT 256])) ∧
  (∀ (s : State) (u : Nat), s.si.blank = some u → u ≤ s.now →
    s.blankEnds.si.blank = none ∧ s.blankEnds.bit SI_STAT SI_STAT_ENA_PAD = s.si.enable)

/-- R417 to R419, R423, R493: the collector, while the Sagger program runs, takes the oldest fault of the block whose turn it is, numbers and stamps
it; records go to the ring while it has room. A heartbeat in sequence is taken, and a wrong or missing
one is reported and disabled. -/
def faultsAreCollectedAndHeartbeatsChecked : Prop :=
  (∀ (s : State) (b : Nat) (f : FaultIn) (rest : List FaultIn), b < 27 → s.si.queues.get [] b = f :: rest →
    (∀ c, c < 27 → c ≠ b → s.si.queues.get [] c = []) → s.si.intq.length < 512 →
    s.si.running = true → s.si.takenAt ≠ some s.now →
    ∃ t, exec .faultTake s = .next t ∧ t.si.queues.get [] b = rest ∧ t.si.seq = s.si.seq + 1 ∧
      t.si.intq = s.si.intq ++ [{ code := f.code, inst := f.inst, lasting := f.lasting, safe := f.safe,
                                  loss := s.si.blkLoss.get false b, seq := s.si.seq,
                                  time := BitVec.ofNat 64 s.flat, ln := s.lc.hwm, info := f.info }] ∧
      t.top.rrPtr.get 0 rrFault = rrNext 27 b ∧ t.si.takenAt = some s.now ∧
      t.regs = s.regs ∧ t.mem = s.mem ∧ ∀ c, c ≠ b → t.si.queues.get [] c = s.si.queues.get [] c) ∧
  (∀ s : State, (∀ c, c < 27 → s.si.queues.get [] c = []) ∨ s.si.takenAt = some s.now ∨
      s.si.running = false →
    exec .faultTake s = .next s) ∧
  (∀ s : State, s.si.intq = [] → exec .faultRecord s = .next s) ∧
  (∀ (s : State) (r : FaultRec) (rest : List FaultRec), s.si.intq = r :: rest →
    let size := (s.reg SI_FR_SIZE).toNat
    let w := (s.reg SI_FR_WPTR).toNat
    let a := (s.reg SI_FR_BASE_LO).toNat + s.fld SI_FR_BASE_HI SI_FR_BASE_HI_ADDR * 2 ^ 32 + w
    (size = 0 ∨ (w + 32) % size = (s.reg SI_FR_RPTR).toNat % size → exec .faultRecord s = .next s) ∧
    (size ≠ 0 → (w + 32) % size ≠ (s.reg SI_FR_RPTR).toNat % size → a + 32 ≤ 2 ^ 48 →
      ∃ t, exec .faultRecord s = .next t ∧ BlockWrote s t a (r.bytes s.si.intLoss) ∧
        t.si.intq = rest ∧ t.si.intLoss = false ∧ (t.reg SI_FR_WPTR).toNat = (w + 32) % size ∧
        t.reg (SI_CNT 0) = satInc (s.reg (SI_CNT 0)) ∧ EventSet t BLK_SI 0 ∧
        MemFrame { s with si := t.si } t [SI_FR_WPTR, SI_CNT 0] [BLK_SI])) ∧
  (∀ (s : State) (k : Fin 4) (seq : BitVec 16), s.rbit SI_HBEN k = true →
    let v : Word := BitVec.ofNat 32 ((~~~seq).toNat * 65536 + seq.toNat)
    ((∀ x, s.si.hbSeq.get none k = some x → seq = x + 1) →
      ∃ t, exec (.siHb k v) s = .next t ∧ t.si.hbSeq.get none k = some seq ∧
        t.si.hbAt.get 0 k = s.now ∧ t.reg SI_HBEN = s.reg SI_HBEN ∧ siOnly s t [SI_HB k]) ∧
    (∀ x, s.si.hbSeq.get none k = some x → seq ≠ x + 1 →
      ∃ t, exec (.siHb k v) s = .next t ∧ t.rbit SI_HBEN k = false ∧ EventSet t BLK_SI 5 ∧
        Reported s t 0x2641 (BitVec.ofNat 8 k) (BitVec.ofNat 48 x.toNat) ∧
        siOnly s t [SI_HB k, SI_HBEN]) ∧
    (∀ w : Word, (w >>> 16).setWidth 16 ≠ ~~~(w.setWidth 16) →
      ∃ t, exec (.siHb k w) s = .next t ∧ t.rbit SI_HBEN k = false ∧ EventSet t BLK_SI 5 ∧
        siOnly s t [SI_HB k, SI_HBEN]) ∧
    (s.si.hbAt.get 0 k + 2 * ticksMs ≤ s.now →
      ∃ t, exec (.hbMiss k) s = .next t ∧ t.rbit SI_HBEN k = false ∧ EventSet t BLK_SI 5 ∧
        siOnly s t [SI_HBEN]) ∧
    (s.now < s.si.hbAt.get 0 k + 2 * ticksMs → exec (.hbMiss k) s = .next s)) ∧
  (∀ (s : State) (k : Fin 4) (w : Word), s.rbit SI_HBEN k = false →
    exec (.hbMiss k) s = .next s ∧
    ∃ t, exec (.siHb k w) s = .next t ∧ t.reg (SI_HB k) = w ∧ t = { s with regs := t.regs } ∧
      RegsBut s t [SI_HB k])

/-- R405, R406, R413, R415 to R419, R423, R424: the checks of the safety island and its fault records.
Choices of the model, not of the spec: a pair's discrepancy is judged on the activity of its inputs (log
entry 58); latent tests and PROT checks have no schedule in the model (log entry 59); the collector takes
one fault in a tick, and the start value of a record's CRC (log entry 60).
Where its event has not occurred, a command changes nothing: the model's choice (log entry 2). -/
def Obligations.RedundancyFaultsAndHeartbeats : Prop :=
  redundancyAndLatentChecks ∧ faultsAreCollectedAndHeartbeatsChecked

/-! ### In-service test -/

/-- A test of a unit has been taken: the unit is in test and its state before it is kept. -/
def testTaken (s t : State) (u cmd : Nat) : Prop :=
  t.unit u = 1 ∧ t.st.tests.get none u = some { prev := s.unit u, second := false, cmd := cmd } ∧
  (∀ w, w ≠ u → t.st.tests.get none w = s.st.tests.get none w)

/-- R430 to R434, R437 to R439, R441, R444, R446: TEST and RETURN take a unit that may be taken: a lane in service
first asks its hub for the other lane alone, a rank leaves self-refresh, and a control core is stopped with its
data cache written back. RETIRE takes any unit out of service at once, SWITCH makes a clock source the running one,
and UPDATE holds a control-core image that verifies, and loads a Sagger program that verifies into its three copies.
A command that the unit does not allow, or that comes while another is served, is refused; one whose class is in
test waits. -/
def serviceCommandsActOnUnits : Prop :=
  (∀ (s : State) (u : BitVec 9) (i : Instr), s.bit ST_STAT ST_STAT_BUSY = true ∨ 262 < u.toNat →
    i = .stTest u ∨ i = .stRetire u ∨ i = .stReturn u ∨ i = .stSwitch u ∨ i = .stUpdate u →
    ∃ t info, exec i s = .next t ∧ t.fld ST_STAT ST_STAT_RESULT = 3 ∧
      Reported s t 0x0601 (BitVec.ofNat 8 (unitClass u.toNat)) info ∧
      Frame { s with freeIx := t.freeIx } t [ST_STAT] []) ∧
  ∀ (s : State) (u : BitVec 9), u.toNat ≤ 262 → s.bit ST_STAT ST_STAT_BUSY = false →
    let n := u.toNat
    let read := fun t : State => s.withDram t
    let readRegs := MC_CNT 1 :: dramRegs
    (∀ op, op = 1 ∨ op = 3 → s.testBusy n = false →
      (if op = 1 then s.stMayTest n = true else s.stMayReturn n = true) →
      ∃ t, exec (if op = 1 then .stTest u else .stReturn u) s = .next t ∧ testTaken s t n op ∧
        t.bit ST_STAT ST_STAT_BUSY = true ∧ t.fld ST_STAT ST_STAT_U = n ∧
        (unitClass n ≠ 2 → unitClass n ≠ 3 → (unitClass n = 4 → op = 3) →
          t = { s with regs := t.regs, st := t.st } ∧ RegsBut s t [ST_STAT, ST_USTAT n]) ∧
        (unitClass n = 2 →
          t = { s with regs := t.regs, st := t.st, dl := t.dl } ∧ RegsBut s t [ST_STAT, ST_USTAT n] ∧
          t.dl.lanes = s.dl.lanes ∧
          (if s.laneReady (n - 148) = true then
            (t.hubAt ((n - 148) / 2)).toSend = some (soloMode (partner (n - 148)))
          else t.dl = s.dl)) ∧
        (unitClass n = 3 →
          let c := (n - 180) / 4
          let r := (n - 180) % 4
          t = { s with regs := t.regs, st := t.st, mc := t.mc } ∧
          RegsBut s t [ST_STAT, ST_USTAT n, MC_RK_STAT c r] ∧
          (s.srOf c r = srAwake ∨ s.freqBusy = true → t.mc = s.mc ∧ t.srOf c r = s.srOf c r) ∧
          (s.freqBusy = false → (s.srOf c r = srDrain → t.srOf c r = srAwake) ∧
            (s.srOf c r = srIssue ∨ s.srOf c r = srInSr → t.srOf c r = srExit))) ∧
        (unitClass n = 4 → op = 1 →
          t.ccAt (n - 212) = IsSt.reset ∧ t.reg (TB_XS_CYC (n - 212)) = 0 ∧
          (∀ l, l ∈ t.dcache → n - 212 ∉ l.cores) ∧
          ∀ k : Fin 4, k.val ≠ n - 212 → t.ccAt k = s.ccAt k)) ∧
    (s.testBusy n = true → s.stAccepts 1 n = true →
      ∃ t, exec (.stTest u) s = .next t ∧ t.st = { s.st with waiting := some (1, n) } ∧
        t.bit ST_STAT ST_STAT_BUSY = true ∧ t.fld ST_STAT ST_STAT_U = n ∧
        t = { s with regs := t.regs, st := t.st } ∧ RegsBut s t [ST_STAT]) ∧
    (s.stMayRetire n = true → s.testBusy n = false →
      ∃ t, exec (.stRetire u) s = .next t ∧ t.unit n = 2 ∧ EventSet t BLK_ST 1 ∧ EventSet t BLK_ST 3 ∧
        t.bit ST_STAT ST_STAT_BUSY = false ∧ t.fld ST_STAT ST_STAT_RESULT = 1 ∧
        (unitClass n = 5 → Frame s t [ST_STAT, ST_USTAT n] [BLK_ST])) ∧
    (∀ p : Fin 2, n = 259 + p.val → s.pllLocked p = true → s.unit n ≠ 2 → s.testBusy n = false →
      ∃ t, exec (.stSwitch u) s = .next t ∧ t.psel = p ∧ t.unit n = 0 ∧
        t.unit (259 + (1 - p.val)) = (if s.unit (259 + (1 - p.val)) = 2 then 2 else 3) ∧
        EventSet t BLK_ST 3 ∧ t.fld ST_STAT ST_STAT_RESULT = 1 ∧
        Frame s t [ST_STAT, CK_CLK, ST_USTAT 259, ST_USTAT 260] [BLK_ST]) ∧
    (∀ x : Fin 2, n = 261 + x.val → s.xtalOk x = true → s.unit n ≠ 2 → s.testBusy n = false →
      ∃ t, exec (.stSwitch u) s = .next t ∧ t.xsel = x ∧ t.unit n = 0 ∧
        t.unit (261 + (1 - x.val)) = (if s.unit (261 + (1 - x.val)) = 2 then 2 else 3) ∧
        EventSet t BLK_ST 3 ∧ t.fld ST_STAT ST_STAT_RESULT = 1 ∧
        Frame s t [ST_STAT, CK_CLK, ST_USTAT 261, ST_USTAT 262] [BLK_ST]) ∧
    (n = 256 → s.testBusy n = false →
      ∃ t, exec (.stUpdate u) s = .next t ∧ EventSet t BLK_ST 3 ∧ t.bit ST_STAT ST_STAT_BUSY = false ∧
        (∀ img, s.memImage s.stArg = some img → imgReason [3] s.boot.fuseSvn (some img) = 0 →
          let code := imgPart img 1
          t.fld ST_STAT ST_STAT_RESULT = 1 ∧
          (∀ c, c < 3 → t.loadBytes (SG_MEM + 0x50000 * c) code.length = code) ∧
          MemBut s t SG_MEM 0xF0000 ∧
          Frame { read t with mem := t.mem, poison := t.poison, sg := { s.sg with pc := t.sg.pc },
                              freeIx := t.freeIx } t (ST_STAT :: readRegs) [BLK_ST, BLK_MC]) ∧
        (s.memReason [3] s.stArg ≠ 0 →
          t.fld ST_STAT ST_STAT_RESULT = 2 ∧ Frame (read t) t (ST_STAT :: readRegs) [BLK_ST, BLK_MC])) ∧
    (unitClass n = 4 → s.testBusy n = false →
      ∃ t, exec (.stUpdate u) s = .next t ∧ EventSet t BLK_ST 3 ∧
        t.bit ST_STAT ST_STAT_BUSY = false ∧
        Frame (read t) t ([ST_STAT, BOOT_CCIMG_LO, BOOT_CCIMG_HI] ++ readRegs) [BLK_ST, BLK_MC] ∧
        (if s.memReason [2] s.stArg = 0 then
          t.reg64 BOOT_CCIMG_LO BOOT_CCIMG_HI = s.stArg ∧ t.fld ST_STAT ST_STAT_RESULT = 1
        else t.fld ST_STAT ST_STAT_RESULT = 2)) ∧
    (∀ (op : Nat) (i : Instr), (op, i) ∈ [(1, .stTest u), (2, .stRetire u), (3, .stReturn u), (4, .stSwitch u),
        (5, .stUpdate u)] → s.stAccepts op n = false →
      ∃ t info, exec i s = .next t ∧ t.fld ST_STAT ST_STAT_RESULT = 3 ∧
        Reported s t 0x0601 (BitVec.ofNat 8 (unitClass n)) info ∧
        Frame { s with freeIx := t.freeIx } t [ST_STAT] [])

/-- R430, R431: a test that passes puts the unit back and clears its failures; one that fails is repeated, and the
unit retired when it fails again. An automatic test of pipes, lanes, control cores, check units, DMA channels or
clock sources takes the next unit that may be tested. -/
def testsEndAndRepeat : Prop :=
  (∀ (s : State) (u : BitVec 9) (r : TestRun), u.toNat ≤ 262 → s.st.waiting = none →
    s.st.tests.get none u.toNat = some r → r.cmd = 1 → s.testRuns u.toNat = true →
    (r.second = false →
      (∃ t, exec (.testComplete u true) s = .next t ∧
        (unitClass u.toNat ≠ 1 → unitClass u.toNat ≠ 4 → t.unit u.toNat = r.prev % 4) ∧
        t.st.tests.get none u.toNat = none ∧ t.fld (ST_USTAT u.toNat) ST_USTAT_LAST = 1 ∧
        t.fld (ST_USTAT u.toNat) ST_USTAT_FAILS = 0 ∧ t.reg (ST_CNT 0) = satInc (s.reg (ST_CNT 0)) ∧
        t.bit ST_STAT ST_STAT_BUSY = false ∧ t.fld ST_STAT ST_STAT_RESULT = 1 ∧ EventSet t BLK_ST 3 ∧
        (unitClass u.toNat = 5 →
          Frame { s with st := t.st } t [ST_USTAT u.toNat, ST_CNT 0, ST_STAT] [BLK_ST])) ∧
      (∃ t, exec (.testComplete u false) s = .next t ∧
        t.st.tests.get none u.toNat = some { r with second := true } ∧ t.unit u.toNat = s.unit u.toNat ∧
        t.reg (ST_CNT 1) = satInc (s.reg (ST_CNT 1)) ∧ EventSet t BLK_ST 0 ∧
        t.fld (ST_USTAT u.toNat) ST_USTAT_LAST = 2 ∧
        (148 ≤ u.toNat → Frame { s with st := t.st } t [ST_USTAT u.toNat, ST_CNT 1] [BLK_ST]))) ∧
    (r.second = true →
      ∃ t, exec (.testComplete u false) s = .next t ∧ t.unit u.toNat = 2 ∧
        t.st.tests.get none u.toNat = none ∧
        ((s.si.queues.get [] (codeBlk 0x2604)).length < 8 →
          ∃ f, f ∈ t.si.queues.get [] (codeBlk 0x2604) ∧ f.code = 0x2604 ∧
            f.inst = BitVec.ofNat 8 (unitClass u.toNat)) ∧
        t.fld ST_STAT ST_STAT_RESULT = 2 ∧ EventSet t BLK_ST 1)) ∧
  (∀ (s : State) (u : BitVec 9) (pass : Bool),
    s.st.tests.get none u.toNat = none ∨ s.testRuns u.toNat = false →
    exec (.testComplete u pass) s = .next s) ∧
  (∀ (s : State) (cls : Fin 11),
    (s.rbit ST_CTRL cls = false ∨ cls.val = 10 → exec (.automaticTest cls) s = .next s) ∧
    (cls.val ∈ [1, 2, 4, 5, 6, 9] → s.perPassed cls cls = false → exec (.automaticTest cls) s = .next s) ∧
    (∀ u rest, cls.val ∈ [1, 2, 4, 5, 6, 9] → s.rbit ST_CTRL cls = true → s.st.waiting = none →
      (∀ w, unitClass w = cls.val → s.testBusy w = false) → s.perPassed cls cls = true →
      rotated (unitsOf cls) (s.st.next.get 0 cls) = u :: rest → s.stMayTest u = true →
      ∃ t, exec (.automaticTest cls) s = .next t ∧ testTaken s t u 0 ∧ t.st.next.get 0 cls = u + 1 ∧
        t.st.started.get none cls = some s.now ∧
        (cls.val ∈ [1, 5, 6, 9] →
          t = { s with regs := t.regs, st := t.st } ∧ RegsBut s t [ST_USTAT u])))

/-- R430 to R434, R441, R444, R446: in-service test and replacement.
Choices of the model, not of the spec: what is refused, what ends at once, and how a unit in use leaves
service (log entry 61); which unit comes next in classes 0 and 3, and the step number in INFO, are free (log
entry 62).
Where its event has not occurred, a command changes nothing: the model's choice (log entry 2). -/
def Obligations.UnitsAreTestedAndReplaced : Prop := serviceCommandsActOnUnits ∧ testsEndAndRepeat

/-! ### Power and clocks -/

/-- The device is in its reset state: registers, but those of a list, memory below the host's, cores and queues; the
commands that wait, host memory, fuses and flash stay. -/
def hasReset (s t : State) (also : List Nat := []) : Prop :=
  (∀ off, off ∉ also → t.reg off = regReset off) ∧ (∀ a, a < 0x800000000000 → memByte t.mem a = 0) ∧
  (∀ a, 0x800000000000 ≤ a → memByte t.mem a = memByte s.mem a) ∧ t.pending = s.pending ∧
  t.boot.fuseSvn = s.boot.fuseSvn ∧ t.boot.flashP = s.boot.flashP ∧ t.boot.flashS = s.boot.flashS ∧
  (∀ k : Fin 4, (t.ccAt k).running = false) ∧ t.si.running = false ∧ t.poison = []

/-- R451, R452, R460: power that comes, goes, or is reset by the key of CK_SYSRST resets the device; a rail out
of range is a dangerous fault and is shown until it returns. That memory then reads zero is the model's choice
(log entry 5). -/
def powerAndSupply : Prop :=
  ∀ s : State,
    (s.ck.pwrgood = false →
      ∃ t, exec .pwrgoodRise s = .next t ∧ hasReset s t ∧ t.ck.pwrgood = true ∧
        t.ck.qualifying = some s.now) ∧
    (s.ck.pwrgood = true → exec .pwrgoodRise s = .next s) ∧
    (∃ t, exec .pwrgoodFall s = .next t ∧ hasReset s t ∧ t.ck.pwrgood = false) ∧
    (∃ t, exec (.ckSysrst .si 0xC1A5) s = .next t ∧ hasReset s t ∧ t.ck.pwrgood = true) ∧
    (∀ v : Word, v ≠ 0xC1A5 → exec (.ckSysrst .si v) s = .next (s.busGrant .si)) ∧
    (∀ (m : Master) (v : Word), m ≠ .si →
      ∃ t, exec (.ckSysrst m v) s = .next t ∧ Frame s t (if m = .host then [HI_CNT 0] else []) []) ∧
    (∀ rail : Fin 4,
      (∃ t, exec (.supply rail) s = .next t ∧ t.rbit CK_SUP rail = true ∧ EventSet t BLK_CK 6 ∧
        Reported s t 0x3045 (BitVec.ofNat 8 rail) 0 ∧ Frame s t [CK_SUP] [BLK_CK]) ∧
      (s.rbit CK_SUP rail = true →
        ∃ t, exec (.supplyRestored rail) s = .next t ∧ t.rbit CK_SUP rail = false ∧
          t = { s with regs := t.regs, ck := { s.ck with supAt := s.now } } ∧ RegsBut s t [CK_SUP]) ∧
      (s.rbit CK_SUP rail = false → exec (.supplyRestored rail) s = .next s))

/-- No test of the clock sources runs, and no SWITCH waits (R433, R455). -/
def sourcesFree (s : State) : Prop :=
  (∀ u, 259 ≤ u → u ≤ 262 → s.st.tests.get none u = none) ∧ ∀ u, s.st.waiting ≠ some (4, u)

/-- A crystal is selected at power-up (R453): the device leaves its reset, boot begins, and a crystal that has not
qualified by then is logged. -/
def clocksStarted (s t : State) (x : Nat) : Prop :=
  hasReset s t [CK_CLK, BOOT_STAT, ST_USTAT 261, ST_USTAT 262] ∧ t.now = s.now ∧ t.ck.pwrgood = true ∧
  t.ck.qualifying = none ∧ t.xsel = x ∧ t.xtalOk x = true ∧ t.xtalOk (1 - x) = s.xtalOk (1 - x) ∧
  t.bootPhase = 1 ∧ t.unit (261 + x) = 0 ∧ t.unit (261 + (1 - x)) = 3 ∧
  (s.xtalOk (1 - x) = false → ∃ f, t.si.queues.get [] (codeBlk 0x2042) = [f] ∧ f.code = 0x2042 ∧
    f.inst = BitVec.ofNat 8 (1 - x))

/-- R453 to R455: XTAL_A that qualifies within 3 ms, else XTAL_B, else the first within 10 ms, is selected, and the
device leaves its reset and boots; without a crystal for 10 ms the attempt begins again. The loss of the selected
crystal or the running PLL selects the other at once, is shown and reported, where that is not retired; of two
losses in one tick the crystal's acts first. The loss of both crystals is dangerous, and that of both PLLs stops the
AO clock and trips the watchdog; a crystal that returns then is selected, and a PLL that locks again is standby. -/
def crystalsAndPlls : Prop :=
  (∀ (s : State) (x : Fin 2), s.ck.pwrgood = false → exec (.crystalQualified x) s = .next s) ∧
  (∀ s : State, s.ck.qualifying = none → exec .crystalRetry s = .next s) ∧
  (∀ s : State, s.ck.early = some s.now →
    exec .crystalLost s = .next { s with ck := { s.ck with early := none } }) ∧
  (∀ s : State, s.ck.early ≠ some s.now → s.ck.qualifying ≠ none ∨ s.xtalOk s.xsel = false →
    exec .crystalLost s = .next s) ∧
  ∀ s : State, sourcesFree s →
    let shown (t : State) (x : Fin 2) : Prop :=
      t.xtalOk x = true ∧ t = { s with regs := t.regs } ∧ RegsBut s t [CK_CLK]
    (∀ x : Fin 2, s.ck.pwrgood = true → s.ck.bothXtal = true → s.unit (261 + x.val) ≠ 2 →
      ∃ t, exec (.crystalQualified x) s = .next t ∧ t.xtalOk x = true ∧ t.xsel = x.val ∧
        t.ck.bothXtal = false ∧ t.unit (261 + x.val) = 0 ∧
        t.unit (261 + (1 - x.val)) = (if s.unit (261 + (1 - x.val)) = 2 then 2 else 3) ∧
        (s.xsel ≠ x.val → EventSet t BLK_CK 3) ∧
        Frame { s with ck := t.ck } t [CK_CLK, ST_USTAT 261, ST_USTAT 262] [BLK_CK]) ∧
    (∀ t0, s.ck.pwrgood = true → s.ck.bothXtal = false → s.ck.qualifying = some t0 →
      let age := s.now - t0
      (age ≤ 300000 → ∃ t, exec (.crystalQualified 0) s = .next t ∧ clocksStarted s t 0) ∧
      (age ≤ 300000 → s.xtalOk 0 = false → ∃ t, exec (.crystalQualified 1) s = .next t ∧ shown t 1) ∧
      (300000 < age → age ≤ 1000000 →
        (∃ t, exec (.crystalQualified 1) s = .next t ∧ clocksStarted s t 1) ∧
        (s.xtalOk 1 = false → ∃ t, exec (.crystalQualified 0) s = .next t ∧ clocksStarted s t 0)) ∧
      (1000000 < age → ∀ x, ∃ t, exec (.crystalQualified x) s = .next t ∧ shown t x)) ∧
    (∀ (x : Fin 2), s.ck.pwrgood = true → s.ck.bothXtal = false ∨ s.unit (261 + x.val) = 2 →
      s.ck.qualifying = none → ∃ t, exec (.crystalQualified x) s = .next t ∧ shown t x) ∧
    (∀ t0, s.ck.qualifying = some t0 →
      (1000000 ≤ s.now - t0 → s.xtalOk 0 = false →
        exec .crystalRetry s = .next { s with ck := { s.ck with qualifying := some s.now } }) ∧
      (s.now - t0 < 1000000 → exec .crystalRetry s = .next s)) ∧
    (s.ck.early ≠ some s.now → s.ck.qualifying = none → s.xsel ≤ 1 → s.xtalOk s.xsel = true →
      (s.xtalOk (1 - s.xsel) = true → s.unit (261 + (1 - s.xsel)) ≠ 2 →
        ∃ t, exec .crystalLost s = .next t ∧ t.xsel = 1 - s.xsel ∧ t.xtalOk s.xsel = false ∧
          EventSet t BLK_CK 3 ∧ Reported s t 0x2042 (BitVec.ofNat 8 s.xsel) 0 ∧
          Frame s t [CK_CLK, ST_USTAT 261, ST_USTAT 262] [BLK_CK]) ∧
      (s.xtalOk (1 - s.xsel) = false ∨ s.unit (261 + (1 - s.xsel)) = 2 →
        ∃ t, exec .crystalLost s = .next t ∧ t.xsel = s.xsel ∧ t.ck.bothXtal = true ∧
          Reported s t 0x3044 0xFF 0 ∧ Frame { s with ck := t.ck } t [CK_CLK] [])) ∧
    (∀ p : Fin 2, Instr.crystalLost ∈ s.pending → s.ck.early ≠ some s.now → s.ck.qualifying = none →
      s.xsel ≤ 1 → s.xtalOk s.xsel = true → s.pllLocked p = true →
      ∃ t, exec (.pllLoss p) s = .next t ∧ t.xtalOk s.xsel = false ∧ t.pllLocked p = false ∧
        t.ck.early = some s.now ∧
        (s.xtalOk (1 - s.xsel) = true → s.unit (261 + (1 - s.xsel)) ≠ 2 → t.xsel = 1 - s.xsel ∧
          (s.psel = p.val → s.pllLocked (1 - p.val) = true → s.unit (259 + (1 - p.val)) ≠ 2 →
            t.psel = 1 - p.val ∧ (s.si.queues.get [] (codeBlk 0x2042) = [] →
              (t.si.queues.get [] (codeBlk 0x2042)).map (·.code) = [0x2042, 0x2043])))) ∧
    (∀ p : Fin 2, Instr.crystalLost ∉ s.pending ∨ s.ck.early = some s.now →
      (s.psel ≠ p.val → s.pllLocked p = true →
        ∃ t, exec (.pllLoss p) s = .next t ∧ t.pllLocked p = false ∧ t.psel = s.psel ∧
          t = { s with regs := t.regs } ∧ RegsBut s t [CK_CLK]) ∧
      (s.psel = p.val → s.pllLocked p = true → s.si.wdgTrip = false →
        s.pllLocked (1 - p.val) = false ∨ s.unit (259 + (1 - p.val)) = 2 →
        ∃ t, exec (.pllLoss p) s = .next t ∧ t.aoRuns = false ∧ t.si.wdgTrip = true ∧ t.si.safeN = false ∧
          siOnly s t [CK_CLK, SI_STAT] ∧
          (s.si.intq.length < 512 → ∃ r : FaultRec, t.si.intq = s.si.intq ++ [r] ∧ r.code = 0x3084)) ∧
      (s.psel = p.val → s.pllLocked p = true → s.pllLocked (1 - p.val) = true →
        s.unit (259 + (1 - p.val)) ≠ 2 →
        ∃ t, exec (.pllLoss p) s = .next t ∧ t.psel = 1 - p.val ∧ t.pllLocked p = false ∧
          EventSet t BLK_CK 4 ∧ Reported s t 0x2043 (BitVec.ofNat 8 p) 0 ∧
          Frame s t [CK_CLK, ST_USTAT 259, ST_USTAT 260] [BLK_CK]) ∧
      (s.pllLocked p = false →
        exec (.pllLoss p) s = .next s ∧
        ∃ t, exec (.pllRelock p) s = .next t ∧ t.pllLocked p = true ∧ t.psel = s.psel ∧
          t.unit (259 + p.val) =
            (if s.psel = p.val then 0 else if s.unit (259 + p.val) = 0 then 3 else s.unit (259 + p.val)) ∧
          t = { s with regs := t.regs } ∧
          RegsBut s t [CK_CLK, ST_USTAT (259 + p.val)]))

/-- R451 to R455, R460: power, supply and clocks.
Choices of the model, not of the spec: a retired source is none to switch to (log entry 61); the records of
losses, and the crystal that returns after the loss of both (log entry 63); commands during the reset act
until the next tick restores it (log entry 64).
Where its event has not occurred, a command changes nothing: the model's choice (log entry 2). -/
def Obligations.PowerAndClocksAreSwitched : Prop := powerAndSupply ∧ crystalsAndPlls

/-- R456 to R459: a request for STANDBY or OFF begins an entry, is refused while the domain is used, and loses to a
wake source of its cycle, whichever of the two comes first. A request or an enabled source wakes a domain that sleeps. -/
def domainRequests : Prop :=
  ∀ (s : State) (m : Master) (d : Fin 3),
    let ckOnly (o t : State) : Prop := t = { o with regs := t.regs, ck := t.ck } ∧ RegsBut o t [CK_DOM d]
    let asleep : Prop := s.domState d ≤ 1 ∧ s.ck.entry.get none d = none
    let wakes (t : State) : Prop := t.domState d = 3 ∧ t.fld (CK_DOM d) CK_DOM_REQ = 2 ∧
      t.ck.waking.get none d = some { fromOff := s.domState d == 0, since := s.now, late := false }
    (∀ i, i = .reqOff m d ∨ i = .reqStandby m d ∨ i = .reqAwake m d → Denied s m (CK_DOM d) true i) ∧
    (s.permits m (regAddr (CK_DOM d)) true = true →
      (∀ r, r ∈ [0, 1] → s.ck.woke.get none d = some s.now →
        ∃ t, exec (if r = 0 then .reqOff m d else .reqStandby m d) s = .next t ∧
          Frame (s.busGrant m) t [] [] ∧ Reported s t 0x0041 (BitVec.ofNat 8 d) 0) ∧
      (∀ r, r ∈ [0, 1] → s.ck.woke.get none d ≠ some s.now → s.domState d = 2 → s.domUsed d = false →
        ∃ t, exec (if r = 0 then .reqOff m d else .reqStandby m d) s = .next t ∧
          ckOnly (s.busGrant m) t ∧ t.domState d = 3 ∧ t.fld (CK_DOM d) CK_DOM_REQ = r ∧
          t.ck.entry.get none d =
            some { target := r, stopped := false, since := s.now, wake := false, before := 2 }) ∧
      (∀ r, r ∈ [0, 1] → s.ck.woke.get none d ≠ some s.now → s.domState d = 2 → s.domUsed d = true →
        ∃ t, exec (if r = 0 then .reqOff m d else .reqStandby m d) s = .next t ∧ t.domState d = 2 ∧
          t.fld (CK_DOM d) CK_DOM_REQ = s.fld (CK_DOM d) CK_DOM_REQ ∧ EventSet t BLK_CK 5 ∧
          Reported s t 0x0041 (BitVec.ofNat 8 d) 0 ∧ Frame (s.busGrant m) t [CK_DOM d] [BLK_CK]) ∧
      (asleep → ∃ t, exec (.reqAwake m d) s = .next t ∧ ckOnly (s.busGrant m) t ∧ wakes t)) ∧
    (∀ src : Fin 4, (s.fld (CK_DOM d) CK_DOM_WAKESRC).testBit src = true →
      ∀ (old : Word) (e : DomEntry), s.ck.lowered.get none d = some (s.now, old) →
      s.ck.entry.get none d = some e → e.since = s.now → e.wake = false → e.before = 2 →
      ∃ t, exec (.wakeSource d src) s = .next t ∧ t.domState d = 2 ∧ t.fld (CK_DOM d) CK_DOM_REQ = 2 ∧
        t.fld (CK_DOM d) CK_DOM_WAKESRC = fldGet CK_DOM_WAKESRC old ∧ t.ck.entry.get none d = none ∧
        t.ck.woke.get none d = some s.now ∧ Reported s t 0x0041 (BitVec.ofNat 8 d) 0 ∧
        Frame { s with ck := t.ck } t [CK_DOM d] []) ∧
    (∀ src : Fin 4, (s.fld (CK_DOM d) CK_DOM_WAKESRC).testBit src = true →
      (∀ x, s.ck.lowered.get none d = some x → x.1 ≠ s.now) →
      (asleep → ∃ t, exec (.wakeSource d src) s = .next t ∧ ckOnly s t ∧ wakes t) ∧
      (s.domState d = 2 → s.ck.entry.get none d = none →
        ∃ t, exec (.wakeSource d src) s = .next t ∧ ckOnly s t ∧ t.domState d = 2 ∧
          t.fld (CK_DOM d) CK_DOM_REQ = 2)) ∧
    (∀ src : Fin 4, (s.fld (CK_DOM d) CK_DOM_WAKESRC).testBit src = false →
      exec (.wakeSource d src) s = .next s)

/-- R456 to R459: the end of an entry gives the state asked for, or begins a wake that was requested meanwhile. A
domain that has woken runs and raises its event, and a wake that takes too long is reported once. That the memory
of a domain that was off reads zero is the model's choice (log entry 5). -/
def fastDomainsSleepAndWake : Prop :=
  ∀ (s : State) (d : Fin 3),
    let ckOnly (t : State) : Prop := t = { s with regs := t.regs, ck := t.ck } ∧ RegsBut s t [CK_DOM d]
    (∀ w, s.ck.waking.get none d = some w →
      (w.fromOff = false → d.val ≠ 0 →
        ∃ t, exec (.awake d) s = .next t ∧ t.domState d = 2 ∧ t.ck.waking.get none d = none ∧
          EventSet t BLK_CK d ∧ t.mem = s.mem ∧ Frame { s with ck := t.ck } t [CK_DOM d] [BLK_CK]) ∧
      (w.fromOff = false → d.val = 0 →
        ∃ t, exec (.awake d) s = .next t ∧ t.domState d = 2 ∧ t.ck.waking.get none d = none ∧
          EventSet t BLK_CK d ∧ t.fld ADM_CAP ADM_CAP_NCAP = s.ncap ∧
          Frame { s with ck := t.ck, adm := t.adm } t [CK_DOM d, ADM_CAP] [BLK_CK]) ∧
      (w.late = false → w.since + (if w.fromOff then 25000 else 4000) < s.now →
        ∃ t, exec (.wakeLate d) s = .next t ∧ Reported s t 0x2046 (BitVec.ofNat 8 d) 0 ∧
          t.ck.waking.get none d = some { w with late := true } ∧ Frame { s with ck := t.ck } t [] []) ∧
      (w.late = true ∨ s.now ≤ w.since + (if w.fromOff then 25000 else 4000) →
        exec (.wakeLate d) s = .next s)) ∧
    (s.ck.waking.get none d = none → exec (.awake d) s = .next s ∧ exec (.wakeLate d) s = .next s) ∧
    (s.ck.entry.get none d = none → exec (.entryComplete d) s = .next s) ∧
    (∀ e, s.ck.entry.get none d = some e → e.wake = true → e.target = 1 →
      ∃ t, exec (.entryComplete d) s = .next t ∧ ckOnly t ∧ t.domState d = 3 ∧
        t.ck.entry.get none d = none ∧
        t.ck.waking.get none d = some { fromOff := false, since := s.now, late := false }) ∧
    (∀ e, s.ck.entry.get none d = some e → e.wake = false →
      (e.target = 1 →
        ∃ t, exec (.entryComplete d) s = .next t ∧ ckOnly t ∧ t.domState d = 1 ∧
          t.ck.entry.get none d = none) ∧
      (e.target = 0 → d.val = 1 →
        ∃ t, exec (.entryComplete d) s = .next t ∧ t.domState d = 0 ∧
          (∀ off, off / 0x100000 ∈ [BLK_BA, BLK_DS, BLK_DL, BLK_BQ] → t.reg off = regReset off) ∧
          (∀ off, off / 0x100000 ∉ [BLK_BA, BLK_DS, BLK_DL, BLK_BQ, BLK_CK] → t.reg off = s.reg off) ∧
          (∀ a, SRAM_BASE ≤ a → a < SRAM_BASE + 0x4000000 → memByte t.mem a = 0) ∧
          t.ds = DsSt.reset ∧ t.adm = s.adm ∧ t.ve = s.ve))

/-- R456 to R459: the requests and the changes of state of the fast domains.
Choices of the model, not of the spec: a request refused under R459 writes WAKESRC (log entry 65).
Where its event has not occurred, a command changes nothing: the model's choice (log entry 2). -/
def Obligations.DomainsSleepAndWake : Prop := domainRequests ∧ fastDomainsSleepAndWake

/-! ### Boot -/

/-- R461, R463, R464, R467, R468: the flash is read in the mode that its SFDP table gives, the secondary slot from half
the density; the primary image boots when it is valid, else the secondary one, which is reported,
and with neither valid the device enters recovery, where PROT is locked over the fixed setup. The setup of
the image is locked with its CRC, and the Sagger and CC0 run. -/
def bootVerifiesAndLocks : Prop :=
  (∀ s : State, s.bootPhase = 1 →
    let img := fun second => flashImage (s.flashSlot second)
    let rp := imgReason [1] s.boot.fuseSvn (img false)
    let rq := imgReason [1] s.boot.fuseSvn (img true)
    ∃ t, exec .boot s = .next t ∧ (∀ a, SG_MEM ≤ a → a < SG_MEM + 0x100000 → memByte t.mem a = 0) ∧
      MemBut s t SG_MEM 0x100000 ∧ t.boot.mode = some flashMode ∧
      Frame { s with mem := t.mem, poison := t.poison, boot := t.boot } t [BOOT_STAT] [] ∧
      (if rp = 0 then
        t.bootPhase = 5 ∧ t.fld BOOT_STAT BOOT_STAT_SLOT = 0 ∧
          t.boot.image = some ((img false).getD [])
      else if rq = 0 then
        t.bootPhase = 5 ∧ t.fld BOOT_STAT BOOT_STAT_SLOT = 1 ∧
          t.boot.image = some ((img true).getD []) ∧ Reported s t 0x2682 0xFF 0
      else t.bootPhase = 4 ∧ t.boot.image = s.boot.image ∧
        t.fld BOOT_STAT BOOT_STAT_REASON = rq)) ∧
  (∀ s : State, s.bootPhase ≠ 1 → exec .boot s = .next s) ∧
  (∀ s : State, s.bootPhase ≠ 4 ∨ s.boot.image ≠ none → exec .recovery s = .next s) ∧
  (∀ s : State, s.bootPhase ≠ 5 ∨ s.boot.image = none → exec .protLock s = .next s) ∧
  (∀ s : State, s.bootPhase = 4 → s.boot.image = none →
    ∃ t, exec .recovery s = .next t ∧ t.bootPhase = 7 ∧ t.bit PROT_LOCK PROT_LOCK_LOCK = true ∧
      t.reg PROT_CRC = crc32c t.protSetup ∧ Reported s t 0x2684 0xFF 0 ∧ t.mem = s.mem ∧
      t.permits .host STAGING true = true ∧ t.permits .host (SG_MEM) false = false) ∧
  (∀ (s : State) (img : List Byte), s.bootPhase = 5 → s.boot.image = some img →
    ∃ t, exec .protLock s = .next t ∧ t.bootPhase = 6 ∧ t.bit PROT_LOCK PROT_LOCK_LOCK = true ∧
      t.reg PROT_CRC = crc32c t.protSetup ∧ t.boot.image = none ∧ t.si.running = true ∧
      t.sg.running = true ∧ (t.ccAt 0).running = true ∧ t.unit 212 = 0)

/-- R464, R470, R471: the commands of BOOT_VCMD are taken one at a time, PROGRAM in recovery only; a verification
shows its result and reason, an invalid image is reported, a valid HOLD_IMAGE is held, and a valid PROGRAM
is written to the primary slot, read back and verified, and resets the device. The fuses advance to the booted image's SVN, by SI only. -/
def imagesAreVerifiedOnCommand : Prop :=
  (∀ s : State,
    let starts (i : Instr) (op : Nat) : Prop :=
      ∃ t, exec i s = .next t ∧ t.bit BOOT_VSTAT BOOT_VSTAT_BUSY = true ∧
        t.boot.verify = some { op := op, addr := s.reg64 BOOT_VADDR_LO BOOT_VADDR_HI } ∧
        t = { s with regs := t.regs, boot := t.boot } ∧ RegsBut s t [BOOT_VSTAT]
    let refuses (i : Instr) : Prop :=
      ∃ t, exec i s = .next t ∧ t.fld BOOT_VSTAT BOOT_VSTAT_RESULT = 3 ∧ Reported s t 0x0681 0xFF 0 ∧
        Frame s t [BOOT_VSTAT] []
    (s.bit BOOT_VSTAT BOOT_VSTAT_BUSY = false → starts .verify 1 ∧ starts .holdImage 2) ∧
    (s.bit BOOT_VSTAT BOOT_VSTAT_BUSY = true → refuses .verify ∧ refuses .holdImage ∧ refuses .program) ∧
    (s.bit BOOT_VSTAT BOOT_VSTAT_BUSY = false → s.bootPhase = 7 → starts .program 3) ∧
    (s.bootPhase ≠ 7 → refuses .program)) ∧
  (∀ s : State, s.boot.verify = none → exec .verifyDone s = .next s) ∧
  (∀ (s : State) (x : VerifyOp), s.boot.verify = some x → x.op = 1 ∨ x.op = 2 ∨ x.op = 3 →
    let r0 := s.memReason (if x.op = 1 then [1, 2, 3] else if x.op = 2 then [2] else [1]) x.addr
    let written := ((s.memImage x.addr).getD []).take (flashDensity / 2)
    let r := if x.op = 3 ∧ r0 = 0 then imgReason [1] s.boot.fuseSvn (flashImage written) else r0
    ∃ t, exec .verifyDone s = .next t ∧
      (if r ≠ 0 ∨ x.op ≠ 3 then
        t.bit BOOT_VSTAT BOOT_VSTAT_BUSY = false ∧ t.boot.verify = none ∧
        t.fld BOOT_VSTAT BOOT_VSTAT_RESULT = (if r = 0 then 1 else 2) ∧
        t.fld BOOT_VSTAT BOOT_VSTAT_REASON = r ∧
        (r ≠ 0 → t.si.blkLoss.get false (codeBlk 0x0681) = true ∨
          ∃ f, f ∈ t.si.queues.get [] (codeBlk 0x0681) ∧ f.code = 0x0681) ∧
        (x.op = 3 → r0 = 0 → t.boot.flashP = written) ∧ (x.op ≠ 3 ∨ r0 ≠ 0 → t.boot.flashP = s.boot.flashP) ∧
        Frame { s.withDram t with boot := t.boot } t
          (BOOT_VSTAT :: MC_CNT 1 :: dramRegs ++
            if r = 0 ∧ x.op = 2 then [BOOT_CCIMG_LO, BOOT_CCIMG_HI] else []) [BLK_MC]
      else (∀ off, t.reg off = regReset off) ∧ t.pending = s.pending ∧
        t.boot.flashP = written ∧ t.boot.flashS = s.boot.flashS)) ∧
  (∀ (s : State) (v : Word), s.permits .si (regAddr BOOT_SVN_ADV) true = true →
    (v.getLsbD 0 = true → s.boot.fuseSvn < s.boot.imageSvn →
      ∃ t, exec (.svnAdv .si v) s = .next t ∧ t.boot.fuseSvn = s.boot.imageSvn ∧
        t = { s.busGrant .si with regs := t.regs, boot := { s.boot with fuseSvn := s.boot.imageSvn } } ∧
        RegsBut s t [BOOT_STAT]) ∧
    (v.getLsbD 0 = false ∨ s.boot.imageSvn ≤ s.boot.fuseSvn →
      exec (.svnAdv .si v) s = .next (s.busGrant .si))) ∧
  (∀ (s : State) (m : Master) (v : Word),
    (m ≠ .si → s.permits m (regAddr BOOT_SVN_ADV) true = true →
      exec (.svnAdv m v) s = .next (s.busGrant m)) ∧
    Denied s m BOOT_SVN_ADV true (.svnAdv m v))

/-- R463, R464, R467, R468, R470, R471: boot and images.
Choices of the model, not of the spec: the layout of the flash's SFDP table is JESD216's (PRESUMED) (log
entry 66); VERIFY takes any kind of image, and the fixed setup of recovery has two regions of the host (log
entry 67); PROT_LOCK ends the setup of an image that boots (log entry 68).
Where its event has not occurred, a command changes nothing: the model's choice (log entry 2). -/
def Obligations.ImagesBootAndAreVerified : Prop := bootVerifiesAndLocks ∧ imagesAreVerifiedOnCommand
end

