-- ==== Sys2Proof/Laws/State.lean ====
section
/-!
SUPPORT. Each field of the state after each update of one part of it: one lemma per field and update,
so that no proof unfolds a record update.
-/

namespace Sys2Proof.Machine

variable (s : State)

/-! ### `State.onTop` -/

@[simp] theorem onTop_pending (f : TopSt → TopSt) : (s.onTop f).pending = s.pending := rfl
@[simp] theorem onTop_now (f : TopSt → TopSt) : (s.onTop f).now = s.now := rfl
@[simp] theorem onTop_freeIx (f : TopSt → TopSt) : (s.onTop f).freeIx = s.freeIx := rfl
@[simp] theorem onTop_regs (f : TopSt → TopSt) : (s.onTop f).regs = s.regs := rfl
@[simp] theorem onTop_mem (f : TopSt → TopSt) : (s.onTop f).mem = s.mem := rfl
@[simp] theorem onTop_poison (f : TopSt → TopSt) : (s.onTop f).poison = s.poison := rfl
@[simp] theorem onTop_dcache (f : TopSt → TopSt) : (s.onTop f).dcache = s.dcache := rfl
@[simp] theorem onTop_top (f : TopSt → TopSt) : (s.onTop f).top = f s.top := rfl
@[simp] theorem onTop_hi (f : TopSt → TopSt) : (s.onTop f).hi = s.hi := rfl
@[simp] theorem onTop_cc (f : TopSt → TopSt) : (s.onTop f).cc = s.cc := rfl
@[simp] theorem onTop_sg (f : TopSt → TopSt) : (s.onTop f).sg = s.sg := rfl
@[simp] theorem onTop_xc (f : TopSt → TopSt) : (s.onTop f).xc = s.xc := rfl
@[simp] theorem onTop_adm (f : TopSt → TopSt) : (s.onTop f).adm = s.adm := rfl
@[simp] theorem onTop_si (f : TopSt → TopSt) : (s.onTop f).si = s.si := rfl
@[simp] theorem onTop_ck (f : TopSt → TopSt) : (s.onTop f).ck = s.ck := rfl
@[simp] theorem onTop_boot (f : TopSt → TopSt) : (s.onTop f).boot = s.boot := rfl
@[simp] theorem onTop_dma (f : TopSt → TopSt) : (s.onTop f).dma = s.dma := rfl
@[simp] theorem onTop_st (f : TopSt → TopSt) : (s.onTop f).st = s.st := rfl
@[simp] theorem onTop_lc (f : TopSt → TopSt) : (s.onTop f).lc = s.lc := rfl
@[simp] theorem onTop_fs (f : TopSt → TopSt) : (s.onTop f).fs = s.fs := rfl
@[simp] theorem onTop_ds (f : TopSt → TopSt) : (s.onTop f).ds = s.ds := rfl
@[simp] theorem onTop_dl (f : TopSt → TopSt) : (s.onTop f).dl = s.dl := rfl
@[simp] theorem onTop_cxr (f : TopSt → TopSt) : (s.onTop f).cxr = s.cxr := rfl
@[simp] theorem onTop_ip (f : TopSt → TopSt) : (s.onTop f).ip = s.ip := rfl
@[simp] theorem onTop_ve (f : TopSt → TopSt) : (s.onTop f).ve = s.ve := rfl
@[simp] theorem onTop_tb (f : TopSt → TopSt) : (s.onTop f).tb = s.tb := rfl
@[simp] theorem onTop_en (f : TopSt → TopSt) : (s.onTop f).en = s.en := rfl
@[simp] theorem onTop_mx (f : TopSt → TopSt) : (s.onTop f).mx = s.mx := rfl
@[simp] theorem onTop_qe (f : TopSt → TopSt) : (s.onTop f).qe = s.qe := rfl
@[simp] theorem onTop_le (f : TopSt → TopSt) : (s.onTop f).le = s.le := rfl
@[simp] theorem onTop_mc (f : TopSt → TopSt) : (s.onTop f).mc = s.mc := rfl
@[simp] theorem onTop_cv (f : TopSt → TopSt) : (s.onTop f).cv = s.cv := rfl

/-! ### `State.onSi` -/

@[simp] theorem onSi_pending (f : SiSt → SiSt) : (s.onSi f).pending = s.pending := rfl
@[simp] theorem onSi_now (f : SiSt → SiSt) : (s.onSi f).now = s.now := rfl
@[simp] theorem onSi_freeIx (f : SiSt → SiSt) : (s.onSi f).freeIx = s.freeIx := rfl
@[simp] theorem onSi_regs (f : SiSt → SiSt) : (s.onSi f).regs = s.regs := rfl
@[simp] theorem onSi_mem (f : SiSt → SiSt) : (s.onSi f).mem = s.mem := rfl
@[simp] theorem onSi_poison (f : SiSt → SiSt) : (s.onSi f).poison = s.poison := rfl
@[simp] theorem onSi_dcache (f : SiSt → SiSt) : (s.onSi f).dcache = s.dcache := rfl
@[simp] theorem onSi_top (f : SiSt → SiSt) : (s.onSi f).top = s.top := rfl
@[simp] theorem onSi_hi (f : SiSt → SiSt) : (s.onSi f).hi = s.hi := rfl
@[simp] theorem onSi_cc (f : SiSt → SiSt) : (s.onSi f).cc = s.cc := rfl
@[simp] theorem onSi_sg (f : SiSt → SiSt) : (s.onSi f).sg = s.sg := rfl
@[simp] theorem onSi_xc (f : SiSt → SiSt) : (s.onSi f).xc = s.xc := rfl
@[simp] theorem onSi_adm (f : SiSt → SiSt) : (s.onSi f).adm = s.adm := rfl
@[simp] theorem onSi_si (f : SiSt → SiSt) : (s.onSi f).si = f s.si := rfl
@[simp] theorem onSi_ck (f : SiSt → SiSt) : (s.onSi f).ck = s.ck := rfl
@[simp] theorem onSi_boot (f : SiSt → SiSt) : (s.onSi f).boot = s.boot := rfl
@[simp] theorem onSi_dma (f : SiSt → SiSt) : (s.onSi f).dma = s.dma := rfl
@[simp] theorem onSi_st (f : SiSt → SiSt) : (s.onSi f).st = s.st := rfl
@[simp] theorem onSi_lc (f : SiSt → SiSt) : (s.onSi f).lc = s.lc := rfl
@[simp] theorem onSi_fs (f : SiSt → SiSt) : (s.onSi f).fs = s.fs := rfl
@[simp] theorem onSi_ds (f : SiSt → SiSt) : (s.onSi f).ds = s.ds := rfl
@[simp] theorem onSi_dl (f : SiSt → SiSt) : (s.onSi f).dl = s.dl := rfl
@[simp] theorem onSi_cxr (f : SiSt → SiSt) : (s.onSi f).cxr = s.cxr := rfl
@[simp] theorem onSi_ip (f : SiSt → SiSt) : (s.onSi f).ip = s.ip := rfl
@[simp] theorem onSi_ve (f : SiSt → SiSt) : (s.onSi f).ve = s.ve := rfl
@[simp] theorem onSi_tb (f : SiSt → SiSt) : (s.onSi f).tb = s.tb := rfl
@[simp] theorem onSi_en (f : SiSt → SiSt) : (s.onSi f).en = s.en := rfl
@[simp] theorem onSi_mx (f : SiSt → SiSt) : (s.onSi f).mx = s.mx := rfl
@[simp] theorem onSi_qe (f : SiSt → SiSt) : (s.onSi f).qe = s.qe := rfl
@[simp] theorem onSi_le (f : SiSt → SiSt) : (s.onSi f).le = s.le := rfl
@[simp] theorem onSi_mc (f : SiSt → SiSt) : (s.onSi f).mc = s.mc := rfl
@[simp] theorem onSi_cv (f : SiSt → SiSt) : (s.onSi f).cv = s.cv := rfl

/-! ### `State.onAdm` -/

@[simp] theorem onAdm_pending (f : AdmSt → AdmSt) : (s.onAdm f).pending = s.pending := rfl
@[simp] theorem onAdm_now (f : AdmSt → AdmSt) : (s.onAdm f).now = s.now := rfl
@[simp] theorem onAdm_freeIx (f : AdmSt → AdmSt) : (s.onAdm f).freeIx = s.freeIx := rfl
@[simp] theorem onAdm_regs (f : AdmSt → AdmSt) : (s.onAdm f).regs = s.regs := rfl
@[simp] theorem onAdm_mem (f : AdmSt → AdmSt) : (s.onAdm f).mem = s.mem := rfl
@[simp] theorem onAdm_poison (f : AdmSt → AdmSt) : (s.onAdm f).poison = s.poison := rfl
@[simp] theorem onAdm_dcache (f : AdmSt → AdmSt) : (s.onAdm f).dcache = s.dcache := rfl
@[simp] theorem onAdm_top (f : AdmSt → AdmSt) : (s.onAdm f).top = s.top := rfl
@[simp] theorem onAdm_hi (f : AdmSt → AdmSt) : (s.onAdm f).hi = s.hi := rfl
@[simp] theorem onAdm_cc (f : AdmSt → AdmSt) : (s.onAdm f).cc = s.cc := rfl
@[simp] theorem onAdm_sg (f : AdmSt → AdmSt) : (s.onAdm f).sg = s.sg := rfl
@[simp] theorem onAdm_xc (f : AdmSt → AdmSt) : (s.onAdm f).xc = s.xc := rfl
@[simp] theorem onAdm_adm (f : AdmSt → AdmSt) : (s.onAdm f).adm = f s.adm := rfl
@[simp] theorem onAdm_si (f : AdmSt → AdmSt) : (s.onAdm f).si = s.si := rfl
@[simp] theorem onAdm_ck (f : AdmSt → AdmSt) : (s.onAdm f).ck = s.ck := rfl
@[simp] theorem onAdm_boot (f : AdmSt → AdmSt) : (s.onAdm f).boot = s.boot := rfl
@[simp] theorem onAdm_dma (f : AdmSt → AdmSt) : (s.onAdm f).dma = s.dma := rfl
@[simp] theorem onAdm_st (f : AdmSt → AdmSt) : (s.onAdm f).st = s.st := rfl
@[simp] theorem onAdm_lc (f : AdmSt → AdmSt) : (s.onAdm f).lc = s.lc := rfl
@[simp] theorem onAdm_fs (f : AdmSt → AdmSt) : (s.onAdm f).fs = s.fs := rfl
@[simp] theorem onAdm_ds (f : AdmSt → AdmSt) : (s.onAdm f).ds = s.ds := rfl
@[simp] theorem onAdm_dl (f : AdmSt → AdmSt) : (s.onAdm f).dl = s.dl := rfl
@[simp] theorem onAdm_cxr (f : AdmSt → AdmSt) : (s.onAdm f).cxr = s.cxr := rfl
@[simp] theorem onAdm_ip (f : AdmSt → AdmSt) : (s.onAdm f).ip = s.ip := rfl
@[simp] theorem onAdm_ve (f : AdmSt → AdmSt) : (s.onAdm f).ve = s.ve := rfl
@[simp] theorem onAdm_tb (f : AdmSt → AdmSt) : (s.onAdm f).tb = s.tb := rfl
@[simp] theorem onAdm_en (f : AdmSt → AdmSt) : (s.onAdm f).en = s.en := rfl
@[simp] theorem onAdm_mx (f : AdmSt → AdmSt) : (s.onAdm f).mx = s.mx := rfl
@[simp] theorem onAdm_qe (f : AdmSt → AdmSt) : (s.onAdm f).qe = s.qe := rfl
@[simp] theorem onAdm_le (f : AdmSt → AdmSt) : (s.onAdm f).le = s.le := rfl
@[simp] theorem onAdm_mc (f : AdmSt → AdmSt) : (s.onAdm f).mc = s.mc := rfl
@[simp] theorem onAdm_cv (f : AdmSt → AdmSt) : (s.onAdm f).cv = s.cv := rfl

/-! ### `State.onCk` -/

@[simp] theorem onCk_pending (f : CkSt → CkSt) : (s.onCk f).pending = s.pending := rfl
@[simp] theorem onCk_now (f : CkSt → CkSt) : (s.onCk f).now = s.now := rfl
@[simp] theorem onCk_freeIx (f : CkSt → CkSt) : (s.onCk f).freeIx = s.freeIx := rfl
@[simp] theorem onCk_regs (f : CkSt → CkSt) : (s.onCk f).regs = s.regs := rfl
@[simp] theorem onCk_mem (f : CkSt → CkSt) : (s.onCk f).mem = s.mem := rfl
@[simp] theorem onCk_poison (f : CkSt → CkSt) : (s.onCk f).poison = s.poison := rfl
@[simp] theorem onCk_dcache (f : CkSt → CkSt) : (s.onCk f).dcache = s.dcache := rfl
@[simp] theorem onCk_top (f : CkSt → CkSt) : (s.onCk f).top = s.top := rfl
@[simp] theorem onCk_hi (f : CkSt → CkSt) : (s.onCk f).hi = s.hi := rfl
@[simp] theorem onCk_cc (f : CkSt → CkSt) : (s.onCk f).cc = s.cc := rfl
@[simp] theorem onCk_sg (f : CkSt → CkSt) : (s.onCk f).sg = s.sg := rfl
@[simp] theorem onCk_xc (f : CkSt → CkSt) : (s.onCk f).xc = s.xc := rfl
@[simp] theorem onCk_adm (f : CkSt → CkSt) : (s.onCk f).adm = s.adm := rfl
@[simp] theorem onCk_si (f : CkSt → CkSt) : (s.onCk f).si = s.si := rfl
@[simp] theorem onCk_ck (f : CkSt → CkSt) : (s.onCk f).ck = f s.ck := rfl
@[simp] theorem onCk_boot (f : CkSt → CkSt) : (s.onCk f).boot = s.boot := rfl
@[simp] theorem onCk_dma (f : CkSt → CkSt) : (s.onCk f).dma = s.dma := rfl
@[simp] theorem onCk_st (f : CkSt → CkSt) : (s.onCk f).st = s.st := rfl
@[simp] theorem onCk_lc (f : CkSt → CkSt) : (s.onCk f).lc = s.lc := rfl
@[simp] theorem onCk_fs (f : CkSt → CkSt) : (s.onCk f).fs = s.fs := rfl
@[simp] theorem onCk_ds (f : CkSt → CkSt) : (s.onCk f).ds = s.ds := rfl
@[simp] theorem onCk_dl (f : CkSt → CkSt) : (s.onCk f).dl = s.dl := rfl
@[simp] theorem onCk_cxr (f : CkSt → CkSt) : (s.onCk f).cxr = s.cxr := rfl
@[simp] theorem onCk_ip (f : CkSt → CkSt) : (s.onCk f).ip = s.ip := rfl
@[simp] theorem onCk_ve (f : CkSt → CkSt) : (s.onCk f).ve = s.ve := rfl
@[simp] theorem onCk_tb (f : CkSt → CkSt) : (s.onCk f).tb = s.tb := rfl
@[simp] theorem onCk_en (f : CkSt → CkSt) : (s.onCk f).en = s.en := rfl
@[simp] theorem onCk_mx (f : CkSt → CkSt) : (s.onCk f).mx = s.mx := rfl
@[simp] theorem onCk_qe (f : CkSt → CkSt) : (s.onCk f).qe = s.qe := rfl
@[simp] theorem onCk_le (f : CkSt → CkSt) : (s.onCk f).le = s.le := rfl
@[simp] theorem onCk_mc (f : CkSt → CkSt) : (s.onCk f).mc = s.mc := rfl
@[simp] theorem onCk_cv (f : CkSt → CkSt) : (s.onCk f).cv = s.cv := rfl

/-! ### `State.onBoot` -/

@[simp] theorem onBoot_pending (f : BootSt → BootSt) : (s.onBoot f).pending = s.pending := rfl
@[simp] theorem onBoot_now (f : BootSt → BootSt) : (s.onBoot f).now = s.now := rfl
@[simp] theorem onBoot_freeIx (f : BootSt → BootSt) : (s.onBoot f).freeIx = s.freeIx := rfl
@[simp] theorem onBoot_regs (f : BootSt → BootSt) : (s.onBoot f).regs = s.regs := rfl
@[simp] theorem onBoot_mem (f : BootSt → BootSt) : (s.onBoot f).mem = s.mem := rfl
@[simp] theorem onBoot_poison (f : BootSt → BootSt) : (s.onBoot f).poison = s.poison := rfl
@[simp] theorem onBoot_dcache (f : BootSt → BootSt) : (s.onBoot f).dcache = s.dcache := rfl
@[simp] theorem onBoot_top (f : BootSt → BootSt) : (s.onBoot f).top = s.top := rfl
@[simp] theorem onBoot_hi (f : BootSt → BootSt) : (s.onBoot f).hi = s.hi := rfl
@[simp] theorem onBoot_cc (f : BootSt → BootSt) : (s.onBoot f).cc = s.cc := rfl
@[simp] theorem onBoot_sg (f : BootSt → BootSt) : (s.onBoot f).sg = s.sg := rfl
@[simp] theorem onBoot_xc (f : BootSt → BootSt) : (s.onBoot f).xc = s.xc := rfl
@[simp] theorem onBoot_adm (f : BootSt → BootSt) : (s.onBoot f).adm = s.adm := rfl
@[simp] theorem onBoot_si (f : BootSt → BootSt) : (s.onBoot f).si = s.si := rfl
@[simp] theorem onBoot_ck (f : BootSt → BootSt) : (s.onBoot f).ck = s.ck := rfl
@[simp] theorem onBoot_boot (f : BootSt → BootSt) : (s.onBoot f).boot = f s.boot := rfl
@[simp] theorem onBoot_dma (f : BootSt → BootSt) : (s.onBoot f).dma = s.dma := rfl
@[simp] theorem onBoot_st (f : BootSt → BootSt) : (s.onBoot f).st = s.st := rfl
@[simp] theorem onBoot_lc (f : BootSt → BootSt) : (s.onBoot f).lc = s.lc := rfl
@[simp] theorem onBoot_fs (f : BootSt → BootSt) : (s.onBoot f).fs = s.fs := rfl
@[simp] theorem onBoot_ds (f : BootSt → BootSt) : (s.onBoot f).ds = s.ds := rfl
@[simp] theorem onBoot_dl (f : BootSt → BootSt) : (s.onBoot f).dl = s.dl := rfl
@[simp] theorem onBoot_cxr (f : BootSt → BootSt) : (s.onBoot f).cxr = s.cxr := rfl
@[simp] theorem onBoot_ip (f : BootSt → BootSt) : (s.onBoot f).ip = s.ip := rfl
@[simp] theorem onBoot_ve (f : BootSt → BootSt) : (s.onBoot f).ve = s.ve := rfl
@[simp] theorem onBoot_tb (f : BootSt → BootSt) : (s.onBoot f).tb = s.tb := rfl
@[simp] theorem onBoot_en (f : BootSt → BootSt) : (s.onBoot f).en = s.en := rfl
@[simp] theorem onBoot_mx (f : BootSt → BootSt) : (s.onBoot f).mx = s.mx := rfl
@[simp] theorem onBoot_qe (f : BootSt → BootSt) : (s.onBoot f).qe = s.qe := rfl
@[simp] theorem onBoot_le (f : BootSt → BootSt) : (s.onBoot f).le = s.le := rfl
@[simp] theorem onBoot_mc (f : BootSt → BootSt) : (s.onBoot f).mc = s.mc := rfl
@[simp] theorem onBoot_cv (f : BootSt → BootSt) : (s.onBoot f).cv = s.cv := rfl

/-! ### `State.onSt` -/

@[simp] theorem onSt_pending (f : StSt → StSt) : (s.onSt f).pending = s.pending := rfl
@[simp] theorem onSt_now (f : StSt → StSt) : (s.onSt f).now = s.now := rfl
@[simp] theorem onSt_freeIx (f : StSt → StSt) : (s.onSt f).freeIx = s.freeIx := rfl
@[simp] theorem onSt_regs (f : StSt → StSt) : (s.onSt f).regs = s.regs := rfl
@[simp] theorem onSt_mem (f : StSt → StSt) : (s.onSt f).mem = s.mem := rfl
@[simp] theorem onSt_poison (f : StSt → StSt) : (s.onSt f).poison = s.poison := rfl
@[simp] theorem onSt_dcache (f : StSt → StSt) : (s.onSt f).dcache = s.dcache := rfl
@[simp] theorem onSt_top (f : StSt → StSt) : (s.onSt f).top = s.top := rfl
@[simp] theorem onSt_hi (f : StSt → StSt) : (s.onSt f).hi = s.hi := rfl
@[simp] theorem onSt_cc (f : StSt → StSt) : (s.onSt f).cc = s.cc := rfl
@[simp] theorem onSt_sg (f : StSt → StSt) : (s.onSt f).sg = s.sg := rfl
@[simp] theorem onSt_xc (f : StSt → StSt) : (s.onSt f).xc = s.xc := rfl
@[simp] theorem onSt_adm (f : StSt → StSt) : (s.onSt f).adm = s.adm := rfl
@[simp] theorem onSt_si (f : StSt → StSt) : (s.onSt f).si = s.si := rfl
@[simp] theorem onSt_ck (f : StSt → StSt) : (s.onSt f).ck = s.ck := rfl
@[simp] theorem onSt_boot (f : StSt → StSt) : (s.onSt f).boot = s.boot := rfl
@[simp] theorem onSt_dma (f : StSt → StSt) : (s.onSt f).dma = s.dma := rfl
@[simp] theorem onSt_st (f : StSt → StSt) : (s.onSt f).st = f s.st := rfl
@[simp] theorem onSt_lc (f : StSt → StSt) : (s.onSt f).lc = s.lc := rfl
@[simp] theorem onSt_fs (f : StSt → StSt) : (s.onSt f).fs = s.fs := rfl
@[simp] theorem onSt_ds (f : StSt → StSt) : (s.onSt f).ds = s.ds := rfl
@[simp] theorem onSt_dl (f : StSt → StSt) : (s.onSt f).dl = s.dl := rfl
@[simp] theorem onSt_cxr (f : StSt → StSt) : (s.onSt f).cxr = s.cxr := rfl
@[simp] theorem onSt_ip (f : StSt → StSt) : (s.onSt f).ip = s.ip := rfl
@[simp] theorem onSt_ve (f : StSt → StSt) : (s.onSt f).ve = s.ve := rfl
@[simp] theorem onSt_tb (f : StSt → StSt) : (s.onSt f).tb = s.tb := rfl
@[simp] theorem onSt_en (f : StSt → StSt) : (s.onSt f).en = s.en := rfl
@[simp] theorem onSt_mx (f : StSt → StSt) : (s.onSt f).mx = s.mx := rfl
@[simp] theorem onSt_qe (f : StSt → StSt) : (s.onSt f).qe = s.qe := rfl
@[simp] theorem onSt_le (f : StSt → StSt) : (s.onSt f).le = s.le := rfl
@[simp] theorem onSt_mc (f : StSt → StSt) : (s.onSt f).mc = s.mc := rfl
@[simp] theorem onSt_cv (f : StSt → StSt) : (s.onSt f).cv = s.cv := rfl

/-! ### `State.onLc` -/

@[simp] theorem onLc_pending (f : LcSt → LcSt) : (s.onLc f).pending = s.pending := rfl
@[simp] theorem onLc_now (f : LcSt → LcSt) : (s.onLc f).now = s.now := rfl
@[simp] theorem onLc_freeIx (f : LcSt → LcSt) : (s.onLc f).freeIx = s.freeIx := rfl
@[simp] theorem onLc_regs (f : LcSt → LcSt) : (s.onLc f).regs = s.regs := rfl
@[simp] theorem onLc_mem (f : LcSt → LcSt) : (s.onLc f).mem = s.mem := rfl
@[simp] theorem onLc_poison (f : LcSt → LcSt) : (s.onLc f).poison = s.poison := rfl
@[simp] theorem onLc_dcache (f : LcSt → LcSt) : (s.onLc f).dcache = s.dcache := rfl
@[simp] theorem onLc_top (f : LcSt → LcSt) : (s.onLc f).top = s.top := rfl
@[simp] theorem onLc_hi (f : LcSt → LcSt) : (s.onLc f).hi = s.hi := rfl
@[simp] theorem onLc_cc (f : LcSt → LcSt) : (s.onLc f).cc = s.cc := rfl
@[simp] theorem onLc_sg (f : LcSt → LcSt) : (s.onLc f).sg = s.sg := rfl
@[simp] theorem onLc_xc (f : LcSt → LcSt) : (s.onLc f).xc = s.xc := rfl
@[simp] theorem onLc_adm (f : LcSt → LcSt) : (s.onLc f).adm = s.adm := rfl
@[simp] theorem onLc_si (f : LcSt → LcSt) : (s.onLc f).si = s.si := rfl
@[simp] theorem onLc_ck (f : LcSt → LcSt) : (s.onLc f).ck = s.ck := rfl
@[simp] theorem onLc_boot (f : LcSt → LcSt) : (s.onLc f).boot = s.boot := rfl
@[simp] theorem onLc_dma (f : LcSt → LcSt) : (s.onLc f).dma = s.dma := rfl
@[simp] theorem onLc_st (f : LcSt → LcSt) : (s.onLc f).st = s.st := rfl
@[simp] theorem onLc_lc (f : LcSt → LcSt) : (s.onLc f).lc = f s.lc := rfl
@[simp] theorem onLc_fs (f : LcSt → LcSt) : (s.onLc f).fs = s.fs := rfl
@[simp] theorem onLc_ds (f : LcSt → LcSt) : (s.onLc f).ds = s.ds := rfl
@[simp] theorem onLc_dl (f : LcSt → LcSt) : (s.onLc f).dl = s.dl := rfl
@[simp] theorem onLc_cxr (f : LcSt → LcSt) : (s.onLc f).cxr = s.cxr := rfl
@[simp] theorem onLc_ip (f : LcSt → LcSt) : (s.onLc f).ip = s.ip := rfl
@[simp] theorem onLc_ve (f : LcSt → LcSt) : (s.onLc f).ve = s.ve := rfl
@[simp] theorem onLc_tb (f : LcSt → LcSt) : (s.onLc f).tb = s.tb := rfl
@[simp] theorem onLc_en (f : LcSt → LcSt) : (s.onLc f).en = s.en := rfl
@[simp] theorem onLc_mx (f : LcSt → LcSt) : (s.onLc f).mx = s.mx := rfl
@[simp] theorem onLc_qe (f : LcSt → LcSt) : (s.onLc f).qe = s.qe := rfl
@[simp] theorem onLc_le (f : LcSt → LcSt) : (s.onLc f).le = s.le := rfl
@[simp] theorem onLc_mc (f : LcSt → LcSt) : (s.onLc f).mc = s.mc := rfl
@[simp] theorem onLc_cv (f : LcSt → LcSt) : (s.onLc f).cv = s.cv := rfl

/-! ### `State.onFs` -/

@[simp] theorem onFs_pending (f : FsSt → FsSt) : (s.onFs f).pending = s.pending := rfl
@[simp] theorem onFs_now (f : FsSt → FsSt) : (s.onFs f).now = s.now := rfl
@[simp] theorem onFs_freeIx (f : FsSt → FsSt) : (s.onFs f).freeIx = s.freeIx := rfl
@[simp] theorem onFs_regs (f : FsSt → FsSt) : (s.onFs f).regs = s.regs := rfl
@[simp] theorem onFs_mem (f : FsSt → FsSt) : (s.onFs f).mem = s.mem := rfl
@[simp] theorem onFs_poison (f : FsSt → FsSt) : (s.onFs f).poison = s.poison := rfl
@[simp] theorem onFs_dcache (f : FsSt → FsSt) : (s.onFs f).dcache = s.dcache := rfl
@[simp] theorem onFs_top (f : FsSt → FsSt) : (s.onFs f).top = s.top := rfl
@[simp] theorem onFs_hi (f : FsSt → FsSt) : (s.onFs f).hi = s.hi := rfl
@[simp] theorem onFs_cc (f : FsSt → FsSt) : (s.onFs f).cc = s.cc := rfl
@[simp] theorem onFs_sg (f : FsSt → FsSt) : (s.onFs f).sg = s.sg := rfl
@[simp] theorem onFs_xc (f : FsSt → FsSt) : (s.onFs f).xc = s.xc := rfl
@[simp] theorem onFs_adm (f : FsSt → FsSt) : (s.onFs f).adm = s.adm := rfl
@[simp] theorem onFs_si (f : FsSt → FsSt) : (s.onFs f).si = s.si := rfl
@[simp] theorem onFs_ck (f : FsSt → FsSt) : (s.onFs f).ck = s.ck := rfl
@[simp] theorem onFs_boot (f : FsSt → FsSt) : (s.onFs f).boot = s.boot := rfl
@[simp] theorem onFs_dma (f : FsSt → FsSt) : (s.onFs f).dma = s.dma := rfl
@[simp] theorem onFs_st (f : FsSt → FsSt) : (s.onFs f).st = s.st := rfl
@[simp] theorem onFs_lc (f : FsSt → FsSt) : (s.onFs f).lc = s.lc := rfl
@[simp] theorem onFs_fs (f : FsSt → FsSt) : (s.onFs f).fs = f s.fs := rfl
@[simp] theorem onFs_ds (f : FsSt → FsSt) : (s.onFs f).ds = s.ds := rfl
@[simp] theorem onFs_dl (f : FsSt → FsSt) : (s.onFs f).dl = s.dl := rfl
@[simp] theorem onFs_cxr (f : FsSt → FsSt) : (s.onFs f).cxr = s.cxr := rfl
@[simp] theorem onFs_ip (f : FsSt → FsSt) : (s.onFs f).ip = s.ip := rfl
@[simp] theorem onFs_ve (f : FsSt → FsSt) : (s.onFs f).ve = s.ve := rfl
@[simp] theorem onFs_tb (f : FsSt → FsSt) : (s.onFs f).tb = s.tb := rfl
@[simp] theorem onFs_en (f : FsSt → FsSt) : (s.onFs f).en = s.en := rfl
@[simp] theorem onFs_mx (f : FsSt → FsSt) : (s.onFs f).mx = s.mx := rfl
@[simp] theorem onFs_qe (f : FsSt → FsSt) : (s.onFs f).qe = s.qe := rfl
@[simp] theorem onFs_le (f : FsSt → FsSt) : (s.onFs f).le = s.le := rfl
@[simp] theorem onFs_mc (f : FsSt → FsSt) : (s.onFs f).mc = s.mc := rfl
@[simp] theorem onFs_cv (f : FsSt → FsSt) : (s.onFs f).cv = s.cv := rfl

/-! ### `State.onDs` -/

@[simp] theorem onDs_pending (f : DsSt → DsSt) : (s.onDs f).pending = s.pending := rfl
@[simp] theorem onDs_now (f : DsSt → DsSt) : (s.onDs f).now = s.now := rfl
@[simp] theorem onDs_freeIx (f : DsSt → DsSt) : (s.onDs f).freeIx = s.freeIx := rfl
@[simp] theorem onDs_regs (f : DsSt → DsSt) : (s.onDs f).regs = s.regs := rfl
@[simp] theorem onDs_mem (f : DsSt → DsSt) : (s.onDs f).mem = s.mem := rfl
@[simp] theorem onDs_poison (f : DsSt → DsSt) : (s.onDs f).poison = s.poison := rfl
@[simp] theorem onDs_dcache (f : DsSt → DsSt) : (s.onDs f).dcache = s.dcache := rfl
@[simp] theorem onDs_top (f : DsSt → DsSt) : (s.onDs f).top = s.top := rfl
@[simp] theorem onDs_hi (f : DsSt → DsSt) : (s.onDs f).hi = s.hi := rfl
@[simp] theorem onDs_cc (f : DsSt → DsSt) : (s.onDs f).cc = s.cc := rfl
@[simp] theorem onDs_sg (f : DsSt → DsSt) : (s.onDs f).sg = s.sg := rfl
@[simp] theorem onDs_xc (f : DsSt → DsSt) : (s.onDs f).xc = s.xc := rfl
@[simp] theorem onDs_adm (f : DsSt → DsSt) : (s.onDs f).adm = s.adm := rfl
@[simp] theorem onDs_si (f : DsSt → DsSt) : (s.onDs f).si = s.si := rfl
@[simp] theorem onDs_ck (f : DsSt → DsSt) : (s.onDs f).ck = s.ck := rfl
@[simp] theorem onDs_boot (f : DsSt → DsSt) : (s.onDs f).boot = s.boot := rfl
@[simp] theorem onDs_dma (f : DsSt → DsSt) : (s.onDs f).dma = s.dma := rfl
@[simp] theorem onDs_st (f : DsSt → DsSt) : (s.onDs f).st = s.st := rfl
@[simp] theorem onDs_lc (f : DsSt → DsSt) : (s.onDs f).lc = s.lc := rfl
@[simp] theorem onDs_fs (f : DsSt → DsSt) : (s.onDs f).fs = s.fs := rfl
@[simp] theorem onDs_ds (f : DsSt → DsSt) : (s.onDs f).ds = f s.ds := rfl
@[simp] theorem onDs_dl (f : DsSt → DsSt) : (s.onDs f).dl = s.dl := rfl
@[simp] theorem onDs_cxr (f : DsSt → DsSt) : (s.onDs f).cxr = s.cxr := rfl
@[simp] theorem onDs_ip (f : DsSt → DsSt) : (s.onDs f).ip = s.ip := rfl
@[simp] theorem onDs_ve (f : DsSt → DsSt) : (s.onDs f).ve = s.ve := rfl
@[simp] theorem onDs_tb (f : DsSt → DsSt) : (s.onDs f).tb = s.tb := rfl
@[simp] theorem onDs_en (f : DsSt → DsSt) : (s.onDs f).en = s.en := rfl
@[simp] theorem onDs_mx (f : DsSt → DsSt) : (s.onDs f).mx = s.mx := rfl
@[simp] theorem onDs_qe (f : DsSt → DsSt) : (s.onDs f).qe = s.qe := rfl
@[simp] theorem onDs_le (f : DsSt → DsSt) : (s.onDs f).le = s.le := rfl
@[simp] theorem onDs_mc (f : DsSt → DsSt) : (s.onDs f).mc = s.mc := rfl
@[simp] theorem onDs_cv (f : DsSt → DsSt) : (s.onDs f).cv = s.cv := rfl

/-! ### `State.onTb` -/

@[simp] theorem onTb_pending (f : TbSt → TbSt) : (s.onTb f).pending = s.pending := rfl
@[simp] theorem onTb_now (f : TbSt → TbSt) : (s.onTb f).now = s.now := rfl
@[simp] theorem onTb_freeIx (f : TbSt → TbSt) : (s.onTb f).freeIx = s.freeIx := rfl
@[simp] theorem onTb_regs (f : TbSt → TbSt) : (s.onTb f).regs = s.regs := rfl
@[simp] theorem onTb_mem (f : TbSt → TbSt) : (s.onTb f).mem = s.mem := rfl
@[simp] theorem onTb_poison (f : TbSt → TbSt) : (s.onTb f).poison = s.poison := rfl
@[simp] theorem onTb_dcache (f : TbSt → TbSt) : (s.onTb f).dcache = s.dcache := rfl
@[simp] theorem onTb_top (f : TbSt → TbSt) : (s.onTb f).top = s.top := rfl
@[simp] theorem onTb_hi (f : TbSt → TbSt) : (s.onTb f).hi = s.hi := rfl
@[simp] theorem onTb_cc (f : TbSt → TbSt) : (s.onTb f).cc = s.cc := rfl
@[simp] theorem onTb_sg (f : TbSt → TbSt) : (s.onTb f).sg = s.sg := rfl
@[simp] theorem onTb_xc (f : TbSt → TbSt) : (s.onTb f).xc = s.xc := rfl
@[simp] theorem onTb_adm (f : TbSt → TbSt) : (s.onTb f).adm = s.adm := rfl
@[simp] theorem onTb_si (f : TbSt → TbSt) : (s.onTb f).si = s.si := rfl
@[simp] theorem onTb_ck (f : TbSt → TbSt) : (s.onTb f).ck = s.ck := rfl
@[simp] theorem onTb_boot (f : TbSt → TbSt) : (s.onTb f).boot = s.boot := rfl
@[simp] theorem onTb_dma (f : TbSt → TbSt) : (s.onTb f).dma = s.dma := rfl
@[simp] theorem onTb_st (f : TbSt → TbSt) : (s.onTb f).st = s.st := rfl
@[simp] theorem onTb_lc (f : TbSt → TbSt) : (s.onTb f).lc = s.lc := rfl
@[simp] theorem onTb_fs (f : TbSt → TbSt) : (s.onTb f).fs = s.fs := rfl
@[simp] theorem onTb_ds (f : TbSt → TbSt) : (s.onTb f).ds = s.ds := rfl
@[simp] theorem onTb_dl (f : TbSt → TbSt) : (s.onTb f).dl = s.dl := rfl
@[simp] theorem onTb_cxr (f : TbSt → TbSt) : (s.onTb f).cxr = s.cxr := rfl
@[simp] theorem onTb_ip (f : TbSt → TbSt) : (s.onTb f).ip = s.ip := rfl
@[simp] theorem onTb_ve (f : TbSt → TbSt) : (s.onTb f).ve = s.ve := rfl
@[simp] theorem onTb_tb (f : TbSt → TbSt) : (s.onTb f).tb = f s.tb := rfl
@[simp] theorem onTb_en (f : TbSt → TbSt) : (s.onTb f).en = s.en := rfl
@[simp] theorem onTb_mx (f : TbSt → TbSt) : (s.onTb f).mx = s.mx := rfl
@[simp] theorem onTb_qe (f : TbSt → TbSt) : (s.onTb f).qe = s.qe := rfl
@[simp] theorem onTb_le (f : TbSt → TbSt) : (s.onTb f).le = s.le := rfl
@[simp] theorem onTb_mc (f : TbSt → TbSt) : (s.onTb f).mc = s.mc := rfl
@[simp] theorem onTb_cv (f : TbSt → TbSt) : (s.onTb f).cv = s.cv := rfl

/-! ### `State.onVe` -/

@[simp] theorem onVe_pending (f : VeSt → VeSt) : (s.onVe f).pending = s.pending := rfl
@[simp] theorem onVe_now (f : VeSt → VeSt) : (s.onVe f).now = s.now := rfl
@[simp] theorem onVe_freeIx (f : VeSt → VeSt) : (s.onVe f).freeIx = s.freeIx := rfl
@[simp] theorem onVe_regs (f : VeSt → VeSt) : (s.onVe f).regs = s.regs := rfl
@[simp] theorem onVe_mem (f : VeSt → VeSt) : (s.onVe f).mem = s.mem := rfl
@[simp] theorem onVe_poison (f : VeSt → VeSt) : (s.onVe f).poison = s.poison := rfl
@[simp] theorem onVe_dcache (f : VeSt → VeSt) : (s.onVe f).dcache = s.dcache := rfl
@[simp] theorem onVe_top (f : VeSt → VeSt) : (s.onVe f).top = s.top := rfl
@[simp] theorem onVe_hi (f : VeSt → VeSt) : (s.onVe f).hi = s.hi := rfl
@[simp] theorem onVe_cc (f : VeSt → VeSt) : (s.onVe f).cc = s.cc := rfl
@[simp] theorem onVe_sg (f : VeSt → VeSt) : (s.onVe f).sg = s.sg := rfl
@[simp] theorem onVe_xc (f : VeSt → VeSt) : (s.onVe f).xc = s.xc := rfl
@[simp] theorem onVe_adm (f : VeSt → VeSt) : (s.onVe f).adm = s.adm := rfl
@[simp] theorem onVe_si (f : VeSt → VeSt) : (s.onVe f).si = s.si := rfl
@[simp] theorem onVe_ck (f : VeSt → VeSt) : (s.onVe f).ck = s.ck := rfl
@[simp] theorem onVe_boot (f : VeSt → VeSt) : (s.onVe f).boot = s.boot := rfl
@[simp] theorem onVe_dma (f : VeSt → VeSt) : (s.onVe f).dma = s.dma := rfl
@[simp] theorem onVe_st (f : VeSt → VeSt) : (s.onVe f).st = s.st := rfl
@[simp] theorem onVe_lc (f : VeSt → VeSt) : (s.onVe f).lc = s.lc := rfl
@[simp] theorem onVe_fs (f : VeSt → VeSt) : (s.onVe f).fs = s.fs := rfl
@[simp] theorem onVe_ds (f : VeSt → VeSt) : (s.onVe f).ds = s.ds := rfl
@[simp] theorem onVe_dl (f : VeSt → VeSt) : (s.onVe f).dl = s.dl := rfl
@[simp] theorem onVe_cxr (f : VeSt → VeSt) : (s.onVe f).cxr = s.cxr := rfl
@[simp] theorem onVe_ip (f : VeSt → VeSt) : (s.onVe f).ip = s.ip := rfl
@[simp] theorem onVe_ve (f : VeSt → VeSt) : (s.onVe f).ve = f s.ve := rfl
@[simp] theorem onVe_tb (f : VeSt → VeSt) : (s.onVe f).tb = s.tb := rfl
@[simp] theorem onVe_en (f : VeSt → VeSt) : (s.onVe f).en = s.en := rfl
@[simp] theorem onVe_mx (f : VeSt → VeSt) : (s.onVe f).mx = s.mx := rfl
@[simp] theorem onVe_qe (f : VeSt → VeSt) : (s.onVe f).qe = s.qe := rfl
@[simp] theorem onVe_le (f : VeSt → VeSt) : (s.onVe f).le = s.le := rfl
@[simp] theorem onVe_mc (f : VeSt → VeSt) : (s.onVe f).mc = s.mc := rfl
@[simp] theorem onVe_cv (f : VeSt → VeSt) : (s.onVe f).cv = s.cv := rfl

/-! ### `State.onIp` -/

@[simp] theorem onIp_pending (f : IpSt → IpSt) : (s.onIp f).pending = s.pending := rfl
@[simp] theorem onIp_now (f : IpSt → IpSt) : (s.onIp f).now = s.now := rfl
@[simp] theorem onIp_freeIx (f : IpSt → IpSt) : (s.onIp f).freeIx = s.freeIx := rfl
@[simp] theorem onIp_regs (f : IpSt → IpSt) : (s.onIp f).regs = s.regs := rfl
@[simp] theorem onIp_mem (f : IpSt → IpSt) : (s.onIp f).mem = s.mem := rfl
@[simp] theorem onIp_poison (f : IpSt → IpSt) : (s.onIp f).poison = s.poison := rfl
@[simp] theorem onIp_dcache (f : IpSt → IpSt) : (s.onIp f).dcache = s.dcache := rfl
@[simp] theorem onIp_top (f : IpSt → IpSt) : (s.onIp f).top = s.top := rfl
@[simp] theorem onIp_hi (f : IpSt → IpSt) : (s.onIp f).hi = s.hi := rfl
@[simp] theorem onIp_cc (f : IpSt → IpSt) : (s.onIp f).cc = s.cc := rfl
@[simp] theorem onIp_sg (f : IpSt → IpSt) : (s.onIp f).sg = s.sg := rfl
@[simp] theorem onIp_xc (f : IpSt → IpSt) : (s.onIp f).xc = s.xc := rfl
@[simp] theorem onIp_adm (f : IpSt → IpSt) : (s.onIp f).adm = s.adm := rfl
@[simp] theorem onIp_si (f : IpSt → IpSt) : (s.onIp f).si = s.si := rfl
@[simp] theorem onIp_ck (f : IpSt → IpSt) : (s.onIp f).ck = s.ck := rfl
@[simp] theorem onIp_boot (f : IpSt → IpSt) : (s.onIp f).boot = s.boot := rfl
@[simp] theorem onIp_dma (f : IpSt → IpSt) : (s.onIp f).dma = s.dma := rfl
@[simp] theorem onIp_st (f : IpSt → IpSt) : (s.onIp f).st = s.st := rfl
@[simp] theorem onIp_lc (f : IpSt → IpSt) : (s.onIp f).lc = s.lc := rfl
@[simp] theorem onIp_fs (f : IpSt → IpSt) : (s.onIp f).fs = s.fs := rfl
@[simp] theorem onIp_ds (f : IpSt → IpSt) : (s.onIp f).ds = s.ds := rfl
@[simp] theorem onIp_dl (f : IpSt → IpSt) : (s.onIp f).dl = s.dl := rfl
@[simp] theorem onIp_cxr (f : IpSt → IpSt) : (s.onIp f).cxr = s.cxr := rfl
@[simp] theorem onIp_ip (f : IpSt → IpSt) : (s.onIp f).ip = f s.ip := rfl
@[simp] theorem onIp_ve (f : IpSt → IpSt) : (s.onIp f).ve = s.ve := rfl
@[simp] theorem onIp_tb (f : IpSt → IpSt) : (s.onIp f).tb = s.tb := rfl
@[simp] theorem onIp_en (f : IpSt → IpSt) : (s.onIp f).en = s.en := rfl
@[simp] theorem onIp_mx (f : IpSt → IpSt) : (s.onIp f).mx = s.mx := rfl
@[simp] theorem onIp_qe (f : IpSt → IpSt) : (s.onIp f).qe = s.qe := rfl
@[simp] theorem onIp_le (f : IpSt → IpSt) : (s.onIp f).le = s.le := rfl
@[simp] theorem onIp_mc (f : IpSt → IpSt) : (s.onIp f).mc = s.mc := rfl
@[simp] theorem onIp_cv (f : IpSt → IpSt) : (s.onIp f).cv = s.cv := rfl

/-! ### `State.onLe` -/

@[simp] theorem onLe_pending (f : LeSt → LeSt) : (s.onLe f).pending = s.pending := rfl
@[simp] theorem onLe_now (f : LeSt → LeSt) : (s.onLe f).now = s.now := rfl
@[simp] theorem onLe_freeIx (f : LeSt → LeSt) : (s.onLe f).freeIx = s.freeIx := rfl
@[simp] theorem onLe_regs (f : LeSt → LeSt) : (s.onLe f).regs = s.regs := rfl
@[simp] theorem onLe_mem (f : LeSt → LeSt) : (s.onLe f).mem = s.mem := rfl
@[simp] theorem onLe_poison (f : LeSt → LeSt) : (s.onLe f).poison = s.poison := rfl
@[simp] theorem onLe_dcache (f : LeSt → LeSt) : (s.onLe f).dcache = s.dcache := rfl
@[simp] theorem onLe_top (f : LeSt → LeSt) : (s.onLe f).top = s.top := rfl
@[simp] theorem onLe_hi (f : LeSt → LeSt) : (s.onLe f).hi = s.hi := rfl
@[simp] theorem onLe_cc (f : LeSt → LeSt) : (s.onLe f).cc = s.cc := rfl
@[simp] theorem onLe_sg (f : LeSt → LeSt) : (s.onLe f).sg = s.sg := rfl
@[simp] theorem onLe_xc (f : LeSt → LeSt) : (s.onLe f).xc = s.xc := rfl
@[simp] theorem onLe_adm (f : LeSt → LeSt) : (s.onLe f).adm = s.adm := rfl
@[simp] theorem onLe_si (f : LeSt → LeSt) : (s.onLe f).si = s.si := rfl
@[simp] theorem onLe_ck (f : LeSt → LeSt) : (s.onLe f).ck = s.ck := rfl
@[simp] theorem onLe_boot (f : LeSt → LeSt) : (s.onLe f).boot = s.boot := rfl
@[simp] theorem onLe_dma (f : LeSt → LeSt) : (s.onLe f).dma = s.dma := rfl
@[simp] theorem onLe_st (f : LeSt → LeSt) : (s.onLe f).st = s.st := rfl
@[simp] theorem onLe_lc (f : LeSt → LeSt) : (s.onLe f).lc = s.lc := rfl
@[simp] theorem onLe_fs (f : LeSt → LeSt) : (s.onLe f).fs = s.fs := rfl
@[simp] theorem onLe_ds (f : LeSt → LeSt) : (s.onLe f).ds = s.ds := rfl
@[simp] theorem onLe_dl (f : LeSt → LeSt) : (s.onLe f).dl = s.dl := rfl
@[simp] theorem onLe_cxr (f : LeSt → LeSt) : (s.onLe f).cxr = s.cxr := rfl
@[simp] theorem onLe_ip (f : LeSt → LeSt) : (s.onLe f).ip = s.ip := rfl
@[simp] theorem onLe_ve (f : LeSt → LeSt) : (s.onLe f).ve = s.ve := rfl
@[simp] theorem onLe_tb (f : LeSt → LeSt) : (s.onLe f).tb = s.tb := rfl
@[simp] theorem onLe_en (f : LeSt → LeSt) : (s.onLe f).en = s.en := rfl
@[simp] theorem onLe_mx (f : LeSt → LeSt) : (s.onLe f).mx = s.mx := rfl
@[simp] theorem onLe_qe (f : LeSt → LeSt) : (s.onLe f).qe = s.qe := rfl
@[simp] theorem onLe_le (f : LeSt → LeSt) : (s.onLe f).le = f s.le := rfl
@[simp] theorem onLe_mc (f : LeSt → LeSt) : (s.onLe f).mc = s.mc := rfl
@[simp] theorem onLe_cv (f : LeSt → LeSt) : (s.onLe f).cv = s.cv := rfl

/-! ### `State.onMc` -/

@[simp] theorem onMc_pending (f : McSt → McSt) : (s.onMc f).pending = s.pending := rfl
@[simp] theorem onMc_now (f : McSt → McSt) : (s.onMc f).now = s.now := rfl
@[simp] theorem onMc_freeIx (f : McSt → McSt) : (s.onMc f).freeIx = s.freeIx := rfl
@[simp] theorem onMc_regs (f : McSt → McSt) : (s.onMc f).regs = s.regs := rfl
@[simp] theorem onMc_mem (f : McSt → McSt) : (s.onMc f).mem = s.mem := rfl
@[simp] theorem onMc_poison (f : McSt → McSt) : (s.onMc f).poison = s.poison := rfl
@[simp] theorem onMc_dcache (f : McSt → McSt) : (s.onMc f).dcache = s.dcache := rfl
@[simp] theorem onMc_top (f : McSt → McSt) : (s.onMc f).top = s.top := rfl
@[simp] theorem onMc_hi (f : McSt → McSt) : (s.onMc f).hi = s.hi := rfl
@[simp] theorem onMc_cc (f : McSt → McSt) : (s.onMc f).cc = s.cc := rfl
@[simp] theorem onMc_sg (f : McSt → McSt) : (s.onMc f).sg = s.sg := rfl
@[simp] theorem onMc_xc (f : McSt → McSt) : (s.onMc f).xc = s.xc := rfl
@[simp] theorem onMc_adm (f : McSt → McSt) : (s.onMc f).adm = s.adm := rfl
@[simp] theorem onMc_si (f : McSt → McSt) : (s.onMc f).si = s.si := rfl
@[simp] theorem onMc_ck (f : McSt → McSt) : (s.onMc f).ck = s.ck := rfl
@[simp] theorem onMc_boot (f : McSt → McSt) : (s.onMc f).boot = s.boot := rfl
@[simp] theorem onMc_dma (f : McSt → McSt) : (s.onMc f).dma = s.dma := rfl
@[simp] theorem onMc_st (f : McSt → McSt) : (s.onMc f).st = s.st := rfl
@[simp] theorem onMc_lc (f : McSt → McSt) : (s.onMc f).lc = s.lc := rfl
@[simp] theorem onMc_fs (f : McSt → McSt) : (s.onMc f).fs = s.fs := rfl
@[simp] theorem onMc_ds (f : McSt → McSt) : (s.onMc f).ds = s.ds := rfl
@[simp] theorem onMc_dl (f : McSt → McSt) : (s.onMc f).dl = s.dl := rfl
@[simp] theorem onMc_cxr (f : McSt → McSt) : (s.onMc f).cxr = s.cxr := rfl
@[simp] theorem onMc_ip (f : McSt → McSt) : (s.onMc f).ip = s.ip := rfl
@[simp] theorem onMc_ve (f : McSt → McSt) : (s.onMc f).ve = s.ve := rfl
@[simp] theorem onMc_tb (f : McSt → McSt) : (s.onMc f).tb = s.tb := rfl
@[simp] theorem onMc_en (f : McSt → McSt) : (s.onMc f).en = s.en := rfl
@[simp] theorem onMc_mx (f : McSt → McSt) : (s.onMc f).mx = s.mx := rfl
@[simp] theorem onMc_qe (f : McSt → McSt) : (s.onMc f).qe = s.qe := rfl
@[simp] theorem onMc_le (f : McSt → McSt) : (s.onMc f).le = s.le := rfl
@[simp] theorem onMc_mc (f : McSt → McSt) : (s.onMc f).mc = f s.mc := rfl
@[simp] theorem onMc_cv (f : McSt → McSt) : (s.onMc f).cv = s.cv := rfl

/-! ### `State.onXc` -/

@[simp] theorem onXc_pending (k : Nat) (f : XcSt → XcSt) : (s.onXc k f).pending = s.pending := rfl
@[simp] theorem onXc_now (k : Nat) (f : XcSt → XcSt) : (s.onXc k f).now = s.now := rfl
@[simp] theorem onXc_freeIx (k : Nat) (f : XcSt → XcSt) : (s.onXc k f).freeIx = s.freeIx := rfl
@[simp] theorem onXc_regs (k : Nat) (f : XcSt → XcSt) : (s.onXc k f).regs = s.regs := rfl
@[simp] theorem onXc_mem (k : Nat) (f : XcSt → XcSt) : (s.onXc k f).mem = s.mem := rfl
@[simp] theorem onXc_poison (k : Nat) (f : XcSt → XcSt) : (s.onXc k f).poison = s.poison := rfl
@[simp] theorem onXc_dcache (k : Nat) (f : XcSt → XcSt) : (s.onXc k f).dcache = s.dcache := rfl
@[simp] theorem onXc_top (k : Nat) (f : XcSt → XcSt) : (s.onXc k f).top = s.top := rfl
@[simp] theorem onXc_hi (k : Nat) (f : XcSt → XcSt) : (s.onXc k f).hi = s.hi := rfl
@[simp] theorem onXc_cc (k : Nat) (f : XcSt → XcSt) : (s.onXc k f).cc = s.cc := rfl
@[simp] theorem onXc_sg (k : Nat) (f : XcSt → XcSt) : (s.onXc k f).sg = s.sg := rfl
@[simp] theorem onXc_xc (k : Nat) (f : XcSt → XcSt) : (s.onXc k f).xc = s.xc.upd XcSt.reset k f := rfl
@[simp] theorem onXc_adm (k : Nat) (f : XcSt → XcSt) : (s.onXc k f).adm = s.adm := rfl
@[simp] theorem onXc_si (k : Nat) (f : XcSt → XcSt) : (s.onXc k f).si = s.si := rfl
@[simp] theorem onXc_ck (k : Nat) (f : XcSt → XcSt) : (s.onXc k f).ck = s.ck := rfl
@[simp] theorem onXc_boot (k : Nat) (f : XcSt → XcSt) : (s.onXc k f).boot = s.boot := rfl
@[simp] theorem onXc_dma (k : Nat) (f : XcSt → XcSt) : (s.onXc k f).dma = s.dma := rfl
@[simp] theorem onXc_st (k : Nat) (f : XcSt → XcSt) : (s.onXc k f).st = s.st := rfl
@[simp] theorem onXc_lc (k : Nat) (f : XcSt → XcSt) : (s.onXc k f).lc = s.lc := rfl
@[simp] theorem onXc_fs (k : Nat) (f : XcSt → XcSt) : (s.onXc k f).fs = s.fs := rfl
@[simp] theorem onXc_ds (k : Nat) (f : XcSt → XcSt) : (s.onXc k f).ds = s.ds := rfl
@[simp] theorem onXc_dl (k : Nat) (f : XcSt → XcSt) : (s.onXc k f).dl = s.dl := rfl
@[simp] theorem onXc_cxr (k : Nat) (f : XcSt → XcSt) : (s.onXc k f).cxr = s.cxr := rfl
@[simp] theorem onXc_ip (k : Nat) (f : XcSt → XcSt) : (s.onXc k f).ip = s.ip := rfl
@[simp] theorem onXc_ve (k : Nat) (f : XcSt → XcSt) : (s.onXc k f).ve = s.ve := rfl
@[simp] theorem onXc_tb (k : Nat) (f : XcSt → XcSt) : (s.onXc k f).tb = s.tb := rfl
@[simp] theorem onXc_en (k : Nat) (f : XcSt → XcSt) : (s.onXc k f).en = s.en := rfl
@[simp] theorem onXc_mx (k : Nat) (f : XcSt → XcSt) : (s.onXc k f).mx = s.mx := rfl
@[simp] theorem onXc_qe (k : Nat) (f : XcSt → XcSt) : (s.onXc k f).qe = s.qe := rfl
@[simp] theorem onXc_le (k : Nat) (f : XcSt → XcSt) : (s.onXc k f).le = s.le := rfl
@[simp] theorem onXc_mc (k : Nat) (f : XcSt → XcSt) : (s.onXc k f).mc = s.mc := rfl
@[simp] theorem onXc_cv (k : Nat) (f : XcSt → XcSt) : (s.onXc k f).cv = s.cv := rfl

/-! ### `State.onDma` -/

@[simp] theorem onDma_pending (k : Nat) (f : DmaCh → DmaCh) : (s.onDma k f).pending = s.pending := rfl
@[simp] theorem onDma_now (k : Nat) (f : DmaCh → DmaCh) : (s.onDma k f).now = s.now := rfl
@[simp] theorem onDma_freeIx (k : Nat) (f : DmaCh → DmaCh) : (s.onDma k f).freeIx = s.freeIx := rfl
@[simp] theorem onDma_regs (k : Nat) (f : DmaCh → DmaCh) : (s.onDma k f).regs = s.regs := rfl
@[simp] theorem onDma_mem (k : Nat) (f : DmaCh → DmaCh) : (s.onDma k f).mem = s.mem := rfl
@[simp] theorem onDma_poison (k : Nat) (f : DmaCh → DmaCh) : (s.onDma k f).poison = s.poison := rfl
@[simp] theorem onDma_dcache (k : Nat) (f : DmaCh → DmaCh) : (s.onDma k f).dcache = s.dcache := rfl
@[simp] theorem onDma_top (k : Nat) (f : DmaCh → DmaCh) : (s.onDma k f).top = s.top := rfl
@[simp] theorem onDma_hi (k : Nat) (f : DmaCh → DmaCh) : (s.onDma k f).hi = s.hi := rfl
@[simp] theorem onDma_cc (k : Nat) (f : DmaCh → DmaCh) : (s.onDma k f).cc = s.cc := rfl
@[simp] theorem onDma_sg (k : Nat) (f : DmaCh → DmaCh) : (s.onDma k f).sg = s.sg := rfl
@[simp] theorem onDma_xc (k : Nat) (f : DmaCh → DmaCh) : (s.onDma k f).xc = s.xc := rfl
@[simp] theorem onDma_adm (k : Nat) (f : DmaCh → DmaCh) : (s.onDma k f).adm = s.adm := rfl
@[simp] theorem onDma_si (k : Nat) (f : DmaCh → DmaCh) : (s.onDma k f).si = s.si := rfl
@[simp] theorem onDma_ck (k : Nat) (f : DmaCh → DmaCh) : (s.onDma k f).ck = s.ck := rfl
@[simp] theorem onDma_boot (k : Nat) (f : DmaCh → DmaCh) : (s.onDma k f).boot = s.boot := rfl
@[simp] theorem onDma_dma (k : Nat) (f : DmaCh → DmaCh) :
    (s.onDma k f).dma = s.dma.upd DmaCh.reset k f := rfl
@[simp] theorem onDma_st (k : Nat) (f : DmaCh → DmaCh) : (s.onDma k f).st = s.st := rfl
@[simp] theorem onDma_lc (k : Nat) (f : DmaCh → DmaCh) : (s.onDma k f).lc = s.lc := rfl
@[simp] theorem onDma_fs (k : Nat) (f : DmaCh → DmaCh) : (s.onDma k f).fs = s.fs := rfl
@[simp] theorem onDma_ds (k : Nat) (f : DmaCh → DmaCh) : (s.onDma k f).ds = s.ds := rfl
@[simp] theorem onDma_dl (k : Nat) (f : DmaCh → DmaCh) : (s.onDma k f).dl = s.dl := rfl
@[simp] theorem onDma_cxr (k : Nat) (f : DmaCh → DmaCh) : (s.onDma k f).cxr = s.cxr := rfl
@[simp] theorem onDma_ip (k : Nat) (f : DmaCh → DmaCh) : (s.onDma k f).ip = s.ip := rfl
@[simp] theorem onDma_ve (k : Nat) (f : DmaCh → DmaCh) : (s.onDma k f).ve = s.ve := rfl
@[simp] theorem onDma_tb (k : Nat) (f : DmaCh → DmaCh) : (s.onDma k f).tb = s.tb := rfl
@[simp] theorem onDma_en (k : Nat) (f : DmaCh → DmaCh) : (s.onDma k f).en = s.en := rfl
@[simp] theorem onDma_mx (k : Nat) (f : DmaCh → DmaCh) : (s.onDma k f).mx = s.mx := rfl
@[simp] theorem onDma_qe (k : Nat) (f : DmaCh → DmaCh) : (s.onDma k f).qe = s.qe := rfl
@[simp] theorem onDma_le (k : Nat) (f : DmaCh → DmaCh) : (s.onDma k f).le = s.le := rfl
@[simp] theorem onDma_mc (k : Nat) (f : DmaCh → DmaCh) : (s.onDma k f).mc = s.mc := rfl
@[simp] theorem onDma_cv (k : Nat) (f : DmaCh → DmaCh) : (s.onDma k f).cv = s.cv := rfl

/-! ### `State.onCc` -/

@[simp] theorem onCc_pending (k : Nat) (f : IsSt → IsSt) : (s.onCc k f).pending = s.pending := rfl
@[simp] theorem onCc_now (k : Nat) (f : IsSt → IsSt) : (s.onCc k f).now = s.now := rfl
@[simp] theorem onCc_freeIx (k : Nat) (f : IsSt → IsSt) : (s.onCc k f).freeIx = s.freeIx := rfl
@[simp] theorem onCc_regs (k : Nat) (f : IsSt → IsSt) : (s.onCc k f).regs = s.regs := rfl
@[simp] theorem onCc_mem (k : Nat) (f : IsSt → IsSt) : (s.onCc k f).mem = s.mem := rfl
@[simp] theorem onCc_poison (k : Nat) (f : IsSt → IsSt) : (s.onCc k f).poison = s.poison := rfl
@[simp] theorem onCc_dcache (k : Nat) (f : IsSt → IsSt) : (s.onCc k f).dcache = s.dcache := rfl
@[simp] theorem onCc_top (k : Nat) (f : IsSt → IsSt) : (s.onCc k f).top = s.top := rfl
@[simp] theorem onCc_hi (k : Nat) (f : IsSt → IsSt) : (s.onCc k f).hi = s.hi := rfl
@[simp] theorem onCc_cc (k : Nat) (f : IsSt → IsSt) : (s.onCc k f).cc = s.cc.upd IsSt.reset k f := rfl
@[simp] theorem onCc_sg (k : Nat) (f : IsSt → IsSt) : (s.onCc k f).sg = s.sg := rfl
@[simp] theorem onCc_xc (k : Nat) (f : IsSt → IsSt) : (s.onCc k f).xc = s.xc := rfl
@[simp] theorem onCc_adm (k : Nat) (f : IsSt → IsSt) : (s.onCc k f).adm = s.adm := rfl
@[simp] theorem onCc_si (k : Nat) (f : IsSt → IsSt) : (s.onCc k f).si = s.si := rfl
@[simp] theorem onCc_ck (k : Nat) (f : IsSt → IsSt) : (s.onCc k f).ck = s.ck := rfl
@[simp] theorem onCc_boot (k : Nat) (f : IsSt → IsSt) : (s.onCc k f).boot = s.boot := rfl
@[simp] theorem onCc_dma (k : Nat) (f : IsSt → IsSt) : (s.onCc k f).dma = s.dma := rfl
@[simp] theorem onCc_st (k : Nat) (f : IsSt → IsSt) : (s.onCc k f).st = s.st := rfl
@[simp] theorem onCc_lc (k : Nat) (f : IsSt → IsSt) : (s.onCc k f).lc = s.lc := rfl
@[simp] theorem onCc_fs (k : Nat) (f : IsSt → IsSt) : (s.onCc k f).fs = s.fs := rfl
@[simp] theorem onCc_ds (k : Nat) (f : IsSt → IsSt) : (s.onCc k f).ds = s.ds := rfl
@[simp] theorem onCc_dl (k : Nat) (f : IsSt → IsSt) : (s.onCc k f).dl = s.dl := rfl
@[simp] theorem onCc_cxr (k : Nat) (f : IsSt → IsSt) : (s.onCc k f).cxr = s.cxr := rfl
@[simp] theorem onCc_ip (k : Nat) (f : IsSt → IsSt) : (s.onCc k f).ip = s.ip := rfl
@[simp] theorem onCc_ve (k : Nat) (f : IsSt → IsSt) : (s.onCc k f).ve = s.ve := rfl
@[simp] theorem onCc_tb (k : Nat) (f : IsSt → IsSt) : (s.onCc k f).tb = s.tb := rfl
@[simp] theorem onCc_en (k : Nat) (f : IsSt → IsSt) : (s.onCc k f).en = s.en := rfl
@[simp] theorem onCc_mx (k : Nat) (f : IsSt → IsSt) : (s.onCc k f).mx = s.mx := rfl
@[simp] theorem onCc_qe (k : Nat) (f : IsSt → IsSt) : (s.onCc k f).qe = s.qe := rfl
@[simp] theorem onCc_le (k : Nat) (f : IsSt → IsSt) : (s.onCc k f).le = s.le := rfl
@[simp] theorem onCc_mc (k : Nat) (f : IsSt → IsSt) : (s.onCc k f).mc = s.mc := rfl
@[simp] theorem onCc_cv (k : Nat) (f : IsSt → IsSt) : (s.onCc k f).cv = s.cv := rfl

/-! ### `State.onAx` -/

@[simp] theorem onAx_pending (k : Nat) (f : AxSt → AxSt) : (s.onAx k f).pending = s.pending := rfl
@[simp] theorem onAx_now (k : Nat) (f : AxSt → AxSt) : (s.onAx k f).now = s.now := rfl
@[simp] theorem onAx_freeIx (k : Nat) (f : AxSt → AxSt) : (s.onAx k f).freeIx = s.freeIx := rfl
@[simp] theorem onAx_regs (k : Nat) (f : AxSt → AxSt) : (s.onAx k f).regs = s.regs := rfl
@[simp] theorem onAx_mem (k : Nat) (f : AxSt → AxSt) : (s.onAx k f).mem = s.mem := rfl
@[simp] theorem onAx_poison (k : Nat) (f : AxSt → AxSt) : (s.onAx k f).poison = s.poison := rfl
@[simp] theorem onAx_dcache (k : Nat) (f : AxSt → AxSt) : (s.onAx k f).dcache = s.dcache := rfl
@[simp] theorem onAx_top (k : Nat) (f : AxSt → AxSt) : (s.onAx k f).top = s.top := rfl
@[simp] theorem onAx_hi (k : Nat) (f : AxSt → AxSt) : (s.onAx k f).hi = s.hi := rfl
@[simp] theorem onAx_cc (k : Nat) (f : AxSt → AxSt) : (s.onAx k f).cc = s.cc := rfl
@[simp] theorem onAx_sg (k : Nat) (f : AxSt → AxSt) : (s.onAx k f).sg = s.sg := rfl
@[simp] theorem onAx_xc (k : Nat) (f : AxSt → AxSt) : (s.onAx k f).xc = s.xc := rfl
@[simp] theorem onAx_adm (k : Nat) (f : AxSt → AxSt) : (s.onAx k f).adm = s.adm := rfl
@[simp] theorem onAx_si (k : Nat) (f : AxSt → AxSt) : (s.onAx k f).si = s.si := rfl
@[simp] theorem onAx_ck (k : Nat) (f : AxSt → AxSt) : (s.onAx k f).ck = s.ck := rfl
@[simp] theorem onAx_boot (k : Nat) (f : AxSt → AxSt) : (s.onAx k f).boot = s.boot := rfl
@[simp] theorem onAx_dma (k : Nat) (f : AxSt → AxSt) : (s.onAx k f).dma = s.dma := rfl
@[simp] theorem onAx_st (k : Nat) (f : AxSt → AxSt) : (s.onAx k f).st = s.st := rfl
@[simp] theorem onAx_lc (k : Nat) (f : AxSt → AxSt) : (s.onAx k f).lc = s.lc := rfl
@[simp] theorem onAx_fs (k : Nat) (f : AxSt → AxSt) : (s.onAx k f).fs = s.fs := rfl
@[simp] theorem onAx_ds (k : Nat) (f : AxSt → AxSt) : (s.onAx k f).ds = s.ds := rfl
@[simp] theorem onAx_dl (k : Nat) (f : AxSt → AxSt) : (s.onAx k f).dl = s.dl := rfl
@[simp] theorem onAx_cxr (k : Nat) (f : AxSt → AxSt) : (s.onAx k f).cxr = s.cxr := rfl
@[simp] theorem onAx_ip (k : Nat) (f : AxSt → AxSt) : (s.onAx k f).ip = s.ip := rfl
@[simp] theorem onAx_ve (k : Nat) (f : AxSt → AxSt) : (s.onAx k f).ve = s.ve := rfl
@[simp] theorem onAx_tb (k : Nat) (f : AxSt → AxSt) : (s.onAx k f).tb = s.tb := rfl
@[simp] theorem onAx_en (k : Nat) (f : AxSt → AxSt) : (s.onAx k f).en = s.en := rfl
@[simp] theorem onAx_mx (k : Nat) (f : AxSt → AxSt) : (s.onAx k f).mx = s.mx.upd AxSt.reset k f := rfl
@[simp] theorem onAx_qe (k : Nat) (f : AxSt → AxSt) : (s.onAx k f).qe = s.qe := rfl
@[simp] theorem onAx_le (k : Nat) (f : AxSt → AxSt) : (s.onAx k f).le = s.le := rfl
@[simp] theorem onAx_mc (k : Nat) (f : AxSt → AxSt) : (s.onAx k f).mc = s.mc := rfl
@[simp] theorem onAx_cv (k : Nat) (f : AxSt → AxSt) : (s.onAx k f).cv = s.cv := rfl

/-! ### `State.onQe` -/

@[simp] theorem onQe_pending (k : Nat) (f : QeSt → QeSt) : (s.onQe k f).pending = s.pending := rfl
@[simp] theorem onQe_now (k : Nat) (f : QeSt → QeSt) : (s.onQe k f).now = s.now := rfl
@[simp] theorem onQe_freeIx (k : Nat) (f : QeSt → QeSt) : (s.onQe k f).freeIx = s.freeIx := rfl
@[simp] theorem onQe_regs (k : Nat) (f : QeSt → QeSt) : (s.onQe k f).regs = s.regs := rfl
@[simp] theorem onQe_mem (k : Nat) (f : QeSt → QeSt) : (s.onQe k f).mem = s.mem := rfl
@[simp] theorem onQe_poison (k : Nat) (f : QeSt → QeSt) : (s.onQe k f).poison = s.poison := rfl
@[simp] theorem onQe_dcache (k : Nat) (f : QeSt → QeSt) : (s.onQe k f).dcache = s.dcache := rfl
@[simp] theorem onQe_top (k : Nat) (f : QeSt → QeSt) : (s.onQe k f).top = s.top := rfl
@[simp] theorem onQe_hi (k : Nat) (f : QeSt → QeSt) : (s.onQe k f).hi = s.hi := rfl
@[simp] theorem onQe_cc (k : Nat) (f : QeSt → QeSt) : (s.onQe k f).cc = s.cc := rfl
@[simp] theorem onQe_sg (k : Nat) (f : QeSt → QeSt) : (s.onQe k f).sg = s.sg := rfl
@[simp] theorem onQe_xc (k : Nat) (f : QeSt → QeSt) : (s.onQe k f).xc = s.xc := rfl
@[simp] theorem onQe_adm (k : Nat) (f : QeSt → QeSt) : (s.onQe k f).adm = s.adm := rfl
@[simp] theorem onQe_si (k : Nat) (f : QeSt → QeSt) : (s.onQe k f).si = s.si := rfl
@[simp] theorem onQe_ck (k : Nat) (f : QeSt → QeSt) : (s.onQe k f).ck = s.ck := rfl
@[simp] theorem onQe_boot (k : Nat) (f : QeSt → QeSt) : (s.onQe k f).boot = s.boot := rfl
@[simp] theorem onQe_dma (k : Nat) (f : QeSt → QeSt) : (s.onQe k f).dma = s.dma := rfl
@[simp] theorem onQe_st (k : Nat) (f : QeSt → QeSt) : (s.onQe k f).st = s.st := rfl
@[simp] theorem onQe_lc (k : Nat) (f : QeSt → QeSt) : (s.onQe k f).lc = s.lc := rfl
@[simp] theorem onQe_fs (k : Nat) (f : QeSt → QeSt) : (s.onQe k f).fs = s.fs := rfl
@[simp] theorem onQe_ds (k : Nat) (f : QeSt → QeSt) : (s.onQe k f).ds = s.ds := rfl
@[simp] theorem onQe_dl (k : Nat) (f : QeSt → QeSt) : (s.onQe k f).dl = s.dl := rfl
@[simp] theorem onQe_cxr (k : Nat) (f : QeSt → QeSt) : (s.onQe k f).cxr = s.cxr := rfl
@[simp] theorem onQe_ip (k : Nat) (f : QeSt → QeSt) : (s.onQe k f).ip = s.ip := rfl
@[simp] theorem onQe_ve (k : Nat) (f : QeSt → QeSt) : (s.onQe k f).ve = s.ve := rfl
@[simp] theorem onQe_tb (k : Nat) (f : QeSt → QeSt) : (s.onQe k f).tb = s.tb := rfl
@[simp] theorem onQe_en (k : Nat) (f : QeSt → QeSt) : (s.onQe k f).en = s.en := rfl
@[simp] theorem onQe_mx (k : Nat) (f : QeSt → QeSt) : (s.onQe k f).mx = s.mx := rfl
@[simp] theorem onQe_qe (k : Nat) (f : QeSt → QeSt) : (s.onQe k f).qe = s.qe.upd QeSt.reset k f := rfl
@[simp] theorem onQe_le (k : Nat) (f : QeSt → QeSt) : (s.onQe k f).le = s.le := rfl
@[simp] theorem onQe_mc (k : Nat) (f : QeSt → QeSt) : (s.onQe k f).mc = s.mc := rfl
@[simp] theorem onQe_cv (k : Nat) (f : QeSt → QeSt) : (s.onQe k f).cv = s.cv := rfl

/-! ### `State.onCv` -/

@[simp] theorem onCv_pending (k : Nat) (f : CvSt → CvSt) : (s.onCv k f).pending = s.pending := rfl
@[simp] theorem onCv_now (k : Nat) (f : CvSt → CvSt) : (s.onCv k f).now = s.now := rfl
@[simp] theorem onCv_freeIx (k : Nat) (f : CvSt → CvSt) : (s.onCv k f).freeIx = s.freeIx := rfl
@[simp] theorem onCv_regs (k : Nat) (f : CvSt → CvSt) : (s.onCv k f).regs = s.regs := rfl
@[simp] theorem onCv_mem (k : Nat) (f : CvSt → CvSt) : (s.onCv k f).mem = s.mem := rfl
@[simp] theorem onCv_poison (k : Nat) (f : CvSt → CvSt) : (s.onCv k f).poison = s.poison := rfl
@[simp] theorem onCv_dcache (k : Nat) (f : CvSt → CvSt) : (s.onCv k f).dcache = s.dcache := rfl
@[simp] theorem onCv_top (k : Nat) (f : CvSt → CvSt) : (s.onCv k f).top = s.top := rfl
@[simp] theorem onCv_hi (k : Nat) (f : CvSt → CvSt) : (s.onCv k f).hi = s.hi := rfl
@[simp] theorem onCv_cc (k : Nat) (f : CvSt → CvSt) : (s.onCv k f).cc = s.cc := rfl
@[simp] theorem onCv_sg (k : Nat) (f : CvSt → CvSt) : (s.onCv k f).sg = s.sg := rfl
@[simp] theorem onCv_xc (k : Nat) (f : CvSt → CvSt) : (s.onCv k f).xc = s.xc := rfl
@[simp] theorem onCv_adm (k : Nat) (f : CvSt → CvSt) : (s.onCv k f).adm = s.adm := rfl
@[simp] theorem onCv_si (k : Nat) (f : CvSt → CvSt) : (s.onCv k f).si = s.si := rfl
@[simp] theorem onCv_ck (k : Nat) (f : CvSt → CvSt) : (s.onCv k f).ck = s.ck := rfl
@[simp] theorem onCv_boot (k : Nat) (f : CvSt → CvSt) : (s.onCv k f).boot = s.boot := rfl
@[simp] theorem onCv_dma (k : Nat) (f : CvSt → CvSt) : (s.onCv k f).dma = s.dma := rfl
@[simp] theorem onCv_st (k : Nat) (f : CvSt → CvSt) : (s.onCv k f).st = s.st := rfl
@[simp] theorem onCv_lc (k : Nat) (f : CvSt → CvSt) : (s.onCv k f).lc = s.lc := rfl
@[simp] theorem onCv_fs (k : Nat) (f : CvSt → CvSt) : (s.onCv k f).fs = s.fs := rfl
@[simp] theorem onCv_ds (k : Nat) (f : CvSt → CvSt) : (s.onCv k f).ds = s.ds := rfl
@[simp] theorem onCv_dl (k : Nat) (f : CvSt → CvSt) : (s.onCv k f).dl = s.dl := rfl
@[simp] theorem onCv_cxr (k : Nat) (f : CvSt → CvSt) : (s.onCv k f).cxr = s.cxr := rfl
@[simp] theorem onCv_ip (k : Nat) (f : CvSt → CvSt) : (s.onCv k f).ip = s.ip := rfl
@[simp] theorem onCv_ve (k : Nat) (f : CvSt → CvSt) : (s.onCv k f).ve = s.ve := rfl
@[simp] theorem onCv_tb (k : Nat) (f : CvSt → CvSt) : (s.onCv k f).tb = s.tb := rfl
@[simp] theorem onCv_en (k : Nat) (f : CvSt → CvSt) : (s.onCv k f).en = s.en := rfl
@[simp] theorem onCv_mx (k : Nat) (f : CvSt → CvSt) : (s.onCv k f).mx = s.mx := rfl
@[simp] theorem onCv_qe (k : Nat) (f : CvSt → CvSt) : (s.onCv k f).qe = s.qe := rfl
@[simp] theorem onCv_le (k : Nat) (f : CvSt → CvSt) : (s.onCv k f).le = s.le := rfl
@[simp] theorem onCv_mc (k : Nat) (f : CvSt → CvSt) : (s.onCv k f).mc = s.mc := rfl
@[simp] theorem onCv_cv (k : Nat) (f : CvSt → CvSt) : (s.onCv k f).cv = s.cv.upd CvSt.reset k f := rfl

/-! ### `State.onLane` -/

@[simp] theorem onLane_pending (k : Nat) (f : LaneSt → LaneSt) :
    (s.onLane k f).pending = s.pending := rfl
@[simp] theorem onLane_now (k : Nat) (f : LaneSt → LaneSt) : (s.onLane k f).now = s.now := rfl
@[simp] theorem onLane_freeIx (k : Nat) (f : LaneSt → LaneSt) : (s.onLane k f).freeIx = s.freeIx := rfl
@[simp] theorem onLane_regs (k : Nat) (f : LaneSt → LaneSt) : (s.onLane k f).regs = s.regs := rfl
@[simp] theorem onLane_mem (k : Nat) (f : LaneSt → LaneSt) : (s.onLane k f).mem = s.mem := rfl
@[simp] theorem onLane_poison (k : Nat) (f : LaneSt → LaneSt) : (s.onLane k f).poison = s.poison := rfl
@[simp] theorem onLane_dcache (k : Nat) (f : LaneSt → LaneSt) : (s.onLane k f).dcache = s.dcache := rfl
@[simp] theorem onLane_top (k : Nat) (f : LaneSt → LaneSt) : (s.onLane k f).top = s.top := rfl
@[simp] theorem onLane_hi (k : Nat) (f : LaneSt → LaneSt) : (s.onLane k f).hi = s.hi := rfl
@[simp] theorem onLane_cc (k : Nat) (f : LaneSt → LaneSt) : (s.onLane k f).cc = s.cc := rfl
@[simp] theorem onLane_sg (k : Nat) (f : LaneSt → LaneSt) : (s.onLane k f).sg = s.sg := rfl
@[simp] theorem onLane_xc (k : Nat) (f : LaneSt → LaneSt) : (s.onLane k f).xc = s.xc := rfl
@[simp] theorem onLane_adm (k : Nat) (f : LaneSt → LaneSt) : (s.onLane k f).adm = s.adm := rfl
@[simp] theorem onLane_si (k : Nat) (f : LaneSt → LaneSt) : (s.onLane k f).si = s.si := rfl
@[simp] theorem onLane_ck (k : Nat) (f : LaneSt → LaneSt) : (s.onLane k f).ck = s.ck := rfl
@[simp] theorem onLane_boot (k : Nat) (f : LaneSt → LaneSt) : (s.onLane k f).boot = s.boot := rfl
@[simp] theorem onLane_dma (k : Nat) (f : LaneSt → LaneSt) : (s.onLane k f).dma = s.dma := rfl
@[simp] theorem onLane_st (k : Nat) (f : LaneSt → LaneSt) : (s.onLane k f).st = s.st := rfl
@[simp] theorem onLane_lc (k : Nat) (f : LaneSt → LaneSt) : (s.onLane k f).lc = s.lc := rfl
@[simp] theorem onLane_fs (k : Nat) (f : LaneSt → LaneSt) : (s.onLane k f).fs = s.fs := rfl
@[simp] theorem onLane_ds (k : Nat) (f : LaneSt → LaneSt) : (s.onLane k f).ds = s.ds := rfl
@[simp] theorem onLane_dl (k : Nat) (f : LaneSt → LaneSt) :
    (s.onLane k f).dl = { s.dl with lanes := s.dl.lanes.upd LaneSt.reset k f } := rfl
@[simp] theorem onLane_cxr (k : Nat) (f : LaneSt → LaneSt) : (s.onLane k f).cxr = s.cxr := rfl
@[simp] theorem onLane_ip (k : Nat) (f : LaneSt → LaneSt) : (s.onLane k f).ip = s.ip := rfl
@[simp] theorem onLane_ve (k : Nat) (f : LaneSt → LaneSt) : (s.onLane k f).ve = s.ve := rfl
@[simp] theorem onLane_tb (k : Nat) (f : LaneSt → LaneSt) : (s.onLane k f).tb = s.tb := rfl
@[simp] theorem onLane_en (k : Nat) (f : LaneSt → LaneSt) : (s.onLane k f).en = s.en := rfl
@[simp] theorem onLane_mx (k : Nat) (f : LaneSt → LaneSt) : (s.onLane k f).mx = s.mx := rfl
@[simp] theorem onLane_qe (k : Nat) (f : LaneSt → LaneSt) : (s.onLane k f).qe = s.qe := rfl
@[simp] theorem onLane_le (k : Nat) (f : LaneSt → LaneSt) : (s.onLane k f).le = s.le := rfl
@[simp] theorem onLane_mc (k : Nat) (f : LaneSt → LaneSt) : (s.onLane k f).mc = s.mc := rfl
@[simp] theorem onLane_cv (k : Nat) (f : LaneSt → LaneSt) : (s.onLane k f).cv = s.cv := rfl

/-! ### `State.onHub` -/

@[simp] theorem onHub_pending (k : Nat) (f : HubSt → HubSt) : (s.onHub k f).pending = s.pending := rfl
@[simp] theorem onHub_now (k : Nat) (f : HubSt → HubSt) : (s.onHub k f).now = s.now := rfl
@[simp] theorem onHub_freeIx (k : Nat) (f : HubSt → HubSt) : (s.onHub k f).freeIx = s.freeIx := rfl
@[simp] theorem onHub_regs (k : Nat) (f : HubSt → HubSt) : (s.onHub k f).regs = s.regs := rfl
@[simp] theorem onHub_mem (k : Nat) (f : HubSt → HubSt) : (s.onHub k f).mem = s.mem := rfl
@[simp] theorem onHub_poison (k : Nat) (f : HubSt → HubSt) : (s.onHub k f).poison = s.poison := rfl
@[simp] theorem onHub_dcache (k : Nat) (f : HubSt → HubSt) : (s.onHub k f).dcache = s.dcache := rfl
@[simp] theorem onHub_top (k : Nat) (f : HubSt → HubSt) : (s.onHub k f).top = s.top := rfl
@[simp] theorem onHub_hi (k : Nat) (f : HubSt → HubSt) : (s.onHub k f).hi = s.hi := rfl
@[simp] theorem onHub_cc (k : Nat) (f : HubSt → HubSt) : (s.onHub k f).cc = s.cc := rfl
@[simp] theorem onHub_sg (k : Nat) (f : HubSt → HubSt) : (s.onHub k f).sg = s.sg := rfl
@[simp] theorem onHub_xc (k : Nat) (f : HubSt → HubSt) : (s.onHub k f).xc = s.xc := rfl
@[simp] theorem onHub_adm (k : Nat) (f : HubSt → HubSt) : (s.onHub k f).adm = s.adm := rfl
@[simp] theorem onHub_si (k : Nat) (f : HubSt → HubSt) : (s.onHub k f).si = s.si := rfl
@[simp] theorem onHub_ck (k : Nat) (f : HubSt → HubSt) : (s.onHub k f).ck = s.ck := rfl
@[simp] theorem onHub_boot (k : Nat) (f : HubSt → HubSt) : (s.onHub k f).boot = s.boot := rfl
@[simp] theorem onHub_dma (k : Nat) (f : HubSt → HubSt) : (s.onHub k f).dma = s.dma := rfl
@[simp] theorem onHub_st (k : Nat) (f : HubSt → HubSt) : (s.onHub k f).st = s.st := rfl
@[simp] theorem onHub_lc (k : Nat) (f : HubSt → HubSt) : (s.onHub k f).lc = s.lc := rfl
@[simp] theorem onHub_fs (k : Nat) (f : HubSt → HubSt) : (s.onHub k f).fs = s.fs := rfl
@[simp] theorem onHub_ds (k : Nat) (f : HubSt → HubSt) : (s.onHub k f).ds = s.ds := rfl
@[simp] theorem onHub_dl (k : Nat) (f : HubSt → HubSt) :
    (s.onHub k f).dl = { s.dl with hubs := s.dl.hubs.upd HubSt.reset k f } := rfl
@[simp] theorem onHub_cxr (k : Nat) (f : HubSt → HubSt) : (s.onHub k f).cxr = s.cxr := rfl
@[simp] theorem onHub_ip (k : Nat) (f : HubSt → HubSt) : (s.onHub k f).ip = s.ip := rfl
@[simp] theorem onHub_ve (k : Nat) (f : HubSt → HubSt) : (s.onHub k f).ve = s.ve := rfl
@[simp] theorem onHub_tb (k : Nat) (f : HubSt → HubSt) : (s.onHub k f).tb = s.tb := rfl
@[simp] theorem onHub_en (k : Nat) (f : HubSt → HubSt) : (s.onHub k f).en = s.en := rfl
@[simp] theorem onHub_mx (k : Nat) (f : HubSt → HubSt) : (s.onHub k f).mx = s.mx := rfl
@[simp] theorem onHub_qe (k : Nat) (f : HubSt → HubSt) : (s.onHub k f).qe = s.qe := rfl
@[simp] theorem onHub_le (k : Nat) (f : HubSt → HubSt) : (s.onHub k f).le = s.le := rfl
@[simp] theorem onHub_mc (k : Nat) (f : HubSt → HubSt) : (s.onHub k f).mc = s.mc := rfl
@[simp] theorem onHub_cv (k : Nat) (f : HubSt → HubSt) : (s.onHub k f).cv = s.cv := rfl

/-! ### `State.onPort` -/

@[simp] theorem onPort_pending (k : Nat) (f : PortSt → PortSt) :
    (s.onPort k f).pending = s.pending := rfl
@[simp] theorem onPort_now (k : Nat) (f : PortSt → PortSt) : (s.onPort k f).now = s.now := rfl
@[simp] theorem onPort_freeIx (k : Nat) (f : PortSt → PortSt) : (s.onPort k f).freeIx = s.freeIx := rfl
@[simp] theorem onPort_regs (k : Nat) (f : PortSt → PortSt) : (s.onPort k f).regs = s.regs := rfl
@[simp] theorem onPort_mem (k : Nat) (f : PortSt → PortSt) : (s.onPort k f).mem = s.mem := rfl
@[simp] theorem onPort_poison (k : Nat) (f : PortSt → PortSt) : (s.onPort k f).poison = s.poison := rfl
@[simp] theorem onPort_dcache (k : Nat) (f : PortSt → PortSt) : (s.onPort k f).dcache = s.dcache := rfl
@[simp] theorem onPort_top (k : Nat) (f : PortSt → PortSt) : (s.onPort k f).top = s.top := rfl
@[simp] theorem onPort_hi (k : Nat) (f : PortSt → PortSt) : (s.onPort k f).hi = s.hi := rfl
@[simp] theorem onPort_cc (k : Nat) (f : PortSt → PortSt) : (s.onPort k f).cc = s.cc := rfl
@[simp] theorem onPort_sg (k : Nat) (f : PortSt → PortSt) : (s.onPort k f).sg = s.sg := rfl
@[simp] theorem onPort_xc (k : Nat) (f : PortSt → PortSt) : (s.onPort k f).xc = s.xc := rfl
@[simp] theorem onPort_adm (k : Nat) (f : PortSt → PortSt) : (s.onPort k f).adm = s.adm := rfl
@[simp] theorem onPort_si (k : Nat) (f : PortSt → PortSt) : (s.onPort k f).si = s.si := rfl
@[simp] theorem onPort_ck (k : Nat) (f : PortSt → PortSt) : (s.onPort k f).ck = s.ck := rfl
@[simp] theorem onPort_boot (k : Nat) (f : PortSt → PortSt) : (s.onPort k f).boot = s.boot := rfl
@[simp] theorem onPort_dma (k : Nat) (f : PortSt → PortSt) : (s.onPort k f).dma = s.dma := rfl
@[simp] theorem onPort_st (k : Nat) (f : PortSt → PortSt) : (s.onPort k f).st = s.st := rfl
@[simp] theorem onPort_lc (k : Nat) (f : PortSt → PortSt) : (s.onPort k f).lc = s.lc := rfl
@[simp] theorem onPort_fs (k : Nat) (f : PortSt → PortSt) : (s.onPort k f).fs = s.fs := rfl
@[simp] theorem onPort_ds (k : Nat) (f : PortSt → PortSt) : (s.onPort k f).ds = s.ds := rfl
@[simp] theorem onPort_dl (k : Nat) (f : PortSt → PortSt) : (s.onPort k f).dl = s.dl := rfl
@[simp] theorem onPort_cxr (k : Nat) (f : PortSt → PortSt) :
    (s.onPort k f).cxr = { s.cxr with ports := s.cxr.ports.upd PortSt.reset k f } := rfl
@[simp] theorem onPort_ip (k : Nat) (f : PortSt → PortSt) : (s.onPort k f).ip = s.ip := rfl
@[simp] theorem onPort_ve (k : Nat) (f : PortSt → PortSt) : (s.onPort k f).ve = s.ve := rfl
@[simp] theorem onPort_tb (k : Nat) (f : PortSt → PortSt) : (s.onPort k f).tb = s.tb := rfl
@[simp] theorem onPort_en (k : Nat) (f : PortSt → PortSt) : (s.onPort k f).en = s.en := rfl
@[simp] theorem onPort_mx (k : Nat) (f : PortSt → PortSt) : (s.onPort k f).mx = s.mx := rfl
@[simp] theorem onPort_qe (k : Nat) (f : PortSt → PortSt) : (s.onPort k f).qe = s.qe := rfl
@[simp] theorem onPort_le (k : Nat) (f : PortSt → PortSt) : (s.onPort k f).le = s.le := rfl
@[simp] theorem onPort_mc (k : Nat) (f : PortSt → PortSt) : (s.onPort k f).mc = s.mc := rfl
@[simp] theorem onPort_cv (k : Nat) (f : PortSt → PortSt) : (s.onPort k f).cv = s.cv := rfl

/-! ### `State.onCtx` -/

@[simp] theorem onCtx_pending (k : Nat) (f : PipeCtx → PipeCtx) :
    (s.onCtx k f).pending = s.pending := rfl
@[simp] theorem onCtx_now (k : Nat) (f : PipeCtx → PipeCtx) : (s.onCtx k f).now = s.now := rfl
@[simp] theorem onCtx_freeIx (k : Nat) (f : PipeCtx → PipeCtx) : (s.onCtx k f).freeIx = s.freeIx := rfl
@[simp] theorem onCtx_regs (k : Nat) (f : PipeCtx → PipeCtx) : (s.onCtx k f).regs = s.regs := rfl
@[simp] theorem onCtx_mem (k : Nat) (f : PipeCtx → PipeCtx) : (s.onCtx k f).mem = s.mem := rfl
@[simp] theorem onCtx_poison (k : Nat) (f : PipeCtx → PipeCtx) : (s.onCtx k f).poison = s.poison := rfl
@[simp] theorem onCtx_dcache (k : Nat) (f : PipeCtx → PipeCtx) : (s.onCtx k f).dcache = s.dcache := rfl
@[simp] theorem onCtx_top (k : Nat) (f : PipeCtx → PipeCtx) : (s.onCtx k f).top = s.top := rfl
@[simp] theorem onCtx_hi (k : Nat) (f : PipeCtx → PipeCtx) : (s.onCtx k f).hi = s.hi := rfl
@[simp] theorem onCtx_cc (k : Nat) (f : PipeCtx → PipeCtx) : (s.onCtx k f).cc = s.cc := rfl
@[simp] theorem onCtx_sg (k : Nat) (f : PipeCtx → PipeCtx) : (s.onCtx k f).sg = s.sg := rfl
@[simp] theorem onCtx_xc (k : Nat) (f : PipeCtx → PipeCtx) : (s.onCtx k f).xc = s.xc := rfl
@[simp] theorem onCtx_adm (k : Nat) (f : PipeCtx → PipeCtx) : (s.onCtx k f).adm = s.adm := rfl
@[simp] theorem onCtx_si (k : Nat) (f : PipeCtx → PipeCtx) : (s.onCtx k f).si = s.si := rfl
@[simp] theorem onCtx_ck (k : Nat) (f : PipeCtx → PipeCtx) : (s.onCtx k f).ck = s.ck := rfl
@[simp] theorem onCtx_boot (k : Nat) (f : PipeCtx → PipeCtx) : (s.onCtx k f).boot = s.boot := rfl
@[simp] theorem onCtx_dma (k : Nat) (f : PipeCtx → PipeCtx) : (s.onCtx k f).dma = s.dma := rfl
@[simp] theorem onCtx_st (k : Nat) (f : PipeCtx → PipeCtx) : (s.onCtx k f).st = s.st := rfl
@[simp] theorem onCtx_lc (k : Nat) (f : PipeCtx → PipeCtx) : (s.onCtx k f).lc = s.lc := rfl
@[simp] theorem onCtx_fs (k : Nat) (f : PipeCtx → PipeCtx) : (s.onCtx k f).fs = s.fs := rfl
@[simp] theorem onCtx_ds (k : Nat) (f : PipeCtx → PipeCtx) : (s.onCtx k f).ds = s.ds := rfl
@[simp] theorem onCtx_dl (k : Nat) (f : PipeCtx → PipeCtx) : (s.onCtx k f).dl = s.dl := rfl
@[simp] theorem onCtx_cxr (k : Nat) (f : PipeCtx → PipeCtx) : (s.onCtx k f).cxr = s.cxr := rfl
@[simp] theorem onCtx_ip (k : Nat) (f : PipeCtx → PipeCtx) :
    (s.onCtx k f).ip = { s.ip with ctx := s.ip.ctx.upd PipeCtx.reset k f } := rfl
@[simp] theorem onCtx_ve (k : Nat) (f : PipeCtx → PipeCtx) : (s.onCtx k f).ve = s.ve := rfl
@[simp] theorem onCtx_tb (k : Nat) (f : PipeCtx → PipeCtx) : (s.onCtx k f).tb = s.tb := rfl
@[simp] theorem onCtx_en (k : Nat) (f : PipeCtx → PipeCtx) : (s.onCtx k f).en = s.en := rfl
@[simp] theorem onCtx_mx (k : Nat) (f : PipeCtx → PipeCtx) : (s.onCtx k f).mx = s.mx := rfl
@[simp] theorem onCtx_qe (k : Nat) (f : PipeCtx → PipeCtx) : (s.onCtx k f).qe = s.qe := rfl
@[simp] theorem onCtx_le (k : Nat) (f : PipeCtx → PipeCtx) : (s.onCtx k f).le = s.le := rfl
@[simp] theorem onCtx_mc (k : Nat) (f : PipeCtx → PipeCtx) : (s.onCtx k f).mc = s.mc := rfl
@[simp] theorem onCtx_cv (k : Nat) (f : PipeCtx → PipeCtx) : (s.onCtx k f).cv = s.cv := rfl

/-! ### `State.onLoop` -/

@[simp] theorem onLoop_pending (k : Nat) (f : LoopSt → LoopSt) :
    (s.onLoop k f).pending = s.pending := rfl
@[simp] theorem onLoop_now (k : Nat) (f : LoopSt → LoopSt) : (s.onLoop k f).now = s.now := rfl
@[simp] theorem onLoop_freeIx (k : Nat) (f : LoopSt → LoopSt) : (s.onLoop k f).freeIx = s.freeIx := rfl
@[simp] theorem onLoop_regs (k : Nat) (f : LoopSt → LoopSt) : (s.onLoop k f).regs = s.regs := rfl
@[simp] theorem onLoop_mem (k : Nat) (f : LoopSt → LoopSt) : (s.onLoop k f).mem = s.mem := rfl
@[simp] theorem onLoop_poison (k : Nat) (f : LoopSt → LoopSt) : (s.onLoop k f).poison = s.poison := rfl
@[simp] theorem onLoop_dcache (k : Nat) (f : LoopSt → LoopSt) : (s.onLoop k f).dcache = s.dcache := rfl
@[simp] theorem onLoop_top (k : Nat) (f : LoopSt → LoopSt) : (s.onLoop k f).top = s.top := rfl
@[simp] theorem onLoop_hi (k : Nat) (f : LoopSt → LoopSt) : (s.onLoop k f).hi = s.hi := rfl
@[simp] theorem onLoop_cc (k : Nat) (f : LoopSt → LoopSt) : (s.onLoop k f).cc = s.cc := rfl
@[simp] theorem onLoop_sg (k : Nat) (f : LoopSt → LoopSt) : (s.onLoop k f).sg = s.sg := rfl
@[simp] theorem onLoop_xc (k : Nat) (f : LoopSt → LoopSt) : (s.onLoop k f).xc = s.xc := rfl
@[simp] theorem onLoop_adm (k : Nat) (f : LoopSt → LoopSt) : (s.onLoop k f).adm = s.adm := rfl
@[simp] theorem onLoop_si (k : Nat) (f : LoopSt → LoopSt) : (s.onLoop k f).si = s.si := rfl
@[simp] theorem onLoop_ck (k : Nat) (f : LoopSt → LoopSt) : (s.onLoop k f).ck = s.ck := rfl
@[simp] theorem onLoop_boot (k : Nat) (f : LoopSt → LoopSt) : (s.onLoop k f).boot = s.boot := rfl
@[simp] theorem onLoop_dma (k : Nat) (f : LoopSt → LoopSt) : (s.onLoop k f).dma = s.dma := rfl
@[simp] theorem onLoop_st (k : Nat) (f : LoopSt → LoopSt) : (s.onLoop k f).st = s.st := rfl
@[simp] theorem onLoop_lc (k : Nat) (f : LoopSt → LoopSt) : (s.onLoop k f).lc = s.lc := rfl
@[simp] theorem onLoop_fs (k : Nat) (f : LoopSt → LoopSt) : (s.onLoop k f).fs = s.fs := rfl
@[simp] theorem onLoop_ds (k : Nat) (f : LoopSt → LoopSt) : (s.onLoop k f).ds = s.ds := rfl
@[simp] theorem onLoop_dl (k : Nat) (f : LoopSt → LoopSt) : (s.onLoop k f).dl = s.dl := rfl
@[simp] theorem onLoop_cxr (k : Nat) (f : LoopSt → LoopSt) : (s.onLoop k f).cxr = s.cxr := rfl
@[simp] theorem onLoop_ip (k : Nat) (f : LoopSt → LoopSt) : (s.onLoop k f).ip = s.ip := rfl
@[simp] theorem onLoop_ve (k : Nat) (f : LoopSt → LoopSt) : (s.onLoop k f).ve = s.ve := rfl
@[simp] theorem onLoop_tb (k : Nat) (f : LoopSt → LoopSt) : (s.onLoop k f).tb = s.tb := rfl
@[simp] theorem onLoop_en (k : Nat) (f : LoopSt → LoopSt) : (s.onLoop k f).en = s.en := rfl
@[simp] theorem onLoop_mx (k : Nat) (f : LoopSt → LoopSt) : (s.onLoop k f).mx = s.mx := rfl
@[simp] theorem onLoop_qe (k : Nat) (f : LoopSt → LoopSt) : (s.onLoop k f).qe = s.qe := rfl
@[simp] theorem onLoop_le (k : Nat) (f : LoopSt → LoopSt) :
    (s.onLoop k f).le = { s.le with loops := s.le.loops.upd LoopSt.reset k f } := rfl
@[simp] theorem onLoop_mc (k : Nat) (f : LoopSt → LoopSt) : (s.onLoop k f).mc = s.mc := rfl
@[simp] theorem onLoop_cv (k : Nat) (f : LoopSt → LoopSt) : (s.onLoop k f).cv = s.cv := rfl

/-! ### `State.onRank` -/

@[simp] theorem onRank_pending (k : Nat) (f : RankSt → RankSt) :
    (s.onRank k f).pending = s.pending := rfl
@[simp] theorem onRank_now (k : Nat) (f : RankSt → RankSt) : (s.onRank k f).now = s.now := rfl
@[simp] theorem onRank_freeIx (k : Nat) (f : RankSt → RankSt) : (s.onRank k f).freeIx = s.freeIx := rfl
@[simp] theorem onRank_regs (k : Nat) (f : RankSt → RankSt) : (s.onRank k f).regs = s.regs := rfl
@[simp] theorem onRank_mem (k : Nat) (f : RankSt → RankSt) : (s.onRank k f).mem = s.mem := rfl
@[simp] theorem onRank_poison (k : Nat) (f : RankSt → RankSt) : (s.onRank k f).poison = s.poison := rfl
@[simp] theorem onRank_dcache (k : Nat) (f : RankSt → RankSt) : (s.onRank k f).dcache = s.dcache := rfl
@[simp] theorem onRank_top (k : Nat) (f : RankSt → RankSt) : (s.onRank k f).top = s.top := rfl
@[simp] theorem onRank_hi (k : Nat) (f : RankSt → RankSt) : (s.onRank k f).hi = s.hi := rfl
@[simp] theorem onRank_cc (k : Nat) (f : RankSt → RankSt) : (s.onRank k f).cc = s.cc := rfl
@[simp] theorem onRank_sg (k : Nat) (f : RankSt → RankSt) : (s.onRank k f).sg = s.sg := rfl
@[simp] theorem onRank_xc (k : Nat) (f : RankSt → RankSt) : (s.onRank k f).xc = s.xc := rfl
@[simp] theorem onRank_adm (k : Nat) (f : RankSt → RankSt) : (s.onRank k f).adm = s.adm := rfl
@[simp] theorem onRank_si (k : Nat) (f : RankSt → RankSt) : (s.onRank k f).si = s.si := rfl
@[simp] theorem onRank_ck (k : Nat) (f : RankSt → RankSt) : (s.onRank k f).ck = s.ck := rfl
@[simp] theorem onRank_boot (k : Nat) (f : RankSt → RankSt) : (s.onRank k f).boot = s.boot := rfl
@[simp] theorem onRank_dma (k : Nat) (f : RankSt → RankSt) : (s.onRank k f).dma = s.dma := rfl
@[simp] theorem onRank_st (k : Nat) (f : RankSt → RankSt) : (s.onRank k f).st = s.st := rfl
@[simp] theorem onRank_lc (k : Nat) (f : RankSt → RankSt) : (s.onRank k f).lc = s.lc := rfl
@[simp] theorem onRank_fs (k : Nat) (f : RankSt → RankSt) : (s.onRank k f).fs = s.fs := rfl
@[simp] theorem onRank_ds (k : Nat) (f : RankSt → RankSt) : (s.onRank k f).ds = s.ds := rfl
@[simp] theorem onRank_dl (k : Nat) (f : RankSt → RankSt) : (s.onRank k f).dl = s.dl := rfl
@[simp] theorem onRank_cxr (k : Nat) (f : RankSt → RankSt) : (s.onRank k f).cxr = s.cxr := rfl
@[simp] theorem onRank_ip (k : Nat) (f : RankSt → RankSt) : (s.onRank k f).ip = s.ip := rfl
@[simp] theorem onRank_ve (k : Nat) (f : RankSt → RankSt) : (s.onRank k f).ve = s.ve := rfl
@[simp] theorem onRank_tb (k : Nat) (f : RankSt → RankSt) : (s.onRank k f).tb = s.tb := rfl
@[simp] theorem onRank_en (k : Nat) (f : RankSt → RankSt) : (s.onRank k f).en = s.en := rfl
@[simp] theorem onRank_mx (k : Nat) (f : RankSt → RankSt) : (s.onRank k f).mx = s.mx := rfl
@[simp] theorem onRank_qe (k : Nat) (f : RankSt → RankSt) : (s.onRank k f).qe = s.qe := rfl
@[simp] theorem onRank_le (k : Nat) (f : RankSt → RankSt) : (s.onRank k f).le = s.le := rfl
@[simp] theorem onRank_mc (k : Nat) (f : RankSt → RankSt) :
    (s.onRank k f).mc = { s.mc with ranks := s.mc.ranks.upd RankSt.reset k f } := rfl
@[simp] theorem onRank_cv (k : Nat) (f : RankSt → RankSt) : (s.onRank k f).cv = s.cv := rfl

/-! ### `State.onChan` -/

@[simp] theorem onChan_pending (k : Nat) (f : ChanSt → ChanSt) :
    (s.onChan k f).pending = s.pending := rfl
@[simp] theorem onChan_now (k : Nat) (f : ChanSt → ChanSt) : (s.onChan k f).now = s.now := rfl
@[simp] theorem onChan_freeIx (k : Nat) (f : ChanSt → ChanSt) : (s.onChan k f).freeIx = s.freeIx := rfl
@[simp] theorem onChan_regs (k : Nat) (f : ChanSt → ChanSt) : (s.onChan k f).regs = s.regs := rfl
@[simp] theorem onChan_mem (k : Nat) (f : ChanSt → ChanSt) : (s.onChan k f).mem = s.mem := rfl
@[simp] theorem onChan_poison (k : Nat) (f : ChanSt → ChanSt) : (s.onChan k f).poison = s.poison := rfl
@[simp] theorem onChan_dcache (k : Nat) (f : ChanSt → ChanSt) : (s.onChan k f).dcache = s.dcache := rfl
@[simp] theorem onChan_top (k : Nat) (f : ChanSt → ChanSt) : (s.onChan k f).top = s.top := rfl
@[simp] theorem onChan_hi (k : Nat) (f : ChanSt → ChanSt) : (s.onChan k f).hi = s.hi := rfl
@[simp] theorem onChan_cc (k : Nat) (f : ChanSt → ChanSt) : (s.onChan k f).cc = s.cc := rfl
@[simp] theorem onChan_sg (k : Nat) (f : ChanSt → ChanSt) : (s.onChan k f).sg = s.sg := rfl
@[simp] theorem onChan_xc (k : Nat) (f : ChanSt → ChanSt) : (s.onChan k f).xc = s.xc := rfl
@[simp] theorem onChan_adm (k : Nat) (f : ChanSt → ChanSt) : (s.onChan k f).adm = s.adm := rfl
@[simp] theorem onChan_si (k : Nat) (f : ChanSt → ChanSt) : (s.onChan k f).si = s.si := rfl
@[simp] theorem onChan_ck (k : Nat) (f : ChanSt → ChanSt) : (s.onChan k f).ck = s.ck := rfl
@[simp] theorem onChan_boot (k : Nat) (f : ChanSt → ChanSt) : (s.onChan k f).boot = s.boot := rfl
@[simp] theorem onChan_dma (k : Nat) (f : ChanSt → ChanSt) : (s.onChan k f).dma = s.dma := rfl
@[simp] theorem onChan_st (k : Nat) (f : ChanSt → ChanSt) : (s.onChan k f).st = s.st := rfl
@[simp] theorem onChan_lc (k : Nat) (f : ChanSt → ChanSt) : (s.onChan k f).lc = s.lc := rfl
@[simp] theorem onChan_fs (k : Nat) (f : ChanSt → ChanSt) : (s.onChan k f).fs = s.fs := rfl
@[simp] theorem onChan_ds (k : Nat) (f : ChanSt → ChanSt) : (s.onChan k f).ds = s.ds := rfl
@[simp] theorem onChan_dl (k : Nat) (f : ChanSt → ChanSt) : (s.onChan k f).dl = s.dl := rfl
@[simp] theorem onChan_cxr (k : Nat) (f : ChanSt → ChanSt) : (s.onChan k f).cxr = s.cxr := rfl
@[simp] theorem onChan_ip (k : Nat) (f : ChanSt → ChanSt) : (s.onChan k f).ip = s.ip := rfl
@[simp] theorem onChan_ve (k : Nat) (f : ChanSt → ChanSt) : (s.onChan k f).ve = s.ve := rfl
@[simp] theorem onChan_tb (k : Nat) (f : ChanSt → ChanSt) : (s.onChan k f).tb = s.tb := rfl
@[simp] theorem onChan_en (k : Nat) (f : ChanSt → ChanSt) : (s.onChan k f).en = s.en := rfl
@[simp] theorem onChan_mx (k : Nat) (f : ChanSt → ChanSt) : (s.onChan k f).mx = s.mx := rfl
@[simp] theorem onChan_qe (k : Nat) (f : ChanSt → ChanSt) : (s.onChan k f).qe = s.qe := rfl
@[simp] theorem onChan_le (k : Nat) (f : ChanSt → ChanSt) : (s.onChan k f).le = s.le := rfl
@[simp] theorem onChan_mc (k : Nat) (f : ChanSt → ChanSt) :
    (s.onChan k f).mc = { s.mc with chans := s.mc.chans.upd ChanSt.reset k f } := rfl
@[simp] theorem onChan_cv (k : Nat) (f : ChanSt → ChanSt) : (s.onChan k f).cv = s.cv := rfl

/-! ### `State.setReg` -/

@[simp] theorem setReg_pending (off : Nat) (v : Word) : (s.setReg off v).pending = s.pending := rfl
@[simp] theorem setReg_now (off : Nat) (v : Word) : (s.setReg off v).now = s.now := rfl
@[simp] theorem setReg_freeIx (off : Nat) (v : Word) : (s.setReg off v).freeIx = s.freeIx := rfl
@[simp] theorem setReg_regs (off : Nat) (v : Word) :
    (s.setReg off v).regs = s.regs.set (regReset off) off v := rfl
@[simp] theorem setReg_mem (off : Nat) (v : Word) : (s.setReg off v).mem = s.mem := rfl
@[simp] theorem setReg_poison (off : Nat) (v : Word) : (s.setReg off v).poison = s.poison := rfl
@[simp] theorem setReg_dcache (off : Nat) (v : Word) : (s.setReg off v).dcache = s.dcache := rfl
@[simp] theorem setReg_top (off : Nat) (v : Word) : (s.setReg off v).top = s.top := rfl
@[simp] theorem setReg_hi (off : Nat) (v : Word) : (s.setReg off v).hi = s.hi := rfl
@[simp] theorem setReg_cc (off : Nat) (v : Word) : (s.setReg off v).cc = s.cc := rfl
@[simp] theorem setReg_sg (off : Nat) (v : Word) : (s.setReg off v).sg = s.sg := rfl
@[simp] theorem setReg_xc (off : Nat) (v : Word) : (s.setReg off v).xc = s.xc := rfl
@[simp] theorem setReg_adm (off : Nat) (v : Word) : (s.setReg off v).adm = s.adm := rfl
@[simp] theorem setReg_si (off : Nat) (v : Word) : (s.setReg off v).si = s.si := rfl
@[simp] theorem setReg_ck (off : Nat) (v : Word) : (s.setReg off v).ck = s.ck := rfl
@[simp] theorem setReg_boot (off : Nat) (v : Word) : (s.setReg off v).boot = s.boot := rfl
@[simp] theorem setReg_dma (off : Nat) (v : Word) : (s.setReg off v).dma = s.dma := rfl
@[simp] theorem setReg_st (off : Nat) (v : Word) : (s.setReg off v).st = s.st := rfl
@[simp] theorem setReg_lc (off : Nat) (v : Word) : (s.setReg off v).lc = s.lc := rfl
@[simp] theorem setReg_fs (off : Nat) (v : Word) : (s.setReg off v).fs = s.fs := rfl
@[simp] theorem setReg_ds (off : Nat) (v : Word) : (s.setReg off v).ds = s.ds := rfl
@[simp] theorem setReg_dl (off : Nat) (v : Word) : (s.setReg off v).dl = s.dl := rfl
@[simp] theorem setReg_cxr (off : Nat) (v : Word) : (s.setReg off v).cxr = s.cxr := rfl
@[simp] theorem setReg_ip (off : Nat) (v : Word) : (s.setReg off v).ip = s.ip := rfl
@[simp] theorem setReg_ve (off : Nat) (v : Word) : (s.setReg off v).ve = s.ve := rfl
@[simp] theorem setReg_tb (off : Nat) (v : Word) : (s.setReg off v).tb = s.tb := rfl
@[simp] theorem setReg_en (off : Nat) (v : Word) : (s.setReg off v).en = s.en := rfl
@[simp] theorem setReg_mx (off : Nat) (v : Word) : (s.setReg off v).mx = s.mx := rfl
@[simp] theorem setReg_qe (off : Nat) (v : Word) : (s.setReg off v).qe = s.qe := rfl
@[simp] theorem setReg_le (off : Nat) (v : Word) : (s.setReg off v).le = s.le := rfl
@[simp] theorem setReg_mc (off : Nat) (v : Word) : (s.setReg off v).mc = s.mc := rfl
@[simp] theorem setReg_cv (off : Nat) (v : Word) : (s.setReg off v).cv = s.cv := rfl

/-! ### `State.setFld` -/

@[simp] theorem setFld_pending (off : Nat) (g : Fld) (x : Nat) :
    (s.setFld off g x).pending = s.pending := rfl
@[simp] theorem setFld_now (off : Nat) (g : Fld) (x : Nat) : (s.setFld off g x).now = s.now := rfl
@[simp] theorem setFld_freeIx (off : Nat) (g : Fld) (x : Nat) :
    (s.setFld off g x).freeIx = s.freeIx := rfl
@[simp] theorem setFld_mem (off : Nat) (g : Fld) (x : Nat) : (s.setFld off g x).mem = s.mem := rfl
@[simp] theorem setFld_poison (off : Nat) (g : Fld) (x : Nat) :
    (s.setFld off g x).poison = s.poison := rfl
@[simp] theorem setFld_dcache (off : Nat) (g : Fld) (x : Nat) :
    (s.setFld off g x).dcache = s.dcache := rfl
@[simp] theorem setFld_top (off : Nat) (g : Fld) (x : Nat) : (s.setFld off g x).top = s.top := rfl
@[simp] theorem setFld_hi (off : Nat) (g : Fld) (x : Nat) : (s.setFld off g x).hi = s.hi := rfl
@[simp] theorem setFld_cc (off : Nat) (g : Fld) (x : Nat) : (s.setFld off g x).cc = s.cc := rfl
@[simp] theorem setFld_sg (off : Nat) (g : Fld) (x : Nat) : (s.setFld off g x).sg = s.sg := rfl
@[simp] theorem setFld_xc (off : Nat) (g : Fld) (x : Nat) : (s.setFld off g x).xc = s.xc := rfl
@[simp] theorem setFld_adm (off : Nat) (g : Fld) (x : Nat) : (s.setFld off g x).adm = s.adm := rfl
@[simp] theorem setFld_si (off : Nat) (g : Fld) (x : Nat) : (s.setFld off g x).si = s.si := rfl
@[simp] theorem setFld_ck (off : Nat) (g : Fld) (x : Nat) : (s.setFld off g x).ck = s.ck := rfl
@[simp] theorem setFld_boot (off : Nat) (g : Fld) (x : Nat) : (s.setFld off g x).boot = s.boot := rfl
@[simp] theorem setFld_dma (off : Nat) (g : Fld) (x : Nat) : (s.setFld off g x).dma = s.dma := rfl
@[simp] theorem setFld_st (off : Nat) (g : Fld) (x : Nat) : (s.setFld off g x).st = s.st := rfl
@[simp] theorem setFld_lc (off : Nat) (g : Fld) (x : Nat) : (s.setFld off g x).lc = s.lc := rfl
@[simp] theorem setFld_fs (off : Nat) (g : Fld) (x : Nat) : (s.setFld off g x).fs = s.fs := rfl
@[simp] theorem setFld_ds (off : Nat) (g : Fld) (x : Nat) : (s.setFld off g x).ds = s.ds := rfl
@[simp] theorem setFld_dl (off : Nat) (g : Fld) (x : Nat) : (s.setFld off g x).dl = s.dl := rfl
@[simp] theorem setFld_cxr (off : Nat) (g : Fld) (x : Nat) : (s.setFld off g x).cxr = s.cxr := rfl
@[simp] theorem setFld_ip (off : Nat) (g : Fld) (x : Nat) : (s.setFld off g x).ip = s.ip := rfl
@[simp] theorem setFld_ve (off : Nat) (g : Fld) (x : Nat) : (s.setFld off g x).ve = s.ve := rfl
@[simp] theorem setFld_tb (off : Nat) (g : Fld) (x : Nat) : (s.setFld off g x).tb = s.tb := rfl
@[simp] theorem setFld_en (off : Nat) (g : Fld) (x : Nat) : (s.setFld off g x).en = s.en := rfl
@[simp] theorem setFld_mx (off : Nat) (g : Fld) (x : Nat) : (s.setFld off g x).mx = s.mx := rfl
@[simp] theorem setFld_qe (off : Nat) (g : Fld) (x : Nat) : (s.setFld off g x).qe = s.qe := rfl
@[simp] theorem setFld_le (off : Nat) (g : Fld) (x : Nat) : (s.setFld off g x).le = s.le := rfl
@[simp] theorem setFld_mc (off : Nat) (g : Fld) (x : Nat) : (s.setFld off g x).mc = s.mc := rfl
@[simp] theorem setFld_cv (off : Nat) (g : Fld) (x : Nat) : (s.setFld off g x).cv = s.cv := rfl

/-! ### `State.setBit` -/

@[simp] theorem setBit_pending (off i : Nat) (b : Bool) : (s.setBit off i b).pending = s.pending := rfl
@[simp] theorem setBit_now (off i : Nat) (b : Bool) : (s.setBit off i b).now = s.now := rfl
@[simp] theorem setBit_freeIx (off i : Nat) (b : Bool) : (s.setBit off i b).freeIx = s.freeIx := rfl
@[simp] theorem setBit_mem (off i : Nat) (b : Bool) : (s.setBit off i b).mem = s.mem := rfl
@[simp] theorem setBit_poison (off i : Nat) (b : Bool) : (s.setBit off i b).poison = s.poison := rfl
@[simp] theorem setBit_dcache (off i : Nat) (b : Bool) : (s.setBit off i b).dcache = s.dcache := rfl
@[simp] theorem setBit_top (off i : Nat) (b : Bool) : (s.setBit off i b).top = s.top := rfl
@[simp] theorem setBit_hi (off i : Nat) (b : Bool) : (s.setBit off i b).hi = s.hi := rfl
@[simp] theorem setBit_cc (off i : Nat) (b : Bool) : (s.setBit off i b).cc = s.cc := rfl
@[simp] theorem setBit_sg (off i : Nat) (b : Bool) : (s.setBit off i b).sg = s.sg := rfl
@[simp] theorem setBit_xc (off i : Nat) (b : Bool) : (s.setBit off i b).xc = s.xc := rfl
@[simp] theorem setBit_adm (off i : Nat) (b : Bool) : (s.setBit off i b).adm = s.adm := rfl
@[simp] theorem setBit_si (off i : Nat) (b : Bool) : (s.setBit off i b).si = s.si := rfl
@[simp] theorem setBit_ck (off i : Nat) (b : Bool) : (s.setBit off i b).ck = s.ck := rfl
@[simp] theorem setBit_boot (off i : Nat) (b : Bool) : (s.setBit off i b).boot = s.boot := rfl
@[simp] theorem setBit_dma (off i : Nat) (b : Bool) : (s.setBit off i b).dma = s.dma := rfl
@[simp] theorem setBit_st (off i : Nat) (b : Bool) : (s.setBit off i b).st = s.st := rfl
@[simp] theorem setBit_lc (off i : Nat) (b : Bool) : (s.setBit off i b).lc = s.lc := rfl
@[simp] theorem setBit_fs (off i : Nat) (b : Bool) : (s.setBit off i b).fs = s.fs := rfl
@[simp] theorem setBit_ds (off i : Nat) (b : Bool) : (s.setBit off i b).ds = s.ds := rfl
@[simp] theorem setBit_dl (off i : Nat) (b : Bool) : (s.setBit off i b).dl = s.dl := rfl
@[simp] theorem setBit_cxr (off i : Nat) (b : Bool) : (s.setBit off i b).cxr = s.cxr := rfl
@[simp] theorem setBit_ip (off i : Nat) (b : Bool) : (s.setBit off i b).ip = s.ip := rfl
@[simp] theorem setBit_ve (off i : Nat) (b : Bool) : (s.setBit off i b).ve = s.ve := rfl
@[simp] theorem setBit_tb (off i : Nat) (b : Bool) : (s.setBit off i b).tb = s.tb := rfl
@[simp] theorem setBit_en (off i : Nat) (b : Bool) : (s.setBit off i b).en = s.en := rfl
@[simp] theorem setBit_mx (off i : Nat) (b : Bool) : (s.setBit off i b).mx = s.mx := rfl
@[simp] theorem setBit_qe (off i : Nat) (b : Bool) : (s.setBit off i b).qe = s.qe := rfl
@[simp] theorem setBit_le (off i : Nat) (b : Bool) : (s.setBit off i b).le = s.le := rfl
@[simp] theorem setBit_mc (off i : Nat) (b : Bool) : (s.setBit off i b).mc = s.mc := rfl
@[simp] theorem setBit_cv (off i : Nat) (b : Bool) : (s.setBit off i b).cv = s.cv := rfl

/-! ### `State.count` -/

@[simp] theorem count_pending (off : Nat) : (s.count off).pending = s.pending := rfl
@[simp] theorem count_now (off : Nat) : (s.count off).now = s.now := rfl
@[simp] theorem count_freeIx (off : Nat) : (s.count off).freeIx = s.freeIx := rfl
@[simp] theorem count_mem (off : Nat) : (s.count off).mem = s.mem := rfl
@[simp] theorem count_poison (off : Nat) : (s.count off).poison = s.poison := rfl
@[simp] theorem count_dcache (off : Nat) : (s.count off).dcache = s.dcache := rfl
@[simp] theorem count_top (off : Nat) : (s.count off).top = s.top := rfl
@[simp] theorem count_hi (off : Nat) : (s.count off).hi = s.hi := rfl
@[simp] theorem count_cc (off : Nat) : (s.count off).cc = s.cc := rfl
@[simp] theorem count_sg (off : Nat) : (s.count off).sg = s.sg := rfl
@[simp] theorem count_xc (off : Nat) : (s.count off).xc = s.xc := rfl
@[simp] theorem count_adm (off : Nat) : (s.count off).adm = s.adm := rfl
@[simp] theorem count_si (off : Nat) : (s.count off).si = s.si := rfl
@[simp] theorem count_ck (off : Nat) : (s.count off).ck = s.ck := rfl
@[simp] theorem count_boot (off : Nat) : (s.count off).boot = s.boot := rfl
@[simp] theorem count_dma (off : Nat) : (s.count off).dma = s.dma := rfl
@[simp] theorem count_st (off : Nat) : (s.count off).st = s.st := rfl
@[simp] theorem count_lc (off : Nat) : (s.count off).lc = s.lc := rfl
@[simp] theorem count_fs (off : Nat) : (s.count off).fs = s.fs := rfl
@[simp] theorem count_ds (off : Nat) : (s.count off).ds = s.ds := rfl
@[simp] theorem count_dl (off : Nat) : (s.count off).dl = s.dl := rfl
@[simp] theorem count_cxr (off : Nat) : (s.count off).cxr = s.cxr := rfl
@[simp] theorem count_ip (off : Nat) : (s.count off).ip = s.ip := rfl
@[simp] theorem count_ve (off : Nat) : (s.count off).ve = s.ve := rfl
@[simp] theorem count_tb (off : Nat) : (s.count off).tb = s.tb := rfl
@[simp] theorem count_en (off : Nat) : (s.count off).en = s.en := rfl
@[simp] theorem count_mx (off : Nat) : (s.count off).mx = s.mx := rfl
@[simp] theorem count_qe (off : Nat) : (s.count off).qe = s.qe := rfl
@[simp] theorem count_le (off : Nat) : (s.count off).le = s.le := rfl
@[simp] theorem count_mc (off : Nat) : (s.count off).mc = s.mc := rfl
@[simp] theorem count_cv (off : Nat) : (s.count off).cv = s.cv := rfl

/-! ### `State.setReg64` -/

@[simp] theorem setReg64_pending (lo hi x : Nat) : (s.setReg64 lo hi x).pending = s.pending := rfl
@[simp] theorem setReg64_now (lo hi x : Nat) : (s.setReg64 lo hi x).now = s.now := rfl
@[simp] theorem setReg64_freeIx (lo hi x : Nat) : (s.setReg64 lo hi x).freeIx = s.freeIx := rfl
@[simp] theorem setReg64_mem (lo hi x : Nat) : (s.setReg64 lo hi x).mem = s.mem := rfl
@[simp] theorem setReg64_poison (lo hi x : Nat) : (s.setReg64 lo hi x).poison = s.poison := rfl
@[simp] theorem setReg64_dcache (lo hi x : Nat) : (s.setReg64 lo hi x).dcache = s.dcache := rfl
@[simp] theorem setReg64_top (lo hi x : Nat) : (s.setReg64 lo hi x).top = s.top := rfl
@[simp] theorem setReg64_hi (lo hi x : Nat) : (s.setReg64 lo hi x).hi = s.hi := rfl
@[simp] theorem setReg64_cc (lo hi x : Nat) : (s.setReg64 lo hi x).cc = s.cc := rfl
@[simp] theorem setReg64_sg (lo hi x : Nat) : (s.setReg64 lo hi x).sg = s.sg := rfl
@[simp] theorem setReg64_xc (lo hi x : Nat) : (s.setReg64 lo hi x).xc = s.xc := rfl
@[simp] theorem setReg64_adm (lo hi x : Nat) : (s.setReg64 lo hi x).adm = s.adm := rfl
@[simp] theorem setReg64_si (lo hi x : Nat) : (s.setReg64 lo hi x).si = s.si := rfl
@[simp] theorem setReg64_ck (lo hi x : Nat) : (s.setReg64 lo hi x).ck = s.ck := rfl
@[simp] theorem setReg64_boot (lo hi x : Nat) : (s.setReg64 lo hi x).boot = s.boot := rfl
@[simp] theorem setReg64_dma (lo hi x : Nat) : (s.setReg64 lo hi x).dma = s.dma := rfl
@[simp] theorem setReg64_st (lo hi x : Nat) : (s.setReg64 lo hi x).st = s.st := rfl
@[simp] theorem setReg64_lc (lo hi x : Nat) : (s.setReg64 lo hi x).lc = s.lc := rfl
@[simp] theorem setReg64_fs (lo hi x : Nat) : (s.setReg64 lo hi x).fs = s.fs := rfl
@[simp] theorem setReg64_ds (lo hi x : Nat) : (s.setReg64 lo hi x).ds = s.ds := rfl
@[simp] theorem setReg64_dl (lo hi x : Nat) : (s.setReg64 lo hi x).dl = s.dl := rfl
@[simp] theorem setReg64_cxr (lo hi x : Nat) : (s.setReg64 lo hi x).cxr = s.cxr := rfl
@[simp] theorem setReg64_ip (lo hi x : Nat) : (s.setReg64 lo hi x).ip = s.ip := rfl
@[simp] theorem setReg64_ve (lo hi x : Nat) : (s.setReg64 lo hi x).ve = s.ve := rfl
@[simp] theorem setReg64_tb (lo hi x : Nat) : (s.setReg64 lo hi x).tb = s.tb := rfl
@[simp] theorem setReg64_en (lo hi x : Nat) : (s.setReg64 lo hi x).en = s.en := rfl
@[simp] theorem setReg64_mx (lo hi x : Nat) : (s.setReg64 lo hi x).mx = s.mx := rfl
@[simp] theorem setReg64_qe (lo hi x : Nat) : (s.setReg64 lo hi x).qe = s.qe := rfl
@[simp] theorem setReg64_le (lo hi x : Nat) : (s.setReg64 lo hi x).le = s.le := rfl
@[simp] theorem setReg64_mc (lo hi x : Nat) : (s.setReg64 lo hi x).mc = s.mc := rfl
@[simp] theorem setReg64_cv (lo hi x : Nat) : (s.setReg64 lo hi x).cv = s.cv := rfl

/-! ### `State.setPba` -/

@[simp] theorem setPba_pending (v : Nat) (b : Bool) : (s.setPba v b).pending = s.pending := rfl
@[simp] theorem setPba_now (v : Nat) (b : Bool) : (s.setPba v b).now = s.now := rfl
@[simp] theorem setPba_freeIx (v : Nat) (b : Bool) : (s.setPba v b).freeIx = s.freeIx := rfl
@[simp] theorem setPba_mem (v : Nat) (b : Bool) : (s.setPba v b).mem = s.mem := rfl
@[simp] theorem setPba_poison (v : Nat) (b : Bool) : (s.setPba v b).poison = s.poison := rfl
@[simp] theorem setPba_dcache (v : Nat) (b : Bool) : (s.setPba v b).dcache = s.dcache := rfl
@[simp] theorem setPba_top (v : Nat) (b : Bool) : (s.setPba v b).top = s.top := rfl
@[simp] theorem setPba_hi (v : Nat) (b : Bool) : (s.setPba v b).hi = s.hi := rfl
@[simp] theorem setPba_cc (v : Nat) (b : Bool) : (s.setPba v b).cc = s.cc := rfl
@[simp] theorem setPba_sg (v : Nat) (b : Bool) : (s.setPba v b).sg = s.sg := rfl
@[simp] theorem setPba_xc (v : Nat) (b : Bool) : (s.setPba v b).xc = s.xc := rfl
@[simp] theorem setPba_adm (v : Nat) (b : Bool) : (s.setPba v b).adm = s.adm := rfl
@[simp] theorem setPba_si (v : Nat) (b : Bool) : (s.setPba v b).si = s.si := rfl
@[simp] theorem setPba_ck (v : Nat) (b : Bool) : (s.setPba v b).ck = s.ck := rfl
@[simp] theorem setPba_boot (v : Nat) (b : Bool) : (s.setPba v b).boot = s.boot := rfl
@[simp] theorem setPba_dma (v : Nat) (b : Bool) : (s.setPba v b).dma = s.dma := rfl
@[simp] theorem setPba_st (v : Nat) (b : Bool) : (s.setPba v b).st = s.st := rfl
@[simp] theorem setPba_lc (v : Nat) (b : Bool) : (s.setPba v b).lc = s.lc := rfl
@[simp] theorem setPba_fs (v : Nat) (b : Bool) : (s.setPba v b).fs = s.fs := rfl
@[simp] theorem setPba_ds (v : Nat) (b : Bool) : (s.setPba v b).ds = s.ds := rfl
@[simp] theorem setPba_dl (v : Nat) (b : Bool) : (s.setPba v b).dl = s.dl := rfl
@[simp] theorem setPba_cxr (v : Nat) (b : Bool) : (s.setPba v b).cxr = s.cxr := rfl
@[simp] theorem setPba_ip (v : Nat) (b : Bool) : (s.setPba v b).ip = s.ip := rfl
@[simp] theorem setPba_ve (v : Nat) (b : Bool) : (s.setPba v b).ve = s.ve := rfl
@[simp] theorem setPba_tb (v : Nat) (b : Bool) : (s.setPba v b).tb = s.tb := rfl
@[simp] theorem setPba_en (v : Nat) (b : Bool) : (s.setPba v b).en = s.en := rfl
@[simp] theorem setPba_mx (v : Nat) (b : Bool) : (s.setPba v b).mx = s.mx := rfl
@[simp] theorem setPba_qe (v : Nat) (b : Bool) : (s.setPba v b).qe = s.qe := rfl
@[simp] theorem setPba_le (v : Nat) (b : Bool) : (s.setPba v b).le = s.le := rfl
@[simp] theorem setPba_mc (v : Nat) (b : Bool) : (s.setPba v b).mc = s.mc := rfl
@[simp] theorem setPba_cv (v : Nat) (b : Bool) : (s.setPba v b).cv = s.cv := rfl

/-! ### `State.setUnit` -/

@[simp] theorem setUnit_pending (u v : Nat) : (s.setUnit u v).pending = s.pending := rfl
@[simp] theorem setUnit_now (u v : Nat) : (s.setUnit u v).now = s.now := rfl
@[simp] theorem setUnit_freeIx (u v : Nat) : (s.setUnit u v).freeIx = s.freeIx := rfl
@[simp] theorem setUnit_mem (u v : Nat) : (s.setUnit u v).mem = s.mem := rfl
@[simp] theorem setUnit_poison (u v : Nat) : (s.setUnit u v).poison = s.poison := rfl
@[simp] theorem setUnit_dcache (u v : Nat) : (s.setUnit u v).dcache = s.dcache := rfl
@[simp] theorem setUnit_top (u v : Nat) : (s.setUnit u v).top = s.top := rfl
@[simp] theorem setUnit_hi (u v : Nat) : (s.setUnit u v).hi = s.hi := rfl
@[simp] theorem setUnit_cc (u v : Nat) : (s.setUnit u v).cc = s.cc := rfl
@[simp] theorem setUnit_sg (u v : Nat) : (s.setUnit u v).sg = s.sg := rfl
@[simp] theorem setUnit_xc (u v : Nat) : (s.setUnit u v).xc = s.xc := rfl
@[simp] theorem setUnit_adm (u v : Nat) : (s.setUnit u v).adm = s.adm := rfl
@[simp] theorem setUnit_si (u v : Nat) : (s.setUnit u v).si = s.si := rfl
@[simp] theorem setUnit_ck (u v : Nat) : (s.setUnit u v).ck = s.ck := rfl
@[simp] theorem setUnit_boot (u v : Nat) : (s.setUnit u v).boot = s.boot := rfl
@[simp] theorem setUnit_dma (u v : Nat) : (s.setUnit u v).dma = s.dma := rfl
@[simp] theorem setUnit_st (u v : Nat) : (s.setUnit u v).st = s.st := rfl
@[simp] theorem setUnit_lc (u v : Nat) : (s.setUnit u v).lc = s.lc := rfl
@[simp] theorem setUnit_fs (u v : Nat) : (s.setUnit u v).fs = s.fs := rfl
@[simp] theorem setUnit_ds (u v : Nat) : (s.setUnit u v).ds = s.ds := rfl
@[simp] theorem setUnit_dl (u v : Nat) : (s.setUnit u v).dl = s.dl := rfl
@[simp] theorem setUnit_cxr (u v : Nat) : (s.setUnit u v).cxr = s.cxr := rfl
@[simp] theorem setUnit_ip (u v : Nat) : (s.setUnit u v).ip = s.ip := rfl
@[simp] theorem setUnit_ve (u v : Nat) : (s.setUnit u v).ve = s.ve := rfl
@[simp] theorem setUnit_tb (u v : Nat) : (s.setUnit u v).tb = s.tb := rfl
@[simp] theorem setUnit_en (u v : Nat) : (s.setUnit u v).en = s.en := rfl
@[simp] theorem setUnit_mx (u v : Nat) : (s.setUnit u v).mx = s.mx := rfl
@[simp] theorem setUnit_qe (u v : Nat) : (s.setUnit u v).qe = s.qe := rfl
@[simp] theorem setUnit_le (u v : Nat) : (s.setUnit u v).le = s.le := rfl
@[simp] theorem setUnit_mc (u v : Nat) : (s.setUnit u v).mc = s.mc := rfl
@[simp] theorem setUnit_cv (u v : Nat) : (s.setUnit u v).cv = s.cv := rfl

/-! ### `State.msixSend` -/

@[simp] theorem msixSend_pending (v : Nat) : (s.msixSend v).pending = s.pending := rfl
@[simp] theorem msixSend_now (v : Nat) : (s.msixSend v).now = s.now := rfl
@[simp] theorem msixSend_freeIx (v : Nat) : (s.msixSend v).freeIx = s.freeIx := rfl
@[simp] theorem msixSend_regs (v : Nat) : (s.msixSend v).regs = s.regs := rfl
@[simp] theorem msixSend_mem (v : Nat) : (s.msixSend v).mem = s.mem := rfl
@[simp] theorem msixSend_poison (v : Nat) : (s.msixSend v).poison = s.poison := rfl
@[simp] theorem msixSend_dcache (v : Nat) : (s.msixSend v).dcache = s.dcache := rfl
@[simp] theorem msixSend_hi (v : Nat) : (s.msixSend v).hi = s.hi := rfl
@[simp] theorem msixSend_cc (v : Nat) : (s.msixSend v).cc = s.cc := rfl
@[simp] theorem msixSend_sg (v : Nat) : (s.msixSend v).sg = s.sg := rfl
@[simp] theorem msixSend_xc (v : Nat) : (s.msixSend v).xc = s.xc := rfl
@[simp] theorem msixSend_adm (v : Nat) : (s.msixSend v).adm = s.adm := rfl
@[simp] theorem msixSend_si (v : Nat) : (s.msixSend v).si = s.si := rfl
@[simp] theorem msixSend_ck (v : Nat) : (s.msixSend v).ck = s.ck := rfl
@[simp] theorem msixSend_boot (v : Nat) : (s.msixSend v).boot = s.boot := rfl
@[simp] theorem msixSend_dma (v : Nat) : (s.msixSend v).dma = s.dma := rfl
@[simp] theorem msixSend_st (v : Nat) : (s.msixSend v).st = s.st := rfl
@[simp] theorem msixSend_lc (v : Nat) : (s.msixSend v).lc = s.lc := rfl
@[simp] theorem msixSend_fs (v : Nat) : (s.msixSend v).fs = s.fs := rfl
@[simp] theorem msixSend_ds (v : Nat) : (s.msixSend v).ds = s.ds := rfl
@[simp] theorem msixSend_dl (v : Nat) : (s.msixSend v).dl = s.dl := rfl
@[simp] theorem msixSend_cxr (v : Nat) : (s.msixSend v).cxr = s.cxr := rfl
@[simp] theorem msixSend_ip (v : Nat) : (s.msixSend v).ip = s.ip := rfl
@[simp] theorem msixSend_ve (v : Nat) : (s.msixSend v).ve = s.ve := rfl
@[simp] theorem msixSend_tb (v : Nat) : (s.msixSend v).tb = s.tb := rfl
@[simp] theorem msixSend_en (v : Nat) : (s.msixSend v).en = s.en := rfl
@[simp] theorem msixSend_mx (v : Nat) : (s.msixSend v).mx = s.mx := rfl
@[simp] theorem msixSend_qe (v : Nat) : (s.msixSend v).qe = s.qe := rfl
@[simp] theorem msixSend_le (v : Nat) : (s.msixSend v).le = s.le := rfl
@[simp] theorem msixSend_mc (v : Nat) : (s.msixSend v).mc = s.mc := rfl
@[simp] theorem msixSend_cv (v : Nat) : (s.msixSend v).cv = s.cv := rfl

/-! ### `State.clearEvents` -/

@[simp] theorem clearEvents_pending (key : Nat) : (s.clearEvents key).pending = s.pending := rfl
@[simp] theorem clearEvents_now (key : Nat) : (s.clearEvents key).now = s.now := rfl
@[simp] theorem clearEvents_freeIx (key : Nat) : (s.clearEvents key).freeIx = s.freeIx := rfl
@[simp] theorem clearEvents_regs (key : Nat) : (s.clearEvents key).regs = s.regs := rfl
@[simp] theorem clearEvents_mem (key : Nat) : (s.clearEvents key).mem = s.mem := rfl
@[simp] theorem clearEvents_poison (key : Nat) : (s.clearEvents key).poison = s.poison := rfl
@[simp] theorem clearEvents_dcache (key : Nat) : (s.clearEvents key).dcache = s.dcache := rfl
@[simp] theorem clearEvents_top (key : Nat) : (s.clearEvents key).top = s.top := rfl
@[simp] theorem clearEvents_hi (key : Nat) : (s.clearEvents key).hi = s.hi := rfl
@[simp] theorem clearEvents_cc (key : Nat) : (s.clearEvents key).cc = s.cc := rfl
@[simp] theorem clearEvents_sg (key : Nat) : (s.clearEvents key).sg = s.sg := rfl
@[simp] theorem clearEvents_xc (key : Nat) : (s.clearEvents key).xc = s.xc := rfl
@[simp] theorem clearEvents_adm (key : Nat) : (s.clearEvents key).adm = s.adm := rfl
@[simp] theorem clearEvents_ck (key : Nat) : (s.clearEvents key).ck = s.ck := rfl
@[simp] theorem clearEvents_boot (key : Nat) : (s.clearEvents key).boot = s.boot := rfl
@[simp] theorem clearEvents_dma (key : Nat) : (s.clearEvents key).dma = s.dma := rfl
@[simp] theorem clearEvents_st (key : Nat) : (s.clearEvents key).st = s.st := rfl
@[simp] theorem clearEvents_lc (key : Nat) : (s.clearEvents key).lc = s.lc := rfl
@[simp] theorem clearEvents_fs (key : Nat) : (s.clearEvents key).fs = s.fs := rfl
@[simp] theorem clearEvents_ds (key : Nat) : (s.clearEvents key).ds = s.ds := rfl
@[simp] theorem clearEvents_dl (key : Nat) : (s.clearEvents key).dl = s.dl := rfl
@[simp] theorem clearEvents_cxr (key : Nat) : (s.clearEvents key).cxr = s.cxr := rfl
@[simp] theorem clearEvents_ip (key : Nat) : (s.clearEvents key).ip = s.ip := rfl
@[simp] theorem clearEvents_ve (key : Nat) : (s.clearEvents key).ve = s.ve := rfl
@[simp] theorem clearEvents_tb (key : Nat) : (s.clearEvents key).tb = s.tb := rfl
@[simp] theorem clearEvents_en (key : Nat) : (s.clearEvents key).en = s.en := rfl
@[simp] theorem clearEvents_mx (key : Nat) : (s.clearEvents key).mx = s.mx := rfl
@[simp] theorem clearEvents_qe (key : Nat) : (s.clearEvents key).qe = s.qe := rfl
@[simp] theorem clearEvents_le (key : Nat) : (s.clearEvents key).le = s.le := rfl
@[simp] theorem clearEvents_mc (key : Nat) : (s.clearEvents key).mc = s.mc := rfl
@[simp] theorem clearEvents_cv (key : Nat) : (s.clearEvents key).cv = s.cv := rfl

/-! ### `State.storeBytes` -/

@[simp] theorem storeBytes_pending (a : Nat) (bs : List Byte) :
    (s.storeBytes a bs).pending = s.pending := rfl
@[simp] theorem storeBytes_now (a : Nat) (bs : List Byte) : (s.storeBytes a bs).now = s.now := rfl
@[simp] theorem storeBytes_freeIx (a : Nat) (bs : List Byte) :
    (s.storeBytes a bs).freeIx = s.freeIx := rfl
@[simp] theorem storeBytes_regs (a : Nat) (bs : List Byte) : (s.storeBytes a bs).regs = s.regs := rfl
@[simp] theorem storeBytes_mem (a : Nat) (bs : List Byte) :
    (s.storeBytes a bs).mem = memStore s.mem a bs := rfl
@[simp] theorem storeBytes_dcache (a : Nat) (bs : List Byte) :
    (s.storeBytes a bs).dcache = s.dcache := rfl
@[simp] theorem storeBytes_top (a : Nat) (bs : List Byte) : (s.storeBytes a bs).top = s.top := rfl
@[simp] theorem storeBytes_hi (a : Nat) (bs : List Byte) : (s.storeBytes a bs).hi = s.hi := rfl
@[simp] theorem storeBytes_cc (a : Nat) (bs : List Byte) : (s.storeBytes a bs).cc = s.cc := rfl
@[simp] theorem storeBytes_sg (a : Nat) (bs : List Byte) : (s.storeBytes a bs).sg = s.sg := rfl
@[simp] theorem storeBytes_xc (a : Nat) (bs : List Byte) : (s.storeBytes a bs).xc = s.xc := rfl
@[simp] theorem storeBytes_adm (a : Nat) (bs : List Byte) : (s.storeBytes a bs).adm = s.adm := rfl
@[simp] theorem storeBytes_si (a : Nat) (bs : List Byte) : (s.storeBytes a bs).si = s.si := rfl
@[simp] theorem storeBytes_ck (a : Nat) (bs : List Byte) : (s.storeBytes a bs).ck = s.ck := rfl
@[simp] theorem storeBytes_boot (a : Nat) (bs : List Byte) : (s.storeBytes a bs).boot = s.boot := rfl
@[simp] theorem storeBytes_dma (a : Nat) (bs : List Byte) : (s.storeBytes a bs).dma = s.dma := rfl
@[simp] theorem storeBytes_st (a : Nat) (bs : List Byte) : (s.storeBytes a bs).st = s.st := rfl
@[simp] theorem storeBytes_lc (a : Nat) (bs : List Byte) : (s.storeBytes a bs).lc = s.lc := rfl
@[simp] theorem storeBytes_fs (a : Nat) (bs : List Byte) : (s.storeBytes a bs).fs = s.fs := rfl
@[simp] theorem storeBytes_ds (a : Nat) (bs : List Byte) : (s.storeBytes a bs).ds = s.ds := rfl
@[simp] theorem storeBytes_dl (a : Nat) (bs : List Byte) : (s.storeBytes a bs).dl = s.dl := rfl
@[simp] theorem storeBytes_cxr (a : Nat) (bs : List Byte) : (s.storeBytes a bs).cxr = s.cxr := rfl
@[simp] theorem storeBytes_ip (a : Nat) (bs : List Byte) : (s.storeBytes a bs).ip = s.ip := rfl
@[simp] theorem storeBytes_ve (a : Nat) (bs : List Byte) : (s.storeBytes a bs).ve = s.ve := rfl
@[simp] theorem storeBytes_tb (a : Nat) (bs : List Byte) : (s.storeBytes a bs).tb = s.tb := rfl
@[simp] theorem storeBytes_en (a : Nat) (bs : List Byte) : (s.storeBytes a bs).en = s.en := rfl
@[simp] theorem storeBytes_mx (a : Nat) (bs : List Byte) : (s.storeBytes a bs).mx = s.mx := rfl
@[simp] theorem storeBytes_qe (a : Nat) (bs : List Byte) : (s.storeBytes a bs).qe = s.qe := rfl
@[simp] theorem storeBytes_le (a : Nat) (bs : List Byte) : (s.storeBytes a bs).le = s.le := rfl
@[simp] theorem storeBytes_mc (a : Nat) (bs : List Byte) : (s.storeBytes a bs).mc = s.mc := rfl
@[simp] theorem storeBytes_cv (a : Nat) (bs : List Byte) : (s.storeBytes a bs).cv = s.cv := rfl

/-! ### `State.storeNat` -/

@[simp] theorem storeNat_pending (a n x : Nat) : (s.storeNat a n x).pending = s.pending := rfl
@[simp] theorem storeNat_now (a n x : Nat) : (s.storeNat a n x).now = s.now := rfl
@[simp] theorem storeNat_freeIx (a n x : Nat) : (s.storeNat a n x).freeIx = s.freeIx := rfl
@[simp] theorem storeNat_regs (a n x : Nat) : (s.storeNat a n x).regs = s.regs := rfl
@[simp] theorem storeNat_mem (a n x : Nat) :
    (s.storeNat a n x).mem = memStore s.mem a (leBytes n x) := rfl
@[simp] theorem storeNat_dcache (a n x : Nat) : (s.storeNat a n x).dcache = s.dcache := rfl
@[simp] theorem storeNat_top (a n x : Nat) : (s.storeNat a n x).top = s.top := rfl
@[simp] theorem storeNat_hi (a n x : Nat) : (s.storeNat a n x).hi = s.hi := rfl
@[simp] theorem storeNat_cc (a n x : Nat) : (s.storeNat a n x).cc = s.cc := rfl
@[simp] theorem storeNat_sg (a n x : Nat) : (s.storeNat a n x).sg = s.sg := rfl
@[simp] theorem storeNat_xc (a n x : Nat) : (s.storeNat a n x).xc = s.xc := rfl
@[simp] theorem storeNat_adm (a n x : Nat) : (s.storeNat a n x).adm = s.adm := rfl
@[simp] theorem storeNat_si (a n x : Nat) : (s.storeNat a n x).si = s.si := rfl
@[simp] theorem storeNat_ck (a n x : Nat) : (s.storeNat a n x).ck = s.ck := rfl
@[simp] theorem storeNat_boot (a n x : Nat) : (s.storeNat a n x).boot = s.boot := rfl
@[simp] theorem storeNat_dma (a n x : Nat) : (s.storeNat a n x).dma = s.dma := rfl
@[simp] theorem storeNat_st (a n x : Nat) : (s.storeNat a n x).st = s.st := rfl
@[simp] theorem storeNat_lc (a n x : Nat) : (s.storeNat a n x).lc = s.lc := rfl
@[simp] theorem storeNat_fs (a n x : Nat) : (s.storeNat a n x).fs = s.fs := rfl
@[simp] theorem storeNat_ds (a n x : Nat) : (s.storeNat a n x).ds = s.ds := rfl
@[simp] theorem storeNat_dl (a n x : Nat) : (s.storeNat a n x).dl = s.dl := rfl
@[simp] theorem storeNat_cxr (a n x : Nat) : (s.storeNat a n x).cxr = s.cxr := rfl
@[simp] theorem storeNat_ip (a n x : Nat) : (s.storeNat a n x).ip = s.ip := rfl
@[simp] theorem storeNat_ve (a n x : Nat) : (s.storeNat a n x).ve = s.ve := rfl
@[simp] theorem storeNat_tb (a n x : Nat) : (s.storeNat a n x).tb = s.tb := rfl
@[simp] theorem storeNat_en (a n x : Nat) : (s.storeNat a n x).en = s.en := rfl
@[simp] theorem storeNat_mx (a n x : Nat) : (s.storeNat a n x).mx = s.mx := rfl
@[simp] theorem storeNat_qe (a n x : Nat) : (s.storeNat a n x).qe = s.qe := rfl
@[simp] theorem storeNat_le (a n x : Nat) : (s.storeNat a n x).le = s.le := rfl
@[simp] theorem storeNat_mc (a n x : Nat) : (s.storeNat a n x).mc = s.mc := rfl
@[simp] theorem storeNat_cv (a n x : Nat) : (s.storeNat a n x).cv = s.cv := rfl

/-! ### `State.clearBytes` -/

@[simp] theorem clearBytes_pending (a n : Nat) : (s.clearBytes a n).pending = s.pending := rfl
@[simp] theorem clearBytes_now (a n : Nat) : (s.clearBytes a n).now = s.now := rfl
@[simp] theorem clearBytes_freeIx (a n : Nat) : (s.clearBytes a n).freeIx = s.freeIx := rfl
@[simp] theorem clearBytes_regs (a n : Nat) : (s.clearBytes a n).regs = s.regs := rfl
@[simp] theorem clearBytes_mem (a n : Nat) : (s.clearBytes a n).mem = memClear s.mem a n := rfl
@[simp] theorem clearBytes_poison (a n : Nat) : (s.clearBytes a n).poison =
    s.poison.filter fun e => !(decide (a ≤ 64 * e.1) && decide (64 * e.1 + 64 ≤ a + n)) := rfl
@[simp] theorem clearBytes_dcache (a n : Nat) : (s.clearBytes a n).dcache = s.dcache := rfl
@[simp] theorem clearBytes_top (a n : Nat) : (s.clearBytes a n).top = s.top := rfl
@[simp] theorem clearBytes_hi (a n : Nat) : (s.clearBytes a n).hi = s.hi := rfl
@[simp] theorem clearBytes_cc (a n : Nat) : (s.clearBytes a n).cc = s.cc := rfl
@[simp] theorem clearBytes_sg (a n : Nat) : (s.clearBytes a n).sg = s.sg := rfl
@[simp] theorem clearBytes_xc (a n : Nat) : (s.clearBytes a n).xc = s.xc := rfl
@[simp] theorem clearBytes_adm (a n : Nat) : (s.clearBytes a n).adm = s.adm := rfl
@[simp] theorem clearBytes_si (a n : Nat) : (s.clearBytes a n).si = s.si := rfl
@[simp] theorem clearBytes_ck (a n : Nat) : (s.clearBytes a n).ck = s.ck := rfl
@[simp] theorem clearBytes_boot (a n : Nat) : (s.clearBytes a n).boot = s.boot := rfl
@[simp] theorem clearBytes_dma (a n : Nat) : (s.clearBytes a n).dma = s.dma := rfl
@[simp] theorem clearBytes_st (a n : Nat) : (s.clearBytes a n).st = s.st := rfl
@[simp] theorem clearBytes_lc (a n : Nat) : (s.clearBytes a n).lc = s.lc := rfl
@[simp] theorem clearBytes_fs (a n : Nat) : (s.clearBytes a n).fs = s.fs := rfl
@[simp] theorem clearBytes_ds (a n : Nat) : (s.clearBytes a n).ds = s.ds := rfl
@[simp] theorem clearBytes_dl (a n : Nat) : (s.clearBytes a n).dl = s.dl := rfl
@[simp] theorem clearBytes_cxr (a n : Nat) : (s.clearBytes a n).cxr = s.cxr := rfl
@[simp] theorem clearBytes_ip (a n : Nat) : (s.clearBytes a n).ip = s.ip := rfl
@[simp] theorem clearBytes_ve (a n : Nat) : (s.clearBytes a n).ve = s.ve := rfl
@[simp] theorem clearBytes_tb (a n : Nat) : (s.clearBytes a n).tb = s.tb := rfl
@[simp] theorem clearBytes_en (a n : Nat) : (s.clearBytes a n).en = s.en := rfl
@[simp] theorem clearBytes_mx (a n : Nat) : (s.clearBytes a n).mx = s.mx := rfl
@[simp] theorem clearBytes_qe (a n : Nat) : (s.clearBytes a n).qe = s.qe := rfl
@[simp] theorem clearBytes_le (a n : Nat) : (s.clearBytes a n).le = s.le := rfl
@[simp] theorem clearBytes_mc (a n : Nat) : (s.clearBytes a n).mc = s.mc := rfl
@[simp] theorem clearBytes_cv (a n : Nat) : (s.clearBytes a n).cv = s.cv := rfl

/-! ### `State.draw` -/

@[simp] theorem draw_number : s.draw.1 = s.freeIx := rfl
@[simp] theorem draw_pending : s.draw.2.pending = s.pending := rfl
@[simp] theorem draw_now : s.draw.2.now = s.now := rfl
@[simp] theorem draw_freeIx : s.draw.2.freeIx = s.freeIx + 1 := rfl
@[simp] theorem draw_regs : s.draw.2.regs = s.regs := rfl
@[simp] theorem draw_mem : s.draw.2.mem = s.mem := rfl
@[simp] theorem draw_poison : s.draw.2.poison = s.poison := rfl
@[simp] theorem draw_dcache : s.draw.2.dcache = s.dcache := rfl
@[simp] theorem draw_top : s.draw.2.top = s.top := rfl
@[simp] theorem draw_hi : s.draw.2.hi = s.hi := rfl
@[simp] theorem draw_cc : s.draw.2.cc = s.cc := rfl
@[simp] theorem draw_sg : s.draw.2.sg = s.sg := rfl
@[simp] theorem draw_xc : s.draw.2.xc = s.xc := rfl
@[simp] theorem draw_adm : s.draw.2.adm = s.adm := rfl
@[simp] theorem draw_si : s.draw.2.si = s.si := rfl
@[simp] theorem draw_ck : s.draw.2.ck = s.ck := rfl
@[simp] theorem draw_boot : s.draw.2.boot = s.boot := rfl
@[simp] theorem draw_dma : s.draw.2.dma = s.dma := rfl
@[simp] theorem draw_st : s.draw.2.st = s.st := rfl
@[simp] theorem draw_lc : s.draw.2.lc = s.lc := rfl
@[simp] theorem draw_fs : s.draw.2.fs = s.fs := rfl
@[simp] theorem draw_ds : s.draw.2.ds = s.ds := rfl
@[simp] theorem draw_dl : s.draw.2.dl = s.dl := rfl
@[simp] theorem draw_cxr : s.draw.2.cxr = s.cxr := rfl
@[simp] theorem draw_ip : s.draw.2.ip = s.ip := rfl
@[simp] theorem draw_ve : s.draw.2.ve = s.ve := rfl
@[simp] theorem draw_tb : s.draw.2.tb = s.tb := rfl
@[simp] theorem draw_en : s.draw.2.en = s.en := rfl
@[simp] theorem draw_mx : s.draw.2.mx = s.mx := rfl
@[simp] theorem draw_qe : s.draw.2.qe = s.qe := rfl
@[simp] theorem draw_le : s.draw.2.le = s.le := rfl
@[simp] theorem draw_mc : s.draw.2.mc = s.mc := rfl
@[simp] theorem draw_cv : s.draw.2.cv = s.cv := rfl

/-! ### `State.grant` -/

@[simp] theorem grant_pending (key n w : Nat) : (s.grant key n w).pending = s.pending := rfl
@[simp] theorem grant_now (key n w : Nat) : (s.grant key n w).now = s.now := rfl
@[simp] theorem grant_freeIx (key n w : Nat) : (s.grant key n w).freeIx = s.freeIx := rfl
@[simp] theorem grant_regs (key n w : Nat) : (s.grant key n w).regs = s.regs := rfl
@[simp] theorem grant_mem (key n w : Nat) : (s.grant key n w).mem = s.mem := rfl
@[simp] theorem grant_poison (key n w : Nat) : (s.grant key n w).poison = s.poison := rfl
@[simp] theorem grant_dcache (key n w : Nat) : (s.grant key n w).dcache = s.dcache := rfl
@[simp] theorem grant_top (key n w : Nat) :
    (s.grant key n w).top = { s.top with rrPtr := s.top.rrPtr.set 0 key (rrNext n w) } := rfl
@[simp] theorem grant_hi (key n w : Nat) : (s.grant key n w).hi = s.hi := rfl
@[simp] theorem grant_cc (key n w : Nat) : (s.grant key n w).cc = s.cc := rfl
@[simp] theorem grant_sg (key n w : Nat) : (s.grant key n w).sg = s.sg := rfl
@[simp] theorem grant_xc (key n w : Nat) : (s.grant key n w).xc = s.xc := rfl
@[simp] theorem grant_adm (key n w : Nat) : (s.grant key n w).adm = s.adm := rfl
@[simp] theorem grant_si (key n w : Nat) : (s.grant key n w).si = s.si := rfl
@[simp] theorem grant_ck (key n w : Nat) : (s.grant key n w).ck = s.ck := rfl
@[simp] theorem grant_boot (key n w : Nat) : (s.grant key n w).boot = s.boot := rfl
@[simp] theorem grant_dma (key n w : Nat) : (s.grant key n w).dma = s.dma := rfl
@[simp] theorem grant_st (key n w : Nat) : (s.grant key n w).st = s.st := rfl
@[simp] theorem grant_lc (key n w : Nat) : (s.grant key n w).lc = s.lc := rfl
@[simp] theorem grant_fs (key n w : Nat) : (s.grant key n w).fs = s.fs := rfl
@[simp] theorem grant_ds (key n w : Nat) : (s.grant key n w).ds = s.ds := rfl
@[simp] theorem grant_dl (key n w : Nat) : (s.grant key n w).dl = s.dl := rfl
@[simp] theorem grant_cxr (key n w : Nat) : (s.grant key n w).cxr = s.cxr := rfl
@[simp] theorem grant_ip (key n w : Nat) : (s.grant key n w).ip = s.ip := rfl
@[simp] theorem grant_ve (key n w : Nat) : (s.grant key n w).ve = s.ve := rfl
@[simp] theorem grant_tb (key n w : Nat) : (s.grant key n w).tb = s.tb := rfl
@[simp] theorem grant_en (key n w : Nat) : (s.grant key n w).en = s.en := rfl
@[simp] theorem grant_mx (key n w : Nat) : (s.grant key n w).mx = s.mx := rfl
@[simp] theorem grant_qe (key n w : Nat) : (s.grant key n w).qe = s.qe := rfl
@[simp] theorem grant_le (key n w : Nat) : (s.grant key n w).le = s.le := rfl
@[simp] theorem grant_mc (key n w : Nat) : (s.grant key n w).mc = s.mc := rfl
@[simp] theorem grant_cv (key n w : Nat) : (s.grant key n w).cv = s.cv := rfl

/-! ### `State.setPoison` -/

@[simp] theorem setPoison_pending (l : Nat) : (s.setPoison l).pending = s.pending := rfl
@[simp] theorem setPoison_now (l : Nat) : (s.setPoison l).now = s.now := rfl
@[simp] theorem setPoison_freeIx (l : Nat) : (s.setPoison l).freeIx = s.freeIx := rfl
@[simp] theorem setPoison_regs (l : Nat) : (s.setPoison l).regs = s.regs := rfl
@[simp] theorem setPoison_mem (l : Nat) : (s.setPoison l).mem = s.mem := rfl
@[simp] theorem setPoison_poison (l : Nat) : (s.setPoison l).poison = s.poison.set false l true := rfl
@[simp] theorem setPoison_dcache (l : Nat) : (s.setPoison l).dcache = s.dcache := rfl
@[simp] theorem setPoison_top (l : Nat) : (s.setPoison l).top = s.top := rfl
@[simp] theorem setPoison_hi (l : Nat) : (s.setPoison l).hi = s.hi := rfl
@[simp] theorem setPoison_cc (l : Nat) : (s.setPoison l).cc = s.cc := rfl
@[simp] theorem setPoison_sg (l : Nat) : (s.setPoison l).sg = s.sg := rfl
@[simp] theorem setPoison_xc (l : Nat) : (s.setPoison l).xc = s.xc := rfl
@[simp] theorem setPoison_adm (l : Nat) : (s.setPoison l).adm = s.adm := rfl
@[simp] theorem setPoison_si (l : Nat) : (s.setPoison l).si = s.si := rfl
@[simp] theorem setPoison_ck (l : Nat) : (s.setPoison l).ck = s.ck := rfl
@[simp] theorem setPoison_boot (l : Nat) : (s.setPoison l).boot = s.boot := rfl
@[simp] theorem setPoison_dma (l : Nat) : (s.setPoison l).dma = s.dma := rfl
@[simp] theorem setPoison_st (l : Nat) : (s.setPoison l).st = s.st := rfl
@[simp] theorem setPoison_lc (l : Nat) : (s.setPoison l).lc = s.lc := rfl
@[simp] theorem setPoison_fs (l : Nat) : (s.setPoison l).fs = s.fs := rfl
@[simp] theorem setPoison_ds (l : Nat) : (s.setPoison l).ds = s.ds := rfl
@[simp] theorem setPoison_dl (l : Nat) : (s.setPoison l).dl = s.dl := rfl
@[simp] theorem setPoison_cxr (l : Nat) : (s.setPoison l).cxr = s.cxr := rfl
@[simp] theorem setPoison_ip (l : Nat) : (s.setPoison l).ip = s.ip := rfl
@[simp] theorem setPoison_ve (l : Nat) : (s.setPoison l).ve = s.ve := rfl
@[simp] theorem setPoison_tb (l : Nat) : (s.setPoison l).tb = s.tb := rfl
@[simp] theorem setPoison_en (l : Nat) : (s.setPoison l).en = s.en := rfl
@[simp] theorem setPoison_mx (l : Nat) : (s.setPoison l).mx = s.mx := rfl
@[simp] theorem setPoison_qe (l : Nat) : (s.setPoison l).qe = s.qe := rfl
@[simp] theorem setPoison_le (l : Nat) : (s.setPoison l).le = s.le := rfl
@[simp] theorem setPoison_mc (l : Nat) : (s.setPoison l).mc = s.mc := rfl
@[simp] theorem setPoison_cv (l : Nat) : (s.setPoison l).cv = s.cv := rfl

end Sys2Proof.Machine
end

