-- ==== Sys2Proof/Laws/Table.lean ====
section
/-!
SUPPORT. Laws of sparse tables: an entry read after a write, and the canonical form.
-/

namespace Sys2Proof.Machine

variable {α : Type}

/-- Entries that a filter drops and whose keys differ from the key read do not matter. -/
theorem Tbl.get_filter (t : Tbl α) (d : α) (k : Nat) (p : Nat × α → Bool) (h : ∀ v, p (k, v) = true) :
    Tbl.get (t.filter p) d k = Tbl.get t d k := by
  induction t with
  | nil => rfl
  | cons e rest ih =>
    obtain ⟨k', v⟩ := e
    by_cases hk : k' = k
    · subst hk
      simp [h v, Tbl.get]
    · by_cases hp : p (k', v) = true
      · simp [hp, Tbl.get, hk, ih]
      · simp [hp, Tbl.get, hk, ih]

/-- A table none of whose entries has the key reads as unlisted. -/
theorem Tbl.get_absent (t : Tbl α) (d : α) (k : Nat) (h : ∀ e ∈ t, e.1 ≠ k) : Tbl.get t d k = d := by
  induction t with
  | nil => rfl
  | cons e rest ih =>
    obtain ⟨k', v⟩ := e
    have h1 : k' ≠ k := h (k', v) (by simp)
    simp only [Tbl.get, h1, if_false]
    exact ih fun e he => h e (by simp [he])

/-- Reading an appended table: the first part decides where it lists the key. -/
theorem Tbl.get_append (t u : Tbl α) (d : α) (k : Nat) (h : ∀ e ∈ t, e.1 ≠ k) :
    Tbl.get (t ++ u) d k = Tbl.get u d k := by
  induction t with
  | nil => rfl
  | cons e rest ih =>
    obtain ⟨k', v⟩ := e
    have h1 : k' ≠ k := h (k', v) (by simp)
    simp only [List.cons_append, Tbl.get, h1, if_false]
    exact ih fun e he => h e (by simp [he])

/-- Reading an appended table whose second part does not list the key. -/
theorem Tbl.get_append_left (t u : Tbl α) (d : α) (k : Nat) (h : ∀ e ∈ u, e.1 ≠ k) :
    Tbl.get (t ++ u) d k = Tbl.get t d k := by
  induction t with
  | nil => exact Tbl.get_absent u d k h
  | cons e rest ih =>
    obtain ⟨k', v⟩ := e
    by_cases hk : k' = k
    · simp [Tbl.get, hk]
    · simp [Tbl.get, hk, ih]

variable [DecidableEq α]

/-- The entry read where it was written. -/
@[simp] theorem Tbl.get_set_same (t : Tbl α) (d : α) (k : Nat) (v : α) : (t.set d k v).get d k = v := by
  unfold Tbl.set
  rw [List.append_assoc, Tbl.get_append]
  · by_cases h : v = d
    · rw [if_pos h, List.nil_append, Tbl.get_absent]
      · exact h.symm
      · intro e he
        simp only [List.mem_filter, decide_eq_true_eq] at he
        omega
    · rw [if_neg h]
      simp [Tbl.get]
  · intro e he
    simp only [List.mem_filter, decide_eq_true_eq] at he
    omega

/-- An entry read elsewhere. -/
theorem Tbl.get_set_other (t : Tbl α) (d d' : α) (k k' : Nat) (v : α) (h : k' ≠ k) :
    (t.set d k v).get d' k' = t.get d' k' := by
  unfold Tbl.set
  rcases Nat.lt_or_gt_of_ne h with hlt | hgt
  · rw [List.append_assoc, Tbl.get_append_left]
    · exact Tbl.get_filter t d' k' _ (by simp [hlt])
    · intro e he
      simp only [List.mem_append, List.mem_filter, decide_eq_true_eq] at he
      rcases he with he | he
      · split at he
        · cases he
        · simp only [List.mem_singleton] at he
          subst he
          exact fun hc => h hc.symm
      · omega
  · rw [Tbl.get_append]
    · exact Tbl.get_filter t d' k' _ (by simp [hgt])
    · intro e he
      simp only [List.mem_append, List.mem_filter, decide_eq_true_eq] at he
      rcases he with he | he
      · omega
      · split at he
        · cases he
        · simp only [List.mem_singleton] at he
          subst he
          exact fun hc => h hc.symm

/-- An entry read after a write. -/
theorem Tbl.get_set (t : Tbl α) (d : α) (k k' : Nat) (v : α) :
    (t.set d k v).get d k' = if k' = k then v else t.get d k' := by
  by_cases h : k' = k
  · subst h
    simp
  · rw [if_neg h, Tbl.get_set_other t d d k k' v h]

/-- An entry read after a change of one entry. -/
theorem Tbl.get_upd (t : Tbl α) (d : α) (k k' : Nat) (f : α → α) :
    (t.upd d k f).get d k' = if k' = k then f (t.get d k) else t.get d k' :=
  Tbl.get_set t d k k' (f (t.get d k))

/-! ### The canonical form -/

/-- The canonical form, entry by entry: keys rise, and no entry is what its key reads as unlisted. -/
theorem Tbl.wf_iff (d : Nat → α) (t : Tbl α) :
    Tbl.wf d t = true ↔ (t.Pairwise fun a b => a.1 < b.1) ∧ ∀ e ∈ t, e.2 ≠ d e.1 := by
  induction t with
  | nil => simp [Tbl.wf]
  | cons e rest ih =>
    obtain ⟨k, v⟩ := e
    simp only [Tbl.wf, Bool.and_eq_true, decide_eq_true_eq, List.all_eq_true, ih, List.pairwise_cons,
      List.forall_mem_cons]
    tauto

/-- A filter keeps the canonical form. -/
theorem Tbl.wf_filter (d : Nat → α) (t : Tbl α) (p : Nat × α → Bool) (h : Tbl.wf d t = true) :
    Tbl.wf d (t.filter p) = true := by
  rw [Tbl.wf_iff] at h ⊢
  exact ⟨h.1.filter p, fun e he => h.2 e (List.mem_filter.1 he).1⟩

/-- A write keeps the canonical form. -/
theorem Tbl.wf_set (d : Nat → α) (t : Tbl α) (k : Nat) (v : α) (h : Tbl.wf d t = true) :
    Tbl.wf d (t.set (d k) k v) = true := by
  rw [Tbl.wf_iff] at h ⊢
  unfold Tbl.set
  refine ⟨?_, ?_⟩
  · rw [List.pairwise_append, List.pairwise_append]
    refine ⟨⟨h.1.filter _, ?_, ?_⟩, h.1.filter _, ?_⟩
    · split <;> simp
    · intro a ha b hb
      simp only [List.mem_filter, decide_eq_true_eq] at ha
      split at hb
      · cases hb
      · simp only [List.mem_singleton] at hb
        subst hb
        exact ha.2
    · intro a ha b hb
      simp only [List.mem_append, List.mem_filter, decide_eq_true_eq] at ha hb
      rcases ha with ha | ha
      · omega
      · split at ha
        · cases ha
        · simp only [List.mem_singleton] at ha
          subst ha
          exact hb.2
  · intro e he
    simp only [List.mem_append, List.mem_filter, decide_eq_true_eq] at he
    rcases he with (he | he) | he
    · exact h.2 e he.1
    · split at he
      · cases he
      · simp only [List.mem_singleton] at he
        subst he
        assumption
    · exact h.2 e he.1

/-- A change of one entry keeps the canonical form. -/
theorem Tbl.wf_upd (d : Nat → α) (t : Tbl α) (k : Nat) (f : α → α) (h : Tbl.wf d t = true) :
    Tbl.wf d (t.upd (d k) k f) = true := Tbl.wf_set d t k _ h

end Sys2Proof.Machine
end

