-- ==== Sys2Proof/Laws/Dram.lean ====
section
/-!
SUPPORT. What accesses to DRAM can change: a burst, a read and an accepted write the controller alone, the scheduler
besides the pointers of R16 and MC_CNT[5], a request that must wait the states of the ranks and MC_CNT[4].
-/

namespace Sys2Proof.Machine

/-- A fold keeps what each of its steps keeps. -/
theorem foldl_keeps {α : Type} (r : State → State → Prop) (refl : ∀ s, r s s)
    (trans : ∀ s t u, r s t → r t u → r s u) (f : State → α → State) (step : ∀ s a, r s (f s a))
    (xs : List α) (s : State) : r s (xs.foldl f s) := by
  induction xs generalizing s with
  | nil => exact refl s
  | cons a xs ih => exact trans s (f s a) _ (step s a) (ih (f s a))

/-! ### The controller alone -/

/-- Only the controller's own state differs. -/
def InMc (s t : State) : Prop := t = { s with mc := t.mc }

theorem InMc.refl (s : State) : InMc s s := rfl

theorem InMc.trans (s t u : State) (h : InMc s t) (k : InMc t u) : InMc s u := by
  unfold InMc at h k ⊢
  rw [k, h]

theorem onRank_inMc (s : State) (k : Nat) (f : RankSt → RankSt) : InMc s (s.onRank k f) := rfl

theorem onChan_inMc (s : State) (c : Nat) (f : ChanSt → ChanSt) : InMc s (s.onChan c f) := rfl

theorem dimmCommand_inMc (s : State) (c r : Nat) (line : Option Nat) : InMc s (s.dimmCommand c r line) := rfl

/-- R299, R311: a burst changes the rows and the held commands of its rank. -/
theorem burst_inMc (s : State) (c r line : Nat) (hint : PageHint) : InMc s (s.burst c r line hint) := by
  unfold State.burst
  exact InMc.trans _ _ _
    (foldl_keeps InMc InMc.refl InMc.trans _ (fun s l => dimmCommand_inMc s c r l) _ s) (onRank_inMc _ _ _)

/-- R298: a read that is issued changes the controller alone. -/
theorem issueRead_inMc (s : State) (chan : Nat) (hint : PageHint) (a n : Nat) :
    InMc s (s.issueRead chan hint a n) := by
  unfold State.issueRead
  refine foldl_keeps InMc InMc.refl InMc.trans _ (fun s l => ?_) _ s
  refine foldl_keeps InMc InMc.refl InMc.trans _ (fun s x => ?_) _ s
  dsimp only
  split
  · exact onRank_inMc _ _ _
  · exact burst_inMc _ _ _ _ _

theorem dramQueue_inMc (s : State) (port src a : Nat) (hint : PageHint) (op : WaitOp) :
    InMc s (s.dramQueue port src a hint op) := rfl

/-- R298: a write that is accepted enters the buffers of its channels. -/
theorem acceptWrite_inMc (s : State) (port src : Nat) (hint : PageHint) (a n : Nat) :
    InMc s (s.acceptWrite port src hint a n) := by
  unfold State.acceptWrite
  refine foldl_keeps InMc InMc.refl InMc.trans _ (fun s l => ?_) _ s
  exact foldl_keeps InMc InMc.refl InMc.trans _ (fun s c => onChan_inMc _ _ _) _ s

/-- R298: a buffered write that is issued changes the controller alone. -/
theorem drainOne_inMc (s : State) (c i : Nat) : InMc s (s.drainOne c i) := by
  unfold State.drainOne
  split
  · exact InMc.refl s
  · exact InMc.trans _ _ _ (onChan_inMc s c _)
      (foldl_keeps InMc InMc.refl InMc.trans _ (fun s r => burst_inMc s _ _ _ _) _ _)

/-! ### The scheduler and the ranks -/

/-- The controller, the pointers of R16, the states of ranks, MC_CNT[4] and MC_CNT[5] differ at most. -/
def ByScheduler (s t : State) : Prop :=
  t = { s with mc := t.mc, top := { s.top with rrPtr := t.top.rrPtr }, regs := t.regs } ∧
    ∀ off, off ≠ MC_CNT 4 → off ≠ MC_CNT 5 → (∀ c r, off ≠ MC_RK_STAT c r) → t.reg off = s.reg off

theorem ByScheduler.refl (s : State) : ByScheduler s s := ⟨rfl, fun _ _ _ _ => rfl⟩

theorem ByScheduler.trans (s t u : State) (h : ByScheduler s t) (k : ByScheduler t u) : ByScheduler s u := by
  refine ⟨?_, fun off h4 h5 hr => (k.2 off h4 h5 hr).trans (h.2 off h4 h5 hr)⟩
  rw [k.1, h.1]

theorem InMc.byScheduler {s t : State} (h : InMc s t) : ByScheduler s t := by
  unfold InMc at h
  rw [h]
  exact ⟨rfl, fun _ _ _ _ => rfl⟩

theorem grant_byScheduler (s : State) (key n w : Nat) : ByScheduler s (s.grant key n w) :=
  ⟨rfl, fun _ _ _ _ => rfl⟩

/-- R16, R18: the grants of a channel move the pointers of its ports alone. -/
theorem portGrant_byScheduler (s : State) (c port src : Nat) : ByScheduler s (s.portGrant c port src) :=
  ByScheduler.trans _ _ _ (grant_byScheduler s _ _ _) (grant_byScheduler _ _ _ _)

theorem count4_byScheduler (s : State) : ByScheduler s (s.count (MC_CNT 4)) :=
  ⟨rfl, fun _ h _ _ => Tbl.get_set_other _ _ _ _ _ _ h⟩

theorem count5_byScheduler (s : State) : ByScheduler s (s.count (MC_CNT 5)) :=
  ⟨rfl, fun _ _ h _ => Tbl.get_set_other _ _ _ _ _ _ h⟩

theorem setSr_byScheduler (s : State) (c r v : Nat) : ByScheduler s (s.setSr c r v) :=
  ⟨rfl, fun _ _ _ h => Tbl.get_set_other _ _ _ _ _ _ (h c r)⟩

/-- R297: choosing a request moves pointers, and counts one that its age promotes. -/
theorem schedule_byScheduler (s : State) (c : Nat) (xs : List Candidate) :
    ByScheduler s (s.schedule c xs).2 := by
  unfold State.schedule
  dsimp only
  split
  · exact ByScheduler.refl s
  · split
    · exact ByScheduler.refl s
    · split
      · exact ByScheduler.refl s
      · dsimp only
        split
        · exact ByScheduler.trans _ _ _ (portGrant_byScheduler s _ _ _) (count5_byScheduler _)
        · exact portGrant_byScheduler s _ _ _

theorem onRank_byScheduler (s : State) (k : Nat) (f : RankSt → RankSt) : ByScheduler s (s.onRank k f) :=
  InMc.byScheduler (onRank_inMc s k f)

theorem srLeaves_byScheduler (s : State) (c r : Nat) : ByScheduler s (s.srLeaves c r) := by
  unfold State.srLeaves
  exact ByScheduler.trans _ (s.setSr c r srExit) _ (setSr_byScheduler _ _ _ _) (onRank_byScheduler _ _ _)

/-- R305: a request that meets a rank changes its state, and counts an entry that it abandons. -/
theorem disturb_byScheduler (s : State) (c r : Nat) : ByScheduler s (s.disturb c r) := by
  unfold State.disturb
  generalize hx : s.onRank (rankIx c r) _ = x
  have asked : ByScheduler s x := hx ▸ onRank_byScheduler _ _ _
  refine ByScheduler.trans _ _ _ asked ?_
  dsimp only
  split
  · exact ByScheduler.trans _ (x.setSr c r srAwake) _ (setSr_byScheduler _ _ _ _) (count4_byScheduler _)
  · split
    · exact srLeaves_byScheduler _ _ _
    · exact ByScheduler.refl _

theorem dramWake_byScheduler (s : State) (chan a n : Nat) (write : Bool) :
    ByScheduler s (s.dramWake chan a n write) := by
  unfold State.dramWake
  split
  · exact ByScheduler.refl s
  · refine foldl_keeps ByScheduler ByScheduler.refl ByScheduler.trans _ (fun s x => ?_) _ s
    exact disturb_byScheduler s x.1 x.2

/-! ### Accesses -/

/-- An access of a master that need not wait: memory, poison and the other blocks stay. -/
theorem dramUse_byScheduler (s : State) (port : Nat × Nat) (hint : PageHint) (a n : Nat) (write : Bool) :
    ByScheduler s (s.dramUse port hint a n write) := by
  unfold State.dramUse
  dsimp only
  split
  · split
    · have free := InMc.byScheduler (show InMc s (s.onMc fun m =>
        { m with granted := m.granted.filter (!thisAccess port.1 port.2 (a % 2 ^ 48) n write ·) }) from rfl)
      split
      · exact ByScheduler.trans _ _ _ free (ByScheduler.trans _ _ _ (dramWake_byScheduler _ _ _ _ _)
          (InMc.byScheduler (acceptWrite_inMc _ _ _ _ _ _)))
      · exact free
    · refine ByScheduler.trans _ _ _
        (portGrant_byScheduler s (s.homeChan (a % 2 ^ 48) write) port.1 port.2) ?_
      split
      · exact InMc.byScheduler (acceptWrite_inMc _ _ _ _ _ _)
      · exact InMc.byScheduler (issueRead_inMc _ _ _ _ _)
  · exact ByScheduler.refl s

/-- The reads of a range of accesses by a port. -/
theorem dramReads_byScheduler (s : State) (port : Nat × Nat) (hint : PageHint) (xs : List (Nat × Nat)) :
    ByScheduler s (s.dramReads port hint xs) := by
  unfold State.dramReads
  refine foldl_keeps ByScheduler ByScheduler.refl ByScheduler.trans _ (fun s p => ?_) _ s
  exact dramUse_byScheduler s port hint p.1 p.2 false

/-- The reads that a block makes ahead of its need. -/
theorem dramTouch_byScheduler (s : State) (port : Nat × Nat) (hint : PageHint) (a n : Nat) :
    ByScheduler s (s.dramTouch port hint a n) := by
  unfold State.dramTouch
  refine foldl_keeps ByScheduler ByScheduler.refl ByScheduler.trans _ (fun s p => ?_) _ s
  dsimp only
  split
  · split
    · exact dramWake_byScheduler _ _ _ _ _
    · exact ByScheduler.trans _ _ _
        (portGrant_byScheduler s (s.homeChan (p.1 % 2 ^ 48) false) port.1 port.2)
        (InMc.byScheduler (issueRead_inMc _ _ _ _ _))
  · exact ByScheduler.refl s

end Sys2Proof.Machine
end

