-- ==== Sys2Proof/Laws/Memory.lean ====
section
/-!
SUPPORT. Laws of memory: a byte read after a store, a clear or a copy, and that each keeps the canonical
form.
-/

namespace Sys2Proof.Machine

/-- The cells of placed bytes lie in their range. -/
theorem memCells_range (bs : List Byte) (a : Nat) :
    ∀ e ∈ memCells a bs, a ≤ e.1 ∧ e.1 < a + bs.length := by
  induction bs generalizing a with
  | nil => simp [memCells]
  | cons b rest ih =>
    intro e he
    simp only [memCells] at he
    simp only [List.length_cons]
    split at he
    · have := ih (a + 1) e he
      omega
    · rcases List.mem_cons.1 he with rfl | he
      · exact ⟨Nat.le_refl _, by simp⟩
      · have := ih (a + 1) e he
        omega

/-- A placed byte, read from the cells. -/
theorem memCells_get (bs : List Byte) (a i : Nat) (h : i < bs.length) :
    memByte (memCells a bs) (a + i) = bs[i] := by
  induction bs generalizing a i with
  | nil => simp at h
  | cons b rest ih =>
    cases i with
    | zero =>
      simp only [memCells, Nat.add_zero, List.getElem_cons_zero]
      split
      · next hb =>
        rw [hb]
        exact Tbl.get_absent _ _ _ fun e he => by
          have := memCells_range rest (a + 1) e he
          omega
      · simp [memByte, Tbl.get]
    | succ i =>
      have h' : i < rest.length := by simpa using h
      have hrec := ih (a + 1) i h'
      have e1 : a + 1 + i = a + (i + 1) := by omega
      rw [e1] at hrec
      simp only [memCells, List.getElem_cons_succ]
      split
      · exact hrec
      · have hne : a ≠ a + (i + 1) := by omega
        simpa [memByte, Tbl.get, hne] using hrec

/-- A byte read inside a store is the byte stored there. -/
theorem memByte_store_in (m : List Host.Cell) (a : Nat) (bs : List Byte) (i : Nat) (h : i < bs.length) :
    memByte (memStore m a bs) (a + i) = bs[i] := by
  unfold memStore memByte
  rw [List.append_assoc, Tbl.get_append, Tbl.get_append_left]
  · exact memCells_get bs a i h
  · intro e he
    simp only [List.mem_filter, decide_eq_true_eq] at he
    omega
  · intro e he
    simp only [List.mem_filter, decide_eq_true_eq] at he
    omega

/-- A byte read outside a store is unchanged. -/
theorem memByte_store_out (m : List Host.Cell) (a : Nat) (bs : List Byte) (x : Nat)
    (h : x < a ∨ a + bs.length ≤ x) : memByte (memStore m a bs) x = memByte m x := by
  unfold memStore memByte
  rcases h with h | h
  · rw [List.append_assoc, Tbl.get_append_left]
    · exact Tbl.get_filter _ _ _ _ (by simp [h])
    · intro e he
      simp only [List.mem_append, List.mem_filter, decide_eq_true_eq] at he
      rcases he with he | he
      · have := memCells_range bs a e he
        omega
      · omega
  · rw [Tbl.get_append]
    · exact Tbl.get_filter _ _ _ _ (by simp [h])
    · intro e he
      simp only [List.mem_append, List.mem_filter, decide_eq_true_eq] at he
      rcases he with he | he
      · omega
      · have := memCells_range bs a e he
        omega

/-- A byte read after a clear. -/
theorem memByte_clear (m : List Host.Cell) (a n x : Nat) :
    memByte (memClear m a n) x = if a ≤ x ∧ x < a + n then 0 else memByte m x := by
  unfold memClear memByte
  split
  · next h =>
    refine Tbl.get_absent _ _ _ fun e he => ?_
    simp only [List.mem_filter, Bool.or_eq_true, decide_eq_true_eq] at he
    omega
  · next h =>
    refine Tbl.get_filter _ _ _ _ fun v => ?_
    simp only [Bool.or_eq_true, decide_eq_true_eq]
    omega

/-- A byte read outside the destination of a copy is unchanged. -/
theorem memByte_copy_out (m : List Host.Cell) (src dst n x : Nat) (h : x < dst ∨ dst + n ≤ x) :
    memByte (memCopy m src dst n) x = memByte m x := by
  have key : ∀ e ∈ (m.filter fun c => decide (src ≤ c.1) && decide (c.1 < src + n)).map
      (fun c => (dst + (c.1 - src), c.2)), dst ≤ e.1 ∧ e.1 < dst + n := by
    intro e he
    simp only [List.mem_map, List.mem_filter, Bool.and_eq_true, decide_eq_true_eq] at he
    obtain ⟨c, ⟨-, h1, h2⟩, rfl⟩ := he
    constructor <;> simp only <;> omega
  unfold memCopy memByte
  rcases h with h | h
  · rw [List.append_assoc, Tbl.get_append_left]
    · exact Tbl.get_filter _ _ _ _ (by simp [h])
    · intro e he
      rcases List.mem_append.1 he with he | he
      · have := key e he
        omega
      · simp only [List.mem_filter, decide_eq_true_eq] at he
        omega
  · rw [Tbl.get_append]
    · exact Tbl.get_filter _ _ _ _ (by simp [h])
    · intro e he
      rcases List.mem_append.1 he with he | he
      · simp only [List.mem_filter, decide_eq_true_eq] at he
        omega
      · have := key e he
        omega

/-! ### The canonical form -/

/-- The canonical form of memory, cell by cell. -/
theorem memWf_iff (m : List Host.Cell) :
    memWf m = true ↔ (m.Pairwise fun a b => a.1 < b.1) ∧ ∀ e ∈ m, e.2 ≠ 0 := Tbl.wf_iff _ m

/-- The cells of placed bytes are in canonical form. -/
theorem memWf_cells (bs : List Byte) (a : Nat) : memWf (memCells a bs) = true := by
  rw [memWf_iff]
  induction bs generalizing a with
  | nil => simp [memCells]
  | cons b rest ih =>
    simp only [memCells]
    split
    · exact ih (a + 1)
    · next hb =>
      refine ⟨List.pairwise_cons.2 ⟨fun e he => ?_, (ih (a + 1)).1⟩, fun e he => ?_⟩
      · have := memCells_range rest (a + 1) e he
        simp only
        omega
      · rcases List.mem_cons.1 he with rfl | he
        · exact hb
        · exact (ih (a + 1)).2 e he

/-- Three tables in canonical form, each wholly below the next, joined. -/
theorem memWf_append {l c r : List Host.Cell} {lo hi : Nat} (hl : memWf l = true) (hc : memWf c = true)
    (hr : memWf r = true) (h1 : ∀ e ∈ l, e.1 < lo) (h2 : ∀ e ∈ c, lo ≤ e.1 ∧ e.1 < hi)
    (h3 : ∀ e ∈ r, hi ≤ e.1) (hle : lo ≤ hi) : memWf (l ++ c ++ r) = true := by
  rw [memWf_iff] at *
  refine ⟨?_, ?_⟩
  · rw [List.pairwise_append, List.pairwise_append]
    refine ⟨⟨hl.1, hc.1, fun a ha b hb => ?_⟩, hr.1, fun a ha b hb => ?_⟩
    · have := h1 a ha
      have := h2 b hb
      omega
    · have := h3 b hb
      rcases List.mem_append.1 ha with ha | ha
      · have := h1 a ha
        omega
      · have := h2 a ha
        omega
  · intro e he
    rcases List.mem_append.1 he with he | he
    · rcases List.mem_append.1 he with he | he
      · exact hl.2 e he
      · exact hc.2 e he
    · exact hr.2 e he

/-- A store keeps the canonical form. -/
theorem memWf_store (m : List Host.Cell) (a : Nat) (bs : List Byte) (h : memWf m = true) :
    memWf (memStore m a bs) = true := by
  refine memWf_append (lo := a) (hi := a + bs.length) (Tbl.wf_filter _ _ _ h) (memWf_cells bs a)
    (Tbl.wf_filter _ _ _ h) ?_ (memCells_range bs a) ?_ (by omega)
  · intro e he
    simp only [List.mem_filter, decide_eq_true_eq] at he
    exact he.2
  · intro e he
    simp only [List.mem_filter, decide_eq_true_eq] at he
    exact he.2

/-- A clear keeps the canonical form. -/
theorem memWf_clear (m : List Host.Cell) (a n : Nat) (h : memWf m = true) :
    memWf (memClear m a n) = true := Tbl.wf_filter _ _ _ h

/-- A copy keeps the canonical form. -/
theorem memWf_copy (m : List Host.Cell) (src dst n : Nat) (h : memWf m = true) :
    memWf (memCopy m src dst n) = true := by
  have hf : memWf (m.filter fun c => decide (src ≤ c.1) && decide (c.1 < src + n)) = true :=
    Tbl.wf_filter _ _ _ h
  refine memWf_append (lo := dst) (hi := dst + n) (Tbl.wf_filter _ _ _ h) ?_
    (Tbl.wf_filter _ _ _ h) ?_ ?_ ?_ (by omega)
  · rw [memWf_iff] at hf ⊢
    refine ⟨?_, fun e he => ?_⟩
    · rw [List.pairwise_map]
      refine List.Pairwise.imp_of_mem (fun {a b} ha hb hab => ?_) hf.1
      simp only [List.mem_filter, Bool.and_eq_true, decide_eq_true_eq] at ha hb
      simp only
      omega
    · obtain ⟨c, hc, rfl⟩ := List.mem_map.1 he
      exact hf.2 c hc
  · intro e he
    simp only [List.mem_filter, decide_eq_true_eq] at he
    exact he.2
  · intro e he
    obtain ⟨c, hc, rfl⟩ := List.mem_map.1 he
    simp only [List.mem_filter, Bool.and_eq_true, decide_eq_true_eq] at hc
    constructor <;> simp only <;> omega
  · intro e he
    simp only [List.mem_filter, decide_eq_true_eq] at he
    exact he.2

/-! ### Bytes of the state -/

@[simp] theorem memRead_length (m : List Host.Cell) (a n : Nat) : (memRead m a n).length = n := by
  induction n generalizing a with
  | zero => rfl
  | succ n ih => simp [memRead, ih]

/-- A byte of the bytes read. -/
theorem memRead_getElem (m : List Host.Cell) (a n i : Nat) (h : i < (memRead m a n).length) :
    (memRead m a n)[i] = memByte m (a + i) := by
  induction n generalizing a i with
  | zero => simp [memRead] at h
  | succ n ih =>
    cases i with
    | zero => rfl
    | succ i =>
      have := ih (a + 1) i (by simpa using h)
      simp only [memRead, List.getElem_cons_succ, this]
      congr 1
      omega

/-- Bytes stored are the bytes read back. -/
theorem memRead_store (m : List Host.Cell) (a : Nat) (bs : List Byte) :
    memRead (memStore m a bs) a bs.length = bs := by
  refine List.ext_getElem (by simp) fun i h1 h2 => ?_
  rw [memRead_getElem, memByte_store_in _ _ _ _ h2]

@[simp] theorem leBytes_length (n x : Nat) : (leBytes n x).length = n := by
  induction n generalizing x with
  | zero => rfl
  | succ n ih => simp [leBytes, ih]

/-- R2: a number laid out least significant byte first and read back. -/
theorem leNat_leBytes (n x : Nat) : leNat (leBytes n x) = x % 256 ^ n := by
  induction n generalizing x with
  | zero => simp [leBytes, leNat, Nat.mod_one]
  | succ n ih =>
    have h : x % (256 * 256 ^ n) = x % 256 + 256 * (x / 256 % 256 ^ n) := Nat.mod_mul
    rw [Nat.pow_succ, Nat.mul_comm (256 ^ n) 256, h]
    simp only [leBytes, leNat, ih, BitVec.toNat_ofNat]

/-- The bytes of the state outside a store keep their values. -/
theorem storeBytes_out (s : State) (a : Nat) (bs : List Byte) (x : Nat)
    (h : x < a ∨ a + bs.length ≤ x) : memByte (s.storeBytes a bs).mem x = memByte s.mem x :=
  memByte_store_out s.mem a bs x h

/-- The bytes of the state in a store. -/
theorem storeBytes_in (s : State) (a : Nat) (bs : List Byte) (i : Nat) (h : i < bs.length) :
    memByte (s.storeBytes a bs).mem (a + i) = bs[i] := memByte_store_in s.mem a bs i h

end Sys2Proof.Machine
end

