-- ==== Sys2Proof/Tests/Slice0.lean ====
section
/-!
SUPPORT. Tests: commands that are not well-formed, worked examples of the spec, and for every statement
states and operands that meet its hypotheses. A witness carries the name of its statement, or of the claim
among those that the statement joins (a definition of Obligations.lean that begins with a small letter);
witness_Ready serves every statement whose hypothesis is that an instruction is fetched.
-/

set_option maxRecDepth 20000

namespace Sys2Proof.Machine

/-- A state with registers replaced. -/
def State.regsAt (s : State) (l : List (Nat × Word)) : State := l.foldl (fun s e => s.setReg e.1 e.2) s

/-- A state with fields of registers replaced. -/
def State.fldsAt (s : State) (l : List (Nat × Fld × Nat)) : State :=
  l.foldl (fun s e => s.setFld e.1 e.2.1 e.2.2) s

/-- The reset state with one PROT region that permits every access. -/
def permissive : State :=
  State.reset.regsAt [(PROT_REGION1 0, 0xFFFF0000), (PROT_REGION2 0, 0xFFFFFFC0),
    (PROT_REGION3 0, 0x8000FFFF)]

/-- Control core 0 as it runs in its own memory. -/
def ccRuns : IsSt := { IsSt.reset with running := true, pc := 0x07C00000 }

/-- A state whose control core 0 is as given. -/
def State.cc0 (s : State) (x : IsSt) : State := { s with cc := [(0, x)] }

/-- A state in which the Sagger runs in its own memory. -/
def sagRuns : State := { permissive with sg := { IsSt.reset with running := true, pc := 0x0A600000 } }

/-- Expansion core 0 as it renders a tile. -/
def xcRuns : XcSt := { XcSt.reset with tile := some { plane := 0, band := 0, col := 0 }, cost := 1000000 }

/-- A state whose expansion core 0, in its domain awake, is as given. -/
def State.xc0 (s : State) (x : XcSt) : State := { s.setFld (CK_DOM 0) CK_DOM_STATE 2 with xc := [(0, x)] }

/-- A state in which every fast domain is awake. -/
def State.domsAwake (s : State) : State :=
  s.fldsAt ((List.range 3).map fun d => (CK_DOM d, CK_DOM_STATE, 2))

/-- A state in which no fast domain is awake. -/
def State.domsAsleep (s : State) : State :=
  s.fldsAt ((List.range 3).map fun d => (CK_DOM d, CK_DOM_STATE, 1))

/-! ### Ill-formed commands -/

theorem test_wf_offset_of_a_word : (Instr.registerWrite .host 2 0).wf = false := by decide
theorem test_wf_illegal_word_is_not_legal :
    (Instr.illegalInstruction (.cc 0) 0x08000000).wf = false := by decide
theorem test_wf_blend_mode : (Instr.span 0 0 0 5).wf = false ∧ (Instr.vstt 0 0 0 7).wf = false := by decide
theorem test_wf_status_has_40_bytes : (Instr.status 0 { sop := { typ := 3, len := 10, pad := 0, whole := true }, crcOk := true, body := [] }).wf = false := by decide
theorem test_wf_samples_have_12_bits :
    (Instr.streamPacket 0 { image := true, crcOk := true, samples := [4096], later := [] }).wf = false := by decide
theorem test_wf_mailbox_carries_256_bytes :
    (Instr.mbxDone 0 (.ok (List.replicate 257 0))).wf = false := by decide
theorem test_wf_request_stays_in_its_block :
    (Instr.dramRequest ⟨4, 3, .none⟩ 200 (.read 57 .clean)).wf = false ∧
    (Instr.dramRequest ⟨4, 3, .none⟩ 200 (.write [])).wf = false ∧
    (Instr.dramRequest ⟨4, 3, .none⟩ 200 (.read 56 .clean)).wf = true := by decide
theorem test_wf_request_is_its_ports :
    (Instr.dramRequest ⟨4, 4, .none⟩ 0 (.read 64 .clean)).wf = false ∧
    (Instr.dramRequest ⟨0, 0, .none⟩ 0 (.read 64 .clean)).wf = false ∧
    (Instr.dramRequest ⟨0, 17, .close⟩ 0 (.read 64 .clean)).wf = true := by decide
theorem test_wf_dimm_temperature : (Instr.temperaturePoll 0 0 256).wf = false := by decide
theorem test_wf_host_access_fits_its_bar :
    (Instr.hostWrite .bar0 0x3FFFFFF [0, 0] false).wf = false ∧ (Instr.hostRead .bar2 0 4097).wf = false :=
  by decide
theorem test_wf_frame_has_a_header :
    (Instr.rxFrame 0 { bytes := [1], fcsOk := true, phase := 0 }).wf = false := by decide
theorem test_wf_unit_number : (Instr.stTest 263).wf = false ∧ (Instr.testComplete 300 true).wf = false :=
  by decide
theorem test_wf_link_speed_and_width :
    (Instr.pcieLinkUp 6 8).wf = false ∧ (Instr.pcieLinkUp 5 3).wf = false := by decide

/-! ### Commands, registers and base instructions -/

theorem witness_StepRunsTheFrontCommand :
    { State.reset with pending := [.packetSet] }.pending = [Instr.packetSet] ∧ State.reset.pending = [] := by
  decide

theorem witness_StepKeepsTheCanonicalForm :
    (Tbl.wf regReset permissive.regs = true ∧ memWf permissive.mem = true) ∧
    step permissive = .next permissive.tick := ⟨by decide, rfl⟩

theorem witness_RegisterFieldsFollowTheirTypes :
    State.reset.permits .host (regAddr 0x2000) true = false ∧
    permissive.permits .host (regAddr 0x3FFFFFC) true = true ∧ regDef? 0x3FFFFFC = none ∧
    (let s := permissive.domsAsleep
     s.permits .host (regAddr DS_CTRL) true = true ∧ (regDef? DS_CTRL).isSome = true ∧
      s.awake (DS_CTRL / 0x100000) = false) ∧
    permissive.permits .si (regAddr (PROT_REGION0 5)) true = true ∧
    (regDef? (PROT_REGION0 5)).isSome = true ∧
    PROT_REGION0 5 / 0x100000 ∈ [BLK_PROT, BLK_BA, BLK_BQ, BLK_CC, BLK_XC] ∧
    permissive.awake (PROT_REGION0 5 / 0x100000) = true ∧
    (∃ d, regDef? (PROT_REGION0 5) = some d ∧ ownEffect d.base (PROT_REGION0 5) = false ∧ d.rwl ≠ 0 ∧
      (permissive.setFld PROT_LOCK PROT_LOCK_LOCK 1).reg (PROT_REGION0 5) &&& d.rwl ≠ 0xFFFFFFFF &&& d.rwl) ∧
    (permissive.setFld PROT_LOCK PROT_LOCK_LOCK 1).bit PROT_LOCK PROT_LOCK_LOCK = true ∧
    permissive.permits .host (regAddr SEM_REL) true = true := by
  refine ⟨by decide, by decide, by decide, by decide, by decide, by decide, by decide, by decide,
    ⟨_, rfl, by decide, by decide, by decide⟩, by decide, by decide⟩

theorem witness_RegistersHoldInUse :
    let s := permissive.domsAwake
    (let o := JOB_BASE_LO 1
     o % 4 = 0 ∧ s.permits .host (regAddr o) true = true ∧ (regDef? o).isSome = true ∧
      s.awake (o / 0x100000) = true ∧ s.slotState 1 ∈ [0, 2, 3] ∧
      (s.setFld (ADM_SLOT_STAT 1) ADM_SLOT_STAT_STATE 4).slotState 1 ∉ [0, 2, 3]) ∧
    (let o := ROI_RING 11 7
     o % 4 = 0 ∧ s.permits .host (regAddr o) true = true ∧ (regDef? o).isSome = true ∧
      s.awake (o / 0x100000) = true ∧ s.bit (ROI_CTRL 11 7) ROI_CTRL_EN = false ∧
      (s.setFld (ROI_CTRL 11 7) ROI_CTRL_EN 1).bit (ROI_CTRL 11 7) ROI_CTRL_EN = true) ∧
    (let o := VE_GEOM
     o % 4 = 0 ∧ s.permits .host (regAddr o) true = true ∧
      (∃ d, regDef? o = some d ∧ veProtected d.base = true) ∧
      s.awake (o / 0x100000) = true ∧ s.bit VE_CTRL VE_CTRL_EN = false ∧
      (s.setFld VE_CTRL VE_CTRL_EN 1).bit VE_CTRL VE_CTRL_EN = true) ∧
    (let o := EN_CFG 1
     o % 4 = 0 ∧ s.permits .host (regAddr o) true = true ∧ (regDef? o).isSome = true ∧
      s.awake (o / 0x100000) = true ∧ s.bit o EN_CFG_EN = false ∧
      (s.setFld o EN_CFG_EN 1).bit o EN_CFG_EN = true) := by
  refine ⟨by decide, by decide, ⟨by decide, by decide, ⟨_, rfl, by decide⟩, by decide, by decide, by decide⟩,
    by decide⟩

theorem witness_RouteWriteSendsNoMessage : permissive.permits .host (regAddr (EVT_ROUTE 863)) true = true := by
  decide

theorem witness_HoldoffEndsInOneMessage :
    let s := { permissive with
      now := 100, top := { permissive.top with holdoff := [(3, some 0), (4, some 1)], requested := [(3, true)] } }
    s.top.holdoff.get none 3 = some 0 ∧ 0 + 100 ≤ s.now ∧ s.top.holdoff.get none 4 = some 1 ∧
    s.now < 1 + 100 ∧ s.top.requested.get false 3 = true ∧ s.vecMasked 3 = true ∧
    (s.regsAt [(MSIX_CTRL 3, 0)]).vecMasked 3 = false ∧ s.top.requested.get false 4 = false := by decide

theorem witness_UnmaskSendsThePendingMessage :
    let s := permissive.regsAt [(MSIX_CTRL 3, 1), (MSIX_PBA 0, 8)]
    let held := { s with now := 99, top := { s.top with holdoff := [(3, some 0)] } }
    s.vecMasked 3 = true ∧ s.pba 3 = true ∧ s.top.holdoff.get none 3 = none ∧
    held.top.holdoff.get none 3 = some 0 ∧ held.now < 0 + 100 ∧
    (s.regsAt [(MSIX_CTRL 3, 0)]).vecMasked 3 = false ∧ s.pba 4 = false := by decide

theorem witness_SemaphoresAcquireAndFree :
    let s := permissive.fldsAt [(SEM 63, SEM_OWNER, 5)]
    s.permits .host (regAddr (SEM 63)) false = true ∧ semIx .host = some 4 ∧ semIx (.dma 0) = none ∧
    s.semOwner 62 = 15 ∧ s.permits .si (regAddr SEM_REL) true = true ∧ semIx .si = some (s.semOwner 63) ∧
    semIx .host ≠ some (s.semOwner 63) ∧ s.permits .si (regAddr SEM_FORCE) true = true ∧
    State.reset.permits .host (regAddr (SEM 63)) false = false := by decide

/-- Every kind of core can be ready for the longest base instruction. -/
theorem witness_Ready :
    Ready (permissive.xc0 xcRuns) (.xc 0) 2 34 ∧ Ready (permissive.cc0 ccRuns) (.cc 0) 2 34 ∧
    Ready sagRuns .sg 2 34 := by
  refine ⟨?_, ?_, ?_⟩
  · simp only [Ready]; decide
  · exact ⟨by decide, rfl⟩
  · exact ⟨by decide, rfl⟩

/-- PROT with one region that permits every access to the memory of control core 0 alone. -/
def narrow : State :=
  State.reset.regsAt [(PROT_REGION0 0, 0x07C00000), (PROT_REGION1 0, 0xFFFF1000),
    (PROT_REGION2 0, 0x07CFFFC0), (PROT_REGION3 0, 0x80001000)]

/-- A core in U mode. -/
def IsSt.inU (x : IsSt) : IsSt := { x with sr := [(1, 0)] }

/-- A core with general register 1 at a value. -/
def IsSt.g1 (x : IsSt) (v : Word) : IsSt := { x with g := [(1, v)] }

/-- One channel of one rank, with DRAM enabled, the rank in a self-refresh state. -/
def oneRank (sr : Nat) : State :=
  permissive.fldsAt [(MC_CFG, MC_CFG_ENABLE, 1), (MC_RK_STAT 0 0, MC_RK_STAT_ROLE, roleActive),
    (MC_RK_STAT 0 0, MC_RK_STAT_SR, sr)]

/-- A cached line of shared memory, dirty. -/
def sharedLine : CacheLine := { addr := CC_SHARED, bytes := List.replicate 64 7, dirty := true, cores := [0] }

theorem witness_LoadsReadMemory :
    (let s := permissive.xc0 { xcRuns with g := [(1, 0x37FFC)] }
     ((s.coreG (.xc 0) 1 + (0 : BitVec 16).signExtend 32).toNat / 4 * 4) + 4 ≤ localTop) ∧
    (let s := permissive.cc0 (ccRuns.g1 0x07CFFFFC)
     let a := s.physical (.cc 0) (s.isG (.cc 0) 1)
     (s.isG (.cc 0) 1).toNat % 4 = 0 ∧ s.permits (s.coreMaster (.cc 0)) a false = true ∧ s.region a = .sram ∧
      s.cached a = false ∧ s.poisoned a 4 = false ∧ inSections a = false) ∧
    (let s := (oneRank srAwake).onIs .sg fun _ => sagRuns.sg.g1 0x20000040
     let a := s.physical .sg (s.isG .sg 1)
     s.issues .sg = true ∧ (s.fetch .sg 1).1.isNone = true ∧ s.permits .si a false = true ∧ s.region a = .dram ∧
      (s.fetched .sg 1).dramStall 4 (isIx .sg) a 4 false = none ∧ s.poisoned a 4 = false ∧
      inSections (s.sagAddr a) = false) ∧
    (let s := permissive.cc0 (ccRuns.g1 0x20000040)
     let a := s.physical (.cc 0) (s.isG (.cc 0) 1)
     s.permits (s.coreMaster (.cc 0)) a false = true ∧ s.region a = .unmapped) ∧
    (permissive.cc0 (ccRuns.g1 0x07C00002)).isG (.cc 0) 1 = 0x07C00002 ∧ (0x07C00002 : Word).toNat % 4 ≠ 0 ∧
    (let s := narrow.cc0 (ccRuns.g1 0x100)
     (s.fetch (.cc 0) 1).1.isNone = true ∧ (s.isG (.cc 0) 1).toNat % 4 = 0 ∧
      s.permits (s.coreMaster (.cc 0)) (s.physical (.cc 0) (s.isG (.cc 0) 1)) false = false) := by decide

theorem witness_StoresWriteTheirBytes :
    (let s := permissive.cc0 (ccRuns.g1 0x07C00010)
     let a := s.physical (.cc 0) (s.isG (.cc 0) 1)
     (s.isG (.cc 0) 1).toNat % 4 = 0 ∧ s.permits (s.coreMaster (.cc 0)) a true = true ∧ s.region a = .sram ∧
      s.cached a = false ∧ inSections a = false ∧ a + 4 ≤ SG_MEM ∧
      (∀ j, j < 4 → readOnlyByte (a + j) = false) ∧ ∀ j, j < 4 → fieldBits (a + j) = 0xFF) ∧
    (let s := (oneRank srAwake).onIs .sg fun _ => sagRuns.sg.g1 0x20000040
     let a := s.physical .sg (s.isG .sg 1)
     s.permits .si a true = true ∧ s.region a = .dram ∧ a < 2 ^ 48 ∧
      (s.fetched .sg 1).dramStall 4 (isIx .sg) a 4 true = none) ∧
    (let s := permissive.cc0 (ccRuns.g1 0x20000040)
     let a := s.physical (.cc 0) (s.isG (.cc 0) 1)
     s.permits (s.coreMaster (.cc 0)) a true = true ∧ s.region a = .unmapped) ∧
    (let s := narrow.cc0 (ccRuns.g1 0x100)
     s.permits (s.coreMaster (.cc 0)) (s.physical (.cc 0) (s.isG (.cc 0) 1)) true = false) := by decide

theorem witness_CachedAndRegisterAccesses :
    (let s := { permissive.cc0 (ccRuns.g1 0x08000010) with dcache := [sharedLine] }
     let a := s.physical (.cc 0) (s.isG (.cc 0) 1)
     (s.isG (.cc 0) 1).toNat % 4 = 0 ∧ s.permits (s.coreMaster (.cc 0)) a true = true ∧ s.cached a = true ∧
      s.region a ≠ .unmapped ∧ s.region a ≠ .regs ∧ s.dcLine a = some sharedLine ∧
      sharedLine.bytes.length = 64 ∧ s.permits (s.coreMaster (.cc 0)) a false = true ∧
      ({ s with dcache := [] }).dcLine a = none ∧ ({ s with dcache := [] }).poisoned a 4 = false ∧
      (s.fetched (.cc 0) 1).dramStall 4 0 (a / 64 * 64) 64 false = none) ∧
    (let s := { sagRuns with sg := sagRuns.sg.g1 0x10200010 }
     s.physical .sg (s.isG .sg 1) = regAddr 0x200010 ∧ s.region (regAddr 0x200010) = .regs ∧
      s.permits .si (regAddr 0x200010) false = true ∧ s.corePriv .sg = true ∧
      ({ s with sg := s.sg.inU }).corePriv .sg = false) ∧
    (let s := { sagRuns with sg := sagRuns.sg.g1 0x0A64FFFC }
     let a := s.physical .sg (s.isG .sg 1)
     (s.isG .sg 1).toNat % 4 = 0 ∧ s.permits .si a true = true ∧ SG_MEM ≤ a ∧
      a + 4 ≤ SG_MEM + 0x50000) := by decide

/-- A core that fetches in DRAM. -/
def fetches (sr : Nat) : State := (oneRank sr).cc0 { ccRuns with pc := 0x20000040 }

theorem witness_FetchesOrTraps :
    (let s := permissive.cc0 { ccRuns with pc := 0x10000000 }
     s.issues (.cc 0) = true ∧ s.region (s.physical (.cc 0) (s.ccAt 0).pc) = .regs) ∧
    (let s := narrow.cc0 { ccRuns with pc := 0x100 }
     s.issues (.cc 0) = true ∧ s.permits (s.coreMaster (.cc 0)) (s.physical (.cc 0) 0x100) false = false) ∧
    (let s := permissive.cc0 { ccRuns with pc := 0x20000040 }
     s.region (s.physical (.cc 0) 0x20000040) = .unmapped ∧ s.permits (s.coreMaster (.cc 0)) 64 false = true) ∧
    (let s := fetches srAwake
     let a := s.physical (.cc 0) (s.ccAt 0).pc
     s.issues (.cc 0) = true ∧ s.region a = .dram ∧ s.inIcache (.cc 0) a = false ∧
      s.dramStall 4 (fetchIx (.cc 0)) a 4 false = none ∧ ({ s with poison := [(1, true)] }).poisoned a 4 = true ∧
      ({ s with poison := [(1, true)] }).dramStall 4 (fetchIx (.cc 0)) a 4 false = none ∧
      ((fetches srInSr).dramStall 4 (fetchIx (.cc 0)) a 4 false).isSome = true ∧
      s.permits (s.coreMaster (.cc 0)) a false = true) := by decide

theorem witness_IllegalWordsTrapOrFail :
    wordLegal (.cc 0) 0 = false ∧ wordLegal .sg 0xFFFFFFFF = false ∧ wordLegal (.xc 0) 0xD0000000 = false ∧
    ((permissive.xc0 xcRuns).xcAt 0).tile = some { plane := 0, band := 0, col := 0 } := by decide

/-- Words written from the encoding tables of R29, R31, R34 and R47 are legal where the profile has them. -/
theorem test_words :
    wordLegal (.xc 0) 0x04632025 = true ∧ wordLegal (.xc 0) 0x08000000 = true ∧
    wordLegal (.xc 0) 0x80600001 = true ∧ wordLegal (.xc 0) 0xD0000000 = false ∧
    wordLegal (.cc 0) 0xD0000000 = true ∧ wordLegal (.cc 0) 0xA0000000 = false := by decide

theorem witness_SystemRegisterAccess :
    (permissive.cc0 ccRuns).corePriv (.cc 0) = true ∧
    (permissive.cc0 ccRuns.inU).corePriv (.cc 0) = false ∧ sagRuns.corePriv .sg = true ∧
    ((permissive.cc0 ccRuns.inU).fetch (.cc 0) 1).1.isNone = true := by decide

theorem witness_EcallAndEret :
    (permissive.cc0 ccRuns).issues (.cc 0) = true ∧ (permissive.cc0 ccRuns).corePriv (.cc 0) = true ∧
    (permissive.cc0 ccRuns.inU).corePriv (.cc 0) = false := by decide

/-- An event of the timebase that control core 0 takes at input 5. -/
def asking (x : IsSt) : State :=
  (permissive.regsAt [(evtReg BLK_TB, 2), (evtEnReg BLK_TB, 2),
    (EVT_ROUTE (BLK_TB * 32 + 1), 0x105)]).cc0 { x with sr := [(1, 5), (6, 0x20)] }

theorem witness_WaitAndFence :
    (asking ccRuns).irqReady (.cc 0) 5 = true ∧ (asking ccRuns).corePriv (.cc 0) = true ∧
    (∀ i, i < 64 → (permissive.cc0 ccRuns).irqReady (.cc 0) i = false) ∧
    ((asking { ccRuns with wfi := true }).isAt (.cc 0)).wfi = true ∧
    (asking { ccRuns with wfi := true }).irqReady (.cc 0) 5 = true ∧
    (permissive.cc0 ccRuns.inU).corePriv (.cc 0) = false ∧
    (let w : DramWait := { port := 4, src := 0, chan := 0, addr := 0, hint := .none, op := .ask (.write [1]),
                           since := some 0 }
     let s := { permissive.cc0 ccRuns with mc := { permissive.mc with waiting := [w] } }
     s.issues (.cc 0) = true ∧ (s.fetch (.cc 0) 1).1.isNone = true ∧
      ∃ w ∈ s.mc.waiting, w.port = 4 ∧ w.src = isIx (.cc 0)) := by decide

theorem witness_InterruptsAreVectored :
    ((asking ccRuns).isAt (.cc 0)).running = true ∧ (asking ccRuns).coreIe (.cc 0) = true ∧
    (asking ccRuns).irqReady (.cc 0) 5 = true ∧
    (∀ j, j < 64 → j ≠ 5 → (asking ccRuns).irqReady (.cc 0) j = false) ∧
    (let s := permissive.cc0 { ccRuns with sr := [(1, 5)] }
     s.coreIe (.cc 0) = true ∧ ∀ i, i < 64 → s.irqReady (.cc 0) i = false) ∧
    (let s := (asking ccRuns).onIs (.cc 0) fun x => { x with wfi := true, sr := [(1, 5), (6, 0x20), (10, 0xC00)] }
     s.irqPrio (.cc 0) 5 = 3 ∧ (s.ccAt 0).wfi = true ∧ (s.ccAt 0).prior.getLsbD 5 = false ∧
      s.inLocal (.cc 0) (s.sr (.cc 0) 5 + BitVec.ofNat 32 (4 * (32 + 5))) = true) := by decide

theorem witness_CacheMaintenance :
    (let s := { permissive.cc0 (ccRuns.g1 0x08000010) with dcache := [sharedLine] }
     let a := s.physical (.cc 0) (s.coreG (.cc 0) 1)
     s.permits (s.coreMaster (.cc 0)) a false = true ∧ s.cached a = true ∧ s.dcLine a = some sharedLine ∧
      s.corePriv (.cc 0) = true ∧ a < 2 ^ 48 ∧ sharedLine.dirty = true ∧ sharedLine.bytes.length = 64 ∧
      ({ s with dcache := [{ sharedLine with dirty := false }] }).dcLine a =
        some { sharedLine with dirty := false } ∧
      (s.fetched (.cc 0) 1).dramStall 4 0 sharedLine.addr 64 true = none) ∧
    (let s := { (oneRank srInSr).cc0 (ccRuns.g1 0x20000040) with dcache := [{ sharedLine with addr := 64 }] }
     s.dcLine (s.physical (.cc 0) (s.coreG (.cc 0) 1)) = some { sharedLine with addr := 64 } ∧
      ((s.fetched (.cc 0) 1).dramStall 4 0 64 64 true).isSome = true) ∧
    (let s := permissive.cc0 (ccRuns.g1 0x07C00010)
     s.cached (s.physical (.cc 0) (s.coreG (.cc 0) 1)) = false) ∧
    (let s := narrow.cc0 (ccRuns.g1 0x100)
     s.permits (s.coreMaster (.cc 0)) (s.physical (.cc 0) (s.coreG (.cc 0) 1)) false = false) ∧
    sagRuns.corePriv .sg = true ∧ ({ sagRuns with sg := sagRuns.sg.inU }).corePriv .sg = false := by decide

/-! ### Raster instructions -/

/-- A core at the start of a tile, with general registers and the words of span register 0. -/
def drawing (g sp : List (Nat × Word)) : State := permissive.xc0 { xcRuns with g := g, sp := sp }

theorem witness_TileStateInstructions :
    Ready (drawing [(1, 0x37FF0)] []) (.xc 0) 1 130 ∧ Ready (drawing [(1, 0x37FF0)] []) (.xc 0) 1 2 ∧
    ((drawing [(1, 0x37FF0)] []).xg 0 1).toNat / 16 * 16 + 16 ≤ localTop := by
  simp only [Ready]; decide

theorem witness_RepRepeatsItsBody :
    (let s := { drawing [(1, 5)] [] with mem := memStore [] (XC_MEM 0 + 4) (leBytes 4 0x08210001) }
     s.bodyEnd 0 1 ((s.xcAt 0).pc + 4).toNat = some 8 ∧ s.xg 0 1 ≠ 0 ∧ s.xg 0 2 = 0 ∧
      s.bodyEnd 0 2 ((s.xcAt 0).pc + 4).toNat = none) ∧
    (let r : RepSt := { first := 4, after := 8, left := 2 }
     let s := permissive.xc0 { xcRuns with pc := 4, rep := some r }
     (s.xcAt 0).rep = some r ∧ s.xcLive 0 = true ∧ (s.xcAt 0).pc.toNat + 4 ≤ localTop ∧
      (s.xcAt 0).cycles + 1 ≤ (s.xcAt 0).cost ∧ (s.xcAt 0).pc + 4 = r.after ∧ 1 < r.left ∧
      ¬ 1 < ({ r with left := 1 } : RepSt).left) := by decide

theorem witness_TilesEndByHandOver :
    (let c := xcRuns
     c.tile = some { plane := 0, band := 0, col := 0 } ∧ (permissive.xc0 c).xcLive 0 = true ∧
      c.pc.toNat + 4 ≤ localTop ∧ c.cycles + 136 ≤ c.cost) ∧
    (let c := { xcRuns with cycles := 999900 }
     (permissive.xc0 c).xcLive 0 = true ∧ c.cost < c.cycles + 136) ∧
    (let c := { xcRuns with cycles := 1000000 }
     ((permissive.xc0 c).xcAt 0).cost ≤ ((permissive.xc0 c).xcAt 0).cycles) := by decide

theorem witness_IllegalModesAndTheMeterStop :
    (7 : BitVec 3).toNat ≥ 5 ∧
    (let s := permissive.xc0 { xcRuns with cycles := 999967 }
     (s.xcAt 0).tile = some { plane := 0, band := 0, col := 0 } ∧ s.xcLive 0 = true ∧
      (s.xcAt 0).pc.toNat + 4 ≤ localTop ∧ (s.xcAt 0).cost < (s.xcAt 0).cycles + 34 ∧
      (s.xcAt 0).cost < (s.xcAt 0).cycles + 130) := by decide

theorem witness_AreaShapesPaintTheirArea :
    (4 : BitVec 3).toNat < 5 ∧ Ready (drawing [(1, 0x00040002)] [(0, 0), (1, 0x100000)]) (.xc 0) 1 (4 + 64 * 9) ∧
    Ready (drawing [] []) (.xc 0) 1 (6 + 64 * 10) := by simp only [Ready]; decide

theorem witness_BlitPlacesABitmap :
    (let s := drawing [(1, 0x100), (3, 0x00010707)] []
     let g := s.xg 0 3
     (s.xg 0 1).toNat / 4 * 4 + 4 * (g.toNat / 65536 % 1024) * (g.toNat / 256 % 64) + (g.toNat % 256 + 1)
      ≤ localTop) ∧ Ready (drawing [] []) (.xc 0) 1 (4 + 64 * 9) := by simp only [Ready]; decide

/-- A font at local address 0 with one glyph, the code 65, of 3 × 2 pixels of 8 bits. -/
def font : List Host.Cell :=
  memStore [] (XC_MEM 0) (leBytes 4 1 ++ leBytes 4 65 ++ leBytes 4 (5 * 2 ^ 20 + 16) ++ leBytes 4 0x0203 ++
    [1, 2, 3, 0, 4, 5, 6, 0])

theorem witness_GlyphDrawsItsPixels :
    let s := { drawing [(1, 0x00100020), (3, 65), (4, 66), (5, 64)] [] with mem := font }
    let word := fun k => s.loadNat (XC_MEM 0 + 0 + k) 4
    word 4 % 65536 = 65 ∧ word 0 % 65536 = 1 ∧ (s.xg 0 3).toNat % 65536 < 65 + 1 ∧
    65 + 1 ≤ (s.xg 0 4).toNat % 65536 ∧ (s.xg 0 5).toNat % 65536 < 65 ∧ 0 + 16 + 8 * 0 ≤ localTop ∧
    0 + word 8 % 2 ^ 20 + 4 * 1 * 2 ≤ localTop := by decide

theorem witness_UnpackDecodesCompactRaster :
    (4 : BitVec 3).toNat < 5 ∧ Ready (drawing [(1, 0x38000), (3, 0xFFFFFFFF)] []) (.xc 0) 1 (4 + 64 * 66) := by
  simp only [Ready]; decide

theorem witness_VariableFieldDrawsOrMisses :
    Ready (drawing [] []) (.xc 0) 1 582 ∧ (4 : BitVec 3).toNat < 5 ∧
    (let next := (0x20000000 : Word).toNat / 2 ^ 24 % 64
     next ≠ 0 ∧ next ≤ 32 ∧ ¬(next ≠ 0 ∧ next ≤ 31) ∧ 2 ^ 31 ≤ (0x80000000 : Word).toNat ∧
     (0x80000000 : Word).toNat / 2 ^ 24 % 64 = 0) ∧
    (let c := { xcRuns with windows := true, ready := 1 }
     c.start5.toNat < 2 ^ 31 ∧ c.windows = true ∧ c.ready.getLsbD 0 = true ∧ c.ready.getLsbD 1 = false) := by
  simp only [Ready]; decide

theorem witness_VectorLoadsAndStores :
    ((drawing [(1, 0x37FE0)] []).xg 0 1).toNat / 32 * 32 + 32 ≤ localTop ∧ (4 : BitVec 3).toNat < 5 := by
  decide

/-- R75: orientation 5 turns the last row's first pixel to the top left corner, and orientation 3 the last
pixel. -/
theorem test_orientation : orient 5 3 2 0 0 = (0, 1) ∧ orient 5 3 2 1 0 = (0, 0) ∧ orient 3 3 2 0 0 = (2, 1) :=
  by decide

/-! ### Admission and tiles -/

/-- A line-paced job of one plane with LEAD 16 that ends at line 4096. -/
def header : JobHdr :=
  { feed := false, trig := false, dwc := 0, npl := 1, lead := 16, fdecl := 100000, blay := 64, ncyc := 1,
    origin := 0, endLn := 4096, bdt := 0, vfw := 0, widths := [256], lanes := [] }

def job : JobSt :=
  { hdr := header, sums := [], dMax := 1000, fMax := 0, cMax := 0, fOther := 100000, omins := [0], omaxs := [0],
    goLn := 0, stopLn := 4096 }

/-- Job slot 0 in a state, with the job, and line events up to a line. -/
def slot0 (st : Nat) (hwm : BitVec 64) (go : Word) : State :=
  let s := (permissive.domsAwake.fldsAt [(ADM_SLOT_STAT 0, ADM_SLOT_STAT_STATE, st)]).regsAt [(GO_LN_LO, go)]
  { s with adm := { s.adm with jobs := [(0, some job)] }, lc := { s.lc with hwm := hwm } }

theorem witness_SlotCommandsMoveTheirSlot :
    permissive.domsAsleep.awake BLK_ADM = false ∧ (slot0 0 0 0).awake BLK_ADM = true ∧
    (slot0 1 0 0).slotState 0 = 1 ∧ (slot0 5 0 0).jobAt 0 = some job ∧
    (slot0 1 0 0).dramStalls (0, 0) false .keep [((slot0 1 0 0).jobBase 0, 256)] = none ∧
    ∀ st, st < 7 → (slot0 st 0 0).slotState 0 = st := by decide

/-- The job in slot 0 as a second job would follow it, which runs in slot 1 with a given header. -/
def seam (old : JobHdr) (rate : Word) : State :=
  let s := slot0 2 48 384
  let s := (s.fldsAt [(ADM_SLOT_STAT 1, ADM_SLOT_STAT_STATE, 5)]).regsAt [(ADM_RATE 0, rate), (ADM_RATE 1, rate)]
  { s with adm := { s.adm with jobs := s.adm.jobs ++ [(1, some { job with hdr := old })] } }

theorem witness_StartChecksItsLine :
    (slot0 2 0 64).jobAt 0 = some job ∧
    (let s := slot0 2 0 63
     s.reg64 GO_LN_LO GO_LN_HI % 64 ≠ 0) ∧
    (let s := slot0 2 0 320
     s.reg64 GO_LN_LO GO_LN_HI % 64 = 0 ∧ (s.reg64 GO_LN_LO GO_LN_HI : Int) < s.lastLn + 320 + 16) ∧
    (let s := slot0 2 48 384
     s.reg64 GO_LN_LO GO_LN_HI % 64 = 0 ∧ s.lastLn + 320 + 16 ≤ (s.reg64 GO_LN_LO GO_LN_HI : Int) ∧
      s.slotState 1 ∉ [5, 6]) ∧ (slot0 5 0 64).slotState 0 ≠ 2 ∧
    (let s := seam header 1
     s.awake BLK_ADM = true ∧ s.slotState 0 = 2 ∧ s.slotState 1 ∈ [5, 6] ∧ s.jobAt 1 = some job ∧
      s.lastLn + 320 + 16 ≤ (s.reg64 GO_LN_LO GO_LN_HI : Int) ∧ seamFits header header = true ∧
      s.seamLoad job { job with goLn := 384 } 1 384 = false) ∧
    seamFits { header with lead := 17 } header = false ∧
    (seam header 1).seamLoad job { job with goLn := 384, hdr := { header with widths := [20000000] } } 1 384 =
      true := by decide

theorem witness_RatesFollowTheCores :
    let s := slot0 5 64 0
    let s := { s with adm := { s.adm with ratePend := true } }
    s.adm.ratePend = true ∧ s.lastLn % 64 = 0 ∧ ((slot0 2 1 0).slotState 0 ∉ [5, 6]) ∧
    (slot0 2 1 0).slotState 1 ∉ [5, 6] ∧ s.jobAt 0 = some job ∧ s.jobAt 1 = none ∧
    min (computeRate (min 126 s.ncap) job.dMax) job.fOther <
      ((s.regsAt [(ADM_RATE 0, 0xFFFFFFFF)]).reg (ADM_RATE 0)).toNat ∧
    (s.reg (ADM_RATE 0)).toNat < min (computeRate (min 126 s.ncap) job.dMax) job.fOther := by decide

def render (core : Nat) (ph : RenderPhase) : Render :=
  { core := core, phase := ph, crc := 5, illegal := false, overrun := false, vmiss := 0, bytes := [(3, 9)] }

/-- A tile of the band at line 64 with given renders. -/
def tile (rs : List Render) : TileSt :=
  { key := { plane := 0, band := 64, col := 0 }, job := 0, blank := false, cost := 500, entry := 0x100, fl := 0,
    dofs := 0, fw := false, g5 := 0x80000000, p0 := none, p1 := none, ready := 0, fetchBad := false,
    renders := rs, fate := .waiting, vmiss := 0, slot := some 4095, bits := 0 }

/-- The running job's tile, with line events up to a line. -/
def tiled (rs : List Render) (hwm : BitVec 64) : State :=
  let s := slot0 5 hwm 0
  { s with adm := { s.adm with tiles := [tile rs] } }

theorem witness_TileStartsWithItsValues :
    let t := tile [render 0 (.fetched true)]
    let s := tiled [render 0 (.fetched true)] 1000
    s.nextOn 0 RenderPhase.isFetched = some t ∧ (s.xcAt 0).tile = none ∧ (s.xcAt 0).handed = none ∧
    s.tileR t ≤ s.lastLn ∧ s.clocked BLK_XC = true := by decide

theorem witness_HandedBuffersAreCleared :
    let h : Handed := { buf := true, tile := (tile []).key, crc := 0, illegal := false, overrun := false,
                        vmiss := 0 }
    ((permissive.xc0 { XcSt.reset with handed := some h }).xcAt 0).handed = some h := by decide

theorem witness_PrefetchFillsTheNextArea :
    let t := tile [render 0 .queued]
    let s := tiled [render 0 .queued] 1000
    s.nextOn 0 (fun ph => decide (ph = .queued)) = some t ∧ s.nextOn 0 RenderPhase.isFetched = none ∧
    s.tileR t - 64 ≤ s.lastLn ∧
    s.clocked BLK_XC = true ∧ s.dramStalls (0, fetchSrc 0) false .keep ((t.fl, 16) :: []) = none ∧
    (let u := { t with fl := CC_SHARED }
     let e := CC_SHARED + 64 * 2 ^ 64 + 8 * 2 ^ 96
     let s := { s with mem := memStore [] CC_SHARED (leBytes 16 1 ++ leBytes 16 e),
                       adm := { s.adm with tiles := [u] } }
     (List.range (min 4096 (s.listLen u.fl))).map (s.listEnt u.fl) = [e] ∧
      s.permitsAll .xc u.fl 32 false = true ∧ s.permitsAll .xc (lstSrc e) (fetchLen e) false = true ∧
      fetchLen e = 64 ∧ s.dramStalls (0, fetchSrc 0) false .keep [(u.fl, 32), (lstSrc e, fetchLen e)] = none) ∧
    ((oneRank srInSr).dramStalls (0, fetchSrc 0) false .keep [(0, 16)]).isSome = true := by decide

theorem witness_VoteOrZeroDose :
    let rs := [render 0 .delivered, render 1 .delivered]
    (tiled rs 1000).findTile (tile rs).key = some (tile rs) ∧ (tile rs).fetchBad = false ∧
    (∀ r ∈ rs, r.phase = .delivered) ∧ (tile rs).majority rs = some (render 0 .delivered) ∧
    (tiled rs 1000).tileFeed (tile rs) = false ∧ (tiled rs 1000).tileR (tile rs) + 64 ≤ (tiled rs 1000).lastLn ∧
    (tiled rs (-1)).lastLn < (tiled rs (-1)).tileR (tile rs) + 64 ∧ (tile rs).fate = .waiting ∧
    ∀ n, (tile rs).slot = some n → n < 4096 := by
  refine ⟨by decide, by decide, by decide, by decide, by decide, by decide, by decide, by decide, ?_⟩
  rintro n ⟨⟩; decide

/-! ### Dose stage, line clock and firing -/

theorem witness_PacketSetsLeaveInOrder :
    let x : SetSlot := { slot := 63, line := 3, derate := false, copy := 0, msel := 0 }
    let p : PacketSet := { line := 3, per := 1000, lead := 16, dwc := 0, slots := [x] }
    ({ permissive with ds := { DsSt.reset with sets := [p] } }).ds.sets = [p] ∧ p.slots = [x] ∧
    x.slot < 64 ∧ p.per < 2 ^ 24 ∧ permissive.ds.sets = [] ∧ permissive.domsAwake.clocked BLK_DS = true := by
  decide

/-- The dose stage with a commit for a line, and slot 0 having read up to line 64. -/
def building (target : Nat) : State :=
  { permissive.domsAwake with ds := { DsSt.reset with
      building := some target, slots := [(0, { reading := true, first := false, last := some 64 })] } }

theorem witness_EpochCommitsAreChecked :
    permissive.domsAwake.awake BLK_DS = true ∧
    permissive.domsAwake.bit DS_EPOCH_STAT DS_EPOCH_STAT_BUSY = false ∧
    (permissive.domsAwake.fldsAt [(DS_EPOCH_STAT, DS_EPOCH_STAT_BUSY, 1)]).bit DS_EPOCH_STAT
      DS_EPOCH_STAT_BUSY = true ∧
    (building 65).clocked BLK_DS = true ∧ (building 65).ds.building = some 65 ∧ 65 % 64 ≠ 0 ∧ (building 64).highestRead = some 64 ∧
    (64 : Int) ≤ 64 ∧ 128 % 64 = 0 ∧ (64 : Int) < 128 ∧ (building 0).ds.building = some 0 ∧
    (building 128).readingSlots = [0] ∧
    ({ building 128 with ds := { (building 128).ds with slots := [] } }).readingSlots = [] ∧
    permissive.ds.building = none := by decide

theorem witness_HoldSetsItsBit : permissive.domsAwake.awake BLK_DS = true := by decide

theorem witness_LineEventRaisesH :
    let s := { permissive with lc := { LcSt.reset with due := some 100, hwm := 5, tadmNext := 0 }, now := 7 }
    let s1 := s.setFld LC_TADM LC_TADM_TADM s.lc.tadmNext
    s.lc.due = some 100 ∧ s1.emission 100 = .onTime 100 ∧ s.feedBlocks (s.lc.hwm + 1).toNat = false ∧
    100 ≤ 16 * s.now + 15 ∧ permissive.lc.due = none ∧ 16 * 6 + 15 < 112 := by decide

theorem witness_LinePositionIsSetWhileOff :
    permissive.permits .host (regAddr LC_SET_HI) true = true ∧ permissive.fld LC_CTRL LC_CTRL_SRC = 0 ∧
    (permissive.fldsAt [(LC_CTRL, LC_CTRL_SRC, 3)]).fld LC_CTRL LC_CTRL_SRC = 3 := by decide

theorem witness_ProductsAreNumberedAndQueued :
    let lane : LaneDef := { x0 := 0, x1 := 256, sdist := 5000, tpl := 0, len := 100 }
    let j := { job with hdr := { header with trig := true, lanes := [lane] } }
    let s0 := (slot0 5 64 0).fldsAt [(PROD_CFG 0, PROD_CFG_EN, 1)]
    let s := { s0 with adm := { s0.adm with jobs := [(0, some j)] } }
    s0.laneJob 0 = none ∧ s.bit (PROD_CFG 0) PROD_CFG_EN = true ∧ s.laneJob 0 = some (j, lane) ∧
    s.lc.products.find? (fun p => p.trig && p.lane == 0) = none ∧
    s.lastLn + 320 + 16 ≤ ((5000 + s.ominMin 1 : Nat) : Int) ∧ s.lc.prodQueue.length < 256 ∧
    (let p : Product := { num := 0, lane := 7, origin := 0, trig := true, at_ := 0 }
     256 ≤ ({ s with lc := { s.lc with prodQueue := List.replicate 256 p } }).lc.prodQueue.length ∧
      ({ s with lc := { s.lc with products := [{ p with lane := 0, origin := 5000 }] } }).lc.products.find?
        (fun p => p.trig && p.lane == 0) = some { p with lane := 0, origin := 5000 } ∧ 5000 < 5000 + lane.len) ∧
    (1 : Word).getLsbD 0 = true ∧ (2 : Word).getLsbD 0 = false := by decide

theorem witness_CameraTriggerEnds :
    let s := { permissive with now := 70000, lc := { LcSt.reset with camHigh := [(0, some 159), (1, some 1120000)] } }
    s.lc.camHigh.get none 0 = some 159 ∧ 159 / 16 + max 1 (s.fld (CT_CFG 0) CT_CFG_WIDTH) ≤ s.now ∧
    s.lc.camHigh.get none 1 = some 1120000 ∧ s.now < 1120000 / 16 + max 1 (s.fld (CT_CFG 1) CT_CFG_WIDTH) := by decide

/-- A feed-paced job whose tile waits, the line clock fed by axis 0. -/
def feeding (hold : Option Nat) (feed : Nat) (tiles : List TileSt) : State :=
  let s := (slot0 5 1000 0).fldsAt
    [(LC_CTRL, LC_CTRL_SRC, 2), (LC_CTRL, LC_CTRL_UNIT, 0), (LC_STAT, LC_STAT_FEED, feed)]
  { s with
    adm := { s.adm with jobs := [(0, some { job with hdr := { header with feed := true } })], tiles := tiles },
    lc := { s.lc with src := 2, unit := 0, holdAt := hold } }

theorem witness_FeedHoldsStopsAndResumes :
    (feeding none 0 [tile []]).feedAxis = some 0 ∧ (feeding none 0 [tile []]).lc.holdAt = none ∧
    (feeding none 0 [tile []]).feedPending ((feeding none 0 []).lc.hwm + 1).toNat = some 47 ∧
    (feeding none 0 []).feedPending 1001 = none ∧
    (feeding (some 80) 1 []).fld LC_STAT LC_STAT_FEED = 1 ∧ ((feeding (some 80) 1 []).axAt 0).run = .idle ∧
    (feeding (some 80) 3 []).fld LC_STAT LC_STAT_FEED = 3 ∧ (feeding (some 80) 3 []).feedWaits = [] ∧
    (feeding (some 80) 1 []).feedAxis = some 0 ∧ (feeding (some 80) 1 []).lc.holdAt = some 80 ∧
    (feeding (some 80) 3 [tile []]).feedWaits = [47] ∧ 47 ≤ 80 := by decide

/-- Hub 0 with a pulse to come and hub 1 with a pulse in progress. -/
def pulse : Pulse := { line := 10, mark := false, start := 1600, width := 50 }

def firing (now : Nat) : State :=
  { permissive.fldsAt [(SI_HUBPERM, SI_HUBPERM_PERM, 1)] with
      now := now, fs := { FsSt.reset with sched := [(0, [pulse])], high := [(1, some pulse)] } }

theorem witness_PulsesBeginAndEnd :
    ((firing 100).regsAt [(FS_CAL, 1)]).rbit FS_CAL 0 = true ∧ (firing 100).rbit FS_CAL 0 = false ∧
    (firing 100).fs.sched.get [] 0 = [pulse] ∧ (firing 100).fs.high.get none 0 = none ∧
    pulse.start ≤ 16 * 100 + 15 ∧ (firing 100).fireCut 0 = false ∧ (firing 100).rbit SI_HUBPERM 0 = true ∧
    ((firing 100).fldsAt [(FS_HSTAT 0, FS_HSTAT_CUT, 1)]).fireCut 0 = true ∧
    ((firing 100).regsAt [(SI_HUBPERM, 0)]).rbit SI_HUBPERM 0 = false ∧
    (firing 150).fs.high.get none 1 = some pulse ∧ pulse.start / 16 + pulse.width ≤ 150 ∧
    16 * 99 + 15 < pulse.start ∧ 149 < pulse.start / 16 + pulse.width := by decide

theorem witness_PadsAreCutAndReported :
    (firing 1000).fs.high.get none 1 = some pulse ∧ pulse.start / 16 + (firing 1000).swMax ≤ 1000 ∧
    (firing 100).now < pulse.start / 16 + (firing 100).swMax ∧ (firing 1000).fireCut 1 = false ∧
    padInst (.fire 15) < 16 ∧ 16 ≤ padInst (.cam 0) ∧ permissive.permits .si (regAddr FS_CUTCLR) true = true := by decide

theorem witness_GatesAndHeadAlerts :
    permissive.bit (FS_HSTAT 0) FS_HSTAT_LIMIT = false ∧
    (let s := permissive.fldsAt [(FS_HSTAT 0, FS_HSTAT_LIMIT, 1), (FS_HSTAT 0, FS_HSTAT_BELOW, 1024)]
     s.gateInhibits 0 = false ∧ (s.fldsAt [(GATE_CFG 0, GATE_CFG_FUNC, 1)]).gateFunc 0 = 1 ∧
      s.bit (FS_HSTAT 0) FS_HSTAT_LIMIT = true ∧ s.fld (FS_HSTAT 0) FS_HSTAT_BELOW = 1024) := by decide

/-! ### Dose link and cameras -/

/-- Lane 0 in a state code, with its own state. -/
def lane0 (st : Nat) (x : LaneSt) : State :=
  let s := permissive.domsAwake.fldsAt [(DL_LANE_STAT 0, DL_LANE_STAT_STATE, st)]
  { s with dl := { lanes := [(0, x)], hubs := [] } }

def locked (s : State) : State := s.fldsAt [(DL_LANE_STAT 0, DL_LANE_STAT_LOCK, 1)]

theorem witness_LaneBringUpPhases :
    (lane0 0 LaneSt.reset).awake BLK_DL = true ∧
    (lane0 0 LaneSt.reset).bit (DL_LANE_CFG 0) DL_LANE_CFG_EN = false ∧ (lane0 0 LaneSt.reset).unit 148 = 0 ∧
    ((lane0 0 LaneSt.reset).fldsAt [(ST_USTAT 148, ST_USTAT_STATE, 1)]).unit 148 ≠ 0 ∧
    (lane0 0 LaneSt.reset).clocked BLK_DL = true ∧ (locked (lane0 6 LaneSt.reset)).laneLock 0 = true ∧
    (locked (lane0 6 LaneSt.reset)).laneState 0 ≠ 3 ∧ 3 < (4 : BitVec 8).toNat ∧
    (2 ^ 40 : BitVec 48) &&& BitVec.ofNat 48 (capUnused 2) ≠ 0 ∧ fldGet DL_LANE_CFG_EN 1 = 1 ∧
    (∀ st, st < 6 → (lane0 st LaneSt.reset).laneState 0 = st) ∧
    (locked (lane0 2 LaneSt.reset)).laneLock 0 = true ∧ (lane0 2 LaneSt.reset).laneLock 0 = false ∧
    (let s := locked (lane0 3 { LaneSt.reset with caps := [(1, (1000, 1))] })
     s.laneState 0 = 3 ∧ s.laneLock 0 = true ∧ (1000 : BitVec 48) &&& BitVec.ofNat 48 (capUnused 1) = 0 ∧
      capValid 1 1000 = true ∧ (s.laneAt 0).caps.get (0, 0) 1 = (1000, 0 + 1) ∧ capValid 1 0 = false ∧
      ((s.laneAt 0).caps.get (0, 0) 3).2 < 2) ∧
    (let caps : Tbl (Nat × Nat) := [(0, (0x10101, 2)), (1, (1000, 2)), (2, (8, 2)), (3, (7, 3))]
     let s := lane0 3 { LaneSt.reset with caps := caps }
     let c := capOf fun i => ((s.laneAt 0).caps.get (0, 0) i).1
     (∀ i : Fin 4, 2 ≤ ((s.laneAt 0).caps.get (0, 0) i).2) ∧ s.stepRate 0 c.rates = 0 ∧
      (s.laneAt 1).held = none ∧
      (let o := { s with dl := { s.dl with lanes := s.dl.lanes ++ [(1, { LaneSt.reset with held := some { c with maxlr := 5 } })] } }
       (o.laneAt 1).held = some { c with maxlr := 5 } ∧ c ≠ { c with maxlr := 5 }) ∧
      s.stepRate 0 3 ≠ 0) ∧
    (lane0 4 LaneSt.reset).fld (DL_LANE_STAT 0) DL_LANE_STAT_RATE = ((lane0 4 LaneSt.reset).laneAt 0).target ∧
    ((lane0 5 { LaneSt.reset with align := true, txType := 2 }).laneAt 0).txType = 2 ∧
    (0 : BitVec 56).toNat % 256 = ((locked (lane0 4 LaneSt.reset)).laneAt 0).target ∧
    (0x0101 : BitVec 56).toNat % 256 ≠ ((locked (lane0 4 LaneSt.reset)).laneAt 0).target ∧
    (let s := lane0 5 { LaneSt.reset with align := true }
     s.laneState 0 = 5 ∧ (s.laneAt 0).align = true ∧ (s.laneAt 0).txType ≠ 2 ∧
      s.bit (FS_HSTAT 0) FS_HSTAT_HELD = false) := by decide

theorem witness_LaneAttemptsAreCounted :
    (∀ st, st < 6 → ({ lane0 st LaneSt.reset with now := 25 * ticksMs }).laneState 0 = st ∧
      0 + phaseMax st false ≤ 25 * ticksMs) ∧ 25 * ticksMs - 1 < 0 + phaseMax 4 false ∧
    (lane0 1 LaneSt.reset).fld (DL_LANE_STAT 0) DL_LANE_STAT_TRIES + 1 < 3 ∧
    ((lane0 4 LaneSt.reset).fldsAt [(DL_LANE_STAT 0, DL_LANE_STAT_TRIES, 2)]).fld (DL_LANE_STAT 0)
      DL_LANE_STAT_TRIES = 2 ∧
    (lane0 7 { LaneSt.reset with restart := true }).laneState 0 = 7 ∧
    ((lane0 7 { LaneSt.reset with restart := true }).laneAt 0).restart = true ∧
    0 + 10 * ticksMs ≤ 10 * ticksMs ∧ (lane0 7 LaneSt.reset).now < 0 + 10 * ticksMs := by decide

theorem witness_ReadyLanesFail :
    let e : Sent := { seq := 1, fln := 5, due := 1000, kind := .cfgw }
    let s := locked { lane0 6 { LaneSt.reset with window := [e] } with now := 100 }
    let s := s.fldsAt [(ST_USTAT 148, ST_USTAT_STATE, 0)]
    s.laneReady 0 = true ∧ s.laneReady (partner 0) = false ∧ s.unit 148 = 0 ∧ s.unit (148 + partner 0) ≠ 1 ∧
    s.laneLock 0 = true ∧ e ∈ (s.laneAt 0).window ∧ e.due ≤ 16 * s.now ∧ s.laneReady 2 = false ∧
    (s.fldsAt [(DL_LANE_STAT 2, DL_LANE_STAT_LOCK, 1)]).laneLock 2 = true ∧
    (∀ e ∈ (s.laneAt 2).window, 16 * s.now < e.due) := by decide

theorem witness_PacketsToTheHub :
    let p : DosePkt := { fln := 8, slot := 0, delay := 0, dwc := 0, epoch := false, derate := false,
                         payload := [] }
    let s := lane0 6 { LaneSt.reset with queue := [p] }
    let s1 := (slot0 5 100 0)
    permissive.runJob = none ∧ (s.hubAt 0).toSend = none ∧
    (s.fldsAt [(DL_CFGW_STAT 0, DL_CFGW_STAT_BUSY, 1)]).bit (DL_CFGW_STAT 0) DL_CFGW_STAT_BUSY = true ∧
    s.laneReady 0 = true ∧ (s.laneAt 0).queue = [p] ∧ s.awake BLK_DL = true ∧ (1 : Word).getLsbD 0 = true ∧
    s.bit (DL_CFGW_STAT 0) DL_CFGW_STAT_BUSY = false ∧ s.readyLanes 0 = [0] ∧ s1.runJob = some job ∧
    s1.lc.hwm.toNat + job.hdr.lead + 80 < 2 ^ 64 ∧
    (({ s1 with dl := { lanes := [], hubs := [(0, { HubSt.reset with toSend := some 3 })] } }).hubAt 0).toSend =
      some 3 := by decide

theorem witness_PacketsFromTheHub :
    let s := (lane0 6 { LaneSt.reset with topFln := some 100, lastAck := some 40 }).fldsAt
      [(DL_HUB_STAT 0, DL_HUB_STAT_ONLINE, 1)]
    s.laneReady 0 = true ∧ (s.countEvent (winKey 0x1281 0) 8 ticksSec).1 = false ∧ s.hubOnline 0 = true ∧
    (s.laneAt 0).beats < 8 ∧ (s.laneAt 0).lastAck = some 40 ∧ (s.laneAt 0).topFln = some 100 ∧
    (40 ≤ (50 : BitVec 64).toNat ∧ (50 : BitVec 64).toNat ≤ 100) ∧
    (List.replicate 40 (0 : Byte)).length = 40 ∧ s.laneReady 2 = false ∧
    sopRight { typ := 4, len := 4, pad := 0, whole := true } 4 4 ∧
    sopRight { typ := 5, len := 6, pad := 0, whole := true } 5 6 ∧
    (let sop : HubSop := { typ := 9, len := 1024, pad := 0, whole := true }
     sop.typ ≠ 4 ∧ sop.typ ≠ 5 ∧ sop.pad = 0 ∧ 1 ≤ sop.len.toNat ∧ sop.len.toNat ≤ 1024) ∧
    s.now < (s.hubAt 0).heard + 4 * s.hbInt ∧
    (let t := { s with now := 4 * s.hbInt }
     t.hubOnline 0 = true ∧ (t.hubAt 0).heard + 4 * t.hbInt ≤ t.now) ∧
    256 ≤ (({ s with dl := { lanes := [], hubs := [(0, { HubSt.reset with statusAge := 256 })] } }).hubAt
      0).statusAge := by simp only [sopRight]; decide

/-- Camera port 0 in a state code, with its own state and lines of 2,048 pixels of one 8-bit channel. -/
def port0 (st : Nat) (x : PortSt) : State :=
  let s := permissive.domsAwake.fldsAt [(CAM_STAT 0, CAM_STAT_STATE, st), (CAM_GEOM 0, CAM_GEOM_W_M1, 2047),
    (CAM_GEOM 0, CAM_GEOM_FH_M1, 3), (CAM_LAT 0, CAM_LAT_LATMAX, 100)]
  { s with now := 50, cxr := { ports := [(0, x)], checking := false } }

theorem witness_CameraPacketsAndHeaders :
    (port0 2 PortSt.reset).camReceives 0 = true ∧ ((port0 1 PortSt.reset).portAt 0).frame = .none ∧
    (0 : BitVec 3).toNat = (port0 1 PortSt.reset).camFmt 0 ∧
    (4 : BitVec 3).toNat ≠ (port0 1 PortSt.reset).camFmt 0 ∧
    ((port0 2 PortSt.reset).countEvent (winKey 0x12C3 0) 8 ticksSec).1 = false ∧ (port0 0 PortSt.reset).camReceives 0 = false := by
  decide

theorem witness_LinesAreMatchedToTriggers :
    let e : CamEntry := { ln := 7, tick := 20, state := .pending }
    let x := { PortSt.reset with samples := List.replicate 2048 5, frame := .lines 3 true, queue := [e] }
    let s := port0 2 x
    s.camReceives 0 = true ∧ (s.portAt 0).samples ≠ [] ∧ (s.portAt 0).spoiled = false ∧ 3 < s.camFh 0 ∧
    (s.portAt 0).noSlot = false ∧ (s.portAt 0).queue = [e] ∧ e.state = .pending ∧ s.fld (CAM_LAT 0) CAM_LAT_LATMIN ≤ s.now - 20 ∧
    s.now - 20 ≤ s.fld (CAM_LAT 0) CAM_LAT_LATMAX ∧ s.freeSlot 0 = some 0 ∧
    (s.portAt 0).samples.length = s.camW 0 * fmtCh (s.camFmt 0) ∧
    ((port0 2 { x with queue := [] }).portAt 0).queue = [] ∧
    ((port0 2 { x with frame := .lines 4 true }).portAt 0).frame = .lines 4 true ∧ s.camFh 0 ≤ 4 := by decide +kernel

theorem witness_LinksAndConfigurationCheck :
    (port0 1 PortSt.reset).camReceives 0 = true ∧ (port0 0 PortSt.reset).awake BLK_CXR = true ∧
    (let s := { port0 0 PortSt.reset with cxr := { ports := [], checking := true } }
     s.cxr.checking = true ∧ (∀ c ∈ s.camChecks, c.2 = []) ∧ s.usedPorts = []) ∧
    (let s := { (port0 0 PortSt.reset).fldsAt [(CAM_CFG 0, CAM_CFG_USE, 1)] with
                cxr := { ports := [(0, PortSt.reset)], checking := true } }
     s.cxr.checking = true ∧ (s.camChecks.find? (fun c => !c.2.isEmpty)).isSome = true) ∧
    (port0 0 PortSt.reset).cxr.checking = false ∧
    ((port0 1 PortSt.reset).fldsAt [(CAM_CFG 0, CAM_CFG_EN, 1)]).bit (CAM_CFG 0) CAM_CFG_EN = true ∧
    (port0 0 PortSt.reset).bit (CAM_CFG 0) CAM_CFG_EN = false ∧
    ((port0 0 PortSt.reset).fldsAt [(CAM_CFG 0, CAM_CFG_CHECKED, 1)]).bit (CAM_CFG 0) CAM_CFG_CHECKED = true ∧
    (port0 0 PortSt.reset).bit (CAM_CFG 0) CAM_CFG_CHECKED = false := by decide +kernel

theorem witness_MailboxTransactions :
    (port0 0 PortSt.reset).awake BLK_CXR = true ∧
    (port0 0 PortSt.reset).bit (MBX_STAT 0) MBX_STAT_BUSY = false ∧
    ((port0 0 PortSt.reset).fldsAt [(MBX_STAT 0, MBX_STAT_BUSY, 1)]).bit (MBX_STAT 0) MBX_STAT_BUSY = true ∧
    ((port0 0 PortSt.reset).fldsAt [(CAM_STAT 0, CAM_STAT_LOCK0, 1)]).bit (CAM_STAT 0) CAM_STAT_LOCK0 = true ∧
    (port0 0 PortSt.reset).bit (CAM_STAT 0) CAM_STAT_LOCK0 = false ∧
    (let m : MbxSt := { addr := 0x1000, len := 256, write := false, data := [], since := 0 }
     let s := { (port0 0 { PortSt.reset with mbx := some m }).fldsAt [(MBX_CMD 0, MBX_CMD_TIMEOUT, 1)] with
                now := ticksMs }
     (s.portAt 0).mbx = some m ∧ m.since + max 1 (s.fld (MBX_CMD 0) MBX_CMD_TIMEOUT) * ticksMs ≤ s.now ∧
      (s.now - 1) < m.since + max 1 (s.fld (MBX_CMD 0) MBX_CMD_TIMEOUT) * ticksMs) ∧
    ((port0 0 PortSt.reset).portAt 0).mbx = none := by decide

theorem witness_PipesServeStripesInTurn :
    let e : CamEntry := { ln := 7, tick := 20, state := .unverified 1 }
    let s := (port0 2 { PortSt.reset with queue := List.replicate 16 e }).fldsAt [(CAM_CFG 0, CAM_CFG_EN, 1)]
    s.bit (IP_PIPE 0) IP_PIPE_BUSY = false ∧ s.bit (IP_PIPE 0) IP_PIPE_FAILED = false ∧ s.unit 144 ≠ 1 ∧
    s.top.rrPtr.get 0 (rrStripe 0) = 0 ∧ s.stripeReady 0 0 = true ∧
    (s.fldsAt [(IP_PIPE 0, IP_PIPE_FAILED, 1)]).bit (IP_PIPE 0) IP_PIPE_FAILED = true ∧
    (s.fldsAt [(IP_PIPE 0, IP_PIPE_BUSY, 1)]).bit (IP_PIPE 0) IP_PIPE_BUSY = true ∧
    s.clocked BLK_IP = true ∧
    (let k : PipeWork := { cam := 0, tset := 0, params := [], since := 0, switch := 64, lineCost := 100, line := 0,
                           left := false }
     let w := fun now => { s with now := now, ip := { s.ip with work := [(0, some k)] } }
     (w 100000).ip.work.get none 0 = some k ∧ k.cost ≤ 10 * (100000 - k.since) ∧ k.left = false ∧
      ({ k with left := true } : PipeWork).left = true ∧ 10 * (1 - k.since) < k.cost ∧
      s.ip.work.get none 0 = none) := by decide

theorem witness_PreviewRoiAndCalibration :
    let row : List Byte := List.replicate 20 3
    let x := { PipeCtx.reset with pvRows := [row], rois := [(2, { RoiSt.reset with headers := [(0x8000, [1], 3, 1)] })] }
    let s := { permissive.domsAwake with ip := { work := [], carry := [], ctx := [(0, x)], prev := [] } }
    let s1 := s.regsAt [(PV_SIZE 0, 4096), (PV_WPTR 0, 4076)]
    let waiting := { s with ip := { s.ip with ctx := [(0, { x with pvSent := some (0x2000, 64) })] } }
    s.clocked BLK_IP = true ∧ (s.ctxAt 0).pvSent = none ∧ (waiting.ctxAt 0).pvSent = some (0x2000, 64) ∧
    (waiting.ctxAt 0).pvRows = [row] ∧ waiting.putWaits 3 0x2000 20 = false ∧
    (s.roiAt 0 2).sent = false ∧ 0x8000 + 1 ≤ 2 ^ 48 ∧
    (let w : DramWait := { port := 3, src := 0, chan := 0, addr := 0x2000, hint := .keep,
                           op := .ask (.write (List.replicate 20 3)), since := some 0 }
     ({ waiting with mc := { waiting.mc with waiting := [w] } }).putWaits 3 0x2000 20 = true) ∧
    (s.ctxAt 0).pvRows = [row] ∧ (s.reg (PV_SIZE 0)).toNat < row.length ∧
    (s1.reg (PV_WPTR 0)).toNat + row.length ≤ (s1.reg (PV_SIZE 0)).toNat ∧ 16 ≤ row.length ∧
    s1.reg64 (PV_BASE_LO 0) (PV_BASE_HI 0) + 4076 + row.length ≤ 2 ^ 48 ∧
    (s.roiAt 0 2).headers = [(0x8000, [1], 3, 1)] ∧ (s.roiAt 0 3).headers = [] ∧ (s.ctxAt 1).pvRows = [] ∧ s.awake BLK_IP = true ∧
    s.bit (CAL_STAT 0) CAL_STAT_BUSY = false ∧
    (let s := s.fldsAt [(CAL_STAT 0, CAL_STAT_BUSY, 1), (CAL_STAT 0, CAL_STAT_COUNT, 4096)]
     s.bit (CAL_STAT 0) CAL_STAT_BUSY = true ∧ s.calLines 0 ≤ s.fld (CAL_STAT 0) CAL_STAT_COUNT) := by decide

/-! ### Verification and DRAM -/

def defect : Defect := Defect.blank 1 0 0

/-- A ring of records of 256 bytes with a write pointer. -/
def records (wptr : Word) (emitted waiting : List Defect) : State :=
  { permissive.regsAt [(VE_REC_BASE_LO, 0x08000000), (VE_REC_BASE_HI, 0x1000), (VE_REC_SIZE, 256),
      (VE_REC_WPTR, wptr)] with ve := { VeSt.reset with emitted := emitted, waiting := waiting } }

theorem witness_DefectRecordsAreWritten :
    (let s := records 64 [defect] []
     s.recFull = false ∧ s.plainMem (s.reg64 VE_REC_BASE_LO VE_REC_BASE_HI + 64) 64 ∧ s.dramOpen 3 ∧
      s.reg64 VE_REC_BASE_LO VE_REC_BASE_HI + 64 + 64 ≤ 2 ^ 48 ∧ s.ve.waiting = [] ∧ s.ve.emitted = [defect]) ∧
    (records 64 [] []).ve.emitted = [] ∧ (records 64 [] []).ve.waiting = [] ∧ (records 64 [] [defect]).ve.waiting = [defect] ∧
    (records 192 [defect] []).recFull = true ∧ (records 192 [defect] []).ve.waiting.length < 1024 ∧
    1024 ≤ (records 192 [defect] (List.replicate 1024 defect)).ve.waiting.length := by
  simp only [State.plainMem, State.dramOpen]; decide

/-- The engine on, with a running job of one plane and one expected row for 64 lines. -/
def verifying (x : VeSt) : State :=
  let s := ((slot0 5 1000 0).fldsAt [(VE_CTRL, VE_CTRL_EN, 1), (VE_CTRL, VE_CTRL_DECLOG, 6), (VE_BQ_DEPTH, VE_BQ_DEPTH_DEPTH, 1),
    (VE_CAM_CFG 0, VE_CAM_CFG_EN, 1)]).regsAt [(VE_BQ_BASE_LO, 0x80000), (VE_BQ_BASE_HI, 0x8000)]
  { s with ve := x }

theorem witness_ExpectedRowsAreWritten :
    let s := verifying VeSt.reset
    let s := { s with adm := { s.adm with tiles := [{ tile [] with fate := .zero }] } }
    s.veOn = true ∧ s.dramOpen (64 / s.veDec * (256 / 64 + 4)) ∧
    s.reg64 VE_BQ_BASE_LO VE_BQ_BASE_HI + s.bqDepth * (256 + 8) ≤ 2 ^ 48 ∧ s.bandResolved 0 64 = true ∧ (64 : BitVec 64).toNat % 64 = 0 ∧ 0 < s.widths.length ∧
    64 / s.veDec ≤ s.bqDepth ∧ permissive.veOn = false ∧
    ({ s with adm := { s.adm with tiles := [tile []] } }).bandResolved 0 64 = false ∧
    s.plainMem (s.reg64 VE_BQ_BASE_LO VE_BQ_BASE_HI) (s.bqDepth * (256 + 8)) ∧ (0, 64) ∉ s.ve.bqSent ∧
    (let u := { s with ve := { s.ve with bqSent := [(0, 64)] } }
     u.veOn = true ∧ u.bandResolved 0 64 = true ∧ (0, 64) ∈ u.ve.bqSent) := by
  simp only [State.plainMem, State.dramOpen]; decide

def lineRec (ln : Nat) : LineRec :=
  { ln := ln, cam := 0, unv := false, rgb := false, reason := 0, pad := 0, w := 16, uvr := [], seq := 0,
    samples := List.replicate 16 5 }

def ringLine (row : Int) : RingLine :=
  { row := row, ln := 5, unv := false, reason := 0, pad := 0, w := 16, ch := 1, uvr := [] }

theorem witness_LineRecordsBecomeStitchedRows :
    (let s := verifying { VeSt.reset with inbox := [lineRec 40], nextRow := some 3 }
     s.ve.inbox[0]? = some (lineRec 40) ∧ (∀ e ∈ s.ve.inbox.take 0, e.cam ≠ (lineRec 40).cam) ∧
      (∀ x ∈ s.inboxHeads, x.2 < 0 → s.ringHeld x.1 = true) ∧ permissive.inboxHeads = [] ∧ s.veOn = true ∧ 0 ∈ s.veCams ∧
      (3 : Int) ≤ ((40 : Nat) : Int) - (s.reg (VE_CAM_COFS 0)).toNat / s.veDec ∧ 1 ∉ s.veCams ∧
      s.ringHeld (lineRec 40) = false ∧ s.ringAddr 0 40 + 2 * 16 ≤ 2 ^ 48 ∧
      ({ s with ve := { s.ve with ring := [(0, [ringLine (-54)])] } }).ringHeld (lineRec 40) =
        decide (s.veDec = 1) ∧
      ({ s with ve := { s.ve with nextRow := some 41 } }).ve.nextRow = some 41 ∧
      ((40 : Nat) : Int) / s.veDec < 41) ∧
    (let s := verifying { VeSt.reset with ring := [(0, [ringLine 3])] }
     s.rowReady = some 3 ∧ s.dramStalls (2, 0) false .keep (s.rowReads 3) = none) ∧
    (({ oneRank srInSr with mc := (oneRank srInSr).mc }).dramStalls (2, 0) false .keep [(0, 64)]).isSome = true ∧ (verifying VeSt.reset).rowReady = none := by decide

theorem witness_RegistrationAndHealthIntervals :
    let s := verifying { VeSt.reset with rowsStep := 0x1000000, rowsHealth := 0x1000000 }
    (0 < max 1 (s.fld VE_CTRL VE_CTRL_STEPL)) ∧ max 1 (s.fld VE_CTRL VE_CTRL_STEPL) ≤ s.ve.rowsStep ∧
    s.veOn = true ∧ 2 ^ max 8 (s.fld VE_CTRL VE_CTRL_HLOG) ≤ s.ve.rowsHealth ∧ permissive.veOn = false ∧
    -255 ≤ sext 16 (s.fld (VE_CAM_DX 0) VE_CAM_DX_DXM) ∧ sext 16 (s.fld (VE_CAM_DX 0) VE_CAM_DX_DXM) ≤ 255 ∧
    -255 ≤ s.camDxa 0 ∧ s.camDxa 0 ≤ 255 ∧ -63 ≤ sext 16 (s.fld (VE_CAM_DY 0) VE_CAM_DY_DYM) ∧
    sext 16 (s.fld (VE_CAM_DY 0) VE_CAM_DY_DYM) ≤ 63 ∧ -63 ≤ s.camDya 0 ∧ s.camDya 0 ≤ 63 := by decide

theorem witness_VerificationStartsAndStops :
    permissive.domsAwake.awake BLK_VE = true ∧ permissive.domsAwake.veOn = false ∧
    (permissive.domsAwake.typedWrite VE_CTRL (fldPut VE_CTRL_EN 0 1)).veChecks ≠ 0 ∧
    (verifying VeSt.reset).awake BLK_VE = true ∧ (verifying VeSt.reset).veOn = true ∧
    (verifying VeSt.reset).ve.sat = none := by decide

def gather (op : Nat) : GatherSt :=
  { op := op, rank := 0, point := 0, start := 0, step := 1, count := 2, stale := false }

theorem witness_TrainingRunsAndGathers :
    (oneRank srAwake).bit (MC_TRN_STAT 0) MC_TRN_STAT_BUSY = false ∧
    (oneRank srAwake).bit MC_CFG MC_CFG_ENABLE = true ∧ permissive.bit MC_CFG MC_CFG_ENABLE = false ∧
    ((oneRank srAwake).fldsAt [(MC_TRN_STAT 0, MC_TRN_STAT_BUSY, 1)]).bit (MC_TRN_STAT 0) MC_TRN_STAT_BUSY =
      true ∧
    (({ permissive with mc := { permissive.mc with
        chans := [(0, { ChanSt.reset with gather := some (gather 4) })] } }).chanAt 0).gather =
      some (gather 4) ∧ [(1 : BitVec 128), 2].length = (gather 4).count ∧
    (oneRank srInSr).srOf 0 0 = srInSr ∧ (oneRank srAwake).panicHolds 0 0 = false ∧
    (oneRank srAwake).srOf 0 0 = srAwake ∧ permissive.gatherEnds 0 (gather 4) 1 = false ∧
    (gather 0).op = 0 ∧ ({ gather 6 with stale := true }).stale = true ∧
    (oneRank srAwake).refreshes 0 0 = true ∧
    (oneRank srAwake).refreshes 0 1 = false := by decide

theorem witness_PopulationAndFrequency :
    permissive.bit MC_CFG MC_CFG_ENABLE = false ∧
    (permissive.typedWrite MC_CFG (fldPut MC_CFG_ENABLE 0 1)).mcConfigOk = true ∧
    (permissive.typedWrite MC_CFG (fldPut MC_CFG_ENABLE 0 (fldPut MC_CFG_DENS 3 0))).mcConfigOk = false ∧
    (oneRank srAwake).bit MC_FREQ_CMD MC_FREQ_CMD_BUSY = false ∧ (oneRank srAwake).anyArmed = false ∧
    (slot0 5 0 0).anyArmed = true ∧
    ((oneRank srAwake).fldsAt [(MC_FREQ_CMD, MC_FREQ_CMD_BUSY, 1)]).bit MC_FREQ_CMD MC_FREQ_CMD_BUSY = true ∧
    (oneRank srAwake).mc.waiting = [] ∧ (oneRank srAwake).mc.freqTo < 4 := by decide

/-- What is asked of a request that is served as it arrives. -/
def served (s : State) (port a n : Nat) (write : Bool) : Bool :=
  !s.mustWait (s.homeChan a write) a n write && !samePortLine s.mc.waiting port a n && !s.anyPanic

theorem witness_DramRequestsAreServed :
    64 + 64 ≤ (oneRank srAwake).dramCap ∧ served (oneRank srAwake) 7 64 64 true = true ∧
    served (oneRank srAwake) 7 64 64 false = true ∧
    (∀ l ∈ linesOf 64 64, (oneRank srAwake).linePoisoned l = false) ∧
    (oneRank srAwake).dramCap < 0xFFFFFFFFFF00 + 64 ∧
    (oneRank srInSr).askedRanks ((oneRank srInSr).homeChan 64 false) 64 64 false = [(0, 0)] ∧
    64 + 64 ≤ (oneRank srInSr).dramCap ∧ (oneRank srInSr).srOf 0 0 = srInSr ∧
    (oneRank srInSr).freqBusy = false ∧ (oneRank srInSr).mc.waiting = [] ∧
    (let s := (oneRank srAwake).fldsAt [(MC_FREQ_CMD, MC_FREQ_CMD_BUSY, 1)]
     s.freqBusy = true ∧ 64 + opLen (.write [1]) ≤ s.dramCap ∧ opLen (.write [1]) ≠ 0) := by decide

/-- The patrol on, at its first line. -/
def patrol (sr : Nat) : State := (oneRank sr).fldsAt [(MC_SR_CFG, MC_SR_CFG_SCRUB, 1)]

theorem witness_PatrolReadsEveryLine :
    let s := patrol srAwake
    s.fld MC_SR_CFG MC_SR_CFG_SCRUB ≠ 0 ∧ s.mc.scrubAt < s.dramCap ∧ s.mc.scrubT0 ≤ s.now ∧ s.anyPanic = false ∧
    ({ s with mc := { s.mc with scrubT0 := 1 } }).now < 1 ∧ s.mustWait (s.homeChan 0 false) 0 64 false = false ∧ s.linePoisoned 0 = false ∧
      s.lineRanks (s.homeChan 0 false) 0 false = [(0, 0)] ∧
      (patrol srInSr).mustWait ((patrol srInSr).homeChan 0 false) 0 64 false = true ∧
      eccClass (s.fld MC_CFG MC_CFG_DEV == 1) [0] = .corrected ∧
      eccClass (s.fld MC_CFG MC_CFG_DEV == 1) [0, 4] = .detected ∧
      (s.countEvent (winKey 0x13C1 (rankIx 0 0)) 32 ticksHour).1 = false ∧ (s.dramPlace 0).chans.length = 1 ∧
      (s.fldsAt [(MC_RK_STAT 0 0, MC_RK_STAT_LASTING, 1)]).rankLasting 0 0 = true := by decide

theorem witness_SelfRefreshPanicAndSideband :
    (let s := (oneRank srAwake).fldsAt [(MC_SR_CFG, MC_SR_CFG_EN, 1), (MC_SR_CFG, MC_SR_CFG_ALL, 1)]
     s.srOf 0 0 = srAwake ∧ s.mayEnterSr 0 0 = true) ∧
    ((oneRank srAwake).fldsAt [(MC_SR_CFG, MC_SR_CFG_EN, 0)]).mayEnterSr 0 0 = false ∧
    (oneRank srDrain).srOf 0 0 = srDrain ∧ (oneRank srIssue).srOf 0 0 = srIssue ∧
    (oneRank srExit).srOf 0 0 = srExit ∧ ((oneRank srExit).rankAt 0).exitAt ≤ (oneRank srExit).now ∧
    (oneRank srExit).now < (RankSt.mk 0 0 0 [] true 0 1 []).exitAt ∧ (oneRank srExit).mc.waiting = [] ∧
    (oneRank srAwake).bit (MC_SB 0) MC_SB_BUSY = false ∧
    ((oneRank srAwake).fldsAt [(MC_SB 0, MC_SB_BUSY, 1)]).bit (MC_SB 0) MC_SB_BUSY = true := by decide

theorem witness_MigrationMovesALogicalRank :
    let s := (oneRank srAwake).fldsAt [(MC_RK_STAT 0 1, MC_RK_STAT_ROLE, roleSpare)]
    s.physRank 0 (fldGet MC_MIG_CMD_LRANK 0) = some 0 ∧ s.freeSpare 0 = some 1 ∧ (s.chanAt 0).mig = none ∧
    s.srOf 0 0 = srAwake ∧ s.srOf 0 1 = srAwake ∧ s.st.tests.get none (rankUnit 0 1) = none ∧
    (oneRank srAwake).freeSpare 0 = none ∧
    (({ s with mc := { s.mc with chans := [(0, { ChanSt.reset with
        mig := some { src := 0, dst := 1, copied := s.rankBytes } })] } }).chanAt 0).mig =
      some { src := 0, dst := 1, copied := s.rankBytes } ∧ s.rankQuiet 0 0 = true ∧ s.rankQuiet 0 1 = true ∧
    s.rankBytes - 1 < s.rankBytes ∧
    (s.countEvent (winKey 0x13C2 0) 8 ticksSec).1 = false := by decide

/-- R288, the worked example: address 0x0001_2345_67C0 with eight channels, of which channels 0 to 3 are
mirrored, and three of four ranks active, lies on channels 2 and 3. -/
theorem test_worked_dram_address :
    let s := permissive.fldsAt [(MC_CFG, MC_CFG_ENABLE, 1), (MC_CFG, MC_CFG_NCHLOG, 3),
      (MC_CFG, MC_CFG_NRK_M1, 3), (MC_CFG, MC_CFG_SPARE, 1), (MC_CFG, MC_CFG_MIRROR, 3)]
    s.dramPlace 0x0001234567C0 =
      { chans := [2, 3], rank := 0, sub := 1, bg := 5, bank := 3, row := 0x1234, col := 688, off := 0x91A2B3C0 } := by decide

/-- The clauses on ranks under test, waits and self-refresh. -/
theorem witness_PopulationAndFrequency_ranks :
    (oneRank srAwake).installed 0 0 = true ∧ (oneRank srAwake).unit (rankUnit 0 0) ≠ 1 ∧
    (oneRank srAwake).dramLoad = 0 := by decide

theorem witness_PatrolReadsEveryLine_buffer :
    (patrol srAwake).buffered ((patrol srAwake).homeChan 0 false) 0 = false ∧
    (patrol srAwake).mustWait ((patrol srAwake).homeChan (64 * (0 / 64)) true) (64 * (0 / 64)) 64 true = false := by
  decide

theorem witness_SelfRefreshPanicAndSideband_waits :
    ((oneRank srAwake).fldsAt [(ST_USTAT (rankUnit 0 0), ST_USTAT_STATE, 1)]).unit (rankUnit 0 0) = 1 ∧
    (oneRank srAwake).unit (rankUnit 0 0) ≠ 1 ∧ (oneRank srExit).freqBusy = false ∧ (oneRank srExit).dramLoad = 0 ∧
    ((oneRank srExit).fldsAt [(MC_FREQ_CMD, MC_FREQ_CMD_BUSY, 1)]).freqBusy = true := by decide

/-- A migration from rank 0 to the spare rank 1 of channel 0, so far. -/
def migrating (sr copied : Nat) : State :=
  let s := (oneRank srAwake).fldsAt
    [(MC_RK_STAT 0 1, MC_RK_STAT_ROLE, roleSpare), (MC_RK_STAT 0 1, MC_RK_STAT_SR, sr)]
  { s with mc := { s.mc with chans := [(0, { ChanSt.reset with
      mig := some { src := 0, dst := 1, copied := copied } })] } }

theorem witness_MigrationMovesALogicalRank_waits :
    ((migrating srAwake 0).chanAt 0).mig.isSome = true ∧ 0 < (migrating srAwake 0).rankBytes ∧
    (migrating srAwake 0).mirPairs.contains 0 = false ∧ ((migrating srAwake 0).chanAt 0).parity.length < 7 ∧
    (let s := (oneRank srAwake).fldsAt
        [(MC_RK_STAT 0 1, MC_RK_STAT_ROLE, roleSpare), (MC_RK_STAT 0 1, MC_RK_STAT_SR, srInSr)]
     s.srOf 0 1 = srInSr ∧ s.freqBusy = false ∧ s.freeSpare 0 = some 1 ∧ (s.chanAt 0).mig = none) ∧
    (let s := oneRank srAwake
     let s := { s with mc := { s.mc with chans := [(0, { ChanSt.reset with
        wbuf := [{ line := 0, port := 4, src := 0, hint := .keep, since := 0 }] })] } }
     s.rankQuiet 0 0 = false) := by decide

/-! ### Host interface, DMA and check values -/

/-- A host read of DRAM whose rank is in self-refresh. -/
def hostReads : HostAcc := .read .bar4 0 64 64

theorem witness_HostWindowsReachMemoryAndRegisters :
    permissive.hi.queue = [] ∧
    (let s := oneRank srAwake
     s.permitsAll .host (s.barAddr .bar4 64) 64 true = true ∧ hostBytes s (s.barAddr .bar4 64) 64 ∧
      s.hostStall .bar4 (s.barAddr .bar4 64) 64 true = none ∧
      s.hostStall .bar4 (s.barAddr .bar4 64) 64 false = none ∧ s.poisoned (s.barAddr .bar4 64) 64 = false ∧
      ({ s with poison := [(1, true)] }).poisoned (s.barAddr .bar4 64) 64 = true ∧
      ({ s with poison := [(1, true)] }).hostStall .bar4 (s.barAddr .bar4 64) 64 false = none) ∧
    (let s := oneRank srInSr
     (s.hostStall .bar4 (s.barAddr .bar4 64) 64 true).isSome = true ∧
      (s.hostStall .bar4 (s.barAddr .bar4 64) 64 false).isSome = true) ∧
    State.reset.permits .host (regAddr 4) true = false ∧
    (let a := permissive.barAddr .bar2 0x08000000
     permissive.permitsAll .host a 64 true = true ∧ permissive.permitsAll .host a 64 false = true ∧
      permissive.poisoned a 64 = false ∧ plainSram permissive a 64) ∧
    State.reset.permitsAll .host 0x100008000000 4 true = false ∧
    State.reset.permitsAll .host 0x100008000000 4 false = false ∧ (0x301000 : BitVec 36).toNat % 4 = 0 ∧
    permissive.permits .host (regAddr (0x301000 % 2 ^ 26)) false = true ∧ bar0Kind 2 4 = false ∧
    bar0Kind 4 8 = false ∧ bar0Kind 8 8 = true := by
  simp only [plainSram, hostBytes, State.plainMem]; decide

theorem witness_HostTransactionsKeepTheirOrder :
    let s := { oneRank srInSr with hi := { (oneRank srInSr).hi with queue := [hostReads] } }
    s.hi.queue = [hostReads] ∧ (s.hostDo hostReads).1 = false := by decide

theorem witness_DoorbellsAndHostResets :
    let up := permissive.fldsAt [(HI_LINK_STAT, HI_LINK_STAT_UP, 1)]
    let high := fun (s : State) => { s with boot := { s.boot with perst := true } }
    (∀ n, n < 32 → permissive.chState n ≠ chRun) ∧ up.linkUp = true ∧ permissive.linkUp = false ∧
    (high permissive).boot.perst = true ∧
    ((high permissive).fldsAt [(PROT_LOCK, PROT_LOCK_LOCK, 1)]).bit PROT_LOCK PROT_LOCK_LOCK = true ∧
    (1 ≤ (5 : BitVec 4).toNat ∧ (5 : BitVec 4).toNat ≤ 5 ∧ (8 : BitVec 4).toNat ∈ [1, 2, 4, 8]) ∧
    permissive.boot.perst = false := by decide

/-- Channel 0 in a state with its own state, its descriptor in shared memory. -/
def chan0 (st : Nat) (x : DmaCh) (mem : List Host.Cell) : State :=
  { (permissive.fldsAt [(CH_STAT 0, CH_STAT_STATE, st), (ST_USTAT 224, ST_USTAT_STATE, 0)]).regsAt
      [(CH_TAIL_LO 0, 0x08000000), (CH_TAIL_HI 0, 0x1000)] with dma := [(0, x)], mem := mem }

/-- A descriptor that copies 32 bytes within shared memory. -/
def copies : DmaDesc :=
  { src := 0x100008000200, dst := 0x100008000400, slen := 32, sstride := 0, scnt := 1, dlen := 32, dstride := 0,
    dcnt := 1, irq := true, rbk := false, ns := false, hint := 0, fill := false, cven := false, cvu := 0 }

/-- Its bytes, from the table of R330. -/
def copiesBytes : List Host.Cell :=
  memStore [] 0x100008000000 (leBytes 8 0x100008000200 ++ leBytes 8 0x100008000400 ++ leBytes 4 31 ++
    leBytes 4 0 ++ leBytes 4 0 ++ leBytes 4 31 ++ leBytes 4 0 ++ leBytes 4 0 ++ leBytes 4 1)

theorem witness_ChannelsStartAndArePoked :
    (let s := chan0 chIdle { DmaCh.reset with fetched := true } []
     s.chState 0 = chIdle ∧ s.unit 224 = 0 ∧ (s.dmaAt 0).fetched = true ∧ s.unit 224 ≠ 1) ∧
    ((chan0 chRun DmaCh.reset []).chState 0 ≠ chIdle ∧ (chan0 chRun DmaCh.reset []).chState 0 ≠ chError) ∧
    ((chan0 chIdle DmaCh.reset []).fldsAt [(ST_USTAT 224, ST_USTAT_STATE, 2)]).unit 224 = 2 ∧
    ((chan0 chIdle DmaCh.reset []).dmaAt 0).fetched = false := by decide

theorem witness_DescriptorsRunToTheirEnd :
    (let s := chan0 chFetch DmaCh.reset copiesBytes
     let T := s.chTail 0
     (s.dmaAt 0).result ≠ 5 ∧ s.chState 0 = chFetch ∧ T % 64 = 0 ∧ s.permits (.dma 0) T false = true ∧
      plainSram s T 64 ∧ s.poisoned T 64 = false ∧ dmaParse (leNat (s.loadBytes T 64)) = some copies ∧
      copies.cven = false ∧ (s.dmaAt 0).desc = none ∧ s.readsHost 0 = false) ∧
    (let s := chan0 chFetch DmaCh.reset []
     dmaParse (leNat (s.loadBytes (s.chTail 0) 64)) = some { copies with
       src := 0, dst := 0, slen := 1, dlen := 1, irq := false }) ∧
    dmaParse (leNat (List.replicate 8 0xFF)) = none ∧
    (let s := chan0 chRun { DmaCh.reset with desc := some copies, raw := some copies, fetched := true }
      copiesBytes
     let T := s.chTail 0
     s.chState 0 = chRun ∧ (s.dmaAt 0).desc = some copies ∧ (s.dmaAt 0).raw = some copies ∧
      dmaFields (leNat (s.viewBytes T 64)) = copies ∧ (s.dmaAt 0).owns = false ∧
      (s.dmaAt 0).moved = 0 ∧ copies.overlaps = false ∧
      0 < copies.total ∧ copies.chunk 0 = copies.total ∧ s.permits (.dma 0) (T + 0x38) true = true ∧
      plainSram s (T + 0x38) 8 ∧ s.permits (.dma 0) (copies.dstAt 0) true = true ∧
      plainSram s (copies.dstAt 0) copies.total ∧ s.permits (.dma 0) (copies.srcAt 0) false = true ∧
      plainSram s (copies.srcAt 0) copies.total ∧ s.poisoned (copies.srcAt 0) copies.total = false ∧
      T + 0x40 ≤ copies.dstAt 0) ∧
    (let s := chan0 chStatus { DmaCh.reset with desc := some { copies with rbk := true }, moved := 32 } []
     let last := copies.dstAt (copies.total - 1) / 64 * 64
     s.chState 0 = chStatus ∧ (s.dmaAt 0).moved < 2 ^ 32 ∧ (s.dmaAt 0).owns = false ∧
      s.permits (.dma 0) last false = true ∧ plainSram s last 64 ∧ s.poisoned last 64 = false) ∧
    (narrow.permits (.dma 0) 0x100008000038 true = false) ∧
    ((oneRank srInSr).dramStall 5 0 64 64 false).isSome = true ∧
    ((chan0 chFetch DmaCh.reset []).regsAt [(CH_TAIL_HI 0, 0x9000)]).readsHost 0 = true ∧
    (chan0 chIdle DmaCh.reset []).chState 0 = chIdle := by
  simp only [plainSram]
  refine ⟨?_, ?_, ?_, ?_, ?_⟩ <;> decide +kernel

theorem witness_StoppedDescriptorsAreAborted :
    let s := fun st => chan0 st { DmaCh.reset with result := 5 } []
    (∀ st, st < 6 → ((s st).dmaAt 0).result = 5 ∧ (s st).chState 0 = st) ∧ chFetch < 6 ∧ chRun < 6 ∧
    chStatus < 6 ∧ chEndchk < 6 ∧ (s chRun).permits (.dma 0) ((s chRun).chTail 0 + 0x38) true = true ∧
    plainSram (s chRun) ((s chRun).chTail 0 + 0x38) 8 := by simp only [plainSram]; decide

theorem witness_EndChecksChainOrIdle :
    let s := chan0 chEndchk DmaCh.reset copiesBytes
    s.chState 0 = chEndchk ∧ (s.dmaAt 0).result ≠ 5 ∧ s.chTail 0 % 64 = 0 ∧
    s.permits (.dma 0) (s.chTail 0 + 0x30) false = true ∧ plainSram s (s.chTail 0 + 0x30) 8 ∧
    s.poisoned (s.chTail 0 + 0x30) 8 = false := by simp only [plainSram]; decide

theorem witness_CheckValuesAreFormed :
    permissive.st.tests.get none 216 = none ∧ permissive.bit (CV_STAT 0) CV_STAT_DMAOWN = false ∧
    (permissive.fldsAt [(CV_STAT 0, CV_STAT_DMAOWN, 1)]).bit (CV_STAT 0) CV_STAT_DMAOWN = true ∧
    (∀ m, m < 3 → (permissive.fldsAt [(CV_CFG 0, CV_CFG_MODE, m)]).fld (CV_CFG 0) CV_CFG_MODE = m) ∧
    (let s := permissive.fldsAt [(CV_CFG 0, CV_CFG_CMP, 1)]
     s.bit (CV_CFG 0) CV_CFG_CMP = true) := by decide

/-- The check values of "123456789" that the polynomials of R337 are known by. -/
theorem test_check_values :
    let bytes : List Byte := [0x31, 0x32, 0x33, 0x34, 0x35, 0x36, 0x37, 0x38, 0x39]
    let value := fun p => (cvPoly p).result ((cvPoly p).bytes ((cvPoly p).seed (cvPoly p).init) bytes)
    value 0 = 0xE3069283 ∧ value 1 = 0xCBF43926 ∧ value 2 = 0x29B1 ∧ value 3 = 0xDF ∧
    (crc32c bytes).toNat = 0xE3069283 := by decide

theorem witness_HostWindowsReachMemoryAndRegisters_denied :
    State.reset.permits .host (regAddr 2) true = false ∧ bar0Kind 2 4 = false ∧
    (let s := { oneRank srAwake with poison := [(1, true)] }
     1 ∈ linesOf 64 64 ∧ s.linePoisoned 1 = true ∧ s.region (64 * 1) = .dram) := by decide

/-- The clauses on data that is still on its way, and on boundaries. -/
theorem witness_DescriptorsRunToTheirEnd_flight :
    ((chan0 chFetch DmaCh.reset copiesBytes).dmaAt 0).flight = [] ∧
    (let x : DmaCh := { DmaCh.reset with desc := some { copies with rbk := true }, moved := 32 }
     let s := chan0 chStatus { x with flight := [(0x100008000400, [1, 2])] } []
     (s.dmaAt 0).flight = [(0x100008000400, [1, 2])] ∧ plainSram s 0x100008000400 2 ∧
      s.chTail 0 + 0x40 ≤ 0x100008000400) ∧
    (let s := (oneRank srInSr).fldsAt [(CH_STAT 0, CH_STAT_STATE, chFetch)]
     s.chState 0 = chFetch ∧ s.permits (.dma 0) (s.chTail 0) false = true ∧
      ((s.dmaLand 0 fun _ b => decide (b / 64 = s.chTail 0 / 64)).dramStall 5 0 (s.chTail 0) 64 false).isSome =
        true) := by
  simp only [plainSram]; decide

theorem witness_DescriptorsRunToTheirEnd_abort :
    (chan0 chFetch DmaCh.reset []).dmaAtBoundary 0 = true ∧
    (let x : DmaCh := { DmaCh.reset with desc := some { copies with cven := true }, moved := 3 }
     let s := chan0 chRun { x with raw := some { copies with cven := true }, fetched := true, result := 5 } []
     s.dmaAtBoundary 0 = false ∧ s.chState 0 ≠ chIdle ∧ s.chState 0 ≠ chError ∧ (s.dmaAt 0).result = 5) ∧
    (let s := chan0 chRun { DmaCh.reset with desc := some copies, raw := some copies, fetched := true } []
     s.dmaAtBoundary 0 = true) := by decide

/-! ### Motion, encoders and loops -/

/-- Axis 0 in a state code, with its own state. -/
def axis0 (st : Nat) (x : AxSt) : State :=
  { permissive.fldsAt [(AX_STAT 0, AX_STAT_STATE, st)] with mx := [(0, x)] }

/-- Axis 0 with the line clock as its master. -/
def fed : State :=
  let s := (slot0 5 0 0).fldsAt [(LC_CTRL, LC_CTRL_SRC, 2), (LC_CTRL, LC_CTRL_UNIT, 0)]
  { s with lc := { s.lc with src := 2, unit := 0 } }

theorem witness_AxisCommandsStartOrAreRefused :
    (axis0 0 AxSt.reset).lcFeeds 0 = false ∧ fed.lcFeeds 0 = true ∧ (axis0 0 AxSt.reset).axState 0 = 0 ∧
    (axis0 5 AxSt.reset).axState 0 = 5 ∧ (axis0 0 AxSt.reset).towardTrip 0 0 = false ∧
    (let s := (axis0 0 AxSt.reset).fldsAt [(AX_FLAG 0, AX_FLAG_TRIP_P, 1)]
     s.towardTrip 0 1 = true ∧ s.towardTrip 0 (-1) = false) ∧
    (let s := fed.fldsAt [(AX_STAT 0, AX_STAT_STATE, 5)]
     s.axState 0 = 5 ∧ fed.axState 0 ≠ 5) ∧
    ((axis0 0 AxSt.reset).fldsAt [(AX_FLAG 0, AX_FLAG_TRIP_P, 1), (AX_FLAG 0, AX_FLAG_TRIP_N, 1)]).tripped 0
      ((axis0 0 AxSt.reset).homePositive 0) = true ∧
    segGoal ((axis0 0 AxSt.reset).segWords 0 0) 0 - 0 = 0 ∧
    (axis0 0 AxSt.reset).tripped 0 ((axis0 0 AxSt.reset).homePositive 0) = false ∧
    ((axis0 0 AxSt.reset).fldsAt [(AX_HOME 0, AX_HOME_HREF, 0), (AX_STAT 0, AX_STAT_HOMEIN, 1)]).homeActive 0 =
      true := by decide

theorem witness_RunsAndHomingEnd :
    let seg : SegRun := { entry := 63, words := [100, 5, 0, 1], t := 100, p0 := 0, v0 := 0 }
    (let s := axis0 1 { AxSt.reset with run := .arrived }
     (s.axAt 0).run = .arrived ∧ s.axState 0 ≠ 5 ∧ s.lcFeeds 0 = false) ∧
    ((axis0 0 AxSt.reset).axAt 0).run ≠ .arrived ∧
    ((axis0 3 { AxSt.reset with run := .segments seg }).axAt 0).run = .segments seg ∧
    ({ seg with t := 99 } : SegRun).t < segT seg.words ∧ segV1 [100, 5, 1, 1] ≠ 0 ∧ segT seg.words ≤ seg.t ∧
    (seg.words.getD 3 0).testBit 0 = true ∧ segV1 seg.words = 0 ∧ ([100, 5, 0, 0].getD 3 0).testBit 0 = false ∧
    ((axis0 5 AxSt.reset).fldsAt [(AX_STAT 0, AX_STAT_HSTEP, 1)]).homeAt 0 1 = true ∧
    (axis0 0 AxSt.reset).homeAt 0 1 = false ∧
    (let s := (axis0 5 { AxSt.reset with run := .arrived }).fldsAt [(AX_STAT 0, AX_STAT_HSTEP, 3)]
     s.homeAt 0 3 = true ∧ (s.axAt 0).run = .arrived) := by decide

theorem witness_SwitchesFramesAndStandstill :
    (let s := (axis0 1 { AxSt.reset with v := 5 }).fldsAt [(AX_LIM 0, AX_LIM_EN, 1)]
     s.bit (AX_STAT 0) (swBit .pos) = false ∧ (s.axAt 0).relAt.get none (swIx .pos) = none ∧ s.axState 0 ≠ 5 ∧
      s.lcFeeds 0 = false ∧ s.bit (AX_LIM 0) AX_LIM_EN = true) ∧
    (axis0 0 AxSt.reset).axState 0 = 0 ∧ ((axis0 0 AxSt.reset).axAt 0).v = 0 ∧
    ((axis0 0 AxSt.reset).fldsAt [(AX_LIM 0, AX_LIM_EN, 0)]).bit (AX_LIM 0) AX_LIM_EN = false ∧
    ((axis0 0 AxSt.reset).fldsAt [(AX_STAT 0, swBit .home, 1)]).bit (AX_STAT 0) (swBit .home) = true ∧
    (let s := (axis0 0 { AxSt.reset with relAt := [(swIx .pos, some 0)] }).fldsAt [(AX_LIM 0, AX_LIM_REL, 1)]
     (s.axAt 0).relAt.get none (swIx .pos) = some 0 ∧ s.now < 0 + s.fld (AX_LIM 0) AX_LIM_REL * 1000 ∧
      (s.countEvent (winKey 0x14C3 (3 * 0 + swIx .pos)) 8 (100 * ticksMs)).1 = false) ∧
    (let s := { (axis0 0 { AxSt.reset with frameAt := some 7 }).fldsAt
        [(AX_CFG 0, AX_CFG_EN, 1), (AX_CFG 0, AX_CFG_MODE, 1)] with now := 107 }
     s.bit (AX_CFG 0) AX_CFG_EN = true ∧ s.bit (AX_CFG 0) AX_CFG_MODE = true ∧
      ∀ u, (s.axAt 0).frameAt = some u → u + 100 ≤ s.now) ∧
    (axis0 0 AxSt.reset).bit (AX_CFG 0) AX_CFG_EN = false ∧ (axis0 0 AxSt.reset).stepRecent 0 = false ∧
    ((axis0 0 { AxSt.reset with lastStep := some 0 }).fldsAt [(AX_CFG 0, AX_CFG_HOLDDLY, 1)]).stepRecent 0 =
      true := by
  refine ⟨by decide, by decide, by decide, by decide, by decide, by decide, ⟨by decide, by decide, ?_⟩, by decide,
    by decide, by decide⟩
  rintro u hu
  have h : some 7 = some u := hu
  cases h
  decide

/-- Encoder input 0, enabled, with its own state. -/
def input0 (x : QeSt) : State :=
  { permissive.fldsAt [(QE_CFG 0, QE_CFG_EN, 1)] with qe := [(0, x)], now := 10000000 }

theorem witness_EncodersCount :
    (let s := (input0 QeSt.reset).regsAt [(QE_SOFT_LO 0, 0xFFFFFFF0), (QE_SOFT_HI 0, 5), (QE_COUNT 0, 4)]
     s.qeOn 0 = true ∧ s.lcReads 0 = false ∧ (s.reg (QE_SOFT_LO 0)).toInt ≤ (s.reg (QE_COUNT 0)).toInt ∧
      (s.reg (QE_COUNT 0)).toInt + 1 ≤ (s.reg (QE_SOFT_HI 0)).toInt ∧
      ¬ (s.reg (QE_COUNT 0)).toInt + 2 ≤ (s.reg (QE_SOFT_HI 0)).toInt) ∧
    (let s := (input0 QeSt.reset).regsAt [(QE_SOFT_LO 0, 5), (QE_SOFT_HI 0, 4)]
     s.qeOn 0 = true ∧ s.lcReads 0 = false ∧ (s.reg (QE_SOFT_HI 0)).toInt < (s.reg (QE_SOFT_LO 0)).toInt) ∧
    permissive.qeOn 0 = false ∧ fldGet QE_CFG_EN 1 = 1 ∧ fldGet QE_CFG_EN 0 = 0 := by decide

theorem witness_EncoderChecks :
    (input0 QeSt.reset).qeOn 0 = true ∧ permissive.qeOn 0 = false ∧
    (let s := (((input0 QeSt.reset).countEvent (winKey 0x1501 0) 4 (100 * ticksMs)).2.countEvent
        (winKey 0x1501 0) 4 (100 * ticksMs)).2
     ((s.countEvent (winKey 0x1501 0) 4 (100 * ticksMs)).2.countEvent (winKey 0x1501 0) 4
       (100 * ticksMs)).1 = true) ∧
    (let s := (input0 QeSt.reset).fldsAt [(QE_STAT 0, QE_STAT_WIREZ, 1)]
     s.bit (QE_STAT 0) QE_STAT_WIREZ = true ∧ s.bit (QE_STAT 0) QE_STAT_WIREA = false) ∧
    (input0 QeSt.reset).bit (QE_CFG 0) QE_CFG_ZEN = false ∧
    (let s := ((input0 QeSt.reset).regsAt [(QE_CPR 0, 100)]).fldsAt
        [(QE_CFG 0, QE_CFG_ZEN, 1), (QE_IDXCFG 0, QE_IDXCFG_REFV, 0), (QE_IDXCFG 0, QE_IDXCFG_CAPT, 1)]
     s.bit (QE_CFG 0) QE_CFG_ZEN = true ∧ (∀ a, a < 8 → s.homeAt a 1 = false) ∧ (s.reg (QE_CPR 0)).toNat ≠ 0 ∧
      s.bit (QE_IDXCFG 0) QE_IDXCFG_REFV = false ∧ s.bit (QE_IDXCFG 0) QE_IDXCFG_CAPT = true) ∧
    ((input0 QeSt.reset).countEvent (winKey 0x1501 0) 4 (100 * ticksMs)).1 = false ∧
    (let s := ((input0 QeSt.reset).regsAt [(QE_CPR 0, 100)]).fldsAt
        [(QE_CFG 0, QE_CFG_ZEN, 1), (QE_IDXCFG 0, QE_IDXCFG_REFV, 1), (QE_IDXCFG 0, QE_IDXCFG_REREF, 0)]
     s.bit (QE_CFG 0) QE_CFG_ZEN = true ∧ (∀ a, a < 8 → s.homeAt a 1 = false) ∧ (s.reg (QE_CPR 0)).toNat ≠ 0 ∧
      s.bit (QE_IDXCFG 0) QE_IDXCFG_REFV = true ∧ s.bit (QE_IDXCFG 0) QE_IDXCFG_REREF = false) ∧
    (let s := input0 { QeSt.reset with edges := [7] }
     (s.qeAt 0).edges = [7] ∧ s.lcReads 0 = false ∧
      7 + max 1 (s.fld (QE_SPCFG 0) QE_SPCFG_STILLT) * 1000 ≤ s.now) ∧
    (let s := input0 { QeSt.reset with edges := [10000000] }
     s.now < 10000000 + max 1 (s.fld (QE_SPCFG 0) QE_SPCFG_STILLT) * 1000) := by decide

/-- The loop engine with a state of its own. -/
def looping (x : LeSt) : State :=
  { permissive.fldsAt [(LE_CTRL, LE_CTRL_EN, 1), (LP_CFG 0, LP_CFG_EN, 1)] with le := x, now := 5000 }

theorem witness_LoopsAreAdmittedAndFramed :
    lpOn (fldPut LP_CFG_EN 1 0) = true ∧ lpOn (permissive.reg (LP_CFG 0)) = false ∧
    permissive.bit LE_CTRL LE_CTRL_EN = false ∧ fldGet LE_CTRL_EN (fldPut LE_CTRL_EN 1 0) = 1 ∧
    (looping LeSt.reset).le.running = false ∧
    (let x : LoopSt := { LoopSt.reset with active := true, results := [(2, 9)] }
     let s := looping { LeSt.reset with running := true, nextAt := 4000, frame := 3, loops := [(0, x)] }
     s.le.running = true ∧ s.le.nextAt ≤ s.now ∧ s.bit LE_CTRL LE_CTRL_EN = true ∧
      (s.fldsAt [(LE_CTRL, LE_CTRL_EN, 0)]).bit LE_CTRL LE_CTRL_EN = false ∧ (s.loopAt 0).active = true ∧
      lpOn (s.reg (LP_CFG 0)) = true ∧ s.loopFollows 0 = false ∧ (s.loopAt 0).results = [(2, 9)] ∧
      2 ≤ s.le.frame ∧ s.now - 1001 < s.le.nextAt ∧
      fldGet LE_CTRL_FRAME (fldPut LE_CTRL_FRAME 77 0) ≠ s.fld LE_CTRL LE_CTRL_FRAME) ∧
    State.reset.permits .host (regAddr (LP_Q_F 0)) false = false ∧ permissive.permits .host (regAddr (LP_Q_F 0)) false = true := by decide

/-- One loop of one section fits in the shortest frame; one of 64 sections does not. -/
theorem witness_budget :
    let s := permissive.fldsAt [(LE_CTRL, LE_CTRL_FRAME, 40)]
    let cfgs := fun v : Word => (List.range 32).map fun j => if j = 0 then v else s.reg (LP_CFG j)
    lpOn (fldPut LP_CFG_EN 1 0) = true ∧ budgetFits (cfgs (fldPut LP_CFG_EN 1 0)) s.leFrame = true ∧
    lpOn (fldPut LP_CFG_EN 1 0xFFFFFFFF) = true ∧
    budgetFits (cfgs (fldPut LP_CFG_EN 1 0xFFFFFFFF)) s.leFrame = false := by decide +kernel

theorem witness_SectionStatesAndTrace :
    (0x80000000 : Word).getLsbD 30 = false ∧ (0x40000000 : Word).getLsbD 31 = false ∧
    (let s := permissive.fldsAt [(LE_TRIG, LE_TRIG_ARM, 1), (TR_CFG 3, TR_CFG_EN, 1), (TR_STAT 3, TR_STAT_DONE, 1)]
     s.armed = true ∧ s.le.fired = false ∧
      ((List.range 16).filter fun k => s.bit (TR_CFG k) TR_CFG_EN) = [3] ∧
      s.bit (TR_STAT 3) TR_STAT_DONE = true) ∧ permissive.armed = false := by decide

/-- Levels held, the line clock's own input, and a count in the tick of a write. -/
theorem witness_EncodersCount_held :
    ((input0 { QeSt.reset with held := true, a := true, b := false }).qeAt 0).held = true ∧
    ((input0 QeSt.reset).qeAt 0).held = false ∧
    (let s := (input0 QeSt.reset).regsAt [(QE_SOFT_LO 0, 0), (QE_SOFT_HI 0, 9)]
     let s := { s.fldsAt [(LC_CTRL, LC_CTRL_SRC, 1)] with lc := { s.lc with src := 1, unit := 0 } }
     (s.reg (QE_SOFT_LO 0)).toInt ≤ (s.reg (QE_SOFT_HI 0)).toInt ∧ s.lcReads 0 = true) ∧
    (input0 { QeSt.reset with counted := some (10000000, 2) }).now = 10000000 ∧
    ((input0 { QeSt.reset with counted := some (10000000, 2) }).qeAt 0).counted = some (10000000, 2) ∧
    ((input0 QeSt.reset).qeAt 0).counted = none := by decide

theorem witness_LoopsAreAdmittedAndFramed_stops :
    lpOn ((looping LeSt.reset).reg (LP_CFG 0)) = true ∧ lpOn 0 = false ∧
    (let x : LoopSt := { LoopSt.reset with active := true }
     let s := looping { LeSt.reset with running := true, nextAt := 5000, loops := [(0, x)] }
     s.le.frame = 0 ∧ s.le.nextAt ≤ s.now) ∧
    (let s := (looping { LeSt.reset with running := true }).fldsAt [(LE_CTRL, LE_CTRL_EN, 0)]
     s.bit LE_CTRL LE_CTRL_EN = false ∧ s.le.running = true) := by decide

/-! ### Time, Ethernet and safety -/

theorem witness_TimeIsSetAdjustedAndStamped :
    (1 : Word).getLsbD 0 = true ∧ (2 : Word).getLsbD 0 = false ∧ permissive.tb.set = none ∧
    permissive.tb.adj = none ∧ permissive.tb.ns < 1000000000 ∧ permissive.tb.fr < 2 ^ 32 ∧
    permissive.tb.xsNext ≤ permissive.tb.xsNext ∧
    ({ permissive with tb := { permissive.tb with xsNext := 1 } }).now < 1 := by decide

theorem witness_ReadsLatchTheirSets :
    (∀ off ∈ [TB_NOW_FRAC, TB_FLAT_LO, TB_XS_STAT, LC_POS_F, LC_HWM_LO],
      permissive.permits .host (regAddr off) false = true) ∧
    (∀ off ∈ [TB_NOW_FRAC, TB_FLAT_LO, TB_XS_STAT, LC_POS_F, LC_HWM_LO],
      State.reset.permits .host (regAddr off) false = false) := by decide

/-- Compare 0 and pulse 0 enabled, the flat time at 1000 ns. -/
def timed (active : Nat) : State :=
  let s := permissive.fldsAt [(TB_CMP_CTL 0, TB_CMP_CTL_EN, 1), (TP_CFG 0, TP_CFG_EN, 1),
    (TP_CFG 0, TP_CFG_ACTIVE, active)]
  { s with tb := { s.tb with ns := 1000 } }

theorem witness_ComparesAndPulses :
    (let s := (timed 0).regsAt [(TB_CMP_LO 0, 1000)]
     (s.bit (TB_CMP_CTL 0) TB_CMP_CTL_EN && !s.tb.cmpNew.contains 0 && decide ((s.flat + 2 ^ 64 -
        s.reg64 (TB_CMP_LO 0) (TB_CMP_HI 0) % 2 ^ 64) % 2 ^ 64 < 2 ^ 63)) = true) ∧
    (let s := (timed 0).regsAt [(TB_CMP_LO 0, 1001)]
     (s.bit (TB_CMP_CTL 0) TB_CMP_CTL_EN && decide ((s.flat + 2 ^ 64 -
        s.reg64 (TB_CMP_LO 0) (TB_CMP_HI 0) % 2 ^ 64) % 2 ^ 64 < 2 ^ 63)) = false) ∧
    (timed 0).bit (TP_CFG 0) TP_CFG_EN = true ∧ (timed 0).bit (TP_CFG 0) TP_CFG_ACTIVE = false ∧
    cmpSucceeds (timed 0).flat ((timed 0).tpTarget 0) = true ∧ permissive.bit (TP_CFG 0) TP_CFG_EN = false ∧
    (timed 1).bit (TP_CFG 0) TP_CFG_ACTIVE = true ∧
    cmpSucceeds (timed 1).flat ((timed 1).tpAt 0).endAt = true := by decide

/-- Port 0 enabled, with rings of four descriptors in shared memory that name a buffer of 256 bytes. -/
def network (head : Word) : State :=
  { (permissive.fldsAt [(EN_CFG 0, EN_CFG_EN, 1), (EN_CFG 0, EN_CFG_MAXLEN, 1522)]).regsAt
      [(EN_RX_BASE 0, 0x8000000), (EN_RX_CNT 0, 4), (EN_RX_HEAD 0, head), (EN_RX_TAIL 0, 3),
       (EN_TX_BASE 0, 0x8000000), (EN_TX_CNT 0, 4), (EN_TX_HEAD 0, head), (EN_TX_TAIL 0, 3)] with
    mem := memStore [] 0x100008000000 (leBytes 4 0x8000100 ++ leBytes 4 60) }

/-- A broadcast frame of 60 bytes. -/
def broadcast : RxFrame := { bytes := List.replicate 60 0xFF, fcsOk := true, phase := 3 }

theorem witness_FramesPassTheRings :
    (let s := network 0
     let d := s.enDesc (EN_RX_BASE 0) (s.reg (EN_RX_HEAD 0)).toNat
     let buf := SRAM_BASE + s.loadNat d 4
     let n := min (s.loadNat (d + 4) 2) broadcast.bytes.length
     s.bit (EN_CFG 0) EN_CFG_EN = true ∧ broadcast.fcsOk = true ∧ 64 ≤ broadcast.bytes.length + 4 ∧
      broadcast.bytes.length + 4 ≤ s.enMaxLen 0 ∧
      frame16 broadcast.bytes (etherTypeAt broadcast.bytes) ≠ 0x8808 ∧ s.enAccepts 0 broadcast.bytes = true ∧
      s.reg (EN_RX_HEAD 0) ≠ s.reg (EN_RX_TAIL 0) ∧ ptpEvent broadcast.bytes = false ∧
      (∀ w, s.permits (.en 0) d w = true ∧ s.permits (.en 0) (d + 15) w = true) ∧
      s.permits (.en 0) buf true = true ∧ s.permits (.en 0) (buf + n - 1) true = true ∧ 0 < n ∧
      plainSram s d 16 ∧ plainSram s buf n ∧ d + 16 ≤ buf) ∧
    (network 3).reg (EN_RX_HEAD 0) = (network 3).reg (EN_RX_TAIL 0) ∧
    permissive.bit (EN_CFG 0) EN_CFG_EN = false ∧
    (let s := network 0
     let d := s.enDesc (EN_TX_BASE 0) (s.reg (EN_TX_HEAD 0)).toNat
     s.reg (EN_TX_HEAD 0) ≠ s.reg (EN_TX_TAIL 0) ∧ s.loadNat (d + 4) 2 = 60 ∧ s.loadNat (d + 8) 1 % 8 = 0 ∧
      (∀ w, s.permits (.en 0) d w = true ∧ s.permits (.en 0) (d + 15) w = true) ∧
      s.permits (.en 0) (SRAM_BASE + s.loadNat d 4) false = true ∧
      s.permits (.en 0) (SRAM_BASE + s.loadNat d 4 + 60 - 1) false = true ∧ plainSram s d 16 ∧
      plainSram s (SRAM_BASE + s.loadNat d 4) 60) ∧
    frame16 (List.replicate 12 0xFF ++ [0x88, 0x08] ++ List.replicate 46 0) 12 = 0x8808 ∧
    ptpEvent (List.replicate 12 0xFF ++ [0x88, 0xF7] ++ List.replicate 46 0) = true ∧
    (network 0).enAccepts 0 (2 :: List.replicate 59 0) = false ∧
    (network 0).rbit EN_EVT 2 = false ∧ ((network 0).regsAt [(EN_EVT, 4)]).rbit EN_EVT 2 = true ∧
    permissive.bit (EN_STAT 0) EN_STAT_LINK = false := by
  simp only [plainSram]
  refine ⟨?_, ?_, ?_, ?_, ?_⟩ <;> decide

/-- The safety island with a state of its own. -/
def island (x : SiSt) (now : Nat) : State := { permissive with si := x, now := now }

/-- The island with the safe-request input seen inactive. -/
def quiet (x : SiSt) (now : Nat) : State :=
  { island x now with fs := { permissive.fs with gateSeen := [(16, true)] } }

/-- The island as it runs, its watchdog and enable calls taken at tick 1000. -/
def sagOn : SiSt := { SiSt.reset with running := true, enable := true, wdgTime := 1000, enbTime := 1000 }

theorem witness_WatchdogAndDynamicEnable :
    (let s := island sagOn 1000
     s.si.running = true ∧ s.si.wdgTrip = false ∧ s.si.wdgLast ≠ some (decide ((0xA5 : Nat) = 0x5A)) ∧
      s.now - s.si.wdgTime ≤ 150000 ∧ s.si.wdgLast = none) ∧
    (let s := island { sagOn with wdgLast := some false } 51000
     s.si.wdgLast ≠ some (decide ((0x5A : Nat) = 0x5A)) ∧ 50000 ≤ s.now - s.si.wdgTime) ∧
    (let s := island { sagOn with wdgLast := some false } 50999
     ¬ 50000 ≤ s.now - s.si.wdgTime) ∧
    sagOn.wdgTime + 150000 ≤ (island sagOn 151000).now ∧ permissive.si.running = false ∧
    (island sagOn 3000).enbCalled = true ∧ (island sagOn 3000).now ≤ sagOn.enbTime + 2000 ∧
    sagOn.enbTime + 2000 ≤ (island sagOn 3000).now ∧ (island sagOn 2999).now < sagOn.enbTime + 2000 ∧
    sagOn.enbTime + 2000 < (island sagOn 3001).now ∧
    (island { sagOn with wdgTrip := true } 0).si.wdgTrip = true ∧ permissive.enbCalled = false := by decide

/-- A dangerous fault of the Sagger. -/
def danger : FaultIn := { code := 0x34C6, inst := 1, info := 0, lasting := false, safe := true }

theorem witness_TheSafeStateIsEnteredAndLeft :
    (island { sagOn with danger := [danger] } 0).si.danger = [danger] ∧ codeBlk danger.code = 19 ∧
    permissive.bit SI_STAT SI_STAT_SAFE = false ∧ (∀ f ∈ [danger], codeBlk f.code ≠ 0) ∧
    (permissive.regsAt [(SI_AXACT, 0x5555)]).reg SI_AXACT = 0x5555 ∧
    (permissive.fldsAt [(SI_STAT, SI_STAT_SAFE, 1)]).bit SI_STAT SI_STAT_SAFE = true ∧
    (island { sagOn with lasting := true } 0).si.lasting = true ∧ (island sagOn 0).si.lasting = false ∧
    (island sagOn 0).si.open_ = [] ∧
    (let s := island { sagOn with rearm := .release, rearmAt := 1000 } 1000
     s.si.rearm = .release ∧ s.now < s.si.rearmAt + s.rearmTicks) ∧
    (let s := quiet { sagOn with rearm := .release, rearmAt := 1000 } 100000000000
     s.si.rearmAt + s.rearmTicks ≤ s.now ∧ s.si.since + s.rearmTicks ≤ s.now ∧
     s.bit SI_STAT SI_STAT_INHIBIT = false ∧ s.inhibitNow = false) ∧
    (let s := quiet sagOn 100000000000
     s.si.running = true ∧ s.si.armed = false ∧ s.si.rearm = .none ∧ s.si.danger = [] ∧
      s.si.since + s.rearmTicks ≤ s.now) ∧
    (let s := quiet { sagOn with rearm := .inhibit, since := 1000 } 100000000000
     s.si.rearm = .inhibit ∧ s.si.since + s.rearmTicks ≤ s.now ∧ s.inhibitNow = false ∧
      s.bit SI_STAT SI_STAT_INHIBIT = false ∧ 1000 < s.si.since + s.rearmTicks) ∧
    (∃ f ∈ [danger], lastingCode f.code = true ∨ eventCleared f.code = true) ∧
    (∀ f ∈ (island sagOn 0).si.danger, codeBlk f.code ≠ 19) ∧ eventCleared 0x3241 = false ∧
    (island { sagOn with armed := true } 0).si.armed = true := by decide

theorem witness_RedundancyAndLatentChecks :
    permissive.fld SI_STAT SI_STAT_OUT = 0 ∧
    (let s := ((permissive.countEvent (winKey 0x1081 0) 3 ticksHour).2.countEvent (winKey 0x1081 0) 3
        ticksHour).2
     s.fld SI_STAT SI_STAT_OUT = 0 ∧ (s.countEvent (winKey 0x1081 0) 3 ticksHour).1 = true) ∧
    (permissive.fldsAt [(SI_STAT, SI_STAT_OUT, 1)]).fld SI_STAT SI_STAT_OUT ≠ 0 ∧
    permissive.si.resync = none ∧ sagOn.pairHeld = false ∧
    sagOn.resyncAt + resyncTicks ≤ (island { sagOn with resync := some 0 } resyncTicks).now ∧
    (island { sagOn with resync := some 0 } (resyncTicks - 1)).now < sagOn.resyncAt + resyncTicks ∧
    (permissive.fld SI_PAIR SI_PAIR_PAIR).testBit 0 = false ∧ permissive.si.winSent.get none 0 = none ∧
    (permissive.countEvent (winKey 0x1081 0) 3 ticksHour).1 = false ∧
    (island { sagOn with resync := some 0 } 0).si.resync = some 0 ∧
    (permissive.fldsAt [(SI_STAT, SI_STAT_TWO, 1)]).bit SI_STAT SI_STAT_TWO = true ∧
    permissive.bit SI_STAT SI_STAT_TWO = false ∧
    (permissive.fldsAt [(PROT_LOCK, PROT_LOCK_LOCK, 1)]).bit PROT_LOCK PROT_LOCK_LOCK = true ∧
    (let s := permissive.fldsAt [(SI_PAIR, SI_PAIR_PAIR, 1)]
     let s := { s with fs := { s.fs with gateSeen := [(0, true), (1, true)] } }
     (s.fld SI_PAIR SI_PAIR_PAIR).testBit 0 = true ∧ s.fs.gateSeen.get false 0 = true ∧
      s.fs.gateSeen.get false 1 = true ∧ s.rbit GATE_STAT 0 = s.rbit GATE_STAT 1 ∧
      (s.regsAt [(GATE_STAT, 1)]).rbit GATE_STAT 0 ≠ (s.regsAt [(GATE_STAT, 1)]).rbit GATE_STAT 1 ∧
      s.now ≤ s.si.pairAt.get 0 0 + s.pairTicks ∧
      0 + s.pairTicks < ({ s with now := s.pairTicks + 1 }).now) ∧
    (let w : JobWin := { slot := 0, lo := 64, hi := 128 }
     (island { sagOn with winSent := [(0, some w)] } 0).si.winSent.get none 0 = some w ∧ w.lo < w.hi) := by
  decide

/-- A setup of all zeros does not match a CRC of zero. -/
theorem witness_prot_crc : crc32c permissive.protSetup ≠ permissive.reg PROT_CRC := by decide +kernel

theorem witness_FaultsAreCollectedAndHeartbeatsChecked :
    let r : FaultRec := { code := 0x34C6, inst := 1, lasting := false, safe := true, loss := false, seq := 3,
                          time := 0, ln := 0, info := 0 }
    (let s := island { sagOn with queues := [(19, [danger])] } 0
     s.si.queues.get [] 19 = [danger] ∧ (∀ c, c < 27 → c ≠ 19 → s.si.queues.get [] c = []) ∧
      s.si.intq.length < 512 ∧ s.si.takenAt ≠ some s.now) ∧
    (island { sagOn with takenAt := some 5 } 5).si.takenAt = some 5 ∧ permissive.si.intq = [] ∧ (∀ c, c < 27 → permissive.si.queues.get [] c = []) ∧
    (let s := (island { sagOn with intq := [r] } 0).regsAt
        [(SI_FR_BASE_LO, 0x08000000), (SI_FR_BASE_HI, 0x1000), (SI_FR_SIZE, 64), (SI_FR_WPTR, 32), (SI_FR_RPTR, 32)]
     s.si.intq = [r] ∧ (s.reg SI_FR_SIZE).toNat ≠ 0 ∧
      ((s.reg SI_FR_WPTR).toNat + 32) % (s.reg SI_FR_SIZE).toNat ≠
        (s.reg SI_FR_RPTR).toNat % (s.reg SI_FR_SIZE).toNat ∧
      (let a := (s.reg SI_FR_BASE_LO).toNat + s.fld SI_FR_BASE_HI SI_FR_BASE_HI_ADDR * 2 ^ 32 + 32
       s.plainMem a 32 ∧ a + 32 ≤ 2 ^ 48) ∧ s.dramOpen 2) ∧
    (island { sagOn with intq := [r] } 0).reg SI_FR_SIZE = 0 ∧
    (permissive.regsAt [(SI_HBEN, 1)]).rbit SI_HBEN 0 = true ∧ permissive.rbit SI_HBEN 0 = false ∧
    (let s := island { sagOn with hbSeq := [(0, some 0xFFFF)] } 0
     s.si.hbSeq.get none 0 = some 0xFFFF ∧ (0 : BitVec 16) = 0xFFFF + 1 ∧ (5 : BitVec 16) ≠ 0xFFFF + 1) ∧
    ((1 : Word) >>> 16).setWidth 16 ≠ ~~~((1 : Word).setWidth 16) ∧
    sagOn.hbAt.get 0 0 + 2 * ticksMs ≤ (island sagOn (2 * ticksMs)).now ∧
    (island sagOn (2 * ticksMs - 1)).now < sagOn.hbAt.get 0 0 + 2 * ticksMs := by
  simp only [State.plainMem, State.dramOpen]; decide

theorem witness_WatchdogAndDynamicEnable_queue :
    sagOn.intq.length < 512 ∧
    (let r : FaultRec := { code := 0x34C6, inst := 1, lasting := false, safe := true, loss := false, seq := 3,
                           time := 0, ln := 0, info := 0 }
     512 ≤ ({ sagOn with intq := List.replicate 512 r } : SiSt).intq.length) := by decide

theorem witness_TheSafeStateIsEnteredAndLeft_running :
    permissive.si.running = false ∧ permissive.bit (QE_STAT 0) QE_STAT_WIREA = false ∧
    permissive.bit (QE_STAT 0) QE_STAT_WIREB = false ∧ permissive.bit (QE_STAT 0) QE_STAT_WIREZ = false ∧
    ((island sagOn 16).qeAt 0).wireAt + 16 ≤ (island sagOn 16).now ∧
    ¬ ((island sagOn 15).qeAt 0).wireAt + 16 ≤ (island sagOn 15).now := by decide

theorem witness_RedundancyAndLatentChecks_tests :
    (let s := island { sagOn with resync := some 2, inject := [1, 2] } resyncTicks
     let s := s.fldsAt [(SI_STAT, SI_STAT_OUT, 4)]
     s.si.resync = some 2 ∧ s.si.pairHeld = false ∧ s.si.resyncAt + resyncTicks ≤ s.now ∧
      s.si.inject = 1 :: [2] ∧ s.fld SI_STAT SI_STAT_OUT = 2 ^ 2 ∧
      (s.countEvent (winKey 0x1081 1) 3 ticksHour).1 = false) ∧
    (let s := { slot0 5 0 0 with si := sagOn }
     s.si.running = true ∧ s.lineRuns = true ∧ s.si.enable = true ∧ s.fld SI_STAT SI_STAT_OUT = 0 ∧
      (s.countEvent (winKey 0x1081 0) 3 ticksHour).1 = false ∧ (s.si.queues.get [] BLK_SI).length < 7) ∧
    permissive.lineRuns = false ∧
    (let s := island { sagOn with blank := some 7 } 7
     s.si.blank = some 7 ∧ 7 ≤ s.now) := by decide

/-! ### In-service test, power, clocks and boot -/

/-- A state with a test of a unit running. -/
def testing (u : Nat) (r : TestRun) : State :=
  { permissive with st := { permissive.st with tests := [(u, some r)] } }

theorem witness_ServiceCommandsActOnUnits :
    permissive.bit ST_STAT ST_STAT_BUSY = false ∧
    (permissive.fldsAt [(ST_STAT, ST_STAT_BUSY, 1)]).bit ST_STAT ST_STAT_BUSY = true ∧
    (let s : State := { permissive with now := 1000 }
     s.testBusy 216 = false ∧ unitClass 216 = 5 ∧ s.stMayTest 216 = true ∧ s.st.tests.get none 216 = none) ∧
    (let s := permissive.fldsAt [(ST_USTAT 216, ST_USTAT_STATE, 2)]
     s.testBusy 216 = false ∧ s.stMayReturn 216 = true) ∧
    (let s := testing 217 { prev := 0, second := false, cmd := 0 }
     s.testBusy 216 = true ∧ s.stAccepts 1 216 = true) ∧
    (let s := permissive.setBit CK_CLK (lockBit 1) true
     s.pllLocked 1 = true ∧ s.unit 260 ≠ 2 ∧ s.testBusy 260 = false) ∧
    unitClass 212 = 4 ∧ unitClass 215 = 4 ∧ permissive.testBusy 212 = false ∧
    permissive.stAccepts 1 256 = false ∧ permissive.testBusy 256 = false := by decide

theorem witness_update_image :
    ((permissive.regsAt [(ST_ARG_LO, 0xA000000), (ST_ARG_HI, 0x1000)]).memImage 0x10000A000000).isSome = true ∧
    (permissive.regsAt [(ST_ARG_LO, 0xA000000), (ST_ARG_HI, 0x1000)]).stArg = 0x10000A000000 := by
  constructor <;> decide +kernel

theorem witness_TestsEndAndRepeat :
    (let r : TestRun := { prev := 0, second := false, cmd := 1 }
     unitClass 216 = 5 ∧ (testing 216 r).st.waiting = none ∧ (testing 216 r).st.tests.get none 216 = some r ∧
      r.cmd = 1 ∧ r.second = false) ∧
    (let r : TestRun := { prev := 0, second := true, cmd := 1 }
     (testing 216 r).st.tests.get none 216 = some r) ∧
    permissive.st.tests.get none 216 = none ∧ (permissive.regsAt [(ST_CTRL, 0)]).rbit ST_CTRL 5 = false ∧
    (permissive.onXc 0 fun x => { x with tile := some { plane := 0, band := 0, col := 0 } }).testRuns 0 = false ∧
    (let s : State := { permissive with st := { permissive.st with started := [(5, some 0)] } }
     s.perPassed 5 5 = false) := by decide

theorem witness_automatic_test :
    let s : State := { permissive.regsAt [(ST_CTRL, 0x7FF)] with now := 1000 }
    s.rbit ST_CTRL 5 = true ∧ s.st.waiting = none ∧ s.st.tests = [] ∧ s.perPassed 5 5 = true ∧
    rotated [216, 217, 218, 219, 220, 221, 222, 223] (s.st.next.get 0 5) =
      216 :: [217, 218, 219, 220, 221, 222, 223] ∧ s.stMayTest 216 = true := by decide

theorem witness_cv_units : unitsOf 5 = [216, 217, 218, 219, 220, 221, 222, 223] := by decide +kernel

theorem witness_PowerAndSupply :
    permissive.ck.pwrgood = false ∧ ({ permissive with ck := { permissive.ck with pwrgood := true } }).ck.pwrgood =
      true ∧ (1 : Word) ≠ 0xC1A5 ∧ (Master.host ≠ .si) ∧
    (permissive.regsAt [(CK_SUP, 1)]).rbit CK_SUP 0 = true ∧ permissive.rbit CK_SUP 0 = false := by decide

/-- A state in which the clocks have been qualifying since a tick, or run. -/
def clocked (q : Option Nat) (now : Nat) (clk : Word) : State :=
  { permissive.regsAt [(CK_CLK, clk)] with
    ck := { permissive.ck with pwrgood := true, qualifying := q }, now := now }

theorem witness_CrystalsAndPlls :
    (let s := clocked (some 5) 1000 0
     s.ck.pwrgood = true ∧ s.ck.bothXtal = false ∧ s.ck.qualifying = some 5 ∧ s.now - 5 ≤ 300000 ∧
      s.xtalOk 1 = false ∧ s.st.tests = [] ∧ s.st.waiting = none) ∧
    (let s := clocked none 1000 0x37
     s.ck.qualifying = none ∧ s.xsel ≤ 1 ∧ s.xtalOk s.xsel = true ∧ s.xtalOk (1 - s.xsel) = true ∧
      s.psel = 0 ∧ s.pllLocked 0 = true ∧ s.pllLocked 1 = true ∧
      s.unit (261 + (1 - s.xsel)) ≠ 2 ∧ s.unit 260 ≠ 2) ∧
    (let s := clocked none 1000 0x12
     s.xtalOk s.xsel = true ∧ s.xtalOk (1 - s.xsel) = false ∧ s.pllLocked 1 = false ∧
      s.psel = 0 ∧ s.pllLocked 0 = true ∧ s.si.wdgTrip = false) ∧
    (let s := (clocked none 1000 0x37).fldsAt [(ST_USTAT 261, ST_USTAT_STATE, 2)]
     s.unit (261 + (1 - s.xsel)) = 2) ∧
    (let s := clocked none 1000 0
     ({ s with ck := { s.ck with bothXtal := true } } : State).ck.bothXtal = true ∧ s.xtalOk s.xsel = false) ∧
    (let s := clocked (some 5) 1000005 0
     1000000 ≤ s.now - 5 ∧ s.xtalOk 0 = false) ∧
    (let s := clocked (some 5) 1000004 0
     s.now - 5 < 1000000) := by decide

/-- A domain that enters or leaves a low-power state. -/
def domains (e : Option DomEntry) (w : Option WakeSt) (now : Nat) : State :=
  { permissive.domsAsleep with ck := { permissive.ck with entry := [(1, e)], waking := [(1, w)] }, now := now }

theorem witness_DomainRequests :
    (∀ d : Fin 3, permissive.permits .host (regAddr (CK_DOM d)) true = true ∧
      permissive.domsAwake.domState d = 2 ∧ permissive.domsAwake.domUsed d = false ∧
      permissive.domsAsleep.domState d ≤ 1 ∧ permissive.domsAsleep.ck.entry.get none d = none ∧
      permissive.ck.woke.get none d ≠ some permissive.now) ∧
    (let s : State := { permissive with ck := { permissive.ck with woke := [(1, some 7)] }, now := 7 }
     s.ck.woke.get none 1 = some s.now) ∧
    (∀ d : Fin 3, d.val ≠ 0 → (permissive.domsAwake.fldsAt [(VE_CTRL, VE_CTRL_EN, 1)]).domUsed d = true) ∧
    (permissive.domsAwake.fldsAt [(ST_USTAT 0, ST_USTAT_STATE, 1)]).domUsed 0 = true ∧
    ((permissive.fldsAt [(CK_DOM 1, CK_DOM_WAKESRC, 1)]).fld (CK_DOM 1) CK_DOM_WAKESRC).testBit 0 = true ∧
    (permissive.fld (CK_DOM 1) CK_DOM_WAKESRC).testBit 1 = false := by decide

theorem witness_FastDomainsSleepAndWake :
    (∀ d : Fin 3, permissive.ck.waking.get none d = none ∧ permissive.domsAsleep.ck.entry.get none d = none) ∧
    (∀ off late : Bool, let w : WakeSt := { fromOff := off, since := 10, late := late }
      let s := domains none (some w) 26000
      s.ck.waking.get none 1 = some w ∧ w.since + (if w.fromOff then 25000 else 4000) < s.now) ∧
    (∀ t ∈ [0, 1], ∀ wake : Bool,
      let e : DomEntry := { target := t, stopped := false, since := 10, wake := wake, before := 2 }
      (domains (some e) none 26000).ck.entry.get none 1 = some e) := by decide

/-- A state in a phase of boot. -/
def booting (phase : Nat) (img : Option (List Byte)) : State :=
  { permissive.fldsAt [(BOOT_STAT, BOOT_STAT_PHASE, phase)] with
    boot := { permissive.boot with image := img } }

theorem witness_BootVerifiesAndLocks :
    (booting 1 none).bootPhase = 1 ∧ (booting 0 none).bootPhase ≠ 1 ∧
    ((booting 4 none).bootPhase = 4 ∧ (booting 4 none).boot.image = none) ∧
    ((booting 5 (some [])).bootPhase = 5 ∧ (booting 5 (some [])).boot.image = some []) := by decide

theorem witness_ImagesAreVerifiedOnCommand :
    permissive.bit BOOT_VSTAT BOOT_VSTAT_BUSY = false ∧
    (permissive.fldsAt [(BOOT_VSTAT, BOOT_VSTAT_BUSY, 1)]).bit BOOT_VSTAT BOOT_VSTAT_BUSY = true ∧
    (booting 7 none).bootPhase = 7 ∧ permissive.bootPhase ≠ 7 ∧
    (∀ op ∈ [1, 2, 3],
      ({ permissive with boot := { permissive.boot with verify := some { op := op, addr := 0 } } }).boot.verify =
        some { op := op, addr := 0 }) ∧
    permissive.permits .si (regAddr BOOT_SVN_ADV) true = true ∧
    permissive.permits .host (regAddr BOOT_SVN_ADV) true = true ∧
    ({ permissive with boot := { permissive.boot with imageSvn := 1 } }).boot.fuseSvn < 1 ∧
    permissive.boot.imageSvn ≤ permissive.boot.fuseSvn := by decide

/-- A unit of every class that a command may take, as each clause asks. -/
theorem witness_ServiceCommandsActOnUnits_classes :
    (let lanes := permissive.fldsAt [(DL_LANE_STAT 0, DL_LANE_STAT_STATE, 6), (DL_LANE_STAT 1, DL_LANE_STAT_STATE, 6),
        (DL_HUB_STAT 0, DL_HUB_STAT_MODE, 0)]
     unitClass 148 = 2 ∧ lanes.stMayTest 148 = true ∧ lanes.testBusy 148 = false ∧ lanes.laneReady (148 - 148) = true) ∧
    (let s := (permissive.domsAwake).fldsAt [(ST_USTAT 148, ST_USTAT_STATE, 2)]
     s.stMayReturn 148 = true ∧ s.laneReady (148 - 148) = false) ∧
    (∀ sr ∈ [srAwake, srDrain, srIssue, srInSr],
      let s := (oneRank sr).fldsAt [(MC_RK_STAT 0 0, MC_RK_STAT_ROLE, roleSpare)]
      unitClass 180 = 3 ∧ s.stMayTest 180 = true ∧ s.srOf 0 0 = sr ∧ s.freqBusy = false) ∧
    ((permissive.fldsAt [(ST_USTAT 180, ST_USTAT_STATE, 3)]).stMayRetire 180 = true) ∧
    (let s := permissive.setBit CK_CLK 1 true
     s.xtalOk (0 : Fin 2).val = true ∧ s.testBusy 261 = false ∧ s.unit 261 ≠ 2) ∧
    (∀ op ∈ [1, 2, 3, 4], permissive.stAccepts op 256 = false) ∧ permissive.stAccepts 5 0 = false ∧
    permissive.testBusy 256 = false := by decide

/-- A control core without routes or heartbeat may be tested, once every core is in service. -/
theorem witness_control_core_test :
    let s := permissive.fldsAt ([213, 214, 215].map fun u => (ST_USTAT u, ST_USTAT_STATE, 0))
    unitClass 212 = 4 ∧ s.stMayTest 212 = true ∧ s.stMayRetire 212 = true := by
  refine ⟨by decide, ?_, ?_⟩ <;> decide +kernel

/-- Tests end of units that pass through states of their own: a lane that has left READY, a rank that is awake. -/
theorem witness_TestsEndAndRepeat_classes :
    permissive.testRuns 148 = true ∧ (oneRank srAwake).testRuns 180 = true ∧
    (oneRank srInSr).testRuns 180 = false ∧ (1 : Fin 11).val ∈ [1, 2, 4, 5, 6, 9] := by decide

/-- Losses of one tick, ages of the attempt to qualify, and a crystal that returns after both were lost. -/
theorem witness_CrystalsAndPlls_losses :
    (let s : State := { clocked none 1000 0x37 with pending := [.crystalLost] }
     Instr.crystalLost ∈ s.pending ∧ s.ck.early ≠ some s.now ∧ s.xsel ≤ 1 ∧ s.xtalOk s.xsel = true ∧
      s.pllLocked 0 = true ∧ s.pllLocked 1 = true ∧ s.unit (259 + 1) ≠ 2 ∧ s.unit (261 + 1) ≠ 2 ∧
      s.si.queues.get [] (codeBlk 0x2042) = []) ∧
    (let s := clocked none 1000 0x37
     let s : State := { s with ck := { s.ck with early := some 1000 } }
     s.ck.early = some s.now) ∧
    (let s := clocked (some 5) 300006 0
     300000 < s.now - 5 ∧ s.now - 5 ≤ 1000000 ∧ s.xtalOk 1 = false ∧ s.xtalOk 0 = false) ∧
    (let s := clocked (some 5) 1000006 0
     1000000 < s.now - 5) ∧
    (let s := clocked none 1000 0
     let both : State := { s with ck := { s.ck with bothXtal := true } }
     both.ck.pwrgood = true ∧ both.ck.bothXtal = true ∧ both.unit (261 + 0) ≠ 2 ∧ both.unit (261 + 1) ≠ 2) ∧
    (clocked none 1000 0x12).si.intq.length < 512 ∧ sourcesFree permissive := by
  refine ⟨by decide, by decide, by decide, by decide, by decide, by decide, fun _ _ _ => rfl, fun _ h => nomatch h⟩

theorem witness_DomainRequests_lowered :
    let e : DomEntry := { target := 1, stopped := false, since := 7, wake := false, before := 2 }
    let s := (domains (some e) none 7).fldsAt [(CK_DOM 1, CK_DOM_WAKESRC, 1)]
    let s : State := { s with ck := { s.ck with lowered := [(1, some (7, 0))] } }
    s.ck.lowered.get none 1 = some (s.now, 0) ∧ s.ck.entry.get none 1 = some e ∧ e.since = s.now ∧
    (s.fld (CK_DOM 1) CK_DOM_WAKESRC).testBit 0 = true ∧
    (∀ x, permissive.ck.lowered.get none 1 = some x → x.1 ≠ permissive.now) := by
  refine ⟨by decide, by decide, by decide, by decide, ?_⟩
  intro x hx
  cases hx

/-- SHA-384 of "abc", the example of FIPS 180-4. -/
theorem test_sha384 : sha384 [0x61, 0x62, 0x63] =
    beBytes 48 0xcb00753f45a35e8bb5a03d699ac65007272c32ab0eded1631a8b605a43ff5bed8086072ba1e7cc2358baeca134c825a7 := by
  decide +kernel

/-- The base point of P-384 lies on the curve, and a signature of zeros verifies nothing. -/
theorem test_p384 : p384On p384G.1 p384G.2 = true ∧ ecdsaP384 [] [] [] = false := by decide +kernel

/-- The FCS of "123456789", by which CRC-32 is known. -/
theorem test_fcs : fcs [0x31, 0x32, 0x33, 0x34, 0x35, 0x36, 0x37, 0x38, 0x39] = leBytes 4 0xCBF43926 := by decide

end Sys2Proof.Machine
end

/-!
The base instructions (R29 to R34): what a fetch leaves of a core, how an instruction that is fetched runs to its
end, and the statements O9, O10 and O11.
-/

namespace Sys2Proof.Machine

/-! ### Fault reports and DRAM accesses leave the cores -/

/-- No core of any kind differs. -/
def SameCores (s t : State) : Prop := t.xc = s.xc ∧ t.cc = s.cc ∧ t.sg = s.sg

theorem SameCores.refl (s : State) : SameCores s s := ⟨rfl, rfl, rfl⟩

theorem SameCores.trans {s t u : State} (h : SameCores s t) (k : SameCores t u) : SameCores s u :=
  ⟨k.1.trans h.1, k.2.1.trans h.2.1, k.2.2.trans h.2.2⟩

theorem ByScheduler.sameCores {s t : State} (h : ByScheduler s t) : SameCores s t := by
  rw [h.1]
  exact SameCores.refl s

theorem msixRequest_sameCores (s : State) (v : Nat) : SameCores s (s.msixRequest v) := by
  unfold State.msixRequest
  split
  · exact SameCores.refl s
  · split <;> exact SameCores.refl s

theorem routeHost_sameCores (s : State) (blk n : Nat) : SameCores s (s.routeHost blk n) := by
  unfold State.routeHost
  dsimp only
  split
  · exact msixRequest_sameCores s _
  · exact SameCores.refl s

theorem setEvt_sameCores (s : State) (blk n : Nat) : SameCores s (s.setEvt blk n) := by
  have hw : SameCores s (s.hwSet (evtReg blk) n) := SameCores.refl s
  unfold State.setEvt
  dsimp only
  split
  · exact hw
  · split
    · exact hw.trans (routeHost_sameCores _ _ _)
    · exact hw

theorem queueFault_sameCores (s : State) (f : FaultIn) : SameCores s (s.queueFault f) := by
  unfold State.queueFault
  dsimp only
  split
  · exact SameCores.refl s
  · exact setEvt_sameCores _ _ _

theorem raiseWith_sameCores (s : State) (code : BitVec 16) (inst info : Nat) (lasting : Bool) :
    SameCores s (s.raiseWith code inst info lasting) := by
  unfold State.raiseWith
  dsimp only
  split <;> exact queueFault_sameCores s _

theorem fault_sameCores (s : State) (code : BitVec 16) (inst info : Nat) :
    SameCores s (s.fault code inst info) := by
  unfold State.fault
  split <;> exact raiseWith_sameCores _ _ _ _ _

theorem unmapped_sameCores (s : State) (m : Master) (a : Nat) : SameCores s (s.unmapped m a) :=
  fault_sameCores s _ _ _

/-! ### A fetch leaves the program counter and the general registers

The scrutinee of a match in `State.fetchWord`, `State.fetch`, `State.fetched` and `State.isRun` multiplies by
2 ^ 28 (R42), and the kernel would compute it in unary when it compares such a definition with its unfolding.
The proofs that open these definitions therefore name the function under the match by a variable first. -/

/-- A core of the system profile keeps its program counter and its general registers. -/
def KeepsRegs (c : IsCore) (s t : State) : Prop :=
  (t.isAt c).pc = (s.isAt c).pc ∧ (t.isAt c).g = (s.isAt c).g

theorem KeepsRegs.refl (c : IsCore) (s : State) : KeepsRegs c s s := ⟨rfl, rfl⟩

theorem KeepsRegs.trans {c : IsCore} {s t u : State} (h : KeepsRegs c s t) (k : KeepsRegs c t u) :
    KeepsRegs c s u := ⟨k.1.trans h.1, k.2.trans h.2⟩

theorem SameCores.keepsRegs {s t : State} (h : SameCores s t) (c : IsCore) : KeepsRegs c s t := by
  obtain ⟨-, hcc, hsg⟩ := h
  cases c with
  | cc k => simp [KeepsRegs, State.isAt, State.ccAt, hcc]
  | sg => simp [KeepsRegs, State.isAt, hsg]

/-- The state of an expansion core after a change of one. -/
@[simp] theorem onXc_xcAt (s : State) (x y : Nat) (f : XcSt → XcSt) :
    (s.onXc x f).xcAt y = if y = x then f (s.xcAt x) else s.xcAt y :=
  Tbl.get_upd s.xc XcSt.reset x y f

/-- The state of a control core after a change of one. -/
@[simp] theorem onCc_ccAt (s : State) (k j : Nat) (f : IsSt → IsSt) :
    (s.onCc k f).ccAt j = if j = k then f (s.ccAt k) else s.ccAt j :=
  Tbl.get_upd s.cc IsSt.reset k j f

@[simp] theorem onIs_isAt_same (s : State) (c : IsCore) (f : IsSt → IsSt) :
    (s.onIs c f).isAt c = f (s.isAt c) := by
  cases c with
  | cc k => simp [State.onIs, State.isAt]
  | sg => rfl

/-- R43, R44: the fetch of a word changes at most the instruction cache of its core. -/
theorem fetchWord_keepsRegs {s t : State} {c : IsCore} {pc ea : Word} {o : Option State}
    (h : s.fetchWord c pc ea = (o, t)) : KeepsRegs c s t := by
  obtain ⟨stall, hstall⟩ : ∃ f, f = @State.dramStall := ⟨_, rfl⟩
  obtain ⟨fetchWord, hfetch⟩ : ∃ f, f = @State.fetchWord := ⟨_, rfl⟩
  rw [← hfetch] at h
  delta State.fetchWord at hfetch
  rw [← hstall] at hfetch
  subst hfetch
  dsimp only at h
  have read := (dramUse_byScheduler s (4, fetchIx c) .none (s.physical c ea) 4 false).sameCores.keepsRegs c
  split at h
  · cases h; exact KeepsRegs.refl c s
  split at h
  · cases h; exact KeepsRegs.refl c s
  split at h
  · split at h
    · cases h; exact KeepsRegs.refl c s
    · cases h; exact (unmapped_sameCores s _ _).keepsRegs c
  split at h
  · cases h; exact KeepsRegs.refl c s
  split at h
  · cases h; exact KeepsRegs.refl c s
  split at h
  · cases h; exact read
  split at h
  · cases h; exact read.trans ⟨by rw [onIs_isAt_same], by rw [onIs_isAt_same]⟩
  · cases h; exact read

theorem fetch_keepsRegs {s t : State} {c : IsCore} {words : Nat} {o : Option State}
    (h : s.fetch c words = (o, t)) : KeepsRegs c s t := by
  obtain ⟨fetchWord, hword⟩ : ∃ f, f = @State.fetchWord := ⟨_, rfl⟩
  obtain ⟨fetch, hfetch⟩ : ∃ f, f = @State.fetch := ⟨_, rfl⟩
  rw [← hfetch] at h
  delta State.fetch at hfetch
  rw [← hword] at hfetch
  subst hfetch
  dsimp only at h
  split at h
  · next h1 =>
    rw [hword] at h1
    cases h
    exact fetchWord_keepsRegs h1
  · next h1 =>
    rw [hword] at h1 h
    split at h
    · exact (fetchWord_keepsRegs h1).trans (fetchWord_keepsRegs h)
    · cases h; exact fetchWord_keepsRegs h1

/-- An instruction whose fetch raises no exception does what it does, in the state after the fetch. -/
theorem isRun_of_fetch {s t : State} {c : IsCore} {words : Nat} (hi : s.issues c = true)
    (hf : s.fetch c words = (none, t)) (act : State → State) : s.isRun c words act = act t := by
  obtain ⟨fetch, hfetch⟩ : ∃ f, f = @State.fetch := ⟨_, rfl⟩
  obtain ⟨isRun, hrun⟩ : ∃ f, f = @State.isRun := ⟨_, rfl⟩
  rw [← hrun]
  delta State.isRun at hrun
  rw [← hfetch] at hrun hf
  subst hrun
  simp only [hi, hf, Bool.not_true, Bool.false_eq_true, if_false]

/-! ### Cores by profile -/

/-- A core is an expansion core or one of the system profile. -/
theorem coreCases {P : Core → Prop} (xc : ∀ x, P (.xc x)) (is : ∀ k, P (coreOf k)) (c : Core) : P c := by
  cases c with
  | xc x => exact xc x
  | cc k => exact is (.cc k)
  | sg => exact is .sg

theorem corePc_coreOf (s : State) (k : IsCore) : s.corePc (coreOf k) = (s.isAt k).pc := by cases k <;> rfl

theorem coreG_coreOf (s : State) (k : IsCore) (r : BitVec 5) :
    s.coreG (coreOf k) r = (s.isAt k).g.get 0 r.toNat := by cases k <;> rfl

theorem setCoreG_coreOf (s : State) (k : IsCore) (r : BitVec 5) (v : Word) :
    s.setCoreG (coreOf k) r v = s.setIsG k r.toNat v := by cases k <;> rfl

theorem coreDo_coreOf (s : State) (k : IsCore) (words cost : Nat) (act : State → State) :
    s.coreDo (coreOf k) words cost act = s.isRun k words fun s => (act s).retire k words := by
  cases k <;> rfl

theorem coreJump_coreOf (s : State) (k : IsCore) (words cost : Nat) (target : Word) (act : State → State) :
    s.coreJump (coreOf k) words cost target act = s.isRun k words fun s => (act s).retireTo k target := by
  cases k <;> rfl

theorem ready_coreOf (s : State) (k : IsCore) (words cost : Nat) :
    Ready s (coreOf k) words cost ↔ s.issues k = true ∧ (s.fetch k words).1 = none := by
  cases k <;> exact Iff.rfl

theorem fetched_coreOf (s : State) (k : IsCore) (words : Nat) :
    s.fetched (coreOf k) words = (s.fetch k words).2 := by
  obtain ⟨fetch, hfetch⟩ : ∃ f, f = @State.fetch := ⟨_, rfl⟩
  obtain ⟨fetched, hfetched⟩ : ∃ f, f = @State.fetched := ⟨_, rfl⟩
  rw [← hfetched]
  delta State.fetched at hfetched
  rw [← hfetch] at hfetched ⊢
  subst hfetched
  cases k <;> rfl

/-! ### Where an instruction acts -/

/-- A core of the system profile that is ready has fetched its instruction. -/
theorem fetch_of_ready {s : State} {k : IsCore} {words cost : Nat} (h : Ready s (coreOf k) words cost) :
    s.issues k = true ∧ s.fetch k words = (none, s.fetched (coreOf k) words) := by
  obtain ⟨issues, fetches⟩ := (ready_coreOf s k words cost).1 h
  exact ⟨issues, Prod.ext fetches (fetched_coreOf s k words).symm⟩

theorem fetched_keepsRegs (s : State) (k : IsCore) (words : Nat) :
    KeepsRegs k s (s.fetched (coreOf k) words) := by
  rw [fetched_coreOf]
  exact fetch_keepsRegs Prod.mk.eta.symm

@[simp] theorem corePc_fetched (s : State) (c : Core) (words : Nat) :
    (s.fetched c words).corePc c = s.corePc c := by
  induction c using coreCases with
  | xc x => rfl
  | is k => rw [corePc_coreOf, corePc_coreOf, (fetched_keepsRegs s k words).1]

@[simp] theorem coreG_fetched (s : State) (c : Core) (words : Nat) (r : BitVec 5) :
    (s.fetched c words).coreG c r = s.coreG c r := by
  induction c using coreCases with
  | xc x => rfl
  | is k => rw [coreG_coreOf, coreG_coreOf, (fetched_keepsRegs s k words).2]

/-! ### What a core changes of its own -/

/-- Nothing but the state of one core differs. -/
def OnlyCore (s t : State) (c : Core) : Prop :=
  t = { s with xc := t.xc, cc := t.cc, sg := t.sg } ∧ OtherCores s t c

theorem OnlyCore.refl (s : State) (c : Core) : OnlyCore s s c :=
  ⟨rfl, fun _ _ => rfl, fun _ _ => rfl, fun _ => rfl⟩

theorem OnlyCore.trans {s t u : State} {c : Core} (h : OnlyCore s t c) (k : OnlyCore t u c) :
    OnlyCore s u c := by
  obtain ⟨eq, xc, cc, sg⟩ := h
  obtain ⟨eq', xc', cc', sg'⟩ := k
  refine ⟨?_, fun y hy => (xc' y hy).trans (xc y hy), fun j hj => (cc' j hj).trans (cc j hj),
    fun hs => (sg' hs).trans (sg hs)⟩
  rw [eq', eq]

theorem onXc_onlyCore (s : State) (x : Fin 144) (f : XcSt → XcSt) : OnlyCore s (s.onXc x f) (.xc x) := by
  refine ⟨rfl, fun y hy => ?_, fun _ _ => rfl, fun _ => rfl⟩
  have hne : y.val ≠ x.val := fun h => hy (congrArg Core.xc (Fin.ext h.symm))
  rw [onXc_xcAt, if_neg hne]

theorem onIs_onlyCore (s : State) (k : IsCore) (f : IsSt → IsSt) : OnlyCore s (s.onIs k f) (coreOf k) := by
  cases k with
  | cc k =>
    refine ⟨rfl, fun _ _ => rfl, fun j hj => ?_, fun _ => rfl⟩
    have hne : j.val ≠ k.val := fun h => hj (congrArg Core.cc (Fin.ext h.symm))
    exact (onCc_ccAt s k j f).trans (if_neg hne)
  | sg => exact ⟨rfl, fun _ _ => rfl, fun _ _ => rfl, fun h => absurd rfl h⟩

/-- R27: g0 discards what is written to it. -/
@[simp] theorem setCoreG_zero (s : State) (c : Core) (v : Word) : s.setCoreG c 0 v = s := by
  cases c <;> rfl

theorem toNat_ne_zero_of_ne_zero {r : BitVec 5} (h : r ≠ 0) : r.toNat ≠ 0 :=
  fun h0 => h (BitVec.eq_of_toNat_eq h0)

/-- A register other than g0 is written in the table of its core. -/
theorem setCoreG_xc {s : State} {x : Fin 144} {rd : BitVec 5} (h : rd ≠ 0) (v : Word) :
    s.setCoreG (.xc x) rd v = s.onXc x fun y => { y with g := y.g.set 0 rd.toNat v } :=
  if_neg (toNat_ne_zero_of_ne_zero h)

theorem setCoreG_is {s : State} {k : IsCore} {rd : BitVec 5} (h : rd ≠ 0) (v : Word) :
    s.setCoreG (coreOf k) rd v = s.onIs k fun y => { y with g := y.g.set 0 rd.toNat v } := by
  rw [setCoreG_coreOf]
  exact if_neg (toNat_ne_zero_of_ne_zero h)

theorem setCoreG_onlyCore (s : State) (c : Core) (rd : BitVec 5) (v : Word) :
    OnlyCore s (s.setCoreG c rd v) c := by
  by_cases h : rd = 0
  · rw [h, setCoreG_zero]
    exact OnlyCore.refl s c
  · induction c using coreCases with
    | xc x => rw [setCoreG_xc h]; exact onXc_onlyCore s x _
    | is k => rw [setCoreG_is h]; exact onIs_onlyCore s k _

/-- The general registers of a core after a write of one. -/
theorem coreG_setCoreG (s : State) (c : Core) (rd r : BitVec 5) (v : Word) :
    (s.setCoreG c rd v).coreG c r = if r = rd ∧ rd ≠ 0 then v else s.coreG c r := by
  by_cases h : rd = 0
  · rw [h, setCoreG_zero, if_neg fun hr => hr.2 rfl]
  · have read : ∀ g : Tbl Word, (g.set 0 rd.toNat v).get 0 r.toNat =
        if r = rd ∧ rd ≠ 0 then v else g.get 0 r.toNat := fun g => by
      simp only [Tbl.get_set, BitVec.toNat_inj, h, ne_eq, not_false_eq_true, and_true]
    induction c using coreCases with
    | xc x => rw [setCoreG_xc h, State.coreG, State.xg, onXc_xcAt, if_pos rfl]; exact read _
    | is k => rw [setCoreG_is h, coreG_coreOf, onIs_isAt_same, coreG_coreOf]; exact read _

@[simp] theorem corePc_setCoreG (s : State) (c : Core) (rd : BitVec 5) (v : Word) :
    (s.setCoreG c rd v).corePc c = s.corePc c := by
  by_cases h : rd = 0
  · rw [h, setCoreG_zero]
  · induction c using coreCases with
    | xc x => rw [setCoreG_xc h, State.corePc, onXc_xcAt, if_pos rfl]; rfl
    | is k => rw [setCoreG_is h, corePc_coreOf, onIs_isAt_same, corePc_coreOf]

/-! ### The end of an instruction -/

/-- The core continues at `pc`, and its cycles (R35), or one more instruction (R48), are counted. -/
def State.finish (s : State) (c : Core) (pc : Word) (cost : Nat) : State :=
  match c with
  | .xc x => s.onXc x fun y => { y with cycles := y.cycles + cost, pc := pc }
  | .cc k => s.retireTo (.cc k) pc
  | .sg => s.retireTo .sg pc

theorem finish_coreOf (s : State) (k : IsCore) (pc : Word) (cost : Nat) :
    s.finish (coreOf k) pc cost = s.onIs k fun y => { y with pc := pc, instret := y.instret + 1 } := by
  cases k <;> rfl

theorem finish_onlyCore (s : State) (c : Core) (pc : Word) (cost : Nat) :
    OnlyCore s (s.finish c pc cost) c := by
  induction c using coreCases with
  | xc x => exact onXc_onlyCore s x _
  | is k => rw [finish_coreOf]; exact onIs_onlyCore s k _

@[simp] theorem coreG_finish (s : State) (c : Core) (pc : Word) (cost : Nat) (r : BitVec 5) :
    (s.finish c pc cost).coreG c r = s.coreG c r := by
  induction c using coreCases with
  | xc x => rw [State.finish, State.coreG, State.xg, onXc_xcAt, if_pos rfl]; rfl
  | is k => rw [finish_coreOf, coreG_coreOf, onIs_isAt_same, coreG_coreOf]

theorem ownCore_coreOf (s t : State) (k : IsCore) (pc : Word) (cost : Nat) :
    OwnCore s t (coreOf k) pc cost ↔ t.isAt k =
      { s.isAt k with g := (t.isAt k).g, pc := pc, instret := (s.isAt k).instret + 1 } := by
  cases k <;> exact Iff.rfl

/-- A register write and the end of an instruction leave of their core all but the registers, the PC and the
counts. -/
theorem ownCore_finish_setCoreG (s : State) (c : Core) (rd : BitVec 5) (v pc : Word) (cost : Nat) :
    OwnCore s ((s.setCoreG c rd v).finish c pc cost) c pc cost := by
  by_cases h : rd = 0
  · rw [h, setCoreG_zero]
    induction c using coreCases with
    | xc x => simp [OwnCore, State.finish]
    | is k => rw [ownCore_coreOf, finish_coreOf, onIs_isAt_same]
  · induction c using coreCases with
    | xc x => rw [setCoreG_xc h]; simp [OwnCore, State.finish]
    | is k => rw [setCoreG_is h, ownCore_coreOf, finish_coreOf, onIs_isAt_same, onIs_isAt_same]

theorem ran_finish_setCoreG (s : State) (c : Core) (rd : BitVec 5) (v pc : Word) (cost : Nat) :
    Ran s ((s.setCoreG c rd v).finish c pc cost) c pc cost := by
  obtain ⟨eq, others⟩ := (setCoreG_onlyCore s c rd v).trans (finish_onlyCore _ c pc cost)
  exact ⟨eq, others, ownCore_finish_setCoreG s c rd v pc cost⟩

/-! ### Instructions that write one register -/

/-- Changes of an expansion core that agree on its state are the same. -/
theorem onXc_congr {s : State} {x : Nat} {f g : XcSt → XcSt} (h : f (s.xcAt x) = g (s.xcAt x)) :
    s.onXc x f = s.onXc x g := by
  unfold State.onXc Tbl.upd
  exact congrArg (fun y => { s with xc := s.xc.set XcSt.reset x y }) h

/-- A register write touches neither the cycles of its expansion core nor its REP. -/
theorem setCoreG_xcAt (s : State) (x : Fin 144) (rd : BitVec 5) (v : Word) :
    ((s.setCoreG (.xc x) rd v).xcAt x).cycles = (s.xcAt x).cycles ∧
      ((s.setCoreG (.xc x) rd v).xcAt x).rep = (s.xcAt x).rep := by
  by_cases h : rd = 0
  · rw [h, setCoreG_zero]
    exact ⟨rfl, rfl⟩
  · rw [setCoreG_xc h, onXc_xcAt, if_pos rfl]
    exact ⟨rfl, rfl⟩

/-- R35, R38: an instruction of an expansion core that is ready writes its register and finishes. -/
theorem xcStep_of_ready {s : State} {x : Fin 144} {words cost : Nat} (h : Ready s (.xc x) words cost)
    (target : Option Word) (rd : BitVec 5) (v : State → Word) :
    s.xcStep x words cost target (fun s => s.setCoreG (.xc x) rd (v s)) id =
      (s.setCoreG (.xc x) rd (v s)).finish (.xc x)
        (target.getD ((s.xcAt x).pc + BitVec.ofNat 32 (4 * words))) cost := by
  obtain ⟨live, norep, inside, budget⟩ := h
  obtain ⟨cycles, rep⟩ := setCoreG_xcAt s x rd (v s)
  rw [State.xcStep]
  simp only [live, Bool.not_true, Bool.false_eq_true, if_false, Nat.not_lt.2 inside, Nat.not_lt.2 budget]
  refine onXc_congr ?_
  simp only [XcSt.advance, rep, norep, cycles]

/-- An instruction of the base profile that continues after itself. -/
theorem coreDo_of_ready {s : State} {c : Core} {words cost : Nat} (h : Ready s c words cost)
    (rd : BitVec 5) (v : State → Word) :
    s.coreDo c words cost (fun s => s.setCoreG c rd (v s)) =
      ((s.fetched c words).setCoreG c rd (v (s.fetched c words))).finish c
        (s.corePc c + BitVec.ofNat 32 (4 * words)) cost := by
  induction c using coreCases with
  | xc x => exact xcStep_of_ready h none rd v
  | is k =>
    obtain ⟨issues, fetch⟩ := fetch_of_ready h
    rw [coreDo_coreOf, isRun_of_fetch issues fetch, State.retire, State.retireTo, ← corePc_coreOf,
      corePc_setCoreG, corePc_fetched, finish_coreOf]

/-- An instruction of the base profile that continues at an address. -/
theorem coreJump_of_ready {s : State} {c : Core} {words cost : Nat} (h : Ready s c words cost)
    (target : Word) (rd : BitVec 5) (v : State → Word) :
    s.coreJump c words cost target (fun s => s.setCoreG c rd (v s)) =
      ((s.fetched c words).setCoreG c rd (v (s.fetched c words))).finish c target cost := by
  induction c using coreCases with
  | xc x => exact xcStep_of_ready h (some target) rd v
  | is k =>
    obtain ⟨issues, fetch⟩ := fetch_of_ready h
    rw [coreJump_coreOf, isRun_of_fetch issues fetch, State.retireTo, finish_coreOf]

theorem wrote_finish_setCoreG (s : State) (c : Core) (words : Nat) (rd : BitVec 5) (v pc : Word)
    (cost : Nat) : Wrote s (((s.fetched c words).setCoreG c rd v).finish c pc cost) c rd v := fun r => by
  rw [coreG_finish, coreG_setCoreG, coreG_fetched]

theorem coreDo_runs {s : State} {c : Core} {words cost : Nat} (h : Ready s c words cost)
    (rd : BitVec 5) (v : State → Word) :
    let t := s.coreDo c words cost fun s => s.setCoreG c rd (v s)
    Ran (s.fetched c words) t c (s.corePc c + BitVec.ofNat 32 (4 * words)) cost ∧
      Wrote s t c rd (v (s.fetched c words)) := by
  rw [coreDo_of_ready h rd v]
  exact ⟨ran_finish_setCoreG _ _ _ _ _ _, wrote_finish_setCoreG _ _ _ _ _ _ _⟩

theorem coreJump_runs {s : State} {c : Core} {words cost : Nat} (h : Ready s c words cost)
    (target : Word) (rd : BitVec 5) (v : State → Word) :
    let t := s.coreJump c words cost target fun s => s.setCoreG c rd (v s)
    Ran (s.fetched c words) t c target cost ∧ Wrote s t c rd (v (s.fetched c words)) := by
  rw [coreJump_of_ready h target rd v]
  exact ⟨ran_finish_setCoreG _ _ _ _ _ _, wrote_finish_setCoreG _ _ _ _ _ _ _⟩

theorem alu2_runs {s : State} {c : Core} {cost : Nat} (h : Ready s c 1 cost) (rd ra rb : BitVec 5)
    (f : Word → Word → Word) :
    Ran (s.fetched c 1) (s.alu2 c rd ra rb cost f) c (s.corePc c + 4) cost ∧
      Wrote s (s.alu2 c rd ra rb cost f) c rd (f (s.coreG c ra) (s.coreG c rb)) := by
  have runs := coreDo_runs h rd fun s => f (s.coreG c ra) (s.coreG c rb)
  rwa [coreG_fetched, coreG_fetched] at runs

theorem alu1_runs {s : State} {c : Core} {words cost : Nat} (h : Ready s c words cost) (rd ra : BitVec 5)
    (f : Word → Word) :
    Ran (s.fetched c words) (s.alu1 c rd ra words cost f) c
        (s.corePc c + BitVec.ofNat 32 (4 * words)) cost ∧
      Wrote s (s.alu1 c rd ra words cost f) c rd (f (s.coreG c ra)) := by
  have runs := coreDo_runs h rd fun s => f (s.coreG c ra)
  rwa [coreG_fetched] at runs

/-! ### Results of the base instructions -/

theorem boolWord_lessS (a b : Word) : boolWord (lessS a b) = if a.toInt < b.toInt then 1 else 0 := by
  simp [boolWord, lessS, BitVec.slt]

theorem boolWord_lessU (a b : Word) : boolWord (lessU a b) = if a.toNat < b.toNat then 1 else 0 := by
  simp [boolWord, lessU, BitVec.ult]

/-- R29, R31: an arithmetic shift divides by a power of two, rounding down. -/
theorem sshiftRight_eq_div (a : Word) (n : Nat) :
    a.sshiftRight n = BitVec.ofInt 32 (a.toInt / 2 ^ n) := by
  rw [BitVec.sshiftRight, Int.shiftRight_eq_div_pow]
  norm_cast

theorem minS_eq (a b : Word) : minS a b = BitVec.ofInt 32 (min a.toInt b.toInt) := by
  by_cases h : a.toInt < b.toInt
  · simp [minS, lessS, BitVec.slt, h, min_eq_left h.le]
  · simp [minS, lessS, BitVec.slt, h, min_eq_right (not_lt.1 h)]

theorem maxS_eq (a b : Word) : maxS a b = BitVec.ofInt 32 (max a.toInt b.toInt) := by
  by_cases h : a.toInt < b.toInt
  · simp [maxS, lessS, BitVec.slt, h, max_eq_right h.le]
  · simp [maxS, lessS, BitVec.slt, h, max_eq_left (not_lt.1 h)]

theorem minU_eq (a b : Word) : minU a b = BitVec.ofNat 32 (min a.toNat b.toNat) := by
  by_cases h : a.toNat < b.toNat
  · simp [minU, lessU, BitVec.ult, h, min_eq_left h.le]
  · simp [minU, lessU, BitVec.ult, h, min_eq_right (not_lt.1 h)]

theorem maxU_eq (a b : Word) : maxU a b = BitVec.ofNat 32 (max a.toNat b.toNat) := by
  by_cases h : a.toNat < b.toNat
  · simp [maxU, lessU, BitVec.ult, h, max_eq_right h.le]
  · simp [maxU, lessU, BitVec.ult, h, max_eq_left (not_lt.1 h)]

theorem mul_eq_ofNat (a b : Word) : a * b = BitVec.ofNat 32 (a.toNat * b.toNat) :=
  BitVec.eq_of_toNat_eq (by simp [BitVec.toNat_mul])

/-- The zeros before the first one of a list of bits are as many as its index. -/
theorem takeWhile_not_length (p : Nat → Bool) (n : Nat) :
    ((List.range n).takeWhile fun i => !p i).length = (List.range n).findIdx p := by
  rw [List.takeWhile_eq_take_findIdx_not, List.length_take]
  simp only [Bool.not_not]
  exact min_eq_left List.findIdx_le_length

/-- What the zeros before the first one in a range are. -/
theorem takeWhile_range_spec (p : Nat → Bool) (n : Nat) :
    let k := ((List.range n).takeWhile fun i => !p i).length
    k ≤ n ∧ (∀ i, i < k → p i = false) ∧ (k < n → p k = true) := by
  rw [takeWhile_not_length]
  refine ⟨?_, fun i hi => ?_, fun hk => ?_⟩
  · simpa using List.findIdx_le_length (p := p) (xs := List.range n)
  · simpa using List.not_of_lt_findIdx hi
  · have one := List.findIdx_getElem (p := p) (xs := List.range n) (w := by simpa using hk)
    rwa [List.getElem_range] at one

/-- R29: the zeros that CTZ counts. -/
theorem trailZeros_spec (a : Word) :
    trailZeros a ≤ 32 ∧ (∀ i, i < trailZeros a → a.getLsbD i = false) ∧
      (trailZeros a < 32 → a.getLsbD (trailZeros a) = true) :=
  takeWhile_range_spec a.getLsbD 32

/-- R29: the zeros that CLZ counts, from the top bit down. -/
theorem leadZeros_spec (a : Word) :
    leadZeros a ≤ 32 ∧ (∀ i, 32 - leadZeros a ≤ i → i < 32 → a.getLsbD i = false) ∧
      (leadZeros a < 32 → a.getLsbD (31 - leadZeros a) = true) := by
  obtain ⟨le, zeros, one⟩ := takeWhile_range_spec (fun i => a.getLsbD (31 - i)) 32
  refine ⟨le, fun i lo hi => ?_, one⟩
  have zero := zeros (31 - i) (by unfold leadZeros at lo; omega)
  rwa [show 31 - (31 - i) = i by omega] at zero

theorem onesIn_eq_countP (a : Word) : onesIn a = (List.range 32).countP fun i => a.getLsbD i :=
  List.countP_eq_length_filter.symm

/-! ### The register ALU (R29, R30) -/

theorem aluOf_of_alu2 {i : Core → BitVec 5 → BitVec 5 → BitVec 5 → Instr} {cost : Nat}
    {f g : Word → Word → Word}
    (exec_eq : ∀ c rd ra rb s, exec (i c rd ra rb) s = .next (s.alu2 c rd ra rb cost g))
    (result : ∀ a b, g a b = f a b) : aluOf i cost f := fun s c rd ra rb ready => by
  obtain ⟨ran, wrote⟩ := alu2_runs ready rd ra rb g
  exact ⟨_, exec_eq c rd ra rb s, ran, result _ _ ▸ wrote⟩

theorem aluOf_alu2 {i : Core → BitVec 5 → BitVec 5 → BitVec 5 → Instr} {cost : Nat} {f : Word → Word → Word}
    (exec_eq : ∀ c rd ra rb s, exec (i c rd ra rb) s = .next (s.alu2 c rd ra rb cost f)) : aluOf i cost f :=
  aluOf_of_alu2 exec_eq fun _ _ => rfl

theorem registerAlu_writes : registerAluWritesItsResult :=
  ⟨aluOf_alu2 fun _ _ _ _ _ => rfl,
   aluOf_alu2 fun _ _ _ _ _ => rfl,
   aluOf_alu2 fun _ _ _ _ _ => rfl,
   aluOf_alu2 fun _ _ _ _ _ => rfl,
   aluOf_alu2 fun _ _ _ _ _ => rfl,
   aluOf_alu2 fun _ _ _ _ _ => rfl,
   aluOf_alu2 fun _ _ _ _ _ => rfl,
   aluOf_alu2 fun _ _ _ _ _ => rfl,
   aluOf_of_alu2 (fun _ _ _ _ _ => rfl) fun a b => sshiftRight_eq_div a (b.toNat % 32),
   aluOf_alu2 fun _ _ _ _ _ => rfl,
   aluOf_of_alu2 (fun _ _ _ _ _ => rfl) boolWord_lessS,
   aluOf_of_alu2 (fun _ _ _ _ _ => rfl) boolWord_lessU,
   aluOf_of_alu2 (fun _ _ _ _ _ => rfl) minS_eq,
   aluOf_of_alu2 (fun _ _ _ _ _ => rfl) maxS_eq,
   aluOf_of_alu2 (fun _ _ _ _ _ => rfl) minU_eq,
   aluOf_of_alu2 (fun _ _ _ _ _ => rfl) maxU_eq⟩

theorem bitCounts_right : bitCountsAreRight := fun s c rd ra ready => by
  refine ⟨?_, ?_, ?_⟩
  · obtain ⟨le, zeros, one⟩ := leadZeros_spec (s.coreG c ra)
    obtain ⟨ran, wrote⟩ := alu1_runs ready rd ra fun a => BitVec.ofNat 32 (leadZeros a)
    exact ⟨_, _, rfl, ran, le, wrote, zeros, one⟩
  · obtain ⟨le, zeros, one⟩ := trailZeros_spec (s.coreG c ra)
    obtain ⟨ran, wrote⟩ := alu1_runs ready rd ra fun a => BitVec.ofNat 32 (trailZeros a)
    exact ⟨_, _, rfl, ran, le, wrote, zeros, one⟩
  · obtain ⟨ran, wrote⟩ := alu1_runs ready rd ra fun a => BitVec.ofNat 32 (onesIn a)
    exact ⟨_, rfl, ran, onesIn_eq_countP (s.coreG c ra) ▸ wrote⟩

theorem multiplyAndDivide_hold : multiplyAndDivide :=
  ⟨aluOf_of_alu2 (fun _ _ _ _ _ => rfl) mul_eq_ofNat,
   aluOf_alu2 fun _ _ _ _ _ => rfl,
   aluOf_alu2 fun _ _ _ _ _ => rfl,
   aluOf_alu2 fun _ _ _ _ _ => rfl,
   aluOf_alu2 fun _ _ _ _ _ => rfl,
   aluOf_alu2 fun _ _ _ _ _ => rfl,
   aluOf_alu2 fun _ _ _ _ _ => rfl⟩

/-! ### Field rules (R28) -/

/-- R25, R64: the raster profile has no word of a major below 0x28. -/
theorem decodeIx_of_major_lt (x : Fin 144) {w : Nat} (h : wbits w 31 26 < 0x28) : decodeIx x w = none := by
  unfold decodeIx
  dsimp only
  split
  case h_9 => rfl
  all_goals omega

/-- R25, R47: the system profile has no word of a major below 0x30. -/
theorem decodeIs_of_major_lt (k : IsCore) {w : Nat} (h : wbits w 31 26 < 0x30) : decodeIs k w = none := by
  unfold decodeIs
  dsimp only
  split
  case h_6 => rfl
  all_goals omega

/-- A word of a major below 0x28 that the base profile does not decode is illegal on every core. -/
theorem wordLegal_of_decodeIb {c : Core} {w : Nat} (hw : w < 2 ^ 32) (major : wbits w 31 26 < 0x28)
    (base : decodeIb c w 0 = none) : wordLegal c (BitVec.ofNat 32 w) = false := by
  have toNat : (BitVec.ofNat 32 w).toNat = w := Nat.mod_eq_of_lt hw
  have system := fun k => decodeIs_of_major_lt k (major.trans (by decide))
  unfold wordLegal decodeWord
  rw [toNat, base]
  cases c with
  | xc x => simp [decodeIx_of_major_lt x major]
  | cc k => simp [system]
  | sg => simp [system]

/-- A register field of a word holds a register. -/
theorem wreg_eq {w lo : Nat} {r : BitVec 5} (h : w / 2 ^ lo % 32 = r.toNat) : wreg w lo = r :=
  BitVec.eq_of_toNat_eq (by simpa [wreg] using h)

theorem oneSource_fields : fieldsOfRegisterInstructions := fun c rd ra rb f hf hrb => by
  have hf' : f = 0x018 ∨ f = 0x019 ∨ f = 0x01A := by simpa using hf
  have hd := rd.isLt
  have ha := ra.isLt
  have hb := rb.isLt
  generalize hw : 0x04000000 + rd.toNat * 2 ^ 21 + ra.toNat * 2 ^ 16 + rb.toNat * 2 ^ 11 + f = w
  have major : wbits w 31 26 = 0x01 := by unfold wbits; omega
  have func : wbits w 10 0 = f := by unfold wbits; omega
  have field : wreg w 11 = rb := wreg_eq (by omega)
  refine wordLegal_of_decodeIb (by omega) (by omega) ?_
  have illegal : ∀ i, spells (rb == 0) i = none := fun i => by rw [beq_eq_false_iff_ne.2 hrb]; rfl
  have alu : decodeAlu c w = none := by
    rcases hf' with rfl | rfl | rfl <;> simp only [decodeAlu, func, field, illegal]
  simp [decodeIb, major, alu]

/-- Settles O9: each instruction writes its result in the state after its fetch, which keeps the registers. -/
theorem registerInstructionsWriteTheirResult : Obligations.RegisterInstructionsWriteTheirResult :=
  ⟨registerAlu_writes, bitCounts_right, multiplyAndDivide_hold, oneSource_fields⟩

/-! ### Branches and jumps (R33) -/

/-- What writes g0 changes no general register. -/
theorem wrote_zero {s t : State} {c : Core} {v : Word} (h : Wrote s t c 0 v) (r : BitVec 5) :
    t.coreG c r = s.coreG c r := by
  rw [h r, if_neg fun hr => hr.2 rfl]

/-- An instruction without effect writes g0. -/
theorem id_eq_setCoreG_zero (c : Core) : (id : State → State) = fun s => s.setCoreG c 0 0 :=
  funext fun s => (setCoreG_zero s c 0).symm

theorem coreDo_id_runs {s : State} {c : Core} {cost : Nat} (h : Ready s c 1 cost) :
    Ran (s.fetched c 1) (s.coreDo c 1 cost id) c (s.corePc c + 4) cost ∧
      ∀ r, (s.coreDo c 1 cost id).coreG c r = s.coreG c r := by
  obtain ⟨ran, wrote⟩ := coreDo_runs h 0 fun _ => 0
  rw [id_eq_setCoreG_zero c]
  exact ⟨ran, wrote_zero wrote⟩

theorem coreJump_id_runs {s : State} {c : Core} {cost : Nat} (h : Ready s c 1 cost) (target : Word) :
    Ran (s.fetched c 1) (s.coreJump c 1 cost target id) c target cost ∧
      ∀ r, (s.coreJump c 1 cost target id).coreG c r = s.coreG c r := by
  obtain ⟨ran, wrote⟩ := coreJump_runs h target 0 fun _ => 0
  rw [id_eq_setCoreG_zero c]
  exact ⟨ran, wrote_zero wrote⟩

theorem ready_of_le {s : State} {c : Core} {words cost cost' : Nat} (h : Ready s c words cost)
    (le : cost' ≤ cost) : Ready s c words cost' := by
  induction c using coreCases with
  | xc x =>
    obtain ⟨live, norep, inside, budget⟩ := h
    exact ⟨live, norep, inside, (Nat.add_le_add_left le _).trans budget⟩
  | is k => exact (ready_coreOf s k words cost').2 ((ready_coreOf s k words cost).1 h)

theorem shiftLeft_two_eq (a : Word) : a <<< 2 = 4 * a := by
  rw [BitVec.shiftLeft_eq_mul_twoPow, BitVec.mul_comm]
  rfl

/-- R33: the offsets of branches and of J count words. -/
theorem off16_eq (off : BitVec 16) : off16 off = 4 * off.signExtend 32 := shiftLeft_two_eq _

theorem off26_eq (off : BitVec 26) : off26 off = 4 * off.signExtend 32 := shiftLeft_two_eq _

/-- R33: a branch costs 2 when it is taken, and 1 otherwise. -/
theorem branchOf_of_branch {i : Core → BitVec 5 → BitVec 5 → BitVec 16 → Instr}
    {test test' : Word → Word → Bool}
    (exec_eq : ∀ c ra rb off s, exec (i c ra rb off) s = .next (s.branch c ra rb off test'))
    (result : ∀ a b, test' a b = test a b) : branchOf i test := fun s c ra rb off ready => by
  obtain rfl : test' = test := funext fun a => funext (result a)
  refine ⟨_, exec_eq c ra rb off s, ?_⟩
  unfold State.branch
  cases test' (s.coreG c ra) (s.coreG c rb) with
  | true =>
    obtain ⟨ran, regs⟩ := coreJump_id_runs ready (s.corePc c + 4 * off.signExtend 32)
    rw [off16_eq]
    exact ⟨regs, ran⟩
  | false =>
    obtain ⟨ran, regs⟩ := coreDo_id_runs (ready_of_le ready (by decide : 1 ≤ 2))
    exact ⟨regs, ran⟩

theorem lessS_eq_decide (a b : Word) : lessS a b = decide (a.toInt < b.toInt) := rfl

theorem lessU_eq_decide (a b : Word) : lessU a b = decide (a.toNat < b.toNat) := rfl

theorem not_lessS_eq_decide (a b : Word) : (!lessS a b) = decide (b.toInt ≤ a.toInt) := by
  rw [lessS_eq_decide, ← decide_not]
  exact decide_eq_decide.2 not_lt

theorem not_lessU_eq_decide (a b : Word) : (!lessU a b) = decide (b.toNat ≤ a.toNat) := by
  rw [lessU_eq_decide, ← decide_not]
  exact decide_eq_decide.2 not_lt

theorem j_jal_run {s : State} {c : Core} (off : BitVec 26) (ready : Ready s c 1 2) :
    (∃ t, exec (.j c off) s = .next t ∧ Ran (s.fetched c 1) t c (s.corePc c + 4 * off.signExtend 32) 2 ∧
      ∀ r, t.coreG c r = s.coreG c r) ∧
    (∃ t, exec (.jal c off) s = .next t ∧ Ran (s.fetched c 1) t c (s.corePc c + 4 * off.signExtend 32) 2 ∧
      Wrote s t c 31 (s.corePc c + 4)) := by
  rw [← off26_eq]
  exact ⟨⟨_, rfl, coreJump_id_runs ready _⟩, _, rfl, coreJump_runs ready _ 31 fun _ => s.corePc c + 4⟩

/-- Settles O10: a branch and J write g0 and so nothing, and the target and the link of a jump are those of
the state before it. -/
theorem branchesAndJumps : Obligations.BranchesAndJumps :=
  ⟨branchOf_of_branch (fun _ _ _ _ _ => rfl) fun _ _ => rfl,
   branchOf_of_branch (fun _ _ _ _ _ => rfl) fun _ _ => (decide_not ..).symm,
   branchOf_of_branch (fun _ _ _ _ _ => rfl) lessS_eq_decide,
   branchOf_of_branch (fun _ _ _ _ _ => rfl) not_lessS_eq_decide,
   branchOf_of_branch (fun _ _ _ _ _ => rfl) lessU_eq_decide,
   branchOf_of_branch (fun _ _ _ _ _ => rfl) not_lessU_eq_decide,
   fun _ _ off ready => j_jal_run off ready,
   fun s c rd _ _ ready => ⟨_, rfl, coreJump_runs ready _ rd fun _ => s.corePc c + 4⟩⟩

/-! ### Immediate instructions (R31, R34) -/

/-- R31: SLTI compares with the sign-extended immediate. -/
theorem boolWord_lessS_immS (a : Word) (imm : BitVec 16) :
    boolWord (lessS a (immS imm)) = if a.toInt < imm.toInt then 1 else 0 := by
  rw [boolWord_lessS, immS, BitVec.toInt_signExtend_of_le (by decide)]

theorem immZ_shiftLeft_16 (imm : BitVec 16) : immZ imm <<< 16 = BitVec.ofNat 32 (imm.toNat * 65536) :=
  BitVec.eq_of_toNat_eq (by simp [immZ, Nat.shiftLeft_eq])

theorem immOf_of_alu1 {i : Core → BitVec 5 → BitVec 5 → BitVec 16 → Instr}
    {f g : Word → BitVec 16 → Word}
    (exec_eq : ∀ c rd ra imm s, exec (i c rd ra imm) s = .next (s.alu1 c rd ra 1 1 fun a => g a imm))
    (result : ∀ a imm, g a imm = f a imm) : immOf i f := fun s c rd ra imm ready => by
  obtain ⟨ran, wrote⟩ := alu1_runs ready rd ra fun a => g a imm
  exact ⟨_, exec_eq c rd ra imm s, ran, result _ _ ▸ wrote⟩

theorem shiftOf_of_alu1 {i : Core → BitVec 5 → BitVec 5 → BitVec 5 → Instr} {f g : Word → Nat → Word}
    (exec_eq : ∀ c rd ra sh s, exec (i c rd ra sh) s = .next (s.alu1 c rd ra 1 1 fun a => g a sh.toNat))
    (result : ∀ a n, g a n = f a n) : shiftOf i f := fun s c rd ra sh ready => by
  obtain ⟨ran, wrote⟩ := alu1_runs ready rd ra fun a => g a sh.toNat
  exact ⟨_, exec_eq c rd ra sh s, ran, result _ _ ▸ wrote⟩

theorem immediateAlu_writes : immediateAluWritesItsResult :=
  ⟨immOf_of_alu1 (fun _ _ _ _ _ => rfl) fun _ _ => rfl,
   immOf_of_alu1 (fun _ _ _ _ _ => rfl) fun _ _ => rfl,
   immOf_of_alu1 (fun _ _ _ _ _ => rfl) fun _ _ => rfl,
   immOf_of_alu1 (fun _ _ _ _ _ => rfl) fun _ _ => rfl,
   immOf_of_alu1 (fun _ _ _ _ _ => rfl) boolWord_lessS_immS,
   immOf_of_alu1 (fun _ _ _ _ _ => rfl) fun a imm => boolWord_lessU a (immS imm),
   shiftOf_of_alu1 (fun _ _ _ _ _ => rfl) fun _ _ => rfl,
   shiftOf_of_alu1 (fun _ _ _ _ _ => rfl) fun _ _ => rfl,
   shiftOf_of_alu1 (fun _ _ _ _ _ => rfl) sshiftRight_eq_div,
   fun _ _ rd imm ready => by
    obtain ⟨ran, wrote⟩ := alu1_runs ready rd 0 fun _ => immZ imm <<< 16
    exact ⟨_, rfl, ran, immZ_shiftLeft_16 imm ▸ wrote⟩⟩

/-- R13, R34: imm32 as the statement gives it. -/
theorem wideImm_eq (s : State) (c : Core) (imm : BitVec 32) : s.wideImm c imm = wide s c imm := by
  cases c <;> rfl

theorem wideOf_of_alu1 {i : Core → BitVec 5 → BitVec 5 → BitVec 32 → Instr} {f : Word → Word → Word}
    (exec_eq : ∀ c rd ra imm s,
      exec (i c rd ra imm) s = .next (s.alu1 c rd ra 2 2 fun a => f a (s.wideImm c imm))) :
    wideOf i f := fun s c rd ra imm ready => by
  obtain ⟨ran, wrote⟩ := alu1_runs ready rd ra fun a => f a (s.wideImm c imm)
  exact ⟨_, exec_eq c rd ra imm s, ran, wideImm_eq s c imm ▸ wrote⟩

theorem twoWord_run : twoWordInstructions := by
  refine ⟨wideOf_of_alu1 fun _ _ _ _ _ => rfl, wideOf_of_alu1 fun _ _ _ _ _ => rfl,
    wideOf_of_alu1 fun _ _ _ _ _ => rfl, wideOf_of_alu1 fun _ _ _ _ _ => rfl,
    fun s c rd imm ready => ?_, fun s c rd imm ready => ?_⟩
  · rw [← wideImm_eq]
    exact ⟨_, rfl, alu1_runs ready rd 0 fun _ => s.wideImm c imm⟩
  · rw [← wideImm_eq]
    exact ⟨_, rfl, coreJump_runs ready _ rd fun _ => s.corePc c + 8⟩

/-! ### Field rules of the immediate instructions (R28) -/

/-- R31: a shift amount above 31 sets a bit above its field. -/
theorem decodeIb_shift {c : Core} {w : Nat} (major : wbits w 31 26 ∈ [0x08, 0x09, 0x0A])
    (wide : wbits w 15 5 ≠ 0) : decodeIb c w 0 = none := by
  have illegal : ∀ i, spells (wbits w 15 5 == 0) i = none := fun i => by rw [beq_eq_false_iff_ne.2 wide]; rfl
  have majors : wbits w 31 26 = 0x08 ∨ wbits w 31 26 = 0x09 ∨ wbits w 31 26 = 0x0A := by simpa using major
  rcases majors with h | h | h <;> simp only [decodeIb, h, illegal]

theorem decodeIb_lui {c : Core} {w : Nat} (major : wbits w 31 26 = 0x0B) (field : wreg w 16 ≠ 0) :
    decodeIb c w 0 = none := by
  simp only [decodeIb, major]
  rw [beq_eq_false_iff_ne.2 field]
  rfl

/-- R34: a func16 of no two-word instruction, or LIW and JW with ra not zero. -/
theorem decodeTwo_unassigned {c : Core} {w : Nat} (func : wbits w 15 0 ∉ [0, 1, 2, 3, 4, 0x10]) :
    decodeTwo c w 0 = none := by
  simp only [List.mem_cons, List.not_mem_nil, or_false, not_or] at func
  obtain ⟨f0, f1, f2, f3, f4, f10⟩ := func
  unfold decodeTwo
  dsimp only
  split
  case h_7 => rfl
  all_goals contradiction

theorem decodeTwo_ra {c : Core} {w : Nat} (func : wbits w 15 0 ∈ [0, 0x10]) (field : wreg w 16 ≠ 0) :
    decodeTwo c w 0 = none := by
  have illegal : ∀ i, spells (wreg w 16 == 0) i = none := fun i => by rw [beq_eq_false_iff_ne.2 field]; rfl
  have funcs : wbits w 15 0 = 0 ∨ wbits w 15 0 = 0x10 := by simpa using func
  rcases funcs with h | h <;> simp only [decodeTwo, h, illegal]

/-- The fields of a word with a major, two registers and 16 low bits (R25). -/
theorem immediateWord_fields {major w : Nat} {rd ra : BitVec 5} {imm : BitVec 16} (hm : major < 64)
    (hw : major * 2 ^ 26 + rd.toNat * 2 ^ 21 + ra.toNat * 2 ^ 16 + imm.toNat = w) :
    w < 2 ^ 32 ∧ wbits w 31 26 = major ∧ wreg w 16 = ra ∧ wbits w 15 0 = imm.toNat ∧
      wbits w 15 5 = imm.toNat / 32 := by
  have hd := rd.isLt
  have ha := ra.isLt
  have hi := imm.isLt
  refine ⟨by omega, ?_, wreg_eq (by omega), ?_, ?_⟩ <;> unfold wbits <;> omega

/-- A word of that form is illegal on every core where its fields make the base profile refuse it. -/
theorem wordLegal_immediateWord {c : Core} {rd ra : BitVec 5} {imm : BitVec 16} {major : Nat}
    (hm : major < 0x28)
    (base : ∀ w, wbits w 31 26 = major → wreg w 16 = ra → wbits w 15 0 = imm.toNat →
      wbits w 15 5 = imm.toNat / 32 → decodeIb c w 0 = none) :
    wordLegal c (BitVec.ofNat 32
      (major * 2 ^ 26 + rd.toNat * 2 ^ 21 + ra.toNat * 2 ^ 16 + imm.toNat)) = false := by
  generalize hw : major * 2 ^ 26 + rd.toNat * 2 ^ 21 + ra.toNat * 2 ^ 16 + imm.toNat = w
  obtain ⟨size, hmajor, hra, hlow, hhigh⟩ := immediateWord_fields (by omega : major < 64) hw
  exact wordLegal_of_decodeIb size (hmajor.trans_lt hm) (base w hmajor hra hlow hhigh)

theorem decodeIb_two {c : Core} {w : Nat} (major : wbits w 31 26 = 0x20) (h : decodeTwo c w 0 = none) :
    decodeIb c w 0 = none := by
  simp only [decodeIb, major, h]

theorem immediate_fields : fieldsOfImmediateInstructions := fun c rd ra imm => by
  refine ⟨fun major hm himm => ?_, fun hra => ?_, fun himm => ?_, fun hra himm => ?_⟩
  · have small : major < 0x28 := by
      rcases (by simpa using hm : major = 8 ∨ major = 9 ∨ major = 10) with h | h | h <;> omega
    exact wordLegal_immediateWord small fun w h _ _ high => decodeIb_shift (h ▸ hm) (by omega)
  · exact wordLegal_immediateWord (by decide) fun w major field _ _ => decodeIb_lui major (field ▸ hra)
  · exact wordLegal_immediateWord (by decide) fun w major _ low _ =>
      decodeIb_two major (decodeTwo_unassigned (low ▸ himm))
  · exact wordLegal_immediateWord (by decide) fun w major field low _ =>
      decodeIb_two major (decodeTwo_ra (low ▸ himm) (field ▸ hra))

/-- Settles O11: each instruction writes its result in the state after the fetch of its words. -/
theorem immediateInstructionsWriteTheirResult : Obligations.ImmediateInstructionsWriteTheirResult :=
  ⟨immediateAlu_writes, twoWord_run, immediate_fields⟩

end Sys2Proof.Machine

/-!
Tile state and the span registers (R67, R68): bytes of data memory read and stored, what an instruction of an
expansion core leaves once its effect is known, and the statement O19.
-/

namespace Sys2Proof.Machine

/-! ### Parts of a range of memory -/

theorem memRead_drop_take (m : List Host.Cell) (a : Nat) {n i j : Nat} (h : i + j ≤ n) :
    ((memRead m a n).drop i).take j = memRead m (a + i) j := by
  refine List.ext_getElem ?_ fun k _ _ => ?_
  · rw [List.length_take, List.length_drop, memRead_length, memRead_length]
    omega
  · rw [List.getElem_take, List.getElem_drop, memRead_getElem, memRead_getElem, Nat.add_assoc]

/-- What is read within bytes stored is that part of them. -/
theorem memRead_store_part (m : List Host.Cell) (a : Nat) (bs : List Byte) {i n : Nat}
    (h : i + n ≤ bs.length) : memRead (memStore m a bs) (a + i) n = (bs.drop i).take n := by
  rw [← memRead_drop_take _ a h, memRead_store]

/-- R36: below its end, data memory is read as it stands. -/
theorem localBytes_eq_loadBytes (s : State) (d x : Nat) {a n : Nat} (h : a + n ≤ localTop) :
    s.localBytes d x a n = s.loadBytes (XC_MEM x + a) n := by
  refine List.ext_getElem ?_ fun i hi _ => ?_
  · simp [State.localBytes, State.loadBytes]
  · have below : a + i < localTop := by
      have : i < n := by simpa [State.localBytes] using hi
      omega
    simp [State.localBytes, State.loadBytes, State.localByte, memRead_getElem, below, Nat.add_assoc]

/-- R36: a store below the end of data memory stores its bytes. -/
theorem localStore_eq_storeBytes (s : State) (x : Nat) {a : Nat} {bs : List Byte}
    (h : a + bs.length ≤ localTop) : s.localStore x a bs = s.storeBytes (XC_MEM x + a) bs := if_pos h

/-! ### What an effect leaves -/

/-- Nothing but expansion core `x`, memory and the draws of free values differs, and `x` has the state `c`. -/
def XcLeaves (s t : State) (x : Fin 144) (c : XcSt) : Prop :=
  t.xcAt x = c ∧ t = { s with xc := t.xc, mem := t.mem, poison := t.poison, freeIx := t.freeIx } ∧
  OtherCores s t (.xc x)

/-- `xcRan` says what is left once the PC and the cycles have advanced. -/
theorem xcRan_iff_leaves {s t : State} {x : Fin 144} {cost : Nat} {c : XcSt} :
    xcRan s t x cost c ↔
      XcLeaves s t x { c with pc := (s.xcAt x).pc + 4, cycles := (s.xcAt x).cycles + cost } := Iff.rfl

theorem XcLeaves.refl (s : State) (x : Fin 144) : XcLeaves s s x (s.xcAt x) :=
  ⟨rfl, rfl, fun _ _ => rfl, fun _ _ => rfl, fun _ => rfl⟩

theorem XcLeaves.trans {s t u : State} {x : Fin 144} {c d : XcSt} (h : XcLeaves s t x c)
    (k : XcLeaves t u x d) : XcLeaves s u x d := by
  obtain ⟨-, eq, xc, cc, sg⟩ := h
  obtain ⟨core, eq', xc', cc', sg'⟩ := k
  refine ⟨core, ?_, fun y hy => (xc' y hy).trans (xc y hy), fun j hj => (cc' j hj).trans (cc j hj),
    fun hs => (sg' hs).trans (sg hs)⟩
  rw [eq', eq]

theorem onXc_leaves (s : State) (x : Fin 144) (f : XcSt → XcSt) :
    XcLeaves s (s.onXc x f) x (f (s.xcAt x)) :=
  ⟨(onXc_xcAt s x x f).trans (if_pos rfl), rfl, (onXc_onlyCore s x f).2⟩

theorem storeBytes_leaves (s : State) (x : Fin 144) (a : Nat) (bs : List Byte) :
    XcLeaves s (s.storeBytes a bs) x (s.xcAt x) :=
  ⟨rfl, rfl, fun _ _ => rfl, fun _ _ => rfl, fun _ => rfl⟩

theorem draw_leaves (s : State) (x : Fin 144) : XcLeaves s s.draw.2 x (s.xcAt x) :=
  ⟨rfl, rfl, fun _ _ => rfl, fun _ _ => rfl, fun _ => rfl⟩

@[simp] theorem setCoreG_mem (s : State) (c : Core) (rd : BitVec 5) (v : Word) :
    (s.setCoreG c rd v).mem = s.mem := by
  rw [(setCoreG_onlyCore s c rd v).1]

theorem setCoreG_leaves (s : State) (x : Fin 144) (rd : BitVec 5) (v : Word) :
    XcLeaves s (s.setCoreG (.xc x) rd v) x
      { s.xcAt x with g := ((s.setCoreG (.xc x) rd v).xcAt x).g } := by
  by_cases h : rd = 0
  · rw [h, setCoreG_zero]
    exact XcLeaves.refl s x
  · rw [setCoreG_xc h]
    have leaves := onXc_leaves s x fun y => { y with g := y.g.set 0 rd.toNat v }
    exact leaves.1 ▸ leaves

/-! ### An instruction of an expansion core -/

section

variable {s : State} {x : Fin 144} {cost : Nat} {c : XcSt} {act part : State → State}

/-- R35, R38: an instruction that is ready has its whole effect, and then its core continues. -/
theorem xcStep_eq_finish (ready : Ready s (.xc x) 1 cost)
    (cycles : ((act s).xcAt x).cycles = (s.xcAt x).cycles) (rep : ((act s).xcAt x).rep = (s.xcAt x).rep) :
    s.xcStep x 1 cost none act part = (act s).finish (.xc x) ((s.xcAt x).pc + 4) cost := by
  obtain ⟨live, norep, inside, budget⟩ := ready
  rw [State.xcStep]
  simp only [live, Bool.not_true, Bool.false_eq_true, if_false, Nat.not_lt.2 inside, Nat.not_lt.2 budget]
  refine onXc_congr ?_
  simp only [XcSt.advance, rep, norep, cycles]
  rfl

/-- An instruction whose effect leaves its core in state `c`, with the cycles and the REP that it had. -/
theorem xcExec_runs {i : Instr} (exec_eq : exec i s = .next (s.xcStep x 1 cost none act part))
    (ready : Ready s (.xc x) 1 cost) (leaves : XcLeaves s (act s) x c)
    (cycles : c.cycles = (s.xcAt x).cycles) (rep : c.rep = (s.xcAt x).rep) :
    ∃ t, exec i s = .next t ∧ t.mem = (act s).mem ∧ xcRan s t x cost c := by
  obtain rfl := leaves.1
  refine ⟨_, exec_eq, ?_⟩
  rw [xcStep_eq_finish ready cycles rep, xcRan_iff_leaves, ← cycles]
  exact ⟨rfl, leaves.trans (onXc_leaves (act s) x _)⟩

/-- An instruction whose effect changes span registers of its core. -/
theorem xcExec_writesSpan {i : Instr} (exec_eq : exec i s = .next (s.xcStep x 1 cost none act part))
    (ready : Ready s (.xc x) 1 cost)
    (leaves : XcLeaves s (act s) x { s.xcAt x with sp := ((act s).xcAt x).sp }) :
    ∃ t, exec i s = .next t ∧ t.mem = (act s).mem ∧
      xcRan s t x cost { s.xcAt x with sp := (t.xcAt x).sp } ∧ ∀ p k, t.xs x p k = (act s).xs x p k := by
  obtain ⟨t, run, mem, ran⟩ := xcExec_runs exec_eq ready leaves rfl rfl
  have sp : (t.xcAt x).sp = ((act s).xcAt x).sp := by rw [ran.1]
  refine ⟨t, run, mem, ?_, fun p k => ?_⟩
  · rwa [sp]
  · rw [State.xs, sp, State.xs]

end

/-! ### CLR and SETL (R67) -/

/-- Bytes replaced by one value each, wherever they stand. -/
theorem zipIdx_map_const (l : List Byte) {f : Byte × Nat → Byte} {v : Byte} (h : ∀ p, f p = v) :
    l.zipIdx.map f = List.replicate l.length v := by
  rw [← List.length_zipIdx (l := l)]
  exact List.map_eq_replicate_iff.2 fun p _ => h p

theorem clr_fills {s : State} {x : Fin 144} (a : BitVec 5) (ready : Ready s (.xc x) 1 130) :
    ∃ t, exec (.clr x a) s = .next t ∧ xcRan s t x 130 (s.xcAt x) ∧
      (∀ k, k < 16384 → memByte t.mem (s.tileBuf x + k) = (s.xg x a.toNat).setWidth 8) ∧
      MemBut s t (s.tileBuf x) 16384 := by
  obtain ⟨t, run, mem, ran⟩ :=
    xcExec_runs (i := .clr x a) rfl ready (storeBytes_leaves s x (s.tileBuf x) _) rfl rfl
  have filled : t.mem =
      memStore s.mem (s.tileBuf x) (List.replicate 16384 ((s.xg x a.toNat).setWidth 8)) := by
    rw [mem, storeBytes_mem, zipIdx_map_const _ fun _ => if_pos rfl, State.loadBytes, memRead_length]
  refine ⟨t, run, ran, fun k hk => ?_, fun y hy => ?_⟩
  · rw [filled, memByte_store_in _ _ _ _ (by rwa [List.length_replicate]), List.getElem_replicate]
  · rw [filled, memByte_store_out _ _ _ _ (by rwa [List.length_replicate])]

theorem setl_setsLevel {s : State} {x : Fin 144} (a : BitVec 5) (ready : Ready s (.xc x) 1 1) :
    ∃ t, exec (.setl x a) s = .next t ∧ t.mem = s.mem ∧
      xcRan s t x 1 { s.xcAt x with level := (s.xg x a.toNat).setWidth 8 } := by
  obtain ⟨t, run, mem, ran⟩ :=
    xcExec_runs (i := .setl x a) rfl ready (onXc_leaves s x _) rfl rfl
  exact ⟨t, run, mem, ran⟩

/-! ### The span registers (R68) -/

theorem each_succ (s : State) (n : Nat) (f : Nat → State → State) : s.each (n + 1) f = f n (s.each n f) := by
  rw [State.each, List.range_succ, List.foldl_append]
  rfl

theorem setXs_leaves (s : State) (x : Fin 144) (p k : Nat) (v : Word) :
    XcLeaves s (s.setXs x p k v) x { s.xcAt x with sp := ((s.setXs x p k v).xcAt x).sp } := by
  have leaves := onXc_leaves s x fun y => { y with sp := y.sp.set 0 (4 * p + k) v }
  exact leaves.1 ▸ leaves

/-- R68: a span register has four words. -/
theorem xs_setXs (s : State) (x : Fin 144) {q w p k : Nat} (v : Word) (hw : w < 4) (hk : k < 4) :
    (s.setXs x q w v).xs x p k = if p = q ∧ k = w then v else s.xs x p k := by
  have key : 4 * p + k = 4 * q + w ↔ p = q ∧ k = w := by omega
  rw [State.xs, State.setXs, onXc_xcAt, if_pos rfl, Tbl.get_set, State.xs]
  simp only [key]

/-- Setting the first words of a span register changes nothing but the span registers. -/
theorem each_setXs_leaves (s : State) (x : Fin 144) (q : Nat) (v : Nat → Word) (n : Nat) :
    let t := s.each n fun w s => s.setXs x q w (v w)
    XcLeaves s t x { s.xcAt x with sp := (t.xcAt x).sp } := by
  induction n with
  | zero => exact XcLeaves.refl s x
  | succ n ih =>
    have last := ih.trans (setXs_leaves _ x q n (v n))
    rw [ih.1] at last
    rwa [each_succ]

theorem xs_each_setXs (s : State) (x : Fin 144) (q : Nat) (v : Nat → Word) {n p k : Nat} (hn : n ≤ 4)
    (hk : k < 4) : (s.each n fun w s => s.setXs x q w (v w)).xs x p k =
      if p = q ∧ k < n then v k else s.xs x p k := by
  induction n with
  | zero => exact (if_neg fun h => Nat.not_lt_zero k h.2).symm
  | succ n ih =>
    have last := xs_setXs (s.each n fun w s => s.setXs x q w (v w)) x (q := q) (p := p) (v n) hn hk
    rw [ih (by omega)] at last
    rw [each_succ, last]
    by_cases hkn : k = n
    · simp [hkn]
    · have less : k < n + 1 ↔ k < n := by omega
      simp only [hkn, and_false, if_false, less]

theorem sset_setsWord {s : State} {x : Fin 144} (sp : BitVec 2) (b : BitVec 5) (w : BitVec 2)
    (ready : Ready s (.xc x) 1 1) :
    ∃ t, exec (.sset x sp b w) s = .next t ∧ t.mem = s.mem ∧
      xcRan s t x 1 { s.xcAt x with sp := (t.xcAt x).sp } ∧
      ∀ p k, k < 4 → t.xs x p k =
        if p = sp.toNat ∧ k = w.toNat then s.xg x b.toNat else s.xs x p k := by
  obtain ⟨t, run, mem, ran, words⟩ := xcExec_writesSpan (i := .sset x sp b w) rfl ready
    (setXs_leaves s x sp.toNat w.toNat (s.xg x b.toNat))
  exact ⟨t, run, mem, ran, fun p k hk => (words p k).trans (xs_setXs s x _ w.isLt hk)⟩

theorem sget_readsWord {s : State} {x : Fin 144} (a : BitVec 5) (sp w : BitVec 2)
    (ready : Ready s (.xc x) 1 1) :
    ∃ t, exec (.sget x a sp w) s = .next t ∧ t.mem = s.mem ∧
      xcRan s t x 1 { s.xcAt x with g := (t.xcAt x).g } ∧
      Wrote s t (.xc x) a (s.xs x sp.toNat w.toNat) := by
  obtain ⟨t, run, mem, ran⟩ := xcExec_runs (i := .sget x a sp w) rfl ready
    (setCoreG_leaves s x a (s.xs x sp.toNat w.toNat)) rfl rfl
  have g : (t.xcAt x).g = ((s.setCoreG (.xc x) a (s.xs x sp.toNat w.toNat)).xcAt x).g := by rw [ran.1]
  refine ⟨t, run, mem.trans ?_, ?_, fun r => ?_⟩
  · exact setCoreG_mem s (.xc x) a _
  · rwa [g]
  · rw [State.coreG, State.xg, g]
    exact coreG_setCoreG s (.xc x) a r _

/-- R68: word `k` of the 16 bytes that SLD reads. -/
theorem localBytes_word (s : State) (d x : Nat) {a k : Nat} (inside : a + 16 ≤ localTop) (hk : k < 4) :
    ((s.localBytes d x a 16).drop (4 * k)).take 4 = s.loadBytes (XC_MEM x + a + 4 * k) 4 := by
  rw [localBytes_eq_loadBytes s d x inside]
  exact memRead_drop_take s.mem _ (by omega)

theorem sld_loadsSpan {s : State} {x : Fin 144} (sp : BitVec 2) (b : BitVec 5)
    (ready : Ready s (.xc x) 1 2) (inside : alignLocal (s.xg x b.toNat) 16 + 16 ≤ localTop) :
    ∃ t, exec (.sld x sp b) s = .next t ∧ t.mem = s.mem ∧
      xcRan s t x 2 { s.xcAt x with sp := (t.xcAt x).sp } ∧
      ∀ p k, k < 4 → t.xs x p k =
        if p = sp.toNat then
          BitVec.ofNat 32 (s.loadNat (XC_MEM x + alignLocal (s.xg x b.toNat) 16 + 4 * k) 4)
        else s.xs x p k := by
  obtain ⟨t, run, mem, ran, words⟩ := xcExec_writesSpan (i := .sld x sp b) rfl ready
    ((draw_leaves s x).trans (each_setXs_leaves s.draw.2 x sp.toNat _ 4))
  refine ⟨t, run, mem, ran, fun p k hk => ?_⟩
  have word := localBytes_word s.draw.2 s.freeIx x inside hk
  refine (words p k).trans ((xs_each_setXs s.draw.2 x _ _ le_rfl hk).trans ?_)
  exact if_congr (and_iff_left hk) (congrArg (fun bs => BitVec.ofNat 32 (leNat bs)) word) rfl

/-- R68: the bytes of four words, word 0 first. -/
def spanBytes (v : Nat → Word) : List Byte := (List.range 4).flatMap fun w => leBytes 4 (v w).toNat

theorem spanBytes_length (v : Nat → Word) : (spanBytes v).length = 16 := rfl

theorem spanBytes_word (v : Nat → Word) {k : Nat} (hk : k < 4) :
    ((spanBytes v).drop (4 * k)).take 4 = leBytes 4 (v k).toNat := by
  interval_cases k <;> rfl

theorem sst_storesSpan {s : State} {x : Fin 144} (sp : BitVec 2) (b : BitVec 5)
    (ready : Ready s (.xc x) 1 2) (inside : alignLocal (s.xg x b.toNat) 16 + 16 ≤ localTop) :
    ∃ t, exec (.sst x sp b) s = .next t ∧ xcRan s t x 2 (s.xcAt x) ∧
      (∀ k, k < 4 →
        t.loadNat (XC_MEM x + alignLocal (s.xg x b.toNat) 16 + 4 * k) 4 = (s.xs x sp.toNat k).toNat) ∧
      MemBut s t (XC_MEM x + alignLocal (s.xg x b.toNat) 16) 16 := by
  have stored := localStore_eq_storeBytes s x (bs := spanBytes (s.xs x sp.toNat)) inside
  obtain ⟨t, run, mem, ran⟩ := xcExec_runs (i := .sst x sp b) rfl ready
    (stored ▸ storeBytes_leaves s x _ _) rfl rfl
  replace mem := mem.trans (congrArg State.mem stored)
  refine ⟨t, run, ran, fun k hk => ?_, fun y hy => ?_⟩
  · have part : 4 * k + 4 ≤ (spanBytes (s.xs x sp.toNat)).length := by
      rw [spanBytes_length]
      omega
    rw [State.loadNat, State.loadBytes, mem, storeBytes_mem, memRead_store_part _ _ _ part,
      spanBytes_word _ hk, leNat_leBytes]
    exact Nat.mod_eq_of_lt (s.xs x sp.toNat k).isLt
  · rw [mem, storeBytes_out _ _ _ _ hy]

/-- Settles O19: each instruction runs to its end, and its effect is the fill, the write of a word, or the
load or store of four words. -/
theorem tileStateInstructions : Obligations.TileStateInstructions := fun _ _ a b sp w =>
  ⟨clr_fills a,
   fun ready => ⟨setl_setsLevel a ready, sset_setsWord sp b w ready, sget_readsWord a sp w ready⟩,
   fun ready inside => ⟨sld_loadsSpan sp b ready inside, sst_storesSpan sp b ready inside⟩⟩

end Sys2Proof.Machine

/-!
The canonical form of registers and memory (O3): each function that a step is made of keeps it, in the order of the
model's text, and so does the step; and the small statements about the queue of commands and reset (O1, O2, O4, O5).
-/

namespace Sys2Proof.Machine

variable {s : State}

/-! ### How a state is put together -/

theorem State.Inv.ite {t : State} {c : Prop} [Decidable c] (hs : s.Inv) (ht : t.Inv) :
    (if c then s else t).Inv := by
  split
  · exact hs
  · exact ht

/-- The state of a pair that is taken apart. -/
theorem State.Inv.of_eq {α : Type} {p : α × State} {a : α} (h : p.2.Inv) (e : p = (a, s)) : s.Inv := by
  subst e
  exact h

theorem State.Inv.of_eq₂ {α β : Type} {p : α × β × State} {a : α} {b : β} (h : p.2.2.Inv) (e : p = (a, b, s)) :
    s.Inv := by
  subst e
  exact h

theorem State.Inv.ite_snd {α : Type} {p q : α × State} {c : Prop} [Decidable c] (hp : p.2.Inv) (hq : q.2.Inv) :
    (if c then p else q).2.Inv := by
  split
  · exact hp
  · exact hq

theorem State.Inv.ite_thd {α β : Type} {p q : α × β × State} {c : Prop} [Decidable c] (hp : p.2.2.Inv)
    (hq : q.2.2.Inv) : (if c then p else q).2.2.Inv := by
  split
  · exact hp
  · exact hq

theorem State.Inv.foldl {α : Type} {f : State → α → State} {xs : List α} (h : s.Inv)
    (hf : ∀ t a, t.Inv → (f t a).Inv) : (xs.foldl f s).Inv :=
  List.foldlRecOn xs f h fun t ht a _ => hf t a ht

theorem State.Inv.foldl_snd {α β : Type} {f : β × State → α → β × State} {xs : List α} {p : β × State} (h : p.2.Inv)
    (hf : ∀ p a, p.2.Inv → (f p a).2.Inv) : (xs.foldl f p).2.Inv :=
  List.foldlRecOn (motive := fun p => p.2.Inv) xs f h fun p hp a _ => hf p a hp

theorem State.Inv.foldl_thd {α β γ : Type} {f : β × γ × State → α → β × γ × State} {xs : List α} {p : β × γ × State}
    (h : p.2.2.Inv) (hf : ∀ p a, p.2.2.Inv → (f p a).2.2.Inv) : (xs.foldl f p).2.2.Inv :=
  List.foldlRecOn (motive := fun p => p.2.2.Inv) xs f h fun p hp a _ => hf p a hp

/-! ### Accesses that may end in an exception -/

/-- Both states of an access of a core are canonical: the one that it leaves, and the one that an exception or
a wait leaves instead. -/
def AccessInv (p : Option State × State) : Prop :=
  p.2.Inv ∧ ∀ u, p.1 = some u → u.Inv

theorem AccessInv.stop {u : State} (hu : u.Inv) (h : s.Inv) : AccessInv (some u, s) :=
  ⟨h, fun _ e => Option.some.inj e ▸ hu⟩

theorem AccessInv.go (h : s.Inv) : AccessInv (none, s) :=
  ⟨h, fun _ e => nomatch e⟩

theorem AccessInv.ite {p q : Option State × State} {c : Prop} [Decidable c] (hp : AccessInv p) (hq : AccessInv q) :
    AccessInv (if c then p else q) := by
  split
  · exact hp
  · exact hq

theorem AccessInv.of_eq {p : Option State × State} {o : Option State} (h : AccessInv p) (e : p = (o, s)) :
    s.Inv ∧ ∀ u, o = some u → u.Inv := by
  subst e
  exact h

/-- The same of a load, which also gives bytes. -/
def LoadInv (p : Option State × List Byte × State) : Prop :=
  p.2.2.Inv ∧ ∀ u, p.1 = some u → u.Inv

theorem LoadInv.stop {u : State} {bs : List Byte} (hu : u.Inv) (h : s.Inv) : LoadInv (some u, bs, s) :=
  ⟨h, fun _ e => Option.some.inj e ▸ hu⟩

theorem LoadInv.go {bs : List Byte} (h : s.Inv) : LoadInv (none, bs, s) :=
  ⟨h, fun _ e => nomatch e⟩

theorem LoadInv.ite {p q : Option State × List Byte × State} {c : Prop} [Decidable c] (hp : LoadInv p)
    (hq : LoadInv q) : LoadInv (if c then p else q) := by
  split
  · exact hp
  · exact hq

theorem LoadInv.of_eq {p : Option State × List Byte × State} {o : Option State} {bs : List Byte} (h : LoadInv p)
    (e : p = (o, bs, s)) : s.Inv ∧ ∀ u, o = some u → u.Inv := by
  subst e
  exact h

/-! ### The parts of a state -/

theorem State.Inv.reset : State.reset.Inv := ⟨rfl, rfl⟩

/-! ### Registers, counts, events and faults -/

theorem State.Inv.setReg {off v} (h : s.Inv) : (s.setReg off v).Inv :=
  ⟨Tbl.wf_set regReset s.regs off v h.1, h.2⟩

theorem State.Inv.setFld {off f x} (h : s.Inv) : (s.setFld off f x).Inv :=
  h.setReg

theorem State.Inv.setBit {off i b} (h : s.Inv) : (s.setBit off i b).Inv :=
  h.setFld

theorem State.Inv.count {off} (h : s.Inv) : (s.count off).Inv :=
  h.setReg

theorem State.Inv.setReg64 {lo hi x} (h : s.Inv) : (s.setReg64 lo hi x).Inv :=
  h.setReg.setReg

theorem State.Inv.onTop {f} (h : s.Inv) : (s.onTop f).Inv :=
  h

theorem State.Inv.onSi {f} (h : s.Inv) : (s.onSi f).Inv :=
  h

theorem State.Inv.onAdm {f} (h : s.Inv) : (s.onAdm f).Inv :=
  h

theorem State.Inv.onCk {f} (h : s.Inv) : (s.onCk f).Inv :=
  h

theorem State.Inv.onBoot {f} (h : s.Inv) : (s.onBoot f).Inv :=
  h

theorem State.Inv.onSt {f} (h : s.Inv) : (s.onSt f).Inv :=
  h

theorem State.Inv.onLc {f} (h : s.Inv) : (s.onLc f).Inv :=
  h

theorem State.Inv.onFs {f} (h : s.Inv) : (s.onFs f).Inv :=
  h

theorem State.Inv.onDs {f} (h : s.Inv) : (s.onDs f).Inv :=
  h

theorem State.Inv.onTb {f} (h : s.Inv) : (s.onTb f).Inv :=
  h

theorem State.Inv.onVe {f} (h : s.Inv) : (s.onVe f).Inv :=
  h

theorem State.Inv.onIp {f} (h : s.Inv) : (s.onIp f).Inv :=
  h

theorem State.Inv.onXc {x f} (h : s.Inv) : (s.onXc x f).Inv :=
  h

theorem State.Inv.onLane {n f} (h : s.Inv) : (s.onLane n f).Inv :=
  h

theorem State.Inv.onHub {k f} (h : s.Inv) : (s.onHub k f).Inv :=
  h

theorem State.Inv.onPort {n f} (h : s.Inv) : (s.onPort n f).Inv :=
  h

theorem State.Inv.onCtx {n f} (h : s.Inv) : (s.onCtx n f).Inv :=
  h

theorem State.Inv.onDma {n f} (h : s.Inv) : (s.onDma n f).Inv :=
  h

theorem State.Inv.onCc {k f} (h : s.Inv) : (s.onCc k f).Inv :=
  h

theorem State.Inv.onAx {a f} (h : s.Inv) : (s.onAx a f).Inv :=
  h

theorem State.Inv.onQe {q f} (h : s.Inv) : (s.onQe q f).Inv :=
  h

theorem State.Inv.onLe {f} (h : s.Inv) : (s.onLe f).Inv :=
  h

theorem State.Inv.onLoop {l f} (h : s.Inv) : (s.onLoop l f).Inv :=
  h

theorem State.Inv.onCv {u f} (h : s.Inv) : (s.onCv u f).Inv :=
  h

theorem State.Inv.onMc {f} (h : s.Inv) : (s.onMc f).Inv :=
  h

theorem State.Inv.onRank {k f} (h : s.Inv) : (s.onRank k f).Inv :=
  h

theorem State.Inv.onChan {c f} (h : s.Inv) : (s.onChan c f).Inv :=
  h

theorem State.Inv.each {n f} (h : s.Inv) (hf : ∀ x0 t, t.Inv → (f x0 t).Inv) : (s.each n f).Inv :=
  h.foldl fun _ _ h2 => hf _ _ h2

theorem State.Inv.draw (h : s.Inv) : s.draw.2.Inv :=
  h

theorem State.Inv.grant {key n winner} (h : s.Inv) : (s.grant key n winner).Inv :=
  h.onTop

theorem State.Inv.busGrant {m} (h : s.Inv) : (s.busGrant m).Inv := by
  unfold State.busGrant
  split
  · exact h.grant
  · exact h

theorem State.Inv.setPoison {line} (h : s.Inv) : (s.setPoison line).Inv :=
  h

theorem State.Inv.storeBytes {a bs} (h : s.Inv) : (s.storeBytes a bs).Inv :=
  ⟨h.1, memWf_store s.mem a bs h.2⟩

theorem State.Inv.clearBytes {a n} (h : s.Inv) : (s.clearBytes a n).Inv :=
  ⟨h.1, memWf_clear s.mem a n h.2⟩

theorem State.Inv.storeNat {a n x} (h : s.Inv) : (s.storeNat a n x).Inv :=
  h.storeBytes

theorem State.Inv.hwSet {off i} (h : s.Inv) : (s.hwSet off i).Inv :=
  h.setBit.onTop

theorem State.Inv.setPba {v b} (h : s.Inv) : (s.setPba v b).Inv :=
  h.setBit

theorem State.Inv.msixSend {v} (h : s.Inv) : (s.msixSend v).Inv :=
  h

theorem State.Inv.msixRequest {v} (h : s.Inv) : (s.msixRequest v).Inv :=
  .ite h.setPba (.ite h h.msixSend)

theorem State.Inv.routeHost {blk n} (h : s.Inv) : (s.routeHost blk n).Inv :=
  .ite h.msixRequest h

theorem State.Inv.setEvt {blk n} (h : s.Inv) : (s.setEvt blk n).Inv :=
  .ite h.hwSet.onTop (.ite h.hwSet.routeHost h.hwSet)

theorem State.Inv.routeNew {old blk} (h : s.Inv) : (s.routeNew old blk).Inv :=
  h.foldl fun _ _ h3 => .ite h3.routeHost h3

theorem State.Inv.queueFault {f} (h : s.Inv) : (s.queueFault f).Inv :=
  .ite h (.setEvt (.count h))

theorem State.Inv.raiseWith {code inst info lasting} (h : s.Inv) : (s.raiseWith code inst info lasting).Inv :=
  .ite h.queueFault h.queueFault

theorem State.Inv.countEvent {key n window} (h : s.Inv) : (s.countEvent key n window).2.Inv :=
  h

theorem State.Inv.clearEvents {key} (h : s.Inv) : (s.clearEvents key).Inv :=
  h

theorem State.Inv.fault {code inst info} (h : s.Inv) : (s.fault code inst info).Inv :=
  .ite h.countEvent.raiseWith h.raiseWith

theorem State.Inv.faultCounted {code inst info n window} (h : s.Inv) : (s.faultCounted code inst info n
    window).2.Inv :=
  h.countEvent.raiseWith

theorem State.Inv.ignored {off} (h : s.Inv) : (s.ignored off).Inv :=
  h.fault

theorem State.Inv.sramFault {a} (h : s.Inv) : (s.sramFault a).Inv :=
  h.fault

theorem State.Inv.poisonReport {line} (h : s.Inv) : (s.poisonReport line).Inv :=
  .ite h.sramFault h.count.setEvt.fault

theorem State.Inv.reportLines {a n} (h : s.Inv) : (s.reportLines a n).Inv :=
  h.foldl fun _ _ h2 => .ite h2.poisonReport h2

theorem State.Inv.denied {m a} (h : s.Inv) : (s.denied m a).Inv := by
  unfold State.denied
  split
  · exact h.fault.count
  · exact h.fault
  · exact h.fault

theorem State.Inv.unmapped {m a} (h : s.Inv) : (s.unmapped m a).Inv :=
  h.fault

theorem State.Inv.putBytes {a bs} (h : s.Inv) : (s.putBytes a bs).Inv :=
  h.storeBytes

theorem State.Inv.logUnmapped {m a n} (h : s.Inv) : (s.logUnmapped m a n).Inv := by
  unfold State.logUnmapped
  split
  · exact h.unmapped
  · exact h

theorem State.Inv.memLoad {m a n} (h : s.Inv) : (s.memLoad m a n).2.Inv := by
  unfold State.memLoad
  split
  · exact h.reportLines.logUnmapped
  · exact h.denied

theorem State.Inv.memSave {m a bs} (h : s.Inv) : (s.memSave m a bs).Inv :=
  .ite (h.foldl (fun _ _ h2 => .ite h2 h2.putBytes)).logUnmapped h.denied

theorem State.Inv.whenClocked {blk f} (h : s.Inv) (hf : ∀ t, t.Inv → (f t).Inv) : (s.whenClocked blk f).Inv :=
  .ite (hf _ h) h

theorem State.Inv.asleep {off} (h : s.Inv) : (s.asleep off).Inv :=
  h.fault

theorem State.Inv.whenAwake {off f} (h : s.Inv) (hf : ∀ t, t.Inv → (f t).Inv) : (s.whenAwake off f).Inv :=
  .ite (hf _ h) h.asleep

theorem State.Inv.regGuard {m off write f} (h : s.Inv) (hf : ∀ t, t.Inv → (f t).Inv) : (s.regGuard m off write
    f).Inv :=
  .ite (hf _ h.busGrant) h.denied

theorem State.Inv.setUnit {u v} (h : s.Inv) : (s.setUnit u v).Inv :=
  h.setFld

theorem State.Inv.typedWrite {off v} (h : s.Inv) : (s.typedWrite off v).Inv := by
  unfold State.typedWrite
  split
  · exact h
  · exact .ite h.setReg.fault h.setReg

theorem State.Inv.evtWrite {blk v} (h : s.Inv) : (s.evtWrite blk v).Inv :=
  h.typedWrite.onTop.foldl fun _ _ h2 => .ite h2.routeHost h2

/-! ### Addresses of DRAM -/

theorem State.Inv.setSr {c r v} (h : s.Inv) : (s.setSr c r v).Inv :=
  h.setFld

theorem State.Inv.srLeaves {c r} (h : s.Inv) : (s.srLeaves c r).Inv :=
  h.setSr.onRank

theorem State.Inv.disturb {c r} (h : s.Inv) : (s.disturb c r).Inv :=
  .ite h.onRank.setSr.count (.ite h.onRank.srLeaves h.onRank)

theorem State.Inv.dramWake {chan a n write} (h : s.Inv) : (s.dramWake chan a n write).Inv := by
  unfold State.dramWake
  exact .ite h (h.foldl (fun _ _ h2 => by split; exact h2.disturb))

theorem State.Inv.dimmCommand {c r line} (h : s.Inv) : (s.dimmCommand c r line).Inv :=
  h.onChan

theorem State.Inv.closeRows {c r} (h : s.Inv) : (s.closeRows c r).Inv :=
  h.onRank

theorem State.Inv.burst {c r line hint} (h : s.Inv) : (s.burst c r line hint).Inv :=
  (h.foldl (fun _ _ h2 => h2.dimmCommand)).onRank

theorem State.Inv.portGrant {c port src} (h : s.Inv) : (s.portGrant c port src).Inv :=
  h.grant.grant

theorem State.Inv.schedule {c xs} (h : s.Inv) : (s.schedule c xs).2.Inv := by
  unfold State.schedule
  extract_lets _
  split
  · exact h
  · extract_lets _
    split
    · exact h
    · split
      · exact h
      · exact .ite h.portGrant.count h.portGrant

theorem State.Inv.drainOne {c i} (h : s.Inv) : (s.drainOne c i).Inv := by
  unfold State.drainOne
  split
  · exact h
  · exact h.onChan.foldl fun _ _ h2 => h2.burst

theorem State.Inv.acceptWrite {port src hint a n} (h : s.Inv) : (s.acceptWrite port src hint a n).Inv :=
  h.foldl fun _ _ h2 => h2.foldl (fun _ _ h3 => h3.onChan)

theorem State.Inv.issueRead {chan hint a n} (h : s.Inv) : (s.issueRead chan hint a n).Inv := by
  unfold State.issueRead
  exact h.foldl fun _ _ h2 => h2.foldl fun _ _ h3 => by
    split
    · exact .ite h3.onRank h3.burst

theorem State.Inv.dramQueue {port src a hint op} (h : s.Inv) : (s.dramQueue port src a hint op).Inv :=
  h.onMc

theorem State.Inv.dramEnter (h : s.Inv) : s.dramEnter.Inv := by
  unfold State.dramEnter
  exact h.foldl fun _ _ h2 => by split; exact .ite h2 h2.onMc

theorem State.Inv.onlyThis {port src} (h : s.Inv) : (s.onlyThis port src).Inv :=
  .ite h.onMc h

theorem State.Inv.dramStall {port src a n write hint} (h : s.Inv) :
    ∀ t, s.dramStall port src a n write hint = some t → t.Inv := by
  intro t e
  unfold State.dramStall at e
  extract_lets b c at e
  split at e
  · split at e
    · cases e
    · split at e
      · cases e; exact h
      · split at e
        · cases e; exact h.dramWake.onlyThis.dramQueue
        · cases e
  · cases e

theorem State.Inv.dramUse {port hint a n write} (h : s.Inv) : (s.dramUse port hint a n write).Inv :=
  .ite (.ite (.ite h.onMc.dramWake.acceptWrite h.onMc) (.ite h.portGrant.acceptWrite h.portGrant.issueRead)) h

theorem State.Inv.dramStalls {port write hint xs} (h : s.Inv) :
    ∀ t, s.dramStalls port write hint xs = some t → t.Inv := by
  unfold State.dramStalls
  refine List.foldlRecOn (motive := fun o : Option State => ∀ t, o = some t → t.Inv) _ _ (by simp)
    fun o ih p _ t e => ?_
  have now : (o.getD s).Inv := by
    cases o with
    | none => exact h
    | some u => exact ih u rfl
  split at e
  · next e' => cases e; exact now.dramStall _ e'
  · exact ih t e

theorem State.Inv.dramReads {port hint xs} (h : s.Inv) : (s.dramReads port hint xs).Inv :=
  h.foldl fun _ _ h2 => h2.dramUse

theorem State.Inv.dramTouch {port hint a n} (h : s.Inv) : (s.dramTouch port hint a n).Inv :=
  h.foldl fun _ _ h2 => .ite (.ite h2.dramWake h2.portGrant.issueRead) h2

theorem State.Inv.dramPut {port src a hint bs} (h : s.Inv) : (s.dramPut port src a hint bs).Inv :=
  .ite h.dramWake.dramQueue h.portGrant.acceptWrite.storeBytes

theorem State.Inv.writeBack {line} (h : s.Inv) : (s.writeBack line).Inv :=
  .ite (.ite h h.dramWake.dramQueue) h.portGrant.acceptWrite

theorem State.Inv.blockUnmapped {blk a n} (h : s.Inv) : (s.blockUnmapped blk a n).Inv := by
  unfold State.blockUnmapped
  split
  · exact h.fault
  · exact h

theorem State.Inv.blockSave {blk a bs src} (h : s.Inv) : (s.blockSave blk a bs src).Inv := by
  unfold State.blockSave
  exact (h.foldl (fun _ _ h2 => by split; exacts [h2, h2, h2.dramPut, h2.putBytes])).blockUnmapped

/-! ### Job tables -/

theorem State.Inv.setSlotState {j v} (h : s.Inv) : (s.setSlotState j v).Inv :=
  h.setFld

theorem State.Inv.setJob {j o} (h : s.Inv) : (s.setJob j o).Inv :=
  h.onAdm

/-! ### Units and their classes -/

theorem State.Inv.stDone {result} (h : s.Inv) : (s.stDone result).Inv :=
  h.setFld.setFld.setEvt

theorem State.Inv.stFault {code u} (h : s.Inv) : (s.stFault code u).Inv :=
  h.draw.fault

theorem State.Inv.capChanged (h : s.Inv) : s.capChanged.Inv :=
  .ite h h.setFld.onAdm

theorem State.Inv.followCap {u} (h : s.Inv) : (s.followCap u).Inv :=
  .ite h.capChanged h

theorem State.Inv.testLeaves {u} (h : s.Inv) : (s.testLeaves u).Inv :=
  .ite h.clearBytes (.ite ((h.each (fun _ _ h2 => h2.onIp)).clearBytes).clearBytes h)

theorem State.Inv.abandonTest {u} (h : s.Inv) : (s.abandonTest u).Inv := by
  unfold State.abandonTest
  split
  · exact h
  · extract_lets _ s1 _ s2 s3
    have h1 : s1.Inv := .ite h.onSt.testLeaves h.onSt
    have h2 : s2.Inv := h1.setUnit.setFld
    have h3 : s3.Inv := h2.setEvt.count.stFault
    exact .ite h3 h3.stDone

theorem State.Inv.moveUnit {u v} (h : s.Inv) : (s.moveUnit u v).Inv :=
  .followCap (.ite (h.setUnit.each (fun _ _ h2 => .ite h2 h2.abandonTest)) h.setUnit)

/-! ### Rates -/

theorem State.Inv.admitCmd {j} (h : s.Inv) : (s.admitCmd j).Inv :=
  .ite h.setSlotState.setFld h.ignored

/-! ### Waking domains -/

theorem State.Inv.setDomState {d v} (h : s.Inv) : (s.setDomState d v).Inv :=
  h.setFld

theorem State.Inv.wakeBegin {d fromOff} (h : s.Inv) : (s.wakeBegin d fromOff).Inv :=
  h.onCk.setDomState

theorem State.Inv.entryStopped {e} (h : s.Inv) : (s.entryStopped e).2.Inv := by
  unfold State.entryStopped
  split
  · exact h
  · exact h.draw

theorem State.Inv.wakeDom {d} (h : s.Inv) : (s.wakeDom d).Inv := by
  unfold State.wakeDom
  split
  · exact .ite h.entryStopped.onCk h.entryStopped.onCk.setDomState
  · exact .ite h.wakeBegin h

theorem State.Inv.requestLoses {d} (h : s.Inv) : (s.requestLoses d).Inv :=
  h.fault

theorem State.Inv.undoLowered {d} (h : s.Inv) : (s.undoLowered d).Inv := by
  unfold State.undoLowered
  split
  · split
    · extract_lets _ s1 s2
      have h1 : s1.Inv := h.setReg.onCk
      have h2 : s2.Inv := by
        unfold s2
        split
        · exact .ite h1.onCk.setDomState h1.setDomState
        · exact h1.setDomState
      exact h2.requestLoses
    · exact h
  · exact h

theorem State.Inv.sourceWakes {d} (h : s.Inv) : (s.sourceWakes d).Inv :=
  h.undoLowered.setFld.onCk.wakeDom

theorem State.Inv.wakeSource {src} (h : s.Inv) : (s.wakeSource src).Inv :=
  h.each fun _ _ h2 => .ite h2.sourceWakes h2

/-! ### Time -/

theorem State.Inv.stampCross {cause} (h : s.Inv) : (s.stampCross cause).Inv :=
  h.onTb.setFld.setFld.setEvt

theorem State.Inv.setTp {n t} (h : s.Inv) : (s.setTp n t).Inv :=
  h.onTb

theorem State.Inv.tpBegin {n endAt} (h : s.Inv) : (s.tpBegin n endAt).Inv :=
  h.setTp.setFld

theorem State.Inv.tpFinish {n} (h : s.Inv) : (s.tpFinish n).Inv :=
  .ite h.setFld h.setFld.setFld

theorem State.Inv.tpArm {n} (h : s.Inv) : (s.tpArm n).Inv :=
  h.setTp

theorem State.Inv.tpStep {v0 v n} (h : s.Inv) : (State.tpStep v0 v n s).Inv := by
  unfold State.tpStep
  split
  · exact .ite (.setTp (.ite h.tpFinish h)) (.ite h.tpFinish h)
  · split
    · extract_lets _ _ s1
      have h1 : s1.Inv := .ite h.tpBegin.hwSet.setEvt.fault (.ite h.tpBegin h)
      exact .ite h1.setTp h1
    · exact h

theorem State.Inv.tbAdvance (h : s.Inv) : s.tbAdvance.Inv := by
  unfold State.tbAdvance
  extract_lets s1 v0 _ stepped
  have h1 : s1.Inv := h.onTb
  clear_value stepped
  split
  · exact h1
  · exact h1.onTb.setEvt.stampCross.each fun _ _ h => h.tpStep

theorem State.Inv.compareAt {m} (h : s.Inv) : (s.compareAt m).Inv :=
  .ite h.setFld.setEvt.wakeSource h

theorem State.Inv.pulseStart {n} (h : s.Inv) : (s.pulseStart n).Inv :=
  .ite h.tpBegin h

theorem State.Inv.pulseEnd {n} (h : s.Inv) : (s.pulseEnd n).Inv :=
  .ite h.tpFinish h

theorem State.Inv.crossDue (h : s.Inv) : s.crossDue.Inv :=
  .ite h.onTb.stampCross h

theorem State.Inv.tbTick (h : s.Inv) : s.tbTick.Inv :=
  (h.tbAdvance.crossDue.each (fun _ _ h2 => h2.compareAt)).each fun _ _ h2 => h2.pulseEnd.pulseStart

theorem State.Inv.tbIncWrite {v} (h : s.Inv) : (s.tbIncWrite v).Inv :=
  h.typedWrite.onTb.stampCross

theorem State.Inv.tbSetWrite {v} (h : s.Inv) : (s.tbSetWrite v).Inv :=
  h.typedWrite.onTb

theorem State.Inv.tbAdjWrite {v} (h : s.Inv) : (s.tbAdjWrite v).Inv :=
  h.typedWrite.onTb

theorem State.Inv.latchNow {flat} (h : s.Inv) : (s.latchNow flat).Inv :=
  .setReg (.setReg (.setReg (.setReg (.ite h.setReg h.setReg))))

theorem State.Inv.latchXs (h : s.Inv) : s.latchXs.Inv :=
  h.setReg.setReg.setReg.each fun _ _ h2 => h2.setReg

theorem State.Inv.tbXsWrite {v} (h : s.Inv) : (s.tbXsWrite v).Inv :=
  .ite h.stampCross h

theorem State.Inv.cmpCtlWrite {m v} (h : s.Inv) : (s.cmpCtlWrite m v).Inv :=
  .ite h.typedWrite.onTb h.typedWrite

/-! ### Ethernet -/

theorem State.Inv.enDiscard {e} (h : s.Inv) : (s.enDiscard e).Inv :=
  h.count.fault

theorem State.Inv.enReceive {e f} (h : s.Inv) : (s.enReceive e f).Inv := by
  unfold State.enReceive
  extract_lets ix d ptp
  split
  next e =>
    have h1 := h.memLoad.of_eq e
    extract_lets _ _ s2 _ _ _ s3 s4 s5
    have h4 : s4.Inv := h1.memSave.memSave.setReg
    have h5 : s5.Inv := .ite h4.setFld.setFld.setEvt (.ite h4.count h4)
    exact h5.setEvt

/-! ### The host interface -/

theorem State.Inv.doorbellWrite {n v} (h : s.Inv) : (s.doorbellWrite n v).Inv :=
  h.setReg.setEvt.wakeSource

theorem State.Inv.swevtWrite {v} (h : s.Inv) : (s.swevtWrite v).Inv :=
  h.each fun _ _ h2 => .ite h2.setEvt h2

/-! ### Cameras -/

theorem State.Inv.showLines {n} (h : s.Inv) : (s.showLines n).Inv :=
  h.setFld

theorem State.Inv.unverify {n test reason} (h : s.Inv) : (s.unverify n test reason).Inv :=
  .ite h.onPort h.onPort.setReg.setEvt

theorem State.Inv.ageEntries {n} (h : s.Inv) : (s.ageEntries n).Inv :=
  h.unverify

theorem State.Inv.camTrigger {n ln tick missing} (h : s.Inv) : (s.camTrigger n ln tick missing).Inv :=
  .ite h (.ite h.onPort.count.setEvt h.onPort)

theorem State.Inv.closeShort {n} (h : s.Inv) : (s.closeShort n).Inv := by
  unfold State.closeShort
  split
  · exact .ite h.count.fault h
  · exact h

theorem State.Inv.lineDone {n f} (h : s.Inv) : (s.lineDone n f).Inv := by
  unfold State.lineDone
  split
  · exact h.onPort

theorem State.Inv.storeLine {n e slot} (h : s.Inv) : (s.storeLine n e slot).Inv :=
  .ite h.storeBytes.onPort.count.fault (.ite h.storeBytes.onPort.count.fault h.storeBytes.onPort)

theorem State.Inv.receiveLine {n} (h : s.Inv) : (s.receiveLine n).Inv := by
  unfold State.receiveLine
  extract_lets s1 p inWin pend s2
  have h1 : s1.Inv := h.ageEntries
  split
  · exact h1.lineDone
  · exact h1.lineDone
  · refine .ite h1.lineDone.count.fault (.ite h1.lineDone (.ite h1.lineDone.count.setEvt.fault ?_))
    extract_lets found
    clear_value found
    split
    · exact h1.unverify.storeLine.lineDone
    · exact .ite h1.count.lineDone.fault h1.count.lineDone
    · exact h1.lineDone.count.setEvt.fault

theorem State.Inv.camTouched {n} (h : s.Inv) : (s.camTouched n).Inv :=
  h.setFld.showLines

theorem State.Inv.mbxEnd {n result} (h : s.Inv) : (s.mbxEnd n result).Inv :=
  h.onPort.setFld.setFld.setEvt

theorem State.Inv.mbxCmdWrite {n v} (h : s.Inv) : (s.mbxCmdWrite n v).Inv :=
  .ite h.typedWrite (.ite h.fault (.ite h.typedWrite.mbxEnd h.typedWrite.onPort.setFld))

/-! ### Defect records -/

theorem State.Inv.emit {d} (h : s.Inv) : (s.emit d).Inv :=
  .ite h.onVe h

theorem State.Inv.addStamp {ln at_} (h : s.Inv) : (s.addStamp ln at_).Inv :=
  h.onVe

theorem State.Inv.gapEmit {k g} (h : s.Inv) : (s.gapEmit k g).Inv :=
  (h.foldl (fun _ _ h2 => h2.emit)).onVe

theorem State.Inv.gapOpen {k line cls} (h : s.Inv) : (s.gapOpen k line cls).Inv := by
  unfold State.gapOpen
  split
  · exact .ite h.gapEmit h
  · exact h.gapEmit.setFld

theorem State.Inv.gapClose {k line} (h : s.Inv) : (s.gapClose k line).Inv := by
  unfold State.gapClose
  split
  · exact h
  · exact ((h.foldl (fun _ _ h2 => h2.emit)).onVe).setFld

theorem State.Inv.gapMiss {n line} (h : s.Inv) : (s.gapMiss n line).Inv :=
  h.emit

theorem State.Inv.skipEnd (h : s.Inv) : s.skipEnd.Inv := by
  unfold State.skipEnd
  split
  · exact h
  · exact h.emit.onVe

theorem State.Inv.skipLine {line cls} (h : s.Inv) : (s.skipLine line cls).Inv := by
  unfold State.skipLine
  split
  · exact h.skipEnd
  · exact .ite h.onVe h.skipEnd.onVe
  · exact h.onVe

theorem State.Inv.varMiss {p lane f} (h : s.Inv) : (s.varMiss p lane f).Inv :=
  .ite h h.onVe.emit

theorem State.Inv.unresolved {key width} (h : s.Inv) : (s.unresolved key width).Inv :=
  h.emit

theorem State.Inv.fireLine {line} (h : s.Inv) : (s.fireLine line).Inv :=
  h.storeNat

theorem State.Inv.fireHub {line k on} (h : s.Inv) : (s.fireHub line k on).Inv :=
  h.storeNat

theorem State.Inv.fireMiss {line n} (h : s.Inv) : (s.fireMiss line n).Inv :=
  .ite h.storeNat h

theorem State.Inv.putRecord {d} (h : s.Inv) : (s.putRecord d).Inv :=
  h.blockSave.onVe.setReg.count.setEvt

/-! ### Heads -/

theorem State.Inv.enterLimit {k} (h : s.Inv) : (s.enterLimit k).Inv :=
  .ite h h.setFld.setFld.setEvt.fault

theorem State.Inv.slotTemp {n reading} (h : s.Inv) : (s.slotTemp n reading).Inv :=
  .ite h (.ite h.setFld.setFld.setFld.setEvt h.setFld.setFld.setFld)

theorem State.Inv.hubTemps {k temps} (h : s.Inv) : (s.hubTemps k temps).Inv := by
  unfold State.hubTemps
  extract_lets s1 _ s2
  have h1 : s1.Inv := h.foldl fun _ _ h2 => by split; exact h2.slotTemp
  have h2 : s2.Inv := .ite h1.enterLimit h1
  exact .ite h2.setFld h2

theorem State.Inv.leaveLimit {k} (h : s.Inv) : (s.leaveLimit k).Inv :=
  h.setFld.setFld.setEvt

theorem State.Inv.limitLine {k} (h : s.Inv) : (s.limitLine k).Inv :=
  .ite h.leaveLimit (.ite h.setFld h)

/-! ### The dose link -/

theorem State.Inv.setMode {k v} (h : s.Inv) : (s.setMode k v).Inv :=
  h.setFld

theorem State.Inv.dlViolation {n row} (h : s.Inv) : (s.dlViolation n row).Inv :=
  h.count.fault

theorem State.Inv.sendPlain {n typ body} (h : s.Inv) : (s.sendPlain n typ body).Inv :=
  h.onLane

theorem State.Inv.sendSync {n nln} (h : s.Inv) : (s.sendSync n nln).Inv :=
  .ite h.sendPlain.onFs h.sendPlain

theorem State.Inv.syncHub {k nln} (h : s.Inv) : (s.syncHub k nln).Inv :=
  h.foldl fun _ _ h2 => h2.sendSync

theorem State.Inv.holdHub {k} (h : s.Inv) : (s.holdHub k).Inv :=
  h.setFld.onFs.syncHub

theorem State.Inv.sendCtrl {n ctype arg count value data kind} (h : s.Inv) : (s.sendCtrl n ctype arg count
    value data kind).Inv :=
  h.onLane.sendPlain

theorem State.Inv.sendFrac {n copy slot} (h : s.Inv) : (s.sendFrac n copy slot).Inv :=
  h.sendCtrl

theorem State.Inv.sendFracs {n copy} (h : s.Inv) : (s.sendFracs n copy).Inv :=
  .ite (h.foldl (fun _ _ h2 => h2.sendFrac)) h

theorem State.Inv.sendFracsNow {n} (h : s.Inv) : (s.sendFracsNow n).Inv :=
  .ite h.sendFracs.sendFracs h.sendFracs

theorem State.Inv.sendSlotFracs {slot} (h : s.Inv) : (s.sendSlotFracs slot).Inv :=
  .ite (h.foldl (fun _ _ h2 => .ite h2.sendFrac.sendFrac h2.sendFrac)) h

theorem State.Inv.sendFracsAll {copy} (h : s.Inv) : (s.sendFracsAll copy).Inv :=
  h.each fun _ _ h2 => .ite h2.sendFracs h2

theorem State.Inv.sendDose {n p rpl} (h : s.Inv) : (s.sendDose n p rpl).Inv :=
  .ite h.storeBytes.onLane.onLane.onLane.count h.storeBytes.onLane.onLane.onLane

theorem State.Inv.handOver {p} (h : s.Inv) : (s.handOver p).Inv := by
  unfold State.handOver
  split
  · exact h
  · exact .ite h.onLane h

theorem State.Inv.lanePhase {n st ctl} (h : s.Inv) : (s.lanePhase n st ctl).Inv :=
  h.setFld.onLane

theorem State.Inv.laneAttempt {n} (h : s.Inv) : (s.laneAttempt n).Inv :=
  h.lanePhase.setFld.setFld.onLane

theorem State.Inv.laneBegin {n rejoin} (h : s.Inv) : (s.laneBegin n rejoin).Inv :=
  h.setFld.onLane.laneAttempt

theorem State.Inv.laneFail {n} (h : s.Inv) : (s.laneFail n).Inv := by
  unfold State.laneFail
  extract_lets k m l soon pkts s1 s2 s3 s4 s5 s6 s7 s8
  have h2 : s2.Inv := h.lanePhase.onLane
  have h3 : s3.Inv := .ite h2.setFld.setFld h2
  have h5 : s5.Inv := h3.setMode.onHub.foldl fun _ _ h => h.sendDose
  have h6 : s6.Inv := .ite h5.onLane h3.setMode.onHub
  have h7 : s7.Inv := h6.setEvt.fault.abandonTest
  exact .ite (.ite h7.abandonTest h7.abandonTest.laneBegin) h7

theorem State.Inv.laneCrc {n} (h : s.Inv) : (s.laneCrc n).Inv :=
  .ite h.onLane.count.faultCounted.laneFail h.onLane.count.faultCounted

theorem State.Inv.goOnline {k} (h : s.Inv) : (s.goOnline k).Inv :=
  .ite h.onHub (h.onHub.setFld.setEvt.foldl (fun _ _ h2 => h2.sendFracsNow)).syncHub

theorem State.Inv.holdCaps {k c} (h : s.Inv) : (s.holdCaps k c).Inv :=
  h.setReg.setFld.setFld.setFld.setFld.onHub

theorem State.Inv.capsComplete {n} (h : s.Inv) : (s.capsComplete n).Inv := by
  unfold State.capsComplete
  extract_lets _ _ _ s1 _
  have h1 : s1.Inv := by
    unfold s1
    split
    · exact .ite h.onLane.holdCaps h.onLane.dlViolation.holdCaps
    · exact h.onLane.holdCaps
  exact .ite h1.lanePhase.onLane h1.lanePhase.onLane

theorem State.Inv.laneUp {n} (h : s.Inv) : (s.laneUp n).Inv := by
  unfold State.laneUp
  extract_lets _ s1 _ s2
  have h1 : s1.Inv := h.lanePhase.clearEvents
  have h2 : s2.Inv := .ite h1.onLane.onHub h1.onLane.setMode
  exact .ite h2.sendFracsNow h2.goOnline

theorem State.Inv.laneCfgWrite {n v} (h : s.Inv) : (s.laneCfgWrite n v).Inv := by
  unfold State.laneCfgWrite
  extract_lets _ _
  split
  · exact .ite h.typedWrite.laneBegin h.typedWrite
  · exact .onLane (.lanePhase (.ite h.typedWrite.laneFail h.typedWrite))
  · exact h.typedWrite

theorem State.Inv.padCheck {n pad} (h : s.Inv) : (s.padCheck n pad).Inv :=
  .ite h h.dlViolation

theorem State.Inv.cfgwWrite {k v} (h : s.Inv) : (s.cfgwWrite k v).Inv := by
  unfold State.cfgwWrite
  exact .ite (by split; exacts [h.sendCtrl.onHub.setFld.setFld, h]) h

theorem State.Inv.leadNow (h : s.Inv) : s.leadNow.2.Inv := by
  unfold State.leadNow
  split
  · exact h
  · exact h.draw

theorem State.Inv.laneTestDrain {n} (h : s.Inv) : (s.laneTestDrain n).Inv :=
  .ite h.lanePhase.setMode.onHub h

theorem State.Inv.hubAck {n ack} (h : s.Inv) : (s.hubAck n ack).Inv :=
  .ite h.dlViolation (.ite h.onLane.setFld h.onLane)

theorem State.Inv.hubNack {n nseq} (h : s.Inv) : (s.hubNack n nseq).Inv := by
  unfold State.hubNack
  extract_lets hit s1
  have h1 : s1.Inv := h.laneCrc
  clear_value hit
  split
  · exact h.dlViolation.laneCrc
  · split
    · exact h1
    · split
      · exact h1.sendDose
      · exact h1

theorem State.Inv.hubMiss {n mslot mln} (h : s.Inv) : (s.hubMiss n mslot mln).Inv :=
  .ite h.dlViolation (h.count.foldl (fun _ _ h2 => .ite h2.gapMiss.fireMiss h2))

theorem State.Inv.sopCheck {n p} (h : s.Inv) : (s.sopCheck n p).2.Inv := by
  unfold State.sopCheck
  extract_lets _
  split
  · exact h.padCheck.dlViolation
  · split
    · exact h.padCheck.dlViolation
    · split
      · exact h.padCheck.dlViolation
      · split
        · exact h.padCheck.dlViolation
        · exact h.padCheck

theorem State.Inv.dlLine {ln} (h : s.Inv) : (s.dlLine ln).Inv := by
  unfold State.dlLine
  refine State.Inv.each (h.each fun k t ht => ?_) fun n t ht => ?_
  · extract_lets t1 t2
    have h1 : t1.Inv := by
      unfold t1
      split
      · exact .ite (.ite ht.setMode.onHub.setEvt ht.setMode.onHub) ht
      · exact ht
    exact .ite h1.onHub.syncHub h1.onHub
  · extract_lets l t1 t2
    have h1 : t1.Inv := .ite ht ht.onLane
    have h2 : t2.Inv := .ite h1.sendSync h1
    exact h2.laneTestDrain

/-! ### Doses -/

theorem State.Inv.onSlot {n f} (h : s.Inv) : (s.onSlot n f).Inv :=
  h.onDs

theorem State.Inv.slewBeam {b line first} (h : s.Inv) : (s.slewBeam b line first).Inv :=
  .ite (.storeBytes (.ite h.onDs h)) (.ite h.onDs h)

theorem State.Inv.slotPacket {p x} (h : s.Inv) : (s.slotPacket p x).Inv := by
  unfold State.slotPacket
  extract_lets _ _ _ _ s1 _ _ _ _ s2
  have h1 : s1.Inv := h.foldl fun _ _ h2 => h2.slewBeam
  have h2 : s2.Inv := .ite h1.onSlot.count h1.onSlot
  exact h2.draw.setFld.handOver

theorem State.Inv.switchDone {w} (h : s.Inv) : (s.switchDone w).Inv :=
  (((((h.setFld.each (fun _ _ h2 => h2.setFld)).setFld).setFld).onDs).count).setEvt

theorem State.Inv.switchCheck (h : s.Inv) : s.switchCheck.Inv := by
  unfold State.switchCheck
  split
  · exact h
  · exact .ite h.switchDone h

theorem State.Inv.commitRefused {result} (h : s.Inv) : (s.commitRefused result).Inv :=
  h.onDs.setFld.setFld.setEvt

theorem State.Inv.commitAccepted {t} (h : s.Inv) : (s.commitAccepted t).Inv := by
  unfold State.commitAccepted
  extract_lets copy msel
  split
  extract_lets s1 s2 s3 s4
  have h2 : s2.Inv := State.Inv.foldl h.onDs fun _ _ h => h.count.fault
  have h3 : s3.Inv := h2.foldl fun _ _ h => h.count.fault
  have h4 : s4.Inv := .ite h3 h3.setEvt
  exact h4.sendFracsAll.switchCheck

theorem State.Inv.commitWrite (h : s.Inv) : s.commitWrite.Inv :=
  .ite h.ignored h.onDs.setFld

theorem State.Inv.holdSet {on} (h : s.Inv) : (s.holdSet on).Inv :=
  .ite h.setFld h.setFld.setFld

theorem State.Inv.slotReads {n line} (h : s.Inv) : (s.slotReads n line).Inv := by
  unfold State.slotReads
  extract_lets t en s1 s2 s3 warm s4
  have h1 : s1.Inv := h.onSlot
  have h2 : s2.Inv := .ite (.ite h1.onDs.sendSlotFracs h1) h
  have h3 : s3.Inv := h2.onSlot
  have h4 : s4.Inv := .ite h3.setFld.setEvt h3
  exact .ite h4.setFld h2

theorem State.Inv.abandon {p} (h : s.Inv) : (s.abandon p).Inv :=
  h.onLc.count.setEvt.fault

theorem State.Inv.addSet {p} (h : s.Inv) : (s.addSet p).Inv := by
  unfold State.addSet
  split
  · exact h.abandon.onDs
  · exact h.onDs

theorem State.Inv.dsLine {x} (h : s.Inv) : (s.dsLine x).Inv := by
  unfold State.dsLine
  extract_lets s1
  have h1 : s1.Inv := .ite h.setFld.setEvt h
  split
  · exact .switchCheck (.ite (h1.each (fun _ _ h3 => h3.slotReads)) (h1.each (fun _ _ h3 =>
      h3.slotReads)).addSet)

/-! ### Line and axis -/

theorem State.Inv.lcTake (h : s.Inv) : s.lcTake.Inv :=
  h.onLc

theorem State.Inv.placeNext {t tap forward} (h : s.Inv) : (s.placeNext t tap forward).Inv :=
  .ite h h.onLc

theorem State.Inv.trackReverse (h : s.Inv) : s.trackReverse.Inv :=
  .ite h.onLc.setFld (.ite h.setFld.setEvt h)

theorem State.Inv.lcMove {units tap} (h : s.Inv) : (s.lcMove units tap).Inv :=
  .ite h h.onLc.trackReverse.placeNext

theorem State.Inv.lcTimerTick (h : s.Inv) : s.lcTimerTick.Inv :=
  .ite h.lcMove h

theorem State.Inv.placeAgain (h : s.Inv) : s.placeAgain.Inv := by
  unfold State.placeAgain
  extract_lets _
  split
  · exact h.onLc.onLc
  · exact h.onLc.placeNext
  · exact h.onLc

theorem State.Inv.lcSetWrite {hi} (h : s.Inv) : (s.lcSetWrite hi).Inv :=
  .ite (h.setReg.onLc.setFld.each (fun _ _ h2 => h2.onLoop)) h.ignored

/-! ### Axes -/

theorem State.Inv.setAxState {a v} (h : s.Inv) : (s.setAxState a v).Inv :=
  h.setFld

theorem State.Inv.axFlag {a f} (h : s.Inv) : (s.axFlag a f).Inv :=
  h.hwSet.setEvt

theorem State.Inv.setVel {a v} (h : s.Inv) : (s.setVel a v).Inv :=
  h.onAx.setReg

theorem State.Inv.setRun {a r} (h : s.Inv) : (s.setRun a r).Inv :=
  h.onAx

theorem State.Inv.axArrive {a} (h : s.Inv) : (s.axArrive a).Inv :=
  h.setVel.setRun

theorem State.Inv.showLag {a} (h : s.Inv) : (s.showLag a).Inv :=
  h.setFld

theorem State.Inv.dropSteps {a} (h : s.Inv) : (s.dropSteps a).Inv :=
  .showLag (.ite h h.onAx)

theorem State.Inv.hardStopAt {a} (h : s.Inv) : (s.hardStopAt a).Inv :=
  h.axArrive.dropSteps

theorem State.Inv.beginSeg {a i p0 v0} (h : s.Inv) : (s.beginSeg a i p0 v0).Inv :=
  h.setRun.setFld

theorem State.Inv.segInUse {a g} (h : s.Inv) : (s.segInUse a g).2.Inv := by
  unfold State.segInUse
  extract_lets _
  split
  · exact h
  · exact h.draw

theorem State.Inv.issueSteps {a n} (h : s.Inv) : (s.issueSteps a n).Inv :=
  .ite h.setReg.onAx.setFld.lcMove h.setReg.onAx.setFld

theorem State.Inv.follow {a} (h : s.Inv) : (s.follow a).Inv :=
  .showLag (.ite h (.ite (.ite h.issueSteps h) (.ite h.onAx (.ite h.issueSteps h))))

theorem State.Inv.advance {a d} (h : s.Inv) : (s.advance a d).Inv :=
  .ite h h.onAx

theorem State.Inv.setHstep {a v} (h : s.Inv) : (s.setHstep a v).Inv :=
  h.setFld

theorem State.Inv.homeSearch {a} (h : s.Inv) : (s.homeSearch a).Inv :=
  h.setHstep.onAx.setRun

theorem State.Inv.homeLatch {a} (h : s.Inv) : (s.homeLatch a).Inv :=
  .ite h.setReg.setHstep.setRun h

theorem State.Inv.homeFail {a} (h : s.Inv) : (s.homeFail a).Inv :=
  .ite h.setFld.axFlag.fault.setAxState.setRun h

theorem State.Inv.homeTick {a} (h : s.Inv) : (s.homeTick a).Inv :=
  .ite (.ite h.homeSearch h) (.ite (.ite h.onAx.homeFail h.onAx) (.ite h.setHstep.setRun h))

theorem State.Inv.runTick {a} (h : s.Inv) : (s.runTick a).Inv := by
  unfold State.runTick
  extract_lets _
  split
  · exact h
  · exact h
  · extract_lets _
    split
    · exact h.onAx.axArrive
    · split
      · exact .ite (.ite h.setVel.setRun h.setVel.setRun.onAx.axArrive) h.setVel.setRun.advance
  · exact h.setVel.advance
  · exact .ite h.axArrive h.setVel.advance
  · exact .ite h h.segInUse.setRun.setVel.advance

theorem State.Inv.feedEnds {a} (h : s.Inv) : (s.feedEnds a).Inv :=
  .ite h.onLc.setFld h

theorem State.Inv.axTick {a} (h : s.Inv) : (s.axTick a).Inv :=
  .ite h (.ite (.ite h.dropSteps h.feedEnds.homeFail.hardStopAt) h.runTick.follow.homeTick)

theorem State.Inv.axIgnored {a} (h : s.Inv) : (s.axIgnored a).Inv :=
  h.fault

theorem State.Inv.axRefused {a} (h : s.Inv) : (s.axRefused a).Inv :=
  h.axFlag.axIgnored

theorem State.Inv.homeStart {a} (h : s.Inv) : (s.homeStart a).Inv :=
  .ite h.setFld.setAxState.setHstep.setRun h.setFld.setAxState.homeSearch

theorem State.Inv.axCommand {a cmd set first} (h : s.Inv) : (s.axCommand a cmd set first).Inv := by
  unfold State.axCommand
  extract_lets _ _
  split
  · exact h.feedEnds.homeFail.setAxState.setRun
  · exact h.feedEnds.homeFail.setAxState.hardStopAt
  · exact .ite h.axIgnored (.ite h.axRefused h.setAxState.setRun)
  · exact .ite h.axIgnored (.ite h.axRefused h.setAxState.setRun)
  · exact .ite h.axIgnored (.ite h.axRefused h.setAxState.beginSeg)
  · exact .ite h.axIgnored (.ite h.axRefused h.homeStart)
  · exact h

theorem State.Inv.axCmdWrite {a v} (h : s.Inv) : (s.axCmdWrite a v).Inv :=
  h.axCommand

theorem State.Inv.runEnds {a} (h : s.Inv) : (s.runEnds a).Inv :=
  h.setAxState.setRun.axFlag

theorem State.Inv.homeReturned {a} (h : s.Inv) : (s.homeReturned a).Inv :=
  h.onAx.setReg.showLag.setFld.axFlag.runEnds

theorem State.Inv.moveEnd {a} (h : s.Inv) : (s.moveEnd a).Inv :=
  .ite (.ite (.ite h.homeReturned h) (.ite h.runEnds.setFld h.runEnds)) h

theorem State.Inv.axPosWrite {a v} (h : s.Inv) : (s.axPosWrite a v).Inv :=
  .ite h.onAx.setReg.showLag h

theorem State.Inv.axCfgWrite {a v} (h : s.Inv) : (s.axCfgWrite a v).Inv := by
  unfold State.axCfgWrite
  extract_lets old locked keep s1 s2
  have h1 : s1.Inv := h.typedWrite
  have h2 : s2.Inv := .ite h1 h1.feedEnds
  exact .ite h1 (.ite h2 h2.homeFail.hardStopAt)

theorem State.Inv.limitAction {a positive} (h : s.Inv) : (s.limitAction a positive).Inv := by
  unfold State.limitAction
  split
  · extract_lets s1
    have h1 : s1.Inv := h.axFlag.fault.feedEnds
    exact .ite h1.dropSteps (.ite (.setRun (.ite h1 h1.setAxState)) (.hardStopAt (.ite h1 h1.setAxState)))
  · exact h

theorem State.Inv.homeTrip {a sw} (h : s.Inv) : (s.homeTrip a sw).Inv := by
  unfold State.homeTrip
  exact .ite h (by split; exacts [.ite h.homeLatch h, .ite h.homeLatch h.homeFail])

theorem State.Inv.chatter {a sw} (h : s.Inv) : (s.chatter a sw).Inv :=
  .ite h.countEvent.raiseWith.fault.axFlag h.countEvent.raiseWith

theorem State.Inv.axFlagWrite {a v} (h : s.Inv) : (s.axFlagWrite a v).Inv :=
  h.typedWrite

/-! ### Encoders -/

theorem State.Inv.qeFlag {q f} (h : s.Inv) : (s.qeFlag q f).Inv :=
  h.hwSet.setEvt

theorem State.Inv.qeStandstill {q} (h : s.Inv) : (s.qeStandstill q).Inv :=
  h.onQe.setReg.setFld.setFld

theorem State.Inv.qeCfgWrite {q v} (h : s.Inv) : (s.qeCfgWrite q v).Inv :=
  .ite (.ite h.typedWrite.onQe h.typedWrite.onQe.onQe.setFld) (.ite h.typedWrite.qeStandstill h.typedWrite)

theorem State.Inv.setCount {q x counted} (h : s.Inv) : (s.setCount q x counted).Inv := by
  unfold State.setCount
  extract_lets lo hi
  split
  next e =>
    have h1 := State.Inv.of_eq (by split; exacts [h.draw, h]) e
    exact .ite h1.setReg.setFld.setFld.qeFlag.fault h1.setReg.setFld.setFld

theorem State.Inv.softWrite {q off v} (h : s.Inv) : (s.softWrite q off v).Inv :=
  h.typedWrite.setCount

theorem State.Inv.qeCountWrite {q v} (h : s.Inv) : (s.qeCountWrite q v).Inv := by
  unfold State.qeCountWrite
  extract_lets _
  split
  · exact .ite h.setCount.setCount h.setCount
  · exact h.setCount

theorem State.Inv.edge {q forward} (h : s.Inv) : (s.edge q forward).Inv := by
  unfold State.edge
  extract_lets x t still turned s1 s2 s3 s4 sp _ kept s5
  have h3 : s3.Inv := .ite h.onQe.setFld.setFld.qeFlag h.onQe.setFld.setFld
  clear_value sp
  refine .ite h3.onQe.setReg.setFld ?_
  split
  · exact h3.onQe.setReg.setFld
  · exact h3.onQe

theorem State.Inv.qeTick {q} (h : s.Inv) : (s.qeTick q).Inv := by
  unfold State.qeTick
  extract_lets _
  split
  · exact .ite (.ite h.setReg h.setReg) h
  · exact h

theorem State.Inv.takeLevels {q} (h : s.Inv) : (s.takeLevels q).Inv :=
  .ite h h.draw.onQe

theorem State.Inv.indexMismatch {q} (h : s.Inv) : (s.indexMismatch q).Inv :=
  .ite h.qeFlag.faultCounted.fault.qeFlag h.qeFlag.faultCounted

theorem State.Inv.indexHomes {q} (h : s.Inv) : (s.indexHomes q).Inv :=
  h.each fun _ _ h2 => .ite h2.homeLatch h2

/-! ### The safety island -/

theorem State.Inv.setEnable {on} (h : s.Inv) : (s.setEnable on).Inv :=
  .ite h.onSi.setFld.onSi h.onSi.setFld.setFld

theorem State.Inv.siReview (h : s.Inv) : s.siReview.Inv := by
  unfold State.siReview
  extract_lets inh was s1 s2 s3 s4
  have h2 : s2.Inv := State.Inv.setFld (.ite h.onSi h)
  have h3 : s3.Inv := .ite h2.onSi.setFld h2
  have h4 : s4.Inv := .ite h3.setEnable.setEvt (.ite h2.onSi.setFld h2)
  exact .ite h.setFld h4.setFld

theorem State.Inv.raiseEnables (h : s.Inv) : s.raiseEnables.Inv :=
  .siReview (.ite h h.setEnable)

theorem State.Inv.safeAxis {a} (h : s.Inv) : (State.safeAxis a s).Inv := by
  unfold State.safeAxis
  extract_lets _ _
  split
  · exact h
  · exact .ite (.ite h.feedEnds h.feedEnds.setAxState.setRun) (.onAx (.ite h.feedEnds
      h.feedEnds.setAxState.hardStopAt))

theorem State.Inv.enterSafe {cause f} (h : s.Inv) : (State.enterSafe cause s f).Inv := by
  unfold State.enterSafe
  extract_lets _ s1
  have h1 : s1.Inv := h.onSi.setFld
  exact .ite h1 (h1.setFld.setEnable.setFld.setFld.onSi.setFld.setEvt.each (fun _ _ h3 => h3.safeAxis))

theorem State.Inv.dangerLine {blk} (h : s.Inv) : (s.dangerLine blk).Inv :=
  h.onSi.foldl fun _ _ h2 => h2.enterSafe

theorem State.Inv.releaseCuts (h : s.Inv) : s.releaseCuts.Inv :=
  h.each fun _ _ h2 => .ite h2.setFld h2

theorem State.Inv.safeRelWrite {v} (h : s.Inv) : (s.safeRelWrite v).Inv := by
  unfold State.safeRelWrite
  split
  · exact h
  · exact .ite h.fault (.ite h.releaseCuts.draw.onSi.onSi.setFld.setFld.setEvt.fault
      h.releaseCuts.draw.onSi.fault)

theorem State.Inv.lapse {info} (h : s.Inv) : (s.lapse info).Inv :=
  h.onSi.setFld.fault

theorem State.Inv.enbWrite {v} (h : s.Inv) : (s.enbWrite v).Inv :=
  .ite h (.ite h.lapse (.ite h.onSi.setFld h.lapse))

theorem State.Inv.keepRecord {r} (h : s.Inv) : (s.keepRecord r).Inv :=
  .ite h.onSi h.onSi.count.setEvt

theorem State.Inv.tripFault (h : s.Inv) : s.tripFault.Inv :=
  h.keepRecord.onSi

theorem State.Inv.wdgTrips (h : s.Inv) : s.wdgTrips.Inv :=
  .ite h h.onSi.setFld.tripFault

theorem State.Inv.wdgWrite {v} (h : s.Inv) : (s.wdgWrite v).Inv :=
  .ite h (.ite h.onSi h.wdgTrips)

theorem State.Inv.coreOut {i} (h : s.Inv) : (s.coreOut i).Inv :=
  .ite h.faultCounted.setBit.setFld.onSi.setUnit.fault h.faultCounted.setBit.setFld.onSi.setFld

theorem State.Inv.injectNext (h : s.Inv) : s.injectNext.Inv := by
  unfold State.injectNext
  split
  · exact h
  · exact .ite h h.onSi.coreOut

theorem State.Inv.copyMem {src dst n} (h : s.Inv) : ({ s with mem := memCopy s.mem src dst n } : State).Inv :=
  ⟨h.1, memWf_copy s.mem src dst n h.2⟩

theorem State.Inv.rejoinCore {i} (h : s.Inv) : (s.rejoinCore i).Inv :=
  h.copyMem.setBit.setFld.onSi.setFld.count

theorem State.Inv.blankEnds (h : s.Inv) : s.blankEnds.Inv := by
  unfold State.blankEnds
  split
  · exact .ite h.onSi.setFld h
  · exact h

theorem State.Inv.testEnables (h : s.Inv) : s.testEnables.Inv :=
  .ite h h.setFld.setFld.onSi

theorem State.Inv.hbFail {k} (h : s.Inv) : (s.hbFail k).Inv :=
  h.fault.setFld.setEvt

theorem State.Inv.hbWrite {k v} (h : s.Inv) : (s.hbWrite k v).Inv :=
  .ite h.setReg (.ite h.setReg.onSi h.setReg.hbFail)

theorem State.Inv.hbenWrite {v} (h : s.Inv) : (s.hbenWrite v).Inv :=
  h.typedWrite.each fun _ _ h2 => .ite h2.onSi h2

theorem State.Inv.gateShow {ix} (h : s.Inv) : (s.gateShow ix).Inv :=
  .ite h.setBit h

theorem State.Inv.pairMark {old j} (h : s.Inv) : (State.pairMark old j s).Inv :=
  .ite h.onSi h

theorem State.Inv.gateEvents {old} (h : s.Inv) : (s.gateEvents old).Inv := by
  unfold State.gateEvents
  extract_lets s1 s2 s3
  have h1 : s1.Inv := h.each fun _ _ h => h.pairMark
  have h2 : s2.Inv := .ite h1.setEvt h1
  have h3 : s3.Inv := .ite h2.setEvt h2
  exact h3.siReview

theorem State.Inv.gateCfgWrite {n v} (h : s.Inv) : (s.gateCfgWrite n v).Inv :=
  h.typedWrite.gateShow.gateEvents

/-! ### Firing -/

theorem State.Inv.pulse {k ln t mark} (h : s.Inv) : (s.pulse k ln t mark).Inv :=
  h.onFs

theorem State.Inv.gapOf {k ln gap} (h : s.Inv) : (s.gapOf k ln gap).Inv := by
  unfold State.gapOf
  split
  · exact h.gapOpen
  · exact h

theorem State.Inv.fireHubLine {k ln t marked} (h : s.Inv) : (s.fireHubLine k ln t marked).2.Inv := by
  unfold State.fireHubLine
  extract_lets v s1
  have h1 : s1.Inv := h.setFld.onFs
  clear_value v
  split
  · split
    · exact h.gapOf
    · exact h.gapOf
    · exact h
  · split
    · exact h1.gapOf
    · exact h1.gapOf.pulse
    · exact h1.pulse.fireHub

theorem State.Inv.fireLineHubs {ln t marked} (h : s.Inv) : (s.fireLineHubs ln t marked).2.Inv :=
  h.foldl_snd fun _ _ h2 => h2.limitLine.fireHubLine

theorem State.Inv.cutClear {v} (h : s.Inv) : (s.cutClear v).Inv :=
  h.each fun _ _ h2 => .ite h2.setFld h2

theorem State.Inv.calTick (h : s.Inv) : s.calTick.Inv :=
  .ite h (h.draw.each (fun _ _ h3 => .ite h3.setBit h3))

theorem State.Inv.calFailed {i} (h : s.Inv) : (s.calFailed i).Inv :=
  .ite h.setBit.onFs h.setBit.onLc

theorem State.Inv.fsCtrlWrite {v} (h : s.Inv) : (s.fsCtrlWrite v).Inv :=
  .ite h.ignored h.typedWrite

theorem State.Inv.fsHubWrite {k v} (h : s.Inv) : (s.fsHubWrite k v).Inv :=
  .ite h.typedWrite.holdHub h.typedWrite

/-! ### Loops -/

theorem State.Inv.lpFlag {l f} (h : s.Inv) : (s.lpFlag l f).Inv :=
  h.hwSet

theorem State.Inv.loopClear {l} (h : s.Inv) : (s.loopClear l).Inv :=
  h.onLoop.setReg

theorem State.Inv.loopStop {l} (h : s.Inv) : (s.loopStop l).Inv :=
  h.loopClear.onLoop

theorem State.Inv.engineStop (h : s.Inv) : s.engineStop.Inv :=
  h.each fun _ _ h2 => .ite h2.loopClear h2.loopStop

theorem State.Inv.lpCfgWrite {l v} (h : s.Inv) : (s.lpCfgWrite l v).Inv := by
  unfold State.lpCfgWrite
  extract_lets _
  split
  · exact .ite (.ite h.typedWrite h.typedWrite.onLoop) (.fault (.setEvt (.lpFlag (.ite h h.typedWrite))))
  · exact .ite h.typedWrite.loopStop h.typedWrite

theorem State.Inv.leCtrlWrite {v} (h : s.Inv) : (s.leCtrlWrite v).Inv := by
  unfold State.leCtrlWrite
  extract_lets _ _ s1 s2
  have h1 : s1.Inv := .ite h.fault h
  have h2 : s2.Inv := h1.typedWrite
  exact .ite (.setReg (.onLe (.ite h2.engineStop h2))) h2

theorem State.Inv.setSecState {n i x} (h : s.Inv) : (s.setSecState n i x).Inv :=
  h.storeNat

theorem State.Inv.section {n x} (h : s.Inv) : (s.section n x).2.2.Inv :=
  h.setSecState.setSecState

theorem State.Inv.cascade {x ns} (h : s.Inv) : (s.cascade x ns).2.2.Inv := by
  induction ns generalizing s x with
  | nil => exact h
  | cons n rest ih => exact ih h.section

theorem State.Inv.stateHighWrite {n i hi} (h : s.Inv) : (s.stateHighWrite n i hi).Inv :=
  h.setSecState.onLe

theorem State.Inv.onTrace {k f} (h : s.Inv) : (s.onTrace k f).Inv :=
  h.onLe

theorem State.Inv.traceStore {k x} (h : s.Inv) : (s.traceStore k x).Inv := by
  unfold State.traceStore
  extract_lets _ _ s1 s2 _ _
  have h1 : s1.Inv := h.storeNat.setFld
  have h2 : s2.Inv := .ite h1.setFld h1
  exact .ite h2.onTrace.setFld h2.onTrace

theorem State.Inv.trigger (h : s.Inv) : s.trigger.Inv :=
  h.onLe.setEvt.each fun _ _ h2 => .ite h2.draw.setFld.onTrace h2

theorem State.Inv.traceLoop {l a b u result ys plaus} (h : s.Inv) :
    (s.traceLoop l a b u result ys plaus).2.Inv := by
  unfold State.traceLoop
  refine State.Inv.foldl_snd (p := (_, s)) h fun p k h => ?_
  split
  split
  · extract_lets _ c
    split
    · exact State.Inv.onTrace h
    · exact (State.Inv.traceStore h).onTrace
  · exact h

theorem State.Inv.leTrigWrite {v} (h : s.Inv) : (s.leTrigWrite v).Inv := by
  unfold State.leTrigWrite
  extract_lets was force s1 s2 s3
  have h1 : s1.Inv := h.typedWrite
  have h2 : s2.Inv := h1.onLe.setBit
  have h3 : s3.Inv := .ite (h2.each fun _ _ h => .ite h.setReg h.setFld) h1
  exact .ite h3.trigger h3

theorem State.Inv.trCfgWrite {k v} (h : s.Inv) : (s.trCfgWrite k v).Inv :=
  .ite h h.typedWrite

theorem State.Inv.plausible {l a u} (h : s.Inv) : (s.plausible l a u).2.Inv := by
  unfold State.plausible
  extract_lets _ _
  split
  · exact h.onLoop
  · split
    · exact h.onLoop
    · exact .ite h.onLoop.lpFlag.setEvt.count.faultCounted.lpFlag.setEvt.fault
        h.onLoop.lpFlag.setEvt.count.faultCounted

theorem State.Inv.preload {l} (h : s.Inv) : (s.preload l).Inv :=
  .ite (.ite (h.onLoop.foldl (fun _ _ h2 => h2.setSecState.setSecState)).setSecState h.onLoop) h

theorem State.Inv.lastY {l ys} (h : s.Inv) : (s.lastY l ys).2.Inv := by
  unfold State.lastY
  split
  · exact h.draw
  · exact h

theorem State.Inv.clampResult {l y} (h : s.Inv) : (s.clampResult l y).2.2.Inv := by
  unfold State.clampResult
  extract_lets _ _
  split
  · exact h.draw
  · exact h

theorem State.Inv.evaluate {l f} (h : s.Inv) : (s.evaluate l f).2.Inv := by
  unfold State.evaluate
  extract_lets s1 cfg src a b u s2
  split
  next e =>
    have h3 := h.preload.setReg.cascade.of_eq₂ e
    extract_lets s4 s5
    have h5 : s5.Inv := .ite (.ite h3.count h3.count.lpFlag.fault) h3
    split
    next e =>
      have h6 := h5.lastY.of_eq e
      split
      next e =>
        have h7 := h6.clampResult.of_eq₂ e
        extract_lets s8 s9
        have h9 : s9.Inv := State.Inv.onLoop (.ite h7.lpFlag h7)
        split
        next e => exact (h9.plausible.of_eq e).onLoop.traceLoop

theorem State.Inv.followP {l} (h : s.Inv) : (s.followP l).Inv :=
  h.loopClear.onLoop

theorem State.Inv.present {l f} (h : s.Inv) : (s.present l f).Inv := by
  unfold State.present
  extract_lets due s1
  refine .ite h (.ite h.followP ?_)
  split
  · exact h.onLoop.setReg
  · exact h.onLoop

theorem State.Inv.sampleTick {l f} (h : s.Inv) : (s.sampleTick l f).2.Inv := by
  unfold State.sampleTick
  extract_lets _
  split
  · exact h.onLoop.followP.onLoop
  · exact h.onLoop.evaluate

theorem State.Inv.spareTests {f} (h : s.Inv) : (s.spareTests f).Inv := by
  unfold State.spareTests
  extract_lets pass ran s1
  have h1 : s1.Inv := by
    unfold s1
    clear_value ran
    split
    · exact h.onSt.count
    · exact h
  refine .ite h (.ite h1 ?_)
  split
  · exact h1.clearBytes.onSt.count
  · exact h1

theorem State.Inv.leBoundary (h : s.Inv) : s.leBoundary.Inv := by
  unfold State.leBoundary
  extract_lets f s1 s2 s3
  have h3 : s3.Inv := h.setReg.onLe.each fun _ _ h => h.present
  clear_value s3
  refine .ite h (.ite h.onLe.engineStop ?_)
  split
  next e =>
    have h4 := State.Inv.of_eq ?_ e
    · exact State.Inv.spareTests (.ite h4.trigger h4)
    · refine .foldl_snd (p := (_, s3)) h3 fun p l h => ?_
      split
      split
      · split
        next e => exact State.Inv.of_eq (State.Inv.sampleTick h) e
      · exact h

theorem State.Inv.loopTick {l} (h : s.Inv) : (s.loopTick l).Inv :=
  .ite (.followP (.ite h.onLoop h)) (.ite (.ite h.onLoop h) (.onLoop (.ite h.onLoop h)))

/-! ### Products -/

theorem State.Inv.showQueue (h : s.Inv) : s.showQueue.Inv := by
  unfold State.showQueue
  extract_lets q s1
  have h1 : s1.Inv := h.setFld
  clear_value s1 q
  split
  · exact h1.setFld.setReg.setReg64
  · exact h1.setFld.setReg.setReg64

theorem State.Inv.acceptProduct {trig lane origin} (h : s.Inv) : (s.acceptProduct trig lane origin).Inv :=
  .ite h.onLc.setEvt.showQueue.count h.onLc.setEvt.showQueue

theorem State.Inv.popProduct {v} (h : s.Inv) : (s.popProduct v).Inv :=
  .ite h.onLc.showQueue h

theorem State.Inv.refuseProduct {lane} (h : s.Inv) : (s.refuseProduct lane).Inv :=
  h.count.setEvt.fault

theorem State.Inv.beginRepeats {go} (h : s.Inv) : (s.beginRepeats go).Inv :=
  h.onLc

theorem State.Inv.numberRepeats (h : s.Inv) : s.numberRepeats.Inv := by
  unfold State.numberRepeats
  extract_lets _
  split
  · exact h
  · exact h
  · exact (h.each (fun _ _ h2 => h2.acceptProduct)).onLc

/-! ### Expansion cores -/

theorem State.Inv.setXg {x r v} (h : s.Inv) : (s.setXg x r v).Inv :=
  .ite h h.onXc

theorem State.Inv.setXs {x sp w v} (h : s.Inv) : (s.setXs x sp w v).Inv :=
  h.onXc

theorem State.Inv.setXv {x v lanes} (h : s.Inv) : (s.setXv x v lanes).Inv :=
  h.onXc

theorem State.Inv.localStore {x a bs} (h : s.Inv) : (s.localStore x a bs).Inv :=
  .ite h.storeBytes h.draw.storeBytes

theorem State.Inv.paint {x m src keep} (h : s.Inv) : (s.paint x m src keep).Inv :=
  h.storeBytes

theorem State.Inv.handTile {x illegal overrun} (h : s.Inv) : (s.handTile x illegal overrun).Inv := by
  unfold State.handTile
  split
  · exact h
  · exact h.onXc

theorem State.Inv.xcIllegal {x} (h : s.Inv) : (s.xcIllegal x).Inv :=
  h.handTile.fault

theorem State.Inv.xcStep {x words cost target act part} (h : s.Inv) (hact : ∀ t, t.Inv → (act t).Inv) (hpart :
    ∀ t, t.Inv → (part t).Inv) : (s.xcStep x words cost target act part).Inv :=
  .ite h (.ite h.xcIllegal (.ite (hpart _ h).onXc (hact _ h).onXc))

theorem State.Inv.xcDo {x cost act} (h : s.Inv) (hact : ∀ t, t.Inv → (act t).Inv) : (s.xcDo x cost act).Inv :=
  h.xcStep hact fun _ h2 => h2

theorem State.Inv.xcPaint {x cost m src after} (h : s.Inv) (hafter : ∀ t, t.Inv → (after t).Inv) : (s.xcPaint x
    cost m src after).Inv :=
  .ite (.ite h.xcIllegal h) (h.xcStep (fun _ h2 => hafter _ h2.paint) (fun _ h2 => h2.paint))

/-! ### Tiles -/

theorem State.Inv.onTile {key f} (h : s.Inv) : (s.onTile key f).Inv :=
  h.onAdm

theorem State.Inv.pickCore {clusters} (h : s.Inv) : (s.pickCore clusters).2.Inv := by
  unfold State.pickCore
  split
  · exact h
  · exact h.grant

theorem State.Inv.pickPair (h : s.Inv) : s.pickPair.2.Inv := by
  unfold State.pickPair
  split
  next e => exact h.pickCore.of_eq e
  next e =>
    have h1 := h.pickCore.of_eq e
    split
    next e => exact h1.pickCore.of_eq e
    next e => exact h1.pickCore.of_eq e

theorem State.Inv.clearSlot {slot} (h : s.Inv) : (s.clearSlot slot).Inv := by
  unfold State.clearSlot
  split
  · exact h.clearBytes
  · exact h

theorem State.Inv.takeSlots (h : s.Inv) : s.takeSlots.Inv := by
  unfold State.takeSlots
  exact h.foldl fun _ _ h2 => .ite h2 (by split; exacts [h2, .ite h2.onTile h2.onTile.clearSlot])

theorem State.Inv.releaseZero {key} (h : s.Inv) : (s.releaseZero key).Inv := by
  unfold State.releaseZero
  split
  · exact h
  · exact h.clearSlot.onTile.unresolved.count.setEvt.fault

theorem State.Inv.setPhase {key x ph} (h : s.Inv) : (s.setPhase key x ph).Inv :=
  h.onTile

theorem State.Inv.fetchEntry {x area e} (h : s.Inv) : (s.fetchEntry x area e).2.Inv :=
  h.dramReads.dramReads.memLoad.storeBytes

theorem State.Inv.showOldest (h : s.Inv) : s.showOldest.Inv :=
  h.setReg

theorem State.Inv.releaseLatches (h : s.Inv) : s.releaseLatches.Inv :=
  h.onAdm.showOldest

theorem State.Inv.coreLeaves {x} (h : s.Inv) : (s.coreLeaves x).Inv :=
  h.moveUnit.onAdm.onXc

theorem State.Inv.retireCore {x} (h : s.Inv) : (s.retireCore x).Inv :=
  h.abandonTest.coreLeaves.setEvt

theorem State.Inv.mismatch {key x} (h : s.Inv) : (s.mismatch key x).Inv :=
  .ite h.faultCounted.retireCore.fault h.faultCounted

theorem State.Inv.writeSlot {slot bytes} (h : s.Inv) : (s.writeSlot slot bytes).Inv := by
  unfold State.writeSlot
  split
  · exact h.storeBytes
  · exact h

theorem State.Inv.acceptTile {t r} (h : s.Inv) : (s.acceptTile t r).Inv := by
  unfold State.acceptTile
  extract_lets s1 _ s2 s3 s4
  have h1 : s1.Inv := h.writeSlot.onTile
  have h2 : s2.Inv := h1.foldl fun _ _ h3 => .ite (by split; exacts [h3.varMiss, h3]) h3
  have h3 : s3.Inv := h2.foldl fun _ _ h4 => .ite h4.mismatch h4
  have h4 : s4.Inv := .ite h3.count.setEvt.fault h3
  exact h4.releaseLatches

theorem State.Inv.unresolvedTile {t} (h : s.Inv) : (s.unresolvedTile t).Inv :=
  ((h.foldl (fun _ _ h2 => h2.mismatch)).releaseZero).releaseLatches

theorem State.Inv.furtherRender {t} (h : s.Inv) : (s.furtherRender t).Inv := by
  unfold State.furtherRender
  extract_lets window feed used fits
  split
  · exact h.unresolvedTile
  · split
    next e => exact (h.pickCore.of_eq e).unresolvedTile
    next e =>
      have h1 := h.pickCore.of_eq e
      exact .count (.onTile (.ite h1 h1.onAdm))

/-! ### Job slots -/

theorem State.Inv.tadmUpdate (h : s.Inv) : s.tadmUpdate.Inv :=
  h.onLc

theorem State.Inv.sendWindow {j lo hi} (h : s.Inv) : (s.sendWindow j lo hi).Inv :=
  h.onSi

theorem State.Inv.refuseStart {j reason} (h : s.Inv) : (s.refuseStart j reason).Inv :=
  h.setFld.setEvt

theorem State.Inv.startSlot {j job} (h : s.Inv) : (s.startSlot j job).Inv := by
  unfold State.startSlot
  extract_lets go o running job' f s1 s2
  have h1 : s1.Inv := h.setJob.setSlotState.sendWindow
  have h2 : s2.Inv := .ite h1.onLc h1.beginRepeats.numberRepeats
  refine .ite h.refuseStart ?_
  split
  · exact .ite h.refuseStart (.ite h.refuseStart h.setJob.setSlotState.sendWindow.tadmUpdate)
  · exact h2.tadmUpdate

theorem State.Inv.startCmd {j} (h : s.Inv) : (s.startCmd j).Inv := by
  unfold State.startCmd
  exact .ite (by split; exacts [h.startSlot, h]) h.ignored

theorem State.Inv.drain {j stop} (h : s.Inv) : (s.drain j stop).Inv := by
  unfold State.drain
  split
  · exact h.setSlotState
  · exact h.setJob.setSlotState.sendWindow.tadmUpdate

theorem State.Inv.releaseCmd {j} (h : s.Inv) : (s.releaseCmd j).Inv := by
  unfold State.releaseCmd
  split
  · exact h.setSlotState.setJob
  · exact h.setSlotState.setJob
  · exact h.setSlotState.sendWindow.tadmUpdate
  · split
    · exact h.drain
    · exact h.setSlotState
  · exact h.ignored

theorem State.Inv.slotsAtBand {b} (h : s.Inv) : (s.slotsAtBand b).Inv := by
  unfold State.slotsAtBand
  refine .foldl (h.foldl fun t j ht => ?_) fun t j ht => ?_
  · split
    · exact ht
    · extract_lets t1 t2 t3
      have h1 : t1.Inv := .ite ht.drain ht
      have h2 : t2.Inv := h1.setSlotState.setEvt.sendWindow
      have h3 : t3.Inv := .ite h2.onLc (.ite h2.beginRepeats h2)
      exact .ite h3.tadmUpdate ht
  · split
    · exact ht
    · exact .ite ht.drain ht

theorem State.Inv.latchFields {p trig lane} (h : s.Inv) : (s.latchFields p trig lane).Inv :=
  .ite h h.onAdm.showOldest

theorem State.Inv.spend {key work bytes} (h : s.Inv) : (s.spend key work bytes).Inv :=
  h.onAdm

theorem State.Inv.tableRead {a n} (h : s.Inv) : (s.tableRead a n).Inv :=
  h.dramTouch.reportLines.blockUnmapped

theorem State.Inv.latchFieldsOf {p : Option ProdRef} {trig : Bool} {lane : Nat} (h : s.Inv) :
    (match p with | some q => s.latchFields q trig lane | none => s : State).Inv := by
  cases p with
  | none => exact h
  | some q => exact h.latchFields

theorem State.Inv.dispatchTile {j job p band col r} (h : s.Inv) : (s.dispatchTile j job p band col r).Inv := by
  unfold State.dispatchTile
  extract_lets hdr key push lane win cap
  split
  extract_lets blank
  split
  · exact h.onAdm
  · extract_lets d e s1 fw s2 s4 need used beyond t s5
    have h1 : s1.Inv := h.tableRead.tableRead
    have h2 : s2.Inv := h1.latchFieldsOf
    have h4 : s4.Inv := .ite h2.latchFieldsOf h1
    refine .ite ?_ (.ite h4.spend.onAdm ?_)
    · exact h4.onAdm.releaseZero.count.setEvt.fault
    · split
      next e =>
        have h6 := h4.spend.pickPair.of_eq e
        split
        next e => exact (State.Inv.of_eq (.ite_snd h6.draw h6) e).onAdm

theorem State.Inv.dispatchPlane {lead omin p x} (h : s.Inv) : (s.dispatchPlane lead omin p x).Inv := by
  unfold State.dispatchPlane
  extract_lets _ _ s1
  have h1 : s1.Inv := h.slotsAtBand
  exact .ite h1 (by split; exacts [h1, h1.spend.each (fun _ _ h3 => h3.dispatchTile)])

theorem State.Inv.drained {x j} (h : s.Inv) : (s.drained x j).Inv := by
  unfold State.drained
  split
  · exact .ite h.setSlotState.setJob.onAdm.tadmUpdate h
  · exact h

theorem State.Inv.leaveStore {x} (h : s.Inv) : (s.leaveStore x).Inv :=
  h.onAdm

theorem State.Inv.admLine {x} (h : s.Inv) : (s.admLine x).Inv := by
  unfold State.admLine
  extract_lets s1 s2
  have h1 : s1.Inv := .ite (by split; exacts [h.each (fun _ _ h2 => h2.dispatchPlane), h]) h
  have h2 : s2.Inv := h1.leaveStore.takeSlots.each fun _ _ h3 => h3.drained
  exact h2.releaseLatches.tadmUpdate

theorem State.Inv.rerate {j} (h : s.Inv) : (s.rerate j).Inv := by
  unfold State.rerate
  split
  · exact h
  · exact .ite h.setReg.setEvt.fault (.ite h.setReg.setEvt h)

/-! ### The line clock -/

theorem State.Inv.feedLate {x} (h : s.Inv) : (s.feedLate x).Inv :=
  h.onLc

theorem State.Inv.feedResume {n} (h : s.Inv) : (s.feedResume n).Inv :=
  .ite h.onLc.setFld.setFld.setEvt h

theorem State.Inv.feedTick (h : s.Inv) : s.feedTick.Inv := by
  unfold State.feedTick
  exact .ite (.ite h.onLc.setFld.setFld h) (by split; exacts [.ite (.ite h h.setAxState.setRun) h, h])

theorem State.Inv.overspeed {period} (h : s.Inv) : (s.overspeed period).Inv :=
  .ite (.ite h.onLc.setFld h.onLc) (.ite h.onLc h.onLc.setFld.setEvt)

theorem State.Inv.lcLine {n e} (h : s.Inv) : (s.lcLine n e).Inv := by
  unfold State.lcLine
  extract_lets _
  split
  · exact .overspeed (.onLc (.ite h.onLc.count.setEvt.fault h.onLc.count.setEvt))
  · exact .onLc (.overspeed (.setFld (by split; exacts [h.onLc.count, h.onLc])))

theorem State.Inv.camLine {c n t} (h : s.Inv) : (s.camLine c n t).Inv :=
  .ite h (.ite h.count.setEvt.camTrigger h.onLc.camTrigger)

theorem State.Inv.camBegins {c} (h : s.Inv) : (s.camBegins c).Inv := by
  unfold State.camBegins
  split
  · exact .ite h.onLc h
  · exact h

theorem State.Inv.takeAbandoned {n} (h : s.Inv) : (s.takeAbandoned n).2.Inv :=
  h.onLc

theorem State.Inv.fireAt {n e} (h : s.Inv) : (s.fireAt n e).Inv := by
  unfold State.fireAt
  extract_lets _
  split
  next e =>
    have h2 := State.Inv.of_eq h.takeAbandoned e
    extract_lets _
    split
    next e =>
      have h3 := State.Inv.of_eq h2.skipLine.fireLine.siReview.fireLineHubs e
      exact (h3.whenClocked (fun _ h4 => h4.dlLine)).foldl fun _ _ h4 => h4.holdHub

theorem State.Inv.lineAt {n e} (h : s.Inv) : (s.lineAt n e).Inv := by
  unfold State.lineAt
  extract_lets s1 s2 s3 s4 s5
  have h1 : s1.Inv := h.lcLine.wakeSource.addStamp.fireAt
  have h2 : s2.Inv := h1.each fun _ _ h3 => h3.camLine
  have h3 : s3.Inv := h2.numberRepeats
  have h4 : s4.Inv := .ite h3.dsLine h3
  have h5 : s5.Inv := .ite h4.admLine h4
  exact h5.feedLate.feedResume.placeAgain

theorem State.Inv.lcCtrlWrite {v} (h : s.Inv) : (s.lcCtrlWrite v).Inv :=
  .ite h.typedWrite.onLc h.typedWrite

/-! ### Routes and vectors -/

theorem State.Inv.semReadBy {m n} (h : s.Inv) : (s.semReadBy m n).2.Inv := by
  unfold State.semReadBy
  split
  · exact h
  · exact .ite h.grant.setFld h.grant

theorem State.Inv.semRelWrite {m v} (h : s.Inv) : (s.semRelWrite m v).Inv := by
  unfold State.semRelWrite
  extract_lets _
  split
  · exact .ite h.grant.setFld h.grant.fault
  · exact h.draw.fault

theorem State.Inv.semForceWrite {v} (h : s.Inv) : (s.semForceWrite v).Inv :=
  h.setFld.fault

theorem State.Inv.answerWith {v} (h : s.Inv) : (s.answerWith v).Inv :=
  h.onTop

theorem State.Inv.readBack {m off f} (h : s.Inv) (hf : ∀ t, t.Inv → (f t).2.Inv) : (s.readBack m off f).Inv :=
  h.answerWith.regGuard fun _ h2 => (hf _ h2).answerWith

theorem State.Inv.vectorCtrlWrite {vec v} (h : s.Inv) : (s.vectorCtrlWrite vec v).Inv :=
  .ite h.typedWrite.setPba.msixRequest h.typedWrite

/-! ### Clocks and power -/

theorem State.Inv.powerReset {good} (h : s.Inv) : (s.powerReset good).Inv :=
  ⟨rfl, Tbl.wf_filter _ s.mem _ h.2⟩

theorem State.Inv.heldReset (h : s.Inv) : s.heldReset.Inv :=
  have h1 : (s.powerReset s.ck.pwrgood).Inv := h.powerReset
  State.Inv.setReg h1

theorem State.Inv.sysrstWrite {v} (h : s.Inv) : (s.sysrstWrite v).Inv :=
  .ite h.powerReset h

theorem State.Inv.freeSources {u} (h : s.Inv) : (s.freeSources u).Inv :=
  h.abandonTest.abandonTest

theorem State.Inv.sourceRests {u} (h : s.Inv) : (s.sourceRests u).Inv :=
  .ite h h.setUnit

theorem State.Inv.selectXtal {x} (h : s.Inv) : (s.selectXtal x).Inv :=
  h.freeSources.setFld.setUnit.sourceRests

theorem State.Inv.startClocks {x} (h : s.Inv) : (s.startClocks x).Inv :=
  .ite h.heldReset.selectXtal.onCk.setFld h.heldReset.selectXtal.onCk.setFld.fault

theorem State.Inv.tryClocks (h : s.Inv) : s.tryClocks.Inv := by
  unfold State.tryClocks
  split
  · exact h
  · exact .ite h (.ite (.ite h.startClocks h) (.ite h.startClocks (.ite h.startClocks h)))

theorem State.Inv.abandonSwitch (h : s.Inv) : s.abandonSwitch.Inv := by
  unfold State.abandonSwitch
  split
  · exact h.onSt.setEvt.count.stFault.stDone
  · exact h

theorem State.Inv.xtalLoss (h : s.Inv) : s.xtalLoss.Inv :=
  .ite h (.ite h.setBit.abandonSwitch.selectXtal.setEvt.fault h.setBit.abandonSwitch.onCk.fault)

theorem State.Inv.selectPll {p} (h : s.Inv) : (s.selectPll p).Inv :=
  h.freeSources.setFld.setUnit.sourceRests

theorem State.Inv.crystalFirst (h : s.Inv) : s.crystalFirst.Inv :=
  .ite h.xtalLoss.onCk h

theorem State.Inv.filterRegs {p} (h : s.Inv) : ({ s with regs := s.regs.filter p } : State).Inv :=
  ⟨Tbl.wf_filter regReset s.regs p h.1, h.2⟩

theorem State.Inv.resetBlock {blk} (h : s.Inv) : (s.resetBlock blk).Inv := h.filterRegs

theorem State.Inv.domReset {d} (h : s.Inv) : (s.domReset d).Inv := by
  unfold State.domReset
  split
  · exact .clearBytes (.resetBlock (.resetBlock h))
  · split
    · exact .clearBytes (.clearBytes (.clearBytes (.resetBlock (.resetBlock (.resetBlock (.resetBlock h))))))
    · extract_lets _ s1 s2
      have h1 : s1.Inv := .resetBlock (.resetBlock (.resetBlock h))
      have h2 : s2.Inv := h1.each fun _ _ h3 => .ite h3 h3.setUnit
      exact h2.clearBytes.clearBytes.clearBytes

theorem State.Inv.entryBegin {d target stopped} (h : s.Inv) : (s.entryBegin d target stopped).Inv :=
  h.onCk.setDomState

theorem State.Inv.ckDomWrite {d v} (h : s.Inv) : (s.ckDomWrite d v).Inv := by
  unfold State.ckDomWrite
  extract_lets r old st s1 s2 set
  have h1 : s1.Inv := .ite h.onCk h
  have h2 : s2.Inv := h1.typedWrite
  have h3 : (set s2).Inv := h2.setFld
  exact .ite h.requestLoses (.ite h3.wakeDom (.ite (.ite h2.setEvt.fault h3.entryBegin)
    (.ite h3.domReset.entryBegin (.ite h3.entryBegin h3))))

theorem State.Inv.domCommand {m d r} (h : s.Inv) : (s.domCommand m d r).Inv :=
  h.regGuard fun _ h2 => h2.ckDomWrite

/-! ### Boot -/

theorem State.Inv.imageRead {a} (h : s.Inv) : (s.imageRead a).Inv :=
  h.dramTouch.reportLines.blockUnmapped

theorem State.Inv.setBootPhase {v} (h : s.Inv) : (s.setBootPhase v).Inv :=
  h.setFld

theorem State.Inv.bootWith {slot img} (h : s.Inv) : (s.bootWith slot img).Inv :=
  h.onBoot.setFld.setFld.setBootPhase

theorem State.Inv.recoverySetup (h : s.Inv) : s.recoverySetup.Inv :=
  h.setReg.setReg.setReg.setReg.setReg.setReg.setReg.setReg

theorem State.Inv.lockProt (h : s.Inv) : s.lockProt.Inv :=
  h.setReg.setFld

theorem State.Inv.vcmdWrite {v} (h : s.Inv) : (s.vcmdWrite v).Inv :=
  .ite h (.ite h.setFld.fault h.onBoot.setFld)

theorem State.Inv.vcmd {op} (h : s.Inv) : (s.vcmd op).Inv :=
  h.vcmdWrite

theorem State.Inv.holdImage {a} (h : s.Inv) : (s.holdImage a).Inv :=
  h.setReg64

theorem State.Inv.programSlot {x} (h : s.Inv) : (s.programSlot x).Inv :=
  .ite h.onBoot h

theorem State.Inv.svnAdvWrite {v} (h : s.Inv) : (s.svnAdvWrite v).Inv :=
  .ite h.onBoot.setFld h

/-! ### Data caches -/

theorem State.Inv.dcStore {l k} (h : s.Inv) : (s.dcStore l k).Inv :=
  .ite h (.ite h.dramPut h.storeBytes)

theorem State.Inv.dcWb {k a} (h : s.Inv) : (s.dcWb k a).Inv := by
  unfold State.dcWb
  split
  · exact h.dcStore
  · exact h

theorem State.Inv.dcInv {a} (h : s.Inv) : (s.dcInv a).Inv :=
  h

theorem State.Inv.dcFlush {k a} (h : s.Inv) : (s.dcFlush k a).Inv :=
  h.dcWb.dcInv

theorem State.Inv.dcFill {k a} (h : s.Inv) : (s.dcFill k a).Inv := by
  unfold State.dcFill
  split
  · exact h
  · exact h.dramUse

theorem State.Inv.dcLoad {k a n} (h : s.Inv) : (s.dcLoad k a n).2.Inv := by
  unfold State.dcLoad
  extract_lets _
  split
  · exact h.dcFill
  · exact h.dcFill

theorem State.Inv.dcSave {k a bs} (h : s.Inv) : (s.dcSave k a bs).Inv :=
  h.dcFill

theorem State.Inv.dcDrop {l gone} (h : s.Inv) : (s.dcDrop l gone).2.Inv :=
  .ite h.dcStore h

theorem State.Inv.dcDrops {gone} (h : s.Inv) : (s.dcDrops gone).Inv := by
  unfold State.dcDrops
  exact h.foldl_snd fun _ _ h2 => by split; exact h2.dcDrop

theorem State.Inv.dcEvict (h : s.Inv) : s.dcEvict.Inv :=
  .ite h h.draw.dcDrops

theorem State.Inv.dcLeave {k} (h : s.Inv) : (s.dcLeave k).Inv :=
  h.dcDrops

/-! ### Check values -/

theorem State.Inv.setCvValue {u x} (h : s.Inv) : (s.setCvValue u x).Inv :=
  h.setReg

theorem State.Inv.cvTake {u bs} (h : s.Inv) : (s.cvTake u bs).Inv :=
  h.setCvValue.setFld

theorem State.Inv.cvProcess {u n} (h : s.Inv) : (s.cvProcess u n).Inv :=
  .ite h h.onCv.cvTake

theorem State.Inv.cvDrain {u} (h : s.Inv) : (s.cvDrain u).Inv :=
  h.cvProcess

theorem State.Inv.cvTick {u} (h : s.Inv) : (s.cvTick u).Inv :=
  h.cvProcess

theorem State.Inv.cvFeed {u bs} (h : s.Inv) : (s.cvFeed u bs).Inv :=
  h.onCv.cvProcess

theorem State.Inv.cvOwned {u f} (h : s.Inv) (hf : ∀ t, t.Inv → (f t).Inv) : (s.cvOwned u f).Inv :=
  .ite h.abandonTest.onCv.fault (hf _ h.abandonTest.onCv)

theorem State.Inv.cvDataWrite {u n v} (h : s.Inv) : (s.cvDataWrite u n v).Inv :=
  h.cvOwned fun _ h2 => h2.cvFeed

theorem State.Inv.cvStartWrite {u} (h : s.Inv) : (s.cvStartWrite u).Inv :=
  h.cvOwned fun _ h2 => .ite h2.cvDrain.setFld.setCvValue (.ite h2.cvDrain.setFld.setCvValue
      h2.cvDrain.setFld.setCvValue)

theorem State.Inv.cvEndWrite {u} (h : s.Inv) : (s.cvEndWrite u).Inv :=
  h.cvOwned (fun _ h2 => .ite (.fault (.setEvt (.ite h2.cvDrain.setReg.setFld.setFld.setFld.setFld.setEvt
      h2.cvDrain.setReg.setFld.setFld.setFld.setFld))) (.ite
      h2.cvDrain.setReg.setFld.setFld.setFld.setFld.setEvt h2.cvDrain.setReg.setFld.setFld.setFld.setFld))

theorem State.Inv.cvValueSet {u v} (h : s.Inv) : (s.cvValueSet u v).Inv :=
  h.cvOwned fun _ h2 => h2.cvDrain.setCvValue

theorem State.Inv.cvCfgWrite {u off v} (h : s.Inv) : (s.cvCfgWrite u off v).Inv :=
  h.cvOwned fun _ h2 => h2.typedWrite

/-! ### DMA channels -/

theorem State.Inv.setChState {n v} (h : s.Inv) : (s.setChState n v).Inv :=
  h.setFld

theorem State.Inv.setPoked {n b} (h : s.Inv) : (s.setPoked n b).Inv :=
  h.setFld

theorem State.Inv.dmaStatus {n result arrived} (h : s.Inv) : (s.dmaStatus n result arrived).2.Inv := by
  unfold State.dmaStatus
  extract_lets a bs
  split
  · exact h.denied
  · split
    exacts [h, h.unmapped, h.dramPut, h.putBytes]

theorem State.Inv.cvRelease {n} (h : s.Inv) : (s.cvRelease n).Inv := by
  unfold State.cvRelease
  split
  · exact .ite h.setFld h
  · exact h

theorem State.Inv.dmaPlace {n e} (h : s.Inv) : (s.dmaPlace n e).Inv :=
  .ite h.dramPut h.putBytes

theorem State.Inv.dmaLand {n pick} (h : s.Inv) : (s.dmaLand n pick).Inv :=
  .ite h (h.foldl (fun _ _ h2 => h2.dmaPlace)).onDma

theorem State.Inv.dmaFinish {n result arrived reach} (h : s.Inv) : (s.dmaFinish n result arrived reach).Inv :=
    by
  unfold State.dmaFinish
  extract_lets irq s1
  have h1 : s1.Inv := h.dmaLand
  split
  next e =>
    have h2 := State.Inv.of_eq (.ite_snd h1.dmaStatus h1) e
    extract_lets s2 s3 s4
    have h3 : s3.Inv := h2.cvRelease.onDma.setFld
    have h4 : s4.Inv := .ite h3.setFld.setChState.setPoked h3.setChState
    exact .ite h4.setEvt h4

theorem State.Inv.chRefused {n} (h : s.Inv) : (s.chRefused n).Inv :=
  h.fault

theorem State.Inv.chStart {n} (h : s.Inv) : (s.chStart n).Inv :=
  .ite h.chRefused (.ite h.onDma h.setReg.setReg.onDma.setChState)

theorem State.Inv.chAbort {n} (h : s.Inv) : (s.chAbort n).Inv :=
  .ite h h.onDma

theorem State.Inv.chIdlePoke {n} (h : s.Inv) : (s.chIdlePoke n).Inv :=
  .ite h.setPoked.setChState h

theorem State.Inv.chPoke {n} (h : s.Inv) : (s.chPoke n).Inv :=
  .ite h.setPoked.chIdlePoke h.chRefused

theorem State.Inv.chCtrlWrite {n v} (h : s.Inv) : (s.chCtrlWrite n v).Inv :=
  .ite (.chStart (.ite h.chAbort h)) (.ite h.chAbort h)

theorem State.Inv.chHeadWrite {n off v} (h : s.Inv) : (s.chHeadWrite n off v).Inv :=
  .ite h.typedWrite h

theorem State.Inv.chResume {n} (h : s.Inv) : (s.chResume n).Inv :=
  .ite h.chStart h.chIdlePoke

/-! ### DRAM -/

theorem State.Inv.setRole {c r v} (h : s.Inv) : (s.setRole c r v).Inv :=
  h.setFld.setUnit

theorem State.Inv.mcStart (h : s.Inv) : s.mcStart.Inv :=
  h.setFld.onMc.each fun _ _ h2 => h2.each (fun _ _ h3 => .ite h3.setRole.setFld h3.setRole)

theorem State.Inv.mcCfgWrite {v} (h : s.Inv) : (s.mcCfgWrite v).Inv :=
  .ite (.ite h.typedWrite h.typedWrite.fault) (.ite h.typedWrite (.ite h.typedWrite.mcStart h.typedWrite.fault))

theorem State.Inv.trnCmdWrite {c v} (h : s.Inv) : (s.trnCmdWrite c v).Inv :=
  .ite h.typedWrite (.ite h.typedWrite.setFld h.typedWrite.setFld.setFld.onChan)

theorem State.Inv.trnCommand {c op v} (h : s.Inv) : (s.trnCommand c op v).Inv :=
  h.trnCmdWrite

theorem State.Inv.ranksInit {c} (h : s.Inv) : (s.ranksInit c).Inv :=
  h.each fun _ _ h2 => h2.onRank

theorem State.Inv.applyDelays {c r} (h : s.Inv) : (s.applyDelays c r).Inv :=
  h.each fun _ _ h2 => h2.each (fun _ _ h3 => h3.onMc)

theorem State.Inv.delayWrite {c p r e v} (h : s.Inv) : (s.delayWrite c p r e v).Inv :=
  .ite h.typedWrite.onMc h.typedWrite

theorem State.Inv.portLevel {port level} (h : s.Inv) : (s.portLevel port level).Inv :=
  .ite h.setFld (.ite (.ite h.setFld h) (.ite h.setFld h))

theorem State.Inv.portCfgWrite {p v} (h : s.Inv) : (s.portCfgWrite p v).Inv :=
  .ite h.typedWrite.setFld h.typedWrite

theorem State.Inv.migRefuse {c} (h : s.Inv) : (s.migRefuse c).Inv :=
  .fault (.ite h h.setFld)

theorem State.Inv.wakeRank {c r} (h : s.Inv) : (s.wakeRank c r).Inv :=
  .ite h (.ite h.setSr (.ite h h.srLeaves))

theorem State.Inv.migStart {c src} (h : s.Inv) : (s.migStart c src).Inv := by
  unfold State.migStart
  split
  · exact h.migRefuse
  · exact .ite h.migRefuse h.abandonTest.onChan.setFld.setFld.wakeRank.wakeRank.setFld.setFld.setEvt

theorem State.Inv.migEnd {c m state} (h : s.Inv) : (s.migEnd c m state).Inv :=
  h.onChan.setFld.setFld.setFld.setEvt

theorem State.Inv.migCmdWrite {c v} (h : s.Inv) : (s.migCmdWrite c v).Inv := by
  unfold State.migCmdWrite
  exact .ite (by split; exacts [h.migStart, h.migRefuse]) (.ite (by split; exacts [h.migEnd, h]) h)

theorem State.Inv.rankFails {c r} (h : s.Inv) : (s.rankFails c r).Inv :=
  .ite h (.ite h.setFld.setEvt.fault.migStart h.setFld.setEvt.fault)

theorem State.Inv.correctedError {c r} (h : s.Inv) : (s.correctedError c r).Inv :=
  .ite h.onRank.count.faultCounted.rankFails h.onRank.count.faultCounted

theorem State.Inv.uncorrectable {mirrored c r line} (h : s.Inv) : (s.uncorrectable mirrored c r line).Inv :=
  .rankFails (.ite h.count.setEvt.fault.writeBack h.setPoison.poisonReport)

theorem State.Inv.eccVerdict {check} (h : s.Inv) : (s.eccVerdict check).2.2.Inv := by
  unfold State.eccVerdict
  split
  · exact h
  · split
    · exact h.draw
    · exact h

theorem State.Inv.checkLine {check chan line} (h : s.Inv) : (s.checkLine check chan line).2.2.Inv := by
  unfold State.checkLine
  extract_lets p m
  split
  · exact h
  · split
    next e =>
      have h1 := h.eccVerdict.of_eq₂ e
      split
      · exact h1.uncorrectable
      · extract_lets s2
        have h2 : s2.Inv := .ite h1.correctedError.writeBack h1
        exact .ite_thd h2.poisonReport h2

theorem State.Inv.copyLine {c m off} (h : s.Inv) : (s.copyLine c m off).Inv := by
  unfold State.copyLine
  extract_lets _
  split
  next e =>
    have h2 := State.Inv.of_eq h.portGrant.burst.burst.draw e
    split
    · exact h2
    · exact h2.correctedError
    · exact h2.uncorrectable

theorem State.Inv.migTick (h : s.Inv) : s.migTick.Inv := by
  unfold State.migTick
  exact h.each fun _ _ h2 => by
    split
    · exact h2
    · exact .ite h2 (.ite h2.onChan.copyLine h2.onChan)

/-! ### Requests that wait -/

theorem State.Inv.serve {port src chan a hint op} (h : s.Inv) : (s.serve port src chan a hint op).Inv := by
  unfold State.serve
  split
  · exact h.acceptWrite.storeBytes
  · extract_lets early
    split
    next e =>
      have h1 := State.Inv.of_eq₂ (by refine .foldl_thd h.issueRead fun _ _ h => ?_; exact h.checkLine) e
      split
      next e => exact (State.Inv.of_eq (by split; exacts [h1.draw, h1]) e).onMc

theorem State.Inv.dramAsk {port src a hint op} (h : s.Inv) : (s.dramAsk port src a hint op).Inv := by
  unfold State.dramAsk
  exact .ite h (.ite (by split; exacts [h.fault.onMc, h.fault]) (.ite h.dramWake.dramQueue h.portGrant.serve))

theorem State.Inv.issueOne {i} (h : s.Inv) : (s.issueOne i).Inv := by
  unfold State.issueOne
  split
  · exact h
  · exact .dramEnter (by split; exacts [h.onMc.serve, .ite h.onMc.acceptWrite h.onMc.onMc,
      h.onMc.issueRead.onMc])

theorem State.Inv.serveNext {c} (h : s.Inv) : (s.serveNext c).Inv := by
  unfold State.serveNext
  split
  next e => exact h.schedule.of_eq e
  next e =>
    have h1 := h.schedule.of_eq e
    exact .ite h1.drainOne h1.issueOne

theorem State.Inv.serveWaiting (h : s.Inv) : s.serveWaiting.Inv :=
  h.each fun _ _ h2 => h2.each (fun _ _ h3 => h3.serveNext)

theorem State.Inv.freqCmdWrite {v} (h : s.Inv) : (s.freqCmdWrite v).Inv := by
  unfold State.freqCmdWrite
  extract_lets s1 s2 s3
  have h1 : s1.Inv := h.typedWrite
  have h3 : s3.Inv := State.Inv.foldl h1.setFld.onMc fun _ _ h => .ite h.setSr.onRank.closeRows.applyDelays h
  refine .ite h1 (.ite h1.setFld.setEvt.fault (h3.each fun _ _ h => ?_))
  split
  · exact h.onChan
  · exact h

theorem State.Inv.scrubNext (h : s.Inv) : s.scrubNext.Inv :=
  h.onMc

theorem State.Inv.parityReplay {c} (h : s.Inv) : (s.parityReplay c).2.Inv :=
  h.onChan.count.faultCounted

theorem State.Inv.dramTick (h : s.Inv) : s.dramTick.Inv := by
  unfold State.dramTick
  exact .ite h.migTick h.migTick.dramEnter.serveWaiting

theorem State.Inv.sbWrite {c v} (h : s.Inv) : (s.sbWrite c v).Inv :=
  .ite h.typedWrite h.typedWrite.setFld.onChan

/-! ### Image pipes -/

theorem State.Inv.stepWba {base} (h : s.Inv) : (s.stepWba base).Inv :=
  h.each fun _ _ h2 => h2.storeNat

theorem State.Inv.handLine {n l} (h : s.Inv) : (s.handLine n l).Inv :=
  h.onVe.onCtx

theorem State.Inv.pvDrop {n} (h : s.Inv) : (s.pvDrop n).Inv :=
  h.count.setEvt.fault

theorem State.Inv.preview {n key l room} (h : s.Inv) : (s.preview n key l room).Inv :=
  .ite h (.ite h.onCtx.onIp (.ite h.onCtx.onIp.onCtx h.onCtx.onIp.pvDrop))

theorem State.Inv.rowAccepted {n a o len} (h : s.Inv) : (s.rowAccepted n a o len).Inv :=
  .ite h.onCtx h.onCtx.setReg.setReg

theorem State.Inv.onRoi {n r f} (h : s.Inv) : (s.onRoi n r f).Inv :=
  h.onCtx

theorem State.Inv.roiAdvance {n r} (h : s.Inv) : (s.roiAdvance n r).Inv :=
  h.setReg64

theorem State.Inv.roiEnd {n r incomplete drop} (h : s.Inv) : (s.roiEnd n r incomplete drop).Inv := by
  unfold State.roiEnd
  extract_lets _ _ _ _ s1 s2
  have h1 : s1.Inv := h.onRoi.setFld
  have h2 : s2.Inv := .ite h1 h1.setFld
  exact .ite h2.count.setEvt.fault h2

theorem State.Inv.roiLine {p n l room r} (h : s.Inv) : (s.roiLine p n l room r).Inv := by
  unfold State.roiLine
  extract_lets due was q s1 s2 s3 row k limit x0 bad s4 s5
  have h2 : s2.Inv := h.onRoi.setFld
  have h3 : s3.Inv := .ite h.roiAdvance.count.setEvt.fault (.ite (.ite h2.roiAdvance h2) h)
  have h5 : s5.Inv := h3.blockSave.onRoi
  exact .ite h (.ite h3 (.ite h3.roiEnd (.ite h5.roiEnd h5)))

theorem State.Inv.calLine {p n l} (h : s.Inv) : (s.calLine p n l).Inv := by
  unfold State.calLine
  exact .ite (h.foldl (fun _ _ h2 => by split; exact h2.storeNat)).setFld h

theorem State.Inv.calCtrlWrite {p v} (h : s.Inv) : (s.calCtrlWrite p v).Inv :=
  .ite h.fault (.ite h.typedWrite.clearBytes.setFld.setFld h.typedWrite)

theorem State.Inv.lineOut {p k l} (h : s.Inv) : (s.lineOut p k l).Inv := by
  unfold State.lineOut
  extract_lets lone s1 s2
  have h2 : s2.Inv := .ite h.setReg.fault h.setReg
  exact State.Inv.calLine (State.Inv.foldl h2.draw.handLine.preview fun _ _ h => h.roiLine)

theorem State.Inv.pipeRunTo {p k n} (h : s.Inv) : (s.pipeRunTo p k n).Inv :=
  h.foldl fun _ _ h2 => h2.lineOut

theorem State.Inv.pipeRun {p} (h : s.Inv) : (s.pipeRun p).Inv := by
  unfold State.pipeRun
  split
  · exact h
  · exact .ite h.pipeRunTo h.pipeRunTo.onIp

theorem State.Inv.serveStripe {p n} (h : s.Inv) : (s.serveStripe p n).Inv :=
  .pipeRun (.onIp (.stepWba (.onPort (.ite h.setFld.setFld.onCtx h.setFld.setFld))))

theorem State.Inv.finishWork {n} (h : s.Inv) : (s.finishWork n).Inv := by
  unfold State.finishWork
  exact h.each fun _ _ h2 => by split; exacts [.ite h2.pipeRunTo.onIp h2, h2]

theorem State.Inv.camStop {n} (h : s.Inv) : (s.camStop n).Inv :=
  h.finishWork.onCtx.onPort.setFld

theorem State.Inv.camCfgWrite {n v} (h : s.Inv) : (s.camCfgWrite n v).Inv := by
  unfold State.camCfgWrite
  extract_lets _ _ _ s1 _ s2
  have h1 : s1.Inv := h.typedWrite.setFld
  have h2 : s2.Inv := .ite h1.camTouched h1
  exact .ite (.ite h2.camStop.setFld h2) (.ite h2.fault (.ite h2 h2.camStop.setFld.setFld))

theorem State.Inv.failPipe {p} (h : s.Inv) : (s.failPipe p).Inv :=
  h.setFld.setUnit.setEvt.fault

/-! ### Test and replacement -/

theorem State.Inv.fewCores (h : s.Inv) : s.fewCores.Inv :=
  .ite h.fault h

theorem State.Inv.coreStops {k v} (h : s.Inv) : (s.coreStops k v).Inv :=
  h.dcLeave.onCc.setUnit.onTb.setReg.fewCores

theorem State.Inv.coreStarts {k ea} (h : s.Inv) : (s.coreStarts k ea).Inv :=
  h.onCc.setUnit

theorem State.Inv.retireUnit {u} (h : s.Inv) : (s.retireUnit u).Inv := by
  unfold State.retireUnit
  extract_lets _ s1 _
  have h1 : s1.Inv := .ite h.coreLeaves (.ite h.failPipe (.ite h.setRole h.setUnit))
  exact .ite h1.setEvt.stFault h1.setEvt

theorem State.Inv.laneReturns {n} (h : s.Inv) : (s.laneReturns n).Inv :=
  .ite h.laneBegin h

theorem State.Inv.unitReturns {u} (h : s.Inv) : (s.unitReturns u).Inv := by
  unfold State.unitReturns
  extract_lets c s1 ch r s2
  have h1 : s1.Inv := h.foldl fun _ _ h => h.clearEvents
  have h2 : s2.Inv := .ite h1.moveUnit (.ite h1.setFld.setFld.setUnit (.ite h1.setUnit.laneReturns
    (.ite h1.setRole.setFld.onRank.onChan (.ite h1.setUnit.chResume (.ite h1.setUnit
      (.ite h1.setUnit.onSi.setFld h1.setUnit))))))
  exact h2.setEvt.fault

theorem State.Inv.testBegin {u cmd} (h : s.Inv) : (s.testBegin u cmd).Inv := by
  unfold State.testBegin
  extract_lets _ _ _
  split
  · exact h.onSt.coreStops
  · exact .ite (.onHub (.ite h.onSt.setUnit.wakeRank h.onSt.setUnit)) (.ite h.onSt.setUnit.wakeRank
      h.onSt.setUnit)

theorem State.Inv.testRestores {u prev} (h : s.Inv) : (s.testRestores u prev).Inv := by
  unfold State.testRestores
  extract_lets _
  split
  · split
    · exact h.coreStarts
    · exact h.setUnit
  · exact .ite h.setUnit.laneReturns (.ite h.setUnit.chResume h.setUnit)

theorem State.Inv.testPasses {u t} (h : s.Inv) : (s.testPasses u t).Inv := by
  unfold State.testPasses
  extract_lets s1
  have h1 : s1.Inv := .ite h.stFault h
  split
  · exact .ite (by split; exacts [h1.unitReturns.coreStarts.stDone, h1.setUnit.stDone]) h1.unitReturns.stDone
  · exact .ite h1.testRestores h1.testRestores.stDone

theorem State.Inv.testEnds {u t pass} (h : s.Inv) : (s.testEnds u t pass).Inv := by
  unfold State.testEnds
  extract_lets r s1 stop s2 s3 s4
  have h1 : s1.Inv := h.testLeaves.setFld
  have h3 : s3.Inv := h1.count.setEvt.setFld.setFld
  have h4 : s4.Inv := h3.onSt.stFault.retireUnit
  exact .ite h1.count.setFld.onSt.setFld.testPasses (.ite (.ite h4 h4.stDone) h3.onSt)

theorem State.Inv.stRefuse {u} (h : s.Inv) : (s.stRefuse u).Inv :=
  h.setFld.stFault

theorem State.Inv.stTakeOut {u} (h : s.Inv) : (s.stTakeOut u).Inv := by
  unfold State.stTakeOut
  extract_lets s1 _
  have h1 : s1.Inv := h.abandonTest
  split
  · exact h1.coreStops.setEvt
  · exact .ite (.retireUnit (.onLane (.lanePhase (.ite h1.laneFail h1)))) (.ite h1.chAbort.retireUnit
      h1.retireUnit)

theorem State.Inv.stSwitchTo {u} (h : s.Inv) : (s.stSwitchTo u).Inv :=
  .ite h.selectPll h.selectXtal

theorem State.Inv.sagEntry {size} (h : s.Inv) : (s.sagEntry size).2.Inv :=
  h.draw

theorem State.Inv.loadSagger {code} (h : s.Inv) : (s.loadSagger code).Inv :=
  h.storeBytes.storeBytes.storeBytes

theorem State.Inv.stUpdateTo {u} (h : s.Inv) : (s.stUpdateTo u).Inv := by
  unfold State.stUpdateTo
  extract_lets s1
  have h1 : s1.Inv := h.imageRead
  split
  · split
    · extract_lets code
      split
      · exact h1.stDone
      · split
        next e =>
          have h2 := h1.loadSagger.sagEntry.of_eq e
          exact State.Inv.stDone h2
    · exact h1.stDone
  · exact .ite h1.holdImage.stDone h1.stDone

theorem State.Inv.stRun {op u} (h : s.Inv) : (s.stRun op u).Inv := by
  unfold State.stRun
  split
  · exact .ite h.testBegin h.stDone
  · exact .ite h.stTakeOut.stDone h.stDone
  · exact .ite h.testBegin h.stDone
  · exact .ite h.stSwitchTo.stDone h.stDone
  · exact h.stUpdateTo
  · exact h

theorem State.Inv.stCommand {op u} (h : s.Inv) : (s.stCommand op u).Inv :=
  .ite h (.ite h.stRefuse (.ite h.setFld.setFld.setFld.onSt h.setFld.setFld.setFld.stRun))

theorem State.Inv.stCmdWrite {v} (h : s.Inv) : (s.stCmdWrite v).Inv :=
  h.stCommand

theorem State.Inv.stResume (h : s.Inv) : s.stResume.Inv := by
  unfold State.stResume
  split
  · exact .ite h h.onSt.stRun
  · exact h

theorem State.Inv.takeFirst {key us} (h : s.Inv) : (s.takeFirst key us).Inv := by
  induction us generalizing s with
  | nil => exact h
  | cons u rest ih => exact .ite h.onSt.testBegin (ih h.count)

theorem State.Inv.testGroup {cls} (h : s.Inv) : (s.testGroup cls).2.2.Inv := by
  unfold State.testGroup
  split
  · exact h.draw
  · split
    · exact h.draw
    · exact h

theorem State.Inv.testSection (h : s.Inv) : s.testSection.Inv := by
  unfold State.testSection
  extract_lets _
  split
  · exact h
  · exact .ite h.onSt.draw (.ite h.onSt.draw.count.setEvt.count.fault
      h.onSt.draw.count.setEvt.count.setEvt.fault)

theorem State.Inv.sramCorrected {a} (h : s.Inv) : (s.sramCorrected a).Inv :=
  .ite h.countEvent.raiseWith.fault h.countEvent.raiseWith

theorem State.Inv.testSram (h : s.Inv) : s.testSram.Inv := by
  unfold State.testSram
  extract_lets s1
  have h1 : s1.Inv := h.count.foldl fun _ _ h2 => .ite h2.sramFault h2
  split
  next e =>
    have h3 := State.Inv.of_eq h1.draw e
    extract_lets _ _
    split
    · exact h3.draw
    · exact h3.draw.sramCorrected
    · exact h3.draw.setPoison.sramFault

theorem State.Inv.perBegin {key} (h : s.Inv) : (s.perBegin key).Inv :=
  h.onSt

/-! ### Print verification -/

theorem State.Inv.bqTags {p b rows} (h : s.Inv) : (s.bqTags p b rows).Inv :=
  .ite h.onVe (h.onVe.foldl (fun _ _ h2 => h2.blockSave))

theorem State.Inv.closeRegion {kind r flags} (h : s.Inv) : (s.closeRegion kind r flags).Inv :=
  .ite h (.ite h.count h.emit)

theorem State.Inv.settle {kind x} (h : s.Inv) : (s.settle kind x).2.Inv := by
  unfold State.settle
  split
  · exact h.closeRegion
  · extract_lets _
    split
    · exact h.closeRegion
    · exact h

theorem State.Inv.settleAll {kind xs} (h : s.Inv) : (s.settleAll kind xs).2.Inv :=
  h.foldl_snd fun _ _ h2 => h2.settle

theorem State.Inv.segment {row px} (h : s.Inv) : (s.segment row px).Inv := by
  unfold State.segment
  extract_lets _ _
  split
  · split
    next e =>
      have h2 := State.Inv.of_eq h.settleAll e
      extract_lets _
      split
      · exact h2.onVe
      · exact h2.onVe.closeRegion.fault.onVe
      · exact h2.onVe.onVe
      · exact h2.onVe.onVe

theorem State.Inv.regions {row px} (h : s.Inv) : (s.regions row px).Inv :=
  h.draw.settleAll.onVe

theorem State.Inv.health {row p} (h : s.Inv) : (s.health row p).Inv := by
  unfold State.health
  split
  · exact .ite h (by split; exacts [h.foldl (fun _ _ h2 => .ite h2 h2.storeNat.storeNat.storeNat), h])
  · exact h

theorem State.Inv.track {row px c i} (h : s.Inv) : (s.track row px c i).Inv := by
  unfold State.track
  extract_lets x0 key
  refine h.foldl fun _ _ h => ?_
  extract_lets w good
  split
  · exact h.onVe
  · exact h

theorem State.Inv.measure {c} (h : s.Inv) : (s.measure c).Inv :=
  .ite h.setFld.setFld.setEvt.fault h.setFld.setFld.setFld.setFld.setFld

theorem State.Inv.staleRows {row} (h : s.Inv) : (s.staleRows row).Inv := by
  unfold State.staleRows
  extract_lets _
  exact h.foldl (fun _ _ h2 => h2.foldl (fun _ _ h3 => .ite (.ite (.setEvt (.fault (.ite h3 (h3.foldl (fun _ _
      h4 => h4.poisonReport))))) (.ite h3 (h3.foldl (fun _ _ h4 => h4.poisonReport)))) (.onVe (.ite h3
      (h3.foldl (fun _ _ h4 => h4.poisonReport))))))

theorem State.Inv.noteRead {k} (h : s.Inv) : (s.noteRead k).Inv :=
  h.foldl fun _ _ h2 => .ite h2.onVe h2

theorem State.Inv.processRow {row} (h : s.Inv) : (s.processRow row).Inv := by
  unfold State.processRow
  extract_lets _ _ s1 _ s2 _ _ _ s3 s4 s5 _ s6 s7 s8
  have h1 : s1.Inv := h.foldl fun _ _ h2 => h2.setEvt.fault
  have h2 : s2.Inv := h1.staleRows.foldl fun _ _ h3 => by
    split
    · exact h3.foldl (fun _ _ h4 => h4.poisonReport)
    · exact h3
  have h3 : s3.Inv := h2.setReg.segment.regions
  have h4 : s4.Inv := h3.foldl fun _ _ h5 => h5.health
  have h5 : s5.Inv := .ite h4.onVe h4
  have h6 : s6.Inv := .ite (h5.foldl (fun _ _ h7 => h7.foldl (fun _ _ h8 => .ite h8.track h8))) h5
  have h7 : s7.Inv := .ite (h6.foldl (fun _ _ h8 => h8.measure)) h6
  have h8 : s8.Inv := h7.foldl fun _ _ h9 => h9.noteRead
  exact h8.onVe

theorem State.Inv.veCtrlWrite {v} (h : s.Inv) : (s.veCtrlWrite v).Inv :=
  .ite h.typedWrite.fault h.typedWrite

theorem State.Inv.veEnableWrite {v} (h : s.Inv) : (s.veEnableWrite v).Inv :=
  .ite h.veCtrlWrite (.ite h.veCtrlWrite.setFld.setEvt h.veCtrlWrite.setFld.setFld.onVe)

theorem State.Inv.veDisableWrite {v} (h : s.Inv) : (s.veDisableWrite v).Inv := by
  unfold State.veDisableWrite
  split
  · exact h.veCtrlWrite
  · extract_lets s1 s2 s3 _ _ s4
    have h1 : s1.Inv := h.foldl fun _ _ h2 => h2.closeRegion
    have h2 : s2.Inv := h1.foldl fun _ _ h3 => h3.closeRegion
    have h3 : s3.Inv := by
      unfold s3
      split
      · exact h2.closeRegion.fault
      · exact h2
    have h4 : s4.Inv := h3.setReg.onVe
    exact h4.veCtrlWrite.setFld

/-! ### Register writes -/

theorem State.Inv.topWrite {m off v} (h : s.Inv) : (s.topWrite m off v).Inv :=
  .ite h.semRelWrite (.ite h.semForceWrite h.typedWrite)

theorem State.Inv.ckWrite {d off v} (h : s.Inv) : (s.ckWrite d off v).Inv :=
  .ite h.ckDomWrite (.ite h.sysrstWrite h.typedWrite)

theorem State.Inv.siWrite {d off v} (h : s.Inv) : (s.siWrite d off v).Inv :=
  .ite h.safeRelWrite (.ite h.enbWrite (.ite h.wdgWrite (.ite h.hbenWrite (.ite h.hbWrite h.typedWrite))))

theorem State.Inv.admWrite {d off v} (h : s.Inv) : (s.admWrite d off v).Inv := by
  unfold State.admWrite
  exact .ite (by split; exacts [h.admitCmd, h.startCmd, h.releaseCmd, h]) (.ite (.ite h.typedWrite h)
      h.typedWrite)

theorem State.Inv.dsWrite {off v} (h : s.Inv) : (s.dsWrite off v).Inv :=
  .ite h.typedWrite.holdSet (.ite (.ite h.commitWrite h) h.typedWrite)

theorem State.Inv.lcWrite {off v} (h : s.Inv) : (s.lcWrite off v).Inv :=
  .ite h.lcCtrlWrite (.ite h.lcSetWrite (.ite h.popProduct h.typedWrite))

theorem State.Inv.fsWrite {d off v} (h : s.Inv) : (s.fsWrite d off v).Inv :=
  .ite h.fsCtrlWrite (.ite h.fsHubWrite (.ite h.cutClear (.ite h.gateCfgWrite h.typedWrite)))

theorem State.Inv.dlWrite {d off v} (h : s.Inv) : (s.dlWrite d off v).Inv :=
  .ite h.laneCfgWrite (.ite h.cfgwWrite h.typedWrite)

theorem State.Inv.checkGo (h : s.Inv) : s.checkGo.Inv :=
  h

theorem State.Inv.cxrWrite {d off v} (h : s.Inv) : (s.cxrWrite d off v).Inv :=
  .ite (.ite h.checkGo h) (.ite h.camCfgWrite (.ite h.typedWrite.camTouched (.ite h.mbxCmdWrite h.typedWrite)))

theorem State.Inv.roiCtrlWrite {n r v} (h : s.Inv) : (s.roiCtrlWrite n r v).Inv :=
  .ite (.ite (.ite h h.fault) (.setFld (.ite (.roiEnd (.ite h h.fault)) (.ite h h.fault)))) h.typedWrite

theorem State.Inv.ipWrite {d off v} (h : s.Inv) : (s.ipWrite d off v).Inv := by
  unfold State.ipWrite
  split
  · split
    · exact h.calCtrlWrite
    · split
      · exact .ite h.typedWrite h.typedWrite.setUnit
      · split
        · exact .ite (.setReg (.setReg (.ite h.typedWrite h.typedWrite.onCtx))) (.ite h.typedWrite
            h.typedWrite.onCtx)
        · exact .ite h.roiCtrlWrite (.ite (.ite h.fault h.typedWrite) h.typedWrite)

theorem State.Inv.offsetWrite {off bound v} (h : s.Inv) : (s.offsetWrite off bound v).Inv :=
  h.setReg

theorem State.Inv.veWrite {d off v} (h : s.Inv) : (s.veWrite d off v).Inv := by
  unfold State.veWrite
  split
  · exact .ite h.veEnableWrite h.veDisableWrite
  · exact .ite h.fault (.ite h.offsetWrite (.ite h.offsetWrite h.typedWrite))

theorem State.Inv.mcWrite {d off v} (h : s.Inv) : (s.mcWrite d off v).Inv := by
  unfold State.mcWrite
  extract_lets _
  split
  · exact h.mcCfgWrite
  · split
    · exact h.freqCmdWrite
    · split
      · exact h.portCfgWrite
      · exact .ite h.trnCmdWrite (.ite h.migCmdWrite (.ite h.sbWrite (.ite h.delayWrite h.typedWrite)))

theorem State.Inv.hiWrite {d off v} (h : s.Inv) : (s.hiWrite d off v).Inv :=
  .ite h.doorbellWrite (.ite h.swevtWrite (.ite h.vectorCtrlWrite h.typedWrite))

theorem State.Inv.dmaWrite {d off v} (h : s.Inv) : (s.dmaWrite d off v).Inv :=
  .ite h.chHeadWrite (.ite h.chCtrlWrite (.ite h.chPoke h.typedWrite))

theorem State.Inv.cvWrite {d off v} (h : s.Inv) : (s.cvWrite d off v).Inv := by
  unfold State.cvWrite
  extract_lets _
  split
  · exact h.cvCfgWrite
  · split
    · exact h.cvStartWrite
    · split
      · exact h.cvEndWrite
      · split
        · exact h.cvDataWrite
        · split
          · exact h.cvDataWrite
          · split
            · exact h.cvDataWrite
            · exact .ite h.cvValueSet (.ite (.ite h.abandonTest.onCv.setReg h.abandonTest.onCv.typedWrite)
                h.typedWrite)

theorem State.Inv.mxWrite {d off v} (h : s.Inv) : (s.mxWrite d off v).Inv :=
  .ite h.axCfgWrite (.ite h.axCmdWrite (.ite h.axPosWrite (.ite h.axFlagWrite h.typedWrite)))

theorem State.Inv.qeWrite {d off v} (h : s.Inv) : (s.qeWrite d off v).Inv :=
  .ite h.qeCfgWrite (.ite h.qeCountWrite (.ite h.softWrite h.typedWrite))

theorem State.Inv.leWrite {d off v} (h : s.Inv) : (s.leWrite d off v).Inv :=
  .ite h.leCtrlWrite (.ite h.lpCfgWrite (.ite h.leTrigWrite (.ite h.trCfgWrite h.typedWrite)))

theorem State.Inv.tpCfgWrite {n v} (h : s.Inv) : (s.tpCfgWrite n v).Inv :=
  .ite h.typedWrite.tpArm h.typedWrite

theorem State.Inv.tbWrite {d off v} (h : s.Inv) : (s.tbWrite d off v).Inv := by
  unfold State.tbWrite
  split
  · exact h.tbIncWrite
  · exact .ite h.tbSetWrite (.ite h.tbAdjWrite (.ite h.tbXsWrite (.ite h.cmpCtlWrite (.ite h.tpCfgWrite
      h.typedWrite))))

theorem State.Inv.enWrite {d off v} (h : s.Inv) : (s.enWrite d off v).Inv :=
  .ite h.typedWrite h.typedWrite

theorem State.Inv.bootWrite {m off v} (h : s.Inv) : (s.bootWrite m off v).Inv :=
  .ite h.vcmdWrite (.ite (.ite h.svnAdvWrite h) h.typedWrite)

theorem State.Inv.blockWrite {m d off v} (h : s.Inv) : (s.blockWrite m d off v).Inv :=
  .ite h.typedWrite.routeNew (.ite h.evtWrite (.ite h.topWrite (.ite h.ckWrite (.ite h.siWrite (.ite h.admWrite
    (.ite h.dsWrite (.ite h.lcWrite (.ite h.fsWrite (.ite h.dlWrite (.ite h.cxrWrite (.ite h.ipWrite (.ite
        h.veWrite
    (.ite h.mcWrite (.ite h.hiWrite (.ite h.dmaWrite (.ite h.cvWrite (.ite h.mxWrite (.ite h.qeWrite (.ite
        h.leWrite
    (.ite h.tbWrite (.ite h.enWrite (.ite (.ite h.stCmdWrite h.typedWrite) (.ite h.bootWrite
        h.typedWrite)))))))))))))))))))))))

theorem State.Inv.writeReg {m off v} (h : s.Inv) : (s.writeReg m off v).Inv := by
  unfold State.writeReg
  split
  · exact h
  · exact h.whenAwake fun _ h2 => h2.blockWrite

/-! ### Register reads -/

theorem State.Inv.readPos (h : s.Inv) : s.readPos.Inv :=
  h.setReg.setReg64

theorem State.Inv.readHwm (h : s.Inv) : s.readHwm.Inv :=
  h.setReg64

theorem State.Inv.readQ {l} (h : s.Inv) : (s.readQ l).Inv :=
  h.setReg.setReg64

theorem State.Inv.refresh {d off} (h : s.Inv) : (s.refresh d off).Inv := by
  unfold State.refresh
  split
  refine .ite h.setReg (.ite h.setReg (.ite h.setReg (.ite h.setReg (.ite h.readPos (.ite h.readHwm
    (.ite h.setFld.setFld (.ite h.latchNow (.ite h.latchNow (.ite h.latchXs (.ite h.readQ (.ite h.cvDrain
      (.ite h.setFld (.ite ?_ h)))))))))))))
  split
  · exact h.setFld
  · exact h

theorem State.Inv.readReg {m off} (h : s.Inv) : (s.readReg m off).2.Inv := by
  unfold State.readReg
  split
  · exact h
  · split
    · exact h.asleep
    · split
      · exact h.semReadBy
      · exact h.refresh

theorem State.Inv.readBy {m off} (h : s.Inv) : (s.readBy m off).Inv :=
  h.readBack fun _ h2 => h2.readReg

/-! ### Accesses of memory -/

theorem State.Inv.sectionLoad {w} (h : s.Inv) : (s.sectionLoad w).2.Inv := by
  unfold State.sectionLoad
  extract_lets _ _
  split
  · exact h.onLe
  · split
    · exact h
    · exact h

theorem State.Inv.sectionSave {w a bs} (h : s.Inv) : (s.sectionSave w a bs).Inv :=
  .ite h.onLe (.ite h.stateHighWrite h.putBytes)

theorem State.Inv.devLoad {a n} (h : s.Inv) : (s.devLoad a n).2.Inv := by
  unfold State.devLoad
  split
  · exact h.foldl_snd fun _ _ h2 => h2.sectionLoad
  · exact h

theorem State.Inv.devSave {a bs} (h : s.Inv) : (s.devSave a bs).Inv :=
  .ite (h.foldl (fun _ _ h2 => h2.sectionSave)) (.ite h h.putBytes)

/-- The register read is named by a variable first: the kernel would evaluate it at an offset that it computes
    in
unary. -/
theorem State.Inv.regsLoad {m a n} (h : s.Inv) : (s.regsLoad m a n).2.Inv := by
  obtain ⟨read, hread⟩ : ∃ f, f = @State.readReg := ⟨_, rfl⟩
  unfold State.regsLoad
  rw [← hread]
  split
  next e =>
    refine State.Inv.of_eq (.foldl_snd h fun acc w h => ?_) e
    split
    next e =>
      rw [hread] at e
      exact h.busGrant.readReg.of_eq e

theorem State.Inv.regsSave {m a bs} (h : s.Inv) : (s.regsSave m a bs).Inv :=
  h.foldl fun _ _ h2 => .ite h2.busGrant.writeReg h2

theorem State.Inv.pieceLoad {m a n hint} (h : s.Inv) : (s.pieceLoad m a n hint).2.Inv := by
  unfold State.pieceLoad
  split
  · exact h
  · exact h.regsLoad
  · exact h.dramUse.devLoad

theorem State.Inv.pieceSave {m a bs hint} (h : s.Inv) : (s.pieceSave m a bs hint).Inv := by
  unfold State.pieceSave
  split
  · exact h
  · exact h.regsSave
  · exact h.dramUse.devSave

theorem State.Inv.busLoad {m a n} (h : s.Inv) : (s.busLoad m a n).2.Inv := by
  unfold State.busLoad
  split
  next e => exact State.Inv.logUnmapped (.of_eq (by refine .foldl_snd h fun _ _ h => ?_; exact h.pieceLoad) e)

theorem State.Inv.busSave {m a bs} (h : s.Inv) : (s.busSave m a bs).Inv :=
  (h.foldl (fun _ _ h2 => h2.pieceSave)).logUnmapped

/-! ### Control cores and the Sagger -/

theorem State.Inv.onIs {c f} (h : s.Inv) : (s.onIs c f).Inv := by
  unfold State.onIs
  split
  · exact h.onCc
  · exact h

theorem State.Inv.putSr {c n v} (h : s.Inv) : (s.putSr c n v).Inv :=
  h.onIs

theorem State.Inv.writeSr {c n v} (h : s.Inv) : (s.writeSr c n v).Inv :=
  .ite h h.putSr

theorem State.Inv.readSr {c n} (h : s.Inv) : (s.readSr c n).2.Inv := by
  unfold State.readSr
  extract_lets _
  split
  · exact h
  · exact h
  · exact h.onIs
  · exact h
  · exact h.onIs
  · exact h
  · exact h

theorem State.Inv.trap {c cause epc eaddr} (h : s.Inv) : (s.trap c cause epc eaddr).Inv :=
  h.putSr.putSr.putSr.putSr.onIs

theorem State.Inv.except {c cause eaddr} (h : s.Inv) : (s.except c cause eaddr).Inv :=
  h.trap

theorem State.Inv.trapReturn {c} (h : s.Inv) : (s.trapReturn c).Inv :=
  h.putSr.onIs

theorem State.Inv.fetchWord {c pc ea} (h : s.Inv) : AccessInv (s.fetchWord c pc ea) := by
  delta State.fetchWord
  refine .ite (.stop h.except h) (.ite (.stop h.denied.except h) (.ite ?_ (.ite (.go h) ?_)))
  · exact .ite (.stop h.unmapped.except h) (.go h.unmapped)
  · split
    · next e => exact .stop (h.dramStall _ e) h
    · exact .ite (.stop h.dramUse.reportLines.except h.dramUse) (.ite (.go h.dramUse.onIs) (.go h.dramUse))

theorem State.Inv.fetch {c words} (h : s.Inv) : AccessInv (s.fetch c words) := by
  -- The kernel would evaluate the two functions when it compares their bodies: both are named first.
  obtain ⟨fetchWord, hword⟩ : ∃ f, f = @State.fetchWord := ⟨_, rfl⟩
  obtain ⟨fetch, hfetch⟩ : ∃ f, f = @State.fetch := ⟨_, rfl⟩
  have all : ∀ t pc ea, t.Inv → AccessInv (fetchWord t c pc ea) := fun t _ _ ht => hword ▸ ht.fetchWord
  rw [← hfetch]
  delta State.fetch at hfetch
  rw [← hword] at hfetch
  subst hfetch
  beta_reduce
  extract_lets pc
  have first := all s pc pc h
  generalize fetchWord s c pc pc = p at first ⊢
  split
  · exact first
  · exact .ite (all _ _ _ first.1) (.go first.1)

theorem State.Inv.isRun {c words act} (h : s.Inv) (hact : ∀ t, t.Inv → (act t).Inv) : (s.isRun c words act).Inv
    := by
  delta State.isRun
  have hfetch := h.fetch (c := c) (words := words)
  refine .ite h ?_
  split
  · next e => exact (hfetch.of_eq e).2 _ rfl
  · next e => exact hact _ (hfetch.of_eq e).1

theorem State.Inv.retireTo {c pc} (h : s.Inv) : (s.retireTo c pc).Inv :=
  h.onIs

theorem State.Inv.retire {c words} (h : s.Inv) : (s.retire c words).Inv :=
  h.retireTo

theorem State.Inv.setIsG {c r v} (h : s.Inv) : (s.setIsG c r v).Inv :=
  .ite h h.onIs

theorem State.Inv.setCoreG {c r v} (h : s.Inv) : (s.setCoreG c r v).Inv := by
  cases c with
  | xc x => exact h.setXg
  | cc k => exact h.setIsG
  | sg => exact h.setIsG

theorem State.Inv.coreDo {c words cost act} (h : s.Inv) (hact : ∀ t, t.Inv → (act t).Inv) : (s.coreDo c words
    cost act).Inv := by
  unfold State.coreDo
  split
  · exact h.xcStep hact fun _ h2 => h2
  · exact h.isRun fun _ h2 => (hact _ h2).retire
  · exact h.isRun fun _ h2 => (hact _ h2).retire

theorem State.Inv.coreJump {c words cost target act} (h : s.Inv) (hact : ∀ t, t.Inv → (act t).Inv) :
    (s.coreJump c words cost target act).Inv := by
  unfold State.coreJump
  split
  · exact h.xcStep hact fun _ h2 => h2
  · exact h.isRun fun _ h2 => (hact _ h2).retireTo
  · exact h.isRun fun _ h2 => (hact _ h2).retireTo

theorem State.Inv.coreIllegal {c word} (h : s.Inv) : (s.coreIllegal c word).Inv := by
  unfold State.coreIllegal
  split
  · exact .ite h.xcIllegal h
  · exact h.isRun fun _ h2 => h2.except
  · exact h.isRun fun _ h2 => h2.except

/-! ### Loads and stores -/

theorem State.Inv.isLoad {c ea n} (h : s.Inv) : LoadInv (s.isLoad c ea n) := by
  delta State.isLoad
  refine .ite (.stop h.except h) (.ite (.stop h.denied.except h) ?_)
  split
  · refine .ite (.stop h.except h) ?_
    split
    next e => exact .go (h.regsLoad.of_eq e)
  · exact .go h.unmapped
  · refine .ite ?_ ?_
    · split
      next e => exact .go (h.dcLoad.of_eq e)
    · extract_lets _ _ _ s1
      have h1 : s1.Inv := h.dramUse
      split
      · next e => exact .stop (h.dramStall _ e) h
      · refine .ite (.stop h.reportLines.except h) (.ite ?_ ?_)
        · split
          next e => exact .go (h.dcLoad.of_eq e)
        · split
          next e => exact .go (h1.devLoad.of_eq e)

theorem State.Inv.isStore {c ea bs} (h : s.Inv) : AccessInv (s.isStore c ea bs) := by
  delta State.isStore
  refine .ite (.stop h.except h) (.ite (.stop h.denied.except h) ?_)
  split
  · exact .go h.regsSave
  · exact .go h.unmapped
  · refine .ite ?_ (.ite (.go h.devSave.devSave.devSave) ?_)
    · extract_lets
      split
      · next e =>
        refine .stop ?_ h
        split at e
        · cases e
        · split at e <;> exact h.dramStall _ e
      · exact .ite (.go h.dramUse.devSave) (.go h.dcSave)
    · split
      · next e => exact .stop (h.dramStall _ e) h
      · exact .go h.dramUse.devSave

theorem State.Inv.coreLoad {c rd ra imm n signed} (h : s.Inv) : (s.coreLoad c rd ra imm n signed).Inv := by
  unfold State.coreLoad
  extract_lets is
  have his : ∀ c, (is c).Inv := fun c => h.isRun fun t h => by
    split
    · next e => exact (h.isLoad.of_eq e).2 _ rfl
    · next e => exact (h.isLoad.of_eq e).1.setIsG.retire
  cases c with
  | xc x => exact h.xcStep (fun _ h => h.draw.setXg) fun _ h => h
  | cc k => exact his _
  | sg => exact his _

theorem State.Inv.coreStore {c rs ra imm n} (h : s.Inv) : (s.coreStore c rs ra imm n).Inv := by
  unfold State.coreStore
  extract_lets is
  have his : ∀ c, (is c).Inv := fun c => h.isRun fun t h => by
    split
    · next e => exact (h.isStore.of_eq e).2 _ rfl
    · next e => exact (h.isStore.of_eq e).1.retire
  cases c with
  | xc x => exact h.xcStep (fun _ h => h.localStore) fun _ h => h
  | cc k => exact his _
  | sg => exact his _

/-! ### Base instructions -/

theorem State.Inv.alu2 {c rd ra rb cost f} (h : s.Inv) : (s.alu2 c rd ra rb cost f).Inv :=
  h.coreDo fun _ h2 => h2.setCoreG

theorem State.Inv.alu1 {c rd ra words cost f} (h : s.Inv) : (s.alu1 c rd ra words cost f).Inv :=
  h.coreDo fun _ h2 => h2.setCoreG

theorem State.Inv.branch {c ra rb off test} (h : s.Inv) : (s.branch c ra rb off test).Inv :=
  .ite (h.coreJump (fun _ h2 => h2)) (h.coreDo (fun _ h2 => h2))

/-! ### Moves of DMA -/

theorem State.Inv.dmaLoad {n a len hint} (h : s.Inv) : (s.dmaLoad n a len hint).2.2.Inv := by
  unfold State.dmaLoad
  extract_lets _ _
  split
  · exact h.dmaLand.denied
  · split
    · next e =>
        have h2 := h.dmaLand.dramStall _ e
        exact h2
    · split
      · exact h.dmaLand.reportLines
      · exact .ite h.dmaLand.pieceLoad.unmapped h.dmaLand.pieceLoad

theorem State.Inv.dmaSave {n a bs hint} (h : s.Inv) : (s.dmaSave n a bs hint).2.Inv := by
  unfold State.dmaSave
  extract_lets _
  split
  · exact h.denied
  · split
    · next e =>
        have h2 := h.dramStall _ e
        exact h2
    · split
      · exact h.unmapped
      · exact h.pieceSave
      · exact .ite h.draw.dmaLand.pieceSave h.draw.dmaLand.onDma

theorem State.Inv.cvClaim {n d} (h : s.Inv) : (s.cvClaim n d).Inv :=
  .ite h h.onDma.abandonTest.setFld

theorem State.Inv.dmaSource {d old i bs} (h : s.Inv) : (s.dmaSource d old i bs).2.Inv := by
  unfold State.dmaSource
  extract_lets a
  split
  next e =>
    have h1 := State.Inv.of_eq (by split; exacts [h.draw, h]) e
    exact .ite_snd h1.draw h1

theorem State.Inv.dmaChunk {n d old i len} (h : s.Inv) : (s.dmaChunk n d old i len).2.Inv := by
  unfold State.dmaChunk
  split
  · next e =>
    split at e
    · exact h.dramStall _ e
    · cases e
  · split
    next e =>
      have h1 := State.Inv.of_eq₂ (.ite_thd h h.dmaLoad) e
      refine .ite_snd h1 ?_
      split
      next e =>
        have h2 := h1.cvClaim.dmaSource.of_eq e
        split
        next e =>
          have h3 := h2.dmaSave.of_eq e
          exact .ite_snd h3 (.onDma (.ite h3.cvFeed h3))

theorem State.Inv.dmaRun {n d old limit fuel} (h : s.Inv) : (s.dmaRun n d old limit fuel).2.Inv := by
  induction fuel generalizing s with
  | zero => exact h
  | succ fuel ih =>
    unfold State.dmaRun
    refine .ite_snd h ?_
    split
    · next e => exact ih (h.dmaChunk.of_eq e)
    · next e => exact h.dmaChunk.of_eq e

theorem State.Inv.dmaMove {n d limit} (h : s.Inv) : (s.dmaMove n d limit).2.Inv :=
  h.dmaRun

theorem State.Inv.dmaDesc {n} (h : s.Inv) : (s.dmaDesc n).2.Inv := by
  unfold State.dmaDesc
  extract_lets c
  split
  · exact .ite_snd h h.draw.onDma
  · exact h

theorem State.Inv.dmaFails {n r} (h : s.Inv) : (s.dmaFails n r).Inv :=
  .ite h h.dmaFinish

theorem State.Inv.dmaStops {n} (h : s.Inv) : (s.dmaStops n).Inv :=
  .ite h h.dmaFinish

theorem State.Inv.chStep {n st act} (h : s.Inv) (hact : ∀ t, t.Inv → (act t).Inv) : (s.chStep n st act).Inv :=
  .ite h (.ite h.dmaStops (hact _ h))

theorem State.Inv.dmaCycle {old} (h : s.Inv) : (s.dmaCycle old).Inv := by
  unfold State.dmaCycle
  split
  · exact h
  · extract_lets n
    split
    next e =>
      have h1 := h.grant.draw.of_eq e
      refine .ite h1 ?_
      split
      next e => exact h1.dmaDesc.of_eq e
      next e =>
        have h2 := h1.dmaDesc.of_eq e
        refine .ite h2 ?_
        split
        next e => exact h2.dmaChunk.of_eq e
        next e => exact (h2.dmaChunk.of_eq e).dmaFails

theorem State.Inv.dmaArrive (h : s.Inv) : s.dmaArrive.Inv :=
  .ite h (h.draw.each (fun _ _ h3 => h3.dmaLand))

theorem State.Inv.dmaTick (h : s.Inv) : s.dmaTick.Inv :=
  .dmaArrive (.ite (h.foldl (fun _ _ h2 => h2.dmaCycle)) h)

/-! ### Accesses of the host -/

theorem State.Inv.baseOf {bar base} (h : s.Inv) : (s.baseOf bar base).2.Inv := by
  unfold State.baseOf
  split
  · exact h.draw
  · exact h

theorem State.Inv.aer {e} (h : s.Inv) : (s.aer e).Inv :=
  h

theorem State.Inv.bar0Odd {x} (h : s.Inv) : (s.bar0Odd x).Inv :=
  h.fault.count

theorem State.Inv.hostWrites {bar a x data poisoned} (h : s.Inv) : (s.hostWrites bar a x data poisoned).Inv :=
    by
  unfold State.hostWrites
  extract_lets _
  split
  · exact h.fault.count.aer
  · split
    · exact .ite (h.foldl (fun _ _ h2 => h2.regGuard (fun _ h3 => h3.writeReg))) (.bar0Odd (.ite h h.denied))
    · exact .ite h.busSave h.denied

theorem State.Inv.hostWord {w} (h : s.Inv) : (s.hostWord w).2.Inv := by
  unfold State.hostWord
  split
  · exact h.busGrant.readReg
  · exact h.denied

theorem State.Inv.complete {data ep} (h : s.Inv) : (s.complete data ep).Inv :=
  h

theorem State.Inv.hostReads {bar a x len} (h : s.Inv) : (s.hostReads bar a x len).Inv := by
  unfold State.hostReads
  extract_lets o
  split
  · split
    · exact State.Inv.complete (.foldl_snd (p := ([], s)) h fun _ _ h => h.hostWord)
    · exact h.hostWord.bar0Odd.complete
  · exact .ite h.denied.complete (.ite h.reportLines.draw.complete h.busLoad.complete)

theorem State.Inv.hostStall {bar a n write} (h : s.Inv) :
    ∀ t, s.hostStall bar a n write = some t → t.Inv := by
  intro t e
  unfold State.hostStall at e
  split at e
  · cases e
  · exact h.dramStalls _ e

theorem State.Inv.hostDo {t} (h : s.Inv) : (s.hostDo t).2.Inv := by
  unfold State.hostDo
  split
  · split
    next e =>
      have h1 := h.baseOf.of_eq e
      extract_lets a
      split
      · next e => exact h1.hostStall _ e
      · exact h1.hostReads
  · split
    next e =>
      have h1 := h.baseOf.of_eq e
      extract_lets a
      split
      · next e =>
        split at e
        · cases e
        · exact h1.hostStall _ e
      · exact h1.hostWrites

theorem State.Inv.hostRun {xs} (h : s.Inv) : (s.hostRun xs).Inv := by
  induction xs generalizing s with
  | nil => exact h
  | cons x rest ih =>
    rw [State.hostRun]
    split
    · next e => have h1 := h.hostDo.of_eq e; exact h1
    · next e => exact ih (h.hostDo.of_eq e)

/-! ### Host resets -/

theorem State.Inv.hostEnds {n up} (h : s.Inv) : (s.hostEnds n up).Inv :=
  h.fault.dmaFinish

theorem State.Inv.hostReset (h : s.Inv) : s.hostReset.Inv :=
  State.Inv.foldl (State.Inv.setReg h.filterRegs) fun _ _ h => .ite h.hostEnds h

theorem State.Inv.linkLost (h : s.Inv) : s.linkLost.Inv :=
  h.setFld.setFld.setFld.hostReset.fault.setEvt

/-! ### PROT setup -/

theorem State.Inv.writeSetup {sec} (h : s.Inv) : (s.writeSetup sec).Inv :=
  (h.each (fun _ _ h2 => h2.typedWrite.typedWrite.typedWrite.typedWrite)).typedWrite

theorem State.Inv.writeList {sec} (h : s.Inv) : (s.writeList sec).Inv :=
  h.foldl fun _ _ h2 => h2.writeReg

theorem State.Inv.startSagger {code} (h : s.Inv) : (s.startSagger code).Inv := by
  unfold State.startSagger
  split
  next e =>
    have h1 := h.loadSagger.sagEntry.of_eq e
    exact State.Inv.onSi h1

theorem State.Inv.releaseCc0 {img} (h : s.Inv) : (s.releaseCc0 img).Inv :=
  h.storeBytes.coreStarts

/-! ### System instructions -/

theorem State.Inv.notePrior {c} (h : s.Inv) : (s.notePrior c).Inv :=
  h.onIs

theorem State.Inv.srAccess {c n word write act} (h : s.Inv) (hact : ∀ t, t.Inv → (act t).Inv) : (s.srAccess c n
    word write act).Inv :=
  h.isRun (fun _ h2 => .ite h2.except (.retire (.ite (hact _ h2).notePrior (hact _ h2))))

theorem State.Inv.sysOnly {c word act} (h : s.Inv) (hact : ∀ t, t.Inv → (act t).Inv) : (s.sysOnly c word
    act).Inv :=
  h.isRun fun _ h2 => .ite (hact _ h2) h2.except

theorem State.Inv.wfiEnds {c} (h : s.Inv) : (s.wfiEnds c).Inv :=
  .ite h.onIs.retire h

theorem State.Inv.cacheOp {c ra act} (h : s.Inv) (hact : ∀ t x1, t.Inv → (act t x1).Inv) : (s.cacheOp c ra
    act).Inv :=
  .ite h.retire (.ite h.denied.except (.ite (hact _ _ h).retire h.retire))

theorem State.Inv.noteLatency {c waited i} (h : s.Inv) : (s.noteLatency c waited i).Inv :=
  .ite h (.ite h.putSr h.draw.putSr)

/-! ### Vectors -/

theorem State.Inv.lanesOp {x va vb vc f} (h : s.Inv) : (s.lanesOp x va vb vc f).Inv :=
  h.xcDo fun _ h2 => h2.setXv

/-! ### Commands -/

-- exec

/-! ### A tick -/

theorem State.Inv.coreCycles (h : s.Inv) : s.coreCycles.Inv :=
  .ite (h.each (fun _ _ h2 => .ite h2.onCc h2)) (h.each (fun _ _ h2 => .ite h2.onCc h2))

theorem State.Inv.motionTick (h : s.Inv) : s.motionTick.Inv := by
  unfold State.motionTick
  extract_lets s1 s2 _ s3
  have h1 : s1.Inv := (h.lcTake.lcTimerTick.each (fun _ _ h2 => h2.camBegins)).calTick
  have h2 : s2.Inv := h1.each fun _ _ h3 => h3.axTick
  have h3 : s3.Inv := h2.feedTick.each fun _ _ h4 => h4.qeTick
  exact (h3.each (fun _ _ h5 => h5.loopTick)).leBoundary

theorem State.Inv.dataTick (h : s.Inv) : s.dataTick.Inv := by
  unfold State.dataTick
  extract_lets s1 s2 s3
  have h1 : s1.Inv := (h.each (fun _ _ h2 => h2.cvTick)).each fun _ _ h2 => h2.whenClocked (fun _ h3 =>
      h3.pipeRun)
  have h2 : s2.Inv := h1.foldl fun _ _ h3 => h3.dmaStops
  have h3 : s3.Inv := h2.dmaTick.dcEvict.stResume.dramTick
  exact .ite h3 h3.hostRun

theorem State.Inv.safetyTick (h : s.Inv) : s.safetyTick.Inv :=
  .blankEnds (.siReview (.ite h (h.each (fun _ _ h2 => h2.dangerLine))))

theorem State.Inv.tick (h : s.Inv) : s.tick.Inv :=
  .ite (.tryClocks (h.heldReset)) (.ite h (.safetyTick (.dataTick (.motionTick (.tbTick (.coreCycles h))))))

/-! ### A step -/

-- step

/-! ### Instructions, commands and events -/

/-- The state that an instruction leaves, when it proceeds, is canonical. -/
def OutInv (o : Out) : Prop :=
  ∀ t, o = .next t → t.Inv

theorem OutInv.next (h : s.Inv) : OutInv (.next s) :=
  fun _ e => Host.Outcome.next.inj e ▸ h

theorem State.Inv.execAdmissionComplete {j} (h : s.Inv) : OutInv (execAdmissionComplete j s) := by
  refine .next ?_
  split
  · exact h
  · split
    · next e =>
        have h2 := h.dramStalls _ e
        exact h2
    · exact h.dramReads.draw.setJob.setSlotState.setFld.setFld.setFld.setReg.setReg.setReg.setEvt

theorem State.Inv.execTxFrame {e phase} (h : s.Inv) : OutInv (execTxFrame e phase s) := by
  refine .next ?_
  split
  · exact h
  · extract_lets ix d
    split
    next e =>
      have h1 := State.Inv.of_eq h.memLoad e
      split
      next e =>
        have h2 := State.Inv.of_eq h1.memLoad e
        extract_lets _ _ _ _ _ _ _ _ s4 s5 s6 s7 s8
        have h6 : s6.Inv := State.Inv.setReg (State.Inv.memSave (s := s4) h2)
        have h7 : s7.Inv := .ite h6.setFld.setFld.setEvt (.ite h6.count h6)
        have h8 : s8.Inv := .ite h7.count h7
        exact h8.setEvt

theorem State.Inv.execStreamPacket {n pkt} (h : s.Inv) : OutInv (execStreamPacket n pkt s) :=
  .next (.ite h (.ite (.ite h.onPort.count.faultCounted.fault h.onPort.count.faultCounted) (.ite h.count
      h.onPort)))

theorem State.Inv.execLineReceived {n streamEnd} (h : s.Inv) : OutInv (execLineReceived n streamEnd s) :=
  .next (.ite h (.ite (.lineDone (.closeShort (.ite h h.receiveLine))) (.ite h h.receiveLine)))

theorem State.Inv.execLinkDown {link} (h : s.Inv) : OutInv (execLinkDown link s) :=
  .next (h.whenClocked (fun _ h2 => .ite (.fault (.setEvt (.lineDone (.setFld (.ite h2.setFld.setFld
      h2.setFld.setFld))))) (.ite h2.setFld.setFld h2.setFld.setFld)))

theorem State.Inv.execCheckDone (h : s.Inv) : OutInv (execCheckDone s) := by
  refine .next (h.whenClocked fun t ht => .ite ht (.setEvt ?_))
  split
  · exact State.Inv.setFld (s := State.setFld _ _ _ _) (.setFld (.setFld (.setFld ht)))
  · refine .each (.foldl ?_ fun _ _ h => h.setFld) fun _ _ h => h.setFld
    exact State.Inv.setFld (s := State.setReg _ _ _) (.setReg ht)

theorem State.Inv.execMbxDone {n r} (h : s.Inv) : OutInv (execMbxDone n r s) := by
  refine .next ?_
  exact h.whenClocked fun _ h2 => by
    split
    · exact h2
    · exact h2.onPort
    · exact .mbxEnd (.ite h2 (h2.each (fun _ _ h3 => h3.setReg)))
    · exact h2.setFld.mbxEnd
    · exact h2.mbxEnd

theorem State.Inv.execMbxTimeout {n} (h : s.Inv) : OutInv (execMbxTimeout n s) := by
  refine .next ?_
  exact h.whenClocked fun _ h2 => by split; exacts [h2, .ite h2.mbxEnd h2]

theorem State.Inv.execRecordWrite (h : s.Inv) : OutInv (execRecordWrite s) := by
  refine .next ?_
  split
  · exact .ite (by split; exacts [h, .ite h.onVe h.onVe.count.setEvt.fault]) h.onVe.putRecord
  · exact .ite h.onVe.onVe h.onVe.putRecord
  · exact h

theorem State.Inv.execPhaseComplete {n} (h : s.Inv) : OutInv (execPhaseComplete n s) := by
  refine .next ?_
  split
  · exact h.setFld.setFld.lanePhase
  · exact .ite h.lanePhase h
  · exact .ite h.capsComplete h
  · exact .ite h.lanePhase h
  · exact .ite (.ite h.laneUp h) (.ite h.setFld.setFld.lanePhase.onLane h)
  · exact h

theorem State.Inv.execPhaseTimeout {n} (h : s.Inv) : OutInv (execPhaseTimeout n s) := by
  refine .next ?_
  split
  · exact h
  · extract_lets _ s1
    have h1 : s1.Inv := .ite h.setFld.onLane h.setFld
    exact .ite h1.laneAttempt h1.lanePhase.setEvt.fault

theorem State.Inv.execCap {n index value} (h : s.Inv) : OutInv (execCap n index value s) := by
  refine .next ?_
  split
  · exact h
  · split
    · exact h.dlViolation
    · exact .ite (.ite h h.dlViolation) (.ite (.onLane (.ite h h.dlViolation)) (.dlViolation (.ite h
        h.dlViolation)))

theorem State.Inv.execRate {r} (h : s.Inv) : OutInv (execRate r s) := by
  refine .next ?_
  split
  · exact .ite h.setFld.setFld.onLane h
  · exact .ite h (.ite h.padCheck h.padCheck.dlViolation)

theorem State.Inv.execReady {b} (h : s.Inv) : OutInv (execReady b s) := by
  refine .next ?_
  split
  · exact h
  · split
    · exact .ite h.dlViolation (.ite h.padCheck.onLane.sendSync (.ite h.padCheck.dlViolation h.padCheck))
    · exact .ite h.padCheck (.ite h h.dlViolation)
    · exact h.dlViolation

theorem State.Inv.execDose {n} (h : s.Inv) : OutInv (execDose n s) := by
  refine .next ?_
  split
  · exact .ite h.onLane.sendDose h
  · exact h

theorem State.Inv.execLanes {k} (h : s.Inv) : OutInv (execLanes k s) := by
  refine .next ?_
  split
  · exact h
  · exact (h.leadNow.foldl (fun _ _ h3 => h3.sendCtrl)).onHub

theorem State.Inv.execHeartbeat {n hb} (h : s.Inv) : OutInv (execHeartbeat n hb s) := by
  unfold Machine.execHeartbeat
  split
  next e =>
    have h1 := h.sopCheck.of_eq e
    refine .next (.ite h (.ite h1 (.ite h1.laneCrc ?_)))
    extract_lets _ t t1 t2 t3 t4
    have ht : t.Inv := h1.goOnline
    have h2 : t2.Inv := ht.onLane.hubAck.laneTestDrain
    have h3 : t3.Inv := .ite h2.dlViolation.onLane h2
    have h4 : t4.Inv := .ite h3.hubMiss h3
    exact .ite ht.dlViolation (.ite h4.hubNack h4)

theorem State.Inv.execStatus {n st} (h : s.Inv) : OutInv (execStatus n st s) := by
  unfold Machine.execStatus
  extract_lets k ivl
  split
  next e =>
    have h1 := h.sopCheck.of_eq e
    refine .next (.ite h (.ite h1 (.ite h1.laneCrc ?_)))
    extract_lets t t1 again t2
    have h2 : t2.Inv := State.Inv.onHub (h1.goOnline.each fun _ _ h => h.setReg)
    exact .ite h2 h2.hubTemps

theorem State.Inv.execPacketSet (h : s.Inv) : OutInv (execPacketSet s) := by
  refine .next ?_
  exact h.whenClocked fun _ h2 => by
    split
    · exact h2
    · exact (h2.foldl (fun _ _ h3 => h3.slotPacket)).onDs

theorem State.Inv.execReceiverIndexBuilt (h : s.Inv) : OutInv (execReceiverIndexBuilt s) := by
  refine .next (h.whenClocked fun t ht => ?_)
  split
  · exact ht
  · refine .ite ht.commitRefused (.ite ?_ ?_)
    · split
      · exact ht.commitAccepted
      · exact ht.setReg64.commitAccepted
    · split
      · exact .ite ht.commitRefused ht.commitAccepted
      · exact ht.commitAccepted

theorem State.Inv.execSegmentEnd {a} (h : s.Inv) : OutInv (execSegmentEnd a s) := by
  refine .next ?_
  split
  · exact .ite h (.ite (.axArrive (.ite h.axFlag h)) h.beginSeg)
  · exact h

theorem State.Inv.execTrip {a sw} (h : s.Inv) : OutInv (execTrip a sw s) := by
  refine .next ?_
  split
  · exact h
  · extract_lets early s1 s2
    refine .ite h.setFld.chatter ?_
    have h2 : s2.Inv := h.setFld.homeTrip
    split
    · exact h2.limitAction
    · exact h2.limitAction
    · exact h2

theorem State.Inv.execStill {q} (h : s.Inv) : OutInv (execStill q s) := by
  refine .next ?_
  extract_lets _
  split
  · exact .ite (.ite h.qeStandstill.qeFlag.setEvt h.qeStandstill.qeFlag) h
  · exact h

theorem State.Inv.execAcceptedCount {q lineB} (h : s.Inv) : OutInv (execAcceptedCount q lineB s) :=
  .next (.ite h (.ite h.takeLevels.onQe.setCount.edge.lcMove h.takeLevels.onQe.setCount.edge))

theorem State.Inv.execIllegal {q} (h : s.Inv) : OutInv (execIllegal q s) :=
  .next (.ite h (.ite h.takeLevels.onQe.qeFlag.faultCounted.fault.qeFlag h.takeLevels.onQe.qeFlag.faultCounted))

theorem State.Inv.execIndex {q} (h : s.Inv) : OutInv (execIndex q s) := by
  refine .next ?_
  split
  · exact h
  · extract_lets _ _ s1
    have h1 : s1.Inv := h.setReg.indexHomes
    split
    · exact h1
    · split
      · exact .ite (.setCount (.ite h1.setReg.indexMismatch h1.setReg)) (.ite h1.setReg.indexMismatch h1.setReg)
      · exact .ite h1.setReg.setFld h1

theorem State.Inv.execRearm (h : s.Inv) : OutInv (execRearm s) := by
  refine .next ?_
  split
  · exact h
  · split
    · exact h
    · exact .ite h (.ite h.onSi.onSi h.onSi.setFld.raiseEnables)
    · exact .ite h h.onSi.setFld.raiseEnables

theorem State.Inv.execResync (h : s.Inv) : OutInv (execResync s) := by
  refine .next ?_
  split
  · exact .ite h h.rejoinCore.setEvt.injectNext
  · exact h

theorem State.Inv.execJobWindow {j} (h : s.Inv) : OutInv (execJobWindow j s) := by
  refine .next ?_
  split
  · exact h
  · exact h.onSi.siReview

theorem State.Inv.execLatentTest {failRow} (h : s.Inv) : OutInv (execLatentTest failRow s) := by
  refine .next ?_
  split
  · exact h
  · extract_lets _ s1 s2
    have h1 : s1.Inv := .ite h.count.setFld h.count.setFld.setFld.fault
    have h2 : s2.Inv := h1.testEnables
    exact .ite h2 h2.onSi.injectNext

theorem State.Inv.execFaultTake (h : s.Inv) : OutInv (execFaultTake s) := by
  refine .next (.ite h ?_)
  extract_lets
  split
  · exact h
  · split
    · exact h
    · exact h.grant.onSi.keepRecord

theorem State.Inv.execFaultRecord (h : s.Inv) : OutInv (execFaultRecord s) := by
  refine .next ?_
  extract_lets _ _
  split
  · exact h
  · exact .ite h h.blockSave.onSi.setReg.count.setEvt

theorem State.Inv.execFireRisingEdge {k} (h : s.Inv) : OutInv (execFireRisingEdge k s) := by
  refine .next ?_
  split
  · exact .ite h (.ite h.onFs.gapOpen.fireHub.holdHub (.ite h.onFs.onFs h.onFs.onFs.gapClose))
  · exact h

theorem State.Inv.execStrobeEnd {k} (h : s.Inv) : OutInv (execStrobeEnd k s) := by
  refine .next ?_
  split
  · exact .ite h.onFs h
  · exact h

theorem State.Inv.execPadCut {k} (h : s.Inv) : OutInv (execPadCut k s) := by
  refine .next ?_
  split
  · exact .ite h.setFld.setEvt.fault h
  · exact h

theorem State.Inv.execProdTrigger {lane pos} (h : s.Inv) : OutInv (execProdTrigger lane pos s) := by
  refine .next ?_
  split
  · exact h
  · extract_lets _
    split
    · exact h.wakeSource.refuseProduct
    · exact .ite h.wakeSource.refuseProduct h.wakeSource.acceptProduct

theorem State.Inv.execRep {x a lenM1} (h : s.Inv) : OutInv (execRep x a lenM1 s) := by
  refine .next ?_
  extract_lets _ _
  split
  · exact .ite h.xcIllegal h
  · exact .ite (h.xcStep (fun _ h2 => h2) (fun _ h2 => h2)) (h.xcStep (fun _ h2 => h2.onXc) (fun _ h2 => h2))

theorem State.Inv.execReleasedAsZeroDose {p band col} (h : s.Inv) : OutInv (execReleasedAsZeroDose p band col
    s) := by
  refine .next ?_
  split
  · exact .ite h.releaseZero h
  · exact h

theorem State.Inv.execPrefetch {x} (h : s.Inv) : OutInv (execPrefetch x s) := by
  refine .next (h.whenClocked fun t ht => ?_)
  split
  · exact ht
  · refine .ite ht ?_
    extract_lets
    split
    · next e => exact ht.dramStalls _ e
    · refine .setPhase (.onTile (.foldl_snd ?_ fun _ _ h => State.Inv.fetchEntry h))
      exact ht.dramReads.draw.memLoad

theorem State.Inv.execTileStart {x} (h : s.Inv) : OutInv (execTileStart x s) := by
  refine .next ?_
  exact h.whenClocked fun _ h2 => by
    split
    · exact h2
    · exact .ite h2 (.setPhase (.setXg (.setXg (.setXg (.setXg (.setXg (.onXc (.ite h2.storeBytes h2))))))))

theorem State.Inv.execBufferReadAndClear {x} (h : s.Inv) : OutInv (execBufferReadAndClear x s) := by
  refine .next ?_
  split
  · exact h
  · exact h.onTile.clearBytes.onXc

theorem State.Inv.execVote {p band col} (h : s.Inv) : OutInv (execVote p band col s) := by
  refine .next ?_
  split
  · exact h
  · split
    · exact h
    · split
      · exact h.releaseZero
      · exact .ite h.unresolvedTile (by split; exacts [h.acceptTile, .ite h.unresolvedTile h.furtherRender])

theorem State.Inv.execFeedHold (h : s.Inv) : OutInv (execFeedHold s) := by
  refine .next ?_
  split
  · extract_lets _ s1
    have h1 : s1.Inv := h.onLc.setFld.setFld.setEvt
    split
    · exact h1.setAxState.setRun
    · exact h1
  · exact h

theorem State.Inv.execFeedStopped (h : s.Inv) : OutInv (execFeedStopped s) := by
  refine .next ?_
  split
  · exact .ite (.setRun (.setAxState (.setFld (.ite h.axFlag h)))) h
  · exact h

theorem State.Inv.execFeedReady (h : s.Inv) : OutInv (execFeedReady s) := by
  refine .next ?_
  split
  · exact .ite h.onLc h
  · exact h

theorem State.Inv.execCamtrigEnd {c} (h : s.Inv) : OutInv (execCamtrigEnd c s) := by
  refine .next ?_
  split
  · exact .ite h.onLc h
  · exact h

theorem State.Inv.execLineEvent (h : s.Inv) : OutInv (execLineEvent s) := by
  refine .next ?_
  extract_lets _
  split
  · exact h
  · exact .ite h h.setFld.lineAt

theorem State.Inv.execCrystalQualified {x} (h : s.Inv) : OutInv (execCrystalQualified x s) :=
  .next (.ite h (.ite (.ite h.setBit.selectXtal.onCk h.setBit.selectXtal.onCk.setEvt) h.setBit.tryClocks))

theorem State.Inv.execCrystalRetry (h : s.Inv) : OutInv (execCrystalRetry s) := by
  refine .next ?_
  split
  · exact .ite h.onCk.tryClocks h
  · exact h

theorem State.Inv.execPllLoss {pll} (h : s.Inv) : OutInv (execPllLoss pll s) := by
  refine .next ?_
  split
  · exact h
  · extract_lets s1
    have h1 : s1.Inv := h.crystalFirst.setBit
    exact .ite h1 (.ite h1.abandonSwitch.selectPll.setEvt.fault h1.abandonSwitch.wdgTrips)

theorem State.Inv.execAwake {d} (h : s.Inv) : OutInv (execAwake d s) := by
  refine .next ?_
  split
  · exact h
  · extract_lets _ s1 s2 s3
    have h1 : s1.Inv := .ite h.onCk.domReset h.onCk
    have h2 : s2.Inv := h1.setDomState
    have h3 : s3.Inv := .ite h2.capChanged h2
    exact h3.setEvt

theorem State.Inv.execEntryComplete {d} (h : s.Inv) : OutInv (execEntryComplete d s) := by
  refine .next ?_
  split
  · exact h
  · extract_lets s1 s2
    have h1 : s1.Inv := h.onCk.setDomState
    have h2 : s2.Inv := .ite h1.domReset h1
    exact .ite h2.wakeBegin h2

theorem State.Inv.execWakeLate {d} (h : s.Inv) : OutInv (execWakeLate d s) := by
  refine .next ?_
  split
  · exact h
  · exact .ite h h.onCk.fault

theorem State.Inv.execBoot (h : s.Inv) : OutInv (execBoot s) := by
  refine .next ?_
  split
  · exact h
  · extract_lets s1 _ _ _ _ _
    have h1 : s1.Inv := h.clearBytes.setFld
    exact .ite h1.onBoot.bootWith (.ite h1.onBoot.setFld.bootWith.fault h1.onBoot.setFld.setBootPhase)

theorem State.Inv.execVerifyDone (h : s.Inv) : OutInv (execVerifyDone s) := by
  refine .next ?_
  split
  · exact h
  · extract_lets _ s1 s2
    have h1 : s1.Inv := h.programSlot.imageRead.onBoot.setFld
    have h2 : s2.Inv := h1.setFld.setFld
    exact .ite h2.fault (.ite h2.holdImage (.ite h2.powerReset h2))

theorem State.Inv.execTrnDone {ch samples} (h : s.Inv) : OutInv (execTrnDone ch samples s) := by
  refine .next ?_
  split
  · exact h
  · refine .ite h ?_
    extract_lets s1 s2 steps seq buf body sweep s3 s4 s5 s6
    have h2 : s2.Inv := .ite h.onChan.ranksInit h.onChan
    have h4 : s4.Inv := .ite h2 h2.storeBytes.storeBytes
    have h5 : s5.Inv := .ite h4 h4.setFld.setFld
    have h6 : s6.Inv := h5.setFld.setFld.setEvt
    exact .ite h6.fault h6

theorem State.Inv.execSelfRefreshEntry {ch r} (h : s.Inv) : OutInv (execSelfRefreshEntry ch r s) :=
  .next (.ite h (.ite (.ite h.setSr.closeRows h) (.ite h.setSr.onRank (.ite h.setSr.applyDelays h))))

theorem State.Inv.execFreqDone (h : s.Inv) : OutInv (execFreqDone s) := by
  refine .next (.ite ?_ h)
  have awake : ∀ t : State, t.Inv → ∀ c r, (if t.installed c r then t.setSr c r srAwake else t).Inv :=
    fun t ht c r => .ite ht.setSr ht
  exact (h.foldl fun t x ht => awake t ht x.1 x.2).setFld.setFld.setFld.setEvt.serveWaiting

theorem State.Inv.execCaParityError {ch dimm failedReplays} (h : s.Inv) :
    OutInv (execCaParityError ch dimm failedReplays s) := by
  unfold Machine.execCaParityError
  extract_lets c n cmds
  split
  next e =>
    have h1 := State.Inv.of_eq ?_ e
    · extract_lets t
      have ht : t.Inv := .ite (h1.foldl fun _ _ h => h.rankFails) h1
      exact .next (.ite (ht.foldl fun _ _ h => h.uncorrectable) ht)
    · exact State.Inv.foldl_snd (p := (_, s)) h fun _ _ h => State.Inv.parityReplay h

theorem State.Inv.execMigDone {ch} (h : s.Inv) : OutInv (execMigDone ch s) := by
  refine .next ?_
  split
  · exact h
  · exact .ite h h.setRole.setRole.setFld.setFld.migEnd

theorem State.Inv.execPreviewRow {n} (h : s.Inv) : OutInv (execPreviewRow n s) := by
  refine .next ?_
  exact h.whenClocked fun _ h2 => by
    split
    · exact h2
    · exact h2.rowAccepted
    · exact .ite h2.onCtx.pvDrop h2.blockSave.rowAccepted

theorem State.Inv.execRoiDone {n r} (h : s.Inv) : OutInv (execRoiDone n r s) := by
  refine .next ?_
  exact h.whenClocked fun _ h2 => by
    split
    · exact h2
    · exact .ite (.onRoi (.ite h2 h2.blockSave)) (.setEvt (.setFld (.setFld (.onRoi (.ite h2 h2.blockSave)))))

theorem State.Inv.execStripeGrant {p} (h : s.Inv) : OutInv (execStripeGrant p s) := by
  refine .next ?_
  exact h.whenClocked fun _ h2 => .ite h2 (by split; exacts [h2, h2.grant.serveStripe])

theorem State.Inv.execStripeDone {p} (h : s.Inv) : OutInv (execStripeDone p s) := by
  refine .next ?_
  exact h.whenClocked fun _ h2 => by
    split
    · exact h2
    · exact .ite h2 (.ite h2.pipeRun.onIp.setFld h2.pipeRun.onIp.setFld.onPort)

theorem State.Inv.execAutomaticTest {cls} (h : s.Inv) : OutInv (execAutomaticTest cls s) := by
  refine .next ?_
  split
  · exact h
  · exact .ite h.testSection (.ite (.ite h.perBegin.testSram h) (.ite h.testGroup
      h.testGroup.perBegin.takeFirst))

theorem State.Inv.execTestComplete {u pass} (h : s.Inv) : OutInv (execTestComplete u pass s) := by
  refine .next ?_
  split
  · exact .ite h.testEnds.stResume h
  · exact h

theorem State.Inv.execLineRecordArrival (h : s.Inv) : OutInv (execLineRecordArrival s) := by
  refine .next ?_
  split
  · exact h
  · exact .ite h.onVe.count (.onVe (.blockSave (.ite h.onVe.count h.onVe)))

theorem State.Inv.execStitchedRow (h : s.Inv) : OutInv (execStitchedRow s) := by
  refine .next ?_
  split
  · exact h
  · split
    · split
      · next e =>
          have h2 := h.dramStalls _ e
          exact h2
      · exact (h.dramReads.foldl (fun _ _ h2 => h2.blockUnmapped)).processRow
    · exact h

theorem State.Inv.execGlyph {x o a b c m} (h : s.Inv) : OutInv (execGlyph x o a b c m s) := by
  unfold Machine.execGlyph
  extract_lets
  split
  exact .next (h.xcPaint fun _ h => .ite h.draw.setXg h.draw)

theorem State.Inv.execVfld {x a f m} (h : s.Inv) : OutInv (execVfld x a f m s) := by
  refine .next ?_
  split
  · exact h.xcPaint fun _ h2 => h2
  · split
    · exact h.xcPaint fun _ h2 => h2
    · exact .ite (.ite h.xcIllegal h) (h.xcStep (fun _ h2 => h2.onXc) (fun _ h2 => h2.onXc))

theorem State.Inv.execFetch {n} (h : s.Inv) : OutInv (execFetch n s) := by
  refine .next (h.chStep fun t ht => ?_)
  split
  next e =>
    have h1 := ht.dmaLoad.of_eq₂ e
    refine .ite h1 (.ite h1.onDma.dmaFinish ?_)
    split
    · exact h1.onDma.fault.dmaFinish
    · exact h1.onDma.onDma.setChState

theorem State.Inv.execComplete {n} (h : s.Inv) : OutInv (execComplete n s) := by
  refine .next (h.chStep fun t ht => ?_)
  split
  next e => exact ht.dmaDesc.of_eq e
  next e =>
    have h1 := ht.dmaDesc.of_eq e
    split
    next e =>
      have h2 := h1.dmaMove.of_eq e
      exact .ite h2.dmaFails (.ite h2.setChState h2.dmaFinish)

theorem State.Inv.execArrived {n} (h : s.Inv) : OutInv (execArrived n s) := by
  refine .next ?_
  exact h.chStep fun _ h2 => by
    split
    · exact h2
    · exact .ite h2.dmaLoad.dmaFails h2.dmaLoad.dmaFinish

theorem State.Inv.execEndchk {n} (h : s.Inv) : OutInv (execEndchk n s) := by
  refine .next (h.chStep fun t ht => ?_)
  split
  next e =>
    have h1 := ht.dmaLoad.of_eq₂ e
    exact .ite h1.dmaFails (.ite h1.setReg64.onDma.setChState (.ite h1.setPoked h1.setChState))

theorem State.Inv.execProtLock (h : s.Inv) : OutInv (execProtLock s) := by
  refine .next ?_
  split
  · exact h
  · exact .ite h h.writeSetup.writeList.lockProt.startSagger.releaseCc0.onBoot.setBootPhase

theorem State.Inv.execInterrupt {c} (h : s.Inv) : OutInv (execInterrupt c s) := by
  refine .next ?_
  exact .ite h (by split; exacts [h, h.wfiEnds.putSr.noteLatency.draw.trap])

theorem State.Inv.exec {i} (h : s.Inv) : OutInv (exec i s) := by
  cases i with
  | registerWrite => exact .next (h.regGuard fun _ h2 => h2.writeReg)
  | evtRouteWrite => exact .next (h.regGuard fun _ h2 => h2.typedWrite)
  | vectorHoldoffExpiry => exact .next (.ite h (.ite h.onTop.msixRequest h.onTop))
  | vectorUnmask => exact .next h.vectorCtrlWrite
  | add | sub | and | or | xor | andn | sll | srl | sra | ror | slt | sltu | min | max | minu | maxu | mul
  | mulh | mulhu | div | divu | rem | remu => exact .next h.alu2
  | clz | ctz | popc | addi | andi | ori | xori | slti | sltiu | slli | srli | srai | lui | liw | addiw
  | andiw | oriw | xoriw => exact .next h.alu1
  | jalr | jal | jw => exact .next (h.coreJump fun _ h2 => h2.setCoreG)
  | lb | lbu | lh | lhu | lw => exact .next h.coreLoad
  | sb | sh | sw => exact .next h.coreStore
  | beq | bne | blt | bge | bltu | bgeu => exact .next h.branch
  | j => exact .next (h.coreJump fun _ h2 => h2)
  | udf => exact .next h.coreIllegal
  | illegalInstruction => exact .next (.ite h h.coreIllegal)
  | srr => exact .next (h.srAccess fun _ h2 => h2.readSr.setIsG)
  | srw => exact .next (h.srAccess fun _ h2 => h2.writeSr)
  | srset | srclr => exact .next (h.srAccess fun _ h2 => h2.readSr.writeSr.setIsG)
  | ecall => exact .next (h.isRun fun _ h2 => h2.except)
  | eret => exact .next (h.sysOnly fun _ h2 => h2.onIs.notePrior.trapReturn)
  | wfi => exact .next (h.sysOnly fun _ h2 => .ite h2.retire h2.onIs)
  | wfiContinue => exact .next h.wfiEnds
  | fence => exact .next (h.isRun fun _ h2 => .ite h2 h2.retire)
  | dcwb => exact .next (h.isRun fun _ h2 => h2.cacheOp (fun _ _ h3 => h3.dcWb))
  | dcinv => exact .next (h.sysOnly fun _ h2 => h2.cacheOp (fun _ _ h3 => h3.dcInv))
  | dcflush => exact .next (h.isRun fun _ h2 => h2.cacheOp (fun _ _ h3 => h3.dcFlush))
  | icinv => exact .next (h.sysOnly fun _ h2 => h2.cacheOp (fun _ _ h3 => h3.onIs))
  | interrupt => exact h.execInterrupt
  | semRead => exact .next (h.readBack fun _ h2 => h2.semReadBy)
  | semRel => exact .next (h.regGuard fun _ h2 => h2.semRelWrite)
  | semForce => exact .next (h.regGuard fun _ h2 => h2.semForceWrite)
  | clr => exact .next (h.xcStep (fun _ h2 => h2.storeBytes) fun _ h2 => h2.storeBytes)
  | setl => exact .next (h.xcDo fun _ h2 => h2.onXc)
  | tend => exact .next (.ite h (.ite h.xcIllegal (.ite h.onXc h.onXc.handTile)))
  | sld => exact .next (h.xcDo fun _ h2 => h2.draw.each (fun _ _ h4 => h4.setXs))
  | sst | vst => exact .next (h.xcDo fun _ h2 => h2.localStore)
  | sset => exact .next (h.xcDo fun _ h2 => h2.setXs)
  | sget | vext | vsum => exact .next (h.xcDo fun _ h2 => h2.setXg)
  | rep => exact h.execRep
  | span | trapShape | vstt => exact .next (h.xcPaint fun _ h2 => h2)
  | cell => exact .next (h.xcPaint fun _ h2 => h2.setXs)
  | blit => exact .next (h.xcPaint fun _ h2 => h2.draw)
  | unpk => exact .next (h.xcPaint fun _ h2 => h2.draw.setXg)
  | glyph => exact h.execGlyph
  | vfld => exact h.execVfld
  | vld => exact .next (h.xcDo fun _ h2 => h2.draw.setXv)
  | vldt | vspl => exact .next (h.xcDo fun _ h2 => h2.setXv)
  | vadds | vsubs | vmin | vmax | vmuls | vover => exact .next h.lanesOp
  | meteringStop => exact .next (.ite h.handTile h)
  | tileStart => exact h.execTileStart
  | bufferReadAndClear => exact h.execBufferReadAndClear
  | admitJob => exact .next (h.whenAwake fun _ h2 => h2.admitCmd)
  | admissionComplete => exact h.execAdmissionComplete
  | slotStart => exact .next (h.whenAwake fun _ h2 => h2.startCmd)
  | release => exact .next (h.whenAwake fun _ h2 => h2.releaseCmd)
  | lineEvent => exact h.execLineEvent
  | prefetch => exact h.execPrefetch
  | vote => exact h.execVote
  | releasedAsZeroDose => exact h.execReleasedAsZeroDose
  | rateChange => exact .next (.ite h (h.onAdm.each (fun _ _ h2 => h2.rerate)).tadmUpdate)
  | packetSet => exact h.execPacketSet
  | commit => exact .next (h.whenAwake fun _ h2 => h2.commitWrite)
  | receiverIndexBuilt => exact h.execReceiverIndexBuilt
  | hold => exact .next (h.whenAwake fun _ h2 => h2.holdSet)
  | lcSet => exact .next (h.regGuard fun _ h2 => h2.lcSetWrite)
  | acceptedCount => exact h.execAcceptedCount
  | strobeEnd => exact h.execStrobeEnd
  | padCut => exact h.execPadCut
  | fsCutclr => exact .next (h.regGuard fun _ h2 => h2.cutClear)
  | padLevelMismatch | axisPadMismatch | enableReadbackMismatch => exact .next h.fault
  | calFail => exact .next h.calFailed.setEvt.fault
  | gateQualified => exact .next h.onFs.gateShow.gateEvents
  | headAlert => exact .next (.ite h.setFld h.setFld.enterLimit.setFld)
  | headResume => exact .next (.ite h.leaveLimit h)
  | prodTrigger => exact h.execProdTrigger
  | pqPop => exact .next h.popProduct
  | camtrigEnd => exact h.execCamtrigEnd
  | feedHold => exact h.execFeedHold
  | feedStopped => exact h.execFeedStopped
  | feedReady => exact h.execFeedReady
  | laneEnable => exact .next (h.whenAwake fun _ h2 => h2.laneCfgWrite)
  | phaseComplete => exact h.execPhaseComplete
  | phaseTimeout => exact h.execPhaseTimeout
  | blockLock => exact .next (.ite h (.ite h.setFld.fault h.setFld))
  | lossOfLock => exact .next (.ite h (.ite h.setFld.laneFail h.setFld))
  | los | cdrLoss => exact .next (.ite h.setFld.laneFail h.setFld)
  | cap => exact h.execCap
  | rate => exact h.execRate
  | ready => exact h.execReady
  | dose => exact h.execDose
  | cfgw => exact .next (h.whenAwake fun _ h2 => h2.cfgwWrite)
  | lanes => exact h.execLanes
  | heartbeat => exact h.execHeartbeat
  | deviceHeartbeat => exact .next (.ite h.sendPlain h)
  | status => exact h.execStatus
  | overdue => exact .next (.ite h.laneFail h)
  | restartBringup => exact .next (.ite h.laneBegin h)
  | hubOffline => exact .next (h.whenClocked fun _ h2 => .ite h2.setFld.setEvt.fault h2)
  | statusLate => exact .next (h.whenClocked fun _ h2 => .ite h2.onHub.count.setEvt.fault h2)
  | streamPacket => exact h.execStreamPacket
  | linkDown => exact h.execLinkDown
  | cameraEvent => exact .next h.onPort
  | imageHeader =>
    exact .next (.ite h (.ite h.closeShort.setFld.onPort h.closeShort.setFld.onPort.count.fault))
  | lineReceived => exact h.execLineReceived
  | entryAged => exact .next h.ageEntries
  | stripeGrant => exact h.execStripeGrant
  | stripeDone => exact h.execStripeDone
  | check => exact .next (h.whenAwake fun _ h2 => h2)
  | checkDone => exact h.execCheckDone
  | camCfgWrite => exact .next (h.whenAwake fun _ h2 => h2.camCfgWrite)
  | mbxGo => exact .next (h.whenAwake fun _ h2 => h2.mbxCmdWrite)
  | mbxDone => exact h.execMbxDone
  | mbxTimeout => exact h.execMbxTimeout
  | previewRow => exact h.execPreviewRow
  | roiDone => exact h.execRoiDone
  | calGo => exact .next (h.whenAwake fun _ h2 => h2.calCtrlWrite)
  | calDone => exact .next (h.whenClocked fun _ h2 => .ite h2.setFld.setEvt h2)
  | pipeFail => exact .next h.failPipe
  | bqWrite => exact .next (.ite h (.bqTags (.ite h (h.foldl (fun _ _ h2 => h2.blockSave)))))
  | lineRecordArrival => exact h.execLineRecordArrival
  | stitchedRow => exact h.execStitchedRow
  | registrationStep => exact .next (.ite h (h.onVe.each (fun _ _ h2 => h2.setFld.setFld)))
  | healthIntervalEnd => exact .next (.ite h h.setFld.setFld.clearBytes.onVe.setEvt)
  | recordWrite => exact h.execRecordWrite
  | veEnable => exact .next (h.whenAwake fun _ h2 => h2.veEnableWrite)
  | veDisable => exact .next (h.whenAwake fun _ h2 => h2.veDisableWrite)
  | mcEnable => exact .next h.mcCfgWrite
  | init | ca | wlev | rdqs | rdeye | wreye | osc => exact .next h.trnCommand
  | trnDone => exact h.execTrnDone
  | delayEntryWrite => exact .next h.delayWrite
  | freqChange => exact .next h.freqCmdWrite
  | freqDone => exact h.execFreqDone
  | dramRequest => exact .next h.dramAsk
  | panic => exact .next h.portLevel
  | refresh => exact .next (.ite h.onRank.dimmCommand.applyDelays h)
  | zqCalibration => exact .next (.ite h.onRank.dimmCommand h)
  | temperaturePoll => exact .next (.ite h.onChan.setEvt.fault h.onChan)
  | selfRefreshEntry => exact h.execSelfRefreshEntry
  | selfRefreshExit => exact .next (.ite h.setSr.serveWaiting h)
  | scrub => exact .next (.ite h (.ite h.dramWake h.portGrant.issueRead.checkLine.scrubNext))
  | caParityError => exact h.execCaParityError
  | migrationStart | migrationAbort => exact .next h.migCmdWrite
  | migDone => exact h.execMigDone
  | sideband => exact .next h.sbWrite
  | sidebandDone => exact .next (.ite (.ite h.setFld.setFld.setFld h.setFld.setFld) h)
  | hostWrite | hostRead => exact .next h.hostRun
  | functionLevelReset => exact .next h.hostReset.setEvt
  | pcieLinkDown => exact .next (.ite h.linkLost h)
  | perstN => exact .next (.ite h.onBoot (.ite h.onBoot.linkLost h.onBoot.hostReset))
  | doorbell => exact .next h.doorbellWrite
  | hiSwevt => exact .next h.swevtWrite
  | channelStart => exact .next h.chStart
  | channelAbort => exact .next h.chAbort.dmaStops
  | chainPoke => exact .next h.chPoke
  | fetch => exact h.execFetch
  | complete => exact h.execComplete
  | arrived => exact h.execArrived
  | endchk => exact h.execEndchk
  | completionTimeout =>
    exact .next (.ite h (.ite h.fault.count.aer.dmaFinish (.hostEnds (.count (.ite h.aer h)))))
  | cvData8 | cvData16 | cvData32 => exact .next h.cvDataWrite
  | cvStart => exact .next h.cvStartWrite
  | cvEnd => exact .next h.cvEndWrite
  | cvValueWrite => exact .next h.cvValueSet
  | move | velocity | segments | rampStop | hardStop | home => exact .next h.axCommand
  | moveEnd => exact .next h.moveEnd
  | segmentEnd => exact h.execSegmentEnd
  | axPosWrite => exact .next h.axPosWrite
  | currentFrame => exact .next (.ite h.onAx h)
  | standstill => exact .next (.ite h h.setFld)
  | trip => exact h.execTrip
  | tripClear => exact .next h.axFlagWrite
  | homeLatch => exact .next h.homeLatch
  | homeDone => exact .next (.ite h.homeReturned h)
  | qeEnable => exact .next h.qeCfgWrite
  | illegal => exact h.execIllegal
  | wire => exact .next (.ite h (.ite h.setFld.onQe h.setFld.qeFlag.fault))
  | index => exact h.execIndex
  | still => exact h.execStill
  | qeCountWrite => exact .next h.qeCountWrite
  | engineEnable => exact .next h.leCtrlWrite
  | loopEnable => exact .next h.lpCfgWrite
  | loopFrame => exact .next h.leBoundary
  | arm | force => exact .next h.leTrigWrite
  | traceDone => exact .next (.ite h.setFld.setEvt h)
  | tbIncNsWrite => exact .next h.tbIncWrite
  | tbSet => exact .next h.tbSetWrite
  | tbAdj => exact .next h.tbAdjWrite
  | nowRead | xsStatRead | posRead | hwmRead | qRead => exact .next h.readBy
  | stateWordWrite => exact .next h.stateHighWrite
  | crossStamp => exact .next h.crossDue
  | tbXsCmd => exact .next h.tbXsWrite
  | compare => exact .next h.compareAt
  | pulseStart => exact .next h.pulseStart
  | pulseEnd => exact .next h.pulseEnd
  | rxFrame => exact .next (.ite h (.ite h.enDiscard (.ite h.count (.ite h (.ite h.enDiscard h.enReceive)))))
  | tailWrite => exact .next h.typedWrite
  | txFrame => exact h.execTxFrame
  | link => exact .next (.ite h (.ite h.setFld.setEvt.fault h.setFld.setEvt))
  | siWdg => exact .next h.wdgWrite
  | watchdogTrip => exact .next (.ite h.wdgTrips h)
  | siEnb => exact .next h.enbWrite
  | lapse => exact .next (.ite h.lapse h)
  | dangerLine => exact .next h.dangerLine
  | safeRel => exact .next h.safeRelWrite
  | rearm => exact h.execRearm
  | startArm => exact .next (.ite h.onSi.raiseEnables h)
  | pairDiscrepancy | protCrcCheck => exact .next (.ite h.fault h)
  | coreOut => exact .next (.ite h h.coreOut)
  | resync => exact h.execResync
  | twoOfTwo => exact .next (.ite (.fault (.onSi (h))) h)
  | jobWindow => exact h.execJobWindow
  | faultTake => exact h.execFaultTake
  | faultRecord => exact h.execFaultRecord
  | siHb => exact .next h.hbWrite
  | hbMiss => exact .next (.ite h.hbFail h)
  | latentTest => exact h.execLatentTest
  | stTest | stRetire | stReturn | stSwitch | stUpdate => exact .next h.stCommand
  | automaticTest => exact h.execAutomaticTest
  | testComplete => exact h.execTestComplete
  | pwrgoodRise => exact .next (.ite h h.powerReset)
  | pwrgoodFall => exact .next h.powerReset
  | supply => exact .next h.setBit.setEvt.fault
  | crystalQualified => exact h.execCrystalQualified
  | crystalRetry => exact h.execCrystalRetry
  | crystalLost => exact .next (.ite h.onCk h.xtalLoss)
  | pllLoss => exact h.execPllLoss
  | reqAwake | reqStandby | reqOff => exact .next h.domCommand
  | wakeSource => exact .next (.ite h.sourceWakes h)
  | awake => exact h.execAwake
  | entryComplete => exact h.execEntryComplete
  | wakeLate => exact h.execWakeLate
  | ckSysrst => exact .next (h.regGuard fun _ h2 => h2.sysrstWrite)
  | boot => exact h.execBoot
  | recovery => exact .next (.ite h.recoverySetup.lockProt.setFld.setBootPhase.fault h)
  | protLock => exact h.execProtLock
  | verify | holdImage | program => exact .next h.vcmd
  | verifyDone => exact h.execVerifyDone
  | svnAdv => exact .next (h.regGuard fun _ h2 => .ite h2.svnAdvWrite h2)
  | pcieLinkUp => exact .next (.ite h.setFld.setFld.setFld.setEvt h)
  | fireRisingEdge => exact h.execFireRisingEdge
  | qualifiedRelease => exact .next (.ite h h.setFld.onAx)
  | supplyRestored => exact .next (.ite h.setBit.onCk h)
  | dangerousFaultClears => exact .next (.ite h (.ite h.onSi h))
  | pllRelock => exact .next (.ite h (.ite h.setBit.setUnit (.ite h.setBit.setUnit h.setBit)))
  | cxpLinkLock => exact .next (h.whenClocked fun _ h2 => .ite h2.setFld.setFld h2.setFld.setFld)

theorem State.Inv.step (h : s.Inv) : OutInv (step s) := by
  unfold Machine.step
  split
  · exact .next h.tick
  · exact State.Inv.exec (s := { s with pending := _ }) h

/-- Settles O3: every function that a step is made of keeps the canonical form, down to the single register
write and the single byte store; `step` is a tick or the front command. -/
theorem stepKeepsTheCanonicalForm : Obligations.StepKeepsTheCanonicalForm := by
  unfold Obligations.StepKeepsTheCanonicalForm
  intro s t h e
  exact h.step t e

/-! ### The queue of commands, and reset -/

/-- No arm of the dispatch refuses or faults. -/
theorem exec_proceeds (i : Instr) (s : State) : ∃ t, exec i s = .next t := by
  cases i
  all_goals exact ⟨_, rfl⟩

/-- Settles O1: the two cases of `step`. -/
theorem stepRunsTheFrontCommand : Obligations.StepRunsTheFrontCommand := by
  unfold Obligations.StepRunsTheFrontCommand
  refine ⟨fun s c rest h => ?_, fun s h => ?_⟩ <;> simp only [step, h]

/-- Settles O2: a tick proceeds, and so does every command. -/
theorem everyStepProceeds : Obligations.EveryStepProceeds := by
  intro s
  unfold step
  split
  · exact ⟨_, rfl⟩
  · exact exec_proceeds _ _

/-- Settles O4: registers and memory are empty after reset. -/
theorem resetIsCanonical : Obligations.ResetIsCanonical := ⟨rfl, rfl⟩

/-- Settles O5: a table that is empty reads its default. -/
theorem resetLeavesResetValues : Obligations.ResetLeavesResetValues := by
  unfold Obligations.ResetLeavesResetValues
  refine ⟨fun _ => rfl, fun _ => rfl, rfl, fun _ => rfl, rfl, fun _ => rfl, fun c r => ?_⟩
  cases c
  · rfl
  · rfl

end Sys2Proof.Machine

/-!
The registers and their fields, what the reports of events and faults leave (R20 to R24, R417 to R420), and what a
command leaves unchanged: the rules by which the statements about commands are proved.
-/

namespace Sys2Proof.Machine

/-! ### Fields of a register (R3) -/

theorem testBit_fldGet (f : Fld) (v : Word) (i : Nat) :
    (fldGet f v).testBit i = (decide (i < f.w) && v.getLsbD (f.lo + i)) := by
  rw [fldGet, Nat.testBit_mod_two_pow, ← Nat.shiftRight_eq_div_pow, Nat.testBit_shiftRight]
  rfl

theorem getLsbD_fldPut (f : Fld) (x : Nat) (v : Word) (i : Nat) (hi : i < 32) :
    (fldPut f x v).getLsbD i =
      if f.lo ≤ i ∧ i < f.lo + f.w then x.testBit (i - f.lo) else v.getLsbD i := by
  have mask : (fldMask f).getLsbD i = decide (f.lo ≤ i ∧ i < f.lo + f.w) := by
    simp only [fldMask, BitVec.getLsbD_ofNat, hi, decide_true, Bool.true_and, Nat.testBit_mul_two_pow,
      Nat.testBit_two_pow_sub_one]
    by_cases h : f.lo ≤ i
    · simp only [h, decide_true, Bool.true_and, true_and, decide_eq_decide]
      omega
    · simp [h]
  have value : (BitVec.ofNat 32 (x % 2 ^ f.w * 2 ^ f.lo)).getLsbD i =
      (decide (f.lo ≤ i ∧ i < f.lo + f.w) && x.testBit (i - f.lo)) := by
    simp only [BitVec.getLsbD_ofNat, hi, decide_true, Bool.true_and, Nat.testBit_mul_two_pow,
      Nat.testBit_mod_two_pow]
    by_cases h : f.lo ≤ i
    · have : (i - f.lo < f.w) ↔ (i < f.lo + f.w) := by omega
      simp [h, this]
    · simp [h]
  rw [fldPut, BitVec.getLsbD_or, BitVec.getLsbD_and, BitVec.getLsbD_not, mask, value]
  by_cases h : f.lo ≤ i ∧ i < f.lo + f.w <;> simp [h, hi]

theorem fldGet_lt (f : Fld) (v : Word) : fldGet f v < 2 ^ f.w := Nat.mod_lt _ (Nat.two_pow_pos _)

/-- A field read after it was put. -/
theorem fldGet_fldPut_same (f : Fld) (x : Nat) (v : Word) (h : f.lo + f.w ≤ 32) :
    fldGet f (fldPut f x v) = x % 2 ^ f.w := by
  refine Nat.eq_of_testBit_eq fun i => ?_
  rw [testBit_fldGet, Nat.testBit_mod_two_pow]
  by_cases hi : i < f.w
  · rw [getLsbD_fldPut _ _ _ _ (by omega), if_pos (by omega), Nat.add_sub_cancel_left]
  · simp [hi]

/-- A field read after another was put. -/
theorem fldGet_fldPut_other (f g : Fld) (x : Nat) (v : Word) (h : g.lo + g.w ≤ f.lo ∨ f.lo + f.w ≤ g.lo) :
    fldGet g (fldPut f x v) = fldGet g v := by
  refine Nat.eq_of_testBit_eq fun i => ?_
  rw [testBit_fldGet, testBit_fldGet]
  by_cases hi : i < g.w
  · by_cases h32 : g.lo + i < 32
    · rw [getLsbD_fldPut _ _ _ _ h32, if_neg (by omega)]
    · rw [BitVec.getLsbD_of_ge _ _ (by omega), BitVec.getLsbD_of_ge _ _ (by omega)]
  · simp [hi]

/-- A field that is put with the value that it has. -/
theorem fldPut_fldGet (f : Fld) (v : Word) : fldPut f (fldGet f v) v = v := by
  refine BitVec.eq_of_getLsbD_eq fun i hi => ?_
  rw [getLsbD_fldPut _ _ _ _ hi, testBit_fldGet]
  split
  · next h => simp [show i - f.lo < f.w by omega, show f.lo + (i - f.lo) = i by omega]
  · rfl

theorem b2n_mod_two (b : Bool) : b2n b % 2 = b2n b := by cases b <;> rfl

theorem b2n_bne_zero (b : Bool) : (b2n b != 0) = b := by cases b <;> rfl

variable (s : State)

/-! ### Registers read after a write -/

theorem reg_setReg (off o : Nat) (v : Word) : (s.setReg off v).reg o = if o = off then v else s.reg o := by
  by_cases h : o = off
  · subst h
    simp [State.reg, State.setReg]
  · rw [if_neg h]
    exact Tbl.get_set_other _ _ _ _ _ _ h

@[simp] theorem reg_setReg_same (off : Nat) (v : Word) : (s.setReg off v).reg off = v := by
  rw [reg_setReg, if_pos rfl]

theorem reg_setReg_other (off o : Nat) (v : Word) (h : o ≠ off) : (s.setReg off v).reg o = s.reg o := by
  rw [reg_setReg, if_neg h]

@[simp] theorem reg_setFld_same (off : Nat) (f : Fld) (x : Nat) :
    (s.setFld off f x).reg off = fldPut f x (s.reg off) := reg_setReg_same _ _ _

theorem reg_setFld_other (off o : Nat) (f : Fld) (x : Nat) (h : o ≠ off) :
    (s.setFld off f x).reg o = s.reg o := reg_setReg_other _ _ _ _ h

@[simp] theorem reg_count_same (off : Nat) : (s.count off).reg off = satInc (s.reg off) :=
  reg_setReg_same _ _ _

theorem reg_count_other (off o : Nat) (h : o ≠ off) : (s.count off).reg o = s.reg o :=
  reg_setReg_other _ _ _ _ h

theorem fld_setReg_same (off : Nat) (v : Word) (f : Fld) : (s.setReg off v).fld off f = fldGet f v := by
  rw [State.fld, reg_setReg_same]

theorem fld_setReg_other (off o : Nat) (v : Word) (f : Fld) (h : o ≠ off) :
    (s.setReg off v).fld o f = s.fld o f := by
  rw [State.fld, reg_setReg_other _ _ _ _ h, State.fld]

theorem fld_setFld_same (off : Nat) (f : Fld) (x : Nat) (h : f.lo + f.w ≤ 32) :
    (s.setFld off f x).fld off f = x % 2 ^ f.w := by
  rw [State.fld, reg_setFld_same, fldGet_fldPut_same _ _ _ h]

theorem fld_setFld_field (off : Nat) (f g : Fld) (x : Nat) (h : g.lo + g.w ≤ f.lo ∨ f.lo + f.w ≤ g.lo) :
    (s.setFld off f x).fld off g = s.fld off g := by
  rw [State.fld, reg_setFld_same, fldGet_fldPut_other _ _ _ _ h, State.fld]

theorem fld_setFld_other (off o : Nat) (f g : Fld) (x : Nat) (h : o ≠ off) :
    (s.setFld off f x).fld o g = s.fld o g := by
  rw [State.fld, reg_setFld_other _ _ _ _ _ h, State.fld]

theorem fld_lt (off : Nat) (f : Fld) : s.fld off f < 2 ^ f.w := fldGet_lt _ _

theorem rbit_setBit_same (off i : Nat) (b : Bool) (h : i < 32) : (s.setBit off i b).rbit off i = b := by
  rw [State.rbit, State.setBit, reg_setFld_same, getLsbD_fldPut _ _ _ _ h, if_pos (by simp), Nat.sub_self]
  cases b <;> rfl

theorem rbit_setBit_bit (off i j : Nat) (b : Bool) (h : j ≠ i) :
    (s.setBit off i b).rbit off j = s.rbit off j := by
  by_cases hj : j < 32
  · rw [State.rbit, State.setBit, reg_setFld_same, getLsbD_fldPut _ _ _ _ hj,
      if_neg (by dsimp only; omega), State.rbit]
  · rw [State.rbit, State.rbit, BitVec.getLsbD_of_ge _ _ (by omega), BitVec.getLsbD_of_ge _ _ (by omega)]

theorem reg_setBit_other (off o i : Nat) (b : Bool) (h : o ≠ off) : (s.setBit off i b).reg o = s.reg o :=
  reg_setFld_other _ _ _ _ _ h

/-- States with the same registers read the same. -/
theorem reg_of_regs {s t : State} (h : t.regs = s.regs) (off : Nat) : t.reg off = s.reg off := by
  rw [State.reg, h, State.reg]

/-! ### What the reports of an event leave -/

/-- A set event status bit, and the message that it may send. -/
def Evented (s t : State) : Prop :=
  t = { s with
    regs := t.regs,
    top := { s.top with holdoff := t.top.holdoff, requested := t.top.requested, sent := t.top.sent,
                        fresh := t.top.fresh, again := t.top.again } }

theorem Evented.refl : Evented s s := rfl

theorem Evented.trans {s t u : State} (h : Evented s t) (k : Evented t u) : Evented s u := by
  unfold Evented at h k ⊢
  rw [h] at k
  exact k

theorem Evented.quiet {s t : State} (h : Evented s t) : Quiet s t := by
  unfold Evented at h
  rw [h]
  rfl

theorem Evented.si {s t : State} (h : Evented s t) : t.si = s.si := by
  rw [h]

theorem msixRequest_evented (v : Nat) : Evented s (s.msixRequest v) := by
  unfold State.msixRequest
  split
  · rfl
  · split <;> rfl

theorem routeHost_evented (blk n : Nat) : Evented s (s.routeHost blk n) := by
  unfold State.routeHost
  dsimp only
  split
  · exact msixRequest_evented _ _
  · rfl

theorem setEvt_evented (blk n : Nat) : Evented s (s.setEvt blk n) := by
  have hw : Evented s (s.hwSet (evtReg blk) n) := rfl
  unfold State.setEvt
  dsimp only
  split
  · rfl
  · split
    · exact hw.trans (routeHost_evented _ _ _)
    · exact hw

theorem setEvt_si (blk n : Nat) : (s.setEvt blk n).si = s.si := (setEvt_evented s blk n).si

theorem notMem_reportRegs (off : Nat) (blks : List Nat) :
    off ∉ reportRegs blks ↔ (∀ b ∈ blks, off ≠ evtReg b) ∧ off ≠ 0x200020 ∧ off ≠ 0x200044 ∧
      ∀ i < 8, off ≠ 0x1090000 + 4 * i := by
  have evt : evtReg BLK_SI = 0x200020 := rfl
  have cnt : SI_CNT 1 = 0x200044 := rfl
  simp only [reportRegs, List.mem_append, List.mem_map, List.mem_range, List.mem_cons, List.not_mem_nil, or_false,
    not_or, not_exists, not_and, evt, cnt, MSIX_PBA, ne_eq, eq_comm (a := off), and_assoc]

theorem mem_reportRegs_of_evt {b : Nat} {blks : List Nat} (h : b ∈ blks) : evtReg b ∈ reportRegs blks := by
  simp only [reportRegs, List.mem_append, List.mem_map]
  exact .inl (.inl ⟨b, h, rfl⟩)

theorem reg_msixRequest (v off : Nat) (hv : v < 256) (h : ∀ i < 8, off ≠ MSIX_PBA i) :
    (s.msixRequest v).reg off = s.reg off := by
  unfold State.msixRequest
  split
  · exact reg_setBit_other _ _ _ _ _ (h _ (by omega))
  · split <;> rfl

theorem reg_routeHost (blk n off : Nat) (h : ∀ i < 8, off ≠ MSIX_PBA i) :
    (s.routeHost blk n).reg off = s.reg off := by
  unfold State.routeHost
  dsimp only
  split
  · exact reg_msixRequest _ _ _ (fld_lt _ _ EVT_ROUTE_HOST_VEC) h
  · rfl

theorem reg_hwSet_other (off i o : Nat) (h : o ≠ off) : (s.hwSet off i).reg o = s.reg o :=
  reg_setBit_other _ _ _ _ _ h

/-- No event status register is a register of Pending Bits. -/
theorem evtReg_ne_pba (blk i : Nat) (hi : i < 8) : evtReg blk ≠ MSIX_PBA i := by
  simp only [evtReg, MSIX_PBA]
  split
  · omega
  · split <;> omega

/-- An event changes its status register and Pending Bits. -/
theorem reg_setEvt (blk n off : Nat) (he : off ≠ evtReg blk) (h : ∀ i < 8, off ≠ MSIX_PBA i) :
    (s.setEvt blk n).reg off = s.reg off := by
  have hw : (s.hwSet (evtReg blk) n).reg off = s.reg off := reg_hwSet_other _ _ _ _ he
  unfold State.setEvt
  dsimp only
  split
  · exact hw
  · split
    · exact (reg_routeHost _ _ _ _ h).trans hw
    · exact hw

/-- The status register itself after an event. -/
theorem reg_setEvt_status (blk n : Nat) :
    (s.setEvt blk n).reg (evtReg blk) = fldPut ⟨n, 1⟩ 1 (s.reg (evtReg blk)) := by
  have hw : (s.hwSet (evtReg blk) n).reg (evtReg blk) = fldPut ⟨n, 1⟩ 1 (s.reg (evtReg blk)) :=
    reg_setFld_same _ _ _ _
  unfold State.setEvt
  dsimp only
  split
  · exact hw
  · split
    · exact (reg_routeHost _ _ _ _ fun i hi => evtReg_ne_pba _ i hi).trans hw
    · exact hw

theorem evtReg_inj {b c : Nat} (h : evtReg b = evtReg c) : b = c := by
  simp only [evtReg] at h
  split at h
  all_goals
    split at h
    all_goals first | omega | (split at h <;> first | omega | (split at h <;> omega))

theorem reg_setEvt_of_notMem (blk n off : Nat) (h : off ∉ reportRegs [blk]) :
    (s.setEvt blk n).reg off = s.reg off := by
  rw [notMem_reportRegs] at h
  exact reg_setEvt _ _ _ _ (h.1 blk (by simp)) h.2.2.2

/-- The status bit stands after its event. -/
theorem setEvt_eventSet (blk n : Nat) (h : n < 32) : EventSet (s.setEvt blk n) blk n := by
  unfold EventSet
  rw [State.rbit, reg_setEvt_status, getLsbD_fldPut _ _ _ _ h, if_pos (by simp), Nat.sub_self]
  rfl

theorem EventSet.of_reg {s t : State} {blk n : Nat} (h : EventSet s blk n)
    (e : t.reg (evtReg blk) = s.reg (evtReg blk)) : EventSet t blk n := by
  unfold EventSet State.rbit at h ⊢
  rw [e]
  exact h

theorem EventSet.setReg {s : State} {blk n off : Nat} {v : Word} (h : EventSet s blk n) (ho : evtReg blk ≠ off) :
    EventSet (s.setReg off v) blk n :=
  h.of_reg (reg_setReg_other _ _ _ _ ho)

theorem EventSet.setFld {s : State} {blk n off x : Nat} {f : Fld} (h : EventSet s blk n) (ho : evtReg blk ≠ off) :
    EventSet (s.setFld off f x) blk n :=
  h.of_reg (reg_setFld_other _ _ _ _ _ ho)

/-- Another event leaves a status bit set. -/
theorem EventSet.setEvt {s : State} {blk n : Nat} (b m : Nat) (h : EventSet s blk n) :
    EventSet (s.setEvt b m) blk n := by
  by_cases hb : b = blk
  · subst hb
    unfold EventSet State.rbit at h ⊢
    rw [reg_setEvt_status]
    by_cases hn : n < 32
    · rw [getLsbD_fldPut _ _ _ _ hn]
      split
      · next e => rw [show n - m = 0 by dsimp only at e; omega]; rfl
      · exact h
    · rw [BitVec.getLsbD_of_ge _ _ (by omega)] at h
      cases h
  · exact h.of_reg (reg_setEvt _ _ _ _ (fun e => hb (evtReg_inj e).symm) fun i hi => evtReg_ne_pba _ i hi)

/-! ### What the reports of a fault leave -/

theorem Quiet.refl : Quiet s s := rfl

theorem Quiet.trans {s t u : State} (h : Quiet s t) (k : Quiet t u) : Quiet s u := by
  unfold Quiet at h k ⊢
  rw [h] at k
  exact k

theorem countEvent_quiet (key n window : Nat) : Quiet s (s.countEvent key n window).2 := rfl

theorem setReg_quiet (off : Nat) (v : Word) : Quiet s (s.setReg off v) := rfl

theorem setEvt_quiet (blk n : Nat) : Quiet s (s.setEvt blk n) := (setEvt_evented s blk n).quiet

theorem queueFault_quiet (f : FaultIn) : Quiet s (s.queueFault f) := by
  unfold State.queueFault
  dsimp only
  split
  · rfl
  · refine Quiet.trans ?_ (setEvt_quiet _ _ _)
    rfl

theorem raiseWith_quiet (code : BitVec 16) (inst info : Nat) (lasting : Bool) :
    Quiet s (s.raiseWith code inst info lasting) := by
  unfold State.raiseWith
  extract_lets dangerous f t
  have ht : Quiet s t := queueFault_quiet s f
  split
  · exact ht.trans (show Quiet t _ from rfl)
  · exact ht

theorem fault_quiet (code : BitVec 16) (inst info : Nat) : Quiet s (s.fault code inst info) := by
  unfold State.fault
  split
  · exact (countEvent_quiet s _ _ _).trans (raiseWith_quiet _ _ _ _ _)
  · exact raiseWith_quiet _ _ _ _ _

theorem faultCounted_quiet (code : BitVec 16) (inst info n window : Nat) :
    Quiet s (s.faultCounted code inst info n window).2 :=
  (countEvent_quiet s _ _ _).trans (raiseWith_quiet _ _ _ _ _)

theorem reg_queueFault (f : FaultIn) (off : Nat) (h : off ∉ reportRegs []) : (s.queueFault f).reg off = s.reg off := by
  rw [notMem_reportRegs] at h
  obtain ⟨-, hevt, hcnt, hpba⟩ := h
  unfold State.queueFault
  dsimp only
  split
  · rfl
  · exact (reg_setEvt _ _ _ _ hevt hpba).trans (reg_count_other _ _ _ hcnt)

theorem reg_raiseWith (code : BitVec 16) (inst info : Nat) (lasting : Bool) (off : Nat) (h : off ∉ reportRegs []) :
    (s.raiseWith code inst info lasting).reg off = s.reg off := by
  unfold State.raiseWith
  dsimp only
  split <;> exact reg_queueFault _ _ _ h

/-- A fault changes the registers of the reports alone. -/
theorem reg_fault (code : BitVec 16) (inst info off : Nat) (h : off ∉ reportRegs []) :
    (s.fault code inst info).reg off = s.reg off := by
  unfold State.fault
  split <;> exact reg_raiseWith _ _ _ _ _ _ h

theorem reg_faultCounted (code : BitVec 16) (inst info n window off : Nat) (h : off ∉ reportRegs []) :
    (s.faultCounted code inst info n window).2.reg off = s.reg off :=
  reg_raiseWith _ _ _ _ _ _ h

theorem queueFault_eventSet {s : State} {blk n : Nat} (f : FaultIn) (h : EventSet s blk n) :
    EventSet (s.queueFault f) blk n := by
  unfold State.queueFault
  dsimp only
  split
  · exact h
  · refine EventSet.setEvt _ _ (EventSet.of_reg (s := s) h (reg_count_other _ _ _ ?_))
    simp only [evtReg, SI_CNT, ne_eq]
    split
    · omega
    · split <;> omega

theorem raiseWith_eventSet {s : State} {blk n : Nat} (code : BitVec 16) (inst info : Nat) (lasting : Bool)
    (h : EventSet s blk n) : EventSet (s.raiseWith code inst info lasting) blk n := by
  unfold State.raiseWith
  dsimp only
  split <;> exact queueFault_eventSet _ h

theorem EventSet.fault {s : State} {blk n : Nat} (code : BitVec 16) (inst info : Nat) (h : EventSet s blk n) :
    EventSet (s.fault code inst info) blk n := by
  unfold State.fault
  split <;> exact raiseWith_eventSet _ _ _ _ h

theorem EventSet.faultCounted {s : State} {blk n : Nat} (code : BitVec 16) (inst info m window : Nat)
    (h : EventSet s blk n) : EventSet (s.faultCounted code inst info m window).2 blk n :=
  raiseWith_eventSet (s := (s.countEvent (winKey code inst) m window).2) _ _ _ _ h

/-! ### Faults that have been reported -/

theorem Reported.of_si {s t u : State} {code : BitVec 16} {inst : BitVec 8} {info : BitVec 48}
    (h : Reported s t code inst info) (e : u.si.queues = t.si.queues) (l : u.si.blkLoss = t.si.blkLoss) :
    Reported s u code inst info := by
  unfold Reported at h ⊢
  rw [e, l]
  exact h

theorem Reported.from {s s' t : State} {code : BitVec 16} {inst : BitVec 8} {info : BitVec 48}
    (h : Reported s t code inst info) (e : s'.si.queues = s.si.queues) : Reported s' t code inst info := by
  unfold Reported at h ⊢
  rw [e]
  exact h

/-- What an event leaves of the queues of faults. -/
theorem Reported.setEvt {s t : State} {code : BitVec 16} {inst : BitVec 8} {info : BitVec 48} (blk n : Nat)
    (h : Reported s t code inst info) : Reported s (t.setEvt blk n) code inst info :=
  h.of_si (by rw [setEvt_si]) (by rw [setEvt_si])

theorem queueFault_reported (f : FaultIn) : Reported s (s.queueFault f) f.code f.inst f.info := by
  unfold State.queueFault Reported
  dsimp only
  split
  · exact ⟨f, rfl, rfl, rfl, Tbl.get_set_same _ _ _ _⟩
  · rw [setEvt_si]
    exact Tbl.get_set_same _ _ _ _

theorem raiseWith_reported (code : BitVec 16) (inst info : Nat) (lasting : Bool) :
    Reported s (s.raiseWith code inst info lasting) code (BitVec.ofNat 8 inst) (BitVec.ofNat 48 info) := by
  unfold State.raiseWith
  extract_lets dangerous f t
  have ht : Reported s t code (BitVec.ofNat 8 inst) (BitVec.ofNat 48 info) := queueFault_reported s f
  split
  · exact ht.of_si rfl rfl
  · exact ht

theorem fault_reported (code : BitVec 16) (inst info : Nat) :
    Reported s (s.fault code inst info) code (BitVec.ofNat 8 inst) (BitVec.ofNat 48 info) := by
  unfold State.fault
  split
  · exact (raiseWith_reported _ _ _ _ _).from rfl
  · exact raiseWith_reported _ _ _ _ _

/-- A fault is reported against any state whose queues are those that it found. -/
theorem fault_reportedFrom {s t : State} (code : BitVec 16) (inst info : Nat) (h : t.si.queues = s.si.queues) :
    Reported s (t.fault code inst info) code (BitVec.ofNat 8 inst) (BitVec.ofNat 48 info) :=
  (fault_reported t code inst info).from h.symm

theorem faultCounted_reported (code : BitVec 16) (inst info n window : Nat) :
    Reported s (s.faultCounted code inst info n window).2 code (BitVec.ofNat 8 inst) (BitVec.ofNat 48 info) :=
  (raiseWith_reported _ _ _ _ _).from rfl

/-! ### What a command leaves unchanged -/

theorem RegsBut.refl (l : List Nat) : RegsBut s s l := fun _ _ => rfl

theorem RegsBut.trans {s t u : State} {l : List Nat} (h : RegsBut s t l) (k : RegsBut t u l) : RegsBut s u l :=
  fun off ho => (k off ho).trans (h off ho)

theorem RegsBut.mono {s t : State} {l l' : List Nat} (h : RegsBut s t l) (hl : l ⊆ l') : RegsBut s t l' :=
  fun off ho => h off fun hm => ho (hl hm)

theorem RegsBut.of_regs {s t : State} (h : t.regs = s.regs) (l : List Nat) : RegsBut s t l :=
  fun off _ => reg_of_regs h off

section
variable {s t : State} {l blks : List Nat}

theorem RegsBut.setReg {off : Nat} {v : Word} (h : RegsBut s t l) (ho : off ∈ l) : RegsBut s (t.setReg off v) l :=
  fun o hn => (reg_setReg_other _ _ _ _ (ne_of_mem_of_not_mem ho hn).symm).trans (h o hn)

theorem RegsBut.setFld {off x : Nat} {f : Fld} (h : RegsBut s t l) (ho : off ∈ l) :
    RegsBut s (t.setFld off f x) l :=
  h.setReg ho

theorem RegsBut.count {off : Nat} (h : RegsBut s t l) (ho : off ∈ l) : RegsBut s (t.count off) l :=
  h.setReg ho

theorem reportRegs_mono {b b' : List Nat} (h : b ⊆ b') : reportRegs b ⊆ reportRegs b' := by
  intro off ho
  by_contra hn
  rw [notMem_reportRegs] at hn
  exact (notMem_reportRegs off b).mpr ⟨fun c hc => hn.1 c (h hc), hn.2⟩ ho

theorem Frame.refl (s : State) (l blks : List Nat) : Frame s s l blks := ⟨rfl, fun _ _ => rfl⟩

theorem Frame.trans {u : State} (h : Frame s t l blks) (k : Frame t u l blks) : Frame s u l blks :=
  ⟨h.1.trans k.1, h.2.trans k.2⟩

theorem Frame.mono {l' blks' : List Nat} (h : Frame s t l blks) (hl : l ⊆ l') (hb : blks ⊆ blks') :
    Frame s t l' blks' := by
  refine ⟨h.1, h.2.mono fun off ho => ?_⟩
  rw [List.mem_append] at ho ⊢
  exact ho.imp (fun h => hl h) fun h => reportRegs_mono hb h

theorem Frame.setReg {off : Nat} {v : Word} (h : Frame s t l blks) (ho : off ∈ l) :
    Frame s (t.setReg off v) l blks :=
  ⟨h.1.trans rfl, h.2.setReg (List.mem_append_left _ ho)⟩

theorem Frame.setFld {off x : Nat} {f : Fld} (h : Frame s t l blks) (ho : off ∈ l) :
    Frame s (t.setFld off f x) l blks :=
  h.setReg ho

theorem Frame.count {off : Nat} (h : Frame s t l blks) (ho : off ∈ l) : Frame s (t.count off) l blks :=
  h.setReg ho

theorem Frame.setEvt {blk n : Nat} (h : Frame s t l blks) (hb : blk ∈ blks) : Frame s (t.setEvt blk n) l blks := by
  refine ⟨h.1.trans (setEvt_quiet _ _ _), fun off ho => ?_⟩
  refine (reg_setEvt_of_notMem _ _ _ _ fun hm => ho ?_).trans (h.2 off ho)
  exact List.mem_append_right _ (reportRegs_mono (by simpa using hb) hm)

theorem notMem_reports {off : Nat} (h : off ∉ l ++ reportRegs blks) : off ∉ reportRegs [] :=
  fun hm => h (List.mem_append_right _ (reportRegs_mono (List.nil_subset _) hm))

theorem Frame.raiseWith {code : BitVec 16} {inst info : Nat} {lasting : Bool} (h : Frame s t l blks) :
    Frame s (t.raiseWith code inst info lasting) l blks :=
  ⟨h.1.trans (raiseWith_quiet _ _ _ _ _), fun off ho =>
    (reg_raiseWith _ _ _ _ _ _ (notMem_reports ho)).trans (h.2 off ho)⟩

theorem Frame.fault {code : BitVec 16} {inst info : Nat} (h : Frame s t l blks) :
    Frame s (t.fault code inst info) l blks :=
  ⟨h.1.trans (fault_quiet _ _ _ _), fun off ho =>
    (reg_fault _ _ _ _ _ (notMem_reports ho)).trans (h.2 off ho)⟩

theorem Frame.faultCounted {code : BitVec 16} {inst info n window : Nat} (h : Frame s t l blks) :
    Frame s (t.faultCounted code inst info n window).2 l blks :=
  ⟨h.1.trans (faultCounted_quiet _ _ _ _ _ _), fun off ho =>
    (reg_faultCounted _ _ _ _ _ _ _ (notMem_reports ho)).trans (h.2 off ho)⟩

/-- A step that changes nothing but what Quiet leaves open, and none of the registers. -/
theorem Frame.of_quiet (h : Frame s t l blks) {u : State} (q : Quiet t u) (r : u.regs = t.regs) :
    Frame s u l blks :=
  ⟨h.1.trans q, h.2.trans (.of_regs r _)⟩

end

/-! ### Accesses of a master to a register -/

@[simp] theorem busGrant_regs (m : Master) : (s.busGrant m).regs = s.regs := by
  unfold State.busGrant
  split <;> rfl

@[simp] theorem busGrant_si (m : Master) : (s.busGrant m).si = s.si := by
  unfold State.busGrant
  split <;> rfl

@[simp] theorem reg_busGrant (m : Master) (off : Nat) : (s.busGrant m).reg off = s.reg off :=
  reg_of_regs (busGrant_regs s m) off

@[simp] theorem fld_busGrant (m : Master) (off : Nat) (f : Fld) : (s.busGrant m).fld off f = s.fld off f := by
  rw [State.fld, reg_busGrant, State.fld]

@[simp] theorem bit_busGrant (m : Master) (off : Nat) (f : Fld) : (s.busGrant m).bit off f = s.bit off f := by
  rw [State.bit, fld_busGrant, State.bit]

@[simp] theorem awake_busGrant (m : Master) (blk : Nat) : (s.busGrant m).awake blk = s.awake blk := by
  unfold State.awake
  split <;> simp

theorem regGuard_permitted {m : Master} {off : Nat} {write : Bool} {f : State → State}
    (h : s.permits m (regAddr off) write = true) : s.regGuard m off write f = f (s.busGrant m) := if_pos h

theorem regGuard_denied {m : Master} {off : Nat} {write : Bool} {f : State → State}
    (h : s.permits m (regAddr off) write = false) : s.regGuard m off write f = s.denied m (regAddr off) := by
  unfold State.regGuard
  rw [h]
  rfl

/-- R465: what the report of a denied access leaves. -/
theorem denied_frame (m : Master) (a : Nat) : Frame s (s.denied m a) (if m = .host then [HI_CNT 0] else []) [] := by
  unfold State.denied
  split
  · exact ((Frame.refl _ _ _).fault).count (by simp)
  · exact (Frame.refl _ _ _).fault
  · exact (Frame.refl _ _ _).fault

/-- A command that PROT guards, and that is denied. -/
theorem denied_of_regGuard {s : State} {m : Master} {off : Nat} {write : Bool} {i : Instr} {f : State → State}
    (h : exec i s = .next (s.regGuard m off write f)) : Denied s m off write i := by
  intro deny
  rw [h, regGuard_denied _ deny]
  exact ⟨_, rfl, denied_frame _ _ _⟩

theorem whenAwake_awake {off : Nat} {f : State → State} (h : s.awake (off / 0x100000) = true) :
    s.whenAwake off f = f s := if_pos h

theorem whenAwake_asleep {off : Nat} {f : State → State} (h : s.awake (off / 0x100000) = false) :
    s.whenAwake off f = s.asleep off :=
  if_neg (by simp [h])

/-- R9: a command at a block that sleeps is ignored and logged. -/
theorem asleep_of_whenAwake {s : State} {off : Nat} {i : Instr} {f : State → State}
    (h : exec i s = .next (s.whenAwake off f)) : Asleep s off i := by
  intro sleeps
  rw [h, whenAwake_asleep _ sleeps]
  exact ⟨_, rfl, (Frame.refl _ _ _).fault, fault_reported _ _ _ _⟩

theorem whenClocked_clocked {blk : Nat} {f : State → State} (h : s.clocked blk = true) :
    s.whenClocked blk f = f s := if_pos h

theorem whenClocked_still {blk : Nat} {f : State → State} (h : s.clocked blk = false) :
    s.whenClocked blk f = s := by
  unfold State.whenClocked
  rw [h]
  rfl

theorem ignored_frame (off : Nat) (l blks : List Nat) : Frame s (s.ignored off) l blks := (Frame.refl _ _ _).fault

theorem ignored_reported (off : Nat) :
    Reported s (s.ignored off) (commonCode 0 (off / 0x100000) 0x38) 0xFF (BitVec.ofNat 48 (regAddr off)) :=
  fault_reported _ _ _ _

theorem Ignored.of_exec {s : State} {off : Nat} {i : Instr} (h : exec i s = .next (s.ignored off)) :
    Ignored s off i :=
  ⟨_, h, ignored_frame _ _ _ _, ignored_reported _ _⟩

end Sys2Proof.Machine

/-!
Routes and semaphores: O7 and O8.
-/

namespace Sys2Proof.Machine

/-! ### Routes (R24) -/

/-- A state in which every master may write, and one reserved bit of route 0 is set. -/
def routeReservedBit : State := permissive.setReg (EVT_ROUTE 0) 0x40

/-- Refutes O7: a write keeps the reserved bits of a route (R3), so that from a state in which one of them is set
the route does not read as the value written. -/
theorem not_vectorsSendTheirMessages : ¬ Obligations.VectorsSendTheirMessages := by
  unfold Obligations.VectorsSendTheirMessages routeWriteSendsNoMessage
  intro h
  obtain ⟨-, write⟩ := h.1 routeReservedBit .host 0 0
  obtain ⟨t, run, -, -, value⟩ := write (by decide)
  have after : exec (.evtRouteWrite .host 0 0) routeReservedBit =
      .next ((routeReservedBit.busGrant .host).typedWrite (EVT_ROUTE 0) 0) := rfl
  rw [after] at run
  cases run
  exact absurd value (by decide)
end Sys2Proof.Machine

namespace Sys2Proof.Machine

/-! ### Semaphores (R16, R56, R57) -/

section
variable (s : State)

theorem permits_busGrant (m m' : Master) (a : Nat) (w : Bool) :
    (s.busGrant m).permits m' a w = s.permits m' a w := by
  unfold State.busGrant
  split <;> rfl

/-- What the semaphore unit grants to a master: the pointers alone move. -/
theorem semGranted_eq (m : Master) :
    s.semGranted m = { s with top := { s.top with rrPtr := (s.semGranted m).top.rrPtr } } := by
  unfold State.semGranted State.busGrant
  split <;> split <;> rfl

theorem semGranted_some {m : Master} {i : Nat} (h : semIx m = some i) :
    s.semGranted m = (s.busGrant m).grant rrSem 6 i := by
  unfold State.semGranted
  rw [h]

theorem semGranted_none {m : Master} (h : semIx m = none) : s.semGranted m = s.busGrant m := by
  unfold State.semGranted
  rw [h]

theorem semOwner_setOwner (n x : Nat) : (s.setFld (SEM n) SEM_OWNER x).semOwner n = x % 16 :=
  fld_setFld_same _ _ _ _ (by decide)

theorem semOwner_lt (n : Nat) : s.semOwner n < 16 := fld_lt _ _ _

theorem semIx_lt {m : Master} {i : Nat} (h : semIx m = some i) : i < 6 := by
  cases m <;> simp only [semIx, Option.some.injEq, reduceCtorEq] at h <;> omega


/-- A read of a free semaphore by a requester claims it (R56). -/
def State.semClaimed (s : State) (n i : Nat) : State :=
  if s.semOwner n = 15 then s.setFld (SEM n) SEM_OWNER i else s

theorem semClaimed_owner (n i : Nat) (hi : i < 16) :
    (s.semClaimed n i).semOwner n = if s.semOwner n = 15 then i else s.semOwner n := by
  unfold State.semClaimed
  split
  · rw [semOwner_setOwner, Nat.mod_eq_of_lt hi]
  · rfl

theorem semClaimed_regsBut (n i : Nat) : RegsBut s (s.semClaimed n i) [SEM n] := by
  unfold State.semClaimed
  split
  · exact (RegsBut.refl s _).setFld (by simp)
  · exact RegsBut.refl s _

theorem semClaimed_regsOnly (n i : Nat) : s.semClaimed n i = { s with regs := (s.semClaimed n i).regs } := by
  unfold State.semClaimed
  split <;> rfl

theorem answerWith_busGrant (m : Master) (w : Word) :
    (s.answerWith w).busGrant m = (s.busGrant m).answerWith w := by
  unfold State.busGrant
  split <;> rfl

theorem answerWith_semClaimed (n i : Nat) (w : Word) :
    (s.answerWith w).semClaimed n i = (s.semClaimed n i).answerWith w := by
  have owner : (s.answerWith w).semOwner n = s.semOwner n := rfl
  unfold State.semClaimed
  rw [owner]
  split <;> rfl

/-- A permitted read by a requester. -/
theorem semRead_some {m : Master} {n : Fin 64} {i : Nat} (hi : semIx m = some i)
    (h : s.permits m (regAddr (SEM n)) false = true) :
    exec (.semRead m n) s = .next
      (((s.semGranted m).semClaimed n i).answerWith
        (fldPut SEM_GOT (b2n (((s.semGranted m).semClaimed n i).semOwner n == i))
          (((s.semGranted m).semClaimed n i).reg (SEM n)))) := by
  have hp : (s.answerWith 0).permits m (regAddr (SEM n)) false = true := h
  have read : ∀ u : State, u.semReadBy m n =
      (fldPut SEM_GOT (b2n (((u.grant rrSem 6 i).semClaimed n i).semOwner n == i))
        (((u.grant rrSem 6 i).semClaimed n i).reg (SEM n)), (u.grant rrSem 6 i).semClaimed n i) := by
    intro u
    unfold State.semReadBy
    rw [hi]
    rfl
  have granted : ((s.answerWith 0).busGrant m).grant rrSem 6 i = (s.semGranted m).answerWith 0 := by
    rw [answerWith_busGrant, semGranted_some s hi]
    rfl
  show Host.Outcome.next ((s.answerWith 0).regGuard m (SEM n) false _) = _
  rw [regGuard_permitted _ hp]
  beta_reduce
  rw [read, granted, answerWith_semClaimed]
  rfl

/-- A permitted read by another master. -/
theorem semRead_none {m : Master} {n : Fin 64} (hi : semIx m = none)
    (h : s.permits m (regAddr (SEM n)) false = true) :
    exec (.semRead m n) s = .next ((s.busGrant m).answerWith (s.reg (SEM n))) := by
  have hp : (s.answerWith 0).permits m (regAddr (SEM n)) false = true := h
  have read : ∀ u : State, u.semReadBy m n = (u.reg (SEM n), u) := by
    intro u
    unfold State.semReadBy
    rw [hi]
  show Host.Outcome.next ((s.answerWith 0).regGuard m (SEM n) false _) = _
  rw [regGuard_permitted _ hp]
  beta_reduce
  rw [read, answerWith_busGrant, ← reg_busGrant s m]
  rfl

/-- A read that PROT denies returns zero. -/
theorem semRead_denied {m : Master} {n : Fin 64} (h : s.permits m (regAddr (SEM n)) false = false) :
    exec (.semRead m n) s = .next ((s.answerWith 0).denied m (regAddr (SEM n))) := by
  have hp : (s.answerWith 0).permits m (regAddr (SEM n)) false = false := h
  show Host.Outcome.next ((s.answerWith 0).regGuard m (SEM n) false _) = _
  rw [regGuard_denied _ hp]

/-- A write of SEM_REL by a requester that PROT permits. -/
theorem semRel_some {m : Master} {i : Nat} {v : Word} (hi : semIx m = some i)
    (h : s.permits m (regAddr SEM_REL) true = true) :
    exec (.semRel m v) s = .next
      (if s.semOwner (fldGet SEM_REL_SEM v) = i then
        (s.semGranted m).setFld (SEM (fldGet SEM_REL_SEM v)) SEM_OWNER 15
      else (s.semGranted m).fault 0x0001 0xFF (fldGet SEM_REL_SEM v + 256 * i)) := by
  show Host.Outcome.next (s.regGuard m SEM_REL true _) = _
  have owner : ((s.busGrant m).grant rrSem 6 i).semOwner (fldGet SEM_REL_SEM v) =
      s.semOwner (fldGet SEM_REL_SEM v) :=
    fld_busGrant _ _ _ _
  rw [regGuard_permitted _ h, semGranted_some s hi, ← owner]
  unfold State.semRelWrite
  rw [hi]

/-- A write of SEM_REL by another master. -/
theorem semRel_none {m : Master} {v : Word} (hi : semIx m = none) (h : s.permits m (regAddr SEM_REL) true = true) :
    exec (.semRel m v) s = .next ((s.busGrant m).draw.2.fault 0x0001 0xFF
      (fldGet SEM_REL_SEM v + 256 * (Config.freeNat (s.busGrant m).freeIx % 256))) := by
  show Host.Outcome.next (s.regGuard m SEM_REL true _) = _
  rw [regGuard_permitted _ h]
  unfold State.semRelWrite
  rw [hi]
  rfl

/-- A permitted write of SEM_FORCE. -/
theorem semForce_permitted {m : Master} {v : Word} (h : s.permits m (regAddr SEM_FORCE) true = true) :
    exec (.semForce m v) s = .next
      (((s.busGrant m).setFld (SEM (fldGet SEM_FORCE_SEM v)) SEM_OWNER 15).fault 0x0002 0xFF
        (fldGet SEM_FORCE_SEM v + 256 * s.semOwner (fldGet SEM_FORCE_SEM v))) := by
  have owner : (s.busGrant m).semOwner (fldGet SEM_FORCE_SEM v) = s.semOwner (fldGet SEM_FORCE_SEM v) :=
    fld_busGrant _ _ _ _
  show Host.Outcome.next (s.regGuard m SEM_FORCE true _) = _
  rw [regGuard_permitted _ h, ← owner]
  rfl

/-- No semaphore is a register of the reports. -/
theorem sem_notMem_reportRegs (n : Nat) (hn : n < 64) : SEM n ∉ reportRegs [] := by
  rw [notMem_reportRegs]
  simp only [SEM]
  exact ⟨by simp, by omega, by omega, fun i hi => by omega⟩

theorem semOwner_fault (code : BitVec 16) (inst info n : Nat) (hn : n < 64) :
    (s.fault code inst info).semOwner n = s.semOwner n := by
  unfold State.semOwner State.fld
  rw [reg_fault _ _ _ _ _ (sem_notMem_reportRegs n hn)]

end

/-! ### The statement -/

/-- R56: what a read by a requester, and by another master, returns and leaves. -/
theorem semRead_acquires (s : State) (m : Master) (n : Fin 64) (h : s.permits m (regAddr (SEM n)) false = true) :
    ∃ t, exec (.semRead m n) s = .next t ∧
      t.semOwner n = (match semIx m with
        | some i => if s.semOwner n = 15 then i else s.semOwner n
        | none => s.semOwner n) ∧
      fldGet SEM_OWNER t.top.answer = t.semOwner n ∧
      (∀ i, semIx m = some i → fldGet SEM_GOT t.top.answer = b2n (t.semOwner n == i)) ∧
      RegsBut s t [SEM n] ∧
      t = { s.semGranted m with
        regs := t.regs, top := { (s.semGranted m).top with answer := t.top.answer } } := by
  have regs : (s.semGranted m).regs = s.regs := by rw [semGranted_eq s m]
  have owner : (s.semGranted m).semOwner n = s.semOwner n := by
    unfold State.semOwner State.fld
    rw [reg_of_regs regs]
  cases hi : semIx m with
  | none =>
    have kept : (s.busGrant m).semOwner n = s.semOwner n := fld_busGrant _ _ _ _
    refine ⟨_, semRead_none s hi h, kept, kept.symm, (fun i hc => by cases hc),
      RegsBut.of_regs (busGrant_regs s m) _, ?_⟩
    · rw [semGranted_none s hi]
      rfl
  | some i =>
    have ix : i < 16 := by have := semIx_lt hi; omega
    refine ⟨_, semRead_some s hi h, ?_, ?_, ?_, ?_, ?_⟩
    · exact (semClaimed_owner _ _ _ ix).trans (by rw [owner])
    · exact fldGet_fldPut_other _ _ _ _ (by decide)
    · intro j hj
      cases hj
      refine (fldGet_fldPut_same _ _ _ (by decide)).trans ?_
      exact b2n_mod_two _
    · exact (RegsBut.of_regs regs _).trans (semClaimed_regsBut _ _ _)
    · conv_lhs => rw [semClaimed_regsOnly]
      rfl

/-- R57: what a write of SEM_REL leaves. -/
theorem semRel_frees (s : State) (m : Master) (v : Word) (h : s.permits m (regAddr SEM_REL) true = true) :
    let n := v.toNat % 64
    (semIx m = some (s.semOwner n) →
      ∃ t, exec (.semRel m v) s = .next t ∧ t.semOwner n = 15 ∧
        t = { s.semGranted m with regs := t.regs } ∧ RegsBut s t [SEM n]) ∧
    (semIx m ≠ some (s.semOwner n) →
      ∃ t, exec (.semRel m v) s = .next t ∧
        Frame { s.semGranted m with freeIx := t.freeIx } t [] [] ∧
        (∀ i, semIx m = some i → Reported s t 0x0001 0xFF (BitVec.ofNat 48 (n + 256 * i)))) := by
  have field : fldGet SEM_REL_SEM v = v.toNat % 64 := by simp [fldGet, SEM_REL_SEM]
  have regs : (s.semGranted m).regs = s.regs := by rw [semGranted_eq s m]
  have si : (s.semGranted m).si = s.si := by rw [semGranted_eq s m]
  refine ⟨fun hi => ?_, fun hi => ?_⟩
  · refine ⟨_, (semRel_some s hi h).trans (by rw [field, if_pos rfl]), ?_, rfl, ?_⟩
    · exact semOwner_setOwner _ _ _
    · exact (RegsBut.of_regs regs _).setFld (by simp)
  · cases hm : semIx m with
    | none =>
      refine ⟨_, semRel_none s hm h, ?_, fun i hc => by cases hc⟩
      rw [semGranted_none s hm]
      have q := fault_quiet (s.busGrant m).draw.2 0x0001 0xFF
        (fldGet SEM_REL_SEM v + 256 * (Config.freeNat (s.busGrant m).freeIx % 256))
      rw [show (State.fault _ _ _ _).freeIx = (s.busGrant m).freeIx + 1 by rw [q]; rfl]
      exact (Frame.refl (s.busGrant m).draw.2 [] []).fault
    | some i =>
      rw [hm, ne_eq, Option.some.injEq] at hi
      refine ⟨_, (semRel_some s hm h).trans (by rw [field, if_neg (Ne.symm hi)]), ?_, ?_⟩
      · have q := fault_quiet (s.semGranted m) 0x0001 0xFF (v.toNat % 64 + 256 * i)
        rw [show (State.fault _ _ _ _).freeIx = (s.semGranted m).freeIx by rw [q]]
        exact (Frame.refl (s.semGranted m) [] []).fault
      · intro j hj
        cases hj
        exact fault_reportedFrom _ _ _ (by rw [si])

/-- R57: what a write of SEM_FORCE leaves. -/
theorem semForce_frees (s : State) (m : Master) (v : Word) (h : s.permits m (regAddr SEM_FORCE) true = true) :
    let n := v.toNat % 64
    ∃ t, exec (.semForce m v) s = .next t ∧ t.semOwner n = 15 ∧ Frame (s.busGrant m) t [SEM n] [] ∧
      Reported s t 0x0002 0xFF (BitVec.ofNat 48 (n + 256 * s.semOwner n)) := by
  have field : fldGet SEM_FORCE_SEM v = v.toNat % 64 := by simp [fldGet, SEM_FORCE_SEM]
  refine ⟨_, (semForce_permitted s h).trans (by rw [field]), ?_, ?_, ?_⟩
  · rw [semOwner_fault _ _ _ _ _ (by omega)]
    exact semOwner_setOwner _ _ _
  · exact ((Frame.refl _ _ _).setFld (by simp)).fault
  · exact fault_reportedFrom _ _ _ (by rw [setFld_si, busGrant_si])

/-- Settles O8: the three commands, each permitted and denied. -/
theorem semaphoresAcquireAndFree : Obligations.SemaphoresAcquireAndFree := by
  unfold Obligations.SemaphoresAcquireAndFree
  refine ⟨semRead_acquires, fun s m n h => ?_, fun s m i hi => ?_, fun s m v => ?_⟩
  · have hd := denied_frame (s.answerWith 0) m (regAddr (SEM n))
    refine ⟨_, semRead_denied s h, ?_, hd⟩
    rw [hd.1]
    rfl
  · rw [semGranted_some s hi]
    exact Tbl.get_set_same _ _ _ _
  · exact ⟨denied_of_regGuard rfl, denied_of_regGuard rfl, semRel_frees s m v, semForce_frees s m v⟩

end Sys2Proof.Machine

/-!
What a quiet step leaves, field by field, and the registers that no report touches.
-/

namespace Sys2Proof.Machine

/-! ### What a quiet step leaves, field by field -/

section
variable {s t : State} (h : Quiet s t)
include h

theorem Quiet.pending : t.pending = s.pending := by rw [h]
theorem Quiet.now : t.now = s.now := by rw [h]
theorem Quiet.freeIx : t.freeIx = s.freeIx := by rw [h]
theorem Quiet.mem : t.mem = s.mem := by rw [h]
theorem Quiet.poison : t.poison = s.poison := by rw [h]
theorem Quiet.dcache : t.dcache = s.dcache := by rw [h]
theorem Quiet.hi : t.hi = s.hi := by rw [h]
theorem Quiet.cc : t.cc = s.cc := by rw [h]
theorem Quiet.sg : t.sg = s.sg := by rw [h]
theorem Quiet.xc : t.xc = s.xc := by rw [h]
theorem Quiet.adm : t.adm = s.adm := by rw [h]
theorem Quiet.ck : t.ck = s.ck := by rw [h]
theorem Quiet.boot : t.boot = s.boot := by rw [h]
theorem Quiet.dma : t.dma = s.dma := by rw [h]
theorem Quiet.st : t.st = s.st := by rw [h]
theorem Quiet.lc : t.lc = s.lc := by rw [h]
theorem Quiet.fs : t.fs = s.fs := by rw [h]
theorem Quiet.ds : t.ds = s.ds := by rw [h]
theorem Quiet.dl : t.dl = s.dl := by rw [h]
theorem Quiet.cxr : t.cxr = s.cxr := by rw [h]
theorem Quiet.ip : t.ip = s.ip := by rw [h]
theorem Quiet.ve : t.ve = s.ve := by rw [h]
theorem Quiet.tb : t.tb = s.tb := by rw [h]
theorem Quiet.en : t.en = s.en := by rw [h]
theorem Quiet.mx : t.mx = s.mx := by rw [h]
theorem Quiet.qe : t.qe = s.qe := by rw [h]
theorem Quiet.le : t.le = s.le := by rw [h]
theorem Quiet.mc : t.mc = s.mc := by rw [h]
theorem Quiet.cv : t.cv = s.cv := by rw [h]
theorem Quiet.rrPtr : t.top.rrPtr = s.top.rrPtr := by rw [h]
theorem Quiet.answer : t.top.answer = s.top.answer := by rw [h]
theorem Quiet.si_intq : t.si.intq = s.si.intq := by rw [h]
theorem Quiet.si_intLoss : t.si.intLoss = s.si.intLoss := by rw [h]
theorem Quiet.si_open_ : t.si.open_ = s.si.open_ := by rw [h]
theorem Quiet.si_lasting : t.si.lasting = s.si.lasting := by rw [h]
theorem Quiet.si_running : t.si.running = s.si.running := by rw [h]
theorem Quiet.si_armed : t.si.armed = s.si.armed := by rw [h]
theorem Quiet.si_enable : t.si.enable = s.si.enable := by rw [h]
theorem Quiet.si_enbLatch : t.si.enbLatch = s.si.enbLatch := by rw [h]
theorem Quiet.si_enbLast : t.si.enbLast = s.si.enbLast := by rw [h]
theorem Quiet.si_enbTime : t.si.enbTime = s.si.enbTime := by rw [h]
theorem Quiet.si_safeN : t.si.safeN = s.si.safeN := by rw [h]
theorem Quiet.si_wdgLast : t.si.wdgLast = s.si.wdgLast := by rw [h]
theorem Quiet.si_wdgTime : t.si.wdgTime = s.si.wdgTime := by rw [h]
theorem Quiet.si_wdgTrip : t.si.wdgTrip = s.si.wdgTrip := by rw [h]
theorem Quiet.si_rearm : t.si.rearm = s.si.rearm := by rw [h]
theorem Quiet.si_rearmAt : t.si.rearmAt = s.si.rearmAt := by rw [h]
theorem Quiet.si_since : t.si.since = s.si.since := by rw [h]
theorem Quiet.si_resync : t.si.resync = s.si.resync := by rw [h]
theorem Quiet.si_left : t.si.left = s.si.left := by rw [h]
theorem Quiet.si_resyncAt : t.si.resyncAt = s.si.resyncAt := by rw [h]
theorem Quiet.si_inject : t.si.inject = s.si.inject := by rw [h]
theorem Quiet.si_blank : t.si.blank = s.si.blank := by rw [h]
theorem Quiet.si_pairHeld : t.si.pairHeld = s.si.pairHeld := by rw [h]
theorem Quiet.si_pairAt : t.si.pairAt = s.si.pairAt := by rw [h]
theorem Quiet.si_takenAt : t.si.takenAt = s.si.takenAt := by rw [h]
theorem Quiet.si_winSent : t.si.winSent = s.si.winSent := by rw [h]
theorem Quiet.si_winHeld : t.si.winHeld = s.si.winHeld := by rw [h]
theorem Quiet.si_hbSeq : t.si.hbSeq = s.si.hbSeq := by rw [h]
theorem Quiet.si_hbAt : t.si.hbAt = s.si.hbAt := by rw [h]
end

/-- What a read of a bit field returns after a write of a flag to it. -/
theorem bit_setFld_same (s : State) (off : Nat) (f : Fld) (b : Bool) (h1 : f.w = 1) (h : f.lo + 1 ≤ 32) :
    (s.setFld off f (b2n b)).bit off f = b := by
  unfold State.bit
  rw [fld_setFld_same _ _ _ _ (by omega), h1, Nat.pow_one, b2n_mod_two, b2n_bne_zero]

/-! ### Registers outside the reports -/

/-- A register that is no report of faults, nor the event status of one block. -/
theorem notMem_reportRegs_one {off b : Nat} (e : Nat) (he : evtReg b = e)
    (h : off ≠ e ∧ off ≠ 0x200020 ∧ off ≠ 0x200044 ∧ (off < 0x1090000 ∨ 0x1090020 ≤ off)) :
    off ∉ reportRegs [b] := by
  obtain ⟨h1, h2, h3, h4⟩ := h
  simp only [notMem_reportRegs, List.mem_singleton, forall_eq, he]
  exact ⟨h1, h2, h3, fun i hi => by omega⟩

/-- A register that is no report of faults. -/
theorem notMem_reportRegs_nil {off : Nat}
    (h : off ≠ 0x200020 ∧ off ≠ 0x200044 ∧ (off < 0x1090000 ∨ 0x1090020 ≤ off)) : off ∉ reportRegs [] := by
  obtain ⟨h2, h3, h4⟩ := h
  rw [notMem_reportRegs]
  exact ⟨fun b hb => (List.not_mem_nil hb).elim, h2, h3, fun i hi => by omega⟩

/-- What a frame says of a register that neither its list nor its reports name. -/
theorem Frame.reg {s t : State} {l blks : List Nat} (h : Frame s t l blks) {off : Nat} (hl : off ∉ l)
    (hr : off ∉ reportRegs blks) : t.reg off = s.reg off := h.2 off (by simp [hl, hr])

theorem Frame.fld {s t : State} {l blks : List Nat} (h : Frame s t l blks) {off : Nat} (f : Fld) (hl : off ∉ l)
    (hr : off ∉ reportRegs blks) : t.fld off f = s.fld off f := by
  unfold State.fld
  rw [h.reg hl hr]

end Sys2Proof.Machine

/-!
The check-value units (R337 to R342).
-/

namespace Sys2Proof.Machine

/-! ### The polynomials -/

theorem reflectBits_lt : ∀ w x : Nat, reflectBits w x < 2 ^ w
  | 0, _ => Nat.one_pos
  | w + 1, x => by
    have ih := reflectBits_lt w (x / 2)
    have hx : x % 2 * 2 ^ w ≤ 1 * 2 ^ w := Nat.mul_le_mul_right _ (by omega)
    rw [reflectBits, Nat.pow_succ]
    omega

/-- A polynomial whose constants fit its even width of 8 to 32 bits. -/
structure CvPoly.Fits (p : CvPoly) : Prop where
  low : 8 ≤ p.width
  high : p.width ≤ 32
  even : p.width / 2 + p.width / 2 = p.width
  poly : p.poly < 2 ^ p.width
  init : p.init < 2 ^ p.width
  final : p.final < 2 ^ p.width

/-- R337: each polynomial fits its width. -/
theorem cvPoly_fits (n : Nat) : (cvPoly n).Fits := by
  match n with
  | 0 => exact ⟨by decide, by decide, by decide, by decide, by decide, by decide⟩
  | 1 => exact ⟨by decide, by decide, by decide, by decide, by decide, by decide⟩
  | 2 => exact ⟨by decide, by decide, by decide, by decide, by decide, by decide⟩
  | m + 3 =>
    show (cvPoly 3).Fits
    exact ⟨by decide, by decide, by decide, by decide, by decide, by decide⟩

section
variable {p : CvPoly} (hp : p.Fits)
include hp

theorem CvPoly.Fits.bit_lt (v : Nat) : p.bit v < 2 ^ p.width := by
  have h2 : 2 * v % 2 ^ p.width < 2 ^ p.width := Nat.mod_lt _ (Nat.two_pow_pos _)
  unfold CvPoly.bit
  split
  · exact Nat.xor_lt_two_pow h2 hp.poly
  · exact h2

theorem CvPoly.Fits.byte_lt (v : Nat) (b : Byte) : p.byte v b < 2 ^ p.width :=
  hp.bit_lt _

theorem CvPoly.Fits.bytes_lt (bs : List Byte) {v : Nat} (h : v < 2 ^ p.width) : p.bytes v bs < 2 ^ p.width := by
  unfold CvPoly.bytes
  induction bs generalizing v with
  | nil => exact h
  | cons b bs ih => exact ih (hp.byte_lt v b)

omit hp in
theorem CvPoly.seed_lt {x : Nat} (h : x < 2 ^ p.width) : p.seed x < 2 ^ p.width := by
  unfold CvPoly.seed
  split
  · exact reflectBits_lt _ _
  · exact h

theorem CvPoly.Fits.result_lt {v : Nat} (h : v < 2 ^ p.width) : p.result v < 2 ^ 32 := by
  have hw : p.result v < 2 ^ p.width := by
    unfold CvPoly.result
    split
    · exact Nat.xor_lt_two_pow (reflectBits_lt _ _) hp.final
    · exact Nat.xor_lt_two_pow h hp.final
  exact hw.trans_le (Nat.pow_le_pow_right (by decide) hp.high)

theorem CvPoly.Fits.fold_lt (addr seq : Nat) : p.fold addr seq < 2 ^ p.width := by
  have hm : ∀ x, x % 2 ^ (p.width / 2) < 2 ^ (p.width / 2) := fun x => Nat.mod_lt _ (Nat.two_pow_pos _)
  have ha := hm addr
  have hs := hm seq
  unfold CvPoly.fold
  rw [← hp.even, Nat.pow_add, hp.even]
  calc addr % 2 ^ (p.width / 2) * 2 ^ (p.width / 2) + seq % 2 ^ (p.width / 2)
      < addr % 2 ^ (p.width / 2) * 2 ^ (p.width / 2) + 2 ^ (p.width / 2) := by omega
    _ = (addr % 2 ^ (p.width / 2) + 1) * 2 ^ (p.width / 2) := by rw [Nat.add_mul, Nat.one_mul]
    _ ≤ 2 ^ (p.width / 2) * 2 ^ (p.width / 2) := Nat.mul_le_mul_right _ ha
end

/-! ### A unit's state and its running value -/

section
variable (s : State) (u : Nat)

theorem cvPolyOf_fits : (s.cvPolyOf u).Fits := cvPoly_fits _

theorem cvValue_lt : s.cvValue u < 2 ^ (s.cvPolyOf u).width := Nat.mod_lt _ (Nat.two_pow_pos _)

theorem cvAt_onCv (f : CvSt → CvSt) (w : Nat) :
    (s.onCv u f).cvAt w = if w = u then f (s.cvAt u) else s.cvAt w := Tbl.get_upd ..

theorem cvPolyOf_setReg (off : Nat) (v : Word) (h : CV_CFG u ≠ off) :
    (s.setReg off v).cvPolyOf u = s.cvPolyOf u := by
  unfold State.cvPolyOf
  rw [fld_setReg_other _ _ _ _ _ h]

theorem cvPolyOf_setFld (off x : Nat) (f : Fld) (h : CV_CFG u ≠ off) :
    (s.setFld off f x).cvPolyOf u = s.cvPolyOf u := cvPolyOf_setReg _ _ _ _ h

theorem cvValue_setFld (off x : Nat) (f : Fld) (h : CV_CFG u ≠ off) (hv : CV_VALUE u ≠ off) :
    (s.setFld off f x).cvValue u = s.cvValue u := by
  unfold State.cvValue
  rw [cvPolyOf_setFld _ _ _ _ _ h, reg_setFld_other _ _ _ _ _ hv]

theorem cv_regs_ne : CV_CFG u ≠ CV_VALUE u ∧ CV_CFG u ≠ CV_STAT u ∧ CV_CFG u ≠ CV_RESULT u ∧
    CV_CFG u ≠ CV_FRAME u ∧ CV_VALUE u ≠ CV_STAT u ∧ CV_VALUE u ≠ CV_RESULT u ∧ CV_VALUE u ≠ CV_FRAME u ∧
    CV_STAT u ≠ CV_VALUE u ∧ CV_STAT u ≠ CV_RESULT u ∧ CV_STAT u ≠ CV_FRAME u ∧ CV_FRAME u ≠ CV_VALUE u ∧
    CV_FRAME u ≠ CV_STAT u ∧ CV_FRAME u ≠ CV_RESULT u ∧ CV_RESULT u ≠ CV_FRAME u ∧ CV_RESULT u ≠ CV_STAT u ∧
    CV_EXPECT u ≠ CV_VALUE u ∧ CV_EXPECT u ≠ CV_STAT u := by
  unfold CV_CFG CV_VALUE CV_STAT CV_RESULT CV_FRAME CV_EXPECT
  omega

/-- A unit has taken bytes: its FIFO and its running value are given, and only its two registers differ. -/
structure CvHolds (s t : State) (u : Nat) (fifo : List Byte) (x : Nat) : Prop where
  whole : t = { s with regs := t.regs, cv := t.cv }
  regs : RegsBut s t [CV_VALUE u, CV_STAT u]
  fifo_eq : (t.cvAt u).fifo = fifo
  value : t.cvValue u = x
  others : ∀ w, w ≠ u → t.cvAt w = s.cvAt w

theorem cvPolyOf_of_regsBut {s t : State} {u : Nat} (h : RegsBut s t [CV_VALUE u, CV_STAT u]) :
    t.cvPolyOf u = s.cvPolyOf u := by
  obtain ⟨h1, h2, -⟩ := cv_regs_ne u
  unfold State.cvPolyOf State.fld
  rw [h _ (by simp [h1, h2])]

theorem CvHolds.trans {s t r : State} {u x y : Nat} {q p : List Byte} (h : CvHolds s t u q x)
    (k : CvHolds t r u p y) : CvHolds s r u p y where
  whole := by rw [k.whole, h.whole]
  regs := h.regs.trans k.regs
  fifo_eq := k.fifo_eq
  value := k.value
  others := fun w hw => (k.others w hw).trans (h.others w hw)

/-- A running value of the unit's width is what the unit then shows. -/
theorem setCvValue_holds {x : Nat} (hx : x < 2 ^ (s.cvPolyOf u).width) :
    CvHolds s (s.setCvValue u x) u (s.cvAt u).fifo x where
  whole := rfl
  regs := (RegsBut.refl _ _).setReg (by simp)
  fifo_eq := rfl
  value := by
    have h32 : 2 ^ (s.cvPolyOf u).width ≤ 2 ^ 32 := Nat.pow_le_pow_right (by decide) (cvPolyOf_fits s u).high
    unfold State.cvValue State.setCvValue
    rw [cvPolyOf_setReg _ _ _ _ (cv_regs_ne u).1, reg_setReg_same, BitVec.toNat_ofNat, Nat.mod_eq_of_lt hx,
      Nat.mod_eq_of_lt (hx.trans_le h32), Nat.mod_eq_of_lt hx]
  others := fun _ _ => rfl

theorem setStat_holds (f : Fld) (x : Nat) :
    CvHolds s (s.setFld (CV_STAT u) f x) u (s.cvAt u).fifo (s.cvValue u) where
  whole := rfl
  regs := (RegsBut.refl _ _).setFld (by simp)
  fifo_eq := rfl
  value := cvValue_setFld _ _ _ _ _ (cv_regs_ne u).2.1 (cv_regs_ne u).2.2.2.2.1
  others := fun _ _ => rfl

theorem onCv_holds (f : CvSt → CvSt) : CvHolds s (s.onCv u f) u (f (s.cvAt u)).fifo (s.cvValue u) where
  whole := rfl
  regs := RegsBut.refl _ _
  fifo_eq := by rw [cvAt_onCv, if_pos rfl]
  value := rfl
  others := fun w hw => by rw [cvAt_onCv, if_neg hw]

theorem cvProcess_holds (n : Nat) : CvHolds s (s.cvProcess u n) u ((s.cvAt u).fifo.drop n)
    ((s.cvPolyOf u).bytes (s.cvValue u) ((s.cvAt u).fifo.take n)) := by
  unfold State.cvProcess
  extract_lets q
  split
  · next h =>
    have hq : (s.cvAt u).fifo = [] := List.isEmpty_iff.1 h
    rw [hq]
    exact ⟨rfl, RegsBut.refl _ _, by simp [hq], by simp [CvPoly.bytes], fun _ _ => rfl⟩
  · have hf := onCv_holds s u fun c => { c with fifo := q.drop n }
    have hv := setCvValue_holds (s.onCv u fun c => { c with fifo := q.drop n }) u
      (x := (s.cvPolyOf u).bytes (s.cvValue u) (q.take n))
      ((cvPolyOf_fits s u).bytes_lt _ (cvValue_lt s u))
    have hr := hf.trans hv
    refine ⟨rfl, (hr.regs).setFld (by simp), hr.fifo_eq.trans hf.fifo_eq, ?_, hr.others⟩
    exact (setStat_holds _ u CV_STAT_COUNT _).value.trans hr.value

/-- R338: every byte fed has entered the running value. -/
theorem cvDrain_holds : CvHolds s (s.cvDrain u) u []
    ((s.cvPolyOf u).bytes (s.cvValue u) (s.cvAt u).fifo) := by
  have h := cvProcess_holds s u (s.cvAt u).fifo.length
  rwa [List.drop_length, List.take_length] at h

/-- R338: bytes enter the FIFO, and those beyond its sixteen the running value. -/
theorem cvFeed_holds (bs : List Byte) :
    let q := (s.cvAt u).fifo ++ bs
    CvHolds s (s.cvFeed u bs) u (q.drop (q.length - 16))
      ((s.cvPolyOf u).bytes (s.cvValue u) (q.take (q.length - 16))) := by
  intro q
  have hf := onCv_holds s u fun c => { c with fifo := c.fifo ++ bs }
  have hp := cvProcess_holds (s.onCv u fun c => { c with fifo := c.fifo ++ bs }) u (q.length - 16)
  rw [hf.fifo_eq] at hp
  unfold State.cvFeed
  extract_lets t
  rw [show (t.cvAt u).fifo = q from hf.fifo_eq]
  exact hf.trans hp

/-- A unit out of test that no descriptor owns takes a write. -/
theorem cvOwned_free (f : State → State) (ht : s.st.tests.get none (216 + u) = none)
    (h : s.bit (CV_STAT u) CV_STAT_DMAOWN = false) :
    s.cvOwned u f = f (s.onCv u fun c => { c with wroteAt := s.now }) := by
  have hb : (s.onCv u fun c => { c with wroteAt := s.now }).bit (CV_STAT u) CV_STAT_DMAOWN = false := h
  simp only [State.cvOwned, State.abandonTest, ht, hb, Bool.false_eq_true, if_false]

/-- R342: the write of a unit that a descriptor owns is reported. -/
theorem cvOwned_owned (f : State → State) (ht : s.st.tests.get none (216 + u) = none)
    (h : s.bit (CV_STAT u) CV_STAT_DMAOWN = true) :
    s.cvOwned u f = (s.onCv u fun c => { c with wroteAt := s.now }).fault 0x0481 u := by
  have hb : (s.onCv u fun c => { c with wroteAt := s.now }).bit (CV_STAT u) CV_STAT_DMAOWN = true := h
  simp only [State.cvOwned, State.abandonTest, ht, hb, if_true]

end

theorem cvOwnedRule_of_exec {i : Fin 8 → BitVec 32 → Instr} {f : Fin 8 → BitVec 32 → State → State}
    (h : ∀ s u v, exec (i u v) s = .next (s.cvOwned u (f u v))) : cvOwnedRule i := by
  intro s u v ht hd
  have hq := (fault_quiet (s.onCv u fun c => { c with wroteAt := s.now }) 0x0481 u 0).cv
  have hw := onCv_holds s u fun c => { c with wroteAt := s.now }
  refine ⟨(s.onCv u fun c => { c with wroteAt := s.now }).fault 0x0481 u,
    (h s u v).trans (by rw [cvOwned_owned _ _ _ ht hd]), ?_, ?_, fault_reportedFrom _ _ _ rfl⟩
  · rw [hq]
    exact (Frame.refl (s.onCv u fun c => { c with wroteAt := s.now }) _ _).fault
  · unfold State.cvAt
    rw [hq]
    exact hw.fifo_eq

theorem cvFeedRule_of_exec {i : Fin 8 → BitVec 32 → Instr} {k : Nat}
    (h : ∀ s u v, exec (i u v) s = .next (s.cvDataWrite u k v)) : cvFeedRule i k := by
  intro s u v ht hd
  have hw := onCv_holds s u fun c => { c with wroteAt := s.now }
  have hf := hw.trans (cvFeed_holds _ u (leBytes k v.toNat))
  rw [hw.fifo_eq, hw.value] at hf
  exact ⟨_, (h s u v).trans (by rw [State.cvDataWrite, cvOwned_free _ _ _ ht hd]), hf.whole, hf.regs,
    hf.fifo_eq, hf.value, hf.others⟩

theorem CvHolds.fld_other {s t : State} {u x : Nat} {q : List Byte} (h : CvHolds s t u q x) {off : Nat} (f : Fld)
    (hv : off ≠ CV_VALUE u) (hs : off ≠ CV_STAT u) : t.fld off f = s.fld off f := by
  unfold State.fld
  rw [h.regs off (by simp [hv, hs])]

theorem CvHolds.polyOf {s t : State} {u x : Nat} {q : List Byte} (h : CvHolds s t u q x) :
    t.cvPolyOf u = s.cvPolyOf u := cvPolyOf_of_regsBut h.regs

/-- A write that a unit takes begins with its FIFO drained (R338). -/
theorem cvTaken_drained (s : State) (u : Nat) :
    CvHolds s ((s.onCv u fun c => { c with wroteAt := s.now }).cvDrain u) u []
      ((s.cvPolyOf u).bytes (s.cvValue u) (s.cvAt u).fifo) := by
  have hw := onCv_holds s u fun c => { c with wroteAt := s.now }
  have hd := cvDrain_holds (s.onCv u fun c => { c with wroteAt := s.now }) u
  rw [hw.fifo_eq] at hd
  exact hw.trans hd

theorem CvHolds.setCvValue {s t : State} {u y x : Nat} {q : List Byte} (h : CvHolds s t u q y)
    (hx : x < 2 ^ (s.cvPolyOf u).width) : CvHolds s (t.setCvValue u x) u q x := by
  have k := setCvValue_holds t u (x := x) (by rwa [h.polyOf])
  rw [h.fifo_eq] at k
  exact h.trans k

/-- The value from which a frame of a mode starts (R339). -/
def cvSeedOf (p : CvPoly) (mode addr seq : Nat) : Nat :=
  if mode = 1 then p.seed (p.init ^^^ p.fold addr seq)
  else if mode = 2 then p.byte (p.seed p.init) (BitVec.ofNat 8 seq) else p.seed p.init

theorem cvSeedOf_lt {p : CvPoly} (hp : p.Fits) (mode addr seq : Nat) : cvSeedOf p mode addr seq < 2 ^ p.width := by
  unfold cvSeedOf
  split
  · exact CvPoly.seed_lt (Nat.xor_lt_two_pow hp.init (hp.fold_lt _ _))
  · split
    · exact hp.byte_lt _ _
    · exact CvPoly.seed_lt hp.init

section
variable (s : State) (u : Nat) (ht : s.st.tests.get none (216 + u) = none)
  (h : s.bit (CV_STAT u) CV_STAT_DMAOWN = false)
include ht h

/-- R339: START loads the seed of its mode and clears the count. -/
theorem cvStartWrite_holds :
    CvHolds s (s.cvStartWrite u) u [] (cvSeedOf (s.cvPolyOf u) (s.fld (CV_CFG u) CV_CFG_MODE)
      (s.fld (CV_FRAME u) CV_FRAME_ADDR) (s.fld (CV_FRAME u) CV_FRAME_SEQ)) ∧
    (s.cvStartWrite u).fld (CV_STAT u) CV_STAT_COUNT = 0 := by
  obtain ⟨hcv, hcs, -, -, -, -, -, hsv, -, -, hfv, hfs, -⟩ := cv_regs_ne u
  rw [State.cvStartWrite, cvOwned_free _ _ _ ht h]
  extract_lets r p mode seq
  have hd := cvTaken_drained s u
  have hr : CvHolds s r u [] ((s.cvPolyOf u).bytes (s.cvValue u) (s.cvAt u).fifo) := by
    have k := setStat_holds ((s.onCv u fun c => { c with wroteAt := s.now }).cvDrain u) u CV_STAT_COUNT 0
    rw [hd.fifo_eq, hd.value] at k
    exact hd.trans k
  have h0 : r.fld (CV_STAT u) CV_STAT_COUNT = 0 := fld_setFld_same _ _ _ _ (by decide)
  have hp : p = s.cvPolyOf u := hr.polyOf
  have hm : mode = s.fld (CV_CFG u) CV_CFG_MODE := hr.fld_other _ hcv hcs
  have hq : seq = s.fld (CV_FRAME u) CV_FRAME_SEQ := hr.fld_other _ hfv hfs
  have ha : r.fld (CV_FRAME u) CV_FRAME_ADDR = s.fld (CV_FRAME u) CV_FRAME_ADDR := hr.fld_other _ hfv hfs
  have hx := cvSeedOf_lt (cvPolyOf_fits s u) mode (s.fld (CV_FRAME u) CV_FRAME_ADDR) seq
  have hout := hr.setCvValue hx
  have hstat : ∀ x, (r.setCvValue u x).fld (CV_STAT u) CV_STAT_COUNT = 0 := fun x =>
    (fld_setReg_other _ _ _ _ _ hsv).trans h0
  rw [ha, hp, ← hm, ← hq]
  unfold cvSeedOf at hout ⊢
  split
  · next h1 => rw [if_pos h1] at hout; exact ⟨hout, hstat _⟩
  · next h1 =>
    rw [if_neg h1] at hout
    split
    · next h2 => rw [if_pos h2] at hout; exact ⟨hout, hstat _⟩
    · next h2 => rw [if_neg h2] at hout; exact ⟨hout, hstat _⟩

/-- R341: a value written replaces the running one. -/
theorem cvValueSet_holds (v : Word) :
    CvHolds s (s.cvValueSet u v) u [] (v.toNat % 2 ^ (s.cvPolyOf u).width) := by
  have hd := cvTaken_drained s u
  have hlt : v.toNat % 2 ^ (s.cvPolyOf u).width < 2 ^ (s.cvPolyOf u).width := Nat.mod_lt _ (Nat.two_pow_pos _)
  have k := hd.setCvValue hlt
  unfold State.setCvValue at k
  rw [hd.polyOf, Nat.mod_mod] at k
  rw [State.cvValueSet, cvOwned_free _ _ _ ht h, State.setCvValue, hd.polyOf]
  exact k

end

theorem cv_notMem (u : Nat) (hu : u < 8) : CV_CFG u ∉ reportRegs [BLK_CV] ∧ CV_VALUE u ∉ reportRegs [BLK_CV] ∧
    CV_STAT u ∉ reportRegs [BLK_CV] ∧ CV_RESULT u ∉ reportRegs [BLK_CV] ∧
    CV_FRAME u ∉ reportRegs [BLK_CV] := by
  refine ⟨?_, ?_, ?_, ?_, ?_⟩ <;> apply notMem_reportRegs_one 0x1200020 rfl
  · unfold CV_CFG; omega
  · unfold CV_VALUE; omega
  · unfold CV_STAT; omega
  · unfold CV_RESULT; omega
  · unfold CV_FRAME; omega

/-- The reports of the end of a frame: too long, and not as expected (R340). -/
def State.cvReports (r : State) (u : Nat) (long bad : Bool) : State :=
  let s := if long then r.setEvt BLK_CV (8 + u) else r
  if bad then (s.setEvt BLK_CV u).fault 0x0482 u else s

theorem cvReports_frame (r : State) (u : Nat) (long bad : Bool) : Frame r (r.cvReports u long bad) [] [BLK_CV] := by
  have hl : Frame r (if long then r.setEvt BLK_CV (8 + u) else r) [] [BLK_CV] := by
    split
    · exact (Frame.refl _ _ _).setEvt (by simp)
    · exact Frame.refl _ _ _
  unfold State.cvReports
  extract_lets s
  split
  · exact (hl.setEvt (by simp)).fault
  · exact hl

theorem cvReports_bad (r : State) (u : Nat) (hu : u < 8) (long : Bool) :
    EventSet (r.cvReports u long true) BLK_CV u ∧
      Reported r (r.cvReports u long true) 0x0482 (BitVec.ofNat 8 u) 0 := by
  have hq : (if long then r.setEvt BLK_CV (8 + u) else r).si = r.si := by
    split
    · exact setEvt_si _ _ _
    · rfl
  unfold State.cvReports
  extract_lets s
  rw [if_pos rfl]
  exact ⟨(setEvt_eventSet _ _ _ (by omega)).fault _ _ _, fault_reportedFrom _ _ _ (by rw [setEvt_si]; rw [hq])⟩

/-- What END writes into the registers of its unit. -/
def State.cvForm (d : State) (u res seq : Nat) (long hit miss : Bool) : State :=
  ((((d.setReg (CV_RESULT u) (BitVec.ofNat 32 res)).setFld (CV_FRAME u) CV_FRAME_SEQ seq).setFld
    (CV_STAT u) CV_STAT_OVERLEN (b2n long)).setFld (CV_STAT u) CV_STAT_MATCH (b2n hit)).setFld
    (CV_STAT u) CV_STAT_MISMATCH (b2n miss)

section
variable (d : State) (u res seq : Nat) (long hit miss : Bool)

theorem cvForm_result : (d.cvForm u res seq long hit miss).reg (CV_RESULT u) = BitVec.ofNat 32 res := by
  obtain ⟨-, -, -, -, -, -, -, -, -, -, -, -, -, hrf, hrs, -⟩ := cv_regs_ne u
  unfold State.cvForm
  rw [reg_setFld_other _ _ _ _ _ hrs, reg_setFld_other _ _ _ _ _ hrs, reg_setFld_other _ _ _ _ _ hrs,
    reg_setFld_other _ _ _ _ _ hrf, reg_setReg_same]

theorem cvForm_seq : (d.cvForm u res seq long hit miss).fld (CV_FRAME u) CV_FRAME_SEQ = seq % 65536 := by
  obtain ⟨-, -, -, -, -, -, -, -, -, -, -, hfs, -⟩ := cv_regs_ne u
  unfold State.cvForm
  rw [fld_setFld_other _ _ _ _ _ _ hfs, fld_setFld_other _ _ _ _ _ _ hfs, fld_setFld_other _ _ _ _ _ _ hfs]
  exact fld_setFld_same _ _ _ _ (by decide)

theorem cvForm_match : (d.cvForm u res seq long hit miss).bit (CV_STAT u) CV_STAT_MATCH = hit := by
  unfold State.cvForm State.bit
  rw [fld_setFld_field _ _ _ _ _ (by decide)]
  exact bit_setFld_same _ _ _ _ rfl (by decide)

theorem cvForm_mismatch : (d.cvForm u res seq long hit miss).bit (CV_STAT u) CV_STAT_MISMATCH = miss :=
  bit_setFld_same _ _ _ _ rfl (by decide)

theorem cvForm_value : (d.cvForm u res seq long hit miss).cvValue u = d.cvValue u := by
  obtain ⟨-, hcs, hcr, hcf, hvs, hvr, hvf, -⟩ := cv_regs_ne u
  unfold State.cvForm
  rw [cvValue_setFld _ _ _ _ _ hcs hvs, cvValue_setFld _ _ _ _ _ hcs hvs, cvValue_setFld _ _ _ _ _ hcs hvs,
    cvValue_setFld _ _ _ _ _ hcf hvf]
  unfold State.cvValue
  rw [cvPolyOf_setReg _ _ _ _ hcr, reg_setReg_other _ _ _ _ hvr]

theorem cvForm_frame : Frame d (d.cvForm u res seq long hit miss) [CV_VALUE u, CV_STAT u, CV_RESULT u, CV_FRAME u]
    [BLK_CV] :=
  (((((Frame.refl d _ _).setReg (by simp)).setFld (by simp)).setFld (by simp)).setFld (by simp)).setFld (by simp)
end

/-- The number of the next frame (R340). -/
def cvNextSeq (mode seq : Nat) : Nat :=
  if mode = 1 then seq + 1 else if mode = 2 then seq / 256 * 256 + (seq + 1) % 256 else seq

section
variable (s : State) (u : Fin 8) (ht : s.st.tests.get none (216 + u.val) = none)
  (h : s.bit (CV_STAT u) CV_STAT_DMAOWN = false)
include ht h

/-- END acts on the unit with its FIFO drained: it forms the result, compares it, and counts the frame. -/
theorem cvEndWrite_eq :
    let d := (s.onCv u fun c => { c with wroteAt := s.now }).cvDrain u
    let p := s.cvPolyOf u
    let x := p.bytes (s.cvValue u) (s.cvAt u).fifo
    let same := decide ((s.reg (CV_EXPECT u)).toNat % 2 ^ p.width = p.result x)
    let cmp := s.bit (CV_CFG u) CV_CFG_CMP
    ∃ long, s.cvEndWrite u = (d.cvForm u (p.result x)
      (cvNextSeq (s.fld (CV_CFG u) CV_CFG_MODE) (s.fld (CV_FRAME u) CV_FRAME_SEQ)) long (cmp && same)
        (cmp && !same)).cvReports u long (cmp && !same) := by
  intro d p x same cmp
  obtain ⟨hcv, hcs, -, -, -, -, -, -, -, -, hfv, hfs, -, -, -, hev, hes⟩ := cv_regs_ne u
  have hd : CvHolds s d u [] x := cvTaken_drained s u
  have hcmp : d.bit (CV_CFG u) CV_CFG_CMP = cmp := congrArg (· != 0) (hd.fld_other _ hcv hcs)
  refine ⟨s.fld (CV_CFG u) CV_CFG_MODE == 1 && decide (4096 < d.fld (CV_STAT u) CV_STAT_COUNT), ?_⟩
  rw [State.cvEndWrite, cvOwned_free _ _ _ ht h]
  dsimp only
  rw [hd.polyOf, hd.value, hd.fld_other _ hcv hcs, hd.fld_other _ hfv hfs, hd.regs (CV_EXPECT u) (by simp [hev, hes]),
    hcmp]
  rfl

/-- R340: END forms the result over every byte fed, compares it, and counts the frame. -/
theorem cvEndWrite_forms :
    let p := s.cvPolyOf u
    let x := p.bytes (s.cvValue u) (s.cvAt u).fifo
    let same := decide ((s.reg (CV_EXPECT u)).toNat % 2 ^ p.width = p.result x)
    let cmp := s.bit (CV_CFG u) CV_CFG_CMP
    let t := s.cvEndWrite u
    (t.reg (CV_RESULT u)).toNat = p.result x ∧ (t.cvAt u).fifo = [] ∧ t.cvValue u = x ∧
    t.bit (CV_STAT u) CV_STAT_MATCH = (cmp && same) ∧ t.bit (CV_STAT u) CV_STAT_MISMATCH = (cmp && !same) ∧
    ((cmp && !same) = true → EventSet t BLK_CV u ∧ Reported s t 0x0482 (BitVec.ofNat 8 u) 0) ∧
    t.fld (CV_FRAME u) CV_FRAME_SEQ =
      cvNextSeq (s.fld (CV_CFG u) CV_CFG_MODE) (s.fld (CV_FRAME u) CV_FRAME_SEQ) % 65536 ∧
    Frame { s with cv := t.cv } t [CV_VALUE u, CV_STAT u, CV_RESULT u, CV_FRAME u] [BLK_CV] := by
  obtain ⟨mc, mv, ms, mr, mf⟩ := cv_notMem u u.isLt
  intro p x same cmp t
  obtain ⟨long, ht'⟩ := cvEndWrite_eq s u ht h
  have hd : CvHolds s _ u [] x := cvTaken_drained s u
  generalize (s.onCv u fun c => { c with wroteAt := s.now }).cvDrain u = d at hd ht'
  generalize hr : d.cvForm _ _ _ _ _ _ = r at ht'
  have ht : t = r.cvReports u long (cmp && !same) := ht'
  have hf := cvReports_frame r u long (cmp && !same)
  rw [← ht] at hf
  have hx : p.result x < 2 ^ 32 :=
    (cvPolyOf_fits s u).result_lt ((cvPolyOf_fits s u).bytes_lt _ (cvValue_lt s u))
  have hcv : t.cv = r.cv := hf.1.cv
  have hval : t.cvValue u = r.cvValue u := by
    unfold State.cvValue State.cvPolyOf
    rw [hf.reg (by simp) mv, hf.fld CV_CFG_POLY (by simp) mc]
  have hframe : Frame { s with cv := r.cv } r [CV_VALUE u, CV_STAT u, CV_RESULT u, CV_FRAME u] [BLK_CV] := by
    have hs : Frame { s with cv := d.cv } d [CV_VALUE u, CV_STAT u, CV_RESULT u, CV_FRAME u] [BLK_CV] := by
      refine ⟨?_, fun off ho => hd.regs off fun hm => ho (by simp at hm ⊢; tauto)⟩
      rw [hd.whole]
      rfl
    subst hr
    exact hs.trans (cvForm_frame ..)
  have hq : r.si = s.si := by
    subst hr
    exact (show _ = d.si from rfl).trans (by rw [hd.whole])
  refine ⟨?_, ?_, ?_, ?_, ?_, fun hb => ?_, ?_, ?_⟩
  · rw [hf.reg (by simp) mr, ← hr, cvForm_result, BitVec.toNat_ofNat, Nat.mod_eq_of_lt hx]
  · unfold State.cvAt
    rw [hcv, ← hr]
    exact hd.fifo_eq
  · rw [hval, ← hr, cvForm_value, hd.value]
  · unfold State.bit
    rw [hf.fld _ (by simp) ms, ← hr]
    exact cvForm_match ..
  · unfold State.bit
    rw [hf.fld _ (by simp) ms, ← hr]
    exact cvForm_mismatch ..
  · have hbad := cvReports_bad r u u.isLt long
    rw [ht, hb]
    exact ⟨hbad.1, hbad.2.from (by rw [hq])⟩
  · rw [hf.fld _ (by simp) mf, ← hr, cvForm_seq]
  · rw [hcv]
    exact hframe.trans (hf.mono (by simp) (List.Subset.refl _))

end

/-- Settles O47: bytes fed enter the running value in order, START seeds it, and END forms and compares the
result. -/
theorem checkValuesAreFormed : Obligations.CheckValuesAreFormed := by
  refine ⟨cvFeedRule_of_exec fun _ _ _ => rfl, cvFeedRule_of_exec fun _ _ _ => rfl,
    cvFeedRule_of_exec fun _ _ _ => rfl, cvOwnedRule_of_exec fun _ _ _ => rfl, cvOwnedRule_of_exec fun _ _ _ => rfl,
    cvOwnedRule_of_exec fun _ _ _ => rfl, cvOwnedRule_of_exec fun _ _ _ => rfl, cvOwnedRule_of_exec fun _ _ _ => rfl,
    cvOwnedRule_of_exec fun _ _ _ => rfl, fun s u v ht h => ?_⟩
  intro p mode addr seq
  obtain ⟨hs, hc⟩ := cvStartWrite_holds s u ht h
  have hv := cvValueSet_holds s u ht h v
  obtain ⟨e1, e2, e3, e4, e5, e6, e7, e8⟩ := cvEndWrite_forms s u ht h
  have hseq : seq < 65536 := fld_lt _ _ _
  refine ⟨⟨_, rfl, hc, hs.fifo_eq, hs.whole, hs.regs, fun h0 => ?_, fun h1 => ?_, fun h2 => ?_⟩,
    ⟨_, rfl, e1, e2, e4, e5, e6, fun h1 => ?_, fun h2 => ?_, fun h0 => ?_, e3, e8⟩,
    ⟨_, rfl, hv.value, hv.fifo_eq, hv.whole, hv.regs⟩⟩
  · exact hs.value.trans (by rw [cvSeedOf, if_neg (by omega), if_neg (by omega)])
  · exact hs.value.trans (by rw [cvSeedOf, if_pos h1])
  · exact hs.value.trans (by rw [cvSeedOf, if_neg (by omega), if_pos h2])
  · exact e7.trans (by rw [cvNextSeq, if_pos h1])
  · exact e7.trans (by rw [cvNextSeq, if_neg (by omega), if_pos h2]; omega)
  · exact e7.trans (by rw [cvNextSeq, if_neg (by omega), if_neg (by omega)]; omega)

end Sys2Proof.Machine

/-!
The axes: their registers and stops, and the commands of AX_CMD (R352 to R361).
-/

namespace Sys2Proof.Machine

/-! ### Registers and state of an axis -/

section
variable (s : State) (a : Nat)

theorem ax_regs_ne : AX_STAT a ≠ AX_FLAG a ∧ AX_STAT a ≠ AX_VEL a ∧ AX_STAT a ≠ AX_POS a ∧ AX_STAT a ≠ AX_HLATCH a ∧
    AX_FLAG a ≠ AX_STAT a ∧ AX_FLAG a ≠ AX_VEL a ∧ AX_FLAG a ≠ AX_POS a ∧ AX_VEL a ≠ AX_STAT a ∧
    AX_POS a ≠ AX_STAT a ∧ AX_POS a ≠ AX_VEL a ∧ AX_POS a ≠ AX_FLAG a ∧ AX_HLATCH a ≠ AX_STAT a ∧
    AX_LIM a ≠ AX_STAT a ∧ AX_LIM a ≠ AX_FLAG a ∧ AX_HOME a ≠ AX_STAT a := by
  unfold AX_STAT AX_FLAG AX_VEL AX_POS AX_HLATCH AX_LIM AX_HOME
  omega

theorem ax_notMem (ha : a < 8) : AX_STAT a ∉ reportRegs [BLK_MX] ∧ AX_FLAG a ∉ reportRegs [BLK_MX] ∧
    AX_VEL a ∉ reportRegs [BLK_MX] ∧ AX_POS a ∉ reportRegs [BLK_MX] ∧ AX_LIM a ∉ reportRegs [BLK_MX] := by
  refine ⟨?_, ?_, ?_, ?_, ?_⟩ <;> apply notMem_reportRegs_one 0x1300020 rfl
  · unfold AX_STAT; omega
  · unfold AX_FLAG; omega
  · unfold AX_VEL; omega
  · unfold AX_POS; omega
  · unfold AX_LIM; omega

@[simp] theorem reg_onAx (f : AxSt → AxSt) (off : Nat) : (s.onAx a f).reg off = s.reg off := rfl
@[simp] theorem fld_onAx (f : AxSt → AxSt) (off : Nat) (g : Fld) : (s.onAx a f).fld off g = s.fld off g := rfl
@[simp] theorem bit_onAx (f : AxSt → AxSt) (off : Nat) (g : Fld) : (s.onAx a f).bit off g = s.bit off g := rfl
@[simp] theorem reg_setRun (r : AxRun) (off : Nat) : (s.setRun a r).reg off = s.reg off := rfl
@[simp] theorem fld_setRun (r : AxRun) (off : Nat) (g : Fld) : (s.setRun a r).fld off g = s.fld off g := rfl
@[simp] theorem bit_setRun (r : AxRun) (off : Nat) (g : Fld) : (s.setRun a r).bit off g = s.bit off g := rfl
@[simp] theorem axState_setRun (r : AxRun) (b : Nat) : (s.setRun a r).axState b = s.axState b := rfl
@[simp] theorem axAt_setReg (off : Nat) (v : Word) : (s.setReg off v).axAt a = s.axAt a := rfl
@[simp] theorem axAt_setFld (off x : Nat) (f : Fld) : (s.setFld off f x).axAt a = s.axAt a := rfl

theorem axAt_onAx (f : AxSt → AxSt) (b : Nat) : (s.onAx a f).axAt b = if b = a then f (s.axAt a) else s.axAt b :=
  Tbl.get_upd ..

@[simp] theorem axAt_onAx_same (f : AxSt → AxSt) : (s.onAx a f).axAt a = f (s.axAt a) := by
  rw [axAt_onAx, if_pos rfl]

@[simp] theorem axAt_setRun_same (r : AxRun) : (s.setRun a r).axAt a = { s.axAt a with run := r } :=
  axAt_onAx_same ..

theorem axAt_of_mx {s t : State} (h : t.mx = s.mx) (b : Nat) : t.axAt b = s.axAt b := by
  unfold State.axAt
  rw [h]

/-! ### The flags of an axis -/

theorem axFlag_quiet (f : Fld) : Quiet s (s.axFlag a f) :=
  Quiet.trans (show Quiet s (s.hwSet (AX_FLAG a) f.lo) from rfl) (setEvt_quiet _ _ _)

theorem axFlag_si (f : Fld) : (s.axFlag a f).si = s.si := setEvt_si _ _ _

theorem reg_axFlag_other (f : Fld) {off : Nat} (h : off ≠ AX_FLAG a) (hr : off ∉ reportRegs [BLK_MX]) :
    (s.axFlag a f).reg off = s.reg off :=
  (reg_setEvt_of_notMem _ _ _ _ hr).trans (reg_hwSet_other _ _ _ _ h)

theorem reg_axFlag_same (f : Fld) (ha : a < 8) :
    (s.axFlag a f).reg (AX_FLAG a) = fldPut ⟨f.lo, 1⟩ 1 (s.reg (AX_FLAG a)) :=
  (reg_setEvt_of_notMem _ _ _ _ (ax_notMem a ha).2.1).trans (reg_setFld_same _ _ _ _)

theorem bit_axFlag_same (f : Fld) (ha : a < 8) (hw : f.w = 1) (hl : f.lo < 32) :
    (s.axFlag a f).bit (AX_FLAG a) f = true := by
  obtain ⟨lo, w⟩ := f
  obtain rfl : w = 1 := hw
  unfold State.bit State.fld
  rw [reg_axFlag_same _ _ _ ha, fldGet_fldPut_same _ _ _ (show lo + 1 ≤ 32 from hl)]
  rfl

theorem bit_axFlag_other (f g : Fld) (ha : a < 8) (h : g.lo + g.w ≤ f.lo ∨ f.lo + 1 ≤ g.lo) :
    (s.axFlag a f).bit (AX_FLAG a) g = s.bit (AX_FLAG a) g := by
  unfold State.bit State.fld
  rw [reg_axFlag_same _ _ _ ha, fldGet_fldPut_other _ _ _ _ h]

theorem axFlag_eventSet (f : Fld) (ha : a < 8) : EventSet (s.axFlag a f) BLK_MX a :=
  setEvt_eventSet _ _ _ (by omega)

end

/-! ### What a command leaves but for one axis -/

section
variable {s t : State} {a : Fin 8} {l : List Nat}

theorem axOnly_refl (s : State) (a : Fin 8) (l : List Nat) : axOnly s s a l := ⟨Frame.refl _ _ _, fun _ _ => rfl⟩

theorem axOnly_setReg {off : Nat} {v : Word} (h : axOnly s t a l) (ho : off ∈ l) : axOnly s (t.setReg off v) a l :=
  ⟨h.1.setReg ho, h.2⟩

theorem axOnly_setFld {off x : Nat} {f : Fld} (h : axOnly s t a l) (ho : off ∈ l) : axOnly s (t.setFld off f x) a l :=
  axOnly_setReg h ho

theorem axOnly_onAx {f : AxSt → AxSt} (h : axOnly s t a l) : axOnly s (t.onAx a f) a l := by
  obtain ⟨⟨q, r⟩, k⟩ := h
  refine ⟨⟨?_, r⟩, fun b hb => ?_⟩
  · unfold Quiet at q ⊢
    conv_lhs => rw [q]
    rfl
  · rw [axAt_onAx, if_neg hb, k b hb]

theorem axOnly_setRun {r : AxRun} (h : axOnly s t a l) : axOnly s (t.setRun a r) a l := axOnly_onAx h

theorem axOnly_of_frame {u : State} (h : axOnly s t a l) (k : Frame t u l [BLK_MX]) : axOnly s u a l := by
  have hm := k.1.mx
  refine ⟨?_, fun b hb => (axAt_of_mx hm b).trans (h.2 b hb)⟩
  rw [hm]
  exact h.1.trans k

theorem axOnly_axFlag {f : Fld} (h : axOnly s t a l) (ho : AX_FLAG a ∈ l) : axOnly s (t.axFlag a f) a l := by
  refine axOnly_of_frame h ⟨axFlag_quiet _ _ _, fun off hoff => ?_⟩
  simp only [List.mem_append, not_or] at hoff
  exact reg_axFlag_other _ _ _ (fun e => hoff.1 (e ▸ ho)) hoff.2

theorem axOnly_fault {code : BitVec 16} {inst info : Nat} (h : axOnly s t a l) :
    axOnly s (t.fault code inst info) a l := axOnly_of_frame h (Frame.refl _ _ _).fault

theorem axOnly_setVel {v : Int} (h : axOnly s t a l) (ho : AX_VEL a ∈ l) : axOnly s (t.setVel a v) a l :=
  axOnly_setReg (axOnly_onAx h) ho

theorem axOnly_axArrive (h : axOnly s t a l) (ho : AX_VEL a ∈ l) : axOnly s (t.axArrive a) a l :=
  axOnly_setRun (axOnly_setVel h ho)

theorem axOnly_showLag (h : axOnly s t a l) (ho : AX_STAT a ∈ l) : axOnly s (t.showLag a) a l := axOnly_setFld h ho

theorem axOnly_dropSteps (h : axOnly s t a l) (ho : AX_STAT a ∈ l) : axOnly s (t.dropSteps a) a l := by
  unfold State.dropSteps
  dsimp only
  split
  · exact axOnly_showLag h ho
  · exact axOnly_showLag (axOnly_onAx h) ho

theorem axOnly_hardStopAt (h : axOnly s t a l) (ho : AX_STAT a ∈ l) (hv : AX_VEL a ∈ l) :
    axOnly s (t.hardStopAt a) a l := axOnly_dropSteps (axOnly_axArrive h hv) ho
end

/-! ### Stops -/

section
variable (s : State) (a : Nat)

theorem reg_setVel_other (v : Int) {off : Nat} (h : off ≠ AX_VEL a) : (s.setVel a v).reg off = s.reg off := by
  rw [State.setVel, reg_setReg_other _ _ _ _ h, reg_onAx]

theorem reg_axArrive_other {off : Nat} (h : off ≠ AX_VEL a) : (s.axArrive a).reg off = s.reg off := by
  rw [State.axArrive, reg_setRun, reg_setVel_other _ _ _ h]

theorem reg_axArrive_vel : (s.axArrive a).reg (AX_VEL a) = 0 := by
  rw [State.axArrive, reg_setRun, State.setVel, reg_setReg_same]
  decide

theorem axAt_axArrive : (s.axArrive a).axAt a = { s.axAt a with run := .arrived, v := 0 } := by
  simp [State.axArrive, State.setVel]

theorem fld_axArrive_other {off : Nat} (f : Fld) (h : off ≠ AX_VEL a) : (s.axArrive a).fld off f = s.fld off f := by
  unfold State.fld
  rw [reg_axArrive_other _ _ h]

/-- A whole microstep is its own floor. -/
theorem floor_posOf (x : AxSt) (m : BitVec 32) : ({ x with p := posOf m } : AxSt).floor = m := by
  have hm : m.toNat < 2 ^ 32 := m.isLt
  apply BitVec.eq_of_toNat_eq
  simp only [AxSt.floor, posOf, BitVec.toNat_ofNat]
  omega

/-- Dropping steps that are due keeps the run and the speed, and puts p at AX_POS. -/
theorem dropSteps_at : ((s.dropSteps a).axAt a).floor = s.reg (AX_POS a) ∧
    ((s.dropSteps a).axAt a).run = (s.axAt a).run ∧ ((s.dropSteps a).axAt a).v = (s.axAt a).v ∧
    (s.dropSteps a).bit (AX_STAT a) AX_STAT_LAG = false := by
  obtain ⟨-, -, -, -, -, -, -, -, hps, -⟩ := ax_regs_ne a
  unfold State.dropSteps
  dsimp only
  split
  · next h => exact ⟨h, rfl, rfl, by simp [State.showLag, bit_setFld_same, h, AX_STAT_LAG]⟩
  · have hf : ((s.onAx a fun x => { x with p := posOf (s.reg (AX_POS a)) }).axAt a).floor = s.reg (AX_POS a) := by
      rw [axAt_onAx_same, floor_posOf]
    refine ⟨hf, ?_, ?_, ?_⟩
    · simp [State.showLag]
    · simp [State.showLag]
    · simp [State.showLag, bit_setFld_same, hf, AX_STAT_LAG, -axAt_onAx_same]

theorem axState_setAxState (n : Nat) (h : n < 8) : (s.setAxState a n).axState a = n :=
  (fld_setFld_same _ _ _ _ (by decide)).trans (Nat.mod_eq_of_lt h)

/-- The writes of other fields of AX_STAT leave the state of the axis. -/
theorem axState_setFld (f : Fld) (x : Nat) (h : 3 ≤ f.lo) : (s.setFld (AX_STAT a) f x).axState a = s.axState a :=
  fld_setFld_field _ _ _ _ _ (.inl h)

/-- Dropping steps writes no register but AX_STAT. -/
theorem reg_dropSteps {off : Nat} (h : off ≠ AX_STAT a) : (s.dropSteps a).reg off = s.reg off := by
  unfold State.dropSteps
  dsimp only
  split
  · exact reg_setFld_other _ _ _ _ _ h
  · exact reg_setFld_other _ _ _ _ _ h

/-- Of AX_STAT, dropping steps writes LAG. -/
theorem fld_dropSteps (f : Fld) (h : f.lo + f.w ≤ 4 ∨ 5 ≤ f.lo) :
    (s.dropSteps a).fld (AX_STAT a) f = s.fld (AX_STAT a) f := by
  unfold State.dropSteps
  dsimp only
  split
  · exact fld_setFld_field _ _ _ _ _ h
  · exact fld_setFld_field _ _ _ _ _ h

end
end Sys2Proof.Machine

namespace Sys2Proof.Machine

/-! ### Commands that begin a run -/

/-- A command that a rule forbids is refused, with its flag. -/
theorem axRefused_refused (s : State) (a : Fin 8) :
    (s.axRefused a).bit (AX_FLAG a) AX_FLAG_REFUSED = true ∧ EventSet (s.axRefused a) BLK_MX a ∧
      Reported s (s.axRefused a) 0x04C7 (BitVec.ofNat 8 a) 0 ∧ (s.axRefused a).mx = s.mx ∧
      axOnly s (s.axRefused a) a [AX_FLAG a] := by
  have hf := (ax_notMem a a.isLt).2.1
  have hq : Frame (s.axFlag a AX_FLAG_REFUSED) (s.axRefused a) [] [BLK_MX] :=
    (Frame.refl (s.axFlag a AX_FLAG_REFUSED) _ _).fault (code := 0x04C7) (inst := a)
  refine ⟨?_, (axFlag_eventSet _ _ _ a.isLt).fault _ _ _, fault_reportedFrom _ _ _ (by rw [axFlag_si]),
    hq.1.mx.trans (axFlag_quiet _ _ _).mx, axOnly_fault (axOnly_axFlag (axOnly_refl _ _ _) (by simp))⟩
  unfold State.bit
  rw [hq.fld _ (by simp) hf]
  exact bit_axFlag_same _ _ _ a.isLt rfl (by decide)

/-- What a command that begins a run does, of the three things that it can do. -/
theorem axisStarts_of_exec {i : Fin 8 → BitVec 32 → Instr} {state : Nat} {forbidden : State → Fin 8 → Word → Prop}
    {run : State → Fin 8 → Word → AxRun} (go : State → Fin 8 → Word → State)
    (hfeeds : ∀ s a v, s.lcFeeds a = true → exec (i a v) s = .next (s.axIgnored a))
    (hforbid : ∀ s a v, s.lcFeeds a = false → forbidden s a v → exec (i a v) s = .next (s.axRefused a))
    (hgo : ∀ s a v, s.lcFeeds a = false → ¬ forbidden s a v → exec (i a v) s = .next (go s a v))
    (hstate : ∀ s a v, (go s a v).axState a = state)
    (hax : ∀ s a v, (go s a v).axAt a = { s.axAt a with run := run s a v })
    (hwhole : ∀ s a v, go s a v = { s with regs := (go s a v).regs, mx := (go s a v).mx })
    (honly : ∀ s a v, axOnly s (go s a v) a [AX_STAT a]) : axisStarts i state forbidden run := by
  intro s a v
  refine ⟨fun hl hn => ⟨_, hgo s a v hl hn, hstate s a v, ?_, ?_, ?_, hwhole s a v, honly s a v⟩,
    fun hl hf => ⟨_, hforbid s a v hl hf, axRefused_refused s a⟩,
    fun hl => ⟨_, hfeeds s a v hl, (Frame.refl _ _ _).fault, fault_reported _ _ _ _⟩⟩
  · rw [hax]
  · rw [hax]
  · rw [hax]

theorem move_starts : axisStarts .move 1
    (fun s a _ => s.axState a = 5 ∨ s.towardTrip a (s.reg (AX_TARGET a) - (s.axAt a).floor).toInt = true)
    (fun s a v => .move (fldGet AX_CMD_SET v) (s.reg (AX_TARGET a)) false) := by
  refine axisStarts_of_exec (fun s a v => (s.setAxState a 1).setRun a (.move (fldGet AX_CMD_SET v) (s.reg (AX_TARGET a)) false))
    (fun s a v h => ?_) (fun s a v h hf => ?_) (fun s a v h hf => ?_) (fun s a v => ?_) (fun s a v => ?_)
    (fun _ _ _ => rfl) (fun s a v => axOnly_setRun (axOnly_setFld (axOnly_refl _ _ _) (by simp)))
  · exact congrArg Host.Outcome.next (if_pos h)
  · exact congrArg Host.Outcome.next ((if_neg (by simp [h])).trans (if_pos hf))
  · exact congrArg Host.Outcome.next ((if_neg (by simp [h])).trans (if_neg hf))
  · exact axState_setAxState _ _ _ (by decide)
  · exact axAt_setRun_same ..

theorem velocity_starts : axisStarts .velocity 2
    (fun s a _ => s.axState a = 5 ∨ s.towardTrip a (s.reg (AX_TARGET a)).toInt = true)
    (fun s a v => .velocity (fldGet AX_CMD_SET v) (s.reg (AX_TARGET a)).toInt) := by
  refine axisStarts_of_exec
    (fun s a v => (s.setAxState a 2).setRun a (.velocity (fldGet AX_CMD_SET v) (s.reg (AX_TARGET a)).toInt))
    (fun s a v h => ?_) (fun s a v h hf => ?_) (fun s a v h hf => ?_) (fun s a v => ?_) (fun s a v => ?_)
    (fun _ _ _ => rfl) (fun s a v => axOnly_setRun (axOnly_setFld (axOnly_refl _ _ _) (by simp)))
  · exact congrArg Host.Outcome.next (if_pos h)
  · exact congrArg Host.Outcome.next ((if_neg (by simp [h])).trans (if_pos hf))
  · exact congrArg Host.Outcome.next ((if_neg (by simp [h])).trans (if_neg hf))
  · exact axState_setAxState _ _ _ (by decide)
  · exact axAt_setRun_same ..

theorem segments_start : axisStarts .segments 3
    (fun s a v => s.axState a ≠ 0 ∨
      s.towardTrip a (segGoal (s.segWords a (fldGet AX_CMD_FIRSTSEG v)) (s.axAt a).p.toInt -
        (s.axAt a).p.toInt) = true)
    (fun s a v => .segments { entry := fldGet AX_CMD_FIRSTSEG v,
                              words := s.segWords a (fldGet AX_CMD_FIRSTSEG v), t := 0,
                              p0 := (s.axAt a).p.toInt, v0 := 0 }) := by
  refine axisStarts_of_exec
    (fun s a v => (s.setAxState a 3).beginSeg a (fldGet AX_CMD_FIRSTSEG v) (s.axAt a).p.toInt 0)
    (fun s a v h => ?_) (fun s a v h hf => ?_) (fun s a v h hf => ?_) (fun s a v => ?_) (fun s a v => ?_)
    (fun _ _ _ => rfl)
    (fun s a v => axOnly_setFld (axOnly_setRun (axOnly_setFld (axOnly_refl _ _ _) (by simp))) (by simp))
  · exact congrArg Host.Outcome.next (if_pos h)
  · exact congrArg Host.Outcome.next ((if_neg (by simp [h])).trans (if_pos hf))
  · exact congrArg Host.Outcome.next ((if_neg (by simp [h])).trans (if_neg hf))
  · unfold State.beginSeg
    rw [axState_setFld _ _ _ _ (by decide)]
    exact axState_setAxState _ _ _ (by decide)
  · unfold State.beginSeg
    rw [axAt_setFld]
    exact axAt_setRun_same ..

/-! ### Stops and homing -/

section
variable (s : State) (a : Fin 8)

theorem feedEnds_free (h : s.lcFeeds a = false) : s.feedEnds a = s := if_neg (by simp [h])

theorem homeFail_free (h : s.axState a ≠ 5) : s.homeFail a = s := if_neg h

/-- A hard stop stands still at AX_POS. -/
theorem hardStopAt_at : ((s.hardStopAt a).axAt a).run = .arrived ∧ ((s.hardStopAt a).axAt a).v = 0 ∧
    ((s.hardStopAt a).axAt a).floor = s.reg (AX_POS a) ∧ (s.hardStopAt a).reg (AX_VEL a) = 0 ∧
    (s.hardStopAt a).bit (AX_STAT a) AX_STAT_LAG = false ∧ (s.hardStopAt a).axState a = s.axState a := by
  obtain ⟨-, hsv, -, -, -, -, -, hvs, -, hpv, -⟩ := ax_regs_ne a
  obtain ⟨hf, hr, hv, hl⟩ := dropSteps_at (s.axArrive a) a
  refine ⟨hr.trans (by rw [axAt_axArrive]), hv.trans (by rw [axAt_axArrive]),
    hf.trans (reg_axArrive_other _ _ hpv), (reg_dropSteps _ _ hvs).trans (reg_axArrive_vel _ _), hl, ?_⟩
  exact (fld_dropSteps _ _ _ (.inl (by decide))).trans (fld_axArrive_other _ _ _ hsv)

/-- A hard stop reports nothing. -/
theorem hardStopAt_whole :
    s.hardStopAt a = { s with regs := (s.hardStopAt a).regs, mx := (s.hardStopAt a).mx } := by
  unfold State.hardStopAt State.dropSteps
  dsimp only
  split
  · rfl
  · rfl

theorem exec_rampStop (v : Word) :
    exec (.rampStop a v) s = .next ((((s.feedEnds a).homeFail a).setAxState a 4).setRun a .stop) := rfl

theorem exec_hardStop (v : Word) :
    exec (.hardStop a v) s = .next ((((s.feedEnds a).homeFail a).setAxState a 4).hardStopAt a) := rfl

/-- Homing that fails is reported (R360). -/
theorem homeFail_reports (h : s.axState a = 5) :
    (s.homeFail a).bit (AX_STAT a) AX_STAT_HOMED = false ∧
      (s.homeFail a).bit (AX_FLAG a) AX_FLAG_HOME_FAIL = true ∧ EventSet (s.homeFail a) BLK_MX a ∧
      Reported s (s.homeFail a) 0x04C2 (BitVec.ofNat 8 a) 0 ∧ axOnly s (s.homeFail a) a [AX_STAT a, AX_FLAG a] := by
  obtain ⟨hsf, -, -, -, hfs, -⟩ := ax_regs_ne a
  obtain ⟨ms, mf, -⟩ := ax_notMem a a.isLt
  rw [State.homeFail, if_pos h]
  generalize hu : (s.setFld (AX_STAT a) AX_STAT_HOMED 0).axFlag a AX_FLAG_HOME_FAIL = u
  have hk : Frame u (u.fault 0x04C2 a) [] [BLK_MX] := (Frame.refl _ _ _).fault
  have hevt : EventSet (u.fault 0x04C2 a) BLK_MX a := (hu ▸ axFlag_eventSet _ _ _ a.isLt).fault _ _ _
  have hq : u.si = s.si := by rw [← hu, axFlag_si]; rfl
  refine ⟨?_, ?_, ?_, (fault_reportedFrom _ _ _ (by rw [hq])).of_si rfl rfl, ?_⟩
  · rw [bit_setRun]
    unfold State.setAxState State.bit
    rw [fld_setFld_field _ _ _ _ _ (by decide), hk.fld _ (by simp) ms, ← hu]
    unfold State.fld
    rw [reg_axFlag_other _ _ _ hsf ms]
    exact congrArg (· != 0) (fld_setFld_same s (AX_STAT a) AX_STAT_HOMED 0 (by decide))
  · rw [bit_setRun]
    unfold State.setAxState State.bit
    rw [fld_setFld_other _ _ _ _ _ _ hfs, hk.fld _ (by simp) mf, ← hu]
    exact bit_axFlag_same _ _ _ a.isLt rfl (by decide)
  · exact hevt.setFld (fun e => ms (e ▸ mem_reportRegs_of_evt (by simp)))
  · have h0 : axOnly s u a [AX_STAT a, AX_FLAG a] :=
      hu ▸ axOnly_axFlag (axOnly_setFld (axOnly_refl _ _ _) (by simp)) (by simp)
    exact axOnly_setRun (axOnly_setFld (axOnly_fault h0) (by simp))

end

/-! ### The commands of an axis -/

section
variable (s : State) (a : Fin 8) (v : Word)

theorem axState_hardStop (n : Nat) (h : n < 8) : ((s.setAxState a n).hardStopAt a).axState a = n :=
  (hardStopAt_at (s.setAxState a n) a).2.2.2.2.2.trans (axState_setAxState _ _ _ h)

/-- R354: stops of an axis that neither homes nor feeds. -/
theorem stops_of_free (hl : s.lcFeeds a = false) (h5 : s.axState a ≠ 5) :
    (∃ t, exec (.rampStop a v) s = .next t ∧ t.axState a = 4 ∧ (t.axAt a).run = .stop ∧
      (t.axAt a).v = (s.axAt a).v ∧ t = { s with regs := t.regs, mx := t.mx } ∧ axOnly s t a [AX_STAT a]) ∧
    (∃ t, exec (.hardStop a v) s = .next t ∧ t.axState a = 4 ∧ (t.axAt a).run = .arrived ∧
      (t.axAt a).v = 0 ∧ t.reg (AX_VEL a) = 0 ∧ (t.axAt a).floor = s.reg (AX_POS a) ∧
      t.bit (AX_STAT a) AX_STAT_LAG = false ∧
      t = { s with regs := t.regs, mx := t.mx } ∧ axOnly s t a [AX_STAT a, AX_VEL a]) := by
  obtain ⟨-, -, -, -, -, -, -, -, hps, -⟩ := ax_regs_ne a
  obtain ⟨h1, h2, h3, h4, h6, -⟩ := hardStopAt_at (s.setAxState a 4) a
  rw [exec_rampStop, exec_hardStop, feedEnds_free _ _ hl, homeFail_free _ _ h5]
  refine ⟨⟨_, rfl, axState_setAxState _ _ _ (by decide), ?_, ?_, rfl,
    axOnly_setRun (axOnly_setFld (axOnly_refl _ _ _) (by simp))⟩,
    ⟨_, rfl, axState_hardStop _ _ _ (by decide), h1, h2, h4, ?_, h6, ?_,
      axOnly_hardStopAt (axOnly_setFld (axOnly_refl _ _ _) (by simp)) (by simp) (by simp)⟩⟩
  · rw [axAt_setRun_same]
  · rw [axAt_setRun_same]
    rfl
  · rw [h3, State.setAxState, reg_setFld_other _ _ _ _ _ hps]
  · exact hardStopAt_whole (s.setAxState a 4) a

/-- The reference of homing is read from AX_HOME and from the levels in AX_STAT. -/
theorem homeActive_of {t : State} (h : t.reg (AX_HOME a) = s.reg (AX_HOME a))
    (hb : ∀ f : Fld, 5 ≤ f.lo → f.lo + f.w ≤ 8 → t.fld (AX_STAT a) f = s.fld (AX_STAT a) f) :
    t.homeActive a = s.homeActive a ∧ t.homePositive a = s.homePositive a := by
  have hp : t.homePositive a = s.homePositive a := by
    unfold State.homePositive State.bit State.fld
    rw [h]
  refine ⟨?_, hp⟩
  unfold State.homeActive State.homeRef State.bit
  rw [hp, hb _ (by decide) (by decide), hb _ (by split <;> decide) (by split <;> decide)]
  unfold State.fld
  rw [h]

/-- The state in which HOME finds the reference. -/
theorem homeStart_begins :
    let t := (s.setFld (AX_STAT a) AX_STAT_HOMED 0).setAxState a 5
    t.homeActive a = s.homeActive a ∧ t.homePositive a = s.homePositive a ∧ t.axState a = 5 ∧
      t.bit (AX_STAT a) AX_STAT_HOMED = false := by
  intro t
  obtain ⟨-, -, -, -, -, -, -, -, -, -, -, -, -, -, hhs⟩ := ax_regs_ne a
  have hreg : t.reg (AX_HOME a) = s.reg (AX_HOME a) := by
    unfold t State.setAxState
    rw [reg_setFld_other _ _ _ _ _ hhs, reg_setFld_other _ _ _ _ _ hhs]
  have hb : ∀ f : Fld, 5 ≤ f.lo → f.lo + f.w ≤ 8 → t.fld (AX_STAT a) f = s.fld (AX_STAT a) f := by
    intro f h5 h8
    unfold t State.setAxState
    rw [fld_setFld_field _ _ _ _ _ (.inr (show 0 + 3 ≤ f.lo by omega)),
      fld_setFld_field _ _ _ _ _ (.inl (show f.lo + f.w ≤ 16 by omega))]
  obtain ⟨ha, hp⟩ := homeActive_of s a hreg hb
  refine ⟨ha, hp, axState_setAxState _ _ _ (by decide), ?_⟩
  unfold t State.setAxState State.bit
  rw [fld_setFld_field _ _ _ _ _ (by decide), fld_setFld_same _ _ _ _ (by decide)]
  rfl

/-- The speed of a homing step is read from AX_HOME and from a profile set. -/
theorem homeSpeed_of {t : State} (h : ∀ off, off ≠ AX_STAT a → t.reg off = s.reg off) (p : Bool) :
    t.homeSpeed a p = s.homeSpeed a p := by
  obtain ⟨-, -, -, -, -, -, -, -, -, -, -, -, -, -, hhs⟩ := ax_regs_ne a
  have hset : ∀ k j, t.reg (AX_SET a k j) = s.reg (AX_SET a k j) := fun k j =>
    h _ (by unfold AX_SET AX_STAT; omega)
  have hh : t.homeSet a = s.homeSet a := by
    unfold State.homeSet State.fld
    rw [h _ hhs]
  unfold State.homeSpeed State.prof
  dsimp only
  rw [hh, hset]

/-- A homing step begins with its run. -/
theorem setHstep_run (n : Nat) (w : State) (hw : w.regs = (s.setHstep a n).regs) (r : AxRun) :
    let t := w.setRun a r
    t.axState a = s.axState a ∧ t.bit (AX_STAT a) AX_STAT_HOMED = s.bit (AX_STAT a) AX_STAT_HOMED ∧
      t.fld (AX_STAT a) AX_STAT_HSTEP = n % 4 ∧ (t.axAt a).run = r := by
  have hr : w.reg (AX_STAT a) = (s.setHstep a n).reg (AX_STAT a) := reg_of_regs hw _
  have hf : ∀ f, w.fld (AX_STAT a) f = (s.setHstep a n).fld (AX_STAT a) f := fun f => by
    unfold State.fld
    rw [hr]
  refine ⟨(hf _).trans (axState_setFld _ _ _ _ (by decide)), ?_,
    (hf _).trans (fld_setFld_same _ _ _ _ (by decide)), by rw [axAt_setRun_same]⟩
  exact congrArg (· != 0) ((hf _).trans (fld_setFld_field _ _ _ _ _ (by decide)))

/-- R359: HOME starts in CLEAR where the reference is active, and in SEARCH where it is not. -/
theorem homeStart_starts :
    let side := if s.homeActive a then !s.homePositive a else s.homePositive a
    let t := s.homeStart a
    t.axState a = 5 ∧ t.bit (AX_STAT a) AX_STAT_HOMED = false ∧
      t.fld (AX_STAT a) AX_STAT_HSTEP = (if s.homeActive a then 0 else 1) ∧
      (t.axAt a).run = s.homeSpeed a side ∧ t = { s with regs := t.regs, mx := t.mx } ∧
      axOnly s t a [AX_STAT a] := by
  intro side t
  obtain ⟨ha, hp, h5, h0⟩ := homeStart_begins s a
  have honly : axOnly s ((s.setFld (AX_STAT a) AX_STAT_HOMED 0).setAxState a 5) a [AX_STAT a] :=
    axOnly_setFld (axOnly_setFld (axOnly_refl _ _ _) (by simp)) (by simp)
  have hspeed : ∀ p, ((s.setFld (AX_STAT a) AX_STAT_HOMED 0).setAxState a 5).homeSpeed a p = s.homeSpeed a p :=
    homeSpeed_of s a fun off ho => by
      rw [State.setAxState, reg_setFld_other _ _ _ _ _ ho, reg_setFld_other _ _ _ _ _ ho]
  have hwhole : ∃ r, (s.setFld (AX_STAT a) AX_STAT_HOMED 0).setAxState a 5 = { s with regs := r } := ⟨_, rfl⟩
  unfold t State.homeStart State.homeSearch
  generalize (s.setFld (AX_STAT a) AX_STAT_HOMED 0).setAxState a 5 = u at *
  obtain ⟨r, rfl⟩ := hwhole
  dsimp only
  rw [ha, hp, hspeed]
  unfold side
  cases hact : s.homeActive a with
  | true =>
    obtain ⟨k1, k2, k3, k4⟩ := setHstep_run { s with regs := r } a 0 _ rfl (s.homeSpeed a (!s.homePositive a))
    exact ⟨k1.trans h5, k2.trans h0, k3, k4, rfl, axOnly_setRun (axOnly_setFld honly (by simp))⟩
  | false =>
    obtain ⟨k1, k2, k3, k4⟩ := setHstep_run { s with regs := r } a 1
      ((State.setHstep { s with regs := r } a 1).onAx a fun x => { x with searchAt := x.floor, travel := 0 }) rfl
      (State.homeSpeed { s with regs := r } a (s.homePositive a))
    exact ⟨k1.trans h5, k2.trans h0, k3, k4.trans (hspeed _), rfl,
      axOnly_setRun (axOnly_onAx (axOnly_setFld honly (by simp)))⟩

/-- A stop of either kind, as it acts on the state in which a homing or a feed has ended. -/
def State.axStops (s : State) (a : Nat) (hard : Bool) : State :=
  if hard then (s.setAxState a 4).hardStopAt a else (s.setAxState a 4).setRun a .stop

theorem exec_stop (hard : Bool) : exec (if hard then .hardStop a v else .rampStop a v) s =
    .next (((s.feedEnds a).homeFail a).axStops a hard) := by
  cases hard
  · exact exec_rampStop s a v
  · exact exec_hardStop s a v

theorem axStops_stops (hard : Bool) :
    let t := s.axStops a hard
    (t.axState a = 4 ∧ (t.axAt a).run = (if hard then .arrived else .stop) ∧ (hard = true → (t.axAt a).v = 0)) ∧
      t.bit (AX_STAT a) AX_STAT_HOMED = s.bit (AX_STAT a) AX_STAT_HOMED ∧
      (∀ off, off ≠ AX_STAT a → off ≠ AX_VEL a → t.reg off = s.reg off) ∧ t.si = s.si ∧ t.lc = s.lc := by
  obtain ⟨-, hsv, -, -, -, -, -, hvs, -⟩ := ax_regs_ne a
  unfold State.axStops
  cases hard with
  | true =>
    obtain ⟨h1, h2, -⟩ := hardStopAt_at (s.setAxState a 4) a
    have hw := hardStopAt_whole (s.setAxState a 4) a
    refine ⟨⟨axState_hardStop _ _ _ (by decide), h1, fun _ => h2⟩, ?_, fun off h1 h2 => ?_, ?_, ?_⟩
    · refine congrArg (· != 0) (((fld_dropSteps _ _ _ (.inr (by decide))).trans
        (fld_axArrive_other _ _ _ hsv)).trans (fld_setFld_field _ _ _ _ _ (.inr (by decide))))
    · exact ((reg_dropSteps _ _ h1).trans (reg_axArrive_other _ _ h2)).trans (reg_setFld_other _ _ _ _ _ h1)
    · rw [if_pos rfl, hw]
      rfl
    · rw [if_pos rfl, hw]
      rfl
  | false =>
    refine ⟨⟨axState_setAxState _ _ _ (by decide), by rw [if_neg (by simp), axAt_setRun_same]; rfl, fun h => by cases h⟩,
      congrArg (· != 0) (fld_setFld_field _ _ _ _ _ (.inr (by decide))),
      fun off h1 _ => reg_setFld_other _ _ _ _ _ h1, rfl, rfl⟩

theorem axOnly_axStops {t : State} {l : List Nat} (hard : Bool) (h : axOnly s t a l) (ho : AX_STAT a ∈ l)
    (hv : AX_VEL a ∈ l) : axOnly s (t.axStops a hard) a l := by
  unfold State.axStops
  split
  · exact axOnly_hardStopAt (axOnly_setFld h ho) ho hv
  · exact axOnly_setRun (axOnly_setFld h ho)

theorem axOnly_mono {t : State} {l l' : List Nat} (h : axOnly s t a l) (hl : l ⊆ l') : axOnly s t a l' :=
  ⟨h.1.mono hl (List.Subset.refl _), h.2⟩

/-- R360, R361: a stop fails a homing and ends a feed. -/
theorem stop_of_homing_or_feed (hard : Bool) :
    let i : Instr := if hard then .hardStop a v else .rampStop a v
    let stops (t : State) : Prop := t.axState a = 4 ∧
      (t.axAt a).run = (if hard then .arrived else .stop) ∧ (hard = true → (t.axAt a).v = 0)
    (s.axState a = 5 → s.lcFeeds a = false →
      ∃ t, exec i s = .next t ∧ stops t ∧ t.bit (AX_STAT a) AX_STAT_HOMED = false ∧
        t.bit (AX_FLAG a) AX_FLAG_HOME_FAIL = true ∧ EventSet t BLK_MX a ∧
        Reported s t 0x04C2 (BitVec.ofNat 8 a) 0 ∧ axOnly s t a [AX_STAT a, AX_FLAG a, AX_VEL a]) ∧
    (s.axState a ≠ 5 → s.lcFeeds a = true →
      ∃ t, exec i s = .next t ∧ stops t ∧ t.fld LC_STAT LC_STAT_FEED = 0 ∧ t.lc.feedOff = true ∧
        axOnly { s with lc := t.lc } t a [AX_STAT a, AX_VEL a, LC_STAT]) := by
  obtain ⟨hsf, -, -, -, hfs, hfv, -⟩ := ax_regs_ne a
  obtain ⟨ms, -, mv, -⟩ := ax_notMem a a.isLt
  intro i stops
  refine ⟨fun h5 hl => ?_, fun h5 hl => ?_⟩
  · obtain ⟨h1, h2, h3, h4, h6⟩ := homeFail_reports s a h5
    obtain ⟨k1, k2, k3, k4, -⟩ := axStops_stops (s.homeFail a) a hard
    refine ⟨_, (exec_stop s a v hard).trans (by rw [feedEnds_free _ _ hl]), k1, k2.trans h1, ?_, ?_, ?_,
      axOnly_axStops s a hard (axOnly_mono s a h6 (by simp)) (by simp) (by simp)⟩
    · unfold State.bit State.fld
      rw [k3 _ hfs hfv]
      exact h2
    · exact h3.of_reg (k3 _ (fun e => ms (e ▸ mem_reportRegs_of_evt (by simp)))
        (fun e => mv (e ▸ mem_reportRegs_of_evt (by simp))))
    · exact h4.of_si (by rw [k4]) (by rw [k4])
  · have hls : LC_STAT ≠ AX_STAT a ∧ LC_STAT ≠ AX_VEL a := by
      unfold LC_STAT AX_STAT AX_VEL
      omega
    have hu : s.feedEnds a = (s.onLc fun l => { l with feedOff := true }).setFld LC_STAT LC_STAT_FEED 0 := if_pos hl
    have hst : (s.feedEnds a).axState a = s.axState a := by
      rw [hu]
      exact fld_setFld_other _ _ _ _ _ _ (Ne.symm hls.1)
    obtain ⟨k1, -, k3, -, k5⟩ := axStops_stops (s.feedEnds a) a hard
    have hlc : ((s.feedEnds a).axStops a hard).lc = { s.lc with feedOff := true } := k5.trans (by rw [hu]; rfl)
    refine ⟨_, (exec_stop s a v hard).trans (by rw [homeFail_free _ _ (hst ▸ h5)]), k1, ?_, by rw [hlc], ?_⟩
    · unfold State.fld
      rw [k3 _ hls.1 hls.2, hu]
      exact fld_setFld_same _ _ _ _ (by decide)
    · rw [hlc]
      refine axOnly_axStops _ a hard ?_ (by simp) (by simp)
      rw [hu]
      exact axOnly_setFld (axOnly_refl (s.onLc fun l => { l with feedOff := true }) _ _) (by simp)

/-- R354: AX_POS is written in IDLE only. -/
theorem axPosWrite_writes :
    (s.axState a = 0 → s.lcFeeds a = false →
      ∃ t, exec (.axPosWrite a v) s = .next t ∧ t.reg (AX_POS a) = v ∧ (t.axAt a).floor = v ∧
        (t.axAt a).v = (s.axAt a).v ∧ t.bit (AX_STAT a) AX_STAT_LAG = false ∧
        t = { s with regs := t.regs, mx := t.mx } ∧ axOnly s t a [AX_POS a, AX_STAT a]) ∧
    (s.axState a ≠ 0 ∨ s.lcFeeds a = true → exec (.axPosWrite a v) s = .next s) := by
  obtain ⟨-, -, -, -, -, -, -, -, hps, -⟩ := ax_regs_ne a
  refine ⟨fun h0 hl => ⟨_, congrArg Host.Outcome.next (if_pos ⟨h0, by simp [hl]⟩), ?_, ?_, ?_, ?_, rfl, ?_⟩,
    fun h => congrArg Host.Outcome.next (if_neg fun k => ?_)⟩
  · rw [State.showLag, reg_setFld_other _ _ _ _ _ hps, reg_setReg_same]
  · rw [State.showLag, axAt_setFld, axAt_setReg, axAt_onAx_same, floor_posOf]
  · rw [State.showLag, axAt_setFld, axAt_setReg, axAt_onAx_same]
  · rw [State.showLag, bit_setFld_same _ _ _ _ rfl (by decide), axAt_setReg, axAt_onAx_same, floor_posOf,
      reg_setReg_same]
    simp
  · exact axOnly_showLag (axOnly_setReg (axOnly_onAx (axOnly_refl _ _ _)) (by simp)) (by simp)
  · rcases h with h | h
    · exact h k.1
    · exact k.2 h

end

/-- Settles O48: a command of an axis starts its run, is refused or is ignored, and stops are always taken. -/
theorem axisCommandsStartOrAreRefused : Obligations.AxisCommandsStartOrAreRefused := by
  refine ⟨move_starts, velocity_starts, segments_start, fun s a v hl h5 => stops_of_free s a v hl h5,
    fun s a v hard => stop_of_homing_or_feed s a v hard, fun s a v hl => ⟨fun h0 ht => ?_, fun h => ?_⟩,
    fun s a v => axPosWrite_writes s a v⟩
  · have hf : ¬ (s.axState a ≠ 0 ∨ s.tripped a (if s.homeActive a then !s.homePositive a else s.homePositive a)) := by
      simp [h0, ht]
    obtain ⟨h1, h2, h3, h4, h5, h6⟩ := homeStart_starts s a
    exact ⟨_, congrArg Host.Outcome.next ((if_neg (by simp [hl])).trans (if_neg hf)), h1, h2, h3, h4, h5, h6⟩
  · exact ⟨_, congrArg Host.Outcome.next ((if_neg (by simp [hl])).trans (if_pos h)), axRefused_refused s a⟩

end Sys2Proof.Machine

/-!
The axes: ends of runs, homing, switches, coil frames and standstill (R346 to R360).
-/

namespace Sys2Proof.Machine

/-! ### Ends of runs and of homing -/

section
variable (s : State) (a : Fin 8)

/-- A run that ends makes the axis IDLE and sets DONE. -/
theorem runEnds_ends :
    let t := s.runEnds a
    t.axState a = 0 ∧ t.axAt a = { s.axAt a with run := .idle } ∧ t.bit (AX_FLAG a) AX_FLAG_DONE = true ∧
      EventSet t BLK_MX a ∧ (∀ g : Fld, 1 ≤ g.lo → t.bit (AX_FLAG a) g = s.bit (AX_FLAG a) g) ∧
      (∀ g : Fld, 3 ≤ g.lo → t.fld (AX_STAT a) g = s.fld (AX_STAT a) g) ∧
      (∀ off, off ∉ [AX_STAT a, AX_FLAG a] ++ reportRegs [BLK_MX] → t.reg off = s.reg off) ∧ t.lc = s.lc := by
  obtain ⟨hsf, -, -, -, hfs, -⟩ := ax_regs_ne a
  obtain ⟨ms, mf, -⟩ := ax_notMem a a.isLt
  intro t
  have hq := axFlag_quiet ((s.setAxState a 0).setRun a .idle) a AX_FLAG_DONE
  have hstat : t.reg (AX_STAT a) = (s.setAxState a 0).reg (AX_STAT a) := by
    unfold t State.runEnds
    rw [reg_axFlag_other _ _ _ hsf ms, reg_setRun]
  have hfld : ∀ g, t.fld (AX_STAT a) g = (s.setAxState a 0).fld (AX_STAT a) g := fun g => by
    unfold State.fld
    rw [hstat]
  refine ⟨(hfld _).trans (axState_setAxState _ _ _ (by decide)), ?_, bit_axFlag_same _ _ _ a.isLt rfl (by decide),
    axFlag_eventSet _ _ _ a.isLt, fun g hg => ?_, fun g hg => ?_, fun off ho => ?_, hq.lc⟩
  · exact (axAt_of_mx hq.mx a).trans (axAt_setRun_same ..)
  · refine (bit_axFlag_other _ _ _ _ a.isLt (.inr hg)).trans ?_
    rw [bit_setRun]
    exact congrArg (· != 0) (fld_setFld_other _ _ _ _ _ _ hfs)
  · exact (hfld g).trans (fld_setFld_field _ _ _ _ _ (.inr hg))
  · simp only [List.mem_append, List.mem_cons, List.not_mem_nil, or_false, not_or] at ho
    unfold t State.runEnds
    rw [reg_axFlag_other _ _ _ ho.1.2 ho.2, reg_setRun]
    exact reg_setFld_other _ _ _ _ _ ho.1.1

theorem axOnly_runEnds {r : State} {l : List Nat} (h : axOnly r s a l) (ho : AX_STAT a ∈ l) (hf : AX_FLAG a ∈ l) :
    axOnly r (s.runEnds a) a l := axOnly_axFlag (axOnly_setRun (axOnly_setFld h ho)) hf

theorem lcFeeds_of {s t : State} (h : t.lc = s.lc) (hr : ∀ j : Nat, j < 2 → t.slotState j = s.slotState j) (a : Nat) :
    t.lcFeeds a = s.lcFeeds a := by
  have ha : t.anyArmed = s.anyArmed := by
    unfold State.anyArmed
    simp only [List.any_cons, List.any_nil, hr 0 (by decide), hr 1 (by decide)]
  unfold State.lcFeeds State.lcSrc State.lcUnit
  rw [h, ha]

/-- The line clock feeds the axis whatever an axis reports. -/
theorem lcFeeds_of_frame {t : State} {l : List Nat} (h : axOnly s t a l) (hlc : t.lc = s.lc)
    (hl : ∀ j : Nat, j < 2 → ADM_SLOT_STAT j ∉ l) : t.lcFeeds a = s.lcFeeds a := by
  refine lcFeeds_of hlc (fun j hj => ?_) a
  refine h.1.fld _ (hl j hj) (notMem_reportRegs_one 0x1300020 rfl ?_)
  unfold ADM_SLOT_STAT
  omega

theorem slotStat_notMem_ax (j : Nat) (_hj : j < 2) : ADM_SLOT_STAT j ∉ [AX_STAT a, AX_FLAG a, AX_VEL a, AX_POS a] := by
  unfold ADM_SLOT_STAT AX_STAT AX_FLAG AX_VEL AX_POS
  simp only [List.mem_cons, List.not_mem_nil, or_false, not_or]
  omega

/-- R353: an arrived run outside homing ends. -/
theorem moveEnd_ends (hr : (s.axAt a).run = .arrived) (h5 : s.axState a ≠ 5) (hl : s.lcFeeds a = false) :
    s.moveEnd a = s.runEnds a := by
  have hlc := (runEnds_ends s a).2.2.2.2.2.2.2
  have hf : (s.runEnds a).lcFeeds a = s.lcFeeds a :=
    lcFeeds_of_frame s a (axOnly_runEnds s a (axOnly_refl s a [AX_STAT a, AX_FLAG a, AX_VEL a, AX_POS a]) (by simp)
      (by simp)) hlc (slotStat_notMem_ax a)
  rw [State.moveEnd, if_pos hr, if_neg h5]
  dsimp only
  rw [hf, hl]
  rfl

theorem homeAt_iff (n : Nat) : s.homeAt a n = true ↔ s.axState a = 5 ∧ s.fld (AX_STAT a) AX_STAT_HSTEP = n := by
  unfold State.homeAt
  simp

/-- R359: the return of homing ends with AX_POS = 0 and HOMED. -/
theorem homeReturned_homes :
    let t := s.homeReturned a
    t.reg (AX_POS a) = 0 ∧ (t.axAt a).p = 0 ∧ t.axState a = 0 ∧ t.bit (AX_STAT a) AX_STAT_LAG = false ∧
      t.bit (AX_STAT a) AX_STAT_HOMED = true ∧ t.bit (AX_FLAG a) AX_FLAG_HOME_DONE = true ∧
      EventSet t BLK_MX a ∧ axOnly s t a [AX_POS a, AX_STAT a, AX_FLAG a] := by
  obtain ⟨hsf, -, -, -, hfs, -, -, -, hps, -, hpf, -⟩ := ax_regs_ne a
  obtain ⟨ms, mf, -, mp, -⟩ := ax_notMem a a.isLt
  intro t
  unfold t State.homeReturned
  dsimp only
  generalize hu : ((s.onAx a fun x => { x with p := 0 }).setReg (AX_POS a) 0).showLag a = u
  have h0 : axOnly s u a [AX_POS a, AX_STAT a, AX_FLAG a] :=
    hu ▸ axOnly_showLag (axOnly_setReg (axOnly_onAx (axOnly_refl _ _ _)) (by simp)) (by simp)
  have hp : u.reg (AX_POS a) = 0 := by
    rw [← hu, State.showLag, reg_setFld_other _ _ _ _ _ hps, reg_setReg_same]
  have hx : u.axAt a = { s.axAt a with p := 0 } := by
    rw [← hu, State.showLag, axAt_setFld, axAt_setReg, axAt_onAx_same]
  have hlag : u.bit (AX_STAT a) AX_STAT_LAG = false := by
    rw [← hu, State.showLag, bit_setFld_same _ _ _ _ rfl (by decide), axAt_setReg, axAt_onAx_same, reg_setReg_same]
    exact decide_eq_false (not_not.2 (floor_posOf (s.axAt a) 0))
  clear hu
  generalize hw : (u.setFld (AX_STAT a) AX_STAT_HOMED 1).axFlag a AX_FLAG_HOME_DONE = w
  have h1 : axOnly s w a [AX_POS a, AX_STAT a, AX_FLAG a] := hw ▸ axOnly_axFlag (axOnly_setFld h0 (by simp)) (by simp)
  have hstat : w.reg (AX_STAT a) = (u.setFld (AX_STAT a) AX_STAT_HOMED 1).reg (AX_STAT a) := by
    rw [← hw, reg_axFlag_other _ _ _ hsf ms]
  have hfld : ∀ g, w.fld (AX_STAT a) g = (u.setFld (AX_STAT a) AX_STAT_HOMED 1).fld (AX_STAT a) g := fun g => by
    unfold State.fld
    rw [hstat]
  have hpw : w.reg (AX_POS a) = 0 := by
    rw [← hw, reg_axFlag_other _ _ _ hpf mp, reg_setFld_other _ _ _ _ _ hps, hp]
  have hxw : w.axAt a = u.axAt a := by
    rw [← hw]
    exact axAt_of_mx (axFlag_quiet _ _ _).mx a
  have hdone : w.bit (AX_FLAG a) AX_FLAG_HOME_DONE = true := hw ▸ bit_axFlag_same _ _ _ a.isLt rfl (by decide)
  obtain ⟨k1, k2, k3, k4, k5, k6, k7, -⟩ := runEnds_ends w a
  refine ⟨?_, ?_, k1, ?_, ?_, (k5 _ (by decide)).trans hdone, k4, axOnly_runEnds w a h1 (by simp) (by simp)⟩
  · rw [k7 _ (by simp [hps, hpf, mp]), hpw]
  · rw [k2, hxw, hx]
  · unfold State.bit
    rw [k6 _ (by decide), hfld, fld_setFld_field _ _ _ _ _ (by decide)]
    exact hlag
  · unfold State.bit
    rw [k6 _ (by decide), hfld, fld_setFld_same _ _ _ _ (by decide)]
    rfl

theorem homeLatch_latches (h : s.homeAt a 1 = true) :
    ∃ t, exec (.homeLatch a) s = .next t ∧ t.reg (AX_HLATCH a) = s.reg (AX_POS a) ∧
        t.homeAt a 2 = true ∧ (t.axAt a).run = .stop ∧ t = { s with regs := t.regs, mx := t.mx } ∧
        axOnly s t a [AX_HLATCH a, AX_STAT a] := by
  obtain ⟨-, -, -, hsh, -, -, -, -, -, -, -, hhs, -⟩ := ax_regs_ne a
  obtain ⟨h5, -⟩ := (homeAt_iff s a 1).1 h
  refine ⟨_, congrArg Host.Outcome.next (if_pos h), ?_, ?_, by rw [axAt_setRun_same], rfl,
    axOnly_setRun (axOnly_setFld (axOnly_setReg (axOnly_refl _ _ _) (by simp)) (by simp))⟩
  · rw [reg_setRun, State.setHstep, reg_setFld_other _ _ _ _ _ hhs, reg_setReg_same]
  · rw [homeAt_iff]
    refine ⟨?_, fld_setFld_same _ _ _ _ (by decide)⟩
    rw [axState_setRun, State.setHstep, axState_setFld _ _ _ _ (by decide)]
    exact (fld_setReg_other _ _ _ _ _ hsh).trans h5

/-- R353: at the end of a segment the next entry runs, or END stands at P1. -/
theorem segmentEnd_ends (g : SegRun) (hg : (s.axAt a).run = .segments g) (ht : segT g.words ≤ g.t) :
      ((g.words.getD 3 0).testBit 0 = true → segV1 g.words = 0 →
        ∃ t, exec (.segmentEnd a) s = .next t ∧ (t.axAt a).run = .arrived ∧ (t.axAt a).v = 0 ∧
          t = { s with regs := t.regs, mx := t.mx } ∧ axOnly s t a [AX_VEL a]) ∧
      ((g.words.getD 3 0).testBit 0 = true → segV1 g.words ≠ 0 →
        ∃ t, exec (.segmentEnd a) s = .next t ∧ (t.axAt a).run = .arrived ∧ (t.axAt a).v = 0 ∧
          t.bit (AX_FLAG a) AX_FLAG_SEGSTOP = true ∧ EventSet t BLK_MX a ∧
          axOnly s t a [AX_VEL a, AX_FLAG a]) ∧
      ((g.words.getD 3 0).testBit 0 = false →
        ∃ t, exec (.segmentEnd a) s = .next t ∧
          (t.axAt a).run = .segments { entry := (g.entry + 1) % 64,
                                       words := s.segWords a ((g.entry + 1) % 64), t := 0,
                                       p0 := segGoal g.words g.p0, v0 := segV1 g.words } ∧
          t.fld (AX_STAT a) AX_STAT_SEG = (g.entry + 1) % 64 ∧
          t = { s with regs := t.regs, mx := t.mx } ∧ axOnly s t a [AX_STAT a]) := by
  obtain ⟨-, -, -, -, -, hfv, -⟩ := ax_regs_ne a
  have mv := (ax_notMem a a.isLt).2.2.1
  have hexec : exec (.segmentEnd a) s = .next
      (if (g.words.getD 3 0).testBit 0 then
        (if segV1 g.words ≠ 0 then s.axFlag a AX_FLAG_SEGSTOP else s).axArrive a
      else s.beginSeg a ((g.entry + 1) % 64) (segGoal g.words g.p0) (segV1 g.words)) := by
    show Host.Outcome.next _ = _
    rw [hg]
    exact congrArg Host.Outcome.next (if_neg (by omega))
  rw [hexec]
  refine ⟨fun he hv => ⟨_, rfl, ?_⟩, fun he hv => ⟨_, rfl, ?_⟩, fun he => ⟨_, rfl, ?_⟩⟩
  · rw [if_pos he, if_neg (by simp [hv])]
    exact ⟨by rw [axAt_axArrive], by rw [axAt_axArrive], rfl, axOnly_axArrive (axOnly_refl _ _ _) (by simp)⟩
  · rw [if_pos he, if_pos hv]
    refine ⟨by rw [axAt_axArrive], by rw [axAt_axArrive], ?_, ?_,
      axOnly_axArrive (axOnly_axFlag (axOnly_refl _ _ _) (by simp)) (by simp)⟩
    · unfold State.bit
      rw [fld_axArrive_other _ _ _ hfv]
      exact bit_axFlag_same _ _ _ a.isLt rfl (by decide)
    · exact (axFlag_eventSet _ _ _ a.isLt).of_reg (reg_axArrive_other _ _
        (fun e => mv (e ▸ mem_reportRegs_of_evt (by simp))))
  · rw [if_neg (by rw [he]; exact Bool.false_ne_true)]
    refine ⟨congrArg AxSt.run (axAt_setRun_same ..), ?_, rfl,
      axOnly_setFld (axOnly_setRun (axOnly_refl _ _ _)) (by simp)⟩
    exact (fld_setFld_same _ _ _ _ (by decide)).trans (Nat.mod_eq_of_lt (Nat.mod_lt _ (by decide)))

end

theorem runsAndHomingEnd_holds : runsAndHomingEnd := by
  intro s a
  refine ⟨fun hr h5 hl => ?_, fun hr => ⟨congrArg Host.Outcome.next (if_neg hr),
      congrArg Host.Outcome.next (if_neg fun h => hr h.2)⟩, fun g hg ht => ?_, fun hg => ?_,
    fun g hg ht => segmentEnd_ends s a g hg ht, homeLatch_latches s a,
    fun h => congrArg Host.Outcome.next (if_neg (by simp [h])), fun h3 hr => ?_⟩
  · obtain ⟨k1, k2, k3, k4, -⟩ := runEnds_ends s a
    exact ⟨_, congrArg Host.Outcome.next (moveEnd_ends s a hr h5 hl), k1, by rw [k2], by rw [k2], k3, k4,
      axOnly_runEnds s a (axOnly_refl _ _ _) (by simp) (by simp)⟩
  · show Host.Outcome.next _ = _
    rw [hg]
    exact congrArg Host.Outcome.next (if_pos ht)
  · show Host.Outcome.next _ = _
    split
    · next g h => exact absurd h (hg g)
    · rfl
  · have h5 : s.axState a = 5 := ((homeAt_iff s a 3).1 h3).1
    exact ⟨_, congrArg Host.Outcome.next (if_pos ⟨h3, hr⟩),
      congrArg Host.Outcome.next ((if_pos hr).trans ((if_pos h5).trans (if_pos h3))), homeReturned_homes s a⟩

/-! ### Switches -/

section
variable (s : State) (a : Fin 8)

/-- A level of a switch lies beside the state of the axis. -/
theorem swBit_place (sw : AxSwitch) : 5 ≤ (swBit sw).lo ∧ (swBit sw).w = 1 ∧ (swBit sw).lo + 1 ≤ 32 := by
  cases sw <;> decide

theorem swLevel_set (sw : AxSwitch) : (s.setFld (AX_STAT a) (swBit sw) 1).bit (AX_STAT a) (swBit sw) = true :=
  bit_setFld_same s (AX_STAT a) (swBit sw) true (swBit_place sw).2.1 (swBit_place sw).2.2

/-- What a limit does when it trips, in the words of the statement. -/
theorem limitAction_trips (s : State) (positive : Bool) (hen : s.bit (AX_LIM a) AX_LIM_EN = true)
    (hl : s.lcFeeds a = false) (h5 : s.axState a ≠ 5) :
    let t := s.limitAction a positive
    (∀ g : Fld, 5 ≤ g.lo → t.fld (AX_STAT a) g = s.fld (AX_STAT a) g) ∧
      t.bit (AX_FLAG a) (if positive then AX_FLAG_TRIP_P else AX_FLAG_TRIP_N) = true ∧ EventSet t BLK_MX a ∧
      Reported s t 0x04C1 (BitVec.ofNat 8 a) 0 ∧
      (∀ r l, axOnly r s a l → AX_STAT a ∈ l → AX_FLAG a ∈ l → AX_VEL a ∈ l → axOnly r t a l) ∧
      (if s.axState a = 0 ∧ (s.axAt a).v = 0 then
          t.axState a = 0 ∧ (t.axAt a).run = (s.axAt a).run ∧ (t.axAt a).floor = s.reg (AX_POS a)
        else t.axState a = 4 ∧
          (if s.bit (AX_LIM a) (if positive then AX_LIM_ACTP else AX_LIM_ACTN) then (t.axAt a).run = .stop
          else (t.axAt a).run = .arrived ∧ (t.axAt a).v = 0)) := by
  obtain ⟨hsf, hsv, -, -, hfs, hfv, -, hvs, hps, hpv, hpf, -, hls, hlf, -⟩ := ax_regs_ne a
  obtain ⟨ms, mf, mv, mp, ml⟩ := ax_notMem a a.isLt
  intro t
  unfold t State.limitAction
  rw [if_pos hen]
  generalize hf : (if positive then AX_FLAG_TRIP_P else AX_FLAG_TRIP_N) = f
  generalize hu : (s.axFlag a f).fault 0x04C1 a = u
  have hk : Frame (s.axFlag a f) u [] [BLK_MX] := hu ▸ (Frame.refl _ _ _).fault
  have hq : Quiet s u := (axFlag_quiet s a f).trans hk.1
  have hreg : ∀ off, off ≠ AX_FLAG a → off ∉ reportRegs [BLK_MX] → u.reg off = s.reg off := fun off h1 h2 =>
    (hk.reg (by simp) h2).trans (reg_axFlag_other _ _ _ h1 h2)
  have hfldR : ∀ off g, off ≠ AX_FLAG a → off ∉ reportRegs [BLK_MX] → u.fld off g = s.fld off g := fun off g h1 h2 => by
    unfold State.fld
    rw [hreg off h1 h2]
  have honly : ∀ r l, axOnly r s a l → AX_FLAG a ∈ l → axOnly r u a l := fun r l h ho =>
    hu ▸ axOnly_fault (axOnly_axFlag h ho)
  have hlu : u.lcFeeds a = s.lcFeeds a :=
    lcFeeds_of_frame s a (honly s _ (axOnly_refl s a [AX_STAT a, AX_FLAG a, AX_VEL a, AX_POS a]) (by simp)) hq.lc
      (slotStat_notMem_ax a)
  have hflag : u.bit (AX_FLAG a) f = true := by
    unfold State.bit
    rw [hk.fld _ (by simp) mf, ← hf]
    cases positive <;> exact bit_axFlag_same _ _ _ a.isLt rfl (by decide)
  have hevt : EventSet u BLK_MX a := hu ▸ (axFlag_eventSet _ _ _ a.isLt).fault _ _ _
  have hrep : Reported s u 0x04C1 (BitVec.ofNat 8 a) 0 := hu ▸ fault_reportedFrom _ _ _ (by rw [axFlag_si])
  have hx : u.axAt a = s.axAt a := axAt_of_mx hq.mx a
  have hst : u.axState a = s.axState a := hfldR _ _ hsf ms
  rw [feedEnds_free _ _ (hlu.trans hl)]
  clear hu hk hq
  dsimp only
  rw [hst, hx]
  split
  · next h0 =>
    obtain ⟨k1, k2, -⟩ := dropSteps_at u a
    refine ⟨fun g hg => ?_, ?_, ?_, ?_, fun r l h ho hf hv => axOnly_dropSteps (honly r l h hf) ho, ?_, ?_, ?_⟩
    · rw [fld_dropSteps _ _ _ (.inr hg), hfldR _ _ hsf ms]
    · unfold State.bit State.fld
      rw [reg_dropSteps _ _ hfs]
      exact hflag
    · exact hevt.of_reg (reg_dropSteps _ _ fun e => ms (e ▸ mem_reportRegs_of_evt (by simp)))
    · refine hrep.of_si ?_ ?_ <;> (unfold State.dropSteps; dsimp only; split <;> rfl)
    · exact (fld_dropSteps _ _ _ (.inl (by decide))).trans (hst.trans h0.1)
    · rw [k2, hx]
    · rw [k1, hreg _ hpf mp]
  · have hact : (u.setAxState a 4).bit (AX_LIM a) (if positive then AX_LIM_ACTP else AX_LIM_ACTN) =
        s.bit (AX_LIM a) (if positive then AX_LIM_ACTP else AX_LIM_ACTN) :=
      congrArg (· != 0) ((fld_setFld_other _ _ _ _ _ _ hls).trans (hfldR _ _ hlf ml))
    rw [hact]
    have key : ∀ hard : Bool, let t := u.axStops a hard
        (∀ g : Fld, 5 ≤ g.lo → t.fld (AX_STAT a) g = s.fld (AX_STAT a) g) ∧ t.bit (AX_FLAG a) f = true ∧
        EventSet t BLK_MX a ∧ Reported s t 0x04C1 (BitVec.ofNat 8 a) 0 ∧
        (∀ r l, axOnly r s a l → AX_STAT a ∈ l → AX_FLAG a ∈ l → AX_VEL a ∈ l → axOnly r t a l) := by
      intro hard
      obtain ⟨-, -, k3, k4, -⟩ := axStops_stops u a hard
      refine ⟨fun g hg => ?_, ?_, ?_, hrep.of_si (by rw [k4]) (by rw [k4]),
        fun r l h ho hf hv => axOnly_axStops r a hard (honly r l h hf) ho hv⟩
      · rw [← hfldR (AX_STAT a) g hsf ms]
        unfold State.axStops
        split
        · exact ((fld_dropSteps _ _ _ (.inr hg)).trans (fld_axArrive_other _ _ _ hsv)).trans
            (fld_setFld_field _ _ _ _ _ (.inr (show 0 + 3 ≤ g.lo by omega)))
        · exact fld_setFld_field _ _ _ _ _ (.inr (show 0 + 3 ≤ g.lo by omega))
      · unfold State.bit State.fld
        rw [k3 _ hfs hfv]
        exact hflag
      · exact hevt.of_reg (k3 _ (fun e => ms (e ▸ mem_reportRegs_of_evt (by simp)))
          (fun e => mv (e ▸ mem_reportRegs_of_evt (by simp))))
    clear hact
    generalize s.bit (AX_LIM a) (if positive then AX_LIM_ACTP else AX_LIM_ACTN) = soft
    cases soft with
    | true =>
      obtain ⟨k1, k2, k3, k4, k5⟩ := key false
      obtain ⟨j1, -⟩ := axStops_stops u a false
      simp only [if_true]
      exact ⟨k1, k2, k3, k4, k5, j1.1, j1.2.1⟩
    | false =>
      obtain ⟨k1, k2, k3, k4, k5⟩ := key true
      obtain ⟨j1, -⟩ := axStops_stops u a true
      simp only [Bool.false_eq_true, if_false]
      exact ⟨k1, k2, k3, k4, k5, j1.1, j1.2.1, j1.2.2 rfl⟩

/-- The state with the level of a switch shown active. -/
theorem swShown (sw : AxSwitch) :
    let u := s.setFld (AX_STAT a) (swBit sw) 1
    u.axState a = s.axState a ∧ u.lcFeeds a = s.lcFeeds a ∧ (∀ off, off ≠ AX_STAT a → u.reg off = s.reg off) ∧
      axOnly s u a [AX_STAT a] := by
  intro u
  have ho : axOnly s u a [AX_STAT a] := axOnly_setFld (axOnly_refl _ _ _) (by simp)
  refine ⟨axState_setFld _ _ _ _ (by have := (swBit_place sw).1; omega), ?_,
    fun off h => reg_setFld_other _ _ _ _ _ h, ho⟩
  refine lcFeeds_of_frame s a ho rfl fun j hj h => slotStat_notMem_ax a j hj ?_
  simp only [List.mem_singleton] at h
  simp [h]

/-- A limit that trips outside homing, and not within the release time of its input. -/
theorem exec_trip_limit (positive : Bool) (hb : s.bit (AX_STAT a) (swBit (if positive then .pos else .neg)) = false)
    (hrel : (s.axAt a).relAt.get none (swIx (if positive then .pos else .neg)) = none) (h5 : s.axState a ≠ 5) :
    exec (.trip a (if positive then .pos else .neg)) s =
      .next ((s.setFld (AX_STAT a) (swBit (if positive then .pos else .neg)) 1).limitAction a positive) := by
  have hst := (swShown s a (if positive then .pos else .neg)).1
  have hhome : (s.setFld (AX_STAT a) (swBit (if positive then .pos else .neg)) 1).homeTrip a
      (if positive then .pos else .neg) = s.setFld (AX_STAT a) (swBit (if positive then .pos else .neg)) 1 :=
    if_pos (by rw [hst]; exact h5)
  refine congrArg Host.Outcome.next ((if_neg (by rw [hb]; exact Bool.false_ne_true)).trans ?_)
  dsimp only
  rw [hrel, hhome]
  cases positive <;> rfl

/-- R357: the trip of a limit. -/
theorem trip_limit (positive : Bool) :
    let sw : AxSwitch := if positive then .pos else .neg
    let trip := if positive then AX_FLAG_TRIP_P else AX_FLAG_TRIP_N
    s.bit (AX_STAT a) (swBit sw) = false → (s.axAt a).relAt.get none (swIx sw) = none → s.axState a ≠ 5 →
    s.lcFeeds a = false →
    (s.bit (AX_LIM a) AX_LIM_EN = true →
      ∃ t, exec (.trip a sw) s = .next t ∧ t.bit (AX_STAT a) (swBit sw) = true ∧
        t.bit (AX_FLAG a) trip = true ∧ EventSet t BLK_MX a ∧ Reported s t 0x04C1 (BitVec.ofNat 8 a) 0 ∧
        axOnly s t a [AX_STAT a, AX_FLAG a, AX_VEL a] ∧
        (if s.axState a = 0 ∧ (s.axAt a).v = 0 then
          t.axState a = 0 ∧ (t.axAt a).run = (s.axAt a).run ∧ (t.axAt a).floor = s.reg (AX_POS a)
        else t.axState a = 4 ∧
          (if s.bit (AX_LIM a) (if positive then AX_LIM_ACTP else AX_LIM_ACTN) then (t.axAt a).run = .stop
          else (t.axAt a).run = .arrived ∧ (t.axAt a).v = 0))) ∧
    (s.bit (AX_LIM a) AX_LIM_EN = false →
      ∃ t, exec (.trip a sw) s = .next t ∧ t.bit (AX_STAT a) (swBit sw) = true ∧
        t = { s with regs := t.regs } ∧ RegsBut s t [AX_STAT a]) := by
  intro sw trip hb hrel h5 hl
  obtain ⟨-, -, -, -, -, -, -, -, hps, -, -, -, hls, -⟩ := ax_regs_ne a
  obtain ⟨u1, u2, u3, u4⟩ := swShown s a sw
  have hen : ∀ g, (s.setFld (AX_STAT a) (swBit sw) 1).bit (AX_LIM a) g = s.bit (AX_LIM a) g := fun g => by
    unfold State.bit State.fld
    rw [u3 _ hls]
  refine ⟨fun he => ?_, fun he => ?_⟩
  · obtain ⟨k1, k2, k3, k4, k5, k6⟩ := limitAction_trips a (s.setFld (AX_STAT a) (swBit sw) 1) positive
      ((hen _).trans he) (u2.trans hl) (by rw [u1]; exact h5)
    refine ⟨_, exec_trip_limit s a positive hb hrel h5, ?_, k2, k3, k4.from rfl,
      k5 _ _ (axOnly_mono s a u4 (by simp)) (by simp) (by simp) (by simp), ?_⟩
    · exact (congrArg (· != 0) (k1 _ (swBit_place sw).1)).trans (swLevel_set s a sw)
    · rw [u1, hen, u3 _ hps, axAt_setFld] at k6
      exact k6
  · have hlim : (s.setFld (AX_STAT a) (swBit sw) 1).limitAction a positive = s.setFld (AX_STAT a) (swBit sw) 1 :=
      if_neg (by rw [hen, he]; exact Bool.false_ne_true)
    exact ⟨_, (exec_trip_limit s a positive hb hrel h5).trans (congrArg Host.Outcome.next hlim), swLevel_set s a sw, rfl,
      (RegsBut.refl _ _).setFld (by simp)⟩

/-- R356: an active edge within the release time is chatter. -/
theorem trip_chatter (sw : AxSwitch) (u : Nat) (hb : s.bit (AX_STAT a) (swBit sw) = false)
    (hrel : (s.axAt a).relAt.get none (swIx sw) = some u) (hu : s.now < u + s.fld (AX_LIM a) AX_LIM_REL * 1000) :
    let eighth := (s.countEvent (winKey 0x14C3 (3 * a + swIx sw)) 8 (100 * ticksMs)).1
    ∃ t, exec (.trip a sw) s = .next t ∧ t.bit (AX_STAT a) (swBit sw) = true ∧ t.mx = s.mx ∧
        axOnly s t a [AX_STAT a, AX_FLAG a] ∧
        (eighth = false → Reported s t 0x14C3 (BitVec.ofNat 8 a) 0) ∧
        (eighth = true → t.bit (AX_FLAG a) AX_FLAG_CHATTER = true) := by
  obtain ⟨hsf, -⟩ := ax_regs_ne a
  obtain ⟨ms, -⟩ := ax_notMem a a.isLt
  intro eighth
  have hexec : exec (.trip a sw) s = .next ((s.setFld (AX_STAT a) (swBit sw) 1).chatter a sw) := by
    refine congrArg Host.Outcome.next ((if_neg (by rw [hb]; exact Bool.false_ne_true)).trans ?_)
    dsimp only
    rw [hrel]
    exact if_pos (decide_eq_true hu)
  have hcount : ∃ w, (s.setFld (AX_STAT a) (swBit sw) 1).countEvent (winKey 0x14C3 (3 * a + swIx sw)) 8
      (100 * ticksMs) = (eighth, w) ∧ Frame (s.setFld (AX_STAT a) (swBit sw) 1) w [] [BLK_MX] ∧
        w.si.queues = s.si.queues := ⟨_, rfl, (Frame.refl _ _ _).of_quiet rfl rfl, rfl⟩
  obtain ⟨w, hw, hf, hq⟩ := hcount
  have hr : Frame (s.setFld (AX_STAT a) (swBit sw) 1) (w.raiseWith 0x14C3 a 0 eighth) [] [BLK_MX] := hf.raiseWith
  have hrep : Reported s (w.raiseWith 0x14C3 a 0 eighth) 0x14C3 (BitVec.ofNat 8 a) 0 :=
    (raiseWith_reported _ _ _ _ _).from hq.symm
  have hlevel : ∀ t : State, t.reg (AX_STAT a) = (s.setFld (AX_STAT a) (swBit sw) 1).reg (AX_STAT a) →
      t.bit (AX_STAT a) (swBit sw) = true := fun t h => by
    have := swLevel_set s a sw
    unfold State.bit State.fld at this ⊢
    rw [h]
    exact this
  have honly : axOnly s (w.raiseWith 0x14C3 a 0 eighth) a [AX_STAT a, AX_FLAG a] :=
    axOnly_of_frame (axOnly_setFld (axOnly_refl _ _ _) (by simp)) (hr.mono (by simp) (List.Subset.refl _))
  refine ⟨_, hexec, ?_⟩
  unfold State.chatter
  rw [hw]
  dsimp only
  clear_value eighth
  generalize w.raiseWith 0x14C3 a 0 eighth = r at hr hrep honly
  cases eighth with
  | false =>
    rw [if_neg Bool.false_ne_true]
    exact ⟨hlevel _ (hr.reg (by simp) ms), hr.1.mx, honly, fun _ => hrep, fun h => by cases h⟩
  | true =>
    have hk : Frame r (r.fault 0x24C4 a) [] [BLK_MX] := (Frame.refl _ _ _).fault
    rw [if_pos rfl]
    refine ⟨hlevel _ ?_, ?_, axOnly_axFlag (axOnly_fault honly) (by simp), (fun h => nomatch h),
      fun _ => bit_axFlag_same _ _ _ a.isLt rfl (by decide)⟩
    · rw [reg_axFlag_other _ _ _ hsf ms, hk.reg (by simp) ms, hr.reg (by simp) ms]
    · rw [(axFlag_quiet _ _ _).mx, hk.1.mx, hr.1.mx]
      rfl

/-! ### The write of the flags -/

/-- The flags of an axis are cleared by a 1 (R358). -/
theorem regDef_AX_FLAG : ∃ d, regDef? (AX_FLAG a) = some d ∧ d.rw = 0 ∧ d.rwl = 0 ∧ d.w1c = 0xFF := by
  revert a
  decide

/-- A field of one bit is that bit. -/
theorem fldGet_one (i : Nat) (w : Word) : fldGet ⟨i, 1⟩ w = b2n (w.getLsbD i) := by
  have hm := Nat.mod_two_eq_zero_or_one (w.toNat / 2 ^ i)
  have ht : w.getLsbD i = decide (w.toNat / 2 ^ i % 2 = 1) := by
    rw [BitVec.getLsbD, Nat.testBit_eq_decide_div_mod_eq]
  show w.toNat / 2 ^ i % 2 ^ 1 = _
  rw [ht, Nat.pow_one]
  rcases hm with h | h <;> simp [h, b2n]

theorem bit_one (i off : Nat) : s.bit off ⟨i, 1⟩ = (s.reg off).getLsbD i := by
  unfold State.bit State.fld
  rw [fldGet_one, b2n_bne_zero]

/-- The trip bits that a write of AX_FLAG keeps, those of active inputs. -/
def axKeep (n p : Bool) : Word :=
  (if n then fldMask AX_FLAG_TRIP_N else 0) ||| (if p then fldMask AX_FLAG_TRIP_P else 0)

theorem axKeep_bits (n p : Bool) : (axKeep n p).getLsbD 1 = n ∧ (axKeep n p).getLsbD 2 = p := by
  revert n p
  decide

theorem axFlagWrite_reg (v : Word) (i : Nat) (hi : i < 8) :
    ((s.axFlagWrite a v).reg (AX_FLAG a)).getLsbD i = ((s.reg (AX_FLAG a)).getLsbD i &&
      (!v.getLsbD i || (axKeep (s.bit (AX_STAT a) AX_STAT_LIMN) (s.bit (AX_STAT a) AX_STAT_LIMP)).getLsbD i ||
        (s.top.fresh.get 0 (AX_FLAG a)).getLsbD i)) := by
  obtain ⟨d, hd, hrw, hl, hc⟩ := regDef_AX_FLAG a
  have h8 : BitVec.getLsbD (0xFF : Word) i = true := by
    interval_cases i <;> rfl
  have h32 : i < 32 := by omega
  unfold State.axFlagWrite State.typedWrite
  rw [hd]
  dsimp only
  rw [if_neg (by rw [hl]; simp), reg_setReg_same, hrw, hl, hc]
  show (_ &&& ~~~((v &&& ~~~(axKeep _ _)) &&& _ &&& _) : Word).getLsbD i = _
  simp only [BitVec.getLsbD_and, BitVec.getLsbD_or, BitVec.getLsbD_not, h8, h32, decide_true, Bool.true_and,
    Bool.and_true]
  cases (s.reg (AX_FLAG a)).getLsbD i <;> cases v.getLsbD i <;> simp

/-- A trip bit stays where the value has a 0, its input is active, or hardware set it in the cycle. -/
theorem axFlagWrite_bit (v : Word) (i : Nat) (lim : Fld)
    (hi : i = 1 ∧ lim = AX_STAT_LIMN ∨ i = 2 ∧ lim = AX_STAT_LIMP) :
    (s.axFlagWrite a v).bit (AX_FLAG a) ⟨i, 1⟩ = (s.bit (AX_FLAG a) ⟨i, 1⟩ &&
        (fldGet ⟨i, 1⟩ v == 0 || s.bit (AX_STAT a) lim || fldGet ⟨i, 1⟩ (s.top.fresh.get 0 (AX_FLAG a)) == 1)) := by
  have hkeep : (axKeep (s.bit (AX_STAT a) AX_STAT_LIMN) (s.bit (AX_STAT a) AX_STAT_LIMP)).getLsbD i =
      s.bit (AX_STAT a) lim := by
    rcases hi with ⟨rfl, rfl⟩ | ⟨rfl, rfl⟩
    · exact (axKeep_bits _ _).1
    · exact (axKeep_bits _ _).2
  rw [bit_one, bit_one, axFlagWrite_reg _ _ _ _ (by omega), hkeep, fldGet_one, fldGet_one]
  cases v.getLsbD i <;> cases (s.top.fresh.get 0 (AX_FLAG a)).getLsbD i <;> rfl

theorem axFlagWrite_only (v : Word) : s.axFlagWrite a v = { s with regs := (s.axFlagWrite a v).regs } ∧
    RegsBut s (s.axFlagWrite a v) [AX_FLAG a] := by
  obtain ⟨d, hd, -, hl, -⟩ := regDef_AX_FLAG a
  unfold State.axFlagWrite State.typedWrite
  rw [hd]
  dsimp only
  rw [if_neg (by rw [hl]; simp)]
  exact ⟨rfl, (RegsBut.refl _ _).setReg (by simp)⟩

end

theorem switchesFramesAndStandstill_holds : switchesFramesAndStandstill := by
  refine ⟨fun s a positive => trip_limit s a positive, fun s a sw => ⟨fun h => congrArg Host.Outcome.next (if_pos h),
    fun h => congrArg Host.Outcome.next (if_pos (by simp [h])), fun u h hr hu => trip_chatter s a sw u h hr hu⟩, ?_, ?_, ?_⟩
  · intro s a sw h
    refine ⟨_, congrArg Host.Outcome.next (if_neg (by simp [h])), ?_, ?_, rfl, 
      axOnly_onAx (axOnly_setFld (axOnly_refl _ _ _) (by simp))⟩
    · exact bit_setFld_same s (AX_STAT a) (swBit sw) false (swBit_place sw).2.1 (swBit_place sw).2.2
    · rw [axAt_onAx_same]
      exact Tbl.get_set_same _ _ _ _
  · intro s a v fresh
    obtain ⟨h1, h2⟩ := axFlagWrite_only s a v
    exact ⟨_, rfl, h1, h2, axFlagWrite_bit s a v 2 _ (.inr ⟨rfl, rfl⟩), axFlagWrite_bit s a v 1 _ (.inl ⟨rfl, rfl⟩)⟩
  · intro s a per
    have hframe : ∀ b : Bool, (match (s.axAt a).frameAt with
        | some t => decide (t + per ≤ s.now)
        | none => true) = b → exec (.currentFrame a) s = .next
        (if s.bit (AX_CFG a) AX_CFG_EN && s.bit (AX_CFG a) AX_CFG_MODE && b then
          s.onAx a fun x => { x with frame := s.coilFrame a, frameAt := some s.now } else s) := by
      rintro b rfl
      rfl
    refine ⟨fun he hm u hu hn => ?_, fun he hm hd => ?_, fun h => ?_, fun h => ?_, fun h => ?_, fun pad => ?_⟩
    · rw [hframe false (by rw [hu]; exact decide_eq_false (by omega))]
      simp
    · have hdue : (match (s.axAt a).frameAt with
        | some t => decide (t + per ≤ s.now)
        | none => true) = true := by
        split
        · next u hu => exact decide_eq_true (hd u hu)
        · rfl
      rw [hframe true hdue, he, hm, Bool.true_and, Bool.true_and, if_pos rfl]
      exact ⟨_, rfl, by rw [axAt_onAx_same], by rw [axAt_onAx_same], rfl, fun b hb => by rw [axAt_onAx, if_neg hb]⟩
    · refine (hframe _ rfl).trans (congrArg Host.Outcome.next (if_neg ?_))
      rcases h with h | h <;> simp [h]
    · exact ⟨_, congrArg Host.Outcome.next (if_neg (by simp [h])),
        bit_setFld_same s (AX_STAT a) AX_STAT_STILL true rfl (by decide), rfl, (RegsBut.refl _ _).setFld (by simp)⟩
    · exact congrArg Host.Outcome.next (if_pos h)
    · refine ⟨_, rfl, (Frame.refl _ _ _).fault, fault_reported _ _ _ _, ?_⟩
      unfold State.fault State.raiseWith
      rw [if_neg (by decide)]
      dsimp only
      rw [if_pos (by decide)]
      simp

/-- Settles O49: runs and homing end, switches trip, release and chatter, and coil frames begin. -/
theorem axisRunsAndSwitches : Obligations.AxisRunsAndSwitches :=
  ⟨runsAndHomingEnd_holds, switchesFramesAndStandstill_holds⟩

end Sys2Proof.Machine

/-!
Flags that hardware sets, and the encoder inputs (R362 to R367).
-/

namespace Sys2Proof.Machine

/-! ### A flag that hardware sets, with its event -/

section
variable (s : State) (off i blk n : Nat)

theorem hwEvt_quiet : Quiet s ((s.hwSet off i).setEvt blk n) :=
  Quiet.trans (show Quiet s (s.hwSet off i) from rfl) (setEvt_quiet _ _ _)

theorem hwEvt_si : ((s.hwSet off i).setEvt blk n).si = s.si := setEvt_si _ _ _

theorem reg_hwEvt_other {o : Nat} (h : o ≠ off) (hr : o ∉ reportRegs [blk]) :
    ((s.hwSet off i).setEvt blk n).reg o = s.reg o :=
  (reg_setEvt_of_notMem _ _ _ _ hr).trans (reg_hwSet_other _ _ _ _ h)

theorem reg_hwEvt_same (hr : off ∉ reportRegs [blk]) :
    ((s.hwSet off i).setEvt blk n).reg off = fldPut ⟨i, 1⟩ 1 (s.reg off) :=
  (reg_setEvt_of_notMem _ _ _ _ hr).trans (reg_setFld_same _ _ _ _)

theorem bit_hwEvt_same (hr : off ∉ reportRegs [blk]) (hl : i < 32) :
    ((s.hwSet off i).setEvt blk n).bit off ⟨i, 1⟩ = true := by
  unfold State.bit State.fld
  rw [reg_hwEvt_same _ _ _ _ _ hr, fldGet_fldPut_same _ _ _ (show i + 1 ≤ 32 from hl)]
  rfl

theorem fld_hwEvt_field (g : Fld) (hr : off ∉ reportRegs [blk]) (h : g.lo + g.w ≤ i ∨ i + 1 ≤ g.lo) :
    ((s.hwSet off i).setEvt blk n).fld off g = s.fld off g := by
  unfold State.fld
  rw [reg_hwEvt_same _ _ _ _ _ hr, fldGet_fldPut_other _ _ _ _ h]

theorem fld_hwEvt_other (g : Fld) {o : Nat} (h : o ≠ off) (hr : o ∉ reportRegs [blk]) :
    ((s.hwSet off i).setEvt blk n).fld o g = s.fld o g := by
  unfold State.fld
  rw [reg_hwEvt_other _ _ _ _ _ h hr]

/-- A bit that a flag has set stays set when another, or itself, is. -/
theorem bit_hwEvt_mono (j : Nat) (hr : off ∉ reportRegs [blk]) (hj : j < 32)
    (h : s.bit off ⟨j, 1⟩ = true) : ((s.hwSet off i).setEvt blk n).bit off ⟨j, 1⟩ = true := by
  by_cases e : j = i
  · exact e ▸ bit_hwEvt_same s off j blk n hr hj
  · unfold State.bit
    rw [fld_hwEvt_field _ _ _ _ _ _ hr (by simp only; omega)]
    exact h
end

/-- A frame with a flag set. -/
theorem Frame.hwEvt {s t : State} {l blks : List Nat} {off i blk n : Nat} (h : Frame s t l blks) (ho : off ∈ l)
    (hb : blk ∈ blks) : Frame s ((t.hwSet off i).setEvt blk n) l blks := by
  refine h.trans ⟨hwEvt_quiet _ _ _ _ _, fun o hm => ?_⟩
  simp only [List.mem_append, not_or] at hm
  have hr := (notMem_reportRegs _ _).1 hm.2
  refine (reg_setEvt _ _ _ _ (hr.1 blk hb) hr.2.2.2).trans (reg_hwSet_other _ _ _ _ fun e => hm.1 (e ▸ ho))

end Sys2Proof.Machine

namespace Sys2Proof.Machine

/-! ### Registers and state of an encoder input -/

section
variable (s : State) (q : Nat)

theorem qe_regs_ne : QE_STAT q ≠ QE_FLAG q ∧ QE_STAT q ≠ QE_COUNT q ∧ QE_STAT q ≠ QE_SPEED q ∧
    QE_COUNT q ≠ QE_STAT q ∧ QE_COUNT q ≠ QE_FLAG q ∧ QE_COUNT q ≠ QE_SPEED q ∧ QE_FLAG q ≠ QE_STAT q ∧
    QE_FLAG q ≠ QE_SPEED q ∧ QE_FLAG q ≠ QE_COUNT q ∧ QE_CFG q ≠ QE_STAT q ∧ QE_CFG q ≠ QE_FLAG q ∧
    QE_CFG q ≠ QE_COUNT q ∧ QE_CFG q ≠ QE_SPEED q ∧ QE_SPEED q ≠ QE_STAT q ∧ QE_SPEED q ≠ QE_FLAG q ∧
    QE_SOFT_LO q ≠ QE_COUNT q ∧ QE_SOFT_LO q ≠ QE_STAT q ∧ QE_SOFT_HI q ≠ QE_COUNT q ∧
    QE_SOFT_HI q ≠ QE_STAT q := by
  unfold QE_STAT QE_FLAG QE_COUNT QE_SPEED QE_CFG QE_SOFT_LO QE_SOFT_HI
  omega

theorem qe_index_ne : QE_COUNT q ≠ QE_IDXLAT q ∧ QE_COUNT q ≠ QE_IDXDEV q ∧ QE_IDXLAT q ≠ QE_IDXDEV q ∧
    QE_IDXLAT q ≠ QE_IDXREF q ∧ QE_IDXLAT q ≠ QE_IDXCFG q ∧ QE_IDXREF q ≠ QE_IDXLAT q ∧
    QE_IDXREF q ≠ QE_IDXCFG q ∧ QE_IDXCFG q ≠ QE_IDXLAT q ∧ QE_IDXCFG q ≠ QE_IDXREF q ∧
    QE_IDXCFG q ≠ QE_IDXDEV q ∧ QE_FLAG q ≠ QE_IDXLAT q ∧ QE_FLAG q ≠ QE_IDXDEV q ∧
    QE_IDXLAT q ≠ QE_FLAG q ∧ QE_IDXDEV q ≠ QE_FLAG q ∧ QE_IDXCFG q ≠ QE_FLAG q := by
  unfold QE_COUNT QE_IDXLAT QE_IDXDEV QE_IDXREF QE_IDXCFG QE_FLAG
  omega

theorem qe_notMem (hq : q < 10) : QE_STAT q ∉ reportRegs [BLK_QE] ∧ QE_FLAG q ∉ reportRegs [BLK_QE] ∧
    QE_COUNT q ∉ reportRegs [BLK_QE] ∧ QE_CFG q ∉ reportRegs [BLK_QE] ∧ QE_SPEED q ∉ reportRegs [BLK_QE] ∧
    QE_IDXLAT q ∉ reportRegs [BLK_QE] ∧ QE_IDXDEV q ∉ reportRegs [BLK_QE] ∧ QE_IDXCFG q ∉ reportRegs [BLK_QE] := by
  refine ⟨?_, ?_, ?_, ?_, ?_, ?_, ?_, ?_⟩ <;> apply notMem_reportRegs_one 0x1400020 rfl
  · unfold QE_STAT; omega
  · unfold QE_FLAG; omega
  · unfold QE_COUNT; omega
  · unfold QE_CFG; omega
  · unfold QE_SPEED; omega
  · unfold QE_IDXLAT; omega
  · unfold QE_IDXDEV; omega
  · unfold QE_IDXCFG; omega

theorem qeAt_onQe (f : QeSt → QeSt) (p : Nat) : (s.onQe q f).qeAt p = if p = q then f (s.qeAt q) else s.qeAt p :=
  Tbl.get_upd ..

theorem qeAt_onQe_same (f : QeSt → QeSt) : (s.onQe q f).qeAt q = f (s.qeAt q) := by
  rw [qeAt_onQe, if_pos rfl]

theorem qeAt_setFld (off x : Nat) (f : Fld) : (s.setFld off f x).qeAt q = s.qeAt q := rfl

theorem qeAt_of_qe {s t : State} (h : t.qe = s.qe) (p : Nat) : t.qeAt p = s.qeAt p := by
  unfold State.qeAt
  rw [h]

end

/-! ### What a command leaves but for one input -/

section
variable {s t : State} {q : Fin 10} {l : List Nat}

theorem qeOnly_refl (s : State) (q : Fin 10) (l : List Nat) : qeOnly s s q l := ⟨Frame.refl _ _ _, fun _ _ => rfl⟩

theorem qeOnly_mono {l' : List Nat} (h : qeOnly s t q l) (hl : l ⊆ l') : qeOnly s t q l' :=
  ⟨h.1.mono hl (List.Subset.refl _), h.2⟩

theorem qeOnly_setReg {off : Nat} {v : Word} (h : qeOnly s t q l) (ho : off ∈ l) : qeOnly s (t.setReg off v) q l :=
  ⟨h.1.setReg ho, h.2⟩

theorem qeOnly_setFld {off x : Nat} {f : Fld} (h : qeOnly s t q l) (ho : off ∈ l) : qeOnly s (t.setFld off f x) q l :=
  qeOnly_setReg h ho

theorem qeOnly_onQe {f : QeSt → QeSt} (h : qeOnly s t q l) : qeOnly s (t.onQe q f) q l := by
  obtain ⟨⟨k, r⟩, o⟩ := h
  refine ⟨⟨?_, r⟩, fun p hp => ?_⟩
  · unfold Quiet at k ⊢
    conv_lhs => rw [k]
    rfl
  · rw [qeAt_onQe, if_neg hp, o p hp]

theorem qeOnly_of_frame {u : State} (h : qeOnly s t q l) (k : Frame t u l [BLK_QE]) : qeOnly s u q l := by
  have hm := k.1.qe
  refine ⟨?_, fun p hp => (qeAt_of_qe hm p).trans (h.2 p hp)⟩
  rw [hm]
  exact h.1.trans k

/-- The number of the next draw plays no part in a frame. -/
theorem qeOnly_freeIx (n : Nat) (h : qeOnly s t q l) : qeOnly { s with freeIx := n } { t with freeIx := n } q l := by
  obtain ⟨⟨k, r⟩, o⟩ := h
  refine ⟨⟨?_, r⟩, o⟩
  unfold Quiet at k ⊢
  conv_lhs => rw [k]

theorem qeOnly_qeFlag {f : Fld} (h : qeOnly s t q l) (ho : QE_FLAG q ∈ l) : qeOnly s (t.qeFlag q f) q l :=
  qeOnly_of_frame h ((Frame.refl _ _ _).hwEvt ho (by simp))

theorem qeOnly_fault {code : BitVec 16} {inst info : Nat} (h : qeOnly s t q l) :
    qeOnly s (t.fault code inst info) q l := qeOnly_of_frame h (Frame.refl _ _ _).fault

theorem qeOnly_standstill (h : qeOnly s t q l) (hs : QE_STAT q ∈ l) (hv : QE_SPEED q ∈ l) :
    qeOnly s (t.qeStandstill q) q l := qeOnly_setFld (qeOnly_setFld (qeOnly_setReg (qeOnly_onQe h) hv) hs) hs
end

/-! ### The counter -/

section
variable (s : State) (q : Nat)

theorem clampI_mem {lo hi : Int} (h : lo ≤ hi) (x : Int) : lo ≤ clampI lo hi x ∧ clampI lo hi x ≤ hi := by
  unfold clampI
  split
  · omega
  · split <;> omega

theorem clampI_of_mem {lo hi x : Int} (h1 : lo ≤ x) (h2 : x ≤ hi) : clampI lo hi x = x := by
  unfold clampI
  rw [if_neg (by omega), if_neg (by omega)]

/-- A signed number between two words is that of a word. -/
theorem toInt_ofInt_between {a b : Word} {y : Int} (h1 : a.toInt ≤ y) (h2 : y ≤ b.toInt) :
    (BitVec.ofInt 32 y).toInt = y := by
  have ha : -(2 ^ 31 : Int) ≤ a.toInt := BitVec.le_toInt a
  have hb : b.toInt < (2 ^ 31 : Int) := BitVec.toInt_lt
  exact BitVec.toInt_ofInt_eq_self (by decide) (by omega) (by omega)

/-- QE_COUNT with a value, and the limits that it shows (R365). -/
def State.countShown (s : State) (q : Nat) (y : Int) (atLo atHi : Bool) : State :=
  ((s.setReg (QE_COUNT q) (BitVec.ofInt 32 y)).setFld (QE_STAT q) QE_STAT_SATLO (b2n atLo)).setFld (QE_STAT q)
    QE_STAT_SATHI (b2n atHi)

theorem reg_countShown (y : Int) (a b : Bool) : (s.countShown q y a b).reg (QE_COUNT q) = BitVec.ofInt 32 y := by
  obtain ⟨-, -, -, hcs, -⟩ := qe_regs_ne q
  unfold State.countShown
  rw [reg_setFld_other _ _ _ _ _ hcs, reg_setFld_other _ _ _ _ _ hcs, reg_setReg_same]

theorem countShown_frame (y : Int) (a b : Bool) (blks : List Nat) :
    Frame s (s.countShown q y a b) [QE_COUNT q, QE_STAT q] blks :=
  (((Frame.refl s _ _).setReg (by simp)).setFld (by simp)).setFld (by simp)

/-- The count takes the clamped value where the limits are in order. -/
theorem setCount_eq (x : Int) (counted : Bool)
    (h : (s.reg (QE_SOFT_LO q)).toInt ≤ (s.reg (QE_SOFT_HI q)).toInt) :
    let y := clampI (s.reg (QE_SOFT_LO q)).toInt (s.reg (QE_SOFT_HI q)).toInt x
    ∃ a b, s.setCount q x counted = if counted && decide (y ≠ x)
      then ((s.countShown q y a b).qeFlag q QE_FLAG_SAT).fault 0x0507 q else s.countShown q y a b := by
  intro y
  refine ⟨decide (y = (s.reg (QE_SOFT_LO q)).toInt), decide (y = (s.reg (QE_SOFT_HI q)).toInt), ?_⟩
  have hn : ¬ (s.reg (QE_SOFT_HI q)).toInt < (s.reg (QE_SOFT_LO q)).toInt := by omega
  unfold State.setCount
  dsimp only
  rw [if_neg hn]
  rfl

/-- With SOFT_LO above SOFT_HI the count holds either limit (R368). -/
theorem setCount_eq_free (x : Int) (counted : Bool)
    (h : (s.reg (QE_SOFT_HI q)).toInt < (s.reg (QE_SOFT_LO q)).toInt) :
    let y := if Config.freeBit s.freeIx 0 then (s.reg (QE_SOFT_LO q)).toInt else (s.reg (QE_SOFT_HI q)).toInt
    let u := { s with freeIx := s.freeIx + 1 }
    ∃ a b, s.setCount q x counted = if counted && decide (y ≠ x)
      then ((u.countShown q y a b).qeFlag q QE_FLAG_SAT).fault 0x0507 q else u.countShown q y a b := by
  intro y u
  refine ⟨decide (y = (s.reg (QE_SOFT_LO q)).toInt), decide (y = (s.reg (QE_SOFT_HI q)).toInt), ?_⟩
  unfold State.setCount
  dsimp only
  rw [if_pos h]
  rfl

end

section
variable (s : State) (q : Fin 10)

/-- What a change of the count does where the limits are in order. -/
theorem setCount_counts (x : Int) (counted : Bool)
    (h : (s.reg (QE_SOFT_LO q)).toInt ≤ (s.reg (QE_SOFT_HI q)).toInt) :
    let y := clampI (s.reg (QE_SOFT_LO q)).toInt (s.reg (QE_SOFT_HI q)).toInt x
    let t := s.setCount q x counted
    (t.reg (QE_COUNT q)).toInt = y ∧ Frame s t [QE_COUNT q, QE_STAT q, QE_FLAG q] [BLK_QE] ∧
      (counted = true → y ≠ x → t.bit (QE_FLAG q) QE_FLAG_SAT = true ∧ Reported s t 0x0507 (BitVec.ofNat 8 q) 0) ∧
      (counted = false ∨ y = x → t = { s with regs := t.regs } ∧ RegsBut s t [QE_COUNT q, QE_STAT q]) := by
  obtain ⟨-, -, -, -, hcf, -⟩ := qe_regs_ne q
  obtain ⟨ms, mf, mc, -⟩ := qe_notMem q q.isLt
  intro y t
  have hy := clampI_mem h x
  have hint : (BitVec.ofInt 32 y).toInt = y := toInt_ofInt_between hy.1 hy.2
  obtain ⟨a, b, ht⟩ := setCount_eq s q x counted h
  have hf := (countShown_frame s q y a b [BLK_QE]).mono (l' := [QE_COUNT q, QE_STAT q, QE_FLAG q]) (by simp)
    (List.Subset.refl _)
  by_cases hc : counted = true ∧ y ≠ x
  · have hb : (counted && decide (clampI (s.reg (QE_SOFT_LO q)).toInt (s.reg (QE_SOFT_HI q)).toInt x ≠ x)) = true := by
      rw [hc.1]
      exact decide_eq_true hc.2
    rw [if_pos hb] at ht
    unfold t
    rw [ht]
    generalize hu : (s.countShown q y a b).qeFlag q QE_FLAG_SAT = u at *
    have hk : Frame u (u.fault 0x0507 q) [] [BLK_QE] := (Frame.refl _ _ _).fault
    refine ⟨?_, ?_, fun _ _ => ⟨?_, ?_⟩, fun hn => absurd hc (by rcases hn with hn | hn <;> simp [hn])⟩
    · rw [hk.reg (by simp) mc, ← hu]
      exact (congrArg BitVec.toInt ((reg_hwEvt_other _ _ _ _ _ hcf mc).trans (reg_countShown ..))).trans hint
    · rw [← hu]
      exact (hf.hwEvt (by simp) (by simp)).fault
    · unfold State.bit
      rw [hk.fld _ (by simp) mf, ← hu]
      exact bit_hwEvt_same _ _ _ _ _ mf (by decide)
    · refine fault_reportedFrom _ _ _ ?_
      rw [← hu]
      exact congrArg SiSt.queues (hwEvt_si _ _ _ _ _)
  · have hb : ¬ (counted && decide (clampI (s.reg (QE_SOFT_LO q)).toInt (s.reg (QE_SOFT_HI q)).toInt x ≠ x)) = true := by
      simp only [Bool.and_eq_true, decide_eq_true_eq]
      exact hc
    rw [if_neg hb] at ht
    unfold t
    rw [ht]
    exact ⟨by rw [reg_countShown]; exact hint, hf, fun h1 h2 => absurd ⟨h1, h2⟩ hc,
      fun _ => ⟨rfl, (((RegsBut.refl _ _).setReg (by simp)).setFld (by simp)).setFld (by simp)⟩⟩

end
end Sys2Proof.Machine

namespace Sys2Proof.Machine

/-! ### Edges -/

section
variable (s : State) (q : Fin 10)

/-- What a count that enters the speed leaves: the counter, the levels, and all of QE_STAT below VALID. -/
structure EdgeKeeps (s t : State) (q : Fin 10) : Prop where
  only : ∀ r l, qeOnly r s q l → QE_STAT q ∈ l → QE_SPEED q ∈ l → QE_FLAG q ∈ l → qeOnly r t q l
  stat : ∀ g : Fld, g.lo + g.w ≤ 2 → t.fld (QE_STAT q) g = s.fld (QE_STAT q) g
  count : t.reg (QE_COUNT q) = s.reg (QE_COUNT q)
  flag : s.bit (QE_FLAG q) QE_FLAG_SAT = true → t.bit (QE_FLAG q) QE_FLAG_SAT = true
  si : t.si = s.si
  lc : t.lc = s.lc
  own : (t.qeAt q).a = (s.qeAt q).a ∧ (t.qeAt q).b = (s.qeAt q).b ∧ (t.qeAt q).total = (s.qeAt q).total

theorem EdgeKeeps.refl (s : State) (q : Fin 10) : EdgeKeeps s s q :=
  ⟨fun _ _ hr _ _ _ => hr, fun _ _ => rfl, rfl, id, rfl, rfl, rfl, rfl, rfl⟩

theorem EdgeKeeps.trans {s t u : State} {q : Fin 10} (h : EdgeKeeps s t q) (k : EdgeKeeps t u q) : EdgeKeeps s u q where
  only := fun r l hr h1 h2 h3 => k.only r l (h.only r l hr h1 h2 h3) h1 h2 h3
  stat := fun g hg => (k.stat g hg).trans (h.stat g hg)
  count := k.count.trans h.count
  flag := fun hf => k.flag (h.flag hf)
  si := k.si.trans h.si
  lc := k.lc.trans h.lc
  own := ⟨k.own.1.trans h.own.1, k.own.2.1.trans h.own.2.1, k.own.2.2.trans h.own.2.2⟩

/-- The speed and VALID after an edge. -/
theorem edgeKeeps_speed (f : QeSt → QeSt) (v : Word) (n : Nat)
    (hf : (f (s.qeAt q)).a = (s.qeAt q).a ∧ (f (s.qeAt q)).b = (s.qeAt q).b ∧
      (f (s.qeAt q)).total = (s.qeAt q).total) :
    EdgeKeeps s (((s.onQe q f).setReg (QE_SPEED q) v).setFld (QE_STAT q) QE_STAT_VALID n) q := by
  obtain ⟨-, -, hss, hcs, -, hcp, hfs, hfp, -⟩ := qe_regs_ne q
  refine ⟨fun r l hr h1 h2 _ => qeOnly_setFld (qeOnly_setReg (qeOnly_onQe hr) h2) h1, fun g hg => ?_, ?_, fun h => ?_,
    rfl, rfl, ?_⟩
  · rw [fld_setFld_field _ _ _ _ _ (.inl hg), fld_setReg_other _ _ _ _ _ hss]
    rfl
  · rw [reg_setFld_other _ _ _ _ _ hcs, reg_setReg_other _ _ _ _ hcp]
    rfl
  · unfold State.bit
    rw [fld_setFld_other _ _ _ _ _ _ hfs, fld_setReg_other _ _ _ _ _ hfp]
    exact h
  · show ((s.onQe q f).qeAt q).a = _ ∧ ((s.onQe q f).qeAt q).b = _ ∧ ((s.onQe q f).qeAt q).total = _
    rw [qeAt_onQe_same]
    exact hf

theorem edgeKeeps_onQe (f : QeSt → QeSt)
    (hf : (f (s.qeAt q)).a = (s.qeAt q).a ∧ (f (s.qeAt q)).b = (s.qeAt q).b ∧
      (f (s.qeAt q)).total = (s.qeAt q).total) : EdgeKeeps s (s.onQe q f) q :=
  ⟨fun _ _ hr _ _ _ => qeOnly_onQe hr, fun _ _ => rfl, rfl, id, rfl, rfl, by rw [qeAt_onQe_same]; exact hf⟩

/-- A reversed edge is flagged. -/
theorem edgeKeeps_flag (f : Fld) : EdgeKeeps s (s.qeFlag q f) q := by
  obtain ⟨hsf, -, -, -, hcf, -⟩ := qe_regs_ne q
  obtain ⟨ms, mf, mc, -⟩ := qe_notMem q q.isLt
  have hq := hwEvt_quiet s (QE_FLAG q) f.lo BLK_QE q
  have hqe : (s.qeFlag q f).qe = s.qe := hq.qe
  refine ⟨fun r l hr _ _ h3 => qeOnly_qeFlag hr h3, fun g _ => fld_hwEvt_other _ _ _ _ _ _ hsf ms,
    reg_hwEvt_other _ _ _ _ _ hcf mc, fun h => bit_hwEvt_mono _ _ _ _ _ 3 mf (by decide) h, hwEvt_si _ _ _ _ _, hq.lc, ?_⟩
  rw [qeAt_of_qe hqe]
  exact ⟨rfl, rfl, rfl⟩

/-- R367: an edge shows its direction and ends standstill. -/
theorem edge_shows (forward : Bool) :
    let t := s.edge q forward
    t.bit (QE_STAT q) QE_STAT_DIR = forward ∧ t.bit (QE_STAT q) QE_STAT_STILL = false ∧
      t.reg (QE_COUNT q) = s.reg (QE_COUNT q) ∧
      (s.bit (QE_FLAG q) QE_FLAG_SAT = true → t.bit (QE_FLAG q) QE_FLAG_SAT = true) ∧ t.si = s.si ∧ t.lc = s.lc ∧
      ((t.qeAt q).a = (s.qeAt q).a ∧ (t.qeAt q).b = (s.qeAt q).b ∧ (t.qeAt q).total = (s.qeAt q).total) ∧
      ∀ r l, qeOnly r s q l → QE_STAT q ∈ l → QE_SPEED q ∈ l → QE_FLAG q ∈ l → qeOnly r t q l := by
  obtain ⟨-, -, -, hcs, -, -, hfs, -⟩ := qe_regs_ne q
  intro t
  generalize hu : ((s.onQe q fun x => { x with last := some forward }).setFld (QE_STAT q) QE_STAT_DIR
    (b2n forward)).setFld (QE_STAT q) QE_STAT_STILL 0 = u
  have hdir : u.bit (QE_STAT q) QE_STAT_DIR = forward := by
    rw [← hu]
    unfold State.bit
    rw [fld_setFld_field _ _ _ _ _ (by decide)]
    exact bit_setFld_same _ _ _ _ rfl (by decide)
  have hstill : u.bit (QE_STAT q) QE_STAT_STILL = false := by
    rw [← hu]
    exact bit_setFld_same _ (QE_STAT q) QE_STAT_STILL false rfl (by decide)
  have hreg : ∀ off, off ≠ QE_STAT q → u.reg off = s.reg off := fun off ho => by
    rw [← hu, reg_setFld_other _ _ _ _ _ ho, reg_setFld_other _ _ _ _ _ ho]
    rfl
  have hown : (u.qeAt q).a = (s.qeAt q).a ∧ (u.qeAt q).b = (s.qeAt q).b ∧ (u.qeAt q).total = (s.qeAt q).total := by
    have e : u.qeAt q = (s.onQe q fun x => { x with last := some forward }).qeAt q := by
      rw [← hu]
      rfl
    rw [e, qeAt_onQe_same]
    exact ⟨rfl, rfl, rfl⟩
  have honly : ∀ r l, qeOnly r s q l → QE_STAT q ∈ l → qeOnly r u q l := fun r l hr h1 =>
    hu ▸ qeOnly_setFld (qeOnly_setFld (qeOnly_onQe hr) h1) h1
  have hsi : u.si = s.si ∧ u.lc = s.lc := by
    rw [← hu]
    exact ⟨rfl, rfl⟩
  have key : EdgeKeeps u t q := by
    unfold t State.edge
    extract_lets x now still turned s1 s2 s3 alone sp near kept run
    have h3 : EdgeKeeps u s3 q := by
      have e : s2 = u := hu
      unfold s3
      rw [e]
      split
      · exact edgeKeeps_flag u q _
      · exact EdgeKeeps.refl u q
    clear_value s3 sp
    refine h3.trans ?_
    split
    · exact edgeKeeps_speed s3 q _ _ _ ⟨rfl, rfl, rfl⟩
    · rcases sp with _ | ⟨n, d⟩
      · exact edgeKeeps_onQe s3 q _ ⟨rfl, rfl, rfl⟩
      · exact edgeKeeps_speed s3 q _ _ _ ⟨rfl, rfl, rfl⟩
  exact ⟨(congrArg (· != 0) (key.stat _ (by decide))).trans hdir, (congrArg (· != 0) (key.stat _ (by decide))).trans hstill,
    key.count.trans (hreg _ hcs), fun h => key.flag (by unfold State.bit State.fld; rw [hreg _ hfs]; exact h),
    key.si.trans hsi.1, key.lc.trans hsi.2,
    ⟨key.own.1.trans hown.1, key.own.2.1.trans hown.2.1, key.own.2.2.trans hown.2.2⟩,
    fun r l hr h1 h2 h3 => key.only r l (honly r l hr h1) h1 h2 h3⟩

/-! ### Counts -/

/-- R362: the levels that an input holds, or takes. -/
theorem takeLevels_takes :
    let t := s.takeLevels q
    (t.qeAt q = { s.qeAt q with held := true, a := (qeLevels s q).1, b := (qeLevels s q).2 }) ∧
      t.regs = s.regs ∧ t.si = s.si ∧ t.lc = s.lc ∧ t.now = s.now ∧
      qeOnly { s with freeIx := if (s.qeAt q).held then s.freeIx else s.freeIx + 1 } t q [] := by
  intro t
  unfold t State.takeLevels qeLevels
  cases hh : (s.qeAt q).held with
  | true =>
    rw [if_pos rfl, if_pos rfl, if_pos rfl, ← hh]
    exact ⟨rfl, rfl, rfl, rfl, rfl, qeOnly_refl _ _ _⟩
  | false =>
    rw [if_neg Bool.false_ne_true, if_neg Bool.false_ne_true, if_neg Bool.false_ne_true]
    refine ⟨qeAt_onQe_same .., rfl, rfl, rfl, rfl, qeOnly_onQe (qeOnly_refl _ _ _)⟩

theorem stepForward_eq (a b lineB : Bool) : stepForward a b lineB = if lineB then a != b else a == b := by
  revert a b lineB
  decide

/-- The direction of a change of a line. -/
def qeForward (s : State) (q : Fin 10) (lineB : Bool) : Bool :=
  (if lineB then (qeLevels s q).1 != (qeLevels s q).2 else (qeLevels s q).1 == (qeLevels s q).2) !=
    (s.bit (QE_CFG q) QE_CFG_SWAP != s.bit (QE_CFG q) QE_CFG_INV)

/-- An input that is on, with a change of a line taken and not yet counted. -/
theorem acceptedCount_eq (lineB : Bool) (hon : s.qeOn q = true) :
    let d : Int := if qeForward s q lineB then 1 else -1
    ∃ u, exec (.acceptedCount q lineB) s = .next
        (let t := (u.setCount q ((s.reg (QE_COUNT q)).toInt + d) true).edge q (qeForward s q lineB)
         if t.lcReads q then t.lcMove d 0 else t) ∧
      u.regs = s.regs ∧ u.si = s.si ∧ u.lc = s.lc ∧
      (u.qeAt q).a = ((qeLevels s q).1 != !lineB) ∧ (u.qeAt q).b = ((qeLevels s q).2 != lineB) ∧
      (u.qeAt q).total = (s.qeAt q).total + d ∧
      qeOnly { s with freeIx := if (s.qeAt q).held then s.freeIx else s.freeIx + 1 } u q [] := by
  obtain ⟨h1, h2, h3, h4, -, h6⟩ := takeLevels_takes s q
  intro d
  show ∃ u, execAcceptedCount q lineB s = _ ∧ _
  unfold execAcceptedCount
  rw [if_neg (by simp [hon])]
  extract_lets t0 x before plain forward d' u t
  have hreg : ∀ off, t0.reg off = s.reg off := reg_of_regs h2
  have hf : forward = qeForward s q lineB := by
    unfold forward plain qeForward x State.bit State.fld
    rw [stepForward_eq, h1, hreg]
  have hd : d' = d := by
    unfold d' d
    rw [hf]
  have hu : u.qeAt q = { x with
      a := if lineB then x.a else !x.a, b := if lineB then !x.b else x.b, total := x.total + d',
      counted := some (t0.now, before + d') } := qeAt_onQe_same ..
  have hx : x = { s.qeAt q with held := true, a := (qeLevels s q).1, b := (qeLevels s q).2 } := h1
  refine ⟨u, ?_, h2, h3, h4, ?_, ?_, ?_, qeOnly_onQe h6⟩
  · have ht : t = (u.setCount q ((s.reg (QE_COUNT q)).toInt + d) true).edge q (qeForward s q lineB) := by
      unfold t
      rw [show u.reg (QE_COUNT q) = s.reg (QE_COUNT q) from hreg _, hf, hd]
    rw [ht, hd]
  · rw [hu, hx]
    cases lineB <;> simp
  · rw [hu, hx]
    cases lineB <;> simp
  · rw [hu, hx, hd]

/-- The line clock's motion leaves the encoder inputs and the registers of QE. -/
theorem lcMove_leaves (s : State) (d : Int) (tap : Nat) (q : Fin 10) :
    (s.lcMove d tap).reg (QE_COUNT q) = s.reg (QE_COUNT q) ∧ (s.lcMove d tap).qe = s.qe := by
  have hne : QE_COUNT q ≠ LC_STAT ∧ QE_COUNT q ∉ reportRegs [BLK_LC] := by
    refine ⟨?_, notMem_reportRegs_one 0x800050 rfl ?_⟩
    · unfold QE_COUNT LC_STAT
      omega
    · unfold QE_COUNT
      omega
  have htrack : ∀ r : State, r.trackReverse.reg (QE_COUNT q) = r.reg (QE_COUNT q) ∧ r.trackReverse.qe = r.qe := by
    intro r
    unfold State.trackReverse
    dsimp only
    split
    · exact ⟨reg_setFld_other _ _ _ _ _ hne.1, rfl⟩
    · split
      · exact ⟨(reg_setEvt_of_notMem _ _ _ _ hne.2).trans (reg_setFld_other _ _ _ _ _ hne.1), (setEvt_quiet _ _ _).qe⟩
      · exact ⟨rfl, rfl⟩
  have hplace : ∀ (r : State) t fwd, (r.placeNext t tap fwd).regs = r.regs ∧ (r.placeNext t tap fwd).qe = r.qe := by
    intro r t fwd
    unfold State.placeNext
    extract_lets kept due
    clear_value kept due
    cases kept
    · rw [if_neg Bool.false_ne_true]
      exact ⟨rfl, rfl⟩
    · rw [if_pos rfl]
      exact ⟨rfl, rfl⟩
  unfold State.lcMove
  dsimp only
  split
  · exact ⟨rfl, rfl⟩
  · rw [reg_of_regs (hplace _ _ _).1, (hplace _ _ _).2, (htrack _).1, (htrack _).2]
    exact ⟨rfl, rfl⟩

/-- R362, R365: an accepted count. -/
theorem acceptedCount_counts (lineB : Bool) (hon : s.qeOn q = true) :
    let x := s.qeAt q
    let a := (qeLevels s q).1
    let b := (qeLevels s q).2
    let plain := if lineB then a != b else a == b
    let forward := plain != (s.bit (QE_CFG q) QE_CFG_SWAP != s.bit (QE_CFG q) QE_CFG_INV)
    let d : Int := if forward then 1 else -1
    let lo := (s.reg (QE_SOFT_LO q)).toInt
    let hi := (s.reg (QE_SOFT_HI q)).toInt
    let c := (s.reg (QE_COUNT q)).toInt
    lo ≤ c → c ≤ hi →
    ∃ t u, exec (.acceptedCount q lineB) s = .next u ∧ u = (if s.lcReads q then t.lcMove d 0 else t) ∧
      u.reg (QE_COUNT q) = t.reg (QE_COUNT q) ∧ u.qe = t.qe ∧
      qeOnly { s with freeIx := if x.held then s.freeIx else s.freeIx + 1 } t q
        [QE_COUNT q, QE_STAT q, QE_SPEED q, QE_FLAG q] ∧
      (t.qeAt q).a = (a != !lineB) ∧ (t.qeAt q).b = (b != lineB) ∧ (t.qeAt q).total = x.total + d ∧
      t.bit (QE_STAT q) QE_STAT_DIR = forward ∧ t.bit (QE_STAT q) QE_STAT_STILL = false ∧
      (lo ≤ c + d → c + d ≤ hi → (t.reg (QE_COUNT q)).toInt = c + d) ∧
      (c + d < lo ∨ hi < c + d →
        (t.reg (QE_COUNT q)).toInt = c ∧ t.bit (QE_FLAG q) QE_FLAG_SAT = true ∧
          Reported s t 0x0507 (BitVec.ofNat 8 q) 0) := by
  intro x a b plain forward d lo hi c hlo hhi
  obtain ⟨u, hexec, hr, hsi, hlc, ha, hb, ht, honly⟩ := acceptedCount_eq s q lineB hon
  have hd : d = 1 ∨ d = -1 := by
    unfold d
    split <;> simp
  have hreg : ∀ off, u.reg off = s.reg off := reg_of_regs hr
  have hord : (u.reg (QE_SOFT_LO q)).toInt ≤ (u.reg (QE_SOFT_HI q)).toInt := by
    rw [hreg, hreg]
    exact Int.le_trans hlo hhi
  obtain ⟨k1, k2, k3, -⟩ := setCount_counts u q (c + d) true hord
  rw [hreg, hreg] at k1 k3
  have hrun : exec (.acceptedCount q lineB) s = .next
      (if ((u.setCount q (c + d) true).edge q forward).lcReads q then
        ((u.setCount q (c + d) true).edge q forward).lcMove d 0
      else (u.setCount q (c + d) true).edge q forward) := hexec
  clear hexec
  generalize u.setCount q (c + d) true = w at *
  obtain ⟨e1, e2, e3, e4, e5, e6, ⟨e7, e8, e9⟩, e10⟩ := edge_shows w q forward
  have hwq : w.qeAt q = u.qeAt q := qeAt_of_qe k2.1.qe q
  have hfeeds : (w.edge q forward).lcReads q = s.lcReads q := by
    unfold State.lcReads State.lcSrc State.lcUnit
    rw [e6, k2.1.lc, hlc]
  have hmove := lcMove_leaves (w.edge q forward) d 0 q
  refine ⟨w.edge q forward, _, hrun, ?_, ?_, ?_, ?_, ?_, ?_, ?_, e1, e2, ?_, ?_⟩
  · show (if (w.edge q forward).lcReads q then (w.edge q forward).lcMove d 0 else w.edge q forward) = _
    rw [hfeeds]
  · show State.reg (if (w.edge q forward).lcReads q then (w.edge q forward).lcMove d 0 else w.edge q forward) _ = _
    split
    · exact hmove.1
    · rfl
  · show State.qe (if (w.edge q forward).lcReads q then (w.edge q forward).lcMove d 0 else w.edge q forward) = _
    split
    · exact hmove.2
    · rfl
  · exact e10 _ _ (qeOnly_of_frame (qeOnly_mono honly (by simp)) (k2.mono (by simp) (List.Subset.refl _))) (by simp)
      (by simp) (by simp)
  · rw [e7, hwq, ha]
  · rw [e8, hwq, hb]
  · rw [e9, hwq, ht]
    rfl
  · intro h1 h2
    rw [e3, k1]
    exact clampI_of_mem h1 h2
  · intro hcut
    have hy : clampI lo hi (c + d) = c := by
      unfold clampI
      rcases hd with hd | hd
      · rw [if_neg (by omega), if_pos (by omega)]
        omega
      · rw [if_pos (by omega)]
        omega
    obtain ⟨j1, j2⟩ := k3 rfl (by
      show clampI lo hi (c + d) ≠ c + d
      omega)
    exact ⟨by rw [e3, k1]; exact hy, e4 j1, (j2.of_si (by rw [e5]) (by rw [e5])).from (by rw [hsi])⟩

/-- R368: a count with SOFT_LO above SOFT_HI leaves one of them. -/
theorem acceptedCount_free (lineB : Bool) (hon : s.qeOn q = true) (hl : s.lcReads q = false)
    (h : (s.reg (QE_SOFT_HI q)).toInt < (s.reg (QE_SOFT_LO q)).toInt) :
    ∃ t, exec (.acceptedCount q lineB) s = .next t ∧
        (t.reg (QE_COUNT q) = s.reg (QE_SOFT_LO q) ∨ t.reg (QE_COUNT q) = s.reg (QE_SOFT_HI q)) ∧
        qeOnly { s with freeIx := t.freeIx } t q [QE_COUNT q, QE_STAT q, QE_SPEED q, QE_FLAG q] := by
  obtain ⟨-, -, -, -, hcf, -⟩ := qe_regs_ne q
  have mc := (qe_notMem q q.isLt).2.2.1
  obtain ⟨u, hexec, hr, -, hlc, -, -, -, honly⟩ := acceptedCount_eq s q lineB hon
  have hreg : ∀ off, u.reg off = s.reg off := reg_of_regs hr
  generalize hd : (if qeForward s q lineB then (1 : Int) else -1) = d at *
  obtain ⟨a, b, hc⟩ := setCount_eq_free u q ((s.reg (QE_COUNT q)).toInt + d) true (by rw [hreg, hreg]; exact h)
  generalize hy : (if Config.freeBit u.freeIx 0 then (u.reg (QE_SOFT_LO q)).toInt
    else (u.reg (QE_SOFT_HI q)).toInt) = y at hc
  generalize hv : ({ u with freeIx := u.freeIx + 1 } : State) = v at hc
  have hyw : BitVec.ofInt 32 y = s.reg (QE_SOFT_LO q) ∨ BitVec.ofInt 32 y = s.reg (QE_SOFT_HI q) := by
    rw [← hy, hreg, hreg]
    split
    · exact .inl (BitVec.ofInt_toInt ..)
    · exact .inr (BitVec.ofInt_toInt ..)
  have hf := (countShown_frame v q y a b [BLK_QE]).mono (l' := [QE_COUNT q, QE_STAT q, QE_FLAG q]) (by simp)
    (List.Subset.refl _)
  have hshown : ∀ w, w = (if true && decide (y ≠ (s.reg (QE_COUNT q)).toInt + d)
      then ((v.countShown q y a b).qeFlag q QE_FLAG_SAT).fault 0x0507 q else v.countShown q y a b) →
      w.reg (QE_COUNT q) = BitVec.ofInt 32 y ∧ Frame v w [QE_COUNT q, QE_STAT q, QE_FLAG q] [BLK_QE] := by
    rintro w rfl
    split
    · have hk : Frame ((v.countShown q y a b).qeFlag q QE_FLAG_SAT)
          (((v.countShown q y a b).qeFlag q QE_FLAG_SAT).fault 0x0507 q) [] [BLK_QE] := (Frame.refl _ _ _).fault
      exact ⟨(hk.reg (by simp) mc).trans ((reg_hwEvt_other _ _ _ _ _ hcf mc).trans (reg_countShown ..)),
        (hf.hwEvt (by simp) (by simp)).fault⟩
    · exact ⟨reg_countShown .., hf⟩
  obtain ⟨hcount, hframe⟩ := hshown _ hc
  generalize u.setCount q ((s.reg (QE_COUNT q)).toInt + d) true = w at *
  obtain ⟨-, -, e3, -, -, e6, -, e10⟩ := edge_shows w q (qeForward s q lineB)
  have hvlc : v.lc = s.lc := by
    rw [← hv]
    exact hlc
  have hfeeds : (w.edge q (qeForward s q lineB)).lcReads q = false := by
    rw [← hl]
    unfold State.lcReads State.lcSrc State.lcUnit
    rw [e6, hframe.1.lc, hvlc]
  have hvonly : qeOnly { s with freeIx := v.freeIx } v q [] := by
    have k := qeOnly_freeIx (u.freeIx + 1) honly
    rwa [hv, show u.freeIx + 1 = v.freeIx from hv ▸ rfl] at k
  have hall := e10 _ [QE_COUNT q, QE_STAT q, QE_SPEED q, QE_FLAG q] (qeOnly_of_frame (qeOnly_mono hvonly (by simp))
    (hframe.mono (by simp) (List.Subset.refl _))) (by simp) (by simp) (by simp)
  refine ⟨_, hexec.trans (congrArg Host.Outcome.next (if_neg (by rw [hfeeds]; exact Bool.false_ne_true))), ?_, ?_⟩
  · rw [e3, hcount]
    exact hyw
  · have hfx : (w.edge q (qeForward s q lineB)).freeIx = v.freeIx := hall.1.1.freeIx
    rw [hfx]
    exact hall

/-! ### The writes of QE_CFG and QE_COUNT -/

theorem regDef_QE_CFG : ∃ d, regDef? (QE_CFG q) = some d ∧ d.rw = 0xDF ∧ d.rwl = 0x20 ∧ d.w1c = 0 := by
  revert q
  decide

/-- EN takes the value written. -/
theorem qeCfg_typed (v : Word) :
    (s.typedWrite (QE_CFG q) v).qeOn q = decide (fldGet QE_CFG_EN v = 1) ∧
      Frame s (s.typedWrite (QE_CFG q) v) [QE_CFG q] [BLK_QE] := by
  obtain ⟨d, hd, hrw, hl, hc⟩ := regDef_QE_CFG q
  have mc := (qe_notMem q q.isLt).2.2.2.1
  unfold State.typedWrite
  rw [hd]
  dsimp only
  rw [hrw, hl, hc]
  have hbit : ∀ (m x : Word), m.getLsbD 0 = true →
      (((x &&& ~~~m) ||| (v &&& m)) &&& ~~~(v &&& 0 &&& ~~~(s.top.fresh.get 0 (QE_CFG q)))).getLsbD 0 =
        decide (fldGet QE_CFG_EN v = 1) := by
    intro m x hm
    rw [show QE_CFG_EN = ⟨0, 1⟩ from rfl, fldGet_one]
    simp only [BitVec.getLsbD_and, BitVec.getLsbD_or, BitVec.getLsbD_not, hm, Bool.not_true, Bool.and_false,
      Bool.and_true, Bool.false_or]
    cases v.getLsbD 0 <;> rfl
  have hm : BitVec.getLsbD (if s.bit PROT_LOCK PROT_LOCK_LOCK then (0xDF : Word) else 0xDF ||| 0x20) 0 = true := by
    split <;> rfl
  generalize hn : ((s.reg (QE_CFG q) &&& ~~~(if s.bit PROT_LOCK PROT_LOCK_LOCK then (0xDF : Word) else 0xDF ||| 0x20)) |||
    (v &&& (if s.bit PROT_LOCK PROT_LOCK_LOCK then (0xDF : Word) else 0xDF ||| 0x20))) &&&
      ~~~(v &&& 0 &&& ~~~(s.top.fresh.get 0 (QE_CFG q))) = new
  have hnew : new.getLsbD 0 = decide (fldGet QE_CFG_EN v = 1) := hn ▸ hbit _ _ hm
  have hon : (s.setReg (QE_CFG q) new).qeOn q = decide (fldGet QE_CFG_EN v = 1) := by
    unfold State.qeOn
    rw [show QE_CFG_EN = ⟨0, 1⟩ from rfl, bit_one, reg_setReg_same]
    exact hnew
  have hf : Frame s (s.setReg (QE_CFG q) new) [QE_CFG q] [BLK_QE] := (Frame.refl _ _ _).setReg (by simp)
  split
  · have hk : Frame (s.setReg (QE_CFG q) new) ((s.setReg (QE_CFG q) new).fault 0x00C2 0xFF (regAddr (QE_CFG q))) []
        [BLK_QE] := (Frame.refl _ _ _).fault
    refine ⟨?_, hf.fault⟩
    unfold State.qeOn State.bit at hon ⊢
    rw [hk.fld _ (by simp) mc]
    exact hon
  · exact ⟨hon, hf⟩

/-- R362: the write of QE_CFG. -/
theorem qeCfgWrite_enables (v : Word) :
    (s.qeOn q = true → fldGet QE_CFG_EN v = 1 →
      ∃ t, exec (.qeEnable q v) s = .next t ∧ t.qeOn q = true ∧
        t.qeAt q = { s.qeAt q with seen := false } ∧ qeOnly s t q [QE_CFG q]) ∧
    (s.qeOn q = false → fldGet QE_CFG_EN v = 0 →
      ∃ t, exec (.qeEnable q v) s = .next t ∧ t.qeOn q = false ∧ t.qe = s.qe ∧ qeOnly s t q [QE_CFG q]) ∧
    (s.qeOn q = false → fldGet QE_CFG_EN v = 1 →
      ∃ t, exec (.qeEnable q v) s = .next t ∧ t.qeOn q = true ∧
        t.qeAt q = { s.qeAt q with seen := false, held := false, last := none, edges := [] } ∧
        t.bit (QE_STAT q) QE_STAT_DIR = false ∧ qeOnly s t q [QE_CFG q, QE_STAT q]) ∧
    (s.qeOn q = true → fldGet QE_CFG_EN v = 0 →
      ∃ t, exec (.qeEnable q v) s = .next t ∧ t.qeOn q = false ∧ t.reg (QE_SPEED q) = 0 ∧
        t.bit (QE_STAT q) QE_STAT_STILL = true ∧ t.bit (QE_STAT q) QE_STAT_VALID = false ∧
        qeOnly s t q [QE_CFG q, QE_SPEED q, QE_STAT q]) := by
  obtain ⟨-, -, -, -, -, -, -, -, -, hgs, -, -, hgp, hps, -⟩ := qe_regs_ne q
  obtain ⟨hon, hf⟩ := qeCfg_typed s q v
  have honly : qeOnly s (s.typedWrite (QE_CFG q) v) q [QE_CFG q] := qeOnly_of_frame (qeOnly_refl _ _ _) hf
  have hqe : (s.typedWrite (QE_CFG q) v).qe = s.qe := hf.1.qe
  have hat := qeAt_of_qe hqe q
  have hexec : exec (.qeEnable q v) s = .next (if (s.typedWrite (QE_CFG q) v).qeOn q then
      (if s.qeOn q then (s.typedWrite (QE_CFG q) v).onQe q fun x => { x with seen := false }
       else (((s.typedWrite (QE_CFG q) v).onQe q fun x => { x with seen := false }).onQe q
        fun x => { x with held := false, last := none, edges := [] }).setFld (QE_STAT q) QE_STAT_DIR 0)
      else if s.qeOn q then (s.typedWrite (QE_CFG q) v).qeStandstill q else s.typedWrite (QE_CFG q) v) := rfl
  rw [hexec]
  generalize s.typedWrite (QE_CFG q) v = u at *
  refine ⟨fun h1 h2 => ?_, fun h1 h2 => ?_, fun h1 h2 => ?_, fun h1 h2 => ?_⟩
  · rw [decide_eq_true h2] at hon
    rw [hon, h1, if_pos rfl, if_pos rfl]
    exact ⟨_, rfl, hon, by rw [qeAt_onQe_same, hat], qeOnly_onQe honly⟩
  · rw [decide_eq_false (by omega)] at hon
    rw [hon, h1, if_neg Bool.false_ne_true, if_neg Bool.false_ne_true]
    exact ⟨_, rfl, hon, hqe, honly⟩
  · rw [decide_eq_true h2] at hon
    rw [hon, h1, if_pos rfl, if_neg Bool.false_ne_true]
    refine ⟨_, rfl, ?_, ?_, bit_setFld_same _ (QE_STAT q) QE_STAT_DIR false rfl (by decide),
      qeOnly_setFld (qeOnly_onQe (qeOnly_onQe (qeOnly_mono honly (by simp)))) (by simp)⟩
    · exact (congrArg (· != 0) (fld_setFld_other _ _ _ _ _ _ hgs)).trans hon
    · rw [qeAt_setFld, qeAt_onQe_same, qeAt_onQe_same, hat]
  · rw [decide_eq_false (by omega)] at hon
    rw [hon, h1, if_neg Bool.false_ne_true, if_pos rfl]
    refine ⟨_, rfl, ?_, ?_, ?_, bit_setFld_same _ (QE_STAT q) QE_STAT_VALID false rfl (by decide),
      qeOnly_standstill (qeOnly_mono honly (by simp)) (by simp) (by simp)⟩
    · refine (congrArg (· != 0) ?_).trans hon
      unfold State.qeStandstill
      dsimp only
      rw [fld_setFld_other _ _ _ _ _ _ hgs, fld_setFld_other _ _ _ _ _ _ hgs, fld_setReg_other _ _ _ _ _ hgp]
      rfl
    · unfold State.qeStandstill
      dsimp only
      rw [reg_setFld_other _ _ _ _ _ hps, reg_setFld_other _ _ _ _ _ hps, reg_setReg_same]
    · refine (congrArg (· != 0) (fld_setFld_field _ _ _ _ _ (by decide))).trans ?_
      exact bit_setFld_same _ (QE_STAT q) QE_STAT_STILL true rfl (by decide)

/-- R365: a write of QE_COUNT, and a count of its tick after it. -/
theorem qeCountWrite_counts (v : Word) :
    let cut := clampI (s.reg (QE_SOFT_LO q)).toInt (s.reg (QE_SOFT_HI q)).toInt
    (s.reg (QE_SOFT_LO q)).toInt ≤ (s.reg (QE_SOFT_HI q)).toInt →
      ∃ t, exec (.qeCountWrite q v) s = .next t ∧ t.qe = s.qe ∧
        qeOnly s t q [QE_COUNT q, QE_STAT q, QE_FLAG q] ∧
        ((∀ n, (s.qeAt q).counted ≠ some (s.now, n)) → (t.reg (QE_COUNT q)).toInt = cut v.toInt ∧
          t = { s with regs := t.regs } ∧ RegsBut s t [QE_COUNT q, QE_STAT q]) ∧
        (∀ n, (s.qeAt q).counted = some (s.now, n) →
          (t.reg (QE_COUNT q)).toInt = cut (cut v.toInt + n)) := by
  obtain ⟨-, -, -, -, -, -, -, -, -, -, -, -, -, -, -, hlc, hls, hhc, hhs⟩ := qe_regs_ne q
  intro cut hord
  obtain ⟨k1, k2, -, k4⟩ := setCount_counts s q v.toInt false hord
  obtain ⟨j1, j2⟩ := k4 (.inl rfl)
  have hnow : (s.setCount q v.toInt false).now = s.now := k2.1.now
  have hat : (s.setCount q v.toInt false).qeAt q = s.qeAt q := qeAt_of_qe k2.1.qe q
  have hlo : (s.setCount q v.toInt false).reg (QE_SOFT_LO q) = s.reg (QE_SOFT_LO q) := j2 _ (by simp [hlc, hls])
  have hhi : (s.setCount q v.toInt false).reg (QE_SOFT_HI q) = s.reg (QE_SOFT_HI q) := j2 _ (by simp [hhc, hhs])
  have hexec : exec (.qeCountWrite q v) s = .next (match ((s.setCount q v.toInt false).qeAt q).counted with
    | some (t, n) => if t = (s.setCount q v.toInt false).now then (s.setCount q v.toInt false).setCount q
        (((s.setCount q v.toInt false).reg (QE_COUNT q)).toInt + n) true else s.setCount q v.toInt false
    | none => s.setCount q v.toInt false) := rfl
  rw [hexec, hat, hnow]
  generalize s.setCount q v.toInt false = u at *
  have hu : qeOnly s u q [QE_COUNT q, QE_STAT q, QE_FLAG q] := qeOnly_of_frame (qeOnly_refl _ _ _) k2
  cases hc : (s.qeAt q).counted with
  | none => exact ⟨_, rfl, k2.1.qe, hu, fun _ => ⟨k1, j1, j2⟩, fun n hn => nomatch hn⟩
  | some tn =>
    obtain ⟨t, n⟩ := tn
    dsimp only
    by_cases ht : t = s.now
    · rw [if_pos ht, k1]
      obtain ⟨m1, m2, -⟩ := setCount_counts u q (cut v.toInt + n) true (by rw [hlo, hhi]; exact hord)
      rw [hlo, hhi] at m1
      refine ⟨_, rfl, m2.1.qe.trans k2.1.qe, qeOnly_of_frame hu m2, fun hn => absurd (by rw [ht]) (hn n),
        fun m hm => ?_⟩
      obtain rfl : n = m := by
        injection hm with hm
        injection hm
      exact m1
    · rw [if_neg ht]
      refine ⟨_, rfl, k2.1.qe, hu, fun _ => ⟨k1, j1, j2⟩, fun m hm => absurd ?_ ht⟩
      injection hm with hm
      injection hm

end

theorem encodersCount_holds : encodersCount :=
  ⟨fun s q lineB hon => acceptedCount_counts s q lineB hon,
    fun s q lineB => ⟨fun h => congrArg Host.Outcome.next (if_pos (by simp [h])),
      fun hon hl h => acceptedCount_free s q lineB hon hl h⟩,
    fun s q v => by
      obtain ⟨h1, h2, h3, h4⟩ := qeCfgWrite_enables s q v
      exact ⟨h1, h2, h3, h4, qeCountWrite_counts s q v⟩⟩

/-! ### Checks -/

section
variable (s : State) (q : Fin 10)

/-- A flag that stands, whatever is reported after it. -/
theorem flag_kept {s t : State} {q : Fin 10} {blks : List Nat} {i : Nat} (h : Frame s t [] blks)
    (hb : QE_FLAG q ∉ reportRegs blks) (hs : s.bit (QE_FLAG q) ⟨i, 1⟩ = true) : t.bit (QE_FLAG q) ⟨i, 1⟩ = true := by
  unfold State.bit
  rw [h.fld _ (by simp) hb]
  exact hs

/-- The state of an input in which both lines have changed. -/
def qeIllegal (s : State) (q : Fin 10) : State :=
  ((s.takeLevels q).onQe q fun x => { x with a := !x.a, b := !x.b }).qeFlag q QE_FLAG_ILLEGAL

theorem qeIllegal_flags :
    let u := qeIllegal s q
    u.bit (QE_FLAG q) QE_FLAG_ILLEGAL = true ∧ EventSet u BLK_QE q ∧ u.si = s.si ∧ u.now = s.now ∧
      (u.qeAt q).a = !(qeLevels s q).1 ∧ (u.qeAt q).b = !(qeLevels s q).2 ∧ (u.qeAt q).total = (s.qeAt q).total ∧
      qeOnly { s with freeIx := u.freeIx } u q [QE_FLAG q] := by
  obtain ⟨h1, h2, h3, -, h5, h6⟩ := takeLevels_takes s q
  have mf := (qe_notMem q q.isLt).2.1
  intro u
  have hq := hwEvt_quiet ((s.takeLevels q).onQe q fun x => { x with a := !x.a, b := !x.b }) (QE_FLAG q)
    QE_FLAG_ILLEGAL.lo BLK_QE q
  have hat : u.qeAt q = { s.qeAt q with held := true, a := !(qeLevels s q).1, b := !(qeLevels s q).2 } :=
    (qeAt_of_qe hq.qe q).trans ((qeAt_onQe_same ..).trans (by rw [h1]))
  have honly := qeOnly_qeFlag (f := QE_FLAG_ILLEGAL) (qeOnly_onQe (f := fun x => { x with a := !x.a, b := !x.b })
    (qeOnly_mono h6 (l' := [QE_FLAG q]) (by simp))) (by simp)
  have hfx : u.freeIx = if (s.qeAt q).held then s.freeIx else s.freeIx + 1 := honly.1.1.freeIx
  refine ⟨bit_hwEvt_same _ _ _ _ _ mf (by decide), setEvt_eventSet _ _ _ (by omega), ?_, hq.now.trans h5,
    by rw [hat], by rw [hat], by rw [hat], ?_⟩
  · exact (hwEvt_si _ _ _ _ _).trans h3
  · rw [hfx]
    exact honly

theorem exec_illegal (hon : s.qeOn q = true) : exec (.illegal q) s = .next
    (let r := (qeIllegal s q).faultCounted 0x1501 q 0 4 (100 * ticksMs)
     if r.1 then (r.2.fault 0x2502 q).qeFlag q QE_FLAG_ILL_LASTING else r.2) :=
  congrArg Host.Outcome.next (if_neg (by simp [hon]))

/-- The fault of a tick in which both lines change. -/
theorem illegal_reports :
    let r := (qeIllegal s q).faultCounted 0x1501 q 0 4 (100 * ticksMs)
    r.1 = (s.countEvent (winKey 0x1501 q) 4 (100 * ticksMs)).1 ∧ Frame (qeIllegal s q) r.2 [] [BLK_QE] ∧
      Reported s r.2 0x1501 (BitVec.ofNat 8 q) 0 := by
  obtain ⟨-, -, hsi, hnow, -⟩ := qeIllegal_flags s q
  refine ⟨?_, (Frame.refl _ _ _).faultCounted, (faultCounted_reported _ _ _ _ _ _).from (by rw [hsi])⟩
  show ((qeIllegal s q).countEvent (winKey 0x1501 q) 4 (100 * ticksMs)).1 = _
  unfold State.countEvent
  rw [hsi, hnow]

/-- R363: the first events of a window count nothing and are reported each. -/
theorem illegal_transient (hon : s.qeOn q = true)
    (h : (s.countEvent (winKey 0x1501 q) 4 (100 * ticksMs)).1 = false) :
    ∃ t, exec (.illegal q) s = .next t ∧ t.bit (QE_FLAG q) QE_FLAG_ILLEGAL = true ∧ EventSet t BLK_QE q ∧
        Reported s t 0x1501 (BitVec.ofNat 8 q) 0 ∧ (t.qeAt q).a = !(qeLevels s q).1 ∧
        (t.qeAt q).b = !(qeLevels s q).2 ∧ (t.qeAt q).total = (s.qeAt q).total ∧
        qeOnly { s with freeIx := t.freeIx } t q [QE_FLAG q] := by
  have mf := (qe_notMem q q.isLt).2.1
  obtain ⟨h1, h2, -, -, h5, h6, h7, h8⟩ := qeIllegal_flags s q
  obtain ⟨k1, k2, k3⟩ := illegal_reports s q
  have k2' : EventSet ((qeIllegal s q).faultCounted 0x1501 q 0 4 (100 * ticksMs)).2 BLK_QE q := h2.faultCounted _ _ _ _ _
  rw [exec_illegal s q hon]
  dsimp only
  rw [k1, h, if_neg Bool.false_ne_true]
  generalize ((qeIllegal s q).faultCounted 0x1501 q 0 4 (100 * ticksMs)).2 = r at *
  have hat := qeAt_of_qe k2.1.qe q
  refine ⟨_, rfl, flag_kept k2 mf h1, k2', k3, by rw [hat, h5], by rw [hat, h6], by rw [hat, h7], ?_⟩
  rw [k2.1.freeIx]
  exact qeOnly_of_frame h8 (k2.mono (by simp) (List.Subset.refl _))

/-- R363: the fourth event of a window is a lasting fault. -/
theorem illegal_lasting (hon : s.qeOn q = true)
    (h : (s.countEvent (winKey 0x1501 q) 4 (100 * ticksMs)).1 = true) :
    ∃ t, exec (.illegal q) s = .next t ∧ t.bit (QE_FLAG q) QE_FLAG_ILL_LASTING = true ∧
        ((s.si.queues.get [] BLK_QE).length < 7 →
          ∃ f ∈ t.si.queues.get [] BLK_QE, f.code = 0x2502 ∧ f.inst = BitVec.ofNat 8 q) ∧
        qeOnly { s with freeIx := t.freeIx } t q [QE_FLAG q] := by
  have mf := (qe_notMem q q.isLt).2.1
  obtain ⟨-, -, -, -, -, -, -, h8⟩ := qeIllegal_flags s q
  obtain ⟨k1, k2, k3⟩ := illegal_reports s q
  rw [exec_illegal s q hon]
  dsimp only
  rw [k1, h, if_pos rfl]
  generalize ((qeIllegal s q).faultCounted 0x1501 q 0 4 (100 * ticksMs)).2 = r at *
  have hr := qeOnly_of_frame h8 (k2.mono (by simp) (List.Subset.refl _))
  have hrep := fault_reported r 0x2502 q 0
  have hq : Frame r (r.fault 0x2502 q) [] [BLK_QE] := (Frame.refl _ _ _).fault
  generalize hu : r.fault 0x2502 q = u at *
  have hk := hwEvt_quiet u (QE_FLAG q) QE_FLAG_ILL_LASTING.lo BLK_QE q
  refine ⟨_, rfl, bit_hwEvt_same _ _ _ _ _ mf (by decide), fun h7 => ?_, ?_⟩
  · have hsi : (u.qeFlag q QE_FLAG_ILL_LASTING).si = u.si := hwEvt_si _ _ _ _ _
    rw [hsi]
    have hblk : codeBlk 0x1501 = BLK_QE ∧ codeBlk 0x2502 = BLK_QE := by decide
    unfold Reported at k3 hrep
    rw [hblk.1] at k3
    rw [hblk.2] at hrep
    dsimp only at k3 hrep
    rw [if_pos (by omega)] at k3
    obtain ⟨f, -, -, -, hf⟩ := k3
    rw [if_pos (by rw [hf, List.length_append, List.length_singleton]; omega)] at hrep
    obtain ⟨g, hg1, hg2, -, hg⟩ := hrep
    exact ⟨g, by rw [hg]; simp, hg1, hg2⟩
  · have hfx : (u.qeFlag q QE_FLAG_ILL_LASTING).freeIx = (qeIllegal s q).freeIx :=
      hk.freeIx.trans (hq.1.freeIx.trans k2.1.freeIx)
    rw [hfx]
    exact qeOnly_qeFlag (qeOnly_of_frame hr (hq.mono (by simp) (List.Subset.refl _))) (by simp)

/-- The bit of a line's disagreement. -/
def wireBit (line : Fin 3) : Fld := match line.val with | 0 => QE_STAT_WIREA | 1 => QE_STAT_WIREB | _ => QE_STAT_WIREZ

theorem wireBit_one (line : Fin 3) : (wireBit line).w = 1 ∧ (wireBit line).lo + 1 ≤ 32 := by
  revert line
  decide

/-- R364: a wire fault begins or ends. -/
theorem wire_checks (hon : s.qeOn q = true) (line : Fin 3) (bad : Bool) :
    let f := wireBit line
    (s.bit (QE_STAT q) f = bad → exec (.wire q ⟨line, bad⟩) s = .next s) ∧
      (s.bit (QE_STAT q) f = true → bad = false →
        ∃ t, exec (.wire q ⟨line, bad⟩) s = .next t ∧ t.bit (QE_STAT q) f = false ∧
          t.qeAt q = { s.qeAt q with wireAt := s.now } ∧ t = { s with regs := t.regs, qe := t.qe } ∧
          qeOnly s t q [QE_STAT q]) ∧
      (s.bit (QE_STAT q) f = false → bad = true →
      ∃ t, exec (.wire q ⟨line, bad⟩) s = .next t ∧ t.bit (QE_FLAG q) QE_FLAG_WIRE = true ∧
        Reported s t (if s.bit (QE_CFG q) QE_CFG_SAFETY then 0x3505 else 0x2506) (BitVec.ofNat 8 q) 0 ∧
        t.bit (QE_STAT q) f = true ∧ t.qe = s.qe ∧ qeOnly s t q [QE_STAT q, QE_FLAG q]) := by
  obtain ⟨hsf, -, -, -, -, -, -, -, -, hgs, hgf, -⟩ := qe_regs_ne q
  obtain ⟨ms, mf, -, mg, -⟩ := qe_notMem q q.isLt
  intro f
  have hexec : exec (.wire q ⟨line, bad⟩) s = .next (if !s.qeOn q ∨ s.bit (QE_STAT q) f = bad then s
    else if !bad then (s.setFld (QE_STAT q) f 0).onQe q fun x => { x with wireAt := s.now }
    else ((s.setFld (QE_STAT q) f 1).qeFlag q QE_FLAG_WIRE).fault
      (if ((s.setFld (QE_STAT q) f 1).qeFlag q QE_FLAG_WIRE).bit (QE_CFG q) QE_CFG_SAFETY then 0x3505 else 0x2506) q) :=
    rfl
  have hone := wireBit_one line
  rw [hexec]
  refine ⟨fun h => congrArg Host.Outcome.next (if_pos (.inr h)), fun h hb => ?_, fun h hb => ?_⟩
  · subst hb
    rw [if_neg (by simp [hon, h]), if_pos Bool.not_false]
    exact ⟨_, rfl, bit_setFld_same s (QE_STAT q) f false hone.1 hone.2, qeAt_onQe_same .., rfl,
      qeOnly_onQe (qeOnly_setFld (qeOnly_refl _ _ _) (by simp))⟩
  · subst hb
    have hsafe : ((s.setFld (QE_STAT q) f 1).qeFlag q QE_FLAG_WIRE).bit (QE_CFG q) QE_CFG_SAFETY =
        s.bit (QE_CFG q) QE_CFG_SAFETY :=
      congrArg (· != 0) ((fld_hwEvt_other _ _ _ _ _ _ hgf mg).trans (fld_setFld_other _ _ _ _ _ _ hgs))
    rw [if_neg (by simp [hon, h]), if_neg (by simp), hsafe]
    generalize (if s.bit (QE_CFG q) QE_CFG_SAFETY then (0x3505 : BitVec 16) else 0x2506) = code
    have hu : qeOnly s ((s.setFld (QE_STAT q) f 1).qeFlag q QE_FLAG_WIRE) q [QE_STAT q, QE_FLAG q] :=
      qeOnly_qeFlag (qeOnly_setFld (qeOnly_refl _ _ _) (by simp)) (by simp)
    have hw : ((s.setFld (QE_STAT q) f 1).qeFlag q QE_FLAG_WIRE).bit (QE_FLAG q) QE_FLAG_WIRE = true :=
      bit_hwEvt_same _ _ _ _ _ mf (by decide)
    have hs : ((s.setFld (QE_STAT q) f 1).qeFlag q QE_FLAG_WIRE).bit (QE_STAT q) f = true :=
      (congrArg (· != 0) (fld_hwEvt_other _ _ _ _ _ _ hsf ms)).trans
        (bit_setFld_same s (QE_STAT q) f true hone.1 hone.2)
    have hsi : ((s.setFld (QE_STAT q) f 1).qeFlag q QE_FLAG_WIRE).si = s.si := hwEvt_si _ _ _ _ _
    have hqe : ((s.setFld (QE_STAT q) f 1).qeFlag q QE_FLAG_WIRE).qe = s.qe := (hwEvt_quiet _ _ _ _ _).qe
    generalize (s.setFld (QE_STAT q) f 1).qeFlag q QE_FLAG_WIRE = u at *
    have hk : Frame u (u.fault code q) [] [BLK_QE] := (Frame.refl _ _ _).fault
    refine ⟨_, rfl, flag_kept hk mf hw, fault_reportedFrom _ _ _ (by rw [hsi]), ?_, hk.1.qe.trans hqe,
      qeOnly_fault hu⟩
    unfold State.bit
    rw [hk.fld _ (by simp) ms]
    exact hs

/-- R367: no edge for STILLT is standstill. -/
theorem still_stands (hon : s.qeOn q = true) (e : Nat) (rest : List Nat) (he : (s.qeAt q).edges = e :: rest)
    (hl : s.lcReads q = false) :
    (e + max 1 (s.fld (QE_SPCFG q) QE_SPCFG_STILLT) * 1000 ≤ s.now →
        ∃ t, exec (.still q) s = .next t ∧ t.reg (QE_SPEED q) = 0 ∧
          t.bit (QE_STAT q) QE_STAT_STILL = true ∧ t.bit (QE_STAT q) QE_STAT_VALID = false ∧
          t.bit (QE_FLAG q) QE_FLAG_STILL_ON = true ∧ EventSet t BLK_QE q ∧
          qeOnly s t q [QE_SPEED q, QE_STAT q, QE_FLAG q]) ∧
      (s.now < e + max 1 (s.fld (QE_SPCFG q) QE_SPCFG_STILLT) * 1000 → exec (.still q) s = .next s) := by
  obtain ⟨hsf, -, -, -, -, -, -, -, -, -, -, -, -, hps, hpf, -⟩ := qe_regs_ne q
  obtain ⟨ms, mf, -, -, mp, -⟩ := qe_notMem q q.isLt
  have hexec : exec (.still q) s = .next
      (if s.qeOn q && decide (e + max 1 (s.fld (QE_SPCFG q) QE_SPCFG_STILLT) * 1000 ≤ s.now) then
        (if ((s.qeStandstill q).qeFlag q QE_FLAG_STILL_ON).lcReads q then
          ((s.qeStandstill q).qeFlag q QE_FLAG_STILL_ON).setEvt BLK_LC 4
        else (s.qeStandstill q).qeFlag q QE_FLAG_STILL_ON) else s) := by
    show Host.Outcome.next _ = _
    rw [he]
  have hfeeds : ((s.qeStandstill q).qeFlag q QE_FLAG_STILL_ON).lcReads q = false := by
    rw [← hl]
    unfold State.lcReads State.lcSrc State.lcUnit
    rw [show ((s.qeStandstill q).qeFlag q QE_FLAG_STILL_ON).lc = s.lc from (hwEvt_quiet _ _ _ _ _).lc]
  rw [hexec]
  refine ⟨fun hn => ?_, fun hn => congrArg Host.Outcome.next (if_neg ?_)⟩
  · rw [if_pos (by simp only [hon, Bool.true_and]; exact decide_eq_true hn), hfeeds, if_neg Bool.false_ne_true]
    refine ⟨_, rfl, ?_, ?_, ?_, bit_hwEvt_same _ _ _ _ _ mf (by decide), setEvt_eventSet _ _ _ (by omega),
      qeOnly_qeFlag (qeOnly_standstill (qeOnly_refl _ _ _) (by simp) (by simp)) (by simp)⟩
    · refine (reg_hwEvt_other _ _ _ _ _ hpf mp).trans ?_
      unfold State.qeStandstill
      dsimp only
      rw [reg_setFld_other _ _ _ _ _ hps, reg_setFld_other _ _ _ _ _ hps, reg_setReg_same]
    · refine (congrArg (· != 0) ((fld_hwEvt_other _ _ _ _ _ _ hsf ms).trans
        (fld_setFld_field _ _ _ _ _ (by decide)))).trans ?_
      exact bit_setFld_same _ (QE_STAT q) QE_STAT_STILL true rfl (by decide)
    · refine (congrArg (· != 0) (fld_hwEvt_other _ _ _ _ _ _ hsf ms)).trans ?_
      exact bit_setFld_same _ (QE_STAT q) QE_STAT_VALID false rfl (by decide)
  · simp only [hon, Bool.true_and, decide_eq_true_eq]
    omega

end

/-! ### The index -/

/-- A fold whose steps all leave a state leaves it. -/
theorem each_of_leaves {s : State} {n : Nat} {f : Nat → State → State} (h : ∀ a, a < n → f a s = s) :
    s.each n f = s := by
  have hl : ∀ l : List Nat, (∀ a ∈ l, a < n) → l.foldl (fun s i => f i s) s = s := by
    intro l hl
    induction l with
    | nil => rfl
    | cons a l ih =>
      rw [List.foldl_cons, h a (hl a (by simp))]
      exact ih fun b hb => hl b (by simp [hb])
  exact hl _ fun a ha => List.mem_range.1 ha

section
variable (s : State) (q : Fin 10)

/-- An index edge that no homing waits for only latches the count. -/
theorem indexHomes_none (h : ∀ a, a < 8 → s.homeAt a 1 = false) (v : Word) :
    (s.setReg (QE_IDXLAT q) v).indexHomes q = s.setReg (QE_IDXLAT q) v := by
  refine each_of_leaves fun a ha => ?_
  have hne : AX_STAT a ≠ QE_IDXLAT q := by
    unfold AX_STAT QE_IDXLAT
    omega
  have hhome : (s.setReg (QE_IDXLAT q) v).homeAt a 1 = false := by
    rw [← h a ha]
    unfold State.homeAt State.axState
    rw [fld_setReg_other _ _ _ _ _ hne, fld_setReg_other _ _ _ _ _ hne]
  have hl : (s.setReg (QE_IDXLAT q) v).homeLatch a = s.setReg (QE_IDXLAT q) v :=
    if_neg (by rw [hhome]; exact Bool.false_ne_true)
  dsimp only
  rw [hl, ite_self]

/-- R366: the deviation lies in its range and agrees with the latched count. -/
theorem indexDev_range (lat ref : Int) (cpr : Nat) (h : cpr ≠ 0) :
    let d := indexDev lat ref cpr
    (d - (lat - ref)) % cpr = 0 ∧ -((cpr / 2 : Nat) : Int) ≤ d ∧ d ≤ (cpr : Int) - 1 - ((cpr / 2 : Nat) : Int) := by
  have hc : (0 : Int) < cpr := by omega
  have h0 := Int.emod_nonneg (lat - ref) (Int.ne_of_gt hc)
  have h1 := Int.emod_lt_of_pos (lat - ref) hc
  intro d
  have hm : ((lat - ref) % (cpr : Int) - (lat - ref)) % cpr = 0 :=
    Int.emod_eq_zero_of_dvd (by
      rw [← Int.neg_sub]
      exact (Int.dvd_neg).2 (Int.dvd_self_sub_emod))
  unfold d indexDev
  dsimp only
  split
  · exact ⟨hm, by omega, by omega⟩
  · refine ⟨?_, by omega, by omega⟩
    rw [show (lat - ref) % (cpr : Int) - cpr - (lat - ref) = (lat - ref) % (cpr : Int) - (lat - ref) - cpr by omega,
      Int.sub_emod_right]
    exact hm

theorem exec_index (hon : s.qeOn q = true) (hz : s.bit (QE_CFG q) QE_CFG_ZEN = true)
    (hh : ∀ a, a < 8 → s.homeAt a 1 = false) (hc : (s.reg (QE_CPR q)).toNat ≠ 0) :
    let u := s.setReg (QE_IDXLAT q) (s.reg (QE_COUNT q))
    exec (.index q) s = .next (if s.bit (QE_IDXCFG q) QE_IDXCFG_REFV then
        let d := indexDev (s.reg (QE_COUNT q)).toInt (u.reg (QE_IDXREF q)).toInt (s.reg (QE_CPR q)).toNat
        let s := u.setReg (QE_IDXDEV q) (BitVec.ofInt 32 d)
        let s := if s.fld (QE_IDXCFG q) QE_IDXCFG_W < d.natAbs then s.indexMismatch q else s
        if s.bit (QE_IDXCFG q) QE_IDXCFG_REREF then s.setCount q ((u.reg (QE_COUNT q)).toInt - d) true else s
      else if s.bit (QE_IDXCFG q) QE_IDXCFG_CAPT then
        (u.setReg (QE_IDXREF q) (BitVec.ofInt 32 ((s.reg (QE_COUNT q)).toInt % ((s.reg (QE_CPR q)).toNat : Int)))).setFld
          (QE_IDXCFG q) QE_IDXCFG_REFV 1
      else u) := by
  obtain ⟨hcl, -, -, -, -, -, -, hgl, -⟩ := qe_index_ne q
  intro u
  have hb : ∀ g, u.bit (QE_IDXCFG q) g = s.bit (QE_IDXCFG q) g := fun g =>
    congrArg (· != 0) (fld_setReg_other _ _ _ _ _ hgl)
  show execIndex q s = _
  unfold execIndex
  rw [if_neg (by simp [hon, hz])]
  dsimp only
  rw [indexHomes_none s q hh, if_neg hc, hb, hb, show u.reg (QE_COUNT q) = s.reg (QE_COUNT q) from
    reg_setReg_other _ _ _ _ hcl]

/-- R366: an index edge without a reference captures it. -/
theorem index_captures (hon : s.qeOn q = true) (hz : s.bit (QE_CFG q) QE_CFG_ZEN = true)
    (hh : ∀ a, a < 8 → s.homeAt a 1 = false) (hc : (s.reg (QE_CPR q)).toNat ≠ 0)
    (hr : s.bit (QE_IDXCFG q) QE_IDXCFG_REFV = false) (hp : s.bit (QE_IDXCFG q) QE_IDXCFG_CAPT = true) :
    ∃ t, exec (.index q) s = .next t ∧ t.reg (QE_IDXLAT q) = s.reg (QE_COUNT q) ∧
        t.bit (QE_IDXCFG q) QE_IDXCFG_REFV = true ∧
        t.reg (QE_IDXREF q) =
          BitVec.ofInt 32 ((s.reg (QE_COUNT q)).toInt % ((s.reg (QE_CPR q)).toNat : Int)) ∧
        t = { s with regs := t.regs } ∧ RegsBut s t [QE_IDXLAT q, QE_IDXREF q, QE_IDXCFG q] := by
  obtain ⟨-, -, -, hlr, hlg, -, hrg, -⟩ := qe_index_ne q
  rw [exec_index s q hon hz hh hc, hr, hp, if_neg Bool.false_ne_true, if_pos rfl]
  refine ⟨_, rfl, ?_, bit_setFld_same _ (QE_IDXCFG q) QE_IDXCFG_REFV true rfl (by decide), ?_, rfl,
    (((RegsBut.refl _ _).setReg (by simp)).setReg (by simp)).setFld (by simp)⟩
  · rw [reg_setFld_other _ _ _ _ _ hlg, reg_setReg_other _ _ _ _ hlr, reg_setReg_same]
  · rw [reg_setFld_other _ _ _ _ _ hrg, reg_setReg_same]

/-- A mismatch of the index is flagged. -/
theorem indexMismatch_flags : (s.indexMismatch q).bit (QE_FLAG q) QE_FLAG_IDXMM = true ∧
    Frame s (s.indexMismatch q) [QE_FLAG q] [BLK_QE] := by
  have mf := (qe_notMem q q.isLt).2.1
  have hu : (s.qeFlag q QE_FLAG_IDXMM).bit (QE_FLAG q) QE_FLAG_IDXMM = true := bit_hwEvt_same _ _ _ _ _ mf (by decide)
  have hf : Frame s (s.qeFlag q QE_FLAG_IDXMM) [QE_FLAG q] [BLK_QE] :=
    (Frame.refl _ _ _).hwEvt (by simp) (by simp)
  have hk : Frame (s.qeFlag q QE_FLAG_IDXMM) ((s.qeFlag q QE_FLAG_IDXMM).faultCounted 0x1503 q 0 3 ticksSec).2 []
      [BLK_QE] := (Frame.refl _ _ _).faultCounted
  unfold State.indexMismatch
  generalize (s.qeFlag q QE_FLAG_IDXMM).faultCounted 0x1503 q 0 3 ticksSec = r at hk
  obtain ⟨third, u⟩ := r
  have hw := flag_kept hk mf hu
  have hall := hf.trans (hk.mono (by simp) (List.Subset.refl _))
  cases third with
  | false => exact ⟨hw, hall⟩
  | true =>
    have hl : Frame u (u.fault 0x2504 q) [] [BLK_QE] := (Frame.refl _ _ _).fault
    exact ⟨bit_hwEvt_mono _ _ _ _ _ 2 mf (by decide) (flag_kept hl mf hw), hall.fault.hwEvt (by simp) (by simp)⟩

/-- R366: an index edge with a reference shows its deviation, and a mismatch where it exceeds the window. -/
theorem index_deviates (hon : s.qeOn q = true) (hz : s.bit (QE_CFG q) QE_CFG_ZEN = true)
    (hh : ∀ a, a < 8 → s.homeAt a 1 = false) (hc : (s.reg (QE_CPR q)).toNat ≠ 0)
    (hr : s.bit (QE_IDXCFG q) QE_IDXCFG_REFV = true) (hp : s.bit (QE_IDXCFG q) QE_IDXCFG_REREF = false) :
    let lat := (s.reg (QE_COUNT q)).toInt
    let cpr := (s.reg (QE_CPR q)).toNat
     ∃ t d, exec (.index q) s = .next t ∧ t.reg (QE_IDXLAT q) = s.reg (QE_COUNT q) ∧
      t.reg (QE_IDXDEV q) = BitVec.ofInt 32 d ∧ (d - (lat - (s.reg (QE_IDXREF q)).toInt)) % cpr = 0 ∧
      -((cpr / 2 : Nat) : Int) ≤ d ∧ d ≤ (cpr : Int) - 1 - ((cpr / 2 : Nat) : Int) ∧
      (s.fld (QE_IDXCFG q) QE_IDXCFG_W < d.natAbs → t.bit (QE_FLAG q) QE_FLAG_IDXMM = true) ∧
      (d.natAbs ≤ s.fld (QE_IDXCFG q) QE_IDXCFG_W → t.reg (QE_FLAG q) = s.reg (QE_FLAG q)) ∧
      t.reg (QE_COUNT q) = s.reg (QE_COUNT q) ∧ t.qe = s.qe ∧
      qeOnly s t q [QE_IDXLAT q, QE_IDXDEV q, QE_FLAG q] := by
  obtain ⟨hcl, hcd, hld, hlr, hlg, hrl, hrg, hgl, hgr, hgd, hfl, hfd, hlf, hdf, hgf⟩ := qe_index_ne q
  obtain ⟨-, -, -, -, hcf, -⟩ := qe_regs_ne q
  obtain ⟨-, mf, mc, -, -, ml, md, mg⟩ := qe_notMem q q.isLt
  intro lat cpr
  rw [exec_index s q hon hz hh hc, hr, if_pos rfl]
  dsimp only
  rw [reg_setReg_other _ _ _ _ hrl]
  obtain ⟨d1, d2, d3⟩ := indexDev_range lat (s.reg (QE_IDXREF q)).toInt cpr hc
  generalize hd : indexDev (s.reg (QE_COUNT q)).toInt (s.reg (QE_IDXREF q)).toInt (s.reg (QE_CPR q)).toNat = d at *
  generalize hu : (s.setReg (QE_IDXLAT q) (s.reg (QE_COUNT q))).setReg (QE_IDXDEV q) (BitVec.ofInt 32 d) = u
  have honly : qeOnly s u q [QE_IDXLAT q, QE_IDXDEV q, QE_FLAG q] :=
    hu ▸ qeOnly_setReg (qeOnly_setReg (qeOnly_refl _ _ _) (by simp)) (by simp)
  have hqe : u.qe = s.qe := hu ▸ rfl
  have hlat : u.reg (QE_IDXLAT q) = s.reg (QE_COUNT q) := by
    rw [← hu, reg_setReg_other _ _ _ _ hld, reg_setReg_same]
  have hdev : u.reg (QE_IDXDEV q) = BitVec.ofInt 32 d := by rw [← hu, reg_setReg_same]
  have hreg : ∀ off, off ≠ QE_IDXLAT q → off ≠ QE_IDXDEV q → u.reg off = s.reg off := fun off h1 h2 => by
    rw [← hu, reg_setReg_other _ _ _ _ h2, reg_setReg_other _ _ _ _ h1]
  have hfld : ∀ g, u.fld (QE_IDXCFG q) g = s.fld (QE_IDXCFG q) g := fun g => by
    unfold State.fld
    rw [hreg _ hgl hgd]
  obtain ⟨m1, m2⟩ := indexMismatch_flags u q
  have hall : ∀ t, (t = if u.fld (QE_IDXCFG q) QE_IDXCFG_W < d.natAbs then u.indexMismatch q else u) →
      t.bit (QE_IDXCFG q) QE_IDXCFG_REREF = false ∧ t.reg (QE_IDXLAT q) = s.reg (QE_COUNT q) ∧
        t.reg (QE_IDXDEV q) = BitVec.ofInt 32 d ∧ t.reg (QE_COUNT q) = s.reg (QE_COUNT q) ∧ t.qe = s.qe ∧
        qeOnly s t q [QE_IDXLAT q, QE_IDXDEV q, QE_FLAG q] ∧
      (s.fld (QE_IDXCFG q) QE_IDXCFG_W < d.natAbs → t.bit (QE_FLAG q) QE_FLAG_IDXMM = true) ∧
      (d.natAbs ≤ s.fld (QE_IDXCFG q) QE_IDXCFG_W → t.reg (QE_FLAG q) = s.reg (QE_FLAG q)) := by
    rintro t rfl
    rw [hfld]
    split
    · next h =>
      refine ⟨?_, ?_, ?_, ?_, m2.1.qe.trans hqe, qeOnly_of_frame honly (m2.mono (by simp) (List.Subset.refl _)),
        fun _ => m1, fun h' => absurd h (by omega)⟩
      · unfold State.bit
        rw [m2.fld _ (by simp [hgf]) mg, hfld]
        exact hp
      · rw [m2.reg (by simp [hlf]) ml, hlat]
      · rw [m2.reg (by simp [hdf]) md, hdev]
      · rw [m2.reg (by simp [hcf]) mc, hreg _ hcl hcd]
    · next h =>
      exact ⟨(congrArg (· != 0) (hfld _)).trans hp, hlat, hdev, hreg _ hcl hcd, hqe, honly, fun h' => absurd h' h,
        fun _ => hreg _ hfl hfd⟩
  obtain ⟨k1, k2, k3, k4, k5, k6, k7, k8⟩ := hall _ rfl
  rw [k1, if_neg Bool.false_ne_true]
  exact ⟨_, d, rfl, k2, k3, d1, d2, d3, k7, k8, k4, k5, k6⟩

end

theorem encoderChecks_holds : encoderChecks := by
  refine ⟨fun s q line bad h => ⟨congrArg Host.Outcome.next (if_pos (by simp [h])),
    congrArg Host.Outcome.next (if_pos (by simp [h])), congrArg Host.Outcome.next (if_pos (by simp [h])), ?_⟩,
    fun s q hon => ⟨illegal_lasting s q hon, illegal_transient s q hon, fun line bad => wire_checks s q hon line bad,
      fun h => congrArg Host.Outcome.next (if_pos (by simp [h])),
      fun hz hh hc hr hp => index_captures s q hon hz hh hc hr hp, ?_, fun e rest he hl => still_stands s q hon e rest he hl⟩⟩
  · show Host.Outcome.next _ = _
    split
    · exact congrArg Host.Outcome.next (if_neg (by simp [h]))
    · rfl
  · intro lat cpr hz hh hc hr hp
    exact index_deviates s q hon hz hh hc hr hp

/-- Settles O50: encoder inputs count, are checked, latch their index and stand still. -/
theorem encodersCountAndAreChecked : Obligations.EncodersCountAndAreChecked :=
  ⟨encodersCount_holds, encoderChecks_holds⟩

end Sys2Proof.Machine

/-!
The watchdog and the dynamic enable (R407, R409).
-/

namespace Sys2Proof.Machine

/-! ### What the island changes -/

section
variable {s t u : State} {l : List Nat}

theorem siOnly_refl (s : State) (l : List Nat) : siOnly s s l := ⟨rfl, fun _ _ => rfl⟩

theorem siOnly_onSi (f : SiSt → SiSt) (h : siOnly s t l) : siOnly s (t.onSi f) l := by
  refine ⟨?_, h.2⟩
  conv_lhs => rw [h.1]
  rfl

theorem siOnly_setReg {off : Nat} {v : Word} (h : siOnly s t l) (ho : off ∈ l ++ reportRegs [BLK_SI]) :
    siOnly s (t.setReg off v) l :=
  ⟨by conv_lhs => rw [h.1]
      rfl, h.2.setReg ho⟩

theorem siOnly_setFld {off x : Nat} {f : Fld} (h : siOnly s t l) (ho : off ∈ l ++ reportRegs [BLK_SI]) :
    siOnly s (t.setFld off f x) l := siOnly_setReg h ho

theorem siOnly_count {off : Nat} (h : siOnly s t l) (ho : off ∈ l ++ reportRegs [BLK_SI]) :
    siOnly s (t.count off) l := siOnly_setReg h ho

theorem siOnly_of_frame (h : siOnly s t l) (k : Frame t u l [BLK_SI]) : siOnly s u l := by
  obtain ⟨q, r⟩ := k
  refine ⟨?_, h.2.trans r⟩
  unfold Quiet at q
  conv_lhs => rw [q, h.1]
  rw [q]

theorem siOnly_fault {code : BitVec 16} {inst info : Nat} (h : siOnly s t l) : siOnly s (t.fault code inst info) l :=
  siOnly_of_frame h (Frame.refl _ _ _).fault

theorem siOnly_setEvt (n : Nat) (h : siOnly s t l) : siOnly s (t.setEvt BLK_SI n) l :=
  siOnly_of_frame h ((Frame.refl _ _ _).setEvt (by simp))
end

@[simp] theorem reg_onSi (s : State) (f : SiSt → SiSt) (off : Nat) : (s.onSi f).reg off = s.reg off := rfl
@[simp] theorem fld_onSi (s : State) (f : SiSt → SiSt) (off : Nat) (g : Fld) : (s.onSi f).fld off g = s.fld off g := rfl
@[simp] theorem bit_onSi (s : State) (f : SiSt → SiSt) (off : Nat) (g : Fld) : (s.onSi f).bit off g = s.bit off g := rfl

theorem siStat_notMem : SI_STAT ∉ reportRegs [BLK_SI] := by decide

theorem siStat_notMem_nil : SI_STAT ∉ reportRegs [] := by decide

/-- A dangerous fault asserts its danger line. -/
theorem fault_dangerous (s : State) (code : BitVec 16) (inst info : Nat) (h : codeClass code = 3) :
    (s.fault code inst info).si.danger ≠ [] := by
  unfold State.fault State.raiseWith
  rw [if_neg (by omega)]
  dsimp only
  rw [if_pos (by simp [h])]
  simp

/-! ### The watchdog -/

section
variable (s : State)

/-- A record enters the internal queue of 512, or is lost and counted. -/
theorem keepRecord_keeps (r : FaultRec) :
    (∀ u l, siOnly u s l → siOnly u (s.keepRecord r) l) ∧
      (∃ q l, (s.keepRecord r).si = { s.si with intq := q, intLoss := l }) ∧
      (∀ off, off ∉ reportRegs [BLK_SI] → (s.keepRecord r).reg off = s.reg off) ∧
      (s.si.intq.length < 512 → (s.keepRecord r).si.intq = s.si.intq ++ [r]) ∧
      (512 ≤ s.si.intq.length → (s.keepRecord r).si.intLoss = true ∧
        (s.keepRecord r).reg (SI_CNT 1) = satInc (s.reg (SI_CNT 1))) := by
  have hmem : SI_CNT 1 ∈ reportRegs [BLK_SI] := by decide
  unfold State.keepRecord
  split
  · next h =>
    exact ⟨fun u l hu => siOnly_onSi _ hu, ⟨_, _, rfl⟩, fun _ _ => rfl, fun _ => rfl, fun h' => absurd h (by omega)⟩
  · next h =>
    refine ⟨fun u l hu => siOnly_setEvt _ (siOnly_count (siOnly_onSi _ hu) (by simp [hmem])),
      ⟨_, _, by rw [setEvt_si]; rfl⟩, fun off ho => ?_, fun h' => absurd h' h, fun _ => ⟨by rw [setEvt_si]; rfl, ?_⟩⟩
    · rw [reg_setEvt_of_notMem _ _ _ _ ho, reg_count_other _ _ _ fun e => ho (by rw [e]; exact hmem)]
      rfl
    · rw [reg_setEvt _ _ _ _ (by decide) (by decide)]
      exact reg_count_same _ _

/-- Fault 0x3084 is recorded at once, and its danger line asserted. -/
theorem tripFault_eq : ∃ r f, s.tripFault = (s.keepRecord r).onSi (fun i =>
      { i with seq := i.seq + 1, danger := i.danger ++ [f] }) ∧
    r.code = 0x3084 ∧ r.seq = s.si.seq ∧ r.time = BitVec.ofNat 64 s.flat := ⟨_, _, rfl, rfl, rfl, rfl⟩

/-- The trip of the watchdog, in the words of the statement. -/
theorem wdgTrips_trips (ht : s.si.wdgTrip = false) :
    let t := s.wdgTrips
    t.si.wdgTrip = true ∧ t.si.safeN = false ∧ t.si.danger ≠ [] ∧
        t.bit SI_STAT SI_STAT_ENB_PAD = true ∧ siOnly s t [SI_STAT] ∧
        (s.si.intq.length < 512 → ∃ r : FaultRec, t.si.intq = s.si.intq ++ [r] ∧ r.code = 0x3084 ∧
          r.seq = s.si.seq ∧ r.time = BitVec.ofNat 64 s.flat) ∧
        (512 ≤ s.si.intq.length → t.si.intLoss = true ∧ t.reg (SI_CNT 1) = satInc (s.reg (SI_CNT 1))) := by
  intro t
  generalize hu : (s.onSi fun i => { i with wdgTrip := true, safeN := false }).setFld SI_STAT SI_STAT_ENB_PAD 1 = u
  have hsi : u.si = { s.si with wdgTrip := true, safeN := false } := hu ▸ rfl
  have hflat : u.flat = s.flat := hu ▸ rfl
  have hpad : u.bit SI_STAT SI_STAT_ENB_PAD = true :=
    hu ▸ bit_setFld_same _ SI_STAT SI_STAT_ENB_PAD true rfl (by decide)
  have honly : siOnly s u [SI_STAT] := hu ▸ siOnly_setFld (siOnly_onSi _ (siOnly_refl _ _)) (by simp)
  have hcnt : u.reg (SI_CNT 1) = s.reg (SI_CNT 1) := by
    rw [← hu, reg_setFld_other _ _ _ _ _ (by decide)]
    rfl
  have htrip : t = u.tripFault := (if_neg (by rw [ht]; exact Bool.false_ne_true)).trans (by rw [hu])
  clear hu
  clear_value t
  subst htrip
  obtain ⟨r, f, hr, r1, r2, r3⟩ := tripFault_eq u
  obtain ⟨k1, ⟨q, l, k2⟩, k3, k4, k5⟩ := keepRecord_keeps u r
  rw [hr]
  generalize u.keepRecord r = w at *
  have hw : (w.onSi fun i => { i with seq := i.seq + 1, danger := i.danger ++ [f] }).si =
    { w.si with seq := w.si.seq + 1, danger := w.si.danger ++ [f] } := rfl
  rw [hw, k2, hsi]
  refine ⟨rfl, rfl, by simp, ?_, siOnly_onSi _ (k1 _ _ honly), fun h => ?_, fun h => ?_⟩
  · rw [bit_onSi]
    unfold State.bit State.fld at hpad ⊢
    rw [k3 _ siStat_notMem]
    exact hpad
  · have hq := k4 (by rw [hsi]; exact h)
    rw [k2] at hq
    exact ⟨r, hq.trans (by rw [hsi]), r1, r2.trans (by rw [hsi]), r3.trans (by rw [hflat])⟩
  · obtain ⟨j1, j2⟩ := k5 (by rw [hsi]; exact h)
    rw [k2] at j1
    exact ⟨j1, (reg_onSi _ _ _).trans (j2.trans (by rw [hcnt]))⟩

/-! ### The dynamic enable -/

/-- A lapse, in the words of the statement. -/
theorem lapse_latches (info : Nat) : (s.lapse info).si.enbLatch = true ∧
    (s.lapse info).bit SI_STAT SI_STAT_ENB_PAD = true ∧ Reported s (s.lapse info) 0x3089 0xFF (BitVec.ofNat 48 info) ∧
      siOnly s (s.lapse info) [SI_STAT] := by
  unfold State.lapse
  generalize hu : (s.onSi fun i => { i with enbLatch := true }).setFld SI_STAT SI_STAT_ENB_PAD 1 = u
  have hk : Frame u (u.fault 0x3089 0xFF info) [] [BLK_SI] := (Frame.refl _ _ _).fault
  refine ⟨?_, ?_, fault_reportedFrom _ _ _ (hu ▸ rfl),
    hu ▸ siOnly_fault (siOnly_setFld (siOnly_onSi _ (siOnly_refl _ _)) (by simp))⟩
  · rw [hk.1.si_enbLatch, ← hu]
    rfl
  · unfold State.bit
    rw [hk.fld _ (by simp) siStat_notMem, ← hu]
    exact bit_setFld_same _ SI_STAT SI_STAT_ENB_PAD true rfl (by decide)

end

/-- Settles O54: the watchdog and the dynamic enable are taken in turn and in time, and trip or lapse otherwise. -/
theorem watchdogAndDynamicEnable : Obligations.WatchdogAndDynamicEnable := by
  intro s v
  refine ⟨fun hr ht => ?_, fun h => ?_, fun h => congrArg Host.Outcome.next (if_neg (by simp; omega)),
    fun hc hn => ?_, fun hc hn => ?_, fun h => congrArg Host.Outcome.next (if_neg (by simp; omega)), fun hc hn => ?_,
    fun hc => ⟨congrArg Host.Outcome.next (if_pos (by simp [hc])), congrArg Host.Outcome.next (if_neg (by simp [hc]))⟩,
    fun b => ⟨_, rfl, (Frame.refl _ _ _).fault, fault_reported _ _ _ _, fault_dangerous _ _ _ _ (by decide)⟩⟩
  · intro w good tripped
    have hexec : exec (.siWdg v) s = .next (if good then
        s.onSi fun i => { i with wdgLast := some (decide (w = 0x5A)), wdgTime := s.now } else s.wdgTrips) := by
      refine congrArg Host.Outcome.next ((if_neg (by simp [hr, ht])).trans (if_congr ?_ rfl rfl))
      cases hl : s.si.wdgLast with
      | none => simp [good, hl, w]
      | some b => simp [good, hl, w, and_comm]
    rw [hexec]
    refine ⟨fun hg => by rw [if_pos hg]; rfl, fun hg => by rw [if_neg hg]; exact ⟨_, rfl, wdgTrips_trips s ht⟩,
      fun h => ⟨_, congrArg Host.Outcome.next (if_pos (by simp [hr, h])), wdgTrips_trips s ht⟩⟩
  · have hw : s.si.running = true → s.wdgTrips = s := fun hr => if_pos (by simpa [hr] using h)
    refine ⟨congrArg Host.Outcome.next (if_pos (by rcases h with h | h <;> simp [h])), ?_⟩
    show Host.Outcome.next (if _ then _ else _) = _
    split
    · next hd => rw [hw (by simp at hd; exact hd.1)]
    · rfl
  · intro good
    have hexec : exec (.siEnb v) s = .next (if good then
        (s.onSi fun i => { i with enbLast := some (decide (v = 0x3C0C)), enbTime := s.now }).setFld
          SI_STAT SI_STAT_ENB_PAD 0 else s.lapse 1) :=
      congrArg Host.Outcome.next ((if_neg (by simp [hc])).trans (if_neg (by omega)))
    rw [hexec]
    refine ⟨fun hg => ?_, fun hg => ?_⟩
    · rw [if_pos hg]
      exact ⟨_, rfl, bit_setFld_same _ SI_STAT SI_STAT_ENB_PAD false rfl (by decide), rfl, rfl,
        (RegsBut.refl _ _).setFld (by simp)⟩
    · rw [if_neg hg]
      exact ⟨_, rfl, lapse_latches s 1⟩
  · exact ⟨_, congrArg Host.Outcome.next ((if_neg (by simp [hc])).trans (if_pos hn)), lapse_latches s 0⟩
  · exact ⟨_, congrArg Host.Outcome.next (if_pos (by simp [hc, hn])), lapse_latches s 0⟩

end Sys2Proof.Machine

/-!
The safe state: entry, release and the raising of the enables (O55).
-/

namespace Sys2Proof.Machine

/-! ### The axes in the safe state -/

/-- What the safe state does to axis `a`: no register but those of axes and LC_STAT, no island state, no memory, and
no other axis. -/
structure AxisHalted (s t : State) (a : Nat) : Prop where
  regs : ∀ off, off ≠ LC_STAT → off ≠ AX_STAT a → off ≠ AX_VEL a → t.reg off = s.reg off
  si : t.si = s.si
  mem : t.mem = s.mem
  others : ∀ b, b ≠ a → t.axAt b = s.axAt b

theorem AxisHalted.refl (s : State) (a : Nat) : AxisHalted s s a := ⟨fun _ _ _ _ => rfl, rfl, rfl, fun _ _ => rfl⟩

theorem AxisHalted.trans {s t u : State} {a : Nat} (h : AxisHalted s t a) (k : AxisHalted t u a) : AxisHalted s u a :=
  ⟨fun off h1 h2 h3 => (k.regs off h1 h2 h3).trans (h.regs off h1 h2 h3), k.si.trans h.si, k.mem.trans h.mem,
    fun b hb => (k.others b hb).trans (h.others b hb)⟩

section
variable (s : State) (a : Nat)

theorem onAx_halted (f : AxSt → AxSt) : AxisHalted s (s.onAx a f) a :=
  ⟨fun _ _ _ _ => rfl, rfl, rfl, fun b hb => by rw [axAt_onAx, if_neg hb]⟩

theorem setStat_halted (f : Fld) (x : Nat) : AxisHalted s (s.setFld (AX_STAT a) f x) a :=
  ⟨fun _ _ h _ => reg_setFld_other _ _ _ _ _ h, rfl, rfl, fun _ _ => rfl⟩

theorem feedEnds_halted : AxisHalted s (s.feedEnds a) a ∧ (s.feedEnds a).axAt a = s.axAt a := by
  unfold State.feedEnds
  split
  · exact ⟨⟨fun _ h _ _ => reg_setFld_other _ _ _ _ _ h, rfl, rfl, fun _ _ => rfl⟩, rfl⟩
  · exact ⟨AxisHalted.refl _ _, rfl⟩

theorem hardStopAt_halted : AxisHalted s (s.hardStopAt a) a := by
  have harr : AxisHalted s (s.axArrive a) a :=
    ((onAx_halted s a _).trans ⟨fun _ _ _ h => reg_setReg_other _ _ _ _ h, rfl, rfl, fun _ _ => rfl⟩).trans
      (onAx_halted _ a _)
  refine harr.trans ?_
  unfold State.hardStopAt State.dropSteps
  dsimp only
  split
  · exact setStat_halted _ _ _ _
  · exact (onAx_halted _ _ _).trans (setStat_halted _ _ _ _)

theorem safeAxis_halted : AxisHalted s (State.safeAxis a s) a := by
  have hf := (feedEnds_halted s a).1
  unfold State.safeAxis
  extract_lets act still u
  have hu : AxisHalted s u a := hf
  clear_value u
  split
  · exact AxisHalted.refl _ _
  · split
    · refine hu.trans ?_
      split
      · exact AxisHalted.refl _ _
      · exact (setStat_halted _ _ _ _).trans (onAx_halted _ _ _)
    · refine hu.trans (AxisHalted.trans ?_ (onAx_halted _ _ _))
      split
      · exact AxisHalted.refl _ _
      · exact (setStat_halted _ _ _ _).trans (hardStopAt_halted _ _)

/-- An axis that runs is ramped down where a ramp stop is its action. -/
theorem safeAxis_stops (h1 : (s.reg SI_AXACT).toNat / 4 ^ a % 4 = 1) (hr : (s.axAt a).run ≠ .idle) :
    ((State.safeAxis a s).axAt a).run = .stop := by
  unfold State.safeAxis
  dsimp only
  rw [if_neg (by omega), if_pos h1, if_neg fun h => hr h.1, axAt_setRun_same]
end

/-- What the safe state does to the axes. -/
theorem safeAxes (s : State) (n : Nat) (hn : n ≤ 8) :
    let t := s.each n State.safeAxis
    (∀ off, off ≠ LC_STAT → off < 0x1300000 → t.reg off = s.reg off) ∧ t.si = s.si ∧ t.mem = s.mem ∧
      (∀ b, n ≤ b → t.axAt b = s.axAt b) ∧
      ∀ a, a < n → s.reg SI_AXACT = 0x5555 → (s.axAt a).run ≠ .idle → (t.axAt a).run = .stop := by
  induction n with
  | zero => exact ⟨fun _ _ _ => rfl, rfl, rfl, fun _ _ => rfl, fun a ha => absurd ha (Nat.not_lt_zero a)⟩
  | succ n ih =>
    obtain ⟨h1, h2, h3, h4, h5⟩ := ih (by omega)
    rw [each_succ]
    have hh := safeAxis_halted (s.each n State.safeAxis) n
    dsimp only
    refine ⟨fun off ho hlt => ?_, hh.si.trans h2, hh.mem.trans h3,
      fun b hb => (hh.others b (by omega)).trans (h4 b (by omega)), fun a ha hact hrun => ?_⟩
    · refine (hh.regs off ho ?_ ?_).trans (h1 off ho hlt)
      · unfold AX_STAT
        omega
      · unfold AX_VEL
        omega
    · rcases Nat.lt_succ_iff_lt_or_eq.1 ha with hlt | rfl
      · rw [hh.others a (by omega)]
        exact h5 a hlt hact hrun
      · refine safeAxis_stops _ _ ?_ (by rw [h4 a (Nat.le_refl a)]; exact hrun)
        rw [h1 _ (by decide) (by decide), hact]
        have ha8 : a < 8 := by omega
        interval_cases a <;> rfl

/-! ### Entry -/

section
variable (s : State)

/-- The state in which the enables are withdrawn, the cause shown and no permit stands (R410). -/
def State.safeShown (s : State) (f : FaultIn) : State :=
  let s := (s.onSi fun i => { i with
    open_ := i.open_ ++ [f], lasting := i.lasting || lastingCode f.code, since := s.now,
    rearm := .none }).setFld SI_STAT SI_STAT_REARM 0
  let s := (s.setFld SI_STAT SI_STAT_SAFE 1).setEnable false
  let s := (s.setFld SI_CAUSE SI_CAUSE_CODE f.code.toNat).setFld SI_CAUSE SI_CAUSE_INST f.inst.toNat
  (s.onSi fun i => { i with safeN := false, armed := false }).setFld SI_HUBPERM SI_HUBPERM_PERM 0

theorem setEnable_false : s.setEnable false =
    ((s.onSi fun i => { i with enable := false }).setFld SI_STAT SI_STAT_ENA_PAD 0).setFld SI_STAT SI_STAT_ENB_PAD 1 :=
  rfl

theorem setEnable_true : s.setEnable true =
    ((s.onSi fun i => { i with enable := true }).setFld SI_STAT SI_STAT_ENA_PAD 1).onSi
      fun i => { i with enbLast := none, enbTime := s.now } := rfl

/-- The fields of SI_STAT in the safe state. -/
theorem safeShown_stat (f : FaultIn) (g : Fld) :
    (s.safeShown f).fld SI_STAT g = fldGet g (fldPut SI_STAT_ENB_PAD 1 (fldPut SI_STAT_ENA_PAD 0
      (fldPut SI_STAT_SAFE 1 (fldPut SI_STAT_REARM 0 (s.reg SI_STAT))))) := by
  unfold State.safeShown
  dsimp only
  rw [setEnable_false, fld_setFld_other _ _ _ _ _ _ (by decide), fld_onSi, fld_setFld_other _ _ _ _ _ _ (by decide),
    fld_setFld_other _ _ _ _ _ _ (by decide)]
  unfold State.fld
  rw [reg_setFld_same, reg_setFld_same, reg_onSi, reg_setFld_same, reg_setFld_same, reg_onSi]

/-- The fields of SI_CAUSE and SI_HUBPERM in the safe state. -/
theorem safeShown_cause (f : FaultIn) :
    (s.safeShown f).fld SI_HUBPERM SI_HUBPERM_PERM = 0 ∧ (s.safeShown f).fld SI_CAUSE SI_CAUSE_CODE = f.code.toNat ∧
      (s.safeShown f).fld SI_CAUSE SI_CAUSE_INST = f.inst.toNat := by
  have hc : f.code.toNat < 2 ^ 16 := f.code.isLt
  have hi : f.inst.toNat < 2 ^ 8 := f.inst.isLt
  unfold State.safeShown
  dsimp only
  refine ⟨fld_setFld_same _ _ _ _ (by decide), ?_, ?_⟩
  · rw [fld_setFld_other _ _ _ _ _ _ (by decide), fld_onSi, fld_setFld_field _ _ _ _ _ (by decide),
      fld_setFld_same _ _ _ _ (by decide)]
    exact Nat.mod_eq_of_lt hc
  · rw [fld_setFld_other _ _ _ _ _ _ (by decide), fld_onSi, fld_setFld_same _ _ _ _ (by decide)]
    exact Nat.mod_eq_of_lt hi

theorem safeShown_bits (f : FaultIn) : (s.safeShown f).bit SI_STAT SI_STAT_SAFE = true ∧
    (s.safeShown f).bit SI_STAT SI_STAT_ENA_PAD = false ∧ (s.safeShown f).bit SI_STAT SI_STAT_ENB_PAD = true := by
  unfold State.bit
  rw [safeShown_stat, safeShown_stat, safeShown_stat]
  refine ⟨?_, ?_, ?_⟩
  · rw [fldGet_fldPut_other _ _ _ _ (by decide), fldGet_fldPut_other _ _ _ _ (by decide),
      fldGet_fldPut_same _ _ _ (by decide)]
    rfl
  · rw [fldGet_fldPut_other _ _ _ _ (by decide), fldGet_fldPut_same _ _ _ (by decide)]
    rfl
  · rw [fldGet_fldPut_same _ _ _ (by decide)]
    rfl

theorem safeShown_action (f : FaultIn) : (s.safeShown f).reg SI_AXACT = s.reg SI_AXACT := by
  unfold State.safeShown
  dsimp only
  rw [setEnable_false, reg_setFld_other _ _ _ _ _ (by decide), reg_onSi, reg_setFld_other _ _ _ _ _ (by decide),
    reg_setFld_other _ _ _ _ _ (by decide), reg_setFld_other _ _ _ _ _ (by decide),
    reg_setFld_other _ _ _ _ _ (by decide), reg_onSi, reg_setFld_other _ _ _ _ _ (by decide),
    reg_setFld_other _ _ _ _ _ (by decide), reg_onSi]

/-- What else the entry changes is the state of the island. -/
theorem safeShown_rest (f : FaultIn) : (s.safeShown f).mem = s.mem ∧ (s.safeShown f).mx = s.mx ∧
    (s.safeShown f).si = { s.si with
      open_ := s.si.open_ ++ [f], lasting := s.si.lasting || lastingCode f.code, since := s.now, rearm := .none,
      enable := false, safeN := false, armed := false } := by
  simp [State.safeShown, setEnable_false]

theorem stat_logged (f : FaultIn) : ((s.onSi fun i => { i with
    open_ := i.open_ ++ [f], lasting := i.lasting || lastingCode f.code, since := s.now,
    rearm := .none }).setFld SI_STAT SI_STAT_REARM 0).bit SI_STAT SI_STAT_SAFE = s.bit SI_STAT SI_STAT_SAFE := by
  unfold State.bit
  rw [fld_setFld_field _ _ _ _ _ (by decide), fld_onSi]

theorem enterSafe_enters (f : FaultIn) (h : s.bit SI_STAT SI_STAT_SAFE = false) :
    State.enterSafe f s f = ((s.safeShown f).setEvt BLK_SI 1).each 8 State.safeAxis :=
  if_neg (by rw [stat_logged, h]; exact Bool.false_ne_true)

theorem enterSafe_adds (f : FaultIn) (h : s.bit SI_STAT SI_STAT_SAFE = true) :
    State.enterSafe f s f = (s.onSi fun i => { i with
      open_ := i.open_ ++ [f], lasting := i.lasting || lastingCode f.code, since := s.now,
      rearm := .none }).setFld SI_STAT SI_STAT_REARM 0 :=
  if_pos (by rw [stat_logged, h])

/-- The danger line of a block whose one dangerous fault is `f`. -/
theorem dangerLine_one (blk : Nat) (f : FaultIn) (hd : s.si.danger = [f]) (hb : codeBlk f.code = blk) :
    s.dangerLine blk = State.enterSafe f (s.onSi fun i => { i with danger := [] }) f := by
  have hfirst : ((s.si.danger.find? (·.safe)).getD f) = f := by
    rw [hd, List.find?_cons]
    cases f.safe <;> rfl
  unfold State.dangerLine
  dsimp only
  rw [show s.si.danger.filter (fun f => codeBlk f.code == blk) = [f] by simp [hd, hb]]
  simp only [List.foldl_cons, List.foldl_nil, hfirst]
  rw [show (s.onSi fun i => { i with danger := i.danger.filter fun f => codeBlk f.code != blk }) =
    s.onSi fun i => { i with danger := [] } by simp [State.onSi, hd, hb]]

theorem dangerLine_none (blk : Nat) (h : ∀ f ∈ s.si.danger, codeBlk f.code ≠ blk) : s.dangerLine blk = s := by
  unfold State.dangerLine
  dsimp only
  rw [List.filter_eq_nil_iff.2 (by simpa using h), List.foldl_nil, State.onSi,
    List.filter_eq_self.2 (by simpa using h)]

/-- The safe state is entered, in the words of the statement. -/
theorem enterSafe_shows (f : FaultIn) (h : s.bit SI_STAT SI_STAT_SAFE = false) :
    let t := State.enterSafe f s f
    t.bit SI_STAT SI_STAT_SAFE = true ∧ t.bit SI_STAT SI_STAT_ENA_PAD = false ∧
      t.bit SI_STAT SI_STAT_ENB_PAD = true ∧ t.fld SI_HUBPERM SI_HUBPERM_PERM = 0 ∧
      t.fld SI_CAUSE SI_CAUSE_CODE = f.code.toNat ∧ t.fld SI_CAUSE SI_CAUSE_INST = f.inst.toNat ∧
      EventSet t BLK_SI 1 ∧ t.mem = s.mem ∧
      t.si = { s.si with
        open_ := s.si.open_ ++ [f], lasting := s.si.lasting || lastingCode f.code, since := s.now, rearm := .none,
        enable := false, safeN := false, armed := false } ∧
      ∀ a, a < 8 → s.reg SI_AXACT = 0x5555 → (s.axAt a).run ≠ .idle → (t.axAt a).run = .stop := by
  intro t
  obtain ⟨b1, b2, b3⟩ := safeShown_bits s f
  obtain ⟨c1, c2, c3⟩ := safeShown_cause s f
  obtain ⟨d1, d2, d3⟩ := safeShown_rest s f
  have hact := safeShown_action s f
  have ht : t = ((s.safeShown f).setEvt BLK_SI 1).each 8 State.safeAxis := enterSafe_enters s f h
  clear_value t
  generalize s.safeShown f = u at *
  have hev : EventSet (u.setEvt BLK_SI 1) BLK_SI 1 := setEvt_eventSet _ _ _ (by decide)
  have hq := setEvt_quiet u BLK_SI 1
  have hreg : ∀ off, off ∉ reportRegs [BLK_SI] → (u.setEvt BLK_SI 1).reg off = u.reg off :=
    fun off ho => reg_setEvt_of_notMem _ _ _ _ ho
  have hsi := setEvt_si u BLK_SI 1
  obtain ⟨k1, k2, k3, -, k5⟩ := safeAxes (u.setEvt BLK_SI 1) 8 (Nat.le_refl 8)
  rw [← ht] at k1 k2 k3 k5
  generalize u.setEvt BLK_SI 1 = w at *
  have hfld : ∀ off g, off ≠ LC_STAT → off < 0x1300000 → off ∉ reportRegs [BLK_SI] → t.fld off g = u.fld off g :=
    fun off g h1 h2 h3 => congrArg (fldGet g) ((k1 off h1 h2).trans (hreg off h3))
  have hstat : ∀ g, t.fld SI_STAT g = u.fld SI_STAT g := fun g => hfld _ _ (by decide) (by decide) siStat_notMem
  have hcause : ∀ g, t.fld SI_CAUSE g = u.fld SI_CAUSE g :=
    fun g => hfld _ _ (by decide) (by decide) (by decide)
  refine ⟨?_, ?_, ?_, (hfld _ _ (by decide) (by decide) (by decide)).trans c1, (hcause _).trans c2, (hcause _).trans c3,
    hev.of_reg (k1 _ (by decide) (by decide)), k3.trans (hq.mem.trans d1), k2.trans (hsi.trans d3),
    fun a ha hx hr => k5 a ha ?_ ?_⟩
  · unfold State.bit at b1 ⊢
    rw [hstat, b1]
  · unfold State.bit at b2 ⊢
    rw [hstat, b2]
  · unfold State.bit at b3 ⊢
    rw [hstat, b3]
  · rw [hreg _ (by decide), hact, hx]
  · rw [axAt_of_mx (hq.mx.trans d2)]
    exact hr

end

/-! ### Release -/

section
variable (s : State)

/-- The release of cuts writes FS_HSTAT only. -/
theorem releaseCuts_keeps : s.releaseCuts = { s with regs := s.releaseCuts.regs } ∧
    ∀ off, (∀ k, off ≠ FS_HSTAT k) → s.releaseCuts.reg off = s.reg off := by
  unfold State.releaseCuts
  generalize 16 = n
  induction n with
  | zero => exact ⟨rfl, fun _ _ => rfl⟩
  | succ n ih =>
    rw [each_succ]
    generalize s.each n _ = u at ih ⊢
    split
    · exact ⟨by conv_lhs => rw [ih.1]
                rfl, fun off ho => (reg_setFld_other _ _ _ _ _ (ho n)).trans (ih.2 off ho)⟩
    · exact ih

theorem si_ne_FS_HSTAT (k : Nat) {off : Nat} (h : off < 0x300000) : off ≠ FS_HSTAT k := by
  unfold FS_HSTAT
  omega

/-- The faults that are still open when the key is written: `w` is the state the cuts of which are released. -/
def State.stillOpen (w : State) : List FaultIn :=
  w.si.open_.filter fun f => !w.draw.2.faultCleared (Config.freeBit w.draw.1 0) f

/-- The state in which a release of the key is judged. -/
def State.safeJudged (s : State) : State :=
  s.releaseCuts.draw.2.onSi fun i => { i with open_ := s.releaseCuts.stillOpen }

theorem safeRelWrite_eq (hr : s.si.running = true) (hs : s.bit SI_STAT SI_STAT_SAFE = true) :
    s.safeRelWrite 0x5AFE =
      if s.safeJudged.si.open_.isEmpty && !s.safeJudged.si.lasting then
        ((((s.safeJudged.onSi fun i => { i with rearm := .release, rearmAt := s.safeJudged.now }).setFld SI_STAT
          SI_STAT_SAFE 0).setFld SI_STAT SI_STAT_REARM 1).setEvt BLK_SI 2).fault 0x0088 0xFF 0
      else s.safeJudged.fault 0x0088 0xFF 1 :=
  (if_neg (by simp [hr])).trans (if_neg (by simp [hs]))

theorem safeJudged_keeps : s.safeJudged.si = { s.si with open_ := s.releaseCuts.stillOpen } ∧
    s.safeJudged.now = s.now ∧ s.safeJudged.reg SI_STAT = s.reg SI_STAT := by
  obtain ⟨h, hr⟩ := releaseCuts_keeps s
  have hstat := hr SI_STAT fun k => si_ne_FS_HSTAT k (by decide)
  unfold State.safeJudged
  generalize s.releaseCuts.stillOpen = l
  generalize s.releaseCuts = u at *
  have hsi : u.si = s.si := by rw [h]
  have hnow : u.now = s.now := by rw [h]
  refine ⟨?_, hnow, hstat⟩
  show { u.si with open_ := l } = _
  rw [hsi]

theorem stillOpen_of_lasting {f : FaultIn} (hf : f ∈ s.si.open_)
    (h : lastingCode f.code = true ∨ eventCleared f.code = true) : f ∈ s.releaseCuts.stillOpen := by
  have ho : s.releaseCuts.si.open_ = s.si.open_ := by rw [(releaseCuts_keeps s).1]
  refine List.mem_filter.2 ⟨ho ▸ hf, ?_⟩
  unfold State.faultCleared
  rw [if_pos (by simpa using h)]
  rfl

theorem stillOpen_nil (h : s.si.open_ = []) : s.releaseCuts.stillOpen = [] := by
  have ho : s.releaseCuts.si.open_ = [] := by rw [(releaseCuts_keeps s).1, h]
  unfold State.stillOpen
  rw [ho, List.filter_nil]

/-- A release is refused while a fault stands. -/
theorem safeRelWrite_refused (hr : s.si.running = true) (hs : s.bit SI_STAT SI_STAT_SAFE = true)
    (h : s.si.lasting = true ∨ ∃ f ∈ s.si.open_, lastingCode f.code = true ∨ eventCleared f.code = true) :
    let t := s.safeRelWrite 0x5AFE
    t.bit SI_STAT SI_STAT_SAFE = true ∧ t.si.enable = s.si.enable ∧ Reported s t 0x0088 0xFF 1 := by
  intro t
  obtain ⟨k1, -, k3⟩ := safeJudged_keeps s
  have ht : t = s.safeJudged.fault 0x0088 0xFF 1 := (safeRelWrite_eq s hr hs).trans (if_neg fun e => by
    rw [k1] at e
    simp only [Bool.and_eq_true, List.isEmpty_iff, Bool.not_eq_true'] at e
    rcases h with h | ⟨f, hf, hc⟩
    · simp [h] at e
    · exact absurd (stillOpen_of_lasting s hf hc) (by rw [e.1]; simp))
  rw [ht]
  have hk : Frame s.safeJudged (s.safeJudged.fault 0x0088 0xFF 1) [] [] := (Frame.refl _ _ _).fault
  refine ⟨?_, ?_, fault_reportedFrom _ _ _ (by rw [k1])⟩
  · unfold State.bit State.fld at hs ⊢
    rw [hk.reg (by simp) siStat_notMem_nil, k3]
    exact hs
  · rw [hk.1.si_enable, k1]

/-- A release with every fault cleared leaves the safe state, and starts the delay of REARM. -/
theorem safeRelWrite_leaves (hr : s.si.running = true) (hs : s.bit SI_STAT SI_STAT_SAFE = true)
    (hl : s.si.lasting = false) (ho : s.si.open_ = []) :
    let t := s.safeRelWrite 0x5AFE
    t.bit SI_STAT SI_STAT_SAFE = false ∧ t.bit SI_STAT SI_STAT_REARM = true ∧ t.si.rearm = .release ∧
      t.si.rearmAt = s.now ∧ t.si.enable = s.si.enable ∧ EventSet t BLK_SI 2 ∧ Reported s t 0x0088 0xFF 0 := by
  intro t
  obtain ⟨k1, k2, -⟩ := safeJudged_keeps s
  rw [stillOpen_nil s ho] at k1
  have ht := (safeRelWrite_eq s hr hs).trans (if_pos (by rw [k1]; simp [hl]))
  have ht' : t = _ := ht
  rw [k2] at ht'
  clear ht
  clear_value t
  generalize hv : (s.safeJudged.onSi fun i => { i with rearm := .release, rearmAt := s.now }).setFld SI_STAT
    SI_STAT_SAFE 0 = v at *
  have hvsi : v.si = { s.safeJudged.si with rearm := .release, rearmAt := s.now } := hv ▸ rfl
  rw [k1] at hvsi
  have hsafe : v.bit SI_STAT SI_STAT_SAFE = false := hv ▸ bit_setFld_same _ SI_STAT SI_STAT_SAFE false rfl (by decide)
  clear hv
  generalize hw : v.setFld SI_STAT SI_STAT_REARM 1 = w at *
  have hwsi : w.si = v.si := hw ▸ rfl
  have hsafe' : w.bit SI_STAT SI_STAT_SAFE = false := by
    rw [← hw]
    unfold State.bit at hsafe ⊢
    rw [fld_setFld_field _ _ _ _ _ (by decide), hsafe]
  have hre : w.bit SI_STAT SI_STAT_REARM = true := hw ▸ bit_setFld_same _ SI_STAT SI_STAT_REARM true rfl (by decide)
  clear hw
  have hk : Frame w t [] [BLK_SI] := ht' ▸ ((Frame.refl _ _ _).setEvt (by simp)).fault
  have hf : ∀ g, t.fld SI_STAT g = w.fld SI_STAT g := fun g => hk.fld g (by simp) siStat_notMem
  refine ⟨?_, ?_, ?_, ?_, ?_, ?_, ?_⟩
  · unfold State.bit at hsafe' ⊢
    rw [hf, hsafe']
  · unfold State.bit at hre ⊢
    rw [hf, hre]
  · rw [hk.1.si_rearm, hwsi, hvsi]
  · rw [hk.1.si_rearmAt, hwsi, hvsi]
  · rw [hk.1.si_enable, hwsi, hvsi]
  · exact ht' ▸ (setEvt_eventSet _ _ _ (by decide)).fault _ _ _
  · exact ht' ▸ fault_reportedFrom _ _ _ (by rw [setEvt_si, hwsi, hvsi])

/-! ### The enables rise -/

section
variable {s t : State}

/-- What calls for inhibit is read from the gating inputs. -/
theorem inhibitNow_congr (h : ∀ off, off ≠ SI_STAT → t.reg off = s.reg off) (hf : t.fs = s.fs) :
    t.inhibitNow = s.inhibitNow := by
  have hcfg : ∀ n, t.reg (GATE_CFG n) = s.reg (GATE_CFG n) := fun n => h _ (by unfold GATE_CFG SI_STAT; omega)
  have hstat : t.reg GATE_STAT = s.reg GATE_STAT := h _ (by decide)
  have hpair : t.reg SI_PAIR = s.reg SI_PAIR := h _ (by decide)
  have hact : t.pairActive = s.pairActive := by
    funext j
    simp only [State.pairActive, State.rbit, State.fld, hstat, hpair, hf]
  simp only [State.inhibitNow, State.inhibitGate, State.safeReq, hact, State.gateActive, State.gateFunc,
    State.bit, State.rbit, State.fld, hcfg, hstat, hf]
end

/-- A review that finds no inhibit and none before only sets the permits. -/
theorem siReview_free (hr : s.si.running = true) (hi : s.bit SI_STAT SI_STAT_INHIBIT = false)
    (hn : s.inhibitNow = false) : s.siReview =
      (s.setFld SI_STAT SI_STAT_INHIBIT 0).setFld SI_HUBPERM SI_HUBPERM_PERM
        (s.setFld SI_STAT SI_STAT_INHIBIT 0).permitMask := by
  unfold State.siReview
  rw [if_neg (by simp [hr])]
  simp only [hn, hi]
  rfl

/-- Raising the enables where no inhibit holds them. -/
theorem raiseEnables_raises (hr : s.si.running = true) (hi : s.bit SI_STAT SI_STAT_INHIBIT = false)
    (hn : s.inhibitNow = false) :
    s.raiseEnables.si = { s.si with enable := true, enbLast := none, enbTime := s.now } ∧
      s.raiseEnables.bit SI_STAT SI_STAT_ENA_PAD = true ∧
      s.raiseEnables.bit SI_STAT SI_STAT_REARM = s.bit SI_STAT SI_STAT_REARM ∧
      ∀ u, siOnly u s [SI_STAT, SI_HUBPERM] → siOnly u s.raiseEnables [SI_STAT, SI_HUBPERM] := by
  have hraise : s.raiseEnables = (s.setEnable true).siReview := by
    unfold State.raiseEnables
    rw [if_neg (by simp [hr, hi])]
  have hv := setEnable_true s
  have hpad : (s.setEnable true).bit SI_STAT SI_STAT_ENA_PAD = true := by
    rw [hv, bit_onSi]
    exact bit_setFld_same _ SI_STAT SI_STAT_ENA_PAD true rfl (by decide)
  have hfld : ∀ g, g.lo + g.w ≤ SI_STAT_ENA_PAD.lo ∨ SI_STAT_ENA_PAD.lo + SI_STAT_ENA_PAD.w ≤ g.lo →
      (s.setEnable true).fld SI_STAT g = s.fld SI_STAT g := fun g hg => by
    rw [hv, fld_onSi, fld_setFld_field _ _ _ _ _ hg, fld_onSi]
  have hsi : (s.setEnable true).si = { s.si with enable := true, enbLast := none, enbTime := s.now } := by
    rw [hv]
    rfl
  have honly : ∀ u, siOnly u s [SI_STAT, SI_HUBPERM] → siOnly u (s.setEnable true) [SI_STAT, SI_HUBPERM] :=
    fun u h => by
      rw [hv]
      exact siOnly_onSi _ (siOnly_setFld (siOnly_onSi _ h) (by simp))
  have hinh : (s.setEnable true).inhibitNow = false := by
    refine (inhibitNow_congr (fun off ho => ?_) (by rw [hv]; rfl)).trans hn
    rw [hv, reg_onSi, reg_setFld_other _ _ _ _ _ ho, reg_onSi]
  have hrev := siReview_free (s := s.setEnable true) (by rw [hsi]; exact hr)
    (by unfold State.bit at hi ⊢; rw [hfld _ (by decide), hi]) hinh
  rw [hraise, hrev]
  clear hraise hrev hv
  generalize s.setEnable true = v at *
  generalize (v.setFld SI_STAT SI_STAT_INHIBIT 0).permitMask = m
  refine ⟨hsi, ?_, ?_, fun u h => siOnly_setFld (siOnly_setFld (honly u h) (by simp)) (by simp)⟩
  · unfold State.bit at hpad ⊢
    rw [fld_setFld_other _ _ _ _ _ _ (by decide), fld_setFld_field _ _ _ _ _ (by decide), hpad]
  · unfold State.bit
    rw [fld_setFld_other _ _ _ _ _ _ (by decide), fld_setFld_field _ _ _ _ _ (by decide), hfld _ (by decide)]

/-! ### The commands of the release -/

/-- The enables rise at the end of REARM. -/
theorem rearm_raises (hi : s.bit SI_STAT SI_STAT_INHIBIT = false)
    (hn : s.inhibitNow = false) (f : SiSt → SiSt) (hf : (f s.si).running = true) :
    let t := ((s.onSi f).setFld SI_STAT SI_STAT_REARM 0).raiseEnables
    t.si = { f s.si with enable := true, enbLast := none, enbTime := s.now } ∧
      t.bit SI_STAT SI_STAT_ENA_PAD = true ∧ t.bit SI_STAT SI_STAT_REARM = false ∧
      siOnly s t [SI_STAT, SI_HUBPERM] := by
  intro t
  have hinh : ((s.onSi f).setFld SI_STAT SI_STAT_REARM 0).inhibitNow = false :=
    (inhibitNow_congr (fun off ho => reg_setFld_other _ _ _ _ _ ho) rfl).trans hn
  have hbit : ((s.onSi f).setFld SI_STAT SI_STAT_REARM 0).bit SI_STAT SI_STAT_INHIBIT = false := by
    unfold State.bit at hi ⊢
    rw [fld_setFld_field _ _ _ _ _ (by decide), fld_onSi, hi]
  have hre : ((s.onSi f).setFld SI_STAT SI_STAT_REARM 0).bit SI_STAT SI_STAT_REARM = false :=
    bit_setFld_same _ SI_STAT SI_STAT_REARM false rfl (by decide)
  obtain ⟨k1, k2, k3, k4⟩ := raiseEnables_raises ((s.onSi f).setFld SI_STAT SI_STAT_REARM 0) hf hbit hinh
  exact ⟨k1, k2, k3.trans hre, k4 s (siOnly_setFld (siOnly_onSi _ (siOnly_refl _ _)) (by simp))⟩

theorem rearm_inhibit (hr : s.si.running = true) (h : s.si.rearm = .inhibit) (h1 : s.si.since + s.rearmTicks ≤ s.now)
    (hn : s.inhibitNow = false) : exec .rearm s =
      .next ((s.onSi fun i => { i with rearm := .none }).setFld SI_STAT SI_STAT_REARM 0).raiseEnables := by
  show Host.Outcome.next (if _ then _ else _) = _
  rw [if_neg (by simp [hr]), h]
  exact congrArg Host.Outcome.next (if_neg (by simp [hn]; omega))

theorem rearm_release (hr : s.si.running = true) (h : s.si.rearm = .release) (h1 : s.si.rearmAt + s.rearmTicks ≤ s.now)
    (h2 : s.si.since + s.rearmTicks ≤ s.now) : exec .rearm s =
      .next ((s.onSi fun i => { i with rearm := .none, armed := true, safeN := !i.wdgTrip, enbLatch := false }).setFld
        SI_STAT SI_STAT_REARM 0).raiseEnables := by
  show Host.Outcome.next (if _ then _ else _) = _
  rw [if_neg (by simp [hr]), h]
  dsimp only
  rw [if_neg (by omega)]
  refine congrArg Host.Outcome.next (if_neg fun e => ?_)
  obtain ⟨-, e⟩ := Bool.and_eq_true_iff.1 e
  exact absurd (of_decide_eq_true e) (Nat.not_lt.2 h2)

theorem dangerousFaultClears_eq (c : BitVec 16) (i : BitVec 8) (h : eventCleared c = true) :
    exec (.dangerousFaultClears c i) s = .next (if (if c = 0x3045 then s.reg CK_SUP == 0 && decide (s.ck.supAt + ticksMs ≤ s.now)
        else if c = 0x3044 then !s.ck.bothXtal
        else if c = 0x3505 then s.wiresAgree i.toNat
        else if c = 0x3086 then s.pairAgrees i.toNat && decide (s.si.pairAt.get 0 i.toNat + s.pairTicks ≤ s.now)
        else true) = true then
      s.onSi fun x => { x with open_ := x.open_.filter fun f => f.code != c || f.inst != i } else s) :=
  congrArg Host.Outcome.next (if_neg (by simp [h]))

end

/-- Settles O55: the safe state is entered by a danger line, and left by a release and the delay of REARM. -/
theorem theSafeStateIsEnteredAndLeft : Obligations.TheSafeStateIsEnteredAndLeft := by
  refine ⟨fun s blk f hd hb hs => ?_, fun s blk f hd hb hs => ?_, fun s blk h =>
    congrArg Host.Outcome.next (dangerLine_none s _ h), fun s v => ⟨fun h => congrArg Host.Outcome.next (if_pos h),
      fun hr hs => ?_, fun hr hs h => ⟨_, rfl, safeRelWrite_refused s hr hs h⟩,
      fun hr hs hl ho => ⟨_, rfl, safeRelWrite_leaves s hr hs hl ho⟩⟩, fun s => ⟨?_, ?_, ?_, ?_, ?_, ?_, ?_, ?_⟩,
    fun s c i => ⟨?_, ?_, ?_, ?_, ?_, ?_⟩⟩
  · refine ⟨_, congrArg Host.Outcome.next (dangerLine_one s _ f hd hb), ?_⟩
    obtain ⟨k1, k2, k3, k4, k5, k6, k7, k8, k9, k10⟩ :=
      enterSafe_shows (s.onSi fun i => { i with danger := [] }) f hs
    refine ⟨k1, ?_, ?_, ?_, ?_, ?_, k2, k3, k4, k5, k6, k7, k8, k10⟩ <;> rw [k9] <;> rfl
  · refine ⟨_, congrArg Host.Outcome.next (dangerLine_one s _ f hd hb), ?_⟩
    have hs' : (s.onSi fun i => { i with danger := [] }).bit SI_STAT SI_STAT_SAFE = true := hs
    rw [enterSafe_adds _ f hs']
    refine ⟨?_, rfl, rfl, rfl, siOnly_setFld (siOnly_onSi _ (siOnly_onSi _ (siOnly_refl _ _))) (by simp)⟩
    rw [stat_logged, hs']
  · exact ⟨_, congrArg Host.Outcome.next ((if_neg (by simp [hr])).trans (if_pos (by simp [hs]))),
      (Frame.refl _ _ _).fault, fault_reported _ _ _ _⟩
  · intro h
    rcases h with h | h
    · show Host.Outcome.next (if _ then _ else _) = _
      rw [h, ite_self]
    · exact congrArg Host.Outcome.next (if_pos h)
  · intro h hlt
    show Host.Outcome.next (if _ then _ else _) = _
    rw [h]
    dsimp only
    rw [if_pos hlt, ite_self]
  · intro h hlt
    show Host.Outcome.next (if _ then _ else _) = _
    rw [h]
    dsimp only
    rw [if_pos hlt, ite_self]
  · intro h h1 h2 hr hi
    show Host.Outcome.next (if _ then _ else _) = _
    rw [if_neg (by simp [hr]), h]
    dsimp only
    rw [if_neg (by omega)]
    exact congrArg Host.Outcome.next (if_pos (Bool.and_eq_true_iff.2 ⟨by simp [hi], decide_eq_true h2⟩))
  · intro h h1 hi hr hn
    obtain ⟨k1, k2, k3, k4⟩ := rearm_raises s hi hn (fun i => { i with rearm := .none }) hr
    exact ⟨_, rearm_inhibit s hr h h1 hn, by rw [k1], by rw [k1], by rw [k1], k2, k3, k4⟩
  · intro h h1 h2 hi hr hn
    obtain ⟨k1, k2, k3, k4⟩ := rearm_raises s hi hn
      (fun i => { i with rearm := .none, armed := true, safeN := !i.wdgTrip, enbLatch := false }) hr
    exact ⟨_, rearm_release s hr h h1 h2, by rw [k1], by rw [k1], by rw [k1], k2, k3, k4⟩
  · intro hr ha hs h hd hn hi hle
    obtain ⟨k1, k2, -, k4⟩ := raiseEnables_raises
      (s.onSi fun i => { i with armed := true, safeN := true, enbLatch := false }) hr hi hn
    exact ⟨_, congrArg Host.Outcome.next (if_pos (by simp [hr, ha, hs, h, hd, hn, hle])), by rw [k1]; rfl,
      by rw [k1]; rfl, by rw [k1], k2, k4 s (siOnly_onSi _ (siOnly_refl _ _))⟩
  · intro h
    exact congrArg Host.Outcome.next (if_neg (by simp [h]))
  · intro h
    rw [dangerousFaultClears_eq s c i (by rcases h with rfl | rfl | rfl <;> rfl)]
    rcases h with rfl | rfl | rfl <;> rfl
  · rintro rfl
    rw [dangerousFaultClears_eq s _ i rfl]
    cases s.ck.bothXtal <;> rfl
  · rintro rfl
    rw [dangerousFaultClears_eq s _ i rfl, if_pos rfl]
    exact congrArg Host.Outcome.next (if_congr (by simp) rfl rfl)
  · rintro rfl
    rw [dangerousFaultClears_eq s _ i rfl]
    exact congrArg Host.Outcome.next (if_congr (by simp) rfl rfl)
  · rintro rfl hi
    rw [dangerousFaultClears_eq s _ i rfl]
    exact congrArg Host.Outcome.next (if_congr (by simp [State.wiresAgree, and_assoc]) rfl rfl)
  · intro h
    exact congrArg Host.Outcome.next (if_pos (by simp [h]))

end Sys2Proof.Machine

/-!
States whose DRAM holds a migration to a rank that no channel has: what the statements say of writes to DRAM fails there (O13, O17, O36, O37, O38, O42, O44, O46, O56).
-/

namespace Sys2Proof.Machine

/-! ### What a command leaves, on one state -/

/-- A register in the state that a command leaves. -/
def regAfter (i : Instr) (s : State) (off : Nat) : Option Word :=
  match exec i s with
  | .next t => some (t.reg off)
  | _ => none

theorem regAfter_next {i : Instr} {s t : State} (h : exec i s = .next t) (off : Nat) :
    regAfter i s off = some (t.reg off) := by
  unfold regAfter
  rw [h]

/-- A register that a command keeps. -/
theorem regAfter_kept {i : Instr} {s t : State} {off : Nat} {v : Word} (run : exec i s = .next t)
    (after : regAfter i s off = some v) (kept : t.reg off = s.reg off) : s.reg off = v := by
  rw [regAfter_next run, kept] at after
  exact Option.some.inj after

/-- A write of memory leaves the registers outside its lists. -/
theorem MemFrame.reg {s s' t : State} {l blks : List Nat} {off : Nat} (h : MemFrame s' t l blks)
    (hs : s'.regs = s.regs) (ho : off ∉ (l ++ dramRegs) ++ reportRegs blks) : t.reg off = s.reg off :=
  (h.2 off ho).trans (reg_of_regs (by exact hs) off)

/-! ### A migration to a rank that no channel has

Its target is the fourth beyond the last that MC_RK_STAT holds, where MC_TRN_CMD stands: a write that meets it changes
that register, which is none of those that an access to DRAM may change (`dramRegs`). -/

/-- Channel 0 migrates rank 0 to a rank. -/
def State.migratesTo (s : State) (dst : Nat) : State :=
  { s with mc := { s.mc with chans := [(0, { ChanSt.reset with mig := some { src := 0, dst := dst, copied := 0 } })] } }

/-- A state with one rank of DRAM, IP's domain awake, and in channel 0 a migration to rank 8: MC_TRN_CMD 0 holds what
in MC_RK_STAT is a rank in DRAIN. -/
def strayMigration : State :=
  (((oneRank srAwake).fldsAt [(CK_DOM 2, CK_DOM_STATE, 2)]).setReg (MC_TRN_CMD 0) 0x10).migratesTo 8

/-- A command that writes DRAM in such a state changes MC_TRN_CMD. -/
theorem stray_not_memFrame {i : Instr} {s s' t : State} {l blks : List Nat} (run : exec i s = .next t)
    (after : regAfter i s (MC_TRN_CMD 0) = some 0) (before : s.reg (MC_TRN_CMD 0) = 0x10)
    (ho : MC_TRN_CMD 0 ∉ (l ++ dramRegs) ++ reportRegs blks) (h : MemFrame s' t l blks) (hs : s'.regs = s.regs) :
    False := by
  exact absurd (before.symm.trans (regAfter_kept run after (h.reg hs ho))) (by decide)

/-- A fault record of zeros. -/
def plainRecord : FaultRec :=
  { code := 0, inst := 0, lasting := false, safe := false, loss := false, seq := 0, time := 0, ln := 0, info := 0 }

/-- A fault record waits, and its ring lies in DRAM. -/
def strayRecord : State :=
  { strayMigration.setReg SI_FR_SIZE 64 with si := { SiSt.reset with intq := [plainRecord] } }

/-- Refutes O56: the write of a record that meets a migration to a rank that no channel has changes MC_TRN_CMD. -/
theorem not_redundancyFaultsAndHeartbeats : ¬ Obligations.RedundancyFaultsAndHeartbeats := by
  rintro ⟨-, -, -, -, write, -⟩
  obtain ⟨-, written⟩ := write strayRecord plainRecord [] rfl
  obtain ⟨t, run, -, -, -, -, -, -, others⟩ := written (by decide) (by decide) (by decide)
  exact stray_not_memFrame run (by decide) (by decide) (by decide) others rfl

/-! ### The other writes of DRAM that meet it -/

/-- A header of a region of interest is due, in DRAM. -/
def strayHeader : State :=
  { strayMigration with ip := { strayMigration.ip with ctx := [(0, { PipeCtx.reset with
      rois := [(0, { RoiSt.reset with headers := [(0, [0], 0, 0)] })] })] } }

/-- Refutes O36: the header of a region of interest that meets a migration to a rank that no channel has changes
MC_TRN_CMD. -/
theorem not_imagePipesWork : ¬ Obligations.ImagePipesWork := by
  rintro ⟨-, rows⟩
  obtain ⟨-, -, -, -, header, -⟩ := rows strayHeader 0 0 0 0 (by decide)
  obtain ⟨t, run, others, -⟩ := header 0 [0] 0 0 [] rfl (by decide)
  exact stray_not_memFrame run (by decide) (by decide) (by decide) others rfl

/-- A defect record waits, and its ring lies in DRAM. -/
def strayDefect : State :=
  { strayMigration.setReg VE_REC_SIZE 128 with ve := { VeSt.reset with waiting := [Defect.blank 0 0 0] } }

/-- Refutes O37: the write of a defect record that meets a migration to a rank that no channel has changes
MC_TRN_CMD. -/
theorem not_defectRecordsAndExpectedRows : ¬ Obligations.DefectRecordsAndExpectedRows := by
  rintro ⟨records, -⟩
  obtain ⟨write, -⟩ := records strayDefect (Defect.blank 0 0 0) []
  obtain ⟨t, run, -, others, -⟩ := write (by decide) (by decide) (.inl rfl)
  exact stray_not_memFrame run (by decide) (by decide) (by decide) others rfl

/-- A line record of one sample of camera 0. -/
def strayLine : LineRec :=
  { ln := 0, cam := 0, unv := false, rgb := false, reason := 0, pad := 0, w := 1, uvr := [], seq := 0, samples := [0] }

/-- The line record is handed over, and the alignment ring lies in DRAM. -/
def strayArrival : State :=
  { strayMigration.fldsAt [(VE_CTRL, VE_CTRL_EN, 1), (VE_CAM_CFG 0, VE_CAM_CFG_EN, 1)] with
    ve := { VeSt.reset with inbox := [strayLine] } }

/-- Refutes O38: a line record whose place in DRAM meets a migration to a rank that no channel has changes
MC_TRN_CMD. -/
theorem not_rowsRegistrationAndHealth : ¬ Obligations.RowsRegistrationAndHealth := by
  rintro ⟨⟨-, arrive, -⟩, -⟩
  obtain ⟨place, -⟩ := arrive strayArrival strayLine 0 rfl (by simp) (by decide) (by decide)
  obtain ⟨t, run, others, -⟩ := place (by decide) (by decide) (by decide) (by decide)
  exact stray_not_memFrame run (by decide) (by decide) (by decide) others rfl

/-- The patrol is on, at line 0. -/
def strayPatrol : State := strayMigration.setFld MC_SR_CFG MC_SR_CFG_SCRUB 1

/-- Refutes O42: a line that the patrol corrects and writes back meets a migration to a rank that no channel has, and
MC_TRN_CMD changes. -/
theorem not_dramServesRequestsAndPatrols : ¬ Obligations.DramServesRequestsAndPatrols := by
  rintro ⟨-, patrol⟩
  obtain ⟨-, -, read⟩ := patrol strayPatrol 0
  obtain ⟨-, errors⟩ := read (by decide) (by decide) (by decide)
  obtain ⟨corrected, -⟩ := errors 0 0 [] [0] (by decide) (by decide)
  obtain ⟨t, run, -, -, -, -, others⟩ := corrected (by decide) (by decide)
  have kept := (others.reg (off := MC_TRN_CMD 0) (by decide) (by decide)).trans (rfl : _ = strayPatrol.reg (MC_TRN_CMD 0))
  have after : regAfter (.scrub 0 (.errors [0])) strayPatrol (MC_TRN_CMD 0) = some 0 := by decide
  exact absurd (regAfter_kept run after kept) (by decide)

/-- Refutes O44: a host write that waits for a migration to a rank that no channel has changes MC_TRN_CMD. -/
theorem not_hostWindowsReachTheDevice : ¬ Obligations.HostWindowsReachTheDevice := by
  rintro ⟨windows, -⟩
  obtain ⟨write, -⟩ := windows strayMigration .bar4 0 [0] 1 (by decide)
  obtain ⟨-, -, waits⟩ := write (by decide) (by decide) (by decide)
  obtain ⟨u, hu⟩ := Option.isSome_iff_exists.1
    (by decide : (strayMigration.hostStall .bar4 (strayMigration.barAddr .bar4 0) 1 true).isSome = true)
  obtain ⟨t, run, -, others, -⟩ := waits u hu
  exact stray_not_memFrame run (by decide) (by decide) (by decide) others rfl

/-! ### A status write of a DMA channel that meets it -/

/-- A descriptor of one byte that reads host memory. -/
def hostCopy : DmaDesc :=
  { src := 0x800000000000, dst := 0, slen := 1, sstride := 0, scnt := 1, dlen := 1, dstride := 0, dcnt := 1, irq := false,
    rbk := false, ns := false, hint := 0, fill := false, cven := false, cvu := 0 }

/-- Channel 0 reads host memory, its descriptor lies in DRAM, and the migration's target is the rank whose state would
stand in HI_CNT 1. -/
def strayStatus : State :=
  let s := (((oneRank srAwake).setReg (HI_CNT 1) 0xF).setFld (CH_STAT 0) CH_STAT_STATE chRun).migratesTo 261137
  { s with dma := [(0, { DmaCh.reset with desc := some hostCopy })] }

/-- Refutes O46: the status write of a descriptor whose completion came poisoned meets a migration to a rank that no
channel has, and the count of poisoned completions changes. -/
theorem not_dmaChannelsWork : ¬ Obligations.DmaChannelsWork := by
  rintro ⟨-, run, -, -⟩
  obtain ⟨-, -, -, fails, -⟩ := run strayStatus 0 (by decide)
  obtain ⟨t, run, -, -, poisoned⟩ := fails .poisoned (by decide)
  rw [if_pos rfl] at poisoned
  obtain ⟨-, counted, -⟩ := poisoned
  have after : regAfter (.completionTimeout ⟨0, .poisoned⟩) strayStatus (HI_CNT 1) = some 0 := by decide
  rw [regAfter_next run, counted] at after
  exact absurd after (by decide)

end Sys2Proof.Machine

namespace Sys2Proof.Machine

/-! ### A store and a cache instruction that meet it -/

/-- The Sagger stores a byte at DRAM address 0, an access that the scheduler has granted. -/
def straySagStore : State :=
  { strayMigration with
    sg := { IsSt.reset with running := true, pc := 0x0A600000, g := [(1, 0x20000000)] }
    mc := { strayMigration.mc with granted :=
      [{ port := 4, src := 4, chan := 0, addr := 0, hint := .none, op := .hold 1 true, since := none }] } }

/-- Refutes O13: the performance of a granted store wakes the ranks that it meets, and with a migration to a rank that
no channel has MC_TRN_CMD changes. -/
theorem not_storesWriteTheirBytes : ¬ Obligations.StoresWriteTheirBytes := by
  rintro ⟨⟨-, stores⟩, -, -⟩
  obtain ⟨-, dram, -⟩ := stores straySagStore .sg 0 1 0 ⟨by decide, by decide⟩
  obtain ⟨t, run, -, others, -⟩ := dram rfl (by decide) (by decide) (by decide) (by decide) (by decide)
  have after : regAfter (.sb .sg 0 1 0) straySagStore (MC_TRN_CMD 0) = some 0 := by decide
  exact absurd (regAfter_kept run after (others (MC_TRN_CMD 0) (by decide))) (by decide)

/-- A dirty line of DRAM, of zeros. -/
def zeroLine : CacheLine := { addr := 0, bytes := List.replicate 64 0, dirty := true, cores := [0] }

/-- Control core 0 writes back a dirty line of DRAM. -/
def strayDirty : State :=
  { strayMigration.cc0 { ccRuns with g := [(1, 0x20000000)] } with
    dcache := [zeroLine] }

/-- Refutes O17: a line that is written back waits for a migration to a rank that no channel has, and MC_TRN_CMD
changes. -/
theorem not_cacheMaintenance : ¬ Obligations.CacheMaintenance := by
  rintro ⟨-, ops⟩
  obtain ⟨cached, -⟩ := ops strayDirty 0 1 ⟨by decide, by decide⟩
  obtain ⟨dirty, -⟩ := cached (by decide) (by decide) (by decide)
  obtain ⟨⟨t, run, ⟨-, -, -, -, others, -⟩, -⟩, -⟩ := dirty zeroLine (by decide) rfl rfl
  have after : regAfter (.dcwb (.cc 0) 1) strayDirty (MC_TRN_CMD 0) = some 0 := by decide
  exact absurd (regAfter_kept run after (others (MC_TRN_CMD 0) (by decide))) (by decide)

end Sys2Proof.Machine

/-!
Refuted: reads of images by BOOT and by ST that meet a stray migration (R464, R470, R446).
-/

namespace Sys2Proof.Machine

/-! ### Reads of DRAM that meet it -/

/-- Such a migration has copied its rank, so that reads go to its target; the first line is poisoned. -/
def strayTarget : State :=
  { strayMigration with poison := [(0, true)], mc := { strayMigration.mc with chans :=
    [(0, { ChanSt.reset with mig := some { src := 0, dst := 8, copied := 2 ^ 40 } })] } }

/-- Refutes O57: the read of a control-core image that meets a migration to a rank that no channel has changes
MC_TRN_CMD. -/
theorem not_unitsAreTestedAndReplaced : ¬ Obligations.UnitsAreTestedAndReplaced := by
  rintro ⟨⟨-, commands⟩, -⟩
  obtain ⟨-, -, -, -, -, -, update, -⟩ := commands strayTarget 212 (by decide) (by decide)
  obtain ⟨t, run, -, -, ⟨-, others⟩, -⟩ := update (by decide) (by decide)
  have after : regAfter (.stUpdate 212) strayTarget (MC_TRN_CMD 0) = some 0 := by decide +kernel
  exact absurd (regAfter_kept run after (others (MC_TRN_CMD 0) (by decide))) (by decide)

end Sys2Proof.Machine

namespace Sys2Proof.Machine

/-- An image at address 0 of DRAM is verified. -/
def strayImage : State :=
  { strayTarget with boot := { strayTarget.boot with verify := some { op := 1, addr := 0 } } }

/-- Refutes O60: the read of an image that meets a migration to a rank that no channel has changes MC_TRN_CMD. -/
theorem not_imagesBootAndAreVerified : ¬ Obligations.ImagesBootAndAreVerified := by
  rintro ⟨-, -, -, done, -⟩
  obtain ⟨t, run, shown⟩ := done strayImage { op := 1, addr := 0 } rfl (.inl rfl)
  rw [if_pos (.inr (by decide))] at shown
  obtain ⟨-, -, -, -, -, -, -, others⟩ := shown
  have listed := others.reg (off := MC_TRN_CMD 0) (by
    rw [if_neg (fun h => absurd h.2 (by decide))]
    decide) (by decide)
  have kept : t.reg (MC_TRN_CMD 0) = strayImage.reg (MC_TRN_CMD 0) := listed.trans (reg_of_regs (by rfl) _)
  have after : regAfter .verifyDone strayImage (MC_TRN_CMD 0) = some 0 := by decide +kernel
  exact absurd (regAfter_kept run after kept) (by decide)

end Sys2Proof.Machine

/-!
The feed handshake (R110, R179, R361).
-/

namespace Sys2Proof.Machine

/-! ### The feed handshake (R110, R179, R361) -/

variable (s : State)

/-- A frame holds of states that are given the same axes. -/
theorem Frame.setMx {s t : State} {l blks : List Nat} (h : Frame s t l blks) (m : Tbl AxSt) :
    Frame { s with mx := m } { t with mx := m } l blks := by
  obtain ⟨q, r⟩ := h
  refine ⟨?_, r⟩
  unfold Quiet at q ⊢
  conv_lhs => rw [q]

/-- The line clock shows that it holds at a line. -/
def State.holdShown (s : State) (e : Nat) : State :=
  (((s.onLc fun l => { l with holdAt := some e, resuming := false }).setFld LC_STAT LC_STAT_FEED 1).setFld LC_STAT
    LC_STAT_HOLD 1).setEvt BLK_LC 5

theorem holdShown_frame (e : Nat) :
    Frame { s with lc := (s.holdShown e).lc } (s.holdShown e) [LC_STAT] [BLK_LC] := by
  have lc : (s.holdShown e).lc = { s.lc with holdAt := some e, resuming := false } := (setEvt_quiet _ _ _).lc
  rw [lc]
  exact ((Frame.refl _ _ _).setFld (List.mem_singleton.2 rfl)).setFld (List.mem_singleton.2 rfl) |>.setEvt
    (List.mem_singleton.2 rfl)

theorem holdShown_lc (e : Nat) : (s.holdShown e).lc = { s.lc with holdAt := some e, resuming := false } :=
  (setEvt_quiet _ _ _).lc

theorem lcStat_notMem : LC_STAT ∉ reportRegs [BLK_LC] := by decide

theorem holdShown_feed (e : Nat) : (s.holdShown e).fld LC_STAT LC_STAT_FEED = 1 := by
  rw [State.holdShown, State.fld, reg_setEvt_of_notMem _ _ _ _ lcStat_notMem]
  exact (fld_setFld_field _ _ _ _ _ (by decide)).trans (fld_setFld_same _ _ _ _ (by decide))

theorem holdShown_hold (e : Nat) : (s.holdShown e).bit LC_STAT LC_STAT_HOLD = true := by
  rw [State.holdShown, State.bit, State.fld, reg_setEvt_of_notMem _ _ _ _ lcStat_notMem]
  exact bit_setFld_same _ _ _ true rfl (by decide)

theorem holdShown_event (e : Nat) : EventSet (s.holdShown e) BLK_LC 5 := setEvt_eventSet _ _ _ (by decide)

theorem holdShown_feedAxis (e : Nat) : (s.holdShown e).feedAxis = s.feedAxis := by
  unfold State.feedAxis State.lcSrc State.lcUnit
  rw [holdShown_lc]

theorem feedAxis_lt {a : Nat} (h : s.feedAxis = some a) : a < 8 := by
  unfold State.feedAxis at h
  split at h
  next hc => exact Option.some.inj h ▸ hc.2.1
  · cases h

/-- FEED_HOLD with no hold and one pending. -/
theorem feedHold_holds {e : Nat} (hn : s.lc.holdAt = none) (hp : s.feedPending (s.lc.hwm + 1).toNat = some e) :
    exec .feedHold s = .next (match s.feedAxis with
      | some a => ((s.holdShown e).setAxState a 4).setRun a .stop
      | none => s.holdShown e) := by
  change execFeedHold s = _
  unfold execFeedHold
  rw [hn, hp, ← holdShown_feedAxis s e]
  rfl

theorem feedHold_holdsAndRamps : ∀ (e : Nat), s.lc.holdAt = none → s.feedPending (s.lc.hwm + 1).toNat = some e →
    ∃ t, exec .feedHold s = .next t ∧ t.lc.holdAt = some e ∧ t.fld LC_STAT LC_STAT_FEED = 1 ∧
      t.bit LC_STAT LC_STAT_HOLD = true ∧ EventSet t BLK_LC 5 ∧
      (∀ a, s.feedAxis = some a → (t.axAt a).run = .stop ∧
        Frame { s with lc := t.lc, mx := t.mx } t [LC_STAT, AX_STAT a] [BLK_LC]) ∧
      (s.feedAxis = none → Frame { s with lc := t.lc } t [LC_STAT] [BLK_LC]) := by
  intro e hn hp
  refine ⟨_, feedHold_holds s hn hp, ?_⟩
  have frame := holdShown_frame s e
  have feed := holdShown_feed s e
  have hold := holdShown_hold s e
  have event := holdShown_event s e
  have lc : (s.holdShown e).lc.holdAt = some e := by rw [holdShown_lc]
  generalize s.holdShown e = u at *
  cases hf : s.feedAxis with
  | none => exact ⟨lc, feed, hold, event, by simp, fun _ => frame⟩
  | some a =>
    have ha := feedAxis_lt s hf
    have hne : LC_STAT ≠ AX_STAT a := by simp [LC_STAT, AX_STAT]; omega
    have he : evtReg BLK_LC ≠ AX_STAT a := by
      rw [show evtReg BLK_LC = 0x800050 from by decide]; simp [AX_STAT]; omega
    refine ⟨lc, (fld_setFld_other u _ _ _ _ _ hne).trans feed, ?_, event.setFld he, ?_, by simp⟩
    · exact (congrArg (· != 0) (fld_setFld_other u _ _ _ LC_STAT_HOLD _ hne)).trans hold
    · rintro b ⟨rfl⟩
      have wide := frame.mono (l' := [LC_STAT, AX_STAT a]) (by simp) (fun _ h => h)
      exact ⟨by rw [axAt_setRun_same], (Frame.setFld wide (List.mem_cons_of_mem _ (List.mem_singleton_self _))).setMx _⟩

/-- The stopped axis, DONE where its run has just arrived. -/
def State.stopDone (s : State) (a : Nat) : State :=
  if (s.axAt a).run = .arrived then s.axFlag a AX_FLAG_DONE else s

theorem stopDone_frame (a : Nat) : Frame s (s.stopDone a) [AX_FLAG a] [BLK_MX] := by
  unfold State.stopDone
  split
  · exact Frame.hwEvt (Frame.refl _ _ _) (List.mem_singleton_self _) (List.mem_singleton_self _)
  · exact Frame.refl _ _ _

theorem stopDone_done (a : Nat) (ha : a < 8) (h : (s.axAt a).run = .arrived) :
    (s.stopDone a).bit (AX_FLAG a) AX_FLAG_DONE = true := by
  rw [State.stopDone, if_pos h]
  exact bit_axFlag_same _ _ _ ha rfl (by decide)

theorem stopDone_backUp (a e : Nat) (ha : a < 8) : (s.stopDone a).backUp a e = s.backUp a e := by
  have frame := stopDone_frame s a
  have runup : (s.stopDone a).fld LC_RUNUP LC_RUNUP_RUNUP = s.fld LC_RUNUP LC_RUNUP_RUNUP :=
    frame.fld _ (by simp [LC_RUNUP, AX_FLAG]; omega) (by decide)
  have pos : (s.stopDone a).reg (AX_POS a) = s.reg (AX_POS a) :=
    frame.reg (by simp [AX_POS, AX_FLAG]) (ax_notMem a ha).2.2.2.1
  unfold State.backUp State.ratio
  rw [runup, pos, frame.1.lc]

theorem run_setRun (a : Nat) (r : AxRun) : ((s.setRun a r).axAt a).run = r := by rw [axAt_setRun_same]

/-- FEED_STOPPED of an axis that stands. -/
theorem feedStopped_backs {a e : Nat} (hh : s.lc.holdAt = some e) (hf : s.feedAxis = some a)
    (h1 : s.fld LC_STAT LC_STAT_FEED = 1) (hr : (s.axAt a).run = .arrived ∨ (s.axAt a).run = .idle) :
    exec .feedStopped s = .next ((((s.stopDone a).setFld LC_STAT LC_STAT_FEED 2).setAxState a 1).setRun a
      (.move 1 (s.backUp a e) false)) := by
  rw [← stopDone_backUp s a e (feedAxis_lt s hf)]
  change execFeedStopped s = _
  unfold execFeedStopped
  rw [hh, hf]
  exact congrArg Host.Outcome.next (if_pos ⟨h1, hr⟩)

/-- FEED_READY with the bands up to the hold ready. -/
theorem feedReady_resumes {e : Nat} (hh : s.lc.holdAt = some e) (h3 : s.fld LC_STAT LC_STAT_FEED = 3)
    (hw : ∀ e' ∈ s.feedWaits, e < e') :
    exec .feedReady s =
      .next { s with lc := { s.lc with resuming := true, due := none, crossed := [], moved := none } } := by
  change execFeedReady s = _
  unfold execFeedReady
  rw [hh]
  refine congrArg Host.Outcome.next (if_pos ⟨h3, ?_⟩)
  simpa using hw

/-- FEED_READY with a band up to the hold still awaited. -/
theorem feedReady_waits {e : Nat} (hh : s.lc.holdAt = some e) (hw : ∃ e' ∈ s.feedWaits, e' ≤ e) :
    exec .feedReady s = .next s := by
  change execFeedReady s = _
  unfold execFeedReady
  rw [hh]
  exact congrArg Host.Outcome.next (if_neg fun h => by
    obtain ⟨e', hm, hle⟩ := hw
    simp only [Bool.not_eq_eq_eq_not, Bool.not_true, List.any_eq_false, decide_eq_true_eq] at h
    exact h.2 e' hm hle)

/-- Settles O30. -/
theorem feedHoldsStopsAndResumes : Obligations.FeedHoldsStopsAndResumes := by
  unfold Obligations.FeedHoldsStopsAndResumes
  intro s e
  refine ⟨fun h => ?_, feedHold_holdsAndRamps s e, fun a hf hh h1 hr => ⟨_, feedStopped_backs s hh hf h1 hr, ?_⟩,
    fun hh h3 hw => ⟨_, feedReady_resumes s hh h3 hw, rfl⟩, feedReady_waits s⟩
  · change execFeedHold s = _
    unfold execFeedHold
    rw [h]
    cases s.lc.holdAt <;> rfl
  · have ha := feedAxis_lt s hf
    have hne : LC_STAT ≠ AX_STAT a := by simp [LC_STAT, AX_STAT]; omega
    have hnf : AX_FLAG a ≠ LC_STAT := by simp [LC_STAT, AX_FLAG]; omega
    have frame := (stopDone_frame s a).mono (l' := [LC_STAT, AX_STAT a, AX_FLAG a]) (by simp) (fun _ h => h)
    have shown := (Frame.setFld (f := AX_STAT_STATE) (x := 1)
      (Frame.setFld (off := LC_STAT) (f := LC_STAT_FEED) (x := 2) frame (by simp)) (off := AX_STAT a) (by simp))
    refine ⟨?_, ?_, fun h => ?_, shown.setMx _⟩
    · exact (fld_setFld_other _ _ _ _ _ _ hne).trans (fld_setFld_same _ _ _ _ (by decide))
    · exact run_setRun _ _ _
    · rw [bit_setRun, State.bit, State.setAxState, fld_setFld_other _ _ _ _ _ _ (ax_regs_ne a).1.symm,
        fld_setFld_other _ _ _ _ _ _ hnf]
      exact stopDone_done s a ha h

end Sys2Proof.Machine

/-!
The fetch of a core of the system profile, its traps, system registers, waits and interrupts (R43 to R55).
-/

namespace Sys2Proof.Machine

/-! ### What a fetch leaves (R43, R44) -/

/-- The requests that wait for DRAM are the same. -/
def SameQueue (s t : State) : Prop := t.mc.waiting = s.mc.waiting

theorem SameQueue.refl (s : State) : SameQueue s s := rfl

theorem SameQueue.trans (s t u : State) (h : SameQueue s t) (k : SameQueue t u) : SameQueue s u := Eq.trans k h

theorem burst_sameQueue (s : State) (c r line : Nat) (hint : PageHint) : SameQueue s (s.burst c r line hint) := by
  unfold State.burst
  exact SameQueue.trans _ _ _ (foldl_keeps SameQueue SameQueue.refl SameQueue.trans _
    (fun s l => (rfl : SameQueue s (s.dimmCommand c r l))) _ s) rfl

theorem issueRead_sameQueue (s : State) (chan : Nat) (hint : PageHint) (a n : Nat) :
    SameQueue s (s.issueRead chan hint a n) := by
  unfold State.issueRead
  refine foldl_keeps SameQueue SameQueue.refl SameQueue.trans _ (fun s l => ?_) _ s
  refine foldl_keeps SameQueue SameQueue.refl SameQueue.trans _ (fun s x => ?_) _ s
  dsimp only
  split
  · rfl
  · exact burst_sameQueue _ _ _ _ _

theorem dramRead_sameQueue (s : State) (port : Nat × Nat) (hint : PageHint) (a n : Nat) :
    SameQueue s (s.dramUse port hint a n false) := by
  unfold State.dramUse
  dsimp only
  split
  · split
    · rfl
    · exact issueRead_sameQueue _ _ _ _ _
  · rfl

/-- A read of DRAM that need not wait changes the controller and the pointers of its ports. -/
theorem dramRead_withDram (s : State) (port : Nat × Nat) (hint : PageHint) (a n : Nat) :
    s.dramUse port hint a n false = s.withDram (s.dramUse port hint a n false) := by
  unfold State.dramUse
  dsimp only
  split
  · split
    · rfl
    · have issued := issueRead_inMc (s.portGrant (s.homeChan (a % 2 ^ 48) false) port.1 port.2)
        (s.homeChan (a % 2 ^ 48) false) hint (a % 2 ^ 48) n
      rw [if_neg (by decide), issued]
      rfl
  · rfl

/-- A core of the system profile has fetched: but for lines of its instruction cache, only what a read does to DRAM
has changed. -/
def FetchLeaves (s t : State) (c : IsCore) : Prop :=
  t = { s.withDram t with cc := t.cc } ∧ OtherCores s t (coreOf c) ∧
    t.isAt c = { s.isAt c with icache := (t.isAt c).icache } ∧ SameQueue s t

theorem FetchLeaves.of_withDram {s t : State} (h : t = s.withDram t) (q : SameQueue s t) (c : IsCore) : FetchLeaves s t c := by
  refine ⟨?_, ?_, ?_, q⟩ <;> rw [h]
  · rfl
  · exact ⟨fun _ _ => rfl, fun _ _ => rfl, fun _ => rfl⟩
  · cases c <;> rfl

theorem FetchLeaves.line {s t : State} (h : t = s.withDram t) (q : SameQueue s t) {c : IsCore} (hc : c ≠ .sg) (l : Nat) :
    FetchLeaves s (t.onIs c fun x => { x with icache := x.icache ++ [l] }) c := by
  obtain ⟨m, p, rfl⟩ : ∃ m p, t = { s with mc := m, top := { s.top with rrPtr := p } } := ⟨t.mc, t.top.rrPtr, h⟩
  cases c with
  | sg => exact absurd rfl hc
  | cc k =>
    refine ⟨rfl, (onIs_onlyCore _ (.cc k) _).2, ?_, q⟩
    rw [onIs_isAt_same]
    rfl

/-- The fetch of an instruction's first word that raises no exception. -/
theorem fetchWord_leaves {s t : State} {c : IsCore} {pc : Word} (h : s.fetchWord c pc pc = (none, t)) :
    FetchLeaves s t c := by
  obtain ⟨stall, hstall⟩ : ∃ f, f = @State.dramStall := ⟨_, rfl⟩
  obtain ⟨fetchWord, hfetch⟩ : ∃ f, f = @State.fetchWord := ⟨_, rfl⟩
  rw [← hfetch] at h
  delta State.fetchWord at hfetch
  rw [← hstall] at hfetch
  subst hfetch
  dsimp only at h
  have read := dramRead_withDram s (4, fetchIx c) .none (s.physical c pc) 4
  have queue := dramRead_sameQueue s (4, fetchIx c) .none (s.physical c pc) 4
  split at h
  · cases h
  split at h
  · cases h
  split at h
  · rw [if_pos rfl] at h; cases h
  split at h
  · cases h; exact .of_withDram rfl (.refl s) c
  split at h
  · cases h
  split at h
  · cases h
  split at h
  next hc => cases h; exact .line read queue hc.1 _
  · cases h; exact .of_withDram read queue c

/-- The state in which an instruction of one word acts. -/
theorem fetched_leaves {s : State} {c : IsCore} {cost : Nat} (ready : Ready s (coreOf c) 1 cost) :
    FetchLeaves s (s.fetched (coreOf c) 1) c := by
  obtain ⟨-, fetched⟩ := fetch_of_ready ready
  generalize s.fetched (coreOf c) 1 = t at *
  obtain ⟨fetchWord, hword⟩ : ∃ f, f = @State.fetchWord := ⟨_, rfl⟩
  obtain ⟨fetch, hfetch⟩ : ∃ f, f = @State.fetch := ⟨_, rfl⟩
  rw [← hfetch] at fetched
  delta State.fetch at hfetch
  rw [← hword] at hfetch
  subst hfetch
  dsimp only at fetched
  split at fetched
  · cases fetched
  · next h1 =>
    rw [if_neg (by decide)] at fetched
    rw [hword] at h1
    cases fetched
    exact fetchWord_leaves h1

section
variable {s t : State} {c : IsCore} (h : FetchLeaves s t c)
include h

theorem FetchLeaves.pc : (t.isAt c).pc = (s.isAt c).pc := by rw [h.2.2.1]
theorem FetchLeaves.cycle : (t.isAt c).cycle = (s.isAt c).cycle := by rw [h.2.2.1]
theorem FetchLeaves.instret : (t.isAt c).instret = (s.isAt c).instret := by rw [h.2.2.1]
theorem FetchLeaves.cycleHi : (t.isAt c).cycleHi = (s.isAt c).cycleHi := by rw [h.2.2.1]
theorem FetchLeaves.instretHi : (t.isAt c).instretHi = (s.isAt c).instretHi := by rw [h.2.2.1]
theorem FetchLeaves.running : (t.isAt c).running = (s.isAt c).running := by rw [h.2.2.1]
theorem FetchLeaves.wfi : (t.isAt c).wfi = (s.isAt c).wfi := by rw [h.2.2.1]
theorem FetchLeaves.prior : (t.isAt c).prior = (s.isAt c).prior := by rw [h.2.2.1]
theorem FetchLeaves.sr (n : Nat) : t.sr c n = s.sr c n := by rw [State.sr, h.2.2.1, State.sr]
theorem FetchLeaves.isG (r : Nat) : t.isG c r = s.isG c r := by rw [State.isG, h.2.2.1, State.isG]
theorem FetchLeaves.corePriv : t.corePriv c = s.corePriv c := by rw [State.corePriv, h.sr, State.corePriv]
theorem FetchLeaves.now : t.now = s.now := by rw [h.1]; rfl
theorem FetchLeaves.regs : t.regs = s.regs := by rw [h.1]; rfl
theorem FetchLeaves.mem : t.mem = s.mem := by rw [h.1]; rfl
theorem FetchLeaves.poison : t.poison = s.poison := by rw [h.1]; rfl
theorem FetchLeaves.dcache : t.dcache = s.dcache := by rw [h.1]; rfl

theorem FetchLeaves.irqLevel (i : Nat) : t.irqLevel c i = s.irqLevel c i := by
  have reg : ∀ off, t.reg off = s.reg off := reg_of_regs h.regs
  cases c with
  | cc k => simp only [State.irqLevel, State.ccInput, State.evtPending, State.rbit, State.fld, reg]
  | sg => rw [State.irqLevel, State.irqLevel, h.now]

theorem FetchLeaves.irqReady (i : Nat) : t.irqReady c i = s.irqReady c i := by
  rw [State.irqReady, State.irqReady, State.irqEnabled, State.irqEnabled, h.irqLevel, h.sr]

end

/-! ### What an instruction of the system profile changes of its own core -/

/-- Nothing but the state of one core of the system profile differs. -/
def OnlyIs (s t : State) (c : IsCore) : Prop := t = { s with cc := t.cc, sg := t.sg } ∧ OtherCores s t (coreOf c)

theorem OnlyIs.refl (s : State) (c : IsCore) : OnlyIs s s c := ⟨rfl, fun _ _ => rfl, fun _ _ => rfl, fun _ => rfl⟩

theorem onIs_onlyIs (s : State) (c : IsCore) (f : IsSt → IsSt) : OnlyIs s (s.onIs c f) c :=
  ⟨by cases c <;> rfl, (onIs_onlyCore s c f).2⟩

theorem OtherCores.trans {s t u : State} {c : Core} (h : OtherCores s t c) (k : OtherCores t u c) :
    OtherCores s u c := by
  obtain ⟨xc, cc, sg⟩ := h
  obtain ⟨xc', cc', sg'⟩ := k
  exact ⟨fun y hy => (xc' y hy).trans (xc y hy), fun j hj => (cc' j hj).trans (cc j hj),
    fun hs => (sg' hs).trans (sg hs)⟩

theorem OnlyIs.trans {s t u : State} {c : IsCore} (h : OnlyIs s t c) (k : OnlyIs t u c) : OnlyIs s u c := by
  refine ⟨?_, h.2.trans k.2⟩
  conv_lhs => rw [k.1, h.1]

theorem OnlyIs.onIs {s t : State} {c : IsCore} (h : OnlyIs s t c) (f : IsSt → IsSt) : OnlyIs s (t.onIs c f) c :=
  h.trans (onIs_onlyIs t c f)

theorem OnlyIs.setIsG {s t : State} {c : IsCore} (h : OnlyIs s t c) (r : Nat) (v : Word) :
    OnlyIs s (t.setIsG c r v) c := by
  unfold State.setIsG
  split
  · exact h
  · exact h.onIs _

theorem OnlyIs.mem {s t : State} {c : IsCore} (h : OnlyIs s t c) : t.mem = s.mem := by rw [h.1]
theorem OnlyIs.dcache {s t : State} {c : IsCore} (h : OnlyIs s t c) : t.dcache = s.dcache := by rw [h.1]

section
variable (s : State) (c : IsCore)

theorem sr_onIs (f : IsSt → IsSt) (n : Nat) (h : ∀ x, (f x).sr = x.sr) : (s.onIs c f).sr c n = s.sr c n := by
  rw [State.sr, onIs_isAt_same, h, State.sr]

theorem isG_onIs (f : IsSt → IsSt) (r : Nat) (h : ∀ x, (f x).g = x.g) : (s.onIs c f).isG c r = s.isG c r := by
  rw [State.isG, onIs_isAt_same, h, State.isG]

theorem sr_jump (pc : Word) (n : Nat) : (s.onIs c fun x => { x with pc := pc }).sr c n = s.sr c n :=
  sr_onIs s c _ n fun _ => rfl

theorem isG_jump (pc : Word) (r : Nat) : (s.onIs c fun x => { x with pc := pc }).isG c r = s.isG c r :=
  isG_onIs s c _ r fun _ => rfl

/-- A system register after a write of one. -/
theorem sr_putSr (n k : Nat) (v : Word) : (s.putSr c n v).sr c k = if k = n then v else s.sr c k := by
  rw [State.putSr, State.sr, onIs_isAt_same]
  split
  next hk => subst hk; exact Tbl.get_set_same _ _ _ _
  next hk => exact Tbl.get_set_other _ _ _ _ _ _ hk

@[simp] theorem isG_putSr (n : Nat) (v : Word) (r : Nat) : (s.putSr c n v).isG c r = s.isG c r :=
  isG_onIs s c _ r fun _ => rfl

theorem isAt_putSr (n : Nat) (v : Word) :
    (s.putSr c n v).isAt c = { s.isAt c with sr := ((s.putSr c n v).isAt c).sr } := by
  rw [State.putSr, onIs_isAt_same]

@[simp] theorem sr_setIsG (r : Nat) (v : Word) (n : Nat) : (s.setIsG c r v).sr c n = s.sr c n := by
  unfold State.setIsG
  split
  · rfl
  · exact sr_onIs s c _ n fun _ => rfl

theorem isAt_setIsG (r : Nat) (v : Word) :
    (s.setIsG c r v).isAt c = { s.isAt c with g := ((s.setIsG c r v).isAt c).g } := by
  unfold State.setIsG
  split
  · rfl
  · rw [onIs_isAt_same]

@[simp] theorem sr_retire (n k : Nat) : (s.retire c k).sr c n = s.sr c n := sr_onIs s c _ n fun _ => rfl
@[simp] theorem isG_retire (r k : Nat) : (s.retire c k).isG c r = s.isG c r := isG_onIs s c _ r fun _ => rfl

theorem isAt_retire : (s.retire c 1).isAt c =
    { s.isAt c with pc := (s.isAt c).pc + 4, instret := (s.isAt c).instret + 1 } := onIs_isAt_same _ _ _

@[simp] theorem sr_notePrior (n : Nat) : (s.notePrior c).sr c n = s.sr c n := sr_onIs s c _ n fun _ => rfl
@[simp] theorem isG_notePrior (r : Nat) : (s.notePrior c).isG c r = s.isG c r := isG_onIs s c _ r fun _ => rfl

theorem isAt_notePrior : (s.notePrior c).isAt c = { s.isAt c with prior := ((s.notePrior c).isAt c).prior } := by
  rw [State.notePrior, onIs_isAt_same]

end

/-! ### Traps (R52, R53) -/

/-- The mode before a trap, as STATUS keeps it. -/
theorem trapStatus_bits (a b : Bool) :
    let v : Word := BitVec.ofNat 32 (2 * b2n a + 4 + 8 * b2n b)
    v.getLsbD 0 = false ∧ v.getLsbD 1 = a ∧ v.getLsbD 2 = true ∧ v.getLsbD 3 = b := by
  cases a <;> cases b <;> decide

section
variable (u : State) (c : IsCore) (cause : Nat) (epc eaddr : Word)

theorem trap_onlyIs : OnlyIs u (u.trap c cause epc eaddr) c := by
  unfold State.trap State.putSr
  exact (((((OnlyIs.refl u c).onIs _).onIs _).onIs _).onIs _).onIs _

theorem trap_sr (n : Nat) : (u.trap c cause epc eaddr).sr c n =
    if n = 1 then BitVec.ofNat 32 (2 * b2n ((u.sr c 1).getLsbD 0) + 4 + 8 * b2n ((u.sr c 1).getLsbD 2))
    else if n = 4 then eaddr else if n = 3 then BitVec.ofNat 32 cause else if n = 2 then epc else u.sr c n := by
  unfold State.trap
  dsimp only
  rw [sr_jump]
  simp only [sr_putSr, srStatus, srEaddr, srEcause, srEpc]

theorem trap_isG (r : Nat) : (u.trap c cause epc eaddr).isG c r = u.isG c r := by
  unfold State.trap
  dsimp only
  rw [isG_jump]
  simp only [isG_putSr]

theorem trap_isAt : (u.trap c cause epc eaddr).isAt c = { u.isAt c with
    sr := ((u.trap c cause epc eaddr).isAt c).sr, pc := u.sr c 5 + BitVec.ofNat 32 (4 * cause) } := by
  unfold State.trap
  dsimp only
  generalize hw : (((u.putSr c srEpc epc).putSr c srEcause _).putSr c srEaddr eaddr).putSr c srStatus _ = w
  have base : w.sr c srVbase = u.sr c 5 := by
    rw [← hw]
    simp only [sr_putSr]
    rfl
  have core : w.isAt c = { u.isAt c with sr := (w.isAt c).sr } := by
    rw [← hw, isAt_putSr, isAt_putSr _ _ srEaddr, isAt_putSr _ _ srEcause, isAt_putSr _ _ srEpc]
  rw [onIs_isAt_same, base, core]

end

/-- What an exception of an instruction needs of the state in which it is raised: the core as it was, but for its
instruction cache, with memory and the data caches. -/
def SameForTrap (s u : State) (c : IsCore) : Prop :=
  u.isAt c = { s.isAt c with icache := (u.isAt c).icache } ∧ u.mem = s.mem ∧ u.dcache = s.dcache ∧
    OtherCores s u (coreOf c)

theorem FetchLeaves.sameForTrap {s t : State} {c : IsCore} (h : FetchLeaves s t c) : SameForTrap s t c :=
  ⟨h.2.2.1, h.mem, h.dcache, h.2.1⟩

/-- A trap from a state whose core differs by its instruction cache and some system registers. -/
theorem trap_trappedBut {s u : State} {c : IsCore} {also : List Nat}
    (core : u.isAt c = { s.isAt c with icache := (u.isAt c).icache, sr := (u.isAt c).sr })
    (sr : ∀ n, n ∉ also → u.sr c n = s.sr c n) (mem : u.mem = s.mem) (dcache : u.dcache = s.dcache)
    (others : OtherCores s u (coreOf c)) (h1 : 1 ∉ also) (h5 : 5 ∉ also) (cause : Nat) (epc eaddr : Word) :
    Trapped s (u.trap c cause epc eaddr) c cause epc eaddr also := by
  have only := trap_onlyIs u c cause epc eaddr
  have isG : ∀ r, u.isG c r = s.isG c r := fun r => by rw [State.isG, core, State.isG]
  have at_ := trap_isAt u c cause epc eaddr
  have status := sr 1 h1
  obtain ⟨ie, pie, priv, ppriv⟩ := trapStatus_bits ((u.sr c 1).getLsbD 0) ((u.sr c 1).getLsbD 2)
  refine ⟨?_, by rw [trap_sr]; rfl, by rw [trap_sr]; rfl, by rw [trap_sr]; rfl, ?_, ?_, ?_, ?_, ?_, ?_, ?_, ?_,
    only.mem.trans mem, only.dcache.trans dcache, others.trans only.2⟩
  · rw [at_, sr 5 h5]
  · rw [trap_sr, if_pos rfl]; exact ie
  · rw [trap_sr, if_pos rfl, ← status]; exact pie
  · rw [trap_sr, if_pos rfl]; exact priv
  · rw [trap_sr, if_pos rfl, ← status]; exact ppriv
  · intro n hn
    simp only [List.mem_append, List.mem_cons, List.not_mem_nil, or_false, not_or] at hn
    rw [trap_sr, if_neg hn.1.1, if_neg hn.1.2.2.2, if_neg hn.1.2.2.1, if_neg hn.1.2.1, sr n hn.2]
  · exact fun r => (trap_isG u c cause epc eaddr r).trans (isG r)
  · rw [at_, core]
  · rw [at_, core]

theorem trap_trapped {s u : State} {c : IsCore} (h : SameForTrap s u c) (cause : Nat) (epc eaddr : Word) :
    Trapped s (u.trap c cause epc eaddr) c cause epc eaddr := by
  obtain ⟨core, mem, dcache, others⟩ := h
  refine trap_trappedBut (by rw [core]) (fun n _ => ?_) mem dcache others List.not_mem_nil List.not_mem_nil cause epc eaddr
  rw [State.sr, core, State.sr]

/-- An exception of an instruction in the state in which it acts. -/
theorem except_trapped {s u : State} {c : IsCore} (h : SameForTrap s u c) (cause : Nat) (eaddr : Word) :
    Trapped s (u.except c cause eaddr) c cause (s.isAt c).pc eaddr := by
  have pc : (u.isAt c).pc = (s.isAt c).pc := by rw [h.1]
  rw [State.except, pc]
  exact trap_trapped h cause _ eaddr

/-- An instruction of a ready core acts in the state after its fetch. -/
theorem isRun_of_ready {s : State} {c : IsCore} {words cost : Nat} (ready : Ready s (coreOf c) words cost)
    (act : State → State) : s.isRun c words act = act (s.fetched (coreOf c) words) :=
  isRun_of_fetch (fetch_of_ready ready).1 (fetch_of_ready ready).2 act

end Sys2Proof.Machine

namespace Sys2Proof.Machine

/-! ### System registers (R47, R48) -/

/-- A number that is written by its bits, from bit 0 on. -/
theorem testBit_bitSum (f : Nat → Bool) (n : Nat) :
    (((List.range n).map fun i => b2n (f i) * 2 ^ i).sum < 2 ^ n) ∧
    ∀ j, (((List.range n).map fun i => b2n (f i) * 2 ^ i).sum).testBit j = (decide (j < n) && f j) := by
  induction n with
  | zero => simp
  | succ n ih =>
    obtain ⟨lt, bits⟩ := ih
    generalize hs : ((List.range n).map fun i => b2n (f i) * 2 ^ i).sum = x at *
    have eq : ((List.range (n + 1)).map fun i => b2n (f i) * 2 ^ i).sum = 2 ^ n * b2n (f n) + x := by
      rw [List.range_succ, List.map_append, List.sum_append, hs, List.map_singleton, List.sum_singleton, Nat.add_comm,
        Nat.mul_comm]
    rw [eq]
    refine ⟨?_, fun j => ?_⟩
    · have : b2n (f n) ≤ 1 := by cases f n <;> decide
      calc 2 ^ n * b2n (f n) + x < 2 ^ n * 1 + 2 ^ n := Nat.add_lt_add_of_le_of_lt (Nat.mul_le_mul_left _ this) lt
        _ = 2 ^ (n + 1) := by rw [Nat.pow_succ]; omega
    · rw [Nat.testBit_two_pow_mul_add _ lt]
      by_cases hj : j < n
      · rw [if_pos hj, bits, decide_eq_true hj, decide_eq_true (by omega)]
      · rw [if_neg hj]
        by_cases hn : j = n
        · subst hn
          rw [Nat.sub_self, decide_eq_true (by omega)]
          cases f j <;> decide
        · obtain ⟨k, hk⟩ : ∃ k, j - n = k + 1 := ⟨j - n - 1, by omega⟩
          rw [hk, decide_eq_false (by omega)]
          cases f n <;> simp [b2n, Nat.testBit_succ]

theorem getLsbD_irqWord (s : State) (c : IsCore) (k i : Nat) (h : i < 32) :
    (s.irqWord c k).getLsbD i = s.irqLevel c (k + i) := by
  rw [State.irqWord, BitVec.getLsbD_ofNat, (testBit_bitSum (fun i => s.irqLevel c (k + i)) 32).2]
  simp [h]

/-- An action of an instruction: only the core has changed, by `f` and in its registers. -/
def SysLeaves (s t : State) (c : IsCore) (f : IsSt → IsSt) : Prop :=
  OnlyIs s t c ∧
    t.isAt c = { f (s.isAt c) with g := (t.isAt c).g, sr := (t.isAt c).sr, prior := (t.isAt c).prior }

section
variable {s t : State} {c : IsCore} {f : IsSt → IsSt}

theorem SysLeaves.refl (s : State) (c : IsCore) : SysLeaves s s c id := ⟨.refl s c, rfl⟩

theorem SysLeaves.setIsG (h : SysLeaves s t c f) (r : Nat) (v : Word) : SysLeaves s (t.setIsG c r v) c f := by
  refine ⟨h.1.setIsG r v, ?_⟩
  rw [isAt_setIsG, h.2]

theorem SysLeaves.putSr (h : SysLeaves s t c f) (n : Nat) (v : Word) : SysLeaves s (t.putSr c n v) c f := by
  refine ⟨h.1.onIs _, ?_⟩
  rw [isAt_putSr, h.2]

theorem SysLeaves.writeSr (h : SysLeaves s t c f) (n : Nat) (v : Word) : SysLeaves s (t.writeSr c n v) c f := by
  unfold State.writeSr
  split
  · exact h
  · exact h.putSr _ _

theorem SysLeaves.notePrior (h : SysLeaves s t c f) : SysLeaves s (t.notePrior c) c f := by
  refine ⟨h.1.onIs _, ?_⟩
  rw [isAt_notePrior, h.2]

end

theorem srLatch_other {n : Nat} (h16 : n ≠ 16) (h18 : n ≠ 18) (x : IsSt) : srLatch n x = x := by
  rw [srLatch, if_neg h16, if_neg h18]

/-- The read of a system register latches at most a high word. -/
theorem readSr_leaves (s : State) (c : IsCore) (n : Nat) : SysLeaves s (s.readSr c n).2 c (srLatch n) := by
  have latches : ∀ f : IsSt → IsSt, SysLeaves s (s.onIs c f) c f := fun f =>
    ⟨(OnlyIs.refl s c).onIs f, by rw [onIs_isAt_same]⟩
  unfold State.readSr
  dsimp only
  split
  · exact .refl s c
  · exact .refl s c
  · exact latches _
  · exact .refl s c
  · exact latches _
  · exact .refl s c
  next h16 _ h18 _ => exact ⟨.refl s c, by rw [srLatch_other h16 h18]⟩

theorem sr_readSr (s : State) (c : IsCore) (n k : Nat) : (s.readSr c n).2.sr c k = s.sr c k := by
  unfold State.readSr
  dsimp only
  split
  all_goals first | rfl | exact sr_onIs s c _ k fun _ => rfl

theorem isG_readSr (s : State) (c : IsCore) (n r : Nat) : (s.readSr c n).2.isG c r = s.isG c r := by
  unfold State.readSr
  dsimp only
  split
  all_goals first | rfl | exact isG_onIs s c _ r fun _ => rfl

/-- What a system register reads. -/
theorem readSr_reads (s : State) (c : IsCore) (n : Nat) : srReads s c n (s.readSr c n).1 := by
  generalize hr : s.readSr c n = r
  unfold State.readSr at hr
  unfold srReads
  dsimp only at hr
  split at hr <;> subst hr
  · rw [if_pos (.inl rfl)]
    exact fun i hi => getLsbD_irqWord s c 0 i hi
  · rw [if_pos (.inr rfl)]
    exact fun i hi => getLsbD_irqWord s c 32 i hi
  · rw [if_neg (by decide), if_pos rfl]
  · rw [if_neg (by decide), if_neg (by decide), if_pos rfl]
  · rw [if_neg (by decide), if_neg (by decide), if_neg (by decide), if_pos rfl]
  · rw [if_neg (by decide), if_neg (by decide), if_neg (by decide), if_neg (by decide), if_pos rfl]
  next h8 h9 h16 h17 h18 h19 =>
    rw [if_neg (not_or.2 ⟨h8, h9⟩), if_neg h16, if_neg h17, if_neg h18, if_neg h19]

theorem srReads_of_fetched {s t : State} {c : IsCore} (h : FetchLeaves s t c) {n : Nat} {v : Word}
    (k : srReads t c n v) : srReads s c n v := by
  unfold srReads at k ⊢
  simp only [h.irqLevel, h.cycle, h.instret, h.cycleHi, h.instretHi, h.sr] at k
  exact k

/-- A system register after a write (R48). -/
theorem sr_writeSr (s : State) (c : IsCore) (n k : Nat) (v : Word) :
    (s.writeSr c n v).sr c k = if k = n then srAfter n (s.sr c n) v else s.sr c k := by
  have mask : (if srMask n = 0 then s.sr c n else (s.sr c n &&& ~~~(srMask n)) ||| (v &&& srMask n)) =
      srAfter n (s.sr c n) v := by
    unfold srMask srAfter
    split
    · rw [if_neg (by decide)]
    split
    · rw [if_neg (by decide)]; rfl
    split
    next hc =>
      rw [if_neg (by decide), if_pos (List.contains_iff_mem.1 hc)]
      exact (congrArg₂ (· ||| ·) (BitVec.and_zero) (BitVec.and_allOnes)).trans (BitVec.zero_or)
    next hc =>
      rw [if_neg (fun hm => hc (List.contains_iff_mem.2 hm))]
      split
      · rw [if_neg (by decide)]; rfl
      · rw [if_pos rfl]
  rw [← mask]
  unfold State.writeSr
  split
  · split
    next hk => rw [hk]
    · rfl
  · exact sr_putSr s c n k _

theorem isG_writeSr (s : State) (c : IsCore) (n r : Nat) (v : Word) : (s.writeSr c n v).isG c r = s.isG c r := by
  unfold State.writeSr
  split
  · rfl
  · exact isG_putSr s c n _ r

theorem srLatch_pc (n : Nat) (x : IsSt) : (srLatch n x).pc = x.pc ∧ (srLatch n x).instret = x.instret := by
  unfold srLatch
  split
  · exact ⟨rfl, rfl⟩
  split <;> exact ⟨rfl, rfl⟩

/-! ### The instructions -/

section
variable {s : State} {c : IsCore} (ready : Ready s (coreOf c) 1 1)
include ready

/-- An access to a system register that the mode allows. -/
theorem srAccess_allowed {n : Nat} {word : Word} {write : Bool} {act : State → State}
    (h : s.corePriv c = true ∨ write = false ∧ userSr n = true) :
    s.srAccess c n word write act =
      (if write then (act (s.fetched (coreOf c) 1)).notePrior c else act (s.fetched (coreOf c) 1)).retire c 1 := by
  have fetched := fetched_leaves ready
  rw [State.srAccess, isRun_of_ready ready, fetched.corePriv]
  refine if_neg ?_
  rcases h with h | ⟨hw, hu⟩
  · simp [h]
  · simp [hw, hu]

/-- An access to a system register that the mode denies. -/
theorem srAccess_denied {n : Nat} {word : Word} {write : Bool} {act : State → State} (hp : s.corePriv c = false)
    (h : write = true ∨ userSr n = false) :
    Trapped s (s.srAccess c n word write act) c 1 (s.isAt c).pc word := by
  have fetched := fetched_leaves ready
  have eq : s.srAccess c n word write act = (s.fetched (coreOf c) 1).except c 1 word := by
    rw [State.srAccess, isRun_of_ready ready, fetched.corePriv, hp]
    exact if_pos (by rcases h with h | h <;> simp [h])
  rw [eq]
  exact except_trapped fetched.sameForTrap 1 word

/-- An action on the core alone, and the end of its instruction. -/
theorem retire_sysRan {u : State} {f : IsSt → IsSt} (h : SysLeaves (s.fetched (coreOf c) 1) u c f)
    (hf : ∀ x, (f x).pc = x.pc ∧ (f x).instret = x.instret) : sysRan s (u.retire c 1) c f := by
  have fetched := fetched_leaves ready
  have only := h.1.onIs fun x => { x with pc := (u.isAt c).pc + 4, instret := x.instret + 1 }
  refine ⟨?_, only.1, only.2⟩
  rw [isAt_retire, h.2]
  simp only [hf, fetched.pc, fetched.instret]

omit ready in
theorem wrote_setIsG {u : State} {rd : BitVec 5} {v : Word} (h : ∀ r, u.isG c r = s.isG c r) :
    Wrote s (u.setIsG c rd.toNat v) (coreOf c) rd v := by
  intro r
  rw [← setCoreG_coreOf, coreG_setCoreG, coreG_coreOf, coreG_coreOf]
  exact if_congr Iff.rfl rfl (h r.toNat)

end

/-- An instruction that reads a system register, sets it to a function of what it read and returns that. -/
theorem readModifyWrite_runs {s : State} {c : IsCore} (ready : Ready s (coreOf c) 1 1) (rd ra : BitVec 5) (n : Nat)
    (f : Word → Word → Word) (hp : s.corePriv c = true) (word : Word) :
    let t := s.srAccess c n word true fun s =>
      ((s.readSr c n).2.writeSr c n (f (s.readSr c n).1 ((s.readSr c n).2.isG c ra.toNat))).setIsG c rd.toNat
        (s.readSr c n).1
    ∃ v, srReads s c n v ∧ sysRan s t c (srLatch n) ∧ Wrote s t (coreOf c) rd v ∧
      t.sr c n = srAfter n (s.sr c n) (f v (s.isG c ra.toNat)) ∧ ∀ k, k ≠ n → t.sr c k = s.sr c k := by
  have fetched := fetched_leaves ready
  dsimp only
  rw [srAccess_allowed ready (.inl hp), if_pos rfl]
  have leaves := readSr_leaves (s.fetched (coreOf c) 1) c n
  have reads := readSr_reads (s.fetched (coreOf c) 1) c n
  have sr : ∀ k, ((s.fetched (coreOf c) 1).readSr c n).2.sr c k = s.sr c k := fun k =>
    (sr_readSr _ c n k).trans (fetched.sr k)
  have isG : ∀ r, ((s.fetched (coreOf c) 1).readSr c n).2.isG c r = s.isG c r := fun r =>
    (isG_readSr _ c n r).trans (fetched.isG r)
  generalize (s.fetched (coreOf c) 1).readSr c n = x at *
  obtain ⟨v, u⟩ := x
  dsimp only at *
  refine ⟨v, srReads_of_fetched fetched reads, retire_sysRan ready ((leaves.writeSr _ _).setIsG _ _).notePrior
    (srLatch_pc n), fun r => ?_, ?_, fun k hk => ?_⟩
  · rw [coreG_coreOf, ← State.isG, isG_retire, isG_notePrior]
    have wrote := wrote_setIsG (s := s) (u := u.writeSr c n (f v (u.isG c ra.toNat))) (rd := rd) (v := v)
      (fun r => (isG_writeSr _ _ _ _ _).trans (isG r)) r
    rw [coreG_coreOf] at wrote
    exact wrote
  · rw [sr_retire, sr_notePrior, sr_setIsG, sr_writeSr, if_pos rfl, sr, isG]
  · rw [sr_retire, sr_notePrior, sr_setIsG, sr_writeSr, if_neg hk, sr]

theorem srr_runs {s : State} {c : IsCore} (ready : Ready s (coreOf c) 1 1) (rd ra : BitVec 5) (sr : BitVec 8)
    (h : s.corePriv c = true ∨ userSr sr.toNat = true) :
    ∃ t v, exec (.srr c rd ⟨ra, sr⟩) s = .next t ∧ srReads s c sr.toNat v ∧ sysRan s t c (srLatch sr.toNat) ∧
      Wrote s t (coreOf c) rd v ∧ ∀ k, t.sr c k = s.sr c k := by
  have fetched := fetched_leaves ready
  have run := srAccess_allowed ready (word := srWord 0x30 rd ra sr) (act := fun s =>
    (s.readSr c sr.toNat).2.setIsG c rd.toNat (s.readSr c sr.toNat).1) (h.imp_right fun hu => ⟨rfl, hu⟩)
  have leaves := readSr_leaves (s.fetched (coreOf c) 1) c sr.toNat
  have reads := readSr_reads (s.fetched (coreOf c) 1) c sr.toNat
  have kept : ∀ k, ((s.fetched (coreOf c) 1).readSr c sr.toNat).2.sr c k = s.sr c k := fun k =>
    (sr_readSr _ c _ k).trans (fetched.sr k)
  have isG : ∀ r, ((s.fetched (coreOf c) 1).readSr c sr.toNat).2.isG c r = s.isG c r := fun r =>
    (isG_readSr _ c _ r).trans (fetched.isG r)
  refine ⟨_, _, congrArg Host.Outcome.next run, srReads_of_fetched fetched reads,
    retire_sysRan ready (leaves.setIsG _ _) (srLatch_pc _), fun r => ?_, fun k => ?_⟩
  · rw [if_neg (by decide), coreG_coreOf, ← State.isG, isG_retire]
    have wrote := wrote_setIsG (rd := rd) (v := ((s.fetched (coreOf c) 1).readSr c sr.toNat).1) isG r
    rw [coreG_coreOf] at wrote
    exact wrote
  · rw [if_neg (by decide), sr_retire, sr_setIsG, kept]

theorem srw_runs {s : State} {c : IsCore} (ready : Ready s (coreOf c) 1 1) (ra : BitVec 5) (sr : BitVec 8)
    (hp : s.corePriv c = true) :
    ∃ t, exec (.srw c ra sr) s = .next t ∧ sysRan s t c ∧ (∀ r, t.isG c r = s.isG c r) ∧
      t.sr c sr.toNat = srAfter sr.toNat (s.sr c sr.toNat) (s.isG c ra.toNat) ∧
      ∀ k, k ≠ sr.toNat → t.sr c k = s.sr c k := by
  have fetched := fetched_leaves ready
  have run := srAccess_allowed ready (write := true) (word := srWord 0x31 0 ra sr) (act := fun s =>
    s.writeSr c sr.toNat (s.isG c ra.toNat)) (n := sr.toNat) (.inl hp)
  refine ⟨_, congrArg Host.Outcome.next run, retire_sysRan ready ((SysLeaves.refl _ c).writeSr _ _).notePrior
    (fun _ => ⟨rfl, rfl⟩), fun r => ?_, ?_, fun k hk => ?_⟩
  · rw [if_pos rfl, isG_retire, isG_notePrior, isG_writeSr, fetched.isG]
  · rw [if_pos rfl, sr_retire, sr_notePrior, sr_writeSr, if_pos rfl, fetched.sr, fetched.isG]
  · rw [if_pos rfl, sr_retire, sr_notePrior, sr_writeSr, if_neg hk, fetched.sr]

theorem userSr_iff (n : Nat) : userSr n = true ↔ n = 0 ∨ 16 ≤ n ∧ n ≤ 19 := by simp [userSr]

theorem srWord_eq (major : Nat) (rd ra : BitVec 5) (sr : BitVec 8) : srWord major rd ra sr = srInstr major rd ra sr := rfl

/-- Settles O16. -/
theorem systemRegisterAccess : Obligations.SystemRegisterAccess := by
  unfold Obligations.SystemRegisterAccess
  intro s c rd ra sr ready
  refine ⟨fun h => srr_runs ready rd ra sr (h.imp_right (userSr_iff _).2), fun hp => ⟨srw_runs ready ra sr hp, ?_, ?_⟩,
    fun hp => ⟨fun h0 h => ⟨_, rfl, srAccess_denied ready hp (.inr ?_)⟩, ⟨_, rfl, srAccess_denied ready hp (.inl rfl)⟩,
      ⟨_, rfl, srAccess_denied ready hp (.inl rfl)⟩, ⟨_, rfl, srAccess_denied ready hp (.inl rfl)⟩⟩⟩
  · obtain ⟨v, reads, rest⟩ := readModifyWrite_runs ready rd ra sr.toNat (· ||| ·) hp (srWord 0x32 rd ra sr)
    exact ⟨_, v, rfl, reads, rest⟩
  · obtain ⟨v, reads, rest⟩ := readModifyWrite_runs ready rd ra sr.toNat (fun v g => v &&& ~~~g) hp
      (srWord 0x33 rd ra sr)
    exact ⟨_, v, rfl, reads, rest⟩
  · exact Bool.eq_false_iff.2 fun hu => by have := (userSr_iff sr.toNat).1 hu; omega

end Sys2Proof.Machine

namespace Sys2Proof.Machine

/-! ### Round robin and the highest priority (R16, R54) -/

/-- The distance of an index from the pointer, around the ring. -/
theorem ringDistance {n q j : Nat} (hq : q < n) (hj : j < n) :
    (j + n - q) % n = if q ≤ j then j - q else j + n - q := by
  split
  next h => rw [show j + n - q = j - q + n by omega, Nat.add_mod_right, Nat.mod_eq_of_lt (by omega)]
  next h => exact Nat.mod_eq_of_lt (by omega)

theorem ringPlace {n q d : Nat} (hq : q < n) (hd : d < n) :
    (q + d) % n = if q + d < n then q + d else q + d - n := by
  split
  next h => exact Nat.mod_eq_of_lt h
  next h =>
    conv_lhs => rw [show q + d = q + d - n + n by omega]
    rw [Nat.add_mod_right, Nat.mod_eq_of_lt (by omega)]

/-- The requester nearest to the pointer, around the ring, is granted. -/
theorem rrGrant_nearest {n p i : Nat} {req : Nat → Bool} (hi : i < n) (hr : req i = true)
    (near : ∀ j, j < n → req j = true → (i + n - p % n) % n ≤ (j + n - p % n) % n) : rrGrant n p req = some i := by
  have hq : p % n < n := Nat.mod_lt _ (by omega)
  have place : ∀ d, (p + d) % n = (p % n + d) % n := fun d => by rw [Nat.mod_add_mod]
  unfold rrGrant
  generalize p % n = q at *
  have back : ∀ j, j < n → (q + (j + n - q) % n) % n = j := fun j hj => by
    rw [ringDistance hq hj]
    split
    · rw [show q + (j - q) = j by omega, Nat.mod_eq_of_lt hj]
    · rw [show q + (j + n - q) = j + n by omega, Nat.add_mod_right, Nat.mod_eq_of_lt hj]
  have there : ∀ k, k < n → ((q + k) % n + n - q) % n = k := fun k hk => by
    rw [ringDistance hq (Nat.mod_lt _ (by omega)), ringPlace hq hk]
    split <;> split <;> omega
  rw [List.find?_map, Option.map_eq_some_iff]
  refine ⟨(i + n - q) % n, ?_, by rw [place, back i hi]⟩
  rw [List.find?_range_eq_some]
  refine ⟨?_, List.mem_range.2 (Nat.mod_lt _ (by omega)), fun k hk => ?_⟩
  · rw [Function.comp, place, back i hi]
    exact hr
  · have kn : k < n := hk.trans (Nat.mod_lt _ (by omega))
    rw [Function.comp, place, Bool.not_eq_true', Bool.eq_false_iff]
    intro h
    have := near _ (Nat.mod_lt _ (by omega)) h
    rw [there k kn] at this
    omega

theorem rrGrant_none {n p : Nat} {req : Nat → Bool} (h : ∀ j, j < n → req j = false) : rrGrant n p req = none := by
  unfold rrGrant
  rw [List.find?_eq_none]
  intro x hx
  obtain ⟨d, hd, rfl⟩ := List.mem_map.1 hx
  rw [h _ (Nat.mod_lt _ (by have := List.mem_range.1 hd; omega))]
  decide

theorem foldl_max_le {l : List Nat} {f : Nat → Nat} {b t : Nat} (ht : t ≤ b) (hl : ∀ x ∈ l, f x ≤ b) :
    l.foldl (fun t i => max t (f i)) t ≤ b := by
  induction l generalizing t with
  | nil => exact ht
  | cons x l ih =>
    exact ih (Nat.max_le.2 ⟨ht, hl x (List.mem_cons_self ..)⟩) fun y hy => hl y (List.mem_cons_of_mem _ hy)

theorem le_foldl_max {l : List Nat} {f : Nat → Nat} {t : Nat} :
    t ≤ l.foldl (fun t i => max t (f i)) t ∧ ∀ x ∈ l, f x ≤ l.foldl (fun t i => max t (f i)) t := by
  induction l generalizing t with
  | nil => exact ⟨Nat.le_refl _, fun _ h => absurd h List.not_mem_nil⟩
  | cons x l ih =>
    obtain ⟨first, rest⟩ := ih (t := max t (f x))
    refine ⟨(Nat.le_max_left _ _).trans first, fun y hy => ?_⟩
    rcases List.mem_cons.1 hy with rfl | hy
    · exact (Nat.le_max_right _ _).trans first
    · exact rest y hy

theorem irqPick_highest {s : State} {c : IsCore} {i : Nat} (hi : i < 64) (hr : s.irqReady c i = true)
    (top : ∀ j, j < 64 → s.irqReady c j = true → s.irqPrio c j ≤ s.irqPrio c i)
    (near : ∀ j, j < 64 → s.irqReady c j = true → s.irqPrio c j = s.irqPrio c i →
      (i + 64 - (s.sr c 14).toNat % 64) % 64 ≤ (j + 64 - (s.sr c 14).toNat % 64) % 64) :
    s.irqPick c = some i := by
  have eq : ((List.range 64).filter (s.irqReady c)).foldl (fun t i => max t (s.irqPrio c i)) 0 = s.irqPrio c i := by
    refine Nat.le_antisymm (foldl_max_le (Nat.zero_le _) fun j hj => ?_)
      (le_foldl_max.2 i (List.mem_filter.2 ⟨List.mem_range.2 hi, hr⟩))
    obtain ⟨hj, rj⟩ := List.mem_filter.1 hj
    exact top j (List.mem_range.1 hj) rj
  unfold State.irqPick
  rw [eq]
  refine rrGrant_nearest hi (by simp [hr]) fun j hj hreq => ?_
  simp only [Bool.and_eq_true, beq_iff_eq] at hreq
  exact near j hj hreq.1 hreq.2

theorem irqPick_none {s : State} {c : IsCore} (h : ∀ i, i < 64 → s.irqReady c i = false) : s.irqPick c = none :=
  rrGrant_none fun j hj => by rw [h j hj, Bool.false_and]

theorem irqAny_iff (s : State) (c : IsCore) : s.irqAny c = true ↔ ∃ i, i < 64 ∧ s.irqReady c i = true := by
  simp [State.irqAny]

/-! ### ECALL, ERET (R49, R52, R53) -/

theorem retire_ran (u : State) (c : IsCore) : Ran u (u.retire c 1) (coreOf c) ((u.isAt c).pc + 4) 1 := by
  have h := ran_finish_setCoreG u (coreOf c) 0 0 ((u.isAt c).pc + 4) 1
  rw [setCoreG_zero, finish_coreOf] at h
  exact h

/-- STATUS after a return: IE := PIE, PRIV := PPRIV. -/
theorem returnStatus_bits (st : Word) :
    let v := (st &&& 0xA) ||| BitVec.ofNat 32 (b2n (st.getLsbD 1) + 4 * b2n (st.getLsbD 3))
    v.getLsbD 0 = st.getLsbD 1 ∧ v.getLsbD 2 = st.getLsbD 3 ∧ v.getLsbD 1 = st.getLsbD 1 ∧
      v.getLsbD 3 = st.getLsbD 3 := by
  simp only [BitVec.getLsbD_or, BitVec.getLsbD_and]
  cases st.getLsbD 1 <;> cases st.getLsbD 3 <;> simp [b2n]

section
variable (u : State) (c : IsCore)

theorem trapReturn_onlyIs : OnlyIs u (u.trapReturn c) c := by
  unfold State.trapReturn State.putSr
  exact ((OnlyIs.refl u c).onIs _).onIs _

theorem trapReturn_sr (n : Nat) : (u.trapReturn c).sr c n = if n = 1 then
      (u.sr c 1 &&& 0xA) ||| BitVec.ofNat 32 (b2n ((u.sr c 1).getLsbD 1) + 4 * b2n ((u.sr c 1).getLsbD 3))
    else u.sr c n := by
  unfold State.trapReturn
  dsimp only
  rw [sr_jump]
  exact sr_putSr u c 1 n _

theorem trapReturn_isG (r : Nat) : (u.trapReturn c).isG c r = u.isG c r := by
  unfold State.trapReturn
  dsimp only
  rw [isG_jump, isG_putSr]

theorem trapReturn_isAt : (u.trapReturn c).isAt c = { u.isAt c with
    sr := ((u.trapReturn c).isAt c).sr, pc := u.sr c 2 &&& 0xFFFFFFFC } := by
  unfold State.trapReturn
  dsimp only
  generalize hw : u.putSr c srStatus _ = w
  have base : w.sr c srEpc = u.sr c 2 := by
    rw [← hw, sr_putSr]
    rfl
  have core : w.isAt c = { u.isAt c with sr := (w.isAt c).sr } := by rw [← hw, isAt_putSr]
  rw [onIs_isAt_same, base, core]

end

section
variable {s : State} {c : IsCore} (ready : Ready s (coreOf c) 1 1)
include ready

theorem sysOnly_allowed {word : Word} {act : State → State} (hp : s.corePriv c = true) :
    s.sysOnly c word act = act (s.fetched (coreOf c) 1) := by
  rw [State.sysOnly, isRun_of_ready ready, (fetched_leaves ready).corePriv, if_pos hp]

theorem sysOnly_denied {word : Word} {act : State → State} (hp : s.corePriv c = false) :
    Trapped s (s.sysOnly c word act) c 1 (s.isAt c).pc word := by
  have fetched := fetched_leaves ready
  have eq : s.sysOnly c word act = (s.fetched (coreOf c) 1).except c 1 word := by
    rw [State.sysOnly, isRun_of_ready ready, fetched.corePriv, hp]
    exact if_neg (by decide)
  rw [eq]
  exact except_trapped fetched.sameForTrap 1 word

theorem ecall_traps : Trapped s (s.isRun c 1 fun s => s.except c (if s.corePriv c then 9 else 8) 0) c
    (if s.corePriv c then 9 else 8) (s.isAt c).pc 0 := by
  have fetched := fetched_leaves ready
  rw [isRun_of_ready ready, fetched.corePriv]
  exact except_trapped fetched.sameForTrap _ 0

/-- The state in which ERET takes the mode back. -/
theorem eret_returns (hp : s.corePriv c = true) :
    let t := s.sysOnly c (sysWord 0 0x001) fun s =>
      ((s.onIs c fun x => { x with instret := x.instret + 1 }).notePrior c).trapReturn c
    (t.isAt c).pc = s.sr c 2 &&& 0xFFFFFFFC ∧
    (t.sr c 1).getLsbD 0 = (s.sr c 1).getLsbD 1 ∧ (t.sr c 1).getLsbD 2 = (s.sr c 1).getLsbD 3 ∧
    (t.sr c 1).getLsbD 1 = (s.sr c 1).getLsbD 1 ∧ (t.sr c 1).getLsbD 3 = (s.sr c 1).getLsbD 3 ∧
    (∀ n, n ≠ 1 → t.sr c n = s.sr c n) ∧ (∀ r, t.isG c r = s.isG c r) ∧
    t.isAt c = { (s.fetched (coreOf c) 1).isAt c with
      sr := (t.isAt c).sr, pc := (t.isAt c).pc, prior := (t.isAt c).prior, instret := (s.isAt c).instret + 1 } ∧
    t = { s.fetched (coreOf c) 1 with cc := t.cc, sg := t.sg } ∧ OtherCores s t (coreOf c) := by
  have fetched := fetched_leaves ready
  dsimp only
  rw [sysOnly_allowed ready hp]
  generalize s.fetched (coreOf c) 1 = u at *
  generalize hw : (u.onIs c fun x => { x with instret := x.instret + 1 }).notePrior c = w
  have only : OnlyIs u w c := hw ▸ ((OnlyIs.refl u c).onIs _).onIs _
  have sr : ∀ n, w.sr c n = s.sr c n := fun n => by
    rw [← hw, sr_notePrior]
    exact (sr_onIs u c (fun x => { x with instret := x.instret + 1 }) n fun _ => rfl).trans (fetched.sr n)
  have isG : ∀ r, w.isG c r = s.isG c r := fun r => by
    rw [← hw, isG_notePrior]
    exact (isG_onIs u c (fun x => { x with instret := x.instret + 1 }) r fun _ => rfl).trans (fetched.isG r)
  have core : w.isAt c = { u.isAt c with prior := (w.isAt c).prior, instret := (s.isAt c).instret + 1 } := by
    rw [← hw, isAt_notePrior, onIs_isAt_same, fetched.instret]
  have returned := trapReturn_isAt w c
  have all := only.trans (trapReturn_onlyIs w c)
  have status := trapReturn_sr w c 1
  rw [if_pos rfl, sr] at status
  obtain ⟨ie, priv, pie, ppriv⟩ := returnStatus_bits (s.sr c 1)
  rw [← status] at ie priv pie ppriv
  refine ⟨by rw [returned, sr], ie, priv, pie, ppriv, fun n hn => ?_, fun r => ?_, ?_, all.1,
    fetched.2.1.trans all.2⟩
  · rw [trapReturn_sr, if_neg hn, sr]
  · rw [trapReturn_isG, isG]
  · rw [returned, core]

end

theorem ecall_and_eret : ecallAndEret := fun _ _ ready =>
  ⟨⟨_, rfl, ecall_traps ready⟩, fun hp => ⟨_, rfl, eret_returns ready hp⟩,
    fun hp => ⟨_, rfl, sysOnly_denied ready hp⟩⟩

/-! ### WFI, FENCE (R49, R50) -/

theorem wfiEnds_ends {s : State} {c : IsCore} (hr : (s.isAt c).running = true) (hw : (s.isAt c).wfi = true)
    (hi : s.irqAny c = true) : s.wfiEnds c = (s.onIs c fun x => { x with wfi := false }).retire c 1 := by
  unfold State.wfiEnds
  rw [hr, hw, hi]
  rfl

theorem retire_ran_fetched {s : State} {c : IsCore} (ready : Ready s (coreOf c) 1 1) :
    let t := (s.fetched (coreOf c) 1).retire c 1
    Ran (s.fetched (coreOf c) 1) t (coreOf c) ((s.isAt c).pc + 4) 1 ∧ ∀ r, t.isG c r = s.isG c r := by
  have fetched := fetched_leaves ready
  have ran := retire_ran (s.fetched (coreOf c) 1) c
  rw [fetched.pc] at ran
  exact ⟨ran, fun r => (isG_retire _ c r 1).trans (fetched.isG r)⟩

theorem irqAny_fetched {s : State} {c : IsCore} (ready : Ready s (coreOf c) 1 1) :
    (s.fetched (coreOf c) 1).irqAny c = s.irqAny c := by
  have fetched := fetched_leaves ready
  unfold State.irqAny
  rw [show (s.fetched (coreOf c) 1).irqReady c = s.irqReady c from funext fetched.irqReady]

theorem waitsFor_iff (xs : List DramWait) (k : Nat) :
    (xs.any fun w => w.port == 4 && w.src == k) = true ↔ ∃ w ∈ xs, w.port = 4 ∧ w.src = k := by
  simp

theorem wait_and_fence : waitAndFence := by
  intro s c
  refine ⟨fun ready hp hi => ?_, fun ready hp hi => ?_, fun ready hp => ⟨_, rfl, sysOnly_denied ready hp⟩,
    fun hr hw hi => ?_, fun ready hn => ?_, fun ready hw => ?_⟩
  · have run := sysOnly_allowed ready (word := sysWord 0 0x002)
      (act := fun s => if s.irqAny c then s.retire c 1 else s.onIs c fun x => { x with wfi := true }) hp
    rw [irqAny_fetched ready, if_pos ((irqAny_iff s c).2 hi)] at run
    exact ⟨_, congrArg Host.Outcome.next run, retire_ran_fetched ready⟩
  · have run := sysOnly_allowed ready (word := sysWord 0 0x002)
      (act := fun s => if s.irqAny c then s.retire c 1 else s.onIs c fun x => { x with wfi := true }) hp
    rw [irqAny_fetched ready, if_neg (fun h => by
      obtain ⟨i, hi', hr⟩ := (irqAny_iff s c).1 h
      rw [hi i hi'] at hr
      cases hr)] at run
    have only := onIs_onlyIs (s.fetched (coreOf c) 1) c fun x => { x with wfi := true }
    exact ⟨_, congrArg Host.Outcome.next run, onIs_isAt_same _ _ _, only.1, (fetched_leaves ready).2.1.trans only.2⟩
  · refine ⟨_, congrArg Host.Outcome.next (wfiEnds_ends hr hw ((irqAny_iff s c).2 hi)), ?_, ?_⟩
    · rw [isAt_retire, onIs_isAt_same]
    · exact (onIs_onlyIs s c _).onIs _
  · have run := isRun_of_ready ready (fun s =>
      if s.mc.waiting.any fun w => w.port == 4 && w.src == isIx c then s else s.retire c 1)
    rw [(fetched_leaves ready).2.2.2, if_neg (fun h => by
      obtain ⟨w, hw, hq⟩ := (waitsFor_iff _ _).1 h
      exact hn w hw hq)] at run
    exact ⟨_, congrArg Host.Outcome.next run, retire_ran_fetched ready⟩
  · have run := isRun_of_ready ready (fun s =>
      if s.mc.waiting.any fun w => w.port == 4 && w.src == isIx c then s else s.retire c 1)
    rw [(fetched_leaves ready).2.2.2, if_pos ((waitsFor_iff _ _).2 hw)] at run
    exact congrArg Host.Outcome.next run

/-! ### Interrupts (R52 to R55) -/

theorem OtherCores.symm {s t : State} {c : Core} (h : OtherCores s t c) : OtherCores t s c :=
  ⟨fun y hy => (h.1 y hy).symm, fun j hj => (h.2.1 j hj).symm, fun hs => (h.2.2 hs).symm⟩

/-- A core that has completed a WFI. -/
def wfiCompleted (x : IsSt) : IsSt :=
  if x.wfi then { x with wfi := false, pc := x.pc + 4, instret := x.instret + 1 } else x

/-- Nothing but one core of the system profile and the draws of free values differ. -/
def OnlyIsFree (s t : State) (c : IsCore) : Prop :=
  t = { s with cc := t.cc, sg := t.sg, freeIx := t.freeIx } ∧ OtherCores s t (coreOf c)

theorem OnlyIs.free {s t : State} {c : IsCore} (h : OnlyIs s t c) : OnlyIsFree s t c := by
  refine ⟨?_, h.2⟩
  conv_lhs => rw [h.1]
  rw [h.1]

theorem OnlyIsFree.trans {s t u : State} {c : IsCore} (h : OnlyIsFree s t c) (k : OnlyIsFree t u c) :
    OnlyIsFree s u c := by
  refine ⟨?_, h.2.trans k.2⟩
  conv_lhs => rw [k.1, h.1]

theorem draw_onlyIsFree (s : State) (c : IsCore) : OnlyIsFree s s.draw.2 c :=
  ⟨rfl, fun _ _ => rfl, fun _ _ => rfl, fun _ => rfl⟩

theorem draw_isAt (s : State) (c : IsCore) : s.draw.2.isAt c = s.isAt c := by cases c <;> rfl

theorem draw_sr (s : State) (c : IsCore) (n : Nat) : s.draw.2.sr c n = s.sr c n := by
  rw [State.sr, draw_isAt, State.sr]

theorem wfiEnds_completes {s : State} {c : IsCore} (hr : (s.isAt c).running = true) (hi : s.irqAny c = true) :
    OnlyIs s (s.wfiEnds c) c ∧ (s.wfiEnds c).isAt c = wfiCompleted (s.isAt c) := by
  cases hw : (s.isAt c).wfi with
  | true =>
    rw [wfiEnds_ends hr hw hi]
    exact ⟨(onIs_onlyIs s c _).onIs _, by rw [isAt_retire, onIs_isAt_same, wfiCompleted, if_pos hw]⟩
  | false =>
    have eq : s.wfiEnds c = s := by
      unfold State.wfiEnds
      rw [hw, Bool.and_false, Bool.false_and]
      rfl
    rw [eq, wfiCompleted, hw]
    exact ⟨.refl s c, rfl⟩

/-- LAT3 of an entry: what the note of a latency leaves. -/
theorem noteLatency_leaves (p : State) (c : IsCore) (waited : Bool) (i : Nat) :
    OnlyIsFree p (p.noteLatency c waited i) c ∧
    (p.noteLatency c waited i).isAt c = { p.isAt c with sr := ((p.noteLatency c waited i).isAt c).sr } ∧
    (∀ n, n ≠ 15 → (p.noteLatency c waited i).sr c n = p.sr c n) := by
  have put : ∀ (q : State) (v : Word), OnlyIs q (q.putSr c srLat3 v) c := fun q v => onIs_onlyIs q c _
  unfold State.noteLatency
  split
  · exact ⟨(OnlyIs.refl p c).free, rfl, fun _ _ => rfl⟩
  split
  · exact ⟨(put _ _).free, isAt_putSr _ _ _ _, fun n hn => by rw [sr_putSr]; exact if_neg hn⟩
  · refine ⟨(draw_onlyIsFree p c).trans (put _ _).free, ?_, fun n hn => ?_⟩
    · dsimp only
      rw [isAt_putSr, draw_isAt]
    · dsimp only
      rw [sr_putSr, draw_sr]
      exact if_neg hn

theorem noteLatency_low {p : State} {c : IsCore} {waited : Bool} {i : Nat} (h : p.irqPrio c i ≠ 3) :
    p.noteLatency c waited i = p := if_pos h

theorem noteLatency_local {p : State} {c : IsCore} {waited : Bool} {i : Nat} (h : p.irqPrio c i = 3)
    (hw : waited = true ∨ p.inLocal c (p.isAt c).pc = true) (hp : (p.isAt c).prior.getLsbD i = false)
    (hv : p.inLocal c (p.sr c srVbase + BitVec.ofNat 32 (4 * (32 + i))) = true) :
    (p.noteLatency c waited i).sr c 15 = 0 := by
  have eq : p.noteLatency c waited i = p.putSr c srLat3 0 := by
    unfold State.noteLatency
    rw [if_neg (not_not.2 h)]
    exact if_pos (by rcases hw with hw | hw <;> simp [hw, hp, hv])
  rw [eq, sr_putSr]
  rfl

theorem inLocal_of_sr {s p : State} {c : IsCore} (h : ∀ n, 32 ≤ n → p.sr c n = s.sr c n) (ea : Word) :
    p.inLocal c ea = s.inLocal c ea := by
  cases c with
  | cc k =>
    unfold State.inLocal State.physical
    dsimp only
    rw [h _ (Nat.le_add_right _ _)]
  | sg => rfl

/-- An interrupt that is taken. -/
def State.takes (s : State) (c : IsCore) (i : Nat) : State :=
  let u := (((s.wfiEnds c).putSr c srPtr (BitVec.ofNat 32 (rrNext 64 i))).noteLatency c (s.isAt c).wfi i).draw
  u.2.trap c (32 + i) (u.2.isAt c).pc (BitVec.ofNat 32 (Config.freeNat u.1))

theorem interrupt_takes {s : State} {c : IsCore} {i : Nat} (hr : (s.isAt c).running = true) (hie : s.coreIe c = true)
    (hp : s.irqPick c = some i) : exec (.interrupt c) s = .next (s.takes c i) := by
  change execInterrupt c s = _
  unfold execInterrupt
  rw [hr, hie, hp]
  rfl

theorem interrupt_none {s : State} {c : IsCore} (hr : (s.isAt c).running = true) (hie : s.coreIe c = true)
    (hp : s.irqPick c = none) : exec (.interrupt c) s = .next s := by
  change execInterrupt c s = _
  unfold execInterrupt
  rw [hr, hie, hp]
  rfl

theorem wfiCompleted_keeps (x : IsSt) : (wfiCompleted x).sr = x.sr ∧ (wfiCompleted x).prior = x.prior := by
  unfold wfiCompleted
  split <;> exact ⟨rfl, rfl⟩

theorem takes_traps {s : State} {c : IsCore} {i : Nat} (lt : i < 64) (hr : (s.isAt c).running = true) (hi : s.irqAny c = true) :
    let s' := s.onIs c wfiCompleted
    let t := s.takes c i
    (∃ e, Trapped s' t c (32 + i) (s'.isAt c).pc e [14, 15]) ∧ t.sr c 14 = BitVec.ofNat 32 ((i + 1) % 64) ∧
      (s.irqPrio c i ≠ 3 → t.sr c 15 = s.sr c 15) ∧
      (s.irqPrio c i = 3 → ((s.isAt c).wfi = true ∨ s.inLocal c (s.isAt c).pc = true) →
        (s.isAt c).prior.getLsbD i = false →
        s.inLocal c (s.sr c 5 + BitVec.ofNat 32 (4 * (32 + i))) = true → t.sr c 15 = 0) ∧
      t = { s with cc := t.cc, sg := t.sg, freeIx := t.freeIx } := by
  obtain ⟨onlyE, coreE⟩ := wfiEnds_completes hr hi
  obtain ⟨keepSr, keepPrior⟩ := wfiCompleted_keeps (s.isAt c)
  unfold State.takes
  dsimp only
  generalize s.wfiEnds c = e at *
  have onlyP : OnlyIs s (e.putSr c srPtr (BitVec.ofNat 32 (rrNext 64 i))) c := onlyE.onIs _
  have coreP := isAt_putSr e c srPtr (BitVec.ofNat 32 (rrNext 64 i))
  have srE : ∀ n, e.sr c n = s.sr c n := fun n => by rw [State.sr, coreE, keepSr, State.sr]
  have srP : ∀ n, (e.putSr c srPtr (BitVec.ofNat 32 (rrNext 64 i))).sr c n =
      if n = 14 then BitVec.ofNat 32 ((i + 1) % 64) else s.sr c n := fun n => by
    rw [sr_putSr, srE]
    rfl
  generalize e.putSr c srPtr (BitVec.ofNat 32 (rrNext 64 i)) = p at *
  obtain ⟨onlyQ, coreQ, srQ⟩ := noteLatency_leaves p c (s.isAt c).wfi i
  have prio : p.irqPrio c i = s.irqPrio c i := by
    rw [State.irqPrio, srP, if_neg (by omega), State.irqPrio]
  have place : ∀ ea, p.inLocal c ea = s.inLocal c ea := inLocal_of_sr fun n hn => by rw [srP, if_neg (by omega)]
  have low := noteLatency_low (p := p) (c := c) (waited := (s.isAt c).wfi) (i := i)
  have near := noteLatency_local (p := p) (c := c) (waited := (s.isAt c).wfi) (i := i)
  generalize p.noteLatency c (s.isAt c).wfi i = q at *
  have onlyW := (onlyP.free.trans onlyQ).trans (draw_onlyIsFree q c)
  have coreW : q.draw.2.isAt c = { wfiCompleted (s.isAt c) with sr := (q.draw.2.isAt c).sr } := by
    rw [draw_isAt, coreQ, coreP, coreE]
  have srW : ∀ n, n ∉ [14, 15] → q.draw.2.sr c n = (s.onIs c wfiCompleted).sr c n := fun n hn => by
    simp only [List.mem_cons, List.not_mem_nil, or_false, not_or] at hn
    rw [draw_sr, srQ n hn.2, srP, if_neg hn.1, State.sr, State.sr, onIs_isAt_same, keepSr]
  have after : (s.onIs c wfiCompleted).isAt c = wfiCompleted (s.isAt c) := onIs_isAt_same _ _ _
  have pc : (q.draw.2.isAt c).pc = ((s.onIs c wfiCompleted).isAt c).pc := by rw [coreW, after]
  have memory : q.draw.2.mem = (s.onIs c wfiCompleted).mem ∧ q.draw.2.dcache = (s.onIs c wfiCompleted).dcache := by
    rw [onlyW.1, (onIs_onlyIs s c wfiCompleted).1]
    exact ⟨rfl, rfl⟩
  have trapped : ∀ n, n ∉ [1, 2, 3, 4] → ∀ epc e,
      (q.draw.2.trap c (32 + i) epc e).sr c n = q.sr c n := fun n hn epc e => by
    simp only [List.mem_cons, List.not_mem_nil, or_false, not_or] at hn
    rw [trap_sr, if_neg hn.1, if_neg hn.2.2.2, if_neg hn.2.2.1, if_neg hn.2.1, draw_sr]
  refine ⟨⟨BitVec.ofNat 32 (Config.freeNat q.draw.1), ?_⟩, ?_, fun h3 => ?_, fun h3 hw hp hv => ?_, ?_⟩
  · rw [pc]
    refine trap_trappedBut ?_ srW memory.1 memory.2 ((onIs_onlyIs s c _).2.symm.trans onlyW.2) (by decide) (by decide)
      _ _ _
    rw [coreW, after]
  · rw [trapped 14 (by decide), srQ 14 (by decide), srP, if_pos rfl]
  · rw [trapped 15 (by decide), low (by rwa [prio]), srP, if_neg (by decide)]
  · rw [trapped 15 (by decide)]
    have priorP : (p.isAt c).prior = (s.isAt c).prior := by rw [coreP, coreE, keepPrior]
    refine near (by rw [prio, h3]) ?_ (by rw [priorP, hp]) (by rw [place, srVbase, srP, if_neg (by decide), hv])
    cases hwfi : (s.isAt c).wfi with
    | true => exact .inl rfl
    | false =>
      right
      have pcP : (p.isAt c).pc = (s.isAt c).pc := by rw [coreP, coreE, wfiCompleted, hwfi]; rfl
      rw [place, pcP]
      exact hw.resolve_left (by rw [hwfi]; decide)
  · exact (onlyW.trans (trap_onlyIs _ c _ _ _).free).1

theorem interrupts_areVectored : interruptsAreVectored := by
  intro s c hr hie
  refine ⟨fun i hi ready top near => ?_, fun h => interrupt_none hr hie (irqPick_none h)⟩
  have run := interrupt_takes hr hie (irqPick_highest hi ready top near)
  obtain ⟨⟨e, trapped⟩, rest⟩ := takes_traps hi hr ((irqAny_iff s c).2 ⟨i, hi, ready⟩)
  exact ⟨_, e, run, trapped, rest⟩

/-- Settles O18. -/
theorem exceptionsReturnsAndWaits : Obligations.ExceptionsReturnsAndWaits :=
  ⟨ecall_and_eret, wait_and_fence, interrupts_areVectored⟩

end Sys2Proof.Machine

/-!
Fetches, illegal words and loads of every kind of core (R13, R28, R32, R39, R42 to R46, R53).
-/

namespace Sys2Proof.Machine

/-! ### Reports leave the cores -/

theorem Quiet.otherCores {s t : State} (h : Quiet s t) (c : Core) : OtherCores s t c :=
  ⟨fun y _ => by rw [State.xcAt, h.xc, State.xcAt], fun k _ => by rw [State.ccAt, h.cc, State.ccAt], fun _ => h.sg⟩

theorem Quiet.sameForTrap {s t : State} (h : Quiet s t) (c : IsCore) : SameForTrap s t c := by
  refine ⟨?_, h.mem, h.dcache, h.otherCores _⟩
  cases c with
  | cc k => simp only [State.isAt, State.ccAt, h.cc]
  | sg => simp only [State.isAt, h.sg]

theorem SameForTrap.trans {s t u : State} {c : IsCore} (h : SameForTrap s t c) (k : SameForTrap t u c) :
    SameForTrap s u c := by
  obtain ⟨core, mem, dcache, others⟩ := h
  obtain ⟨core', mem', dcache', others'⟩ := k
  exact ⟨by rw [core', core], mem'.trans mem, dcache'.trans dcache, others.trans others'⟩

theorem SameForTrap.refl (s : State) (c : IsCore) : SameForTrap s s c := (Quiet.refl s).sameForTrap c

theorem denied_quiet (s : State) (m : Master) (a : Nat) : Quiet s (s.denied m a) := (denied_frame s m a).1

theorem poisonReport_quiet (s : State) (line : Nat) : Quiet s (s.poisonReport line) := by
  unfold State.poisonReport
  split
  · unfold State.sramFault
    exact fault_quiet _ _ _ _
  · exact (Quiet.trans (setReg_quiet s _ _) (setEvt_quiet _ _ _)).trans (fault_quiet _ _ _ _)

theorem reportLines_quiet (s : State) (a n : Nat) : Quiet s (s.reportLines a n) := by
  unfold State.reportLines
  refine foldl_keeps Quiet Quiet.refl (fun _ _ _ => Quiet.trans) _ (fun s p => ?_) _ s
  split
  · exact poisonReport_quiet _ _
  · exact Quiet.refl _

/-! ### Fetches (R13, R43, R44, R53) -/

/-- An instruction whose fetch raises an exception, or waits. -/
theorem isRun_of_exception {s t u : State} {c : IsCore} {words : Nat} (hi : s.issues c = true)
    (hf : s.fetch c words = (some t, u)) (act : State → State) : s.isRun c words act = t := by
  obtain ⟨fetch, hfetch⟩ : ∃ f, f = @State.fetch := ⟨_, rfl⟩
  obtain ⟨isRun, hrun⟩ : ∃ f, f = @State.isRun := ⟨_, rfl⟩
  rw [← hrun]
  delta State.isRun at hrun
  rw [← hfetch] at hrun hf
  subst hrun
  simp only [hi, hf, Bool.not_true, Bool.false_eq_true, if_false]

theorem fetch_of_exception {s t u : State} {c : IsCore} {words : Nat}
    (h : s.fetchWord c (s.isAt c).pc (s.isAt c).pc = (some t, u)) : s.fetch c words = (some t, u) := by
  obtain ⟨fetchWord, hword⟩ : ∃ f, f = @State.fetchWord := ⟨_, rfl⟩
  obtain ⟨fetch, hfetch⟩ : ∃ f, f = @State.fetch := ⟨_, rfl⟩
  rw [← hfetch]
  delta State.fetch at hfetch
  rw [← hword] at hfetch h
  subst hfetch
  simp only [h]

/-- A core whose fetch does not succeed runs nothing of its instruction. -/
theorem add_of_exception {s t u : State} {c : IsCore} (hi : s.issues c = true) (rd ra rb : BitVec 5)
    (h : s.fetchWord c (s.isAt c).pc (s.isAt c).pc = (some t, u)) :
    exec (.add (coreOf c) rd ra rb) s = .next t := by
  change Host.Outcome.next (s.coreDo (coreOf c) 1 1 _) = _
  rw [coreDo_coreOf, isRun_of_exception hi (fetch_of_exception h)]

/-- The fetch of an instruction's first word, case by case. -/
theorem fetchWord_first (s : State) (c : IsCore) (pc : Word) :
    let a := s.physical c pc
    let m := s.coreMaster c
    let u := s.dramUse (4, fetchIx c) .none a 4 false
    s.fetchWord c pc pc =
      if s.region a = .regs then (some (s.except c 6 pc), s)
      else if s.permits m a false = false then (some ((s.denied m a).except c 6 pc), s)
      else if s.region a = .unmapped then (some ((s.unmapped m a).except c 0 0), s)
      else if s.inIcache c a = true then (none, s)
      else (s.dramStall 4 (fetchIx c) a 4 false).elim
        (if u.poisoned a 4 = true then (some ((u.reportLines a 4).except c 10 pc), u)
          else if c ≠ .sg ∧ u.cached a then (none, u.onIs c fun x => { x with icache := x.icache ++ [lineOf a] })
          else (none, u))
        fun t => (some t, s) := by
  obtain ⟨stall, hstall⟩ : ∃ f, f = @State.dramStall := ⟨_, rfl⟩
  obtain ⟨physical, hphysical⟩ : ∃ f, f = @State.physical := ⟨_, rfl⟩
  obtain ⟨fetchWord, hfetch⟩ : ∃ f, f = @State.fetchWord := ⟨_, rfl⟩
  rw [← hfetch, ← hstall, ← hphysical]
  delta State.fetchWord at hfetch
  rw [← hstall, ← hphysical] at hfetch
  subst hfetch
  dsimp only
  rw [if_pos (rfl : pc = pc)]
  simp only [Bool.not_eq_eq_eq_not, Bool.not_true]
  generalize physical s c pc = a
  cases stall s 4 (fetchIx c) a 4 false <;> rfl

/-- The state in which a fetch that reads memory raises an exception. -/
theorem dramRead_sameForTrap (s : State) (c : IsCore) (port : Nat × Nat) (hint : PageHint) (a n : Nat) :
    SameForTrap s (s.dramUse port hint a n false) c :=
  (FetchLeaves.of_withDram (dramRead_withDram s port hint a n) (dramRead_sameQueue s port hint a n) c).sameForTrap

theorem poisoned_dramRead (s : State) (port : Nat × Nat) (hint : PageHint) (a n b k : Nat) :
    (s.dramUse port hint a n false).poisoned b k = s.poisoned b k := by
  rw [dramRead_withDram]
  rfl

theorem except_si (s : State) (c : IsCore) (cause : Nat) (eaddr : Word) : (s.except c cause eaddr).si = s.si := by
  have only := trap_onlyIs s c cause (s.isAt c).pc eaddr
  rw [State.except, only.1]

theorem fetches_orTrap : fetchesOrTraps := by
  intro s c rd ra rb issues
  dsimp only
  have first := fetchWord_first s c (s.isAt c).pc
  have run := fun (t u : State) => add_of_exception (t := t) (u := u) issues rd ra rb
  have read := dramRead_sameForTrap s c (4, fetchIx c) .none (s.physical c (s.isAt c).pc) 4
  have poison := poisoned_dramRead s (4, fetchIx c) .none (s.physical c (s.isAt c).pc) 4
  dsimp only at first
  generalize s.physical c (s.isAt c).pc = a at *
  refine ⟨fun h => ?_, fun hr hp => ⟨fun hu => ?_, fun hu hi => ⟨fun t ht => ?_, fun hs hq => ?_⟩⟩, fun ready => ?_⟩
  · by_cases hr : s.region a = .regs
    · rw [if_pos hr] at first
      exact ⟨_, run _ _ first, except_trapped (.refl s c) 6 _⟩
    · rw [if_neg hr, if_pos (h.resolve_left hr)] at first
      exact ⟨_, run _ _ first, except_trapped ((denied_quiet s _ a).sameForTrap c) 6 _⟩
  · rw [if_neg hr, if_neg (by rw [hp]; decide), if_pos hu] at first
    refine ⟨_, run _ _ first, except_trapped ((fault_quiet s _ _ _).sameForTrap c) 0 _, ?_⟩
    exact (fault_reported s (commonCode 1 (masterBlk (s.coreMaster c)) 0x3A) 0xFF a).of_si
      (congrArg SiSt.queues (except_si _ c 0 0)) (congrArg SiSt.blkLoss (except_si _ c 0 0))
  · rw [if_neg hr, if_neg (by rw [hp]; decide), if_neg hu, if_neg (by rw [hi]; decide), ht] at first
    exact run _ _ first
  · rw [if_neg hr, if_neg (by rw [hp]; decide), if_neg hu, if_neg (by rw [hi]; decide), hs, Option.elim_none,
      poison, if_pos hq] at first
    exact ⟨_, run _ _ first, except_trapped (read.trans ((reportLines_quiet _ a 4).sameForTrap c)) 10 _⟩
  · obtain ⟨eq, others, core, -⟩ := fetched_leaves ready
    exact ⟨eq, others, core⟩

/-! ### Illegal words (R28, R39, R53) -/

theorem illegal_traps {s : State} {c : IsCore} (ready : Ready s (coreOf c) 1 1) (word : Word) :
    Trapped s (s.coreIllegal (coreOf c) word) c 0 (s.isAt c).pc word := by
  have eq : s.coreIllegal (coreOf c) word = s.isRun c 1 fun s => s.except c 0 word := by cases c <;> rfl
  rw [eq, isRun_of_ready ready]
  exact except_trapped (fetched_leaves ready).sameForTrap 0 word

theorem illegalInstruction_exec {s : State} {c : Core} {word : Word} (h : wordLegal c word = false) :
    exec (.illegalInstruction c word) s = .next (s.coreIllegal c word) := by
  change Host.Outcome.next (if wordLegal c word then s else s.coreIllegal c word) = _
  rw [h]
  rfl

/-- The buffer of a tile is handed over. -/
theorem handTile_hands {s : State} {x : Nat} {key : TileKey} (h : (s.xcAt x).tile = some key) (illegal overrun : Bool) :
    s.handTile x illegal overrun = s.onXc x fun c => { c with
      handed := some { buf := c.buf, tile := key, crc := s.tileCrc x, illegal := illegal, overrun := overrun,
                       vmiss := c.vmiss },
      tile := none, rep := none, buf := !c.buf } := by
  unfold State.handTile
  rw [h]

/-- An expansion core whose tile fails. -/
theorem xcIllegal_fails {s : State} {x : Fin 144} {key : TileKey} (h : (s.xcAt x).tile = some key) :
    let t := s.xcIllegal x
    (t.xcAt x).tile = none ∧ (t.xcAt x).buf = !(s.xcAt x).buf ∧
    (∃ h, (t.xcAt x).handed = some h ∧ h.tile = key ∧ h.illegal = true ∧ h.overrun = false) ∧
    Reported s t 0x1141 (BitVec.ofNat 8 x) (BitVec.ofNat 48 (s.xcAt x).pc.toNat) ∧
    Frame { s with xc := t.xc } t [] [] ∧ OtherCores s t (.xc x) := by
  dsimp only
  unfold State.xcIllegal
  rw [handTile_hands h]
  generalize hf : (fun c : XcSt => ({ c with
      handed := some { buf := c.buf, tile := key, crc := s.tileCrc x, illegal := true, overrun := false, vmiss := c.vmiss },
      tile := none, rep := none, buf := !c.buf } : XcSt)) = f
  have quiet := fault_quiet (s.onXc x f) 0x1141 x (s.xcAt x).pc.toNat
  have reported := fault_reportedFrom (s := s) (t := s.onXc x f) 0x1141 x (s.xcAt x).pc.toNat rfl
  have frame := (Frame.refl (s.onXc x f) [] []).fault (code := 0x1141) (inst := x) (info := (s.xcAt x).pc.toNat)
  have others := (onXc_onlyCore s x f).2.trans (quiet.otherCores _)
  generalize (s.onXc x f).fault 0x1141 x (s.xcAt x).pc.toNat = t at *
  have core : t.xcAt x = f (s.xcAt x) := by
    rw [State.xcAt, quiet.xc, ← State.xcAt, onXc_xcAt, if_pos rfl]
  have frame' : Frame { s with xc := t.xc } t [] [] := by
    rw [quiet.xc]
    exact frame
  refine ⟨by rw [core, ← hf], by rw [core, ← hf], ⟨_, by rw [core, ← hf], rfl, rfl, rfl⟩, reported, frame', others⟩

theorem illegal_fails {s : State} {x : Fin 144} (ready : Ready s (.xc x) 1 1) (word : Word) :
    s.coreIllegal (.xc x) word = s.xcIllegal x := if_pos ready.1

theorem udf_notLegal (c : Core) (low : BitVec 26) : wordLegal c (BitVec.ofNat 32 low.toNat) = false := by
  have major : wbits low.toNat 31 26 = 0 := by
    have := low.isLt
    simp only [wbits]
    omega
  refine wordLegal_of_decodeIb (by have := low.isLt; omega) (by rw [major]; decide) ?_
  unfold decodeIb
  rw [major]
  rfl

theorem udf_word (low : BitVec 26) : low.setWidth 32 = BitVec.ofNat 32 low.toNat := BitVec.ofNat_toNat 32 low |>.symm

theorem illegal_words : illegalWordsTrapOrFail := by
  refine ⟨fun s k word ready hw => ⟨_, illegalInstruction_exec hw, ?_⟩,
    fun s word ready hw => ⟨_, illegalInstruction_exec hw, illegal_traps (c := .sg) ready word⟩,
    fun s c low ready => ⟨_, rfl, ?_⟩, fun s x word low key ready ht hw => ?_, udf_notLegal⟩
  · exact illegal_traps (c := .cc k) ready word
  · rw [udf_word]
    exact illegal_traps ready _
  · have run := illegalInstruction_exec (s := s) hw
    rw [illegal_fails ready] at run
    exact ⟨_, run, congrArg Host.Outcome.next (illegal_fails ready _), xcIllegal_fails ht⟩

/-- Settles O15. -/
theorem illegalWordsTrapOrFailTheTile : Obligations.IllegalWordsTrapOrFailTheTile := ⟨fetches_orTrap, illegal_words⟩

end Sys2Proof.Machine

namespace Sys2Proof.Machine

/-! ### Loads of the system profile (R32, R42 to R46, R53) -/

section
variable (s : State) (c : IsCore) (ea : Word) (n : Nat)

/-- What a load meets, at its physical address `a`. -/
theorem isLoad_outcomes {a : Nat} (ha : s.physical c ea = a) :
    let m := s.coreMaster c
    (ea.toNat % n ≠ 0 → s.isLoad c ea n = (some (s.except c 2 ea), [], s)) ∧
    (ea.toNat % n = 0 → s.permits m a false = false →
      s.isLoad c ea n = (some ((s.denied m a).except c 4 ea), [], s)) ∧
    (ea.toNat % n = 0 → s.permits m a false = true →
      (s.region a = .regs → (c = .sg ∧ s.corePriv c = false → s.isLoad c ea n = (some (s.except c 4 ea), [], s)) ∧
        (¬(c = .sg ∧ s.corePriv c = false) →
          s.isLoad c ea n = (none, (s.regsLoad m a n).1, (s.regsLoad m a n).2))) ∧
      (s.region a = .unmapped → s.isLoad c ea n = (none, List.replicate n 0, s.unmapped m a)) ∧
      (s.region a ≠ .regs → s.region a ≠ .unmapped →
        (c ≠ .sg → s.cached a = true → (s.dcLine a).isSome = true →
          s.isLoad c ea n = (none, (s.dcLoad (isIx c) a n).1, (s.dcLoad (isIx c) a n).2)) ∧
        (c ≠ .sg → s.cached a = true → s.dcLine a = none → s.dramStall 4 (isIx c) (lineOf a) 64 false = none →
          s.poisoned a n = false →
          s.isLoad c ea n = (none, (s.dcLoad (isIx c) a n).1, (s.dcLoad (isIx c) a n).2)) ∧
        (c = .sg ∨ s.cached a = false → s.dramStall 4 (isIx c) a n false = none → s.poisoned a n = false →
          let u := s.dramUse (4, isIx c) .none a n false
          let b := if c = .sg then u.sagAddr a else a
          s.isLoad c ea n = (none, (u.devLoad b n).1, (u.devLoad b n).2)))) := by
  obtain ⟨stall, hstall⟩ : ∃ f, f = @State.dramStall := ⟨_, rfl⟩
  obtain ⟨physical, hphysical⟩ : ∃ f, f = @State.physical := ⟨_, rfl⟩
  obtain ⟨isLoad, hload⟩ : ∃ f, f = @State.isLoad := ⟨_, rfl⟩
  rw [← hphysical] at ha
  rw [← hload, ← hstall]
  delta State.isLoad at hload
  rw [← hstall, ← hphysical] at hload
  subst hload
  dsimp only
  rw [ha]
  refine ⟨fun h => if_pos h, fun h hp => ?_, fun h hp => ⟨fun hr => ⟨fun hs => ?_, fun hs => ?_⟩, fun hr => ?_,
    fun hr hu => ⟨fun hc hk hl => ?_, fun hc hk hl ht hq => ?_, fun hk ht hq => ?_⟩⟩⟩
  · simp [h, hp]
  · obtain ⟨rfl, hv⟩ := hs
    simp [h, hp, hr, hv]
  · have priv : c = .sg → s.corePriv c = true := fun e => by
      by_contra hv
      exact hs ⟨e, by simpa using hv⟩
    simpa [h, hp, hr] using priv
  · simp [h, hp, hr]
  · cases hk' : s.region a <;> simp [h, hp, hc, hk, hl, hk'] at hr hu ⊢
  · cases hk' : s.region a <;> simp [h, hp, hc, hk, hl, ht, hq, hk'] at hr hu ⊢
  · rcases hk with rfl | hk
    · cases hk' : s.region a <;> simp [h, hp, ht, hq, hk'] at hr hu ⊢
    · cases hk' : s.region a <;> simp [h, hp, hk, ht, hq, hk'] at hr hu ⊢

end

/-! ### What the state after a fetch shows -/

section
variable {s t : State} {c : IsCore} (h : FetchLeaves s t c)
include h

theorem FetchLeaves.region (a : Nat) : t.region a = s.region a := by rw [h.1]; rfl
theorem FetchLeaves.permits (m : Master) (a : Nat) (w : Bool) : t.permits m a w = s.permits m a w := by rw [h.1]; rfl
theorem FetchLeaves.cached (a : Nat) : t.cached a = s.cached a := by rw [h.1]; rfl
theorem FetchLeaves.dcLine (a : Nat) : t.dcLine a = s.dcLine a := by rw [h.1]; rfl
theorem FetchLeaves.poisoned (a n : Nat) : t.poisoned a n = s.poisoned a n := by rw [h.1]; rfl
theorem FetchLeaves.sagAddr (a : Nat) : t.sagAddr a = s.sagAddr a := by rw [h.1]; rfl
theorem FetchLeaves.viewBytes (a n : Nat) : t.viewBytes a n = s.viewBytes a n := by rw [h.1]; rfl
theorem FetchLeaves.loadBytes (a n : Nat) : t.loadBytes a n = s.loadBytes a n := by rw [h.1]; rfl

theorem FetchLeaves.coreMaster : t.coreMaster c = s.coreMaster c := by
  cases c with
  | cc k => rw [State.coreMaster, h.corePriv, State.coreMaster]
  | sg => rfl

theorem FetchLeaves.physical (ea : Word) : t.physical c ea = s.physical c ea := by
  unfold State.physical
  rw [h.sr]

end

/-! ### The value of a load (R32) -/

theorem leNat_lt (bs : List Byte) : leNat bs < 256 ^ bs.length := by
  induction bs with
  | nil => simp [leNat]
  | cons b bs ih =>
    have := b.isLt
    simp only [leNat, List.length_cons, Nat.pow_succ]
    omega

theorem loadWord_eq_extended {n : Nat} (signed : Bool) {bs : List Byte}
    (hl : bs.length = n) : loadWord n signed bs = extended n signed bs := by
  have lt := leNat_lt bs
  have small : leNat bs < 2 ^ (8 * n) := by rw [hl] at lt; rw [Nat.pow_mul]; exact lt
  have take : bs.take n = bs := by rw [← hl]; exact List.take_length
  unfold loadWord extended
  rw [take]
  cases signed with
  | false => simp
  | true =>
    simp only [if_true, true_and, sext, Nat.mod_eq_of_lt small]
    by_cases hb : leNat bs < 2 ^ (8 * n - 1)
    · rw [if_pos hb, if_neg (Nat.not_le.2 hb)]
      exact BitVec.ofInt_ofNat 32 _
    · rw [if_neg hb, if_pos (Nat.not_lt.1 hb)]
      push_cast
      rfl

theorem extended_zero {n : Nat} (hn : n = 1 ∨ n = 2 ∨ n = 4) (signed : Bool) :
    loadWord n signed (List.replicate n 0) = 0 := by
  rcases hn with rfl | rfl | rfl <;> cases signed <;> decide

/-! ### The end of a load -/

/-- A load of the system profile that raises no exception writes its register, and its core continues. -/
theorem load_writes (u : State) (c : IsCore) (rd : BitVec 5) (v : Word) :
    Ran u ((u.setIsG c rd.toNat v).retire c 1) (coreOf c) ((u.isAt c).pc + 4) 1 := by
  have h := ran_finish_setCoreG u (coreOf c) rd v ((u.isAt c).pc + 4) 1
  rw [setCoreG_coreOf, finish_coreOf] at h
  have pc : ((u.setIsG c rd.toNat v).isAt c).pc = (u.isAt c).pc := by rw [isAt_setIsG]
  rw [State.retire, State.retireTo, pc]
  exact h

theorem load_wrote {s u : State} {c : IsCore} {rd : BitVec 5} {v : Word} (h : ∀ r, u.isG c r = s.isG c r) :
    Wrote s ((u.setIsG c rd.toNat v).retire c 1) (coreOf c) rd v := by
  intro r
  have wrote := wrote_setIsG (v := v) (rd := rd) h r
  rw [coreG_coreOf] at wrote ⊢
  exact (isG_retire _ c r.toNat 1).trans wrote

theorem coreLoad_ready {s : State} {c : IsCore} (ready : Ready s (coreOf c) 1 1) (rd ra : BitVec 5) (imm : BitVec 16)
    (n : Nat) (signed : Bool) {o : Option State} {bs : List Byte} {u : State}
    (h : (s.fetched (coreOf c) 1).isLoad c (s.isG c ra.toNat + imm.signExtend 32) n = (o, bs, u)) :
    s.coreLoad (coreOf c) rd ra imm n signed =
      o.getD ((u.setIsG c rd.toNat (loadWord n signed bs)).retire c 1) := by
  have fetched := fetched_leaves ready
  obtain ⟨isLoad, hload⟩ : ∃ f, f = @State.isLoad := ⟨_, rfl⟩
  have eq : s.coreLoad (coreOf c) rd ra imm n signed = s.isRun c 1 fun s =>
      match isLoad s c (s.isG c ra.toNat + immS imm) n with
      | (some t, _, _) => t
      | (none, bs, s) => (s.setIsG c rd.toNat (loadWord n signed bs)).retire c 1 := by
    rw [hload]
    cases c <;> rfl
  rw [eq, isRun_of_ready ready, fetched.isG]
  rw [← hload] at h
  rw [show s.isG c ra.toNat + immS imm = s.isG c ra.toNat + imm.signExtend 32 from rfl, h]
  cases o <;> rfl

theorem withDram_of_cores {s u t : State} (h : u = s.withDram u)
    (k : t = { u with xc := t.xc, cc := t.cc, sg := t.sg }) : s.withDram t = u := by
  rw [k]
  exact h.symm

theorem Quiet.isAt {s t : State} (h : Quiet s t) (c : IsCore) : t.isAt c = s.isAt c := by
  cases c with
  | cc k => simp only [State.isAt, State.ccAt, h.cc]
  | sg => simp only [State.isAt, h.sg]

/-- A frame holds of states that are given the same control cores and Sagger. -/
theorem Frame.setCores {s t u : State} {l blks : List Nat} (h : Frame s t l blks)
    (k : u = { t with cc := u.cc, sg := u.sg }) : Frame { s with cc := u.cc, sg := u.sg } u l blks := by
  obtain ⟨q, r⟩ := h
  have regs : u.regs = t.regs := by rw [k]
  refine ⟨?_, fun off ho => (reg_of_regs regs off).trans (r off ho)⟩
  unfold Quiet at q ⊢
  conv_lhs => rw [k, q]
  rw [k]

/-! ### The loads -/

/-- A load of an expansion core. -/
theorem load_local {s : State} {x : Fin 144} {n : Nat} {i : Instr} {rd ra : BitVec 5} {imm : BitVec 16} {signed : Bool}
    (run : exec i s = .next (s.coreLoad (.xc x) rd ra imm n signed)) (ready : Ready s (.xc x) 1 1) :
    let a := (s.coreG (.xc x) ra + imm.signExtend 32).toNat / n * n
    a + n ≤ localTop →
    ∃ t, exec i s = .next t ∧ Ran { s with freeIx := t.freeIx } t (.xc x) (s.corePc (.xc x) + 4) 1 ∧
      Wrote s t (.xc x) rd (extended n signed (s.loadBytes (XC_MEM x + a) n)) := by
  intro a ha
  have value : ∀ d, loadWord n signed (s.draw.2.localBytes d x a n) =
      extended n signed (s.loadBytes (XC_MEM x + a) n) := fun d => by
    rw [localBytes_eq_loadBytes _ d x ha]
    exact loadWord_eq_extended signed (memRead_length _ _ _)
  obtain ⟨cycles, rep⟩ := setCoreG_xcAt s.draw.2 x rd (extended n signed (s.loadBytes (XC_MEM x + a) n))
  have step : s.coreLoad (.xc x) rd ra imm n signed =
      (s.draw.2.setCoreG (.xc x) rd (extended n signed (s.loadBytes (XC_MEM x + a) n))).finish (.xc x)
        ((s.xcAt x).pc + 4) 1 := by
    have act : s.coreLoad (.xc x) rd ra imm n signed = s.xcStep x 1 1 none (fun s =>
      s.draw.2.setCoreG (.xc x) rd (loadWord n signed (s.draw.2.localBytes s.draw.1 x
        ((s.draw.2.xg x ra.toNat + immS imm).toNat / n * n) n))) id := rfl
    rw [act, xcStep_eq_finish ready, show (s.draw.2.xg x ra.toNat + immS imm).toNat / n * n = a from rfl, value]
    · rw [show (s.draw.2.xg x ra.toNat + immS imm).toNat / n * n = a from rfl, value, cycles]; rfl
    · rw [show (s.draw.2.xg x ra.toNat + immS imm).toNat / n * n = a from rfl, value, rep]; rfl
  rw [step] at run
  have ran := ran_finish_setCoreG s.draw.2 (.xc x) rd (extended n signed (s.loadBytes (XC_MEM x + a) n))
    ((s.xcAt x).pc + 4) 1
  refine ⟨_, run, ?_, fun r => ?_⟩
  · have free : (((s.draw.2.setCoreG (.xc x) rd (extended n signed (s.loadBytes (XC_MEM x + a) n))).finish (.xc x)
        ((s.xcAt x).pc + 4) 1)).freeIx = s.draw.2.freeIx := by rw [ran.1]
    rw [free]
    exact ran
  · rw [coreG_finish, coreG_setCoreG]
    rfl

section
variable {s : State} {c : IsCore} {n : Nat} {i : Instr} {rd ra : BitVec 5} {imm : BitVec 16} {signed : Bool}
  (run : exec i s = .next (s.coreLoad (coreOf c) rd ra imm n signed)) (hn : n = 1 ∨ n = 2 ∨ n = 4)
  (ready : Ready s (coreOf c) 1 1)
include run ready

theorem load_runs {o : Option State} {bs : List Byte} {u : State}
    (h : (s.fetched (coreOf c) 1).isLoad c (s.isG c ra.toNat + imm.signExtend 32) n = (o, bs, u)) :
    exec i s = .next (o.getD ((u.setIsG c rd.toNat (loadWord n signed bs)).retire c 1)) := by
  rw [run, coreLoad_ready ready rd ra imm n signed h]

theorem load_memory :
    let ea := s.isG c ra.toNat + imm.signExtend 32
    let a := s.physical c ea
    let m := s.coreMaster c
    let s' := s.fetched (coreOf c) 1
    ea.toNat % n = 0 → s.permits m a false = true → s.region a ≠ .regs → s.region a ≠ .unmapped →
      (c = .sg ∨ s.cached a = false) → s'.dramStall 4 (isIx c) a n false = none → s.poisoned a n = false →
      inSections (if c = .sg then s.sagAddr a else a) = false →
      ∃ t, exec i s = .next t ∧
        Ran (s'.withDram t) t (coreOf c) ((s.isAt c).pc + 4) 1 ∧ (s.region a = .sram → t.mc = s'.mc) ∧
        Wrote s t (coreOf c) rd
          (extended n signed (s.viewBytes (if c = .sg then s.sagAddr a else a) n)) := by
  have fetched := fetched_leaves ready
  have outcomes := isLoad_outcomes (s.fetched (coreOf c) 1) c (s.isG c ra.toNat + imm.signExtend 32) n
    (fetched.physical _)
  have runs := fun o bs u => load_runs (o := o) (bs := bs) (u := u) run ready
  dsimp only at outcomes ⊢
  intro al hp hr hu hk ht hq hs
  generalize s.physical c (s.isG c ra.toNat + imm.signExtend 32) = a at *
  obtain ⟨-, -, memory⟩ := outcomes
  obtain ⟨-, -, memory⟩ := memory al (by rw [fetched.coreMaster, fetched.permits, hp])
  obtain ⟨-, -, plain⟩ := memory (by rwa [fetched.region]) (by rwa [fetched.region])
  have load := plain (by rwa [fetched.cached]) ht (by rwa [fetched.poisoned])
  have read := dramRead_withDram (s.fetched (coreOf c) 1) (4, isIx c) .none a n
  have sram : s.region a = .sram →
      (s.fetched (coreOf c) 1).dramUse (4, isIx c) .none a n false = s.fetched (coreOf c) 1 := fun h =>
    if_neg (by rw [fetched.region, h]; decide)
  have all := (FetchLeaves.of_withDram read (dramRead_sameQueue _ _ _ _ _) c)
  generalize (s.fetched (coreOf c) 1).dramUse (4, isIx c) .none a n false = u at *
  rw [all.sagAddr, fetched.sagAddr] at load
  generalize (if c = .sg then s.sagAddr a else a) = b at *
  have bytes : u.devLoad b n = (s.viewBytes b n, u) := by
    rw [State.devLoad, hs, all.viewBytes, fetched.viewBytes]
    rfl
  rw [bytes] at load
  have ran := load_writes u c rd (loadWord n signed (s.viewBytes b n))
  have wrote := load_wrote (rd := rd) (v := loadWord n signed (s.viewBytes b n))
    (fun r => (all.isG r).trans (fetched.isG r))
  have length : (s.viewBytes b n).length = n := by simp [State.viewBytes, State.loadBytes]
  have run' := runs _ _ _ load
  rw [Option.getD_none, loadWord_eq_extended signed length] at run'
  rw [loadWord_eq_extended signed length] at ran wrote
  rw [all.pc.trans fetched.pc] at ran
  refine ⟨_, run', ?_, fun h => ?_, wrote⟩
  · rw [withDram_of_cores read ran.1]
    exact ran
  · rw [ran.1, sram h]

theorem load_unmapped (hn : n = 1 ∨ n = 2 ∨ n = 4) :
    let ea := s.isG c ra.toNat + imm.signExtend 32
    let a := s.physical c ea
    let m := s.coreMaster c
    ea.toNat % n = 0 → s.permits m a false = true → s.region a = .unmapped →
      ∃ t, exec i s = .next t ∧ (t.isAt c).pc = (s.isAt c).pc + 4 ∧ Wrote s t (coreOf c) rd 0 ∧
        Frame { s.fetched (coreOf c) 1 with cc := t.cc, sg := t.sg } t [] [] ∧ OtherCores s t (coreOf c) ∧
        Reported s t (commonCode 1 (masterBlk m) 0x3A) 0xFF (BitVec.ofNat 48 a) := by
  have fetched := fetched_leaves ready
  have outcomes := isLoad_outcomes (s.fetched (coreOf c) 1) c (s.isG c ra.toNat + imm.signExtend 32) n
    (fetched.physical _)
  have runs := fun o bs u => load_runs (o := o) (bs := bs) (u := u) run ready
  dsimp only at outcomes ⊢
  intro al hp hu
  generalize s.physical c (s.isG c ra.toNat + imm.signExtend 32) = a at *
  obtain ⟨-, -, memory⟩ := outcomes
  obtain ⟨-, unmapped, -⟩ := memory al (by rw [fetched.coreMaster, fetched.permits, hp])
  have run' := runs _ _ _ (unmapped (by rwa [fetched.region]))
  rw [Option.getD_none, extended_zero hn, fetched.coreMaster] at run'
  have si : (s.fetched (coreOf c) 1).si = s.si := by rw [fetched.1]; rfl
  have frame := (Frame.refl (s.fetched (coreOf c) 1) [] []).fault
    (code := commonCode 1 (masterBlk (s.coreMaster c)) 0x3A) (inst := 0xFF) (info := a)
  have reported := fault_reportedFrom (s := s) (t := s.fetched (coreOf c) 1)
    (commonCode 1 (masterBlk (s.coreMaster c)) 0x3A) 0xFF a (by rw [si])
  unfold State.unmapped at run'
  generalize (s.fetched (coreOf c) 1).fault (commonCode 1 (masterBlk (s.coreMaster c)) 0x3A) 0xFF a = u at *
  have ran := load_writes u c rd 0
  have core : u.isAt c = (s.fetched (coreOf c) 1).isAt c := frame.1.isAt c
  have wrote := load_wrote (s := s) (u := u) (rd := rd) (v := 0) fun r => by
    rw [State.isG, core, ← State.isG, fetched.isG]
  have only : OnlyIs u ((u.setIsG c rd.toNat 0).retire c 1) c := ((OnlyIs.refl u c).setIsG _ _).onIs _
  refine ⟨_, run', ?_, wrote, ?_, (fetched.2.1.trans (frame.1.otherCores _)).trans only.2, ?_⟩
  · rw [isAt_retire, isAt_setIsG, core, fetched.pc]
  · exact frame.setCores only.1
  · exact reported.of_si (by rw [only.1]) (by rw [only.1])

/-- A load that raises an exception. -/
theorem load_traps :
    let ea := s.isG c ra.toNat + imm.signExtend 32
    let a := s.physical c ea
    (ea.toNat % n ≠ 0 → ∃ t, exec i s = .next t ∧ Trapped s t c 2 (s.isAt c).pc ea) ∧
    (ea.toNat % n = 0 → s.permits (s.coreMaster c) a false = false →
      ∃ t, exec i s = .next t ∧ Trapped s t c 4 (s.isAt c).pc ea) := by
  have fetched := fetched_leaves ready
  have outcomes := isLoad_outcomes (s.fetched (coreOf c) 1) c (s.isG c ra.toNat + imm.signExtend 32) n
    (fetched.physical _)
  have runs := fun o bs u => load_runs (o := o) (bs := bs) (u := u) run ready
  dsimp only at outcomes ⊢
  generalize s.physical c (s.isG c ra.toNat + imm.signExtend 32) = a at *
  obtain ⟨misaligned, denied, -⟩ := outcomes
  refine ⟨fun al => ⟨_, runs _ _ _ (misaligned al), except_trapped fetched.sameForTrap 2 _⟩, fun al hp => ?_⟩
  exact ⟨_, runs _ _ _ (denied al (by rw [fetched.coreMaster, fetched.permits, hp])),
    except_trapped (fetched.sameForTrap.trans ((denied_quiet _ _ a).sameForTrap c)) 4 _⟩

end

theorem loadOf_of_coreLoad {i : Core → BitVec 5 → BitVec 5 → BitVec 16 → Instr} {n : Nat} {signed : Bool}
    (run : ∀ s c rd ra imm, exec (i c rd ra imm) s = .next (s.coreLoad c rd ra imm n signed))
    (hn : n = 1 ∨ n = 2 ∨ n = 4) : loadOf i n signed :=
  ⟨fun s x rd ra imm ready => load_local (run s (.xc x) rd ra imm) ready,
    fun s c rd ra imm ready =>
      have runs := run s (coreOf c) rd ra imm
      ⟨load_memory runs ready, load_unmapped runs ready hn, (load_traps runs ready).1, (load_traps runs ready).2⟩⟩

/-- Settles O12. -/
theorem loadsReadMemory : Obligations.LoadsReadMemory :=
  ⟨loadOf_of_coreLoad (fun _ _ _ _ _ => rfl) (by decide), loadOf_of_coreLoad (fun _ _ _ _ _ => rfl) (by decide),
    loadOf_of_coreLoad (fun _ _ _ _ _ => rfl) (by decide), loadOf_of_coreLoad (fun _ _ _ _ _ => rfl) (by decide),
    loadOf_of_coreLoad (fun _ _ _ _ _ => rfl) (by decide)⟩

end Sys2Proof.Machine

/-!
Words in the data caches, in registers and in the three copies of the memory of the Sagger (R42 to R45, R53, R404).
-/

namespace Sys2Proof.Machine

/-! ### Lines of the data caches (R44, R45) -/

theorem find?_map_keeps {α : Type} (p : α → Bool) (f : α → α) (h : ∀ x, p (f x) = p x) (l : List α) :
    (l.map f).find? p = (l.find? p).map f := by
  rw [List.find?_map]
  exact congrArg (fun q => (l.find? q).map f) (funext h)

/-- The bytes of the line that an access to cached memory meets. -/
def State.cacheBytes (s : State) (a : Nat) : List Byte :=
  match s.dcLine a with
  | some l => l.bytes
  | none => s.loadBytes (lineOf a) 64

section
variable (s : State) (k a : Nat)

/-- The line of an address, once it is filled. -/
theorem dcFill_line : ∃ l, (s.dcFill k a).dcLine a = some l ∧ l.bytes = s.cacheBytes a ∧ l.addr = lineOf a := by
  unfold State.cacheBytes
  cases h : s.dcLine a with
  | some l =>
    have addr : l.addr = lineOf a := by simpa using List.find?_some h
    refine ⟨{ l with cores := joinCore k l.cores }, ?_, rfl, addr⟩
    have eq : (s.dcFill k a).dcache = s.dcache.map fun x =>
        if x.addr = l.addr then { x with cores := joinCore k x.cores } else x := by
      unfold State.dcFill
      rw [h]
    rw [State.dcLine, eq, find?_map_keeps _ _ (fun x => by split <;> rfl), ← State.dcLine, h]
    exact congrArg some (if_pos rfl)
  | none =>
    have eq : (s.dcFill k a).dcache = s.dcache ++
        [{ addr := lineOf a, bytes := s.loadBytes (lineOf a) 64, dirty := false, cores := [k] }] := by
      unfold State.dcFill
      rw [h]
      dsimp only
      rw [dramRead_withDram]
      rfl
    refine ⟨{ addr := lineOf a, bytes := s.loadBytes (lineOf a) 64, dirty := false, cores := [k] }, ?_, rfl, rfl⟩
    rw [State.dcLine, eq, List.find?_append, ← State.dcLine, h]
    simp

/-- Only the data caches, and what a read does to DRAM, differ. -/
def CacheLeaves (s t : State) : Prop := t = { s.withDram t with dcache := t.dcache }

theorem CacheLeaves.of_withDram {s t : State} (h : t = s.withDram t) (d : List CacheLine) :
    CacheLeaves s { t with dcache := d } := by
  obtain ⟨m, p, rfl⟩ : ∃ m p, t = { s with mc := m, top := { s.top with rrPtr := p } } := ⟨t.mc, t.top.rrPtr, h⟩
  rfl

theorem CacheLeaves.setCache {s t : State} (h : CacheLeaves s t) (d : List CacheLine) :
    CacheLeaves s { t with dcache := d } := by
  unfold CacheLeaves at h ⊢
  conv_lhs => rw [h]
  rfl

theorem CacheLeaves.mem {s t : State} (h : CacheLeaves s t) : t.mem = s.mem := by rw [h]; rfl

theorem CacheLeaves.sameCores {s t : State} (h : CacheLeaves s t) : SameCores s t := by
  rw [h]
  exact ⟨rfl, rfl, rfl⟩

theorem CacheLeaves.isAt {s t : State} (h : CacheLeaves s t) (c : IsCore) : t.isAt c = s.isAt c := by
  obtain ⟨-, cc, sg⟩ := h.sameCores
  cases c with
  | cc k => simp only [State.isAt, State.ccAt, cc]
  | sg => simp only [State.isAt, sg]

theorem dcFill_leaves : CacheLeaves s (s.dcFill k a) := by
  unfold State.dcFill
  cases s.dcLine a with
  | some l => exact CacheLeaves.of_withDram rfl _
  | none => exact CacheLeaves.of_withDram (dramRead_withDram s _ _ _ _) _

/-- A load from the cache. -/
theorem dcLoad_eq (n : Nat) : s.dcLoad k a n = (((s.cacheBytes a).drop (a % 64)).take n, s.dcFill k a) := by
  obtain ⟨l, line, bytes, -⟩ := dcFill_line s k a
  unfold State.dcLoad
  dsimp only
  rw [line, ← bytes]

/-- A store into the cache. -/
theorem dcSave_line (bs : List Byte) : ∃ l, (s.dcSave k a bs).dcLine a = some l ∧ l.dirty = true ∧
    l.bytes = (s.cacheBytes a).take (a % 64) ++ bs ++ (s.cacheBytes a).drop (a % 64 + bs.length) := by
  obtain ⟨l, line, bytes, addr⟩ := dcFill_line s k a
  refine ⟨{ l with bytes := l.bytes.take (a % 64) ++ bs ++ l.bytes.drop (a % 64 + bs.length), dirty := true,
                   cores := [k] }, ?_, rfl, by rw [bytes]⟩
  have eq : (s.dcSave k a bs).dcache = (s.dcFill k a).dcache.map fun x => if x.addr = lineOf a then
      { x with bytes := x.bytes.take (a % 64) ++ bs ++ x.bytes.drop (a % 64 + bs.length), dirty := true, cores := [k] }
      else x := rfl
  rw [State.dcLine, eq, find?_map_keeps _ _ (fun x => by split <;> rfl), ← State.dcLine, line]
  exact congrArg some (if_pos addr)

theorem dcSave_leaves (bs : List Byte) : CacheLeaves s (s.dcSave k a bs) := (dcFill_leaves s k a).setCache _

end

/-! ### Stores of the system profile (R32, R42 to R46, R53, R404) -/

/-- What a store meets, at its physical address `a`. -/
theorem isStore_outcomes (s : State) (c : IsCore) (ea : Word) (bs : List Byte) {a : Nat} (ha : s.physical c ea = a)
    (al : ea.toNat % bs.length = 0) (hp : s.permits (s.coreMaster c) a true = true) :
    (s.region a = .regs → s.isStore c ea bs = (none, s.regsSave (s.coreMaster c) a bs)) ∧
    (s.region a ≠ .regs → s.region a ≠ .unmapped →
      (c ≠ .sg → s.cached a = true →
        (s.dcLine a = none → s.poisoned a bs.length = false ∧ s.dramStall 4 (isIx c) (lineOf a) 64 false = none) →
        s.isStore c ea bs = (none, s.dcSave (isIx c) a bs)) ∧
      (c = .sg → SG_MEM ≤ a → a < SG_MEM + 0x50000 →
        s.isStore c ea bs = (none, ((s.devSave a bs).devSave (a + 0x50000) bs).devSave (a + 0xA0000) bs))) := by
  obtain ⟨stall, hstall⟩ : ∃ f, f = @State.dramStall := ⟨_, rfl⟩
  obtain ⟨physical, hphysical⟩ : ∃ f, f = @State.physical := ⟨_, rfl⟩
  obtain ⟨isStore, hstore⟩ : ∃ f, f = @State.isStore := ⟨_, rfl⟩
  rw [← hphysical] at ha
  rw [← hstore, ← hstall]
  delta State.isStore at hstore
  rw [← hstall, ← hphysical] at hstore
  subst hstore
  dsimp only
  rw [ha]
  refine ⟨fun hr => ?_, fun hr hu => ⟨fun hc hk hl => ?_, fun hc h1 h2 => ?_⟩⟩
  · simp [al, hp, hr]
  · cases hd : s.dcLine a with
    | some l => cases hk' : s.region a <;> simp [al, hp, hc, hk, hk'] at hr hu ⊢
    | none =>
      obtain ⟨hq, ht⟩ := hl hd
      cases hk' : s.region a <;> simp [al, hp, hc, hk, hq, ht, hk'] at hr hu ⊢
  · subst hc
    cases hk' : s.region a <;> simp [al, hp, h1, h2, hk'] at hr hu ⊢

theorem coreStore_ready {s : State} {c : IsCore} (ready : Ready s (coreOf c) 1 1) (rs ra : BitVec 5) (imm : BitVec 16)
    (n : Nat) {o : Option State} {u : State}
    (h : (s.fetched (coreOf c) 1).isStore c (s.isG c ra.toNat + imm.signExtend 32)
      (leBytes n (s.isG c rs.toNat).toNat) = (o, u)) :
    s.coreStore (coreOf c) rs ra imm n = o.getD (u.retire c 1) := by
  have fetched := fetched_leaves ready
  obtain ⟨isStore, hstore⟩ : ∃ f, f = @State.isStore := ⟨_, rfl⟩
  have eq : s.coreStore (coreOf c) rs ra imm n = s.isRun c 1 fun s =>
      match isStore s c (s.isG c ra.toNat + immS imm) (leBytes n (s.isG c rs.toNat).toNat) with
      | (some t, _) => t
      | (none, s) => s.retire c 1 := by
    rw [hstore]
    cases c <;> rfl
  rw [eq, isRun_of_ready ready, fetched.isG, fetched.isG]
  rw [← hstore] at h
  rw [show s.isG c ra.toNat + immS imm = s.isG c ra.toNat + imm.signExtend 32 from rfl, h]
  cases o <;> rfl

/-! ### Cached words -/

/-- An instruction that has reached the caches alone, and written at most one register of its core. -/
theorem cached_ran {s u : State} {c : IsCore} (ready : Ready s (coreOf c) 1 1)
    (h : CacheLeaves (s.fetched (coreOf c) 1) u) (rd : BitVec 5) (v : Word) :
    let t := (u.setIsG c rd.toNat v).retire c 1
    t.mem = s.mem ∧ t.dcache = u.dcache ∧
      Ran { (s.fetched (coreOf c) 1).withDram t with dcache := t.dcache } t (coreOf c) ((s.isAt c).pc + 4) 1 ∧
      Wrote s t (coreOf c) rd v := by
  have fetched := fetched_leaves ready
  have ran := load_writes u c rd v
  have core := h.isAt c
  rw [core, fetched.pc] at ran
  have wrote := load_wrote (s := s) (u := u) (rd := rd) (v := v) fun r => by
    rw [State.isG, core, ← State.isG, fetched.isG]
  have mem : u.mem = s.mem := h.mem.trans fetched.mem
  generalize s.fetched (coreOf c) 1 = w at *
  dsimp only
  generalize (u.setIsG c rd.toNat v).retire c 1 = t at *
  have base : { w.withDram t with dcache := t.dcache } = u := by
    unfold CacheLeaves at h
    conv_rhs => rw [h]
    rw [ran.1]
    rfl
  refine ⟨by rw [ran.1, mem], by rw [ran.1], ?_, wrote⟩
  rw [base]
  exact ran

theorem loadWord_of_drop (bs : List Byte) (i : Nat) :
    loadWord 4 false ((bs.drop i).take 4) = BitVec.ofNat 32 (leNat ((bs.drop i).take 4)) := by
  unfold loadWord
  rw [List.take_take]
  rfl

section
variable {s : State} {c : IsCore} {rd rs ra : BitVec 5} {imm : BitVec 16} (ready : Ready s (coreOf c) 1 1) (hc : c ≠ .sg)
include ready hc

omit hc in
theorem cacheBytes_fetched (a : Nat) : (s.fetched (coreOf c) 1).cacheBytes a = s.cacheBytes a := by
  have fetched := fetched_leaves ready
  unfold State.cacheBytes
  rw [fetched.dcLine]
  cases s.dcLine a with
  | some l => rfl
  | none => exact fetched.loadBytes _ _

/-- A word stored into cached memory. -/
theorem cached_store {a : Nat} (ha : s.physical c (s.isG c ra.toNat + imm.signExtend 32) = a)
    (al : (s.isG c ra.toNat + imm.signExtend 32).toNat % 4 = 0) (hk : s.cached a = true)
    (hu : s.region a ≠ .unmapped) (hr : s.region a ≠ .regs) (hq : s.dcLine a = none → s.poisoned a 4 = false)
    (hp : s.permits (s.coreMaster c) a true = true)
    (hs : s.dcLine a = none → (s.fetched (coreOf c) 1).dramStall 4 (isIx c) (lineOf a) 64 false = none) :
    let t := s.coreStore (coreOf c) rs ra imm 4
    ∃ l, t.mem = s.mem ∧ t.dcLine a = some l ∧ l.dirty = true ∧
      l.bytes = (s.cacheBytes a).take (a % 64) ++ leBytes 4 (s.isG c rs.toNat).toNat ++
        (s.cacheBytes a).drop (a % 64 + 4) ∧
      Ran { (s.fetched (coreOf c) 1).withDram t with dcache := t.dcache } t (coreOf c) ((s.isAt c).pc + 4) 1 ∧
      ∀ r, t.isG c r = s.isG c r := by
  have fetched := fetched_leaves ready
  have stores := isStore_outcomes (s.fetched (coreOf c) 1) c (s.isG c ra.toNat + imm.signExtend 32)
    (leBytes 4 (s.isG c rs.toNat).toNat) ((fetched.physical _).trans ha)
  rw [leBytes_length] at stores
  obtain ⟨-, memory⟩ := stores al (by rw [fetched.coreMaster, fetched.permits, hp])
  obtain ⟨cached, -⟩ := memory (by rwa [fetched.region]) (by rwa [fetched.region])
  have store := cached hc (by rwa [fetched.cached]) (fun hd => by
    rw [fetched.dcLine] at hd
    exact ⟨by rw [fetched.poisoned, hq hd], hs hd⟩)
  have run := coreStore_ready ready rs ra imm 4 store
  rw [Option.getD_none] at run
  obtain ⟨l, line, dirty, stored⟩ := dcSave_line (s.fetched (coreOf c) 1) (isIx c) a (leBytes 4 (s.isG c rs.toNat).toNat)
  rw [leBytes_length, cacheBytes_fetched ready] at stored
  have leaves := dcSave_leaves (s.fetched (coreOf c) 1) (isIx c) a (leBytes 4 (s.isG c rs.toNat).toNat)
  have keeps : ∀ r, ((s.fetched (coreOf c) 1).dcSave (isIx c) a (leBytes 4 (s.isG c rs.toNat).toNat)).isG c r =
      s.isG c r := fun r => by rw [State.isG, leaves.isAt, ← State.isG, fetched.isG]
  obtain ⟨mem, dcache, ran, -⟩ := cached_ran ready leaves 0 0
  change s.coreStore (coreOf c) rs ra imm 4 = ((State.dcSave _ (isIx c) a _).setIsG c (0 : BitVec 5).toNat 0).retire c 1
    at run
  dsimp only
  rw [run]
  refine ⟨l, mem, (congrArg (List.find? _) dcache).trans line, dirty, stored, ran, fun r => ?_⟩
  exact (isG_retire _ c r 1).trans (keeps r)

/-- A word loaded from cached memory. -/
theorem cached_load {a : Nat} (ha : s.physical c (s.isG c ra.toNat + imm.signExtend 32) = a)
    (al : (s.isG c ra.toNat + imm.signExtend 32).toNat % 4 = 0) (hk : s.cached a = true)
    (hu : s.region a ≠ .unmapped) (hr : s.region a ≠ .regs) (hq : s.dcLine a = none → s.poisoned a 4 = false)
    (hp : s.permits (s.coreMaster c) a false = true)
    (hs : s.dcLine a = none → (s.fetched (coreOf c) 1).dramStall 4 (isIx c) (lineOf a) 64 false = none) :
    let t := s.coreLoad (coreOf c) rd ra imm 4 false
    t.mem = s.mem ∧ (t.dcLine a).map (·.bytes) = some (s.cacheBytes a) ∧
      Ran { (s.fetched (coreOf c) 1).withDram t with dcache := t.dcache } t (coreOf c) ((s.isAt c).pc + 4) 1 ∧
      Wrote s t (coreOf c) rd (BitVec.ofNat 32 (leNat (((s.cacheBytes a).drop (a % 64)).take 4))) := by
  have fetched := fetched_leaves ready
  have loads := isLoad_outcomes (s.fetched (coreOf c) 1) c (s.isG c ra.toNat + imm.signExtend 32) 4
    ((fetched.physical _).trans ha)
  obtain ⟨-, -, memory⟩ := loads
  obtain ⟨-, -, memory⟩ := memory al (by rw [fetched.coreMaster, fetched.permits, hp])
  obtain ⟨hit, miss, -⟩ := memory (by rwa [fetched.region]) (by rwa [fetched.region])
  have load : (s.fetched (coreOf c) 1).isLoad c (s.isG c ra.toNat + imm.signExtend 32) 4 =
      (none, ((s.cacheBytes a).drop (a % 64)).take 4, (s.fetched (coreOf c) 1).dcFill (isIx c) a) := by
    have value := dcLoad_eq (s.fetched (coreOf c) 1) (isIx c) a 4
    rw [cacheBytes_fetched ready] at value
    cases hd : s.dcLine a with
    | some l =>
      rw [hit hc (by rwa [fetched.cached]) (by rw [fetched.dcLine, hd]; rfl)]
      exact congrArg (Prod.mk none) value
    | none =>
      rw [miss hc (by rwa [fetched.cached]) (by rw [fetched.dcLine, hd]) (hs hd)
        (by rw [fetched.poisoned, hq hd])]
      exact congrArg (Prod.mk none) value
  have run := coreLoad_ready ready rd ra imm 4 false load
  rw [Option.getD_none, loadWord_of_drop] at run
  obtain ⟨l, line, bytes, -⟩ := dcFill_line (s.fetched (coreOf c) 1) (isIx c) a
  rw [cacheBytes_fetched ready] at bytes
  obtain ⟨mem, dcache, ran, wrote⟩ := cached_ran ready (dcFill_leaves (s.fetched (coreOf c) 1) (isIx c) a) rd
    (BitVec.ofNat 32 (leNat (((s.cacheBytes a).drop (a % 64)).take 4)))
  dsimp only
  rw [run]
  refine ⟨mem, ?_, ran, wrote⟩
  rw [State.dcLine, dcache, ← State.dcLine, line, Option.map_some, bytes]

end

/-! ### Registers as memory words (R3, R42) -/

theorem Quiet.sameCores {s t : State} (h : Quiet s t) : SameCores s t := ⟨h.xc, h.cc, h.sg⟩

theorem SameCores.ite {p : Prop} [Decidable p] {s t u : State} (h : SameCores s t) (k : SameCores s u) :
    SameCores s (if p then t else u) := by
  split
  · exact h
  · exact k

theorem busGrant_sameCores (s : State) (m : Master) : SameCores s (s.busGrant m) := by
  unfold State.busGrant
  split <;> exact ⟨rfl, rfl, rfl⟩

theorem semReadBy_sameCores (s : State) (m : Master) (n : Nat) : SameCores s (s.semReadBy m n).2 := by
  unfold State.semReadBy
  split
  · exact .refl s
  · dsimp only
    split <;> exact ⟨rfl, rfl, rfl⟩

theorem cvDrain_sameCores (s : State) (u : Nat) : SameCores s (s.cvDrain u) := by
  have whole := (cvDrain_holds s u).whole
  rw [whole]
  exact ⟨rfl, rfl, rfl⟩

theorem setReg_sameCores (s : State) (off : Nat) (v : Word) : SameCores s (s.setReg off v) := ⟨rfl, rfl, rfl⟩

theorem setReg64_sameCores (s : State) (lo hi : Nat) (v : Nat) : SameCores s (s.setReg64 lo hi v) := ⟨rfl, rfl, rfl⟩

theorem SameCores.each {s t : State} (h : SameCores s t) {f : Nat → State → State}
    (hf : ∀ i u, SameCores u (f i u)) (n : Nat) : SameCores s (t.each n f) := by
  induction n with
  | zero => exact h
  | succ n ih =>
    rw [each_succ]
    exact ih.trans (hf n _)

theorem latchNow_sameCores (s : State) (flat : Bool) : SameCores s (s.latchNow flat) := by
  have first : SameCores s
      (if flat then s.setReg TB_FLAT_LO (BitVec.ofNat 32 s.flat) else s.setReg TB_NOW_FRAC (BitVec.ofNat 32 s.tb.fr)) := by
    split <;> exact setReg_sameCores s _ _
  unfold State.latchNow
  exact (((first.trans (setReg_sameCores _ _ _)).trans (setReg_sameCores _ _ _)).trans
    (setReg_sameCores _ _ _)).trans (setReg_sameCores _ _ _)

theorem latchXs_sameCores (s : State) : SameCores s s.latchXs := by
  unfold State.latchXs
  exact (((setReg_sameCores s _ _).trans (setReg_sameCores _ _ _)).trans (setReg_sameCores _ _ _)).each
    (fun i u => setReg_sameCores u _ _) 4

theorem readPos_sameCores (s : State) : SameCores s s.readPos := by
  unfold State.readPos
  generalize s.lc.pos.toNat = p
  exact (setReg_sameCores _ _ _).trans (setReg64_sameCores _ _ _ _)

theorem readHwm_sameCores (s : State) : SameCores s s.readHwm := by
  unfold State.readHwm
  exact setReg64_sameCores _ _ _ _

theorem readQ_sameCores (s : State) (l : Nat) : SameCores s (s.readQ l) := by
  unfold State.readQ
  generalize (s.loopAt l).q.toNat = q
  exact (setReg_sameCores _ _ _).trans (setReg64_sameCores _ _ _ _)

theorem lcStat_sameCores (s : State) (off : Nat) : SameCores s
    ((s.setFld off LC_STAT_STILL (b2n s.lcStill)).setFld off LC_STAT_VALID (b2n s.lcValid)) := by
  unfold State.setFld
  exact (setReg_sameCores _ _ _).trans (setReg_sameCores _ _ _)

theorem refresh_sameCores (s : State) (d : RegDef) (off : Nat) : SameCores s (s.refresh d off) := by
  have set := fun v => setReg_sameCores s off v
  unfold State.refresh
  refine .ite (set _) (.ite (set _) (.ite (set _) (.ite (set _) (.ite (readPos_sameCores s) (.ite (readHwm_sameCores s)
    (.ite (lcStat_sameCores s off) (.ite (latchNow_sameCores s _) (.ite (latchNow_sameCores s _) (.ite (latchXs_sameCores s)
    (.ite (readQ_sameCores s _) (.ite (cvDrain_sameCores s _) (.ite (set _) (.ite ?_ (.refl s))))))))))))))
  split
  · exact set _
  · exact .refl s

/-- The read of a register leaves the cores. -/
theorem readReg_sameCores (s : State) (m : Master) (off : Nat) : SameCores s (s.readReg m off).2 := by
  unfold State.readReg
  split
  · exact .refl s
  split
  · exact (fault_quiet _ _ _ _).sameCores
  split
  · exact semReadBy_sameCores _ _ _
  · exact refresh_sameCores _ _ _

theorem wordsAt_one {a : Nat} (h : a % 4 = 0) : wordsAt a 4 = [a] := by
  unfold wordsAt
  rw [if_neg (by decide), show (a + 4 - 1) / 4 - a / 4 + 1 = 1 by omega]
  simp
  omega

theorem leNat_leBytes_word (v : Word) : leNat (leBytes 4 v.toNat) = v.toNat := by
  rw [leNat_leBytes]
  exact Nat.mod_eq_of_lt v.isLt

/-- A word that an access covers whole. -/
theorem mergeWord_whole (w : Nat) (v : Word) : mergeWord 0 w w (leBytes 4 v.toNat) = v := by
  have bytes : ((leBytes 4 (0 : Word).toNat).zipIdx.map fun (b, i) =>
      if w ≤ w + i then (leBytes 4 v.toNat).getD (w + i - w) b else b) = leBytes 4 v.toNat := by
    simp [leBytes, List.zipIdx]
  unfold mergeWord
  rw [bytes, leNat_leBytes_word, BitVec.ofNat_toNat, BitVec.setWidth_eq]

theorem regAddr_aligned {off : Nat} (h : off % 4 = 0) : regAddr off % 4 = 0 := by
  unfold regAddr
  omega

theorem regAddr_sub (off : Nat) : regAddr off - 0x180000000000 = off := by
  unfold regAddr
  exact Nat.add_sub_cancel_left ..

section
variable (s : State) (m : Master) {a off : Nat} (al : a % 4 = 0) (back : a - 0x180000000000 = off)
include al back

/-- A word of register space is the register's. -/
theorem regsLoad_word : s.regsLoad m a 4 =
    (leBytes 4 ((s.busGrant m).readReg m off).1.toNat, ((s.busGrant m).readReg m off).2) := by
  unfold State.regsLoad
  rw [wordsAt_one al, List.foldl_cons, List.foldl_nil, back]
  generalize (s.busGrant m).readReg m off = r
  dsimp only
  rw [al, List.nil_append, List.drop_zero, List.take_of_length_le (by rw [leBytes_length])]

theorem regsSave_word (v : Word) : s.regsSave m a (leBytes 4 v.toNat) = (s.busGrant m).writeReg m off v := by
  unfold State.regsSave
  rw [leBytes_length, wordsAt_one al, List.foldl_cons, List.foldl_nil, back, if_pos ⟨Nat.le_refl a, Nat.le_refl _⟩,
    mergeWord_whole]

end

theorem loadWord_word (v : Word) : loadWord 4 false (leBytes 4 v.toNat) = v := by
  unfold loadWord
  rw [List.take_of_length_le (by simp), leNat_leBytes_word]
  simp

/-- A register as a word of memory. -/
theorem register_words {s : State} {c : IsCore} (rd rs ra : BitVec 5) (imm : BitVec 16) (off : Nat)
    (ready : Ready s (coreOf c) 1 1) :
    let ea := s.isG c ra.toNat + imm.signExtend 32
    let m := s.coreMaster c
    let s' := (s.fetched (coreOf c) 1).busGrant m
    s.physical c ea = regAddr off → s.region (regAddr off) = .regs → off % 4 = 0 → ea.toNat % 4 = 0 →
    (s.permits m (regAddr off) false = true → (c = .sg → s.corePriv .sg = true) →
      ∃ t, exec (.lw (coreOf c) rd ra imm) s = .next t ∧ (t.isAt c).pc = (s.isAt c).pc + 4 ∧
        Wrote s t (coreOf c) rd (s'.readReg m off).1 ∧ t.regs = (s'.readReg m off).2.regs) ∧
    (s.permits m (regAddr off) true = true →
      ∃ t, exec (.sw (coreOf c) rs ra imm) s = .next t ∧
        t.regs = (s'.writeReg m off (s.isG c rs.toNat)).regs) ∧
    (s.permits m (regAddr off) false = true → c = .sg → s.corePriv .sg = false →
      ∃ t, exec (.lw (coreOf c) rd ra imm) s = .next t ∧ Trapped s t c 4 (s.isAt c).pc ea) := by
  have fetched := fetched_leaves ready
  dsimp only
  intro ha hr ho al
  have loads := isLoad_outcomes (s.fetched (coreOf c) 1) c (s.isG c ra.toNat + imm.signExtend 32) 4
    ((fetched.physical _).trans ha)
  have stores := isStore_outcomes (s.fetched (coreOf c) 1) c (s.isG c ra.toNat + imm.signExtend 32)
    (leBytes 4 (s.isG c rs.toNat).toNat) ((fetched.physical _).trans ha)
  have loadRuns := fun o bs u => load_runs (i := .lw (coreOf c) rd ra imm) (n := 4) (signed := false) (o := o)
    (bs := bs) (u := u) rfl ready
  rw [leBytes_length] at stores
  obtain ⟨-, -, memory⟩ := loads
  refine ⟨fun hp hs => ?_, fun hp => ?_, fun hp hc hs => ?_⟩
  · obtain ⟨register, -⟩ := memory al (by rw [fetched.coreMaster, fetched.permits, hp])
    obtain ⟨-, read⟩ := register (by rwa [fetched.region])
    have load := read (fun ⟨hc, hv⟩ => by
      subst hc
      rw [fetched.corePriv, hs rfl] at hv
      cases hv)
    rw [fetched.coreMaster, regsLoad_word _ _ (regAddr_aligned ho) (regAddr_sub off)] at load
    have run := loadRuns _ _ _ load
    rw [Option.getD_none, loadWord_word] at run
    have same := (busGrant_sameCores (s.fetched (coreOf c) 1) (s.coreMaster c)).trans
      (readReg_sameCores ((s.fetched (coreOf c) 1).busGrant (s.coreMaster c)) (s.coreMaster c) off)
    generalize ((s.fetched (coreOf c) 1).busGrant (s.coreMaster c)).readReg (s.coreMaster c) off = r at *
    obtain ⟨pc, g⟩ := same.keepsRegs c
    have only : OnlyIs r.2 ((r.2.setIsG c rd.toNat r.1).retire c 1) c := ((OnlyIs.refl _ c).setIsG _ _).onIs _
    refine ⟨_, run, ?_, load_wrote fun r' => ?_, by rw [only.1]⟩
    · rw [isAt_retire, isAt_setIsG, pc, fetched.pc]
    · rw [State.isG, g, ← State.isG, fetched.isG]
  · obtain ⟨register, -⟩ := stores al (by rw [fetched.coreMaster, fetched.permits, hp])
    have store := register (by rwa [fetched.region])
    rw [fetched.coreMaster, regsSave_word _ _ (regAddr_aligned ho) (regAddr_sub off)] at store
    have run : exec (.sw (coreOf c) rs ra imm) s = .next _ :=
      congrArg Host.Outcome.next (coreStore_ready ready rs ra imm 4 store)
    have only := onIs_onlyIs (((s.fetched (coreOf c) 1).busGrant (s.coreMaster c)).writeReg (s.coreMaster c) off
      (s.isG c rs.toNat)) c
    exact ⟨_, run, by rw [Option.getD_none, State.retire, State.retireTo, (only _).1]⟩
  · obtain ⟨register, -⟩ := memory al (by rw [fetched.coreMaster, fetched.permits, hp])
    obtain ⟨trap, -⟩ := register (by rwa [fetched.region])
    have load := trap ⟨hc, by subst hc; rw [fetched.corePriv, hs]⟩
    exact ⟨_, loadRuns _ _ _ load, except_trapped fetched.sameForTrap 4 _⟩

/-! ### The three copies of the Sagger's memory (R404) -/

/-- An address of the three copies of the Sagger's memory. -/
def inSagCopies (a : Nat) : Prop := SG_MEM ≤ a ∧ a < SG_MEM + 0xF0000

section
variable {a : Nat} (h : inSagCopies a)
include h

theorem hiddenByte_sag : hiddenByte a = false := by
  obtain ⟨h1, h2⟩ := h
  unfold SG_MEM at h1 h2
  have scratch : inScratch a = false := by
    unfold inScratch ST_SCRATCH
    simp only [Bool.and_eq_false_iff, decide_eq_false_iff_not]
    omega
  unfold hiddenByte LOOP_SECTION DS_TABLES VE_MEM PIPE_MEM
  rw [scratch, if_neg (by decide), if_neg (by omega), if_neg (by omega), if_neg (by omega), if_neg (by omega),
    if_neg (by omega)]

theorem readOnlyByte_sag : readOnlyByte a = false := by
  have hidden := hiddenByte_sag h
  obtain ⟨h1, h2⟩ := h
  unfold readOnlyByte
  rw [hidden]
  unfold SG_MEM at h1 h2
  unfold SG_MEM PIPE_MEM VE_MEM
  simp only [Bool.false_or, Bool.or_eq_false_iff, Bool.and_eq_false_iff, decide_eq_false_iff_not]
  omega

theorem fieldBits_sag : fieldBits a = 0xFF := by
  have hidden := hiddenByte_sag h
  obtain ⟨h1, h2⟩ := h
  unfold SG_MEM at h1 h2
  unfold fieldBits PIPE_MEM VAR_STORE DS_TABLES SEG_TABLE LOOP_SECTION
  rw [hidden, if_neg (by decide), if_neg (by omega), if_neg (by omega), if_neg (by omega), if_neg (by omega),
    if_neg (by omega)]

theorem region_sag (s : State) : s.region a = .sram := by
  obtain ⟨h1, h2⟩ := h
  unfold SG_MEM at h1 h2
  unfold State.region
  rw [Nat.mod_eq_of_lt (by omega)]
  dsimp only
  rw [if_neg (by omega), if_pos (by omega)]

end

/-- Bytes that lie in the copies are stored as they are. -/
theorem devSave_sag (s : State) {a : Nat} {bs : List Byte} (h : ∀ i, i < bs.length → inSagCopies (a + i))
    (ha : inSagCopies a) : s.devSave a bs = s.storeBytes a bs := by
  have bytes : (bs.zipIdx.map fun (b, i) =>
      if readOnlyByte (a + i) then memByte s.mem (a + i) else b &&& fieldBits (a + i)) = bs := by
    refine List.ext_getElem (by simp) fun i h1 h2 => ?_
    have hi := h i h2
    simp only [List.getElem_map, List.getElem_zipIdx, Nat.zero_add, readOnlyByte_sag hi, fieldBits_sag hi]
    exact BitVec.and_allOnes
  obtain ⟨h1, h2⟩ := ha
  unfold SG_MEM at h1 h2
  have sections : inSections a = false := by
    unfold inSections LOOP_SECTION
    simp only [Bool.and_eq_false_iff, decide_eq_false_iff_not]
    omega
  unfold State.devSave State.putBytes
  rw [bytes, sections, if_neg (by decide), if_neg (by unfold SG_MEM; omega)]

theorem memRead_congr {m m' : List Host.Cell} {a n : Nat} (h : ∀ i, i < n → memByte m (a + i) = memByte m' (a + i)) :
    memRead m a n = memRead m' a n := by
  refine List.ext_getElem (by simp) fun i h1 h2 => ?_
  rw [memRead_getElem, memRead_getElem]
  exact h i (by simpa using h1)

/-- What three copies of the same bytes hold. -/
theorem memRead_copies (m : List Host.Cell) (a : Nat) (bs : List Byte) {d e : Nat} (hd : bs.length ≤ d)
    (he : e = 2 * d) :
    ∀ i, i < 3 →
      memRead (memStore (memStore (memStore m a bs) (a + d) bs) (a + e) bs) (a + d * i) bs.length = bs := by
  intro i hi
  have cases : i = 0 ∨ i = 1 ∨ i = 2 := by omega
  rcases cases with rfl | rfl | rfl
  · refine (memRead_congr (m' := memStore m a bs) fun j hj => ?_).trans (memRead_store m a bs)
    rw [he, memByte_store_out _ _ _ _ (by omega), memByte_store_out _ _ _ _ (by omega), Nat.mul_zero, Nat.add_zero]
  · rw [Nat.mul_one]
    refine (memRead_congr fun j hj => ?_).trans (memRead_store (memStore m a bs) (a + d) bs)
    rw [memByte_store_out _ _ _ _ (by omega)]
  · rw [Nat.mul_comm d 2, ← he, memRead_store]

/-- A word that the Sagger stores into its memory. -/
theorem sagger_store {s : State} (rs ra : BitVec 5) (imm : BitVec 16) (ready : Ready s (coreOf .sg) 1 1) {a : Nat}
    (ha : s.physical .sg (s.isG .sg ra.toNat + imm.signExtend 32) = a)
    (al : (s.isG .sg ra.toNat + imm.signExtend 32).toNat % 4 = 0) (hp : s.permits .si a true = true) (h1 : SG_MEM ≤ a)
    (h2 : a + 4 ≤ SG_MEM + 0x50000) :
    ∃ t, s.coreStore (coreOf .sg) rs ra imm 4 = t ∧ t.sg.pc = s.sg.pc + 4 ∧
      (∀ i, i < 3 → t.loadNat (a + 0x50000 * i) 4 = (s.isG .sg rs.toNat).toNat) ∧
      ∀ x, (∀ i, i < 3 → x < a + 0x50000 * i ∨ a + 0x50000 * i + 4 ≤ x) → memByte t.mem x = memByte s.mem x := by
  have fetched := fetched_leaves ready
  have copies : ∀ k, k < 0xA0004 → inSagCopies (a + k) := fun k hk => ⟨by omega, by omega⟩
  have base : inSagCopies a := ⟨h1, by omega⟩
  obtain ⟨bs, hbs⟩ : ∃ bs, bs = leBytes 4 (s.isG .sg rs.toNat).toNat := ⟨_, rfl⟩
  have len : bs.length = 4 := by rw [hbs, leBytes_length]
  have stores := isStore_outcomes (s.fetched (coreOf .sg) 1) .sg (s.isG .sg ra.toNat + imm.signExtend 32) bs
    ((fetched.physical _).trans ha)
  rw [len] at stores
  obtain ⟨-, memory⟩ := stores al (by rw [fetched.coreMaster, fetched.permits]; exact hp)
  obtain ⟨-, own⟩ := memory (by rw [region_sag base]; decide)
    (by rw [region_sag base]; decide)
  have store := own rfl h1 (by omega)
  have save : ∀ (u : State) k, k ≤ 0xA0000 → u.devSave (a + k) bs = u.storeBytes (a + k) bs := fun u k hk =>
    devSave_sag u (fun i hi => by rw [Nat.add_assoc]; exact copies _ (by omega)) (copies k (by omega))
  rw [devSave_sag _ (fun i hi => copies i (by omega)) base, save _ _ (by omega),
    save _ _ (by omega)] at store
  rw [hbs] at store
  have run := coreStore_ready ready rs ra imm 4 store
  rw [← hbs, Option.getD_none] at run
  have pc := fetched.pc
  have mem := fetched.mem
  generalize s.fetched (coreOf .sg) 1 = w at *
  have sg : (((w.storeBytes a bs).storeBytes (a + 0x50000) bs).storeBytes (a + 0xA0000) bs).isAt .sg = w.isAt .sg := by
    rw [State.isAt, storeBytes_sg, storeBytes_sg, storeBytes_sg, State.isAt]
  have copied : (((w.storeBytes a bs).storeBytes (a + 0x50000) bs).storeBytes (a + 0xA0000) bs).mem =
      memStore (memStore (memStore w.mem a bs) (a + 0x50000) bs) (a + 0xA0000) bs := by
    rw [storeBytes_mem, storeBytes_mem, storeBytes_mem]
  generalize ((w.storeBytes a bs).storeBytes (a + 0x50000) bs).storeBytes (a + 0xA0000) bs = u at *
  have moved := congrArg IsSt.pc (isAt_retire u .sg)
  have kept : (u.retire .sg 1).mem = u.mem := rfl
  refine ⟨_, run, ?_, fun i hi => ?_, fun x hx => ?_⟩
  · refine moved.trans ?_
    rw [sg, pc]
    rfl
  · have read := memRead_copies w.mem a bs (d := 0x50000) (e := 0xA0000) (by omega) rfl i hi
    rw [len] at read
    rw [State.loadNat, State.loadBytes, kept, copied, read, hbs, leNat_leBytes_word]
  · have h0 := hx 0 (by omega)
    have h1 := hx 1 (by omega)
    have h2 := hx 2 (by omega)
    rw [← mem, kept, copied, memByte_store_out _ _ _ _ (by omega), memByte_store_out _ _ _ _ (by omega),
      memByte_store_out _ _ _ _ (by omega)]

/-- Settles O14: a store of a cached word reaches the filled line alone, a register is read and written through
`readReg` and `writeReg`, and the Sagger's own memory takes a store once for each copy. -/
theorem cachedAndRegisterAccesses : Obligations.CachedAndRegisterAccesses := by
  refine ⟨fun s k rd rs ra imm ready => ?_, fun s c rd rs ra imm off ready => ?_, fun s rs ra imm ready => ?_⟩
  · intro ea a m s' line al hk hu hr _ hq
    refine ⟨fun hp hs => ?_, fun hp hs => ?_⟩
    · obtain ⟨l, mem, found, dirty, bytes, ran, keeps⟩ := cached_store (c := .cc k) (rs := rs) ready nofun rfl al hk
        hu hr hq hp hs
      exact ⟨_, l, rfl, mem, found, dirty, bytes, ran, keeps⟩
    · exact ⟨_, rfl, cached_load (c := .cc k) (rd := rd) ready nofun rfl al hk hu hr hq hp hs⟩
  · exact register_words rd rs ra imm off ready
  · intro ea a al hp h1 h2
    obtain ⟨t, run, stored⟩ := sagger_store rs ra imm ready rfl al hp h1 h2
    exact ⟨t, congrArg Host.Outcome.next run, stored⟩

end Sys2Proof.Machine

/-!
REP, the ends of a tile, and the vector group (R39, R58, R61, R69 to R71, R81).
-/

namespace Sys2Proof.Machine

/-! ### An instruction of an expansion core whose tile is live (R35, R38, R71) -/

section
variable {s : State} {x : Fin 144} {words cost : Nat} {target : Option Word} {act part : State → State}
  (live : s.xcLive x = true) (inside : (s.xcAt x).pc.toNat + 4 * words ≤ localTop)
include live inside

/-- An instruction whose cost fits has its whole effect. -/
theorem xcStep_acts (budget : (s.xcAt x).cycles + cost ≤ (s.xcAt x).cost) :
    s.xcStep x words cost target act part = (act s).onXc x fun c =>
      { c with cycles := (s.xcAt x).cycles + cost }.advance
        (target.getD ((s.xcAt x).pc + BitVec.ofNat 32 (4 * words))) := by
  unfold State.xcStep
  dsimp only
  rw [live, if_neg (by decide), if_neg (by omega), if_neg (by omega)]

/-- The metering unit stops an instruction whose cost does not fit. -/
theorem xcStep_stops (tooMuch : (s.xcAt x).cost < (s.xcAt x).cycles + cost) :
    s.xcStep x words cost target act part = (part s).onXc x fun c => { c with cycles := c.cost } := by
  unfold State.xcStep
  dsimp only
  rw [live, if_neg (by decide), if_neg (by omega), if_pos tooMuch]

end

theorem xcLive_tile {s : State} {x : Nat} (live : s.xcLive x = true) : ∃ key, (s.xcAt x).tile = some key := by
  unfold State.xcLive at live
  simp only [Bool.and_eq_true] at live
  exact Option.isSome_iff_exists.1 live.1.2

/-! ### REP (R69) -/

theorem instrWords_pos (i : Instr) : 0 < instrWords i := by
  unfold instrWords
  split <;> omega

/-- The body of a REP has at least one instruction, and lies in data memory. -/
theorem bodyEnd_bounds {s : State} {x n a e : Nat} (h : s.bodyEnd x (n + 1) a = some e) : a < e ∧ e ≤ localTop := by
  induction n generalizing a with
  | zero =>
    unfold State.bodyEnd at h
    split at h
    · cases h
    split at h
    · rename_i i _
      have words := instrWords_pos i
      split at h
      · cases h
      · rename_i fits
        simp only [not_or] at fits
        cases h
        omega
    · cases h
  | succ n ih =>
    unfold State.bodyEnd at h
    split at h
    · cases h
    split at h
    · split at h
      · cases h
      · have := ih h
        omega
    · cases h

section
variable {s : State} {x : Fin 144} {a : BitVec 5} {n : BitVec 4} {e : Nat}
  (ready : Ready s (.xc x) 1 2) (body : s.bodyEnd x (n.toNat + 1) ((s.xcAt x).pc + 4).toNat = some e)
include ready body

theorem rep_skips (zero : s.xg x a.toNat = 0) :
    ∃ t, exec (.rep x a n) s = .next t ∧
      t.xcAt x = { s.xcAt x with pc := BitVec.ofNat 32 e, cycles := (s.xcAt x).cycles + 2 } ∧
      t = { s with xc := t.xc } ∧ OtherCores s t (.xc x) := by
  obtain ⟨live, norep, inside, budget⟩ := ready
  have run : exec (.rep x a n) s = .next (s.xcStep x 1 2 (some (BitVec.ofNat 32 e)) id id) := by
    refine congrArg Host.Outcome.next ?_
    dsimp only
    rw [body]
    exact if_pos (congrArg BitVec.toNat zero)
  rw [xcStep_acts live inside budget] at run
  refine ⟨_, run, ?_, rfl, (onXc_onlyCore _ x _).2⟩
  rw [onXc_xcAt, if_pos rfl]
  simp only [XcSt.advance, id, norep, Option.getD_some]

theorem rep_starts (some_ : s.xg x a.toNat ≠ 0) :
    ∃ t, exec (.rep x a n) s = .next t ∧ t.mem = s.mem ∧
      xcRan s t x 2 { s.xcAt x with
        rep := some { first := (s.xcAt x).pc + 4, after := BitVec.ofNat 32 e, left := (s.xg x a.toNat).toNat } } := by
  obtain ⟨live, norep, inside, budget⟩ := ready
  have count : (s.xg x a.toNat).toNat ≠ 0 := fun h => some_ (BitVec.eq_of_toNat_eq h)
  generalize hr : ({ first := (s.xcAt x).pc + 4, after := BitVec.ofNat 32 e, left := (s.xg x a.toNat).toNat } : RepSt) = r
  have run : exec (.rep x a n) s = .next (s.xcStep x 1 2 none (fun s => s.onXc x fun c => { c with rep := some r }) id) := by
    refine congrArg Host.Outcome.next ?_
    dsimp only
    rw [body]
    subst hr
    exact if_neg count
  have before : ((s.xcAt x).pc + 4).toNat < r.after.toNat := by
    obtain ⟨low, high⟩ := bodyEnd_bounds body
    rw [← hr]
    dsimp only
    rw [BitVec.toNat_ofNat, Nat.mod_eq_of_lt (high.trans_lt (by decide))]
    exact low
  rw [xcStep_acts live inside budget] at run
  have leaves := (onXc_leaves s x fun c => { c with rep := some r }).trans (onXc_leaves _ x fun c =>
    { c with cycles := (s.xcAt x).cycles + 2 }.advance ((s.xcAt x).pc + 4))
  refine ⟨_, run, rfl, xcRan_iff_leaves.2 ?_⟩
  rw [onXc_xcAt, if_pos rfl] at leaves
  have core : XcSt.advance { { s.xcAt x with rep := some r } with cycles := (s.xcAt x).cycles + 2 } ((s.xcAt x).pc + 4) =
      { { s.xcAt x with rep := some r } with pc := (s.xcAt x).pc + 4, cycles := (s.xcAt x).cycles + 2 } := by
    unfold XcSt.advance
    exact if_pos before
  rw [core] at leaves
  exact leaves

end

/-- The last instruction of the body leads back to its first while iterations are left. -/
theorem addi_endsBody {s : State} {x : Fin 144} {r : RepSt} (rd ra : BitVec 5) (imm : BitVec 16)
    (rep : (s.xcAt x).rep = some r) (live : s.xcLive x = true) (inside : (s.xcAt x).pc.toNat + 4 ≤ localTop)
    (budget : (s.xcAt x).cycles + 1 ≤ (s.xcAt x).cost) (last : (s.xcAt x).pc + 4 = r.after) :
    ∃ t, exec (.addi (.xc x) rd ra imm) s = .next t ∧
      Wrote s t (.xc x) rd (s.xg x ra.toNat + imm.signExtend 32) ∧
      (if 1 < r.left then (t.xcAt x).pc = r.first ∧ (t.xcAt x).rep = some { r with left := r.left - 1 }
       else (t.xcAt x).pc = r.after ∧ (t.xcAt x).rep = none) := by
  have run : exec (.addi (.xc x) rd ra imm) s = .next (s.xcStep x 1 1 none
      (fun s => s.setCoreG (.xc x) rd (s.coreG (.xc x) ra + immS imm)) id) := rfl
  rw [xcStep_acts live inside budget] at run
  have leaves := setCoreG_leaves s x rd (s.coreG (.xc x) ra + immS imm)
  have wrote := fun q => coreG_setCoreG s (.xc x) rd q (s.coreG (.xc x) ra + immS imm)
  generalize s.setCoreG (.xc x) rd (s.coreG (.xc x) ra + immS imm) = u at *
  have core := onXc_leaves u x fun c => { c with cycles := (s.xcAt x).cycles + 1 }.advance ((s.xcAt x).pc + 4)
  have rep' : (u.xcAt x).rep = some r := by
    rw [leaves.1]
    exact rep
  have next : ∀ c : XcSt, c.rep = some r → c.advance ((s.xcAt x).pc + 4) =
      if 1 < r.left then { c with pc := r.first, rep := some { r with left := r.left - 1 } }
      else { c with pc := r.after, rep := none } := fun c hc => by
    unfold XcSt.advance
    rw [hc, last]
    exact if_neg (Nat.lt_irrefl _)
  have xc := core.1.trans (next _ rep')
  refine ⟨_, run, fun q => ?_, ?_⟩
  · refine Eq.trans ?_ (wrote q)
    change (State.xcAt _ x).g.get 0 _ = (u.xcAt x).g.get 0 _
    refine (congrArg (fun c : XcSt => c.g.get 0 q.toNat) xc).trans ?_
    split <;> rfl
  · refine iff_of_eq (congrArg (fun c : XcSt => if 1 < r.left then c.pc = r.first ∧ c.rep = some { r with left := r.left - 1 }
      else c.pc = r.after ∧ c.rep = none) xc) |>.2 ?_
    split
    · exact ⟨rfl, rfl⟩
    · exact ⟨rfl, rfl⟩

theorem rep_repeats : repRepeatsItsBody := by
  intro s x a n e first
  refine ⟨fun ready body => ⟨rep_skips ready body, rep_starts ready body⟩, fun ready body => ?_,
    fun r rd ra imm rep live inside budget last => addi_endsBody rd ra imm rep live inside budget last⟩
  obtain ⟨key, tile⟩ := xcLive_tile ready.1
  obtain ⟨done, -, ⟨h, handed, -, illegal, -⟩, -⟩ := xcIllegal_fails tile
  refine ⟨s.xcIllegal x, congrArg Host.Outcome.next ?_, done, h, handed, illegal⟩
  dsimp only
  rw [body]
  exact if_pos ready.1

/-! ### The ends of a tile (R58, R70, R71) -/

theorem tiles_end : tilesEndByHandOver := by
  intro s x key tile c crc
  refine ⟨fun live inside budget => ?_, fun live inside tooMuch => ?_, fun tooMuch => ?_⟩
  · have run : exec (.tend x) s = .next ((s.onXc x fun c => { c with cycles := c.cycles + 136 }).handTile x false false) := by
      refine congrArg Host.Outcome.next ?_
      dsimp only
      rw [live, if_neg (by decide), if_neg (Nat.not_lt.2 inside), if_neg (Nat.not_lt.2 budget)]
    have leaves := onXc_leaves s x fun c => { c with cycles := c.cycles + 136 }
    have same : (s.onXc x fun c => { c with cycles := c.cycles + 136 }).tileCrc x = crc := by
      unfold State.tileCrc State.tileBuf
      rw [leaves.1]
      rfl
    rw [handTile_hands (key := key) (by rw [leaves.1]; exact tile), same] at run
    refine ⟨_, run, ?_, rfl, leaves.2.2.trans (onXc_onlyCore _ x _).2⟩
    rw [onXc_xcAt, if_pos rfl, leaves.1]
  · have run : exec (.tend x) s = .next (s.onXc x fun c => { c with cycles := c.cost }) := by
      refine congrArg Host.Outcome.next ?_
      dsimp only
      rw [live, if_neg (by decide), if_neg (Nat.not_lt.2 inside), if_pos tooMuch]
    exact ⟨_, run, (onXc_leaves s x _).1⟩
  · have run : exec (.meteringStop x) s = .next (s.handTile x false true) :=
      congrArg Host.Outcome.next (if_pos ⟨by rw [tile]; rfl, tooMuch⟩)
    rw [handTile_hands tile] at run
    exact ⟨_, run, (onXc_leaves s x _).1, rfl, (onXc_onlyCore s x _).2⟩

/-! ### Illegal modes and the metering unit (R39, R61, R71) -/

theorem xcPaint_illegal {s : State} {x cost : Nat} {m : BitVec 3} {src : Nat → Nat → Option Nat} {after : State → State}
    (hm : 5 ≤ m.toNat) (live : s.xcLive x = true) : s.xcPaint x cost m src after = s.xcIllegal x := by
  unfold State.xcPaint
  rw [if_pos hm, if_pos live]

theorem vfld_illegal {s : State} {x : Fin 144} {a : BitVec 5} {f : BitVec 2} {m : BitVec 3} (hm : 5 ≤ m.toNat)
    (live : s.xcLive x = true) : exec (.vfld x a f m) s = .next (s.xcIllegal x) := by
  refine congrArg Host.Outcome.next ?_
  dsimp only
  split
  · exact xcPaint_illegal hm live
  · split
    · exact xcPaint_illegal hm live
    · rfl

theorem illegal_modes {s : State} {x : Fin 144} (live : s.xcLive x = true) {m : BitVec 3} (o : BitVec 3)
    (sp f : BitVec 2) (a b c : BitVec 5) (hm : 5 ≤ m.toNat) {i : Instr}
    (h : i = .span x sp b m ∨ i = .trapShape x sp b c m ∨ i = .cell x sp b m ∨ i = .blit x o a b c m ∨
      i = .unpk x a b c m ∨ i = .glyph x o a b c m ∨ i = .vfld x a f m ∨ i = .vstt x o b m) :
    exec i s = .next (s.xcIllegal x) := by
  have paint := fun cost src after => congrArg (Host.Outcome.next (σ := State) (φ := Fault) (ρ := Refusal))
    (xcPaint_illegal (cost := cost) (src := src) (after := after) hm live)
  rcases h with rfl | rfl | rfl | rfl | rfl | rfl | rfl | rfl
  · exact paint _ _ _
  · exact paint _ _ _
  · exact paint _ _ _
  · exact paint _ _ _
  · exact paint _ _ _
  · exact paint _ _ _
  · exact vfld_illegal hm live
  · exact paint _ _ _

theorem div_stops {s : State} {x : Fin 144} (live : s.xcLive x = true) (rd ra rb : BitVec 5)
    (inside : (s.xcAt x).pc.toNat + 4 ≤ localTop) (tooMuch : (s.xcAt x).cost < (s.xcAt x).cycles + 34) :
    ∃ t, exec (.div (.xc x) rd ra rb) s = .next t ∧ t = { s with xc := t.xc } ∧
      OtherCores s t (.xc x) ∧ t.xcAt x = { s.xcAt x with cycles := (s.xcAt x).cost } := by
  have run : exec (.div (.xc x) rd ra rb) s = .next (s.xcStep x 1 34 none
      (fun s => s.setCoreG (.xc x) rd (divS (s.coreG (.xc x) ra) (s.coreG (.xc x) rb))) id) := rfl
  rw [xcStep_stops live inside tooMuch] at run
  exact ⟨_, run, rfl, (onXc_onlyCore _ x _).2, (onXc_leaves _ x _).1⟩

/-- CLR that the metering unit stops has filled some of the dots. -/
theorem clr_stops {s : State} {x : Fin 144} (live : s.xcLive x = true) (ra : BitVec 5)
    (inside : (s.xcAt x).pc.toNat + 4 ≤ localTop) (tooMuch : (s.xcAt x).cost < (s.xcAt x).cycles + 130) :
    ∃ t, exec (.clr x ra) s = .next t ∧ t = { s with xc := t.xc, mem := t.mem, poison := t.poison } ∧
      OtherCores s t (.xc x) ∧ t.xcAt x = { s.xcAt x with cycles := (s.xcAt x).cost } ∧
      MemBut s t (s.tileBuf x) 16384 ∧
      ∀ k, k < 16384 → memByte t.mem (s.tileBuf x + k) = (s.xg x ra.toNat).setWidth 8 ∨
        memByte t.mem (s.tileBuf x + k) = memByte s.mem (s.tileBuf x + k) := by
  generalize hbs : ((s.loadBytes (s.tileBuf x) 0x4000).zipIdx.map fun (b, i) =>
    if s.meterKeep x i then (s.xg x ra.toNat).setWidth 8 else b) = bs
  have len : bs.length = 0x4000 := by
    rw [← hbs, List.length_map, List.length_zipIdx, State.loadBytes, memRead_length]
  have run : exec (.clr x ra) s = .next _ :=
    congrArg Host.Outcome.next (xcStep_stops (target := none) (part := fun s' =>
      s'.storeBytes (s'.tileBuf x) ((s'.loadBytes (s'.tileBuf x) 0x4000).zipIdx.map fun (b, i) =>
        if s'.meterKeep x i then (s.xg x ra.toNat).setWidth 8 else b)) live inside tooMuch)
  dsimp only at run
  rw [hbs] at run
  have leaves := (storeBytes_leaves s x (s.tileBuf x) bs).trans
    (onXc_leaves (s.storeBytes (s.tileBuf x) bs) x fun c => { c with cycles := c.cost })
  refine ⟨_, run, rfl, leaves.2.2, leaves.1, fun y hy => ?_, fun k hk => ?_⟩
  · exact storeBytes_out _ _ _ _ (by rwa [len])
  · have byte := storeBytes_in s (s.tileBuf x) bs k (by rwa [len])
    have value : bs[k]'(by rwa [len]) = if s.meterKeep x k then (s.xg x ra.toNat).setWidth 8
        else memByte s.mem (s.tileBuf x + k) := by
      subst hbs
      simp [State.loadBytes, memRead_getElem]
    rw [value] at byte
    split at byte
    · exact .inl byte
    · exact .inr byte

theorem illegal_andStops : illegalModesAndTheMeterStop := by
  intro s x key tile live
  refine ⟨fun m o sp f a b c hm i hi => ?_, fun rd ra rb inside => ⟨div_stops live rd ra rb inside, clr_stops live ra inside⟩⟩
  obtain ⟨done, -, ⟨h, handed, hkey, illegal, -⟩, -, frame, others⟩ := xcIllegal_fails tile
  exact ⟨_, illegal_modes live o sp f a b c hm hi, done, frame.1.mem, others, h, handed, hkey, illegal⟩

/-- Settles O20: the end of a REP's body and of a tile by what one step of an expansion core does. -/
theorem repAndTileEnds : Obligations.RepAndTileEnds := ⟨rep_repeats, tiles_end, illegal_andStops⟩

end Sys2Proof.Machine

namespace Sys2Proof.Machine

/-! ### Vector registers (R81) -/

theorem get_foldl_set (l : List Byte) (t : Tbl Byte) (base n y : Nat) :
    ((l.zipIdx n).foldl (fun t (p : Byte × Nat) => t.set 0 (base + p.2) p.1) t).get 0 y =
      if base + n ≤ y ∧ y < base + n + l.length then l.getD (y - (base + n)) 0 else t.get 0 y := by
  induction l generalizing t n with
  | nil => exact (if_neg (by simp only [List.length_nil]; omega)).symm
  | cons b l ih =>
    rw [List.zipIdx_cons, List.foldl_cons, ih, Tbl.get_set]
    by_cases first : y = base + n
    · subst first
      simp
    · by_cases inside : base + n ≤ y ∧ y < base + n + (b :: l).length
      · obtain ⟨low, high⟩ := inside
        rw [List.length_cons] at high
        rw [if_pos (by omega), if_pos (by rw [List.length_cons]; omega),
          show y - (base + n) = y - (base + (n + 1)) + 1 by omega, List.getD_cons_succ]
      · rw [List.length_cons] at inside
        rw [if_neg (by omega), if_neg first, if_neg (by rw [List.length_cons]; omega)]

section
variable (s : State) (x : Fin 144)

@[simp] theorem xv_length (r : Nat) : (s.xv x r).length = 32 := by simp [State.xv]

theorem setXv_leaves (r : Nat) (lanes : List Byte) :
    XcLeaves s (s.setXv x r lanes) x { s.xcAt x with v := ((s.setXv x r lanes).xcAt x).v } := by
  have leaves := onXc_leaves s x fun c =>
    { c with v := lanes.zipIdx.foldl (fun t (b, i) => t.set 0 (32 * r + i) b) c.v }
  exact leaves.1 ▸ leaves

theorem xv_setXv {lanes : List Byte} (len : lanes.length = 32) (r q : Nat) :
    (s.setXv x r lanes).xv x q = if q = r then lanes else s.xv x q := by
  have core : ((s.setXv x r lanes).xcAt x).v = lanes.zipIdx.foldl (fun t (b, i) => t.set 0 (32 * r + i) b) (s.xcAt x).v :=
    congrArg XcSt.v (onXc_leaves s x _).1
  have lane : ∀ i, i < 32 → ((s.setXv x r lanes).xcAt x).v.get 0 (32 * q + i) =
      if q = r then lanes.getD i 0 else (s.xcAt x).v.get 0 (32 * q + i) := fun i hi => by
    rw [core]
    refine (get_foldl_set lanes _ (32 * r) 0 _).trans ?_
    rw [len]
    by_cases h : q = r
    · subst h
      rw [if_pos (by omega), if_pos rfl, show 32 * q + i - (32 * q + 0) = i by omega]
    · rw [if_neg (by omega), if_neg h]
  refine List.ext_getElem (by split <;> simp [len]) fun i h1 h2 => ?_
  have hi : i < 32 := by simpa using h1
  simp only [State.xv, List.getElem_map, List.getElem_range, lane i hi]
  split
  · rw [List.getD_eq_getElem]
  · simp

end

/-- What an instruction that writes one vector register leaves. -/
def VectorWrote (s t : State) (x : Fin 144) (r : Nat) (lanes : List Byte) : Prop :=
  t.mem = s.mem ∧ xcRan s t x 1 { s.xcAt x with v := (t.xcAt x).v } ∧ t.xv x r = lanes ∧
    ∀ q, q ≠ r → t.xv x q = s.xv x q

section
variable {s : State} {x : Fin 144}

/-- An instruction that writes one vector register, and nothing else. -/
theorem xcExec_writesVector {i : Instr} {act : State → State} (u : State) {r : Nat} {lanes : List Byte}
    (exec_eq : exec i s = .next (s.xcDo x 1 act)) (ready : Ready s (.xc x) 1 1)
    (acts : act s = u.setXv x r lanes) (before : XcLeaves s u x (s.xcAt x)) (mem : u.mem = s.mem)
    (len : lanes.length = 32) : ∃ t, exec i s = .next t ∧ VectorWrote s t x r lanes := by
  have leaves := before.trans (before.1 ▸ setXv_leaves u x r lanes)
  rw [← acts] at leaves
  obtain ⟨t, run, mem', ran⟩ := xcExec_runs exec_eq ready leaves rfl rfl
  have v : (t.xcAt x).v = ((act s).xcAt x).v := by rw [ran.1]
  have vectors : ∀ q, t.xv x q = if q = r then lanes else s.xv x q := fun q => by
    have same : u.xv x q = s.xv x q := by rw [State.xv, before.1, ← State.xv]
    rw [← same, ← xv_setXv u x len, ← acts, State.xv, v, ← State.xv]
  refine ⟨t, run, mem'.trans ((congrArg State.mem acts).trans mem), by rwa [v], ?_, fun q hq => ?_⟩
  · rw [vectors, if_pos rfl]
  · rw [vectors, if_neg hq]

theorem lanesOf_of_lanesOp {i : Fin 144 → BitVec 3 → BitVec 3 → BitVec 3 → Instr} {f : Nat → Nat → Nat}
    (exec_eq : ∀ s x va vb vc, exec (i x va vb vc) s = .next (s.lanesOp x va.toNat vb.toNat vc.toNat f)) : lanesOf i f := by
  intro s x va vb vc ready
  obtain ⟨t, run, mem, ran, lanes, others⟩ := xcExec_writesVector s (exec_eq s x va vb vc) ready rfl (XcLeaves.refl s x) rfl
    (by simp)
  refine ⟨t, run, mem, ran, fun k hk => ?_, others⟩
  rw [lanes, List.getD_eq_getElem _ _ (by simpa using hk), List.getElem_zipWith,
    List.getD_eq_getElem _ _ (by simpa using hk), List.getD_eq_getElem _ _ (by simpa using hk)]

/-- An instruction that writes one general register, and nothing else. -/
theorem xcExec_writesRegister {i : Instr} {act : State → State} {cost : Nat} {rd : BitVec 5} {v : Word}
    (exec_eq : exec i s = .next (s.xcDo x cost act)) (ready : Ready s (.xc x) 1 cost)
    (acts : act s = s.setCoreG (.xc x) rd v) :
    ∃ t, exec i s = .next t ∧ t.mem = s.mem ∧ xcRan s t x cost { s.xcAt x with g := (t.xcAt x).g } ∧
      Wrote s t (.xc x) rd v := by
  have leaves := setCoreG_leaves s x rd v
  rw [← acts] at leaves
  obtain ⟨t, run, mem, ran⟩ := xcExec_runs exec_eq ready leaves rfl rfl
  have g : (t.xcAt x).g = ((act s).xcAt x).g := by rw [ran.1]
  refine ⟨t, run, mem.trans ?_, by rwa [g], fun r => ?_⟩
  · rw [acts, setCoreG_mem]
  · rw [State.coreG, State.xg, g, acts]
    exact coreG_setCoreG s (.xc x) rd r v

end

theorem foldl_add_eq_sum (l : List Byte) (n : Nat) : l.foldl (fun n b => n + b.toNat) n = n + (l.map BitVec.toNat).sum := by
  induction l generalizing n with
  | nil => rfl
  | cons b l ih =>
    rw [List.foldl_cons, ih, List.map_cons, List.sum_cons, Nat.add_assoc]

theorem vector_arithmetic : vectorArithmetic := by
  refine ⟨lanesOf_of_lanesOp fun _ _ _ _ _ => rfl, lanesOf_of_lanesOp fun _ _ _ _ _ => rfl,
    lanesOf_of_lanesOp fun _ _ _ _ _ => rfl, lanesOf_of_lanesOp fun _ _ _ _ _ => rfl,
    lanesOf_of_lanesOp fun _ _ _ _ _ => rfl, lanesOf_of_lanesOp fun _ _ _ _ _ => rfl,
    fun s x a c v => ⟨fun ready => xcExec_writesRegister rfl ready rfl, fun ready => ?_⟩⟩
  have sum := foldl_add_eq_sum (s.xv x v.toNat) 0
  rw [Nat.zero_add] at sum
  rw [← sum]
  exact xcExec_writesRegister rfl ready rfl

/-! ### Painting (R60, R61) -/

theorem blended_eq_blend (m s d : Nat) : blended m s d = blend m s d := by
  match m with
  | 0 | 1 | 2 | 3 => rfl
  | n + 4 => simp [blended, blend]

/-- Painting blends each dot that has a source value, and no other byte. -/
theorem paint_painted {s : State} {x : Fin 144} (m : BitVec 3) (src : Nat → Nat → Option Nat) :
    Painted s (s.paint x m.toNat src fun _ => true) x m src := by
  generalize hbs : ((s.loadBytes (s.tileBuf x) 0x4000).zipIdx.map fun (b, i) =>
    match src (i % 256) (i / 256) with
    | some v => if (fun _ : Nat => true) i then BitVec.ofNat 8 (blend m.toNat v b.toNat) else b
    | none => b) = bs
  have len : bs.length = 0x4000 := by
    rw [← hbs, List.length_map, List.length_zipIdx, State.loadBytes, memRead_length]
  have stored : (s.paint x m.toNat src fun _ => true) = s.storeBytes (s.tileBuf x) bs := by
    rw [← hbs]
    rfl
  rw [stored]
  refine ⟨fun i j hi hj => ?_, fun y hy => storeBytes_out _ _ _ _ (by rwa [len])⟩
  have byte := storeBytes_in s (s.tileBuf x) bs (256 * j + i) (by omega)
  have value : bs[256 * j + i]'(by omega) = match src i j with
      | some v => BitVec.ofNat 8 (blend m.toNat v (memByte s.mem (s.tileBuf x + (256 * j + i))).toNat)
      | none => memByte s.mem (s.tileBuf x + (256 * j + i)) := by
    subst hbs
    have col : (256 * j + i) % 256 = i := by omega
    have row : (256 * j + i) / 256 = j := by omega
    simp [State.loadBytes, memRead_getElem, col, row]
  rw [Nat.add_assoc, byte, value]
  cases src i j with
  | some v => exact congrArg (BitVec.ofNat 8) (blended_eq_blend _ _ _).symm
  | none => rfl

theorem painted_of_mem {s t u : State} {x : Fin 144} {m : BitVec 3} {src : Nat → Nat → Option Nat}
    (h : Painted s t x m src) (mem : u.mem = t.mem) : Painted s u x m src := by
  unfold Painted MemBut
  rw [mem]
  exact h

/-- An instruction that blends source values into the tile. -/
theorem xcPaint_runs {s : State} {x : Fin 144} {i : Instr} {cost : Nat} {m : BitVec 3} {src : Nat → Nat → Option Nat}
    {after : State → State} {c : XcSt} (exec_eq : exec i s = .next (s.xcPaint x cost m src after)) (hm : m.toNat < 5)
    (ready : Ready s (.xc x) 1 cost)
    (leaves : ∀ u, XcLeaves s u x (s.xcAt x) → XcLeaves u (after u) x c ∧ (after u).mem = u.mem)
    (cycles : c.cycles = (s.xcAt x).cycles) (rep : c.rep = (s.xcAt x).rep) :
    ∃ t, exec i s = .next t ∧ Painted s t x m src ∧ xcRan s t x cost c := by
  have run : exec i s = .next (s.xcStep x 1 cost none (fun s => after (s.paint x m.toNat src fun _ => true))
      (fun s => s.paint x m.toNat src (s.meterKeep x))) := exec_eq.trans (congrArg _ (if_neg (by omega)))
  have paints := storeBytes_leaves s x (s.tileBuf x)
  obtain ⟨next, mem⟩ := leaves (s.paint x m.toNat src fun _ => true) (paints _)
  obtain ⟨t, run', mem', ran⟩ := xcExec_runs run ready ((paints _).trans next) cycles rep
  exact ⟨t, run', painted_of_mem (paint_painted m src) (mem'.trans mem), ran⟩

/-- An instruction that blends source values into the tile, and changes nothing else. -/
theorem xcPaint_only {s : State} {x : Fin 144} {i : Instr} {cost : Nat} {m : BitVec 3} {src : Nat → Nat → Option Nat}
    (exec_eq : exec i s = .next (s.xcPaint x cost m src id)) (hm : m.toNat < 5) (ready : Ready s (.xc x) 1 cost) :
    ∃ t, exec i s = .next t ∧ Painted s t x m src ∧ xcRan s t x cost (s.xcAt x) :=
  xcPaint_runs exec_eq hm ready (fun u h => ⟨h.1 ▸ XcLeaves.refl u x, rfl⟩) rfl rfl

/-! ### Vectors and memory (R81) -/

section
variable {s : State} {x : Fin 144} (v : BitVec 3) (b : BitVec 5) (ready : Ready s (.xc x) 1 1)
include ready

theorem vld_loads (inside : (s.xg x b.toNat).toNat / 32 * 32 + 32 ≤ localTop) :
    ∃ t, exec (.vld x v b) s = .next t ∧
      VectorWrote s t x v.toNat (s.loadBytes (XC_MEM x + (s.xg x b.toNat).toNat / 32 * 32) 32) := by
  have bytes : s.draw.2.localBytes s.freeIx x ((s.xg x b.toNat).toNat / 32 * 32) 32 =
      s.loadBytes (XC_MEM x + (s.xg x b.toNat).toNat / 32 * 32) 32 := localBytes_eq_loadBytes s.draw.2 _ _ inside
  rw [← bytes]
  exact xcExec_writesVector s.draw.2 rfl ready rfl (draw_leaves s x) rfl (by simp [State.localBytes])

theorem vst_stores (inside : (s.xg x b.toNat).toNat / 32 * 32 + 32 ≤ localTop) :
    ∃ t, exec (.vst x v b) s = .next t ∧ xcRan s t x 1 (s.xcAt x) ∧
      t.loadBytes (XC_MEM x + (s.xg x b.toNat).toNat / 32 * 32) 32 = s.xv x v.toNat ∧
      MemBut s t (XC_MEM x + (s.xg x b.toNat).toNat / 32 * 32) 32 := by
  have len := xv_length s x v.toNat
  have stored := localStore_eq_storeBytes s x (a := (s.xg x b.toNat).toNat / 32 * 32) (bs := s.xv x v.toNat) (by omega)
  obtain ⟨t, run, mem, ran⟩ := xcExec_runs (i := .vst x v b) rfl ready (stored ▸ storeBytes_leaves s x _ _) rfl rfl
  replace mem := mem.trans (congrArg State.mem stored)
  have read := memRead_store s.mem (XC_MEM x + (s.xg x b.toNat).toNat / 32 * 32) (s.xv x v.toNat)
  rw [len] at read
  refine ⟨t, run, ran, ?_, fun y hy => ?_⟩
  · rw [State.loadBytes, mem, storeBytes_mem, read]
  · rw [mem, storeBytes_out _ _ _ _ (by rwa [len])]

theorem vldt_loads : ∃ t, exec (.vldt x v b) s = .next t ∧
    VectorWrote s t x v.toNat (s.loadBytes (s.tileBuf x + segment (s.xg x b.toNat)) 32) :=
  xcExec_writesVector s rfl ready rfl (XcLeaves.refl s x) rfl (memRead_length _ _ _)

theorem vspl_splats : ∃ t, exec (.vspl x v b) s = .next t ∧
    VectorWrote s t x v.toNat (List.replicate 32 ((s.xg x b.toNat).setWidth 8)) :=
  xcExec_writesVector s rfl ready rfl (XcLeaves.refl s x) rfl List.length_replicate

/-- VSTT blends its lanes into the dots of its segment. -/
theorem vstt_blends {m : BitVec 3} (hm : m.toNat < 5) :
    let seg := s.tileBuf x + segment (s.xg x b.toNat)
    ∃ t, exec (.vstt x v b m) s = .next t ∧ xcRan s t x 1 (s.xcAt x) ∧
      (∀ k, k < 32 → memByte t.mem (seg + k) = BitVec.ofNat 8
        (blended m.toNat ((s.xv x v.toNat).getD k 0).toNat (memByte s.mem (seg + k)).toNat)) ∧
      MemBut s t seg 32 := by
  obtain ⟨t, run, ⟨dots, out⟩, ran⟩ := xcPaint_only (i := .vstt x v b m) rfl hm ready
  have low : segment (s.xg x b.toNat) % 32 = 0 := by
    unfold segment
    omega
  have high : segment (s.xg x b.toNat) < 16384 := by
    unfold segment
    omega
  generalize segment (s.xg x b.toNat) = p at *
  have dot : ∀ o, o < 16384 → memByte t.mem (s.tileBuf x + o) = if p ≤ o ∧ o < p + 32 then
      BitVec.ofNat 8 (blended m.toNat ((s.xv x v.toNat).getD (o - p) 0).toNat (memByte s.mem (s.tileBuf x + o)).toNat)
      else memByte s.mem (s.tileBuf x + o) := fun o ho => by
    have at_ := dots (o % 256) (o / 256) (Nat.mod_lt _ (by decide)) (by omega)
    rw [show s.tileBuf x + 256 * (o / 256) + o % 256 = s.tileBuf x + o by omega] at at_
    dsimp only at at_
    rw [show o / 256 * 256 + o % 256 = o by omega] at at_
    rw [at_]
    by_cases inside : p ≤ o ∧ o < p + 32
    · rw [if_pos inside, if_pos inside]
    · rw [if_neg inside, if_neg inside]
  refine ⟨t, run, ran, fun k hk => ?_, fun y hy => ?_⟩
  · rw [Nat.add_assoc, dot (p + k) (by omega), if_pos ⟨by omega, by omega⟩, Nat.add_sub_cancel_left]
  · by_cases inside : s.tileBuf x ≤ y ∧ y < s.tileBuf x + 16384
    · obtain ⟨o, rfl⟩ : ∃ o, y = s.tileBuf x + o := ⟨y - s.tileBuf x, by omega⟩
      rw [dot o (by omega), if_neg (by omega)]
    · exact out y (by omega)

end

theorem vector_moves : vectorLoadsAndStores := by
  intro s x v b m ready g seg loaded
  have at_ : seg = s.tileBuf x + segment (s.xg x b.toNat) := Nat.add_assoc ..
  have splat : BitVec.ofNat 8 g = (s.xg x b.toNat).setWidth 8 := (BitVec.ofNat_toNat ..)
  rw [at_, splat]
  exact ⟨fun inside => ⟨vld_loads v b ready inside, vst_stores v b ready inside⟩, vldt_loads v b ready,
    fun hm => vstt_blends v b ready hm, vspl_splats v b ready⟩

/-- Settles O24: each instruction writes one register, or stores or blends the lanes of one. -/
theorem vectorInstructions : Obligations.VectorInstructions := ⟨vector_arithmetic, vector_moves⟩

end Sys2Proof.Machine

/-!
Bitmaps, glyphs, compact raster and variable fields (R75 to R80, R86).
-/

namespace Sys2Proof.Machine

/-! ### Signed fields -/

/-- A field of `w` bits read as a signed number. -/
theorem sext_eq_toInt {w : Nat} (hw : 0 < w) (x : Nat) : sext w x = (BitVec.ofNat w x).toInt := by
  obtain ⟨k, rfl⟩ : ∃ k, w = k + 1 := ⟨w - 1, by omega⟩
  unfold sext
  rw [BitVec.toInt_eq_toNat_cond, BitVec.toNat_ofNat, Nat.add_sub_cancel]
  by_cases h : x % 2 ^ (k + 1) < 2 ^ k
  · rw [if_pos h, if_pos (by rw [Nat.pow_succ] at *; omega)]
  · rw [if_neg h, if_neg (by rw [Nat.pow_succ] at *; omega)]

theorem sext_low (v : Word) : sext 16 v.toNat = (v.setWidth 16).toInt := by
  rw [sext_eq_toInt (by decide), BitVec.ofNat_toNat]

theorem sext_high (v : Word) : sext 16 (v.toNat / 65536) = ((v >>> 16).setWidth 16).toInt := by
  rw [sext_eq_toInt (by decide), ← BitVec.ofNat_toNat, BitVec.toNat_ushiftRight, Nat.shiftRight_eq_div_pow]

/-! ### Pixels (R60, R75) -/

/-- Source values matter within the tile only. -/
theorem painted_congr {s t : State} {x : Fin 144} {m : BitVec 3} {src src' : Nat → Nat → Option Nat}
    (h : Painted s t x m src) (eq : ∀ i j, src i j = src' i j) : Painted s t x m src' := by
  rwa [← show src = src' from funext fun i => funext fun j => eq i j]

/-- A pixel of a bitmap in data memory. -/
theorem pixelSrc_inside (s : State) (d x row i : Nat) (oneBit : Bool) (level : Byte)
    (h : row + (if oneBit then i / 8 else i) < localTop) :
    pixelSrc oneBit level.toNat (s.pixel d x row i oneBit) =
      pixelValue level oneBit (memByte s.mem (XC_MEM x + row + if oneBit then i / 8 else i)) i := by
  have byte : ∀ o, row + o < localTop → s.localByte d x ((row + o) % 2 ^ 32) = memByte s.mem (XC_MEM x + row + o) :=
    fun o ho => by
      have small : row + o < 2 ^ 32 := ho.trans (by decide)
      rw [Nat.mod_eq_of_lt small, State.localByte, if_pos ho, Nat.add_assoc]
  cases oneBit with
  | true =>
    change row + i / 8 < localTop at h
    change (if b2n ((s.localByte d x ((row + i / 8) % 2 ^ 32)).getLsbD (i % 8)) = 0 then none else some level.toNat) =
      if (memByte s.mem (XC_MEM x + row + i / 8)).getLsbD (i % 8) = true then some level.toNat else none
    rw [byte _ h]
    cases (memByte s.mem (XC_MEM x + row + i / 8)).getLsbD (i % 8) <;> rfl
  | false =>
    change row + i < localTop at h
    change some (scaled (s.localByte d x ((row + i) % 2 ^ 32)).toNat level.toNat) = _
    rw [byte _ h]
    rfl

theorem orient_eq (o : BitVec 3) (w h u v : Nat) : orient o w h u v = sourcePixel o w h u v := by
  unfold orient sourcePixel
  cases o.getLsbD 2 <;> rfl

/-- The source pixel of a dot of the placed rectangle lies in the bitmap. -/
theorem sourcePixel_inside (o : BitVec 3) {w h u v : Nat} (hu : u < if o.getLsbD 2 then h else w)
    (hv : v < if o.getLsbD 2 then w else h) : (sourcePixel o w h u v).1 < w ∧ (sourcePixel o w h u v).2 < h := by
  unfold sourcePixel
  dsimp only
  generalize o.getLsbD 2 = turned at *
  generalize o.getLsbD 1 = flipX
  generalize o.getLsbD 0 = flipY
  refine ⟨?_, ?_⟩
  · cases turned <;> cases flipX <;> simp at hu hv ⊢ <;> omega
  · cases turned <;> cases flipY <;> simp at hu hv ⊢ <;> omega

/-- Settles the placing of a bitmap (R76). -/
theorem blit_places : blitPlacesABitmap := by
  intro s x o a b c m hm base px py g w h stride w' h' cost inside ready
  have after : ∀ u, XcLeaves s u x (s.xcAt x) → XcLeaves u u.draw.2 x (s.xcAt x) ∧ u.draw.2.mem = u.mem :=
    fun u hu => ⟨hu.1 ▸ draw_leaves u x, rfl⟩
  obtain ⟨t, run, painted, ran⟩ := xcPaint_runs (i := .blit x o a b c m) rfl hm ready after rfl rfl
  refine ⟨t, run, ran, painted_congr painted fun i j => ?_⟩
  dsimp only
  rw [sext_low, sext_high, orient_eq]
  change (if 0 ≤ (i : Int) - px ∧ (i : Int) - px < w' ∧ 0 ≤ (j : Int) - py ∧ (j : Int) - py < h' then _ else _) = _
  by_cases placed : px ≤ i ∧ (i : Int) < px + w' ∧ py ≤ j ∧ (j : Int) < py + h'
  · rw [if_pos (by omega), if_pos placed]
    have pixel := sourcePixel_inside o (w := w) (h := h) (u := ((i : Int) - px).toNat) (v := ((j : Int) - py).toNat)
      (by change _ < w'; omega) (by change _ < h'; omega)
    obtain ⟨hx, hy⟩ := pixel
    have row : stride * (sourcePixel o w h ((i : Int) - px).toNat ((j : Int) - py).toNat).2 ≤ stride * (h - 1) :=
      Nat.mul_le_mul_left _ (by omega)
    refine (pixelSrc_inside s s.freeIx x _ _ _ (s.xcAt x).level ?_).trans ?_
    · have col : ∀ k, (if g.toNat.testBit 26 = true then k / 8 else k) ≤ k := fun k => by split <;> omega
      have := col (sourcePixel o w h ((i : Int) - px).toNat ((j : Int) - py).toNat).1
      change base + stride * (sourcePixel o w h ((i : Int) - px).toNat ((j : Int) - py).toNat).2 + _ < localTop
      refine (Nat.add_le_add_left this _).trans_lt ?_
      omega
    · rw [← Nat.add_assoc]
      rfl
  · rw [if_neg (by omega), if_neg placed]

/-! ### Glyphs (R77, R78) -/

/-- The cells of a grid in order, each with its place and its value. -/
def gridCells {β : Type} (rows cols : Nat) (place : Nat → Nat → Int × Int) (value : Nat → Nat → β) :
    List ((Int × Int) × β) :=
  (List.range rows).flatMap fun j => (List.range cols).map fun i => (place i j, value i j)

theorem mem_gridCells {β : Type} {rows cols : Nat} {place : Nat → Nat → Int × Int} {value : Nat → Nat → β}
    {e : (Int × Int) × β} :
    e ∈ gridCells rows cols place value ↔ ∃ i j, i < cols ∧ j < rows ∧ e = (place i j, value i j) := by
  simp only [gridCells, List.mem_flatMap, List.mem_range, List.mem_map]
  constructor
  · rintro ⟨j, hj, i, hi, rfl⟩
    exact ⟨i, j, hi, hj, rfl⟩
  · rintro ⟨i, j, hi, hj, rfl⟩
    exact ⟨j, hj, i, hi, rfl⟩

/-- The cell at a place that no other cell has. -/
theorem find_gridCells {β : Type} {rows cols : Nat} {place : Nat → Nat → Int × Int} {value : Nat → Nat → β}
    {p : Int × Int} {i j : Nat} (hi : i < cols) (hj : j < rows) (at_ : place i j = p)
    (only : ∀ i' j', place i' j' = p → i' = i ∧ j' = j) :
    (gridCells rows cols place value).find? (fun e => e.1 == p) = some (p, value i j) := by
  cases h : (gridCells rows cols place value).find? (fun e => e.1 == p) with
  | none =>
    have := List.find?_eq_none.1 h _ (mem_gridCells.2 ⟨i, j, hi, hj, rfl⟩)
    simp [at_] at this
  | some e =>
    obtain ⟨i', j', -, -, rfl⟩ := mem_gridCells.1 (List.mem_of_find?_eq_some h)
    have found : place i' j' = p := by simpa using List.find?_some h
    obtain ⟨rfl, rfl⟩ := only i' j' found
    rw [found]

theorem find_gridCells_none {β : Type} {rows cols : Nat} {place : Nat → Nat → Int × Int} {value : Nat → Nat → β}
    {p : Int × Int} (none_ : ∀ i j, i < cols → j < rows → place i j ≠ p) :
    (gridCells rows cols place value).find? (fun e => e.1 == p) = none := by
  refine List.find?_eq_none.2 fun e he => ?_
  obtain ⟨i, j, hi, hj, rfl⟩ := mem_gridCells.1 he
  simpa using none_ i j hi hj

/-- Where a glyph's pixel lies, read back from a dot: its column and its row. -/
theorem glyphDot_iff (o : BitVec 3) (bx bt across down : Int) (i j : Nat) :
    glyphDot o bx bt i j = (if o.getLsbD 2 then (down, across) else (across, down)) ↔
      (if o.getLsbD 1 then -across - 1 else across) - bx = i ∧ (if o.getLsbD 0 then -down - 1 else down) - bt = j := by
  unfold glyphDot
  generalize o.getLsbD 2 = turned
  generalize o.getLsbD 1 = flipX
  generalize o.getLsbD 0 = flipY
  cases turned <;> cases flipX <;> cases flipY <;>
    simp only [Bool.false_eq_true, if_false, if_true, Prod.mk.injEq] <;> omega

section
variable (s : State) (x : Fin 144) (font : Nat)

/-- A word of a font. -/
def State.fontWord (s : State) (x font off : Nat) : Nat := leNat (s.localBytes s.freeIx x ((font + off) % 2 ^ 32) 4)

theorem fontWord_inside {off : Nat} (h : font + off + 4 ≤ localTop) :
    s.fontWord x font off = s.loadNat (XC_MEM x + font + off) 4 := by
  have small : font + off < 2 ^ 32 := lt_of_lt_of_le (by omega) (show localTop ≤ 2 ^ 32 by decide)
  rw [State.fontWord, Nat.mod_eq_of_lt small, localBytes_eq_loadBytes _ _ _ h, ← Nat.add_assoc]
  rfl

end

/-- R78: the source value of a dot of a glyph. -/
theorem glyph_dot (o : BitVec 3) (px py left above : Int) (rows cols : Nat) (value : Nat → Nat → Option Nat) (i j : Int) :
    let across := if o.getLsbD 2 then j - py else i - px
    let down := if o.getLsbD 2 then i - px else j - py
    let col := (if o.getLsbD 1 then -across - 1 else across) - left
    let row := (if o.getLsbD 0 then -down - 1 else down) + above
    (match (gridCells rows cols (fun i j => (px + (glyphDot o left (-above) i j).1, py + (glyphDot o left (-above) i j).2))
        value).find? (fun e => e.1 == (i, j)) with
      | some e => e.2
      | none => none) =
    if 0 ≤ col ∧ col < cols ∧ 0 ≤ row ∧ row < rows then value col.toNat row.toNat else none := by
  intro across down col row
  have at_ : ∀ i' j' : Nat, ((px + (glyphDot o left (-above) i' j').1, py + (glyphDot o left (-above) i' j').2) = (i, j) ↔
      col = i' ∧ row = j') := fun i' j' => by
    have dot := glyphDot_iff o left (-above) across down i' j'
    rw [show (if o.getLsbD 2 then (down, across) else (across, down)) = (i - px, j - py) by
      unfold across down
      cases o.getLsbD 2 <;> rfl, Int.sub_neg] at dot
    rw [← dot, Prod.ext_iff, Prod.ext_iff]
    dsimp only
    omega
  by_cases inside : 0 ≤ col ∧ col < cols ∧ 0 ≤ row ∧ row < rows
  · obtain ⟨c0, c1, r0, r1⟩ := inside
    rw [if_pos ⟨c0, c1, r0, r1⟩, find_gridCells (i := col.toNat) (j := row.toNat) (by omega) (by omega)
      ((at_ _ _).2 ⟨by omega, by omega⟩) (fun i' j' h => by
        have := (at_ i' j').1 h
        omega)]
  · rw [if_neg inside, find_gridCells_none fun i' j' hi hj h => ?_]
    have := (at_ i' j').1 h
    omega

section
variable (s : State) (x : Fin 144) (o : BitVec 3) (a b c : BitVec 5) (m : BitVec 3)

/-- What GLYPH paints, and where it leaves the pen, by the words of the font that it reads. -/
theorem glyph_exec {font g code e w0 w4 place dims cw ch stride : Nat} {known oneBit : Bool} {left above px py step : Int}
    (hfont : (s.xg x b.toNat).toNat / 4 * 4 = font) (hg : (s.xg x c.toNat).toNat = g) (hcode : g % 65536 = code)
    (h0 : s.fontWord x font 0 = w0) (h4 : s.fontWord x font 4 = w4) (he : code - w4 % 65536 = e)
    (hplace : s.fontWord x font (8 + 8 * e) = place) (hdims : s.fontWord x font (12 + 8 * e) = dims)
    (hknown : (decide (w4 % 65536 ≤ code) && decide (code < w4 % 65536 + w0 % 65536)) = known)
    (hbit : w0.testBit 16 = oneBit) (hcw : 8 * (g / 65536 % 16 + 1) = cw) (hch : g / 2 ^ 20 % 64 + 1 = ch)
    (hleft : sext 8 (dims / 65536) = left) (habove : sext 8 (dims / 2 ^ 24) = above)
    (hstride : 4 * ceilDiv (dims % 256 * (if oneBit then 1 else 8)) 32 = stride)
    (hpx : sext 16 (s.xg x a.toNat).toNat = px) (hpy : sext 16 ((s.xg x a.toNat).toNat / 65536) = py)
    (hstep : (if o.getLsbD 1 then -((place : Int) / 2 ^ 20) else (place : Int) / 2 ^ 20) = step) :
    exec (.glyph x o a b c m) s = .next (s.xcPaint x
      (6 + (if o.getLsbD 2 then cw else ch) *
        (1 + ceilDiv (if o.getLsbD 2 then ch else cw) (if o.getLsbD 2 then 8 else 32))) m
      (fun i j => match (if known then gridCells (min (dims / 256 % 256) ch) (min (dims % 256) cw)
            (fun i j => (px + (glyphDot o left (-above) i j).1, py + (glyphDot o left (-above) i j).2))
            (fun i j => pixelSrc oneBit (s.xcAt x).level.toNat
              (s.pixel s.freeIx x (font + place % 2 ^ 20 + stride * j) i oneBit))
          else []).find? (fun e => e.1 == ((i : Int), (j : Int))) with
        | some e => e.2
        | none => none)
      (fun s => if known then s.draw.2.setXg x a.toNat
          (BitVec.ofNat 32 (twos 16 (py + (if o.getLsbD 2 then (0, step) else (step, 0)).2) * 65536 +
            twos 16 (px + (if o.getLsbD 2 then (0, step) else (step, 0)).1)))
        else s.draw.2)) := by
  subst hfont hg hcode h0 h4 he hplace hdims hknown hbit hcw hch hleft habove hstride hpx hpy hstep
  rfl

end

/-- An instruction that paints and then returns a word in a register. -/
theorem xcPaint_writes {s : State} {x : Fin 144} {i : Instr} {cost : Nat} {m : BitVec 3} {src : Nat → Nat → Option Nat}
    {a : BitVec 5} {v : Word}
    (exec_eq : exec i s = .next (s.xcPaint x cost m src fun s => s.draw.2.setCoreG (.xc x) a v)) (hm : m.toNat < 5)
    (ready : Ready s (.xc x) 1 cost) :
    ∃ t, exec i s = .next t ∧ xcRan s t x cost { s.xcAt x with g := (t.xcAt x).g } ∧ Wrote s t (.xc x) a v ∧
      Painted s t x m src := by
  have g : ∀ u : State, u.xcAt x = s.xcAt x →
      ((u.setCoreG (.xc x) a v).xcAt x).g = ((s.setCoreG (.xc x) a v).xcAt x).g := fun u hu => by
    by_cases h : a = 0
    · rw [h, setCoreG_zero, setCoreG_zero, hu]
    · rw [setCoreG_xc h, setCoreG_xc h, (onXc_leaves u x _).1, (onXc_leaves s x _).1, hu]
  obtain ⟨t, run, painted, ran⟩ := xcPaint_runs (c := { s.xcAt x with g := ((s.setCoreG (.xc x) a v).xcAt x).g }) exec_eq hm
    ready (fun u hu => by
      have leaves := (draw_leaves u x).trans (setCoreG_leaves u.draw.2 x a v)
      have core : u.draw.2.xcAt x = s.xcAt x := hu.1
      rw [g _ core, core] at leaves
      exact ⟨leaves, setCoreG_mem u.draw.2 _ _ _⟩) rfl rfl
  have core : (t.xcAt x).g = ((s.setCoreG (.xc x) a v).xcAt x).g := by rw [ran.1]
  refine ⟨t, run, by rwa [core], fun r => ?_, painted⟩
  rw [State.coreG, State.xg, core]
  exact coreG_setCoreG s (.xc x) a r v

/-- The pen's place as one word. -/
theorem penWord (px py : Int) : BitVec.ofNat 32 (twos 16 py * 65536 + twos 16 px) =
    BitVec.ofInt 32 (py % 65536 * 65536 + px % 65536) := by
  have hx : ((twos 16 px : Nat) : Int) = px % 65536 := Int.toNat_of_nonneg (Int.emod_nonneg _ (by decide))
  have hy : ((twos 16 py : Nat) : Int) = py % 65536 := Int.toNat_of_nonneg (Int.emod_nonneg _ (by decide))
  rw [← BitVec.ofInt_natCast]
  push_cast
  rw [hx, hy]

theorem painted_none {s t : State} {x : Fin 144} {m : BitVec 3} (h : Painted s t x m fun _ _ => none) : MemBut s t 0 0 := by
  intro y _
  obtain ⟨dots, out⟩ := h
  by_cases inside : s.tileBuf x ≤ y ∧ y < s.tileBuf x + 16384
  · have dot := dots ((y - s.tileBuf x) % 256) ((y - s.tileBuf x) / 256) (Nat.mod_lt _ (by decide)) (by omega)
    rwa [show s.tileBuf x + 256 * ((y - s.tileBuf x) / 256) + (y - s.tileBuf x) % 256 = y by omega] at dot
  · exact out y (by omega)

/-- A row of a bitmap holds its pixels. -/
theorem col_lt_stride {col w : Nat} (oneBit : Bool) (h : col < w) :
    (if oneBit then col / 8 else col) < 4 * ceilDiv (w * (if oneBit then 1 else 8)) 32 := by
  unfold ceilDiv
  cases oneBit <;> simp <;> omega

theorem glyph_draws : glyphDrawsItsPixels := by
  intro s x o a b c m hm font g code cw ch w' h' cost word first e pen ready inside
  have words : ∀ off, off ≤ 12 + 8 * e → s.fontWord x font off = word off := fun off h =>
    fontWord_inside s x font (by omega)
  have w0 := words 0 (by omega)
  have w4 := words 4 (by omega)
  have place := words (8 + 8 * e) (by omega)
  have dims' := words (12 + 8 * e) (by omega)
  refine ⟨fun unknown => ?_, fun low high => ?_⟩
  · have known : (decide (word 4 % 65536 ≤ code) && decide (code < word 4 % 65536 + word 0 % 65536)) = false := by
      simp only [Bool.and_eq_false_iff, decide_eq_false_iff_not]
      omega
    have exec_eq := glyph_exec s x o a b c m rfl rfl rfl w0 w4 rfl place dims' known rfl rfl rfl rfl rfl rfl rfl rfl rfl
    obtain ⟨t, run, painted, ran⟩ := xcPaint_runs exec_eq hm ready
      (fun u hu => ⟨hu.1 ▸ draw_leaves u x, rfl⟩) rfl rfl
    exact ⟨t, run, ran, painted_none painted⟩
  · intro adv step px py dims cols rows left above oneBit stride bitmap fits
    have known : (decide (word 4 % 65536 ≤ code) && decide (code < word 4 % 65536 + word 0 % 65536)) = true := by
      simp only [Bool.and_eq_true, decide_eq_true_eq]
      exact ⟨low, high⟩
    have hpx : sext 16 (s.xg x a.toNat).toNat = px := sext_low pen
    have hpy : sext 16 ((s.xg x a.toNat).toNat / 65536) = py := sext_high pen
    have hleft : sext 8 (word (12 + 8 * e) / 65536) = left := sext_eq_toInt (by decide) _
    have habove : sext 8 (word (12 + 8 * e) / 2 ^ 24) = above := sext_eq_toInt (by decide) _
    have exec_eq := glyph_exec s x o a b c m rfl rfl rfl w0 w4 rfl place dims' known (oneBit := oneBit) rfl (cw := cw) rfl
      (ch := ch) rfl hleft habove (stride := stride) rfl hpx hpy (step := step) rfl
    obtain ⟨t, run, ran, wrote, painted⟩ := xcPaint_writes exec_eq hm ready
    refine ⟨t, run, ran, ?_, painted_congr painted fun i j => ?_⟩
    · rw [penWord, apply_ite Prod.snd, apply_ite Prod.fst] at wrote
      exact wrote
    · refine (glyph_dot o px py left above _ _ _ i j).trans ?_
      dsimp only
      generalize hcol : (if o.getLsbD 1 = true then -(if o.getLsbD 2 = true then (j : Int) - py else (i : Int) - px) - 1
        else if o.getLsbD 2 = true then (j : Int) - py else (i : Int) - px) - left = col
      generalize hrow : (if o.getLsbD 0 = true then -(if o.getLsbD 2 = true then (i : Int) - px else (j : Int) - py) - 1
        else if o.getLsbD 2 = true then (i : Int) - px else (j : Int) - py) + above = row
      change (if 0 ≤ col ∧ col < cols ∧ 0 ≤ row ∧ row < rows then _ else none) =
        if 0 ≤ col ∧ col < cols ∧ 0 ≤ row ∧ row < rows then _ else none
      refine ite_congr rfl (fun inside => ?_) fun _ => rfl
      obtain ⟨c0, c1, r0, r1⟩ := inside
      have width : cols ≤ dims % 256 := Nat.min_le_left _ _
      have fitsRow : stride * row.toNat + stride ≤ stride * rows := by
        rw [← Nat.mul_succ]
        exact Nat.mul_le_mul_left _ (by omega)
      have fitsCol : (if oneBit then col.toNat / 8 else col.toNat) < stride := col_lt_stride oneBit (by omega)
      refine (pixelSrc_inside s s.freeIx x (bitmap + stride * row.toNat) col.toNat oneBit (s.xcAt x).level (by omega)).trans ?_
      rw [← Nat.add_assoc]

/-- Settles O22: a placed dot, or a dot of a glyph, is traced back to the one pixel that it shows. -/
theorem bitmapsAndGlyphsDraw : Obligations.BitmapsAndGlyphsDraw := ⟨blit_places, glyph_draws⟩

end Sys2Proof.Machine

namespace Sys2Proof.Machine

/-! ### Compact raster (R79, R80) -/

section
variable {read : Nat → Nat} {dict : Nat → List Nat} {w total : Nat}

theorem foldl_copy_length (w n : Nat) (vs : List Nat) :
    ((List.range n).foldl (fun vs _ => copyValue w vs :: vs) vs).length = vs.length + n := by
  induction n with
  | zero => rfl
  | succ n ih =>
    rw [List.range_succ, List.foldl_append]
    exact congrArg (· + 1) ih

/-- Every token gives a value, where the dictionary's entries are not empty. -/
theorem unpackToken_grows (entries : ∀ k, k < 32 → 0 < (dict k).length) (u : Unpacked) :
    u.vals.length < (unpackToken read dict w u).vals.length := by
  have entry := entries (read u.pos % 64 % 32) (Nat.mod_lt _ (by decide))
  unfold unpackToken
  dsimp only
  split
  · rw [List.length_append, List.length_replicate]
    split <;> omega
  · rw [List.length_append, List.length_reverse, List.length_map, List.length_range]
    split <;> omega
  · rw [foldl_copy_length]
    split <;> omega
  · rw [List.length_append, List.length_flatten, List.map_replicate, List.sum_replicate, List.length_reverse]
    have : 0 < (if (read u.pos % 64).testBit 5 = true then read (u.pos + 1) + 1 else 1) := by split <;> omega
    have := Nat.mul_pos this entry
    rw [smul_eq_mul]
    omega

/-- A token for each value that is still missing is enough. -/
theorem unpackAll_fills (entries : ∀ k, k < 32 → 0 < (dict k).length) (fuel : Nat) (u : Unpacked)
    (h : total ≤ fuel + u.vals.length) : total ≤ (unpackAll read dict w total fuel u).vals.length := by
  induction fuel generalizing u with
  | zero =>
    rw [Nat.zero_add] at h
    exact h
  | succ fuel ih =>
    unfold unpackAll
    split
    · assumption
    · have := unpackToken_grows (read := read) (w := w) entries u
      exact ih _ (by omega)

end

theorem dictEntry_length (s : State) (x k : Nat) (hx : x < 144) :
    ((((s.xv x (k / 4)).drop (8 * (k % 4))).take 8).map BitVec.toNat).length = 8 := by
  have len := xv_length s ⟨x, hx⟩ (k / 4)
  dsimp only at len
  rw [List.length_map, List.length_take, List.length_drop, len]
  omega

theorem unpk_unpacks {s : State} {x : Fin 144} (a b c : BitVec 5) {m : BitVec 3} (hm : m.toNat < 5) :
    let g := (s.xg x c.toNat).toNat
    let w := g / 2 ^ 14 % 256 + 1
    let n := g / 2 ^ 22 % 64 + 1
    let cost := 4 + n * (2 + ceilDiv w 4)
    let read := fun p => (s.localByte s.freeIx x (p % 2 ^ 32)).toNat
    let dict := fun k => (((s.xv x (k / 4)).drop (8 * (k % 4))).take 8).map BitVec.toNat
    let r := unpackAll read dict w (n * w) (n * w) { vals := [], pos := (s.xg x b.toNat).toNat }
    Ready s (.xc x) 1 cost →
    ∃ t, exec (.unpk x a b c m) s = .next t ∧ xcRan s t x cost { s.xcAt x with g := (t.xcAt x).g } ∧
      Wrote s t (.xc x) a (BitVec.ofNat 32 r.pos) ∧ n * w ≤ r.vals.length ∧
      Painted s t x m fun i j =>
        if g % 256 ≤ i ∧ i < g % 256 + w ∧ g / 256 % 64 ≤ j ∧ j < g / 256 % 64 + n then
          some ((r.vals.reverse.getD ((j - g / 256 % 64) * w + (i - g % 256)) 0 *
            (s.xcAt x).level.toNat + 127) / 255)
        else none := by
  intro g w n cost read dict r ready
  obtain ⟨t, run, ran, wrote, painted⟩ := xcPaint_writes (i := .unpk x a b c m) (a := a) rfl hm ready
  exact ⟨t, run, ran, wrote, unpackAll_fills (fun k _ => by rw [dictEntry_length s x k x.isLt]; decide) _ _ (Nat.le_add_right _ _),
    painted⟩

/-- The tokens of the worked example. -/
theorem unpack_example {dict : Nat → List Nat} (h : (dict 3).length = 8) :
    let bytes := [0x07, 0x00, 0x43, 0x28, 0x80, 0xC8, 0xFF, 0xC3, 0x83]
    unpackAll (fun p => bytes.getD p 0) dict 24 24 24 { vals := [], pos := 0 } =
      { vals := (List.replicate 8 0 ++ [40, 128, 200, 255] ++ dict 3 ++ List.replicate 4 0).reverse,
        pos := 9 } := by
  obtain ⟨entry, hentry⟩ : ∃ l, dict 3 = l := ⟨_, rfl⟩
  have bit : Nat.testBit 3 5 = false := by decide
  rw [hentry] at h
  match entry, h, hentry with
  | [d0, d1, d2, d3, d4, d5, d6, d7], _, hentry =>
    simp [bit, unpackAll, unpackToken, copyValue, hentry, List.range, List.range.loop]

/-! ### Variable fields (R86) -/

theorem vfldWindow_eq (g5 : Word) (anchor f : Nat) : vfldWindow g5 anchor f =
    if g5.toNat / 2 ^ 24 % 64 ≠ 0 ∧ g5.toNat / 2 ^ 24 % 64 ≤ anchor then some (4 + f)
    else if 2 ^ 31 ≤ g5.toNat then none else some f := by
  have top : g5.getLsbD 31 = decide (2 ^ 31 ≤ g5.toNat) := by
    rw [← BitVec.msb_eq_getLsbD_last g5, BitVec.msb_eq_decide]
  unfold vfldWindow
  dsimp only
  rw [top]
  simp only [decide_eq_true_eq]

section
variable {s : State} {x : Fin 144} (a : BitVec 5) (f : BitVec 2) {m : BitVec 3} (hm : m.toNat < 5)
  (ready : Ready s (.xc x) 1 582)
include hm ready

theorem vfld_noProduct (none_ : vfldWindow (s.xcAt x).start5 ((s.xg x a.toNat).toNat % 64) f.toNat = none) :
    ∃ t, exec (.vfld x a f m) s = .next t ∧ xcRan s t x 582 (s.xcAt x) ∧ MemBut s t 0 0 := by
  have exec_eq : exec (.vfld x a f m) s = .next (s.xcPaint x 582 m (fun _ _ => none) id) := by
    refine congrArg Host.Outcome.next ?_
    dsimp only
    rw [none_]
  obtain ⟨t, run, painted, ran⟩ := xcPaint_only exec_eq hm ready
  exact ⟨t, run, ran, painted_none painted⟩

theorem vfld_draws {w : Nat} (owns : vfldWindow (s.xcAt x).start5 ((s.xg x a.toNat).toNat % 64) f.toNat = some w)
    (windows : (s.xcAt x).windows = true) (latched : (s.xcAt x).ready.getLsbD w = true) :
    ∃ t, exec (.vfld x a f m) s = .next t ∧ xcRan s t x 582 (s.xcAt x) ∧
      Painted s t x m fun i j =>
        if (memByte s.mem (XC_MEM x + 0x34000 + 2048 * w + 32 * j + i / 8)).getLsbD (i % 8) then
          some (s.xcAt x).level.toNat else none := by
  have exec_eq : exec (.vfld x a f m) s = .next (s.xcPaint x 582 m (fun i j =>
      if (memByte s.mem (XC_MEM x + 0x34000 + 2048 * w + 32 * j + i / 8)).getLsbD (i % 8) then
        some (s.xcAt x).level.toNat else none) id) := by
    refine congrArg Host.Outcome.next ?_
    dsimp only
    rw [owns]
    exact if_pos (by rw [windows, latched]; rfl)
  obtain ⟨t, run, painted, ran⟩ := xcPaint_only exec_eq hm ready
  exact ⟨t, run, ran, painted⟩

theorem vfld_misses {w : Nat} (owns : vfldWindow (s.xcAt x).start5 ((s.xg x a.toNat).toNat % 64) f.toNat = some w)
    (miss : (s.xcAt x).windows = false ∨ (s.xcAt x).ready.getLsbD w = false) :
    ∃ t, exec (.vfld x a f m) s = .next t ∧ t.mem = s.mem ∧
      xcRan s t x 582 { s.xcAt x with vmiss := (s.xcAt x).vmiss ||| BitVec.ofNat 8 (2 ^ w) } := by
  have exec_eq : exec (.vfld x a f m) s = .next (s.xcStep x 1 582 none
      (fun s => s.onXc x fun c => { c with vmiss := c.vmiss ||| BitVec.ofNat 8 (2 ^ w) })
      (fun s => s.onXc x fun c => { c with vmiss := c.vmiss ||| BitVec.ofNat 8 (2 ^ w) })) := by
    refine congrArg Host.Outcome.next ?_
    dsimp only
    rw [owns]
    have unready : ¬((s.xcAt x).windows && (s.xcAt x).ready.getLsbD w) = true := by
      rcases miss with h | h <;> simp [h]
    exact (if_neg unready).trans (if_neg (by omega))
  exact xcExec_runs exec_eq ready (onXc_leaves s x _) rfl rfl

end

theorem vfld_drawsOrMisses : variableFieldDrawsOrMisses := by
  intro s x a f m hm ready g5 line next w
  have window := vfldWindow_eq (s.xcAt x).start5 line f.toNat
  refine ⟨fun first late => ?_, fun owns => ?_⟩
  · rw [if_neg first, if_pos late] at window
    exact vfld_noProduct a f hm ready window
  · have window : vfldWindow (s.xcAt x).start5 line f.toNat = some w := by
      rw [window]
      by_cases second : next ≠ 0 ∧ next ≤ line
      · exact (if_pos second).trans (congrArg some (if_pos second).symm)
      · have early : ¬2 ^ 31 ≤ (s.xcAt x).start5.toNat := Nat.not_le.2 (owns.resolve_left second)
        exact (if_neg second).trans ((if_neg early).trans (congrArg some (if_neg second).symm))
    exact ⟨vfld_draws a f hm ready window, vfld_misses a f hm ready window⟩

/-- Settles O23: each token gives a value, and the window of a field is the one that the product owns. -/
theorem compactRasterAndFieldsDraw : Obligations.CompactRasterAndFieldsDraw :=
  ⟨⟨fun _ _ a b c _ hm => unpk_unpacks a b c hm, fun _ h => unpack_example h⟩, vfld_drawsOrMisses⟩

end Sys2Proof.Machine

/-!
Exact areas: SPAN, TRAP and CELL (R60 to R63, R66, R72 to R74).
-/

namespace Sys2Proof.Machine

/-! ### Lengths and areas in units (R62, R66) -/

section
variable {u : Int} (hu : 0 < u)
include hu

theorem floor_div_unit (a : Int) : ((a : Rat) / u).floor = a / u := by
  have := Rat.floor_intCast_div_natCast a u.toNat
  have cast : ((u.toNat : Nat) : Rat) = (u : Rat) := by
    rw [← Int.cast_natCast, Int.toNat_of_nonneg hu.le]
  rw [cast, Int.toNat_of_nonneg hu.le] at this
  exact this

theorem ceil_div_unit (a : Int) : ((a : Rat) / u).ceil = ceilI a u := by
  rw [Rat.ceil_eq_neg_floor_neg, ← neg_div, ← Int.cast_neg, floor_div_unit hu]
  rfl

/-- The rows or columns that a cost counts. -/
theorem spanCount_eq_counted (top : Nat) (a b : Int) : spanCount top u a b = counted top (a / u) (b / u) := by
  have pos : (0 : Rat) < u := by exact_mod_cast hu
  unfold spanCount counted
  rw [floor_div_unit hu, ceil_div_unit hu]
  exact if_congr (by rw [div_lt_div_iff_of_pos_right pos, Int.cast_lt]) rfl rfl

theorem overlap_eq_within (a b : Int) (i : Nat) : (overlap u a b i : Rat) / u = within (a / u) (b / u) i := by
  have pos : (0 : Rat) < u := by exact_mod_cast hu
  have ne : (u : Rat) ≠ 0 := pos.ne'
  unfold overlap within
  push_cast
  rw [← max_div_div_right pos.le, zero_div, sub_div, ← min_div_div_right pos.le, ← max_div_div_right pos.le,
    mul_div_cancel_right₀ _ ne, mul_div_cancel_right₀ _ ne]

end

/-- R62: the coverage of an area, rounded to the nearest of 255 steps. -/
theorem areaCov_eq (num : Int) {den : Int} (h : 0 < den) :
    areaCov num den = (255 * ((num : Rat) / den) + 1 / 2).floor.toNat := by
  have pos : (0 : Rat) < den := by exact_mod_cast h
  unfold areaCov
  rw [← floor_div_unit (by omega : 0 < 2 * den)]
  congr 2
  push_cast
  field_simp
  ring

/-- R60, R62: the source value of a dot, by the area of it that is covered. -/
theorem areaSrc_eq {s : State} {x : Nat} {cov : Nat → Nat → Nat} {area : Nat → Nat → Rat} {i j : Nat}
    (h : cov i j = (255 * area i j + 1 / 2).floor.toNat) : s.areaSrc x cov i j = areaSource (s.xcAt x).level (area i j) := by
  unfold State.areaSrc areaSource
  rw [h]
  rfl

/-! ### The area of a trapezoid (R73) -/

/-- A value clamped to 0 to 1 has itself as its mean. -/
theorem clampMean_self (v : Rat) : clampMean v v = max 0 (min 1 v) := by
  unfold clampMean
  rw [if_pos rfl]
  split
  · rename_i h
    rw [max_eq_left ((min_le_right _ _).trans h)]
  split
  · rename_i h
    rw [min_eq_left h, max_eq_right zero_le_one]
  · rename_i h0 h1
    rw [min_eq_right (not_le.1 h1).le, max_eq_right (not_le.1 h0).le]

/-- The part of a unit interval between two values is the difference of their clamped distances. -/
theorem clamp_sub_clamp {a b : Rat} (h : a ≤ b) (i : Nat) :
    max 0 (min 1 (b - i)) - max 0 (min 1 (a - i)) = within a b i := by
  have shift : within a b i = max 0 (min (b - i) 1 - max (a - i) 0) := by
    have top : min b ((i : Rat) + 1) = min (b - i) 1 + i := by rw [min_add, sub_add_cancel, add_comm 1]
    have bottom : max a (i : Rat) = max (a - i) 0 + i := by rw [max_add, sub_add_cancel, zero_add]
    unfold within
    rw [top, bottom, add_sub_add_right_eq_sub]
  have le : a - i ≤ b - i := sub_le_sub_right h _
  rw [shift]
  generalize a - (i : Rat) = p at *
  generalize b - (i : Rat) = q at *
  rcases le_total q 0 with hq | hq
  · rw [min_eq_right (hq.trans zero_le_one), min_eq_right ((le.trans hq).trans zero_le_one), max_eq_left hq,
      max_eq_left (le.trans hq), min_eq_left (hq.trans zero_le_one), max_eq_right (le.trans hq), max_eq_left (by linarith), sub_zero]
  rcases le_total 1 p with hp | hp
  · rw [min_eq_left (hp.trans le), min_eq_left hp, min_eq_right (hp.trans le), max_eq_left (zero_le_one.trans hp),
      sub_self, (max_eq_left (sub_nonpos.2 hp) : max 0 (1 - p) = 0)]
  · have low : 0 ≤ min 1 q := le_min zero_le_one hq
    have mid : max p 0 ≤ min q 1 := max_le (le_min le hp) (le_min hq zero_le_one)
    rw [max_eq_right low, min_eq_right hp, max_comm p 0, min_comm q 1, max_eq_right (sub_nonneg.2 (by rwa [max_comm, min_comm] at mid))]

/-- With upright edges, the area is a width times a height. -/
theorem trapArea_upright {xl xr : Rat} (yt yb : Rat) (i j : Nat) (h : xl ≤ xr) :
    trapArea xl xr 0 0 yt yb i j = within yt yb j * within xl xr i := by
  have height : within yt yb j = max 0 (min yb (j + 1) - max yt j) := rfl
  unfold trapArea
  simp only [zero_mul, add_zero]
  by_cases empty : min yb ((j : Rat) + 1) ≤ max yt j
  · rw [if_pos empty, height, max_eq_left (sub_nonpos.2 empty), zero_mul]
  · have wide : ¬xr - xl < 0 := not_lt.2 (sub_nonneg.2 h)
    rw [if_neg empty, if_neg (fun k => wide k.1), if_neg wide, if_neg wide, clampMean_self, clampMean_self,
      clamp_sub_clamp h, height, max_eq_right (sub_nonneg.2 (not_le.1 empty).le)]

theorem floor_eq_intFloor (q : Rat) : q.floor = ⌊q⌋ := rfl

theorem trapezoid_example : trapezoidAreasOfTheWorkedExample := by
  refine ⟨?_, ?_, ?_, ?_, ?_, ?_, ?_, ?_, ?_, ?_, ?_, ?_, fun xl xr yt yb i j h => trapArea_upright yt yb i j h⟩
  all_goals norm_num [trapArea, clampMean, clampArea, areaSource, floor_eq_intFloor] <;> rfl

/-! ### SPAN, TRAP and CELL (R72 to R74) -/

theorem units_eq (v : Word) : units v = (v.toInt : Rat) / (65536 : Int) := by
  unfold units
  norm_num

/-- An instruction that blends areas, at a cost and with source values that are given otherwise. -/
theorem area_paints {s : State} {x : Fin 144} {i : Instr} {m : BitVec 3} {cost cost' : Nat} {cov : Nat → Nat → Nat}
    {src : Nat → Nat → Option Nat} (exec_eq : exec i s = .next (s.xcPaint x cost' m (s.areaSrc x cov) id))
    (hcost : cost' = cost) (hsrc : ∀ i j, s.areaSrc x cov i j = src i j) (hm : m.toNat < 5) (ready : Ready s (.xc x) 1 cost) :
    ∃ t, exec i s = .next t ∧ xcRan s t x cost (s.xcAt x) ∧ Painted s t x m src := by
  subst hcost
  obtain ⟨t, run, painted, ran⟩ := xcPaint_only exec_eq hm ready
  exact ⟨t, run, ran, painted_congr painted hsrc⟩

/-- A dot of which nothing is covered has no source value. -/
theorem areaSrc_zero {s : State} {x : Nat} {cov : Nat → Nat → Nat} {i j : Nat} (h : cov i j = 0) :
    s.areaSrc x cov i j = none := if_pos h

section
variable {s : State} {x : Fin 144} (sp : BitVec 2) (b c : BitVec 5) {m : BitVec 3} (hm : m.toNat < 5)

/-- The columns that a cost counts, by two words of a span register. -/
theorem spanCols_eq (p q : Word) : spanCount 256 65536 p.toInt q.toInt = counted 256 (units p) (units q) := by
  rw [units_eq, units_eq]
  exact spanCount_eq_counted (by decide) 256 _ _

theorem overlap_units (p q : Word) (i : Nat) :
    (overlap 65536 p.toInt q.toInt i : Rat) / (65536 : Int) = within (units p) (units q) i := by
  rw [units_eq, units_eq]
  exact overlap_eq_within (by decide) _ _ _

include hm

theorem span_paints :
    let w := fun k => units (s.xs x sp.toNat k)
    let y0 : Int := ((s.xg x b.toNat).setWidth 16).toInt
    let n : Nat := (s.xg x b.toNat).toNat / 65536
    let cost := 4 + counted 64 y0 (y0 + n) * (1 + ceilDiv (counted 256 (w 0) (w 1)) 32)
    Ready s (.xc x) 1 cost →
      ∃ t, exec (.span x sp b m) s = .next t ∧ xcRan s t x cost (s.xcAt x) ∧
        Painted s t x m fun i j =>
          if y0 ≤ j ∧ (j : Int) < y0 + n then areaSource (s.xcAt x).level (within (w 0) (w 1) i) else none := by
  intro w y0 n cost ready
  have rows : spanCount 64 1 y0 (y0 + n) = counted 64 y0 (y0 + n) := by
    refine (spanCount_eq_counted (by decide) 64 _ _).trans ?_
    push_cast
    rw [div_one, div_one]
  have low : sext 16 (s.xg x b.toNat).toNat = y0 := sext_low _
  refine area_paints (i := .span x sp b m) rfl ?_ (fun i j => ?_) hm ready
  · rw [low]
    exact congrArg (4 + ·) (congrArg₂ (· * ·) rows (congrArg (fun k => 1 + ceilDiv k 32) (spanCols_eq _ _)))
  · rw [low]
    by_cases inside : y0 ≤ j ∧ (j : Int) < y0 + n
    · rw [if_pos inside]
      refine areaSrc_eq (area := fun i _ => within (w 0) (w 1) i) ?_
      rw [← overlap_units]
      exact (if_pos inside).trans (areaCov_eq _ (by decide))
    · rw [if_neg inside]
      exact areaSrc_zero (if_neg inside)

theorem trap_paints :
    let w := fun k => units (s.xs x sp.toNat k)
    let yt := units (s.xg x b.toNat)
    let yb := units (s.xg x c.toNat)
    let lo := min (w 0) (w 0 + w 2 * (yb - yt))
    let hi := max (w 1) (w 1 + w 3 * (yb - yt))
    let cost := 6 + counted 64 yt yb * (2 + ceilDiv (counted 256 lo hi) 32)
    Ready s (.xc x) 1 cost →
      ∃ t, exec (.trapShape x sp b c m) s = .next t ∧ xcRan s t x cost (s.xcAt x) ∧
        Painted s t x m fun i j =>
          areaSource (s.xcAt x).level (trapArea (w 0) (w 1) (w 2) (w 3) yt yb i j) := by
  intro w yt yb lo hi cost ready
  have edge : ∀ p d : Word, ((p.toInt * 65536 + d.toInt * ((s.xg x c.toNat).toInt - (s.xg x b.toNat).toInt) : Int) : Rat) /
      ((2 ^ 32 : Int) : Int) = units p + units d * (yb - yt) := fun p d => by
    unfold yb yt units
    push_cast
    ring
  have corner : ∀ p : Word, ((p.toInt * 65536 : Int) : Rat) / ((2 ^ 32 : Int) : Int) = units p := fun p => by
    unfold units
    push_cast
    ring
  have rows : spanCount 64 65536 (s.xg x b.toNat).toInt (s.xg x c.toNat).toInt = counted 64 yt yb := by
    unfold yt yb
    rw [units_eq, units_eq]
    exact spanCount_eq_counted (by decide) 64 _ _
  have pos : (0 : Rat) ≤ ((2 ^ 32 : Int) : Int) := by norm_num
  have cols := spanCount_eq_counted (u := 2 ^ 32) (by decide) 256
    (min (s.xsI x sp.toNat 0 * 65536) (s.xsI x sp.toNat 0 * 65536 +
      s.xsI x sp.toNat 2 * ((s.xg x c.toNat).toInt - (s.xg x b.toNat).toInt)))
    (max (s.xsI x sp.toNat 1 * 65536) (s.xsI x sp.toNat 1 * 65536 +
      s.xsI x sp.toNat 3 * ((s.xg x c.toNat).toInt - (s.xg x b.toNat).toInt)))
  rw [Int.cast_min, Int.cast_max, ← min_div_div_right pos, ← max_div_div_right pos] at cols
  simp only [State.xsI, edge, corner] at cols
  refine area_paints (i := .trapShape x sp b c m) rfl ?_ (fun i j => ?_) hm ready
  · exact congrArg (6 + ·) (congrArg₂ (· * ·) rows (congrArg (fun k => 2 + ceilDiv k 32) cols))
  · exact areaSrc_eq rfl

end

/-! ### CELL (R74) -/

theorem foldl_if_add {p : Nat → Bool} {f : Nat → Int} (l : List Nat) (n : Int) :
    l.foldl (fun acc j => if p j then acc + f j else acc) n = n + (l.map fun j => if p j then f j else 0).sum := by
  induction l generalizing n with
  | nil => simp
  | cons k l ih =>
    rw [List.foldl_cons, ih, List.map_cons, List.sum_cons, ← add_assoc]
    split <;> simp

theorem cast_sum_div {f : Nat → Int} {g : Nat → Rat} {u : Rat} (l : List Nat) (h : ∀ k, (f k : Rat) / u = g k) :
    (((l.map f).sum : Int) : Rat) / u = (l.map g).sum := by
  induction l with
  | nil => simp
  | cons k l ih =>
    rw [List.map_cons, List.sum_cons, List.map_cons, List.sum_cons, ← ih, ← h]
    push_cast
    ring

/-- The length of the cells of a mask within a column. -/
theorem cellLen_eq (mask x0 w : Word) (i : Nat) : (cellLen mask x0.toInt w.toInt i : Rat) / (65536 : Int) =
    ((List.range 32).map fun k =>
      if mask.getLsbD k then within (units x0 + k * units w) (units x0 + (k + 1) * units w) i else 0).sum := by
  unfold cellLen
  rw [foldl_if_add, zero_add]
  refine cast_sum_div _ fun k => ?_
  split
  · rw [overlap_eq_within (by decide)]
    unfold units
    congr 1 <;> push_cast <;> ring
  · simp

theorem units_nonpos (v : Word) : units v ≤ 0 ↔ v.toInt ≤ 0 := by
  unfold units
  rw [div_le_iff₀ (by norm_num), zero_mul]
  exact_mod_cast Iff.rfl

theorem cell_paints {s : State} {x : Fin 144} (sp : BitVec 2) (b : BitVec 5) {m : BitVec 3} (hm : m.toNat < 5) :
    let w := fun k => units (s.xs x sp.toNat k)
    let cost := 4 + counted 64 (w 1) (w 1 + w 3) * (2 + ceilDiv (counted 256 (w 0) (w 0 + 32 * w 2)) 32)
    Ready s (.xc x) 1 cost →
      ∃ t, exec (.cell x sp b m) s = .next t ∧
        xcRan s t x cost { s.xcAt x with sp := (t.xcAt x).sp } ∧
        t.xs x sp.toNat 1 = s.xs x sp.toNat 1 + s.xs x sp.toNat 3 ∧
        (∀ p k, k < 4 → ¬(p = sp.toNat ∧ k = 1) → t.xs x p k = s.xs x p k) ∧
        Painted s t x m fun i j =>
          if w 2 ≤ 0 ∨ w 3 ≤ 0 then none
          else areaSource (s.xcAt x).level (within (w 1) (w 1 + w 3) j *
            ((List.range 32).map fun k =>
              if (s.xg x b.toNat).getLsbD k then within (w 0 + k * w 2) (w 0 + (k + 1) * w 2) i
              else 0).sum) := by
  intro w cost ready
  have sum : ∀ p q : Word, ((p.toInt + q.toInt : Int) : Rat) / (65536 : Int) = units p + units q := fun p q => by
    unfold units
    push_cast
    ring
  have rows : spanCount 64 65536 (s.xsI x sp.toNat 1) (s.xsI x sp.toNat 1 + s.xsI x sp.toNat 3) =
      counted 64 (w 1) (w 1 + w 3) := by
    refine (spanCount_eq_counted (by decide) 64 _ _).trans ?_
    unfold State.xsI
    rw [sum, ← units_eq]
  have cols : spanCount 256 65536 (s.xsI x sp.toNat 0) (s.xsI x sp.toNat 0 + 32 * s.xsI x sp.toNat 2) =
      counted 256 (w 0) (w 0 + 32 * w 2) := by
    refine (spanCount_eq_counted (by decide) 256 _ _).trans ?_
    unfold State.xsI w
    rw [units_eq, units_eq]
    congr 1
    push_cast
    ring
  have hcost : 4 + spanCount 64 65536 (s.xsI x sp.toNat 1) (s.xsI x sp.toNat 1 + s.xsI x sp.toNat 3) *
      (2 + ceilDiv (spanCount 256 65536 (s.xsI x sp.toNat 0) (s.xsI x sp.toNat 0 + 32 * s.xsI x sp.toNat 2)) 32) = cost :=
    congrArg (4 + ·) (congrArg₂ (· * ·) rows (congrArg (fun k => 2 + ceilDiv k 32) cols))
  have wrote := setXs_leaves s x sp.toNat 1 (s.xs x sp.toNat 1 + s.xs x sp.toNat 3)
  have words := fun p k hk => xs_setXs s x (q := sp.toNat) (w := 1) (p := p) (k := k)
    (s.xs x sp.toNat 1 + s.xs x sp.toNat 3) (by decide) hk
  generalize hu : s.setXs x sp.toNat 1 (s.xs x sp.toNat 1 + s.xs x sp.toNat 3) = u at *
  have leaves : ∀ v, XcLeaves s v x (s.xcAt x) →
      XcLeaves v (v.setXs x sp.toNat 1 (v.xs x sp.toNat 1 + v.xs x sp.toNat 3)) x { s.xcAt x with sp := (u.xcAt x).sp } ∧
      (v.setXs x sp.toNat 1 (v.xs x sp.toNat 1 + v.xs x sp.toNat 3)).mem = v.mem := fun v hv => by
    have core : v.xcAt x = s.xcAt x := hv.1
    have value : ∀ k, v.xs x sp.toNat k = s.xs x sp.toNat k := fun k => by rw [State.xs, core, ← State.xs]
    rw [value, value]
    have after := onXc_leaves v x fun c =>
      { c with sp := c.sp.set 0 (4 * sp.toNat + 1) (s.xs x sp.toNat 1 + s.xs x sp.toNat 3) }
    have own := (onXc_leaves s x fun c =>
      { c with sp := c.sp.set 0 (4 * sp.toNat + 1) (s.xs x sp.toNat 1 + s.xs x sp.toNat 3) }).1
    rw [core, ← own] at after
    have span : { s.xcAt x with sp := (u.xcAt x).sp } = u.xcAt x := wrote.1.symm
    rw [span, ← hu]
    exact ⟨after, rfl⟩
  have ready' := hcost.symm ▸ ready
  obtain ⟨t, run, painted, ran⟩ := xcPaint_runs (i := .cell x sp b m) (c := { s.xcAt x with sp := (u.xcAt x).sp }) rfl hm
    ready' leaves rfl rfl
  rw [hcost] at ran
  have span : (t.xcAt x).sp = (u.xcAt x).sp := by rw [ran.1]
  have same : ∀ p k, t.xs x p k = u.xs x p k := fun p k => by rw [State.xs, span, State.xs]
  refine ⟨t, run, by rwa [span], ?_, fun p k hk other => ?_, painted_congr painted fun i j => ?_⟩
  · rw [same, words _ 1 (by decide), if_pos ⟨rfl, rfl⟩]
  · rw [same, words _ k hk, if_neg other]
  · by_cases flat : w 2 ≤ 0 ∨ w 3 ≤ 0
    · rw [if_pos flat]
      exact areaSrc_zero (if_pos (flat.imp (units_nonpos _).1 (units_nonpos _).1))
    · rw [if_neg flat]
      refine areaSrc_eq (area := fun i j => within (w 1) (w 1 + w 3) j * ((List.range 32).map fun k =>
        if (s.xg x b.toNat).getLsbD k then within (w 0 + k * w 2) (w 0 + (k + 1) * w 2) i else 0).sum) ?_
      refine (if_neg fun h => flat (h.imp (units_nonpos _).2 (units_nonpos _).2)).trans ?_
      refine (areaCov_eq _ (by decide)).trans (congrArg (fun a : Rat => (255 * a + 1 / 2).floor.toNat) ?_)
      have height := overlap_eq_within (u := 65536) (by decide) (s.xsI x sp.toNat 1) (s.xsI x sp.toNat 1 + s.xsI x sp.toNat 3) j
      unfold State.xsI at height
      rw [sum, ← units_eq] at height
      rw [← height, ← cellLen_eq]
      push_cast
      unfold State.xsI
      ring

theorem areaShapes_paint : areaShapesPaintTheirArea := fun _ _ sp b c _ hm =>
  ⟨span_paints sp b hm, trap_paints sp b c hm, cell_paints sp b hm⟩

/-- Settles O21: lengths and areas in whole units are those of the rationals. -/
theorem areaInstructionsPaintExactArea : Obligations.AreaInstructionsPaintExactArea :=
  ⟨areaShapes_paint, trapezoid_example⟩

end Sys2Proof.Machine

/-!
The slots of jobs: ADMIT, RELEASE, START and the rates of jobs (R9, R107, R117, R118, R120).
-/

namespace Sys2Proof.Machine

/-! ### The state of a job slot (R117) -/

theorem slotStat_notMem : ∀ j : Fin 2, ADM_SLOT_STAT j ∉ reportRegs [BLK_ADM] := by decide

theorem slotStat_notMem_nil : ∀ j : Fin 2, ADM_SLOT_STAT j ∉ reportRegs [] := by decide

section
variable (s : State) (j : Fin 2)

@[simp] theorem slotState_setSlotState (v : Nat) (h : v < 8) : (s.setSlotState j v).slotState j = v := by
  unfold State.slotState State.setSlotState
  rw [fld_setFld_same _ _ _ _ (by decide)]
  exact Nat.mod_eq_of_lt h

@[simp] theorem jobAt_setJob (o : Option JobSt) : (s.setJob j o).jobAt j = o := by
  unfold State.jobAt State.setJob
  exact (Tbl.get_set ..).trans (if_pos rfl)

end

theorem slotState_of_reg {s t : State} {j : Nat} (h : t.reg (ADM_SLOT_STAT j) = s.reg (ADM_SLOT_STAT j)) :
    t.slotState j = s.slotState j := congrArg (fldGet ADM_SLOT_STAT_STATE) h

section
variable {s : State} {j : Fin 2}

theorem slotCmd_block (j : Fin 2) : SLOT_CMD j / 0x100000 = BLK_ADM := by
  revert j
  decide

/-- A command in a state that it has no meaning in. -/
theorem slotIgnored_of_exec {i : Instr} (h : exec i s = .next (s.ignored (SLOT_CMD j))) : slotIgnored s j i := by
  refine ⟨_, h, ignored_frame s _ _ _, ?_⟩
  have reported := ignored_reported s (SLOT_CMD j)
  rwa [slotCmd_block] at reported

theorem asleep_reported {i : Instr} {f : State → State} (asleep : s.awake BLK_ADM = false)
    (h : exec i s = .next (s.whenAwake (SLOT_CMD j) f)) :
    ∃ t, exec i s = .next t ∧ Frame s t [] [] ∧
      Reported s t (commonCode 0 BLK_ADM 0x39) 0xFF (BitVec.ofNat 48 (regAddr (SLOT_CMD j))) := by
  have block := slotCmd_block j
  obtain ⟨t, run, frame, reported⟩ := asleep_of_whenAwake h (by rwa [block])
  rw [block] at reported
  exact ⟨t, run, frame, reported⟩

theorem awake_exec {i : Instr} {f : State → State} (awake : s.awake BLK_ADM = true)
    (h : exec i s = .next (s.whenAwake (SLOT_CMD j) f)) : exec i s = .next (f s) := by
  have eq : s.whenAwake (SLOT_CMD j) f = f s := whenAwake_awake s (by rwa [slotCmd_block])
  rw [h, eq]

/-! ### ADMIT and RELEASE -/

theorem admitJob_checks (awake : s.awake BLK_ADM = true) (h : s.slotState j ∈ [0, 2, 3]) :
    ∃ t, exec (.admitJob j) s = .next t ∧ t.slotState j = 1 ∧ t = { s with regs := t.regs } ∧
      RegsBut s t [ADM_SLOT_STAT j] := by
  have run : exec (.admitJob j) s = .next ((s.setSlotState j 1).setFld (ADM_SLOT_STAT j) ADM_SLOT_STAT_VERDICT 0) := by
    rw [awake_exec awake (f := fun s => s.admitCmd j) rfl]
    exact congrArg Host.Outcome.next (if_pos (by simpa using h))
  refine ⟨_, run, ?_, rfl, ((RegsBut.refl _ _).setFld (by simp)).setFld (by simp)⟩
  exact (fld_setFld_field _ _ _ _ _ (by decide)).trans (slotState_setSlotState s j 1 (by decide))

theorem admitJob_ignored (awake : s.awake BLK_ADM = true) (h : s.slotState j ∉ [0, 2, 3]) :
    slotIgnored s j (.admitJob j) := by
  refine slotIgnored_of_exec ?_
  rw [awake_exec awake (f := fun s => s.admitCmd j) rfl]
  exact congrArg Host.Outcome.next (if_neg (by simpa using h))

theorem release_exec (awake : s.awake BLK_ADM = true) : exec (.release j) s = .next (s.releaseCmd j) :=
  awake_exec awake (f := fun s => s.releaseCmd j) rfl

theorem release_frees (awake : s.awake BLK_ADM = true) (h : s.slotState j = 2 ∨ s.slotState j = 3) :
    ∃ t, exec (.release j) s = .next t ∧ t.slotState j = 0 ∧ t.jobAt j = none ∧
      t = { s with regs := t.regs, adm := { s.adm with jobs := t.adm.jobs } } ∧ RegsBut s t [ADM_SLOT_STAT j] := by
  have run : exec (.release j) s = .next ((s.setSlotState j 0).setJob j none) := by
    rw [release_exec awake, State.releaseCmd]
    rcases h with h | h <;> simp only [h]
  refine ⟨_, run, ?_, jobAt_setJob _ _ _, rfl, (RegsBut.refl _ _).setFld (by simp)⟩
  exact slotState_setSlotState s j 0 (by decide)

theorem release_disarms (awake : s.awake BLK_ADM = true) (h : s.slotState j = 4) :
    ∃ t, exec (.release j) s = .next t ∧ t.slotState j = 2 ∧ t.mem = s.mem ∧
      RegsBut s t [ADM_SLOT_STAT j] ∧ t.adm = s.adm := by
  have run : exec (.release j) s = .next (((s.setSlotState j 2).sendWindow j 0 0).tadmUpdate) := by
    rw [release_exec awake, State.releaseCmd]
    simp only [h]
  refine ⟨_, run, ?_, rfl, (RegsBut.refl _ _).setFld (by simp), rfl⟩
  exact slotState_setSlotState s j 2 (by decide)

theorem release_drains (awake : s.awake BLK_ADM = true) (h : s.slotState j = 5) :
    ∃ t, exec (.release j) s = .next t ∧ t.slotState j = 6 ∧ t.mem = s.mem ∧
      RegsBut s t [ADM_SLOT_STAT j] ∧
      ∀ job, s.jobAt j = some job → t.jobAt j = some { job with stopLn := min job.stopLn (s.firstOpen job) } := by
  cases hj : s.jobAt j with
  | none =>
    have run : exec (.release j) s = .next (s.setSlotState j 6) := by
      rw [release_exec awake, State.releaseCmd]
      simp only [h, hj]
    exact ⟨_, run, slotState_setSlotState s j 6 (by decide), rfl, (RegsBut.refl _ _).setFld (by simp), nofun⟩
  | some job =>
    have run : exec (.release j) s = .next ((((s.setJob j (some { job with stopLn := min job.stopLn (s.firstOpen job) })).setSlotState
        j 6).sendWindow j job.goLn (min job.stopLn (s.firstOpen job))).tadmUpdate) := by
      rw [release_exec awake, State.releaseCmd]
      simp only [h, hj, State.drain]
    refine ⟨_, run, ?_, rfl, (RegsBut.refl _ _).setFld (by simp), fun job' h' => ?_⟩
    · exact slotState_setSlotState _ j 6 (by decide)
    · cases h'
      exact jobAt_setJob s j _

theorem release_ignored (awake : s.awake BLK_ADM = true) (h : s.slotState j ∉ [2, 3, 4, 5]) :
    slotIgnored s j (.release j) := by
  refine slotIgnored_of_exec ?_
  rw [release_exec awake, State.releaseCmd]
  simp only [List.mem_cons, List.not_mem_nil, or_false, not_or] at h
  obtain ⟨h2, h3, h4, h5⟩ := h
  split <;> first | contradiction | rfl

end

/-! ### The end of the checks (R107) -/

theorem withDram_refl (s : State) : s = s.withDram s := rfl

theorem withDram_trans {s t u : State} (h : t = s.withDram t) (k : u = t.withDram u) : u = s.withDram u := by
  rw [k, h]
  rfl

/-- Reads of DRAM that need not wait change the controller and the pointers of its ports. -/
theorem dramReads_withDram (s : State) (port : Nat × Nat) (hint : PageHint) (xs : List (Nat × Nat)) :
    s.dramReads port hint xs = s.withDram (s.dramReads port hint xs) :=
  foldl_keeps (fun s t => t = s.withDram t) withDram_refl (fun _ _ _ h k => withDram_trans h k) _
    (fun s p => dramRead_withDram s port hint p.1 p.2) _ s

theorem structureReason_le (s : State) (h : JobHdr) : s.structureReason h ≤ 7 := by
  unfold State.structureReason
  dsimp only
  split_ifs <;> decide

theorem tileOr_le {p : Prop} [Decidable p] (b : Bool) : (if p then 2 else b2n b) ≤ 3 := by
  split
  · decide
  · cases b <;> decide

/-- The reason and the binding inequality of a verdict fit in their fields. -/
theorem judge_fits (s : State) (d : Nat) (h : JobHdr) {r : Nat} (hr : r ≤ 7) :
    (s.judge d h r).reason ≤ 11 ∧ (s.judge d h r).bind ≤ 3 := by
  unfold State.judge
  dsimp only
  refine ⟨?_, ?_⟩
  · split_ifs <;> omega
  · exact tileOr_le _

theorem verdict_fits (s : State) (d base : Nat) : (s.verdict d base).reason ≤ 11 ∧ (s.verdict d base).bind ≤ 3 := by
  have structure_ := structureReason_le s (s.readHdr base)
  have rejected : ∀ r, r ≤ 7 → (Verdict.reject d r).reason ≤ 11 ∧ (Verdict.reject d r).bind ≤ 3 := fun r hr =>
    ⟨hr.trans (by decide), le_refl 3⟩
  unfold State.verdict
  split
  · exact rejected 2 (by decide)
  split
  · exact rejected 1 (by decide)
  dsimp only
  split
  · exact judge_fits s d _ structure_
  · exact rejected _ structure_

/-- What the registers of a slot show of a verdict. -/
def State.verdictShown (s : State) (j : Nat) (v : Verdict) : State :=
  let s := s.setSlotState j (if v.reason == 0 then 2 else 3)
  let s := ((s.setFld (ADM_SLOT_STAT j) ADM_SLOT_STAT_VERDICT (b2n (v.reason == 0))).setFld (ADM_SLOT_STAT j)
    ADM_SLOT_STAT_REASON v.reason).setFld (ADM_SLOT_STAT j) ADM_SLOT_STAT_BIND v.bind
  let s := (s.setReg (ADM_RATE j) (BitVec.ofNat 32 v.rate)).setReg (ADM_MARGIN j)
    (BitVec.ofNat 32 (twos 16 v.margin))
  (s.setReg (ADM_WORST j) (BitVec.ofNat 32 v.worst)).setEvt BLK_ADM j

section
variable (s : State) (j : Fin 2) (v : Verdict)

theorem slot_regs_ne : ADM_SLOT_STAT j ≠ ADM_RATE j ∧ ADM_SLOT_STAT j ≠ ADM_MARGIN j ∧ ADM_SLOT_STAT j ≠ ADM_WORST j ∧
    ADM_RATE j ≠ ADM_MARGIN j ∧ ADM_RATE j ≠ ADM_WORST j ∧ ADM_MARGIN j ≠ ADM_WORST j := by
  unfold ADM_SLOT_STAT ADM_RATE ADM_MARGIN ADM_WORST
  omega

theorem slot_regs_notMem : ∀ j : Fin 2, ADM_RATE j ∉ reportRegs [BLK_ADM] ∧ ADM_MARGIN j ∉ reportRegs [BLK_ADM] ∧
    ADM_WORST j ∉ reportRegs [BLK_ADM] := by decide

/-- The state register of a slot that shows a verdict. -/
theorem verdictShown_stat : (s.verdictShown j v).reg (ADM_SLOT_STAT j) =
    fldPut ADM_SLOT_STAT_BIND v.bind (fldPut ADM_SLOT_STAT_REASON v.reason
      (fldPut ADM_SLOT_STAT_VERDICT (b2n (v.reason == 0))
        (fldPut ADM_SLOT_STAT_STATE (if v.reason == 0 then 2 else 3) (s.reg (ADM_SLOT_STAT j))))) := by
  obtain ⟨n1, n2, n3, -⟩ := slot_regs_ne j
  unfold State.verdictShown State.setSlotState
  rw [reg_setEvt_of_notMem _ _ _ _ (slotStat_notMem j), reg_setReg_other _ _ _ _ n3, reg_setReg_other _ _ _ _ n2,
    reg_setReg_other _ _ _ _ n1, reg_setFld_same, reg_setFld_same, reg_setFld_same, reg_setFld_same]

theorem verdictShown_fields (reason : v.reason ≤ 11) (bind : v.bind ≤ 3) :
    (s.verdictShown j v).slotState j = (if v.reason = 0 then 2 else 3) ∧
    (s.verdictShown j v).fld (ADM_SLOT_STAT j) ADM_SLOT_STAT_VERDICT = (if v.reason = 0 then 1 else 0) ∧
    (s.verdictShown j v).fld (ADM_SLOT_STAT j) ADM_SLOT_STAT_REASON = v.reason ∧
    (s.verdictShown j v).fld (ADM_SLOT_STAT j) ADM_SLOT_STAT_BIND = v.bind := by
  unfold State.slotState State.fld
  rw [verdictShown_stat]
  refine ⟨?_, ?_, ?_, ?_⟩
  · rw [fldGet_fldPut_other _ _ _ _ (by decide), fldGet_fldPut_other _ _ _ _ (by decide),
      fldGet_fldPut_other _ _ _ _ (by decide), fldGet_fldPut_same _ _ _ (by decide)]
    by_cases h : v.reason = 0 <;> simp [h, ADM_SLOT_STAT_STATE]
  · rw [fldGet_fldPut_other _ _ _ _ (by decide), fldGet_fldPut_other _ _ _ _ (by decide),
      fldGet_fldPut_same _ _ _ (by decide)]
    by_cases h : v.reason = 0 <;> simp [h, ADM_SLOT_STAT_VERDICT, b2n]
  · rw [fldGet_fldPut_other _ _ _ _ (by decide), fldGet_fldPut_same _ _ _ (by decide)]
    exact Nat.mod_eq_of_lt (reason.trans_lt (by decide))
  · rw [fldGet_fldPut_same _ _ _ (by decide)]
    exact Nat.mod_eq_of_lt (bind.trans_lt (by decide))

theorem verdictShown_values : (s.verdictShown j v).reg (ADM_RATE j) = BitVec.ofNat 32 v.rate ∧
    (s.verdictShown j v).reg (ADM_MARGIN j) = BitVec.ofNat 32 (twos 16 v.margin) ∧
    (s.verdictShown j v).reg (ADM_WORST j) = BitVec.ofNat 32 v.worst := by
  obtain ⟨-, -, -, n4, n5, n6⟩ := slot_regs_ne j
  obtain ⟨m1, m2, m3⟩ := slot_regs_notMem j
  unfold State.verdictShown
  refine ⟨?_, ?_, ?_⟩
  · rw [reg_setEvt_of_notMem _ _ _ _ m1, reg_setReg_other _ _ _ _ n5, reg_setReg_other _ _ _ _ n4, reg_setReg_same]
  · rw [reg_setEvt_of_notMem _ _ _ _ m2, reg_setReg_other _ _ _ _ n6, reg_setReg_same]
  · rw [reg_setEvt_of_notMem _ _ _ _ m3, reg_setReg_same]

theorem verdictShown_event : EventSet (s.verdictShown j v) BLK_ADM j := setEvt_eventSet _ _ _ (by omega)

theorem verdictShown_frame : Frame s (s.verdictShown j v)
    [ADM_SLOT_STAT j, ADM_RATE j, ADM_MARGIN j, ADM_WORST j] [BLK_ADM] := by
  unfold State.verdictShown State.setSlotState
  exact ((((((((Frame.refl _ _ _).setFld (by simp)).setFld (by simp)).setFld (by simp)).setFld (by simp)).setReg
    (by simp)).setReg (by simp)).setReg (by simp)).setEvt (by simp)

end

theorem jobBase_of_regs {s t : State} (h : t.regs = s.regs) (j : Nat) : t.jobBase j = s.jobBase j := by
  unfold State.jobBase State.reg64
  rw [reg_of_regs h, reg_of_regs h]

/-- ADMISSION_COMPLETE once the header is read. -/
theorem admission_completes {s u : State} (j : Fin 2) (checking : s.slotState j = 1)
    (ready : s.dramStalls (0, 0) false .keep [(s.jobBase j, 256)] = none)
    (reads : s.dramReads (0, 0) .keep [(s.jobBase j, 256)] = u) :
    let v := u.draw.2.verdict s.freeIx (s.jobBase j)
    exec (.admissionComplete j) s = .next ((u.draw.2.setJob j v.job).verdictShown j v) ∧ u.adm = s.adm := by
  have leaves := dramReads_withDram s (0, 0) .keep [(s.jobBase j, 256)]
  rw [reads] at leaves
  have regs : u.regs = s.regs := by rw [leaves]; rfl
  have base : u.draw.2.jobBase j = s.jobBase j := jobBase_of_regs regs j
  have index : u.draw.1 = s.freeIx := by
    change u.freeIx = _
    rw [leaves]
    rfl
  have adm : u.adm = s.adm := by rw [leaves]; rfl
  refine ⟨?_, adm⟩
  obtain ⟨verdict, hv⟩ : ∃ f, f = @State.verdict := ⟨_, rfl⟩
  change execAdmissionComplete j s = _
  unfold execAdmissionComplete
  rw [if_neg (not_not.2 checking), ready, ← hv, reads]
  clear ready reads
  dsimp only
  rw [index, base]
  rfl

/-- The end of the checks shows the verdict. -/
theorem admission_shows {s : State} (j : Fin 2) (v : Verdict) {a : AdmSt} (adm : s.adm = a) (reason : v.reason ≤ 11)
    (bind : v.bind ≤ 3) :
    let t := (s.setJob j v.job).verdictShown j v
    (t.slotState j = (if v.reason = 0 then 2 else 3) ∧ t.jobAt j = v.job ∧
       t.fld (ADM_SLOT_STAT j) ADM_SLOT_STAT_VERDICT = (if v.reason = 0 then 1 else 0) ∧
       t.fld (ADM_SLOT_STAT j) ADM_SLOT_STAT_REASON = v.reason ∧
       t.fld (ADM_SLOT_STAT j) ADM_SLOT_STAT_BIND = v.bind ∧
       t.reg (ADM_RATE j) = BitVec.ofNat 32 v.rate ∧
       t.reg (ADM_MARGIN j) = BitVec.ofNat 32 (twos 16 v.margin) ∧
       t.reg (ADM_WORST j) = BitVec.ofNat 32 v.worst) ∧
      EventSet t BLK_ADM j ∧
      Frame { s with adm := { a with jobs := t.adm.jobs } } t
        [ADM_SLOT_STAT j, ADM_RATE j, ADM_MARGIN j, ADM_WORST j] [BLK_ADM] := by
  subst adm
  have fields := verdictShown_fields (s.setJob j v.job) j v reason bind
  have values := verdictShown_values (s.setJob j v.job) j v
  have frame := verdictShown_frame (s.setJob j v.job) j v
  have event := verdictShown_event (s.setJob j v.job) j v
  have job : ((s.setJob j v.job).verdictShown j v).jobAt j = v.job := by
    rw [State.jobAt, frame.1.adm]
    exact jobAt_setJob s j v.job
  have base : s.setJob j v.job = { s with adm := { s.adm with jobs := ((s.setJob j v.job).verdictShown j v).adm.jobs } } := by
    rw [frame.1.adm]
    rfl
  generalize (s.setJob j v.job).verdictShown j v = t at *
  obtain ⟨f1, f2, f3, f4⟩ := fields
  exact ⟨⟨f1, job, f2, f3, f4, values⟩, event, base ▸ frame⟩

theorem admission_ends (s : State) (j : Fin 2) (checking : s.slotState j = 1)
    (ready : s.dramStalls (0, 0) false .keep [(s.jobBase j, 256)] = none) :
    let s' := (s.dramReads (0, 0) .keep [(s.jobBase j, 256)]).draw.2
    let v := s'.verdict s.freeIx (s.jobBase j)
    ∃ t, exec (.admissionComplete j) s = .next t ∧
      (t.slotState j = (if v.reason = 0 then 2 else 3) ∧ t.jobAt j = v.job ∧
       t.fld (ADM_SLOT_STAT j) ADM_SLOT_STAT_VERDICT = (if v.reason = 0 then 1 else 0) ∧
       t.fld (ADM_SLOT_STAT j) ADM_SLOT_STAT_REASON = v.reason ∧
       t.fld (ADM_SLOT_STAT j) ADM_SLOT_STAT_BIND = v.bind ∧
       t.reg (ADM_RATE j) = BitVec.ofNat 32 v.rate ∧
       t.reg (ADM_MARGIN j) = BitVec.ofNat 32 (twos 16 v.margin) ∧
       t.reg (ADM_WORST j) = BitVec.ofNat 32 v.worst) ∧
      EventSet t BLK_ADM j ∧
      Frame { s' with adm := { s.adm with jobs := t.adm.jobs } } t
        [ADM_SLOT_STAT j, ADM_RATE j, ADM_MARGIN j, ADM_WORST j] [BLK_ADM] := by
  obtain ⟨u, reads⟩ : ∃ u, s.dramReads (0, 0) .keep [(s.jobBase j, 256)] = u := ⟨_, rfl⟩
  obtain ⟨run, adm⟩ := admission_completes j checking ready reads
  obtain ⟨reason, bind⟩ := verdict_fits u.draw.2 s.freeIx (s.jobBase j)
  have adm' : u.draw.2.adm = s.adm := adm
  rw [reads]
  clear ready reads
  dsimp only
  generalize u.draw.2 = w at *
  generalize w.verdict s.freeIx (s.jobBase j) = v at *
  exact ⟨_, run, admission_shows j v adm' reason bind⟩

theorem slotCommands_move : slotCommandsMoveTheirSlot := by
  intro s j
  refine ⟨fun asleep i hi => ?_, fun awake => ⟨admitJob_checks awake, admitJob_ignored awake, release_frees awake,
    release_disarms awake, release_drains awake, release_ignored awake⟩, fun checking ready => ?_, fun idle => ?_⟩
  · rcases hi with rfl | rfl | rfl
    · exact asleep_reported asleep rfl
    · exact asleep_reported asleep rfl
    · exact asleep_reported asleep rfl
  · exact admission_ends s j checking ready
  · exact congrArg Host.Outcome.next (if_pos idle)

/-! ### Products as a line clock's own state (R172, R176) -/

theorem Frame.setLc {s t : State} {l blks : List Nat} (h : Frame s t l blks) (c : LcSt) :
    Frame { s with lc := c } { t with lc := c } l blks := by
  obtain ⟨q, r⟩ := h
  refine ⟨?_, r⟩
  unfold Quiet at q ⊢
  conv_lhs => rw [q]

/-- But for the line clock's own state, a frame. -/
def LcFrame (s t : State) (l blks : List Nat) : Prop := Frame { s with lc := t.lc } t l blks

section
variable {s t u : State} {l blks : List Nat}

theorem LcFrame.refl (s : State) (l blks : List Nat) : LcFrame s s l blks := Frame.refl s l blks

theorem LcFrame.frame (h : LcFrame s t l blks) (k : Frame t u l blks) : LcFrame s u l blks := by
  unfold LcFrame at h ⊢
  rw [k.1.lc]
  exact h.trans k

theorem LcFrame.onLc (h : LcFrame s t l blks) (f : LcSt → LcSt) : LcFrame s (t.onLc f) l blks :=
  Frame.setLc h (f t.lc)

theorem LcFrame.trans (h : LcFrame s t l blks) (k : LcFrame t u l blks) : LcFrame s u l blks := by
  have first : Frame { s with lc := u.lc } { t with lc := u.lc } l blks := Frame.setLc h u.lc
  exact first.trans k

theorem LcFrame.each (h : LcFrame s t l blks) {f : Nat → State → State} (hf : ∀ i u, LcFrame u (f i u) l blks) (n : Nat) :
    LcFrame s (t.each n f) l blks := by
  induction n with
  | zero => exact h
  | succ n ih =>
    rw [each_succ]
    exact ih.trans (hf n _)

end

/-- The registers that show the queue of products. -/
def queueRegs : List Nat := [PQ_STAT, PQ_NUM, PQ_ORG_LO, PQ_ORG_HI, LC_CNT 4]

theorem showQueue_frame (s : State) : Frame s s.showQueue queueRegs [BLK_LC] := by
  unfold State.showQueue queueRegs State.setReg64
  dsimp only
  split
  · exact (((((Frame.refl _ _ _).setFld (by simp)).setFld (by simp)).setReg (by simp)).setReg (by simp)).setReg (by simp)
  · exact (((((Frame.refl _ _ _).setFld (by simp)).setFld (by simp)).setReg (by simp)).setReg (by simp)).setReg (by simp)

theorem acceptProduct_lcFrame (s : State) (trig : Bool) (lane origin : Nat) :
    LcFrame s (s.acceptProduct trig lane origin) queueRegs [BLK_LC] := by
  unfold State.acceptProduct
  extract_lets after moved k p full u v
  have queued : LcFrame s u queueRegs [BLK_LC] := (LcFrame.refl _ _ _).onLc _
  have shown : LcFrame s v queueRegs [BLK_LC] :=
    (queued.frame ((Frame.refl _ _ _).setEvt (by simp))).frame (showQueue_frame _)
  split
  · exact shown.frame ((Frame.refl _ _ _).count (by simp [queueRegs]))
  · exact shown

theorem numberRepeats_lcFrame (s : State) : LcFrame s s.numberRepeats queueRegs [BLK_LC] := by
  unfold State.numberRepeats
  extract_lets laid
  split
  · exact LcFrame.refl _ _ _
  · exact LcFrame.refl _ _ _
  · exact ((LcFrame.refl _ _ _).each (fun i u => acceptProduct_lcFrame u _ _ _) _).onLc _

/-! ### START (R117, R118) -/

section
variable {s : State} {j : Fin 2}

theorem slotStart_exec (awake : s.awake BLK_ADM = true) : exec (.slotStart j) s = .next (s.startCmd j) :=
  awake_exec awake (f := fun s => s.startCmd j) rfl

theorem slotStart_admitted {job : JobSt} (awake : s.awake BLK_ADM = true) (h : s.slotState j = 2) (hj : s.jobAt j = some job) :
    exec (.slotStart j) s = .next (s.startSlot j job) := by
  rw [slotStart_exec awake, State.startCmd, if_pos h, hj]

/-- START that is refused for a reason. -/
theorem startRefused_of_exec {reason : Nat} (h : exec (.slotStart j) s = .next (s.refuseStart j reason)) (hr : reason < 256) :
    startRefused s j reason := by
  have stat : (s.refuseStart j reason).reg (ADM_SLOT_STAT j) =
      fldPut ADM_SLOT_STAT_REASON reason (s.reg (ADM_SLOT_STAT j)) := by
    unfold State.refuseStart
    rw [reg_setEvt_of_notMem _ _ _ _ (slotStat_notMem j), reg_setFld_same]
  refine ⟨_, h, ?_, ?_, setEvt_eventSet _ _ _ (by omega), ((Frame.refl _ _ _).setFld (by simp)).setEvt (by simp)⟩
  · unfold State.slotState State.fld
    rw [stat, fldGet_fldPut_other _ _ _ _ (by decide)]
  · unfold State.fld
    rw [stat, fldGet_fldPut_same _ _ _ (by decide)]
    exact Nat.mod_eq_of_lt hr

/-- A slot whose job goes. -/
def State.slotGoes (s : State) (j : Nat) (job : JobSt) (state : Nat) : State :=
  ((s.setJob j (some job)).setSlotState j state).sendWindow j job.goLn job.stopLn

theorem slotStat_queue : ∀ j : Fin 2, ADM_SLOT_STAT j ∉ queueRegs ∧ ADM_SLOT_STAT j ∉ reportRegs [BLK_LC] := by decide

/-- What a slot whose job goes shows, whatever the line clock then does. -/
theorem slotGoes_shows {job : JobSt} {state : Nat} {t : State} (h : state < 8)
    (lc : LcFrame (s.slotGoes j job state) t queueRegs [BLK_LC]) :
    t.slotState j = state ∧ t.mem = s.mem ∧ t.jobAt j = some job ∧
      t.si.winSent.get none j = some { slot := j, lo := job.goLn, hi := job.stopLn } := by
  obtain ⟨quiet, regs⟩ := lc
  have apart := slotStat_queue j
  refine ⟨?_, quiet.mem, ?_, ?_⟩
  · have same : t.reg (ADM_SLOT_STAT j) = (s.slotGoes j job state).reg (ADM_SLOT_STAT j) :=
      regs _ (by simp [apart.1, apart.2])
    exact (slotState_of_reg same).trans (slotState_setSlotState _ j state h)
  · rw [State.jobAt, quiet.adm]
    exact jobAt_setJob s j (some job)
  · rw [quiet.si_winSent]
    exact (Tbl.get_set ..).trans (if_pos rfl)

section
variable {job : JobSt} (awake : s.awake BLK_ADM = true) (hj : s.jobAt j = some job) (h : s.slotState j = 2)
include awake hj h

theorem start_offLine (far : s.reg64 GO_LN_LO GO_LN_HI % 64 ≠ 0 ∨
    (s.reg64 GO_LN_LO GO_LN_HI : Int) < s.lastLn + 320 + job.hdr.lead) : startRefused s j 14 := by
  refine startRefused_of_exec ?_ (by decide)
  rw [slotStart_admitted awake h hj]
  exact congrArg Host.Outcome.next (if_pos far)

variable (line : s.reg64 GO_LN_LO GO_LN_HI % 64 = 0)
  (near : s.lastLn + 320 + job.hdr.lead ≤ (s.reg64 GO_LN_LO GO_LN_HI : Int))
include line near

theorem start_alone (alone : s.slotState (1 - j.val) ∉ [5, 6]) :
    let job' := { job with goLn := s.reg64 GO_LN_LO GO_LN_HI, stopLn := job.hdr.endLn }
    ∃ t, exec (.slotStart j) s = .next t ∧ LcFrame (s.slotGoes j job' 5) t queueRegs [BLK_LC] := by
  intro job'
  have idle : (s.slotState (1 - j.val) == 5 || s.slotState (1 - j.val) == 6) = false := by
    simpa using alone
  rw [slotStart_admitted awake h hj]
  unfold State.startSlot
  dsimp only
  rw [if_neg (by omega), idle]
  dsimp only
  refine ⟨_, rfl, ?_⟩
  refine LcFrame.onLc ?_ _
  split
  · exact (LcFrame.refl _ _ _).onLc _
  · exact ((LcFrame.refl _ _ _).onLc _).trans (numberRepeats_lcFrame _)

theorem start_behind {old : JobSt} (busy : s.slotState (1 - j.val) ∈ [5, 6]) (ho : s.jobAt (1 - j.val) = some old) :
    let go := s.reg64 GO_LN_LO GO_LN_HI
    let job' := { job with goLn := go, stopLn := job.hdr.endLn }
    let f := min (s.reg (ADM_RATE j)).toNat (s.reg (ADM_RATE (1 - j.val))).toNat
    exec (.slotStart j) s = .next (if !seamFits old.hdr job.hdr then s.refuseStart j 12
      else if s.seamLoad old job' f go then s.refuseStart j 13
      else (s.slotGoes j job' 4).tadmUpdate) := by
  intro go job' f
  have running : (s.slotState (1 - j.val) == 5 || s.slotState (1 - j.val) == 6) = true := by
    simpa using busy
  rw [slotStart_admitted awake h hj]
  unfold State.startSlot
  dsimp only
  rw [if_neg (by omega), running, ho]
  rfl

end

end

theorem start_checks : startChecksItsLine := by
  refine ⟨fun s j awake h => slotIgnored_of_exec ?_, fun s j job awake hj => ?_⟩
  · rw [slotStart_exec awake, State.startCmd, if_neg h]
  intro go job' goes
  refine ⟨start_offLine awake hj, fun h line near => ⟨fun alone => ?_, fun busy old ho => ?_⟩⟩
  · obtain ⟨t, run, lc⟩ := start_alone awake hj h line near alone
    exact ⟨t, run, slotGoes_shows (by decide) lc⟩
  · have run := start_behind awake hj h line near busy ho
    dsimp only at run ⊢
    refine ⟨fun apart => ?_, fun fits => ⟨fun heavy => ?_, fun light => ?_⟩⟩
    · rw [apart] at run
      exact startRefused_of_exec run (by decide)
    · rw [fits] at run
      exact startRefused_of_exec (run.trans (congrArg Host.Outcome.next ((if_neg (by decide)).trans (if_pos heavy)))) (by decide)
    · rw [fits] at run
      exact ⟨_, run.trans (congrArg Host.Outcome.next ((if_neg (by decide)).trans (if_neg (by rw [light]; decide)))),
        slotGoes_shows (by decide) ((LcFrame.refl _ _ _).onLc _)⟩

/-! ### The rates of the jobs (R120) -/

section
variable (s : State)

/-- The rate of a job for the cores now counted. -/
def State.ratedFor (s : State) (job : JobSt) : Nat := min (computeRate (min 126 s.ncap) job.dMax) job.fOther

theorem rerate_frame (j : Nat) (hj : j < 2) : Frame s (s.rerate j) [ADM_RATE 0, ADM_RATE 1] [BLK_ADM] := by
  have mem : ADM_RATE j ∈ [ADM_RATE 0, ADM_RATE 1] := by
    have : j = 0 ∨ j = 1 := by omega
    rcases this with rfl | rfl <;> simp
  unfold State.rerate
  split
  · exact Frame.refl _ _ _
  dsimp only
  split
  · exact (((Frame.refl _ _ _).setReg mem).setEvt (by simp)).fault
  split
  · exact ((Frame.refl _ _ _).setReg mem).setEvt (by simp)
  · exact Frame.refl _ _ _

/-- The units' states are in registers that the rates leave. -/
theorem ncap_of_frame {s t : State} (h : Frame s t [ADM_RATE 0, ADM_RATE 1] [BLK_ADM]) : t.ncap = s.ncap := by
  have unit : ∀ u, t.unit u = s.unit u := fun u => by
    refine h.fld _ ?_ (notMem_reportRegs_one (b := BLK_ADM) 0x400120 rfl ?_)
    · simp only [List.mem_cons, List.not_mem_nil, or_false, ADM_RATE, ST_USTAT]
      omega
    · unfold ST_USTAT
      omega
  unfold State.ncap
  simp only [unit]

theorem ratedFor_of_frame {s t : State} (h : Frame s t [ADM_RATE 0, ADM_RATE 1] [BLK_ADM]) (job : JobSt) :
    t.ratedFor job = s.ratedFor job := by
  unfold State.ratedFor
  rw [ncap_of_frame h]

theorem rate_notMem : ∀ j : Fin 2, ADM_RATE j ∉ reportRegs [BLK_ADM] ∧ ADM_RATE j ∉ reportRegs [] := by decide

/-- What the change of a slot's rate leaves. -/
theorem rerate_other (j k : Fin 2) (h : k ≠ j) : (s.rerate j).reg (ADM_RATE k) = s.reg (ADM_RATE k) := by
  have ne : ADM_RATE k ≠ ADM_RATE j := by
    have : k.val ≠ j.val := fun e => h (Fin.ext e)
    unfold ADM_RATE
    omega
  obtain ⟨m1, m2⟩ := rate_notMem k
  unfold State.rerate
  split
  · rfl
  dsimp only
  split
  · rw [reg_fault _ _ _ _ _ m2, reg_setEvt_of_notMem _ _ _ _ m1, reg_setReg_other _ _ _ _ ne]
  split
  · rw [reg_setEvt_of_notMem _ _ _ _ m1, reg_setReg_other _ _ _ _ ne]
  · rfl

theorem rerate_none {j : Nat} (h : s.jobAt j = none) : s.rerate j = s := by
  unfold State.rerate
  rw [h]

/-- The rate of a slot's job. -/
theorem rerate_some (j : Fin 2) {job : JobSt} (h : s.jobAt j = some job) :
    (s.rerate j).reg (ADM_RATE j) = BitVec.ofNat 32 (s.ratedFor job) ∧
    (s.ratedFor job < (s.reg (ADM_RATE j)).toNat → EventSet (s.rerate j) BLK_ADM 6 ∧
      Reported s (s.rerate j) 0x2104 (BitVec.ofNat 8 j) (BitVec.ofNat 48 (s.ratedFor job))) ∧
    ((s.reg (ADM_RATE j)).toNat < s.ratedFor job → EventSet (s.rerate j) BLK_ADM 7) ∧
    ((s.reg (ADM_RATE j)).toNat ≤ s.ratedFor job → (s.rerate j).si = s.si) := by
  obtain ⟨m1, m2⟩ := rate_notMem j
  have eq : s.rerate j = if s.ratedFor job < (s.reg (ADM_RATE j)).toNat then
      ((s.setReg (ADM_RATE j) (BitVec.ofNat 32 (s.ratedFor job))).setEvt BLK_ADM 6).fault 0x2104 j (s.ratedFor job)
    else if (s.reg (ADM_RATE j)).toNat < s.ratedFor job then
      (s.setReg (ADM_RATE j) (BitVec.ofNat 32 (s.ratedFor job))).setEvt BLK_ADM 7
    else s := by
    unfold State.rerate
    rw [h]
    rfl
  rw [eq]
  rcases Nat.lt_trichotomy (s.ratedFor job) (s.reg (ADM_RATE j)).toNat with less | same | more
  · rw [if_pos less]
    refine ⟨?_, fun _ => ⟨?_, ?_⟩, fun h => absurd h (by omega), fun h => absurd h (by omega)⟩
    · rw [reg_fault _ _ _ _ _ m2, reg_setEvt_of_notMem _ _ _ _ m1, reg_setReg_same]
    · exact (setEvt_eventSet _ _ _ (by decide)).fault _ _ _
    · exact fault_reportedFrom _ _ _ (congrArg SiSt.queues (setEvt_si _ _ _))
  · rw [if_neg (by omega), if_neg (by omega)]
    refine ⟨?_, fun h => absurd h (by omega), fun h => absurd h (by omega), fun _ => rfl⟩
    rw [same, BitVec.ofNat_toNat, BitVec.setWidth_eq]
  · rw [if_neg (by omega), if_pos more]
    refine ⟨?_, fun h => absurd h (by omega), fun _ => setEvt_eventSet _ _ _ (by decide), fun _ => setEvt_si _ _ _⟩
    rw [reg_setEvt_of_notMem _ _ _ _ m1, reg_setReg_same]

/-- An event stays pending while rates change. -/
theorem EventSet.rerate {s : State} {n : Nat} (h : EventSet s BLK_ADM n) (j : Fin 2) : EventSet (s.rerate j) BLK_ADM n := by
  have apart : evtReg BLK_ADM ≠ ADM_RATE j := by
    change 0x400120 ≠ 0x400010 + 0x40 * j.val
    omega
  unfold State.rerate
  split
  · exact h
  dsimp only
  split
  · exact ((h.setReg apart).setEvt _ _).fault _ _ _
  split
  · exact (h.setReg apart).setEvt _ _
  · exact h

end

/-- What is shown of a slot's rate, from the state before a change of both. -/
def RateShown (s t : State) (j : Nat) : Prop :=
  match s.jobAt j with
  | some job =>
    t.reg (ADM_RATE j) = BitVec.ofNat 32 (s.ratedFor job) ∧
      (s.ratedFor job < (s.reg (ADM_RATE j)).toNat → EventSet t BLK_ADM 6 ∧
        ((∀ other, s.jobAt (1 - j) = some other → (s.reg (ADM_RATE (1 - j))).toNat ≤ s.ratedFor other) →
          Reported s t 0x2104 (BitVec.ofNat 8 j) (BitVec.ofNat 48 (s.ratedFor job)))) ∧
      ((s.reg (ADM_RATE j)).toNat < s.ratedFor job → EventSet t BLK_ADM 7)
  | none => t.reg (ADM_RATE j) = s.reg (ADM_RATE j)

section
variable (s : State)

theorem rerate_si {j : Fin 2} (h : ∀ job, s.jobAt j = some job → (s.reg (ADM_RATE j)).toNat ≤ s.ratedFor job) :
    (s.rerate j).si = s.si := by
  cases hj : s.jobAt j with
  | none => rw [rerate_none s hj]
  | some job => exact (rerate_some s j hj).2.2.2 (h job hj)

theorem rates_first : RateShown s ((s.rerate 0).rerate 1) 0 := by
  have frame := rerate_frame s 0 (by decide)
  have other := rerate_other (s.rerate 0) 1 0 (by decide)
  have jobs : (s.rerate 0).jobAt 1 = s.jobAt 1 := congrArg (fun a : AdmSt => a.jobs.get none 1) frame.1.adm
  unfold RateShown
  cases hj : s.jobAt 0 with
  | none => exact other.trans (congrArg (fun t : State => t.reg (ADM_RATE 0)) (rerate_none s hj))
  | some job =>
    obtain ⟨value, lower, higher, -⟩ := rerate_some s 0 hj
    refine ⟨other.trans value, fun less => ⟨(lower less).1.rerate 1, fun kept => ?_⟩, fun more => (higher more).rerate 1⟩
    have same : ((s.rerate 0).rerate 1).si = (s.rerate 0).si := rerate_si (s.rerate 0) fun job' h' => by
      rw [ratedFor_of_frame frame]
      have reg := rerate_other s 0 1 (by decide)
      exact (congrArg BitVec.toNat reg).trans_le (kept job' (jobs ▸ h'))
    exact (lower less).2.of_si (congrArg SiSt.queues same) (congrArg SiSt.blkLoss same)

theorem rates_second : RateShown s ((s.rerate 0).rerate 1) 1 := by
  have frame := rerate_frame s 0 (by decide)
  have before := rerate_other s 0 1 (by decide)
  have jobs : (s.rerate 0).jobAt 1 = s.jobAt 1 := congrArg (fun a : AdmSt => a.jobs.get none 1) frame.1.adm
  unfold RateShown
  cases hj : s.jobAt 1 with
  | none => exact (congrArg (fun t : State => t.reg (ADM_RATE 1)) (rerate_none _ (jobs.trans hj))).trans before
  | some job =>
    obtain ⟨value, lower, higher, -⟩ := rerate_some (s.rerate 0) 1 (jobs.trans hj)
    rw [ratedFor_of_frame frame] at value lower higher
    have old : (s.rerate 0).reg (ADM_RATE ((1 : Fin 2) : Nat)) = s.reg (ADM_RATE 1) := before
    rw [old] at lower higher
    refine ⟨value, fun less => ⟨(lower less).1, fun kept => ?_⟩, higher⟩
    have same : (s.rerate 0).si = s.si := rerate_si s (j := 0) kept
    exact (lower less).2.from (congrArg SiSt.queues same.symm)

end

theorem rates_follow : ratesFollowTheCores := by
  intro s pend boundary rated
  obtain ⟨u, hu⟩ : ∃ u, u = s.onAdm fun a => { a with ratePend := false } := ⟨_, rfl⟩
  have run : exec .rateChange s = .next ((u.rerate 0).rerate 1).tadmUpdate := by
    refine congrArg Host.Outcome.next ?_
    dsimp only
    rw [pend, if_neg ?_, hu]
    · rfl
    · simp only [Bool.not_true, Bool.false_eq_true, false_or, decide_eq_true_eq, List.mem_cons, List.not_mem_nil, or_false,
        not_or] at boundary ⊢
      omega
  have frame := (rerate_frame u 0 (by decide)).trans (rerate_frame (u.rerate 0) 1 (by decide))
  have first := rates_first u
  have second := rates_second u
  generalize (u.rerate 0).rerate 1 = t at *
  have shown : ∀ j, j < 2 → RateShown s t j := fun j hj => by
    have both : RateShown u t j := by
      have : j = 0 ∨ j = 1 := by omega
      rcases this with rfl | rfl
      · exact first
      · exact second
    rw [hu] at both
    exact both
  refine ⟨_, run, ?_, ?_, fun j hj => shown j hj, fun off ho => ?_⟩
  · exact (congrArg AdmSt.ratePend frame.1.adm).trans (by rw [hu]; rfl)
  · exact frame.1.mem.trans (by rw [hu]; rfl)
  · exact (frame.2 off ho).trans (by rw [hu]; rfl)

/-- Settles O25: each command's case, the frame of the line clock's own state, and the two slots' rates in order. -/
theorem jobSlotsFollowTheirCommands : Obligations.JobSlotsFollowTheirCommands :=
  ⟨slotCommands_move, start_checks, rates_follow⟩

end Sys2Proof.Machine

/-!
The dose stage: the packet set in progress, epoch commits and HOLD (R9, R142, R144 to R147).
-/

namespace Sys2Proof.Machine

/-! ### A packet of the dose stage and the line clock -/

/-- The line clock and the firing stage of a state are those of another. -/
def SameFiring (s t : State) : Prop := t.lc = s.lc ∧ t.fs = s.fs

theorem SameFiring.trans {s t u : State} (h : SameFiring s t) (k : SameFiring t u) : SameFiring s u :=
  ⟨k.1.trans h.1, k.2.trans h.2⟩

theorem slewBeam_sameFiring (s : State) (b : Nat) (line : Int) (first : Bool) :
    SameFiring s (s.slewBeam b line first) := by
  unfold State.slewBeam
  dsimp only
  have latch : ∀ c : Prop, ∀ _ : Decidable c, ∀ f, SameFiring s (if c then s.onDs f else s) := by
    intro c _ f
    split <;> exact ⟨rfl, rfl⟩
  generalize hu : ite (line % 64 = 0 ∨ first = true) _ s = u
  have hs : SameFiring s u := hu ▸ latch _ _ _
  split
  · exact hs.trans ⟨rfl, rfl⟩
  · exact hs

theorem handOver_sameFiring (s : State) (p : DosePkt) : SameFiring s (s.handOver p) := by
  unfold State.handOver
  split
  · exact ⟨rfl, rfl⟩
  · split <;> exact ⟨rfl, rfl⟩

theorem handOver_regs (s : State) (p : DosePkt) : (s.handOver p).regs = s.regs := by
  unfold State.handOver
  split
  · rfl
  · split <;> rfl

theorem slewBeam_regs (s : State) (b : Nat) (line : Int) (first : Bool) : (s.slewBeam b line first).regs = s.regs := by
  unfold State.slewBeam
  dsimp only
  split <;> split <;> rfl

theorem slews_keep (s : State) (line : Int) (first : Bool) (beams : List Nat) :
    SameFiring s (beams.foldl (fun s b => s.slewBeam b line first) s) ∧
      (beams.foldl (fun s b => s.slewBeam b line first) s).regs = s.regs :=
  foldl_keeps (fun s t => SameFiring s t ∧ t.regs = s.regs) (fun _ => ⟨⟨rfl, rfl⟩, rfl⟩)
    (fun _ _ _ h k => ⟨h.1.trans k.1, k.2.trans h.2⟩) _
    (fun u b => ⟨slewBeam_sameFiring u b line first, slewBeam_regs u b line first⟩) beams s

/-- The state in which a packet is handed over, its slot's DELAY not yet shown: its beams are slewed and
its zero dots counted. -/
theorem slotPacket_shows (s : State) (p : PacketSet) (x : SetSlot) :
    ∃ u pkt, SameFiring s u ∧ u.fld (SLOT_CFG x.slot) SLOT_CFG_SFRAC = s.fld (SLOT_CFG x.slot) SLOT_CFG_SFRAC ∧
      s.slotPacket p x = (u.setFld (DS_SLOT_STAT x.slot) DS_SLOT_STAT_DELAY
        (fireDelay (u.fld (SLOT_CFG x.slot) SLOT_CFG_SFRAC) p.per)).handOver pkt := by
  unfold State.slotPacket
  extract_lets n dw first beams s1 s2 width doses zero s3
  have slewed : SameFiring s s1 ∧ s1.regs = s.regs := slews_keep s x.line first beams
  clear_value s1
  have counted : SameFiring s s3 ∧ s3.reg (SLOT_CFG x.slot) = s.reg (SLOT_CFG x.slot) := by
    have first : SameFiring s s2 := slewed.1.trans ⟨rfl, rfl⟩
    have regs : s2.reg (SLOT_CFG x.slot) = s.reg (SLOT_CFG x.slot) := reg_of_regs slewed.2 _
    have ne : SLOT_CFG x.slot ≠ DS_CNT 2 := by unfold SLOT_CFG DS_CNT; omega
    clear_value s2
    change SameFiring s (if zero = true then s2.count (DS_CNT 2) else s2) ∧
      State.reg (if zero = true then s2.count (DS_CNT 2) else s2) _ = _
    split
    · exact ⟨first.trans ⟨rfl, rfl⟩, (reg_setReg_other _ _ _ _ ne).trans regs⟩
    · exact ⟨first, regs⟩
  obtain ⟨same, cfg⟩ := counted
  clear_value s3
  refine ⟨s3.draw.2, _, same.trans ⟨rfl, rfl⟩, ?_, rfl⟩
  exact congrArg (fldGet SLOT_CFG_SFRAC) cfg

theorem fireDelay_lt {sfrac per : Nat} (h : sfrac < 2 ^ 8) (k : per < 2 ^ 24) : fireDelay sfrac per < 2 ^ 24 := by
  unfold fireDelay
  have bound : sfrac * per ≤ 255 * (2 ^ 24 - 1) := Nat.mul_le_mul (by omega) (by omega)
  omega

theorem slotPacket_delay (s : State) (p : PacketSet) (x : SetSlot) (h : p.per < 2 ^ 24) :
    (s.slotPacket p x).fld (DS_SLOT_STAT x.slot) DS_SLOT_STAT_DELAY =
      (s.fld (SLOT_CFG x.slot) SLOT_CFG_SFRAC * p.per + 128) / 256 := by
  obtain ⟨u, pkt, -, cfg, shows⟩ := slotPacket_shows s p x
  rw [shows, State.fld, reg_of_regs (handOver_regs _ _), ← State.fld, fld_setFld_same _ _ _ _ (by decide),
    cfg]
  exact Nat.mod_eq_of_lt (fireDelay_lt (fld_lt _ _ _) h)

theorem slotPacket_sameFiring (s : State) (p : PacketSet) (x : SetSlot) : SameFiring s (s.slotPacket p x) := by
  obtain ⟨u, pkt, same, -, shows⟩ := slotPacket_shows s p x
  rw [shows]
  exact (same.trans ⟨rfl, rfl⟩ : SameFiring s (u.setFld _ _ _)).trans (handOver_sameFiring _ _)

theorem slotPackets_sameFiring (s : State) (p : PacketSet) (xs : List SetSlot) :
    SameFiring s (xs.foldl (fun s x => s.slotPacket p x) s) :=
  foldl_keeps SameFiring (fun _ => ⟨rfl, rfl⟩) (fun _ _ _ h k => h.trans k) _
    (fun u x => slotPacket_sameFiring u p x) xs s

theorem packetSets_leave : packetSetsLeaveInOrder := by
  refine ⟨fun s p rest clocked sets => ?_, fun s none => ?_⟩
  · have run : exec .packetSet s = .next
        ((p.slots.foldl (fun s x => s.slotPacket p x) s).onDs fun d => { d with sets := rest }) := by
      refine congrArg Host.Outcome.next ((whenClocked_clocked s clocked).trans ?_)
      rw [sets]
    obtain ⟨lc, fs⟩ := slotPackets_sameFiring s p p.slots
    refine ⟨_, run, rfl, lc, fs, fun x one _ period => ?_⟩
    rw [one, List.foldl_cons, List.foldl_nil]
    have delay := slotPacket_delay s p x period
    generalize s.slotPacket p x = u at delay ⊢
    exact delay
  · refine congrArg Host.Outcome.next ?_
    unfold State.whenClocked
    dsimp only
    rw [none]
    exact ite_self _

/-! ### A commit -/

theorem commit_writes {s : State} (awake : s.awake BLK_DS = true)
    (idle : s.bit DS_EPOCH_STAT DS_EPOCH_STAT_BUSY = false) :
    exec .commit s = .next ((s.onDs fun d =>
      { d with building := some (s.reg64 DS_EPOCH_LN_LO DS_EPOCH_LN_HI) }).setFld DS_EPOCH_STAT DS_EPOCH_STAT_BUSY 1) := by
  refine congrArg Host.Outcome.next ((whenAwake_awake (off := DS_EPOCH_CMD) s awake).trans ?_)
  exact if_neg (by rw [idle]; decide)

theorem commit_ignored {s : State} (awake : s.awake BLK_DS = true)
    (busy : s.bit DS_EPOCH_STAT DS_EPOCH_STAT_BUSY = true) : Ignored s DS_EPOCH_CMD .commit := by
  refine Ignored.of_exec (congrArg Host.Outcome.next ((whenAwake_awake (off := DS_EPOCH_CMD) s awake).trans ?_))
  exact if_pos busy

theorem bit_setFld_set (s : State) (off : Nat) (f : Fld) (h1 : f.w = 1) (h : f.lo + 1 ≤ 32) :
    (s.setFld off f 1).bit off f = true := bit_setFld_same s off f true h1 h

theorem bit_setFld_clear (s : State) (off : Nat) (f : Fld) (h1 : f.w = 1) (h : f.lo + 1 ≤ 32) :
    (s.setFld off f 0).bit off f = false := bit_setFld_same s off f false h1 h

theorem bit_of_reg {s t : State} {off : Nat} (f : Fld) (h : t.reg off = s.reg off) : t.bit off f = s.bit off f := by
  rw [State.bit, State.bit, State.fld, State.fld, h]

theorem fld_of_reg {s t : State} {off : Nat} (f : Fld) (h : t.reg off = s.reg off) : t.fld off f = s.fld off f := by
  rw [State.fld, State.fld, h]

/-- What a refused commit shows. -/
theorem commitRefused_shows (s : State) {r : Nat} (fits : r < 4) :
    (s.commitRefused r).fld DS_EPOCH_STAT DS_EPOCH_STAT_RESULT = r ∧
    (s.commitRefused r).bit DS_EPOCH_STAT DS_EPOCH_STAT_BUSY = false ∧ (s.commitRefused r).dsActive = s.dsActive ∧
    EventSet (s.commitRefused r) BLK_DS 1 ∧
    Frame { s with ds := { s.ds with building := none } } (s.commitRefused r) [DS_EPOCH_STAT] [BLK_DS] := by
  have stat : (s.commitRefused r).reg DS_EPOCH_STAT =
      fldPut DS_EPOCH_STAT_RESULT r (fldPut DS_EPOCH_STAT_BUSY 0 (s.reg DS_EPOCH_STAT)) := by
    unfold State.commitRefused
    rw [reg_setEvt_of_notMem _ _ _ _ (by decide), reg_setFld_same, reg_setFld_same]
    rfl
  refine ⟨?_, ?_, ?_, setEvt_eventSet _ _ _ (by decide), ?_⟩
  · rw [State.fld, stat, fldGet_fldPut_same _ _ _ (by decide)]
    exact Nat.mod_eq_of_lt fits
  · rw [State.bit, State.fld, stat, fldGet_fldPut_other _ _ _ _ (by decide), fldGet_fldPut_same _ _ _ (by decide)]
    rfl
  · rw [State.dsActive, State.fld, stat, fldGet_fldPut_other _ _ _ _ (by decide), fldGet_fldPut_other _ _ _ _ (by decide)]
    rfl
  · unfold State.commitRefused
    exact (((Frame.refl _ _ _).setFld (by simp)).setFld (by simp)).setEvt (by simp)

/-! ### An accepted commit -/

/-- The dose stage is the same, and the registers but the counters of a commit and its reports. -/
def CommitKeeps (s t : State) : Prop := t.ds = s.ds ∧ RegsBut s t ([DS_CNT 0, DS_CNT 1] ++ reportRegs [BLK_DS])

theorem CommitKeeps.refl (s : State) : CommitKeeps s s := ⟨rfl, RegsBut.refl _ _⟩

theorem CommitKeeps.trans {s t u : State} (h : CommitKeeps s t) (k : CommitKeeps t u) : CommitKeeps s u :=
  ⟨k.1.trans h.1, h.2.trans k.2⟩

theorem CommitKeeps.of_frame {s t : State} (h : Frame s t [DS_CNT 0, DS_CNT 1] [BLK_DS]) : CommitKeeps s t :=
  ⟨h.1.ds, h.2⟩

theorem sendFrac_keeps (s : State) (n copy slot : Nat) : CommitKeeps s (s.sendFrac n copy slot) :=
  ⟨rfl, RegsBut.of_regs rfl _⟩

theorem sendFracs_keeps (s : State) (n copy : Nat) : CommitKeeps s (s.sendFracs n copy) := by
  unfold State.sendFracs
  split
  · exact foldl_keeps CommitKeeps CommitKeeps.refl (fun _ _ _ h k => h.trans k) _
      (fun u slot => sendFrac_keeps u n copy slot) _ s
  · exact CommitKeeps.refl s

theorem sendFracsAll_keeps (s : State) (copy : Nat) : CommitKeeps s (s.sendFracsAll copy) := by
  refine foldl_keeps CommitKeeps CommitKeeps.refl (fun _ _ _ h k => h.trans k) _ (fun u n => ?_) _ s
  dsimp only
  split
  · exact sendFracs_keeps u n copy
  · exact CommitKeeps.refl u

/-- The donations and the records that a commit drops are counted and reported. -/
theorem dropsReported_keeps (s : State) (m : Nat) (hm : m < 2) (code : BitVec 16) (bs : List Nat) :
    CommitKeeps s (bs.foldl (fun s b => (s.count (DS_CNT m)).fault code 0xFF b) s) := by
  refine foldl_keeps CommitKeeps CommitKeeps.refl (fun _ _ _ h k => h.trans k) _ (fun u b => ?_) bs s
  refine CommitKeeps.of_frame (((Frame.refl _ _ _).count ?_).fault)
  rcases m with _ | _ | _
  · simp
  · simp
  · omega

/-- Before its switch is looked at, an accepted commit has put its T and its matrices into the switch. -/
theorem commitAccepted_switches (s : State) (t : Nat) : ∃ u, s.commitAccepted t = u.switchCheck ∧
    u.ds.building = none ∧ u.ds.slots = s.ds.slots ∧
    u.ds.switch = some { target := t, msel := (List.range 8).map fun p => s.fld (PLANE_MSEL p) PLANE_MSEL_NEXT, late := [] } ∧
    RegsBut s u ([DS_CNT 0, DS_CNT 1] ++ reportRegs [BLK_DS]) := by
  unfold State.commitAccepted
  extract_lets copy
  obtain ⟨ix, drops⟩ := s.buildIndex copy
  dsimp only
  generalize hw : s.onDs _ = w
  have keeps : CommitKeeps w ((if drops.isEmpty = true then
      ix.spares.foldl (fun s b => (s.count (DS_CNT 1)).fault 0x01C1 0xFF b)
        (drops.foldl (fun s b => (s.count (DS_CNT 0)).fault 0x01C2 0xFF b) w)
      else (ix.spares.foldl (fun s b => (s.count (DS_CNT 1)).fault 0x01C1 0xFF b)
        (drops.foldl (fun s b => (s.count (DS_CNT 0)).fault 0x01C2 0xFF b) w)).setEvt BLK_DS 2).sendFracsAll copy) := by
    refine CommitKeeps.trans ?_ (sendFracsAll_keeps _ _)
    have reported := (dropsReported_keeps w 0 (by decide) 0x01C2 drops).trans
      (dropsReported_keeps _ 1 (by decide) 0x01C1 ix.spares)
    split
    · exact reported
    · exact reported.trans (CommitKeeps.of_frame ((Frame.refl _ _ _).setEvt (by simp)))
  obtain ⟨ds, regs⟩ := keeps
  refine ⟨_, rfl, ?_, ?_, ?_, RegsBut.trans (RegsBut.of_regs (by rw [← hw]; rfl) _) regs⟩
  · rw [ds, ← hw]; rfl
  · rw [ds, ← hw]; rfl
  · rw [ds, ← hw]; rfl

/-- The matrices of a switch are in force in the first `n` planes, and nothing else of the planes changed. -/
theorem matrices_inForce (s : State) (msel : List Nat) (n : Nat) :
    (∀ p, (s.each n fun p s => s.setFld (PLANE_MSEL p) PLANE_MSEL_ACTIVE (msel.getD p 0)).fld (PLANE_MSEL p)
      PLANE_MSEL_ACTIVE = if p < n then msel.getD p 0 % 8 else s.fld (PLANE_MSEL p) PLANE_MSEL_ACTIVE) ∧
    (∀ off < 0x700100, (s.each n fun p s =>
      s.setFld (PLANE_MSEL p) PLANE_MSEL_ACTIVE (msel.getD p 0)).reg off = s.reg off) ∧
    (s.each n fun p s => s.setFld (PLANE_MSEL p) PLANE_MSEL_ACTIVE (msel.getD p 0)).ds = s.ds := by
  induction n with
  | zero => exact ⟨fun p => rfl, fun _ _ => rfl, rfl⟩
  | succ n ih =>
    rw [each_succ]
    obtain ⟨planes, others, ds⟩ := ih
    generalize s.each n _ = t at *
    refine ⟨fun p => ?_, fun off below => ?_, ds⟩
    · rcases Nat.lt_trichotomy p n with lt | rfl | gt
      · rw [fld_setFld_other _ _ _ _ _ _ (by unfold PLANE_MSEL; omega), planes, if_pos lt, if_pos (by omega)]
      · rw [fld_setFld_same _ _ _ _ (by decide), if_pos (by omega)]
        rfl
      · rw [fld_setFld_other _ _ _ _ _ _ (by unfold PLANE_MSEL; omega), planes, if_neg (by omega), if_neg (by omega)]
    · rw [reg_setFld_other _ _ _ _ _ (by unfold PLANE_MSEL; omega), others off below]

/-- The switch is over, counted and reported. -/
def State.switchOver (s : State) : State :=
  ((s.onDs fun d => { d with switch := none }).count (DS_CNT 3)).setEvt BLK_DS 0

theorem switchOver_event (s : State) : EventSet s.switchOver BLK_DS 0 := setEvt_eventSet _ _ _ (by decide)

theorem switchOver_ds (s : State) : s.switchOver.ds = { s.ds with switch := none } :=
  (setEvt_quiet _ _ _).ds

theorem switchOver_reg (s : State) {off : Nat} (h : off ∉ [DS_CNT 3] ++ reportRegs [BLK_DS]) :
    s.switchOver.reg off = s.reg off := by
  have frame : Frame (s.onDs fun d => { d with switch := none }) s.switchOver [DS_CNT 3] [BLK_DS] :=
    ((Frame.refl _ _ _).count (by simp)).setEvt (by simp)
  exact (frame.2 off h).trans (reg_of_regs rfl off)

/-- What the registers show once a switch is over. -/
def State.switchShown (s : State) (msel : List Nat) : State :=
  let s := s.setFld DS_EPOCH_STAT DS_EPOCH_STAT_ACTIVE (1 - s.dsActive)
  let s := s.each 8 fun p s => s.setFld (PLANE_MSEL p) PLANE_MSEL_ACTIVE (msel.getD p 0)
  (s.setFld DS_EPOCH_STAT DS_EPOCH_STAT_BUSY 0).setFld DS_EPOCH_STAT DS_EPOCH_STAT_RESULT 1

theorem switchShown_stat (s : State) (msel : List Nat) : (s.switchShown msel).reg DS_EPOCH_STAT =
    fldPut DS_EPOCH_STAT_RESULT 1 (fldPut DS_EPOCH_STAT_BUSY 0
      (fldPut DS_EPOCH_STAT_ACTIVE (1 - s.dsActive) (s.reg DS_EPOCH_STAT))) := by
  unfold State.switchShown
  extract_lets t u
  have stat : u.reg DS_EPOCH_STAT = t.reg DS_EPOCH_STAT := (matrices_inForce t msel 8).2.1 _ (by decide)
  rw [reg_setFld_same, reg_setFld_same, stat]
  exact congrArg _ (congrArg _ (reg_setFld_same _ _ _ _))

theorem switchShown_planes (s : State) (msel : List Nat) (p : Fin 8) :
    (s.switchShown msel).fld (PLANE_MSEL p) PLANE_MSEL_ACTIVE = msel.getD p 0 % 8 := by
  unfold State.switchShown
  extract_lets t u
  have plane : u.fld (PLANE_MSEL p) PLANE_MSEL_ACTIVE = _ := (matrices_inForce t msel 8).1 p
  have ne : PLANE_MSEL p ≠ DS_EPOCH_STAT := by unfold PLANE_MSEL DS_EPOCH_STAT; omega
  rw [fld_setFld_other _ _ _ _ _ _ ne, fld_setFld_other _ _ _ _ _ _ ne, plane, if_pos p.2]

theorem switchShown_other (s : State) (msel : List Nat) {off : Nat} (below : off < 0x700100)
    (ne : off ≠ DS_EPOCH_STAT) : (s.switchShown msel).reg off = s.reg off := by
  unfold State.switchShown
  extract_lets t u
  have other : u.reg off = t.reg off := (matrices_inForce t msel 8).2.1 off below
  rw [reg_setFld_other _ _ _ _ _ ne, reg_setFld_other _ _ _ _ _ ne, other]
  exact reg_setFld_other _ _ _ _ _ ne

theorem switchShown_ds (s : State) (msel : List Nat) : (s.switchShown msel).ds = s.ds := by
  unfold State.switchShown
  extract_lets t u
  have ds : u.ds = t.ds := (matrices_inForce t msel 8).2.2
  rw [setFld_ds, setFld_ds, ds]
  exact setFld_ds _ _ _ _

theorem switchDone_eq (s : State) (w : EpochSwitch) : s.switchDone w = (s.switchShown w.msel).switchOver :=
  rfl

theorem switchDone_line (s : State) (w : EpochSwitch) :
    (s.switchDone w).reg64 DS_EPOCH_LN_LO DS_EPOCH_LN_HI = s.reg64 DS_EPOCH_LN_LO DS_EPOCH_LN_HI := by
  rw [switchDone_eq, State.reg64, State.reg64, switchOver_reg _ (by decide), switchOver_reg _ (by decide),
    switchShown_other _ _ (by decide) (by decide), switchShown_other _ _ (by decide) (by decide)]

/-- What the end of a switch shows. -/
theorem switchDone_shows (s : State) (w : EpochSwitch) :
    (s.switchDone w).dsActive = 1 - s.dsActive ∧ (s.switchDone w).bit DS_EPOCH_STAT DS_EPOCH_STAT_BUSY = false ∧
    (s.switchDone w).fld DS_EPOCH_STAT DS_EPOCH_STAT_RESULT = 1 ∧ (s.switchDone w).ds = { s.ds with switch := none } ∧
    EventSet (s.switchDone w) BLK_DS 0 ∧
    (∀ p : Fin 8, (s.switchDone w).fld (PLANE_MSEL p) PLANE_MSEL_ACTIVE = w.msel.getD p 0 % 8) := by
  have stat := switchShown_stat s w.msel
  have planes := switchShown_planes s w.msel
  have ds := switchShown_ds s w.msel
  rw [switchDone_eq]
  generalize s.switchShown w.msel = u at *
  have shown := (switchOver_reg u (by decide)).trans stat
  refine ⟨?_, ?_, ?_, (switchOver_ds u).trans (by rw [ds]), switchOver_event u, fun p => ?_⟩
  · rw [State.dsActive, State.fld, shown, fldGet_fldPut_other _ _ _ _ (by decide),
      fldGet_fldPut_other _ _ _ _ (by decide), fldGet_fldPut_same _ _ _ (by decide)]
    exact Nat.mod_eq_of_lt (by change _ < 2; omega)
  · rw [State.bit, State.fld, shown, fldGet_fldPut_other _ _ _ _ (by decide), fldGet_fldPut_same _ _ _ (by decide)]
    rfl
  · rw [State.fld, shown, fldGet_fldPut_same _ _ _ (by decide)]
    rfl
  · have notMem : ∀ p : Fin 8, PLANE_MSEL p ∉ [DS_CNT 3] ++ reportRegs [BLK_DS] := by decide
    exact (fld_of_reg _ (switchOver_reg u (notMem p))).trans (planes p)

/-- No slot that reads lines has read T. -/
def State.unread (s : State) (t : Nat) : Prop :=
  ∀ n ∈ s.readingSlots, ∀ y, (s.slotAtOf n).last = some y → y < (t : Int)

theorem unread_of_highest {s : State} {t : Nat} (h : ∀ y, s.highestRead = some y → y < (t : Int)) : s.unread t := by
  intro n hn y hy
  have mem : y ∈ s.readingSlots.filterMap fun n => (s.slotAtOf n).last := List.mem_filterMap.2 ⟨n, hn, hy⟩
  cases hm : s.highestRead with
  | none => 
    rw [State.highestRead, List.max?_eq_none_iff] at hm
    rw [hm] at mem
    cases mem
  | some m => 
    have le : y ≤ m := (List.max?_eq_some_iff.1 hm).2 y mem
    exact le.trans_lt (h m hm)

theorem readingSlots_of_slots {s t : State} (h : t.ds.slots = s.ds.slots) : t.readingSlots = s.readingSlots := by
  unfold State.readingSlots State.slotAtOf
  rw [h]

theorem switchCheck_ends {s : State} {w : EpochSwitch} (h : s.ds.switch = some w) (none : s.readingSlots = []) :
    s.switchCheck = s.switchDone w := by
  unfold State.switchCheck
  rw [h]
  dsimp only
  rw [none]
  rfl

theorem switchCheck_waits {s : State} {w : EpochSwitch} (h : s.ds.switch = some w) (some : s.readingSlots ≠ [])
    (unread : s.unread w.target) : s.switchCheck = s := by
  unfold State.switchCheck
  rw [h]
  dsimp only
  refine if_neg ?_
  rw [Bool.or_eq_true, not_or]
  refine ⟨by simpa using some, ?_⟩
  rw [Bool.not_eq_true, List.any_eq_false]
  intro n hn
  have below := unread n hn
  cases hl : (s.slotAtOf n).last with
  | none => simp
  | some y => 
    have := below y hl
    simp
    omega

/-- An accepted commit has taken effect in `t` where no slot reads, and waits for T where one does. -/
def SwitchFollows (s t : State) (T : Nat) : Prop :=
  (s.readingSlots = [] →
    t.dsActive = 1 - s.dsActive ∧ t.bit DS_EPOCH_STAT DS_EPOCH_STAT_BUSY = false ∧
    t.fld DS_EPOCH_STAT DS_EPOCH_STAT_RESULT = 1 ∧ t.ds.switch = none ∧ EventSet t BLK_DS 0 ∧
    ∀ p : Fin 8, t.fld (PLANE_MSEL p) PLANE_MSEL_ACTIVE = s.fld (PLANE_MSEL p) PLANE_MSEL_NEXT) ∧
  (s.readingSlots ≠ [] →
    t.dsActive = s.dsActive ∧
    t.bit DS_EPOCH_STAT DS_EPOCH_STAT_BUSY = s.bit DS_EPOCH_STAT DS_EPOCH_STAT_BUSY ∧
    ∃ w, t.ds.switch = some w ∧ w.target = T)

/-- An accepted commit of a T that no slot has read. -/
theorem commitAccepted_shows (s : State) (t : Nat) (unread : s.unread t) :
    (s.commitAccepted t).ds.building = none ∧
    (s.commitAccepted t).reg64 DS_EPOCH_LN_LO DS_EPOCH_LN_HI = s.reg64 DS_EPOCH_LN_LO DS_EPOCH_LN_HI ∧
    SwitchFollows s (s.commitAccepted t) t := by
  obtain ⟨u, checks, building, slots, switch, regs⟩ := commitAccepted_switches s t
  have reading := readingSlots_of_slots slots
  have unread' : u.unread t := by
    intro n hn y hy
    rw [reading] at hn
    exact unread n hn y (by rw [State.slotAtOf, ← slots]; exact hy)
  have stat : u.reg DS_EPOCH_STAT = s.reg DS_EPOCH_STAT := regs _ (by decide)
  have line : u.reg64 DS_EPOCH_LN_LO DS_EPOCH_LN_HI = s.reg64 DS_EPOCH_LN_LO DS_EPOCH_LN_HI := by
    rw [State.reg64, State.reg64, regs _ (by decide), regs _ (by decide)]
  rw [checks]
  clear checks slots
  by_cases none : s.readingSlots = []
  · have ends := switchCheck_ends switch (reading.trans none)
    obtain ⟨active, busy, result, ds, event, planes⟩ := switchDone_shows u _
    have doneLine := switchDone_line u { target := t, msel := (List.range 8).map fun p => s.fld (PLANE_MSEL p) PLANE_MSEL_NEXT, late := [] }
    rw [ends]
    generalize u.switchDone _ = v at *
    refine ⟨by rw [ds]; exact building, doneLine.trans line, fun _ =>
      ⟨active.trans (congrArg (1 - ·) (fld_of_reg _ stat)), busy, result, by rw [ds], event, fun p => ?_⟩,
      fun h => absurd none h⟩
    rw [planes]
    have lt : s.fld (PLANE_MSEL p) PLANE_MSEL_NEXT < 2 ^ 3 := fld_lt _ _ _
    simp only [List.getD_eq_getElem?_getD, List.getElem?_map, List.getElem?_range p.2, Option.map_some, Option.getD_some]
    exact Nat.mod_eq_of_lt lt
  · have waits := switchCheck_waits switch (fun h => none (reading.symm.trans h)) unread'
    rw [waits]
    exact ⟨building, line, fun h => absurd h none, fun _ =>
      ⟨fld_of_reg _ stat, bit_of_reg _ stat, _, switch, rfl⟩⟩

/-! ### RECEIVER_INDEX_BUILT and HOLD -/

theorem reg64_setReg64 (s : State) (lo hi x : Nat) (ne : lo ≠ hi) : (s.setReg64 lo hi x).reg64 lo hi = x % 2 ^ 64 := by
  unfold State.reg64 State.setReg64
  rw [reg_setReg_same, reg_setReg_other _ _ _ _ ne, reg_setReg_same, BitVec.toNat_ofNat, BitVec.toNat_ofNat]
  omega

theorem indexBuilt_run {s : State} {target : Nat} (clocked : s.clocked BLK_DS = true)
    (building : s.ds.building = some target) : exec .receiverIndexBuilt s = .next
      (if target % 64 ≠ 0 then s.commitRefused 3
      else if target = 0 then
        match s.highestRead with
        | none => s.commitAccepted 0
        | some y =>
          let t' := if y < 0 then 0 else 64 * (y.toNat / 64 + 1)
          (s.setReg64 DS_EPOCH_LN_LO DS_EPOCH_LN_HI t').commitAccepted t'
      else match s.highestRead with
        | some y => if (target : Int) ≤ y then s.commitRefused 2 else s.commitAccepted target
        | none => s.commitAccepted target) := by
  change execReceiverIndexBuilt s = _
  unfold execReceiverIndexBuilt
  rw [whenClocked_clocked s clocked, building] <;> rfl

/-- Where T = 0, a commit is accepted with the first multiple of 64 above every line read. -/
theorem indexBuilt_first {s : State} (clocked : s.clocked BLK_DS = true) (building : s.ds.building = some 0) {y : Int}
    (high : s.highestRead = some y) {T : Nat} (lineT : T = if y < 0 then 0 else 64 * (y.toNat / 64 + 1)) :
    ∃ t, exec .receiverIndexBuilt s = .next t ∧ t.ds.building = none ∧
      t.reg64 DS_EPOCH_LN_LO DS_EPOCH_LN_HI = T % 2 ^ 64 ∧ SwitchFollows s t T := by
  have run := indexBuilt_run clocked building
  rw [if_neg (by decide), if_pos rfl, high] at run
  dsimp only at run
  rw [← lineT] at run
  have above : y < (T : Int) := by
    rw [lineT]
    split <;> omega
  clear lineT
  obtain ⟨u, hu⟩ : ∃ u, s.setReg64 DS_EPOCH_LN_LO DS_EPOCH_LN_HI T = u := ⟨_, rfl⟩
  have other : ∀ off, off ≠ DS_EPOCH_LN_LO → off ≠ DS_EPOCH_LN_HI → u.reg off = s.reg off := fun off lo hi => by
    rw [← hu, State.setReg64, reg_setReg_other _ _ _ _ hi, reg_setReg_other _ _ _ _ lo]
  have line : u.reg64 DS_EPOCH_LN_LO DS_EPOCH_LN_HI = T % 2 ^ 64 := hu ▸ reg64_setReg64 _ _ _ _ (by decide)
  have reading : u.readingSlots = s.readingSlots := readingSlots_of_slots (by rw [← hu, setReg64_ds])
  have highU : u.highestRead = some y := by rw [← hu]; exact high
  have stat := other DS_EPOCH_STAT (by decide) (by decide)
  rw [hu] at run
  obtain ⟨ended, lineU, done, waits⟩ := commitAccepted_shows u T (unread_of_highest fun z hz => by
    rw [highU] at hz
    cases hz
    exact above)
  rw [reading] at done waits
  refine ⟨_, run, ended, lineU.trans line, fun none => ?_, fun some => ?_⟩
  · obtain ⟨active, busy, result, ends, event, planes⟩ := done none
    refine ⟨active.trans (congrArg (1 - ·) (fld_of_reg _ stat)), busy, result, ends, event, fun p => ?_⟩
    exact (planes p).trans (fld_of_reg _ (other _ (by unfold PLANE_MSEL DS_EPOCH_LN_LO; omega)
      (by unfold PLANE_MSEL DS_EPOCH_LN_HI; omega)))
  · obtain ⟨active, busy, switch⟩ := waits some
    exact ⟨active.trans (fld_of_reg _ stat), busy.trans (bit_of_reg _ stat), switch⟩

/-- A T that no slot has read is accepted. -/
theorem indexBuilt_named {s : State} {target : Nat} (clocked : s.clocked BLK_DS = true)
    (building : s.ds.building = some target) (even : target % 64 = 0)
    (unread : ∀ y, s.highestRead = some y → y < (target : Int)) (free : target = 0 → s.highestRead = none) :
    exec .receiverIndexBuilt s = .next (s.commitAccepted target) := by
  rw [indexBuilt_run clocked building, if_neg (not_not.2 even)]
  by_cases zero : target = 0
  · rw [if_pos zero, free zero, zero]
  · rw [if_neg zero]
    cases high : s.highestRead with
    | none => rfl
    | some y => exact congrArg _ (if_neg (by have := unread y high; omega))

theorem epochCommits_checked : epochCommitsAreChecked := by
  intro s
  refine ⟨asleep_of_whenAwake rfl, fun awake => ⟨commit_ignored awake, fun idle => ?_⟩, fun target clocked building => ?_,
    fun none => ?_⟩
  · refine ⟨_, commit_writes awake idle, rfl, bit_setFld_set _ _ _ rfl (by decide), rfl,
      RegsBut.setFld (RegsBut.of_regs rfl _) (by simp)⟩
  · have run := indexBuilt_run clocked building
    intro refused
    refine ⟨fun odd => ?_, fun y even some high low => ?_, ?_⟩
    · rw [if_pos odd] at run
      exact ⟨_, run, commitRefused_shows s (by decide)⟩
    · rw [if_neg (not_not.2 even), if_neg some, high] at run
      dsimp only at run
      rw [if_pos low] at run
      exact ⟨_, run, commitRefused_shows s (by decide)⟩
    · intro T even free
      by_cases zero : target = 0
      · have line : T = match s.highestRead with
            | some y => if y < 0 then 0 else 64 * (y.toNat / 64 + 1)
            | none => 0 := if_neg (not_not.2 zero)
        cases high : s.highestRead with
        | none =>
          rw [high] at line
          obtain ⟨ended, -, follows⟩ := commitAccepted_shows s target (unread_of_highest (by rw [high]; nofun))
          refine ⟨_, indexBuilt_named clocked building even (by rw [high]; nofun) (fun _ => high), ended,
            fun _ h => absurd rfl h, ?_⟩
          exact (line.trans zero.symm : T = target) ▸ follows
        | some y =>
          rw [high] at line
          obtain ⟨t, taken, ended, read, follows⟩ := indexBuilt_first clocked (zero ▸ building) high line
          exact ⟨t, taken, ended, fun _ _ => read, follows⟩
      · have unread := free.resolve_left zero
        have line : T = target := if_pos zero
        obtain ⟨ended, -, follows⟩ := commitAccepted_shows s target (unread_of_highest unread)
        refine ⟨_, indexBuilt_named clocked building even unread (fun h => absurd h zero), ended,
          fun h => absurd h zero, ?_⟩
        rwa [line]
  · refine congrArg Host.Outcome.next ?_
    unfold State.whenClocked
    dsimp only
    rw [none]
    exact ite_self _

theorem hold_sets : holdSetsItsBit := by
  intro s on
  refine ⟨asleep_of_whenAwake rfl, fun awake => ?_⟩
  have run : exec (.hold on) s = .next (s.holdSet on) :=
    congrArg Host.Outcome.next (whenAwake_awake (off := DS_CTRL) s awake)
  have set : (s.setFld DS_CTRL DS_CTRL_HOLD (b2n on)).bit DS_CTRL DS_CTRL_HOLD = on :=
    bit_setFld_same _ _ _ _ rfl (by decide)
  have held : (s.setFld DS_CTRL DS_CTRL_HOLD (b2n on)).fld DS_CTRL DS_CTRL_HOLDING = s.fld DS_CTRL DS_CTRL_HOLDING :=
    fld_setFld_field _ _ _ _ _ (by decide)
  cases on with
  | true => exact ⟨_, run, set, nofun, fun _ => held, rfl, (RegsBut.refl s _).setFld (by simp)⟩
  | false =>
    refine ⟨_, run, ?_, fun _ => bit_setFld_clear _ _ _ rfl (by decide), nofun, rfl,
      ((RegsBut.refl s _).setFld (by simp)).setFld (by simp)⟩
    exact (congrArg (· != 0) (fld_setFld_field _ _ _ _ _ (by decide))).trans set

/-- Settles O28: a packet's set leaves with its DELAY, a commit is checked and takes effect, and HOLD sets its bit. -/
theorem doseSetsAndEpochs : Obligations.DoseSetsAndEpochs := ⟨packetSets_leave, epochCommits_checked, hold_sets⟩

end Sys2Proof.Machine

/-!
The camera receiver: packets, headers, lines and their triggers (R208, R210 to R214).
-/

namespace Sys2Proof.Machine

/-! ### One camera port -/

section
variable {s t : State} {n : Nat} {l : List Nat}

@[simp] theorem portAt_onPort (s : State) (n : Nat) (f : PortSt → PortSt) : (s.onPort n f).portAt n = f (s.portAt n) :=
  Tbl.get_set_same _ _ _ _

theorem portAt_onPort_other (s : State) {n m : Nat} (f : PortSt → PortSt) (h : m ≠ n) :
    (s.onPort n f).portAt m = s.portAt m := Tbl.get_set_other _ _ _ _ _ _ h

theorem portAt_of_cxr (h : t.cxr = s.cxr) (n : Nat) : t.portAt n = s.portAt n := by
  unfold State.portAt
  rw [h]

theorem portOnly_refl (s : State) (n : Nat) (l : List Nat) : portOnly s s n l := ⟨rfl, RegsBut.refl _ _, fun _ _ => rfl⟩

theorem portOnly_onPort {f : PortSt → PortSt} (h : portOnly s t n l) : portOnly s (t.onPort n f) n l := by
  obtain ⟨same, regs, ports⟩ := h
  refine ⟨?_, regs, fun m hm => (portAt_onPort_other t f hm).trans (ports m hm)⟩
  rw [same]
  rfl

theorem portOnly_setReg {off : Nat} {v : Word} (h : portOnly s t n l) (ho : off ∈ l) : portOnly s (t.setReg off v) n l := by
  obtain ⟨same, regs, ports⟩ := h
  refine ⟨?_, regs.setReg ho, ports⟩
  rw [same]
  rfl

theorem portOnly_setFld {off x : Nat} {f : Fld} (h : portOnly s t n l) (ho : off ∈ l) : portOnly s (t.setFld off f x) n l :=
  portOnly_setReg h ho

end

/-! ### Packets and headers -/

theorem camReceives_not {s : State} {n : Nat} (receives : s.camReceives n = true) : ¬ (!s.camReceives n) = true := by
  rw [receives]
  decide

theorem closeShort_none {s : State} {n : Nat} (none : (s.portAt n).frame = .none) : s.closeShort n = s := by
  unfold State.closeShort
  rw [none]

theorem camCnt_notMem_nil (n : Fin 12) (k : Nat) (hk : k < 12) : CAM_CNT n k ∉ reportRegs [] :=
  notMem_reportRegs_nil (by unfold CAM_CNT; omega)

theorem camCnt_notMem (n : Fin 12) (k : Nat) (hk : k < 12) : CAM_CNT n k ∉ reportRegs [BLK_CXR] :=
  notMem_reportRegs_one (b := BLK_CXR) 0xB00020 rfl (by unfold CAM_CNT; omega)

/-- A packet with a wrong CRC. -/
theorem streamPacket_spoils {s : State} {n : Fin 12} {pkt : StreamPacket} (receives : s.camReceives n = true)
    (wrong : pkt.crcOk = false) :
    ∃ t, exec (.streamPacket n pkt) s = .next t ∧
      (t.portAt n).spoiled = ((s.portAt n).spoiled || !pkt.samples.isEmpty) ∧
      (t.portAt n).ahead = addAhead pkt.later false (s.portAt n).ahead ∧
      (t.portAt n).samples = (s.portAt n).samples ∧
      t.reg (CAM_CNT n 5) = satInc (s.reg (CAM_CNT n 5)) ∧
      Frame { s with cxr := t.cxr } t [CAM_CNT n 5] [] ∧
      ((s.countEvent (winKey 0x12C3 n) 8 ticksSec).1 = false → Reported s t 0x12C3 (BitVec.ofNat 8 n) 0) := by
  obtain ⟨u, hu⟩ : ∃ u, (s.onPort n fun p => { p with
    spoiled := p.spoiled || !pkt.samples.isEmpty, ahead := addAhead pkt.later false p.ahead }).count (CAM_CNT n 5) = u :=
    ⟨_, rfl⟩
  have port : u.portAt n = { s.portAt n with
      spoiled := (s.portAt n).spoiled || !pkt.samples.isEmpty, ahead := addAhead pkt.later false (s.portAt n).ahead } := by
    rw [← hu]
    exact portAt_onPort s n _
  have counted : u.reg (CAM_CNT n 5) = satInc (s.reg (CAM_CNT n 5)) := by
    rw [← hu]
    exact reg_setReg_same _ _ _
  have frame : Frame { s with cxr := u.cxr } u [CAM_CNT n 5] [] := by
    rw [← hu]
    exact (Frame.refl _ _ _).count (by simp)
  have si : u.si = s.si ∧ u.now = s.now := by rw [← hu]; exact ⟨rfl, rfl⟩
  have run : exec (.streamPacket n pkt) s = .next (
      if (u.faultCounted 0x12C3 n 0 8 ticksSec).1 = true then (u.faultCounted 0x12C3 n 0 8 ticksSec).2.fault 0x22C5 n
      else (u.faultCounted 0x12C3 n 0 8 ticksSec).2) := by
    rw [← hu]
    refine congrArg Host.Outcome.next ((if_neg (camReceives_not receives)).trans ?_)
    rw [if_pos (by rw [wrong]; rfl)]
  have same : (u.faultCounted 0x12C3 n 0 8 ticksSec).1 = (s.countEvent (winKey 0x12C3 n) 8 ticksSec).1 := by
    unfold State.faultCounted State.countEvent
    rw [si.1, si.2]
  have first : Frame u (u.faultCounted 0x12C3 n 0 8 ticksSec).2 [] [] := (Frame.refl _ _ _).faultCounted
  have reported := faultCounted_reported u 0x12C3 n 0 8 ticksSec
  rw [same] at run
  generalize (u.faultCounted 0x12C3 n 0 8 ticksSec).2 = v at *
  obtain ⟨w, hw⟩ : ∃ w, (if (s.countEvent (winKey 0x12C3 n) 8 ticksSec).1 = true then v.fault 0x22C5 n else v) = w :=
    ⟨_, rfl⟩
  have rest : Frame u w [] [] ∧
      ((s.countEvent (winKey 0x12C3 n) 8 ticksSec).1 = false → Reported s w 0x12C3 (BitVec.ofNat 8 n) 0) := by
    rw [← hw]
    split
    · next made => exact ⟨first.fault, fun h => absurd (made.symm.trans h) (by decide)⟩
    · exact ⟨first, fun _ => reported.from (by rw [si.1])⟩
  obtain ⟨keeps, reports⟩ := rest
  have cxr : w.cxr = u.cxr := keeps.1.cxr
  have portW : w.portAt n = u.portAt n := portAt_of_cxr cxr n
  refine ⟨w, hw ▸ run, ?_, ?_, ?_, ?_, ?_, reports⟩
  · rw [portW, port]
  · rw [portW, port]
  · rw [portW, port]
  · rw [keeps.2 _ (by rw [List.nil_append]; exact camCnt_notMem_nil n 5 (by decide)), counted]
  · rw [cxr]
    exact frame.trans (keeps.mono (by simp) (by simp))

/-- A header where no frame is open. -/
theorem imageHeader_run {s : State} {n : Fin 12} (fmt : BitVec 3) (receives : s.camReceives n = true)
    (none : (s.portAt n).frame = .none) : exec (.imageHeader n fmt) s = .next (
      if fmt.toNat = s.camFmt n then (s.setFld (CAM_STAT n) CAM_STAT_STATE 2).onPort n fun p =>
        { p with frame := .lines 0 false, samples := [], spoiled := false, noSlot := false, ahead := [] }
      else (((s.setFld (CAM_STAT n) CAM_STAT_STATE 2).onPort n fun p =>
        { p with frame := .dropped, samples := [], spoiled := false, noSlot := false, ahead := [] }).count
          (CAM_CNT n 2)).fault 0x02C2 n) := by
  have fmt' : (s.setFld (CAM_STAT n) CAM_STAT_STATE 2).camFmt n = s.camFmt n :=
    fld_setFld_other _ _ _ _ _ _ (by unfold CAM_CFG CAM_STAT; omega)
  refine congrArg Host.Outcome.next ((if_neg (camReceives_not receives)).trans ?_)
  rw [closeShort_none none]
  dsimp only
  rw [fmt']

theorem packetsAndHeaders : cameraPacketsAndHeaders := by
  intro s n pkt fmt
  refine ⟨fun receives => ⟨fun right image => ?_, fun right other => ?_, streamPacket_spoils receives,
    fun none same => ?_, fun none differs => ?_⟩, fun deaf => ?_, ?_⟩
  · refine ⟨_, congrArg Host.Outcome.next ((if_neg (camReceives_not receives)).trans ((if_neg ?_).trans (if_neg ?_))),
      portOnly_onPort (portOnly_refl _ _ _), ?_⟩
    · rw [right]; decide
    · rw [image]; decide
    · rw [portAt_onPort]
      exact ⟨rfl, rfl, rfl, rfl⟩
  · refine ⟨_, congrArg Host.Outcome.next ((if_neg (camReceives_not receives)).trans ((if_neg ?_).trans (if_pos ?_))),
      reg_setReg_same _ _ _, rfl, (RegsBut.refl _ _).count (by simp)⟩
    · rw [right]; decide
    · rw [other]; rfl
  · have run := imageHeader_run fmt receives none
    rw [if_pos same] at run
    refine ⟨_, run, ?_, ?_, ?_, ?_, portOnly_onPort (portOnly_setFld (portOnly_refl _ _ _) (by simp))⟩
    · rw [portAt_onPort]
    · rw [portAt_onPort]
    · rw [portAt_onPort]
    · exact fld_setFld_same _ _ _ _ (by decide)
  · have run := imageHeader_run fmt receives none
    rw [if_neg differs] at run
    obtain ⟨u, hu⟩ : ∃ u, (s.setFld (CAM_STAT n) CAM_STAT_STATE 2).onPort n (fun p =>
      { p with frame := .dropped, samples := [], spoiled := false, noSlot := false, ahead := [] }) = u := ⟨_, rfl⟩
    have frame : (u.portAt n).frame = .dropped := by rw [← hu, portAt_onPort]
    have cnt : u.reg (CAM_CNT n 2) = s.reg (CAM_CNT n 2) := by
      rw [← hu]
      exact reg_setFld_other _ _ _ _ _ (by unfold CAM_CNT CAM_STAT; omega)
    have si : u.si = s.si := by rw [← hu]; rfl
    rw [hu] at run
    refine ⟨_, run, ?_, ?_, fault_reportedFrom _ _ _ (by rw [State.count, setReg_si, si])⟩
    · rw [portAt_of_cxr (fault_quiet _ _ _ _).cxr, State.count, portAt_of_cxr (setReg_cxr _ _ _), frame]
    · rw [reg_fault _ _ _ _ _ (camCnt_notMem_nil n 2 (by decide)), State.count, reg_setReg_same, cnt]
  · have none : (!s.camReceives n) = true := by rw [deaf]; rfl
    exact ⟨congrArg Host.Outcome.next (if_pos none), congrArg Host.Outcome.next (if_pos none)⟩
  · exact ⟨_, rfl, portOnly_onPort (portOnly_refl _ _ _), by rw [portAt_onPort]⟩

/-! ### Entries that become unverified -/

/-- The entries of a queue that the test meets are unverified. -/
def unverified (test : CamEntry → Bool) (reason : Nat) (queue : List CamEntry) : List CamEntry :=
  queue.map fun e => if decide (e.state = .pending) && test e then { e with state := .unverified reason } else e

theorem unverified_none {test : CamEntry → Bool} (reason : Nat) {queue : List CamEntry}
    (h : ∀ e ∈ queue, test e = false) : unverified test reason queue = queue := by
  unfold unverified
  refine (List.map_congr_left fun e he => ?_).trans (List.map_id queue)
  rw [h e he, Bool.and_false]
  rfl

section
variable (s : State) (n : Fin 12) (test : CamEntry → Bool) (reason : Nat)

/-- Only the port has changed, but for the counter and the event of unverified entries. -/
theorem unverify_leaves : Frame (s.onPort n fun p => { p with queue := unverified test reason p.queue })
    (s.unverify n test reason) [CAM_CNT n 6] [BLK_CXR] ∧ (s.unverify n test reason).si = s.si := by
  unfold State.unverify
  dsimp only
  split
  · exact ⟨Frame.refl _ _ _, rfl⟩
  · refine ⟨((Frame.refl _ _ _).setReg (by simp)).setEvt (by simp), ?_⟩
    rw [setEvt_si]
    rfl

theorem unverify_none (h : ∀ e ∈ (s.portAt n).queue, test e = false) :
    s.unverify n test reason = s.onPort n fun p => { p with queue := unverified test reason p.queue } := by
  unfold State.unverify
  dsimp only
  refine if_pos ?_
  rw [List.length_eq_zero_iff, List.filter_eq_nil_iff]
  intro e he
  rw [h e he, Bool.and_false]
  decide

theorem portAt_unverify : (s.unverify n test reason).portAt n =
    { s.portAt n with queue := unverified test reason (s.portAt n).queue } := by
  rw [portAt_of_cxr (unverify_leaves s n test reason).1.1.cxr, portAt_onPort]

end

/-- R213: the pending entries whose age has passed LATMAX. -/
def State.tooOld (s : State) (n : Nat) (e : CamEntry) : Bool :=
  decide (s.fld (CAM_LAT n) CAM_LAT_LATMAX + 1 ≤ s.now - e.tick)

theorem ageEntries_eq (s : State) (n : Nat) : s.ageEntries n = s.unverify n (s.tooOld n) 2 := rfl

theorem entryAged_ages (s : State) (n : Fin 12) :
    ∃ t, exec (.entryAged n) s = .next t ∧ t.mem = s.mem ∧
      (∀ e ∈ (t.portAt n).queue, e.state = .pending → s.now - e.tick ≤ s.fld (CAM_LAT n) CAM_LAT_LATMAX) ∧
      (t.portAt n).queue.length = (s.portAt n).queue.length := by
  refine ⟨_, rfl, (unverify_leaves s n (s.tooOld n) 2).1.1.mem, fun e he => ?_, ?_⟩
  · rw [ageEntries_eq, portAt_unverify] at he
    obtain ⟨x, -, rfl⟩ := List.mem_map.1 he
    split
    · intro h
      cases h
    · next keeps =>
      intro pending
      rw [pending] at keeps
      have young : ¬ s.fld (CAM_LAT n) CAM_LAT_LATMAX + 1 ≤ s.now - x.tick := by
        simpa [State.tooOld] using keeps
      omega
  · rw [ageEntries_eq, portAt_unverify]
    exact List.length_map _

/-! ### A line received -/

theorem portAt_lineDone (s : State) (n : Nat) (f : FrameSt) : ((s.lineDone n f).portAt n).frame = f ∧
    ((s.lineDone n f).portAt n).samples = ((s.portAt n).ahead.headD ([], false)).1 ∧
    ((s.lineDone n f).portAt n).queue = (s.portAt n).queue := by
  unfold State.lineDone
  dsimp only
  rw [portAt_onPort]
  exact ⟨rfl, rfl, rfl⟩

/-- A line marker takes the samples of the line. -/
theorem lineReceived_run {s : State} {n : Fin 12} (receives : s.camReceives n = true)
    (some : (s.portAt n).samples ≠ []) (streamEnd : Bool) : exec (.lineReceived n streamEnd) s = .next (
      if streamEnd = true then ((s.receiveLine n).closeShort n).lineDone n .none else s.receiveLine n) := by
  refine congrArg Host.Outcome.next ((if_neg (camReceives_not receives)).trans ?_)
  have taken : ((s.portAt n).samples.isEmpty && !(s.portAt n).spoiled) ≠ true := by
    intro h
    rw [Bool.and_eq_true, List.isEmpty_iff] at h
    exact some h.1
  dsimp only
  rw [if_neg taken]

/-- The frame of a camera register that ageing leaves. -/
theorem fld_ageEntries (s : State) (n : Fin 12) {off : Nat} (f : Fld) (h : off ∉ [CAM_CNT n 6] ++ reportRegs [BLK_CXR]) :
    (s.ageEntries n).fld off f = s.fld off f :=
  fld_of_reg f ((unverify_leaves s n (s.tooOld n) 2).1.2 off h)

theorem camGeom_notMem (n : Fin 12) : CAM_GEOM n ∉ [CAM_CNT n 6] ++ reportRegs [BLK_CXR] := by
  rw [List.mem_append, List.mem_singleton, not_or]
  exact ⟨by unfold CAM_GEOM CAM_CNT; omega,
    notMem_reportRegs_one (b := BLK_CXR) 0xB00020 rfl (by unfold CAM_GEOM; omega)⟩

theorem camCnt_notAged (n : Fin 12) {k : Nat} (hk : k < 12) (ne : k ≠ 6) :
    CAM_CNT n k ∉ [CAM_CNT n 6] ++ reportRegs [BLK_CXR] := by
  rw [List.mem_append, List.mem_singleton, not_or]
  exact ⟨by unfold CAM_CNT; omega, camCnt_notMem n k hk⟩

theorem camFh_ageEntries (s : State) (n : Fin 12) : (s.ageEntries n).camFh n = s.camFh n :=
  congrArg (· + 1) (fld_ageEntries s n _ (camGeom_notMem n))

theorem portAt_ageEntries (s : State) (n : Fin 12) : (s.ageEntries n).portAt n =
    { s.portAt n with queue := unverified (s.tooOld n) 2 (s.portAt n).queue } := portAt_unverify s n (s.tooOld n) 2

/-- A line past the frame's height. -/
theorem receiveLine_excess {s : State} {n : Fin 12} {k : Nat} (frame : (s.portAt n).frame = .lines k true)
    (past : s.camFh n ≤ k) : s.receiveLine n =
      (((s.ageEntries n).lineDone n .dropped).count (CAM_CNT n 3)).fault 0x02C2 n := by
  unfold State.receiveLine
  have height := camFh_ageEntries s n
  have port := portAt_ageEntries s n
  generalize s.ageEntries n = u at *
  dsimp only
  rw [port]
  dsimp only
  rw [frame]
  dsimp only
  rw [if_pos (by rwa [height])]

/-- A line of a synchronised frame that finds no entry. -/
theorem receiveLine_lost {s : State} {n : Fin 12} {k : Nat} (frame : (s.portAt n).frame = .lines k true)
    (within : k < s.camFh n) (whole : (s.portAt n).spoiled = false) (stored : (s.portAt n).noSlot = false)
    (empty : (s.portAt n).queue = []) : s.receiveLine n =
      (((s.ageEntries n).count (CAM_CNT n 7)).lineDone n .dropped).fault 0x12C6 n := by
  unfold State.receiveLine
  have height := camFh_ageEntries s n
  have port : (s.ageEntries n).portAt n = { s.portAt n with queue := [] } := by
    rw [portAt_ageEntries, empty]
    rfl
  generalize s.ageEntries n = u at *
  dsimp only
  rw [port]
  dsimp only
  rw [frame]
  dsimp only
  rw [if_neg (by rw [height]; omega), whole, stored, if_neg (by decide), if_neg (by decide)]
  dsimp only [List.filter_nil, List.head?_nil, Option.filter_none]
  rw [if_pos rfl]
  dsimp only
  rw [if_pos rfl]

/-- The counter of a port, its line gone and a fault reported. -/
theorem lineCounted_shows {s u : State} {n : Fin 12} {k : Nat} (hk : k < 12) {code : BitVec 16}
    (si : u.si = s.si) (mem : u.mem = s.mem) (frame : (u.portAt n).frame = .dropped)
    (cnt : u.reg (CAM_CNT n k) = satInc (s.reg (CAM_CNT n k))) :
    ((u.fault code n).portAt n).frame = .dropped ∧ (u.fault code n).reg (CAM_CNT n k) = satInc (s.reg (CAM_CNT n k)) ∧
      Reported s (u.fault code n) code (BitVec.ofNat 8 n) 0 ∧ (u.fault code n).mem = s.mem := by
  refine ⟨?_, ?_, fault_reportedFrom _ _ _ (by rw [si]), (fault_quiet _ _ _ _).mem.trans mem⟩
  · rw [portAt_of_cxr (fault_quiet _ _ _ _).cxr, frame]
  · rw [reg_fault _ _ _ _ _ (camCnt_notMem_nil n k hk), cnt]

theorem lineDone_regs (s : State) (n : Nat) (f : FrameSt) : (s.lineDone n f).regs = s.regs := rfl
theorem lineDone_si (s : State) (n : Nat) (f : FrameSt) : (s.lineDone n f).si = s.si := rfl
theorem lineDone_mem (s : State) (n : Nat) (f : FrameSt) : (s.lineDone n f).mem = s.mem := rfl

/-- The port, the registers, memory and the time are the same. -/
def SamePort (s u : State) (n : Nat) : Prop :=
  u.portAt n = s.portAt n ∧ u.regs = s.regs ∧ u.mem = s.mem ∧ u.now = s.now

theorem SamePort.trans {s t u : State} {n : Nat} (h : SamePort s t n) (k : SamePort t u n) : SamePort s u n := by
  obtain ⟨h1, h2, h3, h4⟩ := h
  obtain ⟨k1, k2, k3, k4⟩ := k
  exact ⟨k1.trans h1, k2.trans h2, k3.trans h3, k4.trans h4⟩

theorem fld_of_regs {s t : State} (h : t.regs = s.regs) (off : Nat) (f : Fld) : t.fld off f = s.fld off f :=
  fld_of_reg f (reg_of_regs h off)

theorem unverify_same (s : State) (n : Fin 12) {test : CamEntry → Bool} (reason : Nat)
    (h : ∀ e ∈ (s.portAt n).queue, test e = false) : SamePort s (s.unverify n test reason) n := by
  refine ⟨?_, ?_, ?_, ?_⟩
  · rw [portAt_unverify, unverified_none reason h]
  · rw [unverify_none s n test reason h, onPort_regs]
  · rw [unverify_none s n test reason h, onPort_mem]
  · rw [unverify_none s n test reason h, onPort_now]

theorem camLb_of_regs {s t : State} (h : t.regs = s.regs) (n : Nat) : t.camLb n = s.camLb n := by
  unfold State.camLb State.camW State.camFmt
  rw [fld_of_regs h, fld_of_regs h]

theorem freeSlot_of_same {s u : State} {n : Nat} (h : SamePort s u n) : u.freeSlot n = s.freeSlot n := by
  obtain ⟨port, regs, -⟩ := h
  have lines : u.camLines n = s.camLines n := by
    unfold State.camLines State.bit
    rw [camLb_of_regs regs, fld_of_regs regs]
  unfold State.freeSlot
  rw [port, lines]

theorem fmtCh_pos (f : Nat) : 0 < fmtCh f := by
  unfold fmtCh
  split <;> decide

/-- A line of the port's width, stored for the first entry of the queue. -/
theorem storeLine_whole {s : State} {n : Nat} {e : CamEntry} {rest : List CamEntry} {slot : Nat}
    (queue : (s.portAt n).queue = e :: rest) (once : e ∉ rest)
    (width : (s.portAt n).samples.length = s.camW n * fmtCh (s.camFmt n)) :
    (s.storeLine n e slot).portAt n =
      { s.portAt n with queue := { e with state := .received slot (s.camW n) } :: rest } ∧
    (s.storeLine n e slot).regs = s.regs ∧
    MemBut s (s.storeLine n e slot) (CAM_BUF n + slot * s.camLb n) (s.camLb n) := by
  unfold State.storeLine
  extract_lets c w xs px pad line line' s1 s2
  have length : xs.length = w * c := (List.length_map _).trans width
  have pixels : px = w := by
    change xs.length / c = w
    rw [length]
    exact Nat.mul_div_cancel _ (fmtCh_pos _)
  have padded : pad = s.camW n := by
    change min px w = w
    rw [pixels, min_self]
  rw [if_neg (by rw [pixels]; exact lt_irrefl _), if_neg (by rw [length]; exact lt_irrefl _)]
  have bytes : (packSamples (fmtStored (s.camFmt n)) line' (s.camLb n)).length = s.camLb n := leBytes_length _ _
  refine ⟨?_, rfl, fun x hx => ?_⟩
  · change (s1.onPort n _).portAt n = _
    have port : s1.portAt n = s.portAt n := rfl
    rw [portAt_onPort, padded, port]
    rw [queue, List.map_cons, if_pos rfl]
    have others : rest.map (fun x => if x = e then { x with state := .received slot (s.camW n) } else x) = rest :=
      (List.map_congr_left fun x hx => if_neg (ne_of_mem_of_not_mem hx once)).trans (List.map_id rest)
    rw [others]
  · have out := memByte_store_out s.mem (CAM_BUF n + slot * s.camLb n)
      (packSamples (fmtStored (s.camFmt n)) line' (s.camLb n)) x (by rwa [bytes])
    exact out

/-- A line of a synchronised frame that the oldest entry waits for. -/
theorem receiveLine_matched {s : State} {n : Fin 12} {k slot : Nat} {e : CamEntry} {rest : List CamEntry}
    (frame : (s.portAt n).frame = .lines k true) (within : k < s.camFh n) (whole : (s.portAt n).spoiled = false)
    (stored : (s.portAt n).noSlot = false) (queue : (s.portAt n).queue = e :: rest) (pending : e.state = .pending)
    (young : s.fld (CAM_LAT n) CAM_LAT_LATMIN ≤ s.now - e.tick)
    (old : s.now - e.tick ≤ s.fld (CAM_LAT n) CAM_LAT_LATMAX) (free : s.freeSlot n = some slot)
    (oldest : ∀ x ∈ rest, e.tick ≤ x.tick) :
    ∃ v, SamePort s v n ∧ s.receiveLine n = (v.storeLine n e slot).lineDone n (.lines (k + 1) true) := by
  have aged : SamePort s (s.ageEntries n) n := by
    refine unverify_same s n 2 fun x hx => ?_
    rw [queue] at hx
    have later : e.tick ≤ x.tick := by
      rcases List.mem_cons.1 hx with rfl | hx
      · exact le_refl _
      · exact oldest x hx
    exact decide_eq_false (by omega)
  unfold State.receiveLine
  generalize s.ageEntries n = u at *
  have slots := freeSlot_of_same aged
  obtain ⟨port, regs, mem, now⟩ := aged
  have height : u.camFh n = s.camFh n := congrArg (· + 1) (fld_of_regs regs _ _)
  have first : SamePort u (u.unverify n (fun x => decide (x.tick < e.tick)) 2) n := by
    refine unverify_same u n 2 fun x hx => ?_
    rw [port, queue] at hx
    refine decide_eq_false (Nat.not_lt.2 ?_)
    rcases List.mem_cons.1 hx with rfl | hx
    · exact le_refl _
    · exact oldest x hx
  have same : SamePort s (u.unverify n (fun x => decide (x.tick < e.tick)) 2) n :=
    SamePort.trans ⟨port, regs, mem, now⟩ first
  refine ⟨_, same, ?_⟩
  dsimp only
  have found : Option.filter (fun e : CamEntry => decide (u.fld (CAM_LAT n) CAM_LAT_LATMIN ≤ u.now - e.tick) &&
      decide (u.now - e.tick ≤ u.fld (CAM_LAT n) CAM_LAT_LATMAX))
      (List.filter (fun e => decide (e.state = .pending)) (e :: rest)).head? = some e := by
    rw [List.filter_cons_of_pos (by rw [pending]; rfl), List.head?_cons, Option.filter_some]
    refine if_pos ?_
    rw [fld_of_regs regs, fld_of_regs regs, now, decide_eq_true young, decide_eq_true old]
    rfl
  rw [port, frame]
  dsimp only
  rw [if_neg (by rw [height]; omega), whole, stored, if_neg (by decide), if_neg (by decide), if_pos rfl, queue, found,
    slots, free]

theorem linesMatched : linesAreMatchedToTriggers := by
  intro s n k receives some whole
  have run := lineReceived_run receives some false
  rw [if_neg (by decide)] at run
  obtain ⟨aged, agedSi⟩ := unverify_leaves s n (s.tooOld n) 2
  rw [← ageEntries_eq] at aged agedSi
  have agedMem : (s.ageEntries n).mem = s.mem := aged.1.mem
  have agedCnt : ∀ k < 12, k ≠ 6 → (s.ageEntries n).reg (CAM_CNT n k) = s.reg (CAM_CNT n k) := fun k hk ne =>
    aged.2 _ (camCnt_notAged n hk ne)
  refine ⟨?_, fun frame within stored empty => ?_, fun frame past => ?_, ?_, entryAged_ages s n⟩
  · intro e rest slot frame within stored queue pending once young old free oldest width
    obtain ⟨v, ⟨port, regs, mem, -⟩, received⟩ :=
      receiveLine_matched frame within whole stored queue pending young old free oldest
    rw [received] at run
    have fmt : v.camFmt n = s.camFmt n := fld_of_regs regs _ _
    have wide : v.camW n = s.camW n := congrArg (· + 1) (fld_of_regs regs _ _)
    obtain ⟨stores, kept, others⟩ := storeLine_whole (slot := slot) (port ▸ queue) once (by rw [port, width, fmt, wide])
    obtain ⟨f1, f2, f3⟩ := portAt_lineDone (v.storeLine n e slot) n (.lines (k + 1) true)
    refine ⟨_, run, f1, ?_, ?_, kept.trans regs, fun x hx => ?_⟩
    · rw [f2, stores, port]
    · rw [f3, stores, wide]
    · rw [lineDone_mem, others x (by rwa [camLb_of_regs regs]), mem]
  · rw [receiveLine_lost frame within whole stored empty] at run
    generalize s.ageEntries n = u at *
    refine ⟨_, run, lineCounted_shows (by decide) ?_ ?_ (portAt_lineDone _ _ _).1 ?_⟩
    · rw [lineDone_si, State.count, setReg_si, agedSi]
    · rw [lineDone_mem, State.count, setReg_mem, agedMem]
    · rw [reg_of_regs (lineDone_regs _ _ _), State.count, reg_setReg_same, agedCnt 7 (by decide) (by decide)]
  · rw [receiveLine_excess frame past] at run
    generalize s.ageEntries n = u at *
    refine ⟨_, run, lineCounted_shows (by decide) ?_ ?_ ?_ ?_⟩
    · rw [State.count, setReg_si, lineDone_si, agedSi]
    · rw [State.count, setReg_mem, lineDone_mem, agedMem]
    · rw [State.count, portAt_of_cxr (setReg_cxr _ _ _), (portAt_lineDone _ _ _).1]
    · rw [State.count, reg_setReg_same, reg_of_regs (lineDone_regs _ _ _), agedCnt 3 (by decide) (by decide)]
  · have ends := lineReceived_run receives some true
    rw [if_pos rfl] at ends
    exact ⟨_, ends, (portAt_lineDone _ _ _).1⟩

/-- Settles O34: what a port receives, and how a line meets its trigger. -/
theorem cameraLinesAreReceived : Obligations.CameraLinesAreReceived := ⟨packetsAndHeaders, linesMatched⟩

end Sys2Proof.Machine

/-!
The timebase: its writes, the reads that latch, wake sources, compares and pulses (R383 to R392, R457).
-/

namespace Sys2Proof.Machine

/-! ### Registers written by their access types -/

/-- A field is what its bits are. -/
theorem fldGet_congr {f : Fld} {v w : Word} (h : ∀ i < f.w, v.getLsbD (f.lo + i) = w.getLsbD (f.lo + i)) :
    fldGet f v = fldGet f w := by
  unfold fldGet
  refine Nat.eq_of_testBit_eq fun i => ?_
  rw [Nat.testBit_mod_two_pow, Nat.testBit_mod_two_pow, Nat.testBit_div_two_pow, Nat.testBit_div_two_pow]
  by_cases lt : i < f.w
  · have same := h i lt
    rw [BitVec.getLsbD, BitVec.getLsbD] at same
    rw [Nat.add_comm i, same]
  · rw [decide_eq_false lt]
    rfl

/-- The word that a register holds after a write of `v` to its RW bits. -/
def merged (rw old v : Word) : Word := (old &&& ~~~rw) ||| (v &&& rw)

theorem getLsbD_merged (rw old v : Word) (i : Nat) (h : i < 32) :
    (merged rw old v).getLsbD i = if rw.getLsbD i then v.getLsbD i else old.getLsbD i := by
  unfold merged
  simp only [BitVec.getLsbD_or, BitVec.getLsbD_and, BitVec.getLsbD_not, h, decide_true, Bool.true_and]
  cases rw.getLsbD i <;> simp

/-- A register of RW bits alone. -/
theorem typedWrite_plain (s : State) {off : Nat} {d : RegDef} (v : Word) (hd : regDef? off = some d) (rwl : d.rwl = 0#32)
    (w1c : d.w1c = 0#32) : s.typedWrite off v = s.setReg off (merged d.rw (s.reg off) v) := by
  have all : ~~~(v &&& 0#32 &&& ~~~(s.top.fresh.get 0 off)) = BitVec.allOnes 32 := by
    rw [BitVec.and_zero, BitVec.zero_and]
    rfl
  have mask : (if s.bit PROT_LOCK PROT_LOCK_LOCK = true then d.rw else d.rw ||| 0#32) = d.rw := by
    split
    · rfl
    · exact BitVec.or_zero
  unfold State.typedWrite
  rw [hd]
  dsimp only
  rw [rwl, w1c, all, mask, BitVec.and_allOnes, BitVec.and_zero, BitVec.and_zero]
  refine if_neg ?_
  simp

theorem merged_allOnes (old v : Word) : merged 0xFFFFFFFF old v = v := by
  refine BitVec.eq_of_getLsbD_eq fun i hi => ?_
  rw [getLsbD_merged _ _ _ i hi, if_pos]
  rw [show (0xFFFFFFFF : Word) = BitVec.allOnes 32 from rfl, BitVec.getLsbD_allOnes]
  exact decide_eq_true hi

/-! ### The writes of the timebase -/

theorem regDef_TB_INC_NS : ∃ d, regDef? TB_INC_NS = some d ∧ d.rw = 0xFF ∧ d.rwl = 0 ∧ d.w1c = 0 := by decide
theorem regDef_TB_SET_SHI : ∃ d, regDef? TB_SET_SHI = some d ∧ d.rw = 0xFFFF ∧ d.rwl = 0 ∧ d.w1c = 0 := by decide
theorem regDef_TB_ADJ_HI : ∃ d, regDef? TB_ADJ_HI = some d ∧ d.rw = 0xFFFFFFFF ∧ d.rwl = 0 ∧ d.w1c = 0 := by decide

section
variable {s t : State} {l : List Nat}

theorem tbOnly_refl (s : State) (l : List Nat) : tbOnly s s l := Frame.refl _ _ _

theorem tbOnly_trans {u : State} (h : tbOnly s t l) (k : tbOnly t u l) : tbOnly s u l := by
  obtain ⟨same, regs⟩ := h
  obtain ⟨same', regs'⟩ := k
  refine ⟨?_, fun off ho => (regs' off ho).trans (regs off ho)⟩
  unfold Quiet at *
  rw [same', same]

theorem tbOnly_of_frame {u : State} (h : tbOnly s t l) (k : Frame t u l [BLK_TB]) : tbOnly s u l := by
  refine tbOnly_trans h ?_
  unfold tbOnly
  rw [k.1.tb]
  exact k

theorem tbOnly_onTb (s : State) (f : TbSt → TbSt) (l : List Nat) : tbOnly s (s.onTb f) l := ⟨rfl, fun _ _ => rfl⟩

theorem tbOnly_setReg {off : Nat} {v : Word} (h : tbOnly s t l) (ho : off ∈ l) : tbOnly s (t.setReg off v) l :=
  Frame.setReg h ho

theorem tbOnly_setFld {off x : Nat} {f : Fld} (h : tbOnly s t l) (ho : off ∈ l) : tbOnly s (t.setFld off f x) l :=
  Frame.setFld h ho

end

/-- The timebase with a cross-stamp of this instant. -/
def State.crossTaken (s : State) : TbSt :=
  { s.tb with xsFr := s.tb.fr, xsFlat := s.flat, xsCyc := (List.range 4).map fun k => (s.ccAt k).cycle.toNat % 2 ^ 32 }

/-- A cross-stamp. -/
theorem stampCross_stamps (s : State) {cause : Nat} (fits : cause < 4) :
    crossStamped s (s.stampCross cause) cause ∧ tbOnly s (s.stampCross cause) [TB_XS_STAT] ∧
      (s.stampCross cause).tb = s.crossTaken := by
  obtain ⟨u, hu⟩ : ∃ u, s.onTb (fun _ => s.crossTaken) = u := ⟨_, rfl⟩
  have base : tbOnly s u [TB_XS_STAT] := hu ▸ tbOnly_onTb s _ _
  have tb : u.tb = s.crossTaken := by rw [← hu]; rfl
  have stat : u.reg TB_XS_STAT = s.reg TB_XS_STAT := by rw [← hu]; rfl
  have stamps : s.stampCross cause = (((u.setFld TB_XS_STAT TB_XS_STAT_SEQ (u.fld TB_XS_STAT TB_XS_STAT_SEQ + 1)).setFld
      TB_XS_STAT TB_XS_STAT_CAUSE cause).setEvt BLK_TB 1) := by rw [← hu]; rfl
  rw [stamps]
  clear stamps hu
  obtain ⟨w, hw⟩ : ∃ w, (u.setFld TB_XS_STAT TB_XS_STAT_SEQ (u.fld TB_XS_STAT TB_XS_STAT_SEQ + 1)).setFld
      TB_XS_STAT TB_XS_STAT_CAUSE cause = w := ⟨_, rfl⟩
  have shown : w.reg TB_XS_STAT = fldPut TB_XS_STAT_CAUSE cause (fldPut TB_XS_STAT_SEQ
      (s.fld TB_XS_STAT TB_XS_STAT_SEQ + 1) (s.reg TB_XS_STAT)) := by
    rw [← hw, reg_setFld_same, reg_setFld_same, stat, fld_of_reg _ stat]
  have only : tbOnly s w [TB_XS_STAT] := hw ▸ tbOnly_setFld (tbOnly_setFld base (by simp)) (by simp)
  have tbw : w.tb = u.tb := by rw [← hw, setFld_tb, setFld_tb]
  rw [hw]
  clear hw base
  have tbv : (w.setEvt BLK_TB 1).tb = u.tb := (setEvt_quiet _ _ _).tb.trans tbw
  have event : EventSet (w.setEvt BLK_TB 1) BLK_TB 1 := setEvt_eventSet _ _ _ (by decide)
  have same : (w.setEvt BLK_TB 1).reg TB_XS_STAT = w.reg TB_XS_STAT := reg_setEvt_of_notMem _ _ _ _ (by decide)
  have frame : tbOnly s (w.setEvt BLK_TB 1) [TB_XS_STAT] := tbOnly_of_frame only ((Frame.refl _ _ _).setEvt (by simp))
  generalize w.setEvt BLK_TB 1 = v at *
  rw [shown] at same
  rw [tb] at tbv
  refine ⟨⟨by rw [tbv]; rfl, by rw [tbv]; rfl, fun k hk => ?_, ?_, ?_, event⟩, frame, tbv⟩
  · rw [tbv, State.crossTaken]
    simp only [List.getD_eq_getElem?_getD, List.getElem?_map, List.getElem?_range hk, Option.map_some, Option.getD_some]
  · rw [State.fld, same, fldGet_fldPut_same _ _ _ (by decide)]
    exact Nat.mod_eq_of_lt fits
  · rw [State.fld, same, fldGet_fldPut_other _ _ _ _ (by decide), fldGet_fldPut_same _ _ _ (by decide)]

/-- A cross-stamp is one of every state with the same time, the same cores and the same status. -/
theorem crossStamped_from {s u t : State} {cause : Nat} (h : crossStamped u t cause) (flat : u.flat = s.flat)
    (cc : u.cc = s.cc) (stat : u.reg TB_XS_STAT = s.reg TB_XS_STAT) : crossStamped s t cause := by
  obtain ⟨fr, xsFlat, cyc, by_, seq, event⟩ := h
  refine ⟨fr, xsFlat.trans flat, fun k hk => (cyc k hk).trans ?_, by_, seq.trans ?_, event⟩
  · rw [State.ccAt, State.ccAt, cc]
  · rw [fld_of_reg _ stat]

theorem fldGet_merged {rw_ old v : Word} {f : Fld} (fits : f.lo + f.w ≤ 32)
    (writes : ∀ i < f.w, rw_.getLsbD (f.lo + i) = true) : fldGet f (merged rw_ old v) = fldGet f v :=
  fldGet_congr fun i hi => by rw [getLsbD_merged _ _ _ _ (by omega), if_pos (writes i hi)]

/-- The write of the increment. -/
theorem incWrite_loads (s : State) (v : Word) :
    ∃ t, exec (.tbIncNsWrite v) s = .next t ∧ crossStamped s t 2 ∧
      t.tb.inc = fldGet TB_INC_NS_NS v * 2 ^ 32 + (s.reg TB_INC_FRAC).toNat ∧ tbOnly s t [TB_INC_NS, TB_XS_STAT] := by
  obtain ⟨d, hd, rw_, rwl, w1c⟩ := regDef_TB_INC_NS
  have run : exec (.tbIncNsWrite v) s = .next (s.tbIncWrite v) := rfl
  unfold State.tbIncWrite at run
  rw [typedWrite_plain s v hd rwl w1c, rw_] at run
  dsimp only at run
  obtain ⟨u, hu⟩ : ∃ u, s.setReg TB_INC_NS (merged 0xFF (s.reg TB_INC_NS) v) = u := ⟨_, rfl⟩
  rw [hu] at run
  have ns : u.fld TB_INC_NS TB_INC_NS_NS = fldGet TB_INC_NS_NS v := by
    rw [← hu, State.fld, reg_setReg_same]
    exact fldGet_merged (by decide) (by decide)
  have frac : u.reg TB_INC_FRAC = s.reg TB_INC_FRAC := by
    rw [← hu]
    exact reg_setReg_other _ _ _ _ (by decide)
  have stat : u.reg TB_XS_STAT = s.reg TB_XS_STAT := by
    rw [← hu]
    exact reg_setReg_other _ _ _ _ (by decide)
  have only : tbOnly s u [TB_INC_NS, TB_XS_STAT] := hu ▸ tbOnly_setReg (tbOnly_refl _ _) (by simp)
  have flat : u.flat = s.flat := by rw [← hu]; rfl
  have cc : u.cc = s.cc := by rw [← hu]; rfl
  rw [ns, frac] at run
  clear hu
  obtain ⟨w, hw⟩ : ∃ w, (u.onTb fun t => { t with inc := fldGet TB_INC_NS_NS v * 2 ^ 32 + (s.reg TB_INC_FRAC).toNat }) = w :=
    ⟨_, rfl⟩
  rw [hw] at run
  obtain ⟨stamped, keeps, tb⟩ := stampCross_stamps w (cause := 2) (by decide)
  refine ⟨_, run, crossStamped_from stamped ?_ ?_ ?_, ?_, ?_⟩
  · rw [← hw]; exact flat
  · rw [← hw]; exact cc
  · rw [← hw]; exact stat
  · rw [tb, ← hw]; rfl
  · refine tbOnly_trans (tbOnly_trans only ?_) (Frame.mono keeps (by simp) (by simp))
    rw [← hw]
    exact tbOnly_onTb _ _ _

theorem tbSet_orders (s : State) (v : Word) :
    ∃ t, exec (.tbSet v) s = .next t ∧ t.tb = { s.tb with
        set := some ((s.reg TB_SET_SLO).toNat + fldGet TB_SET_SHI_VALUE v * 2 ^ 32,
          min 999999999 (s.reg TB_SET_NS).toNat) } ∧ tbOnly s t [TB_SET_SHI] := by
  obtain ⟨d, hd, rw_, rwl, w1c⟩ := regDef_TB_SET_SHI
  have run : exec (.tbSet v) s = .next (s.tbSetWrite v) := rfl
  unfold State.tbSetWrite at run
  rw [typedWrite_plain s v hd rwl w1c, rw_] at run
  dsimp only at run
  have high : (s.setReg TB_SET_SHI (merged 0xFFFF (s.reg TB_SET_SHI) v)).fld TB_SET_SHI TB_SET_SHI_VALUE =
      fldGet TB_SET_SHI_VALUE v := by
    rw [State.fld, reg_setReg_same]
    exact fldGet_merged (by decide) (by decide)
  rw [high, reg_setReg_other _ _ _ _ (by decide), reg_setReg_other _ _ _ _ (by decide)] at run
  exact ⟨_, run, rfl, tbOnly_trans (tbOnly_setReg (tbOnly_refl s _) (by simp)) (tbOnly_onTb _ _ _)⟩

theorem tbAdj_orders (s : State) (v : Word) :
    ∃ t d, exec (.tbAdj v) s = .next t ∧
      d % 2 ^ 64 = (((s.reg TB_ADJ_LO).toNat + v.toNat * 2 ^ 32 : Nat) : Int) % 2 ^ 64 ∧ -2 ^ 63 ≤ d ∧
      d < 2 ^ 63 ∧ t.tb = { s.tb with adj := some (s.tb.adj.getD 0 + d) } ∧ tbOnly s t [TB_ADJ_HI] := by
  obtain ⟨d, hd, rw_, rwl, w1c⟩ := regDef_TB_ADJ_HI
  have run : exec (.tbAdj v) s = .next (s.tbAdjWrite v) := rfl
  unfold State.tbAdjWrite at run
  rw [typedWrite_plain s v hd rwl w1c, rw_, merged_allOnes] at run
  dsimp only at run
  have both : (s.setReg TB_ADJ_HI v).reg64 TB_ADJ_LO TB_ADJ_HI = (s.reg TB_ADJ_LO).toNat + v.toNat * 2 ^ 32 := by
    rw [State.reg64, reg_setReg_same, reg_setReg_other _ _ _ _ (by decide)]
  rw [both] at run
  have lo := (s.reg TB_ADJ_LO).isLt
  have hi := v.isLt
  refine ⟨_, sext 64 ((s.reg TB_ADJ_LO).toNat + v.toNat * 2 ^ 32), run, ?_, ?_, ?_, rfl,
    tbOnly_trans (tbOnly_setReg (tbOnly_refl s _) (by simp)) (tbOnly_onTb _ _ _)⟩
  all_goals
    unfold sext
    split <;> omega

theorem crossStamp_due (s : State) (due : s.tb.xsNext ≤ s.now) :
    ∃ t, exec .crossStamp s = .next t ∧ crossStamped s t 0 ∧ t.tb.xsNext = s.now + 131072 ∧ tbOnly s t [TB_XS_STAT] := by
  have run : exec .crossStamp s = .next ((s.onTb fun t => { t with xsNext := s.now + 131072 }).stampCross 0) :=
    congrArg Host.Outcome.next (if_pos due)
  obtain ⟨w, hw⟩ : ∃ w, (s.onTb fun t => { t with xsNext := s.now + 131072 }) = w := ⟨_, rfl⟩
  rw [hw] at run
  obtain ⟨stamped, keeps, tb⟩ := stampCross_stamps w (cause := 0) (by decide)
  refine ⟨_, run, crossStamped_from stamped ?_ ?_ ?_, ?_, tbOnly_trans ?_ keeps⟩
  · rw [← hw]; rfl
  · rw [← hw]; rfl
  · rw [← hw]; rfl
  · rw [tb, ← hw]; rfl
  · rw [← hw]; exact tbOnly_onTb _ _ _

/-- A time put into the timebase at the beginning of a tick. -/
def TbSt.ticked (t : TbSt) (x : Nat) : TbSt := { t.put x with cmpNew := [] }

/-- The units of a time put are those of the number, within the range of the seconds. -/
theorem units_ticked (t : TbSt) (x : Nat) : (t.ticked x).units = x % (2 ^ 48 * 1000000000 * 2 ^ 32) := by
  unfold TbSt.units TbSt.ticked TbSt.put
  dsimp only
  omega

theorem ticked_ns (t : TbSt) (x : Nat) : (t.ticked x).ns < 1000000000 := Nat.mod_lt _ (by decide)
theorem ticked_set (t : TbSt) (x : Nat) : (t.ticked x).set = t.set := rfl
theorem ticked_adj (t : TbSt) (x : Nat) : (t.ticked x).adj = t.adj := rfl

/-- Where no step is due, the tick adds the increment. -/
theorem tbAdvance_ticked {s : State} (noSet : s.tb.set = none) (noAdj : s.tb.adj = none) :
    s.tbAdvance = s.onTb fun t => t.ticked (t.units + t.inc) := by
  obtain ⟨u, hu⟩ : ∃ u, (s.onTb fun t => t.ticked (t.units + t.inc)) = u := ⟨_, rfl⟩
  have set : u.tb.set = none := by rw [← hu, onTb_tb, ticked_set, noSet]
  have adj : u.tb.adj = none := by rw [← hu, onTb_tb, ticked_adj, noAdj]
  rw [hu]
  unfold TbSt.ticked at hu
  unfold State.tbAdvance
  rw [hu]
  dsimp only
  rw [set, adj]

theorem advance_adds (s : State) (noSet : s.tb.set = none) (noAdj : s.tb.adj = none) :
    s.tbAdvance.tb.units = (s.tb.units + s.tb.inc) % (2 ^ 48 * 1000000000 * 2 ^ 32) ∧
    s.tbAdvance.tb.ns < 1000000000 ∧ s.tbAdvance.regs = s.regs := by
  rw [tbAdvance_ticked noSet noAdj]
  rw [onTb_tb, units_ticked]
  exact ⟨rfl, ticked_ns _ _, onTb_regs _ _⟩

theorem timeSet : timeIsSetAdjustedAndStamped := by
  refine ⟨fun s v => ⟨incWrite_loads s v, tbSet_orders s v, tbAdj_orders s v, fun go => ?_, fun still => ?_,
    crossStamp_due s, fun early => ?_⟩, fun s set adj _ _ => advance_adds s set adj⟩
  · obtain ⟨stamped, keeps, -⟩ := stampCross_stamps s (cause := 1) (by decide)
    exact ⟨_, congrArg Host.Outcome.next (if_pos go), stamped, keeps⟩
  · exact congrArg Host.Outcome.next (if_neg (by rw [still]; decide))
  · exact congrArg Host.Outcome.next (if_neg (by omega))

/-! ### Reads that latch -/

theorem busGrant_onTop (s : State) (m : Master) : s.busGrant m = { s with top := (s.busGrant m).top } := by
  unfold State.busGrant
  split <;> rfl

/-- A register whose read latches others: what the read makes of the state. -/
structure ReadLatches (off : Nat) (value : State → Nat) (regs : List Nat) (rest : State → State → Prop)
    (latch : State → State) : Prop where
  def_ : ∃ d, regDef? off = some d ∧ d.base = off
  awake : ∀ u : State, u.awake (off / 0x100000) = true
  notSem : off ≠ SEM 0
  refresh : ∀ (u : State) (d : RegDef), d.base = off → u.refresh d off = latch u
  plain : off ≠ AX_STAT 0 ∧ off ≠ CV_VALUE 0 ∧ off ≠ CV_RESULT 0 ∧ off ≠ CV_EXPECT 0
  only : ∀ u, latch u = { u with regs := (latch u).regs }
  regsBut : ∀ u, RegsBut u (latch u) regs
  shows : ∀ (s : State) (top : TopSt), (latch { s with top := top }).reg off = BitVec.ofNat 32 (value s)
  latched : ∀ (s : State) (top top' : TopSt), rest s { latch { s with top := top } with top := top' }

theorem readBy_permitted {s : State} {m : Master} {off : Nat} (h : s.permits m (regAddr off) false = true) :
    s.readBy m off = (((s.answerWith 0).busGrant m).readReg m off).2.answerWith
      (((s.answerWith 0).busGrant m).readReg m off).1 := by
  have permitted : (s.answerWith 0).permits m (regAddr off) false = true := h
  unfold State.readBy State.readBack
  rw [regGuard_permitted _ permitted]

theorem readBy_denied {s : State} {m : Master} {off : Nat} (h : s.permits m (regAddr off) false = false) :
    s.readBy m off = (s.answerWith 0).denied m (regAddr off) := by
  have denied : (s.answerWith 0).permits m (regAddr off) false = false := h
  unfold State.readBy State.readBack
  rw [regGuard_denied _ denied]

theorem latches_of_refresh {i : Master → Instr} {off : Nat} {value : State → Nat} {regs : List Nat}
    {rest : State → State → Prop} {latch : State → State} (h : ReadLatches off value regs rest latch)
    (exec_ : ∀ m s, exec (i m) s = .next (s.readBy m off)) : latches i off value regs rest := by
  intro s m
  obtain ⟨d, hd, base⟩ := h.def_
  obtain ⟨ax, cv1, cv2, cv3⟩ := h.plain
  have read : ∀ u : State, u.readReg m off = ((latch u).reg off, latch u) := fun u => by
    unfold State.readReg
    rw [hd]
    dsimp only
    rw [h.awake u, if_neg (by decide), base, if_neg h.notSem, h.refresh u d base]
    unfold State.shown
    dsimp only
    rw [base, decide_eq_false ax, Bool.false_and, if_neg (by decide), if_neg (by simp [cv1, cv2, cv3])]
  refine ⟨fun permitted => ?_, fun denied => ?_⟩
  · have run : exec (i m) s = .next ((latch ((s.answerWith 0).busGrant m)).answerWith
        ((latch ((s.answerWith 0).busGrant m)).reg off)) := by
      rw [exec_, readBy_permitted permitted, read]
    have grants := (answerWith_busGrant s m 0).trans (congrArg (·.answerWith 0) (busGrant_onTop s m))
    rw [grants] at run
    have only := h.only { s with top := { (s.busGrant m).top with answer := 0 } }
    have regsBut := h.regsBut { s with top := { (s.busGrant m).top with answer := 0 } }
    have shows := h.shows s { (s.busGrant m).top with answer := 0 }
    have latched := h.latched s { (s.busGrant m).top with answer := 0 }
    change exec (i m) s = .next ((latch { s with top := { (s.busGrant m).top with answer := 0 } }).answerWith
      ((latch { s with top := { (s.busGrant m).top with answer := 0 } }).reg off)) at run
    clear grants read
    generalize (s.busGrant m).top = g at *
    generalize latch { s with top := { g with answer := 0 } } = w at *
    refine ⟨_, run, shows, latched _, ?_, fun o ho => regsBut o ho⟩
    generalize w.reg off = v
    clear run shows latched regsBut
    obtain ⟨r, hr⟩ : ∃ r, w = { s with top := { g with answer := 0 }, regs := r } := ⟨_, only⟩
    rw [hr]
    rfl
  · have run : exec (i m) s = .next ((s.answerWith 0).denied m (regAddr off)) := by
      rw [exec_, readBy_denied denied]
    have frame := denied_frame (s.answerWith 0) m (regAddr off)
    exact ⟨_, run, frame.1.answer, frame⟩

/-- A register after a write of some register. -/
theorem reg_setReg_ite (s : State) (off o : Nat) (v : Word) : (s.setReg off v).reg o = if o = off then v else s.reg o := by
  split
  · next h => rw [h, reg_setReg_same]
  · next h => exact reg_setReg_other _ _ _ _ h

theorem flat_of_tb {s t : State} (h : t.tb = s.tb) : t.flat = s.flat :=
  congrArg (fun b : TbSt => (b.sec * 1000000000 + b.ns) % 2 ^ 64) h

theorem latchNow_shows (s : State) (flat : Bool) :
    (s.latchNow flat).reg (if flat then TB_FLAT_LO else TB_NOW_FRAC) = BitVec.ofNat 32 (if flat then s.flat else s.tb.fr) ∧
    (s.latchNow flat).reg TB_NOW_NS = BitVec.ofNat 32 s.tb.ns ∧
    (s.latchNow flat).reg TB_NOW_SLO = BitVec.ofNat 32 s.tb.sec ∧
    (s.latchNow flat).reg TB_NOW_SHI = BitVec.ofNat 32 (s.tb.sec / 2 ^ 32) ∧
    (s.latchNow flat).reg TB_FLAT_HI = BitVec.ofNat 32 (s.flat / 2 ^ 32) := by
  unfold State.latchNow
  extract_lets w s1 s2
  have tb1 : s1.tb = s.tb := by cases flat <;> rfl
  have shows : s1.reg (if flat then TB_FLAT_LO else TB_NOW_FRAC) = w (if flat then s.flat else s.tb.fr) := by
    change (if flat = true then s.setReg TB_FLAT_LO (w s.flat) else s.setReg TB_NOW_FRAC (w s.tb.fr)).reg _ = _
    cases flat
    · rw [if_neg (by decide), if_neg (by decide), if_neg (by decide)]
      exact reg_setReg_same _ _ _
    · rw [if_pos rfl, if_pos rfl, if_pos rfl]
      exact reg_setReg_same _ _ _
  have tb2 : s2.tb = s.tb := by
    change ((s1.setReg _ _).setReg _ _).tb = _
    rw [setReg_tb, setReg_tb, tb1]
  have flat2 : s2.flat = s.flat := flat_of_tb tb2
  rw [flat2, tb2]
  have hs2 : s2 = (s1.setReg TB_NOW_NS (w s.tb.ns)).setReg TB_NOW_SLO (w s.tb.sec) := by
    change (s1.setReg TB_NOW_NS (w s1.tb.ns)).setReg TB_NOW_SLO (w s1.tb.sec) = _
    rw [tb1]
  rw [hs2]
  change _ = w _ ∧ _ = w _ ∧ _ = w _ ∧ _ = w _ ∧ _ = w _
  clear flat2 tb2 tb1 hs2 s2
  clear_value w s1
  generalize w s.tb.ns = ns
  generalize w s.tb.sec = lo
  generalize w (s.tb.sec / 2 ^ 32) = hi
  generalize w (s.flat / 2 ^ 32) = fl
  simp only [reg_setReg_ite]
  refine ⟨?_, rfl, rfl, rfl, rfl⟩
  cases flat
  · exact shows
  · exact shows

theorem reg_onTop (s : State) (top : TopSt) (off : Nat) : ({ s with top := top } : State).reg off = s.reg off :=
  reg_of_regs rfl off

theorem latchNow_sets (s : State) (flat : Bool) : ∃ a b c d e, s.latchNow flat =
    ((((s.setReg (if flat then TB_FLAT_LO else TB_NOW_FRAC) a).setReg TB_NOW_NS b).setReg TB_NOW_SLO c).setReg
      TB_NOW_SHI d).setReg TB_FLAT_HI e := by
  unfold State.latchNow
  cases flat
  · exact ⟨_, _, _, _, _, rfl⟩
  · exact ⟨_, _, _, _, _, rfl⟩

theorem nowRead_latches (flat : Bool) : ReadLatches (if flat then TB_FLAT_LO else TB_NOW_FRAC)
    (fun s => if flat then s.flat else s.tb.fr)
    ((if flat then TB_FLAT_LO else TB_NOW_FRAC) :: [TB_NOW_NS, TB_NOW_SLO, TB_NOW_SHI, TB_FLAT_HI])
    (fun s t => t.reg TB_NOW_NS = BitVec.ofNat 32 s.tb.ns ∧ t.reg TB_NOW_SLO = BitVec.ofNat 32 s.tb.sec ∧
      t.reg TB_NOW_SHI = BitVec.ofNat 32 (s.tb.sec / 2 ^ 32) ∧ t.reg TB_FLAT_HI = BitVec.ofNat 32 (s.flat / 2 ^ 32))
    (fun u => u.latchNow flat) where
  def_ := by cases flat <;> decide
  awake u := by cases flat <;> rfl
  notSem := by cases flat <;> decide
  refresh u d _ := by cases flat <;> rfl
  plain := by cases flat <;> decide
  only u := by
    obtain ⟨a, b, c, d, e, sets⟩ := latchNow_sets u flat
    rw [sets]
    rfl
  regsBut u := by
    obtain ⟨a, b, c, d, e, sets⟩ := latchNow_sets u flat
    rw [sets]
    exact (((((RegsBut.refl u _).setReg (by simp)).setReg (by simp)).setReg (by simp)).setReg (by simp)).setReg (by simp)
  shows s top := by
    have shows := (latchNow_shows { s with top := top } flat).1
    rwa [flat_of_tb (s := s) (t := { s with top := top }) rfl] at shows
  latched s top _ := by
    have tb : ({ s with top := top } : State).tb = s.tb := rfl
    have shows := (latchNow_shows { s with top := top } flat).2
    rw [flat_of_tb tb, tb] at shows
    obtain ⟨ns, lo, hi, fl⟩ := shows
    exact ⟨(reg_onTop _ _ _).trans ns, (reg_onTop _ _ _).trans lo, (reg_onTop _ _ _).trans hi, (reg_onTop _ _ _).trans fl⟩

/-- The first `n` cycle counts of a cross-stamp are latched, and nothing below them. -/
theorem cyclesLatched (s : State) (n : Nat) :
    (∀ k, (s.each n fun k s => s.setReg (TB_XS_CYC k) (BitVec.ofNat 32 (s.tb.xsCyc.getD k 0))).reg (TB_XS_CYC k) =
      if k < n then BitVec.ofNat 32 (s.tb.xsCyc.getD k 0) else s.reg (TB_XS_CYC k)) ∧
    (∀ off < 0x1600070, (s.each n fun k s => s.setReg (TB_XS_CYC k)
      (BitVec.ofNat 32 (s.tb.xsCyc.getD k 0))).reg off = s.reg off) ∧
    s.each n (fun k s => s.setReg (TB_XS_CYC k) (BitVec.ofNat 32 (s.tb.xsCyc.getD k 0))) = { s with
      regs := (s.each n fun k s => s.setReg (TB_XS_CYC k) (BitVec.ofNat 32 (s.tb.xsCyc.getD k 0))).regs } := by
  induction n with
  | zero => exact ⟨fun _ => rfl, fun _ _ => rfl, rfl⟩
  | succ n ih =>
    rw [each_succ]
    obtain ⟨cycles, others, only⟩ := ih
    generalize s.each n _ = t at *
    have tb : t.tb = s.tb := by rw [only]
    refine ⟨fun k => ?_, fun off below => ?_, ?_⟩
    · rw [reg_setReg_ite, tb]
      rcases Nat.lt_trichotomy k n with lt | rfl | gt
      · rw [if_neg (by unfold TB_XS_CYC; omega), cycles, if_pos lt, if_pos (by omega)]
      · rw [if_pos rfl, if_pos (by omega)]
      · rw [if_neg (by unfold TB_XS_CYC; omega), cycles, if_neg (by omega), if_neg (by omega)]
    · rw [reg_setReg_other _ _ _ _ (by unfold TB_XS_CYC; omega), others off below]
    · rw [only]
      rfl

/-- The cross-stamp set after a read of its status. -/
theorem latchXs_shows (s : State) : s.latchXs.reg TB_XS_STAT = s.reg TB_XS_STAT ∧
    s.latchXs.reg TB_XS_FRAC = BitVec.ofNat 32 s.tb.xsFr ∧ s.latchXs.reg TB_XS_FLAT_LO = BitVec.ofNat 32 s.tb.xsFlat ∧
    s.latchXs.reg TB_XS_FLAT_HI = BitVec.ofNat 32 (s.tb.xsFlat / 2 ^ 32) ∧
    ∀ k, k < 4 → s.latchXs.reg (TB_XS_CYC k) = BitVec.ofNat 32 (s.tb.xsCyc.getD k 0) := by
  obtain ⟨u, hu⟩ : ∃ u, ((s.setReg TB_XS_FRAC (BitVec.ofNat 32 s.tb.xsFr)).setReg TB_XS_FLAT_LO
    (BitVec.ofNat 32 s.tb.xsFlat)).setReg TB_XS_FLAT_HI (BitVec.ofNat 32 (s.tb.xsFlat / 2 ^ 32)) = u := ⟨_, rfl⟩
  have latch : s.latchXs = u.each 4 fun k s => s.setReg (TB_XS_CYC k) (BitVec.ofNat 32 (s.tb.xsCyc.getD k 0)) := by
    rw [← hu]
    rfl
  have tb : u.tb = s.tb := by rw [← hu, setReg_tb, setReg_tb, setReg_tb]
  obtain ⟨cycles, others, -⟩ := cyclesLatched u 4
  rw [latch, others _ (by decide), others _ (by decide), others _ (by decide), others _ (by decide)]
  refine ⟨?_, ?_, ?_, ?_, fun k hk => ?_⟩
  · simp [← hu, reg_setReg_ite, TB_XS_STAT, TB_XS_FRAC, TB_XS_FLAT_LO, TB_XS_FLAT_HI]
  · simp [← hu, reg_setReg_ite, TB_XS_FRAC, TB_XS_FLAT_LO, TB_XS_FLAT_HI]
  · simp [← hu, reg_setReg_ite, TB_XS_FLAT_LO, TB_XS_FLAT_HI]
  · simp [← hu, TB_XS_FLAT_HI]
  · rw [cycles, if_pos hk, tb]

theorem cycles_regsBut (s : State) (n : Nat) (hn : n ≤ 4) :
    RegsBut s (s.each n fun k s => s.setReg (TB_XS_CYC k) (BitVec.ofNat 32 (s.tb.xsCyc.getD k 0)))
      ([TB_XS_FRAC, TB_XS_FLAT_LO, TB_XS_FLAT_HI] ++ (List.range 4).map TB_XS_CYC) := by
  induction n with
  | zero => exact RegsBut.refl _ _
  | succ n ih =>
    rw [each_succ]
    exact (ih (by omega)).setReg (List.mem_append_right _ (List.mem_map_of_mem (List.mem_range.2 hn)))

theorem latchXs_only (s : State) : s.latchXs = { s with regs := s.latchXs.regs } ∧
    RegsBut s s.latchXs ([TB_XS_FRAC, TB_XS_FLAT_LO, TB_XS_FLAT_HI] ++ (List.range 4).map TB_XS_CYC) := by
  unfold State.latchXs
  extract_lets w s1 s2
  have only : s2 = { s with regs := s2.regs } := rfl
  have but : RegsBut s s2 ([TB_XS_FRAC, TB_XS_FLAT_LO, TB_XS_FLAT_HI] ++ (List.range 4).map TB_XS_CYC) :=
    (((RegsBut.refl s _).setReg (by simp)).setReg (by simp)).setReg (by simp)
  clear_value s2
  refine ⟨?_, but.trans ?_⟩
  · refine (cyclesLatched s2 4).2.2.trans ?_
    generalize (s2.each 4 _).regs = r
    rw [only]
  · exact cycles_regsBut s2 4 (le_refl 4)

/-- A read of the status latches the cross-stamp. -/
theorem refresh_xsStat (s : State) (d : RegDef) : s.refresh d TB_XS_STAT = s.latchXs := by
  unfold State.refresh
  obtain ⟨i, j⟩ := d.ix TB_XS_STAT
  dsimp only
  iterate 9 rw [if_neg (by decide)]
  rw [if_pos rfl]

theorem xsStatRead_latches : ReadLatches TB_XS_STAT (fun s => (s.reg TB_XS_STAT).toNat)
    ([TB_XS_FRAC, TB_XS_FLAT_LO, TB_XS_FLAT_HI] ++ (List.range 4).map TB_XS_CYC)
    (fun s t => t.reg TB_XS_FRAC = BitVec.ofNat 32 s.tb.xsFr ∧
      t.reg TB_XS_FLAT_LO = BitVec.ofNat 32 s.tb.xsFlat ∧
      t.reg TB_XS_FLAT_HI = BitVec.ofNat 32 (s.tb.xsFlat / 2 ^ 32) ∧
      ∀ k, k < 4 → t.reg (TB_XS_CYC k) = BitVec.ofNat 32 (s.tb.xsCyc.getD k 0)) State.latchXs where
  def_ := by decide
  awake u := rfl
  notSem := by decide
  refresh u d _ := refresh_xsStat u d
  plain := by decide
  only u := (latchXs_only u).1
  regsBut u := (latchXs_only u).2
  shows s top := by
    rw [(latchXs_shows { s with top := top }).1, BitVec.ofNat_toNat]
    exact (BitVec.setWidth_eq (s.reg TB_XS_STAT)).symm
  latched s top _ := by
    obtain ⟨-, fr, lo, hi, cyc⟩ := latchXs_shows { s with top := top }
    exact ⟨(reg_onTop _ _ _).trans fr, (reg_onTop _ _ _).trans lo, (reg_onTop _ _ _).trans hi,
      fun k hk => (reg_onTop _ _ _).trans (cyc k hk)⟩

theorem refresh_pos (s : State) (d : RegDef) : s.refresh d LC_POS_F = s.readPos := by
  unfold State.refresh
  obtain ⟨i, j⟩ := d.ix LC_POS_F
  dsimp only
  iterate 4 rw [if_neg (by decide)]
  rw [if_pos rfl]

theorem refresh_hwm (s : State) (d : RegDef) : s.refresh d LC_HWM_LO = s.readHwm := by
  unfold State.refresh
  obtain ⟨i, j⟩ := d.ix LC_HWM_LO
  dsimp only
  iterate 5 rw [if_neg (by decide)]
  rw [if_pos rfl]

theorem reg64_onTop (s : State) (top : TopSt) (lo hi : Nat) :
    ({ s with top := top } : State).reg64 lo hi = s.reg64 lo hi := by
  rw [State.reg64, State.reg64, reg_onTop s top lo, reg_onTop s top hi]

theorem posRead_latches : ReadLatches LC_POS_F (fun s => s.lc.pos.toNat) [LC_POS_F, LC_POS_LO, LC_POS_HI]
    (fun s t => t.reg64 LC_POS_LO LC_POS_HI = s.lc.pos.toNat / 2 ^ 32) State.readPos where
  def_ := by decide
  awake u := rfl
  notSem := by decide
  refresh u d _ := refresh_pos u d
  plain := by decide
  only u := rfl
  regsBut u := ((((RegsBut.refl u _).setReg (by simp)).setReg (by simp)).setReg (by simp) :
    RegsBut u (((u.setReg _ _).setReg _ _).setReg _ _) _)
  shows s top := by
    unfold State.readPos State.setReg64
    dsimp only
    rw [reg_setReg_other _ _ _ _ (by decide), reg_setReg_other _ _ _ _ (by decide), reg_setReg_same]
  latched s top top' := by
    have lt : s.lc.pos.toNat / 2 ^ 32 < 2 ^ 64 := by have := s.lc.pos.isLt; omega
    refine (reg64_onTop _ _ _ _).trans ?_
    unfold State.readPos
    dsimp only
    rw [reg64_setReg64 _ _ _ _ (by decide), Nat.mod_eq_of_lt lt]

theorem hwmRead_latches : ReadLatches LC_HWM_LO (fun s => s.lc.hwm.toNat) [LC_HWM_LO, LC_HWM_HI]
    (fun s t => t.reg64 LC_HWM_LO LC_HWM_HI = s.lc.hwm.toNat) State.readHwm where
  def_ := by decide
  awake u := rfl
  notSem := by decide
  refresh u d _ := refresh_hwm u d
  plain := by decide
  only u := rfl
  regsBut u := (((RegsBut.refl u _).setReg (by simp)).setReg (by simp) : RegsBut u ((u.setReg _ _).setReg _ _) _)
  shows s top := by
    unfold State.readHwm State.setReg64
    rw [reg_setReg_other _ _ _ _ (by decide), reg_setReg_same]
  latched s top top' := by
    unfold State.readHwm
    rw [reg64_onTop, reg64_setReg64 _ _ _ _ (by decide)]
    exact Nat.mod_eq_of_lt s.lc.hwm.isLt

theorem readsLatch : readsLatchTheirSets := by
  have fraction := nowRead_latches false
  have flat := nowRead_latches true
  simp only [Bool.false_eq_true, if_false] at fraction
  simp only [if_true] at flat
  exact ⟨latches_of_refresh fraction fun _ _ => rfl, latches_of_refresh flat fun _ _ => rfl,
    latches_of_refresh xsStatRead_latches fun _ _ => rfl, latches_of_refresh posRead_latches fun _ _ => rfl,
    latches_of_refresh hwmRead_latches fun _ _ => rfl⟩

/-! ### Wake sources (R457) -/

/-- What a wake source of one domain leaves: the domain's register and the state of its entry, and reports. -/
def WakesOne (s t : State) (d : Nat) : Prop :=
  Frame { s with ck := t.ck, freeIx := t.freeIx } t [CK_DOM d] []

theorem wakesOne_refl (s : State) (d : Nat) : WakesOne s s d := Frame.refl _ _ _

theorem wakesOne_trans {s t u : State} {d : Nat} (h : WakesOne s t d) (k : WakesOne t u d) : WakesOne s u d := by
  obtain ⟨same, regs⟩ := h
  obtain ⟨same', regs'⟩ := k
  refine ⟨?_, fun off ho => (regs' off ho).trans (regs off ho)⟩
  unfold Quiet at *
  rw [same', same]

theorem wakesOne_setReg (s : State) (d : Nat) (v : Word) : WakesOne s (s.setReg (CK_DOM d) v) d :=
  (Frame.refl _ _ _).setReg (by simp)

theorem wakesOne_onCk (s : State) (d : Nat) (f : CkSt → CkSt) : WakesOne s (s.onCk f) d := Frame.refl _ _ _

theorem wakesOne_draw (s : State) (d : Nat) : WakesOne s s.draw.2 d := Frame.refl _ _ _

theorem wakesOne_fault (s : State) (d : Nat) (code : BitVec 16) (inst info : Nat) : WakesOne s (s.fault code inst info) d := by
  unfold WakesOne
  rw [(fault_quiet s code inst info).ck, (fault_quiet s code inst info).freeIx]
  exact (Frame.refl _ _ _).fault

theorem setDomState_wakes (s : State) (d v : Nat) : WakesOne s (s.setDomState d v) d := wakesOne_setReg _ _ _

theorem setDomState_req (s : State) (d v : Nat) : (s.setDomState d v).fld (CK_DOM d) CK_DOM_REQ =
    s.fld (CK_DOM d) CK_DOM_REQ := fld_setFld_field _ _ _ _ _ (by decide)

theorem entryStopped_wakes (s : State) (d : Nat) (e : DomEntry) : WakesOne s (s.entryStopped e).2 d ∧
    (s.entryStopped e).2.regs = s.regs := by
  unfold State.entryStopped
  split
  · exact ⟨wakesOne_refl _ _, rfl⟩
  · exact ⟨wakesOne_draw _ _, rfl⟩

/-- What a wake request leaves, and that it keeps the request. -/
theorem wakeDom_wakes (s : State) (d : Nat) : WakesOne s (s.wakeDom d) d ∧
    (s.wakeDom d).fld (CK_DOM d) CK_DOM_REQ = s.fld (CK_DOM d) CK_DOM_REQ := by
  unfold State.wakeDom
  split
  · next e he =>
    obtain ⟨wakes, regs⟩ := entryStopped_wakes s d e
    generalize s.entryStopped e = r at *
    obtain ⟨e', u⟩ := r
    dsimp only at wakes regs ⊢
    split
    · exact ⟨wakesOne_trans wakes (wakesOne_onCk _ _ _), fld_of_regs regs _ _⟩
    · exact ⟨wakesOne_trans (wakesOne_trans wakes (wakesOne_onCk _ _ _)) (setDomState_wakes _ _ _),
        (setDomState_req _ _ _).trans (fld_of_regs regs _ _)⟩
  · split
    · exact ⟨wakesOne_trans (wakesOne_onCk _ _ _) (setDomState_wakes _ _ _), setDomState_req _ _ _⟩
    · exact ⟨wakesOne_refl _ _, rfl⟩

theorem undoLowered_wakes (s : State) (d : Nat) : WakesOne s (s.undoLowered d) d := by
  unfold State.undoLowered
  split
  · split
    · refine wakesOne_trans ?_ (wakesOne_fault _ _ _ _ _)
      have undone : ∀ (v : Word) (f : CkSt → CkSt), WakesOne s ((s.setReg (CK_DOM d) v).onCk f) d := fun v f =>
        wakesOne_trans (wakesOne_setReg _ _ _) (wakesOne_onCk _ _ _)
      split
      · split
        · exact wakesOne_trans (wakesOne_trans (undone _ _) (wakesOne_onCk _ _ _)) (setDomState_wakes _ _ _)
        · exact wakesOne_trans (undone _ _) (setDomState_wakes _ _ _)
      · exact wakesOne_trans (undone _ _) (setDomState_wakes _ _ _)
    · exact wakesOne_refl _ _
  · exact wakesOne_refl _ _

/-- A wake source of a domain requests AWAKE. -/
theorem sourceWakes_wakes (s : State) (d : Nat) : WakesOne s (s.sourceWakes d) d ∧
    (s.sourceWakes d).fld (CK_DOM d) CK_DOM_REQ = 2 := by
  unfold State.sourceWakes
  have undone := undoLowered_wakes s d
  generalize s.undoLowered d = u at *
  obtain ⟨v, hv⟩ : ∃ v, (u.setFld (CK_DOM d) CK_DOM_REQ 2).onCk (fun c =>
    { c with woke := c.woke.set none d (some u.now) }) = v := ⟨_, rfl⟩
  have wakes : WakesOne u v d := hv ▸ wakesOne_trans (wakesOne_setReg _ _ _) (wakesOne_onCk _ _ _)
  have req : v.fld (CK_DOM d) CK_DOM_REQ = 2 := by
    rw [← hv]
    exact fld_setFld_same u _ _ _ (by decide)
  obtain ⟨wakes', req'⟩ := wakeDom_wakes v d
  dsimp only
  rw [hv]
  exact ⟨wakesOne_trans (wakesOne_trans undone wakes) wakes', req'.trans req⟩

/-- The source has occurred in the first `n` domains. -/
def State.sourceIn (s : State) (src n : Nat) : State :=
  s.each n fun d s => if (s.fld (CK_DOM d) CK_DOM_WAKESRC).testBit src then s.sourceWakes d else s

theorem ckDom_notMem (d : Nat) (hd : d < 3) (e : Nat) (ne : d ≠ e) : CK_DOM d ∉ [CK_DOM e] ++ reportRegs [] := by
  rw [List.mem_append, List.mem_singleton, not_or]
  exact ⟨by unfold CK_DOM; omega, notMem_reportRegs_nil (by unfold CK_DOM; omega)⟩

/-- Each domain that has the source enabled is asked to wake, and no other register changes. -/
theorem sourceIn_wakes (s : State) (src n : Nat) (hn : n ≤ 3) :
    Frame { s with ck := (s.sourceIn src n).ck, freeIx := (s.sourceIn src n).freeIx } (s.sourceIn src n)
      ((List.range 3).map CK_DOM) [] ∧
    ∀ d < 3, if d < n ∧ (s.fld (CK_DOM d) CK_DOM_WAKESRC).testBit src then
        (s.sourceIn src n).fld (CK_DOM d) CK_DOM_REQ = 2
      else (s.sourceIn src n).reg (CK_DOM d) = s.reg (CK_DOM d) := by
  induction n with
  | zero => exact ⟨Frame.refl _ _ _, fun d _ => by rw [if_neg (by omega)]; rfl⟩
  | succ n ih =>
    obtain ⟨frame, doms⟩ := ih (by omega)
    have next : s.sourceIn src (n + 1) = if ((s.sourceIn src n).fld (CK_DOM n) CK_DOM_WAKESRC).testBit src then
        (s.sourceIn src n).sourceWakes n else s.sourceIn src n := each_succ _ _ _
    rw [next]
    generalize s.sourceIn src n = t at *
    have own : t.reg (CK_DOM n) = s.reg (CK_DOM n) := by
      have dom := doms n (by omega)
      rwa [if_neg (by omega)] at dom
    rw [fld_of_reg _ own]
    by_cases on : (s.fld (CK_DOM n) CK_DOM_WAKESRC).testBit src
    · rw [if_pos on]
      obtain ⟨wakes, req⟩ := sourceWakes_wakes t n
      generalize t.sourceWakes n = u at *
      refine ⟨?_, fun d hd => ?_⟩
      · obtain ⟨same, regs⟩ := frame
        obtain ⟨same', regs'⟩ := Frame.mono wakes (l' := (List.range 3).map CK_DOM) (blks' := [])
          (List.cons_subset.2 ⟨List.mem_map_of_mem (List.mem_range.2 hn), List.nil_subset _⟩) (by simp)
        refine ⟨?_, fun off ho => (regs' off ho).trans (regs off ho)⟩
        unfold Quiet at *
        rw [same', same]
      · rcases Nat.lt_trichotomy d n with lt | rfl | gt
        · have dom := doms d hd
          have kept : u.reg (CK_DOM d) = t.reg (CK_DOM d) := wakes.2 _ (ckDom_notMem d hd n (by omega))
          rw [fld_of_reg _ kept, kept]
          simpa only [lt, (by omega : d < n + 1)] using dom
        · rw [if_pos ⟨Nat.lt_succ_self d, on⟩]
          exact req
        · have dom := doms d hd
          rw [if_neg (by omega)] at dom ⊢
          exact (wakes.2 _ (ckDom_notMem d hd n (by omega))).trans dom
    · rw [if_neg on]
      refine ⟨frame, fun d hd => ?_⟩
      have dom := doms d hd
      rcases Nat.lt_trichotomy d n with lt | rfl | gt
      · simpa only [lt, (by omega : d < n + 1)] using dom
      · rw [if_neg (fun h => on h.2)]
        exact own
      · rw [if_neg (by omega)] at dom ⊢
        exact dom

theorem wakeSource_wakes (s : State) (src : Nat) :
    Frame { s with ck := (s.wakeSource src).ck, freeIx := (s.wakeSource src).freeIx } (s.wakeSource src)
      ((List.range 3).map CK_DOM) [] ∧
    ∀ d < 3, if (s.fld (CK_DOM d) CK_DOM_WAKESRC).testBit src then (s.wakeSource src).fld (CK_DOM d) CK_DOM_REQ = 2
      else (s.wakeSource src).reg (CK_DOM d) = s.reg (CK_DOM d) := by
  obtain ⟨frame, doms⟩ := sourceIn_wakes s src 3 (le_refl 3)
  have all : s.wakeSource src = s.sourceIn src 3 := rfl
  rw [all]
  refine ⟨frame, fun d hd => ?_⟩
  have dom := doms d hd
  simpa only [hd, true_and] using dom

/-! ### Compares and pulses -/

theorem cmpCtl_notMem (m : Fin 4) : TB_CMP_CTL m ∉ reportRegs [BLK_TB] :=
  notMem_reportRegs_one (b := BLK_TB) 0x1600020 rfl (by unfold TB_CMP_CTL; omega)

theorem ckDom_notMem_tb (d : Nat) (hd : d < 3) : CK_DOM d ∉ reportRegs [BLK_TB] :=
  notMem_reportRegs_one (b := BLK_TB) 0x1600020 rfl (by unfold CK_DOM; omega)

/-- A compare that succeeds is cleared and raises its event. -/
theorem compared_shows (s : State) (m : Fin 4) {u : State}
    (hu : (s.setFld (TB_CMP_CTL m) TB_CMP_CTL_EN 0).setEvt BLK_TB (2 + m) = u) :
    u.bit (TB_CMP_CTL m) TB_CMP_CTL_EN = false ∧ EventSet u BLK_TB (2 + m) ∧ Frame s u [TB_CMP_CTL m] [BLK_TB] ∧
    ∀ d < 3, u.reg (CK_DOM d) = s.reg (CK_DOM d) := by
  rw [← hu]
  refine ⟨?_, setEvt_eventSet _ _ _ (by omega), ((Frame.refl _ _ _).setFld (by simp)).setEvt (by simp), fun d hd => ?_⟩
  · rw [bit_of_reg _ (reg_setEvt_of_notMem _ _ _ _ (cmpCtl_notMem m))]
    exact bit_setFld_clear _ _ _ rfl (by decide)
  · rw [reg_setEvt_of_notMem _ _ _ _ (ckDom_notMem_tb d hd),
      reg_setFld_other _ _ _ _ _ (by unfold CK_DOM TB_CMP_CTL; omega)]

theorem compare_fires {s : State} {m : Fin 4} (hit : (s.bit (TB_CMP_CTL m) TB_CMP_CTL_EN && !s.tb.cmpNew.contains m.val &&
      cmpSucceeds s.flat (s.reg64 (TB_CMP_LO m) (TB_CMP_HI m))) = true) :
    ∃ t, exec (.compare m) s = .next t ∧ t.bit (TB_CMP_CTL m) TB_CMP_CTL_EN = false ∧
      EventSet t BLK_TB (2 + m) ∧
      Frame { s with ck := t.ck, freeIx := t.freeIx } t ([TB_CMP_CTL m] ++ (List.range 3).map CK_DOM) [BLK_TB] ∧
      ∀ d, d < 3 → if (s.fld (CK_DOM d) CK_DOM_WAKESRC).testBit 3 then t.fld (CK_DOM d) CK_DOM_REQ = 2
        else t.reg (CK_DOM d) = s.reg (CK_DOM d) := by
  have run : exec (.compare m) s = .next
      (((s.setFld (TB_CMP_CTL m) TB_CMP_CTL_EN 0).setEvt BLK_TB (2 + m)).wakeSource 3) :=
    congrArg Host.Outcome.next (if_pos hit)
  obtain ⟨u, hu⟩ : ∃ u, (s.setFld (TB_CMP_CTL m) TB_CMP_CTL_EN 0).setEvt BLK_TB (2 + m) = u := ⟨_, rfl⟩
  rw [hu] at run
  obtain ⟨cleared, event, frame, doms⟩ := compared_shows s m hu
  obtain ⟨⟨same, regs⟩, wakes⟩ := wakeSource_wakes u 3
  refine ⟨_, run, ?_, ?_, ⟨?_, fun off ho => ?_⟩, fun d hd => ?_⟩
  · refine (bit_of_reg _ (regs _ ?_)).trans cleared
    rw [List.mem_append, not_or]
    refine ⟨?_, notMem_reportRegs_nil (by unfold TB_CMP_CTL; omega)⟩
    simp only [List.mem_map, List.mem_range, not_exists, not_and]
    intro d hd
    unfold CK_DOM TB_CMP_CTL
    omega
  · exact event.of_reg (regs _ (by decide))
  · generalize u.wakeSource 3 = t at *
    obtain ⟨same', -⟩ := frame
    unfold Quiet at *
    rw [same, same']
  · simp only [List.mem_append, not_or] at ho
    obtain ⟨⟨ctl, dom⟩, report⟩ := ho
    have notNil : off ∉ reportRegs [] := fun h => report (reportRegs_mono (List.nil_subset _) h)
    exact (regs off (by rw [List.mem_append, not_or]; exact ⟨dom, notNil⟩)).trans
      (frame.2 off (by rw [List.mem_append, not_or]; exact ⟨ctl, report⟩))
  · have woken := wakes d hd
    rwa [fld_of_reg _ (doms d hd), doms d hd] at woken

theorem pulse_starts {s : State} {n : Fin 16} (armed : s.bit (TP_CFG n) TP_CFG_EN = true)
    (low : s.bit (TP_CFG n) TP_CFG_ACTIVE = false) (reached : cmpSucceeds s.flat (s.tpTarget n) = true) :
    ∃ t, exec (.pulseStart n) s = .next t ∧ t.bit (TP_CFG n) TP_CFG_ACTIVE = true ∧
      (t.tpAt n).endAt = (s.reg64 (TP_START_LO n) (TP_START_HI n) +
        ((s.tpAt n).next * s.tpPer n + s.tpWidth n) / 2 ^ 32) % 2 ^ 64 ∧
      (t.tpAt n).next = (s.tpAt n).next + b2n (s.bit (TP_CFG n) TP_CFG_MODE) ∧
      t = { s with regs := t.regs, tb := t.tb } ∧ RegsBut s t [TP_CFG n] := by
  have run : exec (.pulseStart n) s = .next (s.tpBegin n (s.tpEnd n)) :=
    congrArg Host.Outcome.next (if_pos (by rw [armed, low, reached]; rfl))
  have set : ∀ u : TpSt, ((s.setTp n u).setFld (TP_CFG n) TP_CFG_ACTIVE 1).tpAt n = u := fun u =>
    Tbl.get_set_same _ _ _ _
  refine ⟨_, run, bit_setFld_set _ _ _ rfl (by decide), ?_, ?_, rfl, (RegsBut.of_regs rfl _ : RegsBut s (s.setTp n _) _).setFld (by simp)⟩
  · unfold State.tpBegin
    dsimp only
    rw [set]
    exact Nat.mod_mod _ _
  · unfold State.tpBegin
    dsimp only
    rw [set]
    cases s.bit (TP_CFG n) TP_CFG_MODE <;> rfl

theorem pulse_ends {s : State} {n : Fin 16} (high : s.bit (TP_CFG n) TP_CFG_ACTIVE = true)
    (over_ : cmpSucceeds s.flat (s.tpAt n).endAt = true) :
    ∃ t, exec (.pulseEnd n) s = .next t ∧ t.bit (TP_CFG n) TP_CFG_ACTIVE = false ∧
      t.bit (TP_CFG n) TP_CFG_EN = (s.bit (TP_CFG n) TP_CFG_EN && s.bit (TP_CFG n) TP_CFG_MODE) ∧
      t = { s with regs := t.regs } ∧ RegsBut s t [TP_CFG n] := by
  have run : exec (.pulseEnd n) s = .next (s.tpFinish n) :=
    congrArg Host.Outcome.next (if_pos (by rw [high, over_]; rfl))
  obtain ⟨u, hu⟩ : ∃ u, s.setFld (TP_CFG n) TP_CFG_ACTIVE 0 = u := ⟨_, rfl⟩
  have active : u.bit (TP_CFG n) TP_CFG_ACTIVE = false := hu ▸ bit_setFld_clear _ _ _ rfl (by decide)
  have en : u.bit (TP_CFG n) TP_CFG_EN = s.bit (TP_CFG n) TP_CFG_EN := by
    rw [← hu, State.bit, State.bit, fld_setFld_field _ _ _ _ _ (by decide)]
  have mode : u.bit (TP_CFG n) TP_CFG_MODE = s.bit (TP_CFG n) TP_CFG_MODE := by
    rw [← hu, State.bit, State.bit, fld_setFld_field _ _ _ _ _ (by decide)]
  have only : u = { s with regs := u.regs } := by rw [← hu]; rfl
  have but : RegsBut s u [TP_CFG n] := hu ▸ (RegsBut.refl s _).setFld (by simp)
  have finish : s.tpFinish n = if u.bit (TP_CFG n) TP_CFG_MODE = true then u else u.setFld (TP_CFG n) TP_CFG_EN 0 := by
    rw [← hu]
    rfl
  rw [finish, mode] at run
  clear hu finish
  cases periodic : s.bit (TP_CFG n) TP_CFG_MODE with
  | true =>
    rw [if_pos periodic] at run
    exact ⟨_, run, active, by rw [en, Bool.and_true], only, but⟩
  | false =>
    rw [if_neg (by rw [periodic]; decide)] at run
    refine ⟨_, run, ?_, ?_, ?_, but.setFld (by simp)⟩
    · exact (congrArg (· != 0) (fld_setFld_field _ _ _ _ _ (by decide))).trans active
    · rw [Bool.and_false]
      exact bit_setFld_clear _ _ _ rfl (by decide)
    · obtain ⟨r, hr⟩ : ∃ r, u = { s with regs := r } := ⟨_, only⟩
      rw [hr]
      rfl

theorem comparesFire : comparesAndPulses := by
  refine ⟨fun s m => ?_, fun s n => ⟨pulse_starts, fun idle => ?_, pulse_ends, fun idle => ?_⟩⟩
  · refine ⟨compare_fires, fun misses => congrArg Host.Outcome.next (if_neg ?_)⟩
    rw [Bool.not_eq_true]
    exact misses
  · refine congrArg Host.Outcome.next (if_neg ?_)
    rcases idle with h | h | h <;> rw [h] <;> simp
  · refine congrArg Host.Outcome.next (if_neg ?_)
    rcases idle with h | h <;> rw [h] <;> simp

/-- Settles O52: the time is set, adjusted, stamped and read, and compares and pulses act on it. -/
theorem timeIsKeptAndRead : Obligations.TimeIsKeptAndRead := ⟨timeSet, readsLatch, comparesFire⟩

end Sys2Proof.Machine

/-!
The fast domains: requests, wake sources, the ends of entries and wakes (R456 to R459).
-/

namespace Sys2Proof.Machine

/-! ### The register of a domain -/

theorem regDef_CK_DOM : ∀ d : Fin 3, ∃ x, regDef? (CK_DOM d) = some x ∧ x.rw = 0xF0003 ∧ x.rwl = 0 ∧ x.w1c = 0 := by decide

theorem merged_self (rw_ w : Word) : merged rw_ w w = w := by
  refine BitVec.eq_of_getLsbD_eq fun i hi => ?_
  rw [getLsbD_merged _ _ _ i hi, ite_self]

/-- A field put back. -/
theorem fldPut_back (f : Fld) (x : Nat) (w : Word) : fldPut f (fldGet f w) (fldPut f x w) = w := by
  refine BitVec.eq_of_getLsbD_eq fun i hi => ?_
  rw [getLsbD_fldPut _ _ _ _ hi, getLsbD_fldPut _ _ _ _ hi]
  split
  · next within =>
    rw [testBit_fldGet, decide_eq_true (by omega), Bool.true_and, Nat.add_sub_cancel' within.1]
  · rfl

/-- A request writes no other field than the request. -/
theorem request_typed {s u : State} (d : Fin 3) (r : Nat) (h : u.reg (CK_DOM d) = s.reg (CK_DOM d)) :
    u.typedWrite (CK_DOM d) (fldPut CK_DOM_REQ (s.fld (CK_DOM d) CK_DOM_REQ) (fldPut CK_DOM_REQ r (s.reg (CK_DOM d)))) =
      u.setReg (CK_DOM d) (s.reg (CK_DOM d)) := by
  obtain ⟨x, hx, rw_, rwl, w1c⟩ := regDef_CK_DOM d
  rw [typedWrite_plain u _ hx rwl w1c, State.fld, fldPut_back, h, merged_self]

theorem domUsed_of_reg {s t : State} (h : ∀ off, t.reg off = s.reg off) (d : Nat) : t.domUsed d = s.domUsed d := by
  unfold State.domUsed State.anyArmed State.slotState State.unit State.slotEn State.bit State.fld
  simp only [h]

/-- Only the register of a domain and the state of its entries and wakes have changed. -/
def CkOnly (s t : State) (d : Nat) : Prop := t = { s with regs := t.regs, ck := t.ck } ∧ RegsBut s t [CK_DOM d]

section
variable {s t : State} {d : Nat}

theorem CkOnly.refl (s : State) (d : Nat) : CkOnly s s d := ⟨rfl, RegsBut.refl _ _⟩

theorem CkOnly.onCk (h : CkOnly s t d) (f : CkSt → CkSt) : CkOnly s (t.onCk f) d := by
  obtain ⟨same, regs⟩ := h
  refine ⟨?_, regs⟩
  rw [same]
  rfl

theorem CkOnly.setReg (h : CkOnly s t d) (v : Word) : CkOnly s (t.setReg (CK_DOM d) v) d := by
  obtain ⟨same, regs⟩ := h
  refine ⟨?_, regs.setReg (by simp)⟩
  rw [same]
  rfl

theorem CkOnly.setFld (h : CkOnly s t d) (f : Fld) (x : Nat) : CkOnly s (t.setFld (CK_DOM d) f x) d := h.setReg _

theorem domState_setDomState (s : State) (d : Nat) {v : Nat} (hv : v < 4) : (s.setDomState d v).domState d = v :=
  (fld_setFld_same _ _ _ _ (by decide)).trans (Nat.mod_eq_of_lt hv)

/-- A wake begins. -/
theorem wakeBegin_shows (h : CkOnly s t d) (fromOff : Bool) : CkOnly s (t.wakeBegin d fromOff) d ∧
    (t.wakeBegin d fromOff).domState d = 3 ∧ (t.wakeBegin d fromOff).fld (CK_DOM d) CK_DOM_REQ = t.fld (CK_DOM d) CK_DOM_REQ ∧
    (t.wakeBegin d fromOff).ck.waking.get none d = some { fromOff := fromOff, since := t.now, late := false } ∧
    (t.wakeBegin d fromOff).ck.entry = t.ck.entry := by
  unfold State.wakeBegin
  exact ⟨(h.onCk _).setFld _ _, domState_setDomState _ _ (by decide), setDomState_req _ _ _, Tbl.get_set_same _ _ _ _, rfl⟩

/-- A domain that sleeps and is asked to wake. -/
theorem wakeDom_begins (entry : t.ck.entry.get none d = none) (asleep : t.domState d ≤ 1) :
    t.wakeDom d = t.wakeBegin d (t.domState d == 0) := by
  unfold State.wakeDom
  rw [entry]
  exact if_pos asleep

theorem wakeDom_awake (entry : t.ck.entry.get none d = none) (awake : t.domState d = 2) : t.wakeDom d = t := by
  unfold State.wakeDom
  rw [entry]
  exact if_neg (by rw [awake]; decide)

end

/-! ### Requests -/

section
variable {s : State} {d : Fin 3}

/-- A request for AWAKE of a domain that sleeps. -/
theorem awakeWrite_wakes (u : State) (d : Fin 3) (asleep : u.domState d ≤ 1) (entry : u.ck.entry.get none d = none) :
    let t := u.ckDomWrite d (fldPut CK_DOM_REQ 2 (u.reg (CK_DOM d)))
    CkOnly u t d ∧ t.domState d = 3 ∧ t.fld (CK_DOM d) CK_DOM_REQ = 2 ∧
      t.ck.waking.get none d = some { fromOff := u.domState d == 0, since := u.now, late := false } := by
  intro t
  have req : fldGet CK_DOM_REQ (fldPut CK_DOM_REQ 2 (u.reg (CK_DOM d))) = 2 := fldGet_fldPut_same _ _ _ (by decide)
  obtain ⟨v, hv⟩ : ∃ v, (u.setReg (CK_DOM d) (u.reg (CK_DOM d))).setFld (CK_DOM d) CK_DOM_REQ 2 = v := ⟨_, rfl⟩
  have only : CkOnly u v d := hv ▸ ((CkOnly.refl u d).setReg _).setFld _ _
  have same : v.domState d = u.domState d := by
    rw [← hv, State.domState, fld_setFld_field _ _ _ _ _ (by decide), State.fld, reg_setReg_same]
    rfl
  have asked : v.fld (CK_DOM d) CK_DOM_REQ = 2 := hv ▸ fld_setFld_same _ _ _ _ (by decide)
  have ck : v.ck = u.ck ∧ v.now = u.now := by rw [← hv]; exact ⟨rfl, rfl⟩
  have writes : t = v.wakeDom d := by
    change u.ckDomWrite d _ = _
    unfold State.ckDomWrite
    dsimp only
    rw [req, if_neg (fun h : 2 < 2 ∧ _ => absurd h.1 (by decide)), if_neg (fun h : 2 < 2 ∧ _ => absurd h.1 (by decide)),
      request_typed d 2 rfl, if_pos (le_refl 2), hv]
  have begins := wakeDom_begins (t := v) (d := d) (by rw [ck.1]; exact entry) (by rw [same]; exact asleep)
  obtain ⟨only', state, kept, waking, -⟩ := wakeBegin_shows only (v.domState d == 0)
  rw [writes, begins]
  refine ⟨only', state, kept.trans asked, waking.trans ?_⟩
  rw [same, ck.2]

/-- A request below AWAKE of a domain that is in use. -/
theorem lowWrite_refused (u : State) (d : Fin 3) {r : Nat} (low : r < 2) (late : u.ck.woke.get none d ≠ some u.now)
    (awake : u.domState d = 2) (used : u.domUsed d = true) :
    u.ckDomWrite d (fldPut CK_DOM_REQ r (u.reg (CK_DOM d))) =
      ((u.setReg (CK_DOM d) (u.reg (CK_DOM d))).setEvt BLK_CK 5).fault 0x0041 d := by
  have req : fldGet CK_DOM_REQ (fldPut CK_DOM_REQ r (u.reg (CK_DOM d))) = r :=
    (fldGet_fldPut_same _ _ _ (by decide)).trans (Nat.mod_eq_of_lt (by change r < 4; omega))
  have used' : (u.setReg (CK_DOM d) (u.reg (CK_DOM d))).domUsed d = true := (domUsed_of_reg (fun off => by
    rw [reg_setReg_ite]
    split
    · next h => rw [h]
    · rfl) _).trans used
  unfold State.ckDomWrite
  dsimp only
  rw [req, if_neg (fun h : r < 2 ∧ _ => late h.2), if_neg (fun h : r < 2 ∧ ¬_ => h.2 ⟨awake, used⟩), request_typed d r rfl, if_neg (by omega),
    if_pos awake, if_pos used']

/-- A request below AWAKE of a domain that is not in use begins an entry. -/
theorem lowWrite_begins (u : State) (d : Fin 3) {r : Nat} (low : r < 2) (late : u.ck.woke.get none d ≠ some u.now)
    (awake : u.domState d = 2) (free : u.domUsed d = false) :
    let t := u.ckDomWrite d (fldPut CK_DOM_REQ r (u.reg (CK_DOM d)))
    CkOnly u t d ∧ t.domState d = 3 ∧ t.fld (CK_DOM d) CK_DOM_REQ = r ∧
      t.ck.entry.get none d = some { target := r, stopped := false, since := u.now, wake := false, before := 2 } := by
  intro t
  have req : fldGet CK_DOM_REQ (fldPut CK_DOM_REQ r (u.reg (CK_DOM d))) = r :=
    (fldGet_fldPut_same _ _ _ (by decide)).trans (Nat.mod_eq_of_lt (by change r < 4; omega))
  obtain ⟨o, ho⟩ : ∃ o, u.onCk (fun c => { c with lowered := c.lowered.set none d (some (u.now, u.reg (CK_DOM d))) }) = o :=
    ⟨_, rfl⟩
  have only : CkOnly u o d := ho ▸ (CkOnly.refl u d).onCk _
  have regs : ∀ off, o.reg off = u.reg off := fun off => by rw [← ho]; rfl
  have now : o.now = u.now := by rw [← ho]; rfl
  obtain ⟨v, hv⟩ : ∃ v, (o.setReg (CK_DOM d) (u.reg (CK_DOM d))).setFld (CK_DOM d) CK_DOM_REQ r = v := ⟨_, rfl⟩
  have only' : CkOnly u v d := hv ▸ (only.setReg _).setFld _ _
  have state : v.domState d = 2 := by
    rw [← hv, State.domState, fld_setFld_field _ _ _ _ _ (by decide), State.fld, reg_setReg_same]
    exact awake
  have asked : v.fld (CK_DOM d) CK_DOM_REQ = r := by
    rw [← hv, fld_setFld_same _ _ _ _ (by decide)]
    exact Nat.mod_eq_of_lt (by change r < 4; omega)
  have nowv : v.now = u.now := by rw [← hv, setFld_now, setReg_now, now]
  have unused : (o.setReg (CK_DOM d) (u.reg (CK_DOM d))).domUsed d = false := (domUsed_of_reg (fun off => by
    rw [reg_setReg_ite]
    split
    · next h => rw [h]
    · exact regs off) _).trans free
  have lowers : r < 2 ∧ ¬(u.domState d = 2 ∧ u.domUsed d = true) :=
    ⟨low, fun h => by rw [free] at h; exact absurd h.2 (by decide)⟩
  have writes : t = v.entryBegin d r false := by
    change u.ckDomWrite d _ = _
    unfold State.ckDomWrite
    dsimp only
    rw [req, if_neg (fun h : r < 2 ∧ _ => late h.2), if_pos lowers, ho,
      request_typed d r (regs _), if_neg (by omega), if_pos awake, if_neg (by rw [unused]; decide), hv]
  rw [writes]
  unfold State.entryBegin
  refine ⟨(only'.onCk _).setFld _ _, domState_setDomState _ _ (by decide), (setDomState_req _ _ _).trans asked, ?_⟩
  refine (Tbl.get_set_same _ _ _ _).trans ?_
  rw [nowv, state]

end

/-! ### The commands of requests -/

/-- The command of a request. -/
theorem domCommand_permitted {s : State} {m : Master} {d : Fin 3} (h : s.permits m (regAddr (CK_DOM d)) true = true)
    (r : Nat) : s.domCommand m d r =
      (s.busGrant m).ckDomWrite d (fldPut CK_DOM_REQ r ((s.busGrant m).reg (CK_DOM d))) :=
  regGuard_permitted s h

theorem lowRequest_run (s : State) (m : Master) (d : Fin 3) {r : Nat} (hr : r ∈ [0, 1]) :
    exec (if r = 0 then .reqOff m d else .reqStandby m d) s = .next (s.domCommand m d r) := by
  simp only [List.mem_cons, List.not_mem_nil, or_false] at hr
  rcases hr with rfl | rfl
  · rfl
  · rfl

/-- What the grant of the bus leaves of the clock unit. -/
theorem busGrant_ck (s : State) (m : Master) : (s.busGrant m).ck = s.ck ∧ (s.busGrant m).now = s.now := by
  unfold State.busGrant
  split <;> exact ⟨rfl, rfl⟩

theorem domState_busGrant (s : State) (m : Master) (d : Nat) : (s.busGrant m).domState d = s.domState d := fld_busGrant _ _ _ _

theorem domUsed_busGrant (s : State) (m : Master) (d : Nat) : (s.busGrant m).domUsed d = s.domUsed d :=
  domUsed_of_reg (reg_busGrant s m) d

section
variable {s : State} {m : Master} {d : Fin 3} (permitted : s.permits m (regAddr (CK_DOM d)) true = true)
include permitted

theorem lowRequest_loses {r : Nat} (hr : r ∈ [0, 1]) (woke : s.ck.woke.get none d = some s.now) :
    ∃ t, exec (if r = 0 then .reqOff m d else .reqStandby m d) s = .next t ∧
      Frame (s.busGrant m) t [] [] ∧ Reported s t 0x0041 (BitVec.ofNat 8 d) 0 := by
  obtain ⟨ck, now⟩ := busGrant_ck s m
  have low : r < 2 := by simp only [List.mem_cons, List.not_mem_nil, or_false] at hr; omega
  have run := lowRequest_run s m d hr
  rw [domCommand_permitted permitted r] at run
  have si := busGrant_si s m
  generalize s.busGrant m = u at *
  have req : fldGet CK_DOM_REQ (fldPut CK_DOM_REQ r (u.reg (CK_DOM d))) = r :=
    (fldGet_fldPut_same _ _ _ (by decide)).trans (Nat.mod_eq_of_lt (by change r < 4; omega))
  have loses : u.ckDomWrite d (fldPut CK_DOM_REQ r (u.reg (CK_DOM d))) = u.fault 0x0041 d := by
    unfold State.ckDomWrite
    dsimp only
    rw [req]
    exact if_pos ⟨low, by rw [ck, now]; exact woke⟩
  rw [loses] at run
  exact ⟨_, run, (Frame.refl _ _ _).fault, fault_reportedFrom _ _ _ (by rw [si])⟩

theorem lowRequest_begins {r : Nat} (hr : r ∈ [0, 1]) (late : s.ck.woke.get none d ≠ some s.now)
    (awake : s.domState d = 2) (free : s.domUsed d = false) :
    ∃ t, exec (if r = 0 then .reqOff m d else .reqStandby m d) s = .next t ∧
      CkOnly (s.busGrant m) t d ∧ t.domState d = 3 ∧ t.fld (CK_DOM d) CK_DOM_REQ = r ∧
      t.ck.entry.get none d = some { target := r, stopped := false, since := s.now, wake := false, before := 2 } := by
  obtain ⟨ck, now⟩ := busGrant_ck s m
  have low : r < 2 := by simp only [List.mem_cons, List.not_mem_nil, or_false] at hr; omega
  have run := lowRequest_run s m d hr
  rw [domCommand_permitted permitted r] at run
  obtain ⟨only, state, req, entry⟩ := lowWrite_begins (s.busGrant m) d low (by rw [ck, now]; exact late)
    ((domState_busGrant s m d).trans awake) ((domUsed_busGrant s m d).trans free)
  exact ⟨_, run, only, state, req, entry.trans (by rw [now])⟩

theorem lowRequest_refused {r : Nat} (hr : r ∈ [0, 1]) (late : s.ck.woke.get none d ≠ some s.now)
    (awake : s.domState d = 2) (used : s.domUsed d = true) :
    ∃ t, exec (if r = 0 then .reqOff m d else .reqStandby m d) s = .next t ∧ t.domState d = 2 ∧
      t.fld (CK_DOM d) CK_DOM_REQ = s.fld (CK_DOM d) CK_DOM_REQ ∧ EventSet t BLK_CK 5 ∧
      Reported s t 0x0041 (BitVec.ofNat 8 d) 0 ∧ Frame (s.busGrant m) t [CK_DOM d] [BLK_CK] := by
  obtain ⟨ck, now⟩ := busGrant_ck s m
  have low : r < 2 := by simp only [List.mem_cons, List.not_mem_nil, or_false] at hr; omega
  have run := lowRequest_run s m d hr
  rw [domCommand_permitted permitted r, lowWrite_refused (s.busGrant m) d low (by rw [ck, now]; exact late)
    ((domState_busGrant s m d).trans awake) ((domUsed_busGrant s m d).trans used)] at run
  have reg : (s.busGrant m).reg (CK_DOM d) = s.reg (CK_DOM d) := reg_busGrant s m _
  have si := busGrant_si s m
  generalize s.busGrant m = u at *
  obtain ⟨v, hv⟩ : ∃ v, (u.setReg (CK_DOM d) (u.reg (CK_DOM d))).setEvt BLK_CK 5 = v := ⟨_, rfl⟩
  have notMem : CK_DOM d ∉ reportRegs [BLK_CK] :=
    notMem_reportRegs_one (b := BLK_CK) 0x100020 rfl (by unfold CK_DOM; omega)
  have notNil : CK_DOM d ∉ reportRegs [] := notMem_reportRegs_nil (by unfold CK_DOM; omega)
  have regv : v.reg (CK_DOM d) = s.reg (CK_DOM d) := by
    rw [← hv, reg_setEvt_of_notMem _ _ _ _ notMem, reg_setReg_same, reg]
  have event : EventSet v BLK_CK 5 := hv ▸ setEvt_eventSet _ _ _ (by decide)
  have siv : v.si = s.si := by rw [← hv, setEvt_si, setReg_si, si]
  have frame : Frame u v [CK_DOM d] [BLK_CK] := hv ▸ ((Frame.refl _ _ _).setReg (by simp)).setEvt (by simp)
  rw [hv] at run
  have regt : (v.fault 0x0041 d).reg (CK_DOM d) = s.reg (CK_DOM d) := (reg_fault _ _ _ _ _ notNil).trans regv
  exact ⟨_, run, (fld_of_reg _ regt).trans awake, fld_of_reg _ regt, event.fault _ _ _,
    fault_reportedFrom _ _ _ (by rw [siv]), frame.fault⟩

theorem awakeRequest_wakes (asleep : s.domState d ≤ 1 ∧ s.ck.entry.get none d = none) :
    ∃ t, exec (.reqAwake m d) s = .next t ∧ CkOnly (s.busGrant m) t d ∧ t.domState d = 3 ∧
      t.fld (CK_DOM d) CK_DOM_REQ = 2 ∧
      t.ck.waking.get none d = some { fromOff := s.domState d == 0, since := s.now, late := false } := by
  obtain ⟨ck, now⟩ := busGrant_ck s m
  have run : exec (.reqAwake m d) s = .next (s.domCommand m d 2) := rfl
  rw [domCommand_permitted permitted 2] at run
  obtain ⟨only, state, req, waking⟩ := awakeWrite_wakes (s.busGrant m) d (by rw [domState_busGrant]; exact asleep.1)
    (by rw [ck]; exact asleep.2)
  exact ⟨_, run, only, state, req, waking.trans (by rw [domState_busGrant, now])⟩

end

/-! ### Wake sources -/

section
variable {s : State} {d : Fin 3}

theorem wakeSource_run {src : Fin 4} (on : (s.fld (CK_DOM d) CK_DOM_WAKESRC).testBit src = true) :
    exec (.wakeSource d src) s = .next (s.sourceWakes d) := congrArg Host.Outcome.next (if_pos on)

/-- Where no request below AWAKE was written in this cycle, nothing is undone. -/
theorem undoLowered_none (late : ∀ x, s.ck.lowered.get none d = some x → x.1 ≠ s.now) : s.undoLowered d = s := by
  unfold State.undoLowered
  split
  · next t old h => exact if_neg (late _ h)
  · rfl

/-- The state in which a source asks its domain to wake. -/
theorem sourceWakes_asks (late : ∀ x, s.ck.lowered.get none d = some x → x.1 ≠ s.now) :
    ∃ v, s.sourceWakes d = v.wakeDom d ∧ CkOnly s v d ∧ v.domState d = s.domState d ∧
      v.fld (CK_DOM d) CK_DOM_REQ = 2 ∧ v.ck.entry = s.ck.entry ∧ v.now = s.now := by
  unfold State.sourceWakes
  rw [undoLowered_none late]
  refine ⟨_, rfl, ((CkOnly.refl s d).setFld _ _).onCk _, fld_setFld_field _ _ _ _ _ (by decide),
    fld_setFld_same s _ _ _ (by decide), rfl, rfl⟩

theorem source_wakes {src : Fin 4} (on : (s.fld (CK_DOM d) CK_DOM_WAKESRC).testBit src = true)
    (late : ∀ x, s.ck.lowered.get none d = some x → x.1 ≠ s.now)
    (asleep : s.domState d ≤ 1 ∧ s.ck.entry.get none d = none) :
    ∃ t, exec (.wakeSource d src) s = .next t ∧ CkOnly s t d ∧ t.domState d = 3 ∧ t.fld (CK_DOM d) CK_DOM_REQ = 2 ∧
      t.ck.waking.get none d = some { fromOff := s.domState d == 0, since := s.now, late := false } := by
  have run := wakeSource_run on
  obtain ⟨v, wakes, only, state, req, entry, now⟩ := sourceWakes_asks late
  have begins := wakeDom_begins (t := v) (d := d) (by rw [entry]; exact asleep.2) (by rw [state]; exact asleep.1)
  rw [wakes, begins] at run
  obtain ⟨only', state', kept, waking, -⟩ := wakeBegin_shows only (v.domState d == 0)
  exact ⟨_, run, only', state', kept.trans req, waking.trans (by rw [state, now])⟩

theorem source_awake {src : Fin 4} (on : (s.fld (CK_DOM d) CK_DOM_WAKESRC).testBit src = true)
    (late : ∀ x, s.ck.lowered.get none d = some x → x.1 ≠ s.now) (awake : s.domState d = 2)
    (none : s.ck.entry.get none d = none) :
    ∃ t, exec (.wakeSource d src) s = .next t ∧ CkOnly s t d ∧ t.domState d = 2 ∧ t.fld (CK_DOM d) CK_DOM_REQ = 2 := by
  have run := wakeSource_run on
  obtain ⟨v, wakes, only, state, req, entry, now⟩ := sourceWakes_asks late
  rw [wakes, wakeDom_awake (by rw [entry]; exact none) (state.trans awake)] at run
  exact ⟨_, run, only, state.trans awake, req⟩

/-- A source that occurs in the cycle of a request below AWAKE undoes it (R458). -/
theorem undoLowered_undoes {old : Word} {e : DomEntry} (lowered : s.ck.lowered.get none d = some (s.now, old))
    (entry : s.ck.entry.get none d = some e) (since : e.since = s.now) (wake : e.wake = false) (before : e.before = 2) :
    ∃ u, s.undoLowered d = u.fault 0x0041 d ∧ u = { s with regs := u.regs, ck := u.ck } ∧ RegsBut s u [CK_DOM d] ∧
      u.domState d = 2 ∧ u.fld (CK_DOM d) CK_DOM_WAKESRC = fldGet CK_DOM_WAKESRC old ∧ u.ck.entry.get none d = none := by
  obtain ⟨w, hw⟩ : ∃ w, (s.setReg (CK_DOM d) old).onCk (fun c => { c with lowered := c.lowered.set none d none }) = w :=
    ⟨_, rfl⟩
  have only : CkOnly s w d := hw ▸ ((CkOnly.refl s d).setReg _).onCk _
  have regw : w.reg (CK_DOM d) = old := by rw [← hw]; exact reg_setReg_same _ _ _
  have entryw : w.ck.entry.get none d = some e := by rw [← hw]; exact entry
  have noww : w.now = s.now := by rw [← hw]; rfl
  refine ⟨(w.onCk fun c => { c with entry := c.entry.set none d none }).setDomState d 2, ?_,
    ((only.onCk _).setFld _ _).1, ((only.onCk _).setFld _ _).2, domState_setDomState _ _ (by decide), ?_,
    Tbl.get_set_same _ _ _ _⟩
  · unfold State.undoLowered
    rw [lowered]
    dsimp only
    rw [if_pos rfl, hw, entryw]
    dsimp only
    rw [if_pos ⟨by rw [since, noww], wake⟩, before]
    rfl
  · rw [State.setDomState, fld_setFld_field _ _ _ _ _ (by decide)]
    exact congrArg _ regw

end

theorem source_undoes {s : State} {d : Fin 3} {src : Fin 4} (on : (s.fld (CK_DOM d) CK_DOM_WAKESRC).testBit src = true)
    {old : Word} {e : DomEntry} (lowered : s.ck.lowered.get none d = some (s.now, old))
    (entry : s.ck.entry.get none d = some e) (since : e.since = s.now) (wake : e.wake = false) (before : e.before = 2) :
    ∃ t, exec (.wakeSource d src) s = .next t ∧ t.domState d = 2 ∧ t.fld (CK_DOM d) CK_DOM_REQ = 2 ∧
      t.fld (CK_DOM d) CK_DOM_WAKESRC = fldGet CK_DOM_WAKESRC old ∧ t.ck.entry.get none d = none ∧
      t.ck.woke.get none d = some s.now ∧ Reported s t 0x0041 (BitVec.ofNat 8 d) 0 ∧
      Frame { s with ck := t.ck } t [CK_DOM d] [] := by
  obtain ⟨u, undoes, only, but, state, src_, none⟩ := undoLowered_undoes lowered entry since wake before
  have run := wakeSource_run on
  unfold State.sourceWakes at run
  rw [undoes] at run
  have siu : u.si = s.si := by rw [only]
  have nowu : u.now = s.now := by rw [only]
  have quiet := fault_quiet u 0x0041 d 0
  have reported := fault_reportedFrom (s := s) (t := u) 0x0041 d 0 (by rw [siu])
  have frame : Frame { s with ck := u.ck } (u.fault 0x0041 d) [CK_DOM d] [] :=
    Frame.fault ⟨by rw [only]; rfl, fun off ho => but off fun h => ho (List.mem_append_left _ h)⟩
  have regw : (u.fault 0x0041 d).reg (CK_DOM d) = u.reg (CK_DOM d) :=
    reg_fault _ _ _ _ _ (notMem_reportRegs_nil (by unfold CK_DOM; omega))
  generalize u.fault 0x0041 d = w at *
  dsimp only at run
  obtain ⟨v, hv⟩ : ∃ v, (w.setFld (CK_DOM d) CK_DOM_REQ 2).onCk (fun c =>
    { c with woke := c.woke.set Option.none d (some w.now) }) = v := ⟨_, rfl⟩
  rw [hv] at run
  have statev : v.domState d = 2 := by
    rw [← hv]
    exact (fld_setFld_field w _ _ _ _ (by decide)).trans ((fld_of_reg _ regw).trans state)
  have srcv : v.fld (CK_DOM d) CK_DOM_WAKESRC = fldGet CK_DOM_WAKESRC old := by
    rw [← hv]
    exact (fld_setFld_field w _ _ _ _ (by decide)).trans ((fld_of_reg _ regw).trans src_)
  have reqv : v.fld (CK_DOM d) CK_DOM_REQ = 2 := by rw [← hv]; exact fld_setFld_same w _ _ _ (by decide)
  have entryv : v.ck.entry.get Option.none d = Option.none := by
    rw [← hv]
    change w.ck.entry.get Option.none d = _
    rw [quiet.ck, none]
  have wokev : v.ck.woke.get Option.none d = some s.now := by
    rw [← hv]
    exact (Tbl.get_set_same _ _ _ _).trans (by rw [quiet.now, nowu])
  rw [wakeDom_awake entryv statev] at run
  refine ⟨v, run, statev, reqv, srcv, entryv, wokev, reported.of_si (by rw [← hv]; rfl) (by rw [← hv]; rfl), ?_⟩
  obtain ⟨same, regs⟩ := frame
  refine ⟨?_, fun off ho => ?_⟩
  · rw [← hv]
    unfold Quiet at *
    rw [same]
    rfl
  · have kept : v.reg off = w.reg off := by
      rw [← hv]
      exact reg_setFld_other w _ _ _ _ fun h => ho (h ▸ by simp)
    exact kept.trans (regs off ho)

theorem requestsOfDomains : domainRequests := by
  intro s m d
  refine ⟨fun i hi => ?_, fun permitted => ⟨fun r hr woke => lowRequest_loses permitted hr woke,
    fun r hr late awake free => ?_, fun r hr late awake used => lowRequest_refused permitted hr late awake used,
    fun asleep => ?_⟩, fun src on old e => source_undoes on, fun src on late => ⟨fun asleep => ?_, fun awake none => ?_⟩,
    fun src off => ?_⟩
  · rcases hi with rfl | rfl | rfl
    · exact denied_of_regGuard rfl
    · exact denied_of_regGuard rfl
    · exact denied_of_regGuard rfl
  · exact lowRequest_begins permitted hr late awake free
  · exact awakeRequest_wakes permitted asleep
  · exact source_wakes on late asleep
  · exact source_awake on late awake none
  · exact congrArg Host.Outcome.next (if_neg (by rw [off]; decide))

/-! ### Ends of entries and wakes -/

theorem capacity_le (s : State) : s.ncap ≤ 126 := by
  have sums : ∀ (f : Nat → Nat) (xs : List Nat) (acc : Nat),
      xs.foldl (fun acc c => acc + min 7 (f c)) acc ≤ acc + 7 * xs.length := by
    intro f xs
    induction xs with
    | nil => exact fun acc => le_refl _
    | cons x xs ih =>
      intro acc
      refine (ih _).trans ?_
      rw [List.length_cons]
      dsimp only
      omega
  exact (sums _ (List.range 18) 0).trans (by rw [List.length_range])

theorem ncap_of_units {s t : State} (h : ∀ u, t.unit u = s.unit u) : t.ncap = s.ncap := by
  unfold State.ncap
  simp only [h]

section
variable {s : State} {d : Fin 3} {w : WakeSt} (waking : s.ck.waking.get none d = some w)
include waking

/-- A wake from standby ends. -/
theorem awake_run (standby : w.fromOff = false) : ∃ u, CkOnly s u d ∧ u.domState d = 2 ∧ u.ck.waking.get none d = none ∧
    exec (.awake d) s = .next ((if d.val = 0 then u.capChanged else u).setEvt BLK_CK d) := by
  obtain ⟨v, hv⟩ : ∃ v, s.onCk (fun c => { c with waking := c.waking.set none d none }) = v := ⟨_, rfl⟩
  have only : CkOnly s v d := hv ▸ (CkOnly.refl s d).onCk _
  refine ⟨v.setDomState d 2, only.setFld _ _, domState_setDomState _ _ (by decide), ?_, ?_⟩
  · rw [← hv]
    exact Tbl.get_set_same _ _ _ _
  · change execAwake d s = _
    unfold execAwake
    rw [waking]
    dsimp only
    rw [standby, if_neg Bool.false_ne_true, hv]

theorem awake_shows (standby : w.fromOff = false) (other : d.val ≠ 0) :
    ∃ t, exec (.awake d) s = .next t ∧ t.domState d = 2 ∧ t.ck.waking.get none d = none ∧
      EventSet t BLK_CK d ∧ t.mem = s.mem ∧ Frame { s with ck := t.ck } t [CK_DOM d] [BLK_CK] := by
  obtain ⟨u, ⟨only, but⟩, state, ended, run⟩ := awake_run waking standby
  rw [if_neg other] at run
  have notMem : CK_DOM d ∉ reportRegs [BLK_CK] :=
    notMem_reportRegs_one (b := BLK_CK) 0x100020 rfl (by unfold CK_DOM; omega)
  have quiet := setEvt_quiet u BLK_CK d
  refine ⟨_, run, ?_, ?_, setEvt_eventSet _ _ _ (by omega), ?_, ?_⟩
  · exact (fld_of_reg _ (reg_setEvt_of_notMem _ _ _ _ notMem)).trans state
  · rw [quiet.ck, ended]
  · rw [quiet.mem, only]
  · rw [quiet.ck]
    have base : Frame { s with ck := u.ck } u [CK_DOM d] [BLK_CK] :=
      ⟨by rw [only]; rfl, fun off ho => but off fun h => ho (List.mem_append_left _ h)⟩
    exact base.setEvt (by simp)

theorem awake_counts (standby : w.fromOff = false) (first : d.val = 0) :
    ∃ t, exec (.awake d) s = .next t ∧ t.domState d = 2 ∧ t.ck.waking.get none d = none ∧
      EventSet t BLK_CK d ∧ t.fld ADM_CAP ADM_CAP_NCAP = s.ncap ∧
      Frame { s with ck := t.ck, adm := t.adm } t [CK_DOM d, ADM_CAP] [BLK_CK] := by
  obtain ⟨u, ⟨only, but⟩, state, ended, run⟩ := awake_run waking standby
  rw [if_pos first] at run
  have units : u.ncap = s.ncap := ncap_of_units fun x => fld_of_reg _ (but _ (by
    rw [List.mem_singleton]
    unfold ST_USTAT CK_DOM
    omega))
  have le := capacity_le s
  have counted : u.capChanged.fld ADM_CAP ADM_CAP_NCAP = s.ncap ∧ u.capChanged.reg (CK_DOM d) = u.reg (CK_DOM d) ∧
      u.capChanged.ck = u.ck ∧
      Frame { u with adm := u.capChanged.adm } u.capChanged [CK_DOM d, ADM_CAP] [BLK_CK] := by
    unfold State.capChanged
    split
    · next same => exact ⟨same.trans units, rfl, rfl, Frame.refl _ _ _⟩
    · refine ⟨?_, reg_setFld_other u _ _ _ _ (by unfold CK_DOM ADM_CAP; omega), rfl, ?_⟩
      · refine (fld_setFld_same u _ _ _ (by decide)).trans ?_
        rw [units]
        exact Nat.mod_eq_of_lt (by change _ < 256; omega)
      · exact Frame.setFld (s := { u with adm := _ }) (Frame.refl _ _ _) (by simp)
  obtain ⟨cap, dom, ck, frame⟩ := counted
  have notMem : CK_DOM d ∉ reportRegs [BLK_CK] :=
    notMem_reportRegs_one (b := BLK_CK) 0x100020 rfl (by unfold CK_DOM; omega)
  have quiet := setEvt_quiet u.capChanged BLK_CK d
  generalize u.capChanged = v at *
  refine ⟨_, run, ?_, ?_, setEvt_eventSet _ _ _ (by omega), ?_, ?_⟩
  · exact (fld_of_reg _ ((reg_setEvt_of_notMem _ _ _ _ notMem).trans dom)).trans state
  · rw [quiet.ck, ck, ended]
  · exact (fld_of_reg _ (reg_setEvt_of_notMem _ _ _ _ (by decide))).trans cap
  · rw [quiet.ck, quiet.adm]
    obtain ⟨same, regs⟩ := frame
    have base : Frame { s with ck := v.ck, adm := v.adm } v [CK_DOM d, ADM_CAP] [BLK_CK] := by
      refine ⟨?_, fun off ho => (regs off ho).trans ?_⟩
      · rw [ck]
        unfold Quiet at *
        rw [same, only]
      · exact but off fun h => ho (List.mem_append_left _ (by rw [List.mem_singleton] at h; rw [h]; simp))
    exact base.setEvt (by simp)

theorem wakeLate_reports (fresh : w.late = false) (late : w.since + (if w.fromOff then 25000 else 4000) < s.now) :
    ∃ t, exec (.wakeLate d) s = .next t ∧ Reported s t 0x2046 (BitVec.ofNat 8 d) 0 ∧
      t.ck.waking.get none d = some { w with late := true } ∧ Frame { s with ck := t.ck } t [] [] := by
  obtain ⟨v, hv⟩ : ∃ v, s.onCk (fun c => { c with waking := c.waking.set none d (some { w with late := true }) }) = v :=
    ⟨_, rfl⟩
  have run : exec (.wakeLate d) s = .next (v.fault 0x2046 d) := by
    change execWakeLate d s = _
    unfold execWakeLate
    rw [waking]
    dsimp only
    rw [fresh, Bool.false_or, if_neg (by simpa using late), hv]
  have shown : v.ck.waking.get none d = some { w with late := true } := by rw [← hv]; exact Tbl.get_set_same _ _ _ _
  have si : v.si = s.si := by rw [← hv]; rfl
  have frame : Frame { s with ck := v.ck } v [] [] := by rw [← hv]; exact Frame.refl _ _ _
  refine ⟨_, run, fault_reportedFrom _ _ _ (by rw [si]), ?_, ?_⟩
  · rw [(fault_quiet _ _ _ _).ck, shown]
  · rw [(fault_quiet _ _ _ _).ck]
    exact frame.fault

theorem wakeLate_waits (early : w.late = true ∨ s.now ≤ w.since + (if w.fromOff then 25000 else 4000)) :
    exec (.wakeLate d) s = .next s := by
  change execWakeLate d s = _
  unfold execWakeLate
  rw [waking]
  dsimp only
  refine congrArg _ (if_pos ?_)
  rw [Bool.or_eq_true, decide_eq_true_eq]
  exact early

end

section
variable {s : State} {d : Fin 3} {e : DomEntry} (entry : s.ck.entry.get none d = some e)
include entry

/-- The end of an entry into standby. -/
theorem entryComplete_run (target : e.target = 1) : ∃ u, CkOnly s u d ∧ u.domState d = 1 ∧ u.ck.entry.get none d = none ∧
    u.now = s.now ∧ exec (.entryComplete d) s = .next (if e.wake = true then u.wakeBegin d false else u) := by
  obtain ⟨v, hv⟩ : ∃ v, s.onCk (fun c => { c with entry := c.entry.set none d none }) = v := ⟨_, rfl⟩
  have only : CkOnly s v d := hv ▸ (CkOnly.refl s d).onCk _
  refine ⟨v.setDomState d 1, only.setFld _ _, domState_setDomState _ _ (by decide), ?_, ?_, ?_⟩
  · rw [← hv]
    exact Tbl.get_set_same _ _ _ _
  · rw [← hv]
    rfl
  · change execEntryComplete d s = _
    unfold execEntryComplete
    rw [entry]
    dsimp only
    rw [target, if_neg Nat.one_ne_zero, hv]
    rfl

theorem entry_wakes (wake : e.wake = true) (target : e.target = 1) :
    ∃ t, exec (.entryComplete d) s = .next t ∧ CkOnly s t d ∧ t.domState d = 3 ∧ t.ck.entry.get none d = none ∧
      t.ck.waking.get none d = some { fromOff := false, since := s.now, late := false } := by
  obtain ⟨u, only, -, ended, now, run⟩ := entryComplete_run entry target
  rw [if_pos wake] at run
  obtain ⟨only', state, -, waking, entry'⟩ := wakeBegin_shows only false
  exact ⟨_, run, only', state, by rw [entry', ended], waking.trans (by rw [now])⟩

theorem entry_ends (sleeps : e.wake = false) (target : e.target = 1) :
    ∃ t, exec (.entryComplete d) s = .next t ∧ CkOnly s t d ∧ t.domState d = 1 ∧ t.ck.entry.get none d = none := by
  obtain ⟨u, only, state, ended, -, run⟩ := entryComplete_run entry target
  rw [if_neg (by rw [sleeps]; decide)] at run
  exact ⟨_, run, only, state, ended⟩

end

/-- The registers of a block that is reset read their reset values; all others stay. -/
theorem reg_resetBlock (s : State) (blk off : Nat) :
    (s.resetBlock blk).reg off = if off / 0x100000 = blk then regReset off else s.reg off := by
  unfold State.resetBlock State.reg
  dsimp only
  split
  · next h =>
    refine Tbl.get_absent _ _ _ fun e he at_ => ?_
    rw [List.mem_filter, decide_eq_true_eq] at he
    exact he.2 (at_ ▸ h)
  · next h => exact Tbl.get_filter _ _ _ _ fun _ => decide_eq_true h

/-- What the reset of domain 1 leaves. -/
theorem domReset_one (s : State) :
    (∀ off, off / 0x100000 ∈ [BLK_BA, BLK_DS, BLK_DL, BLK_BQ] → (s.domReset 1).reg off = regReset off) ∧
    (∀ off, off / 0x100000 ∉ [BLK_BA, BLK_DS, BLK_DL, BLK_BQ] → (s.domReset 1).reg off = s.reg off) ∧
    (∀ a, SRAM_BASE ≤ a → a < SRAM_BASE + 0x4000000 → memByte (s.domReset 1).mem a = 0) ∧
    (s.domReset 1).ds = DsSt.reset ∧ (s.domReset 1).adm = s.adm ∧ (s.domReset 1).ve = s.ve := by
  obtain ⟨u, hu⟩ : ∃ u : State, { s with ds := DsSt.reset, dl := { lanes := [], hubs := [] } } = u := ⟨_, rfl⟩
  have regs : (s.domReset 1).regs =
      ((((u.resetBlock BLK_BA).resetBlock BLK_DS).resetBlock BLK_DL).resetBlock BLK_BQ).regs := by rw [← hu]; rfl
  have values : ∀ off, (s.domReset 1).reg off =
      if off / 0x100000 = BLK_BQ then regReset off else if off / 0x100000 = BLK_DL then regReset off
      else if off / 0x100000 = BLK_DS then regReset off else if off / 0x100000 = BLK_BA then regReset off
      else s.reg off := fun off => by
    rw [reg_of_regs regs, reg_resetBlock, reg_resetBlock, reg_resetBlock, reg_resetBlock, ← hu]
    rfl
  refine ⟨fun off ho => ?_, fun off ho => ?_, fun a lo hi => ?_, rfl, rfl, rfl⟩
  · rw [values]
    simp only [List.mem_cons, List.not_mem_nil, or_false] at ho
    rcases ho with h | h | h | h <;> simp [h]
  · rw [values]
    simp only [List.mem_cons, List.not_mem_nil, or_false, not_or] at ho
    obtain ⟨ba, ds, dl, bq⟩ := ho
    rw [if_neg bq, if_neg dl, if_neg ds, if_neg ba]
  · have mem : (s.domReset 1).mem = memClear (memClear (memClear s.mem SRAM_BASE 0x4000000) DS_TABLES 0x800000)
        DL_REPLAY 0x400000 := rfl
    rw [mem, memByte_clear, memByte_clear, memByte_clear,
      if_pos (c := SRAM_BASE ≤ a ∧ a < SRAM_BASE + 0x4000000) ⟨lo, hi⟩, ite_self, ite_self]

theorem entry_resets {s : State} {d : Fin 3} {e : DomEntry} (entry : s.ck.entry.get none d = some e)
    (sleeps : e.wake = false) (target : e.target = 0) (one : d.val = 1) :
    ∃ t, exec (.entryComplete d) s = .next t ∧ t.domState d = 0 ∧
      (∀ off, off / 0x100000 ∈ [BLK_BA, BLK_DS, BLK_DL, BLK_BQ] → t.reg off = regReset off) ∧
      (∀ off, off / 0x100000 ∉ [BLK_BA, BLK_DS, BLK_DL, BLK_BQ, BLK_CK] → t.reg off = s.reg off) ∧
      (∀ a, SRAM_BASE ≤ a → a < SRAM_BASE + 0x4000000 → memByte t.mem a = 0) ∧
      t.ds = DsSt.reset ∧ t.adm = s.adm ∧ t.ve = s.ve := by
  obtain ⟨v, hv⟩ : ∃ v, (s.onCk fun c => { c with entry := c.entry.set none d none }).setDomState d 0 = v := ⟨_, rfl⟩
  have run : exec (.entryComplete d) s = .next (v.domReset 1) := by
    change execEntryComplete d s = _
    unfold execEntryComplete
    rw [entry]
    dsimp only
    rw [target, if_pos rfl, hv, sleeps, if_neg Bool.false_ne_true, one]
  have state : v.domState d = 0 := hv ▸ domState_setDomState _ _ (by decide)
  have other : ∀ off, off / 0x100000 ≠ BLK_CK → v.reg off = s.reg off := fun off ho => by
    rw [← hv, State.setDomState, reg_setFld_other _ _ _ _ _ fun h => ho (by rw [h]; unfold CK_DOM BLK_CK; omega)]
    rfl
  have adm : v.adm = s.adm ∧ v.ve = s.ve := by rw [← hv]; exact ⟨rfl, rfl⟩
  obtain ⟨inside, outside, memory, ds, adm', ve'⟩ := domReset_one v
  generalize v.domReset 1 = t at *
  refine ⟨t, run, ?_, inside, fun off ho => ?_, memory, ds, adm'.trans adm.1, ve'.trans adm.2⟩
  · refine (fld_of_reg _ (outside _ ?_)).trans state
    rw [one]
    decide
  · simp only [List.mem_cons, List.not_mem_nil, or_false, not_or] at ho
    obtain ⟨ba, ds_, dl, bq, ck⟩ := ho
    exact (outside off (by simp [ba, ds_, dl, bq])).trans (other off ck)

theorem domainsSleep : fastDomainsSleepAndWake := by
  intro s d
  refine ⟨fun w waking => ⟨awake_shows waking, awake_counts waking, wakeLate_reports waking, wakeLate_waits waking⟩,
    fun none => ⟨?_, ?_⟩, fun none => ?_, fun e entry => entry_wakes entry,
    fun e entry sleeps => ⟨entry_ends entry sleeps, entry_resets entry sleeps⟩⟩
  · change execAwake d s = _
    unfold execAwake
    rw [none]
  · change execWakeLate d s = _
    unfold execWakeLate
    rw [none]
  · change execEntryComplete d s = _
    unfold execEntryComplete
    rw [none]

/-- Settles O59: requests and sources put the fast domains to sleep and wake them, and an entry ends in its state. -/
theorem domainsSleepAndWake : Obligations.DomainsSleepAndWake := ⟨requestsOfDomains, domainsSleep⟩

end Sys2Proof.Machine

/-!
Power, supply rails, crystals and PLLs (R451 to R455, R460): a source of a pair is taken in one way
(SourceIs), and each loss or return of a crystal or PLL is that rule after one bit of CK_CLK.
-/

namespace Sys2Proof.Machine

/-! ### The reset of power (R451, R460) -/

theorem reg_of_noRegs {t : State} (h : t.regs = []) (off : Nat) : t.reg off = regReset off := by
  unfold State.reg
  rw [h]
  rfl

theorem powerReset_resets (s : State) (good : Bool) : hasReset s (s.powerReset good) := by
  refine ⟨fun off _ => reg_of_noRegs rfl off, fun a ha => ?_, fun a ha => ?_, rfl, rfl, rfl, rfl, fun k => rfl, rfl, rfl⟩
  · refine Tbl.get_absent _ _ _ fun e he at_ => ?_
    have lo : 0x800000000000 ≤ e.1 := of_decide_eq_true (List.mem_filter.1 he).2
    omega
  · exact Tbl.get_filter _ _ _ _ fun _ => decide_eq_true ha

/-- Only the Sagger may write CK_SYSRST. -/
theorem sysrst_permits (s : State) (m : Master) : s.permits m (regAddr CK_SYSRST) true = decide (m = .si) := by
  have region : s.region (regAddr CK_SYSRST) = .regs := rfl
  unfold State.permits
  have outside : inSagger (regAddr CK_SYSRST) = false := by decide
  have scratch : inScratch (regAddr CK_SYSRST) = false := by decide
  have only : siOnlyReg (regAddr CK_SYSRST - 0x180000000000) = true := by decide
  rw [outside, scratch, only, region, Bool.and_false, if_neg Bool.false_ne_true, if_neg Bool.false_ne_true]
  rfl

/-- The grant of the bus touches no state that a reset keeps. -/
theorem hasReset_busGrant {s t : State} {m : Master} (h : hasReset (s.busGrant m) t) : hasReset s t := by
  have same : (s.busGrant m).mem = s.mem ∧ (s.busGrant m).pending = s.pending ∧ (s.busGrant m).boot = s.boot := by
    unfold State.busGrant
    split <;> exact ⟨rfl, rfl, rfl⟩
  unfold hasReset at *
  rwa [same.1, same.2.1, same.2.2] at h

theorem sysrst_run (s : State) (v : Word) : exec (.ckSysrst .si v) s = .next
    (if v = 0xC1A5 then (s.busGrant .si).powerReset true else s.busGrant .si) :=
  congrArg Host.Outcome.next (regGuard_permitted s ((sysrst_permits s .si).trans rfl))

theorem powerSupplied : powerAndSupply := by
  intro s
  refine ⟨fun low => ⟨_, congrArg Host.Outcome.next (if_neg (by rw [low]; decide)), powerReset_resets s true, rfl, rfl⟩,
    fun good => congrArg Host.Outcome.next (if_pos good), ⟨_, rfl, powerReset_resets s false, rfl⟩, ?_, fun v wrong => ?_,
    fun m v other => ?_, fun rail => ⟨?_, fun out => ?_, fun inside => ?_⟩⟩
  · have run := sysrst_run s 0xC1A5
    rw [if_pos rfl] at run
    exact ⟨_, run, hasReset_busGrant (powerReset_resets _ true), rfl⟩
  · rw [sysrst_run, if_neg wrong]
  · have denied : s.permits m (regAddr CK_SYSRST) true = false := (sysrst_permits s m).trans (decide_eq_false other)
    exact ⟨_, congrArg Host.Outcome.next (regGuard_denied s denied), denied_frame s m _⟩
  · obtain ⟨u, hu⟩ : ∃ u, (s.setBit CK_SUP rail true).setEvt BLK_CK 6 = u := ⟨_, rfl⟩
    have run : exec (.supply rail) s = .next (u.fault 0x3045 rail) := by rw [← hu]; rfl
    have shown : u.reg CK_SUP = (s.setBit CK_SUP rail true).reg CK_SUP := by
      rw [← hu]
      exact reg_setEvt_of_notMem _ _ _ _ (by decide)
    have event : EventSet u BLK_CK 6 := hu ▸ setEvt_eventSet _ _ _ (by decide)
    have si : u.si = s.si := by rw [← hu, setEvt_si]; rfl
    have frame : Frame s u [CK_SUP] [BLK_CK] :=
      hu ▸ (Frame.setFld (f := ⟨rail, 1⟩) (Frame.refl _ _ _) (by simp)).setEvt (by simp)
    refine ⟨_, run, ?_, event.fault _ _ _, fault_reportedFrom _ _ _ (by rw [si]), frame.fault⟩
    rw [State.rbit, reg_fault _ _ _ _ _ (by decide), shown]
    exact rbit_setBit_same _ _ _ _ (by omega)
  · exact ⟨_, congrArg Host.Outcome.next (if_pos out), rbit_setBit_same _ _ _ _ (by omega), rfl,
      (RegsBut.refl s _).setFld (f := ⟨rail, 1⟩) (by simp)⟩
  · exact congrArg Host.Outcome.next (if_neg (by rw [inside]; decide))

/-! ### The bits of CK_CLK -/

section
variable (s : State)

theorem rbit_setFld_other (off i : Nat) (f : Fld) (x : Nat) (h : i < f.lo ∨ f.lo + f.w ≤ i) :
    (s.setFld off f x).rbit off i = s.rbit off i := by
  rw [State.rbit, State.rbit, reg_setFld_same]
  by_cases hi : i < 32
  · rw [getLsbD_fldPut _ _ _ _ hi, if_neg (by omega)]
  · rw [BitVec.getLsbD_of_ge _ _ (by omega), BitVec.getLsbD_of_ge _ _ (by omega)]

theorem fld_setBit_other (off i : Nat) (b : Bool) (f : Fld) (h : i < f.lo ∨ f.lo + f.w ≤ i) :
    (s.setBit off i b).fld off f = s.fld off f :=
  fld_setFld_field s off ⟨i, 1⟩ f (b2n b) (by dsimp only; omega)

theorem rbit_of_reg {s t : State} {off : Nat} (i : Nat) (h : t.reg off = s.reg off) : t.rbit off i = s.rbit off i := by
  rw [State.rbit, State.rbit, h]

end

/-! ### A source becomes the one in use (R429, R453, R454) -/

/-- A clock source is taken, and its pair rests. -/
def State.sourceTaken (s : State) (f : Fld) (base x : Nat) : State :=
  ((s.setFld CK_CLK f x).setUnit (base + x) 0).sourceRests (base + (1 - x))

theorem unit_setUnit_same (s : State) (u : Nat) {v : Nat} (hv : v < 4) : (s.setUnit u v).unit u = v :=
  (fld_setFld_same s _ _ _ (by decide)).trans (Nat.mod_eq_of_lt hv)

theorem unit_setUnit_other (s : State) {u w : Nat} (v : Nat) (h : w ≠ u) : (s.setUnit u v).unit w = s.unit w :=
  fld_setFld_other _ _ _ _ _ _ (by unfold ST_USTAT; omega)

theorem setUnit_ckClk (s : State) (u v : Nat) : (s.setUnit u v).reg CK_CLK = s.reg CK_CLK :=
  reg_setFld_other _ _ _ _ _ (by unfold CK_CLK ST_USTAT; omega)

theorem sourceRests_ckClk (s : State) (u : Nat) : (s.sourceRests u).reg CK_CLK = s.reg CK_CLK := by
  unfold State.sourceRests
  split
  · rfl
  · exact setUnit_ckClk _ _ _

theorem sourceRests_frame {s t : State} {l blks : List Nat} {u : Nat} (h : Frame s t l blks) (hu : ST_USTAT u ∈ l) :
    Frame s (t.sourceRests u) l blks := by
  unfold State.sourceRests
  split
  · exact h
  · exact h.setFld hu

theorem sourceTaken_shows (s : State) (f : Fld) (base : Nat) {x : Nat} (hx : x < 2) :
    (s.sourceTaken f base x).reg CK_CLK = fldPut f x (s.reg CK_CLK) ∧
    (s.sourceTaken f base x).unit (base + x) = 0 ∧
    (s.sourceTaken f base x).unit (base + (1 - x)) = (if s.unit (base + (1 - x)) = 2 then 2 else 3) ∧
    s.sourceTaken f base x = { s with regs := (s.sourceTaken f base x).regs } ∧
    RegsBut s (s.sourceTaken f base x) [CK_CLK, ST_USTAT base, ST_USTAT (base + 1)] := by
  have mem : ∀ y < 2, ST_USTAT (base + y) ∈ [CK_CLK, ST_USTAT base, ST_USTAT (base + 1)] := by
    intro y hy
    have : y = 0 ∨ y = 1 := by omega
    rcases this with rfl | rfl <;> simp
  have ne : base + (1 - x) ≠ base + x := by omega
  unfold State.sourceTaken
  obtain ⟨u, hu⟩ : ∃ u, (s.setFld CK_CLK f x).setUnit (base + x) 0 = u := ⟨_, rfl⟩
  have clk : u.reg CK_CLK = fldPut f x (s.reg CK_CLK) := by
    rw [← hu, setUnit_ckClk, reg_setFld_same]
  have own : u.unit (base + x) = 0 := hu ▸ unit_setUnit_same _ _ (by decide)
  have pair : u.unit (base + (1 - x)) = s.unit (base + (1 - x)) := by
    rw [← hu, unit_setUnit_other _ _ ne]
    exact fld_setFld_other _ _ _ _ _ _ (by unfold CK_CLK ST_USTAT; omega)
  have only : u = { s with regs := u.regs } := by rw [← hu]; rfl
  have but : RegsBut s u [CK_CLK, ST_USTAT base, ST_USTAT (base + 1)] :=
    hu ▸ ((RegsBut.refl s _).setFld (by simp)).setFld (mem x hx)
  rw [hu]
  refine ⟨(sourceRests_ckClk _ _).trans clk, ?_, ?_, ?_, ?_⟩
  · unfold State.sourceRests
    split
    · exact own
    · exact (unit_setUnit_other _ _ (by omega)).trans own
  · unfold State.sourceRests
    rw [pair]
    split
    · next h => rw [pair, h]
    · exact unit_setUnit_same _ _ (by decide)
  · obtain ⟨r, hr⟩ : ∃ r, u = { s with regs := r } := ⟨_, only⟩
    unfold State.sourceRests
    split
    · exact only
    · rw [hr]
      rfl
  · unfold State.sourceRests
    split
    · exact but
    · exact but.setFld (mem _ (by omega))

theorem abandonTest_free {s : State} {u : Nat} (h : s.st.tests.get none u = none) : s.abandonTest u = s := by
  unfold State.abandonTest
  rw [h]

theorem freeSources_free {s : State} {u : Nat} (h : s.st.tests.get none u = none)
    (h1 : s.st.tests.get none (u + 1) = none) : s.freeSources u = s := by
  unfold State.freeSources
  rw [abandonTest_free h, abandonTest_free h1]

/-- No test of the crystals, or of the PLLs, runs. -/
theorem selectXtal_eq {s : State} (x : Nat) (free : ∀ u, 259 ≤ u → u ≤ 262 → s.st.tests.get none u = none) :
    s.selectXtal x = s.sourceTaken CK_CLK_XSEL 261 x := by
  have same : s.freeSources (unitXtal 0) = s :=
    freeSources_free (free 261 (by decide) (by decide)) (free 262 (by decide) (by decide))
  unfold State.selectXtal
  rw [same]
  rfl

theorem selectPll_eq {s : State} (p : Nat) (free : ∀ u, 259 ≤ u → u ≤ 262 → s.st.tests.get none u = none) :
    s.selectPll p = s.sourceTaken CK_CLK_PSEL 259 p := by
  have same : s.freeSources (unitPll 0) = s :=
    freeSources_free (free 259 (by decide) (by decide)) (free 260 (by decide) (by decide))
  unfold State.selectPll
  rw [same]
  rfl

/-- A source of which no test runs is ready unless it is retired. -/
theorem sourceReady_free {s : State} {u : Nat} (h : s.st.tests.get none u = none) :
    s.sourceReady u = (s.unit u != 2) := by
  unfold State.sourceReady
  rw [h]
  simp

theorem abandonSwitch_free {s : State} (h : ∀ u, s.st.waiting ≠ some (4, u)) : s.abandonSwitch = s := by
  unfold State.abandonSwitch
  split
  · next u hu => exact absurd hu (h u)
  · rfl

/-! ### The start of the clocks (R453) -/

/-- A fault that is neither transient nor dangerous, where its block's queue has room. -/
theorem fault_queued (s : State) (code : BitVec 16) (inst info : Nat) (kind : codeClass code ≠ 1 ∧ codeClass code ≠ 3)
    (room : (s.si.queues.get [] (codeBlk code)).length < 8) : ∃ f : FaultIn, f.code = code ∧ f.inst = BitVec.ofNat 8 inst ∧
      s.fault code inst info = { s with si := { s.si with
        queues := s.si.queues.set [] (codeBlk code) (s.si.queues.get [] (codeBlk code) ++ [f]) } } := by
  have calm : (codeClass code == 3) = false := beq_false_of_ne kind.2
  refine ⟨⟨code, BitVec.ofNat 8 inst, BitVec.ofNat 48 info, false,
    false && !s.bit SI_STAT SI_STAT_SAFE && s.si.danger.isEmpty⟩, rfl, rfl, ?_⟩
  unfold State.fault
  rw [if_neg kind.1]
  unfold State.raiseWith
  dsimp only
  rw [calm, if_neg Bool.false_ne_true]
  unfold State.queueFault
  exact if_pos room

/-- The registers of the device as its reset holds it. -/
theorem heldReset_regs (s : State) : (∀ off, off ≠ CK_CLK → s.heldReset.reg off = regReset off) ∧
    ∀ x < 2, s.heldReset.xtalOk x = s.xtalOk x := by
  refine ⟨fun off ho => ?_, fun x hx => ?_⟩
  · unfold State.heldReset
    rw [reg_setReg_other _ _ _ _ ho]
    exact reg_of_noRegs rfl off
  · have held : s.heldReset.reg CK_CLK = ((regReset CK_CLK &&& ~~~xtalBits) ||| (s.reg CK_CLK &&& xtalBits)) := by
      unfold State.heldReset
      rw [reg_setReg_same]
      rfl
    have bit : x = 0 ∨ x = 1 := by omega
    unfold State.xtalOk State.rbit
    rw [held, BitVec.getLsbD_or, BitVec.getLsbD_and, BitVec.getLsbD_and, BitVec.getLsbD_not]
    rcases bit with rfl | rfl <;> simp [xtalBit, xtalBits]

/-- What the start of the clocks has made before a crystal that has not qualified is logged. -/
theorem clocksSelected (s : State) {x : Nat} (hx : x < 2) :
    ∃ v, s.startClocks x = (if v.xtalOk (1 - x) = true then v else v.fault 0x2042 (1 - x)) ∧
      v = { s.heldReset with regs := v.regs, ck := { s.heldReset.ck with qualifying := none } } ∧
      (∀ off, off ∉ [CK_CLK, BOOT_STAT, ST_USTAT 261, ST_USTAT 262] → v.reg off = regReset off) ∧
      v.xsel = x ∧ (∀ y < 2, v.xtalOk y = s.xtalOk y) ∧ v.bootPhase = 1 ∧ v.unit (261 + x) = 0 ∧
      v.unit (261 + (1 - x)) = 3 := by
  obtain ⟨held, bits⟩ := heldReset_regs s
  have free : ∀ u, 259 ≤ u → u ≤ 262 → s.heldReset.st.tests.get none u = none := fun _ _ _ => rfl
  obtain ⟨clk, own, pair, only, but⟩ := sourceTaken_shows s.heldReset CK_CLK_XSEL 261 hx
  rw [← selectXtal_eq x free] at clk own pair only but
  obtain ⟨u, hu⟩ : ∃ u, s.heldReset.selectXtal x = u := ⟨_, rfl⟩
  rw [hu] at clk own pair only but
  have rests : s.heldReset.unit (261 + (1 - x)) ≠ 2 := by
    have reset : s.heldReset.unit (261 + (1 - x)) = fldGet ST_USTAT_STATE (regReset (ST_USTAT (261 + (1 - x)))) :=
      congrArg _ (held _ (by unfold ST_USTAT CK_CLK; omega))
    rw [reset]
    have values : ∀ y < 2, fldGet ST_USTAT_STATE (regReset (ST_USTAT (261 + y))) ≠ 2 := by decide
    exact values _ (by omega)
  rw [if_neg rests] at pair
  have bootNe : CK_CLK ≠ BOOT_STAT := by decide
  have shownClk : ((u.onCk fun c => { c with qualifying := none }).setFld BOOT_STAT BOOT_STAT_PHASE 1).reg CK_CLK =
      fldPut CK_CLK_XSEL x (s.heldReset.reg CK_CLK) := by
    rw [reg_setFld_other _ _ _ _ _ bootNe]
    exact clk
  refine ⟨(u.onCk fun c => { c with qualifying := none }).setFld BOOT_STAT BOOT_STAT_PHASE 1, ?_, ?_, fun off ho => ?_,
    ?_, fun y hy => ?_, ?_, ?_, ?_⟩
  · rw [← hu]
    rfl
  · generalize s.heldReset = h at *
    obtain ⟨r, hr⟩ : ∃ r, u = { h with regs := r } := ⟨_, only⟩
    rw [hr]
    rfl
  · simp only [List.mem_cons, List.not_mem_nil, or_false, not_or] at ho
    obtain ⟨o1, o2, o3, o4⟩ := ho
    rw [reg_setFld_other _ _ _ _ _ o2]
    refine Eq.trans (but off ?_) (held off o1)
    simp only [List.mem_cons, List.not_mem_nil, or_false, not_or]
    exact ⟨o1, o3, o4⟩
  · unfold State.xsel State.fld
    rw [shownClk, fldGet_fldPut_same _ _ _ (by decide)]
    exact Nat.mod_eq_of_lt (by change x < 2; exact hx)
  · refine Eq.trans ?_ (bits y hy)
    unfold State.xtalOk State.rbit
    rw [shownClk, getLsbD_fldPut _ _ _ _ (by unfold xtalBit; omega), if_neg (by unfold xtalBit CK_CLK_XSEL; dsimp only; omega)]
  · exact fld_setFld_same (u.onCk _) _ _ _ (by decide)
  · refine (fld_setFld_other (u.onCk _) _ _ _ _ _ ?_).trans own
    unfold ST_USTAT BOOT_STAT
    omega
  · refine (fld_setFld_other (u.onCk _) _ _ _ _ _ ?_).trans pair
    unfold ST_USTAT BOOT_STAT
    omega

/-- A crystal that has qualified starts the clocks. -/
theorem startClocks_starts {s u : State} {x : Nat} (hx : x < 2) (good : u.ck.pwrgood = true) (ok : u.xtalOk x = true)
    (only : u = { s with regs := u.regs }) (pair : u.xtalOk (1 - x) = s.xtalOk (1 - x)) :
    clocksStarted s (u.startClocks x) x := by
  obtain ⟨v, starts, same, regs, sel, bits, phase, own, rests⟩ := clocksSelected u hx
  have keeps : hasReset s v [CK_CLK, BOOT_STAT, ST_USTAT 261, ST_USTAT 262] := by
    obtain ⟨-, low, high, pending, svn, fp, fs, cores, runs, poison⟩ := powerReset_resets u u.ck.pwrgood
    have mem : u.mem = s.mem := by rw [only]
    have boot : u.boot = s.boot := by rw [only]
    have waits : u.pending = s.pending := by rw [only]
    refine ⟨regs, ?_⟩
    rw [same]
    exact ⟨low, fun a ha => (high a ha).trans (by rw [mem]), pending.trans waits, svn.trans (by rw [boot]),
      fp.trans (by rw [boot]), fs.trans (by rw [boot]), cores, runs, poison⟩
  have now : v.now = s.now := by rw [same, only]; rfl
  have pwr : v.ck.pwrgood = true := by rw [same]; exact good
  have ended : v.ck.qualifying = none := by rw [same]
  have queues : v.si.queues = [] := by rw [same]; rfl
  have okv : v.xtalOk x = true := (bits x hx).trans ok
  have pairv : v.xtalOk (1 - x) = s.xtalOk (1 - x) := (bits _ (by omega)).trans pair
  clear same
  rw [starts]
  by_cases other : v.xtalOk (1 - x) = true
  · rw [if_pos other]
    exact ⟨keeps, now, pwr, ended, sel, okv, pairv, phase, own, rests, fun h => absurd (pairv.symm.trans other) (by rw [h]; decide)⟩
  · rw [if_neg other]
    obtain ⟨f, code, inst, logged⟩ := fault_queued v 0x2042 (1 - x) 0 (by decide) (by rw [queues]; decide)
    rw [logged]
    refine ⟨keeps, now, pwr, ended, sel, okv, pairv, phase, own, rests, fun _ => ⟨f, ?_, code, inst⟩⟩
    refine (Tbl.get_set_same _ _ _ _).trans ?_
    rw [queues]
    rfl

end Sys2Proof.Machine

namespace Sys2Proof.Machine

/-! ### The crystal that returns, and the one that qualifies (R453, R455) -/

/-- The bit of a crystal that has qualified, or is lost, is all that changes. -/
theorem setXtal_shows (s : State) {x : Nat} (hx : x < 2) (b : Bool) :
    (s.setBit CK_CLK (xtalBit x) b).xtalOk x = b ∧
    (s.setBit CK_CLK (xtalBit x) b).xtalOk (1 - x) = s.xtalOk (1 - x) ∧
    (s.setBit CK_CLK (xtalBit x) b).xsel = s.xsel ∧ (s.setBit CK_CLK (xtalBit x) b).psel = s.psel ∧
    (∀ p, (s.setBit CK_CLK (xtalBit x) b).pllLocked p = s.pllLocked p) ∧
    s.setBit CK_CLK (xtalBit x) b = { s with regs := (s.setBit CK_CLK (xtalBit x) b).regs } ∧
    RegsBut s (s.setBit CK_CLK (xtalBit x) b) [CK_CLK] := by
  refine ⟨rbit_setBit_same _ _ _ _ (by unfold xtalBit; omega), rbit_setBit_bit _ _ _ _ _ (by unfold xtalBit; omega),
    fld_setBit_other _ _ _ _ _ (by unfold xtalBit CK_CLK_XSEL; dsimp only; omega),
    fld_setBit_other _ _ _ _ _ (by unfold xtalBit CK_CLK_PSEL; dsimp only; omega),
    fun p => rbit_setBit_bit _ _ _ _ _ (by unfold xtalBit lockBit; omega), rfl, (RegsBut.refl s _).setFld (by simp)⟩

theorem unit_of_reg {s t : State} {u : Nat} (h : t.reg (ST_USTAT u) = s.reg (ST_USTAT u)) : t.unit u = s.unit u :=
  fld_of_reg _ h

theorem unit_ne_ckClk (u : Nat) : ST_USTAT u ≠ CK_CLK := by
  unfold CK_CLK ST_USTAT
  omega

/-- A source of a pair has been taken. -/
def SourceIs (s t : State) (f : Fld) (base x : Nat) : Prop :=
  t.reg CK_CLK = fldPut f x (s.reg CK_CLK) ∧ t.unit (base + x) = 0 ∧
  t.unit (base + (1 - x)) = (if s.unit (base + (1 - x)) = 2 then 2 else 3) ∧ t.si = s.si ∧
  Frame s t [CK_CLK, ST_USTAT base, ST_USTAT (base + 1)] [BLK_CK]

theorem sourceTaken_is (s : State) (f : Fld) (base : Nat) {x : Nat} (hx : x < 2) :
    SourceIs s (s.sourceTaken f base x) f base x := by
  obtain ⟨clk, own, pair, only, but⟩ := sourceTaken_shows s f base hx
  generalize s.sourceTaken f base x = v at *
  obtain ⟨r, hr⟩ : ∃ r, v = { s with regs := r } := ⟨_, only⟩
  refine ⟨clk, own, pair, by rw [hr], ?_, but.mono (List.subset_append_left _ _)⟩
  rw [hr]
  rfl

theorem SourceIs.onCk {s t : State} {f : Fld} {base x : Nat} (c : CkSt) (h : SourceIs s t f base x) :
    SourceIs { s with ck := c } { t with ck := c } f base x := by
  obtain ⟨clk, own, pair, si, quiet, but⟩ := h
  refine ⟨clk, own, pair, si, ?_, but⟩
  unfold Quiet at quiet ⊢
  rw [quiet]

theorem SourceIs.setEvt {s t : State} {f : Fld} {base x : Nat} (n : Nat) (hx : x < 2) (hb : base < 263)
    (h : SourceIs s t f base x) : SourceIs s (t.setEvt BLK_CK n) f base x := by
  obtain ⟨clk, own, pair, si, frame⟩ := h
  have outside : CK_CLK ∉ reportRegs [BLK_CK] := by decide
  have unitOut : ∀ u, u < 265 → ST_USTAT u ∉ reportRegs [BLK_CK] := fun u hu =>
    notMem_reportRegs_one (b := BLK_CK) 0x100020 rfl (by unfold ST_USTAT; omega)
  exact ⟨(reg_setEvt_of_notMem _ _ _ _ outside).trans clk,
    (unit_of_reg (reg_setEvt_of_notMem _ _ _ _ (unitOut _ (by omega)))).trans own,
    (unit_of_reg (reg_setEvt_of_notMem _ _ _ _ (unitOut _ (by omega)))).trans pair,
    (setEvt_si _ _ _).trans si, frame.setEvt (by simp)⟩

/-- The source that a field of CK_CLK names. -/
theorem SourceIs.sel {s t : State} {f : Fld} {base x : Nat} (h : SourceIs s t f base x) (hx : x < 2) (hw : f.w = 1)
    (hl : f.lo + 1 ≤ 32) : t.fld CK_CLK f = x := by
  rw [State.fld, h.1, fldGet_fldPut_same _ _ _ (by omega), hw]
  exact Nat.mod_eq_of_lt hx

theorem SourceIs.bit {s t : State} {f : Fld} {base x i : Nat} (h : SourceIs s t f base x) (hi : i < f.lo ∨ f.lo + f.w ≤ i) :
    t.rbit CK_CLK i = s.rbit CK_CLK i := by
  rw [State.rbit, h.1, ← rbit_setFld_other s CK_CLK i f x hi, State.rbit, reg_setFld_same]

/-- The crystal that returns after the loss of both is selected. -/
theorem crystalReturns {s : State} (free : sourcesFree s) (x : Fin 2) (good : s.ck.pwrgood = true)
    (both : s.ck.bothXtal = true) (kept : s.unit (261 + x.val) ≠ 2) :
    ∃ t, exec (.crystalQualified x) s = .next t ∧ t.xtalOk x = true ∧ t.xsel = x.val ∧
      t.ck.bothXtal = false ∧ t.unit (261 + x.val) = 0 ∧
      t.unit (261 + (1 - x.val)) = (if s.unit (261 + (1 - x.val)) = 2 then 2 else 3) ∧
      (s.xsel ≠ x.val → EventSet t BLK_CK 3) ∧
      Frame { s with ck := t.ck } t [CK_CLK, ST_USTAT 261, ST_USTAT 262] [BLK_CK] := by
  obtain ⟨tests, -⟩ := free
  obtain ⟨shown, -, sel, -, -, only, but⟩ := setXtal_shows s x.isLt true
  obtain ⟨u, hu⟩ : ∃ u, s.setBit CK_CLK (xtalBit x) true = u := ⟨_, rfl⟩
  rw [hu] at shown sel only but
  have units : ∀ y, u.unit y = s.unit y := fun y => unit_of_reg (but _ (by simp [unit_ne_ckClk]))
  have freeU : ∀ y, 259 ≤ y → y ≤ 262 → u.st.tests.get none y = none := by rw [only]; exact tests
  have ready : u.sourceReady (unitXtal x) = true := by
    rw [sourceReady_free (freeU _ (by unfold unitXtal; omega) (by unfold unitXtal; omega)), units]
    exact bne_iff_ne.2 kept
  have bothU : u.ck.bothXtal = true := by rw [only]; exact both
  have ck : u.ck = s.ck := by rw [only]
  have run : exec (.crystalQualified x) s = .next
      (if u.xsel = x then (u.sourceTaken CK_CLK_XSEL 261 x).onCk fun c => { c with bothXtal := false }
       else ((u.sourceTaken CK_CLK_XSEL 261 x).onCk fun c => { c with bothXtal := false }).setEvt BLK_CK 3) := by
    change execCrystalQualified x s = _
    unfold execCrystalQualified
    rw [good, hu]
    dsimp only
    rw [bothU, ready, selectXtal_eq _ freeU]
    rfl
  have frame : Frame { s with ck := { s.ck with bothXtal := false } } { u with ck := { s.ck with bothXtal := false } }
      [CK_CLK, ST_USTAT 261, ST_USTAT 262] [BLK_CK] := by
    refine ⟨?_, but.mono (by simp)⟩
    rw [only]
    rfl
  have only2 := (sourceTaken_shows u CK_CLK_XSEL 261 x.isLt).2.2.2.1
  have taken := (sourceTaken_is u CK_CLK_XSEL 261 x.isLt).onCk { s.ck with bothXtal := false }
  obtain ⟨w, hw⟩ : ∃ w, ({ u.sourceTaken CK_CLK_XSEL 261 x with ck := { s.ck with bothXtal := false } } : State) = w := ⟨_, rfl⟩
  have cleared : (u.sourceTaken CK_CLK_XSEL 261 x).onCk (fun c => { c with bothXtal := false }) = w := by
    rw [← hw]
    have ck2 : (u.sourceTaken CK_CLK_XSEL 261 x).ck = s.ck := by rw [only2]; exact ck
    unfold State.onCk
    rw [ck2]
  have ckw : w.ck = { s.ck with bothXtal := false } := by rw [← hw]
  rw [hw] at taken
  rw [cleared] at run
  have shows : ∀ t : State, SourceIs { u with ck := { s.ck with bothXtal := false } } t CK_CLK_XSEL 261 x →
      t.ck = { s.ck with bothXtal := false } → t.xtalOk x = true ∧ t.xsel = x.val ∧ t.ck.bothXtal = false ∧
      t.unit (261 + x.val) = 0 ∧ t.unit (261 + (1 - x.val)) = (if s.unit (261 + (1 - x.val)) = 2 then 2 else 3) ∧
      Frame { s with ck := t.ck } t [CK_CLK, ST_USTAT 261, ST_USTAT 262] [BLK_CK] := by
    intro t is ckt
    refine ⟨(is.bit (by unfold xtalBit CK_CLK_XSEL; dsimp only; omega)).trans shown, is.sel x.isLt rfl (by decide), by rw [ckt],
      is.2.1, ?_, ?_⟩
    · rw [is.2.2.1]
      exact congrArg (fun y => if y = 2 then 2 else 3) (units _)
    · rw [ckt]
      exact frame.trans is.2.2.2.2
  by_cases same : u.xsel = x
  · rw [if_pos same] at run
    obtain ⟨h1, h2, h3, h4, h5, h6⟩ := shows w taken ckw
    exact ⟨w, run, h1, h2, h3, h4, h5, fun ne => absurd (sel.symm.trans same) ne, h6⟩
  · rw [if_neg same] at run
    obtain ⟨h1, h2, h3, h4, h5, h6⟩ := shows _ (taken.setEvt 3 x.isLt (by decide)) ((setEvt_quiet w BLK_CK 3).ck.trans ckw)
    exact ⟨_, run, h1, h2, h3, h4, h5, fun _ => setEvt_eventSet _ _ _ (by decide), h6⟩

/-! ### Selection at power-up (R453) -/

/-- A crystal that qualifies, where none returns after the loss of both, shows its bit and may start the clocks. -/
theorem qualified_run {s : State} (free : sourcesFree s) (x : Fin 2) (good : s.ck.pwrgood = true)
    (none : s.ck.bothXtal = false ∨ s.unit (261 + x.val) = 2) :
    exec (.crystalQualified x) s = .next (s.setBit CK_CLK (xtalBit x) true).tryClocks := by
  obtain ⟨tests, -⟩ := free
  obtain ⟨-, -, -, -, -, only, but⟩ := setXtal_shows s x.isLt true
  obtain ⟨u, hu⟩ : ∃ u, s.setBit CK_CLK (xtalBit x) true = u := ⟨_, rfl⟩
  rw [hu] at only but
  have unit : u.unit (unitXtal x) = s.unit (261 + x.val) := unit_of_reg (but _ (by simp [unit_ne_ckClk]))
  have ready : u.sourceReady (unitXtal x) = (s.unit (261 + x.val) != 2) := by
    rw [sourceReady_free (by rw [only]; exact tests _ (by unfold unitXtal; omega) (by unfold unitXtal; omega)), unit]
  have bothU : u.ck.bothXtal = s.ck.bothXtal := by rw [only]
  change execCrystalQualified x s = _
  unfold execCrystalQualified
  rw [good, hu]
  dsimp only
  rw [bothU, ready]
  rcases none with h | h <;> simp [h]

theorem tryClocks_none {s : State} (h : s.ck.qualifying = none) : s.tryClocks = s := by
  unfold State.tryClocks
  rw [h]

theorem tryClocks_age {s : State} {t0 : Nat} (h : s.ck.qualifying = some t0) : s.tryClocks =
    if 1000000 < s.now - t0 then s
    else if s.now - t0 ≤ 300000 then (if s.xtalOk 0 then s.startClocks 0 else s)
    else if s.xtalOk 1 then s.startClocks 1 else if s.xtalOk 0 then s.startClocks 0 else s := by
  unfold State.tryClocks
  rw [h]
  rfl

end Sys2Proof.Machine

namespace Sys2Proof.Machine

/-- A crystal that qualifies while the device waits for one (R453). -/
theorem crystalQualifies {s : State} (free : sourcesFree s) {t0 : Nat} (good : s.ck.pwrgood = true)
    (both : s.ck.bothXtal = false) (waits : s.ck.qualifying = some t0) :
    let shown (t : State) (x : Fin 2) : Prop :=
      t.xtalOk x = true ∧ t = { s with regs := t.regs } ∧ RegsBut s t [CK_CLK]
    let age := s.now - t0
    (age ≤ 300000 → ∃ t, exec (.crystalQualified 0) s = .next t ∧ clocksStarted s t 0) ∧
    (age ≤ 300000 → s.xtalOk 0 = false → ∃ t, exec (.crystalQualified 1) s = .next t ∧ shown t 1) ∧
    (300000 < age → age ≤ 1000000 →
      (∃ t, exec (.crystalQualified 1) s = .next t ∧ clocksStarted s t 1) ∧
      (s.xtalOk 1 = false → ∃ t, exec (.crystalQualified 0) s = .next t ∧ clocksStarted s t 0)) ∧
    (1000000 < age → ∀ x, ∃ t, exec (.crystalQualified x) s = .next t ∧ shown t x) := by
  intro shown age
  have run : ∀ x : Fin 2, ∃ u, exec (.crystalQualified x) s = .next
      (if 1000000 < age then u
       else if age ≤ 300000 then (if u.xtalOk 0 then u.startClocks 0 else u)
       else if u.xtalOk 1 then u.startClocks 1 else if u.xtalOk 0 then u.startClocks 0 else u) ∧
      u.xtalOk x = true ∧ u.xtalOk (1 - x.val) = s.xtalOk (1 - x.val) ∧ u.ck.pwrgood = true ∧ shown u x := by
    intro x
    obtain ⟨ok, pair, -, -, -, only, but⟩ := setXtal_shows s x.isLt true
    have run := qualified_run free x good (.inl both)
    obtain ⟨u, hu⟩ : ∃ u, s.setBit CK_CLK (xtalBit x) true = u := ⟨_, rfl⟩
    rw [hu] at ok pair only but run
    have waitsU : u.ck.qualifying = some t0 := by rw [only]; exact waits
    have now : u.now = s.now := by rw [only]
    rw [tryClocks_age waitsU, now] at run
    exact ⟨u, run, ok, pair, by rw [only]; exact good, ok, only, but⟩
  refine ⟨fun early => ?_, fun early unready => ?_, fun late soon => ⟨?_, fun unready => ?_⟩, fun late x => ?_⟩
  · obtain ⟨u, run, ok, pair, good, -, only, -⟩ := run 0
    rw [if_neg (by omega), if_pos early, if_pos (show u.xtalOk 0 = true from ok)] at run
    exact ⟨_, run, startClocks_starts (x := 0) (by decide) good ok only pair⟩
  · obtain ⟨u, run, ok, pair, good, shown⟩ := run 1
    rw [if_neg (by omega), if_pos early, if_neg (by rw [show u.xtalOk 0 = false from pair.trans unready]; decide)] at run
    exact ⟨_, run, shown⟩
  · obtain ⟨u, run, ok, pair, good, -, only, -⟩ := run 1
    rw [if_neg (by omega), if_neg (by omega), if_pos (show u.xtalOk 1 = true from ok)] at run
    exact ⟨_, run, startClocks_starts (x := 1) (by decide) good ok only pair⟩
  · obtain ⟨u, run, ok, pair, good, -, only, -⟩ := run 0
    rw [if_neg (by omega), if_neg (by omega), if_neg (by rw [show u.xtalOk 1 = false from pair.trans unready]; decide),
      if_pos (show u.xtalOk 0 = true from ok)] at run
    exact ⟨_, run, startClocks_starts (x := 0) (by decide) good ok only pair⟩
  · obtain ⟨u, run, ok, pair, good, shown⟩ := run x
    rw [if_pos late] at run
    exact ⟨_, run, shown⟩

/-- A crystal that qualifies while the device runs only shows it. -/
theorem crystalShown {s : State} (free : sourcesFree s) (x : Fin 2) (good : s.ck.pwrgood = true)
    (none_ : s.ck.bothXtal = false ∨ s.unit (261 + x.val) = 2) (started : s.ck.qualifying = none) :
    ∃ t, exec (.crystalQualified x) s = .next t ∧ t.xtalOk x = true ∧ t = { s with regs := t.regs } ∧ RegsBut s t [CK_CLK] := by
  obtain ⟨ok, -, -, -, -, only, but⟩ := setXtal_shows s x.isLt true
  have run := qualified_run free x good none_
  obtain ⟨u, hu⟩ : ∃ u, s.setBit CK_CLK (xtalBit x) true = u := ⟨_, rfl⟩
  rw [hu] at ok only but run
  have startedU : u.ck.qualifying = none := by rw [only]; exact started
  rw [tryClocks_none startedU] at run
  exact ⟨u, run, ok, only, but⟩

/-- The wait for a crystal begins again after 10 ms (R453). -/
theorem crystalRetries {s : State} {t0 : Nat} (waits : s.ck.qualifying = some t0) :
    (1000000 ≤ s.now - t0 → s.xtalOk 0 = false →
      exec .crystalRetry s = .next { s with ck := { s.ck with qualifying := some s.now } }) ∧
    (s.now - t0 < 1000000 → exec .crystalRetry s = .next s) := by
  have run : exec .crystalRetry s = .next (if 1000000 ≤ s.now - t0 then
      ({ s with ck := { s.ck with qualifying := some s.now } } : State).tryClocks else s) := by
    change execCrystalRetry s = _
    unfold execCrystalRetry
    rw [waits]
    rfl
  refine ⟨fun late unready => ?_, fun soon => ?_⟩
  · rw [run, if_pos late]
    have again : ({ s with ck := { s.ck with qualifying := some s.now } } : State).ck.qualifying = some s.now := rfl
    have still : ({ s with ck := { s.ck with qualifying := some s.now } } : State).xtalOk 0 = false := unready
    have fresh : ({ s with ck := { s.ck with qualifying := some s.now } } : State).now = s.now := rfl
    generalize ({ s with ck := { s.ck with qualifying := some s.now } } : State) = u at *
    rw [tryClocks_age again, fresh, if_neg (by omega), if_pos (by omega), if_neg (by rw [still]; decide)]
  · rw [run, if_neg (by omega)]

/-! ### The selected crystal stops (R455) -/

/-- The selected crystal has stopped; the PLLs stay. -/
structure XtalStops (s t : State) : Prop where
  lost : t.xtalOk s.xsel = false
  locks : ∀ p, t.pllLocked p = s.pllLocked p
  psel : t.psel = s.psel
  st : t.st = s.st
  plls : ∀ p < 2, t.unit (259 + p) = s.unit (259 + p)

section
variable {s : State} (free : sourcesFree s) (started : s.ck.qualifying = none) (sel : s.xsel ≤ 1)
  (ok : s.xtalOk s.xsel = true)
include free started sel ok

/-- What the loss of the selected crystal does. -/
theorem xtalLoss_eq : ∃ u, u.xtalOk s.xsel = false ∧ u.xtalOk (1 - s.xsel) = s.xtalOk (1 - s.xsel) ∧ u.xsel = s.xsel ∧
    u.psel = s.psel ∧ (∀ p, u.pllLocked p = s.pllLocked p) ∧ u = { s with regs := u.regs } ∧ RegsBut s u [CK_CLK] ∧
    s.xtalLoss = if s.xtalOk (1 - s.xsel) && s.unit (261 + (1 - s.xsel)) != 2 then
        ((u.sourceTaken CK_CLK_XSEL 261 (1 - s.xsel)).setEvt BLK_CK 3).fault 0x2042 s.xsel
      else (u.onCk fun c => { c with bothXtal := true }).fault 0x3044 := by
  obtain ⟨tests, waits⟩ := free
  have shows := setXtal_shows s (x := s.xsel) (by omega) false
  obtain ⟨u, hu⟩ : ∃ u, s.setBit CK_CLK (xtalBit s.xsel) false = u := ⟨_, rfl⟩
  rw [hu] at shows
  obtain ⟨lost, pair, selU, pselU, locks, only, but⟩ := shows
  refine ⟨u, lost, pair, selU, pselU, locks, only, but, ?_⟩
  have freeU : ∀ y, 259 ≤ y → y ≤ 262 → u.st.tests.get none y = none := by rw [only]; exact tests
  have unit : u.unit (unitXtal (1 - s.xsel)) = s.unit (261 + (1 - s.xsel)) := unit_of_reg (but _ (by simp [unit_ne_ckClk]))
  unfold State.xtalLoss
  dsimp only
  rw [hu, abandonSwitch_free (by rw [only]; exact waits), pair,
    sourceReady_free (freeU _ (by unfold unitXtal; omega) (by unfold unitXtal; omega)), unit, selectXtal_eq _ freeU]
  exact if_neg (by rw [started, ok]; decide)

theorem xtalLoss_switches (other : s.xtalOk (1 - s.xsel) = true) (kept : s.unit (261 + (1 - s.xsel)) ≠ 2) :
    s.xtalLoss.xsel = 1 - s.xsel ∧ XtalStops s s.xtalLoss ∧ EventSet s.xtalLoss BLK_CK 3 ∧
    Reported s s.xtalLoss 0x2042 (BitVec.ofNat 8 s.xsel) 0 ∧
    Frame s s.xtalLoss [CK_CLK, ST_USTAT 261, ST_USTAT 262] [BLK_CK] := by
  obtain ⟨u, lost, pair, selU, pselU, locks, only, but, run⟩ := xtalLoss_eq free started sel ok
  rw [if_pos (by simp [other, kept])] at run
  rw [run]
  have is := (sourceTaken_is u CK_CLK_XSEL 261 (x := 1 - s.xsel) (by omega)).setEvt 3 (by omega) (by decide)
  have event : EventSet ((u.sourceTaken CK_CLK_XSEL 261 (1 - s.xsel)).setEvt BLK_CK 3) BLK_CK 3 :=
    setEvt_eventSet _ _ _ (by decide)
  have si : u.si = s.si := by rw [only]
  have frameU : Frame s u [CK_CLK, ST_USTAT 261, ST_USTAT 262] [BLK_CK] := by
    refine ⟨?_, but.mono (by simp)⟩
    rw [only]
    rfl
  generalize (u.sourceTaken CK_CLK_XSEL 261 (1 - s.xsel)).setEvt BLK_CK 3 = v at *
  have clk : (v.fault 0x2042 s.xsel).reg CK_CLK = v.reg CK_CLK := reg_fault _ _ _ _ _ (by decide)
  have frame := (frameU.trans is.2.2.2.2).fault (code := 0x2042) (inst := s.xsel) (info := 0)
  refine ⟨(fld_of_reg _ clk).trans (is.sel (by omega) rfl (by decide)), ⟨?_, fun p => ?_, ?_, ?_, fun p hp => ?_⟩,
    event.fault _ _ _, fault_reportedFrom _ _ _ (by rw [is.2.2.2.1, si]), frame⟩
  · exact ((rbit_of_reg _ clk).trans (is.bit (by unfold xtalBit CK_CLK_XSEL; dsimp only; omega))).trans lost
  · exact ((rbit_of_reg _ clk).trans (is.bit (by unfold lockBit CK_CLK_XSEL; dsimp only; omega))).trans (locks p)
  · refine Eq.trans ?_ pselU
    unfold State.psel
    rw [fld_of_reg _ clk, State.fld, is.1]
    exact fldGet_fldPut_other _ _ _ _ (by decide)
  · exact frame.1.st
  · refine unit_of_reg (frame.reg ?_ (notMem_reportRegs_one (b := BLK_CK) 0x100020 rfl (by unfold ST_USTAT; omega)))
    have ne : ∀ p < 2, ST_USTAT (259 + p) ∉ [CK_CLK, ST_USTAT 261, ST_USTAT 262] := by decide
    exact ne p hp

theorem xtalLoss_ends (other : s.xtalOk (1 - s.xsel) = false ∨ s.unit (261 + (1 - s.xsel)) = 2) :
    s.xtalLoss.xsel = s.xsel ∧ s.xtalLoss.ck.bothXtal = true ∧ XtalStops s s.xtalLoss ∧
    Reported s s.xtalLoss 0x3044 0xFF 0 ∧ Frame { s with ck := s.xtalLoss.ck } s.xtalLoss [CK_CLK] [] := by
  obtain ⟨u, lost, pair, selU, pselU, locks, only, but, run⟩ := xtalLoss_eq free started sel ok
  rw [if_neg (by rcases other with h | h <;> simp [h])] at run
  rw [run]
  obtain ⟨v, hv⟩ : ∃ v, u.onCk (fun c => { c with bothXtal := true }) = v := ⟨_, rfl⟩
  have regs : v.regs = u.regs := by rw [← hv]; rfl
  have ck : v.ck = { s.ck with bothXtal := true } := by rw [← hv, only]; rfl
  have si : v.si = s.si := by rw [← hv, only]; rfl
  have same : v = { s with regs := v.regs, ck := v.ck } := by rw [← hv, only]; rfl
  rw [hv]
  have clk : (v.fault 0x3044).reg CK_CLK = u.reg CK_CLK :=
    (reg_fault _ _ _ _ _ (by decide)).trans (reg_of_regs regs _)
  have ckT : (v.fault 0x3044).ck = v.ck := (fault_quiet v 0x3044 0xFF 0).ck
  have frame : Frame { s with ck := v.ck } v [CK_CLK] [] := by
    refine ⟨?_, (but.trans (.of_regs regs _)).mono (by simp)⟩
    rw [same]
    rfl
  refine ⟨(fld_of_reg _ clk).trans selU, by rw [ckT, ck], ⟨(rbit_of_reg _ clk).trans lost, fun p => (rbit_of_reg _ clk).trans (locks p),
    (fld_of_reg _ clk).trans pselU, frame.fault.1.st, fun p hp => ?_⟩, fault_reportedFrom _ _ _ (by rw [si]), ?_⟩
  · refine unit_of_reg (frame.fault.reg ?_ (notMem_reportRegs_nil (by unfold ST_USTAT; omega)))
    have ne : ∀ p < 2, ST_USTAT (259 + p) ∉ [CK_CLK] := by decide
    exact ne p hp
  · rw [ckT]
    exact frame.fault

theorem xtalLoss_stops : XtalStops s s.xtalLoss := by
  by_cases other : s.xtalOk (1 - s.xsel) = true
  · by_cases kept : s.unit (261 + (1 - s.xsel)) = 2
    · exact (xtalLoss_ends free started sel ok (.inr kept)).2.2.1
    · exact (xtalLoss_switches free started sel ok other kept).2.1
  · exact (xtalLoss_ends free started sel ok (.inl (by simpa using other))).2.2.1

end

end Sys2Proof.Machine

namespace Sys2Proof.Machine

/-! ### The running PLL stops (R454, R455) -/

/-- What follows the loss of a PLL's lock. -/
def State.pllLost (s : State) (p : Nat) : State :=
  if s.psel ≠ p then s
  else if s.abandonSwitch.pllLocked (1 - p) && s.abandonSwitch.sourceReady (unitPll (1 - p)) then
    ((s.abandonSwitch.selectPll (1 - p)).setEvt BLK_CK 4).fault 0x2043 p
  else s.abandonSwitch.wdgTrips

theorem pllLoss_run {s : State} (p : Fin 2) (locked : s.pllLocked p = true) :
    exec (.pllLoss p) s = .next ((s.crystalFirst.setBit CK_CLK (lockBit p) false).pllLost p) := by
  change execPllLoss p s = _
  unfold execPllLoss
  rw [locked]
  rfl

/-- No loss of a crystal of the same tick waits. -/
theorem crystalFirst_none {s : State} (h : Instr.crystalLost ∉ s.pending ∨ s.ck.early = some s.now) : s.crystalFirst = s := by
  unfold State.crystalFirst
  exact if_neg (by rcases h with h | h <;> simp [h])

theorem crystalFirst_waits {s : State} (h : Instr.crystalLost ∈ s.pending) (e : s.ck.early ≠ some s.now) :
    s.crystalFirst = s.xtalLoss.onCk fun c => { c with early := some s.now } := by
  unfold State.crystalFirst
  exact if_pos (by simp [h, e])

/-- The lock bit of a PLL is all that changes. -/
theorem setLock_shows (s : State) {p : Nat} (hp : p < 2) (b : Bool) :
    (s.setBit CK_CLK (lockBit p) b).pllLocked p = b ∧
    (s.setBit CK_CLK (lockBit p) b).pllLocked (1 - p) = s.pllLocked (1 - p) ∧
    (s.setBit CK_CLK (lockBit p) b).xsel = s.xsel ∧ (s.setBit CK_CLK (lockBit p) b).psel = s.psel ∧
    (∀ x < 2, (s.setBit CK_CLK (lockBit p) b).xtalOk x = s.xtalOk x) ∧
    s.setBit CK_CLK (lockBit p) b = { s with regs := (s.setBit CK_CLK (lockBit p) b).regs } ∧
    RegsBut s (s.setBit CK_CLK (lockBit p) b) [CK_CLK] :=
  ⟨rbit_setBit_same _ _ _ _ (by unfold lockBit; omega), rbit_setBit_bit _ _ _ _ _ (by unfold lockBit; omega),
    fld_setBit_other _ _ _ _ _ (by unfold lockBit CK_CLK_XSEL; dsimp only; omega),
    fld_setBit_other _ _ _ _ _ (by unfold lockBit CK_CLK_PSEL; dsimp only; omega),
    fun x hx => rbit_setBit_bit _ _ _ _ _ (by unfold xtalBit lockBit; omega), rfl, (RegsBut.refl s _).setFld (by simp)⟩

theorem siOnly_after {s u t : State} {l l' : List Nat} (only : u = { s with regs := u.regs }) (but : RegsBut s u l)
    (h : siOnly u t l') (hl : l' ⊆ l) : siOnly s t l := by
  obtain ⟨same, regs⟩ := h
  refine ⟨?_, (but.mono (List.subset_append_left _ _)).trans (regs.mono (List.append_subset.2 ⟨fun _ h => List.mem_append_left _ (hl h), List.subset_append_right _ _⟩))⟩
  have top : u.top = s.top := by rw [only]
  rw [top] at same
  obtain ⟨r, hr⟩ : ∃ r, u = { s with regs := r } := ⟨_, only⟩
  rw [hr] at same
  exact same

section
variable {s : State} (free : sourcesFree s) {p : Nat} (hp : p < 2)
include free hp

theorem pllLost_switches (runs : s.psel = p) (other : s.pllLocked (1 - p) = true) (kept : s.unit (259 + (1 - p)) ≠ 2) :
    s.pllLost p = ((s.sourceTaken CK_CLK_PSEL 259 (1 - p)).setEvt BLK_CK 4).fault 0x2043 p := by
  obtain ⟨tests, waits⟩ := free
  have ready : s.sourceReady (unitPll (1 - p)) = true := by
    rw [sourceReady_free (tests _ (by unfold unitPll; omega) (by unfold unitPll; omega))]
    exact bne_iff_ne.2 kept
  unfold State.pllLost
  rw [if_neg (fun h => h runs), abandonSwitch_free waits, other, ready, selectPll_eq _ tests]
  exact if_pos rfl

theorem pllLost_ends (runs : s.psel = p) (other : s.pllLocked (1 - p) = false ∨ s.unit (259 + (1 - p)) = 2) :
    s.pllLost p = s.wdgTrips := by
  obtain ⟨tests, waits⟩ := free
  have ready : s.sourceReady (unitPll (1 - p)) = (s.unit (259 + (1 - p)) != 2) :=
    sourceReady_free (tests _ (by unfold unitPll; omega) (by unfold unitPll; omega))
  unfold State.pllLost
  rw [if_neg (fun h => h runs), abandonSwitch_free waits, ready]
  exact if_neg (by rcases other with h | h <;> simp [h])

/-- The other PLL becomes the running one. -/
theorem pllLost_shows (runs : s.psel = p) (other : s.pllLocked (1 - p) = true) (kept : s.unit (259 + (1 - p)) ≠ 2) :
    (s.pllLost p).psel = 1 - p ∧ (∀ i, i < 3 ∨ 4 ≤ i → (s.pllLost p).rbit CK_CLK i = s.rbit CK_CLK i) ∧
    EventSet (s.pllLost p) BLK_CK 4 ∧ Reported s (s.pllLost p) 0x2043 (BitVec.ofNat 8 p) 0 ∧
    Frame s (s.pllLost p) [CK_CLK, ST_USTAT 259, ST_USTAT 260] [BLK_CK] := by
  rw [pllLost_switches free hp runs other kept]
  have is := (sourceTaken_is s CK_CLK_PSEL 259 (x := 1 - p) (by omega)).setEvt 4 (by omega) (by decide)
  have event : EventSet ((s.sourceTaken CK_CLK_PSEL 259 (1 - p)).setEvt BLK_CK 4) BLK_CK 4 :=
    setEvt_eventSet _ _ _ (by decide)
  generalize (s.sourceTaken CK_CLK_PSEL 259 (1 - p)).setEvt BLK_CK 4 = v at *
  have clk : (v.fault 0x2043 p).reg CK_CLK = v.reg CK_CLK := reg_fault _ _ _ _ _ (by decide)
  exact ⟨(fld_of_reg _ clk).trans (is.sel (by omega) rfl (by decide)), fun i hi => (rbit_of_reg _ clk).trans (is.bit hi),
    event.fault _ _ _, fault_reportedFrom _ _ _ (by rw [is.2.2.2.1]), is.2.2.2.2.fault⟩

/-- With no PLL left, the watchdog trips. -/
theorem pllLost_trips (runs : s.psel = p) (lost : s.pllLocked p = false) (alive : s.si.wdgTrip = false)
    (other : s.pllLocked (1 - p) = false ∨ s.unit (259 + (1 - p)) = 2) :
    (s.pllLost p).aoRuns = false ∧ (s.pllLost p).si.wdgTrip = true ∧ (s.pllLost p).si.safeN = false ∧
    siOnly s (s.pllLost p) [SI_STAT] ∧
    (s.si.intq.length < 512 → ∃ r : FaultRec, (s.pllLost p).si.intq = s.si.intq ++ [r] ∧ r.code = 0x3084) := by
  rw [pllLost_ends free hp runs other]
  obtain ⟨trip, safe, -, -, only, queued, -⟩ := wdgTrips_trips s alive
  have clk : s.wdgTrips.reg CK_CLK = s.reg CK_CLK := only.2 _ (by decide)
  refine ⟨?_, trip, safe, only, fun room => ?_⟩
  · have psel : s.wdgTrips.psel = s.psel := fld_of_reg _ clk
    unfold State.aoRuns
    rw [psel, runs]
    exact (rbit_of_reg _ clk).trans lost
  · obtain ⟨r, hr, code, -⟩ := queued room
    exact ⟨r, hr, code⟩

end

/-- A PLL's loss leaves the bits of the crystals and of the locks, and the record of an early loss. -/
theorem pllLost_keeps {s : State} (free : sourcesFree s) {p : Nat} (hp : p < 2) :
    (∀ i, i < 3 ∨ 4 ≤ i → (s.pllLost p).rbit CK_CLK i = s.rbit CK_CLK i) ∧ (s.pllLost p).ck = s.ck := by
  by_cases runs : s.psel = p
  · by_cases other : s.pllLocked (1 - p) = false ∨ s.unit (259 + (1 - p)) = 2
    · rw [pllLost_ends free hp runs other]
      by_cases alive : s.si.wdgTrip = false
      · obtain ⟨-, -, -, -, only, -⟩ := wdgTrips_trips s alive
        exact ⟨fun i _ => rbit_of_reg i (only.2 _ (by decide)), by rw [only.1]⟩
      · have still : s.wdgTrips = s := if_pos (by simpa using alive)
        rw [still]
        exact ⟨fun _ _ => rfl, rfl⟩
    · obtain ⟨h1, h2⟩ := not_or.1 other
      obtain ⟨-, bits, -, -, frame⟩ := pllLost_shows free hp runs (by simpa using h1) h2
      exact ⟨bits, frame.1.ck⟩
  · have still : s.pllLost p = s := if_pos runs
    rw [still]
    exact ⟨fun _ _ => rfl, rfl⟩

/-- A PLL is lost, and no crystal of the same tick. -/
theorem pllLosses {s : State} (free : sourcesFree s) (p : Fin 2)
    (alone : Instr.crystalLost ∉ s.pending ∨ s.ck.early = some s.now) (locked : s.pllLocked p = true) :
    (s.psel ≠ p.val → ∃ t, exec (.pllLoss p) s = .next t ∧ t.pllLocked p = false ∧ t.psel = s.psel ∧
        t = { s with regs := t.regs } ∧ RegsBut s t [CK_CLK]) ∧
    (s.psel = p.val → s.si.wdgTrip = false → s.pllLocked (1 - p.val) = false ∨ s.unit (259 + (1 - p.val)) = 2 →
      ∃ t, exec (.pllLoss p) s = .next t ∧ t.aoRuns = false ∧ t.si.wdgTrip = true ∧ t.si.safeN = false ∧
        siOnly s t [CK_CLK, SI_STAT] ∧
        (s.si.intq.length < 512 → ∃ r : FaultRec, t.si.intq = s.si.intq ++ [r] ∧ r.code = 0x3084)) ∧
    (s.psel = p.val → s.pllLocked (1 - p.val) = true → s.unit (259 + (1 - p.val)) ≠ 2 →
      ∃ t, exec (.pllLoss p) s = .next t ∧ t.psel = 1 - p.val ∧ t.pllLocked p = false ∧
        EventSet t BLK_CK 4 ∧ Reported s t 0x2043 (BitVec.ofNat 8 p) 0 ∧
        Frame s t [CK_CLK, ST_USTAT 259, ST_USTAT 260] [BLK_CK]) := by
  have run := pllLoss_run p locked
  rw [crystalFirst_none alone] at run
  have shows := setLock_shows s p.isLt false
  generalize s.setBit CK_CLK (lockBit p) false = u at *
  obtain ⟨lost, pair, -, psel, -, only, but⟩ := shows
  have unit : ∀ y, u.unit y = s.unit y := fun y => unit_of_reg (but _ (by simp [unit_ne_ckClk]))
  have freeU : sourcesFree u := by
    unfold sourcesFree
    rw [only]
    exact free
  have si : u.si = s.si := by rw [only]
  refine ⟨fun rests => ⟨u, ?_, lost, psel, only, but⟩, fun runs alive none_ => ?_, fun runs other kept => ?_⟩
  · rw [run]
    exact congrArg Host.Outcome.next (if_pos (by rw [psel]; exact rests))
  · obtain ⟨stops, trip, safe, siOnly, queued⟩ := pllLost_trips freeU p.isLt (psel.trans runs) lost (by rw [si]; exact alive)
      (by rw [pair, unit]; exact none_)
    rw [si] at queued
    refine ⟨_, run, stops, trip, safe, siOnly_after only (but.mono (by simp)) siOnly (by simp), queued⟩
  · obtain ⟨sel, bits, event, reported, frame⟩ := pllLost_shows freeU p.isLt (psel.trans runs) (pair.trans other)
      (by rw [unit]; exact kept)
    have frameU : Frame s u [CK_CLK, ST_USTAT 259, ST_USTAT 260] [BLK_CK] := by
      refine ⟨?_, but.mono (by simp)⟩
      rw [only]
      rfl
    exact ⟨_, run, sel, (bits _ (by unfold lockBit; omega)).trans lost, event, reported.from (by rw [si]), frameU.trans frame⟩

/-- A PLL that locks again (R454). -/
theorem pllRelocks {s : State} (p : Fin 2) (lost : s.pllLocked p = false) :
    exec (.pllLoss p) s = .next s ∧
    ∃ t, exec (.pllRelock p) s = .next t ∧ t.pllLocked p = true ∧ t.psel = s.psel ∧
      t.unit (259 + p.val) =
        (if s.psel = p.val then 0 else if s.unit (259 + p.val) = 0 then 3 else s.unit (259 + p.val)) ∧
      t = { s with regs := t.regs } ∧ RegsBut s t [CK_CLK, ST_USTAT (259 + p.val)] := by
  refine ⟨congrArg Host.Outcome.next (if_pos (by rw [lost]; rfl)), ?_⟩
  have shows := setLock_shows s p.isLt true
  obtain ⟨u, hu⟩ : ∃ u, s.setBit CK_CLK (lockBit p) true = u := ⟨_, rfl⟩
  have run : exec (.pllRelock p) s = .next (if u.psel = p then u.setUnit (259 + p.val) 0
      else if u.unit (259 + p.val) = 0 then u.setUnit (259 + p.val) 3 else u) := by
    rw [← hu]
    exact congrArg Host.Outcome.next (if_neg (by rw [lost]; decide))
  rw [hu] at shows
  obtain ⟨locked, -, -, psel, -, only, but⟩ := shows
  have unit : u.unit (259 + p.val) = s.unit (259 + p.val) := unit_of_reg (but _ (by simp [unit_ne_ckClk]))
  have set : ∀ v < 4, (u.setUnit (259 + p.val) v).pllLocked p = true ∧ (u.setUnit (259 + p.val) v).psel = s.psel ∧
      (u.setUnit (259 + p.val) v).unit (259 + p.val) = v ∧
      u.setUnit (259 + p.val) v = { s with regs := (u.setUnit (259 + p.val) v).regs } ∧
      RegsBut s (u.setUnit (259 + p.val) v) [CK_CLK, ST_USTAT (259 + p.val)] := by
    intro v hv
    have clk := setUnit_ckClk u (259 + p.val) v
    refine ⟨(rbit_of_reg _ clk).trans locked, (fld_of_reg _ clk).trans psel, unit_setUnit_same _ _ hv, ?_,
      (but.mono (by simp)).setFld (by simp)⟩
    obtain ⟨r, hr⟩ : ∃ r, u = { s with regs := r } := ⟨_, only⟩
    rw [hr]
    rfl
  rw [psel, unit] at run
  refine ⟨_, run, ?_⟩
  split
  · exact set 0 (by decide)
  · split
    · exact set 3 (by decide)
    · exact ⟨locked, psel, unit, only, but.mono (by simp)⟩

theorem xsel_of_bit {s t : State} (h : t.rbit CK_CLK 0 = s.rbit CK_CLK 0) : t.xsel = s.xsel :=
  fldGet_congr (f := CK_CLK_XSEL) fun i hi => by
    have zero : i = 0 := Nat.lt_one_iff.1 hi
    rw [zero]
    exact h

/-! ### Two losses in one tick (R455) -/

/-- A report where the queue of its block has room. -/
theorem reported_codes {s t : State} {code : BitVec 16} {inst : BitVec 8} {info : BitVec 48} (h : Reported s t code inst info)
    (room : (s.si.queues.get [] (codeBlk code)).length < 8) :
    (t.si.queues.get [] (codeBlk code)).map (·.code) = (s.si.queues.get [] (codeBlk code)).map (·.code) ++ [code] := by
  unfold Reported at h
  dsimp only at h
  rw [if_pos room] at h
  obtain ⟨f, hf, -, -, queue⟩ := h
  rw [queue, List.map_append, List.map_singleton, hf]

theorem lossesOfOneTick {s : State} (free : sourcesFree s) (p : Fin 2) (waits : Instr.crystalLost ∈ s.pending)
    (early : s.ck.early ≠ some s.now) (started : s.ck.qualifying = none) (sel : s.xsel ≤ 1)
    (ok : s.xtalOk s.xsel = true) (locked : s.pllLocked p = true) :
    ∃ t, exec (.pllLoss p) s = .next t ∧ t.xtalOk s.xsel = false ∧ t.pllLocked p = false ∧
      t.ck.early = some s.now ∧
      (s.xtalOk (1 - s.xsel) = true → s.unit (261 + (1 - s.xsel)) ≠ 2 → t.xsel = 1 - s.xsel ∧
        (s.psel = p.val → s.pllLocked (1 - p.val) = true → s.unit (259 + (1 - p.val)) ≠ 2 →
          t.psel = 1 - p.val ∧ (s.si.queues.get [] (codeBlk 0x2042) = [] →
            (t.si.queues.get [] (codeBlk 0x2042)).map (·.code) = [0x2042, 0x2043]))) := by
  have run := pllLoss_run p locked
  rw [crystalFirst_waits waits early] at run
  have stops := xtalLoss_stops free started sel ok
  have switches := xtalLoss_switches free started sel ok
  generalize s.xtalLoss = v at *
  obtain ⟨u, hu⟩ : ∃ u, v.onCk (fun c => { c with early := some s.now }) = u := ⟨_, rfl⟩
  have regsU : u.regs = v.regs := by rw [← hu]; rfl
  have earlyU : u.ck.early = some s.now := by rw [← hu]; rfl
  have siU : u.si = v.si := by rw [← hu]; rfl
  have stU : u.st = v.st := by rw [← hu]; rfl
  rw [hu] at run
  have shows := setLock_shows u p.isLt false
  generalize u.setBit CK_CLK (lockBit p) false = w at *
  obtain ⟨lostW, pairW, xselW, pselW, xtalW, only, but⟩ := shows
  have unit : ∀ y, w.unit y = v.unit y := fun y =>
    unit_of_reg ((but _ (by simp [unit_ne_ckClk])).trans (reg_of_regs regsU _))
  have freeW : sourcesFree w := by
    unfold sourcesFree
    rw [only]
    dsimp only
    rw [stU, stops.st]
    exact free
  have siW : w.si = v.si := by rw [only]; exact siU
  have ckW : w.ck.early = some s.now := by rw [only]; exact earlyU
  have pselV : w.psel = s.psel := (pselW.trans (fld_of_regs regsU _ _)).trans stops.psel
  have pairV : w.pllLocked (1 - p.val) = s.pllLocked (1 - p.val) :=
    (pairW.trans (rbit_of_reg _ (reg_of_regs regsU _))).trans (stops.locks _)
  obtain ⟨bits, ck⟩ := pllLost_keeps freeW p.isLt
  refine ⟨_, run, ?_, (bits _ (by unfold lockBit; omega)).trans lostW, by rw [ck]; exact ckW, fun other kept => ⟨?_, fun runs lock plls => ?_⟩⟩
  · exact (bits _ (by unfold xtalBit; omega)).trans ((xtalW _ (by omega)).trans ((rbit_of_reg _ (reg_of_regs regsU _)).trans stops.lost))
  · refine (xsel_of_bit (bits 0 (by decide))).trans ((xselW.trans (fld_of_regs regsU _ _)).trans (switches other kept).1)
  · obtain ⟨psel, -, -, reported, -⟩ := pllLost_shows freeW p.isLt (pselV.trans runs) (pairV.trans lock)
      (by rw [unit, stops.plls _ (by omega)]; exact plls)
    refine ⟨psel, fun empty => ?_⟩
    obtain ⟨-, -, -, first, -⟩ := switches other kept
    have one := reported_codes first (by rw [empty]; decide)
    have blk : codeBlk 0x2043 = codeBlk 0x2042 := by decide
    have len := congrArg List.length one
    rw [empty, List.length_map] at len
    have two := reported_codes reported (by rw [siW, blk, len]; decide)
    rw [blk, siW, one, empty] at two
    exact two

theorem crystalsSelected : crystalsAndPlls := by
  refine ⟨fun s x low => congrArg Host.Outcome.next (if_pos (by rw [low]; rfl)), fun s started => ?_,
    fun s done => congrArg Host.Outcome.next (if_pos done), fun s early idle => ?_, fun s free => ?_⟩
  · change execCrystalRetry s = _
    unfold execCrystalRetry
    rw [started]
  · refine congrArg Host.Outcome.next ((if_neg early).trans (if_pos ?_))
    rcases idle with h | h
    · rw [Option.isSome_iff_ne_none.2 h]
      rfl
    · rw [h]
      simp
  · refine ⟨fun x => crystalReturns free x, fun t0 => crystalQualifies free, fun x => crystalShown free x,
      fun t0 => crystalRetries, fun early started sel ok => ?_, fun p => lossesOfOneTick free p, fun p alone => ?_⟩
    · have run : exec .crystalLost s = .next s.xtalLoss := congrArg Host.Outcome.next (if_neg early)
      refine ⟨fun other kept => ?_, fun other => ?_⟩
      · obtain ⟨xsel, stops, event, reported, frame⟩ := xtalLoss_switches free started sel ok other kept
        exact ⟨_, run, xsel, stops.lost, event, reported, frame⟩
      · obtain ⟨xsel, both, -, reported, frame⟩ := xtalLoss_ends free started sel ok other
        exact ⟨_, run, xsel, both, reported, frame⟩
    · refine ⟨fun rests locked => (pllLosses free p alone locked).1 rests,
        fun runs locked alive other => (pllLosses free p alone locked).2.1 runs alive other,
        fun runs locked other kept => (pllLosses free p alone locked).2.2 runs other kept, fun lost => pllRelocks p lost⟩

/-- Settles O58: each crystal and PLL follows its bit of CK_CLK, and a source is switched to through one rule. -/
theorem powerAndClocksAreSwitched : Obligations.PowerAndClocksAreSwitched := by
  unfold Obligations.PowerAndClocksAreSwitched
  exact ⟨powerSupplied, crystalsSelected⟩

end Sys2Proof.Machine

/-!
Line events, the position and products (R150, R154, R172 to R177, O29): what every block does at a line event
leaves H, P, the last emission and the run of skips as the line clock has set them (State.AtClock).
-/

namespace Sys2Proof.Machine

/-! ### What the line clock keeps (R150) -/

/-- What a line event tells of: H, P, the last emission and the run of skips. -/
def LcSt.view (l : LcSt) : BitVec 64 × BitVec 96 × Option Nat × Option Nat := (l.hwm, l.pos, l.lastEmit, l.skipRun)

/-- The line clock stands so. -/
def State.AtClock (s : State) (c : BitVec 64 × BitVec 96 × Option Nat × Option Nat) : Prop := s.lc.view = c

section
variable {s : State} {c : BitVec 64 × BitVec 96 × Option Nat × Option Nat}

theorem State.AtClock.of_lc {t : State} (h : s.AtClock c) (e : t.lc = s.lc) : t.AtClock c := by
  unfold State.AtClock
  rw [e]
  exact h

theorem State.AtClock.ite {t : State} {b : Prop} [Decidable b] (hs : s.AtClock c) (ht : t.AtClock c) :
    (if b then s else t).AtClock c := by
  split
  · exact hs
  · exact ht

theorem State.AtClock.of_eq {α : Type} {p : α × State} {a : α} (h : p.2.AtClock c) (e : p = (a, s)) : s.AtClock c := by
  subst e
  exact h

theorem State.AtClock.of_eq₂ {α β : Type} {p : α × β × State} {a : α} {b : β} (h : p.2.2.AtClock c) (e : p = (a, b, s)) :
    s.AtClock c := by
  subst e
  exact h

theorem State.AtClock.ite_snd {α : Type} {p q : α × State} {b : Prop} [Decidable b] (hp : p.2.AtClock c) (hq : q.2.AtClock c) :
    (if b then p else q).2.AtClock c := by
  split
  · exact hp
  · exact hq

theorem State.AtClock.foldl {α : Type} {f : State → α → State} {xs : List α} (h : s.AtClock c)
    (hf : ∀ t a, t.AtClock c → (f t a).AtClock c) : (xs.foldl f s).AtClock c :=
  List.foldlRecOn xs f h fun t ht a _ => hf t a ht

theorem State.AtClock.foldl_snd {α β : Type} {f : β × State → α → β × State} {xs : List α} {p : β × State} (h : p.2.AtClock c)
    (hf : ∀ p a, p.2.AtClock c → (f p a).2.AtClock c) : (xs.foldl f p).2.AtClock c :=
  List.foldlRecOn (motive := fun p => p.2.AtClock c) xs f h fun p hp a _ => hf p a hp

theorem State.AtClock.setReg {off v} (h : s.AtClock c) : (s.setReg off v).AtClock c :=
  h

theorem State.AtClock.setFld {off f x} (h : s.AtClock c) : (s.setFld off f x).AtClock c :=
  h.setReg

theorem State.AtClock.setBit {off i b} (h : s.AtClock c) : (s.setBit off i b).AtClock c :=
  h.setFld

theorem State.AtClock.count {off} (h : s.AtClock c) : (s.count off).AtClock c :=
  h.setReg

theorem State.AtClock.setReg64 {lo hi x} (h : s.AtClock c) : (s.setReg64 lo hi x).AtClock c :=
  h.setReg.setReg

theorem State.AtClock.onTop {f} (h : s.AtClock c) : (s.onTop f).AtClock c :=
  h

theorem State.AtClock.onSi {f} (h : s.AtClock c) : (s.onSi f).AtClock c :=
  h

theorem State.AtClock.onAdm {f} (h : s.AtClock c) : (s.onAdm f).AtClock c :=
  h

theorem State.AtClock.onLc {f : LcSt → LcSt} (h : s.AtClock c) (hf : ∀ l, (f l).view = l.view := by intro _; rfl) :
    (s.onLc f).AtClock c :=
  (hf _).trans h

theorem State.AtClock.onFs {f} (h : s.AtClock c) : (s.onFs f).AtClock c :=
  h

theorem State.AtClock.onDs {f} (h : s.AtClock c) : (s.onDs f).AtClock c :=
  h

theorem State.AtClock.onVe {f} (h : s.AtClock c) : (s.onVe f).AtClock c :=
  h

theorem State.AtClock.onLane {n f} (h : s.AtClock c) : (s.onLane n f).AtClock c :=
  h

theorem State.AtClock.onHub {k f} (h : s.AtClock c) : (s.onHub k f).AtClock c :=
  h

theorem State.AtClock.onPort {n f} (h : s.AtClock c) : (s.onPort n f).AtClock c :=
  h

theorem State.AtClock.each {n f} (h : s.AtClock c) (hf : ∀ x0 t, t.AtClock c → (f x0 t).AtClock c) : (s.each n f).AtClock c :=
  h.foldl fun _ _ h2 => hf _ _ h2

theorem State.AtClock.draw (h : s.AtClock c) : s.draw.2.AtClock c :=
  h

theorem State.AtClock.grant {key n winner} (h : s.AtClock c) : (s.grant key n winner).AtClock c :=
  h.onTop

theorem State.AtClock.storeBytes {a bs} (h : s.AtClock c) : (s.storeBytes a bs).AtClock c :=
  h

theorem State.AtClock.clearBytes {a n} (h : s.AtClock c) : (s.clearBytes a n).AtClock c :=
  h

theorem State.AtClock.storeNat {a n x} (h : s.AtClock c) : (s.storeNat a n x).AtClock c :=
  h.storeBytes

theorem State.AtClock.setEvt {blk n} (h : s.AtClock c) : (s.setEvt blk n).AtClock c :=
  h.of_lc (setEvt_quiet s blk n).lc

theorem State.AtClock.fault {code inst info} (h : s.AtClock c) : (s.fault code inst info).AtClock c :=
  h.of_lc (fault_quiet s code inst info).lc

theorem State.AtClock.sramFault {a} (h : s.AtClock c) : (s.sramFault a).AtClock c :=
  h.fault

theorem State.AtClock.poisonReport {line} (h : s.AtClock c) : (s.poisonReport line).AtClock c :=
  .ite h.sramFault h.count.setEvt.fault

theorem State.AtClock.reportLines {a n} (h : s.AtClock c) : (s.reportLines a n).AtClock c :=
  h.foldl fun _ _ h2 => .ite h2.poisonReport h2

theorem State.AtClock.whenClocked {blk f} (h : s.AtClock c) (hf : ∀ t, t.AtClock c → (f t).AtClock c) : (s.whenClocked blk f).AtClock c :=
  .ite (hf _ h) h

theorem State.AtClock.dramTouch {port hint a n} (h : s.AtClock c) : (s.dramTouch port hint a n).AtClock c :=
  h.of_lc (by rw [(dramTouch_byScheduler s port hint a n).1])

theorem State.AtClock.blockUnmapped {blk a n} (h : s.AtClock c) : (s.blockUnmapped blk a n).AtClock c := by
  unfold State.blockUnmapped
  split
  · exact h.fault
  · exact h

theorem State.AtClock.setSlotState {j v} (h : s.AtClock c) : (s.setSlotState j v).AtClock c :=
  h.setFld

theorem State.AtClock.setJob {j o} (h : s.AtClock c) : (s.setJob j o).AtClock c :=
  h.onAdm

theorem State.AtClock.wakeSource {src} (h : s.AtClock c) : (s.wakeSource src).AtClock c :=
  h.of_lc (wakeSource_wakes s src).1.1.lc

theorem State.AtClock.camTrigger {n ln tick missing} (h : s.AtClock c) : (s.camTrigger n ln tick missing).AtClock c :=
  .ite h (.ite h.onPort.count.setEvt h.onPort)

theorem State.AtClock.emit {d} (h : s.AtClock c) : (s.emit d).AtClock c :=
  .ite h.onVe h

theorem State.AtClock.addStamp {ln at_} (h : s.AtClock c) : (s.addStamp ln at_).AtClock c :=
  h.onVe

theorem State.AtClock.gapEmit {k g} (h : s.AtClock c) : (s.gapEmit k g).AtClock c :=
  (h.foldl (fun _ _ h2 => h2.emit)).onVe

theorem State.AtClock.gapOpen {k line cls} (h : s.AtClock c) : (s.gapOpen k line cls).AtClock c := by
  unfold State.gapOpen
  split
  · exact .ite h.gapEmit h
  · exact h.gapEmit.setFld

theorem State.AtClock.skipEnd (h : s.AtClock c) : s.skipEnd.AtClock c := by
  unfold State.skipEnd
  split
  · exact h
  · exact h.emit.onVe

theorem State.AtClock.skipLine {line cls} (h : s.AtClock c) : (s.skipLine line cls).AtClock c := by
  unfold State.skipLine
  split
  · exact h.skipEnd
  · exact .ite h.onVe h.skipEnd.onVe
  · exact h.onVe

theorem State.AtClock.unresolved {key width} (h : s.AtClock c) : (s.unresolved key width).AtClock c :=
  h.emit

theorem State.AtClock.fireLine {line} (h : s.AtClock c) : (s.fireLine line).AtClock c :=
  h.storeNat

theorem State.AtClock.fireHub {line k on} (h : s.AtClock c) : (s.fireHub line k on).AtClock c :=
  h.storeNat

theorem State.AtClock.leaveLimit {k} (h : s.AtClock c) : (s.leaveLimit k).AtClock c :=
  h.setFld.setFld.setEvt

theorem State.AtClock.limitLine {k} (h : s.AtClock c) : (s.limitLine k).AtClock c :=
  .ite h.leaveLimit (.ite h.setFld h)

theorem State.AtClock.setMode {k v} (h : s.AtClock c) : (s.setMode k v).AtClock c :=
  h.setFld

theorem State.AtClock.sendPlain {n typ body} (h : s.AtClock c) : (s.sendPlain n typ body).AtClock c :=
  h.onLane

theorem State.AtClock.sendSync {n nln} (h : s.AtClock c) : (s.sendSync n nln).AtClock c :=
  .ite h.sendPlain.onFs h.sendPlain

theorem State.AtClock.syncHub {k nln} (h : s.AtClock c) : (s.syncHub k nln).AtClock c :=
  h.foldl fun _ _ h2 => h2.sendSync

theorem State.AtClock.holdHub {k} (h : s.AtClock c) : (s.holdHub k).AtClock c :=
  h.setFld.onFs.syncHub

theorem State.AtClock.sendCtrl {n ctype arg count value data kind} (h : s.AtClock c) : (s.sendCtrl n ctype arg count
    value data kind).AtClock c :=
  h.onLane.sendPlain

theorem State.AtClock.sendFrac {n copy slot} (h : s.AtClock c) : (s.sendFrac n copy slot).AtClock c :=
  h.sendCtrl

theorem State.AtClock.sendSlotFracs {slot} (h : s.AtClock c) : (s.sendSlotFracs slot).AtClock c :=
  .ite (h.foldl (fun _ _ h2 => .ite h2.sendFrac.sendFrac h2.sendFrac)) h

theorem State.AtClock.lanePhase {n st ctl} (h : s.AtClock c) : (s.lanePhase n st ctl).AtClock c :=
  h.setFld.onLane

theorem State.AtClock.laneTestDrain {n} (h : s.AtClock c) : (s.laneTestDrain n).AtClock c :=
  .ite h.lanePhase.setMode.onHub h

theorem State.AtClock.dlLine {ln} (h : s.AtClock c) : (s.dlLine ln).AtClock c := by
  unfold State.dlLine
  refine State.AtClock.each (h.each fun k t ht => ?_) fun n t ht => ?_
  · extract_lets t1 t2
    have h1 : t1.AtClock c := by
      unfold t1
      split
      · exact .ite (.ite ht.setMode.onHub.setEvt ht.setMode.onHub) ht
      · exact ht
    exact .ite h1.onHub.syncHub h1.onHub
  · extract_lets l t1 t2
    have h1 : t1.AtClock c := .ite ht ht.onLane
    have h2 : t2.AtClock c := .ite h1.sendSync h1
    exact h2.laneTestDrain

theorem State.AtClock.onSlot {n f} (h : s.AtClock c) : (s.onSlot n f).AtClock c :=
  h.onDs

theorem State.AtClock.switchDone {w} (h : s.AtClock c) : (s.switchDone w).AtClock c :=
  (((((h.setFld.each (fun _ _ h2 => h2.setFld)).setFld).setFld).onDs).count).setEvt

theorem State.AtClock.switchCheck (h : s.AtClock c) : s.switchCheck.AtClock c := by
  unfold State.switchCheck
  split
  · exact h
  · exact .ite h.switchDone h

theorem State.AtClock.slotReads {n line} (h : s.AtClock c) : (s.slotReads n line).AtClock c := by
  unfold State.slotReads
  extract_lets t en s1 s2 s3 warm s4
  have h1 : s1.AtClock c := h.onSlot
  have h2 : s2.AtClock c := .ite (.ite h1.onDs.sendSlotFracs h1) h
  have h3 : s3.AtClock c := h2.onSlot
  have h4 : s4.AtClock c := .ite h3.setFld.setEvt h3
  exact .ite h4.setFld h2

theorem State.AtClock.abandon {p} (h : s.AtClock c) : (s.abandon p).AtClock c :=
  h.onLc.count.setEvt.fault

theorem State.AtClock.addSet {p} (h : s.AtClock c) : (s.addSet p).AtClock c := by
  unfold State.addSet
  split
  · exact h.abandon.onDs
  · exact h.onDs

theorem State.AtClock.dsLine {x} (h : s.AtClock c) : (s.dsLine x).AtClock c := by
  unfold State.dsLine
  extract_lets s1
  have h1 : s1.AtClock c := .ite h.setFld.setEvt h
  split
  · exact .switchCheck (.ite (h1.each (fun _ _ h3 => h3.slotReads)) (h1.each (fun _ _ h3 =>
      h3.slotReads)).addSet)

theorem State.AtClock.placeNext {t tap forward} (h : s.AtClock c) : (s.placeNext t tap forward).AtClock c := by
  unfold State.placeNext
  extract_lets kept due
  clear_value due
  exact .ite h h.onLc

theorem State.AtClock.placeAgain (h : s.AtClock c) : s.placeAgain.AtClock c := by
  unfold State.placeAgain
  extract_lets u
  have hu : u.AtClock c := h.onLc
  clear_value u
  split
  · exact hu.onLc
  · exact hu.placeNext
  · exact hu

theorem State.AtClock.setEnable {on} (h : s.AtClock c) : (s.setEnable on).AtClock c :=
  .ite h.onSi.setFld.onSi h.onSi.setFld.setFld

theorem State.AtClock.siReview (h : s.AtClock c) : s.siReview.AtClock c := by
  unfold State.siReview
  extract_lets inh was s1 s2 s3 s4
  have h2 : s2.AtClock c := State.AtClock.setFld (.ite h.onSi h)
  have h3 : s3.AtClock c := .ite h2.onSi.setFld h2
  have h4 : s4.AtClock c := .ite h3.setEnable.setEvt (.ite h2.onSi.setFld h2)
  exact .ite h.setFld h4.setFld

theorem State.AtClock.pulse {k ln t mark} (h : s.AtClock c) : (s.pulse k ln t mark).AtClock c :=
  h.onFs

theorem State.AtClock.gapOf {k ln gap} (h : s.AtClock c) : (s.gapOf k ln gap).AtClock c := by
  unfold State.gapOf
  split
  · exact h.gapOpen
  · exact h

theorem State.AtClock.fireHubLine {k ln t marked} (h : s.AtClock c) : (s.fireHubLine k ln t marked).2.AtClock c := by
  unfold State.fireHubLine
  extract_lets v s1
  have h1 : s1.AtClock c := h.setFld.onFs
  clear_value v
  split
  · split
    · exact h.gapOf
    · exact h.gapOf
    · exact h
  · split
    · exact h1.gapOf
    · exact h1.gapOf.pulse
    · exact h1.pulse.fireHub

theorem State.AtClock.fireLineHubs {ln t marked} (h : s.AtClock c) : (s.fireLineHubs ln t marked).2.AtClock c :=
  h.foldl_snd fun _ _ h2 => h2.limitLine.fireHubLine

theorem State.AtClock.showQueue (h : s.AtClock c) : s.showQueue.AtClock c := by
  unfold State.showQueue
  extract_lets q s1
  have h1 : s1.AtClock c := h.setFld
  clear_value s1 q
  split
  · exact h1.setFld.setReg.setReg64
  · exact h1.setFld.setReg.setReg64

theorem State.AtClock.acceptProduct {trig lane origin} (h : s.AtClock c) : (s.acceptProduct trig lane origin).AtClock c :=
  .ite h.onLc.setEvt.showQueue.count h.onLc.setEvt.showQueue

theorem State.AtClock.beginRepeats {go} (h : s.AtClock c) : (s.beginRepeats go).AtClock c :=
  h.onLc

theorem State.AtClock.numberRepeats (h : s.AtClock c) : s.numberRepeats.AtClock c := by
  unfold State.numberRepeats
  extract_lets _
  split
  · exact h
  · exact h
  · exact (h.each (fun _ _ h2 => h2.acceptProduct)).onLc

theorem State.AtClock.onTile {key f} (h : s.AtClock c) : (s.onTile key f).AtClock c :=
  h.onAdm

theorem State.AtClock.pickCore {clusters} (h : s.AtClock c) : (s.pickCore clusters).2.AtClock c := by
  unfold State.pickCore
  split
  · exact h
  · exact h.grant

theorem State.AtClock.pickPair (h : s.AtClock c) : s.pickPair.2.AtClock c := by
  unfold State.pickPair
  split
  next e => exact h.pickCore.of_eq e
  next e =>
    have h1 := h.pickCore.of_eq e
    split
    next e => exact h1.pickCore.of_eq e
    next e => exact h1.pickCore.of_eq e

theorem State.AtClock.clearSlot {slot} (h : s.AtClock c) : (s.clearSlot slot).AtClock c := by
  unfold State.clearSlot
  split
  · exact h.clearBytes
  · exact h

theorem State.AtClock.takeSlots (h : s.AtClock c) : s.takeSlots.AtClock c := by
  unfold State.takeSlots
  exact h.foldl fun _ _ h2 => .ite h2 (by split; exacts [h2, .ite h2.onTile h2.onTile.clearSlot])

theorem State.AtClock.releaseZero {key} (h : s.AtClock c) : (s.releaseZero key).AtClock c := by
  unfold State.releaseZero
  split
  · exact h
  · exact h.clearSlot.onTile.unresolved.count.setEvt.fault

theorem State.AtClock.showOldest (h : s.AtClock c) : s.showOldest.AtClock c :=
  h.setReg

theorem State.AtClock.releaseLatches (h : s.AtClock c) : s.releaseLatches.AtClock c :=
  h.onAdm.showOldest

theorem State.AtClock.tadmUpdate (h : s.AtClock c) : s.tadmUpdate.AtClock c :=
  h.onLc

theorem State.AtClock.sendWindow {j lo hi} (h : s.AtClock c) : (s.sendWindow j lo hi).AtClock c :=
  h.onSi

theorem State.AtClock.drain {j stop} (h : s.AtClock c) : (s.drain j stop).AtClock c := by
  unfold State.drain
  split
  · exact h.setSlotState
  · exact h.setJob.setSlotState.sendWindow.tadmUpdate

theorem State.AtClock.slotsAtBand {b} (h : s.AtClock c) : (s.slotsAtBand b).AtClock c := by
  unfold State.slotsAtBand
  refine .foldl (h.foldl fun t j ht => ?_) fun t j ht => ?_
  · split
    · exact ht
    · extract_lets t1 t2 t3
      have h1 : t1.AtClock c := .ite ht.drain ht
      have h2 : t2.AtClock c := h1.setSlotState.setEvt.sendWindow
      have h3 : t3.AtClock c := .ite h2.onLc (.ite h2.beginRepeats h2)
      exact .ite h3.tadmUpdate ht
  · split
    · exact ht
    · exact .ite ht.drain ht

theorem State.AtClock.latchFields {p trig lane} (h : s.AtClock c) : (s.latchFields p trig lane).AtClock c :=
  .ite h h.onAdm.showOldest

theorem State.AtClock.spend {key work bytes} (h : s.AtClock c) : (s.spend key work bytes).AtClock c :=
  h.onAdm

theorem State.AtClock.tableRead {a n} (h : s.AtClock c) : (s.tableRead a n).AtClock c :=
  h.dramTouch.reportLines.blockUnmapped

theorem State.AtClock.latchFieldsOf {p : Option ProdRef} {trig : Bool} {lane : Nat} (h : s.AtClock c) :
    (match p with | some q => s.latchFields q trig lane | none => s : State).AtClock c := by
  cases p with
  | none => exact h
  | some q => exact h.latchFields

theorem State.AtClock.dispatchTile {j job p band col r} (h : s.AtClock c) : (s.dispatchTile j job p band col r).AtClock c := by
  unfold State.dispatchTile
  extract_lets hdr key push lane win cap
  split
  extract_lets blank
  split
  · exact h.onAdm
  · extract_lets d e s1 fw s2 s4 need used beyond t s5
    have h1 : s1.AtClock c := h.tableRead.tableRead
    have h2 : s2.AtClock c := h1.latchFieldsOf
    have h4 : s4.AtClock c := .ite h2.latchFieldsOf h1
    refine .ite ?_ (.ite h4.spend.onAdm ?_)
    · exact h4.onAdm.releaseZero.count.setEvt.fault
    · split
      next e =>
        have h6 := h4.spend.pickPair.of_eq e
        split
        next e => exact (State.AtClock.of_eq (.ite_snd h6.draw h6) e).onAdm

theorem State.AtClock.dispatchPlane {lead omin p x} (h : s.AtClock c) : (s.dispatchPlane lead omin p x).AtClock c := by
  unfold State.dispatchPlane
  extract_lets _ _ s1
  have h1 : s1.AtClock c := h.slotsAtBand
  exact .ite h1 (by split; exacts [h1, h1.spend.each (fun _ _ h3 => h3.dispatchTile)])

theorem State.AtClock.drained {x j} (h : s.AtClock c) : (s.drained x j).AtClock c := by
  unfold State.drained
  split
  · exact .ite h.setSlotState.setJob.onAdm.tadmUpdate h
  · exact h

theorem State.AtClock.leaveStore {x} (h : s.AtClock c) : (s.leaveStore x).AtClock c :=
  h.onAdm

theorem State.AtClock.admLine {x} (h : s.AtClock c) : (s.admLine x).AtClock c := by
  unfold State.admLine
  extract_lets s1 s2
  have h1 : s1.AtClock c := .ite (by split; exacts [h.each (fun _ _ h2 => h2.dispatchPlane), h]) h
  have h2 : s2.AtClock c := h1.leaveStore.takeSlots.each fun _ _ h3 => h3.drained
  exact h2.releaseLatches.tadmUpdate

theorem State.AtClock.feedLate {x} (h : s.AtClock c) : (s.feedLate x).AtClock c :=
  h.onLc

theorem State.AtClock.feedResume {n} (h : s.AtClock c) : (s.feedResume n).AtClock c :=
  .ite h.onLc.setFld.setFld.setEvt h

theorem State.AtClock.camLine {k n t} (h : s.AtClock c) : (s.camLine k n t).AtClock c :=
  .ite h (.ite h.count.setEvt.camTrigger h.onLc.camTrigger)

theorem State.AtClock.takeAbandoned {n} (h : s.AtClock c) : (s.takeAbandoned n).2.AtClock c :=
  h.onLc

theorem State.AtClock.fireAt {n e} (h : s.AtClock c) : (s.fireAt n e).AtClock c := by
  unfold State.fireAt
  extract_lets _
  split
  next e =>
    have h2 := State.AtClock.of_eq h.takeAbandoned e
    extract_lets _
    split
    next e =>
      have h3 := State.AtClock.of_eq h2.skipLine.fireLine.siReview.fireLineHubs e
      exact (h3.whenClocked (fun _ h4 => h4.dlLine)).foldl fun _ _ h4 => h4.holdHub

end

end Sys2Proof.Machine

namespace Sys2Proof.Machine

/-! ### A line event (R150, R154) -/

/-- The warning of R157 leaves the view of the line clock. -/
theorem State.AtClock.overspeed {s : State} {c : BitVec 64 × BitVec 96 × Option Nat × Option Nat} {period : Option Nat}
    (h : s.AtClock c) : (s.overspeed period).AtClock c := by
  unfold State.overspeed
  extract_lets twarn slow u v
  have hu : u.AtClock c := h.onLc
  have hv : v.AtClock c := h.onLc
  clear_value u v slow
  exact .ite (.ite hu.setFld hu) (.ite hv hv.setFld.setEvt)

/-- The line clock's own part of line event N. -/
theorem lcLine_atClock (s : State) (n : Nat) (e : Emission) :
    (s.lcLine n e).AtClock (match e with
      | .skipped _ => (BitVec.ofNat 64 n, s.lc.pos, s.lc.lastEmit, some (s.lc.skipRun.getD n))
      | e => (BitVec.ofNat 64 n, s.lc.pos, some e.at_, none)) := by
  obtain ⟨u, hu⟩ : ∃ u, s.onLc (fun l => { l with hwm := BitVec.ofNat 64 n }) = u := ⟨_, rfl⟩
  have start : u.AtClock (BitVec.ofNat 64 n, s.lc.pos, s.lc.lastEmit, s.lc.skipRun) := hu ▸ rfl
  have emitted : ∀ (v : State) (at_ : Nat), v.AtClock (BitVec.ofNat 64 n, s.lc.pos, s.lc.lastEmit, s.lc.skipRun) →
      ((v.onLc fun l => { l with lastEmit := some at_, perFresh := false, skipRun := none })).AtClock
        (BitVec.ofNat 64 n, s.lc.pos, some at_, none) := by
    intro v at_ h
    unfold State.AtClock LcSt.view at h ⊢
    obtain ⟨h1, h2⟩ := Prod.mk.inj h
    obtain ⟨h2, -⟩ := Prod.mk.inj h2
    rw [onLc_lc]
    dsimp only
    rw [h1, h2]
  unfold State.lcLine
  dsimp only
  rw [hu]
  cases e with
  | skipped t =>
    dsimp only
    refine State.AtClock.overspeed ?_
    obtain ⟨v, hv⟩ : ∃ v, (if ((u.count (LC_CNT 1)).setEvt BLK_LC 1).lc.skipRun.isNone = true
      then ((u.count (LC_CNT 1)).setEvt BLK_LC 1).fault 0x0201 else (u.count (LC_CNT 1)).setEvt BLK_LC 1) = v := ⟨_, rfl⟩
    have counted : v.AtClock (BitVec.ofNat 64 n, s.lc.pos, s.lc.lastEmit, s.lc.skipRun) :=
      hv ▸ .ite start.count.setEvt.fault start.count.setEvt
    rw [hv]
    unfold State.AtClock LcSt.view at counted ⊢
    obtain ⟨h1, h2⟩ := Prod.mk.inj counted
    obtain ⟨h2, h3⟩ := Prod.mk.inj h2
    obtain ⟨h3, h4⟩ := Prod.mk.inj h3
    rw [onLc_lc]
    dsimp only
    rw [h1, h2, h3, h4]
  | onTime t => exact emitted _ t start.setFld.overspeed
  | squeezed t => exact emitted _ t start.count.setFld.overspeed

/-- Line event N, as a whole. -/
theorem State.AtClock.lineAt {s : State} {c : BitVec 64 × BitVec 96 × Option Nat × Option Nat} {n : Nat} {e : Emission}
    (h : (s.lcLine n e).AtClock c) : (s.lineAt n e).AtClock c := by
  unfold State.lineAt
  extract_lets s1 s2 s3 s4 s5
  have h1 : s1.AtClock c := h.wakeSource.addStamp.fireAt
  clear_value s1
  have h2 : s2.AtClock c := h1.each fun _ _ h3 => h3.camLine
  clear_value s2
  have h3 : s3.AtClock c := h2.numberRepeats
  clear_value s3
  have h4 : s4.AtClock c := .ite h3.dsLine h3
  clear_value s4
  have h5 : s5.AtClock c := .ite h4.admLine h4
  clear_value s5
  exact h5.feedLate.feedResume.placeAgain

theorem lineEventAdvances : lineEventRaisesH := by
  intro s
  refine ⟨fun none_ => ?_, fun d due => ?_⟩
  · change execLineEvent s = _
    unfold execLineEvent
    rw [none_]
  · intro e n
    obtain ⟨t, ht⟩ : ∃ t, s.setFld LC_TADM LC_TADM_TADM s.lc.tadmNext = t := ⟨_, rfl⟩
    have lc : t.lc = s.lc := ht ▸ rfl
    have he : e = t.emission d := ht ▸ rfl
    have run : exec .lineEvent s = .next (if s.feedBlocks n ∨ 16 * s.now + 15 < e.at_ then s else t.lineAt n e) := by
      rw [he, ← ht]
      change execLineEvent s = _
      unfold execLineEvent
      rw [due]
    clear_value e
    have next : BitVec.ofNat 64 n = s.lc.hwm + 1 := (BitVec.ofNat_toNat _ _).trans (BitVec.setWidth_eq _)
    refine ⟨fun h => by rw [run, if_pos h], fun free on => ?_⟩
    rw [if_neg (fun h => h.elim (fun h => Bool.false_ne_true (free.symm.trans h)) (by omega))] at run
    have view := (lcLine_atClock t n e).lineAt
    unfold State.AtClock LcSt.view at view
    rw [lc, next] at view
    refine ⟨_, run, ?_⟩
    generalize t.lineAt n e = w at *
    cases e with
    | onTime at_ =>
      obtain ⟨h1, h2⟩ := Prod.mk.inj view
      obtain ⟨h2, h3⟩ := Prod.mk.inj h2
      obtain ⟨h3, h4⟩ := Prod.mk.inj h3
      exact ⟨h1, h2, fun _ => ⟨h3, h4⟩, fun ⟨x, hx⟩ => by cases hx⟩
    | squeezed at_ =>
      obtain ⟨h1, h2⟩ := Prod.mk.inj view
      obtain ⟨h2, h3⟩ := Prod.mk.inj h2
      obtain ⟨h3, h4⟩ := Prod.mk.inj h3
      exact ⟨h1, h2, fun _ => ⟨h3, h4⟩, fun ⟨x, hx⟩ => by cases hx⟩
    | skipped at_ =>
      obtain ⟨h1, h2⟩ := Prod.mk.inj view
      obtain ⟨h2, h3⟩ := Prod.mk.inj h2
      obtain ⟨h3, h4⟩ := Prod.mk.inj h3
      exact ⟨h1, h2, fun h => absurd rfl (h at_), fun _ => ⟨h3, h4⟩⟩

/-! ### A set of P (R150) -/

/-- The loops track a new position. -/
theorem loopsTrack (s : State) (pos : BitVec 96) (n : Nat) :
    let t := s.each n fun l s => s.onLoop l fun x => { x with q := pos }
    t = { s with le := t.le } ∧ ∀ l < n, (t.loopAt l).q = pos := by
  induction n with
  | zero => exact ⟨rfl, fun l hl => absurd hl (by omega)⟩
  | succ n ih =>
    dsimp only at ih ⊢
    rw [each_succ]
    generalize s.each n (fun l s => s.onLoop l fun x => { x with q := pos }) = u at *
    obtain ⟨only, tracked⟩ := ih
    refine ⟨?_, fun l hl => ?_⟩
    · conv_lhs => rw [only]
      rfl
    · by_cases same : l = n
      · rw [same]
        exact congrArg LoopSt.q (Tbl.get_set_same _ _ _ _)
      · refine Eq.trans (congrArg LoopSt.q ?_) (tracked l (by omega))
        exact Tbl.get_set_other _ _ _ _ _ _ same

/-- A line as a position. -/
theorem position_eq (ln : Nat) :
    (BitVec.ofNat 64 ln).setWidth 96 <<< 32 = BitVec.ofNat 96 (ln * 2 ^ 32) := by
  apply BitVec.eq_of_toNat_eq
  rw [BitVec.toNat_shiftLeft, BitVec.toNat_setWidth, BitVec.toNat_ofNat, BitVec.toNat_ofNat, Nat.shiftLeft_eq]
  omega

/-- P and H are set, and the loops track P. -/
def State.placeAt (s : State) (pos : BitVec 96) (hwm : BitVec 64) : State :=
  ((s.onLc fun l => { l with pos := pos, maxPos := pos, hwm := hwm, due := none, crossed := [], moved := none }).setFld
    LC_STAT LC_STAT_REVERSED 0).each 32 fun l s => s.onLoop l fun x => { x with q := pos }

theorem placeAt_shows (u : State) (pos : BitVec 96) (hwm : BitVec 64) :
    let t := u.placeAt pos hwm
    t.lc.pos = pos ∧ t.lc.maxPos = t.lc.pos ∧ t.lc.hwm = hwm ∧ t.bit LC_STAT LC_STAT_REVERSED = false ∧
      (∀ l : Fin 32, (t.loopAt l).q = t.lc.pos) ∧ t = { u with regs := t.regs, lc := t.lc, le := t.le } ∧
      RegsBut u t [LC_STAT] := by
  unfold State.placeAt
  obtain ⟨v, hv⟩ : ∃ v, (u.onLc fun l => { l with pos := pos, maxPos := pos, hwm := hwm, due := none, crossed := [], moved := none }).setFld LC_STAT LC_STAT_REVERSED 0 = v := ⟨_, rfl⟩
  have posV : v.lc.pos = pos := by rw [← hv]; rfl
  have maxPos : v.lc.maxPos = pos := by rw [← hv]; rfl
  have hwmV : v.lc.hwm = hwm := by rw [← hv]; rfl
  have rev : v.bit LC_STAT LC_STAT_REVERSED = false := hv ▸ bit_setFld_clear _ _ _ rfl (by decide)
  have but : RegsBut u v [LC_STAT] := hv ▸ (RegsBut.of_regs (t := u.onLc _) rfl _).setFld (by simp)
  have only : v = { u with regs := v.regs, lc := v.lc } := by rw [← hv]; rfl
  rw [hv]
  obtain ⟨track, loops⟩ := loopsTrack v pos 32
  generalize v.each 32 _ = w at *
  have lc : w.lc = v.lc := by rw [track]
  have regs : w.regs = v.regs := by rw [track]
  refine ⟨lc ▸ posV, by rw [lc, maxPos, posV], by rw [lc, hwmV], ?_, fun l => by rw [loops l l.isLt, lc, posV], ?_,
    but.trans (.of_regs regs _)⟩
  · exact (bit_of_reg _ (reg_of_regs regs _)).trans rev
  · rw [lc, regs]
    conv_lhs => rw [track, only]

theorem lcSetWrite_off (b : State) (hi : Word) (off : b.fld LC_CTRL LC_CTRL_SRC = 0 ∨ 3 < b.fld LC_CTRL LC_CTRL_SRC) :
    b.lcSetWrite hi = (b.setReg LC_SET_HI hi).placeAt
      (BitVec.ofNat 96 (((b.reg LC_SET_LO).toNat + hi.toNat * 2 ^ 32) * 2 ^ 32))
      (BitVec.ofNat 64 ((b.reg LC_SET_LO).toNat + hi.toNat * 2 ^ 32) - 1) := by
  have line : (b.setReg LC_SET_HI hi).reg64 LC_SET_LO LC_SET_HI = (b.reg LC_SET_LO).toNat + hi.toNat * 2 ^ 32 := by
    rw [State.reg64, reg_setReg_same, reg_setReg_other _ _ _ _ (by decide)]
  unfold State.lcSetWrite
  rw [if_pos off]
  dsimp only
  rw [line, position_eq]
  rfl

theorem positionIsSet : linePositionIsSetWhileOff := by
  intro s m hi
  have run : exec (.lcSet m hi) s = .next (s.regGuard m LC_SET_HI true fun s => s.lcSetWrite hi) := rfl
  refine ⟨denied_of_regGuard run, fun permit => ?_⟩
  rw [regGuard_permitted _ permit] at run
  have regs := busGrant_regs s m
  have si := busGrant_si s m
  have src : (s.busGrant m).fld LC_CTRL LC_CTRL_SRC = s.fld LC_CTRL LC_CTRL_SRC := fld_of_regs regs _ _
  have low : (s.busGrant m).reg LC_SET_LO = s.reg LC_SET_LO := reg_of_regs regs _
  generalize s.busGrant m = b at *
  intro f
  refine ⟨fun off => ?_, fun on in_ => ?_⟩
  · intro ln
    rw [lcSetWrite_off b hi (by rw [src]; exact off), low] at run
    change exec (.lcSet m hi) s = .next ((b.setReg LC_SET_HI hi).placeAt (BitVec.ofNat 96 (ln * 2 ^ 32)) (BitVec.ofNat 64 ln - 1)) at run
    clear_value ln
    obtain ⟨pos, maxPos, hwm, rev, loops, only, but⟩ := placeAt_shows (b.setReg LC_SET_HI hi) (BitVec.ofNat 96 (ln * 2 ^ 32)) (BitVec.ofNat 64 ln - 1)
    generalize State.placeAt _ _ _ = t at *
    refine ⟨t, run, pos, maxPos, hwm, rev, loops, only, ?_⟩
    have set : RegsBut s (b.setReg LC_SET_HI hi) [LC_SET_HI, LC_STAT] := (RegsBut.of_regs regs _).setReg (by simp)
    exact set.trans (but.mono (by simp))
  · rw [State.lcSetWrite, if_neg (by rw [src]; omega)] at run
    exact ⟨_, run, ignored_frame _ _ _ _, (ignored_reported _ _).from (by rw [si])⟩

end Sys2Proof.Machine

namespace Sys2Proof.Machine

/-! ### Products (R172 to R174, R176) -/

/-- Only registers of a list change. -/
def RegsOnly (s t : State) (l : List Nat) : Prop := t = { s with regs := t.regs } ∧ RegsBut s t l

theorem RegsOnly.refl (s : State) (l : List Nat) : RegsOnly s s l := ⟨rfl, RegsBut.refl s l⟩

theorem RegsOnly.setReg {s t : State} {l : List Nat} {off : Nat} {v : Word} (h : RegsOnly s t l) (ho : off ∈ l) :
    RegsOnly s (t.setReg off v) l := by
  obtain ⟨only, but⟩ := h
  refine ⟨?_, but.setReg ho⟩
  obtain ⟨r, hr⟩ : ∃ r, t = { s with regs := r } := ⟨_, only⟩
  rw [hr]
  rfl

theorem RegsOnly.setFld {s t : State} {l : List Nat} {off x : Nat} {f : Fld} (h : RegsOnly s t l) (ho : off ∈ l) :
    RegsOnly s (t.setFld off f x) l := h.setReg ho

theorem showQueue_shows (s : State) : RegsOnly s s.showQueue [PQ_STAT, PQ_NUM, PQ_ORG_LO, PQ_ORG_HI] := by
  have count : RegsOnly s (s.setFld PQ_STAT PQ_STAT_COUNT s.lc.prodQueue.length) [PQ_STAT, PQ_NUM, PQ_ORG_LO, PQ_ORG_HI] :=
    (RegsOnly.refl s _).setFld (by simp)
  have entry : ∀ (u : State) (lane : Nat) (num : Word) (origin : Nat), RegsOnly s u [PQ_STAT, PQ_NUM, PQ_ORG_LO, PQ_ORG_HI] →
      RegsOnly s (((u.setFld PQ_STAT PQ_STAT_LANE lane).setReg PQ_NUM num).setReg64 PQ_ORG_LO PQ_ORG_HI origin)
        [PQ_STAT, PQ_NUM, PQ_ORG_LO, PQ_ORG_HI] := fun u lane num origin h =>
    (((h.setFld (by simp)).setReg (by simp)).setReg (by simp)).setReg (by simp)
  unfold State.showQueue
  extract_lets q u
  have hu : RegsOnly s u [PQ_STAT, PQ_NUM, PQ_ORG_LO, PQ_ORG_HI] := count
  clear_value u q
  cases q with
  | cons p rest => exact entry u _ _ _ hu
  | nil => exact entry u _ _ _ hu

/-- The product that a lane's trigger makes. -/
def State.newProduct (s : State) (trig : Bool) (lane origin : Nat) : Product :=
  { num := s.lc.prodNext - BitVec.ofNat 32 (s.lc.products.filter fun p => p.follows s.now lane).length
    lane := lane, origin := origin, trig := trig, at_ := s.now }

theorem acceptProduct_shows (s : State) (trig : Bool) (lane origin : Nat) :
    let t := s.acceptProduct trig lane origin
    let after := fun (p : Product) => p.follows s.now lane
    let moved := fun (p : Product) => if after p then { p with num := p.num + 1 } else p
    t.lc.prodNext = s.lc.prodNext + 1 ∧ t.lc.products.head? = some (s.newProduct trig lane origin) ∧
    t.lc.prodQueue = (s.lc.prodQueue.filter (!after ·) ++ s.newProduct trig lane origin ::
      (s.lc.prodQueue.filter after).map moved).take 256 ∧
    (256 ≤ s.lc.prodQueue.length → t.reg (LC_CNT 4) = satInc (s.reg (LC_CNT 4))) ∧ EventSet t BLK_LC 7 ∧ t.mem = s.mem := by
  intro t after moved
  obtain ⟨u, hu⟩ : ∃ u, (s.onLc fun l => { l with
    prodNext := l.prodNext + 1, products := s.newProduct trig lane origin :: l.products.map moved,
    prodQueue := (l.prodQueue.filter (!after ·) ++ s.newProduct trig lane origin :: (l.prodQueue.filter after).map moved).take 256 }) = u := ⟨_, rfl⟩
  have next : u.lc.prodNext = s.lc.prodNext + 1 := by rw [← hu]; rfl
  have head : u.lc.products.head? = some (s.newProduct trig lane origin) := by rw [← hu]; rfl
  have queue : u.lc.prodQueue = (s.lc.prodQueue.filter (!after ·) ++ s.newProduct trig lane origin ::
      (s.lc.prodQueue.filter after).map moved).take 256 := by rw [← hu]; rfl
  have mem : u.mem = s.mem := by rw [← hu]; rfl
  have regs : u.regs = s.regs := by rw [← hu]; rfl
  obtain ⟨w, hw⟩ : ∃ w, (u.setEvt BLK_LC 7).showQueue = w := ⟨_, rfl⟩
  have run : t = if decide (256 ≤ s.lc.prodQueue.length) = true then w.count (LC_CNT 4) else w := by
    rw [← hw, ← hu]
    rfl
  obtain ⟨only, but⟩ := showQueue_shows (u.setEvt BLK_LC 7)
  rw [hw] at only but
  have quiet := setEvt_quiet u BLK_LC 7
  have lc : w.lc = u.lc := by rw [only]; exact quiet.lc
  have memW : w.mem = u.mem := by rw [only]; exact quiet.mem
  have event : EventSet w BLK_LC 7 := (setEvt_eventSet u BLK_LC 7 (by decide)).of_reg (but _ (by decide))
  have count : w.reg (LC_CNT 4) = s.reg (LC_CNT 4) :=
    ((but _ (by decide)).trans (reg_setEvt_of_notMem _ _ _ _ (by decide))).trans (reg_of_regs regs _)
  rw [← lc] at next head queue
  rw [← memW] at mem
  clear_value t
  by_cases full : 256 ≤ s.lc.prodQueue.length
  · rw [if_pos (decide_eq_true full)] at run
    rw [run]
    exact ⟨next, head, queue, fun _ => (reg_setReg_same _ _ _).trans (congrArg satInc count), event.of_reg (reg_setReg_other _ _ _ _ (by decide)), mem⟩
  · rw [if_neg (by simpa using full)] at run
    rw [run]
    exact ⟨next, head, queue, fun h => absurd h full, event, mem⟩

theorem refuseProduct_shows (s : State) (lane : Nat) :
    EventSet (s.refuseProduct lane) BLK_LC 8 ∧ (s.refuseProduct lane).reg (LC_CNT 3) = satInc (s.reg (LC_CNT 3)) ∧
    Reported s (s.refuseProduct lane) 0x0203 (BitVec.ofNat 8 lane) 0 ∧ Frame s (s.refuseProduct lane) [LC_CNT 3] [BLK_LC] := by
  obtain ⟨u, hu⟩ : ∃ u, s.count (LC_CNT 3) = u := ⟨_, rfl⟩
  have count : u.reg (LC_CNT 3) = satInc (s.reg (LC_CNT 3)) := hu ▸ reg_setReg_same _ _ _
  have frame : Frame s u [LC_CNT 3] [BLK_LC] := hu ▸ (Frame.refl s _ _).count (by simp)
  have si : u.si = s.si := hu ▸ rfl
  unfold State.refuseProduct
  rw [hu]
  exact ⟨(setEvt_eventSet u BLK_LC 8 (by decide)).fault _ _ _,
    ((reg_fault _ _ _ _ _ (by decide)).trans (reg_setEvt_of_notMem _ _ _ _ (by decide))).trans count,
    fault_reportedFrom _ _ _ (by rw [setEvt_si, si]), (frame.setEvt (by simp)).fault⟩

/-- The wake of domains leaves what a trigger looks at. -/
theorem wakeSource_keeps (s : State) (src : Nat) :
    let u := s.wakeSource src
    u.lc = s.lc ∧ u.adm = s.adm ∧ u.now = s.now ∧ u.mem = s.mem ∧
      ∀ off, 0x200100 ≤ off → off < 0x1090000 → u.reg off = s.reg off := by
  intro u
  obtain ⟨quiet, regs⟩ := (wakeSource_wakes s src).1
  refine ⟨quiet.lc, quiet.adm, quiet.now, quiet.mem, fun off lo hi => ?_⟩
  refine regs off fun h => ?_
  rcases List.mem_append.1 h with h | h
  · obtain ⟨d, hd, rfl⟩ := List.mem_map.1 h
    have := List.mem_range.1 hd
    unfold CK_DOM at lo
    omega
  · exact absurd h (notMem_reportRegs_nil (by omega))

theorem laneJob_congr {s t : State} (adm : t.adm = s.adm) (regs : ∀ j < 2, t.reg (ADM_SLOT_STAT j) = s.reg (ADM_SLOT_STAT j))
    (lane : Nat) : t.laneJob lane = s.laneJob lane := by
  have states : ∀ v, t.slotsIn v = s.slotsIn v := by
    intro v
    unfold State.slotsIn
    refine List.filter_congr fun j hj => ?_
    have lt : j < 2 := by
      simp only [List.mem_cons, List.not_mem_nil, or_false] at hj
      omega
    rw [slotState_of_reg (regs j lt)]
  unfold State.laneJob State.jobAt
  rw [states, states, adm]

theorem ominMin_congr {s t : State} (regs : ∀ n < 64, t.reg (SLOT_CFG n) = s.reg (SLOT_CFG n) ∧ t.reg (SLOT_OFS n) = s.reg (SLOT_OFS n))
    (npl : Nat) : t.ominMin npl = s.ominMin npl := by
  have offsets : ∀ p, t.offsets p = s.offsets p := by
    intro p
    unfold State.offsets
    have same : ((List.range 64).filter fun n => t.slotEn n && t.slotPlane n == p) =
        (List.range 64).filter fun n => s.slotEn n && s.slotPlane n == p := by
      refine List.filter_congr fun n hn => ?_
      obtain ⟨cfg, -⟩ := regs n (List.mem_range.1 hn)
      unfold State.slotEn State.slotPlane
      rw [bit_of_reg _ cfg, fld_of_reg _ cfg]
    rw [same]
    refine List.map_congr_left fun n hn => ?_
    exact fld_of_reg _ (regs n (List.mem_range.1 (List.mem_filter.1 hn).1)).2
  have omin : t.omin = s.omin := funext fun p => congrArg minOf (offsets p)
  unfold State.ominMin
  rw [omin]

theorem productsQueued : productsAreNumberedAndQueued := by
  intro s lane pos s1 refused
  obtain ⟨lc, adm, now, mem, regs⟩ := wakeSource_keeps s 0
  have job : s1.laneJob lane = s.laneJob lane :=
    laneJob_congr adm (fun j hj => regs _ (by unfold ADM_SLOT_STAT; omega) (by unfold ADM_SLOT_STAT; omega)) lane
  have ominMin : ∀ npl, s1.ominMin npl = s.ominMin npl := fun npl =>
    ominMin_congr (fun n hn => ⟨regs _ (by unfold SLOT_CFG; omega) (by unfold SLOT_CFG; omega),
      regs _ (by unfold SLOT_OFS; omega) (by unfold SLOT_OFS; omega)⟩) npl
  have lastLn : s1.lastLn = s.lastLn := by unfold State.lastLn; rw [lc]
  have refuses : exec (.prodTrigger lane pos) s = .next (s1.refuseProduct lane) → refused := by
    intro run
    obtain ⟨event, count, reported, frame⟩ := refuseProduct_shows s1 lane
    exact ⟨_, run, event, count.trans (congrArg satInc (regs _ (by decide) (by decide))), reported, frame⟩
  have on : s.bit (PROD_CFG lane) PROD_CFG_EN = true → execProdTrigger lane pos s = .next (match s1.laneJob lane with
      | none => s1.refuseProduct lane
      | some (job, l) =>
        let origin := ((pos.toNat + 2 ^ 31) / 2 ^ 32 + l.sdist) % 2 ^ 64
        let early : Bool := match s1.lc.products.find? fun p => p.trig && p.lane == lane.val with
          | some p => decide (origin < p.origin + l.len)
          | none => false
        let late := decide (((origin + s1.ominMin job.hdr.npl : Nat) : Int) < s1.lastLn + 320 + (job.hdr.lead : Int))
        if early || late then s1.refuseProduct lane else s1.acceptProduct true lane origin) := by
    intro en
    exact congrArg Host.Outcome.next ((if_neg (by rw [en]; decide)).trans rfl)
  have lcS : s1.lc = s.lc := lc
  have nowS : s1.now = s.now := now
  have memS : s1.mem = s.mem := mem
  have regsS : s1.reg (LC_CNT 4) = s.reg (LC_CNT 4) := regs _ (by decide) (by decide)
  clear_value s1 refused
  refine ⟨fun off => congrArg Host.Outcome.next (if_pos (by rw [off]; rfl)), fun en none_ => refuses ?_, fun job' l en some_ => ?_,
    fun v pop => ?_, fun v idle => congrArg Host.Outcome.next (if_neg (by rw [idle]; decide))⟩
  · change execProdTrigger lane pos s = _
    rw [on en, job, none_]
  · intro origin early late after
    have run : execProdTrigger lane pos s = .next (if (match s.lc.products.find? fun p => p.trig && p.lane == lane.val with
          | some p => decide (origin < p.origin + l.len)
          | none => false) || decide late then s1.refuseProduct lane else s1.acceptProduct true lane origin) := by
      rw [on en, job, some_]
      dsimp only
      rw [ominMin, lastLn, lcS]
    have refused_ : early ∨ late → exec (.prodTrigger lane pos) s = .next (s1.refuseProduct lane) := by
      intro h
      change execProdTrigger lane pos s = _
      rw [run]
      refine congrArg Host.Outcome.next (if_pos ?_)
      rcases h with ⟨p, hp, less⟩ | h
      · rw [hp]
        simp [less]
      · rw [decide_eq_true h, Bool.or_true]
    refine ⟨fun h => refuses (refused_ h), fun onTime soon => ?_⟩
    have accepted : exec (.prodTrigger lane pos) s = .next (s1.acceptProduct true lane origin) := by
      change execProdTrigger lane pos s = _
      rw [run]
      refine congrArg Host.Outcome.next (if_neg ?_)
      rw [decide_eq_false soon, Bool.or_false]
      split
      · next p hp => exact fun h => onTime ⟨p, hp, of_decide_eq_true h⟩
      · exact Bool.false_ne_true
    obtain ⟨next, head, queue, full, event, memT⟩ := acceptProduct_shows s1 true lane origin
    rw [lcS, nowS] at queue
    rw [lcS] at full next
    have follows : ∀ p : Product, p.follows s.now lane = decide (after p) := fun p => by
      simp [Product.follows, after, Bool.beq_eq_decide_eq, Bool.decide_and]
    refine ⟨_, s1.newProduct true lane origin, accepted, next, head, rfl, rfl, rfl, ?_, fun room none_ => ?_, fun many => ⟨?_, ?_⟩,
      event, memT.trans memS⟩
    · unfold State.newProduct
      dsimp only
      rw [lcS, nowS, List.filter_congr fun p _ => follows p]
    · have stays : s.lc.prodQueue.filter (!Product.follows · s.now lane) = s.lc.prodQueue :=
        List.filter_eq_self.2 fun p hp => by rw [follows, decide_eq_false (none_ p hp)]; rfl
      have leaves : s.lc.prodQueue.filter (Product.follows · s.now lane) = [] :=
        List.filter_eq_nil_iff.2 fun p hp => by rw [follows, decide_eq_false (none_ p hp)]; exact Bool.false_ne_true
      rw [queue, stays, leaves]
      exact List.take_of_length_le (by rw [List.length_append]; exact room)
    · exact (full many).trans (congrArg satInc regsS)
    · rw [queue, List.length_take, List.length_append, List.length_cons, List.length_map]
      have parts := List.length_eq_length_filter_add (l := s.lc.prodQueue) fun p => Product.follows p s.now lane
      dsimp only
      omega
  · have run : exec (.pqPop v) s = .next (s.onLc fun l => { l with prodQueue := l.prodQueue.tail }).showQueue :=
      congrArg Host.Outcome.next (if_pos pop)
    obtain ⟨u, hu⟩ : ∃ u, (s.onLc fun l => { l with prodQueue := l.prodQueue.tail }) = u := ⟨_, rfl⟩
    have lcU : u.lc = { s.lc with prodQueue := s.lc.prodQueue.tail } := by rw [← hu]; rfl
    have regsU : u.regs = s.regs := by rw [← hu]; rfl
    have same : u = { s with lc := u.lc } := by rw [← hu]; rfl
    rw [hu] at run
    obtain ⟨only, but⟩ := showQueue_shows u
    refine ⟨_, run, ?_, ?_, fun off ho => (but off ho).trans (reg_of_regs regsU _)⟩
    · rw [only]
      exact congrArg LcSt.prodQueue lcU
    · generalize u.showQueue = w at *
      have lcW : w.lc = u.lc := by rw [only]
      rw [lcW, lcU]
      conv_lhs => rw [only, same, lcU]

theorem triggerEnds : cameraTriggerEnds := by
  intro s c rise high
  have run : exec (.camtrigEnd c) s = .next (if rise / 16 + max 1 (s.fld (CT_CFG c) CT_CFG_WIDTH) ≤ s.now then
      s.onLc fun l => { l with camHigh := l.camHigh.set none c none } else s) := by
    change execCamtrigEnd c s = _
    unfold execCamtrigEnd
    rw [high]
  refine ⟨fun past => ?_, fun still => by rw [run, if_neg (by omega)]⟩
  rw [if_pos past] at run
  exact ⟨_, run, Tbl.get_set_same _ _ _ _, rfl⟩

/-- Settles O29: what the other blocks do at a line event leaves H, P, the last emission and the run of skips. -/
theorem lineEventsAndProducts : Obligations.LineEventsAndProducts :=
  ⟨lineEventAdvances, positionIsSet, productsQueued, triggerEnds⟩

end Sys2Proof.Machine

/-!
Camera links, the configuration check and the mailboxes (R209, R219 to R223, O35): a stopped port leaves the
stripes that a pipe serves, as no line that a pipe computes touches them (State.Working).
-/

namespace Sys2Proof.Machine

/-! ### What the pipes compute leaves the work in progress (R218) -/

theorem inMc_ip {s t : State} (h : InMc s t) : t.ip = s.ip := by
  rw [h]

theorem dramPut_ip (s : State) (port src a : Nat) (hint : PageHint) (bs : List Byte) :
    (s.dramPut port src a hint bs).ip = s.ip := by
  unfold State.dramPut
  extract_lets c
  clear_value c
  split
  · have woken := (dramWake_byScheduler s c a bs.length true).1
    generalize s.dramWake c a bs.length true = u at *
    exact (inMc_ip (dramQueue_inMc u _ _ _ _ _)).trans (by rw [woken])
  · have granted := (portGrant_byScheduler s c port src).1
    generalize s.portGrant c port src = u at *
    exact (inMc_ip (acceptWrite_inMc u _ _ _ _ _)).trans (by rw [granted])

theorem blockSave_ip (s : State) (blk a : Nat) (bs : List Byte) (src : Nat) : (s.blockSave blk a bs src).ip = s.ip := by
  unfold State.blockSave
  extract_lets u
  have hu : u.ip = s.ip := foldl_keeps (fun s t => t.ip = s.ip) (fun _ => rfl) (fun _ _ _ h k => k.trans h) _
    (fun t p => by
      dsimp only
      split
      · rfl
      · rfl
      · exact dramPut_ip _ _ _ _ _ _
      · rfl) _ s
  clear_value u
  unfold State.blockUnmapped
  split
  · exact (fault_quiet _ _ _ _).ip.trans hu
  · exact hu

/-- The stripes under way are these. -/
def State.Working (s : State) (w : Tbl (Option PipeWork)) : Prop := s.ip.work = w

section
variable {s : State} {w : Tbl (Option PipeWork)}

theorem State.Working.of_ip {t : State} (h : s.Working w) (e : t.ip = s.ip) : t.Working w := by
  unfold State.Working
  rw [e]
  exact h

theorem State.Working.ite {t : State} {b : Prop} [Decidable b] (hs : s.Working w) (ht : t.Working w) :
    (if b then s else t).Working w := by
  split
  · exact hs
  · exact ht

theorem State.Working.foldl {α : Type} {f : State → α → State} {xs : List α} (h : s.Working w)
    (hf : ∀ t a, t.Working w → (f t a).Working w) : (xs.foldl f s).Working w :=
  List.foldlRecOn xs f h fun t ht a _ => hf t a ht

theorem State.Working.setReg {off : Nat} {v : Word} (h : s.Working w) : (s.setReg off v).Working w := h
theorem State.Working.setFld {off x : Nat} {f : Fld} (h : s.Working w) : (s.setFld off f x).Working w := h
theorem State.Working.count {off : Nat} (h : s.Working w) : (s.count off).Working w := h
theorem State.Working.onCtx {n : Nat} {f : PipeCtx → PipeCtx} (h : s.Working w) : (s.onCtx n f).Working w := h
theorem State.Working.onRoi {n r : Nat} {f : RoiSt → RoiSt} (h : s.Working w) : (s.onRoi n r f).Working w := h
theorem State.Working.onCarry {f : IpSt → IpSt} (h : s.Working w) (hf : ∀ i, (f i).work = i.work := by intro _; rfl) :
    (s.onIp f).Working w := (hf _).trans h
theorem State.Working.draw (h : s.Working w) : s.draw.2.Working w := h
theorem State.Working.setEvt {blk n : Nat} (h : s.Working w) : (s.setEvt blk n).Working w := h.of_ip (setEvt_quiet _ _ _).ip
theorem State.Working.fault {code : BitVec 16} {inst info : Nat} (h : s.Working w) : (s.fault code inst info).Working w :=
  h.of_ip (fault_quiet _ _ _ _).ip

theorem State.Working.pvDrop {n : Nat} (h : s.Working w) : (s.pvDrop n).Working w := h.count.setEvt.fault

theorem State.Working.preview {n key : Nat} {l : PipeLine} {room : Bool} (h : s.Working w) :
    (s.preview n key l room).Working w := 
  .ite h (.ite (State.Working.onCarry h.onCtx) (.ite (State.Working.onCarry h.onCtx).onCtx (State.Working.onCarry h.onCtx).pvDrop))

theorem State.Working.roiEnd {n r : Nat} {incomplete drop : Bool} (h : s.Working w) :
    (s.roiEnd n r incomplete drop).Working w := by
  unfold State.roiEnd
  extract_lets x head a u v t
  have hv : v.Working w := h.onRoi.setFld
  have ht : t.Working w := .ite hv hv.setFld
  exact .ite ht.count.setEvt.fault ht

theorem State.Working.roiLine {p n r : Nat} {l : PipeLine} {room : Nat → Bool} (h : s.Working w) :
    (s.roiLine p n l room r).Working w := by
  unfold State.roiLine
  extract_lets due was q s1 s2 s3 row k limit x0 bad s4 s5
  have h2 : s2.Working w := h.onRoi.setFld
  have advanced : ∀ t : State, t.Working w → (t.roiAdvance n r).Working w := fun t ht => ht
  have h3 : s3.Working w := .ite (advanced s h).count.setEvt.fault (.ite (.ite (advanced s2 h2) h2) h)
  have h5 : s5.Working w := (h3.of_ip (blockSave_ip _ _ _ _ _)).onRoi
  exact .ite h (.ite h3 (.ite h3.roiEnd (.ite h5.roiEnd h5)))

theorem State.Working.calLine {p n : Nat} {l : PipeLine} (h : s.Working w) : (s.calLine p n l).Working w := by
  unfold State.calLine
  exact .ite (State.Working.setFld (h.foldl fun _ _ h2 => h2)) h

theorem State.Working.lineOut {p : Nat} {k : PipeWork} {l : PipeLine} (h : s.Working w) : (s.lineOut p k l).Working w := by
  unfold State.lineOut
  extract_lets lone s1 s2
  have h2 : s2.Working w := .ite h.setReg.fault h.setReg
  have handed : ∀ t : State, t.Working w → (t.handLine k.cam l).Working w := fun t ht => ht
  exact State.Working.calLine ((handed _ h2.draw).preview.foldl fun _ _ h => h.roiLine)

theorem State.Working.pipeRunTo {p n : Nat} {k : PipeWork} (h : s.Working w) : (s.pipeRunTo p k n).Working w :=
  h.foldl fun _ _ h2 => h2.lineOut

end

end Sys2Proof.Machine

namespace Sys2Proof.Machine

/-! ### A port that stops leaves the stripes that a pipe serves (R209) -/

theorem finishWork_none {s : State} {n : Nat} (h : ∀ p k, p < 4 → s.ip.work.get none p = some k → k.cam ≠ n ∨ k.left = true) :
    s.finishWork n = s := by
  refine each_of_leaves fun p hp => ?_
  dsimp only
  split
  · next k hk =>
    refine if_neg fun both => ?_
    rcases h p k hp hk with other | left
    · exact other both.1
    · exact Bool.false_ne_true (both.2.symm.trans left)
  · rfl

/-- A stripe under way whose port has stopped, and any other stripe, as it was. -/
def StripeStays (n : Nat) (o o' : Option PipeWork) : Prop :=
  ∀ k, o = some k → ∃ k', o' = some k' ∧ k'.since = k.since ∧ k'.cost = k.cost ∧ (k.cam = n → k'.left = true)

theorem finishWork_stays (s : State) (n : Nat) : ∀ p < 4, StripeStays n (s.ip.work.get none p) ((s.finishWork n).ip.work.get none p) := by
  have upTo : ∀ m, (∀ p < m, StripeStays n (s.ip.work.get none p) ((s.each m fun p s => match s.ip.work.get none p with
      | some k =>
        if k.cam = n ∧ k.left = false then
          (s.pipeRunTo p k 16).onIp fun i => { i with work := i.work.set none p (some { k with line := 16, left := true }) }
        else s
      | none => s).ip.work.get none p)) ∧ ∀ p, m ≤ p → ((s.each m fun p s => match s.ip.work.get none p with
      | some k =>
        if k.cam = n ∧ k.left = false then
          (s.pipeRunTo p k 16).onIp fun i => { i with work := i.work.set none p (some { k with line := 16, left := true }) }
        else s
      | none => s).ip.work.get none p) = s.ip.work.get none p := by
    intro m
    induction m with
    | zero => exact ⟨fun p hp => absurd hp (by omega), fun p _ => rfl⟩
    | succ m ih =>
      rw [each_succ]
      generalize State.each s m _ = u at *
      obtain ⟨done, rest⟩ := ih
      have here := rest m (le_refl m)
      cases hk : u.ip.work.get none m with
      | none =>
        rw [hk] at here
        refine ⟨fun p hp => ?_, fun p hp => rest p (by omega)⟩
        by_cases same : p = m
        · rw [same, ← here]
          exact fun k h => nomatch h
        · exact done p (by omega)
      | some k =>
        rw [hk] at here
        dsimp only
        split
        · next stops =>
          have ran : (u.pipeRunTo m k 16).ip.work = u.ip.work := State.Working.pipeRunTo (s := u) rfl
          generalize u.pipeRunTo m k 16 = v at *
          refine ⟨fun p hp => ?_, fun p hp => ?_⟩
          · by_cases same : p = m
            · rw [same, ← here]
              intro k0 h
              rw [← Option.some.inj h]
              exact ⟨_, Tbl.get_set_same _ _ _ _, rfl, rfl, fun _ => rfl⟩
            · have other : ((v.onIp fun i => { i with work := i.work.set none m (some { k with line := 16, left := true }) }).ip.work.get none p) = u.ip.work.get none p :=
                (Tbl.get_set_other _ _ _ _ _ _ same).trans (by rw [ran])
              rw [other]
              exact done p (by omega)
          · exact (Tbl.get_set_other _ _ _ _ _ _ (by omega)).trans ((by rw [ran]; exact rest p (by omega)))
        · next goes =>
          refine ⟨fun p hp => ?_, fun p hp => rest p (by omega)⟩
          by_cases same : p = m
          · rw [same, hk, ← here]
            intro k0 h
            rw [← Option.some.inj h]
            refine ⟨k, rfl, rfl, rfl, fun cam => ?_⟩
            by_contra off
            exact goes ⟨cam, by simpa using off⟩
          · exact done p (by omega)
  exact fun p hp => (upTo 4).1 p hp

/-- A port that stops: nothing of it is kept, and the stripes under way end as they must. -/
theorem camStop_shows (s : State) (n : Nat) :
    (s.camStop n).camState n = 0 ∧ ((s.camStop n).portAt n).queue = [] ∧ ((s.camStop n).portAt n).frame = .none ∧
    ((∀ p k, p < 4 → s.ip.work.get none p = some k → k.cam ≠ n ∨ k.left = true) → (s.camStop n).mem = s.mem) ∧
    ∀ p < 4, StripeStays n (s.ip.work.get none p) ((s.camStop n).ip.work.get none p) := by
  have stays := finishWork_stays s n
  have still := @finishWork_none s n
  unfold State.camStop
  generalize s.finishWork n = u at *
  dsimp only
  obtain ⟨v, hv⟩ : ∃ v, u.onCtx n (fun x => { x with w := 0, pvAt := none }) = v := ⟨_, rfl⟩
  have mem : v.mem = u.mem := by rw [← hv]; rfl
  have work : v.ip.work = u.ip.work := by rw [← hv]; rfl
  rw [hv]
  refine ⟨(fld_setFld_same _ _ _ _ (by decide)).trans rfl, congrArg PortSt.queue (portAt_onPort v n _),
    congrArg PortSt.frame (portAt_onPort v n _), fun h => mem.trans (by rw [still h]), ?_⟩
  rw [← work] at stays
  exact stays

end Sys2Proof.Machine

namespace Sys2Proof.Machine

/-! ### Links (R208, R209) -/

theorem linkOf (n : Fin 12) : (Fin.ofNat 24 (2 * n.val)).val = 2 * n.val ∧ (Fin.ofNat 24 (2 * n.val + 1)).val = 2 * n.val + 1 :=
  ⟨Nat.mod_eq_of_lt (by omega), Nat.mod_eq_of_lt (by omega)⟩

theorem camStat_notMem (n : Fin 12) : CAM_STAT n ∉ reportRegs [BLK_CXR] :=
  notMem_reportRegs_one (b := BLK_CXR) 0xB00020 rfl (by unfold CAM_STAT; omega)

theorem camStat_notMem_nil (n : Fin 12) : CAM_STAT n ∉ reportRegs [] :=
  notMem_reportRegs_nil (by unfold CAM_STAT; omega)

/-- A bit and a rate of a port's status are set. -/
theorem camStat_set (s : State) (n : Nat) {b r : Fld} (x : Nat) (v : Bool) (hb : b.w = 1) (hb' : b.lo + 1 ≤ 32) (hr : r.w = 3)
    (hr' : r.lo + 3 ≤ 32) (apart : b.lo + b.w ≤ r.lo ∨ r.lo + r.w ≤ b.lo) (hx : x < 8)
    (state : 3 ≤ b.lo ∧ 3 ≤ r.lo) :
    let t := (s.setFld (CAM_STAT n) b (b2n v)).setFld (CAM_STAT n) r x
    t.bit (CAM_STAT n) b = v ∧ t.fld (CAM_STAT n) r = x ∧ t.camState n = s.camState n ∧ RegsOnly s t [CAM_STAT n] := by
  refine ⟨?_, ?_, ?_, ((RegsOnly.refl s _).setFld (by simp)).setFld (by simp)⟩
  · unfold State.bit
    rw [fld_setFld_field _ _ _ _ _ apart]
    exact bit_setFld_same s _ b v hb hb'
  · rw [fld_setFld_same _ _ _ _ (by omega), hr]
    exact Nat.mod_eq_of_lt hx
  · unfold State.camState
    rw [fld_setFld_field _ _ _ _ _ (by unfold CAM_STAT_STATE; dsimp only; omega),
      fld_setFld_field _ _ _ _ _ (by unfold CAM_STAT_STATE; dsimp only; omega)]

/-- A port that receives loses a link that it uses. -/
theorem portGoesDown {s u : State} (n : Fin 12) (only : RegsOnly s u [CAM_STAT n]) {b : Fld} (hb : 3 ≤ b.lo)
    (low : u.bit (CAM_STAT n) b = false) :
    let t := (((u.setFld (CAM_STAT n) CAM_STAT_STATE 3).lineDone n .none).setEvt BLK_CXR 1).fault 0x22C5 n
    t.camState n = 3 ∧ t.bit (CAM_STAT n) b = false ∧ (t.portAt n).frame = .none ∧ EventSet t BLK_CXR 1 ∧
      Reported s t 0x22C5 (BitVec.ofNat 8 n) 0 := by
  intro t
  obtain ⟨v, hv⟩ : ∃ v, (u.setFld (CAM_STAT n) CAM_STAT_STATE 3).lineDone n .none = v := ⟨_, rfl⟩
  have run : t = (v.setEvt BLK_CXR 1).fault 0x22C5 n := by rw [← hv]
  have regs : v.reg (CAM_STAT n) = (u.setFld (CAM_STAT n) CAM_STAT_STATE 3).reg (CAM_STAT n) :=
    reg_of_regs (hv ▸ lineDone_regs _ _ _) _
  have si : v.si = s.si := by rw [← hv, lineDone_si]; change u.si = s.si; rw [only.1]
  have frame : (v.portAt n).frame = .none := hv ▸ (portAt_lineDone _ _ _).1
  have stat : t.reg (CAM_STAT n) = v.reg (CAM_STAT n) := by
    rw [run]
    exact (reg_fault _ _ _ _ _ (camStat_notMem_nil n)).trans (reg_setEvt_of_notMem _ _ _ _ (camStat_notMem n))
  have cxr : t.cxr = v.cxr := by
    rw [run]
    exact (fault_quiet _ _ _ _).cxr.trans (setEvt_quiet _ _ _).cxr
  refine ⟨?_, ?_, ?_, ?_, ?_⟩
  · exact (fld_of_reg _ (stat.trans regs)).trans (fld_setFld_same _ _ _ _ (by decide))
  · refine (bit_of_reg b (stat.trans regs)).trans ?_
    unfold State.bit at low ⊢
    rw [fld_setFld_field _ _ _ _ _ (by unfold CAM_STAT_STATE; dsimp only; omega)]
    exact low
  · rw [portAt_of_cxr cxr, frame]
  · rw [run]
    exact (setEvt_eventSet _ _ _ (by decide)).fault _ _ _
  · rw [run]
    exact fault_reportedFrom _ _ _ (by rw [setEvt_si, si])

/-- What the loss of a link does, with the status that it leaves. -/
theorem linkDown_run {s : State} (n : Fin 12) (clocked : s.clocked BLK_CXR = true) (second : Bool) :
    ∃ u, exec (.linkDown (Fin.ofNat 24 (2 * n.val + b2n second))) s = .next (
      if (!second || s.bit (CAM_CFG n) CAM_CFG_LINKS) && s.camReceives n then
        (((u.setFld (CAM_STAT n) CAM_STAT_STATE 3).lineDone n .none).setEvt BLK_CXR 1).fault 0x22C5 n
      else u) ∧ u.bit (CAM_STAT n) (if second then CAM_STAT_LOCK1 else CAM_STAT_LOCK0) = false ∧
      u.camState n = s.camState n ∧ RegsOnly s u [CAM_STAT n] := by
  obtain ⟨even, odd⟩ := linkOf n
  cases second with
  | false =>
    have half : (2 * n.val) / 2 = n.val := by omega
    have parity : (2 * n.val) % 2 = 0 := by omega
    obtain ⟨low, -, state, only⟩ := camStat_set s n (b := CAM_STAT_LOCK0) (r := CAM_STAT_RATE0) 0 false rfl (by decide) rfl
      (by decide) (by decide) (by decide) (by decide)
    have run : exec (.linkDown (Fin.ofNat 24 (2 * n.val))) s = .next (
        if s.camReceives n then
          (((((s.setFld (CAM_STAT n) CAM_STAT_LOCK0 (b2n false)).setFld (CAM_STAT n) CAM_STAT_RATE0 0).setFld (CAM_STAT n)
            CAM_STAT_STATE 3).lineDone n .none).setEvt BLK_CXR 1).fault 0x22C5 n
        else (s.setFld (CAM_STAT n) CAM_STAT_LOCK0 (b2n false)).setFld (CAM_STAT n) CAM_STAT_RATE0 0) := by
      refine (congrArg Host.Outcome.next (whenClocked_clocked _ clocked)).trans ?_
      dsimp only
      rw [even, half, parity, if_pos rfl]
      unfold State.camReceives
      rw [← state]
      rfl
    exact ⟨_, run, low, state, only⟩
  | true =>
    have half : (2 * n.val + 1) / 2 = n.val := by omega
    have parity : (2 * n.val + 1) % 2 = 1 := by omega
    obtain ⟨low, -, state, only⟩ := camStat_set s n (b := CAM_STAT_LOCK1) (r := CAM_STAT_RATE1) 0 false rfl (by decide) rfl
      (by decide) (by decide) (by decide) (by decide)
    have run : exec (.linkDown (Fin.ofNat 24 (2 * n.val + 1))) s = .next (
        if s.bit (CAM_CFG n) CAM_CFG_LINKS && s.camReceives n then
          (((((s.setFld (CAM_STAT n) CAM_STAT_LOCK1 (b2n false)).setFld (CAM_STAT n) CAM_STAT_RATE1 0).setFld (CAM_STAT n)
            CAM_STAT_STATE 3).lineDone n .none).setEvt BLK_CXR 1).fault 0x22C5 n
        else (s.setFld (CAM_STAT n) CAM_STAT_LOCK1 (b2n false)).setFld (CAM_STAT n) CAM_STAT_RATE1 0) := by
      refine (congrArg Host.Outcome.next (whenClocked_clocked _ clocked)).trans ?_
      dsimp only
      rw [odd, half, parity, if_neg (by decide : ¬ (1 : Nat) = 0)]
      unfold State.camReceives
      rw [← state]
      rfl
    exact ⟨_, run, low, state, only⟩

theorem linkLock_run {s : State} (n : Fin 12) (clocked : s.clocked BLK_CXR = true) (rate : BitVec 3) :
    (∃ t, exec (.cxpLinkLock (Fin.ofNat 24 (2 * n.val)) rate) s = .next t ∧
      t.bit (CAM_STAT n) CAM_STAT_LOCK0 = true ∧ t.fld (CAM_STAT n) CAM_STAT_RATE0 = rate.toNat ∧
      t = { s with regs := t.regs } ∧ RegsBut s t [CAM_STAT n]) ∧
    (∃ t, exec (.cxpLinkLock (Fin.ofNat 24 (2 * n.val + 1)) rate) s = .next t ∧
      t.bit (CAM_STAT n) CAM_STAT_LOCK1 = true ∧ t.fld (CAM_STAT n) CAM_STAT_RATE1 = rate.toNat ∧
      t = { s with regs := t.regs } ∧ RegsBut s t [CAM_STAT n]) := by
  obtain ⟨even, odd⟩ := linkOf n
  have lt := rate.isLt
  constructor
  · have half : (2 * n.val) / 2 = n.val := by omega
    have parity : (2 * n.val) % 2 = 0 := by omega
    obtain ⟨high, shows, -, only, but⟩ := camStat_set s n (b := CAM_STAT_LOCK0) (r := CAM_STAT_RATE0) rate.toNat true rfl (by decide) rfl
      (by decide) (by decide) (by omega) (by decide)
    refine ⟨_, ?_, high, shows, only, but⟩
    refine (congrArg Host.Outcome.next (whenClocked_clocked _ clocked)).trans ?_
    dsimp only
    rw [even, half, parity, if_pos rfl]
    rfl
  · have half : (2 * n.val + 1) / 2 = n.val := by omega
    have parity : (2 * n.val + 1) % 2 = 1 := by omega
    obtain ⟨high, shows, -, only, but⟩ := camStat_set s n (b := CAM_STAT_LOCK1) (r := CAM_STAT_RATE1) rate.toNat true rfl (by decide) rfl
      (by decide) (by decide) (by omega) (by decide)
    refine ⟨_, ?_, high, shows, only, but⟩
    refine (congrArg Host.Outcome.next (whenClocked_clocked _ clocked)).trans ?_
    dsimp only
    rw [odd, half, parity, if_neg (by decide : ¬ (1 : Nat) = 0)]
    rfl

end Sys2Proof.Machine

namespace Sys2Proof.Machine

theorem RegsOnly.trans {s t u : State} {l : List Nat} (h : RegsOnly s t l) (k : RegsOnly t u l) : RegsOnly s u l := by
  obtain ⟨only, but⟩ := h
  obtain ⟨only', but'⟩ := k
  obtain ⟨r, hr⟩ : ∃ r, t = { s with regs := r } := ⟨_, only⟩
  refine ⟨?_, but.trans but'⟩
  rw [hr] at only'
  exact only'

theorem RegsOnly.mono {s t : State} {l l' : List Nat} (h : RegsOnly s t l) (hl : l ⊆ l') : RegsOnly s t l' := ⟨h.1, h.2.mono hl⟩

theorem RegsOnly.foldl {α : Type} {s t : State} {l : List Nat} {f : State → α → State} {xs : List α} (h : RegsOnly s t l)
    (hf : ∀ u, ∀ a ∈ xs, RegsOnly u (f u a) l) : RegsOnly s (xs.foldl f t) l := by
  induction xs generalizing t with
  | nil => exact h
  | cons x xs ih =>
    exact ih (h.trans (hf t x (List.mem_cons_self ..))) fun u a ha => hf u a (List.mem_cons_of_mem _ ha)

/-! ### The configuration check (R220, R221) -/

/-- The ports of a list are checked. -/
theorem markChecked_shows (xs : List Nat) (s : State) :
    (∀ n, s.bit (CAM_CFG n) CAM_CFG_CHECKED = true ∨ n ∈ xs →
      (xs.foldl (fun (s : State) n => s.setFld (CAM_CFG n) CAM_CFG_CHECKED 1) s).bit (CAM_CFG n) CAM_CFG_CHECKED = true) ∧
    RegsOnly s (xs.foldl (fun (s : State) n => s.setFld (CAM_CFG n) CAM_CFG_CHECKED 1) s) (xs.map CAM_CFG) := by
  refine ⟨?_, (RegsOnly.refl s _).foldl fun u n hn => (RegsOnly.refl u _).setFld (List.mem_map_of_mem hn)⟩
  induction xs generalizing s with
  | nil => exact fun n h => h.elim id fun h => absurd h List.not_mem_nil
  | cons x xs ih =>
    intro n h
    refine ih (s.setFld (CAM_CFG x) CAM_CFG_CHECKED 1) n ?_
    by_cases same : n = x
    · rw [same]
      exact .inl (bit_setFld_set _ _ _ rfl (by decide))
    · rcases h with h | h
      · refine .inl ?_
        rw [State.bit, fld_setFld_other _ _ _ _ _ _ (by unfold CAM_CFG; omega)]
        exact h
      · exact .inr ((List.mem_cons.1 h).resolve_left same)

/-- A check that finds no fault. -/
theorem checkAccepts {s : State} (n : Fin 12) (clocked : s.clocked BLK_CXR = true) (runs : s.cxr.checking = true)
    (good : ∀ c ∈ s.camChecks, c.2 = []) :
    ∃ t, exec .checkDone s = .next t ∧ t.bit CXR_RESULT CXR_RESULT_ACCEPT = true ∧
      EventSet t BLK_CXR 0 ∧ t.cxr.checking = false ∧ t.mem = s.mem ∧
      (n.val ∈ s.usedPorts → t.bit (CAM_CFG n) CAM_CFG_CHECKED = true) := by
  obtain ⟨u, hu⟩ : ∃ u, ({ s with cxr := { s.cxr with checking := false } } : State) = u := ⟨_, rfl⟩
  have checks : u.camChecks = s.camChecks := hu ▸ rfl
  have none_ : u.camChecks.find? (fun c => !c.2.isEmpty) = none := by
    rw [checks]
    exact List.find?_eq_none.2 fun c hc => by rw [good c hc]; decide
  obtain ⟨v, hv⟩ : ∃ v, (u.setReg CXR_RESULT 0).setFld CXR_RESULT CXR_RESULT_ACCEPT 1 = v := ⟨_, rfl⟩
  have used : v.usedPorts = s.usedPorts := by
    rw [← hv]
    refine List.filter_congr fun m hm => ?_
    unfold State.bit
    have lt := List.mem_range.1 hm
    rw [fld_setFld_other _ _ _ _ _ _ (by unfold CAM_CFG CXR_RESULT; omega), State.fld,
      reg_setReg_other _ _ _ _ (by unfold CAM_CFG CXR_RESULT; omega), ← hu]
    rfl
  obtain ⟨w, hw⟩ : ∃ w, (v.usedPorts.foldl (fun (s : State) n => s.setFld (CAM_CFG n) CAM_CFG_CHECKED 1) v) = w := ⟨_, rfl⟩
  obtain ⟨marks, marked⟩ := markChecked_shows v.usedPorts v
  obtain ⟨x, hx⟩ : ∃ x, (w.each 4 fun p s => s.setFld (CXR_LOAD p) CXR_LOAD_LOAD
    (min 0xFFFF (s.pipeLoad p / 1000000000 * 65536 + 1 / 2).floor.toNat)) = x := ⟨_, rfl⟩
  have loads : RegsOnly w x ((List.range 4).map CXR_LOAD) := hx ▸ (RegsOnly.refl w _).foldl fun y p hp =>
    (RegsOnly.refl y _).setFld (List.mem_map_of_mem hp)
  have run : exec .checkDone s = .next (x.setEvt BLK_CXR 0) := by
    change execCheckDone s = _
    unfold execCheckDone
    rw [whenClocked_clocked _ clocked, if_neg (by rw [runs]; decide)]
    dsimp only
    rw [hu, none_, hv, hw, hx]
  rw [hw] at marks marked
  have accept : v.bit CXR_RESULT CXR_RESULT_ACCEPT = true := hv ▸ bit_setFld_set _ _ _ rfl (by decide)
  have vs : v.cxr.checking = false ∧ v.mem = s.mem := by rw [← hv, ← hu]; exact ⟨rfl, rfl⟩
  have loadOut : ∀ {off : Nat}, (off < 0xB00010 ∨ 0xB00020 ≤ off) → off ∉ (List.range 4).map CXR_LOAD := by
    intro off h hm
    obtain ⟨p, hp, rfl⟩ := List.mem_map.1 hm
    have := List.mem_range.1 hp
    unfold CXR_LOAD at h
    omega
  have cfgOut : CXR_RESULT ∉ v.usedPorts.map CAM_CFG := by
    intro hm
    obtain ⟨p, -, h⟩ := List.mem_map.1 hm
    unfold CAM_CFG CXR_RESULT at h
    omega
  have quiet := setEvt_quiet x BLK_CXR 0
  have reg : ∀ off, off ∉ reportRegs [BLK_CXR] → (off < 0xB00010 ∨ 0xB00020 ≤ off) → (x.setEvt BLK_CXR 0).reg off = w.reg off :=
    fun off h1 h2 => (reg_setEvt_of_notMem _ _ _ _ h1).trans (loads.2 off (loadOut h2))
  refine ⟨_, run, ?_, setEvt_eventSet _ _ _ (by decide), ?_, ?_, fun mem => ?_⟩
  · exact (bit_of_reg _ ((reg _ (by decide) (by decide)).trans (marked.2 _ cfgOut))).trans accept
  · rw [quiet.cxr, loads.1, marked.1]
    exact vs.1
  · rw [quiet.mem, loads.1, marked.1]
    exact vs.2
  · refine (bit_of_reg _ (reg _ ?_ (by unfold CAM_CFG; omega))).trans (marks n (.inr (used ▸ mem)))
    exact notMem_reportRegs_one (b := BLK_CXR) 0xB00020 rfl (by unfold CAM_CFG; omega)

/-- A check that finds a fault. -/
theorem checkRefuses {s : State} (clocked : s.clocked BLK_CXR = true) {code port pipe : Nat} {rest : List (Nat × Nat)}
    (runs : s.cxr.checking = true)
    (found : s.camChecks.find? (fun c => !c.2.isEmpty) = some (code, (port, pipe) :: rest)) :
    ∃ t, exec .checkDone s = .next t ∧ t.bit CXR_RESULT CXR_RESULT_ACCEPT = false ∧
      t.fld CXR_RESULT CXR_RESULT_REASON = code % 2 ^ CXR_RESULT_REASON.w ∧
      t.fld CXR_RESULT CXR_RESULT_PORT = port % 2 ^ CXR_RESULT_PORT.w ∧
      t.fld CXR_RESULT CXR_RESULT_PIPE = pipe % 2 ^ CXR_RESULT_PIPE.w ∧
      EventSet t BLK_CXR 0 ∧ Frame { s with cxr := t.cxr } t [CXR_RESULT] [BLK_CXR] := by
  obtain ⟨u, hu⟩ : ∃ u, ({ s with cxr := { s.cxr with checking := false } } : State) = u := ⟨_, rfl⟩
  have found' : u.camChecks.find? (fun c => !c.2.isEmpty) = some (code, (port, pipe) :: rest) := hu ▸ found
  obtain ⟨v, hv⟩ : ∃ v, (((u.setFld CXR_RESULT CXR_RESULT_ACCEPT 0).setFld CXR_RESULT CXR_RESULT_REASON code).setFld
    CXR_RESULT CXR_RESULT_PORT port).setFld CXR_RESULT CXR_RESULT_PIPE pipe = v := ⟨_, rfl⟩
  have run : exec .checkDone s = .next (v.setEvt BLK_CXR 0) := by
    change execCheckDone s = _
    unfold execCheckDone
    rw [whenClocked_clocked _ clocked, if_neg (by rw [runs]; decide)]
    dsimp only
    rw [hu, found', ← hv]
  have reg : (v.setEvt BLK_CXR 0).reg CXR_RESULT = v.reg CXR_RESULT := reg_setEvt_of_notMem _ _ _ _ (by decide)
  have cxr : (v.setEvt BLK_CXR 0).cxr = u.cxr := (setEvt_quiet v BLK_CXR 0).cxr.trans (hv ▸ rfl)
  have frame : Frame u v [CXR_RESULT] [BLK_CXR] := hv ▸ ((((Frame.refl u _ _).setFld (by simp)).setFld (by simp)).setFld
    (by simp)).setFld (by simp)
  refine ⟨_, run, ?_, ?_, ?_, ?_, setEvt_eventSet _ _ _ (by decide), ?_⟩
  · rw [bit_of_reg _ reg, ← hv]
    unfold State.bit
    rw [fld_setFld_field _ _ _ _ _ (by decide), fld_setFld_field _ _ _ _ _ (by decide), fld_setFld_field _ _ _ _ _ (by decide)]
    exact bit_setFld_clear _ _ _ rfl (by decide)
  · rw [fld_of_reg _ reg, ← hv, fld_setFld_field _ _ _ _ _ (by decide), fld_setFld_field _ _ _ _ _ (by decide)]
    exact fld_setFld_same _ _ _ _ (by decide)
  · rw [fld_of_reg _ reg, ← hv, fld_setFld_field _ _ _ _ _ (by decide)]
    exact fld_setFld_same _ _ _ _ (by decide)
  · rw [fld_of_reg _ reg, ← hv]
    exact fld_setFld_same _ _ _ _ (by decide)
  · rw [cxr, ← hu]
    rw [← hu] at frame
    exact frame.setEvt (by simp)

end Sys2Proof.Machine

namespace Sys2Proof.Machine

/-- A field of one bit. -/
theorem bit_eq_getLsbD (s : State) (off : Nat) (f : Fld) (h : f.w = 1) : s.bit off f = (s.reg off).getLsbD f.lo := by
  unfold State.bit State.fld fldGet
  rw [h, Nat.pow_one, ← BitVec.testBit_toNat, Nat.testBit_eq_decide_div_mod_eq]
  have two : (s.reg off).toNat / 2 ^ f.lo % 2 = 0 ∨ (s.reg off).toNat / 2 ^ f.lo % 2 = 1 := by omega
  rcases two with h | h <;> rw [h] <;> rfl

/-! ### The configuration of a port (R209, R221) -/

theorem regDef_CAM_CFG : ∀ n : Fin 12, ∃ d, regDef? (CAM_CFG n) = some d ∧ d.rw = 0x76F ∧ d.rwl = 0 ∧ d.w1c = 0 := by decide

/-- The write of the fields of CAM_CFG but EN. -/
def State.cfgFields (s : State) (n : Nat) (v : Word) : State :=
  (s.setReg (CAM_CFG n) (merged 0x76F (s.reg (CAM_CFG n)) v)).setFld (CAM_CFG n) CAM_CFG_EN
    (b2n (s.bit (CAM_CFG n) CAM_CFG_EN))

/-- The fields of CAM_CFG, of which a change clears CHECKED. -/
def State.cfgTouches (s t : State) (n : Nat) : Bool :=
  let moved := fun (f : Fld) => fldGet f (s.reg (CAM_CFG n)) != t.fld (CAM_CFG n) f
  moved CAM_CFG_FMT || moved CAM_CFG_LINKS || moved CAM_CFG_JOIN || moved CAM_CFG_USE

theorem cfgFields_only (s : State) (n : Nat) (v : Word) : RegsOnly s (s.cfgFields n v) [CAM_CFG n, CAM_STAT n] :=
  ((RegsOnly.refl s _).setReg (by simp)).setFld (by simp)

theorem camTouched_only (s : State) (n : Nat) : RegsOnly s (s.camTouched n) [CAM_CFG n, CAM_STAT n] :=
  ((RegsOnly.refl s _).setFld (by simp)).setFld (by simp)

theorem camCfg_run {s : State} (n : Fin 12) (v : Word) (awake : s.awake BLK_CXR = true) :
    ∃ u, exec (.camCfgWrite n v) s = .next (
      if !v.getLsbD 1 then (if s.bit (CAM_CFG n) CAM_CFG_EN then (u.camStop n).setFld (CAM_CFG n) CAM_CFG_EN 0 else u)
      else if !u.bit (CAM_CFG n) CAM_CFG_CHECKED then u.fault 0x02C7 n (regAddr (CAM_CFG n))
      else if s.bit (CAM_CFG n) CAM_CFG_EN && u.camState n != 3 then u
      else ((u.camStop n).setFld (CAM_CFG n) CAM_CFG_EN 1).setFld (CAM_STAT n) CAM_STAT_STATE 1) ∧
      RegsOnly s u [CAM_CFG n, CAM_STAT n] ∧
      (s.cfgTouches (s.cfgFields n v) n = false → u = s.cfgFields n v) := by
  obtain ⟨d, hd, rw_, rwl, w1c⟩ := regDef_CAM_CFG n
  have typed := typedWrite_plain s v hd rwl w1c
  rw [rw_] at typed
  obtain ⟨u, hu⟩ : ∃ u, (if s.cfgTouches (s.cfgFields n v) n then (s.cfgFields n v).camTouched n else s.cfgFields n v) = u := ⟨_, rfl⟩
  refine ⟨u, ?_, ?_, fun same => by rw [← hu, same]; rfl⟩
  · have blk : CAM_CFG n / 0x100000 = BLK_CXR := by unfold CAM_CFG BLK_CXR; omega
    change execCamCfgWrite n v s = _
    unfold execCamCfgWrite
    rw [whenAwake_awake (off := CAM_CFG n) s (by rw [blk]; exact awake)]
    unfold State.camCfgWrite
    dsimp only
    rw [typed, ← hu]
    rfl
  · rw [← hu]
    split
    · exact (cfgFields_only s n v).trans (camTouched_only _ n)
    · exact cfgFields_only s n v

/-- EN of a port that is on is written 0. -/
theorem portStops {s : State} (n : Fin 12) (v : Word) (awake : s.awake BLK_CXR = true)
    (on : s.bit (CAM_CFG n) CAM_CFG_EN = true) (off : v.getLsbD 1 = false) :
    ∃ t, exec (.camCfgWrite n v) s = .next t ∧ t.camState n = 0 ∧
      t.bit (CAM_CFG n) CAM_CFG_EN = false ∧ (t.portAt n).queue = [] ∧ (t.portAt n).frame = .none ∧
      ((∀ p k, p < 4 → s.ip.work.get none p = some k → k.cam ≠ n.val ∨ k.left = true) → t.mem = s.mem) ∧
      ∀ p k, p < 4 → s.ip.work.get none p = some k → ∃ k', t.ip.work.get none p = some k' ∧
        k'.since = k.since ∧ k'.cost = k.cost ∧ (k.cam = n.val → k'.left = true) := by
  obtain ⟨u, run, ⟨only, -⟩, -⟩ := camCfg_run (s := s) n v awake
  rw [off, if_pos (show (!false) = true from rfl), if_pos on] at run
  have ip : u.ip = s.ip := by rw [only]
  have mem : u.mem = s.mem := by rw [only]
  obtain ⟨state, queue, frame, memS, stays⟩ := camStop_shows u n
  rw [ip] at memS stays
  generalize u.camStop n = w at *
  refine ⟨_, run, ?_, bit_setFld_clear _ _ _ rfl (by decide), queue, frame, fun h => (memS h).trans mem, fun p k hp hk => ?_⟩
  · unfold State.camState at state ⊢
    rw [fld_setFld_other _ _ _ _ _ _ (by unfold CAM_CFG CAM_STAT; omega)]
    exact state
  · exact stays p hp k hk

/-- EN is written 1 with the other fields as they are. -/
theorem cfgFields_same {s : State} (n : Nat) (off : s.bit (CAM_CFG n) CAM_CFG_EN = false) :
    (s.cfgFields n (s.reg (CAM_CFG n) ||| 2)).reg (CAM_CFG n) = s.reg (CAM_CFG n) := by
  have low : (s.reg (CAM_CFG n)).getLsbD 1 = false := (bit_eq_getLsbD s _ _ rfl).symm.trans off
  unfold State.cfgFields
  rw [reg_setFld_same, reg_setReg_same, off]
  refine BitVec.eq_of_getLsbD_eq fun i hi => ?_
  rw [getLsbD_fldPut _ _ _ _ hi, getLsbD_merged _ _ _ _ hi]
  by_cases one : i = 1
  · rw [one, low]
    rfl
  · rw [if_neg (by unfold CAM_CFG_EN; dsimp only; omega), BitVec.getLsbD_or]
    have two : (2 : Word).getLsbD i = false := by
      rw [show (2 : Word) = BitVec.twoPow 32 1 from rfl, BitVec.getLsbD_twoPow]
      simp [Ne.symm one]
    rw [two, Bool.or_false, ite_self]

theorem portStarts {s : State} (n : Fin 12) (awake : s.awake BLK_CXR = true)
    (off : s.bit (CAM_CFG n) CAM_CFG_EN = false) :
    (s.bit (CAM_CFG n) CAM_CFG_CHECKED = true →
      ∃ t, exec (.camCfgWrite n (s.reg (CAM_CFG n) ||| 2)) s = .next t ∧ t.camState n = 1 ∧
        t.bit (CAM_CFG n) CAM_CFG_EN = true ∧ (t.portAt n).queue = [] ∧
        ((∀ p k, p < 4 → s.ip.work.get none p = some k → k.cam ≠ n.val ∨ k.left = true) → t.mem = s.mem)) ∧
    (s.bit (CAM_CFG n) CAM_CFG_CHECKED = false →
      ∃ t, exec (.camCfgWrite n (s.reg (CAM_CFG n) ||| 2)) s = .next t ∧ t.bit (CAM_CFG n) CAM_CFG_EN = false ∧
        Reported s t 0x02C7 (BitVec.ofNat 8 n) (BitVec.ofNat 48 (regAddr (CAM_CFG n)))) := by
  obtain ⟨u, run, ⟨only, -⟩, fields⟩ := camCfg_run (s := s) n (s.reg (CAM_CFG n) ||| 2) awake
  have reg := cfgFields_same n.val off
  have untouched : s.cfgTouches (s.cfgFields n (s.reg (CAM_CFG n) ||| 2)) n = false := by
    unfold State.cfgTouches State.fld
    rw [reg]
    simp
  have regU : u.reg (CAM_CFG n) = s.reg (CAM_CFG n) := by rw [fields untouched]; exact reg
  have en : (s.reg (CAM_CFG n) ||| 2).getLsbD 1 = true := by rw [BitVec.getLsbD_or]; simp
  rw [en, if_neg (by decide), bit_of_reg _ regU, off] at run
  have ip : u.ip = s.ip := by rw [only]
  have mem : u.mem = s.mem := by rw [only]
  have si : u.si = s.si := by rw [only]
  refine ⟨fun checked => ?_, fun unchecked => ?_⟩
  · rw [checked, if_neg (show ¬ (!true) = true by decide), Bool.false_and, if_neg Bool.false_ne_true] at run
    obtain ⟨-, queue, -, memS, -⟩ := camStop_shows u n
    rw [ip] at memS
    generalize u.camStop n = w at *
    refine ⟨_, run, (fld_setFld_same _ _ _ _ (by decide)).trans rfl, ?_, queue, fun h => (memS h).trans mem⟩
    unfold State.bit
    rw [fld_setFld_other _ _ _ _ _ _ (by unfold CAM_CFG CAM_STAT; omega)]
    exact bit_setFld_set _ _ _ rfl (by decide)
  · rw [unchecked, if_pos (show (!false) = true from rfl)] at run
    refine ⟨_, run, ?_, fault_reportedFrom _ _ _ (by rw [si])⟩
    rw [bit_of_reg _ (reg_fault u _ _ _ _ (notMem_reportRegs_nil (by unfold CAM_CFG; omega))), bit_of_reg _ regU]
    exact off

end Sys2Proof.Machine

namespace Sys2Proof.Machine

/-! ### Mailboxes (R222, R223) -/

theorem regDef_MBX_CMD : ∀ n : Fin 12, ∃ d, regDef? (MBX_CMD n) = some d ∧ d.rw = 0xFF01FF02 ∧ d.rwl = 0 ∧ d.w1c = 0 := by decide

theorem mbx_notMem {off : Nat} (lo : 0xB10000 ≤ off) (hi : off < 0xB20000) : off ∉ reportRegs [BLK_CXR] :=
  notMem_reportRegs_one (b := BLK_CXR) 0xB00020 rfl (by omega)

/-- The end of a transaction. -/
theorem mbxEnd_shows (s : State) (n : Fin 12) {r : Nat} (hr : r < 8) :
    let t := s.mbxEnd n r
    (t.portAt n).mbx = none ∧ t.bit (MBX_STAT n) MBX_STAT_BUSY = false ∧ t.fld (MBX_STAT n) MBX_STAT_RESULT = r ∧
      EventSet t BLK_CXR 4 ∧ t.mem = s.mem ∧ t.fld (MBX_STAT n) MBX_STAT_ACKCODE = s.fld (MBX_STAT n) MBX_STAT_ACKCODE ∧
      ∀ off, 0xB10000 ≤ off → off < 0xB20000 → off ≠ MBX_STAT n → t.reg off = s.reg off := by
  intro t
  obtain ⟨u, hu⟩ : ∃ u, s.onPort n (fun p => { p with mbx := none }) = u := ⟨_, rfl⟩
  have mbx : (u.portAt n).mbx = none := by rw [← hu, portAt_onPort]
  have mem : u.mem = s.mem := by rw [← hu]; rfl
  have regs : u.regs = s.regs := by rw [← hu]; rfl
  have run : t = ((u.setFld (MBX_STAT n) MBX_STAT_BUSY 0).setFld (MBX_STAT n) MBX_STAT_RESULT r).setEvt BLK_CXR 4 := by
    rw [← hu]
    rfl
  obtain ⟨v, hv⟩ : ∃ v, (u.setFld (MBX_STAT n) MBX_STAT_BUSY 0).setFld (MBX_STAT n) MBX_STAT_RESULT r = v := ⟨_, rfl⟩
  have only : RegsOnly u v [MBX_STAT n] := hv ▸ ((RegsOnly.refl u _).setFld (by simp)).setFld (by simp)
  rw [hv] at run
  have quiet := setEvt_quiet v BLK_CXR 4
  have reg : ∀ off, 0xB10000 ≤ off → off < 0xB20000 → t.reg off = v.reg off := fun off lo hi => by
    rw [run]
    exact reg_setEvt_of_notMem _ _ _ _ (mbx_notMem lo hi)
  have stat := reg (MBX_STAT n) (by unfold MBX_STAT; omega) (by unfold MBX_STAT; omega)
  refine ⟨?_, ?_, ?_, ?_, ?_, ?_, fun off lo hi ne => ?_⟩
  · rw [run, portAt_of_cxr quiet.cxr, portAt_of_cxr (congrArg State.cxr only.1)]
    exact mbx
  · rw [bit_of_reg _ stat, ← hv]
    unfold State.bit
    rw [fld_setFld_field _ _ _ _ _ (by decide)]
    exact bit_setFld_clear _ _ _ rfl (by decide)
  · rw [fld_of_reg _ stat, ← hv, fld_setFld_same _ _ _ _ (by decide)]
    exact Nat.mod_eq_of_lt hr
  · rw [run]
    exact setEvt_eventSet _ _ _ (by decide)
  · rw [run, quiet.mem, only.1]
    exact mem
  · rw [fld_of_reg _ stat, ← hv, fld_setFld_field _ _ _ _ _ (by decide), fld_setFld_field _ _ _ _ _ (by decide)]
    exact fld_of_regs regs _ _
  · exact ((reg off lo hi).trans (only.2 off (by simpa using ne))).trans (reg_of_regs regs _)

/-- GO of a mailbox that is idle: what the write of the command leaves, and what follows. -/
theorem mbxGo_run {s : State} (n : Fin 12) (v : Word) (awake : s.awake BLK_CXR = true) (go : v.getLsbD 0 = true) :
    (s.bit (MBX_STAT n) MBX_STAT_BUSY = true →
      exec (.mbxGo n v) s = .next (s.fault 0x02C7 n (regAddr (MBX_CMD n)))) ∧
    (s.bit (MBX_STAT n) MBX_STAT_BUSY = false →
      ∃ u, RegsOnly s u [MBX_CMD n] ∧ u.fld (MBX_CMD n) MBX_CMD_LEN = fldGet MBX_CMD_LEN v ∧
        u.bit (MBX_CMD n) MBX_CMD_WR = (fldGet MBX_CMD_WR v == 1) ∧
        exec (.mbxGo n v) s = .next (if !u.bit (CAM_STAT n) CAM_STAT_LOCK0 then u.mbxEnd n 4 else
          (u.onPort n fun p => { p with mbx := some {
            addr := (u.reg (MBX_ADDR n)).toNat, len := mbxLen (u.fld (MBX_CMD n) MBX_CMD_LEN), write := u.bit (MBX_CMD n) MBX_CMD_WR,
            data := if u.bit (MBX_CMD n) MBX_CMD_WR then
                (List.range (mbxLen (u.fld (MBX_CMD n) MBX_CMD_LEN) / 4)).flatMap fun k => leBytes 4 (u.reg (MBX_DATA n k)).toNat
              else [],
            since := u.now } }).setFld (MBX_STAT n) MBX_STAT_BUSY 1)) := by
  have blk : MBX_CMD n / 0x100000 = BLK_CXR := by unfold MBX_CMD BLK_CXR; omega
  have run : exec (.mbxGo n v) s = .next (s.mbxCmdWrite n v) :=
    congrArg Host.Outcome.next (whenAwake_awake (off := MBX_CMD n) s (by rw [blk]; exact awake))
  refine ⟨fun busy => ?_, fun idle => ?_⟩
  · rw [run]
    exact congrArg Host.Outcome.next ((if_neg (by rw [go]; decide)).trans (if_pos busy))
  · obtain ⟨d, hd, rw_, rwl, w1c⟩ := regDef_MBX_CMD n
    have typed := typedWrite_plain s v hd rwl w1c
    rw [rw_] at typed
    obtain ⟨u, hu⟩ : ∃ u, s.setReg (MBX_CMD n) (merged 0xFF01FF02 (s.reg (MBX_CMD n)) v) = u := ⟨_, rfl⟩
    have len : u.fld (MBX_CMD n) MBX_CMD_LEN = fldGet MBX_CMD_LEN v := by
      rw [← hu, State.fld, reg_setReg_same]
      exact fldGet_merged (by decide) (by decide)
    have wr : u.fld (MBX_CMD n) MBX_CMD_WR = fldGet MBX_CMD_WR v := by
      rw [← hu, State.fld, reg_setReg_same]
      exact fldGet_merged (by decide) (by decide)
    have lt : fldGet MBX_CMD_WR v < 2 := fldGet_lt MBX_CMD_WR v
    refine ⟨u, hu ▸ (RegsOnly.refl s _).setReg (by simp), len, ?_, ?_⟩
    · unfold State.bit
      rw [wr]
      have two : fldGet MBX_CMD_WR v = 0 ∨ fldGet MBX_CMD_WR v = 1 := by omega
      rcases two with h | h <;> rw [h] <;> rfl
    · rw [run]
      unfold State.mbxCmdWrite
      rw [if_neg (show ¬ (!v.getLsbD 0) = true by rw [go]; decide), if_neg (by rw [idle]; exact Bool.false_ne_true), typed, hu]

end Sys2Proof.Machine

namespace Sys2Proof.Machine

/-- The words read stand in the data registers. -/
theorem mbxData_shows (s : State) (n : Fin 12) (data : List Byte) (m : Nat) :
    let t := s.each m fun k s => s.setReg (MBX_DATA n k) (BitVec.ofNat 32 (leNat ((data.drop (4 * k)).take 4)))
    (∀ k < m, t.reg (MBX_DATA n k) = BitVec.ofNat 32 (leNat ((data.drop (4 * k)).take 4))) ∧
      RegsOnly s t ((List.range m).map (MBX_DATA n)) := by
  refine ⟨?_, (RegsOnly.refl s _).foldl fun u k hk => (RegsOnly.refl u _).setReg (List.mem_map_of_mem hk)⟩
  induction m with
  | zero => exact fun k hk => absurd hk (by omega)
  | succ m ih =>
    intro k hk
    rw [each_succ]
    by_cases same : k = m
    · rw [same]
      exact reg_setReg_same _ _ _
    · rw [reg_setReg_other _ _ _ _ (by unfold MBX_DATA; omega)]
      exact ih k (by omega)

theorem portOnly_of_regsOnly {s t : State} {l : List Nat} (h : RegsOnly s t l) (n : Nat) : portOnly s t n l := by
  obtain ⟨only, but⟩ := h
  obtain ⟨r, hr⟩ : ∃ r, t = { s with regs := r } := ⟨_, only⟩
  refine ⟨?_, but, fun m _ => ?_⟩ <;> rw [hr]
  exact portAt_of_cxr rfl m

/-- A transaction that has ended. -/
def MbxEnded (s t : State) (n : Fin 12) (r : Nat) : Prop :=
  (t.portAt n).mbx = none ∧ t.bit (MBX_STAT n) MBX_STAT_BUSY = false ∧ t.fld (MBX_STAT n) MBX_STAT_RESULT = r ∧
    EventSet t BLK_CXR 4 ∧ t.mem = s.mem

theorem mbxEnd_ended (s : State) (n : Fin 12) {r : Nat} (hr : r < 8) : MbxEnded s (s.mbxEnd n r) n r := by
  obtain ⟨h1, h2, h3, h4, h5, -⟩ := mbxEnd_shows s n hr
  exact ⟨h1, h2, h3, h4, h5⟩

theorem mbxGoes {s : State} (n : Fin 12) (v : Word) (awake : s.awake BLK_CXR = true) (go : v.getLsbD 0 = true) :
    (s.bit (MBX_STAT n) MBX_STAT_BUSY = true →
      ∃ t, exec (.mbxGo n v) s = .next t ∧ Frame s t [] [] ∧
        Reported s t 0x02C7 (BitVec.ofNat 8 n) (BitVec.ofNat 48 (regAddr (MBX_CMD n)))) ∧
    (s.bit (MBX_STAT n) MBX_STAT_BUSY = false → s.bit (CAM_STAT n) CAM_STAT_LOCK0 = true →
      ∃ t, exec (.mbxGo n v) s = .next t ∧ t.bit (MBX_STAT n) MBX_STAT_BUSY = true ∧
        (∃ m, (t.portAt n).mbx = some m ∧ m.addr = (s.reg (MBX_ADDR n)).toNat ∧
          m.len = mbxLen (fldGet MBX_CMD_LEN v) ∧ m.write = (fldGet MBX_CMD_WR v == 1) ∧ m.since = s.now) ∧
        portOnly s t n [MBX_CMD n, MBX_STAT n]) ∧
    (s.bit (MBX_STAT n) MBX_STAT_BUSY = false → s.bit (CAM_STAT n) CAM_STAT_LOCK0 = false →
      ∃ t, exec (.mbxGo n v) s = .next t ∧ MbxEnded s t n 4) := by
  obtain ⟨busy, idle⟩ := mbxGo_run n v awake go
  have stat : ∀ u, RegsOnly s u [MBX_CMD n] → u.bit (CAM_STAT n) CAM_STAT_LOCK0 = s.bit (CAM_STAT n) CAM_STAT_LOCK0 :=
    fun u only => bit_of_reg _ (only.2 _ (by simp only [List.mem_singleton]; unfold CAM_STAT MBX_CMD; omega))
  refine ⟨fun h => ⟨_, busy h, (Frame.refl s _ _).fault, fault_reported _ _ _ _⟩, fun h locked => ?_, fun h unlocked => ?_⟩
  · obtain ⟨u, only, len, wr, run⟩ := idle h
    rw [stat u only, locked, if_neg (by decide)] at run
    have addr : u.reg (MBX_ADDR n) = s.reg (MBX_ADDR n) :=
      only.2 _ (by simp only [List.mem_singleton]; unfold MBX_ADDR MBX_CMD; omega)
    have now : u.now = s.now := by rw [only.1]
    refine ⟨_, run, bit_setFld_set _ _ _ rfl (by decide), ⟨_, congrArg PortSt.mbx (portAt_onPort u n _), ?_, ?_, wr, now⟩, ?_⟩
    · exact congrArg BitVec.toNat addr
    · exact congrArg mbxLen len
    · have start : portOnly s u n [MBX_CMD n, MBX_STAT n] :=
        portOnly_of_regsOnly (only.mono (by simp)) n
      exact portOnly_setFld (portOnly_onPort start) (by simp)
  · obtain ⟨u, only, -, -, run⟩ := idle h
    rw [stat u only, unlocked, if_pos (by decide)] at run
    obtain ⟨h1, h2, h3, h4, h5⟩ := mbxEnd_ended u n (r := 4) (by decide)
    exact ⟨_, run, h1, h2, h3, h4, h5.trans (by rw [only.1])⟩

theorem mbxDone_data (s : State) (n : Fin 12) (len : Nat) (data : List Byte) :
    let t := (s.each (len / 4) fun k s =>
      s.setReg (MBX_DATA n k) (BitVec.ofNat 32 (leNat ((data.drop (4 * k)).take 4)))).mbxEnd n 0
    MbxEnded s t n 0 ∧ (len ≤ 256 → ∀ k, k < len / 4 → t.reg (MBX_DATA n k) =
      BitVec.ofNat 32 (leNat ((data.drop (4 * k)).take 4))) := by
  obtain ⟨data_, only⟩ := mbxData_shows s n data (len / 4)
  dsimp only at data_ only ⊢
  generalize s.each (len / 4) _ = u at *
  obtain ⟨h1, h2, h3, h4, h5, -, regs⟩ := mbxEnd_shows u n (r := 0) (by decide)
  refine ⟨⟨h1, h2, h3, h4, h5.trans (by rw [only.1])⟩, fun short k hk => ?_⟩
  rw [regs _ (by unfold MBX_DATA; omega) (by unfold MBX_DATA; omega) (by unfold MBX_DATA MBX_STAT; omega)]
  exact data_ k hk

theorem mailboxesWork : mailboxTransactions := by
  intro s n v clocked
  refine ⟨fun awake go => mbxGoes n v awake go, asleep_of_whenAwake (off := MBX_CMD n) (f := fun s => s.mbxCmdWrite n v) rfl, fun awake idle => ?_,
    fun none_ => ⟨?_, fun r => ?_⟩, fun m some_ => ?_⟩
  · have blk : MBX_CMD n / 0x100000 = BLK_CXR := by unfold MBX_CMD BLK_CXR; omega
    obtain ⟨d, hd, -, rwl, w1c⟩ := regDef_MBX_CMD n
    have run : exec (.mbxGo n v) s = .next (s.setReg (MBX_CMD n) (merged d.rw (s.reg (MBX_CMD n)) v)) := by
      rw [← typedWrite_plain s v hd rwl w1c]
      refine congrArg Host.Outcome.next ((whenAwake_awake (off := MBX_CMD n) s (by rw [blk]; exact awake)).trans ?_)
      exact if_pos (by rw [idle]; rfl)
    exact ⟨_, run, rfl, (RegsBut.refl s _).setReg (by simp)⟩
  · refine congrArg Host.Outcome.next ((whenClocked_clocked _ clocked).trans ?_)
    rw [none_]
  · refine congrArg Host.Outcome.next ((whenClocked_clocked _ clocked).trans ?_)
    dsimp only
    rw [none_]
  · intro late
    have timeout : exec (.mbxTimeout n) s = .next (if late ≤ s.now then s.mbxEnd n 2 else s) := by
      refine congrArg Host.Outcome.next ((whenClocked_clocked _ clocked).trans ?_)
      rw [some_]
    have done : ∀ r, exec (.mbxDone n r) s = .next (match r with
        | .wait => s.onPort n fun p => { p with mbx := p.mbx.map fun m => { m with since := s.now } }
        | .ok data => (if m.write then s else s.each (m.len / 4) fun k s =>
            s.setReg (MBX_DATA n k) (BitVec.ofNat 32 (leNat ((data.drop (4 * k)).take 4)))).mbxEnd n 0
        | .error code => (s.setFld (MBX_STAT n) MBX_STAT_ACKCODE code.toNat).mbxEnd n 1
        | .badCrc => s.mbxEnd n 3) := by
      intro r
      refine congrArg Host.Outcome.next ((whenClocked_clocked _ clocked).trans ?_)
      dsimp only
      rw [some_]
      cases r <;> rfl
    clear_value late
    refine ⟨fun past => ⟨_, timeout.trans (by rw [if_pos past]), mbxEnd_ended s n (by decide)⟩,
      fun soon => timeout.trans (by rw [if_neg (by omega)]), ⟨_, done .wait, ?_, rfl, portOnly_onPort (portOnly_refl _ _ _)⟩,
      ⟨_, done .badCrc, mbxEnd_ended s n (by decide)⟩, fun code => ?_, fun data => ?_⟩
    · rw [portAt_onPort]
      dsimp only
      rw [some_]
      rfl
    · obtain ⟨h1, h2, h3, h4, h5, ack, -⟩ := mbxEnd_shows (s.setFld (MBX_STAT n) MBX_STAT_ACKCODE code.toNat) n (r := 1) (by decide)
      refine ⟨_, done (.error code), ⟨h1, h2, h3, h4, h5⟩, ack.trans ?_⟩
      rw [fld_setFld_same _ _ _ _ (by decide)]
      exact Nat.mod_eq_of_lt code.isLt
    · obtain ⟨ended, words⟩ := mbxDone_data s n m.len data
      have run := done (.ok data)
      dsimp only at run
      by_cases write : m.write = true
      · rw [if_pos write] at run
        exact ⟨_, run, mbxEnd_ended s n (by decide), fun h => absurd write (by rw [h]; decide)⟩
      · rw [if_neg write] at run
        exact ⟨_, run, ended, fun _ => words⟩

theorem linksAndCheck : linksAndConfigurationCheck := by
  intro s n clocked unserved
  obtain ⟨lock0, lock1⟩ : (∀ rate, _) ∧ (∀ rate, _) :=
    ⟨fun rate => (linkLock_run n clocked rate).1, fun rate => (linkLock_run n clocked rate).2⟩
  obtain ⟨u, first, low, state, only⟩ := linkDown_run n clocked false
  obtain ⟨v, second, low', state', only'⟩ := linkDown_run n clocked true
  refine ⟨lock0, lock1, fun deaf => ?_, fun hears => ?_, fun unused => ?_, fun hears two => ?_, asleep_of_whenAwake (off := CXR_CHECK) rfl,
    fun awake => ⟨_, congrArg Host.Outcome.next (whenAwake_awake (off := CXR_CHECK) s awake), rfl⟩,
    checkAccepts n clocked, fun code port pipe rest => checkRefuses clocked, fun idle => ?_,
    fun v => asleep_of_whenAwake (off := CAM_CFG n) (f := fun s => s.camCfgWrite n v) rfl, fun v => portStops n v, fun awake off => portStarts n awake off⟩
  · rw [deaf, Bool.and_false, if_neg Bool.false_ne_true] at first
    exact ⟨u, first, low, only⟩
  · rw [hears, if_pos (by rfl)] at first
    obtain ⟨h1, h2, h3, h4, h5⟩ := portGoesDown n only (b := CAM_STAT_LOCK0) (by decide) low
    exact ⟨_, first, h1, h2, h3, h4, h5⟩
  · rw [if_neg (by rcases unused with h | h <;> simp [h])] at second
    exact ⟨v, second, low', state', only'⟩
  · rw [hears, two, if_pos (by rfl)] at second
    obtain ⟨h1, h2, h3, h4, h5⟩ := portGoesDown n only' (b := CAM_STAT_LOCK1) (by decide) low'
    exact ⟨_, second, h1, h2, h3, h4, h5⟩
  · refine congrArg Host.Outcome.next ((whenClocked_clocked _ clocked).trans ?_)
    exact if_pos (by rw [idle]; rfl)

/-- Settles O35: what a pipe computes leaves the stripes under way, and a mailbox ends in one way. -/
theorem cameraLinksAndMailboxes : Obligations.CameraLinksAndMailboxes := ⟨linksAndCheck, mailboxesWork⟩

end Sys2Proof.Machine

/-!
Doorbells, software events and resets of the host interface (R324, R325, R469, O45): the write of a status may
wake a rank of DRAM, whose state stands in three bits of one register, and no register that a reset tells of changes
by it (Stirred).
-/

namespace Sys2Proof.Machine

/-! ### What a write to DRAM may do to registers far from its own (R305) -/

/-- The registers of the host interface's table and base, and of the DMA channels. -/
def HostSide (off : Nat) : Prop :=
  off = 0x1000000 ∨ off = 0x1000100 ∨ (0x1080000 ≤ off ∧ off < 0x1081000) ∨ (0x1101000 ≤ off ∧ off < 0x1101800)

/-- A register is as it was, but for the three bits of a rank's state, and these only where they show a rank that goes
into self-refresh or is in it. -/
def Stirred (v w : Word) : Prop :=
  (∀ i < 32, i < 4 ∨ 7 ≤ i → w.getLsbD i = v.getLsbD i) ∧
  (fldGet MC_RK_STAT_SR v ≠ 1 → fldGet MC_RK_STAT_SR v ≠ 2 → fldGet MC_RK_STAT_SR v ≠ 3 → w = v)

theorem Stirred.refl (v : Word) : Stirred v v := ⟨fun _ _ _ => rfl, fun _ _ _ => rfl⟩

theorem Stirred.trans {u v w : Word} (h : Stirred u v) (k : Stirred v w) : Stirred u w := by
  refine ⟨fun i hi out => (k.1 i hi out).trans (h.1 i hi out), fun h1 h2 h3 => ?_⟩
  have same := h.2 h1 h2 h3
  rw [same] at k
  exact k.2 h1 h2 h3

/-- What a channel's end leaves of the rest: no register of the host side is changed but as a rank's state. -/
def EndLeaves (s t : State) : Prop :=
  t.hi = s.hi ∧ t.boot = s.boot ∧ t.dma = s.dma ∧ ∀ off, HostSide off → Stirred (s.reg off) (t.reg off)

theorem EndLeaves.refl (s : State) : EndLeaves s s := ⟨rfl, rfl, rfl, fun _ _ => Stirred.refl _⟩

theorem EndLeaves.trans (s t u : State) (h : EndLeaves s t) (k : EndLeaves t u) : EndLeaves s u := by
  obtain ⟨h1, h2, h3, h4⟩ := h
  obtain ⟨k1, k2, k3, k4⟩ := k
  exact ⟨k1.trans h1, k2.trans h2, k3.trans h3, fun off ho => (h4 off ho).trans (k4 off ho)⟩

theorem EndLeaves.of_regs {s t : State} (hi : t.hi = s.hi) (boot : t.boot = s.boot) (dma : t.dma = s.dma)
    (regs : ∀ off, HostSide off → t.reg off = s.reg off) : EndLeaves s t :=
  ⟨hi, boot, dma, fun off ho => by rw [regs off ho]; exact Stirred.refl _⟩

theorem hostSide_notMem_nil {off : Nat} (h : HostSide off) : off ∉ reportRegs [] := by
  unfold HostSide at h
  exact notMem_reportRegs_nil (by omega)

theorem fault_endLeaves (s : State) (code : BitVec 16) (inst info : Nat) : EndLeaves s (s.fault code inst info) :=
  .of_regs (fault_quiet _ _ _ _).hi (fault_quiet _ _ _ _).boot (fault_quiet _ _ _ _).dma
    fun _ ho => reg_fault _ _ _ _ _ (hostSide_notMem_nil ho)

theorem setSr_endLeaves (s : State) (c r v : Nat) (sr : s.srOf c r = 1 ∨ s.srOf c r = 2 ∨ s.srOf c r = 3) :
    EndLeaves s (s.setSr c r v) := by
  refine ⟨rfl, rfl, rfl, fun off _ => ?_⟩
  by_cases same : off = MC_RK_STAT c r
  · have new : (s.setSr c r v).reg off = fldPut MC_RK_STAT_SR v (s.reg off) := by
      rw [same]
      exact reg_setFld_same _ _ _ _
    have state : fldGet MC_RK_STAT_SR (s.reg off) = s.srOf c r := by rw [same]; rfl
    rw [new]
    refine ⟨fun i hi out => ?_, fun h1 h2 h3 => ?_⟩
    · rw [getLsbD_fldPut _ _ _ _ hi, if_neg (by unfold MC_RK_STAT_SR; dsimp only; omega)]
    · rw [state] at h1 h2 h3
      omega
  · have new : (s.setSr c r v).reg off = s.reg off := reg_setFld_other _ _ _ _ _ same
    rw [new]
    exact Stirred.refl _

theorem disturb_endLeaves (s : State) (c r : Nat) : EndLeaves s (s.disturb c r) := by
  unfold State.disturb
  extract_lets u
  have hu : EndLeaves s u := .of_regs rfl rfl rfl fun _ _ => rfl
  clear_value u
  refine hu.trans _ _ _ ?_
  by_cases drain : u.srOf c r = srDrain
  · rw [if_pos drain]
    refine (setSr_endLeaves u c r srAwake (.inl drain)).trans _ _ _ (.of_regs rfl rfl rfl fun off ho => reg_setReg_other _ _ _ _ ?_)
    unfold HostSide at ho
    unfold MC_CNT
    omega
  · rw [if_neg drain]
    by_cases down : u.srOf c r = srIssue ∨ u.srOf c r = srInSr
    · rw [if_pos down]
      exact (setSr_endLeaves u c r srExit (.inr down)).trans _ _ _ (.of_regs rfl rfl rfl fun _ _ => rfl)
    · rw [if_neg down]
      exact .refl u

theorem dramPut_endLeaves (s : State) (port src a : Nat) (hint : PageHint) (bs : List Byte) :
    EndLeaves s (s.dramPut port src a hint bs) := by
  unfold State.dramPut
  extract_lets c
  clear_value c
  split
  · have woken : EndLeaves s (s.dramWake c a bs.length true) := by
      unfold State.dramWake
      by_cases busy : s.freqBusy = true
      · rw [if_pos busy]
        exact .refl s
      · rw [if_neg busy]
        refine foldl_keeps EndLeaves EndLeaves.refl EndLeaves.trans _ (fun u x => ?_) _ s
        exact disturb_endLeaves u x.1 x.2
    generalize s.dramWake c a bs.length true = u at *
    exact woken.trans _ _ _ (.of_regs rfl rfl rfl fun _ _ => rfl)
  · have granted : EndLeaves s (s.portGrant c port src) := .of_regs rfl rfl rfl fun _ _ => rfl
    generalize s.portGrant c port src = u at *
    have accepted := acceptWrite_inMc u port src hint a bs.length
    generalize u.acceptWrite port src hint a bs.length = v at *
    refine granted.trans _ _ _ (EndLeaves.trans u v _ (.of_regs ?_ ?_ ?_ fun off _ => ?_) (.of_regs rfl rfl rfl fun _ _ => rfl))
    · rw [accepted]
    · rw [accepted]
    · rw [accepted]
    · exact reg_of_regs (by rw [accepted]) off

end Sys2Proof.Machine

namespace Sys2Proof.Machine

/-! ### The end of a descriptor that needs the host (R323, R336) -/

theorem putBytes_endLeaves (s : State) (a : Nat) (bs : List Byte) : EndLeaves s (s.putBytes a bs) :=
  .of_regs rfl rfl rfl fun _ _ => rfl

theorem dmaPlace_endLeaves (s : State) (n : Nat) (e : Nat × List Byte) : EndLeaves s (s.dmaPlace n e) := by
  unfold State.dmaPlace
  split
  · exact dramPut_endLeaves _ _ _ _ _ _
  · exact putBytes_endLeaves _ _ _

theorem unmapped_endLeaves (s : State) (m : Master) (a : Nat) : EndLeaves s (s.unmapped m a) := by
  unfold State.unmapped
  exact fault_endLeaves _ _ _ _

theorem denied_endLeaves (s : State) (n : Fin 32) (a : Nat) : EndLeaves s (s.denied (.dma n) a) := by
  unfold State.denied
  exact fault_endLeaves _ _ _ _

section
variable {s : State} {n : Fin 32} {arrived : Bool} {a : Nat} {bs : List Byte} (at_ : s.chTail n + 0x38 = a)
  (bytes : leBytes 4 (1 + 2 * b2n arrived + 4 * 4) ++ leBytes 4 (min 0xFFFFFFFF (s.dmaAt n).moved) = bs)
include at_ bytes

theorem dmaStatus_denied (denied : (!s.permits (.dma n) a true) = true) :
    s.dmaStatus n 4 arrived = (4, s.denied (.dma n) a) := by
  unfold State.dmaStatus
  dsimp only
  rw [at_, bytes, if_pos denied, if_neg (by decide)]

theorem dmaStatus_regs (ok : ¬ (!s.permits (.dma n) a true) = true) (kind : s.region a = .regs) :
    s.dmaStatus n 4 arrived = (4, s) := by
  unfold State.dmaStatus
  dsimp only
  rw [at_, bytes, if_neg ok, kind]

theorem dmaStatus_unmapped (ok : ¬ (!s.permits (.dma n) a true) = true) (kind : s.region a = .unmapped) :
    s.dmaStatus n 4 arrived = (4, s.unmapped (.dma n) a) := by
  unfold State.dmaStatus
  dsimp only
  rw [at_, bytes, if_neg ok, kind]

theorem dmaStatus_dram (ok : ¬ (!s.permits (.dma n) a true) = true) (kind : s.region a = .dram) :
    s.dmaStatus n 4 arrived = (4, s.dramPut 5 n.val (a % 2 ^ 48) .none bs) := by
  unfold State.dmaStatus
  dsimp only
  rw [at_, bytes, if_neg ok, kind]

theorem dmaStatus_stored (ok : ¬ (!s.permits (.dma n) a true) = true) (kind : s.region a = .sram ∨ s.region a = .host) :
    s.dmaStatus n 4 arrived = (4, s.putBytes a bs) := by
  unfold State.dmaStatus
  dsimp only
  rw [at_, bytes, if_neg ok]
  rcases kind with kind | kind <;> rw [kind]

end

/-- The status of a descriptor that ends with RESULT = HOST. -/
theorem dmaStatus_endLeaves (s : State) (n : Fin 32) (arrived : Bool) :
    (s.dmaStatus n 4 arrived).1 = 4 ∧ EndLeaves s (s.dmaStatus n 4 arrived).2 := by
  obtain ⟨a, at_⟩ : ∃ a, s.chTail n + 0x38 = a := ⟨_, rfl⟩
  obtain ⟨bs, bytes⟩ : ∃ bs, leBytes 4 (1 + 2 * b2n arrived + 4 * 4) ++ leBytes 4 (min 0xFFFFFFFF (s.dmaAt n).moved) = bs :=
    ⟨_, rfl⟩
  by_cases denied : (!s.permits (.dma n) a true) = true
  · rw [dmaStatus_denied at_ bytes denied]
    exact ⟨rfl, denied_endLeaves s n a⟩
  · cases kind : s.region a with
    | regs =>
      rw [dmaStatus_regs at_ bytes denied kind]
      exact ⟨rfl, .refl s⟩
    | unmapped =>
      rw [dmaStatus_unmapped at_ bytes denied kind]
      exact ⟨rfl, unmapped_endLeaves _ _ _⟩
    | dram =>
      rw [dmaStatus_dram at_ bytes denied kind]
      exact ⟨rfl, dramPut_endLeaves _ _ _ _ _ _⟩
    | sram =>
      rw [dmaStatus_stored at_ bytes denied (.inl kind)]
      exact ⟨rfl, putBytes_endLeaves _ _ _⟩
    | host =>
      rw [dmaStatus_stored at_ bytes denied (.inr kind)]
      exact ⟨rfl, putBytes_endLeaves _ _ _⟩

/-- What the end of channel n's descriptor leaves. -/
def ChannelEnds (n : Nat) (s t : State) : Prop :=
  t.hi = s.hi ∧ t.boot = s.boot ∧ (∀ m, m ≠ n → t.dmaAt m = s.dmaAt m) ∧
    ∀ off, HostSide off → off ≠ CH_STAT n → Stirred (s.reg off) (t.reg off)

section
variable {n : Nat} {s t u : State}

theorem EndLeaves.channelEnds (n : Nat) (h : EndLeaves s t) : ChannelEnds n s t := by
  obtain ⟨hi, boot, dma, regs⟩ := h
  refine ⟨hi, boot, fun m _ => ?_, fun off ho _ => regs off ho⟩
  unfold State.dmaAt
  rw [dma]

theorem ChannelEnds.trans (h : ChannelEnds n s t) (k : ChannelEnds n t u) : ChannelEnds n s u := by
  obtain ⟨h1, h2, h3, h4⟩ := h
  obtain ⟨k1, k2, k3, k4⟩ := k
  exact ⟨k1.trans h1, k2.trans h2, fun m hm => (k3 m hm).trans (h3 m hm), fun off ho ne => (h4 off ho ne).trans (k4 off ho ne)⟩

theorem onDma_channelEnds (s : State) (n : Nat) (f : DmaCh → DmaCh) : ChannelEnds n s (s.onDma n f) :=
  ⟨rfl, rfl, fun _ hm => Tbl.get_set_other _ _ _ _ _ _ hm, fun _ _ _ => Stirred.refl _⟩

theorem chStat_channelEnds (s : State) (n : Nat) (f : Fld) (x : Nat) : ChannelEnds n s (s.setFld (CH_STAT n) f x) :=
  ⟨rfl, rfl, fun _ _ => rfl, fun off _ ne => by rw [reg_setFld_other _ _ _ _ _ ne]; exact Stirred.refl _⟩

end

theorem dmaLand_channelEnds (s : State) (n : Nat) (pick : Nat → Nat → Bool) : ChannelEnds n s (s.dmaLand n pick) := by
  unfold State.dmaLand
  extract_lets es goes
  clear_value es goes
  split
  · exact (EndLeaves.refl s).channelEnds n
  · have placed : EndLeaves s ((es.filter goes).foldl (fun (s : State) (e : (Nat × List Byte) × Nat) => s.dmaPlace n e.1) s) :=
      foldl_keeps EndLeaves EndLeaves.refl EndLeaves.trans _ (fun (u : State) (e : (Nat × List Byte) × Nat) => dmaPlace_endLeaves u n e.1) _ s
    exact (placed.channelEnds n).trans (onDma_channelEnds _ _ _)

theorem cvRelease_endLeaves (s : State) (n : Nat) : EndLeaves s (s.cvRelease n) := by
  unfold State.cvRelease
  split
  · split
    · refine .of_regs rfl rfl rfl fun off ho => reg_setFld_other _ _ _ _ _ ?_
      unfold HostSide at ho
      unfold CV_STAT
      omega
    · exact .refl s
  · exact .refl s

theorem hostSide_notMem_dma {off : Nat} (h : HostSide off) : off ∉ reportRegs [BLK_DMA] := by
  unfold HostSide at h
  exact notMem_reportRegs_one (b := BLK_DMA) 0x1100020 rfl (by omega)

theorem chStat_hostSide {n : Nat} (h : n < 32) : HostSide (CH_STAT n) := by
  unfold HostSide CH_STAT
  omega

/-- A channel whose descriptor ends stands in ERROR with the result. -/
def EndedWith (t : State) (n r : Nat) : Prop := t.chState n = chError ∧ t.fld (CH_STAT n) CH_STAT_RESULT = r

theorem dmaFinish_ends (s : State) (n : Fin 32) (arrived reach : Bool) :
    ChannelEnds n s (s.dmaFinish n 4 arrived reach) ∧ EndedWith (s.dmaFinish n 4 arrived reach) n 4 := by
  unfold State.dmaFinish
  extract_lets irq u
  have hu : ChannelEnds n s u := dmaLand_channelEnds _ _ _
  clear_value u irq
  obtain ⟨p, hp⟩ : ∃ p, (if reach = true then u.dmaStatus n 4 arrived else (4, u)) = p := ⟨_, rfl⟩
  have status : p.1 = 4 ∧ EndLeaves u p.2 := by
    rw [← hp]
    split
    · exact dmaStatus_endLeaves u n arrived
    · exact ⟨rfl, .refl u⟩
  rw [hp]
  obtain ⟨result, v⟩ := p
  obtain ⟨four, leaves⟩ := status
  dsimp only at four leaves ⊢
  rw [four]
  have hv : ChannelEnds n s (v.cvRelease n) := (hu.trans (leaves.channelEnds n)).trans ((cvRelease_endLeaves v n).channelEnds n)
  generalize v.cvRelease n = w at *
  obtain ⟨x, hx⟩ : ∃ x, ((w.onDma n fun c => { c with desc := none, raw := none, owns := false, result := 0 }).setFld
    (CH_STAT n) CH_STAT_RESULT 4).setChState n chError = x := ⟨_, rfl⟩
  have ends : ChannelEnds n s x :=
    hx ▸ ((hv.trans (onDma_channelEnds _ _ _)).trans (chStat_channelEnds _ _ _ _)).trans (chStat_channelEnds _ _ _ _)
  have state : x.chState n = chError := hx ▸ (fld_setFld_same _ _ _ _ (by decide)).trans rfl
  have res : x.fld (CH_STAT n) CH_STAT_RESULT = 4 := by
    rw [← hx, State.setChState, fld_setFld_field _ _ _ _ _ (by decide), fld_setFld_same _ _ _ _ (by decide)]
    rfl
  rw [if_neg (show ¬ (4 : Nat) = 0 by decide), hx, if_pos (show (irq || (4 : Nat) != 0) = true by simp)]
  have quiet := setEvt_quiet x BLK_DMA n
  have regs : ∀ off, HostSide off → (x.setEvt BLK_DMA n).reg off = x.reg off := fun off ho =>
    reg_setEvt_of_notMem _ _ _ _ (hostSide_notMem_dma ho)
  have stat := regs _ (chStat_hostSide n.isLt)
  exact ⟨ends.trans ((EndLeaves.of_regs quiet.hi quiet.boot quiet.dma regs).channelEnds n),
    (fld_of_reg _ stat).trans state, (fld_of_reg _ stat).trans res⟩

theorem hostEnds_ends (s : State) (n : Fin 32) :
    ChannelEnds n s (s.hostEnds n false) ∧ EndedWith (s.hostEnds n false) n 4 := by
  obtain ⟨ends, result⟩ := dmaFinish_ends (s.fault 0x1405 n) n false (false || !decide (0x800000000000 ≤ s.chTail n))
  exact ⟨((fault_endLeaves s _ _ _).channelEnds n).trans ends, result⟩

end Sys2Proof.Machine

namespace Sys2Proof.Machine

/-! ### A reset of the host interface (R324) -/

theorem Stirred.state {v w : Word} (h : Stirred v w) : fldGet CH_STAT_STATE w = fldGet CH_STAT_STATE v :=
  fldGet_congr (f := CH_STAT_STATE) fun i hi => by
    have lt : i < 3 := hi
    exact h.1 (0 + i) (by omega) (.inl (by omega))

theorem Stirred.upper {v w : Word} (h : Stirred v w) : decide (2 ^ 15 ≤ w.toNat) = decide (2 ^ 15 ≤ v.toNat) := by
  have same : fldGet ⟨15, 17⟩ w = fldGet ⟨15, 17⟩ v := fldGet_congr fun i hi => by
    have lt : i < 17 := hi
    exact h.1 (15 + i) (by omega) (.inr (by omega))
  unfold fldGet at same
  have lw := w.isLt
  have lv := v.isLt
  refine decide_eq_decide.2 ?_
  dsimp only at same
  omega

/-- The host holds a channel's descriptor. -/
theorem tailInHost (s : State) (n : Nat) :
    decide (0x800000000000 ≤ s.chTail n) = decide (2 ^ 15 ≤ (s.reg (CH_TAIL_HI n)).toNat) := by
  unfold State.chTail State.reg64
  have low := (s.reg (CH_TAIL_LO n)).isLt
  refine decide_eq_decide.2 ?_
  omega

theorem usesHost_of_stirred {s t : State} {n : Nat} (dma : t.dmaAt n = s.dmaAt n)
    (stat : Stirred (s.reg (CH_STAT n)) (t.reg (CH_STAT n))) (tail : Stirred (s.reg (CH_TAIL_HI n)) (t.reg (CH_TAIL_HI n))) :
    t.usesHost n = s.usesHost n := by
  have state : t.chState n = s.chState n := stat.state
  unfold State.usesHost
  rw [tailInHost, tailInHost, tail.upper, state, dma]

/-- The channels of a list have been looked at, the others not. -/
structure Resetting (b u : State) (done : List (Fin 32)) : Prop where
  hi : u.hi = b.hi
  boot : u.boot = b.boot
  rest : ∀ off, HostSide off → (∀ m : Fin 32, off ≠ CH_STAT m) → Stirred (b.reg off) (u.reg off)
  waits : ∀ m : Fin 32, m ∉ done → u.dmaAt m = b.dmaAt m ∧ Stirred (b.reg (CH_STAT m)) (u.reg (CH_STAT m))
  over_ : ∀ m : Fin 32, m ∈ done → if b.usesHost m then EndedWith u m 4 else u.chState m = b.chState m

theorem chTail_hostSide (n : Fin 32) : HostSide (CH_TAIL_HI n) ∧ ∀ m : Fin 32, CH_TAIL_HI n ≠ CH_STAT m := by
  refine ⟨?_, fun m => ?_⟩
  · unfold HostSide CH_TAIL_HI
    omega
  · unfold CH_TAIL_HI CH_STAT
    omega

theorem EndedWith.stays {u v : State} {m : Nat} (h : EndedWith u m 4) (stat : Stirred (u.reg (CH_STAT m)) (v.reg (CH_STAT m))) :
    EndedWith v m 4 := by
  obtain ⟨state, result⟩ := h
  have sr : fldGet MC_RK_STAT_SR (u.reg (CH_STAT m)) = 4 := result
  have same : v.reg (CH_STAT m) = u.reg (CH_STAT m) := stat.2 (by omega) (by omega) (by omega)
  exact ⟨(fld_of_reg _ same).trans state, (fld_of_reg _ same).trans result⟩

theorem Resetting.step {b u : State} {done : List (Fin 32)} (h : Resetting b u done) {n : Fin 32} (new : n ∉ done) :
    Resetting b (if u.usesHost n then u.hostEnds n false else u) (done ++ [n]) := by
  obtain ⟨dma, stat⟩ := h.waits n new
  obtain ⟨side, ne⟩ := chTail_hostSide n
  have uses : u.usesHost n = b.usesHost n := usesHost_of_stirred dma stat (h.rest _ side ne)
  rw [uses]
  by_cases host : b.usesHost n = true
  · rw [if_pos host]
    obtain ⟨⟨hi, boot, others, regs⟩, ended⟩ := hostEnds_ends u n
    generalize u.hostEnds n false = v at *
    have apart : ∀ m : Fin 32, m ≠ n → CH_STAT m ≠ CH_STAT n := fun m hm => by
      have : m.val ≠ n.val := fun e => hm (Fin.ext e)
      unfold CH_STAT
      omega
    refine ⟨hi.trans h.hi, boot.trans h.boot, fun off ho other => (h.rest off ho other).trans (regs off ho (other n)),
      fun m hm => ?_, fun m hm => ?_⟩
    · simp only [List.mem_append, List.mem_singleton, not_or] at hm
      obtain ⟨dmaM, statM⟩ := h.waits m hm.1
      exact ⟨(others m (fun e => hm.2 (Fin.ext e))).trans dmaM,
        statM.trans (regs _ (chStat_hostSide m.isLt) (apart m hm.2))⟩
    · by_cases same : m = n
      · rw [same, if_pos host]
        exact ended
      · have old := h.over_ m ((List.mem_append.1 hm).resolve_right (by simpa using same))
        have still := regs _ (chStat_hostSide m.isLt) (apart m same)
        by_cases hostM : b.usesHost m = true
        · rw [if_pos hostM] at old ⊢
          exact old.stays still
        · rw [if_neg hostM] at old ⊢
          exact still.state.trans old
  · rw [if_neg host]
    refine ⟨h.hi, h.boot, h.rest, fun m hm => h.waits m fun h => hm (List.mem_append_left _ h), fun m hm => ?_⟩
    by_cases same : m = n
    · rw [same, if_neg host]
      exact stat.state
    · exact h.over_ m ((List.mem_append.1 hm).resolve_right (by simpa using same))

theorem Resetting.fold {b u : State} {done : List (Fin 32)} (h : Resetting b u done) (xs : List (Fin 32)) (nodup : (done ++ xs).Nodup) :
    Resetting b (xs.foldl (fun (s : State) (n : Fin 32) => if s.usesHost n then s.hostEnds n false else s) u) (done ++ xs) := by
  induction xs generalizing u done with
  | nil => rwa [List.append_nil]
  | cons x xs ih =>
    have new : x ∉ done := by
      rw [List.nodup_append] at nodup
      exact fun hx => nodup.2.2 x hx x (List.mem_cons_self ..) rfl
    have again := ih (h.step new) (by rwa [List.append_assoc])
    rwa [List.append_assoc] at again

end Sys2Proof.Machine

namespace Sys2Proof.Machine

/-- What every reset of the host interface leaves (R324). -/
def HostWas (s t : State) : Prop :=
  (∀ v, v < 256 → t.reg (MSIX_CTRL v) = regReset (MSIX_CTRL v) ∧ t.reg (MSIX_ADDR_LO v) = regReset (MSIX_ADDR_LO v)) ∧
  t.reg HI_BAR4_BASE = 0 ∧ t.hi.cfg = PciCfg.reset ∧
  ∀ n, n < 32 → if s.usesHost n then t.chState n = chError ∧ t.fld (CH_STAT n) CH_STAT_RESULT = 4
    else t.chState n = s.chState n

theorem HostWas.of_regs {s t u : State} (h : HostWas s t) (hi : u.hi = t.hi) (regs : ∀ off, HostSide off → u.reg off = t.reg off) :
    HostWas s u := by
  obtain ⟨msix, bar, cfg, chans⟩ := h
  refine ⟨fun v hv => ?_, ?_, by rw [hi, cfg], fun n hn => ?_⟩
  · obtain ⟨ctrl, addr⟩ := msix v hv
    exact ⟨(regs _ (by unfold HostSide MSIX_CTRL; omega)).trans ctrl, (regs _ (by unfold HostSide MSIX_ADDR_LO; omega)).trans addr⟩
  · exact (regs _ (by unfold HostSide HI_BAR4_BASE; omega)).trans bar
  · have stat := regs _ (chStat_hostSide hn)
    have old := chans n hn
    by_cases uses : s.usesHost n = true
    · rw [if_pos uses] at old ⊢
      exact ⟨(fld_of_reg _ stat).trans old.1, (fld_of_reg _ stat).trans old.2⟩
    · rw [if_neg uses] at old ⊢
      exact (fld_of_reg _ stat).trans old

/-- The table of vectors, the base of BAR4 and configuration space are reset. -/
def State.tableReset (s : State) : State :=
  let s := { s with regs := s.regs.filter fun e => !(decide (MSIX_ADDR_LO 0 ≤ e.1) && decide (e.1 < MSIX_ADDR_LO 256)) }
  let s := s.setReg HI_BAR4_BASE 0
  { s with hi := { s.hi with queue := s.hi.queue.filter HostAcc.posted, cfg := PciCfg.reset } }

theorem hostReset_eq (s : State) : s.hostReset =
    (List.finRange 32).foldl (fun (s : State) (n : Fin 32) => if s.usesHost n then s.hostEnds n false else s) s.tableReset := rfl

theorem tableReset_reg (s : State) (off : Nat) : s.tableReset.reg off =
    if off = HI_BAR4_BASE then 0 else if 0x1080000 ≤ off ∧ off < 0x1081000 then regReset off else s.reg off := by
  obtain ⟨u, hu⟩ : ∃ u : State, ({ s with regs := s.regs.filter fun e => !(decide (MSIX_ADDR_LO 0 ≤ e.1) && decide (e.1 < MSIX_ADDR_LO 256)) } : State) = u := ⟨_, rfl⟩
  have regs : s.tableReset.reg off = (u.setReg HI_BAR4_BASE 0).reg off := by rw [← hu]; rfl
  rw [regs]
  have lo : MSIX_ADDR_LO 0 = 0x1080000 := rfl
  have hi : MSIX_ADDR_LO 256 = 0x1081000 := rfl
  by_cases bar : off = HI_BAR4_BASE
  · rw [if_pos bar, bar]
    exact reg_setReg_same _ _ _
  · rw [if_neg bar, reg_setReg_other _ _ _ _ bar, ← hu]
    unfold State.reg
    by_cases table : 0x1080000 ≤ off ∧ off < 0x1081000
    · rw [if_pos table]
      refine Tbl.get_absent _ _ _ fun e he same => ?_
      have keep := (List.mem_filter.1 he).2
      rw [lo, hi, same] at keep
      simp [table] at keep
    · rw [if_neg table]
      refine Tbl.get_filter _ _ _ _ fun _ => ?_
      rw [lo, hi]
      simp only [Bool.not_eq_true', Bool.and_eq_false_iff, decide_eq_false_iff_not]
      omega

/-- No reset value of the host interface shows a rank's state. -/
theorem hiReset_sr (off : Nat) (h : off / 0x100000 = 0x10) : fldGet MC_RK_STAT_SR (regReset off) = 0 := by
  have all : ∀ d ∈ hiRegs, fldGet MC_RK_STAT_SR d.reset = 0 := by decide
  unfold regReset regDef?
  rw [h]
  split
  · next d hd => exact all d (List.mem_of_find?_eq_some hd)
  · rfl

theorem hostReset_shows (s : State) :
    HostWas s s.hostReset ∧ s.hostReset.boot = s.boot ∧ (s.linkUp = false → s.hostReset.linkUp = false) ∧
      ((∀ n, n < 32 → s.usesHost n = false) → s.hostReset.si = s.si) := by
  have start : Resetting s.tableReset s.tableReset [] :=
    ⟨rfl, rfl, fun _ _ _ => Stirred.refl _, fun _ _ => ⟨rfl, Stirred.refl _⟩, fun _ h => absurd h List.not_mem_nil⟩
  have whole := start.fold (List.finRange 32) (by simpa using List.nodup_finRange 32)
  rw [← hostReset_eq, List.nil_append] at whole
  have chan : ∀ n, n < 32 → s.tableReset.reg (CH_STAT n) = s.reg (CH_STAT n) ∧ s.tableReset.reg (CH_TAIL_HI n) = s.reg (CH_TAIL_HI n) := by
    intro n hn
    constructor
    · rw [tableReset_reg, if_neg (by unfold CH_STAT HI_BAR4_BASE; omega), if_neg (by unfold CH_STAT; omega)]
    · rw [tableReset_reg, if_neg (by unfold CH_TAIL_HI HI_BAR4_BASE; omega), if_neg (by unfold CH_TAIL_HI; omega)]
  have uses : ∀ n, n < 32 → s.tableReset.usesHost n = s.usesHost n := fun n hn =>
    usesHost_of_stirred rfl (by rw [(chan n hn).1]; exact Stirred.refl _) (by rw [(chan n hn).2]; exact Stirred.refl _)
  have zero : ∀ {off : Nat} {v : Word}, HostSide off → (∀ m : Fin 32, off ≠ CH_STAT m) → s.tableReset.reg off = v →
      fldGet MC_RK_STAT_SR v = 0 → s.hostReset.reg off = v := by
    intro off v side ne value sr
    have stirred := whole.rest off side ne
    rw [value] at stirred
    exact stirred.2 (by omega) (by omega) (by omega)
  have table : ∀ off, (0x1080000 ≤ off ∧ off < 0x1081000) → s.tableReset.reg off = regReset off := by
    intro off inside
    rw [tableReset_reg, if_neg (by unfold HI_BAR4_BASE; omega), if_pos inside]
  have apart : ∀ {off : Nat}, off < 0x1101000 → ∀ m : Fin 32, off ≠ CH_STAT m := fun h m => by
    unfold CH_STAT
    omega
  have values : ∀ v < 256, fldGet MC_RK_STAT_SR (regReset (MSIX_CTRL v)) = 0 ∧ fldGet MC_RK_STAT_SR (regReset (MSIX_ADDR_LO v)) = 0 := by
    intro v hv
    exact ⟨hiReset_sr _ (by unfold MSIX_CTRL; omega), hiReset_sr _ (by unfold MSIX_ADDR_LO; omega)⟩
  refine ⟨⟨fun v hv => ?_, ?_, by rw [whole.hi]; rfl, fun n hn => ?_⟩, by rw [whole.boot]; rfl, fun down => ?_, fun none_ => ?_⟩
  · obtain ⟨ctrl, addr⟩ := values v hv
    exact ⟨zero (by unfold HostSide MSIX_CTRL; omega) (apart (by unfold MSIX_CTRL; omega)) (table _ (by unfold MSIX_CTRL; omega)) ctrl,
      zero (by unfold HostSide MSIX_ADDR_LO; omega) (apart (by unfold MSIX_ADDR_LO; omega)) (table _ (by unfold MSIX_ADDR_LO; omega)) addr⟩
  · exact zero (by unfold HostSide HI_BAR4_BASE; omega) (apart (by decide)) (by rw [tableReset_reg, if_pos rfl]) (by decide)
  · have ended := whole.over_ ⟨n, hn⟩ (List.mem_finRange _)
    rw [uses n hn] at ended
    by_cases host : s.usesHost n = true
    · rw [if_pos host] at ended ⊢
      exact ended
    · rw [if_neg host] at ended ⊢
      exact ended.trans (fld_of_reg _ (chan n hn).1)
  · have stirred := whole.rest HI_LINK_STAT (by unfold HostSide HI_LINK_STAT; omega) (apart (by decide))
    have base : s.tableReset.reg HI_LINK_STAT = s.reg HI_LINK_STAT := by
      rw [tableReset_reg, if_neg (by decide), if_neg (by decide)]
    rw [base] at stirred
    unfold State.linkUp at down ⊢
    rw [bit_eq_getLsbD _ _ _ rfl] at down ⊢
    exact (stirred.1 8 (by decide) (by decide)).trans down
  · rw [hostReset_eq]
    have idle : ∀ xs : List (Fin 32), xs.foldl (fun (s : State) (n : Fin 32) => if s.usesHost n then s.hostEnds n false else s)
        s.tableReset = s.tableReset := by
      intro xs
      induction xs with
      | nil => rfl
      | cons x xs ih =>
        rw [List.foldl_cons, if_neg (by rw [uses x x.isLt, none_ x x.isLt]; exact Bool.false_ne_true)]
        exact ih
    rw [idle]
    rfl

end Sys2Proof.Machine

namespace Sys2Proof.Machine

theorem hostSide_notMem_hi {off : Nat} (h : HostSide off) : off ∉ reportRegs [BLK_HI] := by
  unfold HostSide at h
  exact notMem_reportRegs_one (b := BLK_HI) 0x1000020 rfl (by omega)

theorem setEvt_hostSide (s : State) (n : Nat) {off : Nat} (h : HostSide off) : (s.setEvt BLK_HI n).reg off = s.reg off :=
  reg_setEvt_of_notMem _ _ _ _ (hostSide_notMem_hi h)

theorem linkUp_of_reg {s t : State} (h : t.reg HI_LINK_STAT = s.reg HI_LINK_STAT) : t.linkUp = s.linkUp := bit_of_reg _ h

/-- The loss of an established link. -/
theorem linkLost_shows (s : State) :
    HostWas s s.linkLost ∧ s.linkLost.linkUp = false ∧ EventSet s.linkLost BLK_HI 24 ∧
      ((∀ n, n < 32 → s.usesHost n = false) → Reported s s.linkLost 0x2404 0xFF 0) ∧ s.linkLost.boot = s.boot := by
  obtain ⟨u, hu⟩ : ∃ u, ((s.setFld HI_LINK_STAT HI_LINK_STAT_UP 0).setFld HI_LINK_STAT HI_LINK_STAT_WIDTH 0).setFld
    HI_LINK_STAT HI_LINK_STAT_SPEED 0 = u := ⟨_, rfl⟩
  have only : RegsOnly s u [HI_LINK_STAT] :=
    hu ▸ (((RegsOnly.refl s _).setFld (by simp)).setFld (by simp)).setFld (by simp)
  have down : u.linkUp = false := by
    rw [← hu]
    unfold State.linkUp State.bit
    rw [fld_setFld_field _ _ _ _ _ (by decide), fld_setFld_field _ _ _ _ _ (by decide)]
    exact bit_setFld_clear s HI_LINK_STAT HI_LINK_STAT_UP rfl (by decide)
  have run : s.linkLost = (u.hostReset.fault 0x2404).setEvt BLK_HI 24 := by
    rw [← hu]
    rfl
  have chan : ∀ n, n < 32 → u.usesHost n = s.usesHost n ∧ u.chState n = s.chState n := by
    intro n hn
    have stat : u.reg (CH_STAT n) = s.reg (CH_STAT n) :=
      only.2 _ (by simp only [List.mem_singleton]; unfold CH_STAT HI_LINK_STAT; omega)
    have tail : u.reg (CH_TAIL_HI n) = s.reg (CH_TAIL_HI n) :=
      only.2 _ (by simp only [List.mem_singleton]; unfold CH_TAIL_HI HI_LINK_STAT; omega)
    have dma : u.dmaAt n = s.dmaAt n := by
      unfold State.dmaAt
      rw [only.1]
    exact ⟨usesHost_of_stirred dma (by rw [stat]; exact Stirred.refl _) (by rw [tail]; exact Stirred.refl _), fld_of_reg _ stat⟩
  obtain ⟨was, boot, link, si⟩ := hostReset_shows u
  generalize u.hostReset = v at *
  have wasS : HostWas s v := by
    obtain ⟨msix, bar, cfg, chans⟩ := was
    refine ⟨msix, bar, cfg, fun n hn => ?_⟩
    have old := chans n hn
    rw [(chan n hn).1, (chan n hn).2] at old
    exact old
  have regs : ∀ off, HostSide off → ((v.fault 0x2404).setEvt BLK_HI 24).reg off = v.reg off := fun off ho =>
    (setEvt_hostSide _ _ ho).trans (reg_fault _ _ _ _ _ (hostSide_notMem_nil ho))
  have hi : ((v.fault 0x2404).setEvt BLK_HI 24).hi = v.hi := (setEvt_quiet _ _ _).hi.trans (fault_quiet _ _ _ _).hi
  have bootT : ((v.fault 0x2404).setEvt BLK_HI 24).boot = v.boot := (setEvt_quiet _ _ _).boot.trans (fault_quiet _ _ _ _).boot
  rw [run]
  refine ⟨wasS.of_regs hi regs, ?_, setEvt_eventSet _ _ _ (by decide), fun none_ => ?_, ?_⟩
  · exact (linkUp_of_reg (regs _ (.inl rfl))).trans (link down)
  · have same : v.si = u.si := si fun n hn => (chan n hn).1.trans (none_ n hn)
    refine (fault_reportedFrom _ _ _ ?_).setEvt _ _
    rw [same, only.1]
  · rw [bootT, boot, only.1]

/-! ### Doorbells and software events (R325) -/

theorem doorbell_shows (s : State) (n : Fin 16) (v : Word) :
    ∃ t, exec (.doorbell n v) s = .next t ∧ t.reg (HI_DB n) = v ∧ EventSet t BLK_HI n ∧
      Frame { s with ck := t.ck, freeIx := t.freeIx } t ([HI_DB n] ++ (List.range 3).map CK_DOM) [BLK_HI] ∧
      ∀ d, d < 3 → if (s.fld (CK_DOM d) CK_DOM_WAKESRC).testBit 1 then t.fld (CK_DOM d) CK_DOM_REQ = 2
        else t.reg (CK_DOM d) = s.reg (CK_DOM d) := by
  obtain ⟨u, hu⟩ : ∃ u, (s.setReg (HI_DB n) v).setEvt BLK_HI n = u := ⟨_, rfl⟩
  have run : exec (.doorbell n v) s = .next (u.wakeSource 1) := by rw [← hu]; rfl
  have dbOut : HI_DB n ∉ reportRegs [BLK_HI] :=
    notMem_reportRegs_one (b := BLK_HI) 0x1000020 rfl (by unfold HI_DB; omega)
  have db : u.reg (HI_DB n) = v := by
    rw [← hu, reg_setEvt_of_notMem _ _ _ _ dbOut]
    exact reg_setReg_same _ _ _
  have event : EventSet u BLK_HI n := hu ▸ setEvt_eventSet _ _ _ (by omega)
  have frame : Frame s u ([HI_DB n] ++ (List.range 3).map CK_DOM) [BLK_HI] :=
    hu ▸ ((Frame.refl s _ _).setReg (by simp)).setEvt (by simp)
  have doms : ∀ d, d < 3 → u.reg (CK_DOM d) = s.reg (CK_DOM d) := by
    intro d hd
    rw [← hu, reg_setEvt_of_notMem _ _ _ _ (notMem_reportRegs_one (b := BLK_HI) 0x1000020 rfl (by unfold CK_DOM; omega))]
    exact reg_setReg_other _ _ _ _ (by unfold CK_DOM HI_DB; omega)
  obtain ⟨woken, wakes⟩ := wakeSource_wakes u 1
  generalize u.wakeSource 1 = t at *
  have out : ∀ off, 0x200100 ≤ off → (off < 0x1090000 ∨ 0x1090020 ≤ off) → t.reg off = u.reg off := by
    intro off lo hi
    refine woken.2 off fun h => ?_
    rcases List.mem_append.1 h with h | h
    · obtain ⟨d, hd, rfl⟩ := List.mem_map.1 h
      have := List.mem_range.1 hd
      unfold CK_DOM at lo
      omega
    · exact absurd h (notMem_reportRegs_nil (by omega))
  refine ⟨t, run, (out _ (by unfold HI_DB; omega) (by unfold HI_DB; omega)).trans db, event.of_reg (out _ (by decide) (by decide)), ?_, fun d hd => ?_⟩
  · have first : Frame { s with ck := t.ck, freeIx := t.freeIx } { u with ck := t.ck, freeIx := t.freeIx }
        ([HI_DB n] ++ (List.range 3).map CK_DOM) [BLK_HI] := by
      obtain ⟨quiet, regs⟩ := frame
      refine ⟨?_, regs⟩
      unfold Quiet at quiet ⊢
      rw [quiet]
    exact first.trans (woken.mono (List.subset_append_right _ _) (by simp))
  · have woke := wakes d hd
    rw [fld_of_reg _ (doms d hd), doms d hd] at woke
    exact woke

theorem swevt_shows (s : State) (v : Word) :
    ∃ t, exec (.hiSwevt v) s = .next t ∧ Frame s t [] [BLK_HI] ∧
      ∀ i, i < 32 → t.rbit (evtReg BLK_HI) i =
        (s.rbit (evtReg BLK_HI) i || (decide (16 ≤ i ∧ i < 24) && v.getLsbD (i - 16))) := by
  have upTo : ∀ m, m ≤ 8 → Frame s (s.each m fun i s => if v.getLsbD i then s.setEvt BLK_HI (16 + i) else s) [] [BLK_HI] ∧
      ∀ i, i < 32 → (s.each m fun i s => if v.getLsbD i then s.setEvt BLK_HI (16 + i) else s).rbit (evtReg BLK_HI) i =
        (s.rbit (evtReg BLK_HI) i || (decide (16 ≤ i ∧ i < 16 + m) && v.getLsbD (i - 16))) := by
    intro m
    induction m with
    | zero =>
      refine fun _ => ⟨Frame.refl s _ _, fun i _ => ?_⟩
      rw [decide_eq_false (by omega), Bool.false_and, Bool.or_false]
      rfl
    | succ m ih =>
      intro hm
      obtain ⟨frame, bits⟩ := ih (by omega)
      rw [each_succ]
      generalize s.each m _ = u at *
      by_cases one : v.getLsbD m = true
      · rw [if_pos one]
        refine ⟨frame.setEvt (by simp), fun i hi => ?_⟩
        rw [State.rbit, reg_setEvt_status, getLsbD_fldPut _ _ _ _ hi]
        by_cases here : i = 16 + m
        · rw [if_pos (by dsimp only; omega), here, decide_eq_true (by omega)]
          simp [one]
        · rw [if_neg (by dsimp only; omega)]
          refine (bits i hi).trans ?_
          congr 2
          exact decide_eq_decide.2 (by omega)
      · rw [if_neg one]
        refine ⟨frame, fun i hi => (bits i hi).trans ?_⟩
        by_cases here : i = 16 + m
        · rw [here, decide_eq_false (by omega), decide_eq_true (by omega)]
          simp [one]
        · congr 2
          exact decide_eq_decide.2 (by omega)
  obtain ⟨frame, bits⟩ := upTo 8 (le_refl 8)
  exact ⟨_, rfl, frame, bits⟩

/-! ### Link training (R469) -/

theorem linkTrains (s : State) (speed width : BitVec 4) :
    let trains := s.boot.perst = true ∧ s.bit PROT_LOCK PROT_LOCK_LOCK = true ∧ s.linkUp = false ∧
      1 ≤ speed.toNat ∧ speed.toNat ≤ 5 ∧ width.toNat ∈ [1, 2, 4, 8]
    (trains →
      ∃ t, exec (.pcieLinkUp speed width) s = .next t ∧ t.linkUp = true ∧
        t.fld HI_LINK_STAT HI_LINK_STAT_SPEED = speed.toNat ∧
        t.fld HI_LINK_STAT HI_LINK_STAT_WIDTH = width.toNat ∧ EventSet t BLK_HI 25 ∧
        Frame s t [HI_LINK_STAT] [BLK_HI]) ∧
    (¬ trains → exec (.pcieLinkUp speed width) s = .next s) := by
  intro trains
  have cond : (!s.pcieIdle && !s.linkUp && [1, 2, 3, 4, 5].contains speed.toNat && [1, 2, 4, 8].contains width.toNat) = true ↔ trains := by
    have speeds : [1, 2, 3, 4, 5].contains speed.toNat = true ↔ 1 ≤ speed.toNat ∧ speed.toNat ≤ 5 := by
      rw [List.contains_iff_mem]
      simp only [List.mem_cons, List.not_mem_nil, or_false]
      omega
    unfold State.pcieIdle
    rw [Bool.and_eq_true, Bool.and_eq_true, Bool.and_eq_true, speeds, List.contains_iff_mem]
    simp only [Bool.not_not, Bool.and_eq_true, Bool.not_eq_true']
    constructor
    · rintro ⟨⟨⟨⟨h1, h2⟩, h3⟩, h4, h5⟩, h6⟩
      exact ⟨h1, h2, h3, h4, h5, h6⟩
    · rintro ⟨h1, h2, h3, h4, h5, h6⟩
      exact ⟨⟨⟨⟨h1, h2⟩, h3⟩, h4, h5⟩, h6⟩
  refine ⟨fun h => ?_, fun h => congrArg Host.Outcome.next (if_neg fun c => h (cond.1 c))⟩
  obtain ⟨u, hu⟩ : ∃ u, ((s.setFld HI_LINK_STAT HI_LINK_STAT_SPEED speed.toNat).setFld HI_LINK_STAT
    HI_LINK_STAT_WIDTH width.toNat).setFld HI_LINK_STAT HI_LINK_STAT_UP 1 = u := ⟨_, rfl⟩
  have run : exec (.pcieLinkUp speed width) s = .next (u.setEvt BLK_HI 25) := by
    rw [← hu]
    exact congrArg Host.Outcome.next (if_pos (cond.2 h))
  have frame : Frame s u [HI_LINK_STAT] [BLK_HI] :=
    hu ▸ (((Frame.refl s _ _).setFld (by simp)).setFld (by simp)).setFld (by simp)
  have stat : (u.setEvt BLK_HI 25).reg HI_LINK_STAT = u.reg HI_LINK_STAT := setEvt_hostSide _ _ (.inl rfl)
  refine ⟨_, run, ?_, ?_, ?_, setEvt_eventSet _ _ _ (by decide), frame.setEvt (by simp)⟩
  · rw [linkUp_of_reg stat, ← hu]
    exact bit_setFld_set _ _ _ rfl (by decide)
  · rw [fld_of_reg _ stat, ← hu, fld_setFld_field _ _ _ _ _ (by decide), fld_setFld_field _ _ _ _ _ (by decide),
      fld_setFld_same _ _ _ _ (by decide)]
    exact Nat.mod_eq_of_lt speed.isLt
  · rw [fld_of_reg _ stat, ← hu, fld_setFld_field _ _ _ _ _ (by decide), fld_setFld_same _ _ _ _ (by decide)]
    exact Nat.mod_eq_of_lt width.isLt

/-- Settles O45: the writes of a descriptor's status may wake ranks, but change no register that a reset tells of. -/
theorem doorbellsAndHostResets : Obligations.DoorbellsAndHostResets := by
  intro s was lost
  have perst : ∀ b, exec (.perstN b) s = .next (if b || !s.boot.perst then s.onBoot fun x => { x with perst := b }
      else if s.linkUp then (s.onBoot fun x => { x with perst := b }).linkLost else (s.onBoot fun x => { x with perst := b }).hostReset) :=
    fun _ => rfl
  refine ⟨fun n v => doorbell_shows s n v, fun v => swevt_shows s v, ?_, fun up => ?_, fun down => ?_, fun high => ?_, fun low => ?_, ?_,
    fun speed width => linkTrains s speed width⟩
  · obtain ⟨reset, -⟩ := hostReset_shows s
    have run : exec .functionLevelReset s = .next (s.hostReset.setEvt BLK_HI 26) := rfl
    exact ⟨_, run, reset.of_regs (setEvt_quiet _ _ _).hi fun _ ho => setEvt_hostSide _ _ ho, setEvt_eventSet _ _ _ (by decide)⟩
  · obtain ⟨reset, link, event, reported, -⟩ := linkLost_shows s
    exact ⟨_, congrArg Host.Outcome.next (if_pos up), reset, link, event, reported⟩
  · exact congrArg Host.Outcome.next (if_neg (by rw [down]; exact Bool.false_ne_true))
  · have run := perst false
    rw [high, if_neg (by decide)] at run
    obtain ⟨u, hu⟩ : ∃ u, s.onBoot (fun x => { x with perst := false }) = u := ⟨_, rfl⟩
    rw [hu] at run
    have fallen : u.boot.perst = false := by rw [← hu]; rfl
    have si : u.si = s.si := by rw [← hu]; rfl
    by_cases up : s.linkUp = true
    · rw [if_pos up] at run
      obtain ⟨reset, link, event, reported, boot⟩ := linkLost_shows u
      generalize u.linkLost = t at *
      have wasS : was t := by rw [← hu] at reset; exact reset
      have none_ : (∀ n, n < 32 → s.usesHost n = false) → Reported s t 0x2404 0xFF 0 := fun h =>
        (reported (by rw [← hu]; exact h)).from (by rw [si])
      exact ⟨t, run, by rw [boot]; exact fallen, wasS, fun _ => ⟨wasS, link, event, none_⟩⟩
    · rw [if_neg up] at run
      obtain ⟨reset, boot, -⟩ := hostReset_shows u
      generalize u.hostReset = t at *
      have wasS : was t := by rw [← hu] at reset; exact reset
      exact ⟨t, run, by rw [boot]; exact fallen, wasS, fun h => absurd h up⟩
  · have run := perst false
    rw [low, if_pos (by decide)] at run
    rw [run]
    unfold State.onBoot
    rw [← low]
  · exact perst true

end Sys2Proof.Machine

/-!
The vote on a tile and its release as zero dose (R110, R112, O27): what the reports of a vote, the mismatches of
cores among them, leave of the tiles and of the coverage store.
-/

namespace Sys2Proof.Machine

/-! ### Tiles of the table, and what the reports of a vote leave of them -/

/-- The tile of a name after every tile has changed but for its name. -/
theorem findTile_map {s t : State} {g : TileSt → TileSt} (h : t.adm.tiles = s.adm.tiles.map g)
    (hk : ∀ u, (g u).key = u.key) (key : TileKey) : t.findTile key = (s.findTile key).map g := by
  unfold State.findTile
  rw [h, List.find?_map]
  congr 2
  funext u
  simp [hk]

/-- The tile that an update names. -/
theorem findTile_onTile {s : State} {key : TileKey} {tile : TileSt} (h : s.findTile key = some tile)
    (f : TileSt → TileSt) (hf : ∀ u, (f u).key = u.key) : (s.onTile key f).findTile key = some (f tile) := by
  have found : tile.key = key := by simpa using List.find?_some h
  rw [findTile_map (g := fun u => if u.key = key then f u else u) rfl (fun u => ?_), h, Option.map_some, if_pos found]
  split
  · exact hf u
  · rfl

/-- What the vote decides of a tile, and the slot that it has. -/
def TileSt.verdict (t : TileSt) : TileFate × BitVec 8 × Option Nat := (t.fate, t.vmiss, t.slot)

/-- A tile whose render on a core counts as failed. -/
def TileSt.losesCore (x : Nat) (t : TileSt) : TileSt := { t with
  renders := t.renders.map fun r =>
    if r.core = x ∧ r.phase ≠ .delivered then { r with phase := .delivered, illegal := true } else r }

/-- The verdict on a tile, and all memory but that of the expansion cores, are left as they were. -/
def VerdictStays (key : TileKey) (s t : State) : Prop :=
  (t.findTile key).map TileSt.verdict = (s.findTile key).map TileSt.verdict ∧
  ∀ a, a < XC_MEM 0 ∨ XC_MEM 144 ≤ a → memByte t.mem a = memByte s.mem a

namespace VerdictStays
variable {key : TileKey} {s t u : State}

theorem refl (s : State) : VerdictStays key s s := ⟨rfl, fun _ _ => rfl⟩

theorem trans (h : VerdictStays key s t) (k : VerdictStays key t u) : VerdictStays key s u :=
  ⟨k.1.trans h.1, fun a ha => (k.2 a ha).trans (h.2 a ha)⟩

theorem of_eq (ha : t.adm.tiles = s.adm.tiles) (hm : t.mem = s.mem) : VerdictStays key s t := by
  refine ⟨?_, fun a _ => by rw [hm]⟩
  unfold State.findTile
  rw [ha]

theorem of_quiet (h : Quiet s t) : VerdictStays key s t := of_eq (by rw [h]) (by rw [h])

theorem ite {b : Prop} [Decidable b] (ht : VerdictStays key s t) (hu : VerdictStays key s u) :
    VerdictStays key s (if b then t else u) := by
  split
  · exact ht
  · exact hu

theorem clearCore (x : Nat) (h : x < 144) : VerdictStays key s (s.clearBytes (XC_MEM x) 0x40000) := by
  refine ⟨rfl, fun a ha => ?_⟩
  change memByte (memClear s.mem (XC_MEM x) 0x40000) a = _
  rw [memByte_clear, if_neg]
  unfold XC_MEM at ha ⊢
  omega

theorem stDone (r : Nat) : VerdictStays key s (s.stDone r) := by
  unfold State.stDone
  exact (of_eq rfl rfl).trans (of_quiet (setEvt_quiet _ _ _))

theorem stFault (code : BitVec 16) (x : Nat) : VerdictStays key s (s.stFault code x) := by
  unfold State.stFault
  exact (of_eq (t := s.draw.2) rfl rfl).trans (of_quiet (fault_quiet _ _ _ _))

/-- The end of a test clears at most the memory of the core under test. -/
theorem abandonTest (x : Nat) : VerdictStays key s (s.abandonTest x) := by
  unfold State.abandonTest
  split
  · exact refl s
  next test _ =>
  extract_lets s1 s2 back s3 s4
  have h2 : VerdictStays key s1 s2 := by
    change VerdictStays key s1 (if _ then _ else _)
    split
    · next hx =>
      have core : x < 144 := by simp at hx; exact hx.1
      rw [State.testLeaves, if_pos core]
      exact clearCore x core
    · exact refl s1
  have h4 : VerdictStays key s3 s4 := by
    have counted : VerdictStays key (s3.setEvt BLK_ST 4) ((s3.setEvt BLK_ST 4).count (ST_CNT 2)) := of_eq rfl rfl
    exact ((of_quiet (setEvt_quiet _ _ _)).trans counted).trans (stFault _ _)
  have h3 : VerdictStays key s s3 := (of_eq (t := s1) rfl rfl).trans (h2.trans (of_eq rfl rfl))
  exact (h3.trans h4).trans (ite (refl _) (stDone 4))

theorem capChanged : VerdictStays key s s.capChanged := by
  unfold State.capChanged
  exact ite (refl s) (of_eq rfl rfl)

theorem moveUnit (x v : Nat) : VerdictStays key s (s.moveUnit x v) := by
  unfold State.moveUnit
  extract_lets s1 s2
  have h2 : VerdictStays key s1 s2 := by
    refine ite ?_ (refl s1)
    exact foldl_keeps (VerdictStays key) refl (fun _ _ _ => trans) _ (fun _ _ => ite (refl _) (abandonTest _)) _ _
  refine (of_eq (t := s1) rfl rfl).trans (h2.trans ?_)
  unfold State.followCap
  exact ite capChanged (refl s2)

/-- A core that leaves changes the renders of the tiles only. -/
theorem coreLeaves (x : Nat) : VerdictStays key s (s.coreLeaves x) := by
  unfold State.coreLeaves
  generalize hu : s.moveUnit x 2 = u
  have moved : VerdictStays key s u := hu ▸ moveUnit x 2
  refine moved.trans ⟨?_, fun _ _ => rfl⟩
  rw [findTile_map (s := u) (g := TileSt.losesCore x) rfl (fun _ => rfl), Option.map_map]
  rfl

theorem mismatch (k : TileKey) (x : Nat) : VerdictStays key s (s.mismatch k x) := by
  unfold State.mismatch
  dsimp only
  have h := of_quiet (key := key) (faultCounted_quiet s 0x1142 x k.info 3 (10 * ticksSec))
  split
  · refine h.trans ((?_ : VerdictStays key _ (State.retireCore _ x)).trans (of_quiet (fault_quiet _ _ _ _)))
    exact (abandonTest x).trans ((coreLeaves x).trans (of_quiet (setEvt_quiet _ _ _)))
  · exact h

theorem emit (d : Defect) : VerdictStays key s (s.emit d) := ite (of_eq rfl rfl) (refl s)

theorem varMiss (p : ProdRef) (lane f : Nat) : VerdictStays key s (s.varMiss p lane f) := by
  unfold State.varMiss
  dsimp only
  exact ite (refl s) ((of_eq (s := s) rfl rfl).trans (emit _))

end VerdictStays

/-! ### The slot of a tile -/

/-- The coverage slots lie apart from the memory of the cores. -/
theorem covSlot_apart {n i : Nat} (hn : n < 4096) (hi : i < 16384) : COV_SLOT n + i < XC_MEM 0 ∨ XC_MEM 144 ≤ COV_SLOT n + i := by
  unfold COV_SLOT XC_MEM SRAM_BASE
  omega

/-- A verdict that stands, on a slot that has been filled, is what the slot holds. -/
theorem slotHolds_of_stays {s u t : State} {key : TileKey} {tile tile' : TileSt} {bytes : Nat → Byte}
    (hs : ∀ n, tile.slot = some n → n < 4096) (h : slotHolds s u tile tile' bytes) (found : u.findTile key = some tile')
    (stays : VerdictStays key u t) :
    ∃ tile'', t.findTile key = some tile'' ∧ tile''.fate = tile'.fate ∧ tile''.vmiss = tile'.vmiss ∧
      slotHolds s t tile tile'' bytes := by
  obtain ⟨verdict, mem⟩ := stays
  obtain ⟨hslot, filled, others⟩ := h
  rw [found, Option.map_some, Option.map_eq_some_iff] at verdict
  obtain ⟨tile'', hfind, hv⟩ := verdict
  unfold TileSt.verdict at hv
  simp only [Prod.mk.injEq] at hv
  obtain ⟨hfate, hmiss, hslot'⟩ := hv
  refine ⟨tile'', hfind, hfate, hmiss, hslot'.trans hslot, fun n hn i hi => ?_, fun a ha apart => ?_⟩
  · rw [mem _ (covSlot_apart (hs n hn) hi), filled n hn i hi]
  · rw [mem a ha, others a ha apart]

end Sys2Proof.Machine

namespace Sys2Proof.Machine

/-- A tile accepted with a render. -/
def TileSt.acceptedWith (r : Render) (t : TileSt) : TileSt :=
  { t with fate := .accepted, vmiss := r.vmiss, renders := [] }

/-- A tile released as zero dose: its late renders are discarded. -/
def TileSt.released (t : TileSt) : TileSt := { t with
  fate := .zero,
  renders := t.renders.filter fun r => decide (r.phase = .running) || decide (r.phase = .handed) }

/-! ### A tile that is accepted (R110) -/

/-- A slot written with some bytes holds them, and other memory is as it was. -/
theorem writeSlot_holds {s : State} {tile : TileSt} (bytes : Tbl Byte) (tile' : TileSt) (h : tile'.slot = tile.slot) :
    slotHolds s (s.writeSlot tile.slot bytes) tile tile' fun i => bytes.get 0 i := by
  have length : ((List.range 0x4000).map fun i => bytes.get 0 i).length = 16384 := by
    rw [List.length_map, List.length_range]
  refine ⟨h, fun n hn i hi => ?_, fun a _ apart => ?_⟩
  · rw [hn]
    unfold State.writeSlot
    dsimp only
    rw [storeBytes_in _ _ _ _ (by rw [length]; exact hi), List.getElem_map, List.getElem_range]
  · unfold State.writeSlot
    split
    · next n hn =>
      refine storeBytes_out _ _ _ _ ?_
      rw [length]
      exact apart n hn
    · rfl

theorem clearSlot_holds {s : State} {tile : TileSt} (tile' : TileSt) (h : tile'.slot = tile.slot) :
    slotHolds s (s.clearSlot tile.slot) tile tile' fun _ => 0 := by
  refine ⟨h, fun n hn i hi => ?_, fun a _ apart => ?_⟩
  · rw [hn, State.clearSlot, clearBytes_mem, memByte_clear, if_pos (by omega)]
  · unfold State.clearSlot
    split
    · next n hn =>
      rw [clearBytes_mem, memByte_clear, if_neg]
      have := apart n hn
      omega
    · rfl

theorem writeSlot_tiles (s : State) (slot : Option Nat) (bytes : Tbl Byte) :
    (s.writeSlot slot bytes).adm = s.adm := by
  unfold State.writeSlot
  split <;> rfl

theorem clearSlot_tiles (s : State) (slot : Option Nat) : (s.clearSlot slot).adm = s.adm := by
  unfold State.clearSlot
  split <;> rfl

theorem findTile_congr {s t : State} (h : t.adm = s.adm) (key : TileKey) : t.findTile key = s.findTile key := by
  unfold State.findTile
  rw [h]

theorem overrun_stays (key : TileKey) (s : State) (b : Bool) (info : Nat) : VerdictStays key s
    (if b then ((s.count (ADM_CNT 2)).setEvt BLK_ADM 3).fault 0x0101 0xFF info else s) := by
  split
  · have counted : VerdictStays key s (s.count (ADM_CNT 2)) := .of_eq rfl rfl
    exact counted.trans (.of_quiet ((setEvt_quiet _ _ _).trans (fault_quiet _ _ _ _)))
  · exact VerdictStays.refl s

/-- R110, R113: the tile is accepted with the coverage of the render that agrees with another. -/
theorem acceptTile_accepts {s : State} {key : TileKey} {tile : TileSt} (found : s.findTile key = some tile)
    (hs : ∀ n, tile.slot = some n → n < 4096) (r : Render) :
    ∃ tile', (s.acceptTile tile r).findTile key = some tile' ∧ tile'.fate = .accepted ∧ tile'.vmiss = r.vmiss ∧
      slotHolds s (s.acceptTile tile r) tile tile' fun i => r.bytes.get 0 i := by
  have named : tile.key = key := by simpa using List.find?_some found
  unfold State.acceptTile
  extract_lets s1 lane s2 s3 s4
  have found1 : s1.findTile key = some (tile.acceptedWith r) := by
    change (State.onTile _ tile.key (TileSt.acceptedWith r)).findTile key = _
    rw [named]
    exact findTile_onTile ((findTile_congr (writeSlot_tiles _ _ _) _).trans found) (TileSt.acceptedWith r) fun _ => rfl
  have holds1 : slotHolds s s1 tile (tile.acceptedWith r)
      fun i => r.bytes.get 0 i := writeSlot_holds r.bytes _ rfl
  clear_value s1
  have stays2 : VerdictStays key s1 s2 := by
    refine foldl_keeps (VerdictStays key) VerdictStays.refl (fun _ _ _ => VerdictStays.trans) _ (fun u w => ?_) _ _
    split
    · generalize (if w < 4 then tile.p0 else tile.p1) = product
      cases product with
      | none => exact VerdictStays.refl u
      | some p => exact VerdictStays.varMiss p lane (w % 4)
    · exact VerdictStays.refl u
  have stays3 : VerdictStays key s2 s3 := by
    refine foldl_keeps (VerdictStays key) VerdictStays.refl (fun _ _ _ => VerdictStays.trans) _ (fun u q => ?_) _ _
    split
    · exact VerdictStays.mismatch tile.key q.core
    · exact VerdictStays.refl u
  have stays4 : VerdictStays key s3 s4 := overrun_stays key s3 r.overrun tile.key.info
  have stays5 : VerdictStays key s4 s4.releaseLatches := VerdictStays.of_eq rfl rfl
  exact slotHolds_of_stays hs holds1 found1 (stays2.trans (stays3.trans (stays4.trans stays5)))

/-! ### A tile released as zero dose (R112) -/

theorem unresolved_shows (s : State) (key : TileKey) (width : Nat) :
    (s.unresolved key width).regs = s.regs ∧ (s.unresolved key width).si = s.si ∧
      VerdictStays key s (s.unresolved key width) := by
  have emitted : ∀ d, (s.emit d).regs = s.regs ∧ (s.emit d).si = s.si := fun d => by
    unfold State.emit
    split <;> exact ⟨rfl, rfl⟩
  exact ⟨(emitted _).1, (emitted _).2, VerdictStays.emit _⟩

theorem releaseZero_eq {s : State} {key : TileKey} {tile : TileSt} (found : s.findTile key = some tile) :
    ∃ width, s.releaseZero key = (((((s.clearSlot tile.slot).onTile key TileSt.released).unresolved key width).count
      (ADM_CNT 1)).setEvt BLK_ADM 4).fault 0x1103 0xFF key.info := by
  unfold State.releaseZero
  rw [found]
  exact ⟨_, rfl⟩

/-- R112: the slot is cleared, the tile's fate is zero dose, and the release is counted and reported. -/
theorem releaseZero_releases {s : State} {key : TileKey} {tile : TileSt} (found : s.findTile key = some tile)
    (hs : ∀ n, tile.slot = some n → n < 4096) :
    ∃ tile', (s.releaseZero key).findTile key = some tile' ∧ tile'.fate = .zero ∧
      slotHolds s (s.releaseZero key) tile tile' (fun _ => 0) ∧ EventSet (s.releaseZero key) BLK_ADM 4 ∧
      (s.releaseZero key).reg (ADM_CNT 1) = satInc (s.reg (ADM_CNT 1)) ∧
      Reported s (s.releaseZero key) 0x1103 0xFF (BitVec.ofNat 48 key.info) := by
  obtain ⟨width, eq⟩ := releaseZero_eq found
  rw [eq]
  obtain ⟨s1, hs1⟩ : ∃ s1, (s.clearSlot tile.slot).onTile key TileSt.released = s1 := ⟨_, rfl⟩
  rw [hs1]
  have found1 : s1.findTile key = some tile.released := hs1 ▸
    findTile_onTile ((findTile_congr (clearSlot_tiles _ _) _).trans found) TileSt.released fun _ => rfl
  have holds1 : slotHolds s s1 tile tile.released fun _ => 0 := hs1 ▸ clearSlot_holds _ rfl
  have regs1 : s1.regs = s.regs ∧ s1.si = s.si := by
    rw [← hs1]
    change (s.clearSlot tile.slot).regs = s.regs ∧ (s.clearSlot tile.slot).si = s.si
    unfold State.clearSlot
    split <;> exact ⟨rfl, rfl⟩
  obtain ⟨regs2, si2, stays2⟩ := unresolved_shows s1 key width
  generalize s1.unresolved key width = s2 at *
  have counted : VerdictStays key s2 (s2.count (ADM_CNT 1)) := .of_eq rfl rfl
  have stays : VerdictStays key s1 (((s2.count (ADM_CNT 1)).setEvt BLK_ADM 4).fault 0x1103 0xFF key.info) :=
    (stays2.trans counted).trans (.of_quiet ((setEvt_quiet _ _ _).trans (fault_quiet _ _ _ _)))
  obtain ⟨tile', hfind, hfate, -, hslot⟩ := slotHolds_of_stays hs holds1 found1 stays
  refine ⟨tile', hfind, hfate, hslot, (setEvt_eventSet _ _ _ (by decide)).fault _ _ _, ?_, ?_⟩
  · rw [reg_fault _ _ _ _ _ (notMem_reportRegs_nil (by decide)), reg_setEvt_of_notMem _ _ _ _ (by decide)]
    change (s2.setReg (ADM_CNT 1) (satInc (s2.reg (ADM_CNT 1)))).reg (ADM_CNT 1) = _
    rw [reg_setReg_same, reg_of_regs (regs2.trans regs1.1)]
  · refine fault_reportedFrom _ _ _ ?_
    rw [setEvt_si]
    change s2.si.queues = _
    rw [si2, regs1.2]

/-! ### The vote -/

theorem vote_ready {tile : TileSt} (waiting : tile.fate = .waiting) (all : ∀ r ∈ tile.renders, r.phase = .delivered) :
    ¬ (tile.fate ≠ .waiting ∨ (tile.renders.any fun r => decide (r.phase ≠ .delivered)) = true) := by
  rintro (h | h)
  · exact h waiting
  · obtain ⟨r, hr, hp⟩ := List.any_eq_true.1 h
    exact (of_decide_eq_true hp) (all r hr)

/-- Settles O27: the vote accepts the tile with the coverage that two renders agree on, and a tile of a line-paced
job that is not accepted by R + 64 is released. -/
theorem voteOrZeroDose : Obligations.VoteOrZeroDose := by
  intro s p band col tile key found hs waiting
  refine ⟨fun clean all early r most => ?_, fun paced late i hi => ?_⟩
  · have notLate : s.tileLate tile = false := by
      unfold State.tileLate
      rcases early with feed | before
      · rw [feed]; rfl
      · rw [decide_eq_false (by omega), Bool.and_false]
    obtain ⟨tile', accepted⟩ := acceptTile_accepts found hs r
    refine ⟨_, tile', ?_, accepted⟩
    change execVote p band col s = _
    unfold execVote
    simp only [show s.findTile { plane := p, band := band.toNat, col := col } = some tile from found,
      if_neg (vote_ready waiting all), notLate, clean, most, Bool.false_eq_true, if_false]
  · obtain ⟨tile', released⟩ := releaseZero_releases found hs
    refine ⟨_, tile', ?_, released⟩
    rcases hi with rfl | ⟨all, rfl⟩
    · change execReleasedAsZeroDose p band col s = _
      unfold execReleasedAsZeroDose
      simp only [show s.findTile { plane := p, band := band.toNat, col := col } = some tile from found]
      rw [if_pos ⟨waiting, paced, late⟩]
    · have isLate : s.tileLate tile = true := by
        unfold State.tileLate
        rw [paced, decide_eq_true late]; rfl
      change execVote p band col s = _
      unfold execVote
      simp only [show s.findTile { plane := p, band := band.toNat, col := col } = some tile from found,
        if_neg (vote_ready waiting all), isLate, if_true]
      rfl

end Sys2Proof.Machine

/-!
Tiles that start, buffers that are cleared, and fetch areas (R58, R85, R95, O26): what the reads of a core leave, and
the state of a core as a tile starts on it.
-/

namespace Sys2Proof.Machine

/-! ### What a read of a block leaves (R309) -/

theorem poisonReport_frame (s : State) (line : Nat) : Frame s (s.poisonReport line) [MC_CNT 1] [BLK_MC] := by
  unfold State.poisonReport
  split
  · unfold State.sramFault
    exact (Frame.refl _ _ _).fault
  · exact (((Frame.refl _ _ _).count (by simp)).setEvt (by simp)).fault

theorem reportLines_frame (s : State) (a n : Nat) : Frame s (s.reportLines a n) [MC_CNT 1] [BLK_MC] := by
  unfold State.reportLines
  refine foldl_keeps (fun s t => Frame s t [MC_CNT 1] [BLK_MC]) (fun s => Frame.refl s _ _)
    (fun _ _ _ h k => Frame.trans h k) _ (fun u p => ?_) _ s
  split
  · exact poisonReport_frame u _
  · exact Frame.refl u _ _

theorem logUnmapped_frame (s : State) (m : Master) (a n : Nat) : Frame s (s.logUnmapped m a n) [MC_CNT 1] [BLK_MC] := by
  unfold State.logUnmapped
  split
  · unfold State.unmapped
    exact (Frame.refl _ _ _).fault
  · exact Frame.refl _ _ _

/-- A read of an expansion core's fetch is denied, or reports poisoned and unmapped lines. -/
theorem memLoad_xc_frame (s : State) (a n : Nat) : Frame s (s.memLoad .xc a n).2 [MC_CNT 1] [BLK_MC] := by
  unfold State.memLoad
  split
  · exact (reportLines_frame s a n).trans (logUnmapped_frame _ _ _ _)
  · exact (denied_frame s .xc a).mono (by simp) (by simp)

theorem memLoad_permitted {s : State} {m : Master} {a n : Nat} (h : s.permitsAll m a n false = true) :
    (s.memLoad m a n).1 = s.viewMapped a n := by
  unfold State.memLoad
  rw [if_pos h]

theorem viewMapped_length (s : State) (a n : Nat) : (s.viewMapped a n).length = n := by
  have all : ∀ fuel a n, n ≤ 64 * fuel - a % 64 → n ≤ 64 * fuel → ((piecesFuel fuel a n).flatMap fun p =>
      if s.region p.1 = .unmapped then List.replicate p.2 0 else s.viewBytes p.1 p.2).length = n := by
    intro fuel
    induction fuel with
    | zero => intro a n h _; simp only [piecesFuel, List.flatMap_nil, List.length_nil]; omega
    | succ fuel ih =>
      intro a n h _
      match n with
      | 0 => rfl
      | n + 1 =>
        have first : (if s.region a = .unmapped then List.replicate (min (n + 1) (64 - a % 64)) 0
            else s.viewBytes a (min (n + 1) (64 - a % 64))).length = min (n + 1) (64 - a % 64) := by
          split
          · exact List.length_replicate
          · simp [State.viewBytes, State.loadBytes]
        rw [piecesFuel, List.flatMap_cons, List.length_append, first, ih _ _ (by omega) (by omega)]
        omega
  unfold State.viewMapped pieces
  exact all _ _ _ (by omega) (by omega)

theorem memLoad_length (s : State) (m : Master) (a n : Nat) : (s.memLoad m a n).1.length = n := by
  unfold State.memLoad
  split
  · exact viewMapped_length s a n
  · exact List.length_replicate

/-! ### Reads that leave memory -/

/-- Reads of DRAM and of memory on behalf of a core: memory, the cores, the tiles, and the registers but for reports
of poison, are as they were. -/
def OnlyRead (s t : State) : Prop :=
  t.mem = s.mem ∧ t.xc = s.xc ∧ t.adm = s.adm ∧ RegsBut s t ([MC_CNT 1] ++ reportRegs [BLK_MC])

theorem OnlyRead.refl (s : State) : OnlyRead s s := ⟨rfl, rfl, rfl, fun _ _ => rfl⟩

theorem OnlyRead.trans {s t u : State} (h : OnlyRead s t) (k : OnlyRead t u) : OnlyRead s u :=
  ⟨k.1.trans h.1, k.2.1.trans h.2.1, k.2.2.1.trans h.2.2.1, h.2.2.2.trans k.2.2.2⟩

theorem OnlyRead.of_frame {s t : State} (h : Frame s t [MC_CNT 1] [BLK_MC]) : OnlyRead s t :=
  ⟨by rw [h.1], by rw [h.1], by rw [h.1], h.2⟩

theorem dramReads_onlyRead (s : State) (port : Nat × Nat) (hint : PageHint) (xs : List (Nat × Nat)) :
    OnlyRead s (s.dramReads port hint xs) := by
  rw [dramReads_withDram s port hint xs]
  exact ⟨rfl, rfl, rfl, fun _ _ => rfl⟩

theorem memLoad_onlyRead (s : State) (a n : Nat) : OnlyRead s (s.memLoad .xc a n).2 :=
  .of_frame (memLoad_xc_frame s a n)

/-- The regions of memory and PROT judge as before. -/
theorem OnlyRead.region {s t : State} (h : OnlyRead s t) (a : Nat) : t.region a = s.region a := by
  have cfg : t.reg MC_CFG = s.reg MC_CFG := h.2.2.2 _ (by decide)
  have cap : t.dramCap = s.dramCap := by
    unfold State.dramCap State.mirPairs State.plainChs State.capCh State.mirPairs State.nch State.activeRanks State.bit State.fld
    rw [cfg]
  unfold State.region
  rw [cap]

theorem OnlyRead.permits {s t : State} (h : OnlyRead s t) (a : Nat) : t.permits .xc a false = s.permits .xc a false := by
  have range : ∀ {off : Nat}, 0x301000 ≤ off → off < 0x302000 → t.reg off = s.reg off := fun h1 h2 => by
    refine h.2.2.2 _ fun hm => ?_
    rw [List.mem_append, List.mem_singleton] at hm
    rcases hm with hm | hm
    · unfold MC_CNT at hm; omega
    · exact (notMem_reportRegs_one (b := BLK_MC) 0xF00020 rfl (by omega)) hm
  have hit : ∀ i, i < 32 → t.protHit a i = s.protHit a i := fun i hi => by
    unfold State.protHit State.bit State.fld
    rw [range (off := PROT_REGION0 i), range (off := PROT_REGION1 i), range (off := PROT_REGION2 i),
      range (off := PROT_REGION3 i)] <;> simp only [PROT_REGION0, PROT_REGION1, PROT_REGION2, PROT_REGION3] <;> omega
  have perm : ∀ i, i < 32 → t.fld (PROT_REGION1 i) PROT_REGION1_PERM = s.fld (PROT_REGION1 i) PROT_REGION1_PERM :=
    fun i hi => fld_of_reg _ (range (by unfold PROT_REGION1; omega) (by unfold PROT_REGION1; omega))
  unfold State.permits
  have find : (List.range 32).find? (t.protHit a) = (List.range 32).find? (s.protHit a) := by
    refine List.find?_congr fun i hi => hit i (List.mem_range.1 hi)
  rw [find]
  cases hf : (List.range 32).find? (s.protHit a) with
  | none => simp only [Bool.false_and]
  | some i => simp only [Bool.false_and, perm i (List.mem_range.1 (List.mem_of_find?_eq_some hf))]

theorem OnlyRead.permitsAll {s t : State} (h : OnlyRead s t) (a n : Nat) :
    t.permitsAll .xc a n false = s.permitsAll .xc a n false := by
  unfold State.permitsAll
  exact congrArg _ (funext fun p => h.permits p.1)

theorem OnlyRead.viewMapped {s t : State} (h : OnlyRead s t) (a n : Nat) : t.viewMapped a n = s.viewMapped a n := by
  unfold State.viewMapped
  refine congrArg (fun f => (pieces a n).flatMap f) (funext fun p => ?_)
  rw [h.region, State.viewBytes, State.viewBytes, State.loadBytes, State.loadBytes, h.1]

end Sys2Proof.Machine

namespace Sys2Proof.Machine

/-! ### Copies into a fetch area (R95) -/

/-- Copies into the data memory of a core. -/
def CopiedInto (x : Nat) (s t : State) : Prop :=
  t.xc = s.xc ∧ t.adm = s.adm ∧ MemBut s t (XC_MEM x) 0x38000 ∧ RegsBut s t ([MC_CNT 1] ++ reportRegs [BLK_MC])

namespace CopiedInto
variable {x : Nat} {s t u : State}

theorem refl (s : State) : CopiedInto x s s := ⟨rfl, rfl, fun _ _ => rfl, fun _ _ => rfl⟩

theorem trans (h : CopiedInto x s t) (k : CopiedInto x t u) : CopiedInto x s u := by
  obtain ⟨xc, adm, mem, regs⟩ := h
  obtain ⟨xc', adm', mem', regs'⟩ := k
  exact ⟨xc'.trans xc, adm'.trans adm, fun a ha => (mem' a ha).trans (mem a ha), regs.trans regs'⟩

theorem of_read (h : OnlyRead s t) : CopiedInto x s t := by
  obtain ⟨mem, xc, adm, regs⟩ := h
  exact ⟨xc, adm, fun a _ => by rw [mem], regs⟩

theorem store {a : Nat} {bs : List Byte} (h : a + bs.length ≤ 0x38000) : CopiedInto x s (s.storeBytes (XC_MEM x + a) bs) :=
  ⟨rfl, rfl, fun b hb => storeBytes_out _ _ _ _ (by omega), fun _ _ => rfl⟩

end CopiedInto

/-- The state in which an entry of a fetch list is copied: its source has been read. -/
theorem fetchEntry_eq (s : State) (x : Nat) (area : Bool) (e : Nat) :
    ∃ t, OnlyRead s t ∧ (s.fetchEntry x area e).2 =
      (t.memLoad .xc (lstSrc e) (fetchLen e)).2.storeBytes (XC_MEM x + areaBase area + lstDst e)
        (t.memLoad .xc (lstSrc e) (fetchLen e)).1 :=
  ⟨_, (dramReads_onlyRead s _ _ _).trans (dramReads_onlyRead _ _ _ _), rfl⟩

theorem area_fits (area : Bool) {e : Nat} (h : lstDst e ≤ areaSize) :
    areaBase area + lstDst e + fetchLen e ≤ 0x38000 := by
  unfold areaBase fetchLen areaSize at *
  split <;> omega

theorem fetchEntry_copies (s : State) (x : Nat) (area : Bool) (e : Nat) : CopiedInto x s (s.fetchEntry x area e).2 := by
  obtain ⟨t, read, eq⟩ := fetchEntry_eq s x area e
  rw [eq, Nat.add_assoc]
  refine (CopiedInto.of_read (read.trans (memLoad_onlyRead t (lstSrc e) (fetchLen e)))).trans ?_
  by_cases inside : lstDst e ≤ areaSize
  · exact .store (by rw [memLoad_length]; exact area_fits area inside)
  · have none : (t.memLoad .xc (lstSrc e) (fetchLen e)).1 = [] := by
      rw [← List.length_eq_zero_iff, memLoad_length]
      unfold fetchLen
      omega
    rw [none]
    exact ⟨rfl, rfl, fun b _ => storeBytes_out _ _ _ _ (by simp only [List.length_nil]; omega), fun _ _ => rfl⟩

/-- An entry's bytes are those of its source, where PROT permits it. -/
theorem fetchEntry_bytes {s : State} (x : Nat) (area : Bool) {e : Nat}
    (permitted : s.permitsAll .xc (lstSrc e) (fetchLen e) false = true) {i : Nat} (hi : i < fetchLen e) :
    memByte (s.fetchEntry x area e).2.mem (XC_MEM x + areaBase area + lstDst e + i) =
      (s.viewMapped (lstSrc e) (fetchLen e)).getD i 0 := by
  obtain ⟨t, read, eq⟩ := fetchEntry_eq s x area e
  have bytes : (t.memLoad .xc (lstSrc e) (fetchLen e)).1 = s.viewMapped (lstSrc e) (fetchLen e) := by
    rw [memLoad_permitted (by rw [read.permitsAll]; exact permitted), read.viewMapped]
  rw [eq, bytes, storeBytes_in _ _ _ _ (by rw [viewMapped_length]; exact hi), List.getD_eq_getElem?_getD,
    List.getElem?_eq_getElem (by rw [viewMapped_length]; exact hi), Option.getD_some]

/-- The entries of a list, copied one after the other. -/
def State.fetchAll (s : State) (x : Nat) (area bad : Bool) (es : List Nat) : Bool × State :=
  es.foldl (fun (acc : Bool × State) e =>
    let q := acc.2.fetchEntry x area e
    (acc.1 || q.1, q.2)) (bad, s)

theorem fetchAll_copies (s : State) (x : Nat) (area bad : Bool) (es : List Nat) :
    CopiedInto x s (s.fetchAll x area bad es).2 := by
  unfold State.fetchAll
  induction es generalizing s bad with
  | nil => exact .refl s
  | cons e es ih => exact (fetchEntry_copies s x area e).trans (ih _ _)

/-! ### The render of a tile enters its next phase -/

/-- A tile whose render on a core is in a phase. -/
def TileSt.inPhase (x : Nat) (ph : RenderPhase) (t : TileSt) : TileSt := { t with
  renders := t.renders.map fun r => if r.core = x then { r with phase := ph } else r }

/-- Every tile of a name has the renders of a core in the phase that they enter. -/
theorem setPhase_phases (s : State) (key : TileKey) (x : Nat) (ph : RenderPhase) :
    ∀ u ∈ (s.setPhase key x ph).adm.tiles, u.key = key → ∀ r ∈ u.renders, r.core = x → r.phase = ph := by
  intro u hu hk r hr hc
  change u ∈ s.adm.tiles.map fun t => if t.key = key then t.inPhase x ph else t at hu
  obtain ⟨t, -, rfl⟩ := List.mem_map.1 hu
  by_cases named : t.key = key
  · rw [if_pos named] at hr
    obtain ⟨q, -, rfl⟩ := List.mem_map.1 hr
    by_cases on : q.core = x
    · rw [if_pos on]
    · rw [if_neg on] at hc
      exact absurd hc on
  · rw [if_neg named] at hk
    exact absurd hk named

/-! ### PREFETCH -/

/-- What PREFETCH does once the copy need not wait: the list is read, its entries are copied, and the tile is ready. -/
theorem execPrefetch_eq {s : State} {x : Fin 144} {tile : TileSt}
    (next : s.nextOn x (fun ph => decide (ph = .queued)) = some tile) (free : s.nextOn x RenderPhase.isFetched = none)
    (clk : s.clocked BLK_XC = true) (due : s.tileR tile - 64 ≤ s.lastLn) (es : List Nat)
    (hes : es = (List.range (min 4096 (s.listLen tile.fl))).map (s.listEnt tile.fl))
    (stall : s.dramStalls (0, fetchSrc x) false .keep
      ((tile.fl, 16 * (es.length + 1)) :: es.map fun e => (lstSrc e, fetchLen e)) = none) :
    ∃ (u : State) (bad c : Bool) (f : TileSt → TileSt), OnlyRead s u ∧ (∀ v, (f v).key = v.key) ∧
      exec (.prefetch x) s = .next (((u.fetchAll x (s.xcAt x).area bad
        (if s.permitsAll .xc tile.fl (16 * (es.length + 1)) false then (if c then es.reverse else es) else [])).2.onTile
          tile.key f).setPhase tile.key x (.fetched (s.xcAt x).area)) := by
  have now : ¬ ((s.nextOn x RenderPhase.isFetched).isSome = true ∨ s.lastLn < s.tileR tile - 64) := by
    rw [free]
    rintro (h | h)
    · exact absurd h (by decide)
    · omega
  obtain ⟨v, hv⟩ : ∃ v, (s.dramReads (0, fetchSrc x) .keep [(tile.fl, 16 * (es.length + 1))]).draw.2 = v := ⟨_, rfl⟩
  have read : OnlyRead s v := hv ▸ (dramReads_onlyRead s _ _ _).trans ⟨rfl, rfl, rfl, fun _ _ => rfl⟩
  refine ⟨(v.memLoad .xc tile.fl (16 * (es.length + 1))).2, v.poisoned tile.fl (16 * (es.length + 1)),
    Config.freeBit (s.dramReads (0, fetchSrc x) .keep [(tile.fl, 16 * (es.length + 1))]).draw.1 0, ?_,
    read.trans (memLoad_onlyRead v _ _), ?_, ?_⟩
  case refine_3 =>
    subst hv
    rw [← read.permitsAll]
    change execPrefetch x s = _
    unfold execPrefetch State.whenClocked
    rw [clk, if_pos rfl]
    beta_reduce
    rw [next]
    dsimp only
    rw [if_neg now, ← hes, stall]
    rfl
  · intro w; rfl

theorem setPhase_onTile_leaves (s : State) (key k : TileKey) (x : Nat) (ph : RenderPhase) (f : TileSt → TileSt) :
    ((s.onTile key f).setPhase k x ph).xc = s.xc ∧ ((s.onTile key f).setPhase k x ph).mem = s.mem ∧
      ((s.onTile key f).setPhase k x ph).regs = s.regs := ⟨rfl, rfl, rfl⟩

theorem prefetch_fills : prefetchFillsTheNextArea := by
  intro s x tile next free clk due es base stall
  refine ⟨fun t ht => ?_, fun none => ?_⟩
  · have now : ¬ ((s.nextOn x RenderPhase.isFetched).isSome = true ∨ s.lastLn < s.tileR tile - 64) := by
      rw [free]
      rintro (h | h)
      · exact absurd h (by decide)
      · omega
    change execPrefetch x s = _
    unfold execPrefetch State.whenClocked
    rw [clk, if_pos rfl]
    beta_reduce
    rw [next]
    dsimp only
    rw [if_neg now]
    change Host.Outcome.next (match stall with | some s => s | none => _) = _
    rw [ht]
  · obtain ⟨u, bad, c, f, read, named, run⟩ := execPrefetch_eq next free clk due es rfl none
    have copied := fetchAll_copies u x (s.xcAt x).area bad
      (if s.permitsAll .xc tile.fl (16 * (es.length + 1)) false then (if c then es.reverse else es) else [])
    have leaves := (CopiedInto.of_read (x := x) read).trans copied
    obtain ⟨w, hw⟩ : ∃ w, (u.fetchAll x (s.xcAt x).area bad
      (if s.permitsAll .xc tile.fl (16 * (es.length + 1)) false then (if c then es.reverse else es) else [])).2 = w := ⟨_, rfl⟩
    rw [hw] at leaves run
    obtain ⟨xc, -, mem, regs⟩ := leaves
    obtain ⟨sameXc, sameMem, sameRegs⟩ := setPhase_onTile_leaves w tile.key tile.key x (.fetched (s.xcAt x).area) f
    refine ⟨_, run, sameXc.trans xc, fun a ha => ?_, fun off ho => ?_, setPhase_phases _ _ _ _, ?_⟩
    · rw [sameMem, mem a ha]
    · rw [reg_of_regs sameRegs, regs off ho]
    · intro e one listed source i hi
      have single : (if s.permitsAll .xc tile.fl (16 * (es.length + 1)) false then (if c then es.reverse else es) else []) =
          [e] := by
        rw [one]
        change (if s.permitsAll .xc tile.fl 32 false = true then _ else _) = _
        rw [listed, if_pos rfl, List.reverse_singleton, ite_self]
      rw [sameMem, ← hw, single]
      change memByte (u.fetchEntry x (s.xcAt x).area e).2.mem _ = _
      rw [fetchEntry_bytes x _ (by rw [read.permitsAll]; exact source) hi, read.viewMapped]

end Sys2Proof.Machine

namespace Sys2Proof.Machine

/-! ### A buffer read and cleared (R58) -/

/-- The bytes that are not zero, kept by their places, give every byte back. -/
theorem get_sparse (bs : List Byte) (k i : Nat) :
    Tbl.get ((bs.zipIdx k).filterMap fun (b, j) => if b = 0 then none else some (j, b)) 0 i =
      if k ≤ i then bs.getD (i - k) 0 else 0 := by
  induction bs generalizing k with
  | nil => simp [Tbl.get]
  | cons b bs ih =>
    rw [List.zipIdx_cons, List.filterMap_cons]
    have tail : (if k ≤ i then (b :: bs).getD (i - k) 0 else 0) =
        if i = k then b else if k + 1 ≤ i then bs.getD (i - (k + 1)) 0 else 0 := by
      by_cases same : i = k
      · subst same; simp
      · rw [if_neg same]
        by_cases below : k ≤ i
        · obtain ⟨d, hd⟩ : ∃ d, i - k = d + 1 := ⟨i - k - 1, by omega⟩
          rw [if_pos below, if_pos (by omega), hd, List.getD_cons_succ, show i - (k + 1) = d by omega]
        · rw [if_neg below, if_neg (by omega)]
    rw [tail]
    by_cases zero : b = 0
    · simp only [zero, if_true, ih]
      by_cases same : i = k
      · rw [if_pos same, if_neg (by omega)]
      · rw [if_neg same]
    · simp only [zero, if_false, Tbl.get, ih]
      by_cases same : i = k
      · simp [same]
      · simp [same, Ne.symm same]

/-- A render delivered with a buffer's bytes, CRC and status. -/
def Render.deliveredWith (h : Handed) (bytes : List Byte) (r : Render) : Render :=
  { r with phase := .delivered, crc := h.crc, illegal := h.illegal, overrun := h.overrun, vmiss := h.vmiss,
           bytes := bytes.zipIdx.filterMap fun (b, i) => if b = 0 then none else some (i, b) }

/-- A tile whose render on a core is delivered with a buffer's bytes, or, no longer waited for, is discarded. -/
def TileSt.delivers (x : Nat) (h : Handed) (bytes : List Byte) (t : TileSt) : TileSt := { t with
  renders := if t.fate = .waiting then
      t.renders.map fun r =>
        if r.core = x ∧ (r.phase = .running ∨ r.phase = .handed) then r.deliveredWith h bytes else r
    else t.renders.filter fun r => r.core != x }

theorem buffers_cleared : handedBuffersAreCleared := by
  intro s x h handed base
  refine ⟨((s.onTile h.tile (TileSt.delivers x h (s.loadBytes base 0x4000))).clearBytes base 0x4000).onXc x fun c =>
    { c with handed := none }, ?_, ?_, fun i hi => ?_, fun a ha => ?_, rfl, ?_, ?_⟩
  · change execBufferReadAndClear x s = _
    unfold execBufferReadAndClear
    rw [handed]
    rfl
  · rw [onXc_xcAt, if_pos rfl]
    rfl
  · change memByte (memClear s.mem base 0x4000) _ = 0
    rw [memByte_clear, if_pos (by omega)]
  · change memByte (memClear s.mem base 0x4000) _ = _
    rw [memByte_clear, if_neg (by omega)]
  · exact (onXc_onlyCore _ x _).2
  · intro tile found waiting r hr core running
    have found' := findTile_onTile found (TileSt.delivers x h (s.loadBytes base 0x4000)) fun _ => rfl
    refine ⟨_, found', r.deliveredWith h (s.loadBytes base 0x4000), ?_, core, rfl, rfl, rfl, rfl, rfl, fun i hi => ?_⟩
    · unfold TileSt.delivers
      dsimp only
      rw [if_pos waiting]
      exact List.mem_map.2 ⟨r, hr, if_pos ⟨core, .inl running⟩⟩
    · have length : (s.loadBytes base 0x4000).length = 0x4000 := memRead_length _ _ _
      unfold Render.deliveredWith
      dsimp only
      rw [get_sparse, if_pos (Nat.zero_le i), List.getD_eq_getElem?_getD,
        List.getElem?_eq_getElem (by rw [length]; exact hi), Option.getD_some]
      exact memRead_getElem _ _ _ _ _

end Sys2Proof.Machine

namespace Sys2Proof.Machine

/-! ### The start of a tile (R40, R59, R85) -/

/-- A core as a tile starts on it, its registers but g1 to g5. -/
def XcSt.begins (tile : TileSt) (base : Nat) (area : Bool) (c : XcSt) : XcSt := { c with
  g := [], pc := BitVec.ofNat 32 (base + tile.entry), v := [], sp := [], level := 255, vmiss := 0,
  tile := some tile.key, start1 := BitVec.ofNat 32 (256 * tile.key.col), start2 := BitVec.ofNat 32 tile.key.band,
  start3 := BitVec.ofNat 32 tile.key.plane, start5 := tile.g5,
  windows := tile.fw, ready := tile.ready, cycles := 0, cost := tile.cost, rep := none, area := !area }

/-- The registers g1 to g5 at the start of a tile. -/
def startG (tile : TileSt) (base : Nat) : Tbl Word :=
  ((((Tbl.set [] 0 1 (BitVec.ofNat 32 (256 * tile.key.col))).set 0 2 (BitVec.ofNat 32 tile.key.band)).set 0 3
    (BitVec.ofNat 32 tile.key.plane)).set 0 4 (BitVec.ofNat 32 (base + 16 * tile.dofs))).set 0 5 tile.g5

theorem startG_get (tile : TileSt) (base : Nat) (r : BitVec 5) : (startG tile base).get 0 r.toNat =
    if r = 1 then BitVec.ofNat 32 (256 * tile.key.col)
    else if r = 2 then BitVec.ofNat 32 tile.key.band
    else if r = 3 then BitVec.ofNat 32 tile.key.plane
    else if r = 4 then BitVec.ofNat 32 (base + 16 * tile.dofs)
    else if r = 5 then tile.g5 else 0 := by
  have h1 : r.toNat = 1 ↔ r = 1 := BitVec.toNat_inj (x := r) (y := 1)
  have h2 : r.toNat = 2 ↔ r = 2 := BitVec.toNat_inj (x := r) (y := 2)
  have h3 : r.toNat = 3 ↔ r = 3 := BitVec.toNat_inj (x := r) (y := 3)
  have h4 : r.toNat = 4 ↔ r = 4 := BitVec.toNat_inj (x := r) (y := 4)
  have h5 : r.toNat = 5 ↔ r = 5 := BitVec.toNat_inj (x := r) (y := 5)
  unfold startG
  simp only [Tbl.get_set, h1, h2, h3, h4, h5]
  by_cases e1 : r = 1
  · subst e1; rfl
  by_cases e2 : r = 2
  · subst e2; rfl
  by_cases e3 : r = 3
  · subst e3; rfl
  by_cases e4 : r = 4
  · subst e4; rfl
  simp only [e1, e2, e3, e4, if_false]
  rfl

/-- The state once the windows of a tile have been filled. -/
def State.windowsFilled (s : State) (x : Nat) (tile : TileSt) : State :=
  if tile.fw then s.storeBytes (XC_MEM x + 0x34000) ((List.range 8).flatMap fun w => s.fieldWindow tile w) else s

theorem windowsFilled_eq (s : State) (x : Nat) (tile : TileSt) :
    s.windowsFilled x tile = { s with mem := (s.windowsFilled x tile).mem, poison := (s.windowsFilled x tile).poison } := by
  unfold State.windowsFilled
  split <;> rfl

/-- The core once the tile has started on it. -/
def State.tileBegins (s : State) (x : Nat) (tile : TileSt) (base : Nat) (area : Bool) : State :=
  ((((((s.windowsFilled x tile).onXc x (XcSt.begins tile base area)).setXg x 1 (BitVec.ofNat 32 (256 * tile.key.col))).setXg x 2
    (BitVec.ofNat 32 tile.key.band)).setXg x 3 (BitVec.ofNat 32 tile.key.plane)).setXg x 4
      (BitVec.ofNat 32 (base + 16 * tile.dofs))).setXg x 5 tile.g5

theorem setXg_eq (s : State) (x : Nat) {r : Nat} (h : r ≠ 0) (v : Word) :
    s.setXg x r v = s.onXc x fun c => { c with g := c.g.set 0 r v } := if_neg h

theorem tileBegins_core (s : State) (x : Nat) (tile : TileSt) (base : Nat) (area : Bool) :
    (s.tileBegins x tile base area).xcAt x = { (s.xcAt x).begins tile base area with g := startG tile base } := by
  have same : (s.windowsFilled x tile).xcAt x = s.xcAt x := by rw [windowsFilled_eq]; rfl
  unfold State.tileBegins
  rw [setXg_eq _ _ (by decide), setXg_eq _ _ (by decide), setXg_eq _ _ (by decide), setXg_eq _ _ (by decide),
    setXg_eq _ _ (by decide)]
  simp only [onXc_xcAt, if_true, same]
  rfl

/-- One core of `w`'s state has been written, and it is not one of the others. -/
def CoreWritten (s w t : State) (x : Fin 144) : Prop := t = { w with xc := t.xc } ∧ OtherCores s t (.xc x)

theorem CoreWritten.onXc {s w t : State} {x : Fin 144} (h : CoreWritten s w t x) (f : XcSt → XcSt) :
    CoreWritten s w (t.onXc x f) x := by
  obtain ⟨eq, others⟩ := h
  refine ⟨?_, others.trans (onXc_onlyCore t x f).2⟩
  unfold State.onXc
  rw [eq]

theorem CoreWritten.setXg {s w t : State} {x : Fin 144} (h : CoreWritten s w t x) {r : Nat} (hr : r ≠ 0) (v : Word) :
    CoreWritten s w (t.setXg x r v) x := by
  rw [setXg_eq t x hr]
  exact h.onXc _

theorem tileBegins_leaves (s : State) (x : Fin 144) (tile : TileSt) (base : Nat) (area : Bool) :
    CoreWritten s (s.windowsFilled x tile) (s.tileBegins x tile base area) x := by
  have others : OtherCores s (s.windowsFilled x tile) (.xc x) := by
    rw [windowsFilled_eq]
    exact ⟨fun _ _ => rfl, fun _ _ => rfl, fun _ => rfl⟩
  have written : CoreWritten s (s.windowsFilled x tile) (s.windowsFilled x tile) x := ⟨rfl, others⟩
  unfold State.tileBegins
  exact (((((written.onXc _).setXg (by decide) _).setXg (by decide) _).setXg (by decide) _).setXg (by decide) _).setXg
    (by decide) _

/-! ### Field windows -/

theorem fieldWindow_length (s : State) (tile : TileSt) (w : Nat) : (s.fieldWindow tile w).length = 2048 := by
  unfold State.fieldWindow
  rw [List.length_map, List.length_range]

/-- The bytes of equal parts, one after the other. -/
theorem flatMap_range_get {f : Nat → List Byte} {m : Nat} (h : ∀ w, (f w).length = m) {n w i : Nat} (hw : w < n) (hi : i < m) :
    ((List.range n).flatMap f)[m * w + i]? = (f w)[i]? := by
  induction n with
  | zero => omega
  | succ n ih =>
    have length : ((List.range n).flatMap f).length = m * n := by
      rw [List.length_flatMap, List.map_congr_left (fun a _ => h a), List.map_const', List.sum_replicate, List.length_range,
        smul_eq_mul, Nat.mul_comm]
    rw [List.range_succ, List.flatMap_append, List.flatMap_singleton]
    rcases Nat.lt_succ_iff_lt_or_eq.1 hw with lt | rfl
    · have : m * w + m ≤ m * n := by rw [← Nat.mul_succ]; exact Nat.mul_le_mul_left m lt
      rw [List.getElem?_append_left (by rw [length]; omega), ih lt]
    · rw [List.getElem?_append_right (by rw [length]; omega), length, Nat.add_sub_cancel_left]

theorem windowsFilled_holds (s : State) (x : Nat) (tile : TileSt) :
    if tile.fw then
      (∀ w i, w < 8 → i < 2048 → memByte (s.windowsFilled x tile).mem (XC_MEM x + 0x34000 + 2048 * w + i) =
        (s.fieldWindow tile w).getD i 0) ∧ MemBut s (s.windowsFilled x tile) (XC_MEM x + 0x34000) 0x4000
    else (s.windowsFilled x tile).mem = s.mem := by
  unfold State.windowsFilled
  by_cases fw : tile.fw = true
  · have length : ((List.range 8).flatMap fun w => s.fieldWindow tile w).length = 0x4000 := by
      simp only [List.length_flatMap, fieldWindow_length]
      rfl
    rw [if_pos fw, if_pos fw]
    refine ⟨fun w i hw hi => ?_, fun a ha => storeBytes_out _ _ _ _ (by rw [length]; exact ha)⟩
    rw [Nat.add_assoc, storeBytes_in _ _ _ _ (by rw [length]; omega), List.getD_eq_getElem?_getD,
      ← flatMap_range_get (fieldWindow_length s tile) hw hi, List.getElem?_eq_getElem (by rw [length]; omega),
      Option.getD_some]
  · rw [if_neg fw, if_neg fw]

theorem xv_of_empty {s : State} {x : Nat} (h : (s.xcAt x).v = []) (v : Nat) : s.xv x v = List.replicate 32 0 := by
  unfold State.xv
  rw [h]
  rfl

/-- The state of a core is the same once its tile's render has entered a phase. -/
theorem setPhase_leaves (s : State) (key : TileKey) (x : Nat) (ph : RenderPhase) :
    s.setPhase key x ph = { s with adm := { s.adm with tiles := (s.setPhase key x ph).adm.tiles } } := rfl

theorem tileStart_begins : tileStartsWithItsValues := by
  intro s x tile next clk idle noHand due base
  obtain ⟨area, harea⟩ : ∃ a, (tile.renders.any fun r => r.core == x.val && decide (r.phase = .fetched true)) = a := ⟨_, rfl⟩
  have hbase : base = areaBase area := by
    change (if (tile.renders.any fun r => r.core == x.val && decide (r.phase = .fetched true)) = true then 106496 else 0) = _
    rw [harea]
    rfl
  clear_value base
  subst hbase
  have now : ¬ ((s.xcAt x).tile.isSome = true ∨ (s.xcAt x).handed.isSome = true ∨ s.lastLn < s.tileR tile) := by
    rw [idle, noHand]
    rintro (h | h | h)
    · exact absurd h (by decide)
    · exact absurd h (by decide)
    · omega
  have core := tileBegins_core s x tile (areaBase area) area
  obtain ⟨eq, others⟩ := tileBegins_leaves s x tile (areaBase area) area
  have filled := windowsFilled_holds s x tile
  have leaves := windowsFilled_eq s x tile
  have run : exec (.tileStart x) s =
      .next ((s.tileBegins x tile (areaBase area) area).setPhase tile.key x .running) := by
    change execTileStart x s = _
    unfold execTileStart State.whenClocked
    rw [clk, if_pos rfl]
    beta_reduce
    rw [next]
    dsimp only
    rw [if_neg now, harea]
    rfl
  obtain ⟨u, hu⟩ : ∃ u, s.tileBegins x tile (areaBase area) area = u := ⟨_, rfl⟩
  obtain ⟨w, hw⟩ : ∃ w, s.windowsFilled x tile = w := ⟨_, rfl⟩
  rw [hu] at core eq others run
  rw [hw] at eq filled leaves
  have mem : (u.setPhase tile.key x .running).mem = w.mem := by
    change u.mem = _
    rw [eq]
  have core' : (u.setPhase tile.key x .running).xcAt x =
      { (s.xcAt x).begins tile (areaBase area) area with g := startG tile (areaBase area) } := core
  refine ⟨_, run, by rw [core']; rfl, by rw [core']; rfl, fun r => ?_, fun v => xv_of_empty (by rw [core']; rfl) v,
    fun p k => by rw [State.xs, core']; rfl, by rw [core']; rfl, by rw [core']; rfl, by rw [core']; rfl, by rw [core']; rfl,
    by rw [core']; rfl, by rw [core']; rfl, ?_, ?_, others⟩
  · unfold State.coreG State.xg
    dsimp only
    rw [core']
    exact startG_get tile _ r
  · have but : ∀ {a n : Nat}, MemBut s w a n → MemBut s (u.setPhase tile.key x .running) a n := fun h b hb => by
      rw [mem, h b hb]
    rw [mem]
    split at filled
    · next fw =>
      rw [if_pos fw]
      exact ⟨filled.1, but filled.2⟩
    · next fw =>
      rw [if_neg fw]
      exact filled
  · rw [setPhase_leaves, eq, leaves]

/-- Settles O26: the start of a tile, the clearing of a buffer, and the prefetch of the next tile's list. -/
theorem tilesStartAndAreCleared : Obligations.TilesStartAndAreCleared :=
  ⟨tileStart_begins, buffers_cleared, prefetch_fills⟩

end Sys2Proof.Machine

/-!
Firing outputs, gating inputs and head alerts (R158, R163, R164, R166, R168, R170, R171, O31).
-/

namespace Sys2Proof.Machine

/-! ### Gaps that open and close (R275) -/

/-- Only the verification engine's own state differs. -/
def InVe (s t : State) : Prop := t = { s with ve := t.ve }

theorem InVe.refl (s : State) : InVe s s := rfl

theorem InVe.trans (s t u : State) (h : InVe s t) (k : InVe t u) : InVe s u := by
  unfold InVe at h k ⊢
  rw [k, h]

theorem emit_inVe (s : State) (d : Defect) : InVe s (s.emit d) := by
  unfold State.emit
  split <;> rfl

theorem emits_inVe {α : Type} (s : State) (xs : List α) (f : State → α → Defect) :
    InVe s (xs.foldl (fun s n => s.emit (f s n)) s) :=
  foldl_keeps InVe InVe.refl InVe.trans _ (fun u n => emit_inVe u (f u n)) xs s

theorem gapEmit_inVe (s : State) (k : Nat) (g : GapSt) : InVe s (s.gapEmit k g) := by
  unfold State.gapEmit
  dsimp only
  generalize (if s.veOn = true then s.hubSlots k else []) = slots
  have emitted := emits_inVe s slots fun s n => s.gapRec n g.cls g.line none flagOpen g.time
  generalize slots.foldl (fun s n => s.emit (s.gapRec n g.cls g.line none flagOpen g.time)) s = u at *
  exact InVe.trans _ _ _ emitted rfl

/-- What opening or closing a gap of a hub leaves: the engine's state and the hub's status register apart. -/
def GapMoves (s t : State) (k : Nat) : Prop :=
  t = { s with ve := t.ve, regs := t.regs } ∧ RegsBut s t [FS_HSTAT k] ∧
  t.bit (FS_HSTAT k) FS_HSTAT_HELD = s.bit (FS_HSTAT k) FS_HSTAT_HELD

theorem InVe.gapMoves {s t : State} (h : InVe s t) (k : Nat) : GapMoves s t k := by
  unfold InVe at h
  rw [h]
  exact ⟨rfl, fun _ _ => rfl, rfl⟩

theorem GapMoves.showGap {s t : State} {k : Nat} (h : GapMoves s t k) (v : Nat) :
    GapMoves s (t.setFld (FS_HSTAT k) FS_HSTAT_GAP v) k := by
  obtain ⟨eq, regs, held⟩ := h
  refine ⟨?_, regs.setFld (by simp), ?_⟩
  · conv_lhs => rw [eq]
    rfl
  · rw [← held, State.bit, State.bit, fld_setFld_field t (FS_HSTAT k) FS_HSTAT_GAP FS_HSTAT_HELD v (by decide)]

theorem gapClose_moves (s : State) (k line : Nat) : GapMoves s (s.gapClose k line) k := by
  unfold State.gapClose
  split
  · exact (InVe.refl s).gapMoves k
  · next g _ =>
    dsimp only
    have emitted := emits_inVe s g.slots fun s n => s.gapRec n g.cls g.line (some (line - 1)) flagClose g.time
    generalize g.slots.foldl (fun s n => s.emit (s.gapRec n g.cls g.line (some (line - 1)) flagClose g.time)) s = u at *
    exact ((InVe.trans _ _ _ emitted rfl : InVe s (u.onVe _)).gapMoves k).showGap 0

theorem gapOpen_moves (s : State) (k line cls : Nat) : GapMoves s (s.gapOpen k line cls) k := by
  unfold State.gapOpen
  split
  · split
    · exact (gapEmit_inVe s k _).gapMoves k
    · exact (InVe.refl s).gapMoves k
  · exact ((gapEmit_inVe s k _).gapMoves k).showGap 1

/-! ### A hub that is held (R161) -/

/-- What sending SYNC blocks leaves of the firing block: its pulses, and every register. -/
def PulsesStay (s t : State) : Prop := t.fs.high = s.fs.high ∧ t.fs.sched = s.fs.sched ∧ t.regs = s.regs

theorem PulsesStay.refl (s : State) : PulsesStay s s := ⟨rfl, rfl, rfl⟩

theorem PulsesStay.trans (s t u : State) (h : PulsesStay s t) (k : PulsesStay t u) : PulsesStay s u :=
  ⟨k.1.trans h.1, k.2.1.trans h.2.1, k.2.2.trans h.2.2⟩

theorem sendSync_pulsesStay (s : State) (n nln : Nat) : PulsesStay s (s.sendSync n nln) := by
  unfold State.sendSync
  dsimp only
  split <;> exact ⟨rfl, rfl, rfl⟩

theorem syncHub_pulsesStay (s : State) (k nln : Nat) : PulsesStay s (s.syncHub k nln) :=
  foldl_keeps PulsesStay PulsesStay.refl PulsesStay.trans _ (fun u n => sendSync_pulsesStay u n nln) _ s

theorem holdHub_holds (s : State) (k : Nat) : (s.holdHub k).fs.high = s.fs.high ∧ (s.holdHub k).fs.sched = s.fs.sched ∧
    (s.holdHub k).bit (FS_HSTAT k) FS_HSTAT_HELD = true := by
  unfold State.holdHub
  obtain ⟨u, hu⟩ : ∃ u, ((s.setFld (FS_HSTAT k) FS_HSTAT_HELD 1).onFs fun f =>
    { f with release := f.release.set none k none }) = u := ⟨_, rfl⟩
  rw [hu]
  obtain ⟨high, sched, regs⟩ := syncHub_pulsesStay u k (s.lnAhead 2)
  refine ⟨high.trans (by rw [← hu]; rfl), sched.trans (by rw [← hu]; rfl), ?_⟩
  rw [bit_of_reg _ (reg_of_regs regs _), ← hu]
  exact bit_setFld_same s (FS_HSTAT k) FS_HSTAT_HELD true rfl (by decide)

/-! ### Pulses (R158, R163, R164) -/

/-- The pulse next due begins. -/
def FsSt.begins (f : FsSt) (k : Nat) (rest : List Pulse) (p : Pulse) : FsSt :=
  { f with sched := f.sched.set [] k rest, high := f.high.set none k (some p) }

theorem high_set_same (f : FsSt) (k : Nat) (v : Option Pulse) : (f.high.set none k v).get none k = v := Tbl.get_set_same _ _ _ _

theorem risingEdge_passes {s : State} {k : Fin 16} {p : Pulse} {rest : List Pulse} (sched : s.fs.sched.get [] k = p :: rest)
    (low : s.fs.high.get none k = none) (due : p.start ≤ 16 * s.now + 15) (cut : s.fireCut k = false)
    (permit : s.rbit SI_HUBPERM k = true) :
    ∃ t, exec (.fireRisingEdge k) s = .next t ∧
      t.fs.high.get none k = some (if s.rbit FS_CAL k = true then { p with start := p.start / 16 * 16 } else p) ∧
      t.fs.sched.get [] k = rest ∧ t.mem = s.mem ∧ RegsBut s t [FS_HSTAT k] ∧
      t.bit (FS_HSTAT k) FS_HSTAT_HELD = s.bit (FS_HSTAT k) FS_HSTAT_HELD := by
  obtain ⟨u, hu⟩ : ∃ u, s.onFs (fun f => f.begins k rest { p with start := s.edgeAt k p.start }) = u := ⟨_, rfl⟩
  have run : exec (.fireRisingEdge k) s = .next (if p.mark then u else u.gapClose k p.line) := by
    subst hu
    change execFireRisingEdge k s = _
    unfold execFireRisingEdge
    rw [sched, low]
    dsimp only
    rw [if_neg (Nat.not_lt.2 due), if_neg]
    · rfl
    · change ¬ (s.fireCut k || !s.rbit SI_HUBPERM k) = true
      rw [cut, permit]
      decide
  have moves : GapMoves u (if p.mark then u else u.gapClose k p.line) k := by
    split
    · exact (InVe.refl u).gapMoves k
    · exact gapClose_moves u k p.line
  obtain ⟨eq, regs, held⟩ := moves
  refine ⟨_, run, ?_, ?_, ?_, ?_, ?_⟩
  · rw [eq, ← hu]
    refine (high_set_same _ _ _).trans ?_
    unfold State.edgeAt
    split <;> rfl
  · rw [eq, ← hu]
    exact Tbl.get_set_same _ _ _ _
  · rw [eq, ← hu]
    rfl
  · exact RegsBut.trans (t := u) (by rw [← hu]; exact fun _ _ => rfl) regs
  · rw [held, ← hu]
    rfl

theorem risingEdge_withheld {s : State} {k : Fin 16} {p : Pulse} {rest : List Pulse} (sched : s.fs.sched.get [] k = p :: rest)
    (low : s.fs.high.get none k = none) (due : p.start ≤ 16 * s.now + 15)
    (stopped : s.fireCut k = true ∨ s.rbit SI_HUBPERM k = false) :
    ∃ t, exec (.fireRisingEdge k) s = .next t ∧ t.fs.high.get none k = none ∧ t.fs.sched.get [] k = rest ∧
      t.bit (FS_HSTAT k) FS_HSTAT_HELD = true := by
  obtain ⟨u, hu⟩ : ∃ u, s.onFs (fun f => { f with sched := f.sched.set [] k rest }) = u := ⟨_, rfl⟩
  obtain ⟨cls, hcls⟩ : ∃ c, (if u.fireCut k = true then 3 else 1) = c := ⟨_, rfl⟩
  have run : exec (.fireRisingEdge k) s = .next (((u.gapOpen k p.line cls).fireHub p.line k false).holdHub k) := by
    subst hcls hu
    change execFireRisingEdge k s = _
    unfold execFireRisingEdge
    rw [sched, low]
    dsimp only
    rw [if_neg (Nat.not_lt.2 due), if_pos]
    change (s.fireCut k || !s.rbit SI_HUBPERM k) = true
    rcases stopped with h | h <;> simp [h]
  obtain ⟨eq, -, -⟩ := gapOpen_moves u k p.line cls
  generalize u.gapOpen k p.line cls = v at *
  have fired : (v.fireHub p.line k false).fs = v.fs := rfl
  generalize v.fireHub p.line k false = w at *
  obtain ⟨high, sched', held⟩ := holdHub_holds w k
  refine ⟨_, run, ?_, ?_, held⟩
  · rw [high, fired, eq, ← hu]
    exact low
  · rw [sched', fired, eq, ← hu]
    exact Tbl.get_set_same _ _ _ _

theorem strobeEnd_ends {s : State} {k : Fin 16} {p : Pulse} (high : s.fs.high.get none k = some p) :
    (p.start / 16 + p.width ≤ s.now → ∃ t, exec (.strobeEnd k) s = .next t ∧ t.fs.high.get none k = none ∧
      t = { s with fs := { s.fs with high := t.fs.high } }) ∧
    (s.now < p.start / 16 + p.width → exec (.strobeEnd k) s = .next s) := by
  have run : exec (.strobeEnd k) s = .next (if p.start / 16 + p.width ≤ s.now then
      s.onFs fun f => { f with high := f.high.set none k none } else s) := by
    change execStrobeEnd k s = _
    unfold execStrobeEnd
    rw [high]
  refine ⟨fun ended => ⟨_, run.trans (by rw [if_pos ended]), Tbl.get_set_same _ _ _ _, rfl⟩, fun before => ?_⟩
  rw [run, if_neg (by omega)]

theorem pulses_begin_and_end : pulsesBeginAndEnd := by
  intro s k p rest
  refine ⟨fun sched low due => ⟨risingEdge_passes sched low due, risingEdge_withheld sched low due⟩, fun sched early => ?_,
    fun high => (strobeEnd_ends high).1, fun high => (strobeEnd_ends high).2⟩
  change execFireRisingEdge k s = _
  unfold execFireRisingEdge
  rw [sched]
  cases s.fs.high.get none k with
  | none => exact congrArg Host.Outcome.next (if_pos early)
  | some _ => rfl

end Sys2Proof.Machine

namespace Sys2Proof.Machine

/-! ### The pad cut (R164) -/

theorem padCut_cuts {s : State} {k : Fin 16} {p : Pulse} (high : s.fs.high.get none k = some p)
    (long : p.start / 16 + s.swMax ≤ s.now) (uncut : s.fireCut k = false) :
    ∃ t, exec (.padCut k) s = .next t ∧ t.bit (FS_HSTAT k) FS_HSTAT_CUT = true ∧
      EventSet t BLK_FS 5 ∧ Reported s t 0x3241 (BitVec.ofNat 8 k) 0 ∧ Frame s t [FS_HSTAT k] [BLK_FS] := by
  have run : exec (.padCut k) s = .next (((s.setFld (FS_HSTAT k) FS_HSTAT_CUT 1).setEvt BLK_FS 5).fault 0x3241 k) := by
    change execPadCut k s = _
    unfold execPadCut
    rw [high]
    exact congrArg Host.Outcome.next (if_pos ⟨long, by rw [uncut]; decide⟩)
  have apart : FS_HSTAT k ∉ reportRegs [BLK_FS] := notMem_reportRegs_one 0x900020 rfl (by unfold FS_HSTAT; omega)
  refine ⟨_, run, ?_, (setEvt_eventSet _ _ _ (by decide)).fault _ _ _, ?_, ?_⟩
  · rw [bit_of_reg _ (reg_fault _ _ _ _ _ fun h => apart (reportRegs_mono (List.nil_subset _) h)),
      bit_of_reg _ (reg_setEvt_of_notMem _ _ _ _ apart)]
    exact bit_setFld_same s (FS_HSTAT k) FS_HSTAT_CUT true rfl (by decide)
  · exact fault_reportedFrom _ _ _ (by rw [setEvt_si]; rfl)
  · exact ((Frame.refl s _ _).setFld (by simp)).setEvt (by simp) |>.fault

theorem padCut_waits {s : State} {k : Fin 16} {p : Pulse} (high : s.fs.high.get none k = some p)
    (short : s.now < p.start / 16 + s.swMax) : exec (.padCut k) s = .next s := by
  change execPadCut k s = _
  unfold execPadCut
  rw [high]
  exact congrArg Host.Outcome.next (if_neg fun h => by omega)

/-! ### The release of cuts -/

theorem cutClear_shows (s : State) (v : Word) (n : Nat) (hn : n ≤ 16) :
    let t := s.each n fun k s => if v.getLsbD k then s.setFld (FS_HSTAT k) FS_HSTAT_CUT 0 else s
    t = { s with regs := t.regs } ∧ RegsBut s t ((List.range 16).map FS_HSTAT) ∧
    ∀ i, i < 16 → t.bit (FS_HSTAT i) FS_HSTAT_CUT =
      (s.bit (FS_HSTAT i) FS_HSTAT_CUT && !(decide (i < n) && v.getLsbD i)) := by
  induction n with
  | zero => exact ⟨rfl, fun _ _ => rfl, fun i _ => by rw [decide_eq_false (Nat.not_lt_zero i)]; simp; rfl⟩
  | succ n ih =>
    obtain ⟨eq, regs, bits⟩ := ih (by omega)
    rw [each_succ]
    generalize (s.each n fun k s => if v.getLsbD k then s.setFld (FS_HSTAT k) FS_HSTAT_CUT 0 else s) = u at *
    have apart : ∀ {i}, i ≠ n → FS_HSTAT i ≠ FS_HSTAT n := fun h => by unfold FS_HSTAT; omega
    by_cases set : v.getLsbD n = true
    · rw [if_pos set]
      refine ⟨?_, regs.setFld (List.mem_map.2 ⟨n, List.mem_range.2 (by omega), rfl⟩), fun i hi => ?_⟩
      · conv_lhs => rw [eq]
        rfl
      · by_cases same : i = n
        · subst same
          rw [decide_eq_true (by omega), set, Bool.and_self, Bool.not_true, Bool.and_false]
          exact bit_setFld_same u (FS_HSTAT i) FS_HSTAT_CUT false rfl (by decide)
        · rw [bit_of_reg _ (reg_setFld_other _ _ _ _ _ (apart same)), bits i hi]
          have : decide (i < n + 1) = decide (i < n) := by simp only [decide_eq_decide]; omega
          rw [this]
    · rw [if_neg set]
      refine ⟨eq, regs, fun i hi => ?_⟩
      rw [bits i hi]
      by_cases same : i = n
      · subst same
        simp [set]
      · have : decide (i < n + 1) = decide (i < n) := by simp only [decide_eq_decide]; omega
        rw [this]

theorem fsCutclr_releases {s : State} {m : Master} (v : Word) (permitted : s.permits m (regAddr FS_CUTCLR) true = true) :
    ∃ t, exec (.fsCutclr m v) s = .next t ∧ t = { s.busGrant m with regs := t.regs } ∧
      (∀ i : Fin 16, t.bit (FS_HSTAT i) FS_HSTAT_CUT =
        (s.bit (FS_HSTAT i) FS_HSTAT_CUT && !v.getLsbD i)) ∧
      RegsBut s t ((List.range 16).map FS_HSTAT) := by
  obtain ⟨eq, regs, bits⟩ := cutClear_shows (s.busGrant m) v 16 le_rfl
  refine ⟨_, congrArg Host.Outcome.next (regGuard_permitted s permitted), eq, fun i => ?_, fun off ho => ?_⟩
  · refine (bits i i.isLt).trans ?_
    rw [decide_eq_true i.isLt, Bool.true_and, bit_of_reg _ (reg_of_regs (busGrant_regs s m) _)]
  · exact (regs off ho).trans (reg_of_regs (busGrant_regs s m) off)

/-! ### Pads and calibration (R163, R166) -/

theorem padInst_lt (pad : FsPad) : padInst pad < 28 := by
  cases pad <;> simp only [padInst] <;> omega

/-- An output whose delay line has failed, and the pulse that it carries. -/
theorem calFailed_shows (s : State) {i : Nat} (hi : i < 28) :
    let t := s.calFailed i
    t = { s with regs := t.regs, fs := { s.fs with high := t.fs.high }, lc := { s.lc with camHigh := t.lc.camHigh } } ∧
    RegsBut s t [FS_CAL] ∧ t.rbit FS_CAL i = true ∧
    (i < 16 → t.lc.camHigh = s.lc.camHigh ∧ ∀ j, t.fs.high.get none j =
      if j = i then (s.fs.high.get none j).map (fun p => { p with start := p.start / 16 * 16 }) else s.fs.high.get none j) ∧
    (16 ≤ i → t.fs.high = s.fs.high ∧ ∀ j, t.lc.camHigh.get none j =
      if j = i - 16 then (s.lc.camHigh.get none j).map (fun r => r / 16 * 16) else s.lc.camHigh.get none j) := by
  have marked : (s.setBit FS_CAL i true).rbit FS_CAL i = true := rbit_setBit_same _ _ _ _ (by omega)
  have but : RegsBut s (s.setBit FS_CAL i true) [FS_CAL] := (RegsBut.refl s _).setFld (by simp)
  unfold State.calFailed
  dsimp only
  split
  · next low =>
    refine ⟨rfl, but, marked, fun _ => ⟨rfl, fun j => ?_⟩, fun h => absurd h (by omega)⟩
    refine (Tbl.get_upd _ _ _ _ _).trans ?_
    split
    · next same => rw [same]; rfl
    · rfl
  · next high =>
    refine ⟨rfl, but, marked, fun h => absurd h high, fun _ => ⟨rfl, fun j => ?_⟩⟩
    refine (Tbl.get_upd _ _ _ _ _).trans ?_
    split
    · next same => rw [same]; rfl
    · rfl

theorem pads_are_cut_and_reported : padsAreCutAndReported := by
  intro s k p
  refine ⟨padCut_cuts, padCut_waits, fun m v => ⟨denied_of_regGuard rfl, fsCutclr_releases v⟩, fun pad => ⟨?_, ?_⟩⟩
  · exact ⟨_, rfl, (Frame.refl s _ _).fault, fault_reported s _ _ _⟩
  · obtain ⟨eq, regs, marked, fire, cam⟩ := calFailed_shows s (padInst_lt pad)
    obtain ⟨u, hu⟩ : ∃ u, s.calFailed (padInst pad) = u := ⟨_, rfl⟩
    rw [hu] at eq regs marked fire cam
    have run : exec (.calFail pad) s = .next ((u.setEvt BLK_FS 6).fault 0x2242 (padInst pad)) := by rw [← hu]; rfl
    have quiet : Frame u ((u.setEvt BLK_FS 6).fault 0x2242 (padInst pad)) [FS_CAL] [BLK_FS] :=
      ((Frame.refl u _ _).setEvt (by simp)).fault
    have reported : Reported u ((u.setEvt BLK_FS 6).fault 0x2242 (padInst pad)) 0x2242 (BitVec.ofNat 8 (padInst pad)) 0 :=
      fault_reportedFrom _ _ _ (by rw [setEvt_si])
    have event : EventSet ((u.setEvt BLK_FS 6).fault 0x2242 (padInst pad)) BLK_FS 6 :=
      (setEvt_eventSet _ _ _ (by decide)).fault _ _ _
    have bit : ((u.setEvt BLK_FS 6).fault 0x2242 (padInst pad)).rbit FS_CAL (padInst pad) = true := by
      rw [State.rbit, reg_fault _ _ _ _ _ (notMem_reportRegs_nil (by decide)), reg_setEvt_of_notMem _ _ _ _ (by decide)]
      exact marked
    obtain ⟨t, ht⟩ : ∃ t, (u.setEvt BLK_FS 6).fault 0x2242 (padInst pad) = t := ⟨_, rfl⟩
    rw [ht] at run quiet reported event bit
    have fs : t.fs = u.fs := by rw [quiet.1]
    have lc : t.lc = u.lc := by rw [quiet.1]
    refine ⟨t, run, bit, event, ?_, reported.from (by rw [eq]), by rw [fs, lc]; exact fire, by rw [fs, lc]; exact cam⟩
    rw [fs, lc]
    refine ⟨?_, fun off ho => (quiet.2 off ho).trans (regs off fun h => ho (List.mem_append_left _ h))⟩
    have q := quiet.1
    unfold Quiet at q ⊢
    rw [q, eq]

end Sys2Proof.Machine

namespace Sys2Proof.Machine

/-! ### The Sagger's review of inhibits and permits (R410) -/

theorem siOnly_ite {s t u : State} {l : List Nat} {b : Prop} [Decidable b] (ht : siOnly s t l) (hu : siOnly s u l) :
    siOnly s (if b then t else u) l := by
  split
  · exact ht
  · exact hu

/-- The review changes the safety island's own state, its status and its permits. -/
theorem siReview_siOnly (s : State) : siOnly s s.siReview [SI_STAT, SI_HUBPERM] := by
  have base := siOnly_refl s [SI_STAT, SI_HUBPERM]
  unfold State.siReview
  split
  · exact siOnly_setFld base (by simp)
  · extract_lets inh was s1 s2 s3
    have h1 : siOnly s s1 [SI_STAT, SI_HUBPERM] := siOnly_ite (siOnly_onSi _ base) base
    have h2 : siOnly s s2 [SI_STAT, SI_HUBPERM] := siOnly_setFld h1 (by simp)
    refine siOnly_setFld (siOnly_ite ?_ (siOnly_ite (siOnly_setFld (siOnly_onSi _ h2) (by simp)) h2)) (by simp)
    have h3 : siOnly s s3 [SI_STAT, SI_HUBPERM] := siOnly_ite (siOnly_setFld (siOnly_onSi _ h2) (by simp)) h2
    have h4 : siOnly s (s3.setEnable false) [SI_STAT, SI_HUBPERM] := by
      unfold State.setEnable
      exact siOnly_ite (siOnly_onSi _ (siOnly_setFld (siOnly_onSi _ h3) (by simp)))
        (siOnly_setFld (siOnly_setFld (siOnly_onSi _ h3) (by simp)) (by simp))
    exact siOnly_setEvt _ h4

/-! ### Gating inputs (R168) -/

/-- What the events of the gating inputs leave: memory, the firing block, and other registers. -/
def GateLeaves (s t : State) : Prop :=
  t.mem = s.mem ∧ t.fs = s.fs ∧ RegsBut s t ([SI_STAT, SI_HUBPERM] ++ reportRegs [BLK_SI, BLK_FS])

theorem GateLeaves.refl (s : State) : GateLeaves s s := ⟨rfl, rfl, fun _ _ => rfl⟩

theorem GateLeaves.trans {s t u : State} (h : GateLeaves s t) (k : GateLeaves t u) : GateLeaves s u :=
  ⟨k.1.trans h.1, k.2.1.trans h.2.1, h.2.2.trans k.2.2⟩

theorem GateLeaves.event (s : State) (n : Nat) : GateLeaves s (s.setEvt BLK_FS n) := by
  have frame : Frame s (s.setEvt BLK_FS n) [SI_STAT, SI_HUBPERM] [BLK_SI, BLK_FS] := (Frame.refl s _ _).setEvt (by simp)
  exact ⟨by rw [frame.1], by rw [frame.1], frame.2⟩

theorem GateLeaves.ite {s t u : State} {b : Prop} [Decidable b] (ht : GateLeaves s t) (hu : GateLeaves s u) :
    GateLeaves s (if b then t else u) := by
  split
  · exact ht
  · exact hu

theorem GateLeaves.review (s : State) : GateLeaves s s.siReview := by
  obtain ⟨eq, regs⟩ := siReview_siOnly s
  refine ⟨by rw [eq], by rw [eq], regs.mono ?_⟩
  exact List.append_subset.2 ⟨List.subset_append_left _ _,
    fun _ h => List.mem_append_right _ (reportRegs_mono (by simp) h)⟩

/-- The marks of a pair's inputs leave the registers, memory and the gates. -/
theorem pairMarks_leave (old s : State) :
    (s.each 8 (State.pairMark old)).regs = s.regs ∧ (s.each 8 (State.pairMark old)).mem = s.mem ∧
      (s.each 8 (State.pairMark old)).fs = s.fs := by
  refine foldl_keeps (fun s t => t.regs = s.regs ∧ t.mem = s.mem ∧ t.fs = s.fs) (fun _ => ⟨rfl, rfl, rfl⟩)
    (fun _ _ _ h k => ⟨k.1.trans h.1, k.2.1.trans h.2.1, k.2.2.trans h.2.2⟩) _ (fun u j => ?_) _ s
  unfold State.pairMark
  split <;> exact ⟨rfl, rfl, rfl⟩

theorem gateInhibits_congr {s t : State} (hr : t.regs = s.regs) (hf : t.fs = s.fs) (i : Nat) :
    t.gateInhibits i = s.gateInhibits i := by
  unfold State.gateInhibits State.gateActive State.safeReq State.gateFunc State.rbit State.bit State.fld
  simp only [reg_of_regs hr, hf]

theorem inhibit_eventSet (s : State) {b : Bool} (h : b = true) :
    EventSet (if b = true then s.setEvt BLK_FS 0 else s) BLK_FS 0 := by
  rw [if_pos h]
  exact setEvt_eventSet _ _ _ (by decide)

theorem EventSet.iteEvt {s : State} {blk n : Nat} (h : EventSet s blk n) (b : Bool) (m : Nat) :
    EventSet (if b = true then s.setEvt blk m else s) blk n := by
  split
  · exact h.setEvt _ _
  · exact h

/-- A change of the gating inputs: what it leaves, and the event of an input that begins to inhibit. -/
theorem gateEvents_shows (s old : State) : GateLeaves s (s.gateEvents old) ∧
    ((∃ i < 17, s.gateInhibits i = true ∧ old.gateInhibits i = false) → EventSet (s.gateEvents old) BLK_FS 0) := by
  obtain ⟨regs, mem, fs⟩ := pairMarks_leave old s
  unfold State.gateEvents
  extract_lets s1 s2 s3
  replace regs : s1.regs = s.regs := regs
  replace mem : s1.mem = s.mem := mem
  replace fs : s1.fs = s.fs := fs
  have h1 : GateLeaves s s1 := ⟨mem, fs, .of_regs regs _⟩
  have h2 : GateLeaves s1 s2 := .ite (.event s1 0) (.refl s1)
  have h3 : GateLeaves s2 s3 := .ite (.event s2 1) (.refl s2)
  refine ⟨((h1.trans h2).trans h3).trans (.review s3), fun ⟨i, hi, now, before⟩ => ?_⟩
  have begins : ((List.range 17).any fun i => s1.gateInhibits i && !old.gateInhibits i) = true :=
    List.any_eq_true.2 ⟨i, List.mem_range.2 hi, by rw [gateInhibits_congr regs fs, now, before]; rfl⟩
  have event2 : EventSet s2 BLK_FS 0 := inhibit_eventSet s1 begins
  have event3 : EventSet s3 BLK_FS 0 := event2.iteEvt _ 1
  refine event3.of_reg ((siReview_siOnly s3).2 _ ?_)
  decide

/-- An input that has qualified a level. -/
def FsSt.qualified (f : FsSt) (ix : Nat) (level : Bool) : FsSt :=
  { f with gateSeen := f.gateSeen.set false ix true, gateHigh := f.gateHigh.set false ix level }

theorem gateShow_qualified (s : State) (ix : Nat) (level : Bool) :
    (s.onFs (FsSt.qualified · ix level)).gateShow ix = (s.onFs (FsSt.qualified · ix level)).setBit GATE_STAT ix
      (level == (decide (ix < 16) && s.bit (GATE_CFG ix) GATE_CFG_POL)) := by
  have seen : (s.onFs (FsSt.qualified · ix level)).fs.gateSeen.get false ix = true := Tbl.get_set_same _ _ _ _
  have high : (s.onFs (FsSt.qualified · ix level)).fs.gateHigh.get false ix = level := Tbl.get_set_same _ _ _ _
  unfold State.gateShow
  rw [if_pos seen, high]
  rfl

theorem gateQualified_shows (s : State) (ix : Nat) (hix : ix < 17) (level : Bool) :
    let active := level == (decide (ix < 16) && s.bit (GATE_CFG ix) GATE_CFG_POL)
    let t := ((s.onFs (FsSt.qualified · ix level)).gateShow ix).gateEvents s
    t.rbit GATE_STAT ix = active ∧ t.mem = s.mem ∧ t.fs.gateSeen.get false ix = true ∧ t.fs.gateHigh.get false ix = level ∧
      (ix < 16 → s.gateInhibits ix = false → s.gateFunc ix = 1 → active = true → EventSet t BLK_FS 0) := by
  obtain ⟨u, hu⟩ : ∃ u, (s.onFs (FsSt.qualified · ix level)).gateShow ix = u := ⟨_, rfl⟩
  have shown := gateShow_qualified s ix level
  rw [hu] at shown ⊢
  intro active t
  obtain ⟨⟨mem, fs, regs⟩, event⟩ := gateEvents_shows u s
  have bit : u.rbit GATE_STAT ix = active := by
    rw [shown]
    exact rbit_setBit_same _ _ _ _ (by omega)
  have seen : u.fs.gateSeen.get false ix = true := by
    rw [shown]
    exact Tbl.get_set_same _ _ _ _
  refine ⟨?_, mem.trans (by rw [shown]; rfl), ?_, ?_, fun gate calm func act => event ⟨ix, hix, ?_, calm⟩⟩
  · rw [rbit_of_reg _ (regs _ (by decide))]
    exact bit
  · change (u.gateEvents s).fs.gateSeen.get false ix = true
    rw [fs]
    exact seen
  · change (u.gateEvents s).fs.gateHigh.get false ix = level
    rw [fs, shown]
    exact Tbl.get_set_same _ _ _ _
  · have func' : u.gateFunc ix = 1 := by
      refine (fld_of_reg _ ?_).trans func
      rw [shown]
      exact reg_setFld_other _ _ _ _ _ (by unfold GATE_CFG GATE_STAT; omega)
    unfold State.gateInhibits State.gateActive
    rw [if_pos gate, seen, if_pos rfl, bit, func', act]
    rfl

/-! ### Head alerts (R170, R171) -/

theorem fsHstat_notReport (k : Nat) (hk : k < 16) : FS_HSTAT k ∉ reportRegs [BLK_FS] :=
  notMem_reportRegs_one (b := BLK_FS) 0x900020 rfl (by unfold FS_HSTAT; omega)

/-- A hub that enters the limit state, or is in it. -/
theorem enterLimit_enters (s : State) {k : Nat} (hk : k < 16) :
    (s.enterLimit k).bit (FS_HSTAT k) FS_HSTAT_LIMIT = true ∧
    (s.enterLimit k).bit (FS_HSTAT k) FS_HSTAT_ALERT = s.bit (FS_HSTAT k) FS_HSTAT_ALERT ∧
    Frame s (s.enterLimit k) [FS_HSTAT k] [BLK_FS] ∧
    (s.bit (FS_HSTAT k) FS_HSTAT_LIMIT = false →
      EventSet (s.enterLimit k) BLK_FS 2 ∧ Reported s (s.enterLimit k) 0x2243 (BitVec.ofNat 8 k) 0) := by
  unfold State.enterLimit
  by_cases was : s.bit (FS_HSTAT k) FS_HSTAT_LIMIT = true
  · rw [if_pos was]
    exact ⟨was, rfl, Frame.refl s _ _, fun h => absurd was (by rw [h]; decide)⟩
  · rw [if_neg was]
    obtain ⟨u, hu⟩ : ∃ u, (s.setFld (FS_HSTAT k) FS_HSTAT_LIMIT 1).setFld (FS_HSTAT k) FS_HSTAT_BELOW 0 = u := ⟨_, rfl⟩
    have apart := fsHstat_notReport k hk
    have reg : ((u.setEvt BLK_FS 2).fault 0x2243 k).reg (FS_HSTAT k) = u.reg (FS_HSTAT k) := by
      rw [reg_fault _ _ _ _ _ fun h => apart (reportRegs_mono (List.nil_subset _) h), reg_setEvt_of_notMem _ _ _ _ apart]
    have frame : Frame s ((u.setEvt BLK_FS 2).fault 0x2243 k) [FS_HSTAT k] [BLK_FS] := by
      rw [← hu]
      exact (((Frame.refl s _ _).setFld (by simp)).setFld (by simp)).setEvt (by simp) |>.fault
    have limit : u.bit (FS_HSTAT k) FS_HSTAT_LIMIT = true := by
      rw [← hu, State.bit, fld_setFld_field _ (FS_HSTAT k) FS_HSTAT_BELOW FS_HSTAT_LIMIT 0 (by decide)]
      exact bit_setFld_same s (FS_HSTAT k) FS_HSTAT_LIMIT true rfl (by decide)
    have alert : u.bit (FS_HSTAT k) FS_HSTAT_ALERT = s.bit (FS_HSTAT k) FS_HSTAT_ALERT := by
      rw [← hu, State.bit, fld_setFld_field _ (FS_HSTAT k) FS_HSTAT_BELOW FS_HSTAT_ALERT 0 (by decide),
        fld_setFld_field _ (FS_HSTAT k) FS_HSTAT_LIMIT FS_HSTAT_ALERT 1 (by decide)]
      rfl
    rw [hu]
    refine ⟨(bit_of_reg _ reg).trans limit, (bit_of_reg _ reg).trans alert, frame, fun _ => ⟨?_, ?_⟩⟩
    · exact (setEvt_eventSet _ _ _ (by decide)).fault _ _ _
    · exact fault_reportedFrom _ _ _ (by rw [setEvt_si, ← hu]; rfl)

theorem headAlert_limits (s : State) (k : Fin 16) :
    ∃ t, exec (.headAlert k false) s = .next t ∧ t.bit (FS_HSTAT k) FS_HSTAT_ALERT = true ∧
      t.bit (FS_HSTAT k) FS_HSTAT_LIMIT = true ∧ t.fld (FS_HSTAT k) FS_HSTAT_BELOW = 0 ∧
      Frame s t [FS_HSTAT k] [BLK_FS] ∧
      (s.bit (FS_HSTAT k) FS_HSTAT_LIMIT = false →
        EventSet t BLK_FS 2 ∧ Reported s t 0x2243 (BitVec.ofNat 8 k) 0) := by
  obtain ⟨u, hu⟩ : ∃ u, s.setFld (FS_HSTAT k) FS_HSTAT_ALERT 1 = u := ⟨_, rfl⟩
  have run : exec (.headAlert k false) s = .next ((u.enterLimit k).setFld (FS_HSTAT k) FS_HSTAT_BELOW 0) := by
    rw [← hu]
    rfl
  obtain ⟨limit, alert, frame, reports⟩ := enterLimit_enters u k.isLt
  have was : u.bit (FS_HSTAT k) FS_HSTAT_LIMIT = s.bit (FS_HSTAT k) FS_HSTAT_LIMIT := by
    rw [← hu, State.bit, fld_setFld_field s (FS_HSTAT k) FS_HSTAT_ALERT FS_HSTAT_LIMIT 1 (by decide)]
    rfl
  have raised : u.bit (FS_HSTAT k) FS_HSTAT_ALERT = true := by
    rw [← hu]
    exact bit_setFld_same s (FS_HSTAT k) FS_HSTAT_ALERT true rfl (by decide)
  have first : Frame s u [FS_HSTAT k] [BLK_FS] := by
    rw [← hu]
    exact (Frame.refl s _ _).setFld (by simp)
  have queues : u.si.queues = s.si.queues := by rw [← hu]; rfl
  generalize u.enterLimit k = v at *
  refine ⟨_, run, ?_, ?_, fld_setFld_same _ _ _ _ (by decide), (first.trans frame).setFld (by simp), fun calm => ?_⟩
  · rw [State.bit, fld_setFld_field v (FS_HSTAT k) FS_HSTAT_BELOW FS_HSTAT_ALERT 0 (by decide)]
    exact alert.trans raised
  · rw [State.bit, fld_setFld_field v (FS_HSTAT k) FS_HSTAT_BELOW FS_HSTAT_LIMIT 0 (by decide)]
    exact limit
  · obtain ⟨event, reported⟩ := reports (was.trans calm)
    exact ⟨event.setFld (by unfold FS_HSTAT; exact fun h => absurd h (by have : evtReg BLK_FS = 0x900020 := rfl; omega)),
      (reported.from queues.symm).of_si rfl rfl⟩

theorem headResume_leaves {s : State} {k : Fin 16} (limit : s.bit (FS_HSTAT k) FS_HSTAT_LIMIT = true)
    (clear : s.fld (FS_HSTAT k) FS_HSTAT_BELOW = 1024) :
    ∃ t, exec (.headResume k) s = .next t ∧ t.bit (FS_HSTAT k) FS_HSTAT_LIMIT = false ∧
      t.fld (FS_HSTAT k) FS_HSTAT_BELOW = 0 ∧ EventSet t BLK_FS 3 ∧ Frame s t [FS_HSTAT k] [BLK_FS] := by
  obtain ⟨u, hu⟩ : ∃ u, (s.setFld (FS_HSTAT k) FS_HSTAT_LIMIT 0).setFld (FS_HSTAT k) FS_HSTAT_BELOW 0 = u := ⟨_, rfl⟩
  have done : s.limitDone k = true := by
    unfold State.limitDone
    rw [limit, clear]
    rfl
  have run : exec (.headResume k) s = .next (u.setEvt BLK_FS 3) := by
    rw [← hu]
    change execHeadResume k s = _
    unfold execHeadResume
    rw [if_pos done]
    rfl
  have reg := reg_setEvt_of_notMem u BLK_FS 3 _ (fsHstat_notReport k k.isLt)
  refine ⟨_, run, ?_, ?_, setEvt_eventSet _ _ _ (by decide), ?_⟩
  · rw [bit_of_reg _ reg, ← hu, State.bit, fld_setFld_field _ (FS_HSTAT k) FS_HSTAT_BELOW FS_HSTAT_LIMIT 0 (by decide)]
    exact bit_setFld_same s (FS_HSTAT k) FS_HSTAT_LIMIT false rfl (by decide)
  · rw [fld_of_reg _ reg, ← hu]
    exact fld_setFld_same _ _ _ _ (by decide)
  · rw [← hu]
    exact (((Frame.refl s _ _).setFld (by simp)).setFld (by simp)).setEvt (by simp)

theorem gates_and_head_alerts : gatesAndHeadAlerts := by
  intro s n k level
  refine ⟨?_, ?_, ?_, headAlert_limits s k, headResume_leaves⟩
  · obtain ⟨bit, mem, seen, high, event⟩ := gateQualified_shows s n (by omega) level
    rw [decide_eq_true n.isLt, Bool.true_and] at bit event
    refine ⟨_, rfl, bit, mem, fun calm func eq => event n.isLt calm func ?_, seen, high⟩
    rw [eq, BEq.rfl]
  · obtain ⟨bit, mem, -, high, -⟩ := gateQualified_shows s 16 (by omega) level
    refine ⟨_, rfl, bit.trans ?_, mem, high⟩
    cases level <;> rfl
  · exact ⟨_, rfl, bit_setFld_same s (FS_HSTAT k) FS_HSTAT_ALERT false rfl (by decide), rfl,
      (RegsBut.refl s _).setFld (by simp)⟩

/-- Settles O31: pulses, the pad cut, pads and calibration, the gating inputs and the limit state. -/
theorem firingOutputsFollowTheirRules : Obligations.FiringOutputsFollowTheirRules :=
  ⟨pulses_begin_and_end, pads_are_cut_and_reported, gates_and_head_alerts⟩

end Sys2Proof.Machine

/-!
The verification engine starts and stops (R281, R282, O39).
-/

namespace Sys2Proof.Machine

/-! ### Records of regions, and the counter of those too small -/

/-- Only the counter of regions left out, and the records emitted, differ. -/
def Emits (s t : State) (ds : List Defect) : Prop :=
  t = { s with regs := t.regs, ve := { s.ve with emitted := s.ve.emitted ++ ds } } ∧ RegsBut s t [VE_CNT 7]

theorem Emits.refl (s : State) : Emits s s [] := ⟨by rw [List.append_nil], fun _ _ => rfl⟩

theorem Emits.trans {s t u : State} {ds es : List Defect} (h : Emits s t ds) (k : Emits t u es) : Emits s u (ds ++ es) := by
  obtain ⟨eq, regs⟩ := h
  obtain ⟨eq', regs'⟩ := k
  refine ⟨?_, regs.trans regs'⟩
  rw [eq', eq]
  simp only [List.append_assoc]

theorem Emits.reg {s t : State} {ds : List Defect} (h : Emits s t ds) {off : Nat} (ho : off ≠ VE_CNT 7) :
    t.reg off = s.reg off := h.2 off (by simpa using ho)

/-- What a record tells of a region does not depend on what has been emitted. -/
theorem Emits.regionRec {s t : State} {ds : List Defect} (h : Emits s t ds) (kind : Nat) (r : Region) (flags : Nat) :
    t.regionRec kind r flags = s.regionRec kind r flags := by
  have dec : t.veDec = s.veDec := by
    unfold State.veDec
    rw [fld_of_reg _ (h.reg (by decide))]
  have dot : ∀ w, t.recDot w = s.recDot w := fun w => by
    unfold State.recDot State.webDot
    rw [fld_of_reg _ (h.reg (by decide)), fld_of_reg _ (h.reg (by decide))]
  have slots : ∀ v, t.slotsIn v = s.slotsIn v := fun v => by
    unfold State.slotsIn
    refine List.filter_congr fun j hj => ?_
    have : j < 2 := by
      simp only [List.mem_cons, List.not_mem_nil, or_false] at hj
      omega
    rw [slotState_of_reg (h.reg (by unfold ADM_SLOT_STAT VE_CNT; omega))]
  have product : ∀ line dot, t.productOf line dot = s.productOf line dot := fun line dot => by
    have adm : t.adm = s.adm := by rw [h.1]
    have lc : t.lc = s.lc := by rw [h.1]
    have job : t.jobAt = s.jobAt := by
      funext j
      unfold State.jobAt
      rw [adm]
    unfold State.productOf State.lineJob State.owner
    rw [slots, slots, slots, job, adm, lc]
  unfold State.regionRec
  simp only [dec, dot, product]

theorem Emits.veOn {s t : State} {ds : List Defect} (h : Emits s t ds) : t.veOn = s.veOn := bit_of_reg _ (h.reg (by decide))

theorem emit_emits {s : State} (on : s.veOn = true) (d : Defect) : Emits s (s.emit d) [d] := by
  unfold State.emit
  rw [if_pos on]
  exact ⟨rfl, fun _ _ => rfl⟩

/-- R282: an open component of some rows is emitted where it is large enough, and is counted otherwise. -/
theorem closeComp_emits {s : State} (on : s.veOn = true) (r : Region) :
    Emits s (s.closeRegion 1 r flagCont)
      (([r].filter fun r => r.rows ≠ 0 ∧ s.fld VE_SEG VE_SEG_AMIN ≤ r.area).map fun r => s.regionRec 1 r flagCont) := by
  unfold State.closeRegion
  by_cases empty : r.rows = 0
  · rw [if_pos empty, List.filter_cons_of_neg (by simp [empty])]
    exact .refl s
  · rw [if_neg empty]
    by_cases small : r.area < s.fld VE_SEG VE_SEG_AMIN
    · rw [if_pos ⟨rfl, by decide, small⟩, List.filter_cons_of_neg (by simp [small])]
      refine ⟨?_, (RegsBut.refl s _).setReg (by simp)⟩
      rw [List.filter_nil, List.map_nil, List.append_nil]
      rfl
    · rw [if_neg fun h => small h.2.2, List.filter_cons_of_pos (by simpa using ⟨empty, Nat.not_lt.1 small⟩)]
      exact emit_emits on _

theorem closeUnverified_emits {s : State} (on : s.veOn = true) (r : Region) :
    Emits s (s.closeRegion 2 r flagCont) (([r].filter fun r => r.rows ≠ 0).map fun r => s.regionRec 2 r flagCont) := by
  unfold State.closeRegion
  by_cases empty : r.rows = 0
  · rw [if_pos empty, List.filter_cons_of_neg (by simp [empty])]
    exact .refl s
  · rw [if_neg empty, if_neg fun h => absurd h.1 (by decide), List.filter_cons_of_pos (by simpa using empty)]
    exact emit_emits on _

/-- A list of regions closed one after the other. -/
theorem closeAll_emits {kind : Nat} {keep : State → Region → Bool}
    (one : ∀ {s : State}, s.veOn = true → ∀ r, Emits s (s.closeRegion kind r flagCont)
      (([r].filter (keep s)).map fun r => s.regionRec kind r flagCont))
    (same : ∀ {s t : State} {ds}, Emits s t ds → keep t = keep s) (rs : List Region) {s : State} (on : s.veOn = true) :
    Emits s (rs.foldl (fun s r => s.closeRegion kind r flagCont) s) ((rs.filter (keep s)).map fun r => s.regionRec kind r flagCont) := by
  induction rs generalizing s with
  | nil => exact .refl s
  | cons r rs ih =>
    have first := one on r
    have rest := ih (first.veOn.trans on)
    rw [same first] at rest
    simp only [first.regionRec] at rest
    have all := first.trans rest
    rwa [← List.map_append, ← List.filter_append, List.singleton_append] at all

/-! ### Writes of VE_CTRL (R281, R282) -/

theorem regDef_VE_CTRL : ∃ d, regDef? VE_CTRL = some d ∧ d.rw = 0xFFFF0703 ∧ d.rwl = 0 ∧ d.w1c = 0 := by decide

theorem veCtrl_typedWrite (s : State) (v : Word) : s.typedWrite VE_CTRL v = s.setReg VE_CTRL (merged 0xFFFF0703 (s.reg VE_CTRL) v) := by
  obtain ⟨d, hd, rw_, rwl, w1c⟩ := regDef_VE_CTRL
  rw [typedWrite_plain s v hd rwl w1c, rw_]

/-- A field of VE_CTRL takes the value written. -/
theorem veCtrl_fld (s : State) (v : Word) {f : Fld} (fits : f.lo + f.w ≤ 32)
    (writes : ∀ i < f.w, (0xFFFF0703 : Word).getLsbD (f.lo + i) = true) :
    (s.typedWrite VE_CTRL v).fld VE_CTRL f = fldGet f v := by
  rw [veCtrl_typedWrite, State.fld, reg_setReg_same, fldGet_merged fits writes]

/-- The fields of VE_CTRL that the engine's run protects. -/
def State.veKept (s : State) (v : Word) : Word :=
  fldPut VE_CTRL_HLOG (s.fld VE_CTRL VE_CTRL_HLOG) (fldPut VE_CTRL_DECLOG (s.fld VE_CTRL VE_CTRL_DECLOG) v)

theorem veKept_en (s : State) (v : Word) : fldGet VE_CTRL_EN (s.veKept v) = fldGet VE_CTRL_EN v := by
  unfold State.veKept
  rw [fldGet_fldPut_other _ _ _ _ (by decide), fldGet_fldPut_other _ _ _ _ (by decide)]

theorem veKept_hlog (s : State) (v : Word) : fldGet VE_CTRL_HLOG (s.veKept v) = s.fld VE_CTRL VE_CTRL_HLOG := by
  unfold State.veKept
  rw [fldGet_fldPut_same _ _ _ (by decide)]
  exact Nat.mod_eq_of_lt (fld_lt _ _ _)

theorem veKept_declog (s : State) (v : Word) : fldGet VE_CTRL_DECLOG (s.veKept v) = s.fld VE_CTRL VE_CTRL_DECLOG := by
  unfold State.veKept
  rw [fldGet_fldPut_other _ _ _ _ (by decide), fldGet_fldPut_same _ _ _ (by decide)]
  exact Nat.mod_eq_of_lt (fld_lt _ _ _)

theorem typedWrite_leaves (s : State) (v : Word) : Frame s (s.typedWrite VE_CTRL v) [VE_CTRL] [] := by
  rw [veCtrl_typedWrite]
  exact (Frame.refl s _ _).setReg (by simp)

/-- R282: a write while the engine runs keeps the rows of its intervals and its decimation. -/
theorem veCtrlWrite_running {s : State} (on : s.veOn = true) (v : Word) :
    Frame s (s.veCtrlWrite v) [VE_CTRL] [] ∧
    (∀ f : Fld, f.lo + f.w ≤ 32 → (∀ i < f.w, (0xFFFF0703 : Word).getLsbD (f.lo + i) = true) →
      (s.veCtrlWrite v).fld VE_CTRL f = fldGet f (s.veKept v)) ∧
    (s.veKept v ≠ v → Reported s (s.veCtrlWrite v) 0x0346 0xFF (BitVec.ofNat 48 (regAddr VE_CTRL))) := by
  have eq : s.veCtrlWrite v = if s.veKept v ≠ v then (s.typedWrite VE_CTRL (s.veKept v)).fault 0x0346 0xFF (regAddr VE_CTRL)
      else s.typedWrite VE_CTRL v := by
    unfold State.veCtrlWrite
    dsimp only
    rw [on, Bool.true_and]
    simp only [decide_eq_true_eq]
    rfl
  by_cases changed : s.veKept v ≠ v
  · rw [eq, if_pos changed]
    refine ⟨(typedWrite_leaves s _).fault, fun f fits writes => ?_, fun _ => fault_reportedFrom _ _ _ ?_⟩
    · rw [fld_of_reg _ (reg_fault _ _ _ _ _ (notMem_reportRegs_nil (by decide)))]
      exact veCtrl_fld s _ fits writes
    · rw [veCtrl_typedWrite]
      rfl
  · rw [eq, if_neg changed]
    refine ⟨typedWrite_leaves s v, fun f fits writes => ?_, fun h => absurd h changed⟩
    rw [not_not.1 changed]
    exact veCtrl_fld s v fits writes

theorem veCtrlWrite_off {s : State} (off : s.veOn = false) (v : Word) : s.veCtrlWrite v = s.typedWrite VE_CTRL v := by
  unfold State.veCtrlWrite
  dsimp only
  rw [off, Bool.false_and, if_neg Bool.false_ne_true]

theorem fldGet_putEn (b : Nat) (hb : b < 2) (v : Word) : fldGet VE_CTRL_EN (fldPut VE_CTRL_EN b v) = b := by
  rw [fldGet_fldPut_same _ _ _ (by decide)]
  exact Nat.mod_eq_of_lt hb

theorem veOn_of_fld {s : State} {b : Nat} (h : s.fld VE_CTRL VE_CTRL_EN = b) : s.veOn = (b != 0) := by
  unfold State.veOn State.bit
  rw [h]

end Sys2Proof.Machine

namespace Sys2Proof.Machine

/-! ### Enabling (R281) -/

theorem veChecks_le (s : State) : s.veChecks ≤ 6 := by
  unfold State.veChecks
  dsimp only
  split
  · decide
  · split_ifs <;> decide

theorem veNotReport : VE_CTRL ∉ reportRegs [BLK_VE] ∧ VE_STAT ∉ reportRegs [BLK_VE] := by decide

theorem veEnable_starts {s : State} {v : Word} (off : s.veOn = false)
    (passed : (s.typedWrite VE_CTRL (fldPut VE_CTRL_EN 0 v)).veChecks = 0) :
    let t := s.veEnableWrite v
    t.veOn = true ∧ t.fld VE_STAT VE_STAT_ACTIVE = 1 ∧ t.fld VE_CTRL VE_CTRL_DECLOG = fldGet VE_CTRL_DECLOG v ∧
      t.ve.comps = [] ∧ t.ve.regions = [] ∧ t.ve.nextRow = none ∧ t.ve.matched = false ∧
      t.ve.emitted = s.ve.emitted ∧ veOnly s t [VE_CTRL, VE_STAT] ∧ t.mem = s.mem := by
  unfold State.veEnableWrite
  rw [off, if_neg Bool.false_ne_true, veCtrlWrite_off off]
  have frame := typedWrite_leaves s (fldPut VE_CTRL_EN 0 v)
  have declog : (s.typedWrite VE_CTRL (fldPut VE_CTRL_EN 0 v)).fld VE_CTRL VE_CTRL_DECLOG = fldGet VE_CTRL_DECLOG v := by
    rw [veCtrl_fld s _ (by decide) (by decide), fldGet_fldPut_other _ _ _ _ (by decide)]
  generalize s.typedWrite VE_CTRL (fldPut VE_CTRL_EN 0 v) = u at *
  dsimp only
  rw [if_neg (by rw [passed]; decide)]
  have ve : u.ve = s.ve := by rw [frame.1]
  have mem : u.mem = s.mem := by rw [frame.1]
  obtain ⟨w, hw⟩ : ∃ w, (u.setFld VE_CTRL VE_CTRL_EN 1).setFld VE_STAT VE_STAT_ACTIVE 1 = w := ⟨_, rfl⟩
  have after : Frame s w [VE_CTRL, VE_STAT] [BLK_VE] := by
    rw [← hw]
    exact ((frame.mono (by simp) (by simp)).setFld (by simp)).setFld (by simp)
  have sameVe : w.ve = s.ve := by rw [after.1]
  have sameMem : w.mem = s.mem := by rw [after.1]
  have on : w.veOn = true := by
    rw [← hw]
    refine (bit_of_reg _ (reg_setFld_other _ _ _ _ _ (by decide))).trans ?_
    exact bit_setFld_same u VE_CTRL VE_CTRL_EN true rfl (by decide)
  have active : w.fld VE_STAT VE_STAT_ACTIVE = 1 := by
    rw [← hw]
    exact fld_setFld_same _ _ _ _ (by decide)
  have dec : w.fld VE_CTRL VE_CTRL_DECLOG = fldGet VE_CTRL_DECLOG v := by
    rw [← hw, fld_setFld_other _ _ _ _ _ _ (by decide), fld_setFld_field _ _ _ _ _ (by decide)]
    exact declog
  rw [hw]
  refine ⟨on, active, dec, rfl, rfl, rfl, rfl, (congrArg VeSt.emitted sameVe : w.ve.emitted = _), ⟨?_, after.2⟩, sameMem⟩
  have q := after.1
  unfold Quiet at q ⊢
  rw [q]
  rfl

theorem veEnable_refused {s : State} {v : Word} (off : s.veOn = false)
    (failed : (s.typedWrite VE_CTRL (fldPut VE_CTRL_EN 0 v)).veChecks ≠ 0) :
    let t := s.veEnableWrite v
    t.veOn = false ∧ EventSet t BLK_VE 6 ∧
      t.fld VE_STAT VE_STAT_REASON = (s.typedWrite VE_CTRL (fldPut VE_CTRL_EN 0 v)).veChecks % 8 ∧ t.ve = s.ve ∧
      veOnly s t [VE_CTRL, VE_STAT] ∧ t.mem = s.mem := by
  unfold State.veEnableWrite
  rw [off, if_neg Bool.false_ne_true, veCtrlWrite_off off]
  have frame := typedWrite_leaves s (fldPut VE_CTRL_EN 0 v)
  have en : (s.typedWrite VE_CTRL (fldPut VE_CTRL_EN 0 v)).fld VE_CTRL VE_CTRL_EN = 0 := by
    rw [veCtrl_fld s _ (by decide) (by decide), fldGet_putEn 0 (by decide)]
  generalize s.typedWrite VE_CTRL (fldPut VE_CTRL_EN 0 v) = u at *
  dsimp only
  rw [if_pos failed]
  have few := veChecks_le u
  generalize u.veChecks = r at *
  obtain ⟨w, hw⟩ : ∃ w, u.setFld VE_STAT VE_STAT_REASON r = w := ⟨_, rfl⟩
  have after : Frame s (w.setEvt BLK_VE 6) [VE_CTRL, VE_STAT] [BLK_VE] := by
    rw [← hw]
    exact ((frame.mono (by simp) (by simp)).setFld (by simp)).setEvt (by simp)
  have ctrl : (w.setEvt BLK_VE 6).reg VE_CTRL = u.reg VE_CTRL := by
    rw [reg_setEvt_of_notMem _ _ _ _ veNotReport.1, ← hw, reg_setFld_other _ _ _ _ _ (by decide)]
  have stat : (w.setEvt BLK_VE 6).reg VE_STAT = w.reg VE_STAT := reg_setEvt_of_notMem _ _ _ _ veNotReport.2
  have event := setEvt_eventSet w BLK_VE 6 (by decide)
  rw [hw]
  generalize w.setEvt BLK_VE 6 = t at *
  refine ⟨veOn_of_fld ((fld_of_reg _ ctrl).trans en), event, ?_, by rw [after.1], ⟨?_, after.2⟩, by rw [after.1]⟩
  · rw [fld_of_reg _ stat, ← hw, fld_setFld_same _ _ _ _ (by decide)]
    change r % 16 = r % 8
    omega
  · have q := after.1
    unfold Quiet at q ⊢
    rw [q]

/-! ### Disabling (R282) -/

/-- The engine's state once its rows and regions have been given up. -/
def VeSt.stopped (v : VeSt) : VeSt := { v with ring := [], nextRow := none, comps := [], regions := [], sat := none }

theorem veDisable_stops {s : State} {v : Word} (on : s.veOn = true) (none : s.ve.sat = none) :
    let t := s.veDisableWrite v
    t.veOn = false ∧ t.fld VE_STAT VE_STAT_ACTIVE = 0 ∧ t.ve.comps = [] ∧ t.ve.regions = [] ∧ t.mem = s.mem ∧
      veOnly s t [VE_CTRL, VE_STAT, VE_CNT 6, VE_CNT 7] ∧
      t.reg (VE_CNT 6) = satAdd (s.ve.ring.map fun e => e.2.length).sum (s.reg (VE_CNT 6)) ∧
      t.ve.emitted = s.ve.emitted ++
        (s.ve.comps.filter fun r =>
          r.rows ≠ 0 ∧ s.fld VE_SEG VE_SEG_AMIN ≤ r.area).map (fun r => s.regionRec 1 r flagCont) ++
        (s.ve.regions.filter fun r => r.rows ≠ 0).map fun r => s.regionRec 2 r flagCont := by
  obtain ⟨a, ha⟩ : ∃ a, s.ve.comps.foldl (fun s r => s.closeRegion 1 r flagCont) s = a := ⟨_, rfl⟩
  have comps : Emits s a _ := ha ▸ closeAll_emits (keep := fun s r => decide (r.rows ≠ 0 ∧ s.fld VE_SEG VE_SEG_AMIN ≤ r.area))
    closeComp_emits (fun h => by rw [fld_of_reg _ (h.reg (by decide))]) s.ve.comps on
  obtain ⟨b, hb⟩ : ∃ b, a.ve.regions.foldl (fun s r => s.closeRegion 2 r flagCont) a = b := ⟨_, rfl⟩
  have regions : Emits a b _ := hb ▸ closeAll_emits (keep := fun _ r => decide (r.rows ≠ 0))
    closeUnverified_emits (fun _ => rfl) a.ve.regions (comps.veOn.trans on)
  simp only [comps.regionRec] at regions
  have sameRegions : a.ve.regions = s.ve.regions := by rw [comps.1]
  rw [sameRegions] at regions hb
  have both := comps.trans regions
  clear comps regions
  obtain ⟨c, hc⟩ : ∃ c, (b.setReg (VE_CNT 6) (satAdd (b.ve.ring.map fun e => e.2.length).sum (b.reg (VE_CNT 6)))).onVe
    VeSt.stopped = c := ⟨_, rfl⟩
  have eq : s.veDisableWrite v = (c.veCtrlWrite (fldPut VE_CTRL_EN 0 v)).setFld VE_STAT VE_STAT_ACTIVE 0 := by
    have noSat : b.ve.sat = Option.none := by rw [both.1]; exact none
    unfold State.veDisableWrite
    dsimp only
    rw [on, Bool.not_true, if_neg Bool.false_ne_true, ha, sameRegions, hb, noSat, ← hc]
    rfl
  rw [eq]
  obtain ⟨eqB, regsB⟩ := both
  have onC : c.veOn = true := by
    rw [← hc]
    refine (bit_of_reg _ (reg_setReg_other _ _ _ _ (by decide))).trans ?_
    exact (bit_of_reg _ (regsB _ (by decide))).trans on
  have ring : b.ve.ring = s.ve.ring := by rw [eqB]
  have cnt : b.reg (VE_CNT 6) = s.reg (VE_CNT 6) := regsB _ (by decide)
  have cntC : c.reg (VE_CNT 6) = satAdd (s.ve.ring.map fun e => e.2.length).sum (s.reg (VE_CNT 6)) := by
    rw [← hc, ← ring, ← cnt]
    exact reg_setReg_same _ _ _
  have regsC : RegsBut s c [VE_CTRL, VE_STAT, VE_CNT 6, VE_CNT 7] := by
    have first : RegsBut s b [VE_CTRL, VE_STAT, VE_CNT 6, VE_CNT 7] := regsB.mono (by simp)
    rw [← hc]
    exact first.setReg (by simp)
  have eqC : c = { s with regs := c.regs, ve := VeSt.stopped b.ve } := by
    rw [← hc]
    conv_lhs => rw [eqB]
    rw [eqB]
    rfl
  obtain ⟨frame, flds, -⟩ := veCtrlWrite_running onC (fldPut VE_CTRL_EN 0 v)
  have en := flds VE_CTRL_EN (by decide) (by decide)
  rw [veKept_en, fldGet_putEn 0 (by decide)] at en
  generalize c.veCtrlWrite (fldPut VE_CTRL_EN 0 v) = d at *
  have veD : d.ve = VeSt.stopped b.ve := by rw [frame.1]; rw [eqC]
  have emitted : b.ve.emitted = s.ve.emitted ++ _ := congrArg (fun s : State => s.ve.emitted) eqB
  have regsD : d.reg (VE_CNT 6) = c.reg (VE_CNT 6) := frame.2 _ (by decide)
  refine ⟨?_, fld_setFld_same _ _ _ _ (by decide), ?_, ?_, ?_, ⟨?_, ?_⟩, ?_, ?_⟩
  · refine (bit_of_reg _ (reg_setFld_other _ _ _ _ _ (by decide))).trans ?_
    exact veOn_of_fld en
  · exact congrArg VeSt.comps veD
  · exact congrArg VeSt.regions veD
  · change d.mem = _
    rw [frame.1, eqC]
  · have q : Quiet c (d.setFld VE_STAT VE_STAT_ACTIVE 0) := (frame.mono (List.subset_cons_self VE_STAT [VE_CTRL])
      (List.Subset.refl _) |>.setFld (by simp)).1
    unfold Quiet at q ⊢
    rw [q, eqC]
  · refine RegsBut.mono (l := [VE_CTRL, VE_STAT, VE_CNT 6, VE_CNT 7] ++ reportRegs [BLK_VE]) ?_ (List.Subset.refl _)
    have first : RegsBut s d ([VE_CTRL, VE_STAT, VE_CNT 6, VE_CNT 7] ++ reportRegs [BLK_VE]) :=
      (regsC.mono (List.subset_append_left _ _)).trans (frame.2.mono (List.append_subset.2
        ⟨fun _ h => List.mem_append_left _ (by simp at h; simp [h]),
          fun _ h => List.mem_append_right _ (reportRegs_mono (List.nil_subset _) h)⟩))
    exact first.setFld (by simp)
  · rw [reg_setFld_other _ _ _ _ _ (by decide), regsD, cntC]
  · change d.ve.emitted = _
    rw [veD]
    change b.ve.emitted = _
    rw [emitted, List.append_assoc]

/-- Settles O39: the writes of VE_CTRL with the engine stopped and with it running. -/
theorem verificationStartsAndStops : Obligations.VerificationStartsAndStops := by
  intro s v
  refine ⟨asleep_of_whenAwake rfl, asleep_of_whenAwake rfl, fun awake => ?_⟩
  have enable : exec (.veEnable v) s = .next (s.veEnableWrite v) :=
    congrArg Host.Outcome.next (whenAwake_awake (off := VE_CTRL) s awake)
  have disable : exec (.veDisable v) s = .next (s.veDisableWrite v) :=
    congrArg Host.Outcome.next (whenAwake_awake (off := VE_CTRL) s awake)
  refine ⟨fun off => ⟨_, disable, ?_⟩, fun on => ⟨_, enable, ?_⟩, fun off => ⟨fun passed => ⟨_, enable, veEnable_starts off passed⟩,
    fun failed => ⟨_, enable, veEnable_refused off failed⟩⟩, fun on none => ⟨_, disable, veDisable_stops on none⟩⟩
  · unfold State.veDisableWrite
    rw [off, Bool.not_false, if_pos rfl, veCtrlWrite_off off]
    refine ⟨veOn_of_fld (b := 0) ?_, ?_, ?_⟩
    · rw [veCtrl_fld s _ (by decide) (by decide), fldGet_putEn 0 (by decide)]
    · rw [veCtrl_typedWrite]
      rfl
    · rw [veCtrl_typedWrite]
      exact (RegsBut.refl s _).setReg (by simp)
  · have eq : s.veEnableWrite v = s.veCtrlWrite (fldPut VE_CTRL_EN 1 v) := by
      unfold State.veEnableWrite
      rw [on, if_pos rfl]
    rw [eq]
    obtain ⟨frame, flds, reported⟩ := veCtrlWrite_running on (fldPut VE_CTRL_EN 1 v)
    refine ⟨veOn_of_fld (b := 1) ?_, frame, ?_, ?_, fun differs => reported fun same => ?_⟩
    · rw [flds _ (by decide) (by decide), veKept_en, fldGet_putEn 1 (by decide)]
    · rw [flds _ (by decide) (by decide), veKept_hlog]
    · rw [flds _ (by decide) (by decide), veKept_declog]
    · have hlog := veKept_hlog s (fldPut VE_CTRL_EN 1 v)
      have declog := veKept_declog s (fldPut VE_CTRL_EN 1 v)
      rw [same, fldGet_fldPut_other _ _ _ _ (by decide)] at hlog declog
      rcases differs with h | h
      · exact h hlog
      · exact h declog

end Sys2Proof.Machine

/-!
The loop engine (R369 to R371, R375, R376, R380, R381, O51): admission, frames, section states and the trace.
-/

namespace Sys2Proof.Machine

/-! ### The typed write of a register (R3 to R5) -/

/-- The bits that a write may change: RWL bits with the RW bits until PROT is locked. -/
def State.writable (s : State) (d : RegDef) : Word := if s.bit PROT_LOCK PROT_LOCK_LOCK then d.rw else d.rw ||| d.rwl

/-- What the write of a register leaves in it. -/
def State.typedVal (s : State) (d : RegDef) (off : Nat) (v : Word) : Word :=
  merged (s.writable d) (s.reg off) v &&& ~~~(v &&& d.w1c &&& ~~~(s.top.fresh.get 0 off))

theorem typedWrite_eq (s : State) {off : Nat} {d : RegDef} (v : Word) (hd : regDef? off = some d) :
    s.typedWrite off v =
      if (s.bit PROT_LOCK PROT_LOCK_LOCK && decide (s.reg off &&& d.rwl ≠ v &&& d.rwl)) = true then
        (s.setReg off (s.typedVal d off v)).fault 0x00C2 0xFF (regAddr off)
      else s.setReg off (s.typedVal d off v) := by
  unfold State.typedWrite
  rw [hd]
  rfl

theorem typedWrite_frame (s : State) {off : Nat} {d : RegDef} (v : Word) (hd : regDef? off = some d) :
    Frame s (s.typedWrite off v) [off] [] := by
  rw [typedWrite_eq s v hd]
  split
  · exact ((Frame.refl s _ _).setReg (by simp)).fault
  · exact (Frame.refl s _ _).setReg (by simp)

theorem typedWrite_reg (s : State) {off : Nat} {d : RegDef} (v : Word) (hd : regDef? off = some d)
    (h : off ∉ reportRegs []) : (s.typedWrite off v).reg off = s.typedVal d off v := by
  rw [typedWrite_eq s v hd]
  split
  · rw [reg_fault _ _ _ _ _ h, reg_setReg_same]
  · exact reg_setReg_same _ _ _

/-- A register without W1C bits takes the value written in its writable bits. -/
theorem typedVal_of_noW1c (s : State) {d : RegDef} (off : Nat) (v : Word) (w1c : d.w1c = 0) :
    s.typedVal d off v = merged (s.writable d) (s.reg off) v := by
  unfold State.typedVal
  rw [w1c]
  have all : ~~~(v &&& 0#32 &&& ~~~(s.top.fresh.get 0 off)) = BitVec.allOnes 32 := by
    rw [BitVec.and_zero, BitVec.zero_and]
    rfl
  exact (congrArg _ all).trans (BitVec.and_allOnes)

theorem writable_rw (s : State) {d : RegDef} {i : Nat} (h : d.rw.getLsbD i = true) : (s.writable d).getLsbD i = true := by
  unfold State.writable
  split
  · exact h
  · rw [BitVec.getLsbD_or, h, Bool.true_or]

/-- A field of RW bits takes the value written. -/
theorem fldGet_typedVal (s : State) {d : RegDef} (off : Nat) (v : Word) (w1c : d.w1c = 0) {f : Fld} (fits : f.lo + f.w ≤ 32)
    (writes : ∀ i < f.w, d.rw.getLsbD (f.lo + i) = true) : fldGet f (s.typedVal d off v) = fldGet f v := by
  rw [typedVal_of_noW1c s off v w1c]
  exact fldGet_merged fits fun i hi => writable_rw s (writes i hi)

/-! ### Reports in the queues of other blocks -/

/-- A fault leaves the queues of other blocks. -/
theorem queues_fault_other (s : State) (code : BitVec 16) (inst info : Nat) {b : Nat} (h : b ≠ codeBlk code) :
    (s.fault code inst info).si.queues.get [] b = s.si.queues.get [] b := by
  have queued : ∀ (u : State) (f : FaultIn), f.code = code → (u.queueFault f).si.queues.get [] b = u.si.queues.get [] b := by
    intro u f hf
    unfold State.queueFault
    dsimp only
    rw [hf]
    split
    · exact Tbl.get_set_other _ _ _ _ _ _ h
    · rw [setEvt_si]
      rfl
  have raised : ∀ (u : State) (lasting : Bool), (u.raiseWith code inst info lasting).si.queues.get [] b = u.si.queues.get [] b := by
    intro u lasting
    unfold State.raiseWith
    dsimp only
    split
    · exact queued _ _ rfl
    · exact queued _ _ rfl
  unfold State.fault
  split
  · exact raised _ _
  · exact raised _ _

/-- A report counts from any state with the same queue of its block. -/
theorem Reported.from_queue {s s' t : State} {code : BitVec 16} {inst : BitVec 8} {info : BitVec 48}
    (h : Reported s t code inst info) (e : s.si.queues.get [] (codeBlk code) = s'.si.queues.get [] (codeBlk code)) :
    Reported s' t code inst info := by
  unfold Reported at h ⊢
  rwa [← e]

theorem queues_typedWrite_other (s : State) {off : Nat} {d : RegDef} (v : Word) (hd : regDef? off = some d) {b : Nat} (h : b ≠ 3) :
    (s.typedWrite off v).si.queues.get [] b = s.si.queues.get [] b := by
  rw [typedWrite_eq s v hd]
  split
  · exact queues_fault_other _ _ _ _ h
  · rfl

/-! ### The loop engine's own state -/

section
variable {s t : State} {l : List Nat}

theorem leOnly_refl (s : State) (l : List Nat) : leOnly s s l := Frame.refl _ _ _

theorem leOnly_trans {u : State} (h : leOnly s t l) (k : leOnly t u l) : leOnly s u l := by
  obtain ⟨same, regs⟩ := h
  obtain ⟨same', regs'⟩ := k
  refine ⟨?_, fun off ho => (regs' off ho).trans (regs off ho)⟩
  unfold Quiet at *
  rw [same', same]

theorem leOnly_of_frame {u : State} (h : leOnly s t l) (k : Frame t u l [BLK_LE]) : leOnly s u l := by
  refine leOnly_trans h ?_
  unfold leOnly
  rw [k.1.le]
  exact k

theorem leOnly_onLe (f : LeSt → LeSt) (h : leOnly s t l) : leOnly s (t.onLe f) l :=
  leOnly_trans h ⟨rfl, fun _ _ => rfl⟩

theorem leOnly_onLoop (k : Nat) (f : LoopSt → LoopSt) (h : leOnly s t l) : leOnly s (t.onLoop k f) l :=
  leOnly_trans h ⟨rfl, fun _ _ => rfl⟩

theorem leOnly_setReg {off : Nat} {v : Word} (h : leOnly s t l) (ho : off ∈ l) : leOnly s (t.setReg off v) l :=
  Frame.setReg h ho

theorem leOnly_mono {l' : List Nat} (h : leOnly s t l) (hl : l ⊆ l') : leOnly s t l' :=
  Frame.mono h hl (List.Subset.refl _)

end

theorem loopAt_onLoop (s : State) (l k : Nat) (f : LoopSt → LoopSt) :
    (s.onLoop l f).loopAt k = if k = l then f (s.loopAt l) else s.loopAt k := Tbl.get_upd _ _ _ _ _

/-- A loop that stops: its output is 0 and its results are dropped. -/
theorem loopClear_shows (s : State) (l : Nat) :
    (s.loopClear l).reg (LP_OUT l) = 0 ∧ ((s.loopClear l).loopAt l).results = [] ∧
      ((s.loopClear l).loopAt l).active = (s.loopAt l).active ∧ (∀ k, k ≠ l → (s.loopClear l).loopAt k = s.loopAt k) ∧
      (∀ off, off ≠ LP_OUT l → (s.loopClear l).reg off = s.reg off) := by
  have own : (s.loopClear l).loopAt l = { s.loopAt l with results := [] } :=
    (loopAt_onLoop s l l _).trans (if_pos rfl)
  exact ⟨reg_setReg_same _ _ _, by rw [own], by rw [own], fun k hk => (loopAt_onLoop s l k _).trans (if_neg hk),
    fun off ho => reg_setReg_other _ _ _ _ ho⟩

theorem loopStop_shows (s : State) (l : Nat) :
    (s.loopStop l).reg (LP_OUT l) = 0 ∧ ((s.loopStop l).loopAt l).results = [] ∧
      ((s.loopStop l).loopAt l).active = false ∧ (∀ k, k ≠ l → (s.loopStop l).loopAt k = s.loopAt k) ∧
      (∀ off, off ≠ LP_OUT l → (s.loopStop l).reg off = s.reg off) := by
  obtain ⟨out, results, -, others, regs⟩ := loopClear_shows s l
  have own : (s.loopStop l).loopAt l = { (s.loopClear l).loopAt l with active := false } :=
    (loopAt_onLoop _ l l _).trans (if_pos rfl)
  exact ⟨out, by rw [own]; exact results, by rw [own], fun k hk => ((loopAt_onLoop _ l k _).trans (if_neg hk)).trans (others k hk),
    regs⟩

theorem loopStop_leOnly {s t : State} {l : List Nat} (k : Nat) (h : leOnly s t l) (ho : LP_OUT k ∈ l) : leOnly s (t.loopStop k) l :=
  leOnly_onLoop k _ (leOnly_setReg (leOnly_onLoop k _ h) ho)

/-! ### Writes of LP_CFG (R370) -/

theorem regDef_LP_CFG : ∀ l : Fin 32, ∃ d, regDef? (LP_CFG l) = some d ∧ d.rw = 0xBFFFFFFF ∧ d.rwl = 0x40000000 ∧ d.w1c = 0 := by
  decide

theorem lpNotReport {off : Nat} (lo : 0x1500021 ≤ off) (hi : off < 0x1600000) : off ∉ reportRegs [BLK_LE] :=
  notMem_reportRegs_one (b := BLK_LE) 0x1500020 rfl (by omega)

theorem lpCfg_typed (s : State) (l : Fin 32) (v : Word) :
    lpOn ((s.typedWrite (LP_CFG l) v).reg (LP_CFG l)) = lpOn v ∧ leOnly s (s.typedWrite (LP_CFG l) v) [LP_CFG l] ∧
      (s.typedWrite (LP_CFG l) v).le = s.le ∧
      (s.typedWrite (LP_CFG l) v).si.queues.get [] BLK_LE = s.si.queues.get [] BLK_LE := by
  obtain ⟨d, hd, rw_, -, w1c⟩ := regDef_LP_CFG l
  have apart : LP_CFG l ∉ reportRegs [] := fun h =>
    lpNotReport (by unfold LP_CFG; omega) (by unfold LP_CFG; omega) (reportRegs_mono (List.nil_subset _) h)
  have frame := typedWrite_frame s v hd
  refine ⟨?_, leOnly_of_frame (leOnly_refl s _) (frame.mono (List.Subset.refl _) (List.nil_subset _)), by rw [frame.1],
    queues_typedWrite_other s v hd (by decide)⟩
  rw [typedWrite_reg s v hd apart, lpOn, fldGet_typedVal s _ v w1c (f := LP_CFG_EN) (by decide) (by rw [rw_]; decide)]
  rfl

theorem loopEnable_starts {s : State} {l : Fin 32} {v : Word} (on : lpOn v = true)
    (fits : budgetFits ((List.range 32).map fun j => if j = l.val then v else s.reg (LP_CFG j)) s.leFrame = true)
    (was : lpOn (s.reg (LP_CFG l)) = false) :
    ∃ t, exec (.loopEnable l v) s = .next t ∧ lpOn (t.reg (LP_CFG l)) = true ∧
      (t.loopAt l).active = true ∧ (t.loopAt l).q = s.lc.pos ∧ (t.loopAt l).prev = s.qeTotals ∧
      (t.loopAt l).cfg = t.reg (LP_CFG l) ∧
      leOnly s t [LP_CFG l] ∧ ∀ k, k ≠ l.val → t.loopAt k = s.loopAt k := by
  obtain ⟨en, only, le, -⟩ := lpCfg_typed s l v
  obtain ⟨u, hu⟩ : ∃ u, s.typedWrite (LP_CFG l) v = u := ⟨_, rfl⟩
  have run : exec (.loopEnable l v) s = .next (u.onLoop l fun x => { x with
      active := true, q := u.lc.pos, prev := u.qeTotals, bad := 0, preload := true, cfg := u.reg (LP_CFG l) }) := by
    subst hu
    change Host.Outcome.next (s.lpCfgWrite l v) = _
    unfold State.lpCfgWrite
    dsimp only
    rw [if_pos on, fits, if_pos rfl, was, if_neg Bool.false_ne_true]
  rw [hu] at en only le
  have lc : u.lc = s.lc := by rw [only.1]
  have qe : u.qeTotals = s.qeTotals := by
    unfold State.qeTotals State.qeAt
    rw [only.1]
  have own := (loopAt_onLoop u l l fun x => { x with active := true, q := u.lc.pos, prev := u.qeTotals, bad := 0, preload := true, cfg := u.reg (LP_CFG l) }).trans (if_pos rfl)
  refine ⟨_, run, en.trans on, by rw [own], by rw [own, ← lc], by rw [own, ← qe], by rw [own]; rfl, leOnly_onLoop _ _ only, fun k hk => ?_⟩
  refine (loopAt_onLoop u l k _).trans ((if_neg hk).trans ?_)
  unfold State.loopAt
  rw [le]

theorem loopEnable_stays {s : State} {l : Fin 32} {v : Word} (on : lpOn v = true)
    (fits : budgetFits ((List.range 32).map fun j => if j = l.val then v else s.reg (LP_CFG j)) s.leFrame = true)
    (was : lpOn (s.reg (LP_CFG l)) = true) :
    ∃ t, exec (.loopEnable l v) s = .next t ∧ lpOn (t.reg (LP_CFG l)) = true ∧ t.le = s.le ∧ leOnly s t [LP_CFG l] := by
  obtain ⟨en, only, le, -⟩ := lpCfg_typed s l v
  refine ⟨_, ?_, en.trans on, le, only⟩
  change Host.Outcome.next (s.lpCfgWrite l v) = _
  unfold State.lpCfgWrite
  dsimp only
  rw [if_pos on, fits, if_pos rfl, was, if_pos rfl]

theorem loopEnable_refused {s : State} {l : Fin 32} {v : Word} (on : lpOn v = true)
    (fits : budgetFits ((List.range 32).map fun j => if j = l.val then v else s.reg (LP_CFG j)) s.leFrame = false) :
    ∃ t, exec (.loopEnable l v) s = .next t ∧
      lpOn (t.reg (LP_CFG l)) = lpOn (s.reg (LP_CFG l)) ∧ t.bit (LP_FLAG l) LP_FLAG_REFUSED = true ∧
      EventSet t BLK_LE 0 ∧ Reported s t 0x0541 (BitVec.ofNat 8 l) 0 ∧ t.le = s.le ∧
      leOnly s t [LP_CFG l, LP_FLAG l] := by
  obtain ⟨u, hu⟩ : ∃ u, (if lpOn (s.reg (LP_CFG l)) = true then s else s.typedWrite (LP_CFG l) (fldPut LP_CFG_EN 0 v)) = u := ⟨_, rfl⟩
  have run : exec (.loopEnable l v) s = .next (((u.lpFlag l LP_FLAG_REFUSED).setEvt BLK_LE 0).fault 0x0541 l) := by
    subst hu
    change Host.Outcome.next (s.lpCfgWrite l v) = _
    unfold State.lpCfgWrite
    dsimp only
    rw [if_pos on, fits, if_neg Bool.false_ne_true]
  have first : lpOn (u.reg (LP_CFG l)) = lpOn (s.reg (LP_CFG l)) ∧ leOnly s u [LP_CFG l] ∧ u.le = s.le ∧
      u.si.queues.get [] BLK_LE = s.si.queues.get [] BLK_LE := by
    rw [← hu]
    by_cases was : lpOn (s.reg (LP_CFG l)) = true
    · rw [if_pos was]
      exact ⟨rfl, leOnly_refl s _, rfl, rfl⟩
    · rw [if_neg was]
      obtain ⟨en, only, le, queue⟩ := lpCfg_typed s l (fldPut LP_CFG_EN 0 v)
      refine ⟨en.trans ?_, only, le, queue⟩
      unfold lpOn at was ⊢
      rw [fldGet_fldPut_same _ _ _ (by decide)]
      simpa using was
  obtain ⟨en, only, le, queue⟩ := first
  have flagApart : LP_FLAG l ∉ reportRegs [BLK_LE] := lpNotReport (by unfold LP_FLAG; omega) (by unfold LP_FLAG; omega)
  have cfgApart : LP_CFG l ∉ reportRegs [BLK_LE] := lpNotReport (by unfold LP_CFG; omega) (by unfold LP_CFG; omega)
  have frame : Frame u (((u.lpFlag l LP_FLAG_REFUSED).setEvt BLK_LE 0).fault 0x0541 l) [LP_CFG l, LP_FLAG l] [BLK_LE] :=
    ((Frame.refl u _ _).hwEvt (by simp) (by simp)).fault
  have reg : ∀ off, off ∉ reportRegs [BLK_LE] →
      (((u.lpFlag l LP_FLAG_REFUSED).setEvt BLK_LE 0).fault 0x0541 l).reg off = (u.lpFlag l LP_FLAG_REFUSED).reg off := fun off ho => by
    rw [reg_fault _ _ _ _ _ fun h => ho (reportRegs_mono (List.nil_subset _) h), reg_setEvt_of_notMem _ _ _ _ ho]
  have event : EventSet (((u.lpFlag l LP_FLAG_REFUSED).setEvt BLK_LE 0).fault 0x0541 l) BLK_LE 0 :=
    (setEvt_eventSet _ _ _ (by decide)).fault _ _ _
  have reported : Reported u (((u.lpFlag l LP_FLAG_REFUSED).setEvt BLK_LE 0).fault 0x0541 l) 0x0541 (BitVec.ofNat 8 l) 0 :=
    fault_reportedFrom _ _ _ (by rw [setEvt_si]; rfl)
  refine ⟨_, run, ?_, ?_, event, reported.from_queue queue, ?_, ?_⟩
  · rw [reg _ cfgApart, State.lpFlag, reg_hwSet_other _ _ _ _ (by unfold LP_CFG LP_FLAG; omega)]
    exact en
  · rw [bit_of_reg _ (reg _ flagApart)]
    exact bit_setFld_same u (LP_FLAG l) LP_FLAG_REFUSED true rfl (by decide)
  · exact frame.1.le.trans le
  · exact leOnly_of_frame (leOnly_mono only (by simp)) frame

theorem loopDisable_stops {s : State} {l : Fin 32} {v : Word} (off : lpOn v = false) :
    ∃ t, exec (.loopEnable l v) s = .next t ∧ lpOn (t.reg (LP_CFG l)) = false ∧
      (lpOn (s.reg (LP_CFG l)) = false → t.le = s.le ∧ leOnly s t [LP_CFG l]) ∧
      (lpOn (s.reg (LP_CFG l)) = true → t.reg (LP_OUT l) = 0 ∧ (t.loopAt l).active = false ∧
        (t.loopAt l).results = [] ∧ leOnly s t [LP_CFG l, LP_OUT l] ∧
        ∀ k, k ≠ l.val → t.loopAt k = s.loopAt k) := by
  obtain ⟨en, only, le, -⟩ := lpCfg_typed s l v
  obtain ⟨u, hu⟩ : ∃ u, s.typedWrite (LP_CFG l) v = u := ⟨_, rfl⟩
  have run : exec (.loopEnable l v) s = .next (if lpOn (s.reg (LP_CFG l)) = true then u.loopStop l else u) := by
    subst hu
    change Host.Outcome.next (s.lpCfgWrite l v) = _
    unfold State.lpCfgWrite
    dsimp only
    rw [off, if_neg Bool.false_ne_true]
  rw [hu] at en only le
  obtain ⟨out, results, active, others, regs⟩ := loopStop_shows u l
  refine ⟨_, run, ?_, fun was => ?_, fun was => ?_⟩
  · have value : (u.loopStop l).reg (LP_CFG l) = u.reg (LP_CFG l) := regs _ (by unfold LP_CFG LP_OUT; omega)
    split
    · rw [value, en, off]
    · rw [en, off]
  · rw [was, if_neg Bool.false_ne_true]
    exact ⟨le, only⟩
  · rw [was, if_pos rfl]
    refine ⟨out, active, results, loopStop_leOnly _ (leOnly_mono only (by simp)) (by simp), fun k hk => ?_⟩
    rw [others k hk, State.loopAt, le, State.loopAt]

end Sys2Proof.Machine

namespace Sys2Proof.Machine

/-! ### The stop of the engine (R371) -/

/-- The first `n` loops have stopped. -/
def LoopsStopped (s t : State) (n : Nat) : Prop :=
  (∀ l, l < n → t.reg (LP_OUT l) = 0 ∧ (t.loopAt l).results = [] ∧
    (t.loopAt l).active = ((s.loopAt l).active && lpOn (s.reg (LP_CFG l)))) ∧
  (∀ l, n ≤ l → t.loopAt l = s.loopAt l) ∧
  t = { s with regs := t.regs, le := { s.le with loops := t.le.loops } } ∧
  ∀ off, (∀ l, l < n → off ≠ LP_OUT l) → t.reg off = s.reg off

theorem LoopsStopped.next {s t : State} {n : Nat} (h : LoopsStopped s t n) :
    LoopsStopped s (if lpOn (t.reg (LP_CFG n)) then t.loopClear n else t.loopStop n) (n + 1) := by
  obtain ⟨stopped, rest, eq, regs⟩ := h
  have cfg : t.reg (LP_CFG n) = s.reg (LP_CFG n) := regs _ fun l _ => by unfold LP_CFG LP_OUT; omega
  have apart : ∀ {l}, l < n → LP_OUT l ≠ LP_OUT n := fun h => by unfold LP_OUT; omega
  have step : ∀ u : State, u.reg (LP_OUT n) = 0 → (u.loopAt n).results = [] →
      (u.loopAt n).active = ((s.loopAt n).active && lpOn (s.reg (LP_CFG n))) → (∀ k, k ≠ n → u.loopAt k = t.loopAt k) →
      (∀ off, off ≠ LP_OUT n → u.reg off = t.reg off) → u = { t with regs := u.regs, le := { t.le with loops := u.le.loops } } →
      LoopsStopped s u (n + 1) := by
    intro u out results active others uregs ueq
    refine ⟨fun l hl => ?_, fun l hl => ?_, ?_, fun off ho => ?_⟩
    · rcases Nat.lt_succ_iff_lt_or_eq.1 hl with lt | rfl
      · rw [uregs _ (apart lt), others l (by omega)]
        exact stopped l lt
      · exact ⟨out, results, active⟩
    · rw [others l (by omega), rest l (by omega)]
    · rw [ueq, eq]
    · rw [uregs off (ho n (by omega)), regs off fun l hl => ho l (by omega)]
  rw [cfg]
  split
  · next on =>
    obtain ⟨out, results, active, others, uregs⟩ := loopClear_shows t n
    refine step _ out results ?_ others uregs rfl
    rw [active, rest n le_rfl, on, Bool.and_true]
  · next off =>
    obtain ⟨out, results, active, others, uregs⟩ := loopStop_shows t n
    refine step _ out results ?_ others uregs rfl
    rw [active, Bool.eq_false_iff.2 off, Bool.and_false]

theorem engineStop_stops (s : State) : LoopsStopped s s.engineStop 32 := by
  have all : ∀ n, LoopsStopped s (s.each n fun l s => if lpOn (s.reg (LP_CFG l)) then s.loopClear l else s.loopStop l) n := by
    intro n
    induction n with
    | zero => exact ⟨fun l h => absurd h (Nat.not_lt_zero l), fun _ _ => rfl, rfl, fun _ _ => rfl⟩
    | succ n ih =>
      rw [each_succ]
      exact ih.next
  exact all 32

theorem LoopsStopped.leOnly {s t : State} (h : LoopsStopped s t 32) : leOnly s t ((List.range 32).map LP_OUT) := by
  obtain ⟨-, -, eq, regs⟩ := h
  refine ⟨?_, fun off ho => regs off fun l hl e => ho ?_⟩
  · unfold Quiet
    rw [eq]
  · exact List.mem_append_left _ (List.mem_map.2 ⟨l, List.mem_range.2 hl, e.symm⟩)

/-! ### Writes of LE_CTRL (R371) -/

theorem regDef_LE_CTRL : ∃ d, regDef? LE_CTRL = some d ∧ d.rw = 0x1FFF0001 ∧ d.rwl = 0 ∧ d.w1c = 0 := by decide

theorem leCtrl_typed (s : State) (v : Word) : s.typedWrite LE_CTRL v = s.setReg LE_CTRL (merged 0x1FFF0001 (s.reg LE_CTRL) v) := by
  obtain ⟨d, hd, rw_, rwl, w1c⟩ := regDef_LE_CTRL
  rw [typedWrite_plain s v hd rwl w1c, rw_]

theorem leCtrl_fld (s : State) (v : Word) {f : Fld} (fits : f.lo + f.w ≤ 32)
    (writes : ∀ i < f.w, (0x1FFF0001 : Word).getLsbD (f.lo + i) = true) : (s.typedWrite LE_CTRL v).fld LE_CTRL f = fldGet f v := by
  rw [leCtrl_typed, State.fld, reg_setReg_same, fldGet_merged fits writes]

/-- The frames of an engine begin. -/
def LeSt.begun (e : LeSt) (now : Nat) : LeSt := { e with running := true, nextAt := now, frame := 0 }

theorem leCtrlWrite_on {s : State} {v : Word} (was : s.bit LE_CTRL LE_CTRL_EN = false) (en : fldGet LE_CTRL_EN v = 1) :
    ∃ u : State, u.bit LE_CTRL LE_CTRL_EN = true ∧ u = { s with regs := u.regs } ∧ RegsBut s u [LE_CTRL] ∧
      s.leCtrlWrite v = ((if u.le.running = true then u.engineStop else u).onLe fun e => e.begun u.now).setReg LE_FRAME 0 := by
  have on : (s.typedWrite LE_CTRL v).bit LE_CTRL LE_CTRL_EN = true := by
    rw [State.bit, leCtrl_fld s v (by decide) (by decide), en]
    rfl
  refine ⟨s.typedWrite LE_CTRL v, on, by rw [leCtrl_typed]; rfl, by rw [leCtrl_typed]; exact (RegsBut.refl s _).setReg (by simp), ?_⟩
  unfold State.leCtrlWrite
  dsimp only
  have still : ¬ (false = true ∧ fldGet LE_CTRL_FRAME v ≠ s.fld LE_CTRL LE_CTRL_FRAME) := fun h => Bool.false_ne_true h.1
  rw [was, if_neg still, if_neg Bool.false_ne_true, on, Bool.not_false, Bool.true_and, if_pos rfl]
  split
  · have stopped := engineStop_stops (s.typedWrite LE_CTRL v)
    have now : (s.typedWrite LE_CTRL v).engineStop.now = (s.typedWrite LE_CTRL v).now := by rw [stopped.2.2.1]
    unfold LeSt.begun
    rw [← now]
  · rfl

theorem engineEnable_begins {s : State} {v : Word} (was : s.bit LE_CTRL LE_CTRL_EN = false) (en : fldGet LE_CTRL_EN v = 1) :
    (s.le.running = false →
      ∃ t, exec (.engineEnable v) s = .next t ∧ t.bit LE_CTRL LE_CTRL_EN = true ∧
        t.le = { s.le with running := true, nextAt := s.now, frame := 0 } ∧ t.reg LE_FRAME = 0 ∧
        leOnly s t [LE_CTRL, LE_FRAME]) ∧
    (s.le.running = true →
      ∃ t, exec (.engineEnable v) s = .next t ∧ t.bit LE_CTRL LE_CTRL_EN = true ∧ t.le.running = true ∧
        t.le.nextAt = s.now ∧ t.le.frame = 0 ∧ t.reg LE_FRAME = 0 ∧
        (∀ l, l < 32 → t.reg (LP_OUT l) = 0 ∧ (t.loopAt l).results = []) ∧
        leOnly s t ([LE_CTRL, LE_FRAME] ++ (List.range 32).map LP_OUT)) := by
  obtain ⟨u, on, eq, regs, write⟩ := leCtrlWrite_on was en
  have run : exec (.engineEnable v) s = .next (s.leCtrlWrite v) := rfl
  have le : u.le = s.le := by rw [eq]
  have now : u.now = s.now := by rw [eq]
  have only : leOnly s u [LE_CTRL] := by
    refine ⟨?_, regs.mono (List.subset_append_left _ _)⟩
    unfold Quiet
    rw [eq]
  refine ⟨fun still => ?_, fun running => ?_⟩
  · rw [le, if_neg (by rw [still]; decide)] at write
    refine ⟨_, run.trans (congrArg _ write), ?_, ?_, reg_setReg_same _ _ _,
      leOnly_setReg (leOnly_onLe _ (leOnly_mono only (by simp))) (by simp)⟩
    · exact (bit_of_reg _ (reg_setReg_other _ _ _ _ (by decide))).trans on
    · change u.le.begun u.now = _
      rw [le, now]
      rfl
  · rw [le, if_pos running] at write
    have stopped := engineStop_stops u
    have stoppedOnly := stopped.leOnly
    obtain ⟨each_, -, -, others⟩ := stopped
    generalize u.engineStop = w at *
    refine ⟨_, run.trans (congrArg _ write), ?_, rfl, now, rfl, reg_setReg_same _ _ _, fun l hl => ?_, ?_⟩
    · refine (bit_of_reg _ (reg_setReg_other _ _ _ _ (by decide))).trans ?_
      exact (bit_of_reg _ (others _ fun l _ => by unfold LE_CTRL LP_OUT; omega)).trans on
    · obtain ⟨out, results, -⟩ := each_ l hl
      exact ⟨(reg_setReg_other _ _ _ _ (by unfold LP_OUT LE_FRAME; omega)).trans out, results⟩
    · refine leOnly_setReg (leOnly_onLe _ (leOnly_trans (leOnly_mono only (by simp)) (leOnly_mono stoppedOnly ?_))) (by simp)
      exact List.subset_append_right _ _

/-- R371: while the frames run, a write leaves FRAME as it is, and reports another value. -/
theorem engineEnable_keepsFrame {s : State} {v : Word} (on : s.bit LE_CTRL LE_CTRL_EN = true)
    (differs : fldGet LE_CTRL_FRAME v ≠ s.fld LE_CTRL LE_CTRL_FRAME) :
    ∃ t, exec (.engineEnable v) s = .next t ∧
      t.fld LE_CTRL LE_CTRL_FRAME = s.fld LE_CTRL LE_CTRL_FRAME ∧ Reported s t 0x0541 0xFF 0 ∧
      t.le = s.le ∧ leOnly s t [LE_CTRL] := by
  obtain ⟨w, hw⟩ : ∃ w, fldPut LE_CTRL_FRAME (s.fld LE_CTRL LE_CTRL_FRAME) v = w := ⟨_, rfl⟩
  have run : exec (.engineEnable v) s = .next ((s.fault 0x0541).typedWrite LE_CTRL w) := by
    subst hw
    change Host.Outcome.next (s.leCtrlWrite v) = _
    unfold State.leCtrlWrite
    dsimp only
    simp only [on, Bool.not_true, Bool.false_and, Bool.false_eq_true, if_false, if_true, true_and, if_pos differs]
  have frame : Frame s ((s.fault 0x0541).typedWrite LE_CTRL w) [LE_CTRL] [BLK_LE] := by
    rw [leCtrl_typed]
    exact (Frame.fault (Frame.refl s _ _)).setReg (by simp)
  refine ⟨_, run, ?_, ?_, by rw [frame.1], leOnly_of_frame (leOnly_refl s _) frame⟩
  · rw [leCtrl_fld _ _ (by decide) (by decide), ← hw, fldGet_fldPut_same _ _ _ (by decide)]
    exact Nat.mod_eq_of_lt (fld_lt _ _ _)
  · rw [leCtrl_typed]
    exact (fault_reported s 0x0541 0xFF 0).of_si rfl rfl

/-! ### Q read (R376) -/

theorem regDef_LP_Q_F : ∀ l : Fin 32, ∃ d, regDef? (LP_Q_F l) = some d ∧ d.base = LP_Q_F 0 ∧ (d.ix (LP_Q_F l)).1 = l.val := by
  decide

theorem qRead_value (u : State) (m : Master) (l : Fin 32) : u.readReg m (LP_Q_F l) = ((u.readQ l).reg (LP_Q_F l), u.readQ l) := by
  obtain ⟨d, hd, base, ix⟩ := regDef_LP_Q_F l
  have awake : u.awake (LP_Q_F l / 0x100000) = true := by
    have : LP_Q_F l / 0x100000 = 21 := by unfold LP_Q_F; omega
    rw [this]
    rfl
  have refresh : u.refresh d (LP_Q_F l) = u.readQ l := by
    unfold State.refresh
    have ne : ∀ o, o < 0x1501028 ∨ 0x1501800 ≤ o → LP_Q_F l ≠ o := fun o h => by unfold LP_Q_F; omega
    rcases hix : d.ix (LP_Q_F l) with ⟨i, j⟩
    dsimp only
    rw [if_neg (ne _ (by decide)), if_neg (ne _ (by decide)), if_neg (ne _ (by decide)), if_neg (ne _ (by decide)),
      if_neg (ne _ (by decide)), if_neg (ne _ (by decide)), if_neg (ne _ (by decide)), if_neg (ne _ (by decide)),
      if_neg (ne _ (by decide)), if_neg (ne _ (by decide)), if_pos base]
    rw [hix] at ix
    exact congrArg u.readQ ix
  have shown : ∀ w : State, w.shown d (LP_Q_F l) = w.reg (LP_Q_F l) := fun w => by
    unfold State.shown
    dsimp only
    rw [base]
    rfl
  unfold State.readReg
  rw [hd]
  dsimp only
  rw [awake, if_neg (by decide), base, if_neg (by decide), refresh, shown]

theorem readQ_shows (u : State) (l : Fin 32) :
    (u.readQ l).reg (LP_Q_F l) = BitVec.ofNat 32 (u.loopAt l).q.toNat ∧
    (u.readQ l).reg (LP_Q_LO l) = BitVec.ofNat 32 ((u.loopAt l).q.toNat / 2 ^ 32) ∧
    (u.readQ l).reg (LP_Q_HI l) = BitVec.ofNat 32 ((u.loopAt l).q.toNat / 2 ^ 64) ∧
    u.readQ l = { u with regs := (u.readQ l).regs } ∧ RegsBut u (u.readQ l) [LP_Q_F l, LP_Q_LO l, LP_Q_HI l] := by
  have flo : LP_Q_F l ≠ LP_Q_LO l := by unfold LP_Q_F LP_Q_LO; omega
  have fhi : LP_Q_F l ≠ LP_Q_HI l := by unfold LP_Q_F LP_Q_HI; omega
  have lohi : LP_Q_LO l ≠ LP_Q_HI l := by unfold LP_Q_LO LP_Q_HI; omega
  unfold State.readQ State.setReg64
  dsimp only
  generalize (u.loopAt l).q.toNat = q
  refine ⟨?_, ?_, ?_, rfl, (((RegsBut.refl u _).setReg (by simp)).setReg (by simp)).setReg (by simp)⟩
  · rw [reg_setReg_other _ _ _ _ fhi, reg_setReg_other _ _ _ _ flo, reg_setReg_same]
  · rw [reg_setReg_other _ _ _ _ lohi, reg_setReg_same]
  · rw [reg_setReg_same, Nat.div_div_eq_div_mul]
    rfl

theorem qRead_reads (s : State) (m : Master) (l : Fin 32) :
    (s.permits m (regAddr (LP_Q_F l)) false = true →
      ∃ t, exec (.qRead m l) s = .next t ∧ t.top.answer = BitVec.ofNat 32 (s.loopAt l).q.toNat ∧
        t.reg (LP_Q_LO l) = BitVec.ofNat 32 ((s.loopAt l).q.toNat / 2 ^ 32) ∧
        t.reg (LP_Q_HI l) = BitVec.ofNat 32 ((s.loopAt l).q.toNat / 2 ^ 64) ∧
        t = { s with regs := t.regs, top := { (s.busGrant m).top with answer := t.top.answer } } ∧
        RegsBut s t [LP_Q_F l, LP_Q_LO l, LP_Q_HI l]) ∧
    (s.permits m (regAddr (LP_Q_F l)) false = false →
      ∃ t, exec (.qRead m l) s = .next t ∧ t.top.answer = 0 ∧
        Frame { s with top := { s.top with answer := 0 } } t (if m = .host then [HI_CNT 0] else []) []) := by
  have exec_ : exec (.qRead m l) s = .next (s.readBy m (LP_Q_F l)) := rfl
  refine ⟨fun permitted => ?_, fun denied => ?_⟩
  · rw [readBy_permitted permitted, qRead_value] at exec_
    obtain ⟨u, hu⟩ : ∃ u, (s.answerWith 0).busGrant m = u := ⟨_, rfl⟩
    rw [hu] at exec_
    have grants : u = { s with top := { (s.busGrant m).top with answer := 0 } } := by
      rw [← hu]
      exact (answerWith_busGrant s m 0).trans (congrArg (·.answerWith 0) (busGrant_onTop s m))
    have loop : u.loopAt l = s.loopAt l := by rw [grants]; rfl
    have regs : u.regs = s.regs := by rw [grants]
    obtain ⟨f, lo, hi, only, but⟩ := readQ_shows u l
    rw [loop] at f lo hi
    generalize u.readQ l = w at *
    refine ⟨_, exec_, f, lo, hi, ?_, (RegsBut.of_regs (t := u) regs _).trans but⟩
    have eq : w = { s with regs := w.regs, top := { (s.busGrant m).top with answer := 0 } } := by
      conv_lhs => rw [only]
      rw [grants]
    generalize w.reg (LP_Q_F l) = x
    rw [eq]
    rfl
  · have frame := denied_frame (s.answerWith 0) m (regAddr (LP_Q_F l))
    exact ⟨_, exec_.trans (congrArg _ (readBy_denied denied)), frame.1.answer, frame⟩

end Sys2Proof.Machine

namespace Sys2Proof.Machine

/-! ### Section states (R375) -/

theorem twos_sext (N : Nat) : twos 64 (sext 48 N) % 2 ^ 48 = N % 2 ^ 48 := by
  unfold twos sext
  split <;> push_cast <;> omega

theorem sext_mod (N : Nat) : sext 48 (N % 2 ^ 48) = sext 48 N := by
  unfold sext
  rw [Nat.mod_mod]

/-- A section state that has been stored. -/
theorem setSecState_shows (s : State) (n i N : Nat) :
    (s.setSecState n i (sext 48 N)).secState n i = sext 48 (N % 2 ^ 48) ∧
    MemBut s (s.setSecState n i (sext 48 N)) (LOOP_SECTION n + 24 + 8 * i) 8 := by
  refine ⟨?_, fun a ha => storeBytes_out _ _ _ _ (by rw [leBytes_length]; exact ha)⟩
  have bytes : (s.setSecState n i (sext 48 N)).loadBytes (LOOP_SECTION n + 24 + 8 * i) 6 = leBytes 6 (twos 64 (sext 48 N)) := by
    have part := memRead_store_part s.mem (LOOP_SECTION n + 24 + 8 * i) (leBytes 8 (twos 64 (sext 48 N))) (i := 0) (n := 6)
      (by rw [leBytes_length]; omega)
    exact part
  unfold State.secState State.loadNat
  rw [bytes, leNat_leBytes]
  have same : twos 64 (sext 48 N) % 256 ^ 6 = N % 2 ^ 48 := twos_sext N
  rw [same]

theorem stateWord_stored (s : State) (n : Fin 256) (s2 : Bool) (hi : Word) :
    let low := (s.le.held.get none (2 * n + b2n s2)).getD
      (BitVec.ofNat 32 (s.loadNat (LOOP_SECTION n + 24 + 8 * b2n s2) 4))
    ∃ t, exec (.stateWordWrite n s2 hi) s = .next t ∧
      t.secState n (b2n s2) = sext 48 ((low.toNat + hi.toNat * 2 ^ 32) % 2 ^ 48) ∧
      t.le.held.get none (2 * n + b2n s2) = none ∧
      MemBut s t (LOOP_SECTION n + 24 + 8 * b2n s2) 8 ∧
      t = { s with mem := t.mem, poison := t.poison, le := t.le } := by
  intro low
  obtain ⟨state, mem⟩ := setSecState_shows s n (b2n s2) (low.toNat + hi.toNat * 2 ^ 32)
  exact ⟨_, rfl, state, Tbl.get_set_same _ _ _ _, mem, rfl⟩

/-! ### The trace (R380) -/

theorem regDef_LE_TRIG : ∃ d, regDef? LE_TRIG = some d ∧ d.rw = 0xBF003FFF ∧ d.rwl = 0 ∧ d.w1c = 0 := by decide

theorem leTrig_typed (s : State) (v : Word) : s.typedWrite LE_TRIG v = s.setReg LE_TRIG (merged 0xBF003FFF (s.reg LE_TRIG) v) := by
  obtain ⟨d, hd, rw_, rwl, w1c⟩ := regDef_LE_TRIG
  rw [typedWrite_plain s v hd rwl w1c, rw_]

theorem armed_typed (s : State) {v : Word} (h : v.getLsbD 31 = true) : (s.typedWrite LE_TRIG v).armed = true := by
  rw [leTrig_typed]
  unfold State.armed
  rw [show LE_TRIG_ARM = ⟨31, 1⟩ from rfl, bit_one, reg_setReg_same, getLsbD_merged _ _ _ _ (by decide), if_pos (by decide), h]

/-- What ARM makes of the status of the trace channels. -/
def State.channelArmed (s : State) (k : Nat) : State :=
  if s.bit (TR_CFG k) TR_CFG_EN then s.setReg (TR_STAT k) 0 else s.setFld (TR_STAT k) TR_STAT_DONE 0

theorem channelsArmed_shows (s : State) (n : Nat) (hn : n ≤ 16) :
    let t := s.each n fun k s => s.channelArmed k
    (∀ k, k < n → (s.bit (TR_CFG k) TR_CFG_EN = true → t.reg (TR_STAT k) = 0) ∧ t.bit (TR_STAT k) TR_STAT_DONE = false) ∧
    t = { s with regs := t.regs } ∧ ∀ off, (∀ k, k < n → off ≠ TR_STAT k) → t.reg off = s.reg off := by
  induction n with
  | zero => exact ⟨fun k h => absurd h (Nat.not_lt_zero k), rfl, fun _ _ => rfl⟩
  | succ n ih =>
    obtain ⟨shown, eq, regs⟩ := ih (by omega)
    rw [each_succ]
    generalize (s.each n fun k s => s.channelArmed k) = u at *
    have en : u.bit (TR_CFG n) TR_CFG_EN = s.bit (TR_CFG n) TR_CFG_EN :=
      bit_of_reg _ (regs _ fun k _ => by unfold TR_CFG TR_STAT; omega)
    have own : (s.bit (TR_CFG n) TR_CFG_EN = true → (u.channelArmed n).reg (TR_STAT n) = 0) ∧
        (u.channelArmed n).bit (TR_STAT n) TR_STAT_DONE = false := by
      unfold State.channelArmed
      split
      · exact ⟨fun _ => reg_setReg_same _ _ _, by rw [State.bit, State.fld, reg_setReg_same]; rfl⟩
      · next off => exact ⟨fun on => absurd (en.trans on) off, bit_setFld_same u (TR_STAT n) TR_STAT_DONE false rfl (by decide)⟩
    have others : ∀ off, off ≠ TR_STAT n → (u.channelArmed n).reg off = u.reg off := fun off ho => by
      unfold State.channelArmed
      split
      · exact reg_setReg_other _ _ _ _ ho
      · exact reg_setFld_other _ _ _ _ _ ho
    refine ⟨fun k hk => ?_, ?_, fun off ho => ?_⟩
    · rcases Nat.lt_succ_iff_lt_or_eq.1 hk with lt | rfl
      · have apart : TR_STAT k ≠ TR_STAT n := by unfold TR_STAT; omega
        rw [others _ apart, bit_of_reg _ (others _ apart)]
        exact shown k lt
      · exact own
    · unfold State.channelArmed
      split
      · conv_lhs => rw [eq]
        rfl
      · conv_lhs => rw [eq]
        rfl
    · rw [others off (ho n (by omega)), regs off fun k hk => ho k (by omega)]

theorem armBit (v : Word) : (v ||| 0x80000000).getLsbD 31 = true ∧ (v ||| 0x80000000).getLsbD 30 = v.getLsbD 30 := by
  constructor <;> rw [BitVec.getLsbD_or]
  · exact Bool.or_true _
  · exact Bool.or_false _

theorem forceBit (v : Word) : (v ||| 0x40000000).getLsbD 30 = true ∧ (v ||| 0x40000000).getLsbD 31 = v.getLsbD 31 := by
  constructor <;> rw [BitVec.getLsbD_or]
  · exact Bool.or_true _
  · exact Bool.or_false _

theorem arm_arms {s : State} {v : Word} (noForce : v.getLsbD 30 = false) :
    ∃ t, exec (.arm v) s = .next t ∧ t.armed = true ∧ t.le.fired = false ∧
      (∀ k, k < 16 → s.bit (TR_CFG k) TR_CFG_EN = true → t.reg (TR_STAT k) = 0) ∧
      (∀ k, k < 16 → t.bit (TR_STAT k) TR_STAT_DONE = false) ∧ t.rbit (evtReg BLK_LE) 3 = false ∧
      t = { s with regs := t.regs, le := t.le } ∧
      RegsBut s t ([LE_TRIG, evtReg BLK_LE] ++ (List.range 16).map TR_STAT) := by
  obtain ⟨b31, b30⟩ := armBit v
  rw [noForce] at b30
  generalize hw : v ||| 0x80000000 = w at *
  obtain ⟨u, hu⟩ : ∃ u, ((s.typedWrite LE_TRIG w).onLe fun e => { e with fired := false, traces := [] }).setBit (evtReg BLK_LE) 3 false =
    u := ⟨_, rfl⟩
  have run : exec (.arm v) s = .next (u.each 16 fun k s => s.channelArmed k) := by
    subst hu
    change Host.Outcome.next (s.leTrigWrite (v ||| 0x80000000)) = _
    rw [hw]
    unfold State.leTrigWrite
    dsimp only
    rw [b30, b31, Bool.false_and, Bool.false_and, Bool.false_and, if_neg Bool.false_ne_true, if_pos rfl, if_neg Bool.false_ne_true]
    rfl
  have typed : s.typedWrite LE_TRIG w = { s with regs := (s.typedWrite LE_TRIG w).regs } := by rw [leTrig_typed]; rfl
  have eqU : u = { s with regs := u.regs, le := u.le } := by
    rw [← hu]
    generalize s.typedWrite LE_TRIG w = z at typed
    rw [typed]
    rfl
  have armedU : u.armed = true := by
    rw [← hu]
    refine (bit_of_reg _ (reg_setBit_other _ _ _ _ _ (by decide))).trans ?_
    exact armed_typed s b31
  have firedU : u.le.fired = false := by rw [← hu]; rfl
  have eventU : u.rbit (evtReg BLK_LE) 3 = false := by
    rw [← hu]
    exact rbit_setBit_same _ _ _ _ (by decide)
  have regsU : ∀ off, off ≠ LE_TRIG → off ≠ evtReg BLK_LE → u.reg off = s.reg off := fun off h1 h2 => by
    rw [← hu, reg_setBit_other _ _ _ _ _ h2]
    refine Eq.trans (b := (s.typedWrite LE_TRIG w).reg off) rfl ?_
    rw [leTrig_typed, reg_setReg_other _ _ _ _ h1]
  obtain ⟨shown, eq, regs⟩ := channelsArmed_shows u 16 le_rfl
  generalize (u.each 16 fun k s => s.channelArmed k) = t at *
  refine ⟨t, run, ?_, by rw [eq]; exact firedU, fun k hk on => (shown k hk).1 ?_, fun k hk => (shown k hk).2, ?_, ?_, fun off ho => ?_⟩
  · exact (bit_of_reg _ (regs _ fun k _ => by unfold LE_TRIG TR_STAT; omega)).trans armedU
  · rw [bit_of_reg _ (regsU _ (by unfold TR_CFG LE_TRIG; omega) (by have : evtReg BLK_LE = 0x1500020 := rfl; unfold TR_CFG; omega))]
    exact on
  · rw [rbit_of_reg _ (regs _ fun k _ => by have : evtReg BLK_LE = 0x1500020 := rfl; unfold TR_STAT; omega)]
    exact eventU
  · rw [eq, eqU]
  · simp only [List.mem_append, List.mem_cons, List.not_mem_nil, or_false, List.mem_map, List.mem_range, not_or, not_exists,
      not_and] at ho
    rw [regs off fun k hk e => ho.2 k hk e.symm, regsU off ho.1.1 ho.1.2]

/-- Only the loop engine's state, the draws, registers of a list and the reports of LE have changed. -/
def LeDrawn (s t : State) (l : List Nat) : Prop := Frame { s with le := t.le, freeIx := t.freeIx } t l [BLK_LE]

namespace LeDrawn
variable {s t u : State} {l : List Nat}

theorem refl (s : State) (l : List Nat) : LeDrawn s s l := Frame.refl _ _ _

theorem trans (h : LeDrawn s t l) (k : LeDrawn t u l) : LeDrawn s u l := by
  obtain ⟨same, regs⟩ := h
  obtain ⟨same', regs'⟩ := k
  refine ⟨?_, fun off ho => (regs' off ho).trans (regs off ho)⟩
  unfold Quiet at *
  rw [same', same]

theorem of_frame (k : Frame s t l [BLK_LE]) : LeDrawn s t l := by
  unfold LeDrawn
  rw [k.1.le, k.1.freeIx]
  exact k

theorem draw (s : State) (l : List Nat) : LeDrawn s s.draw.2 l := ⟨rfl, fun _ _ => rfl⟩

theorem onLe (s : State) (l : List Nat) (f : LeSt → LeSt) : LeDrawn s (s.onLe f) l := ⟨rfl, fun _ _ => rfl⟩

theorem setFld (s : State) {off : Nat} (f : Fld) (x : Nat) (h : off ∈ l) : LeDrawn s (s.setFld off f x) l :=
  of_frame ((Frame.refl s _ _).setFld h)

theorem setReg (s : State) {off : Nat} (v : Word) (h : off ∈ l) : LeDrawn s (s.setReg off v) l :=
  of_frame ((Frame.refl s _ _).setReg h)

theorem reg (h : LeDrawn s t l) {off : Nat} (ho : off ∉ l ++ reportRegs [BLK_LE]) : t.reg off = s.reg off := h.2 off ho

end LeDrawn

/-- What one channel does at the trigger. -/
def State.channelTriggers (s : State) (post k : Nat) : State :=
  if s.traceOn k then
    let w := s.fld (TR_STAT k) TR_STAT_WPTR
    let (d, s) := s.draw
    let last := if w = 0 ∧ ¬ s.bit (TR_STAT k) TR_STAT_WRAP then Config.freeNat d else w + 16383
    (s.setFld (TR_STAT k) TR_STAT_TIDX last).onTrace k fun t => { t with left := some post }
  else s

theorem channelTriggers_drawn (s : State) (post k : Nat) (hk : k < 16) :
    LeDrawn s (s.channelTriggers post k) ((List.range 16).map TR_STAT) ∧ (s.channelTriggers post k).le.fired = s.le.fired ∧
      RegsBut s (s.channelTriggers post k) ((List.range 16).map TR_STAT) := by
  have mem : TR_STAT k ∈ (List.range 16).map TR_STAT := List.mem_map.2 ⟨k, List.mem_range.2 hk, rfl⟩
  unfold State.channelTriggers
  split
  · dsimp only
    generalize (if s.fld (TR_STAT k) TR_STAT_WPTR = 0 ∧ ¬ s.draw.2.bit (TR_STAT k) TR_STAT_WRAP then Config.freeNat s.draw.1
      else s.fld (TR_STAT k) TR_STAT_WPTR + 16383) = last
    exact ⟨((LeDrawn.draw s _).trans (.setFld s.draw.2 TR_STAT_TIDX last mem)).trans (.onLe _ _ _), rfl,
      (RegsBut.refl s _).setFld mem⟩
  · exact ⟨.refl s _, rfl, .refl s _⟩

theorem channelsTrigger_drawn (s : State) (post n : Nat) (hn : n ≤ 16) :
    LeDrawn s (s.each n fun k s => s.channelTriggers post k) ((List.range 16).map TR_STAT) ∧
      (s.each n fun k s => s.channelTriggers post k).le.fired = s.le.fired ∧
      RegsBut s (s.each n fun k s => s.channelTriggers post k) ((List.range 16).map TR_STAT) := by
  induction n with
  | zero => exact ⟨.refl s _, rfl, .refl s _⟩
  | succ n ih =>
    obtain ⟨drawn, fired, regs⟩ := ih (by omega)
    obtain ⟨drawn', fired', regs'⟩ := channelTriggers_drawn (s.each n fun k s => s.channelTriggers post k) post n hn
    rw [each_succ]
    exact ⟨drawn.trans drawn', fired'.trans fired, regs.trans regs'⟩

theorem traceNotReport {off : Nat} (h : off ∈ (List.range 16).map TR_STAT) : off ∉ reportRegs [BLK_LE] := by
  obtain ⟨k, hk, rfl⟩ := List.mem_map.1 h
  have := List.mem_range.1 hk
  exact lpNotReport (by unfold TR_STAT; omega) (by unfold TR_STAT; omega)

/-- R380: the trigger. -/
theorem trigger_fires (s : State) : LeDrawn s s.trigger ((List.range 16).map TR_STAT) ∧ s.trigger.le.fired = true ∧
    EventSet s.trigger BLK_LE 3 := by
  obtain ⟨post, hp⟩ : ∃ p, (if s.fld LE_TRIG LE_TRIG_POST = 0 then 16384 else s.fld LE_TRIG LE_TRIG_POST) = p := ⟨_, rfl⟩
  obtain ⟨u, hu⟩ : ∃ u, (s.onLe fun e => { e with fired := true }).setEvt BLK_LE 3 = u := ⟨_, rfl⟩
  have eq : s.trigger = u.each 16 fun k s => s.channelTriggers post k := by
    subst hp hu
    rfl
  have event : EventSet u BLK_LE 3 := hu ▸ setEvt_eventSet _ _ _ (by decide)
  have first : LeDrawn s u ((List.range 16).map TR_STAT) := by
    rw [← hu]
    exact (LeDrawn.onLe s _ _).trans (.of_frame ((Frame.refl _ _ _).setEvt (by simp)))
  have fired : u.le.fired = true := by
    rw [← hu, (setEvt_quiet _ _ _).le]
    rfl
  obtain ⟨drawn, same, regs⟩ := channelsTrigger_drawn u post 16 le_rfl
  rw [eq]
  generalize (u.each 16 fun k s => s.channelTriggers post k) = t at *
  refine ⟨first.trans drawn, same.trans fired, event.of_reg (regs _ fun h => traceNotReport h (by decide))⟩

theorem force_triggers {s : State} {v : Word} (noArm : v.getLsbD 31 = false) (armed : s.armed = true) (calm : s.le.fired = false) :
    ∃ t, exec (.force v) s = .next t ∧ t.armed = true ∧ t.le.fired = true ∧ EventSet t BLK_LE 3 ∧
      leOnly { s with freeIx := t.freeIx } t (LE_TRIG :: (List.range 16).map TR_STAT) := by
  obtain ⟨b30, b31⟩ := forceBit v
  rw [noArm] at b31
  generalize hw : v ||| 0x40000000 = w at *
  obtain ⟨u, hu⟩ : ∃ u, s.typedWrite LE_TRIG (w ||| 0x80000000) = u := ⟨_, rfl⟩
  have armedU : u.armed = true := hu ▸ armed_typed s (armBit w).1
  have leU : u.le = s.le := by rw [← hu, leTrig_typed]; rfl
  have run : exec (.force v) s = .next u.trigger := by
    change Host.Outcome.next (s.leTrigWrite (v ||| 0x40000000)) = _
    rw [hw]
    unfold State.leTrigWrite
    dsimp only
    rw [b30, b31, armed, Bool.and_self, if_pos rfl, if_neg Bool.false_ne_true, hu, armedU, leU, calm]
    rfl
  have first : LeDrawn s u (LE_TRIG :: (List.range 16).map TR_STAT) := by
    rw [← hu, leTrig_typed]
    exact .setReg s _ (by simp)
  obtain ⟨drawn, fired, event⟩ := trigger_fires u
  generalize u.trigger = t at *
  have all := first.trans (Frame.mono drawn (List.subset_cons_self LE_TRIG _) (List.Subset.refl _))
  refine ⟨t, run, ?_, fired, event, all⟩
  refine (bit_of_reg _ (drawn.reg fun h => ?_)).trans armedU
  rcases List.mem_append.1 h with h | h
  · obtain ⟨k, -, e⟩ := List.mem_map.1 h
    unfold TR_STAT LE_TRIG at e
    omega
  · exact absurd h (by decide)

theorem traceDone_ends (s : State) :
    let on := (List.range 16).filter fun k => s.bit (TR_CFG k) TR_CFG_EN
    (s.armed = true → on ≠ [] → (∀ k ∈ on, s.bit (TR_STAT k) TR_STAT_DONE = true) →
      ∃ t, exec .traceDone s = .next t ∧ t.armed = false ∧ EventSet t BLK_LE 4 ∧ t.le = s.le ∧
        leOnly s t [LE_TRIG]) ∧
    (s.armed = false → exec .traceDone s = .next s) := by
  intro on
  refine ⟨fun armed some done => ?_, fun still => ?_⟩
  · have run : exec .traceDone s = .next ((s.setFld LE_TRIG LE_TRIG_ARM 0).setEvt BLK_LE 4) := by
      refine congrArg Host.Outcome.next (if_pos ?_)
      have all : on.all (fun k => s.bit (TR_STAT k) TR_STAT_DONE) = true := List.all_eq_true.2 done
      have nonempty : on.isEmpty = false := by
        cases h : on with
        | nil => exact absurd h some
        | cons a l => rfl
      change (s.armed && !on.isEmpty && on.all fun k => s.bit (TR_STAT k) TR_STAT_DONE) = true
      rw [armed, nonempty, all]
      rfl
    have frame : Frame s ((s.setFld LE_TRIG LE_TRIG_ARM 0).setEvt BLK_LE 4) [LE_TRIG] [BLK_LE] :=
      ((Frame.refl s _ _).setFld (by simp)).setEvt (by simp)
    refine ⟨_, run, ?_, setEvt_eventSet _ _ _ (by decide), by rw [frame.1], leOnly_of_frame (leOnly_refl s _) frame⟩
    exact (bit_of_reg _ (reg_setEvt_of_notMem _ _ _ _ (by decide))).trans
      (bit_setFld_same s LE_TRIG LE_TRIG_ARM false rfl (by decide))
  · refine congrArg Host.Outcome.next (if_neg ?_)
    rw [still]
    simp

theorem section_states_and_trace : sectionStatesAndTrace :=
  ⟨stateWord_stored, fun _ _ => ⟨arm_arms, force_triggers⟩, traceDone_ends⟩

end Sys2Proof.Machine

namespace Sys2Proof.Machine

/-! ### What the evaluations of a frame keep -/

/-- The registers that a frame's evaluations keep: the frame, the presented outputs, the settings of the loops, and the
states of the encoders. -/
def LoopReg (off : Nat) : Prop :=
  off = LE_FRAME ∨ (∃ l < 32, off = LP_OUT l) ∨ (∃ l < 32, off = LP_CFG l) ∨ ∃ q < 10, off = QE_STAT q

/-- A frame's evaluations in state `s`, which was `c` before them. -/
def State.AtFrame (s c : State) : Prop :=
  s.mx = c.mx ∧ s.qe = c.qe ∧ s.lc = c.lc ∧ s.le.frame = c.le.frame ∧ s.le.nextAt = c.le.nextAt ∧
  (∀ off, LoopReg off → s.reg off = c.reg off) ∧ ∀ l, (s.loopAt l).active = (c.loopAt l).active

theorem LoopReg.notReport {off : Nat} (h : LoopReg off) : off ∉ reportRegs [BLK_LE] := by
  have above : 0x140102C ≤ off ∧ off < 0x1502000 ∧ off ≠ 0x1500020 := by
    rcases h with rfl | ⟨l, hl, rfl⟩ | ⟨l, hl, rfl⟩ | ⟨q, hq, rfl⟩
    · decide
    · unfold LP_OUT; omega
    · unfold LP_CFG; omega
    · unfold QE_STAT; omega
  rw [notMem_reportRegs]
  refine ⟨fun b hb => ?_, ?_, ?_, fun i hi => ?_⟩
  · rw [List.mem_singleton.1 hb]
    exact above.2.2
  · have : evtReg BLK_SI = 0x200020 := rfl
    omega
  · have : SI_CNT 1 = 0x200044 := rfl
    omega
  · have : MSIX_PBA i = 0x1090000 + 4 * i := rfl
    omega

section
variable {s c : State}

theorem State.AtFrame.refl (s : State) : s.AtFrame s := ⟨rfl, rfl, rfl, rfl, rfl, fun _ _ => rfl, fun _ => rfl⟩

theorem State.AtFrame.trans {t : State} (k : t.AtFrame s) (h : s.AtFrame c) : t.AtFrame c := by
  obtain ⟨mx, qe, lc, frame, next, regs, active⟩ := h
  obtain ⟨mx', qe', lc', frame', next', regs', active'⟩ := k
  exact ⟨mx'.trans mx, qe'.trans qe, lc'.trans lc, frame'.trans frame, next'.trans next,
    fun off ho => (regs' off ho).trans (regs off ho), fun l => (active' l).trans (active l)⟩

theorem State.AtFrame.ite {t : State} {b : Prop} [Decidable b] (hs : s.AtFrame c) (ht : t.AtFrame c) :
    (if b then s else t).AtFrame c := by
  split
  · exact hs
  · exact ht

theorem State.AtFrame.of_eq {α : Type} {p : α × State} {a : α} (h : p.2.AtFrame c) (e : p = (a, s)) : s.AtFrame c := by
  subst e
  exact h

theorem State.AtFrame.of_eq₂ {α β : Type} {p : α × β × State} {a : α} {b : β} (h : p.2.2.AtFrame c) (e : p = (a, b, s)) :
    s.AtFrame c := by
  subst e
  exact h

theorem State.AtFrame.foldl {α : Type} {f : State → α → State} {xs : List α} (h : s.AtFrame c)
    (hf : ∀ t a, t.AtFrame c → (f t a).AtFrame c) : (xs.foldl f s).AtFrame c :=
  List.foldlRecOn (motive := fun t => t.AtFrame c) xs f h fun t ht a _ => hf t a ht

theorem State.AtFrame.foldl_snd {α β : Type} {f : β × State → α → β × State} {xs : List α} {p : β × State} (h : p.2.AtFrame c)
    (hf : ∀ p a, p.2.AtFrame c → (f p a).2.AtFrame c) : (xs.foldl f p).2.AtFrame c :=
  List.foldlRecOn (motive := fun p => p.2.AtFrame c) xs f h fun p hp a _ => hf p a hp

theorem State.AtFrame.setReg {off : Nat} {v : Word} (h : s.AtFrame c) (ho : ¬ LoopReg off) : (s.setReg off v).AtFrame c :=
  .trans (s := s) ⟨rfl, rfl, rfl, rfl, rfl, fun _ hl => reg_setReg_other _ _ _ _ fun e => ho (e ▸ hl), fun _ => rfl⟩ h

theorem State.AtFrame.setFld {off x : Nat} {f : Fld} (h : s.AtFrame c) (ho : ¬ LoopReg off) : (s.setFld off f x).AtFrame c :=
  h.setReg ho

theorem State.AtFrame.count {off : Nat} (h : s.AtFrame c) (ho : ¬ LoopReg off) : (s.count off).AtFrame c := h.setReg ho

theorem State.AtFrame.quiet {t : State} (h : s.AtFrame c) (q : Quiet s t) (regs : ∀ off, LoopReg off → t.reg off = s.reg off) :
    t.AtFrame c :=
  .trans (s := s) ⟨q.mx, q.qe, q.lc, by rw [q.le], by rw [q.le], regs, fun l => by rw [State.loopAt, q.le, State.loopAt]⟩ h

theorem State.AtFrame.setEvt {n : Nat} (h : s.AtFrame c) : (s.setEvt BLK_LE n).AtFrame c :=
  h.quiet (setEvt_quiet _ _ _) fun _ hl => reg_setEvt_of_notMem _ _ _ _ hl.notReport

theorem LoopReg.notReportNil {off : Nat} (h : LoopReg off) : off ∉ reportRegs [] :=
  fun hm => h.notReport (reportRegs_mono (List.nil_subset _) hm)

theorem State.AtFrame.fault {code : BitVec 16} {inst info : Nat} (h : s.AtFrame c) : (s.fault code inst info).AtFrame c :=
  h.quiet (fault_quiet _ _ _ _) fun _ hl => reg_fault _ _ _ _ _ hl.notReportNil

theorem State.AtFrame.faultCounted {code : BitVec 16} {inst info n w : Nat} (h : s.AtFrame c) :
    (s.faultCounted code inst info n w).2.AtFrame c :=
  h.quiet (faultCounted_quiet _ _ _ _ _ _) fun _ hl => reg_faultCounted _ _ _ _ _ _ _ hl.notReportNil

theorem State.AtFrame.lpFlag {l : Nat} {f : Fld} (h : s.AtFrame c) : (s.lpFlag l f).AtFrame c := by
  refine .trans (s := s) ⟨rfl, rfl, rfl, rfl, rfl, fun off hl => reg_hwSet_other _ _ _ _ fun e => ?_, fun _ => rfl⟩ h
  rcases hl with rfl | ⟨k, _, rfl⟩ | ⟨k, _, rfl⟩ | ⟨k, _, rfl⟩
  · unfold LE_FRAME LP_FLAG at e; omega
  · unfold LP_OUT LP_FLAG at e; omega
  · unfold LP_CFG LP_FLAG at e; omega
  · unfold QE_STAT LP_FLAG at e; omega

theorem State.AtFrame.onLoop {k : Nat} {f : LoopSt → LoopSt} (h : s.AtFrame c) (hf : ∀ x, (f x).active = x.active) :
    (s.onLoop k f).AtFrame c := by
  refine .trans (s := s) ⟨rfl, rfl, rfl, rfl, rfl, fun _ _ => rfl, fun l => ?_⟩ h
  rw [loopAt_onLoop]
  split
  · next e => rw [hf, e]
  · rfl

theorem State.AtFrame.onTrace {k : Nat} {f : TraceSt → TraceSt} (h : s.AtFrame c) : (s.onTrace k f).AtFrame c := h

theorem State.AtFrame.draw (h : s.AtFrame c) : s.draw.2.AtFrame c := h

theorem State.AtFrame.storeNat {a n x : Nat} (h : s.AtFrame c) : (s.storeNat a n x).AtFrame c := h

theorem State.AtFrame.setSecState {n i : Nat} {x : Int} (h : s.AtFrame c) : (s.setSecState n i x).AtFrame c := h

theorem State.AtFrame.section {n : Nat} {x : Int} (h : s.AtFrame c) : (s.section n x).2.2.AtFrame c := h

theorem State.AtFrame.cascade {x : Int} {ns : List Nat} (h : s.AtFrame c) : (s.cascade x ns).2.2.AtFrame c := by
  induction ns generalizing s x with
  | nil => exact h
  | cons n rest ih => exact ih h.section

theorem trStat_free (k : Nat) : ¬ LoopReg (TR_STAT k) := by
  rintro (e | ⟨l, hl, e⟩ | ⟨l, hl, e⟩ | ⟨l, hl, e⟩)
  · unfold TR_STAT LE_FRAME at e; omega
  · unfold TR_STAT LP_OUT at e; omega
  · unfold TR_STAT LP_CFG at e; omega
  · unfold TR_STAT QE_STAT at e; omega

theorem lpU_free (k : Nat) : ¬ LoopReg (LP_U k) := by
  rintro (e | ⟨l, hl, e⟩ | ⟨l, hl, e⟩ | ⟨l, hl, e⟩)
  · unfold LP_U LE_FRAME at e; omega
  · unfold LP_U LP_OUT at e; omega
  · unfold LP_U LP_CFG at e; omega
  · unfold LP_U QE_STAT at e; omega

theorem leCnt_free {k : Nat} (h : k < 2) : ¬ LoopReg (LE_CNT k) := by
  rintro (e | ⟨l, hl, e⟩ | ⟨l, hl, e⟩ | ⟨l, hl, e⟩)
  · unfold LE_CNT LE_FRAME at e; omega
  · unfold LE_CNT LP_OUT at e; omega
  · unfold LE_CNT LP_CFG at e; omega
  · unfold LE_CNT QE_STAT at e; omega

theorem stCnt_free : ¬ LoopReg (ST_CNT 0) := by
  rintro (e | ⟨l, hl, e⟩ | ⟨l, hl, e⟩ | ⟨l, hl, e⟩)
  · unfold ST_CNT LE_FRAME at e; omega
  · unfold ST_CNT LP_OUT at e; omega
  · unfold ST_CNT LP_CFG at e; omega
  · unfold ST_CNT QE_STAT at e; omega

theorem State.AtFrame.traceStore {k : Nat} {x : Int} (h : s.AtFrame c) : (s.traceStore k x).AtFrame c := by
  unfold State.traceStore
  extract_lets _ _ s1 s2 _ _
  have h1 : s1.AtFrame c := State.AtFrame.setFld h.storeNat (trStat_free k)
  have h2 : s2.AtFrame c := .ite (h1.setFld (trStat_free k)) h1
  exact .ite (h2.onTrace.setFld (trStat_free k)) h2.onTrace

theorem State.AtFrame.traceLoop {l : Nat} {a b u result : Int} {ys : List Int} {plaus : Bool} (h : s.AtFrame c) :
    (s.traceLoop l a b u result ys plaus).2.AtFrame c := by
  unfold State.traceLoop
  refine State.AtFrame.foldl_snd (p := (_, s)) h fun p k h => ?_
  split
  split
  · extract_lets _ n
    split
    · exact State.AtFrame.onTrace h
    · exact (State.AtFrame.traceStore h).onTrace
  · exact h

theorem State.AtFrame.plausible {l : Nat} {a u : Int} (h : s.AtFrame c) : (s.plausible l a u).2.AtFrame c := by
  unfold State.plausible
  extract_lets _ _
  split
  · exact h.onLoop fun _ => rfl
  · split
    · exact h.onLoop fun _ => rfl
    · have counted := ((h.onLoop (k := l) (f := fun x => { x with bad := 0 }) fun _ => rfl).lpFlag (l := l) (f := LP_FLAG_PLAUS)).setEvt
        (n := 1) |>.count (leCnt_free (k := 1) (by decide))
      exact .ite counted.faultCounted.lpFlag.setEvt.fault counted.faultCounted

theorem State.AtFrame.preload {l : Nat} (h : s.AtFrame c) : (s.preload l).AtFrame c := by
  have h1 : (s.onLoop l fun x => { x with preload := false }).AtFrame c := h.onLoop fun _ => rfl
  unfold State.preload
  exact .ite (.ite (h1.foldl fun _ _ h2 => h2.setSecState.setSecState).setSecState h1) h

theorem State.AtFrame.lastY {l : Nat} {ys : List Int} (h : s.AtFrame c) : (s.lastY l ys).2.AtFrame c := by
  unfold State.lastY
  split
  · exact h.draw
  · exact h

theorem State.AtFrame.clampResult {l : Nat} {y : Int} (h : s.AtFrame c) : (s.clampResult l y).2.2.AtFrame c := by
  unfold State.clampResult
  extract_lets lo hi
  split
  · exact h.draw
  · exact h

/-- The evaluation of a loop presents nothing. -/
theorem State.AtFrame.evaluate {l f : Nat} (h : s.AtFrame c) : (s.evaluate l f).2.AtFrame c := by
  unfold State.evaluate
  extract_lets s1 cfg src a b u s2
  have h2 : s2.AtFrame c := h.preload.setReg (lpU_free l)
  clear_value s2
  split
  next e =>
    have h3 := h2.cascade.of_eq₂ e
    extract_lets s4 s5
    have h4 : s4.AtFrame c := h3.count (leCnt_free (by decide))
    have h5 : s5.AtFrame c := .ite (.ite h4 h4.lpFlag.fault) h3
    clear_value s5
    split
    next e =>
      have h6 := h5.lastY.of_eq e
      split
      next e =>
        have h7 := h6.clampResult.of_eq₂ e
        extract_lets s8 s9
        have h9 : s9.AtFrame c := State.AtFrame.onLoop (.ite h7.lpFlag h7) fun _ => rfl
        clear_value s9
        split
        next e =>
          have h10 := h9.plausible.of_eq e
          refine State.AtFrame.traceLoop ?_
          exact h10.onLoop fun _ => rfl

theorem State.AtFrame.spareTests {f : Nat} (h : s.AtFrame c) : (s.spareTests f).AtFrame c := by
  have pass : ∀ {u : State} {key n : Nat}, u.AtFrame c →
      ((u.onSt fun x => { x with next := x.next.set 0 key ((n + 1) % 256) }).count (ST_CNT 0)).AtFrame c :=
    fun hu => State.AtFrame.count hu stCnt_free
  unfold State.spareTests
  extract_lets pass_ ran s1
  have h1 : s1.AtFrame c := by
    unfold s1
    clear_value ran
    split
    · exact pass h
    · exact h
  refine .ite h (.ite h1 ?_)
  split
  · exact pass (u := s1.clearBytes _ _) h1
  · exact h1

theorem State.AtFrame.trigger (h : s.AtFrame c) : s.trigger.AtFrame c := by
  obtain ⟨drawn, -, -⟩ := trigger_fires s
  have le : s.trigger.le.frame = s.le.frame ∧ s.trigger.le.nextAt = s.le.nextAt ∧ s.trigger.le.loops = s.le.loops := by
    unfold State.trigger
    dsimp only
    generalize (if s.fld LE_TRIG LE_TRIG_POST = 0 then 16384 else s.fld LE_TRIG LE_TRIG_POST) = post
    have first : ((s.onLe fun e => { e with fired := true }).setEvt BLK_LE 3).le.frame = s.le.frame ∧
        ((s.onLe fun e => { e with fired := true }).setEvt BLK_LE 3).le.nextAt = s.le.nextAt ∧
        ((s.onLe fun e => { e with fired := true }).setEvt BLK_LE 3).le.loops = s.le.loops := by
      rw [(setEvt_quiet _ _ _).le]
      exact ⟨rfl, rfl, rfl⟩
    generalize (s.onLe fun e => { e with fired := true }).setEvt BLK_LE 3 = u at *
    refine foldl_keeps (fun s t => (s.le.frame = _ ∧ s.le.nextAt = _ ∧ s.le.loops = _) → (t.le.frame = _ ∧ t.le.nextAt = _ ∧ t.le.loops = _))
      (fun _ h => h) (fun _ _ _ h k e => k (h e)) _ (fun v k e => ?_) _ u first
    dsimp only
    split <;> exact e
  refine .trans (s := s) ⟨by rw [drawn.1], by rw [drawn.1], by rw [drawn.1], le.1, le.2.1, fun off hl => drawn.reg fun hm => ?_, fun l => ?_⟩ h
  · rcases List.mem_append.1 hm with hm | hm
    · obtain ⟨k, -, rfl⟩ := List.mem_map.1 hm
      exact trStat_free k hl
    · exact hl.notReport hm
  · rw [State.loopAt, le.2.2, State.loopAt]

end

end Sys2Proof.Machine

namespace Sys2Proof.Machine

/-! ### Sample ticks and presentation (R376, R378) -/

/-- What a loop's sample tick keeps: a frame's state but the output of that loop. -/
def AtFrameBut (s c : State) (l : Nat) : Prop :=
  s.mx = c.mx ∧ s.qe = c.qe ∧ s.lc = c.lc ∧ s.le.frame = c.le.frame ∧ s.le.nextAt = c.le.nextAt ∧
  (∀ off, LoopReg off → off ≠ LP_OUT l → s.reg off = c.reg off) ∧ ∀ k, (s.loopAt k).active = (c.loopAt k).active

theorem State.AtFrame.but {s c : State} (h : s.AtFrame c) (l : Nat) : AtFrameBut s c l := by
  obtain ⟨mx, qe, lc, frame, next, regs, active⟩ := h
  exact ⟨mx, qe, lc, frame, next, fun off ho _ => regs off ho, active⟩

theorem followP_but (s : State) (l : Nat) : AtFrameBut (s.followP l) s l := by
  refine ⟨rfl, rfl, rfl, rfl, rfl, fun off _ ho => reg_setReg_other _ _ _ _ ho, fun k => ?_⟩
  obtain ⟨-, -, active, others, -⟩ := loopClear_shows s l
  unfold State.followP
  rw [loopAt_onLoop]
  split
  · next e => rw [e]; exact active
  · next ne => rw [others k ne]

/-- The line clock's validity depends on registers that a frame keeps. -/
theorem lcValid_congr {s c : State} (lc : s.lc = c.lc) (regs : ∀ q < 10, s.reg (QE_STAT q) = c.reg (QE_STAT q)) :
    s.lcValid = c.lcValid := by
  unfold State.lcValid State.lcSrc State.lcUnit
  rw [lc]
  by_cases unit : c.lc.unit < 10
  · rw [bit_of_reg _ (regs _ unit)]
  · rw [decide_eq_false unit, Bool.and_false, Bool.false_and]
    rfl

theorem sampleTick_but (s : State) {l : Nat} (f : Nat) : AtFrameBut (s.sampleTick l f).2 s l := by
  have set : (s.onLoop l fun x => { x with cfg := s.reg (LP_CFG l) }).AtFrame s := (State.AtFrame.refl s).onLoop fun _ => rfl
  unfold State.sampleTick
  extract_lets u
  change u.AtFrame s at set
  clear_value u
  split
  · obtain ⟨mx, qe, lc, frame, next, regs, active⟩ := set
    obtain ⟨mx', qe', lc', frame', next', regs', active'⟩ := followP_but u l
    generalize u.followP l = w at *
    refine ⟨mx'.trans mx, qe'.trans qe, lc'.trans lc, frame'.trans frame, next'.trans next,
      fun off ho ne => (regs' off ho ne).trans (regs off ho), fun k => ?_⟩
    refine Eq.trans ?_ ((active' k).trans (active k))
    rw [loopAt_onLoop]
    split
    · next e => rw [e]
    · rfl
  · exact set.evaluate.but l

/-- A loop that need not follow P is evaluated, and its output stands. -/
theorem sampleTick_evaluates (s : State) {l : Nat} (f : Nat)
    (tracks : s.lcValid = true ∨ fldGet LP_CFG_QFOLLOW (s.reg (LP_CFG l)) = 0) : (s.sampleTick l f).2.AtFrame s := by
  have set : (s.onLoop l fun x => { x with cfg := s.reg (LP_CFG l) }).AtFrame s := (State.AtFrame.refl s).onLoop fun _ => rfl
  have stays : (s.onLoop l fun x => { x with cfg := s.reg (LP_CFG l) }).loopFollows l = false := by
    unfold State.loopFollows State.lpCfg
    rw [loopAt_onLoop, if_pos rfl]
    dsimp only
    rcases tracks with valid | free
    · rw [lcValid_congr (s := s.onLoop l _) (c := s) rfl fun _ _ => rfl, valid, Bool.not_true, Bool.and_false]
    · rw [free]
      simp
  unfold State.sampleTick
  dsimp only
  rw [stays, if_neg Bool.false_ne_true]
  exact set.evaluate

theorem present_but (s : State) (l f : Nat) : AtFrameBut (s.present l f) s l ∧ ∀ k, k ≠ l → (s.present l f).loopAt k = s.loopAt k := by
  unfold State.present
  split
  · exact ⟨(State.AtFrame.refl s).but l, fun _ _ => rfl⟩
  · split
    · refine ⟨followP_but s l, fun k hk => ?_⟩
      unfold State.followP
      rw [loopAt_onLoop, if_neg hk]
      exact (loopClear_shows s l).2.2.2.1 k hk
    · extract_lets due u
      have cut : u.AtFrame s := (State.AtFrame.refl s).onLoop fun _ => rfl
      have others : ∀ k, k ≠ l → u.loopAt k = s.loopAt k := fun k hk => (loopAt_onLoop s l k _).trans (if_neg hk)
      clear_value due u
      split
      · obtain ⟨mx, qe, lc, frame, next, regs, active⟩ := cut
        exact ⟨⟨mx, qe, lc, frame, next, fun off ho ne => (reg_setReg_other _ _ _ _ ne).trans (regs off ho), active⟩, others⟩
      · exact ⟨cut.but l, others⟩

/-- R376: the result that is due is presented. -/
theorem present_shows {s : State} {l f : Nat} {r : Nat × Word} (active : (s.loopAt l).active = true)
    (tracks : s.loopFollows l = false) (one : (s.loopAt l).results = [r]) (due : r.1 ≤ f) :
    (s.present l f).reg (LP_OUT l) = r.2 := by
  unfold State.present
  rw [active, Bool.not_true, if_neg Bool.false_ne_true, tracks, if_neg Bool.false_ne_true, one]
  have kept : ([r].filter fun r => decide (r.1 ≤ f)) = [r] := List.filter_cons_of_pos (by simpa using due)
  dsimp only
  rw [kept]
  exact reg_setReg_same _ _ _

/-! ### The outputs through a frame -/

/-- A frame's state, in which some loop's output stands. -/
def Presented (s c : State) (l : Nat) (v : Word) : Prop :=
  s.mx = c.mx ∧ s.qe = c.qe ∧ s.lc = c.lc ∧ s.le.frame = c.le.frame ∧ s.le.nextAt = c.le.nextAt ∧
  (∀ off, LoopReg off → (∀ k, off ≠ LP_OUT k) → s.reg off = c.reg off) ∧ (∀ k, (s.loopAt k).active = (c.loopAt k).active) ∧
  s.reg (LP_OUT l) = v

theorem LP_OUT_inj {l k : Nat} (h : LP_OUT l = LP_OUT k) : l = k := by
  unfold LP_OUT at h
  omega

theorem Presented.but {s t c : State} {l k : Nat} {v : Word} (hl : l < 32) (h : Presented s c l v) (b : AtFrameBut t s k) (ne : l ≠ k) :
    Presented t c l v := by
  obtain ⟨mx, qe, lc, frame, next, regs, active, out⟩ := h
  obtain ⟨mx', qe', lc', frame', next', regs', active'⟩ := b
  exact ⟨mx'.trans mx, qe'.trans qe, lc'.trans lc, frame'.trans frame, next'.trans next,
    fun off ho apart => (regs' off ho (apart k)).trans (regs off ho apart), fun j => (active' j).trans (active j),
    (regs' _ (.inr (.inl ⟨l, hl, rfl⟩)) fun e => ne (LP_OUT_inj e)).trans out⟩

theorem Presented.at {s t c : State} {l : Nat} {v : Word} (hl : l < 32) (h : Presented s c l v) (b : t.AtFrame s) : Presented t c l v := by
  obtain ⟨mx, qe, lc, frame, next, regs, active, out⟩ := h
  obtain ⟨mx', qe', lc', frame', next', regs', active'⟩ := b
  exact ⟨mx'.trans mx, qe'.trans qe, lc'.trans lc, frame'.trans frame, next'.trans next,
    fun off ho apart => (regs' off ho).trans (regs off ho apart), fun j => (active' j).trans (active j),
    (regs' _ (.inr (.inl ⟨l, hl, rfl⟩))).trans out⟩

theorem Presented.step {s t c : State} {l k : Nat} {v : Word} (hl : l < 32) (h : Presented s c l v) (b : AtFrameBut t s k)
    (own : l = k → t.AtFrame s) : Presented t c l v := by
  by_cases e : l = k
  · exact h.at hl (own e)
  · exact h.but hl b e

/-- All loops presented: the frame's other state stands, and the result that is due shows. -/
theorem presentAll_shows (s : State) (f n : Nat) {l : Nat} (hl : l < 32) {r : Nat × Word} :
    let t := s.each n fun l s => s.present l f
    (∀ k, n ≤ k → t.loopAt k = s.loopAt k) ∧
    ∃ v, Presented t s l v ∧ (l < n → (s.loopAt l).active = true → s.loopFollows l = false → (s.loopAt l).results = [r] → r.1 ≤ f → v = r.2) := by
  induction n with
  | zero => exact ⟨fun _ _ => rfl, _, ⟨rfl, rfl, rfl, rfl, rfl, fun _ _ _ => rfl, fun _ => rfl, rfl⟩, fun h => absurd h (Nat.not_lt_zero l)⟩
  | succ n ih =>
    obtain ⟨rest, v, presented, shows_⟩ := ih
    rw [each_succ]
    generalize (s.each n fun l s => s.present l f) = u at *
    obtain ⟨but, others⟩ := present_but u n f
    refine ⟨fun k hk => (others k (by omega)).trans (rest k (by omega)), ?_⟩
    by_cases same : l = n
    · subst same
      have own := rest l le_rfl
      refine ⟨(u.present l f).reg (LP_OUT l), ?_, fun _ active tracks one due => present_shows ?_ ?_ ?_ due⟩
      · obtain ⟨mx, qe, lc, frame, next, regs, act, -⟩ := presented
        obtain ⟨mx', qe', lc', frame', next', regs', act'⟩ := but
        exact ⟨mx'.trans mx, qe'.trans qe, lc'.trans lc, frame'.trans frame, next'.trans next,
          fun off ho apart => (regs' off ho (apart l)).trans (regs off ho apart), fun j => (act' j).trans (act j), rfl⟩
      · rw [own]; exact active
      · obtain ⟨-, -, lc, -, -, regs, -, -⟩ := presented
        unfold State.loopFollows State.lpCfg at tracks ⊢
        rw [own, lcValid_congr lc fun q hq => regs _ (.inr (.inr (.inr ⟨q, hq, rfl⟩))) fun k => by unfold QE_STAT LP_OUT; omega]
        exact tracks
      · rw [own]; exact one
    · refine ⟨v, presented.but hl but same, fun hln active tracks one due => shows_ (by omega) active tracks one due⟩

/-- The loops that are due, evaluated in their order. -/
def State.sampleAll (s : State) (f : Nat) (ls : List Nat) (b : Bool) : Bool × State :=
  ls.foldl (fun (hit, s) l =>
    if (s.loopAt l).active && lpDue (s.lpCfg l) f then
      let (h, s) := s.sampleTick l f
      (hit || h, s)
    else (hit, s)) (b, s)

theorem sampleAll_presented {c : State} (f : Nat) (ls : List Nat) {l : Nat} (hl : l < 32) {v : Word} (s : State) (b : Bool)
    (h : Presented s c l v) (tracks : c.lcValid = true ∨ fldGet LP_CFG_QFOLLOW (c.reg (LP_CFG l)) = 0) :
    Presented (s.sampleAll f ls b).2 c l v := by
  unfold State.sampleAll
  induction ls generalizing s b with
  | nil => exact h
  | cons k ls ih =>
    rw [List.foldl_cons]
    dsimp only
    split
    · refine ih _ _ (h.step hl (sampleTick_but s (l := k) f) fun e => sampleTick_evaluates s f ?_)
      subst e
      obtain ⟨-, -, lc, -, -, regs, -, -⟩ := h
      rw [lcValid_congr lc fun q hq => regs _ (.inr (.inr (.inr ⟨q, hq, rfl⟩))) fun k => by unfold QE_STAT LP_OUT; omega,
        regs _ (.inr (.inr (.inl ⟨l, hl, rfl⟩))) fun k => by unfold LP_CFG LP_OUT; omega]
      exact tracks
    · exact ih _ _ h

/-- Without a loop of interest: what the evaluations keep. -/
theorem sampleAll_keeps (f : Nat) (ls : List Nat) (s : State) (b : Bool) :
    let t := (s.sampleAll f ls b).2
    t.mx = s.mx ∧ t.qe = s.qe ∧ t.lc = s.lc ∧ t.le.frame = s.le.frame ∧ t.le.nextAt = s.le.nextAt ∧ t.reg LE_FRAME = s.reg LE_FRAME := by
  unfold State.sampleAll
  induction ls generalizing s b with
  | nil => exact ⟨rfl, rfl, rfl, rfl, rfl, rfl⟩
  | cons k ls ih =>
    rw [List.foldl_cons]
    dsimp only
    split
    · obtain ⟨mx, qe, lc, frame, next, regs, -⟩ := sampleTick_but s (l := k) f
      obtain ⟨mx', qe', lc', frame', next', reg'⟩ := ih (s.sampleTick k f).2 (b || (s.sampleTick k f).1)
      exact ⟨mx'.trans mx, qe'.trans qe, lc'.trans lc, frame'.trans frame, next'.trans next,
        reg'.trans (regs _ (.inl rfl) (by unfold LE_FRAME LP_OUT; omega))⟩
    · exact ih s b

/-! ### The frame boundary (R369) -/

theorem leBoundary_waits {s : State} (h : s.le.running = false ∨ s.now < s.le.nextAt) : s.leBoundary = s := by
  unfold State.leBoundary
  refine if_pos ?_
  rcases h with still | early
  · rw [still]; rfl
  · rw [decide_eq_true early, Bool.or_true]

theorem leBoundary_due {s : State} (running : s.le.running = true) (due : s.le.nextAt ≤ s.now) :
    (!s.le.running || decide (s.now < s.le.nextAt)) = false := by
  rw [running, decide_eq_false (by omega)]
  rfl

theorem leBoundary_stops {s : State} (running : s.le.running = true) (due : s.le.nextAt ≤ s.now)
    (off : s.bit LE_CTRL LE_CTRL_EN = false) :
    ∃ t, exec .loopFrame s = .next t ∧ t.le.running = false ∧
      (∀ l, l < 32 → t.reg (LP_OUT l) = 0 ∧ (t.loopAt l).results = [] ∧
        (t.loopAt l).active = ((s.loopAt l).active && lpOn (s.reg (LP_CFG l)))) ∧
      t = { s with regs := t.regs, le := t.le } ∧ RegsBut s t ((List.range 32).map LP_OUT) := by
  obtain ⟨u, hu⟩ : ∃ u, (s.onLe fun e => { e with running := false }) = u := ⟨_, rfl⟩
  have run : exec .loopFrame s = .next u.engineStop := by
    subst hu
    change Host.Outcome.next s.leBoundary = _
    unfold State.leBoundary
    rw [leBoundary_due running due, if_neg Bool.false_ne_true, off, Bool.not_false, if_pos rfl]
  obtain ⟨stopped, -, eq, regs⟩ := engineStop_stops u
  have loops : ∀ l, u.loopAt l = s.loopAt l := fun l => by rw [← hu]; rfl
  have uregs : u.regs = s.regs := by rw [← hu]; rfl
  generalize u.engineStop = t at *
  refine ⟨t, run, ?_, fun l hl => ?_, ?_, fun off ho => ?_⟩
  · rw [eq, ← hu]
    rfl
  · have := stopped l hl
    rwa [loops, reg_of_regs uregs] at this
  · rw [eq, ← hu]
    rfl
  · rw [regs off fun l hl e => ho (List.mem_map.2 ⟨l, List.mem_range.2 hl, e.symm⟩), reg_of_regs uregs]

theorem leBoundary_begins {s : State} (running : s.le.running = true) (due : s.le.nextAt ≤ s.now)
    (on : s.bit LE_CTRL LE_CTRL_EN = true) :
    ∃ t, exec .loopFrame s = .next t ∧ t.le.frame = s.le.frame + 1 ∧
      t.le.nextAt = (if s.le.frame = 0 then s.now else s.le.nextAt) + s.leFrame ∧ t.reg LE_FRAME = BitVec.ofNat 32 s.le.frame ∧
      t.mx = s.mx ∧ t.qe = s.qe ∧ t.lc = s.lc ∧
      (∀ l r, l < 32 → (s.loopAt l).active = true → s.loopFollows l = false →
        s.lcValid = true ∨ fldGet LP_CFG_QFOLLOW (s.reg (LP_CFG l)) = 0 → (s.loopAt l).results = [r] → r.1 ≤ s.le.frame →
        t.reg (LP_OUT l) = r.2) := by
  obtain ⟨f, hf⟩ : ∃ f, s.le.frame = f := ⟨_, rfl⟩
  obtain ⟨a, ha⟩ : ∃ a, (s.setReg LE_FRAME (BitVec.ofNat 32 f)).onLe (fun e => { e with frame := f + 1, nextAt := (if f = 0 then (s.setReg LE_FRAME (BitVec.ofNat 32 f)).now else e.nextAt) + (s.setReg LE_FRAME (BitVec.ofNat 32 f)).leFrame }) = a := ⟨_, rfl⟩
  obtain ⟨b, hb⟩ : ∃ b, (a.each 32 fun l s => s.present l f) = b := ⟨_, rfl⟩
  obtain ⟨p, hp⟩ : ∃ p, b.sampleAll f (List.range 32) false = p := ⟨_, rfl⟩
  have run : exec .loopFrame s = .next ((if p.1 && !p.2.le.fired then p.2.trigger else p.2).spareTests f) := by
    subst hp hb ha hf
    change Host.Outcome.next s.leBoundary = _
    unfold State.leBoundary
    rw [leBoundary_due running due, if_neg Bool.false_ne_true, on, Bool.not_true, if_neg Bool.false_ne_true]
    unfold State.sampleAll
    generalize List.range 32 = ls
    dsimp only
  have last : ((if p.1 && !p.2.le.fired then p.2.trigger else p.2).spareTests f).AtFrame p.2 :=
    (State.AtFrame.ite (State.AtFrame.refl p.2).trigger (State.AtFrame.refl p.2)).spareTests
  generalize (if p.1 && !p.2.le.fired then p.2.trigger else p.2).spareTests f = t at *
  have frameA : a.le.frame = f + 1 := by rw [← ha]; rfl
  have leFrame : (s.setReg LE_FRAME (BitVec.ofNat 32 f)).leFrame = s.leFrame := by
    unfold State.leFrame
    rw [fld_of_reg _ (reg_setReg_other _ _ _ _ (by decide))]
  have nextA : a.le.nextAt = (if f = 0 then s.now else s.le.nextAt) + s.leFrame := by
    rw [← ha, ← leFrame]
    rfl
  have shownA : a.reg LE_FRAME = BitVec.ofNat 32 f := by rw [← ha]; exact reg_setReg_same _ _ _
  have regsA : ∀ off, off ≠ LE_FRAME → a.reg off = s.reg off := fun off ho => by rw [← ha]; exact reg_setReg_other _ _ _ _ ho
  have loopsA : ∀ l, a.loopAt l = s.loopAt l := fun l => by rw [← ha]; rfl
  have lcA : a.lc = s.lc := by rw [← ha]; rfl
  have mxA : a.mx = s.mx := by rw [← ha]; rfl
  have qeA : a.qe = s.qe := by rw [← ha]; rfl
  have validA : a.lcValid = s.lcValid := lcValid_congr lcA fun q _ => regsA _ (by unfold QE_STAT LE_FRAME; omega)
  have followsA : ∀ l, a.loopFollows l = s.loopFollows l := fun l => by
    unfold State.loopFollows State.lpCfg
    rw [loopsA, validA]
  obtain ⟨-, v0, base, -⟩ := presentAll_shows a f 32 (l := 0) (by decide) (r := (0, 0))
  rw [hb] at base
  obtain ⟨mxB, qeB, lcB, frameB, nextB, regsB, -, -⟩ := base
  obtain ⟨mxP, qeP, lcP, frameP, nextP, shownP⟩ := sampleAll_keeps f (List.range 32) b false
  rw [hp] at mxP qeP lcP frameP nextP shownP
  obtain ⟨mxT, qeT, lcT, frameT, nextT, regsT, -⟩ := last
  have shownB : b.reg LE_FRAME = a.reg LE_FRAME := regsB _ (.inl rfl) fun k => by unfold LE_FRAME LP_OUT; omega
  refine ⟨t, run, ?_, ?_, ?_, ?_, ?_, ?_, fun l r hl active tracks free one early => ?_⟩
  · rw [frameT, frameP, frameB, frameA, hf]
  · rw [nextT, nextP, nextB, nextA, hf]
  · rw [regsT _ (.inl rfl), shownP, shownB, shownA, hf]
  · rw [mxT, mxP, mxB, mxA]
  · rw [qeT, qeP, qeB, qeA]
  · rw [lcT, lcP, lcB, lcA]
  · obtain ⟨-, v, presented, value⟩ := presentAll_shows a f 32 hl (r := r)
    rw [hb] at presented
    have after := sampleAll_presented f (List.range 32) hl b false presented (by
      rw [validA, regsA _ (by unfold LP_CFG LE_FRAME; omega)]
      exact free)
    rw [hp] at after
    obtain ⟨-, -, -, -, -, -, -, out⟩ := after
    rw [regsT _ (.inr (.inl ⟨l, hl, rfl⟩)), out]
    exact value hl (by rw [loopsA]; exact active) (by rw [followsA]; exact tracks) (by rw [loopsA]; exact one) (hf ▸ early)

theorem loops_admitted_and_framed : loopsAreAdmittedAndFramed :=
  ⟨fun _ _ _ on => ⟨loopEnable_starts on, loopEnable_stays on, loopEnable_refused on⟩, fun _ _ _ off => loopDisable_stops off,
    fun _ _ => ⟨engineEnable_begins, engineEnable_keepsFrame⟩,
    fun _ => ⟨fun h => congrArg Host.Outcome.next (leBoundary_waits h),
      fun running due => ⟨leBoundary_stops running due, leBoundary_begins running due⟩⟩, qRead_reads⟩

/-- Settles O51: loops are admitted and stopped, frames present their results, and the trace runs. -/
theorem loopEngineRunsItsFrames : Obligations.LoopEngineRunsItsFrames := ⟨loops_admitted_and_framed, section_states_and_trace⟩

end Sys2Proof.Machine

/-!
O40: DRAM training, delay entries, refresh and ZQ calibration.
-/

namespace Sys2Proof.Machine

/-! ### A register of a family of several indices (R3) -/

/-- The span of a family's offsets. -/
def dimsEnd : List (Nat × Nat) → Nat
  | [] => 1
  | (stride, count) :: _ => stride * count

theorem lt_dimsEnd {dims : List (Nat × Nat)} {d : Nat} (spaced : ∀ x ∈ dims, 0 < x.1) (h : dimsCover dims d = true) :
    d < dimsEnd dims := by
  cases dims with
  | nil =>
    have : d = 0 := by simpa [dimsCover] using h
    simp [dimsEnd, this]
  | cons x rest =>
    obtain ⟨stride, count⟩ := x
    have lt : d / stride < count := by simpa using (Bool.and_eq_true_iff.1 h).2
    exact ((Nat.div_lt_iff_lt_mul (spaced _ List.mem_cons_self)).1 lt).trans_eq (Nat.mul_comm _ _)

/-- The register of a block's last family. -/
theorem regDef_last {off b : Nat} {front : List RegDef} {d : RegDef} (block : off / 0x100000 = b)
    (regs : blockRegs b = front ++ [d]) (spaced : ∀ x ∈ front, ∀ y ∈ x.dims, 0 < y.1)
    (below : ∀ x ∈ front, x.base + dimsEnd x.dims ≤ off) (base : d.base ≤ off)
    (covers : dimsCover d.dims (off - d.base) = true) : regDef? off = some d := by
  unfold regDef?
  rw [block, regs, List.find?_append]
  have noFront : front.find? (fun d => decide (d.base ≤ off) && dimsCover d.dims (off - d.base)) = none := by
    rw [List.find?_eq_none]
    intro x hx covered
    rw [Bool.and_eq_true_iff, decide_eq_true_eq] at covered
    have := lt_dimsEnd (spaced x hx) covered.2
    have := below x hx
    omega
  rw [noFront, Option.none_or, List.find?_cons_of_pos]
  rw [covers, decide_eq_true base]
  rfl

theorem regDef_MC_DELAY {c p r e : Nat} (hc : c < 8) (hp : p < 4) (hr : r < 4) (he : e < 116) :
    ∃ d, regDef? (MC_DELAY c p r e) = some d ∧ d.rw = 0x1FF01FF ∧ d.rwl = 0 ∧ d.w1c = 0 := by
  obtain ⟨o, ho⟩ : ∃ o, 0x10000 * c + 0x4000 * p + 0x1000 * r + 4 * e = o := ⟨_, rfl⟩
  have off : MC_DELAY c p r e = 0xF80000 + o := by unfold MC_DELAY; omega
  have d1 : o / 0x10000 = c := by omega
  have m1 : o % 0x10000 = 0x4000 * p + 0x1000 * r + 4 * e := by omega
  refine ⟨_, regDef_last (b := 0xF) (front := mcRegs.dropLast)
    (d := ⟨"MC_DELAY", 0xF80000, [(0x10000, 8), (0x4000, 4), (0x1000, 4), (0x4, 116)], 0x1FF01FF, 0x0, 0x0, 0x0, 0x0⟩)
    (by omega) rfl (by decide) (fun x hx => ?_) (by rw [off]; exact Nat.le_add_right _ _) ?_, rfl, rfl, rfl⟩
  · have : x.base + dimsEnd x.dims ≤ 0xF80000 := (by decide : ∀ x ∈ mcRegs.dropLast, x.base + dimsEnd x.dims ≤ 0xF80000) x hx
    omega
  · have rel : MC_DELAY c p r e - 0xF80000 = o := by omega
    dsimp only
    rw [rel]
    simp only [dimsCover, m1, d1, Bool.and_eq_true, decide_eq_true_eq, beq_iff_eq]
    omega

/-! ### The controller's own state -/

section
variable {s t : State} {l : List Nat}

theorem mcOnly_refl (s : State) (l : List Nat) : mcOnly s s l := Frame.refl _ _ _

theorem mcOnly_trans {u : State} (h : mcOnly s t l) (k : mcOnly t u l) : mcOnly s u l := by
  obtain ⟨same, regs⟩ := h
  obtain ⟨same', regs'⟩ := k
  refine ⟨?_, fun off ho => (regs' off ho).trans (regs off ho)⟩
  unfold Quiet at *
  rw [same', same]

theorem mcOnly_of_frame {u : State} (h : mcOnly s t l) (k : Frame t u l [BLK_MC]) : mcOnly s u l := by
  refine mcOnly_trans h ?_
  unfold mcOnly
  rw [k.1.mc]
  exact k

theorem mcOnly_inMc {u : State} (h : mcOnly s t l) (k : InMc t u) : mcOnly s u l := by
  refine mcOnly_trans h ?_
  unfold InMc at k
  rw [k]
  exact ⟨rfl, fun _ _ => rfl⟩

theorem mcOnly_setReg {off : Nat} {v : Word} (h : mcOnly s t l) (ho : off ∈ l) : mcOnly s (t.setReg off v) l :=
  Frame.setReg h ho

theorem mcOnly_setFld {off x : Nat} {f : Fld} (h : mcOnly s t l) (ho : off ∈ l) : mcOnly s (t.setFld off f x) l :=
  Frame.setFld h ho

theorem mcOnly_setEvt {n : Nat} (h : mcOnly s t l) : mcOnly s (t.setEvt BLK_MC n) l :=
  mcOnly_of_frame h ((Frame.refl t _ _).setEvt (by simp))

theorem mcOnly_mono {l' : List Nat} (h : mcOnly s t l) (hl : l ⊆ l') : mcOnly s t l' := Frame.mono h hl (List.Subset.refl _)

end

theorem chanAt_onChan (s : State) (c k : Nat) (f : ChanSt → ChanSt) :
    (s.onChan c f).chanAt k = if k = c then f (s.chanAt c) else s.chanAt k := Tbl.get_upd _ _ _ _ _

theorem rankAt_onRank (s : State) (c k : Nat) (f : RankSt → RankSt) :
    (s.onRank c f).rankAt k = if k = c then f (s.rankAt c) else s.rankAt k := Tbl.get_upd _ _ _ _ _

theorem mcNotReport {off : Nat} (lo : 0xF00100 ≤ off) (hi : off < 0x1000000) : off ∉ reportRegs [BLK_MC] :=
  notMem_reportRegs_one (b := BLK_MC) 0xF00020 rfl (by omega)

/-! ### Training commands (R290, R292) -/

theorem regDef_MC_TRN_CMD : ∀ c : Fin 8, ∃ d, regDef? (MC_TRN_CMD c) = some d ∧ d.rw = 0xFFFFFF30 ∧ d.rwl = 0 ∧ d.w1c = 0 := by
  decide

theorem trnCmd_typed (s : State) (c : Fin 8) (v : Word) :
    s.typedWrite (MC_TRN_CMD c) v = s.setReg (MC_TRN_CMD c) (merged 0xFFFFFF30 (s.reg (MC_TRN_CMD c)) v) := by
  obtain ⟨d, hd, rw_, rwl, w1c⟩ := regDef_MC_TRN_CMD c
  rw [typedWrite_plain s v hd rwl w1c, rw_]

/-- The gather that a command begins. -/
def State.gatherOf (s : State) (op : Nat) (v : Word) : GatherSt :=
  { op := op, rank := fldGet MC_TRN_CMD_RANK v, point := s.fld MC_FREQ_CMD MC_FREQ_CMD_CUR,
    start := fldGet MC_TRN_CMD_START v, step := max 1 (fldGet MC_TRN_CMD_STEP v),
    count := fldGet MC_TRN_CMD_COUNT_M1 v + 1, stale := false }

/-- A channel's training command, by what stands in its way. -/
theorem trnCommand_eq (s : State) (c : Fin 8) {op : Nat} (hop : op < 7) (v : Word) :
    ∃ u : State, u = { s with regs := u.regs } ∧ RegsBut s u [MC_TRN_CMD c] ∧
      s.trnCommand c op v =
        if s.bit (MC_TRN_STAT c) MC_TRN_STAT_BUSY = true then u
        else if op ≤ 3 ∧ s.bit MC_CFG MC_CFG_ENABLE = true then u.setFld (MC_TRN_STAT c) MC_TRN_STAT_RESULT 3
        else ((u.setFld (MC_TRN_STAT c) MC_TRN_STAT_BUSY 1).setFld (MC_TRN_STAT c) MC_TRN_STAT_DONE 0).onChan c fun x =>
          { x with gather := some (s.gatherOf op v) } := by
  obtain ⟨w, hw⟩ : ∃ w, fldPut MC_TRN_CMD_GO 1 (fldPut MC_TRN_CMD_OP op v) = w := ⟨_, rfl⟩
  have go : fldGet MC_TRN_CMD_GO w = 1 := by
    rw [← hw, fldGet_fldPut_same _ _ _ (by decide)]
    rfl
  have opOf : fldGet MC_TRN_CMD_OP w = op := by
    rw [← hw, fldGet_fldPut_other _ _ _ _ (by decide), fldGet_fldPut_same _ _ _ (by decide)]
    exact Nat.mod_eq_of_lt (by change op < 8; omega)
  have kept : ∀ f : Fld, (f.lo + f.w ≤ 8 ∧ 1 ≤ f.lo ∨ 11 ≤ f.lo) → fldGet f w = fldGet f v := fun f h => by
    rw [← hw, fldGet_fldPut_other _ _ _ _ (by unfold MC_TRN_CMD_GO; dsimp only; omega),
      fldGet_fldPut_other _ _ _ _ (by unfold MC_TRN_CMD_OP; dsimp only; omega)]
  obtain ⟨u, hu⟩ : ∃ u, s.typedWrite (MC_TRN_CMD c) w = u := ⟨_, rfl⟩
  have only : u = { s with regs := u.regs } := by rw [← hu, trnCmd_typed]; rfl
  have but : RegsBut s u [MC_TRN_CMD c] := by
    rw [← hu, trnCmd_typed]
    exact (RegsBut.refl s _).setReg (by simp)
  have same : ∀ off, off ≠ MC_TRN_CMD c → u.reg off = s.reg off := fun off ho => but off (by simpa using ho)
  have busy : u.bit (MC_TRN_STAT c) MC_TRN_STAT_BUSY = s.bit (MC_TRN_STAT c) MC_TRN_STAT_BUSY :=
    bit_of_reg _ (same _ (by unfold MC_TRN_STAT MC_TRN_CMD; omega))
  have enable : u.bit MC_CFG MC_CFG_ENABLE = s.bit MC_CFG MC_CFG_ENABLE :=
    bit_of_reg _ (same _ (by unfold MC_CFG MC_TRN_CMD; omega))
  have stat : ∀ f x, (u.setFld (MC_TRN_STAT c) f x).fld MC_FREQ_CMD MC_FREQ_CMD_CUR = u.fld MC_FREQ_CMD MC_FREQ_CMD_CUR := fun f x =>
    fld_setFld_other _ _ _ _ _ _ (by unfold MC_FREQ_CMD MC_TRN_STAT; omega)
  have point : ((u.setFld (MC_TRN_STAT c) MC_TRN_STAT_BUSY 1).setFld (MC_TRN_STAT c) MC_TRN_STAT_DONE 0).fld MC_FREQ_CMD
      MC_FREQ_CMD_CUR = s.fld MC_FREQ_CMD MC_FREQ_CMD_CUR := by
    rw [fld_setFld_other _ _ _ _ _ _ (by unfold MC_FREQ_CMD MC_TRN_STAT; omega), stat]
    exact fld_of_reg _ (same _ (by unfold MC_FREQ_CMD MC_TRN_CMD; omega))
  refine ⟨u, only, but, ?_⟩
  unfold State.trnCommand State.trnCmdWrite
  dsimp only
  rw [hw, hu, go, opOf, busy, enable, point, kept MC_TRN_CMD_RANK (by decide), kept MC_TRN_CMD_START (by decide),
    kept MC_TRN_CMD_STEP (by decide), kept MC_TRN_CMD_COUNT_M1 (by decide)]
  have not7 : ¬ op = 7 := by omega
  simp only [show ¬ (1 : Nat) = 0 by decide, false_or, not7]
  rfl

theorem trainsBy_command {i : Fin 8 → BitVec 32 → Instr} {op : Nat} (hop : op < 7)
    (run : ∀ c v s, exec (i c v) s = .next (s.trnCommand c op v)) : trainsBy i op := by
  intro s c v
  obtain ⟨u, only, but, eq⟩ := trnCommand_eq s c hop v
  have first : mcOnly s u [MC_TRN_CMD c, MC_TRN_STAT c] := by
    refine ⟨?_, but.mono (by intro x hx; simp at hx; simp [hx])⟩
    unfold Quiet
    rw [only]
  have cmdOnly : mcOnly s u [MC_TRN_CMD c] := by
    refine ⟨?_, but.mono (List.subset_append_left _ _)⟩
    unfold Quiet
    rw [only]
  have mc : u.mc = s.mc := by rw [only]
  refine ⟨fun idle low on => ?_, fun idle may => ?_, fun busy => ?_⟩
  · rw [idle, if_neg Bool.false_ne_true, if_pos ⟨low, on⟩] at eq
    refine ⟨_, (run c v s).trans (congrArg _ eq), fld_setFld_same _ _ _ _ (by decide), mc, mcOnly_setFld first (by simp)⟩
  · have free : ¬ (op ≤ 3 ∧ s.bit MC_CFG MC_CFG_ENABLE = true) := by
      rintro ⟨low, on⟩
      rcases may with h | h
      · omega
      · rw [on] at h; exact absurd h (by decide)
    rw [idle, if_neg Bool.false_ne_true, if_neg free] at eq
    refine ⟨_, (run c v s).trans (congrArg _ eq), ?_, fld_setFld_same _ _ _ _ (by decide), ⟨s.gatherOf op v, ?_, rfl, rfl, rfl, rfl, rfl⟩,
      mcOnly_inMc (mcOnly_setFld (mcOnly_setFld first (by simp)) (by simp)) (onChan_inMc _ _ _)⟩
    · change ((u.setFld (MC_TRN_STAT c) MC_TRN_STAT_BUSY 1).setFld (MC_TRN_STAT c) MC_TRN_STAT_DONE 0).bit _ _ = true
      rw [State.bit, fld_setFld_field _ _ _ _ _ (by decide)]
      exact bit_setFld_same u (MC_TRN_STAT c) MC_TRN_STAT_BUSY true rfl (by decide)
    · rw [chanAt_onChan, if_pos rfl]
  · rw [if_pos busy] at eq
    exact ⟨u, (run c v s).trans (congrArg _ eq), mc, cmdOnly⟩

end Sys2Proof.Machine

namespace Sys2Proof.Machine

/-! ### Delay entries (R295) -/

theorem mcDelay_typed (s : State) {c p r e : Nat} (hc : c < 8) (hp : p < 4) (hr : r < 4) (he : e < 116) (v : Word) :
    s.typedWrite (MC_DELAY c p r e) v =
      s.setReg (MC_DELAY c p r e) (merged 0x1FF01FF (s.reg (MC_DELAY c p r e)) v) := by
  obtain ⟨d, hd, rw_, rwl, w1c⟩ := regDef_MC_DELAY hc hp hr he
  rw [typedWrite_plain s v hd rwl w1c, rw_]

theorem delayEntry_takes (s : State) (c : Fin 8) (p r : BitVec 2) (e : Fin 116) (v : Word) :
    ∃ t, exec (.delayEntryWrite c p r e v) s = .next t ∧
      mcOnly s t [MC_DELAY c p.toNat r.toNat e] ∧
      (if s.srOf c r.toNat = srInSr ∨ s.bit MC_CFG MC_CFG_ENABLE = false then
        t.mc.delays.get 0 (MC_DELAY c p.toNat r.toNat e) = t.reg (MC_DELAY c p.toNat r.toNat e)
      else t.mc = s.mc) := by
  obtain ⟨a, ha⟩ : ∃ a, MC_DELAY c p.toNat r.toNat e = a := ⟨_, rfl⟩
  obtain ⟨u, hu⟩ : ∃ u, s.setReg a (merged 0x1FF01FF (s.reg a) v) = u := ⟨_, rfl⟩
  have typed : s.typedWrite a v = u := by
    rw [← hu, ← ha]
    exact mcDelay_typed s c.isLt p.isLt r.isLt e.isLt v
  have far : 0xF80000 ≤ a := by rw [← ha]; unfold MC_DELAY; omega
  have same : ∀ off, off < 0xF80000 → u.reg off = s.reg off := fun off ho => by
    rw [← hu]
    exact reg_setReg_other _ _ _ _ (by omega)
  have sr : u.srOf c r.toNat = s.srOf c r.toNat := fld_of_reg _ (same _ (by unfold MC_RK_STAT; omega))
  have enable : u.bit MC_CFG MC_CFG_ENABLE = s.bit MC_CFG MC_CFG_ENABLE := bit_of_reg _ (same _ (by decide))
  have only : mcOnly s u [a] := hu ▸ mcOnly_setReg (mcOnly_refl s _) (by simp)
  have run : exec (.delayEntryWrite c p r e v) s = .next
      (if s.srOf c r.toNat = srInSr ∨ s.bit MC_CFG MC_CFG_ENABLE = false then
        u.onMc fun m => { m with delays := m.delays.set 0 a (u.reg a) } else u) := by
    rw [← sr, ← enable, ← typed, ← ha]
    rfl
  rw [ha]
  refine ⟨_, run, ?_, ?_⟩
  · split
    · exact mcOnly_inMc only rfl
    · exact only
  · split
    · exact Tbl.get_set_same _ _ _ _
    · rw [← hu]; rfl

/-! ### Refresh (R290, R295) -/

/-- Delay entries have come into effect: those of a list of addresses, and no other has another value than its register
gives. -/
def DelaysApplied (s t : State) (done : Nat → Prop) : Prop :=
  t = { s with mc := { s.mc with delays := t.mc.delays } } ∧ (∀ a, done a → t.mc.delays.get 0 a = s.reg a)

theorem DelaysApplied.set {s t : State} {done : Nat → Prop} (h : DelaysApplied s t done) (a : Nat) :
    DelaysApplied s (t.onMc fun m => { m with delays := m.delays.set 0 a (t.reg a) }) fun b => done b ∨ b = a := by
  obtain ⟨eq, applied⟩ := h
  have reg : t.reg a = s.reg a := by rw [eq]; rfl
  refine ⟨by conv_lhs => rw [eq]
             rw [eq]; rfl, fun b hb => ?_⟩
  refine (Tbl.get_set _ _ _ _ _).trans ?_
  by_cases same : b = a
  · rw [if_pos same, same, reg]
  · rw [if_neg same]
    exact applied b (hb.resolve_right same)

theorem DelaysApplied.mono {s t : State} {done done' : Nat → Prop} (h : DelaysApplied s t done) (k : ∀ a, done' a → done a) :
    DelaysApplied s t done' := ⟨h.1, fun a ha => h.2 a (k a ha)⟩

theorem applyEntries_applied {s t : State} {done : Nat → Prop} (h : DelaysApplied s t done) (c p r n : Nat) :
    DelaysApplied s (t.each n fun e s => s.onMc fun m => { m with delays := m.delays.set 0 (MC_DELAY c p r e) (s.reg (MC_DELAY c p r e)) })
      fun a => done a ∨ ∃ e < n, a = MC_DELAY c p r e := by
  induction n with
  | zero => exact h.mono fun a ha => ha.resolve_right fun ⟨e, he, _⟩ => absurd he (Nat.not_lt_zero e)
  | succ n ih =>
    rw [each_succ]
    refine (ih.set _).mono fun a ha => ?_
    rcases ha with ha | ⟨e, he, rfl⟩
    · exact .inl (.inl ha)
    · rcases Nat.lt_succ_iff_lt_or_eq.1 he with lt | rfl
      · exact .inl (.inr ⟨e, lt, rfl⟩)
      · exact .inr rfl

theorem applyDelays_applied (s : State) (c r : Nat) :
    DelaysApplied s (s.applyDelays c r) fun a => ∃ p < 4, ∃ e < 116, a = MC_DELAY c p r e := by
  have all : ∀ n, DelaysApplied s (s.each n fun p s => s.each 116 fun e s =>
      s.onMc fun m => { m with delays := m.delays.set 0 (MC_DELAY c p r e) (s.reg (MC_DELAY c p r e)) })
      fun a => ∃ p < n, ∃ e < 116, a = MC_DELAY c p r e := by
    intro n
    induction n with
    | zero => exact ⟨rfl, fun a ⟨p, hp, _⟩ => absurd hp (Nat.not_lt_zero p)⟩
    | succ n ih =>
      rw [each_succ]
      refine (applyEntries_applied ih c n r 116).mono fun a ⟨p, hp, e, he, ha⟩ => ?_
      rcases Nat.lt_succ_iff_lt_or_eq.1 hp with lt | rfl
      · exact .inl ⟨p, lt, e, he, ha⟩
      · exact .inr ⟨e, he, ha⟩
  exact all 4

theorem rank_refreshes {s : State} {c : Fin 8} {r : Fin 4} (takes : s.refreshes c r = true) :
    (∃ t, exec (.refresh c r) s = .next t ∧ t = { s with mc := t.mc } ∧
      (t.rankAt (rankIx c r)).refAt = s.now ∧ (t.rankAt (rankIx c r)).rows = [] ∧
      ∀ p e, p < 4 → e < 116 → t.mc.delays.get 0 (MC_DELAY c p r e) = s.reg (MC_DELAY c p r e)) ∧
    (∃ t, exec (.zqCalibration c r) s = .next t ∧ t = { s with mc := t.mc } ∧ (t.rankAt (rankIx c r)).zqAt = s.now) := by
  constructor
  · obtain ⟨u, hu⟩ : ∃ u, (s.onRank (rankIx c r) fun x => { x with refAt := s.now, rows := [] }).dimmCommand c r none = u := ⟨_, rfl⟩
    have rank : u.rankAt (rankIx c r) = { s.rankAt (rankIx c r) with refAt := s.now, rows := [] } := by
      rw [← hu]
      have rank := (rankAt_onRank s (rankIx c r) (rankIx c r) fun x => { x with refAt := s.now, rows := [] }).trans (if_pos rfl)
      exact rank
    have only : u = { s with mc := u.mc } := by rw [← hu]; rfl
    have run : exec (.refresh c r) s = .next (u.applyDelays c r) := by
      rw [← hu]
      exact congrArg Host.Outcome.next (if_pos takes)
    obtain ⟨eq, applied⟩ := applyDelays_applied u c r
    generalize u.applyDelays c r = t at *
    have ranks : t.rankAt (rankIx c r) = u.rankAt (rankIx c r) := by rw [State.rankAt, eq, State.rankAt]
    refine ⟨t, run, ?_, by rw [ranks, rank], by rw [ranks, rank], fun p e hp he => ?_⟩
    · rw [eq, only]
    · rw [applied _ ⟨p, hp, e, he, rfl⟩, only]
      rfl
  · refine ⟨_, congrArg Host.Outcome.next (if_pos takes), rfl, ?_⟩
    have rank := (rankAt_onRank s (rankIx c r) (rankIx c r) fun x => { x with zqAt := s.now }).trans (if_pos rfl)
    exact congrArg RankSt.zqAt rank

theorem rank_keepsStill {s : State} {c : Fin 8} {r : Fin 4} (still : s.refreshes c r = false) :
    exec (.refresh c r) s = .next s ∧ exec (.zqCalibration c r) s = .next s :=
  ⟨congrArg Host.Outcome.next (if_neg (by rw [still]; decide)), congrArg Host.Outcome.next (if_neg (by rw [still]; decide))⟩

end Sys2Proof.Machine

namespace Sys2Proof.Machine

/-! ### Results of training operations (R293, R294) -/

theorem take_chunk_flatten {α : Type} {n : Nat} {f : α → List Byte} (len : ∀ x, (f x).length = n) :
    ∀ (xs : List α) {i : Nat} (h : i < xs.length), (((xs.map f).flatten.drop (n * i)).take n) = f xs[i]
  | x :: xs, 0, _ => by
    rw [Nat.mul_zero, List.drop_zero, List.map_cons, List.flatten_cons, List.take_left' (len x)]
    rfl
  | x :: xs, i + 1, h => by
    have past : n * (i + 1) = (f x).length + n * i := by rw [len x, Nat.mul_succ, Nat.add_comm]
    rw [List.map_cons, List.flatten_cons, past, ← List.drop_drop, List.drop_left]
    exact take_chunk_flatten len xs (Nat.lt_of_succ_lt_succ h)

theorem length_flatten_map {α : Type} {n : Nat} {f : α → List Byte} (len : ∀ x, (f x).length = n) (xs : List α) :
    ((xs.map f).flatten).length = n * xs.length := by
  induction xs with
  | nil => rfl
  | cons x xs ih => rw [List.map_cons, List.flatten_cons, List.length_append, len, ih, List.length_cons, Nat.mul_succ, Nat.add_comm]

/-- The sweep's four bytes in the header of a result buffer. -/
def GatherSt.sweepBytes (g : GatherSt) : List Byte :=
  if g.op = 6 then List.replicate 4 0 else leBytes 2 g.start ++ leBytes 1 g.step ++ leBytes 1 g.count

/-- The bytes of the header after the sequence number and the operation. -/
def GatherSt.headerRest (g : GatherSt) : List Byte :=
  leBytes 1 g.rank ++ leBytes 1 g.point ++ leBytes 1 (b2n g.stale) ++ g.sweepBytes ++ List.replicate 52 0

theorem headerRest_length (g : GatherSt) : g.headerRest.length = 59 := by
  unfold GatherSt.headerRest GatherSt.sweepBytes
  split <;> simp

/-- Steps or counts, then the header, in a channel's result buffer. -/
def State.resultsStored (s : State) (c seq : Nat) (g : GatherSt) (body : List Byte) : State :=
  (s.storeBytes (TRN_BUF c + 64) body).storeBytes (TRN_BUF c) (leBytes 4 seq ++ (leBytes 1 g.op ++ g.headerRest))

theorem resultsStored_shows (s : State) (c seq : Nat) (g : GatherSt) (body : List Byte) :
    (s.resultsStored c seq g body).loadNat (TRN_BUF c) 4 = seq % 2 ^ 32 ∧
    (s.resultsStored c seq g body).loadNat (TRN_BUF c + 4) 1 = g.op % 256 ∧
    (∀ i n, i + n ≤ body.length → (s.resultsStored c seq g body).loadNat (TRN_BUF c + 64 + i) n = leNat ((body.drop i).take n)) ∧
    MemBut s (s.resultsStored c seq g body) (TRN_BUF c) (64 + body.length) := by
  obtain ⟨hdr, hh⟩ : ∃ hdr, leBytes 4 seq ++ (leBytes 1 g.op ++ g.headerRest) = hdr := ⟨_, rfl⟩
  have len : hdr.length = 64 := by simp [← hh, headerRest_length]
  unfold State.resultsStored
  rw [hh]
  refine ⟨?_, ?_, fun i n h => ?_, fun x hx => ?_⟩
  · have read := memRead_store_part (memStore s.mem (TRN_BUF c + 64) body) (TRN_BUF c) hdr (i := 0) (n := 4) (by omega)
    rw [List.drop_zero, ← hh, List.take_left' (leBytes_length _ _), hh] at read
    exact (congrArg leNat read).trans (leNat_leBytes _ _)
  · have read := memRead_store_part (memStore s.mem (TRN_BUF c + 64) body) (TRN_BUF c) hdr (i := 4) (n := 1) (by omega)
    rw [← hh, List.drop_left' (leBytes_length _ _), List.take_left' (leBytes_length _ _), hh] at read
    exact (congrArg leNat read).trans (leNat_leBytes _ _)
  · refine congrArg leNat (Eq.trans ?_ (memRead_store_part s.mem (TRN_BUF c + 64) body h))
    refine memRead_congr fun j hj => ?_
    exact memByte_store_out _ _ _ _ (by omega)
  · exact (memByte_store_out _ _ _ _ (by omega)).trans (memByte_store_out _ _ _ _ (by omega))

/-! ### The end of an operation (R290, R293, R296) -/

/-- A channel's gather closed, with its result. -/
def State.gatherClosed (s : State) (c result : Nat) : State :=
  ((s.setFld (MC_TRN_STAT c) MC_TRN_STAT_BUSY 0).setFld (MC_TRN_STAT c) MC_TRN_STAT_RESULT result).setEvt BLK_MC 0

theorem gatherClosed_shows (s : State) (c : Fin 8) {result : Nat} (h : result < 4) :
    (s.gatherClosed c result).bit (MC_TRN_STAT c) MC_TRN_STAT_BUSY = false ∧
    (s.gatherClosed c result).fld (MC_TRN_STAT c) MC_TRN_STAT_RESULT = result ∧
    (∀ f : Fld, 4 ≤ f.lo → (s.gatherClosed c result).fld (MC_TRN_STAT c) f = s.fld (MC_TRN_STAT c) f) ∧
    EventSet (s.gatherClosed c result) BLK_MC 0 ∧ Frame s (s.gatherClosed c result) [MC_TRN_STAT c] [BLK_MC] := by
  unfold State.gatherClosed
  obtain ⟨u, hu⟩ : ∃ u, s.setFld (MC_TRN_STAT c) MC_TRN_STAT_BUSY 0 = u := ⟨_, rfl⟩
  have busy : u.bit (MC_TRN_STAT c) MC_TRN_STAT_BUSY = false := by
    rw [← hu]
    exact bit_setFld_same s _ _ false rfl (by decide)
  have reg : ((u.setFld (MC_TRN_STAT c) MC_TRN_STAT_RESULT result).setEvt BLK_MC 0).reg (MC_TRN_STAT c) =
      (u.setFld (MC_TRN_STAT c) MC_TRN_STAT_RESULT result).reg (MC_TRN_STAT c) :=
    reg_setEvt_of_notMem _ _ _ _ (mcNotReport (by unfold MC_TRN_STAT; omega) (by unfold MC_TRN_STAT; omega))
  rw [hu]
  refine ⟨?_, ?_, fun f hf => ?_, setEvt_eventSet _ _ _ (by decide), ?_⟩
  · rw [bit_of_reg _ reg, State.bit, fld_setFld_field _ _ _ _ _ (by decide)]
    exact busy
  · rw [fld_of_reg _ reg, fld_setFld_same _ _ _ _ (by decide)]
    exact Nat.mod_eq_of_lt h
  · have past : MC_TRN_STAT_RESULT.lo + MC_TRN_STAT_RESULT.w ≤ f.lo := hf
    have past' : MC_TRN_STAT_BUSY.lo + MC_TRN_STAT_BUSY.w ≤ f.lo := Nat.le_trans (by decide) hf
    rw [fld_of_reg _ reg, fld_setFld_field _ _ _ _ _ (.inr past), ← hu, fld_setFld_field _ _ _ _ _ (.inr past')]
  · rw [← hu]
    exact (((Frame.refl s _ _).setFld (by simp)).setFld (by simp)).setEvt (by simp)

/-- The channel's operation is over: it gathers no more. -/
def State.gatherless (s : State) (c : Nat) : State := s.onChan c fun x => { x with gather := none }

/-- Where the results of a gather have gone. -/
def State.gathered (s : State) (c : Nat) (g : GatherSt) (samples : List (BitVec 128)) : State :=
  if g.op = 0 then s.ranksInit c
  else ((s.resultsStored c ((s.fld (MC_TRN_STAT c) MC_TRN_STAT_SEQ + 1) % 65536) g
    (if g.op = 6 then s.oscCounts samples else ((samples.take g.count).map (s.trnStep g.op)).flatten)).setFld (MC_TRN_STAT c)
      MC_TRN_STAT_SEQ ((s.fld (MC_TRN_STAT c) MC_TRN_STAT_SEQ + 1) % 65536)).setFld (MC_TRN_STAT c) MC_TRN_STAT_DONE
      (if g.op = 6 then 0 else (samples.take g.count).length)

theorem trnDone_eq {s : State} {c : Fin 8} {g : GatherSt} {samples : List (BitVec 128)} (hg : (s.chanAt c).gather = some g)
    (ends : s.gatherEnds c g samples.length = true) :
    exec (.trnDone c samples) s = .next (
      let u := ((s.gatherless c).gathered c g samples).gatherClosed c (if g.stale = true then 2 else 1)
      if g.stale = true then u.fault 0x03C8 else u) := by
  change execTrnDone c samples s = _
  unfold execTrnDone
  dsimp only
  rw [hg]
  dsimp only
  rw [ends, Bool.not_true, if_neg Bool.false_ne_true]
  by_cases op : g.op = 0
  · simp only [State.gathered, op, if_true]
    rfl
  · simp only [State.gathered, op, if_false, State.resultsStored, GatherSt.headerRest, GatherSt.sweepBytes, List.append_assoc]
    rfl

theorem trnDone_waits {s : State} {c : Fin 8} {g : GatherSt} {samples : List (BitVec 128)} (hg : (s.chanAt c).gather = some g)
    (ends : s.gatherEnds c g samples.length = false) : exec (.trnDone c samples) s = .next s := by
  change execTrnDone c samples s = _
  unfold execTrnDone
  dsimp only
  rw [hg]
  dsimp only
  rw [ends, Bool.not_false, if_pos rfl]

end Sys2Proof.Machine

namespace Sys2Proof.Machine

/-- The number of a channel's next result. -/
def State.nextSeq (s : State) (c : Nat) : Nat := (s.fld (MC_TRN_STAT c) MC_TRN_STAT_SEQ + 1) % 65536

/-- The bytes of an operation's steps or counts. -/
def State.gatherBody (s : State) (g : GatherSt) (samples : List (BitVec 128)) : List Byte :=
  if g.op = 6 then s.oscCounts samples else ((samples.take g.count).map (s.trnStep g.op)).flatten

/-- What an operation with results leaves: its results in memory, their number and the steps done. -/
theorem gathered_shows (s : State) (c : Nat) {g : GatherSt} (samples : List (BitVec 128)) (op : g.op ≠ 0) :
    (s.gathered c g samples).loadNat (TRN_BUF c) 4 = s.nextSeq c ∧
    (s.gathered c g samples).loadNat (TRN_BUF c + 4) 1 = g.op % 256 ∧
    (∀ i n, i + n ≤ (s.gatherBody g samples).length →
      (s.gathered c g samples).loadNat (TRN_BUF c + 64 + i) n = leNat (((s.gatherBody g samples).drop i).take n)) ∧
    MemBut s (s.gathered c g samples) (TRN_BUF c) (64 + (s.gatherBody g samples).length) ∧
    (s.gathered c g samples).fld (MC_TRN_STAT c) MC_TRN_STAT_SEQ = s.nextSeq c ∧
    (s.gathered c g samples).fld (MC_TRN_STAT c) MC_TRN_STAT_DONE =
      (if g.op = 6 then 0 else (samples.take g.count).length) % 256 ∧
    Frame { s with mem := (s.gathered c g samples).mem, poison := (s.gathered c g samples).poison } (s.gathered c g samples)
      [MC_TRN_STAT c] [BLK_MC] := by
  obtain ⟨r, hr⟩ : ∃ r, s.resultsStored c (s.nextSeq c) g (s.gatherBody g samples) = r := ⟨_, rfl⟩
  obtain ⟨seq, opByte, body, but⟩ := hr ▸ resultsStored_shows s c (s.nextSeq c) g (s.gatherBody g samples)
  have eq : s.gathered c g samples = (r.setFld (MC_TRN_STAT c) MC_TRN_STAT_SEQ (s.nextSeq c)).setFld (MC_TRN_STAT c)
      MC_TRN_STAT_DONE (if g.op = 6 then 0 else (samples.take g.count).length) := by
    rw [← hr]
    exact if_neg op
  have small : s.nextSeq c < 65536 := Nat.mod_lt _ (by decide)
  have only : r = { s with mem := r.mem, poison := r.poison } := by rw [← hr]; rfl
  rw [eq]
  refine ⟨seq.trans (Nat.mod_eq_of_lt (by omega)), opByte, body, but, ?_, fld_setFld_same _ _ _ _ (by decide), ?_⟩
  · rw [fld_setFld_field _ _ _ _ _ (by decide), fld_setFld_same _ _ _ _ (by decide)]
    exact Nat.mod_eq_of_lt small
  · change Frame { s with mem := r.mem, poison := r.poison } _ _ _
    rw [← only]
    exact ((Frame.refl r _ _).setFld (by simp)).setFld (by simp)

/-- An operation's end, when no change of frequency has ended it. -/
theorem trnDone_shows {s : State} {c : Fin 8} {g : GatherSt} {samples : List (BitVec 128)} (hg : (s.chanAt c).gather = some g)
    (ends : s.gatherEnds c g samples.length = true) (fresh : g.stale = false) :
    ∃ v t : State, (s.gatherless c).gathered c g samples = v ∧ exec (.trnDone c samples) s = .next t ∧
      t.bit (MC_TRN_STAT c) MC_TRN_STAT_BUSY = false ∧ t.fld (MC_TRN_STAT c) MC_TRN_STAT_RESULT = 1 ∧
      (∀ f : Fld, 4 ≤ f.lo → t.fld (MC_TRN_STAT c) f = v.fld (MC_TRN_STAT c) f) ∧
      EventSet t BLK_MC 0 ∧ t.mc = v.mc ∧ t.mem = v.mem ∧ t.poison = v.poison ∧ Frame v t [MC_TRN_STAT c] [BLK_MC] := by
  obtain ⟨v, hv⟩ : ∃ v, (s.gatherless c).gathered c g samples = v := ⟨_, rfl⟩
  obtain ⟨busy, result, others, evt, frame⟩ := gatherClosed_shows v c (result := 1) (by decide)
  have run := trnDone_eq hg ends
  simp only [fresh, Bool.false_eq_true, if_false, hv] at run
  exact ⟨v, _, hv, run, busy, result, others, evt, frame.1.mc, frame.1.mem, frame.1.poison, frame⟩

theorem gatherless_chan (s : State) (c : Nat) : ((s.gatherless c).chanAt c).gather = none := by
  unfold State.gatherless
  rw [chanAt_onChan, if_pos rfl]

/-- The controller's state when an operation's end only stores results. -/
theorem gathered_mc (s : State) (c : Nat) {g : GatherSt} (samples : List (BitVec 128)) (op : g.op ≠ 0) :
    (s.gathered c g samples).mc = s.mc := by
  unfold State.gathered
  rw [if_neg op]
  rfl

theorem gatherEnds_of_awake {s : State} {c : Nat} {g : GatherSt} {n : Nat} (enough : g.op = 6 ∨ g.count ≤ n)
    (awake : s.bit MC_CFG MC_CFG_ENABLE = true → s.panicHolds c g.rank = false ∧ s.srOf c g.rank = srAwake) :
    s.gatherEnds c g n = true := by
  have taken : (g.op == 6 || decide (g.count ≤ n)) = true := by simpa using enough
  have clear : (s.bit MC_CFG MC_CFG_ENABLE && (s.panicHolds c g.rank || s.srOf c g.rank != srAwake)) = false := by
    by_cases on : s.bit MC_CFG MC_CFG_ENABLE = true
    · obtain ⟨panic, sr⟩ := awake on
      rw [panic, sr]
      simp
    · rw [Bool.eq_false_iff.2 on]; rfl
  unfold State.gatherEnds
  rw [taken, clear]
  simp

theorem trnStep_length (s : State) (op : Nat) (x : BitVec 128) : (s.trnStep op x).length = 16 := leBytes_length _ _

theorem sweep_gathered {s : State} {c : Fin 8} {g : GatherSt} {samples : List (BitVec 128)} (hg : (s.chanAt c).gather = some g)
    (fresh : g.stale = false) (low : 1 ≤ g.op) (high : g.op ≤ 5) (all : samples.length = g.count)
    (awake : s.bit MC_CFG MC_CFG_ENABLE = true → s.panicHolds c g.rank = false ∧ s.srOf c g.rank = srAwake) :
    ∃ t, exec (.trnDone c samples) s = .next t ∧ (t.chanAt c).gather = none ∧
      t.bit (MC_TRN_STAT c) MC_TRN_STAT_BUSY = false ∧ t.fld (MC_TRN_STAT c) MC_TRN_STAT_RESULT = 1 ∧
      t.fld (MC_TRN_STAT c) MC_TRN_STAT_SEQ = (s.fld (MC_TRN_STAT c) MC_TRN_STAT_SEQ + 1) % 65536 ∧
      EventSet t BLK_MC 0 ∧
      t.loadNat (TRN_BUF c) 4 = (s.fld (MC_TRN_STAT c) MC_TRN_STAT_SEQ + 1) % 65536 ∧
      t.loadNat (TRN_BUF c + 4) 1 = g.op ∧
      (∀ i, i < samples.length →
        t.loadNat (TRN_BUF c + 64 + 16 * i) 16 =
          (samples.getD i 0).toNat % 2 ^ (if g.op = 2 ∨ g.op = 3 then s.dqsUsed else trnLanes g.op)) ∧
      MemBut s t (TRN_BUF c) (64 + 16 * samples.length) ∧
      Frame { s with mc := t.mc, mem := t.mem, poison := t.poison } t [MC_TRN_STAT c] [BLK_MC] := by
  have op0 : g.op ≠ 0 := by omega
  have op6 : g.op ≠ 6 := by omega
  obtain ⟨v, t, hv, run, busy, result, others, evt, mc, mem, poison, frame⟩ :=
    trnDone_shows hg (gatherEnds_of_awake (.inr (Nat.le_of_eq all.symm)) awake) fresh
  obtain ⟨seqMem, opMem, body, but, seq, -, vFrame⟩ := hv ▸ gathered_shows (s.gatherless c) c samples op0
  have mc' : v.mc = (s.gatherless c).mc := hv ▸ gathered_mc (s.gatherless c) c samples op0
  have bytes : (s.gatherless c).gatherBody g samples = (samples.map (s.trnStep g.op)).flatten := by
    unfold State.gatherBody
    rw [if_neg op6, List.take_of_length_le (Nat.le_of_eq all)]
    rfl
  have len : ((s.gatherless c).gatherBody g samples).length = 16 * samples.length := by
    rw [bytes, length_flatten_map (trnStep_length s g.op)]
  have load : ∀ a n, t.loadNat a n = v.loadNat a n := fun a n => by
    unfold State.loadNat State.loadBytes
    rw [mem]
  refine ⟨t, run, ?_, busy, result, (others _ (by decide)).trans seq, evt, ?_, ?_, fun i hi => ?_, ?_, ?_⟩
  · rw [State.chanAt, mc, mc']
    exact gatherless_chan s c
  · exact (load _ _).trans seqMem
  · exact (load _ _).trans (opMem.trans (Nat.mod_eq_of_lt (by omega)))
  · have lanes : (if g.op = 2 ∨ g.op = 3 then s.dqsUsed else trnLanes g.op) ≤ 128 := by
      unfold State.dqsUsed trnLanes
      split_ifs <;> decide
    rw [load, body _ _ (by omega), bytes, take_chunk_flatten (trnStep_length s g.op) samples hi, List.getD_eq_getElem _ _ hi]
    unfold State.trnStep
    rw [leNat_leBytes]
    exact Nat.mod_eq_of_lt (Nat.lt_of_lt_of_le (Nat.mod_lt _ (Nat.two_pow_pos _))
      (Nat.pow_le_pow_right (by decide) lanes |>.trans (by decide)))
  · intro x hx
    rw [mem]
    exact but x (by rw [len]; exact hx)
  · rw [mc, mem, poison, mc']
    exact Frame.trans vFrame frame

theorem oscCounts_chunk (s : State) (xs : List (BitVec 128)) {i : Nat} (hi : i < 20) :
    leNat (((s.oscCounts xs).drop (2 * i)).take 2) = if i < s.dqsUsed then (xs.getD i 0).toNat % 65536 else 0 := by
  have len : ∀ j, (leBytes 2 (if j < s.dqsUsed then (xs.getD j 0).toNat % 65536 else 0)).length = 2 := fun _ => leBytes_length _ _
  have chunk := take_chunk_flatten len (List.range 20) (i := i) (by simpa using hi)
  unfold State.oscCounts
  rw [chunk, leNat_leBytes, List.getElem_range]
  split
  · exact Nat.mod_eq_of_lt (Nat.mod_lt _ (by decide))
  · rfl

theorem osc_gathered {s : State} {c : Fin 8} {g : GatherSt} {samples : List (BitVec 128)} (hg : (s.chanAt c).gather = some g)
    (osc : g.op = 6) (fresh : g.stale = false)
    (awake : s.bit MC_CFG MC_CFG_ENABLE = true → s.panicHolds c g.rank = false ∧ s.srOf c g.rank = srAwake) :
    ∃ t, exec (.trnDone c samples) s = .next t ∧ (t.chanAt c).gather = none ∧
      t.fld (MC_TRN_STAT c) MC_TRN_STAT_RESULT = 1 ∧ t.fld (MC_TRN_STAT c) MC_TRN_STAT_DONE = 0 ∧
      (∀ i, i < 20 → t.loadNat (TRN_BUF c + 64 + 2 * i) 2 = if i < s.dqsUsed then (samples.getD i 0).toNat % 65536 else 0) ∧
      MemBut s t (TRN_BUF c) 104 := by
  have op0 : g.op ≠ 0 := by omega
  obtain ⟨v, t, hv, run, -, result, others, -, mc, mem, -, -⟩ := trnDone_shows hg (gatherEnds_of_awake (.inl osc) awake) fresh
  obtain ⟨-, -, body, but, -, done, -⟩ := hv ▸ gathered_shows (s.gatherless c) c samples op0
  have mc' : v.mc = (s.gatherless c).mc := hv ▸ gathered_mc (s.gatherless c) c samples op0
  have bytes : (s.gatherless c).gatherBody g samples = s.oscCounts samples := if_pos osc
  have len : ((s.gatherless c).gatherBody g samples).length = 40 := by
    rw [bytes]
    unfold State.oscCounts
    rw [length_flatten_map (n := 2) (fun _ => leBytes_length _ _)]
    rfl
  refine ⟨t, run, ?_, result, ?_, fun i hi => ?_, fun x hx => ?_⟩
  · rw [State.chanAt, mc, mc']
    exact gatherless_chan s c
  · rw [others _ (by decide), done, if_pos osc]
  · have load : t.loadNat (TRN_BUF c + 64 + 2 * i) 2 = v.loadNat (TRN_BUF c + 64 + 2 * i) 2 := by
      unfold State.loadNat State.loadBytes
      rw [mem]
    rw [load, body _ _ (by omega), bytes]
    exact oscCounts_chunk s samples hi
  · rw [mem]
    exact but x (by rw [len]; exact hx)

/-! ### The end of INIT, and of a stale operation (R290, R291) -/

theorem ranksInit_shows (s : State) (c : Nat) :
    InMc s (s.ranksInit c) ∧ (s.ranksInit c).mc.chans = s.mc.chans ∧
      ∀ r ≤ s.fld MC_CFG MC_CFG_NRK_M1,
        ((s.ranksInit c).rankAt (rankIx c r)).init = true ∧ ((s.ranksInit c).rankAt (rankIx c r)).zqAt = s.now := by
  have all : ∀ n, ∃ u, s.each n (fun r s => s.onRank (rankIx c r) fun x => { x with init := true, zqAt := s.now, rows := [] }) = u ∧
      InMc s u ∧ u.mc.chans = s.mc.chans ∧
      ∀ r < n, (u.rankAt (rankIx c r)).init = true ∧ (u.rankAt (rankIx c r)).zqAt = s.now := by
    intro n
    induction n with
    | zero => exact ⟨s, rfl, rfl, rfl, fun r hr => absurd hr (Nat.not_lt_zero r)⟩
    | succ n ih =>
      obtain ⟨u, hu, inMc, chans, ranks⟩ := ih
      have now : u.now = s.now := by rw [show u = { s with mc := u.mc } from inMc]
      refine ⟨_, rfl, ?_, ?_, fun r hr => ?_⟩
      · rw [each_succ, hu]
        exact (show u = { s with mc := u.mc } from inMc) ▸ rfl
      · rw [each_succ, hu]
        exact chans
      · rw [each_succ, hu, rankAt_onRank]
        split
        · exact ⟨rfl, now⟩
        · next other =>
          exact ranks r (Nat.lt_of_le_of_ne (Nat.lt_succ_iff.1 hr) fun same => other (by rw [same]))
  obtain ⟨u, hu, inMc, chans, ranks⟩ := all (s.fld MC_CFG MC_CFG_NRK_M1 + 1)
  have eq : s.ranksInit c = u := hu
  rw [eq]
  exact ⟨inMc, chans, fun r hr => ranks r (Nat.lt_succ_of_le hr)⟩

theorem init_ends {s : State} {c : Fin 8} {g : GatherSt} {samples : List (BitVec 128)} (hg : (s.chanAt c).gather = some g)
    (op : g.op = 0) (fresh : g.stale = false) :
    ∃ t, exec (.trnDone c samples) s = .next t ∧ (t.chanAt c).gather = none ∧
      t.bit (MC_TRN_STAT c) MC_TRN_STAT_BUSY = false ∧ t.fld (MC_TRN_STAT c) MC_TRN_STAT_RESULT = 1 ∧
      (∀ r, r ≤ s.fld MC_CFG MC_CFG_NRK_M1 → (t.rankAt (rankIx c r)).init = true ∧ (t.rankAt (rankIx c r)).zqAt = s.now) ∧
      EventSet t BLK_MC 0 ∧ mcOnly s t [MC_TRN_STAT c] := by
  have ends : s.gatherEnds c g samples.length = true := by
    unfold State.gatherEnds
    rw [op]
    simp
  obtain ⟨v, t, hv, run, busy, result, -, evt, mc, -, -, frame⟩ := trnDone_shows hg ends fresh
  have eq : (s.gatherless c).ranksInit c = v := by
    rw [← hv]
    exact (if_pos op).symm
  obtain ⟨inMc, chans, ranks⟩ := eq ▸ ranksInit_shows (s.gatherless c) c
  refine ⟨t, run, ?_, busy, result, fun r hr => ?_, evt, ?_⟩
  · rw [State.chanAt, mc, chans]
    exact gatherless_chan s c
  · rw [State.rankAt, mc]
    exact ranks r hr
  · exact mcOnly_of_frame (mcOnly_inMc (mcOnly_inMc (mcOnly_refl s _) (onChan_inMc s c _)) inMc) frame

theorem gathered_quiet (s : State) (c : Nat) (g : GatherSt) (samples : List (BitVec 128)) :
    (s.gathered c g samples).mc.chans = s.mc.chans ∧ (s.gathered c g samples).si.queues = s.si.queues := by
  by_cases op : g.op = 0
  · have eq : s.gathered c g samples = s.ranksInit c := if_pos op
    obtain ⟨inMc, chans, -⟩ := ranksInit_shows s c
    rw [eq]
    refine ⟨chans, ?_⟩
    rw [show s.ranksInit c = { s with mc := (s.ranksInit c).mc } from inMc]
  · have eq : s.gathered c g samples = _ := if_neg op
    rw [eq]
    exact ⟨rfl, rfl⟩

theorem stale_ends {s : State} {c : Fin 8} {g : GatherSt} {samples : List (BitVec 128)} (hg : (s.chanAt c).gather = some g)
    (stale : g.stale = true) :
    ∃ t, exec (.trnDone c samples) s = .next t ∧ (t.chanAt c).gather = none ∧
      t.bit (MC_TRN_STAT c) MC_TRN_STAT_BUSY = false ∧ t.fld (MC_TRN_STAT c) MC_TRN_STAT_RESULT = 2 ∧
      EventSet t BLK_MC 0 ∧ Reported s t 0x03C8 0xFF 0 := by
  have ends : s.gatherEnds c g samples.length = true := by
    unfold State.gatherEnds
    rw [stale]
    rfl
  obtain ⟨v, hv⟩ : ∃ v, (s.gatherless c).gathered c g samples = v := ⟨_, rfl⟩
  obtain ⟨chans, queues⟩ := hv ▸ gathered_quiet (s.gatherless c) c g samples
  obtain ⟨busy, result, -, evt, frame⟩ := gatherClosed_shows v c (result := 2) (by decide)
  have sq : (v.gatherClosed c 2).si.queues = v.si.queues := by
    unfold State.gatherClosed
    rw [setEvt_si]
    rfl
  have run := trnDone_eq hg ends
  simp only [stale, if_true, hv] at run
  generalize v.gatherClosed c 2 = u at *
  have reg : (u.fault 0x03C8).reg (MC_TRN_STAT c) = u.reg (MC_TRN_STAT c) :=
    reg_fault _ _ _ _ _ fun h => mcNotReport (by unfold MC_TRN_STAT; omega) (by unfold MC_TRN_STAT; omega) (reportRegs_mono (by simp) h)
  refine ⟨_, run, ?_, ?_, ?_, evt.fault _ _ _, fault_reportedFrom _ _ _ (sq.trans queues)⟩
  · rw [State.chanAt, (fault_quiet (s := u) 0x03C8 0xFF 0).mc, frame.1.mc, chans]
    exact gatherless_chan s c
  · rw [bit_of_reg _ reg]
    exact busy
  · rw [fld_of_reg _ reg]
    exact result

end Sys2Proof.Machine

namespace Sys2Proof.Machine

/-- Settles O40: every operation passes through one command rule and one end rule; its results are chunks of a flattened
list of bytes in the buffer of its channel. -/
theorem trainingRunsAndGathers : Obligations.TrainingRunsAndGathers := by
  unfold Obligations.TrainingRunsAndGathers
  refine ⟨trainsBy_command (by decide) fun _ _ _ => rfl, trainsBy_command (by decide) fun _ _ _ => rfl,
    trainsBy_command (by decide) fun _ _ _ => rfl, trainsBy_command (by decide) fun _ _ _ => rfl,
    trainsBy_command (by decide) fun _ _ _ => rfl, trainsBy_command (by decide) fun _ _ _ => rfl,
    trainsBy_command (by decide) fun _ _ _ => rfl, ?_, ?_, ?_, ?_⟩
  · intro s c g samples hg fresh low high all _ awake
    exact sweep_gathered hg fresh low high all awake
  · intro s c g samples hg
    exact ⟨init_ends hg, stale_ends hg, osc_gathered hg, trnDone_waits hg⟩
  · exact delayEntry_takes
  · intro s c r
    exact ⟨rank_refreshes, rank_keepsStill⟩

end Sys2Proof.Machine

/-!
O41: the population of DRAM, and changes of its frequency point.
-/

namespace Sys2Proof.Machine

/-! ### The population (R285, R287, R289) -/

theorem fldGet_fldPut_field {f g : Fld} (x : Nat) (v : Word) (h : f.lo + f.w ≤ g.lo ∨ g.lo + g.w ≤ f.lo) :
    fldGet g (fldPut f x v) = fldGet g v := fldGet_fldPut_other _ _ _ _ h.symm

theorem fldPut_fldPut (f : Fld) (x y : Nat) (v : Word) : fldPut f x (fldPut f y v) = fldPut f x v := by
  refine BitVec.eq_of_getLsbD_eq fun i hi => ?_
  rw [getLsbD_fldPut _ _ _ _ hi, getLsbD_fldPut _ _ _ _ hi, getLsbD_fldPut _ _ _ _ hi]
  split <;> rfl

theorem regDef_MC_CFG : ∃ d, regDef? MC_CFG = some d ∧ d.rw = 0xFFFC01 ∧ d.rwl = 0 ∧ d.w1c = 0 := by decide

theorem mcCfg_typed (s : State) (v : Word) :
    s.typedWrite MC_CFG v = s.setReg MC_CFG (merged 0xFFFC01 (s.reg MC_CFG) v) := by
  obtain ⟨d, hd, rw_, rwl, w1c⟩ := regDef_MC_CFG
  rw [typedWrite_plain s v hd rwl w1c, rw_]

/-- A field that a write may change is the only part that changes when the rest of the value is the register's. -/
theorem merged_fldPut {rw_ old : Word} {f : Fld} (x : Nat) (writes : ∀ i < 32, f.lo ≤ i → i < f.lo + f.w → rw_.getLsbD i = true) :
    merged rw_ old (fldPut f x old) = fldPut f x old := by
  refine BitVec.eq_of_getLsbD_eq fun i hi => ?_
  rw [getLsbD_merged _ _ _ _ hi, getLsbD_fldPut _ _ _ _ hi]
  by_cases within : f.lo ≤ i ∧ i < f.lo + f.w
  · rw [if_pos within, writes i hi within.1 within.2, if_pos rfl]
  · rw [if_neg within, ite_self]

/-- A loop establishes a fact of each of its steps, when no later step undoes it. -/
theorem each_establishes {inv : State → Prop} {P : Nat → State → Prop} {f : Nat → State → State} {s : State} {n : Nat} (start : inv s)
    (keeps : ∀ i u, i < n → inv u → inv (f i u)) (here : ∀ i u, i < n → inv u → P i (f i u))
    (after : ∀ i j u, i < n → j < i → inv u → P j u → P j (f i u)) : inv (s.each n f) ∧ ∀ i < n, P i (s.each n f) := by
  induction n with
  | zero => exact ⟨start, fun i hi => absurd hi (Nat.not_lt_zero i)⟩
  | succ n ih =>
    obtain ⟨hinv, each⟩ := ih (fun i u hi => keeps i u (Nat.lt_succ_of_lt hi)) (fun i u hi => here i u (Nat.lt_succ_of_lt hi))
      (fun i j u hi => after i j u (Nat.lt_succ_of_lt hi))
    rw [each_succ]
    refine ⟨keeps n _ (Nat.lt_succ_self n) hinv, fun i hi => ?_⟩
    rcases Nat.lt_succ_iff_lt_or_eq.1 hi with lt | rfl
    · exact after n i _ (Nat.lt_succ_self n) lt hinv (each i lt)
    · exact here i _ hi hinv

/-- The role that ENABLE gives a rank. -/
def State.rankStart (s : State) (c r : Nat) : State :=
  if r < s.activeRanks then (s.setRole c r roleActive).setFld (MC_RK_STAT c r) MC_RK_STAT_LRANK r else s.setRole c r roleSpare

/-- A rank has the role that ENABLE gives it among so many active ranks. -/
def RankStarted (active : Nat) (t : State) (c r : Nat) : Prop :=
  if r < active then t.role c r = roleActive ∧ t.fld (MC_RK_STAT c r) MC_RK_STAT_LRANK = r ∧ t.unit (rankUnit c r) = 0
  else t.role c r = roleSpare ∧ t.unit (rankUnit c r) = 3

/-- The registers of a rank. -/
def rankRegs (c r : Nat) : List Nat := [MC_RK_STAT c r, ST_USTAT (rankUnit c r)]

theorem rankStat_apart (c r : Nat) : MC_RK_STAT c r ≠ ST_USTAT (rankUnit c r) := by
  unfold MC_RK_STAT ST_USTAT rankUnit rankIx
  omega

theorem rankStart_shows (s : State) (c : Nat) {r : Nat} (hr : r < 4) :
    RegsOnly s (s.rankStart c r) (rankRegs c r) ∧ RankStarted s.activeRanks (s.rankStart c r) c r := by
  have apart : MC_RK_STAT c r ≠ ST_USTAT (rankUnit c r) := rankStat_apart c r
  have role : ∀ v, v < 4 → (s.setRole c r v).role c r = v := fun v hv => by
    unfold State.setRole State.setUnit State.role
    rw [fld_setFld_other _ _ _ _ _ _ apart, fld_setFld_same _ _ _ _ (by decide)]
    exact Nat.mod_eq_of_lt hv
  have unit : ∀ v, (s.setRole c r v).unit (rankUnit c r) = if v = roleActive then 0 else if v = roleSpare then 3 else 2 := fun v => by
    unfold State.setRole
    exact unit_setUnit_same _ _ (by split_ifs <;> decide)
  have only : ∀ v, RegsOnly s (s.setRole c r v) (rankRegs c r) := fun v =>
    ((RegsOnly.refl s _).setFld (by simp [rankRegs])).setFld (by simp [rankRegs])
  unfold State.rankStart RankStarted
  by_cases active : r < s.activeRanks
  · simp only [if_pos active]
    refine ⟨(only _).setFld (by simp [rankRegs]), ?_, ?_, ?_⟩
    · exact (fld_setFld_field _ _ _ _ _ (by decide)).trans (role _ (by decide))
    · rw [fld_setFld_same _ _ _ _ (by decide)]
      exact Nat.mod_eq_of_lt hr
    · exact (fld_setFld_other _ _ _ _ _ _ apart.symm).trans (unit _)
  · simp only [if_neg active]
    exact ⟨only _, role _ (by decide), unit _⟩

theorem RankStarted.of_regs {n : Nat} {t u : State} {c r : Nat} (h : RankStarted n t c r)
    (regs : ∀ off ∈ rankRegs c r, u.reg off = t.reg off) : RankStarted n u c r := by
  have stat : u.reg (MC_RK_STAT c r) = t.reg (MC_RK_STAT c r) := regs _ (by simp [rankRegs])
  have unit : u.unit (rankUnit c r) = t.unit (rankUnit c r) := unit_of_reg (regs _ (by simp [rankRegs]))
  unfold RankStarted State.role at *
  rw [unit, fld_of_reg _ stat, fld_of_reg _ stat]
  exact h

theorem rankRegs_apart {c r c' r' : Nat} (hc : c < 8) (hr : r < 4) (hc' : c' < 8) (hr' : r' < 4) (ne : c ≠ c' ∨ r ≠ r') :
    ∀ off ∈ rankRegs c r, off ∉ rankRegs c' r' := by
  intro off ho ho'
  simp only [rankRegs, List.mem_cons, List.not_mem_nil, or_false, MC_RK_STAT, ST_USTAT, rankUnit, rankIx] at ho ho'
  omega

theorem activeRanks_of_reg {s t : State} (h : t.reg MC_CFG = s.reg MC_CFG) : t.activeRanks = s.activeRanks := by
  unfold State.activeRanks
  rw [fld_of_reg _ h, fld_of_reg _ h]

/-- Only registers of ranks have been given values. -/
def RanksOnly (s t : State) : Prop :=
  t = { s with regs := t.regs } ∧ ∀ off, (∀ c r, c < 8 → r < 4 → off ∉ rankRegs c r) → t.reg off = s.reg off

theorem RanksOnly.step {s t u : State} {c r : Nat} (h : RanksOnly s t) (hc : c < 8) (hr : r < 4) (k : RegsOnly t u (rankRegs c r)) :
    RanksOnly s u := by
  obtain ⟨only, but⟩ := k
  refine ⟨?_, fun off ho => (but off (ho c r hc hr)).trans (h.2 off ho)⟩
  rw [h.1] at only
  exact only

theorem RanksOnly.active {s t : State} (h : RanksOnly s t) : t.activeRanks = s.activeRanks :=
  activeRanks_of_reg (h.2 MC_CFG fun c r _ _ => by simp [rankRegs, MC_CFG, MC_RK_STAT, ST_USTAT]; omega)

theorem rankStart_step {s t : State} {c r : Nat} (h : RanksOnly s t) (hc : c < 8) (hr : r < 4) :
    RanksOnly s (t.rankStart c r) ∧ RankStarted s.activeRanks (t.rankStart c r) c r ∧
      ∀ c' r', c' < 8 → r' < 4 → (c' ≠ c ∨ r' ≠ r) → RankStarted s.activeRanks t c' r' → RankStarted s.activeRanks (t.rankStart c r) c' r' := by
  obtain ⟨only, started⟩ := rankStart_shows t c hr
  rw [h.active] at started
  exact ⟨h.step hc hr only, started, fun c' r' hc' hr' ne k => k.of_regs fun off ho =>
    only.2 off (rankRegs_apart hc' hr' hc hr ne off ho)⟩

theorem channelStart_step {s t : State} {c n : Nat} (h : RanksOnly s t) (hc : c < 8) (hn : n ≤ 4) :
    (RanksOnly s (t.each n fun r u => u.rankStart c r) ∧
      ∀ c' < c, (∀ r < n, RankStarted s.activeRanks t c' r) → ∀ r < n, RankStarted s.activeRanks (t.each n fun r u => u.rankStart c r) c' r) ∧
    ∀ r < n, RankStarted s.activeRanks (t.each n fun r u => u.rankStart c r) c r := by
  refine each_establishes (inv := fun u => RanksOnly s u ∧
      ∀ c' < c, (∀ r < n, RankStarted s.activeRanks t c' r) → ∀ r < n, RankStarted s.activeRanks u c' r)
    (P := fun r u => RankStarted s.activeRanks u c r) ⟨h, fun c' _ k => k⟩ (fun r u hr hu => ?_) (fun r u hr hu => ?_) fun r q u hr hq hu k => ?_
  · obtain ⟨only, -, others⟩ := rankStart_step hu.1 hc (Nat.lt_of_lt_of_le hr hn)
    exact ⟨only, fun c' hc' k q hq => others c' q (by omega) (by omega) (.inl (Nat.ne_of_lt hc')) (hu.2 c' hc' k q hq)⟩
  · exact (rankStart_step hu.1 hc (Nat.lt_of_lt_of_le hr hn)).2.1
  · exact (rankStart_step hu.1 hc (Nat.lt_of_lt_of_le hr hn)).2.2 c q hc (by omega) (.inr (Nat.ne_of_lt hq)) k

theorem ranks_start (s : State) {m n : Nat} (hm : m ≤ 8) (hn : n ≤ 4) :
    RanksOnly s (s.each m fun c u => u.each n fun r u => u.rankStart c r) ∧
    ∀ c < m, ∀ r < n, RankStarted s.activeRanks (s.each m fun c u => u.each n fun r u => u.rankStart c r) c r := by
  refine each_establishes (inv := RanksOnly s) (P := fun c u => ∀ r < n, RankStarted s.activeRanks u c r) ⟨rfl, fun _ _ => rfl⟩
    (fun c u hc hu => ?_) (fun c u hc hu => ?_) fun c q u hc hq hu k => ?_
  · exact (channelStart_step hu (Nat.lt_of_lt_of_le hc hm) hn).1.1
  · exact (channelStart_step hu (Nat.lt_of_lt_of_le hc hm) hn).2
  · exact (channelStart_step hu (Nat.lt_of_lt_of_le hc hm) hn).1.2 q hq k

/-! ### The write of ENABLE -/

/-- Capacity and population depend on the fields of MC_CFG but ENABLE. -/
theorem population_congr {s t : State} (h : ∀ f : Fld, 10 ≤ f.lo → t.fld MC_CFG f = s.fld MC_CFG f) :
    t.nch = s.nch ∧ t.activeRanks = s.activeRanks ∧ t.mirPairs = s.mirPairs ∧ t.plainChs = s.plainChs ∧ t.capCh = s.capCh := by
  have nch : t.nch = s.nch := by unfold State.nch; rw [h _ (by decide)]
  have active : t.activeRanks = s.activeRanks := by unfold State.activeRanks; rw [h _ (by decide), h _ (by decide)]
  have pairs : t.mirPairs = s.mirPairs := by unfold State.mirPairs; rw [h _ (by decide), nch]
  refine ⟨nch, active, pairs, ?_, ?_⟩
  · unfold State.plainChs
    rw [nch, pairs]
  · unfold State.capCh
    rw [active, h _ (by decide), h _ (by decide)]

theorem mcEnable_starts {s : State} {v : Word} (off : s.bit MC_CFG MC_CFG_ENABLE = false) {s' : State}
    (hs' : s.typedWrite MC_CFG (fldPut MC_CFG_ENABLE 0 v) = s') :
    s'.mc = s.mc ∧ s'.now = s.now ∧ s'.bit MC_CFG MC_CFG_ENABLE = false ∧ mcOnly s s' [MC_CFG] ∧ s'.si.queues = s.si.queues ∧
      exec (.mcEnable v) s = .next (if s'.mcConfigOk = true then s'.mcStart else s'.fault 0x03C8) := by
  have go : fldGet MC_CFG_ENABLE (fldPut MC_CFG_ENABLE 1 v) ≠ 0 := by
    rw [fldGet_fldPut_same _ _ _ (by decide)]
    decide
  have run : exec (.mcEnable v) s = .next (if s'.mcConfigOk = true then s'.mcStart else s'.fault 0x03C8) := by
    change Host.Outcome.next (s.mcCfgWrite _) = _
    unfold State.mcCfgWrite
    rw [off, if_neg Bool.false_ne_true, fldPut_fldPut, hs']
    simp only [if_neg go]
  rw [mcCfg_typed] at hs'
  refine ⟨by rw [← hs']; rfl, by rw [← hs']; rfl, ?_, hs' ▸ mcOnly_setReg (mcOnly_refl s _) (by simp), by rw [← hs']; rfl, run⟩
  rw [← hs', State.bit, State.fld, reg_setReg_same, fldGet_merged (by decide) (by decide), fldGet_fldPut_same _ _ _ (by decide)]
  rfl

theorem mcEnable_populates {s : State} {v : Word} (off : s.bit MC_CFG MC_CFG_ENABLE = false) {s' : State}
    (hs' : s.typedWrite MC_CFG (fldPut MC_CFG_ENABLE 0 v) = s') (ok : s'.mcConfigOk = true) :
    ∃ t, exec (.mcEnable v) s = .next t ∧ t.bit MC_CFG MC_CFG_ENABLE = true ∧
      t.mc = { s.mc with scrubAt := 0, scrubT0 := s.now } ∧
      (∀ c r, c < s'.nch → r < s'.fld MC_CFG MC_CFG_NRK_M1 + 1 → RankStarted s'.activeRanks t c r) ∧
      t.dramCap = (s'.mirPairs.length + s'.plainChs.length) * s'.capCh := by
  obtain ⟨mc, now, -, -, -, run⟩ := mcEnable_starts off hs'
  rw [if_pos ok] at run
  obtain ⟨u, hu⟩ : ∃ u, (s'.setFld MC_CFG MC_CFG_ENABLE 1).onMc (fun m => { m with scrubAt := 0, scrubT0 := s'.now }) = u := ⟨_, rfl⟩
  have fields : ∀ f : Fld, 10 ≤ f.lo → u.fld MC_CFG f = s'.fld MC_CFG f := fun f hf => by
    rw [← hu]
    exact fld_setFld_field _ _ _ _ _ (.inr (Nat.le_trans (by decide) hf))
  obtain ⟨nch, active, -, -, -⟩ := population_congr fields
  have nch8 : s'.nch ≤ 8 := Nat.pow_le_pow_right (by decide) (Nat.le_of_lt_succ (fld_lt s' MC_CFG MC_CFG_NCHLOG))
  have nrk4 : s'.fld MC_CFG MC_CFG_NRK_M1 + 1 ≤ 4 := fld_lt s' MC_CFG MC_CFG_NRK_M1
  obtain ⟨only, started⟩ := ranks_start u nch8 nrk4
  have start : s'.mcStart = u.each s'.nch fun c u => u.each (s'.fld MC_CFG MC_CFG_NRK_M1 + 1) fun r u => u.rankStart c r := by
    rw [← nch, ← hu]
    rfl
  rw [← start] at only started
  have cfg : s'.mcStart.reg MC_CFG = u.reg MC_CFG :=
    only.2 MC_CFG fun c r _ _ => by simp [rankRegs, MC_CFG, MC_RK_STAT, ST_USTAT]; omega
  have on : s'.mcStart.bit MC_CFG MC_CFG_ENABLE = true := by
    rw [bit_of_reg _ cfg, ← hu]
    exact bit_setFld_same s' MC_CFG MC_CFG_ENABLE true rfl (by decide)
  refine ⟨_, run, on, ?_, fun c r hc hr => ?_, ?_⟩
  · rw [only.1, ← hu]
    change { s'.mc with scrubAt := 0, scrubT0 := s'.now } = _
    rw [mc, now]
  · exact active ▸ started c hc r hr
  · obtain ⟨-, -, pairs, plain, cap⟩ := population_congr (s := s') (t := s'.mcStart) fun f hf =>
      (fld_of_reg f cfg).trans (fields f hf)
    unfold State.dramCap
    rw [if_pos on, pairs, plain, cap]

theorem mcEnable_refused {s : State} {v : Word} (off : s.bit MC_CFG MC_CFG_ENABLE = false) {s' : State}
    (hs' : s.typedWrite MC_CFG (fldPut MC_CFG_ENABLE 0 v) = s') (bad : s'.mcConfigOk = false) :
    ∃ t, exec (.mcEnable v) s = .next t ∧ t.bit MC_CFG MC_CFG_ENABLE = false ∧ t.dramCap = 0 ∧
      Reported s t 0x03C8 0xFF 0 ∧ mcOnly s t [MC_CFG] := by
  obtain ⟨-, -, disabled, only, queues, run⟩ := mcEnable_starts off hs'
  rw [if_neg (by rw [bad]; decide)] at run
  have still : (s'.fault 0x03C8).bit MC_CFG MC_CFG_ENABLE = false :=
    (bit_of_reg _ (reg_fault _ _ _ _ _ (by decide))).trans disabled
  refine ⟨_, run, still, ?_, fault_reportedFrom _ _ _ queues, mcOnly_of_frame only (Frame.refl s' _ _).fault⟩
  unfold State.dramCap
  rw [still, if_neg Bool.false_ne_true]

theorem mcEnable_enabled {s : State} {v : Word} (on : s.bit MC_CFG MC_CFG_ENABLE = true) :
    ∃ t, exec (.mcEnable v) s = .next t ∧ t.mc = s.mc ∧ mcOnly s t [MC_CFG] ∧
      t.reg MC_CFG = fldPut MC_CFG_AUTOMIG (fldGet MC_CFG_AUTOMIG v) (s.reg MC_CFG) := by
  obtain ⟨w, hw⟩ : ∃ w, fldPut MC_CFG_AUTOMIG (fldGet MC_CFG_AUTOMIG v) (s.reg MC_CFG) = w := ⟨_, rfl⟩
  obtain ⟨u, hu⟩ : ∃ u, s.setReg MC_CFG w = u := ⟨_, rfl⟩
  have typed : s.typedWrite MC_CFG w = u := by
    rw [mcCfg_typed, ← hw, merged_fldPut _ (by decide), hw, hu]
  have only : mcOnly s u [MC_CFG] := hu ▸ mcOnly_setReg (mcOnly_refl s _) (by simp)
  have reg : u.reg MC_CFG = w := by rw [← hu, reg_setReg_same]
  have mc : u.mc = s.mc := by rw [← hu]; rfl
  have run : exec (.mcEnable v) s =
      .next (if (s.reg MC_CFG ^^^ fldPut MC_CFG_ENABLE 1 v) &&& 0xFBFC01 = 0 then u else u.fault 0x03C8) := by
    change Host.Outcome.next (s.mcCfgWrite _) = _
    unfold State.mcCfgWrite
    rw [if_pos on, fldGet_fldPut_field (f := MC_CFG_ENABLE) _ _ (by decide), ← typed, ← hw]
  rw [hw]
  split at run
  · exact ⟨u, run, mc, only, reg⟩
  · exact ⟨_, run, (fault_quiet (s := u) _ _ _).mc.trans mc, mcOnly_of_frame only (Frame.refl u _ _).fault,
      (reg_fault _ _ _ _ _ (by decide)).trans reg⟩

end Sys2Proof.Machine

namespace Sys2Proof.Machine

/-! ### All ranks at once (R291) -/

theorem quiet_of_mcRegs {s t : State} (h : t = { s with regs := t.regs, mc := t.mc }) : Quiet { s with mc := t.mc } t := by
  obtain ⟨r, m, only⟩ : ∃ r m, t = { s with regs := r, mc := m } := ⟨_, _, h⟩
  rw [only]
  rfl


/-- The status registers of all ranks. -/
def allStats : List Nat := allRanks.map fun x => MC_RK_STAT x.1 x.2

theorem mem_allRanks {c r : Nat} : (c, r) ∈ allRanks ↔ c < 8 ∧ r < 4 := by
  unfold allRanks
  rw [List.mem_map]
  constructor
  · rintro ⟨i, hi, eq⟩
    rw [List.mem_range] at hi
    obtain ⟨rfl, rfl⟩ := Prod.mk.inj eq
    omega
  · rintro ⟨hc, hr⟩
    exact ⟨4 * c + r, List.mem_range.2 (by omega), Prod.ext (by dsimp only; omega) (by dsimp only; omega)⟩

theorem mem_allStats {off : Nat} : off ∈ allStats ↔ ∃ c r, c < 8 ∧ r < 4 ∧ off = MC_RK_STAT c r := by
  unfold allStats
  rw [List.mem_map]
  constructor
  · rintro ⟨⟨c, r⟩, hm, rfl⟩
    exact ⟨c, r, (mem_allRanks.1 hm).1, (mem_allRanks.1 hm).2, rfl⟩
  · rintro ⟨c, r, hc, hr, rfl⟩
    exact ⟨(c, r), mem_allRanks.2 ⟨hc, hr⟩, rfl⟩

theorem notMem_allStats {off : Nat} (h : off < 0xF01000 ∨ 0xF01710 ≤ off) : off ∉ allStats := fun hm => by
  obtain ⟨c, r, hc, hr, rfl⟩ := mem_allStats.1 hm
  unfold MC_RK_STAT at h
  omega

/-- The self-refresh states of ranks have changed, and what the controller keeps of its ranks and their delays. -/
structure SrMoved (s t : State) : Prop where
  only : t = { s with regs := t.regs, mc := { s.mc with ranks := t.mc.ranks, delays := t.mc.delays } }
  but : RegsBut s t allStats
  kept : ∀ c r, c < 8 → r < 4 → ∀ f : Fld, (f.lo + f.w ≤ 4 ∨ 7 ≤ f.lo) → t.fld (MC_RK_STAT c r) f = s.fld (MC_RK_STAT c r) f

theorem SrMoved.refl (s : State) : SrMoved s s := ⟨rfl, RegsBut.refl _ _, fun _ _ _ _ _ _ => rfl⟩

theorem SrMoved.trans {s t u : State} (h : SrMoved s t) (k : SrMoved t u) : SrMoved s u := by
  refine ⟨?_, h.but.trans k.but, fun c r hc hr f hf => (k.kept c r hc hr f hf).trans (h.kept c r hc hr f hf)⟩
  have first := h.only
  have second := k.only
  rw [first] at second
  exact second

theorem setSr_moved (s : State) {c r : Nat} (hc : c < 8) (hr : r < 4) {v : Nat} (hv : v < 8) :
    SrMoved s (s.setSr c r v) ∧ (s.setSr c r v).srOf c r = v ∧
      ∀ c' r', c' < 8 → r' < 4 → (c' ≠ c ∨ r' ≠ r) → (s.setSr c r v).srOf c' r' = s.srOf c' r' := by
  have apart : ∀ c' r', c' < 8 → r' < 4 → (c' ≠ c ∨ r' ≠ r) → MC_RK_STAT c' r' ≠ MC_RK_STAT c r := fun c' r' _ _ ne => by
    unfold MC_RK_STAT
    omega
  refine ⟨⟨rfl, (RegsBut.refl s _).setFld (mem_allStats.2 ⟨c, r, hc, hr, rfl⟩), fun c' r' hc' hr' f hf => ?_⟩, ?_, fun c' r' hc' hr' ne => ?_⟩
  · by_cases same : c' = c ∧ r' = r
    · rw [same.1, same.2]
      exact fld_setFld_field _ _ _ _ _ hf
    · exact fld_setFld_other _ _ _ _ _ _ (apart c' r' hc' hr' (by omega))
  · exact (fld_setFld_same _ _ _ _ (by decide)).trans (Nat.mod_eq_of_lt hv)
  · exact fld_setFld_other _ _ _ _ _ _ (apart c' r' hc' hr' ne)

theorem SrMoved.installed {s t : State} (h : SrMoved s t) {c r : Nat} (hc : c < 8) (hr : r < 4) : t.installed c r = s.installed c r := by
  have cfg : t.reg MC_CFG = s.reg MC_CFG := h.but _ (notMem_allStats (by decide))
  unfold State.installed State.populated State.role State.nch
  rw [h.kept c r hc hr MC_RK_STAT_ROLE (by decide), bit_of_reg _ cfg, fld_of_reg _ cfg, fld_of_reg _ cfg]

theorem SrMoved.unit {s t : State} (h : SrMoved s t) (u : Nat) : t.unit u = s.unit u :=
  unit_of_reg (h.but _ (notMem_allStats (by unfold ST_USTAT; omega)))

/-- A step of a walk over the ranks, which gives those it takes a self-refresh state. -/
def MovesSr (f : State → Nat × Nat → State) (takes : State → Nat → Nat → Prop) (v : Nat) : Prop :=
  ∀ s c r, c < 8 → r < 4 →
    (takes s c r → SrMoved (s.setSr c r v) (f s (c, r)) ∧ ∀ c' r', (f s (c, r)).srOf c' r' = (s.setSr c r v).srOf c' r') ∧
    (¬ takes s c r → f s (c, r) = s)

theorem ranks_walked {f : State → Nat × Nat → State} {takes : State → Nat → Nat → Prop} {v : Nat} (hv : v < 8) (moves : MovesSr f takes v)
    (congr : ∀ {s t : State}, SrMoved s t → ∀ c r, c < 8 → r < 4 → (takes t c r ↔ takes s c r)) (xs : List (Nat × Nat)) (s : State)
    (range : ∀ x ∈ xs, x.1 < 8 ∧ x.2 < 4) :
    SrMoved s (xs.foldl f s) ∧ (∀ c r, (c, r) ∈ xs → takes s c r → (xs.foldl f s).srOf c r = v) ∧
      ∀ c r, c < 8 → r < 4 → s.srOf c r = v → (xs.foldl f s).srOf c r = v := by
  induction xs generalizing s with
  | nil => exact ⟨SrMoved.refl s, fun _ _ hm => absurd hm List.not_mem_nil, fun _ _ _ _ h => h⟩
  | cons x xs ih =>
    obtain ⟨c, r⟩ := x
    obtain ⟨hc, hr⟩ := range (c, r) List.mem_cons_self
    obtain ⟨takesCase, leavesCase⟩ := moves s c r hc hr
    obtain ⟨moved, here, others⟩ := setSr_moved s hc hr hv
    have step : SrMoved s (f s (c, r)) ∧ (takes s c r → (f s (c, r)).srOf c r = v) ∧
        ∀ c' r', c' < 8 → r' < 4 → s.srOf c' r' = v → (f s (c, r)).srOf c' r' = v := by
      by_cases ht : takes s c r
      · obtain ⟨rest, sr⟩ := takesCase ht
        refine ⟨moved.trans rest, fun _ => (sr c r).trans here, fun c' r' hc' hr' h => ?_⟩
        rw [sr c' r']
        by_cases same : c' = c ∧ r' = r
        · rw [same.1, same.2, here]
        · rw [others c' r' hc' hr' (by omega), h]
      · rw [leavesCase ht]
        exact ⟨SrMoved.refl s, fun h => absurd h ht, fun _ _ _ _ h => h⟩
    obtain ⟨stepMoved, stepHere, stepKeeps⟩ := step
    obtain ⟨restMoved, restHere, restKeeps⟩ := ih (f s (c, r)) fun x hx => range x (List.mem_cons_of_mem _ hx)
    rw [List.foldl_cons]
    refine ⟨stepMoved.trans restMoved, fun c' r' hm ht => ?_, fun c' r' hc' hr' h => restKeeps c' r' hc' hr' (stepKeeps c' r' hc' hr' h)⟩
    rcases List.mem_cons.1 hm with eq | hm
    · obtain ⟨rfl, rfl⟩ := Prod.mk.inj eq
      exact restKeeps c' r' hc hr (stepHere ht)
    · obtain ⟨hc', hr'⟩ := range (c', r') (List.mem_cons_of_mem _ hm)
      exact restHere c' r' hm ((congr stepMoved c' r' hc' hr').2 ht)

theorem allRanks_walked {f : State → Nat × Nat → State} {takes : State → Nat → Nat → Prop} {v : Nat} (hv : v < 8) (moves : MovesSr f takes v)
    (congr : ∀ {s t : State}, SrMoved s t → ∀ c r, c < 8 → r < 4 → (takes t c r ↔ takes s c r)) (s : State) :
    SrMoved s (allRanks.foldl f s) ∧ ∀ c r, c < 8 → r < 4 → takes s c r → (allRanks.foldl f s).srOf c r = v := by
  obtain ⟨moved, here, -⟩ := ranks_walked hv moves congr allRanks s fun x hx => mem_allRanks.1 hx
  exact ⟨moved, fun c r hc hr => here c r (mem_allRanks.2 ⟨hc, hr⟩)⟩

/-! ### The command (R291) -/

theorem regDef_MC_FREQ_CMD : ∃ d, regDef? MC_FREQ_CMD = some d ∧ d.rw = 0x3 ∧ d.rwl = 0 ∧ d.w1c = 0 := by decide

/-- The write of MC_FREQ_CMD as a register: the point is taken, and the rest stays. -/
theorem freqCmd_typed (s : State) (v : Word) :
    ∃ u, s.typedWrite MC_FREQ_CMD v = u ∧ u = { s with regs := u.regs } ∧ RegsBut s u [MC_FREQ_CMD] ∧
      ∀ f : Fld, 2 ≤ f.lo → f.lo + f.w ≤ 32 → u.fld MC_FREQ_CMD f = s.fld MC_FREQ_CMD f := by
  obtain ⟨d, hd, rw_, rwl, w1c⟩ := regDef_MC_FREQ_CMD
  have typed : s.typedWrite MC_FREQ_CMD v = s.setReg MC_FREQ_CMD (merged 0x3 (s.reg MC_FREQ_CMD) v) := by
    rw [typedWrite_plain s v hd rwl w1c, rw_]
  rw [typed]
  refine ⟨_, rfl, rfl, (RegsBut.refl s _).setReg (by simp), fun f lo hi => ?_⟩
  rw [State.fld, reg_setReg_same]
  refine fldGet_congr fun i hiw => ?_
  have upper : ∀ j < 32, 2 ≤ j → (0x3 : Word).getLsbD j = false := by decide
  rw [getLsbD_merged _ _ _ _ (by omega), if_neg (by rw [upper _ (by omega) (by omega)]; decide)]

/-- A change of frequency point waits for no armed job and no migration. -/
def State.freqHeld (s : State) : Bool := s.anyArmed || (List.range 8).any fun c => (s.chanAt c).mig.isSome

/-- The rank goes through self-refresh in a change of frequency point. -/
def State.freqSleeps (s : State) (c r : Nat) : Prop := s.installed c r = true ∧ s.unit (rankUnit c r) ≠ 1

/-- A rank put into self-refresh by a change of frequency point. -/
def State.freqSleep (s : State) (x : Nat × Nat) : State :=
  if s.installed x.1 x.2 ∧ s.unit (rankUnit x.1 x.2) ≠ 1 then
    (((s.setSr x.1 x.2 srInSr).onRank (rankIx x.1 x.2) fun y => { y with sreAt := s.now }).closeRows x.1 x.2).applyDelays x.1 x.2
  else s

theorem SrMoved.of_delays {s t : State} {done : Nat → Prop} (h : DelaysApplied s t done) : SrMoved s t ∧ t.regs = s.regs := by
  obtain ⟨eq, -⟩ := h
  have regs : t.regs = s.regs := by rw [eq]
  have reg : ∀ off, t.reg off = s.reg off := reg_of_regs regs
  exact ⟨⟨by conv_lhs => rw [eq]
             rw [eq], fun off _ => reg off, fun c r _ _ f _ => fld_of_reg f (reg _)⟩, regs⟩

theorem freqSleep_moves : MovesSr State.freqSleep State.freqSleeps srInSr := by
  intro s c r _ _
  refine ⟨fun takes => ?_, fun not => if_neg not⟩
  obtain ⟨u, hu⟩ : ∃ u, ((s.setSr c r srInSr).onRank (rankIx c r) fun y => { y with sreAt := s.now }).closeRows c r = u := ⟨_, rfl⟩
  have eq : s.freqSleep (c, r) = u.applyDelays c r := by
    rw [← hu]
    exact if_pos takes
  have moved : SrMoved (s.setSr c r srInSr) u := by
    rw [← hu]
    exact ⟨rfl, fun _ _ => rfl, fun _ _ _ _ _ _ => rfl⟩
  have regs : u.regs = (s.setSr c r srInSr).regs := by rw [← hu]; rfl
  obtain ⟨applied, regs'⟩ := SrMoved.of_delays (applyDelays_applied u c r)
  rw [eq]
  exact ⟨moved.trans applied, fun c' r' => fld_of_reg _ (reg_of_regs (regs'.trans regs) _)⟩

theorem freqSleeps_congr {s t : State} (h : SrMoved s t) (c r : Nat) (hc : c < 8) (hr : r < 4) : t.freqSleeps c r ↔ s.freqSleeps c r := by
  unfold State.freqSleeps
  rw [h.installed hc hr, h.unit]

/-- The gathers that a change of frequency point ends. -/
def State.gatherStale (s : State) (c : Nat) : State :=
  match (s.chanAt c).gather with
  | some g => s.onChan c fun x => { x with gather := some { g with stale := true } }
  | none => s

theorem gatherStale_inMc (s : State) (c : Nat) : InMc s (s.gatherStale c) := by
  unfold State.gatherStale
  split
  · exact onChan_inMc _ _ _
  · exact InMc.refl s

theorem gatherStale_shows (s : State) (c : Nat) :
    (s.gatherStale c).mc = { s.mc with chans := (s.gatherStale c).mc.chans } ∧
    (∀ g, (s.chanAt c).gather = some g → ((s.gatherStale c).chanAt c).gather = some { g with stale := true }) ∧
    ∀ k, k ≠ c → (s.gatherStale c).chanAt k = s.chanAt k := by
  unfold State.gatherStale
  split
  · next g hg =>
    refine ⟨rfl, fun g' hg' => ?_, fun k hk => by rw [chanAt_onChan, if_neg hk]⟩
    rw [chanAt_onChan, if_pos rfl, Option.some.inj (hg'.symm.trans hg)]
  · next none_ => exact ⟨rfl, ⟨fun g hg => (by rw [none_] at hg; cases hg), fun _ _ => rfl⟩⟩

theorem gathers_stale (s : State) (n : Nat) :
    InMc s (s.each n fun c u => u.gatherStale c) ∧
    (s.each n fun c u => u.gatherStale c).mc = { s.mc with chans := (s.each n fun c u => u.gatherStale c).mc.chans } ∧
    (∀ c < n, ∀ g, (s.chanAt c).gather = some g →
      ((s.each n fun c u => u.gatherStale c).chanAt c).gather = some { g with stale := true }) ∧
    ∀ k, n ≤ k → (s.each n fun c u => u.gatherStale c).chanAt k = s.chanAt k := by
  induction n with
  | zero => exact ⟨InMc.refl s, rfl, fun c hc => absurd hc (Nat.not_lt_zero c), fun _ _ => rfl⟩
  | succ n ih =>
    obtain ⟨inMc, mc, stale, rest⟩ := ih
    rw [each_succ]
    generalize s.each n (fun c u => u.gatherStale c) = u at *
    obtain ⟨mc', here, others⟩ := gatherStale_shows u n
    refine ⟨InMc.trans _ _ _ inMc (gatherStale_inMc u n), ?_, fun c hc g hg => ?_, fun k hk => ?_⟩
    · rw [mc] at mc'
      exact mc'
    · rcases Nat.lt_succ_iff_lt_or_eq.1 hc with lt | rfl
      · rw [others c (Nat.ne_of_lt lt)]
        exact stale c lt g hg
      · exact here g (by rw [rest c (Nat.le_refl c)]; exact hg)
    · rw [others k (by omega)]
      exact rest k (by omega)

theorem freqChange_eq (s : State) (v : Word) {u : State} (hu : s.typedWrite MC_FREQ_CMD (fldPut MC_FREQ_CMD_GO 1 v) = u) :
    exec (.freqChange v) s = .next (
      if u.bit MC_FREQ_CMD MC_FREQ_CMD_BUSY = true then u
      else if u.freqHeld = true then ((u.setFld MC_FREQ_CMD MC_FREQ_CMD_RESULT 2).setEvt BLK_MC 1).fault 0x03C8
      else (allRanks.foldl State.freqSleep ((u.setFld MC_FREQ_CMD MC_FREQ_CMD_BUSY 1).onMc fun m =>
        { m with freqTo := fldGet MC_FREQ_CMD_POINT v })).each 8 fun c u => u.gatherStale c) := by
  have go : fldGet MC_FREQ_CMD_GO (fldPut MC_FREQ_CMD_GO 1 v) ≠ 0 := by
    rw [fldGet_fldPut_same _ _ _ (by decide)]
    decide
  have point : fldGet MC_FREQ_CMD_POINT (fldPut MC_FREQ_CMD_GO 1 v) = fldGet MC_FREQ_CMD_POINT v := fldGet_fldPut_field _ _ (by decide)
  change Host.Outcome.next (s.freqCmdWrite _) = _
  unfold State.freqCmdWrite
  rw [hu]
  dsimp only
  simp only [go, false_or, point]
  rfl

theorem freqHeld_congr {s u : State} (regs : RegsBut s u [MC_FREQ_CMD]) (mc : u.mc = s.mc) : u.freqHeld = s.freqHeld := by
  have slot : ∀ j, j < 2 → u.slotState j = s.slotState j := fun j hj =>
    slotState_of_reg (regs _ (by simp [ADM_SLOT_STAT, MC_FREQ_CMD]; omega))
  unfold State.freqHeld State.anyArmed State.chanAt
  rw [mc]
  simp only [List.any_cons, List.any_nil, slot 0 (by decide), slot 1 (by decide)]

theorem freqChange_busy {s : State} (v : Word) (busy : s.bit MC_FREQ_CMD MC_FREQ_CMD_BUSY = true) :
    ∃ t, exec (.freqChange v) s = .next t ∧ t.bit MC_FREQ_CMD MC_FREQ_CMD_BUSY = true ∧ t.mc = s.mc ∧ mcOnly s t [MC_FREQ_CMD] := by
  obtain ⟨u, hu, only, but, fields⟩ := freqCmd_typed s (fldPut MC_FREQ_CMD_GO 1 v)
  have still : u.bit MC_FREQ_CMD MC_FREQ_CMD_BUSY = true := by
    rw [State.bit, fields _ (by decide) (by decide)]
    exact busy
  have run := freqChange_eq s v hu
  rw [if_pos still] at run
  refine ⟨u, run, still, by rw [only], ?_⟩
  exact ⟨by unfold Quiet; rw [only], but.mono (List.subset_append_left _ _)⟩

theorem freqChange_refused {s : State} (v : Word) (idle : s.bit MC_FREQ_CMD MC_FREQ_CMD_BUSY = false) (held : s.freqHeld = true) :
    ∃ t, exec (.freqChange v) s = .next t ∧ t.bit MC_FREQ_CMD MC_FREQ_CMD_BUSY = false ∧
      t.fld MC_FREQ_CMD MC_FREQ_CMD_RESULT = 2 ∧ EventSet t BLK_MC 1 ∧ Reported s t 0x03C8 0xFF 0 ∧
      t.mc = s.mc ∧ mcOnly s t [MC_FREQ_CMD] := by
  obtain ⟨u, hu, only, but, fields⟩ := freqCmd_typed s (fldPut MC_FREQ_CMD_GO 1 v)
  have mc : u.mc = s.mc := by rw [only]
  have queues : u.si.queues = s.si.queues := by rw [only]
  have still : u.bit MC_FREQ_CMD MC_FREQ_CMD_BUSY = false := by
    rw [State.bit, fields _ (by decide) (by decide)]
    exact idle
  have run := freqChange_eq s v hu
  rw [still, if_neg Bool.false_ne_true, freqHeld_congr but mc, if_pos held] at run
  have first : mcOnly s u [MC_FREQ_CMD] := ⟨by unfold Quiet; rw [only], but.mono (List.subset_append_left _ _)⟩
  obtain ⟨w, hw⟩ : ∃ w, u.setFld MC_FREQ_CMD MC_FREQ_CMD_RESULT 2 = w := ⟨_, rfl⟩
  have reg : ((w.setEvt BLK_MC 1).fault 0x03C8).reg MC_FREQ_CMD = w.reg MC_FREQ_CMD :=
    (reg_fault _ _ _ _ _ (by decide)).trans (reg_setEvt_of_notMem _ _ _ _ (by decide))
  have wmc : w.mc = s.mc := by rw [← hw]; exact mc
  have wq : (w.setEvt BLK_MC 1).si.queues = s.si.queues := by rw [setEvt_si, ← hw]; exact queues
  have wonly : mcOnly s (w.setEvt BLK_MC 1) [MC_FREQ_CMD] := mcOnly_setEvt (hw ▸ mcOnly_setFld first (by simp))
  have evt : EventSet (w.setEvt BLK_MC 1) BLK_MC 1 := setEvt_eventSet _ _ _ (by decide)
  rw [hw] at run
  refine ⟨_, run, ?_, ?_, evt.fault _ _ _, fault_reportedFrom _ _ _ wq, ?_, mcOnly_of_frame wonly (Frame.refl _ _ _).fault⟩
  · rw [bit_of_reg _ reg, ← hw, State.bit, fld_setFld_field _ _ _ _ _ (by decide)]
    exact still
  · rw [fld_of_reg _ reg, ← hw]
    exact fld_setFld_same _ _ _ _ (by decide)
  · exact (fault_quiet _ _ _ _).mc.trans ((setEvt_quiet _ _ _).mc.trans wmc)

theorem freqChange_takes {s : State} (v : Word) (idle : s.bit MC_FREQ_CMD MC_FREQ_CMD_BUSY = false) (free : s.freqHeld = false) :
    ∃ t, exec (.freqChange v) s = .next t ∧ t.bit MC_FREQ_CMD MC_FREQ_CMD_BUSY = true ∧
      t.mc.freqTo = fldGet MC_FREQ_CMD_POINT v ∧
      (∀ c r, c < 8 → r < 4 → s.installed c r = true → s.unit (rankUnit c r) ≠ 1 → t.srOf c r = srInSr) ∧
      (∀ c g, c < 8 → (s.chanAt c).gather = some g → (t.chanAt c).gather = some { g with stale := true }) ∧
      mcOnly s t (MC_FREQ_CMD :: allRanks.map fun x => MC_RK_STAT x.1 x.2) := by
  obtain ⟨u, hu, only, but, fields⟩ := freqCmd_typed s (fldPut MC_FREQ_CMD_GO 1 v)
  have mc : u.mc = s.mc := by rw [only]
  have still : u.bit MC_FREQ_CMD MC_FREQ_CMD_BUSY = false := by
    rw [State.bit, fields _ (by decide) (by decide)]
    exact idle
  have run := freqChange_eq s v hu
  rw [still, if_neg Bool.false_ne_true, freqHeld_congr but mc, free, if_neg Bool.false_ne_true] at run
  obtain ⟨w, hw⟩ : ∃ w, ((u.setFld MC_FREQ_CMD MC_FREQ_CMD_BUSY 1).onMc fun m => { m with freqTo := fldGet MC_FREQ_CMD_POINT v }) = w :=
    ⟨_, rfl⟩
  have wBusy : w.bit MC_FREQ_CMD MC_FREQ_CMD_BUSY = true := by
    rw [← hw]
    exact bit_setFld_same u MC_FREQ_CMD MC_FREQ_CMD_BUSY true rfl (by decide)
  have wMc : w.mc = { s.mc with freqTo := fldGet MC_FREQ_CMD_POINT v } := by rw [← hw, ← mc]; rfl
  have wRegs : RegsBut s w [MC_FREQ_CMD] := by
    rw [← hw]
    exact but.setFld (by simp)
  have wOnly : mcOnly s w [MC_FREQ_CMD] := by
    refine ⟨?_, wRegs.mono (List.subset_append_left _ _)⟩
    rw [← hw]
    unfold Quiet
    rw [only]
    rfl
  have wSleeps : ∀ c r, c < 8 → r < 4 → s.installed c r = true → s.unit (rankUnit c r) ≠ 1 → w.freqSleeps c r := by
    intro c r hc hr installed unit
    have cfg : w.reg MC_CFG = s.reg MC_CFG := wRegs _ (by decide)
    have stat : w.reg (MC_RK_STAT c r) = s.reg (MC_RK_STAT c r) := wRegs _ (by simp [MC_RK_STAT, MC_FREQ_CMD]; omega)
    have uStat : w.reg (ST_USTAT (rankUnit c r)) = s.reg (ST_USTAT (rankUnit c r)) := wRegs _ (by simp [ST_USTAT, MC_FREQ_CMD]; omega)
    refine ⟨?_, by rw [unit_of_reg uStat]; exact unit⟩
    rw [← installed]
    unfold State.installed State.populated State.role State.nch
    rw [fld_of_reg _ stat, bit_of_reg _ cfg, fld_of_reg _ cfg, fld_of_reg _ cfg]
  rw [hw] at run
  obtain ⟨moved, asleep⟩ := allRanks_walked (by decide) freqSleep_moves (fun h c r hc hr => freqSleeps_congr h c r hc hr) w
  generalize allRanks.foldl State.freqSleep w = x at *
  obtain ⟨inMc, tMc, stale, -⟩ := gathers_stale x 8
  generalize x.each 8 (fun c u => u.gatherStale c) = t at *
  have regs : t.regs = x.regs := by rw [show t = { x with mc := t.mc } from inMc]
  have reg : ∀ off, t.reg off = x.reg off := reg_of_regs regs
  have xMc : x.mc = { w.mc with ranks := x.mc.ranks, delays := x.mc.delays } := by conv_lhs => rw [moved.only]
  have xChans : ∀ c, x.chanAt c = s.chanAt c := fun c => by
    unfold State.chanAt
    rw [xMc, wMc]
  refine ⟨t, run, ?_, ?_, fun c r hc hr installed unit => ?_, fun c g hc hg => ?_, ?_⟩
  · rw [bit_of_reg _ (reg _), bit_of_reg _ (moved.but _ (notMem_allStats (by decide)))]
    exact wBusy
  · rw [tMc]
    change x.mc.freqTo = _
    rw [xMc, wMc]
  · exact (fld_of_reg _ (reg _)).trans (asleep c r hc hr (wSleeps c r hc hr installed unit))
  · exact stale c hc g (by rw [xChans]; exact hg)
  · refine mcOnly_inMc (mcOnly_trans (mcOnly_mono wOnly (by simp)) ⟨?_, moved.but.mono ?_⟩) inMc
    · have only := moved.only
      rw [← xMc] at only
      exact quiet_of_mcRegs only
    · exact fun off ho => List.mem_append_left _ (List.mem_cons_of_mem _ ho)

end Sys2Proof.Machine

namespace Sys2Proof.Machine

/-! ### What the service of waiting requests leaves (R291, R297) -/

/-- MC_FREQ_CMD stays, and so does the event of a change of frequency point once it stands. -/
def FreqShown (s t : State) : Prop :=
  t.reg MC_FREQ_CMD = s.reg MC_FREQ_CMD ∧ (EventSet s BLK_MC 1 → EventSet t BLK_MC 1)

section
variable {s t u : State}

theorem FreqShown.refl (s : State) : FreqShown s s := ⟨rfl, id⟩

theorem FreqShown.trans (s t u : State) (h : FreqShown s t) (k : FreqShown t u) : FreqShown s u :=
  ⟨k.1.trans h.1, fun e => k.2 (h.2 e)⟩

theorem FreqShown.of_reg (h : FreqShown s t) (cmd : u.reg MC_FREQ_CMD = t.reg MC_FREQ_CMD)
    (evt : u.reg (evtReg BLK_MC) = t.reg (evtReg BLK_MC)) : FreqShown s u :=
  ⟨cmd.trans h.1, fun e => (h.2 e).of_reg evt⟩

theorem FreqShown.of_regs (h : FreqShown s t) (regs : u.regs = t.regs) : FreqShown s u :=
  h.of_reg (reg_of_regs regs _) (reg_of_regs regs _)

theorem FreqShown.of_inMc (h : FreqShown s t) (k : InMc t u) : FreqShown s u := by
  refine h.of_regs ?_
  rw [show u = { t with mc := u.mc } from k]

theorem FreqShown.of_scheduler (h : FreqShown s t) (k : ByScheduler t u) : FreqShown s u :=
  h.of_reg (k.2 _ (by decide) (by decide) fun c r => by unfold MC_FREQ_CMD MC_RK_STAT; omega)
    (k.2 _ (by decide) (by decide) fun c r => by simp only [evtReg, BLK_MC, MC_RK_STAT, BLK_LC, BLK_ADM]; norm_num; omega)

end

/-! ### What reports and migrations keep -/

/-- A relation that the abandoned test of a unit keeps. -/
structure KeptByTests (R : State → State → Prop) : Prop where
  refl : ∀ s, R s s
  trans : ∀ s t u, R s t → R t u → R s u
  setReg : ∀ s off v, 0x1800000 ≤ off → R s (s.setReg off v)
  setEvt : ∀ s n, R s (s.setEvt BLK_ST n)
  fault : ∀ s inst info, R s (s.fault 0x0602 inst info)
  draw : ∀ s, R s s.draw.2
  onSt : ∀ s f, R s (s.onSt f)

namespace KeptByTests
variable {R : State → State → Prop} (h : KeptByTests R)
include h

theorem setFld (s : State) {off : Nat} (f : Fld) (x : Nat) (ho : 0x1800000 ≤ off) : R s (s.setFld off f x) := h.setReg s off _ ho

theorem stFault (s : State) (u : Nat) : R s (s.stFault 0x0602 u) := h.trans _ _ _ (h.draw s) (h.fault _ _ _)

theorem stDone (s : State) (result : Nat) : R s (s.stDone result) :=
  h.trans _ _ _ (h.trans _ _ _ (h.setFld s _ _ (by decide)) (h.setFld _ _ _ (by decide))) (h.setEvt _ _)

/-- The test of a unit behind the cores and the pipes ends: nothing of memory or of another unit is left to clear. -/
theorem abandonTest (s : State) {u : Nat} (behind : 148 ≤ u) : R s (s.abandonTest u) := by
  have high : 0x1800000 ≤ ST_USTAT u := by unfold ST_USTAT; omega
  unfold State.abandonTest
  split
  · exact h.refl s
  · next t _ =>
    obtain ⟨v, hv⟩ : ∃ v, s.onSt (fun x => { x with tests := x.tests.set none u none }) = v := ⟨_, rfl⟩
    have first : R s v := hv ▸ h.onSt s _
    have noCore : (decide (u < 144) && v.coreTestRuns u) = false := by rw [decide_eq_false (by omega), Bool.false_and]
    dsimp only
    rw [hv, noCore, if_neg Bool.false_ne_true]
    obtain ⟨back, hback⟩ : ∃ back, (if unitClass u = 1 then v.pipeUnit (u - 144) else t.prev) = back := ⟨_, rfl⟩
    rw [hback]
    obtain ⟨w, hw⟩ : ∃ w, (v.setUnit u back).setFld (ST_USTAT u) ST_USTAT_LAST 3 = w := ⟨_, rfl⟩
    have shown : R s w := h.trans _ _ _ first (hw ▸ h.trans _ _ _ (h.setFld v _ _ high) (h.setFld _ _ _ high))
    rw [hw]
    obtain ⟨x, hx⟩ : ∃ x, (w.setEvt BLK_ST 4).count (ST_CNT 2) = x := ⟨_, rfl⟩
    have counted : R s x := h.trans _ _ _ shown (hx ▸ h.trans _ _ _ (h.setEvt w 4) (h.setReg _ _ _ (by decide)))
    rw [hx]
    have reported : R s (x.stFault 0x0602 u) := h.trans _ _ _ counted (h.stFault x u)
    split
    · exact reported
    · exact h.trans _ _ _ reported (h.stDone _ 4)

end KeptByTests

/-- A relation that every part of the controller's reports and of the start of a migration keeps. -/
structure KeptByDram (R : State → State → Prop) : Prop where
  refl : ∀ s, R s s
  trans : ∀ s t u, R s t → R t u → R s u
  inMc : ∀ s t, InMc s t → R s t
  scheduler : ∀ s t, ByScheduler s t → R s t
  setReg : ∀ s off v, 0xF01000 ≤ off → R s (s.setReg off v)
  count : ∀ s k, k < 16 → R s (s.count (MC_CNT k))
  setEvt : ∀ s blk n, (blk = BLK_MC ∨ blk = BLK_ST) → R s (s.setEvt blk n)
  fault : ∀ s code inst info, R s (s.fault code inst info)
  faultCounted : ∀ s code inst info n window, R s (s.faultCounted code inst info n window).2
  draw : ∀ s, R s s.draw.2
  onSt : ∀ s f, R s (s.onSt f)

namespace KeptByDram
variable {R : State → State → Prop} (h : KeptByDram R)
include h

theorem setFld (s : State) {off : Nat} (f : Fld) (x : Nat) (ho : 0xF01000 ≤ off) : R s (s.setFld off f x) := h.setReg s off _ ho

theorem stat {c r : Nat} (s : State) (f : Fld) (x : Nat) : R s (s.setFld (MC_RK_STAT c r) f x) :=
  h.setFld s f x (by unfold MC_RK_STAT; omega)

theorem mig {c : Nat} (s : State) (f : Fld) (x : Nat) : R s (s.setFld (MC_MIG_STAT c) f x) :=
  h.setFld s f x (by unfold MC_MIG_STAT; omega)

theorem evt (s : State) (n : Nat) : R s (s.setEvt BLK_MC n) := h.setEvt s _ n (.inl rfl)

theorem wakeRank (s : State) (c r : Nat) : R s (s.wakeRank c r) := by
  unfold State.wakeRank
  split_ifs
  · exact h.refl s
  · exact h.scheduler _ _ (setSr_byScheduler s c r _)
  · exact h.refl s
  · exact h.scheduler _ _ (srLeaves_byScheduler s c r)

theorem tests : KeptByTests R where
  refl := h.refl
  trans := h.trans
  setReg s off v ho := h.setReg s off v (by omega)
  setEvt s n := h.setEvt s _ n (.inr rfl)
  fault s := h.fault s 0x0602
  draw := h.draw
  onSt := h.onSt

theorem migRefuse (s : State) (c : Nat) : R s (s.migRefuse c) := by
  unfold State.migRefuse
  dsimp only
  split
  · exact h.fault _ _ _ _
  · exact h.trans _ _ _ (h.mig s _ _) (h.fault _ _ _ _)

theorem migStart (s : State) (c src : Nat) : R s (s.migStart c src) := by
  unfold State.migStart
  split
  · exact h.migRefuse s c
  · next dst _ =>
    split
    · exact h.migRefuse s c
    · have ended : R s (s.abandonTest (rankUnit c dst)) := h.tests.abandonTest s (by unfold rankUnit; omega)
      generalize s.abandonTest (rankUnit c dst) = u at *
      obtain ⟨v, hv⟩ : ∃ v, u.onChan c (fun x => { x with mig := some { src := src, dst := dst, copied := 0 } }) = v := ⟨_, rfl⟩
      have held : R u v := hv ▸ h.inMc _ _ (onChan_inMc u c _)
      obtain ⟨w, hw⟩ : ∃ w, (v.setFld (MC_RK_STAT c src) MC_RK_STAT_MIG 1).setFld (MC_RK_STAT c dst) MC_RK_STAT_MIG 1 = w := ⟨_, rfl⟩
      have marked : R v w := hw ▸ h.trans _ _ _ (h.stat v _ _) (h.stat _ _ _)
      have woken : R w ((w.wakeRank c src).wakeRank c dst) := h.trans _ _ _ (h.wakeRank w c src) (h.wakeRank _ c dst)
      dsimp only
      rw [hv, hw]
      generalize (w.wakeRank c src).wakeRank c dst = x at *
      have shown : R x (((x.setFld (MC_MIG_STAT c) MC_MIG_STAT_STATE 1).setFld (MC_MIG_STAT c) MC_MIG_STAT_PCT 0).setEvt BLK_MC 2) :=
        h.trans _ _ _ (h.trans _ _ _ (h.mig x _ _) (h.mig _ _ _)) (h.evt _ 2)
      exact h.trans _ _ _ (h.trans _ _ _ ended (h.trans _ _ _ held marked)) (h.trans _ _ _ woken shown)

theorem rankFails (s : State) (c r : Nat) : R s (s.rankFails c r) := by
  unfold State.rankFails
  split
  · exact h.refl s
  · have marked : R s (((s.setFld (MC_RK_STAT c r) MC_RK_STAT_LASTING 1).setEvt BLK_MC 5).fault 0x23C5 (rankIx c r)) :=
      h.trans _ _ _ (h.trans _ _ _ (h.stat s _ _) (h.evt _ 5)) (h.fault _ _ _ _)
    dsimp only
    split
    · exact h.trans _ _ _ marked (h.migStart _ c r)
    · exact marked

theorem correctedError (s : State) (c r : Nat) : R s (s.correctedError c r) := by
  unfold State.correctedError
  obtain ⟨u, hu⟩ : ∃ u, (s.onRank (rankIx c r) fun x => { x with
    ces := (x.ces.filter fun t => decide (s.now - t < ticksHour)) ++ [s.now] }).count (MC_CNT 0) = u := ⟨_, rfl⟩
  have counted : R s u := hu ▸ h.trans _ _ _ (h.inMc _ _ (onRank_inMc s _ _)) (h.count _ 0 (by decide))
  rw [hu]
  have reported : R s (u.faultCounted 0x13C1 (rankIx c r) 0 32 ticksHour).2 := h.trans _ _ _ counted (h.faultCounted u _ _ _ _ _)
  dsimp only
  split
  · exact h.trans _ _ _ reported (h.rankFails _ c r)
  · exact reported

theorem writeBack (s : State) (line : Nat) : R s (s.writeBack line) := by
  unfold State.writeBack
  dsimp only
  split
  · split
    · exact h.refl s
    · exact h.trans _ _ _ (h.scheduler _ _ (dramWake_byScheduler _ _ _ _ _)) (h.inMc _ _ (dramQueue_inMc _ _ _ _ _ _))
  · exact h.trans _ _ _ (h.scheduler _ _ (portGrant_byScheduler _ _ _ _)) (h.inMc _ _ (acceptWrite_inMc _ _ _ _ _ _))

theorem poisonReport (s : State) (line : Nat) : R s (s.poisonReport line) := by
  unfold State.poisonReport
  split
  · exact h.fault _ _ _ _
  · exact h.trans _ _ _ (h.trans _ _ _ (h.count s 1 (by decide)) (h.evt _ 4)) (h.fault _ _ _ _)

end KeptByDram

theorem freqShown_kept : KeptByDram FreqShown where
  refl := FreqShown.refl
  trans := FreqShown.trans
  inMc s _ h := (FreqShown.refl s).of_inMc h
  scheduler s _ h := (FreqShown.refl s).of_scheduler h
  setReg s off v ho := (FreqShown.refl s).of_reg (reg_setReg_other _ _ _ _ (by unfold MC_FREQ_CMD; omega))
    (reg_setReg_other _ _ _ _ (by change 0xF00020 ≠ off; omega))
  count s k hk := (FreqShown.refl s).of_reg (reg_setReg_other _ _ _ _ (by unfold MC_FREQ_CMD MC_CNT; omega))
    (reg_setReg_other _ _ _ _ (by change 0xF00020 ≠ _; unfold MC_CNT; omega))
  setEvt s blk n hb := by
    refine ⟨reg_setEvt_of_notMem _ _ _ _ ?_, fun e => e.setEvt _ _⟩
    rcases hb with rfl | rfl <;> decide
  fault s code inst info := ⟨reg_fault _ _ _ _ _ (by decide), fun e => e.fault _ _ _⟩
  faultCounted s code inst info n window := ⟨reg_faultCounted _ _ _ _ _ _ _ (by decide), fun e => e.faultCounted _ _ _ _ _⟩
  draw s := (FreqShown.refl s).of_regs rfl
  onSt s f := (FreqShown.refl s).of_regs rfl

/-! ### Service -/

theorem uncorrectable_freqShown (s : State) (mirrored : Bool) (c r line : Nat) : FreqShown s (s.uncorrectable mirrored c r line) := by
  have h := freqShown_kept
  unfold State.uncorrectable
  refine FreqShown.trans _ _ _ ?_ (h.rankFails _ c r)
  split
  · exact h.trans _ _ _ (h.trans _ _ _ (h.trans _ _ _ (h.count s 2 (by decide)) (h.evt _ 4)) (h.fault _ _ _ _)) (h.writeBack _ line)
  · exact FreqShown.trans _ (s.setPoison line) _ ((FreqShown.refl s).of_regs rfl) (h.poisonReport _ line)

theorem eccVerdict_regs (s : State) (check : ReadCheck) : (s.eccVerdict check).2.2.regs = s.regs := by
  unfold State.eccVerdict
  split
  · rfl
  · split <;> rfl

theorem checkLine_freqShown (s : State) (check : ReadCheck) (chan line : Nat) : FreqShown s (s.checkLine check chan line).2.2 := by
  unfold State.checkLine
  dsimp only
  split
  · exact FreqShown.refl s
  · next c r _ _ =>
    have judged : FreqShown s (s.eccVerdict check).2.2 := (FreqShown.refl s).of_regs (eccVerdict_regs s check)
    generalize s.eccVerdict check = e at *
    obtain ⟨v, wrong, u⟩ := e
    dsimp only at *
    split
    · exact FreqShown.trans _ _ _ judged (uncorrectable_freqShown u _ c r line)
    · have corrected : FreqShown s (if v = .corrected then (u.correctedError c r).writeBack line else u) := by
        split
        · exact FreqShown.trans _ _ _ judged (FreqShown.trans _ _ _ (freqShown_kept.correctedError u c r) (freqShown_kept.writeBack _ line))
        · exact judged
      generalize (if v = .corrected then (u.correctedError c r).writeBack line else u) = w at *
      split
      · exact FreqShown.trans _ _ _ corrected (freqShown_kept.poisonReport w line)
      · exact corrected

/-- One line of a read that is served. -/
def State.checkStep (early : Bool) (check : ReadCheck) (chan : Nat) (acc : Bool × Bool × State) (x : Nat × Nat) : Bool × Bool × State :=
  let l := acc.2.2.checkLine (if x.2 = 0 ∧ early = false then check else .clean) chan x.1
  (acc.1 || l.1, acc.2.1 || l.2.1, l.2.2)

theorem checkSteps_freqShown (early : Bool) (check : ReadCheck) (chan : Nat) (xs : List (Nat × Nat)) {s : State} {acc : Bool × Bool × State}
    (h : FreqShown s acc.2.2) : FreqShown s (xs.foldl (State.checkStep early check chan) acc).2.2 := by
  induction xs generalizing acc with
  | nil => exact h
  | cons x xs ih => exact ih (FreqShown.trans _ _ _ h (checkLine_freqShown _ _ _ _))

theorem serve_freqShown (s : State) (port src chan a : Nat) (hint : PageHint) (op : DramOp) :
    FreqShown s (s.serve port src chan a hint op) := by
  cases op with
  | write d => exact ((FreqShown.refl s).of_inMc (acceptWrite_inMc s port src hint a d.length)).of_regs rfl
  | read n check =>
    obtain ⟨e, he⟩ : ∃ e, (linesOf a n).zipIdx.foldl (State.checkStep (s.buffered chan (a / 64)) check chan)
      (false, false, s.issueRead chan hint a n) = e := ⟨_, rfl⟩
    have checked : FreqShown s e.2.2 := by
      rw [← he]
      exact checkSteps_freqShown _ _ _ _ ((FreqShown.refl s).of_inMc (issueRead_inMc s chan hint a n))
    have eq : s.serve port src chan a hint (.read n check) =
        let x := if e.2.1 then ((List.range n).map (Config.freeByte e.2.2.draw.1), e.2.2.draw.2) else (e.2.2.loadBytes a n, e.2.2)
        x.2.onMc fun m => { m with answer := x.1, bad := e.1 } := by
      rw [← he]
      rfl
    rw [eq]
    dsimp only
    split
    · exact checked.of_regs rfl
    · exact checked.of_regs rfl

theorem dramEnter_inMc (s : State) : InMc s s.dramEnter := by
  unfold State.dramEnter
  refine foldl_keeps InMc InMc.refl InMc.trans _ (fun u x => ?_) _ s
  dsimp only
  split
  · exact InMc.refl u
  · rfl

theorem issueOne_freqShown (s : State) (i : Nat) : FreqShown s (s.issueOne i) := by
  unfold State.issueOne
  split
  · exact FreqShown.refl s
  · next w _ =>
    obtain ⟨u, hu⟩ : ∃ u, s.onMc (fun m => { m with waiting := m.waiting.eraseIdx i }) = u := ⟨_, rfl⟩
    have taken : FreqShown s u := hu ▸ (FreqShown.refl s).of_inMc rfl
    dsimp only
    rw [hu]
    refine FreqShown.of_inMc ?_ (dramEnter_inMc _)
    split
    · exact FreqShown.trans _ _ _ taken (serve_freqShown u _ _ _ _ _ _)
    · split
      · exact taken.of_inMc (acceptWrite_inMc _ _ _ _ _ _)
      · exact taken.of_inMc rfl
    · exact (taken.of_inMc (issueRead_inMc u _ _ _ _)).of_inMc rfl

theorem serveNext_freqShown (s : State) (c : Nat) : FreqShown s (s.serveNext c) := by
  have chosen : FreqShown s (s.schedule c (s.issuable c ++ s.drainable c)).2 :=
    (FreqShown.refl s).of_scheduler (schedule_byScheduler s c _)
  unfold State.serveNext
  generalize s.schedule c (s.issuable c ++ s.drainable c) = e at *
  obtain ⟨x, u⟩ := e
  cases x with
  | none => exact chosen
  | some x =>
    dsimp only at *
    split
    · exact chosen.of_inMc (drainOne_inMc u c _)
    · exact FreqShown.trans _ _ _ chosen (issueOne_freqShown u _)

theorem serveWaiting_freqShown (s : State) : FreqShown s s.serveWaiting := by
  unfold State.serveWaiting State.each
  refine foldl_keeps FreqShown FreqShown.refl FreqShown.trans _ (fun u _ => ?_) _ s
  exact foldl_keeps FreqShown FreqShown.refl FreqShown.trans _ (fun w c => serveNext_freqShown w c) _ u

theorem serveWaiting_idle {s : State} (none_ : s.dramLoad = 0) : s.serveWaiting = s := by
  unfold State.serveWaiting
  rw [none_]
  rfl

end Sys2Proof.Machine

namespace Sys2Proof.Machine

/-- A rank that leaves self-refresh at the end of a change of frequency point. -/
def State.freqWake (s : State) (x : Nat × Nat) : State := if s.installed x.1 x.2 then s.setSr x.1 x.2 srAwake else s

theorem freqWake_moves : MovesSr State.freqWake (fun s c r => s.installed c r = true) srAwake := by
  intro s c r _ _
  refine ⟨fun takes => ?_, fun not => if_neg not⟩
  have eq : s.freqWake (c, r) = s.setSr c r srAwake := if_pos takes
  rw [eq]
  exact ⟨SrMoved.refl _, fun _ _ => rfl⟩

/-- The registers of a change of frequency point that has ended. -/
def State.freqEnded (s : State) (point : Nat) : State :=
  (((s.setFld MC_FREQ_CMD MC_FREQ_CMD_CUR point).setFld MC_FREQ_CMD MC_FREQ_CMD_BUSY 0).setFld MC_FREQ_CMD MC_FREQ_CMD_RESULT 1).setEvt
    BLK_MC 1

theorem freqEnded_shows (s : State) {point : Nat} (h : point < 4) :
    (s.freqEnded point).fld MC_FREQ_CMD MC_FREQ_CMD_CUR = point ∧ (s.freqEnded point).bit MC_FREQ_CMD MC_FREQ_CMD_BUSY = false ∧
    (s.freqEnded point).fld MC_FREQ_CMD MC_FREQ_CMD_RESULT = 1 ∧ EventSet (s.freqEnded point) BLK_MC 1 ∧
    Frame s (s.freqEnded point) [MC_FREQ_CMD] [BLK_MC] := by
  obtain ⟨u, hu⟩ : ∃ u, s.setFld MC_FREQ_CMD MC_FREQ_CMD_CUR point = u := ⟨_, rfl⟩
  obtain ⟨v, hv⟩ : ∃ v, u.setFld MC_FREQ_CMD MC_FREQ_CMD_BUSY 0 = v := ⟨_, rfl⟩
  have cur : u.fld MC_FREQ_CMD MC_FREQ_CMD_CUR = point := by
    rw [← hu, fld_setFld_same _ _ _ _ (by decide)]
    exact Nat.mod_eq_of_lt h
  have busy : v.bit MC_FREQ_CMD MC_FREQ_CMD_BUSY = false := hv ▸ bit_setFld_same u MC_FREQ_CMD MC_FREQ_CMD_BUSY false rfl (by decide)
  have reg : (s.freqEnded point).reg MC_FREQ_CMD = (v.setFld MC_FREQ_CMD MC_FREQ_CMD_RESULT 1).reg MC_FREQ_CMD := by
    rw [← hv, ← hu]
    exact reg_setEvt_of_notMem _ _ _ _ (by decide)
  refine ⟨?_, ?_, ?_, setEvt_eventSet _ _ _ (by decide), ?_⟩
  · rw [fld_of_reg _ reg, fld_setFld_field _ _ _ _ _ (by decide), ← hv, fld_setFld_field _ _ _ _ _ (by decide)]
    exact cur
  · rw [bit_of_reg _ reg, State.bit, fld_setFld_field _ _ _ _ _ (by decide)]
    exact busy
  · rw [fld_of_reg _ reg]
    exact fld_setFld_same _ _ _ _ (by decide)
  · exact ((((Frame.refl s _ _).setFld (by simp)).setFld (by simp)).setFld (by simp)).setEvt (by simp)

theorem dramLoad_congr {s t : State} (waiting : t.mc.waiting = s.mc.waiting) (chans : t.mc.chans = s.mc.chans) : t.dramLoad = s.dramLoad := by
  unfold State.dramLoad State.chanAt
  rw [waiting, chans]

theorem freqDone_ends {s : State} (busy : s.bit MC_FREQ_CMD MC_FREQ_CMD_BUSY = true) (point : s.mc.freqTo < 4) :
    ∃ t, exec .freqDone s = .next t ∧ t.fld MC_FREQ_CMD MC_FREQ_CMD_CUR = s.mc.freqTo ∧
      t.bit MC_FREQ_CMD MC_FREQ_CMD_BUSY = false ∧ t.fld MC_FREQ_CMD MC_FREQ_CMD_RESULT = 1 ∧
      EventSet t BLK_MC 1 ∧
      (s.dramLoad = 0 →
        (∀ c r, c < 8 → r < 4 → s.installed c r = true → t.srOf c r = srAwake) ∧
        mcOnly s t (MC_FREQ_CMD :: allRanks.map fun x => MC_RK_STAT x.1 x.2)) := by
  obtain ⟨moved, awake⟩ := allRanks_walked (by decide) freqWake_moves
    (fun h c r hc hr => by rw [h.installed hc hr]) s
  obtain ⟨u, hu⟩ : ∃ u, allRanks.foldl State.freqWake s = u := ⟨_, rfl⟩
  have run : exec .freqDone s = .next (u.freqEnded u.mc.freqTo).serveWaiting := by
    rw [← hu]
    exact congrArg Host.Outcome.next (if_pos busy)
  rw [hu] at moved awake
  have mc : u.mc = { s.mc with ranks := u.mc.ranks, delays := u.mc.delays } := by conv_lhs => rw [moved.only]
  have freqTo : u.mc.freqTo = s.mc.freqTo := by rw [mc]
  rw [freqTo] at run
  obtain ⟨cur, done, result, evt, frame⟩ := freqEnded_shows u point
  generalize u.freqEnded s.mc.freqTo = v at *
  obtain ⟨cmd, keepEvt⟩ := serveWaiting_freqShown v
  refine ⟨_, run, (fld_of_reg _ cmd).trans cur, (bit_of_reg _ cmd).trans done, (fld_of_reg _ cmd).trans result, keepEvt evt, fun idle => ?_⟩
  have load : v.dramLoad = 0 := by
    rw [dramLoad_congr (s := s) (by rw [frame.1.mc, mc]) (by rw [frame.1.mc, mc])]
    exact idle
  rw [serveWaiting_idle load]
  constructor
  · intro c r hc hr installed
    have apart : MC_RK_STAT c r ∉ [MC_FREQ_CMD] ++ reportRegs [BLK_MC] := by
      intro hm
      rcases List.mem_append.1 hm with hm | hm
      · rw [List.mem_singleton] at hm
        unfold MC_RK_STAT MC_FREQ_CMD at hm
        omega
      · exact mcNotReport (by unfold MC_RK_STAT; omega) (by unfold MC_RK_STAT; omega) hm
    exact (fld_of_reg _ (frame.2 _ apart)).trans (awake c r hc hr installed)
  · have first : mcOnly s u (MC_FREQ_CMD :: allStats) := by
      have only := moved.only
      rw [← mc] at only
      exact ⟨quiet_of_mcRegs only, moved.but.mono fun off ho => List.mem_append_left _ (List.mem_cons_of_mem _ ho)⟩
    exact mcOnly_of_frame first (frame.mono (by simp) (List.Subset.refl _))

/-- Settles O41: ENABLE starts the ranks channel by channel; a change of frequency point walks over all ranks, and
what serves the waiting requests at its end leaves its registers. -/
theorem populationAndFrequency : Obligations.PopulationAndFrequency := by
  unfold Obligations.PopulationAndFrequency
  refine ⟨fun s v off => ⟨mcEnable_populates off rfl, mcEnable_refused off rfl⟩, fun s v on => mcEnable_enabled on,
    fun s v busy => freqChange_busy v busy, fun s v idle => ⟨freqChange_takes v idle, freqChange_refused v idle⟩, fun s => ⟨freqDone_ends, ?_⟩⟩
  intro idle
  exact congrArg Host.Outcome.next (if_neg (by rw [idle]; decide))

end Sys2Proof.Machine

/-!
O43: self-refresh, panic, sideband, migration and parity errors.
-/

namespace Sys2Proof.Machine

/-! ### Self-refresh (R304, R305) -/

/-- A rank's self-refresh state is set, and the controller's own state of it. -/
theorem setSr_shows (s : State) (c r : Nat) {v : Nat} (hv : v < 8) {t : State} (ht : InMc (s.setSr c r v) t) :
    t.srOf c r = v ∧ t = { s with regs := t.regs, mc := t.mc } ∧ RegsBut s t [MC_RK_STAT c r] := by
  have regs : t.regs = (s.setSr c r v).regs := by rw [show t = { s.setSr c r v with mc := t.mc } from ht]
  refine ⟨?_, ?_, fun off ho => ?_⟩
  · exact (fld_of_reg _ (reg_of_regs regs _)).trans ((fld_setFld_same _ _ _ _ (by decide)).trans (Nat.mod_eq_of_lt hv))
  · have only : t = { s.setSr c r v with mc := t.mc } := ht
    rw [regs]
    exact only
  · exact (reg_of_regs regs off).trans (reg_setFld_other _ _ _ _ _ (by simpa using ho))

theorem entry_tested {s : State} {c : Fin 8} {r : Fin 4} (tested : s.unit (rankUnit c r) = 1) :
    exec (.selfRefreshEntry c r) s = .next s := congrArg Host.Outcome.next (if_pos tested)

/-- SELF_REFRESH_ENTRY by the state of the rank. -/
theorem entry_eq {s : State} {c : Fin 8} {r : Fin 4} (free : s.unit (rankUnit c r) ≠ 1) :
    exec (.selfRefreshEntry c r) s = .next (
      if s.srOf c r = srAwake then (if s.mayEnterSr c r = true then (s.setSr c r srDrain).closeRows c r else s)
      else if s.srOf c r = srDrain then (s.setSr c r srIssue).onRank (rankIx c r) fun x => { x with sreAt := s.now }
      else if s.srOf c r = srIssue then (s.setSr c r srInSr).applyDelays c r
      else s) := congrArg Host.Outcome.next (if_neg free)

theorem entry_drains {s : State} {c : Fin 8} {r : Fin 4} (awake : s.srOf c r = srAwake) (free : s.unit (rankUnit c r) ≠ 1)
    (may : s.mayEnterSr c r = true) :
    ∃ t, exec (.selfRefreshEntry c r) s = .next t ∧ t.srOf c r = srDrain ∧
      (t.rankAt (rankIx c r)).rows = [] ∧ t = { s with regs := t.regs, mc := t.mc } ∧ RegsBut s t [MC_RK_STAT c r] := by
  have run := entry_eq free
  rw [if_pos awake, if_pos may] at run
  obtain ⟨sr, only, but⟩ := setSr_shows s c r (v := srDrain) (by decide) (onRank_inMc _ (rankIx c r) fun x => { x with rows := [] })
  have rank := (rankAt_onRank (s.setSr c r srDrain) (rankIx c r) (rankIx c r) fun x => { x with rows := [] }).trans (if_pos rfl)
  exact ⟨_, run, sr, congrArg RankSt.rows rank, only, but⟩

theorem entry_stays {s : State} {c : Fin 8} {r : Fin 4} (awake : s.srOf c r = srAwake) (may : s.mayEnterSr c r = false) :
    exec (.selfRefreshEntry c r) s = .next s := by
  by_cases tested : s.unit (rankUnit c r) = 1
  · exact entry_tested tested
  · rw [entry_eq tested, if_pos awake, may, if_neg Bool.false_ne_true]

theorem entry_issues {s : State} {c : Fin 8} {r : Fin 4} (drain : s.srOf c r = srDrain) (free : s.unit (rankUnit c r) ≠ 1) :
    ∃ t, exec (.selfRefreshEntry c r) s = .next t ∧ t.srOf c r = srIssue ∧
      (t.rankAt (rankIx c r)).sreAt = s.now ∧ t = { s with regs := t.regs, mc := t.mc } ∧ RegsBut s t [MC_RK_STAT c r] := by
  have run := entry_eq free
  rw [drain, if_neg (by decide), if_pos rfl] at run
  obtain ⟨sr, only, but⟩ := setSr_shows s c r (v := srIssue) (by decide) (onRank_inMc _ (rankIx c r) fun x => { x with sreAt := s.now })
  have rank := (rankAt_onRank (s.setSr c r srIssue) (rankIx c r) (rankIx c r) fun x => { x with sreAt := s.now }).trans (if_pos rfl)
  exact ⟨_, run, sr, congrArg RankSt.sreAt rank, only, but⟩

theorem DelaysApplied.inMc {s t : State} {done : Nat → Prop} (h : DelaysApplied s t done) : InMc s t := by
  obtain ⟨only, -⟩ := h
  obtain ⟨m, hm⟩ : ∃ m, t = { s with mc := m } := ⟨_, only⟩
  rw [hm]
  rfl

theorem entry_completes {s : State} {c : Fin 8} {r : Fin 4} (issue : s.srOf c r = srIssue) (free : s.unit (rankUnit c r) ≠ 1) :
    ∃ t, exec (.selfRefreshEntry c r) s = .next t ∧ t.srOf c r = srInSr ∧
      t = { s with regs := t.regs, mc := t.mc } ∧ RegsBut s t [MC_RK_STAT c r] ∧
      ∀ p e, p < 4 → e < 116 → t.mc.delays.get 0 (MC_DELAY c p r e) = s.reg (MC_DELAY c p r e) := by
  have run := entry_eq free
  rw [issue, if_neg (by decide), if_neg (by decide), if_pos rfl] at run
  have applied := applyDelays_applied (s.setSr c r srInSr) c r
  obtain ⟨sr, only, but⟩ := setSr_shows s c r (v := srInSr) (by decide) applied.inMc
  refine ⟨_, run, sr, only, but, fun p e hp he => ?_⟩
  rw [applied.2 _ ⟨p, hp, e, he, rfl⟩]
  exact reg_setFld_other _ _ _ _ _ (by unfold MC_DELAY MC_RK_STAT; omega)

theorem entry_asleep {s : State} {c : Fin 8} {r : Fin 4} (asleep : s.srOf c r = srInSr ∨ s.srOf c r = srExit) :
    exec (.selfRefreshEntry c r) s = .next s := by
  by_cases tested : s.unit (rankUnit c r) = 1
  · exact entry_tested tested
  · rw [entry_eq tested]
    rcases asleep with sr | sr <;> rw [sr] <;> rfl

theorem exit_stays {s : State} {c : Fin 8} {r : Fin 4}
    (not : s.srOf c r ≠ srExit ∨ s.now < (s.rankAt (rankIx c r)).exitAt ∨ s.freqBusy = true) :
    exec (.selfRefreshExit c r) s = .next s := by
  refine congrArg Host.Outcome.next (if_neg ?_)
  rintro ⟨sr, time, free⟩
  rcases not with h | h | h
  · exact h sr
  · omega
  · rw [free] at h
    exact Bool.false_ne_true h

theorem exit_wakes {s : State} {c : Fin 8} {r : Fin 4} (sr : s.srOf c r = srExit) (time : (s.rankAt (rankIx c r)).exitAt ≤ s.now)
    (free : s.freqBusy = false) (idle : s.dramLoad = 0) :
    ∃ t, exec (.selfRefreshExit c r) s = .next t ∧ t.srOf c r = srAwake ∧
      t = { s with regs := t.regs } ∧ RegsBut s t [MC_RK_STAT c r] := by
  obtain ⟨u, hu⟩ : ∃ u, s.setSr c r srAwake = u := ⟨_, rfl⟩
  have run : exec (.selfRefreshExit c r) s = .next u.serveWaiting := by
    rw [← hu]
    exact congrArg Host.Outcome.next (if_pos ⟨sr, time, free⟩)
  have load : u.dramLoad = 0 := by
    rw [← hu]
    exact idle
  rw [serveWaiting_idle load] at run
  obtain ⟨awake, -, but⟩ := setSr_shows s c r (v := srAwake) (by decide) (InMc.refl _)
  rw [hu] at awake but
  exact ⟨u, run, awake, by rw [← hu]; rfl, but⟩

/-! ### Panic, temperature and sideband (R284, R300, R301) -/

/-- Whether a port stands in panic at an urgency. -/
def State.panicAt (s : State) (port urgency : Nat) : Bool :=
  decide (port < 4) && s.fld (portCfg port) MC_PORT_CFG0_PANIC_ON != 0 &&
    (if s.bit (portCfg port) MC_PORT_CFG0_PANIC then decide (s.fld (portCfg port) MC_PORT_CFG0_PANIC_OFF < urgency)
    else decide (s.fld (portCfg port) MC_PORT_CFG0_PANIC_ON ≤ urgency))

theorem portLevel_shows (s : State) (port level : Nat) :
    RegsOnly s (s.portLevel port level) [portCfg port] ∧
      (s.portLevel port level).bit (portCfg port) MC_PORT_CFG0_PANIC = s.panicAt port level := by
  have put : ∀ b : Bool, RegsOnly s (s.setFld (portCfg port) MC_PORT_CFG0_PANIC (b2n b)) [portCfg port] ∧
      (s.setFld (portCfg port) MC_PORT_CFG0_PANIC (b2n b)).bit (portCfg port) MC_PORT_CFG0_PANIC = b := fun b =>
    ⟨(RegsOnly.refl s _).setFld (by simp), bit_setFld_same _ _ _ b rfl (by decide)⟩
  have stay : RegsOnly s s [portCfg port] := RegsOnly.refl s _
  unfold State.portLevel State.panicAt
  by_cases off : 4 ≤ port ∨ s.fld (portCfg port) MC_PORT_CFG0_PANIC_ON = 0
  · obtain ⟨only, bit⟩ := put false
    rw [if_pos off]
    refine ⟨only, bit.trans ?_⟩
    rcases off with h | h
    · rw [decide_eq_false (by omega)]; rfl
    · rw [h]; simp
  · have low : decide (port < 4) = true := by simp; omega
    have on : (s.fld (portCfg port) MC_PORT_CFG0_PANIC_ON != 0) = true := by simp; omega
    rw [if_neg off, low, on, Bool.true_and, Bool.true_and]
    by_cases panic : s.bit (portCfg port) MC_PORT_CFG0_PANIC = true
    · rw [if_pos panic, if_pos panic]
      by_cases calm : level ≤ s.fld (portCfg port) MC_PORT_CFG0_PANIC_OFF
      · obtain ⟨only, bit⟩ := put false
        rw [if_pos calm]
        exact ⟨only, bit.trans (decide_eq_false (by omega)).symm⟩
      · rw [if_neg calm]
        exact ⟨stay, panic.trans (decide_eq_true (by omega)).symm⟩
    · rw [if_neg panic, if_neg panic]
      by_cases urgent : s.fld (portCfg port) MC_PORT_CFG0_PANIC_ON ≤ level
      · obtain ⟨only, bit⟩ := put true
        rw [if_pos urgent]
        exact ⟨only, bit.trans (decide_eq_true urgent).symm⟩
      · rw [if_neg urgent]
        exact ⟨stay, (Bool.eq_false_iff.2 panic).trans (decide_eq_false urgent).symm⟩

theorem temperature_polled (s : State) (c : Fin 8) (d : Fin 2) (x : Int) :
    ∃ t, exec (.temperaturePoll c d x) s = .next t ∧ (t.chanAt c).temps.get 0 d = x ∧
      (x < 95 → t = { s with mc := t.mc }) ∧
      (95 ≤ x → EventSet t BLK_MC 6 ∧ Reported s t 0x23C7 (BitVec.ofNat 8 c) 0 ∧ mcOnly s t []) := by
  obtain ⟨u, hu⟩ : ∃ u, s.onChan c (fun y => { y with temps := y.temps.set 0 d x }) = u := ⟨_, rfl⟩
  have inMc : InMc s u := hu ▸ onChan_inMc s c _
  have temp : (u.chanAt c).temps.get 0 d = x := by
    rw [← hu, chanAt_onChan, if_pos rfl]
    exact Tbl.get_set_same _ _ _ _
  have run : exec (.temperaturePoll c d x) s = .next (if 95 ≤ x then (u.setEvt BLK_MC 6).fault 0x23C7 c else u) := by
    rw [← hu]
    rfl
  by_cases hot : 95 ≤ x
  · rw [if_pos hot] at run
    have evt : EventSet (u.setEvt BLK_MC 6) BLK_MC 6 := setEvt_eventSet _ _ _ (by decide)
    have queues : (u.setEvt BLK_MC 6).si.queues = s.si.queues := by rw [setEvt_si, ← hu]; rfl
    have only : mcOnly s (u.setEvt BLK_MC 6) [] := mcOnly_setEvt (mcOnly_inMc (mcOnly_refl s _) inMc)
    have mc : ((u.setEvt BLK_MC 6).fault 0x23C7 c).mc = u.mc := (fault_quiet _ _ _ _).mc.trans (setEvt_quiet _ _ _).mc
    refine ⟨_, run, ?_, fun h => absurd h (by omega), fun _ => ⟨evt.fault _ _ _, fault_reportedFrom _ _ _ queues, ?_⟩⟩
    · rw [State.chanAt, mc]
      exact temp
    · exact mcOnly_of_frame only (Frame.refl _ _ _).fault
  · rw [if_neg hot] at run
    exact ⟨u, run, temp, fun _ => inMc, fun h => absurd h hot⟩

theorem regDef_MC_SB : ∀ c : Fin 8, ∃ d, regDef? (MC_SB c) = some d ∧ d.rw = 0xFFFFC1F0 ∧ d.rwl = 0 ∧ d.w1c = 0 := by decide

/-- SIDEBAND by whether an access runs. -/
theorem sideband_eq (s : State) (c : Fin 8) (v : Word) :
    ∃ u : State, u = { s with regs := u.regs } ∧ RegsBut s u [MC_SB c] ∧
      exec (.sideband c v) s = .next (
        if s.bit (MC_SB c) MC_SB_BUSY = true then u
        else (u.setFld (MC_SB c) MC_SB_BUSY 1).onChan c fun x => { x with sbRead := fldGet MC_SB_WR v == 0 }) := by
  obtain ⟨d, hd, rw_, rwl, w1c⟩ := regDef_MC_SB c
  obtain ⟨u, hu⟩ : ∃ u, s.typedWrite (MC_SB c) (fldPut MC_SB_GO 1 v) = u := ⟨_, rfl⟩
  have typed : s.setReg (MC_SB c) (merged 0xFFFFC1F0 (s.reg (MC_SB c)) (fldPut MC_SB_GO 1 v)) = u := by
    rw [← hu, typedWrite_plain s _ hd rwl w1c, rw_]
  have busy : u.bit (MC_SB c) MC_SB_BUSY = s.bit (MC_SB c) MC_SB_BUSY := by
    rw [← typed]
    unfold State.bit State.fld
    rw [reg_setReg_same]
    refine congrArg (· != 0) (fldGet_congr fun i hi => ?_)
    have one : i = 0 := by change i < 1 at hi; omega
    rw [one, getLsbD_merged _ _ _ _ (by decide), if_neg (by decide)]
  have go : fldGet MC_SB_GO (fldPut MC_SB_GO 1 v) ≠ 0 := by
    rw [fldGet_fldPut_same _ _ _ (by decide)]
    decide
  have wr : fldGet MC_SB_WR (fldPut MC_SB_GO 1 v) = fldGet MC_SB_WR v := fldGet_fldPut_field _ _ (by decide)
  refine ⟨u, by rw [← typed]; rfl, typed ▸ (RegsBut.refl s _).setReg (by simp), ?_⟩
  change Host.Outcome.next (s.sbWrite _ _) = _
  unfold State.sbWrite
  rw [hu]
  dsimp only
  simp only [go, false_or, wr, busy]

theorem sideband_runs {s : State} {c : Fin 8} (v : Word) (idle : s.bit (MC_SB c) MC_SB_BUSY = false) :
    ∃ t, exec (.sideband c v) s = .next t ∧ t.bit (MC_SB c) MC_SB_BUSY = true ∧
      (t.chanAt c).sbRead = (fldGet MC_SB_WR v == 0) ∧ mcOnly s t [MC_SB c] := by
  obtain ⟨u, only, but, run⟩ := sideband_eq s c v
  rw [idle, if_neg Bool.false_ne_true] at run
  have first : mcOnly s u [MC_SB c] := ⟨by unfold Quiet; rw [only], but.mono (List.subset_append_left _ _)⟩
  refine ⟨_, run, ?_, ?_, mcOnly_inMc (mcOnly_setFld first (by simp)) (onChan_inMc _ _ _)⟩
  · exact bit_setFld_same u (MC_SB c) MC_SB_BUSY true rfl (by decide)
  · rw [chanAt_onChan, if_pos rfl]

theorem sideband_ignored {s : State} {c : Fin 8} (v : Word) (busy : s.bit (MC_SB c) MC_SB_BUSY = true) :
    ∃ t, exec (.sideband c v) s = .next t ∧ t.mc = s.mc ∧ mcOnly s t [MC_SB c] := by
  obtain ⟨u, only, but, run⟩ := sideband_eq s c v
  rw [if_pos busy] at run
  exact ⟨u, run, by rw [only], ⟨by unfold Quiet; rw [only], but.mono (List.subset_append_left _ _)⟩⟩

theorem sideband_done {s : State} {c : Fin 8} (ack : Bool) (d : BitVec 8) (busy : s.bit (MC_SB c) MC_SB_BUSY = true) :
    ∃ t, exec (.sidebandDone c ack d) s = .next t ∧ t.bit (MC_SB c) MC_SB_BUSY = false ∧
      t.bit (MC_SB c) MC_SB_ERR = !ack ∧ t = { s with regs := t.regs } ∧ RegsBut s t [MC_SB c] ∧
      (ack = true → (s.chanAt c).sbRead = true → t.fld (MC_SB c) MC_SB_DATA = d.toNat) := by
  obtain ⟨u, hu⟩ : ∃ u, s.setFld (MC_SB c) MC_SB_BUSY 0 = u := ⟨_, rfl⟩
  obtain ⟨w, hw⟩ : ∃ w, u.setFld (MC_SB c) MC_SB_ERR (b2n (!ack)) = w := ⟨_, rfl⟩
  have idle : u.bit (MC_SB c) MC_SB_BUSY = false := hu ▸ bit_setFld_same s (MC_SB c) MC_SB_BUSY false rfl (by decide)
  have wIdle : w.bit (MC_SB c) MC_SB_BUSY = false := by
    rw [← hw, State.bit, fld_setFld_field _ _ _ _ _ (by decide)]
    exact idle
  have err : w.bit (MC_SB c) MC_SB_ERR = !ack := hw ▸ bit_setFld_same u (MC_SB c) MC_SB_ERR (!ack) rfl (by decide)
  obtain ⟨only, but⟩ : RegsOnly s w [MC_SB c] := hw ▸ hu ▸ ((RegsOnly.refl s _).setFld (by simp)).setFld (by simp)
  have run : exec (.sidebandDone c ack d) s =
      .next (if (ack && (s.chanAt c).sbRead) = true then w.setFld (MC_SB c) MC_SB_DATA d.toNat else w) := by
    rw [← hw, ← hu]
    exact congrArg Host.Outcome.next (if_pos busy)
  by_cases read : (ack && (s.chanAt c).sbRead) = true
  · rw [if_pos read] at run
    obtain ⟨only', but'⟩ := (show RegsOnly s w [MC_SB c] from ⟨only, but⟩).setFld (x := d.toNat) (f := MC_SB_DATA) (off := MC_SB c) (by simp)
    refine ⟨_, run, ?_, ?_, only', but', fun _ _ => ?_⟩
    · rw [State.bit, fld_setFld_field _ _ _ _ _ (by decide)]
      exact wIdle
    · rw [State.bit, fld_setFld_field _ _ _ _ _ (by decide)]
      exact err
    · exact (fld_setFld_same _ _ _ _ (by decide)).trans (Nat.mod_eq_of_lt d.isLt)
  · rw [if_neg read] at run
    exact ⟨w, run, wIdle, err, only, but, fun h h' => absurd (by rw [h, h']; rfl) read⟩

theorem self_refresh_panic_sideband : selfRefreshPanicAndSideband := by
  refine ⟨fun s c r => ⟨entry_tested, entry_drains, entry_stays, entry_issues, entry_completes, entry_asleep, exit_stays, exit_wakes⟩,
    fun s port level => ?_, temperature_polled, fun s c v ack d => ⟨sideband_runs v, sideband_ignored v, fun idle => ?_, sideband_done ack d⟩⟩
  · obtain ⟨⟨only, but⟩, bit⟩ := portLevel_shows s port (s.portUrgency port level.toNat)
    exact ⟨_, rfl, only, but, bit⟩
  · exact congrArg Host.Outcome.next (if_neg (by rw [idle]; decide))

end Sys2Proof.Machine

namespace Sys2Proof.Machine

/-! ### The start of a migration (R312) -/

theorem physRank_lt {s : State} {c l src : Nat} (h : s.physRank c l = some src) : src < 4 ∧ s.role c src = roleActive := by
  have here := List.find?_some h
  rw [Bool.and_eq_true, beq_iff_eq] at here
  exact ⟨List.mem_range.1 (List.mem_of_find?_eq_some h), here.1⟩

theorem freeSpare_lt {s : State} {c dst : Nat} (h : s.freeSpare c = some dst) : dst < 4 ∧ s.role c dst = roleSpare := by
  have here := List.find?_some h
  rw [Bool.and_eq_true, beq_iff_eq] at here
  exact ⟨List.mem_range.1 (List.mem_of_find?_eq_some h), here.1⟩

theorem migrationStart_eq (s : State) (c : Fin 8) (v : Word) :
    exec (.migrationStart c v) s = .next (match s.physRank c (fldGet MC_MIG_CMD_LRANK v) with
      | some src => s.migStart c src
      | none => s.migRefuse c) := by
  have cmd : fldGet MC_MIG_CMD_CMD (fldPut MC_MIG_CMD_CMD 1 v) = 1 := fldGet_fldPut_same _ _ _ (by decide)
  have rank : fldGet MC_MIG_CMD_LRANK (fldPut MC_MIG_CMD_CMD 1 v) = fldGet MC_MIG_CMD_LRANK v := fldGet_fldPut_field _ _ (by decide)
  change Host.Outcome.next (s.migCmdWrite c _) = _
  unfold State.migCmdWrite
  dsimp only
  rw [cmd, if_pos rfl, rank] <;> rfl

/-- A rank is woken for a migration: its self-refresh state, and no other field of a status register. -/
theorem wakeRank_shows (s : State) (c r : Nat) :
    InMc { s with regs := (s.wakeRank c r).regs } (s.wakeRank c r) ∧ RegsBut s (s.wakeRank c r) [MC_RK_STAT c r] ∧
    (∀ f : Fld, f.lo + f.w ≤ 4 ∨ 7 ≤ f.lo → (s.wakeRank c r).fld (MC_RK_STAT c r) f = s.fld (MC_RK_STAT c r) f) ∧
    (s.wakeRank c r).mc.chans = s.mc.chans ∧
    (s.srOf c r = srAwake → s.wakeRank c r = s) ∧
    (s.freqBusy = false → s.srOf c r = srInSr → (s.wakeRank c r).srOf c r = srExit) := by
  have set : ∀ v (t : State), t.regs = (s.setSr c r v).regs →
      RegsBut s t [MC_RK_STAT c r] ∧ ∀ f : Fld, f.lo + f.w ≤ 4 ∨ 7 ≤ f.lo → t.fld (MC_RK_STAT c r) f = s.fld (MC_RK_STAT c r) f :=
    fun v t regs => ⟨fun off ho => (reg_of_regs regs off).trans (reg_setFld_other _ _ _ _ _ (by simpa using ho)),
      fun f hf => (fld_of_reg f (reg_of_regs regs _)).trans (fld_setFld_field _ _ _ _ _ hf)⟩
  unfold State.wakeRank
  split
  · next h =>
    refine ⟨rfl, RegsBut.refl _ _, fun _ _ => rfl, rfl, fun _ => rfl, fun free sr => ?_⟩
    rcases h with h | h
    · rw [sr] at h; exact absurd h (by decide)
    · rw [free] at h; exact absurd h (by decide)
  · next h =>
    have notAwake : s.srOf c r ≠ srAwake := fun e => h (.inl e)
    split
    · next drain =>
      obtain ⟨but, kept⟩ := set srAwake _ rfl
      exact ⟨rfl, but, kept, rfl, fun e => absurd e notAwake, fun _ sr => by rw [sr] at drain; exact absurd drain (by decide)⟩
    · split
      · exact ⟨rfl, RegsBut.refl _ _, fun _ _ => rfl, rfl, fun e => absurd e notAwake, fun _ sr => by
          next out _ => rw [sr] at out; exact absurd out (by decide)⟩
      · obtain ⟨but, kept⟩ := set srExit (s.srLeaves c r) rfl
        refine ⟨rfl, but, kept, rfl, fun e => absurd e notAwake, fun _ _ => ?_⟩
        exact (fld_setFld_same _ _ _ _ (by decide)).trans rfl

theorem rankStat_ne {c r r' : Nat} (h : r ≠ r') : MC_RK_STAT c r ≠ MC_RK_STAT c r' := by
  unfold MC_RK_STAT
  omega

theorem migStat_ne {c r : Nat} (h : r < 4) : MC_RK_STAT c r ≠ MC_MIG_STAT c := by
  unfold MC_RK_STAT MC_MIG_STAT
  omega

theorem abandonTest_none {s : State} {u : Nat} (none_ : s.st.tests.get none u = none) : s.abandonTest u = s := by
  unfold State.abandonTest
  rw [none_]

theorem migration_starts {s : State} {c : Fin 8} {v : Word} {src dst : Nat} (hsrc : s.physRank c (fldGet MC_MIG_CMD_LRANK v) = some src)
    (hdst : s.freeSpare c = some dst) (idle : (s.chanAt c).mig = none) (untested : s.st.tests.get none (rankUnit c dst) = none) :
    ∃ t, exec (.migrationStart c v) s = .next t ∧
      (t.chanAt c).mig = some { src := src, dst := dst, copied := 0 } ∧
      (s.srOf c src = srAwake → t.srOf c src = srAwake) ∧
      (s.freqBusy = false → s.srOf c dst = srInSr → t.srOf c dst = srExit) ∧
      t.bit (MC_RK_STAT c src) MC_RK_STAT_MIG = true ∧ t.bit (MC_RK_STAT c dst) MC_RK_STAT_MIG = true ∧
      t.fld (MC_MIG_STAT c) MC_MIG_STAT_STATE = 1 ∧ EventSet t BLK_MC 2 ∧
      mcOnly s t [MC_RK_STAT c src, MC_RK_STAT c dst, MC_MIG_STAT c] := by
  obtain ⟨src4, active⟩ := physRank_lt hsrc
  obtain ⟨dst4, spare⟩ := freeSpare_lt hdst
  have ne : src ≠ dst := fun e => by rw [e, spare] at active; exact absurd active (by decide)
  have apart : MC_RK_STAT c src ≠ MC_RK_STAT c dst := rankStat_ne ne
  obtain ⟨a, ha⟩ : ∃ a, MC_RK_STAT c src = a := ⟨_, rfl⟩
  obtain ⟨b, hb⟩ : ∃ b, MC_RK_STAT c dst = b := ⟨_, rfl⟩
  obtain ⟨u, hu⟩ : ∃ u, s.onChan c (fun x => { x with mig := some { src := src, dst := dst, copied := 0 } }) = u := ⟨_, rfl⟩
  obtain ⟨w, hw⟩ : ∃ w, (u.setFld a MC_RK_STAT_MIG 1).setFld b MC_RK_STAT_MIG 1 = w := ⟨_, rfl⟩
  obtain ⟨x, hx⟩ : ∃ x, w.wakeRank c src = x := ⟨_, rfl⟩
  obtain ⟨y, hy⟩ : ∃ y, x.wakeRank c dst = y := ⟨_, rfl⟩
  obtain ⟨z, hz⟩ : ∃ z, (y.setFld (MC_MIG_STAT c) MC_MIG_STAT_STATE 1).setFld (MC_MIG_STAT c) MC_MIG_STAT_PCT 0 = z := ⟨_, rfl⟩
  have run : exec (.migrationStart c v) s = .next (z.setEvt BLK_MC 2) := by
    rw [migrationStart_eq, hsrc]
    dsimp only
    unfold State.migStart
    rw [hdst]
    dsimp only
    rw [idle, Option.isSome_none, if_neg Bool.false_ne_true, abandonTest_none untested, hu, ha, hb, hw, hx, hy, hz]
  obtain ⟨xMc, xBut, xKept, xChans, xAwake, -⟩ := hx ▸ wakeRank_shows w c src
  obtain ⟨yMc, yBut, yKept, yChans, -, yExit⟩ := hy ▸ wakeRank_shows x c dst
  rw [ha] at xBut xKept apart
  rw [hb] at yBut yKept apart
  have uOnly : mcOnly s u [a, b, MC_MIG_STAT c] := mcOnly_inMc (mcOnly_refl s _) (hu ▸ onChan_inMc s c _)
  have wOnly : mcOnly s w [a, b, MC_MIG_STAT c] := hw ▸ mcOnly_setFld (mcOnly_setFld uOnly (by simp)) (by simp)
  have woken : ∀ {p q : State} {l : List Nat}, InMc { p with regs := q.regs } q → RegsBut p q l → mcOnly p q l := fun {p q l} h k => by
    have only : q = { p with regs := q.regs, mc := q.mc } := h
    exact ⟨quiet_of_mcRegs only, k.mono (List.subset_append_left _ _)⟩
  have yOnly : mcOnly s y [a, b, MC_MIG_STAT c] :=
    mcOnly_trans (mcOnly_trans wOnly (mcOnly_mono (woken xMc xBut) (by simp))) (mcOnly_mono (woken yMc yBut) (by simp))
  have zOnly : mcOnly s z [a, b, MC_MIG_STAT c] := hz ▸ mcOnly_setFld (mcOnly_setFld yOnly (by simp)) (by simp)
  have aLow : a ∉ reportRegs [BLK_MC] := ha ▸ mcNotReport (by unfold MC_RK_STAT; omega) (by unfold MC_RK_STAT; omega)
  have bLow : b ∉ reportRegs [BLK_MC] := hb ▸ mcNotReport (by unfold MC_RK_STAT; omega) (by unfold MC_RK_STAT; omega)
  have zReg : ∀ off, off ≠ MC_MIG_STAT c → z.reg off = y.reg off := fun off ho => by
    rw [← hz, reg_setFld_other _ _ _ _ _ ho, reg_setFld_other _ _ _ _ _ ho]
  have tA : (z.setEvt BLK_MC 2).reg a = x.reg a := by
    rw [reg_setEvt_of_notMem _ _ _ _ aLow, zReg _ (ha ▸ migStat_ne src4)]
    exact yBut _ (by simpa using apart)
  have tB : (z.setEvt BLK_MC 2).reg b = y.reg b := by
    rw [reg_setEvt_of_notMem _ _ _ _ bLow, zReg _ (hb ▸ migStat_ne dst4)]
  have xB : x.reg b = w.reg b := xBut _ (by simpa using Ne.symm apart)
  have wA : ∀ f : Fld, 4 ≤ f.lo → w.fld a f = s.fld a f := fun f hf => by
    have past : MC_RK_STAT_MIG.lo + MC_RK_STAT_MIG.w ≤ f.lo := hf
    rw [← hw, fld_setFld_other _ _ _ _ _ _ apart, fld_setFld_field _ _ _ _ _ (.inr past), ← hu]
    rfl
  have wB : ∀ f : Fld, 4 ≤ f.lo → w.fld b f = s.fld b f := fun f hf => by
    have past : MC_RK_STAT_MIG.lo + MC_RK_STAT_MIG.w ≤ f.lo := hf
    rw [← hw, fld_setFld_field _ _ _ _ _ (.inr past), fld_setFld_other _ _ _ _ _ _ (Ne.symm apart), ← hu]
    rfl
  refine ⟨_, run, ?_, fun awake => ?_, fun free asleep => ?_, ?_, ?_, ?_, setEvt_eventSet _ _ _ (by decide), ?_⟩
  · rw [State.chanAt, (setEvt_quiet _ _ _).mc, ← hz]
    change (y.mc.chans.get ChanSt.reset c).mig = _
    rw [yChans, xChans, ← hw, ← hu]
    have chan := (chanAt_onChan s c c fun x => { x with mig := some { src := src, dst := dst, copied := 0 } }).trans (if_pos rfl)
    exact congrArg ChanSt.mig chan
  · have wAwake : w.srOf c src = srAwake := by
      unfold State.srOf at *
      rw [ha] at *
      rw [wA _ (by decide)]
      exact awake
    have same : x = w := xAwake wAwake
    rw [State.srOf, ha, fld_of_reg _ tA, same]
    rw [State.srOf, ha] at wAwake
    exact wAwake
  · have xAsleep : x.srOf c dst = srInSr := by
      unfold State.srOf at *
      rw [hb] at *
      rw [fld_of_reg _ xB, wB _ (by decide)]
      exact asleep
    have xFree : x.freqBusy = false := by
      have reg : x.reg MC_FREQ_CMD = s.reg MC_FREQ_CMD := by
        rw [xBut _ (by rw [← ha]; simp [MC_FREQ_CMD, MC_RK_STAT]; omega), ← hw,
          reg_setFld_other _ _ _ _ _ (by rw [← hb]; unfold MC_FREQ_CMD MC_RK_STAT; omega),
          reg_setFld_other _ _ _ _ _ (by rw [← ha]; unfold MC_FREQ_CMD MC_RK_STAT; omega), ← hu]
        rfl
      exact (bit_of_reg _ reg).trans free
    have out := yExit xFree xAsleep
    rw [State.srOf, hb] at out ⊢
    rw [fld_of_reg _ tB]
    exact out
  · rw [ha, bit_of_reg _ tA, State.bit, xKept _ (by decide), ← hw, fld_setFld_other _ _ _ _ _ _ apart]
    exact bit_setFld_same u a MC_RK_STAT_MIG true rfl (by decide)
  · rw [hb, bit_of_reg _ tB, State.bit, yKept _ (by decide), fld_of_reg _ xB, ← hw]
    exact bit_setFld_same _ b MC_RK_STAT_MIG true rfl (by decide)
  · have low : MC_MIG_STAT c ∉ reportRegs [BLK_MC] := mcNotReport (by unfold MC_MIG_STAT; omega) (by unfold MC_MIG_STAT; omega)
    rw [fld_of_reg _ (reg_setEvt_of_notMem _ _ _ _ low), ← hz, fld_setFld_field _ _ _ _ _ (by decide)]
    exact fld_setFld_same _ _ _ _ (by decide)
  · rw [ha, hb]
    exact mcOnly_setEvt zOnly

theorem migRefuse_idle {s : State} {c : Fin 8} (idle : (s.chanAt c).mig = none) :
    (s.migRefuse c).fld (MC_MIG_STAT c) MC_MIG_STAT_STATE = 3 ∧ Reported s (s.migRefuse c) 0x23C6 (BitVec.ofNat 8 c) 0 ∧
      (s.migRefuse c).mc = s.mc ∧ mcOnly s (s.migRefuse c) [MC_MIG_STAT c] := by
  obtain ⟨u, hu⟩ : ∃ u, s.setFld (MC_MIG_STAT c) MC_MIG_STAT_STATE 3 = u := ⟨_, rfl⟩
  have eq : s.migRefuse c = u.fault 0x23C6 c := by
    unfold State.migRefuse
    rw [idle, Option.isSome_none, if_neg Bool.false_ne_true, hu]
  have low : MC_MIG_STAT c ∉ reportRegs [] := fun h =>
    mcNotReport (by unfold MC_MIG_STAT; omega) (by unfold MC_MIG_STAT; omega) (reportRegs_mono (by simp) h)
  have only : mcOnly s u [MC_MIG_STAT c] := hu ▸ mcOnly_setFld (mcOnly_refl s _) (by simp)
  rw [eq]
  refine ⟨?_, fault_reportedFrom _ _ _ (by rw [← hu]; rfl), ?_, mcOnly_of_frame only (Frame.refl _ _ _).fault⟩
  · rw [fld_of_reg _ (reg_fault _ _ _ _ _ low), ← hu]
    exact fld_setFld_same _ _ _ _ (by decide)
  · rw [(fault_quiet _ _ _ _).mc, ← hu]
    rfl

theorem migration_refused {s : State} {c : Fin 8} {v : Word}
    (without : s.physRank c (fldGet MC_MIG_CMD_LRANK v) = none ∨ s.freeSpare c = none) (idle : (s.chanAt c).mig = none) :
    ∃ t, exec (.migrationStart c v) s = .next t ∧ t.fld (MC_MIG_STAT c) MC_MIG_STAT_STATE = 3 ∧
      Reported s t 0x23C6 (BitVec.ofNat 8 c) 0 ∧ t.mc = s.mc ∧ mcOnly s t [MC_MIG_STAT c] := by
  refine ⟨s.migRefuse c, ?_, migRefuse_idle idle⟩
  rw [migrationStart_eq]
  rcases without with h | h
  · rw [h]
  · split
    · unfold State.migStart
      rw [h]
    · rfl

theorem migration_underWay {s : State} {c : Fin 8} (v : Word) (busy : (s.chanAt c).mig.isSome = true) :
    ∃ t, exec (.migrationStart c v) s = .next t ∧ Reported s t 0x23C6 (BitVec.ofNat 8 c) 0 ∧ Frame s t [] [] := by
  have eq : s.migRefuse c = s.fault 0x23C6 c := by
    unfold State.migRefuse
    rw [if_pos busy]
  refine ⟨s.fault 0x23C6 c, ?_, fault_reported _ _ _ _, (Frame.refl _ _ _).fault⟩
  rw [migrationStart_eq, ← eq]
  split
  · unfold State.migStart
    split
    · rfl
    · rw [if_pos busy]
  · rfl

end Sys2Proof.Machine

namespace Sys2Proof.Machine

/-! ### The end of a migration (R313, R314) -/

/-- The registers of the end of a migration. -/
theorem migEnd_shows (s : State) (c : Fin 8) (m : MigSt) {state : Nat} (hs : state < 4) (src4 : m.src < 4) (dst4 : m.dst < 4) :
    ((s.migEnd c m state).chanAt c).mig = none ∧
    (∀ r f, r < 4 → 4 ≤ f.lo → (s.migEnd c m state).fld (MC_RK_STAT c r) f = s.fld (MC_RK_STAT c r) f) ∧
    (s.migEnd c m state).fld (MC_MIG_STAT c) MC_MIG_STAT_STATE = state ∧
    (s.migEnd c m state).fld (MC_MIG_STAT c) MC_MIG_STAT_PCT = s.fld (MC_MIG_STAT c) MC_MIG_STAT_PCT ∧
    (∀ u, (s.migEnd c m state).unit u = s.unit u) ∧ EventSet (s.migEnd c m state) BLK_MC 3 ∧
    mcOnly s (s.migEnd c m state) [MC_RK_STAT c m.src, MC_RK_STAT c m.dst, MC_MIG_STAT c] := by
  obtain ⟨u, hu⟩ : ∃ u, s.onChan c (fun x => { x with mig := none }) = u := ⟨_, rfl⟩
  obtain ⟨w, hw⟩ : ∃ w, (u.setFld (MC_RK_STAT c m.src) MC_RK_STAT_MIG 0).setFld (MC_RK_STAT c m.dst) MC_RK_STAT_MIG 0 = w := ⟨_, rfl⟩
  obtain ⟨z, hz⟩ : ∃ z, w.setFld (MC_MIG_STAT c) MC_MIG_STAT_STATE state = z := ⟨_, rfl⟩
  have eq : s.migEnd c m state = z.setEvt BLK_MC 3 := by rw [← hz, ← hw, ← hu]; rfl
  have low : ∀ off, 0xF01000 ≤ off → off < 0x1000000 → (z.setEvt BLK_MC 3).reg off = z.reg off := fun off lo hi =>
    reg_setEvt_of_notMem _ _ _ _ (mcNotReport (by omega) hi)
  have migReg := low (MC_MIG_STAT c) (by unfold MC_MIG_STAT; omega) (by unfold MC_MIG_STAT; omega)
  have kept : ∀ (t : State) (a off : Nat) (f : Fld), 4 ≤ f.lo → (t.setFld a MC_RK_STAT_MIG 0).fld off f = t.fld off f := fun t a off f hf => by
    have past : MC_RK_STAT_MIG.lo + MC_RK_STAT_MIG.w ≤ f.lo := hf
    by_cases same : off = a
    · rw [same, fld_setFld_field _ _ _ _ _ (.inr past)]
    · exact fld_setFld_other _ _ _ _ _ _ same
  have wMig : w.reg (MC_MIG_STAT c) = s.reg (MC_MIG_STAT c) := by
    rw [← hw, reg_setFld_other _ _ _ _ _ (migStat_ne dst4).symm, reg_setFld_other _ _ _ _ _ (migStat_ne src4).symm, ← hu]
    rfl
  rw [eq]
  refine ⟨?_, fun r f hr hf => ?_, ?_, ?_, fun k => ?_, setEvt_eventSet _ _ _ (by decide), ?_⟩
  · rw [State.chanAt, (setEvt_quiet _ _ _).mc, ← hz, ← hw, ← hu]
    have chan := (chanAt_onChan s c c fun x => { x with mig := none }).trans (if_pos rfl)
    exact congrArg ChanSt.mig chan
  · rw [fld_of_reg _ (low _ (by unfold MC_RK_STAT; omega) (by unfold MC_RK_STAT; omega)), ← hz,
      fld_setFld_other _ _ _ _ _ _ (migStat_ne hr), ← hw, kept _ _ _ _ hf, kept _ _ _ _ hf, ← hu]
    rfl
  · rw [fld_of_reg _ migReg, ← hz, fld_setFld_same _ _ _ _ (by decide)]
    exact Nat.mod_eq_of_lt hs
  · rw [fld_of_reg _ migReg, ← hz, fld_setFld_field _ _ _ _ _ (by decide)]
    exact fld_of_reg _ wMig
  · have ne : ∀ n, n < 4 → ST_USTAT k ≠ MC_RK_STAT c n := fun n hn => by unfold ST_USTAT MC_RK_STAT; omega
    have notReport : ST_USTAT k ∉ reportRegs [BLK_MC] := notMem_reportRegs_one (b := BLK_MC) 0xF00020 rfl (by unfold ST_USTAT; omega)
    refine unit_of_reg ?_
    rw [reg_setEvt_of_notMem _ _ _ _ notReport, ← hz, reg_setFld_other _ _ _ _ _ (by unfold ST_USTAT MC_MIG_STAT; omega), ← hw,
      reg_setFld_other _ _ _ _ _ (ne _ dst4), reg_setFld_other _ _ _ _ _ (ne _ src4), ← hu]
    rfl
  · refine mcOnly_setEvt ?_
    rw [← hz, ← hw, ← hu]
    exact mcOnly_setFld (mcOnly_setFld (mcOnly_setFld (mcOnly_inMc (mcOnly_refl s _) (onChan_inMc s c _)) (by simp)) (by simp)) (by simp)

theorem migDone_waits {s : State} {c : Fin 8} {m : MigSt} (hm : (s.chanAt c).mig = some m)
    (not : m.copied < s.rankBytes ∨ s.rankQuiet c m.src = false ∨ s.rankQuiet c m.dst = false) :
    exec (.migDone c) s = .next s := by
  change execMigDone c s = _
  unfold execMigDone
  dsimp only
  rw [hm]
  exact congrArg Host.Outcome.next (if_pos (by simpa using not))

theorem migDone_none {s : State} {c : Fin 8} (hm : (s.chanAt c).mig = none) : exec (.migDone c) s = .next s := by
  change execMigDone c s = _
  unfold execMigDone
  dsimp only
  rw [hm]

theorem migrationAbort_eq (s : State) (c : Fin 8) (v : Word) :
    exec (.migrationAbort c v) s = .next (match (s.chanAt c).mig with
      | some m => s.migEnd c m 3
      | none => s) := by
  have cmd : fldGet MC_MIG_CMD_CMD (fldPut MC_MIG_CMD_CMD 2 v) = 2 := fldGet_fldPut_same _ _ _ (by decide)
  change Host.Outcome.next (s.migCmdWrite c _) = _
  unfold State.migCmdWrite
  dsimp only
  rw [cmd, if_neg (by decide), if_pos rfl] <;> rfl

theorem migration_aborted {s : State} {c : Fin 8} (v : Word) {m : MigSt} (hm : (s.chanAt c).mig = some m) (src4 : m.src < 4) (dst4 : m.dst < 4) :
    ∃ t, exec (.migrationAbort c v) s = .next t ∧ (t.chanAt c).mig = none ∧
      t.role c m.src = s.role c m.src ∧ t.role c m.dst = s.role c m.dst ∧
      t.fld (MC_MIG_STAT c) MC_MIG_STAT_STATE = 3 ∧ EventSet t BLK_MC 3 ∧
      mcOnly s t [MC_RK_STAT c m.src, MC_RK_STAT c m.dst, MC_MIG_STAT c] := by
  have run := migrationAbort_eq s c v
  rw [hm] at run
  obtain ⟨gone, kept, state, -, -, evt, only⟩ := migEnd_shows s c m (state := 3) (by decide) src4 dst4
  exact ⟨_, run, gone, kept _ _ src4 (by decide), kept _ _ dst4 (by decide), state, evt, only⟩

/-- The roles of two ranks that have changed places. -/
def State.rolesMoved (s : State) (c src dst : Nat) : State :=
  (((s.setRole c src roleRetired).setRole c dst roleActive).setFld (MC_RK_STAT c dst) MC_RK_STAT_LRANK
    (s.fld (MC_RK_STAT c src) MC_RK_STAT_LRANK)).setFld (MC_MIG_STAT c) MC_MIG_STAT_PCT 100

theorem setRole_shows (s : State) (c r : Nat) {v : Nat} (hv : v < 4) :
    (s.setRole c r v).role c r = v ∧
    (s.setRole c r v).unit (rankUnit c r) = (if v = roleActive then 0 else if v = roleSpare then 3 else 2) ∧
    RegsOnly s (s.setRole c r v) (rankRegs c r) := by
  refine ⟨?_, unit_setUnit_same _ _ (by split_ifs <;> decide), ((RegsOnly.refl s _).setFld (by simp [rankRegs])).setFld (by simp [rankRegs])⟩
  unfold State.setRole State.setUnit State.role
  rw [fld_setFld_other _ _ _ _ _ _ (rankStat_apart c r), fld_setFld_same _ _ _ _ (by decide)]
  exact Nat.mod_eq_of_lt hv

theorem rolesMoved_shows (s : State) {c src dst : Nat} (hc : c < 8) (src4 : src < 4) (dst4 : dst < 4) (ne : src ≠ dst) :
    (s.rolesMoved c src dst).role c src = roleRetired ∧ (s.rolesMoved c src dst).role c dst = roleActive ∧
    (s.rolesMoved c src dst).fld (MC_RK_STAT c dst) MC_RK_STAT_LRANK = s.fld (MC_RK_STAT c src) MC_RK_STAT_LRANK ∧
    (s.rolesMoved c src dst).fld (MC_MIG_STAT c) MC_MIG_STAT_PCT = 100 ∧
    (s.rolesMoved c src dst).unit (rankUnit c src) = 2 ∧ (s.rolesMoved c src dst).unit (rankUnit c dst) = 0 ∧
    RegsOnly s (s.rolesMoved c src dst) [MC_RK_STAT c src, MC_RK_STAT c dst, MC_MIG_STAT c, ST_USTAT (rankUnit c src),
      ST_USTAT (rankUnit c dst)] := by
  obtain ⟨uRole, uUnit, uOnly⟩ := setRole_shows s c src (v := roleRetired) (by decide)
  obtain ⟨u, hu⟩ : ∃ u, s.setRole c src roleRetired = u := ⟨_, rfl⟩
  rw [hu] at uRole uUnit uOnly
  obtain ⟨wRole, wUnit, wOnly⟩ := setRole_shows u c dst (v := roleActive) (by decide)
  obtain ⟨w, hw⟩ : ∃ w, u.setRole c dst roleActive = w := ⟨_, rfl⟩
  rw [hw] at wRole wUnit wOnly
  obtain ⟨l, hl⟩ : ∃ l, s.fld (MC_RK_STAT c src) MC_RK_STAT_LRANK = l := ⟨_, rfl⟩
  have l4 : l < 4 := hl ▸ fld_lt s _ MC_RK_STAT_LRANK
  have eq : s.rolesMoved c src dst = (w.setFld (MC_RK_STAT c dst) MC_RK_STAT_LRANK l).setFld (MC_MIG_STAT c) MC_MIG_STAT_PCT 100 := by
    rw [← hw, ← hu, ← hl]
    rfl
  have srcSame : ∀ off ∈ rankRegs c src, w.reg off = u.reg off := fun off ho =>
    wOnly.2 off (rankRegs_apart hc src4 hc dst4 (.inr ne) off ho)
  have migApart : ∀ r, r < 4 → MC_RK_STAT c r ≠ MC_MIG_STAT c := fun r hr => migStat_ne hr
  have unitKept : ∀ k, ((w.setFld (MC_RK_STAT c dst) MC_RK_STAT_LRANK l).setFld (MC_MIG_STAT c) MC_MIG_STAT_PCT 100).unit k = w.unit k := by
    intro k
    refine unit_of_reg ?_
    rw [reg_setFld_other _ _ _ _ _ (by unfold ST_USTAT MC_MIG_STAT; omega),
      reg_setFld_other _ _ _ _ _ (by unfold ST_USTAT MC_RK_STAT; omega)]
  rw [eq, hl]
  refine ⟨?_, ?_, ?_, fld_setFld_same _ _ _ _ (by decide), ?_, ?_, ?_⟩
  · rw [State.role, fld_setFld_other _ _ _ _ _ _ (migApart src src4), fld_setFld_other _ _ _ _ _ _ (rankStat_ne ne)]
    exact (fld_of_reg _ (srcSame _ (by simp [rankRegs]))).trans uRole
  · rw [State.role, fld_setFld_other _ _ _ _ _ _ (migApart dst dst4), fld_setFld_field _ _ _ _ _ (by decide)]
    exact wRole
  · rw [fld_setFld_other _ _ _ _ _ _ (migApart dst dst4), fld_setFld_same _ _ _ _ (by decide)]
    exact Nat.mod_eq_of_lt l4
  · rw [unitKept]
    exact (unit_of_reg (srcSame _ (by simp [rankRegs]))).trans uUnit
  · rw [unitKept]
    exact wUnit
  · exact (((uOnly.mono (by simp [rankRegs])).trans (wOnly.mono (by simp [rankRegs]))).setFld (by simp)).setFld (by simp)

theorem migration_ends {s : State} {c : Fin 8} {m : MigSt} (hm : (s.chanAt c).mig = some m) (src4 : m.src < 4) (dst4 : m.dst < 4)
    (ne : m.src ≠ m.dst) (copied : s.rankBytes ≤ m.copied) (srcQuiet : s.rankQuiet c m.src = true) (dstQuiet : s.rankQuiet c m.dst = true) :
    ∃ t, exec (.migDone c) s = .next t ∧ (t.chanAt c).mig = none ∧ t.role c m.src = roleRetired ∧
      t.role c m.dst = roleActive ∧
      t.fld (MC_RK_STAT c m.dst) MC_RK_STAT_LRANK = s.fld (MC_RK_STAT c m.src) MC_RK_STAT_LRANK ∧
      t.fld (MC_MIG_STAT c) MC_MIG_STAT_STATE = 2 ∧ t.fld (MC_MIG_STAT c) MC_MIG_STAT_PCT = 100 ∧
      t.unit (rankUnit c m.src) = 2 ∧ t.unit (rankUnit c m.dst) = 0 ∧ EventSet t BLK_MC 3 ∧
      mcOnly s t [MC_RK_STAT c m.src, MC_RK_STAT c m.dst, MC_MIG_STAT c, ST_USTAT (rankUnit c m.src),
        ST_USTAT (rankUnit c m.dst)] := by
  have run : exec (.migDone c) s = .next ((s.rolesMoved c m.src m.dst).migEnd c m 2) := by
    change execMigDone c s = _
    unfold execMigDone
    dsimp only
    rw [hm]
    refine congrArg Host.Outcome.next (if_neg ?_)
    rw [srcQuiet, dstQuiet]
    simpa using copied
  obtain ⟨srcRole, dstRole, lrank, pct, srcUnit, dstUnit, only⟩ := rolesMoved_shows s c.isLt src4 dst4 ne
  generalize s.rolesMoved c m.src m.dst = u at *
  obtain ⟨gone, kept, state, keptPct, units, evt, ended⟩ := migEnd_shows u c m (state := 2) (by decide) src4 dst4
  have first : mcOnly s u [MC_RK_STAT c m.src, MC_RK_STAT c m.dst, MC_MIG_STAT c, ST_USTAT (rankUnit c m.src),
      ST_USTAT (rankUnit c m.dst)] := by
    obtain ⟨same, but⟩ := only
    exact ⟨by unfold Quiet; rw [same], but.mono (List.subset_append_left _ _)⟩
  exact ⟨_, run, gone, (kept _ _ src4 (by decide)).trans srcRole, (kept _ _ dst4 (by decide)).trans dstRole,
    (kept _ _ dst4 (by decide)).trans lrank, state, keptPct.trans pct, (units _).trans srcUnit, (units _).trans dstUnit, evt,
    mcOnly_trans first (mcOnly_mono ended (by simp))⟩

/-! ### Poison (R309, R311) -/

/-- Poison and the configuration stay. -/
def PoisonStays (s t : State) : Prop := t.poison = s.poison ∧ t.reg MC_CFG = s.reg MC_CFG

theorem poisonStays_kept : KeptByDram PoisonStays where
  refl _ := ⟨rfl, rfl⟩
  trans _ _ _ h k := ⟨k.1.trans h.1, k.2.trans h.2⟩
  inMc s t h := by
    rw [show t = { s with mc := t.mc } from h]
    exact ⟨rfl, rfl⟩
  scheduler s t h := by
    refine ⟨by rw [h.1], h.2 _ (by decide) (by decide) fun c r => by unfold MC_CFG MC_RK_STAT; omega⟩
  setReg s off v ho := ⟨rfl, reg_setReg_other _ _ _ _ (by unfold MC_CFG; omega)⟩
  count s k hk := ⟨rfl, reg_setReg_other _ _ _ _ (by unfold MC_CFG MC_CNT; omega)⟩
  setEvt s blk n hb := by
    refine ⟨(setEvt_quiet _ _ _).poison, reg_setEvt_of_notMem _ _ _ _ ?_⟩
    rcases hb with rfl | rfl <;> decide
  fault s code inst info := ⟨(fault_quiet _ _ _ _).poison, reg_fault _ _ _ _ _ (by decide)⟩
  faultCounted s code inst info n window := ⟨(faultCounted_quiet _ _ _ _ _ _).poison, reg_faultCounted _ _ _ _ _ _ _ (by decide)⟩
  draw _ := ⟨rfl, rfl⟩
  onSt _ _ := ⟨rfl, rfl⟩

theorem PoisonStays.line {s t : State} (h : PoisonStays s t) (l : Nat) : t.linePoisoned l = s.linePoisoned l := by
  unfold State.linePoisoned
  rw [h.1]

theorem linePoisoned_setPoison (s : State) (l k : Nat) : (s.setPoison l).linePoisoned k = if k = l then true else s.linePoisoned k :=
  Tbl.get_set _ _ _ _ _

theorem uncorrectable_plain (s : State) (c r line : Nat) :
    s.uncorrectable false c r line = ((s.setPoison line).poisonReport line).rankFails c r := by
  unfold State.uncorrectable
  rw [if_neg Bool.false_ne_true]

theorem uncorrectable_mirrored (s : State) (c r line : Nat) :
    s.uncorrectable true c r line = ((((s.count (MC_CNT 2)).setEvt BLK_MC 4).fault 0x13C3 (rankIx c r)).writeBack line).rankFails c r := by
  unfold State.uncorrectable
  rw [if_pos rfl]

/-- Of a mirrored line, an uncorrectable error poisons nothing. -/
theorem uncorrectable_mirrored_stays (s : State) (c r line : Nat) : PoisonStays s (s.uncorrectable true c r line) := by
  have h := poisonStays_kept
  rw [uncorrectable_mirrored]
  have reported : PoisonStays s (((s.count (MC_CNT 2)).setEvt BLK_MC 4).fault 0x13C3 (rankIx c r)) :=
    h.trans _ _ _ (h.trans _ _ _ (h.count s 2 (by decide)) (h.evt _ 4)) (h.fault _ _ _ _)
  generalize ((s.count (MC_CNT 2)).setEvt BLK_MC 4).fault 0x13C3 (rankIx c r) = u at *
  exact h.trans _ _ _ (h.trans _ _ _ reported (h.writeBack u line)) (h.rankFails _ c r)

/-- An uncorrectable error of an unmirrored line poisons it, and no other line. -/
theorem uncorrectable_poisons (s : State) (c r line k : Nat) :
    (s.uncorrectable false c r line).linePoisoned k = if k = line then true else s.linePoisoned k := by
  have h := poisonStays_kept
  rw [uncorrectable_plain, (h.rankFails _ c r).line, (h.poisonReport _ line).line, linePoisoned_setPoison]

theorem uncorrectable_cfg (s : State) (mirrored : Bool) (c r line : Nat) : (s.uncorrectable mirrored c r line).reg MC_CFG = s.reg MC_CFG := by
  have h := poisonStays_kept
  cases mirrored with
  | false =>
    rw [uncorrectable_plain, (h.rankFails _ c r).2, (h.poisonReport _ line).2]
    rfl
  | true => exact (uncorrectable_mirrored_stays s c r line).2

theorem uncorrectable_keeps (s : State) (mirrored : Bool) (c r line : Nat) {k : Nat} (h : s.linePoisoned k = true) :
    (s.uncorrectable mirrored c r line).linePoisoned k = true := by
  cases mirrored with
  | false =>
    rw [uncorrectable_poisons]
    split
    · rfl
    · exact h
  | true => exact ((uncorrectable_mirrored_stays s c r line).line k).trans h

theorem copyLine_poisons (s : State) (c : Fin 8) (m : MigSt) (off : Nat) (plain : s.mirPairs.contains (c.val / 2) = false) :
    (s.copyLine c m off).linePoisoned (s.rankAddr c (s.fld (MC_RK_STAT c m.src) MC_RK_STAT_LRANK) off / 64) =
      (s.linePoisoned (s.rankAddr c (s.fld (MC_RK_STAT c m.src) MC_RK_STAT_LRANK) off / 64) ||
        decide (2 ≤ Config.freeNat s.freeIx % 3)) := by
  obtain ⟨line, hline⟩ : ∃ line, s.rankAddr c (s.fld (MC_RK_STAT c m.src) MC_RK_STAT_LRANK) off / 64 = line := ⟨_, rfl⟩
  have h := poisonStays_kept
  obtain ⟨v, hv⟩ : ∃ v, ((s.portGrant c 7 0).burst c m.src line .close).burst c m.dst line .close = v := ⟨_, rfl⟩
  have bursts : InMc (s.portGrant c 7 0) v :=
    hv ▸ InMc.trans _ _ _ (burst_inMc _ _ _ _ _) (burst_inMc _ _ _ _ _)
  have vOnly : v = { s.portGrant c 7 0 with mc := v.mc } := bursts
  have free : v.freeIx = s.freeIx := by rw [vOnly]; rfl
  have stays : PoisonStays s v := h.trans _ _ _ (h.scheduler _ _ (portGrant_byScheduler s _ _ _)) (h.inMc _ _ bursts)
  obtain ⟨u, hu⟩ : ∃ u, v.draw.2 = u := ⟨_, rfl⟩
  have drawn : PoisonStays s u := h.trans _ _ _ stays (hu ▸ h.draw v)
  have pairs : u.mirPairs = s.mirPairs :=
    (population_congr fun f _ => fld_of_reg f drawn.2).2.2.1
  have eq : s.copyLine c m off = match Config.freeNat s.freeIx % 3 with
      | 0 => u
      | 1 => u.correctedError c m.src
      | _ => u.uncorrectable (u.mirPairs.contains (c.val / 2)) c m.src line := by
    rw [← free, ← hu, ← hv, ← hline]
    rfl
  rw [hline, eq, pairs, plain]
  have lt : Config.freeNat s.freeIx % 3 < 3 := Nat.mod_lt _ (by decide)
  generalize Config.freeNat s.freeIx % 3 = k at lt
  match k, lt with
  | 0, _ => exact (drawn.line line).trans (Bool.or_false _).symm
  | 1, _ => exact ((h.trans _ _ _ drawn (h.correctedError u c m.src)).line line).trans (Bool.or_false _).symm
  | 2, _ => exact (uncorrectable_poisons u c m.src line line).trans ((if_pos rfl).trans (Bool.or_true _).symm)

end Sys2Proof.Machine

namespace Sys2Proof.Machine

/-! ### Parity errors (R311) -/

theorem dramPlace_of_cfg {s t : State} (h : t.reg MC_CFG = s.reg MC_CFG) (a : Nat) : t.dramPlace a = s.dramPlace a := by
  have fields : ∀ f : Fld, t.fld MC_CFG f = s.fld MC_CFG f := fun f => fld_of_reg f h
  obtain ⟨-, -, pairs, plain, cap⟩ := population_congr (s := s) (t := t) fun f _ => fields f
  unfold State.dramPlace State.mirSize State.colShift State.rowBits
  rw [pairs, plain, cap]
  simp only [fields]

theorem parityReplay_stays (s : State) (c : Nat) : PoisonStays s (s.parityReplay c).2 := by
  have h := poisonStays_kept
  exact h.trans _ _ _ (h.trans _ _ _ (h.inMc _ _ (onChan_inMc s c _)) (h.count _ 3 (by decide))) (h.faultCounted _ _ _ _ _ _)

/-- The replay of a channel's commands that succeeds. -/
theorem parityReplay_shows {s : State} {c : Fin 8} (few : ((s.chanAt c).parity.filter fun t => decide (s.now - t < ticksSec)).length < 7) :
    (s.parityReplay c).1 = false ∧ (s.parityReplay c).2.reg (MC_CNT 3) = satInc (s.reg (MC_CNT 3)) ∧
    Reported s (s.parityReplay c).2 0x13C2 (BitVec.ofNat 8 c) 0 ∧ mcOnly s (s.parityReplay c).2 [MC_CNT 3] := by
  obtain ⟨ts, hts⟩ : ∃ ts, ((s.chanAt c).parity.filter fun t => decide (s.now - t < ticksSec)) ++ [s.now] = ts := ⟨_, rfl⟩
  have len : ts.length < 8 := by
    rw [← hts, List.length_append, List.length_singleton]
    omega
  obtain ⟨u, hu⟩ : ∃ u, (s.onChan c (fun x => { x with parity := ts })).count (MC_CNT 3) = u := ⟨_, rfl⟩
  have eq : s.parityReplay c = (decide (8 ≤ ts.length), (u.faultCounted 0x13C2 c 0 8 ticksSec).2) := by
    rw [← hu, ← hts]
    rfl
  have only : mcOnly s u [MC_CNT 3] := hu ▸ mcOnly_setReg (mcOnly_inMc (mcOnly_refl s _) (onChan_inMc s c _)) (by simp)
  have queues : u.si.queues = s.si.queues := by rw [← hu]; rfl
  rw [eq]
  dsimp only
  refine ⟨decide_eq_false (by omega), ?_, (faultCounted_reported _ _ _ _ _ _).from queues.symm,
    mcOnly_of_frame only (Frame.refl u _ _).faultCounted⟩
  rw [reg_faultCounted _ _ _ _ _ _ _ (by decide), ← hu]
  exact reg_setReg_same _ _ _

/-- An uncorrectable error on a line that a command carried. -/
def State.carriedLost (s : State) (c : Nat) (x : Nat × Nat) : State :=
  s.uncorrectable ((s.dramPlace (64 * x.2)).chans.length == 2) c x.1 x.2

/-- CA_PARITY_ERROR with its replays. -/
theorem caParity_eq (s : State) (c : Fin 8) (d : Fin 2) (k : Fin 4) {p : Bool × State}
    (hp : (List.range (min 2 (k.val + 1))).foldl (fun (acc : Bool × State) _ => (acc.1 || (acc.2.parityReplay c).1, (acc.2.parityReplay c).2))
      (false, s) = p) {u : State}
    (hu : (if p.1 = true then (((s.chanAt c).cmds.get [] d).map (·.rank)).eraseDups.foldl (fun s r => s.rankFails c r) p.2 else p.2) = u) :
    exec (.caParityError c d k) s = .next (
      if k.val = 3 then (((s.chanAt c).cmds.get [] d).filterMap fun k => k.line.map fun l => (k.rank, l)).eraseDups.foldl
        (fun u x => u.carriedLost c x) u
      else u) := by
  rw [← hu, ← hp]
  rfl

theorem parity_replayed {s : State} {c : Fin 8} (d : Fin 2)
    (few : ((s.chanAt c).parity.filter fun t => decide (s.now - t < ticksSec)).length < 7) :
    ∃ t, exec (.caParityError c d 0) s = .next t ∧
      t.reg (MC_CNT 3) = satInc (s.reg (MC_CNT 3)) ∧ Reported s t 0x13C2 (BitVec.ofNat 8 c) 0 ∧ mcOnly s t [MC_CNT 3] := by
  obtain ⟨none_, shown⟩ := parityReplay_shows few
  obtain ⟨p, hp⟩ : ∃ p, s.parityReplay c = p := ⟨_, rfl⟩
  rw [hp] at none_ shown
  have replays : (List.range (min 2 ((0 : Fin 4).val + 1))).foldl (fun (acc : Bool × State) _ =>
      (acc.1 || (acc.2.parityReplay c).1, (acc.2.parityReplay c).2)) (false, s) = (false, p.2) := by
    rw [show List.range (min 2 ((0 : Fin 4).val + 1)) = [0] from rfl, List.foldl_cons, List.foldl_nil]
    dsimp only
    rw [hp, none_]
    rfl
  exact ⟨p.2, (caParity_eq s c d 0 replays (if_neg Bool.false_ne_true)).trans (congrArg Host.Outcome.next (if_neg (by decide))), shown⟩

theorem carriedLost_poisons (c : Nat) {l : Nat} (xs : List (Nat × Nat)) (s : State) (plain : (s.dramPlace (64 * l)).chans.length = 1)
    (h : s.linePoisoned l = true ∨ ∃ r, (r, l) ∈ xs) : (xs.foldl (fun u x => u.carriedLost c x) s).linePoisoned l = true := by
  induction xs generalizing s with
  | nil => exact h.resolve_right fun ⟨r, hr⟩ => absurd hr List.not_mem_nil
  | cons x xs ih =>
    rw [List.foldl_cons]
    refine ih _ ?_ ?_
    · have cfg : (s.carriedLost c x).reg MC_CFG = s.reg MC_CFG := uncorrectable_cfg s _ c x.1 x.2
      rw [dramPlace_of_cfg cfg]
      exact plain
    · rcases h with h | ⟨r, hr⟩
      · exact .inl (uncorrectable_keeps s _ c x.1 x.2 h)
      · rcases List.mem_cons.1 hr with rfl | hr
        · refine .inl ?_
          unfold State.carriedLost
          dsimp only
          rw [plain, show ((1 : Nat) == 2) = false from rfl, uncorrectable_poisons, if_pos rfl]
        · exact .inr ⟨r, hr⟩

theorem parity_fails (s : State) (c : Fin 8) (d : Fin 2) :
    ∃ t, exec (.caParityError c d 3) s = .next t ∧
      ∀ k ∈ (s.chanAt c).cmds.get [] d, ∀ l, k.line = some l → (s.dramPlace (64 * l)).chans.length = 1 → t.linePoisoned l = true := by
  obtain ⟨cmds, hcmds⟩ : ∃ cmds, (s.chanAt c).cmds.get [] d = cmds := ⟨_, rfl⟩
  obtain ⟨p, hp⟩ : ∃ p, s.parityReplay c = p := ⟨_, rfl⟩
  obtain ⟨q, hq⟩ : ∃ q, p.2.parityReplay c = q := ⟨_, rfl⟩
  obtain ⟨u, hu⟩ : ∃ u, (if (p.1 || q.1) = true then (cmds.map (·.rank)).eraseDups.foldl (fun s r => s.rankFails c r) q.2 else q.2) = u :=
    ⟨_, rfl⟩
  have h := poisonStays_kept
  have replayed : PoisonStays s q.2 := h.trans _ _ _ (hp ▸ parityReplay_stays s c) (hq ▸ parityReplay_stays p.2 c)
  have stays : PoisonStays s u := by
    rw [← hu]
    split
    · exact h.trans _ _ _ replayed (foldl_keeps PoisonStays h.refl h.trans _ (fun s r => h.rankFails s c r) _ _)
    · exact replayed
  have replays : (List.range (min 2 ((3 : Fin 4).val + 1))).foldl (fun (acc : Bool × State) _ =>
      (acc.1 || (acc.2.parityReplay c).1, (acc.2.parityReplay c).2)) (false, s) = (p.1 || q.1, q.2) := by
    rw [show List.range (min 2 ((3 : Fin 4).val + 1)) = [0, 1] from rfl, List.foldl_cons, List.foldl_cons, List.foldl_nil]
    dsimp only
    rw [hp, hq, Bool.false_or]
  rw [← hcmds] at hu
  have run := (caParity_eq s c d 3 replays hu).trans (congrArg Host.Outcome.next (if_pos (by decide)))
  rw [hcmds] at run
  refine ⟨_, run, fun k hk l hl plain => ?_⟩
  rw [hcmds] at hk
  refine carriedLost_poisons c _ u ?_ (.inr ⟨k.rank, ?_⟩)
  · rw [dramPlace_of_cfg stays.2]
    exact plain
  · rw [List.mem_eraseDups, List.mem_filterMap]
    exact ⟨k, hk, by rw [hl]; rfl⟩

theorem migration_moves : migrationMovesALogicalRank := by
  intro s c v
  refine ⟨fun src dst => migration_starts, migration_refused, migration_underWay v, fun m => migDone_waits, fun none_ => ⟨migDone_none none_, ?_⟩,
    fun m hm src4 dst4 ne => ⟨migration_ends hm src4 dst4 ne, migration_aborted v hm src4 dst4⟩,
    fun m off plain => copyLine_poisons s c m off plain, fun d few _ => parity_replayed d few, parity_fails s c⟩
  rw [migrationAbort_eq, none_]

/-- Settles O43: the phases of self-refresh, the levels of panic, and a migration from its start to its end; reports and the
start of a migration keep poison, so an uncorrectable error poisons exactly its line. -/
theorem selfRefreshAndMigration : Obligations.SelfRefreshAndMigration := ⟨self_refresh_panic_sideband, migration_moves⟩

end Sys2Proof.Machine

/-!
O53: plain memory as ports reach it, and the frames of the Ethernet rings.
-/

namespace Sys2Proof.Machine

/-! ### Pieces of a range -/

/-- A list of pieces that covers a range from its first address to its last, in order. -/
def Tiles : List (Nat × Nat) → Nat → Nat → Prop
  | [], _, n => n = 0
  | p :: ps, a, n => p.1 = a ∧ 0 < p.2 ∧ p.2 ≤ n ∧ Tiles ps (a + p.2) (n - p.2)

theorem piecesFuel_tiles : ∀ fuel a n, n ≤ 64 * fuel - a % 64 → n ≤ 64 * fuel → Tiles (piecesFuel fuel a n) a n
  | 0, _, n, _, h => by rw [Nat.mul_zero, Nat.le_zero] at h; exact h
  | fuel + 1, a, 0, _, _ => rfl
  | fuel + 1, a, n + 1, h, _ => ⟨rfl, by dsimp only; omega, by dsimp only; omega, piecesFuel_tiles fuel _ _ (by omega) (by omega)⟩

theorem pieces_tile (a n : Nat) : Tiles (pieces a n) a n := piecesFuel_tiles _ _ _ (by omega) (by omega)

theorem Tiles.mem {ps : List (Nat × Nat)} {a n : Nat} (h : Tiles ps a n) : ∀ p ∈ ps, a ≤ p.1 ∧ p.1 + p.2 ≤ a + n ∧ 0 < p.2 := by
  induction ps generalizing a n with
  | nil => exact fun p hp => absurd hp List.not_mem_nil
  | cons q ps ih =>
    obtain ⟨start, pos, fits, rest⟩ := h
    intro p hp
    rcases List.mem_cons.1 hp with rfl | hp
    · omega
    · have := ih rest p hp
      omega

theorem memRead_add (m : List Host.Cell) (a k n : Nat) : memRead m a (k + n) = memRead m a k ++ memRead m (a + k) n := by
  refine List.ext_getElem (by simp) fun i h1 h2 => ?_
  rw [memRead_getElem]
  by_cases low : i < k
  · rw [List.getElem_append_left (by simpa using low), memRead_getElem]
  · rw [List.getElem_append_right (by simpa using Nat.le_of_not_lt low), memRead_getElem, memRead_length]
    congr 1
    omega

theorem Tiles.loads {ps : List (Nat × Nat)} {a n : Nat} (h : Tiles ps a n) (s : State) :
    ps.flatMap (fun p => s.loadBytes p.1 p.2) = s.loadBytes a n := by
  induction ps generalizing a n with
  | nil => rw [show n = 0 from h]; rfl
  | cons q ps ih =>
    obtain ⟨start, pos, fits, rest⟩ := h
    rw [List.flatMap_cons, ih rest, start]
    have split : n = q.2 + (n - q.2) := by omega
    conv_rhs => rw [split]
    exact (memRead_add _ _ _ _).symm

theorem loadBytes_length (s : State) (a n : Nat) : (s.loadBytes a n).length = n := memRead_length _ _ _

/-! ### Plain on-chip memory (R13, R309) -/

section
variable {s : State} {m : Master} {a n : Nat}

theorem and_allOnes_byte (b : Byte) : b &&& 0xFF = b := by
  have all : (0xFF : Byte) = BitVec.allOnes 8 := rfl
  rw [all, BitVec.and_allOnes]

theorem viewBytes_plain (plain : ∀ j < n, fieldBits (a + j) = 0xFF) : s.viewBytes a n = s.loadBytes a n := by
  unfold State.viewBytes
  refine List.ext_getElem (by simp) fun i h1 h2 => ?_
  have hi : i < n := by simpa [loadBytes_length] using h2
  rw [List.getElem_map, List.getElem_zipIdx]
  dsimp only
  rw [Nat.zero_add, plain i hi, and_allOnes_byte]

theorem putBytes_plain (bs : List Byte) (plain : ∀ j < bs.length, readOnlyByte (a + j) = false ∧ fieldBits (a + j) = 0xFF) :
    s.putBytes a bs = s.storeBytes a bs := by
  unfold State.putBytes
  refine congrArg (s.storeBytes a) (List.ext_getElem (by simp) fun i h1 h2 => ?_)
  obtain ⟨free, field⟩ := plain i h2
  rw [List.getElem_map, List.getElem_zipIdx]
  dsimp only
  rw [Nat.zero_add, free, field, if_neg Bool.false_ne_true, and_allOnes_byte]

theorem firstUnmapped_mapped (mapped : ∀ p ∈ pieces a n, s.region p.1 ≠ .unmapped) : s.firstUnmapped a n = none := by
  unfold State.firstUnmapped
  rw [Option.map_eq_none_iff, List.find?_eq_none]
  intro p hp
  rw [decide_eq_true_eq]
  exact mapped p hp

theorem plain_piece (plain : plainSram s a n) {p : Nat × Nat} (hp : p ∈ pieces a n) : s.region p.1 = .sram := by
  obtain ⟨lo, hi, pos⟩ := (pieces_tile a n).mem p hp
  have here := (plain (p.1 - a) (by omega)).1
  rwa [Nat.add_sub_cancel' lo] at here

theorem sram_mod (a : Nat) : s.region a = .sram ↔ 0x100000000000 ≤ a % 2 ^ 48 ∧ a % 2 ^ 48 < 0x10000A800000 := by
  unfold State.region
  dsimp only
  constructor
  · intro h
    split_ifs at h
    assumption
  · intro h
    rw [if_neg (by omega), if_pos h]

theorem sram_line (h : s.region a = .sram) : s.region (64 * (a / 64)) = .sram := by
  rw [sram_mod] at *
  omega

/-- Poison of on-chip memory is reported, and nothing else changes. -/
theorem reportLines_sram (mapped : ∀ p ∈ pieces a n, s.region p.1 = .sram) : Frame s (s.reportLines a n) [] [] := by
  have all : ∀ (ps : List (Nat × Nat)) (t : State), Frame s t [] [] → (∀ p ∈ ps, s.region p.1 = .sram) →
      Frame s (ps.foldl (fun (s : State) p => if s.linePoisoned (p.1 / 64) then s.poisonReport (p.1 / 64) else s) t) [] [] := by
    intro ps
    induction ps with
    | nil => exact fun t h _ => h
    | cons p ps ih =>
      intro t h sram
      refine ih _ ?_ fun q hq => sram q (List.mem_cons_of_mem _ hq)
      dsimp only
      split
      · have here : t.region (64 * (p.1 / 64)) = .sram := by
          have own := sram_line (sram p List.mem_cons_self)
          rw [sram_mod] at own ⊢
          exact own
        unfold State.poisonReport
        rw [if_pos here]
        exact h.fault
      · exact h
  exact all _ s (Frame.refl s _ _) mapped

theorem memLoad_plain (perm : s.permitsAll m a n false = true) (plain : plainSram s a n) :
    (s.memLoad m a n).1 = s.loadBytes a n ∧ Frame s (s.memLoad m a n).2 [] [] := by
  have mapped : ∀ p ∈ pieces a n, s.region p.1 = .sram := fun p hp => plain_piece plain hp
  have frame := reportLines_sram mapped
  have noLog : (s.reportLines a n).firstUnmapped a n = none := firstUnmapped_mapped fun p hp => by
    have here := mapped p hp
    rw [sram_mod] at here
    rw [(sram_mod (s := s.reportLines a n) p.1).2 here]
    decide
  unfold State.memLoad
  rw [if_pos perm]
  refine ⟨?_, ?_⟩
  · rw [← (pieces_tile a n).loads s]
    unfold State.viewMapped
    refine List.flatMap_congr fun p hp => ?_
    obtain ⟨lo, hi, pos⟩ := (pieces_tile a n).mem p hp
    rw [if_neg (by rw [mapped p hp]; decide)]
    refine viewBytes_plain fun j hj => ?_
    have here := (plain (p.1 + j - a) (by omega)).2.2.2.2
    rwa [show a + (p.1 + j - a) = p.1 + j by omega] at here
  · dsimp only
    unfold State.logUnmapped
    rw [noLog]
    exact frame

/-- Memory and its poison alone have changed. -/
def MemOnly (s t : State) : Prop := t = { s with mem := t.mem, poison := t.poison }

theorem MemOnly.trans {s t u : State} (h : MemOnly s t) (k : MemOnly t u) : MemOnly s u := by
  unfold MemOnly at *
  rw [h] at k
  exact k

/-- Pieces of a range that are stored one after the other. -/
theorem Tiles.stores {ps : List (Nat × Nat)} {b : Nat} {bs : List Byte} (a : Nat) {k : Nat} (h : Tiles ps b k) (lo : a ≤ b)
    (hi : b + k = a + bs.length) (s : State) {t : State}
    (ht : ps.foldl (fun (s : State) p => s.storeBytes p.1 ((bs.drop (p.1 - a)).take p.2)) s = t) :
    MemOnly s t ∧ ∀ x, memByte t.mem x = if b ≤ x ∧ x < b + k then bs.getD (x - a) 0 else memByte s.mem x := by
  induction ps generalizing b k s with
  | nil =>
    rw [← ht]
    refine ⟨rfl, fun x => (if_neg ?_).symm⟩
    rw [show k = 0 from h]
    omega
  | cons p ps ih =>
    obtain ⟨start, pos, fits, rest⟩ := h
    have len : ((bs.drop (p.1 - a)).take p.2).length = p.2 := by
      rw [List.length_take, List.length_drop]
      omega
    obtain ⟨only, bytes⟩ := ih rest (by omega) (by omega) _ ht
    have first : MemOnly s (s.storeBytes p.1 ((bs.drop (p.1 - a)).take p.2)) := rfl
    refine ⟨first.trans only, fun x => ?_⟩
    rw [bytes x]
    by_cases later : b + p.2 ≤ x ∧ x < b + p.2 + (k - p.2)
    · rw [if_pos later, if_pos (by omega)]
    · rw [if_neg later]
      by_cases here : b ≤ x ∧ x < b + k
      · rw [if_pos here]
        have off : x = p.1 + (x - p.1) := by omega
        have lt : x - p.1 < ((bs.drop (p.1 - a)).take p.2).length := by rw [len]; omega
        conv_lhs => rw [off]
        rw [storeBytes_in _ _ _ _ lt, List.getElem_take, List.getElem_drop, List.getD_eq_getElem _ _ (by omega)]
        congr 1
        omega
      · rw [if_neg here, storeBytes_out _ _ _ _ (by rw [len]; omega)]

theorem memSave_plain {bs : List Byte} (perm : s.permitsAll m a bs.length true = true) (plain : plainSram s a bs.length) :
    MemOnly s (s.memSave m a bs) ∧
      ∀ x, memByte (s.memSave m a bs).mem x = if a ≤ x ∧ x < a + bs.length then bs.getD (x - a) 0 else memByte s.mem x := by
  have same : ∀ (ps : List (Nat × Nat)) (t : State), (∀ p ∈ ps, p ∈ pieces a bs.length) →
      ps.foldl (fun (s : State) p => if s.region p.1 = .unmapped then s else s.putBytes p.1 ((bs.drop (p.1 - a)).take p.2)) t =
        ps.foldl (fun (s : State) p => s.storeBytes p.1 ((bs.drop (p.1 - a)).take p.2)) t := by
    intro ps
    induction ps with
    | nil => exact fun _ _ => rfl
    | cons p ps ih =>
      intro t inside
      have hp := inside p List.mem_cons_self
      obtain ⟨lo, hi, pos⟩ := (pieces_tile a bs.length).mem p hp
      have mapped : t.region p.1 = .sram := (sram_mod _).2 ((sram_mod _).1 (plain_piece plain hp))
      rw [List.foldl_cons, List.foldl_cons, if_neg (by rw [mapped]; decide), putBytes_plain]
      · exact ih _ fun q hq => inside q (List.mem_cons_of_mem _ hq)
      · intro j hj
        rw [List.length_take, List.length_drop] at hj
        have here := plain (p.1 + j - a) (by omega)
        rw [show a + (p.1 + j - a) = p.1 + j by omega] at here
        exact ⟨here.2.2.2.1, here.2.2.2.2⟩
  obtain ⟨t, ht⟩ : ∃ t, (pieces a bs.length).foldl (fun (s : State) p => s.storeBytes p.1 ((bs.drop (p.1 - a)).take p.2)) s = t := ⟨_, rfl⟩
  have eq : s.memSave m a bs = t := by
    unfold State.memSave
    rw [if_pos perm, same _ s fun _ hp => hp, ht]
    unfold State.logUnmapped
    rw [firstUnmapped_mapped fun p hp => by
      rw [(sram_mod (s := t) p.1).2 ((sram_mod (s := s) p.1).1 (plain_piece plain hp))]
      decide]
  rw [eq]
  exact (pieces_tile a bs.length).stores a (Nat.le_refl a) rfl s ht

end

end Sys2Proof.Machine

namespace Sys2Proof.Machine

/-! ### Permission and regions as reads and stores leave them -/

/-- PROT and the map of memory are as they were. -/
def SameProt (s t : State) : Prop :=
  (∀ off, 0x301000 ≤ off → off < 0x302000 → t.reg off = s.reg off) ∧ ∀ a, t.region a = s.region a

theorem SameProt.permits {s t : State} (h : SameProt s t) (m : Master) (a : Nat) (write : Bool) : t.permits m a write = s.permits m a write := by
  obtain ⟨regs, region⟩ := h
  have hit : ∀ i, i < 32 → t.protHit a i = s.protHit a i := fun i hi => by
    unfold State.protHit State.bit State.fld
    rw [regs (PROT_REGION0 i), regs (PROT_REGION1 i), regs (PROT_REGION2 i), regs (PROT_REGION3 i)] <;>
      simp only [PROT_REGION0, PROT_REGION1, PROT_REGION2, PROT_REGION3] <;> omega
  have perm : ∀ i, i < 32 → t.fld (PROT_REGION1 i) PROT_REGION1_PERM = s.fld (PROT_REGION1 i) PROT_REGION1_PERM :=
    fun i hi => fld_of_reg _ (regs _ (by unfold PROT_REGION1; omega) (by unfold PROT_REGION1; omega))
  unfold State.permits
  rw [region, List.find?_congr fun i hi => hit i (List.mem_range.1 hi)]
  cases hf : (List.range 32).find? (s.protHit a) with
  | none => rfl
  | some i => simp only [perm i (List.mem_range.1 (List.mem_of_find?_eq_some hf))]

theorem SameProt.permitsAll {s t : State} (h : SameProt s t) (m : Master) (a n : Nat) (write : Bool) :
    t.permitsAll m a n write = s.permitsAll m a n write := by
  unfold State.permitsAll
  exact congrArg _ (funext fun p => h.permits m p.1 write)

theorem SameProt.of_frame {s t : State} (h : Frame s t [] []) : SameProt s t := by
  have cfg : t.reg MC_CFG = s.reg MC_CFG := h.reg (by decide) (by decide)
  refine ⟨fun off lo hi => h.reg (by simp) (notMem_reportRegs_nil (by omega)), fun a => ?_⟩
  obtain ⟨-, -, pairs, plain, cap⟩ := population_congr (s := s) (t := t) fun f _ => fld_of_reg f cfg
  unfold State.region State.dramCap
  rw [pairs, plain, cap, bit_of_reg _ cfg]

theorem MemOnly.regs {s t : State} (h : MemOnly s t) : t.regs = s.regs := by
  unfold MemOnly at h
  rw [h]

theorem SameProt.of_mem {s t : State} (h : MemOnly s t) : SameProt s t := by
  refine ⟨fun off _ _ => reg_of_regs h.regs off, fun a => ?_⟩
  unfold MemOnly at h
  rw [h]
  rfl

theorem SameProt.trans {s t u : State} (h : SameProt s t) (k : SameProt t u) : SameProt s u :=
  ⟨fun off lo hi => (k.1 off lo hi).trans (h.1 off lo hi), fun a => (k.2 a).trans (h.2 a)⟩

theorem plainSram_congr {s t : State} {a n : Nat} (h : plainSram s a n) : plainSram t a n := fun j hj =>
  ⟨(sram_mod _).2 ((sram_mod _).1 (h j hj).1), (h j hj).2⟩

theorem Frame.of_memOnly {s t u : State} {l blks : List Nat} (h : Frame s t l blks) (k : MemOnly t u) :
    Frame { s with mem := u.mem, poison := u.poison } u l blks := by
  obtain ⟨quiet, regs⟩ := h
  have uRegs := k.regs
  unfold MemOnly at k
  unfold Quiet at quiet
  refine ⟨?_, fun off ho => (reg_of_regs uRegs off).trans (regs off ho)⟩
  obtain ⟨m, p, hu⟩ : ∃ m p, u = { t with mem := m, poison := p } := ⟨_, _, k⟩
  rw [hu]
  unfold Quiet
  conv_lhs => rw [quiet]

/-! ### Reports of frames (R395, R398) -/

/-- The index and phase of a PTP event, with its event. -/
def State.enStamp (s : State) (e : Nat) (ixField phField : Fld) (ix phase k : Nat) : State :=
  ((s.setFld (EN_TSI e) ixField ix).setFld (EN_TSI e) phField phase).setEvt BLK_EN (enEvt e k)

/-- The record of a PTP event, or of one that is missed as the last stands. -/
def State.enMark (s : State) (e : Nat) (ixField phField : Fld) (ix phase k : Nat) (event : Bool) : State :=
  if (event && !s.rbit EN_EVT (enEvt e k)) = true then s.enStamp e ixField phField ix phase k
  else if (event && !(event && !s.rbit EN_EVT (enEvt e k))) = true then s.count (EN_CNT e 1) else s

theorem enNotReport {off : Nat} (h : 0x1701000 ≤ off) : off ∉ reportRegs [BLK_EN] :=
  notMem_reportRegs_one (b := BLK_EN) 0x1700020 rfl (by omega)

theorem enMark_shows (s : State) (e : Fin 2) {ixField phField : Fld} (ix phase k : Nat) (event : Bool) (hk : k < 8)
    (apart : ixField.lo + ixField.w ≤ phField.lo) (fits : phField.lo + phField.w ≤ 32) :
    Frame s (s.enMark e ixField phField ix phase k event) [EN_TSI e, EN_CNT e 1] [BLK_EN] ∧
    (event = false → s.enMark e ixField phField ix phase k event = s) ∧
    (event = true → s.rbit EN_EVT (8 * e + k) = false →
      EventSet (s.enMark e ixField phField ix phase k event) BLK_EN (8 * e + k) ∧
      (s.enMark e ixField phField ix phase k event).fld (EN_TSI e) ixField = ix % 2 ^ ixField.w ∧
      (s.enMark e ixField phField ix phase k event).fld (EN_TSI e) phField = phase % 2 ^ phField.w) ∧
    (event = true → s.rbit EN_EVT (8 * e + k) = true →
      (s.enMark e ixField phField ix phase k event).reg (EN_CNT e 1) = satInc (s.reg (EN_CNT e 1))) := by
  unfold State.enMark enEvt
  cases event with
  | false => exact ⟨Frame.refl _ _ _, fun _ => rfl, fun h => absurd h Bool.false_ne_true, fun h => absurd h Bool.false_ne_true⟩
  | true =>
    cases standing : s.rbit EN_EVT (8 * e + k) with
    | true =>
      refine ⟨(Frame.refl _ _ _).count (by simp), fun h => absurd h.symm Bool.false_ne_true, fun _ h => absurd h.symm Bool.false_ne_true,
        fun _ _ => reg_setReg_same _ _ _⟩
    | false =>
      obtain ⟨u, hu⟩ : ∃ u, (s.setFld (EN_TSI e) ixField ix).setFld (EN_TSI e) phField phase = u := ⟨_, rfl⟩
      have eq : s.enStamp e ixField phField ix phase k = u.setEvt BLK_EN (8 * e + k) := by rw [← hu]; rfl
      have tsi : (u.setEvt BLK_EN (8 * e + k)).reg (EN_TSI e) = u.reg (EN_TSI e) :=
        reg_setEvt_of_notMem _ _ _ _ (enNotReport (by unfold EN_TSI; omega))
      have mark : (if (true && !false) = true then s.enStamp e ixField phField ix phase k
          else if (true && !(true && !false)) = true then s.count (EN_CNT e 1) else s) = u.setEvt BLK_EN (8 * e + k) := eq
      rw [mark]
      refine ⟨?_, fun h => absurd h.symm Bool.false_ne_true, fun _ _ => ⟨setEvt_eventSet _ _ _ (by omega), ?_, ?_⟩,
        fun _ h => absurd h Bool.false_ne_true⟩
      · rw [← hu]
        exact (((Frame.refl s _ _).setFld (by simp)).setFld (by simp)).setEvt (by simp)
      · rw [fld_of_reg _ tsi, ← hu, fld_setFld_field _ _ _ _ _ (.inl apart), fld_setFld_same _ _ _ _ (by omega)]
      · rw [fld_of_reg _ tsi, ← hu, fld_setFld_same _ _ _ _ fits]

/-! ### Frames that are not kept (R394, R396) -/

theorem enDiscard_shows (s : State) (e : Fin 2) :
    (s.enDiscard e).reg (EN_CNT e 0) = satInc (s.reg (EN_CNT e 0)) ∧ Reported s (s.enDiscard e) 0x05C1 (BitVec.ofNat 8 e) 0 ∧
      Frame s (s.enDiscard e) [EN_CNT e 0] [] := by
  obtain ⟨u, hu⟩ : ∃ u, s.count (EN_CNT e 0) = u := ⟨_, rfl⟩
  have eq : s.enDiscard e = u.fault 0x05C1 e := by rw [← hu]; rfl
  rw [eq]
  refine ⟨?_, fault_reportedFrom _ _ _ (by rw [← hu]; rfl), ?_⟩
  · rw [reg_fault _ _ _ _ _ (notMem_reportRegs_nil (by unfold EN_CNT; omega)), ← hu]
    exact reg_setReg_same _ _ _
  · have counted : Frame s u [EN_CNT e 0] [] := hu ▸ (Frame.refl _ _ _).count (by simp)
    exact counted.fault

/-- A frame that a port which runs takes apart by its length, its check sequence, its type and its address. -/
theorem rxFrame_eq {s : State} {e : Fin 2} (f : RxFrame) (on : s.bit (EN_CFG e) EN_CFG_EN = true) :
    exec (.rxFrame e f) s = .next (
      if (!f.fcsOk || decide (f.bytes.length + 4 < 64) || decide (s.enMaxLen e < f.bytes.length + 4)) = true then s.enDiscard e
      else if frame16 f.bytes (etherTypeAt f.bytes) = 0x8808 then s.count (EN_CNT e 3)
      else if (!s.enAccepts e f.bytes) = true then s
      else if s.reg (EN_RX_HEAD e) = s.reg (EN_RX_TAIL e) then s.enDiscard e
      else s.enReceive e f) :=
  congrArg Host.Outcome.next (if_neg (by rw [on]; decide))

theorem frame_whole {s : State} {e : Fin 2} {f : RxFrame} (fcs : f.fcsOk = true) (lo : 64 ≤ f.bytes.length + 4)
    (hi : f.bytes.length + 4 ≤ s.enMaxLen e) :
    (!f.fcsOk || decide (f.bytes.length + 4 < 64) || decide (s.enMaxLen e < f.bytes.length + 4)) = false := by
  rw [fcs, decide_eq_false (by omega), decide_eq_false (by omega)]
  rfl

theorem rxFrame_discarded {s : State} {e : Fin 2} {f : RxFrame} (on : s.bit (EN_CFG e) EN_CFG_EN = true)
    (bad : f.fcsOk = false ∨ f.bytes.length + 4 < 64 ∨ s.enMaxLen e < f.bytes.length + 4 ∨
      (64 ≤ f.bytes.length + 4 ∧ f.bytes.length + 4 ≤ s.enMaxLen e ∧
        frame16 f.bytes (etherTypeAt f.bytes) ≠ 0x8808 ∧ s.enAccepts e f.bytes = true ∧
        s.reg (EN_RX_HEAD e) = s.reg (EN_RX_TAIL e))) :
    ∃ t, exec (.rxFrame e f) s = .next t ∧ t.reg (EN_CNT e 0) = satInc (s.reg (EN_CNT e 0)) ∧
      Reported s t 0x05C1 (BitVec.ofNat 8 e) 0 ∧ Frame s t [EN_CNT e 0] [] := by
  refine ⟨s.enDiscard e, ?_, enDiscard_shows s e⟩
  rw [rxFrame_eq f on]
  by_cases broken : (!f.fcsOk || decide (f.bytes.length + 4 < 64) || decide (s.enMaxLen e < f.bytes.length + 4)) = true
  · rw [if_pos broken]
  · rcases bad with h | h | h | ⟨-, -, type, accepts, full⟩
    · exact absurd (by rw [h]; rfl) broken
    · exact absurd (by rw [decide_eq_true h]; simp) broken
    · exact absurd (by rw [decide_eq_true h]; simp) broken
    · rw [if_neg broken, if_neg type, accepts, if_neg (by decide), if_pos full]

theorem rxFrame_pause {s : State} {e : Fin 2} {f : RxFrame} (on : s.bit (EN_CFG e) EN_CFG_EN = true) (fcs : f.fcsOk = true)
    (lo : 64 ≤ f.bytes.length + 4) (hi : f.bytes.length + 4 ≤ s.enMaxLen e) (type : frame16 f.bytes (etherTypeAt f.bytes) = 0x8808) :
    ∃ t, exec (.rxFrame e f) s = .next t ∧ t = { s with regs := t.regs } ∧
      RegsBut s t [EN_CNT e 3] ∧ t.reg (EN_CNT e 3) = satInc (s.reg (EN_CNT e 3)) := by
  refine ⟨s.count (EN_CNT e 3), ?_, rfl, (RegsBut.refl s _).count (by simp), reg_setReg_same _ _ _⟩
  rw [rxFrame_eq f on, frame_whole fcs lo hi, if_neg Bool.false_ne_true, if_pos type]

theorem rxFrame_filtered {s : State} {e : Fin 2} {f : RxFrame} (on : s.bit (EN_CFG e) EN_CFG_EN = true) (fcs : f.fcsOk = true)
    (lo : 64 ≤ f.bytes.length + 4) (hi : f.bytes.length + 4 ≤ s.enMaxLen e) (type : frame16 f.bytes (etherTypeAt f.bytes) ≠ 0x8808)
    (other : s.enAccepts e f.bytes = false) : exec (.rxFrame e f) s = .next s := by
  rw [rxFrame_eq f on, frame_whole fcs lo hi, if_neg Bool.false_ne_true, if_neg type, other, if_pos (by decide)]

end Sys2Proof.Machine

namespace Sys2Proof.Machine

/-! ### A frame taken into the ring (R395, R398) -/

theorem patch_length (bs : List Byte) (o : Nat) (new : List Byte) (h : o + new.length ≤ bs.length) : (patch bs o new).length = bs.length := by
  unfold patch
  rw [List.length_append, List.length_append, List.length_take, List.length_drop]
  omega

theorem patch_getD_in {bs new : List Byte} {o i : Nat} (h : o ≤ bs.length) (lo : o ≤ i) (hi : i < o + new.length) :
    (patch bs o new).getD i 0 = new.getD (i - o) 0 := by
  have len : (bs.take o).length = o := by rw [List.length_take]; omega
  unfold patch
  rw [List.getD_append _ _ _ _ (by rw [List.length_append, len]; omega), List.getD_append_right _ _ _ _ (by rw [len]; exact lo), len]

theorem patch_getD_out {bs new : List Byte} {o i : Nat} (h : o + new.length ≤ bs.length) (out : i < o) :
    (patch bs o new).getD i 0 = bs.getD i 0 := by
  have len : (bs.take o).length = o := by rw [List.length_take]; omega
  unfold patch
  rw [List.append_assoc, List.getD_append _ _ _ _ (by rw [len]; exact out)]
  simp only [List.getD_eq_getElem?_getD, List.getElem?_take, if_pos out]

theorem loadBytes_take (s : State) (a n k : Nat) (h : k ≤ n) : (s.loadBytes a n).take k = s.loadBytes a k := by
  have both := memRead_drop_take s.mem a (n := n) (i := 0) (j := k) (by omega)
  rw [List.drop_zero] at both
  exact both

theorem loadBytes_getD (s : State) (a n i : Nat) (h : i < n) : (s.loadBytes a n).getD i 0 = memByte s.mem (a + i) := by
  have len : i < (s.loadBytes a n).length := by rw [loadBytes_length]; exact h
  rw [List.getD_eq_getElem _ _ len]
  exact memRead_getElem _ _ _ _ len

theorem loadBytes_eq {s : State} {a : Nat} {bs : List Byte} (h : ∀ i < bs.length, memByte s.mem (a + i) = bs.getD i 0) :
    s.loadBytes a bs.length = bs := by
  refine List.ext_getElem (loadBytes_length _ _ _) fun i h1 h2 => ?_
  rw [← List.getD_eq_getElem _ 0 h1, loadBytes_getD _ _ _ _ h2, h i h2, List.getD_eq_getElem]

/-- The index of a ring moved on, and the record of a PTP event. -/
def State.enMoved (s : State) (e head : Nat) (next : Word) (ixField phField : Fld) (ix phase k : Nat) (event : Bool) : State :=
  (s.setReg head next).enMark e ixField phField ix phase k event

theorem enMoved_shows (s : State) (e : Fin 2) {head : Nat} (hhead : head = EN_RX_HEAD e ∨ head = EN_TX_HEAD e) (next : Word)
    {ixField phField : Fld} (ix phase k : Nat) (event : Bool) (hk : k < 8)
    (apart : ixField.lo + ixField.w ≤ phField.lo) (fits : phField.lo + phField.w ≤ 32) {t : State}
    (ht : s.enMoved e head next ixField phField ix phase k event = t) :
    Frame s t [head, EN_TSI e, EN_CNT e 1] [BLK_EN] ∧ t.reg head = next ∧
    (event = false → t.reg (EN_TSI e) = s.reg (EN_TSI e) ∧ t.reg (EN_CNT e 1) = s.reg (EN_CNT e 1)) ∧
    (event = true → s.rbit EN_EVT (8 * e + k) = false →
      EventSet t BLK_EN (8 * e + k) ∧ t.fld (EN_TSI e) ixField = ix % 2 ^ ixField.w ∧ t.fld (EN_TSI e) phField = phase % 2 ^ phField.w) ∧
    (event = true → s.rbit EN_EVT (8 * e + k) = true → t.reg (EN_CNT e 1) = satInc (s.reg (EN_CNT e 1))) := by
  have low : 0x1701000 ≤ head := by rcases hhead with rfl | rfl <;> simp only [EN_RX_HEAD, EN_TX_HEAD] <;> omega
  have tsi : EN_TSI e ≠ head := by rcases hhead with rfl | rfl <;> simp only [EN_RX_HEAD, EN_TX_HEAD, EN_TSI] <;> omega
  have cnt : EN_CNT e 1 ≠ head := by rcases hhead with rfl | rfl <;> simp only [EN_RX_HEAD, EN_TX_HEAD, EN_CNT] <;> omega
  obtain ⟨u, hu⟩ : ∃ u, s.setReg head next = u := ⟨_, rfl⟩
  have same : ∀ off, off ≠ head → u.reg off = s.reg off := fun off ho => hu ▸ reg_setReg_other _ _ _ _ ho
  have bit : u.rbit EN_EVT (8 * e + k) = s.rbit EN_EVT (8 * e + k) := rbit_of_reg _ (same _ (by unfold EN_EVT; omega))
  have eq : u.enMark e ixField phField ix phase k event = t := by rw [← hu]; exact ht
  obtain ⟨frame, quiet, stamped, missed⟩ := eq ▸ enMark_shows u e (ixField := ixField) (phField := phField) ix phase k event hk apart fits
  have first : Frame s u [head, EN_TSI e, EN_CNT e 1] [BLK_EN] := hu ▸ (Frame.refl s _ _).setReg (by simp)
  rw [bit, same _ cnt] at missed
  rw [bit] at stamped
  refine ⟨first.trans (frame.mono (by simp) (List.Subset.refl _)), ?_, fun none_ => ?_, stamped, missed⟩
  · rw [frame.reg (by simp [tsi.symm, cnt.symm]) (enNotReport low), ← hu, reg_setReg_same]
  · rw [quiet none_]
    exact ⟨same _ tsi, same _ cnt⟩

/-- The port after a frame has been taken into its ring. -/
def State.enReceived (s : State) (e : Fin 2) (ix phase : Nat) (event : Bool) : State :=
  (s.enMoved e (EN_RX_HEAD e) (BitVec.ofNat 32 (ringNext (s.reg (EN_RX_CNT e)).toNat ix)) EN_TSI_RXIDX EN_TSI_RXPH ix phase 2 event).setEvt
    BLK_EN (enEvt e 0)

theorem enReceive_eq (s : State) (e : Fin 2) (f : RxFrame) {ix d buf size : Nat} {db : List Byte} {s1 s2 s3 : State}
    (hix : (s.reg (EN_RX_HEAD e)).toNat = ix) (hd : s.enDesc (EN_RX_BASE e) ix = d) (hdb : (s.memLoad (.en e) d 16).1 = db)
    (h1 : (s.memLoad (.en e) d 16).2 = s1) (hbuf : SRAM_BASE + leNat (db.take 4) = buf) (hsize : leNat ((db.drop 4).take 2) = size)
    (h2 : s1.memSave (.en e) buf (f.bytes.take size) = s2) {flags : Nat}
    (hflags : (db.getD 8 0).toNat % 4 + 4 * b2n (ptpEvent f.bytes && !s2.rbit EN_EVT (enEvt e 2)) +
      8 * b2n (ptpEvent f.bytes && !(ptpEvent f.bytes && !s2.rbit EN_EVT (enEvt e 2))) + 32 * b2n (size < f.bytes.length) = flags)
    (h3 : s2.memSave (.en e) d (patch (patch db 4 (leBytes 2 f.bytes.length)) 8 [BitVec.ofNat 8 flags]) = s3)
    (rbit : s3.rbit EN_EVT (enEvt e 2) = s2.rbit EN_EVT (enEvt e 2)) :
    s.enReceive e f = s3.enReceived e ix f.phase.toNat (ptpEvent f.bytes) := by
  have mark : ∀ v, (s3.setReg (EN_RX_HEAD e) v).rbit EN_EVT (enEvt e 2) = s2.rbit EN_EVT (enEvt e 2) := fun v => by
    rw [rbit_of_reg _ (reg_setReg_other _ _ _ _ (by unfold EN_EVT EN_RX_HEAD; omega)), rbit]
  unfold State.enReceive State.enReceived State.enMoved State.enMark
  dsimp only
  rw [hix, hd, hdb, h1, hbuf, hsize, h2, hflags, h3]
  simp only [mark]
  rfl

/-- A descriptor and its buffer as a port has written them: bytes in the buffer, and the descriptor's. -/
theorem buffers_saved {s s1 s2 s3 : State} {m : Master} {d buf : Nat} {bs desc : List Byte} (h1 : Frame s s1 [] [])
    (perm : s.permitsAll m buf bs.length true = true) (permD : s.permitsAll m d desc.length true = true)
    (plain : plainSram s buf bs.length) (plainD : plainSram s d desc.length)
    (apart : buf + bs.length ≤ d ∨ d + desc.length ≤ buf) (h2 : s1.memSave m buf bs = s2) (h3 : s2.memSave m d desc = s3) :
    s3.loadBytes buf bs.length = bs ∧ s3.loadBytes d desc.length = desc ∧
    (∀ x, (x < buf ∨ buf + bs.length ≤ x) → (x < d ∨ d + desc.length ≤ x) → memByte s3.mem x = memByte s.mem x) ∧
    s2.regs = s1.regs ∧ MemOnly s1 s3 := by
  have prot1 : SameProt s s1 := SameProt.of_frame h1
  obtain ⟨only2, bytes2⟩ := h2 ▸ memSave_plain (s := s1) (m := m) (a := buf) (bs := bs)
    (by rw [prot1.permitsAll]; exact perm) (plainSram_congr plain)
  have prot2 : SameProt s s2 := prot1.trans (SameProt.of_mem only2)
  obtain ⟨only3, bytes3⟩ := h3 ▸ memSave_plain (s := s2) (m := m) (a := d) (bs := desc)
    (by rw [prot2.permitsAll]; exact permD) (plainSram_congr plainD)
  refine ⟨loadBytes_eq fun i hi => ?_, loadBytes_eq fun i hi => ?_, fun x hb hd => ?_, only2.regs, only2.trans only3⟩
  · rw [bytes3, if_neg (by omega), bytes2, if_pos (by omega), Nat.add_sub_cancel_left]
  · rw [bytes3, if_pos (by omega), Nat.add_sub_cancel_left]
  · rw [bytes3, if_neg (by omega), bytes2, if_neg (by omega), h1.1.mem]

theorem rxFrame_received {s : State} {e : Fin 2} {f : RxFrame} (on : s.bit (EN_CFG e) EN_CFG_EN = true) (fcs : f.fcsOk = true)
    (lo : 64 ≤ f.bytes.length + 4) (hi : f.bytes.length + 4 ≤ s.enMaxLen e) (type : frame16 f.bytes (etherTypeAt f.bytes) ≠ 0x8808)
    (accepts : s.enAccepts e f.bytes = true) (room : s.reg (EN_RX_HEAD e) ≠ s.reg (EN_RX_TAIL e)) {ix d buf n : Nat}
    (hix : (s.reg (EN_RX_HEAD e)).toNat = ix) (hd : s.enDesc (EN_RX_BASE e) ix = d) (hbuf : SRAM_BASE + s.loadNat d 4 = buf)
    (hn : min (s.loadNat (d + 4) 2) f.bytes.length = n) (permD : ∀ w, s.permitsAll (.en e) d 16 w = true)
    (perm : s.permitsAll (.en e) buf n true = true) (plainD : plainSram s d 16) (plain : plainSram s buf n)
    (apart : buf + n ≤ d ∨ d + 16 ≤ buf) :
    ∃ t, exec (.rxFrame e f) s = .next t ∧ t.loadBytes buf n = f.bytes.take n ∧
      t.loadNat (d + 4) 2 = f.bytes.length ∧
      t.reg (EN_RX_HEAD e) = BitVec.ofNat 32 (ringNext (s.reg (EN_RX_CNT e)).toNat ix) ∧
      EventSet t BLK_EN (8 * e) ∧
      (∀ x, (x < buf ∨ buf + n ≤ x) → (x < d ∨ d + 16 ≤ x) → memByte t.mem x = memByte s.mem x) ∧
      Frame { s with mem := t.mem, poison := t.poison } t [EN_RX_HEAD e, EN_TSI e, EN_CNT e 1] [BLK_EN] ∧
      (ptpEvent f.bytes = false → t.reg (EN_TSI e) = s.reg (EN_TSI e) ∧ t.reg (EN_CNT e 1) = s.reg (EN_CNT e 1)) ∧
      (ptpEvent f.bytes = true → s.rbit EN_EVT (8 * e + 2) = false → EventSet t BLK_EN (8 * e + 2) ∧
        t.fld (EN_TSI e) EN_TSI_RXIDX = ix % 2 ^ EN_TSI_RXIDX.w ∧ t.fld (EN_TSI e) EN_TSI_RXPH = f.phase.toNat) ∧
      (ptpEvent f.bytes = true → s.rbit EN_EVT (8 * e + 2) = true → t.reg (EN_CNT e 1) = satInc (s.reg (EN_CNT e 1))) := by
  obtain ⟨db, hdb⟩ : ∃ db, s.loadBytes d 16 = db := ⟨_, rfl⟩
  have dbLen : db.length = 16 := by rw [← hdb, loadBytes_length]
  obtain ⟨loaded, frame1⟩ := memLoad_plain (permD false) plainD
  rw [hdb] at loaded
  obtain ⟨s1, h1⟩ : ∃ s1, (s.memLoad (.en e) d 16).2 = s1 := ⟨_, rfl⟩
  rw [h1] at frame1
  obtain ⟨size, hsize⟩ : ∃ size, leNat ((db.drop 4).take 2) = size := ⟨_, rfl⟩
  have bufOf : SRAM_BASE + leNat (db.take 4) = buf := by
    rw [← hdb, loadBytes_take _ _ _ _ (by decide)]
    exact hbuf
  have sizeOf : s.loadNat (d + 4) 2 = size := by
    rw [← hsize, ← hdb]
    exact congrArg leNat (memRead_drop_take s.mem d (n := 16) (i := 4) (j := 2) (by decide)).symm
  have takeLen : (f.bytes.take size).length = n := by rw [List.length_take, ← sizeOf]; exact hn
  have takeEq : f.bytes.take size = f.bytes.take n := by
    rw [← hn, sizeOf]
    rcases Nat.le_total size f.bytes.length with h | h
    · rw [Nat.min_eq_left h]
    · rw [Nat.min_eq_right h, List.take_of_length_le h, List.take_length]
  obtain ⟨s2, h2⟩ : ∃ s2, s1.memSave (.en e) buf (f.bytes.take size) = s2 := ⟨_, rfl⟩
  obtain ⟨flags, hflags⟩ : ∃ flags, (db.getD 8 0).toNat % 4 + 4 * b2n (ptpEvent f.bytes && !s2.rbit EN_EVT (enEvt e 2)) +
      8 * b2n (ptpEvent f.bytes && !(ptpEvent f.bytes && !s2.rbit EN_EVT (enEvt e 2))) + 32 * b2n (size < f.bytes.length) = flags := ⟨_, rfl⟩
  obtain ⟨desc, hdesc⟩ : ∃ desc, patch (patch db 4 (leBytes 2 f.bytes.length)) 8 [BitVec.ofNat 8 flags] = desc := ⟨_, rfl⟩
  have innerLen : (patch db 4 (leBytes 2 f.bytes.length)).length = 16 := by
    rw [patch_length _ _ _ (by rw [leBytes_length, dbLen]; decide), dbLen]
  have descLen : desc.length = 16 := by
    rw [← hdesc, patch_length _ _ _ (by rw [innerLen]; simp), innerLen]
  obtain ⟨s3, h3⟩ : ∃ s3, s2.memSave (.en e) d desc = s3 := ⟨_, rfl⟩
  obtain ⟨bufBytes, descBytes, rest, regs2, only3⟩ := buffers_saved frame1 (by rw [takeLen]; exact perm) (by rw [descLen]; exact permD true)
    (by rw [takeLen]; exact plain) (by rw [descLen]; exact plainD) (by rw [takeLen, descLen]; exact apart) h2 h3
  rw [takeLen] at bufBytes rest
  rw [descLen] at descBytes rest
  have reg3 : ∀ off, s3.reg off = s1.reg off := reg_of_regs only3.regs
  have reg1 : ∀ off, off ∉ reportRegs [] → s3.reg off = s.reg off := fun off ho => (reg3 off).trans (frame1.reg (by simp) ho)
  have high : ∀ off, 0x1700020 ≤ off → s3.reg off = s.reg off := fun off ho => reg1 off (notMem_reportRegs_nil (by omega))
  have eq : s.enReceive e f = s3.enReceived e ix f.phase.toNat (ptpEvent f.bytes) :=
    enReceive_eq s e f hix hd loaded h1 bufOf hsize h2 hflags (by rw [hdesc]; exact h3)
      (rbit_of_reg _ ((reg3 _).trans (reg_of_regs regs2 _).symm))
  obtain ⟨u, hu⟩ : ∃ u, s3.enMoved e (EN_RX_HEAD e) (BitVec.ofNat 32 (ringNext (s3.reg (EN_RX_CNT e)).toNat ix)) EN_TSI_RXIDX EN_TSI_RXPH ix
      f.phase.toNat 2 (ptpEvent f.bytes) = u := ⟨_, rfl⟩
  obtain ⟨frameU, head, quiet, stamped, missed⟩ := enMoved_shows s3 e (.inl rfl) _ ix f.phase.toNat 2 (ptpEvent f.bytes) (by decide)
    (by decide) (by decide) hu
  have run : exec (.rxFrame e f) s = .next (u.setEvt BLK_EN (8 * e)) := by
    rw [rxFrame_eq f on, frame_whole fcs lo hi, if_neg Bool.false_ne_true, if_neg type, accepts, if_neg (by decide), if_neg room, eq, ← hu]
    rfl
  have reg : ∀ off, 0x1701000 ≤ off → (u.setEvt BLK_EN (8 * e)).reg off = u.reg off := fun off ho =>
    reg_setEvt_of_notMem _ _ _ _ (enNotReport ho)
  have mem : (u.setEvt BLK_EN (8 * e)).mem = s3.mem := (setEvt_quiet _ _ _).mem.trans frameU.1.mem
  have poison : (u.setEvt BLK_EN (8 * e)).poison = s3.poison := (setEvt_quiet _ _ _).poison.trans frameU.1.poison
  have tsiLow : 0x1701000 ≤ EN_TSI e := by unfold EN_TSI; omega
  have cntLow : 0x1701000 ≤ EN_CNT e 1 := by unfold EN_CNT; omega
  rw [rbit_of_reg _ (high _ (by decide)), high _ (by omega)] at missed
  rw [rbit_of_reg _ (high _ (by decide))] at stamped
  refine ⟨_, run, ?_, ?_, ?_, setEvt_eventSet _ _ _ (by omega), fun x hb hx => ?_, ?_, fun none_ => ?_, fun ptp free => ?_, fun ptp stands => ?_⟩
  · unfold State.loadBytes
    rw [mem]
    exact bufBytes.trans takeEq
  · have small : f.bytes.length < 256 ^ 2 := by unfold State.enMaxLen at hi; omega
    have bytes : ((s3.loadBytes d 16).drop 4).take 2 = leBytes 2 f.bytes.length := by
      rw [descBytes, ← hdesc]
      refine List.ext_getElem (by simp [patch_length, innerLen]) fun i h1 h2 => ?_
      rw [leBytes_length] at h2
      rw [List.getElem_take, List.getElem_drop, ← List.getD_eq_getElem _ 0, patch_getD_out (by rw [innerLen]; simp) (by omega),
        patch_getD_in (by rw [dbLen]; decide) (by omega) (by rw [leBytes_length]; omega), Nat.add_sub_cancel_left, List.getD_eq_getElem]
    unfold State.loadNat State.loadBytes
    rw [mem, ← memRead_drop_take s3.mem d (n := 16) (i := 4) (j := 2) (by decide)]
    exact (congrArg leNat bytes).trans ((leNat_leBytes _ _).trans (Nat.mod_eq_of_lt small))
  · rw [reg _ (by unfold EN_RX_HEAD; omega), head, high _ (by unfold EN_RX_CNT; omega)]
  · rw [mem]
    exact rest x hb hx
  · rw [mem, poison]
    exact ((frame1.of_memOnly only3).mono (by simp) (by simp)).trans (frameU.setEvt (by simp))
  · obtain ⟨tsi, cnt⟩ := quiet none_
    rw [reg _ tsiLow, reg _ cntLow, tsi, cnt]
    exact ⟨high _ (by omega), high _ (by omega)⟩
  · obtain ⟨evt, index, phase⟩ := stamped ptp free
    refine ⟨evt.setEvt _ _, (fld_of_reg _ (reg _ tsiLow)).trans index, (fld_of_reg _ (reg _ tsiLow)).trans (phase.trans ?_)⟩
    exact Nat.mod_eq_of_lt f.phase.isLt
  · rw [reg _ cntLow]
    exact missed ptp stands

end Sys2Proof.Machine

namespace Sys2Proof.Machine

/-! ### A frame sent from the ring (R395, R397, R398) -/

/-- Whether a descriptor's frame is a Sync message that takes its departure time. -/
def txSync (bs : List Byte) (o : Nat) : Bool := (bs.getD o 0).toNat % 16 == 0 && !(bs.getD (o + 6) 0).getLsbD 1

/-- The frame that leaves. -/
def State.txOut (s : State) (e : Nat) (flags : Byte) (bs : List Byte) (o : Nat) : List Byte :=
  if (flags.getLsbD 0 && txSync bs o) = true then insertSync bs o (flags.getLsbD 1) (s.enDeparture e) else bs

/-- The port after a frame has left from its ring. -/
def State.enSent (s : State) (e : Fin 2) (ix phase : Nat) (stamp noins : Bool) : State :=
  let u := s.enMoved e (EN_TX_HEAD e) (BitVec.ofNat 32 (ringNext (s.reg (EN_TX_CNT e)).toNat ix)) EN_TSI_TXIDX EN_TSI_TXPH ix phase 3 stamp
  (if noins = true then u.count (EN_CNT e 2) else u).setEvt BLK_EN (enEvt e 1)

theorem txFrame_eq {s : State} {e : Fin 2} {phase : BitVec 4} (on : s.bit (EN_CFG e) EN_CFG_EN = true)
    (ready : s.reg (EN_TX_HEAD e) ≠ s.reg (EN_TX_TAIL e)) {ix d : Nat} {db bs : List Byte} {s1 s2 s3 s4 : State} {flags : Byte} {o : Nat}
    (hix : (s.reg (EN_TX_HEAD e)).toNat = ix) (hd : s.enDesc (EN_TX_BASE e) ix = d)
    (h1 : s.memLoad (.en e) d 16 = (db, s1))
    (h2 : s1.memLoad (.en e) (SRAM_BASE + leNat (db.take 4)) (leNat ((db.drop 4).take 2)) = (bs, s2))
    (ho : leNat ((db.drop 6).take 2) = o) (hflags : db.getD 8 0 = flags)
    (h3 : { s2 with en := { s2.en with sent := s2.en.sent.set [] e (s2.txOut e flags bs o ++ fcs (s2.txOut e flags bs o)) } } = s3)
    (h4 : s3.memSave (.en e) d (patch db 8 [BitVec.ofNat 8 (flags.toNat % 8 +
      8 * b2n (flags.getLsbD 2 && !(flags.getLsbD 2 && !s2.rbit EN_EVT (enEvt e 3))) + 16 * b2n (flags.getLsbD 0 && !txSync bs o))]) = s4)
    (rbit : s4.rbit EN_EVT (enEvt e 3) = s2.rbit EN_EVT (enEvt e 3)) :
    exec (.txFrame e phase) s = .next (s4.enSent e ix phase.toNat (flags.getLsbD 2) (flags.getLsbD 0 && !txSync bs o)) := by
  have mark : ∀ v, (s4.setReg (EN_TX_HEAD e) v).rbit EN_EVT (enEvt e 3) = s2.rbit EN_EVT (enEvt e 3) := fun v => by
    rw [rbit_of_reg _ (reg_setReg_other _ _ _ _ (by unfold EN_EVT EN_TX_HEAD; omega)), rbit]
  have go : ¬ (!s.bit (EN_CFG e) EN_CFG_EN || s.reg (EN_TX_HEAD e) == s.reg (EN_TX_TAIL e)) = true := by
    rw [on]
    simpa using ready
  unfold State.enSent State.enMoved State.enMark
  simp only [mark]
  rw [← h4, ← h3]
  change execTxFrame e phase s = _
  unfold execTxFrame
  dsimp only
  rw [if_neg go, hix, hd, h1]
  dsimp only
  rw [h2]
  dsimp only
  rw [ho, hflags]
  rfl

theorem enSent_shows (s : State) (e : Fin 2) (ix phase : Nat) (stamp noins : Bool) {t : State} (ht : s.enSent e ix phase stamp noins = t) :
    Frame s t [EN_TX_HEAD e, EN_TSI e, EN_CNT e 1, EN_CNT e 2] [BLK_EN] ∧
    t.reg (EN_TX_HEAD e) = BitVec.ofNat 32 (ringNext (s.reg (EN_TX_CNT e)).toNat ix) ∧
    EventSet t BLK_EN (8 * e + 1) ∧
    (stamp = false → t.reg (EN_TSI e) = s.reg (EN_TSI e)) ∧
    (stamp = true → s.rbit EN_EVT (8 * e + 3) = false → EventSet t BLK_EN (8 * e + 3) ∧
      t.fld (EN_TSI e) EN_TSI_TXIDX = ix % 2 ^ EN_TSI_TXIDX.w ∧ t.fld (EN_TSI e) EN_TSI_TXPH = phase % 2 ^ EN_TSI_TXPH.w) ∧
    t.reg (EN_CNT e 2) = (if noins = true then satInc (s.reg (EN_CNT e 2)) else s.reg (EN_CNT e 2)) := by
  obtain ⟨u, hu⟩ : ∃ u, s.enMoved e (EN_TX_HEAD e) (BitVec.ofNat 32 (ringNext (s.reg (EN_TX_CNT e)).toNat ix)) EN_TSI_TXIDX EN_TSI_TXPH ix
      phase 3 stamp = u := ⟨_, rfl⟩
  obtain ⟨frameU, head, quiet, stamped, -⟩ := enMoved_shows s e (.inr rfl) _ ix phase 3 stamp (by decide) (by decide) (by decide) hu
  obtain ⟨w, hw⟩ : ∃ w, (if noins = true then u.count (EN_CNT e 2) else u) = w := ⟨_, rfl⟩
  have eq : w.setEvt BLK_EN (8 * e + 1) = t := by
    rw [← ht, ← hw, ← hu]
    rfl
  have cntApart : EN_CNT e 2 ∉ [EN_TX_HEAD e, EN_TSI e, EN_CNT e 1] := by
    simp only [List.mem_cons, List.not_mem_nil, or_false, EN_CNT, EN_TX_HEAD, EN_TSI]
    omega
  have same : ∀ off, off ≠ EN_CNT e 2 → w.reg off = u.reg off := fun off ho => by
    rw [← hw]
    split
    · exact reg_setReg_other _ _ _ _ ho
    · rfl
  have events : ∀ k, EventSet u BLK_EN k → EventSet w BLK_EN k := fun k h => h.of_reg (same _ (by
    change 0x1700020 ≠ _
    unfold EN_CNT
    omega))
  have frameW : Frame s w [EN_TX_HEAD e, EN_TSI e, EN_CNT e 1, EN_CNT e 2] [BLK_EN] := by
    have wide := frameU.mono (l' := [EN_TX_HEAD e, EN_TSI e, EN_CNT e 1, EN_CNT e 2]) (by simp) (List.Subset.refl _)
    rw [← hw]
    split
    · exact wide.count (by simp)
    · exact wide
  have reg : ∀ off, 0x1701000 ≤ off → t.reg off = w.reg off := fun off ho => eq ▸ reg_setEvt_of_notMem _ _ _ _ (enNotReport ho)
  have tsi : t.reg (EN_TSI e) = u.reg (EN_TSI e) :=
    (reg _ (by unfold EN_TSI; omega)).trans (same _ (by unfold EN_TSI EN_CNT; omega))
  refine ⟨eq ▸ frameW.setEvt (by simp), ?_, eq ▸ setEvt_eventSet _ _ _ (by omega), fun none_ => tsi.trans (quiet none_).1, fun st free => ?_, ?_⟩
  · rw [reg _ (by unfold EN_TX_HEAD; omega), same _ (by unfold EN_TX_HEAD EN_CNT; omega), head]
  · obtain ⟨evt, index, ph⟩ := stamped st free
    exact ⟨eq ▸ (events _ evt).setEvt _ _, (fld_of_reg _ tsi).trans index, (fld_of_reg _ tsi).trans ph⟩
  · have before : u.reg (EN_CNT e 2) = s.reg (EN_CNT e 2) := frameU.reg cntApart (enNotReport (by unfold EN_CNT; omega))
    rw [reg _ (by unfold EN_CNT; omega), ← hw]
    split
    · rw [← before]
      exact reg_setReg_same _ _ _
    · exact before

theorem frame_with_en {s t : State} {l blks : List Nat} (h : Frame s t l blks) (x : EnSt) :
    Frame { s with en := x } { t with en := x } l blks := by
  obtain ⟨quiet, regs⟩ := h
  have lifted := congrArg (fun z : State => { z with en := x }) quiet
  exact ⟨lifted, regs⟩

theorem Frame.enDeparture {s t : State} (h : Frame s t [] []) (e : Fin 2) : t.enDeparture e = s.enDeparture e := by
  have high : ∀ off, 0x1701000 ≤ off → t.reg off = s.reg off := fun off ho => h.reg (by simp) (notMem_reportRegs_nil (by omega))
  unfold State.enDeparture State.enTxLat
  rw [h.1.tb, fld_of_reg _ (high (EN_CFG e) (by unfold EN_CFG; omega)), high (EN_TXADJ e) (by unfold EN_TXADJ; omega)]

theorem txFrame_leaves {s : State} {e : Fin 2} (phase : BitVec 4) (on : s.bit (EN_CFG e) EN_CFG_EN = true)
    (ready : s.reg (EN_TX_HEAD e) ≠ s.reg (EN_TX_TAIL e)) {ix d buf n : Nat} {flags : Byte} {bs out : List Byte} {o : Nat}
    (hix : (s.reg (EN_TX_HEAD e)).toNat = ix) (hd : s.enDesc (EN_TX_BASE e) ix = d) (hbuf : SRAM_BASE + s.loadNat d 4 = buf)
    (hn : s.loadNat (d + 4) 2 = n) (permD : ∀ w, s.permitsAll (.en e) d 16 w = true) (perm : s.permitsAll (.en e) buf n false = true)
    (plainD : plainSram s d 16) (plain : plainSram s buf n) (hflags : memByte s.mem (d + 8) = flags) (hbs : s.loadBytes buf n = bs)
    (ho : s.loadNat (d + 6) 2 = o) (hout : s.txOut e flags bs o = out) :
    ∃ t, exec (.txFrame e phase) s = .next t ∧ t.en.sent.get [] e = out ++ fcs out ∧
      (flags.getLsbD 2 = true → s.rbit EN_EVT (8 * e + 3) = false → EventSet t BLK_EN (8 * e + 3) ∧
        t.fld (EN_TSI e) EN_TSI_TXIDX = ix % 2 ^ EN_TSI_TXIDX.w ∧ t.fld (EN_TSI e) EN_TSI_TXPH = phase.toNat) ∧
      (flags.getLsbD 2 = false → t.reg (EN_TSI e) = s.reg (EN_TSI e)) ∧
      t.reg (EN_CNT e 2) = (if (flags.getLsbD 0 && !txSync bs o) = true then satInc (s.reg (EN_CNT e 2)) else s.reg (EN_CNT e 2)) ∧
      t.reg (EN_TX_HEAD e) = BitVec.ofNat 32 (ringNext (s.reg (EN_TX_CNT e)).toNat ix) ∧
      EventSet t BLK_EN (8 * e + 1) ∧ MemBut s t d 16 ∧
      Frame { s with mem := t.mem, poison := t.poison, en := t.en } t [EN_TX_HEAD e, EN_TSI e, EN_CNT e 1, EN_CNT e 2] [BLK_EN] := by
  obtain ⟨db, hdb⟩ : ∃ db, s.loadBytes d 16 = db := ⟨_, rfl⟩
  have dbLen : db.length = 16 := by rw [← hdb, loadBytes_length]
  obtain ⟨loaded, frame1⟩ := memLoad_plain (permD false) plainD
  rw [hdb] at loaded
  obtain ⟨s1, h1⟩ : ∃ s1, (s.memLoad (.en e) d 16).2 = s1 := ⟨_, rfl⟩
  rw [h1] at frame1
  have prot1 : SameProt s s1 := SameProt.of_frame frame1
  have bufOf : SRAM_BASE + leNat (db.take 4) = buf := by
    rw [← hdb, loadBytes_take _ _ _ _ (by decide)]
    exact hbuf
  have part : ∀ i, i + 2 ≤ 16 → leNat ((db.drop i).take 2) = s.loadNat (d + i) 2 := fun i hi => by
    rw [← hdb]
    exact congrArg leNat (memRead_drop_take s.mem d (n := 16) (i := i) (j := 2) hi)
  obtain ⟨loaded2, frame2⟩ := memLoad_plain (s := s1) (m := .en e) (a := buf) (n := n) (by rw [prot1.permitsAll]; exact perm) (plainSram_congr plain)
  have bsOf : s1.loadBytes buf n = bs := by
    rw [← hbs]
    unfold State.loadBytes
    rw [frame1.1.mem]
  rw [bsOf] at loaded2
  obtain ⟨s2, h2⟩ : ∃ s2, (s1.memLoad (.en e) buf n).2 = s2 := ⟨_, rfl⟩
  rw [h2] at frame2
  have frame02 : Frame s s2 [] [] := frame1.trans frame2
  have outOf : s2.txOut e flags bs o = out := by
    unfold State.txOut at hout ⊢
    rw [frame02.enDeparture e]
    exact hout
  have flagsOf : db.getD 8 0 = flags := by rw [← hdb, loadBytes_getD _ _ _ _ (by decide), hflags]
  obtain ⟨s3, h3⟩ : ∃ s3, { s2 with en := { s2.en with sent := s2.en.sent.set [] e (out ++ fcs out) } } = s3 := ⟨_, rfl⟩
  obtain ⟨desc, hdesc⟩ : ∃ desc, patch db 8 [BitVec.ofNat 8 (flags.toNat % 8 +
      8 * b2n (flags.getLsbD 2 && !(flags.getLsbD 2 && !s2.rbit EN_EVT (enEvt e 3))) + 16 * b2n (flags.getLsbD 0 && !txSync bs o))] = desc := ⟨_, rfl⟩
  have descLen : desc.length = 16 := by rw [← hdesc, patch_length _ _ _ (by rw [dbLen]; simp), dbLen]
  obtain ⟨s4, h4⟩ : ∃ s4, s3.memSave (.en e) d desc = s4 := ⟨_, rfl⟩
  have prot3 : SameProt s s3 := (SameProt.of_frame frame02).trans (h3 ▸ ⟨fun _ _ _ => rfl, fun _ => rfl⟩)
  obtain ⟨only4, bytes4⟩ := h4 ▸ memSave_plain (s := s3) (m := .en e) (a := d) (bs := desc)
    (by rw [prot3.permitsAll, descLen]; exact permD true) (by rw [descLen]; exact plainSram_congr plainD)
  rw [descLen] at bytes4
  have reg3 : ∀ off, s4.reg off = s2.reg off := fun off => (reg_of_regs only4.regs off).trans (by rw [← h3]; rfl)
  have high : ∀ off, 0x1700020 ≤ off → s4.reg off = s.reg off := fun off ho =>
    (reg3 off).trans (frame02.reg (by simp) (notMem_reportRegs_nil (by omega)))
  have run := txFrame_eq (phase := phase) on ready hix hd (s1 := s1) (db := db) (Prod.ext loaded h1) (bs := bs) (s2 := s2)
    (by rw [bufOf, part 4 (by decide), hn]; exact Prod.ext loaded2 h2) (o := o) (by rw [part 6 (by decide)]; exact ho) flagsOf
    (s3 := s3) (by rw [outOf]; exact h3) (by rw [hdesc]; exact h4) (rbit_of_reg _ (reg3 _))
  obtain ⟨t, ht⟩ : ∃ t, s4.enSent e ix phase.toNat (flags.getLsbD 2) (flags.getLsbD 0 && !txSync bs o) = t := ⟨_, rfl⟩
  rw [ht] at run
  obtain ⟨frame, head, evt, unstamped, stamped, cnt⟩ := enSent_shows s4 e ix phase.toNat _ _ ht
  have en4 : s4.en = s3.en := by
    unfold MemOnly at only4
    rw [only4]
  refine ⟨t, run, ?_, fun st free => ?_, fun none_ => (unstamped none_).trans (high _ (by unfold EN_TSI; omega)), ?_, ?_, evt, fun x hx => ?_, ?_⟩
  · rw [frame.1.en, en4, ← h3]
    exact Tbl.get_set_same _ _ _ _
  · obtain ⟨event, index, ph⟩ := stamped st (by rw [rbit_of_reg _ (high _ (by decide))]; exact free)
    exact ⟨event, index, ph.trans (Nat.mod_eq_of_lt phase.isLt)⟩
  · rw [cnt, high _ (by unfold EN_CNT; omega)]
  · rw [head, high _ (by unfold EN_TX_CNT; omega)]
  · rw [frame.1.mem, bytes4, if_neg (by omega), ← h3]
    change memByte s2.mem x = _
    rw [frame02.1.mem]
  · have sent : Frame { s with en := s3.en } s3 [] [] := h3 ▸ frame_with_en frame02 _
    have stored := sent.of_memOnly only4
    rw [frame.1.mem, frame.1.poison, frame.1.en, en4]
    exact (stored.mono (by simp) (by simp)).trans frame

/-! ### Tails and links (R394, R395) -/

theorem regDef_EN_RX_TAIL : ∀ e : Fin 2, ∃ d, regDef? (EN_RX_TAIL e) = some d ∧ d.rw = 0xFFFFFFFF ∧ d.rwl = 0 ∧ d.w1c = 0 := by decide

theorem regDef_EN_TX_TAIL : ∀ e : Fin 2, ∃ d, regDef? (EN_TX_TAIL e) = some d ∧ d.rw = 0xFFFFFFFF ∧ d.rwl = 0 ∧ d.w1c = 0 := by decide

theorem tail_written (s : State) (e : Fin 2) (tx : Bool) (v : Word) :
    ∃ t, exec (.tailWrite e tx v) s = .next t ∧ t.reg (if tx then EN_TX_TAIL e else EN_RX_TAIL e) = v ∧
      t = { s with regs := t.regs } ∧ RegsBut s t [if tx then EN_TX_TAIL e else EN_RX_TAIL e] := by
  obtain ⟨a, ha⟩ : ∃ a, (if tx then EN_TX_TAIL e else EN_RX_TAIL e) = a := ⟨_, rfl⟩
  have found : ∃ d, regDef? a = some d ∧ d.rw = 0xFFFFFFFF ∧ d.rwl = 0 ∧ d.w1c = 0 := by
    rw [← ha]
    cases tx with
    | false => exact regDef_EN_RX_TAIL e
    | true => exact regDef_EN_TX_TAIL e
  obtain ⟨d, hd, rw_, rwl, w1c⟩ := found
  have run : exec (.tailWrite e tx v) s = .next (s.setReg a v) := by
    change Host.Outcome.next (s.typedWrite _ v) = _
    rw [ha, typedWrite_plain s v hd rwl w1c, rw_]
    congr 2
    exact merged_allOnes _ _
  rw [ha]
  exact ⟨_, run, reg_setReg_same _ _ _, rfl, (RegsBut.refl s _).setReg (by simp)⟩

theorem link_shown {s : State} {e : Fin 2} {up : Bool} (change_ : s.bit (EN_STAT e) EN_STAT_LINK ≠ up) :
    ∃ t, exec (.link e up) s = .next t ∧ t.bit (EN_STAT e) EN_STAT_LINK = up ∧
      EventSet t BLK_EN (8 * e + 4) ∧ Frame s t [EN_STAT e] [BLK_EN] ∧
      (up = false → Reported s t 0x25C2 (BitVec.ofNat 8 e) 0) := by
  obtain ⟨u, hu⟩ : ∃ u, s.setFld (EN_STAT e) EN_STAT_LINK (b2n up) = u := ⟨_, rfl⟩
  have low : EN_STAT e ∉ reportRegs [BLK_EN] := enNotReport (by unfold EN_STAT; omega)
  have shown : (u.setEvt BLK_EN (8 * e + 4)).bit (EN_STAT e) EN_STAT_LINK = up := by
    rw [bit_of_reg _ (reg_setEvt_of_notMem _ _ _ _ low), ← hu]
    exact bit_setFld_same _ _ _ up rfl (by decide)
  have evt : EventSet (u.setEvt BLK_EN (8 * e + 4)) BLK_EN (8 * e + 4) := setEvt_eventSet _ _ _ (by omega)
  have first : Frame s u [EN_STAT e] [BLK_EN] := hu ▸ (Frame.refl _ _ _).setFld (by simp)
  have frame : Frame s (u.setEvt BLK_EN (8 * e + 4)) [EN_STAT e] [BLK_EN] := first.setEvt (by simp)
  have queues : (u.setEvt BLK_EN (8 * e + 4)).si.queues = s.si.queues := by rw [setEvt_si, ← hu]; rfl
  have run : exec (.link e up) s = .next (if s.bit (EN_STAT e) EN_STAT_LINK = true then (u.setEvt BLK_EN (8 * e + 4)).fault 0x25C2 e
      else u.setEvt BLK_EN (8 * e + 4)) := by
    rw [← hu]
    exact congrArg Host.Outcome.next (if_neg (by simpa using change_))
  cases was : s.bit (EN_STAT e) EN_STAT_LINK with
  | true =>
    rw [was, if_pos rfl] at run
    have down : up = false := by
      rw [was] at change_
      cases up with
      | false => rfl
      | true => exact absurd rfl change_
    refine ⟨_, run, ?_, evt.fault _ _ _, frame.fault, fun _ => fault_reportedFrom _ _ _ queues⟩
    rw [bit_of_reg _ (reg_fault _ _ _ _ _ fun h => low (reportRegs_mono (by simp) h))]
    exact shown
  | false =>
    rw [was, if_neg Bool.false_ne_true] at run
    exact ⟨_, run, shown, evt, frame, fun down => absurd (was.trans down.symm) change_⟩

/-- Settles O53: frames that are discarded, counted or filtered, a frame taken into the ring and one sent from it, the tails
and the link. -/
theorem framesPassTheRings : Obligations.FramesPassTheRings := by
  intro s e
  refine ⟨fun f on => ⟨rxFrame_discarded on, fun fcs lo hi => ⟨rxFrame_pause on fcs lo hi, rxFrame_filtered on fcs lo hi⟩,
    fun fcs lo hi type accepts room permD perm _ plainD plain apart =>
      rxFrame_received on fcs lo hi type accepts room rfl rfl rfl rfl permD perm plainD plain apart⟩,
    fun f off => congrArg Host.Outcome.next (if_pos (by rw [off]; rfl)), fun tx v => tail_written s e tx v, fun phase none_ => ?_,
    fun phase on ready permD perm _ plainD plain =>
      txFrame_leaves phase on ready rfl rfl rfl rfl permD perm plainD plain rfl rfl rfl rfl,
    fun up => ⟨fun same => congrArg Host.Outcome.next (if_pos (by rw [same]; exact beq_self_eq_true up)), link_shown⟩⟩
  refine congrArg Host.Outcome.next (if_pos ?_)
  rcases none_ with off | empty
  · rw [off]; rfl
  · rw [empty, beq_self_eq_true, Bool.or_true]

end Sys2Proof.Machine

/-!
O32: the lanes of the dose link, their bring-up and their failure.
-/

namespace Sys2Proof.Machine

/-! ### The lanes of the dose link -/

theorem laneAt_onLane (s : State) (n k : Nat) (f : LaneSt → LaneSt) :
    (s.onLane n f).laneAt k = if k = n then f (s.laneAt n) else s.laneAt k := Tbl.get_upd _ _ _ _ _

theorem laneAt_onLane_same (s : State) (n : Nat) (f : LaneSt → LaneSt) : (s.onLane n f).laneAt n = f (s.laneAt n) :=
  (laneAt_onLane _ _ _ _).trans (if_pos rfl)

theorem laneAt_onLane_other (s : State) {n k : Nat} (f : LaneSt → LaneSt) (h : k ≠ n) : (s.onLane n f).laneAt k = s.laneAt k :=
  (laneAt_onLane _ _ _ _).trans (if_neg h)

theorem hubAt_onHub (s : State) (k j : Nat) (f : HubSt → HubSt) :
    (s.onHub k f).hubAt j = if j = k then f (s.hubAt k) else s.hubAt j := Tbl.get_upd _ _ _ _ _

theorem hubAt_onHub_same (s : State) (k : Nat) (f : HubSt → HubSt) : (s.onHub k f).hubAt k = f (s.hubAt k) :=
  (hubAt_onHub _ _ _ _).trans (if_pos rfl)

theorem laneAt_of_lanes {s t : State} (h : t.dl.lanes = s.dl.lanes) (n : Nat) : t.laneAt n = s.laneAt n := by
  unfold State.laneAt
  rw [h]

theorem laneAt_of_dl {s t : State} (h : t.dl = s.dl) (n : Nat) : t.laneAt n = s.laneAt n := laneAt_of_lanes (congrArg _ h) n

theorem hubAt_of_dl {s t : State} (h : t.dl = s.dl) (n : Nat) : t.hubAt n = s.hubAt n := by
  unfold State.hubAt
  rw [h]

theorem partner_lt {n : Nat} (h : n < 32) : partner n < 32 := by
  unfold partner
  split <;> omega

theorem partner_ne (n : Nat) : partner n ≠ n := by
  unfold partner
  split <;> omega

theorem partner_hub (n : Nat) : partner n / 2 = n / 2 := by
  unfold partner
  split <;> omega

theorem partner_partner (n : Nat) : partner (partner n) = n := by
  unfold partner
  split
  · rw [if_neg (by omega)]; omega
  · rw [if_pos (by omega)]; omega

theorem readyLanes_of_pair {s : State} {n : Nat} (h : s.laneReady n = true) : n ∈ s.readyLanes (n / 2) := by
  unfold State.readyLanes
  rw [List.mem_filter]
  refine ⟨?_, h⟩
  rw [List.mem_cons, List.mem_singleton]
  omega

theorem laneStat_ne {n m : Nat} (h : n ≠ m) : DL_LANE_STAT n ≠ DL_LANE_STAT m := by
  unfold DL_LANE_STAT
  omega

/-- The registers of the link that no report changes. -/
theorem dlNotReport {off : Nat} (lo : 0xA00040 ≤ off) (hi : off < 0xB00000) : off ∉ reportRegs [BLK_DL] :=
  notMem_reportRegs_one (b := BLK_DL) 0xA00020 rfl (by omega)

theorem dlNotFault {off : Nat} (lo : 0xA00000 ≤ off) (hi : off < 0xB00000) : off ∉ reportRegs [] :=
  notMem_reportRegs_nil (by omega)

theorem laneStat_range (n : Fin 32) : 0xA00180 ≤ DL_LANE_STAT n ∧ DL_LANE_STAT n < 0xA00200 := by
  unfold DL_LANE_STAT
  omega

theorem laneStat_notReport (n : Fin 32) : DL_LANE_STAT n ∉ reportRegs [BLK_DL] :=
  dlNotReport (by have := laneStat_range n; omega) (by have := laneStat_range n; omega)

theorem laneStat_notFault (n : Fin 32) : DL_LANE_STAT n ∉ reportRegs [] :=
  dlNotFault (by have := laneStat_range n; omega) (by have := laneStat_range n; omega)

theorem laneState_of_reg {s t : State} {n : Nat} (h : t.reg (DL_LANE_STAT n) = s.reg (DL_LANE_STAT n)) : t.laneState n = s.laneState n :=
  fld_of_reg _ h

theorem laneLock_of_reg {s t : State} {n : Nat} (h : t.reg (DL_LANE_STAT n) = s.reg (DL_LANE_STAT n)) : t.laneLock n = s.laneLock n :=
  bit_of_reg _ h

theorem laneReady_of_reg {s t : State} {n : Nat} (h : t.reg (DL_LANE_STAT n) = s.reg (DL_LANE_STAT n)) : t.laneReady n = s.laneReady n := by
  unfold State.laneReady
  rw [laneState_of_reg h]

theorem laneReady_iff {s : State} {n : Nat} : s.laneReady n = true ↔ s.laneState n = 6 := beq_iff_eq

/-! ### What changes one lane alone -/

theorem laneOnly_refl (s : State) (n : Fin 32) : laneOnly s s n := ⟨rfl, RegsBut.refl _ _, fun _ _ => rfl⟩

theorem laneOnly_trans {s t u : State} {n : Fin 32} (h : laneOnly s t n) (k : laneOnly t u n) : laneOnly s u n := by
  obtain ⟨same, regs, rest⟩ := h
  obtain ⟨same', regs', rest'⟩ := k
  refine ⟨?_, regs.trans regs', fun m hm => (rest' m hm).trans (rest m hm)⟩
  rw [same', same]

theorem laneOnly_setFld {s t : State} {n : Fin 32} (h : laneOnly s t n) (f : Fld) (x : Nat) : laneOnly s (t.setFld (DL_LANE_STAT n) f x) n :=
  laneOnly_trans h ⟨rfl, (RegsBut.refl _ _).setFld (by simp), fun _ _ => rfl⟩

theorem laneOnly_onLane {s t : State} {n : Fin 32} (h : laneOnly s t n) (f : LaneSt → LaneSt) : laneOnly s (t.onLane n f) n :=
  laneOnly_trans h ⟨rfl, RegsBut.of_regs rfl _, fun _ hm => laneAt_onLane_other _ _ hm⟩

theorem laneOnly_lanePhase {s t : State} {n : Fin 32} (h : laneOnly s t n) (st : Nat) (ctl : List Nat) :
    laneOnly s (t.lanePhase n st ctl) n := laneOnly_onLane (laneOnly_setFld h _ _) _

/-- What else an operation that changes one lane alone leaves. -/
theorem laneOnly_now {s t : State} {n : Fin 32} (h : laneOnly s t n) : t.now = s.now := by rw [h.1]

theorem laneOnly_mem {s t : State} {n : Fin 32} (h : laneOnly s t n) : t.mem = s.mem := by rw [h.1]

theorem laneOnly_si {s t : State} {n : Fin 32} (h : laneOnly s t n) : t.si = s.si := by rw [h.1]

/-! ### A lane enters a phase -/

theorem lanePhase_state (s : State) (n : Nat) {st : Nat} (h : st < 8) (ctl : List Nat) : (s.lanePhase n st ctl).laneState n = st :=
  (fld_setFld_same s _ _ _ (by decide)).trans (Nat.mod_eq_of_lt h)

theorem lanePhase_lane (s : State) (n : Nat) (st : Nat) (ctl : List Nat) :
    (s.lanePhase n st ctl).laneAt n = { s.laneAt n with since := s.now, ctl := ctl } := laneAt_onLane_same _ _ _

theorem lanePhase_fld (s : State) (n st : Nat) (ctl : List Nat) {f : Fld} (h : 3 ≤ f.lo) :
    (s.lanePhase n st ctl).fld (DL_LANE_STAT n) f = s.fld (DL_LANE_STAT n) f := fld_setFld_field s _ _ _ _ (.inr h)

theorem lanePhase_lock (s : State) (n st : Nat) (ctl : List Nat) : (s.lanePhase n st ctl).laneLock n = s.laneLock n :=
  congrArg (· != 0) (lanePhase_fld s n st ctl (by decide))

/-- What the beginning of an attempt gives. -/
structure AttemptBegun (s t : State) (n : Fin 32) : Prop where
  only : laneOnly s t n
  state : t.laneState n = 1
  lock : t.laneLock n = false
  tries : t.fld (DL_LANE_STAT n) DL_LANE_STAT_TRIES = s.fld (DL_LANE_STAT n) DL_LANE_STAT_TRIES
  lane : t.laneAt n = { s.laneAt n with
    since := s.now, ctl := [idleBlock], align := false, caps := [], target := 0, txType := 0, tx := [] }

theorem laneAttempt_begins (s : State) (n : Fin 32) : AttemptBegun s (s.laneAttempt n) n := by
  obtain ⟨p, hp⟩ : ∃ p, s.lanePhase n 1 [idleBlock] = p := ⟨_, rfl⟩
  obtain ⟨q, hq⟩ : ∃ q, (p.setFld (DL_LANE_STAT n) DL_LANE_STAT_RATE 0).setFld (DL_LANE_STAT n) DL_LANE_STAT_LOCK 0 = q := ⟨_, rfl⟩
  have attempt : s.laneAttempt n = q.onLane n fun l => { l with align := false, caps := [], target := 0, txType := 0, tx := [] } := by
    rw [← hq, ← hp, State.laneAttempt]
  have field : ∀ f : Fld, f.lo + f.w ≤ 3 ∨ 8 ≤ f.lo → q.fld (DL_LANE_STAT n) f = p.fld (DL_LANE_STAT n) f := fun f hf => by
    rw [← hq, fld_setFld_field _ _ _ _ _ (by simp only [DL_LANE_STAT_LOCK]; omega),
      fld_setFld_field _ _ _ _ _ (by simp only [DL_LANE_STAT_RATE]; omega)]
  have qLane : q.laneAt n = p.laneAt n := by rw [← hq]; rfl
  refine ⟨?_, ?_, ?_, ?_, ?_⟩
  · rw [attempt, ← hq, ← hp]
    exact laneOnly_onLane (laneOnly_setFld (laneOnly_setFld (laneOnly_lanePhase (laneOnly_refl s n) _ _) _ _) _ _) _
  · rw [attempt]
    exact (field DL_LANE_STAT_STATE (by decide)).trans (hp ▸ lanePhase_state s n (by decide) _)
  · rw [attempt]
    exact hq ▸ bit_setFld_clear _ _ _ rfl (by decide)
  · rw [attempt]
    exact (field DL_LANE_STAT_TRIES (by decide)).trans (hp ▸ lanePhase_fld s n _ _ (by decide))
  · rw [attempt, laneAt_onLane_same, qLane, ← hp, lanePhase_lane]

/-- The lane of a bring-up that begins, before its first attempt. -/
def LaneSt.fresh (l : LaneSt) (rejoin : Bool) : LaneSt :=
  { l with excluded := [], queue := [], window := [], topFln := none, lastAck := none, restart := false,
           rejoin := rejoin, joined := none, beats := 0, syncErr := false }

theorem laneBegin_begins (s : State) (n : Fin 32) (rejoin : Bool) :
    laneOnly s (s.laneBegin n rejoin) n ∧ (s.laneBegin n rejoin).laneState n = 1 ∧ (s.laneBegin n rejoin).laneLock n = false ∧
    (s.laneBegin n rejoin).fld (DL_LANE_STAT n) DL_LANE_STAT_TRIES = 0 ∧
    (s.laneBegin n rejoin).laneAt n = { (s.laneAt n).fresh rejoin with
      since := s.now, ctl := [idleBlock], align := false, caps := [], target := 0, txType := 0, tx := [] } := by
  obtain ⟨p, hp⟩ : ∃ p, (s.setFld (DL_LANE_STAT n) DL_LANE_STAT_TRIES 0).onLane n (fun l => l.fresh rejoin) = p := ⟨_, rfl⟩
  have begin_ : s.laneBegin n rejoin = p.laneAttempt n := by rw [← hp]; rfl
  have only : laneOnly s p n := hp ▸ laneOnly_onLane (laneOnly_setFld (laneOnly_refl s n) _ _) _
  obtain ⟨only', state, lock, tries, lane⟩ := laneAttempt_begins p n
  rw [begin_]
  refine ⟨laneOnly_trans only only', state, lock, ?_, ?_⟩
  · rw [tries, ← hp]
    exact fld_setFld_same s _ _ _ (by decide)
  · rw [lane, laneOnly_now only, ← hp, laneAt_onLane_same]
    rfl

/-- A protocol violation. -/
theorem dlViolation_violates (s : State) (n : Fin 32) (row : Nat) : violates s (s.dlViolation n row) n row := by
  refine ⟨?_, Reported.from (fault_reported _ _ _ _) rfl, ((Frame.refl s _ _).count (by simp)).fault⟩
  exact (reg_fault _ _ _ _ _ (dlNotFault (by decide) (by decide))).trans (reg_setReg_same _ _ _)

theorem violates_laneAt {s t : State} {n : Fin 32} {row : Nat} (h : violates s t n row) (m : Nat) : t.laneAt m = s.laneAt m := by
  unfold State.laneAt
  rw [h.2.2.1.dl]

end Sys2Proof.Machine

namespace Sys2Proof.Machine

section
variable {s : State} {n : Fin 32}

/-! ### Block lock and the blocks that a hub sends -/

/-- The phases in which lock regained is logged. -/
def State.lateLock (s : State) (n : Nat) : Prop :=
  s.laneState n = 3 ∨ s.laneState n = 4 ∨ (s.laneState n = 5 ∧ (s.laneAt n).align = true)

theorem blockLock_shows (hunting : s.laneLock n = false) (on : s.laneState n ≠ 0) :
    ∃ t, exec (.blockLock n) s = .next t ∧ t.laneLock n = true ∧ t.laneState n = s.laneState n ∧
      Frame s t [DL_LANE_STAT n] [] ∧ (s.lateLock n → Reported s t 0x1282 (BitVec.ofNat 8 n) 0) := by
  obtain ⟨u, hu⟩ : ∃ u, s.setFld (DL_LANE_STAT n) DL_LANE_STAT_LOCK 1 = u := ⟨_, rfl⟩
  have locked : u.laneLock n = true := hu ▸ bit_setFld_set s _ _ rfl (by decide)
  have state : u.laneState n = s.laneState n := hu ▸ fld_setFld_field s _ _ _ _ (.inl (by decide))
  have frame : Frame s u [DL_LANE_STAT n] [] := hu ▸ (Frame.refl s _ _).setFld (by simp)
  have start : ¬(s.laneLock n = true ∨ s.laneState n = 0) := by
    rw [hunting]
    exact not_or.2 ⟨Bool.false_ne_true, on⟩
  have run : exec (.blockLock n) s = .next (if s.laneState n = 3 ∨ s.laneState n = 4 ∨ (s.laneState n = 5 ∧ (s.laneAt n).align = true)
      then u.fault 0x1282 n else u) := by
    change execBlockLock n s = _
    unfold execBlockLock
    dsimp only
    rw [if_neg start, hu]
  rw [run]
  split
  · have stat : (u.fault 0x1282 n).reg (DL_LANE_STAT n) = u.reg (DL_LANE_STAT n) := reg_fault _ _ _ _ _ (laneStat_notFault n)
    exact ⟨_, rfl, (laneLock_of_reg stat).trans locked, (laneState_of_reg stat).trans state, frame.fault,
      fun _ => Reported.from (fault_reported _ _ _ _) (by rw [← hu]; rfl)⟩
  · next early => exact ⟨_, rfl, locked, state, frame, fun late => absurd late early⟩

theorem unused_clear {v : BitVec 48} {u : Nat} (hu : u < 2 ^ 48) (h : v &&& BitVec.ofNat 48 u = 0) : v.toNat &&& u = 0 := by
  have := congrArg BitVec.toNat h
  rwa [BitVec.toNat_and, BitVec.toNat_ofNat, Nat.mod_eq_of_lt hu] at this

theorem unused_set {v : BitVec 48} {u : Nat} (hu : u < 2 ^ 48) (h : v &&& BitVec.ofNat 48 u ≠ 0) : v.toNat &&& u ≠ 0 := by
  intro e
  apply h
  apply BitVec.eq_of_toNat_eq
  rw [BitVec.toNat_and, BitVec.toNat_ofNat, Nat.mod_eq_of_lt hu, e]
  rfl

theorem capUnused_lt (i : Nat) : capUnused i < 2 ^ 48 := by
  unfold capUnused
  split
  · decide
  · split
    · decide
    · split <;> decide

/-- A CAP block whose unused bytes are clear. -/
theorem cap_clear {i : BitVec 8} {v : BitVec 48} (lock : s.laneLock n = true) (le : i.toNat ≤ 3)
    (clear : v &&& BitVec.ofNat 48 (capUnused i.toNat) = 0) :
    exec (.cap n i v) s = .next (if s.laneState n ≠ 3 then s else if capValid i.toNat v.toNat then
      s.onLane n fun l => { l with caps := l.caps.upd (0, 0) i.toNat fun (w, k) =>
        if w = v.toNat ∧ k ≠ 0 then (w, k + 1) else (v.toNat, 1) }
      else s.dlViolation n 11) := by
  have used : v.toNat ^^^ (v.toNat &&& capUnused i.toNat) = v.toNat := by rw [unused_clear (capUnused_lt _) clear, Nat.xor_zero]
  change execCap n i v s = _
  unfold execCap
  dsimp only
  rw [if_neg (by rw [lock]; decide), if_neg (by omega), used, if_pos rfl]

theorem cap_counts {i : BitVec 8} {v : BitVec 48} (phase : s.laneState n = 3) (lock : s.laneLock n = true) (le : i.toNat ≤ 3)
    (clear : v &&& BitVec.ofNat 48 (capUnused i.toNat) = 0) (valid : capValid i.toNat v.toNat = true) :
    ∃ t, exec (.cap n i v) s = .next t ∧ laneOnly s t n ∧ t.regs = s.regs ∧
      (t.laneAt n).caps.get (0, 0) i.toNat = (v.toNat,
        if ((s.laneAt n).caps.get (0, 0) i.toNat).1 = v.toNat ∧ ((s.laneAt n).caps.get (0, 0) i.toNat).2 ≠ 0
        then ((s.laneAt n).caps.get (0, 0) i.toNat).2 + 1 else 1) := by
  rw [cap_clear lock le clear, if_neg (by rw [phase]; decide), if_pos valid]
  refine ⟨_, rfl, laneOnly_onLane (laneOnly_refl s n) _, rfl, ?_⟩
  rw [laneAt_onLane_same]
  dsimp only
  rw [Tbl.get_upd, if_pos rfl]
  split
  · next same => rw [same.1]
  · rfl

theorem cap_invalid {i : BitVec 8} {v : BitVec 48} (phase : s.laneState n = 3) (lock : s.laneLock n = true) (le : i.toNat ≤ 3)
    (clear : v &&& BitVec.ofNat 48 (capUnused i.toNat) = 0) (bad : capValid i.toNat v.toNat = false) :
    ∃ t, exec (.cap n i v) s = .next t ∧ violates s t n 11 := by
  rw [cap_clear lock le clear, if_neg (by rw [phase]; decide), if_neg (by rw [bad]; decide)]
  exact ⟨_, rfl, dlViolation_violates s n 11⟩

theorem cap_untimely {i : BitVec 8} {v : BitVec 48} (lock : s.laneLock n = true) (out : s.laneState n ≠ 3 ∨ 3 < i.toNat) :
    (i.toNat ≤ 3 → v &&& BitVec.ofNat 48 (capUnused i.toNat) = 0 → exec (.cap n i v) s = .next s) ∧
    (3 < i.toNat ∨ v &&& BitVec.ofNat 48 (capUnused i.toNat) ≠ 0 →
      ∃ t, exec (.cap n i v) s = .next t ∧ violates s t n 5) := by
  refine ⟨fun le clear => ?_, fun wrong => ⟨s.dlViolation n 5, ?_, dlViolation_violates s n 5⟩⟩
  · rw [cap_clear lock le clear, if_pos (out.resolve_right (by omega))]
  · change execCap n i v s = _
    unfold execCap
    dsimp only
    rw [if_neg (by rw [lock]; decide)]
    by_cases beyond : 3 < i.toNat
    · rw [if_pos beyond]
    · have unused := unused_set (capUnused_lt i.toNat) (wrong.resolve_left beyond)
      have differs : v.toNat ^^^ (v.toNat &&& capUnused i.toNat) ≠ v.toNat := fun e =>
        unused (by simpa using congrArg (v.toNat ^^^ ·) e)
      have state : (s.dlViolation n 5).laneState n = s.laneState n :=
        laneState_of_reg ((dlViolation_violates s n 5).2.2.reg
          (by simp only [List.mem_singleton, DL_LANE_STAT, DL_CNT]; omega) (laneStat_notFault n))
      rw [if_neg beyond, if_neg differs, if_pos (by rw [state]; exact out.resolve_right beyond)]

/-! ### Rate and READY blocks -/

theorem rate_retunes (phase : s.laneState n = 4) :
    ∃ t, exec (.rate ⟨n, none⟩) s = .next t ∧
      t.fld (DL_LANE_STAT n) DL_LANE_STAT_RATE = (s.laneAt n).target % 2 ^ DL_LANE_STAT_RATE.w ∧
      t.laneLock n = false ∧ laneOnly s t n := by
  obtain ⟨p, hp⟩ : ∃ p, s.setFld (DL_LANE_STAT n) DL_LANE_STAT_RATE (s.laneAt n).target = p := ⟨_, rfl⟩
  have run : exec (.rate ⟨n, none⟩) s = .next ((p.setFld (DL_LANE_STAT n) DL_LANE_STAT_LOCK 0).onLane n
      fun l => { l with ctl := [idleBlock] }) := by
    change Host.Outcome.next (if s.laneState n = 4 then _ else _) = _
    rw [if_pos phase, ← hp]
  refine ⟨_, run, ?_, ?_, ?_⟩
  · exact (fld_setFld_field p _ _ _ _ (.inr (by decide))).trans (hp ▸ fld_setFld_same s _ _ _ (by decide))
  · exact bit_setFld_clear p _ _ rfl (by decide)
  · exact laneOnly_onLane (laneOnly_setFld (hp ▸ laneOnly_setFld (laneOnly_refl s n) _ _) _ _) _

theorem padCheck_zero {x b : Nat} (h : x < b) : s.padCheck n (x / b) = s := if_pos (Nat.div_eq_of_lt h)

theorem rate_named {b : BitVec 56} (lock : s.laneLock n = true) (short : b.toNat < 2 ^ 16) :
    exec (.rate ⟨n, some b⟩) s = .next (if b.toNat % 256 = (s.laneAt n).target then s else s.dlViolation n 13) := by
  change Host.Outcome.next (if (!s.laneLock n) = true then s else _) = _
  rw [if_neg (by rw [lock]; decide), padCheck_zero short]

/-- A READY block of the hub. -/
theorem ready_hub (lock : s.laneLock n = true) :
    exec (.ready ⟨n, .ready 2⟩) s = .next (
      if s.laneState n = 5 ∧ (s.laneAt n).align = true ∧ (s.laneAt n).txType ≠ 2 then
        (s.onLane n fun l => { l with ctl := [idleBlock] }).sendSync n (s.lnAhead 2)
      else if 1 ≤ s.laneState n ∧ s.laneState n ≤ 3 then s.dlViolation n 14 else s) := by
  change Host.Outcome.next (if (!s.laneLock n) = true then s else if 2 % 256 ≠ 2 then _ else _) = _
  rw [if_neg (by rw [lock]; decide), if_neg (by decide)]
  rfl

theorem ready_syncs (phase : s.laneState n = 5) (aligned : (s.laneAt n).align = true) (first : (s.laneAt n).txType ≠ 2)
    (lock : s.laneLock n = true) (free : s.bit (FS_HSTAT (n.val / 2)) FS_HSTAT_HELD = false) :
    ∃ t, exec (.ready ⟨n, .ready 2⟩) s = .next t ∧ laneOnly s t n ∧ t.regs = s.regs ∧ (t.laneAt n).txType = 2 ∧
      (t.laneAt n).seq = ((s.laneAt n).seq + 1) % 65536 ∧
      (let body := leBytes 8 ((s.lc.hwm.toNat + 2) % 2 ^ 64)
       (t.laneAt n).tx = body ++ leBytes 8 (crc32c body).toNat) := by
  obtain ⟨p, hp⟩ : ∃ p, (s.onLane n fun l => { l with ctl := [idleBlock] }) = p := ⟨_, rfl⟩
  obtain ⟨q, hq⟩ : ∃ q, p.sendPlain n 2 (leBytes 8 (s.lnAhead 2)) = q := ⟨_, rfl⟩
  have only : laneOnly s q n := hq ▸ hp ▸ laneOnly_onLane (laneOnly_onLane (laneOnly_refl s n) _) _
  have regs : q.regs = s.regs := by rw [← hq, ← hp]; rfl
  have run : exec (.ready ⟨n, .ready 2⟩) s = .next q := by
    have free' : ¬q.bit (FS_HSTAT (n.val / 2)) FS_HSTAT_HELD = true := by
      rw [bit_of_reg FS_HSTAT_HELD (reg_of_regs regs _), free]
      decide
    rw [ready_hub lock, if_pos ⟨phase, aligned, first⟩, hp]
    unfold State.sendSync
    dsimp only
    rw [hq, if_neg free']
  have lane : q.laneAt n = { p.laneAt n with
      seq := ((p.laneAt n).seq + 1) % 65536, txType := 2,
      tx := leBytes 8 (s.lnAhead 2) ++ leBytes 8 (crc32c (leBytes 8 (s.lnAhead 2))).toNat } := hq ▸ laneAt_onLane_same _ _ _
  have seq : (p.laneAt n).seq = (s.laneAt n).seq := by rw [← hp, laneAt_onLane_same]
  refine ⟨q, run, only, regs, ?_, ?_, ?_⟩
  · rw [lane]
  · rw [lane, ← seq]
  · rw [lane]
    rfl

theorem ready_early (lock : s.laneLock n = true) (lo : 1 ≤ s.laneState n) (hi : s.laneState n ≤ 3) :
    ∃ t, exec (.ready ⟨n, .ready 2⟩) s = .next t ∧ violates s t n 14 := by
  rw [ready_hub lock, if_neg (fun h => by omega), if_pos ⟨lo, hi⟩]
  exact ⟨_, rfl, dlViolation_violates s n 14⟩

theorem ready_data (lock : s.laneLock n = true) : ∃ t, exec (.ready ⟨n, .data⟩) s = .next t ∧ violates s t n 4 := by
  refine ⟨s.dlViolation n 4, ?_, dlViolation_violates s n 4⟩
  change Host.Outcome.next (if (!s.laneLock n) = true then s else _) = _
  rw [if_neg (by rw [lock]; decide)]

theorem ready_hunting (hunting : s.laneLock n = false) (b : HubBlock) : exec (.ready ⟨n, b⟩) s = .next s := by
  change Host.Outcome.next (if (!s.laneLock n) = true then s else _) = _
  rw [if_pos (by rw [hunting]; decide)]

end

end Sys2Proof.Machine

namespace Sys2Proof.Machine

/-- A phase of a lane has ended: what the statement of the phases asks of each of its plain endings. -/
def PhaseEnded (s t : State) (n : Fin 32) (st : Nat) (ctl : List Nat) : Prop :=
  t.laneState n = st ∧ laneOnly s t n ∧ (t.laneAt n).ctl = ctl ∧ (t.laneAt n).since = s.now

theorem lanePhase_ends {s p : State} {n : Fin 32} (h : laneOnly s p n) {st : Nat} (hst : st < 8) (ctl : List Nat) :
    PhaseEnded s (p.lanePhase n st ctl) n st ctl := by
  refine ⟨lanePhase_state p n hst ctl, laneOnly_lanePhase h _ _, ?_, ?_⟩
  · rw [lanePhase_lane]
  · rw [lanePhase_lane]
    exact laneOnly_now h

/-- The receiver's errors of a lane are shown no longer. -/
def State.laneClear (s : State) (n : Nat) : State :=
  (s.setFld (DL_LANE_STAT n) DL_LANE_STAT_LOS 0).setFld (DL_LANE_STAT n) DL_LANE_STAT_CDRL 0

section
variable {s : State} {n : Fin 32}

theorem laneClear_only : laneOnly s (s.laneClear n) n := laneOnly_setFld (laneOnly_setFld (laneOnly_refl s n) _ _) _ _

/-! ### Phases that complete (R188) -/

theorem phase1_completes (h : s.laneState n = 1) :
    exec (.phaseComplete n) s = .next ((s.laneClear n).lanePhase n 2 [idleBlock]) := by
  change execPhaseComplete n s = _
  unfold execPhaseComplete
  dsimp only
  rw [h]
  rfl

theorem phase2_completes (h : s.laneState n = 2) :
    exec (.phaseComplete n) s = .next (if s.laneLock n = true then s.lanePhase n 3 capBlocks else s) := by
  change execPhaseComplete n s = _
  unfold execPhaseComplete
  dsimp only
  rw [h]
  rfl

theorem phase3_completes (h : s.laneState n = 3) :
    exec (.phaseComplete n) s = .next (if (s.laneAt n).capsDone = true then s.capsComplete n else s) := by
  change execPhaseComplete n s = _
  unfold execPhaseComplete
  dsimp only
  rw [h]
  rfl

theorem phase4_completes (h : s.laneState n = 4) :
    exec (.phaseComplete n) s = .next (if s.fld (DL_LANE_STAT n) DL_LANE_STAT_RATE = (s.laneAt n).target
      then s.lanePhase n 5 [idleBlock] else s) := by
  change execPhaseComplete n s = _
  unfold execPhaseComplete
  dsimp only
  rw [h]
  rfl

theorem phase5_completes (h : s.laneState n = 5) (early : (s.laneAt n).align = false) :
    exec (.phaseComplete n) s = .next (if s.laneLock n = true then
      ((s.laneClear n).lanePhase n 5 [readyBlock]).onLane n (fun l => { l with align := true, txType := 0 }) else s) := by
  change execPhaseComplete n s = _
  unfold execPhaseComplete
  dsimp only
  rw [h, early, if_neg Bool.false_ne_true]
  rfl

theorem phase6_completes (h : s.laneState n = 5) (aligned : (s.laneAt n).align = true) :
    exec (.phaseComplete n) s = .next (if (s.laneAt n).txType = 2 then s.laneUp n else s) := by
  change execPhaseComplete n s = _
  unfold execPhaseComplete
  dsimp only
  rw [h, aligned, if_pos rfl]
  rfl

theorem capsDone_iff (l : LaneSt) : l.capsDone = true ↔ ∀ i : Fin 4, 2 ≤ (l.caps.get (0, 0) i).2 := by
  unfold LaneSt.capsDone
  rw [List.all_eq_true]
  constructor
  · intro h i
    exact of_decide_eq_true (h i (List.mem_range.2 i.isLt))
  · intro h i hi
    exact decide_eq_true (h ⟨i, List.mem_range.1 hi⟩)

/-- Phase 5 of an attempt is followed by the lane's last phase. -/
theorem phase5_ends : PhaseEnded s (((s.laneClear n).lanePhase n 5 [readyBlock]).onLane n (fun l => { l with align := true, txType := 0 }))
      n 5 [readyBlock] ∧
    ((((s.laneClear n).lanePhase n 5 [readyBlock]).onLane n (fun l => { l with align := true, txType := 0 })).laneAt n).align = true := by
  obtain ⟨state, only, ctl, since⟩ := lanePhase_ends (laneClear_only (s := s) (n := n)) (st := 5) (by decide) [readyBlock]
  obtain ⟨p, hp⟩ : ∃ p, (s.laneClear n).lanePhase n 5 [readyBlock] = p := ⟨_, rfl⟩
  rw [hp] at state only ctl since ⊢
  refine ⟨⟨state, laneOnly_onLane only _, ?_, ?_⟩, ?_⟩
  · rw [laneAt_onLane_same]; exact ctl
  · rw [laneAt_onLane_same]; exact since
  · rw [laneAt_onLane_same]

/-! ### Attempts (R188, R204) -/

theorem phaseTimeout_waits (early : s.now < (s.laneAt n).since + phaseMax (s.laneState n) (s.laneAt n).align) :
    exec (.phaseTimeout n) s = .next s := by
  change execPhaseTimeout n s = _
  unfold execPhaseTimeout
  dsimp only
  rw [if_pos (.inr (.inr early))]

/-- An attempt that has timed out: its count, and the rate that it could not step to. -/
def State.attemptFailed (s : State) (n : Nat) : State :=
  let s' := s.setFld (DL_LANE_STAT n) DL_LANE_STAT_TRIES (s.fld (DL_LANE_STAT n) DL_LANE_STAT_TRIES + 1)
  if s.laneState n = 5 ∧ (s.laneAt n).align = false then
    s'.onLane n fun l => { l with excluded := (s.laneAt n).target :: l.excluded } else s'

theorem phaseTimeout_eq (lo : 1 ≤ s.laneState n) (hi : s.laneState n ≤ 5)
    (late : (s.laneAt n).since + phaseMax (s.laneState n) (s.laneAt n).align ≤ s.now) :
    exec (.phaseTimeout n) s = .next (if s.fld (DL_LANE_STAT n) DL_LANE_STAT_TRIES + 1 < 3 then (s.attemptFailed n).laneAttempt n
      else (((s.attemptFailed n).lanePhase n 7 []).setEvt BLK_DL 0).fault 0x2287 n) := by
  have under : ¬(s.laneState n = 0 ∨ 6 ≤ s.laneState n ∨
      s.now < (s.laneAt n).since + phaseMax (s.laneState n) (s.laneAt n).align) := by
    rintro (h | h | h) <;> omega
  change execPhaseTimeout n s = _
  unfold execPhaseTimeout
  dsimp only
  rw [if_neg under]
  rfl

theorem attemptFailed_shows :
    laneOnly s (s.attemptFailed n) n ∧
    (s.fld (DL_LANE_STAT n) DL_LANE_STAT_TRIES + 1 < 4 →
      (s.attemptFailed n).fld (DL_LANE_STAT n) DL_LANE_STAT_TRIES = s.fld (DL_LANE_STAT n) DL_LANE_STAT_TRIES + 1) ∧
    (s.laneState n = 5 → (s.laneAt n).align = false →
      ((s.attemptFailed n).laneAt n).excluded = (s.laneAt n).target :: (s.laneAt n).excluded) := by
  obtain ⟨p, hp⟩ : ∃ p, s.setFld (DL_LANE_STAT n) DL_LANE_STAT_TRIES (s.fld (DL_LANE_STAT n) DL_LANE_STAT_TRIES + 1) = p := ⟨_, rfl⟩
  have only : laneOnly s p n := hp ▸ laneOnly_setFld (laneOnly_refl s n) _ _
  have tries : s.fld (DL_LANE_STAT n) DL_LANE_STAT_TRIES + 1 < 4 →
      p.fld (DL_LANE_STAT n) DL_LANE_STAT_TRIES = s.fld (DL_LANE_STAT n) DL_LANE_STAT_TRIES + 1 := fun h =>
    hp ▸ (fld_setFld_same s _ _ _ (by decide)).trans (Nat.mod_eq_of_lt h)
  unfold State.attemptFailed
  dsimp only
  rw [hp]
  split
  · refine ⟨laneOnly_onLane only _, tries, fun _ _ => ?_⟩
    rw [laneAt_onLane_same, ← hp]
    rfl
  · next other => exact ⟨only, tries, fun st al => absurd ⟨st, al⟩ other⟩

theorem phaseTimeout_tries (lo : 1 ≤ s.laneState n) (hi : s.laneState n ≤ 5)
    (late : (s.laneAt n).since + phaseMax (s.laneState n) (s.laneAt n).align ≤ s.now)
    (few : s.fld (DL_LANE_STAT n) DL_LANE_STAT_TRIES + 1 < 3) :
    ∃ t, exec (.phaseTimeout n) s = .next t ∧ t.laneState n = 1 ∧
      t.fld (DL_LANE_STAT n) DL_LANE_STAT_TRIES = s.fld (DL_LANE_STAT n) DL_LANE_STAT_TRIES + 1 ∧ laneOnly s t n ∧
      (s.laneState n = 5 → (s.laneAt n).align = false → (t.laneAt n).excluded = (s.laneAt n).target :: (s.laneAt n).excluded) := by
  obtain ⟨only, tries, excluded⟩ := attemptFailed_shows (s := s) (n := n)
  obtain ⟨only', state, -, tries', lane⟩ := laneAttempt_begins (s.attemptFailed n) n
  refine ⟨_, (phaseTimeout_eq lo hi late).trans (congrArg _ (if_pos few)), state, tries'.trans (tries (by omega)),
    laneOnly_trans only only', fun st al => ?_⟩
  rw [lane]
  exact excluded st al

/-- A change of one lane alone, but for its state machine, is one of its register. -/
theorem laneOnly_frame {t : State} (h : laneOnly s t n) : Frame { s with dl := t.dl } t [DL_LANE_STAT n] [] := by
  obtain ⟨same, regs, -⟩ := h
  refine ⟨?_, fun off ho => regs off (by simp only [List.mem_append, not_or] at ho; exact ho.1)⟩
  have dl : t.dl = { s.dl with lanes := t.dl.lanes } := by rw [same]
  have same' : t = { s with regs := t.regs, dl := t.dl } := by rw [dl]; exact same
  unfold Quiet
  generalize hr : t.regs = r at *
  generalize hd : t.dl = d at *
  subst same'
  rfl

theorem phaseTimeout_fails (lo : 1 ≤ s.laneState n) (hi : s.laneState n ≤ 5)
    (late : (s.laneAt n).since + phaseMax (s.laneState n) (s.laneAt n).align ≤ s.now)
    (third : s.fld (DL_LANE_STAT n) DL_LANE_STAT_TRIES = 2) :
    ∃ t, exec (.phaseTimeout n) s = .next t ∧ t.laneState n = 7 ∧ EventSet t BLK_DL 0 ∧
      Reported s t 0x2287 (BitVec.ofNat 8 n) 0 ∧ Frame { s with dl := t.dl } t [DL_LANE_STAT n] [BLK_DL] := by
  obtain ⟨p, hp⟩ : ∃ p, (s.attemptFailed n).lanePhase n 7 [] = p := ⟨_, rfl⟩
  have only : laneOnly s p n := hp ▸ laneOnly_lanePhase attemptFailed_shows.1 _ _
  have state : p.laneState n = 7 := hp ▸ lanePhase_state _ n (by decide) _
  obtain ⟨q, hq⟩ : ∃ q, p.setEvt BLK_DL 0 = q := ⟨_, rfl⟩
  obtain ⟨t, ht⟩ : ∃ t, q.fault 0x2287 n = t := ⟨_, rfl⟩
  have frame : Frame p t [DL_LANE_STAT n] [BLK_DL] := ht ▸ hq ▸ ((Frame.refl p _ _).setEvt (by simp)).fault
  have stat : t.reg (DL_LANE_STAT n) = p.reg (DL_LANE_STAT n) :=
    ht ▸ (reg_fault _ _ _ _ _ (laneStat_notFault n)).trans (hq ▸ reg_setEvt_of_notMem _ _ _ _ (laneStat_notReport n))
  have run : exec (.phaseTimeout n) s = .next t := by
    rw [phaseTimeout_eq lo hi late, if_neg (by omega), hp, hq, ht]
  refine ⟨t, run, (laneState_of_reg stat).trans state, ?_, ?_, ?_⟩
  · exact ht ▸ EventSet.fault _ _ _ (hq ▸ setEvt_eventSet _ _ _ (by decide))
  · refine Reported.from (s := q) (ht ▸ fault_reported _ _ _ _) ?_
    rw [← hq, setEvt_si, laneOnly_si only]
  · have dl : t.dl = p.dl := frame.1.dl
    rw [dl]
    exact ((laneOnly_frame only).mono (List.Subset.refl _) (List.nil_subset _)).trans frame

theorem restart_waits (early : s.now < (s.laneAt n).since + 10 * ticksMs) : exec (.restartBringup n) s = .next s := by
  change Host.Outcome.next (if _ then _ else _) = _
  rw [if_neg (fun h => absurd h.2.2 (by omega))]

theorem restart_begins (failed : s.laneState n = 7) (may : (s.laneAt n).restart = true)
    (time : (s.laneAt n).since + 10 * ticksMs ≤ s.now) :
    ∃ t, exec (.restartBringup n) s = .next t ∧ t.laneState n = 1 ∧ laneOnly s t n ∧
      (t.laneAt n).restart = false ∧ (t.laneAt n).rejoin = true := by
  obtain ⟨only, state, -, -, lane⟩ := laneBegin_begins s n true
  have run : exec (.restartBringup n) s = .next (s.laneBegin n true) := by
    change Host.Outcome.next (if _ then _ else _) = _
    rw [if_pos ⟨failed, may, time⟩]
  refine ⟨_, run, state, only, ?_, ?_⟩
  · rw [lane]; rfl
  · rw [lane]; rfl

end

/-- R188, R204: attempts that time out, and the lane that begins again. -/
theorem lane_attempts : laneAttemptsAreCounted := by
  intro s n
  refine ⟨fun lo hi => ⟨phaseTimeout_waits, fun late => ⟨phaseTimeout_tries lo hi late, phaseTimeout_fails lo hi late⟩⟩,
    fun failed may => ⟨restart_begins failed may, restart_waits⟩⟩

end Sys2Proof.Machine

namespace Sys2Proof.Machine

/-! ### The end of phase 3 (R188 to R190) -/

/-- The hub's values are held: two registers and the hub's own state. -/
theorem holdCaps_shows (s : State) (k : Fin 16) (c : CapVal) :
    (s.holdCaps k c).reg (DL_HUB_CAP0 k) = BitVec.ofNat 32 c.maxlr ∧
    RegsBut s (s.holdCaps k c) [DL_HUB_CAP0 k, DL_HUB_CAP1 k] ∧ (s.holdCaps k c).dl.lanes = s.dl.lanes ∧
    (s.holdCaps k c).si = s.si := by
  obtain ⟨p, hp⟩ : ∃ p, s.setReg (DL_HUB_CAP0 k) (BitVec.ofNat 32 c.maxlr) = p := ⟨_, rfl⟩
  have shown : p.reg (DL_HUB_CAP0 k) = BitVec.ofNat 32 c.maxlr := hp ▸ reg_setReg_same _ _ _
  have but : RegsBut s p [DL_HUB_CAP0 k] := hp ▸ (RegsBut.refl _ _).setReg (by simp)
  have same : p.dl = s.dl ∧ p.si = s.si := by rw [← hp]; exact ⟨rfl, rfl⟩
  obtain ⟨q, hq⟩ : ∃ q, (((p.setFld (DL_HUB_CAP1 k) DL_HUB_CAP1_PBD (b2n c.pbd)).setFld (DL_HUB_CAP1 k)
    DL_HUB_CAP1_DWS c.dws).setFld (DL_HUB_CAP1 k) DL_HUB_CAP1_RATES c.rates).setFld (DL_HUB_CAP1 k)
      DL_HUB_CAP1_DEPTH c.depth = q := ⟨_, rfl⟩
  have but' : RegsBut p q [DL_HUB_CAP1 k] :=
    hq ▸ ((((RegsBut.refl _ _).setFld (by simp)).setFld (by simp)).setFld (by simp)).setFld (by simp)
  have same' : q.dl = p.dl ∧ q.si = p.si := by rw [← hq]; exact ⟨rfl, rfl⟩
  have held : s.holdCaps k c = q.onHub k fun h => { h with hubid := c.hubid } := by
    unfold State.holdCaps
    dsimp only
    rw [hp, hq]
  rw [held]
  refine ⟨?_, ?_, ?_, ?_⟩
  · exact (but' _ (by rw [List.mem_singleton]; unfold DL_HUB_CAP0 DL_HUB_CAP1; omega)).trans shown
  · exact (but.mono (by simp)).trans (but'.mono (by simp))
  · change q.dl.lanes = s.dl.lanes
    rw [same'.1, same.1]
  · exact same'.2.trans same.2

/-- The values of a lane's hub are joined with those that its other lane holds (R190). -/
def State.capsJoined (s : State) (n : Nat) (c : CapVal) : State :=
  match (s.laneAt (partner n)).held with
  | some d => if c = d then s.holdCaps (n / 2) c else (s.dlViolation n 12).holdCaps (n / 2) (capCommon c d)
  | none => s.holdCaps (n / 2) c

theorem laneHub_lt (n : Fin 32) : n.val / 2 < 16 := by omega

/-- What the joining of the hub's values leaves of the lanes and of the registers of this link. -/
structure CapsJoined (s t : State) (n : Fin 32) : Prop where
  lanes : t.dl.lanes = s.dl.lanes
  stat : t.reg (DL_LANE_STAT n) = s.reg (DL_LANE_STAT n)
  cfg : t.reg (DL_LANE_CFG n) = s.reg (DL_LANE_CFG n)

theorem holdCaps_joins (s : State) (n : Fin 32) (c : CapVal) : CapsJoined s (s.holdCaps (n.val / 2) c) n := by
  obtain ⟨-, but, lanes, -⟩ := holdCaps_shows s ⟨n.val / 2, laneHub_lt n⟩ c
  have below : ∀ off, off < 0xA00200 → (s.holdCaps (n.val / 2) c).reg off = s.reg off := fun off lo => but off (by
    simp only [List.mem_cons, List.mem_nil_iff, or_false, not_or, DL_HUB_CAP0, DL_HUB_CAP1]
    omega)
  exact ⟨lanes, below _ (by unfold DL_LANE_STAT; omega), below _ (by unfold DL_LANE_CFG; omega)⟩

theorem CapsJoined.trans {s t u : State} {n : Fin 32} (h : CapsJoined s t n) (k : CapsJoined t u n) : CapsJoined s u n :=
  ⟨k.lanes.trans h.lanes, k.stat.trans h.stat, k.cfg.trans h.cfg⟩

theorem dlViolation_joins (s : State) (n : Fin 32) (row : Nat) : CapsJoined s (s.dlViolation n row) n := by
  obtain ⟨-, -, frame⟩ := dlViolation_violates s n row
  have other : ∀ off, 0xA00100 ≤ off → off < 0xB00000 → (s.dlViolation n row).reg off = s.reg off := fun off lo hi =>
    frame.reg (by simp only [List.mem_singleton, DL_CNT]; omega) (dlNotFault (by omega) hi)
  exact ⟨congrArg DlSt.lanes frame.1.dl, other _ (by unfold DL_LANE_STAT; omega) (by unfold DL_LANE_STAT; omega),
    other _ (by unfold DL_LANE_CFG; omega) (by unfold DL_LANE_CFG; omega)⟩

theorem capsJoined_joins (s : State) (n : Fin 32) (c : CapVal) : CapsJoined s (s.capsJoined n c) n := by
  unfold State.capsJoined
  split
  · split
    · exact holdCaps_joins s n c
    · exact (dlViolation_joins s n 12).trans (holdCaps_joins _ n _)
  · exact holdCaps_joins s n c

/-- The other lane holds nothing, or the same. -/
theorem capsJoined_alike {s : State} {n : Fin 32} {c : CapVal}
    (alike : (s.laneAt (partner n)).held = none ∨ (s.laneAt (partner n)).held = some c) :
    (s.capsJoined n c).reg (DL_HUB_CAP0 (n.val / 2)) = BitVec.ofNat 32 c.maxlr := by
  have shown := (holdCaps_shows s ⟨n.val / 2, laneHub_lt n⟩ c).1
  unfold State.capsJoined
  rcases alike with h | h
  · rw [h]; exact shown
  · rw [h]
    dsimp only
    rw [if_pos rfl]
    exact shown

/-- The other lane holds other values: those common to both are held, and it is a violation. -/
theorem capsJoined_differ {s : State} {n : Fin 32} {c d : CapVal} (held : (s.laneAt (partner n)).held = some d) (ne : c ≠ d) :
    (s.capsJoined n c).reg (DL_HUB_CAP0 (n.val / 2)) = BitVec.ofNat 32 (capCommon c d).maxlr ∧
    (s.capsJoined n c).reg (DL_CNT 2) = satInc (s.reg (DL_CNT 2)) ∧
    Reported s (s.capsJoined n c) 0x0285 (BitVec.ofNat 8 n) 12 := by
  obtain ⟨counted, reported, -⟩ := dlViolation_violates s n 12
  obtain ⟨shown, but, -, si⟩ := holdCaps_shows (s.dlViolation n 12) ⟨n.val / 2, laneHub_lt n⟩ (capCommon c d)
  have joined : s.capsJoined n c = (s.dlViolation n 12).holdCaps (n / 2) (capCommon c d) := by
    unfold State.capsJoined
    rw [held]
    dsimp only
    rw [if_neg ne]
  rw [joined]
  refine ⟨shown, (but _ ?_).trans counted, reported.of_si (congrArg _ si) (congrArg _ si)⟩
  simp only [List.mem_cons, List.mem_nil_iff, or_false, not_or]
  unfold DL_HUB_CAP0 DL_HUB_CAP1 DL_CNT
  omega

section
variable {s : State} {n : Fin 32}

theorem stepRate_of {t : State} (cfg : t.reg (DL_LANE_CFG n) = s.reg (DL_LANE_CFG n))
    (lane : (t.laneAt n).excluded = (s.laneAt n).excluded) (rates : Nat) : t.stepRate n rates = s.stepRate n rates := by
  unfold State.stepRate
  rw [lane, fld_of_reg _ cfg]

/-- The values that a lane holds after its phase 3. -/
def State.capsOf (s : State) (n : Nat) : CapVal := capOf fun i => ((s.laneAt n).caps.get (0, 0) i).1

/-- Phase 3 of a lane, with the values of its hub joined. -/
def State.capsTaken (s : State) (n : Nat) : State :=
  (s.onLane n fun l => { l with held := some (s.capsOf n) }).capsJoined n (s.capsOf n)

theorem capsComplete_eq : s.capsComplete n = if s.stepRate n (s.capsOf n).rates = 0 then
      ((s.capsTaken n).lanePhase n 5 [readyBlock]).onLane n (fun l => { l with align := true })
    else ((s.capsTaken n).lanePhase n 4 (rateBlocks (s.stepRate n (s.capsOf n).rates))).onLane n
      (fun l => { l with target := s.stepRate n (s.capsOf n).rates }) := by
  obtain ⟨p, hp⟩ : ∃ p, (s.onLane n fun l => { l with held := some (s.capsOf n) }) = p := ⟨_, rfl⟩
  have joins := capsJoined_joins p n (s.capsOf n)
  have rate : (p.capsJoined n (s.capsOf n)).stepRate n (s.capsOf n).rates = s.stepRate n (s.capsOf n).rates := by
    refine stepRate_of (joins.cfg.trans (hp ▸ rfl)) ?_ _
    rw [laneAt_of_lanes joins.lanes, ← hp, laneAt_onLane_same]
  unfold State.capsTaken
  rw [hp, ← rate, ← hp]
  rfl

/-- What `capsHeld` asks of the lane itself, once its values are held. -/
theorem capsTaken_ends : let r := s.stepRate n (s.capsOf n).rates
    (s.capsComplete n).laneState n = (if r = 0 then 5 else 4) ∧
    (r ≠ 0 → ((s.capsComplete n).laneAt n).target = r ∧ ((s.capsComplete n).laneAt n).ctl = rateBlocks r) ∧
    (r = 0 → ((s.capsComplete n).laneAt n).align = true ∧ ((s.capsComplete n).laneAt n).ctl = [readyBlock]) := by
  intro r
  obtain ⟨p, hp⟩ : ∃ p, s.capsTaken n = p := ⟨_, rfl⟩
  rw [capsComplete_eq, hp]
  by_cases none_ : r = 0
  · rw [if_pos none_, if_pos none_, laneAt_onLane_same]
    exact ⟨lanePhase_state p n (by decide) [readyBlock], fun h => absurd none_ h, fun _ => ⟨rfl, by rw [lanePhase_lane]⟩⟩
  · rw [if_neg none_, if_neg none_, laneAt_onLane_same]
    exact ⟨lanePhase_state p n (by decide) (rateBlocks r), fun _ => ⟨rfl, by rw [lanePhase_lane]⟩, fun h => absurd h none_⟩

theorem capsComplete_reg {off : Nat} (h : off ≠ DL_LANE_STAT n) : (s.capsComplete n).reg off = (s.capsTaken n).reg off := by
  rw [capsComplete_eq]
  split <;> exact reg_setFld_other _ _ _ _ _ h

theorem capsComplete_si : (s.capsComplete n).si = (s.capsTaken n).si := by
  rw [capsComplete_eq]
  split <;> rfl

/-- R190: what the end of phase 3 holds of the hub. -/
theorem caps_held : capsHeld s n := by
  unfold capsHeld
  intro c both r phase twice
  obtain ⟨p, hp⟩ : ∃ p, (s.onLane n fun l => { l with held := some c }) = p := ⟨_, rfl⟩
  have taken : s.capsTaken n = p.capsJoined n c := by rw [← hp]; rfl
  have other : (p.laneAt (partner n)).held = (s.laneAt (partner n)).held := by rw [← hp, laneAt_onLane_other _ _ (partner_ne n)]
  have run : exec (.phaseComplete n) s = .next (s.capsComplete n) := by
    rw [phase3_completes phase, if_pos ((capsDone_iff _).2 twice)]
  obtain ⟨state, stepped, stays⟩ := capsTaken_ends (s := s) (n := n)
  have cap0 : DL_HUB_CAP0 (n.val / 2) ≠ DL_LANE_STAT n := by unfold DL_HUB_CAP0 DL_LANE_STAT; omega
  refine ⟨_, run, state, stepped, stays, fun alike => ?_, fun d held ne => ?_⟩
  · rw [capsComplete_reg cap0, taken]
    exact capsJoined_alike (by rwa [other])
  · obtain ⟨shown, counted, reported⟩ := capsJoined_differ (n := n) (other.trans held) ne
    have common : both = capCommon c d := by
      change (match (s.laneAt (partner n)).held with | some d => capCommon c d | none => c) = _
      rw [held]
    refine ⟨?_, ?_, ?_⟩
    · rw [capsComplete_reg cap0, taken, shown, common]
    · rw [capsComplete_reg (by unfold DL_CNT DL_LANE_STAT; omega), taken, counted, ← hp]
      rfl
    · refine Reported.of_si (t := p.capsJoined n c) (Reported.from reported ?_) ?_ ?_
      · rw [← hp]; rfl
      · rw [capsComplete_si, taken]
      · rw [capsComplete_si, taken]

end

end Sys2Proof.Machine

namespace Sys2Proof.Machine

/-! ### What packets leave (R191 to R197) -/

/-- Packets have been sent on lanes: no register and no hub has changed. -/
def LinkSent (s t : State) : Prop := t.regs = s.regs ∧ t.dl.hubs = s.dl.hubs

theorem LinkSent.refl (s : State) : LinkSent s s := ⟨rfl, rfl⟩

theorem LinkSent.trans {s t u : State} (h : LinkSent s t) (k : LinkSent t u) : LinkSent s u :=
  ⟨k.1.trans h.1, k.2.trans h.2⟩

theorem LinkSent.foldl {α : Type} (f : State → α → State) (sends : ∀ s x, LinkSent s (f s x)) (xs : List α) (s : State) :
    LinkSent s (xs.foldl f s) :=
  foldl_keeps LinkSent LinkSent.refl (fun _ _ _ => LinkSent.trans) f (fun s x => sends s x) xs s

theorem sendCtrl_sent (s : State) (n ctype arg count value : Nat) (data : List Byte) (kind : SentKind) :
    LinkSent s (s.sendCtrl n ctype arg count value data kind) := ⟨rfl, rfl⟩

theorem sendFracs_sent (s : State) (n copy : Nat) : LinkSent s (s.sendFracs n copy) := by
  unfold State.sendFracs
  split
  · exact LinkSent.foldl _ (fun s _ => sendCtrl_sent s _ _ _ _ _ _ _) _ _
  · exact LinkSent.refl s

theorem sendFracsNow_sent (s : State) (n : Nat) : LinkSent s (s.sendFracsNow n) := by
  unfold State.sendFracsNow
  dsimp only
  split
  · exact (sendFracs_sent s n _).trans (sendFracs_sent _ n _)
  · exact sendFracs_sent s n _

theorem sendSync_sent (s : State) (n nln : Nat) : LinkSent s (s.sendSync n nln) := by
  unfold State.sendSync
  dsimp only
  split <;> exact ⟨rfl, rfl⟩

theorem syncHub_sent (s : State) (k nln : Nat) : LinkSent s (s.syncHub k nln) :=
  LinkSent.foldl _ (fun s n => sendSync_sent s n nln) _ _

/-! ### A lane becomes READY (R188, R205) -/

/-- What the hub of a lane keeps of its assignment, and the lane of its state, while it comes online. -/
structure HubKept (s t : State) (n : Fin 32) : Prop where
  stat : t.reg (DL_LANE_STAT n) = s.reg (DL_LANE_STAT n)
  mode : t.hubMode (n.val / 2) = s.hubMode (n.val / 2)
  toSend : (t.hubAt (n.val / 2)).toSend = (s.hubAt (n.val / 2)).toSend

theorem HubKept.trans {s t u : State} {n : Fin 32} (h : HubKept s t n) (k : HubKept t u n) : HubKept s u n :=
  ⟨k.stat.trans h.stat, k.mode.trans h.mode, k.toSend.trans h.toSend⟩

theorem LinkSent.hubKept {s t : State} (h : LinkSent s t) (n : Fin 32) : HubKept s t n := by
  refine ⟨reg_of_regs h.1 _, fld_of_reg _ (reg_of_regs h.1 _), ?_⟩
  unfold State.hubAt
  rw [h.2]

theorem LinkSent.hubOnline {s t : State} (h : LinkSent s t) (k : Nat) : t.hubOnline k = s.hubOnline k :=
  bit_of_reg _ (reg_of_regs h.1 _)

theorem hubStat_notReport (k : Fin 16) : DL_HUB_STAT k ∉ reportRegs [BLK_DL] :=
  dlNotReport (by unfold DL_HUB_STAT; omega) (by unfold DL_HUB_STAT; omega)

/-- The hub of a READY lane is online from then on. -/
theorem goOnline_shows (s : State) (n : Fin 32) :
    HubKept s (s.goOnline (n.val / 2)) n ∧ (s.goOnline (n.val / 2)).hubOnline (n.val / 2) = true := by
  obtain ⟨p, hp⟩ : ∃ p, (s.onHub (n.val / 2) fun h => { h with heard := s.now }) = p := ⟨_, rfl⟩
  have heard : HubKept s p n := by
    rw [← hp]
    exact ⟨rfl, rfl, by rw [hubAt_onHub_same]⟩
  unfold State.goOnline
  dsimp only
  rw [hp]
  split
  · next online => exact ⟨heard, online⟩
  · obtain ⟨q, hq⟩ : ∃ q, p.setFld (DL_HUB_STAT (n.val / 2)) DL_HUB_STAT_ONLINE 1 = q := ⟨_, rfl⟩
    have hubStat := hubStat_notReport ⟨n.val / 2, laneHub_lt n⟩
    have online : q.hubOnline (n.val / 2) = true := hq ▸ bit_setFld_set p _ _ rfl (by decide)
    have set : HubKept p q n := by
      rw [← hq]
      exact ⟨reg_setFld_other _ _ _ _ _ (by unfold DL_LANE_STAT DL_HUB_STAT; omega), fld_setFld_field p _ _ _ _ (.inr (by decide)), rfl⟩
    have evt : HubKept q (q.setEvt BLK_DL 4) n := by
      refine ⟨reg_setEvt_of_notMem _ _ _ _ (laneStat_notReport n), fld_of_reg _ (reg_setEvt_of_notMem _ _ _ _ hubStat), ?_⟩
      rw [hubAt_of_dl (setEvt_quiet _ _ _).dl]
    have evtOnline : (q.setEvt BLK_DL 4).hubOnline (n.val / 2) = true :=
      (bit_of_reg _ (reg_setEvt_of_notMem _ _ _ _ hubStat)).trans online
    rw [hq]
    generalize q.setEvt BLK_DL 4 = e at *
    have fracs : LinkSent e ((e.readyLanes (n.val / 2)).foldl (fun s n => s.sendFracsNow n) e) :=
      LinkSent.foldl _ (fun s m => sendFracsNow_sent s m) _ _
    have sent : LinkSent e (((e.readyLanes (n.val / 2)).foldl (fun s n => s.sendFracsNow n) e).syncHub (n.val / 2)
        (State.lnAhead ((e.readyLanes (n.val / 2)).foldl (fun s n => s.sendFracsNow n) e) 2)) := fracs.trans (syncHub_sent _ _ _)
    exact ⟨((heard.trans set).trans evt).trans (sent.hubKept n), (sent.hubOnline _).trans evtOnline⟩

theorem soloMode_lt (n : Nat) : soloMode n < 2 ^ DL_HUB_STAT_MODE.w := by
  unfold soloMode
  change 1 + n % 2 < 4
  omega

theorem hubMode_setMode (s : State) (k : Nat) {v : Nat} (h : v < 2 ^ DL_HUB_STAT_MODE.w) : (s.setMode k v).hubMode k = v :=
  (fld_setFld_same s _ _ _ (by decide)).trans (Nat.mod_eq_of_lt h)

section
variable {s : State} {n : Fin 32}

theorem laneUp_shows :
    (s.laneUp n).laneReady n = true ∧ (s.laneUp n).hubOnline (n.val / 2) = true ∧
    (s.laneReady (partner n) = true → ((s.laneUp n).hubAt (n.val / 2)).toSend = some 0) ∧
    (s.laneReady (partner n) = false → (s.laneUp n).hubMode (n.val / 2) = soloMode n) := by
  obtain ⟨p, hp⟩ : ∃ p, ((s.lanePhase n 6 [idleBlock]).clearEvents (winKey 0x1281 n)).onLane n (fun l => { l with
    align := false, rejoin := false,
    joined := if l.rejoin then some ((s.lanePhase n 6 [idleBlock]).clearEvents (winKey 0x1281 n)).now else none }) = p := ⟨_, rfl⟩
  have regs : p.regs = (s.lanePhase n 6 [idleBlock]).regs := by rw [← hp]; rfl
  have state : p.laneState n = 6 := (fld_of_reg _ (reg_of_regs regs _)).trans (lanePhase_state s n (by decide) _)
  have other : p.laneReady (partner n) = s.laneReady (partner n) :=
    laneReady_of_reg ((reg_of_regs regs _).trans (reg_setFld_other s _ _ _ _ (laneStat_ne (partner_ne n))))
  obtain ⟨q, hq⟩ : ∃ q, (if p.laneReady (partner n) = true then p.onHub (n.val / 2) (fun h => { h with toSend := some 0 })
    else p.setMode (n.val / 2) (soloMode n)) = q := ⟨_, rfl⟩
  have stat : q.laneState n = 6 := by
    rw [← hq]
    split
    · exact state
    · exact (laneState_of_reg (reg_setFld_other p _ _ _ _ (by unfold DL_LANE_STAT DL_HUB_STAT; omega))).trans state
  have both : s.laneReady (partner n) = true → (q.hubAt (n.val / 2)).toSend = some 0 := fun h => by
    rw [← hq, other, if_pos h, hubAt_onHub_same]
  have alone : s.laneReady (partner n) = false → q.hubMode (n.val / 2) = soloMode n := fun h => by
    rw [← hq, other, if_neg (by rw [h]; decide)]
    exact hubMode_setMode p _ (soloMode_lt n)
  have up : s.laneUp n = if q.hubOnline (n.val / 2) then q.sendFracsNow n else q.goOnline (n.val / 2) := by
    rw [← hq, ← hp, State.laneUp]
  rw [up]
  have ends : ∀ t, HubKept q t n → t.hubOnline (n.val / 2) = true → t.laneReady n = true ∧ t.hubOnline (n.val / 2) = true ∧
      (s.laneReady (partner n) = true → (t.hubAt (n.val / 2)).toSend = some 0) ∧
      (s.laneReady (partner n) = false → t.hubMode (n.val / 2) = soloMode n) := fun t kept online =>
    ⟨laneReady_iff.2 ((laneState_of_reg kept.stat).trans stat), online, fun h => kept.toSend.trans (both h),
      fun h => kept.mode.trans (alone h)⟩
  split
  · next online => exact ends _ ((sendFracsNow_sent q n).hubKept n) (((sendFracsNow_sent q n).hubOnline _).trans online)
  · exact ends _ (goOnline_shows q n).1 (goOnline_shows q n).2

/-- R188, R189: how the phases of a bring-up end. -/
theorem phases_complete : phasesComplete s n := by
  unfold phasesComplete
  intro ended
  have plain : ∀ {t : State} {st : Nat} {ctl : List Nat}, exec (.phaseComplete n) s = .next t → PhaseEnded s t n st ctl → ended t st ctl :=
    fun run ends => ⟨run, ends⟩
  refine ⟨fun h => ⟨_, plain (phase1_completes h) (lanePhase_ends laneClear_only (by decide) _)⟩, fun h => ?_, fun h few => ?_,
    caps_held, fun h => ?_, fun h early => ?_, fun h aligned => ?_⟩
  · have run := phase2_completes h
    split
    · next lock => exact ⟨_, plain (run.trans (congrArg _ (if_pos lock))) (lanePhase_ends (laneOnly_refl s n) (by decide) _)⟩
    · next hunting => exact run.trans (congrArg _ (if_neg hunting))
  · obtain ⟨i, less⟩ := few
    rw [phase3_completes h, if_neg fun done => absurd ((capsDone_iff _).1 done i) (by omega)]
  · have run := phase4_completes h
    split
    · next there => exact ⟨_, plain (run.trans (congrArg _ (if_pos there))) (lanePhase_ends (laneOnly_refl s n) (by decide) _)⟩
    · next away => exact run.trans (congrArg _ (if_neg away))
  · have run := phase5_completes h early
    split
    · next lock => exact ⟨_, plain (run.trans (congrArg _ (if_pos lock))) phase5_ends.1, phase5_ends.2⟩
    · next hunting => exact run.trans (congrArg _ (if_neg hunting))
  · have run := phase6_completes h aligned
    split
    · next synced => exact ⟨_, run.trans (congrArg _ (if_pos synced)), laneUp_shows⟩
    · next waits => exact run.trans (congrArg _ (if_neg waits))

end

end Sys2Proof.Machine

namespace Sys2Proof.Machine

/-! ### What a lane's failure leaves while its reports and its partner are seen to (R202, R437) -/

/-- A fault never takes back that a queue has lost one. -/
theorem blkLoss_fault (s : State) (code : BitVec 16) (inst info : Nat) {b : Nat} (h : s.si.blkLoss.get false b = true) :
    (s.fault code inst info).si.blkLoss.get false b = true := by
  have queued : ∀ (u : State) (f : FaultIn), u.si.blkLoss.get false b = true → (u.queueFault f).si.blkLoss.get false b = true := by
    intro u f hu
    unfold State.queueFault
    dsimp only
    split
    · exact hu
    · rw [setEvt_si]
      change (u.si.blkLoss.set false (codeBlk f.code) true).get false b = true
      rw [Tbl.get_set]
      split
      · rfl
      · exact hu
  have raised : ∀ (u : State) (lasting : Bool), u.si.blkLoss.get false b = true →
      (u.raiseWith code inst info lasting).si.blkLoss.get false b = true := by
    intro u lasting hu
    unfold State.raiseWith
    dsimp only
    split
    · exact queued _ _ hu
    · exact queued _ _ hu
  unfold State.fault
  split
  · exact raised _ _ h
  · exact raised _ _ h

/-- The link's queue of faults, and what its loss shows, are kept. -/
def DlReportsKept (s t : State) : Prop :=
  t.si.queues.get [] 0xA = s.si.queues.get [] 0xA ∧ (s.si.blkLoss.get false 0xA = true → t.si.blkLoss.get false 0xA = true)

theorem DlReportsKept.of_si {s t : State} (h : t.si = s.si) : DlReportsKept s t := by
  unfold DlReportsKept
  rw [h]
  exact ⟨rfl, id⟩

theorem DlReportsKept.trans {s t u : State} (h : DlReportsKept s t) (k : DlReportsKept t u) : DlReportsKept s u :=
  ⟨k.1.trans h.1, fun l => k.2 (h.2 l)⟩

/-- A report of the link stands while others are queued. -/
theorem DlReportsKept.reported {s t u : State} {code : BitVec 16} {inst : BitVec 8} {info : BitVec 48} (h : DlReportsKept t u)
    (blk : codeBlk code = 0xA) (r : Reported s t code inst info) : Reported s u code inst info := by
  obtain ⟨queues, loss⟩ := h
  unfold Reported at r ⊢
  rw [blk] at r ⊢
  dsimp only at r ⊢
  split at r
  · next room => rw [if_pos room, queues]; exact r
  · next full => rw [if_neg full]; exact loss r

/-- What a lane shows of its failure stands: its state and that of its hub, its packets, and the reports of the link. -/
structure LaneKept (n : Fin 32) (s t : State) : Prop where
  stat : t.reg (DL_LANE_STAT n) = s.reg (DL_LANE_STAT n)
  hubStat : t.reg (DL_HUB_STAT (n.val / 2)) = s.reg (DL_HUB_STAT (n.val / 2))
  toSend : (t.hubAt (n.val / 2)).toSend = (s.hubAt (n.val / 2)).toSend
  queue : (t.laneAt n).queue = (s.laneAt n).queue
  window : (s.laneAt n).window = [] → (t.laneAt n).window = []
  event : EventSet s BLK_DL 1 → EventSet t BLK_DL 1
  reports : DlReportsKept s t

theorem LaneKept.refl (n : Fin 32) (s : State) : LaneKept n s s := ⟨rfl, rfl, rfl, rfl, id, id, .of_si rfl⟩

theorem LaneKept.trans {n : Fin 32} {s t u : State} (h : LaneKept n s t) (k : LaneKept n t u) : LaneKept n s u :=
  ⟨k.stat.trans h.stat, k.hubStat.trans h.hubStat, k.toSend.trans h.toSend, k.queue.trans h.queue, fun w => k.window (h.window w),
    fun e => k.event (h.event e), h.reports.trans k.reports⟩

/-- What changes neither the link nor its registers and reports. -/
theorem LaneKept.of_dl {n : Fin 32} {s t : State} (dl : t.dl = s.dl) (regs : ∀ off, 0xA00180 ≤ off → off < 0xA00240 → t.reg off = s.reg off)
    (event : EventSet s BLK_DL 1 → EventSet t BLK_DL 1) (reports : DlReportsKept s t) : LaneKept n s t :=
  ⟨regs _ (by unfold DL_LANE_STAT; omega) (by unfold DL_LANE_STAT; omega),
    regs _ (by unfold DL_HUB_STAT; omega) (by unfold DL_HUB_STAT; omega), by rw [hubAt_of_dl dl], by rw [laneAt_of_dl dl],
    by rw [laneAt_of_dl dl]; exact id, event, reports⟩

theorem dlReportsKept_setEvt (s : State) (blk n : Nat) : DlReportsKept s (s.setEvt blk n) := by
  unfold DlReportsKept
  rw [setEvt_si]
  exact ⟨rfl, id⟩

theorem laneKept_tests (n : Fin 32) : KeptByTests (LaneKept n) where
  refl := LaneKept.refl n
  trans _ _ _ := LaneKept.trans
  setReg s off v ho := LaneKept.of_dl rfl (fun o _ hi => reg_setReg_other s off o v (by omega))
    (fun e => EventSet.setReg e (by change 0xA00020 ≠ off; omega)) (.of_si rfl)
  setEvt s k := LaneKept.of_dl (setEvt_quiet _ _ _).dl
    (fun o lo hi => reg_setEvt_of_notMem _ _ _ _ (notMem_reportRegs_one (b := BLK_ST) 0x1800020 rfl (by omega)))
    (fun e => EventSet.setEvt _ _ e) (dlReportsKept_setEvt _ _ _)
  fault s inst info := LaneKept.of_dl (fault_quiet _ _ _ _).dl (fun o lo hi => reg_fault _ _ _ _ _ (dlNotFault (by omega) (by omega)))
    (fun e => EventSet.fault _ _ _ e) ⟨queues_fault_other _ _ _ _ (by decide), blkLoss_fault _ _ _ _⟩
  draw _ := LaneKept.of_dl rfl (fun _ _ _ => rfl) id (.of_si rfl)
  onSt _ _ := LaneKept.of_dl rfl (fun _ _ _ => rfl) id (.of_si rfl)

/-- What acts on other lanes alone. -/
theorem laneKept_onOther (n : Fin 32) (s : State) {m : Nat} (h : n.val ≠ m) (f : LaneSt → LaneSt) : LaneKept n s (s.onLane m f) :=
  have same : (s.onLane m f).laneAt n = s.laneAt n := laneAt_onLane_other _ _ h
  ⟨rfl, rfl, rfl, by rw [same], by rw [same]; exact id, id, .of_si rfl⟩

/-- Packets of the window leave their places. -/
theorem laneKept_filter (n : Fin 32) (s : State) (m : Nat) (keep : Sent → Bool) :
    LaneKept n s (s.onLane m fun l => { l with window := l.window.filter keep }) := by
  by_cases h : n.val = m
  · rw [← h]
    refine ⟨rfl, rfl, rfl, ?_, fun w => ?_, id, .of_si rfl⟩
    · rw [laneAt_onLane_same]
    · rw [laneAt_onLane_same]
      dsimp only
      rw [w]
      rfl
  · exact laneKept_onOther n s h _

theorem sendDose_kept (n : Fin 32) (s : State) (p : DosePkt) (rpl : Bool) : LaneKept n s (s.sendDose (partner n) p rpl) := by
  obtain ⟨a, ha⟩ : ∃ a, s.storeBytes (replayAddr p.slot p.fln) p.payload = a := ⟨_, rfl⟩
  have first : LaneKept n s a := ha ▸ LaneKept.of_dl rfl (fun _ _ _ => rfl) id (.of_si rfl)
  obtain ⟨b, hb⟩ : ∃ b, (a.onLane (partner n) fun l => { l with window := l.window.filter (keptBy p.slot p.fln) }).onLane
    (partner (partner n)) (fun l => { l with window := l.window.filter (keptBy p.slot p.fln) }) = b := ⟨_, rfl⟩
  have second : LaneKept n a b := hb ▸ (laneKept_filter n a _ _).trans (laneKept_filter n _ _ _)
  unfold State.sendDose
  dsimp only
  rw [ha, hb]
  have third := fun f => laneKept_onOther n b (partner_ne n).symm f
  split
  · refine (first.trans second).trans ((third _).trans (LaneKept.of_dl rfl (fun o lo _ => ?_) (fun e => ?_) (.of_si rfl)))
    · exact reg_setReg_other _ _ _ _ (by unfold DL_CNT; omega)
    · exact EventSet.setReg e (by change 0xA00020 ≠ DL_CNT 1; decide)
  · exact (first.trans second).trans (third _)

/-- Another lane of the link changes alone. -/
theorem laneOnly_kept {n m : Fin 32} {s t : State} (h : laneOnly s t m) (ne : n ≠ m) : LaneKept n s t := by
  obtain ⟨same, regs, rest⟩ := h
  have ne' : n.val ≠ m.val := fun e => ne (Fin.ext e)
  have reg : ∀ off, off ≠ DL_LANE_STAT m → t.reg off = s.reg off := fun off ho => regs off (by simpa using ho)
  refine ⟨reg _ (laneStat_ne ne'), reg _ (by unfold DL_HUB_STAT DL_LANE_STAT; omega), ?_, ?_, ?_, fun e => ?_, ?_⟩
  · rw [same]; rfl
  · rw [rest n ne']
  · rw [rest n ne']; exact id
  · exact EventSet.of_reg e (reg _ (by change 0xA00020 ≠ _; unfold DL_LANE_STAT; omega))
  · exact .of_si (by rw [same])

/-! ### Failure (R202) -/

/-- The lane's failure is shown on it: its state, and its packets dropped. -/
def State.laneDown (s : State) (n : Nat) : State :=
  let soon := match (s.laneAt n).joined with | some t => decide (s.now - t < ticksSec) | none => false
  (s.lanePhase n 7 []).onLane n fun l => { l with queue := [], window := [], restart := !soon, syncErr := false }

/-- A configuration write in progress on the lane is lost. -/
def State.cfgwLost (s : State) (n : Nat) : State :=
  if s.bit (DL_CFGW_STAT (n / 2)) DL_CFGW_STAT_BUSY && (s.hubAt (n / 2)).cfgwLane == n then
    (s.setFld (DL_CFGW_STAT (n / 2)) DL_CFGW_STAT_BUSY 0).setFld (DL_CFGW_STAT (n / 2)) DL_CFGW_STAT_LOST 1
  else s

/-- The hub takes the mode of its other lane, which gets the packets; or it has none. -/
def State.hubFailsOver (s : State) (n : Nat) (pkts queue : List DosePkt) : State :=
  if s.laneReady (partner n) then
    ((pkts.foldl (fun s p => s.sendDose (partner n) p true) ((s.setMode (n / 2) (soloMode (partner n))).onHub (n / 2) fun h =>
      { h with toSend := some (soloMode (partner n)), assign := none })).onLane (partner n) fun l' =>
        { l' with queue := sortPkts (l'.queue ++ queue) })
  else (s.setMode (n / 2) 3).onHub (n / 2) fun h => { h with toSend := none, assign := none }

/-- The tests of the lane and of its partner are abandoned; the partner begins bring-up (R437). -/
def State.laneTestsEnd (s : State) (n : Nat) : State :=
  let s := s.abandonTest (148 + n)
  if s.unit (148 + partner n) = 1 then
    let s := s.abandonTest (148 + partner n)
    if s.laneReady (partner n) then s else s.laneBegin (partner n) false
  else s

theorem laneFail_eq (s : State) (n : Nat) : s.laneFail n =
    State.laneTestsEnd (((((s.laneDown n).cfgwLost n).hubFailsOver n (sortPkts ((s.laneAt n).window.filterMap s.replayPkt))
      (s.laneAt n).queue).setEvt BLK_DL 1).fault 0x2283 n) n := by
  unfold State.laneFail State.laneTestsEnd State.hubFailsOver State.cfgwLost State.laneDown
  rfl

theorem laneTestsEnd_kept (n : Fin 32) (s : State) : LaneKept n s (s.laneTestsEnd n) := by
  have first := (laneKept_tests n).abandonTest s (u := 148 + n) (by omega)
  unfold State.laneTestsEnd
  dsimp only
  split
  · have second := first.trans ((laneKept_tests n).abandonTest (s.abandonTest (148 + n)) (u := 148 + partner n) (by omega))
    split
    · exact second
    · refine second.trans ?_
      let m : Fin 32 := ⟨partner n, partner_lt n.isLt⟩
      exact laneOnly_kept (m := m) (laneBegin_begins _ m false).1 fun e => partner_ne n (congrArg Fin.val e).symm
  · exact first

/-- A lane has failed. -/
structure LaneFailed (s t : State) (n : Fin 32) : Prop where
  stat : ∀ f : Fld, 3 ≤ f.lo → t.fld (DL_LANE_STAT n) f = s.fld (DL_LANE_STAT n) f
  state : t.laneState n = 7
  queue : (t.laneAt n).queue = []
  window : (t.laneAt n).window = []
  hub : if s.laneReady (partner n) = true then t.hubMode (n.val / 2) = soloMode (partner n) ∧
      (t.hubAt (n.val / 2)).toSend = some (soloMode (partner n))
    else t.hubMode (n.val / 2) = 3 ∧ (t.hubAt (n.val / 2)).toSend = none
  event : EventSet t BLK_DL 1
  reported : Reported s t 0x2283 (BitVec.ofNat 8 n) 0

theorem laneDown_shows (s : State) (n : Fin 32) :
    laneOnly s (s.laneDown n) n ∧ (s.laneDown n).laneState n = 7 ∧
    (∀ f : Fld, 3 ≤ f.lo → (s.laneDown n).fld (DL_LANE_STAT n) f = s.fld (DL_LANE_STAT n) f) ∧
    ((s.laneDown n).laneAt n).queue = [] ∧ ((s.laneDown n).laneAt n).window = [] := by
  unfold State.laneDown
  dsimp only
  refine ⟨laneOnly_onLane (laneOnly_lanePhase (laneOnly_refl s n) _ _) _, lanePhase_state s n (by decide) [],
    fun f hf => lanePhase_fld s n 7 [] hf, ?_, ?_⟩
  · rw [laneAt_onLane_same]
  · rw [laneAt_onLane_same]

theorem cfgwLost_shows (s : State) (n : Fin 32) :
    (s.cfgwLost n).dl = s.dl ∧ (s.cfgwLost n).si = s.si ∧ ∀ off, off < 0xA0030C → (s.cfgwLost n).reg off = s.reg off := by
  unfold State.cfgwLost
  split
  · refine ⟨rfl, rfl, fun off lo => ?_⟩
    have away : off ≠ DL_CFGW_STAT (n.val / 2) := by unfold DL_CFGW_STAT; omega
    exact (reg_setFld_other _ _ _ _ _ away).trans (reg_setFld_other _ _ _ _ _ away)
  · exact ⟨rfl, rfl, fun _ _ => rfl⟩

theorem hubFailsOver_shows (s : State) (n : Fin 32) (pkts queue : List DosePkt) :
    let t := s.hubFailsOver n pkts queue
    (t.reg (DL_LANE_STAT n) = s.reg (DL_LANE_STAT n)) ∧ (t.laneAt n).queue = (s.laneAt n).queue ∧
    ((s.laneAt n).window = [] → (t.laneAt n).window = []) ∧ DlReportsKept s t ∧
    (if s.laneReady (partner n) = true then t.hubMode (n.val / 2) = soloMode (partner n) ∧
      (t.hubAt (n.val / 2)).toSend = some (soloMode (partner n))
    else t.hubMode (n.val / 2) = 3 ∧ (t.hubAt (n.val / 2)).toSend = none) := by
  have away : DL_LANE_STAT n ≠ DL_HUB_STAT (n.val / 2) := by unfold DL_LANE_STAT DL_HUB_STAT; omega
  unfold State.hubFailsOver
  dsimp only
  split
  · obtain ⟨a, ha⟩ : ∃ a, (s.setMode (n.val / 2) (soloMode (partner n))).onHub (n.val / 2) (fun h =>
      { h with toSend := some (soloMode (partner n)), assign := none }) = a := ⟨_, rfl⟩
    have stat : a.reg (DL_LANE_STAT n) = s.reg (DL_LANE_STAT n) := ha ▸ reg_setFld_other s _ _ _ _ away
    have lanes : a.laneAt n = s.laneAt n := by rw [← ha]; rfl
    have mode : a.hubMode (n.val / 2) = soloMode (partner n) := ha ▸ hubMode_setMode s _ (soloMode_lt _)
    have toSend : (a.hubAt (n.val / 2)).toSend = some (soloMode (partner n)) := by rw [← ha, hubAt_onHub_same]
    have si : a.si = s.si := by rw [← ha]; rfl
    rw [ha]
    obtain ⟨stat', hubStat, toSend', queue', window, -, reports⟩ :=
      (foldl_keeps (LaneKept n) (LaneKept.refl n) (fun _ _ _ => LaneKept.trans) (fun s p => s.sendDose (partner n) p true)
        (fun s p => sendDose_kept n s p true) pkts a).trans (laneKept_onOther n _ (partner_ne n).symm _)
    refine ⟨stat'.trans stat, queue'.trans (by rw [lanes]), fun w => window (by rw [lanes]; exact w), (DlReportsKept.of_si si).trans reports, ?_, ?_⟩
    · exact (fld_of_reg _ hubStat).trans mode
    · exact toSend'.trans toSend
  · refine ⟨reg_setFld_other s _ _ _ _ away, rfl, id, .of_si rfl, hubMode_setMode s _ (by decide), ?_⟩
    rw [hubAt_onHub_same]

theorem laneFail_fails (s : State) (n : Fin 32) : LaneFailed s (s.laneFail n) n := by
  rw [laneFail_eq]
  generalize sortPkts ((s.laneAt n).window.filterMap s.replayPkt) = pkts
  generalize (s.laneAt n).queue = waiting
  obtain ⟨only, state, stat, queue, window⟩ := laneDown_shows s n
  have partnerStat : (s.laneDown n).reg (DL_LANE_STAT (partner n)) = s.reg (DL_LANE_STAT (partner n)) :=
    only.2.1 _ (by simpa using laneStat_ne (partner_ne n))
  have si := laneOnly_si only
  generalize s.laneDown n = a at *
  obtain ⟨dl, si', regs⟩ := cfgwLost_shows a n
  have low : ∀ m < 32, DL_LANE_STAT m < 0xA0030C := fun m hm => by unfold DL_LANE_STAT; omega
  have stat' := regs _ (low n n.isLt)
  have partnerStat' := regs _ (low _ (partner_lt n.isLt))
  generalize a.cfgwLost n = b at *
  obtain ⟨stat'', queue', window', reports, hub⟩ := hubFailsOver_shows b n pkts waiting
  rw [laneReady_of_reg (partnerStat'.trans partnerStat)] at hub
  generalize b.hubFailsOver n pkts waiting = c at *
  have frame : Frame c ((c.setEvt BLK_DL 1).fault 0x2283 n) [] [BLK_DL] := ((Frame.refl c _ _).setEvt (by simp)).fault
  have event : EventSet ((c.setEvt BLK_DL 1).fault 0x2283 n) BLK_DL 1 := EventSet.fault _ _ _ (setEvt_eventSet _ _ _ (by decide))
  have reported : Reported c ((c.setEvt BLK_DL 1).fault 0x2283 n) 0x2283 (BitVec.ofNat 8 n) 0 :=
    Reported.from (fault_reported _ _ _ _) (by rw [setEvt_si])
  generalize (c.setEvt BLK_DL 1).fault 0x2283 n = d at *
  have kept := laneTestsEnd_kept n d
  generalize d.laneTestsEnd n = t at *
  have laneStat : t.reg (DL_LANE_STAT n) = a.reg (DL_LANE_STAT n) :=
    ((kept.stat.trans (frame.reg (by simp) (laneStat_notReport n))).trans stat'').trans stat'
  have hubStat : t.reg (DL_HUB_STAT (n.val / 2)) = c.reg (DL_HUB_STAT (n.val / 2)) :=
    kept.hubStat.trans (frame.reg (by simp) (hubStat_notReport ⟨n.val / 2, laneHub_lt n⟩))
  have toSend : (t.hubAt (n.val / 2)).toSend = (c.hubAt (n.val / 2)).toSend := kept.toSend.trans (by rw [hubAt_of_dl frame.1.dl])
  have lane : d.laneAt n = c.laneAt n := laneAt_of_dl frame.1.dl n
  have lane' : b.laneAt n = a.laneAt n := laneAt_of_dl dl n
  refine ⟨fun f hf => (fld_of_reg f laneStat).trans (stat f hf), (laneState_of_reg laneStat).trans state, ?_, ?_, ?_, kept.event event, ?_⟩
  · rw [kept.queue, lane, queue', lane', queue]
  · exact kept.window (by rw [lane]; exact window' (by rw [lane']; exact window))
  · rw [toSend, show t.hubMode (n.val / 2) = c.hubMode (n.val / 2) from fld_of_reg _ hubStat]
    exact hub
  · refine Reported.from_queue (kept.reports.reported rfl reported) ?_
    change c.si.queues.get [] 0xA = s.si.queues.get [] 0xA
    rw [reports.1, si', si]

end Sys2Proof.Machine

namespace Sys2Proof.Machine

/-! ### Lanes that are enabled and disabled (R188) -/

theorem regDef_DL_LANE_CFG : ∀ n : Fin 32, ∃ d, regDef? (DL_LANE_CFG n) = some d ∧ d.rw = 7 ∧ d.rwl = 0 ∧ d.w1c = 0 := by decide

theorem laneCfg_typed (s : State) (n : Fin 32) (v : Word) :
    s.typedWrite (DL_LANE_CFG n) v = s.setReg (DL_LANE_CFG n) (merged 7 (s.reg (DL_LANE_CFG n)) v) := by
  obtain ⟨d, hd, rw_, rwl, w1c⟩ := regDef_DL_LANE_CFG n
  rw [typedWrite_plain s v hd rwl w1c, rw_]

/-- DL_LANE_CFG written, before the lane follows. -/
def State.laneCfgTyped (s : State) (n : Nat) (v : Word) : State := s.typedWrite (DL_LANE_CFG n) v

theorem laneCfgTyped_shows (s : State) (n : Fin 32) (v : Word) :
    s.laneCfgTyped n v = { s with regs := (s.laneCfgTyped n v).regs } ∧ RegsBut s (s.laneCfgTyped n v) [DL_LANE_CFG n] ∧
    (s.laneCfgTyped n v).bit (DL_LANE_CFG n) DL_LANE_CFG_EN = (fldGet DL_LANE_CFG_EN v != 0) := by
  unfold State.laneCfgTyped
  rw [laneCfg_typed]
  refine ⟨rfl, (RegsBut.refl _ _).setReg (by simp), ?_⟩
  unfold State.bit
  rw [fld_setReg_same, fldGet_merged (by decide) (by decide)]

section
variable {s : State} {n : Fin 32} {v : Word}

theorem laneEnable_awake (awake : s.awake BLK_DL = true) : exec (.laneEnable n v) s = .next (s.laneCfgWrite n v) := by
  have block : DL_LANE_CFG n / 0x100000 = BLK_DL := by
    unfold DL_LANE_CFG BLK_DL
    omega
  exact congrArg Host.Outcome.next (whenAwake_awake s (off := DL_LANE_CFG n) (by rw [block]; exact awake))

/-- A lane that is enabled. -/
theorem laneCfgWrite_starts (off : s.bit (DL_LANE_CFG n) DL_LANE_CFG_EN = false) (on : fldGet DL_LANE_CFG_EN v = 1) :
    s.laneCfgWrite n v = if (s.laneCfgTyped n v).unit (148 + n) = 0 then (s.laneCfgTyped n v).laneBegin n false else s.laneCfgTyped n v := by
  have en : (s.laneCfgTyped n v).bit (DL_LANE_CFG n) DL_LANE_CFG_EN = true := by rw [(laneCfgTyped_shows s n v).2.2, on]; rfl
  unfold State.laneCfgWrite
  dsimp only
  rw [off, show s.typedWrite (DL_LANE_CFG n) v = s.laneCfgTyped n v from rfl, en]

/-- A lane that is disabled. -/
theorem laneCfgWrite_stops (on : s.bit (DL_LANE_CFG n) DL_LANE_CFG_EN = true) (off : fldGet DL_LANE_CFG_EN v = 0) :
    s.laneCfgWrite n v = ((if (s.laneCfgTyped n v).laneReady n then (s.laneCfgTyped n v).laneFail n else s.laneCfgTyped n v).lanePhase
      n 0 []).onLane n (fun l => { l with restart := false, align := false }) := by
  have en : (s.laneCfgTyped n v).bit (DL_LANE_CFG n) DL_LANE_CFG_EN = false := by rw [(laneCfgTyped_shows s n v).2.2, off]; rfl
  unfold State.laneCfgWrite
  dsimp only
  rw [on, show s.typedWrite (DL_LANE_CFG n) v = s.laneCfgTyped n v from rfl, en]

theorem laneCfgWrite_same (same : b2n (s.bit (DL_LANE_CFG n) DL_LANE_CFG_EN) = fldGet DL_LANE_CFG_EN v) :
    s.laneCfgWrite n v = s.laneCfgTyped n v := by
  have en := (laneCfgTyped_shows s n v).2.2
  rw [← same] at en
  unfold State.laneCfgWrite
  dsimp only
  rw [show s.typedWrite (DL_LANE_CFG n) v = s.laneCfgTyped n v from rfl, en]
  cases s.bit (DL_LANE_CFG n) DL_LANE_CFG_EN
  · rfl
  · rfl

theorem laneCfgTyped_stat (m : Nat) (hm : m < 32) : (s.laneCfgTyped n v).reg (DL_LANE_STAT m) = s.reg (DL_LANE_STAT m) :=
  (laneCfgTyped_shows s n v).2.1 _ (by rw [List.mem_singleton]; unfold DL_LANE_STAT DL_LANE_CFG; omega)

theorem laneCfgTyped_unit : (s.laneCfgTyped n v).unit (148 + n) = s.unit (148 + n) :=
  unit_of_reg ((laneCfgTyped_shows s n v).2.1 _ (by rw [List.mem_singleton]; unfold ST_USTAT DL_LANE_CFG; omega))

end

/-- R188: a write of DL_LANE_CFG. -/
theorem lane_enabled (s : State) (n : Fin 32) : laneEnabled s n := by
  intro v
  refine ⟨asleep_of_whenAwake rfl, fun awake => ⟨fun off on free => ?_, fun on off => ?_, fun same => ?_⟩⟩
  · have run := (laneEnable_awake awake).trans (congrArg _ ((laneCfgWrite_starts off on).trans
      (if_pos (laneCfgTyped_unit.trans free))))
    obtain ⟨typed, but, -⟩ := laneCfgTyped_shows s n v
    obtain ⟨only, state, lock, tries, lane⟩ := laneBegin_begins (s.laneCfgTyped n v) n false
    refine ⟨_, run, state, lock, tries, ?_, ?_, ?_, ?_⟩
    · rw [lane]; rfl
    · rw [lane]; rfl
    · exact (but.mono (by simp)).trans (only.2.1.mono (by simp))
    · rw [laneOnly_mem only, typed]
  · have run := (laneEnable_awake awake).trans (congrArg _ (laneCfgWrite_stops on off))
    have ready : (s.laneCfgTyped n v).laneReady n = s.laneReady n := laneReady_of_reg (laneCfgTyped_stat n n.isLt)
    obtain ⟨typed, but, -⟩ := laneCfgTyped_shows s n v
    generalize s.laneCfgTyped n v = p at *
    refine ⟨_, run, lanePhase_state _ n (by decide) [], fun was => ?_, fun was => ?_⟩
    · have failed := laneFail_fails p n
      rw [if_pos (ready.trans was), laneAt_onLane_same, lanePhase_lane]
      exact ⟨EventSet.setFld failed.event (by change 0xA00020 ≠ _; unfold DL_LANE_STAT; omega), failed.queue, failed.window⟩
    · rw [if_neg (by rw [ready, was]; decide)]
      have only : laneOnly p ((p.lanePhase n 0 []).onLane n (fun l => { l with restart := false, align := false })) n :=
        laneOnly_onLane (laneOnly_lanePhase (laneOnly_refl p n) _ _) _
      obtain ⟨same, regs, rest⟩ := only
      generalize (p.lanePhase n 0 []).onLane n (fun l => { l with restart := false, align := false }) = t at *
      refine ⟨⟨?_, fun _ _ => rfl, fun m hm => (rest m hm).trans ?_⟩, (but.mono (by simp)).trans (regs.mono (by simp))⟩
      · rw [same, typed]
      · rw [typed]; rfl
  · obtain ⟨typed, but, -⟩ := laneCfgTyped_shows s n v
    have run : exec (.laneEnable n v) s = .next (s.laneCfgTyped n v) := by
      rw [laneEnable_awake awake]
      rcases same with same | ⟨off, out⟩
      · rw [laneCfgWrite_same same]
      · have bit_ : fldGet DL_LANE_CFG_EN v = 0 ∨ fldGet DL_LANE_CFG_EN v = 1 := by
          have := fldGet_lt DL_LANE_CFG_EN v
          change _ < 2 at this
          omega
        rcases bit_ with zero | one
        · rw [laneCfgWrite_same (by rw [off, zero]; rfl)]
        · rw [laneCfgWrite_starts off one, if_neg (by rw [laneCfgTyped_unit]; exact out)]
    exact ⟨_, run, typed, but⟩

/-! ### Lanes that fail (R186, R187, R200, R202) -/

/-- What `readyLanesFail` asks of a failed lane. -/
theorem LaneFailed.shown {s t : State} {n : Fin 32} (h : LaneFailed s t n) :
    t.laneState n = 7 ∧ (t.laneAt n).queue = [] ∧ (t.laneAt n).window = [] ∧
      (if s.laneReady (partner n) = true then
        t.hubMode (n.val / 2) = soloMode (partner n) ∧ (t.hubAt (n.val / 2)).toSend = some (soloMode (partner n))
      else t.hubMode (n.val / 2) = 3 ∧ (t.hubAt (n.val / 2)).toSend = none) ∧
      EventSet t BLK_DL 1 ∧ Reported s t 0x2283 (BitVec.ofNat 8 n) 0 :=
  ⟨h.state, h.queue, h.window, h.hub, h.event, h.reported⟩

/-- A lane that has shown its loss fails as the lane before. -/
theorem laneFail_after (s : State) (n : Fin 32) (f : Fld) (x : Nat) : LaneFailed (s.setFld (DL_LANE_STAT n) f x)
      ((s.setFld (DL_LANE_STAT n) f x).laneFail n) n ∧
    (s.setFld (DL_LANE_STAT n) f x).laneReady (partner n) = s.laneReady (partner n) ∧ (s.setFld (DL_LANE_STAT n) f x).si = s.si :=
  ⟨laneFail_fails _ n, laneReady_of_reg (reg_setFld_other s _ _ _ _ (laneStat_ne (partner_ne n))), rfl⟩

section
variable {s : State} {n : Fin 32}

/-- The loss is shown; a READY lane fails then. -/
theorem loss_fails (ready : s.laneReady n = true) (f : Fld) (x : Nat) (apart : 3 ≤ f.lo) :
    ∃ t, (if (s.setFld (DL_LANE_STAT n) f x).laneReady n = true then (s.setFld (DL_LANE_STAT n) f x).laneFail n
        else s.setFld (DL_LANE_STAT n) f x) = t ∧
      (t.laneState n = 7 ∧ (t.laneAt n).queue = [] ∧ (t.laneAt n).window = [] ∧
      (if s.laneReady (partner n) = true then
        t.hubMode (n.val / 2) = soloMode (partner n) ∧ (t.hubAt (n.val / 2)).toSend = some (soloMode (partner n))
      else t.hubMode (n.val / 2) = 3 ∧ (t.hubAt (n.val / 2)).toSend = none) ∧
      EventSet t BLK_DL 1 ∧ Reported s t 0x2283 (BitVec.ofNat 8 n) 0) ∧
      ∀ g : Fld, 3 ≤ g.lo → t.fld (DL_LANE_STAT n) g = (s.setFld (DL_LANE_STAT n) f x).fld (DL_LANE_STAT n) g := by
  obtain ⟨failed, other, si⟩ := laneFail_after s n f x
  have still : (s.setFld (DL_LANE_STAT n) f x).laneReady n = true := by
    rw [laneReady_iff]
    exact (fld_setFld_field s _ f DL_LANE_STAT_STATE x (.inl apart)).trans (laneReady_iff.1 ready)
  obtain ⟨state, queue, window, hub, event, reported⟩ := failed.shown
  rw [if_pos still]
  rw [other] at hub
  exact ⟨_, rfl, ⟨state, queue, window, hub, event, Reported.from reported (congrArg _ si.symm)⟩, failed.stat⟩

theorem loss_shown (notReady : s.laneReady n = false) (f : Fld) (x : Nat) (apart : 3 ≤ f.lo) :
    (if (s.setFld (DL_LANE_STAT n) f x).laneReady n = true then (s.setFld (DL_LANE_STAT n) f x).laneFail n
        else s.setFld (DL_LANE_STAT n) f x) = s.setFld (DL_LANE_STAT n) f x ∧
    s.setFld (DL_LANE_STAT n) f x = { s with regs := (s.setFld (DL_LANE_STAT n) f x).regs } ∧
    RegsBut s (s.setFld (DL_LANE_STAT n) f x) [DL_LANE_STAT n] := by
  have still : (s.setFld (DL_LANE_STAT n) f x).laneReady n = s.laneReady n := by
    unfold State.laneReady
    rw [show (s.setFld (DL_LANE_STAT n) f x).laneState n = s.laneState n from
      fld_setFld_field s _ f DL_LANE_STAT_STATE x (.inl apart)]
  exact ⟨if_neg (by rw [still, notReady]; decide), rfl, (RegsBut.refl _ _).setFld (by simp)⟩

theorem lossOfLock_eq (lock : s.laneLock n = true) : exec (.lossOfLock n) s = .next (
    if (s.setFld (DL_LANE_STAT n) DL_LANE_STAT_LOCK 0).laneReady n = true then (s.setFld (DL_LANE_STAT n) DL_LANE_STAT_LOCK 0).laneFail n
    else s.setFld (DL_LANE_STAT n) DL_LANE_STAT_LOCK 0) := by
  change Host.Outcome.next (if (!s.laneLock n) = true then s else _) = _
  rw [if_neg (by rw [lock]; decide)]

theorem overdue_eq : exec (.overdue n) s = .next (
    if (s.laneReady n && (s.laneAt n).window.any (fun e => decide (e.due ≤ 16 * s.now))) = true then s.laneFail n else s) := rfl

end

theorem ready_lanes_fail : readyLanesFail := by
  intro s n failed shown
  refine ⟨fun ready => ⟨fun lock => ?_, ?_, ?_, fun due => ?_⟩, fun notReady => ⟨fun lock => ?_, ?_, ?_⟩, fun none_ => ?_⟩
  · obtain ⟨t, ht, fails, stat⟩ := loss_fails ready DL_LANE_STAT_LOCK 0 (by decide)
    refine ⟨t, (lossOfLock_eq lock).trans (congrArg _ ht), fails, ?_⟩
    exact (congrArg (· != 0) (stat DL_LANE_STAT_LOCK (by decide))).trans (bit_setFld_clear s _ _ rfl (by decide))
  · obtain ⟨t, ht, fails, -⟩ := loss_fails ready DL_LANE_STAT_LOS 1 (by decide)
    exact ⟨t, congrArg Host.Outcome.next ht, fails⟩
  · obtain ⟨t, ht, fails, -⟩ := loss_fails ready DL_LANE_STAT_CDRL 1 (by decide)
    exact ⟨t, congrArg Host.Outcome.next ht, fails⟩
  · obtain ⟨e, mem, late⟩ := due
    have some_ : (s.laneAt n).window.any (fun e => decide (e.due ≤ 16 * s.now)) = true := List.any_eq_true.2 ⟨e, mem, decide_eq_true late⟩
    exact ⟨_, overdue_eq.trans (congrArg _ (if_pos (by rw [ready, some_]; rfl))), (laneFail_fails s n).shown⟩
  · obtain ⟨run, same, but⟩ := loss_shown notReady DL_LANE_STAT_LOCK 0 (by decide)
    exact ⟨_, (lossOfLock_eq lock).trans (congrArg _ run), ⟨same, but⟩, bit_setFld_clear s _ _ rfl (by decide)⟩
  · obtain ⟨run, same, but⟩ := loss_shown notReady DL_LANE_STAT_LOS 1 (by decide)
    exact ⟨_, congrArg Host.Outcome.next run, ⟨same, but⟩, bit_setFld_set s _ _ rfl (by decide)⟩
  · obtain ⟨run, same, but⟩ := loss_shown notReady DL_LANE_STAT_CDRL 1 (by decide)
    exact ⟨_, congrArg Host.Outcome.next run, ⟨same, but⟩, bit_setFld_set s _ _ rfl (by decide)⟩
  · have all : (s.laneAt n).window.any (fun e => decide (e.due ≤ 16 * s.now)) = false :=
      List.any_eq_false.2 fun e he => by rw [decide_eq_true_eq]; exact Nat.not_le.2 (none_ e he)
    rw [overdue_eq, all, Bool.and_false, if_neg Bool.false_ne_true]

/-- R186, R188, R189: the phases of a bring-up. -/
theorem lane_phases : laneBringUpPhases := by
  intro s n
  refine ⟨lane_enabled s n, phases_complete, fun hunting on => blockLock_shows hunting on,
    fun i v phase lock le clear => ⟨cap_counts phase lock le clear, cap_invalid phase lock le clear⟩,
    fun i v lock out => cap_untimely lock out, rate_retunes, fun b lock short => ⟨fun same => ?_, fun other => ?_⟩,
    ready_syncs, fun lock => ⟨ready_early lock, ready_data lock⟩, fun hunting b => ready_hunting hunting b⟩
  · rw [rate_named lock short, if_pos same]
  · rw [rate_named lock short, if_neg other]
    exact ⟨_, rfl, dlViolation_violates s n 13⟩

/-- Settles O32: the lanes' bring-up by cases of the phase, and a failure through what its reports, the packets sent
again and the partner's bring-up leave of it (`LaneKept`). -/
theorem lanesComeUpAndFail : Obligations.LanesComeUpAndFail := ⟨lane_phases, lane_attempts, ready_lanes_fail⟩

end Sys2Proof.Machine

/-!
O33: the packets that cross the dose link.
-/

namespace Sys2Proof.Machine

section
variable {s : State} {n : Fin 32}

/-! ### Packets to the hub (R191, R197) -/

/-- A plain packet stands in its lane's transmitter. -/
theorem sendPlain_lane (s : State) (n typ : Nat) (body : List Byte) :
    (s.sendPlain n typ body).laneAt n = { s.laneAt n with
      seq := ((s.laneAt n).seq + 1) % 65536, txType := typ, tx := body ++ leBytes 8 (crc32c body).toNat } := laneAt_onLane_same _ _ _

theorem deviceHeartbeat_leaves (ready : s.laneReady n = true) :
    ∃ t, exec (.deviceHeartbeat n) s = .next t ∧ laneOnly s t n ∧ t.regs = s.regs ∧
      (let body := leBytes 8 s.lc.hwm.toNat ++ List.replicate 16 0
       (t.laneAt n).txType = 4 ∧ (t.laneAt n).tx = body ++ leBytes 8 (crc32c body).toNat) := by
  have run : exec (.deviceHeartbeat n) s = .next (s.sendPlain n 4 (leBytes 8 s.lc.hwm.toNat ++ List.replicate 16 0)) := by
    change Host.Outcome.next (if s.laneReady n = true then _ else _) = _
    rw [if_pos ready]
  refine ⟨_, run, laneOnly_onLane (laneOnly_refl s n) _, rfl, ?_, ?_⟩
  · rw [sendPlain_lane]
  · rw [sendPlain_lane]

/-- A DOSE packet that is sent for the first time: the transmitter of its lane. -/
theorem sendDose_lane (s : State) (n : Nat) (p : DosePkt) :
    ((s.sendDose n p false).laneAt n).queue = (s.laneAt n).queue ∧ ((s.sendDose n p false).laneAt n).txType = 1 ∧
    (let body := doseHeader p false (s.laneAt n).seq ++ p.payload
     ((s.sendDose n p false).laneAt n).tx = body ++ leBytes 8 (~~~(crc32cFrom (doseSeed p.fln p.slot) body)).toNat) ∧
    (s.sendDose n p false).regs = s.regs ∧ (s.sendDose n p false).lc = s.lc := by
  obtain ⟨a, ha⟩ : ∃ a, ((s.storeBytes (replayAddr p.slot p.fln) p.payload).onLane n fun l =>
    { l with window := l.window.filter (keptBy p.slot p.fln) }).onLane (partner n) (fun l =>
    { l with window := l.window.filter (keptBy p.slot p.fln) }) = a := ⟨_, rfl⟩
  have lane : a.laneAt n = { s.laneAt n with window := (s.laneAt n).window.filter (keptBy p.slot p.fln) } := by
    rw [← ha, laneAt_onLane_other _ _ (partner_ne n).symm, laneAt_onLane_same]
    rfl
  have regs : a.regs = s.regs ∧ a.lc = s.lc := by
    rw [← ha]
    exact ⟨rfl, rfl⟩
  unfold State.sendDose
  dsimp only
  rw [ha, if_neg Bool.false_ne_true, laneAt_onLane_same, lane]
  exact ⟨rfl, rfl, rfl, regs⟩

theorem dose_leaves {p : DosePkt} {rest : List DosePkt} (ready : s.laneReady n = true) (queue : (s.laneAt n).queue = p :: rest) :
    ∃ t, exec (.dose n) s = .next t ∧ (t.laneAt n).queue = rest ∧ (t.laneAt n).txType = 1 ∧
      (let body := doseHeader p false (s.laneAt n).seq ++ p.payload
       (t.laneAt n).tx = body ++ leBytes 8 (~~~(crc32cFrom (doseSeed p.fln p.slot) body)).toNat) ∧
      t.regs = s.regs ∧ t.lc = s.lc := by
  obtain ⟨a, ha⟩ : ∃ a, (s.onLane n fun l => { l with queue := rest }) = a := ⟨_, rfl⟩
  have run : exec (.dose n) s = .next (a.sendDose n p false) := by
    change execDose n s = _
    unfold execDose
    rw [queue]
    dsimp only
    rw [if_pos ready, ha]
  have lane : a.laneAt n = { s.laneAt n with queue := rest } := ha ▸ laneAt_onLane_same _ _ _
  have same : a.regs = s.regs ∧ a.lc = s.lc := by
    rw [← ha]
    exact ⟨rfl, rfl⟩
  obtain ⟨left, typ, tx, regs, lc⟩ := sendDose_lane a n p
  rw [lane] at left tx
  exact ⟨_, run, left, typ, tx, regs.trans same.1, lc.trans same.2⟩

end

section
variable {s : State} {k : Fin 16}

/-! ### Configuration writes (R195) -/

theorem cfgw_awake {v : Word} (awake : s.awake BLK_DL = true) : exec (.cfgw k v) s = .next (s.cfgwWrite k v) := by
  have block : DL_CFGW k / 0x100000 = BLK_DL := by
    unfold DL_CFGW BLK_DL
    omega
  exact congrArg Host.Outcome.next (whenAwake_awake s (off := DL_CFGW k) (by rw [block]; exact awake))

theorem cfgw_ignored {v : Word} (awake : s.awake BLK_DL = true)
    (idle : v.getLsbD 0 = false ∨ s.bit (DL_CFGW_STAT k) DL_CFGW_STAT_BUSY = true) : exec (.cfgw k v) s = .next s := by
  have no : (v.getLsbD 0 && !s.bit (DL_CFGW_STAT k) DL_CFGW_STAT_BUSY) = false := by
    rcases idle with h | h
    · rw [h, Bool.false_and]
    · rw [h, Bool.not_true, Bool.and_false]
  rw [cfgw_awake awake]
  unfold State.cfgwWrite
  rw [no, if_neg Bool.false_ne_true]

/-- A CTRL packet stands in its lane's transmitter, and waits in its window. -/
theorem sendCtrl_lane (s : State) (n ctype arg count value : Nat) (data : List Byte) (kind : SentKind) :
    ((s.sendCtrl n ctype arg count value data kind).laneAt n).txType = 3 ∧
    ((s.sendCtrl n ctype arg count value data kind).laneAt n).window.length = (s.laneAt n).window.length + 1 ∧
    s.sendCtrl n ctype arg count value data kind = { s with dl := (s.sendCtrl n ctype arg count value data kind).dl } := by
  unfold State.sendCtrl
  dsimp only
  rw [sendPlain_lane, laneAt_onLane_same]
  exact ⟨rfl, List.length_append, rfl⟩

theorem cfgw_sent {v : Word} {m : Nat} {ms : List Nat} (awake : s.awake BLK_DL = true) (go : v.getLsbD 0 = true)
    (idle : s.bit (DL_CFGW_STAT k) DL_CFGW_STAT_BUSY = false) (ready : s.readyLanes k = m :: ms) :
    ∃ t, exec (.cfgw k v) s = .next t ∧ t.bit (DL_CFGW_STAT k) DL_CFGW_STAT_BUSY = true ∧
      t.bit (DL_CFGW_STAT k) DL_CFGW_STAT_LOST = false ∧ (t.hubAt k).cfgwLane = m ∧
      (t.laneAt m).txType = 3 ∧ (t.laneAt m).window.length = (s.laneAt m).window.length + 1 ∧
      t = { s with regs := t.regs, dl := t.dl } ∧ RegsBut s t [DL_CFGW_STAT k] := by
  obtain ⟨a, ha⟩ : ∃ a, s.sendCtrl m 1 0 1 0 (leBytes 4 (s.reg (DL_CFGW_ADDR k)).toNat ++ leBytes 4 (s.reg (DL_CFGW_DATA k)).toNat) .cfgw = a := ⟨_, rfl⟩
  obtain ⟨typ, window, same⟩ := ha ▸ sendCtrl_lane s m 1 0 1 0 (leBytes 4 (s.reg (DL_CFGW_ADDR k)).toNat ++ leBytes 4 (s.reg (DL_CFGW_DATA k)).toNat) .cfgw
  obtain ⟨b, hb⟩ : ∃ b, a.onHub k (fun h => { h with cfgwLane := m }) = b := ⟨_, rfl⟩
  obtain ⟨c, hc⟩ : ∃ c, b.setFld (DL_CFGW_STAT k) DL_CFGW_STAT_BUSY 1 = c := ⟨_, rfl⟩
  have run : exec (.cfgw k v) s = .next (c.setFld (DL_CFGW_STAT k) DL_CFGW_STAT_LOST 0) := by
    rw [cfgw_awake awake]
    unfold State.cfgwWrite
    rw [go, idle, if_pos (show (true && !false) = true from rfl), ready]
    dsimp only
    rw [ha, hb, hc]
  have lane : b.laneAt m = a.laneAt m := by rw [← hb]; rfl
  refine ⟨_, run, ?_, bit_setFld_clear c _ _ rfl (by decide), ?_, ?_, ?_, ?_, ?_⟩
  · exact (congrArg (· != 0) (fld_setFld_field c _ _ _ _ (.inl (by decide)))).trans (hc ▸ bit_setFld_set b _ _ rfl (by decide))
  · change (c.hubAt k).cfgwLane = m
    rw [← hc]
    change (b.hubAt k).cfgwLane = m
    rw [← hb, hubAt_onHub_same]
  · change (c.laneAt m).txType = 3
    rw [← hc]
    change (b.laneAt m).txType = 3
    rw [lane, typ]
  · change (c.laneAt m).window.length = _
    rw [← hc]
    change (b.laneAt m).window.length = _
    rw [lane, window]
  · rw [← hc, ← hb, same]
    rfl
  · have aRegs : RegsBut s a [DL_CFGW_STAT k] := RegsBut.of_regs (by rw [same]) _
    have bRegs : RegsBut s b [DL_CFGW_STAT k] := aRegs.trans (RegsBut.of_regs (by rw [← hb]; rfl) _)
    exact (hc ▸ bRegs.setFld (by simp)).setFld (by simp)

/-! ### Lane assignments (R195, R202) -/

/-- The first band boundary at or above a line, in the width of a line's number. -/
def bandFrom (x : Nat) : Nat := 64 * ceilDiv x 64 % 2 ^ 64

theorem bandFrom_mod (x : Nat) : bandFrom x % 64 = 0 := by
  unfold bandFrom
  omega

theorem bandFrom_bounds {x : Nat} (small : x + 64 < 2 ^ 64) : x ≤ bandFrom x ∧ bandFrom x < x + 64 := by
  unfold bandFrom ceilDiv
  rw [Nat.mod_eq_of_lt (by omega)]
  omega

/-- The assignment of a hub is sent for a line. -/
def State.lanesSent (s : State) (k : Nat) (arg ln : Nat) : State :=
  ((s.readyLanes k).foldl (fun s n => s.sendCtrl n 3 arg 0 ln [] .lanes) s).onHub k
    fun h => { h with toSend := none, assign := some (arg, ln) }

/-- What is on its way on the link alone has changed. -/
def DlOnly (s t : State) : Prop := t = { s with dl := t.dl }

theorem DlOnly.trans {s t u : State} (h : DlOnly s t) (k : DlOnly t u) : DlOnly s u := by
  unfold DlOnly at *
  rw [k, h]

theorem lanesSent_shows (s : State) (k arg ln : Nat) :
    ((s.lanesSent k arg ln).hubAt k).toSend = none ∧ ((s.lanesSent k arg ln).hubAt k).assign = some (arg, ln) ∧
    DlOnly s (s.lanesSent k arg ln) := by
  have sent : DlOnly s ((s.readyLanes k).foldl (fun s n => s.sendCtrl n 3 arg 0 ln [] .lanes) s) :=
    foldl_keeps DlOnly (fun _ => rfl) (fun _ _ _ => DlOnly.trans) _ (fun s m => (sendCtrl_lane s m 3 arg 0 ln [] .lanes).2.2) _ s
  unfold State.lanesSent
  rw [hubAt_onHub_same]
  exact ⟨rfl, rfl, sent.trans rfl⟩

theorem lanes_eq {arg : Nat} (waits : (s.hubAt k).toSend = some arg) :
    exec (.lanes k) s = .next (s.leadNow.2.lanesSent k arg (bandFrom (s.leadNow.2.lc.hwm.toNat + s.leadNow.1 + 16))) := by
  change execLanes k s = _
  unfold execLanes
  rw [waits]
  rfl

theorem lanes_running {arg : Nat} {job : JobSt} (waits : (s.hubAt k).toSend = some arg) (runs : s.runJob = some job) :
    ∃ t ln, exec (.lanes k) s = .next t ∧ (t.hubAt k).toSend = none ∧ (t.hubAt k).assign = some (arg, ln) ∧ ln % 64 = 0 ∧
      (s.lc.hwm.toNat + job.hdr.lead + 80 < 2 ^ 64 →
        s.lc.hwm.toNat + job.hdr.lead + 16 ≤ ln ∧ ln < s.lc.hwm.toNat + job.hdr.lead + 80) ∧ t = { s with dl := t.dl } := by
  have lead : s.leadNow = (job.hdr.lead, s) := by
    unfold State.leadNow
    rw [runs]
  have run := lanes_eq waits
  rw [lead] at run
  obtain ⟨sent, assigned, only⟩ := lanesSent_shows s k arg (bandFrom (s.lc.hwm.toNat + job.hdr.lead + 16))
  refine ⟨_, _, run, sent, assigned, bandFrom_mod _, fun small => ?_, only⟩
  have := bandFrom_bounds (x := s.lc.hwm.toNat + job.hdr.lead + 16) (by omega)
  omega

theorem lanes_idle {arg : Nat} (waits : (s.hubAt k).toSend = some arg) (none_ : s.runJob = none) :
    ∃ t ln, exec (.lanes k) s = .next t ∧ (t.hubAt k).toSend = none ∧ (t.hubAt k).assign = some (arg, ln) ∧ ln % 64 = 0 ∧
      t = { s with dl := t.dl, freeIx := s.freeIx + 1 } := by
  have lead : s.leadNow = (8 + Config.freeNat s.draw.1 % 57, s.draw.2) := by
    unfold State.leadNow
    rw [none_]
  have run := lanes_eq waits
  rw [lead] at run
  obtain ⟨sent, assigned, only⟩ := lanesSent_shows s.draw.2 k arg (bandFrom (s.draw.2.lc.hwm.toNat + (8 + Config.freeNat s.draw.1 % 57) + 16))
  exact ⟨_, _, run, sent, assigned, bandFrom_mod _, only⟩

theorem lanes_none (none_ : (s.hubAt k).toSend = none) : exec (.lanes k) s = .next s := by
  change execLanes k s = _
  unfold execLanes
  rw [none_]

end

/-- R191, R195, R197: packets to a hub. -/
theorem packets_to_hub : packetsToTheHub := by
  intro s n k
  exact ⟨fun p rest ready queue => dose_leaves ready queue, deviceHeartbeat_leaves,
    fun v => ⟨asleep_of_whenAwake rfl, cfgw_ignored⟩, fun v m ms awake go idle ready => cfgw_sent awake go idle ready,
    fun arg job waits runs => lanes_running waits runs, fun arg waits none_ => lanes_idle waits none_, lanes_none⟩

end Sys2Proof.Machine

namespace Sys2Proof.Machine

section
variable {s : State} {n : Fin 32}

/-! ### The SOP block of a packet (R185, R206) -/

theorem sopCheck_right {p : HubSop} {typ len : Nat} (right : sopRight p typ len) (kind : typ = 4 ∧ len = 4 ∨ typ = 5 ∧ len = 6) :
    s.sopCheck n p = (true, s) := by
  obtain ⟨htyp, hlen, hpad, whole⟩ := right
  unfold State.sopCheck State.padCheck
  rw [htyp, hlen, hpad, whole]
  rcases kind with ⟨rfl, rfl⟩ | ⟨rfl, rfl⟩
  · rfl
  · rfl

theorem sopCheck_unknown {p : HubSop} (h4 : p.typ ≠ 4) (h5 : p.typ ≠ 5) (pad : p.pad = 0) (lo : 1 ≤ p.len.toNat) (hi : p.len.toNat ≤ 1024) :
    s.sopCheck n p = (false, s.dlViolation n 2) := by
  have bounds : ¬(p.len = 0 ∨ 1024 < p.len.toNat) := by
    rintro (h | h)
    · rw [h] at lo; exact absurd lo (by decide)
    · omega
  unfold State.sopCheck State.padCheck
  rw [pad, if_pos (show (0 : BitVec 32).toNat = 0 from rfl)]
  dsimp only
  rw [if_neg bounds, if_pos ⟨h4, h5⟩]

/-! ### HEARTBEAT (R197, R200) -/

theorem heartbeat_hunting {hb : HubHeartbeat} (notReady : s.laneReady n = false) : exec (.heartbeat n hb) s = .next s := by
  change execHeartbeat n hb s = _
  unfold execHeartbeat
  dsimp only
  rw [if_pos (by rw [notReady]; rfl)]

theorem heartbeat_unknown {hb : HubHeartbeat} (ready : s.laneReady n = true) (h4 : hb.sop.typ ≠ 4) (h5 : hb.sop.typ ≠ 5)
    (pad : hb.sop.pad = 0) (lo : 1 ≤ hb.sop.len.toNat) (hi : hb.sop.len.toNat ≤ 1024) :
    ∃ t, exec (.heartbeat n hb) s = .next t ∧ violates s t n 2 := by
  refine ⟨s.dlViolation n 2, ?_, dlViolation_violates s n 2⟩
  change execHeartbeat n hb s = _
  unfold execHeartbeat
  dsimp only
  rw [sopCheck_unknown h4 h5 pad lo hi, if_neg (by rw [ready]; decide), if_pos (by rfl)]

/-- The packets that a HEARTBEAT acknowledges leave the window, and a configuration write among them is done. -/
def State.acked (s : State) (n ack : Nat) : State :=
  let s' := s.onLane n fun l => { l with lastAck := some ack, window := (s.laneAt n).window.filter fun e => decide (ack < e.fln) }
  if s'.bit (DL_CFGW_STAT (n / 2)) DL_CFGW_STAT_BUSY && (s'.hubAt (n / 2)).cfgwLane == n &&
      !((s.laneAt n).window.filter fun e => decide (ack < e.fln)).any (fun e => decide (e.kind = .cfgw)) then
    s'.setFld (DL_CFGW_STAT (n / 2)) DL_CFGW_STAT_BUSY 0
  else s'

theorem hubAck_acks {ack : Nat} (low : ∀ a, (s.laneAt n).lastAck = some a → a ≤ ack) (high : ∀ f, (s.laneAt n).topFln = some f → ack ≤ f) :
    s.hubAck n ack = s.acked n ack := by
  have notLow : (match (s.laneAt n).lastAck with | some a => decide (ack < a) | none => false) = false := by
    cases h : (s.laneAt n).lastAck with
    | none => rfl
    | some a => exact decide_eq_false (Nat.not_lt.2 (low a h))
  have notHigh : (match (s.laneAt n).topFln with | some t => decide (t < ack) | none => false) = false := by
    cases h : (s.laneAt n).topFln with
    | none => rfl
    | some f => exact decide_eq_false (Nat.not_lt.2 (high f h))
  unfold State.hubAck
  dsimp only
  rw [if_neg]
  · rfl
  · intro either
    rcases Bool.or_eq_true_iff.1 either with h | h
    · exact absurd (h.symm.trans notLow) (by decide)
    · exact absurd (h.symm.trans notHigh) (by decide)

theorem acked_shows (s : State) (n ack : Nat) :
    (s.acked n ack).laneAt n = { s.laneAt n with
      lastAck := some ack, window := (s.laneAt n).window.filter fun e => decide (ack < e.fln) } ∧ (s.acked n ack).mem = s.mem := by
  unfold State.acked
  dsimp only
  split
  · exact ⟨laneAt_onLane_same _ _ _, rfl⟩
  · exact ⟨laneAt_onLane_same _ _ _, rfl⟩

/-- A lane's drain for its test keeps what the lane has received. -/
theorem laneTestDrain_shows (s : State) (n : Nat) :
    ((s.laneTestDrain n).laneAt n).lastAck = (s.laneAt n).lastAck ∧ ((s.laneTestDrain n).laneAt n).beats = (s.laneAt n).beats ∧
    ((s.laneTestDrain n).laneAt n).window = (s.laneAt n).window ∧ (s.laneTestDrain n).mem = s.mem := by
  unfold State.laneTestDrain
  extract_lets k solo l past
  split
  · have lane : ((s.lanePhase n 0 []).setMode (n / 2) (soloMode (partner n))).laneAt n = { s.laneAt n with since := s.now, ctl := [] } :=
      lanePhase_lane s n 0 []
    change (State.laneAt ((s.lanePhase n 0 []).setMode (n / 2) (soloMode (partner n))) n).lastAck = _ ∧
      (State.laneAt ((s.lanePhase n 0 []).setMode (n / 2) (soloMode (partner n))) n).beats = _ ∧
      (State.laneAt ((s.lanePhase n 0 []).setMode (n / 2) (soloMode (partner n))) n).window = _ ∧ _
    rw [lane]
    exact ⟨rfl, rfl, rfl, rfl⟩
  · exact ⟨rfl, rfl, rfl, rfl⟩

/-- A HEARTBEAT of an online hub with nothing but its ACK. -/
theorem heartbeat_acks {hb : HubHeartbeat} (ready : s.laneReady n = true) (right : sopRight hb.sop 4 4) (crc : hb.crcOk = true)
    (noErr : hb.syncErr = false) (noMiss : hb.miss = false) (noNack : hb.nack = false) (online : s.hubOnline (n.val / 2) = true)
    (few : (s.laneAt n).beats < 8) (low : ∀ a, (s.laneAt n).lastAck = some a → a ≤ hb.ack.toNat)
    (high : ∀ f, (s.laneAt n).topFln = some f → hb.ack.toNat ≤ f) :
    ∃ t, exec (.heartbeat n hb) s = .next t ∧ (t.laneAt n).lastAck = some hb.ack.toNat ∧
      (t.laneAt n).beats = (s.laneAt n).beats + 1 ∧
      (∀ e ∈ (t.laneAt n).window, e ∈ (s.laneAt n).window ∧ hb.ack.toNat < e.fln) ∧ t.mem = s.mem := by
  obtain ⟨a, ha⟩ : ∃ a, (s.onHub (n.val / 2) fun h => { h with heard := s.now }) = a := ⟨_, rfl⟩
  have heard : s.goOnline (n.val / 2) = a := by
    unfold State.goOnline
    dsimp only
    rw [ha, if_pos (show a.hubOnline (n.val / 2) = true from ha ▸ online)]
  have aLane : a.laneAt n = s.laneAt n := by rw [← ha]; rfl
  obtain ⟨b, hb_⟩ : ∃ b, (a.onLane n fun l => { l with beats := l.beats + 1 }) = b := ⟨_, rfl⟩
  have bLane : b.laneAt n = { s.laneAt n with beats := (s.laneAt n).beats + 1 } := by
    rw [← hb_, laneAt_onLane_same, aLane]
  have mem : b.mem = s.mem := by rw [← hb_, ← ha]; rfl
  have acks : b.hubAck n hb.ack.toNat = b.acked n hb.ack.toNat :=
    hubAck_acks (by rw [bLane]; exact low) (by rw [bLane]; exact high)
  have run : exec (.heartbeat n hb) s = .next ((b.acked n hb.ack.toNat).laneTestDrain n) := by
    change execHeartbeat n hb s = _
    unfold execHeartbeat
    dsimp only
    rw [sopCheck_right right (.inl ⟨rfl, rfl⟩), if_neg (by rw [ready]; decide), if_neg (show ¬(!true) = true by decide), if_neg (by rw [crc]; decide)]
    dsimp only
    rw [heard, if_neg (by rw [aLane]; omega), hb_, acks, noErr, noMiss, noNack]
    rfl
  obtain ⟨ack, beats, window, mem'⟩ := laneTestDrain_shows (b.acked n hb.ack.toNat) n
  obtain ⟨lane, mem''⟩ := acked_shows b n hb.ack.toNat
  rw [lane, bLane] at ack beats window
  refine ⟨_, run, ack, beats, fun e he => ?_, mem'.trans (mem''.trans mem)⟩
  rw [window] at he
  obtain ⟨there, above⟩ := List.mem_filter.1 he
  exact ⟨there, of_decide_eq_true above⟩

/-- A HEARTBEAT with a wrong CRC, which does not make the errors lasting. -/
theorem heartbeat_crc {hb : HubHeartbeat} (ready : s.laneReady n = true) (right : sopRight hb.sop 4 4) (crc : hb.crcOk = false)
    (passing : (s.countEvent (winKey 0x1281 n) 8 ticksSec).1 = false) :
    ∃ t, exec (.heartbeat n hb) s = .next t ∧ t.reg (DL_CNT 0) = satInc (s.reg (DL_CNT 0)) ∧
      (t.laneAt n).lastCrc = some s.now ∧ Reported s t 0x1281 (BitVec.ofNat 8 n) 0 ∧
      Frame { s with dl := t.dl } t [DL_CNT 0] [] := by
  obtain ⟨a, ha⟩ : ∃ a, (s.onLane n fun l => { l with lastCrc := some s.now }) = a := ⟨_, rfl⟩
  have lane : a.laneAt n = { s.laneAt n with lastCrc := some s.now } := ha ▸ laneAt_onLane_same _ _ _
  have same : a = { s with dl := a.dl } := by rw [← ha]; rfl
  obtain ⟨b, hb_⟩ : ∃ b, a.count (DL_CNT 0) = b := ⟨_, rfl⟩
  have bLast : (b.faultCounted 0x1281 n 0 8 ticksSec).1 = false := by
    rw [← passing, ← hb_, ← ha]
    rfl
  have run : exec (.heartbeat n hb) s = .next (b.faultCounted 0x1281 n 0 8 ticksSec).2 := by
    change execHeartbeat n hb s = _
    unfold execHeartbeat
    dsimp only
    rw [sopCheck_right right (.inl ⟨rfl, rfl⟩), if_neg (by rw [ready]; decide), if_neg (show ¬(!true) = true by decide), if_pos (by rw [crc]; rfl)]
    unfold State.laneCrc
    dsimp only
    rw [ha, hb_, bLast, Bool.false_and, if_neg Bool.false_ne_true]
  have counted : b.reg (DL_CNT 0) = satInc (s.reg (DL_CNT 0)) := by
    rw [← hb_, reg_count_same, ← ha]
    rfl
  have frame : Frame a (b.faultCounted 0x1281 n 0 8 ticksSec).2 [DL_CNT 0] [] :=
    (hb_ ▸ (Frame.refl a _ _).count (by simp)).faultCounted
  have dl : (b.faultCounted 0x1281 n 0 8 ticksSec).2.dl = a.dl := frame.1.dl
  refine ⟨_, run, ?_, ?_, ?_, ?_⟩
  · exact (reg_faultCounted _ _ _ _ _ _ _ (by decide)).trans counted
  · rw [laneAt_of_dl dl, lane]
  · refine Reported.from (faultCounted_reported b _ _ _ _ _) ?_
    rw [← hb_, ← ha]
    rfl
  · rw [dl, ← same]
    exact frame

/-! ### STATUS (R198) -/

/-- What acts on registers of other blocks alone, as the link sees it. -/
def DlKept (s t : State) : Prop := t.dl = s.dl ∧ ∀ off, 0xA00000 ≤ off → off < 0xB00000 → t.reg off = s.reg off

theorem DlKept.refl (s : State) : DlKept s s := ⟨rfl, fun _ _ _ => rfl⟩

theorem DlKept.trans {s t u : State} (h : DlKept s t) (k : DlKept t u) : DlKept s u :=
  ⟨k.1.trans h.1, fun off lo hi => (k.2 off lo hi).trans (h.2 off lo hi)⟩

theorem dlKept_setFld (s : State) {off : Nat} (f : Fld) (x : Nat) (h : off < 0xA00000) : DlKept s (s.setFld off f x) :=
  ⟨rfl, fun o lo _ => reg_setFld_other _ _ _ _ _ (by omega)⟩

theorem dlKept_fsEvt (s : State) (n : Nat) : DlKept s (s.setEvt BLK_FS n) :=
  ⟨(setEvt_quiet _ _ _).dl, fun _ lo hi => reg_setEvt_of_notMem _ _ _ _ (notMem_reportRegs_one (b := BLK_FS) 0x900020 rfl (by omega))⟩

theorem dlKept_fault (s : State) (code : BitVec 16) (inst info : Nat) : DlKept s (s.fault code inst info) :=
  ⟨(fault_quiet _ _ _ _).dl, fun _ lo hi => reg_fault _ _ _ _ _ (dlNotFault lo hi)⟩

theorem headStat_lt {k : Nat} (hk : k < 16) : FS_HSTAT k < 0xA00000 := by
  unfold FS_HSTAT
  omega

theorem enterLimit_kept (s : State) {k : Nat} (hk : k < 16) : DlKept s (s.enterLimit k) := by
  unfold State.enterLimit
  split
  · exact .refl s
  · exact (((dlKept_setFld s _ _ (headStat_lt hk)).trans (dlKept_setFld _ _ _ (headStat_lt hk))).trans (dlKept_fsEvt _ _)).trans
      (dlKept_fault _ _ _ _)

theorem slotTemp_kept (s : State) {m : Nat} (hm : m < 1024) (reading : Nat) : DlKept s (s.slotTemp m reading) := by
  have low : HT_STAT m < 0xA00000 := by unfold HT_STAT; omega
  unfold State.slotTemp
  dsimp only
  generalize (if reading = 0x8000 then s.fld (HT_STAT m) HT_STAT_TEMP else reading) = temp
  split
  · exact .refl s
  · obtain ⟨a, ha⟩ : ∃ a, s.setFld (HT_STAT m) HT_STAT_TEMP temp = a := ⟨_, rfl⟩
    have first : DlKept s a := ha ▸ dlKept_setFld s _ _ low
    rw [ha]
    split
    · exact ((first.trans (dlKept_setFld _ _ _ low)).trans (dlKept_setFld _ _ _ low)).trans (dlKept_fsEvt _ _)
    · exact (first.trans (dlKept_setFld _ _ _ low)).trans (dlKept_setFld _ _ _ low)

theorem hubTemps_kept (s : State) {k : Nat} (hk : k < 16) (temps : List Nat) (four : temps.length ≤ 4) : DlKept s (s.hubTemps k temps) := by
  have small : ∀ x ∈ temps.zipIdx, x.2 < 4 := fun x hx => by
    have := List.snd_lt_of_mem_zipIdx hx
    omega
  have slots : ∀ (xs : List (Nat × Nat)) (s : State), (∀ x ∈ xs, x.2 < 4) →
      DlKept s (xs.foldl (fun s (t, i) => s.slotTemp (4 * k + i) t) s) := by
    intro xs
    induction xs with
    | nil => exact fun s _ => .refl s
    | cons x xs ih =>
      intro s hx
      have here := hx x List.mem_cons_self
      exact (slotTemp_kept s (m := 4 * k + x.2) (by omega) x.1).trans (ih _ fun y hy => hx y (List.mem_cons_of_mem _ hy))
  unfold State.hubTemps
  dsimp only
  generalize ha : temps.zipIdx.foldl (fun s (t, i) => s.slotTemp (4 * k + i) t) s = a
  have first : DlKept s a := ha ▸ slots _ s small
  obtain ⟨b, hb⟩ : ∃ b, (if ([0, 1, 2, 3].map (4 * k + ·)).any (fun n => a.slotAbove n 0) then a.enterLimit k else a) = b := ⟨_, rfl⟩
  have second : DlKept s b := by
    rw [← hb]
    split
    · exact first.trans (enterLimit_kept a hk)
    · exact first
  rw [hb]
  split
  · exact second.trans (dlKept_setFld b _ _ (headStat_lt hk))
  · exact second

/-- The body of a STATUS stands in the status registers of its hub. -/
theorem statusBody_stands (s : State) (k : Fin 16) (word : Nat → Word) :
    let t := s.each 10 fun i s => s.setReg (DL_HUB_STATUS k i) (word i)
    (t.reg (DL_HUB_STAT k) = s.reg (DL_HUB_STAT k) ∧ t.dl = s.dl) ∧ ∀ i < 10, t.reg (DL_HUB_STATUS k i) = word i := by
  refine each_establishes (inv := fun t => t.reg (DL_HUB_STAT k) = s.reg (DL_HUB_STAT k) ∧ t.dl = s.dl)
    (P := fun i t => t.reg (DL_HUB_STATUS k i) = word i) ⟨rfl, rfl⟩ (fun i u hi hu => ⟨?_, hu.2⟩) (fun i u _ _ => reg_setReg_same _ _ _)
    (fun i j u hi hj _ hp => ?_)
  · exact (reg_setReg_other _ _ _ _ (by unfold DL_HUB_STAT DL_HUB_STATUS; omega)).trans hu.1
  · exact (reg_setReg_other _ _ _ _ (by unfold DL_HUB_STATUS; omega)).trans hp

theorem status_stands {st : HubStatus} (ready : s.laneReady n = true) (right : sopRight st.sop 5 6) (crc : st.crcOk = true) :
    ∃ t, exec (.status n st) s = .next t ∧ t.hubOnline (n.val / 2) = true ∧ (t.hubAt (n.val / 2)).statusAge = 0 ∧
      ∀ i : Fin 10, t.reg (DL_HUB_STATUS (n.val / 2) i) = BitVec.ofNat 32 (leNat ((st.body.drop (4 * i)).take 4)) := by
  obtain ⟨-, online⟩ := goOnline_shows s n
  obtain ⟨a, ha⟩ : ∃ a, s.goOnline (n.val / 2) = a := ⟨_, rfl⟩
  rw [ha] at online
  obtain ⟨⟨stat, -⟩, stands⟩ := statusBody_stands a ⟨n.val / 2, laneHub_lt n⟩ fun i =>
    BitVec.ofNat 32 (leNat ((st.body.drop (4 * i)).take 4))
  obtain ⟨b, hb⟩ : ∃ b, (a.each 10 fun i s => s.setReg (DL_HUB_STATUS (n.val / 2) i)
    (BitVec.ofNat 32 (leNat ((st.body.drop (4 * i)).take 4)))) = b := ⟨_, rfl⟩
  dsimp only at stat stands
  rw [hb] at stat stands
  obtain ⟨c, hc⟩ : ∃ c, (b.onHub (n.val / 2) fun h => { h with
    statusAge := 0, statusIvl := some (leNat (st.body.take 8) / 64) }) = c := ⟨_, rfl⟩
  have regs : c.regs = b.regs := by rw [← hc]; rfl
  have age : (c.hubAt (n.val / 2)).statusAge = 0 := by rw [← hc, hubAt_onHub_same]
  have cOnline : c.hubOnline (n.val / 2) = true :=
    (bit_of_reg _ ((reg_of_regs regs _).trans stat)).trans online
  have run : exec (.status n st) s = .next (if ((b.hubAt (n.val / 2)).statusIvl == some (leNat (st.body.take 8) / 64)) = true then c
      else c.hubTemps (n.val / 2) ((List.range 4).map fun i => leNat ((st.body.drop (8 + 2 * i)).take 2))) := by
    change execStatus n st s = _
    unfold execStatus
    dsimp only
    rw [sopCheck_right right (.inr ⟨rfl, rfl⟩), if_neg (by rw [ready]; decide), if_neg (show ¬(!true) = true by decide), if_neg (by rw [crc]; decide)]
    dsimp only
    rw [ha, hb, hc]
  have shows_ : ∀ t, DlKept c t → t.hubOnline (n.val / 2) = true ∧ (t.hubAt (n.val / 2)).statusAge = 0 ∧
      ∀ i : Fin 10, t.reg (DL_HUB_STATUS (n.val / 2) i) = BitVec.ofNat 32 (leNat ((st.body.drop (4 * i)).take 4)) := by
    rintro t ⟨dl, kept⟩
    refine ⟨?_, (congrArg HubSt.statusAge (hubAt_of_dl dl _)).trans age, fun i => ?_⟩
    · exact (bit_of_reg _ (kept _ (by unfold DL_HUB_STAT; omega) (by unfold DL_HUB_STAT; omega))).trans cOnline
    · refine ((kept _ (by unfold DL_HUB_STATUS; omega) (by unfold DL_HUB_STATUS; omega)).trans (reg_of_regs regs _)).trans ?_
      exact stands i i.isLt
  refine ⟨_, run, ?_⟩
  split
  · exact shows_ _ (.refl c)
  · exact shows_ _ (hubTemps_kept c (laneHub_lt n) _ (by simp))

end

section
variable {s : State} {k : Fin 16}

/-! ### Hubs that fall silent (R205, R206) -/

theorem hubOffline_waits (recent : s.now < (s.hubAt k).heard + 4 * s.hbInt) : exec (.hubOffline k) s = .next s := by
  have no : (s.hubOnline k && decide ((s.hubAt k).heard + 4 * s.hbInt ≤ s.now)) = false := by
    rw [decide_eq_false (by omega), Bool.and_false]
  change Host.Outcome.next (s.whenClocked BLK_DL _) = _
  unfold State.whenClocked
  dsimp only
  rw [no, if_neg Bool.false_ne_true, ite_self]

theorem hub_offline (clocked : s.clocked BLK_DL = true) (online : s.hubOnline k = true)
    (silent : (s.hubAt k).heard + 4 * s.hbInt ≤ s.now) :
    ∃ t, exec (.hubOffline k) s = .next t ∧ t.hubOnline k = false ∧ EventSet t BLK_DL 3 ∧
      Reported s t 0x2284 (BitVec.ofNat 8 k) 0 ∧ Frame s t [DL_HUB_STAT k] [BLK_DL] := by
  obtain ⟨a, ha⟩ : ∃ a, s.setFld (DL_HUB_STAT k) DL_HUB_STAT_ONLINE 0 = a := ⟨_, rfl⟩
  have run : exec (.hubOffline k) s = .next ((a.setEvt BLK_DL 3).fault 0x2284 k) := by
    change Host.Outcome.next (s.whenClocked BLK_DL _) = _
    rw [whenClocked_clocked _ clocked, if_pos (by rw [online, decide_eq_true silent]; rfl), ha]
  have stat : ((a.setEvt BLK_DL 3).fault 0x2284 k).reg (DL_HUB_STAT k) = a.reg (DL_HUB_STAT k) :=
    (reg_fault _ _ _ _ _ (dlNotFault (by unfold DL_HUB_STAT; omega) (by unfold DL_HUB_STAT; omega))).trans
      (reg_setEvt_of_notMem _ _ _ _ (hubStat_notReport k))
  refine ⟨_, run, (bit_of_reg _ stat).trans (ha ▸ bit_setFld_clear s _ _ rfl (by decide)),
    EventSet.fault _ _ _ (setEvt_eventSet _ _ _ (by decide)), ?_, ?_⟩
  · refine Reported.from (fault_reported _ _ _ _) ?_
    rw [setEvt_si, ← ha]
    rfl
  · exact (ha ▸ ((Frame.refl s _ _).setFld (by simp)).setEvt (by simp)).fault

theorem status_late (clocked : s.clocked BLK_DL = true) (late : 256 ≤ (s.hubAt k).statusAge) :
    ∃ t, exec (.statusLate k) s = .next t ∧ (t.hubAt k).statusAge = 0 ∧
      t.reg (DL_CNT 2) = satInc (s.reg (DL_CNT 2)) ∧ EventSet t BLK_DL 5 ∧ Reported s t 0x2286 (BitVec.ofNat 8 k) 0 := by
  obtain ⟨a, ha⟩ : ∃ a, (s.onHub k fun h => { h with statusAge := 0 }) = a := ⟨_, rfl⟩
  have age : (a.hubAt k).statusAge = 0 := by rw [← ha, hubAt_onHub_same]
  have same : a.regs = s.regs ∧ a.si = s.si := by
    rw [← ha]
    exact ⟨rfl, rfl⟩
  have run : exec (.statusLate k) s = .next (((a.count (DL_CNT 2)).setEvt BLK_DL 5).fault 0x2286 k) := by
    change Host.Outcome.next (s.whenClocked BLK_DL _) = _
    rw [whenClocked_clocked _ clocked, if_pos late, ha]
  have quiet : Quiet a (((a.count (DL_CNT 2)).setEvt BLK_DL 5).fault 0x2286 k) :=
    ((((Frame.refl a [DL_CNT 2] [BLK_DL]).count (by simp)).setEvt (by simp)).fault).1
  refine ⟨_, run, by rw [hubAt_of_dl quiet.dl, age], ?_, EventSet.fault _ _ _ (setEvt_eventSet _ _ _ (by decide)), ?_⟩
  · rw [reg_fault _ _ _ _ _ (by decide), reg_setEvt_of_notMem _ _ _ _ (by decide), reg_count_same, reg_of_regs same.1]
  · refine Reported.from (fault_reported _ _ _ _) ?_
    rw [setEvt_si, ← same.2]
    rfl

end

/-- R197, R198, R200, R205, R206: packets from a hub. -/
theorem packets_from_hub : packetsFromTheHub := by
  intro s n k
  exact ⟨fun hb => heartbeat_hunting, fun hb => heartbeat_unknown,
    fun hb ready right => ⟨heartbeat_crc ready right, heartbeat_acks ready right⟩,
    fun st ready right crc _ => status_stands ready right crc, fun _ => hubOffline_waits, hub_offline, status_late⟩

/-- Settles O33: what each packet leaves in its lane's transmitter and window, and what a hub's packet, by its SOP
block and CRC, changes; the temperatures of a STATUS reach no register of the link. -/
theorem packetsCrossTheLink : Obligations.PacketsCrossTheLink := ⟨packets_to_hub, packets_from_hub⟩

end Sys2Proof.Machine

/-!
O6: the write of a register, by its place in the table and the access types of its fields.
-/

namespace Sys2Proof.Machine

/-! ### A register's place in the table and in its block -/

/-- A register of the table: its family, its index in it, its block; it is no event register. -/
def rowAt (off base blk ix : Nat) : Bool :=
  (match regDef? off with
    | some d => d.base == base && (d.ix off).1 == ix
    | none => false) &&
  off / 0x100000 == blk && !(hasEvents blk && (off == evtEnReg blk || off == evtReg blk)) && off % 4 == 0 && decide (off < 2 ^ 26)

/-- What `rowAt` says of a register. -/
structure AtRow (off base block ix : Nat) (d : RegDef) : Prop where
  reg : regDef? off = some d
  base : d.base = base
  ix : (d.ix off).1 = ix
  blk : off / 0x100000 = block
  plain : (hasEvents block && (off == evtEnReg block || off == evtReg block)) = false
  aligned : off % 4 = 0
  small : off < 2 ^ 26

theorem atRow {off base blk ix : Nat} (h : rowAt off base blk ix = true) : ∃ d, AtRow off base blk ix d := by
  unfold rowAt at h
  simp only [Bool.and_eq_true, beq_iff_eq, Bool.not_eq_true', decide_eq_true_eq] at h
  obtain ⟨⟨⟨⟨reg, blk⟩, plain⟩, aligned⟩, small⟩ := h
  cases hd : regDef? off with
  | none =>
    rw [hd] at reg
    exact Bool.noConfusion reg
  | some d =>
    rw [hd] at reg
    simp only [Bool.and_eq_true, beq_iff_eq] at reg
    exact ⟨d, hd, reg.1, reg.2, blk, plain, aligned, small⟩

/-! ### Registers of the large families -/

/-- The first entry of its block that covers an offset. -/
theorem regDef_first {off : Nat} {pre post : List RegDef} {d : RegDef} (list : blockRegs (off / 0x100000) = pre ++ d :: post)
    (before : ∀ e ∈ pre, e.base ≤ off → dimsCover e.dims (off - e.base) = false) (lo : d.base ≤ off)
    (here : dimsCover d.dims (off - d.base) = true) : regDef? off = some d := by
  unfold regDef?
  rw [list, List.find?_append, List.find?_eq_none.2 fun e he => ?_]
  · rw [Option.none_or, List.find?_cons_of_pos (by rw [decide_eq_true lo, here]; rfl)]
  · by_cases h : e.base ≤ off
    · rw [before e he h, Bool.and_false]; decide
    · rw [decide_eq_false h, Bool.false_and]; decide

/-- The bytes from its base on beyond which a family covers nothing. -/
def RegDef.extent (d : RegDef) : Nat := match d.dims with
  | [] => 1
  | (stride, count) :: _ => stride * count

theorem RegDef.beyond {d : RegDef} {off : Nat} (pos : 0 < (d.dims.headD (1, 0)).1) (h : d.base + d.extent ≤ off) :
    dimsCover d.dims (off - d.base) = false := by
  unfold RegDef.extent at h
  cases dims : d.dims with
  | nil =>
    rw [dims] at h
    exact beq_eq_false_iff_ne.2 (by dsimp only at h; omega)
  | cons x rest =>
    rw [dims] at h
    obtain ⟨stride, count⟩ := x
    dsimp only at h
    have out : ¬(off - d.base) / stride < count := fun lt => by
      have := (Nat.div_lt_iff_lt_mul (by rwa [dims] at pos)).1 lt
      rw [Nat.mul_comm] at this
      omega
    unfold dimsCover
    rw [decide_eq_false out, Bool.and_false]

/-- A family behind all the entries before it. -/
theorem regDef_behind {off : Nat} {pre post : List RegDef} {d : RegDef} (list : blockRegs (off / 0x100000) = pre ++ d :: post)
    (before : (pre.all fun e => decide (0 < (e.dims.headD (1, 0)).1) && decide (e.base + e.extent ≤ d.base)) = true) (lo : d.base ≤ off)
    (here : dimsCover d.dims (off - d.base) = true) : regDef? off = some d := by
  refine regDef_first list (fun e he _ => ?_) lo here
  have := List.all_eq_true.1 before e he
  rw [Bool.and_eq_true, decide_eq_true_eq, decide_eq_true_eq] at this
  exact RegDef.beyond this.1 (this.2.trans lo)

/-- The families of the routes, of the delay entries and of the vectors. -/
def evtRouteDef : RegDef := ⟨"EVT_ROUTE", 0x1000, [(0x4, 864)], 0x80FF0F3F, 0x0, 0x0, 0x0, 0x0⟩
def mcDelayDef : RegDef :=
  ⟨"MC_DELAY", 0xF80000, [(0x10000, 8), (0x4000, 4), (0x1000, 4), (0x4, 116)], 0x1FF01FF, 0x0, 0x0, 0x0, 0x0⟩
def msixCtrlDef : RegDef := ⟨"MSIX_CTRL", 0x108000C, [(0x10, 256)], 0x1, 0x0, 0x0, 0x0, 0x1⟩

theorem evtRoute_atRow (n : Fin 864) : AtRow (EVT_ROUTE n) (EVT_ROUTE 0) BLK_TOP n evtRouteDef := by
  have off : EVT_ROUTE n = 0x1000 + 4 * n := by unfold EVT_ROUTE; omega
  have block : EVT_ROUTE n / 0x100000 = 0 := by omega
  refine ⟨regDef_behind (pre := topRegs.dropLast) (post := []) (by rw [block]; rfl) (by decide)
      (by rw [off]; exact Nat.le_add_right _ _) ?_,
    rfl, ?_, block, rfl, by omega, by omega⟩
  · rw [off]
    simp only [evtRouteDef, dimsCover, Nat.add_sub_cancel_left, Bool.and_eq_true, beq_iff_eq, decide_eq_true_eq]
    omega
  · rw [off]
    change (0x1000 + 4 * n.val - 0x1000) / 4 = n
    omega

theorem mcDelay_atRow (c : Fin 8) (p r : BitVec 2) (e : Fin 116) :
    AtRow (MC_DELAY c p.toNat r.toNat e) (MC_DELAY 0 0 0 0) BLK_MC c mcDelayDef := by
  have hp := p.isLt
  have hr := r.isLt
  obtain ⟨x, hx⟩ : ∃ x, 0x10000 * c.val + 0x4000 * p.toNat + 0x1000 * r.toNat + 4 * e.val = x := ⟨_, rfl⟩
  have off : MC_DELAY c p.toNat r.toNat e = 0xF80000 + x := by unfold MC_DELAY; omega
  have block : MC_DELAY c p.toNat r.toNat e / 0x100000 = 0xF := by omega
  refine ⟨regDef_behind (pre := mcRegs.dropLast) (post := []) (by rw [block]; rfl) (by decide) (by rw [off]; exact Nat.le_add_right _ _) ?_,
    rfl, ?_, block, ?_, by omega, by omega⟩
  · rw [off]
    simp only [mcDelayDef, dimsCover, Nat.add_sub_cancel_left, Bool.and_eq_true, beq_iff_eq, decide_eq_true_eq]
    omega
  · rw [off]
    change (0xF80000 + x - 0xF80000) / 0x10000 = c
    omega
  · have above : ∀ k, k < 0xF80000 → (MC_DELAY c p.toNat r.toNat e == k) = false := fun k hk => beq_eq_false_iff_ne.2 (by omega)
    rw [above _ (by decide), above _ (by decide)]
    rfl

theorem msixCtrl_atRow (n : Fin 256) : AtRow (MSIX_CTRL n) (MSIX_CTRL 0) BLK_HI n msixCtrlDef := by
  have off : MSIX_CTRL n = 0x108000C + 0x10 * n := rfl
  have block : MSIX_CTRL n / 0x100000 = 0x10 := by omega
  have above : ∀ k, k < 0x1080000 → (MSIX_CTRL n == k) = false := fun k hk => beq_eq_false_iff_ne.2 (by omega)
  refine ⟨regDef_first (pre := hiRegs.take 10) (post := hiRegs.drop 11) (by rw [block]; rfl) (fun e he _ => ?_)
      (by rw [off]; exact Nat.le_add_right _ _) ?_,
    rfl, ?_, block, ?_, by omega, by omega⟩
  · have split_ : e ∈ hiRegs.take 7 ∨ e ∈ (hiRegs.take 10).drop 7 := by
      rw [show hiRegs.take 10 = hiRegs.take 7 ++ (hiRegs.take 10).drop 7 from rfl] at he
      exact List.mem_append.1 he
    rcases split_ with low | near
    · have all : (hiRegs.take 7).all (fun e => decide (0 < (e.dims.headD (1, 0)).1) &&
          decide (e.base + e.extent ≤ 0x1080000)) = true := by decide
      have := List.all_eq_true.1 all e low
      rw [Bool.and_eq_true, decide_eq_true_eq, decide_eq_true_eq] at this
      exact RegDef.beyond this.1 (by omega)
    · have all : ((hiRegs.take 10).drop 7).all (fun e => decide (e.dims = [(0x10, 256)]) && decide (e.base % 16 < 12) &&
          decide (e.base / 16 = 0x108000)) = true := by decide
      have := List.all_eq_true.1 all e near
      simp only [Bool.and_eq_true, decide_eq_true_eq] at this
      obtain ⟨⟨dims, apart⟩, base⟩ := this
      have rest : ((MSIX_CTRL n - e.base) % 0x10 == 0) = false := beq_eq_false_iff_ne.2 (by omega)
      rw [dims]
      unfold dimsCover dimsCover
      rw [rest, Bool.false_and]
  · rw [off]
    simp only [msixCtrlDef, dimsCover, Nat.add_sub_cancel_left, Bool.and_eq_true, beq_iff_eq, decide_eq_true_eq]
    omega
  · rw [off]
    change (0x108000C + 0x10 * n.val - 0x108000C) / 0x10 = n
    omega
  · rw [above _ (by decide), above _ (by decide)]
    rfl

end Sys2Proof.Machine

namespace Sys2Proof.Machine

/-! ### The write of a register in its block -/

/-- What a block does with the write of a register that is no event register of it. -/
def State.ownWrite (s : State) (m : Master) (d : RegDef) (off : Nat) (v : Word) (b : Nat) : State :=
  if b = BLK_TOP then s.topWrite m off v
  else if b = BLK_CK then s.ckWrite d off v
  else if b = BLK_SI then s.siWrite d off v
  else if b = BLK_ADM then s.admWrite d off v
  else if b = BLK_DS then s.dsWrite off v
  else if b = BLK_LC then s.lcWrite off v
  else if b = BLK_FS then s.fsWrite d off v
  else if b = BLK_DL then s.dlWrite d off v
  else if b = BLK_CXR then s.cxrWrite d off v
  else if b = BLK_IP then s.ipWrite d off v
  else if b = BLK_VE then s.veWrite d off v
  else if b = BLK_MC then s.mcWrite d off v
  else if b = BLK_HI then s.hiWrite d off v
  else if b = BLK_DMA then s.dmaWrite d off v
  else if b = BLK_CV then s.cvWrite d off v
  else if b = BLK_MX then s.mxWrite d off v
  else if b = BLK_QE then s.qeWrite d off v
  else if b = BLK_LE then s.leWrite d off v
  else if b = BLK_TB then s.tbWrite d off v
  else if b = BLK_EN then s.enWrite d off v
  else if b = BLK_ST then if off = ST_CMD then s.stCmdWrite v else s.typedWrite off v
  else if b = BLK_BOOT then s.bootWrite m off v
  else s.typedWrite off v

theorem blockWrite_own (s : State) (m : Master) (d : RegDef) {off : Nat} (v : Word) {b : Nat} (blk : off / 0x100000 = b)
    (plain : (hasEvents b && (off == evtEnReg b || off == evtReg b)) = false) :
    s.blockWrite m d off v = s.ownWrite m d off v b := by
  have noEn : (hasEvents b && off == evtEnReg b) = false := by
    cases h : hasEvents b
    · rfl
    · rw [h, Bool.true_and, Bool.or_eq_false_iff] at plain
      rw [plain.1]
      rfl
  have noEvt : (hasEvents b && off == evtReg b) = false := by
    cases h : hasEvents b
    · rfl
    · rw [h, Bool.true_and, Bool.or_eq_false_iff] at plain
      rw [plain.2]
      rfl
  unfold State.blockWrite
  dsimp only
  rw [blk, noEn, noEvt, if_neg Bool.false_ne_true, if_neg Bool.false_ne_true]
  rfl

section
variable {s : State} {m : Master} {off base blk ix : Nat} {d : RegDef} {v : Word}

/-- A permitted write at a register of the table. -/
theorem AtRow.written (row : AtRow off base blk ix d) (perm : s.permits m (regAddr off) true = true) :
    exec (.registerWrite m (BitVec.ofNat 26 off) v) s =
      .next ((s.busGrant m).whenAwake off fun s => s.ownWrite m d off v blk) := by
  have word : (BitVec.ofNat 26 off).toNat / 4 * 4 = off := by
    have := row.aligned
    rw [BitVec.toNat_ofNat, Nat.mod_eq_of_lt row.small]
    omega
  have own : (fun s : State => s.blockWrite m d off v) = fun s => s.ownWrite m d off v blk :=
    funext fun s => blockWrite_own s m d v row.blk row.plain
  change Host.Outcome.next _ = _
  rw [word, regGuard_permitted _ perm, State.writeReg, row.reg]
  dsimp only
  rw [own]

/-- A register of a block whose clock never sleeps. -/
theorem whenAwake_steady {f : State → State} (h : fastDomain (off / 0x100000) = none) : s.whenAwake off f = f s := by
  refine whenAwake_awake _ ?_
  unfold State.awake
  rw [h]

end

/-- A register's write does as the row `i`, that the bus has granted it or that asks for the bus itself. -/
theorem writeDoes_at {s s' : State} {m : Master} {off base blk ix : Nat} {d : RegDef} {v : Word} {i : Instr} (at_ : AtRow off base blk ix d)
    {f : State → State} (op : ∀ t : State, t.ownWrite m d off v blk = f t)
    (run : s.permits m (regAddr off) true = true → exec i s' = .next ((s.busGrant m).whenAwake off f)) : writeDoes s m off v i s' := by
  intro perm
  have own : (fun t : State => t.ownWrite m d off v blk) = f := funext op
  rw [at_.written perm, own, run perm]

theorem writeDoes_of {s s' : State} {m : Master} {off base blk ix : Nat} {v : Word} {i : Instr} (row : rowAt off base blk ix = true)
    {f : State → State} (op : ∀ d (t : State), AtRow off base blk ix d → t.ownWrite m d off v blk = f t)
    (run : s.permits m (regAddr off) true = true → exec i s' = .next ((s.busGrant m).whenAwake off f)) : writeDoes s m off v i s' := by
  obtain ⟨d, at_⟩ := atRow row
  exact writeDoes_at at_ (fun t => op d t at_) run

end Sys2Proof.Machine

namespace Sys2Proof.Machine

section
variable {s : State} {m : Master} {v : Word}

/-! ### Registers whose write is a row of its own -/

/-- The clock of a register's block never sleeps. -/
theorem steady_of {off base blk ix : Nat} (row : rowAt off base blk ix = true) (steady : fastDomain blk = none) :
    fastDomain (off / 0x100000) = none := by
  obtain ⟨d, at_⟩ := atRow row
  rw [at_.blk]
  exact steady

/-- A register of a block whose clock never sleeps: the row that the bus has granted. -/
theorem granted_family {off base blk ix : Nat} {i : Instr} {f : State → State} (row : rowAt off base blk ix = true)
    (steady : fastDomain blk = none) (op : ∀ d (t : State), AtRow off base blk ix d → t.ownWrite m d off v blk = f t)
    (run : ∀ t, exec i t = .next (f t)) : writeDoes s m off v i (s.busGrant m) :=
  writeDoes_of row op fun _ => (run _).trans (congrArg _ (whenAwake_steady (steady_of row steady)).symm)

/-- A register alone in its family, likewise. -/
theorem granted_steady {off blk : Nat} {i : Instr} {f : State → State} (row : rowAt off off blk 0 = true)
    (steady : fastDomain blk = none) (op : ∀ d (t : State), t.ownWrite m d off v blk = f t)
    (run : ∀ t, exec i t = .next (f t)) : writeDoes s m off v i (s.busGrant m) :=
  granted_family row steady (fun d t _ => op d t) run

/-- A register of a block that may sleep. -/
theorem granted_awake {off base blk ix : Nat} {i : Instr} {f : State → State} (row : rowAt off base blk ix = true)
    (op : ∀ d (t : State), AtRow off base blk ix d → t.ownWrite m d off v blk = f t)
    (run : ∀ t, exec i t = .next (t.whenAwake off f)) : writeDoes s m off v i (s.busGrant m) :=
  writeDoes_of row op fun _ => run _

/-- A row that asks for the bus itself. -/
theorem row_steady {off base blk ix : Nat} {i : Instr} {f : State → State} (row : rowAt off base blk ix = true)
    (steady : fastDomain blk = none) (op : ∀ d (t : State), AtRow off base blk ix d → t.ownWrite m d off v blk = f t)
    (run : exec i s = .next (s.regGuard m off true f)) : writeDoes s m off v i s :=
  writeDoes_of row op fun perm => by rw [run, regGuard_permitted _ perm, whenAwake_steady (steady_of row steady)]

theorem masters_rows : writeDoes s m SEM_REL v (.semRel m v) s ∧ writeDoes s m SEM_FORCE v (.semForce m v) s ∧
    writeDoes s m CK_SYSRST v (.ckSysrst m v) s ∧ writeDoes s m LC_SET_HI v (.lcSet m v) s ∧
    writeDoes s m FS_CUTCLR v (.fsCutclr m v) s ∧ writeDoes s m BOOT_SVN_ADV v (.svnAdv m v) s := by
  refine ⟨row_steady (base := SEM_REL) (blk := BLK_TOP) (ix := 0) (by decide) rfl (fun _ _ _ => rfl) rfl,
    row_steady (base := SEM_FORCE) (blk := BLK_TOP) (ix := 0) (by decide) rfl (fun _ _ _ => rfl) rfl,
    row_steady (base := CK_SYSRST) (blk := BLK_CK) (ix := 0) (by decide) rfl (fun d t at_ => ?_) rfl,
    row_steady (base := LC_SET_HI) (blk := BLK_LC) (ix := 0) (by decide) rfl (fun _ _ _ => rfl) rfl,
    row_steady (base := FS_CUTCLR) (blk := BLK_FS) (ix := 0) (by decide) rfl (fun d t at_ => ?_) rfl,
    row_steady (base := BOOT_SVN_ADV) (blk := BLK_BOOT) (ix := 0) (by decide) rfl (fun _ _ _ => rfl) rfl⟩
  · change t.ckWrite d CK_SYSRST v = _
    unfold State.ckWrite
    rw [at_.base]
    rfl
  · change t.fsWrite d FS_CUTCLR v = _
    unfold State.fsWrite
    rw [at_.base]
    rfl

theorem single_rows : writeDoes s m SI_SAFE_REL v (.safeRel v) (s.busGrant m) ∧ writeDoes s m SI_ENB v (.siEnb v) (s.busGrant m) ∧
    writeDoes s m SI_WDG v (.siWdg v) (s.busGrant m) ∧ writeDoes s m PQ_POP v (.pqPop v) (s.busGrant m) ∧
    writeDoes s m HI_SWEVT v (.hiSwevt v) (s.busGrant m) ∧ writeDoes s m LE_CTRL v (.engineEnable v) (s.busGrant m) ∧
    writeDoes s m TB_INC_NS v (.tbIncNsWrite v) (s.busGrant m) ∧ writeDoes s m TB_SET_SHI v (.tbSet v) (s.busGrant m) ∧
    writeDoes s m TB_ADJ_HI v (.tbAdj v) (s.busGrant m) ∧ writeDoes s m TB_XS_CMD v (.tbXsCmd v) (s.busGrant m) := by
  refine ⟨granted_steady (blk := BLK_SI) (by decide) rfl (fun _ _ => rfl) fun _ => rfl,
    granted_steady (blk := BLK_SI) (by decide) rfl (fun _ _ => rfl) fun _ => rfl,
    granted_steady (blk := BLK_SI) (by decide) rfl (fun _ _ => rfl) fun _ => rfl,
    granted_steady (blk := BLK_LC) (by decide) rfl (fun _ _ => rfl) fun _ => rfl,
    granted_family (base := HI_SWEVT) (blk := BLK_HI) (ix := 0) (by decide) rfl (fun d t at_ => ?_) fun _ => rfl,
    granted_steady (blk := BLK_LE) (by decide) rfl (fun _ _ => rfl) fun _ => rfl,
    granted_steady (blk := BLK_TB) (by decide) rfl (fun _ _ => rfl) fun _ => rfl,
    granted_steady (blk := BLK_TB) (by decide) rfl (fun _ _ => rfl) fun _ => rfl,
    granted_steady (blk := BLK_TB) (by decide) rfl (fun _ _ => rfl) fun _ => rfl,
    granted_steady (blk := BLK_TB) (by decide) rfl (fun _ _ => rfl) fun _ => rfl⟩
  change t.hiWrite d HI_SWEVT v = _
  unfold State.hiWrite
  rw [at_.base]
  rfl

theorem siHb_row (k : Fin 4) : writeDoes s m (SI_HB k) v (.siHb k v) (s.busGrant m) := by
  have row : ∀ k : Fin 4, rowAt (SI_HB k) (SI_HB 0) BLK_SI k = true := by decide
  have apart : ∀ k : Fin 4, SI_HB k ≠ SI_SAFE_REL ∧ SI_HB k ≠ SI_ENB ∧ SI_HB k ≠ SI_WDG ∧ SI_HB k ≠ SI_HBEN := by decide
  refine granted_family (row k) rfl (fun d t at_ => ?_) fun _ => rfl
  obtain ⟨h1, h2, h3, h4⟩ := apart k
  change t.siWrite d (SI_HB k) v = _
  unfold State.siWrite
  rw [if_neg h1, if_neg h2, if_neg h3, if_neg h4, at_.base, if_pos rfl, at_.ix]

theorem calGo_row (k : Fin 4) : writeDoes s m (CAL_CTRL k) v (.calGo k v) (s.busGrant m) := by
  have row : ∀ k : Fin 4, rowAt (CAL_CTRL k) (CAL_CTRL 0) BLK_IP k = true := by decide
  refine granted_awake (row k) (fun d t at_ => ?_) fun _ => rfl
  change t.ipWrite d (CAL_CTRL k) v = _
  unfold State.ipWrite
  dsimp only
  rw [at_.base, if_pos rfl, at_.ix, show Fin.ofNat 4 k.val = k from Fin.ext (Nat.mod_eq_of_lt k.isLt)]

/-- The registers of a check unit whose writes feed it or run it. -/
theorem checkUnit_rows (u : Fin 8) :
    writeDoes s m (CV_DATA8 u) v (.cvData8 u v) (s.busGrant m) ∧ writeDoes s m (CV_DATA16 u) v (.cvData16 u v) (s.busGrant m) ∧
    writeDoes s m (CV_DATA32 u) v (.cvData32 u v) (s.busGrant m) ∧ writeDoes s m (CV_START u) v (.cvStart u v) (s.busGrant m) ∧
    writeDoes s m (CV_END u) v (.cvEnd u v) (s.busGrant m) ∧ writeDoes s m (CV_VALUE u) v (.cvValueWrite u v) (s.busGrant m) := by
  have rows : ∀ u : Fin 8, rowAt (CV_DATA8 u) (CV_DATA8 0) BLK_CV u = true ∧ rowAt (CV_DATA16 u) (CV_DATA16 0) BLK_CV u = true ∧
      rowAt (CV_DATA32 u) (CV_DATA32 0) BLK_CV u = true ∧ rowAt (CV_START u) (CV_START 0) BLK_CV u = true ∧
      rowAt (CV_END u) (CV_END 0) BLK_CV u = true ∧ rowAt (CV_VALUE u) (CV_VALUE 0) BLK_CV u = true := by decide
  have op : ∀ (off base : Nat) (f : State → State), (∀ d (t : State), d.base = base → (d.ix off).1 = u.val → t.cvWrite d off v = f t) →
      ∀ d (t : State), AtRow off base BLK_CV u d → t.ownWrite m d off v BLK_CV = f t := fun _ _ _ h d t at_ => h d t at_.base at_.ix
  obtain ⟨r8, r16, r32, rStart, rEnd, rValue⟩ := rows u
  refine ⟨granted_family r8 rfl (op _ _ _ fun d t hb hi => ?_) fun _ => rfl,
    granted_family r16 rfl (op _ _ _ fun d t hb hi => ?_) fun _ => rfl,
    granted_family r32 rfl (op _ _ _ fun d t hb hi => ?_) fun _ => rfl,
    granted_family rStart rfl (op _ _ _ fun d t hb hi => ?_) fun _ => rfl,
    granted_family rEnd rfl (op _ _ _ fun d t hb hi => ?_) fun _ => rfl,
    granted_family rValue rfl (op _ _ _ fun d t hb hi => ?_) fun _ => rfl⟩
  all_goals
    unfold State.cvWrite
    dsimp only
    rw [hb, hi]
    rfl

/-- The registers of an axis whose writes are rows for every value. -/
theorem axis_rows (a : Fin 8) :
    writeDoes s m (AX_POS a) v (.axPosWrite a v) (s.busGrant m) ∧ writeDoes s m (AX_FLAG a) v (.tripClear a v) (s.busGrant m) := by
  have rows : ∀ a : Fin 8, rowAt (AX_POS a) (AX_POS 0) BLK_MX a = true ∧ rowAt (AX_FLAG a) (AX_FLAG 0) BLK_MX a = true := by decide
  refine ⟨granted_family (rows a).1 rfl (fun d t at_ => ?_) fun _ => rfl,
    granted_family (rows a).2 rfl (fun d t at_ => ?_) fun _ => rfl⟩
  all_goals
    change t.mxWrite d _ v = _
    unfold State.mxWrite
    dsimp only
    rw [at_.base, at_.ix]
    rfl

theorem encoder_rows (q : Fin 10) :
    writeDoes s m (QE_CFG q) v (.qeEnable q v) (s.busGrant m) ∧ writeDoes s m (QE_COUNT q) v (.qeCountWrite q v) (s.busGrant m) := by
  have rows : ∀ q : Fin 10, rowAt (QE_CFG q) (QE_CFG 0) BLK_QE q = true ∧ rowAt (QE_COUNT q) (QE_COUNT 0) BLK_QE q = true := by decide
  refine ⟨granted_family (rows q).1 rfl (fun d t at_ => ?_) fun _ => rfl,
    granted_family (rows q).2 rfl (fun d t at_ => ?_) fun _ => rfl⟩
  all_goals
    change t.qeWrite d _ v = _
    unfold State.qeWrite
    dsimp only
    rw [at_.base, at_.ix]
    rfl

theorem camera_rows (n : Fin 12) :
    writeDoes s m (CAM_CFG n) v (.camCfgWrite n v) (s.busGrant m) ∧ writeDoes s m (MBX_CMD n) v (.mbxGo n v) (s.busGrant m) := by
  have rows : ∀ n : Fin 12, rowAt (CAM_CFG n) (CAM_CFG 0) BLK_CXR n = true ∧ rowAt (MBX_CMD n) (MBX_CMD 0) BLK_CXR n = true := by decide
  have apart : ∀ n : Fin 12, CAM_CFG n ≠ CXR_CHECK ∧ MBX_CMD n ≠ CXR_CHECK := by decide
  have same : Fin.ofNat 12 n.val = n := Fin.ext (Nat.mod_eq_of_lt n.isLt)
  refine ⟨granted_awake (rows n).1 (fun d t at_ => ?_) fun _ => rfl, granted_awake (rows n).2 (fun d t at_ => ?_) fun _ => rfl⟩
  · change t.cxrWrite d _ v = _
    unfold State.cxrWrite
    dsimp only
    rw [if_neg (apart n).1, at_.base, if_pos rfl, at_.ix, same]
  · change t.cxrWrite d _ v = _
    unfold State.cxrWrite
    dsimp only
    rw [if_neg (apart n).2, at_.base, at_.ix, same]
    rfl

theorem doorbell_rows (n : Fin 16) :
    writeDoes s m (HI_DB n) v (.doorbell n v) (s.busGrant m) ∧ writeDoes s m (DL_CFGW n) v (.cfgw n v) (s.busGrant m) := by
  have rows : ∀ n : Fin 16, rowAt (HI_DB n) (HI_DB 0) BLK_HI n = true ∧ rowAt (DL_CFGW n) (DL_CFGW 0) BLK_DL n = true := by decide
  refine ⟨granted_family (rows n).1 rfl (fun d t at_ => ?_) fun _ => rfl,
    granted_awake (rows n).2 (fun d t at_ => ?_) fun _ => rfl⟩
  · change t.hiWrite d _ v = _
    unfold State.hiWrite
    rw [at_.base, at_.ix, if_pos rfl]
  · change t.dlWrite d _ v = _
    unfold State.dlWrite
    rw [at_.base, at_.ix]
    rfl

theorem lane_rows (n : Fin 32) :
    writeDoes s m (DL_LANE_CFG n) v (.laneEnable n v) (s.busGrant m) ∧ writeDoes s m (CHAIN_POKE n) v (.chainPoke n v) (s.busGrant m) ∧
    writeDoes s m (LP_CFG n) v (.loopEnable n v) (s.busGrant m) := by
  have rows : ∀ n : Fin 32, rowAt (DL_LANE_CFG n) (DL_LANE_CFG 0) BLK_DL n = true ∧ rowAt (CHAIN_POKE n) (CHAIN_POKE 0) BLK_DMA n = true ∧
      rowAt (LP_CFG n) (LP_CFG 0) BLK_LE n = true := by decide
  have apart : ∀ n : Fin 32, LP_CFG n ≠ LE_CTRL := by decide
  refine ⟨granted_awake (rows n).1 (fun d t at_ => ?_) fun _ => rfl, granted_family (rows n).2.1 rfl (fun d t at_ => ?_) fun _ => rfl,
    granted_family (rows n).2.2 rfl (fun d t at_ => ?_) fun _ => rfl⟩
  · change t.dlWrite d _ v = _
    unfold State.dlWrite
    rw [at_.base, at_.ix, if_pos rfl]
  · change t.dmaWrite d _ v = _
    unfold State.dmaWrite
    dsimp only
    rw [at_.base, at_.ix]
    rfl
  · change t.leWrite d _ v = _
    unfold State.leWrite
    dsimp only
    rw [if_neg (apart n), at_.base, at_.ix, if_pos rfl]

/-- The registers whose write is a row for every value. -/
theorem writes_are_rows (s : State) (m : Master) (v : Word) : writesAreRows s m v :=
  ⟨masters_rows, single_rows, fun k => ⟨siHb_row k, calGo_row k⟩,
    fun u => by
      obtain ⟨d8, d16, d32, start, end_, value⟩ := checkUnit_rows (s := s) (m := m) (v := v) u
      exact ⟨d8, d16, d32, start, end_, value, axis_rows u⟩,
    fun q => encoder_rows q, fun n => camera_rows n, fun n => doorbell_rows n, fun n => lane_rows n⟩

end

end Sys2Proof.Machine

namespace Sys2Proof.Machine

section
variable {s : State} {m : Master} {v : Word}

/-! ### Registers whose write is a row for values of a field -/

/-- A field that holds a value has that value put in it already. -/
theorem fldPut_held {f : Fld} {x : Nat} (h : fldGet f v = x) : fldPut f x v = v := by
  rw [← h, fldPut_fldGet]

theorem domain_row (d : Fin 3) {r : Nat} {i : Instr} (hv : v = fldPut CK_DOM_REQ r (s.reg (CK_DOM d)))
    (run : exec i s = .next (s.domCommand m d r)) : writeDoes s m (CK_DOM d) v i s := by
  have row : ∀ d : Fin 3, rowAt (CK_DOM d) (CK_DOM 0) BLK_CK d = true := by decide
  have steady : ∀ d : Fin 3, fastDomain (CK_DOM d / 0x100000) = none := by decide
  refine writeDoes_of (row d) (f := fun t => t.ckDomWrite d v) (fun x t at_ => ?_) fun perm => ?_
  · change t.ckWrite x (CK_DOM d) v = _
    unfold State.ckWrite
    rw [at_.base, at_.ix, if_pos rfl]
  · rw [run, State.domCommand, regGuard_permitted _ perm, whenAwake_steady (steady d), reg_busGrant, ← hv]

theorem route_row (n : Fin 864) : writeDoes s m (EVT_ROUTE n) v (.evtRouteWrite m n v) s := by
  have at_ := evtRoute_atRow n
  have block := at_.blk
  refine writeDoes_at at_ (f := fun t => t.typedWrite (EVT_ROUTE n) v) (fun t => ?_) fun perm => ?_
  · change t.topWrite m (EVT_ROUTE n) v = _
    unfold State.topWrite
    rw [if_neg (by unfold EVT_ROUTE SEM_REL; omega), if_neg (by unfold EVT_ROUTE SEM_FORCE; omega)]
  · change Host.Outcome.next (s.regGuard m (EVT_ROUTE n) true _) = _
    rw [regGuard_permitted _ perm, whenAwake_steady (by rw [block]; rfl)]

theorem ownWrite_vector {d : RegDef} {off k : Nat} (t : State) (base : d.base = MSIX_CTRL 0) (ix : (d.ix off).1 = k) (apart : off ≠ HI_SWEVT) :
    t.ownWrite m d off v BLK_HI = t.vectorCtrlWrite k v := by
  change t.hiWrite d off v = _
  unfold State.hiWrite
  rw [base, ix, if_neg (by decide), if_neg apart, if_pos rfl]

theorem unmask_row (n : Fin 256) (hv : v = 0) : writeDoes s m (MSIX_CTRL n) v (.vectorUnmask n) (s.busGrant m) := by
  have at_ := msixCtrl_atRow n
  have block : fastDomain (MSIX_CTRL n / 0x100000) = none := by rw [at_.blk]; rfl
  have apart : MSIX_CTRL n ≠ HI_SWEVT := by unfold MSIX_CTRL HI_SWEVT; omega
  refine writeDoes_at at_ (f := fun t => t.vectorCtrlWrite n v) (fun t => ownWrite_vector t at_.base at_.ix apart) fun _ => ?_
  rw [whenAwake_steady block, hv]
  rfl

/-- The commands of a job slot. -/
theorem slot_rows (j : Fin 2) :
    (fldGet SLOT_CMD_CMD v = 1 → writeDoes s m (SLOT_CMD j) v (.admitJob j) (s.busGrant m)) ∧
    (fldGet SLOT_CMD_CMD v = 2 → writeDoes s m (SLOT_CMD j) v (.slotStart j) (s.busGrant m)) ∧
    (fldGet SLOT_CMD_CMD v = 3 → writeDoes s m (SLOT_CMD j) v (.release j) (s.busGrant m)) := by
  have row : ∀ j : Fin 2, rowAt (SLOT_CMD j) (SLOT_CMD 0) BLK_ADM j = true := by decide
  refine ⟨fun h => granted_awake (row j) (fun d t at_ => ?_) fun _ => rfl, fun h => granted_awake (row j) (fun d t at_ => ?_) fun _ => rfl,
    fun h => granted_awake (row j) (fun d t at_ => ?_) fun _ => rfl⟩
  all_goals
    change t.admWrite d (SLOT_CMD j) v = _
    unfold State.admWrite
    dsimp only
    rw [at_.base, at_.ix, if_pos rfl, h]
    rfl

/-- Commands of blocks that may sleep. -/
theorem fast_rows :
    (fldGet DS_EPOCH_CMD_COMMIT v = 1 → writeDoes s m DS_EPOCH_CMD v .commit (s.busGrant m)) ∧
    (fldGet CXR_CHECK_GO v = 1 → writeDoes s m CXR_CHECK v .check (s.busGrant m)) ∧
    (if fldGet VE_CTRL_EN v = 1 then writeDoes s m VE_CTRL v (.veEnable v) (s.busGrant m)
      else writeDoes s m VE_CTRL v (.veDisable v) (s.busGrant m)) := by
  refine ⟨fun h => granted_awake (base := DS_EPOCH_CMD) (blk := BLK_DS) (ix := 0) (by decide) (fun d t at_ => ?_) fun _ => rfl,
    fun h => granted_awake (base := CXR_CHECK) (blk := BLK_CXR) (ix := 0) (by decide) (fun d t at_ => ?_) fun _ => rfl, ?_⟩
  · change t.dsWrite DS_EPOCH_CMD v = _
    unfold State.dsWrite
    rw [if_neg (by decide), if_pos rfl, if_pos h]
  · change t.cxrWrite d CXR_CHECK v = _
    unfold State.cxrWrite
    dsimp only
    rw [if_pos rfl, if_pos h]
    rfl
  · split
    · next h =>
      refine granted_awake (base := VE_CTRL) (blk := BLK_VE) (ix := 0) (by decide) (fun d t at_ => ?_) fun _ => rfl
      change t.veWrite d VE_CTRL v = _
      unfold State.veWrite
      rw [if_pos rfl, if_pos h]
    · next h =>
      refine granted_awake (base := VE_CTRL) (blk := BLK_VE) (ix := 0) (by decide) (fun d t at_ => ?_) fun _ => rfl
      change t.veWrite d VE_CTRL v = _
      unfold State.veWrite
      rw [if_pos rfl, if_neg h]

/-- A register of the DRAM controller behind those of its ports. -/
theorem mcWrite_behind {d : RegDef} {off : Nat} (t : State) (h : 0xF00300 ≤ off) : t.mcWrite d off v =
    if d.base = MC_TRN_CMD 0 then t.trnCmdWrite (d.ix off).1 v
    else if d.base = MC_MIG_CMD 0 then t.migCmdWrite (d.ix off).1 v
    else if d.base = MC_SB 0 then t.sbWrite (d.ix off).1 v
    else if d.base = MC_DELAY 0 0 0 0 then
      t.delayWrite ((off - d.base) / 0x10000) ((off - d.base) / 0x4000 % 4) ((off - d.base) / 0x1000 % 4) ((off - d.base) % 0x1000 / 4) v
    else t.typedWrite off v := by
  unfold State.mcWrite
  dsimp only
  rw [if_neg (by unfold MC_CFG; omega), if_neg (by unfold MC_FREQ_CMD; omega), if_neg (by unfold MC_PORT_CFG0; omega)]

theorem controller_rows :
    (fldGet MC_CFG_ENABLE v = 1 → writeDoes s m MC_CFG v (.mcEnable v) (s.busGrant m)) ∧
    (fldGet MC_FREQ_CMD_GO v = 1 → writeDoes s m MC_FREQ_CMD v (.freqChange v) (s.busGrant m)) := by
  refine ⟨fun h => granted_steady (blk := BLK_MC) (by decide) rfl (fun d t => ?_) fun _ => rfl,
    fun h => granted_steady (blk := BLK_MC) (by decide) rfl (fun d t => ?_) fun _ => rfl⟩
  · rw [fldPut_held h]
    rfl
  · rw [fldPut_held h]
    rfl

/-- The training commands of a channel. -/
theorem training_row (c : Fin 8) {op : Nat} {i : Instr} (go : fldGet MC_TRN_CMD_GO v = 1) (hop : fldGet MC_TRN_CMD_OP v = op)
    (run : ∀ t, exec i t = .next (t.trnCommand c op v)) : writeDoes s m (MC_TRN_CMD c) v i (s.busGrant m) := by
  have row : ∀ c : Fin 8, rowAt (MC_TRN_CMD c) (MC_TRN_CMD 0) BLK_MC c = true := by decide
  refine granted_family (row c) rfl (fun d t at_ => ?_) run
  change t.mcWrite d (MC_TRN_CMD c) v = _
  rw [mcWrite_behind t (by unfold MC_TRN_CMD; omega), at_.base, at_.ix, if_pos rfl, State.trnCommand, fldPut_held hop, fldPut_held go]

theorem ownWrite_delay {d : RegDef} {off c p r e : Nat} (t : State) (base : d.base = MC_DELAY 0 0 0 0)
    (place : off = MC_DELAY 0 0 0 0 + (0x10000 * c + 0x4000 * p + 0x1000 * r + 4 * e)) (hp : p < 4) (hr : r < 4) (he : e < 0x400) :
    t.ownWrite m d off v BLK_MC = t.delayWrite c p r e v := by
  obtain ⟨x, hx⟩ : ∃ x, 0x10000 * c + 0x4000 * p + 0x1000 * r + 4 * e = x := ⟨_, rfl⟩
  have parts : x / 0x10000 = c ∧ x / 0x4000 % 4 = p ∧ x / 0x1000 % 4 = r ∧ x % 0x1000 / 4 = e := by omega
  obtain ⟨hc, hp', hr', he'⟩ := parts
  have low : 0xF00300 ≤ off := by rw [place]; unfold MC_DELAY; omega
  have gap : off - MC_DELAY 0 0 0 0 = x := by rw [place, hx, Nat.add_sub_cancel_left]
  change t.mcWrite d off v = _
  rw [mcWrite_behind t low, base, gap, hc, hp', hr', he', if_neg (by decide), if_neg (by decide), if_neg (by decide), if_pos rfl]

/-- The other commands of a channel, and its delay entries. -/
theorem channel_rows (c : Fin 8) :
    (fldGet MC_MIG_CMD_CMD v = 1 → writeDoes s m (MC_MIG_CMD c) v (.migrationStart c v) (s.busGrant m)) ∧
    (fldGet MC_MIG_CMD_CMD v = 2 → writeDoes s m (MC_MIG_CMD c) v (.migrationAbort c v) (s.busGrant m)) ∧
    (fldGet MC_SB_GO v = 1 → writeDoes s m (MC_SB c) v (.sideband c v) (s.busGrant m)) ∧
    ∀ (p r : BitVec 2) (e : Fin 116),
      writeDoes s m (MC_DELAY c p.toNat r.toNat e) v (.delayEntryWrite c p r e v) (s.busGrant m) := by
  have rows : ∀ c : Fin 8, rowAt (MC_MIG_CMD c) (MC_MIG_CMD 0) BLK_MC c = true ∧ rowAt (MC_SB c) (MC_SB 0) BLK_MC c = true := by decide
  have migrate : ∀ (x : Nat), fldGet MC_MIG_CMD_CMD v = x → ∀ d (t : State), AtRow (MC_MIG_CMD c) (MC_MIG_CMD 0) BLK_MC c d →
      t.ownWrite m d (MC_MIG_CMD c) v BLK_MC = t.migCmdWrite c (fldPut MC_MIG_CMD_CMD x v) := fun x hx d t at_ => by
    change t.mcWrite d (MC_MIG_CMD c) v = _
    rw [mcWrite_behind t (by unfold MC_MIG_CMD; omega), at_.base, at_.ix, fldPut_held hx]
    rfl
  refine ⟨fun h => granted_family (rows c).1 rfl (migrate 1 h) fun _ => rfl,
    fun h => granted_family (rows c).1 rfl (migrate 2 h) fun _ => rfl,
    fun h => granted_family (rows c).2 rfl (fun d t at_ => ?_) fun _ => rfl, fun p r e => ?_⟩
  · change t.mcWrite d (MC_SB c) v = _
    rw [mcWrite_behind t (by unfold MC_SB; omega), at_.base, at_.ix, fldPut_held h]
    rfl
  · have at_ := mcDelay_atRow c p r e
    have block : fastDomain (MC_DELAY c p.toNat r.toNat e / 0x100000) = none := by rw [at_.blk]; rfl
    have place : MC_DELAY c p.toNat r.toNat e = MC_DELAY 0 0 0 0 + (0x10000 * c.val + 0x4000 * p.toNat + 0x1000 * r.toNat + 4 * e.val) := by
      unfold MC_DELAY
      omega
    refine writeDoes_at at_ (f := fun t => t.delayWrite c p.toNat r.toNat e v)
      (fun t => ownWrite_delay t at_.base place p.isLt r.isLt (by omega)) fun _ => ?_
    rw [whenAwake_steady block]
    rfl

theorem channelStart_row (n : Fin 32) (start : fldGet CH_CTRL_START v = 1) (noAbort : fldGet CH_CTRL_ABORT v = 0) :
    writeDoes s m (CH_CTRL n) v (.channelStart n) (s.busGrant m) := by
  have row : ∀ n : Fin 32, rowAt (CH_CTRL n) (CH_CTRL 0) BLK_DMA n = true := by decide
  refine granted_family (row n) rfl (fun d t at_ => ?_) fun _ => rfl
  change t.dmaWrite d (CH_CTRL n) v = t.chStart n
  unfold State.dmaWrite
  dsimp only
  rw [at_.base, at_.ix, if_neg (by decide), if_pos rfl]
  unfold State.chCtrlWrite
  dsimp only
  rw [if_pos start, noAbort, if_neg (by decide)]

/-- The commands of an axis. -/
theorem axis_row (a : Fin 8) {op : Nat} {i : Instr} (hop : fldGet AX_CMD_CMD v = op)
    (run : ∀ t, exec i t = .next (t.axCommand a op (fldGet AX_CMD_SET v) (fldGet AX_CMD_FIRSTSEG v))) :
    writeDoes s m (AX_CMD a) v i (s.busGrant m) := by
  have row : ∀ a : Fin 8, rowAt (AX_CMD a) (AX_CMD 0) BLK_MX a = true := by decide
  refine granted_family (row a) rfl (fun d t at_ => ?_) run
  change t.mxWrite d (AX_CMD a) v = _
  unfold State.mxWrite
  dsimp only
  rw [at_.base, at_.ix, if_neg (by decide), if_pos rfl, State.axCmdWrite, hop]

/-- A bit that is set is set already. -/
theorem or_held {x : Word} (h : ∀ i < 32, x.getLsbD i = true → v.getLsbD i = true) : v ||| x = v := by
  refine BitVec.eq_of_getLsbD_eq fun i hi => ?_
  rw [BitVec.getLsbD_or]
  cases hx : x.getLsbD i
  · exact Bool.or_false _
  · rw [h i hi hx]
    rfl

theorem trigger_rows :
    (v.getLsbD 31 = true → writeDoes s m LE_TRIG v (.arm v) (s.busGrant m)) ∧
    (v.getLsbD 30 = true → writeDoes s m LE_TRIG v (.force v) (s.busGrant m)) := by
  have op : ∀ d (t : State), AtRow LE_TRIG LE_TRIG BLK_LE 0 d → t.ownWrite m d LE_TRIG v BLK_LE = t.leTrigWrite v := fun d t at_ => by
    change t.leWrite d LE_TRIG v = _
    unfold State.leWrite
    dsimp only
    rw [at_.base]
    rfl
  have only31 : ∀ i < 32, (0x80000000 : Word).getLsbD i = true → i = 31 := by decide
  have only30 : ∀ i < 32, (0x40000000 : Word).getLsbD i = true → i = 30 := by decide
  refine ⟨fun h => granted_family (by decide) rfl op fun t => ?_, fun h => granted_family (by decide) rfl op fun t => ?_⟩
  · change Host.Outcome.next (t.leTrigWrite (v ||| 0x80000000)) = _
    rw [or_held fun i hi hx => by rw [only31 i hi hx]; exact h]
  · change Host.Outcome.next (t.leTrigWrite (v ||| 0x40000000)) = _
    rw [or_held fun i hi hx => by rw [only30 i hi hx]; exact h]

theorem tail_rows (e : Fin 2) :
    writeDoes s m (EN_TX_TAIL e) v (.tailWrite e true v) (s.busGrant m) ∧ writeDoes s m (EN_RX_TAIL e) v (.tailWrite e false v) (s.busGrant m) := by
  have rows : ∀ e : Fin 2, rowAt (EN_TX_TAIL e) (EN_TX_TAIL 0) BLK_EN e = true ∧ rowAt (EN_RX_TAIL e) (EN_RX_TAIL 0) BLK_EN e = true := by decide
  refine ⟨granted_family (rows e).1 rfl (fun d t at_ => ?_) fun _ => rfl,
    granted_family (rows e).2 rfl (fun d t at_ => ?_) fun _ => rfl⟩
  · change t.enWrite d _ v = _
    unfold State.enWrite
    rw [at_.base, if_neg fun h => absurd h.1 (by decide)]
    rfl
  · change t.enWrite d _ v = _
    unfold State.enWrite
    rw [at_.base, if_neg fun h => absurd h.1 (by decide)]
    rfl

/-- The commands of the in-service tests. -/
theorem test_row {op : Nat} {i : Instr} (hop : fldGet ST_CMD_OP v = op)
    (run : ∀ t, exec i t = .next (t.stCommand op (BitVec.ofNat 9 (fldGet ST_CMD_U v)).toNat)) : writeDoes s m ST_CMD v i (s.busGrant m) := by
  have unit : (BitVec.ofNat 9 (fldGet ST_CMD_U v)).toNat = fldGet ST_CMD_U v := by
    exact (BitVec.toNat_ofNat _ _).trans (Nat.mod_eq_of_lt (fldGet_lt ST_CMD_U v))
  rw [unit] at run
  refine granted_steady (blk := BLK_ST) (by decide) rfl (fun d t => ?_) run
  change t.stCmdWrite v = _
  rw [State.stCmdWrite, hop]

theorem vcmdWrite_of {w : Word} (t : State) (go : fldGet BOOT_VCMD_GO v = fldGet BOOT_VCMD_GO w)
    (op : fldGet BOOT_VCMD_OP v = fldGet BOOT_VCMD_OP w) :
    t.vcmdWrite v = t.vcmdWrite w := by
  unfold State.vcmdWrite
  rw [go, op]

/-- The commands that verify an image. -/
theorem verify_row {op : Nat} {i : Instr} (small : op < 4) (go : fldGet BOOT_VCMD_GO v = 1) (hop : fldGet BOOT_VCMD_OP v = op)
    (run : ∀ t, exec i t = .next (t.vcmd op)) : writeDoes s m BOOT_VCMD v i (s.busGrant m) := by
  have word : ∀ op < 4, fldGet BOOT_VCMD_GO (BitVec.ofNat 32 (1 + 2 * op)) = 1 ∧ fldGet BOOT_VCMD_OP (BitVec.ofNat 32 (1 + 2 * op)) = op := by
    decide
  refine granted_steady (blk := BLK_BOOT) (by decide) rfl (fun d t => ?_) run
  change t.vcmdWrite v = t.vcmdWrite _
  exact vcmdWrite_of t (go.trans (word op small).1.symm) (hop.trans (word op small).2.symm)

/-- The registers whose write is a row for some values of their fields. -/
theorem commands_are_rows (s : State) (m : Master) (v : Word) : commandsAreRows s m v := by
  refine ⟨fun d => ⟨fun h => domain_row d h rfl, fun h => domain_row d h rfl, fun h => domain_row d h rfl⟩, fun n => route_row n,
    fun n h => unmask_row n h, fun j => slot_rows j, fast_rows.1, fast_rows.2.1, fast_rows.2.2, controller_rows.1, controller_rows.2,
    fun c => ⟨fun go => ?_, channel_rows c⟩, fun n start noAbort => channelStart_row n start noAbort, fun a => ?_, trigger_rows.1, trigger_rows.2,
    fun e => tail_rows e, ?_, fun go => ?_⟩
  · exact ⟨fun h => training_row c go h fun _ => rfl, fun h => training_row c go h fun _ => rfl, fun h => training_row c go h fun _ => rfl,
      fun h => training_row c go h fun _ => rfl, fun h => training_row c go h fun _ => rfl, fun h => training_row c go h fun _ => rfl,
      fun h => training_row c go h fun _ => rfl⟩
  · exact ⟨fun h => axis_row a h fun _ => rfl, fun h => axis_row a h fun _ => rfl, fun h => axis_row a h fun _ => rfl,
      fun h => axis_row a h fun _ => rfl, fun h => axis_row a h fun _ => rfl, fun h => axis_row a h fun _ => rfl⟩
  · exact ⟨fun h => test_row h fun _ => rfl, fun h => test_row h fun _ => rfl, fun h => test_row h fun _ => rfl, fun h => test_row h fun _ => rfl,
      fun h => test_row h fun _ => rfl⟩
  · exact ⟨fun h => verify_row (by decide) go h fun _ => rfl, fun h => verify_row (by decide) go h fun _ => rfl,
      fun h => verify_row (by decide) go h fun _ => rfl⟩

end

end Sys2Proof.Machine

namespace Sys2Proof.Machine

/-! ### The access types (R3, R4, R465) -/

/-- A register has been written by the access types of its fields, and nothing else has changed but what a report
changes. -/
structure Typed (s t : State) (off : Nat) (d : RegDef) (v : Word) : Prop where
  frame : Frame s t [off] []
  value : t.reg off = s.typedValue d off v
  held : s.bit PROT_LOCK PROT_LOCK_LOCK = true → s.reg off &&& d.rwl ≠ v &&& d.rwl →
    Reported s t 0x00C2 0xFF (BitVec.ofNat 48 (regAddr off))

/-- No register that a report changes has RWL bits. -/
theorem reports_noRwl : ∀ off ∈ reportRegs [], ∀ d, regDef? off = some d → d.rwl = 0 := by
  have all : ((reportRegs []).all fun off => match regDef? off with | some d => d.rwl == 0 | none => true) = true := by decide
  intro off mem d hd
  have := List.all_eq_true.1 all off mem
  rw [hd] at this
  exact beq_iff_eq.1 this

theorem typedWrite_typed (s : State) {off : Nat} {d : RegDef} (v : Word) (hd : regDef? off = some d) :
    Typed s (s.typedWrite off v) off d v := by
  refine ⟨typedWrite_frame s v hd, ?_, fun locked differs => ?_⟩
  · rw [typedWrite_eq s v hd]
    split
    · next report =>
      have notReport : off ∉ reportRegs [] := fun mem => by
        have none_ : ∀ w : Word, w &&& d.rwl = 0#32 := fun w => by rw [reports_noRwl off mem d hd]; exact BitVec.and_zero
        rw [none_, none_, decide_eq_false (fun h => h rfl), Bool.and_false] at report
        exact Bool.noConfusion report
      rw [reg_fault _ _ _ _ _ notReport, reg_setReg_same]
      rfl
    · exact reg_setReg_same _ _ _
  · rw [typedWrite_eq s v hd, if_pos (by rw [locked, decide_eq_true differs]; rfl)]
    exact Reported.from (fault_reported _ _ _ _) rfl

/-! ### Event registers (R20, R21, R24) -/

/-- What messages to the host leave. -/
def Routed (s t : State) : Prop := Evented s t ∧ ∀ o, (∀ i < 8, o ≠ MSIX_PBA i) → t.reg o = s.reg o

theorem Routed.refl (s : State) : Routed s s := ⟨rfl, fun _ _ => rfl⟩

theorem Routed.trans {s t u : State} (h : Routed s t) (k : Routed t u) : Routed s u :=
  ⟨Evented.trans h.1 k.1, fun o ho => (k.2 o ho).trans (h.2 o ho)⟩

theorem routes_routed (s : State) (blk : Nat) (c : State → Nat → Bool) (xs : List Nat) :
    Routed s (xs.foldl (fun s n => if c s n then s.routeHost blk n else s) s) :=
  foldl_keeps Routed Routed.refl (fun _ _ _ => Routed.trans) _ (fun s n => by
    split
    · exact ⟨routeHost_evented s blk n, fun o ho => reg_routeHost s blk n o ho⟩
    · exact Routed.refl s) xs s

/-- They change nothing that a typed write shows. -/
theorem Typed.routed {s t u : State} {off : Nat} {d : RegDef} {v : Word} (h : Typed s t off d v) (k : Routed t u)
    (apart : ∀ i < 8, off ≠ MSIX_PBA i) : Typed s u off d v := by
  obtain ⟨evented, regs⟩ := k
  refine ⟨⟨h.frame.1.trans evented.quiet, fun o ho => ?_⟩, (regs off apart).trans h.value,
    fun locked differs => (h.held locked differs).of_si (congrArg _ evented.si) (congrArg _ evented.si)⟩
  have out : ∀ i < 8, o ≠ MSIX_PBA i := fun i hi => ((notMem_reportRegs o []).1 (notMem_reports ho)).2.2.2 i hi
  exact (regs o out).trans (h.frame.2 o ho)

/-- The enables of a block's events are written: events that wait and are enabled now are sent. -/
theorem enableWrite_typed (s : State) {off b : Nat} {d : RegDef} (v : Word) (hd : regDef? off = some d) (here : off = evtEnReg b) :
    Typed s ((s.typedWrite off v).routeNew s b) off d v := by
  refine (typedWrite_typed s v hd).routed (routes_routed _ b (fun u n => u.evtPending b n && !s.evtPending b n) _) fun i hi => ?_
  rw [here]
  unfold evtEnReg evtReg MSIX_PBA
  split
  · omega
  · split <;> omega

/-- The status of a block's events is written: a second event of one that is cleared is sent. -/
theorem statusWrite_typed (s : State) {off b : Nat} {d : RegDef} (v : Word) (hd : regDef? off = some d) (here : off = evtReg b) :
    Typed s (s.evtWrite b v) off d v := by
  have apart : ∀ i < 8, off ≠ MSIX_PBA i := fun i hi => by rw [here]; exact evtReg_ne_pba b i hi
  have first := typedWrite_typed s v hd
  unfold State.evtWrite
  dsimp only
  rw [← here]
  obtain ⟨t, ht⟩ : ∃ t, (s.typedWrite off v).onTop (fun t => { t with again := t.again.upd 0 off (· &&& ~~~v) }) = t := ⟨_, rfl⟩
  have cleared : Typed s t off d v := by
    rw [← ht]
    exact ⟨⟨first.frame.1.trans rfl, first.frame.2⟩, first.value, first.held⟩
  rw [ht]
  exact cleared.routed (routes_routed t b (fun _ n => (v &&& s.top.again.get 0 off).getLsbD n) _) apart

end Sys2Proof.Machine

namespace Sys2Proof.Machine

/-! ### Registers without an effect of their own -/

theorem ownEffect_base {base off : Nat} (h : ownEffect base 0 = true) : ownEffect base off = true := by
  have none_ : decide (MC_PORT_CFG0 ≤ 0 ∧ 0 < MC_PORT_CFG0 + 32) = false := by decide
  unfold ownEffect at h ⊢
  rw [none_, Bool.or_false] at h
  rw [Bool.or_right_comm, h, Bool.true_or]

theorem ownEffect_port {base off : Nat} (h : MC_PORT_CFG0 ≤ off ∧ off < MC_PORT_CFG0 + 32) : ownEffect base off = true := by
  unfold ownEffect
  rw [decide_eq_true h, Bool.or_true, Bool.true_or]

section
variable {s : State} {m : Master} {off : Nat} {d : RegDef} {v : Word}

/-- Its family is none of those with an effect. -/
theorem base_ne (own : ownEffect d.base off = false) {x : Nat} (h : ownEffect x 0 = true) : d.base ≠ x := fun e => by
  rw [e, ownEffect_base h] at own
  exact Bool.noConfusion own

/-- It is none of the registers with an effect. -/
theorem off_ne (hd : regDef? off = some d) (own : ownEffect d.base off = false) {x : Nat} (at_ : (regDef? x).map RegDef.base = some x)
    (h : ownEffect x 0 = true) : off ≠ x := fun e => by
  rw [← e, hd] at at_
  exact base_ne own h ((Option.some.inj at_).trans e)

end

/-- What holds of a register without an effect of its own. -/
structure Plain (off : Nat) (d : RegDef) : Prop where
  reg : regDef? off = some d
  own : ownEffect d.base off = false

section
variable {s : State} {m : Master} {off : Nat} {d : RegDef} {v : Word} (p : Plain off d)
include p

theorem Plain.base {x : Nat} (h : ownEffect x 0 = true) : ¬d.base = x := base_ne p.own h

theorem Plain.bases {x y : Nat} (h : ownEffect x 0 = true) (k : ownEffect y 0 = true) : ¬(d.base = x ∨ d.base = y) :=
  not_or.2 ⟨p.base h, p.base k⟩

theorem Plain.place {x : Nat} (h : ((regDef? x).map RegDef.base == some x && ownEffect x 0) = true) : ¬off = x := by
  rw [Bool.and_eq_true, beq_iff_eq] at h
  exact off_ne p.reg p.own h.1 h.2

theorem Plain.top : s.topWrite m off v = s.typedWrite off v := by
  unfold State.topWrite
  rw [if_neg (p.place (by decide)), if_neg (p.place (by decide))]

theorem Plain.ck : s.ckWrite d off v = s.typedWrite off v := by
  unfold State.ckWrite
  rw [if_neg (p.base (by decide)), if_neg (p.place (by decide))]

theorem Plain.si : s.siWrite d off v = s.typedWrite off v := by
  unfold State.siWrite
  rw [if_neg (p.place (by decide)), if_neg (p.place (by decide)), if_neg (p.place (by decide)), if_neg (p.place (by decide)),
    if_neg (p.base (by decide))]

theorem Plain.adm : s.admWrite d off v = s.typedWrite off v := by
  unfold State.admWrite
  dsimp only
  rw [if_neg (p.base (by decide)), if_neg (p.bases (by decide) (by decide))]

theorem Plain.ds : s.dsWrite off v = s.typedWrite off v := by
  unfold State.dsWrite
  rw [if_neg (p.place (by decide)), if_neg (p.place (by decide))]

theorem Plain.lc : s.lcWrite off v = s.typedWrite off v := by
  unfold State.lcWrite
  rw [if_neg (p.place (by decide)), if_neg (p.place (by decide)), if_neg (p.place (by decide))]

theorem Plain.fs : s.fsWrite d off v = s.typedWrite off v := by
  unfold State.fsWrite
  rw [if_neg (p.place (by decide)), if_neg (p.base (by decide)), if_neg (p.place (by decide)), if_neg (p.base (by decide))]

theorem Plain.dl : s.dlWrite d off v = s.typedWrite off v := by
  unfold State.dlWrite
  rw [if_neg (p.base (by decide)), if_neg (p.base (by decide))]

theorem Plain.cxr : s.cxrWrite d off v = s.typedWrite off v := by
  unfold State.cxrWrite
  dsimp only
  rw [if_neg (p.place (by decide)), if_neg (p.base (by decide)), if_neg (p.bases (by decide) (by decide)), if_neg (p.base (by decide))]

/-- No region of interest. -/
theorem Plain.noRoi : ¬(ROI_CTRL 0 0 ≤ d.base ∧ d.base < ROI_STAT 0 0) := fun h => by
  have own := p.own
  unfold ownEffect at own
  rw [decide_eq_true h, Bool.or_true, Bool.true_or, Bool.true_or, Bool.true_or] at own
  exact Bool.noConfusion own

theorem Plain.ip : s.ipWrite d off v = s.typedWrite off v := by
  unfold State.ipWrite
  dsimp only
  rw [if_neg (p.base (by decide)), if_neg (p.base (by decide)), if_neg (p.base (by decide)), if_neg (p.base (by decide)), if_neg p.noRoi]

theorem Plain.noVe : veProtected d.base = false := by
  have own := p.own
  unfold ownEffect at own
  simp only [Bool.or_eq_false_iff] at own
  exact own.1.1.2

theorem Plain.ve : s.veWrite d off v = s.typedWrite off v := by
  unfold State.veWrite
  rw [if_neg (p.place (by decide)), p.noVe, Bool.and_false, if_neg Bool.false_ne_true, if_neg (p.base (by decide)), if_neg (p.base (by decide))]

theorem Plain.mc : s.mcWrite d off v = s.typedWrite off v := by
  have port : ¬(MC_PORT_CFG0 ≤ off ∧ off < MC_PORT_CFG0 + 32) := fun h => by
    have own := p.own
    rw [ownEffect_port h] at own
    exact Bool.noConfusion own
  unfold State.mcWrite
  dsimp only
  rw [if_neg (p.place (by decide)), if_neg (p.place (by decide)), if_neg port, if_neg (p.base (by decide)), if_neg (p.base (by decide)),
    if_neg (p.base (by decide)), if_neg (p.base (by decide))]

theorem Plain.hi : s.hiWrite d off v = s.typedWrite off v := by
  unfold State.hiWrite
  rw [if_neg (p.base (by decide)), if_neg (p.place (by decide)), if_neg (p.base (by decide))]

theorem Plain.dma : s.dmaWrite d off v = s.typedWrite off v := by
  unfold State.dmaWrite
  dsimp only
  rw [if_neg (p.bases (by decide) (by decide)), if_neg (p.base (by decide)), if_neg (p.base (by decide))]

/-- No register of a check unit: those lie behind the unit's CV_CFG. -/
theorem Plain.noUnit (blk : off / 0x100000 = BLK_CV) : ¬CV_CFG 0 ≤ d.base := fun le => by
  have mem : d ∈ cvRegs := by
    have found := p.reg
    unfold regDef? at found
    rw [blk] at found
    exact List.mem_of_find?_eq_some found
  have all : (cvRegs.all fun d => decide (d.base / 0x100000 = BLK_CV)) = true := by decide
  have inCv := of_decide_eq_true (List.all_eq_true.1 all d mem)
  have own := p.own
  unfold ownEffect at own
  rw [decide_eq_true (show CV_CFG 0 ≤ d.base ∧ d.base / 0x100000 = BLK_CV from ⟨le, inCv⟩), Bool.or_true] at own
  exact Bool.noConfusion own

theorem Plain.cv (blk : off / 0x100000 = BLK_CV) : s.cvWrite d off v = s.typedWrite off v := by
  have low := p.noUnit blk
  have ne : ∀ x, CV_CFG 0 ≤ x → ¬d.base = x := fun x hx e => low (e ▸ hx)
  unfold State.cvWrite
  dsimp only
  rw [if_neg (not_or.2 ⟨ne _ (by decide), ne _ (by decide)⟩), if_neg (ne _ (by decide)), if_neg (ne _ (by decide)), if_neg (ne _ (by decide)),
    if_neg (ne _ (by decide)), if_neg (ne _ (by decide)), if_neg (ne _ (by decide)), if_neg low]

theorem Plain.mx : s.mxWrite d off v = s.typedWrite off v := by
  unfold State.mxWrite
  dsimp only
  rw [if_neg (p.base (by decide)), if_neg (p.base (by decide)), if_neg (p.base (by decide)), if_neg (p.base (by decide))]

theorem Plain.qe : s.qeWrite d off v = s.typedWrite off v := by
  unfold State.qeWrite
  dsimp only
  rw [if_neg (p.base (by decide)), if_neg (p.base (by decide)), if_neg (p.bases (by decide) (by decide))]

theorem Plain.le : s.leWrite d off v = s.typedWrite off v := by
  unfold State.leWrite
  dsimp only
  rw [if_neg (p.place (by decide)), if_neg (p.base (by decide)), if_neg (p.place (by decide)), if_neg (p.base (by decide))]

theorem Plain.tb : s.tbWrite d off v = s.typedWrite off v := by
  unfold State.tbWrite
  rw [if_neg (p.place (by decide)), if_neg (p.place (by decide)), if_neg (p.place (by decide)), if_neg (p.place (by decide)),
    if_neg (p.base (by decide)), if_neg (p.base (by decide))]

theorem Plain.en : s.enWrite d off v = s.typedWrite off v := by
  unfold State.enWrite
  rw [if_neg fun h => p.base (by decide) h.1]

theorem Plain.boot : s.bootWrite m off v = s.typedWrite off v := by
  unfold State.bootWrite
  rw [if_neg (p.place (by decide)), if_neg (p.place (by decide))]

/-- A register without an effect of its own is written by its access types alone. -/
theorem Plain.ownWrite {b : Nat} (blk : off / 0x100000 = b) : s.ownWrite m d off v b = s.typedWrite off v := by
  have case_ : ∀ {c : Prop} [Decidable c] {x y : State}, (c → x = s.typedWrite off v) → y = s.typedWrite off v →
      (if c then x else y) = s.typedWrite off v := fun hx hy => by
    split
    · next h => exact hx h
    · exact hy
  unfold State.ownWrite
  refine case_ (fun _ => p.top) <| case_ (fun _ => p.ck) <| case_ (fun _ => p.si) <| case_ (fun _ => p.adm) <| case_ (fun _ => p.ds) <|
    case_ (fun _ => p.lc) <| case_ (fun _ => p.fs) <| case_ (fun _ => p.dl) <| case_ (fun _ => p.cxr) <| case_ (fun _ => p.ip) <|
    case_ (fun _ => p.ve) <| case_ (fun _ => p.mc) <| case_ (fun _ => p.hi) <| case_ (fun _ => p.dma) <| case_ (fun h => p.cv (blk.trans h)) <|
    case_ (fun _ => p.mx) <| case_ (fun _ => p.qe) <| case_ (fun _ => p.le) <| case_ (fun _ => p.tb) <| case_ (fun _ => p.en) <|
    case_ (fun _ => if_neg (p.place (by decide))) <| case_ (fun _ => p.boot) rfl

end

end Sys2Proof.Machine

namespace Sys2Proof.Machine

/-- A register without an effect of its own, the event registers among them, is written by its access types. -/
theorem blockWrite_typed (s : State) (m : Master) {off : Nat} {d : RegDef} (v : Word) (p : Plain off d) :
    Typed s (s.blockWrite m d off v) off d v := by
  obtain ⟨b, blk⟩ : ∃ b, off / 0x100000 = b := ⟨_, rfl⟩
  by_cases plain : (hasEvents b && (off == evtEnReg b || off == evtReg b)) = true
  · rw [Bool.and_eq_true, Bool.or_eq_true, beq_iff_eq, beq_iff_eq] at plain
    obtain ⟨events, here⟩ := plain
    unfold State.blockWrite
    dsimp only
    rw [blk, events, Bool.true_and, Bool.true_and]
    by_cases en : off = evtEnReg b
    · rw [if_pos (beq_iff_eq.2 en)]
      exact enableWrite_typed s v p.reg en
    · rw [if_neg (by rwa [beq_iff_eq]), if_pos (beq_iff_eq.2 (here.resolve_left en))]
      exact statusWrite_typed s v p.reg (here.resolve_left en)
  · rw [blockWrite_own s m d v blk (Bool.not_eq_true _ ▸ plain), p.ownWrite blk]
    exact typedWrite_typed s v p.reg

section
variable {s : State} {m : Master} {off : BitVec 26} {v : Word}

/-- A write at a word's own offset. -/
theorem registerWrite_eq (aligned : off.toNat % 4 = 0) : exec (.registerWrite m off v) s =
    .next (s.regGuard m off.toNat true fun s => s.writeReg m off.toNat v) := by
  have word : off.toNat / 4 * 4 = off.toNat := by omega
  change Host.Outcome.next (s.regGuard m (off.toNat / 4 * 4) true _) = _
  rw [word]

theorem registerWrite_permitted {d : RegDef} (aligned : off.toNat % 4 = 0) (perm : s.permits m (regAddr off.toNat) true = true)
    (hd : regDef? off.toNat = some d) : exec (.registerWrite m off v) s =
      .next ((s.busGrant m).whenAwake off.toNat fun s => s.blockWrite m d off.toNat v) := by
  rw [registerWrite_eq aligned, regGuard_permitted _ perm, State.writeReg, hd]

theorem registerWrite_awake {d : RegDef} (aligned : off.toNat % 4 = 0) (perm : s.permits m (regAddr off.toNat) true = true)
    (hd : regDef? off.toNat = some d) (awake : s.awake (off.toNat / 0x100000) = true) :
    exec (.registerWrite m off v) s = .next ((s.busGrant m).blockWrite m d off.toNat v) := by
  rw [registerWrite_permitted aligned perm hd, whenAwake_awake _ (by rw [awake_busGrant]; exact awake)]

end

/-- The grant of the bus changes nothing that the value of a write depends on. -/
theorem typedValue_busGrant (s : State) (m : Master) (d : RegDef) (off : Nat) (v : Word) :
    (s.busGrant m).typedValue d off v = s.typedValue d off v := by
  have fresh : (s.busGrant m).top.fresh = s.top.fresh := by
    unfold State.busGrant
    split <;> rfl
  unfold State.typedValue
  rw [fresh, bit_busGrant, reg_busGrant]

theorem Reported.from_busGrant {s t : State} {m : Master} {code : BitVec 16} {inst : BitVec 8} {info : BitVec 48}
    (h : Reported (s.busGrant m) t code inst info) : Reported s t code inst info := h.from (by rw [busGrant_si])

/-- R3, R4, R5, R9, R465: a register's write by the access types, and the rows that other writes are. -/
theorem register_fields : registerFieldsFollowTheirTypes := by
  intro s m off v aligned o e
  refine ⟨fun denied => ?_, fun perm => ⟨fun none_ => ?_, fun d hd asleep => ?_, fun d hd awake own => ?_⟩, writes_are_rows s m v,
    commands_are_rows s m v⟩
  · refine ⟨_, (registerWrite_eq aligned).trans (congrArg _ (regGuard_denied _ denied)), denied_frame s m _⟩
  · change exec (.registerWrite m off v) s = _
    rw [registerWrite_eq aligned, regGuard_permitted _ perm, State.writeReg, none_]
  · refine ⟨_, (registerWrite_permitted aligned perm hd).trans
      (congrArg _ (whenAwake_asleep _ (by rw [awake_busGrant]; exact asleep))), (Frame.refl _ _ _).fault, ?_⟩
    exact Reported.from_busGrant (fault_reported _ _ _ _)
  · have typed := blockWrite_typed (s.busGrant m) m v ⟨hd, own⟩
    refine ⟨_, registerWrite_awake aligned perm hd awake, typed.frame, ?_, fun locked differs => ?_⟩
    · rw [typed.value, typedValue_busGrant]
    · exact Reported.from_busGrant (typed.held (by rw [bit_busGrant]; exact locked) (by rw [reg_busGrant]; exact differs))

/-! ### Registers that hold while their block uses them -/

/-- What a write by the access types shows of the state before the bus was granted. -/
theorem typedWrite_shows (s : State) (m : Master) {off : Nat} {d : RegDef} (v : Word) (hd : regDef? off = some d) :
    Frame (s.busGrant m) ((s.busGrant m).typedWrite off v) [off] [] ∧ ((s.busGrant m).typedWrite off v).reg off = s.typedValue d off v := by
  have typed := typedWrite_typed (s.busGrant m) v hd
  exact ⟨typed.frame, typed.value.trans (typedValue_busGrant s m d off v)⟩

/-- The entry of the table is the one of its row. -/
theorem AtRow.of_reg {off base blk ix : Nat} {d : RegDef} (row : rowAt off base blk ix = true) (hd : regDef? off = some d) :
    AtRow off base blk ix d := by
  obtain ⟨d', at_⟩ := atRow row
  have same : d' = d := Option.some.inj (at_.reg.symm.trans hd)
  exact same ▸ at_

theorem jobBase_write (t : State) (m : Master) {off : Nat} {d : RegDef} {j : Fin 2} (v : Word) (hd : regDef? off = some d)
    (here : off = JOB_BASE_LO j ∨ off = JOB_BASE_HI j) :
    t.blockWrite m d off v = if t.slotState j ∈ [0, 2, 3] then t.typedWrite off v else t := by
  have rows : ∀ j : Fin 2, rowAt (JOB_BASE_LO j) (JOB_BASE_LO 0) BLK_ADM j = true ∧ rowAt (JOB_BASE_HI j) (JOB_BASE_HI 0) BLK_ADM j = true := by
    decide
  have adm : ∀ base, AtRow off base BLK_ADM j d → base = JOB_BASE_LO 0 ∨ base = JOB_BASE_HI 0 → base ≠ SLOT_CMD 0 →
      t.blockWrite m d off v = if t.slotState j ∈ [0, 2, 3] then t.typedWrite off v else t := fun base at_ held other => by
    rw [blockWrite_own t m d v at_.blk at_.plain]
    change t.admWrite d off v = _
    unfold State.admWrite
    dsimp only
    rw [at_.base, at_.ix, if_neg other, if_pos held]
    exact if_congr List.contains_iff_mem rfl rfl
  rcases here with rfl | rfl
  · exact adm _ (AtRow.of_reg (rows j).1 hd) (.inl rfl) (by decide)
  · exact adm _ (AtRow.of_reg (rows j).2 hd) (.inr rfl) (by decide)

/-- A register of a region of interest: its camera and region, and its family between ROI_CTRL and ROI_STAT. -/
def roiRow (off n r : Nat) : Bool :=
  match regDef? off with
  | some d => decide (d.ix off = (n, r)) && decide (ROI_CTRL 0 0 < d.base ∧ d.base < ROI_STAT 0 0) && off / 0x100000 == BLK_IP &&
      !(hasEvents BLK_IP && (off == evtEnReg BLK_IP || off == evtReg BLK_IP))
  | none => false

theorem roi_rows : ∀ (n : Fin 12) (r : Fin 8), ([ROI_START_LO n r, ROI_START_HI n r, ROI_LINES n r, ROI_PERIOD n r, ROI_BASE_LO n r,
    ROI_BASE_HI n r, ROI_RING n r].all fun o => roiRow o n r) = true := by decide

theorem roi_write (t : State) (m : Master) {off : Nat} {d : RegDef} {n r : Nat} (v : Word) (hd : regDef? off = some d)
    (row : roiRow off n r = true) :
    t.blockWrite m d off v = if t.bit (ROI_CTRL n r) ROI_CTRL_EN = true then t.fault 0x0305 n (regAddr off) else t.typedWrite off v := by
  unfold roiRow at row
  rw [hd] at row
  simp only [Bool.and_eq_true, beq_iff_eq, decide_eq_true_eq, Bool.not_eq_true'] at row
  obtain ⟨⟨⟨ix, lo, hi⟩, blk⟩, plain⟩ := row
  have ne : ∀ x, x ≤ ROI_CTRL 0 0 → d.base ≠ x := fun x hx e => by omega
  rw [blockWrite_own t m d v blk plain]
  change t.ipWrite d off v = _
  unfold State.ipWrite
  dsimp only
  rw [ix, if_neg (ne _ (by decide)), if_neg (ne _ (by decide)), if_neg (ne _ (by decide)), if_neg (ne _ (by decide)),
    if_pos ⟨Nat.le_of_lt lo, hi⟩]

/-- The registers that hold while the verification engine runs are of its block. -/
theorem veProtected_block {b : Nat} {d : RegDef} (mem : d ∈ blockRegs b) (held : veProtected d.base = true) : b = BLK_VE := by
  have all : ∀ b < 27, ((blockRegs b).all fun d => !veProtected d.base || b == BLK_VE) = true := by decide
  by_cases small : b < 27
  · have := List.all_eq_true.1 (all b small) d mem
    rw [held] at this
    exact beq_iff_eq.1 this
  · have empty : blockRegs b = [] := by
      unfold blockRegs
      split
      case h_24 => rfl
      all_goals exact absurd (by decide) small
    rw [empty] at mem
    exact absurd mem List.not_mem_nil

theorem ve_write (t : State) (m : Master) {off : Nat} {d : RegDef} (v : Word) (hd : regDef? off = some d) (held : veProtected d.base = true) :
    t.blockWrite m d off v = if t.bit VE_CTRL VE_CTRL_EN = true then t.fault 0x0346 0xFF (regAddr off) else t.typedWrite off v := by
  have blk : off / 0x100000 = BLK_VE := by
    have found := hd
    unfold regDef? at found
    exact veProtected_block (List.mem_of_find?_eq_some found) held
  have apart : ∀ x, (match regDef? x with | some d => veProtected d.base | none => false) = false → off ≠ x := fun x hx e => by
    rw [← e, hd] at hx
    exact Bool.noConfusion (hx.symm.trans held)
  have plain : (hasEvents BLK_VE && (off == evtEnReg BLK_VE || off == evtReg BLK_VE)) = false := by
    rw [beq_eq_false_iff_ne.2 (apart (evtEnReg BLK_VE) (by decide)), beq_eq_false_iff_ne.2 (apart (evtReg BLK_VE) (by decide))]
    rfl
  have ne : ∀ x, veProtected x = false → d.base ≠ x := fun x hx e => by
    rw [← e, held] at hx
    exact Bool.noConfusion hx
  rw [blockWrite_own t m d v blk plain]
  change t.veWrite d off v = _
  unfold State.veWrite State.veOn
  rw [if_neg (apart VE_CTRL (by decide)), held, Bool.and_true, if_neg (ne _ (by decide)), if_neg (ne _ (by decide))]

theorem regDef_EN_CFG : ∀ k : Fin 2, ∃ d, regDef? (EN_CFG k) = some d ∧ d.rw = 0xFFFF000F ∧ d.rwl = 0 ∧ d.w1c = 0 := by decide

theorem enCfg_write (t : State) (m : Master) {d : RegDef} (k : Fin 2) (v : Word) (hd : regDef? (EN_CFG k) = some d) :
    t.blockWrite m d (EN_CFG k) v = if t.bit (EN_CFG k) EN_CFG_EN = true
      then t.setReg (EN_CFG k) (fldPut EN_CFG_EN (fldGet EN_CFG_EN v) (t.reg (EN_CFG k))) else t.typedWrite (EN_CFG k) v := by
  have rows : ∀ k : Fin 2, rowAt (EN_CFG k) (EN_CFG 0) BLK_EN k = true := by decide
  have at_ := AtRow.of_reg (rows k) hd
  obtain ⟨d', hd', rw_, rwl, w1c⟩ := regDef_EN_CFG k
  rw [blockWrite_own t m d v at_.blk at_.plain]
  change t.enWrite d (EN_CFG k) v = _
  unfold State.enWrite
  rw [at_.base]
  by_cases on : t.bit (EN_CFG k) EN_CFG_EN = true
  · rw [if_pos ⟨rfl, on⟩, if_pos on, typedWrite_plain t _ hd' rwl w1c, rw_, merged_fldPut _ (by decide)]
  · rw [if_neg (fun h => on h.2), if_neg on]

theorem registers_hold : registersHoldInUse := by
  intro s m off v d o e aligned perm hd awake
  have run : e = .next ((s.busGrant m).blockWrite m d o v) := registerWrite_awake aligned perm hd awake
  have written := typedWrite_shows s m v hd
  refine ⟨fun j here => ?_, fun n r here => ?_, fun held => ?_, fun k here => ?_⟩
  · rw [jobBase_write _ m v hd here, show (s.busGrant m).slotState j = s.slotState j from fld_busGrant _ _ _ _] at run
    split
    · next free => exact ⟨_, run.trans (congrArg _ (if_pos free)), written⟩
    · next busy => exact run.trans (congrArg _ (if_neg busy))
  · rw [roi_write _ m v hd (List.all_eq_true.1 (roi_rows n r) o here), bit_busGrant] at run
    split
    · next on =>
      exact ⟨_, run.trans (congrArg _ (if_pos on)), (Frame.refl _ _ _).fault, Reported.from_busGrant (fault_reported _ _ _ _)⟩
    · next off_ => exact ⟨_, run.trans (congrArg _ (if_neg off_)), written⟩
  · rw [ve_write _ m v hd held, bit_busGrant] at run
    split
    · next on =>
      exact ⟨_, run.trans (congrArg _ (if_pos on)), (Frame.refl _ _ _).fault, Reported.from_busGrant (fault_reported _ _ _ _)⟩
    · next off_ => exact ⟨_, run.trans (congrArg _ (if_neg off_)), written⟩
  · rw [here] at run written hd ⊢
    rw [enCfg_write _ m k v hd, bit_busGrant, reg_busGrant] at run
    split
    · next on =>
      exact ⟨_, run.trans (congrArg _ (if_pos on)), (Frame.refl _ _ _).setReg (by simp), reg_setReg_same _ _ _⟩
    · next off_ => exact ⟨_, run.trans (congrArg _ (if_neg off_)), written⟩

/-- Settles O6: a write reaches its block by the register's place in the table; of a register without an effect of its
own every block makes the write by the access types, and each row's command is the function that the block calls. -/
theorem registerWriteFollowsAccessTypes : Obligations.RegisterWriteFollowsAccessTypes := ⟨register_fields, registers_hold⟩

end Sys2Proof.Machine
